-- ==== Sys2Proof/Word.lean ====
section
/-! DEFINITION. The word and byte types of the K7's registers and structures (R6, R7: bit 0 is least significant; a
register and a word are 64 bits) and their plainest arithmetic on naturals. -/

namespace Sys2Proof

/-- A register or structure word (00_scope, "Numbers, bits and bytes"). -/
abbrev Word := BitVec 64

/-- One byte. -/
abbrev Byte := BitVec 8

/-- Bits `[lo + len - 1 : lo]` of `w`, R6. -/
def bitsOf (w lo len : Nat) : Nat := (w >>> lo) % 2 ^ len

/-- Bit `i` of `w`. -/
def bitOf (w i : Nat) : Bool := w.testBit i

/-- The two's complement reading of a `len`-bit field. -/
def signedOf (len v : Nat) : Int :=
  if v % 2 ^ len < 2 ^ (len - 1) then (v % 2 ^ len : Nat) else (v % 2 ^ len : Nat) - (2 ^ len : Nat)

/-- The `len`-bit two's complement field of an integer. -/
def fieldOfInt (len : Nat) (i : Int) : Nat := (i % (2 ^ len : Nat)).toNat

/-- 1 for true, 0 for false: a one-bit field. -/
def bit (b : Bool) : Nat := if b then 1 else 0

/-- Saturation at `m` (the counters of R10's RC fields). -/
def satAdd (m a b : Nat) : Nat := min m (a + b)

end Sys2Proof
end

