-- ==== Sys2Proof/Syntax.lean ====
section
/-! DEFINITION. The commands the block takes: one constructor of `Instr` per row of spec/opcode_table.json, with the operands
that the row's rule names. A command is a host's Vorane command, a register access by a master, a message or frame that
arrives, or an event at a pin, timer or unit. What the outside supplies (readings of an analogue circuit, data read from
host memory, the outcome of a cryptographic check) is an operand. -/

namespace Sys2Proof

/-- R39: the masters of the register window, with the queue pair of a host access or the logical S-core `c * 64 + k`. -/
inductive Master where
  | oasis
  | hostA (qp : Nat)
  | hostB (qp : Nat)
  | score (ck : Nat)
deriving DecidableEq, Repr

/-- R338: a Vorane COMMAND as it arrives, without its opcode, which the row names. `reserved` is the logical or of the header
fields marked reserved; `payload` is the SEND's length in bytes. -/
structure Cmd where
  qp : Nat
  version : Nat := 1
  kind : Nat := 1
  reserved : Nat := 0
  fence : Bool := false
  bodyWords : Nat
  cmdId : Nat
  timeout : Nat := 0
  scale : Nat := 0
  body : List Word := []
  payload : Nat
deriving DecidableEq, Repr

/-- R237, R238: a pip, as its header words and payload bytes. -/
structure Pip where
  dest : Nat
  stream : Nat
  seq : Nat
  gen : Nat
  hollow : Bool := false
  last : Bool := false
  epoch : Nat := 0
  drain : Bool := false
  fmt : Nat := 0
  source : Nat := 0
  egress : Nat := 0
  ingress : Nat := 0
  payload : List Nat := []
deriving DecidableEq, Repr

/-- Where a V-core operation reads bytes: SRAM, at an offset to which the scalar control unit's value is added where `idx`; or the
payload of pip `n` of the step's input set. -/
inductive VSrc where
  | sram (off : Nat) (idx : Bool)
  | pip (n off : Nat)
deriving DecidableEq, Repr

/-- R215: an attention step of one query head: the context's slot, positions `0` to `len - 1`, the format of its pages, `nb` blocks of
32 channels a head, the bytes of a position's record and where its key and value stand in it, the query's blocks in SRAM, the FP32
scale, the masked positions, and the first of the registers that take the output. -/
structure Attn where
  slot : Nat
  len : Nat
  fmt : Nat
  nb : Nat
  stride : Nat
  kOff : Nat
  vOff : Nat
  q : Nat
  scale : Nat
  masked : List Nat
  d : Nat
deriving DecidableEq, Repr

/-- R210: an explicit send of a kernel: destination 0 or 1 of its entry, SEQ, FMT, XMAX, the rounding mode of R117 (0 SR, 1 RNE, 2 RZ),
the SRAM offset of the residuals where the placement reserves them, and the registers whose lanes are the elements, `n` of them. -/
structure VSend where
  dest : Nat
  seq : Nat
  fmt : Nat
  xmax : Nat
  mode : Nat
  resid : Option Nat
  regs : List Nat
  n : Nat
deriving DecidableEq, Repr

/-- An operation of a kernel, by the classes of R206. The V-core's own encoding of them, which the manual does not give (R205), is no part
of the model: a step's operations are an operand of its commands. Registers are `d`, `a`, `b` and `c`; a number `fmt`, `src` or `dst`
names a format as its definition says. -/
inductive VOp where
  /-- Add (0), multiply (1), fused multiply-add (2) in FP32 (0), FP16 (1) or BF16 (2). -/
  | arith (op fmt : Nat) (rz : Bool) (d a b c : Nat)
  /-- Compare, min, max, select, integer and bit operations. -/
  | lanes (op d a b c : Nat)
  /-- Every lane takes a constant. -/
  | fill (d w : Nat)
  /-- exp (0), log (1), reciprocal (2), reciprocal square root (3). -/
  | func (f d a : Nat)
  /-- Sum (0), max (1), argmax (2) of the lanes, into lane 0. -/
  | reduce (f d a : Nat)
  /-- Conversion among FP32 (0), FP16 (1), BF16 (2), E4M3 (3), E5M2 (4). -/
  | conv (src dst : Nat) (sr : Bool) (d a : Nat)
  /-- 64 draws of the generator seeded with `seed`. -/
  | draw (d seed : Nat)
  | load (d : Nat) (src : VSrc)
  | store (a off : Nat) (idx : Bool)
  /-- A block of format code `fmt` (R106) to FP32 in lanes `32 * half` on. -/
  | dequant (fmt d half : Nat) (src : VSrc)
  /-- Lanes `32 * half` on to a block of format code `fmt` in SRAM. -/
  | quant (fmt xmax : Nat) (sr : Bool) (a half off : Nat)
  /-- R115: a block of BA4 (0), BA8 (1) to MXINT8, or of MXINT8 (8) to BA8, from SRAM to SRAM. -/
  | rescale (fmt src dst : Nat)
  | tileClear
  /-- 32 vectors from `a` times 32 vectors from `b` in SRAM, added to the tile: MX blocks of codes 5 to 8, or 32 E4M3 (9) or E5M2 (10). -/
  | tile (fmt a b : Nat)
  /-- A row of the tile into lanes 0 to 31. -/
  | tileRow (d row : Nat)
  /-- The scalar control unit takes a lane as a branch condition, loop count or address. -/
  | ctl (a lane : Nat)
  /-- The stream engine moves `n` codewords of 64 bytes from external memory to SRAM, or out of SRAM. -/
  | stream (out : Bool) (addr off n : Nat) (idx : Bool)
  /-- `n` bytes of a position's record of a context's page to SRAM. -/
  | kvRead (slot pos stride off n dst : Nat)
  | attend (t : Attn)
  | send (o : VSend)
  /-- A send of `n` bytes of SRAM as they stand. -/
  | sendRaw (dest seq fmt off n : Nat)
deriving DecidableEq, Repr

/-- R117 site 0x03: the values of one KV head that a KV write quantises: registers, format code, and the SRAM offset of the
residuals. -/
structure KvPart where
  head : Nat
  fmt : Nat
  resid : Option Nat
  regs : List Nat
  n : Nat
deriving DecidableEq, Repr

/-- R234: the sideband of a flit on a mesh link, beside its 128 data bytes: the class (0 request, 1 response, 2 pip, 3 management), the type
(0 head, 1 body, 2 tail, 3 head and tail) and the CRC-32C. -/
structure FlitSide where
  cls : Nat
  typ : Nat
  crc : Nat
deriving DecidableEq, Repr

/-- R234: a flit: its data bytes and its sideband. -/
structure Flit extends FlitSide where
  data : List Nat
deriving DecidableEq, Repr

/-- R362: a Borsan frame. `words` is the payload: for a pip its header fields and bytes (R238), for another frame its fields in
the order its rule gives; `len` its length in bytes. -/
structure Frame where
  cls : Nat
  typ : Nat
  phase : Nat := 0
  dateline : Bool := false
  dest : Nat := 0
  src : Nat := 0
  order : Nat := 0
  signs : Nat := 0
  detoured : Bool := false
  resent : Bool := false
  seq : Nat := 0
  ackSeq : Nat := 0
  ackValid : Bool := false
  creditVc : Nat := 0
  creditCount : Nat := 0
  len : Nat := 0
  words : List Nat := []
deriving DecidableEq, Repr

/-- R373: a link-state notice. `state`: 0 UP, 1 DOWN, 2 ADMIN_DOWN, 3 LEAVING; `lastSeq`: the last LINK_SEQ accepted on the
inbound way of the direction. -/
structure Lsn where
  origin : Nat
  dir : Nat
  state : Nat
  seq : Nat
  stamp : Nat
  lastSeq : Nat
deriving DecidableEq, Repr

/-- Who asks an HBM controller, R262, R272: the masters of the register window, a V-core's stream engine, an engine's
programming path, a collective unit. -/
inductive Requester where
  | master (m : Master)
  | stream (v : Nat)
  | program (e : Nat)
  | collective (u : Nat)
deriving DecidableEq, Repr

/-- R380: the content of a HELLO that its receiver checks. -/
structure Hello where
  serial : Nat
  plan : Nat
  x : Nat
  y : Nat
  z : Nat
  dir : Nat
  dx : Nat
  dy : Nat
  dz : Nat
  state : Nat
  ok : Bool
  ovr : Bool
  slot : Nat
  lanes : Nat
  routeVer : Nat
  stamp : Nat
deriving DecidableEq, Repr

/-- R400: an entry of a manifest's shard table. -/
structure Shard where
  target : Nat
  chain : Nat
  bytes : Nat
  digest : Nat
deriving DecidableEq, Repr

/-- R400: a shard manifest: its header, chain table and shard table, and the SHA-384 of the whole. -/
structure Manifest where
  modelId : Nat
  modelRev : Nat
  keyId : Nat
  bytes : Nat
  chains : List (List Nat)
  shards : List Shard
  digest : Nat
deriving DecidableEq, Repr

/-- An Ethernet frame as a host port classifies it, R323, R326. `net`: 0 none of the others, 1 IPv4, 2 IPv6, 3 ARP, 4 LLDP, 5 PTP
over Ethernet, 6 PFC, 7 global PAUSE. `extra`: IPv4 options or a fragment, or an IPv6 extension header. `proto`: 17 UDP, 58
ICMPv6 neighbour discovery, anything else unsupported. `rdmaOk`: a RoCE v2 packet's operation is one of R331's or one that
R332 answers. FEC codewords corrected and uncorrectable since the last frame come with it. -/
structure EthFrame where
  bytes : Nat
  vlan : Option Nat := none
  stacked : Bool := false
  net : Nat := 1
  extra : Bool := false
  proto : Nat := 17
  udpPort : Nat := 4791
  rdmaOk : Bool := true
  ce : Bool := false
  qp : Nat := 0
  corrected : Nat := 0
  uncorrected : Nat := 0
deriving DecidableEq, Repr

/-- A connection REQ, R333 to R335: its private data, what it offers, and where it came from. -/
structure CmReq where
  priv : List Nat
  resources : Nat
  qpn : Nat
  psn : Nat
  ipHi : Nat
  ipLo : Nat
  mac : Nat
  pmtu : Nat
  retryCnt : Nat
  rnrRetry : Nat
  ackTimeout : Nat
deriving DecidableEq, Repr

/-- R416, R423, R424, R486, R487, R561: what the ROM finds: which Seed Vault copies verify, whether they are equal, their sequence
numbers, the digest of the copy in use as six words; whether a slot of the field repair record is valid; the outcome of the
identity check and the digests of the three public keys; the flash's JEDEC identification and size, whether it identifies itself and
its SFDP can be read, flash reads that failed; which slots' images verify apart from the floor. -/
structure Boot where
  ok0 : Bool := true
  ok1 : Bool := true
  equal : Bool := true
  seq0 : Nat := 1
  seq1 : Nat := 1
  digest : List Nat := []
  recordOk : Bool := true
  idOk : Bool := true
  devid : List Nat := []
  wrap : List Nat := []
  aliasKey : List Nat := []
  jedec : Nat := 0
  sizeMib : Nat := 256
  flashOk : Bool := true
  readErrs : Nat := 0
  verifyA : Bool := true
  verifyB : Bool := true
deriving DecidableEq, Repr

/-- R282, R314: where a variant's work is placed: its KV V-cores, the cores of its stages, its roles and what its operations
need: Lyszan's placement, as the variant's items give it. -/
structure Placement where
  vocab : Nat := 0
  kvCores : List Nat := []
  cores : List Nat := []
  /-- Engine instance, bank the activation programs, image address, format and CRC. -/
  items : List (Nat × Nat × Nat × Nat × Nat) := []
  modules : List Nat := []
  /-- M-cores and the stream base of each edge of the placement, R299. -/
  edges : List (Nat × Nat) := []
  /-- The head module's position. -/
  head : Nat := 0
deriving DecidableEq, Repr

/-- R399: an entry of the shard directory: KIND, FORMAT, TARGET, CRC, and OFFSET and LENGTH in the plaintext body. -/
structure DirEntry where
  kind : Nat
  fmt : Nat := 0
  target : Nat := 0
  crc : Nat := 0
  off : Nat := 0
  len : Nat := 0
deriving DecidableEq, Repr

/-- An item and the address in external memory that Lyszan's placement assigns to it (R276, R436); for KIND 3 the offset in the core's SRAM
too. -/
structure Item extends DirEntry where
  addr : Nat := 0
  sram : Nat := 0
deriving DecidableEq, Repr

/-- R164: what the head module's message and the others' answers say: the epoch value passed to a module that is not the head, and whether
every other module of the placement has confirmed its writes. -/
structure EpochPass where
  value : Nat
  confirmed : Bool
deriving DecidableEq, Repr

/-- R209: the V-core whose kernel begins, and the operations it begins with. -/
structure KernelRun where
  core : Nat
  ops : List VOp
deriving DecidableEq, Repr

/-- R37, R221: an S-core's access: its width in bytes, and the value stored where it is a store. -/
structure CoreAccess where
  bytes : Nat
  store : Option Nat
deriving DecidableEq, Repr

/-- R241, R244: who asks for credits: the producer, or its return slot, and its GEN. -/
structure CredFrom where
  core : Nat
  gen : Nat
deriving DecidableEq, Repr

/-- R243, R244: the generations that a credit response carries: the consumer's, and the requester's echoed. -/
structure CredGens where
  gen : Nat
  reqGen : Nat
deriving DecidableEq, Repr

/-- R407, R412: a Husk's copy: whether it could be read, the address where Oasis stores it when it verifies, and its bytes. -/
structure HuskCopy where
  ok : Bool
  addr : Nat
  bytes : List Nat
deriving DecidableEq, Repr

/-- R422, R524: an image read for staging: its length in bytes and the digests of its sections. -/
structure FwImage where
  bytes : Nat
  sections : List Nat
deriving DecidableEq, Repr

/-- The commands: those with operands in the table's order, then those without. Each cites the rule its row names. -/
inductive Instr where
  /-- R42. A master's write to a register field that has no row of its own takes effect in arrival order, subject to the access code, the guard, reset and restricted-field checks. -/
  | registerWrite (m : Master) (a w : Nat)
  /-- R10. A read of an RC field returns its value and clears it for every master. -/
  | rcRead (m : Master) (a : Nat)
  /-- R48. A write of 1 to CTL.ERR_REARM empties ERR_CAP0-ERR_CAP3 and arms them for the next error. -/
  | errRearm (m : Master) (pi w : Nat)
  /-- R462. A write of 1 to CTL.DOMAIN_RESET, with RESET_MODE, requests a reset of the page's domain. -/
  | ctlDomainReset (m : Master) (pi w : Nat)
  /-- R50. A write to INT_FORCE sets the matching INT_STATUS bits. -/
  | intForce (m : Master) (pi w : Nat)
  /-- R345. A Vorane REG_READ reads 1 to 64 words within one page and returns them with a result, a stamp and a hollow mask. -/
  | regRead (c : Cmd)
  /-- R345. A Vorane REG_WRITE applies 1 to 64 words in ascending address order and stops at the first failure. -/
  | regWrite (c : Cmd)
  /-- R66. A write of epoch bindings to ENG.BANK_CTL is applied, or refused whole with BANK_NOT_READY. -/
  | bankCtlWrite (m : Master) (e w : Nat)
  /-- R77. A conversion sub-step ends; its results are latched and handed to the post-unit, and the selector moves to the next quarter. -/
  | subStepEnd (e : Nat) (noise : List Int)
  /-- R92. INTERVAL has passed since a tracked bank's last sweep, and a sweep is scheduled in the next idle slots. -/
  | pilotSweepDue (e b : Nat)
  /-- R86. A pilot sub-step converts PL0-PL7 for one 64-row block in an idle slot. -/
  | pilotSubStep (e b : Nat) (noise : List Int)
  /-- R94. 4 x INTERVAL passes without a sweep, and an 88-cycle sweep is forced after the plane pass in progress. -/
  | forcedSweep (e b : Nat) (noise : List (List Int))
  /-- R92. A tracked bank goes unswept for 4 x INTERVAL, and STATUS.PILOT_STALE rises. -/
  | pilotStale (e : Nat)
  /-- R97. A write of 1 to CTL.PILOT_NOW requests a sweep of every tracked bank. -/
  | pilotNow (m : Master) (e w : Nat)
  /-- R146. A write of PROG_CMD.START checks the program operation and queues it, defers it or refuses it. -/
  | progStart (m : Master) (e w : Nat)
  /-- R148. A write of PROG_CMD.ABORT removes a queued operation, or stops a running one at the end of its row pulse. -/
  | progAbort (m : Master) (e w : Nat)
  /-- R157. A deferred operation's DEFER_UNTIL stamp passes, and the operation becomes eligible for a slot. -/
  | deferExpiry (e : Nat)
  /-- R141. A 2.0 us row pass ends, and the next row or the next pass begins. -/
  | rowPulseEnd (e : Nat)
  /-- R142. A verify-read sub-step completes, and a complete row is judged within tolerance. -/
  | verifySubStep (e : Nat) (devs noise : List Int)
  /-- R143. A row's verify deadline passes, and the verify becomes forced. -/
  | verifyDeadline (e : Nat)
  /-- R159. A write to the governor policy fields takes effect at the next judgement and is logged. -/
  | govPolicyWrite (m : Master) (e w : Nat)
  /-- R185. A held tile reaches 200 us and is sent to the SLOW_VCORE, or HOLD_TIMEOUT is raised when none is named. -/
  | holdTimeout (ck : Nat)
  /-- R185. Oasis names a SLOW_VCORE for a held M-core, and the held tile is sent to it. -/
  | slowVcoreNamed (ck : Nat)
  /-- R163. When the retrimmed bank is READY, Oasis rebinds the drifted bank's epochs to it. -/
  | localFlip (e : Nat)
  /-- R164. With every engine staged and verified, Oasis chooses the new epoch, binds it on every module and activates the variant. -/
  | epochBind (v : Nat) (elsewhere : Nat) (pass : EpochPass)
  /-- R243. A pip's tail flit arrives at the consumer's network interface, and the pip is compared by GEN and written into its matching buffer or dropped. -/
  | pipReceive (p : Pip) (pc : Nat) (redirected : Bool)
  /-- R176. An M-core step fires on a complete input set with engines and credits ready; it copies the descriptor and starts the tiles. -/
  | stepFire (ck : Nat)
  /-- R196. The post-unit pipeline finishes requantising a pip's blocks, and the pip is handed to the pip/credit unit. -/
  | postUnitDone (ck : Nat)
  /-- R177. The pip/credit unit injects a pip once it holds the credits for it, resolving DEST with the active map. -/
  | pipSend (ck : Nat)
  /-- R185. A V-core's stand-in values reach the post-unit in place of an engine's values. -/
  | standinResult (ck id n : Nat) (ok : Bool) (vals : List Int)
  /-- R209. A V-core kernel step fires on a complete set with credits reserved. -/
  | kernelStepFire (k : KernelRun)
  /-- R210. A kernel step ends, and its set and unused credits are freed. -/
  | kernelStepEnd (v : Nat) (ops : List VOp)
  /-- R210. A kernel step reaches MAX_CYCLES; KERNEL_OVERRUN is set and the core is treated as hung. -/
  | kernelOverrun (v : Nat)
  /-- R214. A KV write allocates or extends a page, or is refused and taints the step. -/
  | kvWrite (v slot pos off mode : Nat) (parts : List KvPart)
  /-- R213. A RESERVE command adds to a slot's page reservation when enough free slots remain. -/
  | kvReserve (v : Nat)
  /-- R213. A RELEASE command frees a slot's pages and clears its reservation and page table. -/
  | kvRelease (v : Nat)
  /-- R213. A SHARE command copies full page entries to another slot and marks them SHARED. -/
  | kvShare (v : Nat)
  /-- R218. A stand-in request arrives at a V-core and queues, running ahead of kernel steps. -/
  | standinRequest (v ck id n : Nat)
  /-- R219. A V-core finishes streaming and checking an image and returns exact channel sums, or failure. -/
  | standinDone (v : Nat)
  /-- R216. The sampling V-core selects a token from the logits and sends it to the owning S-core. -/
  | sampleToken (v id pos off n : Nat)
  /-- R224. An S-core write to HEARTBEAT restarts its heartbeat timer. -/
  | scoreHeartbeat (ck w : Nat)
  /-- R225. An S-core's heartbeat stops for HEARTBEAT_LIMIT; it is reset and its role is handed over. -/
  | heartbeatLost (ck : Nat)
  /-- R224. MTIME reaches MTIMECMP and raises the machine timer interrupt. -/
  | mtimecmpInterrupt (ck : Nat)
  /-- R224. An S-core write to TX_SEND sends a pip from its SRAM once credits are held. -/
  | txSend (ck w : Nat)
  /-- R224. An S-core advances RX_TAIL, returning the credits of the pips it has consumed. -/
  | rxTailWrite (ck w : Nat)
  /-- R224. A management mailbox packet loads MAILBOX and raises the mailbox interrupt. -/
  | mailbox (ck w : Nat)
  /-- R221. An S-core load that would return hollow data traps with mcause 24. -/
  | hollowLoad (ck pc a n : Nat) (lost : Bool)
  /-- R221. An S-core register-window access that fails traps with mcause 25. -/
  | registerResult (ck pc a : Nat) (x : CoreAccess)
  /-- R222. Oasis sets SCORE.CTL.RUN, and the S-core starts at BOOT_ADDR. -/
  | scoreRun (ck w : Nat)
  /-- R427. A broadcast firmware chunk is written into a target S-core's SRAM and marked in its bitmap. -/
  | coreImageChunk (ck n : Nat) (data : List Nat)
  /-- R427. An END message makes each target hash its code region and report its digest and missing chunks. -/
  | coreImageEnd (ck count digest : Nat)
  /-- R427. Oasis takes a target's report and either starts the core, resends missing chunks, or fences the core after 3 rounds. -/
  | coreImageReport (ck : Nat)
  /-- R234. A router checks a received flit's CRC and accepts it or requests a retry. -/
  | flitReceive (r port : Nat) (data : List Nat) (side : FlitSide)
  /-- R241. A credit request reaches a consumer's network interface and is granted, queued, or answered NO_BUFFER. -/
  | creditRequest (producer : CredFrom) (dest stream n : Nat)
  /-- R241. A credit grant reaches a producer and adds to the channel's credits, adopting the GEN it carries. -/
  | creditGrant (ck dest stream n : Nat) (g : CredGens)
  /-- R242. A credit return or GEN notice reaches a producer, which updates or discards the channel's credits. -/
  | creditReturn (ck dest stream n : Nat) (g : CredGens)
  /-- R241. A release message gives a channel's credits back to the consumer. -/
  | creditRelease (dest stream n gen : Nat)
  /-- R242. A channel's credits go unused for 100 us, and the producer releases them. -/
  | creditIdle (ck dest stream : Nat)
  /-- R241. Every 10 us a producer refused NO_BUFFER repeats its credit request. -/
  | noBufferRetry (ck dest stream : Nat)
  /-- R244. A response reaches its requester, and it is dropped if its REQ_GEN is stale. -/
  | responseReceive (ck pc : Nat) (redirected : Bool) (reqGen : Nat) (words : List Nat)
  /-- R247. Oasis writes interface-map entries into the inactive bank; a write to the active bank is DENIED. -/
  | mapEntryWrite (m : Master) (r b i w : Nat)
  /-- R247. A MAP_SWITCH write makes the inactive map bank active and sets MAP_VER, and the router acknowledges. -/
  | mapSwitch (m : Master) (r w : Nat)
  /-- R253. A mesh half's clock hold ends; the seam allotments are rescaled, distances recomputed and deferred map switches applied. -/
  | clockHoldEnd (half : Nat)
  /-- R268. A controller reads a codeword, corrects or poisons it, and delivers it. -/
  | hbmRead (r : Requester) (id a n : Nat) (lr : Bool) (errs : List (Nat × Nat)) (flips : Nat) (miss : Option Nat)
  /-- R269. A controller writes a whole codeword, or performs a read-modify-write or AMO, with the tag kept. -/
  | hbmWrite (r : Requester) (id a n v : Nat) (hollow : Bool) (kind : Nat) (errs : List (Nat × Nat)) (flips : Nat) (miss : Option Nat)
  /-- R270. The patrol scrub reads the next codeword and handles it as a read. -/
  | scrubRead (st : Nat) (errs : List (Nat × Nat)) (flips : Nat) (miss : Option Nat)
  /-- R261. Training of a stack ends at 8.0 Gb/s, at 6.4 Gb/s, or FAILED. -/
  | hbmTrain (st outcome : Nat)
  /-- R275. The power-on fill of a stack completes and sets INITIALISED. -/
  | hbmFill (st : Nat)
  /-- R264. A write of INTERLEAVE_GIB before READY sets the interleave and the sealed range on every stack. -/
  | interleaveWrite (m : Master) (w : Nat)
  /-- R272. Oasis writes SEALED_BASE or SEALED_LIMIT, and the value is mirrored to every stack. -/
  | sealedRangeWrite (m : Master) (limit : Bool) (w : Nat)
  /-- R286. CTX_OPEN creates a context, reserving its KV pages, or refuses it. -/
  | ctxOpen (c : Cmd)
  /-- R287. CTX_CLOSE releases a context's pages, buffers and slot. -/
  | ctxClose (c : Cmd)
  /-- R289. SUBMIT is checked in order, and accepted as a QUEUED request or refused. -/
  | submit (c : Cmd)
  /-- R309. A CANCEL reaches the ring unit and fixes the outcome CANCELLED, or reports a late or unknown cancel. -/
  | cancel (c : Cmd)
  /-- R292. INQUIRE reports a request or a command record. -/
  | inquire (c : Cmd)
  /-- R297. RING_SETUP binds a ring, or rebinds one and redelivers from its shadow. -/
  | ringSetup (c : Cmd)
  /-- R314. VARIANT_ACTIVATE starts staging and programming a registered variant. -/
  | variantActivate (c : Cmd) (place : Placement) (elsewhere : Nat)
  /-- R315. VARIANT_RETIRE makes an ACTIVE variant DRAINING. -/
  | variantRetire (c : Cmd)
  /-- R290. The RDMA READ of a request's prompt ends, and the request is ready or ends PROMPT_UNREADABLE. -/
  | promptReadDone (id : Nat) (ok : Bool) (tokens : List Nat)
  /-- R299. A queued request takes an active slot and its stream-table entries are written. -/
  | requestActivate (v : Nat)
  /-- R300. The STEP S-core takes a decode or prefill turn, debiting and dispatching sets. -/
  | dispatchTurn (v : Nat)
  /-- R300. A request that has been ready for STARVE_US moves to the head of its list. -/
  | starvePromotion (id : Nat)
  /-- R321. A DEBIT_COUNT write from an S-core refills and debits the tenant account. -/
  | tenantDebit (m : Master) (t w : Nat)
  /-- R303. A change of ENABLED from 0 to 1 fills the account's balance, and clearing it refuses new work. -/
  | tenantEnable (m : Master) (t w : Nat)
  /-- R303. A write of RATE or DEPTH refills at the old values, then applies the new ones. -/
  | tenantRateWrite (m : Master) (t w : Nat)
  /-- R307. A request's deadline timer expires at the ring unit and fixes the outcome DEADLINE. -/
  | deadlineExpiry (id : Nat)
  /-- R296. The ring unit delivers committed records and then the tail word by RDMA WRITE. -/
  | ringDeliver (r : Nat)
  /-- R296. The host adapter acknowledges a tail word, and DELIVERED advances. -/
  | tailAck (r : Nat)
  /-- R322. A host write to RING.CONSUMED frees ring room for waiting doorbells, or is discarded. -/
  | consumedWrite (m : Master) (r w : Nat)
  /-- R301. The final stage reports a completed position or a sampled token to the COMMIT S-core. -/
  | positionDone (id : Nat) (hollow : Bool) (token : Nat)
  /-- R311. An S-core ends a request HOLLOW, KV_EXHAUSTED, FAULTED or INTERRUPTED, and its context becomes TERMINATED. -/
  | abnormalEnd (id status lost : Nat)
  /-- R315. DRAIN_LIMIT_MS passes for a DRAINING variant, and its open requests are fixed PREEMPTED. -/
  | drainLimit (v : Nat)
  /-- R315. A write of DRAIN_LIMIT_MS changes the limit of a drain in progress. -/
  | drainLimitWrite (m : Master) (v w : Nat)
  /-- R316. A DRAINING variant with no open request dispatches its drain set. -/
  | drainSetDispatch (v : Nat)
  /-- R316. The drain set reaches the COMMIT S-core, and the variant returns to REGISTERED. -/
  | drainSetArrival (v : Nat)
  /-- R323. A host port receives an Ethernet frame and passes or discards it under the supported subset. -/
  | frameReceive (port : Nat) (f : EthFrame)
  /-- R324. A write of PORT_EN brings the port up at SPEED, or takes it down with its queue pairs. -/
  | portEnable (m : Master) (p w : Nat)
  /-- R330. A host link comes up, and unsolicited neighbour advertisements are sent. -/
  | linkUp (port : Nat)
  /-- R325. A host link stays down for 10 ms, and every queue pair of the port enters the error state. -/
  | linkDownTimeout (port : Nat)
  /-- R327. Receive-buffer occupancy rises above XOFF_KIB, and a pause frame is sent. -/
  | pfcXoff (port occ : Nat)
  /-- R327. Every 20 us above XON_KIB the pause frame is repeated. -/
  | pfcRepeat (port occ : Nat)
  /-- R327. Occupancy falls below XON_KIB, and a zero-quanta frame is sent. -/
  | pfcXon (port occ : Nat)
  /-- R327. A received PFC frame pauses or resumes transmission of a priority. -/
  | pfcReceive (port enable : Nat) (quanta : List Nat)
  /-- R328. A received CNP cuts the queue pair's DCQCN rate. -/
  | cnpReceive (qp : Nat)
  /-- R328. The DCQCN RATE_INC_US timer raises a queue pair's rate. -/
  | rateIncrease (qp : Nat)
  /-- R329. A write to an address, prefix or VLAN_ID takes every queue pair of the port to the error state. -/
  | addressWrite (m : Master) (p j w : Nat)
  /-- R330. The ARP responder answers a request for the port's IPv4 address. -/
  | arpRequest (port ip : Nat)
  /-- R330. The responder answers a solicitation for the port's IPv6 addresses. -/
  | neighbourSolicitation (port hi lo : Nat)
  /-- R330. Every 30 s the port sends an LLDP frame. -/
  | lldpSend (port : Nat)
  /-- R330. A received LLDP frame stores the neighbour's chassis and port IDs. -/
  | lldpReceive (port chassis portId : Nat)
  /-- R332. An inbound RDMA WRITE or READ is NAKed, and the queue pair enters the error state. -/
  | inboundRdma (qp : Nat)
  /-- R332. The host NAKs a module-initiated RDMA operation, and the queue pair enters the error state. -/
  | remoteNak (qp : Nat)
  /-- R333. A connection REQ is answered with a REP or rejected. -/
  | cmReq (port : Nat) (r : CmReq)
  /-- R333. An RTU makes the queue pair CONNECTED. -/
  | cmRtu (qp : Nat)
  /-- R333. A received REJ abandons the connection exchange. -/
  | cmRej (qp : Nat)
  /-- R336. A DREQ takes the queue pair out of CONNECTED, with the consequences of leaving it. -/
  | cmDreq (qp : Nat)
  /-- R333. A DREP completes a disconnection. -/
  | cmDrep (qp : Nat)
  /-- R336. A write of QP.CLOSE sends a DREQ and closes the queue pair. -/
  | qpClose (m : Master) (q : Nat)
  /-- R336. A queue pair enters the error state; semaphores are broken, rings are STALLED and commands are withdrawn. -/
  | qpError (qp cause : Nat)
  /-- R331. A received ACK, NAK or RNR NAK advances or retransmits the queue pair's send stream. -/
  | rcAck (qp kind psn : Nat)
  /-- R331. An RC retransmission timer expires, and packets are retransmitted. -/
  | rcRetryTimeout (qp : Nat)
  /-- R341. A command's timeout expires; it is withdrawn, or completed TIMED_OUT with its progress. -/
  | commandTimeout (qp id : Nat)
  /-- R339. A COMMAND with an opcode not in the table completes UNKNOWN_OPCODE. -/
  | unknownOpcode (opcode : Nat) (c : Cmd)
  /-- R344. NOP completes EXECUTED with no body. -/
  | nop (c : Cmd)
  /-- R344. IDENTIFY returns the part number, serial, stepping, module state and stamp. -/
  | identify (c : Cmd)
  /-- R348. SEM_ACQUIRE grants a semaphore, queues the requester, or refuses it. -/
  | semAcquire (c : Cmd)
  /-- R348. SEM_RELEASE frees a semaphore or grants it to the first waiter. -/
  | semRelease (c : Cmd)
  /-- R349. SEM_BREAK with the current grant stamp breaks the semaphore. -/
  | semBreak (c : Cmd)
  /-- R350. A SEM_OP write with OP ACQUIRE attempts an acquire without waiting. -/
  | semOpAcquire (m : Master) (i lease : Nat)
  /-- R350. A SEM_OP write with OP RELEASE releases the semaphore. -/
  | semOpRelease (m : Master) (i : Nat)
  /-- R350. A SEM_OP write with OP BREAK breaks the semaphore without a stamp. -/
  | semOpBreak (m : Master) (i : Nat)
  /-- R349. A semaphore lease expires, and the semaphore is broken. -/
  | leaseExpiry (i : Nat)
  /-- R337. A two-step Sync is stamped and used by the time servo. -/
  | ptpSync (port domain seq : Nat) (twoStep : Bool)
  /-- R337. A Follow_Up completes a Sync exchange. -/
  | ptpFollowUp (port domain seq t1 : Nat)
  /-- R337. An Announce updates the grandmaster and the port state. -/
  | ptpAnnounce (port domain gm : Nat)
  /-- R337. A Delay_Resp completes a path-delay measurement. -/
  | ptpDelayResp (port domain seq t4 : Nat)
  /-- R337. A PTP Management message is accepted and answered. -/
  | ptpManagement (port domain : Nat) (words : List Nat)
  /-- R359. A receiver marks a lane bad and sends a LANE frame to its peer. -/
  | laneBad (d lane power : Nat)
  /-- R359. A LANE frame changes the lane set at the frame boundary it names. -/
  | laneFrame (d active boundary : Nat)
  /-- R360. Once per second a bad lane is retrained and returns as spare after 1 s clean. -/
  | laneRetrain (d lane : Nat) (ok : Bool)
  /-- R361. Light on the transmit positions shows a reversed cable, and the direction stays dark. -/
  | fibreReversed (d txLight rxLight : Nat)
  /-- R363. A Borsan frame is accepted in order and delivered or forwarded, or it is NAKed. -/
  | borsanFrameReceive (d : Nat) (f : Frame) (crcOk : Bool) (fec : List (Nat × Nat × Nat))
  /-- R363. A cumulative acknowledgement frees frames from the retry buffer. -/
  | borsanAck (d seq : Nat)
  /-- R363. A NAK makes the sender resend from the expected LINK_SEQ. -/
  | borsanNak (d seq : Nat)
  /-- R365. Each millisecond a way sends a TIME frame. -/
  | timeFrameSend (d : Nat)
  /-- R365. A TIME frame yields the link latency and peer offset and feeds the time servo. -/
  | timeFrameReceive (d peerT1 echoT1 t2 t3 : Nat)
  /-- R368. A CREDIT_REQ frame takes a return slot and is presented to the consumer. -/
  | remoteCreditReq (u : Nat) (f : Frame)
  /-- R368. A CREDIT_GRANT frame delivers credits to the remote producer. -/
  | remoteCreditGrant (u : Nat) (f : Frame)
  /-- R368. A CREDIT_RETURN frame returns credits, or carries a GEN notice, to the remote producer. -/
  | remoteCreditReturn (u : Nat) (f : Frame)
  /-- R375. A NOTICE of an unroutable pip reaches the source and is forwarded to the head module. -/
  | noticeFrame (f : Frame)
  /-- R373. A newer LSN is flooded, stored in the database, and triggers a resend and a route switch. -/
  | lsnReceive (d : Nat) (l : Lsn)
  /-- R376. No peer LSN arrives within 30 us; unacknowledged frames are discarded and held frames are detoured. -/
  | peerLsnTimeout (d : Nat)
  /-- R379. TOPOLOGY_LOAD loads the cabling plan and restarts the direction checks. -/
  | topologyLoad (c : Cmd)
  /-- R380. A direction sends its periodic HELLO. -/
  | helloSend (d : Nat)
  /-- R381. A received HELLO is checked against the plan and the direction's class is set. -/
  | helloReceive (d : Nat) (h : Hello)
  /-- R381. AGREE_TIMEOUT_MS passes, and MISSING or PEER_DISAGREES is judged. -/
  | agreeTimeout (d : Nat)
  /-- R388. A collective unit holds the whole contribution and begins an invocation. -/
  | collectiveStart (i : Nat)
  /-- R391. A collective chunk is checked by digest, reduced and sent on, or a resend is requested. -/
  | chunkReceive (u : Nat) (f : Frame)
  /-- R391. A CHUNK_ACK frees kept chunks at the sender. -/
  | chunkAck (u : Nat) (f : Frame)
  /-- R391. A RESEND_REQ makes the sender resend or recompute a chunk. -/
  | resendReq (u : Nat) (f : Frame)
  /-- R391. An invocation exceeds COLL_TIMEOUT_US and emits its remaining results hollow. -/
  | collectiveTimeout (i : Nat)
  /-- R392. A write of LINK_EN trains a direction, or darkens it as a failed link. -/
  | linkEnable (m : Master) (d w : Nat)
  /-- R404. MODEL_KEY_IMPORT unwraps a model key into a slot. -/
  | modelKeyImport (c : Cmd) (lowFirst : Bool)
  /-- R404. MODEL_KEY_IMPORT with DELETE empties a slot whose REFS is 0. -/
  | modelKeyDelete (c : Cmd)
  /-- R406. VARIANT_REGISTER reads and verifies a signed manifest and opens the registration. -/
  | variantRegister (c : Cmd)
  /-- R407. HUSK_FETCH reads a Husk from the host and verifies and stores it. -/
  | huskFetch (c : Cmd)
  /-- R410. VARIANT_UNREGISTER frees a variant's manifest and shards. -/
  | variantUnregister (c : Cmd)
  /-- R411. A Caravan SHARD frame delivers Husk bytes downstream. -/
  | shardFrame (f : Frame)
  /-- R412. A Husk's digest verifies; the shard is held or forwarded, and the variant may become complete. -/
  | huskVerified (v i : Nat) (fromHost : Bool) (copy : HuskCopy)
  /-- R412. A BULK_ACK frees, resends or defers a forwarded shard by its code. -/
  | bulkAck (f : Frame) (hollow : Bool)
  /-- R413. SHARD_TIMEOUT_MS passes with an owed shard, and RESEND is requested or retries are counted. -/
  | shardTimeout (v : Nat)
  /-- R412. Every SHARD_TIMEOUT_MS a shard answered NOT_REGISTERED is sent again. -/
  | notRegisteredResend (v i : Nat)
  /-- R415. A decryptor unit finishes a shard item, which is written for staging and may start programming. -/
  | itemDecrypted (v : Nat) (i : Nat) (n : Nat) (ext : Nat) (sram : Nat) (last : Bool) (unit : Nat)
  /-- R426. A Caravan FW_CHUNK frame delivers firmware image bytes. -/
  | fwChunk (f : Frame)
  /-- R420. An SPDM GET_VERSION in ATTEST resets the connection state and returns 1.2. -/
  | spdmGetVersion (c : Cmd)
  /-- R420. An SPDM GET_CAPABILITIES returns the capabilities. -/
  | spdmGetCapabilities (c : Cmd) (rsp : List Nat)
  /-- R420. An SPDM NEGOTIATE_ALGORITHMS selects P-384 and SHA-384. -/
  | spdmNegotiateAlgorithms (c : Cmd) (rsp : List Nat)
  /-- R420. An SPDM GET_DIGESTS returns the chain digests. -/
  | spdmGetDigests (c : Cmd) (rsp : List Nat)
  /-- R420. An SPDM GET_CERTIFICATE returns up to 900 bytes of a chain. -/
  | spdmGetCertificate (c : Cmd) (rsp : List Nat)
  /-- R420. An SPDM CHALLENGE is answered with CHALLENGE_AUTH signed by the alias key. -/
  | spdmChallenge (c : Cmd) (rsp : List Nat)
  /-- R421. An SPDM GET_MEASUREMENTS returns signed measurement blocks. -/
  | spdmGetMeasurements (c : Cmd) (rsp : List Nat)
  /-- R420. Any other SPDM request is answered ERROR UnsupportedRequest. -/
  | spdmUnsupported (c : Cmd)
  /-- R433. A core's SRAM scrub reads a codeword in an idle cycle. -/
  | sramScrub (pc off : Nat) (errs : List (Nat × Nat)) (miss : Option Nat)
  /-- R443. A re-execution check ends; values are kept or replaced and evidence is recorded. -/
  | reexecCheckDone (ck id n : Nat) (ok : Bool) (vals : List Int)
  /-- R445. Oasis records evidence against a physical core and advances or fences it on the ladder. -/
  | evidence (pc code eng : Nat)
  /-- R447. A partition rail slew ends, and a pending step count is applied. -/
  | railSlewEnd (p : Nat)
  /-- R437. A withheld pip to an absent core is notified, and its request ends FAULTED. -/
  | absentNotice (stream : Nat)
  /-- R479. DOMAIN_RESET starts a core, cluster, partition or die reset in drain or absorb mode. -/
  | domainReset (c : Cmd)
  /-- R468. The drain of a reset ends, at empty or after 50 us. -/
  | drainEnd (scope target : Nat)
  /-- R467. Restore ends and the domain is released to fire and grant credits. -/
  | resetRelease (scope target : Nat) (badCores : List Nat)
  /-- R470. A cut delayed by the 100 us GEN rule proceeds. -/
  | genWaitEnd (scope target : Nat)
  /-- R464. An M-core step exceeds STEP_LIMIT_US, and the core is reset in absorb mode. -/
  | stepWatchdog (ck id waited : Nat)
  /-- R465. A channel refused NO_BUFFER for NOBUF_LIMIT_MS, and its waiting set is given up. -/
  | nobufLimit (ck dest stream : Nat)
  /-- R463. A reset not released within its bound escalates to an absorb reset of the containing domain. -/
  | resetEscalation (scope target : Nat)
  /-- R484. The board releases RESET_N with 48 V valid, and the ROM phase begins. -/
  | coldStart (floating : Nat)
  /-- R484. The ROM phase ends with the Seed Vault, identity and image verified. -/
  | romPhaseEnd (b : Boot)
  /-- R484. Clocks are locked and the mesh is tested, and MEMORY begins. -/
  | platformPhaseEnd (bad : List (Nat × Nat))
  /-- R489. A core's self-test ends, and a failed core is fenced. -/
  | selfTestDone (pc engines : Nat) (sramBad logicBad niBad : Bool) (signature : Nat)
  /-- R491. Sparing, reload and S-core firmware end, and the module reaches AWAIT_PLAN. -/
  | coresPhaseEnd (badCores : List Nat)
  /-- R497. MODULE_LEAVE gates the module and begins a drain or an immediate leave. -/
  | moduleLeave (c : Cmd)
  /-- R505. The Oasis runtime is running again, and deferred work resumes. -/
  | oasisRestartDone (ok : Bool)
  /-- R508. HEARTBEAT passes a nonce to Oasis and completes on echo or after 500 us. -/
  | heartbeat (c : Cmd)
  /-- R508. HEARTBEAT with RESTART orders an Oasis restart. -/
  | heartbeatRestart (c : Cmd)
  /-- R508. No echo within 500 us, and HB_MISSES increments. -/
  | heartbeatEchoTimeout (qp id : Nat)
  /-- R514. TIME_SET STEP steps Sandglass time forward by the offset. -/
  | timeSetStep (c : Cmd)
  /-- R514. TIME_SET SLEW slews Sandglass time toward the target. -/
  | timeSetSlew (c : Cmd)
  /-- R519. Selected records are sent to a subscribed queue pair as an EVENT message, or dropped. -/
  | eventSend (qp : Nat)
  /-- R519. EVENT_SUBSCRIBE replaces the queue pair's subscription. -/
  | eventSubscribe (c : Cmd)
  /-- R520. LOG_READ returns records from the log store or the persistent log. -/
  | logRead (c : Cmd)
  /-- R522. STATUS_QUERY returns the module's state, time and log summary. -/
  | statusQuery (c : Cmd)
  /-- R524. FW_UPDATE STAGE reads and verifies an image and writes it into the free slot. -/
  | fwUpdateStage (c : Cmd)
  /-- R524. Staging ends, and the slot is TRIAL or the staging has failed. -/
  | fwStageDone (status version security : Nat) (raise : Bool) (image : FwImage)
  /-- R524. FW_UPDATE ACTIVATE cold resets into the trial image. -/
  | fwUpdateActivate (c : Cmd)
  /-- R524. FW_UPDATE COMMIT commits the running trial. -/
  | fwUpdateCommit (c : Cmd)
  /-- R524. FW_UPDATE DISCARD empties a trial slot that is not running. -/
  | fwUpdateDiscard (c : Cmd)
  /-- R531. A monitor conversion latches its result, and the sequence moves on. -/
  | conversionEnd (i code : Nat)
  /-- R533. An overcurrent comparator queues an urgent conversion. -/
  | overcurrentComparator (i n : Nat)
  /-- R533. Oasis queues an urgent conversion through URGENT_GO. -/
  | urgentGo (m : Master) (i w : Nat)
  /-- R535. Every 2 ms Oasis reads the sensors, checks them, judges trips and runs the governor. -/
  | slowRound (thbm : List (Option Int)) (tele peak leakOhm : Nat) (leakShort : Bool) (late : Nat)
  /-- R538. After 100 ms at TJ THROTTLE the partition is limited to 1.25 GHz. -/
  | throttleEscalate (p : Nat)
  /-- R546. The 1 s undervoltage clock limit of a partition expires. -/
  | undervoltageEnd (p : Nat)
  /-- R544. POWER_CAP_SET sets CAP_W and WINDOW_MS. -/
  | powerCapSet (c : Cmd)
  /-- R550. SENSOR_QUERY returns sensor readings. -/
  | sensorQuery (c : Cmd)
  /-- R545. Each second the ring oscillators are counted, and the degradation is updated. -/
  | ageingMeasure (counts : List (Nat × Nat))
  /-- R552. A write of REPLAN_NOW starts a re-plan. -/
  | replanNow (m : Master) (w : Nat)
  /-- R559. An I3C SETDASA assigns a dynamic address from the static one. -/
  | sbSetdasa (static dyn : Nat)
  /-- R559. An I3C ENTDAA takes part in dynamic address assignment. -/
  | sbEntdaa (dyn : Nat)
  /-- R560. The sideband IDENT command returns the part number, serial, stepping and slot. -/
  | sbIdent (pecOk early : Bool)
  /-- R560. The sideband STATE command returns the module state and ends the alert. -/
  | sbState (pecOk early : Bool)
  /-- R560. The sideband THERMAL command returns temperatures and the trip state. -/
  | sbThermal (pecOk early : Bool)
  /-- R560. The sideband POWER command returns power readings. -/
  | sbPower (pecOk early : Bool)
  /-- R560. The sideband BOARD_CAP command sets BOARD_CAP, or NACKs a bad value. -/
  | sbBoardCap (pecOk : Bool) (watts : Nat)
  /-- R560. The sideband FAULTS command returns the board-fault bits and ends the alert. -/
  | sbFaults (pecOk early : Bool)
  /-- R560. The sideband FAULT_CLEAR command clears latched fault bits. -/
  | sbFaultClear (pecOk : Bool) (mask : Nat)
  /-- R325. A host port loses its link; LINK_UP and LINK_CHANGE are updated, RC retransmission covers the gap, and the 10 ms down timer starts. -/
  | linkLoss (port : Nat)
  /-- R385. Light arrives on a dark Borsan direction, the lanes train and map their positions, and the direction's LINK becomes UP so that HELLOs begin. -/
  | linkTrained (d lanes txCount : Nat) (positions powers : List Nat)
  /-- R467. The Reset phase of a domain reset ends, with the rail switched back on for a partition; IN_RESET clears and the Restore phase begins with Oasis-only writes. -/
  | resetPhaseEnd (scope target : Nat)
  /-- R223. An S-core access outside its memory map, a store to its locked code region, a misaligned access outside SRAM and external memory, or an LR/SC or AMO elsewhere raises the standard exception. -/
  | accessFault (ck pc a n kind : Nat)
  /-- R406. The RDMA READ of a manifest ends and its signature and consistency are checked, and the registration opens or VARIANT_REGISTER completes with a refusal. -/
  | manifestReadDone (v : Nat) (ok : Bool) (bytes : List Nat) (addr : Nat) (room : Bool)
  /-- R51. Oasis takes a raised page interrupt, writes an event-log record and notifies subscribed hosts. -/
  | pageInterrupt
  /-- R147. A queued operation takes a free programming slot, is checked again, is journalled, and its bank becomes PROGRAMMING. -/
  | progDequeue
  /-- R156. Each second Oasis advances the governor's elapsed powered time. -/
  | elapsedTick
  /-- R156. Every 60 s the elapsed count is committed to the journal. -/
  | elapsedCommit
  /-- R247. All 512 acknowledgements arrive, and the switch is complete. -/
  | mapSwitchComplete
  /-- R298. The ring unit takes a TOKEN doorbell and commits a token record, or waits for room or discards it. -/
  | commitToken
  /-- R308. The ring unit takes an END doorbell and commits the END record with the fixed status. -/
  | commitEnd
  /-- R298. The ring unit takes a TOKEN_END doorbell and commits the token and the end together. -/
  | commitTokenEnd
  /-- R377. At the switch stamp every unit makes the new route bank active. -/
  | routeSwitch
  /-- R378. ROUTE_HOLD_US ends, and held frames are sent on the new routes. -/
  | routeHoldEnd
  /-- R450. Oasis fences a physical core onto a spare: reset, copy, map switch and run. -/
  | fence
  /-- R484. HBM training and fill end, and LINKS begins. -/
  | memoryPhaseEnd
  /-- R484. The host ports and Borsan directions are trained, and CORES begins. -/
  | linksPhaseEnd
  /-- R485. A bring-up phase overruns its bound; a cold start fails and a warm start escalates. -/
  | phaseTimeout
  /-- R497. Requests have ended and no epoch is bound, and the leave proceeds to its cut. -/
  | leaveDrainDone
  /-- R497. LIMIT_S passes during a leave's drain, and the leave proceeds to its cut. -/
  | leaveLimit
  /-- R504. The WD_LOOP watchdog expires, and Oasis restarts. -/
  | wdLoop
  /-- R504. The WD_ROUND watchdog expires, and Oasis restarts. -/
  | wdRound
  /-- R508. HB_MISSES reaches HB_MISS_LIMIT, and Oasis restarts. -/
  | wdHost
  /-- R507. A restart overruns 400 ms, and the module cold resets. -/
  | oasisRestartTimeout
  /-- R508. Oasis firmware echoes the nonce, and HB_MISSES clears. -/
  | hbEcho
  /-- R508. No heartbeat arrives for HOST_SILENT_MS, and HOST_SILENT is set and logged. -/
  | hostSilent
  /-- R513. The time source is lost, and Sandglass enters HOLDOVER. -/
  | syncSourceLost
  /-- R515. Oasis writes a unit's event as a record in the log store, and in the persistent log when it is ERROR or above. -/
  | logEvent
  /-- R547. A margin re-plan falls due and recomputes guard bands, intervals, endurance and rungs. -/
  | replan
  /-- R554. 48 V falls below 36 V for 1 ms, and this counts as removal of 48 V. -/
  | powerLoss
  /-- R555. Reverse polarity is blocked and latched for report at the next power-on. -/
  | inputReversed
  /-- R558. RESET_N held low orders a cold reset, or the order is refused while hot. -/
  | resetNAssert
  /-- R554. 48 V rises above 42 V, or falls back below 60 V after an overvoltage stop; the input stage starts, the rails come up and PWRGD is released. -/
  | powerApplied
  /-- R554. The input rises above 62 V, and the input stage stops, which counts as a loss of input. -/
  | inputOvervoltage
  /-- R557. An on-module rail leaves regulation, and PWRGD is pulled low within 10 us. -/
  | railOutOfRegulation
deriving DecidableEq, Repr

end Sys2Proof
end

