-- ==== Sys2Proof/Machine/Flags.lean ====
section
/-! DEFINITION. The status codes and flag bits the commands return: R312's serving statuses, R285's NOTES and STATE, R315's
variant states, R483's module states. -/

namespace Sys2Proof.Machine

/-- R312. -/
def stOk : Nat := 0x00
def stAccepted : Nat := 0x01
def stComplete : Nat := 0x02
def stCancelled : Nat := 0x03
def stDeadline : Nat := 0x04
def stPreempted : Nat := 0x05
def stHollow : Nat := 0x06
def stKvExhausted : Nat := 0x07
def stFaulted : Nat := 0x08
def stInterrupted : Nat := 0x09
def stPromptUnreadable : Nat := 0x0A
def stBusy : Nat := 0x10
def stNoVariant : Nat := 0x11
def stNotHead : Nat := 0x12
def stNoTenant : Nat := 0x13
def stNoContext : Nat := 0x14
def stContextBusy : Nat := 0x15
def stContextTerminated : Nat := 0x16
def stDuplicateId : Nat := 0x17
def stBadRing : Nat := 0x18
def stBadParam : Nat := 0x19
def stKvLimit : Nat := 0x1A
def stDeadlinePassed : Nat := 0x1B
def stTenantLimit : Nat := 0x1C
def stUnsupportedOption : Nat := 0x1D
def stNotFound : Nat := 0x1E

/-- R285: END_REASON. -/
def reasonStop : Nat := 1
def reasonMaxNew : Nat := 2
def reasonFull : Nat := 3
def reasonPrefillOnly : Nat := 4

/-- R285: NOTES bits. -/
def noteLateCancel : Nat := 1
def noteThrottled : Nat := 2
def noteSlowTier : Nat := 4
def noteWidened : Nat := 8
def noteResidualReset : Nat := 16
def noteCtxTerminated : Nat := 32
def noteRange : Nat := 64

/-- R285: STATE of a request. -/
def rqQueued : Nat := 1
def rqActive : Nat := 2
def rqThrottled : Nat := 3
def rqEnding : Nat := 4
def rqEnded : Nat := 5

/-- R320: STATE of a variant. -/
def vEmpty : Nat := 0
def vRegistered : Nat := 1
def vStaging : Nat := 2
def vActive : Nat := 3
def vDraining : Nat := 4

/-- R312: the statuses after which the request's context is TERMINATED. -/
def terminates (status : Nat) : Bool := 5 ≤ status && status ≤ 9

/-- R318, R311: an ABNORMAL_END. -/
def abnormal (status : Nat) : Bool := 5 ≤ status && status ≤ 9

/-- The bank states of R97. -/
def bankEmpty : Nat := 0
def bankProgramming : Nat := 1
def bankUnsettled : Nat := 2
def bankReady : Nat := 3

end Sys2Proof.Machine
end

