-- ==== Sys2Proof/Config.lean ====
section
/-! DEFINITION. What an implementation or the factory fixes (Seed Vault contents, straps) and the free values: constants
without a body, about which nothing can be proved, standing for every value the spec leaves open. -/

namespace Sys2Proof

/-- The free values: the `n`-th open value the machine meets. No body, so a claim about it holds for every value. Each
use truncates it to the width of the open field. Assumption log 1. -/
opaque Config.freeValue : Nat → Nat

/-- R232: the hop credits of a class at a mesh port of a router, less one: a buffer depth the spec does not state. No body. Assumption
log 41. -/
opaque Config.hopDepth : Nat

/-- Credits of an S-core's receive queue (R224, R241): a size the spec does not state. No body. Assumption log 20. -/
opaque Config.rxCredits : Nat

/-- R134: by how many ulp a V-core's exponential (0), logarithm (1), reciprocal (2) and reciprocal square root (3) of an FP32 value differ
from the nearest value, which the bound of 2 ulp leaves open; a function of the operand, the same on every V-core (R207). No body.
Assumption log 21. -/
opaque Config.fnUlp : Nat → Nat → Int

/-- R114: the element that a NaN (0), an infinity (1) or a negative infinity (2) becomes in MXFP4 and MXINT8, which have none: the spec does
not state it. No body. Assumption log 40. -/
opaque Config.mxNan : Nat → Nat

/-- R114: the scale of an MX block whose elements are all zero: the spec does not state it. No body. Assumption log 40. -/
opaque Config.mxZeroScale : Nat

/-- R328: the step of DCQCN's additive increase in Mb/s, which the spec does not state. No body. Assumption log 22. -/
opaque Config.dcqcnStep : Nat

/-- R530: the value that a code of a monitor channel stands for, by the trims the Seed Vault holds for the channel, which the spec does
not give: 1/16 degree, mV, 10 mV, 0.1 A or 10 mA by the channel's kind. No body. Assumption log 23. -/
opaque Config.trim : Nat → Nat → Int

/-- R545: the factory value of D of a cluster in ppm, held in the Seed Vault. No body. Assumption log 23. -/
opaque Config.factoryD : Nat → Int

/-- R556: R_INPUT, the protection resistance held in the Seed Vault, in milliohm. No body. Assumption log 23. -/
opaque Config.rInput : Nat

/-- R46: FW_REV of a page served by Oasis or S-core firmware, by block type: the revision of a firmware the spec does not number. No
body. Assumption log 29. -/
opaque Config.fwRev : Nat → Nat → Nat

/-- SHA-384 of a byte string, as a number with the digest's first byte on top. No body. Assumption log 42. -/
opaque Config.sha384 : List Nat → Nat

/-- The AES-256 block cipher: key, block. No body. Assumption log 42. -/
opaque Config.aesEncrypt : Nat → Nat → Nat

/-- Its inverse. No body. Assumption log 42. -/
opaque Config.aesDecrypt : Nat → Nat → Nat

/-- The x-coordinate of a scalar's product with a P-384 point. No body. Assumption log 42. -/
opaque Config.p384Product : Nat → Nat → Nat → Nat

/-- R401: an ECDSA P-384 signature verifies: the key's point, the digest, r and s. No body. Assumption log 42. -/
opaque Config.ecdsaVerify : Nat → Nat → Nat → Nat → Nat → Bool

/-- R416: the 384-bit secret S of the ferroelectric cells. No body. Assumption log 42. -/
opaque Config.secret : Nat

/-- R418: the DER bytes of the Uhlend root (0), the manufacturing CA (1), the DevID (2) and the wrap certificate (3). No body. Assumption
log 42. -/
opaque Config.certificate : Nat → List Nat

/-- R418: the alias certificate issued for a runtime digest and a SECURITY_VERSION. No body. Assumption log 42. -/
opaque Config.aliasCertificate : Nat → Nat → List Nat

/-- R421: the digests of the Oasis ROM (1) and of the Seed Vault's signed region (2). No body. Assumption log 42. -/
opaque Config.fixedDigest : Nat → Nat

/-- R421, R422: the SHA-384 of a section of the image a slot holds from the factory, by TYPE. No body. Assumption log 42. -/
opaque Config.factorySection : Nat → Nat

/-- R421: the bytes over which the measurement of an index is taken, of the values it covers: the spec does not state how they are laid out.
No body. Assumption log 42. -/
opaque Config.measuredBytes : Nat → List Nat → List Nat

/-- R399: what the plaintext of an item of KIND 4 to 7 sets, as address or index and value: the spec does not state its layout. No body.
Assumption log 42. -/
opaque Config.itemWrites : Nat → List Nat → List (Nat × Nat)

/-- R399: the facts in the plaintext of a VARIANT_FACTS item. No body. Assumption log 42. -/
opaque Config.itemFacts : List Nat → List Nat

/-- The module serial number held in the Seed Vault (R61). DESIGN CHOICE, log 2. -/
def Config.serial : Nat := 1

/-- The three slot straps (R61, R561). DESIGN CHOICE, log 2. -/
def Config.slot : Nat := 0

/-- A host port's MAC address in the Seed Vault (R352): port 0 is A. DESIGN CHOICE, log 2. -/
def Config.mac (port : Nat) : Nat := 0x020000000000 + port

/-- The trimmed rail voltage in mV (R482 gives 650 to 800, typically 720). DESIGN CHOICE, log 2. -/
def Config.railMv : Nat := 720

/-- The factory bandgap code of R534. DESIGN CHOICE, log 2. -/
def Config.bandgap : Nat := 2048

/-- Column gain 1.0 in Q1.15: the Seed Vault correction of R201. DESIGN CHOICE, log 2. -/
def Config.columnGain : Nat := 0x8000

end Sys2Proof
end

