-- ==== Sys2Proof/Machine/Geometry.lean ====
section
/-! DEFINITION. The floorplan: clusters, partitions, mesh halves, physical cores, routers and attachments (R14, R15, R20,
R21, R22), the distances of R249 to R251, and the reset domains of R461. -/

namespace Sys2Proof.Machine

/-- R21: partition 0 NW, 1 NE, 2 SW, 3 SE of cluster `c`. -/
def partOfCluster (c : Nat) : Nat := 2 * (c / 16) + c % 8 / 4

/-- R21: mesh half 0 West, 1 East of cluster `c`. -/
def halfOfCluster (c : Nat) : Nat := c % 8 / 4

/-- The kind of a core: 0 M, 1 V, 2 S. R14, logical numbers. -/
def kindOfLogical (k : Nat) : Nat := if k ≤ 45 then 0 else if k ≤ 56 then 1 else 2

/-- R15: the kind of physical core index `i`. -/
def kindOfPhysical (i : Nat) : Nat :=
  if i % 4 ≠ 3 then 0 else if i / 4 = 5 ∨ i / 4 = 6 ∨ i / 4 = 9 ∨ i / 4 = 10 then 2 else 1

/-- The physical V-core indices of a cluster in rising order, R15. -/
def vPhys : List Nat := [3, 7, 11, 15, 19, 31, 35, 47, 51, 55, 59, 63]

/-- The physical S-core indices of a cluster, R15. -/
def sPhys : List Nat := [23, 27, 39, 43]

/-- The factory repair map the model names: the n-th logical core of a type on the n-th physical core of that type, the
last physical core or cores of the type spare. DESIGN CHOICE, log 2. -/
def factoryPhys (k : Nat) : Nat :=
  if k ≤ 45 then 4 * (k / 3) + k % 3
  else if k ≤ 56 then vPhys.getD (k - 46) 0
  else sPhys.getD (k - 57) 0

/-- The logical core that physical core `i` carries from the factory, if any. -/
def factoryLogical (i : Nat) : Option Nat := (List.range 60).find? fun k => factoryPhys k = i

/-- Router position `(col, row)` of physical core `i` of cluster `c`, R20. -/
def routerOfPhys (c i : Nat) : Nat × Nat :=
  (4 * (c % 8) + i / 4 % 4, 4 * (c / 8) + i / 4 / 4)

/-- R36, R60: a router's instance, row by row. -/
def routerInst (p : Nat × Nat) : Nat := p.2 * 32 + p.1

/-- R22 in the numbering of R250: the routers of attachment `a`. -/
def attachRouters : Nat → List (Nat × Nat)
  | 0 => [(2, 0)] | 1 => [(7, 0)] | 2 => [(12, 0)] | 3 => [(19, 0)] | 4 => [(24, 0)] | 5 => [(29, 0)]
  | 6 => [(2, 15)] | 7 => [(7, 15)] | 8 => [(12, 15)] | 9 => [(19, 15)] | 10 => [(24, 15)] | 11 => [(29, 15)]
  | 12 => [(31, 7), (31, 8)] | 13 => [(0, 7), (0, 8)] | 14 => [(31, 2), (31, 3)] | 15 => [(0, 2), (0, 3)]
  | 16 => [(31, 12), (31, 13)] | 17 => [(0, 12), (0, 13)]
  | 18 => [(0, 5)] | 19 => [(31, 5)] | 20 => [(0, 10)]
  | _ => []

/-- R249: hops between two routers. -/
def hopsBetween (a b : Nat × Nat) : Nat := (a.1 - b.1) + (b.1 - a.1) + (a.2 - b.2) + (b.2 - a.2)

/-- The half of a router column, R21. -/
def halfOfCol (col : Nat) : Nat := col / 16

/-- R250: the router of attachment `a` nearest to `p`, the lower row winning a tie. -/
def nearRouter (p : Nat × Nat) (a : Nat) : Nat × Nat :=
  match attachRouters a with
  | [x] => x
  | [x, y] => if hopsBetween p y < hopsBetween p x then y else x
  | _ => p

/-- R249: zero-load latency in ps between two routers, rounded up, at mesh clocks `fw` and `fe` in MHz. -/
def latencyPs (p q : Nat × Nat) (fw fe : Nat) : Nat :=
  let f (h : Nat) := if h = 0 then fw else fe
  let hs := halfOfCol p.1
  let hd := halfOfCol q.1
  let rows := (p.2 - q.2) + (q.2 - p.2)
  let num :=
    if hs = hd then (10 + 3 * hopsBetween p q) * 1000000 * fw * fe / (f hs)
    else
      let src := if hs = 0 then 15 - p.1 else p.1 - 16
      let dst := (if hd = 0 then 15 - q.1 else q.1 - 16) + rows
      (5 + 3 * src) * 1000000 * (f hd) + 8 * 1000000 * (max fw fe) + (5 + 3 * dst) * 1000000 * (f hs)
  (num + fw * fe - 1) / (fw * fe)

/-- R251: the near stack of a router, the lower number winning a tie. -/
def nearStack (p : Nat × Nat) : Nat :=
  (List.range 12).foldl (fun b a => if hopsBetween p (nearRouter p a) < hopsBetween p (nearRouter p b) then a else b) 0

/-- R230, R255: ports a router implements: four core ports, its mesh ports, and an outward port where R22 names one. -/
def routerAttachment (p : Nat × Nat) : Nat :=
  ((List.range 21).find? fun a => (attachRouters a).contains p).getD 31

def routerPorts (p : Nat × Nat) : Nat :=
  4 + (if p.1 = 0 then 0 else 1) + (if p.1 = 31 then 0 else 1) + (if p.2 = 0 then 0 else 1) + (if p.2 = 15 then 0 else 1)
    + (if routerAttachment p = 31 then 0 else 1)

/-- A reset domain of R461: the die, a partition, a cluster or a logical core (`c * 64 + k`). -/
inductive Dom where
  | core (ck : Nat)
  | cluster (c : Nat)
  | part (p : Nat)
  | die
deriving DecidableEq, Repr

/-- R54's DOMAIN_KIND, which is also SCOPE of R479. -/
def Dom.kind : Dom → Nat
  | .core _ => 0 | .cluster _ => 1 | .part _ => 2 | .die => 3

/-- TARGET of R479. -/
def Dom.target : Dom → Nat
  | .core ck => ck | .cluster c => c | .part p => p | .die => 0

/-- The domain a SCOPE and a TARGET name. -/
def Dom.of (scope target : Nat) : Dom :=
  if scope = 0 then .core target else if scope = 1 then .cluster target else if scope = 2 then .part target else .die

/-- The smallest domain that contains this one, R461. -/
def Dom.parent : Dom → Dom
  | .core ck => .cluster (ck / 64)
  | .cluster c => .part (partOfCluster c)
  | .part _ => .die
  | .die => .die

/-- A domain and the domains that contain it, R461. -/
def Dom.chain : Dom → List Dom
  | .core ck => [.core ck, .cluster (ck / 64), .part (partOfCluster (ck / 64)), .die]
  | .cluster c => [.cluster c, .part (partOfCluster c), .die]
  | .part p => [.part p, .die]
  | .die => [.die]

/-- `a` contains `b`. -/
def Dom.contains (a b : Dom) : Bool := b.chain.contains a

/-- A key for tables indexed by domain. -/
def Dom.key : Dom → Nat
  | .die => 0 | .part p => 1 + p % 4 | .cluster c => 8 + c % 32 | .core ck => 64 + ck % 2048

end Sys2Proof.Machine
end

