-- ==== Sys2Proof/Machine/Reg.lean ====
section
/-! DEFINITION. What a register field is: its place in a page, its access code (R9), its Init value (R13), the values its
Meaning cell reserves (R12), the one master that may write it (R569), and the resets it survives. -/

namespace Sys2Proof.Machine

/-- The access codes of R9. -/
inductive Acc where
  | ro | rw | w1c | w1s | rc | wo
deriving DecidableEq, Repr

/-- R569: who may write a restricted field. -/
inductive Writer where
  | any | oasis | score
deriving DecidableEq, Repr

/-- R13: which resets a field's value survives: no reset of a domain that contains it; every reset but a cold one; every
reset while 48 V stays present; every reset and a loss of 48 V. -/
inductive Keep where
  | none | warm | power | journal
deriving DecidableEq, Repr

/-- Where the Init column names a source in place of a value. -/
inductive InitSrc where
  | const | index | qpn | mapPhys (j : Nat) | vaultLogical (j : Nat) | vaultCarrying (j : Nat)
  | carrying | logical | coreKind | mSpares | vSpares | sSpares | serial | slot | sbAddr | mac | railMv | bandgap
  | columnGain | seqEntry (j : Nat) | computed
deriving DecidableEq, Repr

/-- One register field of R36's window. `count` words `stride` bytes apart hold it where the spec indexes it. -/
structure Field where
  blk : Nat
  page : Nat
  off : Nat
  lo : Nat
  len : Nat
  acc : Acc
  init : Nat := 0
  src : InitSrc := .const
  stride : Nat := 0
  count : Nat := 1
  legal : Option (Nat × Nat × Nat) := Option.none
  only : Writer := .any
  keep : Keep := .none
deriving DecidableEq, Repr

/-- A number of its own for each field: its block type, page, offset and lowest bit. -/
def Field.code (f : Field) : Nat := ((f.blk * 16 + f.page) * 4096 + f.off) * 64 + f.lo

/-- The cell of field `f` at instance `i`, index `k`. -/
def Field.cell (f : Field) (i k : Nat) : Nat := (f.code * 65536 + i % 65536) * 65536 + k % 65536

/-- R532: channel of entry `n` of a converter's default sequence, each channel in one converter: MC0 takes 1 to 30, MC1 31 to
59 and 63. DESIGN CHOICE, log 2. -/
def seqEntry (i n : Nat) : Nat :=
  if n = 0 ∨ 30 < n then 0 else if i = 0 then n else if n = 30 then 63 else n + 30

/-- The Init value of a field at instance `i`, index `k` (R13; the Seed Vault's values are those of Config). -/
def Field.initVal (f : Field) (i k : Nat) : Nat :=
  match f.src with
  | .const => f.init
  | .index => k
  | .qpn => 0x10 + i
  | .mapPhys j => factoryPhys ((8 * (k % 240) + j) % 60)
  | .vaultLogical j => (factoryLogical ((8 * k + j) % 64)).getD 0
  | .vaultCarrying j => bit (factoryLogical ((8 * k + j) % 64)).isSome
  | .carrying => bit (factoryLogical (i % 64)).isSome
  | .logical => (factoryLogical (i % 64)).getD 0
  | .coreKind => kindOfPhysical (i % 64)
  | .mSpares => 2
  | .vSpares => 1
  | .sSpares => 1
  | .serial => Config.serial
  | .slot => Config.slot
  | .sbAddr => 0x50 + Config.slot
  | .mac => Config.mac i
  | .railMv => Config.railMv
  | .bandgap => Config.bandgap
  | .columnGain => Config.columnGain
  | .seqEntry j => seqEntry i (8 * k + j)
  | .computed => f.init

/-- R12: a value the Meaning cell does not reserve. -/
def Field.legalValue (f : Field) (v : Nat) : Bool :=
  match f.legal with
  | Option.none => true
  | some (lo, hi, st) => decide (lo ≤ v) && decide (v ≤ hi) && decide ((v - lo) % st = 0)

/-- The field holds the word at offset `off` of its page, at index `(off - f.off) / 8`. -/
def Field.indexAt (f : Field) (off : Nat) : Option Nat :=
  if off = f.off then some 0
  else if f.stride = 0 ∨ off < f.off then Option.none
  else if (off - f.off) % f.stride = 0 ∧ (off - f.off) / f.stride < f.count then some ((off - f.off) / f.stride)
  else Option.none

end Sys2Proof.Machine
end

