-- ==== Sys2Proof/Machine/RegTable.lean ====
section
/-! DEFINITION. The register fields of the implemented pages, field by field, from the tables and header lists of R45 to
R62, R97 to R99, R166, R167, R197 to R203, R226 to R229, R255 to R258, R278 to R280, R318 to R322, R352 to R356, R387,
R392 to R396, R428 to R430, R457 to R460, R480 to R482, R500 to R502, R526 to R529, R548 to R552 and R567. -/

namespace Sys2Proof.Machine

namespace R

/-- R61. -/
def MOD_PART_NUMBER : Field := { blk := 0x00, page := 0, off := 0x100, lo := 0, len := 64, acc := .ro, init := 0x31412D374B4D55, keep := .warm }

/-- R61. -/
def MOD_SERIAL : Field := { blk := 0x00, page := 0, off := 0x108, lo := 0, len := 64, acc := .ro, src := .serial, keep := .warm }

/-- R61. -/
def MOD_SLOT : Field := { blk := 0x00, page := 0, off := 0x110, lo := 0, len := 3, acc := .ro, src := .slot, keep := .warm }

/-- R62. -/
def CLU_M_SPARES : Field := { blk := 0x0A, page := 0, off := 0x010, lo := 0, len := 4, acc := .ro, src := .mSpares, keep := .warm }

/-- R62. -/
def CLU_V_SPARES : Field := { blk := 0x0A, page := 0, off := 0x010, lo := 4, len := 4, acc := .ro, src := .vSpares, keep := .warm }

/-- R62. -/
def CLU_S_SPARES : Field := { blk := 0x0A, page := 0, off := 0x010, lo := 8, len := 4, acc := .ro, src := .sSpares, keep := .warm }

/-- R62. -/
def CLU_M_ABSENT : Field := { blk := 0x0A, page := 0, off := 0x010, lo := 12, len := 6, acc := .ro, keep := .warm }

/-- R62. -/
def CLU_V_ABSENT : Field := { blk := 0x0A, page := 0, off := 0x010, lo := 18, len := 4, acc := .ro, keep := .warm }

/-- R62. -/
def CLU_S_ABSENT : Field := { blk := 0x0A, page := 0, off := 0x010, lo := 22, len := 2, acc := .ro, keep := .warm }

/-- R97. -/
def ENG_ROWS : Field := { blk := 0x12, page := 0, off := 0x010, lo := 0, len := 10, acc := .ro, init := 0x200, keep := .warm }

/-- R97. -/
def ENG_SLICES : Field := { blk := 0x12, page := 0, off := 0x010, lo := 10, len := 9, acc := .ro, init := 0x100, keep := .warm }

/-- R97. -/
def ENG_PILOT_SLICES : Field := { blk := 0x12, page := 0, off := 0x010, lo := 19, len := 4, acc := .ro, init := 8, keep := .warm }

/-- R97. -/
def ENG_MAX_ACTIVE_ROWS : Field := { blk := 0x12, page := 0, off := 0x010, lo := 23, len := 7, acc := .ro, init := 0x40, keep := .warm }

/-- R97. -/
def ENG_PILOT_EN : Field := { blk := 0x12, page := 0, off := 0x020, lo := 32, len := 1, acc := .rw, init := 1 }

/-- R97. -/
def ENG_ZERO_SKIP : Field := { blk := 0x12, page := 0, off := 0x020, lo := 33, len := 1, acc := .rw, init := 1 }

/-- R97. -/
def ENG_PILOT_NOW : Field := { blk := 0x12, page := 0, off := 0x020, lo := 34, len := 1, acc := .wo }

/-- R97. -/
def ENG_A_STATE : Field := { blk := 0x12, page := 0, off := 0x028, lo := 32, len := 2, acc := .ro, keep := .journal }

/-- R97. -/
def ENG_B_STATE : Field := { blk := 0x12, page := 0, off := 0x028, lo := 34, len := 2, acc := .ro, keep := .journal }

/-- R97. -/
def ENG_A_IN_USE : Field := { blk := 0x12, page := 0, off := 0x028, lo := 36, len := 1, acc := .ro }

/-- R97. -/
def ENG_B_IN_USE : Field := { blk := 0x12, page := 0, off := 0x028, lo := 37, len := 1, acc := .ro }

/-- R97. -/
def ENG_A_RETRIM : Field := { blk := 0x12, page := 0, off := 0x028, lo := 38, len := 1, acc := .ro, keep := .warm }

/-- R97. -/
def ENG_B_RETRIM : Field := { blk := 0x12, page := 0, off := 0x028, lo := 39, len := 1, acc := .ro, keep := .warm }

/-- R97. -/
def ENG_A_DRIFT_HARD : Field := { blk := 0x12, page := 0, off := 0x028, lo := 40, len := 1, acc := .ro, keep := .warm }

/-- R97. -/
def ENG_B_DRIFT_HARD : Field := { blk := 0x12, page := 0, off := 0x028, lo := 41, len := 1, acc := .ro, keep := .warm }

/-- R97. -/
def ENG_PILOT_STALE : Field := { blk := 0x12, page := 0, off := 0x028, lo := 42, len := 1, acc := .ro }

/-- R98. -/
def ENG_EPOCH0_BANK : Field := { blk := 0x12, page := 0, off := 0x100, lo := 0, len := 2, acc := .rw, legal := some (0, 2, 1), keep := .warm }

/-- R98. -/
def ENG_EPOCH1_BANK : Field := { blk := 0x12, page := 0, off := 0x100, lo := 2, len := 2, acc := .rw, legal := some (0, 2, 1), keep := .warm }

/-- R98. -/
def ENG_EPOCH2_BANK : Field := { blk := 0x12, page := 0, off := 0x100, lo := 4, len := 2, acc := .rw, legal := some (0, 2, 1), keep := .warm }

/-- R98. -/
def ENG_EPOCH3_BANK : Field := { blk := 0x12, page := 0, off := 0x100, lo := 6, len := 2, acc := .rw, legal := some (0, 2, 1), keep := .warm }

/-- R98. -/
def ENG_ACTIVE : Field := { blk := 0x12, page := 0, off := 0x100, lo := 8, len := 2, acc := .ro }

/-- R98. -/
def ENG_MODE : Field := { blk := 0x12, page := 0, off := 0x108, lo := 0, len := 1, acc := .rw }

/-- R98. -/
def ENG_RES_BITS : Field := { blk := 0x12, page := 0, off := 0x108, lo := 1, len := 4, acc := .rw, init := 9, legal := some (4, 9, 1) }

/-- R98. -/
def ENG_GROUP_ROWS : Field := { blk := 0x12, page := 0, off := 0x108, lo := 5, len := 5, acc := .rw, init := 8, legal := some (1, 16, 1) }

/-- R98. -/
def ENG_CLIP_ACTION : Field := { blk := 0x12, page := 0, off := 0x108, lo := 10, len := 1, acc := .rw }

/-- R98. -/
def ENG_CLIPS : Field := { blk := 0x12, page := 0, off := 0x110, lo := 0, len := 32, acc := .rc }

/-- R98. -/
def ENG_CLIP_TILES : Field := { blk := 0x12, page := 0, off := 0x110, lo := 32, len := 32, acc := .rc }

/-- R98. -/
def ENG_SPLITS : Field := { blk := 0x12, page := 0, off := 0x118, lo := 0, len := 32, acc := .rc }

/-- R98. -/
def ENG_REPEATS : Field := { blk := 0x12, page := 0, off := 0x120, lo := 0, len := 32, acc := .rc }

/-- R98. -/
def ENG_REPEAT_CYCLES : Field := { blk := 0x12, page := 0, off := 0x120, lo := 32, len := 32, acc := .rc }

/-- R98. -/
def ENG_TILE_COUNT : Field := { blk := 0x12, page := 0, off := 0x128, lo := 0, len := 64, acc := .ro }

/-- R98. -/
def ENG_BUSY_CYCLES : Field := { blk := 0x12, page := 0, off := 0x130, lo := 0, len := 64, acc := .ro }

/-- R98. -/
def ENG_LAST_CLIP_STAMP : Field := { blk := 0x12, page := 0, off := 0x138, lo := 0, len := 64, acc := .ro }

/-- R98. -/
def ENG_CLIP_GROUP : Field := { blk := 0x12, page := 0, off := 0x140, lo := 0, len := 6, acc := .ro }

/-- R98. -/
def ENG_CLIP_PLANE : Field := { blk := 0x12, page := 0, off := 0x140, lo := 6, len := 3, acc := .ro }

/-- R98. -/
def ENG_CLIP_SLICE : Field := { blk := 0x12, page := 0, off := 0x140, lo := 9, len := 8, acc := .ro }

/-- R98. -/
def ENG_CLIP_SIDE : Field := { blk := 0x12, page := 0, off := 0x140, lo := 17, len := 1, acc := .ro }

/-- R98. -/
def ENG_CLIP_BITS : Field := { blk := 0x12, page := 0, off := 0x140, lo := 18, len := 4, acc := .ro }

/-- R98. -/
def ENG_CLIP_EPOCH : Field := { blk := 0x12, page := 0, off := 0x140, lo := 22, len := 2, acc := .ro }

/-- R98. -/
def ENG_CLIP_BANK : Field := { blk := 0x12, page := 0, off := 0x140, lo := 24, len := 1, acc := .ro }

/-- R99. -/
def ENG1_INTERVAL : Field := { blk := 0x12, page := 1, off := 0x100, lo := 0, len := 16, acc := .rw, init := 0x3E8, legal := some (1, 65535, 1), keep := .warm }

/-- R99. -/
def ENG1_FILTER_SHIFT : Field := { blk := 0x12, page := 1, off := 0x100, lo := 16, len := 3, acc := .rw, init := 4, keep := .warm }

/-- R99. -/
def ENG1_TRACK_STAGED : Field := { blk := 0x12, page := 1, off := 0x100, lo := 19, len := 1, acc := .rw, init := 1, keep := .warm }

/-- R99. -/
def ENG1_GAIN_LIMIT : Field := { blk := 0x12, page := 1, off := 0x108, lo := 0, len := 16, acc := .rw, init := 0x1EC, keep := .warm }

/-- R99. -/
def ENG1_OFFSET_LIMIT : Field := { blk := 0x12, page := 1, off := 0x108, lo := 16, len := 16, acc := .rw, init := 0x20, keep := .warm }

/-- R99. -/
def ENG1_LIN_LIMIT : Field := { blk := 0x12, page := 1, off := 0x108, lo := 32, len := 16, acc := .rw, init := 0x10, keep := .warm }

/-- R99. -/
def ENG1_JUMP_LIMIT : Field := { blk := 0x12, page := 1, off := 0x108, lo := 48, len := 16, acc := .rw, init := 0x40, keep := .warm }

/-- R99. -/
def ENG1_SWEEPS : Field := { blk := 0x12, page := 1, off := 0x110, lo := 0, len := 32, acc := .ro }

/-- R99. -/
def ENG1_FORCED : Field := { blk := 0x12, page := 1, off := 0x110, lo := 32, len := 16, acc := .ro }

/-- R99. -/
def ENG1_SWEEP_STAMP_A : Field := { blk := 0x12, page := 1, off := 0x118, lo := 0, len := 64, acc := .ro }

/-- R99. -/
def ENG1_SWEEP_STAMP_B : Field := { blk := 0x12, page := 1, off := 0x120, lo := 0, len := 64, acc := .ro }

/-- R99. -/
def ENG1_GAIN_A : Field := { blk := 0x12, page := 1, off := 0x128, lo := 0, len := 16, acc := .ro, init := 0x4000, keep := .warm }

/-- R99. -/
def ENG1_GAIN_B : Field := { blk := 0x12, page := 1, off := 0x130, lo := 0, len := 16, acc := .ro, init := 0x4000, keep := .warm }

/-- R99. -/
def ENG1_OFFSET_A : Field := { blk := 0x12, page := 1, off := 0x128, lo := 16, len := 16, acc := .ro, keep := .warm }

/-- R99. -/
def ENG1_OFFSET_B : Field := { blk := 0x12, page := 1, off := 0x130, lo := 16, len := 16, acc := .ro, keep := .warm }

/-- R99. -/
def ENG1_SPAN_BASE_A : Field := { blk := 0x12, page := 1, off := 0x138, lo := 0, len := 16, acc := .ro, keep := .journal }

/-- R99. -/
def ENG1_SPAN_BASE_B : Field := { blk := 0x12, page := 1, off := 0x140, lo := 0, len := 16, acc := .ro, keep := .journal }

/-- R99. -/
def ENG1_ZERO_BASE_A : Field := { blk := 0x12, page := 1, off := 0x138, lo := 16, len := 16, acc := .ro, keep := .journal }

/-- R99. -/
def ENG1_ZERO_BASE_B : Field := { blk := 0x12, page := 1, off := 0x140, lo := 16, len := 16, acc := .ro, keep := .journal }

/-- R99. -/
def ENG1_READ_A_LO : Field := { blk := 0x12, page := 1, off := 0x148, lo := 0, len := 64, acc := .ro, keep := .warm }

/-- R99. -/
def ENG1_READ_B_LO : Field := { blk := 0x12, page := 1, off := 0x158, lo := 0, len := 64, acc := .ro, keep := .warm }

/-- R99. -/
def ENG1_READ_A_HI : Field := { blk := 0x12, page := 1, off := 0x150, lo := 0, len := 64, acc := .ro, keep := .warm }

/-- R99. -/
def ENG1_READ_B_HI : Field := { blk := 0x12, page := 1, off := 0x160, lo := 0, len := 64, acc := .ro, keep := .warm }

/-- R166. -/
def WPROG_RATED : Field := { blk := 0x13, page := 0, off := 0x010, lo := 0, len := 20, acc := .ro, init := 0xF4240, keep := .warm }

/-- R166. -/
def WPROG_MAX_PASSES : Field := { blk := 0x13, page := 0, off := 0x010, lo := 20, len := 2, acc := .ro, init := 3, keep := .warm }

/-- R166. -/
def WPROG_BUSY : Field := { blk := 0x13, page := 0, off := 0x028, lo := 32, len := 1, acc := .ro, keep := .warm }

/-- R166. -/
def WPROG_QUEUED : Field := { blk := 0x13, page := 0, off := 0x028, lo := 33, len := 1, acc := .ro, keep := .warm }

/-- R166. -/
def WPROG_A_WORN : Field := { blk := 0x13, page := 0, off := 0x028, lo := 34, len := 1, acc := .ro, keep := .journal }

/-- R166. -/
def WPROG_B_WORN : Field := { blk := 0x13, page := 0, off := 0x028, lo := 35, len := 1, acc := .ro, keep := .journal }

/-- R167. -/
def WPROG_PROG_SRC : Field := { blk := 0x13, page := 0, off := 0x100, lo := 0, len := 64, acc := .rw, keep := .warm }

/-- R167. -/
def WPROG_PROG_CRC : Field := { blk := 0x13, page := 0, off := 0x108, lo := 0, len := 32, acc := .rw, keep := .warm }

/-- R167. -/
def WPROG_BANK : Field := { blk := 0x13, page := 0, off := 0x110, lo := 0, len := 1, acc := .rw, keep := .warm }

/-- R167. -/
def WPROG_IMAGE_FMT : Field := { blk := 0x13, page := 0, off := 0x110, lo := 1, len := 2, acc := .rw, keep := .warm }

/-- R167. -/
def WPROG_MODE : Field := { blk := 0x13, page := 0, off := 0x110, lo := 3, len := 1, acc := .rw, keep := .warm }

/-- R167. -/
def WPROG_PURPOSE : Field := { blk := 0x13, page := 0, off := 0x110, lo := 4, len := 2, acc := .rw, legal := some (0, 2, 1), keep := .warm }

/-- R167. -/
def WPROG_START : Field := { blk := 0x13, page := 0, off := 0x110, lo := 6, len := 1, acc := .wo, keep := .warm }

/-- R167. -/
def WPROG_ABORT : Field := { blk := 0x13, page := 0, off := 0x110, lo := 7, len := 1, acc := .wo, keep := .warm }

/-- R167. -/
def WPROG_PASS : Field := { blk := 0x13, page := 0, off := 0x118, lo := 0, len := 2, acc := .ro, keep := .warm }

/-- R167. -/
def WPROG_ROW : Field := { blk := 0x13, page := 0, off := 0x118, lo := 2, len := 9, acc := .ro, keep := .warm }

/-- R167. -/
def WPROG_RESULT : Field := { blk := 0x13, page := 0, off := 0x118, lo := 11, len := 4, acc := .ro, keep := .warm }

/-- R167. -/
def WPROG_PROG_START_STAMP : Field := { blk := 0x13, page := 0, off := 0x120, lo := 0, len := 64, acc := .ro, keep := .warm }

/-- R167. -/
def WPROG_PROG_END_STAMP : Field := { blk := 0x13, page := 0, off := 0x128, lo := 0, len := 64, acc := .ro, keep := .warm }

/-- R167. -/
def WPROG_DEFER_UNTIL : Field := { blk := 0x13, page := 0, off := 0x130, lo := 0, len := 64, acc := .ro, keep := .warm }

/-- R167. -/
def WPROG_P1_ROWS : Field := { blk := 0x13, page := 0, off := 0x138, lo := 0, len := 10, acc := .ro, keep := .warm }

/-- R167. -/
def WPROG_P2_ROWS : Field := { blk := 0x13, page := 0, off := 0x138, lo := 10, len := 10, acc := .ro, keep := .warm }

/-- R167. -/
def WPROG_P3_ROWS : Field := { blk := 0x13, page := 0, off := 0x138, lo := 20, len := 10, acc := .ro, keep := .warm }

/-- R167. -/
def WPROG_FAILED_ROWS : Field := { blk := 0x13, page := 0, off := 0x138, lo := 30, len := 10, acc := .ro, keep := .warm }

/-- R167. -/
def WPROG_FORCED_VERIFIES : Field := { blk := 0x13, page := 0, off := 0x140, lo := 0, len := 32, acc := .rc, keep := .warm }

/-- R167. -/
def WPROG_JSRC_A : Field := { blk := 0x13, page := 0, off := 0x148, lo := 0, len := 64, acc := .ro, keep := .journal }

/-- R167. -/
def WPROG_JSRC_B : Field := { blk := 0x13, page := 0, off := 0x150, lo := 0, len := 64, acc := .ro, keep := .journal }

/-- R167. -/
def WPROG_JCRC_A : Field := { blk := 0x13, page := 0, off := 0x158, lo := 0, len := 32, acc := .ro, keep := .journal }

/-- R167. -/
def WPROG_JCRC_B : Field := { blk := 0x13, page := 0, off := 0x160, lo := 0, len := 32, acc := .ro, keep := .journal }

/-- R167. -/
def WPROG_JFMT_A : Field := { blk := 0x13, page := 0, off := 0x158, lo := 32, len := 2, acc := .ro, keep := .journal }

/-- R167. -/
def WPROG_JFMT_B : Field := { blk := 0x13, page := 0, off := 0x160, lo := 32, len := 2, acc := .ro, keep := .journal }

/-- R167. -/
def WPROG_JSEQ_A : Field := { blk := 0x13, page := 0, off := 0x158, lo := 40, len := 24, acc := .ro, keep := .journal }

/-- R167. -/
def WPROG_JSEQ_B : Field := { blk := 0x13, page := 0, off := 0x160, lo := 40, len := 24, acc := .ro, keep := .journal }

/-- R167. -/
def WPROG_ROW_MAX_A : Field := { blk := 0x13, page := 0, off := 0x168, lo := 0, len := 20, acc := .ro, keep := .journal }

/-- R167. -/
def WPROG_ROW_MAX_B : Field := { blk := 0x13, page := 0, off := 0x170, lo := 0, len := 20, acc := .ro, keep := .journal }

/-- R167. -/
def WPROG_OPS_A : Field := { blk := 0x13, page := 0, off := 0x168, lo := 20, len := 20, acc := .ro, keep := .journal }

/-- R167. -/
def WPROG_OPS_B : Field := { blk := 0x13, page := 0, off := 0x170, lo := 20, len := 20, acc := .ro, keep := .journal }

/-- R167. -/
def WPROG_ROW_TOTAL_A : Field := { blk := 0x13, page := 0, off := 0x178, lo := 0, len := 40, acc := .ro, keep := .journal }

/-- R167. -/
def WPROG_ROW_TOTAL_B : Field := { blk := 0x13, page := 0, off := 0x180, lo := 0, len := 40, acc := .ro, keep := .journal }

/-- R167. -/
def WPROG_PLAN_DAYS : Field := { blk := 0x13, page := 0, off := 0x188, lo := 0, len := 16, acc := .rw, init := 0x9FD, legal := some (365, 10000, 1), keep := .journal }

/-- R167. -/
def WPROG_BURST : Field := { blk := 0x13, page := 0, off := 0x188, lo := 16, len := 16, acc := .rw, init := 0x1000, keep := .journal }

/-- R167. -/
def WPROG_RESERVE : Field := { blk := 0x13, page := 0, off := 0x188, lo := 32, len := 16, acc := .rw, init := 0x4E20, keep := .journal }

/-- R167. -/
def WPROG_DEFER_MAX : Field := { blk := 0x13, page := 0, off := 0x188, lo := 48, len := 16, acc := .rw, init := 0x3C, keep := .journal }

/-- R167. -/
def WPROG_ELAPSED : Field := { blk := 0x13, page := 0, off := 0x190, lo := 0, len := 40, acc := .ro, src := .computed, keep := .journal }

/-- R167. -/
def WPROG_SWAP_LIMIT : Field := { blk := 0x13, page := 0, off := 0x198, lo := 0, len := 20, acc := .ro, src := .computed, keep := .warm }

/-- R167. -/
def WPROG_RETRIM_LIMIT : Field := { blk := 0x13, page := 0, off := 0x198, lo := 20, len := 20, acc := .ro, src := .computed, keep := .warm }

/-- R197. -/
def MCORE_ENGINES : Field := { blk := 0x10, page := 0, off := 0x010, lo := 0, len := 5, acc := .ro, init := 0x10, keep := .warm }

/-- R197. -/
def MCORE_SRAM_KIB : Field := { blk := 0x10, page := 0, off := 0x010, lo := 5, len := 10, acc := .ro, init := 0x200, keep := .warm }

/-- R197. -/
def MCORE_DESC_SLOTS : Field := { blk := 0x10, page := 0, off := 0x010, lo := 15, len := 9, acc := .ro, init := 0x100, keep := .warm }

/-- R197. -/
def MCORE_SEQ_RUN : Field := { blk := 0x10, page := 0, off := 0x020, lo := 32, len := 1, acc := .rw }

/-- R197. -/
def MCORE_IDLE : Field := { blk := 0x10, page := 0, off := 0x028, lo := 32, len := 1, acc := .ro, init := 1 }

/-- R197. -/
def MCORE_HOLDING : Field := { blk := 0x10, page := 0, off := 0x028, lo := 33, len := 1, acc := .ro }

/-- R197. -/
def MCORE_RUNNING : Field := { blk := 0x10, page := 0, off := 0x028, lo := 34, len := 5, acc := .ro }

/-- R198. -/
def MCORE_STEPS : Field := { blk := 0x10, page := 0, off := 0x100, lo := 0, len := 64, acc := .ro }

/-- R198. -/
def MCORE_CREDIT_WAIT : Field := { blk := 0x10, page := 0, off := 0x108, lo := 0, len := 64, acc := .ro }

/-- R198. -/
def MCORE_SHIFTED : Field := { blk := 0x10, page := 0, off := 0x110, lo := 0, len := 32, acc := .rc }

/-- R198. -/
def MCORE_SPLIT_EXTRA : Field := { blk := 0x10, page := 0, off := 0x110, lo := 32, len := 32, acc := .rc }

/-- R198. -/
def MCORE_ACT_WIDENED : Field := { blk := 0x10, page := 0, off := 0x118, lo := 0, len := 32, acc := .rc }

/-- R198. -/
def MCORE_WIDENED : Field := { blk := 0x10, page := 0, off := 0x118, lo := 32, len := 32, acc := .rc }

/-- R198. -/
def MCORE_RANGE_VIOL : Field := { blk := 0x10, page := 0, off := 0x120, lo := 0, len := 32, acc := .rc }

/-- R198. -/
def MCORE_RANGE_EXCEEDED : Field := { blk := 0x10, page := 0, off := 0x120, lo := 32, len := 32, acc := .rc }

/-- R198. -/
def MCORE_SLOW_TIER : Field := { blk := 0x10, page := 0, off := 0x128, lo := 0, len := 32, acc := .rc }

/-- R198. -/
def MCORE_HOLLOW_OUT : Field := { blk := 0x10, page := 0, off := 0x128, lo := 32, len := 32, acc := .rc }

/-- R198. -/
def MCORE_FAILED_TILES : Field := { blk := 0x10, page := 0, off := 0x130, lo := 0, len := 32, acc := .rc }

/-- R198. -/
def MCORE_UNMATCHED : Field := { blk := 0x10, page := 0, off := 0x130, lo := 32, len := 32, acc := .rc }

/-- R198. -/
def MCORE_LAST_RANGE_STAMP : Field := { blk := 0x10, page := 0, off := 0x138, lo := 0, len := 64, acc := .ro }

/-- R198. -/
def MCORE_RANGE_STREAM : Field := { blk := 0x10, page := 0, off := 0x140, lo := 0, len := 16, acc := .ro }

/-- R198. -/
def MCORE_RANGE_SEQ : Field := { blk := 0x10, page := 0, off := 0x140, lo := 16, len := 16, acc := .ro }

/-- R198. -/
def MCORE_RANGE_DESC : Field := { blk := 0x10, page := 0, off := 0x140, lo := 32, len := 8, acc := .ro }

/-- R198. -/
def MCORE_RANGE_NONFINITE : Field := { blk := 0x10, page := 0, off := 0x140, lo := 40, len := 1, acc := .ro }

/-- R199. -/
def MCORE1_DESC_BASE : Field := { blk := 0x10, page := 1, off := 0x100, lo := 0, len := 15, acc := .rw, keep := .warm }

/-- R199. -/
def MCORE1_DESC_COUNT : Field := { blk := 0x10, page := 1, off := 0x100, lo := 15, len := 9, acc := .rw, legal := some (0, 256, 1), keep := .warm }

/-- R199. -/
def MCORE1_STREAM_BASE : Field := { blk := 0x10, page := 1, off := 0x108, lo := 0, len := 15, acc := .rw, keep := .warm }

/-- R199. -/
def MCORE1_STREAM_COUNT : Field := { blk := 0x10, page := 1, off := 0x108, lo := 15, len := 11, acc := .rw, legal := some (0, 1024, 1), keep := .warm }

/-- R199. -/
def MCORE1_SLOW_VCORE : Field := { blk := 0x10, page := 1, off := 0x110, lo := 0, len := 16, acc := .rw, init := 0xFFFF, keep := .warm }

/-- R199. -/
def MCORE1_RANGE_ACTION : Field := { blk := 0x10, page := 1, off := 0x110, lo := 16, len := 1, acc := .rw, keep := .warm }

/-- R199. -/
def MCORE1_LAST_FIRE_STAMP : Field := { blk := 0x10, page := 1, off := 0x118, lo := 0, len := 64, acc := .ro, keep := .warm }

/-- R199. -/
def MCORE1_HOLD_STAMP : Field := { blk := 0x10, page := 1, off := 0x120, lo := 0, len := 64, acc := .ro, keep := .warm }

/-- R202. -/
def POST_CORR_EN : Field := { blk := 0x11, page := 0, off := 0x100, lo := 0, len := 1, acc := .rw, init := 1, keep := .warm }

/-- R202. -/
def POST_CG_A_0 : Field := { blk := 0x11, page := 0, off := 0x400, lo := 0, len := 16, acc := .rw, init := 0x8000, src := .columnGain, stride := 8, count := 128, keep := .warm }

/-- R202. -/
def POST_CO_A_0 : Field := { blk := 0x11, page := 0, off := 0x400, lo := 16, len := 16, acc := .rw, stride := 8, count := 128, keep := .warm }

/-- R202. -/
def POST_CG_A_1 : Field := { blk := 0x11, page := 0, off := 0x400, lo := 32, len := 16, acc := .rw, init := 0x8000, src := .columnGain, stride := 8, count := 128, keep := .warm }

/-- R202. -/
def POST_CO_A_1 : Field := { blk := 0x11, page := 0, off := 0x400, lo := 48, len := 16, acc := .rw, stride := 8, count := 128, keep := .warm }

/-- R202. -/
def POST_CG_B_0 : Field := { blk := 0x11, page := 0, off := 0x800, lo := 0, len := 16, acc := .rw, init := 0x8000, src := .columnGain, stride := 8, count := 128, keep := .warm }

/-- R202. -/
def POST_CO_B_0 : Field := { blk := 0x11, page := 0, off := 0x800, lo := 16, len := 16, acc := .rw, stride := 8, count := 128, keep := .warm }

/-- R202. -/
def POST_CG_B_1 : Field := { blk := 0x11, page := 0, off := 0x800, lo := 32, len := 16, acc := .rw, init := 0x8000, src := .columnGain, stride := 8, count := 128, keep := .warm }

/-- R202. -/
def POST_CO_B_1 : Field := { blk := 0x11, page := 0, off := 0x800, lo := 48, len := 16, acc := .rw, stride := 8, count := 128, keep := .warm }

/-- R203. -/
def POST1_XLO : Field := { blk := 0x11, page := 1, off := 0x100, lo := 0, len := 32, acc := .rw, stride := 8, count := 4, keep := .warm }

/-- R203. -/
def POST1_SEG_SCALE : Field := { blk := 0x11, page := 1, off := 0x100, lo := 32, len := 32, acc := .rw, stride := 8, count := 4, keep := .warm }

/-- R203. -/
def POST1_SLOPE : Field := { blk := 0x11, page := 1, off := 0x200, lo := 0, len := 32, acc := .rw, stride := 8, count := 256, keep := .warm }

/-- R203. -/
def POST1_INTERCEPT : Field := { blk := 0x11, page := 1, off := 0x200, lo := 32, len := 32, acc := .rw, stride := 8, count := 256, keep := .warm }

/-- R226. -/
def VCORE_LANES : Field := { blk := 0x14, page := 0, off := 0x010, lo := 0, len := 7, acc := .ro, init := 0x40, keep := .warm }

/-- R226. -/
def VCORE_TILE_DIM : Field := { blk := 0x14, page := 0, off := 0x010, lo := 7, len := 6, acc := .ro, init := 0x20, keep := .warm }

/-- R226. -/
def VCORE_SRAM_MIB : Field := { blk := 0x14, page := 0, off := 0x010, lo := 13, len := 4, acc := .ro, init := 4, keep := .warm }

/-- R226. -/
def VCORE_KERNEL_SLOTS : Field := { blk := 0x14, page := 0, off := 0x010, lo := 17, len := 8, acc := .ro, init := 0x80, keep := .warm }

/-- R226. -/
def VCORE_RUN : Field := { blk := 0x14, page := 0, off := 0x020, lo := 32, len := 1, acc := .rw }

/-- R226. -/
def VCORE_STANDIN_EN : Field := { blk := 0x14, page := 0, off := 0x020, lo := 33, len := 1, acc := .rw, init := 1 }

/-- R226. -/
def VCORE_IDLE : Field := { blk := 0x14, page := 0, off := 0x028, lo := 32, len := 1, acc := .ro, init := 1 }

/-- R226. -/
def VCORE_STEP_RUNNING : Field := { blk := 0x14, page := 0, off := 0x028, lo := 33, len := 1, acc := .ro }

/-- R226. -/
def VCORE_STANDIN_ACTIVE : Field := { blk := 0x14, page := 0, off := 0x028, lo := 34, len := 1, acc := .ro }

/-- R226. -/
def VCORE_STANDIN_QUEUE : Field := { blk := 0x14, page := 0, off := 0x028, lo := 35, len := 5, acc := .ro }

/-- R226. -/
def VCORE_TAINTED : Field := { blk := 0x14, page := 0, off := 0x028, lo := 40, len := 1, acc := .ro }

/-- R227. -/
def VCORE_KTAB_BASE : Field := { blk := 0x14, page := 0, off := 0x100, lo := 0, len := 18, acc := .rw, keep := .warm }

/-- R227. -/
def VCORE_KTAB_COUNT : Field := { blk := 0x14, page := 0, off := 0x100, lo := 18, len := 8, acc := .rw, legal := some (0, 128, 1), keep := .warm }

/-- R227. -/
def VCORE_KERNEL_LIMIT : Field := { blk := 0x14, page := 0, off := 0x108, lo := 0, len := 32, acc := .rw, init := 0x1AB3F0, legal := some (1, 4294967295, 1), keep := .warm }

/-- R227. -/
def VCORE_KV_POOL_BASE : Field := { blk := 0x14, page := 0, off := 0x110, lo := 0, len := 64, acc := .rw, keep := .warm }

/-- R227. -/
def VCORE_KV_POOL_PAGES : Field := { blk := 0x14, page := 0, off := 0x118, lo := 0, len := 21, acc := .rw, keep := .warm }

/-- R227. -/
def VCORE_PAGE_UNITS : Field := { blk := 0x14, page := 0, off := 0x118, lo := 21, len := 16, acc := .rw, init := 1, legal := some (1, 65535, 1), keep := .warm }

/-- R227. -/
def VCORE_KV_FREE : Field := { blk := 0x14, page := 0, off := 0x120, lo := 0, len := 21, acc := .ro, src := .computed }

/-- R227. -/
def VCORE_KV_RESERVED : Field := { blk := 0x14, page := 0, off := 0x120, lo := 21, len := 21, acc := .ro, src := .computed }

/-- R227. -/
def VCORE_STEPS : Field := { blk := 0x14, page := 0, off := 0x128, lo := 0, len := 64, acc := .ro }

/-- R227. -/
def VCORE_STANDIN_TILES : Field := { blk := 0x14, page := 0, off := 0x130, lo := 0, len := 32, acc := .rc }

/-- R227. -/
def VCORE_STANDIN_FAILED : Field := { blk := 0x14, page := 0, off := 0x130, lo := 32, len := 32, acc := .rc }

/-- R227. -/
def VCORE_FP8_CLAMPS : Field := { blk := 0x14, page := 0, off := 0x138, lo := 0, len := 32, acc := .rc }

/-- R227. -/
def VCORE_HOLLOW_OUT : Field := { blk := 0x14, page := 0, off := 0x138, lo := 32, len := 32, acc := .rc }

/-- R227. -/
def VCORE_HBM_BYTES : Field := { blk := 0x14, page := 0, off := 0x140, lo := 0, len := 64, acc := .ro }

/-- R227. -/
def VCORE_KV_REFUSALS : Field := { blk := 0x14, page := 0, off := 0x148, lo := 0, len := 32, acc := .rc }

/-- R227. -/
def VCORE_UNMATCHED : Field := { blk := 0x14, page := 0, off := 0x148, lo := 32, len := 32, acc := .rc }

/-- R227. -/
def VCORE_LAST_FIRE_STAMP : Field := { blk := 0x14, page := 0, off := 0x150, lo := 0, len := 64, acc := .ro }

/-- R227. -/
def VCORE_KV_PT_BASE : Field := { blk := 0x14, page := 0, off := 0x158, lo := 0, len := 18, acc := .rw, keep := .warm }

/-- R227. -/
def VCORE_PT_ENTRIES : Field := { blk := 0x14, page := 0, off := 0x158, lo := 18, len := 14, acc := .rw, keep := .warm }

/-- R228. -/
def SCORE_SRAM_KIB : Field := { blk := 0x15, page := 0, off := 0x010, lo := 0, len := 9, acc := .ro, init := 0x100, keep := .warm }

/-- R228. -/
def SCORE_PMP_ENTRIES : Field := { blk := 0x15, page := 0, off := 0x010, lo := 9, len := 5, acc := .ro, init := 0x10, keep := .warm }

/-- R228. -/
def SCORE_RUN : Field := { blk := 0x15, page := 0, off := 0x020, lo := 32, len := 1, acc := .rw, only := .oasis }

/-- R228. -/
def SCORE_CODE_LOCK : Field := { blk := 0x15, page := 0, off := 0x020, lo := 33, len := 1, acc := .rw, only := .oasis }

/-- R228. -/
def SCORE_RUNNING : Field := { blk := 0x15, page := 0, off := 0x028, lo := 32, len := 1, acc := .ro }

/-- R228. -/
def SCORE_WFI : Field := { blk := 0x15, page := 0, off := 0x028, lo := 33, len := 1, acc := .ro }

/-- R228. -/
def SCORE_TRAPPED : Field := { blk := 0x15, page := 0, off := 0x028, lo := 34, len := 1, acc := .ro }

/-- R229. -/
def SCORE_BOOT_ADDR : Field := { blk := 0x15, page := 0, off := 0x100, lo := 0, len := 18, acc := .rw, only := .oasis, keep := .warm }

/-- R229. -/
def SCORE_CODE_LIMIT : Field := { blk := 0x15, page := 0, off := 0x100, lo := 18, len := 18, acc := .rw, only := .oasis, keep := .warm }

/-- R229. -/
def SCORE_ROLE : Field := { blk := 0x15, page := 0, off := 0x108, lo := 0, len := 2, acc := .rw, init := 3, only := .oasis, keep := .warm }

/-- R229. -/
def SCORE_HEARTBEAT_LIMIT : Field := { blk := 0x15, page := 0, off := 0x108, lo := 32, len := 32, acc := .rw, init := 0x2710, legal := some (1, 4294967295, 1), keep := .warm }

/-- R229. -/
def SCORE_LAST_HEARTBEAT : Field := { blk := 0x15, page := 0, off := 0x110, lo := 0, len := 64, acc := .ro, keep := .warm }

/-- R229. -/
def SCORE_LAST_TRAP_CAUSE : Field := { blk := 0x15, page := 0, off := 0x118, lo := 0, len := 8, acc := .ro }

/-- R229. -/
def SCORE_LAST_TRAP_TVAL : Field := { blk := 0x15, page := 0, off := 0x120, lo := 0, len := 64, acc := .ro }

/-- R229. -/
def SCORE_LAST_TRAP_STAMP : Field := { blk := 0x15, page := 0, off := 0x128, lo := 0, len := 64, acc := .ro }

/-- R229. -/
def SCORE_PIPS_RECEIVED : Field := { blk := 0x15, page := 0, off := 0x130, lo := 0, len := 64, acc := .ro, keep := .warm }

/-- R255. -/
def ROUTER_PORTS : Field := { blk := 0x18, page := 0, off := 0x010, lo := 0, len := 4, acc := .ro, src := .computed, keep := .warm }

/-- R255. -/
def ROUTER_ATTACHMENT : Field := { blk := 0x18, page := 0, off := 0x010, lo := 4, len := 5, acc := .ro, src := .computed, keep := .warm }

/-- R255. -/
def ROUTER_LINK_FAILED : Field := { blk := 0x18, page := 0, off := 0x028, lo := 32, len := 4, acc := .ro }

/-- R255. -/
def ROUTER_OUT_FAILED : Field := { blk := 0x18, page := 0, off := 0x028, lo := 36, len := 1, acc := .ro }

/-- R255. -/
def ROUTER_MAP_BANK : Field := { blk := 0x18, page := 0, off := 0x028, lo := 37, len := 1, acc := .ro }

/-- R255. -/
def ROUTER_HELD : Field := { blk := 0x18, page := 0, off := 0x028, lo := 38, len := 1, acc := .ro }

/-- R256. -/
def ROUTER_MAP_VER : Field := { blk := 0x18, page := 0, off := 0x100, lo := 0, len := 8, acc := .ro }

/-- R256. -/
def ROUTER_MAP_SWITCH : Field := { blk := 0x18, page := 0, off := 0x108, lo := 0, len := 8, acc := .wo, only := .oasis }

/-- R256. -/
def ROUTER_CRC_ERRORS : Field := { blk := 0x18, page := 0, off := 0x110, lo := 0, len := 32, acc := .rc }

/-- R256. -/
def ROUTER_RETRIES : Field := { blk := 0x18, page := 0, off := 0x110, lo := 32, len := 32, acc := .rc }

/-- R256. -/
def ROUTER_GEN_DROPS : Field := { blk := 0x18, page := 0, off := 0x118, lo := 0, len := 32, acc := .rc }

/-- R256. -/
def ROUTER_REDIRECTS : Field := { blk := 0x18, page := 0, off := 0x118, lo := 32, len := 32, acc := .rc }

/-- R256. -/
def ROUTER_LAST_DROP_STAMP : Field := { blk := 0x18, page := 0, off := 0x120, lo := 0, len := 64, acc := .ro }

/-- R256. -/
def ROUTER_DROP_DEST : Field := { blk := 0x18, page := 0, off := 0x128, lo := 0, len := 16, acc := .ro }

/-- R256. -/
def ROUTER_DROP_STREAM : Field := { blk := 0x18, page := 0, off := 0x128, lo := 16, len := 16, acc := .ro }

/-- R256. -/
def ROUTER_DROP_SEQ : Field := { blk := 0x18, page := 0, off := 0x128, lo := 32, len := 16, acc := .ro }

/-- R256. -/
def ROUTER_DROP_GEN : Field := { blk := 0x18, page := 0, off := 0x128, lo := 48, len := 8, acc := .ro }

/-- R256. -/
def ROUTER_FLITS : Field := { blk := 0x18, page := 0, off := 0x130, lo := 0, len := 64, acc := .ro }

/-- R256. -/
def ROUTER_NEAR_STACK : Field := { blk := 0x18, page := 0, off := 0x140, lo := 0, len := 4, acc := .ro, src := .computed }

/-- R256. -/
def ROUTER_NEAR_HOPS : Field := { blk := 0x18, page := 0, off := 0x140, lo := 4, len := 6, acc := .ro, src := .computed }

/-- R256. -/
def ROUTER_DIST_TARGET : Field := { blk := 0x18, page := 0, off := 0x148, lo := 0, len := 16, acc := .rw }

/-- R256. -/
def ROUTER_Q_HOPS : Field := { blk := 0x18, page := 0, off := 0x150, lo := 0, len := 6, acc := .ro, src := .computed }

/-- R256. -/
def ROUTER_Q_SEAM : Field := { blk := 0x18, page := 0, off := 0x150, lo := 6, len := 1, acc := .ro, src := .computed }

/-- R256. -/
def ROUTER_Q_VALID : Field := { blk := 0x18, page := 0, off := 0x150, lo := 7, len := 1, acc := .ro, src := .computed }

/-- R256. -/
def ROUTER_Q_LAT_PS : Field := { blk := 0x18, page := 0, off := 0x150, lo := 32, len := 32, acc := .ro, src := .computed }

/-- R256. -/
def ROUTER_HOPS : Field := { blk := 0x18, page := 0, off := 0x200, lo := 0, len := 6, acc := .ro, src := .computed, stride := 8, count := 21 }

/-- R256. -/
def ROUTER_SEAM : Field := { blk := 0x18, page := 0, off := 0x200, lo := 6, len := 1, acc := .ro, src := .computed, stride := 8, count := 21 }

/-- R256. -/
def ROUTER_LAT_PS : Field := { blk := 0x18, page := 0, off := 0x200, lo := 32, len := 32, acc := .ro, src := .computed, stride := 8, count := 21 }

/-- R257. -/
def ROUTER1_PHYS_0 : Field := { blk := 0x18, page := 1, off := 0x100, lo := 0, len := 6, acc := .rw, src := (.mapPhys 0), stride := 8, count := 480, only := .oasis, keep := .warm }

/-- R257. -/
def ROUTER1_PHYS_1 : Field := { blk := 0x18, page := 1, off := 0x100, lo := 8, len := 6, acc := .rw, src := (.mapPhys 1), stride := 8, count := 480, only := .oasis, keep := .warm }

/-- R257. -/
def ROUTER1_PHYS_2 : Field := { blk := 0x18, page := 1, off := 0x100, lo := 16, len := 6, acc := .rw, src := (.mapPhys 2), stride := 8, count := 480, only := .oasis, keep := .warm }

/-- R257. -/
def ROUTER1_PHYS_3 : Field := { blk := 0x18, page := 1, off := 0x100, lo := 24, len := 6, acc := .rw, src := (.mapPhys 3), stride := 8, count := 480, only := .oasis, keep := .warm }

/-- R257. -/
def ROUTER1_PHYS_4 : Field := { blk := 0x18, page := 1, off := 0x100, lo := 32, len := 6, acc := .rw, src := (.mapPhys 4), stride := 8, count := 480, only := .oasis, keep := .warm }

/-- R257. -/
def ROUTER1_PHYS_5 : Field := { blk := 0x18, page := 1, off := 0x100, lo := 40, len := 6, acc := .rw, src := (.mapPhys 5), stride := 8, count := 480, only := .oasis, keep := .warm }

/-- R257. -/
def ROUTER1_PHYS_6 : Field := { blk := 0x18, page := 1, off := 0x100, lo := 48, len := 6, acc := .rw, src := (.mapPhys 6), stride := 8, count := 480, only := .oasis, keep := .warm }

/-- R257. -/
def ROUTER1_PHYS_7 : Field := { blk := 0x18, page := 1, off := 0x100, lo := 56, len := 6, acc := .rw, src := (.mapPhys 7), stride := 8, count := 480, only := .oasis, keep := .warm }

/-- R257. -/
def ROUTER1_ABSENT_0 : Field := { blk := 0x18, page := 1, off := 0x100, lo := 6, len := 1, acc := .rw, stride := 8, count := 480, only := .oasis, keep := .warm }

/-- R257. -/
def ROUTER1_ABSENT_1 : Field := { blk := 0x18, page := 1, off := 0x100, lo := 14, len := 1, acc := .rw, stride := 8, count := 480, only := .oasis, keep := .warm }

/-- R257. -/
def ROUTER1_ABSENT_2 : Field := { blk := 0x18, page := 1, off := 0x100, lo := 22, len := 1, acc := .rw, stride := 8, count := 480, only := .oasis, keep := .warm }

/-- R257. -/
def ROUTER1_ABSENT_3 : Field := { blk := 0x18, page := 1, off := 0x100, lo := 30, len := 1, acc := .rw, stride := 8, count := 480, only := .oasis, keep := .warm }

/-- R257. -/
def ROUTER1_ABSENT_4 : Field := { blk := 0x18, page := 1, off := 0x100, lo := 38, len := 1, acc := .rw, stride := 8, count := 480, only := .oasis, keep := .warm }

/-- R257. -/
def ROUTER1_ABSENT_5 : Field := { blk := 0x18, page := 1, off := 0x100, lo := 46, len := 1, acc := .rw, stride := 8, count := 480, only := .oasis, keep := .warm }

/-- R257. -/
def ROUTER1_ABSENT_6 : Field := { blk := 0x18, page := 1, off := 0x100, lo := 54, len := 1, acc := .rw, stride := 8, count := 480, only := .oasis, keep := .warm }

/-- R257. -/
def ROUTER1_ABSENT_7 : Field := { blk := 0x18, page := 1, off := 0x100, lo := 62, len := 1, acc := .rw, stride := 8, count := 480, only := .oasis, keep := .warm }

/-- R258. -/
def SEAM_EW_PIP : Field := { blk := 0x19, page := 0, off := 0x100, lo := 0, len := 8, acc := .ro, init := 0xA }

/-- R258. -/
def SEAM_EW_REQ : Field := { blk := 0x19, page := 0, off := 0x100, lo := 8, len := 8, acc := .ro, init := 4 }

/-- R258. -/
def SEAM_EW_RESP : Field := { blk := 0x19, page := 0, off := 0x100, lo := 16, len := 8, acc := .ro, init := 4 }

/-- R258. -/
def SEAM_EW_MGMT : Field := { blk := 0x19, page := 0, off := 0x100, lo := 24, len := 8, acc := .ro, init := 2 }

/-- R258. -/
def SEAM_WE_PIP : Field := { blk := 0x19, page := 0, off := 0x108, lo := 0, len := 8, acc := .ro, init := 0xA }

/-- R258. -/
def SEAM_WE_REQ : Field := { blk := 0x19, page := 0, off := 0x108, lo := 8, len := 8, acc := .ro, init := 4 }

/-- R258. -/
def SEAM_WE_RESP : Field := { blk := 0x19, page := 0, off := 0x108, lo := 16, len := 8, acc := .ro, init := 4 }

/-- R258. -/
def SEAM_WE_MGMT : Field := { blk := 0x19, page := 0, off := 0x108, lo := 24, len := 8, acc := .ro, init := 2 }

/-- R258. -/
def SEAM_ADDED_PS : Field := { blk := 0x19, page := 0, off := 0x110, lo := 0, len := 32, acc := .ro }

/-- R258. -/
def SEAM_RESCALES : Field := { blk := 0x19, page := 0, off := 0x110, lo := 32, len := 32, acc := .ro }

/-- R258. -/
def SEAM_FLITS_EW : Field := { blk := 0x19, page := 0, off := 0x118, lo := 0, len := 64, acc := .ro }

/-- R258. -/
def SEAM_FLITS_WE : Field := { blk := 0x19, page := 0, off := 0x120, lo := 0, len := 64, acc := .ro }

/-- R258. -/
def SEAM_HIGH_EW : Field := { blk := 0x19, page := 0, off := 0x128, lo := 0, len := 6, acc := .rc }

/-- R258. -/
def SEAM_HIGH_WE : Field := { blk := 0x19, page := 0, off := 0x128, lo := 8, len := 6, acc := .rc }

/-- R258. -/
def SEAM_RESCALE_STAMP : Field := { blk := 0x19, page := 0, off := 0x130, lo := 0, len := 64, acc := .ro }

/-- R278. -/
def HBM_STACK_GIB : Field := { blk := 0x20, page := 0, off := 0x010, lo := 0, len := 8, acc := .ro, init := 0x30, keep := .warm }

/-- R278. -/
def HBM_CHANNELS : Field := { blk := 0x20, page := 0, off := 0x010, lo := 8, len := 6, acc := .ro, init := 0x20, keep := .warm }

/-- R278. -/
def HBM_PSEUDO_CHANNELS : Field := { blk := 0x20, page := 0, off := 0x010, lo := 14, len := 7, acc := .ro, init := 0x40, keep := .warm }

/-- R278. -/
def HBM_TRAINED : Field := { blk := 0x20, page := 0, off := 0x028, lo := 32, len := 1, acc := .ro }

/-- R278. -/
def HBM_RATE : Field := { blk := 0x20, page := 0, off := 0x028, lo := 33, len := 1, acc := .ro }

/-- R278. -/
def HBM_SELF_REFRESH : Field := { blk := 0x20, page := 0, off := 0x028, lo := 34, len := 1, acc := .ro }

/-- R278. -/
def HBM_FAILED : Field := { blk := 0x20, page := 0, off := 0x028, lo := 35, len := 1, acc := .ro }

/-- R278. -/
def HBM_INITIALISED : Field := { blk := 0x20, page := 0, off := 0x028, lo := 36, len := 1, acc := .ro }

/-- R279. -/
def HBM_INTERLEAVE_GIB : Field := { blk := 0x20, page := 0, off := 0x100, lo := 0, len := 6, acc := .rw, init := 0x20, legal := some (0, 48, 4), keep := .warm }

/-- R279. -/
def HBM_SEALED_BASE : Field := { blk := 0x20, page := 0, off := 0x108, lo := 0, len := 64, acc := .rw, init := 0x6000000000, legal := some (0, 0xFFFFFFFFC0000000, 0x40000000), only := .oasis, keep := .warm }

/-- R279. -/
def HBM_SEALED_LIMIT : Field := { blk := 0x20, page := 0, off := 0x110, lo := 0, len := 64, acc := .rw, init := 0x8FFFFFFFFF, only := .oasis, keep := .warm }

/-- R279. -/
def HBM_READ_BYTES : Field := { blk := 0x20, page := 0, off := 0x118, lo := 0, len := 64, acc := .ro }

/-- R279. -/
def HBM_WRITE_BYTES : Field := { blk := 0x20, page := 0, off := 0x120, lo := 0, len := 64, acc := .ro }

/-- R279. -/
def HBM_SEALED_DENIALS : Field := { blk := 0x20, page := 0, off := 0x128, lo := 0, len := 32, acc := .rc }

/-- R279. -/
def HBM_LAST_DENIED_ADDR : Field := { blk := 0x20, page := 0, off := 0x130, lo := 0, len := 64, acc := .ro }

/-- R280. -/
def HBM1_SCRUB_EN : Field := { blk := 0x20, page := 1, off := 0x100, lo := 0, len := 1, acc := .rw, init := 1, keep := .warm }

/-- R280. -/
def HBM1_SCRUB_PERIOD_H : Field := { blk := 0x20, page := 1, off := 0x100, lo := 1, len := 8, acc := .rw, init := 0x18, legal := some (1, 168, 1), keep := .warm }

/-- R280. -/
def HBM1_SCRUB_PTR : Field := { blk := 0x20, page := 1, off := 0x108, lo := 0, len := 64, acc := .ro, keep := .warm }

/-- R280. -/
def HBM1_PASSES : Field := { blk := 0x20, page := 1, off := 0x110, lo := 0, len := 32, acc := .ro, keep := .warm }

/-- R280. -/
def HBM1_SCRUB_LATE : Field := { blk := 0x20, page := 1, off := 0x110, lo := 32, len := 1, acc := .ro, keep := .warm }

/-- R280. -/
def HBM1_CE_COUNT : Field := { blk := 0x20, page := 1, off := 0x118, lo := 0, len := 32, acc := .rc, keep := .warm }

/-- R280. -/
def HBM1_UE_COUNT : Field := { blk := 0x20, page := 1, off := 0x118, lo := 32, len := 32, acc := .rc, keep := .warm }

/-- R280. -/
def HBM1_TAG_ERRORS : Field := { blk := 0x20, page := 1, off := 0x120, lo := 0, len := 32, acc := .rc, keep := .warm }

/-- R280. -/
def HBM1_HOLLOW_READS : Field := { blk := 0x20, page := 1, off := 0x120, lo := 32, len := 32, acc := .rc, keep := .warm }

/-- R280. -/
def HBM1_LAST_CE_ADDR : Field := { blk := 0x20, page := 1, off := 0x128, lo := 0, len := 64, acc := .ro, keep := .warm }

/-- R280. -/
def HBM1_LAST_UE_ADDR : Field := { blk := 0x20, page := 1, off := 0x130, lo := 0, len := 64, acc := .ro, keep := .warm }

/-- R280. -/
def HBM1_LAST_UE_STAMP : Field := { blk := 0x20, page := 1, off := 0x138, lo := 0, len := 64, acc := .ro, keep := .warm }

/-- R280. -/
def HBM1_HOLLOW_WRITES : Field := { blk := 0x20, page := 1, off := 0x140, lo := 0, len := 32, acc := .rc, keep := .warm }

/-- R318. -/
def SERVE_RINGS : Field := { blk := 0x38, page := 0, off := 0x010, lo := 0, len := 17, acc := .ro, init := 0x10000, keep := .warm }

/-- R318. -/
def SERVE_TENANTS : Field := { blk := 0x38, page := 0, off := 0x010, lo := 17, len := 13, acc := .ro, init := 0x1000, keep := .warm }

/-- R318. -/
def SERVE_SERVE_EN : Field := { blk := 0x38, page := 0, off := 0x020, lo := 32, len := 1, acc := .rw, keep := .warm }

/-- R318. -/
def SERVE_QUEUE_FULL : Field := { blk := 0x38, page := 0, off := 0x028, lo := 32, len := 1, acc := .ro, keep := .warm }

/-- R318. -/
def SERVE_OPEN : Field := { blk := 0x38, page := 0, off := 0x100, lo := 0, len := 17, acc := .ro, keep := .warm }

/-- R318. -/
def SERVE_QUEUED : Field := { blk := 0x38, page := 0, off := 0x100, lo := 17, len := 17, acc := .ro, keep := .warm }

/-- R318. -/
def SERVE_CONTEXTS : Field := { blk := 0x38, page := 0, off := 0x100, lo := 34, len := 17, acc := .ro, keep := .warm }

/-- R318. -/
def SERVE_QUEUE_MAX : Field := { blk := 0x38, page := 0, off := 0x108, lo := 0, len := 17, acc := .rw, init := 0x1000, legal := some (0, 65536, 1), keep := .warm }

/-- R318. -/
def SERVE_RETRY_US : Field := { blk := 0x38, page := 0, off := 0x108, lo := 32, len := 16, acc := .rw, init := 0x3E8, legal := some (1, 65535, 1), keep := .warm }

/-- R318. -/
def SERVE_ACCEPTED : Field := { blk := 0x38, page := 0, off := 0x110, lo := 0, len := 64, acc := .ro, keep := .warm }

/-- R318. -/
def SERVE_ENDED : Field := { blk := 0x38, page := 0, off := 0x118, lo := 0, len := 64, acc := .ro, keep := .warm }

/-- R318. -/
def SERVE_BUSY_REFUSALS : Field := { blk := 0x38, page := 0, off := 0x120, lo := 0, len := 32, acc := .rc, keep := .warm }

/-- R318. -/
def SERVE_OTHER_REFUSALS : Field := { blk := 0x38, page := 0, off := 0x120, lo := 32, len := 32, acc := .rc, keep := .warm }

/-- R318. -/
def SERVE_ABNORMAL_ENDS : Field := { blk := 0x38, page := 0, off := 0x128, lo := 0, len := 32, acc := .rc, keep := .warm }

/-- R318. -/
def SERVE_LATE_CANCELS : Field := { blk := 0x38, page := 0, off := 0x128, lo := 32, len := 32, acc := .rc, keep := .warm }

/-- R318. -/
def SERVE_END_TABLE_DEPTH : Field := { blk := 0x38, page := 0, off := 0x130, lo := 0, len := 17, acc := .ro, init := 0x10000, keep := .warm }

/-- R318. -/
def SERVE_CMD_TABLE_DEPTH : Field := { blk := 0x38, page := 0, off := 0x130, lo := 17, len := 16, acc := .ro, init := 0x4000, keep := .warm }

/-- R319. -/
def SERVE1_MAX_ACTIVE : Field := { blk := 0x38, page := 1, off := 0x100, lo := 0, len := 11, acc := .rw, init := 0x400, legal := some (1, 1024, 1), keep := .warm }

/-- R319. -/
def SERVE1_PREFILL_CHUNK : Field := { blk := 0x38, page := 1, off := 0x100, lo := 11, len := 13, acc := .rw, init := 0x100, legal := some (1, 4096, 1), keep := .warm }

/-- R319. -/
def SERVE1_DECODE_TURNS : Field := { blk := 0x38, page := 1, off := 0x100, lo := 24, len := 8, acc := .rw, init := 4, legal := some (1, 255, 1), keep := .warm }

/-- R319. -/
def SERVE1_PREFILL_TURNS : Field := { blk := 0x38, page := 1, off := 0x100, lo := 32, len := 8, acc := .rw, init := 1, keep := .warm }

/-- R319. -/
def SERVE1_STARVE_US : Field := { blk := 0x38, page := 1, off := 0x108, lo := 0, len := 20, acc := .rw, init := 0x4E20, legal := some (1, 1000000, 1), keep := .warm }

/-- R319. -/
def SERVE1_PREFILL_INFLIGHT : Field := { blk := 0x38, page := 1, off := 0x108, lo := 20, len := 16, acc := .rw, init := 0x1000, legal := some (1, 65535, 1), keep := .warm }

/-- R319. -/
def SERVE1_DECODE_SETS : Field := { blk := 0x38, page := 1, off := 0x110, lo := 0, len := 64, acc := .ro, keep := .warm }

/-- R319. -/
def SERVE1_PREFILL_POSITIONS : Field := { blk := 0x38, page := 1, off := 0x118, lo := 0, len := 64, acc := .ro, keep := .warm }

/-- R319. -/
def SERVE1_STARVE_PROMOTIONS : Field := { blk := 0x38, page := 1, off := 0x120, lo := 0, len := 32, acc := .rc, keep := .warm }

/-- R319. -/
def SERVE1_THROTTLE_SKIPS : Field := { blk := 0x38, page := 1, off := 0x120, lo := 32, len := 32, acc := .rc, keep := .warm }

/-- R320. -/
def SERVE2_STATE : Field := { blk := 0x38, page := 2, off := 0x100, lo := 0, len := 3, acc := .ro, stride := 16, count := 64, keep := .warm }

/-- R320. -/
def SERVE2_HEAD : Field := { blk := 0x38, page := 2, off := 0x100, lo := 3, len := 1, acc := .ro, stride := 16, count := 64, keep := .warm }

/-- R320. -/
def SERVE2_EPOCH : Field := { blk := 0x38, page := 2, off := 0x100, lo := 4, len := 2, acc := .ro, stride := 16, count := 64, keep := .warm }

/-- R320. -/
def SERVE2_PREEMPT : Field := { blk := 0x38, page := 2, off := 0x100, lo := 6, len := 1, acc := .ro, stride := 16, count := 64, keep := .warm }

/-- R320. -/
def SERVE2_CONTEXTS : Field := { blk := 0x38, page := 2, off := 0x100, lo := 7, len := 15, acc := .ro, stride := 16, count := 64, keep := .warm }

/-- R320. -/
def SERVE2_OPEN : Field := { blk := 0x38, page := 2, off := 0x100, lo := 22, len := 17, acc := .ro, stride := 16, count := 64, keep := .warm }

/-- R320. -/
def SERVE2_MAX_POSITIONS : Field := { blk := 0x38, page := 2, off := 0x100, lo := 39, len := 24, acc := .ro, stride := 16, count := 64, keep := .warm }

/-- R320. -/
def SERVE2_DET_OK : Field := { blk := 0x38, page := 2, off := 0x100, lo := 63, len := 1, acc := .ro, stride := 16, count := 64, keep := .warm }

/-- R320. -/
def SERVE2_DRAIN_LIMIT_MS : Field := { blk := 0x38, page := 2, off := 0x108, lo := 0, len := 16, acc := .rw, init := 0x2710, stride := 16, count := 64, keep := .warm }

/-- R320. -/
def SERVE2_ADMIT_SCORE : Field := { blk := 0x38, page := 2, off := 0x108, lo := 16, len := 16, acc := .ro, stride := 16, count := 64, keep := .warm }

/-- R320. -/
def SERVE2_STEP_SCORE : Field := { blk := 0x38, page := 2, off := 0x108, lo := 32, len := 16, acc := .ro, stride := 16, count := 64, keep := .warm }

/-- R320. -/
def SERVE2_COMMIT_SCORE : Field := { blk := 0x38, page := 2, off := 0x108, lo := 48, len := 16, acc := .ro, stride := 16, count := 64, keep := .warm }

/-- R321. -/
def TENANT_RATE : Field := { blk := 0x39, page := 0, off := 0x100, lo := 0, len := 32, acc := .rw, keep := .warm }

/-- R321. -/
def TENANT_DEPTH : Field := { blk := 0x39, page := 0, off := 0x100, lo := 32, len := 32, acc := .rw, keep := .warm }

/-- R321. -/
def TENANT_PREFILL_W : Field := { blk := 0x39, page := 0, off := 0x108, lo := 0, len := 16, acc := .rw, init := 0x40, keep := .warm }

/-- R321. -/
def TENANT_DECODE_W : Field := { blk := 0x39, page := 0, off := 0x108, lo := 16, len := 16, acc := .rw, init := 0x100, keep := .warm }

/-- R321. -/
def TENANT_CLASS : Field := { blk := 0x39, page := 0, off := 0x108, lo := 32, len := 2, acc := .rw, keep := .warm }

/-- R321. -/
def TENANT_ENABLED : Field := { blk := 0x39, page := 0, off := 0x108, lo := 34, len := 1, acc := .rw, keep := .warm }

/-- R321. -/
def TENANT_MAX_OPEN : Field := { blk := 0x39, page := 0, off := 0x108, lo := 35, len := 16, acc := .rw, init := 0xFFFF, keep := .warm }

/-- R321. -/
def TENANT_BALANCE : Field := { blk := 0x39, page := 0, off := 0x110, lo := 0, len := 48, acc := .ro, keep := .warm }

/-- R321. -/
def TENANT_LAST_REFILL : Field := { blk := 0x39, page := 0, off := 0x118, lo := 0, len := 64, acc := .ro, keep := .warm }

/-- R321. -/
def TENANT_DEBIT_COUNT : Field := { blk := 0x39, page := 0, off := 0x120, lo := 0, len := 24, acc := .wo, only := .score, keep := .warm }

/-- R321. -/
def TENANT_DEBIT_KIND : Field := { blk := 0x39, page := 0, off := 0x120, lo := 24, len := 1, acc := .wo, keep := .warm }

/-- R321. -/
def TENANT_PREFILL_CHARGED : Field := { blk := 0x39, page := 0, off := 0x128, lo := 0, len := 64, acc := .ro, keep := .warm }

/-- R321. -/
def TENANT_DECODE_CHARGED : Field := { blk := 0x39, page := 0, off := 0x130, lo := 0, len := 64, acc := .ro, keep := .warm }

/-- R321. -/
def TENANT_OPEN : Field := { blk := 0x39, page := 0, off := 0x138, lo := 0, len := 17, acc := .ro, keep := .warm }

/-- R321. -/
def TENANT_THROTTLES : Field := { blk := 0x39, page := 0, off := 0x138, lo := 32, len := 32, acc := .rc, keep := .warm }

/-- R321. -/
def TENANT_REFUSED : Field := { blk := 0x39, page := 0, off := 0x140, lo := 0, len := 32, acc := .rc, keep := .warm }

/-- R322. -/
def RING_HOST_ADDR : Field := { blk := 0x3A, page := 0, off := 0x100, lo := 0, len := 64, acc := .ro, keep := .warm }

/-- R322. -/
def RING_RKEY : Field := { blk := 0x3A, page := 0, off := 0x108, lo := 0, len := 32, acc := .ro, keep := .warm }

/-- R322. -/
def RING_QP : Field := { blk := 0x3A, page := 0, off := 0x108, lo := 32, len := 10, acc := .ro, keep := .warm }

/-- R322. -/
def RING_SIZE_LOG2 : Field := { blk := 0x3A, page := 0, off := 0x108, lo := 42, len := 5, acc := .ro, keep := .warm }

/-- R322. -/
def RING_TENANT : Field := { blk := 0x3A, page := 0, off := 0x108, lo := 47, len := 12, acc := .ro, keep := .warm }

/-- R322. -/
def RING_NEXT_SEQ : Field := { blk := 0x3A, page := 0, off := 0x110, lo := 0, len := 32, acc := .ro, keep := .warm }

/-- R322. -/
def RING_CONSUMED : Field := { blk := 0x3A, page := 0, off := 0x110, lo := 32, len := 32, acc := .rw, keep := .warm }

/-- R322. -/
def RING_DELIVERED : Field := { blk := 0x3A, page := 0, off := 0x118, lo := 0, len := 32, acc := .ro, keep := .warm }

/-- R322. -/
def RING_REQUEST_ID : Field := { blk := 0x3A, page := 0, off := 0x118, lo := 32, len := 32, acc := .ro, keep := .warm }

/-- R322. -/
def RING_SHADOW_ADDR : Field := { blk := 0x3A, page := 0, off := 0x120, lo := 0, len := 64, acc := .ro, keep := .warm }

/-- R322. -/
def RING_LAST_COMMIT_STAMP : Field := { blk := 0x3A, page := 0, off := 0x128, lo := 0, len := 64, acc := .ro, keep := .warm }

/-- R322. -/
def RING_DEADLINE : Field := { blk := 0x3A, page := 0, off := 0x130, lo := 0, len := 64, acc := .ro, keep := .warm }

/-- R322. -/
def RING_FULL_STALLS : Field := { blk := 0x3A, page := 0, off := 0x138, lo := 0, len := 32, acc := .rc, keep := .warm }

/-- R322. -/
def RING_DISCARDED : Field := { blk := 0x3A, page := 0, off := 0x138, lo := 32, len := 32, acc := .rc, keep := .warm }

/-- R352. -/
def HOST_MAC_ADDR : Field := { blk := 0x28, page := 0, off := 0x100, lo := 0, len := 48, acc := .ro, src := .mac }

/-- R352. -/
def HOST_PORT_EN : Field := { blk := 0x28, page := 0, off := 0x108, lo := 0, len := 1, acc := .rw, init := 1, keep := .warm }

/-- R352. -/
def HOST_SPEED : Field := { blk := 0x28, page := 0, off := 0x108, lo := 1, len := 2, acc := .rw, legal := some (0, 2, 1), keep := .warm }

/-- R352. -/
def HOST_MTU : Field := { blk := 0x28, page := 0, off := 0x108, lo := 3, len := 14, acc := .rw, init := 0x2400, legal := some (1280, 9216, 1), keep := .warm }

/-- R352. -/
def HOST_PFC_TX_EN : Field := { blk := 0x28, page := 0, off := 0x108, lo := 17, len := 1, acc := .rw, init := 1, keep := .warm }

/-- R352. -/
def HOST_PFC_RX_MASK : Field := { blk := 0x28, page := 0, off := 0x108, lo := 18, len := 8, acc := .rw, init := 0xFF, keep := .warm }

/-- R352. -/
def HOST_XOFF_KIB : Field := { blk := 0x28, page := 0, off := 0x110, lo := 0, len := 16, acc := .rw, init := 0x600, keep := .warm }

/-- R352. -/
def HOST_XON_KIB : Field := { blk := 0x28, page := 0, off := 0x110, lo := 16, len := 16, acc := .rw, init := 0x400, keep := .warm }

/-- R352. -/
def HOST_FRAMES_RX : Field := { blk := 0x28, page := 0, off := 0x118, lo := 0, len := 64, acc := .ro }

/-- R352. -/
def HOST_FRAMES_TX : Field := { blk := 0x28, page := 0, off := 0x120, lo := 0, len := 64, acc := .ro }

/-- R352. -/
def HOST_FEC_CORRECTED : Field := { blk := 0x28, page := 0, off := 0x128, lo := 0, len := 32, acc := .rc }

/-- R352. -/
def HOST_FEC_UNCORRECTED : Field := { blk := 0x28, page := 0, off := 0x128, lo := 32, len := 32, acc := .rc }

/-- R352. -/
def HOST_RX_DROPS : Field := { blk := 0x28, page := 0, off := 0x130, lo := 0, len := 32, acc := .rc }

/-- R352. -/
def HOST_PAUSED_US : Field := { blk := 0x28, page := 0, off := 0x130, lo := 32, len := 32, acc := .rc }

/-- R352. -/
def HOST_LLDP_CHASSIS : Field := { blk := 0x28, page := 0, off := 0x138, lo := 0, len := 48, acc := .ro }

/-- R352. -/
def HOST_LLDP_PORT : Field := { blk := 0x28, page := 0, off := 0x140, lo := 0, len := 64, acc := .ro }

/-- R352. -/
def HOST_LLDP_STAMP : Field := { blk := 0x28, page := 0, off := 0x148, lo := 0, len := 64, acc := .ro }

/-- R353. -/
def HOST1_IPV4_ADDR : Field := { blk := 0x28, page := 1, off := 0x100, lo := 0, len := 32, acc := .rw, keep := .warm }

/-- R353. -/
def HOST1_IPV4_PREFIX : Field := { blk := 0x28, page := 1, off := 0x100, lo := 32, len := 6, acc := .rw, keep := .warm }

/-- R353. -/
def HOST1_IPV4_EN : Field := { blk := 0x28, page := 1, off := 0x100, lo := 38, len := 1, acc := .rw, keep := .warm }

/-- R353. -/
def HOST1_IPV6_HI : Field := { blk := 0x28, page := 1, off := 0x108, lo := 0, len := 64, acc := .rw, keep := .warm }

/-- R353. -/
def HOST1_IPV6_LO : Field := { blk := 0x28, page := 1, off := 0x110, lo := 0, len := 64, acc := .rw, keep := .warm }

/-- R353. -/
def HOST1_IPV6_PREFIX : Field := { blk := 0x28, page := 1, off := 0x118, lo := 0, len := 7, acc := .rw, keep := .warm }

/-- R353. -/
def HOST1_IPV6_EN : Field := { blk := 0x28, page := 1, off := 0x118, lo := 7, len := 1, acc := .rw, keep := .warm }

/-- R353. -/
def HOST1_VLAN_ID : Field := { blk := 0x28, page := 1, off := 0x120, lo := 0, len := 12, acc := .rw, legal := some (0, 4094, 1), keep := .warm }

/-- R353. -/
def HOST1_ROCE_PCP : Field := { blk := 0x28, page := 1, off := 0x120, lo := 12, len := 3, acc := .rw, init := 3, keep := .warm }

/-- R353. -/
def HOST1_CNP_PCP : Field := { blk := 0x28, page := 1, off := 0x120, lo := 15, len := 3, acc := .rw, init := 6, keep := .warm }

/-- R353. -/
def HOST1_ROCE_DSCP : Field := { blk := 0x28, page := 1, off := 0x120, lo := 18, len := 6, acc := .rw, init := 0x1A, keep := .warm }

/-- R353. -/
def HOST1_CNP_DSCP : Field := { blk := 0x28, page := 1, off := 0x120, lo := 24, len := 6, acc := .rw, init := 0x30, keep := .warm }

/-- R353. -/
def HOST1_PTP_PCP : Field := { blk := 0x28, page := 1, off := 0x120, lo := 30, len := 3, acc := .rw, init := 7, keep := .warm }

/-- R353. -/
def HOST1_CNP_INTERVAL_US : Field := { blk := 0x28, page := 1, off := 0x128, lo := 0, len := 16, acc := .rw, init := 0x32, legal := some (1, 65535, 1), keep := .warm }

/-- R353. -/
def HOST1_RATE_INC_US : Field := { blk := 0x28, page := 1, off := 0x128, lo := 16, len := 16, acc := .rw, init := 0x37, legal := some (1, 65535, 1), keep := .warm }

/-- R353. -/
def HOST1_MIN_RATE_MBPS : Field := { blk := 0x28, page := 1, off := 0x128, lo := 32, len := 16, acc := .rw, init := 0x64, legal := some (1, 65535, 1), keep := .warm }

/-- R353. -/
def HOST1_G_SHIFT : Field := { blk := 0x28, page := 1, off := 0x128, lo := 48, len := 4, acc := .rw, init := 8, legal := some (1, 15, 1), keep := .warm }

/-- R353. -/
def HOST1_CNP_TX : Field := { blk := 0x28, page := 1, off := 0x130, lo := 0, len := 32, acc := .rc }

/-- R353. -/
def HOST1_CNP_RX : Field := { blk := 0x28, page := 1, off := 0x130, lo := 32, len := 32, acc := .rc }

/-- R353. -/
def HOST1_ECN_CE_RX : Field := { blk := 0x28, page := 1, off := 0x138, lo := 0, len := 32, acc := .rc }

/-- R353. -/
def HOST1_INBOUND_RDMA_REJECTS : Field := { blk := 0x28, page := 1, off := 0x138, lo := 32, len := 32, acc := .rc }

/-- R353. -/
def HOST1_QPS_CONNECTED : Field := { blk := 0x28, page := 1, off := 0x140, lo := 0, len := 11, acc := .ro }

/-- R354. -/
def HOST2_PTP_EN : Field := { blk := 0x28, page := 2, off := 0x100, lo := 0, len := 1, acc := .rw, keep := .warm }

/-- R354. -/
def HOST2_DOMAIN : Field := { blk := 0x28, page := 2, off := 0x100, lo := 1, len := 8, acc := .rw, keep := .warm }

/-- R354. -/
def HOST2_TRANSPORT : Field := { blk := 0x28, page := 2, off := 0x100, lo := 9, len := 2, acc := .rw, legal := some (0, 2, 1), keep := .warm }

/-- R354. -/
def HOST2_TIME_SOURCE : Field := { blk := 0x28, page := 2, off := 0x100, lo := 11, len := 1, acc := .rw, keep := .warm }

/-- R354. -/
def HOST2_PORT_STATE : Field := { blk := 0x28, page := 2, off := 0x108, lo := 0, len := 3, acc := .ro }

/-- R354. -/
def HOST2_GM_IDENTITY : Field := { blk := 0x28, page := 2, off := 0x110, lo := 0, len := 64, acc := .ro }

/-- R354. -/
def HOST2_OFFSET_NS : Field := { blk := 0x28, page := 2, off := 0x118, lo := 0, len := 64, acc := .ro }

/-- R354. -/
def HOST2_PATH_DELAY_NS : Field := { blk := 0x28, page := 2, off := 0x120, lo := 0, len := 64, acc := .ro }

/-- R354. -/
def HOST2_SYNC_STAMP : Field := { blk := 0x28, page := 2, off := 0x128, lo := 0, len := 64, acc := .ro }

/-- R354. -/
def HOST2_SYNC_RX : Field := { blk := 0x28, page := 2, off := 0x130, lo := 0, len := 32, acc := .rc }

/-- R354. -/
def HOST2_PTP_DISCARDS : Field := { blk := 0x28, page := 2, off := 0x130, lo := 32, len := 32, acc := .rc }

/-- R355. -/
def QP_LOCAL_QPN : Field := { blk := 0x29, page := 0, off := 0x100, lo := 0, len := 24, acc := .ro, init := 0x10, src := .qpn }

/-- R355. -/
def QP_REMOTE_QPN : Field := { blk := 0x29, page := 0, off := 0x100, lo := 24, len := 24, acc := .ro }

/-- R355. -/
def QP_REMOTE_IP_HI : Field := { blk := 0x29, page := 0, off := 0x108, lo := 0, len := 64, acc := .ro }

/-- R355. -/
def QP_REMOTE_IP_LO : Field := { blk := 0x29, page := 0, off := 0x110, lo := 0, len := 64, acc := .ro }

/-- R355. -/
def QP_NEXT_HOP_MAC : Field := { blk := 0x29, page := 0, off := 0x118, lo := 0, len := 48, acc := .ro }

/-- R355. -/
def QP_PMTU : Field := { blk := 0x29, page := 0, off := 0x118, lo := 48, len := 3, acc := .ro }

/-- R355. -/
def QP_RETRY_CNT : Field := { blk := 0x29, page := 0, off := 0x118, lo := 51, len := 3, acc := .ro }

/-- R355. -/
def QP_RNR_RETRY : Field := { blk := 0x29, page := 0, off := 0x118, lo := 54, len := 3, acc := .ro }

/-- R355. -/
def QP_ACK_TIMEOUT : Field := { blk := 0x29, page := 0, off := 0x118, lo := 57, len := 5, acc := .ro }

/-- R355. -/
def QP_SQ_PSN : Field := { blk := 0x29, page := 0, off := 0x120, lo := 0, len := 24, acc := .ro }

/-- R355. -/
def QP_RQ_PSN : Field := { blk := 0x29, page := 0, off := 0x120, lo := 24, len := 24, acc := .ro }

/-- R355. -/
def QP_SLOTS_FREE : Field := { blk := 0x29, page := 0, off := 0x128, lo := 0, len := 6, acc := .ro, init := 0x20 }

/-- R355. -/
def QP_SEMS_HELD : Field := { blk := 0x29, page := 0, off := 0x128, lo := 6, len := 9, acc := .ro }

/-- R355. -/
def QP_SUBSCRIBED : Field := { blk := 0x29, page := 0, off := 0x128, lo := 15, len := 1, acc := .ro }

/-- R355. -/
def QP_READS_OUT : Field := { blk := 0x29, page := 0, off := 0x128, lo := 16, len := 5, acc := .ro }

/-- R355. -/
def QP_COMMANDS : Field := { blk := 0x29, page := 0, off := 0x130, lo := 0, len := 64, acc := .ro }

/-- R355. -/
def QP_COMPLETIONS : Field := { blk := 0x29, page := 0, off := 0x138, lo := 0, len := 64, acc := .ro }

/-- R355. -/
def QP_RETRANSMITS : Field := { blk := 0x29, page := 0, off := 0x140, lo := 0, len := 32, acc := .rc }

/-- R355. -/
def QP_RNR_NAKS_SENT : Field := { blk := 0x29, page := 0, off := 0x140, lo := 32, len := 32, acc := .rc }

/-- R355. -/
def QP_RATE_MBPS : Field := { blk := 0x29, page := 0, off := 0x148, lo := 0, len := 32, acc := .ro }

/-- R355. -/
def QP_CNPS : Field := { blk := 0x29, page := 0, off := 0x148, lo := 32, len := 32, acc := .rc }

/-- R355. -/
def QP_CLOSE : Field := { blk := 0x29, page := 0, off := 0x150, lo := 0, len := 1, acc := .wo }

/-- R355. -/
def QP_CONNECT_STAMP : Field := { blk := 0x29, page := 0, off := 0x158, lo := 0, len := 64, acc := .ro }

/-- R356. -/
def SEMA_INDEX : Field := { blk := 0x02, page := 0, off := 0x100, lo := 0, len := 8, acc := .wo }

/-- R356. -/
def SEMA_OP : Field := { blk := 0x02, page := 0, off := 0x100, lo := 8, len := 2, acc := .wo, legal := some (0, 2, 1) }

/-- R356. -/
def SEMA_LEASE_MS : Field := { blk := 0x02, page := 0, off := 0x100, lo := 16, len := 16, acc := .wo }

/-- R356. -/
def SEMA_BREAKS : Field := { blk := 0x02, page := 0, off := 0x108, lo := 0, len := 32, acc := .rc }

/-- R356. -/
def SEMA_EXPIRIES : Field := { blk := 0x02, page := 0, off := 0x108, lo := 32, len := 32, acc := .rc }

/-- R356. -/
def SEMA_LAST_BREAK_STAMP : Field := { blk := 0x02, page := 0, off := 0x110, lo := 0, len := 64, acc := .ro }

/-- R356. -/
def SEMA_BREAK_INDEX : Field := { blk := 0x02, page := 0, off := 0x118, lo := 0, len := 8, acc := .ro }

/-- R356. -/
def SEMA_OLD_HOLDER : Field := { blk := 0x02, page := 0, off := 0x118, lo := 8, len := 3, acc := .ro }

/-- R356. -/
def SEMA_OLD_SOURCE : Field := { blk := 0x02, page := 0, off := 0x118, lo := 16, len := 16, acc := .ro }

/-- R356. -/
def SEMA_BREAK_CAUSE : Field := { blk := 0x02, page := 0, off := 0x118, lo := 32, len := 3, acc := .ro }

/-- R356. -/
def SEMA_HELD_0 : Field := { blk := 0x02, page := 0, off := 0x400, lo := 0, len := 1, acc := .ro, stride := 8, count := 128 }

/-- R356. -/
def SEMA_HELD_1 : Field := { blk := 0x02, page := 0, off := 0x400, lo := 32, len := 1, acc := .ro, stride := 8, count := 128 }

/-- R356. -/
def SEMA_HOLDER_0 : Field := { blk := 0x02, page := 0, off := 0x400, lo := 1, len := 3, acc := .ro, stride := 8, count := 128 }

/-- R356. -/
def SEMA_HOLDER_1 : Field := { blk := 0x02, page := 0, off := 0x400, lo := 33, len := 3, acc := .ro, stride := 8, count := 128 }

/-- R356. -/
def SEMA_SOURCE_0 : Field := { blk := 0x02, page := 0, off := 0x400, lo := 4, len := 16, acc := .ro, stride := 8, count := 128 }

/-- R356. -/
def SEMA_SOURCE_1 : Field := { blk := 0x02, page := 0, off := 0x400, lo := 36, len := 16, acc := .ro, stride := 8, count := 128 }

/-- R356. -/
def SEMA_WAITERS_0 : Field := { blk := 0x02, page := 0, off := 0x400, lo := 20, len := 5, acc := .ro, stride := 8, count := 128 }

/-- R356. -/
def SEMA_WAITERS_1 : Field := { blk := 0x02, page := 0, off := 0x400, lo := 52, len := 5, acc := .ro, stride := 8, count := 128 }

/-- R356. -/
def SEMA_GRANT_STAMP : Field := { blk := 0x02, page := 0, off := 0x800, lo := 0, len := 64, acc := .ro, stride := 8, count := 256 }

/-- R392. -/
def BORSAN_LANES : Field := { blk := 0x30, page := 0, off := 0x010, lo := 0, len := 4, acc := .ro, init := 9, keep := .warm }

/-- R392. -/
def BORSAN_MIN_LANES : Field := { blk := 0x30, page := 0, off := 0x010, lo := 4, len := 4, acc := .ro, init := 4, keep := .warm }

/-- R392. -/
def BORSAN_LINK : Field := { blk := 0x30, page := 0, off := 0x028, lo := 32, len := 2, acc := .ro }

/-- R392. -/
def BORSAN_FIBRE_REVERSED : Field := { blk := 0x30, page := 0, off := 0x028, lo := 34, len := 1, acc := .ro }

/-- R392. -/
def BORSAN_DETOURING : Field := { blk := 0x30, page := 0, off := 0x028, lo := 35, len := 1, acc := .ro }

/-- R392. -/
def BORSAN_RESEND_WAIT : Field := { blk := 0x30, page := 0, off := 0x028, lo := 36, len := 1, acc := .ro }

/-- R392. -/
def BORSAN_LINK_EN : Field := { blk := 0x30, page := 0, off := 0x100, lo := 0, len := 1, acc := .rw, init := 1, keep := .warm }

/-- R392. -/
def BORSAN_FRAMES_TX : Field := { blk := 0x30, page := 0, off := 0x108, lo := 0, len := 64, acc := .ro }

/-- R392. -/
def BORSAN_FRAMES_RX : Field := { blk := 0x30, page := 0, off := 0x110, lo := 0, len := 64, acc := .ro }

/-- R392. -/
def BORSAN_CRC_ERRORS : Field := { blk := 0x30, page := 0, off := 0x118, lo := 0, len := 32, acc := .rc }

/-- R392. -/
def BORSAN_RETRIES : Field := { blk := 0x30, page := 0, off := 0x118, lo := 32, len := 32, acc := .rc }

/-- R392. -/
def BORSAN_DETOURED : Field := { blk := 0x30, page := 0, off := 0x120, lo := 0, len := 32, acc := .rc }

/-- R392. -/
def BORSAN_UNROUTABLE : Field := { blk := 0x30, page := 0, off := 0x120, lo := 32, len := 32, acc := .rc }

/-- R392. -/
def BORSAN_TRANSIT_REDIRECTS : Field := { blk := 0x30, page := 0, off := 0x128, lo := 0, len := 32, acc := .rc }

/-- R392. -/
def BORSAN_RESENT : Field := { blk := 0x30, page := 0, off := 0x128, lo := 32, len := 32, acc := .rc }

/-- R392. -/
def BORSAN_LINK_LAT_PS : Field := { blk := 0x30, page := 0, off := 0x130, lo := 0, len := 32, acc := .ro }

/-- R392. -/
def BORSAN_TIME_OFFSET_PS : Field := { blk := 0x30, page := 0, off := 0x138, lo := 0, len := 64, acc := .ro }

/-- R392. -/
def BORSAN_LAST_DOWN_STAMP : Field := { blk := 0x30, page := 0, off := 0x140, lo := 0, len := 64, acc := .ro }

/-- R392. -/
def BORSAN_EP_INDEX : Field := { blk := 0x30, page := 0, off := 0x148, lo := 0, len := 12, acc := .rw, keep := .warm }

/-- R392. -/
def BORSAN_EP_DATA : Field := { blk := 0x30, page := 0, off := 0x150, lo := 0, len := 64, acc := .rw, only := .oasis, keep := .warm }

/-- R393. -/
def BORSAN1_LANE_ENABLE : Field := { blk := 0x30, page := 1, off := 0x100, lo := 0, len := 9, acc := .rw, init := 0x1FF, keep := .warm }

/-- R393. -/
def BORSAN1_LANE_GOOD : Field := { blk := 0x30, page := 1, off := 0x108, lo := 0, len := 9, acc := .ro }

/-- R393. -/
def BORSAN1_LANE_ACTIVE : Field := { blk := 0x30, page := 1, off := 0x108, lo := 9, len := 9, acc := .ro }

/-- R393. -/
def BORSAN1_ACTIVE_COUNT : Field := { blk := 0x30, page := 1, off := 0x108, lo := 18, len := 4, acc := .ro }

/-- R393. -/
def BORSAN1_SPARE_LANE : Field := { blk := 0x30, page := 1, off := 0x108, lo := 22, len := 4, acc := .ro, init := 0xF }

/-- R393. -/
def BORSAN1_TX_ACTIVE_COUNT : Field := { blk := 0x30, page := 1, off := 0x108, lo := 26, len := 4, acc := .ro }

/-- R393. -/
def BORSAN1_FEC_CORRECTED : Field := { blk := 0x30, page := 1, off := 0x110, lo := 0, len := 32, acc := .rc, stride := 8, count := 9 }

/-- R393. -/
def BORSAN1_FEC_UNCORRECTED : Field := { blk := 0x30, page := 1, off := 0x110, lo := 32, len := 16, acc := .rc, stride := 8, count := 9 }

/-- R393. -/
def BORSAN1_RX_POWER : Field := { blk := 0x30, page := 1, off := 0x110, lo := 48, len := 8, acc := .ro, stride := 8, count := 9 }

/-- R393. -/
def BORSAN1_RX_POSITION : Field := { blk := 0x30, page := 1, off := 0x110, lo := 56, len := 4, acc := .ro, src := .index, stride := 8, count := 9 }

/-- R393. -/
def BORSAN1_TX_LIGHT_IN : Field := { blk := 0x30, page := 1, off := 0x110, lo := 60, len := 1, acc := .ro, stride := 8, count := 9 }

/-- R393. -/
def BORSAN1_LAST_LANE_STAMP : Field := { blk := 0x30, page := 1, off := 0x158, lo := 0, len := 64, acc := .ro }

/-- R394. -/
def TORUS_ROUTE_VER : Field := { blk := 0x31, page := 0, off := 0x100, lo := 0, len := 8, acc := .ro }

/-- R394. -/
def TORUS_ACTIVE_BANK : Field := { blk := 0x31, page := 0, off := 0x100, lo := 8, len := 1, acc := .ro }

/-- R394. -/
def TORUS_SWITCH_STAMP : Field := { blk := 0x31, page := 0, off := 0x108, lo := 0, len := 64, acc := .ro }

/-- R394. -/
def TORUS_ROUTE_SETTLE_US : Field := { blk := 0x31, page := 0, off := 0x110, lo := 0, len := 32, acc := .ro }

/-- R394. -/
def TORUS_ROUTE_HOLD_US : Field := { blk := 0x31, page := 0, off := 0x110, lo := 32, len := 32, acc := .ro }

/-- R394. -/
def TORUS_ROUTE_INDEX : Field := { blk := 0x31, page := 0, off := 0x118, lo := 0, len := 15, acc := .rw, keep := .warm }

/-- R394. -/
def TORUS_ROUTE_BANK : Field := { blk := 0x31, page := 0, off := 0x118, lo := 15, len := 1, acc := .rw, keep := .warm }

/-- R394. -/
def TORUS_ROUTE_ENTRY : Field := { blk := 0x31, page := 0, off := 0x120, lo := 0, len := 7, acc := .ro }

/-- R394. -/
def TORUS_ROUTE_HOPS : Field := { blk := 0x31, page := 0, off := 0x120, lo := 8, len := 6, acc := .ro }

/-- R394. -/
def TORUS_LINKS_DOWN : Field := { blk := 0x31, page := 0, off := 0x128, lo := 0, len := 32, acc := .ro }

/-- R394. -/
def TORUS_UNREACHABLE_COUNT : Field := { blk := 0x31, page := 0, off := 0x128, lo := 32, len := 32, acc := .ro }

/-- R394. -/
def TORUS_LAST_LSN_STAMP : Field := { blk := 0x31, page := 0, off := 0x130, lo := 0, len := 64, acc := .ro }

/-- R395. -/
def TORUS1_SIZE_POSITION : Field := { blk := 0x31, page := 1, off := 0x100, lo := 0, len := 30, acc := .ro }

/-- R395. -/
def TORUS1_PLAN_ID : Field := { blk := 0x31, page := 1, off := 0x108, lo := 0, len := 64, acc := .ro }

/-- R395. -/
def TORUS1_DSTATE : Field := { blk := 0x31, page := 1, off := 0x110, lo := 0, len := 3, acc := .ro, stride := 8, count := 6 }

/-- R395. -/
def TORUS1_CLASS : Field := { blk := 0x31, page := 1, off := 0x110, lo := 3, len := 4, acc := .ro, stride := 8, count := 6 }

/-- R395. -/
def TORUS1_IDLE : Field := { blk := 0x31, page := 1, off := 0x110, lo := 7, len := 1, acc := .ro, stride := 8, count := 6 }

/-- R395. -/
def TORUS1_PEER_SERIAL : Field := { blk := 0x31, page := 1, off := 0x140, lo := 0, len := 64, acc := .ro, stride := 8, count := 6 }

/-- R395. -/
def TORUS1_EXPECTED : Field := { blk := 0x31, page := 1, off := 0x170, lo := 0, len := 64, acc := .ro, stride := 8, count := 6 }

/-- R395. -/
def TORUS1_TIME_PARENT : Field := { blk := 0x31, page := 1, off := 0x1A0, lo := 0, len := 15, acc := .ro }

/-- R395. -/
def TORUS1_ROOT_HOPS : Field := { blk := 0x31, page := 1, off := 0x1A0, lo := 15, len := 7, acc := .ro }

/-- R395. -/
def TORUS1_TIME_BOUND_PS : Field := { blk := 0x31, page := 1, off := 0x1A0, lo := 32, len := 32, acc := .ro }

/-- R395. -/
def TORUS1_AGREE_TIMEOUT_MS : Field := { blk := 0x31, page := 1, off := 0x1A8, lo := 0, len := 16, acc := .rw, init := 0x1388, legal := some (100, 60000, 1), keep := .warm }

/-- R396. -/
def TORUS2_TRANSPORT_FAILS : Field := { blk := 0x31, page := 2, off := 0xB00, lo := 0, len := 32, acc := .rc }

/-- R396. -/
def TORUS2_ARITH_MISMATCHES : Field := { blk := 0x31, page := 2, off := 0xB00, lo := 32, len := 32, acc := .rc }

/-- R396. -/
def TORUS2_HOLLOW_CHUNKS : Field := { blk := 0x31, page := 2, off := 0xB08, lo := 0, len := 32, acc := .rc }

/-- R396. -/
def TORUS2_TIMEOUTS : Field := { blk := 0x31, page := 2, off := 0xB08, lo := 32, len := 32, acc := .rc }

/-- R396. -/
def TORUS2_OVERFLOWS : Field := { blk := 0x31, page := 2, off := 0xB10, lo := 0, len := 32, acc := .rc }

/-- R396. -/
def TORUS2_EXACT_SHIFTS : Field := { blk := 0x31, page := 2, off := 0xB10, lo := 32, len := 32, acc := .rc }

/-- R396. -/
def TORUS2_LAST_MISMATCH_STAMP : Field := { blk := 0x31, page := 2, off := 0xB18, lo := 0, len := 64, acc := .ro }

/-- R396. -/
def TORUS2_MISMATCH_ID : Field := { blk := 0x31, page := 2, off := 0xB20, lo := 0, len := 6, acc := .ro }

/-- R396. -/
def TORUS2_MISMATCH_HOP : Field := { blk := 0x31, page := 2, off := 0xB20, lo := 6, len := 8, acc := .ro }

/-- R396. -/
def TORUS2_MISMATCH_FROM : Field := { blk := 0x31, page := 2, off := 0xB20, lo := 14, len := 15, acc := .ro }

/-- R396. -/
def TORUS2_COLL_TIMEOUT_US : Field := { blk := 0x31, page := 2, off := 0xB28, lo := 0, len := 32, acc := .rw, init := 0x2710, legal := some (100, 1000000, 1), keep := .warm }

/-- R428. -/
def KEYS_CERT_SLOTS : Field := { blk := 0x04, page := 0, off := 0x010, lo := 0, len := 4, acc := .ro, init := 2, keep := .warm }

/-- R428. -/
def KEYS_MEAS_INDICES : Field := { blk := 0x04, page := 0, off := 0x010, lo := 4, len := 8, acc := .ro, init := 8, keep := .warm }

/-- R428. -/
def KEYS_IDENTITY_READY : Field := { blk := 0x04, page := 0, off := 0x028, lo := 32, len := 1, acc := .ro, keep := .warm }

/-- R428. -/
def KEYS_TRIAL_BOOT : Field := { blk := 0x04, page := 0, off := 0x028, lo := 33, len := 1, acc := .ro, keep := .warm }

/-- R428. -/
def KEYS_BOOT_SLOT : Field := { blk := 0x04, page := 0, off := 0x028, lo := 34, len := 1, acc := .ro, keep := .warm }

/-- R428. -/
def KEYS_DEVID_DIGEST : Field := { blk := 0x04, page := 0, off := 0x100, lo := 0, len := 64, acc := .ro, stride := 8, count := 6, keep := .warm }

/-- R428. -/
def KEYS_WRAP_DIGEST : Field := { blk := 0x04, page := 0, off := 0x130, lo := 0, len := 64, acc := .ro, stride := 8, count := 6, keep := .warm }

/-- R428. -/
def KEYS_ALIAS_DIGEST : Field := { blk := 0x04, page := 0, off := 0x160, lo := 0, len := 64, acc := .ro, stride := 8, count := 6, keep := .warm }

/-- R428. -/
def KEYS_SECURITY_FLOOR : Field := { blk := 0x04, page := 0, off := 0x190, lo := 0, len := 32, acc := .ro, keep := .journal }

/-- R428. -/
def KEYS_IMAGE_VERSION : Field := { blk := 0x04, page := 0, off := 0x190, lo := 32, len := 32, acc := .ro, keep := .warm }

/-- R428. -/
def KEYS_CHALLENGES : Field := { blk := 0x04, page := 0, off := 0x198, lo := 0, len := 32, acc := .rc, keep := .warm }

/-- R428. -/
def KEYS_MEAS_REQUESTS : Field := { blk := 0x04, page := 0, off := 0x198, lo := 32, len := 32, acc := .rc, keep := .warm }

/-- R429. -/
def KEYS1_IMPORTS : Field := { blk := 0x04, page := 1, off := 0x100, lo := 0, len := 32, acc := .rc, keep := .warm }

/-- R429. -/
def KEYS1_UNWRAP_FAILS : Field := { blk := 0x04, page := 1, off := 0x100, lo := 32, len := 32, acc := .rc, keep := .warm }

/-- R429. -/
def KEYS1_KEY_ID : Field := { blk := 0x04, page := 1, off := 0x200, lo := 0, len := 64, acc := .ro, stride := 16, count := 64, keep := .warm }

/-- R429. -/
def KEYS1_LOADED : Field := { blk := 0x04, page := 1, off := 0x208, lo := 0, len := 1, acc := .ro, stride := 16, count := 64, keep := .warm }

/-- R429. -/
def KEYS1_REFS : Field := { blk := 0x04, page := 1, off := 0x208, lo := 1, len := 7, acc := .ro, stride := 16, count := 64, keep := .warm }

/-- R430. -/
def CARAVAN_SHARD_TIMEOUT_MS : Field := { blk := 0x32, page := 0, off := 0x100, lo := 0, len := 16, acc := .rw, init := 0x7D0, legal := some (100, 60000, 1), keep := .warm }

/-- R430. -/
def CARAVAN_SHARDS_IN : Field := { blk := 0x32, page := 0, off := 0x108, lo := 0, len := 64, acc := .ro }

/-- R430. -/
def CARAVAN_SHARDS_FORWARDED : Field := { blk := 0x32, page := 0, off := 0x110, lo := 0, len := 64, acc := .ro }

/-- R430. -/
def CARAVAN_RETRIES : Field := { blk := 0x32, page := 0, off := 0x118, lo := 0, len := 32, acc := .rc }

/-- R430. -/
def CARAVAN_HOST_REQUESTS : Field := { blk := 0x32, page := 0, off := 0x118, lo := 32, len := 32, acc := .rc }

/-- R430. -/
def CARAVAN_DIGEST_FAILS : Field := { blk := 0x32, page := 0, off := 0x120, lo := 0, len := 32, acc := .rc }

/-- R430. -/
def CARAVAN_CORE_IMAGE_FAILS : Field := { blk := 0x32, page := 0, off := 0x120, lo := 32, len := 32, acc := .rc }

/-- R430. -/
def CARAVAN_LAST_NEED_STAMP : Field := { blk := 0x32, page := 0, off := 0x128, lo := 0, len := 64, acc := .ro }

/-- R430. -/
def CARAVAN_NEED_VARIANT : Field := { blk := 0x32, page := 0, off := 0x130, lo := 0, len := 6, acc := .ro }

/-- R430. -/
def CARAVAN_NEED_SHARD : Field := { blk := 0x32, page := 0, off := 0x130, lo := 6, len := 17, acc := .ro }

/-- R430. -/
def CARAVAN_OWN_EXPECTED : Field := { blk := 0x32, page := 0, off := 0x200, lo := 0, len := 18, acc := .ro, stride := 8, count := 64, keep := .power }

/-- R430. -/
def CARAVAN_OWN_HELD : Field := { blk := 0x32, page := 0, off := 0x200, lo := 18, len := 18, acc := .ro, stride := 8, count := 64, keep := .power }

/-- R430. -/
def CARAVAN_TRANSIT_OUT : Field := { blk := 0x32, page := 0, off := 0x200, lo := 36, len := 5, acc := .ro, stride := 8, count := 64, keep := .power }

/-- R430. -/
def CARAVAN_COMPLETE : Field := { blk := 0x32, page := 0, off := 0x200, lo := 41, len := 1, acc := .ro, stride := 8, count := 64, keep := .power }

/-- R430. -/
def CARAVAN_NEEDED : Field := { blk := 0x32, page := 0, off := 0x200, lo := 42, len := 1, acc := .ro, stride := 8, count := 64, keep := .power }

/-- R457. -/
def PCORE_KIND : Field := { blk := 0x16, page := 0, off := 0x010, lo := 0, len := 2, acc := .ro, src := .coreKind, keep := .warm }

/-- R457. -/
def PCORE_CARRYING : Field := { blk := 0x16, page := 0, off := 0x028, lo := 32, len := 1, acc := .ro, src := .carrying, keep := .journal }

/-- R457. -/
def PCORE_LOGICAL : Field := { blk := 0x16, page := 0, off := 0x028, lo := 33, len := 6, acc := .ro, src := .logical, keep := .journal }

/-- R457. -/
def PCORE_FENCED : Field := { blk := 0x16, page := 0, off := 0x028, lo := 39, len := 1, acc := .ro, keep := .journal }

/-- R458. -/
def PCORE_LEVEL : Field := { blk := 0x16, page := 0, off := 0x100, lo := 0, len := 3, acc := .ro, keep := .journal }

/-- R458. -/
def PCORE_VRAISE_STEPS : Field := { blk := 0x16, page := 0, off := 0x100, lo := 3, len := 4, acc := .ro, keep := .journal }

/-- R458. -/
def PCORE_EVIDENCE_COUNT : Field := { blk := 0x16, page := 0, off := 0x100, lo := 16, len := 16, acc := .ro, keep := .warm }

/-- R458. -/
def PCORE_LAST_EVIDENCE_STAMP : Field := { blk := 0x16, page := 0, off := 0x108, lo := 0, len := 64, acc := .ro, keep := .warm }

/-- R458. -/
def PCORE_LAST_EVIDENCE_KIND : Field := { blk := 0x16, page := 0, off := 0x110, lo := 0, len := 8, acc := .ro, keep := .warm }

/-- R458. -/
def PCORE_LAST_EVIDENCE_ENGINE : Field := { blk := 0x16, page := 0, off := 0x110, lo := 8, len := 4, acc := .ro, keep := .warm }

/-- R458. -/
def PCORE_VOLT_STEPS_PER_EVENT : Field := { blk := 0x16, page := 0, off := 0x118, lo := 0, len := 4, acc := .rw, init := 2, legal := some (1, 8, 1), keep := .warm }

/-- R458. -/
def PCORE_WATCH_FRACTION : Field := { blk := 0x16, page := 0, off := 0x118, lo := 4, len := 2, acc := .rw, init := 2, keep := .warm }

/-- R458. -/
def PCORE_ADVANCE_HOLD_MS : Field := { blk := 0x16, page := 0, off := 0x118, lo := 6, len := 16, acc := .rw, init := 0x64, legal := some (1, 65535, 1), keep := .warm }

/-- R458. -/
def PCORE_QUIET_DAYS : Field := { blk := 0x16, page := 0, off := 0x118, lo := 22, len := 8, acc := .rw, init := 7, legal := some (1, 255, 1), keep := .warm }

/-- R458. -/
def PCORE_SRAM_CE : Field := { blk := 0x16, page := 0, off := 0x120, lo := 0, len := 32, acc := .rc, keep := .warm }

/-- R458. -/
def PCORE_SRAM_UE : Field := { blk := 0x16, page := 0, off := 0x120, lo := 32, len := 32, acc := .rc, keep := .warm }

/-- R458. -/
def PCORE_LAST_SRAM_UE_ADDR : Field := { blk := 0x16, page := 0, off := 0x128, lo := 0, len := 64, acc := .ro, keep := .warm }

/-- R458. -/
def PCORE_FENCE_STAMP : Field := { blk := 0x16, page := 0, off := 0x130, lo := 0, len := 64, acc := .ro, keep := .warm }

/-- R458. -/
def PCORE_LIVE_STAMP : Field := { blk := 0x16, page := 0, off := 0x138, lo := 0, len := 64, acc := .ro, keep := .warm }

/-- R458. -/
def PCORE_REPLACED_BY : Field := { blk := 0x16, page := 0, off := 0x140, lo := 0, len := 6, acc := .ro, keep := .warm }

/-- R458. -/
def PCORE_FENCE_LIST_LEN : Field := { blk := 0x16, page := 0, off := 0x140, lo := 32, len := 11, acc := .ro, keep := .warm }

/-- R459. -/
def PCORE1_TEST_KIND : Field := { blk := 0x16, page := 1, off := 0x100, lo := 0, len := 2, acc := .ro, keep := .warm }

/-- R459. -/
def PCORE1_PASSED : Field := { blk := 0x16, page := 1, off := 0x100, lo := 2, len := 1, acc := .ro, keep := .warm }

/-- R459. -/
def PCORE1_ENGINE_FAIL : Field := { blk := 0x16, page := 1, off := 0x100, lo := 3, len := 16, acc := .ro, keep := .warm }

/-- R459. -/
def PCORE1_SRAM_FAIL : Field := { blk := 0x16, page := 1, off := 0x100, lo := 19, len := 1, acc := .ro, keep := .warm }

/-- R459. -/
def PCORE1_LOGIC_FAIL : Field := { blk := 0x16, page := 1, off := 0x100, lo := 20, len := 1, acc := .ro, keep := .warm }

/-- R459. -/
def PCORE1_NI_FAIL : Field := { blk := 0x16, page := 1, off := 0x100, lo := 21, len := 1, acc := .ro, keep := .warm }

/-- R459. -/
def PCORE1_TEST_STAMP : Field := { blk := 0x16, page := 1, off := 0x108, lo := 0, len := 64, acc := .ro, keep := .warm }

/-- R459. -/
def PCORE1_SIGNATURE : Field := { blk := 0x16, page := 1, off := 0x110, lo := 0, len := 64, acc := .ro, keep := .warm }

/-- R460. -/
def MCORE1_REEXEC_FRACTION : Field := { blk := 0x10, page := 1, off := 0x128, lo := 0, len := 2, acc := .rw, keep := .warm }

/-- R460. -/
def MCORE1_REEXEC_PATH : Field := { blk := 0x10, page := 1, off := 0x128, lo := 2, len := 1, acc := .rw, keep := .warm }

/-- R460. -/
def MCORE1_TOL_MULT : Field := { blk := 0x10, page := 1, off := 0x128, lo := 3, len := 8, acc := .rw, init := 0x20, legal := some (1, 255, 1), keep := .warm }

/-- R460. -/
def MCORE1_REEXEC_SALT : Field := { blk := 0x10, page := 1, off := 0x128, lo := 11, len := 16, acc := .rw, keep := .warm }

/-- R460. -/
def MCORE1_EFFECTIVE_FRACTION : Field := { blk := 0x10, page := 1, off := 0x128, lo := 27, len := 2, acc := .ro, keep := .warm }

/-- R460. -/
def MCORE1_TWIN_MAP : Field := { blk := 0x10, page := 1, off := 0x130, lo := 0, len := 64, acc := .rw, init := 0xFEDCBA9876543210, keep := .warm }

/-- R460. -/
def MCORE1_REEXEC_TILES : Field := { blk := 0x10, page := 1, off := 0x138, lo := 0, len := 32, acc := .rc, keep := .warm }

/-- R460. -/
def MCORE1_REEXEC_MISMATCHES : Field := { blk := 0x10, page := 1, off := 0x138, lo := 32, len := 32, acc := .rc, keep := .warm }

/-- R460. -/
def MCORE1_REEXEC_SKIPPED : Field := { blk := 0x10, page := 1, off := 0x140, lo := 0, len := 32, acc := .rc, keep := .warm }

/-- R460. -/
def MCORE1_LAST_MISMATCH_STAMP : Field := { blk := 0x10, page := 1, off := 0x148, lo := 0, len := 64, acc := .ro, keep := .warm }

/-- R460. -/
def MCORE1_MISMATCH_ENGINE : Field := { blk := 0x10, page := 1, off := 0x150, lo := 0, len := 4, acc := .ro, keep := .warm }

/-- R460. -/
def MCORE1_MISMATCH_CHANNEL : Field := { blk := 0x10, page := 1, off := 0x150, lo := 4, len := 8, acc := .ro, keep := .warm }

/-- R460. -/
def MCORE1_MISMATCH_PATH : Field := { blk := 0x10, page := 1, off := 0x150, lo := 12, len := 1, acc := .ro, keep := .warm }

/-- R480. -/
def CLU_LAST_START_STAMP : Field := { blk := 0x0A, page := 0, off := 0x180, lo := 0, len := 64, acc := .ro, keep := .warm }

/-- R480. -/
def PART_LAST_START_STAMP : Field := { blk := 0x09, page := 0, off := 0x180, lo := 0, len := 64, acc := .ro, keep := .warm }

/-- R480. -/
def DIE_LAST_START_STAMP : Field := { blk := 0x08, page := 0, off := 0x180, lo := 0, len := 64, acc := .ro, keep := .warm }

/-- R480. -/
def CLU_LAST_CUT_STAMP : Field := { blk := 0x0A, page := 0, off := 0x188, lo := 0, len := 64, acc := .ro, keep := .warm }

/-- R480. -/
def PART_LAST_CUT_STAMP : Field := { blk := 0x09, page := 0, off := 0x188, lo := 0, len := 64, acc := .ro, keep := .warm }

/-- R480. -/
def DIE_LAST_CUT_STAMP : Field := { blk := 0x08, page := 0, off := 0x188, lo := 0, len := 64, acc := .ro, keep := .warm }

/-- R480. -/
def CLU_LAST_RELEASE_STAMP : Field := { blk := 0x0A, page := 0, off := 0x190, lo := 0, len := 64, acc := .ro, keep := .warm }

/-- R480. -/
def PART_LAST_RELEASE_STAMP : Field := { blk := 0x09, page := 0, off := 0x190, lo := 0, len := 64, acc := .ro, keep := .warm }

/-- R480. -/
def DIE_LAST_RELEASE_STAMP : Field := { blk := 0x08, page := 0, off := 0x190, lo := 0, len := 64, acc := .ro, keep := .warm }

/-- R480. -/
def CLU_MODE : Field := { blk := 0x0A, page := 0, off := 0x198, lo := 0, len := 1, acc := .ro, keep := .warm }

/-- R480. -/
def PART_MODE : Field := { blk := 0x09, page := 0, off := 0x198, lo := 0, len := 1, acc := .ro, keep := .warm }

/-- R480. -/
def DIE_MODE : Field := { blk := 0x08, page := 0, off := 0x198, lo := 0, len := 1, acc := .ro, keep := .warm }

/-- R480. -/
def CLU_CAUSE : Field := { blk := 0x0A, page := 0, off := 0x198, lo := 1, len := 3, acc := .ro, keep := .warm }

/-- R480. -/
def PART_CAUSE : Field := { blk := 0x09, page := 0, off := 0x198, lo := 1, len := 3, acc := .ro, keep := .warm }

/-- R480. -/
def DIE_CAUSE : Field := { blk := 0x08, page := 0, off := 0x198, lo := 1, len := 3, acc := .ro, keep := .warm }

/-- R480. -/
def DIE_COLD : Field := { blk := 0x08, page := 0, off := 0x198, lo := 4, len := 1, acc := .ro, keep := .warm }

/-- R480. -/
def CLU_DRAIN_US : Field := { blk := 0x0A, page := 0, off := 0x198, lo := 5, len := 6, acc := .ro, keep := .warm }

/-- R480. -/
def PART_DRAIN_US : Field := { blk := 0x09, page := 0, off := 0x198, lo := 5, len := 6, acc := .ro, keep := .warm }

/-- R480. -/
def DIE_DRAIN_US : Field := { blk := 0x08, page := 0, off := 0x198, lo := 5, len := 6, acc := .ro, keep := .warm }

/-- R480. -/
def CLU_LEFTOVER : Field := { blk := 0x0A, page := 0, off := 0x198, lo := 16, len := 16, acc := .ro, keep := .warm }

/-- R480. -/
def PART_LEFTOVER : Field := { blk := 0x09, page := 0, off := 0x198, lo := 16, len := 16, acc := .ro, keep := .warm }

/-- R480. -/
def DIE_LEFTOVER : Field := { blk := 0x08, page := 0, off := 0x198, lo := 16, len := 16, acc := .ro, keep := .warm }

/-- R480. -/
def CLU_INTERRUPTED : Field := { blk := 0x0A, page := 0, off := 0x198, lo := 32, len := 16, acc := .ro, keep := .warm }

/-- R480. -/
def PART_INTERRUPTED : Field := { blk := 0x09, page := 0, off := 0x198, lo := 32, len := 16, acc := .ro, keep := .warm }

/-- R480. -/
def DIE_INTERRUPTED : Field := { blk := 0x08, page := 0, off := 0x198, lo := 32, len := 16, acc := .ro, keep := .warm }

/-- R480. -/
def CLU_RSTATUS : Field := { blk := 0x0A, page := 0, off := 0x198, lo := 48, len := 8, acc := .ro, keep := .warm }

/-- R480. -/
def PART_RSTATUS : Field := { blk := 0x09, page := 0, off := 0x198, lo := 48, len := 8, acc := .ro, keep := .warm }

/-- R480. -/
def DIE_RSTATUS : Field := { blk := 0x08, page := 0, off := 0x198, lo := 48, len := 8, acc := .ro, keep := .warm }

/-- R481. -/
def DIE_STEP_LIMIT_US : Field := { blk := 0x08, page := 0, off := 0x100, lo := 0, len := 16, acc := .rw, init := 0x1388, legal := some (100, 65535, 1), keep := .warm }

/-- R481. -/
def DIE_NOBUF_LIMIT_MS : Field := { blk := 0x08, page := 0, off := 0x100, lo := 16, len := 16, acc := .rw, init := 0xA, legal := some (1, 65535, 1), keep := .warm }

/-- R481. -/
def DIE_HANG_REPEAT_S : Field := { blk := 0x08, page := 0, off := 0x100, lo := 32, len := 16, acc := .rw, init := 0x258, legal := some (1, 65535, 1), keep := .warm }

/-- R481. -/
def DIE_ESCALATE : Field := { blk := 0x08, page := 0, off := 0x100, lo := 48, len := 1, acc := .rw, init := 1, keep := .warm }

/-- R481. -/
def DIE_ANY_CUT_STAMP : Field := { blk := 0x08, page := 0, off := 0x108, lo := 0, len := 64, acc := .ro, keep := .warm }

/-- R481. -/
def DIE_ANY_SCOPE : Field := { blk := 0x08, page := 0, off := 0x110, lo := 0, len := 2, acc := .ro, keep := .warm }

/-- R481. -/
def DIE_ANY_TARGET : Field := { blk := 0x08, page := 0, off := 0x110, lo := 16, len := 16, acc := .ro, keep := .warm }

/-- R481. -/
def DIE_CORE_RESETS : Field := { blk := 0x08, page := 0, off := 0x118, lo := 0, len := 32, acc := .rc, keep := .warm }

/-- R481. -/
def DIE_CLUSTER_RESETS : Field := { blk := 0x08, page := 0, off := 0x118, lo := 32, len := 32, acc := .rc, keep := .warm }

/-- R481. -/
def DIE_PARTITION_RESETS : Field := { blk := 0x08, page := 0, off := 0x120, lo := 0, len := 32, acc := .rc, keep := .warm }

/-- R481. -/
def DIE_WARM_DIE_RESETS : Field := { blk := 0x08, page := 0, off := 0x120, lo := 32, len := 32, acc := .rc, keep := .warm }

/-- R481. -/
def DIE_HANGS : Field := { blk := 0x08, page := 0, off := 0x128, lo := 0, len := 32, acc := .rc, keep := .warm }

/-- R481. -/
def DIE_ESCALATIONS : Field := { blk := 0x08, page := 0, off := 0x128, lo := 32, len := 32, acc := .rc, keep := .warm }

/-- R481. -/
def DIE_NOBUF_GIVEUPS : Field := { blk := 0x08, page := 0, off := 0x130, lo := 0, len := 32, acc := .rc, keep := .warm }

/-- R481. -/
def DIE_GEN_WAITS : Field := { blk := 0x08, page := 0, off := 0x130, lo := 32, len := 32, acc := .rc, keep := .warm }

/-- R482. -/
def PART_RAIL_MV : Field := { blk := 0x09, page := 0, off := 0x100, lo := 0, len := 16, acc := .ro, src := .railMv, keep := .warm }

/-- R482. -/
def PART_RAISE_STEPS : Field := { blk := 0x09, page := 0, off := 0x100, lo := 16, len := 4, acc := .ro, keep := .warm }

/-- R482. -/
def PART_SLEWING : Field := { blk := 0x09, page := 0, off := 0x100, lo := 20, len := 1, acc := .ro, keep := .warm }

/-- R500. -/
def MOD1_STATE : Field := { blk := 0x00, page := 1, off := 0x100, lo := 0, len := 4, acc := .ro, keep := .warm }

/-- R500. -/
def MOD1_BOOT_KIND : Field := { blk := 0x00, page := 1, off := 0x100, lo := 4, len := 1, acc := .ro, keep := .warm }

/-- R500. -/
def MOD1_FAIL_CAUSE : Field := { blk := 0x00, page := 1, off := 0x100, lo := 5, len := 8, acc := .ro, keep := .warm }

/-- R500. -/
def MOD1_FAIL_DETAIL : Field := { blk := 0x00, page := 1, off := 0x100, lo := 16, len := 16, acc := .ro, keep := .warm }

/-- R500. -/
def MOD1_PHASE_STAMP : Field := { blk := 0x00, page := 1, off := 0x108, lo := 0, len := 64, acc := .ro, stride := 8, count := 8 }

/-- R500. -/
def MOD1_M_ABSENT : Field := { blk := 0x00, page := 1, off := 0x148, lo := 0, len := 11, acc := .ro, keep := .warm }

/-- R500. -/
def MOD1_V_ABSENT : Field := { blk := 0x00, page := 1, off := 0x148, lo := 11, len := 9, acc := .ro, keep := .warm }

/-- R500. -/
def MOD1_S_ABSENT : Field := { blk := 0x00, page := 1, off := 0x148, lo := 20, len := 7, acc := .ro, keep := .warm }

/-- R500. -/
def MOD1_BRINGUP_FENCES : Field := { blk := 0x00, page := 1, off := 0x150, lo := 0, len := 12, acc := .ro, keep := .warm }

/-- R500. -/
def MOD1_LEAVE_STAMP : Field := { blk := 0x00, page := 1, off := 0x158, lo := 0, len := 64, acc := .ro, keep := .warm }

/-- R501. -/
def VAULT_VAULT_FORMAT : Field := { blk := 0x03, page := 0, off := 0x100, lo := 0, len := 16, acc := .ro, init := 1, keep := .warm }

/-- R501. -/
def VAULT_VAULT_SEQ : Field := { blk := 0x03, page := 0, off := 0x100, lo := 16, len := 32, acc := .ro, init := 1, keep := .warm }

/-- R501. -/
def VAULT_VERIFY_STAMP : Field := { blk := 0x03, page := 0, off := 0x108, lo := 0, len := 64, acc := .ro, keep := .warm }

/-- R501. -/
def VAULT_VAULT_DIGEST : Field := { blk := 0x03, page := 0, off := 0x110, lo := 0, len := 64, acc := .ro, stride := 8, count := 6, keep := .warm }

/-- R501. -/
def VAULT_FIELD_SEQ : Field := { blk := 0x03, page := 0, off := 0x140, lo := 0, len := 24, acc := .ro, keep := .journal }

/-- R501. -/
def VAULT_FIELD_FENCES : Field := { blk := 0x03, page := 0, off := 0x140, lo := 24, len := 12, acc := .ro, keep := .journal }

/-- R502. -/
def VAULT1_LOGICAL_0 : Field := { blk := 0x03, page := 1, off := 0x100, lo := 0, len := 6, acc := .ro, src := (.vaultLogical 0), stride := 8, count := 256, keep := .warm }

/-- R502. -/
def VAULT1_LOGICAL_1 : Field := { blk := 0x03, page := 1, off := 0x100, lo := 8, len := 6, acc := .ro, src := (.vaultLogical 1), stride := 8, count := 256, keep := .warm }

/-- R502. -/
def VAULT1_LOGICAL_2 : Field := { blk := 0x03, page := 1, off := 0x100, lo := 16, len := 6, acc := .ro, src := (.vaultLogical 2), stride := 8, count := 256, keep := .warm }

/-- R502. -/
def VAULT1_LOGICAL_3 : Field := { blk := 0x03, page := 1, off := 0x100, lo := 24, len := 6, acc := .ro, src := (.vaultLogical 3), stride := 8, count := 256, keep := .warm }

/-- R502. -/
def VAULT1_LOGICAL_4 : Field := { blk := 0x03, page := 1, off := 0x100, lo := 32, len := 6, acc := .ro, src := (.vaultLogical 4), stride := 8, count := 256, keep := .warm }

/-- R502. -/
def VAULT1_LOGICAL_5 : Field := { blk := 0x03, page := 1, off := 0x100, lo := 40, len := 6, acc := .ro, src := (.vaultLogical 5), stride := 8, count := 256, keep := .warm }

/-- R502. -/
def VAULT1_LOGICAL_6 : Field := { blk := 0x03, page := 1, off := 0x100, lo := 48, len := 6, acc := .ro, src := (.vaultLogical 6), stride := 8, count := 256, keep := .warm }

/-- R502. -/
def VAULT1_LOGICAL_7 : Field := { blk := 0x03, page := 1, off := 0x100, lo := 56, len := 6, acc := .ro, src := (.vaultLogical 7), stride := 8, count := 256, keep := .warm }

/-- R502. -/
def VAULT1_CARRYING_0 : Field := { blk := 0x03, page := 1, off := 0x100, lo := 6, len := 1, acc := .ro, src := (.vaultCarrying 0), stride := 8, count := 256, keep := .warm }

/-- R502. -/
def VAULT1_CARRYING_1 : Field := { blk := 0x03, page := 1, off := 0x100, lo := 14, len := 1, acc := .ro, src := (.vaultCarrying 1), stride := 8, count := 256, keep := .warm }

/-- R502. -/
def VAULT1_CARRYING_2 : Field := { blk := 0x03, page := 1, off := 0x100, lo := 22, len := 1, acc := .ro, src := (.vaultCarrying 2), stride := 8, count := 256, keep := .warm }

/-- R502. -/
def VAULT1_CARRYING_3 : Field := { blk := 0x03, page := 1, off := 0x100, lo := 30, len := 1, acc := .ro, src := (.vaultCarrying 3), stride := 8, count := 256, keep := .warm }

/-- R502. -/
def VAULT1_CARRYING_4 : Field := { blk := 0x03, page := 1, off := 0x100, lo := 38, len := 1, acc := .ro, src := (.vaultCarrying 4), stride := 8, count := 256, keep := .warm }

/-- R502. -/
def VAULT1_CARRYING_5 : Field := { blk := 0x03, page := 1, off := 0x100, lo := 46, len := 1, acc := .ro, src := (.vaultCarrying 5), stride := 8, count := 256, keep := .warm }

/-- R502. -/
def VAULT1_CARRYING_6 : Field := { blk := 0x03, page := 1, off := 0x100, lo := 54, len := 1, acc := .ro, src := (.vaultCarrying 6), stride := 8, count := 256, keep := .warm }

/-- R502. -/
def VAULT1_CARRYING_7 : Field := { blk := 0x03, page := 1, off := 0x100, lo := 62, len := 1, acc := .ro, src := (.vaultCarrying 7), stride := 8, count := 256, keep := .warm }

/-- R502. -/
def VAULT1_FACTORY_FAIL_0 : Field := { blk := 0x03, page := 1, off := 0x100, lo := 7, len := 1, acc := .ro, stride := 8, count := 256, keep := .warm }

/-- R502. -/
def VAULT1_FACTORY_FAIL_1 : Field := { blk := 0x03, page := 1, off := 0x100, lo := 15, len := 1, acc := .ro, stride := 8, count := 256, keep := .warm }

/-- R502. -/
def VAULT1_FACTORY_FAIL_2 : Field := { blk := 0x03, page := 1, off := 0x100, lo := 23, len := 1, acc := .ro, stride := 8, count := 256, keep := .warm }

/-- R502. -/
def VAULT1_FACTORY_FAIL_3 : Field := { blk := 0x03, page := 1, off := 0x100, lo := 31, len := 1, acc := .ro, stride := 8, count := 256, keep := .warm }

/-- R502. -/
def VAULT1_FACTORY_FAIL_4 : Field := { blk := 0x03, page := 1, off := 0x100, lo := 39, len := 1, acc := .ro, stride := 8, count := 256, keep := .warm }

/-- R502. -/
def VAULT1_FACTORY_FAIL_5 : Field := { blk := 0x03, page := 1, off := 0x100, lo := 47, len := 1, acc := .ro, stride := 8, count := 256, keep := .warm }

/-- R502. -/
def VAULT1_FACTORY_FAIL_6 : Field := { blk := 0x03, page := 1, off := 0x100, lo := 55, len := 1, acc := .ro, stride := 8, count := 256, keep := .warm }

/-- R502. -/
def VAULT1_FACTORY_FAIL_7 : Field := { blk := 0x03, page := 1, off := 0x100, lo := 63, len := 1, acc := .ro, stride := 8, count := 256, keep := .warm }

/-- R526. -/
def OASIS_LOOP_LIMIT_MS : Field := { blk := 0x01, page := 0, off := 0x100, lo := 0, len := 16, acc := .rw, init := 0x14, legal := some (5, 1000, 1), keep := .warm }

/-- R526. -/
def OASIS_ROUND_LIMIT_MS : Field := { blk := 0x01, page := 0, off := 0x100, lo := 16, len := 16, acc := .rw, init := 0xA, legal := some (4, 1000, 1), keep := .warm }

/-- R526. -/
def OASIS_HB_MISS_LIMIT : Field := { blk := 0x01, page := 0, off := 0x100, lo := 32, len := 8, acc := .rw, init := 8, keep := .warm }

/-- R526. -/
def OASIS_OASIS_REPEAT_S : Field := { blk := 0x01, page := 0, off := 0x108, lo := 0, len := 32, acc := .rw, init := 0x258, legal := some (1, 86400, 1), keep := .warm }

/-- R526. -/
def OASIS_HOST_SILENT_MS : Field := { blk := 0x01, page := 0, off := 0x108, lo := 32, len := 32, acc := .rw, keep := .warm }

/-- R526. -/
def OASIS_HB_NONCE : Field := { blk := 0x01, page := 0, off := 0x110, lo := 0, len := 32, acc := .ro, keep := .warm }

/-- R526. -/
def OASIS_HB_ECHO : Field := { blk := 0x01, page := 0, off := 0x110, lo := 32, len := 32, acc := .ro, keep := .warm }

/-- R526. -/
def OASIS_HB_MISSES : Field := { blk := 0x01, page := 0, off := 0x118, lo := 0, len := 16, acc := .ro, keep := .power }

/-- R526. -/
def OASIS_OASIS_RESTARTS : Field := { blk := 0x01, page := 0, off := 0x118, lo := 16, len := 32, acc := .ro, keep := .power }

/-- R526. -/
def OASIS_LAST_RESTART_STAMP : Field := { blk := 0x01, page := 0, off := 0x120, lo := 0, len := 64, acc := .ro, keep := .power }

/-- R526. -/
def OASIS_LAST_RESTART_CAUSE : Field := { blk := 0x01, page := 0, off := 0x128, lo := 0, len := 2, acc := .ro, keep := .warm }

/-- R526. -/
def OASIS_LAST_HEARTBEAT_STAMP : Field := { blk := 0x01, page := 0, off := 0x130, lo := 0, len := 64, acc := .ro, keep := .power }

/-- R527. -/
def OASIS1_NEXT_SEQ : Field := { blk := 0x01, page := 1, off := 0x100, lo := 0, len := 32, acc := .ro, init := 1, keep := .power }

/-- R527. -/
def OASIS1_OLDEST_SEQ : Field := { blk := 0x01, page := 1, off := 0x100, lo := 32, len := 32, acc := .ro, init := 1, keep := .power }

/-- R527. -/
def OASIS1_LOST : Field := { blk := 0x01, page := 1, off := 0x108, lo := 0, len := 32, acc := .rc, keep := .power }

/-- R527. -/
def OASIS1_PERSISTED : Field := { blk := 0x01, page := 1, off := 0x108, lo := 32, len := 32, acc := .ro, keep := .power }

/-- R527. -/
def OASIS1_STAGING_HIGH : Field := { blk := 0x01, page := 1, off := 0x110, lo := 0, len := 13, acc := .rc, keep := .power }

/-- R527. -/
def OASIS1_POWER_ON : Field := { blk := 0x01, page := 1, off := 0x118, lo := 0, len := 12, acc := .ro, keep := .journal }

/-- R528. -/
def OASIS2_NOW : Field := { blk := 0x01, page := 2, off := 0x100, lo := 0, len := 64, acc := .ro, init := 1, src := .computed, keep := .warm }

/-- R528. -/
def OASIS2_SYNC_MODE : Field := { blk := 0x01, page := 2, off := 0x108, lo := 0, len := 2, acc := .rw, keep := .warm }

/-- R528. -/
def OASIS2_STEP_THRESHOLD_NS : Field := { blk := 0x01, page := 2, off := 0x110, lo := 0, len := 32, acc := .rw, init := 0xF4240, legal := some (1000, 1000000000, 1), keep := .warm }

/-- R528. -/
def OASIS2_RATE_PPB : Field := { blk := 0x01, page := 2, off := 0x118, lo := 0, len := 32, acc := .ro, keep := .warm }

/-- R528. -/
def OASIS2_OFFSET_NS : Field := { blk := 0x01, page := 2, off := 0x120, lo := 0, len := 64, acc := .ro, keep := .warm }

/-- R528. -/
def OASIS2_TIME_BOUND_NS : Field := { blk := 0x01, page := 2, off := 0x128, lo := 0, len := 32, acc := .ro, keep := .warm }

/-- R528. -/
def OASIS2_STEP_COUNT : Field := { blk := 0x01, page := 2, off := 0x128, lo := 32, len := 16, acc := .ro, keep := .warm }

/-- R528. -/
def OASIS2_LAST_STEP_OLD : Field := { blk := 0x01, page := 2, off := 0x130, lo := 0, len := 64, acc := .ro, keep := .warm }

/-- R528. -/
def OASIS2_LAST_STEP_NEW : Field := { blk := 0x01, page := 2, off := 0x138, lo := 0, len := 64, acc := .ro, keep := .warm }

/-- R528. -/
def OASIS2_PARENT : Field := { blk := 0x01, page := 2, off := 0x140, lo := 0, len := 15, acc := .ro, keep := .warm }

/-- R528. -/
def OASIS2_PTP_PORT : Field := { blk := 0x01, page := 2, off := 0x140, lo := 15, len := 1, acc := .ro, keep := .warm }

/-- R528. -/
def OASIS2_FIRST_STEP_OLD : Field := { blk := 0x01, page := 2, off := 0x148, lo := 0, len := 64, acc := .ro, keep := .warm }

/-- R528. -/
def OASIS2_FIRST_STEP_NEW : Field := { blk := 0x01, page := 2, off := 0x150, lo := 0, len := 64, acc := .ro, keep := .warm }

/-- R529. -/
def OASIS3_SLOT_A_STATE : Field := { blk := 0x01, page := 3, off := 0x100, lo := 0, len := 4, acc := .ro, init := 2, keep := .journal }

/-- R529. -/
def OASIS3_SLOT_B_STATE : Field := { blk := 0x01, page := 3, off := 0x100, lo := 4, len := 4, acc := .ro, keep := .journal }

/-- R529. -/
def OASIS3_RUNNING_SLOT : Field := { blk := 0x01, page := 3, off := 0x100, lo := 8, len := 1, acc := .ro, keep := .warm }

/-- R529. -/
def OASIS3_RUNNING_TRIAL : Field := { blk := 0x01, page := 3, off := 0x100, lo := 9, len := 1, acc := .ro, keep := .warm }

/-- R529. -/
def OASIS3_SLOT_A_VERSION : Field := { blk := 0x01, page := 3, off := 0x108, lo := 0, len := 32, acc := .ro, init := 1, keep := .journal }

/-- R529. -/
def OASIS3_SLOT_B_VERSION : Field := { blk := 0x01, page := 3, off := 0x108, lo := 32, len := 32, acc := .ro, keep := .journal }

/-- R529. -/
def OASIS3_SLOT_A_SECURITY : Field := { blk := 0x01, page := 3, off := 0x110, lo := 0, len := 32, acc := .ro, keep := .journal }

/-- R529. -/
def OASIS3_SLOT_B_SECURITY : Field := { blk := 0x01, page := 3, off := 0x110, lo := 32, len := 32, acc := .ro, keep := .journal }

/-- R529. -/
def OASIS3_LAST_USTATUS : Field := { blk := 0x01, page := 3, off := 0x118, lo := 0, len := 8, acc := .ro, keep := .warm }

/-- R529. -/
def OASIS3_LAST_OP : Field := { blk := 0x01, page := 3, off := 0x118, lo := 8, len := 2, acc := .ro, keep := .warm }

/-- R529. -/
def OASIS3_FORWARD_DONE : Field := { blk := 0x01, page := 3, off := 0x118, lo := 10, len := 1, acc := .ro, keep := .warm }

/-- R529. -/
def OASIS3_BYTES_DONE : Field := { blk := 0x01, page := 3, off := 0x118, lo := 32, len := 32, acc := .ro, keep := .power }

/-- R529. -/
def OASIS3_LAST_UPDATE_STAMP : Field := { blk := 0x01, page := 3, off := 0x120, lo := 0, len := 64, acc := .ro, keep := .power }

/-- R529. -/
def OASIS3_FLASH_ERRORS : Field := { blk := 0x01, page := 3, off := 0x128, lo := 0, len := 32, acc := .rc, keep := .power }

/-- R548. -/
def MONCONV_SEQ_LEN : Field := { blk := 0x40, page := 0, off := 0x100, lo := 0, len := 6, acc := .rw, init := 0x1F, legal := some (1, 32, 1), only := .oasis, keep := .warm }

/-- R548. -/
def MONCONV_ENTRY_0 : Field := { blk := 0x40, page := 0, off := 0x108, lo := 0, len := 6, acc := .rw, src := (.seqEntry 0), stride := 8, count := 4, only := .oasis, keep := .warm }

/-- R548. -/
def MONCONV_ENTRY_1 : Field := { blk := 0x40, page := 0, off := 0x108, lo := 8, len := 6, acc := .rw, src := (.seqEntry 1), stride := 8, count := 4, only := .oasis, keep := .warm }

/-- R548. -/
def MONCONV_ENTRY_2 : Field := { blk := 0x40, page := 0, off := 0x108, lo := 16, len := 6, acc := .rw, src := (.seqEntry 2), stride := 8, count := 4, only := .oasis, keep := .warm }

/-- R548. -/
def MONCONV_ENTRY_3 : Field := { blk := 0x40, page := 0, off := 0x108, lo := 24, len := 6, acc := .rw, src := (.seqEntry 3), stride := 8, count := 4, only := .oasis, keep := .warm }

/-- R548. -/
def MONCONV_ENTRY_4 : Field := { blk := 0x40, page := 0, off := 0x108, lo := 32, len := 6, acc := .rw, src := (.seqEntry 4), stride := 8, count := 4, only := .oasis, keep := .warm }

/-- R548. -/
def MONCONV_ENTRY_5 : Field := { blk := 0x40, page := 0, off := 0x108, lo := 40, len := 6, acc := .rw, src := (.seqEntry 5), stride := 8, count := 4, only := .oasis, keep := .warm }

/-- R548. -/
def MONCONV_ENTRY_6 : Field := { blk := 0x40, page := 0, off := 0x108, lo := 48, len := 6, acc := .rw, src := (.seqEntry 6), stride := 8, count := 4, only := .oasis, keep := .warm }

/-- R548. -/
def MONCONV_ENTRY_7 : Field := { blk := 0x40, page := 0, off := 0x108, lo := 56, len := 6, acc := .rw, src := (.seqEntry 7), stride := 8, count := 4, only := .oasis, keep := .warm }

/-- R548. -/
def MONCONV_URGENT_CH : Field := { blk := 0x40, page := 0, off := 0x128, lo := 0, len := 6, acc := .wo, only := .oasis }

/-- R548. -/
def MONCONV_URGENT_GO : Field := { blk := 0x40, page := 0, off := 0x128, lo := 6, len := 1, acc := .wo }

/-- R548. -/
def MONCONV_PASSES : Field := { blk := 0x40, page := 0, off := 0x130, lo := 0, len := 32, acc := .ro }

/-- R548. -/
def MONCONV_RESTARTS : Field := { blk := 0x40, page := 0, off := 0x130, lo := 32, len := 32, acc := .rc }

/-- R548. -/
def MONCONV_URGENT_COUNT : Field := { blk := 0x40, page := 0, off := 0x138, lo := 0, len := 32, acc := .rc }

/-- R548. -/
def MONCONV_URGENT_DROPS : Field := { blk := 0x40, page := 0, off := 0x138, lo := 32, len := 32, acc := .rc }

/-- R548. -/
def MONCONV_BG_EXPECTED : Field := { blk := 0x40, page := 0, off := 0x140, lo := 0, len := 12, acc := .ro, src := .bandgap }

/-- R548. -/
def MONCONV_BG_DIFF : Field := { blk := 0x40, page := 0, off := 0x140, lo := 16, len := 12, acc := .ro }

/-- R548. -/
def MONCONV_AGREE_RUN : Field := { blk := 0x40, page := 0, off := 0x140, lo := 32, len := 4, acc := .ro }

/-- R548. -/
def MONCONV1_CODE : Field := { blk := 0x40, page := 1, off := 0x100, lo := 0, len := 12, acc := .ro, stride := 8, count := 32 }

/-- R548. -/
def MONCONV1_CHANNEL : Field := { blk := 0x40, page := 1, off := 0x100, lo := 12, len := 6, acc := .ro, stride := 8, count := 32 }

/-- R548. -/
def MONCONV1_VALID : Field := { blk := 0x40, page := 1, off := 0x100, lo := 18, len := 1, acc := .ro, stride := 8, count := 32 }

/-- R548. -/
def MONCONV1_RESTARTED : Field := { blk := 0x40, page := 1, off := 0x100, lo := 19, len := 1, acc := .ro, stride := 8, count := 32 }

/-- R548. -/
def MONCONV1_COUNT : Field := { blk := 0x40, page := 1, off := 0x100, lo := 24, len := 8, acc := .ro, stride := 8, count := 32 }

/-- R548. -/
def MONCONV1_STAMP_LO : Field := { blk := 0x40, page := 1, off := 0x100, lo := 32, len := 32, acc := .ro, stride := 8, count := 32 }

/-- R548. -/
def MONCONV1_URGENT_RESULT : Field := { blk := 0x40, page := 1, off := 0x200, lo := 0, len := 32, acc := .ro }

/-- R548. -/
def MONCONV1_URGENT_STAMP : Field := { blk := 0x40, page := 1, off := 0x208, lo := 0, len := 64, acc := .ro }

/-- R549. -/
def THERMAL_PART_LIMIT : Field := { blk := 0x41, page := 0, off := 0x100, lo := 0, len := 8, acc := .ro }

/-- R549. -/
def THERMAL_FLOOR_NOW : Field := { blk := 0x41, page := 0, off := 0x100, lo := 8, len := 4, acc := .ro }

/-- R549. -/
def THERMAL_TRIPS : Field := { blk := 0x41, page := 0, off := 0x108, lo := 0, len := 32, acc := .rc }

/-- R549. -/
def THERMAL_ROUND_OVERRUNS : Field := { blk := 0x41, page := 0, off := 0x108, lo := 32, len := 32, acc := .rc }

/-- R549. -/
def THERMAL_LAST_TRIP_STAMP : Field := { blk := 0x41, page := 0, off := 0x110, lo := 0, len := 64, acc := .ro }

/-- R549. -/
def THERMAL_VALUE : Field := { blk := 0x41, page := 0, off := 0x200, lo := 0, len := 16, acc := .ro, stride := 8, count := 76 }

/-- R549. -/
def THERMAL_SOURCE : Field := { blk := 0x41, page := 0, off := 0x200, lo := 16, len := 3, acc := .ro, stride := 8, count := 76 }

/-- R549. -/
def THERMAL_FAULT : Field := { blk := 0x41, page := 0, off := 0x200, lo := 19, len := 3, acc := .ro, stride := 8, count := 76 }

/-- R549. -/
def THERMAL_TRIP : Field := { blk := 0x41, page := 0, off := 0x200, lo := 22, len := 2, acc := .ro, stride := 8, count := 76 }

/-- R549. -/
def THERMAL_STAMP_LO : Field := { blk := 0x41, page := 0, off := 0x200, lo := 32, len := 32, acc := .ro, stride := 8, count := 76 }

/-- R551. -/
def PWRCAP_CAP_W : Field := { blk := 0x42, page := 0, off := 0x100, lo := 0, len := 16, acc := .rw, init := 0xD48, keep := .warm }

/-- R551. -/
def PWRCAP_BOARD_CAP : Field := { blk := 0x42, page := 0, off := 0x100, lo := 16, len := 16, acc := .ro, init := 0xD48 }

/-- R551. -/
def PWRCAP_EFFECTIVE_CAP : Field := { blk := 0x42, page := 0, off := 0x100, lo := 32, len := 16, acc := .ro, init := 0xD48 }

/-- R551. -/
def PWRCAP_WINDOW_MS : Field := { blk := 0x42, page := 0, off := 0x108, lo := 0, len := 16, acc := .rw, init := 0x64, legal := some (10, 1000, 2), keep := .warm }

/-- R551. -/
def PWRCAP_HEADROOM_W : Field := { blk := 0x42, page := 0, off := 0x108, lo := 16, len := 12, acc := .rw, init := 0x32, legal := some (10, 400, 1), keep := .warm }

/-- R551. -/
def PWRCAP_UP_ROUNDS : Field := { blk := 0x42, page := 0, off := 0x108, lo := 28, len := 12, acc := .rw, init := 0x19, legal := some (5, 4000, 1), keep := .warm }

/-- R551. -/
def PWRCAP_THERM_FLOOR : Field := { blk := 0x42, page := 0, off := 0x108, lo := 40, len := 4, acc := .rw, init := 6, legal := some (1, 15, 1), keep := .warm }

/-- R551. -/
def PWRCAP_POWER_LEVEL : Field := { blk := 0x42, page := 0, off := 0x110, lo := 0, len := 4, acc := .ro }

/-- R551. -/
def PWRCAP_LEVEL : Field := { blk := 0x42, page := 0, off := 0x110, lo := 4, len := 4, acc := .ro }

/-- R551. -/
def PWRCAP_FIRST_HALF : Field := { blk := 0x42, page := 0, off := 0x110, lo := 8, len := 1, acc := .ro, init := 1 }

/-- R551. -/
def PWRCAP_PROG_CEILING : Field := { blk := 0x42, page := 0, off := 0x110, lo := 16, len := 16, acc := .ro, init := 0x1700 }

/-- R551. -/
def PWRCAP_P_LAST_W : Field := { blk := 0x42, page := 0, off := 0x118, lo := 0, len := 16, acc := .ro }

/-- R551. -/
def PWRCAP_P_AVG_W : Field := { blk := 0x42, page := 0, off := 0x118, lo := 16, len := 16, acc := .ro }

/-- R551. -/
def PWRCAP_P_PEAK_1MS_W : Field := { blk := 0x42, page := 0, off := 0x118, lo := 32, len := 16, acc := .rc }

/-- R551. -/
def PWRCAP_LEVEL_CHANGES : Field := { blk := 0x42, page := 0, off := 0x120, lo := 0, len := 32, acc := .rc }

/-- R551. -/
def PWRCAP_CLAMPS : Field := { blk := 0x42, page := 0, off := 0x120, lo := 32, len := 32, acc := .rc }

/-- R552. -/
def AGEING_REPLAN_DAYS : Field := { blk := 0x43, page := 0, off := 0x100, lo := 0, len := 5, acc := .rw, init := 7, legal := some (1, 30, 1), keep := .warm }

/-- R552. -/
def AGEING_REPLAN_CAL : Field := { blk := 0x43, page := 0, off := 0x100, lo := 5, len := 1, acc := .rw, init := 1, keep := .warm }

/-- R552. -/
def AGEING_REPLAN_NOW : Field := { blk := 0x43, page := 0, off := 0x100, lo := 6, len := 1, acc := .wo, keep := .warm }

/-- R552. -/
def AGEING_INTERVAL_BASE : Field := { blk := 0x43, page := 0, off := 0x100, lo := 16, len := 16, acc := .rw, init := 0x3E8, legal := some (100, 65535, 1), keep := .warm }

/-- R552. -/
def AGEING_LAST_REPLAN_STAMP : Field := { blk := 0x43, page := 0, off := 0x108, lo := 0, len := 64, acc := .ro, keep := .warm }

/-- R552. -/
def AGEING_GUARD_MV : Field := { blk := 0x43, page := 0, off := 0x110, lo := 0, len := 32, acc := .ro, init := 0x1E1E1E1E, keep := .journal }

/-- R552. -/
def AGEING_AGE_LIMITED : Field := { blk := 0x43, page := 0, off := 0x110, lo := 32, len := 4, acc := .ro, keep := .journal }

/-- R552. -/
def AGEING_WORST_BANK : Field := { blk := 0x43, page := 0, off := 0x118, lo := 0, len := 20, acc := .ro, keep := .warm }

/-- R552. -/
def AGEING_WORST_PROJECTION : Field := { blk := 0x43, page := 0, off := 0x118, lo := 20, len := 20, acc := .ro, keep := .warm }

/-- R552. -/
def AGEING_DEGRADE_PPM : Field := { blk := 0x43, page := 0, off := 0x200, lo := 0, len := 32, acc := .ro, stride := 8, count := 32, keep := .warm }

/-- R567. -/
def BOARD_SLOT : Field := { blk := 0x48, page := 0, off := 0x100, lo := 0, len := 3, acc := .ro, src := .slot, keep := .warm }

/-- R567. -/
def BOARD_STRAP_FLOAT : Field := { blk := 0x48, page := 0, off := 0x100, lo := 3, len := 3, acc := .ro, keep := .warm }

/-- R567. -/
def BOARD_SB_ADDR : Field := { blk := 0x48, page := 0, off := 0x100, lo := 6, len := 7, acc := .ro, src := .sbAddr, keep := .warm }

/-- R567. -/
def BOARD_FAULTS : Field := { blk := 0x48, page := 0, off := 0x108, lo := 0, len := 15, acc := .w1c, keep := .warm }

/-- R567. -/
def BOARD_FAULTS_NOW : Field := { blk := 0x48, page := 0, off := 0x108, lo := 32, len := 15, acc := .ro, keep := .warm }

/-- R567. -/
def BOARD_LEAK_STATE : Field := { blk := 0x48, page := 0, off := 0x110, lo := 0, len := 2, acc := .ro, keep := .warm }

/-- R567. -/
def BOARD_SB_COMMANDS : Field := { blk := 0x48, page := 0, off := 0x118, lo := 0, len := 32, acc := .rc, keep := .warm }

/-- R567. -/
def BOARD_SB_ERRORS : Field := { blk := 0x48, page := 0, off := 0x118, lo := 32, len := 32, acc := .rc, keep := .warm }

/-- R567. -/
def BOARD_LAST_FAULT_STAMP : Field := { blk := 0x48, page := 0, off := 0x120, lo := 0, len := 64, acc := .ro, keep := .warm }

/-- R567. -/
def BOARD_REVERSE_EVENTS : Field := { blk := 0x48, page := 0, off := 0x128, lo := 0, len := 16, acc := .ro, keep := .journal }

/-- R567. -/
def BOARD1_JEDEC_ID : Field := { blk := 0x48, page := 1, off := 0x100, lo := 0, len := 24, acc := .ro }

/-- R567. -/
def BOARD1_SIZE_MIB : Field := { blk := 0x48, page := 1, off := 0x100, lo := 24, len := 16, acc := .ro }

/-- R567. -/
def BOARD1_OCTAL_DTR : Field := { blk := 0x48, page := 1, off := 0x100, lo := 40, len := 1, acc := .ro }

/-- R567. -/
def BOARD1_FLASH_READ_ERRORS : Field := { blk := 0x48, page := 1, off := 0x108, lo := 0, len := 32, acc := .rc }

/-- R352. -/
def HOST_LINK_UP : Field := { blk := 0x28, page := 0, off := 0x028, lo := 32, len := 1, acc := .ro }

/-- R352. -/
def HOST_SPEED_ACTIVE : Field := { blk := 0x28, page := 0, off := 0x028, lo := 33, len := 2, acc := .ro }

/-- R352. -/
def HOST_FEC_LOCKED : Field := { blk := 0x28, page := 0, off := 0x028, lo := 35, len := 1, acc := .ro }

/-- R352. -/
def HOST_LOCAL_FAULT : Field := { blk := 0x28, page := 0, off := 0x028, lo := 36, len := 1, acc := .ro }

/-- R352. -/
def HOST_REMOTE_FAULT : Field := { blk := 0x28, page := 0, off := 0x028, lo := 37, len := 1, acc := .ro }

/-- R355. -/
def QP_STATE : Field := { blk := 0x29, page := 0, off := 0x028, lo := 32, len := 3, acc := .ro }

/-- R355. -/
def QP_PORT : Field := { blk := 0x29, page := 0, off := 0x028, lo := 35, len := 1, acc := .ro }

/-- R356. -/
def SEMA_ENTRIES : Field := { blk := 0x02, page := 0, off := 0x010, lo := 0, len := 9, acc := .ro, init := 0x100, keep := .warm }

/-- R356. -/
def SEMA_PAGE_SEMS : Field := { blk := 0x02, page := 0, off := 0x010, lo := 9, len := 6, acc := .ro, init := 0x20, keep := .warm }

/-- R356. -/
def SEMA_MAX_WAITERS : Field := { blk := 0x02, page := 0, off := 0x010, lo := 15, len := 5, acc := .ro, init := 0x10, keep := .warm }

/-- R393. -/
def BORSAN1_SPARE_IN_USE : Field := { blk := 0x30, page := 1, off := 0x028, lo := 32, len := 1, acc := .ro }

/-- R394. -/
def TORUS_SWITCH_PENDING : Field := { blk := 0x31, page := 0, off := 0x028, lo := 32, len := 1, acc := .ro }

/-- R394. -/
def TORUS_HOLDING : Field := { blk := 0x31, page := 0, off := 0x028, lo := 33, len := 1, acc := .ro }

/-- R395. -/
def TORUS1_PLAN_LOADED : Field := { blk := 0x31, page := 1, off := 0x028, lo := 32, len := 1, acc := .ro }

/-- R395. -/
def TORUS1_AGREED : Field := { blk := 0x31, page := 1, off := 0x028, lo := 33, len := 1, acc := .ro }

/-- R395. -/
def TORUS1_OVERRIDE_IN_FORCE : Field := { blk := 0x31, page := 1, off := 0x028, lo := 34, len := 1, acc := .ro }

/-- R429. -/
def KEYS1_KEYS_LOADED : Field := { blk := 0x04, page := 1, off := 0x028, lo := 32, len := 7, acc := .ro, keep := .warm }

/-- R430. -/
def CARAVAN_RETAIN : Field := { blk := 0x32, page := 0, off := 0x010, lo := 0, len := 5, acc := .ro, init := 0x10, keep := .warm }

/-- R430. -/
def CARAVAN_RETRY_CAP : Field := { blk := 0x32, page := 0, off := 0x010, lo := 5, len := 2, acc := .ro, init := 3, keep := .warm }

/-- R430. -/
def CARAVAN_BROADCAST_ACTIVE : Field := { blk := 0x32, page := 0, off := 0x028, lo := 32, len := 1, acc := .ro }

/-- R500. -/
def MOD1_ST_STATE : Field := { blk := 0x00, page := 1, off := 0x028, lo := 32, len := 4, acc := .ro, src := .computed, keep := .warm }

/-- R501. -/
def VAULT_COPY0_VALID : Field := { blk := 0x03, page := 0, off := 0x028, lo := 32, len := 1, acc := .ro, keep := .warm }

/-- R501. -/
def VAULT_COPY1_VALID : Field := { blk := 0x03, page := 0, off := 0x028, lo := 33, len := 1, acc := .ro, keep := .warm }

/-- R501. -/
def VAULT_COPY_IN_USE : Field := { blk := 0x03, page := 0, off := 0x028, lo := 34, len := 1, acc := .ro, keep := .warm }

/-- R501. -/
def VAULT_FIELD_RECORD_VALID : Field := { blk := 0x03, page := 0, off := 0x028, lo := 35, len := 1, acc := .ro, keep := .warm }

/-- R526. -/
def OASIS_RESTARTING : Field := { blk := 0x01, page := 0, off := 0x028, lo := 32, len := 1, acc := .ro, keep := .warm }

/-- R526. -/
def OASIS_HOST_SILENT : Field := { blk := 0x01, page := 0, off := 0x028, lo := 33, len := 1, acc := .ro, keep := .warm }

/-- R527. -/
def OASIS1_LOG_RECORDS : Field := { blk := 0x01, page := 1, off := 0x010, lo := 0, len := 17, acc := .ro, init := 0x10000, keep := .warm }

/-- R527. -/
def OASIS1_PERSIST_RECORDS : Field := { blk := 0x01, page := 1, off := 0x010, lo := 17, len := 11, acc := .ro, init := 0x400, keep := .warm }

/-- R527. -/
def OASIS1_STAGING_FULL : Field := { blk := 0x01, page := 1, off := 0x028, lo := 32, len := 1, acc := .ro, keep := .warm }

/-- R528. -/
def OASIS2_MAX_SLEW_PPM : Field := { blk := 0x01, page := 2, off := 0x010, lo := 0, len := 10, acc := .ro, init := 0xC8, keep := .warm }

/-- R528. -/
def OASIS2_EPOCH_SET : Field := { blk := 0x01, page := 2, off := 0x028, lo := 32, len := 1, acc := .ro, keep := .warm }

/-- R513, R528. -/
def OASIS2_SYNC_STATE : Field := { blk := 0x01, page := 2, off := 0x028, lo := 33, len := 3, acc := .ro, init := 1, keep := .warm }

/-- R528. -/
def OASIS2_TIME_FAR : Field := { blk := 0x01, page := 2, off := 0x028, lo := 36, len := 1, acc := .ro, keep := .warm }

/-- R529. -/
def OASIS3_UPDATE_OPEN : Field := { blk := 0x01, page := 3, off := 0x028, lo := 32, len := 1, acc := .ro, keep := .warm }

/-- R529. -/
def OASIS3_FORWARDING : Field := { blk := 0x01, page := 3, off := 0x028, lo := 33, len := 1, acc := .ro, keep := .warm }

/-- R320. -/
def SERVE2_VARIANTS : Field := { blk := 0x38, page := 2, off := 0x010, lo := 0, len := 7, acc := .ro, init := 0x40, keep := .warm }

/-- R322. -/
def RING_BOUND : Field := { blk := 0x3A, page := 0, off := 0x028, lo := 32, len := 1, acc := .ro, keep := .warm }

/-- R322. -/
def RING_OPEN : Field := { blk := 0x3A, page := 0, off := 0x028, lo := 33, len := 1, acc := .ro, keep := .warm }

/-- R322. -/
def RING_FULL : Field := { blk := 0x3A, page := 0, off := 0x028, lo := 34, len := 1, acc := .ro, keep := .warm }

/-- R322. -/
def RING_STALLED : Field := { blk := 0x3A, page := 0, off := 0x028, lo := 35, len := 1, acc := .ro, keep := .warm }

/-- R322. -/
def RING_FIXED : Field := { blk := 0x3A, page := 0, off := 0x028, lo := 36, len := 1, acc := .ro, keep := .warm }

/-- R258. -/
def SEAM_QUEUE_DEPTH : Field := { blk := 0x19, page := 0, off := 0x010, lo := 0, len := 6, acc := .ro, init := 0x20, keep := .warm }

/-- R258. -/
def SEAM_WEST_HELD : Field := { blk := 0x19, page := 0, off := 0x028, lo := 32, len := 1, acc := .ro }

/-- R258. -/
def SEAM_EAST_HELD : Field := { blk := 0x19, page := 0, off := 0x028, lo := 33, len := 1, acc := .ro }

/-- R257. -/
def ROUTER1_MAP_ENTRIES : Field := { blk := 0x18, page := 1, off := 0x010, lo := 0, len := 11, acc := .ro, init := 0x780, keep := .warm }

/-- R548. -/
def MONCONV_RUN : Field := { blk := 0x40, page := 0, off := 0x020, lo := 32, len := 1, acc := .rw, init := 1, keep := .warm }

/-- R548. -/
def MONCONV_CONVERTING : Field := { blk := 0x40, page := 0, off := 0x028, lo := 32, len := 1, acc := .ro }

/-- R548. -/
def MONCONV_DISAGREE : Field := { blk := 0x40, page := 0, off := 0x028, lo := 33, len := 1, acc := .ro }

/-- R549. -/
def THERMAL_THROTTLING : Field := { blk := 0x41, page := 0, off := 0x028, lo := 32, len := 1, acc := .ro }

/-- R549. -/
def THERMAL_CRITICAL : Field := { blk := 0x41, page := 0, off := 0x028, lo := 33, len := 1, acc := .ro }

/-- R549. -/
def THERMAL_SENSOR_FAULT : Field := { blk := 0x41, page := 0, off := 0x028, lo := 34, len := 1, acc := .ro }

/-- R549. -/
def THERMAL_UNTRUSTED : Field := { blk := 0x41, page := 0, off := 0x028, lo := 35, len := 1, acc := .ro }

/-- R551. -/
def PWRCAP_CAPPED : Field := { blk := 0x42, page := 0, off := 0x028, lo := 32, len := 1, acc := .ro }

/-- R551. -/
def PWRCAP_CLAMPED : Field := { blk := 0x42, page := 0, off := 0x028, lo := 33, len := 1, acc := .ro }

/-- R551. -/
def PWRCAP_TELEMETRY : Field := { blk := 0x42, page := 0, off := 0x028, lo := 34, len := 1, acc := .ro }

/-- R567. -/
def BOARD_LEAK : Field := { blk := 0x48, page := 0, off := 0x028, lo := 32, len := 1, acc := .ro, keep := .warm }

/-- R567. -/
def BOARD_SENSE_FALLBACK : Field := { blk := 0x48, page := 0, off := 0x028, lo := 33, len := 1, acc := .ro, keep := .warm }

/-- R567. -/
def BOARD_FLASH_OWNED : Field := { blk := 0x48, page := 0, off := 0x028, lo := 34, len := 1, acc := .ro, keep := .warm }

/-- R200. -/
def POST_ACC_BITS : Field := { blk := 0x11, page := 0, off := 0x010, lo := 0, len := 6, acc := .ro, init := 0x18, keep := .warm }

/-- R200. -/
def POST_ACC_FRAC : Field := { blk := 0x11, page := 0, off := 0x010, lo := 6, len := 4, acc := .ro, init := 4, keep := .warm }

/-- R200. -/
def POST_BUF0_BUSY : Field := { blk := 0x11, page := 0, off := 0x028, lo := 32, len := 1, acc := .ro, keep := .warm }

/-- R200. -/
def POST_BUF1_BUSY : Field := { blk := 0x11, page := 0, off := 0x028, lo := 33, len := 1, acc := .ro, keep := .warm }

/-- R480. -/
def CLU_GATED : Field := { blk := 0x0A, page := 0, off := 0x028, lo := 32, len := 1, acc := .ro, keep := .warm }

/-- R480. -/
def CLU_DRAINING : Field := { blk := 0x0A, page := 0, off := 0x028, lo := 33, len := 1, acc := .ro, keep := .warm }

/-- R480. -/
def CLU_RESTORING : Field := { blk := 0x0A, page := 0, off := 0x028, lo := 34, len := 1, acc := .ro, keep := .warm }

/-- R480. -/
def PART_GATED : Field := { blk := 0x09, page := 0, off := 0x028, lo := 32, len := 1, acc := .ro, keep := .warm }

/-- R480. -/
def PART_DRAINING : Field := { blk := 0x09, page := 0, off := 0x028, lo := 33, len := 1, acc := .ro, keep := .warm }

/-- R480. -/
def PART_RESTORING : Field := { blk := 0x09, page := 0, off := 0x028, lo := 34, len := 1, acc := .ro, keep := .warm }

/-- R480. -/
def DIE_GATED : Field := { blk := 0x08, page := 0, off := 0x028, lo := 32, len := 1, acc := .ro, keep := .warm }

/-- R480. -/
def DIE_DRAINING : Field := { blk := 0x08, page := 0, off := 0x028, lo := 33, len := 1, acc := .ro, keep := .warm }

/-- R480. -/
def DIE_RESTORING : Field := { blk := 0x08, page := 0, off := 0x028, lo := 34, len := 1, acc := .ro, keep := .warm }

/-- R387. -/
def TORUS2_C_OP : Field := { blk := 0x31, page := 2, off := 0x100, lo := 0, len := 3, acc := .rw, stride := 40, count := 64, legal := some (0, 3, 1), keep := .warm }

/-- R387. -/
def TORUS2_C_EXACT : Field := { blk := 0x31, page := 2, off := 0x100, lo := 3, len := 1, acc := .rw, stride := 40, count := 64, keep := .warm }

/-- R387. -/
def TORUS2_C_OPFMT : Field := { blk := 0x31, page := 2, off := 0x100, lo := 4, len := 2, acc := .rw, stride := 40, count := 64, legal := some (0, 1, 1), keep := .warm }

/-- R387. -/
def TORUS2_C_DIMS : Field := { blk := 0x31, page := 2, off := 0x100, lo := 6, len := 3, acc := .rw, stride := 40, count := 64, legal := some (1, 7, 1), keep := .warm }

/-- R387. -/
def TORUS2_C_DET : Field := { blk := 0x31, page := 2, off := 0x100, lo := 9, len := 1, acc := .rw, stride := 40, count := 64, keep := .warm }

/-- R387. -/
def TORUS2_C_VALID : Field := { blk := 0x31, page := 2, off := 0x100, lo := 10, len := 1, acc := .rw, stride := 40, count := 64, keep := .warm }

/-- R387. -/
def TORUS2_C_XC : Field := { blk := 0x31, page := 2, off := 0x100, lo := 11, len := 8, acc := .rw, stride := 40, count := 64, keep := .warm }

/-- R387. -/
def TORUS2_C_ROOT : Field := { blk := 0x31, page := 2, off := 0x100, lo := 19, len := 15, acc := .rw, stride := 40, count := 64, keep := .warm }

/-- R387. -/
def TORUS2_C_IN_STREAM : Field := { blk := 0x31, page := 2, off := 0x100, lo := 34, len := 16, acc := .rw, stride := 40, count := 64, keep := .warm }

/-- R387. -/
def TORUS2_C_ELEMENTS : Field := { blk := 0x31, page := 2, off := 0x108, lo := 0, len := 24, acc := .rw, stride := 40, count := 64, keep := .warm }

/-- R387. -/
def TORUS2_C_CHUNK_BLOCKS : Field := { blk := 0x31, page := 2, off := 0x108, lo := 24, len := 7, acc := .rw, stride := 40, count := 64, keep := .warm }

/-- R387. -/
def TORUS2_C_OUT_STREAM : Field := { blk := 0x31, page := 2, off := 0x108, lo := 31, len := 16, acc := .rw, stride := 40, count := 64, keep := .warm }

/-- R387. -/
def TORUS2_C_OUT_DEST : Field := { blk := 0x31, page := 2, off := 0x108, lo := 47, len := 16, acc := .rw, stride := 40, count := 64, keep := .warm }

/-- R387. -/
def TORUS2_C_SEED : Field := { blk := 0x31, page := 2, off := 0x110, lo := 0, len := 64, acc := .rw, stride := 40, count := 64, keep := .warm }

/-- R387. -/
def TORUS2_C_BUF_ADDR : Field := { blk := 0x31, page := 2, off := 0x118, lo := 0, len := 64, acc := .rw, stride := 40, count := 64, keep := .warm }

/-- R387. -/
def TORUS2_C_INSTANCE : Field := { blk := 0x31, page := 2, off := 0x120, lo := 0, len := 32, acc := .ro, stride := 40, count := 64 }

/-- R224. -/
def LCB_MTIME : Field := { blk := 0x100, page := 0, off := 0x000, lo := 0, len := 64, acc := .ro, src := .computed }

/-- R224. -/
def LCB_MTIMECMP : Field := { blk := 0x100, page := 0, off := 0x008, lo := 0, len := 64, acc := .rw, init := 0xFFFFFFFFFFFFFFFF }

/-- R224. -/
def LCB_RX_HEAD : Field := { blk := 0x100, page := 0, off := 0x010, lo := 0, len := 16, acc := .ro }

/-- R224. -/
def LCB_RX_TAIL : Field := { blk := 0x100, page := 0, off := 0x010, lo := 16, len := 16, acc := .rw }

/-- R224. -/
def LCB_TX_SEND : Field := { blk := 0x100, page := 0, off := 0x018, lo := 0, len := 64, acc := .wo }

/-- R224. -/
def LCB_MAILBOX : Field := { blk := 0x100, page := 0, off := 0x020, lo := 0, len := 64, acc := .rc }

/-- R224. -/
def LCB_HEARTBEAT : Field := { blk := 0x100, page := 0, off := 0x028, lo := 0, len := 64, acc := .wo }

/-- R224. -/
def LCB_KV_TARGET : Field := { blk := 0x100, page := 0, off := 0x030, lo := 0, len := 16, acc := .rw }

/-- R224. -/
def LCB_KV_OP : Field := { blk := 0x100, page := 0, off := 0x030, lo := 16, len := 2, acc := .rw, legal := some (0, 2, 1) }

/-- R224. -/
def LCB_KV_SLOT : Field := { blk := 0x100, page := 0, off := 0x030, lo := 18, len := 14, acc := .rw }

/-- R224. -/
def LCB_KV_SLOT2 : Field := { blk := 0x100, page := 0, off := 0x030, lo := 32, len := 14, acc := .rw }

/-- R224. -/
def LCB_KV_COUNT : Field := { blk := 0x100, page := 0, off := 0x030, lo := 46, len := 17, acc := .rw }

/-- R224. -/
def LCB_KV_GO : Field := { blk := 0x100, page := 0, off := 0x030, lo := 63, len := 1, acc := .w1s }

/-- R224. -/
def LCB_KV_RESULT : Field := { blk := 0x100, page := 0, off := 0x038, lo := 0, len := 2, acc := .ro }

/-- R224. -/
def LCB_COMMIT_DOORBELL : Field := { blk := 0x100, page := 0, off := 0x040, lo := 0, len := 64, acc := .wo }

/-- R480. -/
def DIE_CTL_COLD : Field := { blk := 0x08, page := 0, off := 0x020, lo := 32, len := 1, acc := .wo, keep := .warm }

/-- INT_STATUS bit of R97. -/
def INT_ENG_CLIP : Nat := 4

/-- INT_STATUS bit of R97. -/
def INT_ENG_SPLIT : Nat := 5

/-- INT_STATUS bit of R97. -/
def INT_ENG_EPOCH_UNBOUND : Nat := 6

/-- INT_STATUS bit of R97. -/
def INT_ENG_RETRIM : Nat := 7

/-- INT_STATUS bit of R97. -/
def INT_ENG_DRIFT_HARD : Nat := 8

/-- INT_STATUS bit of R97. -/
def INT_ENG_PILOT_JUMP : Nat := 9

/-- INT_STATUS bit of R97. -/
def INT_ENG_PILOT_FORCED : Nat := 10

/-- INT_STATUS bit of R97. -/
def INT_ENG_BANK_STATE : Nat := 11

/-- INT_STATUS bit of R166. -/
def INT_WPROG_PROG_DONE : Nat := 4

/-- INT_STATUS bit of R166. -/
def INT_WPROG_PROG_FAILED : Nat := 5

/-- INT_STATUS bit of R166. -/
def INT_WPROG_DEFERRED : Nat := 6

/-- INT_STATUS bit of R166. -/
def INT_WPROG_REFUSED : Nat := 7

/-- INT_STATUS bit of R166. -/
def INT_WPROG_WORN : Nat := 8

/-- INT_STATUS bit of R197. -/
def INT_MCORE_RANGE : Nat := 4

/-- INT_STATUS bit of R197. -/
def INT_MCORE_RANGE_EXCEEDED : Nat := 5

/-- INT_STATUS bit of R197. -/
def INT_MCORE_WIDENED : Nat := 6

/-- INT_STATUS bit of R197. -/
def INT_MCORE_ACT_WIDENED : Nat := 7

/-- INT_STATUS bit of R197. -/
def INT_MCORE_HOLLOW_OUT : Nat := 8

/-- INT_STATUS bit of R197. -/
def INT_MCORE_TILE_FAILED : Nat := 9

/-- INT_STATUS bit of R197. -/
def INT_MCORE_UNMATCHED : Nat := 10

/-- INT_STATUS bit of R197. -/
def INT_MCORE_HOLD_TIMEOUT : Nat := 11

/-- INT_STATUS bit of R197. -/
def INT_MCORE_NO_STREAM : Nat := 12

/-- INT_STATUS bit of R197. -/
def INT_MCORE_BAD_DESCRIPTOR : Nat := 13

/-- INT_STATUS bit of R226. -/
def INT_VCORE_HOLLOW_OUT : Nat := 4

/-- INT_STATUS bit of R226. -/
def INT_VCORE_FP8_CLAMP : Nat := 5

/-- INT_STATUS bit of R226. -/
def INT_VCORE_KV_REFUSED : Nat := 6

/-- INT_STATUS bit of R226. -/
def INT_VCORE_BAD_KERNEL : Nat := 7

/-- INT_STATUS bit of R226. -/
def INT_VCORE_KERNEL_OVERRUN : Nat := 8

/-- INT_STATUS bit of R226. -/
def INT_VCORE_STANDIN_FAILED : Nat := 9

/-- INT_STATUS bit of R226. -/
def INT_VCORE_UNMATCHED : Nat := 10

/-- INT_STATUS bit of R228. -/
def INT_SCORE_HOLLOW_LOAD : Nat := 4

/-- INT_STATUS bit of R228. -/
def INT_SCORE_HEARTBEAT_LOST : Nat := 5

/-- INT_STATUS bit of R255. -/
def INT_ROUTER_RETRY : Nat := 4

/-- INT_STATUS bit of R255. -/
def INT_ROUTER_LINK_FAILED : Nat := 5

/-- INT_STATUS bit of R255. -/
def INT_ROUTER_GEN_DROP : Nat := 6

/-- INT_STATUS bit of R255. -/
def INT_ROUTER_MAP_SWITCHED : Nat := 7

/-- INT_STATUS bit of R255. -/
def INT_ROUTER_REDIRECT : Nat := 8

/-- INT_STATUS bit of R278. -/
def INT_HBM_CE : Nat := 4

/-- INT_STATUS bit of R278. -/
def INT_HBM_UE : Nat := 5

/-- INT_STATUS bit of R278. -/
def INT_HBM_TRAIN_FALLBACK : Nat := 6

/-- INT_STATUS bit of R278. -/
def INT_HBM_STACK_FAILED : Nat := 7

/-- INT_STATUS bit of R278. -/
def INT_HBM_SEALED_DENIED : Nat := 8

/-- INT_STATUS bit of R278. -/
def INT_HBM_TAG_ERROR : Nat := 9

/-- INT_STATUS bit of R318. -/
def INT_SERVE_BUSY : Nat := 4

/-- INT_STATUS bit of R318. -/
def INT_SERVE_ABNORMAL_END : Nat := 5

/-- INT_STATUS bit of R392. -/
def INT_BORSAN_LINK_CHANGE : Nat := 4

/-- INT_STATUS bit of R392. -/
def INT_BORSAN_LANE_CHANGE : Nat := 5

/-- INT_STATUS bit of R392. -/
def INT_BORSAN_RETRY : Nat := 6

/-- INT_STATUS bit of R392. -/
def INT_BORSAN_DETOUR : Nat := 7

/-- INT_STATUS bit of R392. -/
def INT_BORSAN_UNROUTABLE : Nat := 8

/-- INT_STATUS bit of R428. -/
def INT_KEYS_IDENTITY_FAIL : Nat := 4

/-- INT_STATUS bit of R428. -/
def INT_KEYS_SPDM_ERROR : Nat := 5

/-- INT_STATUS bit of R457. -/
def INT_PCORE_EVIDENCE : Nat := 4

/-- INT_STATUS bit of R457. -/
def INT_PCORE_LEVEL_CHANGE : Nat := 5

/-- INT_STATUS bit of R457. -/
def INT_PCORE_SRAM_UE : Nat := 6

/-- INT_STATUS bit of R352. -/
def INT_HOST_LINK_CHANGE : Nat := 4

/-- INT_STATUS bit of R352. -/
def INT_HOST_FEC_UNCORRECTED : Nat := 5

/-- INT_STATUS bit of R353. -/
def INT_HOST1_INBOUND_RDMA : Nat := 4

/-- INT_STATUS bit of R354. -/
def INT_HOST2_PTP_STATE : Nat := 4

/-- INT_STATUS bit of R355. -/
def INT_QP_QP_ERROR : Nat := 4

/-- INT_STATUS bit of R356. -/
def INT_SEMA_BROKEN : Nat := 4

/-- INT_STATUS bit of R356. -/
def INT_SEMA_LEASE_EXPIRED : Nat := 5

/-- INT_STATUS bit of R394. -/
def INT_TORUS_ROUTE_SWITCHED : Nat := 4

/-- INT_STATUS bit of R394. -/
def INT_TORUS_LSN : Nat := 5

/-- INT_STATUS bit of R394. -/
def INT_TORUS_UNREACHABLE : Nat := 6

/-- INT_STATUS bit of R395. -/
def INT_TORUS1_MISMATCH : Nat := 4

/-- INT_STATUS bit of R395. -/
def INT_TORUS1_AGREED : Nat := 5

/-- INT_STATUS bit of R395. -/
def INT_TORUS1_OVERRIDE : Nat := 6

/-- INT_STATUS bit of R396. -/
def INT_TORUS2_TRANSPORT : Nat := 4

/-- INT_STATUS bit of R396. -/
def INT_TORUS2_ARITH_MISMATCH : Nat := 5

/-- INT_STATUS bit of R396. -/
def INT_TORUS2_HOLLOW_CHUNK : Nat := 6

/-- INT_STATUS bit of R396. -/
def INT_TORUS2_TIMEOUT : Nat := 7

/-- INT_STATUS bit of R429. -/
def INT_KEYS1_IMPORTED : Nat := 4

/-- INT_STATUS bit of R429. -/
def INT_KEYS1_UNWRAP_FAILED : Nat := 5

/-- INT_STATUS bit of R430. -/
def INT_CARAVAN_SHARD_NEEDED : Nat := 4

/-- INT_STATUS bit of R430. -/
def INT_CARAVAN_SHARD_RETRY : Nat := 5

/-- INT_STATUS bit of R430. -/
def INT_CARAVAN_VARIANT_COMPLETE : Nat := 6

/-- INT_STATUS bit of R430. -/
def INT_CARAVAN_CORE_IMAGE_FAIL : Nat := 7

/-- INT_STATUS bit of R500. -/
def INT_MOD1_STATE_CHANGE : Nat := 4

/-- INT_STATUS bit of R500. -/
def INT_MOD1_FAILED : Nat := 5

/-- INT_STATUS bit of R501. -/
def INT_VAULT_COPY_BAD : Nat := 4

/-- INT_STATUS bit of R526. -/
def INT_OASIS_RESTARTED : Nat := 4

/-- INT_STATUS bit of R526. -/
def INT_OASIS_HB_MISS : Nat := 5

/-- INT_STATUS bit of R526. -/
def INT_OASIS_HOST_SILENT : Nat := 6

/-- INT_STATUS bit of R527. -/
def INT_OASIS1_LOST : Nat := 4

/-- INT_STATUS bit of R527. -/
def INT_OASIS1_FAULT_RECORD : Nat := 5

/-- INT_STATUS bit of R528. -/
def INT_OASIS2_STEPPED : Nat := 4

/-- INT_STATUS bit of R528. -/
def INT_OASIS2_SYNC_CHANGE : Nat := 5

/-- INT_STATUS bit of R528. -/
def INT_OASIS2_TIME_FAR : Nat := 6

/-- INT_STATUS bit of R529. -/
def INT_OASIS3_UPDATE_DONE : Nat := 4

/-- INT_STATUS bit of R529. -/
def INT_OASIS3_UPDATE_FAILED : Nat := 5

/-- INT_STATUS bit of R320. -/
def INT_SERVE2_STATE_CHANGED : Nat := 4

/-- INT_STATUS bit of R320. -/
def INT_SERVE2_DRAIN_DONE : Nat := 5

/-- INT_STATUS bit of R320. -/
def INT_SERVE2_PREEMPTED : Nat := 6

/-- INT_STATUS bit of R321. -/
def INT_TENANT_THROTTLED : Nat := 4

/-- INT_STATUS bit of R321. -/
def INT_TENANT_REFUSED : Nat := 5

/-- INT_STATUS bit of R322. -/
def INT_RING_STALLED : Nat := 4

/-- INT_STATUS bit of R322. -/
def INT_RING_FULL : Nat := 5

/-- INT_STATUS bit of R280. -/
def INT_HBM1_SCRUB_LATE : Nat := 4

/-- INT_STATUS bit of R280. -/
def INT_HBM1_PASS_DONE : Nat := 5

/-- INT_STATUS bit of R258. -/
def INT_SEAM_RESCALED : Nat := 4

/-- INT_STATUS bit of R548. -/
def INT_MONCONV_DISAGREE : Nat := 4

/-- INT_STATUS bit of R548. -/
def INT_MONCONV_URGENT_DROP : Nat := 5

/-- INT_STATUS bit of R549. -/
def INT_THERMAL_TRIP : Nat := 4

/-- INT_STATUS bit of R549. -/
def INT_THERMAL_SENSOR_FAULT : Nat := 5

/-- INT_STATUS bit of R549. -/
def INT_THERMAL_REVERSED : Nat := 6

/-- INT_STATUS bit of R551. -/
def INT_PWRCAP_LEVEL_CHANGE : Nat := 4

/-- INT_STATUS bit of R551. -/
def INT_PWRCAP_CLAMP : Nat := 5

/-- INT_STATUS bit of R551. -/
def INT_PWRCAP_CAP_CHANGE : Nat := 6

/-- INT_STATUS bit of R552. -/
def INT_AGEING_REPLANNED : Nat := 4

/-- INT_STATUS bit of R552. -/
def INT_AGEING_AGE_LIMIT : Nat := 5

/-- INT_STATUS bit of R567. -/
def INT_BOARD_BOARD_FAULT : Nat := 4

/-- INT_STATUS bit of R567. -/
def INT_BOARD_SIDEBAND_ERROR : Nat := 5

/-- INT_STATUS bit of R480. -/
def INT_CLU_RESET_DONE : Nat := 4

/-- INT_STATUS bit of R480. -/
def INT_CLU_LEFTOVER : Nat := 5

/-- INT_STATUS bit of R480. -/
def INT_CLU_ESCALATED : Nat := 6

/-- INT_STATUS bit of R480. -/
def INT_PART_RESET_DONE : Nat := 4

/-- INT_STATUS bit of R480. -/
def INT_PART_LEFTOVER : Nat := 5

/-- INT_STATUS bit of R480. -/
def INT_PART_ESCALATED : Nat := 6

/-- INT_STATUS bit of R480. -/
def INT_DIE_RESET_DONE : Nat := 4

/-- INT_STATUS bit of R480. -/
def INT_DIE_LEFTOVER : Nat := 5

/-- INT_STATUS bit of R480. -/
def INT_DIE_ESCALATED : Nat := 6

end R

/-- The fields of pages of type 0x00, page 0. -/
def fields00_0 : List Field :=
  [R.MOD_PART_NUMBER, R.MOD_SERIAL, R.MOD_SLOT]

/-- The fields of pages of type 0x00, page 1. -/
def fields00_1 : List Field :=
  [R.MOD1_STATE, R.MOD1_BOOT_KIND, R.MOD1_FAIL_CAUSE, R.MOD1_FAIL_DETAIL, R.MOD1_PHASE_STAMP, R.MOD1_M_ABSENT,
   R.MOD1_V_ABSENT, R.MOD1_S_ABSENT, R.MOD1_BRINGUP_FENCES, R.MOD1_LEAVE_STAMP, R.MOD1_ST_STATE]

/-- The fields of pages of type 0x01, page 0. -/
def fields01_0 : List Field :=
  [R.OASIS_LOOP_LIMIT_MS, R.OASIS_ROUND_LIMIT_MS, R.OASIS_HB_MISS_LIMIT, R.OASIS_OASIS_REPEAT_S,
   R.OASIS_HOST_SILENT_MS, R.OASIS_HB_NONCE, R.OASIS_HB_ECHO, R.OASIS_HB_MISSES, R.OASIS_OASIS_RESTARTS,
   R.OASIS_LAST_RESTART_STAMP, R.OASIS_LAST_RESTART_CAUSE, R.OASIS_LAST_HEARTBEAT_STAMP, R.OASIS_RESTARTING,
   R.OASIS_HOST_SILENT]

/-- The fields of pages of type 0x01, page 1. -/
def fields01_1 : List Field :=
  [R.OASIS1_NEXT_SEQ, R.OASIS1_OLDEST_SEQ, R.OASIS1_LOST, R.OASIS1_PERSISTED, R.OASIS1_STAGING_HIGH,
   R.OASIS1_POWER_ON, R.OASIS1_LOG_RECORDS, R.OASIS1_PERSIST_RECORDS, R.OASIS1_STAGING_FULL]

/-- The fields of pages of type 0x01, page 2. -/
def fields01_2 : List Field :=
  [R.OASIS2_NOW, R.OASIS2_SYNC_MODE, R.OASIS2_STEP_THRESHOLD_NS, R.OASIS2_RATE_PPB, R.OASIS2_OFFSET_NS,
   R.OASIS2_TIME_BOUND_NS, R.OASIS2_STEP_COUNT, R.OASIS2_LAST_STEP_OLD, R.OASIS2_LAST_STEP_NEW, R.OASIS2_PARENT,
   R.OASIS2_PTP_PORT, R.OASIS2_FIRST_STEP_OLD, R.OASIS2_FIRST_STEP_NEW, R.OASIS2_MAX_SLEW_PPM, R.OASIS2_EPOCH_SET,
   R.OASIS2_SYNC_STATE, R.OASIS2_TIME_FAR]

/-- The fields of pages of type 0x01, page 3. -/
def fields01_3 : List Field :=
  [R.OASIS3_SLOT_A_STATE, R.OASIS3_SLOT_B_STATE, R.OASIS3_RUNNING_SLOT, R.OASIS3_RUNNING_TRIAL,
   R.OASIS3_SLOT_A_VERSION, R.OASIS3_SLOT_B_VERSION, R.OASIS3_SLOT_A_SECURITY, R.OASIS3_SLOT_B_SECURITY,
   R.OASIS3_LAST_USTATUS, R.OASIS3_LAST_OP, R.OASIS3_FORWARD_DONE, R.OASIS3_BYTES_DONE, R.OASIS3_LAST_UPDATE_STAMP,
   R.OASIS3_FLASH_ERRORS, R.OASIS3_UPDATE_OPEN, R.OASIS3_FORWARDING]

/-- The fields of pages of type 0x02, page 0. -/
def fields02_0 : List Field :=
  [R.SEMA_INDEX, R.SEMA_OP, R.SEMA_LEASE_MS, R.SEMA_BREAKS, R.SEMA_EXPIRIES, R.SEMA_LAST_BREAK_STAMP,
   R.SEMA_BREAK_INDEX, R.SEMA_OLD_HOLDER, R.SEMA_OLD_SOURCE, R.SEMA_BREAK_CAUSE, R.SEMA_HELD_0, R.SEMA_HELD_1,
   R.SEMA_HOLDER_0, R.SEMA_HOLDER_1, R.SEMA_SOURCE_0, R.SEMA_SOURCE_1, R.SEMA_WAITERS_0, R.SEMA_WAITERS_1,
   R.SEMA_GRANT_STAMP, R.SEMA_ENTRIES, R.SEMA_PAGE_SEMS, R.SEMA_MAX_WAITERS]

/-- The fields of pages of type 0x03, page 0. -/
def fields03_0 : List Field :=
  [R.VAULT_VAULT_FORMAT, R.VAULT_VAULT_SEQ, R.VAULT_VERIFY_STAMP, R.VAULT_VAULT_DIGEST, R.VAULT_FIELD_SEQ,
   R.VAULT_FIELD_FENCES, R.VAULT_COPY0_VALID, R.VAULT_COPY1_VALID, R.VAULT_COPY_IN_USE, R.VAULT_FIELD_RECORD_VALID]

/-- The fields of pages of type 0x03, page 1. -/
def fields03_1 : List Field :=
  [R.VAULT1_LOGICAL_0, R.VAULT1_LOGICAL_1, R.VAULT1_LOGICAL_2, R.VAULT1_LOGICAL_3, R.VAULT1_LOGICAL_4,
   R.VAULT1_LOGICAL_5, R.VAULT1_LOGICAL_6, R.VAULT1_LOGICAL_7, R.VAULT1_CARRYING_0, R.VAULT1_CARRYING_1,
   R.VAULT1_CARRYING_2, R.VAULT1_CARRYING_3, R.VAULT1_CARRYING_4, R.VAULT1_CARRYING_5, R.VAULT1_CARRYING_6,
   R.VAULT1_CARRYING_7, R.VAULT1_FACTORY_FAIL_0, R.VAULT1_FACTORY_FAIL_1, R.VAULT1_FACTORY_FAIL_2,
   R.VAULT1_FACTORY_FAIL_3, R.VAULT1_FACTORY_FAIL_4, R.VAULT1_FACTORY_FAIL_5, R.VAULT1_FACTORY_FAIL_6,
   R.VAULT1_FACTORY_FAIL_7]

/-- The fields of pages of type 0x04, page 0. -/
def fields04_0 : List Field :=
  [R.KEYS_CERT_SLOTS, R.KEYS_MEAS_INDICES, R.KEYS_IDENTITY_READY, R.KEYS_TRIAL_BOOT, R.KEYS_BOOT_SLOT,
   R.KEYS_DEVID_DIGEST, R.KEYS_WRAP_DIGEST, R.KEYS_ALIAS_DIGEST, R.KEYS_SECURITY_FLOOR, R.KEYS_IMAGE_VERSION,
   R.KEYS_CHALLENGES, R.KEYS_MEAS_REQUESTS]

/-- The fields of pages of type 0x04, page 1. -/
def fields04_1 : List Field :=
  [R.KEYS1_IMPORTS, R.KEYS1_UNWRAP_FAILS, R.KEYS1_KEY_ID, R.KEYS1_LOADED, R.KEYS1_REFS, R.KEYS1_KEYS_LOADED]

/-- The fields of pages of type 0x08, page 0. -/
def fields08_0 : List Field :=
  [R.DIE_LAST_START_STAMP, R.DIE_LAST_CUT_STAMP, R.DIE_LAST_RELEASE_STAMP, R.DIE_MODE, R.DIE_CAUSE, R.DIE_COLD,
   R.DIE_DRAIN_US, R.DIE_LEFTOVER, R.DIE_INTERRUPTED, R.DIE_RSTATUS, R.DIE_STEP_LIMIT_US, R.DIE_NOBUF_LIMIT_MS,
   R.DIE_HANG_REPEAT_S, R.DIE_ESCALATE, R.DIE_ANY_CUT_STAMP, R.DIE_ANY_SCOPE, R.DIE_ANY_TARGET, R.DIE_CORE_RESETS,
   R.DIE_CLUSTER_RESETS, R.DIE_PARTITION_RESETS, R.DIE_WARM_DIE_RESETS, R.DIE_HANGS, R.DIE_ESCALATIONS,
   R.DIE_NOBUF_GIVEUPS, R.DIE_GEN_WAITS, R.DIE_GATED, R.DIE_DRAINING, R.DIE_RESTORING, R.DIE_CTL_COLD]

/-- The fields of pages of type 0x09, page 0. -/
def fields09_0 : List Field :=
  [R.PART_LAST_START_STAMP, R.PART_LAST_CUT_STAMP, R.PART_LAST_RELEASE_STAMP, R.PART_MODE, R.PART_CAUSE,
   R.PART_DRAIN_US, R.PART_LEFTOVER, R.PART_INTERRUPTED, R.PART_RSTATUS, R.PART_RAIL_MV, R.PART_RAISE_STEPS,
   R.PART_SLEWING, R.PART_GATED, R.PART_DRAINING, R.PART_RESTORING]

/-- The fields of pages of type 0x0A, page 0. -/
def fields0A_0 : List Field :=
  [R.CLU_M_SPARES, R.CLU_V_SPARES, R.CLU_S_SPARES, R.CLU_M_ABSENT, R.CLU_V_ABSENT, R.CLU_S_ABSENT,
   R.CLU_LAST_START_STAMP, R.CLU_LAST_CUT_STAMP, R.CLU_LAST_RELEASE_STAMP, R.CLU_MODE, R.CLU_CAUSE, R.CLU_DRAIN_US,
   R.CLU_LEFTOVER, R.CLU_INTERRUPTED, R.CLU_RSTATUS, R.CLU_GATED, R.CLU_DRAINING, R.CLU_RESTORING]

/-- The fields of pages of type 0x10, page 0. -/
def fields10_0 : List Field :=
  [R.MCORE_ENGINES, R.MCORE_SRAM_KIB, R.MCORE_DESC_SLOTS, R.MCORE_SEQ_RUN, R.MCORE_IDLE, R.MCORE_HOLDING,
   R.MCORE_RUNNING, R.MCORE_STEPS, R.MCORE_CREDIT_WAIT, R.MCORE_SHIFTED, R.MCORE_SPLIT_EXTRA, R.MCORE_ACT_WIDENED,
   R.MCORE_WIDENED, R.MCORE_RANGE_VIOL, R.MCORE_RANGE_EXCEEDED, R.MCORE_SLOW_TIER, R.MCORE_HOLLOW_OUT,
   R.MCORE_FAILED_TILES, R.MCORE_UNMATCHED, R.MCORE_LAST_RANGE_STAMP, R.MCORE_RANGE_STREAM, R.MCORE_RANGE_SEQ,
   R.MCORE_RANGE_DESC, R.MCORE_RANGE_NONFINITE]

/-- The fields of pages of type 0x10, page 1. -/
def fields10_1 : List Field :=
  [R.MCORE1_DESC_BASE, R.MCORE1_DESC_COUNT, R.MCORE1_STREAM_BASE, R.MCORE1_STREAM_COUNT, R.MCORE1_SLOW_VCORE,
   R.MCORE1_RANGE_ACTION, R.MCORE1_LAST_FIRE_STAMP, R.MCORE1_HOLD_STAMP, R.MCORE1_REEXEC_FRACTION,
   R.MCORE1_REEXEC_PATH, R.MCORE1_TOL_MULT, R.MCORE1_REEXEC_SALT, R.MCORE1_EFFECTIVE_FRACTION, R.MCORE1_TWIN_MAP,
   R.MCORE1_REEXEC_TILES, R.MCORE1_REEXEC_MISMATCHES, R.MCORE1_REEXEC_SKIPPED, R.MCORE1_LAST_MISMATCH_STAMP,
   R.MCORE1_MISMATCH_ENGINE, R.MCORE1_MISMATCH_CHANNEL, R.MCORE1_MISMATCH_PATH]

/-- The fields of pages of type 0x11, page 0. -/
def fields11_0 : List Field :=
  [R.POST_CORR_EN, R.POST_CG_A_0, R.POST_CO_A_0, R.POST_CG_A_1, R.POST_CO_A_1, R.POST_CG_B_0, R.POST_CO_B_0,
   R.POST_CG_B_1, R.POST_CO_B_1, R.POST_ACC_BITS, R.POST_ACC_FRAC, R.POST_BUF0_BUSY, R.POST_BUF1_BUSY]

/-- The fields of pages of type 0x11, page 1. -/
def fields11_1 : List Field :=
  [R.POST1_XLO, R.POST1_SEG_SCALE, R.POST1_SLOPE, R.POST1_INTERCEPT]

/-- The fields of pages of type 0x12, page 0. -/
def fields12_0 : List Field :=
  [R.ENG_ROWS, R.ENG_SLICES, R.ENG_PILOT_SLICES, R.ENG_MAX_ACTIVE_ROWS, R.ENG_PILOT_EN, R.ENG_ZERO_SKIP,
   R.ENG_PILOT_NOW, R.ENG_A_STATE, R.ENG_B_STATE, R.ENG_A_IN_USE, R.ENG_B_IN_USE, R.ENG_A_RETRIM, R.ENG_B_RETRIM,
   R.ENG_A_DRIFT_HARD, R.ENG_B_DRIFT_HARD, R.ENG_PILOT_STALE, R.ENG_EPOCH0_BANK, R.ENG_EPOCH1_BANK,
   R.ENG_EPOCH2_BANK, R.ENG_EPOCH3_BANK, R.ENG_ACTIVE, R.ENG_MODE, R.ENG_RES_BITS, R.ENG_GROUP_ROWS,
   R.ENG_CLIP_ACTION, R.ENG_CLIPS, R.ENG_CLIP_TILES, R.ENG_SPLITS, R.ENG_REPEATS, R.ENG_REPEAT_CYCLES,
   R.ENG_TILE_COUNT, R.ENG_BUSY_CYCLES, R.ENG_LAST_CLIP_STAMP, R.ENG_CLIP_GROUP, R.ENG_CLIP_PLANE, R.ENG_CLIP_SLICE,
   R.ENG_CLIP_SIDE, R.ENG_CLIP_BITS, R.ENG_CLIP_EPOCH, R.ENG_CLIP_BANK]

/-- The fields of pages of type 0x12, page 1. -/
def fields12_1 : List Field :=
  [R.ENG1_INTERVAL, R.ENG1_FILTER_SHIFT, R.ENG1_TRACK_STAGED, R.ENG1_GAIN_LIMIT, R.ENG1_OFFSET_LIMIT,
   R.ENG1_LIN_LIMIT, R.ENG1_JUMP_LIMIT, R.ENG1_SWEEPS, R.ENG1_FORCED, R.ENG1_SWEEP_STAMP_A, R.ENG1_SWEEP_STAMP_B,
   R.ENG1_GAIN_A, R.ENG1_GAIN_B, R.ENG1_OFFSET_A, R.ENG1_OFFSET_B, R.ENG1_SPAN_BASE_A, R.ENG1_SPAN_BASE_B,
   R.ENG1_ZERO_BASE_A, R.ENG1_ZERO_BASE_B, R.ENG1_READ_A_LO, R.ENG1_READ_B_LO, R.ENG1_READ_A_HI, R.ENG1_READ_B_HI]

/-- The fields of pages of type 0x13, page 0. -/
def fields13_0 : List Field :=
  [R.WPROG_RATED, R.WPROG_MAX_PASSES, R.WPROG_BUSY, R.WPROG_QUEUED, R.WPROG_A_WORN, R.WPROG_B_WORN, R.WPROG_PROG_SRC,
   R.WPROG_PROG_CRC, R.WPROG_BANK, R.WPROG_IMAGE_FMT, R.WPROG_MODE, R.WPROG_PURPOSE, R.WPROG_START, R.WPROG_ABORT,
   R.WPROG_PASS, R.WPROG_ROW, R.WPROG_RESULT, R.WPROG_PROG_START_STAMP, R.WPROG_PROG_END_STAMP, R.WPROG_DEFER_UNTIL,
   R.WPROG_P1_ROWS, R.WPROG_P2_ROWS, R.WPROG_P3_ROWS, R.WPROG_FAILED_ROWS, R.WPROG_FORCED_VERIFIES, R.WPROG_JSRC_A,
   R.WPROG_JSRC_B, R.WPROG_JCRC_A, R.WPROG_JCRC_B, R.WPROG_JFMT_A, R.WPROG_JFMT_B, R.WPROG_JSEQ_A, R.WPROG_JSEQ_B,
   R.WPROG_ROW_MAX_A, R.WPROG_ROW_MAX_B, R.WPROG_OPS_A, R.WPROG_OPS_B, R.WPROG_ROW_TOTAL_A, R.WPROG_ROW_TOTAL_B,
   R.WPROG_PLAN_DAYS, R.WPROG_BURST, R.WPROG_RESERVE, R.WPROG_DEFER_MAX, R.WPROG_ELAPSED, R.WPROG_SWAP_LIMIT,
   R.WPROG_RETRIM_LIMIT]

/-- The fields of pages of type 0x14, page 0. -/
def fields14_0 : List Field :=
  [R.VCORE_LANES, R.VCORE_TILE_DIM, R.VCORE_SRAM_MIB, R.VCORE_KERNEL_SLOTS, R.VCORE_RUN, R.VCORE_STANDIN_EN,
   R.VCORE_IDLE, R.VCORE_STEP_RUNNING, R.VCORE_STANDIN_ACTIVE, R.VCORE_STANDIN_QUEUE, R.VCORE_TAINTED,
   R.VCORE_KTAB_BASE, R.VCORE_KTAB_COUNT, R.VCORE_KERNEL_LIMIT, R.VCORE_KV_POOL_BASE, R.VCORE_KV_POOL_PAGES,
   R.VCORE_PAGE_UNITS, R.VCORE_KV_FREE, R.VCORE_KV_RESERVED, R.VCORE_STEPS, R.VCORE_STANDIN_TILES,
   R.VCORE_STANDIN_FAILED, R.VCORE_FP8_CLAMPS, R.VCORE_HOLLOW_OUT, R.VCORE_HBM_BYTES, R.VCORE_KV_REFUSALS,
   R.VCORE_UNMATCHED, R.VCORE_LAST_FIRE_STAMP, R.VCORE_KV_PT_BASE, R.VCORE_PT_ENTRIES]

/-- The fields of pages of type 0x15, page 0. -/
def fields15_0 : List Field :=
  [R.SCORE_SRAM_KIB, R.SCORE_PMP_ENTRIES, R.SCORE_RUN, R.SCORE_CODE_LOCK, R.SCORE_RUNNING, R.SCORE_WFI,
   R.SCORE_TRAPPED, R.SCORE_BOOT_ADDR, R.SCORE_CODE_LIMIT, R.SCORE_ROLE, R.SCORE_HEARTBEAT_LIMIT,
   R.SCORE_LAST_HEARTBEAT, R.SCORE_LAST_TRAP_CAUSE, R.SCORE_LAST_TRAP_TVAL, R.SCORE_LAST_TRAP_STAMP,
   R.SCORE_PIPS_RECEIVED]

/-- The fields of pages of type 0x16, page 0. -/
def fields16_0 : List Field :=
  [R.PCORE_KIND, R.PCORE_CARRYING, R.PCORE_LOGICAL, R.PCORE_FENCED, R.PCORE_LEVEL, R.PCORE_VRAISE_STEPS,
   R.PCORE_EVIDENCE_COUNT, R.PCORE_LAST_EVIDENCE_STAMP, R.PCORE_LAST_EVIDENCE_KIND, R.PCORE_LAST_EVIDENCE_ENGINE,
   R.PCORE_VOLT_STEPS_PER_EVENT, R.PCORE_WATCH_FRACTION, R.PCORE_ADVANCE_HOLD_MS, R.PCORE_QUIET_DAYS,
   R.PCORE_SRAM_CE, R.PCORE_SRAM_UE, R.PCORE_LAST_SRAM_UE_ADDR, R.PCORE_FENCE_STAMP, R.PCORE_LIVE_STAMP,
   R.PCORE_REPLACED_BY, R.PCORE_FENCE_LIST_LEN]

/-- The fields of pages of type 0x16, page 1. -/
def fields16_1 : List Field :=
  [R.PCORE1_TEST_KIND, R.PCORE1_PASSED, R.PCORE1_ENGINE_FAIL, R.PCORE1_SRAM_FAIL, R.PCORE1_LOGIC_FAIL,
   R.PCORE1_NI_FAIL, R.PCORE1_TEST_STAMP, R.PCORE1_SIGNATURE]

/-- The fields of pages of type 0x18, page 0. -/
def fields18_0 : List Field :=
  [R.ROUTER_PORTS, R.ROUTER_ATTACHMENT, R.ROUTER_LINK_FAILED, R.ROUTER_OUT_FAILED, R.ROUTER_MAP_BANK, R.ROUTER_HELD,
   R.ROUTER_MAP_VER, R.ROUTER_MAP_SWITCH, R.ROUTER_CRC_ERRORS, R.ROUTER_RETRIES, R.ROUTER_GEN_DROPS,
   R.ROUTER_REDIRECTS, R.ROUTER_LAST_DROP_STAMP, R.ROUTER_DROP_DEST, R.ROUTER_DROP_STREAM, R.ROUTER_DROP_SEQ,
   R.ROUTER_DROP_GEN, R.ROUTER_FLITS, R.ROUTER_NEAR_STACK, R.ROUTER_NEAR_HOPS, R.ROUTER_DIST_TARGET, R.ROUTER_Q_HOPS,
   R.ROUTER_Q_SEAM, R.ROUTER_Q_VALID, R.ROUTER_Q_LAT_PS, R.ROUTER_HOPS, R.ROUTER_SEAM, R.ROUTER_LAT_PS]

/-- The fields of pages of type 0x18, page 1. -/
def fields18_1 : List Field :=
  [R.ROUTER1_PHYS_0, R.ROUTER1_PHYS_1, R.ROUTER1_PHYS_2, R.ROUTER1_PHYS_3, R.ROUTER1_PHYS_4, R.ROUTER1_PHYS_5,
   R.ROUTER1_PHYS_6, R.ROUTER1_PHYS_7, R.ROUTER1_ABSENT_0, R.ROUTER1_ABSENT_1, R.ROUTER1_ABSENT_2,
   R.ROUTER1_ABSENT_3, R.ROUTER1_ABSENT_4, R.ROUTER1_ABSENT_5, R.ROUTER1_ABSENT_6, R.ROUTER1_ABSENT_7,
   R.ROUTER1_MAP_ENTRIES]

/-- The fields of pages of type 0x19, page 0. -/
def fields19_0 : List Field :=
  [R.SEAM_EW_PIP, R.SEAM_EW_REQ, R.SEAM_EW_RESP, R.SEAM_EW_MGMT, R.SEAM_WE_PIP, R.SEAM_WE_REQ, R.SEAM_WE_RESP,
   R.SEAM_WE_MGMT, R.SEAM_ADDED_PS, R.SEAM_RESCALES, R.SEAM_FLITS_EW, R.SEAM_FLITS_WE, R.SEAM_HIGH_EW,
   R.SEAM_HIGH_WE, R.SEAM_RESCALE_STAMP, R.SEAM_QUEUE_DEPTH, R.SEAM_WEST_HELD, R.SEAM_EAST_HELD]

/-- The fields of pages of type 0x20, page 0. -/
def fields20_0 : List Field :=
  [R.HBM_STACK_GIB, R.HBM_CHANNELS, R.HBM_PSEUDO_CHANNELS, R.HBM_TRAINED, R.HBM_RATE, R.HBM_SELF_REFRESH,
   R.HBM_FAILED, R.HBM_INITIALISED, R.HBM_INTERLEAVE_GIB, R.HBM_SEALED_BASE, R.HBM_SEALED_LIMIT, R.HBM_READ_BYTES,
   R.HBM_WRITE_BYTES, R.HBM_SEALED_DENIALS, R.HBM_LAST_DENIED_ADDR]

/-- The fields of pages of type 0x20, page 1. -/
def fields20_1 : List Field :=
  [R.HBM1_SCRUB_EN, R.HBM1_SCRUB_PERIOD_H, R.HBM1_SCRUB_PTR, R.HBM1_PASSES, R.HBM1_SCRUB_LATE, R.HBM1_CE_COUNT,
   R.HBM1_UE_COUNT, R.HBM1_TAG_ERRORS, R.HBM1_HOLLOW_READS, R.HBM1_LAST_CE_ADDR, R.HBM1_LAST_UE_ADDR,
   R.HBM1_LAST_UE_STAMP, R.HBM1_HOLLOW_WRITES]

/-- The fields of pages of type 0x28, page 0. -/
def fields28_0 : List Field :=
  [R.HOST_MAC_ADDR, R.HOST_PORT_EN, R.HOST_SPEED, R.HOST_MTU, R.HOST_PFC_TX_EN, R.HOST_PFC_RX_MASK, R.HOST_XOFF_KIB,
   R.HOST_XON_KIB, R.HOST_FRAMES_RX, R.HOST_FRAMES_TX, R.HOST_FEC_CORRECTED, R.HOST_FEC_UNCORRECTED, R.HOST_RX_DROPS,
   R.HOST_PAUSED_US, R.HOST_LLDP_CHASSIS, R.HOST_LLDP_PORT, R.HOST_LLDP_STAMP, R.HOST_LINK_UP, R.HOST_SPEED_ACTIVE,
   R.HOST_FEC_LOCKED, R.HOST_LOCAL_FAULT, R.HOST_REMOTE_FAULT]

/-- The fields of pages of type 0x28, page 1. -/
def fields28_1 : List Field :=
  [R.HOST1_IPV4_ADDR, R.HOST1_IPV4_PREFIX, R.HOST1_IPV4_EN, R.HOST1_IPV6_HI, R.HOST1_IPV6_LO, R.HOST1_IPV6_PREFIX,
   R.HOST1_IPV6_EN, R.HOST1_VLAN_ID, R.HOST1_ROCE_PCP, R.HOST1_CNP_PCP, R.HOST1_ROCE_DSCP, R.HOST1_CNP_DSCP,
   R.HOST1_PTP_PCP, R.HOST1_CNP_INTERVAL_US, R.HOST1_RATE_INC_US, R.HOST1_MIN_RATE_MBPS, R.HOST1_G_SHIFT,
   R.HOST1_CNP_TX, R.HOST1_CNP_RX, R.HOST1_ECN_CE_RX, R.HOST1_INBOUND_RDMA_REJECTS, R.HOST1_QPS_CONNECTED]

/-- The fields of pages of type 0x28, page 2. -/
def fields28_2 : List Field :=
  [R.HOST2_PTP_EN, R.HOST2_DOMAIN, R.HOST2_TRANSPORT, R.HOST2_TIME_SOURCE, R.HOST2_PORT_STATE, R.HOST2_GM_IDENTITY,
   R.HOST2_OFFSET_NS, R.HOST2_PATH_DELAY_NS, R.HOST2_SYNC_STAMP, R.HOST2_SYNC_RX, R.HOST2_PTP_DISCARDS]

/-- The fields of pages of type 0x29, page 0. -/
def fields29_0 : List Field :=
  [R.QP_LOCAL_QPN, R.QP_REMOTE_QPN, R.QP_REMOTE_IP_HI, R.QP_REMOTE_IP_LO, R.QP_NEXT_HOP_MAC, R.QP_PMTU,
   R.QP_RETRY_CNT, R.QP_RNR_RETRY, R.QP_ACK_TIMEOUT, R.QP_SQ_PSN, R.QP_RQ_PSN, R.QP_SLOTS_FREE, R.QP_SEMS_HELD,
   R.QP_SUBSCRIBED, R.QP_READS_OUT, R.QP_COMMANDS, R.QP_COMPLETIONS, R.QP_RETRANSMITS, R.QP_RNR_NAKS_SENT,
   R.QP_RATE_MBPS, R.QP_CNPS, R.QP_CLOSE, R.QP_CONNECT_STAMP, R.QP_STATE, R.QP_PORT]

/-- The fields of pages of type 0x30, page 0. -/
def fields30_0 : List Field :=
  [R.BORSAN_LANES, R.BORSAN_MIN_LANES, R.BORSAN_LINK, R.BORSAN_FIBRE_REVERSED, R.BORSAN_DETOURING,
   R.BORSAN_RESEND_WAIT, R.BORSAN_LINK_EN, R.BORSAN_FRAMES_TX, R.BORSAN_FRAMES_RX, R.BORSAN_CRC_ERRORS,
   R.BORSAN_RETRIES, R.BORSAN_DETOURED, R.BORSAN_UNROUTABLE, R.BORSAN_TRANSIT_REDIRECTS, R.BORSAN_RESENT,
   R.BORSAN_LINK_LAT_PS, R.BORSAN_TIME_OFFSET_PS, R.BORSAN_LAST_DOWN_STAMP, R.BORSAN_EP_INDEX, R.BORSAN_EP_DATA]

/-- The fields of pages of type 0x30, page 1. -/
def fields30_1 : List Field :=
  [R.BORSAN1_LANE_ENABLE, R.BORSAN1_LANE_GOOD, R.BORSAN1_LANE_ACTIVE, R.BORSAN1_ACTIVE_COUNT, R.BORSAN1_SPARE_LANE,
   R.BORSAN1_TX_ACTIVE_COUNT, R.BORSAN1_FEC_CORRECTED, R.BORSAN1_FEC_UNCORRECTED, R.BORSAN1_RX_POWER,
   R.BORSAN1_RX_POSITION, R.BORSAN1_TX_LIGHT_IN, R.BORSAN1_LAST_LANE_STAMP, R.BORSAN1_SPARE_IN_USE]

/-- The fields of pages of type 0x31, page 0. -/
def fields31_0 : List Field :=
  [R.TORUS_ROUTE_VER, R.TORUS_ACTIVE_BANK, R.TORUS_SWITCH_STAMP, R.TORUS_ROUTE_SETTLE_US, R.TORUS_ROUTE_HOLD_US,
   R.TORUS_ROUTE_INDEX, R.TORUS_ROUTE_BANK, R.TORUS_ROUTE_ENTRY, R.TORUS_ROUTE_HOPS, R.TORUS_LINKS_DOWN,
   R.TORUS_UNREACHABLE_COUNT, R.TORUS_LAST_LSN_STAMP, R.TORUS_SWITCH_PENDING, R.TORUS_HOLDING]

/-- The fields of pages of type 0x31, page 1. -/
def fields31_1 : List Field :=
  [R.TORUS1_SIZE_POSITION, R.TORUS1_PLAN_ID, R.TORUS1_DSTATE, R.TORUS1_CLASS, R.TORUS1_IDLE, R.TORUS1_PEER_SERIAL,
   R.TORUS1_EXPECTED, R.TORUS1_TIME_PARENT, R.TORUS1_ROOT_HOPS, R.TORUS1_TIME_BOUND_PS, R.TORUS1_AGREE_TIMEOUT_MS,
   R.TORUS1_PLAN_LOADED, R.TORUS1_AGREED, R.TORUS1_OVERRIDE_IN_FORCE]

/-- The fields of pages of type 0x31, page 2. -/
def fields31_2 : List Field :=
  [R.TORUS2_TRANSPORT_FAILS, R.TORUS2_ARITH_MISMATCHES, R.TORUS2_HOLLOW_CHUNKS, R.TORUS2_TIMEOUTS,
   R.TORUS2_OVERFLOWS, R.TORUS2_EXACT_SHIFTS, R.TORUS2_LAST_MISMATCH_STAMP, R.TORUS2_MISMATCH_ID,
   R.TORUS2_MISMATCH_HOP, R.TORUS2_MISMATCH_FROM, R.TORUS2_COLL_TIMEOUT_US, R.TORUS2_C_OP, R.TORUS2_C_EXACT,
   R.TORUS2_C_OPFMT, R.TORUS2_C_DIMS, R.TORUS2_C_DET, R.TORUS2_C_VALID, R.TORUS2_C_XC, R.TORUS2_C_ROOT,
   R.TORUS2_C_IN_STREAM, R.TORUS2_C_ELEMENTS, R.TORUS2_C_CHUNK_BLOCKS, R.TORUS2_C_OUT_STREAM, R.TORUS2_C_OUT_DEST,
   R.TORUS2_C_SEED, R.TORUS2_C_BUF_ADDR, R.TORUS2_C_INSTANCE]

/-- The fields of pages of type 0x32, page 0. -/
def fields32_0 : List Field :=
  [R.CARAVAN_SHARD_TIMEOUT_MS, R.CARAVAN_SHARDS_IN, R.CARAVAN_SHARDS_FORWARDED, R.CARAVAN_RETRIES,
   R.CARAVAN_HOST_REQUESTS, R.CARAVAN_DIGEST_FAILS, R.CARAVAN_CORE_IMAGE_FAILS, R.CARAVAN_LAST_NEED_STAMP,
   R.CARAVAN_NEED_VARIANT, R.CARAVAN_NEED_SHARD, R.CARAVAN_OWN_EXPECTED, R.CARAVAN_OWN_HELD, R.CARAVAN_TRANSIT_OUT,
   R.CARAVAN_COMPLETE, R.CARAVAN_NEEDED, R.CARAVAN_RETAIN, R.CARAVAN_RETRY_CAP, R.CARAVAN_BROADCAST_ACTIVE]

/-- The fields of pages of type 0x38, page 0. -/
def fields38_0 : List Field :=
  [R.SERVE_RINGS, R.SERVE_TENANTS, R.SERVE_SERVE_EN, R.SERVE_QUEUE_FULL, R.SERVE_OPEN, R.SERVE_QUEUED,
   R.SERVE_CONTEXTS, R.SERVE_QUEUE_MAX, R.SERVE_RETRY_US, R.SERVE_ACCEPTED, R.SERVE_ENDED, R.SERVE_BUSY_REFUSALS,
   R.SERVE_OTHER_REFUSALS, R.SERVE_ABNORMAL_ENDS, R.SERVE_LATE_CANCELS, R.SERVE_END_TABLE_DEPTH,
   R.SERVE_CMD_TABLE_DEPTH]

/-- The fields of pages of type 0x38, page 1. -/
def fields38_1 : List Field :=
  [R.SERVE1_MAX_ACTIVE, R.SERVE1_PREFILL_CHUNK, R.SERVE1_DECODE_TURNS, R.SERVE1_PREFILL_TURNS, R.SERVE1_STARVE_US,
   R.SERVE1_PREFILL_INFLIGHT, R.SERVE1_DECODE_SETS, R.SERVE1_PREFILL_POSITIONS, R.SERVE1_STARVE_PROMOTIONS,
   R.SERVE1_THROTTLE_SKIPS]

/-- The fields of pages of type 0x38, page 2. -/
def fields38_2 : List Field :=
  [R.SERVE2_STATE, R.SERVE2_HEAD, R.SERVE2_EPOCH, R.SERVE2_PREEMPT, R.SERVE2_CONTEXTS, R.SERVE2_OPEN,
   R.SERVE2_MAX_POSITIONS, R.SERVE2_DET_OK, R.SERVE2_DRAIN_LIMIT_MS, R.SERVE2_ADMIT_SCORE, R.SERVE2_STEP_SCORE,
   R.SERVE2_COMMIT_SCORE, R.SERVE2_VARIANTS]

/-- The fields of pages of type 0x39, page 0. -/
def fields39_0 : List Field :=
  [R.TENANT_RATE, R.TENANT_DEPTH, R.TENANT_PREFILL_W, R.TENANT_DECODE_W, R.TENANT_CLASS, R.TENANT_ENABLED,
   R.TENANT_MAX_OPEN, R.TENANT_BALANCE, R.TENANT_LAST_REFILL, R.TENANT_DEBIT_COUNT, R.TENANT_DEBIT_KIND,
   R.TENANT_PREFILL_CHARGED, R.TENANT_DECODE_CHARGED, R.TENANT_OPEN, R.TENANT_THROTTLES, R.TENANT_REFUSED]

/-- The fields of pages of type 0x3A, page 0. -/
def fields3A_0 : List Field :=
  [R.RING_HOST_ADDR, R.RING_RKEY, R.RING_QP, R.RING_SIZE_LOG2, R.RING_TENANT, R.RING_NEXT_SEQ, R.RING_CONSUMED,
   R.RING_DELIVERED, R.RING_REQUEST_ID, R.RING_SHADOW_ADDR, R.RING_LAST_COMMIT_STAMP, R.RING_DEADLINE,
   R.RING_FULL_STALLS, R.RING_DISCARDED, R.RING_BOUND, R.RING_OPEN, R.RING_FULL, R.RING_STALLED, R.RING_FIXED]

/-- The fields of pages of type 0x40, page 0. -/
def fields40_0 : List Field :=
  [R.MONCONV_SEQ_LEN, R.MONCONV_ENTRY_0, R.MONCONV_ENTRY_1, R.MONCONV_ENTRY_2, R.MONCONV_ENTRY_3, R.MONCONV_ENTRY_4,
   R.MONCONV_ENTRY_5, R.MONCONV_ENTRY_6, R.MONCONV_ENTRY_7, R.MONCONV_URGENT_CH, R.MONCONV_URGENT_GO,
   R.MONCONV_PASSES, R.MONCONV_RESTARTS, R.MONCONV_URGENT_COUNT, R.MONCONV_URGENT_DROPS, R.MONCONV_BG_EXPECTED,
   R.MONCONV_BG_DIFF, R.MONCONV_AGREE_RUN, R.MONCONV_RUN, R.MONCONV_CONVERTING, R.MONCONV_DISAGREE]

/-- The fields of pages of type 0x40, page 1. -/
def fields40_1 : List Field :=
  [R.MONCONV1_CODE, R.MONCONV1_CHANNEL, R.MONCONV1_VALID, R.MONCONV1_RESTARTED, R.MONCONV1_COUNT,
   R.MONCONV1_STAMP_LO, R.MONCONV1_URGENT_RESULT, R.MONCONV1_URGENT_STAMP]

/-- The fields of pages of type 0x41, page 0. -/
def fields41_0 : List Field :=
  [R.THERMAL_PART_LIMIT, R.THERMAL_FLOOR_NOW, R.THERMAL_TRIPS, R.THERMAL_ROUND_OVERRUNS, R.THERMAL_LAST_TRIP_STAMP,
   R.THERMAL_VALUE, R.THERMAL_SOURCE, R.THERMAL_FAULT, R.THERMAL_TRIP, R.THERMAL_STAMP_LO, R.THERMAL_THROTTLING,
   R.THERMAL_CRITICAL, R.THERMAL_SENSOR_FAULT, R.THERMAL_UNTRUSTED]

/-- The fields of pages of type 0x42, page 0. -/
def fields42_0 : List Field :=
  [R.PWRCAP_CAP_W, R.PWRCAP_BOARD_CAP, R.PWRCAP_EFFECTIVE_CAP, R.PWRCAP_WINDOW_MS, R.PWRCAP_HEADROOM_W,
   R.PWRCAP_UP_ROUNDS, R.PWRCAP_THERM_FLOOR, R.PWRCAP_POWER_LEVEL, R.PWRCAP_LEVEL, R.PWRCAP_FIRST_HALF,
   R.PWRCAP_PROG_CEILING, R.PWRCAP_P_LAST_W, R.PWRCAP_P_AVG_W, R.PWRCAP_P_PEAK_1MS_W, R.PWRCAP_LEVEL_CHANGES,
   R.PWRCAP_CLAMPS, R.PWRCAP_CAPPED, R.PWRCAP_CLAMPED, R.PWRCAP_TELEMETRY]

/-- The fields of pages of type 0x43, page 0. -/
def fields43_0 : List Field :=
  [R.AGEING_REPLAN_DAYS, R.AGEING_REPLAN_CAL, R.AGEING_REPLAN_NOW, R.AGEING_INTERVAL_BASE,
   R.AGEING_LAST_REPLAN_STAMP, R.AGEING_GUARD_MV, R.AGEING_AGE_LIMITED, R.AGEING_WORST_BANK,
   R.AGEING_WORST_PROJECTION, R.AGEING_DEGRADE_PPM]

/-- The fields of pages of type 0x48, page 0. -/
def fields48_0 : List Field :=
  [R.BOARD_SLOT, R.BOARD_STRAP_FLOAT, R.BOARD_SB_ADDR, R.BOARD_FAULTS, R.BOARD_FAULTS_NOW, R.BOARD_LEAK_STATE,
   R.BOARD_SB_COMMANDS, R.BOARD_SB_ERRORS, R.BOARD_LAST_FAULT_STAMP, R.BOARD_REVERSE_EVENTS, R.BOARD_LEAK,
   R.BOARD_SENSE_FALLBACK, R.BOARD_FLASH_OWNED]

/-- The fields of pages of type 0x48, page 1. -/
def fields48_1 : List Field :=
  [R.BOARD1_JEDEC_ID, R.BOARD1_SIZE_MIB, R.BOARD1_OCTAL_DTR, R.BOARD1_FLASH_READ_ERRORS]

/-- The fields of pages of type 0x100, page 0. -/
def fields100_0 : List Field :=
  [R.LCB_MTIME, R.LCB_MTIMECMP, R.LCB_RX_HEAD, R.LCB_RX_TAIL, R.LCB_TX_SEND, R.LCB_MAILBOX, R.LCB_HEARTBEAT,
   R.LCB_KV_TARGET, R.LCB_KV_OP, R.LCB_KV_SLOT, R.LCB_KV_SLOT2, R.LCB_KV_COUNT, R.LCB_KV_GO, R.LCB_KV_RESULT,
   R.LCB_COMMIT_DOORBELL]

/-- The fields of a block type's page; a page without any has the common header alone. -/
def fieldsOf (blk page : Nat) : List Field :=
  match blk, page with
  | 0x00, 0 => fields00_0
  | 0x00, 1 => fields00_1
  | 0x01, 0 => fields01_0
  | 0x01, 1 => fields01_1
  | 0x01, 2 => fields01_2
  | 0x01, 3 => fields01_3
  | 0x02, 0 => fields02_0
  | 0x03, 0 => fields03_0
  | 0x03, 1 => fields03_1
  | 0x04, 0 => fields04_0
  | 0x04, 1 => fields04_1
  | 0x08, 0 => fields08_0
  | 0x09, 0 => fields09_0
  | 0x0A, 0 => fields0A_0
  | 0x10, 0 => fields10_0
  | 0x10, 1 => fields10_1
  | 0x11, 0 => fields11_0
  | 0x11, 1 => fields11_1
  | 0x12, 0 => fields12_0
  | 0x12, 1 => fields12_1
  | 0x13, 0 => fields13_0
  | 0x14, 0 => fields14_0
  | 0x15, 0 => fields15_0
  | 0x16, 0 => fields16_0
  | 0x16, 1 => fields16_1
  | 0x18, 0 => fields18_0
  | 0x18, 1 => fields18_1
  | 0x19, 0 => fields19_0
  | 0x20, 0 => fields20_0
  | 0x20, 1 => fields20_1
  | 0x28, 0 => fields28_0
  | 0x28, 1 => fields28_1
  | 0x28, 2 => fields28_2
  | 0x29, 0 => fields29_0
  | 0x30, 0 => fields30_0
  | 0x30, 1 => fields30_1
  | 0x31, 0 => fields31_0
  | 0x31, 1 => fields31_1
  | 0x31, 2 => fields31_2
  | 0x32, 0 => fields32_0
  | 0x38, 0 => fields38_0
  | 0x38, 1 => fields38_1
  | 0x38, 2 => fields38_2
  | 0x39, 0 => fields39_0
  | 0x3A, 0 => fields3A_0
  | 0x40, 0 => fields40_0
  | 0x40, 1 => fields40_1
  | 0x41, 0 => fields41_0
  | 0x42, 0 => fields42_0
  | 0x43, 0 => fields43_0
  | 0x48, 0 => fields48_0
  | 0x48, 1 => fields48_1
  | 0x100, 0 => fields100_0
  | _, _ => []

/-- The INT_STATUS bits a page implements beyond [3:0], R50: the highest one of them, or 3. -/
def intTop (blk page : Nat) : Nat :=
  match blk, page with
  | 0x00, 1 => 5
  | 0x01, 0 => 6
  | 0x01, 1 => 5
  | 0x01, 2 => 6
  | 0x01, 3 => 5
  | 0x02, 0 => 5
  | 0x03, 0 => 4
  | 0x04, 0 => 5
  | 0x04, 1 => 5
  | 0x08, 0 => 6
  | 0x09, 0 => 6
  | 0x0A, 0 => 6
  | 0x10, 0 => 13
  | 0x12, 0 => 11
  | 0x13, 0 => 8
  | 0x14, 0 => 10
  | 0x15, 0 => 5
  | 0x16, 0 => 6
  | 0x18, 0 => 8
  | 0x19, 0 => 4
  | 0x20, 0 => 9
  | 0x20, 1 => 5
  | 0x28, 0 => 5
  | 0x28, 1 => 4
  | 0x28, 2 => 4
  | 0x29, 0 => 4
  | 0x30, 0 => 8
  | 0x31, 0 => 6
  | 0x31, 1 => 6
  | 0x31, 2 => 7
  | 0x32, 0 => 7
  | 0x38, 0 => 5
  | 0x38, 2 => 6
  | 0x39, 0 => 5
  | 0x3A, 0 => 5
  | 0x40, 0 => 5
  | 0x41, 0 => 6
  | 0x42, 0 => 6
  | 0x43, 0 => 5
  | 0x48, 0 => 5
  | _, _ => 3

end Sys2Proof.Machine
end

