-- ==== Sys2Proof/Machine/Tbl.lean ====
section
/-! DEFINITION. Sparse tables keyed by naturals: the model's form for large arrays of registers, records and memories.
A table is a list of pairs with rising keys; an absent key reads as nothing. -/

namespace Sys2Proof.Machine

/-- A sparse table. Equal tables kept by `Tbl.put` are equal lists. -/
abbrev Tbl (α : Type) := List (Nat × α)

/-- The entry of a key, if one is listed. -/
def Tbl.get? {α : Type} : Tbl α → Nat → Option α
  | [], _ => none
  | (k, v) :: t, x => if k = x then some v else Tbl.get? t x

/-- The entry of a key, or `d` where none is listed. -/
def Tbl.getD {α : Type} (t : Tbl α) (x : Nat) (d : α) : α := (Tbl.get? t x).getD d

/-- All entries of a key taken out. -/
def Tbl.del {α : Type} : Tbl α → Nat → Tbl α
  | [], _ => []
  | (k, v) :: t, x => if k = x then Tbl.del t x else (k, v) :: Tbl.del t x

/-- A new entry in key order, before the first larger key. -/
def Tbl.ins {α : Type} : Tbl α → Nat → α → Tbl α
  | [], x, a => [(x, a)]
  | (k, v) :: t, x, a => if x < k then (x, a) :: (k, v) :: t else (k, v) :: Tbl.ins t x a

/-- The entry of a key replaced. -/
def Tbl.put {α : Type} (t : Tbl α) (x : Nat) (a : α) : Tbl α := Tbl.ins (Tbl.del t x) x a

/-- The entry of a key replaced, listed only where it differs from the value an unlisted key reads as. -/
def Tbl.putD {α : Type} [DecidableEq α] (t : Tbl α) (d : α) (x : Nat) (a : α) : Tbl α :=
  if a = d then Tbl.del t x else Tbl.put t x a

/-- Keys rise strictly. -/
def Tbl.rising {α : Type} : Tbl α → Bool
  | [] => true
  | [_] => true
  | (k, _) :: (k', v') :: t => decide (k < k') && Tbl.rising ((k', v') :: t)

/-- The entries whose key satisfies a test. -/
def Tbl.keep {α : Type} (t : Tbl α) (p : Nat → α → Bool) : Tbl α := t.filter fun e => p e.1 e.2

/-- Every entry changed by a function of its key and value. -/
def Tbl.update {α : Type} (t : Tbl α) (f : Nat → α → α) : Tbl α := t.map fun e => (e.1, f e.1 e.2)

/-- The keys listed. -/
def Tbl.keys {α : Type} (t : Tbl α) : List Nat := t.map (·.1)

/-- The values listed. -/
def Tbl.vals {α : Type} (t : Tbl α) : List α := t.map (·.2)

end Sys2Proof.Machine
end

