-- ==== Sys2Proof/Machine/Types.lean ====
section
/-! DEFINITION. The records the state is made of: events and log records, open commands, queue pairs' transport state, and what
the block sends outside. -/

namespace Sys2Proof.Machine

/-- A unit's event on its way to the log, R515: what the unit stamped. -/
structure Event where
  stamp : Nat
  kind : Nat
  sev : Nat
  page : Nat
  ref : Nat
  details : List Nat
deriving DecidableEq, Repr

/-- A log record, R516. -/
structure LogRec where
  stamp : Nat
  seq : Nat
  kind : Nat
  sev : Nat
  persisted : Bool
  powerOn : Nat
  page : Nat
  ref : Nat
  logStamp : Nat
  details : List Nat
deriving DecidableEq, Repr

/-- What a host sees of the module's CM messages, R333. -/
inductive CmKind where
  | rep | rej (reason : Nat) | dreq | drep
deriving DecidableEq, Repr

/-- The frames a host port sends of its own, R327 to R330, R337. -/
inductive EthKind where
  | pfc (priority quanta : Nat)
  | cnp (qp : Nat)
  | arpReply | neighbourAdvert | lldp | ptpDelayReq | ptpResponse
deriving DecidableEq, Repr

/-- What the block sends outside. `out` in the state lists it, newest first. -/
inductive Out where
  /-- R338, R339: a COMPLETION. -/
  | completion (qp cmdId opcode result arrival send : Nat) (body : List Nat)
  /-- R342: an ACK. -/
  | ack (qp cmdId opcode arrival send : Nat)
  /-- R519: an EVENT message. -/
  | event (qp dropped : Nat) (recs : List LogRec)
  /-- R331: an invalid-request or remote-access NAK. -/
  | nak (qp : Nat) (remoteAccess : Bool)
  /-- R331: the transport's ACK of a SEND received, with the sequence number of its packet. -/
  | rcAck (qp psn : Nat)
  /-- R335: an RNR NAK with timer code 1. -/
  | rnrNak (qp : Nat)
  | rdmaWrite (qp addr rkey : Nat) (words : List Nat)
  | rdmaRead (qp addr rkey bytes : Nat)
  | retransmit (qp psn count : Nat)
  | cm (port : Nat) (kind : CmKind) (qp : Nat) (bytes : List Nat)
  | eth (port : Nat) (kind : EthKind) (words : List Nat)
  /-- R236: the route header of the packet that the next message leaves in. -/
  | route (header : Nat)
  /-- R234: a flit sent on a port of a router; a retry asked for on one. -/
  | flit (router port : Nat) (f : Flit)
  | retry (router port : Nat)
  /-- A message of the mesh's request, response or management classes: its kind, its destination and its fields. -/
  | mesh (kind : Nat) (dest : Nat) (words : List Nat)
  /-- A frame of a Borsan direction, R364: direction, type, destination and words. -/
  | borsan (dir type dest : Nat) (words : List Nat)
  /-- R559, R560: a sideband reply or alert. -/
  | sideband (words : List Nat)
  /-- A pin or rail level: 0 PWRGD, 1 SB_ALERT, 2 the input stage. -/
  | pin (pin : Nat) (level : Bool)
deriving DecidableEq, Repr

/-- R341: a command that has arrived and whose completion has not been sent. `effect`: it has taken effect; `body`: what
INQUIRE would return of it now; `sent`: a TIMED_OUT completion has been sent and the work goes on; `arg`: what the command's
own work needs to know of it. -/
structure OpenCmd where
  qp : Nat
  cmdId : Nat
  opcode : Nat
  arrival : Nat
  due : Nat
  effect : Bool := false
  sent : Bool := false
  body : List Nat := []
  arg : Nat := 0
deriving DecidableEq, Repr

/-- R292: the record kept of a command. -/
structure CmdRec where
  qp : Nat
  cmdId : Nat
  opcode : Nat
  result : Nat
  final : Bool
  body : List Nat
  req : Option Nat := none
deriving DecidableEq, Repr

/-- R340, R506: a command that waits to start, for its fence or for Oasis. -/
structure Held where
  opcode : Nat
  cmd : Cmd
  /-- The command as it came. -/
  instr : Instr
  /-- R342: when an ACK is due to a class Q command that still waits. -/
  ackAt : Option Nat := none
deriving DecidableEq, Repr

/-- What a queue pair holds beside its page: the transport stream of R331, the event subscription of R519, DCQCN's state. -/
structure QpSt where
  maxReads : Nat := 0
  unacked : List (Nat × Nat) := []
  /-- RDMA READs that wait to be issued: address, key and bytes. -/
  reads : List (Nat × Nat × Nat) := []
  retries : Nat := 0
  rnrRetries : Nat := 0
  subOn : Bool := false
  subMin : Nat := 0
  subMask : Nat := 0
  waiting : List (List LogRec) := []
  /-- Waiting messages that an EVENT_SUBSCRIBE has closed. -/
  closed : Nat := 0
  dropped : Nat := 0
  lastCnp : Nat := 0
  cnpSent : Bool := false
  /-- DCQCN: the estimate of congestion in units of 2^-32, the target rate, recovery steps done, the last step's time. -/
  alpha : Nat := 4294967296
  target : Nat := 0
  incStage : Nat := 0
  incAt : Nat := 0
deriving DecidableEq, Repr

/-- What a host port holds beside its pages: R325's down timer, R327's buffer and pauses, R337's exchange. -/
structure PortSt where
  downSince : Option Nat := none
  occKib : Nat := 0
  paused : Bool := false
  pauseDue : Nat := 0
  /-- Priorities paused by the link partner with the end of their pause, and the time up to which PAUSED_US counts. -/
  txPaused : List (Nat × Nat) := []
  pauseFrom : Nat := 0
  /-- The speed PORT_EN's last change from 0 to 1 put in force (R324). -/
  speed : Nat := 0
  lldpDue : Nat := 0
  syncSeq : Option Nat := none
  syncRx : Nat := 0
  syncTx : Nat := 0
  delayReqTx : Option (Nat × Nat) := none
  delaySeq : Nat := 0
  msOffset : Int := 0
deriving DecidableEq, Repr

/-- What a semaphore holds beside the SEMA page: R348's waiters (queue pair, command, LEASE_MS) and the
elapsed time at which the lease expires. -/
structure SemSt where
  waiters : List (Nat × Nat × Nat) := []
  lease : Option Nat := none
deriving DecidableEq, Repr

/-- R283: a context. -/
structure Ctx where
  reuse : Nat
  term : Bool := false
  variant : Nat
  tenant : Nat
  slot : Nat
  positions : Nat
  len : Nat := 0
  seed : Nat
  det : Bool
  req : Option Nat := none
deriving DecidableEq, Repr

/-- R288, R291: a request. `state` as R285's STATE; `fixed` holds the fixed STATUS and END_REASON. -/
structure Req where
  id : Nat
  ctx : Nat
  variant : Nat
  tenant : Nat
  cls : Nat
  ring : Nat
  qp : Nat
  greedy : Bool
  stops : List Nat
  maxNew : Nat
  deadline : Nat
  temp : Nat
  topP : Nat
  topK : Nat
  promptCount : Nat
  prompt : List Nat
  promptRead : Bool
  state : Nat := 1
  slot : Option Nat := none
  epoch : Nat := 0
  accept : Nat
  order : Nat
  endStamp : Nat := 0
  fixed : Option (Nat × Nat) := none
  notes : Nat := 0
  steps : Nat := 0
  tokens : Nat := 0
  lastSeq : Nat := 0
  endLen : Nat := 0
  /-- Prompt positions dispatched, and sets dispatched and not yet returned. -/
  sentPrompt : Nat := 0
  inflight : Nat := 0
  /-- A committed token waits to be dispatched as input. -/
  decodeReady : Bool := false
  readyAt : Nat := 0
  lastToken : Nat := 0
  promoted : Bool := false
  /-- An output of the request returned hollow or was lost: later positions do not complete. -/
  broken : Bool := false
  /-- The seed of its context (R121). -/
  seed : Nat := 0
deriving DecidableEq, Repr

/-- R298: a commit doorbell as the ring unit copies it. OP 0 TOKEN, 1 END, 2 TOKEN_END. `at_`: the S-core and the SRAM offset of the
descriptor that the ring unit reads when it takes the doorbell. -/
structure Doorbell where
  ring : Nat
  op : Nat
  status : Nat := 0
  reason : Nat := 0
  notes : Nat := 0
  token : Nat := 0
  position : Nat := 0
  ctxLen : Nat := 0
  at_ : Option (Nat × Nat) := none
deriving DecidableEq, Repr

/-- What a ring holds beside its page: doorbells that wait for room (R295), the next SEQ to deliver and the tail words sent and
not yet acknowledged (R296). -/
structure RingSt where
  waiting : List Doorbell := []
  deliver : Nat := 1
  tails : List Nat := []
deriving DecidableEq, Repr

/-- R300, R314 to R316: a variant's turn state and drain: turns taken of the cycle, prefill positions in flight, the kind a
promotion gives the next turn to, the elapsed time at which it became DRAINING, whether its drain set has been dispatched,
and the command that activates it. -/
structure VarSt where
  turn : Nat := 0
  prefillOut : Nat := 0
  promoteKind : Option Nat := none
  drainSince : Nat := 0
  drainSent : Bool := false
  activating : Option (Nat × Nat) := none
  retiring : Option (Nat × Nat) := none
  replaces : Option Nat := none
  preemptReplaced : Bool := false
  place : Placement := {}
deriving DecidableEq, Repr

/-- R212, R213: a V-core's KV pool: pages reserved and not yet allocated, by context slot; the page-table entries
(slot and entry) that use each allocated page slot, whose number is its share count. -/
structure KvPool where
  resv : Tbl Nat := []
  users : Tbl (List (Nat × Nat)) := []
deriving DecidableEq, Repr

/-! ### Engines, cores and programming -/

/-- R72 to R74, R110: one conversion of a quarter: the bank rows pulsed, its scale, its lossless resolution. -/
structure Conv where
  group : Nat
  plane : Nat
  quarter : Nat
  ones : List Nat
  scale : Nat
  bits : Nat
  sign : Bool
  /-- Rows of the conversion's group, driven or not. -/
  rows : Nat := 0
  /-- R73, R84: the SPLIT flag of its results. -/
  split : Bool := false
deriving DecidableEq, Repr

/-- R67, R71: a running tile: the conversions still to do, all of them for a repeat, the compressed resolution in force. `stamp`: the
Sandglass stamp of its first conversion, which its first result carries (R84). -/
structure Tile where
  step : Nat
  epoch : Nat
  bank : Nat
  all : List Conv
  todo : List Conv
  comp : Option Nat
  escalate : Bool
  wfmt : Nat
  quarters : Nat
  xref : Nat
  clipped : Bool := false
  repeated : Bool := false
  cycles : Nat := 0
  stamp : Nat := 0
deriving DecidableEq, Repr

/-- R86, R88, R92: a bank's sweep in progress, whether its next sweep loads unfiltered, its sweep clock and last sweep. `cold`: its first
sweep after a cold reset is still to come (R95). -/
structure PilotSt where
  block : Nat := 0
  sums : List Int := []
  wanted : Bool := false
  fresh : Bool := true
  everSwept : Bool := false
  clock : Nat := 0
  doneAt : Nat := 0
  cold : Bool := false
deriving DecidableEq, Repr

/-- What an engine and its post-unit hold beside their pages: the tile, the accumulators by slice (R187), the pilots. -/
structure EngSt where
  tile : Option Tile := none
  acc : Tbl Int := []
  pa : PilotSt := {}
  pb : PilotSt := {}
deriving DecidableEq, Repr

/-- R185: one engine of a step: 0 running, 1 held, 2 served from the slower tier, 3 done, 4 failed; its combined values; the output
buffer of its post-unit that the step holds (R168); the elapsed time and stamp at which its hold began, and whether that hold has
reached 200 us. -/
structure StepEng where
  eng : Nat
  state : Nat
  vals : List Int := []
  buf : Nat := 0
  since : Nat := 0
  stamp : Nat := 0
  late : Bool := false
deriving DecidableEq, Repr

/-- R191, R195: one emission of a step: its index, epoch and output values. -/
structure Emission where
  idx : Nat
  epoch : Nat
  vals : List Nat
  hollow : Bool
deriving DecidableEq, Repr

/-- R442: a tile of a step being checked: by the V-core (0), by the twin (1), or by the V-core after a twin that differed (2). -/
structure Check where
  eng : Nat
  path : Nat
  twin : Nat := 0
  twinVals : Option (List Int) := none
deriving DecidableEq, Repr

/-- A fired step, R176 to R179. `outq`: pips handed over and not yet sent, in order; `k`: next pip of the first emission. -/
structure Step where
  id : Nat
  desc : Nat
  words : List Nat
  seed : Nat := 0
  det : Bool := false
  slot : Nat := 0
  pips : List Pip
  n : Nat
  xref : Nat := 0x7F
  engs : List StepEng := []
  raised : Bool := false
  hollow : Bool := false
  slow : Bool := false
  done : Bool := false
  freed : Bool := false
  emis : List Emission := []
  k : Nat := 0
  outq : List Pip := []
  reserved : List (Nat × Nat) := []
  firedAt : Nat := 0
  rangeEx : Bool := false
  /-- R193, R439: the step has been recorded as a range violation. -/
  viol : Bool := false
  /-- The stream its pips carry. -/
  out : Nat := 0
  checks : List Check := []
deriving DecidableEq, Repr

/-- What an M-core holds beside its pages: fired steps in order, and the elapsed time since which a complete set waits only for
credits (MCORE.CREDIT_WAIT). -/
structure McSt where
  steps : List Step := []
  nextId : Nat := 0
  waitAt : Option Nat := none
deriving DecidableEq, Repr

/-- R191: an open window: its index, sets taken, values (which stand in SRAM between steps) and whether a hollow set entered it. -/
structure PoolWin where
  m : Nat
  count : Nat
  vals : List Nat
  hollow : Bool
deriving DecidableEq, Repr

/-- R191, R192: the pooling state of a stream's slot. -/
structure PoolSt where
  next : Nat := 0
  epoch : Nat := 0
  wins : List PoolWin := []
deriving DecidableEq, Repr

/-- R218: a stand-in request. -/
structure Standin where
  mcore : Nat
  step : Nat
  eng : Nat
  els : List (Int × Nat)
  xref : Nat
  firstRow : Nat
  quarters : Nat
  wfmt : Nat
  addr : Nat
  fmt : Nat
  crc : Nat
deriving DecidableEq, Repr

/-- A running kernel step, R209, R210. -/
structure KStep where
  entry : Nat
  words : List Nat
  pips : List Pip
  n : Nat
  firedAt : Nat
  overrun : Bool := false
  /-- Operations carried out (R120). -/
  ops : Nat := 0
deriving DecidableEq, Repr

/-- R213, R224: a KV command on its way from an S-core: KV_OP 0 RESERVE, 1 RELEASE, 2 SHARE. -/
structure KvCmd where
  score : Nat
  op : Nat
  slot : Nat
  slot2 : Nat
  count : Nat
deriving DecidableEq, Repr

/-- R271: a read of a stream engine that waits to be issued. -/
structure ReadReq where
  id : Nat
  addr : Nat
  n : Nat
  stack : Nat
deriving DecidableEq, Repr

/-- What a V-core holds beside its page: the running step, pips sent by steps and not yet injected with the credits
reserved for them (destination, stream, credits), waiting stand-in requests and KV commands. -/
structure VcSt where
  step : Option KStep := none
  outq : List Pip := []
  reserved : List (Nat × Nat × Nat) := []
  standins : List Standin := []
  kvq : List KvCmd := []
  /-- R271: reads of the stream engine outstanding (identifier, stack), and those ready that wait. -/
  reads : List (Nat × Nat) := []
  ready : List ReadReq := []
  /-- R205: the vector registers' lanes (64 a register), the hollow ones, the matrix tile's accumulators, the hollow ones, the value the
  scalar control unit last took. -/
  vregs : Tbl Nat := []
  vhol : List Nat := []
  acc : Tbl Nat := []
  accHol : List Nat := []
  ctl : Nat := 0
  /-- R135: pips that climbed the ladder; R238: sends that failed. -/
  widened : Nat := 0
  failed : Nat := 0
  /-- R124: where residuals of contexts stand: context index and SRAM offset. -/
  resids : List (Nat × Nat) := []
deriving DecidableEq, Repr

/-- What an S-core holds beside its pages: received pips by position, sends that wait for credits (R224), its trap registers
(R220, R221), pending timer and mailbox interrupts, its heartbeat's start, a firmware image arriving (R427), the result and the value of
its latest load or store (R59). -/
structure ScSt where
  rx : List (Nat × Pip) := []
  tx : List Nat := []
  mcause : Nat := 0
  mtval : Nat := 0
  mepc : Nat := 0
  mtvec : Nat := 0
  mpp : Nat := 0
  mie : Bool := false
  mpie : Bool := false
  mode : Nat := 3
  pc : Nat := 0
  result : Nat := 0
  value : Nat := 0
  /-- R220: the integer registers x1 up, the floating-point registers, fcsr, and the 16 protection entries; a short list reads as zeros. -/
  x : List Nat := []
  f : List Nat := []
  fcsr : Nat := 0
  pmpCfg : List Nat := []
  pmpAddr : List Nat := []
  timerIrq : Bool := false
  mailIrq : Bool := false
  beatAt : Nat := 0
  imgLen : Nat := 0
  imgChunks : List Nat := []
  imgRound : Nat := 0
  imgReport : Option (Bool × List Nat) := none
deriving DecidableEq, Repr

/-- R241: a channel of a producer: credits held, those reserved, GEN of the consumer, last use, the shortfall asked for and
when NO_BUFFER was first answered and must be asked again. -/
structure Chan where
  core : Nat
  dest : Nat
  stream : Nat
  credits : Nat := 0
  reserved : Nat := 0
  gen : Nat := 0
  usedAt : Nat := 0
  want : Nat := 0
  noBuf : Option Nat := none
  retryAt : Nat := 0
  refusals : Nat := 0
deriving DecidableEq, Repr

/-- R241: a credit request that waits at a consumer. -/
structure CredReq where
  producer : Nat
  dest : Nat
  stream : Nat
  n : Nat
  slot : Nat := 0xFFFF
  /-- The producer's GEN, which the grants echo (R244). -/
  rgen : Nat := 0
deriving DecidableEq, Repr

/-- A pip in an input buffer: its header as received (its payload stands in SRAM, `bytes` long), the Sandglass stamp of its arrival,
and the 16-byte units of SRAM that hold it (R238). -/
structure StoredPip where
  pip : Pip
  at_ : Nat
  bytes : Nat := 0
  units : List Nat := []
deriving DecidableEq, Repr

/-- R241: an input buffer: credits granted or occupied, requests waiting, pips held. -/
structure BufSt where
  used : Nat := 0
  queue : List CredReq := []
  pips : List StoredPip := []
deriving DecidableEq, Repr

/-- R146 to R150: a program operation queued, deferred or running. PURPOSE 3 is RESTART (R167). `verify`: rows waiting for
their verify read with the sub-steps done, whether all were within tolerance, whether forced, and the elapsed deadline. -/
structure ProgOp where
  src : Nat
  crc : Nat
  bank : Nat
  fmt : Nat
  touchUp : Bool
  purpose : Nat
  started : Nat
  deferUntil : Nat := 0
  image : List Nat := []
  pass : Nat := 1
  rows : List Nat := []
  pulsed : List Nat := []
  waiting : Bool := false
  bad : List Nat := []
  charged : List Nat := []
  verify : List (Nat × Nat × Bool × Bool × Nat) := []
  retry : Bool := false
  aborting : Bool := false
  /-- The end of the last pass is in the journal (R149). -/
  ended : Bool := false
  var : Option Nat := none
  /-- R453: a SPARE operation's epochs, bound to the bank when it is READY. -/
  epochs : List Nat := []
deriving DecidableEq, Repr

/-- An engine's programming: at most one operation queued and one running (R146). -/
structure ProgSt where
  queued : Option ProgOp := none
  running : Option ProgOp := none
  /-- A restart or retry owed by Oasis for a bank (R145, R150). -/
  owed : Option ProgOp := none
  /-- R453: a second SPARE operation. -/
  owed2 : Option ProgOp := none
  /-- R163: banks whose retrim is owed and waits. -/
  retrims : List Nat := []
deriving DecidableEq, Repr

/-- R149: a slot of a journal entry: the sequence number, the words it holds (bank state, image address, format and CRC, the pass
reached, the base values of R87, ROW_MAX, OPS and ROW_TOTAL) and the CRC-32C written with them. -/
structure JSlot where
  seq : Nat
  words : List Nat
  crc : Nat
deriving DecidableEq, Repr

/-! ### Resets and clocks -/

/-- R467: a reset in progress. `phase`: 1 gate (and drain, in drain mode), 2 a cut that waits under R470, 3 Reset, 4 Restore. -/
structure ResetRec where
  dom : Dom
  phase : Nat
  absorb : Bool
  cause : Nat
  cold : Bool := false
  startStamp : Nat
  startAt : Nat
  cutStamp : Nat := 0
  cutAt : Nat := 0
  drainUs : Nat := 0
  leftover : Nat := 0
  interrupted : Nat := 0
  cmd : List (Nat × Nat) := []
  /-- R471: streams of which the domain discarded a pip or held work, while in progress. -/
  streams : List Nat := []
  /-- Run bits to restore (R467), by core. -/
  runs : List Nat := []
  /-- DOMAIN_RESETs merged into this reset, those of narrower resets it took over, and those resets' domains (R478, R479). -/
  merged : List (Nat × Nat) := []
  taken : List (Nat × Nat) := []
  ovr : List Dom := []
  /-- R472: stand-in requests answered as failed, by V-core, sent once more at release. -/
  standins : List (Nat × Standin) := []
deriving DecidableEq, Repr

/-- R23, R25: the clocks in force in MHz. Core clocks by physical core where not nominal, with the newest setting ordered and not
yet applied; the mesh halves West and East, with the setting that a hold applies and the newest one that waits behind it. -/
structure Clocks where
  core : Tbl Nat := []
  corePend : Tbl Nat := []
  mesh : List Nat := [1500, 1500]
  hold : Tbl Nat := []
  next : Tbl Nat := []
deriving DecidableEq, Repr

/-- R232: a flit in a class's buffer of an input port: the output port it goes to, and when it became the first of its buffer. -/
structure FlitAt where
  f : Flit
  out : Nat
  since : Nat
deriving DecidableEq, Repr

/-- What the mesh holds beside its pages: failures in a row of the flit at each router port (R234), core-port links that have failed, map
versions whose switch waits for a held router (R247), and the acknowledgements of the switch in progress. Of the routers (R231 to R234): the
buffers of each input port and class, the output port of the packet in progress in each, hop credits spent by output port and class, the
input that holds an output port's class until its packet's tail, the input granted last there, and the retry buffers: the flits of each
output port that the receiver has not accepted. -/
structure MeshSt where
  fails : Tbl Nat := []
  dead : List Nat := []
  bufs : Tbl (List FlitAt) := []
  route : Tbl Nat := []
  spent : Tbl Nat := []
  owner : Tbl Nat := []
  turn : Tbl Nat := []
  wire : Tbl (List Flit) := []
  mapPend : Tbl Nat := []
  acks : List Nat := []
  switching : Option Nat := none
deriving DecidableEq, Repr

/-! ### The module and Oasis -/

/-- What bring-up and a leave hold beside MOD page 1: the elapsed time at which the phase began, physical cores tested, stacks whose
power-on fill is due (R275), the elapsed start of each scrub pass, the leave in progress (1 draining, 2 withdrawn) with its
limit, command and counts, whether 48 V is present and the rails are on. -/
structure ModSt where
  started : Bool := false
  phaseAt : Nat := 0
  tested : List Nat := []
  fillDue : List Nat := [0, 1, 2, 3, 4, 5, 6, 7, 8, 9, 10, 11]
  scrubAt : Tbl Nat := []
  leave : Nat := 0
  leaveDue : Nat := 0
  /-- LSN LEAVING has been flooded since the module last started. -/
  withdrawn : Bool := false
  leaveCmd : Option (Nat × Nat) := none
  interrupted : Nat := 0
  bound : Nat := 0
  powered : Bool := true
  /-- READY has been reached since the module last started (R56). -/
  ready : Bool := false
  railsOff : Bool := false
  /-- PWRGD is released; the protection latch of R555. -/
  pwrgd : Bool := true
  reverseLatch : Bool := false
  resetN : Bool := false
  alert : Bool := false
  sbAddr : Option Nat := none
  /-- R499: resets that wait, for the end of CORES or of a leave. -/
  late : List ResetRec := []
  /-- R274: a stack's training as its retention registers hold it: TRAINED, RATE, INITIALISED and FAILED. -/
  hbmKept : Tbl Nat := []
  /-- R466: when a reset that a hang caused released a physical core. -/
  hangAt : Tbl Nat := []
deriving DecidableEq, Repr

/-- What Oasis holds beside its pages: WD_ROUND's last keepalive and the restart in progress (R504 to R507), heartbeats that
wait for their echo (R508), the rest of a slew and the units of its rate (R511), sources that have locked (R513), firmware
being staged (R523) and each slot's RAISE_FLOOR (R422). -/
structure OaSt where
  roundAt : Nat := 0
  restartAt : Option Nat := none
  restartEnd : Option Nat := none
  beats : List (Nat × Nat × Nat × Nat) := []
  lastBeat : Option Nat := none
  echoStamp : Nat := 0
  slew : Int := 0
  slewFrac : Int := 0
  locked : List Nat := []
  holdAt : Nat := 0
  boundBase : Nat := 0
  /-- HB_MISSES has reached its limit, and WD_HOST is about to expire. -/
  hostDue : Bool := false
  /-- The image that was running when the restart began was an uncommitted trial. -/
  wasTrial : Bool := false
  restartCause : Nat := 0
  stage : Option (Nat × Nat × Nat) := none
  stageNext : Option Nat := none
  stageHost : Bool := false
  raise : Tbl Nat := []
  /-- R423: each slot's TRIAL_TRIES. -/
  tries : Tbl Nat := []
  fwChunks : List (Nat × Nat) := []
  /-- R426: who sends the image in FW_CHUNK frames and its version; failed retries, whether the copy is a resent one and when the last
  frame of it came; what is being forwarded. -/
  fwFrom : Option (Nat × Nat) := none
  fwFails : Nat := 0
  fwResent : Bool := false
  fwLast : Nat := 0
  fwSent : Option (Nat × Nat × Nat) := none
  activated : Bool := false
  /-- R422: the SHA-384 of each section of a slot's image, by `slot * 8 + TYPE`. -/
  sections : Tbl Nat := []
deriving DecidableEq, Repr

/-! ### Weights distribution and security -/

/-- R407 to R413: a shard of a registered variant at this module: held, kept in transit, or arriving. `got`: bytes of the
current copy; `fwd`: 0 not to forward, 1 waiting, 2 sent and unacknowledged, 3 acknowledged and freed; `order`: when it was verified. -/
structure ShardSt where
  held : Bool := false
  transit : Bool := false
  got : List (Nat × Nat) := []
  resent : Bool := false
  retries : Nat := 0
  asked : Option Nat := none
  fwd : Nat := 0
  order : Nat := 0
  again : Option Nat := none
  /-- R276: where its Husk stands in external memory. -/
  addr : Nat := 0
deriving DecidableEq, Repr

/-- R420: a queue pair's SPDM connection: what has been negotiated (1 version, 2 capabilities, 3 algorithms) and the messages of
its transcript. -/
structure SpdmSt where
  stage : Nat := 0
  transcript : List Nat := []
deriving DecidableEq, Repr

/-- R157, R415: a staging in progress: the shards whose PLAIN_DIGEST is still to verify, the engines whose operation has been
asked for, and the stamp to which the whole swap is deferred (0: not). -/
structure StageSt where
  shards : List Nat := []
  asked : List Nat := []
  deferUntil : Nat := 0
deriving DecidableEq, Repr

/-- R436: an item of CORE_TABLES kept for a variant: the logical core, its SRAM offset, where the plaintext stands in external memory, its
length. -/
structure Kept where
  var : Nat
  core : Nat
  off : Nat
  ext : Nat
  len : Nat
deriving DecidableEq, Repr

/-- What Oasis holds of keys, manifests and shards beside its pages: publisher keys and model keys by slot, manifests by variant, registrations
whose manifest is being read, shards by `variant * 2^17 + index`, HUSK_FETCHes in progress, the last SHARD arrival of each
variant, SPDM connections, stagings, and the verification order. -/
structure SecSt where
  pubs : Tbl Nat := []
  models : Tbl Nat := []
  mans : Tbl Manifest := []
  opening : Tbl (Nat × Nat) := []
  shards : Tbl ShardSt := []
  fetches : List (Nat × Nat × Nat × Nat) := []
  lastIn : Tbl Nat := []
  spdm : Tbl SpdmSt := []
  staging : Tbl StageSt := []
  order : Nat := 0
  /-- R277, R436: the items kept of each variant: tables of cores, and register settings as variant, address and value. -/
  kept : List Kept := []
  sets : List (Nat × Nat × Nat) := []
  /-- R416, R418: the runtime digest and the SECURITY_VERSION in the alias certificate in slot 0; none: those of the factory's image. -/
  aliasOf : Option (Nat × Nat) := none
deriving DecidableEq, Repr

/-- R277: the items kept of a variant are freed. -/
def SecSt.freeItems (x : SecSt) (v : Nat) : SecSt :=
  { x with kept := x.kept.filter fun k => k.var ≠ v, sets := x.sets.filter fun k => k.1 ≠ v }

/-- A variant's staging ends. -/
def SecSt.endStaging (x : SecSt) (v : Nat) : SecSt := { x with staging := Tbl.del x.staging v }

/-- R404, R414, R473: what a cold reset with 48 V present leaves: manifests and verified shards. -/
def SecSt.cold (x : SecSt) : SecSt :=
  { mans := x.mans,
    shards := Tbl.update x.shards fun _ h =>
      { held := h.held, transit := h.transit, fwd := if h.transit then 1 else 0, order := h.order, addr := h.addr },
    order := x.order }

/-! ### Sensing -/

/-- R531 to R534: a monitor converter: the entry of its sequence that comes next, the sequence in force for this pass, urgent
requests queued, how often the entry has been aborted in a row, whether its next result restarts, and its latest bandgap
code with the elapsed time it was taken. -/
structure ConvSt where
  entry : Nat := 0
  seq : List Nat := []
  urgent : List Nat := []
  aborts : Nat := 0
  restarted : Bool := false
  /-- An urgent conversion is under way, and its channel. -/
  running : Option Nat := none
  bandgap : Option (Nat × Nat) := none
deriving DecidableEq, Repr

/-- R536, R537: what the rounds keep of a sensor: rounds in a row beyond its partner's limit, without a new result, clean, at or
above SHUTDOWN; its raw code, the elapsed time of its latest result, and the result count last seen. -/
structure SensorSt where
  apart : Nat := 0
  stale : Nat := 0
  clean : Nat := 0
  shut : Nat := 0
  code : Nat := 0
  seenAt : Option Nat := none
deriving DecidableEq, Repr

/-- R450: a fence under way: the physical core, the stamp of its detecting event, the logical core it carried, the spare, and the streams
on its fence list. -/
structure Fencing where
  pc : Nat
  det : Nat
  ck : Option Nat
  spare : Option Nat
  streams : List Nat
deriving DecidableEq, Repr

/-- What Oasis keeps between slow rounds: converters and sensors; rounds in a row with TOUT below TIN, with the sense lines apart
and clean; when a partition's TJ reached THROTTLE; the end of each undervoltage limit; a rail's slew (target steps, end);
fences waiting in detection order with their stamps, and those under way; each core's last advance (R445) and last evidence; input powers of past
rounds, newest first, rounds below the cap, the previous round; corrections of HBM codewords and SRAM by time (R438);
agreeing bandgap comparisons; rounds the leak line has read dry; D sums of the day by cluster; the latest readings of the
digital telemetry; re-plan baselines. -/
structure SenseSt where
  conv : Tbl ConvSt := []
  sensors : Tbl SensorSt := []
  reversed : Nat := 0
  senseApart : Nat := 0
  senseClean : Nat := 0
  hotSince : Tbl Nat := []
  escalated : List Nat := []
  uvUntil : Tbl Nat := []
  rails : Tbl (Nat × Nat) := []
  fences : List (Nat × Nat) := []
  begun : List Fencing := []
  advAt : Tbl Nat := []
  lastEv : Tbl Nat := []
  powers : List Nat := []
  below : Nat := 0
  roundAt : Nat := 0
  clampLeft : Bool := false
  hbmCes : List (Nat × Nat) := []
  sramCes : List (Nat × Nat) := []
  weakDone : List (Nat × Nat) := []
  agree : Nat := 0
  leakDry : Nat := 0
  ageSums : Tbl (Int × Nat) := []
  /-- R545: the latest D of each cluster. -/
  ageD : Tbl Int := []
  replanAt : Nat := 0
  replanOwed : Bool := false
  rowBase : Tbl Nat := []
  trimBase : Tbl (Int × Int) := []
  v48 : Nat := 0
  i48 : Nat := 0
  flits : List Nat := []
  oc48 : Bool := false
deriving DecidableEq, Repr

/-! ### The torus -/

/-- R368: a return slot: the remote producer's module, core and channel, and its credits outstanding. -/
structure RSlot where
  module : Nat
  producer : Nat
  pdest : Nat
  target : Nat
  stream : Nat
  credits : Nat := 0
deriving DecidableEq, Repr

/-- What a Borsan direction holds beside its pages: sequence numbers and retry buffer with the times each frame was sent
(R363), frames that wait for link credits and the credits used (R364), frames held for the peer's LSN (R376), the time exchange
(R365), the HELLO run and the peer's last HELLO (R380 to R382), lanes retraining (R360). -/
structure DirSt where
  nextSeq : Nat := 0
  expect : Nat := 0
  retry : List (Frame × Nat) := []
  txq : List Frame := []
  /-- R364: the credits a virtual channel has, where they differ from the 16 KiB always granted. -/
  vcCred : Tbl Nat := []
  /-- R364: the credited class served last, and the frames each class has waited for while others left. -/
  lastCls : Nat := 3
  clsWait : Tbl Nat := []
  held : List Frame := []
  failedAt : Option Nat := none
  lanesLow : Bool := false
  helloAt : Nat := 0
  helloSent : List Nat := []
  helloRun : Nat := 0
  peer : Option Hello := none
  peerOkAt : Nat := 0
  upSince : Option Nat := none
  wentDark : Bool := false
  recabled : Bool := false
  peerT1 : Nat := 0
  peerT2 : Nat := 0
  timeAt : Nat := 0
  laneClean : Tbl Nat := []
  retrainAt : Nat := 0
deriving DecidableEq, Repr

/-- R388: a collective at its unit: the contribution pips held (format, source, payload and hollow mark, in arrival order, with the
resends asked of each), the invocation under way: the vector as FP32 words or INT32 values, hollow blocks, the step in progress
with the blocks it has received, the blocks in their link format, chunks kept for a resend, failures by step and block, chunks
received ahead; chunks requantised since VALID was set and the residuals of the deterministic form. -/
structure CollSt where
  unit : Nat := 0
  parts : List (List Nat × Bool) := []
  bad : Nat := 0
  running : Bool := false
  startAt : Nat := 0
  vec : List Int := []
  hollow : List Nat := []
  hop : Nat := 0
  got : List Nat := []
  out : Tbl (List Nat) := []
  kept : List (Nat × Nat × Frame) := []
  fails : Tbl Nat := []
  early : List Frame := []
  chunkNo : Nat := 0
  resid : Tbl Nat := []
  /-- By first block: the predicted LIN of an exact chunk (R391), and whether its sums have saturated. -/
  pred : Tbl (Nat × Bool) := []
deriving DecidableEq, Repr

/-- What the torus control holds beside its pages: the route table's banks (R370), the link-state database (R373), the sequence
of each direction's own LSN, endpoint tables (R367) and return slots (R368) by unit and index, frames held after a route
switch for the destinations that changed (R378), the elapsed time the plan was loaded, LEAVING in progress. -/
structure TorusSt where
  bank0 : Tbl Nat := []
  bank1 : Tbl Nat := []
  db : List Lsn := []
  lsnSeq : Tbl Nat := []
  eps : Tbl Nat := []
  slots : Tbl RSlot := []
  holdDest : List Nat := []
  hold : List (Nat × Frame) := []
  holdDue : Nat := 0
  planAt : Nat := 0
  coll : Tbl CollSt := []
  /-- The plan's OVERRIDE bits; its time root, and whether a route switch has been made under it (R366, R512). -/
  ovr : Nat := 0
  root : Option Nat := none
  switched : Bool := false
  /-- R449: collective units with ARITH_MISMATCH evidence. -/
  retired : List Nat := []
deriving DecidableEq, Repr

end Sys2Proof.Machine
end

