-- ==== Sys2Proof/Machine/State.lean ====
section
/-! DEFINITION. The state of the module as plain data, and State.reset: the module right after a cold reset with 48 V present,
no command waiting. Registers are cells of `regs`, one per field (Field.cell); a field not listed holds its Init value. -/

namespace Sys2Proof.Machine

/-- No command of this block faults: the spec gives every row an effect. -/
inductive Fault where
deriving DecidableEq, Repr

/-- Why a command has no meaning in this model. -/
inductive Refusal where
  /-- Raised by exec's arm of a command not modelled yet. Safe: the machine stops. -/
  | notModelled (mnemonic : String)
deriving DecidableEq, Repr

/-- The K7 module. -/
structure State where
  /-- Register fields, R43 and the chapters' pages. -/
  regs : Tbl Nat := []
  /-- Sandglass time in ns, R509. -/
  now : Nat := 1
  /-- Elapsed ns since cold reset: what R511's interval timers count. -/
  elapsed : Nat := 0
  /-- Resets of each domain itself since cold reset, R54, by Dom.key. -/
  resetCount : Tbl Nat := []
  /-- Pages whose interrupt condition holds, R51. -/
  irqLatch : List Nat := []
  /-- Page interrupts raised and not yet taken by Oasis, R51, oldest first. -/
  irqs : List Nat := []
  /-- The staging queue of R515, oldest first. -/
  staging : List Event := []
  /-- Stamps of the first and last event lost since the last LOG_LOST record, R515. -/
  lostStamps : Option (Nat × Nat × Nat) := none
  /-- The log store of R515, oldest first. -/
  log : List LogRec := []
  /-- The persistent log of R518, oldest first. -/
  plog : List LogRec := []
  /-- Open commands in arrival order, R341. -/
  cmds : List OpenCmd := []
  /-- Commands that have arrived and wait to start, R340, R506. -/
  held : List Held := []
  /-- The waiting command that starts in this step (the model's own); none between steps. -/
  resume : Option (Nat × Nat) := none
  /-- Command records kept for INQUIRE KIND 1, R292, newest first. -/
  cmdRecs : List CmdRec := []
  qps : Tbl QpSt := []
  ports : Tbl PortSt := []
  sems : Tbl SemSt := []
  /-- R283's contexts by index, and the reuse count an index takes next. -/
  ctxs : Tbl Ctx := []
  ctxReuse : Tbl Nat := []
  /-- Open requests, R291, in the order accepted. -/
  reqs : List Req := []
  /-- Ended requests kept for INQUIRE, R292, newest first. -/
  ended : List Req := []
  rings : Tbl RingSt := []
  /-- Doorbells written by S-cores and not yet taken by the ring unit, R298, oldest first. -/
  doorbells : List Doorbell := []
  vars : Tbl VarSt := []
  /-- R164: the epoch of the most recent activation. -/
  lastEpoch : Nat := 0
  /-- R303's remainder REM of each tenant. -/
  rems : Tbl Nat := []
  /-- The KV pool of each V-core, R212. -/
  kv : Tbl KvPool := []
  /-- HBM data by stack (bits 36 and up) and stack offset, R262; an unlisted byte reads 0 (R275). -/
  hbm : List Host.Cell := []
  /-- Tag bytes of R267 by stack and codeword, where not 0x00. -/
  hbmTags : Tbl Nat := []
  /-- LR reservations held at the controllers, R265: logical S-core to codeword. -/
  resv : Tbl Nat := []
  /-- Core SRAM data by physical core (bits 24 and up) and offset, R35; an unlisted byte reads 0. -/
  sram : List Host.Cell := []
  /-- Hollow SRAM codewords, R205, R432, by physical core and codeword. -/
  sramHollow : List Nat := []
  /-- Engines and post-units by logical engine, R63, R186. -/
  eng : Tbl EngSt := []
  /-- Slice digits of a bank's rows, R69, by physical engine, bank and row. -/
  cells : Tbl (List Int) := []
  /-- Program cycles charged to each row, R155, by physical engine, bank and row. -/
  rowCharge : Tbl Nat := []
  prog : Tbl ProgSt := []
  /-- R149: the journal's slots, by physical engine, bank and slot. -/
  jour : Tbl JSlot := []
  /-- R156: powered seconds counted, and those committed to the journal. -/
  powered : Nat := 0
  poweredKept : Nat := 0
  mc : Tbl McSt := []
  vc : Tbl VcSt := []
  sc : Tbl ScSt := []
  /-- Pooling state by M-core, buffer and slot, R191. -/
  pools : Tbl PoolSt := []
  /-- Credit channels of the producers, R241, least recently used first. -/
  chans : List Chan := []
  /-- Input buffers by logical core and descriptor, kernel entry or receive queue, R241. -/
  bufs : Tbl BufSt := []
  /-- Resets in progress, R467, oldest first. -/
  rsts : List ResetRec := []
  /-- Elapsed time of the latest increment of GEN by a cut of each domain, R470. -/
  genAt : Tbl Nat := []
  clk : Clocks := {}
  msh : MeshSt := {}
  /-- The module's bring-up, Oasis, the Borsan directions and the torus control. -/
  md : ModSt := {}
  oa : OaSt := {}
  /-- R59: the result and the value that Oasis's latest load or store received. -/
  resp : Nat × Nat := (0, 0)
  sec : SecSt := {}
  /-- What the sensors, the governor and the suspect ladder keep. -/
  sen : SenseSt := {}
  dirs : Tbl DirSt := []
  tor : TorusSt := {}
  /-- What the block sent, newest first (the model's own). -/
  out : List Out := []
  /-- Free values drawn so far (the model's own), log 1. -/
  freeCtr : Nat := 0
  /-- The commands waiting, first in, first out. -/
  pending : List Instr := []
deriving DecidableEq, Repr

/-- R13, R509: the module right after a cold reset: every register at its Init value, Sandglass time 1. -/
def State.reset : State := {}

end Sys2Proof.Machine
end

