-- ==== Sys2Proof/Machine/Ops.lean ====
section
/-! DEFINITION. The named operations every family shares: one register field read or written, interrupts of a page (R50, R51,
R53), error capture (R52), generations (R54), events and the log (R515 to R519), free values. -/

namespace Sys2Proof.Machine

/-- A field packed into a word: value, lowest bit, width. -/
def pack (fs : List (Nat × Nat × Nat)) : Nat :=
  fs.foldl (fun w f => w + (f.1 % 2 ^ f.2.2) * 2 ^ f.2.1) 0

/-- The field's present value at instance `i`, index `k`. -/
def State.rf (s : State) (f : Field) (i : Nat) (k : Nat := 0) : Nat :=
  (Tbl.getD s.regs (f.cell i k) (f.initVal i k)) % 2 ^ f.len

/-- The field set to `v`, truncated to its width. -/
def State.wf (s : State) (f : Field) (i v : Nat) (k : Nat := 0) : State :=
  { s with regs := Tbl.put s.regs (f.cell i k) (v % 2 ^ f.len) }

/-- The field set to `v` where it does not read so already. -/
def State.fix (s : State) (f : Field) (i v : Nat) (k : Nat := 0) : State :=
  if s.rf f i k = v % 2 ^ f.len then s else s.wf f i v k

/-- The field back at its Init value. -/
def State.clr (s : State) (f : Field) (i : Nat) (k : Nat := 0) : State :=
  { s with regs := Tbl.del s.regs (f.cell i k) }

/-- A counter raised by `n`: an RC field saturates (R10 and the chapters), every other wraps to zero. -/
def State.inc (s : State) (f : Field) (i : Nat) (n : Nat := 1) (k : Nat := 0) : State :=
  if f.acc = .rc then s.wf f i (satAdd (2 ^ f.len - 1) (s.rf f i k) n) k else s.wf f i (s.rf f i k + n) k

/-- A counter raised by `n` that stays at its largest value. -/
def State.incSat (s : State) (f : Field) (i : Nat) (n : Nat := 1) (k : Nat := 0) : State :=
  s.wf f i (satAdd (2 ^ f.len - 1) (s.rf f i k) n) k

/-- A counter lowered by `n`, not below zero. -/
def State.dec (s : State) (f : Field) (i : Nat) (n : Nat := 1) (k : Nat := 0) : State :=
  s.wf f i (s.rf f i k - n) k

/-- A one-bit field as a truth value. -/
def State.rb (s : State) (f : Field) (i : Nat) (k : Nat := 0) : Bool := s.rf f i k = 1

/-- A function applied for each element of a list, in order. -/
def State.each {α : Type} (s : State) (l : List α) (f : State → α → State) : State := l.foldl f s

/-- A change made only when a condition holds. -/
def State.when (s : State) (c : Bool) (f : State → State) : State := if c then f s else s

/-- R54: generation of a domain: one for each reset of it or of a domain containing it, modulo 256. -/
def State.resets (s : State) (d : Dom) : Nat := d.chain.foldl (fun n e => n + Tbl.getD s.resetCount e.key 0) 0

def State.gen (s : State) (d : Dom) : Nat := s.resets d % 256

/-! ### The common header, R43 to R55 -/

/-- A page of the window: block type, instance and page. -/
structure Page where
  blk : Nat
  inst : Nat
  page : Nat := 0
deriving DecidableEq, Repr

/-- R36: the 28-bit page index. -/
def Page.index (p : Page) : Nat := p.blk * 1048576 + p.inst * 16 + p.page

/-- R36: the page's first address. -/
def Page.addr (p : Page) : Nat := 0x200000000000 + p.index * 4096

/-- A header field of a block type's page. -/
def hdr (p : Page) (off lo len : Nat) (acc : Acc := .ro) : Field :=
  { blk := p.blk, page := p.page, off := off, lo := lo, len := len, acc := acc }

def Page.irqEn (p : Page) : Field := hdr p 0x20 0 1 .rw
def Page.errValid (p : Page) : Field := hdr p 0x28 5 1
def Page.intStatus (p : Page) : Field := hdr p 0x40 0 64 .w1c
def Page.intEnable (p : Page) : Field := hdr p 0x48 0 64 .rw
def Page.errAddr (p : Page) : Field := hdr p 0x60 0 64
def Page.errData (p : Page) : Field := hdr p 0x68 0 64
def Page.errCause (p : Page) : Field := hdr p 0x70 0 8
def Page.errMaster (p : Page) : Field := hdr p 0x70 8 3
def Page.errSource (p : Page) : Field := hdr p 0x70 16 16
def Page.errMore (p : Page) : Field := hdr p 0x70 32 16
def Page.errStamp (p : Page) : Field := hdr p 0x78 0 64
def Page.lastStamp (p : Page) : Field := hdr p 0x80 0 64

/-- R51: the condition in CTL.IRQ_EN. -/
def State.irqCond (s : State) (p : Page) : Bool :=
  s.rf p.irqEn p.inst = 1 && ((s.rf p.intStatus p.inst) &&& (s.rf p.intEnable p.inst)) != 0

/-- R51: one interrupt is raised for each rising of the condition. -/
def State.irqUpdate (s : State) (p : Page) : State :=
  if s.irqCond p then
    if s.irqLatch.contains p.index then s
    else { s with irqLatch := p.index :: s.irqLatch, irqs := s.irqs ++ [p.index] }
  else { s with irqLatch := s.irqLatch.filter (· ≠ p.index) }

/-- R50, R53: INT_STATUS bits set by the device. -/
def State.setInts (s : State) (p : Page) (mask : Nat) : State :=
  let m := mask % 2 ^ (intTop p.blk p.page + 1)
  if m = 0 then s
  else ((s.wf p.intStatus p.inst ((s.rf p.intStatus p.inst) ||| m)).wf p.lastStamp p.inst s.now).irqUpdate p

/-- R50, R53: one INT_STATUS bit set by the device. -/
def State.setInt (s : State) (p : Page) (b : Nat) : State := s.setInts p (2 ^ b)

/-- R52: the first error after arming is captured; a later one is counted in MORE. -/
def State.capture (s : State) (p : Page) (addr data cause master source : Nat) : State :=
  if s.rf p.errValid p.inst = 1 then s.incSat p.errMore p.inst
  else
    ((((((s.wf p.errValid p.inst 1).wf p.errAddr p.inst addr).wf p.errData p.inst data).wf p.errCause p.inst cause).wf
      p.errMaster p.inst master).wf p.errSource p.inst source).wf p.errStamp p.inst s.now

/-! ### Events and the log -/

/-- R517: the severity of a named kind. -/
def kindSeverity (kind : Nat) : Nat :=
  if kind = 0x0302 ∨ kind = 0x0A01 then 0
  else if kind = 0x0002 ∨ kind = 0x0102 ∨ kind = 0x0103 ∨ kind = 0x0202 ∨ kind = 0x0203 ∨ kind = 0x0301 ∨ kind = 0x0A03
    ∨ kind = 0x0B02 then 1
  else if kind = 0x0001 ∨ kind = 0x0003 ∨ kind = 0x0004 ∨ kind = 0x0201 ∨ kind = 0x0501 ∨ kind = 0x0701 ∨ kind = 0x0702
    ∨ kind = 0x0703 ∨ kind = 0x0A02 ∨ kind = 0x0B01 then 2
  else if kind = 0x0101 ∨ kind = 0x0401 ∨ kind = 0x0502 ∨ kind = 0x0504 then 3
  else if kind = 0x0503 ∨ kind = 0x0B03 then 4
  else 1

/-- R515: an event enters the staging queue, or is lost and counted when the queue is full. -/
def State.post (s : State) (e : Event) : State :=
  if 4096 ≤ s.staging.length then
    let l := match s.lostStamps with
      | none => (1, e.stamp, e.stamp)
      | some (n, a, _) => (n + 1, a, e.stamp)
    (({ s with lostStamps := some l }.inc R.OASIS1_LOST 0).setInt { blk := 1, inst := 0, page := 1 } R.INT_OASIS1_LOST)
  else
    let s1 := { s with staging := s.staging ++ [e] }
    let n := s1.staging.length
    let s2 := if s1.rf R.OASIS1_STAGING_HIGH 0 < n then s1.wf R.OASIS1_STAGING_HIGH 0 n else s1
    s2.wf R.OASIS1_STAGING_FULL 0 (bit (decide (4096 ≤ n)))

/-- An event of a named kind, R517. -/
def State.logEv (s : State) (kind page ref : Nat) (details : List Nat) : State :=
  s.post { stamp := s.now, kind := kind, sev := kindSeverity kind, page := page, ref := ref, details := details }

/-- An event of a named kind whose severity the case fixes. -/
def State.logEvSev (s : State) (kind sev page ref : Nat) (details : List Nat) : State :=
  s.post { stamp := s.now, kind := kind, sev := sev, page := page, ref := ref, details := details }

/-- R517: the UNIT_EVENT record of a category: severity ERROR and ERR_CAP copied when the page captured an error, else NOTICE
and the cause. -/
def State.unitEv (s : State) (cat : Nat) (p : Page) (ref cause : Nat) (captured : Bool) : State :=
  if captured then
    let c2 := pack [(s.rf p.errCause p.inst, 0, 8), (s.rf p.errMaster p.inst, 8, 3), (s.rf p.errSource p.inst, 16, 16),
      (s.rf p.errMore p.inst, 32, 16)]
    s.post { stamp := s.now, kind := cat * 256, sev := 3, page := p.index, ref := ref,
             details := [s.rf p.errAddr p.inst, s.rf p.errData p.inst, c2, s.rf p.errStamp p.inst] }
  else s.post { stamp := s.now, kind := cat * 256, sev := 1, page := p.index, ref := ref, details := [cause, 0, 0, 0] }

/-- The log category of R517 that a block type's own events belong to. -/
def blkCat (blk : Nat) : Nat :=
  if blk = 0 then 3 else if blk = 1 then 1 else if blk = 2 then 9 else if blk = 3 then 0xB else if blk = 4 then 0xB
  else if blk = 8 ∨ blk = 9 ∨ blk = 0xA then 5
  else if blk = 0x11 ∨ blk = 0x12 ∨ blk = 0x13 then 4
  else if blk = 0x10 ∨ blk = 0x14 ∨ blk = 0x15 ∨ blk = 0x16 then 5
  else if blk = 0x18 ∨ blk = 0x19 then 6 else if blk = 0x20 then 7
  else if blk = 0x28 ∨ blk = 0x29 then 9 else if blk = 0x30 ∨ blk = 0x31 then 0xA else if blk = 0x32 then 0xB
  else if blk = 0x38 ∨ blk = 0x39 ∨ blk = 0x3A then 8 else if blk = 0x48 then 0xD else 0xC

/-- R50, R52: an error the block raised itself, captured with MASTER 7, with the INT_STATUS bits its chapter names, and
its event-log record. -/
def State.blockErr (s : State) (p : Page) (cause addr data ints : Nat) : State :=
  ((s.capture p addr data cause 7 0).setInts p ints).unitEv (blkCat p.blk) p 0 cause true

/-- R515: record numbers run from 1 to 0xFFFF_FFFF and skip zero. -/
def seqNext (n : Nat) : Nat := if n ≥ 0xFFFFFFFF then 1 else n + 1

/-- R515: the sequence distance from `a` to `b`. -/
def seqDist (a b : Nat) : Nat := (b % 0xFFFFFFFF + 0xFFFFFFFF - a % 0xFFFFFFFF) % 0xFFFFFFFF

/-- R515: `b` follows `a`. -/
def seqFollows (a b : Nat) : Bool := 1 ≤ seqDist a b && seqDist a b ≤ 0x7FFFFFFF

def State.qp (s : State) (n : Nat) : QpSt := Tbl.getD s.qps n {}
def State.setQp (s : State) (n : Nat) (q : QpSt) : State := { s with qps := Tbl.put s.qps n q }
def State.port (s : State) (n : Nat) : PortSt := Tbl.getD s.ports n {}
def State.setPort (s : State) (n : Nat) (p : PortSt) : State := { s with ports := Tbl.put s.ports n p }

/-- R519: a record offered to one queue pair's subscription: selected by category and severity, it joins the newest waiting
message of fewer than 15 records or begins one, unless four wait. -/
def QpSt.offer (q : QpSt) (r : LogRec) : QpSt :=
  if q.subOn && (q.subMask.testBit (r.kind / 256)) && decide (q.subMin ≤ r.sev) then
    if 4 ≤ q.waiting.length then { q with dropped := q.dropped + 1 }
    else match q.waiting.getLast? with
      | some m => if m.length < 15 ∧ q.closed < q.waiting.length then { q with waiting := q.waiting.dropLast ++ [m ++ [r]] }
                  else { q with waiting := q.waiting ++ [[r]] }
      | none => { q with waiting := [[r]] }
  else q

/-- R515, R516, R518, R527: one event becomes a record of the log store, and of the persistent log when it is ERROR or
FAULT; subscribed queue pairs are offered it. -/
def State.writeRec (s : State) (e : Event) : State :=
  let seq := s.rf R.OASIS1_NEXT_SEQ 0
  let pers := decide (3 ≤ e.sev)
  let r : LogRec :=
    { stamp := e.stamp, seq := seq, kind := e.kind, sev := e.sev, persisted := pers, powerOn := s.rf R.OASIS1_POWER_ON 0,
      page := e.page, ref := e.ref, logStamp := s.now, details := e.details }
  let full := decide (65536 ≤ s.log.length)
  let s1 := { s with
    log := (if full then s.log.drop 1 else s.log) ++ [r]
    plog := if pers then (if 1024 ≤ s.plog.length then s.plog.drop 1 else s.plog) ++ [r] else s.plog
    qps := Tbl.update s.qps fun _ q => q.offer r }
  let s2 := s1.wf R.OASIS1_NEXT_SEQ 0 (seqNext seq)
  let s3 := s2.when full fun t => t.wf R.OASIS1_OLDEST_SEQ 0 ((t.log.head?.map (·.seq)).getD 1)
  let s4 := s3.when pers fun t => t.inc R.OASIS1_PERSISTED 0
  s4.when (decide (e.sev = 4)) fun t => t.setInt { blk := 1, inst := 0, page := 1 } R.INT_OASIS1_FAULT_RECORD

/-! ### Free values -/

/-- The next free value of `w` bits (log 1), and the state that has drawn it. -/
def State.draw (s : State) (w : Nat) : Nat × State :=
  (Config.freeValue s.freeCtr % 2 ^ w, { s with freeCtr := s.freeCtr + 1 })

/-- A message sent outside. -/
def State.emit (s : State) (o : Out) : State := { s with out := o :: s.out }

/-- R445: a unit tells Oasis of evidence against a physical core: its code and the engine concerned. -/
def State.suspect (s : State) (pc code eng : Nat) : State := s.emit (.mesh 13 0 [pc, code, eng])

/-! ### The reliable-connected transport, R331 -/

/-- Packets of a message of `bytes` bytes at the queue pair's path MTU (R334; PMTU 3 is 1,024). -/
def State.packets (s : State) (qp bytes : Nat) : Nat :=
  let m := 128 * 2 ^ s.rf R.QP_PMTU qp
  max 1 ((bytes + m - 1) / m)

/-- R331: `n` packet sequence numbers taken by a message that waits for its acknowledgement. -/
def State.txQp (s : State) (qp n : Nat) : State :=
  let psn := s.rf R.QP_SQ_PSN qp
  let q := s.qp qp
  (s.wf R.QP_SQ_PSN qp (psn + n)).setQp qp { q with unacked := q.unacked ++ [(psn, n)] }

/-- R352: `n` frames sent on a queue pair's port. -/
def State.framesOut (s : State) (qp n : Nat) : State := s.inc R.HOST_FRAMES_TX (s.rf R.QP_PORT qp) n

/-- A message of up to 1,024 bytes, one packet, sent on a queue pair. -/
def State.sendQp (s : State) (qp : Nat) (o : Out) : State := ((s.emit o).framesOut qp 1).txQp qp 1

/-- R334: an RDMA READ issued, or kept until fewer than the agreed number are outstanding. -/
def State.issueRead (s : State) (qp addr rkey bytes : Nat) : State :=
  let q := s.qp qp
  if s.rf R.QP_READS_OUT qp < q.maxReads then
    (((s.emit (.rdmaRead qp addr rkey bytes)).framesOut qp 1).txQp qp (s.packets qp bytes)).inc R.QP_READS_OUT qp
  else s.setQp qp { q with reads := q.reads ++ [(addr, rkey, bytes)] }

/-- R334: an RDMA READ of the queue pair has ended; the oldest one kept is issued. -/
def State.readDone (s : State) (qp : Nat) : State :=
  let s1 := s.dec R.QP_READS_OUT qp
  let q := s1.qp qp
  match q.reads with
  | [] => s1
  | (a, k, n) :: rest => (s1.setQp qp { q with reads := rest }).issueRead qp a k n

end Sys2Proof.Machine
end

