-- ==== Sys2Proof/Machine/Memory.lean ====
section
/-! DEFINITION. The addressed memories: HBM (R262, R266 to R269, R272) and core SRAM (R35, R205, R432), as sparse lists of bytes in
one canonical form. -/

namespace Sys2Proof.Machine

/-- Byte at an address; a byte nothing has written reads 0 (R275 for HBM; for SRAM a DESIGN CHOICE, log 6). -/
def Mem.byte (m : List Host.Cell) (a : Nat) : BitVec 8 := Tbl.getD m a 0

/-- One byte written, in canonical form. -/
def Mem.setByte (m : List Host.Cell) (a : Nat) (b : BitVec 8) : List Host.Cell := Tbl.putD m 0 a b

/-- `n` bytes from address `a`, least significant first (R7). -/
def Mem.read (m : List Host.Cell) (a : Nat) : Nat → Nat
  | 0 => 0
  | n + 1 => (Mem.byte m a).toNat + 256 * Mem.read m (a + 1) n

/-- The low `n` bytes of `v` written from address `a`, least significant first (R7). -/
def Mem.write (m : List Host.Cell) (a : Nat) : Nat → Nat → List Host.Cell
  | 0, _ => m
  | n + 1, v => Mem.write (Mem.setByte m a (BitVec.ofNat 8 v)) (a + 1) n (v / 256)

/-- The canonical form: addresses strictly rising, no entry equal to what an unlisted byte reads as. -/
def Memory.wf (m : List Host.Cell) : Bool := Tbl.rising m && m.all fun c => c.2 != 0

/-- `n` 64-bit words from address `a`. -/
def Mem.words (m : List Host.Cell) (a : Nat) (n : Nat) : List Nat :=
  (List.range n).map fun i => Mem.read m (a + 8 * i) 8

/-! ### HBM -/

def hbmPage (stack : Nat) : Page := { blk := 0x20, inst := stack }
def hbmPage1 (stack : Nat) : Page := { blk := 0x20, inst := stack, page := 1 }

/-- Bytes of a GiB. -/
def gib : Nat := 0x40000000

/-- R262: the stack and stack offset of a populated address, at interleave `i` GiB; none where unpopulated. -/
def hbmDecode (i a : Nat) : Option (Nat × Nat) :=
  if a / gib < 12 * i then
    some (a / 4096 % 12, a / 4096 / 12 * 4096 + a % 4096)
  else if a < 0x9000000000 then
    let r := a - 12 * i * gib
    let per := (48 - i) * gib
    some (r / per, i * gib + r % per)
  else none

/-- R263: the pseudo-channel of a stack offset. -/
def pseudoChannel (off : Nat) : Nat := off / 256 % 64

/-- The key of a byte of a stack. -/
def hbmKey (stack off : Nat) : Nat := stack * 2 ^ 36 + off

def State.interleave (s : State) : Nat := s.rf R.HBM_INTERLEAVE_GIB 0

/-- The tag byte of a codeword, R267. -/
def State.hbmTag (s : State) (stack off : Nat) : Nat := Tbl.getD s.hbmTags (hbmKey stack off / 64) 0

/-- Ones in a byte. -/
def popcount8 (v : Nat) : Nat := (List.range 8).foldl (fun n i => n + bit (v.testBit i)) 0

/-- R267: a tag with three or more ones reads hollow. -/
def State.hbmHollow (s : State) (stack off : Nat) : Bool := decide (3 ≤ popcount8 (s.hbmTag stack off))

def State.setHbmTag (s : State) (stack off tag : Nat) : State :=
  { s with hbmTags := Tbl.putD s.hbmTags 0 (hbmKey stack off / 64) tag }

/-- R272: the address lies in the sealed range. -/
def State.sealed (s : State) (a : Nat) : Bool :=
  let b := s.rf R.HBM_SEALED_BASE 0
  let l := s.rf R.HBM_SEALED_LIMIT 0
  decide (b ≤ l) && decide (b ≤ a) && decide (a ≤ l)

/-- R272: a denied access of a host port or an S-core. -/
def State.sealedDenied (s : State) (stack a data master source : Nat) : State :=
  let p := hbmPage stack
  (((s.inc R.HBM_SEALED_DENIALS stack).wf R.HBM_LAST_DENIED_ADDR stack a).capture p a data 0x11 master source).setInts p
    (2 ^ R.INT_HBM_SEALED_DENIED + 1)

/-- R50, R52, R261: an access to a FAILED stack, captured with the master that made it, or as the block's own (`master` 7). -/
def State.stackFailedAccess (s : State) (stack a : Nat) (data : Nat := 0) (master : Nat := 7) (source : Nat := 0) : State :=
  let p := hbmPage stack
  if master = 7 then s.blockErr p 0x12 a 0 0
  else ((s.capture p a data 0x12 master source).setInt p 0).unitEv (blkCat p.blk) p 0 0x12 true

/-- R267, R268: the controller's read of one codeword with no symbol in error: what a tag's count adds. -/
def State.countTag (s : State) (stack off : Nat) : State :=
  let n := popcount8 (s.hbmTag stack off)
  let s1 := if 1 ≤ n ∧ n ≤ 7 then (s.inc R.HBM1_TAG_ERRORS stack).setInt (hbmPage stack) R.INT_HBM_TAG_ERROR else s
  if 3 ≤ n then s1.inc R.HBM1_HOLLOW_READS stack else s1

/-- Up to eight bytes inside one codeword read for a requester the controller serves: the data, whether it is hollow, and
the counts. Unpopulated addresses read as zero marked hollow (R262); so do those of a FAILED stack (R261). -/
def State.hbmRead (s : State) (a n : Nat) : Nat × Bool × State :=
  match hbmDecode s.interleave a with
  | none => (0, true, s)
  | some (st, off) =>
    if s.rb R.HBM_FAILED st then (0, true, s.stackFailedAccess st a)
    else (Mem.read s.hbm (hbmKey st off) n, s.hbmHollow st off, (s.inc R.HBM_READ_BYTES st n).countTag st off)

/-- R265: a write by a master clears every other S-core's reservation on the codeword. -/
def State.clearResv (s : State) (stack off : Nat) (by_ : Option Nat) : State :=
  { s with resv := Tbl.keep s.resv fun ck w => decide (w ≠ hbmKey stack off / 64) || (by_ == some ck) }

/-- R269: up to eight bytes inside one codeword written as a read-modify-write; a hollow codeword stays hollow, and hollow
data makes it hollow. A FAILED stack discards the write (R261), an unpopulated address too (R262). -/
def State.hbmWrite (s : State) (a n v : Nat) (hollow : Bool := false) (by_ : Option Nat := none) : State :=
  match hbmDecode s.interleave a with
  | none => s
  | some (st, off) =>
    if s.rb R.HBM_FAILED st then s.stackFailedAccess st a
    else
      let s1 := { s with hbm := Mem.write s.hbm (hbmKey st off) n v }
      let h := hollow || s.hbmHollow st off
      let s2 := if h then (s1.setHbmTag st off 0xFF).inc R.HBM1_HOLLOW_WRITES st else s1.setHbmTag st off 0
      (s2.inc R.HBM_WRITE_BYTES st n).clearResv st off by_

/-- `n` words written from an aligned address. -/
def State.hbmWriteWords (s : State) (a : Nat) (ws : List Nat) : State :=
  (ws.zipIdx).foldl (fun t w => t.hbmWrite (a + 8 * w.2) 8 w.1) s

/-- `n` words read from an aligned address: the words and whether any was hollow. -/
def State.hbmWords (s : State) (a n : Nat) : List Nat × Bool :=
  (List.range n).foldl (fun r i =>
    let (v, h, _) := s.hbmRead (a + 8 * i) 8
    (r.1 ++ [v], r.2 || h)) ([], false)

/-- `n` codewords of 64 bytes read from an aligned address: the bytes, whether any was hollow, and the counts. -/
def State.hbmCodewords (s : State) (a n : Nat) : List Nat × Bool × State :=
  (List.range n).foldl (fun r i =>
    let (v, h, t) := r.2.2.hbmRead (a + 64 * i) 64
    (r.1 ++ (List.range 64).map (fun k => v / 256 ^ k % 256), r.2.1 || h, t)) ([], false, s)

/-- The range of `n` bytes from `a` lies in populated external memory, R262. -/
def State.populated (s : State) (a n : Nat) : Bool :=
  (hbmDecode s.interleave a).isSome && (hbmDecode s.interleave (a + n - 1)).isSome

/-! ### Core SRAM -/

/-- SRAM bytes of a physical core by its kind, R27. -/
def sramSize (kind : Nat) : Nat := if kind = 0 then 0x80000 else if kind = 1 then 0x400000 else 0x40000

/-- The key of a byte of a physical core's SRAM, `pc = c * 64 + i`. -/
def sramKey (pc off : Nat) : Nat := pc * 2 ^ 24 + off

/-- The physical core, as `c * 64 + i`, that carries a logical core, R246: the active bank of a router's map. -/
def State.mapEntry (s : State) (router ck : Nat) : Nat × Bool :=
  let m := ck / 64 * 60 + ck % 64
  let w := 240 * s.rf R.ROUTER_MAP_BANK router + m / 8
  let f := [R.ROUTER1_PHYS_0, R.ROUTER1_PHYS_1, R.ROUTER1_PHYS_2, R.ROUTER1_PHYS_3, R.ROUTER1_PHYS_4, R.ROUTER1_PHYS_5,
    R.ROUTER1_PHYS_6, R.ROUTER1_PHYS_7].getD (m % 8) R.ROUTER1_PHYS_0
  let g := [R.ROUTER1_ABSENT_0, R.ROUTER1_ABSENT_1, R.ROUTER1_ABSENT_2, R.ROUTER1_ABSENT_3, R.ROUTER1_ABSENT_4,
    R.ROUTER1_ABSENT_5, R.ROUTER1_ABSENT_6, R.ROUTER1_ABSENT_7].getD (m % 8) R.ROUTER1_ABSENT_0
  (s.rf f router w, s.rf g router w = 1)

/-- The router Oasis attaches to, [0,10] (R22), as an instance. -/
def oasisRouter : Nat := 320

/-- The physical core of a logical core. -/
def State.physOf (s : State) (ck : Nat) : Nat := ck / 64 * 64 + (s.mapEntry oasisRouter ck).1

/-- The logical core is absent, R18. -/
def State.isAbsent (s : State) (ck : Nat) : Bool := (s.mapEntry oasisRouter ck).2

/-- Bytes of a logical core's SRAM. -/
def State.sramRead (s : State) (ck off n : Nat) : Nat := Mem.read s.sram (sramKey (s.physOf ck) off) n

/-- The 32-byte codeword at an offset is hollow, R205, R432. -/
def State.sramIsHollow (s : State) (ck off : Nat) : Bool := s.sramHollow.contains (sramKey (s.physOf ck) off / 32)

/-- Bytes written in a logical core's SRAM; a write of clean data smaller than the codeword leaves its hollow bit. -/
def State.sramWrite (s : State) (ck off n v : Nat) : State :=
  { s with sram := Mem.write s.sram (sramKey (s.physOf ck) off) n v }

/-- The hollow bit of the codeword at an offset set or cleared. -/
def State.sramMark (s : State) (ck off : Nat) (h : Bool) : State :=
  let k := sramKey (s.physOf ck) off / 32
  { s with sramHollow := if h then (if s.sramHollow.contains k then s.sramHollow else k :: s.sramHollow)
                         else s.sramHollow.filter (· ≠ k) }

/-- `n` words of a logical core's SRAM. -/
def State.sramWords (s : State) (ck off n : Nat) : List Nat :=
  (List.range n).map fun i => s.sramRead ck (off + 8 * i) 8

/-- A bit field of word `i` of a list of words. -/
def wf_ (ws : List Nat) (i lo len : Nat) : Nat := bitsOf (ws.getD i 0) lo len

end Sys2Proof.Machine
end

