-- ==== Sys2Proof/Machine/Numeric.lean ====
section
/-! DEFINITION. Exact arithmetic and the number formats of R100 to R123: dyadic numbers, IEEE formats, the rounding modes of R116,
the generator and CRC-32C of R119 and R120, and the block formats of R104 with the requantisation of R107 and R109. -/

namespace Sys2Proof.Machine

/-! ### CRC-32C and the generator -/

/-- R120: one bit of the reflected Castagnoli polynomial. -/
def crcBit (c : Nat) : Nat := if c % 2 = 1 then (c / 2) ^^^ 0x82F63B78 else c / 2

/-- R120: one byte. -/
def crcByte (c b : Nat) : Nat := (List.range 8).foldl (fun x _ => crcBit x) ((c ^^^ b) % 2 ^ 32)

/-- R120: CRC-32C of bytes. -/
def crc32c (bs : List Nat) : Nat := (bs.foldl crcByte 0xFFFFFFFF) ^^^ 0xFFFFFFFF

/-- `n` bytes of a value, least significant first (R7). -/
def leBytes (n v : Nat) : List Nat := (List.range n).map fun i => v / 256 ^ i % 256

/-- The value of bytes, least significant first. -/
def ofBytes (bs : List Nat) : Nat := bs.foldr (fun b v => b + 256 * v) 0

/-- Bytes as 64-bit words. -/
def bytesToWords : Nat → List Nat → List Nat
  | 0, _ => []
  | n + 1, bs => ofBytes (bs.take 8) :: bytesToWords n (bs.drop 8)

/-- R120: the seed of a site's generator. -/
def siteSeed (fields : List Nat) : Nat := let c := crc32c fields; if c = 0 then 1 else c

/-- R119: one step of the register. -/
def lfsrStep (s : Nat) : Nat :=
  let fb := (s / 2 ^ 31 + s / 2 ^ 21 + s / 2 + s) % 2
  (s * 2 + fb) % 2 ^ 32

/-- R119: a draw: 16 steps, then the low 16 bits. -/
def lfsrDraw (s : Nat) : Nat := (List.range 16).foldl (fun x _ => lfsrStep x) s

/-- The first `n` draws of a generator. -/
def draws : Nat → Nat → List Nat
  | _, 0 => []
  | s, n + 1 => let t := lfsrDraw s; t % 65536 :: draws t n

/-! ### Dyadic numbers -/

/-- The number `m * 2 ^ e`. -/
structure Dy where
  m : Int
  e : Int
deriving DecidableEq, Repr

def Dy.zero : Dy := { m := 0, e := 0 }
def Dy.ofInt (i : Int) : Dy := { m := i, e := 0 }

/-- The integer `k` with `d = k * 2 ^ e`, for `e` at most the number's own exponent. -/
def Dy.at (d : Dy) (e : Int) : Int := d.m * (2 : Int) ^ (d.e - e).toNat

def Dy.add (a b : Dy) : Dy := let e := min a.e b.e; { m := a.at e + b.at e, e := e }
def Dy.neg (a : Dy) : Dy := { a with m := -a.m }
def Dy.mul (a b : Dy) : Dy := { m := a.m * b.m, e := a.e + b.e }
def Dy.shift (a : Dy) (k : Int) : Dy := { a with e := a.e + k }
def Dy.le (a b : Dy) : Bool := let e := min a.e b.e; decide (a.at e ≤ b.at e)
def Dy.abs (a : Dy) : Dy := { a with m := a.m.natAbs }
def Dy.isZero (a : Dy) : Bool := a.m = 0

/-- The exponent of the leading one of a number that is not zero. -/
def Dy.log2 (a : Dy) : Int := a.e + (a.m.natAbs.log2 : Int)

/-- The rounding modes of R116, with R118's draw. -/
inductive Rnd where
  | rne | rz | sr (draw : Nat)
deriving DecidableEq, Repr

/-- R116, R118: `d` rounded to a multiple of `2 ^ q`; the multiple. -/
def Dy.roundAt (d : Dy) (q : Int) (mode : Rnd) : Int :=
  if q ≤ d.e then d.at q
  else
    let den : Int := (2 : Int) ^ (q - d.e).toNat
    let k := d.m / den
    let r := d.m % den
    match mode with
    | .rne => if 2 * r < den then k else if den < 2 * r then k + 1 else if k % 2 = 0 then k else k + 1
    | .rz => if d.m < 0 ∧ r ≠ 0 then k + 1 else k
    | .sr x => if 65536 ≤ r * 65536 / den + (x : Int) then k + 1 else k

/-! ### IEEE formats -/

/-- A binary format: precision with the hidden bit, exponent of the smallest subnormal, exponent bits. -/
structure FpFmt where
  p : Nat
  q : Int
  eb : Nat
deriving DecidableEq, Repr

def f32 : FpFmt := { p := 24, q := -149, eb := 8 }
def f16 : FpFmt := { p := 11, q := -24, eb := 5 }
def bf16 : FpFmt := { p := 8, q := -133, eb := 8 }

/-- A floating-point datum. The sign is kept for zeros and infinities. -/
inductive Fp where
  | nan
  | inf (neg : Bool)
  | fin (neg : Bool) (d : Dy)
deriving DecidableEq, Repr

def Fp.isFinite : Fp → Bool
  | .fin _ _ => true | _ => false

def Fp.dy : Fp → Dy
  | .fin _ d => d | _ => Dy.zero

/-- The datum of a format's bits. -/
def FpFmt.decode (f : FpFmt) (w : Nat) : Fp :=
  let frac := w % 2 ^ (f.p - 1)
  let ex := w / 2 ^ (f.p - 1) % 2 ^ f.eb
  let neg := w / 2 ^ (f.p - 1 + f.eb) % 2 = 1
  let s (n : Nat) : Int := if neg then -(n : Int) else n
  if ex = 2 ^ f.eb - 1 then (if frac = 0 then .inf neg else .nan)
  else if ex = 0 then .fin neg { m := s frac, e := f.q }
  else .fin neg { m := s (frac + 2 ^ (f.p - 1)), e := f.q + ex - 1 }

/-- R112: the NaN a V-core and a post-unit produce. -/
def FpFmt.nanBits (f : FpFmt) : Nat := (2 ^ f.eb - 1) * 2 ^ (f.p - 1) + 2 ^ (f.p - 2)

def FpFmt.infBits (f : FpFmt) (neg : Bool) : Nat :=
  (2 ^ f.eb - 1) * 2 ^ (f.p - 1) + (if neg then 2 ^ (f.p - 1 + f.eb) else 0)

/-- A finite number rounded to a format. An overflow gives an infinity, toward zero the largest finite value. -/
def FpFmt.encode (f : FpFmt) (mode : Rnd) (neg : Bool) (d : Dy) : Nat :=
  let sb (b : Bool) : Nat := if b then 2 ^ (f.p - 1 + f.eb) else 0
  if d.m = 0 then sb neg
  else
    let ng := decide (d.m < 0)
    let q := max (d.log2 - (f.p - 1 : Nat)) f.q
    let n := (d.roundAt q mode).natAbs
    let (n, q) := if n = 2 ^ f.p then (2 ^ (f.p - 1), q + 1) else (n, q)
    if n < 2 ^ (f.p - 1) then sb ng + n
    else
      let ex := (q - f.q + 1).toNat
      if 2 ^ f.eb - 1 ≤ ex then
        (match mode with
         | .rz => f.infBits ng - 1
         | _ => f.infBits ng)
      else sb ng + ex * 2 ^ (f.p - 1) + (n - 2 ^ (f.p - 1))

/-- A datum rounded to a format. -/
def FpFmt.ofFp (f : FpFmt) (mode : Rnd) : Fp → Nat
  | .nan => f.nanBits
  | .inf n => f.infBits n
  | .fin n d => f.encode mode n d

/-- The exact sum of two data; a zero sum is negative only where both are. -/
def Fp.addX : Fp → Fp → Fp
  | .nan, _ => .nan
  | _, .nan => .nan
  | .inf a, .inf b => if a = b then .inf a else .nan
  | .inf a, _ => .inf a
  | _, .inf b => .inf b
  | .fin a x, .fin b y => .fin (a && b) (x.add y)

/-- The exact product of two data. -/
def Fp.mulX : Fp → Fp → Fp
  | .nan, _ => .nan
  | _, .nan => .nan
  | .inf a, .inf b => .inf (a != b)
  | .inf a, .fin b y => if y.m = 0 then .nan else .inf (a != b)
  | .fin a x, .inf b => if x.m = 0 then .nan else .inf (a != b)
  | .fin a x, .fin b y => .fin (a != b) (x.mul y)

def Fp.negX : Fp → Fp
  | .nan => .nan
  | .inf a => .inf (!a)
  | .fin a x => .fin (!a) x.neg

/-- FP32 with ties to even: sum, product, fused multiply-add, difference, on bits. -/
def fadd (a b : Nat) : Nat := f32.ofFp .rne ((f32.decode a).addX (f32.decode b))
def fsub (a b : Nat) : Nat := f32.ofFp .rne ((f32.decode a).addX (f32.decode b).negX)
def fmul (a b : Nat) : Nat := f32.ofFp .rne ((f32.decode a).mulX (f32.decode b))
def ffma (a b c : Nat) : Nat := f32.ofFp .rne (((f32.decode a).mulX (f32.decode b)).addX (f32.decode c))

/-- The quotient of two numbers to 80 bits, a last bit telling whether it is inexact. -/
def Dy.divX (a b : Dy) : Dy :=
  let k : Nat := 80 + b.m.natAbs.log2
  let n := a.m.natAbs * 2 ^ k
  let q := n / b.m.natAbs
  let st : Nat := if n % b.m.natAbs = 0 then 0 else 1
  let v : Int := (2 * q + st : Nat)
  { m := if (a.m < 0) = (b.m < 0) then v else -v, e := a.e - b.e - k - 1 }

/-- FP32 division, correctly rounded, ties to even. -/
def fdiv (a b : Nat) : Nat :=
  match f32.decode a, f32.decode b with
  | .nan, _ => f32.nanBits
  | _, .nan => f32.nanBits
  | .inf x, .inf y => if x = y then f32.nanBits else f32.nanBits
  | .inf x, .fin y _ => f32.infBits (x != y)
  | .fin x _, .inf y => f32.encode .rne (x != y) Dy.zero
  | .fin x d, .fin y e =>
    if e.m = 0 then (if d.m = 0 then f32.nanBits else f32.infBits (x != y))
    else if d.m = 0 then f32.encode .rne (x != y) Dy.zero
    else f32.encode .rne (x != y) (d.divX e)

/-- `a < b` on FP32 bits; false where either is a NaN. -/
def flt (a b : Nat) : Bool :=
  match f32.decode a, f32.decode b with
  | .nan, _ => false
  | _, .nan => false
  | .inf true, .inf true => false
  | .inf true, _ => true
  | _, .inf true => false
  | .inf false, _ => false
  | _, .inf false => true
  | .fin _ x, .fin _ y => !(y.le x)

def fnan (a : Nat) : Bool := f32.decode a = .nan
def ffinite (a : Nat) : Bool := (f32.decode a).isFinite

/-- ⌊p⌋ of a finite number, toward minus infinity. -/
def Dy.floor (d : Dy) : Int := if 0 ≤ d.e then d.at 0 else d.m / (2 : Int) ^ (-d.e).toNat

/-! ### Blocks -/

/-- R104: bytes of a block of a format code 0 BA4, 1 BA8, 2 F16B. -/
def blockBytes (fmt : Nat) : Nat := if fmt = 0 then 17 else if fmt = 1 then 33 else 65

/-- A block as read: its scale byte and its 32 elements as raw element codes. -/
structure Block where
  x : Nat
  els : List Nat
deriving DecidableEq, Repr

/-- R104: one block from its bytes. -/
def Block.read (fmt : Nat) (bs : List Nat) : Block :=
  let by_ (i : Nat) := bs.getD i 0
  { x := by_ 0,
    els := (List.range 32).map fun i =>
      if fmt = 0 then by_ (1 + i / 2) / 16 ^ (i % 2) % 16
      else if fmt = 1 then by_ (1 + i)
      else by_ (1 + 2 * i) + 256 * by_ (2 + 2 * i) }

/-- R104: a block's bytes. -/
def Block.bytes (fmt : Nat) (b : Block) : List Nat :=
  let e (i : Nat) := b.els.getD i 0
  b.x :: (if fmt = 0 then (List.range 16).map fun i => e (2 * i) % 16 + 16 * (e (2 * i + 1) % 16)
    else if fmt = 1 then (List.range 32).map fun i => e i % 256
    else (List.range 32).flatMap fun i => [e i % 256, e i / 256 % 256])

/-- R105: the zero block of a format. -/
def Block.zeroBlock : Block := { x := 0, els := List.replicate 32 0 }

/-- R104, R105: the blocks of a payload. -/
def readBlocks (fmt : Nat) : Nat → List Nat → List Block
  | 0, _ => []
  | n + 1, bs => Block.read fmt (bs.take (blockBytes fmt)) :: readBlocks fmt n (bs.drop (blockBytes fmt))

/-- R105, R111: a payload that a reader must treat as hollow: a scale of 0xFF, or an F16B infinity or NaN. -/
def Block.poison (fmt : Nat) (b : Block) : Bool :=
  b.x = 0xFF || (fmt = 2 && b.x ≠ 0 && b.els.any fun e => !(f16.decode e).isFinite)

/-- The integers of a BA4 or BA8 block; a zero block's are zero. -/
def Block.ints (fmt : Nat) (b : Block) : List Int :=
  if b.x = 0 then List.replicate 32 0 else b.els.map fun e => signedOf (if fmt = 0 then 4 else 8) e

/-- R104: the values of a block. -/
def Block.vals (fmt : Nat) (b : Block) : List Dy :=
  if b.x = 0 then List.replicate 32 Dy.zero
  else b.els.map fun e =>
    if fmt = 2 then (f16.decode e).dy.shift ((b.x : Int) - 127)
    else { m := signedOf (if fmt = 0 then 4 else 8) e, e := (b.x : Int) - 127 }

/-- The outcome of writing one block: its scale and elements, whether it saturated (R108) or passed ±65,504 (R109), and which
elements were clamped, with the value written of each (R123). -/
structure Quant where
  blk : Block
  sat : Bool := false
  range : Bool := false
  clamped : List Bool := []
  got : List Dy := []
deriving DecidableEq, Repr

/-- R107: the rounded elements at scale `x`. -/
def quantAt (x : Int) (vs : List Dy) (ms : List Rnd) : List Int :=
  (vs.zip ms).map fun v => v.1.roundAt (x - 127) v.2

/-- R107: a BA4 (`k = 4`) or BA8 (`k = 8`) block of 32 values, one rounding mode each. -/
def quantBA (k xmax : Nat) (vs : List Dy) (ms : List Rnd) : Quant :=
  if vs.all Dy.isZero then
    { blk := Block.zeroBlock, clamped := List.replicate 32 false, got := List.replicate 32 Dy.zero }
  else
    let big := vs.foldl (fun b v => if (Dy.abs v).le b then b else Dy.abs v) Dy.zero
    let x0 := big.log2 - (k - 2 : Nat) + 127
    let x1 := if x0 < 1 then 1 else x0
    let sat0 := decide ((xmax : Int) < x1)
    let x2 := if sat0 then (xmax : Int) else x1
    let n2 := quantAt x2 vs ms
    let top : Int := (2 : Int) ^ (k - 1)
    let again := decide (x2 < xmax) && n2.any (· == top)
    let x3 := if again then x2 + 1 else x2
    let n3 := if again then quantAt x3 vs ms else n2
    let cl := n3.map fun n => decide (top - 1 < n) || decide (n < -top)
    let n4 := n3.map fun n => max (-top) (min (top - 1) n)
    if n4.all (· == 0) then { blk := Block.zeroBlock, sat := sat0, clamped := cl, got := List.replicate 32 Dy.zero }
    else
      { blk := { x := x3.toNat, els := n4.map fun n => fieldOfInt k n }, sat := sat0 || cl.any id, clamped := cl,
        got := n4.map fun n => { m := n, e := x3 - 127 } }

/-- R109: a finite number rounded to a format's precision with no bound on the exponent exceeds a magnitude. -/
def FpFmt.exceeds (f : FpFmt) (mode : Rnd) (d lim : Dy) : Bool :=
  let q := max (d.log2 - (f.p - 1 : Nat)) f.q
  d.m ≠ 0 && !({ m := (d.roundAt q mode).natAbs, e := q } : Dy).le lim

/-- R109: an F16B block of 32 finite values. -/
def quantF16 (xmax : Nat) (vs : List Dy) (ms : List Rnd) : Quant :=
  let sc : Int := (xmax : Int) - 127
  let lim : Dy := Dy.ofInt 65504
  let one (v : Dy) (m : Rnd) : Nat × Bool :=
    let y := v.shift (-sc)
    if f16.exceeds m y lim then (f16.encode .rne false (if v.m < 0 then lim.neg else lim), true)
    else (f16.encode m (decide (v.m < 0)) y, false)
  let r := (vs.zip ms).map fun v => one v.1 v.2
  { blk := { x := xmax, els := r.map (·.1) }, range := r.any (·.2), clamped := r.map (·.2),
    got := r.map fun w => (f16.decode w.1).dy.shift sc }

/-- R106, R107, R109: one block in a format. -/
def quant (fmt xmax : Nat) (vs : List Dy) (ms : List Rnd) : Quant :=
  if fmt = 0 then quantBA 4 xmax vs ms else if fmt = 1 then quantBA 8 xmax vs ms else quantF16 xmax vs ms

/-- R111: an F16B block converted to BA8, and whether an element was clamped. -/
def f16ToBa8 (b : Block) : Block × Bool :=
  let q := quantBA 8 0xFE (b.vals 2) (List.replicate 32 .rne)
  (q.blk, q.clamped.any id)

/-- A list cut into pieces of `n`. -/
def chunks {α : Type} (n : Nat) : Nat → List α → List (List α)
  | 0, _ => []
  | k + 1, l => if l.isEmpty then [] else l.take n :: chunks n k (l.drop n)

/-! ### R101, R138, R139: weight codes -/

/-- R101: low and high digit of a W4 weight. -/
def w4Digits (w : Int) : Int × Int := let l := (w + 2) % 4 - 2; (l, (w - l) / 4)

/-- R138: bytes of a row of an image format. -/
def imageRowBytes (fmt : Nat) : Nat := if fmt = 2 then 32 else if fmt = 3 then 128 else 64

/-- R138, R101, R102, R139: the 256 slice digits of a row. -/
def rowDigits (fmt : Nat) (bs : List Nat) : List Int :=
  let by_ (i : Nat) := bs.getD i 0
  (List.range 256).map fun s =>
    if fmt = 0 then
      let d := w4Digits (signedOf 4 (by_ (s / 2 / 2) / 16 ^ (s / 2 % 2) % 16))
      if s % 2 = 0 then d.1 else d.2
    else if fmt = 1 then signedOf 2 (by_ (s / 4) / 4 ^ (s % 4) % 4)
    else if fmt = 2 then (if (by_ (s / 8)).testBit (s % 8) then 1 else -1)
    else signedOf 4 (by_ (s / 2) / 16 ^ (s % 2) % 16)

end Sys2Proof.Machine
end

