-- ==== Sys2Proof/Machine/Wire.lean ====
section
/-! DEFINITION. Messages of the mesh and their way to other modules: Borsan frames sent, held and routed (R362 to R364, R370,
R371, R374, R375), link-state notices flooded (R373), the database read (R372), route switches scheduled (R377), endpoint
tables and return slots (R367, R368). -/

namespace Sys2Proof.Machine

/-- R240: credits of a payload of `n` bytes. -/
def pipCredits (n : Nat) : Nat := 2 + (n + 15) / 16

/-- R239: a destination on the die that is not reserved. -/
def destLocal (d : Nat) : Bool := d < 0x8000 && d / 64 < 32 && d % 64 < 60
/-- R239, R367: a remote endpoint; egress values 6 and 7 are reserved. -/
def destRemote (d : Nat) : Bool := 0x8000 ≤ d && d < 0xE000

def borsanPage (d : Nat) (p : Nat := 0) : Page := { blk := 0x30, inst := d, page := p }
def torusPage (p : Nat) : Page := { blk := 0x31, inst := 0, page := p }

def State.dirSt (s : State) (d : Nat) : DirSt := Tbl.getD s.dirs d {}
def State.setDir (s : State) (d : Nat) (x : DirSt) : State := { s with dirs := Tbl.put s.dirs d x }

/-- R379: DX, DY or DZ of the plan in force, plus 1. -/
def State.dimSize (s : State) (dim : Nat) : Nat := bitsOf (s.rf R.TORUS1_SIZE_POSITION 0) (5 * dim) 5 + 1

/-- This module's position as `x + 32 y + 1,024 z`. -/
def State.here (s : State) : Nat := bitsOf (s.rf R.TORUS1_SIZE_POSITION 0) 15 15

/-- A coordinate of a module position. -/
def coord (m dim : Nat) : Nat := bitsOf m (5 * dim) 5

/-- A module position with one coordinate replaced. -/
def setCoord (m dim v : Nat) : Nat := m - coord m dim * 32 ^ dim + v * 32 ^ dim

/-- The neighbour of a module in direction `d` (0 +X, 1 -X, 2 +Y, 3 -Y, 4 +Z, 5 -Z). -/
def State.neighbour (s : State) (m d : Nat) : Nat :=
  let dim := d / 2
  let n := s.dimSize dim
  let c := coord m dim
  setCoord m dim (if d % 2 = 0 then (c + 1) % n else (c + n - 1) % n)

/-- R362: the dimensions of an ORDER code. -/
def orderDims (o : Nat) : List Nat :=
  if o = 0 then [0, 1, 2] else if o = 1 then [0, 2, 1] else if o = 2 then [1, 0, 2] else if o = 3 then [1, 2, 0]
  else if o = 4 then [2, 0, 1] else [2, 1, 0]

/-- R362: the header words of a frame. -/
def frameHeader (f : Frame) : List Nat :=
  [pack [(f.cls, 0, 2), (f.typ, 2, 3), (f.phase, 5, 2), (bit f.dateline, 7, 1), (f.dest, 8, 15), (f.src, 23, 15),
     (f.order, 38, 3), (f.signs, 41, 3), (bit f.detoured, 44, 1), (bit f.resent, 45, 1), (f.len, 46, 12)],
   pack [(f.seq, 0, 24), (f.ackSeq, 24, 24), (bit f.ackValid, 48, 1), (f.creditVc, 49, 5), (f.creditCount, 54, 10)]]

/-- R362: the virtual channel of a frame as CREDIT_VC numbers it. -/
def frameVc (f : Frame) : Nat := f.cls * 8 + f.phase * 2 + bit f.dateline

/-- R364: the space of a frame in units of 128 bytes: header, padded payload, trailer. -/
def frameUnits (f : Frame) : Nat := (16 + (f.len + 7) / 8 * 8 + 8 + 127) / 128

/-- R364: what each virtual channel is always granted, 16 KiB. -/
def vcGrant : Nat := 128

/-- A direction's link is UP, R392. -/
def State.linkUp (s : State) (d : Nat) : Bool := s.rf R.BORSAN_LINK d = 2

/-- R382, R383, R384: the direction carries routed traffic. -/
def State.inService (s : State) (d : Nat) : Bool :=
  let st := s.rf R.TORUS1_DSTATE 0 d
  s.linkUp d && (st = 2 || st = 4 || (st = 5 && !s.rb R.TORUS1_IDLE 0 d))

/-- R363: a frame leaves on a way: every frame but ACK and NAK takes the next LINK_SEQ and stays in the retry buffer. -/
def State.transmit (s : State) (d : Nat) (f : Frame) : State :=
  let x := s.dirSt d
  let plain := f.cls = 0 && (f.typ = 1 || f.typ = 2)
  let g := { f with seq := if plain then 0 else x.nextSeq,
                    ackSeq := (x.expect + 2 ^ 24 - 1) % 2 ^ 24, ackValid := true }
  let y := if plain then x else { x with nextSeq := (x.nextSeq + 1) % 2 ^ 24, retry := x.retry ++ [(g, 1)] }
  ((s.setDir d y).inc R.BORSAN_FRAMES_TX d).emit (.borsan d (g.cls * 8 + g.typ) g.dest (frameHeader g ++ g.words))

/-- R362, R363: the bytes of a frame, which the retry buffer holds until the peer accepts it. -/
def frameBytes (f : Frame) : Nat := 24 + (f.len + 7) / 8 * 8

/-- R363: the retry buffer of a way, 2 MiB. -/
def retryRoom (x : DirSt) (f : Frame) : Bool := decide ((x.retry.map fun e => frameBytes e.1).sum + frameBytes f ≤ 2 ^ 21)

/-- R364: the credits of a virtual channel. -/
def vcCredits (x : DirSt) (vc : Nat) : Nat := Tbl.getD x.vcCred vc vcGrant

/-- R363, R364: the first waiting frame of a class that may leave: the first of its virtual channel, with credits, and with room in the
retry buffer. -/
def readyFrame (x : DirSt) (cls : Nat) : Option Frame :=
  x.txq.find? fun f => f.cls = cls && x.txq.find? (fun g => frameVc g = frameVc f) == some f
    && decide (frameUnits f ≤ vcCredits x (frameVc f)) && retryRoom x f

/-- R364: the class that the sender serves next: one that has waited 8 frames, else PIP, COLLECTIVE and BULK in round-robin order. -/
def nextClass (x : DirSt) : Option (Nat × Frame) :=
  let turn := [x.lastCls % 3 + 1, (x.lastCls + 1) % 3 + 1, (x.lastCls + 2) % 3 + 1]
  let l := turn.filterMap fun c => (readyFrame x c).map fun f => (c, f)
  (l.find? fun e => decide (8 ≤ Tbl.getD x.clsWait e.1 0)).or l.head?

/-- R364: the waiting frames leave while one of them may. -/
def State.txPump (s : State) (d : Nat) : Nat → State
  | 0 => s
  | fuel + 1 =>
    let x := s.dirSt d
    match nextClass x with
    | none => s
    | some (c, f) =>
      let q := x.txq.erase f
      let wait := [1, 2, 3].foldl (fun (t : Tbl Nat) k =>
        Tbl.putD t 0 k (if k ≠ c ∧ q.any (fun g => g.cls = k) then Tbl.getD x.clsWait k 0 + 1 else 0)) []
      ((s.setDir d { x with
        txq := q, lastCls := c, clsWait := wait,
        vcCred := Tbl.put x.vcCred (frameVc f) (vcCredits x (frameVc f) - frameUnits f) }).transmit d f).txPump d fuel

/-- R364: a frame of a credited class waits for its turn, its virtual channel's credits and room in the retry buffer; CONTROL frames go
first and take no credits. -/
def State.borsanTx (s : State) (d : Nat) (f : Frame) : State :=
  if f.cls = 0 then s.transmit d f
  else
    let x := s.dirSt d
    (s.setDir d { x with txq := x.txq ++ [f] }).txPump d (x.txq.length + 1)

/-- R364: credits returned for a virtual channel; frames that waited for them leave. -/
def State.vcReturn (s : State) (d vc n : Nat) : State :=
  let x := s.dirSt d
  (s.setDir d { x with vcCred := Tbl.put x.vcCred vc (vcCredits x vc + n) }).txPump d x.txq.length

/-! ### The database -/

/-- The latest LSN of a link end. -/
def State.lsnOf (s : State) (m d : Nat) : Option Lsn := s.tor.db.find? fun l => l.origin = m && l.dir = d

/-- R373: a link is UP while the LSNs of both its ends say UP. -/
def State.dbUp (s : State) (m d : Nat) : Bool :=
  ((s.lsnOf m d).map (·.state)).getD 1 = 0 && ((s.lsnOf (s.neighbour m d) (d ^^^ 1)).map (·.state)).getD 1 = 0

/-- R373: a module is absent when it has sent LEAVING, or when none of its links is UP. -/
def State.moduleAbsent (s : State) (m : Nat) : Bool :=
  let ls := s.tor.db.filter fun l => l.origin = m
  ls.any (fun l => l.state = 3) || (!ls.isEmpty && !(List.range 6).any fun d => s.dbUp m d)

/-- R375: a frame's outgoing direction and the frame as it leaves by it, after the dimension it arrived in; none where it is
unroutable. -/
def State.outDir (s : State) (f : Frame) (inDim : Option Nat) : Option (Nat × Frame) :=
  match (orderDims f.order).find? fun dim => coord s.here dim ≠ coord f.dest dim with
  | none => none
  | some dim =>
    let turn := match inDim with
      | none => false
      | some i => decide (i ≠ dim)
    let f1 := if turn then { f with phase := f.phase + 1, dateline := false } else f
    let sgn := f1.signs.testBit dim
    let d := 2 * dim + bit sgn
    if s.moduleAbsent f.dest then none
    else if s.inService d || (s.dirSt d).failedAt.isSome then some (d, f1)
    else if f1.detoured then none
    else
      let d2 := 2 * dim + bit (!sgn)
      if s.inService d2 || (s.dirSt d2).failedAt.isSome then
        some (d2, { f1 with detoured := true, signs := f1.signs ^^^ 2 ^ dim, phase := f1.phase + 1, dateline := false })
      else none

/-- R374: DATELINE set when the frame crosses a wrap link. -/
def State.crossing (s : State) (d : Nat) (f : Frame) : Frame :=
  let n := s.dimSize (d / 2)
  let c := coord s.here (d / 2)
  if (d % 2 = 0 ∧ c + 1 = n) ∨ (d % 2 = 1 ∧ c = 0) then { f with dateline := true } else f

/-- R371, R375, R376: a frame leaves by a direction; one whose link has failed is held until the peer's LSN. -/
def State.leaveBy (s : State) (d : Nat) (f : Frame) (was : Frame) : State :=
  let s1 := if f.detoured ∧ ¬ was.detoured then
      ((s.inc R.BORSAN_DETOURED (d ^^^ 1)).setInt (borsanPage (d ^^^ 1)) R.INT_BORSAN_DETOUR).wf R.BORSAN_DETOURING (d ^^^ 1) 1
    else s
  let x := s1.dirSt d
  if x.failedAt.isSome then s1.setDir d { x with held := x.held ++ [f] }
  else s1.borsanTx d (s1.crossing d f)

/-- R375: a NOTICE of a discarded pip goes to its source module; at the source it reaches Oasis (R437). -/
def State.sendNotice (s : State) (src : Nat) (ws : List Nat) : State :=
  if src = s.here then s.emit (.mesh 11 0 [ws.getD 1 0, 2])
  else
    let e := Tbl.getD (if s.rf R.TORUS_ACTIVE_BANK 0 = 0 then s.tor.bank0 else s.tor.bank1) src 0
    let f : Frame := { cls := 1, typ := 4, dest := src, src := s.here, order := bitsOf e 0 3, signs := bitsOf e 3 3,
                       len := 24, words := ws }
    if e.testBit 6 then
      match s.outDir f none with
      | none => s
      | some (d, g) => s.leaveBy d g f
    else s

/-- R375: an unroutable frame discarded by unit `u`. A pip's credits are released and its source told. -/
def State.unroutable (s : State) (u : Nat) (f : Frame) : State :=
  let s1 := (s.inc R.BORSAN_UNROUTABLE u).blockErr (borsanPage u) 0x11 f.dest f.src (2 ^ R.INT_BORSAN_UNROUTABLE)
  if f.cls = 1 ∧ f.typ = 0 then
    let h := f.words.getD 0 0
    let n := pipCredits (f.words.length - 4)
    (s1.emit (.mesh 4 (bitsOf h 0 16) [bitsOf (f.words.getD 1 0) 19 16, bitsOf h 16 16, n, bitsOf h 48 8])).sendNotice f.src
      [bitsOf h 0 16, bitsOf h 16 16, bitsOf h 32 16]
  else s1

/-- The active route table, R370. -/
def State.routeEntry (s : State) (dest : Nat) : Nat :=
  Tbl.getD (if s.rf R.TORUS_ACTIVE_BANK 0 = 0 then s.tor.bank0 else s.tor.bank1) dest 0

/-- R371: a frame forwarded by unit `u`, where it came from its module or arrived in a direction of dimension `inDim`. -/
def State.forward (s : State) (u : Nat) (inDim : Option Nat) (f : Frame) : State :=
  match s.outDir f inDim with
  | none => s.unroutable u f
  | some (d, g) => (if d ≠ u then s.inc R.BORSAN_TRANSIT_REDIRECTS u else s).leaveBy d g f

/-- R370, R371, R378: a frame of this module to another leaves by the route table, or is held after a route switch. -/
def State.sendFrame (s : State) (u : Nat) (f : Frame) : State :=
  let e := s.routeEntry f.dest
  let g := { f with src := s.here, order := bitsOf e 0 3, signs := bitsOf e 3 3, phase := 0, dateline := false }
  if !e.testBit 6 then s.unroutable u g
  else if s.rb R.TORUS_HOLDING 0 ∧ s.tor.holdDest.contains f.dest then { s with tor := { s.tor with hold := s.tor.hold ++ [(u, g)] } }
  else s.forward u none g

/-! ### Link-state notices -/

def lsnWords (l : Lsn) : List Nat := [l.origin, l.dir, l.state, l.seq, l.stamp, l.lastSeq]

/-- R373: a notice sent on every direction that is UP but one. -/
def State.flood (s : State) (l : Lsn) (but : Option Nat) : State :=
  s.each (List.range 6) fun t d =>
    if t.linkUp d ∧ but ≠ some d then t.transmit d { cls := 0, typ := 4, len := 48, words := lsnWords l } else t

/-- R377: a notice that changes the database schedules the route switch, or moves it forward. -/
def State.schedule (s : State) (stamp : Nat) : State :=
  let due := stamp + s.rf R.TORUS_ROUTE_SETTLE_US 0 * 1000
  let cur := if s.rb R.TORUS_SWITCH_PENDING 0 then s.rf R.TORUS_SWITCH_STAMP 0 else 0
  ((s.wf R.TORUS_SWITCH_STAMP 0 (max cur due)).wf R.TORUS_SWITCH_PENDING 0 1)

/-- R394: LINKS_DOWN, each link of the database counted once. -/
def State.countLinks (s : State) : State :=
  s.wf R.TORUS_LINKS_DOWN 0 (s.tor.db.countP fun l =>
    !s.dbUp l.origin l.dir && (l.dir % 2 = 0 || (s.lsnOf (s.neighbour l.origin l.dir) (l.dir ^^^ 1)).isNone))

/-- A notice stored in the database, R373, R377. -/
def State.storeLsn (s : State) (l : Lsn) : State :=
  let changed := ((s.lsnOf l.origin l.dir).map (·.state)) ≠ some l.state
  let s1 := { s with tor := { s.tor with db := l :: s.tor.db.filter fun x => !(x.origin = l.origin && x.dir = l.dir) } }
  let s2 := (s1.wf R.TORUS_LAST_LSN_STAMP 0 l.stamp).setInt (torusPage 0) R.INT_TORUS_LSN
  (s2.when (decide changed) fun t => t.schedule l.stamp).countLinks

/-- R373: a notice newer than the one held for its origin and direction, in 16-bit sequence space. -/
def State.lsnNewer (s : State) (l : Lsn) : Bool :=
  match s.lsnOf l.origin l.dir with
  | none => true
  | some o => let d := (l.seq % 65536 + 65536 - o.seq % 65536) % 65536; 1 ≤ d && d < 32768

/-- R373, R376, R382 to R384, R497: this module's own notice for a direction. -/
def State.ownLsn (s : State) (d st : Nat) : State :=
  let q := Tbl.getD s.tor.lsnSeq d 0 + 1
  let l : Lsn := { origin := s.here, dir := d, state := st, seq := q % 65536, stamp := s.now,
                   lastSeq := ((s.dirSt d).expect + 2 ^ 24 - 1) % 2 ^ 24 }
  (({ s with tor := { s.tor with lsnSeq := Tbl.put s.tor.lsnSeq d q } }).storeLsn l).flood l none

/-! ### Remote endpoints -/

/-- R368: the slot of a remote source index 0x8000 + unit * 4,096 + slot. -/
def State.rslot (s : State) (src : Nat) : Option RSlot := Tbl.get? s.tor.slots (src - 0x8000)

def State.setSlot (s : State) (src : Nat) (r : Option RSlot) : State :=
  let l := match r with
    | none => Tbl.del s.tor.slots (src - 0x8000)
    | some x => Tbl.put s.tor.slots (src - 0x8000) x
  { s with tor := { s.tor with slots := l } }

/-- R368: credits of a return slot's channel given up; a slot is freed when none is outstanding. -/
def State.slotSub (s : State) (src n : Nat) : State :=
  if src < 0x8000 then s
  else match s.rslot src with
    | none => s
    | some r => s.setSlot src (if r.credits ≤ n then none else some { r with credits := r.credits - n })

/-- R367: an entry of a unit's endpoint table. -/
def State.endpoint (s : State) (u i : Nat) : Nat := Tbl.getD s.tor.eps (u * 4096 + i) 0

/-- R387: a descriptor is well formed. -/
def State.collOk (s : State) (i : Nat) : Bool :=
  let f (x : Field) := s.rf x 0 i
  let cb := f R.TORUS2_C_CHUNK_BLOCKS
  let top := if f R.TORUS2_C_EXACT = 1 then 15 else if f R.TORUS2_C_OPFMT = 0 then 60 else 118
  decide (f R.TORUS2_C_OP ≤ 3 ∧ f R.TORUS2_C_OPFMT ≤ 1 ∧ f R.TORUS2_C_DIMS ≠ 0 ∧ 1 ≤ cb ∧ cb ≤ top)
    && decide (f R.TORUS2_C_ELEMENTS % 32 = 0 ∧ f R.TORUS2_C_BUF_ADDR % 4096 = 0)
    && (f R.TORUS2_C_EXACT = 0 || (1 ≤ f R.TORUS2_C_XC && f R.TORUS2_C_XC ≤ 254))

/-- A contribution pip of IN_STREAM held by the collective unit `u`, R388, or by the one that stands for it (R449); one to a malformed descriptor is discarded (R387). -/
def State.contribute (s : State) (u coll : Nat) (ws : List Nat) : State :=
  let c := Tbl.getD s.tor.coll coll {}
  let w0 := ws.getD 0 0
  let w1 := ws.getD 1 0
  if s.rf R.TORUS2_C_VALID 0 coll = 0 ∨ s.rf R.TORUS2_C_IN_STREAM 0 coll ≠ bitsOf w0 16 16 ∨ !s.collOk coll then s
  else
    let w := if s.tor.retired.contains u then ((List.range 6).find? fun n => !s.tor.retired.contains n).getD u else u
    let part := (bitsOf w1 0 4 :: bitsOf w1 19 16 :: ws.drop 4, w0.testBit 56)
    { s with tor := { s.tor with coll := Tbl.put s.tor.coll coll { c with unit := if c.running then c.unit else w, parts := c.parts ++ [part] } } }

/-- R367: a message of a producer to a remote endpoint: a pip (6), a credit request (1) or released credits (4), which travel as
a PIP, CREDIT_REQ or CREDIT_RETURN frame. -/
def State.egress (s : State) (kind dest : Nat) (ws : List Nat) : State :=
  let u := (dest - 0x8000) / 4096
  let e := s.endpoint u ((dest - 0x8000) % 4096)
  let to_ := bitsOf e 0 15
  let target := bitsOf e 32 16
  if !e.testBit 15 || decide (2 ≤ bitsOf e 16 2) then
    let s1 := (s.inc R.BORSAN_UNROUTABLE u).blockErr (borsanPage u) 0x12 dest 0 (2 ^ R.INT_BORSAN_UNROUTABLE)
    if kind = 6 then s1.emit (.mesh 4 dest [bitsOf (ws.getD 1 0) 19 16, bitsOf (ws.getD 0 0) 16 16, pipCredits (ws.length - 4),
        bitsOf (ws.getD 0 0) 48 8])
    else s1
  else if bitsOf e 16 2 = 1 then
    if kind = 6 then s.contribute u (target % 64) ws else s.emit (.mesh kind dest ws)
  else
    let w0 := ws.getD 0 0
    let f : Frame :=
      if kind = 6 then
        { cls := 1, typ := 0, dest := to_, len := 24 + (ws.length - 4),
          words := (w0 - w0 % 65536 + target) :: ws.drop 1 }
      else if kind = 1 then { cls := 1, typ := 1, dest := to_, len := 40, words := [w0, dest, target] ++ ws.drop 1 }
      else { cls := 1, typ := 3, dest := to_, len := 40, words := [1, w0, target] ++ ws.drop 1 }
    s.sendFrame u f

/-- R368: a consumer's message to a remote source index: a grant (2), a return or GEN notice (3) or NO_BUFFER (5, a grant of
no credits), which travel as CREDIT_GRANT and CREDIT_RETURN frames. -/
def State.backward (s : State) (kind src : Nat) (ws : List Nat) : State :=
  match s.rslot src with
  | none => s
  | some r =>
    let n := if kind = 5 then 0 else ws.getD 2 0
    let f : Frame :=
      if kind = 3 then
        { cls := 1, typ := 3, dest := r.module, len := 40, words := [0, r.producer, r.pdest, r.stream, n, ws.getD 3 0] }
      else
        { cls := 1, typ := 2, dest := r.module, len := 40, words := [r.producer, r.pdest, r.stream, n, ws.getD 3 0] }
    let s1 := if kind = 2 then s.setSlot src (some { r with credits := r.credits + n })
      else if kind = 3 ∧ n = 0 then s.setSlot src none else s
    s1.sendFrame ((src - 0x8000) / 4096) f

/-- A message of the mesh: kinds 1 credit request, 2 grant, 3 return or GEN notice, 4 release, 5 NO_BUFFER, 6 pip, 7 stand-in
request, 8 stand-in result, 9 map acknowledgement, 10 KV command, 11 notice, 12 mailbox,
13 evidence, 17 HBM response, 15 a set dispatched, 16 a drain set, 18 a resend asked of a contributor, 20 a response delivered,
19 a response redirected. -/
def State.mesh (s : State) (kind dest : Nat) (words : List Nat) : State :=
  if destRemote dest ∧ (kind = 6 ∨ kind = 1 ∨ kind = 4) then s.egress kind dest words
  else if 0x8000 ≤ dest ∧ (kind = 2 ∨ kind = 3 ∨ kind = 5) then s.backward kind dest words
  else s.emit (.mesh kind dest words)

/-- R437: Oasis is told of a pip withheld from an absent core: its stream (the notice of R437 and R465). -/
def State.notice (s : State) (stream kind : Nat) : State := s.mesh 11 0 [stream, kind]

end Sys2Proof.Machine
end

