-- ==== Sys2Proof/Machine/Pips.lean ====
section
/-! DEFINITION. What every core shares of the pip dataflow: its page, its reset and clock, pip costs (R240), channels and credits
(R241, R242), input buffers, and pips sent (R237, R238, R246). -/

namespace Sys2Proof.Machine

/-! ### Cores -/

/-- Page 0 of a logical core. -/
def corePage (ck : Nat) : Page :=
  { blk := if kindOfLogical (ck % 64) = 0 then 0x10 else if kindOfLogical (ck % 64) = 1 then 0x14 else 0x15, inst := ck }

def engPage (e : Nat) (p : Nat := 0) : Page := { blk := 0x12, inst := e, page := p }
def mcorePage (ck : Nat) (p : Nat := 0) : Page := { blk := 0x10, inst := ck, page := p }
def routerPage (r : Nat) (p : Nat := 0) : Page := { blk := 0x18, inst := r, page := p }

/-- R461: the domain is in the Reset phase of a reset of it or of a domain containing it: STATUS.IN_RESET of R49. -/
def State.inReset (s : State) (d : Dom) : Bool := s.rsts.any fun r => r.phase = 3 && r.dom.contains d

/-- R57, R467: the Restore phase. -/
def State.restoring (s : State) (d : Dom) : Bool := s.rsts.any fun r => r.phase = 4 && r.dom.contains d

/-- R467: a gate holds the domain: from the gate to release. -/
def State.gated (s : State) (d : Dom) : Bool := s.rsts.any fun r => r.dom.contains d

/-- R467, R538: steps may not fire: an absorb gate, a cut that waits, Reset or Restore, or partition rails that are off. -/
def State.fireGated (s : State) (d : Dom) : Bool :=
  (s.md.railsOff && decide (d ≠ .die)) || s.rsts.any fun r => (r.absorb || 2 ≤ r.phase) && r.dom.contains d

/-- R54, R243: the GEN of a logical core. -/
def State.coreGen (s : State) (ck : Nat) : Nat := s.gen (.core ck)

/-- R23: the core clock of a core in MHz. -/
def State.coreMhz (s : State) (ck : Nat) : Nat := Tbl.getD s.clk.core (s.physOf ck) 1750

/-- Engine cycles of an interval of ns on a core's clock. -/
def State.cycles (s : State) (ck ns : Nat) : Nat := ns * s.coreMhz ck / 1000

/-- R36: the router a logical core's network interface attaches to, by the active map. -/
def State.routerOfCore (s : State) (ck : Nat) : Nat := routerInst (routerOfPhys (ck / 64) (s.physOf ck % 64))

/-- The physical core behind a logical number is fenced and no spare carries the number, R49. -/
def State.coreFenced (s : State) (ck : Nat) : Bool := s.rb R.PCORE_FENCED (s.physOf ck)

/-! ### Route headers, R236 -/

/-- R238: flits of a packet whose words after the route header and stored header are `n` bytes. -/
def pipFlits (n : Nat) : Nat := 1 + (n - 80 + 127) / 128

/-- R232: the class of a message: 0 request, 1 response, 2 pip, 3 management. -/
def meshClass (kind : Nat) : Nat :=
  if kind = 6 then 2 else if [2, 3, 5, 8, 17, 19, 20].contains kind then 1 else if [1, 4, 7, 10].contains kind then 0 else 3

/-- R236, R246: the route header of a message of logical core `ck` to logical core `dest`: the way by the injecting router's own active map,
its map version, and the requester's GEN of a request or as a response echoes it. TYPE of a request or a response is the model's number of
the message (DESIGN CHOICE, log 41). -/
def State.routeHeader (s : State) (ck kind dest reqGen bytes : Nat) : Nat :=
  let i := s.physOf ck % 64
  let p := routerOfPhys (ck / 64) i
  let j := (s.mapEntry (routerInst p) dest).1
  let q := routerOfPhys (dest / 64) j
  pack [(q.1, 0, 5), (q.2, 5, 4), (j % 4, 9, 3), (meshClass kind, 12, 2), (if kind = 6 then 0 else kind, 14, 4), (pipFlits bytes - 1, 18, 5),
    (p.1, 23, 5), (p.2, 28, 4), (i % 4, 32, 3), (s.rf R.ROUTER_MAP_VER (routerInst p), 35, 8), (if kind = 6 then 0 else reqGen, 43, 8)]

/-- A message of a logical core, with the route header of its packet where it stays on the die. -/
def State.meshFrom (s : State) (ck kind dest reqGen : Nat) (words : List Nat) (bytes : Nat := 0) : State :=
  (if destLocal dest then s.emit (.route (s.routeHeader ck kind dest reqGen bytes)) else s).mesh kind dest words

/-- R246: a logical core is ABSENT by the active bank of the router of core `ck`. -/
def State.absentAt (s : State) (ck dest : Nat) : Bool := (s.mapEntry (s.routerOfCore ck) dest).2

/-! ### Costs, channels and buffers -/

def State.chan (s : State) (ck dest stream : Nat) : Option Chan :=
  s.chans.find? fun c => c.core = ck && c.dest = dest && c.stream = stream

/-- A channel replaced and made the most recently used. -/
def State.setChan (s : State) (c : Chan) : State :=
  { s with chans := s.chans.filter (fun x => !(x.core = c.core && x.dest = c.dest && x.stream = c.stream)) ++ [c] }

/-- R241: the channel of a producer, made if it is new; with 256 in use the least recently used one without a reservation gives
its credits back first. -/
def State.openChan (s : State) (ck dest stream : Nat) : State :=
  match s.chan ck dest stream with
  | some _ => s
  | none =>
    let mine := s.chans.filter fun c => c.core = ck
    let s1 := if mine.length < 256 then s
      else match mine.find? fun c => c.reserved = 0 with
        | none => s
        | some c =>
          { s with chans := s.chans.filter fun x => !(x.core = ck && x.dest = c.dest && x.stream = c.stream) }.meshFrom ck 4 c.dest
            (s.coreGen ck) [ck, c.stream, c.credits, c.gen]
    if (s1.chans.filter fun c => c.core = ck).length < 256 then
      s1.setChan { core := ck, dest := dest, stream := stream, usedAt := s.elapsed }
    else s1

/-- Credits of a channel not reserved. -/
def State.chanFree (s : State) (ck dest stream : Nat) : Nat :=
  match s.chan ck dest stream with
  | none => 0
  | some c => c.credits - c.reserved

/-- R241: a channel asks for what it falls short of `n`, once while a request stands. -/
def State.chanAsk (s : State) (ck dest stream n : Nat) : State :=
  let s1 := s.openChan ck dest stream
  match s1.chan ck dest stream with
  | none => s1
  | some c =>
    let short := n - (c.credits - c.reserved)
    if c.want = 0 ∧ 0 < short ∧ c.noBuf = none then
      (s1.setChan { c with want := short }).meshFrom ck 1 dest (s1.coreGen ck) [ck, stream, short, s1.coreGen ck]
    else s1

/-- R176, R209: the credits a step needs on each destination are held; otherwise the shortfalls are asked for. -/
def State.haveCredits (s : State) (ck stream : Nat) (needs : List (Nat × Nat)) : Bool :=
  needs.all fun d => d.2 ≤ s.chanFree ck d.1 stream

def State.askCredits (s : State) (ck stream : Nat) (needs : List (Nat × Nat)) : State :=
  s.each needs fun t d => t.chanAsk ck d.1 stream d.2

/-- R177: credits reserved on each destination. -/
def State.reserve (s : State) (ck stream : Nat) (needs : List (Nat × Nat)) : State :=
  s.each needs fun t d =>
    match t.chan ck d.1 stream with
    | none => t
    | some c => t.setChan { c with reserved := c.reserved + d.2, usedAt := t.elapsed }

/-- Credits reserved and not used given back to the channel's holding (R210). -/
def State.unreserve (s : State) (ck stream : Nat) (needs : List (Nat × Nat)) : State :=
  s.each needs fun t d =>
    match t.chan ck d.1 stream with
    | none => t
    | some c => t.setChan { c with reserved := c.reserved - d.2 }

/-- The key of an input buffer: a logical core and its descriptor, kernel entry or receive queue. -/
def bufKey (ck idx : Nat) : Nat := ck * 512 + idx

/-- Needs of a destination named more than once joined. -/
def joinNeeds (l : List (Nat × Nat)) : List (Nat × Nat) :=
  ((l.map (·.1)).eraseDups).map fun d => (d, ((l.filter fun x => x.1 = d).map (·.2)).sum)

def State.buf (s : State) (ck idx : Nat) : BufSt := Tbl.getD s.bufs (bufKey ck idx) {}
def State.setBuf (s : State) (ck idx : Nat) (b : BufSt) : State := { s with bufs := Tbl.put s.bufs (bufKey ck idx) b }

/-- Descriptor `d` of an M-core, R169, as its eight words. -/
def State.descWords (s : State) (ck d : Nat) : List Nat :=
  s.sramWords ck (s.rf R.MCORE1_DESC_BASE ck * 16 + 64 * d) 8

/-- Kernel entry `d` of a V-core, R208, as its four words. -/
def State.kernWords (s : State) (ck d : Nat) : List Nat :=
  s.sramWords ck (s.rf R.VCORE_KTAB_BASE ck * 16 + 32 * d) 4

/-- R175, R208: the valid descriptor or entry of lowest index whose IN_STREAM is the stream and, where an epoch is given, whose
EPOCHS bit is set; an S-core's receive queue takes every stream (R224). -/
def State.matchBuf (s : State) (ck stream : Nat) (epoch : Option Nat) : Option Nat :=
  let k := kindOfLogical (ck % 64)
  let ep (m : Nat) : Bool := match epoch with
    | none => true
    | some e => m.testBit e
  if k = 0 then (List.range (s.rf R.MCORE1_DESC_COUNT ck)).find? fun d =>
    let w := s.descWords ck d
    wf_ w 0 63 1 = 1 && wf_ w 1 0 16 = stream && ep (wf_ w 0 56 4)
  else if k = 1 then (List.range (s.rf R.VCORE_KTAB_COUNT ck)).find? fun d =>
    let w := s.kernWords ck d
    wf_ w 0 28 1 = 1 && wf_ w 0 0 16 = stream && ep (wf_ w 0 24 4)
  else some 0

/-- The size of a buffer in credits: IN_SIZE of R172 and R208; an S-core's receive queue is of a size the spec does not
state (Config.rxCredits, log 20). -/
def State.bufSize (s : State) (ck idx : Nat) : Nat :=
  let k := kindOfLogical (ck % 64)
  if k = 0 then wf_ (s.descWords ck idx) 1 43 15
  else if k = 1 then wf_ (s.kernWords ck idx) 2 18 18
  else Config.rxCredits

/-- Credits the consumer may grant: none while its domain is gated (R467, R469). -/
def State.bufFree (s : State) (ck idx : Nat) : Nat :=
  if s.gated (.core ck) then 0 else s.bufSize ck idx - (s.buf ck idx).used

/-- R241: a grant of `n` credits to a request, carrying the consumer's GEN (R243) and echoing the producer's (R244). A remote producer is
reached through its return slot (R368). -/
def State.grant (s : State) (ck : Nat) (r : CredReq) (n : Nat) : State :=
  s.meshFrom ck 2 (if r.slot = 0xFFFF then r.producer else 0x8000 + r.slot) r.rgen [r.dest, r.stream, n, s.coreGen ck]

/-- R241, R242: the requests waiting at a buffer served from its free credits, in order. -/
def State.serveQueue (s : State) (ck idx : Nat) : Nat → State
  | 0 => s
  | fuel + 1 =>
    let b := s.buf ck idx
    match b.queue with
    | [] => s
    | r :: rest =>
      let n := min r.n (s.bufFree ck idx)
      if n = 0 then s
      else
        let q := if n = r.n then rest else { r with n := r.n - n } :: rest
        ((s.setBuf ck idx { b with used := b.used + n, queue := q }).grant ck r n).serveQueue ck idx fuel

/-- R241: a credit request at a consumer: granted from the free credits, the rest queued. -/
def State.takeRequest (s : State) (ck idx : Nat) (r : CredReq) : State :=
  let b := s.buf ck idx
  (s.setBuf ck idx { b with queue := b.queue ++ [r] }).serveQueue ck idx (b.queue.length + 1)

/-- R242: a freed pip's credits: they serve the waiting requests, or go back to the producer that paid for it. -/
def State.freePip (s : State) (ck idx : Nat) (p : Pip) : State :=
  let b := s.buf ck idx
  let n := pipCredits p.payload.length
  if b.queue.isEmpty then s.meshFrom ck 3 p.source (s.coreGen p.source) [p.dest, p.stream, n, s.coreGen ck]
  else ((s.setBuf ck idx { b with used := b.used - n }).slotSub p.source n).serveQueue ck idx (b.queue.length + 1)

/-- The pips of a set taken out of a buffer and their credits freed (R179, R210). -/
def State.freeSet (s : State) (ck idx : Nat) (ps : List Pip) : State := s.each ps fun t p => t.freePip ck idx p

/-! ### Buffers in SRAM -/

/-- The SRAM offset of a buffer: IN_BUF of R172 and R208. -/
def State.bufBase (s : State) (ck idx : Nat) : Nat :=
  16 * (if kindOfLogical (ck % 64) = 0 then wf_ (s.descWords ck idx) 1 28 15 else wf_ (s.kernWords ck idx) 2 0 18)

/-- R238: a pip as it stands in its consumer's buffer: the stored header of four words, the payload, and zeros to a whole unit. -/
def storedBytes (p : Pip) : List Nat :=
  let hdr := [pack [(p.dest, 0, 16), (p.stream, 16, 16), (p.seq, 32, 16), (p.gen, 48, 8), (bit p.hollow, 56, 1), (bit p.last, 57, 1),
    (p.epoch, 58, 2), (bit p.drain, 60, 1)], pack [(p.fmt, 0, 4), (p.payload.length, 8, 11), (p.source, 19, 16)], p.egress, p.ingress]
  let bs := hdr.flatMap (leBytes 8) ++ p.payload
  bs ++ List.replicate ((16 - bs.length % 16) % 16) 0

/-- Bytes written in 16-byte units of a logical core's SRAM: a codeword of which both units are written is clean after it (R432). -/
def State.unitsPut (s : State) (ck : Nat) (us bs : List Nat) : State :=
  (us.zipIdx).foldl (fun (t : State) u =>
    let t1 := t.sramWrite ck (16 * u.1) 16 (ofBytes ((bs.drop (16 * u.2)).take 16))
    if u.1 % 2 = 0 && us.contains (u.1 + 1) then t1.sramMark ck (16 * u.1) false else t1) s

/-- The bytes of 16-byte units of a logical core's SRAM, and whether any of their codewords is hollow. -/
def State.unitsGet (s : State) (ck : Nat) (us : List Nat) : List Nat × Bool :=
  (us.flatMap fun u => leBytes 16 (s.sramRead ck (16 * u) 16), us.any fun u => s.sramIsHollow ck (16 * u))

/-- R238: a pip written into its buffer: it takes the lowest units of IN_SIZE that hold no waiting pip (DESIGN CHOICE, log 39: the spec
does not say where in the buffer a pip is written). -/
def State.bufPut (s : State) (ck idx : Nat) (p : Pip) : State :=
  let b := s.buf ck idx
  let base := s.bufBase ck idx / 16
  let used := b.pips.flatMap (·.units)
  let us := (((List.range (s.bufSize ck idx)).map (base + ·)).filter fun u => !used.contains u).take (pipCredits p.payload.length)
  (s.unitsPut ck us (storedBytes p)).setBuf ck idx
    { b with pips := b.pips ++ [{ pip := { p with payload := [] }, at_ := p.ingress, bytes := p.payload.length, units := us }] }

/-- A pip as a firing step reads it from its buffer; a hollow codeword makes it hollow (R205, R432). -/
def State.bufGet (s : State) (ck : Nat) (p : StoredPip) : Pip :=
  let r := s.unitsGet ck p.units
  { p.pip with payload := (r.1.drop 32).take p.bytes, hollow := p.pip.hollow || r.2 }

/-! ### Sending -/

/-- R238: a pip's words as the mesh carries them, EGRESS_STAMP set at injection. -/
def pipWords (p : Pip) : List Nat :=
  [pack [(p.dest, 0, 16), (p.stream, 16, 16), (p.seq, 32, 16), (p.gen, 48, 8), (bit p.hollow, 56, 1), (bit p.last, 57, 1),
         (p.epoch, 58, 2), (bit p.drain, 60, 1)],
   pack [(p.fmt, 0, 4), (p.payload.length, 8, 11), (p.source, 19, 16)], p.egress, 0] ++ p.payload

/-- R36: a drop counted and recorded by a network interface (R243, R256). -/
def State.genDrop (s : State) (router dest stream seq gen : Nat) : State :=
  (((((s.inc R.ROUTER_GEN_DROPS router).wf R.ROUTER_LAST_DROP_STAMP router s.now).wf R.ROUTER_DROP_DEST router dest).wf
    R.ROUTER_DROP_STREAM router stream).wf R.ROUTER_DROP_SEQ router seq).wf R.ROUTER_DROP_GEN router gen
    |>.blockErr (routerPage router) 0x11 dest stream (2 ^ R.INT_ROUTER_GEN_DROP)

/-- R238, R367: the most payload bytes of a pip to a destination. -/
def payloadMax (dest : Nat) : Nat := if destRemote dest then 1992 else 2000

/-- R238, R239: a send to a reserved destination, or of a longer payload than its destination takes, sends nothing: an M-core counts a
failed tile (R68). -/
def State.failedSend (s : State) (ck : Nat) : State :=
  if kindOfLogical (ck % 64) = 0 then
    (s.inc R.MCORE_FAILED_TILES ck).setInt (mcorePage ck) R.INT_MCORE_TILE_FAILED
  else s

/-- R25, R238, R240, R243, R246: a core's next pip injected when its channel holds the credits, with the channel's GEN and its
EGRESS_STAMP; `none` while it must wait (the shortfall is asked for, or the router is held). A pip to an ABSENT entry is not sent. -/
def State.inject (s : State) (ck : Nat) (p : Pip) (reserved : Nat) : Option State × State :=
  let n := pipCredits p.payload.length
  if s.rb R.ROUTER_HELD (s.routerOfCore ck) then (none, s)
  else if destLocal p.dest ∧ s.absentAt ck p.dest then
    let s1 := (s.unreserve ck p.stream [(p.dest, min n reserved)]).genDrop (s.routerOfCore ck) p.dest p.stream p.seq p.gen
    (some (s1.notice p.stream 1), s)
  else if !(destLocal p.dest || destRemote p.dest) || decide (payloadMax p.dest < p.payload.length) then
    (some ((s.unreserve ck p.stream [(p.dest, min n reserved)]).failedSend ck), s)
  else
    match s.chan ck p.dest p.stream with
    | none => (none, s.chanAsk ck p.dest p.stream n)
    | some c =>
      let r := min (min n reserved) c.reserved
      if n ≤ c.credits - c.reserved + r then
        let s1 := s.setChan { c with credits := c.credits - n, reserved := c.reserved - r, usedAt := s.elapsed }
        (some (s1.meshFrom ck 6 p.dest 0 (pipWords { p with gen := c.gen, source := ck, egress := s.now }) p.payload.length), s)
      else (none, s.chanAsk ck p.dest p.stream (n - r))

end Sys2Proof.Machine
end

