-- ==== Sys2Proof/Machine/Engine.lean ====
section
/-! DEFINITION. The ferroelectric engine and the first stages of its post-unit: banks (R64 to R68), conversions (R72 to R84), the
corrected and accumulated results (R186 to R188), pilot sweeps and trims (R85 to R94). -/

namespace Sys2Proof.Machine

/-! ### Names -/

/-- Core `c * 64 + k` and engine number of a logical engine's instance (R96). -/
def engCore (e : Nat) : Nat := e / 1024 * 64 + e % 1024 / 16
def engNum (e : Nat) : Nat := e % 16
/-- The instance of engine `n` of core `ck`. -/
def engInst (ck n : Nat) : Nat := ck / 64 * 1024 + ck % 64 * 16 + n

def State.engSt (s : State) (e : Nat) : EngSt := Tbl.getD s.eng e {}
def State.setEng (s : State) (e : Nat) (x : EngSt) : State := { s with eng := Tbl.put s.eng e x }

/-- The physical engine a logical engine stands on. -/
def State.physEng (s : State) (e : Nat) : Nat := s.physOf (engCore e) * 16 + engNum e

/-- The key of a row of a physical engine's bank. -/
def cellKey (pe bank row : Nat) : Nat := (pe * 2 + bank) * 512 + row

/-- R63: the slice digits a row of a bank holds: data slices 0 to 255, then PL0 to PL7. -/
def State.rowCells (s : State) (e bank row : Nat) : List Int := Tbl.getD s.cells (cellKey (s.physEng e) bank row) []

/-- R85: the digits of PL0 to PL7 in a row. -/
def pilotDigits (row : Nat) : List Int := [3, 2, 1, 0, -1, -2, -3, if row % 2 = 0 then 3 else -3]

/-- R86: what PL`k` of a bank sums to over `n` rows from `first`. -/
def State.pilotSum (s : State) (e b first n k : Nat) : Int :=
  (List.range n).foldl (fun a r => a + (s.rowCells e b (first + r)).getD (256 + k) 0) 0

/-- R86: PL0 to PL7 of 64-row block `j` converted at 9 bits: the sums of the digits held, with what the circuit adds (`noise`, in LSB). -/
def State.blockRead (s : State) (e b j : Nat) (noise : List Int) : List Int :=
  (List.range 8).map fun k => max (-256) (min 255 (s.pilotSum e b (64 * j) 64 k + noise.getD k 0))

def bankStateF (b : Nat) : Field := if b = 0 then R.ENG_A_STATE else R.ENG_B_STATE
def retrimF (b : Nat) : Field := if b = 0 then R.ENG_A_RETRIM else R.ENG_B_RETRIM
def driftHardF (b : Nat) : Field := if b = 0 then R.ENG_A_DRIFT_HARD else R.ENG_B_DRIFT_HARD
def gainF (b : Nat) : Field := if b = 0 then R.ENG1_GAIN_A else R.ENG1_GAIN_B
def offsetF (b : Nat) : Field := if b = 0 then R.ENG1_OFFSET_A else R.ENG1_OFFSET_B
def spanBaseF (b : Nat) : Field := if b = 0 then R.ENG1_SPAN_BASE_A else R.ENG1_SPAN_BASE_B
def zeroBaseF (b : Nat) : Field := if b = 0 then R.ENG1_ZERO_BASE_A else R.ENG1_ZERO_BASE_B
def readLoF (b : Nat) : Field := if b = 0 then R.ENG1_READ_A_LO else R.ENG1_READ_B_LO
def readHiF (b : Nat) : Field := if b = 0 then R.ENG1_READ_A_HI else R.ENG1_READ_B_HI
def sweepStampF (b : Nat) : Field := if b = 0 then R.ENG1_SWEEP_STAMP_A else R.ENG1_SWEEP_STAMP_B
def epochBankF (n : Nat) : Field :=
  if n = 0 then R.ENG_EPOCH0_BANK else if n = 1 then R.ENG_EPOCH1_BANK else if n = 2 then R.ENG_EPOCH2_BANK else R.ENG_EPOCH3_BANK

/-! ### Banks -/

def State.bankState (s : State) (e b : Nat) : Nat := s.rf (bankStateF b) e
def State.ready (s : State) (e b : Nat) : Bool := s.bankState e b = bankReady

/-- R66: a bank is bound to some epoch. -/
def State.bankBound (s : State) (e b : Nat) : Bool := (List.range 4).any fun n => s.rf (epochBankF n) e = b + 1

/-- R92: the bank is tracked. -/
def State.tracked (s : State) (e b : Nat) : Bool := s.ready e b && (s.bankBound e b || s.rb R.ENG1_TRACK_STAGED e)

def EngSt.pilot (x : EngSt) (b : Nat) : PilotSt := if b = 0 then x.pa else x.pb
def EngSt.setPilot (x : EngSt) (b : Nat) (p : PilotSt) : EngSt := if b = 0 then { x with pa := p } else { x with pb := p }

def State.pilot (s : State) (e b : Nat) : PilotSt := (s.engSt e).pilot b
def State.setPilot (s : State) (e b : Nat) (p : PilotSt) : State := s.setEng e ((s.engSt e).setPilot b p)

/-- R92: PILOT_CTL.INTERVAL in ns. -/
def State.pilotInterval (s : State) (e : Nat) : Nat := s.rf R.ENG1_INTERVAL e * 1000

/-- R92: PILOT_STALE clears when every tracked bank has completed a sweep within the last 4 x INTERVAL. -/
def State.unstale (s : State) (e : Nat) : State :=
  let fresh (b : Nat) : Bool :=
    !s.tracked e b || ((s.pilot e b).everSwept && decide (s.elapsed - (s.pilot e b).doneAt ≤ 4 * s.pilotInterval e))
  if s.rb R.ENG_PILOT_STALE e && fresh 0 && fresh 1 then s.wf R.ENG_PILOT_STALE e 0 else s

/-- R97: a tile, a sweep or a verify read is using the bank: running, or begun and not finished. -/
def State.inUse (s : State) (e b : Nat) : Bool :=
  (match (s.engSt e).tile with
    | some t => t.bank = b
    | none => false)
  || (s.pilot e b).block ≠ 0
  || (match (Tbl.getD s.prog e {}).running with
    | some o => o.bank = b && o.verify.any fun v => v.2.1 ≠ 0
    | none => false)

/-- R92: sweep clocks after a change of a bank's state, of a binding, of TRACK_STAGED or of PILOT_EN, from the state before it:
a bank that becomes tracked, or finds PILOT_EN back at 1, starts its clock, and asks for a sweep where its last one is too
old or missing. -/
def State.retrack (s : State) (e : Nat) (before : State) : State :=
  (s.each [0, 1] fun t b =>
    let en := t.rb R.ENG_PILOT_EN e
    let starts := t.tracked e b && en && (!before.tracked e b || !before.rb R.ENG_PILOT_EN e)
    if starts then
      let p := t.pilot e b
      let old := !p.everSwept || p.fresh || decide (t.pilotInterval e < t.elapsed - p.doneAt)
      t.setPilot e b { p with clock := t.elapsed, wanted := p.wanted || old }
    else t).unstale e

/-- R147: a bank's state changed, with INT_STATUS.BANK_STATE; a sweep begun on a bank that is programmed anew is abandoned. -/
def State.setBankState (s : State) (e b st : Nat) : State :=
  let s1 := (s.wf (bankStateF b) e st).setInt (engPage e) R.INT_ENG_BANK_STATE
  (s1.when (st = bankProgramming) fun t =>
    t.setPilot e b { t.pilot e b with block := 0, sums := [], wanted := false, cold := false }).retrack e s

/-- R66: a binding that names a bank that is not READY. -/
def State.badBinding (s : State) (e w : Nat) : Bool :=
  (List.range 4).any fun n => let v := bitsOf w (2 * n) 2
    (v = 1 && !s.ready e 0) || (v = 2 && !s.ready e 1)

/-- R66, R67: the bindings of a word of BANK_CTL applied. -/
def State.bind (s : State) (e w : Nat) : State :=
  (s.each (List.range 4) fun t n => t.wf (epochBankF n) e (bitsOf w (2 * n) 2)).retrack e s

/-- R90, R161: the bank that serves an epoch on an engine, 0 A or 1 B. -/
def State.epochBank (s : State) (e ep : Nat) : Option Nat :=
  let v := s.rf (epochBankF (ep % 4)) e
  if v = 1 then some 0 else if v = 2 then some 1 else none

/-! ### Conversions -/

/-- R76: lossless resolution for `n` rows. -/
def losslessBits (n : Nat) : Nat :=
  let r := (n + 7) / 8 * 8
  (List.range 12).foldl (fun b i => if 2 ^ i < 6 * r + 1 then i + 1 else b) 0

/-- R186: one result corrected to units of 1/16 LSB: gain, offset, column correction, then alignment to the reference
scale. -/
def corrected (r n : Int) (offset gain cg : Int) (co : Int) (shift : Int) : Int :=
  let c : Dy := { m := (1024 * r - n * offset - 64 * co) * gain * cg, e := -35 }
  let c16 := c.roundAt 0 .rne
  if shift = 0 then c16 else ({ m := c16, e := shift } : Dy).roundAt 0 .rne

/-- R202: column gain and offset of a bank's slice; 1.0 and 0 while CORR_EN is 0. -/
def State.column (s : State) (e bank slice : Nat) : Nat × Int :=
  if s.rb R.POST_CORR_EN e then
    let i := slice / 2
    let (g, o) := if bank = 0 then (if slice % 2 = 0 then (R.POST_CG_A_0, R.POST_CO_A_0) else (R.POST_CG_A_1, R.POST_CO_A_1))
      else (if slice % 2 = 0 then (R.POST_CG_B_0, R.POST_CO_B_0) else (R.POST_CG_B_1, R.POST_CO_B_1))
    (s.rf g e i, signedOf 16 (s.rf o e i))
  else (0x8000, 0)

/-- R186, R187: the results of one quarter accumulated: `rs` the 64 raw values, `n` the ones count. -/
def State.accumulate (s : State) (e : Nat) (t : Tile) (c : Conv) (rs : List Int) (n : Nat) : State :=
  let x := s.engSt e
  let off := signedOf 16 (s.rf (offsetF t.bank) e)
  let gain : Int := s.rf (gainF t.bank) e
  let acc := (rs.zipIdx).foldl (fun a v =>
    let slice := 64 * c.quarter + v.2
    let (cg, co) := s.column e t.bank slice
    let k := corrected v.1 n off gain cg co ((c.scale : Int) - t.xref)
    let w := k * (2 : Int) ^ c.plane
    Tbl.put a slice (Tbl.getD a slice 0 + (if c.sign then -w else w))) x.acc
  s.setEng e { x with acc := acc }

/-- R74: leading conversions with no active row are skipped while ZERO_SKIP is 1: they deliver zero with an ones count of 0. -/
def State.skipZero (s : State) (e : Nat) : Nat → State
  | 0 => s
  | fuel + 1 =>
    let x := s.engSt e
    match x.tile with
    | none => s
    | some t =>
      match t.todo with
      | [] => s
      | c :: rest =>
        if c.ones.isEmpty && s.rb R.ENG_ZERO_SKIP e then
          let s1 := s.accumulate e t c (List.replicate 64 0) 0
          (s1.setEng e { s1.engSt e with tile := some { t with todo := rest } }).skipZero e fuel
        else s

/-- R67, R84: a tile begins: its bank is the epoch's and ACTIVE; the accumulators start empty, and the first conversion is stamped. -/
def State.beginTile (s : State) (e : Nat) (t : Tile) : State :=
  ((s.setEng e { s.engSt e with tile := some { t with stamp := s.now }, acc := [] }).wf R.ENG_ACTIVE e (t.bank + 1)).skipZero e
    (t.todo.length + 1)

/-- The tile of an engine has nothing left to convert. -/
def State.tileOver (s : State) (e : Nat) : Bool :=
  match (s.engSt e).tile with
  | some t => t.todo.isEmpty
  | none => false

/-- R81: the records of one clip. Of several clips in one sub-step LAST_CLIP_INFO keeps the highest slice's: the spec names no order
(DESIGN CHOICE, log 38). -/
def State.clipInfo (s : State) (e : Nat) (t : Tile) (c : Conv) (slice : Nat) (lower : Bool) (b : Nat) : State :=
  ((((((((s.inc R.ENG_CLIPS e).wf R.ENG_LAST_CLIP_STAMP e s.now).wf R.ENG_CLIP_GROUP e c.group).wf R.ENG_CLIP_PLANE e
    c.plane).wf R.ENG_CLIP_SLICE e slice).wf R.ENG_CLIP_SIDE e (bit lower)).wf R.ENG_CLIP_BITS e b).wf R.ENG_CLIP_EPOCH e
    t.epoch).wf R.ENG_CLIP_BANK e t.bank

/-- R77, R80 to R82, R84: a sub-step ends. Each converter's value is the charge sum of its slice over the pulsed rows plus
what the circuit adds (`noise`, in LSB), limited to the resolution in use; a clip is recorded, and either the tile starts
again in lossless mode or it goes on flagged. -/
def State.subStep (s : State) (e : Nat) (noise : List Int) : State :=
  match (s.engSt e).tile with
  | none => s
  | some t =>
    match t.todo with
    | [] => s
    | c :: rest =>
      let comp := match t.comp with
        | some k => decide (k < c.bits)
        | none => false
      let b := if comp then t.comp.getD c.bits else c.bits
      let lo : Int := -((2 : Int) ^ (b - 1))
      let hi : Int := (2 : Int) ^ (b - 1) - 1
      let raw := (List.range 64).map fun k =>
        (c.ones.foldl (fun a r => a + (s.rowCells e t.bank r).getD (64 * c.quarter + k) 0) 0) + noise.getD k 0
      let clips := if comp then (raw.zipIdx).filter fun v => decide (v.1 < lo) || decide (hi < v.1) else []
      let rs := raw.map fun v => max lo (min hi v)
      let cyc := b + 2
      let s1 := (s.wf R.ENG_BUSY_CYCLES e (s.rf R.ENG_BUSY_CYCLES e + cyc))
      let s2 := s1.each clips fun u v => u.clipInfo e t c (64 * c.quarter + v.2) (decide (v.1 < lo)) b
      let first := !clips.isEmpty && !t.clipped
      let s3 := s2.when first fun u => (u.inc R.ENG_CLIP_TILES e).setInt (engPage e) R.INT_ENG_CLIP
      let s4 := s3.accumulate e t c rs c.ones.length
      if !clips.isEmpty && !t.escalate then
        let s5 := (s4.inc R.ENG_REPEATS e).inc R.ENG_REPEAT_CYCLES e (t.cycles + cyc)
        (s5.setEng e { s5.engSt e with
          tile := some { t with todo := t.all, comp := none, clipped := true, repeated := true, cycles := 0 }, acc := [] }).skipZero
          e (t.all.length + 1)
      else
        (s4.setEng e { s4.engSt e with
          tile := some { t with todo := rest, clipped := t.clipped || !clips.isEmpty, cycles := t.cycles + cyc } }).skipZero e
          (rest.length + 1)

/-- R188: channels of an enabled quarter. -/
def quarterChannels (wfmt q : Nat) : List Nat :=
  if wfmt = 0 then (List.range 32).map fun i => 32 * q + i else (List.range 64).map fun i => 64 * q + i

/-- R188: the combined values of the enabled quarters' channels, in units of 1/16. -/
def combined (wfmt quarters : Nat) (acc : Tbl Int) : List Int :=
  (List.range 4).flatMap fun q => if quarters.testBit q then
    (quarterChannels wfmt q).map fun j =>
      if wfmt = 0 then 4 * Tbl.getD acc (2 * j + 1) 0 + Tbl.getD acc (2 * j) 0 else Tbl.getD acc j 0
  else []

/-- R81, R98: the tile completes and the engine is free; its combined values and whether it carries the CLIPPED flag. -/
def State.endTile (s : State) (e : Nat) : State × List Int × Bool :=
  match (s.engSt e).tile with
  | none => (s, [], false)
  | some t =>
    let vals := combined t.wfmt t.quarters (s.engSt e).acc
    let s1 := (s.inc R.ENG_TILE_COUNT e).when t.repeated fun u => u.inc R.ENG_REPEAT_CYCLES e t.cycles
    (s1.setEng e { s1.engSt e with tile := none, acc := [] }, vals, t.clipped && t.escalate)

/-- R95: a reset discards the running tile and abandons a running sweep. -/
def State.dropTile (s : State) (e : Nat) : State :=
  let x := s.engSt e
  let z (p : PilotSt) : PilotSt := { p with block := 0, sums := [], wanted := false }
  s.setEng e { x with tile := none, acc := [], pa := z x.pa, pb := z x.pb }

/-! ### Pilot sweeps -/

/-- R99: four signed 16-bit readings in a word. -/
def packReads (vs : List Int) : Nat :=
  pack ((vs.take 4).zipIdx.map fun v => (fieldOfInt 16 v.1, 16 * v.2, 16))

/-- The reading of pilot slice `k` in the last sweep of a bank. -/
def State.pilotRead (s : State) (e b k : Nat) : Int :=
  signedOf 16 (bitsOf (s.rf (if k < 4 then readLoF b else readHiF b) e) (16 * (k % 4)) 16)

/-- R85: six times the expected digit slope of PL1, PL2, PL4, PL5 and PL7: pilot slice and digit. -/
def linDigits : List (Nat × Int) := [(1, 2), (2, 1), (4, -1), (5, -2), (7, 0)]

/-- R88: a trim value moved toward its estimate, truncated toward zero. -/
def trimStep (trim est : Int) (shift : Nat) : Int := trim + (est - trim).tdiv ((2 : Int) ^ shift)

/-- R86, R88, R89, R91: a sweep of a bank completes with the averaged readings `vs` of PL0 to PL7 in 1/16 LSB. The gain estimate is the
floor of SPAN_BASE / (V0 - V6) in Q2.14: the rule names no rounding of it (DESIGN CHOICE, log 38). -/
def State.sweepDone (s : State) (e b : Nat) (vs : List Int) : State :=
  let v (k : Nat) : Int := vs.getD k 0
  let p := s.pilot e b
  let jump := p.everSwept && (List.range 8).any fun k =>
    decide ((s.rf R.ENG1_JUMP_LIMIT e : Int) < ((v k - s.pilotRead e b k).natAbs : Int))
  let s1 := ((((s.wf (readLoF b) e (packReads (vs.take 4))).wf (readHiF b) e (packReads (vs.drop 4))).inc R.ENG1_SWEEPS e).wf
    (sweepStampF b) e s.now).setPilot e b
      { p with
        block := 0, sums := [], wanted := false, fresh := false, everSwept := true, cold := false
        clock := s.elapsed, doneAt := s.elapsed }
  let span := v 0 - v 6
  let base : Int := s.rf (spanBaseF b) e
  let raise (t : State) (f : Field) (i : Nat) (on : Bool) : State :=
    if on && !t.rb f e then (t.wf f e 1).setInt (engPage e) i else t
  let s2 :=
    if 4 * span ≤ base then
      ((s1.wf (driftHardF b) e 1).setInt (engPage e) R.INT_ENG_DRIFT_HARD).setInt (engPage e) R.INT_ENG_PILOT_JUMP
    else
      let gEst := base * 16384 / span
      let oEst := v 3 - signedOf 16 (s.rf (zeroBaseF b) e)
      let g0 : Int := s.rf (gainF b) e
      let o0 := signedOf 16 (s.rf (offsetF b) e)
      let sh := s.rf R.ENG1_FILTER_SHIFT e
      let g := if p.fresh then gEst else trimStep g0 gEst sh
      let o := if p.fresh then oEst else trimStep o0 oEst sh
      let t := (s1.wf (gainF b) e (fieldOfInt 16 g)).wf (offsetF b) e (fieldOfInt 16 o)
      let gl : Int := s.rf R.ENG1_GAIN_LIMIT e
      let ol : Int := s.rf R.ENG1_OFFSET_LIMIT e
      let ll : Int := s.rf R.ENG1_LIN_LIMIT e
      let gd : Int := (g - 16384).natAbs
      let od : Int := o.natAbs
      let rs := linDigits.map fun d => ((6 * v d.1 - 6 * v 3 - d.2 * span).natAbs : Int)
      let beyond := decide (gl < gd) || decide (ol < od) || rs.any fun r => decide (6 * ll < r)
      let hard := decide (2 * gl ≤ gd) || decide (2 * ol ≤ od) || rs.any fun r => decide (12 * ll ≤ r)
      raise (raise t (retrimF b) R.INT_ENG_RETRIM beyond) (driftHardF b) R.INT_ENG_DRIFT_HARD (hard && beyond)
  let s3 := s2.when jump fun t => t.setInt (engPage e) R.INT_ENG_PILOT_JUMP
  (s3.when (jump || decide (4 * span ≤ base)) fun t => t.suspect (t.physOf (engCore e)) 0x02 (engNum e)).unstale e

/-- R93: an idle slot: no plane pass is ready to start. -/
def State.idleSlot (s : State) (e : Nat) : Bool := (s.engSt e).tile.isNone

/-- R92, R94: sweeps of a bank may run. -/
def State.sweepable (s : State) (e b : Nat) : Bool :=
  s.rb R.ENG_PILOT_EN e && s.tracked e b && !s.inReset (.core (engCore e))

/-- R92: an interval has passed since the bank's last completed sweep. -/
def State.sweepDue (s : State) (e b : Nat) : State :=
  let p := s.pilot e b
  if s.sweepable e b && decide (p.doneAt + s.pilotInterval e ≤ s.elapsed) then s.setPilot e b { p with wanted := true } else s

/-- R93: a sweep asked for of some bank of the engine may run in the next idle slot. -/
def State.sweepWaits (s : State) (e : Nat) : Bool := [0, 1].any fun b => (s.pilot e b).wanted && s.sweepable e b

/-- R86, R93: one pilot sub-step in an idle slot: PL0 to PL7 are converted over the next block, `noise` being what the circuit adds to
the sums held; the eighth ends the sweep, whose averages are in units of 1/16 LSB. -/
def State.pilotStep (s : State) (e b : Nat) (noise : List Int) : State :=
  let p := s.pilot e b
  if p.wanted && s.sweepable e b && s.idleSlot e then
    let rs := s.blockRead e b p.block noise
    let sums := (List.range 8).map fun k => p.sums.getD k 0 + rs.getD k 0
    if p.block = 7 then s.sweepDone e b (sums.map (2 * ·))
    else s.setPilot e b { p with block := p.block + 1, sums := sums }
  else s

/-- R94: no plane pass of the engine's tile is in progress: the next conversion is of the first enabled quarter. -/
def State.passBoundary (s : State) (e : Nat) : Bool :=
  match (s.engSt e).tile with
  | none => true
  | some t => match t.todo with
    | [] => true
    | c :: _ => (List.range 4).find? (fun q => t.quarters.testBit q) = some c.quarter

/-- R94: a forced sweep of a tracked bank whose clock has run 4 x INTERVAL, after the plane pass in progress. `noise`: what the circuit
adds, by block. -/
def State.forcedSweep (s : State) (e b : Nat) (noise : List (List Int)) : State :=
  let p := s.pilot e b
  if s.sweepable e b && s.passBoundary e && decide (p.clock + 4 * s.pilotInterval e ≤ s.elapsed) then
    let blocks := (List.range 8).map fun j => s.blockRead e b j (noise.getD j [])
    let sums := (List.range 8).map fun k => blocks.foldl (fun a l => a + l.getD k 0) (0 : Int)
    ((s.incSat R.ENG1_FORCED e).setInt (engPage e) R.INT_ENG_PILOT_FORCED).sweepDone e b (sums.map (2 * ·))
  else s

/-- R92: a tracked bank unswept for 4 x INTERVAL. -/
def State.pilotStale (s : State) (e : Nat) : State :=
  let stale (b : Nat) : Bool :=
    let p := s.pilot e b
    s.tracked e b && decide ((if p.everSwept then p.doneAt else p.clock) + 4 * s.pilotInterval e ≤ s.elapsed)
  if stale 0 || stale 1 then s.wf R.ENG_PILOT_STALE e 1 else s

/-- R97: CTL.PILOT_NOW asks for a sweep of every tracked bank. -/
def State.pilotNow (s : State) (e : Nat) : State :=
  s.each [0, 1] fun t b => if t.tracked e b then t.setPilot e b { t.pilot e b with wanted := true } else t

end Sys2Proof.Machine
end

