-- ==== Sys2Proof/Machine/Kv.lean ====
section
/-! DEFINITION. The KV pools and page tables of the V-cores, R212 to R214. -/

namespace Sys2Proof.Machine

def vcorePage (ck : Nat) : Page := { blk := 0x14, inst := ck }

def State.kvPool (s : State) (v : Nat) : KvPool := Tbl.getD s.kv v {}
def State.setKv (s : State) (v : Nat) (k : KvPool) : State := { s with kv := Tbl.put s.kv v k }

/-- R212, R227: KV_FREE, the page slots not allocated, the metadata slot not counted. -/
def State.kvFree (s : State) (v : Nat) : Nat := s.rf R.VCORE_KV_POOL_PAGES v - 1 - (s.kvPool v).users.length

/-- R227: KV_RESERVED, the pages reserved and not yet allocated, over all slots. -/
def State.kvReserved (s : State) (v : Nat) : Nat := (Tbl.vals (s.kvPool v).resv).sum

/-- SRAM offset of entry `p` of a slot's page table, R212. -/
def State.ptOff (s : State) (v slot p : Nat) : Nat :=
  s.rf R.VCORE_KV_PT_BASE v * 16 + (slot * s.rf R.VCORE_PT_ENTRIES v + p) * 8

/-- An entry of a page table. -/
def State.ptEntry (s : State) (v slot p : Nat) : Nat := s.sramRead v (s.ptOff v slot p) 8

def State.setPt (s : State) (v slot p w : Nat) : State := s.sramWrite v (s.ptOff v slot p) 8 w

def ptAddr (e : Nat) : Nat := bitsOf e 0 32
def ptValid (e : Nat) : Bool := e.testBit 32
def ptHollow (e : Nat) : Bool := e.testBit 33
def ptShared (e : Nat) : Bool := e.testBit 34
def ptFill (e : Nat) : Nat := bitsOf e 35 7

/-- R212: an entry's word. -/
def ptWord (addr : Nat) (valid hollow shared : Bool) (fill : Nat) : Nat :=
  pack [(addr, 0, 32), (bit valid, 32, 1), (bit hollow, 33, 1), (bit shared, 34, 1), (fill, 35, 7)]

/-- External-memory address of page slot `n` of a pool, in units of 256 bytes. -/
def State.kvSlotAddr (s : State) (v n : Nat) : Nat :=
  s.rf R.VCORE_KV_POOL_BASE v / 256 + n * s.rf R.VCORE_PAGE_UNITS v

/-- The page slot at an address of R212's PAGE_ADDR. -/
def State.kvSlotOf (s : State) (v addr : Nat) : Nat :=
  (addr - s.rf R.VCORE_KV_POOL_BASE v / 256) / max 1 (s.rf R.VCORE_PAGE_UNITS v)

/-- R213 RESERVE: granted when the unreserved free slots number at least `n`. -/
def State.kvReserve (s : State) (v slot n : Nat) : Bool × State :=
  if n ≤ s.kvFree v - s.kvReserved v then
    let k := s.kvPool v
    (true, s.setKv v { k with resv := Tbl.putD k.resv 0 slot (Tbl.getD k.resv slot 0 + n) })
  else (false, s)

/-- R212: the metadata of page slot `n` written to the pool's first slot: a bitmap of the slots in use, then an 8-bit share count for each
slot. The places within the slot and the bitmap's sense are the model's (DESIGN CHOICE, log 40); what does not fit is not written. -/
def State.kvMeta (s : State) (v n : Nat) : State :=
  let base := s.rf R.VCORE_KV_POOL_BASE v
  let size := s.rf R.VCORE_PAGE_UNITS v * 256
  let us := (s.kvPool v).users
  let count (i : Nat) : Nat := (Tbl.getD us i []).length
  let coff := (s.rf R.VCORE_KV_POOL_PAGES v + 7) / 8 + n
  let s1 := s.when (decide (n / 8 < size)) fun t => t.hbmWrite (base + n / 8) 1
    ((List.range 8).foldl (fun a j => a + bit (decide (0 < count (n / 8 * 8 + j))) * 2 ^ j) 0)
  s1.when (decide (coff < size)) fun t => t.hbmWrite (base + coff) 1 (count n)

/-- Bytes read from external memory, codeword by codeword; those of a codeword that reads hollow are hollow. -/
def State.hbmBytes (s : State) (a n : Nat) : List (Nat × Bool) × State :=
  let c0 := a / 64
  let r := (List.range ((a + n + 63) / 64 - c0)).foldl (fun (r : List (Nat × Bool) × State) i =>
    let (d, h, t) := r.2.hbmRead (64 * (c0 + i)) 64
    (r.1 ++ (leBytes 64 d).map fun b => (b, h), t)) ([], s)
  ((r.1.drop (a % 64)).take n, r.2)

/-- Bytes written to external memory, codeword by codeword; each carries its hollow mark. -/
def State.hbmPut (s : State) (a : Nat) (bs : List (Nat × Bool)) : State :=
  let words := ((List.range bs.length).map fun i => (a + i) / 64).eraseDups
  s.each words fun t c =>
    let part := (bs.zipIdx).filter fun e => (a + e.2) / 64 = c
    t.hbmWrite (a + ((part.head?.map (·.2)).getD 0)) part.length (ofBytes (part.map (·.1.1))) (part.any (·.1.2))

/-- R212: an offset of a V-core's SRAM lies in the page table of a context slot that has a reservation or pages. -/
def State.inPageTable (s : State) (v off : Nat) : Bool :=
  let k := s.kvPool v
  let slots := Tbl.keys k.resv ++ ((Tbl.vals k.users).flatten.map (·.1))
  decide (kindOfLogical (v % 64) = 1) && slots.any fun sl =>
    decide (s.ptOff v sl 0 ≤ off) && decide (off < s.ptOff v sl (s.rf R.VCORE_PT_ENTRIES v))

/-- One page-table entry given up: its page's share count falls; at 0 the page slot is free, at 1 the last user's SHARED
clears. -/
def State.kvDrop (s : State) (v slot p : Nat) : State :=
  let e := s.ptEntry v slot p
  if ptValid e then
    let n := s.kvSlotOf v (ptAddr e)
    let k := s.kvPool v
    let us := (Tbl.getD k.users n []).filter (· ≠ (slot, p))
    let s1 := s.setKv v { k with users := if us.isEmpty then Tbl.del k.users n else Tbl.put k.users n us }
    let s2 := match us with
      | [(sl, q)] =>
        let f := s1.ptEntry v sl q
        s1.setPt v sl q (ptWord (ptAddr f) (ptValid f) (ptHollow f) false (ptFill f))
      | _ => s1
    (s2.setPt v slot p 0).kvMeta v n
  else s

/-- R213 RELEASE: every page of the slot freed, its reservation and page table cleared. -/
def State.kvRelease (s : State) (v slot : Nat) : State :=
  let mine := (Tbl.vals (s.kvPool v).users).flatten.filter fun u => u.1 = slot
  let s1 := s.each mine fun t u => t.kvDrop v u.1 u.2
  let k := s1.kvPool v
  s1.setKv v { k with resv := Tbl.del k.resv slot }

/-- R212, R213 SHARE: the first `n` entries of `src` copied to `dst` when each is full and its 8-bit share count can rise (DESIGN CHOICE,
log 40: refused otherwise); both become SHARED. -/
def State.kvShare (s : State) (v src dst n : Nat) : Bool × State :=
  if (List.range n).all fun p => ptValid (s.ptEntry v src p) && ptFill (s.ptEntry v src p) = 64 &&
      decide ((Tbl.getD (s.kvPool v).users (s.kvSlotOf v (ptAddr (s.ptEntry v src p))) []).length < 255) then
    (true, s.each (List.range n) fun t p =>
      let e := t.ptEntry v src p
      let t1 := t.kvDrop v dst p
      let w := ptWord (ptAddr e) true (ptHollow e) true (ptFill e)
      let ps := t1.kvSlotOf v (ptAddr e)
      let k := t1.kvPool v
      let t2 := t1.setKv v { k with users := Tbl.put k.users ps (Tbl.getD k.users ps [] ++ [(dst, p)]) }
      ((t2.setPt v src p w).setPt v dst p w).kvMeta v ps)
  else (false, s)

/-- The lowest page slot not allocated, the metadata slot 0 left out. -/
def State.kvFreeSlot (s : State) (v : Nat) : Nat :=
  let u := (s.kvPool v).users
  ((List.range (u.length + 1)).find? fun i => !(Tbl.keys u).contains (i + 1)).getD 0 + 1

/-- R213, R214: a KV write of one position; the answer is whether it was carried out. -/
def State.kvWrite (s : State) (v slot pos off : Nat) (data : List Nat) (hollow : Bool) : Bool × State :=
  let p := pos / 64
  let e := s.ptEntry v slot p
  let k := s.kvPool v
  let refuse := (((s.inc R.VCORE_KV_REFUSALS v).wf R.VCORE_TAINTED v 1).blockErr (vcorePage v) 0x12 slot pos
    (2 ^ R.INT_VCORE_KV_REFUSED))
  let store (t : State) (addr : Nat) : State :=
    t.hbmPut (addr * 256 + off) (data.map fun b => (b, hollow))
  if s.rf R.VCORE_PT_ENTRIES v ≤ p then (false, refuse)
  else if ptValid e then
    if ptShared e || ptFill e ≠ pos % 64 || decide (64 ≤ ptFill e) then (false, refuse)
    else (true, (store s (ptAddr e)).setPt v slot p
      (ptWord (ptAddr e) true (ptHollow e || hollow) false (ptFill e + 1)))
  else if pos % 64 ≠ 0 || Tbl.getD k.resv slot 0 = 0 then (false, refuse)
  else
    let n := s.kvFreeSlot v
    let a := s.kvSlotAddr v n
    let s1 := s.setKv v { resv := Tbl.putD k.resv 0 slot (Tbl.getD k.resv slot 0 - 1), users := Tbl.put k.users n [(slot, p)] }
    (true, (((store s1 a).setPt v slot p (ptWord a true hollow false 1))).kvMeta v n)

/-- R124: the residuals of a context on the V-cores cleared. -/
def State.clearVResids (s : State) (ctx : Nat) : State :=
  let s1 := s.each s.vc fun t e => t.each (e.2.resids.filter fun u => u.1 = ctx) fun u r => u.sramWrite e.1 r.2 2 0
  { s1 with vc := Tbl.update s1.vc fun _ x => { x with resids := x.resids.filter fun u => u.1 ≠ ctx } }

end Sys2Proof.Machine
end

