-- ==== Sys2Proof/Machine/Operands.lean ====
section
/-! DEFINITION. The operand forms of the commands: fields of a Vorane command's body (R338), its timeout (R341, R343), a master's
code and source (R52), tokens packed two to a word (R288). -/

namespace Sys2Proof

/-- Word `i` of a command's body, as a number; a word beyond the body reads zero. -/
def Cmd.w (c : Cmd) (i : Nat) : Nat := (c.body.getD i 0).toNat

/-- A body field: bits `[lo + len - 1 : lo]` of word `i`. -/
def Cmd.f (c : Cmd) (i lo len : Nat) : Nat := bitsOf (c.w i) lo len

/-- A one-bit body field. -/
def Cmd.b (c : Cmd) (i lo : Nat) : Bool := (c.w i).testBit lo

/-- R343: default timeouts in ns. -/
def defaultTimeout (opcode : Nat) : Nat :=
  if opcode = 0x02 ∨ opcode = 0x40 ∨ opcode = 0x41 ∨ opcode = 0x42 then 2000000
  else if opcode = 0x12 then 1000000000
  else if opcode = 0x30 ∨ opcode = 0x31 ∨ opcode = 0x49 then 60000000000
  else if opcode = 0x34 then 1000000000
  else if opcode = 0x47 then 10000000000
  else if opcode = 0x48 then 600000000000
  else 1000000

/-- R341: the timeout of a command in ns. -/
def Cmd.timeoutNs (c : Cmd) (opcode : Nat) : Nat :=
  if c.timeout = 0 then defaultTimeout opcode
  else c.timeout * (if c.scale = 0 then 1000 else if c.scale = 1 then 1000000 else 1000000000)

/-- R52: the code of a master. -/
def Master.code : Master → Nat
  | .oasis => 1 | .hostA _ => 2 | .hostB _ => 3 | .score _ => 4

/-- R52: the source of a master. -/
def Master.source : Master → Nat
  | .oasis => 0 | .hostA q => q | .hostB q => q | .score ck => ck

/-- The master is a host port. -/
def Master.isHost : Master → Bool
  | .hostA _ => true | .hostB _ => true | _ => false

/-- `n` 32-bit tokens held two to a word from word `i`, low half first (R288). -/
def Cmd.tokens (c : Cmd) (i n : Nat) : List Nat :=
  (List.range n).map fun j => c.f (i + j / 2) (32 * (j % 2)) 32

end Sys2Proof
end

