-- ==== Sys2Proof/Machine/Vorane.lean ====
section
/-! DEFINITION. The Vorane command front end: completions and ACKs (R338, R339, R342), open commands and their records (R292,
R341), semaphores granted, released and broken (R346 to R349), a queue pair leaving CONNECTED (R336), and the admission of
a command (R335, R339 to R341, R506, R570). -/

namespace Sys2Proof.Machine

def qpPage (n : Nat) : Page := { blk := 0x29, inst := n }
def semaPage : Page := { blk := 2, inst := 0 }
def oasisPage (p : Nat) : Page := { blk := 1, inst := 0, page := p }
def ringPage (r : Nat) : Page := { blk := 0x3A, inst := r }

/-- R339. -/
def resExecuted : Nat := 0
def resBadVersion : Nat := 1
def resBadFrame : Nat := 2
def resUnknownOpcode : Nat := 3
def resDuplicate : Nat := 4
def resTimedOut : Nat := 5

/-- R355: the queue pair is CONNECTED. -/
def State.connected (s : State) (qp : Nat) : Bool := s.rf R.QP_STATE qp = 2

/-- R55's holder code of a queue pair: 2 on port A, 3 on port B. -/
def State.holderCode (s : State) (qp : Nat) : Nat := 2 + s.rf R.QP_PORT qp

/-! ### Records, completions and ACKs -/

/-- R292: the record of a command replaced; the 16,384 most recent are kept. -/
def State.putRec (s : State) (r : CmdRec) : State :=
  { s with cmdRecs := (r :: s.cmdRecs.filter fun x => !(x.qp = r.qp && x.cmdId = r.cmdId)).take 16384 }

/-- R292: the record of a command changed in place. -/
def State.setRec (s : State) (qp cmdId : Nat) (f : CmdRec → CmdRec) : State :=
  { s with cmdRecs := s.cmdRecs.map fun x => if x.qp = qp ∧ x.cmdId = cmdId then f x else x }

/-- A completion leaves: R335 frees the slot, R355 counts it. Nothing is sent on a queue pair that is not CONNECTED. -/
def State.sendCompletion (s : State) (qp cmdId opcode result arrival : Nat) (body : List Nat) : State :=
  if s.connected qp then
    (((s.sendQp qp (.completion qp cmdId opcode result arrival s.now body)).inc R.QP_COMPLETIONS qp).wf R.QP_SLOTS_FREE qp
      (min 32 (s.rf R.QP_SLOTS_FREE qp + 1)))
  else s

/-- An ACK leaves, R342. -/
def State.sendAck (s : State) (qp cmdId opcode arrival : Nat) : State :=
  if s.connected qp then s.sendQp qp (.ack qp cmdId opcode arrival s.now) else s

/-- The open command of an identifier on a queue pair. -/
def State.openCmd (s : State) (qp cmdId : Nat) : Option OpenCmd :=
  s.cmds.find? fun o => o.qp = qp && o.cmdId = cmdId

/-- An open command changed in place. -/
def State.setCmd (s : State) (qp cmdId : Nat) (f : OpenCmd → OpenCmd) : State :=
  { s with cmds := s.cmds.map fun o => if o.qp = qp ∧ o.cmdId = cmdId then f o else o }

/-- R341: the command has taken effect, with the body INQUIRE returns of it from now. -/
def State.takeEffect (s : State) (qp cmdId : Nat) (body : List Nat) : State :=
  s.setCmd qp cmdId fun o => { o with effect := true, body := body }

/-- A command's work ends with RESULT EXECUTED: its record becomes final (R292), and its completion is sent unless a TIMED_OUT
one has been. -/
def State.finish (s : State) (qp cmdId : Nat) (body : List Nat) : State :=
  match s.openCmd qp cmdId with
  | none => s
  | some o =>
    let s1 := { s with cmds := s.cmds.filter fun x => !(x.qp = qp && x.cmdId = cmdId) }
    let s2 := s1.setRec qp cmdId fun r => { r with result := resExecuted, final := true, body := body }
    if o.sent then s2 else s2.sendCompletion qp cmdId o.opcode resExecuted o.arrival body

/-- A completion sent while the command's work goes on (VARIANT_ACTIVATE, R314): its record is the completion sent so far. -/
def State.replyEarly (s : State) (qp cmdId : Nat) (body : List Nat) : State :=
  match s.openCmd qp cmdId with
  | none => s
  | some o =>
    let s1 := { s with cmds := s.cmds.filter fun x => !(x.qp = qp && x.cmdId = cmdId) }
    let s2 := s1.setRec qp cmdId fun r => { r with result := resExecuted, body := body }
    if o.sent then s2 else s2.sendCompletion qp cmdId o.opcode resExecuted o.arrival body

/-- The final record of a command whose completion went earlier (R292). -/
def State.finalRec (s : State) (qp cmdId : Nat) (body : List Nat) : State :=
  s.setRec qp cmdId fun r => { r with result := resExecuted, final := true, body := body }

/-! ### Semaphores -/

def semHeldF (i : Nat) : Field := if i % 2 = 0 then R.SEMA_HELD_0 else R.SEMA_HELD_1
def semHolderF (i : Nat) : Field := if i % 2 = 0 then R.SEMA_HOLDER_0 else R.SEMA_HOLDER_1
def semSourceF (i : Nat) : Field := if i % 2 = 0 then R.SEMA_SOURCE_0 else R.SEMA_SOURCE_1
def semWaitersF (i : Nat) : Field := if i % 2 = 0 then R.SEMA_WAITERS_0 else R.SEMA_WAITERS_1

def State.semHeld (s : State) (i : Nat) : Bool := s.rf (semHeldF i) 0 (i / 2) = 1
def State.semHolder (s : State) (i : Nat) : Nat := s.rf (semHolderF i) 0 (i / 2)
def State.semSource (s : State) (i : Nat) : Nat := s.rf (semSourceF i) 0 (i / 2)
def State.semStamp (s : State) (i : Nat) : Nat := s.rf R.SEMA_GRANT_STAMP 0 i
def State.sem (s : State) (i : Nat) : SemSt := Tbl.getD s.sems i {}
def State.setSem (s : State) (i : Nat) (v : SemSt) : State := { s with sems := Tbl.put s.sems i v }

/-- R55: the holder is this one. -/
def State.semHeldBy (s : State) (i holder source : Nat) : Bool :=
  s.semHeld i && s.semHolder i = holder && s.semSource i = source

/-- WAITERS mirrors the queue's length, R356. -/
def State.semCount (s : State) (i : Nat) : State := s.wf (semWaitersF i) 0 (s.sem i).waiters.length (i / 2)

/-- R336, R341: a command that has not taken effect is withdrawn: recorded TIMED_OUT with no body, FINAL. -/
def State.withdraw (s : State) (qp cmdId : Nat) : State :=
  let s1 := { s with
    cmds := s.cmds.filter fun x => !(x.qp = qp && x.cmdId = cmdId)
    held := s.held.filter fun h => !(h.cmd.qp = qp && h.cmd.cmdId = cmdId)
    sems := Tbl.update s.sems fun _ v => { v with waiters := v.waiters.filter fun w => !(w.1 = qp && w.2.1 = cmdId) } }
  let s2 := s1.each (Tbl.keys s1.sems) fun t i => t.semCount i
  s2.setRec qp cmdId fun r => { r with result := resTimedOut, final := true, body := [] }

/-- The elapsed time at which a lease of `ms` counted from now expires; none for no lease (R348). -/
def State.leaseDue (s : State) (ms : Nat) : Option Nat := if ms = 0 then none else some (s.elapsed + ms * 1000000)

/-- A free semaphore granted, R348. -/
def State.semGrant (s : State) (i holder source leaseMs : Nat) : State :=
  let s1 := ((((s.wf (semHeldF i) 0 1 (i / 2)).wf (semHolderF i) 0 holder (i / 2)).wf (semSourceF i) 0 source (i / 2)).wf
    R.SEMA_GRANT_STAMP 0 s.now i).setSem i { s.sem i with lease := s.leaseDue leaseMs }
  if holder = 2 ∨ holder = 3 then s1.inc R.QP_SEMS_HELD source else s1

/-- The semaphore taken from its holder: the entry is free, R348, R356. -/
def State.semFree (s : State) (i : Nat) : State :=
  let h := s.semHolder i
  let src := s.semSource i
  let s1 := ((((s.wf (semHeldF i) 0 0 (i / 2)).wf (semHolderF i) 0 0 (i / 2)).wf (semSourceF i) 0 0 (i / 2)).wf
    R.SEMA_GRANT_STAMP 0 0 i).setSem i { s.sem i with lease := none }
  if h = 2 ∨ h = 3 then s1.dec R.QP_SEMS_HELD src else s1

/-- R347: word 0 of a semaphore completion: the status and the holder after the command. -/
def State.semWord (s : State) (i status : Nat) : Nat :=
  pack [(status, 0, 8), (s.semHolder i, 8, 3), (s.semSource i, 16, 16)]

/-- R348: the first waiter, if any, is granted at once and its SEM_ACQUIRE completes GRANTED. -/
def State.semNext (s : State) (i : Nat) : State :=
  match (s.sem i).waiters with
  | [] => s
  | (qp, cmdId, ms) :: rest =>
    let s1 := (s.setSem i { s.sem i with waiters := rest }).semGrant i (s.holderCode qp) qp ms
    let s2 := s1.semCount i
    s2.finish qp cmdId [s2.semWord i 0, s2.semStamp i]

/-- R56, R346: the pages a page semaphore guards. -/
def guardedPages (i : Nat) : List Page :=
  if i ≤ 1 then [0, 1, 2].map fun p => { blk := 0x28, inst := i, page := p } else []

/-- R349: a semaphore broken, with BREAK_CAUSE of R356: the break's records, then the first waiter's grant. -/
def State.semBreak (s : State) (i cause : Nat) : State :=
  let h := s.semHolder i
  let src := s.semSource i
  let s1 := ((s.semFree i).inc R.SEMA_BREAKS 0).when (decide (cause = 1)) fun t =>
    (t.inc R.SEMA_EXPIRIES 0).setInt semaPage R.INT_SEMA_LEASE_EXPIRED
  let s2 := ((((s1.wf R.SEMA_LAST_BREAK_STAMP 0 s.now).wf R.SEMA_BREAK_INDEX 0 i).wf R.SEMA_OLD_HOLDER 0 h).wf
    R.SEMA_OLD_SOURCE 0 src).wf R.SEMA_BREAK_CAUSE 0 cause
  let s3 := (s2.setInt semaPage R.INT_SEMA_BROKEN).each (guardedPages i) fun t p => t.setInt p 3
  (s3.logEv 0x0203 semaPage.index 0 [i, pack [(h, 0, 16), (src, 16, 16)], cause, 0]).semNext i

/-- Every semaphore of one holder broken, in rising index. -/
def State.semBreakAll (s : State) (holder source cause : Nat) : State :=
  s.each (List.range 256) fun t i => if t.semHeldBy i holder source then t.semBreak i cause else t

/-! ### A queue pair leaves CONNECTED -/

/-- R297: a ring bound to a queue pair that enters the error state. -/
def State.ringStall (s : State) (r : Nat) : State :=
  let p := ringPage r
  ((s.wf R.RING_STALLED r 1).setInt p R.INT_RING_STALLED).capture p 0 0 0x10 7 0

/-- R336: what follows when a queue pair leaves CONNECTED: its semaphores are broken (unless the die resets), its rings
STALLED, its subscription ends, its commands are withdrawn where they have not taken effect, and the completions of the
others discarded. Its SPDM connection (R419) ends with it (DEDUCED, log 38). -/
def State.qpLeave (s : State) (qp : Nat) (dieReset : Bool := false) : State :=
  let s1 := if dieReset then s else s.semBreakAll (s.holderCode qp) qp 2
  let s2 := s1.each (Tbl.keys s1.rings) fun t r =>
    if t.rb R.RING_BOUND r && t.rf R.RING_QP r = qp then t.ringStall r else t
  let s3 := (s2.setQp qp { s2.qp qp with subOn := false, waiting := [], closed := 0, unacked := [], reads := [] }).wf R.QP_SUBSCRIBED qp 0
  let mine := s3.cmds.filter fun o => o.qp = qp
  let s3 := { s3 with sec := { s3.sec with
    spdm := Tbl.del s3.sec.spdm qp
    opening := s3.sec.opening.filter fun (e : Nat × (Nat × Nat)) => e.2.1 ≠ qp
    fetches := s3.sec.fetches.filter fun (e : Nat × Nat × Nat × Nat) => e.1 ≠ qp } }
  let s4 := s3.each (mine.filter fun o => !o.effect) fun t o => t.withdraw qp o.cmdId
  s4.each (mine.filter fun o => o.effect) fun t o => t.setCmd qp o.cmdId fun x => { x with sent := true }

/-- R355: the queue pair's page back at its Init values: IDLE. -/
def State.qpIdle (s : State) (qp : Nat) : State :=
  let s1 := (fieldsOf 0x29 0).foldl (fun t f => t.clr f qp) s
  { s1 with qps := Tbl.del s1.qps qp }

/-- The count of CONNECTED queue pairs of a port, R353. -/
def State.countQps (s : State) (port : Nat) : State :=
  s.wf R.HOST1_QPS_CONNECTED port
    ((Tbl.keys s.qps).countP fun q => s.connected q && s.rf R.QP_PORT q = port)

/-- R324 to R336, R355: a queue pair enters the error state with a cause. -/
def State.qpError (s : State) (qp cause : Nat) : State :=
  if s.rf R.QP_STATE qp = 0 ∨ s.rf R.QP_STATE qp = 3 then s
  else
    let was := s.connected qp
    let s1 := (s.blockErr (qpPage qp) cause 0 0 (2 ^ R.INT_QP_QP_ERROR)).wf R.QP_STATE qp 3
    let s2 := s1.when was fun t => t.qpLeave qp
    s2.countQps (s.rf R.QP_PORT qp)

/-! ### Admission of a command -/

/-- R343: the classes of commands. -/
inductive Class where
  | f | q | l
deriving DecidableEq, Repr

/-- R343: the opcodes the module knows. -/
def knownOpcodes : List Nat :=
  [0x01, 0x02, 0x10, 0x11, 0x12, 0x13, 0x14, 0x20, 0x21, 0x22, 0x23, 0x24, 0x25, 0x26, 0x27, 0x30, 0x31, 0x32, 0x33, 0x34,
   0x38, 0x40, 0x41, 0x42, 0x43, 0x44, 0x45, 0x46, 0x47, 0x48, 0x49]

/-- R506: the opcodes that keep R342 while Oasis restarts. -/
def restartSafe (opcode : Nat) : Bool :=
  [0x01, 0x02, 0x10, 0x11, 0x12, 0x13, 0x14, 0x20, 0x21, 0x22, 0x23, 0x24, 0x25, 0x45].contains opcode

/-- R338, R339: the RESULT of the frame, EXECUTED where nothing is wrong with it. `lenOk`: BODY_WORDS is the length the opcode
requires and the fields that fix it, and the reserved fields R570 gives BAD_FRAME for, are in order. -/
def State.frameResult (s : State) (opcode : Nat) (c : Cmd) (lenOk : Bool) : Nat :=
  if c.version ≠ 1 then resBadVersion
  else if c.kind ≠ 1 ∨ c.reserved ≠ 0 ∨ c.scale = 3 then resBadFrame
  else if !knownOpcodes.contains opcode then resUnknownOpcode
  else if !lenOk || c.body.length ≠ c.bodyWords || c.payload ≠ 32 + 8 * c.bodyWords then resBadFrame
  else if ((s.openCmd c.qp c.cmdId).map (fun o => !o.sent)).getD false then resDuplicate
  else resExecuted

/-- The outcome of a command's arrival. -/
inductive Admitted where
  /-- Nothing more to do: not CONNECTED, refused at the frame, or waiting for its turn. -/
  | done (s : State)
  /-- The command starts in this state. -/
  | run (s : State)
deriving DecidableEq, Repr

/-- R340, R475, R506: the command must wait before it starts. -/
def State.mustWait (s : State) (opcode : Nat) (c : Cmd) : Bool :=
  (c.fence && s.cmds.any fun o => o.qp = c.qp && o.cmdId ≠ c.cmdId && !o.sent)
    || (s.held.any fun h => h.cmd.qp = c.qp && h.cmd.fence)
    || (s.rb R.OASIS_RESTARTING 0 && !restartSafe opcode)
    || (s.rsts.any fun r => r.dom = .die)

/-- R331: the transport's ACK of a SEND that a slot takes. -/
def State.transportAck (s : State) (qp : Nat) : State := (s.emit (.rcAck qp (s.rf R.QP_RQ_PSN qp))).framesOut qp 1

/-- A command's SEND arrives, R335 to R342. A class Q command that has to wait gets an ACK if it waits for 1 ms (R342). -/
def State.intake (s : State) (i : Instr) (opcode : Nat) (c : Cmd) (cls : Class) (lenOk : Bool) : Admitted :=
  if !s.connected c.qp then .done s
  else if 1024 < c.payload then .done (((s.emit (.nak c.qp false)).framesOut c.qp 1).qpError c.qp 0x13)
  else if s.rf R.QP_SLOTS_FREE c.qp = 0 then
    .done (((s.emit (.rnrNak c.qp)).framesOut c.qp 1).inc R.QP_RNR_NAKS_SENT c.qp)
  else
    let s1 := (((s.transportAck c.qp).inc R.QP_COMMANDS c.qp).dec R.QP_SLOTS_FREE c.qp).inc R.QP_RQ_PSN c.qp
    let r := s1.frameResult opcode c lenOk
    if r ≠ resExecuted then
      let s2 := if r = resDuplicate ∨ (s1.openCmd c.qp c.cmdId).isSome then s1
        else s1.putRec { qp := c.qp, cmdId := c.cmdId, opcode := opcode, result := r, final := true, body := [] }
      .done (s2.sendCompletion c.qp c.cmdId opcode r s.now [])
    else
      let o : OpenCmd := { qp := c.qp, cmdId := c.cmdId, opcode := opcode, arrival := s.now,
                           due := s.elapsed + c.timeoutNs opcode }
      let s2 := ({ s1 with cmds := s1.cmds ++ [o] }).putRec
        { qp := c.qp, cmdId := c.cmdId, opcode := opcode, result := 0, final := false, body := [] }
      let wait := s2.mustWait opcode c
      let acked := cls = .l ∨ (s2.rb R.OASIS_RESTARTING 0 ∧ !restartSafe opcode)
      let s3 := if acked then s2.sendAck c.qp c.cmdId opcode s.now else s2
      let h : Held := { opcode := opcode, cmd := c, instr := i, ackAt := if cls = .q ∧ !acked then some (s.elapsed + 1000000) else none }
      if wait then .done { s3 with held := s3.held ++ [h] }
      else .run s3

/-- A command taken from its arrival to its start, and run; one that waited starts where `resume` names it. -/
def State.vorane (s : State) (i : Instr) (opcode : Nat) (c : Cmd) (cls : Class) (lenOk : Bool) (act : State → State) : State :=
  if s.resume = some (c.qp, c.cmdId) then act { s with resume := none }
  else
    match s.intake i opcode c cls lenOk with
    | .done t => t
    | .run t => act t

/-- R340, R506: a command that waited may start: Oasis runs, the die is not in reset, no command with a fence of its queue pair stands
before it, and with a fence of its own every earlier command of the queue pair has completed. -/
def State.mayStart (s : State) (h : Held) : Bool :=
  !(s.rb R.OASIS_RESTARTING 0 && !restartSafe h.opcode) && !(s.rsts.any fun r => r.dom = .die)
    && !((s.held.takeWhile fun x => decide (x ≠ h)).any fun x => x.cmd.qp = h.cmd.qp && x.cmd.fence)
    && (!h.cmd.fence || !((s.cmds.takeWhile fun o => !(o.qp = h.cmd.qp && o.cmdId = h.cmd.cmdId)).any fun o =>
          o.qp = h.cmd.qp && !o.sent))

/-- The arrival stamp of an open command. -/
def State.arrivalOf (s : State) (qp cmdId : Nat) : Nat := ((s.openCmd qp cmdId).map (·.arrival)).getD s.now

/-- A completion body sent at once for the command `c`. -/
def State.reply (s : State) (c : Cmd) (body : List Nat) : State := s.finish c.qp c.cmdId body

end Sys2Proof.Machine
end

