-- ==== Sys2Proof/Machine/Ring.lean ====
section
/-! DEFINITION. The ring unit and the end of a request: records committed into a ring's shadow (R293 to R296), doorbells (R298),
outcomes fixed once (R307, R308), contexts and requests (R283, R291, R311), the reply words of R285. -/

namespace Sys2Proof.Machine

def servePage (p : Nat) : Page := { blk := 0x38, inst := 0, page := p }
def tenantPage (t : Nat) : Page := { blk := 0x39, inst := t }

/-! ### Contexts and requests -/

/-- R283: the context a handle names: its index open with that reuse count. -/
def State.ctxOf (s : State) (handle : Nat) : Option Ctx :=
  match Tbl.get? s.ctxs (handle % 65536) with
  | none => none
  | some c => if c.reuse % 65536 = handle / 65536 % 65536 then some c else none

def State.setCtx (s : State) (handle : Nat) (f : Ctx → Ctx) : State :=
  { s with ctxs := Tbl.update s.ctxs fun k c => if k = handle % 65536 then f c else c }

/-- The open request of an identifier. -/
def State.req (s : State) (id : Nat) : Option Req := s.reqs.find? fun r => r.id = id

def State.setReq (s : State) (id : Nat) (f : Req → Req) : State :=
  { s with reqs := s.reqs.map fun r => if r.id = id then f r else r }

def State.var (s : State) (v : Nat) : VarSt := Tbl.getD s.vars v {}
def State.setVar (s : State) (v : Nat) (x : VarSt) : State := { s with vars := Tbl.put s.vars v x }

/-- R300, R308: `n` sets of a request have returned or are lost: they are in flight no more, nor are their prefill positions. -/
def State.setsBack (s : State) (id n : Nat) : State :=
  match s.req id with
  | none => s
  | some r =>
    let s1 := s.setReq id fun x => { x with inflight := x.inflight - n }
    if r.steps < r.promptCount then
      s1.setVar r.variant { s1.var r.variant with prefillOut := (s1.var r.variant).prefillOut - min n r.inflight }
    else s1

/-- The state of a variant, R320. -/
def State.vstate (s : State) (v : Nat) : Nat := s.rf R.SERVE2_STATE 0 v

/-- R320: a variant's state set, with STATE_CHANGED. -/
def State.setVState (s : State) (v st : Nat) : State :=
  (s.wf R.SERVE2_STATE 0 st v).setInt (servePage 2) R.INT_SERVE2_STATE_CHANGED

/-- The open requests of a variant. -/
def State.openOf (s : State) (v : Nat) : List Req := s.reqs.filter fun r => r.variant = v

/-- R318, R320, R321: the counts the serving pages mirror. -/
def State.countServe (s : State) (v t : Nat) : State :=
  let q := (s.reqs.countP fun r => r.state = rqQueued)
  let s1 := ((s.wf R.SERVE_OPEN 0 s.reqs.length).wf R.SERVE_QUEUED 0 q).wf R.SERVE_CONTEXTS 0 s.ctxs.length
  let s2 := s1.wf R.SERVE_QUEUE_FULL 0 (bit (decide (q = s1.rf R.SERVE_QUEUE_MAX 0)))
  let s3 := (s2.wf R.SERVE2_OPEN 0 (s2.openOf v).length v).wf R.SERVE2_CONTEXTS 0
    ((Tbl.vals s2.ctxs).countP fun c => c.variant = v) v
  s3.wf R.TENANT_OPEN t (s3.reqs.countP fun r => r.tenant = t)

/-- R285: the eight words of a serving completion. -/
def servingWords (status reason notes id steps tokens lastSeq ctx len ring state tenant seed stamp accept endStamp : Nat) :
    List Nat :=
  [pack [(status, 0, 8), (reason, 8, 8), (notes, 16, 16), (id, 32, 32)], pack [(steps, 0, 32), (tokens, 32, 32)],
   pack [(lastSeq, 0, 32), (ctx, 32, 32)], pack [(len, 0, 32), (ring, 32, 16), (state, 48, 4), (tenant, 52, 12)],
   seed, stamp, accept, endStamp]

/-- A serving completion that only refuses or acknowledges: STATUS, REQUEST_ID and STAMP; a BUSY carries RETRY_US (R285). -/
def State.servingShort (s : State) (status id : Nat) : List Nat :=
  servingWords status 0 0 id (if status = stBusy then s.rf R.SERVE_RETRY_US 0 else 0) 0 0 0 0 0 0 0 0 s.now 0 0

/-- R285: a request described with a status. -/
def State.reqWords (s : State) (r : Req) (status reason : Nat) : List Nat :=
  let c := s.ctxOf r.ctx
  servingWords status reason r.notes r.id r.steps r.tokens r.lastSeq r.ctx
    (if r.state = rqEnded then r.endLen else (c.map (·.len)).getD r.endLen) r.ring r.state r.tenant
    ((c.map (·.seed)).getD r.seed) s.now r.accept r.endStamp

/-! ### Records and shadows -/

/-- SIZE of a ring, R293. -/
def State.ringSize (s : State) (r : Nat) : Nat := 2 ^ s.rf R.RING_SIZE_LOG2 r

/-- `n` sequence numbers on from `a`. -/
def seqPlus (a : Nat) : Nat → Nat
  | 0 => a
  | n + 1 => seqNext (seqPlus a n)

/-- R295: there is room to commit `n` records. -/
def State.ringRoom (s : State) (r n : Nat) : Bool :=
  decide (seqDist (s.rf R.RING_CONSUMED r) (seqPlus (s.rf R.RING_NEXT_SEQ r) (n - 1)) ≤ min (s.ringSize r) 1024)

/-- R294: a TOKEN record. -/
def tokenRecord (seq id token position index stamp : Nat) : List Nat :=
  [pack [(seq, 0, 32), (1, 32, 4)], pack [(id, 0, 32), (token, 32, 32)], pack [(position, 0, 32), (index, 32, 32)], stamp]

/-- R294: an END record. -/
def endRecord (seq id status reason notes tokens len stamp : Nat) : List Nat :=
  [pack [(seq, 0, 32), (2, 32, 4), (status, 40, 8), (reason, 48, 8)], pack [(id, 0, 32), (notes, 32, 16)],
   pack [(tokens, 0, 32), (len, 32, 32)], stamp]

/-- R295: a record gets the ring's next SEQ and is written into the shadow. -/
def State.commitRec (s : State) (r : Nat) (rec : Nat → List Nat) : State :=
  let seq := s.rf R.RING_NEXT_SEQ r
  let a := s.rf R.RING_SHADOW_ADDR r + 32 * (seq % 1024)
  ((s.hbmWriteWords a (rec seq)).wf R.RING_NEXT_SEQ r (seqNext seq)).wf R.RING_LAST_COMMIT_STAMP r s.now

/-- R295: the token of a request committed; the request is decode-ready with it (R300). -/
def State.commitToken (s : State) (id : Nat) (token position : Nat) : State :=
  match s.req id with
  | none => s
  | some r =>
    let seq := s.rf R.RING_NEXT_SEQ r.ring
    (s.commitRec r.ring fun q => tokenRecord q id token position (r.tokens + 1) s.now).setReq id fun x =>
      { x with tokens := x.tokens + 1, lastSeq := seq, lastToken := token, decodeReady := true,
                 readyAt := s.elapsed }

/-- R170: the stream-table entries of a request's streams cleared on every M-core of the placement. -/
def State.clearStreams (s : State) (r : Req) : State :=
  match r.slot with
  | none => s
  | some slot =>
    s.each (s.var r.variant).place.edges fun t e =>
      let base := t.rf R.MCORE1_STREAM_BASE e.1 * 16
      t.each (List.range (t.rf R.MCORE1_STREAM_COUNT e.1)) fun u i =>
        let w := u.sramRead e.1 (base + 16 * i + 8) 8
        if bitsOf w 0 16 = (e.2 + slot) % 65536 ∧ w.testBit 16 then
          (u.sramWrite e.1 (base + 16 * i) 8 0).sramWrite e.1 (base + 16 * i + 8) 8 0
        else u

/-- R213: a context's RELEASE on a V-core: at once, or in its turn behind the commands that wait and the step that runs. -/
def State.kvReleaseTurn (s : State) (v slot : Nat) : State :=
  let x := Tbl.getD s.vc v {}
  if x.step.isNone && x.kvq.isEmpty then s.kvRelease v slot
  else { s with vc := Tbl.put s.vc v { x with kvq := x.kvq ++ [{ score := 0xFFFF, op := 1, slot := slot, slot2 := 0, count := 0 }] } }

/-- R315: a context's pages released on every V-core that holds the variant's KV, R287. -/
def State.releaseCtx (s : State) (c : Ctx) : State :=
  s.each (s.var c.variant).place.kvCores fun t v => t.kvReleaseTurn v c.slot

/-- R315: a DRAINING variant's last request has ended: its contexts become TERMINATED and their pages are released. -/
def State.drainContexts (s : State) (v : Nat) : State :=
  if s.vstate v = vDraining ∧ (s.openOf v).isEmpty then
    (s.each (Tbl.vals s.ctxs) fun t c => if c.variant = v then t.releaseCtx c else t)
      |> fun t => { t with ctxs := Tbl.update t.ctxs fun _ c => if c.variant = v then { c with term := true } else c }
  else s

/-- R308, R291: the END record committed with the fixed status; the request is ENDED and no longer open. -/
def State.commitEnd (s : State) (id ctxLen notes : Nat) : State :=
  match s.req id with
  | none => s
  | some r =>
    let (st, rs) := r.fixed.getD (stComplete, 0)
    let n := r.notes ||| notes
    let seq := s.rf R.RING_NEXT_SEQ r.ring
    let s1 := s.commitRec r.ring fun q => endRecord q id st rs n r.tokens ctxLen s.now
    let e := { r with state := rqEnded, fixed := some (st, rs), notes := n, lastSeq := seq, endLen := ctxLen }
    let s2 := (s1.clearStreams r)
    let s3 := { s2 with reqs := s2.reqs.filter (fun x => x.id ≠ id), ended := (e :: s2.ended).take 65536 }
    let s4 := s3.setCtx r.ctx fun c => { c with req := none }
    let s5 := ((s4.wf R.RING_OPEN r.ring 0).wf R.RING_FIXED r.ring 0).wf R.RING_DEADLINE r.ring 0
    ((s5.inc R.SERVE_ENDED 0).countServe r.variant r.tenant).drainContexts r.variant

/-! ### Doorbells and outcomes -/

def State.ring (s : State) (r : Nat) : RingSt := Tbl.getD s.rings r {}
def State.setRing (s : State) (r : Nat) (x : RingSt) : State := { s with rings := Tbl.put s.rings r x }

/-- R295: a doorbell waits for room, in order, with FULL set. -/
def State.ringWait (s : State) (r : Nat) (d : Doorbell) : State :=
  (((s.setRing r { s.ring r with waiting := (s.ring r).waiting ++ [d] }).wf R.RING_FULL r 1).setInt (ringPage r)
    R.INT_RING_FULL).inc R.RING_FULL_STALLS r

/-- R307, R308, R311, R318: the outcome of an open request fixed, once. A waiting doorbell loses its token; the STEP S-core
dispatches no more; a context the status terminates is TERMINATED. -/
def State.fixOutcome (s : State) (id status reason : Nat) : State :=
  match s.req id with
  | none => s
  | some r =>
    if r.fixed.isSome then s
    else
      let rg := s.ring r.ring
      let lost := rg.waiting.filter fun d => d.op = 0 || d.op = 2
      let s1 := (s.setRing r.ring { rg with
        waiting := rg.waiting.filterMap fun d => if d.op = 0 then none else some { d with op := 1 } }).inc R.RING_DISCARDED
          r.ring lost.length
      let s2 := s1.setReq id fun x =>
        { x with fixed := some (status, reason), endStamp := s.now, decodeReady := false,
                 notes := if terminates status then x.notes ||| noteCtxTerminated else x.notes }
      let s3 := s2.wf R.RING_FIXED r.ring 1
      let s4 := s3.when (terminates status) fun t => t.setCtx r.ctx fun c => { c with term := true }
      let s5 := s4.when (abnormal status) fun t =>
        (t.inc R.SERVE_ABNORMAL_ENDS 0).setInt (servePage 0) R.INT_SERVE_ABNORMAL_END
      s5.when (decide (status = stPreempted)) fun t => t.setInt (servePage 2) R.INT_SERVE2_PREEMPTED

/-- R298, R308: an END handled: the END record is committed, or waits for room. -/
def State.takeEnd (s : State) (id : Nat) (d : Doorbell) : State :=
  if (s.ring d.ring).waiting.isEmpty && s.ringRoom d.ring 1 then s.commitEnd id d.ctxLen d.notes
  else s.ringWait d.ring { d with op := 1 }

/-- R298: the commit descriptor at a byte offset of an S-core's SRAM. -/
def State.bellAt (s : State) (ck off : Nat) : Doorbell :=
  let w := s.sramWords ck off 4
  { ring := wf_ w 0 0 16, op := wf_ w 0 16 2, status := wf_ w 0 18 8, reason := wf_ w 0 26 8, notes := wf_ w 0 34 16,
    token := wf_ w 1 0 32, position := wf_ w 2 0 32, ctxLen := wf_ w 2 32 32, at_ := some (ck, off) }

/-- R298: a doorbell with its descriptor as it stands now. -/
def State.bell (s : State) (d : Doorbell) : Doorbell :=
  match d.at_ with
  | none => d
  | some (ck, off) => s.bellAt ck off

/-- R295, R298, R307, R308: a doorbell taken by the ring unit. -/
def State.takeDoorbell (s : State) (d : Doorbell) : State :=
  let open_ := s.rb R.RING_OPEN d.ring
  let id := s.rf R.RING_REQUEST_ID d.ring
  match (if open_ then s.req id else none) with
  | none => s.inc R.RING_DISCARDED d.ring
  | some r =>
    if d.op = 0 then
      if r.fixed.isSome then s.inc R.RING_DISCARDED d.ring
      else if (s.ring d.ring).waiting.isEmpty && s.ringRoom d.ring 1 then s.commitToken id d.token d.position
      else s.ringWait d.ring d
    else if d.op = 1 then (s.fixOutcome id d.status d.reason).takeEnd id d
    else if d.op = 2 then
      if r.fixed.isSome then (s.inc R.RING_DISCARDED d.ring).takeEnd id d
      else
        let s1 := s.fixOutcome id d.status d.reason
        if (s1.ring d.ring).waiting.isEmpty && s1.ringRoom d.ring 2 then
          (s1.commitToken id d.token d.position).commitEnd id d.ctxLen d.notes
        else s1.ringWait d.ring d
    else s

/-- R295: the doorbells that wait at a ring commit, in order, while there is room. -/
def State.ringRetry (s : State) (r : Nat) : Nat → State
  | 0 => s
  | fuel + 1 =>
    let rg := s.ring r
    match rg.waiting with
    | [] => s.wf R.RING_FULL r 0
    | d :: rest =>
      if s.ringRoom r (if d.op = 2 then 2 else 1) then
        let s1 := s.setRing r { rg with waiting := rest }
        let id := s1.rf R.RING_REQUEST_ID r
        let s2 :=
          if d.op = 0 then s1.commitToken id d.token d.position
          else if d.op = 2 then (s1.commitToken id d.token d.position).commitEnd id d.ctxLen d.notes
          else s1.commitEnd id d.ctxLen d.notes
        s2.ringRetry r fuel
      else s

/-- R308: the END doorbell of a request whose outcome is fixed: sent by the COMMIT S-core when every set dispatched has returned
or been lost, or at once for a request that is still QUEUED. -/
def State.endWhenIdle (s : State) (id : Nat) : State :=
  match s.req id with
  | none => s
  | some r =>
    match r.fixed with
    | none => s
    | some (st, rs) =>
      let len := ((s.ctxOf r.ctx).map (·.len)).getD 0
      let d : Doorbell := { ring := r.ring, op := 1, status := st, reason := rs, ctxLen := len }
      if r.state = rqQueued then s.takeEnd id d
      else
        let s1 := s.setReq id fun x => { x with state := rqEnding }
        if r.inflight = 0 ∧ !((s1.doorbells.map s1.bell).any fun e => e.ring = r.ring && e.op ≠ 0) ∧
            !((s1.ring r.ring).waiting.any fun e => e.op ≠ 0) then
          { s1 with doorbells := s1.doorbells ++ [d] }
        else s1

/-- R307, R308: an outcome fixed by something other than a doorbell, with what follows at once. A context the event terminates
is TERMINATED even where the outcome stands already (R311). -/
def State.endRequest (s : State) (id status : Nat) : State :=
  match s.req id with
  | none => s
  | some r =>
    let s1 := if r.fixed.isSome ∧ terminates status then
        (s.setCtx r.ctx fun c => { c with term := true }).setReq id fun x => { x with notes := x.notes ||| noteCtxTerminated }
      else s
    (s1.fixOutcome id status 0).endWhenIdle id

/-! ### Delivery -/

/-- R296: the RDMA WRITEs of the committed records not yet delivered, in SEQ order, in runs that do not wrap, from SEQ `q`. -/
def State.ringRun (s : State) (r q : Nat) : Nat → List Nat → List Nat
  | 0, acc => acc
  | n + 1, acc =>
    s.ringRun r (seqNext q) n (acc ++ (s.hbmWords (s.rf R.RING_SHADOW_ADDR r + 32 * (q % 1024)) 4).1)

/-- R296: delivery of records from RingSt.deliver to NEXT_SEQ - 1, then the tail word. A STALLED ring delivers nothing. -/
def State.ringDeliver (s : State) (r : Nat) : State :=
  let rg := s.ring r
  let next := s.rf R.RING_NEXT_SEQ r
  let n := seqDist rg.deliver next
  let qp := s.rf R.RING_QP r
  if !s.rb R.RING_BOUND r || s.rb R.RING_STALLED r || n = 0 || !s.connected qp then s
  else
    let size := s.ringSize r
    let base := s.rf R.RING_HOST_ADDR r
    let key := s.rf R.RING_RKEY r
    let first := rg.deliver % size
    let n1 := min n (size - first)
    let p1 := s.packets qp (32 * n1)
    let s1 := ((s.emit (.rdmaWrite qp (base + 64 + 32 * first) key (s.ringRun r rg.deliver n1 []))).framesOut qp p1).txQp qp p1
    let p2 := s1.packets qp (32 * (n - n1))
    let s2 := if n1 < n then
        ((s1.emit (.rdmaWrite qp (base + 64) key (s.ringRun r (seqPlus rg.deliver n1) (n - n1) []))).framesOut qp p2).txQp qp p2
      else s1
    let tail := if next = 1 then 0xFFFFFFFF else next - 1
    (s2.sendQp qp (.rdmaWrite qp base key [tail])).setRing r { rg with deliver := next, tails := rg.tails ++ [tail] }

end Sys2Proof.Machine
end

