-- ==== Sys2Proof/Machine/Program.lean ====
section
/-! DEFINITION. Weight programming: the checks of R146, the governor of R155 to R159, slots and priority (R152, R153), passes and
verify reads (R140 to R145), the journal (R149 to R151), retrims by local flip (R163). -/

namespace Sys2Proof.Machine

def wprogPage (e : Nat) : Page := { blk := 0x13, inst := e }

def State.progSt (s : State) (e : Nat) : ProgSt := Tbl.getD s.prog e {}

/-- An engine's operations replaced, with STATUS.BUSY and QUEUED (R166). -/
def State.setProg (s : State) (e : Nat) (p : ProgSt) : State :=
  (({ s with prog := Tbl.put s.prog e p }).wf R.WPROG_BUSY e (bit p.running.isSome)).wf R.WPROG_QUEUED e (bit p.queued.isSome)

/-! ### Results of R167 -/

def prNone : Nat := 0
def prDone : Nat := 1
def prBound : Nat := 2
def prBusy : Nat := 3
def prBadImage : Nat := 4
def prBadDigit : Nat := 5
def prEndurance : Nat := 6
def prVerifyFail : Nat := 7
def prAborted : Nat := 8
def prInterrupted : Nat := 9
def prSourceLost : Nat := 10
def prDenied : Nat := 11
def prDeferred : Nat := 12

/-! ### The governor -/

def rowMaxF (b : Nat) : Field := if b = 0 then R.WPROG_ROW_MAX_A else R.WPROG_ROW_MAX_B
def opsF (b : Nat) : Field := if b = 0 then R.WPROG_OPS_A else R.WPROG_OPS_B
def rowTotalF (b : Nat) : Field := if b = 0 then R.WPROG_ROW_TOTAL_A else R.WPROG_ROW_TOTAL_B
def wornF (b : Nat) : Field := if b = 0 then R.WPROG_A_WORN else R.WPROG_B_WORN
def jsrcF (b : Nat) : Field := if b = 0 then R.WPROG_JSRC_A else R.WPROG_JSRC_B
def jcrcF (b : Nat) : Field := if b = 0 then R.WPROG_JCRC_A else R.WPROG_JCRC_B
def jfmtF (b : Nat) : Field := if b = 0 then R.WPROG_JFMT_A else R.WPROG_JFMT_B
def jseqF (b : Nat) : Field := if b = 0 then R.WPROG_JSEQ_A else R.WPROG_JSEQ_B

/-- R156: RATED. -/
def rated : Nat := 1000000

/-- R156: the allowance after `el` powered seconds. -/
def State.allowance (s : State) (e el : Nat) : Nat :=
  min rated (rated * el / (s.rf R.WPROG_PLAN_DAYS e * 86400) + s.rf R.WPROG_BURST e)

/-- R156: the swap limit and the retrim limit after `el` powered seconds. -/
def State.swapLimit (s : State) (e el : Nat) : Nat := min (s.allowance e el) (rated - s.rf R.WPROG_RESERVE e)
def State.retrimLimit (s : State) (e el : Nat) : Nat := min (s.allowance e el + s.rf R.WPROG_RESERVE e) rated

/-- R157: the limit an operation is judged against; PURPOSE 0 SWAP, 1 RETRIM, 2 SPARE, 3 RESTART. -/
def State.govLimit (s : State) (e purpose el : Nat) : Nat :=
  if purpose = 0 then s.swapLimit e el else if purpose = 1 then s.retrimLimit e el else rated

/-- R167: the word of the policy fields at 0x188. -/
def State.govPolicy (s : State) (e : Nat) : Nat :=
  pack [(s.rf R.WPROG_PLAN_DAYS e, 0, 16), (s.rf R.WPROG_BURST e, 16, 16), (s.rf R.WPROG_RESERVE e, 32, 16),
    (s.rf R.WPROG_DEFER_MAX e, 48, 16)]

/-- R157: 0 it fits; otherwise the powered seconds until the allowance admits it, none where it never will. -/
def State.govWait (s : State) (e bank purpose : Nat) : Option Nat :=
  let need := s.rf (rowMaxF bank) e + 1
  if need ≤ s.govLimit e purpose s.powered then some 0
  else
    let a := if purpose = 1 then need - s.rf R.WPROG_RESERVE e else need
    let top := if purpose = 0 then rated - s.rf R.WPROG_RESERVE e else rated
    if top < need ∨ 2 ≤ purpose then none
    else
      let el := ((a - s.rf R.WPROG_BURST e) * (s.rf R.WPROG_PLAN_DAYS e * 86400) + rated - 1) / rated
      some (el - s.powered)

/-! ### START and ABORT -/

/-- R146: an operation refused: the result, the captured error and INT_STATUS.REFUSED, with ACCESS_ERROR (R50). -/
def State.progRefuse (s : State) (e result cause : Nat) (m : Master) (w : Nat) : State :=
  ((s.wf R.WPROG_RESULT e result).capture (wprogPage e) ((wprogPage e).addr + 0x110) w cause m.code m.source).setInts
    (wprogPage e) (2 ^ R.INT_WPROG_REFUSED + 1)

/-- R167: the word of PROG_CMD that starts an operation; RESTART reads as PURPOSE 1. -/
def ProgOp.cmdWord (o : ProgOp) : Nat :=
  pack [(o.bank, 0, 1), (o.fmt, 1, 2), (bit o.touchUp, 3, 1), (if o.purpose = 3 then 1 else o.purpose, 4, 2), (1, 6, 1)]

/-- The bytes of an image format, R138. -/
def imageBytes (fmt : Nat) : Nat := 512 * imageRowBytes fmt

/-- R146 check 5: a digit of a RAW image outside -3 to +3. -/
def badDigit (fmt : Nat) (image : List Nat) : Bool :=
  fmt = 3 && image.any fun b =>
    decide (3 < (signedOf 4 (b % 16)).natAbs) || decide (3 < (signedOf 4 (b / 16)).natAbs)

/-- R146 check 4: PROG_SRC in order, the image populated, clean and of the CRC stated; the image and the reads' counts. -/
def State.loadImage (s : State) (op : ProgOp) : Option (List Nat) × State :=
  let n := imageBytes op.fmt
  if op.src % 4096 ≠ 0 || !s.populated op.src n then (none, s)
  else
    let (bs, h, s1) := s.hbmCodewords op.src (n / 64)
    if !h && crc32c bs = op.crc then (some bs, s1) else (none, s1)

/-- R146: the checks of START in order; an operation that passes them is queued, deferred where the governor says so. The
answer is the result: 0 queued, 12 deferred, else the refusal. `w`: the word written to PROG_CMD. R157 gives a deferral in powered
seconds: its stamp is the time now and that many whole seconds (DESIGN CHOICE, log 38: the second in progress counts for none). -/
def State.progStart (s : State) (e : Nat) (m : Master) (op : ProgOp) (w : Nat) : Nat × State :=
  let p := s.progSt e
  let no (r c : Nat) (t : State) : Nat × State := (r, t.progRefuse e r c m w)
  if p.running.isSome || p.queued.isSome then no prBusy 0x11 s
  else if op.purpose ≠ 0 ∧ m ≠ .oasis then no prDenied 0x15 s
  else if s.bankBound e op.bank then no prBound 0x10 s
  else
    let (img, s1) := s.loadImage op
    match img with
    | none => no prBadImage 0x12 s1
    | some bs =>
      if badDigit op.fmt bs then no prBadDigit 0x13 s1
      else
        match s1.govWait e op.bank op.purpose with
        | none => no prEndurance 0x14 s1
        | some wait =>
          if wait ≠ 0 ∧ s1.rf R.WPROG_DEFER_MAX e < wait then no prEndurance 0x14 s1
          else
            let due := if wait = 0 then 0 else s1.now + wait * 1000000000
            let o := { op with image := bs, started := s1.now, deferUntil := due }
            let s2 := (s1.setProg e { s1.progSt e with queued := some o }).wf R.WPROG_DEFER_UNTIL e due
            if wait = 0 then (prNone, s2.wf R.WPROG_RESULT e prNone)
            else (prDeferred, (s2.wf R.WPROG_RESULT e prDeferred).setInt (wprogPage e) R.INT_WPROG_DEFERRED)

/-- R146, R167: Oasis describes an operation in PROG_SRC, PROG_CRC and PROG_CMD and starts it; a RESTART reads as PURPOSE 1. -/
def State.oasisStart (s : State) (e : Nat) (op : ProgOp) : Nat × State :=
  (((((s.wf R.WPROG_PROG_SRC e op.src).wf R.WPROG_PROG_CRC e op.crc).wf R.WPROG_BANK e op.bank).wf R.WPROG_IMAGE_FMT e op.fmt).wf
    R.WPROG_MODE e (bit op.touchUp)).wf R.WPROG_PURPOSE e (if op.purpose = 3 then 1 else op.purpose) |>.progStart e .oasis op op.cmdWord

/-! ### Charges and ends -/

/-- R155, R158: the ledger's fields of a bank after rows have been charged, and worn banks. -/
def State.ledger (s : State) (e bank : Nat) (rows : List Nat) : State :=
  let pe := s.physEng e
  let s1 := s.each rows fun t r =>
    { t with rowCharge := Tbl.put t.rowCharge (cellKey pe bank r) (Tbl.getD t.rowCharge (cellKey pe bank r) 0 + 1) }
  let mx := rows.foldl (fun a r => max a (Tbl.getD s1.rowCharge (cellKey pe bank r) 0)) (s1.rf (rowMaxF bank) e)
  let s2 := if rows.isEmpty then s1 else (((s1.wf (rowMaxF bank) e mx).incSat (opsF bank) e).wf (rowTotalF bank) e
    (s1.rf (rowTotalF bank) e + rows.length))
  if rated ≤ mx ∧ !s2.rb (wornF bank) e then (s2.wf (wornF bank) e 1).setInt (wprogPage e) R.INT_WPROG_WORN else s2

/-- The key of a slot of a bank's journal entry. -/
def slotKey (pe bank slot : Nat) : Nat := (pe * 2 + bank) * 2 + slot

/-- R149: the CRC-32C written with a slot. -/
def slotCrc (seq : Nat) (words : List Nat) : Nat := crc32c (leBytes 3 seq ++ words.flatMap (leBytes 8))

/-- R149: the fields of a bank that its journal entry holds: the bank state, the last operation's image, the base values of R87 and
the ledger; the pass reached stands before the base values. -/
def entryFields (bank : Nat) : List Field × List Field :=
  ([bankStateF bank, jsrcF bank, jfmtF bank, jcrcF bank], [spanBaseF bank, zeroBaseF bank, rowMaxF bank, opsF bank, rowTotalF bank])

/-- R149: the journal entry committed: its older slot is written with the next sequence number. -/
def State.journal (s : State) (e bank : Nat) : State :=
  let seq := (s.rf (jseqF bank) e + 1) % 2 ^ 24
  let rd (fs : List Field) : List Nat := fs.map fun f => s.rf f e
  let words := rd (entryFields bank).1 ++ [s.rf R.WPROG_PASS e] ++ rd (entryFields bank).2
  let slot : JSlot := { seq := seq, words := words, crc := slotCrc seq words }
  ({ s with jour := Tbl.put s.jour (slotKey (s.physEng e) bank (seq % 2)) slot }).wf (jseqF bank) e seq

/-- R149: the entry in force of a physical engine's bank: the valid slot of the higher sequence number. -/
def State.entry (s : State) (pe bank : Nat) : Option JSlot :=
  let slot (n : Nat) : Option JSlot :=
    (Tbl.get? s.jour (slotKey pe bank n)).filter fun x => x.crc = slotCrc x.seq x.words
  match slot 0, slot 1 with
  | some a, some b => if a.seq < b.seq then some b else some a
  | some a, none => some a
  | none, b => b

/-- R149, R167: the fields of a bank loaded from its journal entry; with none, the bank has never been programmed. -/
def State.loadEntry (s : State) (e bank : Nat) : State :=
  let x := (s.entry (s.physEng e) bank).getD { seq := 0, words := [], crc := 0 }
  let put (t : State) (fs : List Field) (ws : List Nat) : State := (fs.zip ws).foldl (fun (u : State) y => u.wf y.1 e y.2) t
  let word (i : Nat) : Nat := x.words.getD i 0
  let s1 := put s (entryFields bank).1 ((List.range 4).map word)
  let s2 := put s1 (entryFields bank).2 ((List.range 5).map fun i => word (5 + i))
  (s2.wf (jseqF bank) e x.seq).wf (wornF bank) e (bit (decide (rated ≤ s2.rf (rowMaxF bank) e)))

/-- R314: an activation that stops: the variant is REGISTERED again, its queued operations are removed, and the command's record
is final with status `st`. -/
def State.activationEnd (s : State) (v st : Nat) : State :=
  let s1 := s.setVState v vRegistered
  let s2 := (Tbl.keys s1.prog).foldl (fun t k =>
    match (t.progSt k).queued with
    | some o => if o.var = some v then t.setProg k { t.progSt k with queued := none } else t
    | none => t) s1
  let s3 := { s2 with
    sec := (s2.sec.freeItems v).endStaging v
    prog := Tbl.update s2.prog fun _ p =>
      { p with owed := p.owed.filter (fun (o : ProgOp) => o.var ≠ some v), running := p.running.map fun (o : ProgOp) =>
          if o.var = some v then { o with var := none } else o } }
  let x := s3.var v
  let s4 := match x.activating with
    | some (qp, id) => s3.finalRec qp id (servingWords st 0 0 0 (if st = stBusy then s3.rf R.SERVE_RETRY_US 0 else 0) 0 0 0 0 0 0 0
        0 s3.now 0 0)
    | none => s3
  s4.setVar v { s4.var v with activating := none }

/-- R314: an activation that an operation stops: a record names the engine and the result. -/
def State.activationStop (s : State) (v e result : Nat) : State :=
  let st := if result = prEndurance ∨ result = prBusy ∨ result = prBound ∨ result = prVerifyFail then stBusy else stNoVariant
  (s.unitEv 4 (wprogPage e) v result false).activationEnd v st

/-- A running operation ends: its rows charged, the journal committed, its result and stamps. -/
def State.progEnd (s : State) (e : Nat) (op : ProgOp) (result bankSt : Nat) (int : Option Nat) : State :=
  let s1 := ((s.ledger e op.bank op.charged).setBankState e op.bank bankSt).journal e op.bank
  let s2 := ((s1.setProg e { s1.progSt e with running := none }).wf R.WPROG_RESULT e result).wf R.WPROG_PROG_END_STAMP e s1.now
  match int with
  | some i => s2.setInt (wprogPage e) i
  | none => s2

/-- R145, R517: the VERIFY_FAIL_ROWS records of a bank. -/
def State.failRecords (s : State) (e : Nat) (op : ProgOp) : State :=
  s.each [0, 1] fun t h =>
    let rows := op.bad.filter fun r => r / 256 = h
    if rows.isEmpty then t
    else t.logEv 0x0401 (wprogPage e).index (op.bank + 2 * h)
      ((List.range 4).map fun d => rows.foldl (fun w r => if r % 256 / 64 = d then w ||| 2 ^ (r % 64) else w) 0)

/-- R87, R147, R453: the bank is READY: trims at 1.0 and 0, base values from the pilot readings `vs` of the final verify (1/16 LSB),
drift flags clear, the next sweep unfiltered. -/
def State.progDone (s : State) (e : Nat) (op : ProgOp) (vs : List Int) : State :=
  let b := op.bank
  let s1 := ((((((s.wf (gainF b) e 0x4000).wf (offsetF b) e 0).wf (spanBaseF b) e (fieldOfInt 16 (vs.getD 0 0 - vs.getD 6 0))).wf
    (zeroBaseF b) e (fieldOfInt 16 (vs.getD 3 0))).wf (retrimF b) e 0).wf (driftHardF b) e 0).setPilot e b
      { s.pilot e b with fresh := true, block := 0, sums := [] }
  let s2 := s1.progEnd e op prDone bankReady (some R.INT_WPROG_PROG_DONE)
  if op.epochs.isEmpty then s2
  else (op.epochs.foldl (fun (t : State) n => if t.rf (epochBankF n) e = 0 then t.wf (epochBankF n) e (b + 1) else t) s2).retrack e s2

/-- R145: the full operation that tries once more. -/
def ProgOp.again (o : ProgOp) : ProgOp :=
  { src := o.src, crc := o.crc, bank := o.bank, fmt := o.fmt, touchUp := false, purpose := o.purpose, started := 0, retry := true,
    var := o.var, epochs := o.epochs }

/-- R145: rows remain outside tolerance after pass 3; after the first failure Oasis starts a full operation from the same image, under
the checks of R146. -/
def State.progFail (s : State) (e : Nat) (op : ProgOp) : State :=
  let s1 := (s.wf R.WPROG_FAILED_ROWS e op.bad.length).progEnd e op prVerifyFail bankUnsettled (some R.INT_WPROG_PROG_FAILED)
  if op.retry then
    let s2 := (s1.failRecords e op).suspect (s1.physOf (engCore e)) 0x03 (engNum e)
    match op.var with
    | some v => s2.activationStop v e prVerifyFail
    | none => s2
  else
    let (r, s2) := s1.oasisStart e op.again
    match op.var with
    | some v => if r = prNone ∨ r = prDeferred then s2 else s2.activationStop v e r
    | none => s2

/-- R148: an abort of a running operation at the end of its row pulse. -/
def State.progAborted (s : State) (e : Nat) (op : ProgOp) : State := s.progEnd e op prAborted bankUnsettled none

/-- R148: PROG_CMD.ABORT. -/
def State.progAbort (s : State) (e : Nat) : State :=
  let p := s.progSt e
  match p.queued, p.running with
  | some _, _ => ((s.setProg e { p with queued := none }).wf R.WPROG_RESULT e prAborted).wf R.WPROG_PROG_END_STAMP e s.now
      |>.wf R.WPROG_DEFER_UNTIL e 0
  | none, some o =>
    if o.pass = 0 ∨ o.waiting ∨ o.rows.isEmpty then s.progAborted e o
    else s.setProg e { p with running := some { o with aborting := true } }
  | none, none => s

/-! ### Slots and the start of an operation -/

/-- R152: engines of a core, and of the die, that program. -/
def State.programming (s : State) : List Nat := (s.prog.filter fun p => p.2.running.isSome).map (·.1)

/-- R153: the rank of a queued operation, lower first. -/
def State.progRank (s : State) (e : Nat) (o : ProgOp) : Nat :=
  if o.purpose = 2 then 0
  else if o.purpose = 1 ∧ s.rb (driftHardF (1 - o.bank)) e then 1
  else if o.purpose = 3 then 2 else if o.purpose = 1 then 3 else 4

/-- R152, R153, R157: the operation that takes the next free slot: its engine. Of two of one class with the same START stamp the one on
the lower engine number goes first: R153 names no order between them (DESIGN CHOICE, log 38). -/
def State.nextProg (s : State) : Option Nat :=
  let busy := s.programming
  if s.rf R.PWRCAP_PROG_CEILING 0 ≤ busy.length then none
  else
    let cands := s.prog.filterMap fun p => match p.2.queued with
      | some o =>
        let ck := engCore p.1
        if (o.deferUntil = 0 ∨ o.deferUntil ≤ s.now) ∧ busy.countP (fun x => engCore x = ck) < 4 ∧ p.2.running.isNone ∧
            !s.gated (.core ck) then
          some (s.progRank p.1 o, o.started, p.1) else none
      | none => none
    (cands.foldl (fun (b : Option (Nat × Nat × Nat)) c => match b with
      | none => some c
      | some x => if c.1 < x.1 ∨ (c.1 = x.1 ∧ c.2.1 < x.2.1) then some c else b) none).map (·.2.2)

/-- R143, R147, R149: an operation leaves the queue: condition 3 again, the journal, PROGRAMMING. -/
def State.dequeue (s : State) (e : Nat) : State :=
  let p := s.progSt e
  match p.queued with
  | none => s
  | some o =>
    let s1 := (s.setProg e { p with queued := none }).wf R.WPROG_DEFER_UNTIL e 0
    if s1.bankBound e o.bank then
      let s2 := (((s1.wf R.WPROG_RESULT e prBound).wf R.WPROG_PROG_END_STAMP e s1.now).capture (wprogPage e) 0 o.bank 0x10 7 0).setInt
        (wprogPage e) R.INT_WPROG_REFUSED
      match o.var with
      | some v => s2.activationStop v e prBound
      | none => s2
    else
      let rows := List.range 512
      let run := if o.touchUp then
          { o with pass := 0, rows := [], verify := rows.map fun r => (r, 0, true, false, s.elapsed + 2000 * (r + 1)) }
        else { o with pass := 1, rows := rows, verify := [] }
      let s2 := (((s1.wf (jsrcF o.bank) e o.src).wf (jcrcF o.bank) e o.crc).wf (jfmtF o.bank) e o.fmt).wf R.WPROG_PASS e run.pass
      let s3 := ((s2.setProg e { s2.progSt e with running := some run }).setBankState e o.bank bankProgramming).journal e o.bank
      (((((((s3.wf R.WPROG_PROG_START_STAMP e s3.now).wf R.WPROG_RESULT e prNone).wf R.WPROG_ROW e 0).wf R.WPROG_P1_ROWS e 0).wf
        R.WPROG_P2_ROWS e 0).wf R.WPROG_P3_ROWS e 0).wf R.WPROG_FAILED_ROWS e 0)

/-! ### Passes -/

/-- R140: the next row pulse: rows still to verify wait for their turn, rows within tolerance are passed over, and the next
pass begins as soon as the last pulse of this one ends, after its journal commit. -/
def State.nextPulse (s : State) (e : Nat) (o : ProgOp) : Nat → State
  | 0 => s.setProg e { s.progSt e with running := some o }
  | fuel + 1 =>
    let keep (t : State) (x : ProgOp) : State :=
      (t.setProg e { t.progSt e with running := some x }).wf R.WPROG_ROW e (x.rows.headD 0)
    match o.rows with
    | [] =>
      if o.pass < 3 ∧ !o.pulsed.isEmpty then
        let t := (s.journal e o.bank).wf R.WPROG_PASS e (o.pass + 1)
        t.nextPulse e { o with pass := o.pass + 1, rows := o.pulsed.reverse, pulsed := [] } fuel
      else keep (s.when (!o.ended) fun t => t.journal e o.bank) { o with waiting := false, ended := true }
    | r :: rest =>
      if o.pass = 1 ∧ !o.touchUp then keep s { o with waiting := false }
      else if o.verify.any (fun v => v.1 = r) then keep s { o with waiting := true }
      else if o.bad.contains r then keep s { o with waiting := false, bad := o.bad.filter (· ≠ r) }
      else s.nextPulse e { o with rows := rest, waiting := false } fuel

/-- R85, R139, R141, R155: the row pulse in progress ends: the row holds its digits and the pilot pattern, is charged once, and is
verified. -/
def State.rowPulseEnd (s : State) (e : Nat) : State :=
  match (s.progSt e).running with
  | none => s
  | some o =>
    match o.rows with
    | [] => s
    | r :: rest =>
      if o.waiting ∨ o.pass = 0 then s
      else
        let nb := imageRowBytes o.fmt
        let digits := rowDigits o.fmt ((o.image.drop (nb * r)).take nb) ++ pilotDigits r
        let s1 := { s with cells := Tbl.put s.cells (cellKey (s.physEng e) o.bank r) digits }
        let f := if o.pass = 1 then R.WPROG_P1_ROWS else if o.pass = 2 then R.WPROG_P2_ROWS else R.WPROG_P3_ROWS
        let due := if o.pass = 3 then s.elapsed + 20000 else 0
        let o1 := { o with
          rows := rest, pulsed := r :: o.pulsed, charged := if o.charged.contains r then o.charged else r :: o.charged,
          verify := o.verify ++ [(r, 0, true, false, due)] }
        let s2 := s1.wf f e (s1.rf f e + 1)
        if o.aborting then s2.progAborted e o1 else s2.nextPulse e o1 2048

/-- R86, R87: the pilot readings of a bank's final verify, averaged over its blocks, in 1/16 LSB; `noise` is what the circuit adds. -/
def State.pilotBase (s : State) (e b : Nat) (noise : List Int) : List Int :=
  (List.range 8).map fun k => 2 * s.pilotSum e b 0 512 k + noise.getD k 0

/-- R145, R147: the operation ends when its last row has been judged. -/
def State.judgeProg (s : State) (e : Nat) (noise : List Int) : State :=
  match (s.progSt e).running with
  | none => s
  | some o =>
    if !o.verify.isEmpty ∨ !o.rows.isEmpty then s
    else if o.bad.isEmpty then s.progDone e o (s.pilotBase e o.bank noise) else s.progFail e o

/-- R93, R143: a verify read may use the converters: in an idle slot that no pilot sub-step wants, or, once forced, after the plane pass
in progress. -/
def State.verifySlot (s : State) (e : Nat) (forced : Bool) : Bool :=
  if forced then s.passBoundary e else s.idleSlot e && !s.sweepWaits e

/-- R142, R143, R145, R149: a verify sub-step completes, or all that remain of a forced verify in one piece: the deviations of its
slices from their digits in 1/16 of a level, and what the circuit adds to the bank's pilot readings. The fifth completes the row's
verify, which is judged; pass 0 ends with its last row. -/
def State.verifyStep (s : State) (e : Nat) (devs noise : List Int) : State :=
  match (s.progSt e).running with
  | none => s
  | some o =>
    match o.verify with
    | [] => s
    | (r, n, ok, forced, due) :: rest =>
      let run (t : State) (x : ProgOp) : State := t.setProg e { t.progSt e with running := some x }
      if !s.verifySlot e forced then s
      else
        let ok1 := ok && devs.all fun d => decide (d.natAbs ≤ 2)
        if n < 4 ∧ !forced then run s { o with verify := (r, n + 1, ok1, forced, due) :: rest }
        else
          let o1 := { o with verify := rest, bad := if ok1 then o.bad else o.bad ++ [r] }
          if o.pass ≠ 0 then
            let s1 := run s o1
            (s1.when o1.waiting fun t => t.nextPulse e o1 2048).judgeProg e noise
          else match rest with
            | v :: _ => (run s o1).wf R.WPROG_ROW e v.1
            | [] =>
              let s1 := (run s o1).journal e o.bank
              if o1.bad.isEmpty then s1.judgeProg e noise
              else (s1.wf R.WPROG_PASS e 1).nextPulse e { o1 with pass := 1, rows := o1.bad, pulsed := [] } 2048

/-- R143: the first verify whose deadline has passed becomes forced. -/
def State.verifyDeadline (s : State) (e : Nat) : State :=
  match (s.progSt e).running with
  | none => s
  | some o =>
    let late (v : Nat × Nat × Bool × Bool × Nat) : Bool :=
      !v.2.2.2.1 && ((v.2.2.2.2 ≠ 0 && decide (v.2.2.2.2 ≤ s.elapsed)) || (o.waiting && o.rows.head? = some v.1))
    match o.verify.find? late with
    | none => s
    | some v =>
      (s.setProg e { s.progSt e with running := some { o with
        verify := o.verify.map fun x => if x.1 = v.1 then (x.1, x.2.1, x.2.2.1, true, x.2.2.2.2) else x } }).inc
          R.WPROG_FORCED_VERIFIES e

/-! ### Work Oasis owes: retrims, restarts -/

/-- The image of a bank's journal entry, R149. -/
def State.journalOp (s : State) (e from_ dst purpose : Nat) (touchUp : Bool) : ProgOp :=
  { src := s.rf (jsrcF from_) e, crc := s.rf (jcrcF from_) e, bank := dst, fmt := s.rf (jfmtF from_) e, touchUp := touchUp,
    purpose := purpose, started := s.now }

/-- R151: the image of an owed operation no longer matches: SOURCE_LOST, with an event-log record; else it is started. -/
def State.startOwed (s : State) (e : Nat) (o : ProgOp) : State :=
  if (s.loadImage o).1.isSome then (s.oasisStart e o).2
  else
    let s1 := (((s.wf R.WPROG_RESULT e prSourceLost).wf R.WPROG_PROG_END_STAMP e s.now).setInt (wprogPage e)
      R.INT_WPROG_PROG_FAILED).unitEv 4 (wprogPage e) 0 prSourceLost false
    match o.var with
    | some v => s1.activationStop v e prSourceLost
    | none => s1

/-- R150, R151, R163, R453: what Oasis owes an engine starts as soon as it can: an interrupted operation or a spare's, then a retrim,
which waits while the other bank is bound and is dropped where the drifted bank is bound no longer. -/
def State.tryOwed (s : State) (e : Nat) : State :=
  let p0 := s.progSt e
  let p := if p0.owed.isNone then { p0 with owed := p0.owed2, owed2 := none } else p0
  if p.queued.isSome || p.running.isSome || s.gated (.core (engCore e)) then s
  else match p.owed with
    | some o => if s.bankBound e o.bank then s else (s.setProg e { p with owed := none }).startOwed e o
    | none =>
      match p.retrims with
      | [] => s
      | b :: rest =>
        let s1 := s.setProg e { p with retrims := rest }
        if !s.bankBound e b then s1
        else if s.bankBound e (1 - b) then s
        else s1.startOwed e (s1.journalOp e b (1 - b) 1 false)

/-- R163: RETRIM or DRIFT_HARD rose on a bound bank: Oasis owes a full RETRIM of the other bank. -/
def State.oweRetrims (s : State) (e : Nat) (before : State) : State :=
  s.each [0, 1] fun t b =>
    let rose (f : Field) : Bool := t.rb f e && !before.rb f e
    let p := t.progSt e
    if (rose (retrimF b) || rose (driftHardF b)) && t.bankBound e b then
      (t.setProg e { p with retrims := if p.retrims.contains b then p.retrims else p.retrims ++ [b] }).tryOwed e
    else t

/-- R158: a worn bank has x_DRIFT_HARD set, and the engine's other bank is worn or cannot take a retrim: it is bound, or the governor
refuses it. -/
def State.stuckWorn (s : State) (e b : Nat) : Bool :=
  s.rb (wornF b) e && s.rb (driftHardF b) e && (s.rb (wornF (1 - b)) e || s.bankBound e (1 - b) ||
    (match s.govWait e (1 - b) 1 with
      | none => true
      | some w => decide (w ≠ 0) && decide (s.rf R.WPROG_DEFER_MAX e < w)))

/-- R158: a bank that has come to be stuck so is evidence against the core, which fences it onto a spare. -/
def State.wornOut (s : State) (e : Nat) (before : State) : State :=
  s.each [0, 1] fun t b => t.when (t.stuckWorn e b && !before.stuckWorn e b) fun u => u.suspect (u.physOf (engCore e)) 0x13 (engNum e)

/-- R150: a reset interrupts a running operation: the bank is UNSETTLED, the pulsed rows are charged, and Oasis owes a touch-up
with priority RESTART. -/
def State.progInterrupt (s : State) (e : Nat) : State :=
  match (s.progSt e).running with
  | none => s
  | some o =>
    let s1 := s.progEnd e o prInterrupted bankUnsettled (some R.INT_WPROG_PROG_FAILED)
    let p := s1.progSt e
    s1.setProg e { p with
      owed := some { o.again with touchUp := true, purpose := 3, retry := o.retry }
      owed2 := if p.owed.isSome then p.owed else p.owed2 }

/-- R163: a local flip: a bound bank whose drift flags are set, the other READY with the same image: every epoch bound to it is
bound to the fresh bank instead. -/
def State.localFlip (s : State) (e : Nat) : State :=
  s.each [0, 1] fun t b =>
    let o := 1 - b
    if t.bankBound e b && (t.rb (retrimF b) e || t.rb (driftHardF b) e) && t.ready e o && !t.bankBound e o &&
        t.rf (jcrcF b) e = t.rf (jcrcF o) e && t.rf (jsrcF b) e = t.rf (jsrcF o) e && !t.rb (retrimF o) e then
      (t.each (List.range 4) fun u n => if t.rf (epochBankF n) e = b + 1 then u.wf (epochBankF n) e (o + 1) else u).retrack e t
    else t

/-! ### Commands -/

/-- SUB_STEP_END's pilot and programming companions: PILOT_SWEEP_DUE, R92. -/
def execPilotSweepDue (e b : Nat) (s : State) : Host.Outcome State Fault Refusal := .next (s.sweepDue e (b % 2))

/-- PILOT_SUB_STEP, R86. -/
def execPilotSubStep (e b : Nat) (noise : List Int) (s : State) : Host.Outcome State Fault Refusal :=
  .next (((s.pilotStep e (b % 2) noise).oweRetrims e s).wornOut e s)

/-- FORCED_SWEEP, R94. -/
def execForcedSweep (e b : Nat) (noise : List (List Int)) (s : State) : Host.Outcome State Fault Refusal :=
  .next (((s.forcedSweep e (b % 2) noise).oweRetrims e s).wornOut e s)

/-- PILOT_STALE, R92. -/
def execPilotStale (e : Nat) (s : State) : Host.Outcome State Fault Refusal := .next (s.pilotStale e)

/-- PROG_DEQUEUE, R147, R152, R153. -/
def execProgDequeue (s : State) : Host.Outcome State Fault Refusal :=
  .next (match s.nextProg with
    | some e => s.dequeue e
    | none => s)

/-- DEFER_EXPIRY, R157: a deferral whose stamp has passed ends, and its operation is eligible. -/
def execDeferExpiry (e : Nat) (s : State) : Host.Outcome State Fault Refusal :=
  .next (match (s.progSt e).queued with
    | some o => if o.deferUntil ≠ 0 ∧ o.deferUntil ≤ s.now then
        ((s.setProg e { s.progSt e with queued := some { o with deferUntil := 0 } }).wf R.WPROG_DEFER_UNTIL e 0).wf R.WPROG_RESULT
          e prNone
      else s
    | none => s)

/-- ROW_PULSE_END, R141. -/
def execRowPulseEnd (e : Nat) (s : State) : Host.Outcome State Fault Refusal :=
  .next (((s.rowPulseEnd e).tryOwed e).wornOut e s)

/-- VERIFY_DEADLINE, R143. -/
def execVerifyDeadline (e : Nat) (s : State) : Host.Outcome State Fault Refusal := .next (s.verifyDeadline e)

/-- ELAPSED_TICK, R156. -/
def execElapsedTick (s : State) : Host.Outcome State Fault Refusal := .next { s with powered := s.powered + 1 }

/-- ELAPSED_COMMIT, R156. -/
def execElapsedCommit (s : State) : Host.Outcome State Fault Refusal := .next { s with poweredKept := s.powered }

end Sys2Proof.Machine
end

