-- ==== Sys2Proof/Machine/VNum.lean ====
section
/-! DEFINITION. The arithmetic of the V-cores: the functions of R134, the FP8 and MX formats of R112 to R115, the matrix tile of R134, the
pair tree of R207, the attention of R215 and the choice of a token of R216. -/

namespace Sys2Proof.Machine

/-! ### Functions, R134 -/

/-- The natural logarithm of 2, times 2^128, rounded down. -/
def ln2Fix : Int := 235865763225513294137944142764154484399

/-- Terms `x^i / i!` of a fixed-point number of 128 fraction bits, from term `t` on. -/
def expTerms (x : Int) : Nat → Nat → Int → Int
  | 0, _, _ => 0
  | n + 1, i, t => t + expTerms x n (i + 1) (t * x / 2 ^ 128 / (i + 1))

/-- The exponential of a finite value, to about 2^-120 of its size. -/
def expRef (d : Dy) : Dy :=
  let x : Int := if -128 ≤ d.e then d.at (-128) else d.m / (2 : Int) ^ (-128 - d.e).toNat
  let k := x / ln2Fix
  { m := expTerms (x - k * ln2Fix) 40 0 (2 ^ 128), e := k - 128 }

/-- The natural logarithm of a positive number, to about 2^-120. -/
def logRef (d : Dy) : Dy :=
  let n := d.m.natAbs
  let one : Int := 2 ^ 128
  let f : Int := (n : Int) * one / 2 ^ n.log2
  let y := (f - one) * one / (f + one)
  let y2 := y * y / one
  let sum := (List.range 44).foldl (fun (r : Int × Int) (i : Nat) => (r.1 + r.2 / (2 * (i : Int) + 1), r.2 * y2 / one)) (0, y)
  { m := 2 * sum.1 + (d.e + n.log2) * ln2Fix, e := -128 }

/-- The reciprocal square root of a positive number, to 80 bits. -/
def rsqrtRef (d : Dy) : Dy :=
  let (m, e) := if d.e % 2 = 0 then (d.m.natAbs, d.e) else (2 * d.m.natAbs, d.e - 1)
  let k := 80 + m.log2
  { m := Nat.sqrt (2 ^ (2 * k) / m), e := -(k : Int) - e / 2 }

/-- R134: an FP32 result within 2 ulp of the exact value `d`, at a place that Config.fnUlp leaves open: from one ulp below the FP32 value
next toward zero from it to two ulp above that. -/
def nearF (f a : Nat) (d : Dy) : Nat :=
  let b := f32.encode .rz false d
  b / 2 ^ 31 * 2 ^ 31 + (max 0 (min (f32.infBits false : Int) ((b % 2 ^ 31 : Nat) + (Config.fnUlp f a % 4 - 1)))).toNat

/-- R134: the exponential of an FP32 value; exactly 0 of minus infinity. -/
def fexp (a : Nat) : Nat :=
  match f32.decode a with
  | .nan => f32.nanBits
  | .inf n => if n then 0 else f32.infBits false
  | .fin _ d => if (Dy.ofInt 200).le d then f32.infBits false else nearF 0 a (if d.le (Dy.ofInt (-200)) then Dy.zero else expRef d)

/-- R134: the logarithm, the reciprocal and the reciprocal square root of an FP32 value. -/
def flog (a : Nat) : Nat :=
  match f32.decode a with
  | .nan => f32.nanBits
  | .inf n => if n then f32.nanBits else f32.infBits false
  | .fin _ d => if d.m = 0 then f32.infBits true else if d.m < 0 then f32.nanBits else nearF 1 a (logRef d)

def frecip (a : Nat) : Nat :=
  match f32.decode a with
  | .nan => f32.nanBits
  | .inf n => f32.encode .rne n Dy.zero
  | .fin n d => if d.m = 0 then f32.infBits n else nearF 2 a ((Dy.ofInt 1).divX d)

def frsqrt (a : Nat) : Nat :=
  match f32.decode a with
  | .nan => f32.nanBits
  | .inf n => if n then f32.nanBits else 0
  | .fin n d => if d.m = 0 then f32.infBits n else if d.m < 0 then f32.nanBits else nearF 3 a (rsqrtRef d)

/-- A function of R206 by its number. -/
def vFunc (f a : Nat) : Nat := if f = 0 then fexp a else if f = 1 then flog a else if f = 2 then frecip a else frsqrt a

/-! ### Formats, R112 to R115 -/

def e4m3 : FpFmt := { p := 4, q := -9, eb := 4 }
def e5m2 : FpFmt := { p := 3, q := -16, eb := 5 }
def e2m1 : FpFmt := { p := 2, q := -1, eb := 2 }

/-- A number's datum scaled by a power of two. -/
def Fp.shift : Fp → Int → Fp
  | .fin n d, k => .fin n (d.shift k)
  | x, _ => x

/-- A datum's bits in FP32, ties to even. -/
def Fp.f32 (x : Fp) : Nat := Machine.f32.ofFp .rne x

/-- The datum of a format whose largest exponent code is an ordinary one. -/
def FpFmt.plain (f : FpFmt) (w : Nat) : Fp :=
  let neg : Bool := decide (w / 2 ^ (f.p - 1 + f.eb) % 2 = 1)
  match ({ f with eb := 10 } : FpFmt).decode (w % 2 ^ (f.p - 1 + f.eb)) with
  | .fin _ d => .fin neg (if neg then d.neg else d)
  | x => x

/-- R112: the datum of an element: FP32 (0), FP16 (1), BF16 (2), E4M3 (3), E5M2 (4), E2M1 (5). E4M3 has no infinity and one NaN, E2M1
neither. -/
def vDecode (k w : Nat) : Fp :=
  if k = 0 then f32.decode w else if k = 1 then f16.decode w else if k = 2 then bf16.decode w
  else if k = 3 then (if w % 128 = 127 then .nan else e4m3.plain w)
  else if k = 4 then e5m2.decode w else e2m1.plain w

/-- The largest finite value of E4M3, E5M2 and E2M1 and its code. -/
def narrowTop (k : Nat) : Dy × Nat :=
  if k = 3 then (Dy.ofInt 448, 0x7E) else if k = 4 then (Dy.ofInt 57344, 0x7B) else (Dy.ofInt 6, 7)

/-- R114: a datum in E4M3, E5M2 or E2M1, and whether it was clamped. What E2M1 makes of a NaN or an infinity, which it has not, the spec does
not state (Config.mxNan). -/
def narrow (k : Nat) (mode : Rnd) : Fp → Nat × Bool
  | .nan => (if k = 3 then 0x7F else if k = 4 then e5m2.nanBits else Config.mxNan 0 % 16, false)
  | .inf n => (if k = 3 then 0x7F else if k = 4 then e5m2.infBits n else Config.mxNan (1 + bit n) % 16, false)
  | .fin n d =>
    let f := if k = 3 then e4m3 else if k = 4 then e5m2 else e2m1
    let sign := if n || decide (d.m < 0) then 2 ^ (f.p - 1 + f.eb) else 0
    let top := narrowTop k
    if d.abs.le top.1 then (sign + ({ f with eb := 10 } : FpFmt).encode mode false d % 2 ^ (f.p + 9), false)
    else (sign + top.2, true)

/-- R134, R114: a datum converted to an element of R112, computed in FP32 and rounded once, and whether it was clamped. -/
def vEncode (k : Nat) (mode : Rnd) (x : Fp) : Nat × Bool :=
  if k = 0 then (f32.ofFp mode x, false) else if k = 1 then (f16.ofFp mode x, false) else if k = 2 then (bf16.ofFp mode x, false)
  else narrow k mode x

/-- The element format of an MX block, by format code (R106): of MXFP8 E4M3, E5M2, MXFP4. -/
def mxElem (fmt : Nat) : Nat := if fmt = 5 then 3 else if fmt = 6 then 4 else 5

/-- R104, R112: bytes of a block of a format code, and of an element of FP32 and BF16. -/
def vBlockBytes (fmt : Nat) : Nat := if fmt ≤ 2 then blockBytes fmt else if fmt = 7 then 17 else 33

/-- R104, R112: how a block's elements lie in its bytes: as those of BA4, BA8 or F16B. -/
def layoutOf (fmt : Nat) : Nat := if fmt ≤ 2 then fmt else if fmt = 7 then 0 else 1

/-- R104, R113: the values of a block's bytes. An MX scale of 0xFF makes every element NaN, and 0x00 is 2^-127. -/
def vBlock (fmt : Nat) (bs : List Nat) : List Fp :=
  let b := Block.read (layoutOf fmt) bs
  if fmt = 2 then (if b.x = 0 then List.replicate 32 (.fin false Dy.zero)
    else b.els.map fun e => (f16.decode e).shift ((b.x : Int) - 127))
  else if fmt ≤ 1 then (b.vals fmt).map (Fp.fin false)
  else if b.x = 0xFF then List.replicate 32 .nan
  else b.els.map fun e => (if fmt = 8 then Fp.fin false { m := signedOf 8 e, e := -6 } else vDecode (mxElem fmt) e).shift ((b.x : Int) - 127)

/-- R106: the values of a payload's bytes: blocks, FP32 words (3) or BF16 (4). -/
def payloadVals (fmt : Nat) (bs : List Nat) : List Fp :=
  if fmt = 3 then (chunks 4 bs.length bs).map fun c => f32.decode (ofBytes c)
  else if fmt = 4 then (chunks 2 bs.length bs).map fun c => bf16.decode (ofBytes c)
  else (chunks (vBlockBytes fmt) bs.length bs).flatMap (vBlock fmt)

/-- R114: the scale of an MX block: from the largest element magnitude and the element format's largest exponent. That of a block whose
elements are all zero the spec does not state (Config.mxZeroScale); 0xFF is never written (R113). -/
def mxScale (fmt : Nat) (vs : List Fp) : Nat :=
  let big := vs.foldl (fun b v => if v.dy.abs.le b then b else v.dy.abs) Dy.zero
  let emax : Int := if fmt = 5 then 8 else if fmt = 6 then 15 else if fmt = 7 then 2 else 0
  if big.isZero then Config.mxZeroScale % 255 else (max 0 (min 254 (big.log2 - emax + 127))).toNat

/-- R114: an MX block of 32 values, and the clamps counted; an MXINT8 element is clamped to -127 to +127, not counted. -/
def mxQuant (fmt : Nat) (vs : List Fp) (ms : List Rnd) : Quant × Nat :=
  let x := mxScale fmt vs
  let one (v : Fp) (m : Rnd) : Nat × Bool :=
    if fmt = 8 then
      (match v with
       | .fin _ d =>
         let i := (d.shift (127 - (x : Int))).roundAt (-6) m
         (fieldOfInt 8 (max (-127) (min 127 i)), decide (127 < i) || decide (i < -127))
       | .inf n => (Config.mxNan (1 + bit n) % 256, false)
       | .nan => (Config.mxNan 0 % 256, false))
    else narrow (mxElem fmt) m (v.shift (127 - (x : Int)))
  let r := (vs.zip ms).map fun v => one v.1 v.2
  ({ blk := { x := x, els := r.map (·.1) }, clamped := r.map (·.2),
     got := (vBlock fmt (Block.bytes (layoutOf fmt) { x := x, els := r.map (·.1) })).map Fp.dy },
   if fmt = 8 then 0 else r.countP (·.2))

/-- R115: a BA4 or BA8 block as MXINT8: the same integers, the scale greater by 6; above 0xF8 the elements are scaled and clamped. -/
def mxOfBa (b : Block) (fmt : Nat) : Block :=
  let is := b.ints fmt
  if b.x ≤ 0xF8 then { x := b.x + 6, els := is.map (fieldOfInt 8) }
  else { x := 0xFE, els := is.map fun i => fieldOfInt 8 (max (-127) (min 127 (i * 2 ^ (b.x - 0xF8)))) }

/-- R115: an MXINT8 block as BA8: the scale less by 6; where that is no BA8 scale, by R107 from its values, ties to even. -/
def baOfMx (b : Block) : Block :=
  if 7 ≤ b.x then { x := b.x - 6, els := b.els }
  else (quantBA 8 0xFE (b.els.map fun e => { m := signedOf 8 e, e := (b.x : Int) - 133 }) (List.replicate 32 .rne)).blk

/-! ### The pair tree, R207 -/

/-- Neighbours combined in pairs. -/
def pairUp {α : Type} (f : α → α → α) : List α → List α
  | a :: b :: l => f a b :: pairUp f l
  | l => l

/-- R207: 64 lanes combined in a tree of six levels. -/
def laneTree {α : Type} (f : α → α → α) (l : List α) : List α := (List.range 6).foldl (fun x _ => pairUp f x) l

/-- R191, R207: the larger of two values, NaN where either is. -/
def fmax (a b : Nat) : Nat := if fnan a || fnan b then f32.nanBits else if flt a b then b else a

/-- R206: the smaller of two values, NaN where either is. -/
def fmin (a b : Nat) : Nat := if fnan a || fnan b then f32.nanBits else if flt b a then b else a

/-- R207: of two lanes, the first NaN, else the larger, the lower lane among equals. -/
def argPick (a b : Nat × Nat) : Nat × Nat :=
  if fnan a.1 then a else if fnan b.1 then b else if flt a.1 b.1 then b else a

/-- R207: the sum (0), the maximum (1) or the index of the maximum (2) of 64 lanes. -/
def reduceLanes (f : Nat) (l : List Nat) : Nat :=
  if f = 0 then (laneTree fadd l).headD 0
  else if f = 1 then (laneTree fmax l).headD 0
  else ((laneTree argPick l.zipIdx).headD (0, 0)).2

/-- R206: an operation on 32-bit lanes: compare less (0) and equal (1), min (2), max (3) in FP32, select (4), integer add (5), subtract (6),
multiply (7), and (8), or (9), exclusive or (10), shifts left (11), right (12) and right with the sign (13). -/
def laneOp (op a b c : Nat) : Nat :=
  (if op = 0 then bit (flt a b) else if op = 1 then bit (!fnan a && !fnan b && !flt a b && !flt b a) else if op = 2 then fmin a b
   else if op = 3 then fmax a b else if op = 4 then (if c ≠ 0 then a else b) else if op = 5 then a + b
   else if op = 6 then a + (2 ^ 32 - b % 2 ^ 32) else if op = 7 then a * b else if op = 8 then a &&& b else if op = 9 then a ||| b
   else if op = 10 then a ^^^ b else if op = 11 then a * 2 ^ (b % 32) else if op = 12 then a / 2 ^ (b % 32)
   else fieldOfInt 32 (signedOf 32 a / 2 ^ (b % 32))) % 2 ^ 32

/-- R134: an add (0), multiply (1) or fused multiply-add of lanes in FP32 (0), FP16 (1) or BF16 (2): exact, rounded once to FP32, and for
the narrower formats once more to them. -/
def arithOp (op fmt : Nat) (rz : Bool) (a b c : Nat) : Nat :=
  let x := vDecode fmt a
  let y := vDecode fmt b
  let r := if op = 0 then x.addX y else if op = 1 then x.mulX y else (x.mulX y).addX (vDecode fmt c)
  let m : Rnd := if rz then .rz else .rne
  if fmt = 0 then f32.ofFp m r else (vEncode fmt m (f32.decode r.f32)).1

/-! ### The matrix tile, R134 -/

/-- The power of two that scales a tile operand's elements; none for an MX block whose scale is NaN. -/
def tileScale (fmt : Nat) (bs : List Nat) : Option Int :=
  if 9 ≤ fmt then some 0 else if bs.headD 0 = 0xFF then none else some ((bs.headD 0 : Int) - 127)

/-- A tile operand's elements, unscaled. -/
def tileEls (fmt : Nat) (bs : List Nat) : List Fp :=
  if 9 ≤ fmt then (bs.take 32).map (vDecode (fmt - 6))
  else (Block.read (layoutOf fmt) bs).els.map fun e =>
    if fmt = 8 then Fp.fin false { m := signedOf 8 e, e := -6 } else vDecode (mxElem fmt) e

/-- Bytes of a tile operand: an MX block, or 32 E4M3 (9) or E5M2 (10) elements. -/
def tileBytes (fmt : Nat) : Nat := if 9 ≤ fmt then 32 else vBlockBytes fmt

/-- R134: the products of two operands added to an accumulator in FP32 with ties to even, in ascending index order, the block scales applied
to each (DEDUCED, log 40); of MXINT8 blocks the exact integer sum of the 32 products. -/
def tileDot (fmt acc : Nat) (a b : List Nat) : Nat :=
  match tileScale fmt a, tileScale fmt b with
  | some x, some y =>
    let ps := ((tileEls fmt a).zip (tileEls fmt b)).map fun p => p.1.mulX p.2
    if fmt = 8 then fadd acc ((ps.foldl Fp.addX (.fin false Dy.zero)).shift (x + y)).f32
    else ps.foldl (fun c p => fadd c (p.shift (x + y)).f32) acc
  | _, _ => f32.nanBits

/-! ### Attention, R215 -/

/-- R215: the running maximum, the running sum and the partial output. -/
structure AttnSt where
  m : Nat := 0xFF800000
  sum : Nat := 0
  o : List Nat
deriving DecidableEq, Repr

/-- R215: one page: its unmasked positions in ascending order, each with its scaled score and its value vector. A masked position
contributes nothing. -/
def attnPage (st : AttnSt) (ps : List (Nat × List Nat)) : AttnSt :=
  if ps.isEmpty then st
  else
    let m := ps.foldl (fun a p => fmax a p.1) st.m
    let r := fexp (fsub st.m m)
    let st1 : AttnSt := { m := m, sum := fmul st.sum r, o := st.o.map fun x => fmul x r }
    ps.foldl (fun t p =>
      let e := fexp (fsub p.1 m)
      { t with sum := fadd t.sum e, o := (t.o.zip p.2).map fun x => ffma e x.2 x.1 }) st1

/-! ### Sampling, R216 -/

/-- The lowest index of the largest of FP32 values. -/
def argmaxF (l : List Nat) : Option (Nat × Nat) :=
  (l.zipIdx).foldl (fun (b : Option (Nat × Nat)) x => match b with
    | none => some x
    | some y => if flt y.1 x.1 then some x else some y) none

/-- An entry placed among others in descending value, lower indices first among equals. -/
def insDesc (x : Nat × Nat) : List (Nat × Nat) → List (Nat × Nat)
  | [] => [x]
  | y :: l => if flt y.1 x.1 ∨ (!flt x.1 y.1 ∧ x.2 < y.2) then x :: y :: l else y :: insDesc x l

/-- R216 step 4: the shortest prefix whose running sum reaches `p`, or all. -/
def prefixTo (p : Nat) : Nat → List (Nat × Nat) → List (Nat × Nat)
  | _, [] => []
  | acc, x :: l => let a := fadd acc x.1; if flt a p then x :: prefixTo p a l else [x]

/-- R216 step 6: the first entry at which the running sum is at least the target, else the last. -/
def pickAt (target : Nat) : Nat → List (Nat × Nat) → Option Nat
  | _, [] => none
  | acc, x :: l => let a := fadd acc x.1; if flt a target ∧ !l.isEmpty then pickAt target a l else some x.2

/-- R216: the token chosen from a logits vector, or none where the vector has no valid choice. -/
def sampleToken (logits : List Nat) (greedy : Bool) (temp topP topK seed pos : Nat) : Option Nat :=
  let bad (a : Nat) : Bool := fnan a || a = f32.infBits false
  if logits.any bad || logits.all (· = f32.infBits true) then none
  else if greedy then (argmaxF logits).map (·.2)
  else
    let qs := logits.map fun a => fdiv a temp
    if qs.any bad then none
    else
      let m := ((argmaxF qs).map (·.1)).getD 0
      let es := qs.map fun q => if f32.decode q = .inf true then 0 else fexp (fsub q m)
      let sum := es.foldl fadd 0
      let ps := (es.map fun e => fdiv e sum).zipIdx
      let order := ps.foldr insDesc []
      let kept3 := if topK = 0 then order else order.take topK
      let kept4 := if topP = 0x3F800000 then kept3 else prefixTo topP 0 kept3
      let kept := ps.filter fun x => kept4.any fun y => y.2 = x.2
      let total := (kept.map (·.1)).foldl fadd 0
      let ds := draws (siteSeed (leBytes 8 seed ++ [6] ++ leBytes 4 pos)) 2
      let u : Dy := { m := ds.getD 0 0 * 65536 + ds.getD 1 0, e := -32 }
      let target := f32.encode .rne false (u.mul (f32.decode total).dy)
      pickAt target 0 kept

end Sys2Proof.Machine
end

