-- ==== Sys2Proof/Machine/MCore.lean ====
section
/-! DEFINITION. The matrix cores: step descriptors (R172 to R174), the firing rule (R175 to R179), tiles, holds and the slower tier
(R180 to R185), the post-unit (R188 to R194) and output pips (R195), pips received (R243) and sent (R177). -/

namespace Sys2Proof.Machine

/-! ### Descriptors, R172 -/

def dMask (w : List Nat) : Nat := wf_ w 0 0 16
def dGang (w : List Nat) : Nat := 2 ^ wf_ w 0 16 3
def dFirst (w : List Nat) : Nat := 8 * wf_ w 0 20 6
def dRows (w : List Nat) : Nat := 8 * wf_ w 0 26 7
def dQuarters (w : List Nat) : Nat := wf_ w 0 38 4
def dWfmt (w : List Nat) : Nat := wf_ w 0 53 2
def dInPips (w : List Nat) : Nat := wf_ w 1 16 8
def dOutStream (w : List Nat) : Nat := wf_ w 2 0 16
def dOutFmt (w : List Nat) : Nat := wf_ w 2 16 4
def dOutBlocks (w : List Nat) : Nat := wf_ w 2 20 3 + 1
def dPoolW (w : List Nat) : Nat := wf_ w 2 36 3 + 1
def dPoolT (w : List Nat) : Nat := wf_ w 2 39 3 + 1
def dDest (w : List Nat) (i : Nat) : Nat := wf_ w 3 (16 * i) 16
def dDests (w : List Nat) : List Nat := ((List.range 4).map (dDest w)).filter (· ≠ 0xFFFF)
def dEngines (w : List Nat) : List Nat := (List.range 16).filter fun e => (dMask w).testBit e

/-- R173: each gang wholly enabled or wholly disabled. -/
def gangsWhole (w : List Nat) : Bool :=
  (List.range 16).all fun e => (dMask w).testBit e = (dMask w).testBit (e / dGang w * dGang w)

/-- R172, R173: a field holds a reserved value, or the gangs or rows break R173. -/
def malformed (w : List Nat) : Bool :=
  dMask w = 0 || decide (4 < wf_ w 0 16 3) || wf_ w 0 26 7 = 0 || decide (64 < wf_ w 0 20 6 + wf_ w 0 26 7)
    || decide (16 < wf_ w 0 33 5) || dQuarters w = 0 || wf_ w 0 45 2 = 3
    || (wf_ w 0 45 2 = 2 && !(4 ≤ wf_ w 0 47 4 && wf_ w 0 47 4 ≤ 9)) || wf_ w 0 51 2 = 3 || dWfmt w = 3 || wf_ w 0 56 4 = 0
    || dInPips w = 0 || decide (1 < wf_ w 1 24 4) || decide (1 < dOutFmt w) || wf_ w 2 23 2 = 3 || wf_ w 2 25 8 = 0
    || wf_ w 2 25 8 = 0xFF || decide (5 < wf_ w 2 33 3) || decide (dPoolW w < dPoolT w) || wf_ w 2 42 2 = 3
    || dDest w 0 = 0xFFFF || !gangsWhole w

/-- Enabled quarters. -/
def quarterCount (w : List Nat) : Nat := (List.range 4).countP fun q => (dQuarters w).testBit q

/-- R195: output blocks of a step; R174's count for a malformed descriptor. -/
def outBlocksOf (w : List Nat) : Nat :=
  if dMask w = 0 ∨ 4 < wf_ w 0 16 3 ∨ dQuarters w = 0 ∨ dWfmt w = 3 ∨ !gangsWhole w then 1
  else (dEngines w).length / dGang w * quarterCount w * (if dWfmt w = 0 then 1 else 2)

/-- R195: pips of an emission. -/
def outPips (w : List Nat) : Nat := (outBlocksOf w + dOutBlocks w - 1) / dOutBlocks w

/-- Blocks of pip `k` of an emission. -/
def blocksOfPip (w : List Nat) (k : Nat) : Nat := min (dOutBlocks w) (outBlocksOf w - k * dOutBlocks w)

/-- R174, R195: the format a step's pips begin in. -/
def outFmtOf (w : List Nat) : Nat := if dOutFmt w ≤ 1 then dOutFmt w else 0

/-- R176: credits one emission needs on each destination. -/
def stepCredits (w : List Nat) : Nat :=
  (List.range (outPips w)).foldl (fun a k => a + pipCredits (blocksOfPip w k * blockBytes (outFmtOf w))) 0

/-- R188: output channels of a step. -/
def stepChannels (w : List Nat) : Nat := outBlocksOf w * 32

/-! ### Input sets -/

/-- R175: the set index of a pip under a descriptor; with IN_PIPS 0, each pip is a set (R174). -/
def setIndex (inPips seq : Nat) : Nat := if inPips = 0 then seq else seq / inPips

/-- The pips of a set in sequence order. -/
def setPips (inPips n : Nat) (ps : List StoredPip) : List StoredPip :=
  if inPips = 0 then ps.filter (fun p => p.pip.seq = n) |>.take 1
  else (List.range inPips).filterMap fun i => ps.find? fun p => p.pip.seq = n * inPips + i

/-- R176 conditions 1 and 5: the complete sets of a buffer, each with the arrival of its last pip. -/
def completeSets (inPips : Nat) (ps : List StoredPip) : List (Nat × Nat) :=
  let ns := (ps.map fun p => setIndex inPips p.pip.seq).eraseDups
  ns.filterMap fun n =>
    let l := setPips inPips n ps
    if l.length = max 1 inPips then some (l.foldl (fun a p => max a p.at_) 0, n) else none

/-- The oldest complete set of a buffer: of the complete ones, that whose last pip arrived first, the lower set index among equals. R176
condition 5 does not say what makes a set earlier: an incomplete set keeps no complete one waiting (DESIGN CHOICE, log 38). -/
def oldestSet (l : List (Nat × Nat)) : Option (Nat × Nat) :=
  l.foldl (fun (b : Option (Nat × Nat)) x => match b with
    | none => some x
    | some y => if x.1 < y.1 ∨ (x.1 = y.1 ∧ x.2 < y.2) then some x else b) none

/-! ### Streams and pooling -/

/-- R170: the stream entry of a stream: its seed, DET and SLOT. -/
def State.streamEntry (s : State) (ck stream : Nat) : Option (Nat × Bool × Nat) :=
  let base := s.rf R.MCORE1_STREAM_BASE ck * 16
  ((List.range (s.rf R.MCORE1_STREAM_COUNT ck)).find? fun i =>
    let w := s.sramRead ck (base + 16 * i + 8) 8
    bitsOf w 0 16 = stream && w.testBit 16).map fun i =>
      let w := s.sramRead ck (base + 16 * i + 8) 8
      (s.sramRead ck (base + 16 * i) 8, w.testBit 17, bitsOf w 18 14)

/-- The key of a stream's pooling state: core, POOL_BUF, SLOT. -/
def poolKey (ck : Nat) (w : List Nat) (slot : Nat) : Nat := (ck * 32768 + wf_ w 4 30 15) * 16384 + slot

/-- R191: one window's values joined by a set's. -/
def poolJoin (op : Nat) (a b : List Nat) : List Nat := (a.zip b).map fun v => if op = 0 then fmax v.1 v.2 else fadd v.1 v.2

/-- R191, R192: a closed window's values. -/
def poolClose (op : Nat) (epoch : Nat) (x : PoolWin) : Emission :=
  { idx := x.m, epoch := epoch, hollow := x.hollow,
    vals := if op = 1 then x.vals.map fun v => fdiv v (f32.encode .rne false (Dy.ofInt x.count)) else x.vals }

/-- R191, R192: one set enters a stream's pooling state; what is emitted, in order, and the state after. -/
def poolStep (wd t op : Nat) (st : PoolSt) (vals : List Nat) (hollow : Bool) (epoch : Nat) (last : Bool) :
    List Emission × PoolSt :=
  let stale := !st.wins.isEmpty && st.epoch ≠ epoch
  let early := if stale then st.wins.map (poolClose op st.epoch) else []
  let st := if stale then {} else st
  let i := st.next
  let old := st.wins.map fun x => { x with count := x.count + 1, vals := poolJoin op x.vals vals, hollow := x.hollow || hollow }
  let wins := if i % t = 0 then old ++ [{ m := i / t, count := 1, vals := vals, hollow := hollow }] else old
  let full := wins.filter fun x => last || x.m * t + wd - 1 = i
  let rest := wins.filter fun x => !(last || x.m * t + wd - 1 = i)
  (early ++ full.map (poolClose op epoch), if last then {} else { next := i + 1, epoch := epoch, wins := rest })

/-- R176 condition 3: emissions that a set will bring. -/
def State.emissionCount (s : State) (ck : Nat) (w : List Nat) (slot epoch : Nat) (last : Bool) : Nat :=
  if dPoolW w = 1 then 1
  else (poolStep (dPoolW w) (dPoolT w) 0 (Tbl.getD s.pools (poolKey ck w slot) {}) [] false epoch last).1.length

/-! ### State of a core -/

def State.mcSt (s : State) (ck : Nat) : McSt := Tbl.getD s.mc ck {}

/-- A step's engine still occupied. -/
def StepEng.busy (x : StepEng) : Bool := x.state ≤ 2

/-- R197, R199, R200: the status fields that mirror a core's steps, its oldest hold and its post-units' output buffers. -/
def State.mirrorMc (s : State) (ck : Nat) : State :=
  let m := s.mcSt ck
  let running := m.steps.countP fun x => !x.done
  let holds := m.steps.flatMap fun x => (x.engs.filter fun e => e.state = 1).map (·.stamp)
  let s1 := (((s.wf R.MCORE_RUNNING ck (min 16 running)).wf R.MCORE_IDLE ck (bit m.steps.isEmpty)).wf R.MCORE_HOLDING ck
    (bit !holds.isEmpty)).wf R.MCORE1_HOLD_STAMP ck (holds.min?.getD 0)
  s1.each (List.range 16) fun t n =>
    let held (b : Nat) : Bool := m.steps.any fun x => x.engs.any fun e => e.eng = n && e.buf = b
    (t.wf R.POST_BUF0_BUSY (engInst ck n) (bit (held 0))).wf R.POST_BUF1_BUSY (engInst ck n) (bit (held 1))

def State.setMc (s : State) (ck : Nat) (m : McSt) : State := ({ s with mc := Tbl.put s.mc ck m }).mirrorMc ck

def State.setStep (s : State) (ck id : Nat) (f : Step → Step) : State :=
  let m := s.mcSt ck
  s.setMc ck { m with steps := m.steps.map fun x => if x.id = id then f x else x }

def State.stepOf (s : State) (ck id : Nat) : Option Step := (s.mcSt ck).steps.find? fun x => x.id = id

/-- A step whose pips have left is over; reserved credits not used go back to the channel's holding. -/
def State.retireStep (s : State) (ck id : Nat) : State :=
  match s.stepOf ck id with
  | none => s
  | some x =>
    if x.done && x.emis.isEmpty && x.outq.isEmpty then
      let s1 := s.unreserve ck x.out x.reserved
      s1.setMc ck { s1.mcSt ck with steps := (s1.mcSt ck).steps.filter fun y => y.id ≠ id }
    else s

/-! ### The input vector -/

/-- A pip the reader must take as hollow: marked, of a reserved format, or holding a poisoned block (R105, R106, R111). -/
def pipPoison (p : Pip) : Bool :=
  decide (0xA ≤ p.fmt) || (decide (p.fmt ≤ 2) && (readBlocks p.fmt (p.payload.length / blockBytes p.fmt) p.payload).any fun b => b.poison p.fmt)

/-- R111, R180: the elements of a set with their blocks' scales (0 for a zero block), F16B read as BA8; whether an F16B element
was clamped. -/
def inputVector (ps : List Pip) : List (Int × Nat) × Bool :=
  ps.foldl (fun r p =>
    let bs := readBlocks p.fmt (p.payload.length / blockBytes p.fmt) p.payload
    bs.foldl (fun r b =>
      let (b1, cl) := if p.fmt = 2 then f16ToBa8 b else (b, false)
      (r.1 ++ (b1.ints (if p.fmt = 0 then 0 else 1)).map (fun v => (v, b1.x)), r.2 || cl)) r)
    ([], false)

/-- R111: of each element of a set, whether its pip is wider than BA4. -/
def wideElements (ps : List Pip) : List Bool :=
  ps.flatMap fun p => List.replicate (p.payload.length / blockBytes p.fmt * 32) (decide (1 ≤ p.fmt))

/-- R111, R180: every pip has a format an M-core takes, whole blocks of it. -/
def fmtOk (ps : List Pip) : Bool := ps.all fun p => p.fmt ≤ 2 && p.payload.length % blockBytes p.fmt = 0

/-- R183: the reference scale of a vector. -/
def xrefOf (v : List (Int × Nat)) : Nat := let m := v.foldl (fun a e => max a e.2) 0; if m = 0 then 0x7F else m

/-- R111: the bit-planes, the sign plane and whether the tile runs wider than its descriptor: of BA4 data and of wider data. -/
def tileWidth (w : List Nat) (els : List (Int × Nat)) (wide : Bool) : Nat × Bool × Bool :=
  let wd := 2 ^ wf_ w 0 42 2
  let sg := wf_ w 0 44 1 = 1
  let neg := els.any fun e => decide (e.1 < 0)
  if wide then (8, sg || neg, decide (wd < 8) || (!sg && neg))
  else
    let lo : Int := if sg then -((2 : Int) ^ (wd - 1)) else 0
    let hi : Int := if sg then (2 : Int) ^ (wd - 1) - 1 else (2 : Int) ^ wd - 1
    if els.all fun e => decide (lo ≤ e.1) && decide (e.1 ≤ hi) then (wd, sg, false)
    else (4, sg || neg, true)

/-- R110: consecutive rows cut where the scale of non-zero blocks changes. -/
def cutScales (els : List (Nat × Int × Nat)) : List (List (Nat × Int × Nat)) :=
  let r := els.foldl (fun (acc : List (List (Nat × Int × Nat)) × List (Nat × Int × Nat) × Nat) e =>
    let (out, cur, x) := acc
    if e.2.2 ≠ 0 ∧ x ≠ 0 ∧ e.2.2 ≠ x then (out ++ [cur], [e], e.2.2)
    else (out, cur ++ [e], if x = 0 then e.2.2 else x)) ([], [], 0)
  r.1 ++ [r.2.1]

/-- R73: the groups of a tile that are split. -/
def splitGroups (cs : List Conv) : Nat := (((cs.filter (·.split)).map (·.group)).eraseDups).length

/-- R72 to R76, R103, R110: the conversions of a tile in order, how many conversions SHIFT rounds and SPLIT adds, and the groups
split under R73. -/
def tileConvs (els : List (Int × Nat)) (first groupRows quarters planes : Nat) (signed splitAlign : Bool) (xref : Nat) :
    List Conv × Nat × Nat × Nat :=
  let rows := els.zipIdx.map fun e => (e.2, e.1.1, e.1.2)
  let groups := chunks groupRows els.length rows
  (groups.zipIdx).foldl (fun acc g =>
    let big := decide (64 < g.1.length)
    let cut := (groupRows + 15) / 16 * 8
    let parts := if big then [g.1.take cut, g.1.drop cut] else [g.1]
    let segs := parts.map fun p =>
      let m := p.foldl (fun a e => max a e.2.2) 0
      let mixed := p.any fun e => e.2.2 ≠ 0 && e.2.2 ≠ m
      if !mixed then ([(p, if m = 0 then xref else m)], false)
      else if splitAlign then ((cutScales p).map fun q => (q, q.foldl (fun a e => max a e.2.2) 0), false)
      else ([(p.map fun e => (e.1, if e.2.2 = 0 then e.2.1 else
        ({ m := e.2.1, e := (e.2.2 : Int) - m } : Dy).roundAt 0 .rne, m), m)], true)
    let shifted := segs.countP (·.2)
    let all := segs.flatMap (·.1)
    let convs := (List.range planes).flatMap fun p => all.flatMap fun sg =>
      let ones := (sg.1.filter fun e => (fieldOfInt planes e.2.1).testBit p).map fun e => first + e.1
      ((List.range 4).filter fun q => quarters.testBit q).map fun q =>
        { group := g.2, plane := p, quarter := q, ones := ones, scale := sg.2, bits := losslessBits sg.1.length,
          sign := signed && p + 1 = planes, rows := sg.1.length, split := big : Conv }
    (acc.1 ++ convs, acc.2.1 + shifted * planes, acc.2.2.1 + (all.length - parts.length) * planes, acc.2.2.2 + bit big))
    ([], 0, 0, 0)

/-! ### Tiles -/

/-- R161: the engine cannot serve the epoch now: DRIFT_HARD on its bank, or a spare's banks still being programmed. -/
def State.unavailable (s : State) (e ep : Nat) : Bool :=
  let p := s.progSt e
  let spare (o : Option ProgOp) : Bool := match o with
    | some x => x.epochs.contains (ep % 4)
    | none => false
  spare p.queued || spare p.running || spare p.owed || spare p.owed2 || (match s.epochBank e ep with
    | some b => s.rb (driftHardF b) e
    | none => false)

/-- R441: the fraction code in force: REEXEC_FRACTION, or the carrier's WATCH_FRACTION where that is larger. -/
def State.reexecCode (s : State) (ck : Nat) : Nat :=
  let pc := s.physOf ck
  max (s.rf R.MCORE1_REEXEC_FRACTION ck) (if s.rf R.PCORE_LEVEL pc = 0 then 0 else s.rf R.PCORE_WATCH_FRACTION pc)

/-- R441: the tile of an engine is selected for a check. -/
def State.selected (s : State) (ck n : Nat) (x : Step) : Bool :=
  let t := [0, 1, 4, 16].getD (s.reexecCode ck) 0
  let p := x.pips.head?
  let seq := (x.pips.filter fun q => x.pips.all fun r => decide (q.seq ≤ r.seq)).head?
  crc32c (leBytes 2 ck ++ leBytes 1 n ++ leBytes 2 ((p.map (·.stream)).getD 0) ++ leBytes 2 ((seq.map (·.seq)).getD 0)
    ++ leBytes 1 ((p.map (·.epoch)).getD 0) ++ leBytes 2 (s.rf R.MCORE1_REEXEC_SALT ck)) % 64 < t

/-- R442: the first path available checks a selected tile that has just started on engine `n`; without one it is skipped. -/
def State.beginCheck (s : State) (ck n ep : Nat) (x : Step) : State :=
  if !s.selected ck n x then s
  else
    let e := engInst ck n
    let m := bitsOf (s.rf R.MCORE1_TWIN_MAP ck) (4 * n) 4
    let te := engInst ck m
    let b := s.epochBank te ep
    let same : Bool := match b, s.epochBank e ep with
      | some b, some a => decide (s.rf (jcrcF b) te = s.rf (jcrcF a) e)
      | _, _ => false
    let twin := s.rb R.MCORE1_REEXEC_PATH ck && decide (m ≠ n) && !(dEngines x.words).contains m && (s.engSt te).tile.isNone
      && same
    let add (t : State) (c : Check) : State := t.setStep ck x.id fun y => { y with checks := y.checks ++ [c] }
    let v := s.rf R.MCORE1_SLOW_VCORE ck
    match twin, (s.engSt e).tile with
    | true, some t =>
      let y : Tile := { t with bank := b.getD 0, todo := t.all, clipped := false, repeated := false, cycles := 0 }
      let k := splitGroups t.all
      let s1 := (s.inc R.ENG_SPLITS te k).when (decide (k ≠ 0)) fun u => u.setInt (engPage te) R.INT_ENG_SPLIT
      (add s1 { eng := n, path := 1, twin := m }).beginTile te y
    | _, _ =>
      if v ≠ 0xFFFF then (add s { eng := n, path := 0 }).mesh 7 v [ck, x.id, n, x.xref]
      else s.inc R.MCORE1_REEXEC_SKIPPED ck

/-- R68: a failed tile of a core. -/
def State.tileFailed (s : State) (ck : Nat) : State :=
  (s.inc R.MCORE_FAILED_TILES ck).setInt (mcorePage ck) R.INT_MCORE_TILE_FAILED

/-- The segment of the input vector that an engine drives, R180. -/
def engSegment {α : Type} (w : List Nat) (n : Nat) (v : List α) : List α := (v.drop (n % dGang w * dRows w)).take (dRows w)

/-- R67, R68, R111, R184: the tile of an available engine starts, or fails on an unbound epoch. The answer says it runs. SHIFTED and
SPLIT_EXTRA count every conversion of the tile once, as it starts: conversions that ZERO_SKIP then skips count, and a repeat does not
count again; R110 says neither (DESIGN CHOICE, log 38). -/
def State.startTile (s : State) (ck : Nat) (x : Step) (n ep : Nat) : Bool × State :=
  let e := engInst ck n
  match s.epochBank e ep with
  | none =>
    let s1 := s.blockErr (engPage e) 0x11 0 ep (2 ^ R.INT_ENG_EPOCH_UNBOUND)
    (false, s1.tileFailed ck)
  | some b =>
    let w := x.words
    let seg := engSegment w n (inputVector x.pips).1
    let (planes, sg, wider) := tileWidth w seg ((engSegment w n (wideElements x.pips)).any id)
    let g := if wf_ w 0 33 5 = 0 then 8 * s.rf R.ENG_GROUP_ROWS e else 8 * wf_ w 0 33 5
    let (cs, sh, sp, splits) := tileConvs seg (dFirst w) g (dQuarters w) planes sg (wf_ w 0 55 1 = 1) x.xref
    let comp := if wf_ w 0 45 2 = 0 then (if s.rb R.ENG_MODE e then some (s.rf R.ENG_RES_BITS e) else none)
      else if wf_ w 0 45 2 = 2 then some (wf_ w 0 47 4) else none
    let esc := if wf_ w 0 51 2 = 0 then s.rb R.ENG_CLIP_ACTION e else wf_ w 0 51 2 = 2
    let t : Tile := { step := x.id, epoch := ep, bank := b, all := cs, todo := cs, comp := comp, escalate := esc, wfmt := dWfmt w,
                      quarters := dQuarters w, xref := x.xref }
    let s1 := ((s.inc R.MCORE_SHIFTED ck sh).inc R.MCORE_SPLIT_EXTRA ck sp).when (decide (0 < splits)) fun u =>
      (u.inc R.ENG_SPLITS e splits).setInt (engPage e) R.INT_ENG_SPLIT
    let s2 := s1.when wider fun u => (u.inc R.MCORE_ACT_WIDENED ck).setInt (mcorePage ck) R.INT_MCORE_ACT_WIDENED
    (true, s2.beginTile e t)

/-- The set-wide facts of a step: its epoch, LAST and DRAIN (R184). -/
def Step.epoch (x : Step) : Nat := (x.pips.head?.map (·.epoch)).getD 0
def Step.last (x : Step) : Bool := x.pips.any (·.last)
def Step.drain (x : Step) : Bool := x.pips.any (·.drain)

/-! ### The post-unit -/

/-- R189 step 3, R190: the activation function of an output. -/
def State.activate (s : State) (e act x : Nat) : Nat :=
  if act = 0 then x
  else if act = 1 then (if fnan x then f32.nanBits else if flt 0 x then x else 0)
  else
    let t := act - 2
    let d := fsub x (s.rf R.POST1_XLO e t)
    let p := fmul d (s.rf R.POST1_SEG_SCALE e t)
    if fnan x then f32.nanBits
    else
      let k := match f32.decode p with
        | .nan => 0
        | .inf neg => if neg then 0 else 63
        | .fin _ y => (max 0 (min 63 y.floor)).toNat
      ffma (s.rf R.POST1_SLOPE e (t * 64 + k)) x (s.rf R.POST1_INTERCEPT e (t * 64 + k))

/-- R188, R189: a step's output values, gang by gang: the tree of combined values, scale, bias, activation on the lead. -/
def State.outputs (s : State) (ck : Nat) (x : Step) : List Nat :=
  let w := x.words
  let gs := dGang w
  let leads := (dEngines w).filter fun e => e % gs = 0
  (leads.zipIdx).flatMap fun l =>
    let mine := x.engs.filter fun e => e.eng / gs * gs = l.1
    let n := quarterCount w * (if dWfmt w = 0 then 32 else 64)
    let sums := (List.range n).map fun j => mine.foldl (fun a e => a + e.vals.getD j 0) (0 : Int)
    (sums.zipIdx).map fun v =>
      let j := l.2 * n + v.2
      let base := wf_ w 4 0 15 * 16 + j * 8
      let acc := f32.encode .rne false { m := v.1, e := (x.xref : Int) - 131 }
      let bias := if wf_ w 2 44 1 = 1 then s.sramRead ck (base + 4) 4 else 0
      s.activate (engInst ck l.1) (wf_ w 2 33 3) (ffma (s.sramRead ck base 4) acc bias)

/-- R193: a value outside the step's range, or not finite. -/
def violates (w : List Nat) (v : Nat) : Bool :=
  !ffinite v || (wf_ w 2 45 1 = 1 && (flt v (wf_ w 5 0 32) || flt (wf_ w 5 32 32) v))

/-- R299, R471: the open requests whose active slot a stream encodes. -/
def State.reqsOnStreams (s : State) (streams : List Nat) : List Req :=
  s.reqs.filter fun r => match r.slot with
    | none => false
    | some sl => (s.var r.variant).place.edges.any fun e => streams.contains ((e.2 + sl) % 65536)

/-- R193, R439: a range violation of a step recorded, `seq` the first pip concerned, and reported to Oasis: the requests whose data the
step carries are noted. -/
def State.rangeViolation (s : State) (ck : Nat) (x : Step) (seq : Nat) (nf : Bool) : State :=
  let s1 := (((((s.inc R.MCORE_RANGE_VIOL ck).setInt (mcorePage ck) R.INT_MCORE_RANGE).wf R.MCORE_LAST_RANGE_STAMP ck s.now).wf
    R.MCORE_RANGE_STREAM ck (dOutStream x.words)).wf R.MCORE_RANGE_SEQ ck seq).wf R.MCORE_RANGE_DESC ck x.desc
  let s2 := ((s1.wf R.MCORE_RANGE_NONFINITE ck (bit nf)).setStep ck x.id fun y => { y with viol := true }).notice
    (wf_ x.words 1 0 16) 4
  s2.each (s2.reqsOnStreams [wf_ x.words 1 0 16]) fun t r => t.setReq r.id fun q => { q with notes := q.notes ||| 64 }

/-- R193: the records of a step with a violation, from its emissions. -/
def State.rangeCheck (s : State) (ck : Nat) (x : Step) (ems : List Emission) : State :=
  let w := x.words
  let per := dOutBlocks w * 32
  let first := ems.foldl (fun (b : Option (Nat × Bool)) em => match b with
    | some y => some y
    | none =>
      if em.hollow then none
      else match em.vals.findIdx? (violates w) with
        | none => none
        | some i => some ((em.idx * outPips w + i / per) % 65536, !ffinite (em.vals.getD i 0))) none
  match first with
  | none => s
  | some (seq, nf) => s.rangeViolation ck x seq nf

/-! ### Pooling buffers in SRAM -/

/-- R191: the SRAM offset of window `m`: POOL_BUF + SLOT x (W x channels x 4) and the window's place, which is `m` mod W (DESIGN CHOICE,
log 39). -/
def poolAddr (w : List Nat) (slot m : Nat) : Nat :=
  wf_ w 4 30 15 * 16 + (slot * dPoolW w + m % dPoolW w) * (stepChannels w * 4)

/-- R191: the open windows with their values read from SRAM; one that a hollow codeword touches is hollow. -/
def State.poolLoad (s : State) (ck : Nat) (w : List Nat) (slot : Nat) (st : PoolSt) : PoolSt :=
  { st with wins := st.wins.map fun x =>
      let r := s.unitsGet ck ((List.range (stepChannels w / 4)).map (poolAddr w slot x.m / 16 + ·))
      { x with vals := (List.range (stepChannels w)).map fun j => ofBytes ((r.1.drop (4 * j)).take 4), hollow := x.hollow || r.2 } }

/-- R191: the open windows' values written back to SRAM. -/
def State.poolSave (s : State) (ck : Nat) (w : List Nat) (slot : Nat) (st : PoolSt) : State :=
  let s1 := s.each st.wins fun t x =>
    t.unitsPut ck ((List.range (stepChannels w / 4)).map (poolAddr w slot x.m / 16 + ·)) (x.vals.flatMap (leBytes 4))
  { s1 with pools := Tbl.put s1.pools (poolKey ck w slot) { st with wins := st.wins.map fun x => { x with vals := [] } } }

/-- R179: the set of a step freed, once. -/
def State.freeStep (s : State) (ck id : Nat) : State :=
  match s.stepOf ck id with
  | none => s
  | some x => if x.freed then s else (s.freeSet ck x.desc x.pips).setStep ck id fun y => { y with freed := true }

/-- R182, R191, R192: a step's outputs are settled: pooled or emitted, checked for range, and its set freed (R179). -/
def State.settle (s : State) (ck id : Nat) (vals : List Nat) (hollow : Bool) (pool : Bool := true) : State :=
  match s.stepOf ck id with
  | none => s
  | some x =>
    let w := x.words
    let (ems, s1) :=
      if pool && dPoolW w ≠ 1 then
        let old := s.poolLoad ck w x.slot (Tbl.getD s.pools (poolKey ck w x.slot) {})
        let (es, st) := poolStep (dPoolW w) (dPoolT w) (wf_ w 2 42 2) old vals hollow x.epoch x.last
        (es, s.poolSave ck w x.slot st)
      else ([{ idx := x.n, epoch := x.epoch, vals := vals, hollow := hollow }], s)
    let s2 := (s1.rangeCheck ck x ems).freeStep ck id
    (s2.setStep ck id fun y => { y with done := true, emis := ems }).retireStep ck id

/-- R179, R185: what a step holds of one engine done; when the last is, its set is freed, and its outputs are computed as soon as no
check of R442 is still to come. A failed tile makes them hollow (R68). -/
def State.checkStep (s : State) (ck id : Nat) : State :=
  match s.stepOf ck id with
  | none => s
  | some x =>
    if x.done || x.engs.any StepEng.busy then s
    else if !x.checks.isEmpty then s.freeStep ck id
    else if x.engs.any fun e => e.state = 4 then s.settle ck id (List.replicate (stepChannels x.words) 0) true
    else s.settle ck id (s.outputs ck x) false

/-- An engine's part of a step set. -/
def State.setStepEng (s : State) (ck id n st : Nat) (vals : List Int) : State :=
  s.setStep ck id fun x => { x with engs := x.engs.map fun e => if e.eng = n then { e with state := st, vals := vals } else e }

/-- R81, R82, R135, R188: the tile of an engine is over: its combined values join the step; flagged under ESCALATE, the tile is
converted again in lossless mode and the step's pips rise one rung. -/
def State.tileDone (s : State) (e : Nat) : State :=
  match (s.engSt e).tile with
  | none => s
  | some t =>
    if !t.todo.isEmpty then s
    else
      let ck := engCore e
      let (s1, vals, flagged) := s.endTile e
      let twin : Bool := match s.stepOf ck t.step with
        | some x => x.checks.any fun c => c.path = 1 && c.twin = engNum e
        | none => false
      if flagged then
        (if twin then s1 else s1.setStep ck t.step fun x => { x with raised := true }).beginTile e { t with todo := t.all, comp := none, clipped := false }
      else if twin then
        let take (c : Check) : Check := if c.path = 1 && c.twin = engNum e then { c with twinVals := some vals } else c
        s1.setStep ck t.step fun x => { x with checks := x.checks.map take }
      else (s1.setStepEng ck t.step (engNum e) 3 vals).checkStep ck t.step

/-- Tiles that ended at once, all their conversions skipped (R74). -/
def State.drainTiles (s : State) (ck : Nat) : State :=
  s.each (List.range 16) fun t n => if t.tileOver (engInst ck n) then t.tileDone (engInst ck n) else t

/-! ### Firing -/

/-- R95: after a cold reset a READY bank bound to an epoch is swept before the engine's first tile, while sweeps run at all. -/
def State.sweepFirst (s : State) (e : Nat) : Bool :=
  s.rb R.ENG_PILOT_EN e && [0, 1].any fun b => (s.pilot e b).cold && s.bankBound e b

/-- R176 condition 2: the engines of a descriptor are free, each with a free output buffer, and the pooling state of the
stream is not held. -/
def State.enginesFree (s : State) (ck : Nat) (w : List Nat) (slot : Nat) : Bool :=
  let steps := (s.mcSt ck).steps
  (dEngines w).all (fun n =>
    (s.engSt (engInst ck n)).tile.isNone && !s.sweepFirst (engInst ck n) && !(steps.any fun x => x.engs.any fun e => e.eng = n && e.busy)
      && decide (steps.countP (fun x => x.engs.any fun e => e.eng = n) < 2))
    && !(dPoolW w ≠ 1 && steps.any fun x => !x.done && poolKey ck x.words x.slot = poolKey ck w slot)

/-- R176 condition 4. -/
def State.mayFire (s : State) (ck : Nat) : Bool :=
  s.rb R.MCORE_SEQ_RUN ck && !s.coreFenced ck && !s.inReset (.core ck) && !s.fireGated (.core ck)

/-- A set ready to fire but for engines and credits: arrival of its last pip, descriptor, set index. -/
def State.readySets (s : State) (ck : Nat) : List (Nat × Nat × Nat) :=
  (List.range (s.rf R.MCORE1_DESC_COUNT ck)).filterMap fun d =>
    let ps := (s.buf ck d).pips
    if ps.isEmpty then none
    else match oldestSet (completeSets (dInPips (s.descWords ck d)) ps) with
      | none => none
      | some (a, n) => some (a, d, n)

/-- The earliest of ready sets, R176. -/
def firstReady (l : List (Nat × Nat × Nat)) : Option (Nat × Nat × Nat) :=
  l.foldl (fun (b : Option (Nat × Nat × Nat)) x => match b with
    | none => some x
    | some y => if x.1 < y.1 ∨ (x.1 = y.1 ∧ x.2.1 < y.2.1) then some x else b) none

/-- What a set needs before it fires: its descriptor's words, its pips, its stream entry, and the credits on each
destination; none on a reserved one, to which nothing is sent (R239), and none where the set is discarded (R174). -/
def State.setNeeds (s : State) (ck d n : Nat) : List Nat × List Pip × Option (Nat × Bool × Nat) × List (Nat × Nat) :=
  let w := s.descWords ck d
  let ps := (setPips (dInPips w) n (s.buf ck d).pips).map (s.bufGet ck)
  let ent := s.streamEntry ck (wf_ w 1 0 16)
  let ep := (ps.head?.map (·.epoch)).getD 0
  let count := if malformed w then (if dDest w 0 = 0xFFFF then 0 else 1)
    else match ent with
      | none => 1
      | some (_, _, slot) => s.emissionCount ck w slot ep (ps.any (·.last))
  (w, ps, ent, joinNeeds (((dDests w).filter fun t => destLocal t || destRemote t).map fun t => (t, stepCredits w * count)))

/-- R171, R195: the stream that a step's pips carry: OUT_STREAM, but the set's own where it has no stream entry. -/
def outStreamOf (w : List Nat) (ent : Option (Nat × Bool × Nat)) : Nat :=
  if ent.isNone && !malformed w then wf_ w 1 0 16 else dOutStream w

/-- The output buffer that an engine's post-unit has free, R168. -/
def McSt.freeBuf (m : McSt) (n : Nat) : Nat := if m.steps.any fun x => x.engs.any fun e => e.eng = n && e.buf = 0 then 1 else 0

/-- R161, R185: engine `n`'s tile of a step is held from now on. -/
def State.holdTile (s : State) (ck id n : Nat) : State :=
  s.setStep ck id fun x => { x with engs := x.engs.map fun e =>
    if e.eng = n then { e with state := 1, since := s.elapsed, stamp := s.now, late := false } else e }

/-- R171, R174, R176 to R184: a step fires on a set: its pips leave the buffer's waiting sets, the credits are reserved, the
descriptor is copied, and the tiles start. A set with no stream entry emits once, unpooled, with set index `n`, and leaves the pooling
state alone: R171 does not say so (DESIGN CHOICE, log 38). An error record carries LAYER (R172) in its DATA. -/
def State.fire (s : State) (ck d n : Nat) : State :=
  let (w, ps, ent, needs) := s.setNeeds ck d n
  let b := s.buf ck d
  let taken := setPips (dInPips w) n b.pips
  let s1 := s.setBuf ck d { b with pips := b.pips.filter fun p => !taken.contains p }
  let bad := malformed w
  let layer := wf_ w 6 0 16
  let out := outStreamOf w ent
  if bad ∧ dDest w 0 = 0xFFFF then
    ((s1.freeSet ck d ps).inc R.MCORE_UNMATCHED ck).blockErr (mcorePage ck) 0x14 d layer (2 ^ R.INT_MCORE_BAD_DESCRIPTOR)
  else
    let m := s1.mcSt ck
    let (seed, det, slot) := ent.getD (0, false, 0)
    let x : Step := { id := m.nextId, desc := d, words := w, seed := seed, det := det, slot := slot, pips := ps, n := n,
                      reserved := needs, firedAt := s.elapsed, out := out }
    let s2 := ((s1.reserve ck out needs).inc R.MCORE_STEPS ck).wf R.MCORE1_LAST_FIRE_STAMP ck s.now
    let go (t : State) (y : Step) : State := t.setMc ck { m with nextId := m.nextId + 1, steps := m.steps ++ [y] }
    let zero := List.replicate (stepChannels w) 0
    if bad then
      ((go s2 x).blockErr (mcorePage ck) 0x14 d layer (2 ^ R.INT_MCORE_BAD_DESCRIPTOR)).settle ck x.id zero true false
    else if ent.isNone then
      ((go s2 x).blockErr (mcorePage ck) 0x13 (wf_ w 1 0 16) layer (2 ^ R.INT_MCORE_NO_STREAM)).settle ck x.id zero true false
    else if ps.any fun p => p.epoch ≠ x.epoch || p.gen ≠ (ps.head?.map (·.gen)).getD 0 then
      (((go s2 x).tileFailed ck).blockErr (mcorePage ck) 0x11 d layer 0).settle ck x.id zero true
    else if ps.any (·.hollow) then (go s2 x).settle ck x.id zero true
    else
      let (v, clamped) := if fmtOk ps then inputVector ps else ([], false)
      if v.length ≠ dGang w * dRows w then
        (((go s2 x).tileFailed ck).blockErr (mcorePage ck) 0x10 d layer 0).settle ck x.id zero true
      else
        let y := { x with xref := xrefOf v, engs := (dEngines w).map (fun e => { eng := e, state := 0, buf := m.freeBuf e }),
                          rangeEx := clamped }
        let s3 := (go s2 y).when clamped fun t =>
          (t.inc R.MCORE_RANGE_EXCEEDED ck).setInt (mcorePage ck) R.INT_MCORE_RANGE_EXCEEDED
        let s4 := s3.each (dEngines w) fun t e =>
          if t.unavailable (engInst ck e) y.epoch then t.holdTile ck y.id e
          else
            let (runs, t1) := t.startTile ck y e y.epoch
            if runs then t1.beginCheck ck e y.epoch y else t1.setStepEng ck y.id e 4 []
        (s4.drainTiles ck).checkStep ck y.id

/-- R176: the sets that need only credits to fire. -/
def State.ableSets (s : State) (ck : Nat) : List (Nat × Nat × Nat) :=
  if !s.mayFire ck then []
  else (s.readySets ck).filter fun r =>
    let (w, _, ent, _) := s.setNeeds ck r.2.1 r.2.2
    malformed w || s.enginesFree ck w ((ent.map (·.2.2)).getD 0)

/-- R176 condition 3. -/
def State.paidSet (s : State) (ck : Nat) (r : Nat × Nat × Nat) : Bool :=
  let (w, _, ent, needs) := s.setNeeds ck r.2.1 r.2.2
  s.haveCredits ck (outStreamOf w ent) needs

/-- R198: MCORE.CREDIT_WAIT counts the engine cycles in which a complete set waits only for credits: the wait begins and ends with
the events that change what such a set lacks. -/
def State.creditWatch (s : State) (ck : Nat) : State :=
  if kindOfLogical (ck % 64) ≠ 0 then s
  else
    let m := s.mcSt ck
    match m.waitAt, (s.ableSets ck).any fun r => !s.paidSet ck r with
    | none, true => s.setMc ck { m with waitAt := some s.elapsed }
    | some t, false => (s.setMc ck { m with waitAt := none }).inc R.MCORE_CREDIT_WAIT ck (s.cycles ck (s.elapsed - t))
    | _, _ => s

/-- R176: the step sequencer fires the oldest set whose engines and credits are there; a set that waits only for credits asks
for them. -/
def State.stepFire (s : State) (ck : Nat) : State :=
  let able := s.ableSets ck
  match firstReady (able.filter (s.paidSet ck)) with
  | some (_, d, n) => s.fire ck d n
  | none =>
    match firstReady able with
    | none => s
    | some (_, d, n) =>
      let (w, _, ent, needs) := s.setNeeds ck d n
      s.askCredits ck (outStreamOf w ent) needs

/-! ### Holds and the slower tier -/

/-- R161, R185, R442: held tiles whose engines are available start, and a selected one is checked. -/
def State.holdCheck (s : State) (ck : Nat) : State :=
  let todo := (s.mcSt ck).steps.flatMap fun x => (x.engs.filter fun e => e.state = 1).map fun e => (x, e.eng)
  s.each todo fun t p =>
    let x := p.1
    if t.unavailable (engInst ck p.2) x.epoch then t
    else
      let (runs, t1) := t.startTile ck x p.2 x.epoch
      let t2 := t1.setStepEng ck x.id p.2 (if runs then 0 else 4) []
      ((t2.when runs fun u => u.beginCheck ck p.2 x.epoch x).drainTiles ck).checkStep ck x.id

/-- R185, R218: the tiles whose hold has reached 200 us go to the V-core named: a stand-in request each. -/
def State.sendStandins (s : State) (ck : Nat) : State :=
  let v := s.rf R.MCORE1_SLOW_VCORE ck
  s.each (s.mcSt ck).steps fun t x =>
    let held := x.engs.filter fun e => e.state = 1 && e.late
    if held.isEmpty then t
    else
      let t1 := t.each held fun u e => (u.setStepEng ck x.id e.eng 2 []).mesh 7 v [ck, x.id, e.eng, x.xref]
      let t2 := t1.when (!x.slow) fun u => u.inc R.MCORE_SLOW_TIER ck
      t2.setStep ck x.id fun y => { y with slow := true }

/-- R185: the hold of an engine's tile has reached 200 us and has not been dealt with. -/
def StepEng.due (e : StepEng) (now : Nat) : Bool := e.state = 1 && !e.late && decide (e.since + 200000 ≤ now)

/-- R185: a tile whose hold has reached 200 us waits for a V-core to be named. -/
def State.heldLate (s : State) (ck : Nat) : Bool := (s.mcSt ck).steps.any fun x => x.engs.any fun e => e.state = 1 && e.late

/-- R185: holds reach 200 us, each on its own. -/
def State.holdTimeout (s : State) (ck : Nat) : State :=
  let m := s.mcSt ck
  if !(m.steps.any fun x => x.engs.any fun e => e.due s.elapsed) then s
  else
    let mark (x : Step) : Step := { x with engs := x.engs.map fun e => if e.due s.elapsed then { e with late := true } else e }
    let s1 := s.setMc ck { m with steps := m.steps.map mark }
    if s.rf R.MCORE1_SLOW_VCORE ck ≠ 0xFFFF then s1.sendStandins ck
    else s1.setInt (mcorePage ck) R.INT_MCORE_HOLD_TIMEOUT

/-- A logical V-core is present, R185. -/
def State.vPresent (s : State) (v : Nat) : Bool := !s.isAbsent v && !s.coreFenced v

/-- R185: the V-core Oasis names for a held M-core. -/
def State.slowVcore (s : State) (ck : Nat) : Option Nat :=
  match ((List.range 11).map fun i => ck / 64 * 64 + 46 + i).find? s.vPresent with
  | some v => some v
  | none =>
    let pos (k : Nat) : Nat × Nat := routerOfPhys (k / 64) (s.physOf k % 64)
    let all := (List.range 32).flatMap fun c => (List.range 11).map fun i => c * 64 + 46 + i
    (all.filter s.vPresent).foldl (fun (b : Option Nat) v => match b with
      | none => some v
      | some u => if hopsBetween (pos ck) (pos v) < hopsBetween (pos ck) (pos u) then some v else b) none

/-- R185: Oasis names a SLOW_VCORE for a core whose hold timed out with none named, writes a record, and the held tiles go. -/
def State.slowVcoreNamed (s : State) (ck : Nat) : State :=
  if s.heldLate ck ∧ s.rf R.MCORE1_SLOW_VCORE ck = 0xFFFF then
    match s.slowVcore ck with
    | none => s
    | some v => ((s.wf R.MCORE1_SLOW_VCORE ck v).unitEv 5 (mcorePage ck 1) 0 v false).sendStandins ck
  else s

/-- R185, R219: a stand-in's result reaches the post-unit of engine `n`: the channel values in 1/16, or failure. -/
def State.standinResult (s : State) (ck id n : Nat) (ok : Bool) (vals : List Int) : State :=
  match s.stepOf ck id with
  | none => s
  | some x =>
    if x.engs.any fun e => e.eng = n && e.state = 2 then
      if ok then (s.setStepEng ck id n 3 vals).checkStep ck id
      else ((s.tileFailed ck).setStepEng ck id n 4 []).checkStep ck id
    else s

/-! ### Output pips -/

/-- R194: the address of a channel's residual. -/
def residAddr (w : List Nat) (slot j : Nat) : Nat := wf_ w 4 15 15 * 16 + slot * stepChannels w * 2 + j * 2

/-- R123 step 1: value plus residual; a sum that overflows is the largest finite value of its sign. -/
def efSum (v e : Nat) : Nat :=
  let u := fadd v e
  match f32.decode u with
  | .inf n => f32.infBits n - 1
  | _ => u

/-- R135 to R137: the blocks of a pip on the rung where none saturates, from `fmt`: format, blocks and whether it climbed. -/
def ladder (xmax : Nat) (vs : List (List Dy)) (ms : List (List Rnd)) : Nat → Nat → Nat × List Quant
  | 0, fmt => (fmt, (vs.zip ms).map fun v => quant fmt xmax v.1 v.2)
  | n + 1, fmt =>
    let qs := (vs.zip ms).map fun v => quant fmt xmax v.1 v.2
    if fmt < 2 ∧ qs.any (·.sat) then ladder xmax vs ms n (fmt + 1) else (fmt, qs)

/-- R193 to R195, R439: the next pip of a step's first emission is requantised and handed to the pip/credit unit. It carries
OUT_STREAM, as R172 and R195 say; R184 has the set's stream travel unchanged, which the two settle only so (DESIGN CHOICE, log 38). In a
pip sent hollow for a value that is not finite, that element's residual is zero (R123), and the residuals of its finite elements stay
as they are (DESIGN CHOICE, log 38). -/
def State.handOver (s : State) (ck : Nat) (x : Step) (em : Emission) : State :=
  let w := x.words
  let k := x.k
  let nb := blocksOfPip w k
  let j0 := k * dOutBlocks w * 32
  let vals := (em.vals.drop j0).take (nb * 32)
  let seq := (em.idx * outPips w + k) % 65536
  let nonfin := vals.any fun v => !ffinite v
  let viol := vals.any (violates w)
  let act := s.rb R.MCORE1_RANGE_ACTION ck
  let hollow := em.hollow || nonfin || (viol && act)
  let fmt0 := outFmtOf w
  let ef := x.det && wf_ w 2 23 2 = 0
  let resid (j : Nat) : Nat := (s.sramRead ck (residAddr w x.slot (j0 + j)) 2) * 65536
  let us := if ef then (vals.zipIdx).map fun v => efSum v.1 (resid v.2) else vals
  let dys := us.map fun v => (f32.decode v).dy
  let seed := siteSeed (leBytes 8 x.seed ++ [1] ++ leBytes 2 ck ++ leBytes 2 (dOutStream w) ++ leBytes 2 seq)
  let mode := wf_ w 2 23 2
  let ms : List Rnd := if mode = 0 && !ef then (draws seed (nb * 32)).map .sr
    else List.replicate (nb * 32) (if mode = 2 then .rz else .rne)
  let start := if x.raised then fmt0 + 1 else fmt0
  let (fmt, qs) := if hollow then (fmt0, []) else ladder (wf_ w 2 25 8) (chunks 32 nb dys) (chunks 32 nb ms) 2 start
  let payload := if hollow then List.replicate (nb * blockBytes fmt0) 0 else qs.flatMap fun q => q.blk.bytes fmt
  let ovr := qs.any (·.range)
  let dropped := hollow || (ovr && act)
  let p : Pip := { dest := 0, stream := x.out, seq := seq, gen := 0, hollow := dropped, last := x.last, epoch := em.epoch,
                   drain := x.drain, fmt := fmt, source := ck, payload := payload }
  let s1 := s.when dropped fun t => (t.inc R.MCORE_HOLLOW_OUT ck).setInt (mcorePage ck) R.INT_MCORE_HOLLOW_OUT
  let s2 := s1.when (!hollow && decide (fmt0 < fmt)) fun t => (t.inc R.MCORE_WIDENED ck).setInt (mcorePage ck) R.INT_MCORE_WIDENED
  let s2v := s2.when (ovr && !x.viol) fun t => t.rangeViolation ck x seq false
  let s3 := s2v.when (ovr && !x.rangeEx) fun t =>
    (t.inc R.MCORE_RANGE_EXCEEDED ck).setInt (mcorePage ck) R.INT_MCORE_RANGE_EXCEEDED
  let s4 := if !ef then s3
    else if hollow then
      s3.each (vals.zipIdx) fun t v => if ffinite v.1 then t else t.sramWrite ck (residAddr w x.slot (j0 + v.2)) 2 0
    else
      let got := qs.flatMap (·.got)
      let cl := qs.flatMap fun q => q.clamped.map (· || q.blk.x = 0)
      s3.each (dys.zipIdx) fun t v =>
        let e := if cl.getD v.2 false then 0 else
          let d := v.1.add (got.getD v.2 Dy.zero).neg
          bf16.encode .rne false d
        t.sramWrite ck (residAddr w x.slot (j0 + v.2)) 2 e
  let more := k + 1 < outPips w
  s4.setStep ck x.id fun y => { y with
    outq := y.outq ++ (dDests w).map (fun d => { p with dest := d }), rangeEx := y.rangeEx || ovr,
    k := if more then k + 1 else 0, emis := if more then y.emis else y.emis.drop 1 }

/-- R196: the post-unit pipeline finishes a pip of the oldest step that has one to finish. -/
def State.postUnitDone (s : State) (ck : Nat) : State :=
  match (s.mcSt ck).steps.find? fun x => !x.emis.isEmpty with
  | none => s
  | some x =>
    match x.emis with
    | [] => s
    | em :: _ => s.handOver ck x em

/-- R177: the credits that a step has reserved for one of its pips: those of its blocks at OUT_FMT. -/
def Step.share (x : Step) (p : Pip) : Nat :=
  min (((x.reserved.find? fun r => r.1 = p.dest).map (·.2)).getD 0)
    (pipCredits (p.payload.length / blockBytes p.fmt * blockBytes (outFmtOf x.words)))

/-- R177: the first step whose next pip the credits allow sends it. -/
def State.sendStep (s : State) (ck : Nat) : List Step → Option State
  | [] => none
  | x :: rest =>
    match x.outq with
    | [] => s.sendStep ck rest
    | p :: ps =>
      let share := x.share p
      match s.inject ck p share with
      | (some t, _) =>
        some ((t.setStep ck x.id fun y => { y with
          outq := ps, reserved := y.reserved.map fun r => if r.1 = p.dest then (r.1, r.2 - share) else r }).retireStep ck x.id)
      | (none, _) => s.sendStep ck rest

/-- The credits the first waiting pip of an M-core lacks are asked for. -/
def State.askFirst (s : State) (ck : Nat) : State :=
  match (s.mcSt ck).steps.find? fun x => !x.outq.isEmpty with
  | none => s
  | some x =>
    match x.outq with
    | [] => s
    | p :: _ => (s.inject ck p (x.share p)).2

def State.pipSendM (s : State) (ck : Nat) : State :=
  match s.sendStep ck (s.mcSt ck).steps with
  | some t => t
  | none => s.askFirst ck

/-! ### Contexts -/

/-- R124, R191, R287: a context's residual buffers and pooling slots on an M-core cleared. -/
def State.clearSlot (s : State) (ck slot : Nat) : State :=
  s.each (List.range (s.rf R.MCORE1_DESC_COUNT ck)) fun t d =>
    let w := t.descWords ck d
    let t1 := if wf_ w 0 63 1 = 1 ∧ !malformed w then
        t.each (List.range (stepChannels w)) fun u j => u.sramWrite ck (residAddr w slot j) 2 0
      else t
    { t1 with pools := Tbl.del t1.pools (poolKey ck w slot) }

/-! ### Commands -/

/-! ### Re-execution, R443 -/

/-- R130: the conversion error bound in hundredths of an LSB. -/
def epsilon (rows : Nat) : Nat := [20, 22, 25, 27, 29, 31, 33, 35].getD ((rows + 7) / 8 - 1) 35

/-- R443: a tile's tolerance on a difference of channel values in 1/16, times 4,000: TOL_MULT, the bound of R131 for the tile alone,
and 1/32 LSB for each aligned conversion of a slice. -/
def State.tolerance (s : State) (ck n : Nat) (x : Step) : Nat :=
  let w := x.words
  let seg := engSegment w n (inputVector x.pips).1
  let (planes, sg, _) := tileWidth w seg ((engSegment w n (wideElements x.pips)).any id)
  let e := engInst ck n
  let g := if wf_ w 0 33 5 = 0 then 8 * s.rf R.ENG_GROUP_ROWS e else 8 * wf_ w 0 33 5
  let (cs, _, _, _) := tileConvs seg (dFirst w) g (dQuarters w) planes sg (wf_ w 0 55 1 = 1) x.xref
  let q := ((List.range 4).find? fun k => (dQuarters w).testBit k).getD 0
  let one := cs.filter fun c => c.quarter = q
  let sum := ((one.filter fun c => c.plane = 0).map fun c => epsilon c.rows * epsilon c.rows).sum
  let sp := (if dWfmt w = 0 then 17 else 1) * ((4 ^ planes - 1) / 3)
  let fs := dRows w * (if dWfmt w = 0 then 8 else if dWfmt w = 1 then 2 else 1) * (if sg then 2 ^ (planes - 1) else 2 ^ planes - 1)
  let k := ((List.range 4096).find? fun j => 400 * sp * sum ≤ (j * fs) * (j * fs)).getD 4096
  2 * s.rf R.MCORE1_TOL_MULT ck * (k + 7) * fs + 2000 * one.countP fun c => c.scale ≠ x.xref

/-- The first channel where two sets of values differ by more than a tolerance; √2 times it for a twin. -/
def firstOutside (tol : Nat) (twin : Bool) (a b : List Int) : Option Nat :=
  (List.range (max a.length b.length)).find? fun j =>
    let d := (a.getD j 0 - b.getD j 0).natAbs * 4000
    if twin then decide (2 * tol * tol < d * d) else decide (tol < d)

/-- R443, R460: a mismatch of engine `n`'s tile recorded, with evidence against the core. -/
def State.mismatch (s : State) (ck n ch : Nat) (twin : Bool) : State :=
  (((((s.inc R.MCORE1_REEXEC_MISMATCHES ck).wf R.MCORE1_LAST_MISMATCH_STAMP ck s.now).wf R.MCORE1_MISMATCH_ENGINE ck n).wf
    R.MCORE1_MISMATCH_CHANNEL ck ch).wf R.MCORE1_MISMATCH_PATH ck (bit twin)).suspect (s.physOf ck) 0x01 n

/-- REEXEC_CHECK_DONE, R443: the check of engine `n`'s tile ends with the V-core's values, or with the twin's; `ok` is false where
the other path failed. -/
def State.checkDone (s : State) (ck id n : Nat) (ok : Bool) (vals : List Int) : State :=
  match s.stepOf ck id with
  | none => s
  | some x =>
    match x.checks.find? (fun c => c.eng = n), x.engs.find? (fun g => g.eng = n) with
    | some c, some g =>
      let ovr (t : State) : State :=
        (t.setStep ck id fun y => { y with checks := y.checks.filter fun k => k.eng ≠ n }).checkStep ck id
      let skip (t : State) : State := ovr (t.inc R.MCORE1_REEXEC_SKIPPED ck)
      let tol := s.tolerance ck n x
      if g.busy then s
      else if g.state = 4 then skip s
      else if c.path = 1 then
        match c.twinVals with
        | none => if ok then s else skip s
        | some tv =>
          if !ok then skip s
          else match firstOutside tol true g.vals tv with
            | none => ovr (s.inc R.MCORE1_REEXEC_TILES ck)
            | some ch =>
              let v := s.rf R.MCORE1_SLOW_VCORE ck
              if v ≠ 0xFFFF then
                (s.setStep ck id fun y => { y with checks := y.checks.map fun k => if k.eng = n then { k with path := 2 } else k }).mesh 7 v
                  [ck, id, n, x.xref]
              else ovr (((s.inc R.MCORE1_REEXEC_TILES ck).mismatch ck n ch true).setStepEng ck id n 4 [])
      else if !ok then skip s
      else
        let s1 := s.inc R.MCORE1_REEXEC_TILES ck
        let s2 := match c.twinVals with
          | some tv => (match firstOutside tol false tv vals with
            | some ch => s1.mismatch ck c.twin ch true
            | none => s1)
          | none => s1
        match firstOutside tol false g.vals vals with
        | none => ovr (if c.path = 2 then s2.setStepEng ck id n 3 vals else s2)
        | some ch => ovr ((s2.mismatch ck n ch false).setStepEng ck id n 3 vals)
    | _, _ => s

/-- VERIFY_SUB_STEP, R142. Tiles held for the bank start when it is READY (R185). -/
def execVerifySubStep (e : Nat) (devs noise : List Int) (s : State) : Host.Outcome State Fault Refusal :=
  .next ((((s.verifyStep e devs noise).tryOwed e).wornOut e s).holdCheck (engCore e))

/-- HOLD_TIMEOUT, R185. -/
def execHoldTimeout (ck : Nat) (s : State) : Host.Outcome State Fault Refusal := .next (s.holdTimeout ck)

/-- SLOW_VCORE_NAMED, R185. -/
def execSlowVcoreNamed (ck : Nat) (s : State) : Host.Outcome State Fault Refusal := .next (s.slowVcoreNamed ck)

/-- LOCAL_FLIP, R163. -/
def execLocalFlip (e : Nat) (s : State) : Host.Outcome State Fault Refusal :=
  .next (((s.localFlip e).tryOwed e).holdCheck (engCore e))

/-- STEP_FIRE, R176. -/
def execStepFire (ck : Nat) (s : State) : Host.Outcome State Fault Refusal := .next ((s.stepFire ck).creditWatch ck)

end Sys2Proof.Machine
end

