-- ==== Sys2Proof/Machine/Router.lean ====
section
/-! DEFINITION. The routers of the mesh: ports (R230), dimension-order routing (R231), classes with their buffers and hop credits (R232,
R252, R254), arbitration (R233), and the retry buffers of R234. -/

namespace Sys2Proof.Machine

def seamPage (row : Nat) : Page := { blk := 0x19, inst := row }

/-- The router of a physical core `c * 64 + i`, R20. -/
def routerOfPhysCore (pc : Nat) : Nat := routerInst (routerOfPhys (pc / 64) (pc % 64))

/-- The half of a router, R21. -/
def halfOfRouter (r : Nat) : Nat := halfOfCol (r % 32)

def posOfRouter (r : Nat) : Nat × Nat := (r % 32, r / 32)

/-- R251: the near stack of a core's router. -/
def State.nearOf (s : State) (ck : Nat) : Nat := nearStack (posOfRouter (routerOfPhysCore (s.physOf ck)))

/-- R230: the router has this port: 0 N, 1 E, 2 S, 3 W, 4 outward, 5 to 8 the core ports. -/
def hasPort (r port : Nat) : Bool :=
  decide (r < 512) && (if port = 0 then decide (32 ≤ r) else if port = 1 then decide (r % 32 ≠ 31)
    else if port = 2 then decide (r < 480) else if port = 3 then decide (r % 32 ≠ 0)
    else if port = 4 then decide (routerAttachment (posOfRouter r) ≠ 31) else decide (port ≤ 8))

/-- The link of a port has failed, R234. -/
def State.linkDead (s : State) (r port : Nat) : Bool :=
  if port ≤ 3 then (s.rf R.ROUTER_LINK_FAILED r).testBit port
  else if port = 4 then s.rb R.ROUTER_OUT_FAILED r else s.msh.dead.contains (r * 16 + port)

/-- The router and the input port at the other end of a mesh port. -/
def linkEnd (r port : Nat) : Nat × Nat :=
  if port = 0 then (r - 32, 2) else if port = 1 then (r + 1, 3) else if port = 2 then (r + 32, 0) else (r - 1, 1)

/-- A port of a router, and a class at it. -/
def portKey (r port : Nat) : Nat := r * 16 + port
def vcKey (r port cls : Nat) : Nat := (r * 16 + port) * 4 + cls

/-- R231, R236: the output port of a packet at a router: along the row to the column, along the column to the row, then the destination
port; none for a reserved port. -/
def outPortOf (r : Nat) (head : List Nat) : Option Nat :=
  let h := ofBytes (head.take 16)
  let col := bitsOf h 0 5
  let row := bitsOf h 5 4
  let port := bitsOf h 9 3
  if r % 32 < col then some 1 else if col < r % 32 then some 3
  else if r / 32 < row then some 2 else if row < r / 32 then some 0
  else if port = 4 then some 4 else if port ≤ 3 then some (5 + port) else none

/-- A port's link crosses the seam, R252. -/
def crossesSeam (r port : Nat) : Bool := (r % 32 = 15 && port = 1) || (r % 32 = 16 && port = 3)

/-- R253, R254: the hop credits of a class at a mesh port: at the seam its allotment. -/
def State.hopLimit (s : State) (r port cls : Nat) : Nat :=
  if crossesSeam r port then
    let fs := if port = 1 then [R.SEAM_EW_REQ, R.SEAM_EW_RESP, R.SEAM_EW_PIP, R.SEAM_EW_MGMT]
      else [R.SEAM_WE_REQ, R.SEAM_WE_RESP, R.SEAM_WE_PIP, R.SEAM_WE_MGMT]
    s.rf (fs.getD cls R.SEAM_EW_PIP) (r / 32)
  else Config.hopDepth + 1

/-- R25, R232, R234, R254: a flit of a class may leave by a port: the router is not held, the link has not failed, and at a mesh port the
class has hop credits and the retry buffer has room. The sink of another port always takes it. -/
def State.canLeave (s : State) (r port cls : Nat) : Bool :=
  !s.rb R.ROUTER_HELD r && !s.linkDead r port && (decide (4 ≤ port) ||
    (decide (Tbl.getD s.msh.spent (vcKey r port cls) 0 < s.hopLimit r port cls) &&
      (crossesSeam r port || decide ((Tbl.getD s.msh.wire (portKey r port) []).length < 16))))

/-- The first flit of an input's class when it may leave by an output port: its input and when it became ready. A packet holds the port's
class until its tail. -/
def State.candidate (s : State) (r port cls inp : Nat) : Option (Nat × Nat) :=
  match Tbl.getD s.msh.bufs (vcKey r inp cls) [] with
  | [] => none
  | x :: _ =>
    if x.out = port && ((Tbl.get? s.msh.owner (vcKey r port cls)).getD inp) = inp then some (inp, x.since) else none

/-- R233: mesh cycles of an interval at a router. -/
def State.meshCycles (s : State) (r ns : Nat) : Nat := ns * s.clk.mesh.getD (halfOfRouter r) 1500 / 1000

/-- R233: the class and the input that an output port grants next: the class that has waited longest of those ready for 16 mesh cycles, else
management, response, request, pip; within a class the next input in turn. -/
def State.portGrant (s : State) (r port : Nat) : Option (Nat × Nat) :=
  let able (c : Nat) : List (Nat × Nat) :=
    if s.canLeave r port c then (List.range 9).filterMap (s.candidate r port c) else []
  let since (c : Nat) : Nat := ((able c).map (·.2)).foldl min s.elapsed
  let cs := [3, 1, 0, 2].filter fun c => !(able c).isEmpty
  let late := cs.filter fun c => decide (16 ≤ s.meshCycles r (s.elapsed - since c))
  let pick := match late with
    | [] => cs.head?
    | c :: l => some (l.foldl (fun b x => if since x < since b then x else b) c)
  match pick with
  | none => none
  | some c =>
    let last := Tbl.getD s.msh.turn (vcKey r port c) 8
    (((List.range 9).map fun i => (last + 1 + i) % 9).find? fun i => (able c).any fun a => a.1 = i).map fun i => (c, i)

/-- R258: what a flit that enters a seam queue counts: its highest occupancy. -/
def State.seamHigh (s : State) (r port : Nat) : State :=
  let n := (Tbl.getD s.msh.wire (portKey r port) []).length
  let row := r / 32
  if r % 32 = 15 && port = 1 then s.wf R.SEAM_HIGH_EW row (max (s.rf R.SEAM_HIGH_EW row) (min 32 n))
  else if r % 32 = 16 && port = 3 then s.wf R.SEAM_HIGH_WE row (max (s.rf R.SEAM_HIGH_WE row) (min 32 n))
  else s

/-- R232, R234: the flit granted leaves: its buffer's next flit is ready, the class's hop credit at a mesh port is spent and the flit stays in
the retry buffer; the hop credit of the link it came by goes back. -/
def State.sendFlit (s : State) (r port cls inp : Nat) : State :=
  match Tbl.getD s.msh.bufs (vcKey r inp cls) [] with
  | [] => s
  | x :: rest =>
    let m := s.msh
    let k := vcKey r port cls
    let rest := match rest with
      | [] => []
      | y :: l => { y with since := s.elapsed } :: l
    let up := linkEnd r inp
    let ku := vcKey up.1 up.2 cls
    let spent := if port ≤ 3 then Tbl.put m.spent k (Tbl.getD m.spent k 0 + 1) else m.spent
    let m1 : MeshSt := { m with
      bufs := if rest.isEmpty then Tbl.del m.bufs (vcKey r inp cls) else Tbl.put m.bufs (vcKey r inp cls) rest
      owner := if 2 ≤ x.f.typ then Tbl.del m.owner k else Tbl.put m.owner k inp
      turn := Tbl.put m.turn k inp
      spent := if inp ≤ 3 then Tbl.putD spent 0 ku (Tbl.getD spent ku 0 - 1) else spent
      wire := if port ≤ 3 then Tbl.put m.wire (portKey r port) (Tbl.getD m.wire (portKey r port) [] ++ [x.f]) else m.wire }
    ((({ s with msh := m1 } : State).inc R.ROUTER_FLITS r).seamHigh r port).emit (.flit r port x.f)

/-- Flits leave by the output ports of a list of ports in turn while one can, and by the ports that their hop credits then let send. -/
def State.forwardFlits (s : State) : Nat → List (Nat × Nat) → State
  | 0, _ => s
  | _ + 1, [] => s
  | fuel + 1, p :: ps =>
    match s.portGrant p.1 p.2 with
    | none => s.forwardFlits fuel ps
    | some (c, i) => (s.sendFlit p.1 p.2 c i).forwardFlits fuel (ps ++ [p] ++ (if i ≤ 3 then [linkEnd p.1 i] else []))

/-- The output ports of a half's routers, or of one router, for which flits wait. -/
def State.waitingPorts (s : State) (mine : Nat → Bool) : List (Nat × Nat) :=
  ((s.msh.bufs.filter fun b => mine (b.1 / 64)).flatMap fun b => (b.2.take 1).map fun x => (b.1 / 64, x.out)).eraseDups

/-- Flits held in the routers' buffers. -/
def State.flitsHeld (s : State) : Nat := (s.msh.bufs.map fun b => b.2.length).sum

/-- R231, R232: a good flit enters the buffer of its class: a head finds its way, the flits after it take the same. A packet to a reserved
port is discarded. -/
def State.takeFlit (s : State) (r port : Nat) (f : Flit) : State :=
  let c := f.cls % 4
  let k := vcKey r port c
  let m := s.msh
  let way := if f.typ % 4 = 0 ∨ f.typ % 4 = 3 then outPortOf r f.data else Tbl.get? m.route k
  match way with
  | none => s
  | some out =>
    let x : FlitAt := { f := { f with typ := f.typ % 4 }, out := out, since := s.elapsed }
    let m1 : MeshSt := { m with
      bufs := Tbl.put m.bufs k (Tbl.getD m.bufs k [] ++ [x])
      route := if 2 ≤ f.typ % 4 then Tbl.del m.route k else Tbl.put m.route k out }
    ({ s with msh := m1 } : State).forwardFlits (64 + 64 * s.flitsHeld) [(r, out)]

/-- R234: the flit at the other end of a mesh link has been accepted: it leaves the sender's retry buffer. -/
def State.acceptFlit (s : State) (r port : Nat) : State :=
  if port ≤ 3 then
    let k := portKey (linkEnd r port).1 (linkEnd r port).2
    { s with msh := { s.msh with wire :=
        (match Tbl.getD s.msh.wire k [] with
         | _ :: y :: l => Tbl.put s.msh.wire k (y :: l)
         | _ => Tbl.del s.msh.wire k) } }
  else s

/-- R234: a retry asked for: the sender sends the first flit of its retry buffer again. -/
def State.retryFlit (s : State) (r port : Nat) : State :=
  let s1 := s.emit (.retry r port)
  if port ≤ 3 then
    let e := linkEnd r port
    match Tbl.getD s.msh.wire (portKey e.1 e.2) [] with
    | [] => s1
    | f :: _ => s1.emit (.flit e.1 e.2 f)
  else s1

end Sys2Proof.Machine
end

