-- ==== Sys2Proof/Machine/Vec.lean ====
section
/-! DEFINITION. The V-core's vector unit, matrix tile and stream engine (R205 to R207), the propagation of hollow data (R211), the
operations of a kernel with the formats and rounding sites of chapter 4, the attention step (R215) and the pips a kernel sends (R210). -/

namespace Sys2Proof.Machine

/-! ### Kernel entries, R208 -/

def kInPips (w : List Nat) : Nat := wf_ w 0 16 8
def kDests (w : List Nat) : List Nat := [wf_ w 1 0 16, wf_ w 1 16 16].filter (· ≠ 0xFFFF)
def kOutMax (w : List Nat) : Nat := wf_ w 1 32 32
def kOutStream (w : List Nat) : Nat := wf_ w 2 36 16
def kMaxCycles (w : List Nat) : Nat := wf_ w 3 0 32
def kLayer (w : List Nat) : Nat := wf_ w 3 32 16

/-- R239: a destination code that is reserved. -/
def destReserved (d : Nat) : Bool := !(destLocal d || destRemote d || d = 0xFFFF)

/-- R208, R239: a field of the entry holds a reserved value. -/
def kMalformed (w : List Nat) : Bool :=
  kInPips w = 0 || wf_ w 0 24 4 = 0 || wf_ w 1 0 16 = 0xFFFF || wf_ w 2 18 18 = 0 || destReserved (wf_ w 1 0 16)
    || destReserved (wf_ w 1 16 16)

def State.vcSt (s : State) (v : Nat) : VcSt := Tbl.getD s.vc v {}

/-- R218: a stand-in request is being served: one waits, requests are served and no kernel step runs. -/
def State.standinActive (s : State) (v : Nat) : Bool :=
  !(s.vcSt v).standins.isEmpty && s.rb R.VCORE_STANDIN_EN v && (s.vcSt v).step.isNone

/-- R226: the status fields that mirror a V-core's work. -/
def State.mirrorVc (s : State) (v : Nat) : State :=
  let x := s.vcSt v
  let act := s.standinActive v
  (((s.wf R.VCORE_STEP_RUNNING v (bit x.step.isSome)).wf R.VCORE_STANDIN_ACTIVE v (bit act)).wf R.VCORE_STANDIN_QUEUE v
    (x.standins.length - bit act)).wf R.VCORE_IDLE v (bit (x.step.isNone && !act))

def State.setVc (s : State) (v : Nat) (x : VcSt) : State := ({ s with vc := Tbl.put s.vc v x }).mirrorVc v

/-! ### Sending -/

/-- Credits reserved for the waiting pips of a channel. -/
def VcSt.held (x : VcSt) (dest stream : Nat) : Nat :=
  ((x.reserved.find? fun r => r.1 = dest && r.2.1 = stream).map (·.2.2)).getD 0

def VcSt.setHeld (x : VcSt) (dest stream n : Nat) : VcSt :=
  { x with reserved := x.reserved.filter (fun r => !(r.1 = dest && r.2.1 = stream)) ++
      (if n = 0 then [] else [(dest, stream, n)]) }

/-- R105, R226: a pip a V-core sends, counted when it is hollow. -/
def State.vSend (s : State) (v : Nat) (p : Pip) : State :=
  let s1 := s.when p.hollow fun t => (t.inc R.VCORE_HOLLOW_OUT v).setInt (vcorePage v) R.INT_VCORE_HOLLOW_OUT
  let x := s1.vcSt v
  s1.setVc v { x with outq := x.outq ++ [p] }

/-- A V-core's pip of a set: its header fields as the set's. -/
def vPip (v : Nat) (w : List Nat) (ps : List Pip) (dest seq fmt : Nat) (hollow : Bool) (payload : List Nat) : Pip :=
  { dest := dest, stream := kOutStream w, seq := seq % 65536, gen := 0, hollow := hollow, last := ps.any (·.last),
    epoch := (ps.head?.map (·.epoch)).getD 0, drain := ps.any (·.drain), fmt := fmt, source := v, payload := payload }

/-! ### Registers and lanes -/

/-- R205: a lane of a vector register and its hollow bit. -/
def VcSt.lane (x : VcSt) (r l : Nat) : Nat × Bool :=
  let k := r % 64 * 64 + l % 64
  (Tbl.getD x.vregs k 0, x.vhol.contains k)

def VcSt.reg (x : VcSt) (r : Nat) : List (Nat × Bool) := (List.range 64).map (x.lane r)

/-- Lanes of a register from `l0` on take values and hollow bits. -/
def VcSt.setLanes (x : VcSt) (r l0 : Nat) (vs : List (Nat × Bool)) : VcSt :=
  (vs.zipIdx).foldl (fun y v =>
    let k := r % 64 * 64 + (l0 + v.2) % 64
    { y with vregs := Tbl.putD y.vregs 0 k (v.1.1 % 2 ^ 32), vhol := y.vhol.filter (· ≠ k) ++ (if v.1.2 then [k] else []) }) x

/-- A register computed lane by lane from up to three others; a hollow operand makes its lane hollow (R211). -/
def VcSt.map3 (x : VcSt) (n d a b c : Nat) (f : Nat → Nat → Nat → Nat) : VcSt :=
  x.setLanes d 0 ((List.range 64).map fun l =>
    let p := x.lane a l
    let q := x.lane b l
    let r := x.lane c l
    (f p.1 q.1 r.1, p.2 || (decide (2 ≤ n) && q.2) || (decide (3 ≤ n) && r.2)))

/-- R207, R211: a lane reduction, into lane 0. -/
def VcSt.reduce (x : VcSt) (f d a : Nat) : VcSt :=
  let l := x.reg a
  x.setLanes d 0 [(reduceLanes f (l.map (·.1)), l.any (·.2))]

/-- R114, R117: a conversion of a register; the clamps counted. -/
def VcSt.conv (x : VcSt) (src dst d a : Nat) (ms : List Rnd) : VcSt × Nat :=
  let r := ((x.reg a).zip ms).map fun p => (vEncode dst p.2 (vDecode src p.1.1), p.1.2)
  (x.setLanes d 0 (r.map fun e => (e.1.1, e.2)), r.countP fun e => e.1.2 && !e.2)

/-- The operations of the vector unit that touch nothing but its registers and the tile; the FP8 clamps counted. `ms`: the rounding of
each lane at site 0x05 where the operation selects SR. -/
def VcSt.compute (x : VcSt) (ms : List Rnd) : VOp → VcSt × Nat
  | .arith op fmt rz d a b c => (x.map3 (if op = 2 then 3 else 2) d a b c (arithOp op fmt rz), 0)
  | .lanes op d a b c => (x.map3 (if op = 4 then 3 else 2) d a b c (laneOp op), 0)
  | .fill d w => (x.setLanes d 0 (List.replicate 64 (w, false)), 0)
  | .func f d a => (x.map3 1 d a a a fun p _ _ => vFunc f p, 0)
  | .reduce f d a => (x.reduce f d a, 0)
  | .conv src dst sr d a => x.conv src dst d a (if sr then ms else List.replicate 64 .rne)
  | .draw d seed => (x.setLanes d 0 ((draws (if seed % 2 ^ 32 = 0 then 1 else seed % 2 ^ 32) 64).map fun r => (r, false)), 0)
  | .tileClear => ({ x with acc := [], accHol := [] }, 0)
  | .tileRow d row =>
    (x.setLanes d 0 ((List.range 32).map fun j => let k := row % 32 * 32 + j; (Tbl.getD x.acc k 0, x.accHol.contains k)), 0)
  | _ => (x, 0)

/-- R134, R211: 32 vectors times 32 vectors added to the tile. -/
def VcSt.tileMac (x : VcSt) (fmt : Nat) (a b : List (List (Nat × Bool))) : VcSt :=
  (a.zipIdx).foldl (fun y p => (b.zipIdx).foldl (fun z q =>
    let k := p.2 * 32 + q.2
    let h := z.accHol.contains k || p.1.any (·.2) || q.1.any (·.2)
    { z with acc := Tbl.putD z.acc 0 k (tileDot fmt (Tbl.getD z.acc k 0) (p.1.map (·.1)) (q.1.map (·.1))),
             accHol := z.accHol.filter (· ≠ k) ++ (if h then [k] else []) }) y) x

/-! ### SRAM, pips and external memory -/

/-- The value that the scalar control unit adds to an address. -/
def VcSt.base (x : VcSt) (idx : Bool) : Nat := if idx then x.ctl else 0

/-- `n` bytes of a V-core's SRAM with the hollow bit of each one's codeword; there is no data beyond the SRAM (DESIGN CHOICE, log 40:
it reads zero and hollow). -/
def State.vGet (s : State) (v off n : Nat) : List (Nat × Bool) :=
  (List.range n).map fun i =>
    if off + i < sramSize 1 then (s.sramRead v (off + i) 1, s.sramIsHollow v (off + i)) else (0, true)

/-- R205, R211: bytes written in a V-core's SRAM: a codeword with a hollow byte written becomes hollow, one wholly written clean is clean;
bytes beyond the SRAM are not written. -/
def State.vPut (s : State) (v off : Nat) (bs : List (Nat × Bool)) : State :=
  let l := bs.take (sramSize 1 - off)
  let s1 := s.sramWrite v off l.length (ofBytes (l.map (·.1)))
  let words := ((List.range l.length).map fun i => (off + i) / 32).eraseDups
  s1.each words fun t c =>
    let part := (l.zipIdx).filter fun e => (off + e.2) / 32 = c
    if part.any (·.1.2) then t.sramMark v (32 * c) true
    else if part.length = 32 then t.sramMark v (32 * c) false
    else t

/-- Bytes from SRAM, or from the payload of a pip of the step's set: a hollow pip's bytes are hollow. -/
def State.vBytes (s : State) (v : Nat) (k : KStep) (src : VSrc) (n : Nat) : List (Nat × Bool) :=
  match src with
  | .sram off idx => s.vGet v (off + (s.vcSt v).base idx) n
  | .pip i off => match k.pips[i]? with
    | none => List.replicate n (0, true)
    | some p => (List.range n).map fun j => (p.payload.getD (off + j) 0, p.hollow)

/-- R214, R217: bytes of external memory read by the stream engine, counted; those of a codeword read hollow are hollow. -/
def State.vStreamIn (s : State) (v addr n : Nat) : List (Nat × Bool) × State :=
  let r := s.hbmBytes addr n
  (r.1, r.2.inc R.VCORE_HBM_BYTES v n)

/-- R217: bytes written to external memory by the stream engine, counted. -/
def State.vStreamOut (s : State) (v addr : Nat) (bs : List (Nat × Bool)) : State :=
  (s.hbmPut addr bs).inc R.VCORE_HBM_BYTES v bs.length

/-- R212, R214: `n` bytes, from byte `off`, of the record of a position in a context's page, `stride` bytes a record; hollow where the page or
the memory is, or where no page is allocated. -/
def State.kvGet (s : State) (v slot pos stride off n : Nat) : List (Nat × Bool) × State :=
  let e := s.ptEntry v slot (pos / 64)
  if !ptValid e || decide (s.rf R.VCORE_PT_ENTRIES v ≤ pos / 64) then (List.replicate n (0, true), s)
  else
    let r := s.vStreamIn v (ptAddr e * 256 + pos % 64 * stride + off) n
    (r.1.map fun b => (b.1, b.2 || ptHollow e), r.2)

/-! ### Rounding sites -/

/-- The context of a step: that of an active request whose stream the step's entry takes. -/
def State.kCtx (s : State) (w : List Nat) : Option (Nat × Ctx) :=
  match s.reqsOnStreams [wf_ w 0 0 16] with
  | [] => none
  | r :: _ => s.ctxs.find? fun c => c.1 = r.ctx % 65536

def State.kSeed (s : State) (w : List Nat) : Nat := ((s.kCtx w).map (·.2.seed)).getD 0
def State.kDet (s : State) (w : List Nat) : Bool := ((s.kCtx w).map (·.2.det)).getD false

/-- R120: the draws of site 0x05 of an operation, one for each lane. -/
def State.siteFive (s : State) (v : Nat) (k : KStep) (n : Nat) : List Rnd :=
  (draws (siteSeed (leBytes 8 (s.kSeed k.words) ++ [5] ++ leBytes 2 v ++ leBytes 4 k.ops)) n).map .sr

/-- R114: clamps counted. -/
def State.vClamps (s : State) (v n : Nat) : State :=
  s.when (decide (0 < n)) fun t => (t.inc R.VCORE_FP8_CLAMPS v n).setInt (vcorePage v) R.INT_VCORE_FP8_CLAMP

/-- The number that stands for a datum when a block is scaled: an infinity exceeds every format (R109). -/
def Fp.big : Fp → Dy
  | .inf n => { m := if n then -1 else 1, e := 300 }
  | x => x.dy

/-- The blocks written of values: their bytes, whether they saturated, whether one was out of range, each element's value written and
whether its residual is zero (R123), and the clamps counted (R114). -/
structure VBlocks where
  fmt : Nat
  bytes : List Nat
  climbed : Bool := false
  range : Bool := false
  got : List Dy := []
  zero : List Bool := []
  clamps : Nat := 0
deriving DecidableEq, Repr

/-- R107, R109, R114, R135: values written in blocks of a format code, climbing the ladder from BA4 and BA8 where `climb`. -/
def vBlocks (fmt xmax : Nat) (climb : Bool) (vs : List Fp) (ms : List Rnd) : VBlocks :=
  let n := (vs.length + 31) / 32
  let pad := List.replicate (n * 32 - vs.length)
  let vs := vs ++ pad (.fin false Dy.zero)
  let ms := ms ++ List.replicate (n * 32 - ms.length) .rne
  if fmt ≤ 2 then
    let (f, qs) := ladder xmax (chunks 32 n (vs.map Fp.big)) (chunks 32 n ms) (if climb then 2 else 0) fmt
    { fmt := f, bytes := qs.flatMap fun q => q.blk.bytes f, climbed := decide (fmt < f), range := qs.any (·.range),
      got := qs.flatMap (·.got), zero := qs.flatMap fun q => q.clamped.map (· || q.blk.x = 0) }
  else
    let qs := ((chunks 32 n vs).zip (chunks 32 n ms)).map fun p => mxQuant fmt p.1 p.2
    { fmt := fmt, bytes := qs.flatMap fun q => q.1.blk.bytes (layoutOf fmt), got := qs.flatMap (·.1.got),
      zero := qs.flatMap (·.1.clamped), clamps := (qs.map (·.2)).sum }

/-- R117, R123: the mode of `n` elements at a site whose default is SR: the draws of its seed, ties to even (1), toward zero (2), or ties to
even with error feedback. -/
def siteModes (mode seed n : Nat) (ef : Bool) : List Rnd :=
  if mode = 0 && !ef then (draws seed n).map .sr else List.replicate n (if mode = 2 then .rz else .rne)

/-- R123: step 4, and zero for an element clamped. -/
def efNext (u : Nat) (zero : Bool) (got : Dy) : Nat :=
  if zero then 0 else bf16.encode .rne false ((f32.decode u).dy.add got.neg)

/-- R123, R124, R126: the residuals of `us` stored at an SRAM offset, which the context is then known to use. -/
def State.efStore (s : State) (v ctx off : Nat) (es : List Nat) : State :=
  let s1 := s.each es.zipIdx fun t e => t.sramWrite v (off + 2 * e.2) 2 e.1
  let x := s1.vcSt v
  let us := (List.range es.length).map fun i => (ctx, off + 2 * i)
  s1.setVc v { x with resids := x.resids.filter (fun u => !us.contains u) ++ us }

/-- The residuals at an SRAM offset, as FP32. -/
def State.efLoad (s : State) (v off n : Nat) : List Nat := (List.range n).map fun i => s.sramRead v (off + 2 * i) 2 * 65536

/-- R126: the residuals that contexts keep on a V-core are lost: the contexts that had any. -/
def State.vResidCtxs (s : State) (v : Nat) : List Nat :=
  (((s.vcSt v).resids.filter fun u => s.sramRead v u.2 2 ≠ 0).map (·.1)).eraseDups

/-! ### Operations -/

/-- R206: a block quantised into SRAM inside an operation, at site 0x05; a hollow or, in a block format, a NaN element makes it hollow. -/
def State.vQuant (s : State) (v : Nat) (k : KStep) (fmt xmax : Nat) (sr : Bool) (a half off : Nat) : State :=
  let ls := (((s.vcSt v).reg a).drop (32 * (half % 2))).take 32
  let fs := ls.map fun l => f32.decode l.1
  let h := ls.any (·.2) || (decide (fmt ≤ 2) && fs.any (· == .nan))
  let b := vBlocks fmt xmax false fs (if sr then s.siteFive v k 32 else List.replicate 32 .rne)
  (s.vPut v off (b.bytes.map fun y => (y, h))).vClamps v (if h then 0 else b.clamps)

/-- R104, R105, R113: a block read into FP32 lanes; a scale of 0xFF or a value that a block format does not hold makes them hollow. -/
def State.vDequant (s : State) (v : Nat) (k : KStep) (fmt d half : Nat) (src : VSrc) : State :=
  let bs := s.vBytes v k src (vBlockBytes fmt)
  let raw := bs.map (·.1)
  let h := bs.any (·.2) || (decide (fmt ≤ 2) && (Block.read fmt raw).poison fmt)
  s.setVc v ((s.vcSt v).setLanes d (32 * (half % 2)) ((vBlock fmt raw).map fun e => (e.f32, h)))

/-- R115: a block converted between BA4 or BA8 and MXINT8 in SRAM. -/
def State.vRescale (s : State) (v fmt src dst : Nat) : State :=
  let bs := s.vGet v src (vBlockBytes fmt)
  let b := Block.read (layoutOf fmt) (bs.map (·.1))
  let h := bs.any (·.2) || b.x = 0xFF
  let out := if fmt = 8 then (baOfMx b).bytes 1 else (mxOfBa b fmt).bytes 1
  s.vPut v dst (out.map fun y => (y, h))

/-- R211: the scalar control unit takes a lane; of hollow data it takes zero and taints the step. -/
def State.vCtl (s : State) (v a lane : Nat) : State :=
  let x := s.vcSt v
  let l := x.lane a lane
  (s.setVc v { x with ctl := if l.2 then 0 else l.1 }).when l.2 fun t => t.wf R.VCORE_TAINTED v 1

/-- R215: one page of an attention step: its unmasked positions' scaled scores and values. -/
def State.attnRead (s : State) (v : Nat) (t : Attn) (q : List (Nat × Bool)) (ps : List Nat) :
    List (Nat × List Nat) × Bool × State :=
  let kf := if t.fmt ≤ 1 then 8 else t.fmt
  let bb := vBlockBytes t.fmt
  ps.foldl (fun (r : List (Nat × List Nat) × Bool × State) pos =>
    let (kb, s1) := r.2.2.kvGet v t.slot pos t.stride t.kOff (t.nb * bb)
    let (vb, s2) := s1.kvGet v t.slot pos t.stride t.vOff (t.nb * bb)
    let ks := (chunks bb t.nb (kb.map (·.1))).map fun c =>
      if t.fmt ≤ 1 then (mxOfBa (Block.read t.fmt c) t.fmt).bytes 1 else c
    let qs := chunks (vBlockBytes kf) t.nb (q.map (·.1))
    let score := (ks.zip qs).foldl (fun acc c => tileDot kf acc c.2 c.1) 0
    let vals := ((chunks bb t.nb (vb.map (·.1))).flatMap (vBlock t.fmt)).map Fp.f32
    (r.1 ++ [(fmul score t.scale, vals)], r.2.1 || (kb ++ vb).any (·.2), s2)) ([], false, s)

/-- R215: an attention step of one query head: pages in ascending order, positions in ascending order within each; the output is the
accumulated value divided by the sum. -/
def State.attend (s : State) (v : Nat) (t : Attn) : State :=
  let kf := if t.fmt ≤ 1 then 8 else t.fmt
  let q := s.vGet v t.q (t.nb * vBlockBytes kf)
  let pages := (List.range ((t.len + 63) / 64)).map fun p =>
    (((List.range 64).map fun i => 64 * p + i).filter fun pos => pos < t.len && !t.masked.contains pos)
  let r := pages.foldl (fun (r : AttnSt × Bool × State) ps =>
    let (xs, h, u) := r.2.2.attnRead v t q ps
    (attnPage r.1 xs, r.2.1 || h, u)) (({ o := List.replicate (32 * t.nb) 0 } : AttnSt), q.any (·.2), s)
  let out := r.1.o.map fun x => (fdiv x r.1.sum, r.2.1)
  r.2.2.setVc v (((chunks 64 t.nb out).zipIdx).foldl (fun x c => x.setLanes (t.d + c.2) 0 c.1) (r.2.2.vcSt v))

/-- R238, R367: a send longer than its destination takes sends nothing and is counted as a failure of the step. -/
def State.vFailed (s : State) (v : Nat) : State := s.setVc v { s.vcSt v with failed := (s.vcSt v).failed + 1 }

/-- R210, R211, R238: a payload sent to a destination of the step's entry, hollow where a byte is or the step is tainted. -/
def State.vSendBytes (s : State) (v : Nat) (k : KStep) (dest seq fmt : Nat) (hollow : Bool) (bs : List Nat) : State :=
  let d := wf_ k.words 1 (16 * (dest % 2)) 16
  if d = 0xFFFF || bs.isEmpty then s
  else if payloadMax d < bs.length then s.vFailed v
  else s.vSend v (vPip v k.words k.pips d seq fmt (hollow || s.rb R.VCORE_TAINTED v) bs)

/-- R439: an F16B element clamped: the step is reported to Oasis and the requests whose data it carries are noted. -/
def State.vRange (s : State) (v : Nat) (k : KStep) : State :=
  let st := wf_ k.words 0 0 16
  let s1 := s.notice st 4
  s1.each (s1.reqsOnStreams [st]) fun t r => t.setReq r.id fun q => { q with notes := q.notes ||| 64 }

/-- R109, R117, R123, R135: a send of lanes, requantised at site 0x02. A pip with a hollow lane, with a NaN in a block format, or with a value
that error feedback does not round, is hollow. -/
def State.vSendLanes (s : State) (v : Nat) (k : KStep) (o : VSend) : State :=
  let ls := (o.regs.flatMap (s.vcSt v).reg).take o.n
  let vals := ls.map (·.1)
  let hol := ls.any (·.2)
  if o.fmt = 3 then s.vSendBytes v k o.dest o.seq 3 hol (vals.flatMap (leBytes 4))
  else if o.fmt = 4 then s.vSendBytes v k o.dest o.seq 4 hol (vals.flatMap fun a => leBytes 2 (bf16.ofFp .rne (f32.decode a)))
  else if 8 < o.fmt then s
  else
    let w := k.words
    let nb := (vals.length + 31) / 32
    let ef := s.kDet w && o.mode = 0 && o.resid.isSome
    let off := o.resid.getD 0
    let us := if ef then (vals.zip (s.efLoad v off vals.length)).map fun p => efSum p.1 p.2 else vals
    let bad := (decide (o.fmt ≤ 2) && vals.any fnan) || (ef && vals.any fun a => !ffinite a)
    if hol || bad || s.rb R.VCORE_TAINTED v then
      let s1 := s.vSendBytes v k o.dest o.seq o.fmt true (List.replicate (nb * vBlockBytes o.fmt) 0)
      if ef && !hol then
        s1.each vals.zipIdx fun t e => if ffinite e.1 then t else t.sramWrite v (off + 2 * e.2) 2 0
      else s1
    else
      let seed := siteSeed (leBytes 8 (s.kSeed w) ++ [2] ++ leBytes 2 v ++ leBytes 2 (kOutStream w) ++ leBytes 2 o.seq)
      let b := vBlocks o.fmt o.xmax true (us.map f32.decode) (siteModes o.mode seed vals.length ef)
      let s1 := (s.vSendBytes v k o.dest o.seq b.fmt false b.bytes).vClamps v b.clamps
      let s2 := s1.when b.climbed fun t => t.setVc v { t.vcSt v with widened := (t.vcSt v).widened + 1 }
      let s3 := s2.when b.range fun t => t.vRange v k
      if ef then
        s3.efStore v (((s.kCtx w).map (·.1)).getD 0) off
          ((us.zipIdx).map fun u => efNext u.1 (b.zero.getD u.2 false) (b.got.getD u.2 Dy.zero))
      else s3

/-- R206: the operation carried out for the running step `k`. -/
def State.vOpOn (s : State) (v : Nat) (k : KStep) : VOp → State
  | .load d src =>
    let bs := s.vBytes v k src 256
    s.setVc v ((s.vcSt v).setLanes d 0 ((chunks 4 64 bs).map fun c => (ofBytes (c.map (·.1)), c.any (·.2))))
  | .store a off idx =>
    let x := s.vcSt v
    s.vPut v (off + x.base idx) ((x.reg a).flatMap fun l => (leBytes 4 l.1).map fun b => (b, l.2))
  | .dequant fmt d half src => s.vDequant v k fmt d half src
  | .quant fmt xmax sr a half off => s.vQuant v k fmt xmax sr a half off
  | .rescale fmt src dst => s.vRescale v fmt src dst
  | .tile fmt a b =>
    let n := tileBytes fmt
    s.setVc v ((s.vcSt v).tileMac fmt (chunks n 32 (s.vGet v a (32 * n))) (chunks n 32 (s.vGet v b (32 * n))))
  | .ctl a lane => s.vCtl v a lane
  | .stream true addr off n idx => s.vStreamOut v (addr / 64 * 64 + (s.vcSt v).base idx / 64 * 64) (s.vGet v off (64 * n))
  | .stream false addr off n idx =>
    let r := s.vStreamIn v (addr / 64 * 64 + (s.vcSt v).base idx / 64 * 64) (64 * n)
    r.2.vPut v off r.1
  | .kvRead slot pos stride off n dst =>
    let r := s.kvGet v slot pos stride off n
    r.2.vPut v dst r.1
  | .attend t => s.attend v t
  | .send o => s.vSendLanes v k o
  | .sendRaw dest seq fmt off n =>
    let bs := s.vGet v off n
    s.vSendBytes v k dest seq fmt (bs.any (·.2)) (bs.map (·.1))
  | op =>
    let r := (s.vcSt v).compute (s.siteFive v k 64) op
    (s.setVc v r.1).vClamps v r.2

/-- R120: an operation of the running step, and its operation counter. -/
def State.vOp (s : State) (v : Nat) (op : VOp) : State :=
  match (s.vcSt v).step with
  | none => s
  | some k =>
    let t := s.vOpOn v k op
    t.setVc v { t.vcSt v with step := some { k with ops := k.ops + 1 } }

end Sys2Proof.Machine
end

