-- ==== Sys2Proof/Machine/VCore.lean ====
section
/-! DEFINITION. The vector cores: the firing rule (R209, R210), KV commands and writes (R213, R214), sampling (R216) and stand-in
service (R218, R219). -/

namespace Sys2Proof.Machine

/-! ### Sending -/

/-- The first waiting pip whose channel has none before it and that the credits allow is injected. -/
def State.vInject (s : State) (v : Nat) : List Pip → List Pip → Option State
  | _, [] => none
  | before, p :: rest =>
    if before.any fun q => q.dest = p.dest && q.stream = p.stream then s.vInject v (before ++ [p]) rest
    else
      let x := s.vcSt v
      let have_ := x.held p.dest p.stream
      match s.inject v p have_ with
      | (some t, _) =>
        let y := t.vcSt v
        some (t.setVc v ({ y with outq := before ++ rest }.setHeld p.dest p.stream
          (have_ - pipCredits p.payload.length)))
      | (none, _) => s.vInject v (before ++ [p]) rest

/-- R210, R238: a V-core's pip/credit unit sends, or asks for what its first waiting pip lacks. -/
def State.pipSendV (s : State) (v : Nat) : State :=
  let x := s.vcSt v
  match s.vInject v [] x.outq with
  | some t => t
  | none =>
    match x.outq with
    | [] => s
    | p :: _ => (s.inject v p (x.held p.dest p.stream)).2

/-! ### Firing, R209 -/

/-- R209 condition 4, and the gates of R467. -/
def State.vMayFire (s : State) (v : Nat) : Bool :=
  s.rb R.VCORE_RUN v && !s.coreFenced v && !s.inReset (.core v) && !s.fireGated (.core v)

/-- R209 conditions 1 and 5: the oldest complete set of each entry: arrival of its last pip, entry, set index. -/
def State.vReady (s : State) (v : Nat) : List (Nat × Nat × Nat) :=
  (List.range (s.rf R.VCORE_KTAB_COUNT v)).filterMap fun d =>
    match oldestSet (completeSets (kInPips (s.kernWords v d)) (s.buf v d).pips) with
    | none => none
    | some (a, n) => some (a, d, n)

/-- R209 condition 3: the credits of a step on each destination; a malformed entry runs no step. -/
def kNeeds (w : List Nat) : List (Nat × Nat) :=
  if kMalformed w then [] else joinNeeds ((kDests w).map fun d => (d, pipCredits (kOutMax w)))

/-- R209: a step of entry `d` fires on set `n` and begins its operations; a malformed entry runs nothing and sends a hollow pip to each valid
destination. -/
def State.vFire (s : State) (v d n : Nat) (ops : List VOp) : State :=
  let w := s.kernWords v d
  let b := s.buf v d
  let taken := setPips (kInPips w) n b.pips
  let ps := taken.map (s.bufGet v)
  let s1 := s.setBuf v d { b with pips := b.pips.filter fun p => !taken.contains p }
  if kMalformed w then
    let s2 := s1.each ((kDests w).filter fun t => !destReserved t) fun t dest => t.vSend v (vPip v w ps dest n 0 true [])
    (s2.freeSet v d ps).blockErr (vcorePage v) 0x10 d (kLayer w) (2 ^ R.INT_VCORE_BAD_KERNEL)
  else
    let needs := kNeeds w
    let s2 := ((s1.reserve v (kOutStream w) needs).inc R.VCORE_STEPS v).wf R.VCORE_LAST_FIRE_STAMP v s.now
    let x := s2.vcSt v
    let y := needs.foldl (fun (y : VcSt) r => y.setHeld r.1 (kOutStream w) (y.held r.1 (kOutStream w) + r.2)) x
    let s3 := (s2.setVc v { y with step := some { entry := d, words := w, pips := ps, n := n, firedAt := s.elapsed } }).wf
      R.VCORE_TAINTED v 0
    s3.each ops fun t o => t.vOp v o

/-- R209: the oldest ready set whose credits are held fires; a set that waits for credits asks for them. -/
def State.kernelFire (s : State) (v : Nat) (ops : List VOp) : State :=
  let x := s.vcSt v
  if !s.vMayFire v || x.step.isSome || (!x.standins.isEmpty && s.rb R.VCORE_STANDIN_EN v) then s
  else
    let all := s.vReady v
    let paid := all.filter fun r =>
      let w := s.kernWords v r.2.1
      s.haveCredits v (kOutStream w) (kNeeds w)
    match firstReady paid with
    | some (_, d, n) => s.vFire v d n ops
    | none => match firstReady all with
      | none => s
      | some (_, d, _) => s.askCredits v (kOutStream (s.kernWords v d)) (kNeeds (s.kernWords v d))

/-- R210: credits reserved for a destination and not needed by the pips that wait are given back. -/
def State.vReturn (s : State) (v stream : Nat) (dests : List Nat) : State :=
  s.each dests fun t d =>
    let x := t.vcSt v
    let need := (x.outq.filter fun p => p.dest = d && p.stream = stream).foldl (fun a p => a + pipCredits p.payload.length) 0
    let h := x.held d stream
    (t.unreserve v stream [(d, h - min h need)]).setVc v (x.setHeld d stream (min h need))

/-- R210, R211: the running step carries out the rest of its operations and ends; its set and its unused credits are freed. -/
def State.kernelEnd (s : State) (v : Nat) (ops : List VOp) : State :=
  match (s.vcSt v).step with
  | none => s
  | some k =>
    let s1 := s.each ops fun t o => t.vOp v o
    let s2 := (s1.freeSet v k.entry k.pips).vReturn v (kOutStream k.words) (kDests k.words)
    (s2.setVc v { s2.vcSt v with step := none }).wf R.VCORE_TAINTED v 0

/-- R210: engine cycles a step is allowed. -/
def State.kernelLimit (s : State) (v : Nat) (k : KStep) : Nat :=
  if kMaxCycles k.words = 0 then s.rf R.VCORE_KERNEL_LIMIT v else kMaxCycles k.words

/-- R210: the running step has run its cycles: KERNEL_OVERRUN, once; the step goes on. The answer says it happened now. -/
def State.kernelOverrun (s : State) (v : Nat) : Bool × State :=
  let x := s.vcSt v
  match x.step with
  | none => (false, s)
  | some k =>
    if k.overrun || decide (s.cycles v (s.elapsed - k.firedAt) < s.kernelLimit v k) then (false, s)
    else (true, (s.setVc v { x with step := some { k with overrun := true } }).blockErr (vcorePage v) 0x14 k.entry
      (kLayer k.words) (2 ^ R.INT_VCORE_KERNEL_OVERRUN))

/-! ### KV commands, R213 -/

def scorePage (ck : Nat) : Page := { blk := 0x15, inst := ck }

/-- The page table of a slot lies in the V-core's SRAM. -/
def State.kvSlotOk (s : State) (v slot : Nat) : Bool :=
  let e := s.rf R.VCORE_PT_ENTRIES v
  decide (0 < e) && decide (s.ptOff v slot e ≤ sramSize 1)

/-- R224: the reply to a KV command: KV_RESULT 0 OK, 1 REFUSED, 2 BAD_SLOT, 3 NO_TARGET; a release that a closing
context queued (0xFFFF) has none. -/
def State.kvReply (s : State) (score r : Nat) : State :=
  if score = 0xFFFF then s else (s.wf R.LCB_KV_RESULT score r).wf R.LCB_KV_GO score 0

/-- R224: KV_GO: the command goes to the target V-core, or is answered NO_TARGET where the target is no V-core present. -/
def State.kvGo (s : State) (ck : Nat) : State :=
  let v := s.rf R.LCB_KV_TARGET ck
  let c : KvCmd := { score := ck, op := s.rf R.LCB_KV_OP ck, slot := s.rf R.LCB_KV_SLOT ck, slot2 := s.rf R.LCB_KV_SLOT2 ck,
                     count := s.rf R.LCB_KV_COUNT ck }
  if v / 64 < 32 ∧ v % 64 < 60 ∧ kindOfLogical (v % 64) = 1 ∧ s.vPresent v then
    let x := s.vcSt v
    ((s.wf R.LCB_KV_GO ck 1).mesh 10 v [ck, c.op, c.slot, c.slot2, c.count]).setVc v { x with kvq := x.kvq ++ [c] }
  else s.kvReply ck 3

/-- R213: the V-core carries out the first waiting command when it is of the kind `op`, between steps; a gated domain accepts
none (R467). -/
def State.kvCommand (s : State) (v op : Nat) : State :=
  let x := s.vcSt v
  match x.kvq with
  | [] => s
  | c :: rest =>
    if c.op ≠ op ∨ x.step.isSome ∨ s.fireGated (.core v) ∨ s.inReset (.core v) then s
    else
      let s1 := s.setVc v { x with kvq := rest }
      if !s.kvSlotOk v c.slot || (op = 2 && !s.kvSlotOk v c.slot2) then s1.kvReply c.score 2
      else if op = 0 then
        let (ok, t) := s1.kvReserve v c.slot c.count
        t.kvReply c.score (bit !ok)
      else if op = 1 then (s1.kvRelease v c.slot).kvReply c.score 0
      else if s.rf R.VCORE_PT_ENTRIES v < c.count then s1.kvReply c.score 1
      else
        let (ok, t) := s1.kvShare v c.slot c.slot2 c.count
        t.kvReply c.score (bit !ok)

/-- R117 site 0x03, R123: the bytes of one KV head at a position by SR (0) or RNE (1), whether they are hollow, and the state with the residuals stored. -/
def State.kvPart (s : State) (v pos mode : Nat) (k : KStep) (o : KvPart) : List Nat × Bool × State :=
  let ls := (o.regs.flatMap (s.vcSt v).reg).take o.n
  let vals := ls.map (·.1)
  let w := k.words
  let ef := s.kDet w && mode = 0 && o.resid.isSome
  let off := o.resid.getD 0
  let us := if ef then (vals.zip (s.efLoad v off vals.length)).map fun p => efSum p.1 p.2 else vals
  let hol := ls.any (·.2) || vals.any fun a => fnan a || (ef && !ffinite a)
  let seed := siteSeed (leBytes 8 (s.kSeed w) ++ [3] ++ leBytes 2 (kLayer w) ++ leBytes 4 pos ++ leBytes 2 o.head)
  let b := vBlocks o.fmt 0xFE false (us.map f32.decode) (siteModes (mode % 2) seed vals.length ef)
  let s1 := s.vClamps v (if hol then 0 else b.clamps)
  (b.bytes, hol, if ef && !hol then
      s1.efStore v (((s.kCtx w).map (·.1)).getD 0) off
        ((us.zipIdx).map fun u => efNext u.1 (b.zero.getD u.2 false) (b.got.getD u.2 Dy.zero))
    else s1)

/-- R117, R213, R214: a KV write of the running step: the keys and values of one position, quantised head by head, from byte `off` of its
page. -/
def State.kvWriteStep (s : State) (v slot pos off mode : Nat) (parts : List KvPart) : State :=
  match (s.vcSt v).step with
  | none => s
  | some k =>
    let r := parts.foldl (fun (r : List Nat × Bool × State) o =>
      let (bs, h, t) := r.2.2.kvPart v pos mode k o
      (r.1 ++ bs, r.2.1 || h, t)) ([], false, s)
    let fit := r.1.take (s.rf R.VCORE_PAGE_UNITS v * 256 - off)
    let (ok, t) := r.2.2.kvWrite v slot pos off fit r.2.1
    t.when ok fun u => u.inc R.VCORE_HBM_BYTES v fit.length

/-! ### Sampling -/

/-- R216: the sampling V-core's running step selects the token at a position of a request, from `n` FP32 logits at an SRAM offset, and sends
it to the entry's first destination; without a valid choice, or from hollow logits, the pip is hollow. -/
def State.sample (s : State) (v id pos off n : Nat) : State :=
  match (s.vcSt v).step, s.reqs.find? fun r => r.id = id with
  | some k, some r =>
    let seed := (((s.ctxs.find? fun c => c.1 = r.ctx % 65536).map (·.2.seed))).getD 0
    let bs := s.vGet v off (4 * n)
    let logits := (chunks 4 n (bs.map (·.1))).map ofBytes
    let tok := if bs.any (·.2) then none else sampleToken logits r.greedy r.temp r.topP r.topK seed pos
    match kDests k.words with
    | [] => s
    | d :: _ => s.vSend v (vPip v k.words k.pips d pos 3 (tok.isNone || s.rb R.VCORE_TAINTED v)
        (leBytes 4 (tok.getD 0) ++ leBytes 4 pos))
  | _, _ => s

/-! ### Stand-ins -/

/-- R185, R218: the request of a held tile that has been sent to its V-core. -/
def State.standinOf (s : State) (ck id n : Nat) : Option Standin :=
  match s.stepOf ck id with
  | none => none
  | some x =>
    if (x.engs.any fun e => e.eng = n && e.state = 2) || x.checks.any (fun c => c.eng = n && c.path ≠ 1) then
      let e := engInst ck n
      let v := (inputVector x.pips).1
      let p := s.progSt e
      let spare := (p.running.toList ++ p.queued.toList ++ p.owed.toList ++ p.owed2.toList).find? fun o => o.epochs.contains (x.epoch % 4)
      let b := (s.epochBank e x.epoch).getD 0
      let (a, f, c) := match spare with
        | some o => (o.src, o.fmt, o.crc)
        | none => (s.rf (jsrcF b) e, s.rf (jfmtF b) e, s.rf (jcrcF b) e)
      some { mcore := ck, step := id, eng := n, els := engSegment x.words n v, xref := x.xref, firstRow := dFirst x.words,
             quarters := dQuarters x.words, wfmt := dWfmt x.words, addr := a, fmt := f, crc := c }
    else none

/-- R218: a stand-in request arrives and queues, or waits in the mesh: the queue holds 16 beside the one being served, and a gated domain takes none. -/
def State.standinRequest (s : State) (v ck id n : Nat) : State :=
  let x := s.vcSt v
  match s.standinOf ck id n with
  | none => s
  | some q =>
    if 16 + bit (s.standinActive v) ≤ x.standins.length ∨ s.fireGated (.core v) ∨ s.inReset (.core v) ∨
        s.vc.any (fun y => y.2.standins.any fun z => z.mcore = ck && z.step = id && z.eng = n) then s
    else s.setVc v { x with standins := x.standins ++ [q] }

/-- R219: the slice sums of a tile, exactly. -/
def standinSums (q : Standin) (image : List Nat) : List Dy :=
  let nb := imageRowBytes q.fmt
  (q.els.zipIdx).foldl (fun acc e =>
    let ds := rowDigits q.fmt ((image.drop (nb * (q.firstRow + e.2))).take nb)
    if e.1.1 = 0 then acc
    else (acc.zip ds).map fun a => a.1.add { m := e.1.1 * a.2, e := (e.1.2 : Int) - q.xref })
    (List.replicate 256 Dy.zero)

/-- R219: the channel values, in units of 1/16 rounded once. -/
def standinVals (q : Standin) (image : List Nat) : List Int :=
  let ss := standinSums q image
  (List.range 4).flatMap fun k => if q.quarters.testBit k then
    (quarterChannels q.wfmt k).map fun j =>
      let d := if q.wfmt = 0 then ((ss.getD (2 * j + 1) Dy.zero).shift 2).add (ss.getD (2 * j) Dy.zero) else ss.getD j Dy.zero
      d.roundAt (-4) .rne
  else []

/-- R218, R219: the first waiting request is served: its image streamed and checked, the values returned, or failure. -/
def State.standinDone (s : State) (v : Nat) : State :=
  let x := s.vcSt v
  match x.standins with
  | [] => s
  | q :: rest =>
    if x.step.isSome ∨ !s.rb R.VCORE_STANDIN_EN v ∨ s.coreFenced v ∨ s.inReset (.core v) then s
    else
      let (bs, h, s1) := s.hbmCodewords q.addr (imageBytes q.fmt / 64)
      let s2 := (s1.inc R.VCORE_HBM_BYTES v (imageBytes q.fmt)).setVc v { x with standins := rest }
      if !h && crc32c bs = q.crc then
        (s2.inc R.VCORE_STANDIN_TILES v).mesh 8 q.mcore
          ([q.step, q.eng, 1] ++ (standinVals q bs).map (fieldOfInt 40))
      else
        ((s2.inc R.VCORE_STANDIN_FAILED v).blockErr (vcorePage v) 0x13 q.addr q.eng (2 ^ R.INT_VCORE_STANDIN_FAILED)).mesh 8
          q.mcore [q.step, q.eng, 0]

/-! ### Commands -/

/-- KERNEL_STEP_FIRE, R209. -/
def execKernelStepFire (k : KernelRun) (s : State) : Host.Outcome State Fault Refusal := .next (s.kernelFire k.core k.ops)

/-- KV_WRITE, R214. -/
def execKvWrite (v slot pos off mode : Nat) (parts : List KvPart) (s : State) : Host.Outcome State Fault Refusal :=
  .next (s.kvWriteStep v slot pos off mode parts)

/-- KV_RESERVE, R213. -/
def execKvReserve (v : Nat) (s : State) : Host.Outcome State Fault Refusal := .next (s.kvCommand v 0)

/-- KV_RELEASE, R213. -/
def execKvRelease (v : Nat) (s : State) : Host.Outcome State Fault Refusal := .next (s.kvCommand v 1)

/-- KV_SHARE, R213. -/
def execKvShare (v : Nat) (s : State) : Host.Outcome State Fault Refusal := .next (s.kvCommand v 2)

/-- STANDIN_REQUEST, R218. -/
def execStandinRequest (v ck id n : Nat) (s : State) : Host.Outcome State Fault Refusal := .next (s.standinRequest v ck id n)

/-- STANDIN_DONE, R219. -/
def execStandinDone (v : Nat) (s : State) : Host.Outcome State Fault Refusal := .next (s.standinDone v)

/-- SAMPLE_TOKEN, R216. -/
def execSampleToken (v id pos off n : Nat) (s : State) : Host.Outcome State Fault Refusal :=
  .next (s.sample v id pos off n)

end Sys2Proof.Machine
end

