-- ==== Sys2Proof/Machine/Mesh.lean ====
section
/-! DEFINITION. The mesh: pips received (R243, R245, R248), credits (R241, R242), responses (R244), link protection (R234), map
switches (R247), clocks and the seam (R23 to R25, R253), distances (R249 to R251). -/

namespace Sys2Proof.Machine

/-! ### Clocks -/

/-- The logical core a physical core carries by the active map. -/
def State.logicalOf (s : State) (pc : Nat) : Option Nat :=
  ((List.range 60).map fun k => pc / 64 * 64 + k).find? fun ck => !s.isAbsent ck && s.physOf ck = pc

/-- R25: a step runs on the physical core. -/
def State.stepRuns (s : State) (pc : Nat) : Bool :=
  match s.logicalOf pc with
  | none => false
  | some ck =>
    if kindOfLogical (ck % 64) = 0 then (s.mcSt ck).steps.any fun x => !x.done
    else if kindOfLogical (ck % 64) = 1 then (s.vcSt ck).step.isSome
    else false

/-- A core clock in force. -/
def State.setCoreClock (s : State) (pc mhz : Nat) : State :=
  { s with clk := { s.clk with core := Tbl.putD s.clk.core 1750 pc mhz, corePend := Tbl.del s.clk.corePend pc } }

/-- R25: a setting ordered for a physical core: at once, or between two steps. -/
def State.orderCoreClock (s : State) (pc mhz : Nat) : State :=
  if s.stepRuns pc then { s with clk := { s.clk with corePend := Tbl.put s.clk.corePend pc mhz } }
  else s.setCoreClock pc mhz

/-- R25: between two steps of a core, the newest setting ordered is applied. -/
def State.clockPoint (s : State) (ck : Nat) : State :=
  let pc := s.physOf ck
  match Tbl.get? s.clk.corePend pc with
  | none => s
  | some m => if s.stepRuns pc then s else s.setCoreClock pc m

/-- R255, R258: the marks of a held half. -/
def State.markHeld (s : State) (half : Nat) (b : Bool) : State :=
  let s1 := s.each (List.range 512) fun t r => if halfOfRouter r = half then t.wf R.ROUTER_HELD r (bit b) else t
  s1.each (List.range 16) fun t r => t.wf (if half = 0 then R.SEAM_WEST_HELD else R.SEAM_EAST_HELD) r (bit b)

def State.meshMhz (s : State) (half : Nat) : Nat := s.clk.mesh.getD half 1500

/-- R25: a setting ordered for a mesh half: its routers are held for it; behind a change in progress only the newest waits. -/
def State.orderMeshClock (s : State) (half mhz : Nat) : State :=
  if (Tbl.get? s.clk.hold half).isSome then { s with clk := { s.clk with next := Tbl.put s.clk.next half mhz } }
  else if s.meshMhz half = mhz then s
  else ({ s with clk := { s.clk with hold := Tbl.put s.clk.hold half mhz } }).markHeld half true

def ceilDiv (a b : Nat) : Nat := (a + b - 1) / b

/-- R253: the allotments of a crossing at sending and receiving clocks: pip, request, response, management. -/
def allotments (fs fr : Nat) : List Nat :=
  let n := min fs fr * (fs + fr)
  let d := fs * fr
  [ceilDiv (5 * n) d, ceilDiv (2 * n) d, ceilDiv (2 * n) d, max 2 (ceilDiv n d)]

/-- R253: every crossing rescaled at the clocks in force. -/
def State.rescale (s : State) : State :=
  let fw := s.meshMhz 0
  let fe := s.meshMhz 1
  let ew := allotments fw fe
  let we := allotments fe fw
  let f := min fw fe
  s.each (List.range 16) fun t r =>
    let t1 := ([R.SEAM_EW_PIP, R.SEAM_EW_REQ, R.SEAM_EW_RESP, R.SEAM_EW_MGMT].zip ew).foldl (fun u x => u.wf x.1 r x.2) t
    let t2 := ([R.SEAM_WE_PIP, R.SEAM_WE_REQ, R.SEAM_WE_RESP, R.SEAM_WE_MGMT].zip we).foldl (fun u x => u.wf x.1 r x.2) t1
    (((t2.wf R.SEAM_ADDED_PS r (ceilDiv (24000000 - 16000 * f) (3 * f))).inc R.SEAM_RESCALES r).wf R.SEAM_RESCALE_STAMP r
      s.now).setInt (seamPage r) R.INT_SEAM_RESCALED

/-! ### Interface maps -/

/-- R247: a router makes its inactive bank active, sets MAP_VER and acknowledges. -/
def State.switchMap (s : State) (r ver : Nat) : State :=
  let s1 := ((s.wf R.ROUTER_MAP_BANK r (1 - s.rf R.ROUTER_MAP_BANK r)).wf R.ROUTER_MAP_VER r ver).setInt (routerPage r)
    R.INT_ROUTER_MAP_SWITCHED
  let m := s1.msh
  ({ s1 with msh := { m with acks := if m.acks.contains r then m.acks else r :: m.acks } }).mesh 9 0 [r, ver]

/-- R247: a MAP_SWITCH write reaches a router; one that is held for a clock change switches when the hold ends. -/
def State.mapSwitch (s : State) (r ver : Nat) : State :=
  if s.rb R.ROUTER_HELD r then { s with msh := { s.msh with mapPend := Tbl.put s.msh.mapPend r ver } }
  else s.switchMap r ver

/-- R247: Oasis broadcasts MAP_SWITCH. -/
def State.mapBroadcast (s : State) (ver : Nat) : State :=
  ({ s with msh := { s.msh with acks := [], switching := some ver } }).each (List.range 512) fun t r => t.mapSwitch r ver

def mapPhysF (j : Nat) : Field :=
  [R.ROUTER1_PHYS_0, R.ROUTER1_PHYS_1, R.ROUTER1_PHYS_2, R.ROUTER1_PHYS_3, R.ROUTER1_PHYS_4, R.ROUTER1_PHYS_5,
    R.ROUTER1_PHYS_6, R.ROUTER1_PHYS_7].getD j R.ROUTER1_PHYS_0

def mapAbsentF (j : Nat) : Field :=
  [R.ROUTER1_ABSENT_0, R.ROUTER1_ABSENT_1, R.ROUTER1_ABSENT_2, R.ROUTER1_ABSENT_3, R.ROUTER1_ABSENT_4,
    R.ROUTER1_ABSENT_5, R.ROUTER1_ABSENT_6, R.ROUTER1_ABSENT_7].getD j R.ROUTER1_ABSENT_0

/-- R247: an entry written into the inactive bank of every router. -/
def State.mapWriteAll (s : State) (ck phys : Nat) (absent : Bool) : State :=
  let m := ck / 64 * 60 + ck % 64
  s.each (List.range 512) fun t r =>
    let w := 240 * (1 - t.rf R.ROUTER_MAP_BANK r) + m / 8
    (t.wf (mapPhysF (m % 8)) r phys w).wf (mapAbsentF (m % 8)) r (bit absent) w

/-- The map entries that stand at another value than Init in one of the banks, or once did: entry of a word, router, word. -/
def State.mapListed (s : State) : List (Nat × Nat × Nat) :=
  s.regs.filterMap fun (c : Nat × Nat) =>
    ((List.range 8).find? fun j => (mapPhysF j).code = c.1 / 2 ^ 32 || (mapAbsentF j).code = c.1 / 2 ^ 32).map fun j =>
      (j, c.1 / 65536 % 65536, c.1 % 65536 % 240)

/-- R247: all acknowledgements have arrived: the switch is complete, and the new inactive bank is brought up to date. Entries not
listed stand at Init in both banks, where they are alike. -/
def State.mapComplete (s : State) : State :=
  if s.msh.switching.isSome ∧ 512 ≤ s.msh.acks.length then
    let s1 := { s with msh := { s.msh with switching := none, acks := [] } }
    s1.each s1.mapListed fun t e =>
      let b := t.rf R.ROUTER_MAP_BANK e.2.1
      (t.wf (mapPhysF e.1) e.2.1 (t.rf (mapPhysF e.1) e.2.1 (240 * b + e.2.2)) (240 * (1 - b) + e.2.2)).wf (mapAbsentF e.1) e.2.1
        (t.rf (mapAbsentF e.1) e.2.1 (240 * b + e.2.2)) (240 * (1 - b) + e.2.2)
  else s

/-- R25, R250, R253, R254, R247: the hold of a half ends: its clock is in force, the seam is rescaled, deferred switches take effect, the
flits that waited leave, and the newest setting that waited begins its own hold. -/
def State.clockHoldEnd (s : State) (half : Nat) : State :=
  match Tbl.get? s.clk.hold half with
  | none => s
  | some m =>
    let nx := Tbl.get? s.clk.next half
    let c := s.clk
    let s1 := (({ s with clk := { c with mesh := c.mesh.set half m, hold := Tbl.del c.hold half, next := Tbl.del c.next half } }).markHeld
      half false).rescale
    let mine := s1.msh.mapPend.filter fun p => halfOfRouter p.1 = half
    let s2 := { s1 with msh := { s1.msh with mapPend := s1.msh.mapPend.filter fun p => halfOfRouter p.1 ≠ half } }
    let s3 := s2.each mine fun t p => t.switchMap p.1 p.2
    let s4 := s3.forwardFlits (64 + 64 * s3.flitsHeld) (s3.waitingPorts fun _ => true)
    match nx with
    | none => s4
    | some x => s4.orderMeshClock half x

/-! ### Distances -/

/-- R250, R256: hops, seam and latency word from a router to another. -/
def State.distWord (s : State) (a b : Nat × Nat) : Nat × Bool × Nat :=
  (hopsBetween a b, decide (halfOfCol a.1 ≠ halfOfCol b.1), latencyPs a b (s.meshMhz 0) (s.meshMhz 1))

/-- R250: Q_HOPS, Q_SEAM, Q_VALID, Q_LAT_PS of a router's DIST_TARGET, resolved with the router's active map. -/
def State.distQuery (s : State) (r : Nat) : Nat × Bool × Bool × Nat :=
  let d := s.rf R.ROUTER_DIST_TARGET r
  let e := s.mapEntry r d
  if destLocal d ∧ !e.2 then
    let q := s.distWord (posOfRouter r) (routerOfPhys (d / 64) e.1)
    (q.1, q.2.1, true, q.2.2)
  else (0, false, false, 0)

/-! ### Pips received -/

/-- A core's UNMATCHED of R175 and R208: counted, captured, the credits returned, the S-cores told (R225). -/
def State.unmatched (s : State) (ck : Nat) (p : Pip) : State :=
  let s1 := if kindOfLogical (ck % 64) = 0 then
      (s.inc R.MCORE_UNMATCHED ck).blockErr (mcorePage ck) 0x12 p.stream p.seq (2 ^ R.INT_MCORE_UNMATCHED)
    else (s.inc R.VCORE_UNMATCHED ck).blockErr (vcorePage ck) 0x11 p.stream p.seq (2 ^ R.INT_VCORE_UNMATCHED)
  (s1.meshFrom ck 3 p.source (s.coreGen p.source) [p.dest, p.stream, pipCredits p.payload.length, s.coreGen ck]).notice p.stream 2

/-- R243: a pip dropped by GEN: counted, and answered with its credits in the new generation as far as the buffer reaches. A
reset in progress of the core's domain notes the stream (R471). -/
def State.genMismatch (s : State) (ck pc : Nat) (p : Pip) : State :=
  let s1 := s.genDrop (routerOfPhysCore pc) p.dest p.stream p.seq p.gen
  let note (x : ResetRec) : ResetRec :=
    if x.dom.contains (.core ck) && !x.streams.contains p.stream then { x with streams := x.streams ++ [p.stream] } else x
  let s2 := { s1 with rsts := s1.rsts.map note }
  match s2.matchBuf ck p.stream (some p.epoch) with
  | none => s2.meshFrom ck 3 p.source (s2.coreGen p.source) [p.dest, p.stream, 0, s2.coreGen ck]
  | some i =>
    let n := min (pipCredits p.payload.length) (s2.bufFree ck i)
    let b := s2.buf ck i
    (s2.setBuf ck i { b with used := b.used + n }).meshFrom ck 3 p.source (s2.coreGen p.source) [p.dest, p.stream, n, s2.coreGen ck]

def State.scSt (s : State) (ck : Nat) : ScSt := Tbl.getD s.sc ck {}
def State.setSc (s : State) (ck : Nat) (x : ScSt) : State := { s with sc := Tbl.put s.sc ck x }

/-- R224: a pip enters an S-core's receive queue. -/
def State.scoreReceive (s : State) (ck : Nat) (p : Pip) : State :=
  let h := s.rf R.LCB_RX_HEAD ck
  let x := s.scSt ck
  ((s.setSc ck { x with rx := x.rx.filter (fun e => e.1 ≠ h) ++ [(h, p)] }).wf R.LCB_RX_HEAD ck (h + 1)).inc
    R.SCORE_PIPS_RECEIVED ck

/-- R105, R106, R238, R243: a pip of the current generation is written into its buffer with the stamp of its tail flit. -/
def State.storePip (s : State) (ck : Nat) (p : Pip) : State :=
  let bad := pipPoison p && !p.hollow
  let q := { p with ingress := s.now, hollow := p.hollow || bad }
  let s1 := s.when bad fun t => t.unitEv 5 (corePage ck) 0 p.stream false
  if kindOfLogical (ck % 64) = 2 then s1.scoreReceive ck q
  else
    match s1.matchBuf ck p.stream (some p.epoch) with
    | none => s1.unmatched ck p
    | some i => s1.bufPut ck i q

/-- R246, R248: what the network interface of physical core `pc` makes of a logical destination by its router's active bank: the core it
carries (0), one to forward to (1), none (2). -/
def State.resolveAt (s : State) (pc dest : Nat) : Nat :=
  let e := s.mapEntry (routerOfPhysCore pc) dest
  if e.2 then 2 else if dest / 64 = pc / 64 && e.1 = pc % 64 then 0 else 1

/-- R243, R248: a pip's tail flit at the network interface of physical core `pc`. -/
def State.pipReceive (s : State) (p : Pip) (pc : Nat) (redirected : Bool) : State :=
  let r := routerOfPhysCore pc
  if !destLocal p.dest then s
  else if s.resolveAt pc p.dest ≠ 0 then
    if redirected || s.resolveAt pc p.dest = 2 then (s.genDrop r p.dest p.stream p.seq p.gen).notice p.stream 1
    else ((s.inc R.ROUTER_REDIRECTS r).setInt (routerPage r) R.INT_ROUTER_REDIRECT).mesh 6 p.dest (pipWords p)
  else if p.gen ≠ s.coreGen p.dest then s.genMismatch p.dest pc p
  else s.storePip p.dest p

/-! ### Credits -/

/-- R241, R243: credits reach a producer's channel. A message of another GEN discards what the channel held. -/
def State.takeCredits (s : State) (ck dest stream n gen : Nat) (grant : Bool) : State :=
  match s.chan ck dest stream with
  | none => if n = 0 then s else s.meshFrom ck 4 dest (s.coreGen ck) [ck, stream, n, gen]
  | some c =>
    let base := if c.gen = gen then c else { c with credits := 0, reserved := 0, gen := gen }
    s.setChan { base with credits := base.credits + n, usedAt := s.elapsed,
                          want := if grant then base.want - n else base.want, noBuf := none }

/-- R244: credits, which are responses, reach a producer that has the GEN of its request; with another they are dropped and counted. -/
def State.creditsFor (s : State) (ck dest stream n gen reqGen : Nat) (grant : Bool) : State :=
  if reqGen % 256 ≠ s.coreGen ck then s.genDrop (s.routerOfCore ck) 0 0 0 (reqGen % 256)
  else s.takeCredits ck dest stream n (gen % 256) grant

/-- R241: a refusal reaches a producer: an event-log record at the first, and the request again after 10 us. -/
def State.refused (s : State) (ck dest stream : Nat) : State :=
  match s.chan ck dest stream with
  | none => s
  | some c =>
    let s1 := s.when c.noBuf.isNone fun t => t.unitEv 6 (corePage ck) 0 stream false
    s1.setChan { c with noBuf := some (c.noBuf.getD s.elapsed), refusals := c.refusals + 1, retryAt := s.elapsed + 10000 }

/-- R241, R242: a credit request at a consumer's network interface: granted, queued, or refused NO_BUFFER. Those of a buffer's queue
beyond the 64th wait in the mesh, in their order. -/
def State.creditRequest (s : State) (r : CredReq) : State :=
  if !destLocal r.dest then s
  else
    match (if s.isAbsent r.dest then none else s.matchBuf r.dest r.stream none) with
    | none =>
      let s1 := s.meshFrom r.dest 5 (if r.slot = 0xFFFF then r.producer else 0x8000 + r.slot) r.rgen [r.dest, r.stream]
      if r.slot = 0xFFFF then s1.refused r.producer r.dest r.stream else s1
    | some i => s.takeRequest r.dest i r

/-- R241: released credits reach the consumer, in the generation they were granted in. -/
def State.creditRelease (s : State) (dest stream n gen : Nat) : State :=
  if !destLocal dest || s.isAbsent dest || decide (gen ≠ s.coreGen dest) then s
  else
    match s.matchBuf dest stream none with
    | none => s
    | some i =>
      let b := s.buf dest i
      (s.setBuf dest i { b with used := b.used - n }).serveQueue dest i (b.queue.length + 1)

/-- R242: a channel's credits unused for 100 us are released. -/
def State.creditIdle (s : State) (ck dest stream : Nat) : State :=
  match s.chan ck dest stream with
  | none => s
  | some c =>
    let n := c.credits - c.reserved
    if n = 0 ∨ s.elapsed < c.usedAt + 100000 then s
    else ({ s with chans := s.chans.map fun (x : Chan) =>
        if x.core = ck ∧ x.dest = dest ∧ x.stream = stream then { x with credits := x.reserved } else x }).meshFrom ck 4
          dest (s.coreGen ck) [ck, stream, n, c.gen]

/-- R241: a refused request repeated. -/
def State.noBufferRetry (s : State) (ck dest stream : Nat) : State :=
  match s.chan ck dest stream with
  | none => s
  | some c =>
    if c.noBuf.isSome ∧ c.retryAt ≤ s.elapsed then
      (s.setChan { c with retryAt := s.elapsed + 10000 }).meshFrom ck 1 dest (s.coreGen ck) [ck, stream, c.want, s.coreGen ck]
    else s

/-! ### Commands -/

/-- REEXEC_CHECK_DONE, R443. -/
def execReexecCheckDone (ck id n : Nat) (ok : Bool) (vals : List Int) (s : State) : Host.Outcome State Fault Refusal :=
  .next (((s.checkDone ck id n ok vals).creditWatch ck).clockPoint ck)

/-- SUB_STEP_END, R77, R84. -/
def execSubStepEnd (e : Nat) (noise : List Int) (s : State) : Host.Outcome State Fault Refusal :=
  .next ((((s.subStep e noise).tileDone e).creditWatch (engCore e)).clockPoint (engCore e))

/-- POST_UNIT_DONE, R196. -/
def execPostUnitDone (ck : Nat) (s : State) : Host.Outcome State Fault Refusal := .next (((s.postUnitDone ck).creditWatch ck).clockPoint ck)

/-- STANDIN_RESULT, R185. -/
def execStandinResult (ck id n : Nat) (ok : Bool) (vals : List Int) (s : State) : Host.Outcome State Fault Refusal :=
  .next (((s.standinResult ck id n ok vals).creditWatch ck).clockPoint ck)

/-- KERNEL_STEP_END, R210. -/
def execKernelStepEnd (v : Nat) (ops : List VOp) (s : State) : Host.Outcome State Fault Refusal := .next ((s.kernelEnd v ops).clockPoint v)

/-- PIP_RECEIVE, R243. -/
def execPipReceive (p : Pip) (pc : Nat) (redirected : Bool) (s : State) : Host.Outcome State Fault Refusal :=
  .next ((s.pipReceive p pc redirected).creditWatch p.dest)

/-- CREDIT_REQUEST, R241. -/
def execCreditRequest (producer : CredFrom) (dest stream n : Nat) (s : State) : Host.Outcome State Fault Refusal :=
  .next (s.creditRequest { producer := producer.core, dest := dest, stream := stream, n := n, rgen := producer.gen % 256 })

/-- CREDIT_GRANT, R241, R244. -/
def execCreditGrant (ck dest stream n : Nat) (g : CredGens) (s : State) : Host.Outcome State Fault Refusal :=
  .next ((s.creditsFor ck dest stream n g.gen g.reqGen true).creditWatch ck)

/-- CREDIT_RETURN, R242, R244. -/
def execCreditReturn (ck dest stream n : Nat) (g : CredGens) (s : State) : Host.Outcome State Fault Refusal :=
  .next ((s.creditsFor ck dest stream n g.gen g.reqGen false).creditWatch ck)

/-- CREDIT_RELEASE, R241. -/
def execCreditRelease (dest stream n gen : Nat) (s : State) : Host.Outcome State Fault Refusal :=
  .next (s.creditRelease dest stream n (gen % 256))

/-- CREDIT_IDLE, R242. -/
def execCreditIdle (ck dest stream : Nat) (s : State) : Host.Outcome State Fault Refusal := .next (s.creditIdle ck dest stream)

/-- NO_BUFFER_RETRY, R241. -/
def execNoBufferRetry (ck dest stream : Nat) (s : State) : Host.Outcome State Fault Refusal :=
  .next (s.noBufferRetry ck dest stream)

/-- MAP_SWITCH_COMPLETE, R247. -/
def execMapSwitchComplete (s : State) : Host.Outcome State Fault Refusal := .next s.mapComplete

/-- CLOCK_HOLD_END, R253. -/
def execClockHoldEnd (half : Nat) (s : State) : Host.Outcome State Fault Refusal := .next (s.clockHoldEnd (half % 2))

end Sys2Proof.Machine
end

