-- ==== Sys2Proof/Machine/Serving.lean ====
section
/-! DEFINITION. Serving: contexts (R286, R287), requests (R288 to R292), ring set-up (R297), activation of requests and turns (R299,
R300), positions and their ends (R301, R302), tenant accounts (R303 to R306), cancels, deadlines and drains (R307 to R316). -/

namespace Sys2Proof.Machine

/-! ### Tenant accounts, R303 to R305 -/

/-- BALANCE as a signed count. -/
def State.balance (s : State) (t : Nat) : Int := signedOf 48 (s.rf R.TENANT_BALANCE t)

/-- BALANCE set, saturating at -2^47. -/
def State.setBalance (s : State) (t : Nat) (b : Int) : State :=
  s.wf R.TENANT_BALANCE t (fieldOfInt 48 (max b (-(2 : Int) ^ 47)))

/-- R303: the account refilled to the present stamp. -/
def State.refill (s : State) (t : Nat) : State :=
  let n := s.rf R.TENANT_RATE t * 256 * (s.now - s.rf R.TENANT_LAST_REFILL t) + Tbl.getD s.rems t 0
  let b := s.balance t + (n / 1000000000 : Nat)
  let cap : Int := (s.rf R.TENANT_DEPTH t * 256 : Nat)
  let s1 := s.wf R.TENANT_LAST_REFILL t s.now
  if cap ≤ b then { s1.setBalance t cap with rems := Tbl.putD s1.rems 0 t 0 }
  else { s1.setBalance t b with rems := Tbl.putD s1.rems 0 t (n % 1000000000) }

/-- R304, R321: a debit of `n` positions or tokens after a refill. -/
def State.debit (s : State) (t n : Nat) (decode : Bool) : State :=
  let s1 := s.refill t
  let w := s1.rf (if decode then R.TENANT_DECODE_W else R.TENANT_PREFILL_W) t
  (s1.setBalance t (s1.balance t - (n * w : Nat))).inc (if decode then R.TENANT_DECODE_CHARGED else R.TENANT_PREFILL_CHARGED)
    t n

/-- R303: ENABLED rises: a full account from this stamp. -/
def State.accountEnable (s : State) (t : Nat) : State :=
  let s1 := (s.setBalance t (s.rf R.TENANT_DEPTH t * 256 : Nat)).wf R.TENANT_LAST_REFILL t s.now
  { s1 with rems := Tbl.putD s1.rems 0 t 0 }

/-- R303: new RATE and DEPTH after a refill at the old ones; BALANCE capped at the new DEPTH. -/
def State.accountRate (s : State) (t rate depth : Nat) : State :=
  let s1 := ((s.refill t).wf R.TENANT_RATE t rate).wf R.TENANT_DEPTH t depth
  let cap : Int := (s1.rf R.TENANT_DEPTH t * 256 : Nat)
  if cap < s1.balance t then s1.setBalance t cap else s1

/-- R305: the refilled balance lets the request dispatch; otherwise it is THROTTLED and passed over in this turn. -/
def State.mayDebit (s : State) (r : Req) : Bool × State :=
  let s1 := s.refill r.tenant
  if 0 ≤ s1.balance r.tenant then (true, s1.setReq r.id fun x => { x with state := rqActive })
  else (false, (((s1.setReq r.id fun x => { x with state := rqThrottled, notes := x.notes ||| noteThrottled }).inc
    R.TENANT_THROTTLES r.tenant).inc R.SERVE1_THROTTLE_SKIPS 0).setInt (tenantPage r.tenant) R.INT_TENANT_THROTTLED)

/-! ### Refusals -/

/-- R318, R321: what a refusal counts. -/
def State.countRefusal (s : State) (status tenant : Nat) : State :=
  let s1 := if status = stBusy then (s.inc R.SERVE_BUSY_REFUSALS 0).setInt (servePage 0) R.INT_SERVE_BUSY
    else s.inc R.SERVE_OTHER_REFUSALS 0
  if status = stNoTenant ∨ status = stTenantLimit then
    (s1.inc R.TENANT_REFUSED tenant).setInt (tenantPage tenant) R.INT_TENANT_REFUSED else s1

/-- A serving command refused with a status. -/
def State.refuseServe (s : State) (c : Cmd) (status id tenant : Nat) : State :=
  let s1 := s.countRefusal status tenant
  s1.reply c (s1.servingShort status id)

/-! ### Contexts -/

/-- The lowest context index not open. -/
def State.freeCtx (s : State) : Option Nat :=
  if 65536 ≤ s.ctxs.length then none
  else (List.range (s.ctxs.length + 1)).find? fun i => (Tbl.get? s.ctxs i).isNone

/-- The lowest state slot of a variant not in use and with no release under way. -/
def State.freeSlot (s : State) (v : Nat) : Option Nat :=
  let used := ((Tbl.vals s.ctxs).filter fun c => c.variant = v).map (·.slot) ++ (s.var v).place.kvCores.flatMap fun k =>
    ((Tbl.getD s.vc k {}).kvq.filter fun c => c.score = 0xFFFF).map (·.slot)
  if 16384 ≤ used.length then none else (List.range (used.length + 1)).find? fun i => !used.contains i

/-- R286 check 7: pages reserved on every V-core of the variant's KV, or none. -/
def State.reserveAll (s : State) (slot n : Nat) : List Nat → Option State
  | [] => some s
  | v :: rest =>
    match s.kvReserve v slot n with
    | (false, _) => none
    | (true, t) => t.reserveAll slot n rest

/-- R286: the first check that fails, or OK. -/
def State.ctxOpenCheck (s : State) (c : Cmd) : Nat :=
  let v := c.f 0 0 6
  let t := c.f 0 6 12
  let n := c.f 0 24 24
  if !s.rb R.SERVE_SERVE_EN 0 then stBusy
  else if s.vstate v ≠ vActive then stNoVariant
  else if s.rf R.SERVE2_HEAD 0 v = 0 then stNotHead
  else if !s.rb R.TENANT_ENABLED t then stNoTenant
  else if c.f 0 19 5 ≠ 0 ∨ c.f 0 48 16 ≠ 0 ∨ n % 64 ≠ 0 ∨ n = 0 ∨ s.rf R.SERVE2_MAX_POSITIONS 0 v < n then stBadParam
  else if c.b 0 18 ∧ s.rf R.SERVE2_DET_OK 0 v = 0 then stUnsupportedOption
  else if s.freeCtx.isNone ∨ (s.freeSlot v).isNone then stBusy
  else stOk

/-- CTX_OPEN's effect, R286. -/
def State.ctxOpen (s : State) (c : Cmd) : State :=
  let v := c.f 0 0 6
  let t := c.f 0 6 12
  let n := c.f 0 24 24
  let st := s.ctxOpenCheck c
  if st ≠ stOk then s.refuseServe c st 0 t
  else
    let i := s.freeCtx.getD 0
    let slot := (s.freeSlot v).getD 0
    match s.reserveAll slot (n / 64) (s.var v).place.kvCores with
    | none => s.refuseServe c stKvLimit 0 t
    | some s1 =>
      let (d, s2) := if c.w 1 = 0 then s1.draw 64 else (0, s1)
      let seed := if c.w 1 = 0 then d % (2 ^ 64 - 1) + 1 else c.w 1
      let reuse := Tbl.getD s2.ctxReuse i 0
      let s3 := ({ s2 with
        ctxReuse := Tbl.put s2.ctxReuse i ((reuse + 1) % 65536)
        ctxs := Tbl.put s2.ctxs i { reuse := reuse, variant := v, tenant := t, slot := slot, positions := n, seed := seed,
                                    det := c.b 0 18 } }).countServe v t
      s3.reply c (servingWords stOk 0 0 0 0 0 0 (reuse * 65536 + i) 0 0 0 t seed s3.now 0 0)

/-- R287: a context's pages, residual buffers, pooling slots, index and slot given up. -/
def State.ctxDrop (s : State) (handle : Nat) (x : Ctx) : State :=
  let s1 := s.releaseCtx x
  let s2 := s1.each ((s1.var x.variant).place.edges.map (·.1)).eraseDups fun t m => t.clearSlot m x.slot
  (({ s2 with ctxs := Tbl.del s2.ctxs (handle % 65536) }).clearVResids (handle % 65536)).countServe x.variant x.tenant

/-- CTX_CLOSE's effect, R287. -/
def State.ctxClose (s : State) (c : Cmd) : State :=
  let h := c.f 0 0 32
  match s.ctxOf h with
  | none => s.refuseServe c stNoContext 0 0
  | some x =>
    if x.req.isSome then s.refuseServe c stContextBusy 0 x.tenant
    else
      let s1 := s.ctxDrop h x
      s1.reply c (servingWords stOk 0 0 0 0 0 0 h x.len 0 0 x.tenant x.seed s1.now 0 0)

/-! ### SUBMIT -/

/-- R288: every field is valid for a variant of `vocab` tokens. -/
def submitFieldsOk (c : Cmd) (vocab : Nat) : Bool :=
  let stops := c.f 1 20 4
  let inl := c.f 1 24 8
  let n := c.f 4 32 32
  let t := f32.decode (c.f 3 0 32)
  let p := c.f 3 32 32
  c.f 1 17 3 = 0 && c.f 6 32 32 = 0 && decide (stops ≤ 8) && decide (inl ≤ 32) && decide (inl ≤ n) && decide (1 ≤ n)
    && (c.b 1 16 || (t.isFinite && flt 0 (c.f 3 0 32) && flt 0 p && !flt 0x3F800000 p && decide (c.f 4 0 32 ≤ vocab)))
    && (c.tokens 7 stops).all (fun x => decide (x < vocab)) && (c.tokens 11 inl).all fun x => decide (x < vocab)

/-- R289: the first check that fails, or ACCEPTED. -/
def State.submitCheck (s : State) (c : Cmd) : Nat :=
  let ring := c.f 1 0 16
  if !s.rb R.SERVE_SERVE_EN 0 then stBusy
  else if !((List.range 64).any fun v => s.rf R.SERVE2_HEAD 0 v = 1 && (s.vstate v = vActive || s.vstate v = vDraining)) then
    stNotHead
  else match s.ctxOf (c.f 0 32 32) with
    | none => stNoContext
    | some x =>
      if s.vstate x.variant ≠ vActive then stNoVariant
      else if x.term then stContextTerminated
      else if x.req.isSome then stContextBusy
      else if (s.req (c.f 0 0 32)).isSome then stDuplicateId
      else if !s.rb R.TENANT_ENABLED x.tenant then stNoTenant
      else if !s.rb R.RING_BOUND ring ∨ s.rb R.RING_OPEN ring ∨ s.rf R.RING_TENANT ring ≠ x.tenant then stBadRing
      else if !submitFieldsOk c (s.var x.variant).place.vocab then stBadParam
      else if x.positions < x.len + c.f 4 32 32 then stKvLimit
      else if c.w 2 ≠ 0 ∧ c.w 2 ≤ s.now then stDeadlinePassed
      else if s.rf R.TENANT_MAX_OPEN x.tenant ≤ s.reqs.countP (fun r => r.tenant = x.tenant) then stTenantLimit
      else if 65536 ≤ s.reqs.length ∨ s.rf R.SERVE_QUEUE_MAX 0 ≤ s.reqs.countP (fun r => r.state = rqQueued) then stBusy
      else stAccepted

/-- SUBMIT's effect, R289, R290. -/
def State.submit (s : State) (c : Cmd) : State :=
  let h := c.f 0 32 32
  let id := c.f 0 0 32
  let st := s.submitCheck c
  match s.ctxOf h with
  | none => s.refuseServe c st id 0
  | some x =>
    if st ≠ stAccepted then s.refuseServe c st id x.tenant
    else
      let ring := c.f 1 0 16
      let inl := c.f 1 24 8
      let n := c.f 4 32 32
      let r : Req :=
        { id := id, ctx := h, variant := x.variant, tenant := x.tenant, cls := s.rf R.TENANT_CLASS x.tenant, ring := ring,
          qp := c.qp, greedy := c.b 1 16, stops := c.tokens 7 (c.f 1 20 4), maxNew := c.f 1 32 32, deadline := c.w 2,
          temp := c.f 3 0 32, topP := c.f 3 32 32, topK := c.f 4 0 32, promptCount := n, prompt := c.tokens 11 inl,
          promptRead := decide (inl = n), accept := s.now, order := s.rf R.SERVE_ACCEPTED 0, readyAt := s.elapsed,
          seed := x.seed }
      let s1 := ({ s with reqs := s.reqs ++ [r] }).setCtx h fun y => { y with req := some id }
      let s2 := (((s1.wf R.RING_OPEN ring 1).wf R.RING_FIXED ring 0).wf R.RING_REQUEST_ID ring id).wf R.RING_DEADLINE ring (c.w 2)
      let s3 := ((s2.inc R.SERVE_ACCEPTED 0).countServe x.variant x.tenant).setRec c.qp c.cmdId fun y => { y with req := some id }
      let s4 := s3.when (decide (inl < n)) fun t => t.issueRead c.qp (c.w 5) (c.f 6 0 32) (4 * (n - inl))
      s4.reply c (s4.reqWords r stAccepted 0)

/-- R290: the prompt's RDMA READ ends. -/
def State.promptDone (s0 : State) (id : Nat) (ok : Bool) (tokens : List Nat) : State :=
  let s := match (s0.reqs ++ s0.ended).find? (fun r => r.id = id) with
    | some r => if r.promptRead then s0 else s0.readDone r.qp
    | none => s0
  match s.req id with
  | none => s
  | some r =>
    if r.state ≠ rqQueued ∨ r.promptRead then s
    else
      let all := (r.prompt ++ tokens).take r.promptCount
      if ok && all.length = r.promptCount && all.all fun t => decide (t < (s.var r.variant).place.vocab) then
        s.setReq id fun x => { x with prompt := all, promptRead := true }
      else s.endRequest id stPromptUnreadable

/-! ### CANCEL, INQUIRE -/

/-- CANCEL's effect, R309. -/
def State.cancel (s : State) (c : Cmd) : State :=
  let id := c.f 0 0 32
  let s0 := s.setRec c.qp c.cmdId fun y => { y with req := some id }
  match s0.req id with
  | some r =>
    match r.fixed with
    | none =>
      let s1 := s0.fixOutcome id stCancelled 0
      let w := (s1.req id).map fun q => s1.reqWords { q with state := 0 } stCancelled 0
      (s1.endWhenIdle id).reply c (w.getD [])
    | some (st, rs) =>
      let s1 := (s0.setReq id fun x => { x with notes := x.notes ||| noteLateCancel }).inc R.SERVE_LATE_CANCELS 0
      s1.reply c (s1.reqWords { r with notes := r.notes ||| noteLateCancel, state := 0 } st rs)
  | none =>
    match s0.ended.find? fun r => r.id = id with
    | some r =>
      let q := { r with notes := r.notes ||| noteLateCancel }
      let (st, rs) := r.fixed.getD (stComplete, 0)
      let s1 := { s0 with ended := q :: s0.ended.erase r }
      let s2 := s1.inc R.SERVE_LATE_CANCELS 0
      s2.reply c (servingWords st rs q.notes q.id q.steps q.tokens q.lastSeq q.ctx q.endLen q.ring 0 q.tenant
        (((s2.ctxOf q.ctx).map (·.seed)).getD q.seed) s2.now q.accept q.endStamp)
    | none => s0.reply c (s0.servingShort stNotFound id)

/-- R292: the words that describe a request, open or kept, or none. -/
def State.inquireReq (s : State) (id : Nat) : Option (List Nat) :=
  match s.req id with
  | some r => some (s.reqWords r stOk 0)
  | none =>
    (s.ended.find? fun r => r.id = id).map fun r =>
      let (st, rs) := r.fixed.getD (stComplete, 0)
      s.reqWords r st rs

/-- INQUIRE's effect, R292. -/
def State.inquire (s : State) (c : Cmd) : State :=
  let id := c.f 0 0 32
  if c.f 0 33 7 ≠ 0 ∨ c.f 0 50 14 ≠ 0 then s.reply c (s.servingShort stBadParam 0)
  else if !c.b 0 32 then s.reply c ((s.inquireReq id).getD (s.servingShort stNotFound id))
  else
    match s.cmdRecs.find? fun r => r.qp = c.f 0 40 10 && r.cmdId = id with
    | none => s.reply c (s.servingShort stNotFound 0)
    | some r =>
      let ws := match r.req with
        | none => s.servingShort stOk 0
        | some q => match s.inquireReq q with
          | none => s.servingShort stOk q
          | some w => pack [(stOk, 0, 8), (w.headD 0 / 256, 8, 56)] :: w.drop 1
      s.reply c (ws ++ [pack [(r.opcode, 0, 8), (r.result, 8, 8), (r.body.length, 16, 7), (bit r.final, 23, 1)]] ++ r.body.take 115)

/-! ### RING_SETUP -/

/-- R295: the address of a new ring's shadow, below the top of the interleaved range, or of the memory where there is none. -/
def State.newShadow (s : State) : Option Nat :=
  let n := s.rings.countP fun x => s.rf R.RING_SHADOW_ADDR x.1 ≠ 0
  let top := if s.interleave = 0 then 0x9000000000 else 12 * s.interleave * 2 ^ 30
  let a := top - (n + 1) * 32768
  if s.populated a 32768 && !s.sealed a && !s.sealed (a + 32767) then some a else none

/-- R297: delivery begins again after CONSUMED; with nothing to deliver again, the tail word alone. -/
def State.redeliver (s : State) (r : Nat) : State :=
  let c := s.rf R.RING_CONSUMED r
  let next := s.rf R.RING_NEXT_SEQ r
  let first := seqNext c
  let s1 := s.setRing r { s.ring r with deliver := first, tails := [] }
  if seqDist first next = 0 then
    (s1.sendQp (s1.rf R.RING_QP r) (.rdmaWrite (s1.rf R.RING_QP r) (s1.rf R.RING_HOST_ADDR r) (s1.rf R.RING_RKEY r) [c])).setRing r
      { s1.ring r with deliver := next, tails := [c] }
  else s1.ringDeliver r

/-- RING_SETUP's effect, R297. -/
def State.ringSetup (s : State) (c : Cmd) : State :=
  let r := c.f 0 0 16
  let qp := c.f 0 16 10
  let sz := c.f 0 26 5
  let rebind := c.b 0 31
  let t := c.f 0 32 12
  let go (u : State) : State :=
    ((((((u.wf R.RING_QP r qp).wf R.RING_HOST_ADDR r (c.w 1)).wf R.RING_RKEY r (c.f 2 0 32)).wf R.RING_BOUND r 1).wf R.RING_STALLED
      r 0).wf R.RING_SIZE_LOG2 r sz).wf R.RING_TENANT r t
  if c.f 0 44 20 ≠ 0 ∨ c.f 2 32 32 ≠ 0 ∨ sz < 4 ∨ 16 < sz ∨ c.w 1 % 64 ≠ 0 then s.refuseServe c stBadParam 0 t
  else if !s.connected qp then s.refuseServe c stBadRing 0 t
  else if rebind then
    if !s.rb R.RING_BOUND r ∨ s.rf R.RING_SIZE_LOG2 r ≠ sz ∨ s.rf R.RING_TENANT r ≠ t then s.refuseServe c stBadRing 0 t
    else
      let s1 := (go s).redeliver r
      s1.reply c (servingWords stOk 0 0 0 0 0 0 0 0 r 0 t 0 s1.now 0 0)
  else if s.rb R.RING_OPEN r then s.refuseServe c stBadRing 0 t
  else
    let a := if s.rf R.RING_SHADOW_ADDR r ≠ 0 then some (s.rf R.RING_SHADOW_ADDR r) else s.newShadow
    match a with
    | none => s.refuseServe c stBusy 0 t
    | some a =>
      let s1 := ((((go s).wf R.RING_SHADOW_ADDR r a).wf R.RING_NEXT_SEQ r 1).wf R.RING_CONSUMED r 0).wf R.RING_DELIVERED r 0
      let s2 := (s1.wf R.RING_FULL r 0).setRing r {}
      s2.reply c (servingWords stOk 0 0 0 0 0 0 0 0 r 0 t 0 s2.now 0 0)

/-! ### Activation of requests and turns -/

/-- The lowest active slot of a variant not in use. -/
def State.freeActive (s : State) (v : Nat) : Option Nat :=
  let used := (s.openOf v).filterMap (·.slot)
  if s.rf R.SERVE1_MAX_ACTIVE 0 ≤ used.length then none
  else (List.range (used.length + 1)).find? fun i => !used.contains i

/-- The first of requests by a rank, smaller first. -/
def firstBy (rank : Req → Nat × Nat × Nat) (l : List Req) : Option Req :=
  l.foldl (fun (b : Option Req) r => match b with
    | none => some r
    | some x =>
      let a := rank r
      let c := rank x
      if a.1 < c.1 ∨ (a.1 = c.1 ∧ (a.2.1 < c.2.1 ∨ (a.2.1 = c.2.1 ∧ a.2.2 < c.2.2))) then some r else b) none

/-- R170, R299: the stream-table entries of a request's streams written, in the lowest free entry of each M-core's table. -/
def State.writeStreams (s : State) (r : Req) (slot : Nat) (x : Ctx) : State :=
  s.each (s.var r.variant).place.edges fun t e =>
    let base := t.rf R.MCORE1_STREAM_BASE e.1 * 16
    match (List.range (t.rf R.MCORE1_STREAM_COUNT e.1)).find? fun i => !(t.sramRead e.1 (base + 16 * i + 8) 8).testBit 16 with
    | none => t
    | some i =>
      (t.sramWrite e.1 (base + 16 * i) 8 x.seed).sramWrite e.1 (base + 16 * i + 8) 8
        (pack [((e.2 + slot) % 65536, 0, 16), (1, 16, 1), (bit x.det, 17, 1), (x.slot, 18, 14)])

/-- R299, R313: the first queued request of a variant, by CLASS and then acceptance, takes an active slot and the epoch. -/
def State.activateNext (s : State) (v : Nat) : State :=
  let q := (s.openOf v).filter fun r => r.state = rqQueued && r.promptRead && r.fixed.isNone
  match firstBy (fun r => (3 - r.cls, r.order, 0)) q, s.freeActive v with
  | some r, some slot =>
    match s.ctxOf r.ctx with
    | none => s
    | some x =>
      let s1 := s.writeStreams r slot x
      (s1.setReq r.id fun y => { y with state := rqActive, slot := some slot, epoch := s1.rf R.SERVE2_EPOCH 0 v,
                                        readyAt := s1.elapsed }).countServe v r.tenant
  | _, _ => s

def Req.running (r : Req) : Bool := (r.state = rqActive || r.state = rqThrottled) && r.fixed.isNone
def Req.decodable (r : Req) : Bool := r.running && r.decodeReady && decide (r.promptCount ≤ r.sentPrompt)
def Req.prefillable (r : Req) : Bool := r.running && decide (r.sentPrompt < r.promptCount)

/-- A dispatched set as the first stage receives it: variant, request, first position, positions, token, epoch. -/
def State.dispatch (s : State) (r : Req) (n token : Nat) : State :=
  let len := ((s.ctxOf r.ctx).map (·.len)).getD 0
  s.mesh 15 r.variant [r.id, len + r.inflight, n, token, r.epoch]

/-- R300, R304: one decode-ready request's set. -/
def State.decodeOne (s : State) (r : Req) : State :=
  match s.mayDebit r with
  | (false, t) => t
  | (true, t) =>
    (((t.debit r.tenant 1 true).dispatch r 1 r.lastToken).setReq r.id fun x =>
      { x with decodeReady := false, inflight := x.inflight + 1, promoted := false }).inc R.SERVE1_DECODE_SETS 0

/-- Requests in dispatch order: a promoted one first, then CLASS, then `key`. -/
def orderBy (key : Req → Nat) : Nat → List Req → List Req
  | 0, _ => []
  | n + 1, l =>
    match firstBy (fun r => (if r.promoted then 0 else 4 - r.cls, key r, r.order)) l with
    | none => []
    | some r => r :: orderBy key n (l.filter fun x => x.id ≠ r.id)

/-- R300: a decode turn. -/
def State.decodeTurn (s : State) (v : Nat) : State :=
  let l := (s.openOf v).filter Req.decodable
  s.each (orderBy (·.readyAt) l.length l) fun t r => t.decodeOne r

/-- R300: a prefill turn: the first request in order that its tenant's balance lets through sends a chunk. -/
def State.prefillFrom (s : State) (v : Nat) : List Req → State
  | [] => s
  | r :: rest =>
    match s.mayDebit r with
    | (false, t) => t.prefillFrom v rest
    | (true, t) =>
      let x := t.var v
      let n := min (min (t.rf R.SERVE1_PREFILL_CHUNK 0) (r.promptCount - r.sentPrompt)) (t.rf R.SERVE1_PREFILL_INFLIGHT 0 - x.prefillOut)
      let t1 := (((t.debit r.tenant n false).dispatch r n 0).setReq r.id fun y =>
        { y with sentPrompt := y.sentPrompt + n, inflight := y.inflight + n, readyAt := t.elapsed, promoted := false }).inc
          R.SERVE1_PREFILL_POSITIONS 0 n
      t1.setVar v { t1.var v with prefillOut := x.prefillOut + n }

def State.prefillTurn (s : State) (v : Nat) : State :=
  let l := (s.openOf v).filter Req.prefillable
  s.prefillFrom v (orderBy (·.order) l.length l)

/-- R300: the kind of a variant's next turn, true for decode, and the place in the cycle after it; none when nothing is ready. -/
def State.nextTurn (s : State) (v : Nat) : Option (Bool × Nat) :=
  let x := s.var v
  let d := s.rf R.SERVE1_DECODE_TURNS 0
  let p := s.rf R.SERVE1_PREFILL_TURNS 0
  let dr := (s.openOf v).any Req.decodable
  let pr := (s.openOf v).any Req.prefillable && decide (x.prefillOut < s.rf R.SERVE1_PREFILL_INFLIGHT 0)
  let k := x.turn % (d + p)
  let want := match x.promoteKind with
    | some k => decide (k = 0)
    | none => decide (k < d)
  if want && dr then some (true, k + 1)
  else if !want && pr then some (false, k + 1)
  else if dr then some (true, if k < d then k + 1 else 1)
  else if pr then some (false, max k d + 1)
  else none

/-- R540: the level in force stops all dispatch. -/
def State.dutyZero (s : State) : Bool := s.rf R.PWRCAP_LEVEL 0 = 15

/-- R300, R305: the STEP S-core of a variant takes a turn. -/
def State.dispatchTurn (s : State) (v : Nat) : State :=
  if s.dutyZero then s
  else
    match s.nextTurn v with
    | none => s
    | some (dec, k) =>
      let s1 := s.setVar v { s.var v with turn := k, promoteKind := none }
      if dec then s1.decodeTurn v else s1.prefillTurn v

/-- R300: a request that has been ready for STARVE_US moves to the head of its list. -/
def State.starve (s : State) (id : Nat) : State :=
  match s.req id with
  | none => s
  | some r =>
    if (r.decodable || r.prefillable) && !r.promoted && decide (r.readyAt + s.rf R.SERVE1_STARVE_US 0 * 1000 ≤ s.elapsed) then
      let s1 := (s.setReq id fun x => { x with promoted := true }).inc R.SERVE1_STARVE_PROMOTIONS 0
      s1.setVar r.variant { s1.var r.variant with promoteKind := some (if r.decodable then 0 else 1) }
    else s

/-! ### Positions -/

/-- R302: the doorbell for a sampled token, which stands at position `len` of the context. -/
def tokenDoorbell (r : Req) (positions len token : Nat) : Doorbell :=
  let d (op reason : Nat) : Doorbell :=
    { ring := r.ring, op := op, status := stComplete, reason := reason, token := token, position := len, ctxLen := len }
  if r.stops.contains token then d 2 reasonStop
  else if r.tokens + 1 = r.maxNew then d 2 reasonMaxNew
  else if positions ≤ len + 1 then d 2 reasonFull
  else d 0 0

/-- R301, R302, R308: a position of a request is reported to the COMMIT S-core, hollow or clean, with the token sampled from it. -/
def State.positionDone (s : State) (id : Nat) (hollow : Bool) (token : Nat) : State :=
  match s.req id with
  | none => s
  | some r =>
    if r.inflight = 0 then s
    else
      let s2 := (s.setsBack id 1).setReq id fun x => { x with broken := x.broken || hollow }
      if hollow then (s2.endRequest id stHollow).endWhenIdle id
      else if r.broken then s2.endWhenIdle id
      else
        let s3 := (s2.setReq id fun x => { x with steps := x.steps + 1 }).setCtx r.ctx fun c => { c with len := c.len + 1 }
        let len := ((s3.ctxOf r.ctx).map (·.len)).getD 0
        let positions := ((s3.ctxOf r.ctx).map (·.positions)).getD 0
        let sampled := decide (r.promptCount ≤ r.steps + 1)
        let d : Option Doorbell :=
          if !sampled then none
          else if r.maxNew = 0 then some { ring := r.ring, op := 1, status := stComplete, reason := reasonPrefillOnly, ctxLen := len }
          else if positions ≤ len then some { ring := r.ring, op := 1, status := stComplete, reason := reasonFull, ctxLen := len }
          else some (tokenDoorbell r positions len token)
        let s4 := match d with
          | none => s3
          | some b =>
            if r.fixed.isSome ∧ b.op ≠ 0 then
              { s3 with doorbells := s3.doorbells ++ [{ b with op := if b.op = 2 then 0 else b.op }].filter (·.op = 0) }
            else { s3 with doorbells := s3.doorbells ++ [b] }
        if r.fixed.isSome then s4.endWhenIdle id else s4

/-- R311: an S-core ends a request abnormally; `lost` of its sets will not return. -/
def State.abnormalEnd (s : State) (id status lost : Nat) : State :=
  if 6 ≤ status ∧ status ≤ 9 then
    ((s.setsBack id lost).setReq id fun x => { x with broken := true }).endRequest id status
  else s

/-- R307: a request's deadline. -/
def State.deadline (s : State) (id : Nat) : State :=
  match s.req id with
  | none => s
  | some r => if r.deadline ≠ 0 ∧ r.deadline ≤ s.now ∧ r.fixed.isNone then s.endRequest id stDeadline else s

/-! ### Drains -/

/-- R315: every open request of a variant fixed PREEMPTED. -/
def State.preempt (s : State) (v : Nat) : State :=
  s.each ((s.openOf v).filter fun r => r.fixed.isNone) fun t r => t.endRequest r.id stPreempted

/-- R315: a variant becomes DRAINING. -/
def State.drainStart (s : State) (v : Nat) (preempt : Bool) : State :=
  let s1 := (s.setVState v vDraining).wf R.SERVE2_PREEMPT 0 (bit preempt) v
  let s2 := s1.setVar v { s1.var v with drainSince := s1.elapsed, drainSent := false }
  (s2.when preempt fun t => t.preempt v).drainContexts v

/-- R315: the drain limit, judged as it stands. -/
def State.drainLimit (s : State) (v : Nat) : State :=
  let ms := s.rf R.SERVE2_DRAIN_LIMIT_MS 0 v
  if s.vstate v = vDraining ∧ ms ≠ 0 ∧ (s.var v).drainSince + ms * 1000000 ≤ s.elapsed then s.preempt v else s

/-- VARIANT_RETIRE's effect, R315. -/
def State.retire (s : State) (c : Cmd) : State :=
  let v := c.f 0 0 6
  if s.vstate v ≠ vActive then s.refuseServe c stNoVariant 0 0
  else
    let s1 := (s.setVar v { s.var v with retiring := some (c.qp, c.cmdId) }).replyEarly c.qp c.cmdId (s.servingShort stAccepted 0)
    s1.drainStart v (c.b 0 6)

/-- R316: the drain set is dispatched. -/
def State.drainDispatch (s : State) (v : Nat) : State :=
  if s.vstate v = vDraining ∧ (s.openOf v).isEmpty ∧ !(s.var v).drainSent then
    (s.setVar v { s.var v with drainSent := true }).mesh 16 v [s.rf R.SERVE2_EPOCH 0 v]
  else s

/-- R165: an epoch's bindings cleared on the engines of a variant's placement. -/
def State.clearEpoch (s : State) (v ep : Nat) : State :=
  s.each ((s.var v).place.items.map (·.1)).eraseDups fun t e =>
    let left (o : Option ProgOp) : Option ProgOp := o.map fun p => { p with epochs := p.epochs.filter (· ≠ ep % 4) }
    let p := t.progSt e
    let q : ProgSt := { p with queued := left p.queued, running := left p.running, owed := left p.owed, owed2 := left p.owed2 }
    let t1 := if (Tbl.get? t.prog e).isNone then t else { t with prog := Tbl.put t.prog e q }
    ((t1.wf (epochBankF ep) e 0).retrack e t1).tryOwed e

/-- R277, R316: the variant is REGISTERED again, its items are freed, and a VARIANT_RETIRE that drained it ends OK. -/
def State.drained (s : State) (v : Nat) : State :=
  let s1 := ((s.clearEpoch v (s.rf R.SERVE2_EPOCH 0 v)).setVState v vRegistered).setInt (servePage 2) R.INT_SERVE2_DRAIN_DONE
  let s2 := match (s1.var v).retiring with
    | some (qp, id) => s1.finalRec qp id (s1.servingShort stOk 0)
    | none => s1
  ({ s2 with sec := s2.sec.freeItems v }).setVar v { s2.var v with retiring := none, drainSent := false }

/-- R316: the drain set reaches the COMMIT S-core. -/
def State.drainArrival (s : State) (v : Nat) : State :=
  if s.vstate v = vDraining ∧ (s.var v).drainSent then s.drained v else s

/-! ### Doorbells and delivery -/

/-- The front doorbell taken when it is of the kind `op`. -/
def State.commitDoorbell (s : State) (op : Nat) : State :=
  match s.doorbells with
  | [] => s
  | d0 :: rest =>
    let d := s.bell d0
    if d.op = 3 then { s with doorbells := rest }
    else if d.op = op then ({ s with doorbells := rest }).takeDoorbell d else s

/-- R296: the host adapter acknowledges a ring's oldest tail word. -/
def State.tailAck (s : State) (r : Nat) : State :=
  match (s.ring r).tails with
  | [] => s
  | t :: rest => (s.setRing r { s.ring r with tails := rest }).wf R.RING_DELIVERED r t

/-! ### Commands -/

/-- CTX_OPEN, R286. -/
def execCtxOpen (c : Cmd) (s : State) : Host.Outcome State Fault Refusal :=
  .next (s.vorane (.ctxOpen c) 0x20 c .f (c.bodyWords = 2) fun t => t.ctxOpen c)

/-- CTX_CLOSE, R287. -/
def execCtxClose (c : Cmd) (s : State) : Host.Outcome State Fault Refusal :=
  .next (s.vorane (.ctxClose c) 0x21 c .f (c.bodyWords = 1) fun t => t.ctxClose c)

/-- SUBMIT, R289. -/
def execSubmit (c : Cmd) (s : State) : Host.Outcome State Fault Refusal :=
  .next (s.vorane (.submit c) 0x22 c .f (c.bodyWords = 27) fun t => t.submit c)

/-- CANCEL, R309. -/
def execCancel (c : Cmd) (s : State) : Host.Outcome State Fault Refusal :=
  .next (s.vorane (.cancel c) 0x23 c .f (c.bodyWords = 1) fun t => t.cancel c)

/-- INQUIRE, R292. -/
def execInquire (c : Cmd) (s : State) : Host.Outcome State Fault Refusal :=
  .next (s.vorane (.inquire c) 0x24 c .f (c.bodyWords = 1) fun t => t.inquire c)

/-- RING_SETUP, R297. -/
def execRingSetup (c : Cmd) (s : State) : Host.Outcome State Fault Refusal :=
  .next (s.vorane (.ringSetup c) 0x25 c .f (c.bodyWords = 3) fun t => t.ringSetup c)

/-- VARIANT_RETIRE, R315. -/
def execVariantRetire (c : Cmd) (s : State) : Host.Outcome State Fault Refusal :=
  .next (s.vorane (.variantRetire c) 0x27 c .f (c.bodyWords = 1) fun t => t.retire c)

/-- PROMPT_READ_DONE, R290. -/
def execPromptReadDone (id : Nat) (ok : Bool) (tokens : List Nat) (s : State) : Host.Outcome State Fault Refusal :=
  .next (s.promptDone id ok tokens)

/-- REQUEST_ACTIVATE, R299. -/
def execRequestActivate (v : Nat) (s : State) : Host.Outcome State Fault Refusal := .next (s.activateNext v)

/-- DISPATCH_TURN, R300. -/
def execDispatchTurn (v : Nat) (s : State) : Host.Outcome State Fault Refusal := .next (s.dispatchTurn v)

/-- STARVE_PROMOTION, R300. -/
def execStarvePromotion (id : Nat) (s : State) : Host.Outcome State Fault Refusal := .next (s.starve id)

/-- DEADLINE_EXPIRY, R307. -/
def execDeadlineExpiry (id : Nat) (s : State) : Host.Outcome State Fault Refusal := .next (s.deadline id)

/-- COMMIT_TOKEN, R298. -/
def execCommitToken (s : State) : Host.Outcome State Fault Refusal := .next (s.commitDoorbell 0)

/-- COMMIT_END, R308. -/
def execCommitEnd (s : State) : Host.Outcome State Fault Refusal := .next (s.commitDoorbell 1)

/-- COMMIT_TOKEN_END, R298. -/
def execCommitTokenEnd (s : State) : Host.Outcome State Fault Refusal := .next (s.commitDoorbell 2)

/-- RING_DELIVER, R296. -/
def execRingDeliver (r : Nat) (s : State) : Host.Outcome State Fault Refusal := .next (s.ringDeliver r)

/-- TAIL_ACK, R296. -/
def execTailAck (r : Nat) (s : State) : Host.Outcome State Fault Refusal := .next (s.tailAck r)

/-- POSITION_DONE, R301. -/
def execPositionDone (id : Nat) (hollow : Bool) (token : Nat) (s : State) : Host.Outcome State Fault Refusal :=
  .next (s.positionDone id hollow token)

/-- ABNORMAL_END, R311. -/
def execAbnormalEnd (id status lost : Nat) (s : State) : Host.Outcome State Fault Refusal :=
  .next (s.abnormalEnd id status lost)

/-- DRAIN_LIMIT, R315. -/
def execDrainLimit (v : Nat) (s : State) : Host.Outcome State Fault Refusal := .next (s.drainLimit v)

/-- DRAIN_SET_DISPATCH, R316. -/
def execDrainSetDispatch (v : Nat) (s : State) : Host.Outcome State Fault Refusal := .next (s.drainDispatch v)

/-- DRAIN_SET_ARRIVAL, R316. -/
def execDrainSetArrival (v : Nat) (s : State) : Host.Outcome State Fault Refusal := .next (s.drainArrival v)

end Sys2Proof.Machine
end

