-- ==== Sys2Proof/Machine/Cut.lean ====
section
/-! DEFINITION. What a domain holds is absorbed (R469, R471, R472): used by every reset's cut, by a fence and by a module that
leaves. -/

namespace Sys2Proof.Machine

/-- The logical cores of a domain, R461. -/
def Dom.cores : Dom → List Nat
  | .core ck => [ck]
  | .cluster c => (List.range 60).map (c * 64 + ·)
  | .part p => ((List.range 32).filter fun c => partOfCluster c = p).flatMap fun c => (List.range 60).map (c * 64 + ·)
  | .die => (List.range 32).flatMap fun c => (List.range 60).map (c * 64 + ·)

/-- The stream of an input buffer, R175, R208. -/
def State.bufStream (s : State) (ck idx : Nat) : Nat :=
  if kindOfLogical (ck % 64) = 0 then wf_ (s.descWords ck idx) 1 0 16 else wf_ (s.kernWords ck idx) 0 0 16

/-- R471: the streams of which a core holds a pip or an output pip, has fired a step, has granted credits not consumed, or holds an
open pooling window. -/
def State.heldStreams (s : State) (ck : Nat) : List Nat :=
  let mine := s.bufs.filter fun b => b.1 / 512 = ck
  let inBuf := mine.flatMap fun b => b.2.pips.map fun p => p.pip.stream
  let granted := if kindOfLogical (ck % 64) = 2 then [] else
    (mine.filter fun b => 0 < b.2.used).map fun b => s.bufStream ck (b.1 % 512)
  let m := s.mcSt ck
  let ofStep (x : Step) : List Nat :=
    x.pips.map (·.stream) ++ x.outq.map (·.stream) ++ (if x.emis.isEmpty then [] else [x.out])
  let v := s.vcSt ck
  let ofK := match v.step with
    | none => []
    | some k => k.pips.map (·.stream)
  let byChan := (s.chans.filter fun c => c.dest = ck && 0 < c.credits).map (·.stream)
  let bySlot := ((Tbl.vals s.tor.slots).filter fun r => r.target = ck && 0 < r.credits).map (·.stream)
  let pooled := (s.pools.filter fun p => p.1 / 16384 / 32768 = ck && !p.2.wins.isEmpty).flatMap fun p =>
    (List.range (s.rf R.MCORE1_DESC_COUNT ck)).filterMap fun d =>
      let w := s.descWords ck d
      if wf_ w 4 30 15 = p.1 / 16384 % 32768 then some (wf_ w 1 0 16) else none
  inBuf ++ granted ++ m.steps.flatMap ofStep ++ ofK ++ v.outq.map (·.stream) ++ (s.scSt ck).rx.map (·.2.stream) ++ byChan
    ++ bySlot ++ pooled

/-- Pips a core holds, R468: in its buffers and formed but not injected. -/
def State.heldPips (s : State) (ck : Nat) : Nat :=
  ((s.bufs.filter fun b => b.1 / 512 = ck).map fun b => b.2.pips.length).sum
    + ((s.mcSt ck).steps.map fun x => x.outq.length).sum + (s.vcSt ck).outq.length

/-- R469 steps 2 to 5 for one core of a domain: buffers emptied, GEN notices to the producers, credits of consumers outside the
domain released, steps, tiles and pooling state discarded. The core's GEN has incremented. -/
def State.cutCore (s : State) (dom : Dom) (ck : Nat) : State :=
  let gen := s.coreGen ck
  let prods := s.chans.filter fun c => c.dest = ck && 0 < c.credits
  let s1 := s.each prods fun t c => t.mesh 3 c.core [ck, c.stream, 0, gen]
  let rem := s1.tor.slots.filter fun r => r.2.target = ck && 0 < r.2.credits
  let s2 := s1.each rem fun t r => t.mesh 3 (0x8000 + r.1) [ck, r.2.stream, 0, gen]
  let out := s2.chans.filter fun c => c.core = ck && 0 < c.credits && !(destLocal c.dest && dom.contains (.core c.dest))
  let s3 := s2.each out fun t c => t.mesh 4 c.dest [ck, c.stream, c.credits, c.gen]
  let s4 := { s3 with
    chans := s3.chans.filter fun c => c.core ≠ ck
    bufs := Tbl.update s3.bufs (fun k b => if k / 512 = ck then { b with pips := [], used := 0 } else b)
    pools := Tbl.keep s3.pools fun k _ => k / 16384 / 32768 ≠ ck }
  if kindOfLogical (ck % 64) = 0 then
    (s4.each (List.range 16) fun t n => t.dropTile (engInst ck n)).setMc ck { nextId := (s4.mcSt ck).nextId }
  else if kindOfLogical (ck % 64) = 1 then s4.setVc ck {}
  else s4.setSc ck {}

/-- R25: a core of the domain cut; the step it ran is gone, so that a clock setting that waited for its end is applied. -/
def State.cutCoreClock (s : State) (dom : Dom) (ck : Nat) : State := (s.cutCore dom ck).clockPoint ck

/-- A request ends with its work inside lost: no set is in flight any more. -/
def State.endLost (s : State) (id status : Nat) : State :=
  let n := ((s.req id).map (·.inflight)).getD 0
  ((s.setsBack id n).setReq id fun x => { x with broken := true }).endRequest id status

/-- R471: the requests of a reset list end INTERRUPTED. -/
def State.interruptStreams (s : State) (streams : List Nat) : Nat × State :=
  let rs := s.reqsOnStreams streams
  (rs.length, s.each rs fun t r => t.endLost r.id stInterrupted)

/-- R472: a reset of S-cores that hold a role ends every open request of the variants concerned. -/
def State.interruptRoles (s : State) (cores : List Nat) : Nat × State :=
  let vs := (List.range 64).filter fun v =>
    s.vstate v ≠ vEmpty && (cores.contains (s.rf R.SERVE2_ADMIT_SCORE 0 v) || cores.contains (s.rf R.SERVE2_STEP_SCORE 0 v)
      || cores.contains (s.rf R.SERVE2_COMMIT_SCORE 0 v))
  let rs := s.reqs.filter fun r => vs.contains r.variant
  (rs.length, s.each rs fun t r => t.endLost r.id stInterrupted)

/-- R472: KV page tables cleared on a V-core: contexts with pages there are TERMINATED, and an open request in one ends. -/
def State.loseKv (s : State) (v : Nat) : State :=
  let slots := (Tbl.vals (s.kvPool v).users).flatMap fun l => l.map (·.1)
  let cs := s.ctxs.filter fun c => slots.contains c.2.slot && (s.var c.2.variant).place.kvCores.contains v
  let s1 := s.each cs fun t c => match c.2.req with
    | none => t
    | some id => t.endLost id stInterrupted
  { s1 with
    ctxs := Tbl.update s1.ctxs (fun k c => if cs.any (fun d => d.1 = k) then { c with term := true } else c)
    kv := Tbl.del s1.kv v }

/-- R349: the semaphores an S-core of the domain holds are broken. -/
def State.breakScores (s : State) (cores : List Nat) : State :=
  s.each (cores.filter fun ck => kindOfLogical (ck % 64) = 2) fun t ck => t.semBreakAll 4 ck 3

/-- R126: a V-core's residuals cleared, as its SRAM holds them for a context. -/
def State.dropVResids (s : State) (v ctx : Nat) : State :=
  s.each ((s.vcSt v).resids.filter fun u => u.1 = ctx) fun t u => t.sramWrite v u.2 2 0

/-- R126: the residuals a core holds are lost; each context that had any is recorded, and its request, where it carries on, noted (R471). -/
def State.loseResiduals (s : State) (ck : Nat) : State :=
  if kindOfLogical (ck % 64) = 2 then s
  else s.each s.ctxs fun t c =>
    let had := if kindOfLogical (ck % 64) = 1 then (t.vResidCtxs ck).contains c.1 else (List.range (t.rf R.MCORE1_DESC_COUNT ck)).any fun d =>
      let w := t.descWords ck d
      wf_ w 0 63 1 = 1 && !malformed w && (List.range (stepChannels w)).any fun j => t.sramRead ck (residAddr w c.2.slot j) 2 ≠ 0
    if !had then t
    else
      let t1 := (if kindOfLogical (ck % 64) = 1 then t.dropVResids ck c.1 else t.clearSlot ck c.2.slot).logEvSev 0x0500 1 (corePage ck).index (c.2.reuse * 65536 + c.1)
        [c.2.reuse * 65536 + c.1, t.now, 0, 0]
      match c.2.req with
      | none => t1
      | some id => t1.setReq id fun x => if x.fixed.isNone then { x with notes := x.notes ||| 16 } else x

/-- R222: an S-core starts at BOOT_ADDR in machine mode. -/
def State.scoreStart (s : State) (ck : Nat) : State :=
  let s1 := ((((s.wf R.SCORE_RUN ck 1).wf R.SCORE_RUNNING ck 1).wf R.SCORE_WFI ck 0).wf R.SCORE_TRAPPED ck 0)
  s1.setSc ck { s1.scSt ck with pc := s1.rf R.SCORE_BOOT_ADDR ck, mode := 3, beatAt := s1.elapsed }

end Sys2Proof.Machine
end

