-- ==== Sys2Proof/Machine/Module.lean ====
section
/-! DEFINITION. The module's states (R483), readiness (R492, R493), leaving and die failures (R497, R498), the cold reset (R13, R473,
R509) and the field repair record's maps (R454, R487). -/

namespace Sys2Proof.Machine

def modPage (p : Nat) : Page := { blk := 0, inst := 0, page := p }
def keysPage (p : Nat) : Page := { blk := 4, inst := 0, page := p }
def vaultPage (p : Nat) : Page := { blk := 3, inst := 0, page := p }
def pcorePage (pc : Nat) (p : Nat := 0) : Page := { blk := 0x16, inst := pc, page := p }
def cluPage (c : Nat) : Page := { blk := 0x0A, inst := c }
def partPage (p : Nat) : Page := { blk := 9, inst := p }
def diePage : Page := { blk := 8, inst := 0 }
def boardPage (p : Nat) : Page := { blk := 0x48, inst := 0, page := p }
def thermalPage : Page := { blk := 0x41, inst := 0 }
def pwrcapPage : Page := { blk := 0x42, inst := 0 }

/-- R483. -/
def msRom : Nat := 0
def msRecovery : Nat := 1
def msPlatform : Nat := 2
def msMemory : Nat := 3
def msLinks : Nat := 4
def msCores : Nat := 5
def msAwaitPlan : Nat := 6
def msAgreeing : Nat := 7
def msReady : Nat := 8
def msLeaving : Nat := 9
def msLeft : Nat := 10
def msFailed : Nat := 11
def msResetting : Nat := 12

def State.modState (s : State) : Nat := s.rf R.MOD1_STATE 0

/-- R559, R560: an alert on the sideband; it stands until STATE or FAULTS is read. -/
def State.raiseAlert (s : State) : State :=
  if s.md.alert then s else ({ s with md := { s.md with alert := true } }).emit (.pin 1 true)

/-- R557: PWRGD pulled low or released. -/
def State.setPwrgd (s : State) (b : Bool) : State :=
  if s.md.pwrgd = b then s else ({ s with md := { s.md with pwrgd := b } }).emit (.pin 0 b)

/-- R563: a board fault as it stands now; its detection is latched, recorded by its bit and alerted. -/
def State.boardFault (s : State) (b : Nat) (on : Bool) : State :=
  let bits := s.rf R.BOARD_FAULTS_NOW 0
  let was := bits.testBit b
  if on = was then s
  else if on then
    let s1 := (s.wf R.BOARD_FAULTS_NOW 0 (bits + 2 ^ b)).wf R.BOARD_FAULTS 0 (s.rf R.BOARD_FAULTS 0 ||| 2 ^ b)
    (((s1.wf R.BOARD_LAST_FAULT_STAMP 0 s1.now).setInt (boardPage 0) R.INT_BOARD_BOARD_FAULT).unitEv 0xD (boardPage 0) b b
      false).raiseAlert
  else s.wf R.BOARD_FAULTS_NOW 0 (bits - 2 ^ b)

/-- R483, R517, R560: the module enters a state. -/
def State.setModState (s : State) (st : Nat) : State :=
  let old := s.modState
  if old = st then s
  else
    let ints := 2 ^ R.INT_MOD1_STATE_CHANGE + (if st = msFailed then 2 ^ R.INT_MOD1_FAILED else 0)
    let s1 := (s.wf R.MOD1_STATE 0 st).setInts (modPage 1) ints
    (s1.logEvSev 0x0301 (if st = msFailed then 4 else 1) (modPage 1).index 0
      [old, st, s1.rf R.MOD1_FAIL_CAUSE 0, s1.rf R.MOD1_FAIL_DETAIL 0]).raiseAlert

/-- R484: a phase begins: its stamp, its record, and the module's state. -/
def State.phaseStart (s : State) (p st : Nat) : State :=
  let s1 := { s with md := { s.md with phaseAt := s.elapsed, started := true } }
  ((s1.wf R.MOD1_PHASE_STAMP 0 s.now p).setModState st).logEv 0x0302 (modPage 1).index 0 [p, 0, 0, 0]

/-- The module enters FAILED with a cause, R485, R492. -/
def State.failWith (s : State) (cause detail : Nat) : State :=
  ((s.wf R.MOD1_FAIL_CAUSE 0 cause).wf R.MOD1_FAIL_DETAIL 0 detail).setModState msFailed

/-! ### Firmware trials -/

def slotStateF (t : Nat) : Field := if t = 0 then R.OASIS3_SLOT_A_STATE else R.OASIS3_SLOT_B_STATE
def slotVersionF (t : Nat) : Field := if t = 0 then R.OASIS3_SLOT_A_VERSION else R.OASIS3_SLOT_B_VERSION
def slotSecurityF (t : Nat) : Field := if t = 0 then R.OASIS3_SLOT_A_SECURITY else R.OASIS3_SLOT_B_SECURITY
def oasis3Page : Page := { blk := 1, inst := 0, page := 3 }

/-- R425: the running trial is committed: TRIAL becomes ACTIVE, the previous ACTIVE FALLBACK, and the floor rises where
RAISE_FLOOR is set. -/
def State.commitTrial (s : State) : State :=
  if !s.rb R.OASIS3_RUNNING_TRIAL 0 then s
  else
    let t := s.rf R.OASIS3_RUNNING_SLOT 0
    let o := 1 - t
    let s1 := ((s.wf (slotStateF t) 0 2).wf R.OASIS3_RUNNING_TRIAL 0 0).wf R.KEYS_TRIAL_BOOT 0 0
    let s2 := s1.when (decide (s.rf (slotStateF o) 0 = 2)) fun u => u.wf (slotStateF o) 0 3
    let s3 := s2.when (decide (Tbl.getD s.oa.raise t 0 = 1)) fun u =>
      u.wf R.KEYS_SECURITY_FLOOR 0 (max (u.rf R.KEYS_SECURITY_FLOOR 0) (u.rf (slotSecurityF t) 0))
    s3.logEv 0x0B02 oasis3Page.index 0 [2, 0, s.rf (slotVersionF t) 0, 0]

/-! ### Readiness -/

/-- R492's conditions 1 to 3 and 5; condition 4 is the state AWAIT_PLAN or AGREEING. -/
def State.readyConds (s : State) : Bool :=
  (s.rb R.VAULT_COPY0_VALID 0 || s.rb R.VAULT_COPY1_VALID 0)
    && (List.range 12).all (fun t => s.rb R.HBM_TRAINED t && !s.rb R.HBM_FAILED t)
    && (List.range 512).all (fun r => s.rf R.ROUTER_LINK_FAILED r = 0 && s.rf R.ROUTER_OUT_FAILED r = 0)
    && s.rb R.TORUS1_PLAN_LOADED 0 && s.rb R.TORUS1_AGREED 0

/-- R493: READY is entered at the first moment R492 holds. -/
def State.tryReady (s : State) : State :=
  if (s.modState = msAwaitPlan ∨ s.modState = msAgreeing) ∧ s.readyConds then
    ((({ s.commitTrial with md := { s.commitTrial.md with ready := true } }.wf R.SERVE_SERVE_EN 0 1).wf R.MOD1_PHASE_STAMP 0 s.now 7).setModState msReady).logEv 0x0302
      (modPage 1).index 0 [7, 0, 0, 0]
  else s

/-! ### Leaving -/

/-- R497 step 1. -/
def State.leaveGate (s : State) : State := (s.setModState msLeaving).wf R.SERVE_SERVE_EN 0 0

/-- Variants bound on the module: an epoch of theirs is bound in an engine of their placement. -/
def State.boundVariants (s : State) : Nat :=
  (List.range 64).countP fun v =>
    let es := ((s.var v).place.items.map (·.1)).eraseDups
    (s.vstate v = vActive || s.vstate v = vDraining) && es.any fun e => s.rb (epochBankF (s.rf R.SERVE2_EPOCH 0 v)) e
      || (s.vstate v = vActive || s.vstate v = vDraining) && es.isEmpty

/-- No epoch is bound in any engine of the module (R497 step 2). -/
def State.nothingBound (s : State) : Bool :=
  s.regs.all fun c =>
    !((List.range 4).any fun e => c.1 / 2 ^ 32 = (epochBankF e).code) || c.2 = 0

/-- R497 step 3: every open request ends INTERRUPTED and the pips held are absorbed; the head of each variant of which a
stream was absorbed is told. -/
def State.leaveCut (s : State) : State :=
  let cores := Dom.die.cores.filter fun ck => !(s.heldStreams ck).isEmpty || s.chans.any fun c => c.core = ck
  let streams := (cores.flatMap s.heldStreams).eraseDups
  let n := s.reqs.length
  let s1 := s.each s.reqs fun t r => t.endLost r.id stInterrupted
  let s2 := s1.each cores fun t ck => t.cutCoreClock .die ck
  let s3 := s2.each (List.range 64) fun t v =>
    let p := (t.var v).place
    if t.vstate v ≠ vEmpty ∧ p.head ≠ t.here then
      t.each (streams.filter fun st => p.edges.any fun e => e.2 ≤ st && st < e.2 + 4096) fun u st => u.sendNotice p.head [0, st, 0]
    else t
  { s3 with md := { s3.md with interrupted := min 65535 n, bound := s.boundVariants } }

/-- R497 step 4: LSN LEAVING on every direction. -/
def State.withdrawTorus (s : State) : State :=
  let s1 := s.each (List.range 6) fun t d => t.ownLsn d 3
  (({ s1 with md := { s1.md with leave := 2, withdrawn := true } }).wf R.MOD1_LEAVE_STAMP 0 s.now)

/-- R497 steps 3 and 4. -/
def State.leaveProceed (s : State) : State := s.leaveCut.withdrawTorus

/-- R496: the completion of MODULE_LEAVE. -/
def State.leaveReply (s : State) (status : Nat) : List Nat :=
  [pack [(status, 0, 8), (s.md.interrupted, 16, 16), (s.md.bound, 32, 16)], s.rf R.MOD1_LEAVE_STAMP 0]

/-- R497 step 5, R498, R499: ROUTE_HOLD_US has passed after the switch: LEFT, or FAILED for a die failure. -/
def State.leaveDone (s : State) : State :=
  if s.md.leave ≠ 2 then s
  else
    let failed := decide (s.rf R.MOD1_FAIL_CAUSE 0 ≠ 0)
    let s1 := s.setModState (if failed then msFailed else msLeft)
    let s2 := match s.md.leaveCmd with
      | some (qp, id) => s1.finish qp id (s1.leaveReply (if failed then 4 else 0))
      | none => s1
    { s2 with md := { s2.md with leave := 0, leaveCmd := none } }

/-- R492, R498: a die failure: after READY the module leaves the torus at once and ends FAILED; before it, bring-up stops. -/
def State.dieFailure (s : State) (cause detail : Nat) : State :=
  let up := decide (s.modState = msReady ∨ s.modState = msLeaving)
  let s1 := (s.wf R.MOD1_FAIL_CAUSE 0 (if up && cause ≠ 7 then 6 else cause)).wf R.MOD1_FAIL_DETAIL 0 detail
  if s.modState = msReady then s1.leaveGate.leaveProceed
  else if s.modState = msLeaving then (if s.md.leave = 1 then s1.leaveProceed else s1)
  else if s.modState = msFailed ∨ s.modState = msLeft ∨ s.modState = msRecovery then s1
  else s1.setModState msFailed

/-! ### The field repair record and the cold reset -/

/-- The field of a register cell, by its code. -/
def cellField (key : Nat) : Option Field :=
  let code := key / 2 ^ 32
  let bp := code / 64 / 4096
  (fieldsOf (bp / 16) (bp % 16)).find? fun f => f.code = code

/-- R487 steps 2 and 3: both banks of every router's map written where the PCORE record in force differs from the factory's, and
CLU.CAPS counted. -/
def State.rebuildMaps (s : State) : State :=
  s.each (List.range 32) fun t c =>
    let carrier (k : Nat) : Option Nat := (List.range 64).find? fun i =>
      t.rb R.PCORE_CARRYING (c * 64 + i) && t.rf R.PCORE_LOGICAL (c * 64 + i) = k
    let t1 := t.each (List.range 60) fun u k =>
      if carrier k = some (factoryPhys k) then u
      else
        let m := c * 60 + k
        let i := (carrier k).getD (factoryPhys k)
        let ab := bit (carrier k).isNone
        u.each (List.range 512) fun v r => v.each [m / 8, 240 + m / 8] fun w j =>
          (w.wf (mapPhysF (m % 8)) r i j).wf (mapAbsentF (m % 8)) r ab j
    let spare (kind : Nat) : Nat := (List.range 64).countP fun i =>
      kindOfPhysical i = kind && !t.rb R.PCORE_CARRYING (c * 64 + i) && !t.rb R.PCORE_FENCED (c * 64 + i)
    let gone (lo hi : Nat) : Nat := (List.range 60).countP fun k => lo ≤ k && k ≤ hi && (carrier k).isNone
    (((((t1.fix R.CLU_M_SPARES c (spare 0)).fix R.CLU_V_SPARES c (spare 1)).fix R.CLU_S_SPARES c (spare 2)).fix
      R.CLU_M_ABSENT c (gone 0 45)).fix R.CLU_V_ABSENT c (gone 46 56)).fix R.CLU_S_ABSENT c (gone 57 59)

/-- R500: the absent logical cores of the die, from CLU.CAPS. -/
def State.countAbsent (s : State) : State :=
  let sum (f : Field) : Nat := ((List.range 32).map fun c => s.rf f c).sum
  ((s.wf R.MOD1_M_ABSENT 0 (sum R.CLU_M_ABSENT)).wf R.MOD1_V_ABSENT 0 (sum R.CLU_V_ABSENT)).wf R.MOD1_S_ABSENT 0
    (sum R.CLU_S_ABSENT)

/-- The READY banks, by engine. -/
def State.readyBanks (s : State) : List (Nat × Nat) :=
  s.regs.filterMap fun c =>
    if c.2 ≠ bankReady then none
    else if c.1 / 2 ^ 32 = R.ENG_A_STATE.code then some (c.1 / 65536 % 65536, 0)
    else if c.1 / 2 ^ 32 = R.ENG_B_STATE.code then some (c.1 / 65536 % 65536, 1) else none

/-- A cold reset: what R473 and the pages' own rules keep, with 48 V present (`power`) or after it has been absent; everything
else as State.reset has it, Sandglass time 1. An operation running in an engine is interrupted (R150); one queued is removed; READY banks
are to be swept (R95). -/
def State.coldReset (s : State) (power : Bool) : State :=
  let s0 := s.each (s.prog.filter fun p => p.2.running.isSome) fun t p => t.progInterrupt p.1
  let kept (k : Nat) : Bool := match cellField k with
    | none => false
    | some f => f.keep = .journal || (power && f.keep = .power)
  let base : State := { State.reset with
    regs := Tbl.keep s0.regs fun k _ => kept k
    plog := s0.plog
    cells := s0.cells
    rowCharge := s0.rowCharge
    jour := s0.jour
    prog := Tbl.update s0.prog fun _ p => { p with queued := none, running := none }
    powered := s0.poweredKept
    poweredKept := s0.poweredKept
    out := s0.out
    freeCtr := s0.freeCtr
    pending := s0.pending }
  let kept48 : State := if power then
      ({ base with log := s0.log, hbm := s0.hbm, hbmTags := s0.hbmTags, sec := s0.sec.cold }).each (List.range 12) fun t n =>
        t.wf R.HBM_SELF_REFRESH n 1
    else base
  let s1 := { kept48 with
    oa := { raise := s0.oa.raise, tries := s0.oa.tries, activated := s0.oa.activated, sections := s0.oa.sections }
    md := { fillDue := if power then [] else (List.range 12), resetN := s0.md.resetN, pwrgd := s0.md.pwrgd,
            reverseLatch := s0.md.reverseLatch } }
  let s2 := s1.each (Tbl.keys s1.sec.mans) fun t v =>
    if t.rb R.CARAVAN_COMPLETE 0 v then t.wf R.SERVE2_STATE 0 vRegistered v else t
  let s3 := s2.each s2.readyBanks fun t x => t.setPilot x.1 x.2 { t.pilot x.1 x.2 with wanted := true, cold := true }
  let s4 := s3.each (s.prog.filter fun p => p.2.running.isSome) fun t p => t.setInt (engPage p.1) R.INT_ENG_BANK_STATE
  (s4.rebuildMaps).countAbsent

/-- R562: the slot straps as read at a cold reset; a floating pin reads as 0 and is STRAP_OPEN. -/
def State.readStraps (s : State) (floating : Nat) : State :=
  let f := floating % 8
  let slot := Config.slot &&& (7 - f)
  ((((s.wf R.BOARD_STRAP_FLOAT 0 f).wf R.MOD_SLOT 0 slot).wf R.BOARD_SLOT 0 slot).wf R.BOARD_SB_ADDR 0 (0x50 + slot)).boardFault 10
    (decide (f ≠ 0))

/-- A cold reset that the module or a host orders: the ROM phase begins at once. The straps stand as they were. -/
def State.coldStart (s : State) : State :=
  ((((s.coldReset true).setPwrgd true).readStraps (s.rf R.BOARD_STRAP_FLOAT 0)).wf R.BOARD_FLASH_OWNED 0 1).phaseStart 0 msRom

/-- R333, R485, R491, R492: the host ports accept connection requests. -/
def State.accepts (s : State) : Bool :=
  (decide (msAwaitPlan ≤ s.modState) && decide (s.modState ≤ msLeft))
    || (decide (s.modState = msFailed) && (s.rf R.MOD1_FAIL_CAUSE 0 ≠ 5 || s.rf R.MOD1_PHASE_STAMP 0 4 ≠ 0))

end Sys2Proof.Machine
end

