-- ==== Sys2Proof/Machine/Host.lean ====
section
/-! DEFINITION. The host ports, chapter 11: frames, PFC, congestion control, addresses and link services (R323 to R330), the
transport and the queue pairs (R331 to R336), the commands NOP and IDENTIFY and the timeout of a command (R339 to R344). -/

namespace Sys2Proof.Machine

def hostPage (p : Nat) (page : Nat := 0) : Page := { blk := 0x28, inst := p, page := page }

/-! ### Link and frames -/

/-- R324: the queue pairs of a port. -/
def State.portQps (s : State) (p : Nat) : List Nat := (Tbl.keys s.qps).filter fun q => s.rf R.QP_PORT q = p

/-- Every queue pair of a port enters the error state. -/
def State.portError (s : State) (p cause : Nat) : State := s.each (s.portQps p) fun t q => t.qpError q cause

/-- A frame the port sends of its own. -/
def State.sendEth (s : State) (p : Nat) (k : EthKind) (ws : List Nat) : State := (s.emit (.eth p k ws)).inc R.HOST_FRAMES_TX p

/-- A message of the communication management protocol, R333. -/
def State.sendCm (s : State) (p : Nat) (k : CmKind) (q : Nat) (bytes : List Nat) : State :=
  (s.emit (.cm p k q bytes)).inc R.HOST_FRAMES_TX p

/-- R329: the interface identifier of the link-local address, by the modified EUI-64 rule. -/
def eui64 (mac : Nat) : Nat :=
  ((mac / 2 ^ 24 % 2 ^ 24) ^^^ 0x020000) * 2 ^ 40 + 0xFFFE * 2 ^ 24 + mac % 2 ^ 24

/-- R329: the port's link-local address. -/
def State.linkLocal (s : State) (p : Nat) : Nat × Nat := (0xFE80000000000000, eui64 (s.rf R.HOST_MAC_ADDR p))

/-- R329: the IPv6 addresses in use. -/
def State.ipv6 (s : State) (p : Nat) : List (Nat × Nat) :=
  s.linkLocal p :: (if s.rb R.HOST1_IPV6_EN p then [(s.rf R.HOST1_IPV6_HI p, s.rf R.HOST1_IPV6_LO p)] else [])

/-- R330: an unsolicited advertisement for each address. -/
def State.advertise (s : State) (p : Nat) : State :=
  s.each (s.ipv6 p) fun t a => t.sendEth p .neighbourAdvert [a.1, a.2, t.rf R.HOST_MAC_ADDR p]

/-- R324, R330: the link of an enabled port comes up at the speed in force. -/
def State.linkComesUp (s : State) (p : Nat) : State :=
  if !s.rb R.HOST_PORT_EN p || s.rb R.HOST_LINK_UP p then s
  else
    let st := s.port p
    let s1 := ((s.wf R.HOST_LINK_UP p 1).wf R.HOST_SPEED_ACTIVE p st.speed).wf R.HOST_FEC_LOCKED p 1
    let s2 := ((s1.wf R.HOST_LOCAL_FAULT p 0).wf R.HOST_REMOTE_FAULT p 0).setPort p
      { st with downSince := none, lldpDue := s.elapsed }
    (s2.setInt (hostPage p) R.INT_HOST_LINK_CHANGE).advertise p

/-- R325: the link of a port is lost. -/
def State.linkGoesDown (s : State) (p : Nat) : State :=
  if !s.rb R.HOST_LINK_UP p then s
  else
    let st := s.port p
    let s1 := ((s.wf R.HOST_LINK_UP p 0).wf R.HOST_FEC_LOCKED p 0).setPort p
      { st with downSince := some s.elapsed, txPaused := [], paused := false }
    s1.setInt (hostPage p) R.INT_HOST_LINK_CHANGE

/-- R325: the link has been down for more than 10 ms. -/
def State.linkTimeout (s : State) (p : Nat) : State :=
  match (s.port p).downSince with
  | some t =>
    if !s.rb R.HOST_LINK_UP p ∧ t + 10000000 < s.elapsed then
      (s.setPort p { s.port p with downSince := none }).portError p 0x14
    else s
  | none => s

/-- R323, R326: the frame is one the port supports. -/
def State.frameOk (s : State) (p : Nat) (f : EthFrame) : Bool :=
  let vlan := s.rf R.HOST1_VLAN_ID p
  let tagOk := match f.vlan with
    | none => true
    | some v => v = vlan && vlan ≠ 0
  let netOk :=
    if f.net = 1 then !f.extra && f.proto = 17 && (f.udpPort = 4791 || f.udpPort = 319 || f.udpPort = 320)
    else if f.net = 2 then !f.extra && ((f.proto = 17 && (f.udpPort = 4791 || f.udpPort = 319 || f.udpPort = 320)) || f.proto = 58)
    else 3 ≤ f.net && f.net ≤ 6
  decide (f.bytes ≤ s.rf R.HOST_MTU p + 22) && !f.stacked && tagOk && netOk
    && (decide (f.proto ≠ 17 ∨ f.udpPort ≠ 4791 ∨ (f.net ≠ 1 ∧ f.net ≠ 2)) || f.rdmaOk)

/-- R328: a CNP for a packet marked CE, no more often than the interval. -/
def State.markCe (s : State) (p q : Nat) : State :=
  let s1 := s.inc R.HOST1_ECN_CE_RX p
  let st := s1.qp q
  if !s1.connected q then s1
  else if st.cnpSent ∧ s1.elapsed < st.lastCnp + 1000 * s1.rf R.HOST1_CNP_INTERVAL_US p then s1
  else ((s1.setQp q { st with cnpSent := true, lastCnp := s1.elapsed }).inc R.HOST1_CNP_TX p).sendEth p (.cnp q) []

/-- FRAME_RECEIVE: R323, R326, R328 and the FEC counters of R352. -/
def State.frameReceive (s : State) (p : Nat) (f : EthFrame) : State :=
  if !s.rb R.HOST_LINK_UP p then s
  else
    let s1 := (s.inc R.HOST_FEC_CORRECTED p f.corrected).inc R.HOST_FEC_UNCORRECTED p f.uncorrected
    let s2 := (s1.when (decide (0 < f.uncorrected)) fun t => t.setInt (hostPage p) R.INT_HOST_FEC_UNCORRECTED).inc
      R.HOST_FRAMES_RX p
    if !s2.frameOk p f then s2.inc R.HOST_RX_DROPS p
    else s2.when (f.ce && (f.net = 1 || f.net = 2) && f.udpPort = 4791) fun t => t.markCe p f.qp

/-! ### PFC, R327 -/

/-- A PFC frame for the RoCE priority. -/
def State.sendPfc (s : State) (p quanta : Nat) : State :=
  s.sendEth p (.pfc (s.rf R.HOST1_ROCE_PCP p) quanta) []

def State.pfcXoff (s : State) (p occ : Nat) : State :=
  let st := s.port p
  let s1 := s.setPort p { st with occKib := occ }
  if s.rb R.HOST_LINK_UP p ∧ st.occKib ≤ s.rf R.HOST_XOFF_KIB p ∧ s.rf R.HOST_XOFF_KIB p < occ ∧ s.rb R.HOST_PFC_TX_EN p then
    (s1.setPort p { st with occKib := occ, paused := true, pauseDue := s.elapsed + 20000 }).sendPfc p 0xFFFF
  else s1

def State.pfcRepeat (s : State) (p occ : Nat) : State :=
  let st := s.port p
  let s1 := s.setPort p { st with occKib := occ }
  if st.paused ∧ s.rf R.HOST_XON_KIB p < occ ∧ st.pauseDue ≤ s.elapsed ∧ s.rb R.HOST_PFC_TX_EN p then
    (s1.setPort p { st with occKib := occ, pauseDue := s.elapsed + 20000 }).sendPfc p 0xFFFF
  else s1

def State.pfcXon (s : State) (p occ : Nat) : State :=
  let st := s.port p
  if (st.paused ∨ s.rf R.HOST_XON_KIB p ≤ st.occKib) ∧ occ < s.rf R.HOST_XON_KIB p then
    (s.setPort p { st with occKib := occ, paused := false }).when (s.rb R.HOST_PFC_TX_EN p) fun t => t.sendPfc p 0
  else s.setPort p { st with occKib := occ }

/-- Pause quanta in ns: 512 bit times at the active speed (IEEE 802.1Qbb, which R323 names). PRESUMED, log 22. -/
def State.quantaNs (s : State) (p q : Nat) : Nat :=
  let g := if s.rf R.HOST_SPEED_ACTIVE p = 0 then 400 else if s.rf R.HOST_SPEED_ACTIVE p = 1 then 200 else 100
  q * 512 / g

/-- PAUSED_US brought up to date: whole microseconds of transmission paused so far. -/
def State.settlePause (s : State) (p : Nat) : State :=
  let st := s.port p
  let fin := min s.elapsed ((st.txPaused.map (·.2)).foldl max 0)
  let us := (fin - st.pauseFrom) / 1000
  if us = 0 then s else (s.inc R.HOST_PAUSED_US p us).setPort p { st with pauseFrom := st.pauseFrom + 1000 * us }

/-- PFC_RECEIVE: for each enabled priority obeyed, quanta pause it and zero resumes it. -/
def State.pfcReceive (s : State) (p enable : Nat) (quanta : List Nat) : State :=
  let s0 := s.settlePause p
  let st := s0.port p
  let mask := s0.rf R.HOST_PFC_RX_MASK p
  let live := st.txPaused.filter fun x => s0.elapsed < x.2
  let from_ := if live.isEmpty then s0.elapsed else st.pauseFrom
  let upd (l : List (Nat × Nat)) (i : Nat) : List (Nat × Nat) :=
    if enable.testBit i && mask.testBit i then
      let l1 := l.filter fun x => x.1 ≠ i
      let q := quanta.getD i 0 % 65536
      if q = 0 then l1 else l1 ++ [(i, s0.elapsed + s0.quantaNs p q)]
    else l
  if s.rb R.HOST_LINK_UP p then
    s0.setPort p { st with txPaused := (List.range 8).foldl upd live, pauseFrom := from_ }
  else s

/-! ### DCQCN, R328 -/

/-- The line rate of a queue pair's port in Mb/s. -/
def State.lineRate (s : State) (q : Nat) : Nat :=
  let p := s.rf R.QP_PORT q
  if s.rf R.HOST_SPEED_ACTIVE p = 0 then 400000 else if s.rf R.HOST_SPEED_ACTIVE p = 1 then 200000 else 100000

/-- A rate in Mb/s from an exact quotient; how a fraction rounds is left open (log 22). -/
def State.rateOf (s : State) (num den : Nat) : Nat × State :=
  if num % den = 0 then (num / den, s)
  else
    let (b, s1) := s.draw 1
    (num / den + b, s1)

/-- The rate of a queue pair, not below MIN_RATE_MBPS and not above the line. -/
def State.setRate (s : State) (q r : Nat) : State :=
  s.wf R.QP_RATE_MBPS q (min (s.lineRate q) (max (s.rf R.HOST1_MIN_RATE_MBPS (s.rf R.QP_PORT q)) r))

/-- R328: α after a step of gain g = 2^-G_SHIFT, toward one at a CNP. -/
def State.alphaStep (s : State) (q : Nat) (cnp : Bool) : Nat :=
  let a := (s.qp q).alpha
  let g := s.rf R.HOST1_G_SHIFT (s.rf R.QP_PORT q)
  a - a / 2 ^ g + (if cnp then 2 ^ 32 / 2 ^ g else 0)

/-- CNP_RECEIVE. -/
def State.cnpReceive (s : State) (q : Nat) : State :=
  if !s.connected q then s
  else
    let p := s.rf R.QP_PORT q
    let s1 := (s.inc R.HOST1_CNP_RX p).inc R.QP_CNPS q
    let st := s1.qp q
    let r := s1.rf R.QP_RATE_MBPS q
    let (r2, s2) := s1.rateOf (r * (2 ^ 33 - st.alpha)) (2 ^ 33)
    (s2.setRate q r2).setQp q { st with target := r, alpha := s1.alphaStep q true, incStage := 0, incAt := s1.elapsed }

/-- RATE_INCREASE: five fast-recovery steps halve the distance to the target, then each step raises the target first. -/
def State.rateIncrease (s : State) (q : Nat) : State :=
  let p := s.rf R.QP_PORT q
  let st := s.qp q
  if !s.connected q ∨ s.elapsed < st.incAt + 1000 * s.rf R.HOST1_RATE_INC_US p ∨ s.lineRate q ≤ s.rf R.QP_RATE_MBPS q then s
  else
    let tgt := if st.incStage < 5 then st.target else min (s.lineRate q) (st.target + Config.dcqcnStep)
    let (r2, s1) := s.rateOf (s.rf R.QP_RATE_MBPS q + tgt) 2
    (s1.setRate q r2).setQp q
      { st with target := tgt, incStage := st.incStage + 1, incAt := s.elapsed, alpha := s.alphaStep q false }

/-! ### Address services, R330 -/

def State.arpRequest (s : State) (p ip : Nat) : State :=
  if s.rb R.HOST_LINK_UP p ∧ s.rb R.HOST1_IPV4_EN p ∧ ip = s.rf R.HOST1_IPV4_ADDR p then
    s.sendEth p .arpReply [ip, s.rf R.HOST_MAC_ADDR p]
  else s

def State.neighbourSolicitation (s : State) (p hi lo : Nat) : State :=
  if s.rb R.HOST_LINK_UP p && (s.ipv6 p).contains (hi, lo) then
    s.sendEth p .neighbourAdvert [hi, lo, s.rf R.HOST_MAC_ADDR p]
  else s

/-- R330: chassis ID, port ID, TTL, system name and the management addresses. -/
def State.lldpSend (s : State) (p : Nat) : State :=
  let st := s.port p
  if s.rb R.HOST_LINK_UP p ∧ st.lldpDue ≤ s.elapsed then
    let v4 := if s.rb R.HOST1_IPV4_EN p then [s.rf R.HOST1_IPV4_ADDR p] else []
    (s.setPort p { st with lldpDue := s.elapsed + 30000000000 }).sendEth p .lldp
      ([s.rf R.HOST_MAC_ADDR p, 0x41 + p, 120, s.rf R.MOD_SERIAL 0] ++ v4 ++ (s.ipv6 p).flatMap fun a => [a.1, a.2])
  else s

def State.lldpReceive (s : State) (p chassis portId : Nat) : State :=
  if s.rb R.HOST_LINK_UP p then
    ((s.wf R.HOST_LLDP_CHASSIS p chassis).wf R.HOST_LLDP_PORT p portId).wf R.HOST_LLDP_STAMP p s.now
  else s

/-! ### Transport and connections -/

/-- INBOUND_RDMA, R332. -/
def State.inboundRdma (s : State) (q : Nat) : State :=
  if !s.connected q then s
  else
    let p := s.rf R.QP_PORT q
    ((((s.emit (.nak q true)).framesOut q 1).inc R.HOST1_INBOUND_RDMA_REJECTS p).setInt (hostPage p 1) R.INT_HOST1_INBOUND_RDMA).qpError q 0x11

/-- REMOTE_NAK, R332. -/
def State.remoteNak (s : State) (q : Nat) : State := if s.connected q then s.qpError q 0x12 else s

/-- R333: the private data and the resources of a REQ are as Vorane requires. -/
def cmReqOk (r : CmReq) : Bool :=
  r.priv.take 8 == [1, 0, 0, 0, 0, 0, 0, 0] && decide (1 ≤ r.resources) && decide (3 ≤ r.pmtu ∧ r.pmtu ≤ 5)

/-- R7: the `n` bytes of a number, least significant first. -/
def bytesLe : Nat → Nat → List Nat
  | 0, _ => []
  | n + 1, v => v % 256 :: bytesLe n (v / 256)

/-- CM_REQ: R333, R334; discarded before the ports accept connections (R491). -/
def State.cmReq (s : State) (p : Nat) (r : CmReq) : State :=
  if !s.rb R.HOST_LINK_UP p || !s.accepts then s
  else if !cmReqOk r then s.sendCm p (.rej 28) 0 []
  else match (List.range 1024).find? fun q => s.rf R.QP_STATE q = 0 with
    | none => s.sendCm p (.rej 1) 0 []
    | some q =>
      let (psn, s0) := s.draw 24
      let s1 := ((((s0.wf R.QP_STATE q 1).wf R.QP_PORT q p).wf R.QP_REMOTE_QPN q r.qpn).wf R.QP_REMOTE_IP_HI q r.ipHi).wf
        R.QP_REMOTE_IP_LO q r.ipLo
      let s2 := ((((s1.wf R.QP_NEXT_HOP_MAC q r.mac).wf R.QP_PMTU q r.pmtu).wf R.QP_RETRY_CNT q r.retryCnt).wf
        R.QP_RNR_RETRY q r.rnrRetry).wf R.QP_ACK_TIMEOUT q r.ackTimeout
      let s3 := ((s2.wf R.QP_SQ_PSN q psn).wf R.QP_RQ_PSN q r.psn).setQp q { maxReads := min 16 r.resources }
      s3.sendCm p .rep q (bytesLe 2 q ++ [32] ++ bytesLe 2 1024 ++ [0, 0, 0] ++ bytesLe 8 s3.now)

/-- CM_RTU: R333. -/
def State.cmRtu (s : State) (q : Nat) : State :=
  if s.rf R.QP_STATE q = 1 then
    let s1 := (s.wf R.QP_STATE q 2).wf R.QP_CONNECT_STAMP q s.now
    let s2 := (s1.wf R.QP_RATE_MBPS q (s1.lineRate q)).setQp q { s1.qp q with target := s1.lineRate q }
    s2.countQps (s2.rf R.QP_PORT q)
  else s

/-- CM_REJ: R333. -/
def State.cmRej (s : State) (q : Nat) : State := if s.rf R.QP_STATE q = 1 then s.qpIdle q else s

/-- R336: what leaving CONNECTED does, where the queue pair is connected. -/
def State.qpDisconnect (s : State) (q : Nat) : State := if s.connected q then s.qpLeave q else s

/-- CM_DREQ: R336. The exchange ends with the module's DREP. -/
def State.cmDreq (s : State) (q : Nat) : State :=
  if s.rf R.QP_STATE q = 0 then s
  else
    let p := s.rf R.QP_PORT q
    let s1 := (s.qpDisconnect q).capture (qpPage q) 0 0 0x15 7 0
    ((s1.sendCm p .drep q []).qpIdle q).countQps p

/-- CM_DREP: R333. -/
def State.cmDrep (s : State) (q : Nat) : State := if s.rf R.QP_STATE q = 4 then s.qpIdle q else s

/-- R336: a write of QP.CLOSE sends a DREQ. -/
def State.qpClose (s : State) (q : Nat) : State :=
  if s.rf R.QP_STATE q = 0 ∨ s.rf R.QP_STATE q = 4 then s
  else
    let p := s.rf R.QP_PORT q
    (((s.qpDisconnect q).wf R.QP_STATE q 4).sendCm p .dreq q []).countQps p

/-- Sequence numbers of packets: `a` precedes or equals `b` in the 24-bit space. -/
def psnLe (a b : Nat) : Bool := decide ((b + 2 ^ 24 - a % 2 ^ 24) % 2 ^ 24 < 2 ^ 23)

/-- Packets of the send stream from a sequence number on. -/
def unackedFrom (l : List (Nat × Nat)) (psn : Nat) : List (Nat × Nat) := l.filter fun m => !psnLe (m.1 + m.2) psn

/-- Retransmission of what is unacknowledged. -/
def State.retransmit (s : State) (q : Nat) : State :=
  let n := ((s.qp q).unacked.map (·.2)).sum
  match (s.qp q).unacked with
  | [] => s
  | m :: _ => ((s.emit (.retransmit q m.1 n)).framesOut q n).inc R.QP_RETRANSMITS q n

/-- RC_ACK: kind 0 an ACK of packets through `psn`, 1 a sequence-error NAK naming `psn`, 2 an RNR NAK naming `psn` (R331). -/
def State.rcAck (s : State) (q kind psn : Nat) : State :=
  if !s.connected q then s
  else
    let st := s.qp q
    if kind = 0 then
      s.setQp q { st with unacked := unackedFrom st.unacked (psn + 1), retries := 0, rnrRetries := 0 }
    else if kind = 1 then
      (s.setQp q { st with unacked := unackedFrom st.unacked psn, retries := 0 }).retransmit q
    else if s.rf R.QP_RNR_RETRY q ≠ 7 ∧ s.rf R.QP_RNR_RETRY q ≤ st.rnrRetries then s.qpError q 0x10
    else
      (s.setQp q { st with unacked := unackedFrom st.unacked psn, rnrRetries := st.rnrRetries + 1 }).retransmit q

/-- RC_RETRY_TIMEOUT, R331. -/
def State.rcTimeout (s : State) (q : Nat) : State :=
  let st := s.qp q
  if !s.connected q ∨ st.unacked = [] then s
  else if s.rf R.QP_RETRY_CNT q ≤ st.retries then s.qpError q 0x10
  else (s.setQp q { st with retries := st.retries + 1 }).retransmit q

/-! ### Commands -/

/-- COMMAND_TIMEOUT, R341. -/
def State.commandTimeout (s : State) (q id : Nat) : State :=
  match s.openCmd q id with
  | none => s
  | some o =>
    if o.sent ∨ s.elapsed ≤ o.due then s
    else if o.effect then
      ((s.setCmd q id fun x => { x with sent := true }).setRec q id fun r =>
        { r with result := resTimedOut, body := o.body }).sendCompletion q id o.opcode resTimedOut o.arrival o.body
    else (s.withdraw q id).sendCompletion q id o.opcode resTimedOut o.arrival []

/-- UNKNOWN_OPCODE: the front end's answer (R339). A word of a known opcode is another row's. -/
def State.unknownOpcode (s : State) (i : Instr) (opcode : Nat) (c : Cmd) : State :=
  if knownOpcodes.contains opcode then s else s.vorane i opcode c .f true id

def State.nop (s : State) (i : Instr) (c : Cmd) : State := s.vorane i 0x01 c .f (c.bodyWords = 0) fun t => t.reply c []

/-- IDENTIFY, R344. -/
def State.identify (s : State) (i : Instr) (c : Cmd) : State :=
  s.vorane i 0x02 c .q (c.bodyWords = 0) fun t =>
    t.reply c [t.rf R.MOD_PART_NUMBER 0, t.rf R.MOD_SERIAL 0,
      pack [(0xA1, 0, 8), (t.modState, 8, 8), (c.qp, 16, 10), (t.rf R.QP_PORT c.qp, 26, 1)], t.now]

/-! ### Rows -/

/-- FRAME_RECEIVE, R323. -/
def execFrameReceive (port : Nat) (f : EthFrame) (s : State) : Host.Outcome State Fault Refusal :=
  .next (s.frameReceive (port % 2) f)

/-- LINK_UP, R330. -/
def execLinkUp (port : Nat) (s : State) : Host.Outcome State Fault Refusal := .next (s.linkComesUp (port % 2))

/-- LINK_LOSS, R325. -/
def execLinkLoss (port : Nat) (s : State) : Host.Outcome State Fault Refusal := .next (s.linkGoesDown (port % 2))

/-- LINK_DOWN_TIMEOUT, R325. -/
def execLinkDownTimeout (port : Nat) (s : State) : Host.Outcome State Fault Refusal := .next (s.linkTimeout (port % 2))

/-- PFC_XOFF, R327: the occupancy of the receive buffer is now `occ` KiB. -/
def execPfcXoff (port occ : Nat) (s : State) : Host.Outcome State Fault Refusal := .next (s.pfcXoff (port % 2) occ)

/-- PFC_REPEAT, R327. -/
def execPfcRepeat (port occ : Nat) (s : State) : Host.Outcome State Fault Refusal := .next (s.pfcRepeat (port % 2) occ)

/-- PFC_XON, R327. -/
def execPfcXon (port occ : Nat) (s : State) : Host.Outcome State Fault Refusal := .next (s.pfcXon (port % 2) occ)

/-- PFC_RECEIVE, R327. -/
def execPfcReceive (port enable : Nat) (quanta : List Nat) (s : State) : Host.Outcome State Fault Refusal :=
  .next (s.pfcReceive (port % 2) enable quanta)

/-- CNP_RECEIVE, R328. -/
def execCnpReceive (qp : Nat) (s : State) : Host.Outcome State Fault Refusal := .next (s.cnpReceive qp)

/-- RATE_INCREASE, R328. -/
def execRateIncrease (qp : Nat) (s : State) : Host.Outcome State Fault Refusal := .next (s.rateIncrease qp)

/-- ARP_REQUEST, R330. -/
def execArpRequest (port ip : Nat) (s : State) : Host.Outcome State Fault Refusal := .next (s.arpRequest (port % 2) ip)

/-- NEIGHBOUR_SOLICITATION, R330. -/
def execNeighbourSolicitation (port hi lo : Nat) (s : State) : Host.Outcome State Fault Refusal :=
  .next (s.neighbourSolicitation (port % 2) hi lo)

/-- LLDP_SEND, R330. -/
def execLldpSend (port : Nat) (s : State) : Host.Outcome State Fault Refusal := .next (s.lldpSend (port % 2))

/-- LLDP_RECEIVE, R330. -/
def execLldpReceive (port chassis portId : Nat) (s : State) : Host.Outcome State Fault Refusal :=
  .next (s.lldpReceive (port % 2) chassis portId)

/-- INBOUND_RDMA, R332. -/
def execInboundRdma (qp : Nat) (s : State) : Host.Outcome State Fault Refusal := .next (s.inboundRdma qp)

/-- REMOTE_NAK, R332. -/
def execRemoteNak (qp : Nat) (s : State) : Host.Outcome State Fault Refusal := .next (s.remoteNak qp)

/-- CM_REQ, R333. -/
def execCmReq (port : Nat) (r : CmReq) (s : State) : Host.Outcome State Fault Refusal := .next (s.cmReq (port % 2) r)

/-- CM_RTU, R333. -/
def execCmRtu (qp : Nat) (s : State) : Host.Outcome State Fault Refusal := .next (s.cmRtu qp)

/-- CM_REJ, R333. -/
def execCmRej (qp : Nat) (s : State) : Host.Outcome State Fault Refusal := .next (s.cmRej qp)

/-- CM_DREQ, R336. -/
def execCmDreq (qp : Nat) (s : State) : Host.Outcome State Fault Refusal := .next (s.cmDreq qp)

/-- CM_DREP, R333. -/
def execCmDrep (qp : Nat) (s : State) : Host.Outcome State Fault Refusal := .next (s.cmDrep qp)

/-- QP_ERROR, R336, with a cause of R355. -/
def execQpError (qp cause : Nat) (s : State) : Host.Outcome State Fault Refusal := .next (s.qpError qp cause)

/-- RC_ACK, R331. -/
def execRcAck (qp kind psn : Nat) (s : State) : Host.Outcome State Fault Refusal := .next (s.rcAck qp kind psn)

/-- RC_RETRY_TIMEOUT, R331. -/
def execRcRetryTimeout (qp : Nat) (s : State) : Host.Outcome State Fault Refusal := .next (s.rcTimeout qp)

/-- COMMAND_TIMEOUT, R341. -/
def execCommandTimeout (qp id : Nat) (s : State) : Host.Outcome State Fault Refusal := .next (s.commandTimeout qp id)

/-- UNKNOWN_OPCODE, R339. -/
def execUnknownOpcode (opcode : Nat) (c : Cmd) (s : State) : Host.Outcome State Fault Refusal := .next (s.unknownOpcode (.unknownOpcode opcode c) opcode c)

/-- NOP, R344. -/
def execNop (c : Cmd) (s : State) : Host.Outcome State Fault Refusal := .next (s.nop (.nop c) c)

/-- IDENTIFY, R344. -/
def execIdentify (c : Cmd) (s : State) : Host.Outcome State Fault Refusal := .next (s.identify (.identify c) c)

end Sys2Proof.Machine
end

