-- ==== Sys2Proof/Machine/Sema.lean ====
section
/-! DEFINITION. The semaphore commands and the lease's expiry, R346 to R351. What SEM_OP does is here; the write that orders it is
the register window's. -/

namespace Sys2Proof.Machine

/-- R348: an acquire by a holder: GRANTED, ALREADY_HOLDER with its lease replaced, or HELD_BY_OTHER. -/
def State.semAcquire (s : State) (i holder source leaseMs : Nat) : Nat × State :=
  if !s.semHeld i then (0, s.semGrant i holder source leaseMs)
  else if s.semHeldBy i holder source then (2, s.setSem i { s.sem i with lease := s.leaseDue leaseMs })
  else (1, s)

/-- R348: a release by a holder: RELEASED or NOT_HOLDER. -/
def State.semRelease (s : State) (i holder source : Nat) : Nat × State :=
  if s.semHeldBy i holder source then (4, (s.semFree i).semNext i) else (5, s)

/-- R347: other bits of the body words are zero; R570 gives BAD_FRAME. -/
def semBodyOk (c : Cmd) (mask words : Nat) : Bool := c.bodyWords = words && (c.w 0) &&& mask = c.w 0

/-- SEM_ACQUIRE, R347, R348. -/
def State.semAcquireCmd (s : State) (instr : Instr) (c : Cmd) : State :=
  let i := c.f 0 0 8
  let wait := c.b 0 8
  let ms := c.f 0 16 16
  s.vorane instr 0x12 c (if wait then .l else .f) (semBodyOk c 0xFFFF01FF 1) fun t =>
    let h := t.holderCode c.qp
    let (r, t1) := t.semAcquire i h c.qp ms
    if r ≠ 1 then t1.reply c [t1.semWord i r, t1.semStamp i]
    else if !wait then t1.reply c [t1.semWord i 1, t1.semStamp i]
    else if 16 ≤ (t1.sem i).waiters.length then t1.reply c [t1.semWord i 3, t1.semStamp i]
    else
      let v := t1.sem i
      (t1.setSem i { v with waiters := v.waiters ++ [(c.qp, c.cmdId, ms)] }).semCount i

/-- SEM_RELEASE, R347, R348. -/
def State.semReleaseCmd (s : State) (instr : Instr) (c : Cmd) : State :=
  let i := c.f 0 0 8
  s.vorane instr 0x13 c .f (semBodyOk c 0xFF 1) fun t =>
    let (r, t1) := t.semRelease i (t.holderCode c.qp) c.qp
    t1.reply c [t1.semWord i r]

/-- SEM_BREAK, R347, R349. -/
def State.semBreakCmd (s : State) (instr : Instr) (c : Cmd) : State :=
  let i := c.f 0 0 8
  s.vorane instr 0x14 c .f (semBodyOk c 0xFF 2) fun t =>
    let (r, t1) := if !t.semHeld i then (8, t) else if t.semStamp i ≠ c.w 1 then (7, t) else (6, t.semBreak i 0)
    t1.reply c [t1.semWord i r, t1.semStamp i]

/-- R350: an operation through SEM_OP by a master: 0 ACQUIRE, 1 RELEASE, 2 BREAK. -/
def State.semOp (s : State) (holder source i op leaseMs : Nat) : State :=
  if op = 0 then (s.semAcquire i holder source leaseMs).2
  else if op = 1 then (s.semRelease i holder source).2
  else if op = 2 ∧ s.semHeld i then s.semBreak i 4 else s

/-- LEASE_EXPIRY, R349: judged after the operations of the cycle. -/
def State.leaseExpiry (s : State) (i : Nat) : State :=
  match (s.sem i).lease with
  | some d => if s.semHeld i ∧ d ≤ s.elapsed then s.semBreak i 1 else s
  | none => s

/-- SEM_ACQUIRE, R348. -/
def execSemAcquire (c : Cmd) (s : State) : Host.Outcome State Fault Refusal := .next (s.semAcquireCmd (.semAcquire c) c)

/-- SEM_RELEASE, R348. -/
def execSemRelease (c : Cmd) (s : State) : Host.Outcome State Fault Refusal := .next (s.semReleaseCmd (.semRelease c) c)

/-- SEM_BREAK, R349. -/
def execSemBreak (c : Cmd) (s : State) : Host.Outcome State Fault Refusal := .next (s.semBreakCmd (.semBreak c) c)

/-- LEASE_EXPIRY, R349. -/
def execLeaseExpiry (i : Nat) (s : State) : Host.Outcome State Fault Refusal := .next (s.leaseExpiry (i % 256))

end Sys2Proof.Machine
end

