-- ==== Sys2Proof/Machine/Oasis.lean ====
section
/-! DEFINITION. Oasis, chapter 17: its watchdogs and restart (R504 to R507), heartbeats (R508), Sandglass time and its servo (R509
to R514, with the PTP messages of R337), the event log and its readers (R515 to R520), page interrupts (R51) and STATUS_QUERY
(R522). -/

namespace Sys2Proof.Machine

/-! ### Restart -/

/-- R476, R525: a command ends as if its timeout had expired now, and its record is final. -/
def State.cutCmd (s : State) (q id : Nat) : State :=
  match s.openCmd q id with
  | none => s
  | some o =>
    if o.effect then
      let s1 := { s with cmds := s.cmds.filter fun x => !(x.qp = q && x.cmdId = id) }
      let s2 := s1.setRec q id fun r => { r with result := resTimedOut, final := true, body := o.body }
      if o.sent then s2 else s2.sendCompletion q id o.opcode resTimedOut o.arrival o.body
    else
      let s1 := s.withdraw q id
      if o.sent then s1 else s1.sendCompletion q id o.opcode resTimedOut o.arrival []

/-- R525: a staging in progress is abandoned; the slot it writes is EMPTY. -/
def State.abandonStage (s : State) : State :=
  match s.oa.stage with
  | none => s
  | some (q, id, slot) =>
    let s1 := { s with oa := { s.oa with stage := none, stageNext := none, fwChunks := [] } }
    ((s1.wf (slotStateF slot) 0 0).wf R.OASIS3_UPDATE_OPEN 0 0).cutCmd q id

/-- R424: a return to the ROM makes an uncommitted trial BAD. -/
def State.trialBad (s : State) : State :=
  if s.rb R.OASIS3_RUNNING_TRIAL 0 then
    ((s.wf (slotStateF (s.rf R.OASIS3_RUNNING_SLOT 0)) 0 4).wf R.OASIS3_RUNNING_TRIAL 0 0).wf R.KEYS_TRIAL_BOOT 0 0
  else s

/-- R507: the OASIS_RESTART record; the running stamp is 0 when escalated. -/
def State.logRestart (s : State) (running : Nat) : State :=
  s.logEv 0x0101 (oasisPage 0).index 0 [s.oa.restartCause, s.rf R.OASIS_LAST_RESTART_STAMP 0, running, 0]

/-- R507: the module cold resets in place of a runtime start; the escalation is logged before it. -/
def State.oasisEscalate (s : State) : State := (s.logRestart 0).raiseAlert.coldStart.raiseAlert

/-- R504, R505, R507: an Oasis restart begins, or escalates when it comes too soon after the last one. -/
def State.oasisRestart (s : State) (cause : Nat) : State :=
  if s.rb R.OASIS_RESTARTING 0 then s
  else
    let s1 := ((s.wf R.OASIS_LAST_RESTART_STAMP 0 s.now).wf R.OASIS_LAST_RESTART_CAUSE 0 cause).incSat R.OASIS_OASIS_RESTARTS 0
    let soon := match s.oa.restartEnd with
      | some e => decide (s.elapsed < e + 1000000000 * s.rf R.OASIS_OASIS_REPEAT_S 0)
      | none => false
    let s2 := { s1 with oa := { s1.oa with restartCause := cause, hostDue := false } }
    if soon && cause ≠ 3 then s2.oasisEscalate
    else
      let s3 := { s2 with oa := { s2.oa with restartAt := some s.elapsed, wasTrial := s.rb R.OASIS3_RUNNING_TRIAL 0 } }
      (s3.wf R.OASIS_RESTARTING 0 1).abandonStage.trialBad

/-- OASIS_RESTART_DONE: `ok` says that the image chosen has the running image's digest and the retained region passes its CRC. -/
def State.oasisRunning (s : State) (ok : Bool) : State :=
  if !s.rb R.OASIS_RESTARTING 0 then s
  else if !ok || s.oa.wasTrial then s.oasisEscalate
  else
    let s1 := { s with oa := { s.oa with restartAt := none, restartEnd := some s.elapsed, roundAt := s.elapsed } }
    (((s1.wf R.OASIS_RESTARTING 0 0).setInt (oasisPage 0) R.INT_OASIS_RESTARTED).logRestart s1.now).raiseAlert

/-- OASIS_RESTART_TIMEOUT, R507. -/
def State.oasisOverrun (s : State) : State :=
  match s.oa.restartAt with
  | some t => if s.rb R.OASIS_RESTARTING 0 ∧ t + 400000000 < s.elapsed then s.oasisEscalate else s
  | none => s

/-! ### Heartbeats, R508 -/

def State.beatBody (s : State) (echoed : Bool) : List Nat :=
  [pack [(bit echoed, 0, 1), (s.rf R.OASIS_RESTARTING 0, 1, 1), (s.rf R.OASIS_HB_MISSES 0, 16, 16)], s.oa.echoStamp,
   s.rf R.OASIS_OASIS_RESTARTS 0]

/-- A HEARTBEAT command; RESTART 1 orders an Oasis restart at once. -/
def State.heartbeat (s : State) (i : Instr) (c : Cmd) : State :=
  s.vorane i 0x45 c .f (c.bodyWords = 1 && c.f 0 33 31 = 0) fun t =>
    let t1 := ((t.wf R.OASIS_HB_NONCE 0 (c.f 0 0 32)).wf R.OASIS_LAST_HEARTBEAT_STAMP 0 t.now).wf R.OASIS_HOST_SILENT 0 0
    let t2 := { t1 with oa := { t1.oa with
      lastBeat := some t1.elapsed
      beats := t1.oa.beats ++ [(c.qp, c.cmdId, c.f 0 0 32, t1.elapsed + 500000)] } }
    let t3 := t2.when (c.b 0 32) fun u => u.oasisRestart 3
    t3.takeEffect c.qp c.cmdId (t3.beatBody false)

/-- HB_ECHO: Oasis firmware copies the nonce; heartbeats that carry it complete. -/
def State.hbEcho (s : State) : State :=
  if s.rb R.OASIS_RESTARTING 0 || s.oa.beats.isEmpty then s
  else
    let n := s.rf R.OASIS_HB_NONCE 0
    let met := s.oa.beats.filter fun b => b.2.2.1 = n
    let s1 := (s.wf R.OASIS_HB_ECHO 0 n).wf R.OASIS_HB_MISSES 0 0
    let s2 := { s1 with oa := { s1.oa with
      beats := s1.oa.beats.filter fun b => b.2.2.1 ≠ n, echoStamp := s1.now, hostDue := false } }
    s2.each met fun t b => t.finish b.1 b.2.1 (t.beatBody true)

/-- HEARTBEAT_ECHO_TIMEOUT. -/
def State.beatTimeout (s : State) (q id : Nat) : State :=
  match s.oa.beats.find? fun b => b.1 = q && b.2.1 = id && decide (b.2.2.2 ≤ s.elapsed) with
  | none => s
  | some _ =>
    let s1 := { s with oa := { s.oa with beats := s.oa.beats.filter fun b => !(b.1 = q && b.2.1 = id) } }
    let s2 := (s1.incSat R.OASIS_HB_MISSES 0).setInt (oasisPage 0) R.INT_OASIS_HB_MISS
    let lim := s2.rf R.OASIS_HB_MISS_LIMIT 0
    let s3 := if lim ≠ 0 ∧ s2.rf R.OASIS_HB_MISSES 0 = lim then { s2 with oa := { s2.oa with hostDue := true } } else s2
    s3.finish q id (s3.beatBody false)

/-- WD_HOST, R508. -/
def State.wdHost (s : State) : State :=
  if s.oa.hostDue then ({ s with oa := { s.oa with hostDue := false } }).oasisRestart 2 else s

/-- WD_ROUND: no slow round has ended for the limit (R504). -/
def State.wdRound (s : State) : State :=
  if s.oa.roundAt + 1000000 * s.rf R.OASIS_ROUND_LIMIT_MS 0 ≤ s.elapsed then s.oasisRestart 1 else s

/-- HOST_SILENT, R508. -/
def State.hostSilent (s : State) : State :=
  let ms := s.rf R.OASIS_HOST_SILENT_MS 0
  if ms ≠ 0 ∧ !s.rb R.OASIS_HOST_SILENT 0 ∧ s.oa.lastBeat.getD 0 + 1000000 * ms ≤ s.elapsed then
    ((s.wf R.OASIS_HOST_SILENT 0 1).setInt (oasisPage 0) R.INT_OASIS_HOST_SILENT).logEv 0x0102 (oasisPage 0).index 0
      [s.rf R.OASIS_LAST_HEARTBEAT_STAMP 0, 0, 0, 0]
  else s

/-! ### Sandglass time -/

/-- R511: a step is permitted only while the module is not READY, LEAVING or LEFT. -/
def State.stepPermitted (s : State) : Bool := s.modState ≠ msReady && s.modState ≠ msLeaving && s.modState ≠ msLeft

/-- R511: a step of `off` ns, by zero included. Source 0 TIME_SET, 1 PTP, 2 torus. -/
def State.timeStep (s : State) (off src : Nat) : State :=
  let old := s.now
  let new := s.now + off
  let s1 := { s with now := new }
  let s2 := ((s1.wf R.OASIS2_LAST_STEP_OLD 0 old).wf R.OASIS2_LAST_STEP_NEW 0 new).inc R.OASIS2_STEP_COUNT 0
  let s3 := s2.when (!s2.rb R.OASIS2_EPOCH_SET 0) fun t =>
    ((t.wf R.OASIS2_EPOCH_SET 0 1).wf R.OASIS2_FIRST_STEP_OLD 0 old).wf R.OASIS2_FIRST_STEP_NEW 0 new
  (s3.setInt (oasisPage 2) R.INT_OASIS2_STEPPED).logEv 0x0002 (oasisPage 2).index 0 [old, new, src, 0]

/-- R511: a slew of `off` ns at a rate of at most 200 ppm, which the spec leaves open but where it gives 200 ppm. -/
def State.slewBy (s : State) (off : Int) (full : Bool) : State :=
  let (r, s1) := s.draw 32
  let mag : Int := if full then 200000 else (1 + r % 200000 : Nat)
  let rate : Int := if off = 0 then 0 else if 0 < off then mag else -mag
  ({ s1 with oa := { s1.oa with slew := off, slewFrac := 0 } }).wf R.OASIS2_RATE_PPB 0 (fieldOfInt 32 rate)

/-- R511, R513: one ns passes: the counter counts it, and the slew's rate adds or withholds a count. -/
def State.tickTime (s : State) : State :=
  let rate := signedOf 32 (s.rf R.OASIS2_RATE_PPB 0)
  let frac := s.oa.slewFrac + rate
  let d : Int := if 1000000000 ≤ frac then 1 else if frac ≤ -1000000000 then -1 else 0
  let rest := if s.oa.slew = 0 then 0 else s.oa.slew - d
  let s1 := { s with
    elapsed := s.elapsed + 1
    now := (s.now + 1 + d).toNat
    oa := { s.oa with slewFrac := frac - d * 1000000000, slew := rest } }
  if s.oa.slew ≠ 0 ∧ rest = 0 then s1.wf R.OASIS2_RATE_PPB 0 0 else s1

/-- R513: the bound as it reads: none while ACQUIRING, growing by 5 ns for each ms in HOLDOVER. -/
def State.timeBound (s : State) : Nat :=
  let st := s.rf R.OASIS2_SYNC_STATE 0
  if st = 1 then 0xFFFFFFFF
  else if st = 4 then min 0xFFFFFFFF (s.oa.boundBase + (s.elapsed - s.oa.holdAt) / 1000000 * 5)
  else s.rf R.OASIS2_TIME_BOUND_NS 0

/-- R513: SYNC_STATE changes. -/
def State.setSync (s : State) (st : Nat) : State :=
  if s.rf R.OASIS2_SYNC_STATE 0 = st then s
  else (s.wf R.OASIS2_SYNC_STATE 0 st).setInt (oasisPage 2) R.INT_OASIS2_SYNC_CHANGE

/-- R512, R513: the source has locked, with a bound on the error; the bound follows each later time frame. -/
def State.syncLock (s : State) (st : Nat) (bound : Option Nat) : State :=
  if s.rf R.OASIS2_SYNC_STATE 0 = st then
    match bound with
    | some b => s.wf R.OASIS2_TIME_BOUND_NS 0 b
    | none => s
  else
    let (b, s1) := match bound with
      | some b => (b, s)
      | none => s.draw 32
    (({ s1 with oa := { s1.oa with locked := if s1.oa.locked.contains st then s1.oa.locked else st :: s1.oa.locked } }).wf R.OASIS2_TIME_BOUND_NS 0 b).setSync st

/-- R512, R513: SYNC_STATE after a write of SYNC_MODE: FREE in mode FREE only; a lock on a source the mode does not follow is lost. -/
def State.syncMode (s : State) : State :=
  let mode := s.rf R.OASIS2_SYNC_MODE 0
  let st := s.rf R.OASIS2_SYNC_STATE 0
  if mode = 3 then s.setSync 0
  else if st = 0 then s.setSync 1
  else if st = 2 ∧ mode = 2 then s.setSync (if s.oa.locked.contains 3 then 4 else 1)
  else if st = 3 ∧ mode = 1 then s.setSync (if s.oa.locked.contains 2 then 4 else 1)
  else s

/-- R512: the servo acts on an offset, positive when the local time is behind. Source 1 PTP, 2 torus. -/
def State.servo (s : State) (off : Int) (src : Nat) (bound : Option Nat) : State :=
  let thr : Int := s.rf R.OASIS2_STEP_THRESHOLD_NS 0
  let s1 := (s.wf R.OASIS2_OFFSET_NS 0 (fieldOfInt 64 off)).syncLock (src + 1) bound
  let far := decide (thr < off ∨ off < -thr)
  if decide (thr < off) && s.stepPermitted then s1.timeStep off.toNat src
  else if far && !s.stepPermitted then
    let s2 := if s1.rb R.OASIS2_TIME_FAR 0 then s1
      else ((s1.wf R.OASIS2_TIME_FAR 0 1).setInt (oasisPage 2) R.INT_OASIS2_TIME_FAR).logEv 0x0003 (oasisPage 2).index 0
        [fieldOfInt 64 off, 0, 0, 0]
    s2.slewBy off true
  else (s1.wf R.OASIS2_TIME_FAR 0 0).slewBy off false

/-- R512: the counter follows PTP on this port. -/
def State.followsPtp (s : State) (p : Nat) : Bool :=
  let mode := s.rf R.OASIS2_SYNC_MODE 0
  s.rb R.HOST2_TIME_SOURCE p && s.rf R.HOST2_PORT_STATE p = 3 &&
    (mode = 1 || (mode = 0 && (!s.rb R.TORUS1_PLAN_LOADED 0 || s.tor.root = some s.here)))

/-- SYNC_SOURCE_LOST, R513: the counter holds its last rate. -/
def State.syncLost (s : State) : State :=
  let st := s.rf R.OASIS2_SYNC_STATE 0
  if st = 2 ∨ st = 3 then
    let b := s.rf R.OASIS2_TIME_BOUND_NS 0
    let s1 := { s with oa := { s.oa with slew := 0, holdAt := s.elapsed, boundBase := b } }
    (s1.setSync 4).logEv 0x0004 (oasisPage 2).index 0 [s1.rf R.OASIS2_RATE_PPB 0, 0, 0, 0]
  else s

/-- TIME_SET, R514. -/
def State.timeSet (s : State) (i : Instr) (c : Cmd) : State :=
  s.vorane i 0x44 c .f (c.bodyWords = 3) fun t =>
    let arr := t.arrivalOf c.qp c.cmdId
    let off : Int := (c.w 1 + c.f 2 0 32 : Nat) - (arr : Int)
    let st := t.rf R.OASIS2_SYNC_STATE 0
    let answer (u : State) (code w1 w2 : Nat) : State :=
      u.reply c [pack [(code, 0, 8), (u.rf R.OASIS2_EPOCH_SET 0, 8, 1)], w1, w2]
    if 1 < c.w 0 ∨ c.f 2 32 32 ≠ 0 then answer t 1 0 0
    else if st = 2 ∨ st = 3 then answer t 4 0 0
    else if c.w 0 = 0 then
      if !t.stepPermitted then answer t 2 0 0
      else if off < 0 then answer t 3 0 0
      else
        let u := t.timeStep off.toNat 0
        answer u 0 t.now u.now
    else answer (t.slewBy off false) 0 arr 0

/-! ### PTP, R337, R354 -/

/-- The port takes part, and the message is of its domain. -/
def State.ptpOn (s : State) (p domain : Nat) : Bool :=
  s.rb R.HOST2_PTP_EN p && s.rb R.HOST_LINK_UP p && domain = s.rf R.HOST2_DOMAIN p

/-- PORT_STATE changes. -/
def State.setPtp (s : State) (p st : Nat) : State :=
  if s.rf R.HOST2_PORT_STATE p = st then s
  else (s.wf R.HOST2_PORT_STATE p st).setInt (hostPage p 2) R.INT_HOST2_PTP_STATE

/-- PTP_SYNC: a two-step Sync is stamped; a one-step Sync is discarded and counted. -/
def State.ptpSync (s : State) (p domain seq : Nat) (twoStep : Bool) : State :=
  if !s.ptpOn p domain then s
  else if !twoStep then s.inc R.HOST2_PTP_DISCARDS p
  else (s.setPort p { s.port p with syncSeq := some seq, syncRx := s.now }).wf R.HOST2_SYNC_STAMP p s.now

/-- The offset of a port from its grandmaster, when both halves of the exchange are known, goes to the servo. -/
def State.ptpOffset (s : State) (p : Nat) : State :=
  let off := (s.port p).msOffset - (signedOf 64 (s.rf R.HOST2_PATH_DELAY_NS p))
  let s1 := s.wf R.HOST2_OFFSET_NS p (fieldOfInt 64 off)
  s1.when (s1.followsPtp p) fun t => (t.servo (-off) 1 none).wf R.OASIS2_PTP_PORT 0 p

/-- PTP_FOLLOW_UP: the exchange's master-to-slave difference; a Delay_Req follows. -/
def State.ptpFollowUp (s : State) (p domain seq t1 : Nat) : State :=
  let st := s.port p
  if s.ptpOn p domain ∧ st.syncSeq = some seq then
    let n := (st.delaySeq + 1) % 65536
    let s1 := (s.setPort p { st with
      syncSeq := none, syncTx := t1, msOffset := (st.syncRx : Int) - t1, delaySeq := n, delayReqTx := some (n, s.now) }).inc
        R.HOST2_SYNC_RX p
    (s1.ptpOffset p).sendEth p .ptpDelayReq [s.rf R.HOST2_DOMAIN p, n]
  else s

/-- PTP_ANNOUNCE: the grandmaster; a LISTENING port becomes UNCALIBRATED. -/
def State.ptpAnnounce (s : State) (p domain gm : Nat) : State :=
  if s.ptpOn p domain then
    let s1 := s.wf R.HOST2_GM_IDENTITY p gm
    if s.rf R.HOST2_PORT_STATE p = 3 ∧ s.rf R.HOST2_GM_IDENTITY p = gm then s1 else s1.setPtp p 2
  else s

/-- PTP_DELAY_RESP: the mean path delay; an UNCALIBRATED port is LOCKED. -/
def State.ptpDelayResp (s : State) (p domain seq t4 : Nat) : State :=
  let st := s.port p
  match st.delayReqTx with
  | none => s
  | some (n, t3) =>
    if s.ptpOn p domain ∧ n = seq then
      let d := (st.msOffset + ((t4 : Int) - t3)) / 2
      let s1 := (s.setPort p { st with delayReqTx := none }).wf R.HOST2_PATH_DELAY_NS p (fieldOfInt 64 d)
      let s2 := s1.when (s1.rf R.HOST2_PORT_STATE p = 2) fun t => t.setPtp p 3
      s2.ptpOffset p
    else s

/-- PTP_MANAGEMENT: accepted and answered. -/
def State.ptpManagement (s : State) (p domain : Nat) (ws : List Nat) : State :=
  if s.ptpOn p domain then s.sendEth p .ptpResponse ws else s

/-! ### The event log -/

/-- LOG_EVENT, R515: Oasis writes the oldest event, or first the LOG_LOST record of events lost. -/
def State.logEvent (s : State) : State :=
  if s.rb R.OASIS_RESTARTING 0 then s
  else match s.lostStamps with
    | some (n, a, b) =>
      ({ s with lostStamps := none }).writeRec
        { stamp := s.now, kind := 0x0001, sev := 2, page := (oasisPage 1).index, ref := 0, details := [n, a, b, 0] }
    | none => match s.staging with
      | [] => s
      | e :: rest => (({ s with staging := rest }).wf R.OASIS1_STAGING_FULL 0 0).writeRec e

/-- R516: the words of a record. -/
def recWords (r : LogRec) : List Nat :=
  [r.stamp, pack [(r.seq, 0, 32), (r.kind, 32, 16), (r.sev, 48, 3), (bit r.persisted, 51, 1), (r.powerOn, 52, 12)],
   pack [(r.page, 0, 28), (r.ref, 32, 32)], r.logStamp] ++ (r.details ++ [0, 0, 0, 0]).take 4

/-- EVENT_SEND, R519. -/
def State.eventSend (s : State) (q : Nat) : State :=
  let st := s.qp q
  match st.waiting with
  | [] => s
  | m :: rest =>
    if s.connected q then
      (s.setQp q { st with waiting := rest, dropped := 0, closed := st.closed - 1 }).sendQp q (.event q st.dropped m)
    else s

/-- EVENT_SUBSCRIBE, R519. -/
def State.eventSubscribe (s : State) (i : Instr) (c : Cmd) : State :=
  s.vorane i 0x43 c .f (c.bodyWords = 2) fun t =>
    if c.f 0 4 60 ≠ 0 then t.reply c [1, t.rf R.OASIS1_NEXT_SEQ 0]
    else
      let q := t.qp c.qp
      let t1 := (t.setQp c.qp { q with
        subOn := c.b 0 0, subMin := c.f 0 1 3, subMask := c.w 1, closed := q.waiting.length }).wf
          R.QP_SUBSCRIBED c.qp (c.f 0 0 1)
      t1.reply c [0, t1.rf R.OASIS1_NEXT_SEQ 0]

/-- R520: the log store from a sequence number: GONE, and up to `n` records. -/
def State.readLog (s : State) (start n : Nat) : Bool × List LogRec :=
  let old := s.rf R.OASIS1_OLDEST_SEQ 0
  let next := s.rf R.OASIS1_NEXT_SEQ 0
  if seqFollows start old then (true, s.log.take n)
  else
    let d := seqDist old start
    if d < seqDist old next then (false, (s.log.drop d).take n) else (false, [])

/-- R520: the persistent log as one sequence from power-on `po`: GONE, its oldest record kept, and all records from there. -/
def State.readPersist (s : State) (start po : Nat) : Bool × Nat × List LogRec :=
  let cur := s.rf R.OASIS1_POWER_ON 0
  let age (p : Nat) : Nat := (cur + 4096 - p % 4096) % 4096
  let mine := s.plog.filter fun r => r.powerOn = po
  let older := ((List.range 4096).filter fun a => age po < a).flatMap fun a => s.plog.filter fun r => age r.powerOn = a
  match mine with
  | [] => (true, 0, older)
  | m :: _ =>
    if seqFollows start m.seq then (true, m.seq, mine ++ older)
    else (false, m.seq, (mine.filter fun r => r.seq = start || seqFollows start r.seq) ++ older)

/-- LOG_READ, R520. -/
def State.logRead (s : State) (i : Instr) (c : Cmd) : State :=
  s.vorane i 0x42 c .q (c.bodyWords = 1) fun t =>
    let n := c.f 0 32 4
    let answer (code old w1 : Nat) (rs : List LogRec) : State :=
      t.reply c ([pack [(code, 0, 8), (rs.length, 8, 4), (old, 32, 32)], w1] ++ rs.flatMap recWords)
    let bad := decide (n = 0 ∨ c.f 0 50 14 ≠ 0) || (!c.b 0 36 && decide (c.f 0 37 13 ≠ 0))
    if !c.b 0 36 || bad then
      let old := t.rf R.OASIS1_OLDEST_SEQ 0
      let next := t.rf R.OASIS1_NEXT_SEQ 0
      if bad then answer 1 old next []
      else
        let r := t.readLog (c.f 0 0 32) n
        answer (if r.1 then 2 else 0) old next r.2
    else
      let po := if c.b 0 49 then c.f 0 37 12 else t.rf R.OASIS1_POWER_ON 0
      let r := t.readPersist (c.f 0 0 32) po
      let rs := r.2.2.take n
      let w := match r.2.2[n]? with
        | some x => pack [(x.seq, 0, 32), (x.powerOn, 32, 12)]
        | none => 0
      answer (if r.1 then 2 else 0) r.2.1 w rs

/-- R60, R36: the page of an index. -/
def Page.ofIndex (i : Nat) : Page := { blk := i / 1048576, inst := i / 16 % 65536, page := i % 16 }

/-- R48: ERR_CAP2 of a page. -/
def State.errCap2 (s : State) (p : Page) : Nat :=
  pack [(s.rf p.errCause p.inst, 0, 8), (s.rf p.errMaster p.inst, 8, 3), (s.rf p.errSource p.inst, 16, 16),
    (s.rf p.errMore p.inst, 32, 16)]

/-- PAGE_INTERRUPT, R51: Oasis takes the oldest interrupt raised. -/
def State.pageInterrupt (s : State) : State :=
  if s.rb R.OASIS_RESTARTING 0 then s
  else match s.irqs with
    | [] => s
    | i :: rest =>
      let p := Page.ofIndex i
      ({ s with irqs := rest }).logEv 0x0201 i 0 [s.rf p.intStatus p.inst, s.rf p.lastStamp p.inst, s.errCap2 p, 0]

/-- STATUS_QUERY, R522. -/
def State.statusQuery (s : State) (i : Instr) (c : Cmd) : State :=
  s.vorane i 0x40 c .q (c.bodyWords = 0) fun t =>
    t.reply c
      [pack [(t.modState, 0, 4), (t.rf R.MOD1_FAIL_CAUSE 0, 4, 8), (t.rf R.OASIS2_EPOCH_SET 0, 12, 1),
         (t.rf R.OASIS2_SYNC_STATE 0, 13, 3), (t.rf R.OASIS2_TIME_FAR 0, 16, 1), (t.rf R.OASIS_OASIS_RESTARTS 0, 32, 32)],
       t.now,
       pack [(t.timeBound, 0, 32), (t.rf R.MOD1_M_ABSENT 0 + t.rf R.MOD1_V_ABSENT 0 + t.rf R.MOD1_S_ABSENT 0, 32, 32)],
       pack [(t.rf R.OASIS1_NEXT_SEQ 0, 0, 32), (t.rf R.OASIS1_LOST 0, 32, 32)],
       pack [(t.rf R.SERVE_OPEN 0, 0, 17)],
       pack [(t.rf R.KEYS_IMAGE_VERSION 0, 0, 32), (t.rf R.OASIS3_RUNNING_TRIAL 0, 32, 1), (t.rf R.OASIS3_RUNNING_SLOT 0, 33, 1)]]

/-! ### Rows -/

/-- PTP_SYNC, R337. -/
def execPtpSync (port domain seq : Nat) (twoStep : Bool) (s : State) : Host.Outcome State Fault Refusal :=
  .next (s.ptpSync (port % 2) domain seq twoStep)

/-- PTP_FOLLOW_UP, R337. -/
def execPtpFollowUp (port domain seq t1 : Nat) (s : State) : Host.Outcome State Fault Refusal :=
  .next (s.ptpFollowUp (port % 2) domain seq t1)

/-- PTP_ANNOUNCE, R337. -/
def execPtpAnnounce (port domain gm : Nat) (s : State) : Host.Outcome State Fault Refusal :=
  .next (s.ptpAnnounce (port % 2) domain gm)

/-- PTP_DELAY_RESP, R337. -/
def execPtpDelayResp (port domain seq t4 : Nat) (s : State) : Host.Outcome State Fault Refusal :=
  .next (s.ptpDelayResp (port % 2) domain seq t4)

/-- PTP_MANAGEMENT, R337. -/
def execPtpManagement (port domain : Nat) (words : List Nat) (s : State) : Host.Outcome State Fault Refusal :=
  .next (s.ptpManagement (port % 2) domain words)

/-- WD_LOOP, R504: no pass of Oasis's main loop for LOOP_LIMIT_MS, as its own oscillator counts. -/
def execWdLoop (s : State) : Host.Outcome State Fault Refusal := .next (s.oasisRestart 0)

/-- WD_ROUND, R504. -/
def execWdRound (s : State) : Host.Outcome State Fault Refusal := .next s.wdRound

/-- WD_HOST, R508. -/
def execWdHost (s : State) : Host.Outcome State Fault Refusal := .next s.wdHost

/-- OASIS_RESTART_DONE, R505. -/
def execOasisRestartDone (ok : Bool) (s : State) : Host.Outcome State Fault Refusal := .next (s.oasisRunning ok)

/-- OASIS_RESTART_TIMEOUT, R507. -/
def execOasisRestartTimeout (s : State) : Host.Outcome State Fault Refusal := .next s.oasisOverrun

/-- HEARTBEAT, R508. -/
def execHeartbeat (c : Cmd) (s : State) : Host.Outcome State Fault Refusal := .next (s.heartbeat (.heartbeat c) c)

/-- HEARTBEAT_RESTART, R508: a HEARTBEAT whose RESTART bit is 1; one without it is the row HEARTBEAT's. -/
def execHeartbeatRestart (c : Cmd) (s : State) : Host.Outcome State Fault Refusal := .next (s.heartbeat (.heartbeatRestart c) c)

/-- HB_ECHO, R508. -/
def execHbEcho (s : State) : Host.Outcome State Fault Refusal := .next s.hbEcho

/-- HEARTBEAT_ECHO_TIMEOUT, R508. -/
def execHeartbeatEchoTimeout (qp id : Nat) (s : State) : Host.Outcome State Fault Refusal := .next (s.beatTimeout qp id)

/-- HOST_SILENT, R508. -/
def execHostSilent (s : State) : Host.Outcome State Fault Refusal := .next s.hostSilent

/-- TIME_SET_STEP, R514. MODE is read from the body. -/
def execTimeSetStep (c : Cmd) (s : State) : Host.Outcome State Fault Refusal := .next (s.timeSet (.timeSetStep c) c)

/-- TIME_SET_SLEW, R514. -/
def execTimeSetSlew (c : Cmd) (s : State) : Host.Outcome State Fault Refusal := .next (s.timeSet (.timeSetSlew c) c)

/-- SYNC_SOURCE_LOST, R513. -/
def execSyncSourceLost (s : State) : Host.Outcome State Fault Refusal := .next s.syncLost

/-- LOG_EVENT, R515. -/
def execLogEvent (s : State) : Host.Outcome State Fault Refusal := .next s.logEvent

/-- EVENT_SEND, R519. -/
def execEventSend (qp : Nat) (s : State) : Host.Outcome State Fault Refusal := .next (s.eventSend qp)

/-- EVENT_SUBSCRIBE, R519. -/
def execEventSubscribe (c : Cmd) (s : State) : Host.Outcome State Fault Refusal := .next (s.eventSubscribe (.eventSubscribe c) c)

/-- LOG_READ, R520. -/
def execLogRead (c : Cmd) (s : State) : Host.Outcome State Fault Refusal := .next (s.logRead (.logRead c) c)

/-- STATUS_QUERY, R522. -/
def execStatusQuery (c : Cmd) (s : State) : Host.Outcome State Fault Refusal := .next (s.statusQuery (.statusQuery c) c)

/-- PAGE_INTERRUPT, R51. -/
def execPageInterrupt (s : State) : Host.Outcome State Fault Refusal := .next s.pageInterrupt

end Sys2Proof.Machine
end

