-- ==== Sys2Proof/Machine/Torus.lean ====
section
/-! DEFINITION. The Borsan links and the torus, chapter 12: lanes (R357 to R361), link retry (R362 to R364), time frames (R365,
R366), remote credits (R368), routes, link failures and route switches (R370 to R378), the cabling plan and agreement (R379
to R385). -/

namespace Sys2Proof.Machine

/-! ### Agreement -/

def State.dstate (s : State) (d : Nat) : Nat := s.rf R.TORUS1_DSTATE 0 d
def State.dclass (s : State) (d : Nat) : Nat := s.rf R.TORUS1_CLASS 0 d
def State.expected (s : State) (d : Nat) : Nat := s.rf R.TORUS1_EXPECTED 0 d
def anySerial : Nat := 0xFFFFFFFFFFFFFFFF

/-- R381: AGREE_TIMEOUT_MS after an elapsed time has passed. -/
def State.agreeLate (s : State) (t : Nat) : Bool := t + 1000000 * s.rf R.TORUS1_AGREE_TIMEOUT_MS 0 ≤ s.elapsed

/-- R381: the checks of a HELLO against the plan, classes 5 to 10 in their order. -/
def State.helloClass (s : State) (d : Nat) (h : Hello) : Nat :=
  let e := s.expected d
  let n := s.neighbour s.here d
  if h.serial ≠ e ∧ (List.range 6).any fun o => o ≠ d && s.expected o = h.serial then 5
  else if e ≠ anySerial ∧ h.serial ≠ e then 6
  else if h.plan ≠ s.rf R.TORUS1_PLAN_ID 0 then 7
  else if h.dir ≠ d ^^^ 1 then 8
  else if h.x ≠ coord n 0 ∨ h.y ≠ coord n 1 ∨ h.z ≠ coord n 2 then 9
  else if !h.ok ∧ s.agreeLate (s.dirSt d).peerOkAt then 10
  else 0

/-- R381: a direction's mismatch class now. -/
def State.classOf (s : State) (d : Nat) : Nat :=
  let x := s.dirSt d
  if !s.linkUp d ∧ s.expected d ≠ 0 ∧ x.upSince.isNone ∧ !x.lanesLow ∧ !s.rb R.BORSAN_FIBRE_REVERSED d then
    if s.agreeLate s.tor.planAt then 1 else 0
  else if s.rb R.BORSAN_FIBRE_REVERSED d then 2
  else if !s.linkUp d ∧ x.lanesLow then 3
  else if !s.linkUp d then 0
  else if s.expected d = 0 then 4
  else match x.peer with
    | none => 0
    | some h => s.helloClass d h

/-- R381: the class blocks agreement. -/
def blocking (c : Nat) : Bool := 4 ≤ c && c ≤ 10

/-- R382, R395: a direction's state for its class. -/
def State.stateOf (s : State) (d cls : Nat) : Nat :=
  let x := s.dirSt d
  if blocking cls then (if s.tor.ovr.testBit d then 4 else 3)
  else if s.linkUp d then (if s.expected d = 0 then 0 else if 3 ≤ x.helloRun ∨ s.dstate d = 2 then 2 else 1)
  else if s.expected d = 0 then 0
  else if x.upSince.isSome then 6
  else 1

/-- R383: topology agreement, judged again; READY may follow (R493). -/
def State.judgeAgreement (s : State) : State :=
  let ok := s.rb R.TORUS1_PLAN_LOADED 0 && (List.range 6).all fun d => s.dstate d ≠ 3
  let was := s.rb R.TORUS1_AGREED 0
  let s1 := (s.wf R.TORUS1_AGREED 0 (bit ok)).wf R.TORUS1_OVERRIDE_IN_FORCE 0
    (bit ((List.range 6).any fun d => s.dstate d = 4))
  (s1.when (ok && !was) fun t => t.setInt (torusPage 1) R.INT_TORUS1_AGREED).tryReady

/-- R381 to R383: a direction's checks applied; notices flooded when it enters or leaves service. A module that is FAILED or has
withdrawn floods no LSN UP (R493, R497). -/
def State.dirCheck (s : State) (d : Nat) : State :=
  let old := s.dstate d
  if !s.rb R.TORUS1_PLAN_LOADED 0 ∨ old = 5 then s.judgeAgreement
  else
    let cls := s.classOf d
    let st := s.stateOf d cls
    let oldCls := s.dclass d
    let s1 := ((s.wf R.TORUS1_CLASS 0 cls d).wf R.TORUS1_DSTATE 0 st d)
    let s2 := s1.when (decide (cls ≠ 0 ∧ cls ≠ oldCls)) fun t =>
      (t.setInt (torusPage 1) R.INT_TORUS1_MISMATCH).logEv 0x0A02 (torusPage 1).index 0 [d, cls, 0, 0]
    let s3 := s2.when (decide (st = 4 ∧ old ≠ 4)) fun t =>
      (t.setInt (torusPage 1) R.INT_TORUS1_OVERRIDE).logEv 0x0A03 (torusPage 1).index 0 [d, cls, 0, 0]
    let inNow := decide (st = 2 ∨ st = 4)
    let inOld := decide (old = 2 ∨ old = 4)
    let silent := decide (s.modState = msFailed ∨ s.modState = msLeft) || s.md.withdrawn
    let s4 := if inNow && !inOld then (if silent then s3 else s3.ownLsn d 0) else if inOld && decide (st = 3) then s3.ownLsn d 2 else s3
    (s4.boardFault 14 ((List.range 6).any fun n => s4.dclass n = 5)).judgeAgreement

/-! ### Links that fail, R376 -/

/-- R363, R376: a way fails: LSN DOWN, and frames for the direction are held. -/
def State.linkFail (s : State) (d : Nat) (lanesLow : Bool) : State :=
  if !s.linkUp d then s
  else
    let x := s.dirSt d
    let s1 := ((s.wf R.BORSAN_LINK d 3).wf R.BORSAN_LAST_DOWN_STAMP d s.now).wf R.BORSAN_RESEND_WAIT d 1
    let s2 := s1.blockErr (borsanPage d) 0x10 d 0 (2 ^ R.INT_BORSAN_LINK_CHANGE)
    let s3 := s2.setDir d { x with
      failedAt := some s.elapsed, lanesLow := lanesLow, held := x.held ++ x.txq, txq := [], vcCred := [], clsWait := [],
      helloRun := 0, peer := none, wentDark := true }
    (s3.ownLsn d 1).dirCheck d

/-- R375: a frame sent the other way around the ring of direction `d`; one already detoured is unroutable. -/
def State.detour (s : State) (d : Nat) (f : Frame) : State :=
  if f.detoured then s.unroutable d f
  else
    let g := { f with detoured := true, signs := f.signs ^^^ 2 ^ (d / 2), phase := f.phase + 1, dateline := false }
    let o := d ^^^ 1
    if s.moduleAbsent f.dest ∨ !s.inService o then s.unroutable d f
    else
      let s1 := ((s.inc R.BORSAN_DETOURED d).setInt (borsanPage d) R.INT_BORSAN_DETOUR).wf R.BORSAN_DETOURING d 1
      let x := s1.dirSt o
      if x.failedAt.isSome then s1.setDir o { x with held := x.held ++ [g] } else s1.borsanTx o (s1.crossing o g)

/-- R376: what a failed direction kept is resent from `after`, or discarded where the peer has failed; held frames follow. -/
def State.releaseFailed (s : State) (d : Nat) (after : Option Nat) : State :=
  let x := s.dirSt d
  let unack := (x.retry.map (·.1)).filter fun f => f.cls ≠ 0
  let s1 := (s.setDir d { x with failedAt := none, held := [], retry := [] }).wf R.BORSAN_RESEND_WAIT d 0
  let s2 := match after with
    | none => s1.each unack fun t f => t.unroutable d f
    | some q =>
      let l := unack.filter fun (f : Frame) => !psnLe f.seq q
      (s1.inc R.BORSAN_RESENT d l.length).each l fun t f => t.detour d { f with resent := true }
  s2.each x.held fun t f => t.detour d f

/-- PEER_LSN_TIMEOUT, R376 step 3. -/
def State.peerLsnTimeout (s : State) (d : Nat) : State :=
  match (s.dirSt d).failedAt with
  | some t => if t + 30000 ≤ s.elapsed then s.releaseFailed d none else s
  | none => s

/-- LSN_RECEIVE, R373, R376. -/
def State.lsnReceive (s : State) (d : Nat) (l : Lsn) : State :=
  if !s.linkUp d ∨ !s.lsnNewer l ∨ l.origin = s.here then s
  else
    let s1 := (s.storeLsn l).flood l (some d)
    if l.state = 0 then s1
    else
      s1.each (List.range 6) fun t e =>
        if (t.dirSt e).failedAt.isSome ∧ l.dir = e ^^^ 1 ∧ l.origin = t.neighbour t.here e then t.releaseFailed e (some l.lastSeq)
        else t

/-! ### Lanes -/

/-- Lanes of a 9-bit mask. -/
def lanesOf (m : Nat) : List Nat := (List.range 9).filter fun l => m.testBit l

/-- R359, R393: the receive lanes after a change: the lanes that carry data, the spare, the counts. -/
def State.setLanes (s : State) (d good active : Nat) : State :=
  let en := s.rf R.BORSAN1_LANE_ENABLE d
  let spare := (lanesOf good).find? fun l => !active.testBit l && en.testBit l
  let w := (lanesOf active).length
  let s1 := ((s.wf R.BORSAN1_LANE_GOOD d good).wf R.BORSAN1_LANE_ACTIVE d active).wf R.BORSAN1_ACTIVE_COUNT d w
  (s1.wf R.BORSAN1_SPARE_LANE d (spare.getD 15)).wf R.BORSAN1_SPARE_IN_USE d (bit (active.testBit 8 || decide (active % 256 ≠ 255)))

/-- R359: a change of lane set is recorded. -/
def State.laneChange (s : State) (d : Nat) : State :=
  ((s.wf R.BORSAN1_LAST_LANE_STAMP d s.now).setInt (borsanPage d) R.INT_BORSAN_LANE_CHANGE).unitEv 0xA (borsanPage d) 0
    R.INT_BORSAN_LANE_CHANGE false

/-- LANE_BAD, R359, with the received power in 0.1 dBm: the spare takes a bad lane's place; without one the way narrows; below four good lanes it fails. -/
def State.laneBad (s0 : State) (d lane power : Nat) : State :=
  let s := if lane < 9 then s0.wf R.BORSAN1_RX_POWER d power lane else s0
  let good := s.rf R.BORSAN1_LANE_GOOD d
  let active := s.rf R.BORSAN1_LANE_ACTIVE d
  if !s.linkUp d ∨ !good.testBit lane then s
  else
    let spare := s.rf R.BORSAN1_SPARE_LANE d
    let good2 := good - 2 ^ lane
    let act2 := if active.testBit lane then active - 2 ^ lane + (if spare < 9 then 2 ^ spare else 0) else active
    let x := s.dirSt d
    let s1 := (s.setLanes d good2 act2).setDir d { x with laneClean := Tbl.del x.laneClean lane }
    let s2 := s1.laneChange d
    if (lanesOf good2).length < 4 then s2.linkFail d true
    else s2.transmit d { cls := 0, typ := 5, len := 16, words := [act2, (s2.dirSt d).expect] }

/-- LANE_FRAME, R359: the transmit way's lane set changes at the boundary the frame names. -/
def State.laneFrame (s : State) (d active : Nat) : State :=
  if !s.linkUp d then s
  else
    let w := (lanesOf active).length
    let s1 := (s.wf R.BORSAN1_TX_ACTIVE_COUNT d w).laneChange d
    if w < 4 then s1.linkFail d true else s1

/-- LANE_RETRAIN, R360: a bad lane retrained with `ok`, without error so far; after 1 s without one it is the spare again, and the
way widens where it had narrowed. -/
def State.laneRetrain (s : State) (d lane : Nat) (ok : Bool) : State :=
  let good := s.rf R.BORSAN1_LANE_GOOD d
  let x := s.dirSt d
  if !s.linkUp d ∨ 9 ≤ lane ∨ good.testBit lane ∨ !(s.rf R.BORSAN1_LANE_ENABLE d).testBit lane then s
  else if !ok then s.setDir d { x with laneClean := Tbl.del x.laneClean lane }
  else match Tbl.get? x.laneClean lane with
    | none => s.setDir d { x with laneClean := Tbl.put x.laneClean lane s.elapsed }
    | some t =>
      if s.elapsed < t + 1000000000 then s
      else
        let active := s.rf R.BORSAN1_LANE_ACTIVE d
        let act2 := if (lanesOf active).length < 8 then active + 2 ^ lane else active
        let s1 := ((s.setDir d { x with laneClean := Tbl.del x.laneClean lane }).setLanes d (good + 2 ^ lane) act2).laneChange d
        if act2 ≠ active then s1.transmit d { cls := 0, typ := 5, len := 16, words := [act2, (s1.dirSt d).expect] } else s1

/-- FIBRE_REVERSED, R361: the light on the transmit and receive positions. A reversed cable is neither driven nor trained on; once the
light is normal the direction trains. -/
def State.fibreLight (s : State) (d tx rx : Nat) : State :=
  let rev := decide (tx ≠ 0 ∧ rx = 0)
  let s1 := s.each (List.range 9) fun t l => t.wf R.BORSAN1_TX_LIGHT_IN d (bit (tx.testBit l)) l
  let s2 := s1.wf R.BORSAN_FIBRE_REVERSED d (bit rev)
  let s2 := s2.boardFault 13 ((List.range 6).any fun n => s2.rb R.BORSAN_FIBRE_REVERSED n)
  let was := s.rb R.BORSAN_FIBRE_REVERSED d
  let s3 := if rev then (s2.linkFail d false).wf R.BORSAN_LINK d 0
    else s2.when (was && s2.rb R.BORSAN_LINK_EN d && decide (s2.rf R.BORSAN_LINK d = 0)) fun t => t.wf R.BORSAN_LINK d 1
  if rev ≠ was then s3.dirCheck d else s3

/-- LINK_TRAINED, R358, R385: the receive lanes that trained, where each arrives and with what power. -/
def State.linkTrained (s : State) (d lanes txCount : Nat) (pos power : List Nat) : State :=
  let good := lanes % 512 &&& s.rf R.BORSAN1_LANE_ENABLE d
  if s.linkUp d ∨ !s.rb R.BORSAN_LINK_EN d ∨ s.rb R.BORSAN_FIBRE_REVERSED d then s
  else
    let s1 := s.each (List.range 9) fun t l => (t.wf R.BORSAN1_RX_POSITION d (pos.getD l l) l).wf R.BORSAN1_RX_POWER d
      (power.getD l 0) l
    let moved := (List.range 9).any fun l => good.testBit l && s1.rf R.BORSAN1_RX_POSITION d l ≠ l
    let s2 := s1.when moved fun t => t.logEv 0x0A01 (borsanPage d 1).index 0
      [d, pack ((List.range 9).map fun l => (t.rf R.BORSAN1_RX_POSITION d l, 4 * l, 4)), 0, 0]
    let active := ((lanesOf good).take 8).foldl (fun m l => m + 2 ^ l) 0
    let x := s2.dirSt d
    let s3 := (s2.setLanes d good active).wf R.BORSAN1_TX_ACTIVE_COUNT d txCount
    if (lanesOf good).length < 4 then
      ((s3.wf R.BORSAN_LINK d 3).setDir d { x with lanesLow := true }).dirCheck d
    else
      let s4 := ((s3.wf R.BORSAN_LINK d 2).setInt (borsanPage d) R.INT_BORSAN_LINK_CHANGE).wf R.BORSAN_DETOURING d 0
      let resume := decide (s4.dstate d = 5) && x.wentDark
      let s5 := s4.setDir d { x with
        nextSeq := 0, expect := 0, retry := [], failedAt := none, lanesLow := false, helloAt := s.elapsed, helloSent := [],
        helloRun := 0, peer := none, peerOkAt := s.elapsed, upSince := some s.elapsed, timeAt := s.elapsed, laneClean := [] }
      (s5.when resume fun t => t.wf R.TORUS1_DSTATE 0 1 d).dirCheck d

/-! ### Link retry, R363, R364 -/

/-- BORSAN_ACK: frames through `seq` have been accepted; the retry buffer has room for frames that wait. -/
def State.borsanAck (s : State) (d seq : Nat) : State :=
  let x := s.dirSt d
  if s.linkUp d then (s.setDir d { x with retry := x.retry.filter fun e => !psnLe e.1.seq seq }).txPump d x.txq.length else s

/-- BORSAN_NAK: every frame from `seq` on is sent again, in order, unless one has been sent 8 times: then the way fails. -/
def State.borsanNak (s : State) (d seq : Nat) : State :=
  if !s.linkUp d then s
  else
    let x := s.dirSt d
    let keep := x.retry.filter fun e => psnLe seq e.1.seq
    let s1 := s.setInt (borsanPage d) R.INT_BORSAN_RETRY
    if keep.any fun e => 8 ≤ e.2 then (s1.setDir d { x with retry := keep }).linkFail d false
    else
      let s2 := (s1.setDir d { x with retry := keep.map fun e => (e.1, e.2 + 1) }).inc R.BORSAN_RETRIES d keep.length
      s2.each keep fun t e => (t.inc R.BORSAN_FRAMES_TX d).emit
        (.borsan d (e.1.cls * 8 + e.1.typ) e.1.dest (frameHeader e.1 ++ e.1.words))

/-- A frame of a pip that has reached its target module: it crosses the die with its remote source index and INGRESS_STAMP
(R238, R368). -/
def State.ingress (s : State) (u : Nat) (f : Frame) : State :=
  let w0 := f.words.getD 0 0
  let w1 := f.words.getD 1 0
  let src := bitsOf w1 19 16
  let slot := s.tor.slots.find? fun e => e.1 / 4096 = u && e.2.module = f.src && e.2.producer = src
    && e.2.target = bitsOf w0 0 16 && e.2.stream = bitsOf w0 16 16
  let idx := match slot with
    | some e => 0x8000 + e.1
    | none => src
  s.emit (.mesh 6 (bitsOf w0 0 16) ([w0, w1 - src * 2 ^ 19 + idx * 2 ^ 19, f.words.getD 2 0, s.now] ++ f.words.drop 4))

/-- BORSAN_FRAME_RECEIVE: link acceptance, then delivery or the next hop. `fec`: the codewords of each lane corrected and
uncorrectable since the last frame. -/
def State.borsanReceive (s0 : State) (d : Nat) (f : Frame) (crcOk : Bool) (fec : List (Nat × Nat × Nat)) : State :=
  if !s0.linkUp d then s0
  else
    let s := s0.each (fec.filter fun e => e.1 < 9) fun t e =>
      (t.inc R.BORSAN1_FEC_CORRECTED d e.2.1 e.1).inc R.BORSAN1_FEC_UNCORRECTED d e.2.2 e.1
    let x := s.dirSt d
    let nak (t : State) : State := (t.setInt (borsanPage d) R.INT_BORSAN_RETRY).transmit d
      { cls := 0, typ := 2, len := 8, words := [x.expect] }
    if !crcOk then nak (s.inc R.BORSAN_CRC_ERRORS d)
    else
      let plain := decide (f.cls = 0 ∧ (f.typ = 1 ∨ f.typ = 2))
      if !plain ∧ f.seq ≠ x.expect then (if psnLe x.expect f.seq then nak s else s)
      else
        let s1 := if plain then s else (s.setDir d { x with expect := (x.expect + 1) % 2 ^ 24 }).inc R.BORSAN_FRAMES_RX d
        let s2 := s1.when f.ackValid fun t => t.borsanAck d f.ackSeq
        let s3 := s2.when (decide (f.creditCount ≠ 0)) fun t => t.vcReturn d f.creditVc f.creditCount
        let s4 := s3.when (!plain) fun t =>
          t.transmit d { cls := 0, typ := 1, creditVc := if f.cls = 0 then 0 else frameVc f,
                         creditCount := if f.cls = 0 then 0 else frameUnits f }
        if f.cls = 0 then s4
        else if f.dest = s4.here then (if f.cls = 1 ∧ f.typ = 0 then s4.ingress d f else s4)
        else s4.forward d (some (d / 2)) f

/-! ### Time frames, R365, R366 -/

def State.timeFrameSend (s : State) (d : Nat) : State :=
  let x := s.dirSt d
  if s.linkUp d ∧ x.timeAt ≤ s.elapsed then
    (s.setDir d { x with timeAt := s.elapsed + 1000000 }).transmit d
      { cls := 0, typ := 3, len := 32, words := [s.now, x.peerT1, x.peerT2, s.now] }
  else s

/-- R366, R512: the direction whose time frames the counter follows. -/
def State.timeDir (s : State) : Option Nat :=
  if s.tor.switched then
    let r := s.tor.root.getD 0
    let e := s.routeEntry r
    ((orderDims (bitsOf e 0 3)).find? fun dim => coord s.here dim ≠ coord r dim).map fun dim =>
      2 * dim + bit ((bitsOf e 3 3).testBit dim)
  else (List.range 6).find? fun d => s.dstate d = 2

/-- R512: the counter follows the torus. -/
def State.followsTorus (s : State) (d : Nat) : Bool :=
  let mode := s.rf R.OASIS2_SYNC_MODE 0
  decide (s.timeDir = some d) && s.rb R.TORUS1_PLAN_LOADED 0 && decide (s.tor.root ≠ some s.here)
    && (mode = 0 || mode = 2)

/-- TIME_FRAME_RECEIVE: with the four stamps of an exchange, the latency and the peer's offset. -/
def State.timeFrameReceive (s : State) (d peerT1 echoT1 t2 t3 : Nat) : State :=
  if !s.linkUp d then s
  else
    let x := s.dirSt d
    let t4 := s.now
    let s1 := s.setDir d { x with peerT1 := peerT1, peerT2 := t4 }
    if echoT1 = 0 then s1
    else
      let a : Int := (t4 : Int) - echoT1
      let lat := 500 * (a - ((t3 : Int) - t2))
      let off := 500 * (((t2 : Int) - echoT1) - ((t4 : Int) - t3))
      let s2 := (s1.wf R.BORSAN_LINK_LAT_PS d (fieldOfInt 32 lat)).wf R.BORSAN_TIME_OFFSET_PS d (fieldOfInt 64 off)
      s2.when (s2.followsTorus d) fun t =>
        (t.wf R.OASIS2_PARENT 0 (t.neighbour t.here d)).servo (off / 1000) 2
          (some ((t.rf R.TORUS1_TIME_BOUND_PS 0 + 999) / 1000))

/-! ### Remote credits, R368, and notices, R375 -/

/-- A free or matching return slot of an ingress unit. -/
def State.findSlot (s : State) (u : Nat) (r : RSlot) : Option Nat :=
  match s.tor.slots.find? fun e => e.1 / 4096 = u && e.2.module = r.module && e.2.producer = r.producer && e.2.pdest = r.pdest
      && e.2.stream = r.stream with
  | some e => some e.1
  | none => ((List.range 4096).find? fun k => (Tbl.get? s.tor.slots (u * 4096 + k)).isNone).map (u * 4096 + ·)

/-- REMOTE_CREDIT_REQ: producer, its DEST, target, STREAM, credits asked for. -/
def State.remoteCreditReq (s : State) (u : Nat) (f : Frame) : State :=
  let w (i : Nat) := f.words.getD i 0
  let r : RSlot := { module := f.src, producer := w 0, pdest := w 1, target := w 2, stream := w 3 }
  match s.findSlot u r with
  | none => s.sendFrame u { cls := 1, typ := 2, dest := f.src, len := 40, words := [w 0, w 1, w 3, 0, 0] }
  | some k =>
    let s1 := if (Tbl.get? s.tor.slots k).isSome then s else s.setSlot (0x8000 + k) (some r)
    s1.emit (.mesh 1 (w 2) [0x8000 + k, w 3, w 4, w 5])

/-- REMOTE_CREDIT_GRANT: credits, or NO_BUFFER where it carries none, reach the producer. -/
def State.remoteCreditGrant (s : State) (f : Frame) : State :=
  let w (i : Nat) := f.words.getD i 0
  if w 3 = 0 then s.emit (.mesh 5 (w 0) [w 1, w 2]) else s.emit (.mesh 2 (w 0) [w 1, w 2, w 3, w 4])

/-- REMOTE_CREDIT_RETURN: flag 0, a return or a GEN notice to the producer; flag 1, credits a producer releases to the consumer. -/
def State.remoteCreditReturn (s : State) (u : Nat) (f : Frame) : State :=
  let w (i : Nat) := f.words.getD i 0
  if w 0 = 0 then s.emit (.mesh 3 (w 1) [w 2, w 3, w 4, w 5])
  else
    match s.tor.slots.find? fun e => e.1 / 4096 = u && e.2.module = f.src && e.2.producer = w 1 && e.2.target = w 2
        && e.2.stream = w 3 with
    | some e => (s.slotSub (0x8000 + e.1) (w 4)).emit (.mesh 4 (w 2) [0x8000 + e.1, w 3, w 4, w 5])
    | none => s.emit (.mesh 4 (w 2) [w 1, w 3, w 4, w 5])

/-- R299: the head module of the variant whose placement holds a stream. -/
def State.headOf (s : State) (stream : Nat) : Option Nat :=
  ((List.range 64).find? fun v =>
    s.vstate v ≠ vEmpty && (s.var v).place.edges.any fun e => e.2 ≤ stream && stream < e.2 + 4096).map fun v =>
      (s.var v).place.head

/-- R449: the first ARITH_MISMATCH evidence against a collective unit: it is retired, and its collectives go to the lowest unit
without any from their next invocation; when none is left the die has failed. -/
def State.retireUnit (s : State) (u : Nat) : State :=
  if 6 ≤ u ∨ s.tor.retired.contains u then s
  else
    let gone := u :: s.tor.retired
    let s1 := { s with tor := { s.tor with retired := gone } }
    match (List.range 6).find? fun n => !gone.contains n with
    | none => s1.dieFailure 7 u
    | some _ => s1

/-- NOTICE_FRAME: Oasis of the source forwards a notice to the head module, whose owning S-core it then reaches. -/
def State.noticeFrame (s : State) (f : Frame) : State :=
  if f.dest ≠ s.here then s
  else if f.words.getD 0 0 = 0xFFFF then s.retireUnit (f.words.getD 1 0)
  else match s.headOf (f.words.getD 1 0) with
    | some h => if h = s.here then s.emit (.mesh 11 0 [f.words.getD 1 0, 2]) else s.sendNotice h f.words
    | none => s

/-! ### Routes, R370 to R378 -/

/-- R372: a route walked link by link from a module: none where a link or a module on it is out, else its hops. -/
def State.walk (s : State) (dest signs : Nat) : List Nat → Nat → Nat → Nat → Option Nat
  | [], _, hops, _ => some hops
  | _ :: _, _, _, 0 => none
  | dim :: rest, m, hops, fuel + 1 =>
    if coord m dim = coord dest dim then s.walk dest signs rest m hops fuel
    else
      let d := 2 * dim + bit (signs.testBit dim)
      let n := s.neighbour m d
      if s.dbUp m d && !s.moduleAbsent n then s.walk dest signs (dim :: rest) n (hops + 1) fuel else none

/-- R372: the shortest sign of each dimension, + where the way is at most half the ring. -/
def State.shortSigns (s : State) (dest : Nat) : Nat :=
  (List.range 3).foldl (fun m dim =>
    let n := s.dimSize dim
    let dist := (coord dest dim + n - coord s.here dim) % n
    if 2 * dist ≤ n then m else m + 2 ^ dim) 0

/-- R370, R372: the entry of a destination, VALID 0 where no candidate is usable; and its hops. -/
def State.planRoute (s : State) (dest : Nat) : Nat × Nat :=
  let short := s.shortSigns dest
  let cands := (List.range 48).filterMap fun k =>
    let o := k / 8
    let sg := short ^^^ (k % 8)
    (s.walk dest sg (orderDims o) s.here 0 128).map fun h => (o + 8 * sg + 64, h)
  cands.head?.getD (0, 0)

/-- The destinations of the plan. -/
def State.planModules (s : State) : List Nat :=
  (List.range (s.dimSize 2)).flatMap fun z => (List.range (s.dimSize 1)).flatMap fun y =>
    (List.range (s.dimSize 0)).map fun x => x + 32 * y + 1024 * z

/-- R394: the hops of a route table entry. -/
def State.entryHops (s : State) (dest e : Nat) : Nat :=
  if e.testBit 6 then
    ((List.range 3).map fun dim =>
      let n := s.dimSize dim
      let a := coord s.here dim
      let b := coord dest dim
      if (bitsOf e 3 3).testBit dim then (a + n - b) % n else (b + n - a) % n).sum
  else 0

/-- R378: ROUTE_HOLD_US from the longest route, the slowest link measured, 2 us for each die crossing and 20 us. -/
def State.routeHold (s : State) (hops : Nat) : Nat :=
  let lat := ((List.range 6).map fun d => s.rf R.BORSAN_LINK_LAT_PS d).foldl max 0
  (hops * lat + 999999) / 1000000 + 2 * hops + 20

/-- ROUTE_SWITCH, R377, R378: at the switch stamp the new table becomes active. -/
def State.routeSwitch (s : State) : State :=
  if !s.rb R.TORUS_SWITCH_PENDING 0 ∨ s.now < s.rf R.TORUS_SWITCH_STAMP 0 then s
  else
    let b := s.rf R.TORUS_ACTIVE_BANK 0
    let old := if b = 0 then s.tor.bank0 else s.tor.bank1
    let routes := s.planModules.map fun m => (m, s.planRoute m)
    let table : Tbl Nat := routes.foldl (fun t r => Tbl.putD t 0 r.1 r.2.1) []
    let gone := routes.countP fun r => r.2.1 = 0
    let changed := (routes.filter fun r => r.2.1 ≠ Tbl.getD old r.1 0).map (·.1)
    let far := (routes.map (·.2.2) ++ old.map fun e => s.entryHops e.1 e.2).foldl max 0
    let hold := s.routeHold far
    let root := s.tor.root.getD 0
    let s1 := { s with tor := { s.tor with
      bank0 := if b = 0 then s.tor.bank0 else table
      bank1 := if b = 0 then table else s.tor.bank1
      holdDest := changed, holdDue := s.elapsed + 1000 * hold, switched := true } }
    let s2 := (((s1.wf R.TORUS_ACTIVE_BANK 0 (1 - b)).inc R.TORUS_ROUTE_VER 0).wf R.TORUS_SWITCH_PENDING 0 0).wf R.TORUS_HOLDING 0 1
    let s3 := ((s2.wf R.TORUS_ROUTE_HOLD_US 0 hold).wf R.TORUS_UNREACHABLE_COUNT 0 gone).setInt (torusPage 0)
      R.INT_TORUS_ROUTE_SWITCHED
    let s4 := s3.when (decide (gone ≠ 0)) fun t => t.setInt (torusPage 0) R.INT_TORUS_UNREACHABLE
    let hops := ((routes.find? fun r => r.1 = root).map (·.2.2)).getD 0
    let s5 := (s4.wf R.TORUS1_ROOT_HOPS 0 hops).wf R.TORUS1_TIME_BOUND_PS 0 (400 * hops)
    match s5.timeDir with
    | some d => s5.wf R.TORUS1_TIME_PARENT 0 (s5.neighbour s5.here d)
    | none => s5.wf R.TORUS1_TIME_PARENT 0 s5.here

/-- ROUTE_HOLD_END, R378, R384, R497: held frames leave by the new routes. Unless a later switch is pending, RECABLING directions are
idle and a module that has withdrawn has left. -/
def State.routeHoldEnd (s : State) : State :=
  if !s.rb R.TORUS_HOLDING 0 ∨ s.elapsed < s.tor.holdDue then s
  else
    let held := s.tor.hold
    let s1 := ({ s with tor := { s.tor with hold := [], holdDest := [] } }).wf R.TORUS_HOLDING 0 0
    let s2 := s1.each (List.range 6) fun t d => if t.dstate d = 5 ∧ !t.rb R.TORUS_SWITCH_PENDING 0 then t.wf R.TORUS1_IDLE 0 1 d else t
    let s3 := s2.each held fun t e => t.sendFrame e.1 e.2
    if s.rb R.TORUS_SWITCH_PENDING 0 then s3 else s3.leaveDone

/-! ### The plan, R379, R384 -/

/-- R379: what makes a plan BAD_PARAM. -/
def planBad (c : Cmd) : Bool :=
  let size (dim : Nat) := c.f 0 (5 * dim) 5
  decide (c.f 0 51 13 ≠ 0 ∨ c.f 2 32 32 ≠ 0 ∨ c.w 1 = 0 ∨ c.f 2 0 32 < 1000 ∨ 100000 < c.f 2 0 32)
    || (List.range 3).any (fun dim => decide (size dim < c.f 0 (15 + 5 * dim) 5 ∨ size dim < c.f 0 (36 + 5 * dim) 5))
    || (List.range 6).any (fun d => size (d / 2) = 0 && c.w (3 + d) ≠ 0)

/-- R380 to R384: the plan in force changes. The directions made RECABLING are given as a mask. -/
def State.loadPlan (s : State) (c : Cmd) : Nat × State :=
  let had := s.rb R.TORUS1_PLAN_LOADED 0
  let recab := (List.range 6).filter fun d => had && s.expected d ≠ c.w (3 + d)
  let s1 := ((s.wf R.TORUS1_SIZE_POSITION 0 (c.f 0 0 30)).wf R.TORUS1_PLAN_ID 0 (c.w 1)).wf R.TORUS_ROUTE_SETTLE_US 0 (c.f 2 0 32)
  let s2 := s1.each (List.range 6) fun t d => t.wf R.TORUS1_EXPECTED 0 (c.w (3 + d)) d
  let s3 := { s2 with tor := { s2.tor with ovr := c.f 0 30 6, root := some (c.f 0 36 15), planAt := s.elapsed } }
  let s4 := s3.wf R.TORUS1_PLAN_LOADED 0 1
  let s5 := s4.each recab fun t d =>
    let x := t.dirSt d
    let u := ((t.setDir d { x with wentDark := false, helloRun := 0 }).wf R.TORUS1_DSTATE 0 5 d).wf R.TORUS1_CLASS 0 0 d
    let v := (u.wf R.TORUS1_IDLE 0 0 d).ownLsn d 2
    if v.rb R.TORUS_SWITCH_PENDING 0 then v else v.wf R.TORUS1_IDLE 0 1 d
  let s6 := if s5.modState = msAwaitPlan then s5.phaseStart 6 msAgreeing else s5
  let s7 := s6.each (List.range 6) fun t d =>
    let x := t.dirSt d
    (t.setDir d { x with helloAt := t.elapsed }).dirCheck d
  (recab.foldl (fun m d => m + 2 ^ d) 0, s7)

/-- TOPOLOGY_LOAD; refused whole while the module leaves or has left (R495). -/
def State.topologyLoad (s : State) (i : Instr) (c : Cmd) : State :=
  s.vorane i 0x38 c .f (c.bodyWords = 9) fun t =>
    let ready := decide (t.modState = msReady)
    if c.f 0 51 13 ≠ 0 ∨ c.f 2 32 32 ≠ 0 then t.reply c [1]
    else if t.modState = msLeaving ∨ t.modState = msLeft then t.reply c [2]
    else if planBad c then t.reply c [1]
    else if (List.range 6).any fun d => c.w (3 + d) = t.rf R.MOD_SERIAL 0 then t.reply c [3]
    else if ready ∧ (c.f 0 0 30 ≠ t.rf R.TORUS1_SIZE_POSITION 0 ∨ t.tor.root ≠ some (c.f 0 36 15)
        ∨ c.f 2 0 32 ≠ t.rf R.TORUS_ROUTE_SETTLE_US 0) then t.reply c [2]
    else
      let (m, u) := t.loadPlan c
      u.reply c [m * 256]

/-! ### HELLO, R380 to R382 -/

/-- R380: a HELLO's content, without its stamp. -/
def State.helloWords (s : State) (d : Nat) : List Nat :=
  let plan := s.rb R.TORUS1_PLAN_LOADED 0
  let p (v : Nat) := if plan then v else 0xFF
  let h := s.here
  let st := s.dstate d
  let pass := plan && s.linkUp d && decide (s.dclass d = 0 ∨ s.dclass d = 10) && decide (s.expected d ≠ 0) && decide (st ≠ 5)
    && (s.dirSt d).peer.isSome
  [s.rf R.MOD_SERIAL 0, s.rf R.TORUS1_PLAN_ID 0,
   pack [(p (coord h 0), 0, 8), (p (coord h 1), 8, 8), (p (coord h 2), 16, 8), (d, 24, 8), (s.dimSize 0 - 1, 32, 8),
     (s.dimSize 1 - 1, 40, 8), (s.dimSize 2 - 1, 48, 8), (s.modState, 56, 8)],
   pack [(bit pass, 0, 1), (bit (s.tor.ovr.testBit d), 1, 1), (Config.slot, 8, 8), (s.rf R.BORSAN1_LANE_ACTIVE d, 16, 16),
     (s.rf R.TORUS_ROUTE_VER 0, 32, 8)]]

/-- HELLO_SEND: each 100 us until AGREED, each 1 ms after, and at any change. -/
def State.helloSend (s : State) (d : Nat) : State :=
  let x := s.dirSt d
  let ws := s.helloWords d
  if s.linkUp d ∧ (x.helloAt ≤ s.elapsed ∨ x.helloSent ≠ ws) then
    let gap := if s.dstate d = 2 then 1000000 else 100000
    (s.setDir d { x with helloAt := s.elapsed + gap, helloSent := ws }).transmit d
      { cls := 0, typ := 0, len := 48, words := ws ++ [s.now, 0] }
  else s

/-- HELLO_RECEIVE. -/
def State.helloReceive (s : State) (d : Nat) (h : Hello) : State :=
  if !s.linkUp d then s
  else
    let x := s.dirSt d
    let s1 := (s.wf R.TORUS1_PEER_SERIAL 0 h.serial d).setDir d { x with
      peer := some h, helloRun := if h.ok then x.helloRun + 1 else 0, peerOkAt := if h.ok then s.elapsed else x.peerOkAt }
    let back := decide (s1.dstate d = 5 ∧ h.serial = s1.expected d ∧ h.serial ≠ 0)
    (s1.when back fun t => t.wf R.TORUS1_DSTATE 0 1 d).dirCheck d

/-! ### Rows -/

/-- LANE_BAD, R359. -/
def execLaneBad (d lane power : Nat) (s : State) : Host.Outcome State Fault Refusal := .next (s.laneBad (d % 6) lane power)

/-- LANE_FRAME, R359; the boundary is the LINK_SEQ the frame names. -/
def execLaneFrame (d active boundary : Nat) (s : State) : Host.Outcome State Fault Refusal :=
  .next (if psnLe boundary (s.dirSt (d % 6)).nextSeq then s.laneFrame (d % 6) active else s)

/-- LANE_RETRAIN, R360. -/
def execLaneRetrain (d lane : Nat) (ok : Bool) (s : State) : Host.Outcome State Fault Refusal :=
  .next (s.laneRetrain (d % 6) lane ok)

/-- FIBRE_REVERSED, R361. -/
def execFibreReversed (d txLight rxLight : Nat) (s : State) : Host.Outcome State Fault Refusal :=
  .next (s.fibreLight (d % 6) txLight rxLight)

/-- LINK_TRAINED, R358, R385. -/
def execLinkTrained (d lanes txCount : Nat) (positions powers : List Nat) (s : State) : Host.Outcome State Fault Refusal :=
  .next (s.linkTrained (d % 6) lanes txCount positions powers)

/-- BORSAN_FRAME_RECEIVE, R363, R371. -/
def execBorsanFrameReceive (d : Nat) (f : Frame) (crcOk : Bool) (fec : List (Nat × Nat × Nat)) (s : State) :
    Host.Outcome State Fault Refusal := .next (s.borsanReceive (d % 6) f crcOk fec)

/-- BORSAN_ACK, R363. -/
def execBorsanAck (d seq : Nat) (s : State) : Host.Outcome State Fault Refusal := .next (s.borsanAck (d % 6) seq)

/-- BORSAN_NAK, R363. -/
def execBorsanNak (d seq : Nat) (s : State) : Host.Outcome State Fault Refusal := .next (s.borsanNak (d % 6) seq)

/-- TIME_FRAME_SEND, R365. -/
def execTimeFrameSend (d : Nat) (s : State) : Host.Outcome State Fault Refusal := .next (s.timeFrameSend (d % 6))

/-- TIME_FRAME_RECEIVE, R365. -/
def execTimeFrameReceive (d peerT1 echoT1 t2 t3 : Nat) (s : State) : Host.Outcome State Fault Refusal :=
  .next (s.timeFrameReceive (d % 6) peerT1 echoT1 t2 t3)

/-- REMOTE_CREDIT_REQ, R368. -/
def execRemoteCreditReq (u : Nat) (f : Frame) (s : State) : Host.Outcome State Fault Refusal :=
  .next (s.remoteCreditReq (u % 6) f)

/-- REMOTE_CREDIT_GRANT, R368. -/
def execRemoteCreditGrant (u : Nat) (f : Frame) (s : State) : Host.Outcome State Fault Refusal :=
  .next (if u < 6 then s.remoteCreditGrant f else s)

/-- REMOTE_CREDIT_RETURN, R368. -/
def execRemoteCreditReturn (u : Nat) (f : Frame) (s : State) : Host.Outcome State Fault Refusal :=
  .next (s.remoteCreditReturn (u % 6) f)

/-- NOTICE_FRAME, R375. -/
def execNoticeFrame (f : Frame) (s : State) : Host.Outcome State Fault Refusal := .next (s.noticeFrame f)

/-- LSN_RECEIVE, R373. -/
def execLsnReceive (d : Nat) (l : Lsn) (s : State) : Host.Outcome State Fault Refusal := .next (s.lsnReceive (d % 6) l)

/-- PEER_LSN_TIMEOUT, R376. -/
def execPeerLsnTimeout (d : Nat) (s : State) : Host.Outcome State Fault Refusal := .next (s.peerLsnTimeout (d % 6))

/-- ROUTE_SWITCH, R377. -/
def execRouteSwitch (s : State) : Host.Outcome State Fault Refusal := .next s.routeSwitch

/-- TOPOLOGY_LOAD, R379. -/
def execTopologyLoad (c : Cmd) (s : State) : Host.Outcome State Fault Refusal := .next (s.topologyLoad (.topologyLoad c) c)

/-- HELLO_SEND, R380. -/
def execHelloSend (d : Nat) (s : State) : Host.Outcome State Fault Refusal := .next (s.helloSend (d % 6))

/-- HELLO_RECEIVE, R381. -/
def execHelloReceive (d : Nat) (h : Hello) (s : State) : Host.Outcome State Fault Refusal := .next (s.helloReceive (d % 6) h)

/-- AGREE_TIMEOUT, R381. -/
def execAgreeTimeout (d : Nat) (s : State) : Host.Outcome State Fault Refusal := .next (s.dirCheck (d % 6))

end Sys2Proof.Machine
end

