-- ==== Sys2Proof/Machine/Collect.lean ====
section
/-! DEFINITION. Collectives, R387 to R391: the steps of an invocation, the requantisation at every hop, digests, resends and the
results. -/

namespace Sys2Proof.Machine

def State.coll (s : State) (i : Nat) : CollSt := Tbl.getD s.tor.coll i {}
def State.setColl (s : State) (i : Nat) (c : CollSt) : State := { s with tor := { s.tor with coll := Tbl.put s.tor.coll i c } }

/-! ### Segments and steps, R388 -/

/-- The dimensions of a collective whose size is more than 1, in the order X, Y, Z. -/
def State.collDims (s : State) (i : Nat) : List Nat :=
  [0, 1, 2].filter fun d => (s.rf R.TORUS2_C_DIMS 0 i).testBit d && 1 < s.dimSize d

/-- Segment `k` of `n` blocks from `lo` divided among `d`: the lower segments take one more block. -/
def segOf (lo n d k : Nat) : Nat × Nat := (lo + k * (n / d) + min k (n % d), n / d + (if k < n % d then 1 else 0))

/-- The blocks that the dimension of index `j` works on: the segments owned in the dimensions before it. -/
def State.segBefore (s : State) (dims : List Nat) (nb j : Nat) : Nat × Nat :=
  (dims.take j).foldl (fun v d =>
    segOf v.1 v.2 (s.dimSize d) ((coord s.here d + 1) % s.dimSize d)) (0, nb)

/-- A step of an invocation: whether it gathers, the index of its dimension and its number there. -/
structure CollHop where
  gather : Bool
  j : Nat
  s : Nat
deriving DecidableEq, Repr

/-- R388: the steps of an invocation. OP 0 ALL_REDUCE, 1 REDUCE_SCATTER, 2 ALL_GATHER. -/
def State.collHops (s : State) (op : Nat) (dims : List Nat) : List CollHop :=
  let part (g : Bool) (j : Nat) : List CollHop :=
    (List.range (s.dimSize (dims.getD j 0) - 1)).map fun n => { gather := g, j := j, s := n }
  let red := (List.range dims.length).flatMap fun j => part false j
  let gat := (List.range dims.length).reverse.flatMap fun j => part true j
  if op = 0 then red ++ gat else if op = 1 then red else gat

/-- The segments a step sends and receives. -/
def State.hopSegs (s : State) (dims : List Nat) (nb : Nat) (h : CollHop) : (Nat × Nat) × (Nat × Nat) :=
  let d := dims.getD h.j 0
  let n := s.dimSize d
  let c := coord s.here d
  let v := s.segBefore dims nb h.j
  if h.gather then (segOf v.1 v.2 n ((c + 1 + n - h.s) % n), segOf v.1 v.2 n ((c + n - h.s) % n))
  else (segOf v.1 v.2 n ((c + n - h.s) % n), segOf v.1 v.2 n ((c + n + n - h.s - 1) % n))

/-! ### Digests and formats, R389, R390 -/

/-- 2^31 - 1. -/
def linMod : Nat := 2147483647

/-- R390: LIN of element values. -/
def linOf (vs : List Int) : Nat :=
  ((vs.zipIdx).foldl (fun a v => (a + ((v.2 : Int) + 1) * v.1) % (linMod : Int)) (0 : Int)).toNat

/-- A digest word. -/
def digestOf (bytes : List Nat) (lin : Nat) (exact : Bool) : Nat := pack [(crc32c bytes, 0, 32), (lin, 32, 31), (bit exact, 63, 1)]

/-- The link format of a descriptor's blocks as R106 codes it. -/
def State.collFmt (s : State) (i : Nat) : Nat := if s.rf R.TORUS2_C_OPFMT 0 i = 0 then 1 else 0

/-- R389: an INT32 value, saturated, and whether it was. -/
def sat32 (v : Int) : Int × Bool :=
  if v < -2147483648 then (-2147483648, true) else if 2147483647 < v then (2147483647, true) else (v, false)

/-- R389: a block's elements as INT32 at scale XC, and whether it was shifted right. -/
def exactInts (fmt xc : Nat) (b : Block) : List Int × Bool :=
  ((Block.vals fmt b).map fun d => (sat32 (d.roundAt ((xc : Int) - 127) .rne)).1, b.x ≠ 0 && decide (b.x < xc))

/-- INT32 values as bytes, format 0x9. -/
def int32Bytes (vs : List Int) : List Nat := vs.flatMap fun v => leBytes 4 (fieldOfInt 32 v)

/-- Bytes of format 0x9 as INT32 values. -/
def int32Of (bs : List Nat) : List Int := (chunks 4 (bs.length / 4) bs).map fun w => signedOf 32 (ofBytes w)

/-! ### Contribution -/

/-- R390, R391: a contribution pip passes its digest. -/
def partOk (exact : Bool) (xc : Nat) (p : List Nat × Bool) : Bool :=
  let fmt := p.1.getD 0 0
  let pay := p.1.drop 2
  let body := pay.take (pay.length - 8)
  let dg := ofBytes (pay.drop (pay.length - 8))
  let blks := readBlocks fmt (body.length / blockBytes fmt) body
  let vs := if exact then blks.flatMap fun b => (exactInts fmt xc b).1 else blks.flatMap fun b => Block.ints fmt b
  decide (bitsOf dg 0 32 = crc32c body) && decide (bitsOf dg 32 31 = linOf vs)

/-- The blocks of a contribution pip. -/
def partBlocks (p : List Nat × Bool) : List Block :=
  let fmt := p.1.getD 0 0
  let pay := p.1.drop 2
  readBlocks fmt ((pay.length - 8) / blockBytes fmt) (pay.take (pay.length - 8))

/-- A chunk's failure recorded, R391, R396. -/
def State.collMismatch (s : State) (i hop from_ : Nat) (arith : Bool) : State :=
  let s1 := s.inc (if arith then R.TORUS2_ARITH_MISMATCHES else R.TORUS2_TRANSPORT_FAILS) 0
  let s2 := (((s1.wf R.TORUS2_LAST_MISMATCH_STAMP 0 s.now).wf R.TORUS2_MISMATCH_ID 0 i).wf R.TORUS2_MISMATCH_HOP 0 hop).wf
    R.TORUS2_MISMATCH_FROM 0 from_
  s2.setInt (torusPage 2) (if arith then R.INT_TORUS2_ARITH_MISMATCH else R.INT_TORUS2_TRANSPORT)

/-! ### Requantisation at site 0x04 -/

/-- R123, R125, R389: blocks of the unit's values from block `b0` requantised to the link format: their bytes, hollow where a value is not
finite, and the state that has counted the chunk. In the deterministic form with ties to even and error feedback, in EXACT mode too, on the
values rounded to FP32. The residual of a value that is not finite is zero, and those of the others in its chunk stay (DESIGN CHOICE,
log 38). -/
def State.requant (s : State) (i b0 n : Nat) : List (List Nat) × Bool × State :=
  let c := s.coll i
  let fmt := s.collFmt i
  let exact := s.rf R.TORUS2_C_EXACT 0 i = 1
  let xc := s.rf R.TORUS2_C_XC 0 i
  let raw := (c.vec.drop (32 * b0)).take (32 * n)
  let det := s.rf R.TORUS2_C_DET 0 i = 1
  let key (j : Nat) := (c.hop * 2 ^ 24 + 32 * b0 + j)
  let f (v : Int × Nat) : Nat :=
    efSum (if exact then f32.encode .rne false { m := v.1, e := (xc : Int) - 127 } else v.1.toNat) (Tbl.getD c.resid (key v.2) 0 * 65536)
  let dys : List Dy := if det then raw.zipIdx.map fun v => (f32.decode (f v)).dy
    else if exact then raw.map fun v => { m := v, e := (xc : Int) - 127 }
    else raw.map fun v => (f32.decode v.toNat).dy
  let nonfin := !exact && raw.any fun v => !ffinite v.toNat
  let m := s.here
  let seed := siteSeed (leBytes 8 (s.rf R.TORUS2_C_SEED 0 i) ++ [4, coord m 0, coord m 1, coord m 2, c.hop % 256] ++
    leBytes 4 c.chunkNo)
  let ms : List Rnd := if det then List.replicate (32 * n) .rne else (draws seed (32 * n)).map .sr
  let qs := ((chunks 32 n dys).zip (chunks 32 n ms)).map fun b => quant fmt 254 b.1 b.2
  let got := qs.flatMap (·.got)
  let cl := qs.flatMap fun q => q.clamped.map (· || q.blk.x = 0)
  let res := if !det then c.resid
    else if nonfin then raw.zipIdx.foldl (fun (t : Tbl Nat) v => if ffinite v.1.toNat then t else Tbl.putD t 0 (key v.2) 0) c.resid
    else dys.zipIdx.foldl (fun (t : Tbl Nat) v =>
      let e := if cl.getD v.2 false then 0 else bf16.encode .rne false (v.1.add (got.getD v.2 Dy.zero).neg)
      Tbl.putD t 0 (key v.2) e) c.resid
  (qs.map fun q => q.blk.bytes fmt, nonfin, s.setColl i { c with chunkNo := c.chunkNo + 1, resid := res })

/-- R389: a chunk's blocks in the link format, requantised where they have not been. -/
def State.settleChunk (s : State) (i b0 n : Nat) : State :=
  if (List.range n).all fun j => (Tbl.get? (s.coll i).out (b0 + j)).isSome then s
  else
    let (bs, nf, v) := s.requant i b0 n
    let c := v.coll i
    let out := (List.range n).foldl (fun t j => Tbl.put t (b0 + j) (bs.getD j [])) c.out
    v.setColl i { c with out := out, hollow := if nf then (List.range n).map (b0 + ·) ++ c.hollow else c.hollow }

/-! ### Sending a step -/

/-- A chunk's frame to the + neighbour of a dimension: its descriptor, step, first block, blocks, marks, data and digest. -/
def State.sendChunk (s : State) (i dim b0 n : Nat) (hollow ovr int32 : Bool) (data : List Nat) (dg : Nat) : State :=
  let c := s.coll i
  let f : Frame := { cls := 2, typ := 0, dest := s.neighbour s.here (2 * dim), len := data.length + 8,
                     words := [i, c.hop, b0, n, pack [(bit hollow, 0, 1), (bit ovr, 1, 1), (bit int32, 2, 1), (c.unit, 4, 3)]] ++ data ++ [dg] }
  let k := c.kept ++ [(c.hop, b0, f)]
  (s.setColl i { c with kept := k.drop (k.length - 16) }).sendFrame c.unit f

/-- One chunk of a step: reduced values requantised (or sent as INT32 at XC), or blocks forwarded unchanged. `lin` is the predicted
LIN of an exact chunk. -/
def State.chunkOut (s : State) (i dim b0 n : Nat) (forward : Bool) : State :=
  let c := s.coll i
  let exact := s.rf R.TORUS2_C_EXACT 0 i = 1
  let hol := (List.range n).any fun j => c.hollow.contains (b0 + j)
  let fmt := s.collFmt i
  if forward then
    let t := s.settleChunk i b0 n
    let ct := t.coll i
    let hol2 := (List.range n).any fun j => ct.hollow.contains (b0 + j)
    let data := (List.range n).flatMap fun j => Tbl.getD ct.out (b0 + j) []
    let vs := (readBlocks fmt n data).flatMap fun b => Block.ints fmt b
    t.sendChunk i dim b0 n hol2 false false data (digestOf data (linOf vs) false)
  else if exact then
    let vs := (c.vec.drop (32 * b0)).take (32 * n)
    let data := int32Bytes vs
    let pr := Tbl.getD c.pred b0 (linOf vs, false)
    s.sendChunk i dim b0 n hol pr.2 true data (digestOf data pr.1 true)
  else
    let (bs, nf, t) := s.requant i b0 n
    let data := bs.flatten
    let vs := (readBlocks fmt n data).flatMap fun b => Block.ints fmt b
    t.sendChunk i dim b0 n (hol || nf) false false data (digestOf data (linOf vs) false)

/-- The chunks of a segment. -/
def chunkStarts (lo n cb : Nat) : List (Nat × Nat) :=
  (List.range ((n + cb - 1) / max 1 cb)).map fun k => (lo + k * cb, min cb (n - k * cb))

/-- R388: a step sends its segment. -/
def State.sendHop (s : State) (i : Nat) (h : CollHop) : State :=
  let dims := s.collDims i
  let nb := s.rf R.TORUS2_C_ELEMENTS 0 i / 32
  let seg := (s.hopSegs dims nb h).1
  s.each (chunkStarts seg.1 seg.2 (s.rf R.TORUS2_C_CHUNK_BLOCKS 0 i)) fun t k =>
    t.chunkOut i (dims.getD h.j 0) k.1 k.2 h.gather

/-! ### Results -/

/-- The result blocks that a module delivers. -/
def State.resultSeg (s : State) (i : Nat) : Nat × Nat :=
  let dims := s.collDims i
  let nb := s.rf R.TORUS2_C_ELEMENTS 0 i / 32
  if s.rf R.TORUS2_C_OP 0 i = 1 then s.segBefore dims nb dims.length else (0, nb)

/-- The results leave as pips of OUT_STREAM, CHUNK_BLOCKS blocks to a pip (R389); a pip with a block missing or hollow is hollow. -/
def State.emitResults (s : State) (i : Nat) : State :=
  let c := s.coll i
  let fmt := s.collFmt i
  let seg := s.resultSeg i
  let cb := min 58 (s.rf R.TORUS2_C_CHUNK_BLOCKS 0 i)
  (chunkStarts seg.1 seg.2 cb).zipIdx.foldl (fun t k =>
    let bs := (List.range k.1.2).map fun j => Tbl.get? c.out (k.1.1 + j)
    let hol := bs.any (·.isNone) || (List.range k.1.2).any fun j => c.hollow.contains (k.1.1 + j)
    let data := if hol then List.replicate (k.1.2 * blockBytes fmt) 0 else bs.flatMap fun b => b.getD []
    let p : Pip := { dest := s.rf R.TORUS2_C_OUT_DEST 0 i, stream := s.rf R.TORUS2_C_OUT_STREAM 0 i, seq := k.2 % 65536, gen := 0,
                     hollow := hol, fmt := fmt, source := 0xFFFF, egress := s.now, payload := data }
    t.emit (.mesh 6 p.dest (pipWords p))) s

/-- The invocation is over. -/
def State.collEnd (s : State) (i : Nat) : State :=
  let c := s.coll i
  (s.emitResults i).setColl i { c with running := false, vec := [], hollow := [], hop := 0, got := [], out := [], fails := [],
                                       pred := [] }

/-- R389: the values owned after the last step requantised once, where they have not been. The hop number that seeds it (R120) is one past
the last step's, which the spec does not say (DESIGN CHOICE, log 38). -/
def State.settleOwn (s : State) (i : Nat) : State :=
  let seg := s.resultSeg i
  s.each (chunkStarts seg.1 seg.2 (s.rf R.TORUS2_C_CHUNK_BLOCKS 0 i)) fun t k => t.settleChunk i k.1 k.2

/-! ### BROADCAST -/

/-- A module's distance from the root along a dimension. -/
def State.rootDist (s : State) (i d : Nat) : Nat :=
  let n := s.dimSize d
  (coord s.here d + n - coord (s.rf R.TORUS2_C_ROOT 0 i) d % n) % n

/-- R388: the whole vector sent on along the dimensions the module forwards in: that of arrival, short of the ring's end, and
every later one. `arr` is the index of the dimension of arrival. -/
def State.broadcastOn (s : State) (i : Nat) (arr : Option Nat) : State :=
  let dims := s.collDims i
  let nb := s.rf R.TORUS2_C_ELEMENTS 0 i / 32
  s.each (List.range dims.length) fun t j =>
    let d := dims.getD j 0
    let go := match arr with
      | none => true
      | some a => decide (a < j ∨ (a = j ∧ t.rootDist i d + 1 < t.dimSize d))
    if go then
      let c := t.coll i
      (t.setColl i { c with hop := j }).each (chunkStarts 0 nb (t.rf R.TORUS2_C_CHUNK_BLOCKS 0 i)) fun u k =>
        u.chunkOut i d k.1 k.2 true
    else t

/-! ### Progress -/

/-- The step in progress has all its blocks: the next begins, or the invocation ends. Chunks received ahead are left for the
caller. -/
def State.nextHop (s : State) (i : Nat) : State :=
  let c := s.coll i
  let hops := s.collHops (s.rf R.TORUS2_C_OP 0 i) (s.collDims i)
  let turn := (hops[c.hop]?).map (·.j) ≠ (hops[c.hop + 1]?).map (·.j)
  let s1 := s.setColl i { c with hop := c.hop + 1, got := [], pred := if turn then [] else c.pred }
  match hops[c.hop + 1]? with
  | some h => s1.sendHop i h
  | none => (s1.settleOwn i).collEnd i

/-- The blocks a step must receive. -/
def State.hopNeeds (s : State) (i : Nat) : List Nat :=
  let dims := s.collDims i
  match (s.collHops (s.rf R.TORUS2_C_OP 0 i) dims)[(s.coll i).hop]? with
  | some h =>
    let seg := (s.hopSegs dims (s.rf R.TORUS2_C_ELEMENTS 0 i / 32) h).2
    (List.range seg.2).map (seg.1 + ·)
  | none => []

/-- A chunk's data taken in: added to the unit's values, or kept as it is. The blocks of a chunk whose sums saturated, here or before, are
hollow from then on (R440). -/
def State.takeChunk (s : State) (i b0 n : Nat) (hollow int32 gather : Bool) (data : List Nat) (lin : Nat) (flag : Bool) : State :=
  let c := s.coll i
  let fmt := s.collFmt i
  let hol := if hollow then (List.range n).map (b0 + ·) ++ c.hollow else c.hollow
  let got := (List.range n).map (b0 + ·) ++ c.got
  if gather then
    let bs := chunks (blockBytes fmt) n data
    let out := (List.range n).foldl (fun t j => Tbl.put t (b0 + j) (bs.getD j [])) c.out
    s.setColl i { c with out := out, hollow := hol, got := got }
  else
    let inc := if int32 then int32Of data
      else (readBlocks fmt n data).flatMap fun b => (Block.vals fmt b).map fun d => (f32.encode .rne false d : Int)
    let add (a b : Int) : Int × Bool := if int32 then sat32 (a + b) else ((fadd b.toNat a.toNat : Nat), false)
    let sums := (inc.zipIdx).map fun v => add (c.vec.getD (32 * b0 + v.2) 0) v.1
    let ovr := sums.any (·.2)
    let own := (c.vec.drop (32 * b0)).take sums.length
    let pred := if int32 then Tbl.put c.pred b0 ((lin + linOf own) % linMod, ovr || flag) else c.pred
    let vec := c.vec.take (32 * b0) ++ sums.map (·.1) ++ c.vec.drop (32 * b0 + sums.length)
    let lost := if int32 && (ovr || flag) then (List.range n).map (b0 + ·) else []
    (s.setColl i { c with vec := vec, hollow := lost ++ hol, got := got, pred := pred }).when ovr fun t => t.inc R.TORUS2_OVERFLOWS 0

/-- A chunk accepted: taken in, acknowledged, and the next step begun when all have come. -/
def State.chunkIn (s : State) (i b0 n : Nat) (hollow int32 : Bool) (data : List Nat) (lin : Nat) (flag : Bool) : State :=
  let c := s.coll i
  let op := s.rf R.TORUS2_C_OP 0 i
  if op = 3 then
    let s1 := s.takeChunk i b0 n hollow int32 true data lin flag
    let nb := s.rf R.TORUS2_C_ELEMENTS 0 i / 32
    if (List.range nb).all fun b => (s1.coll i).got.contains b then (s1.broadcastOn i (some c.hop)).collEnd i else s1
  else
    let g := match (s.collHops op (s.collDims i))[c.hop]? with
      | some h => h.gather
      | none => true
    let s1 := s.takeChunk i b0 n hollow int32 g data lin flag
    if (s1.hopNeeds i).all fun b => (s1.coll i).got.contains b then s1.nextHop i else s1

/-- R391: a chunk's checks: 0 good, 1 TRANSPORT, 2 ARITH_MISMATCH. -/
def chunkFault (fmt n : Nat) (ovr int32 : Bool) (data : List Nat) (dg : Nat) : Nat :=
  let vs := if int32 then int32Of data else (readBlocks fmt n data).flatMap fun b => Block.ints fmt b
  if bitsOf dg 0 32 ≠ crc32c data then 1
  else if ovr then 0
  else if bitsOf dg 32 31 = linOf vs then 0
  else if int32 then 2 else 1

/-- A chunk of the step in progress, checked. -/
def State.chunkNow (s : State) (i : Nat) (f : Frame) : State :=
  let w (k : Nat) := f.words.getD k 0
  let hop := w 1
  let b0 := w 2
  let n := w 3
  let data := (f.words.drop 5).take (f.words.length - 6)
  let dg := f.words.getD (f.words.length - 1) 0
  let hollow := (w 4).testBit 0
  let ovr := (w 4).testBit 1
  let int32 := (w 4).testBit 2
  let c := s.coll i
  let key := hop * 2 ^ 20 + b0
  let ack (t : State) : State := t.sendFrame c.unit { cls := 2, typ := 1, dest := f.src, len := 24, words := [i, hop, b0] }
  let bad := if hollow then 0 else chunkFault (s.collFmt i) n ovr int32 data dg
  if bad = 0 then (ack s).chunkIn i b0 n hollow int32 data (bitsOf dg 32 31) ovr
  else
    let fails := Tbl.getD c.fails key 0
    let s1 := s.collMismatch i hop f.src (bad = 2)
    if fails < (if bad = 2 then 1 else 2) then
      (s1.setColl i { c with fails := Tbl.put c.fails key (fails + 1) }).sendFrame c.unit
        { cls := 2, typ := 2, dest := f.src, len := 32, words := [i, hop, b0, bit (decide (bad = 2))] }
    else
      let s2 := (s1.inc R.TORUS2_HOLLOW_CHUNKS 0).setInt (torusPage 2) R.INT_TORUS2_HOLLOW_CHUNK
      let s3 := s2.when (decide (bad = 2)) fun t =>
        (t.logEvSev 0x0A00 1 (torusPage 2).index f.src [f.src, i, hop, b0]).sendNotice f.src [0xFFFF, bitsOf (w 4) 4 3, 0, 0]
      (ack s3).chunkIn i b0 n true int32 data (bitsOf dg 32 31) ovr

/-- Chunks received ahead that the step in progress can now take. -/
def State.drainEarly (s : State) (i : Nat) : Nat → State
  | 0 => s
  | fuel + 1 =>
    let c := s.coll i
    match c.early.find? fun f => c.running && f.words.getD 1 0 = c.hop with
    | none => s
    | some f => ((s.setColl i { c with early := c.early.erase f }).chunkNow i f).drainEarly i fuel

/-- CHUNK_RECEIVE: a chunk of the step in progress, or of one that this module has not reached. -/
def State.chunkReceive (s : State) (u : Nat) (f : Frame) : State :=
  let i := f.words.getD 0 0 % 64
  if f.cls ≠ 2 ∨ f.typ ≠ 0 ∨ f.dest ≠ s.here ∨ s.rf R.TORUS2_C_VALID 0 i = 0 then s
  else
    let c := s.coll i
    let hop := f.words.getD 1 0
    if s.rf R.TORUS2_C_OP 0 i = 3 then
      let s1 := if c.running then s else
        (s.setColl i { c with unit := u, running := true, startAt := s.elapsed, hop := hop }).inc R.TORUS2_C_INSTANCE 0 1 i
      s1.chunkNow i f
    else if c.running ∧ hop = c.hop then (s.chunkNow i f).drainEarly i 256
    else s.setColl i { c with early := c.early ++ [f] }

/-- CHUNK_ACK: a chunk kept is freed. -/
def State.chunkAck (s : State) (f : Frame) : State :=
  let i := f.words.getD 0 0 % 64
  let c := s.coll i
  if f.dest = s.here then
    s.setColl i { c with kept := c.kept.filter fun k => !(k.1 = f.words.getD 1 0 && k.2.1 = f.words.getD 2 0) }
  else s

/-- RESEND_REQ: a chunk kept is sent again, its addition repeated from the buffer where that is asked. -/
def State.resendReq (s : State) (f : Frame) : State :=
  let i := f.words.getD 0 0 % 64
  let c := s.coll i
  match c.kept.find? fun k => k.1 = f.words.getD 1 0 && k.2.1 = f.words.getD 2 0 with
  | some k => if f.dest = s.here then s.sendFrame c.unit k.2.2 else s
  | none => s

/-! ### Start and timeout -/

/-- R388: the invocation begins with the contribution's values. A pip with a scale of 0xFF is hollow, and recorded (R105). -/
def State.collBegin (s : State) (i : Nat) (parts rest : List (List Nat × Bool)) : State :=
  let c := s.coll i
  let exact := s.rf R.TORUS2_C_EXACT 0 i = 1
  let xc := s.rf R.TORUS2_C_XC 0 i
  let blks := parts.flatMap fun p => (partBlocks p).map fun b => (p.1.getD 0 0, b, p.2 || Block.poison (p.1.getD 0 0) b)
  let vec : List Int := blks.flatMap fun b =>
    if exact then (exactInts b.1 xc b.2.1).1 else (Block.vals b.1 b.2.1).map fun d => ((f32.encode .rne false d : Nat) : Int)
  let shifts := if exact then blks.countP fun b => (exactInts b.1 xc b.2.1).2 else 0
  let hol := (blks.zipIdx.filter fun b => b.1.2.2).map (·.2)
  let odd := parts.filter fun p => !p.2 && (partBlocks p).any fun b => Block.poison (p.1.getD 0 0) b
  let s0 := s.each odd fun t _ => t.unitEv 5 (torusPage 2) 0 (t.rf R.TORUS2_C_IN_STREAM 0 i) false
  let s1 := (s0.inc R.TORUS2_EXACT_SHIFTS 0 shifts).inc R.TORUS2_C_INSTANCE 0 1 i
  let s2 := s1.setColl i { c with
    parts := rest, bad := 0, running := true, startAt := s.elapsed, vec := vec, hollow := hol, hop := 0, got := [], out := [], pred := [] }
  let op := s.rf R.TORUS2_C_OP 0 i
  if op = 3 then ((s2.broadcastOn i none).settleOwn i).collEnd i
  else
    match (s2.collHops op (s2.collDims i)).head? with
    | none => (s2.settleOwn i).collEnd i
    | some h => (s2.sendHop i h).drainEarly i 256

/-- COLLECTIVE_START: the whole contribution is held; a BROADCAST begins at its root. A pip that fails its digest is asked for again,
twice, then taken hollow. -/
def State.collStart (s : State) (i : Nat) : State :=
  let c := s.coll i
  if s.rf R.TORUS2_C_VALID 0 i = 0 ∨ c.running ∨ (s.rf R.TORUS2_C_OP 0 i = 3 ∧ s.rf R.TORUS2_C_ROOT 0 i ≠ s.here) then s
  else if !s.collOk i then
    (s.setColl i { c with parts := [], out := [] }).emitResults i
  else
    let need := s.rf R.TORUS2_C_ELEMENTS 0 i / 32
    let take := (List.range (c.parts.length + 1)).find? fun n => need ≤ ((c.parts.take n).map fun p => (partBlocks p).length).sum
    match take with
    | none => s
    | some n =>
      let exact := s.rf R.TORUS2_C_EXACT 0 i = 1
      let xc := s.rf R.TORUS2_C_XC 0 i
      let mine := c.parts.take n
      match mine.find? fun p => !p.2 && !partOk exact xc p with
      | none => s.collBegin i mine (c.parts.drop n)
      | some p =>
        let s1 := s.collMismatch i 0 s.here false
        if c.bad < 2 then
          (s1.setColl i { c with bad := c.bad + 1, parts := c.parts.erase p }).emit (.mesh 18 (p.1.getD 1 0) [i])
        else
          let q := c.parts.map fun x => if x = p then (x.1, true) else x
          let s2 := (s1.inc R.TORUS2_HOLLOW_CHUNKS 0).setInt (torusPage 2) R.INT_TORUS2_HOLLOW_CHUNK
          s2.collBegin i (q.take n) (q.drop n)

/-- COLLECTIVE_TIMEOUT, R391. -/
def State.collTimeout (s : State) (i : Nat) : State :=
  let c := s.coll i
  if c.running ∧ c.startAt + 1000 * s.rf R.TORUS2_COLL_TIMEOUT_US 0 < s.elapsed then
    ((s.inc R.TORUS2_TIMEOUTS 0).setInt (torusPage 2) R.INT_TORUS2_TIMEOUT).collEnd i
  else s

/-- COLLECTIVE_START, R388. -/
def execCollectiveStart (i : Nat) (s : State) : Host.Outcome State Fault Refusal := .next (s.collStart (i % 64))

/-- CHUNK_RECEIVE, R391. -/
def execChunkReceive (u : Nat) (f : Frame) (s : State) : Host.Outcome State Fault Refusal := .next (s.chunkReceive (u % 6) f)

/-- CHUNK_ACK, R391. -/
def execChunkAck (u : Nat) (f : Frame) (s : State) : Host.Outcome State Fault Refusal :=
  .next (if u < 6 then s.chunkAck f else s)

/-- RESEND_REQ, R391. -/
def execResendReq (u : Nat) (f : Frame) (s : State) : Host.Outcome State Fault Refusal :=
  .next (if u < 6 then s.resendReq f else s)

/-- COLLECTIVE_TIMEOUT, R391. -/
def execCollectiveTimeout (i : Nat) (s : State) : Host.Outcome State Fault Refusal := .next (s.collTimeout (i % 64))

end Sys2Proof.Machine
end

