-- ==== Sys2Proof/Machine/Hbm.lean ====
section
/-! DEFINITION. The HBM controllers, chapter 9: codeword reads and writes with their outcomes (R265 to R269), scrubbing (R270),
training and fill (R261, R275). -/

namespace Sys2Proof.Machine

/-- GF(2^8) of R266: multiplication by the primitive element 0x02. -/
def gfDouble (a : Nat) : Nat := if a < 128 then 2 * a else (2 * a) ^^^ 0x11D

/-- GF(2^8) of R266: the product of two elements. -/
def gfMul (a b : Nat) : Nat :=
  ((List.range 8).foldl (fun (r : Nat × Nat) i => (if b.testBit i then r.1 ^^^ r.2 else r.1, gfDouble r.2)) (0, a % 256)).1

/-- R266: the generator, highest coefficient first and without its leading 1. -/
def rsGen : List Nat :=
  let step (g : List Nat × Nat) (_ : Nat) : List Nat × Nat :=
    (((g.1 ++ [0]).zip (0 :: g.1)).map (fun (p : Nat × Nat) => p.1 ^^^ gfMul p.2 g.2), gfDouble g.2)
  ((List.range 8).foldl step ([1], 1)).1.drop 1

/-- R266: the eight check symbols of a block's bytes: the remainder of the data polynomial divided by the generator. -/
def rsCheck (bytes : List Nat) : List Nat :=
  bytes.foldl (fun rem b =>
    let q := (rem.getD 0 0) ^^^ b % 256
    ((rem.drop 1 ++ [0]).zip rsGen).map (fun (p : Nat × Nat) => p.1 ^^^ gfMul p.2 q)) (List.replicate 8 0)

/-- R262 inverted: the address of a stack offset. -/
def hbmAddr (i stack off : Nat) : Nat :=
  if off < i * 2 ^ 30 then (off / 4096 * 12 + stack) * 4096 + off % 4096
  else 12 * i * 2 ^ 30 + stack * ((48 - i) * 2 ^ 30) + (off - i * 2 ^ 30)

/-- Symbols in error of a codeword read: position 0 to 63 a data byte, 64 to 71 a check symbol, with the error's value. -/
abbrev SymErrs := List (Nat × Nat)

/-- The number of symbols in error. -/
def symCount (errs : SymErrs) : Nat := ((errs.filter fun e => e.1 < 72 && e.2 % 256 ≠ 0).map (·.1)).eraseDups.length

/-- The data of a codeword with its errors. -/
def corrupt (data : Nat) (errs : SymErrs) : Nat :=
  errs.foldl (fun d e => if e.1 < 64 then d ^^^ (e.2 % 256 * 256 ^ e.1) else d) data

/-- R267, R268: a codeword read by its controller: its 64 bytes as a number, whether they are delivered hollow, and what the
controller does. `flips` are tag bits read wrong; `miss` is what a pattern of seven or more symbols is taken for, when the code
does not detect it. -/
def State.codeRead (s : State) (st off : Nat) (errs : SymErrs) (flips : Nat) (miss : Option Nat) : Nat × Bool × State :=
  let key := hbmKey st off
  let data := Mem.read s.hbm key 64
  let bad := corrupt data errs
  let tag := popcount8 (s.hbmTag st off ^^^ flips % 256)
  let p := hbmPage st
  let s1 := if 1 ≤ tag ∧ tag ≤ 7 then (s.inc R.HBM1_TAG_ERRORS st).setInt p R.INT_HBM_TAG_ERROR else s
  let n := symCount errs
  let addr := hbmAddr s.interleave st off
  if 3 ≤ tag then ((if n ≤ 2 then data else bad), true, s1.inc R.HBM1_HOLLOW_READS st)
  else if n = 0 then (data, false, s1)
  else if n ≤ 2 then
    let s2 := ((s1.inc R.HBM1_CE_COUNT st).wf R.HBM1_LAST_CE_ADDR st addr).setInt p R.INT_HBM_CE
    (data, false, { s2 with sen := { s2.sen with hbmCes := (key / 64, s.elapsed) :: s2.sen.hbmCes } })
  else
    match (if 7 ≤ n then miss else none) with
    | some d => (d % 2 ^ 512, false, s1)
    | none =>
      let s2 := ({ s1 with hbm := Mem.write s1.hbm key 64 bad }).setHbmTag st off 0xFF
      let s3 := ((s2.inc R.HBM1_UE_COUNT st).inc R.HBM1_HOLLOW_READS st).inc R.HBM1_HOLLOW_WRITES st
      let s4 := (s3.wf R.HBM1_LAST_UE_ADDR st addr).wf R.HBM1_LAST_UE_STAMP st s.now
      (bad, true, s4.blockErr p 0x10 addr n (2 ^ R.INT_HBM_UE))

/-! ### Requests -/

end Sys2Proof.Machine

namespace Sys2Proof

/-- R272: the requester may reach the sealed range. -/
def Requester.sealedOk : Requester → Bool
  | .master .oasis => true | .stream _ => true | .program _ => true | _ => false

/-- R52: the MASTER code and SOURCE of a requester. -/
def Requester.code : Requester → Nat
  | .master m => m.code | _ => 7

def Requester.source : Requester → Nat
  | .master m => m.source | _ => 0

/-- The logical core, or the instance of another unit, that a response goes to. -/
def Requester.dest : Requester → Nat
  | .master m => m.source | .stream v => v | .program e => e / 16 | .collective u => u

/-- The S-core a requester is, R265. -/
def Requester.score : Requester → Option Nat
  | .master (.score ck) => some ck | _ => none

end Sys2Proof

namespace Sys2Proof.Machine

/-- A response of a controller: result of R59, hollow mark, data. -/
def State.hbmAnswer (s : State) (r : Requester) (id result : Nat) (hollow : Bool) (data : Nat) : State :=
  s.mesh 17 r.dest [r.code, id, result, bit hollow, data]

/-- R262, R272, R274: an access that reaches no codeword: unpopulated (NO_PAGE to a master, zero and hollow to another), sealed
(DENIED), or of a FAILED stack; otherwise the stack and offset. -/
def State.hbmAccess (s : State) (r : Requester) (a data : Nat) : Option (Nat × Nat) × Nat × State :=
  match hbmDecode s.interleave a with
  | none => (none, (match r with | .master _ => 1 | _ => 0), s)
  | some (st, off) =>
    if s.sealed a && !r.sealedOk then (none, 2, s.sealedDenied st a data r.code r.source)
    else if s.rb R.HBM_FAILED st then (none, 0, s.stackFailedAccess st a data r.code r.source)
    else (some (st, off), 0, s)

/-- HBM_READ: up to 64 bytes of one codeword from address `a`; `lr` places an S-core's reservation (R265). -/
def State.hbmReadCmd (s : State) (r : Requester) (id a n : Nat) (lr : Bool) (errs : SymErrs) (flips : Nat)
    (miss : Option Nat) : State :=
  let n := min n (64 - a % 64)
  match s.hbmAccess r a 0 with
  | (none, res, s1) => s1.hbmAnswer r id res (res = 0) 0
  | (some (st, off), _, s1) =>
    let base := off / 64 * 64
    let (d, h, s2) := s1.codeRead st base errs flips miss
    let v := d / 256 ^ (a % 64) % 256 ^ n
    let s3 := s2.inc R.HBM_READ_BYTES st n
    let s4 := match (if lr then r.score else none) with
      | some ck => { s3 with resv := Tbl.put s3.resv ck (hbmKey st base / 64) }
      | none => s3
    s4.hbmAnswer r id 0 h v

/-- R271: a stream engine may have a further read outstanding to a stack. -/
def State.streamRoom (s : State) (v st : Nat) : Bool :=
  let o := (s.vcSt v).reads
  decide (o.length < 128) && decide (o.countP (fun x => x.2 = st) < if st = s.nearOf v then 48 else 16)

/-- R271: a stream engine's read is outstanding. -/
def State.readOut (s : State) (v id st : Nat) : State :=
  s.setVc v { s.vcSt v with reads := (s.vcSt v).reads ++ [(id, st)] }

/-- HBM_READ, R268, R271: a stream engine's read to a stack is issued while its limits allow another, and waits otherwise. -/
def State.hbmReadIssue (s : State) (r : Requester) (id a n : Nat) (lr : Bool) (errs : SymErrs) (flips : Nat)
    (miss : Option Nat) : State :=
  match r, hbmDecode s.interleave a with
  | .stream v, some (st, _) =>
    if s.streamRoom v st then (s.hbmReadCmd r id a n lr errs flips miss).readOut v id st
    else s.setVc v { s.vcSt v with ready := (s.vcSt v).ready ++ [{ id := id, addr := a, n := n, stack := st }] }
  | _, _ => s.hbmReadCmd r id a n lr errs flips miss

/-- R271: of the reads that wait and may be issued, that to the near stack is issued first, then the oldest. -/
def State.nextRead (s : State) (v : Nat) : Option ReadReq :=
  let l := (s.vcSt v).ready.filter fun x => s.streamRoom v x.stack
  (l.find? fun x => x.stack = s.nearOf v).or l.head?

/-- R271: the response of a stream engine's read has come; the next that waits is issued. -/
def State.streamDone (s : State) (v id : Nat) : State :=
  let x := s.vcSt v
  let s1 := s.setVc v { x with reads := x.reads.eraseP fun r => r.1 = id }
  match s1.nextRead v with
  | none => s1
  | some r =>
    let s2 := s1.setVc v { s1.vcSt v with ready := (s1.vcSt v).ready.erase r }
    (s2.hbmReadCmd (.stream v) r.id r.addr r.n false [] 0 none).readOut v r.id r.stack

/-- RISC-V AMOs on `n` bytes: 0 swap, 1 add, 2 xor, 3 and, 4 or, 5 min, 6 max, 7 minu, 8 maxu. -/
def amo (op n old v : Nat) : Nat :=
  let m := 256 ^ n
  let sg (x : Nat) : Int := signedOf (8 * n) x
  let r :=
    if op = 0 then v else if op = 1 then old + v else if op = 2 then old ^^^ v else if op = 3 then old &&& v
    else if op = 4 then old ||| v else if op = 5 then (if sg old ≤ sg v then old else v)
    else if op = 6 then (if sg old ≤ sg v then v else old) else if op = 7 then min old v else max old v
  r % m

/-- What a write does at its controller. -/
inductive WriteKind where
  | store
  | sc
  | amo (op : Nat)
deriving DecidableEq, Repr

/-- The kind a number names: 0 a store, 1 a store-conditional, 2 and up an AMO. -/
def WriteKind.of (k : Nat) : WriteKind := if k = 0 then .store else if k = 1 then .sc else .amo (k - 2)

/-- R265, R269: `n` bytes written in one codeword: whole, or as a read-modify-write; what was read stays hollow. -/
def State.codeWrite (s : State) (st off n : Nat) (v : Nat → Nat) (hollow : Bool) (errs : SymErrs) (flips : Nat)
    (miss : Option Nat) (by_ : Option Nat) : Nat × Bool × State :=
  let base := off / 64 * 64
  let whole := decide (n = 64 ∧ off = base)
  let (d, h, s1) := if whole then (0, false, s) else s.codeRead st base errs flips miss
  let old := d / 256 ^ (off % 64) % 256 ^ n
  let s2 := { s1 with hbm := Mem.write s1.hbm (hbmKey st off) n (v old) }
  let hh := hollow || h
  let s3 := s2.setHbmTag st base (if hh then 0xFF else 0)
  let s4 := s3.when hh fun t => t.inc R.HBM1_HOLLOW_WRITES st
  (old, h, (s4.inc R.HBM_WRITE_BYTES st n).clearResv st base by_)

/-- HBM_WRITE: a store, SC or AMO of `n` bytes at address `a`. -/
def State.hbmWriteCmd (s : State) (r : Requester) (id a n v : Nat) (hollow : Bool) (kind : Nat) (errs : SymErrs) (flips : Nat)
    (miss : Option Nat) : State :=
  let n := min n (64 - a % 64)
  match s.hbmAccess r a v with
  | (none, res, s1) => s1.hbmAnswer r id res (res = 0) 0
  | (some (st, off), _, s1) =>
    match WriteKind.of kind with
    | .store =>
      let (_, _, s2) := s1.codeWrite st off n (fun _ => v) hollow errs flips miss r.score
      s2.hbmAnswer r id 0 false 0
    | .sc =>
      let mine := match r.score with
        | some ck => Tbl.get? s1.resv ck == some (hbmKey st off / 64)
        | none => false
      let s2 := match r.score with
        | some ck => { s1 with resv := Tbl.del s1.resv ck }
        | none => s1
      if mine then
        let (_, _, s3) := s2.codeWrite st off n (fun _ => v) hollow errs flips miss r.score
        s3.hbmAnswer r id 0 false 0
      else s2.hbmAnswer r id 0 false 1
    | .amo op =>
      let (old, h, s2) := s1.codeWrite st off n (fun o => amo op n o v) hollow errs flips miss r.score
      s2.hbmAnswer r id 0 h old

/-! ### Scrubbing, training, fill -/

/-- R270: the patrol scrub's next codeword. -/
def State.scrubRead (s : State) (st : Nat) (errs : SymErrs) (flips : Nat) (miss : Option Nat) : State :=
  if !s.rb R.HBM1_SCRUB_EN st || s.rb R.HBM_FAILED st || s.rb R.HBM_SELF_REFRESH st then s
  else
    let off := s.rf R.HBM1_SCRUB_PTR st / 64 * 64
    let (_, _, s1) := s.codeRead st off errs flips miss
    let start := Tbl.getD s.md.scrubAt st 0
    let late := decide (start + s.rf R.HBM1_SCRUB_PERIOD_H st * 3600000000000 < s.elapsed)
    let s2 := if late && !s1.rb R.HBM1_SCRUB_LATE st then
        (s1.wf R.HBM1_SCRUB_LATE st 1).setInt (hbmPage1 st) R.INT_HBM1_SCRUB_LATE
      else s1
    if off + 64 < 48 * 2 ^ 30 then s2.wf R.HBM1_SCRUB_PTR st (off + 64)
    else
      let s3 := ((s2.wf R.HBM1_SCRUB_PTR st 0).inc R.HBM1_PASSES st).setInt (hbmPage1 st) R.INT_HBM1_PASS_DONE
      ({ s3 with md := { s3.md with scrubAt := Tbl.put s3.md.scrubAt st s.elapsed } }).wf R.HBM1_SCRUB_LATE st 0

/-- R261, R274: training of a stack ends: 0 at 8.0 Gb/s, 1 at 6.4 Gb/s, 2 FAILED; it leaves self-refresh. -/
def State.hbmTrain (s0 : State) (st outcome : Nat) : State :=
  let p := hbmPage st
  let s := s0.wf R.HBM_SELF_REFRESH st 0
  if outcome = 0 then (s.wf R.HBM_TRAINED st 1).wf R.HBM_RATE st 0
  else if outcome = 1 then
    (((s.wf R.HBM_TRAINED st 1).wf R.HBM_RATE st 1).setInt p R.INT_HBM_TRAIN_FALLBACK).unitEv 7 p 0 R.INT_HBM_TRAIN_FALLBACK false
  else
    (((s.wf R.HBM_TRAINED st 0).wf R.HBM_FAILED st 1).setInt p R.INT_HBM_STACK_FAILED).unitEv 7 p 0 R.INT_HBM_STACK_FAILED
      false |>.dieFailure 3 st

/-- R275: the power-on fill of a stack: every codeword zero with tag 0x00. -/
def State.hbmFill (s : State) (st : Nat) : State :=
  if s.md.fillDue.contains st then
    let s1 := { s with
      hbm := Tbl.keep s.hbm (fun a _ => a / 2 ^ 36 ≠ st)
      hbmTags := Tbl.keep s.hbmTags (fun w _ => w * 64 / 2 ^ 36 ≠ st)
      md := { s.md with fillDue := s.md.fillDue.filter (· ≠ st) } }
    s1.wf R.HBM_INITIALISED st 1
  else s

/-! ### Responses -/

/-- R244, R248: a response at the network interface of physical core `pc` for logical core `ck`. -/
def State.responseReceive (s : State) (ck pc : Nat) (redirected : Bool) (reqGen : Nat) (words : List Nat) : State :=
  let r := routerOfPhysCore pc
  if !destLocal ck then s
  else if s.resolveAt pc ck ≠ 0 then
    if redirected || s.resolveAt pc ck = 2 then s.genDrop r 0 0 0 reqGen
    else ((s.inc R.ROUTER_REDIRECTS r).setInt (routerPage r) R.INT_ROUTER_REDIRECT).mesh 19 ck (reqGen % 256 :: words)
  else if reqGen % 256 ≠ s.coreGen ck then s.genDrop r 0 0 0 reqGen
  else (s.mesh 20 ck words).when (decide (kindOfLogical (ck % 64) = 1)) fun t => t.streamDone ck (words.getD 1 0)

/-! ### Commands -/

/-- R261, R274, R275: the controller of the stack that address `a` decodes to accepts requests: the stack is trained, out of
self-refresh and, after a power loss, filled; or it is FAILED, and its controller answers by R261. -/
def State.hbmAccepts (s : State) (a : Nat) : Bool :=
  match hbmDecode s.interleave a with
  | none => true
  | some (st, _) => s.rb R.HBM_FAILED st || (s.rb R.HBM_TRAINED st && !s.rb R.HBM_SELF_REFRESH st && !s.md.fillDue.contains st)

/-- HBM_READ, R267, R268: while the controller accepts no request, the request waits outside and nothing comes about. -/
def execHbmRead (r : Requester) (id a n : Nat) (lr : Bool) (errs : List (Nat × Nat)) (flips : Nat) (miss : Option Nat)
    (s : State) : Host.Outcome State Fault Refusal :=
  .next (s.when (s.hbmAccepts a) fun t => t.hbmReadIssue r id a n lr errs flips miss)

/-- HBM_WRITE, R265, R269. -/
def execHbmWrite (r : Requester) (id a n v : Nat) (hollow : Bool) (kind : Nat) (errs : List (Nat × Nat)) (flips : Nat)
    (miss : Option Nat) (s : State) : Host.Outcome State Fault Refusal :=
  .next (s.when (s.hbmAccepts a) fun t => t.hbmWriteCmd r id a n v hollow kind errs flips miss)

/-- RESPONSE_RECEIVE, R244. -/
def execResponseReceive (ck pc : Nat) (redirected : Bool) (reqGen : Nat) (words : List Nat) (s : State) :
    Host.Outcome State Fault Refusal := .next (s.responseReceive ck pc redirected reqGen words)

/-- SCRUB_READ, R270. -/
def execScrubRead (st : Nat) (errs : List (Nat × Nat)) (flips : Nat) (miss : Option Nat) (s : State) :
    Host.Outcome State Fault Refusal := .next (s.scrubRead (st % 12) errs flips miss)

/-- HBM_TRAIN, R261. -/
def execHbmTrain (st outcome : Nat) (s : State) : Host.Outcome State Fault Refusal := .next (s.hbmTrain (st % 12) outcome)

/-- HBM_FILL, R275. -/
def execHbmFill (st : Nat) (s : State) : Host.Outcome State Fault Refusal := .next (s.hbmFill (st % 12))

end Sys2Proof.Machine
end

