-- ==== Sys2Proof/Machine/Crypto.lean ====
section
/-! DEFINITION. The standards that chapter 13 names, built on primitives without a body (SHA-384, the AES-256 block cipher, the product of a
P-384 point): HMAC and HKDF-SHA-384 (R403, R416), counter mode (R398), key unwrap (R403), points on the curve (R404), and the module's keys.
What the standards say is no text of the spec: assumption log 42. -/

namespace Sys2Proof.Machine

/-- A number's bytes, most significant first. -/
def beBytes (n v : Nat) : List Nat := (leBytes n v).reverse

/-- The value of bytes, most significant first. -/
def ofBe (bs : List Nat) : Nat := ofBytes bs.reverse

/-- The 48 bytes of a SHA-384 digest. -/
def sha384 (bs : List Nat) : List Nat := beBytes 48 (Config.sha384 bs)

/-- HMAC with SHA-384, RFC 2104. -/
def hmac (key msg : List Nat) : List Nat :=
  let k := if 128 < key.length then sha384 key else key
  let k := k ++ List.replicate (128 - k.length) 0
  sha384 (k.map (· ^^^ 0x5C) ++ sha384 (k.map (· ^^^ 0x36) ++ msg))

/-- HKDF's expansion, RFC 5869: `n` further blocks after block `i - 1`, `last`. -/
def hkdfBlocks (prk info : List Nat) : Nat → Nat → List Nat → List Nat
  | 0, _, _ => []
  | n + 1, i, last =>
    let t := hmac prk (last ++ info ++ [i])
    t ++ hkdfBlocks prk info n (i + 1) t

/-- HKDF-SHA-384, RFC 5869: `n` bytes. -/
def hkdf (ikm salt info : List Nat) (n : Nat) : List Nat := (hkdfBlocks (hmac salt ikm) info ((n + 47) / 48) 1 []).take n

/-- R398: byte `i` of the key stream: counter block `i / 16` is NONCE followed by the 32-bit big-endian value `i / 16 + 1`. -/
def keyStream (key : Nat) (nonce : List Nat) (i : Nat) : Nat :=
  (beBytes 16 (Config.aesEncrypt key (ofBe (nonce ++ beBytes 4 (i / 16 + 1))))).getD (i % 16) 0

/-- R398: bytes of the body from byte `off` under AES-256 in counter mode. -/
def ctrMode (key : Nat) (nonce : List Nat) (off : Nat) (bs : List Nat) : List Nat :=
  (bs.zipIdx).map fun b => b.1 ^^^ keyStream key nonce (off + b.2)

/-- RFC 3394: one step of the unwrap, of register `t - 1` modulo 4. -/
def unwrapStep (kek : Nat) (x : Nat × List Nat) (t : Nat) : Nat × List Nat :=
  let i := (t - 1) % 4
  let b := Config.aesDecrypt kek ((x.1 ^^^ t) * 2 ^ 64 + x.2.getD i 0)
  (b / 2 ^ 64 % 2 ^ 64, x.2.set i (b % 2 ^ 64))

/-- R403 step 3: AES-256 key unwrap of 40 bytes with the default initial value; none where the integrity check fails. -/
def keyUnwrap (kek : Nat) (w : List Nat) : Option Nat :=
  let c := (chunks 8 5 w).map ofBe
  let x := ((List.range 24).map fun j => 24 - j).foldl (unwrapStep kek) (c.headD 0, c.drop 1)
  if x.1 = 0xA6A6A6A6A6A6A6A6 then some (x.2.foldl (fun a r => a * 2 ^ 64 + r) 0) else none

/-! ### P-384 -/

def p384P : Nat := 2 ^ 384 - 2 ^ 128 - 2 ^ 96 + 2 ^ 32 - 1
def p384B : Nat := 0xB3312FA7E23EE7E4988E056BE3F82D19181D9C6EFE8141120314088F5013875AC656398D8A2ED19D2A85C8EDD3EC2AEF
def p384N : Nat := 0xFFFFFFFFFFFFFFFFFFFFFFFFFFFFFFFFFFFFFFFFFFFFFFFFC7634D81F4372DDF581A0DB248B0A77AECEC196ACCC52973

/-- R404: a point lies on the curve; the point at infinity has no coordinates. -/
def onCurve (x y : Nat) : Bool :=
  decide (x < p384P) && decide (y < p384P) && decide ((y * y + 3 * x) % p384P = (x * x * x + p384B) % p384P)

/-! ### The module's keys -/

/-- The module serial as a salt, least significant byte first. -/
def serialSalt : List Nat := leBytes 8 Config.serial

/-- R416: a private key from the secret S by its label. -/
def privateKey (label : List Nat) : Nat := ofBe (hkdf (beBytes 48 Config.secret) serialSalt label 72) % (p384N - 1) + 1

/-- R416: the label K7-DEVID. -/
def devidLabel : List Nat := [0x4B, 0x37, 0x2D, 0x44, 0x45, 0x56, 0x49, 0x44]

/-- R416: the label K7-WRAP. -/
def wrapLabel : List Nat := [0x4B, 0x37, 0x2D, 0x57, 0x52, 0x41, 0x50]

/-- R416: the label K7-ALIAS with the runtime section's digest and its SECURITY_VERSION. -/
def aliasLabel (runtime security : Nat) : List Nat :=
  [0x4B, 0x37, 0x2D, 0x41, 0x4C, 0x49, 0x41, 0x53] ++ beBytes 48 runtime ++ leBytes 4 security

/-- R403: the info of a wrapped model key: K7-MKW, the KEY_ID and the digest of the publisher's key. -/
def wrapInfo (keyId : Nat) (publisher : List Nat) : List Nat :=
  [0x4B, 0x37, 0x2D, 0x4D, 0x4B, 0x57] ++ leBytes 8 keyId ++ sha384 publisher

/-- R403, R404: the model key that WRAPPED holds for this module; none where EPHEMERAL_PUB is no point of the curve or the unwrap fails. -/
def recoverKey (keyId : Nat) (ephemeral wrapped publisher : List Nat) : Option Nat :=
  let x := ofBe (ephemeral.take 48)
  let y := ofBe (ephemeral.drop 48)
  if onCurve x y then
    let z := beBytes 48 (Config.p384Product (privateKey wrapLabel) x y)
    keyUnwrap (ofBe (hkdf z serialSalt (wrapInfo keyId publisher) 32)) wrapped
  else none

/-! ### Certificates, R418 -/

/-- A chain in the format of DSP0274: its length, the digest of the root and the certificates, root first. Slot 0 ends in the alias
certificate, slot 1 in the wrap certificate. -/
def certChain (slot runtime security : Nat) : List Nat :=
  let body := sha384 (Config.certificate 0) ++ Config.certificate 0 ++ Config.certificate 1 ++ Config.certificate 2 ++
    (if slot = 0 then Config.aliasCertificate runtime security else Config.certificate 3)
  leBytes 2 (body.length + 4) ++ [0, 0] ++ body

end Sys2Proof.Machine
end

