-- ==== Sys2Proof/Machine/Husk.lean ====
section
/-! DEFINITION. Husks and Caravan, chapter 13: model keys (R402 to R404), registration and fetching (R405 to R410), chains (R411 to
R414), attestation (R419 to R421). -/

namespace Sys2Proof.Machine

def caravanPage : Page := { blk := 0x32, inst := 0 }

/-- R405. -/
def ksOk : Nat := 0
def ksBadParam : Nat := 1
def ksNoIdentity : Nat := 2
def ksUnwrapFailed : Nat := 3
def ksKeyInUse : Nat := 4
def ksNoKey : Nat := 5
def ksBadSignature : Nat := 6
def ksSourceUnreadable : Nat := 7
def ksDigestMismatch : Nat := 8
def ksNotInManifest : Nat := 9
def ksNotOnChain : Nat := 10
def ksVariantBusy : Nat := 11
def ksNoRoom : Nat := 12
def ksNotRegistered : Nat := 13

/-! ### Model keys -/

/-- The slot that holds a model key. -/
def State.keySlot (s : State) (id : Nat) : Option Nat :=
  (List.range 64).find? fun k => s.rb R.KEYS1_LOADED 0 k && s.rf R.KEYS1_KEY_ID 0 k = id

/-- R429: REFS of every slot and KEYS_LOADED. -/
def State.countKeys (s : State) : State :=
  let refs (k : Nat) : Nat := if s.rb R.KEYS1_LOADED 0 k then
    (Tbl.vals s.sec.mans).countP fun (m : Manifest) => m.keyId = s.rf R.KEYS1_KEY_ID 0 k else 0
  (s.each (List.range 64) fun t k => t.wf R.KEYS1_REFS 0 (refs k) k).wf R.KEYS1_KEYS_LOADED 0
    ((List.range 64).countP fun k => s.rb R.KEYS1_LOADED 0 k)

/-- Bytes of a command's body from word `w`: each word's least significant byte first, or last. -/
def cmdBytes (c : Cmd) (w n : Nat) (lowFirst : Bool := true) : List Nat :=
  (List.range n).map fun j => c.f (w + j / 8) (8 * (if lowFirst then j % 8 else 7 - j % 8)) 8

/-- R402, R403: the model key that a MODEL_KEY_IMPORT wraps for this module; none where EPHEMERAL_PUB is no point of the curve or the unwrap
fails. `lowFirst`: which byte of a body word comes first in the byte strings, to which R7 does not apply (log 42). -/
def modelKeyOf (c : Cmd) (lowFirst : Bool) : Option Nat :=
  recoverKey (c.w 1) (cmdBytes c 2 96 lowFirst) (cmdBytes c 14 40 lowFirst) (cmdBytes c 19 96 lowFirst)

/-- R404: the first check of MODEL_KEY_IMPORT that fails, or OK. -/
def State.keyCheck (s : State) (c : Cmd) (unwrapOk : Bool) : Nat :=
  let k := c.f 0 0 6
  let del := c.b 0 6
  let elsewhere : Bool := match s.keySlot (c.w 1) with
    | some j => decide (j ≠ k)
    | none => false
  let same := s.rb R.KEYS1_LOADED 0 k && s.rf R.KEYS1_KEY_ID 0 k = c.w 1
  let idle := s.rf R.KEYS1_REFS 0 k = 0
  if !s.rb R.KEYS_IDENTITY_READY 0 then ksNoIdentity
  else if c.w 0 / 128 ≠ 0 ∨ c.w 1 = 0 ∨ elsewhere ∨ (del ∧ (c.body.drop 2).any fun w => w != 0) then ksBadParam
  else if del then (if idle then ksOk else ksKeyInUse)
  else if s.rb R.KEYS1_LOADED 0 k ∧ !same ∧ !idle then ksKeyInUse
  else if !unwrapOk then ksUnwrapFailed
  else ksOk

/-- R403, R404: the effect of MODEL_KEY_IMPORT: on success the slot holds the key recovered, KEY_ID and the publisher's key. -/
def State.keyImport (s : State) (c : Cmd) (lowFirst : Bool) : State :=
  let k := c.f 0 0 6
  let r := s.keyCheck c (modelKeyOf c lowFirst).isSome
  let p : Page := keysPage 1
  if r = ksUnwrapFailed then ((s.inc R.KEYS1_UNWRAP_FAILS 0).setInt p R.INT_KEYS1_UNWRAP_FAILED).reply c [r]
  else if r ≠ ksOk then s.reply c [r]
  else if c.b 0 6 then
    let s1 := (s.wf R.KEYS1_KEY_ID 0 0 k).wf R.KEYS1_LOADED 0 0 k
    ({ s1 with sec := { s1.sec with pubs := Tbl.del s1.sec.pubs k, models := Tbl.del s1.sec.models k } }).countKeys.reply c [r]
  else
    let pub := ofBe (cmdBytes c 19 96 lowFirst)
    let s1 := (s.wf R.KEYS1_KEY_ID 0 (c.w 1) k).wf R.KEYS1_LOADED 0 1 k
    let s2 := { s1 with sec := { s1.sec with
      pubs := Tbl.put s1.sec.pubs k pub, models := Tbl.put s1.sec.models k ((modelKeyOf c lowFirst).getD 0) } }
    ((s2.countKeys.inc R.KEYS1_IMPORTS 0).setInt p R.INT_KEYS1_IMPORTED).reply c [r]

/-! ### Registrations and shards -/

def State.man (s : State) (v : Nat) : Option Manifest := Tbl.get? s.sec.mans v
def shardKey (v i : Nat) : Nat := v * 131072 + i
def State.shard (s : State) (v i : Nat) : ShardSt := Tbl.getD s.sec.shards (shardKey v i) {}
def State.setShard (s : State) (v i : Nat) (x : ShardSt) : State :=
  { s with sec := { s.sec with shards := Tbl.put s.sec.shards (shardKey v i) x } }
def ShardSt.have_ (x : ShardSt) : Bool := x.held || x.transit

/-- R400: a shard's chain, this module's place in it and the target's. -/
def State.places (s : State) (m : Manifest) (sh : Shard) : Option (List Nat × Nat × Nat) :=
  let ch := m.chains.getD sh.chain []
  match ch.findIdx? (· = s.here), ch.findIdx? (· = sh.target) with
  | some a, some b => some (ch, a, b)
  | _, _ => none

/-- R407: this module stands in the shard's chain at or before its TARGET. -/
def State.onChain (s : State) (m : Manifest) (sh : Shard) : Bool :=
  match s.places m sh with
  | some (_, a, b) => a ≤ b
  | none => false

/-- The next module of a shard's chain after this one, on the way to its TARGET. -/
def State.downstream (s : State) (m : Manifest) (sh : Shard) : Option Nat :=
  match s.places m sh with
  | some (ch, a, b) => if a < b then ch[a + 1]? else none
  | none => none

/-- The module of a shard's chain before this one. -/
def State.upstream (s : State) (m : Manifest) (sh : Shard) : Option Nat :=
  match s.places m sh with
  | some (ch, a, _) => if a = 0 then none else ch[a - 1]?
  | none => none

/-- The registration that a Caravan frame names, R411. -/
def State.variantOf (s : State) (id rev : Nat) : Option Nat :=
  (s.sec.mans.find? fun (e : Nat × Manifest) => e.2.modelId = id && e.2.modelRev = rev).map (·.1)

/-- R404, R405: a variant's bits of the CARAVAN page that its shards decide. -/
def State.countShards (s : State) (v : Nat) : State :=
  let mine := (s.sec.shards.filter fun (e : Nat × ShardSt) => e.1 / 131072 = v).map (·.2)
  ((s.wf R.CARAVAN_OWN_HELD 0 (mine.countP fun (x : ShardSt) => x.held) v).wf R.CARAVAN_TRANSIT_OUT 0
    (mine.countP fun (x : ShardSt) => x.fwd = 2) v).wf R.CARAVAN_NEEDED 0
    (bit (mine.any fun (x : ShardSt) => decide (3 ≤ x.retries) && !x.have_)) v

/-- R409: the variant is complete when every shard of its own is held; an EMPTY one becomes REGISTERED. -/
def State.judgeComplete (s : State) (v : Nat) : State :=
  if s.rb R.CARAVAN_COMPLETE 0 v ∨ (s.man v).isNone ∨ s.rf R.CARAVAN_OWN_HELD 0 v ≠ s.rf R.CARAVAN_OWN_EXPECTED 0 v then s
  else
    let s1 := s.wf R.CARAVAN_COMPLETE 0 1 v
    let s2 := if s1.vstate v = vEmpty then s1.setVState v vRegistered else s1
    s2.setInt caravanPage R.INT_CARAVAN_VARIANT_COMPLETE

/-- VARIANT_REGISTER, R406 checks 1 and 2, and the read of the manifest. -/
def State.register (s : State) (c : Cmd) : State :=
  let v := c.f 0 0 6
  let n := c.f 2 32 32
  if s.vstate v ≠ vEmpty ∨ (s.man v).isSome ∨ (Tbl.get? s.sec.opening v).isSome then s.reply c [ksVariantBusy]
  else if c.w 0 / 64 ≠ 0 ∨ n < 224 ∨ 2 ^ 24 < n then s.reply c [ksBadParam]
  else
    let s1 := { s with sec := { s.sec with opening := Tbl.put s.sec.opening v (c.qp, c.cmdId) } }
    (s1.setCmd c.qp c.cmdId fun o => { o with arg := n }).issueRead c.qp (c.w 1) (c.f 2 0 32) n

/-- A field of a manifest or a Husk: `n` bytes at offset `o`, least significant first. -/
def leField (b : List Nat) (o n : Nat) : Nat := ofBytes ((b.drop o).take n)

/-- R400: the chain table of a manifest, of so many chains, and the bytes after it; none where a chain's length or padding is not as it
should be. -/
def readChains : Nat → List Nat → Option (List (List Nat) × List Nat)
  | 0, b => some ([], b)
  | k + 1, b =>
    let n := leField b 0 2
    let size := (2 + 2 * n + 7) / 8 * 8
    if n = 0 ∨ 32768 < n ∨ b.length < size ∨ ((b.take size).drop (2 + 2 * n)).any (· != 0) then none
    else (readChains k (b.drop size)).map fun r => (((List.range n).map fun i => leField b (2 + 2 * i) 2) :: r.1, r.2)

/-- R400: an entry of the shard table, `i` its place; none where SHARD_INDEX or the zero byte is not as it should be. -/
def readShard (i : Nat) (e : List Nat) : Option Shard :=
  if leField e 0 4 ≠ i ∨ leField e 7 1 ≠ 0 then none
  else some { target := leField e 4 2, chain := leField e 6 1, bytes := leField e 8 8, digest := ofBe ((e.drop 16).take 48) }

/-- R400: the fields of a manifest read from its bytes, all but its digest; none where they are not laid out so. -/
def readFields (b : List Nat) : Option Manifest :=
  let zero := (List.range 128).all fun i => (decide (i < 32) || (decide (40 ≤ i) && decide (i < 48))) || b.getD i 0 = 0
  if leField b 0 4 ≠ 0x4E4D5553 ∨ leField b 4 2 ≠ 1 ∨ !zero then none
  else match readChains (leField b 6 2) ((b.drop 128).take (b.length - 224)) with
  | none => none
  | some (chains, rest) =>
    let n := leField b 20 4
    let es := ((chunks 64 n rest).zipIdx).filterMap fun e => readShard e.2 e.1
    if rest.length ≠ 64 * n ∨ es.length ≠ n then none
    else some { modelId := leField b 8 8, modelRev := leField b 16 4, keyId := leField b 24 8, bytes := leField b 40 8, chains := chains,
                shards := es, digest := 0 }

/-- R400, R421: a manifest read from its bytes, with their SHA-384. -/
def readManifest (b : List Nat) : Option Manifest := (readFields b).map fun m => { m with digest := Config.sha384 b }

/-- R401: the signature of a manifest, its last 96 bytes, verifies under a publisher's key. -/
def signatureOk (pub : Nat) (b : List Nat) : Bool :=
  let n := b.length - 96
  Config.ecdsaVerify (pub / 2 ^ 384) (pub % 2 ^ 384) (Config.sha384 (b.take n)) (ofBe ((b.drop n).take 48)) (ofBe (b.drop (n + 48)))

/-- R406 check 6: the manifest is consistent, within the plan's sizes, of a model no other variant carries. -/
def State.manifestOk (s : State) (v n : Nat) (m : Manifest) : Bool :=
  let inPlan (p : Nat) : Bool := decide (p < 32768) && (List.range 3).all fun d => decide (coord p d < s.dimSize d)
  decide (m.bytes = n) && decide (1 ≤ m.chains.length) && decide (m.chains.length ≤ 64)
    && m.chains.all (fun ch => decide (1 ≤ ch.length) && decide (ch.length ≤ 32768) && ch.all inPlan)
    && decide (1 ≤ m.shards.length) && decide (m.shards.length ≤ 131072)
    && m.shards.all (fun sh => (m.chains.getD sh.chain []).contains sh.target && decide (sh.chain < m.chains.length)
      && decide (272 ≤ sh.bytes) && decide (sh.bytes ≤ 256 + 2 ^ 29) && decide (sh.bytes % 16 = 0))
    && !(s.sec.mans.any fun (e : Nat × Manifest) => e.1 ≠ v && e.2.modelId = m.modelId && e.2.modelRev = m.modelRev)

/-- R276: `n` bytes at a multiple of 4,096 that lie wholly in the interleaved range, outside the sealed range. -/
def State.huskRange (s : State) (a n : Nat) : Bool :=
  decide (a % 4096 = 0) && decide (a + n ≤ 12 * s.interleave * gib) &&
    decide (a + n ≤ s.rf R.HBM_SEALED_BASE 0 ∨ s.rf R.HBM_SEALED_LIMIT 0 < s.rf R.HBM_SEALED_BASE 0 ∨ s.rf R.HBM_SEALED_LIMIT 0 < a)

/-- R401, R406 checks 3 to 8: the KSTATUS of a registration of variant `v` whose manifest of `n` bytes has been read. -/
def State.manifestCheck (s : State) (v n : Nat) (ok : Bool) (bytes : List Nat) (room : Bool) : Nat :=
  if !ok then ksSourceUnreadable
  else match s.keySlot (leField bytes 24 8) with
  | none => ksNoKey
  | some k =>
    if !signatureOk (Tbl.getD s.sec.pubs k 0) bytes then ksBadSignature
    else match readManifest bytes with
    | none => ksBadParam
    | some m =>
      if bytes.length ≠ n ∨ !s.manifestOk v n m then ksBadParam
      else if !(m.chains.any fun ch => ch.contains s.here) then ksNotInManifest
      else if !room then ksNoRoom
      else ksOk

/-- MANIFEST_READ_DONE, R400, R401, R406 checks 3 to 8: `ok` the read succeeded and gave `bytes`; `room`: Husk space remains. A manifest
that passes is stored at `a`, within the range R276 gives. -/
def State.manifestDone (s : State) (v : Nat) (ok : Bool) (bytes : List Nat) (a : Nat) (room : Bool) : State :=
  match Tbl.get? s.sec.opening v with
  | none => s
  | some (qp, id) =>
    let s1 := ({ s with sec := { s.sec with opening := Tbl.del s.sec.opening v } }).readDone qp
    match s1.openCmd qp id with
    | none => s1
    | some o =>
      let r := s1.manifestCheck v o.arg ok bytes room
      match readManifest bytes with
      | none => s1.finish qp id [r]
      | some m =>
        if r ≠ ksOk then s1.finish qp id [r]
        else if !s1.huskRange a bytes.length then s
        else
          let s2 := { s1.hbmPut a (bytes.map fun b => (b, false)) with sec := { s1.sec with
            mans := Tbl.put s1.sec.mans v m, lastIn := Tbl.put s1.sec.lastIn v s1.elapsed } }
          let s3 := s2.wf R.CARAVAN_OWN_EXPECTED 0 (m.shards.countP fun sh => sh.target = s2.here) v
          ((s3.countShards v).countKeys.judgeComplete v).finish qp id [ksOk]

/-- VARIANT_UNREGISTER, R410. -/
def State.unregister (s : State) (c : Cmd) : State :=
  let v := c.f 0 0 6
  let st := s.vstate v
  if st = vStaging ∨ st = vActive ∨ st = vDraining then s.reply c [ksVariantBusy]
  else if (s.man v).isNone then s.reply c [ksNotRegistered]
  else
    let s1 := { s with sec := { s.sec with
      mans := Tbl.del s.sec.mans v
      shards := Tbl.keep s.sec.shards fun k _ => k / 131072 ≠ v
      lastIn := Tbl.del s.sec.lastIn v } }
    let s2 := [R.CARAVAN_OWN_EXPECTED, R.CARAVAN_COMPLETE].foldl (fun t f => t.wf f 0 0 v) s1
    let s3 := if st = vEmpty then s2 else s2.setVState v vEmpty
    ((s3.countShards v).countKeys).reply c [ksOk]

/-! ### Forwarding and retries -/

/-- A BULK frame of this module's own leaves by the first direction of its route, R362. -/
def State.sendBulk (s : State) (f : Frame) : State :=
  s.sendFrame (((s.outDir f none).map fun (x : Nat × Frame) => x.1).getD 0) { f with cls := 3, src := s.here }

/-- R411, R412: a kept shard sent to the next module of its chain, from its first byte. -/
def State.sendShard (s : State) (v i : Nat) (m : Manifest) (sh : Shard) (next : Nat) : State :=
  ((s.setShard v i { s.shard v i with fwd := 2 }).countShards v).sendBulk
    { cls := 3, typ := 0, dest := next, len := 24 + min 1984 sh.bytes, words := [m.modelId, m.modelRev, i, 0, sh.bytes] }

/-- A BULK_ACK to a module, R411. -/
def State.bulkAck (s : State) (dest id rev i code : Nat) : State :=
  s.sendBulk { cls := 3, typ := 2, dest := dest, len := 17, words := [id, rev, i, code] }

/-- Entries in the order in which their shards were verified. -/
def byOrder : List (Nat × ShardSt) → List (Nat × ShardSt)
  | [] => []
  | x :: t =>
    let rec ins : List (Nat × ShardSt) → List (Nat × ShardSt)
      | [] => [x]
      | y :: r => if x.2.order < y.2.order then x :: y :: r else y :: ins r
    ins (byOrder t)

/-- The downstream module of a shard by its key. -/
def State.nextOf (s : State) (key : Nat) : Option (Manifest × Shard × Nat) :=
  match s.man (key / 131072) with
  | none => none
  | some m => match m.shards[key % 131072]? with
    | none => none
    | some sh => (s.downstream m sh).map fun n => (m, sh, n)

/-- R412: shards that wait are forwarded in the order of verification, at most 16 unacknowledged to one module. -/
def State.forwardShards (s : State) : State :=
  (byOrder (s.sec.shards.filter fun (e : Nat × ShardSt) => e.2.fwd = 1)).foldl (fun t e =>
    match t.nextOf e.1 with
    | none => t
    | some (m, sh, n) =>
      let out := t.sec.shards.countP fun (x : Nat × ShardSt) => x.2.fwd = 2 && (t.nextOf x.1).map (fun y => y.2.2) = some n
      if out < 16 then t.sendShard (e.1 / 131072) (e.1 % 131072) m sh n else t) s

/-- R276, R407, R409, R412: a verified Husk is stored in external memory from address `a`: held where its TARGET is this module, kept in
transit otherwise. -/
def State.shardAccept (s : State) (v i : Nat) (m : Manifest) (sh : Shard) (a : Nat) (husk : List Nat) : State :=
  let own := decide (sh.target = s.here)
  let n := s.sec.order
  let s1 := { s.hbmPut a (husk.map fun b => (b, false)) with sec := { s.sec with order := n + 1 } }
  let s2 := (s1.setShard v i { held := own, transit := !own, fwd := if (s.downstream m sh).isSome then 1 else 0, order := n, addr := a }).inc
    R.CARAVAN_SHARDS_IN 0
  ((s2.countShards v).judgeComplete v).forwardShards

/-- R413: SHARD_NEEDED: the host is asked for a shard. -/
def State.hostAsk (s : State) (v i : Nat) (m : Manifest) : State :=
  let s2 := (((s.inc R.CARAVAN_HOST_REQUESTS 0).wf R.CARAVAN_LAST_NEED_STAMP 0 s.now).wf R.CARAVAN_NEED_VARIANT 0 v).wf
    R.CARAVAN_NEED_SHARD 0 i
  ((s2.countShards v).setInt caravanPage R.INT_CARAVAN_SHARD_NEEDED).logEv 0x0B01 caravanPage.index 0
    [m.modelId, m.modelRev, i, 0]

/-- R413: a failed retry is counted; after the third the host is asked. -/
def State.failedRetry (s : State) (v i : Nat) (m : Manifest) : State :=
  let x := s.shard v i
  let n := x.retries + 1
  let s1 := ((s.setShard v i { x with retries := n, asked := none, resent := false, got := [] }).inc R.CARAVAN_RETRIES 0).setInt
    caravanPage R.INT_CARAVAN_SHARD_RETRY
  if n ≠ 3 then s1 else s1.hostAsk v i m

/-- R413: a RESEND asked of the upstream module, unless three retries have failed or the host feeds this one. -/
def State.askResend (s : State) (v i : Nat) (m : Manifest) (sh : Shard) : State :=
  let x := s.shard v i
  match s.upstream m sh with
  | none => s
  | some u => if 3 ≤ x.retries then s
    else (s.setShard v i { x with asked := some s.elapsed, resent := true, got := [] }).bulkAck u m.modelId m.modelRev i 1

/-- R409: a held shard that reads hollow or fails its digest is no longer held; the host is asked for it, and no retry is counted. -/
def State.shardLost (s : State) (v i : Nat) : State :=
  match s.man v with
  | none => s
  | some m => ((s.setShard v i { retries := 3 }).hostAsk v i m).wf R.CARAVAN_COMPLETE 0 0 v

def State.shardTimeout (s : State) : Nat := 1000000 * s.rf R.CARAVAN_SHARD_TIMEOUT_MS 0

/-- HUSK_FETCH, R407. -/
def State.huskFetch (s : State) (c : Cmd) : State :=
  let v := c.f 0 0 6
  let i := c.f 0 6 17
  match s.man v with
  | none => s.reply c [ksNotRegistered]
  | some m => match m.shards[i]? with
    | none => s.reply c [ksBadParam]
    | some sh =>
      if !s.onChain m sh then s.reply c [ksNotOnChain]
      else if (s.shard v i).have_ then s.reply c [ksOk]
      else ({ s with sec := { s.sec with fetches := s.sec.fetches ++ [(c.qp, c.cmdId, v, i)] } }).issueRead c.qp (c.w 1)
        (c.f 2 0 32) sh.bytes

/-- R407, R408: the read of a HUSK_FETCH ends: 0 verified, 1 not readable, 2 the digest does not match. -/
def State.fetchDone (s : State) (v i outcome a : Nat) (husk : List Nat) : State :=
  match s.sec.fetches.find? fun (e : Nat × Nat × Nat × Nat) => e.2.2.1 = v && e.2.2.2 = i with
  | none => s
  | some e =>
    let s1 := ({ s with sec := { s.sec with fetches := s.sec.fetches.erase e } }).readDone e.1
    match s1.openCmd e.1 e.2.1 with
    | none => s1
    | some _ => match s1.man v with
      | none => s1.finish e.1 e.2.1 [ksNotRegistered]
      | some m =>
        if outcome = 1 then s1.finish e.1 e.2.1 [ksSourceUnreadable]
        else if outcome ≠ 0 then
          ((s1.inc R.CARAVAN_DIGEST_FAILS 0).blockErr caravanPage 0x10 0 i 0).finish e.1 e.2.1 [ksDigestMismatch]
        else match m.shards[i]? with
          | none => s1.finish e.1 e.2.1 [ksBadParam]
          | some sh => (if (s1.shard v i).have_ then s1 else s1.shardAccept v i m sh a husk).finish e.1 e.2.1 [ksOk]

/-- R411 to R413: all bytes of a shard have come by SHARD frames; `ok` its HUSK_DIGEST matches. -/
def State.copyDone (s : State) (v i : Nat) (ok : Bool) (a : Nat) (husk : List Nat) : State :=
  match s.man v with
  | none => s
  | some m => match m.shards[i]? with
    | none => s
    | some sh =>
      let x := s.shard v i
      if x.have_ ∨ x.got.isEmpty ∨ (x.got.map (·.2)).sum < sh.bytes then s
      else if ok then
        let s1 := s.shardAccept v i m sh a husk
        match s.upstream m sh with
        | some u => s1.bulkAck u m.modelId m.modelRev i 0
        | none => s1
      else
        let s1 := (s.inc R.CARAVAN_DIGEST_FAILS 0).blockErr caravanPage 0x10 0 i 0
        let s2 := if x.resent then s1.failedRetry v i m else s1
        s2.askResend v i m sh

/-- R407, R412: what the digest of a copy says: 0 it has the shard's length and HUSK_DIGEST; 1 it could not be read; 2 it differs. -/
def State.copyOutcome (s : State) (v i : Nat) (ok : Bool) (husk : List Nat) : Nat :=
  if !ok then 1
  else match (s.man v).bind fun m => m.shards[i]? with
  | some sh => if husk.length = sh.bytes ∧ Config.sha384 husk = sh.digest then 0 else 2
  | none => 2

/-- HUSK_VERIFIED: a copy fetched from the host or come through the chain has been digested. `ok`: it could be read; `husk`: its bytes; `a`:
where Oasis stores them when it verifies, within the range R276 gives Husks. -/
def State.huskVerified (s : State) (v i : Nat) (fromHost ok : Bool) (a : Nat) (husk : List Nat) : State :=
  let outcome := s.copyOutcome v i ok husk
  if outcome = 0 ∧ !s.huskRange a husk.length then s
  else if fromHost then s.fetchDone v i outcome a husk else s.copyDone v i (decide (outcome = 0)) a husk

/-- SHARD_FRAME, R411: model, revision, shard, offset and bytes. -/
def State.shardFrame (s : State) (f : Frame) : State :=
  let id := f.words.getD 0 0
  let rev := f.words.getD 1 0
  let i := f.words.getD 2 0
  match s.variantOf id rev with
  | none => s.bulkAck f.src id rev i 4
  | some v =>
    let s1 := { s with sec := { s.sec with lastIn := Tbl.put s.sec.lastIn v s.elapsed } }
    match (s1.man v).bind fun m => m.shards[i]?.map fun sh => (m, sh) with
    | none => s1
    | some (m, sh) =>
      let x := s1.shard v i
      if !s1.onChain m sh then s1
      else if x.have_ ∨ x.fwd = 3 then s1.bulkAck f.src id rev i 0
      else
        let off := f.words.getD 3 0
        s1.setShard v i { x with asked := none, got := if x.got.any fun g => g.1 = off then x.got else x.got ++ [(off, f.words.getD 4 0)] }

/-- R413, R426: a RESEND of the firmware image is asked of the module that sends it, `failed` after a failed retry. -/
def State.fwAsk (s : State) (failed : Bool) : State :=
  match s.oa.stage, s.oa.fwFrom with
  | some _, some (m, ver) =>
    let n := s.oa.fwFails + bit failed
    if 3 ≤ n then { s with oa := { s.oa with fwFails := n } }
    else ({ s with oa := { s.oa with fwFails := n, fwChunks := [], fwResent := true, fwLast := s.elapsed } }).bulkAck m 0 ver 0 1
  | _, _ => s

/-- R413, R426: no FW_CHUNK of the awaited image has come for SHARD_TIMEOUT_MS. -/
def State.fwQuiet (s : State) : State :=
  if s.oa.fwLast + s.shardTimeout ≤ s.elapsed then s.fwAsk s.oa.fwResent else s

/-- R412, R413: a BULK_ACK about a shard; `hollow`: this module's own copy reads hollow. -/
def State.bulkAckReceive (s : State) (f : Frame) (hollow : Bool) : State :=
  let id := f.words.getD 0 0
  let rev := f.words.getD 1 0
  let i := f.words.getD 2 0
  let code := f.words.getD 3 0
  match s.variantOf id rev with
  | none =>
    if id = 0 then
      if code = 0 ∧ s.oa.fwSent.isSome then
        (({ s with oa := { s.oa with fwSent := none } }).wf R.OASIS3_FORWARD_DONE 0 1).wf R.OASIS3_FORWARDING 0 0
      else if (code = 1 ∨ code = 4) ∧ s.oa.fwSent.isSome then
        { s with oa := { s.oa with fwSent := s.oa.fwSent.map fun (w : Nat × Nat × Nat) =>
            (w.1, w.2.1, if code = 1 then s.elapsed else s.elapsed + s.shardTimeout) } }
      else if code = 2 then s.fwAsk true
      else s
    else if code = 1 then s.bulkAck f.src id rev i 2 else s
  | some v => match (s.man v).bind fun m => m.shards[i]?.map fun sh => (m, sh) with
    | none => if code = 1 then s.bulkAck f.src id rev i 2 else s
    | some (m, sh) =>
      let x := s.shard v i
      if code = 0 then
        if x.fwd ≠ 2 then s
        else
          let s1 := s.setShard v i { x with transit := false, fwd := 3, again := none }
          ((s1.countShards v).inc R.CARAVAN_SHARDS_FORWARDED 0).forwardShards
      else if code = 1 then
        if x.have_ ∧ !hollow ∧ s.downstream m sh = some f.src then (if x.fwd = 1 then s.forwardShards else s.sendShard v i m sh f.src)
        else if x.have_ ∨ x.fwd = 3 ∨ !s.onChain m sh then
          (if x.held ∧ hollow then s.shardLost v i else s).bulkAck f.src id rev i 2
        else s.bulkAck f.src id rev i 3
      else if code = 2 then (if x.asked.isSome then s.failedRetry v i m else s)
      else if code = 3 then
        ({ s with sec := { s.sec with lastIn := Tbl.put s.sec.lastIn v s.elapsed } }).setShard v i { x with asked := none }
      else if code = 4 ∧ x.fwd = 2 then s.setShard v i { x with again := some (s.elapsed + s.shardTimeout) }
      else s

/-- SHARD_TIMEOUT, R413, R414, R426: for each shard still owed, a request without an answer has failed, and another is made when nothing
has arrived of the variant for SHARD_TIMEOUT_MS; kept shards that wait are forwarded. Variant 64 stands for the firmware image. -/
def State.shardExpiry (s : State) (v : Nat) : State :=
  if v = 64 then s.fwQuiet
  else match s.man v with
  | none => s
  | some m =>
    let quiet := decide (Tbl.getD s.sec.lastIn v 0 + s.shardTimeout ≤ s.elapsed)
    State.forwardShards <| s.each (List.range m.shards.length) fun t i =>
      match m.shards[i]? with
      | none => t
      | some sh =>
        let x := t.shard v i
        if x.have_ ∨ x.fwd = 3 ∨ !t.onChain m sh ∨ 3 ≤ x.retries then t
        else match x.asked with
          | some a => if a + t.shardTimeout ≤ t.elapsed then (t.failedRetry v i m).askResend v i m sh else t
          | none => if quiet then t.askResend v i m sh else t

/-- NOT_REGISTERED_RESEND, R412, R426: a shard, or the firmware image (variant 64 and up), sent again when SHARD_TIMEOUT_MS has
passed since the answer NOT_REGISTERED. -/
def State.notRegistered (s : State) (v i : Nat) : State :=
  if 64 ≤ v then
    match s.oa.fwSent with
    | some (n, ver, due) =>
      if due ≤ s.elapsed then
        ({ s with oa := { s.oa with fwSent := some (n, ver, s.elapsed + s.shardTimeout) } }).sendBulk
          { cls := 3, typ := 1, dest := n, len := 2008, words := [0, ver, 0, 0] }
      else s
    | none => s
  else
    let x := s.shard v i
    match x.again, s.nextOf (shardKey v i) with
    | some t, some (m, sh, n) =>
      if t ≤ s.elapsed ∧ x.fwd = 2 then
        (s.setShard v i { x with again := some (s.elapsed + s.shardTimeout) }).sendShard v i m sh n
      else s
    | _, _ => s

/-! ### Attestation -/

/-- Bytes packed eight to a word, R7. -/
def packBytes (bs : List Nat) : List Nat :=
  (chunks 8 bs.length bs).map fun w => w.foldr (fun b a => a * 256 + b % 256) 0

/-- R419: the body's length fits REQ_BYTES. -/
def attestLenOk (c : Cmd) : Bool :=
  let n := c.f 0 0 16
  decide (4 ≤ n) && decide (n ≤ 984) && decide (c.bodyWords = 1 + (n + 7) / 8)

/-- SPDM codes of DSP0274: request to response. -/
def spdmResponse (req : Nat) : Nat :=
  if req = 0x81 then 0x01 else if req = 0x82 then 0x02 else if req = 0x83 then 0x03 else if req = 0x84 then 0x04
  else if req = 0xE0 then 0x60 else if req = 0xE1 then 0x61 else if req = 0xE3 then 0x63 else 0x7F

/-- R419: the response message `bs` as the completion body. -/
def State.spdmReply (s : State) (c : Cmd) (bs : List Nat) : State :=
  s.reply c ((bs.length % 65536) :: packBytes bs)

/-- An SPDM ERROR response, R428. -/
def State.spdmError (s : State) (c : Cmd) (code data : Nat) : State :=
  (s.setInt (keysPage 0) R.INT_KEYS_SPDM_ERROR).spdmReply c [0x12, 0x7F, code, data]

/-- The request code of an ATTEST message. -/
def spdmCode (c : Cmd) : Nat := c.f 1 8 8

/-- R418: the bytes of the chain in a slot. -/
def State.chain (s : State) (slot : Nat) : List Nat :=
  let x := s.sec.aliasOf.getD (Config.factorySection 1, s.rf (slotSecurityF (s.rf R.KEYS_BOOT_SLOT 0)) 0)
  certChain slot x.1 x.2

/-- R421: the digest of a section of the booted image. -/
def State.sectionDigest (s : State) (type : Nat) : Nat :=
  Tbl.getD s.oa.sections (s.rf R.KEYS_BOOT_SLOT 0 * 8 + type) (Config.factorySection type)

/-- R421: the values that the measurement of an index from 6 to 8 covers. -/
def State.measuredValues (s : State) (i : Nat) : List Nat :=
  if i = 6 then
    let t := s.rf R.KEYS_BOOT_SLOT 0
    [0x41 + t, s.rf R.KEYS_IMAGE_VERSION 0, s.rf (slotSecurityF t) 0, s.rf R.KEYS_SECURITY_FLOOR 0]
  else if i = 7 then
    ((List.range 64).filter fun k => s.rb R.KEYS1_LOADED 0 k).flatMap fun k =>
      [k, s.rf R.KEYS1_KEY_ID 0 k, Config.sha384 (beBytes 96 (Tbl.getD s.sec.pubs k 0))]
  else
    ((List.range 64).filter fun v => s.vstate v ≠ vEmpty).flatMap fun v =>
      [v, s.vstate v, ((s.man v).map fun m => m.digest).getD 0]

/-- R421: the digest of a measurement index. -/
def State.measurement (s : State) (i : Nat) : List Nat :=
  if i ≤ 2 then beBytes 48 (Config.fixedDigest i)
  else if i ≤ 5 then beBytes 48 (s.sectionDigest (i - 2))
  else sha384 (Config.measuredBytes i (s.measuredValues i))

/-- R421: a DMTF measurement block: index, specification, size, type, digest. -/
def State.measBlock (s : State) (i : Nat) : List Nat :=
  let type := if i = 1 then 0 else if i = 2 then 2 else if i ≤ 5 then 1 else 3
  [i, 1, 51, 0, type, 48, 0] ++ s.measurement i

/-- R420: CAPABILITIES with CERT_CAP, CHAL_CAP and MEAS_CAP with signature; both sizes are those of R419 (layout: PRESUMED from DSP0274,
log 42). `ct`: CTExponent, which the spec does not state. -/
def capabilities (ct : Nat) : List Nat := [0, 0, 0, ct % 256, 0, 0] ++ leBytes 4 0x16 ++ leBytes 4 984 ++ leBytes 4 984

/-- R420: ALGORITHMS: DMTF measurements, SHA-384, ECDSA P-384 (layout and codes: PRESUMED from DSP0274, log 42). -/
def algorithms : List Nat :=
  [0, 0] ++ leBytes 2 36 ++ [1, 0] ++ leBytes 4 4 ++ leBytes 4 0x80 ++ leBytes 4 2 ++ List.replicate 16 0

/-- R418, R420, R421: parameters and payload of the response to a request, or none for a request that names a slot, a part of a chain or an
index that there is not. `rsp`: what rests on a signature, on nonces or on values the spec does not state. -/
def State.spdmAnswer (s : State) (msg rsp : List Nat) : Option (List Nat) :=
  let req := msg.getD 1 0
  let p1 := msg.getD 2 0
  let p2 := msg.getD 3 0
  if req = 0x81 then some ([0, 3] ++ sha384 (s.chain 0) ++ sha384 (s.chain 1))
  else if req = 0xE1 then some (capabilities (rsp.headD 0))
  else if req = 0xE3 then some algorithms
  else if req = 0x82 then
    let c := s.chain p1
    let off := ofBytes ((msg.drop 4).take 2)
    let n := min (min (ofBytes ((msg.drop 6).take 2)) 900) (c.length - off)
    if 2 ≤ p1 ∨ c.length ≤ off then none
    else some ([p1, 0] ++ leBytes 2 n ++ leBytes 2 (c.length - off - n) ++ (c.drop off).take n)
  else if req = 0x83 then (if p1 = 0 then some ([0, 1] ++ sha384 (s.chain 0) ++ rsp) else none)
  else if req = 0xE0 then
    let rec_ := if p2 = 0 then [] else if p2 = 0xFF then (List.range 8).flatMap fun i => s.measBlock (i + 1) else s.measBlock p2
    if 8 < p2 ∧ p2 ≠ 0xFF then none
    else some ([if p2 = 0 then 8 else 0, 0, if p2 = 0 then 0 else if p2 = 0xFF then 8 else 1] ++ leBytes 3 rec_.length ++ rec_ ++ rsp)
  else some rsp

/-- R419, R420: one SPDM request. -/
def State.attest (s : State) (i : Instr) (c : Cmd) (rsp : List Nat) : State :=
  let req := spdmCode c
  s.vorane i 0x34 c .l (attestLenOk c) fun t =>
    let msg := cmdBytes c 1 (c.f 0 0 16)
    let x := Tbl.getD t.sec.spdm c.qp {}
    let put (u : State) (y : SpdmSt) : State := { u with sec := { u.sec with spdm := Tbl.put u.sec.spdm c.qp y } }
    if !t.rb R.KEYS_IDENTITY_READY 0 then t.reply c [ksNoIdentity]
    else if req = 0x84 then
      if msg.getD 0 0 ≠ 0x10 then t.spdmError c 0x41 0
      else
        let ver := [0x10, 0x04, 0, 0, 0, 1, 0x00, 0x12]
        (put t { stage := 1, transcript := msg ++ ver }).spdmReply c ver
    else if spdmResponse req = 0x7F then t.spdmError c 0x07 req
    else if msg.getD 0 0 ≠ 0x12 then t.spdmError c 0x41 0
    else
      let need := if req = 0xE1 then 1 else if req = 0xE3 then 2 else 3
      if (need = 3 ∧ x.stage ≠ 3) ∨ (need ≠ 3 ∧ x.stage ≠ need) then t.spdmError c 0x04 0
      else match t.spdmAnswer msg rsp with
      | none => t.spdmError c 0x01 0
      | some body =>
        let out := ([0x12, spdmResponse req] ++ body).take 984
        let t1 := put t { stage := if need = 3 then 3 else need + 1, transcript := x.transcript ++ msg ++ out }
        let t2 := if req = 0x83 then t1.inc R.KEYS_CHALLENGES 0 else if req = 0xE0 then t1.inc R.KEYS_MEAS_REQUESTS 0 else t1
        t2.spdmReply c out

/-! ### Commands -/

/-- MODEL_KEY_IMPORT, R404. -/
def execModelKeyImport (c : Cmd) (lowFirst : Bool) (s : State) : Host.Outcome State Fault Refusal :=
  .next (s.vorane (.modelKeyImport c lowFirst) 0x33 c .f (c.bodyWords = 31) fun t => t.keyImport c lowFirst)

/-- MODEL_KEY_IMPORT with DELETE, R404. -/
def execModelKeyDelete (c : Cmd) (s : State) : Host.Outcome State Fault Refusal :=
  .next (s.vorane (.modelKeyDelete c) 0x33 c .f (c.bodyWords = 31) fun t => t.keyImport c true)

/-- VARIANT_REGISTER, R406. -/
def execVariantRegister (c : Cmd) (s : State) : Host.Outcome State Fault Refusal :=
  .next (s.vorane (.variantRegister c) 0x31 c .l (c.bodyWords = 3) fun t => t.register c)

/-- MANIFEST_READ_DONE, R406. -/
def execManifestReadDone (v : Nat) (ok : Bool) (bytes : List Nat) (addr : Nat) (room : Bool) (s : State) :
    Host.Outcome State Fault Refusal := .next (s.manifestDone v ok bytes addr room)

/-- HUSK_FETCH, R407. -/
def execHuskFetch (c : Cmd) (s : State) : Host.Outcome State Fault Refusal :=
  .next (s.vorane (.huskFetch c) 0x30 c .l (c.bodyWords = 3) fun t => t.huskFetch c)

/-- HUSK_VERIFIED, R407, R412. -/
def execHuskVerified (v i : Nat) (fromHost : Bool) (copy : HuskCopy) (s : State) : Host.Outcome State Fault Refusal :=
  .next (s.huskVerified v i fromHost copy.ok copy.addr copy.bytes)

/-- VARIANT_UNREGISTER, R410. -/
def execVariantUnregister (c : Cmd) (s : State) : Host.Outcome State Fault Refusal :=
  .next (s.vorane (.variantUnregister c) 0x32 c .f (c.bodyWords = 1) fun t => t.unregister c)

/-- SHARD_FRAME, R411. -/
def execShardFrame (f : Frame) (s : State) : Host.Outcome State Fault Refusal := .next (s.shardFrame f)

/-- BULK_ACK, R412, R413. -/
def execBulkAck (f : Frame) (hollow : Bool) (s : State) : Host.Outcome State Fault Refusal :=
  .next (s.bulkAckReceive f hollow)

/-- SHARD_TIMEOUT, R413. -/
def execShardTimeout (v : Nat) (s : State) : Host.Outcome State Fault Refusal := .next (s.shardExpiry v)

/-- NOT_REGISTERED_RESEND, R412. -/
def execNotRegisteredResend (v i : Nat) (s : State) : Host.Outcome State Fault Refusal := .next (s.notRegistered v i)

/-- SPDM_GET_VERSION, R420. -/
def execSpdmGetVersion (c : Cmd) (s : State) : Host.Outcome State Fault Refusal := .next (s.attest (.spdmGetVersion c) c [])

/-- SPDM_GET_CAPABILITIES, R420. -/
def execSpdmGetCapabilities (c : Cmd) (rsp : List Nat) (s : State) : Host.Outcome State Fault Refusal :=
  .next (s.attest (.spdmGetCapabilities c rsp) c rsp)

/-- SPDM_NEGOTIATE_ALGORITHMS, R420. -/
def execSpdmNegotiateAlgorithms (c : Cmd) (rsp : List Nat) (s : State) : Host.Outcome State Fault Refusal :=
  .next (s.attest (.spdmNegotiateAlgorithms c rsp) c rsp)

/-- SPDM_GET_DIGESTS, R418, R420. -/
def execSpdmGetDigests (c : Cmd) (rsp : List Nat) (s : State) : Host.Outcome State Fault Refusal :=
  .next (s.attest (.spdmGetDigests c rsp) c rsp)

/-- SPDM_GET_CERTIFICATE, R418, R420: at most 900 bytes of a chain. -/
def execSpdmGetCertificate (c : Cmd) (rsp : List Nat) (s : State) : Host.Outcome State Fault Refusal :=
  .next (s.attest (.spdmGetCertificate c rsp) c rsp)

/-- SPDM_CHALLENGE, R418, R420. -/
def execSpdmChallenge (c : Cmd) (rsp : List Nat) (s : State) : Host.Outcome State Fault Refusal :=
  .next (s.attest (.spdmChallenge c rsp) c rsp)

/-- SPDM_GET_MEASUREMENTS, R420, R421. -/
def execSpdmGetMeasurements (c : Cmd) (rsp : List Nat) (s : State) : Host.Outcome State Fault Refusal :=
  .next (s.attest (.spdmGetMeasurements c rsp) c rsp)

/-- SPDM_UNSUPPORTED, R420: any other request, by its own code. -/
def execSpdmUnsupported (c : Cmd) (s : State) : Host.Outcome State Fault Refusal :=
  .next (s.attest (.spdmUnsupported c) c [])

end Sys2Proof.Machine
end

