-- ==== Sys2Proof/Machine/Suspect.lean ====
section
/-! DEFINITION. Silent errors, chapter 14: SRAM protection (R432, R433, R436), notices (R437), evidence and the suspect ladder (R445 to
R448), rails and core clock limits (R447, R538, R540), fencing onto a spare (R450 to R455). -/

namespace Sys2Proof.Machine

/-! ### Pages of a logical core -/

/-- The pages of a logical core, R60. -/
def corePages (ck : Nat) : List Page :=
  if kindOfLogical (ck % 64) = 0 then
    [mcorePage ck, mcorePage ck 1] ++ (List.range 16).flatMap fun n =>
      let e := engInst ck n
      [engPage e, engPage e 1, { blk := 0x11, inst := e }, { blk := 0x11, inst := e, page := 1 }, wprogPage e]
  else [corePage ck]

/-- R58: the generation of a domain increments, R470. -/
def State.bumpGen (s : State) (d : Dom) : State :=
  { s with resetCount := Tbl.put s.resetCount d.key (Tbl.getD s.resetCount d.key 0 + 1)
           genAt := Tbl.put s.genAt d.key s.elapsed }

/-! ### Clock limits and rails -/

/-- R540: the clocks and the programming ceiling of a level. -/
def levelV (l : Nat) : Nat := if 4 ≤ l then 1250 else if l = 3 then 1500 else 1750
def levelM (l : Nat) : Nat := if 6 ≤ l then 1250 else if l = 5 then 1500 else 1750
def levelCeiling (l : Nat) : Nat := if l = 0 then 5888 else if l = 1 then 2944 else if l = 2 then 1472 else 736
def levelMesh (l : Nat) (first : Bool) : Nat :=
  if first then (if 9 ≤ l then 1000 else if 7 ≤ l then 1250 else 1500)
  else (if 10 ≤ l then 1000 else if 8 ≤ l then 1250 else 1500)

/-- The partition of a physical core. -/
def partOfPhys (pc : Nat) : Nat := partOfCluster (pc / 64)

/-- R447, R538, R540, R546: the lowest of a physical core's clock limits in MHz. -/
def State.coreLimit (s : State) (pc : Nat) : Nat :=
  let p := partOfPhys pc
  let lv := s.rf R.PCORE_LEVEL pc
  let l := s.rf R.PWRCAP_LEVEL 0
  let pl := bitsOf (s.rf R.THERMAL_PART_LIMIT 0) (2 * p) 2
  let kind := kindOfPhysical (pc % 64)
  let rung := if lv = 4 then 1250 else if lv = 3 then 1500 else 1750
  let gov := if kind = 0 then levelM l else if kind = 1 then levelV l else 1750
  let hot := if pl = 2 then 1250 else if pl = 1 then 1500 else 1750
  let low := if (Tbl.get? s.sen.uvUntil p).isSome ∨ (s.rf R.AGEING_AGE_LIMITED 0).testBit p then 1500 else 1750
  min (min rung gov) (min hot low)

/-- The limits ordered for some physical cores, R25. -/
def State.applyClocks (s : State) (pcs : List Nat) : State :=
  s.each pcs fun t pc =>
    let m := t.coreLimit pc
    let now := Tbl.getD t.clk.corePend pc (Tbl.getD t.clk.core pc 1750)
    if now = m then t else t.orderCoreClock pc m

def allPhys : List Nat := List.range 2048
def physOfPart (p : Nat) : List Nat := allPhys.filter fun pc => partOfPhys pc = p

/-- R447: the steps a partition's cores ask of its rail. -/
def State.railWant (s : State) (p : Nat) : Nat :=
  (physOfPart p).foldl (fun m pc => if s.rb R.PCORE_FENCED pc then m else max m (s.rf R.PCORE_VRAISE_STEPS pc)) 0

/-- R447, R456: the rail of a partition slews to what is asked, at 1 mV/us; during a slew the new count waits. -/
def State.railSlew (s : State) (p : Nat) : State :=
  let want := min 8 (s.railWant p)
  let now := s.rf R.PART_RAISE_STEPS p
  if (Tbl.get? s.sen.rails p).isSome ∨ want = now then s
  else
    let due := s.elapsed + 5000 * ((want - now) + (now - want))
    ({ s with sen := { s.sen with rails := Tbl.put s.sen.rails p (want, due) } }).wf R.PART_SLEWING p 1

/-- RAIL_SLEW_END, R447. -/
def State.railSlewEnd (s : State) (p : Nat) : State :=
  match Tbl.get? s.sen.rails p with
  | none => s
  | some (n, due) =>
    if s.elapsed < due then s
    else
      let s1 := { s with sen := { s.sen with rails := Tbl.del s.sen.rails p } }
      ((s1.wf R.PART_RAISE_STEPS p n).wf R.PART_SLEWING p 0).railSlew p

/-! ### Evidence and the ladder -/

/-- R454: the field repair record rewritten, with `n` more cores fenced. -/
def State.fieldRec (s : State) (n : Nat) : State :=
  (((s.wf R.VAULT_FIELD_SEQ 0 (s.rf R.VAULT_FIELD_SEQ 0 + 1)).incSat R.VAULT_FIELD_FENCES 0 n)).wf R.VAULT_FIELD_RECORD_VALID 0 1

/-- A rung set, with what it does to the core; FENCED waits for its turn (R451). -/
def State.setRung (s : State) (pc level steps : Nat) : State :=
  let s1 := ((s.wf R.PCORE_LEVEL pc level).wf R.PCORE_VRAISE_STEPS pc steps).setInt (pcorePage pc) R.INT_PCORE_LEVEL_CHANGE
  let s2 := if level = 5 then { s1 with sen := { s1.sen with fences := s1.sen.fences ++ [(pc, s1.now)] } }
    else s1.fieldRec 0
  (s2.railSlew (partOfPhys pc)).applyClocks [pc]

/-- R446: the next rung. -/
def State.advance (s : State) (pc : Nat) : State :=
  let l := s.rf R.PCORE_LEVEL pc
  let n := s.rf R.PCORE_VRAISE_STEPS pc
  let up := min 8 (n + s.rf R.PCORE_VOLT_STEPS_PER_EVENT pc)
  let s1 := { s with sen := { s.sen with advAt := Tbl.put s.sen.advAt pc s.elapsed } }
  if l = 0 then s1.setRung pc 1 n
  else if l = 1 then s1.setRung pc 2 up
  else if l = 2 ∧ n < 8 then s1.setRung pc 2 up
  else s1.setRung pc (min 5 (l + 1)) n

/-- EVIDENCE, R445. -/
def State.evidence (s : State) (pc code eng : Nat) : State :=
  let p := pcorePage pc
  let s1 := (((s.incSat R.PCORE_EVIDENCE_COUNT pc).wf R.PCORE_LAST_EVIDENCE_STAMP pc s.now).wf R.PCORE_LAST_EVIDENCE_KIND pc
    code).wf R.PCORE_LAST_EVIDENCE_ENGINE pc eng
  let s2 := (s1.setInts p (2 ^ R.INT_PCORE_EVIDENCE + (if code = 0x10 then 2 else 0))).logEv 0x0501 p.index 0 [pc, code, eng, 0]
  let s3 := { s2 with sen := { s2.sen with lastEv := Tbl.put s2.sen.lastEv pc s.powered } }
  let hold := match Tbl.get? s.sen.advAt pc with
    | some t => decide (s.elapsed < t + 1000000 * s.rf R.PCORE_ADVANCE_HOLD_MS pc)
    | none => false
  if s.rf R.PCORE_LEVEL pc = 5 then s3
  else if 0x10 ≤ code then s3.setRung pc 5 (s3.rf R.PCORE_VRAISE_STEPS pc)
  else if hold then s3
  else s3.advance pc

/-! ### SRAM -/

/-- R436: the offset lies in a table that the core's page registers or descriptors name, or in its code. -/
def State.sharedStructure (s : State) (ck off : Nat) : Bool :=
  let within (a n : Nat) : Bool := decide (a / 32 * 32 ≤ off) && decide (off < a + n)
  if kindOfLogical (ck % 64) = 0 then
    within (s.rf R.MCORE1_DESC_BASE ck * 16) (64 * s.rf R.MCORE1_DESC_COUNT ck)
      || within (s.rf R.MCORE1_STREAM_BASE ck * 16) (16 * s.rf R.MCORE1_STREAM_COUNT ck)
      || (List.range (s.rf R.MCORE1_DESC_COUNT ck)).any fun d =>
          let w := s.descWords ck d
          wf_ w 0 63 1 = 1 && within (wf_ w 4 0 15 * 16) (8 * stepChannels w)
  else if kindOfLogical (ck % 64) = 1 then
    within (s.rf R.VCORE_KTAB_BASE ck * 16) (32 * s.rf R.VCORE_KTAB_COUNT ck)
      || within (s.rf R.VCORE_KV_PT_BASE ck * 16) (16384 * s.rf R.VCORE_PT_ENTRIES ck * 8)
  else decide (off < s.rf R.SCORE_CODE_LIMIT ck)

/-- SRAM_SCRUB, R432, R433: a codeword of a physical core read with `errs` symbols in error: up to two are corrected, more make it
hollow unless the code takes the pattern for `miss`. -/
def State.sramScrub (s : State) (pc off : Nat) (errs : List (Nat × Nat)) (miss : Option Nat) : State :=
  let a := off / 32 * 32
  if s.rb R.PCORE_FENCED pc ∨ sramSize (kindOfPhysical (pc % 64)) ≤ a then s
  else
    let key := sramKey pc a
    let n := ((errs.filter fun e => e.1 < 36 && e.2 % 256 ≠ 0).map (·.1)).eraseDups.length
    let data := Mem.read s.sram key 32
    let bad := errs.foldl (fun d e => if e.1 < 32 then d ^^^ (e.2 % 256 * 256 ^ e.1) else d) data
    if n = 0 then s
    else if n ≤ 2 then
      let s1 := s.inc R.PCORE_SRAM_CE pc
      { s1 with sen := { s1.sen with sramCes := (pc, s.elapsed) :: s1.sen.sramCes } }
    else match miss with
      | some d => { s with sram := Mem.write s.sram key 32 (d % 2 ^ 256) }
      | none =>
        let s1 := { s with sram := Mem.write s.sram key 32 bad
                           sramHollow := if s.sramHollow.contains (key / 32) then s.sramHollow else key / 32 :: s.sramHollow }
        let s2 := ((s1.inc R.PCORE_SRAM_UE pc).wf R.PCORE_LAST_SRAM_UE_ADDR pc a).setInt (pcorePage pc) R.INT_PCORE_SRAM_UE
        let s3 := s2.unitEv 5 (pcorePage pc) 0 a false
        let sh := match s3.logicalOf pc with
          | some ck => s3.sharedStructure ck a
          | none => false
        s3.suspect pc (if sh then 0x11 else 0x05) 0

/-! ### Shared structures -/

/-- Bytes written by Oasis in a logical core's SRAM; a codeword written whole is clean. -/
def State.sramStore (s : State) (ck off : Nat) (data : List Nat) : State :=
  ((chunks 32 (data.length / 32 + 1) data).zipIdx).foldl (fun t x =>
    let t1 := t.sramWrite ck (off + 32 * x.2) x.1.length (ofBytes x.1)
    if x.1.length = 32 then t1.sramMark ck (off + 32 * x.2) false else t1) s

/-- R436: a codeword of an item kept, from external memory into its core's SRAM; what reads hollow there is hollow here. -/
def State.reloadWord (s : State) (k : Kept) (j : Nat) : State :=
  let n := min 32 (k.len - 32 * j)
  let (bs, t) := s.hbmBytes (k.ext + 32 * j) n
  if bs.any (·.2) then t.sramMark k.core (k.off + 32 * j) true else t.sramStore k.core (k.off + 32 * j) (bs.map (·.1))

/-- R436: an item kept is reloaded, whole or only where a codeword is hollow. -/
def State.reloadItem (s : State) (k : Kept) (hollowOnly : Bool) : State :=
  s.each (List.range ((k.len + 31) / 32)) fun t j =>
    if hollowOnly && !t.sramHollow.contains (sramKey (t.physOf k.core) (k.off + 32 * j) / 32) then t else t.reloadWord k j

/-! ### Fencing -/

/-- R62: the spares a cluster has left. -/
def State.countSpares (s : State) (c : Nat) : State :=
  let n (kind : Nat) : Nat := (List.range 64).countP fun i =>
    kindOfPhysical i = kind && !s.rb R.PCORE_CARRYING (c * 64 + i) && !s.rb R.PCORE_FENCED (c * 64 + i)
  ((s.wf R.CLU_M_SPARES c (n 0)).wf R.CLU_V_SPARES c (n 1)).wf R.CLU_S_SPARES c (n 2)

/-- R450 step 2: the lowest unused physical core of the type. -/
def State.spareFor (s : State) (pc : Nat) : Option Nat :=
  ((List.range 64).map fun i => pc / 64 * 64 + i).find? fun q =>
    kindOfPhysical (q % 64) = kindOfPhysical (pc % 64) && q ≠ pc && !s.rb R.PCORE_CARRYING q && !s.rb R.PCORE_FENCED q &&
      s.rf R.PCORE_LEVEL q ≠ 5

/-- R450 step 3: a core's SRAM copied whole, hollow bits with it. -/
def State.copySram (s : State) (pc sp : Nat) : State :=
  let mine := s.sram.filter fun c => c.1 / 2 ^ 24 = pc
  let base := s.sram.filter fun c => c.1 / 2 ^ 24 ≠ sp
  let marks := s.sramHollow.filter fun k => k / 2 ^ 19 = pc
  { s with
    sram := mine.foldl (fun t c => Tbl.put t (sp * 2 ^ 24 + c.1 % 2 ^ 24) c.2) base
    sramHollow := (marks.map fun k => sp * 2 ^ 19 + k % 2 ^ 19) ++ s.sramHollow.filter fun k => k / 2 ^ 19 ≠ sp }

/-- R149, R453: what becomes of an engine whose core a spare carries: banks EMPTY with the journal entry and ledger of the spare's own cells, the Seed
Vault's column correction, and SPARE operations for the epochs bound; a running operation starts anew. -/
def State.spareEngine (s : State) (e : Nat) : State :=
  let p := s.progSt e
  let ops := (List.range 2).filterMap fun b =>
    let eps := (List.range 4).filter fun n => s.rf (epochBankF n) e = b + 1
    if eps.isEmpty then none else some { s.journalOp e b b 2 false with epochs := eps }
  let again := match p.owed with
    | some o => [{ o with touchUp := false, epochs := [] }]
    | none => []
  let all := ops ++ again
  let corr := [R.POST_CG_A_0, R.POST_CO_A_0, R.POST_CG_A_1, R.POST_CO_A_1, R.POST_CG_B_0, R.POST_CO_B_0, R.POST_CG_B_1,
    R.POST_CO_B_1].map fun (f : Field) => f.code * 65536 + e
  let s1 := { s with regs := Tbl.keep s.regs fun k _ => !corr.contains (k / 65536) }
  let s2 := (List.range 4).foldl (fun (t : State) n => t.wf (epochBankF n) e 0) s1
  let s3 := (List.range 2).foldl (fun (t : State) b =>
    let ch := (List.range 512).map fun r => Tbl.getD t.rowCharge (cellKey (t.physEng e) b r) 0
    let mx := ch.foldl max 0
    ((((t.loadEntry e b).wf (rowMaxF b) e mx).wf (rowTotalF b) e ch.sum).wf (wornF b) e (bit (decide (rated ≤ mx)))).setBankState e b
      bankEmpty) s2
  let s4 := (s3.setEng e {}).setProg e { p with owed := all[0]?, owed2 := all[1]?, retrims := [] }
  s4.tryOwed e

/-- R450 step 6: the run bit of a core's page. -/
def runField (ck : Nat) : Field :=
  if kindOfLogical (ck % 64) = 0 then R.MCORE_SEQ_RUN else if kindOfLogical (ck % 64) = 1 then R.VCORE_RUN else R.SCORE_RUN

/-- R58, R450 step 3: of a fenced core's registers the control registers and those that no reset of the core clears are copied to the
spare; every other block-specific register holds its Init value there (DEDUCED from the two rules, log 26). -/
def State.spareRegs (s : State) (ck : Nat) : State :=
  let mine (k : Nat) : Bool := (corePages ck).any fun p =>
    (p.blk = k / 2 ^ 32 / 64 / 65536 || (k / 2 ^ 32 / 64 / 65536 = 0x100 && p.blk = 0x15)) && p.inst = k / 65536 % 65536
  let gone (k : Nat) : Bool := match cellField k with
    | some f => decide (f.keep = .none) && (decide (f.acc ≠ .rw) || decide (f.blk = 0x100)) && mine k
    | none => false
  { s with regs := Tbl.keep s.regs fun k _ => !gone k }

/-- R450 steps 5 and 6 for the core itself: what it held is lost, GEN increments, and stand-in requests are sent once more. The increment
counts in RESET_COUNT (R54), which the spec leaves open where no domain reset caused it: DESIGN CHOICE, log 38. -/
def State.fenceCut (s : State) (ck : Nat) : State :=
  let st := (s.vcSt ck).standins
  let s1 := s.each (List.range 16) fun t n => if kindOfLogical (ck % 64) = 0 then t.progInterrupt (engInst ck n) else t
  let s2 := ((s1.bumpGen (.core ck)).cutCoreClock (.core ck) ck).breakScores [ck]
  let s3 := if kindOfLogical (ck % 64) = 1 then
      s2.each st fun t q => t.mesh 7 ck [q.mcore, q.step, q.eng, q.xref] else s2
  (corePages ck).foldl (fun t p => t.setInt p 2) s3

/-- R455: a logical core that no physical core is left to carry. -/
def State.markAbsent (s : State) (ck : Nat) : State :=
  let m := ck / 64 * 60 + ck % 64
  let s1 := s.each (List.range 512) fun t r => t.each [m / 8, 240 + m / 8] fun u w => u.wf (mapAbsentF (m % 8)) r 1 w
  let f := if kindOfLogical (ck % 64) = 0 then R.CLU_M_ABSENT else if kindOfLogical (ck % 64) = 1 then R.CLU_V_ABSENT
    else R.CLU_S_ABSENT
  let s2 := (s1.incSat f (ck / 64)).countAbsent
  let vs := (List.range 64).foldl (fun w v =>
    if s2.vstate v ≠ vEmpty ∧ ((s2.var v).place.cores.contains ck) then w + 2 ^ v else w) 0
  s2.logEv 0x0503 (corePage ck).index 0 [ck, pack [(s2.rf R.MOD1_M_ABSENT 0, 0, 16), (s2.rf R.MOD1_V_ABSENT 0, 16, 16),
    (s2.rf R.MOD1_S_ABSENT 0, 32, 16)], vs, 0]

/-- R450 steps 1 to 3 and 5: a physical core held, what its logical core did is lost, its SRAM and registers copied to the spare and the
map entry written; without a spare the logical core is absent (R455). `det` is the stamp of the detecting event. -/
def State.fenceBegin (s : State) (pc det : Nat) : State :=
  let s1 := (s.wf R.PCORE_FENCE_STAMP pc s.now).wf R.PCORE_FENCED pc 1
  let begun (t : State) (ck spare : Option Nat) (streams : List Nat) : State :=
    { t with sen := { t.sen with begun := t.sen.begun ++ [{ pc := pc, det := det, ck := ck, spare := spare, streams := streams }] } }
  match s.logicalOf pc with
  | none => begun (s1.wf R.PCORE_CARRYING pc 0) none none []
  | some ck =>
    let streams := (s1.heldStreams ck).eraseDups
    let s2 := (s1.wf R.PCORE_FENCE_LIST_LEN pc (min 2047 streams.length)).fenceCut ck
    match s1.spareFor pc with
    | none => begun ((s2.wf R.PCORE_CARRYING pc 0).markAbsent ck) (some ck) none streams
    | some sp =>
      let s3 := ((s2.spareRegs ck).copySram pc sp).mapWriteAll ck (sp % 64) false
      let s4 := (((s3.wf R.PCORE_CARRYING pc 0).wf R.PCORE_CARRYING sp 1).wf R.PCORE_LOGICAL sp (ck % 64)).wf R.PCORE_REPLACED_BY pc
        (sp % 64)
      begun s4 (some ck) (some sp) streams

/-- R450 step 6: an S-core runs only when its code region verifies; one with a hollow codeword waits for its image (R427). -/
def State.startSpare (s : State) (ck sp : Nat) : State :=
  if kindOfLogical (ck % 64) ≠ 2 then s.wf (runField ck) ck 1
  else if s.sramHollow.any fun k => k / 2 ^ 19 = sp && decide (k % 2 ^ 19 * 32 < s.rf R.SCORE_CODE_LIMIT ck) then
    (s.wf R.SCORE_RUN ck 0).wf R.SCORE_CODE_LOCK ck 0
  else s.scoreStart ck

/-- R450 steps 4 and 6, R453, R454: after the map has switched: hollow shared structures replaced, the spare started, the fence recorded. -/
def State.fenceEnd (s : State) (f : Fencing) : State :=
  let done (t : State) : State :=
    (((t.countSpares (f.pc / 64)).railSlew (partOfPhys f.pc)).fieldRec 1).logEv 0x0502 (pcorePage f.pc).index 0
      [f.pc, f.spare.getD 0xFFFF, f.det, s.now]
  match f.ck, f.spare with
  | some ck, some sp =>
    let s1 := s.each (s.sec.kept.filter fun k => k.core = ck) fun t k => t.reloadItem k true
    let s2 := (s1.startSpare ck sp).wf R.PCORE_LIVE_STAMP sp s.now
    let s3 := if kindOfLogical (ck % 64) = 0 then s2.each (List.range 16) fun t n => t.spareEngine (engInst ck n) else s2
    done ((s3.interruptStreams f.streams).2.loseResiduals ck)
  | _, _ => done (s.interruptStreams f.streams).2

/-- R247, R450, R490: physical cores fenced with one switch of the map. -/
def State.fenceAll (s : State) (l : List (Nat × Nat)) : State :=
  let s1 := s.each l fun t e => t.fenceBegin e.1 e.2
  let s2 := s1.when (s1.sen.begun.any fun b => b.spare.isSome) fun t =>
    (t.mapBroadcast ((t.rf R.ROUTER_MAP_VER oasisRouter) + 1)).mapComplete
  ({ s2 with sen := { s2.sen with begun := [] } }).each s2.sen.begun fun t f => t.fenceEnd f

/-- FENCE, R450, R451, R456: Oasis handles the oldest fence, once no map switch or clock hold is in progress and no reset holds the
core's domain; during bring-up the fences wait for the end of the tests (R490). -/
def State.fence (s : State) : State :=
  match s.sen.fences with
  | [] => s
  | (pc, det) :: rest =>
    let held : Bool := match s.logicalOf pc with
      | some ck => s.gated (.core ck)
      | none => s.gated (.cluster (pc / 64))
    if s.msh.switching.isSome ∨ !s.clk.hold.isEmpty ∨ held ∨ s.rb R.OASIS_RESTARTING 0 ∨ s.modState = msCores then s
    else ({ s with sen := { s.sen with fences := rest } }).fenceAll [(pc, det)]

/-- ABSENT_NOTICE, R437: a withheld pip's notice goes to the head module; there its request ends FAULTED. -/
def State.absentNotice (s : State) (stream : Nat) : State :=
  match s.headOf stream with
  | none => s
  | some h =>
    if h ≠ s.here then s.sendNotice h [0, stream, 0]
    else s.each (s.reqsOnStreams [stream]) fun t r => t.endLost r.id stFaulted

/-! ### Commands -/

/-- SRAM_SCRUB, R433. -/
def execSramScrub (pc off : Nat) (errs : List (Nat × Nat)) (miss : Option Nat) (s : State) : Host.Outcome State Fault Refusal :=
  .next (s.sramScrub (pc % 2048) off errs miss)

/-- ABSENT_NOTICE, R437. -/
def execAbsentNotice (stream : Nat) (s : State) : Host.Outcome State Fault Refusal := .next (s.absentNotice stream)

/-- EVIDENCE, R445. -/
def execEvidence (pc code eng : Nat) (s : State) : Host.Outcome State Fault Refusal :=
  .next (s.evidence (pc % 2048) code eng)

/-- RAIL_SLEW_END, R447. -/
def execRailSlewEnd (p : Nat) (s : State) : Host.Outcome State Fault Refusal := .next (s.railSlewEnd (p % 4))

/-- FENCE, R450. -/
def execFence (s : State) : Host.Outcome State Fault Refusal := .next s.fence

end Sys2Proof.Machine
end

