-- ==== Sys2Proof/Machine/Sensing.lean ====
section
/-! DEFINITION. Monitor converters, thermal control, power capping and ageing, chapter 18 (R530 to R552), with what each slow round
also judges: the remote sense and the leak line (R556, R562), board faults (R563) and the trends of R438. -/

namespace Sys2Proof.Machine

def monPage (i : Nat) (p : Nat := 0) : Page := { blk := 0x40, inst := i, page := p }
def agePage : Page := { blk := 0x43, inst := 0 }

/-! ### Converters, R531 to R534 -/

def State.convSt (s : State) (i : Nat) : ConvSt := Tbl.getD s.sen.conv i {}
def State.setConv (s : State) (i : Nat) (x : ConvSt) : State :=
  { s with sen := { s.sen with conv := Tbl.put s.sen.conv i x } }

/-- The field of entry `n` of a converter's sequence. -/
def seqF (n : Nat) : Field :=
  [R.MONCONV_ENTRY_0, R.MONCONV_ENTRY_1, R.MONCONV_ENTRY_2, R.MONCONV_ENTRY_3, R.MONCONV_ENTRY_4, R.MONCONV_ENTRY_5,
    R.MONCONV_ENTRY_6, R.MONCONV_ENTRY_7].getD (n % 8) R.MONCONV_ENTRY_0

/-- R532: the sequence the registers hold, taken at the start of a pass; entry 0 is channel 0. -/
def State.loadSeq (s : State) (i : Nat) : List Nat :=
  (List.range (max 1 (s.rf R.MONCONV_SEQ_LEN i))).map fun n => if n = 0 then 0 else s.rf (seqF n) i (n / 8)

/-- The sequence in force for the present pass. -/
def State.seqNow (s : State) (i : Nat) : List Nat :=
  let q := (s.convSt i).seq
  if q.isEmpty then s.loadSeq i else q

/-- R533: the oldest urgent request begins its conversion, where none is under way; the running entry is aborted, unless it is
protected. -/
def State.startUrgent (s : State) (i : Nat) : State :=
  let x := s.convSt i
  match x.urgent with
  | [] => s
  | ch :: rest =>
    if x.running.isSome then s
    else if !s.rb R.MONCONV_RUN i then s.setConv i { x with urgent := rest, running := some ch }
    else if 3 ≤ x.aborts then s
    else
      (s.setConv i { x with urgent := rest, running := some ch, aborts := x.aborts + 1, restarted := true }).inc
        R.MONCONV_RESTARTS i

/-- R533: an urgent request for a channel. -/
def State.urgentRequest (s : State) (i ch : Nat) : State :=
  let x := s.convSt i
  if x.urgent.contains ch then s
  else if 4 ≤ x.urgent.length then (s.inc R.MONCONV_URGENT_DROPS i).setInt (monPage i) R.INT_MONCONV_URGENT_DROP
  else (s.setConv i { x with urgent := x.urgent ++ [ch] }).startUrgent i

/-- R548: URGENT_CH and URGENT_GO written. -/
def State.urgentGo (s : State) (i w : Nat) : State := if w.testBit 6 then s.urgentRequest i (w % 64) else s

/-- R548: a RESULT word without its stamp. -/
def resultWord (code ch : Nat) (restarted : Bool) (count : Nat) : Nat :=
  pack [(code, 0, 12), (ch, 12, 6), (1, 18, 1), (bit restarted, 19, 1), (count, 24, 8)]

/-- R534: a converter's bandgap code compared after its pass with the other's. -/
def State.compareBandgap (s : State) (i : Nat) : State :=
  match (s.convSt i).bandgap, (s.convSt (1 - i)).bandgap with
  | some (a, ta), some (b, tb) =>
    if 200000 < (ta - tb) + (tb - ta) then s
    else
      let d : Int := (a : Int) - b
      let s1 := s.wf R.MONCONV_BG_DIFF i (fieldOfInt 12 d)
      let both (t : State) (f : Field) (v : Nat) : State := (t.wf f 0 v).wf f 1 v
      let count (t : State) (n : Nat) : State :=
        both { t with sen := { t.sen with agree := n } } R.MONCONV_AGREE_RUN (min 15 n)
      if 6 < d.natAbs then
        let s2 := both (count s1 0) R.MONCONV_DISAGREE 1
        (((s2.setInt (monPage 0) R.INT_MONCONV_DISAGREE).setInt (monPage 1) R.INT_MONCONV_DISAGREE).unitEv 0xC (monPage i) 0
          (fieldOfInt 64 d) false)
      else
        let s2 := count s1 (min 16 (s1.sen.agree + 1))
        if 16 ≤ s2.sen.agree then both s2 R.MONCONV_DISAGREE 0 else s2
  | _, _ => s

/-! ### Levels in force, R538 to R542 -/

/-- R541: R538: the level in force from the power level and the thermal floor, its ceiling and its clocks. -/
def State.issueLevel (s : State) : State :=
  let l := max (s.rf R.PWRCAP_POWER_LEVEL 0) (s.rf R.THERMAL_FLOOR_NOW 0)
  let c := if s.rb R.THERMAL_CRITICAL 0 then 0 else levelCeiling l
  let fh := s.rf R.PWRCAP_FIRST_HALF 0
  let s1 := ((s.wf R.PWRCAP_LEVEL 0 l).wf R.PWRCAP_CAPPED 0 (bit (decide (0 < l)))).wf R.PWRCAP_PROG_CEILING 0 c
  ((s1.applyClocks allPhys).orderMeshClock fh (levelMesh l true)).orderMeshClock (1 - fh) (levelMesh l false)

/-- R541, R542: the power level changes. -/
def State.setPowerLevel (s : State) (l : Nat) : State :=
  if s.rf R.PWRCAP_POWER_LEVEL 0 = l then s
  else
    let s1 := ((s.wf R.PWRCAP_POWER_LEVEL 0 l).inc R.PWRCAP_LEVEL_CHANGES 0).setInt pwrcapPage R.INT_PWRCAP_LEVEL_CHANGE
    { s1 with sen := { s1.sen with below := 0 } }

/-- R539: the effective cap formed from its two registers. -/
def State.formCap (s : State) : State :=
  let e := min (s.rf R.PWRCAP_CAP_W 0) (s.rf R.PWRCAP_BOARD_CAP 0)
  if e = s.rf R.PWRCAP_EFFECTIVE_CAP 0 then s
  else (s.wf R.PWRCAP_EFFECTIVE_CAP 0 e).setInt pwrcapPage R.INT_PWRCAP_CAP_CHANGE

/-- R539: a cap the governor takes. -/
def capLegal (w : Nat) : Bool := w % 25 = 0 && decide (1200 ≤ w) && decide (w ≤ 3400)

/-- Input power in W of a voltage in 10 mV and a current in 10 mA. -/
def inputPower (v i : Nat) : Nat := v * i / 10000

/-- R542: the fast clamp, when the urgent conversion that the 48 V comparator asked for is latched. -/
def State.fastClamp (s : State) (i48 : Nat) : State :=
  let cap := s.rf R.PWRCAP_EFFECTIVE_CAP 0
  let s1 := { s with sen := { s.sen with oc48 := false } }
  if s.sen.oc48 ∧ cap < 3400 ∧ 12 * cap < 10 * inputPower s.sen.v48 i48 then
    let s2 := ((s1.setPowerLevel (max 10 (s1.rf R.PWRCAP_POWER_LEVEL 0))).wf R.PWRCAP_CLAMPED 0 1).inc R.PWRCAP_CLAMPS 0
    (s2.setInt pwrcapPage R.INT_PWRCAP_CLAMP).issueLevel
  else s1

/-- OVERCURRENT_COMPARATOR, R533: comparators 0 to 3 the partition rails, 4 the 48 V input. -/
def State.overcurrent (s : State) (i n : Nat) : State :=
  if n < 4 then s.urgentRequest i (49 + n)
  else ({ s with sen := { s.sen with oc48 := true } }).urgentRequest i 55

/-- CONVERSION_END, R531 to R534: the running conversion latches its code. The next urgent request starts at once; the aborted entry
restarts only when none is left. -/
def State.conversionEnd (s : State) (i code : Nat) : State :=
  let code := code % 4096
  let x := s.convSt i
  match x.running with
  | some ch =>
    let n := s.rf R.MONCONV_URGENT_COUNT i
    let s1 := ((s.inc R.MONCONV_URGENT_COUNT i).wf R.MONCONV1_URGENT_RESULT i (resultWord code ch false (n + 1))).wf
      R.MONCONV1_URGENT_STAMP i s.now
    let s2 := s1.setConv i { x with running := x.urgent.head?, urgent := x.urgent.drop 1 }
    if ch = 55 then s2.fastClamp (Config.trim 55 code).toNat else s2
  | none =>
    if !s.rb R.MONCONV_RUN i then s
    else
      let q := s.seqNow i
      let n := if x.entry < q.length then x.entry else 0
      let ch := q.getD n 0
      let s1 := ((((((s.wf R.MONCONV1_CODE i code n).wf R.MONCONV1_CHANNEL i ch n).wf R.MONCONV1_VALID i 1 n).wf
        R.MONCONV1_RESTARTED i (bit x.restarted) n).wf R.MONCONV1_COUNT i (s.rf R.MONCONV1_COUNT i n + 1) n).wf
          R.MONCONV1_STAMP_LO i s.now n)
      let y := { x with aborts := 0, restarted := false, seq := q,
                        bandgap := if ch = 0 then some (code, s.elapsed) else x.bandgap }
      let s2 := if n + 1 < q.length then s1.setConv i { y with entry := n + 1 }
        else ((s1.setConv i { y with entry := 0, seq := s1.loadSeq i }).wf R.MONCONV_PASSES i
          (s1.rf R.MONCONV_PASSES i + 1)).compareBandgap i
      s2.startUrgent i

/-! ### Sensors -/

/-- R537: the class of a temperature sensor: 0 TJ, 1 THBM, 2 TOPT, 3 TREG, 4 TIN, 5 TOUT. -/
def sensorClass (n : Nat) : Option Nat :=
  if 1 ≤ n ∧ n ≤ 32 then some 0 else if 64 ≤ n ∧ n ≤ 75 then some 1 else if 33 ≤ n ∧ n ≤ 38 then some 2
  else if 39 ≤ n ∧ n ≤ 42 then some 3 else if n = 43 then some 4 else if n = 44 then some 5 else none

/-- R537: THROTTLE, CRITICAL and SHUTDOWN of a class in 1/16 degree. -/
def tripLevels (c : Nat) : List Int :=
  (if c = 0 then [95, 105, 115] else if c = 1 then [88, 95, 105] else if c = 2 then [70, 80, 90]
   else if c = 3 then [110, 125, 135] else if c = 4 then [46, 52, 60] else [60, 70, 80]).map fun (d : Int) => 16 * d

/-- R530: the partner of a temperature sensor. -/
def sensorPartner (n : Nat) : Option Nat :=
  if 1 ≤ n ∧ n ≤ 32 then some (1 + ((n - 1) ^^^ 1)) else if n = 43 then some 44 else if n = 44 then some 43 else none

def tempSensors : List Nat := (List.range 76).filter fun n => (sensorClass n).isSome

def State.sensor (s : State) (n : Nat) : SensorSt := Tbl.getD s.sen.sensors n {}
def State.setSensor (s : State) (n : Nat) (x : SensorSt) : State :=
  { s with sen := { s.sen with sensors := Tbl.put s.sen.sensors n x } }

/-- A sensor's reading. -/
def State.value (s : State) (n : Nat) : Int := signedOf 16 (s.rf R.THERMAL_VALUE 0 n)

/-- A result of a channel as Oasis finds it: converter, code, stamp, and what tells it from an older one. -/
structure Reading where
  src : Nat
  code : Nat
  stamp : Nat
  key : Nat
deriving DecidableEq, Repr

/-- R535 step 1: every result of a channel in RESULT and URGENT_RESULT of both converters. -/
def State.readings (s : State) (ch : Nat) : List Reading :=
  [0, 1].flatMap fun i =>
    let own := (List.range 32).filterMap fun n =>
      if s.rb R.MONCONV1_VALID i n && s.rf R.MONCONV1_CHANNEL i n = ch then
        let st := s.rf R.MONCONV1_STAMP_LO i n
        some { src := i, code := s.rf R.MONCONV1_CODE i n, stamp := st,
               key := ((i * 64 + n) * 256 + s.rf R.MONCONV1_COUNT i n) * 2 ^ 32 + st : Reading }
      else none
    let u := s.rf R.MONCONV1_URGENT_RESULT i
    let ust := s.rf R.MONCONV1_URGENT_STAMP i
    if u.testBit 18 && bitsOf u 12 6 = ch then
      own ++ [{ src := i, code := bitsOf u 0 12, stamp := ust % 2 ^ 32, key := ((i * 64 + 63) * 256) * 2 ^ 32 + ust }]
    else own

/-- The newest of some results, by their stamps' low halves. -/
def newest (l : List Reading) : Option Reading :=
  l.foldl (fun (a : Option Reading) b => match a with
    | none => some b
    | some x => if (b.stamp + 2 ^ 32 - x.stamp) % 2 ^ 32 < 2 ^ 31 then some b else some x) none

/-- R535 step 1: a converted channel read. -/
def State.readChannel (s : State) (ch : Nat) : State :=
  let x := s.sensor ch
  match newest (s.readings ch) with
  | none => s.setSensor ch { x with stale := x.stale + 1 }
  | some r =>
    if x.seenAt = some r.key then s.setSensor ch { x with stale := x.stale + 1 }
    else
      let v : Int := if ch = 0 ∨ ch = 63 then r.code else Config.trim ch r.code
      (((s.setSensor ch { x with stale := 0, code := r.code, seenAt := some r.key }).wf R.THERMAL_VALUE 0 (fieldOfInt 16 v) ch).wf
        R.THERMAL_SOURCE 0 r.src ch).wf R.THERMAL_STAMP_LO 0 r.stamp ch

/-- R535 step 1, R530: a stack's readout, or its failure. -/
def State.readStack (s : State) (n : Nat) (v : Option Int) : State :=
  let x := s.sensor n
  match v with
  | none => s.setSensor n { x with stale := 10 }
  | some t =>
    (((s.setSensor n { x with stale := 0, seenAt := some s.elapsed }).wf R.THERMAL_VALUE 0 (fieldOfInt 16 t) n).wf
      R.THERMAL_SOURCE 0 2 n).wf R.THERMAL_STAMP_LO 0 s.now n

def State.readAll (s : State) (thbm : List (Option Int)) : State :=
  let s1 := s.each ((List.range 60) ++ [63]) fun t ch => t.readChannel ch
  s1.each (List.range 12) fun t k => t.readStack (64 + k) (thbm.getD k none)

/-! ### Faults, R536 -/

/-- R536: rounds in a row in which a diode is further from its partner than 25 degrees. -/
def State.countApart (s : State) (n : Nat) : State :=
  let x := s.sensor n
  let far : Bool := match sensorPartner n with
    | some m => n ≤ 32 && x.seenAt.isSome && (s.sensor m).seenAt.isSome && decide (400 < (s.value n - s.value m).natAbs)
    | none => false
  s.setSensor n { x with apart := if far then x.apart + 1 else 0 }

/-- R536: rounds in a row in which the outlet reads colder than the inlet by more than 2 degrees at more than 1,500 W. -/
def State.countReversed (s : State) : State :=
  let cold : Bool := (s.sensor 43).seenAt.isSome && (s.sensor 44).seenAt.isSome && decide (s.value 44 + 32 < s.value 43)
    && decide (1500 < s.rf R.PWRCAP_P_LAST_W 0)
  { s with sen := { s.sen with reversed := if cold then s.sen.reversed + 1 else 0 } }

/-- R536: the fault a temperature sensor shows in this round, the first of the table that holds; 0 none. -/
def State.faultSeen (s : State) (n : Nat) : Nat :=
  let x := s.sensor n
  let v := s.value n
  let conv := decide (n ≤ 63)
  let seen := x.seenAt.isSome
  let range : Bool := if n = 43 ∨ n = 44 then decide (v < 0 ∨ 1440 < v) else decide (v < -640 ∨ 2400 < v)
  if conv && seen && decide (4080 ≤ x.code) then 1
  else if conv && seen && decide (x.code ≤ 15) then 2
  else if seen && range then 3
  else if 3 ≤ x.apart then 4
  else if 10 ≤ x.stale then 5
  else if conv && s.rb R.MONCONV_DISAGREE 0 then 6
  else if (n = 43 ∨ n = 44) ∧ 500 ≤ s.sen.reversed then 7
  else 0

/-- R536: a sensor's fault set, changed, or cleared after 50 clean rounds. -/
def State.judgeFault (s : State) (n : Nat) : State :=
  let c := s.faultSeen n
  let f := s.rf R.THERMAL_FAULT 0 n
  let x := s.sensor n
  let change (t : State) (v : Nat) : State :=
    let t1 := ((t.wf R.THERMAL_FAULT 0 v n).setInt thermalPage R.INT_THERMAL_SENSOR_FAULT).unitEv 0xC thermalPage n v false
    t1.when (decide (v = 7)) fun u => u.setInt thermalPage R.INT_THERMAL_REVERSED
  if c ≠ 0 then
    let s1 := s.setSensor n { x with clean := 0 }
    if c = f then s1 else change s1 c
  else if f = 0 then s
  else if 49 ≤ x.clean then change (s.setSensor n { x with clean := 0 }) 0
  else s.setSensor n { x with clean := x.clean + 1 }

/-! ### Trips, R537, R538 -/

/-- R536: what a sensor is taken to read: its value; for a fault its class's THROTTLE level, or CRITICAL where its partner is
faulted as well, neither of them INCONSISTENT nor (R563) REVERSED. -/
def State.taken (s : State) (n c : Nat) : Int :=
  let f := s.rf R.THERMAL_FAULT 0 n
  let odd (g : Nat) : Bool := g ≠ 0 && g ≠ 4 && g ≠ 7
  if f = 0 then s.value n
  else
    let both : Bool := match sensorPartner n with
      | some m => odd f && odd (s.rf R.THERMAL_FAULT 0 m)
      | none => false
    (tripLevels c).getD (if both then 1 else 0) 0

/-- R537: the level a value enters, SHUTDOWN only at the second round in a row, and the level that its hysteresis holds. -/
def tripOf (c : Nat) (v : Int) (old : Nat) (twice : Bool) : Nat :=
  let l (k : Nat) : Int := (tripLevels c).getD (k - 1) 0
  let up := if l 3 ≤ v ∧ (twice ∨ old = 3) then 3 else if l 2 ≤ v then 2 else if l 1 ≤ v then 1 else 0
  let hold := (List.range 4).foldl (fun m k => if 1 ≤ k ∧ k ≤ old ∧ l k - 80 < v then k else m) 0
  max up hold

/-- R538: the rails go off after a SHUTDOWN, and stay off. -/
def State.railsDown (s : State) : State :=
  (({ s with md := { s.md with railsOff := true } }).each (List.range 12) fun t k => t.wf R.HBM_SELF_REFRESH k 1).setPwrgd false

/-- R537, R538: a sensor judged. -/
def State.judgeTrip (s : State) (n : Nat) : State :=
  match sensorClass n with
  | none => s
  | some c =>
    let v := s.taken n c
    let old := s.rf R.THERMAL_TRIP 0 n
    let x := s.sensor n
    let at3 := decide ((tripLevels c).getD 2 0 ≤ v)
    let new := tripOf c v old (1 ≤ x.shut)
    let s1 := (s.setSensor n { x with shut := if at3 then x.shut + 1 else 0 }).wf R.THERMAL_TRIP 0 new n
    if new ≤ old then s1
    else
      let s2 := (((s1.inc R.THERMAL_TRIPS 0 (new - old)).wf R.THERMAL_LAST_TRIP_STAMP 0 s.now).setInt thermalPage
        R.INT_THERMAL_TRIP).raiseAlert
      let s3 := s2.when (decide (old < 2 ∧ 2 ≤ new)) fun t =>
        t.post { stamp := t.now, kind := 0x0C00, sev := 4, page := thermalPage.index, ref := n,
                 details := [2, fieldOfInt 64 v, 0, 0] }
      if new = 3 then (s3.dieFailure 6 (0x8000 + n)).railsDown else s3

/-- R538: a partition's limit from the diodes of its clusters. -/
def State.partLimit (s : State) (p : Nat) : State :=
  let hot := (List.range 32).any fun c => partOfCluster c = p && decide (1 ≤ s.rf R.THERMAL_TRIP 0 (c + 1))
  let w := s.rf R.THERMAL_PART_LIMIT 0
  let cur := bitsOf w (2 * p) 2
  let set (t : State) (v : Nat) : State :=
    (t.wf R.THERMAL_PART_LIMIT 0 (w - cur * 4 ^ p + v * 4 ^ p)).applyClocks (physOfPart p)
  if hot then
    if cur ≠ 0 then s
    else set { s with sen := { s.sen with hotSince := Tbl.put s.sen.hotSince p s.elapsed } } 1
  else if cur = 0 then s
  else set { s with sen := { s.sen with hotSince := Tbl.del s.sen.hotSince p } } 0

/-- THROTTLE_ESCALATE, R538. -/
def State.throttleEscalate (s : State) (p : Nat) : State :=
  let w := s.rf R.THERMAL_PART_LIMIT 0
  match Tbl.get? s.sen.hotSince p with
  | none => s
  | some t =>
    if bitsOf w (2 * p) 2 = 1 ∧ t + 100000000 ≤ s.elapsed then
      (s.wf R.THERMAL_PART_LIMIT 0 (w + 4 ^ p)).applyClocks (physOfPart p)
    else s

/-- R538, R563: the thermal floor from the trips and the leak line. -/
def State.floorNow (s : State) : Nat :=
  let trip (n : Nat) : Nat := s.rf R.THERMAL_TRIP 0 n
  let bits := s.rf R.BOARD_FAULTS_NOW 0
  if s.rb R.BOARD_LEAK 0 || tempSensors.any fun n => decide (2 ≤ trip n) then 15
  else if bits.testBit 8 || bits.testBit 9 || tempSensors.any fun n => sensorClass n ≠ some 0 && decide (1 ≤ trip n) then
    s.rf R.PWRCAP_THERM_FLOOR 0
  else 0

/-- R537, R538, R549: step 3 of a round. -/
def State.judgeThermal (s : State) : State :=
  let s1 := s.each tempSensors fun t n => t.judgeTrip n
  let s2 := s1.each (List.range 4) fun t p => t.partLimit p
  let any (f : Nat → Bool) : Nat := bit (tempSensors.any f)
  ((((s2.wf R.THERMAL_THROTTLING 0 (any fun n => decide (1 ≤ s2.rf R.THERMAL_TRIP 0 n))).wf R.THERMAL_CRITICAL 0
    (any fun n => decide (2 ≤ s2.rf R.THERMAL_TRIP 0 n))).wf R.THERMAL_SENSOR_FAULT 0
      (any fun n => decide (s2.rf R.THERMAL_FAULT 0 n ≠ 0))).wf R.THERMAL_UNTRUSTED 0 (s2.rf R.MONCONV_DISAGREE 0)).wf
        R.THERMAL_FLOOR_NOW 0 s2.floorNow

/-- R538: a cold reset that a host or the board orders is refused: a sensor that is not faulted reads at or above THROTTLE. -/
def State.thermalHold (s : State) : Bool :=
  tempSensors.any fun n => match sensorClass n with
    | some c => s.rf R.THERMAL_FAULT 0 n = 0 && (s.sensor n).seenAt.isSome && decide ((tripLevels c).getD 0 0 ≤ s.value n)
    | none => false

/-! ### The input and the board lines -/

/-- R556: the remote sense judged, and V48 and I48 of the round. -/
def State.senseInput (s : State) : State :=
  let r := s.value 53
  let l := s.value 54
  let i := (s.value 55).toNat
  let x := s.sensor 53
  let bad : Bool := x.seenAt.isSome && (decide (4080 ≤ x.code) || decide (x.code ≤ 15))
  let far : Bool := x.seenAt.isSome && (s.sensor 54).seenAt.isSome && decide (200 < (r - l).natAbs)
  let apart := if far then s.sen.senseApart + 1 else 0
  let clean := if bad || far then 0 else s.sen.senseClean + 1
  let open_ := bad || decide (3 ≤ apart) || (s.rb R.BOARD_SENSE_FALLBACK 0 && decide (clean < 50))
  let v := if open_ then l.toNat + i * Config.rInput / 1000 else r.toNat
  let sen := { s.sen with senseApart := apart, senseClean := min 50 clean, v48 := v, i48 := i }
  (({ s with sen := sen }).wf R.BOARD_SENSE_FALLBACK 0 (bit open_)).boardFault 1 open_

/-- R562, R563: the leak line judged: 0 dry, 1 leak, 2 open, 3 short. -/
def State.senseLeak (s : State) (ohm : Nat) (short : Bool) : State :=
  let k := if short then 3 else if ohm < 1000 then 1 else if 20000 < ohm then 2 else 0
  let dry := if k = 0 then min 50 (s.sen.leakDry + 1) else 0
  let s1 := ({ s with sen := { s.sen with leakDry := dry } }).wf R.BOARD_LEAK_STATE 0 k
  let s2 := s1.wf R.BOARD_LEAK 0 (if k = 1 then 1 else if 50 ≤ dry then 0 else s1.rf R.BOARD_LEAK 0)
  ((s2.boardFault 7 (k = 1)).boardFault 8 (k = 2)).boardFault 9 (k = 3)

/-- R563: the thermistors' board faults, from their fault codes. -/
def State.thermistorFaults (s : State) : State :=
  let f (n : Nat) : Nat := s.rf R.THERMAL_FAULT 0 n
  ((((s.boardFault 2 (f 43 = 1)).boardFault 3 (f 43 = 2)).boardFault 4 (f 44 = 1)).boardFault 5 (f 44 = 2)).boardFault 6
    (f 43 = 7 || f 44 = 7)

/-! ### The governor, R541 -/

/-- R540: the flits each half has forwarded. -/
def State.halfFlits (s : State) (h : Nat) : Nat :=
  (List.range 512).foldl (fun n r => if halfOfRouter r = h then n + s.rf R.ROUTER_FLITS r else n) 0

/-- R540: the half that forwarded fewer flits over the last window, East on a tie; the totals of past rounds stand newest first,
West before East. -/
def State.judgeHalf (s : State) : State :=
  let n := s.rf R.PWRCAP_WINDOW_MS 0 / 2
  let w := s.halfFlits 0
  let e := s.halfFlits 1
  let k := min n (s.sen.flits.length / 2)
  let dw := if k = 0 then w else w - s.sen.flits.getD (2 * (k - 1)) 0
  let de := if k = 0 then e else e - s.sen.flits.getD (2 * (k - 1) + 1) 0
  let sen := { s.sen with flits := (w :: e :: s.sen.flits).take 1000 }
  ({ s with sen := sen }).wf R.PWRCAP_FIRST_HALF 0 (if dw < de then 0 else 1)

/-- R541: step 4 of a round. `tele`: the input stage's telemetry in W; `peak`: the highest mean over 1 ms since the last round. -/
def State.governor (s : State) (tele peak : Nat) : State :=
  let s1 := s.formCap.judgeHalf
  let un := s1.rb R.MONCONV_DISAGREE 0
  let eff := s1.rf R.PWRCAP_EFFECTIVE_CAP 0
  let cap := if un then eff * 97 / 100 else eff
  let p := if un then tele else inputPower s1.sen.v48 s1.sen.i48
  let h := s1.rf R.PWRCAP_HEADROOM_W 0
  let ps := (p :: s1.sen.powers).take 500
  let win := ps.take (s1.rf R.PWRCAP_WINDOW_MS 0 / 2)
  let avg := win.sum / max 1 win.length
  let below := if avg + 3 * h < cap then s1.sen.below + 1 else 0
  let l := s1.rf R.PWRCAP_POWER_LEVEL 0
  let up := decide (cap < avg + h ∨ cap < p)
  let l2 := if eff = 3400 then 0 else if up then min 15 (l + 1)
    else if s1.rf R.PWRCAP_UP_ROUNDS 0 ≤ below then l - 1 else l
  let sen := { s1.sen with powers := ps, below := below }
  let s2 := ((({ s1 with sen := sen }).wf R.PWRCAP_P_LAST_W 0 p).wf R.PWRCAP_P_AVG_W 0 avg).wf R.PWRCAP_TELEMETRY 0 (bit un)
  let s3 := (s2.wf R.PWRCAP_P_PEAK_1MS_W 0 (max (s2.rf R.PWRCAP_P_PEAK_1MS_W 0) peak)).setPowerLevel l2
  let s4 := s3.when (decide (l2 < 10)) fun t => t.wf R.PWRCAP_CLAMPED 0 0
  s4.issueLevel

/-! ### Undervoltage, R546 -/

/-- R546: GUARD_MV of a partition. -/
def State.guardMv (s : State) (p : Nat) : Nat := bitsOf (s.rf R.AGEING_GUARD_MV 0) (8 * p) 8

/-- R546: step 5 of a round, for one partition. -/
def State.undervoltage (s : State) (p : Nat) : State :=
  let v := s.value (45 + p)
  let lim : Int := (s.rf R.PART_RAIL_MV p + 5 * s.rf R.PART_RAISE_STEPS p : Nat) - (s.guardMv p : Int)
  if (s.sensor (45 + p)).seenAt.isSome ∧ v < lim then
    let s1 := s.post { stamp := s.now, kind := 0x0C00, sev := 2, page := agePage.index, ref := p,
                       details := [fieldOfInt 64 v, fieldOfInt 64 lim, 0, 0] }
    let sen := { s1.sen with uvUntil := Tbl.put s1.sen.uvUntil p (s1.elapsed + 1000000000) }
    ({ s1 with sen := sen }).applyClocks (physOfPart p)
  else s

/-- UNDERVOLTAGE_END, R546. -/
def State.undervoltageEnd (s : State) (p : Nat) : State :=
  match Tbl.get? s.sen.uvUntil p with
  | none => s
  | some t =>
    if s.elapsed < t then s
    else ({ s with sen := { s.sen with uvUntil := Tbl.del s.sen.uvUntil p } }).applyClocks (physOfPart p)

/-! ### Trends, R438 -/

/-- The keys of a list of corrections within `span` ns that occur at least `n` times, with their counts. -/
def trendKeys (l : List (Nat × Nat)) (elapsed span n : Nat) (f : Nat → Nat) : List (Nat × Nat) :=
  let ks := (l.filter fun e => elapsed < e.2 + span).map fun e => f e.1
  (ks.eraseDups.map fun k => (k, ks.count k)).filter fun e => n ≤ e.2

/-- R438: the trends of the memories; each is recorded when its condition comes to hold. -/
def State.trends (s : State) : State :=
  let hour := 3600000000000
  let weak := trendKeys s.sen.hbmCes s.elapsed (24 * hour) 3 id
  let pc := trendKeys s.sen.hbmCes s.elapsed hour 256 fun cw => cw * 64 / 2 ^ 36 * 64 + pseudoChannel (cw * 64 % 2 ^ 36)
  let sram := trendKeys s.sen.sramCes s.elapsed hour 16 id
  let fresh (kind : Nat) (l : List (Nat × Nat)) : List (Nat × Nat) := l.filter fun e => !s.sen.weakDone.contains (kind, e.1)
  let mark (kind : Nat) (l : List (Nat × Nat)) : List (Nat × Nat) := l.map fun e => (kind, e.1)
  let s1 := s.each (fresh 1 weak) fun t e =>
    t.logEv 0x0701 (hbmPage (e.1 * 64 / 2 ^ 36)).index 0 [hbmAddr t.interleave (e.1 * 64 / 2 ^ 36) (e.1 * 64 % 2 ^ 36), e.2, 0, 0]
  let s2 := s1.each (fresh 2 pc) fun t e => t.logEv 0x0702 (hbmPage (e.1 / 64)).index 0 [e.1 / 64, e.1 % 64, e.2, 0]
  let s3 := s2.each (fresh 3 sram) fun t e => (t.logEv 0x0703 (pcorePage e.1).index 0 [e.1, e.2, 0, 0]).suspect e.1 0x04 0
  let sen := { s3.sen with
    weakDone := mark 1 weak ++ mark 2 pc ++ mark 3 sram
    hbmCes := s3.sen.hbmCes.filter fun e => s.elapsed < e.2 + 24 * hour
    sramCes := s3.sen.sramCes.filter fun e => s.elapsed < e.2 + hour }
  { s3 with sen := sen }

/-! ### The slow round, R535 -/

/-- SLOW_ROUND, R535: at a multiple of 2 ms, unless Oasis restarts. `late`: starts that passed while the round ran. -/
def State.slowRound (s : State) (thbm : List (Option Int)) (tele peak leakOhm : Nat) (leakShort : Bool) (late : Nat) : State :=
  if s.elapsed % 2000000 ≠ 0 ∨ s.sen.roundAt = s.elapsed + 1 ∨ s.rb R.OASIS_RESTARTING 0 ∨ !s.md.powered then s
  else
    let s1 := ({ s with sen := { s.sen with roundAt := s.elapsed + 1 } }).readAll thbm
    let s2 := ((s1.each tempSensors fun t n => t.countApart n).countReversed).each tempSensors fun t n => t.judgeFault n
    let s3 := ((s2.senseInput.senseLeak leakOhm leakShort).thermistorFaults).judgeThermal
    let s4 := (s3.governor tele peak).each (List.range 4) fun t p => t.undervoltage p
    let s5 := s4.trends.inc R.THERMAL_ROUND_OVERRUNS 0 late
    { s5 with oa := { s5.oa with roundAt := s5.elapsed } }

/-! ### Commands of hosts -/

/-- POWER_CAP_SET, R544. -/
def State.powerCapSet (s : State) (i : Instr) (c : Cmd) : State :=
  s.vorane i 0x46 c .f (c.bodyWords = 1) fun t =>
    let cap := c.f 0 0 16
    let win := c.f 0 16 16
    let answer (u : State) (code stamp : Nat) : State :=
      u.reply c [pack [(code, 0, 8), (u.rf R.PWRCAP_EFFECTIVE_CAP 0, 16, 16)], stamp]
    if c.f 0 32 32 ≠ 0 ∨ !capLegal cap ∨ (win ≠ 0 ∧ (win % 2 ≠ 0 ∨ win < 10 ∨ 1000 < win)) then answer t 1 0
    else
      let t1 := (t.wf R.PWRCAP_CAP_W 0 cap).when (decide (win ≠ 0)) fun u => u.wf R.PWRCAP_WINDOW_MS 0 win
      answer t1.formCap 0 t1.now

/-- R549, R550: the word of a sensor. -/
def State.sensorWord (s : State) (n : Nat) : Nat :=
  pack [(s.rf R.THERMAL_VALUE 0 n, 0, 16), (s.rf R.THERMAL_SOURCE 0 n, 16, 3), (s.rf R.THERMAL_FAULT 0 n, 19, 3),
    (s.rf R.THERMAL_TRIP 0 n, 22, 2), (s.rf R.THERMAL_STAMP_LO 0 n, 32, 32)]

/-- SENSOR_QUERY, R550. -/
def State.sensorQuery (s : State) (i : Instr) (c : Cmd) : State :=
  s.vorane i 0x41 c .q (c.bodyWords = 1) fun t =>
    let first := c.f 0 0 7
    let n := c.f 0 7 7
    let bad := decide (c.f 0 14 50 ≠ 0 ∨ n = 0 ∨ 76 < n ∨ 76 < first + n)
    let w := pack [(bit bad, 0, 8), (t.rf R.PWRCAP_LEVEL 0, 8, 4), (t.rf R.THERMAL_THROTTLING 0, 12, 1),
      (t.rf R.THERMAL_CRITICAL 0, 13, 1), (t.rf R.THERMAL_SENSOR_FAULT 0, 14, 1), (t.rf R.THERMAL_UNTRUSTED 0, 15, 1)]
    t.reply c (w :: (if bad then [] else (List.range n).map fun i => t.sensorWord (first + i)))

/-! ### Ageing, R545 to R547 -/

/-- R545: one cluster's degradation measured from the counts of its two halves. -/
def State.ageCluster (s : State) (c stressed fresh : Nat) : State :=
  if fresh = 0 then s
  else
    let d : Int := (1000000 * ((fresh : Int) - stressed)).fdiv fresh - Config.factoryD c
    let (sum, n) := Tbl.getD s.sen.ageSums c (0, 0)
    let (sum, n) := if 86400 ≤ n then (d, 1) else (sum + d, n + 1)
    let sen := { s.sen with ageSums := Tbl.put s.sen.ageSums c (sum, n), ageD := Tbl.put s.sen.ageD c d }
    ({ s with sen := sen }).wf R.AGEING_DEGRADE_PPM 0 (fieldOfInt 32 (sum.fdiv n)) c

/-- AGEING_MEASURE, R545: once per second. -/
def State.ageMeasure (s : State) (counts : List (Nat × Nat)) : State :=
  if s.elapsed % 1000000000 ≠ 0 ∨ s.rb R.OASIS_RESTARTING 0 then s
  else s.each ((List.range 32).zip counts) fun t e => t.ageCluster e.1 e.2.1 e.2.2

/-- A change of a re-plan, written as an event-log record: the step, the old and the new value. -/
def State.replanEv (s : State) (page : Page) (ref step old new : Nat) : State :=
  s.post { stamp := s.now, kind := 0x0C00, sev := 1, page := page.index, ref := ref, details := [step, old, new, 0] }

/-- R546, R547 step 1: a partition's guard band. -/
def State.replanGuard (s : State) (p : Nat) : State :=
  let ds := ((List.range 32).filter fun c => partOfCluster c = p).filterMap fun c => Tbl.get? s.sen.ageD c
  match ds with
  | [] => s
  | d :: rest =>
    let mx := rest.foldl max d
    let g := (max 10 (30 - mx.fdiv 1000)).toNat
    let old := s.guardMv p
    if old ≤ g then s
    else
      let w := s.rf R.AGEING_GUARD_MV 0
      let s1 := (s.wf R.AGEING_GUARD_MV 0 (w - old * 256 ^ p + g * 256 ^ p)).replanEv agePage p 1 old g
      let lim := s1.rf R.AGEING_AGE_LIMITED 0
      if g = 10 ∧ !lim.testBit p then
        let s2 := ((s1.wf R.AGEING_AGE_LIMITED 0 (lim + 2 ^ p)).setInt agePage R.INT_AGEING_AGE_LIMIT).post
          { stamp := s1.now, kind := 0x0C00, sev := 2, page := agePage.index, ref := p, details := [g, 0, 0, 0] }
        (s2.fieldRec 0).applyClocks (physOfPart p)
      else s1

/-- The largest interval in us over `dt` us of which a change `d` stays within a sixty-fourth of `lim`; none where nothing
changed. -/
def stableFor (d : Int) (lim dt : Nat) : Option Nat := if d = 0 then none else some (lim * dt / (64 * d.natAbs))

/-- R547 step 2: an engine's calibration interval. -/
def State.replanCal (s : State) (e : Nat) : State :=
  let dt := (s.powered - s.sen.replanAt) * 1000000
  let of_ (b : Nat) : List Nat :=
    if s.ready e b then
      match Tbl.get? s.sen.trimBase (e * 2 + b) with
      | none => []
      | some (g0, z0) =>
        let dg : Int := (s.rf (gainF b) e : Int) - g0
        let dz := (s.pilotRead e b 3 - signedOf 16 (s.rf (zeroBaseF b) e)) - z0
        (stableFor dg (s.rf R.ENG1_GAIN_LIMIT e) dt).toList ++ (stableFor dz (s.rf R.ENG1_OFFSET_LIMIT e) dt).toList
    else []
  let base := s.rf R.AGEING_INTERVAL_BASE 0
  let n := max 100 ((of_ 0 ++ of_ 1).foldl min base)
  let old := s.rf R.ENG1_INTERVAL e
  if (!s.ready e 0 && !s.ready e 1) || old = n then s
  else (s.wf R.ENG1_INTERVAL e n).replanEv (engPage e 1) 0 2 old n

/-- R547: the trims kept for the next re-plan. -/
def State.keepTrims (s : State) (e : Nat) : State :=
  s.each [0, 1] fun t b =>
    if t.ready e b then
      let v : Int × Int := (t.rf (gainF b) e, t.pilotRead e b 3 - signedOf 16 (t.rf (zeroBaseF b) e))
      { t with sen := { t.sen with trimBase := Tbl.put t.sen.trimBase (e * 2 + b) v } }
    else t

/-- R547 step 3: a bank's ROW_MAX projected to the end of the plan. -/
def State.projection (s : State) (e b : Nat) : Nat :=
  let m := s.rf (rowMaxF b) e
  let grown := m - Tbl.getD s.sen.rowBase (e * 2 + b) 0
  let dt := s.powered - s.sen.replanAt
  let left := s.rf R.WPROG_PLAN_DAYS e * 86400 - s.powered
  if dt = 0 then m else m + grown * left / dt

/-- R547 step 3: BURST halved where a bank's projection passes RATED - RESERVE; the worst bank noted. -/
def State.replanEndurance (s : State) (e : Nat) : State :=
  s.each [0, 1] fun t b =>
    let p := t.projection e b
    let t1 := if t.rf R.AGEING_WORST_PROJECTION 0 < min (2 ^ 20 - 1) p then
        (t.wf R.AGEING_WORST_PROJECTION 0 (min (2 ^ 20 - 1) p)).wf R.AGEING_WORST_BANK 0 (e + b * 2 ^ 19) else t
    let old := t1.rf R.WPROG_BURST e
    let new := min old (max 256 (old / 2))
    let t2 := if rated - t1.rf R.WPROG_RESERVE e < p ∧ new ≠ old then
        let t3 := (t1.wf R.WPROG_BURST e new).replanEv (wprogPage e) b 3 old new
        t3.logEv 0x0103 (wprogPage e).index 0 [0x188, t1.govPolicy e, t3.govPolicy e, 0]
      else t1
    { t2 with sen := { t2.sen with rowBase := Tbl.putD t2.sen.rowBase 0 (e * 2 + b) (t2.rf (rowMaxF b) e) } }

/-- R448, R547 step 4: a core without evidence for QUIET_DAYS moves down one rung. -/
def State.replanRung (s : State) (pc : Nat) : State :=
  let l := s.rf R.PCORE_LEVEL pc
  let quiet := Tbl.getD s.sen.lastEv pc 0 + s.rf R.PCORE_QUIET_DAYS pc * 86400
  if l = 0 ∨ l = 5 ∨ s.powered < quiet then s
  else
    let n := s.rf R.PCORE_VRAISE_STEPS pc
    let m := n - s.rf R.PCORE_VOLT_STEPS_PER_EVENT pc
    let (l2, n2) := if l = 2 then (if m = 0 then (1, 0) else (2, m)) else (l - 1, n)
    (s.setRung pc l2 n2).replanEv (pcorePage pc) 0 4 (l * 16 + n) (l2 * 16 + n2)

/-- The logical engines, as R60 numbers them. -/
def allEngines : List Nat :=
  (List.range 32).flatMap fun c => (List.range 46).flatMap fun k => (List.range 16).map fun n => engInst (c * 64 + k) n

/-- R547: the margin re-plan. -/
def State.replan (s : State) : State :=
  let s1 := s.each (List.range 4) fun t p => t.replanGuard p
  let s2 := s1.each allEngines fun t e => (if t.rb R.AGEING_REPLAN_CAL 0 then t.replanCal e else t).keepTrims e
  let s3 := ((s2.wf R.AGEING_WORST_BANK 0 0).wf R.AGEING_WORST_PROJECTION 0 0).each allEngines fun t e => t.replanEndurance e
  let s4 := s3.each allPhys fun t pc => t.replanRung pc
  let sen := { s4.sen with replanAt := s4.powered, replanOwed := false }
  (({ s4 with sen := sen }).wf R.AGEING_LAST_REPLAN_STAMP 0 s4.now).setInt agePage R.INT_AGEING_REPLANNED

/-- R547: a reset or a fence is in progress. -/
def State.replanHeld (s : State) : Bool := !s.rsts.isEmpty || !s.sen.fences.isEmpty || s.rb R.OASIS_RESTARTING 0

/-- REPLAN, R547: a re-plan that is due, or that waited. -/
def State.replanDue (s : State) : State :=
  let due := s.sen.replanAt + s.rf R.AGEING_REPLAN_DAYS 0 * 86400 ≤ s.powered
  if (due ∨ s.sen.replanOwed) ∧ !s.replanHeld then s.replan else s

/-- REPLAN_NOW, R547. -/
def State.replanNow (s : State) : State :=
  if s.replanHeld then { s with sen := { s.sen with replanOwed := true } } else s.replan

/-! ### Commands -/

/-- CONVERSION_END, R531. -/
def execConversionEnd (i code : Nat) (s : State) : Host.Outcome State Fault Refusal := .next (s.conversionEnd (i % 2) code)

/-- OVERCURRENT_COMPARATOR, R533. -/
def execOvercurrentComparator (i n : Nat) (s : State) : Host.Outcome State Fault Refusal := .next (s.overcurrent (i % 2) n)

/-- SLOW_ROUND, R535. -/
def execSlowRound (thbm : List (Option Int)) (tele peak leakOhm : Nat) (leakShort : Bool) (late : Nat) (s : State) :
    Host.Outcome State Fault Refusal := .next (s.slowRound thbm tele peak leakOhm leakShort late)

/-- THROTTLE_ESCALATE, R538. -/
def execThrottleEscalate (p : Nat) (s : State) : Host.Outcome State Fault Refusal := .next (s.throttleEscalate (p % 4))

/-- UNDERVOLTAGE_END, R546. -/
def execUndervoltageEnd (p : Nat) (s : State) : Host.Outcome State Fault Refusal := .next (s.undervoltageEnd (p % 4))

/-- POWER_CAP_SET, R544. -/
def execPowerCapSet (c : Cmd) (s : State) : Host.Outcome State Fault Refusal := .next (s.powerCapSet (.powerCapSet c) c)

/-- SENSOR_QUERY, R550. -/
def execSensorQuery (c : Cmd) (s : State) : Host.Outcome State Fault Refusal := .next (s.sensorQuery (.sensorQuery c) c)

/-- AGEING_MEASURE, R545. -/
def execAgeingMeasure (counts : List (Nat × Nat)) (s : State) : Host.Outcome State Fault Refusal := .next (s.ageMeasure counts)

/-- REPLAN, R547. -/
def execReplan (s : State) : Host.Outcome State Fault Refusal := .next s.replanDue

end Sys2Proof.Machine
end

