-- ==== Sys2Proof/Machine/Board.lean ====
section
/-! DEFINITION. The board's side of the module, chapter 19: 48 V (R554, R555), power-good and reset (R557, R558), the sideband (R559,
R560). -/

namespace Sys2Proof.Machine

/-! ### Power and reset -/

/-- R554, R275, R414: 48 V is gone: what the journals hold stays; nothing runs. -/
def State.powerGone (s : State) : State :=
  if !s.md.powered then s
  else
    let s1 := (s.setPwrgd false).coldReset false
    { s1 with md := { s1.md with powered := false } }

/-- INPUT_OVERVOLTAGE, R554: the input stage stops, which is a loss of input. -/
def State.overvoltage (s : State) : State := if s.md.powered then s.powerGone.emit (.pin 2 false) else s

/-- INPUT_REVERSED, R555: nothing runs; the protection latch records the event. -/
def State.inputReversed (s : State) : State :=
  let s1 := s.powerGone
  { s1 with md := { s1.md with reverseLatch := true } }

/-- R555, R563: what the latch recorded is reported. -/
def State.reportReversed (s : State) : State :=
  if s.md.reverseLatch then
    (((({ s with md := { s.md with reverseLatch := false } }).incSat R.BOARD_REVERSE_EVENTS 0).boardFault 0 true).boardFault 0 false)
  else s

/-- POWER_APPLIED, R554, R518, R557: the input stage starts, POWER_ON counts, the rails come up and PWRGD is released. RESET_N is
held low by the board until it releases it. -/
def State.powerApplied (s : State) : State :=
  if s.md.powered then s
  else
    let s1 := ({ s with md := { s.md with powered := true } }).wf R.OASIS1_POWER_ON 0 (s.rf R.OASIS1_POWER_ON 0 + 1)
    ((s1.emit (.pin 2 true)).setPwrgd true).reportReversed

/-- RESET_N_ASSERT, R558: a low level of 10 us after PWRGD has been released. -/
def State.resetAssert (s : State) : State :=
  if !s.md.powered ∨ !s.md.started then s
  else if s.thermalHold then ((s.boardFault 12 true).boardFault 12 false).raiseAlert
  else
    let s1 := s.coldReset true
    ({ s1 with md := { s1.md with resetN := true } }).wf R.BOARD_FLASH_OWNED 0 0

/-- RAIL_OUT_OF_REGULATION, R557. -/
def State.railOut (s : State) : State := s.setPwrgd false

/-! ### The sideband -/

/-- The bytes of a number, least significant first. -/
def bytesOf (v : Nat) : Nat → List Nat
  | 0 => []
  | n + 1 => v % 256 :: bytesOf (v / 256) n

/-- R560: a command served, with its data; a bad PEC, a read that comes too early or a refused value is NACKed and counted. The
reply is 1 and the bytes, or 0. -/
def State.sbNack (s : State) : State :=
  ((s.inc R.BOARD_SB_ERRORS 0).setInt (boardPage 0) R.INT_BOARD_SIDEBAND_ERROR).emit (.sideband [0])

def State.sbServe (s : State) (pecOk early : Bool) (act : State → State × List Nat) : State :=
  if !s.md.powered then s
  else if !pecOk || early then s.sbNack
  else
    let r := act (s.inc R.BOARD_SB_COMMANDS 0)
    r.1.emit (.sideband (1 :: r.2))

/-- R559: the alert ends. -/
def State.endAlert (s : State) : State :=
  if s.md.alert then ({ s with md := { s.md with alert := false } }).emit (.pin 1 false) else s

/-- SB_IDENT. -/
def State.sbIdent (s : State) (pecOk early : Bool) : State :=
  s.sbServe pecOk early fun t => (t, bytesOf (t.rf R.MOD_PART_NUMBER 0) 8 ++ bytesOf (t.rf R.MOD_SERIAL 0) 8
    ++ [0xA1, t.rf R.MOD_SLOT 0, 0, 0])

/-- SB_STATE. -/
def State.sbState (s : State) (pecOk early : Bool) : State :=
  s.sbServe pecOk early fun t => (t.endAlert, [t.modState, t.rf R.MOD1_FAIL_CAUSE 0] ++ bytesOf (t.rf R.MOD1_FAIL_DETAIL 0) 2)

/-- The highest reading of some sensors. -/
def State.hottest (s : State) (ns : List Nat) : Int := (ns.map s.value).foldl max (s.value (ns.headD 0))

/-- SB_THERMAL. -/
def State.sbThermal (s : State) (pecOk early : Bool) : State :=
  s.sbServe pecOk early fun t =>
    let two (v : Int) : List Nat := bytesOf (fieldOfInt 16 v) 2
    let trip := (tempSensors.map fun n => t.rf R.THERMAL_TRIP 0 n).foldl max 0
    (t, two (t.value 43) ++ two (t.value 44) ++ two (t.hottest ((List.range 32).map (· + 1)))
      ++ two (t.hottest ((List.range 12).map (· + 64))) ++ [trip, t.rf R.THERMAL_SENSOR_FAULT 0, t.rf R.THERMAL_FLOOR_NOW 0, 0])

/-- SB_POWER. -/
def State.sbPower (s : State) (pecOk early : Bool) : State :=
  s.sbServe pecOk early fun t =>
    (t, bytesOf (t.rf R.PWRCAP_P_LAST_W 0) 2 ++ bytesOf (t.rf R.PWRCAP_P_AVG_W 0) 2 ++ bytesOf t.sen.v48 2 ++ bytesOf t.sen.i48 2
      ++ bytesOf (t.rf R.PWRCAP_EFFECTIVE_CAP 0) 2 ++ [t.rf R.PWRCAP_LEVEL 0, 0])

/-- SB_BOARD_CAP. -/
def State.sbBoardCap (s : State) (pecOk : Bool) (w : Nat) : State :=
  if s.md.powered && pecOk && !capLegal w then s.sbNack
  else s.sbServe pecOk false fun t => ((t.wf R.PWRCAP_BOARD_CAP 0 w).formCap, [])

/-- SB_FAULTS. -/
def State.sbFaults (s : State) (pecOk early : Bool) : State :=
  s.sbServe pecOk early fun t => (t.endAlert, bytesOf (t.rf R.BOARD_FAULTS 0) 2 ++ bytesOf (t.rf R.BOARD_FAULTS_NOW 0) 2)

/-- R560, R567: latched bits cleared; a fault still present sets its bit again at once. -/
def State.clearFaults (s : State) (mask : Nat) : State :=
  let f := s.rf R.BOARD_FAULTS 0
  s.wf R.BOARD_FAULTS 0 ((f - (f &&& mask)) ||| s.rf R.BOARD_FAULTS_NOW 0)

/-- SB_FAULT_CLEAR. -/
def State.sbFaultClear (s : State) (pecOk : Bool) (mask : Nat) : State :=
  s.sbServe pecOk false fun t => (t.clearFaults (mask % 65536), [])

/-- SB_SETDASA, R559: accepted from the static address. -/
def State.sbSetdasa (s : State) (static dyn : Nat) : State :=
  if s.md.powered ∧ static = s.rf R.BOARD_SB_ADDR 0 then { s with md := { s.md with sbAddr := some (dyn % 128) } } else s

/-- SB_ENTDAA, R559: the address that the arbitration gives. -/
def State.sbEntdaa (s : State) (dyn : Nat) : State :=
  if s.md.powered ∧ s.md.sbAddr.isNone then { s with md := { s.md with sbAddr := some (dyn % 128) } } else s

/-! ### Commands -/

/-- POWER_LOSS, R554. -/
def execPowerLoss (s : State) : Host.Outcome State Fault Refusal := .next s.powerGone

/-- INPUT_REVERSED, R555. -/
def execInputReversed (s : State) : Host.Outcome State Fault Refusal := .next s.inputReversed

/-- RESET_N_ASSERT, R558. -/
def execResetNAssert (s : State) : Host.Outcome State Fault Refusal := .next s.resetAssert

/-- SB_SETDASA, R559. -/
def execSbSetdasa (static dyn : Nat) (s : State) : Host.Outcome State Fault Refusal := .next (s.sbSetdasa static dyn)

/-- SB_ENTDAA, R559. -/
def execSbEntdaa (dyn : Nat) (s : State) : Host.Outcome State Fault Refusal := .next (s.sbEntdaa dyn)

/-- SB_IDENT, R560. -/
def execSbIdent (pecOk early : Bool) (s : State) : Host.Outcome State Fault Refusal := .next (s.sbIdent pecOk early)

/-- SB_STATE, R560. -/
def execSbState (pecOk early : Bool) (s : State) : Host.Outcome State Fault Refusal := .next (s.sbState pecOk early)

/-- SB_THERMAL, R560. -/
def execSbThermal (pecOk early : Bool) (s : State) : Host.Outcome State Fault Refusal := .next (s.sbThermal pecOk early)

/-- SB_POWER, R560. -/
def execSbPower (pecOk early : Bool) (s : State) : Host.Outcome State Fault Refusal := .next (s.sbPower pecOk early)

/-- SB_BOARD_CAP, R560. -/
def execSbBoardCap (pecOk : Bool) (watts : Nat) (s : State) : Host.Outcome State Fault Refusal :=
  .next (s.sbBoardCap pecOk (watts % 65536))

/-- SB_FAULTS, R560. -/
def execSbFaults (pecOk early : Bool) (s : State) : Host.Outcome State Fault Refusal := .next (s.sbFaults pecOk early)

/-- SB_FAULT_CLEAR, R560. -/
def execSbFaultClear (pecOk : Bool) (mask : Nat) (s : State) : Host.Outcome State Fault Refusal :=
  .next (s.sbFaultClear pecOk mask)

/-- POWER_APPLIED, R554. -/
def execPowerApplied (s : State) : Host.Outcome State Fault Refusal := .next s.powerApplied

/-- INPUT_OVERVOLTAGE, R554. -/
def execInputOvervoltage (s : State) : Host.Outcome State Fault Refusal := .next s.overvoltage

/-- RAIL_OUT_OF_REGULATION, R557. -/
def execRailOutOfRegulation (s : State) : Host.Outcome State Fault Refusal := .next s.railOut

end Sys2Proof.Machine
end

