-- ==== Sys2Proof/Machine/Firmware.lean ====
section
/-! DEFINITION. Firmware: FW_UPDATE and images that travel by Caravan (R422 to R426, R523 to R525), the broadcast to S-cores (R427)
and the handing over of roles (R225). -/

namespace Sys2Proof.Machine

/-! ### FW_UPDATE -/

/-- USTATUS of R523. -/
def usDone : Nat := 0
def usBadParam : Nat := 1
def usBusy : Nat := 2
def usFlash : Nat := 6
def usNoTrial : Nat := 7
def usRequestsOpen : Nat := 8
def usStarted : Nat := 9
def usTrialPending : Nat := 10
def usThermalHold : Nat := 11

/-- R425: the slot an image may be written into: neither ACTIVE nor TRIAL. -/
def State.fwSlot (s : State) : Option Nat :=
  [0, 1].find? fun t => s.rf (slotStateF t) 0 ≠ 2 && s.rf (slotStateF t) 0 ≠ 1

/-- The slot that is TRIAL. -/
def State.trialSlot (s : State) : Option Nat := [0, 1].find? fun t => s.rf (slotStateF t) 0 = 1

/-- R529, R517: an FW_UPDATE's outcome on page 3 and in the log. -/
def State.fwOutcome (s : State) (op status version : Nat) : State :=
  let failed := decide (status ≠ usDone ∧ status ≠ usStarted)
  let s1 := ((s.wf R.OASIS3_LAST_USTATUS 0 status).wf R.OASIS3_LAST_OP 0 op).wf R.OASIS3_LAST_UPDATE_STAMP 0 s.now
  let s2 := if status = usDone then s1.setInt oasis3Page R.INT_OASIS3_UPDATE_DONE
    else if failed then s1.setInt oasis3Page R.INT_OASIS3_UPDATE_FAILED else s1
  s2.logEvSev 0x0B02 (if failed then 3 else 1) oasis3Page.index 0 [op, status, version, 0]

/-- R523: the completion. -/
def fwWords (status version bytes : Nat) : List Nat := [status, version, bytes]

/-- A refusal or an outcome at once. -/
def State.fwReply (s : State) (c : Cmd) (op status version : Nat) : State :=
  (s.fwOutcome op status version).reply c (fwWords status version 0)

/-- R523, R570: reserved and unused fields are zero, and LENGTH is in range. -/
def fwBad (c : Cmd) (op : Nat) : Bool :=
  let rest := (List.range 8).any fun i => c.w (i + 1) ≠ 0
  c.f 0 20 44 ≠ 0 ||
    (if op = 0 then
      c.b 0 4 || (!c.b 0 3 && c.f 0 5 15 ≠ 0) || (c.b 0 2 && (c.w 1 ≠ 0 || c.f 2 0 32 ≠ 0))
        || decide (c.f 2 32 32 < 1024) || decide (2 ^ 26 < c.f 2 32 32)
    else rest || c.f 0 2 2 ≠ 0 || c.f 0 5 15 ≠ 0 || (op ≠ 1 && c.b 0 4))

/-- R524 STAGE: the reading of the image begins. -/
def State.fwStage (s : State) (c : Cmd) : State :=
  match s.fwSlot with
  | none => s.fwReply c 0 usTrialPending 0
  | some slot =>
    let host := !c.b 0 2
    let oa := { s.oa with stage := some (c.qp, c.cmdId, slot), stageNext := if c.b 0 3 then some (c.f 0 5 15) else none,
                          stageHost := host, fwChunks := [], fwFrom := none, fwFails := 0, fwResent := false,
                          fwLast := s.elapsed }
    let s1 := ((({ s with oa := oa }).wf R.OASIS3_UPDATE_OPEN 0 1).wf R.OASIS3_BYTES_DONE 0 0).takeEffect c.qp c.cmdId
      (fwWords usStarted 0 0)
    if host then s1.issueRead c.qp (c.w 1) (c.f 2 0 32) (c.f 2 32 32) else s1

/-- R524 ACTIVATE. -/
def State.fwActivate (s : State) (c : Cmd) : State :=
  match s.trialSlot with
  | none => s.fwReply c 1 usNoTrial 0
  | some t =>
    let v := s.rf (slotVersionF t) 0
    if !s.reqs.isEmpty && !c.b 0 4 then s.fwReply c 1 usRequestsOpen v
    else if s.thermalHold then s.fwReply c 1 usThermalHold v
    else
      let s1 := s.fwReply c 1 usStarted v
      ({ s1 with oa := { s1.oa with activated := true } }).coldStart

/-- R524 COMMIT. -/
def State.fwCommit (s : State) (c : Cmd) : State :=
  if !s.rb R.OASIS3_RUNNING_TRIAL 0 then s.fwReply c 2 usNoTrial 0
  else
    let v := s.rf (slotVersionF (s.rf R.OASIS3_RUNNING_SLOT 0)) 0
    let s1 := ((s.commitTrial.wf R.OASIS3_LAST_USTATUS 0 usDone).wf R.OASIS3_LAST_OP 0 2).wf R.OASIS3_LAST_UPDATE_STAMP 0 s.now
    (s1.setInt oasis3Page R.INT_OASIS3_UPDATE_DONE).reply c (fwWords usDone v 0)

/-- R524 DISCARD. -/
def State.fwDiscard (s : State) (c : Cmd) : State :=
  match s.trialSlot with
  | none => s.fwReply c 3 usNoTrial 0
  | some t =>
    if s.rb R.OASIS3_RUNNING_TRIAL 0 ∧ s.rf R.OASIS3_RUNNING_SLOT 0 = t then s.fwReply c 3 usNoTrial 0
    else (s.wf (slotStateF t) 0 0).fwReply c 3 usDone (s.rf (slotVersionF t) 0)

/-- FW_UPDATE, R523, R524; the OP is read from the body. -/
def State.fwUpdate (s : State) (i : Instr) (c : Cmd) : State :=
  s.vorane i 0x48 c .l (c.bodyWords = 9) fun t =>
    let op := c.f 0 0 2
    if fwBad c op then t.fwReply c op usBadParam 0
    else if t.rb R.OASIS3_UPDATE_OPEN 0 then t.fwReply c op usBusy 0
    else if op = 0 then t.fwStage c
    else if op = 1 then t.fwActivate c
    else if op = 2 then t.fwCommit c
    else t.fwDiscard c

/-- R426, R524: the verified image goes on to the next module. -/
def State.fwForward (s : State) (next version : Nat) : State :=
  let oa := { s.oa with fwSent := some (next, version, s.elapsed + s.shardTimeout) }
  ((({ s with oa := oa }).wf R.OASIS3_FORWARDING 0 1).wf R.OASIS3_FORWARD_DONE 0 0).sendBulk
    { cls := 3, typ := 1, dest := next, len := 2008, words := [0, version, 0, 0] }

/-- FW_STAGE_DONE, R524: the staging ends: 0 the slot holds the image; 3 not readable; 4 the digest differs (R426: of an image that came
by Caravan a RESEND is asked up to three times); 5 the image does not verify; 6 the flash's read-back failed. `sections`: the digests in the image's section table by TYPE from 1. -/
def State.fwStageDone (s : State) (status version security : Nat) (raise : Bool) (bytes : Nat) (sections : List Nat) : State :=
  match s.oa.stage with
  | none => s
  | some (qp, id, slot) =>
    let retried := s.oa.fwFails + bit s.oa.fwResent
    if status ≠ 0 ∧ (status < 3 ∨ 6 < status) ∨ (status = 3 ∧ !s.oa.stageHost) then s
    else if status = 4 ∧ s.oa.fwFrom.isSome ∧ retried < 3 then s.fwAsk s.oa.fwResent
    else
      let s1 := if s.oa.stageHost then s.readDone qp else s
      let next := s1.oa.stageNext
      let src := s1.oa.fwFrom
      let oa := { s1.oa with stage := none, stageNext := none, fwChunks := [], fwFrom := none }
      let s2 := ({ s1 with oa := oa }).wf R.OASIS3_UPDATE_OPEN 0 0
      let s3 := if status = 0 then
          let t := ((s2.wf (slotStateF slot) 0 1).wf (slotVersionF slot) 0 version).wf (slotSecurityF slot) 0 security
          let digests := (sections.zipIdx).foldl (fun l x => Tbl.put l (slot * 8 + x.2 + 1) x.1) t.oa.sections
          let oa := { t.oa with raise := Tbl.put t.oa.raise slot (bit raise), tries := Tbl.put t.oa.tries slot 0, sections := digests }
          ({ t with oa := oa }).wf R.OASIS3_BYTES_DONE 0 bytes
        else if status = 6 then ((s2.wf (slotStateF slot) 0 0).inc R.OASIS3_FLASH_ERRORS 0).wf R.OASIS3_BYTES_DONE 0 bytes
        else s2
      let verified := decide (status = 0 ∨ status = 6)
      let s4 := match (if verified then next else none) with
        | some n => s3.fwForward n version
        | none => s3
      let s5 := match (if verified then src else none) with
        | some m => s4.bulkAck m.1 0 version 0 0
        | none => s4
      (s5.fwOutcome 0 status version).finish qp id (fwWords status version (s5.rf R.OASIS3_BYTES_DONE 0))

/-- FW_CHUNK, R426: bytes of an image that a staging from the Caravan awaits; without one, NOT_REGISTERED. -/
def State.fwChunk (s : State) (f : Frame) : State :=
  if s.oa.stage.isSome ∧ !s.oa.stageHost then
    let off := f.words.getD 3 0
    let got := if s.oa.fwChunks.any fun g => g.1 = off then s.oa.fwChunks else s.oa.fwChunks ++ [(off, f.words.getD 4 0)]
    let oa := { s.oa with fwFrom := some (f.src, f.words.getD 1 0), fwChunks := got, fwLast := s.elapsed }
    { s with oa := oa }
  else s.bulkAck f.src 0 (f.words.getD 1 0) 0 4

/-! ### Roles, R225 -/

/-- The S-core in the SPARE role that takes over: the lowest that runs. -/
def State.spareRole (s : State) (but : Nat) : Option Nat :=
  ((List.range 32).flatMap fun c => [57, 58, 59].map fun k => c * 64 + k).find? fun ck =>
    ck ≠ but && s.rf R.SCORE_ROLE ck = 3 && s.rb R.SCORE_RUN ck && !s.isAbsent ck

/-- R225: an S-core's role passes to one in the SPARE role, and it takes that role itself. -/
def State.handover (s : State) (ck : Nat) : State :=
  let r := s.rf R.SCORE_ROLE ck
  if r = 3 then s
  else match s.spareRole ck with
    | none => s
    | some n =>
      let f := if r = 0 then R.SERVE2_ADMIT_SCORE else if r = 1 then R.SERVE2_STEP_SCORE else R.SERVE2_COMMIT_SCORE
      let s1 := (s.wf R.SCORE_ROLE n r).wf R.SCORE_ROLE ck 3
      s1.each (List.range 64) fun t v => if t.vstate v ≠ vEmpty ∧ t.rf f 0 v = ck then t.wf f 0 n v else t

/-! ### The broadcast to S-cores, R427 -/

/-- A logical S-core that is present. -/
def State.isScore (s : State) (ck : Nat) : Bool :=
  destLocal ck && kindOfLogical (ck % 64) = 2 && !s.isAbsent ck

/-- An S-core takes an image: it is halted and its code region is not locked. -/
def State.takesImage (s : State) (ck : Nat) : Bool := s.isScore ck && !s.rb R.SCORE_RUN ck && !s.rb R.SCORE_CODE_LOCK ck

/-- CORE_IMAGE_CHUNK: 1,024 bytes at SRAM offset 1,024 n, marked in the bitmap. -/
def State.imageChunk (s : State) (ck n : Nat) (data : List Nat) : State :=
  if !s.takesImage ck ∨ 128 ≤ n then s
  else
    let s1 := ((List.range 128).foldl (fun (t : State) i =>
      (t.sramWrite ck (1024 * n + 8 * i) 8 ((List.range 8).foldl (fun v b => v + data.getD (8 * i + b) 0 % 256 * 256 ^ b) 0)).sramMark ck
        (1024 * n + 8 * i) false) s)
    let x := s1.scSt ck
    (s1.setSc ck { x with imgChunks := if x.imgChunks.contains n then x.imgChunks else n :: x.imgChunks }).wf
      R.CARAVAN_BROADCAST_ACTIVE 0 1

/-- R427: the bytes of an S-core's code region. -/
def State.codeRegion (s : State) (ck : Nat) : List Nat :=
  let n := s.rf R.SCORE_CODE_LIMIT ck
  leBytes n (s.sramRead ck 0 n)

/-- CORE_IMAGE_END: the target hashes its code region and reports whether its digest is the section's, and the missing chunks. -/
def State.imageEnd (s : State) (ck count digest : Nat) : State :=
  if !s.takesImage ck then s
  else
    let x := s.scSt ck
    let missing := (List.range (min 128 count)).filter fun n => !x.imgChunks.contains n
    let ok := decide (Config.sha384 (s.codeRegion ck) = digest)
    s.setSc ck { x with imgLen := count, imgReport := some (ok && missing.isEmpty, missing) }

/-- R430: a broadcast goes on while some target has not been started or given up. -/
def State.imageIdle (s : State) : State :=
  if s.sc.all fun (e : Nat × ScSt) => e.2.imgChunks.isEmpty then s.wf R.CARAVAN_BROADCAST_ACTIVE 0 0 else s

/-- CORE_IMAGE_REPORT: a target that matches is locked and started; otherwise the missing chunks are sent, for up to three rounds;
then its core is evidence for a fence and its role passes on. -/
def State.imageReport (s : State) (ck : Nat) : State :=
  let x := s.scSt ck
  let clear (t : State) : State :=
    (t.setSc ck { t.scSt ck with imgLen := 0, imgChunks := [], imgRound := 0, imgReport := none }).imageIdle
  match x.imgReport with
  | none => s
  | some (true, _) => ((clear s).wf R.SCORE_CODE_LOCK ck 1).scoreStart ck
  | some (false, missing) =>
    if 2 ≤ x.imgRound then
      let s1 := ((clear s).inc R.CARAVAN_CORE_IMAGE_FAILS 0).setInt caravanPage R.INT_CARAVAN_CORE_IMAGE_FAIL
      (s1.suspect (s1.physOf ck) 0x12 0).handover ck
    else (s.setSc ck { x with imgRound := x.imgRound + 1, imgReport := none }).mesh 21 ck missing

/-! ### Commands -/

/-- FW_UPDATE_STAGE, R524; the OP is read from the body. -/
def execFwUpdateStage (c : Cmd) (s : State) : Host.Outcome State Fault Refusal := .next (s.fwUpdate (.fwUpdateStage c) c)

/-- FW_UPDATE_ACTIVATE, R524. -/
def execFwUpdateActivate (c : Cmd) (s : State) : Host.Outcome State Fault Refusal := .next (s.fwUpdate (.fwUpdateActivate c) c)

/-- FW_UPDATE_COMMIT, R524. -/
def execFwUpdateCommit (c : Cmd) (s : State) : Host.Outcome State Fault Refusal := .next (s.fwUpdate (.fwUpdateCommit c) c)

/-- FW_UPDATE_DISCARD, R524. -/
def execFwUpdateDiscard (c : Cmd) (s : State) : Host.Outcome State Fault Refusal := .next (s.fwUpdate (.fwUpdateDiscard c) c)

/-- FW_STAGE_DONE, R524. -/
def execFwStageDone (status version security : Nat) (raise : Bool) (image : FwImage) (s : State) :
    Host.Outcome State Fault Refusal := .next (s.fwStageDone status version security raise image.bytes image.sections)

/-- FW_CHUNK, R426. -/
def execFwChunk (f : Frame) (s : State) : Host.Outcome State Fault Refusal := .next (s.fwChunk f)

/-- CORE_IMAGE_CHUNK, R427. -/
def execCoreImageChunk (ck n : Nat) (data : List Nat) (s : State) : Host.Outcome State Fault Refusal :=
  .next (s.imageChunk ck n data)

/-- CORE_IMAGE_END, R427. -/
def execCoreImageEnd (ck count digest : Nat) (s : State) : Host.Outcome State Fault Refusal := .next (s.imageEnd ck count digest)

/-- CORE_IMAGE_REPORT, R427. -/
def execCoreImageReport (ck : Nat) (s : State) : Host.Outcome State Fault Refusal := .next (s.imageReport ck)

end Sys2Proof.Machine
end

