-- ==== Sys2Proof/Machine/Resets.lean ====
section
/-! DEFINITION. Hangs and resets, chapter 15: the pages of a domain (R60, R461), what its reset leaves (R13, R473), the course of a
reset (R467 to R472, R475, R478), hangs (R463 to R466) and DOMAIN_RESET (R479). -/

namespace Sys2Proof.Machine

/-! ### Pages and domains -/

/-- R60: the block types whose instances are numbered from 0, with their pages and the number of their instances. -/
def plainBlocks : List (Nat × Nat × Nat) :=
  [(0x00, 2, 1), (0x01, 4, 1), (0x02, 1, 1), (0x03, 2, 1), (0x04, 2, 1), (0x08, 1, 1), (0x09, 1, 4), (0x0A, 1, 32),
   (0x16, 2, 2048), (0x18, 2, 512), (0x19, 1, 16), (0x20, 2, 12), (0x28, 3, 2), (0x29, 1, 1024), (0x30, 2, 6), (0x31, 3, 1),
   (0x32, 1, 1), (0x38, 3, 1), (0x39, 1, 4096), (0x3A, 1, 65536), (0x40, 2, 2), (0x41, 1, 1), (0x42, 1, 1), (0x43, 1, 1),
   (0x48, 2, 1)]

/-- R60: the page is implemented. -/
def Page.exists_ (p : Page) : Bool :=
  if p.blk = 0x10 then decide (p.inst < 2048) && decide (p.inst % 64 ≤ 45) && decide (p.page ≤ 1)
  else if p.blk = 0x11 ∨ p.blk = 0x12 then decide (p.inst < 32768) && decide (p.inst % 1024 < 736) && decide (p.page ≤ 1)
  else if p.blk = 0x13 then decide (p.inst < 32768) && decide (p.inst % 1024 < 736) && decide (p.page = 0)
  else if p.blk = 0x14 then decide (p.inst < 2048) && decide (46 ≤ p.inst % 64) && decide (p.inst % 64 ≤ 56) && decide (p.page = 0)
  else if p.blk = 0x15 then decide (p.inst < 2048) && decide (57 ≤ p.inst % 64) && decide (p.inst % 64 ≤ 59) && decide (p.page = 0)
  else plainBlocks.any fun b => b.1 = p.blk && decide (p.page < b.2.1) && decide (p.inst < b.2.2)

/-- R54: the smallest reset domain that contains a page; none for the pages that Oasis serves, which only a cold reset reaches. The
number 0x100 stands for an S-core's local control block (R224). -/
def pageDom (blk inst : Nat) : Option Dom :=
  if blk = 0x10 ∨ blk = 0x14 ∨ blk = 0x15 ∨ blk = 0x100 then some (.core inst)
  else if blk = 0x11 ∨ blk = 0x12 ∨ blk = 0x13 then some (.core (engCore inst))
  else if blk = 0x0A then some (.cluster inst)
  else if blk = 0x09 then some (.part inst)
  else if [0x01, 0x03, 0x04, 0x40, 0x41, 0x42, 0x43, 0x48].contains blk then none
  else some .die

/-- The page of a domain, R461. -/
def Dom.page : Dom → Page
  | .core ck => corePage ck | .cluster c => cluPage c | .part p => partPage p | .die => diePage

/-- The pages inside a domain, R461. -/
def Dom.pages : Dom → List Page
  | .core ck => corePages ck
  | .cluster c => cluPage c :: (Dom.cluster c).cores.flatMap corePages
  | .part p => partPage p :: ((List.range 32).filter fun c => partOfCluster c = p).flatMap fun c =>
      cluPage c :: (Dom.cluster c).cores.flatMap corePages
  | .die => Dom.die.cores.flatMap corePages ++ (plainBlocks.filter fun b => (pageDom b.1 0).isSome).flatMap fun b =>
      (List.range b.2.2).flatMap fun i => (List.range b.2.1).map fun q => { blk := b.1, inst := i, page := q }

/-- The domain of a key of Dom.key. -/
def Dom.ofKey (k : Nat) : Dom :=
  if k = 0 then .die else if k < 8 then .part (k - 1) else if k < 64 then .cluster (k - 8) else .core (k - 64)

/-- R13: the field of a cell keeps its value through a reset that is not cold; nothing stored of the common header does (R45 to R55).
All of MOD page 1 does but the phase stamps (R500). -/
def survives (key : Nat) : Bool :=
  if key / 2 ^ 32 / 64 / 4096 = 1 then key / 2 ^ 32 ≠ R.MOD1_PHASE_STAMP.code
  else match cellField key with
  | some f => decide (f.keep ≠ .none)
  | none => false

/-- R13: the registers of a domain's pages back at their Init values. -/
def State.pagesReset (s : State) (dom : Dom) : State :=
  let stays (k : Nat) : Bool :=
    match pageDom (k / 2 ^ 32 / 64 / 65536) (k / 65536 % 65536) with
    | some d => !dom.contains d || survives k
    | none => true
  { s with regs := Tbl.keep s.regs fun k _ => stays k }

/-- A field of a domain's reset record or status, R480; a core keeps none. -/
def State.setDom (s : State) (d : Dom) (clu part die : Field) (v : Nat) : State :=
  match d with
  | .core _ => s
  | .cluster c => s.wf clu c v
  | .part p => s.wf part p v
  | .die => s.wf die 0 v

def State.setRst (s : State) (x : ResetRec) : State :=
  { s with rsts := s.rsts.map fun y => if y.dom = x.dom then x else y }

def State.rst (s : State) (d : Dom) : Option ResetRec := s.rsts.find? fun x => x.dom = d

/-! ### What a reset takes away -/

/-- R471: pips inside a core, an S-core's receive queue among them. -/
def State.leftover (s : State) (ck : Nat) : Nat := s.heldPips ck + (s.scSt ck).rx.length

/-- R475 step 2: an open request ends INTERRUPTED at a die's cut: the ring unit itself commits its END record, or keeps it until
there is room. -/
def State.dieEnd (s : State) (id : Nat) : State :=
  match s.req id with
  | none => s
  | some r =>
    let s1 := if r.fixed.isSome then
        (s.setCtx r.ctx fun c => { c with term := true }).setReq id fun x => { x with notes := x.notes ||| noteCtxTerminated }
      else s.fixOutcome id stInterrupted 0
    if (s1.ring r.ring).waiting.any fun d => d.op ≠ 0 then s1
    else match (s1.req id).bind (·.fixed) with
      | none => s1
      | some (st, rs) => s1.takeEnd id
          { ring := r.ring, op := 1, status := st, reason := rs, ctxLen := ((s1.ctxOf r.ctx).map (·.len)).getD 0 }

/-- R475, R476: every open command's record at a die's cut, as at its timeout; nothing is sent. -/
def State.cutCommands (s : State) : State :=
  s.each s.cmds fun t o => (t.setCmd o.qp o.cmdId fun x => { x with sent := true }).cutCmd o.qp o.cmdId

/-- R274: a stack's training kept in its retention registers. -/
def State.retain (s : State) : State :=
  let w (n : Nat) : Nat := pack [(s.rf R.HBM_TRAINED n, 0, 1), (s.rf R.HBM_RATE n, 1, 1), (s.rf R.HBM_INITIALISED n, 2, 1),
    (s.rf R.HBM_FAILED n, 3, 1)]
  { s with md := { s.md with hbmKept := (List.range 12).map fun n => (n, w n) } }

/-- R126: the residuals that the hops of collectives hold are lost: a record for each deterministic context, whose data they may be of. -/
def State.loseHops (s : State) : State :=
  if s.tor.coll.all fun c => c.2.resid.isEmpty then s
  else s.each (s.ctxs.filter fun c => c.2.det) fun t c =>
    t.logEvSev 0x0500 1 (torusPage 2).index (c.2.reuse * 65536 + c.1) [c.2.reuse * 65536 + c.1, t.now, 0, 0]

/-- R336, R356, R394, R414, R473 to R475: what a warm die reset takes beside the cores. -/
def State.dieCut (s0 : State) : State :=
  let s := s0.loseHops
  let s1 := (s.each s.reqs fun t r => t.dieEnd r.id).cutCommands.abandonStage.retain
  let s2 := s1.each (Tbl.keys s1.qps ++ (List.range 1024).filter (fun q => s1.rf R.QP_STATE q ≠ 0 && !(Tbl.keys s1.qps).contains q))
    fun t q => t.qpLeave q true
  let mesh := (List.range 2).map fun h => Tbl.getD s2.clk.next h (Tbl.getD s2.clk.hold h (s2.meshMhz h))
  let core := s2.clk.corePend.foldl (fun t e => Tbl.put t e.1 e.2) s2.clk.core
  { s2 with
    held := [], cmds := [], doorbells := [], qps := [], ports := [], sems := [], resv := []
    irqLatch := [], msh := {}, clk := { core := core, mesh := mesh }
    sec := { s2.sec.cold with pubs := s2.sec.pubs, models := s2.sec.models, aliasOf := s2.sec.aliasOf, staging := s2.sec.staging,
                              kept := s2.sec.kept, sets := s2.sec.sets }
    dirs := []
    tor := { eps := s2.tor.eps, lsnSeq := s2.tor.lsnSeq, retired := s2.tor.retired }
    md := { s2.md with leave := 0, leaveCmd := none, withdrawn := false, ready := false } }

/-- What a cluster's or smaller domain's cut takes beside its cores: KV page tables go with a partition's rail (R472, R473). -/
def State.partCut (s : State) (cores : List Nat) : State :=
  s.each (cores.filter fun ck => kindOfLogical (ck % 64) = 1) fun t v =>
    let t1 := t.loseKv v
    let base := sramKey (t1.physOf v) (t1.rf R.VCORE_KV_PT_BASE v * 16)
    let n := 16384 * t1.rf R.VCORE_PT_ENTRIES v * 8
    { t1 with sram := Tbl.keep t1.sram fun a _ => !(decide (base ≤ a) && decide (a < base + n)) }

/-- Open requests whose outcome is not fixed. -/
def State.unfixed (s : State) : Nat := (s.reqs.filter fun r => r.fixed.isNone).length

/-- R150, R469, R472: what happens to one core of the domain at the cut. -/
def State.cutOne (s : State) (dom : Dom) (ck : Nat) : State :=
  let k := kindOfLogical (ck % 64)
  let s1 := if k = 0 then s.each (List.range 16) fun t n => t.progInterrupt (engInst ck n)
    else if k = 1 then s.each (s.vcSt ck).kvq fun t q => t.kvReply q.score 3
    else s
  s1.cutCoreClock dom ck

/-- Engines of a domain with an operation running. -/
def State.progEngines (s : State) (dom : Dom) : List Nat :=
  (s.prog.filter fun p => p.2.running.isSome && dom.contains (.core (engCore p.1))).map (·.1)

/-- Engines of a domain on which PILOT_EN is 0. -/
def State.unswept (s : State) (dom : Dom) : List Nat :=
  (s.regs.filter fun c => c.1 / 2 ^ 32 = R.ENG_PILOT_EN.code && c.2 = 0).map (fun c => c.1 / 65536 % 65536) |>.filter fun e =>
    dom.contains (.core (engCore e))

/-- R92, R147, R150: after the pages of a domain have been reset, from the state `before` the cut: the WPROG status as the operations
stand, what an interrupted operation raised, and the sweep clocks of the engines whose PILOT_EN is 1 again. -/
def State.mirrorProg (s : State) (dom : Dom) (before : State) : State :=
  let s1 := s.each (s.prog.filter fun p => dom.contains (.core (engCore p.1))) fun t p => t.setProg p.1 p.2
  let s2 := s1.each (before.progEngines dom) fun t e =>
    (t.setInt (wprogPage e) R.INT_WPROG_PROG_FAILED).setInt (engPage e) R.INT_ENG_BANK_STATE
  s2.each (before.unswept dom) fun t e => t.retrack e before

/-- R50, R469 step 1: GENERATION_CHANGED on every page inside. -/
def State.genChanged (s : State) (dom : Dom) : State := s.each dom.pages fun t p => t.setInt p 2

/-- RESET_CUT, R469 to R472, R475: the cut of a reset in progress, which then holds the domain in reset (R467). -/
def State.cut (s : State) (x : ResetRec) : State :=
  let dom := x.dom
  let cores := dom.cores.filter fun ck => !s.isAbsent ck
  let die := decide (dom = .die)
  let streams := ((cores.flatMap s.heldStreams) ++ x.streams).eraseDups
  let left := (cores.map s.leftover).sum
  let runs := cores.filter fun ck => s.rb (runField ck) ck
  let stand := cores.flatMap fun ck => (s.vcSt ck).standins.map fun q => (ck, q)
  let s1 := (s.bumpGen dom).each cores fun t ck => t.cutOne dom ck
  let s2 := if die then s1.dieCut else s1.breakScores cores
  let s3 := (s2.interruptStreams streams).2
  let s4 := (s3.interruptRoles (cores.filter fun ck => kindOfLogical (ck % 64) = 2)).2
  let s5 := s4.when (decide (2 ≤ dom.kind)) fun t => t.partCut cores
  let lost := s.unfixed - s5.unfixed
  let s6 := (((s5.each cores fun t ck => t.loseResiduals ck).pagesReset dom).mirrorProg dom s).genChanged dom
  let s7 := s6.when die fun t => t.each (List.range 12) fun u n => u.wf R.HBM_SELF_REFRESH n 1
  let s8 := ((s7.wf R.DIE_ANY_CUT_STAMP 0 s.now).wf R.DIE_ANY_SCOPE 0 dom.kind).wf R.DIE_ANY_TARGET 0 dom.target
  let s9 := (s8.setDom dom R.CLU_LAST_CUT_STAMP R.PART_LAST_CUT_STAMP R.DIE_LAST_CUT_STAMP s.now).setDom dom R.CLU_LEFTOVER
    R.PART_LEFTOVER R.DIE_LEFTOVER (min 65535 left)
  let s10 := (s9.setDom dom R.CLU_DRAINING R.PART_DRAINING R.DIE_DRAINING 0).setDom dom R.CLU_GATED R.PART_GATED R.DIE_GATED 1
  s10.setRst { x with
    phase := 3, cutStamp := s.now, cutAt := s.elapsed, leftover := min 65535 left, interrupted := min 65535 (x.interrupted + lost),
    streams := [], runs := (runs ++ x.runs).eraseDups, standins := x.standins ++ stand }

/-- R470: the elapsed time before which the cut may not come: 100 us after the last increment of GEN of a page inside. -/
def State.genFree (s : State) (dom : Dom) : Nat :=
  (s.genAt.filter fun e => dom.contains (Dom.ofKey e.1) || (Dom.ofKey e.1).contains dom).foldl (fun m e => max m (e.2 + 100000)) 0

/-- R470: the cut, or its wait. -/
def State.cutWhenFree (s : State) (x : ResetRec) : State :=
  if s.elapsed < s.genFree x.dom then (s.setRst { x with phase := 2 }).inc R.DIE_GEN_WAITS 0
  else s.cut x

/-! ### The gate -/

/-- R479: the completion of DOMAIN_RESET. -/
def resetWords (status gen left ended drain cut rel : Nat) : List Nat :=
  [pack [(status, 0, 8), (gen, 8, 8), (min 65535 left, 16, 16), (min 65535 ended, 32, 16), (drain, 48, 6)], cut, rel]

/-- R481: the counter of a domain's resets. -/
def resetCountF (d : Dom) : Field :=
  match d with
  | .core _ => R.DIE_CORE_RESETS | .cluster _ => R.DIE_CLUSTER_RESETS | .part _ => R.DIE_PARTITION_RESETS
  | .die => R.DIE_WARM_DIE_RESETS

/-- R478: the narrower resets that a wider one takes over, gone from the list: their records end ESCALATED. -/
def State.takeOver (s : State) (dom : Dom) : ResetRec × State :=
  let mine := s.rsts.filter fun r => dom.contains r.dom
  let base : ResetRec := { dom := dom, phase := 1, absorb := true, cause := 0, startStamp := s.now, startAt := s.elapsed }
  let x : ResetRec := { base with
    streams := mine.flatMap (·.streams), runs := mine.flatMap (·.runs), standins := mine.flatMap (·.standins),
    interrupted := 0, taken := mine.flatMap (fun r => r.cmd ++ r.merged ++ r.taken),
    ovr := mine.flatMap (fun r => r.dom :: r.ovr) }
  let s1 := mine.foldl (fun (t : State) r => (((t.setDom r.dom R.CLU_GATED R.PART_GATED R.DIE_GATED 0).setDom r.dom R.CLU_DRAINING
    R.PART_DRAINING R.DIE_DRAINING 0).setDom r.dom R.CLU_RESTORING R.PART_RESTORING R.DIE_RESTORING 0).setDom r.dom R.CLU_RSTATUS
      R.PART_RSTATUS R.DIE_RSTATUS 5) s
  (x, { s1 with rsts := s1.rsts.filter fun r => !dom.contains r.dom })

/-- R467: the gate of a reset that is not cold, and in absorb mode the cut that follows it. CAUSE as R480. -/
def State.startReset (s : State) (dom : Dom) (absorb : Bool) (cause : Nat) (cmd : List (Nat × Nat)) : State :=
  let (x0, s1) := s.takeOver dom
  let x : ResetRec := { x0 with absorb := absorb, cause := cause, cmd := cmd }
  let s2 := ({ s1 with rsts := s1.rsts ++ [x] }).inc (resetCountF dom) 0
  let s3 := (s2.setDom dom R.CLU_LAST_START_STAMP R.PART_LAST_START_STAMP R.DIE_LAST_START_STAMP s.now).setDom dom
    R.CLU_LAST_RELEASE_STAMP R.PART_LAST_RELEASE_STAMP R.DIE_LAST_RELEASE_STAMP 0
  let s4 := ((s3.setDom dom R.CLU_MODE R.PART_MODE R.DIE_MODE (bit absorb)).setDom dom R.CLU_CAUSE R.PART_CAUSE R.DIE_CAUSE
    cause).setDom dom R.CLU_GATED R.PART_GATED R.DIE_GATED 1
  let s5 := s4.setDom dom R.CLU_DRAINING R.PART_DRAINING R.DIE_DRAINING (bit !absorb)
  let s6 := (s5.setDom dom R.CLU_DRAIN_US R.PART_DRAIN_US R.DIE_DRAIN_US 0).when (decide (dom = .die)) fun t =>
    (((t.wf R.DIE_COLD 0 0).wf R.SERVE_SERVE_EN 0 0).wf R.MOD1_BOOT_KIND 0 1).setModState msResetting
  let s7 := if dom = .die then s6.each cmd fun t c => t.finish c.1 c.2 (resetWords 4 0 0 0 0 0 0) else s6
  let y : ResetRec := if dom = .die then { x with cmd := [] } else x
  let s8 := s7.setRst y
  if absorb then s8.cutWhenFree y else s8

/-- R538, R462, R478: a cold reset ordered through the DIE page or DOMAIN_RESET; its record is written on the DIE page after it. -/
def State.coldByReset (s : State) (absorb : Bool) (cause : Nat) (cmd : List (Nat × Nat)) : State :=
  let s1 := s.each cmd fun t c => t.finish c.1 c.2 (resetWords 4 0 0 0 0 0 0)
  let s2 := s1.coldStart
  (((s2.wf R.DIE_COLD 0 1).wf R.DIE_CAUSE 0 cause).wf R.DIE_MODE 0 (bit absorb)).wf R.DIE_LAST_START_STAMP 0 s2.now

/-- R499: a reset that waits for the end of a leave or of the cores phase. -/
def State.deferReset (s : State) (dom : Dom) (absorb : Bool) (cause : Nat) (cold : Bool) (cmd : List (Nat × Nat)) : State :=
  let x : ResetRec := { dom := dom, phase := 1, absorb := absorb, cause := cause, cold := cold, startStamp := s.now,
                        startAt := s.elapsed, cmd := cmd }
  { s with md := { s.md with late := s.md.late ++ [x] } }

/-- R467, R499: a reset begins, unless it must wait. -/
def State.beginReset (s : State) (dom : Dom) (absorb : Bool) (cause : Nat) (cold : Bool) (cmd : List (Nat × Nat)) : State :=
  if dom = .die ∧ s.modState = msLeaving then
    let s1 := s.deferReset dom absorb cause cold cmd
    if s1.md.leave = 1 then s1.leaveProceed else s1
  else if dom.kind = 2 ∧ s.modState = msCores then s.deferReset dom absorb cause cold cmd
  else if cold then s.coldByReset absorb cause cmd
  else s.startReset dom absorb cause cmd

/-- R499: the resets that waited start, in order. -/
def State.lateResets (s : State) : State :=
  let l := s.md.late
  l.foldl (fun (t : State) x => if t.gated x.dom then t else t.beginReset x.dom x.absorb x.cause x.cold x.cmd)
    { s with md := { s.md with late := [] } }

/-! ### DOMAIN_RESET and CTL.DOMAIN_RESET -/

/-- R479: TARGET names a domain of the scope. -/
def targetOk (scope target : Nat) : Bool :=
  if scope = 0 then decide (target < 2048) && decide (target % 64 ≤ 59) else if scope = 1 then decide (target < 32)
  else if scope = 2 then decide (target < 4) else decide (target = 0)

/-- R478: the widest reset in progress that holds the domain. -/
def State.holding (s : State) (dom : Dom) : Option ResetRec := s.rsts.find? fun r => r.dom.contains dom

/-- DOMAIN_RESET, R479. -/
def State.domainReset (s : State) (i : Instr) (c : Cmd) : State :=
  s.vorane i 0x47 c .l (c.bodyWords = 1) fun t =>
    let scope := c.f 0 0 2
    let target := c.f 0 16 16
    let dom := Dom.of scope target
    let cold := c.b 0 3
    let no (st : Nat) : State := t.reply c (resetWords st 0 0 0 0 0 0)
    if c.f 0 4 12 ≠ 0 ∨ c.f 0 32 32 ≠ 0 ∨ (cold ∧ scope ≠ 3) ∨ !targetOk scope target then no 1
    else if scope = 0 ∧ t.isAbsent target then no 2
    else if cold ∧ t.thermalHold then no 6
    else match t.holding dom with
      | some r => (t.setRst { r with merged := r.merged ++ [(c.qp, c.cmdId)] }).takeEffect c.qp c.cmdId
          (resetWords 3 (t.gen dom) 0 0 0 r.cutStamp 0)
      | none =>
        let t1 := t.takeEffect c.qp c.cmdId (resetWords (if scope = 3 then 4 else 0) (t.gen dom) 0 0 0 0 0)
        t1.beginReset dom (c.b 0 2) (t.rf R.QP_PORT c.qp) cold [(c.qp, c.cmdId)]

/-- CTL.DOMAIN_RESET of a domain's page, R48, R57, R462: `cause` 0 HOST_A, 1 HOST_B, 2 OASIS. A cold reset refused under R538 leaves
its RSTATUS. -/
def State.ctlReset (s : State) (dom : Dom) (absorb cold : Bool) (cause : Nat) : State :=
  let absent : Bool := match dom with
    | .core ck => s.isAbsent ck
    | _ => false
  if absent ∨ s.gated dom then s
  else if cold ∧ s.thermalHold then s.wf R.DIE_RSTATUS 0 6
  else s.beginReset dom absorb cause cold []

/-! ### Drain, cut, release -/

/-- R468: nothing of the domain is inside: no step runs, no pip waits, no credit granted is unconsumed. -/
def State.drained_ (s : State) (dom : Dom) : Bool :=
  dom.cores.all fun ck => s.isAbsent ck ||
    (decide (s.leftover ck = 0) && (s.mcSt ck).steps.isEmpty && (s.vcSt ck).step.isNone && (s.heldStreams ck).isEmpty)

/-- DRAIN_END, R468: at empty, or 50 us after the gate. -/
def State.drainEnd (s : State) (dom : Dom) : State :=
  match s.rst dom with
  | none => s
  | some x =>
    if x.phase ≠ 1 ∨ x.absorb then s
    else if s.drained_ dom ∨ x.startAt + 50000 ≤ s.elapsed then
      let us := min 50 ((s.elapsed - x.startAt) / 1000)
      (s.setDom dom R.CLU_DRAIN_US R.PART_DRAIN_US R.DIE_DRAIN_US us).cutWhenFree { x with drainUs := us }
    else s

/-- GEN_WAIT_END, R470; the wait is not counted in the bound of R474. -/
def State.genWaitEnd (s : State) (dom : Dom) : State :=
  match s.rst dom with
  | none => s
  | some x =>
    if x.phase ≠ 2 ∨ s.elapsed < s.genFree dom then s
    else s.cut { x with startAt := x.startAt + (s.elapsed - x.startAt - 1000 * x.drainUs) }

/-- RESET_PHASE_END, R57, R467: the Reset phase ends: the rail of a partition is on again, and Restore begins; a die starts anew
from PLATFORM (R484). -/
def State.resetPhaseEnd (s : State) (dom : Dom) : State :=
  match s.rst dom with
  | none => s
  | some x =>
    if x.phase ≠ 3 then s
    else
      let s1 := (s.setRst { x with phase := 4 }).setDom dom R.CLU_RESTORING R.PART_RESTORING R.DIE_RESTORING 1
      if dom = .die then s1.phaseStart 1 msPlatform else s1

/-- R466: the cores of a reset that a hang caused are released now. -/
def State.noteHang (s : State) (x : ResetRec) : State :=
  if x.cause ≠ 3 then s
  else match x.dom with
    | .core ck => { s with md := { s.md with hangAt := Tbl.put s.md.hangAt (s.physOf ck) s.elapsed } }
    | _ => s

/-- R165, R473: contexts and variants as a warm die reset leaves them at release. -/
def State.dieRelease (s : State) : State :=
  let s1 := { s with ctxs := [], kv := [] }
  let s2 := s1.each (List.range 64) fun t v =>
    if t.vstate v = vDraining then
      let t1 := (t.clearEpoch v (t.rf R.SERVE2_EPOCH 0 v)).setVState v vRegistered
      ({ t1 with sec := t1.sec.freeItems v }).setVar v { t1.var v with retiring := none, drainSent := false }
    else if t.vstate v = vStaging then
      let t1 := { t.setVState v vRegistered with sec := t.sec.freeItems v }
      t1.setVar v { t1.var v with activating := none }
    else t
  let s3 := s2.each (List.range 64) fun t v => if t.vstate v = vEmpty then t else t.countServe v 0
  { s3 with sec := { s3.sec with staging := [] } }

/-- R436, R473: a page register that a kept item sets, written again where no reset keeps it. -/
def State.resetting (s : State) (dom : Dom) (e : Nat × Nat × Nat) : State :=
  let p := Page.ofIndex ((e.2.1 - 0x200000000000) / 4096)
  let off := e.2.1 % 4096
  if off < 0x100 ∨ (pageDom p.blk p.inst).all (fun d => !dom.contains d) then s
  else s.each (fieldsOf p.blk p.page) fun t f =>
    match f.indexAt off with
    | some k => if f.acc = .rw ∧ f.keep = .none then t.wf f p.inst (bitsOf e.2.2 f.lo f.len) k else t
    | none => t

/-- R467, R473, R491 step 1: what a domain lost is reloaded from the items kept: registers, and for a partition or the die the tables in
SRAM. -/
def State.reload (s : State) (dom : Dom) : State :=
  let s1 := s.each s.sec.sets fun t e => t.resetting dom e
  s1.when (decide (2 ≤ dom.kind)) fun t => t.each (t.sec.kept.filter fun k => dom.contains (.core k.core)) fun u k =>
    u.reloadItem k false

/-- R467, R471, R472, R478, R480: the release of a domain. `bad`: S-cores whose code region did not rehash (R427): they stay halted. -/
def State.release (s : State) (x : ResetRec) (bad : List Nat) : State :=
  let dom := x.dom
  let before := s.unfixed
  let s0 := if dom = .die then s.dieRelease else s
  let s1 := (s0.interruptStreams x.streams).2
  let ended := min 65535 (x.interrupted + (before - s1.unfixed))
  let s2 := ({ s1 with rsts := s1.rsts.filter fun r => r.dom ≠ dom }).reload dom
  let s3 := s2.each x.runs fun t ck =>
    if t.isAbsent ck || t.coreFenced ck then t
    else if kindOfLogical (ck % 64) ≠ 2 then t.wf (runField ck) ck 1
    else if bad.contains ck then t
    else (t.wf R.SCORE_CODE_LOCK ck 1).scoreStart ck
  let s4 := (s3.noteHang x).each (dom :: x.ovr) fun t d =>
    (((t.setDom d R.CLU_LAST_RELEASE_STAMP R.PART_LAST_RELEASE_STAMP R.DIE_LAST_RELEASE_STAMP s.now).setDom d R.CLU_GATED R.PART_GATED
      R.DIE_GATED 0).setDom d R.CLU_DRAINING R.PART_DRAINING R.DIE_DRAINING 0).setDom d R.CLU_RESTORING R.PART_RESTORING
        R.DIE_RESTORING 0
  let s5 := (s4.setDom dom R.CLU_INTERRUPTED R.PART_INTERRUPTED R.DIE_INTERRUPTED ended).setDom dom R.CLU_RSTATUS R.PART_RSTATUS
    R.DIE_RSTATUS 0
  let ints := 2 ^ R.INT_DIE_RESET_DONE + (if x.leftover ≠ 0 then 2 ^ R.INT_DIE_LEFTOVER else 0)
  let s6 := if dom.kind = 0 then s5 else s5.setInts dom.page ints
  let words (st : Nat) : List Nat := resetWords st (s6.gen dom) x.leftover ended x.drainUs x.cutStamp s6.now
  let s7 := s6.each x.cmd fun t c => t.finish c.1 c.2 (words 0)
  let s8 := s7.each x.merged fun t c => t.finish c.1 c.2 (words 3)
  let s9 := s8.each x.taken fun t c => t.finish c.1 c.2 (words 5)
  let s10 := s9.each x.standins fun t q => t.mesh 7 q.1 [q.2.mcore, q.2.step, q.2.eng, q.2.xref]
  let s11 := s10.each (s10.prog.filter fun p => dom.contains (.core (engCore p.1))) fun t p => t.tryOwed p.1
  s11.each (s11.bufs.filter fun b => dom.contains (.core (b.1 / 512))) fun t b =>
    t.serveQueue (b.1 / 512) (b.1 % 512) (b.2.queue.length + 1)

/-- RESET_RELEASE, R467: a domain below the die is released; the die's release is the end of its cores phase (R491). -/
def State.resetRelease (s : State) (dom : Dom) (bad : List Nat) : State :=
  match s.rst dom with
  | none => s
  | some x => if x.phase ≠ 4 ∨ dom = .die then s else s.release x bad

/-! ### Hangs -/

/-- R463: a hang counted and recorded with its unit and limit. -/
def State.hangRec (s : State) (unit limit : Nat) : State :=
  (s.inc R.DIE_HANGS 0).logEv 0x0504 (corePage unit).index 0 [unit, limit, 0, 0]

/-- R463: a reset past its bound counted and recorded, on its domain's page. -/
def State.resetHang (s : State) (dom : Dom) (limit : Nat) : State :=
  (s.inc R.DIE_HANGS 0).logEv 0x0504 dom.page.index 0 [dom.key, limit, 0, 0]

/-- R463, R466, R478: a hang of a logical core: counted, recorded, and answered with an absorb reset unless its domain is held
already; a core that hangs again too soon is evidence against it. -/
def State.hang (s : State) (ck limit : Nat) : State :=
  let pc := s.physOf ck
  let again := match Tbl.get? s.md.hangAt pc with
    | some t => decide (s.elapsed < t + 1000000000 * s.rf R.DIE_HANG_REPEAT_S 0)
    | none => false
  let s1 := s.hangRec ck limit
  let s2 := if again then s1.evidence pc 0x15 0 else s1
  if s2.gated (.core ck) then s2 else s2.beginReset (.core ck) true 3 false []

/-- STEP_WATCHDOG, R464: a step of an M-core has run longer than STEP_LIMIT_US, `waited` ns of waits and holds left out. -/
def State.stepWatchdog (s : State) (ck id waited : Nat) : State :=
  let lim := s.rf R.DIE_STEP_LIMIT_US 0
  match s.stepOf ck id with
  | none => s
  | some x => if s.elapsed ≤ x.firedAt + waited + 1000 * lim ∨ x.done then s else s.hang ck lim

/-- KERNEL_OVERRUN, R210, R463. -/
def State.overrun (s : State) (v : Nat) : State :=
  let lim := match (s.vcSt v).step with
    | none => 0
    | some k => s.kernelLimit v k
  match s.kernelOverrun v with
  | (false, _) => s
  | (true, t) => t.hang v lim

/-- HEARTBEAT_LOST, R225, R463: an S-core's heartbeat has stopped for HEARTBEAT_LIMIT. -/
def State.heartbeatLost (s : State) (ck : Nat) : State :=
  let lim := s.rf R.SCORE_HEARTBEAT_LIMIT ck
  if !s.isScore ck ∨ !s.rb R.SCORE_RUN ck ∨ s.gated (.core ck) ∨ s.elapsed < (s.scSt ck).beatAt + 1000 * lim then s
  else ((s.setInt (scorePage ck) R.INT_SCORE_HEARTBEAT_LOST).hang ck lim).handover ck

/-- R465: complete sets of a core that wait on a channel: arrival, buffer and set index. -/
def State.waitingOn (s : State) (ck dest stream : Nat) : List (Nat × Nat × Nat) :=
  if kindOfLogical (ck % 64) = 0 then (s.readySets ck).filter fun r =>
    let (w, _, ent, needs) := s.setNeeds ck r.2.1 r.2.2
    outStreamOf w ent = stream && needs.any fun q => q.1 = dest && decide (s.chanFree ck dest stream < q.2)
  else if kindOfLogical (ck % 64) = 1 then (s.vReady ck).filter fun r =>
    let w := s.kernWords ck r.2.1
    kOutStream w = stream && (kNeeds w).any fun q => q.1 = dest && decide (s.chanFree ck dest stream < q.2)
  else []

/-- NOBUF_LIMIT, R465: the oldest set that waits on a channel refused for NOBUF_LIMIT_MS is discarded unfired. -/
def State.nobufLimit (s : State) (ck dest stream : Nat) : State :=
  match (s.chan ck dest stream).bind (·.noBuf) with
  | none => s
  | some t0 =>
    if s.elapsed < t0 + 1000000 * s.rf R.DIE_NOBUF_LIMIT_MS 0 then s
    else match firstReady (s.waitingOn ck dest stream) with
      | none => s
      | some (_, d, n) =>
        let m := decide (kindOfLogical (ck % 64) = 0)
        let b := s.buf ck d
        let taken := setPips (if m then dInPips (s.descWords ck d) else kInPips (s.kernWords ck d)) n b.pips
        let s1 := (s.setBuf ck d { b with pips := b.pips.filter fun p => !taken.contains p }).freeSet ck d (taken.map (s.bufGet ck))
        let s2 := (s1.inc (if m then R.MCORE_UNMATCHED else R.VCORE_UNMATCHED) ck).inc R.DIE_NOBUF_GIVEUPS 0
        (s2.hangRec ck (s.rf R.DIE_NOBUF_LIMIT_MS 0)).notice (s.bufStream ck d) 3

/-- R474: the bound of a reset in ns. -/
def resetBound (d : Dom) : Nat :=
  match d with
  | .core _ => 200000 | .cluster _ => 2000000 | .part _ => 60000000 | .die => 1800000000

/-- RESET_ESCALATION, R463, R478: a reset not released within its bound is a hang, and gives way to an absorb reset of the smallest domain that
contains it; a warm die reset gives way to a cold one. -/
def State.resetEscalation (s : State) (dom : Dom) : State :=
  match s.rst dom with
  | none => s
  | some x =>
    if s.elapsed ≤ x.startAt + resetBound dom ∨ !s.rb R.DIE_ESCALATE 0 then s
    else if dom = .die then
      let s1 := (s.resetHang dom (resetBound dom)).coldByReset true 4 []
      (s1.inc R.DIE_ESCALATIONS 0).setInt diePage R.INT_DIE_ESCALATED
    else
      let s1 := ((s.resetHang dom (resetBound dom)).inc R.DIE_ESCALATIONS 0).startReset dom.parent true 4 []
      s1.setInt dom.parent.page R.INT_DIE_ESCALATED

/-! ### Commands -/

/-- DOMAIN_RESET, R479. -/
def execDomainReset (c : Cmd) (s : State) : Host.Outcome State Fault Refusal := .next (s.domainReset (.domainReset c) c)

/-- DRAIN_END, R468. -/
def execDrainEnd (scope target : Nat) (s : State) : Host.Outcome State Fault Refusal := .next (s.drainEnd (Dom.of scope target))

/-- RESET_PHASE_END, R467. -/
def execResetPhaseEnd (scope target : Nat) (s : State) : Host.Outcome State Fault Refusal :=
  .next (s.resetPhaseEnd (Dom.of scope target))

/-- RESET_RELEASE, R467. -/
def execResetRelease (scope target : Nat) (badCores : List Nat) (s : State) : Host.Outcome State Fault Refusal :=
  .next (s.resetRelease (Dom.of scope target) badCores)

/-- GEN_WAIT_END, R470. -/
def execGenWaitEnd (scope target : Nat) (s : State) : Host.Outcome State Fault Refusal := .next (s.genWaitEnd (Dom.of scope target))

/-- STEP_WATCHDOG, R464. -/
def execStepWatchdog (ck id waited : Nat) (s : State) : Host.Outcome State Fault Refusal := .next (s.stepWatchdog ck id waited)

/-- KERNEL_OVERRUN, R210. -/
def execKernelOverrun (v : Nat) (s : State) : Host.Outcome State Fault Refusal := .next (s.overrun v)

/-- HEARTBEAT_LOST, R225. -/
def execHeartbeatLost (ck : Nat) (s : State) : Host.Outcome State Fault Refusal := .next (s.heartbeatLost ck)

/-- NOBUF_LIMIT, R465. -/
def execNobufLimit (ck dest stream : Nat) (s : State) : Host.Outcome State Fault Refusal := .next (s.nobufLimit ck dest stream)

/-- RESET_ESCALATION, R463. -/
def execResetEscalation (scope target : Nat) (s : State) : Host.Outcome State Fault Refusal :=
  .next (s.resetEscalation (Dom.of scope target))

/-- ROUTE_HOLD_END, R378, R499: a reset that waited for the leave to end starts after it. -/
def execRouteHoldEnd (s : State) : Host.Outcome State Fault Refusal :=
  .next (let t := s.routeHoldEnd
    if t.modState = msLeaving then t else if t.md.leave = 0 ∧ s.md.leave = 2 then t.lateResets else t)

end Sys2Proof.Machine
end

