-- ==== Sys2Proof/Machine/Bringup.lean ====
section
/-! DEFINITION. Power-on and bring-up (R484 to R491), the ROM's choices (R416, R417, R424, R486, R487) and leaving (R496 to R499). -/

namespace Sys2Proof.Machine

/-! ### The ROM phase -/

/-- COLD_START, R484, R558, R562: the board releases the reset input with 48 V valid. -/
def State.boardStart (s : State) (floating : Nat) : State :=
  if !s.md.powered ∨ s.md.started then s
  else
    let s1 := ({ s with md := { s.md with resetN := false } }).readStraps floating
    (s1.wf R.BOARD_FLASH_OWNED 0 1).phaseStart 0 msRom

/-- R561: the module stays in recovery and gives up the flash. -/
def State.recovery (s : State) (cause : Nat) : State :=
  ((s.wf R.MOD1_FAIL_CAUSE 0 cause).setModState msRecovery).wf R.BOARD_FLASH_OWNED 0 0

/-- Six words of a SHA-384 in a register array. -/
def State.putDigest (s : State) (f : Field) (ws : List Nat) : State :=
  s.each (List.range 6) fun t k => t.wf f 0 (ws.getD k 0) k

/-- R486: a copy reported bad. -/
def State.copyBad (s : State) (copy : Nat) : State :=
  (s.setInt (vaultPage 0) R.INT_VAULT_COPY_BAD).unitEv 0xB (vaultPage 0) copy copy false

/-- R486: the copy to use, with the reports; none where neither verifies. -/
def State.chooseCopy (s : State) (b : Boot) : Option Nat × State :=
  let s1 := ((s.wf R.VAULT_COPY0_VALID 0 (bit b.ok0)).wf R.VAULT_COPY1_VALID 0 (bit b.ok1)).wf R.VAULT_VERIFY_STAMP 0 s.now
  let use (t : State) (n : Nat) : Option Nat × State :=
    (some n, ((t.wf R.VAULT_COPY_IN_USE 0 n).wf R.VAULT_VAULT_SEQ 0 (if n = 0 then b.seq0 else b.seq1)).putDigest
      R.VAULT_VAULT_DIGEST b.digest)
  if b.ok0 && b.ok1 then
    if b.equal then use s1 0
    else if b.seq0 < b.seq1 then use (s1.copyBad 0) 1
    else use (s1.copyBad 1) 0
  else if b.ok0 then use (s1.copyBad 1) 0
  else if b.ok1 then use (s1.copyBad 0) 1
  else (none, s1)

/-- R487: with no valid slot, an empty record is written: every core is as the factory has it. -/
def State.emptyRecord (s : State) : State :=
  let stays (k : Nat) : Bool :=
    match cellField k with
    | some f => !((f.blk = 0x16 && decide (f.keep = .journal)) || f.blk = 0x18 || (f.blk = 0x0A && f.off = 0x10))
    | none => true
  let s1 := { s with regs := Tbl.keep s.regs fun k _ => stays k }
  (((s1.wf R.VAULT_FIELD_SEQ 0 (s.rf R.VAULT_FIELD_SEQ 0 + 1)).wf R.VAULT_FIELD_FENCES 0 0).unitEv 0xB (vaultPage 0) 0 0 false).countAbsent

/-- R447, R454: the rungs recorded, in force again: rails up with their raise, clock limits applied. -/
def State.restoreRungs (s : State) : State :=
  (s.each (List.range 4) fun t p => t.wf R.PART_RAISE_STEPS p (min 8 (t.railWant p))).applyClocks allPhys

/-- R416, R417: the identity. -/
def State.identity (s : State) (b : Boot) : State :=
  let s1 := ((s.putDigest R.KEYS_DEVID_DIGEST b.devid).putDigest R.KEYS_WRAP_DIGEST b.wrap).putDigest R.KEYS_ALIAS_DIGEST b.aliasKey
  if b.idOk then s1.wf R.KEYS_IDENTITY_READY 0 1
  else ((s1.wf R.KEYS_IDENTITY_READY 0 0).setInt (keysPage 0) R.INT_KEYS_IDENTITY_FAIL).unitEv 0xB (keysPage 0) 0 0 false

/-- R424, R425: a slot's image verifies and is not below the security floor. -/
def State.verifies (s : State) (b : Boot) (t : Nat) : Bool :=
  (if t = 0 then b.verifyA else b.verifyB) && decide (s.rf R.KEYS_SECURITY_FLOOR 0 ≤ s.rf (slotSecurityF t) 0)

/-- R424: a slot's image boots; R418: the alias certificate carries its runtime digest and SECURITY_VERSION. -/
def State.bootSlot (s : State) (t : Nat) (trial : Bool) : State :=
  let s1 := ((s.wf R.OASIS3_RUNNING_SLOT 0 t).wf R.OASIS3_RUNNING_TRIAL 0 (bit trial)).wf R.KEYS_TRIAL_BOOT 0 (bit trial)
  let rt := Tbl.getD s.oa.sections (t * 8 + 1) (Config.factorySection 1)
  let s2 := { s1 with sec := { s1.sec with aliasOf := some (rt, s.rf (slotSecurityF t) 0) } }
  (s2.wf R.KEYS_BOOT_SLOT 0 t).wf R.KEYS_IMAGE_VERSION 0 (s.rf (slotVersionF t) 0)

/-- R424: the first of the slots in a state that verifies boots; those that do not are BAD. -/
def State.bootFrom (s : State) (b : Boot) : List Nat → Option State × State
  | [] => (none, s)
  | t :: rest =>
    if s.verifies b t then (some ((s.wf (slotStateF t) 0 2).bootSlot t false), s)
    else (s.wf (slotStateF t) 0 4).bootFrom b rest

/-- R424: the image the ROM boots; none where it stays in recovery. -/
def State.chooseImage (s : State) (b : Boot) : Option State × State :=
  let inState (u : State) (n : Nat) : List Nat := [0, 1].filter fun t => u.rf (slotStateF t) 0 = n
  let fall (u : State) : Option State × State := u.bootFrom b (inState u 2 ++ inState u 3)
  match inState s 1 with
  | [] => fall s
  | t :: _ =>
    let bad (u : State) : State := u.wf (slotStateF t) 0 4
    if Tbl.getD s.oa.tries t 0 ≠ 0 then fall (bad s)
    else
      let s1 := { s with oa := { s.oa with tries := Tbl.put s.oa.tries t 1 } }
      if s1.verifies b t then (some (s1.bootSlot t true), s1) else fall (bad s1)

/-- R524, R529: an activated image that is not the one running has failed its trial. -/
def State.trialOutcome (s : State) : State :=
  let s1 := { s with oa := { s.oa with activated := false } }
  if s.oa.activated ∧ !s.rb R.OASIS3_RUNNING_TRIAL 0 then s1.logEvSev 0x0B02 3 oasis3Page.index 0 [1, 5, 0, 0] else s1

/-- ROM_PHASE_END, R484, R486, R487, R416, R561, R424. -/
def State.romEnd (s : State) (b : Boot) : State :=
  if s.modState ≠ msRom ∨ !s.md.started then s
  else match s.chooseCopy b with
    | (none, s1) => s1.recovery 1
    | (some _, s1) =>
      let s2 := (if b.recordOk then s1 else s1.emptyRecord).wf R.VAULT_FIELD_RECORD_VALID 0 1
      let s3 := (((s2.restoreRungs.identity b).wf R.BOARD1_JEDEC_ID 0 b.jedec).wf R.BOARD1_SIZE_MIB 0 b.sizeMib).wf R.BOARD1_OCTAL_DTR 0
        (bit b.flashOk) |>.inc R.BOARD1_FLASH_READ_ERRORS 0 b.readErrs
      if !b.flashOk ∨ b.sizeMib < 256 then (s3.boardFault 11 true).recovery 2
      else match s3.chooseImage b with
        | (none, s4) => s4.recovery 2
        | (some s4, _) => s4.trialOutcome.phaseStart 1 msPlatform

/-! ### The phases after it -/

/-- PLATFORM_PHASE_END, R484: `bad` lists the router ports whose link failed the flit patterns (R234); a warm start tests none. -/
def State.platformEnd (s : State) (bad : List (Nat × Nat)) : State :=
  if s.modState ≠ msPlatform then s
  else
    let fails := if s.rb R.MOD1_BOOT_KIND 0 then [] else bad.filter fun e => decide (e.1 < 512) && decide (e.2 < 9)
    let s1 := s.each fails fun t e =>
      (t.wf R.ROUTER_LINK_FAILED e.1 (t.rf R.ROUTER_LINK_FAILED e.1 ||| 2 ^ e.2)).blockErr (routerPage e.1) 0x10 e.2 0
        (2 ^ R.INT_ROUTER_LINK_FAILED)
    match fails with
    | [] => s1.phaseStart 2 msMemory
    | e :: _ => s1.dieFailure 4 e.1

/-- R274: training restored from the retention registers, and self-refresh left. -/
def State.restoreHbm (s : State) : State :=
  s.each (List.range 12) fun t n =>
    let w := Tbl.getD t.md.hbmKept n 0
    ((((t.wf R.HBM_TRAINED n (bitsOf w 0 1)).wf R.HBM_RATE n (bitsOf w 1 1)).wf R.HBM_INITIALISED n (bitsOf w 2 1)).wf R.HBM_FAILED n
      (bitsOf w 3 1)).wf R.HBM_SELF_REFRESH n 0

/-- R484: the Borsan directions that are enabled begin to train. -/
def State.linksStart (s : State) : State :=
  s.each (List.range 6) fun t d =>
    t.when (t.rb R.BORSAN_LINK_EN d && !t.rb R.BORSAN_FIBRE_REVERSED d && decide (t.rf R.BORSAN_LINK d = 0)) fun u => u.wf R.BORSAN_LINK d 1

/-- MEMORY_PHASE_END, R484: every stack trained and filled where it had to be; a warm start restores the training. -/
def State.memoryEnd (s : State) : State :=
  if s.modState ≠ msMemory then s
  else if s.rb R.MOD1_BOOT_KIND 0 then s.restoreHbm.linksStart.phaseStart 3 msLinks
  else if (List.range 12).all (fun n => s.rb R.HBM_TRAINED n) && s.md.fillDue.isEmpty then s.linksStart.phaseStart 3 msLinks
  else s

/-- LINKS_PHASE_END, R484. -/
def State.linksEnd (s : State) : State :=
  if s.modState ≠ msLinks then s
  else
    let s1 := { s with md := { s.md with tested := [] } }
    (s1.wf R.MOD1_BRINGUP_FENCES 0 0).phaseStart 4 msCores

/-- SELF_TEST_DONE, R459, R488, R489: a physical core's test ends: the parts that failed, engine by engine. The warm fast path tests
neither logic nor, but for a scrub of the shared structures, SRAM. -/
def State.selfTest (s : State) (pc engines : Nat) (sram logic ni : Bool) (signature : Nat) : State :=
  let part := s.rsts.any fun r => r.phase = 4 && r.dom = .part (partOfPhys pc)
  let cores := decide (s.modState = msCores)
  if s.rb R.PCORE_FENCED pc ∨ !(cores || part) then s
  else
    let warm := part || s.rb R.MOD1_BOOT_KIND 0
    let eng := if kindOfPhysical (pc % 64) = 0 then engines % 65536 else 0
    let lg := logic && !warm
    let ok := decide (eng = 0) && !sram && !lg && !ni
    let s1 := ((((s.wf R.PCORE1_TEST_KIND pc (if warm then 2 else 1)).wf R.PCORE1_PASSED pc (bit ok)).wf R.PCORE1_ENGINE_FAIL pc eng).wf
      R.PCORE1_SRAM_FAIL pc (bit sram)).wf R.PCORE1_LOGIC_FAIL pc (bit lg)
    let s2 := (s1.wf R.PCORE1_NI_FAIL pc (bit ni)).wf R.PCORE1_TEST_STAMP pc s.now
    let s3 := if warm then s2 else s2.wf R.PCORE1_SIGNATURE pc signature
    let s4 := { s3 with md := { s3.md with tested := if s3.md.tested.contains pc then s3.md.tested else pc :: s3.md.tested } }
    if ok then s4 else s4.evidence pc 0x14 (((List.range 16).find? fun n => eng.testBit n).getD 0)

/-- R490: every fence that waits, in order, with one switch of the map. -/
def State.bringupFences (s : State) : State :=
  let l := s.sen.fences
  let s1 := { s with sen := { s.sen with fences := [] } }
  (s1.fenceAll l).wf R.MOD1_BRINGUP_FENCES 0 l.length

/-- R225, R491: the roles of S-cores that are gone pass on. -/
def State.assignRoles (s : State) : State :=
  s.each ((List.range 32).flatMap fun c => [57, 58, 59].map fun k => c * 64 + k) fun t ck =>
    if t.isAbsent ck ∧ t.rf R.SCORE_ROLE ck ≠ 3 then t.handover ck else t

/-- CORES_PHASE_END, R490, R491: fences, roles and firmware; a warm die reset is released (R474), and the margins are planned anew
(R547). `bad`: S-cores whose image did not verify. Operations that Oasis owes (R150) and resets that waited start. -/
def State.coresEnd (s : State) (bad : List Nat) : State :=
  if s.modState ≠ msCores then s
  else
    let s1 := s.bringupFences
    let s2 := match s1.rst .die with
      | some x => s1.release x bad
      | none => s1
    let s3 := s2.assignRoles.phaseStart 5 msAwaitPlan
    let s4 := s3.each (Tbl.keys s3.prog) fun t e => t.tryOwed e
    (s4.when (s.rb R.MOD1_BOOT_KIND 0) fun t => t.replan).lateResets

/-- R484: the bound of a phase in ns, cold and warm. -/
def phaseBound (st : Nat) (warm : Bool) : Option (Nat × Nat) :=
  let ms (p c w : Nat) : Option (Nat × Nat) := some (p, 1000000 * (if warm then w else c))
  if st = msRom then ms 0 600 600 else if st = msPlatform then ms 1 200 20 else if st = msMemory then ms 2 1400 1
  else if st = msLinks then ms 3 500 300 else if st = msCores then ms 4 6200 1200
  else if st = msResetting ∧ warm then ms 0 100 100 else none

/-- PHASE_TIMEOUT, R485. -/
def State.phaseTimeout (s : State) : State :=
  let warm := s.rb R.MOD1_BOOT_KIND 0
  match phaseBound s.modState warm with
  | none => s
  | some (p, b) =>
    let from_ := if s.modState = msResetting then ((s.rst .die).map (·.startAt)).getD s.elapsed else s.md.phaseAt
    if s.elapsed ≤ from_ + b ∨ !s.md.started then s
    else if warm then
      if s.rb R.DIE_ESCALATE 0 then ((s.coldByReset true 4 []).inc R.DIE_ESCALATIONS 0).setInt diePage R.INT_DIE_ESCALATED else s
    else s.failWith 5 p

/-! ### Leaving -/

/-- MODULE_LEAVE, R496, R497, R499. -/
def State.moduleLeave (s : State) (i : Instr) (c : Cmd) : State :=
  s.vorane i 0x49 c .l (c.bodyWords = 1) fun t =>
    let lim := c.f 0 16 16
    let st := t.modState
    let now := c.b 0 0
    let start (u : State) : State :=
      let v := { u with md := { u.md with leaveCmd := some (c.qp, c.cmdId), interrupted := 0, bound := 0 } }
      v.takeEffect c.qp c.cmdId (v.leaveReply 2)
    if c.f 0 1 15 ≠ 0 ∨ c.f 0 32 32 ≠ 0 ∨ 3600 < lim then t.reply c [1, 0]
    else if st = msLeaving ∨ t.md.leave ≠ 0 then
      let u := t.reply c (t.leaveReply 2)
      if now ∧ u.md.leave = 1 then u.leaveProceed else u
    else if st = msLeft then t.reply c (t.leaveReply 3)
    else if st = msFailed then
      if t.md.withdrawn then t.reply c (t.leaveReply 4) else (start t).withdrawTorus
    else if st = msReady then
      let u := (start t).leaveGate
      if now then u.leaveProceed
      else { u with md := { u.md with leave := 1, leaveDue := u.elapsed + 1000000000 * (if lim = 0 then 30 else lim) } }
    else (start t).leaveGate.withdrawTorus

/-- LEAVE_DRAIN_DONE, R497 step 2: every request has ended and no epoch is bound. -/
def State.leaveDrained (s : State) : State :=
  if s.md.leave = 1 ∧ s.reqs.isEmpty ∧ s.nothingBound then s.leaveProceed else s

/-- LEAVE_LIMIT, R497 step 2. -/
def State.leaveLimit (s : State) : State := if s.md.leave = 1 ∧ s.md.leaveDue ≤ s.elapsed then s.leaveProceed else s

/-! ### Commands -/

/-- COLD_START, R484. -/
def execColdStart (floating : Nat) (s : State) : Host.Outcome State Fault Refusal := .next (s.boardStart floating)

/-- ROM_PHASE_END, R484. -/
def execRomPhaseEnd (b : Boot) (s : State) : Host.Outcome State Fault Refusal := .next (s.romEnd b)

/-- PLATFORM_PHASE_END, R484. -/
def execPlatformPhaseEnd (bad : List (Nat × Nat)) (s : State) : Host.Outcome State Fault Refusal := .next (s.platformEnd bad)

/-- MEMORY_PHASE_END, R484. -/
def execMemoryPhaseEnd (s : State) : Host.Outcome State Fault Refusal := .next s.memoryEnd

/-- LINKS_PHASE_END, R484. -/
def execLinksPhaseEnd (s : State) : Host.Outcome State Fault Refusal := .next s.linksEnd

/-- SELF_TEST_DONE, R489. -/
def execSelfTestDone (pc engines : Nat) (sramBad logicBad niBad : Bool) (signature : Nat) (s : State) :
    Host.Outcome State Fault Refusal := .next (s.selfTest (pc % 2048) engines sramBad logicBad niBad signature)

/-- CORES_PHASE_END, R491. -/
def execCoresPhaseEnd (badCores : List Nat) (s : State) : Host.Outcome State Fault Refusal := .next (s.coresEnd badCores)

/-- PHASE_TIMEOUT, R485. -/
def execPhaseTimeout (s : State) : Host.Outcome State Fault Refusal := .next s.phaseTimeout

/-- MODULE_LEAVE, R497. -/
def execModuleLeave (c : Cmd) (s : State) : Host.Outcome State Fault Refusal := .next (s.moduleLeave (.moduleLeave c) c)

/-- LEAVE_DRAIN_DONE, R497. -/
def execLeaveDrainDone (s : State) : Host.Outcome State Fault Refusal := .next s.leaveDrained

/-- LEAVE_LIMIT, R497. -/
def execLeaveLimit (s : State) : Host.Outcome State Fault Refusal := .next s.leaveLimit

end Sys2Proof.Machine
end

