-- ==== Sys2Proof/Machine/SCore.lean ====
section
/-! DEFINITION. What the hardware around an S-core does (R220 to R224): traps of R221 and R223, the local control block, pips sent
from and received into its SRAM, the mailbox and the machine timer; the pip/credit unit's send (R177, R210, R224); link
protection (R234). The instructions an S-core executes are not commands of this block. -/

namespace Sys2Proof.Machine

/-- The S-core executes: it is not halted (R222), absent or held in reset. -/
def State.scoreRuns (s : State) (ck : Nat) : Bool :=
  s.isScore ck && s.rb R.SCORE_RUNNING ck && !s.inReset (.core ck) && !s.restoring (.core ck)

/-! ### Traps -/

/-- R220: a trap taken in machine mode, as the privileged architecture gives: the pc saved in mepc, the interrupt enable and the
mode stacked, the pc at the base of mtvec. -/
def State.scoreTrap (s : State) (ck pc cause tval : Nat) : State :=
  let x := s.scSt ck
  s.setSc ck { x with
    mcause := cause, mtval := tval, mepc := pc, mpie := x.mie, mie := false, mpp := x.mode, mode := 3,
    pc := x.mtvec / 4 * 4 }

/-- R221, R228, R229: a trap with a custom cause is also shown on the SCORE page. -/
def State.customTrap (s : State) (ck pc cause tval : Nat) : State :=
  ((((s.scoreTrap ck pc cause tval).wf R.SCORE_TRAPPED ck 1).wf R.SCORE_LAST_TRAP_CAUSE ck cause).wf R.SCORE_LAST_TRAP_TVAL
    ck tval).wf R.SCORE_LAST_TRAP_STAMP ck s.now

/-- R223, R35: what an S-core address reaches: 0 external memory, 1 the core's own SRAM, 2 another core's SRAM, 3 the register
window, 4 the local control block, 5 nothing (the reserved rest of a slot included). -/
def scoreRegion (ck a : Nat) : Nat :=
  if a < 0x10000000000 then 0
  else if 0x100000000000 ≤ a ∧ a < 0x100800000000 then
    if 60 ≤ a / 2 ^ 24 % 64 ∨ sramSize (kindOfLogical (a / 2 ^ 24 % 64)) ≤ a % 2 ^ 24 then 5
    else if a / 2 ^ 24 % 64 = ck % 64 ∧ a / 2 ^ 30 % 32 = ck / 64 then 1 else 2
  else if 0x200000000000 ≤ a ∧ a < 0x210000000000 then 3
  else if 0x300000000000 ≤ a ∧ a < 0x300000001000 then 4
  else 5

/-- R205, R267, R432: the data at an S-core address are hollow: a hollow codeword of a core's SRAM or of external memory. -/
def State.hollowAt (s : State) (ck a : Nat) : Bool :=
  let r := scoreRegion ck a
  if r = 0 then
    match hbmDecode s.interleave a with
    | none => false
    | some (st, off) => s.rb R.HBM_FAILED st || s.hbmHollow st off
  else if r = 1 ∨ r = 2 then s.sramIsHollow (a / 2 ^ 30 % 32 * 64 + a / 2 ^ 24 % 64) (a % 2 ^ 24)
  else false

/-- HOLLOW_LOAD, R221: a load of `n` bytes that would return hollow data does not retire. `lost`: its codeword was found
uncorrectable by this load (R268, R432). -/
def State.hollowLoad (s : State) (ck pc a n : Nat) (lost : Bool) : State :=
  if s.scoreRuns ck && (lost || s.hollowAt ck a || s.hollowAt ck (a + n - 1)) then
    (s.customTrap ck pc 24 a).setInt (scorePage ck) R.INT_SCORE_HOLLOW_LOAD
  else s

/-- The exception an S-core access raises, R220, R222, R223, R262; none where it is allowed, or where the register window itself answers
MISALIGNED to an access that is not whole (R37). `kind`: 0 load, 1 store, 2 store-conditional or AMO, 3 load-reserved. Of a misaligned access to no region, the access fault is raised (DESIGN CHOICE, log 28). -/
def State.accessCause (s : State) (ck a n kind : Nat) : Option Nat :=
  let r := scoreRegion ck a
  let fault := if kind = 0 ∨ kind = 3 then 5 else 7
  let skew := if kind = 0 ∨ kind = 3 then 4 else 6
  let mis := decide (a % n ≠ 0)
  let code := r = 1 && s.rb R.SCORE_CODE_LOCK ck && decide (a % 2 ^ 24 < s.rf R.SCORE_CODE_LIMIT ck)
  if r = 5 ∨ (r = 2 ∧ s.isAbsent (a / 2 ^ 30 % 32 * 64 + a / 2 ^ 24 % 64)) ∨ (r = 0 ∧ (hbmDecode s.interleave a).isNone)
      ∨ scoreRegion ck (a + n - 1) ≠ r then some fault
  else if 2 ≤ kind ∧ 2 ≤ r then some fault
  else if code then some fault
  else if mis && (decide (2 ≤ kind) || decide (2 ≤ r)) then some skew
  else if r = 4 ∧ n ≠ 8 then some fault
  else none

/-- ACCESS_FAULT, R223: a load or store that the map, the code region or its alignment forbids raises the standard exception. -/
def State.accessFault (s : State) (ck pc a n kind : Nat) : State :=
  if s.scoreRuns ck then
    match s.accessCause ck a n kind with
    | some c => s.scoreTrap ck pc c a
    | none => s
  else s

/-! ### The local control block, R224 -/

/-- A write of HEARTBEAT restarts the heartbeat timer. -/
def State.beat (s : State) (ck : Nat) : State :=
  (s.setSc ck { s.scSt ck with beatAt := s.elapsed }).wf R.SCORE_LAST_HEARTBEAT ck s.now

/-- The machine timer interrupt is pending while MTIME is at or beyond MTIMECMP. -/
def State.timerLevel (s : State) (ck : Nat) : State :=
  s.setSc ck { s.scSt ck with timerIrq := decide (s.rf R.LCB_MTIMECMP ck ≤ s.now) }

/-- A write of TX_SEND: a send of the pip at an SRAM offset in 16-byte units waits for its credits. A pip whose header lies beyond
the SRAM is not sent. -/
def State.txSend (s : State) (ck off : Nat) : State :=
  if sramSize 2 < off * 16 + 32 then s
  else
    let x := s.scSt ck
    s.setSc ck { x with tx := x.tx ++ [off * 16] }

/-- RX_TAIL advanced to `v`: the pips consumed leave the receive queue and their credits go back. -/
def State.rxTail (s : State) (ck v : Nat) : State :=
  let old := s.rf R.LCB_RX_TAIL ck
  let n := (v + 65536 - old) % 65536
  let x := s.scSt ck
  let gone := x.rx.filter fun (e : Nat × Pip) => (e.1 + 65536 - old) % 65536 < n
  let left := x.rx.filter fun (e : Nat × Pip) => n ≤ (e.1 + 65536 - old) % 65536
  ((s.wf R.LCB_RX_TAIL ck v).setSc ck { x with rx := left }).each gone fun t e => t.freePip ck 0 e.2

/-- R298: a commit descriptor at a byte offset of the S-core's SRAM, a multiple of 32, becomes a doorbell that waits for the ring unit. -/
def State.ringDoorbell (s : State) (ck off : Nat) : State :=
  if off % 32 ≠ 0 ∨ sramSize 2 < off + 32 then s else { s with doorbells := s.doorbells ++ [s.bellAt ck off] }

/-- A store of a running S-core to its local control block. A reserved value discards the write (R12). -/
def State.lcbWrite (s : State) (ck off w : Nat) : State :=
  if off = 0x08 then (s.wf R.LCB_MTIMECMP ck w).timerLevel ck
  else if off = 0x10 then s.rxTail ck (bitsOf w 16 16)
  else if off = 0x18 then s.txSend ck w
  else if off = 0x28 then s.beat ck
  else if off = 0x30 then
    if bitsOf w 16 2 = 3 then s
    else
      let s1 := [R.LCB_KV_TARGET, R.LCB_KV_OP, R.LCB_KV_SLOT, R.LCB_KV_SLOT2, R.LCB_KV_COUNT].foldl
        (fun (t : State) (f : Field) => t.wf f ck (bitsOf w f.lo f.len)) s
      if w.testBit 63 && !s.rb R.LCB_KV_GO ck then s1.kvGo ck else s1
  else if off = 0x40 then s.ringDoorbell ck w
  else s

/-- A store to the local control block takes effect while the S-core runs. -/
def State.scoreStore (s : State) (ck off w : Nat) : State := if s.scoreRuns ck then s.lcbWrite ck off (w % 2 ^ 64) else s

/-- MTIMECMP_INTERRUPT, R224. -/
def State.mtimecmp (s : State) (ck : Nat) : State :=
  if s.isScore ck && !s.inReset (.core ck) && decide (s.rf R.LCB_MTIMECMP ck ≤ s.now) then s.timerLevel ck else s

/-- MAILBOX, R224: a mailbox packet loads MAILBOX and raises the mailbox interrupt. -/
def State.mailbox (s : State) (ck w : Nat) : State :=
  if s.isScore ck && !s.inReset (.core ck) then
    (s.wf R.LCB_MAILBOX ck w).setSc ck { s.scSt ck with mailIrq := true }
  else s

/-! ### Sending, R177 -/

/-- R237, R238: the pip stored at an offset of an S-core's SRAM. -/
def State.pipAt (s : State) (ck off : Nat) : Pip :=
  let w := s.sramWords ck off 4
  let n := wf_ w 1 8 11
  let cws := (List.range ((32 + n + 31) / 32 + 1)).map fun i => off + 32 * i
  { dest := wf_ w 0 0 16, stream := wf_ w 0 16 16, seq := wf_ w 0 32 16, gen := 0,
    hollow := wf_ w 0 56 1 = 1 || cws.any fun o => decide (o / 32 ≤ (off + 31 + n) / 32) && s.sramIsHollow ck o,
    last := wf_ w 0 57 1 = 1, epoch := wf_ w 0 58 2, drain := wf_ w 0 60 1 = 1, fmt := wf_ w 1 0 4, source := ck,
    payload := (List.range n).map fun i => s.sramRead ck (off + 32 + i) 1 }

/-- R224: the first waiting send whose channel holds its credits leaves; one channel's sends keep their order. -/
def State.txInject (s : State) (ck : Nat) : List Nat → List Nat → Option State
  | _, [] => none
  | before, o :: rest =>
    let p := s.pipAt ck o
    if before.any fun b => (s.pipAt ck b).dest = p.dest && (s.pipAt ck b).stream = p.stream then
      s.txInject ck (before ++ [o]) rest
    else
      match s.inject ck p 0 with
      | (some t, _) => some (t.setSc ck { t.scSt ck with tx := before ++ rest })
      | (none, _) => s.txInject ck (before ++ [o]) rest

/-- R224: an S-core's pip/credit unit sends, or asks for what its first waiting pip lacks. -/
def State.pipSendS (s : State) (ck : Nat) : State :=
  let l := (s.scSt ck).tx
  match s.txInject ck [] l with
  | some t => t
  | none =>
    match l with
    | [] => s
    | o :: _ => (s.inject ck (s.pipAt ck o) 0).2

/-- PIP_SEND, R177: the pip/credit unit of a core injects its next pip whose credits are held. -/
def State.pipSend (s : State) (ck : Nat) : State :=
  if 2048 ≤ ck ∨ 60 ≤ ck % 64 ∨ s.isAbsent ck then s
  else if kindOfLogical (ck % 64) = 0 then s.pipSendM ck
  else if kindOfLogical (ck % 64) = 1 then s.pipSendV ck
  else s.pipSendS ck

/-! ### Link protection, R234 -/

/-- R258: a flit that has crossed the seam is counted on its crossing. -/
def State.seamFlit (s : State) (r port : Nat) : State :=
  let row := r / 32
  if r % 32 = 16 ∧ port = 3 then s.inc R.SEAM_FLITS_EW row
  else if r % 32 = 15 ∧ port = 1 then s.inc R.SEAM_FLITS_WE row
  else s

/-- R234: a link has failed: shown where STATUS has a bit for its port, captured, and a die failure. A core port, which R255 gives no code,
is captured as 5 to 8 (DESIGN CHOICE, log 41). -/
def State.linkFailed (s : State) (r port : Nat) : State :=
  let s1 := if port = 4 then s.wf R.ROUTER_OUT_FAILED r 1
    else if 5 ≤ port then { s with msh := { s.msh with dead := portKey r port :: s.msh.dead } }
    else s.wf R.ROUTER_LINK_FAILED r (s.rf R.ROUTER_LINK_FAILED r ||| 2 ^ port)
  (s1.blockErr (routerPage r) 0x10 port 0 (2 ^ R.INT_ROUTER_LINK_FAILED)).dieFailure 4 r

/-- R234: a flit's CRC-32C, over its data bytes, checks good. -/
def flitGood (f : Flit) : Bool := crc32c f.data = f.crc

/-- FLIT_RECEIVE, R231 to R234: a flit at a port of a router. A good one is accepted into its class's buffer and forwarded in its turn; a
bad one is asked for again, and at its eighth failure in a row the link fails. -/
def State.flitReceive (s : State) (r port : Nat) (f : Flit) : State :=
  if !hasPort r port || s.linkDead r port then s
  else
    let k := portKey r port
    let m := s.msh
    if flitGood f then
      ((({ s with msh := { m with fails := Tbl.del m.fails k } }).seamFlit r port).acceptFlit r port).takeFlit r port f
    else
      let n := Tbl.getD m.fails k 0 + 1
      let s1 := { s with msh := { m with fails := Tbl.put m.fails k n } }
      let s2 := ((s1.inc R.ROUTER_CRC_ERRORS r).inc R.ROUTER_RETRIES r).setInt (routerPage r) R.INT_ROUTER_RETRY
      if n = 8 then s2.linkFailed r port else s2.retryFlit r port

/-! ### Commands -/

/-- SCORE_HEARTBEAT, R224. -/
def execScoreHeartbeat (ck w : Nat) (s : State) : Host.Outcome State Fault Refusal := .next (s.scoreStore ck 0x28 w)

/-- MTIMECMP_INTERRUPT, R224. -/
def execMtimecmpInterrupt (ck : Nat) (s : State) : Host.Outcome State Fault Refusal := .next (s.mtimecmp ck)

/-- TX_SEND, R224. -/
def execTxSend (ck w : Nat) (s : State) : Host.Outcome State Fault Refusal := .next (s.scoreStore ck 0x18 w)

/-- RX_TAIL_WRITE, R224. -/
def execRxTailWrite (ck w : Nat) (s : State) : Host.Outcome State Fault Refusal := .next (s.scoreStore ck 0x10 w)

/-- MAILBOX, R224. -/
def execMailbox (ck w : Nat) (s : State) : Host.Outcome State Fault Refusal := .next (s.mailbox ck w)

/-- HOLLOW_LOAD, R221. -/
def execHollowLoad (ck pc a n : Nat) (lost : Bool) (s : State) : Host.Outcome State Fault Refusal :=
  .next (s.hollowLoad ck pc a n lost)

/-- ACCESS_FAULT, R223. -/
def execAccessFault (ck pc a n kind : Nat) (s : State) : Host.Outcome State Fault Refusal := .next (s.accessFault ck pc a n kind)

/-- PIP_SEND, R177. -/
def execPipSend (ck : Nat) (s : State) : Host.Outcome State Fault Refusal := .next (s.pipSend ck)

/-- FLIT_RECEIVE, R234. -/
def execFlitReceive (r port : Nat) (data : List Nat) (side : FlitSide) (s : State) : Host.Outcome State Fault Refusal :=
  .next (s.flitReceive r port { toFlitSide := side, data := data })

end Sys2Proof.Machine
end

