-- ==== Sys2Proof/Machine/Access.lean ====
section
/-! DEFINITION. The register window: reads and writes of one word by a master (R37 to R59, R568, R569), with what a write to each
register sets in motion; the other regions of R34; REG_READ and REG_WRITE (R345). -/

namespace Sys2Proof.Machine

/-! ### Pages -/

/-- R60: the Oasis-only types. -/
def Page.oasisOnly (p : Page) : Bool := p.blk = 0x03 || p.blk = 0x04 || p.blk = 0x16

/-- R352: the HOST pages are guarded, by semaphore 0 or 1. -/
def Page.guarded (p : Page) : Bool := p.blk = 0x28

/-- R47: the pages that control a reset domain, and it. -/
def Page.resetDom (p : Page) : Option Dom :=
  if p.blk = 0x08 then some .die
  else if p.blk = 0x09 then some (.part p.inst)
  else if p.blk = 0x0A then some (.cluster p.inst)
  else if (p.blk = 0x10 ∧ p.page = 0) ∨ p.blk = 0x14 ∨ p.blk = 0x15 then some (.core p.inst)
  else none

/-- R568: the cluster whose area a page belongs to, for an S-core. -/
def Page.clusterOf (p : Page) : Option Nat :=
  if p.blk = 0x10 ∨ p.blk = 0x14 ∨ p.blk = 0x15 then some (p.inst / 64)
  else if p.blk = 0x11 ∨ p.blk = 0x12 ∨ p.blk = 0x13 then some (p.inst / 1024)
  else if p.blk = 0x0A then some p.inst
  else none

/-- R54: the pages that Oasis serves. -/
def Page.oasisServed (p : Page) : Bool := (pageDom p.blk p.inst).isNone

/-- R49: the logical core a page belongs to is absent. -/
def State.pageAbsent (s : State) (p : Page) : Bool :=
  match pageDom p.blk p.inst with
  | some (.core ck) => s.isAbsent ck
  | _ => false

/-- R49: the page's domain is in reset. -/
def State.pageReset (s : State) (p : Page) : Bool :=
  match pageDom p.blk p.inst with
  | some d => s.inReset d
  | none => false

/-- R57: the page's domain is in the Restore phase. -/
def State.pageRestore (s : State) (p : Page) : Bool :=
  match pageDom p.blk p.inst with
  | some d => s.restoring d
  | none => false

/-- R49: the unit behind the page is fenced: a physical core, or a logical core that no spare carries. -/
def State.pageFenced (s : State) (p : Page) : Bool :=
  if p.blk = 0x16 then s.rb R.PCORE_FENCED p.inst
  else match pageDom p.blk p.inst with
  | some (.core ck) => s.coreFenced ck
  | _ => false

/-- R49, R446: the unit behind the page is a physical core that stands on a rung of the suspect ladder. -/
def State.pageSuspect (s : State) (p : Page) : Bool :=
  if p.blk = 0x16 then s.rf R.PCORE_LEVEL p.inst ≠ 0
  else match pageDom p.blk p.inst with
  | some (.core ck) => s.rf R.PCORE_LEVEL (s.physOf ck) ≠ 0
  | _ => false

/-- R56: the module has reached READY since it last started. -/
def State.wasReady (s : State) : Bool := s.md.ready

/-- R46: the revision of the firmware that serves a page: that of the image the ROM has booted, and zero before. -/
def State.fwRevOf (s : State) (p : Page) : Nat :=
  if !(p.oasisServed || p.blk = 0x38 || p.blk = 0x39 || p.blk = 0x3A) ∨ s.modState = msRom ∨ s.modState = msRecovery then 0
  else Config.fwRev p.blk (s.rf R.KEYS_IMAGE_VERSION 0)

end Sys2Proof.Machine

namespace Sys2Proof

/-- R39, R60, R568: the master reaches the page. -/
def Master.reaches (m : Master) (p : Machine.Page) : Bool :=
  match m with
  | .oasis => true
  | .hostA _ => !p.oasisOnly
  | .hostB _ => !p.oasisOnly
  | .score ck => p.blk = 0x38 || p.blk = 0x39 || p.blk = 0x3A || p.blk = 0x02 || p.clusterOf = some (ck / 64)

/-- R569: the master may write a field restricted to one. -/
def Master.mayWrite (m : Master) (w : Machine.Writer) : Bool :=
  match w, m with
  | .any, _ => true
  | .oasis, .oasis => true
  | .score, .score _ => true
  | _, _ => false

end Sys2Proof

namespace Sys2Proof.Machine

/-! ### Results, R59 -/

def arOk : Nat := 0
def arNoPage : Nat := 1
def arDenied : Nat := 2
def arNotOwner : Nat := 3
def arInReset : Nat := 4
def arBadEncoding : Nat := 5
def arMisaligned : Nat := 6
def arRefused : Nat := 7

/-- R50, R52, R59: a failed access: captured with its cause, except NO_PAGE, and written to the event log. -/
def State.accessFail (s : State) (m : Master) (p : Page) (addr data result cause : Nat) : State :=
  let cap := pack [(cause, 0, 8), (m.code, 8, 3), (m.source, 16, 16)]
  if result = arNoPage then s.logEv 0x0202 0 0 [addr, data, cap, 0]
  else ((s.capture p addr data cause m.code m.source).setInt p 0).logEv 0x0202 p.index 0 [addr, data, cap, 0]

/-- R48, R52: ERR_CAP0 to ERR_CAP3 emptied and armed. -/
def State.rearm (s : State) (p : Page) : State :=
  [p.errValid, p.errAddr, p.errData, p.errCause, p.errMaster, p.errSource, p.errMore, p.errStamp].foldl
    (fun (t : State) (f : Field) => t.clr f p.inst) s

/-- R394: the route table entry that ROUTE_INDEX and ROUTE_BANK select. -/
def State.selectedRoute (s : State) : Nat :=
  Tbl.getD (if s.rf R.TORUS_ROUTE_BANK 0 = 0 then s.tor.bank0 else s.tor.bank1) (s.rf R.TORUS_ROUTE_INDEX 0) 0

/-- R322: CONSUMED may take this value: a committed SEQ not older than the present one. -/
def State.consumedOk (s : State) (r v : Nat) : Bool :=
  let old := s.rf R.RING_CONSUMED r
  v = old || decide (seqDist old v < seqDist old (s.rf R.RING_NEXT_SEQ r))

/-! ### Reads -/

/-- The fields of a word of a page, with the index of each. -/
def wordFields (p : Page) (off : Nat) : List (Field × Nat) :=
  (fieldsOf p.blk p.page).filterMap fun f => (f.indexAt off).map fun k => (f, k)

/-- The value of a field that is computed when it is read. -/
def State.computed (s : State) (f : Field) (i k : Nat) : Option Nat :=
  if f = R.WPROG_ELAPSED then some s.powered
  else if f = R.WPROG_SWAP_LIMIT then some (s.govLimit i 0 s.powered)
  else if f = R.WPROG_RETRIM_LIMIT then some (s.govLimit i 1 s.powered)
  else if f = R.ENG_A_IN_USE then some (bit (s.inUse i 0))
  else if f = R.ENG_B_IN_USE then some (bit (s.inUse i 1))
  else if f = R.VCORE_KV_FREE then some (s.kvFree i)
  else if f = R.VCORE_KV_RESERVED then some (s.kvReserved i)
  else if f = R.ROUTER_PORTS then some (routerPorts (posOfRouter i))
  else if f = R.ROUTER_ATTACHMENT then some (routerAttachment (posOfRouter i))
  else if f = R.ROUTER_NEAR_STACK then some (nearStack (posOfRouter i))
  else if f = R.ROUTER_NEAR_HOPS then
    some (hopsBetween (posOfRouter i) (nearRouter (posOfRouter i) (nearStack (posOfRouter i))))
  else if f = R.ROUTER_Q_HOPS then some (s.distQuery i).1
  else if f = R.ROUTER_Q_SEAM then some (bit (s.distQuery i).2.1)
  else if f = R.ROUTER_Q_VALID then some (bit (s.distQuery i).2.2.1)
  else if f = R.ROUTER_Q_LAT_PS then some (s.distQuery i).2.2.2
  else if f = R.ROUTER_HOPS then some (s.distWord (posOfRouter i) (nearRouter (posOfRouter i) k)).1
  else if f = R.ROUTER_SEAM then some (bit (s.distWord (posOfRouter i) (nearRouter (posOfRouter i) k)).2.1)
  else if f = R.ROUTER_LAT_PS then some (s.distWord (posOfRouter i) (nearRouter (posOfRouter i) k)).2.2
  else if f = R.OASIS2_NOW then some s.now
  else if f = R.OASIS2_TIME_BOUND_NS then some s.timeBound
  else if f = R.MOD1_ST_STATE then some s.modState
  else if f = R.LCB_MTIME then some s.now
  else if f = R.MCORE1_EFFECTIVE_FRACTION then some (s.reexecCode i)
  else if f = R.BORSAN_EP_DATA then some (s.endpoint i (s.rf R.BORSAN_EP_INDEX i))
  else if f = R.TORUS_ROUTE_ENTRY then some s.selectedRoute
  else if f = R.TORUS_ROUTE_HOPS then some (s.entryHops (s.rf R.TORUS_ROUTE_INDEX 0) s.selectedRoute)
  else if f = R.MONCONV_CONVERTING then some (bit (s.rb R.MONCONV_RUN i || (s.convSt i).running.isSome))
  else none

/-- What a field reads as; WO fields read zero (R9). -/
def State.fieldRead (s : State) (f : Field) (i k : Nat) : Nat :=
  if f.acc = .wo then 0 else ((s.computed f i k).getD (s.rf f i k)) % 2 ^ f.len

/-- The defined fields of a word, R11: reserved bits read zero. -/
def State.blockWord (s : State) (p : Page) (off : Nat) : Nat :=
  (wordFields p off).foldl (fun w fk => w + s.fieldRead fk.1 p.inst fk.2 * 2 ^ fk.1.lo) 0

/-- R54: GEN, DOMAIN_KIND and RESET_COUNT of a page. -/
def State.genWord (s : State) (p : Page) : Nat :=
  match pageDom p.blk p.inst with
  | none => pack [(3, 8, 2)]
  | some d => pack [(s.gen d, 0, 8), (d.kind, 8, 2), (min 0xFFFFFFFF (Tbl.getD s.resetCount d.key 0), 32, 32)]

/-- R55: the semaphore that guards a page. -/
def State.ownerWord (s : State) (p : Page) : Nat :=
  if p.guarded then
    pack [(p.inst, 0, 8), (bit (s.semHeld p.inst), 8, 1), (s.semHolder p.inst, 9, 3), (s.semSource p.inst, 16, 16)]
  else 0

/-- R43 to R55: a word of the common header. -/
def State.headerWord (s : State) (p : Page) (off : Nat) : Nat :=
  let i := p.inst
  if off = 0x00 then pack [(p.blk, 0, 8), (i, 8, 16), (p.page, 24, 4), (0x554D, 32, 16), (0xA1, 48, 8)]
  else if off = 0x08 then
    pack [(1, 0, 16), (s.fwRevOf p, 16, 16), (1, 32, 8)]
  else if off = 0x10 then
    s.blockWord p off + pack [(bit p.guarded, 32, 1), (bit p.resetDom.isSome, 33, 1), (bit p.oasisOnly, 34, 1)]
  else if off = 0x20 then s.blockWord p off + s.rf p.irqEn i
  else if off = 0x28 then
    s.blockWord p off + pack [(bit !s.pageAbsent p, 0, 1), (bit (s.pageReset p), 1, 1), (bit (s.pageFenced p), 2, 1),
      (bit (s.pageAbsent p), 3, 1), (bit (s.pageSuspect p), 4, 1), (s.rf p.errValid i, 5, 1)]
  else if off = 0x40 then s.rf p.intStatus i
  else if off = 0x48 then s.rf p.intEnable i
  else if off = 0x60 then s.rf p.errAddr i
  else if off = 0x68 then s.rf p.errData i
  else if off = 0x70 then
    pack [(s.rf p.errCause i, 0, 8), (s.rf p.errMaster i, 8, 3), (s.rf p.errSource i, 16, 16), (s.rf p.errMore i, 32, 16)]
  else if off = 0x78 then s.rf p.errStamp i
  else if off = 0x80 then s.rf p.lastStamp i
  else if off = 0x88 then s.genWord p
  else if off = 0x90 then s.ownerWord p
  else 0

/-- R303, R327: registers that are brought up to date before they are read. -/
def State.beforeRead (s : State) (p : Page) (off : Nat) : State :=
  if p.blk = 0x39 ∧ off = 0x110 then s.refill p.inst
  else if p.blk = 0x28 ∧ p.page = 0 ∧ off = 0x130 then s.settlePause p.inst
  else s

/-- R10: the RC fields of a word cleared by a read. -/
def State.clearRc (s : State) (p : Page) (off : Nat) : State :=
  s.each ((wordFields p off).filter fun fk => fk.1.acc = .rc) fun t fk => t.wf fk.1 p.inst 0 fk.2

/-- R37, R57, R59: a word of a page read by a master: the result, the value, and what the read changes. -/
def State.readReg (s : State) (m : Master) (p : Page) (off : Nat) : Nat × Nat × State :=
  let addr := p.addr + off
  if !p.exists_ then (arNoPage, 0, s.accessFail m p addr 0 arNoPage 0)
  else if off % 8 ≠ 0 then (arMisaligned, 0, s.accessFail m p addr 0 arMisaligned arMisaligned)
  else if !m.reaches p then (arDenied, 0, s.accessFail m p addr 0 arDenied arDenied)
  else if off < 0x100 then (arOk, s.headerWord p off, s)
  else if s.pageReset p || s.pageAbsent p then (arOk, 0, s)
  else
    let s1 := s.beforeRead p off
    (arOk, s1.blockWord p off, s1.clearRc p off)

/-! ### Writes: the checks -/

/-- R279: on stacks 1 to 11 the words 0x100 to 0x110 are RO mirrors of stack 0, which a write leaves as they are. -/
def mirrored (p : Page) (off : Nat) : Bool := p.blk = 0x20 && p.page = 0 && p.inst ≠ 0 && decide (0x100 ≤ off) && decide (off ≤ 0x110)

/-- R569: a restricted field of the word would change, or act. -/
def State.restricted (s : State) (m : Master) (p : Page) (off w : Nat) : Bool :=
  !mirrored p off && (wordFields p off).any fun fk =>
    let f := fk.1
    let v := bitsOf w f.lo f.len
    !m.mayWrite f.only && (if f.acc = .rw then v ≠ s.fieldRead f p.inst fk.2 else f.acc ≠ .ro && f.acc ≠ .rc && v ≠ 0)

/-- R12: a reserved encoding in an RW or WO field of the word, with those that a field's table cannot say: HOST.XON_KIB (R352),
PWRCAP.CAP_W (R539), RING.CONSUMED (R322). -/
def State.badWord (s : State) (p : Page) (off w : Nat) : Bool :=
  (!mirrored p off && (wordFields p off).any fun fk => (fk.1.acc = .rw || fk.1.acc = .wo) && !fk.1.legalValue (bitsOf w fk.1.lo fk.1.len))
    || (p.blk = 0x28 && p.page = 0 && off = 0x110 && decide (bitsOf w 0 16 ≤ bitsOf w 16 16))
    || (p.blk = 0x42 && off = 0x100 && !capLegal (bitsOf w 0 16))
    || (p.blk = 0x3A && off = 0x110 && !s.consumedOk p.inst (bitsOf w 32 32))

/-- R9: the plain effect of a write on the fields of a word that the master may write. -/
def State.storeWord (s : State) (m : Master) (p : Page) (off w : Nat) : State :=
  s.each ((wordFields p off).filter fun fk => m.mayWrite fk.1.only) fun t fk =>
    let f := fk.1
    let v := bitsOf w f.lo f.len
    let old := t.rf f p.inst fk.2
    if f.acc = .rw then t.wf f p.inst v fk.2
    else if f.acc = .w1c then t.wf f p.inst (old - (old &&& v)) fk.2
    else if f.acc = .w1s then t.wf f p.inst (old ||| v) fk.2
    else t

/-- R38: the word has a field that a write acts on. -/
def writable (p : Page) (off : Nat) : Bool := (wordFields p off).any fun fk => fk.1.acc ≠ .ro && fk.1.acc ≠ .rc

/-! ### Writes: the common header -/

/-- R48: CTL's own fields, then what the block's fields of CTL set in motion, ERR_REARM and DOMAIN_RESET. -/
def State.writeCtl (s : State) (m : Master) (p : Page) (w : Nat) : State :=
  let i := p.inst
  let s1 := ((s.storeWord m p 0x20 w).wf p.irqEn i (bitsOf w 0 1)).irqUpdate p
  let s2 := s1.when (w.testBit 1) fun t => t.rearm p
  let s3 :=
    if p.blk = 0x12 ∧ p.page = 0 then (s2.retrack i s).when (w.testBit 34) fun t => t.pilotNow i
    else if p.blk = 0x15 ∧ m = .oasis then
      if w.testBit 32 && !s.rb R.SCORE_RUN i && !s.inReset (.core i) && !s.isAbsent i then s2.scoreStart i
      else if !w.testBit 32 then s2.wf R.SCORE_RUNNING i 0
      else s2
    else if p.blk = 0x14 then s2.mirrorVc i
    else s2
  match p.resetDom with
  | none => s3
  | some d =>
    if w.testBit 8 then
      s3.ctlReset d (w.testBit 9) (p.blk = 0x08 && w.testBit 32) (match m with | .hostA _ => 0 | .hostB _ => 1 | _ => 2)
    else s3

/-- R48, R50: a write to a word of the common header; its other words are RO. -/
def State.writeHeader (s : State) (m : Master) (p : Page) (off w : Nat) : State :=
  let i := p.inst
  if off = 0x20 then s.writeCtl m p w
  else if off = 0x40 then
    let old := s.rf p.intStatus i
    (s.wf p.intStatus i (old - (old &&& w))).irqUpdate p
  else if off = 0x48 then (s.wf p.intEnable i (w % 2 ^ (intTop p.blk p.page + 1))).irqUpdate p
  else if off = 0x50 then s.setInts p w
  else s

/-! ### Writes: what a block's register sets in motion -/

/-- R146: the operation that the PROG registers name. -/
def State.progOpOf (s : State) (e : Nat) : ProgOp :=
  { src := s.rf R.WPROG_PROG_SRC e, crc := s.rf R.WPROG_PROG_CRC e, bank := s.rf R.WPROG_BANK e,
    fmt := s.rf R.WPROG_IMAGE_FMT e, touchUp := s.rb R.WPROG_MODE e, purpose := s.rf R.WPROG_PURPOSE e, started := s.now }

/-- R146, R148: PROG_CMD, whose other fields the write has stored. With ABORT and START in one write, an operation that Oasis owes
takes the place that the abort leaves only after the START of the same write has been checked (DESIGN CHOICE, log 38). -/
def State.writeProg (s : State) (m : Master) (e w : Nat) : State :=
  let s1 := s.when (w.testBit 7) fun t => t.progAbort e
  let s2 := s1.when (w.testBit 6) fun t => (t.progStart e m (t.progOpOf e) w).2
  s2.when (w.testBit 7) fun t => t.tryOwed e

/-- R159: the policy fields of an engine written. -/
def State.writePolicy (s : State) (m : Master) (p : Page) (w : Nat) : State :=
  let s1 := s.storeWord m p 0x188 w
  s1.logEv 0x0103 p.index 0 [0x188, s.govPolicy p.inst, s1.govPolicy p.inst, 0]

/-- R264: the interleave, and the sealed range that covers the local range, on every stack. -/
def State.writeInterleave (s : State) (g : Nat) : State :=
  s.each (List.range 12) fun t k =>
    ((t.wf R.HBM_INTERLEAVE_GIB k g).wf R.HBM_SEALED_BASE k (12 * g * 2 ^ 30)).wf R.HBM_SEALED_LIMIT k 0x8FFFFFFFFF

/-- R324: PORT_CTL written: a rise of PORT_EN puts SPEED in force, a fall takes the link down. -/
def State.writePort (s : State) (m : Master) (p : Page) (w : Nat) : State :=
  let i := p.inst
  let s1 := s.storeWord m p 0x108 w
  if !s.rb R.HOST_PORT_EN i && s1.rb R.HOST_PORT_EN i then s1.setPort i { s1.port i with speed := s1.rf R.HOST_SPEED i }
  else if s.rb R.HOST_PORT_EN i && !s1.rb R.HOST_PORT_EN i then
    let s2 := s1.linkGoesDown i
    (s2.setPort i { s2.port i with downSince := none }).portError i 0x14
  else s1

/-- R329, R330: an address, prefix or VLAN_ID written. -/
def State.writeAddress (s : State) (m : Master) (p : Page) (off w : Nat) : State :=
  let i := p.inst
  let s1 := s.storeWord m p off w
  let s2 := s1.portError i 0x16
  s2.when (off = 0x118 && !s.rb R.HOST1_IPV6_EN i && s.rb R.HOST_LINK_UP i && s1.rb R.HOST1_IPV6_EN i) fun t =>
    t.sendEth i .neighbourAdvert [t.rf R.HOST1_IPV6_HI i, t.rf R.HOST1_IPV6_LO i, t.rf R.HOST_MAC_ADDR i]

/-- R354: page 2's controls: TIME_SOURCE is set on one port only; PTP_EN starts and ends the port's part in PTP. -/
def State.writePtp (s : State) (m : Master) (p : Page) (w : Nat) : State :=
  let i := p.inst
  let s1 := s.storeWord m p 0x100 w
  let s2 := s1.when (s1.rb R.HOST2_TIME_SOURCE i) fun t => t.wf R.HOST2_TIME_SOURCE (1 - i) 0
  let s3 := if !s2.rb R.HOST2_PTP_EN i then s2.setPtp i 0 else if !s.rb R.HOST2_PTP_EN i then s2.setPtp i 1 else s2
  s3.when ((s.followsPtp 0 || s.followsPtp 1) && !(s3.followsPtp 0 || s3.followsPtp 1)) fun t => t.syncLost

/-- R392: LINK_EN written: a direction trains, or is dark as for a failed link. -/
def State.writeLinkEn (s : State) (m : Master) (p : Page) (w : Nat) : State :=
  let d := p.inst
  let s1 := s.storeWord m p 0x100 w
  if s.rb R.BORSAN_LINK_EN d && !s1.rb R.BORSAN_LINK_EN d then (s1.linkFail d false).wf R.BORSAN_LINK d 0
  else if !s.rb R.BORSAN_LINK_EN d && s1.rb R.BORSAN_LINK_EN d && !s1.rb R.BORSAN_FIBRE_REVERSED d then s1.wf R.BORSAN_LINK d 1
  else s1

/-- R360: LANE_ENABLE written: a lane no longer enabled is not used. -/
def State.writeLanes (s : State) (m : Master) (p : Page) (w : Nat) : State :=
  let s1 := s.storeWord m p 0x100 w
  let gone := (List.range 9).filter fun l => !w.testBit l && (s.rf R.BORSAN1_LANE_GOOD p.inst).testBit l
  s1.each gone fun t l => t.laneBad p.inst l (t.rf R.BORSAN1_RX_POWER p.inst l)

/-- R387, R389: a word of a collective descriptor: when VALID is set, a SEED of 0 is drawn and the chunks are counted anew. -/
def State.writeColl (s : State) (m : Master) (p : Page) (off w : Nat) : State :=
  let i := (off - 0x100) / 40
  let s1 := s.storeWord m p off w
  if (off - 0x100) % 40 = 0 ∧ !s.rb R.TORUS2_C_VALID 0 i ∧ s1.rb R.TORUS2_C_VALID 0 i then
    let s2 := s1.setColl i { s1.coll i with chunkNo := 0 }
    if s1.rf R.TORUS2_C_SEED 0 i = 0 then
      let (v, s3) := s2.draw 64
      s3.wf R.TORUS2_C_SEED 0 v i
    else s2
  else s1

/-- R303, R304, R321: a tenant's account written. -/
def State.writeTenant (s : State) (m : Master) (p : Page) (off w : Nat) : State :=
  let t := p.inst
  if off = 0x100 then s.accountRate t (bitsOf w 0 32) (bitsOf w 32 32)
  else if off = 0x108 then
    let s1 := s.storeWord m p off w
    if !s.rb R.TENANT_ENABLED t && s1.rb R.TENANT_ENABLED t then s1.accountEnable t else s1
  else if off = 0x120 then
    match m with
    | .score _ => s.debit t (bitsOf w 0 24) (w.testBit 24)
    | _ => s
  else s

/-- R295, R322: CONSUMED written: room for the doorbells that wait. -/
def State.writeConsumed (s : State) (r w : Nat) : State :=
  let s1 := s.wf R.RING_CONSUMED r (bitsOf w 32 32)
  s1.ringRetry r ((s1.ring r).waiting.length + 1)

/-- R185, R247, R315: the M-core page 1, router and variant table registers that set something in motion, R533, R547, R560, R336, R350. -/
def State.writeOther (s : State) (m : Master) (p : Page) (off w : Nat) : State :=
  let i := p.inst
  let s1 := s.storeWord m p off w
  if p.blk = 0x10 ∧ p.page = 1 ∧ off = 0x110 then
    s1.when (s1.heldLate i && decide (s1.rf R.MCORE1_SLOW_VCORE i ≠ 0xFFFF)) fun t => t.sendStandins i
  else if p.blk = 0x12 ∧ p.page = 1 ∧ off = 0x100 then s1.retrack i s
  else if p.blk = 0x18 ∧ p.page = 0 ∧ off = 0x108 ∧ m = .oasis then s.mapSwitch i (bitsOf w 0 8)
  else if p.blk = 0x29 ∧ off = 0x150 ∧ w.testBit 0 then s.qpClose i
  else if p.blk = 0x02 ∧ off = 0x100 then s.semOp m.code m.source (bitsOf w 0 8) (bitsOf w 8 2) (bitsOf w 16 16)
  else if p.blk = 0x01 ∧ p.page = 2 ∧ off = 0x108 then s1.syncMode
  else if p.blk = 0x40 ∧ p.page = 0 ∧ off = 0x108 then s1.wf R.MONCONV_ENTRY_0 i 0
  else if p.blk = 0x40 ∧ p.page = 0 ∧ off = 0x128 then s.urgentGo i w
  else if p.blk = 0x38 ∧ p.page = 2 ∧ off % 16 = 8 then s1.drainLimit ((off - 0x108) / 16)
  else if p.blk = 0x43 ∧ off = 0x100 ∧ w.testBit 6 then s1.replanNow
  else if p.blk = 0x48 ∧ p.page = 0 ∧ off = 0x108 then s.clearFaults (bitsOf w 0 15)
  else if p.blk = 0x30 ∧ p.page = 0 ∧ off = 0x150 ∧ m = .oasis then
    { s with tor := { s.tor with eps := Tbl.putD s.tor.eps 0 (i * 4096 + s.rf R.BORSAN_EP_INDEX i) w } }
  else s1

/-- A write to a block-specific register that has passed the checks of R56, R57, R569 and R12: the result, the cause captured with a
failure, and the state after. -/
def State.writeBlock (s : State) (m : Master) (p : Page) (off w : Nat) : Nat × Nat × State :=
  let i := p.inst
  let ok (t : State) : Nat × Nat × State := (arOk, 0, t)
  if p.blk = 0x12 ∧ p.page = 0 ∧ off = 0x100 then
    if s.badBinding i w then (arRefused, 0x10, s)
    else ok (((s.bind i w).tryOwed i).holdCheck (engCore i))
  else if p.blk = 0x13 ∧ off = 0x110 then ok ((s.storeWord m p off w).writeProg m i w)
  else if p.blk = 0x13 ∧ off = 0x188 then ok (s.writePolicy m p w)
  else if p.blk = 0x18 ∧ p.page = 1 then
    if (off - 0x100) / 0x780 = s.rf R.ROUTER_MAP_BANK i then (arDenied, 0x12, s) else ok (s.storeWord m p off w)
  else if p.blk = 0x20 ∧ p.page = 0 ∧ off = 0x100 then
    if i ≠ 0 then ok s else if s.wasReady then (arDenied, arDenied, s) else ok (s.writeInterleave (bitsOf w 0 6))
  else if p.blk = 0x20 ∧ p.page = 0 ∧ (off = 0x108 ∨ off = 0x110) then
    ok (if i = 0 ∧ m = .oasis then
          s.each (List.range 12) fun t k => t.wf (if off = 0x108 then R.HBM_SEALED_BASE else R.HBM_SEALED_LIMIT) k w
        else s)
  else if p.blk = 0x28 ∧ p.page = 0 ∧ off = 0x108 then ok (s.writePort m p w)
  else if p.blk = 0x28 ∧ p.page = 1 ∧ off ≤ 0x120 then ok (s.writeAddress m p off w)
  else if p.blk = 0x28 ∧ p.page = 2 ∧ off = 0x100 then ok (s.writePtp m p w)
  else if p.blk = 0x30 ∧ p.page = 0 ∧ off = 0x100 then ok (s.writeLinkEn m p w)
  else if p.blk = 0x30 ∧ p.page = 1 ∧ off = 0x100 then ok (s.writeLanes m p w)
  else if p.blk = 0x31 ∧ p.page = 2 ∧ off < 0xB00 then ok (s.writeColl m p off w)
  else if p.blk = 0x39 then ok (s.writeTenant m p off w)
  else if p.blk = 0x3A ∧ off = 0x110 then ok (s.writeConsumed i w)
  else ok (s.writeOther m p off w)

/-- R56: the master may write a guarded page: it holds the semaphore, or is Oasis before READY. -/
def State.ownsPage (s : State) (m : Master) (p : Page) : Bool :=
  s.semHeldBy p.inst m.code m.source || (m = .oasis && !s.wasReady)

/-- A word of a page written by a master: the checks in order, then the write. The answer is the result of R59. -/
def State.writeReg (s : State) (m : Master) (p : Page) (off w0 : Nat) : Nat × State :=
  let w := w0 % 2 ^ 64
  let addr := p.addr + off
  let no (r : Nat) : Nat × State := (r, s.accessFail m p addr w r r)
  if !p.exists_ then no arNoPage
  else if off % 8 ≠ 0 then no arMisaligned
  else if !m.reaches p then no arDenied
  else if 0x100 ≤ off && (s.pageReset p || s.pageAbsent p || (s.pageRestore p && m ≠ .oasis)) then no arInReset
  else if 0x100 ≤ off && p.guarded && writable p off && !s.ownsPage m p then no arNotOwner
  else if s.restricted m p off w then no arDenied
  else if off = 0x20 && w.testBit 8 && p.resetDom.isSome && m.code = 4 then no arDenied
  else if s.badWord p off w then no arBadEncoding
  else if off < 0x100 then (arOk, s.writeHeader m p off w)
  else
    match s.writeBlock m p off w with
    | (r, cause, t) => if r = arOk then (arOk, t) else (r, s.accessFail m p addr w r cause)

end Sys2Proof.Machine
end

