-- ==== Sys2Proof/Machine/Window.lean ====
section
/-! DEFINITION. A word of any region of R34 read or written by a master; the Vorane commands REG_READ and REG_WRITE (R40, R41, R345);
the commands that are a master's write to one register; S-core accesses that fail (R221). -/

namespace Sys2Proof.Machine

/-! ### One word of any region -/

/-- R35: the logical core and offset that an address of the SRAM region names, none in the reserved parts. -/
def State.sramAddr (s : State) (a : Nat) : Option (Nat × Nat) :=
  let k := a / 2 ^ 24 % 64
  let ck := a / 2 ^ 30 % 32 * 64 + k
  if 0x100000000000 ≤ a ∧ a < 0x100800000000 ∧ k < 60 ∧ a % 2 ^ 24 < sramSize (kindOfLogical k) ∧ !s.isAbsent ck then
    some (ck, a % 2 ^ 24)
  else none

/-- R34: an address in the register window. -/
def inWindow (a : Nat) : Bool := decide (0x200000000000 ≤ a) && decide (a < 0x210000000000)

/-- R59: a failed access to a word that is no register: its event-log record. -/
def State.memFail (s : State) (m : Master) (page addr data result : Nat) : State :=
  s.logEv 0x0202 page 0 [addr, data, pack [(result, 0, 8), (m.code, 8, 3), (m.source, 16, 16)], 0]

/-- An aligned word read by a master: result, value, hollow mark, state. -/
def State.wordRead (s : State) (m : Master) (a : Nat) : Nat × Nat × Bool × State :=
  if a < 2 ^ 40 then
    match s.hbmAccess (.master m) a 0 with
    | (none, r, t) =>
      (r, 0, r = 0, t.when (r ≠ 0) fun u => u.memFail m (if r = 2 then (hbmPage (((hbmDecode s.interleave a).map (·.1)).getD 0)).index
        else 0) a 0 r)
    | (some (st, off), _, t) =>
      let (d, h, t1) := t.codeRead st (off / 64 * 64) [] 0 none
      (0, d / 256 ^ (off % 64) % 2 ^ 64, h, t1.inc R.HBM_READ_BYTES st 8)
  else if inWindow a then
    let (r, v, t) := s.readReg m (Page.ofIndex (a / 4096 % 2 ^ 28)) (a % 4096)
    (r, v, false, t)
  else
    match s.sramAddr a with
    | some (ck, off) => (0, s.sramRead ck off 8, s.sramIsHollow ck off, s)
    | none => (arNoPage, 0, false, s.memFail m 0 a 0 arNoPage)

/-- An aligned word written by a master: result and state. R222: the locked code region of an S-core takes Oasis's writes only.
R212: a page table is read-only to every master. -/
def State.wordWrite (s : State) (m : Master) (a w : Nat) : Nat × State :=
  if a < 2 ^ 40 then
    match s.hbmAccess (.master m) a w with
    | (none, r, t) =>
      (r, t.when (r ≠ 0) fun u => u.memFail m (if r = 2 then (hbmPage (((hbmDecode s.interleave a).map (·.1)).getD 0)).index
        else 0) a w r)
    | (some (st, off), _, t) => (0, (t.codeWrite st off 8 (fun _ => w) false [] 0 none (Requester.master m).score).2.2)
  else if inWindow a then s.writeReg m (Page.ofIndex (a / 4096 % 2 ^ 28)) (a % 4096) w
  else
    match s.sramAddr a with
    | none => (arNoPage, s.memFail m 0 a w arNoPage)
    | some (ck, off) =>
      if kindOfLogical (ck % 64) = 2 && s.rb R.SCORE_CODE_LOCK ck && decide (off < s.rf R.SCORE_CODE_LIMIT ck) && m ≠ .oasis then
        (arDenied, s.accessFail m (scorePage ck) a w arDenied arDenied)
      else if s.inPageTable ck off then (arOk, s)
      else (arOk, s.sramWrite ck off 8 w)

/-! ### REG_READ and REG_WRITE -/

/-- The master a queue pair's host is, R39. -/
def State.hostMaster (s : State) (qp : Nat) : Master := if s.rf R.QP_PORT qp = 0 then .hostA qp else .hostB qp

/-- R345: the command's words stay in one page and are whole aligned words. -/
def regSpanOk (a n : Nat) : Bool := a % 8 = 0 && decide (a % 4096 + 8 * n ≤ 4096)

/-- R345: word 1 of the body holds COUNT, 1 to 64, and nothing else. -/
def regBodyOk (c : Cmd) (extra : Nat) : Bool :=
  decide (1 ≤ c.w 1) && decide (c.w 1 ≤ 64) && decide (c.bodyWords = 2 + extra * c.w 1)

/-- What a REG_READ has read so far: first failure with its index, words, hollow mask. -/
structure RegScan where
  fail : Option (Nat × Nat) := none
  data : List Nat := []
  mask : Nat := 0
deriving DecidableEq, Repr

/-- R41: the words of a REG_READ read in order. -/
def State.regScan (s : State) (m : Master) (a : Nat) (n : Nat) : RegScan × State :=
  (List.range n).foldl (fun (x : RegScan × State) i =>
    let (r, v, h, t) := x.2.wordRead m (a + 8 * i)
    ({ fail := if r ≠ arOk ∧ x.1.fail.isNone then some (r, i) else x.1.fail
       data := x.1.data ++ [if h || r ≠ arOk then 0 else v]
       mask := x.1.mask + (if h then 2 ^ i else 0) }, t)) ({}, s)

/-- R41: the words of a REG_WRITE applied in order up to the first that fails: applied, failure. -/
def State.regApply (s : State) (m : Master) : Nat → Nat → List Nat → Nat × Nat × State
  | _, i, [] => (i, arOk, s)
  | a, i, w :: ws =>
    match s.wordWrite m a w with
    | (r, t) => if r = arOk then t.regApply m (a + 8) (i + 1) ws else (i, r, t)

/-- REG_READ, R345. -/
def State.regRead (s : State) (i : Instr) (c : Cmd) : State :=
  s.vorane i 0x10 c .f (regBodyOk c 0) fun t =>
    let a := c.w 0
    let n := c.w 1
    let m := t.hostMaster c.qp
    if !regSpanOk a n then
      (t.memFail m 0 a 0 arMisaligned).reply c ([pack [(arMisaligned, 0, 8)], 0, 0] ++ List.replicate n 0)
    else
      let (x, t1) := t.regScan m a n
      let (r, i) := x.fail.getD (0, 0)
      t1.reply c ([pack [(r, 0, 8), (i, 8, 7)], t.now, x.mask] ++ x.data)

/-- REG_WRITE, R345. -/
def State.regWrite (s : State) (i : Instr) (c : Cmd) : State :=
  s.vorane i 0x11 c .f (regBodyOk c 1) fun t =>
    let a := c.w 0
    let n := c.w 1
    let m := t.hostMaster c.qp
    if !regSpanOk a n then (t.memFail m 0 a 0 arMisaligned).reply c [pack [(arMisaligned, 0, 8)], 0, 0]
    else
      let (k, r, t1) := t.regApply m a 0 ((List.range n).map fun i => c.w (i + 2))
      t1.reply c [pack [(r, 0, 8), (if r = arOk then 0 else k, 8, 7), (k, 15, 7)], if k = 0 then 0 else t.now, 0]

/-! ### S-core accesses -/

/-- R59, R221: the response to an S-core's access: result and value; a result other than OK is held in the CSR at 0xFC0 and traps. -/
def State.scoreResponse (s : State) (ck pc a r v : Nat) : State :=
  let t := s.setSc ck { s.scSt ck with result := r, value := v }
  if r = arOk then t else t.customTrap ck pc 25 a

/-- R37: an access of the register window that is not a whole word: it reads as zero and writes nothing. -/
def State.narrowAccess (s : State) (m : Master) (p : Page) (addr data : Nat) : Nat × State :=
  if !p.exists_ then (arNoPage, s.accessFail m p addr data arNoPage 0)
  else (arMisaligned, s.accessFail m p addr data arMisaligned arMisaligned)

/-- R37, R221, R223: an S-core access of `n` bytes to the register window: a store where `store` is given, else a load. One that is not
aligned to its own size raises the standard exception (R220). -/
def State.scoreAccess (s : State) (ck pc a n : Nat) (store : Option Nat) : State :=
  if !s.scoreRuns ck || !inWindow a then s
  else match s.accessCause ck a n (bit store.isSome) with
  | some c => s.scoreTrap ck pc c a
  | none =>
    let p := Page.ofIndex (a / 4096 % 2 ^ 28)
    if n ≠ 8 then
      let (r, t) := s.narrowAccess (.score ck) p a (store.getD 0 % 256 ^ n)
      t.scoreResponse ck pc a r 0
    else match store with
      | some w => let (r, t) := s.writeReg (.score ck) p (a % 4096) w; t.scoreResponse ck pc a r 0
      | none => let (r, v, t) := s.readReg (.score ck) p (a % 4096); t.scoreResponse ck pc a r v

/-- R221 to R223: an S-core's aligned store of a word to SRAM or external memory. -/
def State.scoreMemStore (s : State) (ck a w : Nat) : State :=
  if !s.scoreRuns ck then s
  else match s.accessCause ck a 8 1 with
  | some c => s.scoreTrap ck (s.scSt ck).pc c a
  | none => (s.wordWrite (.score ck) a w).2

/-- R221 to R223: an S-core's aligned load of a word from SRAM or external memory. -/
def State.scoreMemLoad (s : State) (ck a : Nat) : State :=
  if !s.scoreRuns ck then s
  else match s.accessCause ck a 8 0 with
  | some c => s.scoreTrap ck (s.scSt ck).pc c a
  | none =>
    let (_, v, h, t) := s.wordRead (.score ck) a
    if h then (t.customTrap ck (s.scSt ck).pc 24 a).setInt (scorePage ck) R.INT_SCORE_HOLLOW_LOAD
    else t.setSc ck { t.scSt ck with value := v }

/-- A load by an S-core from its local control block (R224): MAILBOX clears (R10). -/
def State.lcbLoad (s : State) (ck off : Nat) : State :=
  if s.scoreRuns ck then
    let p : Page := { blk := 0x100, inst := ck }
    (s.setSc ck { s.scSt ck with value := s.blockWord p off }).clearRc p off
  else s

/-- R59: a master's store of a word: Oasis receives its result, an S-core's failure in the register window traps (R221). -/
def State.masterStore (s : State) (m : Master) (a w : Nat) : State :=
  match m with
  | .score ck =>
    if 0x300000000000 ≤ a ∧ a < 0x300000001000 then s.scoreStore ck (a % 4096) w
    else if inWindow a then s.scoreAccess ck (s.scSt ck).pc a 8 (some w)
    else s.scoreMemStore ck a w
  | .oasis => let (r, t) := s.wordWrite m a w; { t with resp := (r, 0) }
  | _ => (s.wordWrite m a w).2

/-- R10, R59: a master's load of a word: Oasis and an S-core receive its result and value. -/
def State.masterLoad (s : State) (m : Master) (a : Nat) : State :=
  match m with
  | .score ck =>
    if 0x300000000000 ≤ a ∧ a < 0x300000001000 then s.lcbLoad ck (a % 4096)
    else if inWindow a then s.scoreAccess ck (s.scSt ck).pc a 8 none
    else s.scoreMemLoad ck a
  | .oasis => let (r, v, _, t) := s.wordRead m a; { t with resp := (r, v) }
  | _ => (s.wordRead m a).2.2.2

/-- A write of a word to a register of a page; an S-core's store traps when it fails (R221). -/
def State.pageStore (s : State) (m : Master) (p : Page) (off w : Nat) : State := s.masterStore m (p.addr + off) w

/-! ### Commands -/

/-- REGISTER_WRITE, R42. -/
def execRegisterWrite (m : Master) (a w : Nat) (s : State) : Host.Outcome State Fault Refusal := .next (s.masterStore m a w)

/-- RC_READ, R10. -/
def execRcRead (m : Master) (a : Nat) (s : State) : Host.Outcome State Fault Refusal := .next (s.masterLoad m a)

/-- ERR_REARM, R48: a write of CTL with ERR_REARM set. -/
def execErrRearm (m : Master) (pi w : Nat) (s : State) : Host.Outcome State Fault Refusal :=
  .next (s.pageStore m (Page.ofIndex pi) 0x20 (w ||| 2))

/-- CTL_DOMAIN_RESET, R462: a write of CTL with DOMAIN_RESET set. -/
def execCtlDomainReset (m : Master) (pi w : Nat) (s : State) : Host.Outcome State Fault Refusal :=
  .next (s.pageStore m (Page.ofIndex pi) 0x20 (w ||| 0x100))

/-- INT_FORCE, R50. -/
def execIntForce (m : Master) (pi w : Nat) (s : State) : Host.Outcome State Fault Refusal :=
  .next (s.pageStore m (Page.ofIndex pi) 0x50 w)

/-- REG_READ, R345. -/
def execRegRead (c : Cmd) (s : State) : Host.Outcome State Fault Refusal := .next (s.regRead (.regRead c) c)

/-- REG_WRITE, R345. -/
def execRegWrite (c : Cmd) (s : State) : Host.Outcome State Fault Refusal := .next (s.regWrite (.regWrite c) c)

/-- BANK_CTL_WRITE, R66. -/
def execBankCtlWrite (m : Master) (e w : Nat) (s : State) : Host.Outcome State Fault Refusal :=
  .next (s.pageStore m (engPage e) 0x100 w)

/-- PILOT_NOW, R97: a write of CTL with PILOT_NOW set. -/
def execPilotNow (m : Master) (e w : Nat) (s : State) : Host.Outcome State Fault Refusal :=
  .next (s.pageStore m (engPage e) 0x20 (w ||| 2 ^ 34))

/-- PROG_START, R146: a write of PROG_CMD with START set. -/
def execProgStart (m : Master) (e w : Nat) (s : State) : Host.Outcome State Fault Refusal :=
  .next (s.pageStore m (wprogPage e) 0x110 (w ||| 0x40))

/-- PROG_ABORT, R148: a write of PROG_CMD with ABORT set. -/
def execProgAbort (m : Master) (e w : Nat) (s : State) : Host.Outcome State Fault Refusal :=
  .next (s.pageStore m (wprogPage e) 0x110 (w ||| 0x80))

/-- GOV_POLICY_WRITE, R159. -/
def execGovPolicyWrite (m : Master) (e w : Nat) (s : State) : Host.Outcome State Fault Refusal :=
  .next (s.pageStore m (wprogPage e) 0x188 w)

/-- SCORE_RUN, R222: Oasis writes SCORE.CTL with RUN set. -/
def execScoreRun (ck w : Nat) (s : State) : Host.Outcome State Fault Refusal :=
  .next (s.pageStore .oasis (scorePage ck) 0x20 (w ||| 2 ^ 32))

/-- REGISTER_RESULT, R221. -/
def execRegisterResult (ck pc a : Nat) (x : CoreAccess) (s : State) : Host.Outcome State Fault Refusal :=
  .next (s.scoreAccess ck pc a x.bytes x.store)

/-- MAP_ENTRY_WRITE, R247: word `w` of bank `b` of a router's map. -/
def execMapEntryWrite (m : Master) (r b i w : Nat) (s : State) : Host.Outcome State Fault Refusal :=
  .next (s.pageStore m (routerPage r 1) (0x100 + 0x780 * (b % 2) + 8 * (i % 240)) w)

/-- MAP_SWITCH, R247. -/
def execMapSwitch (m : Master) (r w : Nat) (s : State) : Host.Outcome State Fault Refusal :=
  .next (s.pageStore m (routerPage r) 0x108 w)

/-- INTERLEAVE_WRITE, R264. -/
def execInterleaveWrite (m : Master) (w : Nat) (s : State) : Host.Outcome State Fault Refusal :=
  .next (s.pageStore m (hbmPage 0) 0x100 w)

/-- SEALED_RANGE_WRITE, R272: SEALED_LIMIT where `limit`, else SEALED_BASE. -/
def execSealedRangeWrite (m : Master) (limit : Bool) (w : Nat) (s : State) : Host.Outcome State Fault Refusal :=
  .next (s.pageStore m (hbmPage 0) (if limit then 0x110 else 0x108) w)

/-- TENANT_DEBIT, R321. -/
def execTenantDebit (m : Master) (t w : Nat) (s : State) : Host.Outcome State Fault Refusal :=
  .next (s.pageStore m (tenantPage t) 0x120 w)

/-- TENANT_ENABLE, R303: the word with ENABLED. -/
def execTenantEnable (m : Master) (t w : Nat) (s : State) : Host.Outcome State Fault Refusal :=
  .next (s.pageStore m (tenantPage t) 0x108 w)

/-- TENANT_RATE_WRITE, R303. -/
def execTenantRateWrite (m : Master) (t w : Nat) (s : State) : Host.Outcome State Fault Refusal :=
  .next (s.pageStore m (tenantPage t) 0x100 w)

/-- CONSUMED_WRITE, R322. -/
def execConsumedWrite (m : Master) (r w : Nat) (s : State) : Host.Outcome State Fault Refusal :=
  .next (s.pageStore m (ringPage r) 0x110 w)

/-- DRAIN_LIMIT_WRITE, R315. -/
def execDrainLimitWrite (m : Master) (v w : Nat) (s : State) : Host.Outcome State Fault Refusal :=
  .next (s.pageStore m (servePage 2) (0x108 + 16 * (v % 64)) w)

/-- PORT_ENABLE, R324: the word with PORT_EN. -/
def execPortEnable (m : Master) (p w : Nat) (s : State) : Host.Outcome State Fault Refusal :=
  .next (s.pageStore m (hostPage p) 0x108 w)

/-- ADDRESS_WRITE, R329: word `j` of the five from 0x100 of HOST page 1. -/
def execAddressWrite (m : Master) (p j w : Nat) (s : State) : Host.Outcome State Fault Refusal :=
  .next (s.pageStore m (hostPage p 1) (0x100 + 8 * (j % 5)) w)

/-- QP_CLOSE, R336. -/
def execQpClose (m : Master) (q : Nat) (s : State) : Host.Outcome State Fault Refusal :=
  .next (s.pageStore m (qpPage q) 0x150 1)

/-- SEM_OP_ACQUIRE, R350. -/
def execSemOpAcquire (m : Master) (i lease : Nat) (s : State) : Host.Outcome State Fault Refusal :=
  .next (s.pageStore m semaPage 0x100 (pack [(i, 0, 8), (0, 8, 2), (lease, 16, 16)]))

/-- SEM_OP_RELEASE, R350. -/
def execSemOpRelease (m : Master) (i : Nat) (s : State) : Host.Outcome State Fault Refusal :=
  .next (s.pageStore m semaPage 0x100 (pack [(i, 0, 8), (1, 8, 2)]))

/-- SEM_OP_BREAK, R350. -/
def execSemOpBreak (m : Master) (i : Nat) (s : State) : Host.Outcome State Fault Refusal :=
  .next (s.pageStore m semaPage 0x100 (pack [(i, 0, 8), (2, 8, 2)]))

/-- LINK_ENABLE, R392. -/
def execLinkEnable (m : Master) (d w : Nat) (s : State) : Host.Outcome State Fault Refusal :=
  .next (s.pageStore m (borsanPage d) 0x100 w)

/-- REPLAN_NOW, R552: a write with REPLAN_NOW set. -/
def execReplanNow (m : Master) (w : Nat) (s : State) : Host.Outcome State Fault Refusal :=
  .next (s.pageStore m agePage 0x100 (w ||| 0x40))

/-- URGENT_GO, R533: a write with URGENT_GO set. -/
def execUrgentGo (m : Master) (i w : Nat) (s : State) : Host.Outcome State Fault Refusal :=
  .next (s.pageStore m (monPage i) 0x128 (w ||| 0x40))

end Sys2Proof.Machine
end

