-- ==== Sys2Proof/Machine/Activate.lean ====
section
/-! DEFINITION. Activating a variant: VARIANT_ACTIVATE (R314), staging from the Husks (R399, R415, R276), the new epoch and its bindings
(R164). -/

namespace Sys2Proof.Machine

/-! ### The new epoch -/

/-- R164: a value that no ACTIVE or DRAINING variant carries and that no engine has bound; `elsewhere` has the bits of the values bound on
the placement's other modules. -/
def State.epochFree (s : State) (elsewhere n : Nat) : Bool :=
  !elsewhere.testBit n
    && (List.range 64).all (fun v => !((s.vstate v = vActive || s.vstate v = vDraining) && s.rf R.SERVE2_EPOCH 0 v = n))
    && s.regs.all fun c => decide (c.1 / 2 ^ 32 ≠ (epochBankF n).code) || c.2 = 0

/-- R164: the first free value after the epoch of the most recent activation. -/
def State.newEpoch (s : State) (elsewhere : Nat) : Option Nat :=
  [(s.lastEpoch + 1) % 4, (s.lastEpoch + 2) % 4, (s.lastEpoch + 3) % 4].find? (s.epochFree elsewhere)

/-! ### Governor -/

/-- R157: a whole swap judged, bank by bank: the first engine that would be refused, or the longest wait in powered seconds. -/
def State.judgeSwap (s : State) : List (Nat × Nat) → Option Nat × Nat
  | [] => (none, 0)
  | (e, b) :: rest =>
    let r := s.judgeSwap rest
    match s.govWait e b 0 with
    | none => (some e, 0)
    | some w => if w ≠ 0 ∧ s.rf R.WPROG_DEFER_MAX e < w then (some e, 0) else (r.1, max w r.2)

/-! ### VARIANT_ACTIVATE -/

/-- R314: the placement needs a bank that another ACTIVE variant, not the replaced one, holds. -/
def State.banksHeld (s : State) (replaces : Nat) (p : Placement) : Bool :=
  (List.range 64).any fun u => s.vstate u = vActive && u ≠ replaces &&
    p.items.any fun x => s.rf (epochBankF (s.rf R.SERVE2_EPOCH 0 u)) x.1 = x.2.1 + 1

/-- R314: the status with which VARIANT_ACTIVATE is refused, none where it is accepted. -/
def State.activateCheck (s : State) (c : Cmd) (p : Placement) (elsewhere : Nat) : Option Nat :=
  let r := c.f 0 6 6
  if c.f 0 13 51 ≠ 0 then some stBadParam
  else if s.modState = msLeaving then some stBusy
  else if s.vstate (c.f 0 0 6) ≠ vRegistered ∨ (r ≠ 0x3F ∧ s.vstate r ≠ vActive) then some stNoVariant
  else if (s.newEpoch elsewhere).isNone ∨ s.banksHeld r p then some stBusy
  else none

/-- R415: an activation that a shard or the key stops: a record names the cause and the shard. -/
def State.shardStop (s : State) (v shard cause : Nat) : State :=
  (s.unitEv 0xB caravanPage shard cause false).activationEnd v stNoVariant

/-- R407: the shards of a variant whose TARGET is this module. -/
def State.ownShards (s : State) (m : Manifest) : List Nat :=
  (List.range m.shards.length).filter fun i => (m.shards[i]?).any fun sh => sh.target = s.here

/-- R314, R415: staging begins: the key, the shards, the governor's judgement of the whole swap. -/
def State.stageBegin (s : State) (v : Nat) : State :=
  match s.man v with
  | none => s.shardStop v 0 ksNotRegistered
  | some m =>
    let own := s.ownShards m
    if (s.keySlot m.keyId).isNone then s.shardStop v (own.headD 0) ksNoKey
    else
      match own.find? fun i => !(s.shard v i).held with
      | some i => s.shardStop v i ksSourceUnreadable
      | none =>
        match s.judgeSwap ((s.var v).place.items.map fun x => (x.1, x.2.1)) with
        | (some e, _) => s.activationStop v e prEndurance
        | (none, w) => { s with sec := { s.sec with
            staging := Tbl.put s.sec.staging v { shards := own, deferUntil := if w = 0 then 0 else s.now + w * 1000000000 } } }

/-- VARIANT_ACTIVATE's effect, R314. -/
def State.activateVariant (s : State) (c : Cmd) (p : Placement) (elsewhere : Nat) : State :=
  match s.activateCheck c p elsewhere with
  | some st => s.refuseServe c st 0 0
  | none =>
    let v := c.f 0 0 6
    let r := c.f 0 6 6
    let s1 := s.setVar v { s.var v with
      activating := some (c.qp, c.cmdId), replaces := if r = 0x3F then none else some r, preemptReplaced := c.b 0 12, place := p }
    let s2 := s1.replyEarly c.qp c.cmdId (s1.servingShort stAccepted 0)
    (s2.setVState v vStaging).stageBegin v

/-! ### Items -/

/-- R276: `n` bytes at a multiple of 4,096 that lie wholly in the sealed part of the local range, in the near stack of a core's router. -/
def State.sealedRange (s : State) (ck a n : Nat) : Bool :=
  let ends := [a, a + n - 1]
  decide (a % 4096 = 0) && decide (12 * s.interleave * gib ≤ a) && ends.all fun x =>
    s.sealed x && ((hbmDecode s.interleave x).map fun y => y.1) == some (s.nearOf ck)

/-- R276: Lyszan's placement assigns the item this address, so Oasis may write it there. -/
def State.itemPlaced (s : State) (x : Item) : Bool :=
  if x.kind = 1 then s.sealedRange (engCore x.target) x.addr x.len
  else if x.kind = 2 then s.sealedRange x.target x.addr x.len
  else if x.kind = 3 then s.sealedRange x.target x.addr x.len && decide (x.sram + x.len ≤ sramSize (kindOfLogical (x.target % 64)))
  else true

/-- R157, R415: the operation of a bank image is asked for as soon as the image is written; the whole swap's deferral holds for it. -/
def State.stageImage (s : State) (v : Nat) (x : Item) : State :=
  match (s.var v).place.items.find? fun y => y.1 = x.target with
  | none => s
  | some y =>
    let op : ProgOp := { src := x.addr, crc := x.crc, bank := y.2.1, fmt := x.fmt, touchUp := false, purpose := 0, started := s.now,
                         var := some v }
    match s.oasisStart x.target op with
    | (r, t) =>
      if r ≠ prNone ∧ r ≠ prDeferred then t.activationStop v x.target r
      else
        let g := Tbl.getD t.sec.staging v {}
        let t1 := { t with sec := { t.sec with staging := Tbl.put t.sec.staging v { g with asked := x.target :: g.asked } } }
        match (t1.progSt x.target).queued with
        | some o =>
          if g.deferUntil ≤ max t1.now o.deferUntil then t1
          else
            ((((t1.setProg x.target { t1.progSt x.target with queued := some { o with deferUntil := g.deferUntil } }).wf
              R.WPROG_DEFER_UNTIL x.target g.deferUntil).wf R.WPROG_RESULT x.target prDeferred).setInt (wprogPage x.target)
              R.INT_WPROG_DEFERRED)
        | none => t1

/-- R399: the facts of a variant. -/
def State.stageFacts (s : State) (v : Nat) (fs : List Nat) : State :=
  let f (i : Nat) : Nat := fs.getD i 0
  let s1 := s.each [(R.SERVE2_HEAD, bit (decide (f 0 = s.here))), (R.SERVE2_ADMIT_SCORE, f 1), (R.SERVE2_STEP_SCORE, f 2),
    (R.SERVE2_COMMIT_SCORE, f 3), (R.SERVE2_MAX_POSITIONS, f 4), (R.SERVE2_DET_OK, bit (decide (f 5 ≠ 0)))] fun t x => t.wf x.1 0 x.2 v
  let x := s1.var v
  s1.setVar v { x with place := { x.place with head := f 0, vocab := f 6 } }

/-- R276, R277, R367, R387, R399, R415, R436: an item, its plaintext given, written for staging. -/
def State.stageItem (s : State) (v : Nat) (x : Item) (plain : List Nat) : State :=
  if x.kind = 1 then (s.hbmPut x.addr (plain.map fun b => (b, false))).stageImage v x
  else if x.kind = 2 then s.hbmPut x.addr (plain.map fun b => (b, false))
  else if x.kind = 3 then
    let k : Kept := { var := v, core := x.target, off := x.sram, ext := x.addr, len := plain.length }
    let s1 := s.hbmPut x.addr (plain.map fun b => (b, false))
    ({ s1 with sec := { s1.sec with kept := k :: s1.sec.kept } }).sramStore x.target x.sram plain
  else if x.kind = 6 then
    { s with tor := { s.tor with eps := (Config.itemWrites 6 plain).foldl (fun t y => Tbl.putD t 0 y.1 y.2) s.tor.eps } }
  else if x.kind = 8 then s.stageFacts v (Config.itemFacts plain)
  else
    let ws := Config.itemWrites x.kind plain
    let s1 := { s with sec := { s.sec with sets := s.sec.sets ++ ws.map fun y => (v, y.1, y.2) } }
    ws.foldl (fun t y => (t.wordWrite .oasis y.1 y.2).2) s1

/-! ### Decryption -/

/-- R397: what a Husk's header says: KEY_ID, the bytes of NONCE, BODY_BYTES. -/
def huskHeader (h : List Nat) : Nat × List Nat × Nat := (leField h 32 8, (h.drop 40).take 12, leField h 56 8)

/-- R397: the header of a shard's Husk in external memory. -/
def State.huskHead (s : State) (v i : Nat) : List Nat := ((s.hbmBytes (s.shard v i).addr 256).1).map (·.1)

/-- R397, R398: what reading `n` bytes of the body of a held Husk from offset `off` gives: a hollow Husk (0), a Husk whose key no slot holds
(1), bytes outside the body (2), or their plaintext; and the state after the reads. -/
def State.decryptAt (s : State) (v i off n : Nat) : (Nat ⊕ List Nat) × State :=
  let a := (s.shard v i).addr
  let (h, s1) := s.hbmBytes a 256
  let (key, nonce, body) := huskHeader (h.map (·.1))
  let (bs, s2) := s1.hbmBytes (a + 256 + off) n
  if h.any (·.2) then (.inl 0, s1)
  else match (s1.keySlot key).bind (Tbl.get? s1.sec.models) with
  | none => (.inl 1, s1)
  | some k =>
    if body < off + n then (.inl 2, s1)
    else if bs.any (·.2) then (.inl 0, s2)
    else (.inr (ctrMode k nonce off (bs.map (·.1))), s2)

/-- R399: an entry of the shard directory. -/
def dirEntry (e : List Nat) : DirEntry :=
  { kind := leField e 0 1, fmt := leField e 1 1, target := leField e 4 4, crc := leField e 8 4, off := leField e 16 8, len := leField e 24 8 }

/-- R399: the KIND is not reserved and the item lies inside the body, at a multiple of 4,096. -/
def entryOk (x : DirEntry) (body : Nat) : Bool :=
  decide (1 ≤ x.kind) && decide (x.kind ≤ 8) && decide (x.off % 4096 = 0) && decide (x.off + x.len ≤ body)

/-- R399: the directory of a held Husk: as `decryptAt` answers, but its entries; a directory to be refused answers 2. -/
def State.directory (s : State) (v i : Nat) : (Nat ⊕ List DirEntry) × State :=
  match s.decryptAt v i 0 16 with
  | (.inl c, s1) => (.inl c, s1)
  | (.inr h, s1) =>
    let n := leField h 0 4
    match s1.decryptAt v i 16 (32 * n) with
    | (.inl c, s2) => (.inl c, s2)
    | (.inr d, s2) =>
      let es := (chunks 32 n d).map dirEntry
      if (h.drop 4).any (· != 0) ∨ es.any (fun e => !entryOk e (huskHeader (s.huskHead v i)).2.2) then (.inl 2, s2) else (.inr es, s2)

/-- R409, R415: a Husk that reads hollow (0), that no key opens (1) or whose directory is refused (2) stops the activation. -/
def State.itemStop (s : State) (v i c : Nat) : State :=
  if c = 0 then (s.shardLost v i).shardStop v i ksSourceUnreadable else s.shardStop v i (if c = 1 then ksNoKey else ksBadParam)

/-- R409, R415: the whole of a shard has been decrypted: a Husk that reads hollow or fails its HUSK_DIGEST is lost, and a plaintext that
fails PLAIN_DIGEST stops the activation; otherwise the shard is done. -/
def State.shardDone (s : State) (v i : Nat) : State :=
  let h := s.huskHead v i
  let body := (huskHeader h).2.2
  let (bs, s1) := s.hbmBytes (s.shard v i).addr (256 + body)
  let digest := ((s.man v).bind fun m => m.shards[i]?).map fun sh => sh.digest
  match s1.decryptAt v i 0 body, Tbl.get? s.sec.staging v with
  | (.inr plain, s2), some g =>
    if digest ≠ some (Config.sha384 (bs.map (·.1))) then (s2.shardLost v i).shardStop v i ksSourceUnreadable
    else if sha384 plain ≠ (h.drop 64).take 48 then s2.shardStop v i ksDigestMismatch
    else { s2 with sec := { s2.sec with staging := Tbl.put s2.sec.staging v { g with shards := g.shards.erase i } } }
  | (.inl c, s2), some _ => s2.itemStop v i c
  | (_, s2), none => s2

/-- ITEM_DECRYPTED's effect, R398, R399, R409, R415: item `n` of the directory of a shard is decrypted and written, to external address `ext`
and SRAM offset `sram` as its KIND needs; `last`: it is the last of the shard. An item at an address outside its range of R276 is none that
a placement assigns: no effect. -/
def State.itemDecrypted (s : State) (v i n ext sram : Nat) (last : Bool) : State :=
  match Tbl.get? s.sec.staging v with
  | none => s
  | some g =>
    if !g.shards.contains i then s
    else match s.directory v i with
    | (.inl c, s0) => s0.itemStop v i c
    | (.inr es, s0) => match es[n]? with
      | none => s
      | some e =>
        let x : Item := { toDirEntry := e, addr := ext, sram := sram }
        if !s.itemPlaced x then s
        else match s0.decryptAt v i e.off e.len with
        | (.inl c, s1) => s1.itemStop v i c
        | (.inr plain, s1) =>
          let s2 := s1.stageItem v x plain
          if last && (Tbl.get? s2.sec.staging v).isSome then s2.shardDone v i else s2

/-! ### EPOCH_BIND -/

/-- R164: no operation of the variant is queued, running or owed, and every engine's operation has been asked for. -/
def State.staged (s : State) (v : Nat) (g : StageSt) : Bool :=
  g.shards.isEmpty && ((s.var v).place.items.all fun x =>
    let p := s.progSt x.1
    g.asked.contains x.1 && p.queued.isNone && p.running.isNone && p.owed.isNone && s.ready x.1 x.2.1)

/-- R164, R314: the bindings of the new epoch, the tables of the variant and of the one it replaces. -/
def State.bindEpoch (s : State) (v ep : Nat) : State :=
  let x := s.var v
  let s1 := s.each x.place.items fun t y =>
    ((((t.wf (epochBankF ep) y.1 (y.2.1 + 1)).retrack y.1 t).tryOwed y.1).holdCheck (engCore y.1))
  let s2 := { s1 with
    lastEpoch := if x.place.head = s.here then ep else s.lastEpoch
    sec := { s1.sec with staging := Tbl.del s1.sec.staging v } }
  let s3 := (s2.wf R.SERVE2_EPOCH 0 ep v).setVState v vActive
  let s4 := match x.activating with
    | some (qp, id) => s3.finalRec qp id (s3.servingShort stOk 0)
    | none => s3
  let s5 := s4.setVar v { s4.var v with activating := none, replaces := none }
  match x.replaces with
  | some r => if s5.vstate r = vActive then s5.drainStart r x.preemptReplaced else s5
  | none => s5

/-- R164: the head module passes the epoch to the Oasis of every other module of the placement. -/
def State.passEpoch (s : State) (v ep : Nat) : State :=
  let p := (s.var v).place
  if p.head ≠ s.here then s else s.each (p.modules.filter (· ≠ s.here)) fun t m => t.mesh 22 m [v, ep]

/-- R165: no engine of the placement stands in a domain that a reset holds, so every binding of this module can be written. -/
def State.bindable (s : State) (v : Nat) : Bool :=
  (s.var v).place.items.all fun x => !s.gated (.core (engCore x.1)) && !s.isAbsent (engCore x.1)

/-- EPOCH_BIND's effect, R164. `elsewhere`: epoch values bound on the placement's other modules; `given`: the value the head module passes,
where this module is not the head; `confirmed`: every other module has confirmed its writes. While a write cannot be confirmed, the
bindings written are cleared again (R165): the variant stays STAGING, and a later EPOCH_BIND repeats the activation. -/
def State.epochBind (s : State) (v elsewhere given : Nat) (confirmed : Bool) : State :=
  match Tbl.get? s.sec.staging v with
  | none => s
  | some g =>
    if s.vstate v ≠ vStaging ∨ !s.staged v g ∨ !s.rb R.CARAVAN_COMPLETE 0 v then s
    else
      let p := (s.var v).place
      match p.items.find? fun x => s.rf (jcrcF x.2.1) x.1 ≠ x.2.2.2.2 with
      | some x => s.activationStop v x.1 prBadImage
      | none =>
        match (if p.head = s.here then s.newEpoch elsewhere else some (given % 4)) with
        | none => s.activationStop v ((p.items.map (·.1)).headD 0) prBusy
        | some ep =>
          let s1 := s.passEpoch v ep
          if confirmed && s1.bindable v then s1.bindEpoch v ep else s1

/-! ### Commands -/

/-- VARIANT_ACTIVATE, R314. `place`: the placement that the held shards hold; `elsewhere`: the epoch values bound on its other modules. -/
def execVariantActivate (c : Cmd) (place : Placement) (elsewhere : Nat) (s : State) : Host.Outcome State Fault Refusal :=
  .next (s.vorane (.variantActivate c place elsewhere) 0x26 c .f (c.bodyWords = 1) fun t => t.activateVariant c place elsewhere)

/-- ITEM_DECRYPTED, R415. The twelve decryptor units do the same work: `_unit` names the one. -/
def execItemDecrypted (v i n ext sram : Nat) (last : Bool) (_unit : Nat) (s : State) : Host.Outcome State Fault Refusal :=
  .next (s.itemDecrypted v i n ext sram last)

/-- EPOCH_BIND, R164. -/
def execEpochBind (v elsewhere : Nat) (pass : EpochPass) (s : State) : Host.Outcome State Fault Refusal :=
  .next (s.epochBind v elsewhere pass.value pass.confirmed)

end Sys2Proof.Machine
end

