-- ==== Sys2Proof/Machine/Dispatch.lean ====
section
/-! DEFINITION. One arm per command: a direct call of its meaning, or a refusal by name where it has none yet. -/

namespace Sys2Proof.Machine

def exec (i : Instr) (s : State) : Host.Outcome State Fault Refusal :=
  match i with
  | .registerWrite m a w => Sys2Proof.Machine.execRegisterWrite m a w s
  | .rcRead m a => Sys2Proof.Machine.execRcRead m a s
  | .errRearm m pi w => Sys2Proof.Machine.execErrRearm m pi w s
  | .ctlDomainReset m pi w => Sys2Proof.Machine.execCtlDomainReset m pi w s
  | .intForce m pi w => Sys2Proof.Machine.execIntForce m pi w s
  | .regRead c => Sys2Proof.Machine.execRegRead c s
  | .regWrite c => Sys2Proof.Machine.execRegWrite c s
  | .bankCtlWrite m e w => Sys2Proof.Machine.execBankCtlWrite m e w s
  | .subStepEnd e noise => Sys2Proof.Machine.execSubStepEnd e noise s
  | .pilotSweepDue e b => Sys2Proof.Machine.execPilotSweepDue e b s
  | .pilotSubStep e b noise => Sys2Proof.Machine.execPilotSubStep e b noise s
  | .forcedSweep e b noise => Sys2Proof.Machine.execForcedSweep e b noise s
  | .pilotStale e => Sys2Proof.Machine.execPilotStale e s
  | .pilotNow m e w => Sys2Proof.Machine.execPilotNow m e w s
  | .progStart m e w => Sys2Proof.Machine.execProgStart m e w s
  | .progAbort m e w => Sys2Proof.Machine.execProgAbort m e w s
  | .deferExpiry e => Sys2Proof.Machine.execDeferExpiry e s
  | .rowPulseEnd e => Sys2Proof.Machine.execRowPulseEnd e s
  | .verifySubStep e devs noise => Sys2Proof.Machine.execVerifySubStep e devs noise s
  | .verifyDeadline e => Sys2Proof.Machine.execVerifyDeadline e s
  | .govPolicyWrite m e w => Sys2Proof.Machine.execGovPolicyWrite m e w s
  | .holdTimeout ck => Sys2Proof.Machine.execHoldTimeout ck s
  | .slowVcoreNamed ck => Sys2Proof.Machine.execSlowVcoreNamed ck s
  | .localFlip e => Sys2Proof.Machine.execLocalFlip e s
  | .epochBind v elsewhere pass => Sys2Proof.Machine.execEpochBind v elsewhere pass s
  | .pipReceive p pc redirected => Sys2Proof.Machine.execPipReceive p pc redirected s
  | .stepFire ck => Sys2Proof.Machine.execStepFire ck s
  | .postUnitDone ck => Sys2Proof.Machine.execPostUnitDone ck s
  | .pipSend ck => Sys2Proof.Machine.execPipSend ck s
  | .standinResult ck id n ok vals => Sys2Proof.Machine.execStandinResult ck id n ok vals s
  | .kernelStepFire k => Sys2Proof.Machine.execKernelStepFire k s
  | .kernelStepEnd v ops => Sys2Proof.Machine.execKernelStepEnd v ops s
  | .kernelOverrun v => Sys2Proof.Machine.execKernelOverrun v s
  | .kvWrite v slot pos off mode parts => Sys2Proof.Machine.execKvWrite v slot pos off mode parts s
  | .kvReserve v => Sys2Proof.Machine.execKvReserve v s
  | .kvRelease v => Sys2Proof.Machine.execKvRelease v s
  | .kvShare v => Sys2Proof.Machine.execKvShare v s
  | .standinRequest v ck id n => Sys2Proof.Machine.execStandinRequest v ck id n s
  | .standinDone v => Sys2Proof.Machine.execStandinDone v s
  | .sampleToken v id pos off n => Sys2Proof.Machine.execSampleToken v id pos off n s
  | .scoreHeartbeat ck w => Sys2Proof.Machine.execScoreHeartbeat ck w s
  | .heartbeatLost ck => Sys2Proof.Machine.execHeartbeatLost ck s
  | .mtimecmpInterrupt ck => Sys2Proof.Machine.execMtimecmpInterrupt ck s
  | .txSend ck w => Sys2Proof.Machine.execTxSend ck w s
  | .rxTailWrite ck w => Sys2Proof.Machine.execRxTailWrite ck w s
  | .mailbox ck w => Sys2Proof.Machine.execMailbox ck w s
  | .hollowLoad ck pc a n lost => Sys2Proof.Machine.execHollowLoad ck pc a n lost s
  | .registerResult ck pc a x => Sys2Proof.Machine.execRegisterResult ck pc a x s
  | .scoreRun ck w => Sys2Proof.Machine.execScoreRun ck w s
  | .coreImageChunk ck n data => Sys2Proof.Machine.execCoreImageChunk ck n data s
  | .coreImageEnd ck count digest => Sys2Proof.Machine.execCoreImageEnd ck count digest s
  | .coreImageReport ck => Sys2Proof.Machine.execCoreImageReport ck s
  | .flitReceive r port data side => Sys2Proof.Machine.execFlitReceive r port data side s
  | .creditRequest producer dest stream n => Sys2Proof.Machine.execCreditRequest producer dest stream n s
  | .creditGrant ck dest stream n g => Sys2Proof.Machine.execCreditGrant ck dest stream n g s
  | .creditReturn ck dest stream n g => Sys2Proof.Machine.execCreditReturn ck dest stream n g s
  | .creditRelease dest stream n gen => Sys2Proof.Machine.execCreditRelease dest stream n gen s
  | .creditIdle ck dest stream => Sys2Proof.Machine.execCreditIdle ck dest stream s
  | .noBufferRetry ck dest stream => Sys2Proof.Machine.execNoBufferRetry ck dest stream s
  | .responseReceive ck pc redirected reqGen words => Sys2Proof.Machine.execResponseReceive ck pc redirected reqGen words s
  | .mapEntryWrite m r b n0 w => Sys2Proof.Machine.execMapEntryWrite m r b n0 w s
  | .mapSwitch m r w => Sys2Proof.Machine.execMapSwitch m r w s
  | .clockHoldEnd half => Sys2Proof.Machine.execClockHoldEnd half s
  | .hbmRead r id a n lr errs flips miss => Sys2Proof.Machine.execHbmRead r id a n lr errs flips miss s
  | .hbmWrite r id a n v hollow kind errs flips miss => Sys2Proof.Machine.execHbmWrite r id a n v hollow kind errs flips miss s
  | .scrubRead st errs flips miss => Sys2Proof.Machine.execScrubRead st errs flips miss s
  | .hbmTrain st outcome => Sys2Proof.Machine.execHbmTrain st outcome s
  | .hbmFill st => Sys2Proof.Machine.execHbmFill st s
  | .interleaveWrite m w => Sys2Proof.Machine.execInterleaveWrite m w s
  | .sealedRangeWrite m limit w => Sys2Proof.Machine.execSealedRangeWrite m limit w s
  | .ctxOpen c => Sys2Proof.Machine.execCtxOpen c s
  | .ctxClose c => Sys2Proof.Machine.execCtxClose c s
  | .submit c => Sys2Proof.Machine.execSubmit c s
  | .cancel c => Sys2Proof.Machine.execCancel c s
  | .inquire c => Sys2Proof.Machine.execInquire c s
  | .ringSetup c => Sys2Proof.Machine.execRingSetup c s
  | .variantActivate c place elsewhere => Sys2Proof.Machine.execVariantActivate c place elsewhere s
  | .variantRetire c => Sys2Proof.Machine.execVariantRetire c s
  | .promptReadDone id ok tokens => Sys2Proof.Machine.execPromptReadDone id ok tokens s
  | .requestActivate v => Sys2Proof.Machine.execRequestActivate v s
  | .dispatchTurn v => Sys2Proof.Machine.execDispatchTurn v s
  | .starvePromotion id => Sys2Proof.Machine.execStarvePromotion id s
  | .tenantDebit m t w => Sys2Proof.Machine.execTenantDebit m t w s
  | .tenantEnable m t w => Sys2Proof.Machine.execTenantEnable m t w s
  | .tenantRateWrite m t w => Sys2Proof.Machine.execTenantRateWrite m t w s
  | .deadlineExpiry id => Sys2Proof.Machine.execDeadlineExpiry id s
  | .ringDeliver r => Sys2Proof.Machine.execRingDeliver r s
  | .tailAck r => Sys2Proof.Machine.execTailAck r s
  | .consumedWrite m r w => Sys2Proof.Machine.execConsumedWrite m r w s
  | .positionDone id hollow token => Sys2Proof.Machine.execPositionDone id hollow token s
  | .abnormalEnd id status lost => Sys2Proof.Machine.execAbnormalEnd id status lost s
  | .drainLimit v => Sys2Proof.Machine.execDrainLimit v s
  | .drainLimitWrite m v w => Sys2Proof.Machine.execDrainLimitWrite m v w s
  | .drainSetDispatch v => Sys2Proof.Machine.execDrainSetDispatch v s
  | .drainSetArrival v => Sys2Proof.Machine.execDrainSetArrival v s
  | .frameReceive port f => Sys2Proof.Machine.execFrameReceive port f s
  | .portEnable m p w => Sys2Proof.Machine.execPortEnable m p w s
  | .linkUp port => Sys2Proof.Machine.execLinkUp port s
  | .linkDownTimeout port => Sys2Proof.Machine.execLinkDownTimeout port s
  | .pfcXoff port occ => Sys2Proof.Machine.execPfcXoff port occ s
  | .pfcRepeat port occ => Sys2Proof.Machine.execPfcRepeat port occ s
  | .pfcXon port occ => Sys2Proof.Machine.execPfcXon port occ s
  | .pfcReceive port enable quanta => Sys2Proof.Machine.execPfcReceive port enable quanta s
  | .cnpReceive qp => Sys2Proof.Machine.execCnpReceive qp s
  | .rateIncrease qp => Sys2Proof.Machine.execRateIncrease qp s
  | .addressWrite m p j w => Sys2Proof.Machine.execAddressWrite m p j w s
  | .arpRequest port ip => Sys2Proof.Machine.execArpRequest port ip s
  | .neighbourSolicitation port hi lo => Sys2Proof.Machine.execNeighbourSolicitation port hi lo s
  | .lldpSend port => Sys2Proof.Machine.execLldpSend port s
  | .lldpReceive port chassis portId => Sys2Proof.Machine.execLldpReceive port chassis portId s
  | .inboundRdma qp => Sys2Proof.Machine.execInboundRdma qp s
  | .remoteNak qp => Sys2Proof.Machine.execRemoteNak qp s
  | .cmReq port r => Sys2Proof.Machine.execCmReq port r s
  | .cmRtu qp => Sys2Proof.Machine.execCmRtu qp s
  | .cmRej qp => Sys2Proof.Machine.execCmRej qp s
  | .cmDreq qp => Sys2Proof.Machine.execCmDreq qp s
  | .cmDrep qp => Sys2Proof.Machine.execCmDrep qp s
  | .qpClose m q => Sys2Proof.Machine.execQpClose m q s
  | .qpError qp cause => Sys2Proof.Machine.execQpError qp cause s
  | .rcAck qp kind psn => Sys2Proof.Machine.execRcAck qp kind psn s
  | .rcRetryTimeout qp => Sys2Proof.Machine.execRcRetryTimeout qp s
  | .commandTimeout qp id => Sys2Proof.Machine.execCommandTimeout qp id s
  | .unknownOpcode opcode c => Sys2Proof.Machine.execUnknownOpcode opcode c s
  | .nop c => Sys2Proof.Machine.execNop c s
  | .identify c => Sys2Proof.Machine.execIdentify c s
  | .semAcquire c => Sys2Proof.Machine.execSemAcquire c s
  | .semRelease c => Sys2Proof.Machine.execSemRelease c s
  | .semBreak c => Sys2Proof.Machine.execSemBreak c s
  | .semOpAcquire m n0 lease => Sys2Proof.Machine.execSemOpAcquire m n0 lease s
  | .semOpRelease m n0 => Sys2Proof.Machine.execSemOpRelease m n0 s
  | .semOpBreak m n0 => Sys2Proof.Machine.execSemOpBreak m n0 s
  | .leaseExpiry n0 => Sys2Proof.Machine.execLeaseExpiry n0 s
  | .ptpSync port domain seq twoStep => Sys2Proof.Machine.execPtpSync port domain seq twoStep s
  | .ptpFollowUp port domain seq t1 => Sys2Proof.Machine.execPtpFollowUp port domain seq t1 s
  | .ptpAnnounce port domain gm => Sys2Proof.Machine.execPtpAnnounce port domain gm s
  | .ptpDelayResp port domain seq t4 => Sys2Proof.Machine.execPtpDelayResp port domain seq t4 s
  | .ptpManagement port domain words => Sys2Proof.Machine.execPtpManagement port domain words s
  | .laneBad d lane power => Sys2Proof.Machine.execLaneBad d lane power s
  | .laneFrame d active boundary => Sys2Proof.Machine.execLaneFrame d active boundary s
  | .laneRetrain d lane ok => Sys2Proof.Machine.execLaneRetrain d lane ok s
  | .fibreReversed d txLight rxLight => Sys2Proof.Machine.execFibreReversed d txLight rxLight s
  | .borsanFrameReceive d f crcOk fec => Sys2Proof.Machine.execBorsanFrameReceive d f crcOk fec s
  | .borsanAck d seq => Sys2Proof.Machine.execBorsanAck d seq s
  | .borsanNak d seq => Sys2Proof.Machine.execBorsanNak d seq s
  | .timeFrameSend d => Sys2Proof.Machine.execTimeFrameSend d s
  | .timeFrameReceive d peerT1 echoT1 t2 t3 => Sys2Proof.Machine.execTimeFrameReceive d peerT1 echoT1 t2 t3 s
  | .remoteCreditReq u f => Sys2Proof.Machine.execRemoteCreditReq u f s
  | .remoteCreditGrant u f => Sys2Proof.Machine.execRemoteCreditGrant u f s
  | .remoteCreditReturn u f => Sys2Proof.Machine.execRemoteCreditReturn u f s
  | .noticeFrame f => Sys2Proof.Machine.execNoticeFrame f s
  | .lsnReceive d l => Sys2Proof.Machine.execLsnReceive d l s
  | .peerLsnTimeout d => Sys2Proof.Machine.execPeerLsnTimeout d s
  | .topologyLoad c => Sys2Proof.Machine.execTopologyLoad c s
  | .helloSend d => Sys2Proof.Machine.execHelloSend d s
  | .helloReceive d h => Sys2Proof.Machine.execHelloReceive d h s
  | .agreeTimeout d => Sys2Proof.Machine.execAgreeTimeout d s
  | .collectiveStart n0 => Sys2Proof.Machine.execCollectiveStart n0 s
  | .chunkReceive u f => Sys2Proof.Machine.execChunkReceive u f s
  | .chunkAck u f => Sys2Proof.Machine.execChunkAck u f s
  | .resendReq u f => Sys2Proof.Machine.execResendReq u f s
  | .collectiveTimeout n0 => Sys2Proof.Machine.execCollectiveTimeout n0 s
  | .linkEnable m d w => Sys2Proof.Machine.execLinkEnable m d w s
  | .modelKeyImport c lowFirst => Sys2Proof.Machine.execModelKeyImport c lowFirst s
  | .modelKeyDelete c => Sys2Proof.Machine.execModelKeyDelete c s
  | .variantRegister c => Sys2Proof.Machine.execVariantRegister c s
  | .huskFetch c => Sys2Proof.Machine.execHuskFetch c s
  | .variantUnregister c => Sys2Proof.Machine.execVariantUnregister c s
  | .shardFrame f => Sys2Proof.Machine.execShardFrame f s
  | .huskVerified v n0 fromHost copy => Sys2Proof.Machine.execHuskVerified v n0 fromHost copy s
  | .bulkAck f hollow => Sys2Proof.Machine.execBulkAck f hollow s
  | .shardTimeout v => Sys2Proof.Machine.execShardTimeout v s
  | .notRegisteredResend v n0 => Sys2Proof.Machine.execNotRegisteredResend v n0 s
  | .itemDecrypted v n0 n ext sram last unit => Sys2Proof.Machine.execItemDecrypted v n0 n ext sram last unit s
  | .fwChunk f => Sys2Proof.Machine.execFwChunk f s
  | .spdmGetVersion c => Sys2Proof.Machine.execSpdmGetVersion c s
  | .spdmGetCapabilities c rsp => Sys2Proof.Machine.execSpdmGetCapabilities c rsp s
  | .spdmNegotiateAlgorithms c rsp => Sys2Proof.Machine.execSpdmNegotiateAlgorithms c rsp s
  | .spdmGetDigests c rsp => Sys2Proof.Machine.execSpdmGetDigests c rsp s
  | .spdmGetCertificate c rsp => Sys2Proof.Machine.execSpdmGetCertificate c rsp s
  | .spdmChallenge c rsp => Sys2Proof.Machine.execSpdmChallenge c rsp s
  | .spdmGetMeasurements c rsp => Sys2Proof.Machine.execSpdmGetMeasurements c rsp s
  | .spdmUnsupported c => Sys2Proof.Machine.execSpdmUnsupported c s
  | .sramScrub pc off errs miss => Sys2Proof.Machine.execSramScrub pc off errs miss s
  | .reexecCheckDone ck id n ok vals => Sys2Proof.Machine.execReexecCheckDone ck id n ok vals s
  | .evidence pc code eng => Sys2Proof.Machine.execEvidence pc code eng s
  | .railSlewEnd p => Sys2Proof.Machine.execRailSlewEnd p s
  | .absentNotice stream => Sys2Proof.Machine.execAbsentNotice stream s
  | .domainReset c => Sys2Proof.Machine.execDomainReset c s
  | .drainEnd scope target => Sys2Proof.Machine.execDrainEnd scope target s
  | .resetRelease scope target badCores => Sys2Proof.Machine.execResetRelease scope target badCores s
  | .genWaitEnd scope target => Sys2Proof.Machine.execGenWaitEnd scope target s
  | .stepWatchdog ck id waited => Sys2Proof.Machine.execStepWatchdog ck id waited s
  | .nobufLimit ck dest stream => Sys2Proof.Machine.execNobufLimit ck dest stream s
  | .resetEscalation scope target => Sys2Proof.Machine.execResetEscalation scope target s
  | .coldStart floating => Sys2Proof.Machine.execColdStart floating s
  | .romPhaseEnd b => Sys2Proof.Machine.execRomPhaseEnd b s
  | .platformPhaseEnd bad => Sys2Proof.Machine.execPlatformPhaseEnd bad s
  | .selfTestDone pc engines sramBad logicBad niBad signature => Sys2Proof.Machine.execSelfTestDone pc engines sramBad logicBad niBad signature s
  | .coresPhaseEnd badCores => Sys2Proof.Machine.execCoresPhaseEnd badCores s
  | .moduleLeave c => Sys2Proof.Machine.execModuleLeave c s
  | .oasisRestartDone ok => Sys2Proof.Machine.execOasisRestartDone ok s
  | .heartbeat c => Sys2Proof.Machine.execHeartbeat c s
  | .heartbeatRestart c => Sys2Proof.Machine.execHeartbeatRestart c s
  | .heartbeatEchoTimeout qp id => Sys2Proof.Machine.execHeartbeatEchoTimeout qp id s
  | .timeSetStep c => Sys2Proof.Machine.execTimeSetStep c s
  | .timeSetSlew c => Sys2Proof.Machine.execTimeSetSlew c s
  | .eventSend qp => Sys2Proof.Machine.execEventSend qp s
  | .eventSubscribe c => Sys2Proof.Machine.execEventSubscribe c s
  | .logRead c => Sys2Proof.Machine.execLogRead c s
  | .statusQuery c => Sys2Proof.Machine.execStatusQuery c s
  | .fwUpdateStage c => Sys2Proof.Machine.execFwUpdateStage c s
  | .fwStageDone status version security raise image => Sys2Proof.Machine.execFwStageDone status version security raise image s
  | .fwUpdateActivate c => Sys2Proof.Machine.execFwUpdateActivate c s
  | .fwUpdateCommit c => Sys2Proof.Machine.execFwUpdateCommit c s
  | .fwUpdateDiscard c => Sys2Proof.Machine.execFwUpdateDiscard c s
  | .conversionEnd n0 code => Sys2Proof.Machine.execConversionEnd n0 code s
  | .overcurrentComparator n0 n => Sys2Proof.Machine.execOvercurrentComparator n0 n s
  | .urgentGo m n0 w => Sys2Proof.Machine.execUrgentGo m n0 w s
  | .slowRound thbm tele peak leakOhm leakShort late => Sys2Proof.Machine.execSlowRound thbm tele peak leakOhm leakShort late s
  | .throttleEscalate p => Sys2Proof.Machine.execThrottleEscalate p s
  | .undervoltageEnd p => Sys2Proof.Machine.execUndervoltageEnd p s
  | .powerCapSet c => Sys2Proof.Machine.execPowerCapSet c s
  | .sensorQuery c => Sys2Proof.Machine.execSensorQuery c s
  | .ageingMeasure counts => Sys2Proof.Machine.execAgeingMeasure counts s
  | .replanNow m w => Sys2Proof.Machine.execReplanNow m w s
  | .sbSetdasa static dyn => Sys2Proof.Machine.execSbSetdasa static dyn s
  | .sbEntdaa dyn => Sys2Proof.Machine.execSbEntdaa dyn s
  | .sbIdent pecOk early => Sys2Proof.Machine.execSbIdent pecOk early s
  | .sbState pecOk early => Sys2Proof.Machine.execSbState pecOk early s
  | .sbThermal pecOk early => Sys2Proof.Machine.execSbThermal pecOk early s
  | .sbPower pecOk early => Sys2Proof.Machine.execSbPower pecOk early s
  | .sbBoardCap pecOk watts => Sys2Proof.Machine.execSbBoardCap pecOk watts s
  | .sbFaults pecOk early => Sys2Proof.Machine.execSbFaults pecOk early s
  | .sbFaultClear pecOk mask => Sys2Proof.Machine.execSbFaultClear pecOk mask s
  | .linkLoss port => Sys2Proof.Machine.execLinkLoss port s
  | .linkTrained d lanes txCount positions powers => Sys2Proof.Machine.execLinkTrained d lanes txCount positions powers s
  | .resetPhaseEnd scope target => Sys2Proof.Machine.execResetPhaseEnd scope target s
  | .accessFault ck pc a n kind => Sys2Proof.Machine.execAccessFault ck pc a n kind s
  | .manifestReadDone v ok bytes addr room => Sys2Proof.Machine.execManifestReadDone v ok bytes addr room s
  | .pageInterrupt => Sys2Proof.Machine.execPageInterrupt s
  | .progDequeue => Sys2Proof.Machine.execProgDequeue s
  | .elapsedTick => Sys2Proof.Machine.execElapsedTick s
  | .elapsedCommit => Sys2Proof.Machine.execElapsedCommit s
  | .mapSwitchComplete => Sys2Proof.Machine.execMapSwitchComplete s
  | .commitToken => Sys2Proof.Machine.execCommitToken s
  | .commitEnd => Sys2Proof.Machine.execCommitEnd s
  | .commitTokenEnd => Sys2Proof.Machine.execCommitTokenEnd s
  | .routeSwitch => Sys2Proof.Machine.execRouteSwitch s
  | .routeHoldEnd => Sys2Proof.Machine.execRouteHoldEnd s
  | .fence => Sys2Proof.Machine.execFence s
  | .memoryPhaseEnd => Sys2Proof.Machine.execMemoryPhaseEnd s
  | .linksPhaseEnd => Sys2Proof.Machine.execLinksPhaseEnd s
  | .phaseTimeout => Sys2Proof.Machine.execPhaseTimeout s
  | .leaveDrainDone => Sys2Proof.Machine.execLeaveDrainDone s
  | .leaveLimit => Sys2Proof.Machine.execLeaveLimit s
  | .wdLoop => Sys2Proof.Machine.execWdLoop s
  | .wdRound => Sys2Proof.Machine.execWdRound s
  | .wdHost => Sys2Proof.Machine.execWdHost s
  | .oasisRestartTimeout => Sys2Proof.Machine.execOasisRestartTimeout s
  | .hbEcho => Sys2Proof.Machine.execHbEcho s
  | .hostSilent => Sys2Proof.Machine.execHostSilent s
  | .syncSourceLost => Sys2Proof.Machine.execSyncSourceLost s
  | .logEvent => Sys2Proof.Machine.execLogEvent s
  | .replan => Sys2Proof.Machine.execReplan s
  | .powerLoss => Sys2Proof.Machine.execPowerLoss s
  | .inputReversed => Sys2Proof.Machine.execInputReversed s
  | .resetNAssert => Sys2Proof.Machine.execResetNAssert s
  | .powerApplied => Sys2Proof.Machine.execPowerApplied s
  | .inputOvervoltage => Sys2Proof.Machine.execInputOvervoltage s
  | .railOutOfRegulation => Sys2Proof.Machine.execRailOutOfRegulation s

end Sys2Proof.Machine
end

