-- ==== Sys2Proof/Machine/Idle.lean ====
section
/-! DEFINITION. What the block does when no command waits: it starts a Vorane command that has waited for its fence or for Oasis (R340,
R506), sends the ACK that a waiting management query is due (R342), or else lets one nanosecond of Sandglass time pass (R511). -/

namespace Sys2Proof.Machine

/-- R340, R506: the first waiting command that may start, taken from the waiting list. -/
def State.takeHeld (s : State) : Option (Held × State) :=
  (s.held.find? s.mayStart).map fun h => (h, { s with held := s.held.erase h, resume := some (h.cmd.qp, h.cmd.cmdId) })

/-- R342: the first waiting class Q command whose ACK is due. -/
def State.ackDue (s : State) : Option Held := s.held.find? fun h => h.ackAt.any fun t => decide (t ≤ s.elapsed)

/-- R342: the ACK of a class Q command that has waited for 1 ms. -/
def State.ackHeld (s : State) (h : Held) : State :=
  ({ s with held := s.held.map fun x => if x = h then { x with ackAt := none } else x }).sendAck h.cmd.qp h.cmd.cmdId h.opcode
    (s.arrivalOf h.cmd.qp h.cmd.cmdId)

/-- DESIGN CHOICE (log 3): the step on an empty queue. -/
def State.idle (s : State) : Host.Outcome State Fault Refusal :=
  match s.takeHeld with
  | some (h, t) => exec h.instr t
  | none =>
    match s.ackDue with
    | some h => .next (s.ackHeld h)
    | none => .next s.tickTime

end Sys2Proof.Machine
end

