-- ==== Sys2Proof/Safety.lean ====
section
/-! DEFINITION. The terms the claims use: the invariant of the state, a command that completes, what a command may change. -/

namespace Sys2Proof.Machine

/-- The memories of R262 and R35 are in canonical form (addresses strictly rising, no byte listed that reads as an unlisted one), and no
register cell is listed twice. -/
def State.Inv (s : State) : Prop := Memory.wf s.hbm = true ∧ Memory.wf s.sram = true ∧ Tbl.rising s.regs = true

/-- The command completes: it answers a next state, and that state satisfies `P`. -/
def Completes (i : Instr) (s : State) (P : State → Prop) : Prop := ∃ t, exec i s = .next t ∧ P t

/-- R335 to R341, R506: command `c` starts as it arrives: its queue pair is CONNECTED with a slot free, its frame is in order with
BODY_WORDS words (R338), no open command has its CMD_ID, nothing holds it back, and it is no command that waited before. -/
abbrev State.Takes (s : State) (c : Cmd) : Prop :=
  s.connected c.qp = true ∧ s.rf R.QP_SLOTS_FREE c.qp ≠ 0 ∧ s.openCmd c.qp c.cmdId = none ∧ s.resume ≠ some (c.qp, c.cmdId) ∧
  c.version = 1 ∧ c.kind = 1 ∧ c.reserved = 0 ∧ c.scale ≠ 3 ∧ c.body.length = c.bodyWords ∧ c.payload = 32 + 8 * c.bodyWords ∧
  c.bodyWords ≤ 124 ∧ s.rb R.OASIS_RESTARTING 0 = false ∧ (∀ r ∈ s.rsts, r.dom ≠ .die) ∧
  (∀ h ∈ s.held, h.cmd.qp = c.qp → h.cmd.fence = false) ∧ (c.fence = true → ∀ o ∈ s.cmds, o.qp = c.qp → o.sent = true)

/-- R339, R292: the latest message sent is command `c`'s completion, EXECUTED with this body, and the command is open no more. -/
def State.Answered (s t : State) (c : Cmd) (opcode : Nat) (body : List Nat) : Prop :=
  (∃ send, t.out.head? = some (.completion c.qp c.cmdId opcode resExecuted s.now send body)) ∧ t.openCmd c.qp c.cmdId = none

/-- R221: a master that can reach the register window now: an S-core must run. -/
def State.acts (s : State) (m : Master) : Bool :=
  match m with
  | .score ck => s.scoreRuns ck
  | _ => true

/-- R37 to R59, R568, R569: master `m` (an S-core that runs, R221) reads a word of the page at `off`, and no check stops the read. -/
abbrev State.Reads (s : State) (m : Master) (p : Page) (off : Nat) : Prop :=
  s.acts m = true ∧ off % 8 = 0 ∧ off < 4096 ∧ p.exists_ = true ∧ m.reaches p = true ∧
  (0x100 ≤ off → s.pageReset p = false ∧ s.pageAbsent p = false)

/-- R37 to R59, R568, R569: master `m` (an S-core that runs, R221) writes word `w` of the page at `off`, and no check stops the write:
the page is in no reset, its semaphore is held where it is guarded, no restricted field would change, no reserved encoding is written. -/
abbrev State.Writes (s : State) (m : Master) (p : Page) (off w : Nat) : Prop :=
  s.Reads m p off ∧ w < 2 ^ 64 ∧ (0x100 ≤ off → s.pageRestore p = true → m = .oasis) ∧
  (0x100 ≤ off → p.guarded = true → writable p off = true → s.ownsPage m p = true) ∧ s.restricted m p off w = false ∧
  (off = 0x20 → w.testBit 8 = true → p.resetDom ≠ none → m.code ≠ 4) ∧ s.badWord p off w = false

/-- No register field changes but those of `fs`: fields are told apart by their block type, page, offset and lowest bit. -/
def State.OnlyFields (fs : List Field) (s t : State) : Prop :=
  ∀ (g : Field) (i k : Nat), (∀ f ∈ fs, g.code ≠ f.code) → t.rf g i k = s.rf g i k

/-- Only the named register fields change, and nothing else of the state. -/
def State.OnlyRegs (fs : List Field) (s t : State) : Prop := t = { s with regs := t.regs } ∧ State.OnlyFields fs s t

/-- The named register fields and a page's interrupt state (R50, R51, R53) change, and nothing else of the state. -/
def State.OnlyInts (p : Page) (fs : List Field) (s t : State) : Prop :=
  t = { s with regs := t.regs, irqLatch := t.irqLatch, irqs := t.irqs } ∧ State.OnlyFields (p.intStatus :: p.lastStamp :: fs) s t

/-- The area a register field lies in: its block type, the pages numbered 0x4F and up taken together. -/
def Field.area (f : Field) : Nat := min 79 (f.code / 4194304)

/-- The parts of the state beside the registers. -/
inductive Part where
  | now | elapsed | resetCount | irqLatch | irqs | staging | lostStamps | log | plog | cmds | held | resume | cmdRecs | qps
  | ports | sems | ctxs | ctxReuse | reqs | ended | rings | doorbells | vars | lastEpoch | rems | kv | hbm | hbmTags | resv
  | sram | sramHollow | eng | cells | rowCharge | prog | jour | powered | poweredKept | mc | vc | sc | pools | chans | bufs
  | rsts | genAt | clk | msh | md | oa | resp | sec | sen | dirs | tor | out | freeCtr | pending
deriving DecidableEq, Repr

/-- A part's bit: the register areas take bits 0 to 79, the parts those above. -/
def Part.bit (p : Part) : Nat := 80 + p.ctorIdx

/-- What may be touched, as a mask: register areas and parts. -/
def touch (areas : List Nat) (ps : List Part) : Nat :=
  ps.foldl (fun m p => m ||| 2 ^ p.bit) (areas.foldl (fun m a => m ||| 2 ^ a) 0)

/-- Outside the register areas and parts of the mask, `b` is `a`. -/
def State.Within (m : Nat) (a b : State) : Prop :=
  (∀ (f : Field) (i k : Nat), m.testBit f.area = true ∨ b.rf f i k = a.rf f i k) ∧
  (m.testBit 80 = true ∨ b.now = a.now) ∧
  (m.testBit 81 = true ∨ b.elapsed = a.elapsed) ∧
  (m.testBit 82 = true ∨ b.resetCount = a.resetCount) ∧
  (m.testBit 83 = true ∨ b.irqLatch = a.irqLatch) ∧
  (m.testBit 84 = true ∨ b.irqs = a.irqs) ∧
  (m.testBit 85 = true ∨ b.staging = a.staging) ∧
  (m.testBit 86 = true ∨ b.lostStamps = a.lostStamps) ∧
  (m.testBit 87 = true ∨ b.log = a.log) ∧
  (m.testBit 88 = true ∨ b.plog = a.plog) ∧
  (m.testBit 89 = true ∨ b.cmds = a.cmds) ∧
  (m.testBit 90 = true ∨ b.held = a.held) ∧
  (m.testBit 91 = true ∨ b.resume = a.resume) ∧
  (m.testBit 92 = true ∨ b.cmdRecs = a.cmdRecs) ∧
  (m.testBit 93 = true ∨ b.qps = a.qps) ∧
  (m.testBit 94 = true ∨ b.ports = a.ports) ∧
  (m.testBit 95 = true ∨ b.sems = a.sems) ∧
  (m.testBit 96 = true ∨ b.ctxs = a.ctxs) ∧
  (m.testBit 97 = true ∨ b.ctxReuse = a.ctxReuse) ∧
  (m.testBit 98 = true ∨ b.reqs = a.reqs) ∧
  (m.testBit 99 = true ∨ b.ended = a.ended) ∧
  (m.testBit 100 = true ∨ b.rings = a.rings) ∧
  (m.testBit 101 = true ∨ b.doorbells = a.doorbells) ∧
  (m.testBit 102 = true ∨ b.vars = a.vars) ∧
  (m.testBit 103 = true ∨ b.lastEpoch = a.lastEpoch) ∧
  (m.testBit 104 = true ∨ b.rems = a.rems) ∧
  (m.testBit 105 = true ∨ b.kv = a.kv) ∧
  (m.testBit 106 = true ∨ b.hbm = a.hbm) ∧
  (m.testBit 107 = true ∨ b.hbmTags = a.hbmTags) ∧
  (m.testBit 108 = true ∨ b.resv = a.resv) ∧
  (m.testBit 109 = true ∨ b.sram = a.sram) ∧
  (m.testBit 110 = true ∨ b.sramHollow = a.sramHollow) ∧
  (m.testBit 111 = true ∨ b.eng = a.eng) ∧
  (m.testBit 112 = true ∨ b.cells = a.cells) ∧
  (m.testBit 113 = true ∨ b.rowCharge = a.rowCharge) ∧
  (m.testBit 114 = true ∨ b.prog = a.prog) ∧
  (m.testBit 115 = true ∨ b.jour = a.jour) ∧
  (m.testBit 116 = true ∨ b.powered = a.powered) ∧
  (m.testBit 117 = true ∨ b.poweredKept = a.poweredKept) ∧
  (m.testBit 118 = true ∨ b.mc = a.mc) ∧
  (m.testBit 119 = true ∨ b.vc = a.vc) ∧
  (m.testBit 120 = true ∨ b.sc = a.sc) ∧
  (m.testBit 121 = true ∨ b.pools = a.pools) ∧
  (m.testBit 122 = true ∨ b.chans = a.chans) ∧
  (m.testBit 123 = true ∨ b.bufs = a.bufs) ∧
  (m.testBit 124 = true ∨ b.rsts = a.rsts) ∧
  (m.testBit 125 = true ∨ b.genAt = a.genAt) ∧
  (m.testBit 126 = true ∨ b.clk = a.clk) ∧
  (m.testBit 127 = true ∨ b.msh = a.msh) ∧
  (m.testBit 128 = true ∨ b.md = a.md) ∧
  (m.testBit 129 = true ∨ b.oa = a.oa) ∧
  (m.testBit 130 = true ∨ b.resp = a.resp) ∧
  (m.testBit 131 = true ∨ b.sec = a.sec) ∧
  (m.testBit 132 = true ∨ b.sen = a.sen) ∧
  (m.testBit 133 = true ∨ b.dirs = a.dirs) ∧
  (m.testBit 134 = true ∨ b.tor = a.tor) ∧
  (m.testBit 135 = true ∨ b.out = a.out) ∧
  (m.testBit 136 = true ∨ b.freeCtr = a.freeCtr) ∧
  (m.testBit 137 = true ∨ b.pending = a.pending)

/-- The parts an event of the log touches, R51, R515. -/
def events : List Part := [.irqLatch, .irqs, .staging, .lostStamps]
/-- The parts a command of a host touches by its admission and its completion, R341 to R344. -/
def answer : List Part := [.cmds, .held, .resume, .cmdRecs, .qps, .sems, .sec, .out]
/-- The parts the end of a request touches, R291, R298. -/
def serving : List Part := [.ctxs, .reqs, .ended, .rings, .doorbells, .kv, .hbm, .hbmTags, .resv, .sram]
/-- The parts a frame sent on the torus touches. -/
def wires : List Part := [.dirs, .tor, .out]
/-- Every area and every part but the queue: a command that can order a reset. -/
def anything : Nat := 2 ^ 137 - 1
/-- Every register area. -/
def allAreas : List Nat := List.range 80

/-- What each command may change: every other register area and every other part of the state stays as it was. -/
def touches (i : Instr) : Nat :=
  match i with
  | .registerWrite .. => anything
  | .rcRead .. => anything
  | .errRearm .. => anything
  | .ctlDomainReset .. => anything
  | .intForce .. => anything
  | .regRead .. => touch allAreas (events ++ answer ++ [.ports, .rems, .hbm, .hbmTags, .sen])
  | .regWrite .. => anything
  | .bankCtlWrite .. => anything
  | .subStepEnd .. => touch [0x1, 0x10, 0x11, 0x12, 0x30, 0x31] (events ++ wires ++ [.reqs, .sram, .sramHollow, .eng, .mc, .pools,
      .chans, .bufs, .clk])
  | .pilotSweepDue .. => touch [] [.eng]
  | .pilotSubStep .. => touch [0x1, 0x12, 0x13, 0x20, 0x38] (events ++ [.cmdRecs, .vars, .eng, .prog, .sec, .out])
  | .forcedSweep .. => touch [0x1, 0x12, 0x13, 0x20, 0x38] (events ++ [.cmdRecs, .vars, .eng, .prog, .sec, .out])
  | .pilotStale .. => touch [0x12] []
  | .pilotNow .. => anything
  | .progStart .. => anything
  | .progAbort .. => anything
  | .deferExpiry .. => touch [0x13] [.prog]
  | .rowPulseEnd .. => touch [0x1, 0x12, 0x13, 0x20, 0x38] (events ++ [.cmdRecs, .vars, .eng, .cells, .rowCharge, .prog, .jour, .sec,
      .out])
  | .verifySubStep .. => touch [0x1, 0x10, 0x11, 0x12, 0x13, 0x20, 0x30, 0x31, 0x38] (events ++ wires ++ [.cmdRecs, .reqs, .vars,
      .sram, .sramHollow, .eng, .rowCharge, .prog, .jour, .mc, .pools, .chans, .bufs, .sec])
  | .verifyDeadline .. => touch [0x13] [.prog]
  | .govPolicyWrite .. => anything
  | .holdTimeout .. => touch [0x1, 0x10, 0x11, 0x30, 0x31] (events ++ wires ++ [.mc])
  | .slowVcoreNamed .. => touch [0x1, 0x10, 0x11, 0x30, 0x31] (events ++ wires ++ [.mc])
  | .localFlip .. => touch [0x1, 0x10, 0x11, 0x12, 0x13, 0x20, 0x30, 0x31, 0x38] (events ++ wires ++ [.cmdRecs, .reqs, .vars, .sram,
      .sramHollow, .eng, .prog, .mc, .pools, .chans, .bufs, .sec])
  | .epochBind .. => touch [0x1, 0x10, 0x11, 0x12, 0x13, 0x14, 0x20, 0x30, 0x31, 0x32, 0x38, 0x39, 0x3a] (events ++ serving ++
      wires ++ [.cmdRecs, .vars, .lastEpoch, .sramHollow, .eng, .prog, .mc, .vc, .pools, .chans, .bufs, .sec])
  | .pipReceive .. => touch [0x1, 0x10, 0x11, 0x14, 0x15, 0x18, 0x30, 0x31, 0x4f] (events ++ wires ++ [.sram, .sramHollow, .mc, .sc,
      .bufs, .rsts])
  | .stepFire .. => touch [0x1, 0x10, 0x11, 0x12, 0x13, 0x30, 0x31] (events ++ wires ++ [.reqs, .sram, .sramHollow, .eng, .mc, .pools,
      .chans, .bufs])
  | .postUnitDone .. => touch [0x1, 0x10, 0x11, 0x30, 0x31] (events ++ wires ++ [.reqs, .sram, .mc, .clk])
  | .pipSend .. => touch [0x1, 0x10, 0x11, 0x14, 0x18, 0x30, 0x31] (events ++ wires ++ [.mc, .vc, .sc, .chans])
  | .standinResult .. => touch [0x1, 0x10, 0x11, 0x30, 0x31] (events ++ wires ++ [.reqs, .sram, .sramHollow, .mc, .pools, .chans,
      .bufs, .clk])
  | .kernelStepFire .. => touch [0x1, 0x14, 0x20, 0x30, 0x31] (events ++ wires ++ [.reqs, .hbm, .hbmTags, .resv, .sram, .sramHollow,
      .vc, .chans, .bufs])
  | .kernelStepEnd .. => touch [0x1, 0x14, 0x20, 0x30, 0x31] (events ++ wires ++ [.reqs, .hbm, .hbmTags, .resv, .sram, .sramHollow,
      .vc, .chans, .bufs, .clk])
  | .kernelOverrun .. => anything
  | .kvWrite .. => touch [0x1, 0x14, 0x20] (events ++ [.kv, .hbm, .hbmTags, .resv, .sram, .vc])
  | .kvReserve .. => touch [0x1, 0x14, 0x20, 0x4f] (events ++ [.kv, .hbm, .hbmTags, .resv, .sram, .vc])
  | .kvRelease .. => touch [0x1, 0x14, 0x20, 0x4f] (events ++ [.kv, .hbm, .hbmTags, .resv, .sram, .vc])
  | .kvShare .. => touch [0x1, 0x14, 0x20, 0x4f] (events ++ [.kv, .hbm, .hbmTags, .resv, .sram, .vc])
  | .standinRequest .. => touch [0x14] [.vc]
  | .standinDone .. => touch [0x1, 0x14, 0x20, 0x30, 0x31] (events ++ wires ++ [.vc])
  | .sampleToken .. => touch [0x14] [.irqLatch, .irqs, .vc]
  | .scoreHeartbeat .. => touch [0x1, 0x14, 0x15, 0x30, 0x31, 0x4f] (events ++ wires ++ [.doorbells, .vc, .sc, .bufs])
  | .heartbeatLost .. => anything
  | .mtimecmpInterrupt .. => touch [0x4f] [.sc]
  | .txSend .. => touch [0x1, 0x14, 0x15, 0x30, 0x31, 0x4f] (events ++ wires ++ [.doorbells, .vc, .sc, .bufs])
  | .rxTailWrite .. => touch [0x1, 0x14, 0x15, 0x30, 0x31, 0x4f] (events ++ wires ++ [.doorbells, .vc, .sc, .bufs])
  | .mailbox .. => touch [0x4f] [.sc]
  | .hollowLoad .. => touch [0x15] [.irqLatch, .irqs, .sc]
  | .registerResult .. => anything
  | .scoreRun .. => anything
  | .coreImageChunk .. => touch [0x32] [.sram, .sramHollow, .sc]
  | .coreImageEnd .. => touch [] [.sc]
  | .coreImageReport .. => touch [0x1, 0x15, 0x30, 0x31, 0x32, 0x38] (events ++ wires ++ [.sc])
  | .flitReceive .. => touch [0x0, 0x1, 0x10, 0x11, 0x14, 0x18, 0x19, 0x20, 0x30, 0x31, 0x38, 0x39, 0x3a] (events ++ serving ++
      wires ++ [.vars, .eng, .mc, .vc, .sc, .pools, .chans, .bufs, .clk, .msh, .md])
  | .creditRequest .. => touch [0x1, 0x30, 0x31] (events ++ wires ++ [.chans, .bufs])
  | .creditGrant .. => touch [0x1, 0x10, 0x11, 0x18, 0x30, 0x31] (events ++ wires ++ [.mc, .chans])
  | .creditReturn .. => touch [0x1, 0x10, 0x11, 0x18, 0x30, 0x31] (events ++ wires ++ [.mc, .chans])
  | .creditRelease .. => touch [0x1, 0x30, 0x31] (events ++ wires ++ [.bufs])
  | .creditIdle .. => touch [0x1, 0x30, 0x31] (events ++ wires ++ [.chans])
  | .noBufferRetry .. => touch [0x1, 0x30, 0x31] (events ++ wires ++ [.chans])
  | .responseReceive .. => touch [0x1, 0x14, 0x18, 0x20, 0x30, 0x31] (events ++ wires ++ [.hbm, .hbmTags, .resv, .vc, .sen])
  | .mapEntryWrite .. => anything
  | .mapSwitch .. => anything
  | .clockHoldEnd .. => touch [0x1, 0x18, 0x19, 0x30, 0x31] (events ++ wires ++ [.clk, .msh])
  | .hbmRead .. => touch [0x1, 0x14, 0x20, 0x30, 0x31] (events ++ wires ++ [.hbm, .hbmTags, .resv, .vc, .sen])
  | .hbmWrite .. => touch [0x1, 0x20, 0x30, 0x31] (events ++ wires ++ [.hbm, .hbmTags, .resv, .sen])
  | .scrubRead .. => touch [0x1, 0x20] (events ++ [.hbm, .hbmTags, .md, .sen])
  | .hbmTrain .. => touch [0x0, 0x1, 0x10, 0x11, 0x14, 0x20, 0x30, 0x31, 0x38, 0x39, 0x3a] (events ++ serving ++ wires ++ [.vars, .eng,
      .mc, .vc, .sc, .pools, .chans, .bufs, .clk, .md])
  | .hbmFill .. => touch [0x20] [.hbm, .hbmTags, .md]
  | .interleaveWrite .. => anything
  | .sealedRangeWrite .. => anything
  | .ctxOpen .. => touch [0x1, 0x2, 0x28, 0x29, 0x38, 0x39, 0x3a] (events ++ answer ++ [.ctxs, .ctxReuse, .kv, .freeCtr])
  | .ctxClose .. => touch [0x1, 0x2, 0x10, 0x14, 0x20, 0x28, 0x29, 0x38, 0x39, 0x3a] (events ++ answer ++ [.ctxs, .kv, .hbm, .hbmTags,
      .resv, .sram, .vc, .pools])
  | .submit .. => touch [0x1, 0x2, 0x28, 0x29, 0x38, 0x39, 0x3a] (events ++ answer ++ [.ctxs, .reqs])
  | .cancel .. => touch [0x1, 0x2, 0x10, 0x14, 0x20, 0x28, 0x29, 0x38, 0x39, 0x3a] (events ++ answer ++ serving ++ [.vc])
  | .inquire .. => touch [0x1, 0x2, 0x28, 0x29, 0x3a] (events ++ answer)
  | .ringSetup .. => touch [0x1, 0x2, 0x28, 0x29, 0x38, 0x39, 0x3a] (events ++ answer ++ [.rings])
  | .variantActivate .. => touch [0x1, 0x2, 0x13, 0x28, 0x29, 0x32, 0x38, 0x39, 0x3a] (events ++ answer ++ [.vars, .prog])
  | .variantRetire .. => touch [0x1, 0x2, 0x10, 0x14, 0x20, 0x28, 0x29, 0x38, 0x39, 0x3a] (events ++ answer ++ serving ++ [.vars, .vc])
  | .promptReadDone .. => touch [0x1, 0x10, 0x14, 0x20, 0x28, 0x29, 0x38, 0x39, 0x3a] (events ++ serving ++ [.qps, .vc, .out])
  | .requestActivate .. => touch [0x10, 0x38, 0x39] [.reqs, .sram]
  | .dispatchTurn .. => touch [0x1, 0x30, 0x31, 0x38, 0x39] (events ++ wires ++ [.reqs, .vars, .rems])
  | .starvePromotion .. => touch [0x38] [.reqs, .vars]
  | .tenantDebit .. => anything
  | .tenantEnable .. => anything
  | .tenantRateWrite .. => anything
  | .deadlineExpiry .. => touch [0x1, 0x10, 0x14, 0x20, 0x38, 0x39, 0x3a] (events ++ serving ++ [.vc])
  | .ringDeliver .. => touch [0x28, 0x29, 0x3a] [.qps, .rings, .out]
  | .tailAck .. => touch [0x3a] [.rings]
  | .consumedWrite .. => anything
  | .positionDone .. => touch [0x1, 0x10, 0x14, 0x20, 0x38, 0x39, 0x3a] (events ++ serving ++ [.vars, .vc])
  | .abnormalEnd .. => touch [0x1, 0x10, 0x14, 0x20, 0x38, 0x39, 0x3a] (events ++ serving ++ [.vars, .vc])
  | .drainLimit .. => touch [0x1, 0x10, 0x14, 0x20, 0x38, 0x39, 0x3a] (events ++ serving ++ [.vc])
  | .drainLimitWrite .. => anything
  | .drainSetDispatch .. => touch [0x1, 0x30, 0x31, 0x38] (events ++ wires ++ [.vars])
  | .drainSetArrival .. => touch [0x1, 0x12, 0x13, 0x20, 0x38] (events ++ [.cmdRecs, .vars, .eng, .prog, .sec])
  | .frameReceive .. => touch [0x28] [.irqLatch, .irqs, .qps, .out]
  | .portEnable .. => anything
  | .linkUp .. => touch [0x28] [.irqLatch, .irqs, .ports, .out]
  | .linkDownTimeout .. => touch [0x1, 0x2, 0x28, 0x29, 0x3a] (events ++ [.cmds, .held, .cmdRecs, .qps, .ports, .sems, .sec, .out])
  | .pfcXoff .. => touch [0x28] [.ports, .out]
  | .pfcRepeat .. => touch [0x28] [.ports, .out]
  | .pfcXon .. => touch [0x28] [.ports, .out]
  | .pfcReceive .. => touch [0x28] [.ports]
  | .cnpReceive .. => touch [0x28, 0x29] [.qps, .freeCtr]
  | .rateIncrease .. => touch [0x28, 0x29] [.qps, .freeCtr]
  | .addressWrite .. => anything
  | .arpRequest .. => touch [0x28] [.out]
  | .neighbourSolicitation .. => touch [0x28] [.out]
  | .lldpSend .. => touch [0x0, 0x28] [.ports, .out]
  | .lldpReceive .. => touch [0x28] []
  | .inboundRdma .. => touch [0x1, 0x2, 0x28, 0x29, 0x3a] (events ++ [.cmds, .held, .cmdRecs, .qps, .sems, .sec, .out])
  | .remoteNak .. => touch [0x1, 0x2, 0x28, 0x29, 0x3a] (events ++ [.cmds, .held, .cmdRecs, .qps, .sems, .sec, .out])
  | .cmReq .. => touch [0x28, 0x29] [.qps, .out, .freeCtr]
  | .cmRtu .. => touch [0x28, 0x29] [.qps]
  | .cmRej .. => touch [0x29] [.qps]
  | .cmDreq .. => touch [0x1, 0x2, 0x28, 0x29, 0x3a] (events ++ [.cmds, .held, .cmdRecs, .qps, .sems, .sec, .out])
  | .cmDrep .. => touch [0x29] [.qps]
  | .qpClose .. => anything
  | .qpError .. => touch [0x1, 0x2, 0x28, 0x29, 0x3a] (events ++ [.cmds, .held, .cmdRecs, .qps, .sems, .sec, .out])
  | .rcAck .. => touch [0x1, 0x2, 0x28, 0x29, 0x3a] (events ++ [.cmds, .held, .cmdRecs, .qps, .sems, .sec, .out])
  | .rcRetryTimeout .. => touch [0x1, 0x2, 0x28, 0x29, 0x3a] (events ++ [.cmds, .held, .cmdRecs, .qps, .sems, .sec, .out])
  | .commandTimeout .. => touch [0x2, 0x28, 0x29] [.cmds, .held, .cmdRecs, .qps, .sems, .out]
  | .unknownOpcode .. => touch [0x1, 0x2, 0x28, 0x29, 0x3a] (events ++ answer)
  | .nop .. => touch [0x1, 0x2, 0x28, 0x29, 0x3a] (events ++ answer)
  | .identify .. => touch [0x0, 0x1, 0x2, 0x28, 0x29, 0x3a] (events ++ answer)
  | .semAcquire .. => touch [0x1, 0x2, 0x28, 0x29, 0x3a] (events ++ answer)
  | .semRelease .. => touch [0x1, 0x2, 0x28, 0x29, 0x3a] (events ++ answer)
  | .semBreak .. => touch [0x1, 0x2, 0x28, 0x29, 0x3a] (events ++ answer)
  | .semOpAcquire .. => anything
  | .semOpRelease .. => anything
  | .semOpBreak .. => anything
  | .leaseExpiry .. => touch [0x1, 0x2, 0x28, 0x29] (events ++ [.cmds, .cmdRecs, .qps, .sems, .out])
  | .ptpSync .. => touch [0x28] [.ports]
  | .ptpFollowUp .. => touch [0x1, 0x28] (events ++ [.now, .ports, .oa, .out, .freeCtr])
  | .ptpAnnounce .. => touch [0x28] [.irqLatch, .irqs]
  | .ptpDelayResp .. => touch [0x1, 0x28] (events ++ [.now, .ports, .oa, .freeCtr])
  | .ptpManagement .. => touch [0x28] [.out]
  | .laneBad .. => touch [0x0, 0x1, 0x4, 0x30, 0x31, 0x38, 0x48] (events ++ wires ++ [.md])
  | .laneFrame .. => touch [0x0, 0x1, 0x4, 0x30, 0x31, 0x38, 0x48] (events ++ wires ++ [.md])
  | .laneRetrain .. => touch [0x1, 0x30] (events ++ [.dirs, .out])
  | .fibreReversed .. => touch [0x0, 0x1, 0x4, 0x30, 0x31, 0x38, 0x48] (events ++ wires ++ [.md])
  | .borsanFrameReceive .. => touch [0x1, 0x30, 0x31] (events ++ [.dirs, .out])
  | .borsanAck .. => touch [0x30] [.dirs, .out]
  | .borsanNak .. => touch [0x0, 0x1, 0x4, 0x30, 0x31, 0x38, 0x48] (events ++ wires ++ [.md])
  | .timeFrameSend .. => touch [0x30] [.dirs, .out]
  | .timeFrameReceive .. => touch [0x1, 0x30, 0x31] (events ++ [.now, .oa, .dirs, .freeCtr])
  | .remoteCreditReq .. => touch [0x1, 0x30, 0x31] (events ++ wires)
  | .remoteCreditGrant .. => touch [] [.out]
  | .remoteCreditReturn .. => touch [] [.tor, .out]
  | .noticeFrame .. => touch [0x0, 0x1, 0x10, 0x11, 0x14, 0x20, 0x30, 0x31, 0x38, 0x39, 0x3a] (events ++ serving ++ wires ++ [.vars,
      .eng, .mc, .vc, .sc, .pools, .chans, .bufs, .clk, .md])
  | .lsnReceive .. => touch [0x1, 0x30, 0x31] (events ++ wires)
  | .peerLsnTimeout .. => touch [0x1, 0x30, 0x31] (events ++ [.dirs, .out])
  | .topologyLoad .. => touch [0x0, 0x1, 0x2, 0x4, 0x28, 0x29, 0x30, 0x31, 0x38, 0x3a, 0x48] (events ++ answer ++ wires ++ [.md])
  | .helloSend .. => touch [0x30] [.dirs, .out]
  | .helloReceive .. => touch [0x0, 0x1, 0x4, 0x30, 0x31, 0x38, 0x48] (events ++ wires ++ [.md])
  | .agreeTimeout .. => touch [0x0, 0x1, 0x4, 0x30, 0x31, 0x38, 0x48] (events ++ wires ++ [.md])
  | .collectiveStart .. => touch [0x1, 0x30, 0x31] (events ++ wires)
  | .chunkReceive .. => touch [0x1, 0x30, 0x31] (events ++ wires)
  | .chunkAck .. => touch [] [.tor]
  | .resendReq .. => touch [0x1, 0x30, 0x31] (events ++ wires)
  | .collectiveTimeout .. => touch [0x31] [.irqLatch, .irqs, .tor, .out]
  | .linkEnable .. => anything
  | .modelKeyImport .. => touch [0x1, 0x2, 0x4, 0x28, 0x29, 0x3a] (events ++ answer)
  | .modelKeyDelete .. => touch [0x1, 0x2, 0x4, 0x28, 0x29, 0x3a] (events ++ answer)
  | .variantRegister .. => touch [0x1, 0x2, 0x28, 0x29, 0x3a] (events ++ answer)
  | .huskFetch .. => touch [0x1, 0x2, 0x28, 0x29, 0x3a] (events ++ answer)
  | .variantUnregister .. => touch [0x1, 0x2, 0x4, 0x28, 0x29, 0x32, 0x38, 0x3a] (events ++ answer)
  | .shardFrame .. => touch [0x1, 0x30, 0x31] (events ++ wires ++ [.sec])
  | .huskVerified .. => touch [0x1, 0x20, 0x28, 0x29, 0x30, 0x31, 0x32, 0x38] (events ++ wires ++ [.cmds, .cmdRecs, .qps, .hbm,
      .hbmTags, .resv, .sec])
  | .bulkAck .. => touch [0x1, 0x30, 0x31, 0x32] (events ++ wires ++ [.oa, .sec])
  | .shardTimeout .. => touch [0x1, 0x30, 0x31, 0x32] (events ++ wires ++ [.oa, .sec])
  | .notRegisteredResend .. => touch [0x1, 0x30, 0x31, 0x32] (events ++ wires ++ [.oa, .sec])
  | .itemDecrypted .. => anything
  | .fwChunk .. => touch [0x1, 0x30, 0x31] (events ++ wires ++ [.oa])
  | .spdmGetVersion .. => touch [0x1, 0x2, 0x4, 0x28, 0x29, 0x3a] (events ++ answer)
  | .spdmGetCapabilities .. => touch [0x1, 0x2, 0x4, 0x28, 0x29, 0x3a] (events ++ answer)
  | .spdmNegotiateAlgorithms .. => touch [0x1, 0x2, 0x4, 0x28, 0x29, 0x3a] (events ++ answer)
  | .spdmGetDigests .. => touch [0x1, 0x2, 0x4, 0x28, 0x29, 0x3a] (events ++ answer)
  | .spdmGetCertificate .. => touch [0x1, 0x2, 0x4, 0x28, 0x29, 0x3a] (events ++ answer)
  | .spdmChallenge .. => touch [0x1, 0x2, 0x4, 0x28, 0x29, 0x3a] (events ++ answer)
  | .spdmGetMeasurements .. => touch [0x1, 0x2, 0x4, 0x28, 0x29, 0x3a] (events ++ answer)
  | .spdmUnsupported .. => touch [0x1, 0x2, 0x4, 0x28, 0x29, 0x3a] (events ++ answer)
  | .sramScrub .. => touch [0x1, 0x16] (events ++ [.sram, .sramHollow, .sen, .out])
  | .reexecCheckDone .. => touch [0x1, 0x10, 0x11, 0x30, 0x31] (events ++ wires ++ [.reqs, .sram, .sramHollow, .mc, .pools, .chans,
      .bufs, .clk])
  | .evidence .. => touch [0x1, 0x3, 0x9, 0x16] (events ++ [.clk, .sen])
  | .railSlewEnd .. => touch [0x9] [.sen]
  | .absentNotice .. => touch [0x1, 0x10, 0x14, 0x20, 0x30, 0x31, 0x38, 0x39, 0x3a] (events ++ serving ++ [.vars, .vc, .dirs, .out])
  | .domainReset .. => anything
  | .drainEnd .. => touch allAreas (events ++ serving ++ wires ++ [.resetCount, .cmds, .held, .cmdRecs, .qps, .ports, .sems, .vars,
      .eng, .rowCharge, .prog, .jour, .mc, .vc, .sc, .pools, .chans, .bufs, .rsts, .genAt, .clk, .msh, .md, .oa, .sec])
  | .resetRelease .. => touch allAreas (events ++ serving ++ wires ++ [.cmds, .cmdRecs, .qps, .vars, .sramHollow, .eng, .prog, .vc,
      .sc, .bufs, .rsts, .md, .sec])
  | .genWaitEnd .. => touch allAreas (events ++ serving ++ wires ++ [.resetCount, .cmds, .held, .cmdRecs, .qps, .ports, .sems, .vars,
      .eng, .rowCharge, .prog, .jour, .mc, .vc, .sc, .pools, .chans, .bufs, .rsts, .genAt, .clk, .msh, .md, .oa, .sec])
  | .stepWatchdog .. => anything
  | .nobufLimit .. => touch [0x1, 0x8, 0x10, 0x14, 0x30, 0x31] (events ++ wires ++ [.bufs])
  | .resetEscalation .. => anything
  | .coldStart .. => touch [0x0, 0x1, 0x48] (events ++ [.md, .out])
  | .romPhaseEnd .. => touch allAreas (events ++ [.clk, .md, .oa, .sec, .out])
  | .platformPhaseEnd .. => touch [0x0, 0x1, 0x10, 0x11, 0x14, 0x18, 0x20, 0x30, 0x31, 0x38, 0x39, 0x3a] (events ++ serving ++
      wires ++ [.vars, .eng, .mc, .vc, .sc, .pools, .chans, .bufs, .clk, .md])
  | .selfTestDone .. => touch [0x0, 0x1, 0x3, 0x9, 0x16] (events ++ [.clk, .md, .sen])
  | .coresPhaseEnd .. => anything
  | .moduleLeave .. => touch [0x0, 0x1, 0x2, 0x10, 0x11, 0x14, 0x20, 0x28, 0x29, 0x30, 0x31, 0x38, 0x39, 0x3a] (events ++ answer ++
      serving ++ wires ++ [.vars, .eng, .mc, .vc, .sc, .pools, .chans, .bufs, .clk, .md])
  | .oasisRestartDone .. => anything
  | .heartbeat .. => anything
  | .heartbeatRestart .. => anything
  | .heartbeatEchoTimeout .. => touch [0x1, 0x28, 0x29] [.irqLatch, .irqs, .cmds, .cmdRecs, .qps, .oa, .out]
  | .timeSetStep .. => touch [0x1, 0x2, 0x28, 0x29, 0x3a] (events ++ answer ++ [.now, .oa, .freeCtr])
  | .timeSetSlew .. => touch [0x1, 0x2, 0x28, 0x29, 0x3a] (events ++ answer ++ [.now, .oa, .freeCtr])
  | .eventSend .. => touch [0x28, 0x29] [.qps, .out]
  | .eventSubscribe .. => touch [0x1, 0x2, 0x28, 0x29, 0x3a] (events ++ answer)
  | .logRead .. => touch [0x1, 0x2, 0x28, 0x29, 0x3a] (events ++ answer)
  | .statusQuery .. => touch [0x0, 0x1, 0x2, 0x4, 0x28, 0x29, 0x38, 0x3a] (events ++ answer)
  | .fwUpdateStage .. => anything
  | .fwStageDone .. => touch [0x1, 0x28, 0x29, 0x30, 0x31] (events ++ wires ++ [.cmds, .cmdRecs, .qps, .oa])
  | .fwUpdateActivate .. => anything
  | .fwUpdateCommit .. => anything
  | .fwUpdateDiscard .. => anything
  | .conversionEnd .. => touch [0x1, 0x18, 0x19, 0x40, 0x41, 0x42] (events ++ [.clk, .sen])
  | .overcurrentComparator .. => touch [0x40] [.irqLatch, .irqs, .sen]
  | .urgentGo .. => anything
  | .slowRound .. => touch [0x0, 0x1, 0x9, 0x10, 0x11, 0x14, 0x16, 0x18, 0x19, 0x20, 0x30, 0x31, 0x38, 0x39, 0x3a, 0x40, 0x41, 0x42,
      0x43, 0x48] (events ++ serving ++ wires ++ [.vars, .eng, .mc, .vc, .sc, .pools, .chans, .bufs, .clk, .md, .oa, .sen])
  | .throttleEscalate .. => touch [0x41] [.clk]
  | .undervoltageEnd .. => touch [] [.clk, .sen]
  | .powerCapSet .. => touch [0x1, 0x2, 0x28, 0x29, 0x3a, 0x42] (events ++ answer)
  | .sensorQuery .. => touch [0x1, 0x2, 0x28, 0x29, 0x3a, 0x41, 0x42] (events ++ answer)
  | .ageingMeasure .. => touch [0x1, 0x43] [.sen]
  | .replanNow .. => anything
  | .sbSetdasa .. => touch [0x48] [.md]
  | .sbEntdaa .. => touch [] [.md]
  | .sbIdent .. => touch [0x0, 0x48] [.irqLatch, .irqs, .out]
  | .sbState .. => touch [0x0, 0x48] [.irqLatch, .irqs, .md, .out]
  | .sbThermal .. => touch [0x41, 0x48] [.irqLatch, .irqs, .out]
  | .sbPower .. => touch [0x42, 0x48] [.irqLatch, .irqs, .out]
  | .sbBoardCap .. => touch [0x42, 0x48] [.irqLatch, .irqs, .out]
  | .sbFaults .. => touch [0x48] [.irqLatch, .irqs, .md, .out]
  | .sbFaultClear .. => touch [0x48] [.irqLatch, .irqs, .out]
  | .linkLoss .. => touch [0x28] [.irqLatch, .irqs, .ports]
  | .linkTrained .. => touch [0x0, 0x1, 0x4, 0x30, 0x31, 0x38, 0x48] (events ++ wires ++ [.md])
  | .resetPhaseEnd .. => touch [0x0, 0x1, 0x8, 0x9, 0xa] (events ++ [.rsts, .md, .out])
  | .accessFault .. => touch [] [.sc]
  | .manifestReadDone .. => touch [0x1, 0x4, 0x20, 0x28, 0x29, 0x32, 0x38] (events ++ [.cmds, .cmdRecs, .qps, .hbm, .hbmTags, .resv,
      .sec, .out])
  | .pageInterrupt => touch [0x1] events
  | .progDequeue => touch [0x1, 0x12, 0x13, 0x38] (events ++ [.cmdRecs, .vars, .eng, .prog, .jour, .sec])
  | .elapsedTick => touch [] [.powered]
  | .elapsedCommit => touch [] [.poweredKept]
  | .mapSwitchComplete => touch [0x18] [.msh]
  | .commitToken => touch [0x1, 0x10, 0x14, 0x20, 0x38, 0x39, 0x3a] (events ++ serving ++ [.vc])
  | .commitEnd => touch [0x1, 0x10, 0x14, 0x20, 0x38, 0x39, 0x3a] (events ++ serving ++ [.vc])
  | .commitTokenEnd => touch [0x1, 0x10, 0x14, 0x20, 0x38, 0x39, 0x3a] (events ++ serving ++ [.vc])
  | .routeSwitch => touch [0x31] [.irqLatch, .irqs, .tor]
  | .routeHoldEnd => anything
  | .fence => touch allAreas (events ++ serving ++ wires ++ [.resetCount, .cmds, .cmdRecs, .qps, .sems, .vars, .sramHollow, .eng,
      .rowCharge, .prog, .jour, .mc, .vc, .sc, .pools, .chans, .bufs, .genAt, .clk, .msh, .sec, .sen])
  | .memoryPhaseEnd => touch [0x0, 0x1, 0x20, 0x30] (events ++ [.md, .out])
  | .linksPhaseEnd => touch [0x0, 0x1] (events ++ [.md, .out])
  | .phaseTimeout => anything
  | .leaveDrainDone => touch [0x0, 0x1, 0x10, 0x11, 0x14, 0x20, 0x30, 0x31, 0x38, 0x39, 0x3a] (events ++ serving ++ wires ++ [.vars,
      .eng, .mc, .vc, .sc, .pools, .chans, .bufs, .clk, .md])
  | .leaveLimit => touch [0x0, 0x1, 0x10, 0x11, 0x14, 0x20, 0x30, 0x31, 0x38, 0x39, 0x3a] (events ++ serving ++ wires ++ [.vars, .eng,
      .mc, .vc, .sc, .pools, .chans, .bufs, .clk, .md])
  | .wdLoop => anything
  | .wdRound => anything
  | .wdHost => anything
  | .oasisRestartTimeout => anything
  | .hbEcho => touch [0x1, 0x28, 0x29] [.cmds, .cmdRecs, .qps, .oa, .out]
  | .hostSilent => touch [0x1] events
  | .syncSourceLost => touch [0x1] (events ++ [.oa])
  | .logEvent => touch [0x1] (events ++ [.log, .plog, .qps])
  | .replan => touch [0x1, 0x3, 0x9, 0x12, 0x13, 0x16, 0x43] (events ++ [.clk, .sen])
  | .powerLoss => anything
  | .inputReversed => anything
  | .resetNAssert => anything
  | .powerApplied => touch [0x1, 0x48] (events ++ [.md, .out])
  | .inputOvervoltage => anything
  | .railOutOfRegulation => touch [] [.md, .out]

end Sys2Proof.Machine
end

