-- ==== Sys2Proof/Certificates/Slice0/Obligations.lean ====
section
/-! DEFINITION. The statements for the provers. The first ones are about the machine as a whole and about numbered rules; the others say,
family by family, where each command completes and what it leaves: hypotheses on the state and the operands alone, and in the
conclusion the next state of exec. State.Within (touches c) frames every command. -/

open Sys2Proof Sys2Proof.Machine

set_option linter.all false

/-- The step runs the command at the front of the queue on the state whose queue is the rest (DESIGN CHOICE of the form: the queue is the
row's; what an empty queue does is the next statement). -/
def Obligations.StepRunsFrontCommand : Prop :=
  ∀ (c : Instr) (rest : List Instr) (s : State), s.pending = c :: rest → step s = exec c { s with pending := rest }

/-- The model's choice, log 3: with an empty queue and no Vorane command waiting, one nanosecond passes: nothing but the clocks, their slew
and the rate they report changes, and without a slew and a rate nothing but the clocks. -/
def Obligations.EmptyQueueLetsTimePass : Prop :=
  ∀ s : State, s.pending = [] → s.held = [] →
    ∃ t, step s = .next t ∧ t = { s with elapsed := s.elapsed + 1, now := t.now, oa := t.oa, regs := t.regs } ∧
      (s.oa.slew = 0 → s.oa.slewFrac = 0 → s.rf R.OASIS2_RATE_PPB 0 = 0 → t = { s with elapsed := s.elapsed + 1, now := s.now + 1 })

/-- The memories and the register file at reset are in canonical form. -/
def Obligations.ResetIsCanonical : Prop := State.reset.Inv

/-- From every state whose memories and register file are in canonical form, a step gives such a state. -/
def Obligations.StepKeepsCanonical : Prop := ∀ s t : State, s.Inv → step s = .next t → t.Inv

/-- No command takes from, adds to or reorders the queue of commands that wait. -/
def Obligations.CommandLeavesQueue : Prop := ∀ (c : Instr) (s t : State), exec c s = .next t → t.pending = s.pending

/-- What a command may change: outside the register areas and the parts of the state that `touches` names for it, every register field
and every part (the memories, the queue, each unit's state) is as before. A command that can order a reset may touch everything but
the queue. -/
def Obligations.CommandsTouchOnlyTheirs : Prop := ∀ (c : Instr) (s t : State), exec c s = .next t → s.Within (touches c) t

/-- Every command has a next state from every state: none of the 270 rows stops. -/
def Obligations.EveryCommandAnswers : Prop := ∀ (c : Instr) (s : State), ∃ t, exec c s = .next t

/-- R6: bit 0 is the least significant bit, and a bit range [msb:lsb] includes both ends. -/
def Obligations.BitRangesIncludeBothEnds : Prop :=
  ∀ w msb lsb i : Nat, lsb ≤ msb → (bitsOf w lsb (msb - lsb + 1)).testBit i = (decide (i ≤ msb - lsb) && w.testBit (lsb + i))

/-- R36: how an address of the register window is formed, the page index, that an index not implemented names no page,
and that an offset that is no multiple of 8 is none. -/
def Obligations.RegisterAddressFields : Prop :=
  (∀ (p : Page) (off : Nat), p.exists_ = true → off < 4096 →
    (p.addr + off) / 2 ^ 40 = 0x20 ∧ bitsOf (p.addr + off) 32 8 = p.blk ∧ bitsOf (p.addr + off) 16 16 = p.inst ∧
    bitsOf (p.addr + off) 12 4 = p.page ∧ bitsOf (p.addr + off) 0 12 = off ∧ Page.ofIndex (bitsOf (p.addr + off) 12 28) = p) ∧
  (∀ (p : Page) (off w : Nat) (m : Master) (s : State), p.exists_ = false →
    (s.readReg m p off).1 = arNoPage ∧ (s.writeReg m p off w).1 = arNoPage) ∧
  (∀ (p : Page) (off w : Nat) (m : Master) (s : State), p.exists_ = true → off % 8 ≠ 0 →
    (s.readReg m p off).1 = arMisaligned ∧ (s.writeReg m p off w).1 = arMisaligned)

/-- R10: the first read from any master clears an RC field, and what a later read finds is what was accumulated since (a counter's RC
field saturates). -/
def Obligations.ReadClearsRcFields : Prop :=
  ∀ (m : Master) (p : Page) (off : Nat) (fk : Field × Nat) (s : State), s.Reads m p off → 0x100 ≤ off → fk ∈ wordFields p off →
    fk.1.acc = .rc →
    Completes (.rcRead m (p.addr + off)) s fun t =>
      t.rf fk.1 p.inst fk.2 = 0 ∧ ∀ n, (t.inc fk.1 p.inst n fk.2).rf fk.1 p.inst fk.2 = min (2 ^ fk.1.len - 1) n

/-- R101: the digits of a W4 weight: w = 4h + l with l = ((w + 2) mod 4) - 2, each digit between -2 and +2. -/
def Obligations.WeightDigits : Prop :=
  ∀ w : Int, -8 ≤ w → w ≤ 7 →
    w = 4 * (w4Digits w).2 + (w4Digits w).1 ∧ (w4Digits w).1 = (w + 2) % 4 - 2 ∧ -2 ≤ (w4Digits w).1 ∧ (w4Digits w).1 ≤ 1 ∧
    -2 ≤ (w4Digits w).2 ∧ (w4Digits w).2 ≤ 2

/-- A write of HBM: the bytes written read as the value written, every other byte of HBM and every byte of SRAM reads as before; and a
host's one-word write of a core's SRAM leaves every other byte of SRAM as before. -/
def Obligations.MemoryWritesAreLocal : Prop :=
  (∀ (r : Requester) (id a n v st off : Nat) (miss : Option Nat) (s : State), hbmDecode s.interleave a = some (st, off) →
    s.hbmAccepts a = true → (s.sealed a = true → r.sealedOk = true) → s.rb R.HBM_FAILED st = false → s.hbmTag st (off / 64 * 64) = 0 →
    Completes (.hbmWrite r id a n v false 0 [] 0 miss) s fun t =>
      Mem.read t.hbm (hbmKey st off) (min n (64 - a % 64)) = v % 256 ^ min n (64 - a % 64) ∧
      (∀ x, x < hbmKey st off ∨ hbmKey st off + min n (64 - a % 64) ≤ x → Mem.byte t.hbm x = Mem.byte s.hbm x) ∧ t.sram = s.sram) ∧
  (∀ (c : Cmd) (ck off : Nat) (s : State), s.Takes c → regBodyOk c 1 = true → c.w 1 = 1 → c.w 0 % 8 = 0 →
    s.sramAddr (c.w 0) = some (ck, off) → ck % 64 < 57 →
    Completes (.regWrite c) s fun t =>
      t.sramRead ck off 8 = c.w 2 % 2 ^ 64 ∧
      ∀ x, x < sramKey (s.physOf ck) off ∨ sramKey (s.physOf ck) off + 8 ≤ x → Mem.byte t.sram x = Mem.byte s.sram x)

/-- R303: a tenant's account refilled to the present time, at its rate, up to its depth. -/
def Obligations.TenantRefill : Prop :=
  ∀ (n : Nat) (s : State),
    (s.refill n).rf R.TENANT_LAST_REFILL n = s.now % 2 ^ 64 ∧
    if (s.rf R.TENANT_DEPTH n * 256 : Nat) ≤ s.balance n +
        ((s.rf R.TENANT_RATE n * 256 * (s.now - s.rf R.TENANT_LAST_REFILL n) + Tbl.getD s.rems n 0) / 1000000000 : Nat) then
      (s.refill n).balance n = (s.rf R.TENANT_DEPTH n * 256 : Nat) ∧ Tbl.getD (s.refill n).rems n 0 = 0
    else
      (s.refill n).balance n = s.balance n +
        ((s.rf R.TENANT_RATE n * 256 * (s.now - s.rf R.TENANT_LAST_REFILL n) + Tbl.getD s.rems n 0) / 1000000000 : Nat) ∧
      Tbl.getD (s.refill n).rems n 0 =
        (s.rf R.TENANT_RATE n * 256 * (s.now - s.rf R.TENANT_LAST_REFILL n) + Tbl.getD s.rems n 0) % 1000000000

/-- Pilot sweeps: when a bank wants one, its blocks, the forced sweep and staleness. Each clause: where the command completes and what it
leaves. -/
def Obligations.PilotSweepsComplete : Prop :=
  -- PILOT_SWEEP_DUE (R92): a sweepable bank whose last sweep ended a pilot interval ago or longer wants a sweep, its other pilot state kept
  (∀ (e b : Nat) (s : State), s.sweepable e (b % 2) = true → (s.pilot e (b % 2)).doneAt + s.pilotInterval e ≤ s.elapsed →
     Completes (.pilotSweepDue e b) s fun t => t.pilot e (b % 2) = { s.pilot e (b % 2) with wanted := true }) ∧
  -- PILOT_SUB_STEP (R86): in an idle slot, a wanted sweep moves one block on and adds what PL0 to PL7 read over it to their running sums; after the eighth
  -- block the sweep is done: block 0, sums empty, no sweep wanted, and both stamps the present elapsed time
  (∀ (e b : Nat) (noise : List Int) (s : State), (s.pilot e (b % 2)).wanted = true → s.sweepable e (b % 2) = true → s.idleSlot e = true →
     Completes (.pilotSubStep e b noise) s fun t =>
       t.pilot e (b % 2) = if (s.pilot e (b % 2)).block = 7 then
         { s.pilot e (b % 2) with
           block := 0, sums := [], wanted := false, fresh := false, everSwept := true, clock := s.elapsed, doneAt := s.elapsed,
           cold := false }
       else { s.pilot e (b % 2) with
         block := (s.pilot e (b % 2)).block + 1,
         sums := (List.range 8).map fun k => (s.pilot e (b % 2)).sums.getD k 0 +
           (s.blockRead e (b % 2) (s.pilot e (b % 2)).block noise).getD k 0 }) ∧
  -- FORCED_SWEEP (R94): after four pilot intervals a sweep is run whole: block 0, sums empty, no sweep wanted, swept, and both stamps the present elapsed
  -- time
  (∀ (e b : Nat) (noise : List (List Int)) (s : State), s.sweepable e (b % 2) = true → s.passBoundary e = true →
     (s.pilot e (b % 2)).clock + 4 * s.pilotInterval e ≤ s.elapsed →
     Completes (.forcedSweep e b noise) s fun t =>
       t.pilot e (b % 2) = { s.pilot e (b % 2) with
         block := 0, sums := [], wanted := false, fresh := false, everSwept := true, clock := s.elapsed, doneAt := s.elapsed,
         cold := false }) ∧
  -- PILOT_STALE (R92): PILOT_STALE becomes 1 once a tracked bank's last sweep (or, with none, its clock's start) is four intervals old; no other field
  -- changes
  (∀ (e b : Nat) (s : State), b < 2 → s.tracked e b = true →
     (if (s.pilot e b).everSwept then (s.pilot e b).doneAt else (s.pilot e b).clock) + 4 * s.pilotInterval e ≤ s.elapsed →
     Completes (.pilotStale e) s fun t => t.rf R.ENG_PILOT_STALE e = 1 ∧ State.OnlyRegs [R.ENG_PILOT_STALE] s t) ∧
  -- PILOT_NOW (R97): a tracked bank wants a sweep
  (∀ (m : Master) (e w b : Nat) (s : State), s.Writes m (engPage e) 0x20 (w ||| 2 ^ 34) → b < 2 → s.tracked e b = true →
     Completes (.pilotNow m e w) s fun t => (t.pilot e b).wanted = true)

/-- Programming a bank: start, abort, the queue, row pulses and verifying. Each clause: where the command completes and what it leaves. The
model's choice: what the readings of a verify are is an operand (log 7). -/
def Obligations.BankProgrammingComplete : Prop :=
  -- PROG_START (R146): an operation with a good image is queued with its source, bank, format, purpose and start time
  (∀ (m : Master) (e w : Nat) (o : ProgOp) (bs : List Nat) (s : State), s.Writes m (wprogPage e) 0x110 (w ||| 0x40) → w.testBit 7 = false →
     (s.progSt e).queued = none → (s.progSt e).running = none → (bitsOf w 4 2 = 0 ∨ m = .oasis) → s.bankBound e (bitsOf w 0 1) = false →
     o.src = s.rf R.WPROG_PROG_SRC e → o.crc = s.rf R.WPROG_PROG_CRC e → o.bank = bitsOf w 0 1 → o.fmt = bitsOf w 1 2 →
     o.touchUp = w.testBit 3 → o.purpose = bitsOf w 4 2 → (s.loadImage o).1 = some bs →
     badDigit (bitsOf w 1 2) bs = false → s.govWait e (bitsOf w 0 1) (bitsOf w 4 2) = some 0 →
     Completes (.progStart m e w) s fun t =>
       ((t.progSt e).queued.any fun q => q.src = o.src && q.bank = o.bank && q.fmt = o.fmt && q.touchUp = o.touchUp && q.purpose = o.purpose &&
         q.image = bs && q.started = s.now && q.deferUntil = 0) ∧
       t.rf R.WPROG_RESULT e = 0 ∧ t.rf R.WPROG_QUEUED e = 1) ∧
  -- PROG_ABORT (R148): a queued operation is dropped: RESULT 8, stamped
  (∀ (m : Master) (e w : Nat) (o : ProgOp) (s : State), s.Writes m (wprogPage e) 0x110 (w ||| 0x80) → w.testBit 6 = false →
     (s.progSt e).queued = some o → (s.progSt e).owed = none → (s.progSt e).owed2 = none →
     Completes (.progAbort m e w) s fun t =>
       (t.progSt e).queued = none ∧ t.rf R.WPROG_RESULT e = 8 ∧ t.rf R.WPROG_PROG_END_STAMP e = s.now % 2 ^ 64) ∧
  -- PROG_DEQUEUE (R147): the engine next in order takes its queued operation: all 512 rows to write in pass 1, nothing to verify, RESULT 0
  (∀ (e : Nat) (o : ProgOp) (s : State), s.nextProg = some e → (s.progSt e).queued = some o → s.bankBound e o.bank = false →
     o.touchUp = false →
     Completes .progDequeue s fun t =>
       (t.progSt e).queued = none ∧
       (t.progSt e).running = some { o with pass := 1, rows := List.range 512, verify := [] } ∧ t.rf R.WPROG_RESULT e = 0) ∧
  -- DEFER_EXPIRY (R157): a deferred operation whose wait has ended is held back no more and RESULT and DEFER_UNTIL read 0
  (∀ (e : Nat) (o : ProgOp) (s : State), (s.progSt e).queued = some o → o.deferUntil ≠ 0 → o.deferUntil ≤ s.now →
     Completes (.deferExpiry e) s fun t =>
       t.progSt e = { s.progSt e with queued := some { o with deferUntil := 0 } } ∧ t.rf R.WPROG_RESULT e = 0 ∧
         t.rf R.WPROG_DEFER_UNTIL e = 0) ∧
  -- ROW_PULSE_END (R141): in a pass after pass 0, the row's cells hold the digits of its row of the image
  (∀ (e r : Nat) (rest : List Nat) (o : ProgOp) (s : State), (s.progSt e).running = some o → o.rows = r :: rest → o.waiting = false →
     o.pass ≠ 0 →
     Completes (.rowPulseEnd e) s fun t =>
       t.cells = Tbl.put s.cells (cellKey (s.physEng e) o.bank r)
         (rowDigits o.fmt ((o.image.drop (imageRowBytes o.fmt * r)).take (imageRowBytes o.fmt)) ++ pilotDigits r)) ∧
  -- VERIFY_SUB_STEP (R142): the next of the five verify sub-steps of the row in turn is done, the row staying good only where every deviation is within 2;
  -- with the fifth, or all that remain of a forced verify, the row leaves the verify queue and a bad row is listed
  (∀ (e r n due : Nat) (ok forced : Bool) (devs noise : List Int) (rest : List (Nat × Nat × Bool × Bool × Nat)) (o : ProgOp) (s : State),
     (s.progSt e).running = some o → o.verify = (r, n, ok, forced, due) :: rest → s.verifySlot e forced = true →
     ((forced = false ∧ n < 4) ∨ (rest ≠ [] ∧ o.pass ≠ 0 ∧ o.waiting = false)) →
     Completes (.verifySubStep e devs noise) s fun t =>
       t.progSt e = { s.progSt e with
         running := some (if n < 4 ∧ forced = false then
             { o with verify := (r, n + 1, ok && devs.all (fun d => decide (d.natAbs ≤ 2)), forced, due) :: rest }
           else
             { o with verify := rest, bad := if (ok && devs.all fun d => decide (d.natAbs ≤ 2)) then o.bad else o.bad ++ [r] }) }) ∧
  -- VERIFY_DEADLINE (R143): a row whose deferred verify is due is marked forced, the other rows to verify unchanged
  (∀ (e r n due : Nat) (ok : Bool) (rest : List (Nat × Nat × Bool × Bool × Nat)) (o : ProgOp) (s : State),
     (s.progSt e).running = some o → o.verify = (r, n, ok, false, due) :: rest → due ≠ 0 → due ≤ s.elapsed →
     Completes (.verifyDeadline e) s fun t =>
       t.progSt e = { s.progSt e with
         running := some { o with
           verify := o.verify.map fun (x : Nat × Nat × Bool × Bool × Nat) =>
             if x.1 = r then (x.1, x.2.1, x.2.2.1, true, x.2.2.2.2) else x } })

/-- The governor's elapsed time and policy, ageing measurements and re-plans. Each clause: where the command completes and what it leaves.
The model's choice: the factory value of AGEING is a free value (log 23). -/
def Obligations.GovernorAndAgeingComplete : Prop :=
  -- ELAPSED_TICK (R156): the count of powered seconds goes up by one and nothing else changes
  (∀ s : State, Completes .elapsedTick s fun t => t = { s with powered := s.powered + 1 }) ∧
  -- ELAPSED_COMMIT (R156): the kept count of powered seconds becomes the present one and nothing else changes
  (∀ s : State, Completes .elapsedCommit s fun t => t = { s with poweredKept := s.powered }) ∧
  -- GOV_POLICY_WRITE (R159): the four policy fields take their bits of the word
  (∀ (m : Master) (e w : Nat) (s : State), s.Writes m (wprogPage e) 0x188 w →
     Completes (.govPolicyWrite m e w) s fun t =>
       t.rf R.WPROG_PLAN_DAYS e = bitsOf w 0 16 ∧ t.rf R.WPROG_BURST e = bitsOf w 16 16 ∧ t.rf R.WPROG_RESERVE e = bitsOf w 32 16 ∧
       t.rf R.WPROG_DEFER_MAX e = bitsOf w 48 16) ∧
  -- AGEING_MEASURE (R545): the clone's slowdown less its factory value is averaged (the factory value is free, log 23)
  (∀ (counts : List (Nat × Nat)) (c a b n : Nat) (sum : Int) (s : State), s.elapsed % 1000000000 = 0 → s.rb R.OASIS_RESTARTING 0 = false → c < 32 →
     counts[c]? = some (a, b) → b ≠ 0 → Tbl.getD s.sen.ageSums c (0, 0) = (sum, n) → n < 86400 →
     Completes (.ageingMeasure counts) s fun t =>
       Tbl.get? t.sen.ageD c = some ((1000000 * ((b : Int) - a)).fdiv b - Config.factoryD c) ∧
       t.rf R.AGEING_DEGRADE_PPM 0 c = fieldOfInt 32 ((sum + ((1000000 * ((b : Int) - a)).fdiv b - Config.factoryD c)).fdiv (n + 1)) % 2 ^ 32) ∧
  -- REPLAN (R547): a re-plan due is run and stamped
  (∀ s : State, (s.sen.replanAt + s.rf R.AGEING_REPLAN_DAYS 0 * 86400 ≤ s.powered ∨ s.sen.replanOwed = true) → s.replanHeld = false →
     Completes .replan s fun t => t.rf R.AGEING_LAST_REPLAN_STAMP 0 = s.now % 2 ^ 64 ∧ t.sen.replanAt = s.powered ∧ t.sen.replanOwed = false) ∧
  -- REPLAN_NOW (R552): a re-plan runs at once and is stamped
  (∀ (m : Master) (w : Nat) (s : State), s.Writes m agePage 0x100 (w ||| 0x40) → s.replanHeld = false →
     Completes (.replanNow m w) s fun t =>
       t.rf R.AGEING_LAST_REPLAN_STAMP 0 = s.now % 2 ^ 64 ∧ t.sen.replanAt = s.powered ∧ t.sen.replanOwed = false)

/-- Binding epochs to banks, the local flip and the activation of a variant. Each clause: where the command completes and what it leaves.
The model's choice: the placement comes with the command (log 15). -/
def Obligations.BanksAndEpochsComplete : Prop :=
  -- BANK_CTL_WRITE (R66): each of the four epochs is bound to the bank the word says
  (∀ (m : Master) (e w : Nat) (s : State), s.Writes m (engPage e) 0x100 w → s.badBinding e w = false → (s.progSt e).owed = none →
     (s.progSt e).owed2 = none → (s.progSt e).retrims = [] →
     (∀ x ∈ (s.mcSt (engCore e)).steps, ∀ g ∈ x.engs, g.state ≠ 1) →
     Completes (.bankCtlWrite m e w) s fun t => ∀ n ∈ List.range 4, t.rf (epochBankF n) e = bitsOf w (2 * n) 2) ∧
  -- LOCAL_FLIP (R163): each epoch bound to the drifted bank is bound to its ready twin of the same image; the other epochs keep their bank
  (∀ (e b n : Nat) (s : State), b < 2 → n < 4 → (s.progSt e).owed = none → (s.progSt e).owed2 = none → (s.progSt e).retrims = [] →
     (∀ x ∈ (s.mcSt (engCore e)).steps, ∀ g ∈ x.engs, g.state ≠ 1) → s.bankBound e b = true → s.rb (driftHardF b) e = true → s.ready e (1 - b) = true → s.bankBound e (1 - b) = false →
     s.rf (jcrcF b) e = s.rf (jcrcF (1 - b)) e → s.rf (jsrcF b) e = s.rf (jsrcF (1 - b)) e → s.rb (retrimF (1 - b)) e = false →
     s.rb (driftHardF (1 - b)) e = false →
     Completes (.localFlip e) s fun t =>
       t.rf (epochBankF n) e = if s.rf (epochBankF n) e = b + 1 then (1 - b) + 1 else s.rf (epochBankF n) e) ∧
  -- VARIANT_ACTIVATE (R314): the activation is taken: the variant is STAGING with its placement and its own shards to load, its wait kept, and the answer says
  -- accepted
  (∀ (c : Cmd) (p : Placement) (elsewhere w : Nat) (m : Manifest) (s : State), s.Takes c → c.bodyWords = 1 → s.activateCheck c p elsewhere = none →
     s.man (c.f 0 0 6) = some m → (s.keySlot m.keyId).isSome = true → (∀ i ∈ s.ownShards m, (s.shard (c.f 0 0 6) i).held = true) →
     s.judgeSwap (p.items.map fun x => (x.1, x.2.1)) = (none, w) →
     Completes (.variantActivate c p elsewhere) s fun t =>
       t.vstate (c.f 0 0 6) = vStaging ∧ (t.var (c.f 0 0 6)).place = p ∧
       Tbl.get? t.sec.staging (c.f 0 0 6) = some { shards := s.ownShards m, deferUntil := if w = 0 then 0 else s.now + w * 1000000000 } ∧
       s.Answered t c 0x26 (s.servingShort stAccepted 0)) ∧
  -- ITEM_DECRYPTED (R415): a shard whose directory cannot be read ends the staging with the variant registered; an epoch route item's writes, as its
  -- decrypted bytes give them, are applied, and the staging goes on where it is not the last
  (∀ (v i n ext sram unit : Nat) (last : Bool) (g : StageSt) (s : State), Tbl.get? s.sec.staging v = some g → i ∈ g.shards →
     Completes (.itemDecrypted v i n ext sram last unit) s fun t =>
       (∀ c, (s.directory v i).1 = .inl c → t.vstate v = vRegistered ∧ Tbl.get? t.sec.staging v = none) ∧
       ∀ (es : List DirEntry) (e : DirEntry) (plain : List Nat), (s.directory v i).1 = .inr es → es[n]? = some e → e.kind = 6 →
         ((s.directory v i).2.decryptAt v i e.off e.len).1 = .inr plain →
         t.tor.eps = (Config.itemWrites 6 plain).foldl (fun q y => Tbl.putD q 0 y.1 y.2) s.tor.eps ∧
         (last = false → Tbl.get? t.sec.staging v = some g)) ∧
  -- EPOCH_BIND (R164): with all shards loaded and checked the variant is ACTIVE at the new epoch and no longer staging
  (∀ (v elsewhere given ep : Nat) (g : StageSt) (s : State), Tbl.get? s.sec.staging v = some g → s.vstate v = vStaging → s.staged v g = true →
     s.rb R.CARAVAN_COMPLETE 0 v = true → (s.var v).place.items.find? (fun x => s.rf (jcrcF x.2.1) x.1 ≠ x.2.2.2.2) = none →
     (s.var v).place.head = s.here → s.newEpoch elsewhere = some ep → (s.var v).replaces = none →
     (∀ x ∈ (s.var v).place.items, (s.progSt x.1).owed2 = none) → s.bindable v = true →
     Completes (.epochBind v elsewhere { value := given, confirmed := true }) s fun t =>
       t.vstate v = vActive ∧ t.rf R.SERVE2_EPOCH 0 v = ep ∧ t.lastEpoch = ep ∧ Tbl.get? t.sec.staging v = none)

/-- Steps of an M-core: firing, sub-steps, the post-unit, stand-ins, checks and holds. Each clause: where the command completes and what it
leaves. The model's choice: the analogue readings and checks are operands (logs 7, 18); where pips and pooling windows stand in SRAM is
log 39. -/
def Obligations.MatrixCoreStepsComplete : Prop :=
  -- STEP_FIRE (R176): the oldest set that R176 allows fires: STEPS goes up by one, the firing is stamped, the set's pips leave the waiting sets, and the
  -- new step, numbered next, runs with the descriptor's words and those pips (a step without pooling, which always emits)
  (∀ (ck a d n : Nat) (s : State), firstReady ((s.ableSets ck).filter (s.paidSet ck)) = some (a, d, n) →
     dDest (s.descWords ck d) 0 ≠ 0xFFFF → s.stepOf ck (s.mcSt ck).nextId = none →
     Completes (.stepFire ck) s fun t =>
       (t.mcSt ck).nextId = (s.mcSt ck).nextId + 1 ∧
       t.rf R.MCORE_STEPS ck = (s.rf R.MCORE_STEPS ck + 1) % 2 ^ 64 ∧ t.rf R.MCORE1_LAST_FIRE_STAMP ck = s.now % 2 ^ 64 ∧
       (t.buf ck d).pips = ((s.buf ck d).pips.filter fun p => !(setPips (dInPips (s.descWords ck d)) n (s.buf ck d).pips).contains p) ∧
       (dPoolW (s.descWords ck d) = 1 → ∃ y, t.stepOf ck (s.mcSt ck).nextId = some y ∧ y.desc = d ∧ y.words = s.descWords ck d ∧ y.n = n ∧
         y.firedAt = s.elapsed ∧ y.pips = (setPips (dInPips (s.descWords ck d)) n (s.buf ck d).pips).map (s.bufGet ck))) ∧
  -- SUB_STEP_END (R77): the 64 sums of the quarter, limited to the resolution in use, are corrected and added to the accumulators with their plane's
  -- weight and sign, the next conversion follows, and the cycles count as busy (no clip)
  (∀ (e b : Nat) (noise raw : List Int) (x : Tile) (c c2 : Conv) (rest : List Conv) (s : State), (s.engSt e).tile = some x →
     x.todo = c :: c2 :: rest → (c2.ones ≠ [] ∨ s.rb R.ENG_ZERO_SKIP e = false) →
     raw = ((List.range 64).map fun k =>
       (c.ones.foldl (fun a r => a + (s.rowCells e x.bank r).getD (64 * c.quarter + k) 0) 0) + noise.getD k 0) →
     b = (if (x.comp.any fun k => decide (k < c.bits)) = true then x.comp.getD c.bits else c.bits) →
     (x.comp = none ∨ ∀ v ∈ raw, -(2 : Int) ^ (b - 1) ≤ v ∧ v ≤ 2 ^ (b - 1) - 1) →
     Completes (.subStepEnd e noise) s fun t =>
       (t.engSt e).tile = some { x with todo := c2 :: rest, cycles := x.cycles + (b + 2) } ∧
       t.rf R.ENG_BUSY_CYCLES e = (s.rf R.ENG_BUSY_CYCLES e + (b + 2)) % 2 ^ 64 ∧
       ∀ k ∈ List.range 64, Tbl.getD (t.engSt e).acc (64 * c.quarter + k) 0 =
         Tbl.getD (s.engSt e).acc (64 * c.quarter + k) 0 + (if c.sign then -1 else 1) *
           (corrected (max (-(2 : Int) ^ (b - 1)) (min (2 ^ (b - 1) - 1) (raw.getD k 0))) c.ones.length
             (signedOf 16 (s.rf (offsetF x.bank) e)) (s.rf (gainF x.bank) e) (s.column e x.bank (64 * c.quarter + k)).1
             (s.column e x.bank (64 * c.quarter + k)).2 ((c.scale : Int) - x.xref) * 2 ^ c.plane)) ∧
  -- POST_UNIT_DONE (R196): the next pip of the oldest emission joins the queue once for each destination, with R195's sequence and the step's stream, and the
  -- emission moves on
  (∀ (ck : Nat) (x : Step) (em : Emission) (rest : List Emission) (s : State),
     ((s.mcSt ck).steps.find? fun y => !y.emis.isEmpty) = some x → s.stepOf ck x.id = some x → x.emis = em :: rest →
     Completes (.postUnitDone ck) s fun t => ∃ (y : Step) (p : Pip), t.stepOf ck x.id = some y ∧
       (if x.k + 1 < outPips x.words then y.k = x.k + 1 ∧ y.emis = x.emis else y.k = 0 ∧ y.emis = rest) ∧
       y.outq = x.outq ++ (dDests x.words).map (fun d => { p with dest := d }) ∧
       p.seq = (em.idx * outPips x.words + x.k) % 65536 ∧ p.stream = x.out ∧ p.epoch = em.epoch ∧ p.source = ck ∧
       (em.hollow = true → p.hollow = true)) ∧
  -- STANDIN_RESULT (R185): the engine stood in for has the values, or, where the stand-in failed, its tile has failed and is counted; the step's other
  -- engines are as they were
  (∀ (ck id n : Nat) (ok : Bool) (vals : List Int) (x : Step) (s : State), s.stepOf ck id = some x →
     (∃ g ∈ x.engs, g.eng = n ∧ g.state = 2) → (∃ g ∈ x.engs, g.eng ≠ n ∧ g.busy = true) →
     Completes (.standinResult ck id n ok vals) s fun t =>
       t.stepOf ck id = some { x with engs := x.engs.map fun g =>
         if g.eng = n then { g with state := if ok then 3 else 4, vals := if ok then vals else [] } else g } ∧
       t.rf R.MCORE_FAILED_TILES ck = if ok then s.rf R.MCORE_FAILED_TILES ck else min (2 ^ 32 - 1) (s.rf R.MCORE_FAILED_TILES ck + 1)) ∧
  -- REEXEC_CHECK_DONE (R443): a check whose values agree within the tolerance, the V-core's or the twin's, is done and REEXEC_TILES goes up, saturating; the
  -- step is otherwise as it was
  (∀ (ck id n : Nat) (vals : List Int) (x : Step) (c : Check) (g : StepEng) (s : State), s.stepOf ck id = some x →
     x.checks.find? (fun k => k.eng = n) = some c → x.engs.find? (fun e => e.eng = n) = some g → g.busy = false → g.state ≠ 4 →
     ((c.path = 0 ∧ c.twinVals = none ∧ firstOutside (s.tolerance ck n x) false g.vals vals = none) ∨
       (c.path = 1 ∧ (c.twinVals.any fun tv => firstOutside (s.tolerance ck n x) true g.vals tv == none) = true)) →
     x.engs.any StepEng.busy = true →
     Completes (.reexecCheckDone ck id n true vals) s fun t =>
       t.stepOf ck id = some { x with checks := x.checks.filter fun k => k.eng ≠ n } ∧
       t.rf R.MCORE1_REEXEC_TILES ck = min (2 ^ 32 - 1) (s.rf R.MCORE1_REEXEC_TILES ck + 1)) ∧
  -- HOLD_TIMEOUT (R185): the tiles whose own hold has lasted 200 us go to the named slow V-core, no such tile stays held, and the step is marked; with none
  -- named each such tile waits for one, the rest of the core's steps as they were
  (∀ (ck : Nat) (x : Step) (g : StepEng) (s : State), x ∈ (s.mcSt ck).steps → g ∈ x.engs → g.state = 1 → g.late = false →
     g.since + 200000 ≤ s.elapsed →
     Completes (.holdTimeout ck) s fun t =>
       if s.rf R.MCORE1_SLOW_VCORE ck = 0xFFFF then
         t.mcSt ck = { s.mcSt ck with steps := (s.mcSt ck).steps.map fun y => { y with engs := y.engs.map fun h =>
           if h.state = 1 ∧ h.late = false ∧ h.since + 200000 ≤ s.elapsed then { h with late := true } else h } }
       else
         (∃ y ∈ (t.mcSt ck).steps, y.id = x.id ∧ y.slow = true ∧ ∃ h ∈ y.engs, h.eng = g.eng ∧ h.state = 2) ∧
         ∀ y ∈ (t.mcSt ck).steps, ∀ h ∈ y.engs, h.state = 1 → s.elapsed < h.since + 200000 ∧ h.late = false) ∧
  -- SLOW_VCORE_NAMED (R185): SLOW_VCORE holds the V-core's number, and every tile that waited for one has gone to it
  (∀ (ck v : Nat) (x : Step) (g : StepEng) (s : State), x ∈ (s.mcSt ck).steps → g ∈ x.engs → g.state = 1 → g.late = true →
     s.rf R.MCORE1_SLOW_VCORE ck = 0xFFFF → s.slowVcore ck = some v →
     Completes (.slowVcoreNamed ck) s fun t =>
       t.rf R.MCORE1_SLOW_VCORE ck = v % 65536 ∧
       (∃ y ∈ (t.mcSt ck).steps, y.id = x.id ∧ y.slow = true ∧ ∃ h ∈ y.engs, h.eng = g.eng ∧ h.state = 2) ∧
       ∀ y ∈ (t.mcSt ck).steps, ∀ h ∈ y.engs, h.state = 1 → h.late = false)

/-- Kernel steps of a V-core, stand-ins and the sampling of a token. Each clause: where the command completes and what it leaves. The
model's choice: a kernel's operations come with the command (log 40); what a sampled token is for hollow logits is 0 by the model's
choice (log 34). -/
def Obligations.KernelStepsComplete : Prop :=
  -- KERNEL_STEP_FIRE (R209): the oldest ready set fires as the running step with its set's pips as read from the buffer, counted and stamped, its first
  -- operations carried out; a step without operations yet is not TAINTED
  (∀ (v a d n : Nat) (ops : List VOp) (s : State), s.vMayFire v = true → (s.vcSt v).step = none →
     ((s.vcSt v).standins = [] ∨ s.rb R.VCORE_STANDIN_EN v = false) →
     firstReady ((s.vReady v).filter fun r => s.haveCredits v (kOutStream (s.kernWords v r.2.1)) (kNeeds (s.kernWords v r.2.1))) = some (a, d, n) →
     kMalformed (s.kernWords v d) = false →
     Completes (.kernelStepFire { core := v, ops := ops }) s fun t =>
       (∃ k, (t.vcSt v).step = some k ∧ k.entry = d ∧ k.words = s.kernWords v d ∧ k.n = n ∧ k.firedAt = s.elapsed ∧ k.overrun = false ∧
         k.pips = (setPips (kInPips (s.kernWords v d)) n (s.buf v d).pips).map (s.bufGet v)) ∧
       t.rf R.VCORE_STEPS v = (s.rf R.VCORE_STEPS v + 1) % 2 ^ 64 ∧ t.rf R.VCORE_LAST_FIRE_STAMP v = s.now % 2 ^ 64 ∧
       (ops = [] → t.rf R.VCORE_TAINTED v = 0)) ∧
  -- KERNEL_STEP_END (R210): the rest of the operations are carried out, the step is over, TAINTED is 0, and of the credits reserved for its destinations no
  -- more than the waiting pips need are kept
  (∀ (v : Nat) (ops : List VOp) (k : KStep) (s : State), (s.vcSt v).step = some k →
     Completes (.kernelStepEnd v ops) s fun t =>
       (t.vcSt v).step = none ∧ t.rf R.VCORE_TAINTED v = 0 ∧
       ∀ d ∈ kDests k.words, (t.vcSt v).held d (kOutStream k.words) ≤
         (((t.vcSt v).outq.filter fun p => p.dest = d && p.stream = kOutStream k.words).map fun p => pipCredits p.payload.length).sum) ∧
  -- STANDIN_REQUEST (R218): the stand-in joins the V-core's queue (16 at most)
  (∀ (v ck id n : Nat) (q : Standin) (s : State), s.standinOf ck id n = some q → (s.vcSt v).standins.length < 16 →
     s.fireGated (.core v) = false → s.inReset (.core v) = false →
     (∀ y ∈ s.vc, ∀ z ∈ y.2.standins, ¬(z.mcore = ck ∧ z.step = id ∧ z.eng = n)) →
     Completes (.standinRequest v ck id n) s fun t =>
       t.vcSt v = { s.vcSt v with standins := (s.vcSt v).standins ++ [q] } ∧ t.rf R.VCORE_STEP_RUNNING v = bit (s.vcSt v).step.isSome) ∧
  -- STANDIN_DONE (R219): the oldest stand-in is done and its image bytes counted
  (∀ (v : Nat) (q : Standin) (rest : List Standin) (s : State), (s.vcSt v).standins = q :: rest → (s.vcSt v).step = none →
     s.rb R.VCORE_STANDIN_EN v = true → s.coreFenced v = false → s.inReset (.core v) = false →
     Completes (.standinDone v) s fun t =>
       t.vcSt v = { s.vcSt v with standins := rest } ∧
       t.rf R.VCORE_HBM_BYTES v = (s.rf R.VCORE_HBM_BYTES v + imageBytes q.fmt) % 2 ^ 64) ∧
  -- SAMPLE_TOKEN (R216): a pip for the sampled token joins the queue: 4 bytes of the token chosen by R216 from the FP32 logits in SRAM (0 from hollow
  -- logits), then the position
  (∀ (v id pos off n d : Nat) (ds logits : List Nat) (bs : List (Nat × Bool)) (k : KStep) (r : Req) (cx : Nat × Ctx) (s : State),
     (s.vcSt v).step = some k → s.reqs.find? (fun r => r.id = id) = some r → s.ctxs.find? (fun c => c.1 = r.ctx % 65536) = some cx →
     kDests k.words = d :: ds → bs = s.vGet v off (4 * n) → logits = (chunks 4 n (bs.map (·.1))).map ofBytes →
     Completes (.sampleToken v id pos off n) s fun t =>
       ∃ p, (t.vcSt v).outq = (s.vcSt v).outq ++ [p] ∧ p.dest = d ∧ p.seq = pos % 65536 ∧ p.fmt = 3 ∧
         p.payload = leBytes 4 ((if bs.any (·.2) then none
           else sampleToken logits r.greedy r.temp r.topP r.topK cx.2.seed pos).getD 0) ++ leBytes 4 pos)

/-- The KV pages of a V-core: writing, reserving, releasing and sharing. Each clause: where the command completes and what it leaves. The
model's choice: the page taken is the lowest free one (log 34); a share that would pass 255 users is refused and the metadata layout is
the model's (log 40). -/
def Obligations.KvPagesComplete : Prop :=
  -- KV_WRITE (R214): the first position of a page of one KV head: the lowest free page leaves the reservation for the context's page table, valid with
  -- a fill of 1, and the bytes written are counted
  (∀ (v slot pos off mode : Nat) (o : KvPart) (k : KStep) (s : State), (s.vcSt v).step = some k →
     pos / 64 < s.rf R.VCORE_PT_ENTRIES v → ptValid ((s.kvPart v pos mode k o).2.2.ptEntry v slot (pos / 64)) = false → pos % 64 = 0 →
     Tbl.getD (s.kvPool v).resv slot 0 ≠ 0 →
     Completes (.kvWrite v slot pos off mode [o]) s fun t =>
       t.kvPool v = { resv := Tbl.putD (s.kvPool v).resv 0 slot (Tbl.getD (s.kvPool v).resv slot 0 - 1),
                      users := Tbl.put (s.kvPool v).users (s.kvFreeSlot v) [(slot, pos / 64)] } ∧
       ptValid (t.ptEntry v slot (pos / 64)) = true ∧ ptFill (t.ptEntry v slot (pos / 64)) = 1 ∧
       t.rf R.VCORE_HBM_BYTES v = (s.rf R.VCORE_HBM_BYTES v +
         ((s.kvPart v pos mode k o).1.take (s.rf R.VCORE_PAGE_UNITS v * 256 - off)).length) % 2 ^ 64) ∧
  -- KV_RESERVE (R213): a reservation within the free pages is kept and answered OK
  (∀ (v : Nat) (c : KvCmd) (rest : List KvCmd) (s : State), (s.vcSt v).kvq = c :: rest → c.op = 0 → c.score ≠ 0xFFFF → (s.vcSt v).step = none →
     s.fireGated (.core v) = false → s.inReset (.core v) = false → s.kvSlotOk v c.slot = true →
     c.count ≤ s.kvFree v - s.kvReserved v →
     Completes (.kvReserve v) s fun t =>
       (t.vcSt v).kvq = rest ∧ t.rf R.LCB_KV_RESULT c.score = 0 ∧ t.rf R.LCB_KV_GO c.score = 0 ∧
       t.kvPool v = { s.kvPool v with resv := Tbl.putD (s.kvPool v).resv 0 c.slot (Tbl.getD (s.kvPool v).resv c.slot 0 + c.count) }) ∧
  -- KV_RELEASE (R213): the slot's reservation is gone and answered OK
  (∀ (v : Nat) (c : KvCmd) (rest : List KvCmd) (s : State), (s.vcSt v).kvq = c :: rest → c.op = 1 → c.score ≠ 0xFFFF → (s.vcSt v).step = none →
     s.fireGated (.core v) = false → s.inReset (.core v) = false → s.kvSlotOk v c.slot = true →
     Completes (.kvRelease v) s fun t =>
       (t.vcSt v).kvq = rest ∧ t.rf R.LCB_KV_RESULT c.score = 0 ∧ t.rf R.LCB_KV_GO c.score = 0 ∧
       Tbl.get? (t.kvPool v).resv c.slot = none) ∧
  -- KV_SHARE (R213): sharing whole pages is answered OK
  (∀ (v : Nat) (c : KvCmd) (rest : List KvCmd) (s : State), (s.vcSt v).kvq = c :: rest → c.op = 2 → c.score ≠ 0xFFFF → (s.vcSt v).step = none →
     s.fireGated (.core v) = false → s.inReset (.core v) = false → s.kvSlotOk v c.slot = true → s.kvSlotOk v c.slot2 = true →
     c.count ≤ s.rf R.VCORE_PT_ENTRIES v →
     (∀ p ∈ List.range c.count, ptValid (s.ptEntry v c.slot p) = true ∧ ptFill (s.ptEntry v c.slot p) = 64 ∧
       (Tbl.getD (s.kvPool v).users (s.kvSlotOf v (ptAddr (s.ptEntry v c.slot p))) []).length < 255) →
     Completes (.kvShare v) s fun t =>
       (t.vcSt v).kvq = rest ∧ t.rf R.LCB_KV_RESULT c.score = 0 ∧ t.rf R.LCB_KV_GO c.score = 0)

/-- S-cores: exceptions, interrupts, the mailbox, heartbeats, the result CSR and the start. Each clause: where the command completes and
what it leaves. The model's choice: which exception an access raises where the spec is silent is log 28. -/
def Obligations.ScalarCoresComplete : Prop :=
  -- ACCESS_FAULT (R223): the S-core takes the exception: cause, address, pc and status saved, machine mode, pc at MTVEC; nothing else changes
  (∀ (ck pc a n kind c : Nat) (s : State), s.scoreRuns ck = true → s.accessCause ck a n kind = some c →
     Completes (.accessFault ck pc a n kind) s fun t =>
       t = { s with sc := t.sc } ∧ t.scSt ck = { s.scSt ck with
         mcause := c, mtval := a, mepc := pc, mpie := (s.scSt ck).mie, mie := false, mpp := (s.scSt ck).mode, mode := 3,
         pc := (s.scSt ck).mtvec / 4 * 4 }) ∧
  -- HOLLOW_LOAD (R221): the S-core takes custom exception 24 and the trap record holds cause, address and time
  (∀ (ck pc a n : Nat) (s : State), s.scoreRuns ck = true →
     Completes (.hollowLoad ck pc a n true) s fun t =>
       t.rf R.SCORE_TRAPPED ck = 1 ∧ t.rf R.SCORE_LAST_TRAP_CAUSE ck = 24 ∧ t.rf R.SCORE_LAST_TRAP_TVAL ck = a % 2 ^ 64 ∧
       t.rf R.SCORE_LAST_TRAP_STAMP ck = s.now % 2 ^ 64 ∧ t.scSt ck = { s.scSt ck with
         mcause := 24, mtval := a, mepc := pc, mpie := (s.scSt ck).mie, mie := false, mpp := (s.scSt ck).mode, mode := 3,
         pc := (s.scSt ck).mtvec / 4 * 4 }) ∧
  -- MTIMECMP_INTERRUPT (R224): the timer interrupt is pending once time has reached MTIMECMP; nothing else changes
  (∀ (ck : Nat) (s : State), s.isScore ck = true → s.inReset (.core ck) = false → s.rf R.LCB_MTIMECMP ck ≤ s.now →
     Completes (.mtimecmpInterrupt ck) s fun t => t = { s with sc := t.sc } ∧ t.scSt ck = { s.scSt ck with timerIrq := true }) ∧
  -- MAILBOX (R224): MAILBOX holds the word and its interrupt is pending; nothing else changes
  (∀ (ck w : Nat) (s : State), s.isScore ck = true → s.inReset (.core ck) = false →
     Completes (.mailbox ck w) s fun t =>
       t.rf R.LCB_MAILBOX ck = w % 2 ^ 64 ∧ t.scSt ck = { s.scSt ck with mailIrq := true } ∧ t = { s with regs := t.regs, sc := t.sc }) ∧
  -- SCORE_HEARTBEAT (R224): the heartbeat's time is kept and LAST_HEARTBEAT stamped
  (∀ (ck w : Nat) (s : State), s.scoreRuns ck = true →
     Completes (.scoreHeartbeat ck w) s fun t =>
       t.scSt ck = { s.scSt ck with beatAt := s.elapsed } ∧ t.rf R.SCORE_LAST_HEARTBEAT ck = s.now % 2 ^ 64) ∧
  -- REGISTER_RESULT (R221): an S-core's aligned load of a whole word that no check stops: the result OK is in the CSR at 0xFC0 and the value read is the
  -- response
  (∀ (ck pc : Nat) (p : Page) (off : Nat) (s : State), s.Reads (.score ck) p off →
     Completes (.registerResult ck pc (p.addr + off) { bytes := 8, store := none }) s fun t =>
       t.scSt ck = { s.scSt ck with result := 0, value := (s.readReg (.score ck) p off).2.1 }) ∧
  -- SCORE_RUN (R222): the S-core runs from BOOT_ADDR in machine mode
  (∀ (ck w : Nat) (s : State), s.Writes .oasis (scorePage ck) 0x20 (w ||| 2 ^ 32) → w.testBit 8 = false → s.rb R.SCORE_RUN ck = false →
     s.inReset (.core ck) = false → s.isAbsent ck = false →
     Completes (.scoreRun ck w) s fun t =>
       t.rf R.SCORE_RUNNING ck = 1 ∧ t.rf R.SCORE_RUN ck = 1 ∧
       t.scSt ck = { s.scSt ck with pc := s.rf R.SCORE_BOOT_ADDR ck, mode := 3, beatAt := s.elapsed })

/-- Pips sent, received and delivered, the receive ring and flits. Each clause: where the command completes and what it leaves. The model's
choice: the pip at a send address is read as log 28 says; message numbers, router depths and the failure code are log 41. -/
def Obligations.PipsSentAndReceivedComplete : Prop :=
  -- PIP_SEND (R177): an S-core's only waiting pip leaves with its channel's GEN and its injection stamp, and its credits are spent
  (∀ (ck off : Nat) (c : Chan) (s : State), ck < 2048 → kindOfLogical (ck % 64) = 2 → ck % 64 < 60 → s.isAbsent ck = false →
     s.rb R.ROUTER_HELD (s.routerOfCore ck) = false → (s.scSt ck).tx = [off] → destLocal (s.pipAt ck off).dest = true →
     s.absentAt ck (s.pipAt ck off).dest = false → (s.pipAt ck off).payload.length ≤ 2000 →
     s.chan ck (s.pipAt ck off).dest (s.pipAt ck off).stream = some c → c.reserved ≤ c.credits →
     pipCredits (s.pipAt ck off).payload.length ≤ c.credits - c.reserved →
     Completes (.pipSend ck) s fun t =>
       (t.scSt ck).tx = [] ∧
       t.chan ck (s.pipAt ck off).dest (s.pipAt ck off).stream =
         some { c with credits := c.credits - pipCredits (s.pipAt ck off).payload.length, usedAt := s.elapsed } ∧
       t.out = .mesh 6 (s.pipAt ck off).dest (pipWords { s.pipAt ck off with gen := c.gen, source := ck, egress := s.now }) ::
         .route (s.routeHeader ck 6 (s.pipAt ck off).dest 0 (s.pipAt ck off).payload.length) :: s.out) ∧
  -- TX_SEND (R224): the pip's SRAM address joins the send queue; nothing else changes
  (∀ (ck w : Nat) (s : State), s.scoreRuns ck = true → w < 2 ^ 64 → w * 16 + 32 ≤ sramSize 2 →
     Completes (.txSend ck w) s fun t => t = { s with sc := t.sc } ∧ t.scSt ck = { s.scSt ck with tx := (s.scSt ck).tx ++ [w * 16] }) ∧
  -- RX_TAIL_WRITE (R224): RX_TAIL takes the word's bits [31:16] and the entries before it leave the ring
  (∀ (ck w : Nat) (s : State), s.scoreRuns ck = true →
     Completes (.rxTailWrite ck w) s fun t =>
       t.rf R.LCB_RX_TAIL ck = bitsOf w 16 16 ∧
       (t.scSt ck).rx = (s.scSt ck).rx.filter fun (e : Nat × Pip) =>
         (bitsOf w 16 16 + 65536 - s.rf R.LCB_RX_TAIL ck) % 65536 ≤ (e.1 + 65536 - s.rf R.LCB_RX_TAIL ck) % 65536) ∧
  -- PIP_RECEIVE (R243): a pip of the present generation is written, its ingress stamped, into the lowest free units of the buffer its stream selects, and
  -- waits there; nothing is sent
  (∀ (p : Pip) (pc i : Nat) (redirected : Bool) (us : List Nat) (s : State), destLocal p.dest = true → s.resolveAt pc p.dest = 0 →
     p.gen = s.coreGen p.dest → kindOfLogical (p.dest % 64) ≠ 2 → s.matchBuf p.dest p.stream (some p.epoch) = some i → pipPoison p = false →
     us = ((((List.range (s.bufSize p.dest i)).map (s.bufBase p.dest i / 16 + ·)).filter fun u =>
       !((s.buf p.dest i).pips.flatMap (·.units)).contains u).take (pipCredits p.payload.length)) →
     Completes (.pipReceive p pc redirected) s fun t =>
       t.buf p.dest i = { s.buf p.dest i with pips := (s.buf p.dest i).pips ++
         [{ pip := { p with ingress := s.now, payload := [] }, at_ := s.now, bytes := p.payload.length, units := us }] } ∧
       t.sram = (s.unitsPut p.dest us (storedBytes { p with ingress := s.now })).sram ∧ t.out = s.out) ∧
  -- FLIT_RECEIVE (R234): a good flit that meets empty routers and may leave goes out by the port of its packet's way (R231); FLITS goes up by one and the
  -- run of failures ends
  (∀ (r port out : Nat) (f : Flit) (s : State), hasPort r port = true → s.linkDead r port = false → crc32c f.data = f.crc →
     (if f.typ % 4 = 0 ∨ f.typ % 4 = 3 then outPortOf r f.data else Tbl.get? s.msh.route (vcKey r port (f.cls % 4))) = some out →
     s.msh.bufs = [] → s.msh.owner = [] → s.canLeave r out (f.cls % 4) = true →
     Completes (.flitReceive r port f.data f.toFlitSide) s fun t =>
       t.out = .flit r out { f with typ := f.typ % 4 } :: s.out ∧ t.msh.bufs = [] ∧
       t.rf R.ROUTER_FLITS r = (s.rf R.ROUTER_FLITS r + 1) % 2 ^ 64 ∧ Tbl.get? t.msh.fails (r * 16 + port) = none) ∧
  -- RESPONSE_RECEIVE (R244): a response whose GEN is the present one is delivered, and a stream engine's read is outstanding no more (no read waiting to be
  -- issued)
  (∀ (ck pc g : Nat) (redirected : Bool) (ws : List Nat) (s : State), destLocal ck = true → s.resolveAt pc ck = 0 → g % 256 = s.coreGen ck →
     (kindOfLogical (ck % 64) = 1 → (s.vcSt ck).ready = []) →
     Completes (.responseReceive ck pc redirected g ws) s fun t =>
       t.out = .mesh 20 ck ws :: s.out ∧
       (kindOfLogical (ck % 64) = 1 → (t.vcSt ck).reads = (s.vcSt ck).reads.eraseP fun r => r.1 = ws.getD 1 0))

/-- Credits of a channel: asked for, granted, returned, released, idle and retried. Each clause: where the command completes and what it
leaves. -/
def Obligations.CreditsComplete : Prop :=
  -- CREDIT_REQUEST (R241): the credits asked for are granted from the buffer's free ones and count as used; the grant with the consumer's GEN goes to the
  -- producer
  (∀ (producer dest stream n gen i : Nat) (s : State), producer < 0x8000 → destLocal dest = true → s.isAbsent dest = false →
     s.matchBuf dest stream none = some i → (s.buf dest i).queue = [] → n ≠ 0 → n ≤ s.bufFree dest i →
     Completes (.creditRequest { core := producer, gen := gen } dest stream n) s fun t =>
       t.buf dest i = { s.buf dest i with used := (s.buf dest i).used + n } ∧
       t.out.head? = some (.mesh 2 producer [dest, stream, n, s.coreGen dest])) ∧
  -- CREDIT_GRANT (R241): the channel's credits go up by the grant
  (∀ (ck dest stream n gen reqGen : Nat) (c : Chan) (s : State), reqGen % 256 = s.coreGen ck → s.chan ck dest stream = some c → c.gen = gen % 256 →
     Completes (.creditGrant ck dest stream n { gen := gen, reqGen := reqGen }) s fun t =>
       t.chan ck dest stream = some { c with credits := c.credits + n, usedAt := s.elapsed, want := c.want - n, noBuf := none }) ∧
  -- CREDIT_RETURN (R242): the channel's credits go up by the return
  (∀ (ck dest stream n gen reqGen : Nat) (c : Chan) (s : State), reqGen % 256 = s.coreGen ck → s.chan ck dest stream = some c → c.gen = gen % 256 →
     Completes (.creditReturn ck dest stream n { gen := gen, reqGen := reqGen }) s fun t =>
       t.chan ck dest stream = some { c with credits := c.credits + n, usedAt := s.elapsed, noBuf := none }) ∧
  -- CREDIT_RELEASE (R241): the buffer's used room goes down by the release
  (∀ (dest stream n gen i : Nat) (s : State), destLocal dest = true → s.isAbsent dest = false → gen % 256 = s.coreGen dest →
     s.matchBuf dest stream none = some i → (s.buf dest i).queue = [] →
     Completes (.creditRelease dest stream n gen) s fun t =>
       t.buf dest i = { s.buf dest i with used := (s.buf dest i).used - n }) ∧
  -- CREDIT_IDLE (R242): credits idle for 100 us go back, those reserved kept
  (∀ (ck dest stream : Nat) (c : Chan) (s : State), s.chan ck dest stream = some c → c.reserved < c.credits → c.usedAt + 100000 ≤ s.elapsed →
     destRemote dest = false → dest < 0x8000 →
     Completes (.creditIdle ck dest stream) s fun t =>
       t.chan ck dest stream = some { c with credits := c.reserved } ∧
       t.out = .mesh 4 dest [ck, stream, c.credits - c.reserved, c.gen] ::
         ((if destLocal dest then [.route (s.routeHeader ck 4 dest (s.coreGen ck) 0)] else []) ++ s.out)) ∧
  -- NO_BUFFER_RETRY (R241): the request goes out again and the next try is in 10 us
  (∀ (ck dest stream : Nat) (c : Chan) (s : State), s.chan ck dest stream = some c → c.noBuf.isSome = true → c.retryAt ≤ s.elapsed →
     dest < 0x8000 →
     Completes (.noBufferRetry ck dest stream) s fun t =>
       t.chan ck dest stream = some { c with retryAt := s.elapsed + 10000 } ∧
       t.out = .mesh 1 dest [ck, stream, c.want, s.coreGen ck] ::
         ((if destLocal dest then [.route (s.routeHeader ck 1 dest (s.coreGen ck) 0)] else []) ++ s.out))

/-- The mesh maps and the hold of a clock change. Each clause: where the command completes and what it leaves. -/
def Obligations.MeshMapsComplete : Prop :=
  -- MAP_ENTRY_WRITE (R247): an entry word of the bank not in use takes the word's physical numbers and absent bits
  (∀ (m : Master) (r b i w : Nat) (s : State), s.Writes m (routerPage r 1) (0x100 + 0x780 * b + 8 * i) w → b < 2 → i < 240 →
     b ≠ s.rf R.ROUTER_MAP_BANK r →
     Completes (.mapEntryWrite m r b i w) s fun t =>
       t.rf R.ROUTER1_PHYS_0 r (240 * b + i) = bitsOf w 0 6 ∧ t.rf R.ROUTER1_ABSENT_0 r (240 * b + i) = bitsOf w 6 1 ∧
       t.rf R.ROUTER1_PHYS_7 r (240 * b + i) = bitsOf w 56 6 ∧ t.rf R.ROUTER1_ABSENT_7 r (240 * b + i) = bitsOf w 62 1) ∧
  -- MAP_SWITCH (R247): the map bank in use changes, MAP_VER takes the word and the router acknowledges
  (∀ (r w : Nat) (s : State), s.Writes .oasis (routerPage r) 0x108 w → s.rb R.ROUTER_HELD r = false →
     Completes (.mapSwitch .oasis r w) s fun t =>
       t.rf R.ROUTER_MAP_BANK r = 1 - s.rf R.ROUTER_MAP_BANK r ∧ t.rf R.ROUTER_MAP_VER r = bitsOf w 0 8 ∧ r ∈ t.msh.acks) ∧
  -- MAP_SWITCH_COMPLETE (R247): with every router's acknowledgement the switch is over
  (∀ s : State, s.msh.switching.isSome = true → 512 ≤ s.msh.acks.length →
     Completes .mapSwitchComplete s fun t => t.msh = { s.msh with switching := none, acks := [] }) ∧
  -- CLOCK_HOLD_END (R253): the half runs at its new clock and its routers are held no more
  (∀ (half m : Nat) (s : State), half < 2 → Tbl.get? s.clk.hold half = some m → Tbl.get? s.clk.next half = none →
     Completes (.clockHoldEnd half) s fun t =>
       t.clk = { s.clk with mesh := s.clk.mesh.set half m, hold := Tbl.del s.clk.hold half, next := Tbl.del s.clk.next half } ∧
       ∀ r ∈ List.range 512, halfOfRouter r = half → t.rf R.ROUTER_HELD r = 0)

/-- HBM: reads, writes, scrubbing, training, filling and its ranges. Each clause: where the command completes and what it leaves. -/
def Obligations.ExternalMemoryComplete : Prop :=
  -- HBM_READ (R268): while the controller accepts requests, the bytes of one codeword are answered, not hollow, to the requester and counted, and
  -- memory is unchanged (a clean codeword; a stream engine within its limits)
  (∀ (r : Requester) (id a n st off : Nat) (miss : Option Nat) (s : State), hbmDecode s.interleave a = some (st, off) →
     s.hbmAccepts a = true → (s.sealed a = true → r.sealedOk = true) → s.rb R.HBM_FAILED st = false → s.hbmTag st (off / 64 * 64) = 0 →
     (match r with | .stream v => s.streamRoom v st | _ => true) = true →
     Completes (.hbmRead r id a n false [] 0 miss) s fun t =>
       t.out = .mesh 17 r.dest [r.code, id, 0, 0, Mem.read s.hbm (hbmKey st (off / 64 * 64)) 64 / 256 ^ (a % 64) % 256 ^ min n (64 - a % 64)] :: s.out ∧
       t.hbm = s.hbm ∧ t.rf R.HBM_READ_BYTES st = (s.rf R.HBM_READ_BYTES st + min n (64 - a % 64)) % 2 ^ 64) ∧
  -- HBM_WRITE (R269): while the controller accepts requests, HBM holds the bytes written, the reply goes out and WRITE_BYTES goes up
  (∀ (r : Requester) (id a n v st off : Nat) (miss : Option Nat) (s : State), hbmDecode s.interleave a = some (st, off) →
     s.hbmAccepts a = true → (s.sealed a = true → r.sealedOk = true) → s.rb R.HBM_FAILED st = false → s.hbmTag st (off / 64 * 64) = 0 →
     Completes (.hbmWrite r id a n v false 0 [] 0 miss) s fun t =>
       t.hbm = Mem.write s.hbm (hbmKey st off) (min n (64 - a % 64)) v ∧ t.out = .mesh 17 r.dest [r.code, id, 0, 0, 0] :: s.out ∧
       t.rf R.HBM_WRITE_BYTES st = (s.rf R.HBM_WRITE_BYTES st + min n (64 - a % 64)) % 2 ^ 64) ∧
  -- SCRUB_READ (R270): SCRUB_PTR goes to the next line (below the end of the stack)
  (∀ (st flips : Nat) (errs : List (Nat × Nat)) (miss : Option Nat) (s : State), st < 12 → s.rb R.HBM1_SCRUB_EN st = true →
     s.rb R.HBM_FAILED st = false → s.rb R.HBM_SELF_REFRESH st = false → s.rf R.HBM1_SCRUB_PTR st / 64 * 64 + 64 < 48 * 2 ^ 30 →
     Completes (.scrubRead st errs flips miss) s fun t => t.rf R.HBM1_SCRUB_PTR st = s.rf R.HBM1_SCRUB_PTR st / 64 * 64 + 64) ∧
  -- HBM_TRAIN (R261): the stack is trained at the rate reached
  (∀ (st outcome : Nat) (s : State), st < 12 → outcome < 2 →
     Completes (.hbmTrain st outcome) s fun t =>
       t.rf R.HBM_TRAINED st = 1 ∧ t.rf R.HBM_RATE st = outcome ∧ t.rf R.HBM_SELF_REFRESH st = 0) ∧
  -- HBM_FILL (R275): a filled stack is initialised and none of its bytes or tags are listed
  (∀ (st : Nat) (s : State), st < 12 → st ∈ s.md.fillDue →
     Completes (.hbmFill st) s fun t =>
       t.rf R.HBM_INITIALISED st = 1 ∧ st ∉ t.md.fillDue ∧ t.hbm = Tbl.keep s.hbm (fun a _ => decide (a / 2 ^ 36 ≠ st)) ∧
       t.hbmTags = Tbl.keep s.hbmTags (fun w _ => decide (w * 64 / 2 ^ 36 ≠ st))) ∧
  -- INTERLEAVE_WRITE (R264): before READY all stacks take the size, and the sealed range starts at twelve times it and ends at the top
  (∀ (m : Master) (w : Nat) (s : State), s.Writes m (hbmPage 0) 0x100 w → s.wasReady = false →
     Completes (.interleaveWrite m w) s fun t =>
       ∀ k ∈ List.range 12, t.rf R.HBM_INTERLEAVE_GIB k = bitsOf w 0 6 ∧ t.rf R.HBM_SEALED_BASE k = 12 * bitsOf w 0 6 * 2 ^ 30 ∧
         t.rf R.HBM_SEALED_LIMIT k = 0x8FFFFFFFFF) ∧
  -- SEALED_RANGE_WRITE (R272): Oasis sets the sealed range's base or limit in all stacks
  (∀ (limit : Bool) (w : Nat) (s : State), s.Writes .oasis (hbmPage 0) (if limit then 0x110 else 0x108) w →
     Completes (.sealedRangeWrite .oasis limit w) s fun t =>
       ∀ k ∈ List.range 12, t.rf (if limit then R.HBM_SEALED_LIMIT else R.HBM_SEALED_BASE) k = w)

/-- Register accesses, interrupts of a page and the host's register commands. Each clause: where the command completes and what it leaves.
The model's choice: the order of the checks on an access is log 9. -/
def Obligations.RegisterAccessComplete : Prop :=
  -- REGISTER_WRITE (R42): a write no check stops to INT_ENABLE sets the bits the page implements
  (∀ (m : Master) (p : Page) (w : Nat) (s : State), s.Writes m p 0x48 w →
     Completes (.registerWrite m (p.addr + 0x48) w) s fun t =>
       t.rf p.intEnable p.inst = w % 2 ^ (intTop p.blk p.page + 1) % 2 ^ 64) ∧
  -- RC_READ (R10): every RC field of the word read is 0 afterwards
  (∀ (m : Master) (p : Page) (off : Nat) (s : State), s.Reads m p off → 0x100 ≤ off →
     Completes (.rcRead m (p.addr + off)) s fun t => ∀ fk ∈ wordFields p off, fk.1.acc = .rc → t.rf fk.1 p.inst fk.2 = 0) ∧
  -- ERR_REARM (R48): ERR_VALID, ERR_CAUSE and ERR_MORE of the page are 0
  (∀ (m : Master) (p : Page) (w : Nat) (s : State), s.Writes m p 0x20 (w ||| 2) → w.testBit 8 = false → p.blk ≠ 0x12 → p.blk ≠ 0x15 →
     Completes (.errRearm m p.index w) s fun t => t.rf p.errValid p.inst = 0 ∧ t.rf p.errCause p.inst = 0 ∧ t.rf p.errMore p.inst = 0) ∧
  -- INT_FORCE (R50): the bits forced are set in INT_STATUS and LAST_STAMP is the time
  (∀ (m : Master) (p : Page) (w : Nat) (s : State), s.Writes m p 0x50 w → w % 2 ^ (intTop p.blk p.page + 1) ≠ 0 →
     Completes (.intForce m p.index w) s fun t =>
       t.rf p.intStatus p.inst = (s.rf p.intStatus p.inst ||| w % 2 ^ (intTop p.blk p.page + 1)) % 2 ^ 64 ∧
       t.rf p.lastStamp p.inst = s.now % 2 ^ 64) ∧
  -- PAGE_INTERRUPT (R51): the oldest page interrupt is taken and an event 0x0201 with its page, INT_STATUS and stamp is staged
  (∀ (i : Nat) (rest : List Nat) (s : State), s.rb R.OASIS_RESTARTING 0 = false → s.irqs = i :: rest → s.staging = [] →
     Completes .pageInterrupt s fun t =>
       t.staging.length = 1 ∧ t.staging.any fun e => e.kind = 0x0201 && e.page = i &&
         e.details = [s.rf (Page.ofIndex i).intStatus (Page.ofIndex i).inst, s.rf (Page.ofIndex i).lastStamp (Page.ofIndex i).inst,
           s.errCap2 (Page.ofIndex i), 0]) ∧
  -- REG_READ (R345): a one-word read of SRAM is answered with the word
  (∀ (c : Cmd) (ck off : Nat) (s : State), s.Takes c → regBodyOk c 0 = true → c.w 1 = 1 → c.w 0 % 8 = 0 → s.sramAddr (c.w 0) = some (ck, off) →
     s.sramIsHollow ck off = false →
     Completes (.regRead c) s fun t => s.Answered t c 0x10 [0, s.now, 0, s.sramRead ck off 8]) ∧
  -- REG_WRITE (R345): a one-word write of SRAM stores the word and is answered
  (∀ (c : Cmd) (ck off : Nat) (s : State), s.Takes c → regBodyOk c 1 = true → c.w 1 = 1 → c.w 0 % 8 = 0 → s.sramAddr (c.w 0) = some (ck, off) →
     ck % 64 < 57 →
     Completes (.regWrite c) s fun t =>
       t.sram = (s.sramWrite ck off 8 (c.w 2)).sram ∧ s.Answered t c 0x11 [pack [(1, 15, 7)], s.now, 0])

/-- Contexts and requests: opening, closing, submitting, cancelling, inquiring. Each clause: where the command completes and what it leaves.
The model's choice: the lowest free index and slot are taken (log 14); words of a completion that the spec does not state are 0 (log 8). -/
def Obligations.ContextsAndRequestsComplete : Prop :=
  -- CTX_OPEN (R286): a context is kept with the command's variant, tenant, positions and seed, and the answer holds its id
  (∀ (c : Cmd) (i slot : Nat) (s : State), s.Takes c → c.bodyWords = 2 → s.ctxOpenCheck c = stOk → s.freeCtx = some i → s.freeSlot (c.f 0 0 6) = some slot →
     (s.reserveAll slot (c.f 0 24 24 / 64) (s.var (c.f 0 0 6)).place.kvCores).isSome = true → c.w 1 ≠ 0 →
     Completes (.ctxOpen c) s fun t =>
       t.ctxs = Tbl.put s.ctxs i { reuse := Tbl.getD s.ctxReuse i 0, variant := c.f 0 0 6, tenant := c.f 0 6 12, slot := slot, positions := c.f 0 24 24, seed := c.w 1, det := c.b 0 18 } ∧
       s.Answered t c 0x20 (servingWords stOk 0 0 0 0 0 0 (Tbl.getD s.ctxReuse i 0 * 65536 + i) 0 0 0 (c.f 0 6 12) (c.w 1) s.now 0 0)) ∧
  -- CTX_CLOSE (R287): the context is gone and the answer holds its length
  (∀ (c : Cmd) (x : Ctx) (s : State), s.Takes c → c.bodyWords = 1 → s.ctxOf (c.f 0 0 32) = some x → x.req = none →
     Completes (.ctxClose c) s fun t => t.ctxOf (c.f 0 0 32) = none ∧
       s.Answered t c 0x21 (servingWords stOk 0 0 0 0 0 0 (c.f 0 0 32) x.len 0 0 x.tenant x.seed s.now 0 0)) ∧
  -- SUBMIT (R289): the request is kept with the command's fields, its ring is open and counted, and the answer says accepted
  (∀ (c : Cmd) (x : Ctx) (s : State), s.Takes c → c.bodyWords = 27 → s.ctxOf (c.f 0 32 32) = some x → s.submitCheck c = stAccepted →
     Completes (.submit c) s fun t =>
       t.reqs = s.reqs ++ [{ id := c.f 0 0 32, ctx := c.f 0 32 32, variant := x.variant, tenant := x.tenant, cls := s.rf R.TENANT_CLASS x.tenant, ring := c.f 1 0 16,
                             qp := c.qp, greedy := c.b 1 16, stops := c.tokens 7 (c.f 1 20 4), maxNew := c.f 1 32 32, deadline := c.w 2, temp := c.f 3 0 32,
                             topP := c.f 3 32 32, topK := c.f 4 0 32, promptCount := c.f 4 32 32, prompt := c.tokens 11 (c.f 1 24 8),
                             promptRead := decide (c.f 1 24 8 = c.f 4 32 32), accept := s.now, order := s.rf R.SERVE_ACCEPTED 0, readyAt := s.elapsed, seed := x.seed }] ∧
       t.rf R.RING_OPEN (c.f 1 0 16) = 1 ∧ t.rf R.RING_REQUEST_ID (c.f 1 0 16) = c.f 0 0 32 ∧ t.rf R.SERVE_ACCEPTED 0 = (s.rf R.SERVE_ACCEPTED 0 + 1) % 2 ^ 64 ∧
       t.rf R.SERVE_OPEN 0 = (s.reqs.length + 1) % 2 ^ 17 ∧
       s.Answered t c 0x22 (servingWords stAccepted 0 0 (c.f 0 0 32) 0 0 0 (c.f 0 32 32) x.len (c.f 1 0 16) 1 x.tenant x.seed s.now s.now 0)) ∧
  -- CANCEL (R309): a request queued or running is fixed CANCELLED, and the answer holds its counts
  (∀ (c : Cmd) (r : Req) (x : Ctx) (s : State), s.Takes c → c.bodyWords = 1 → s.req (c.f 0 0 32) = some r → r.fixed = none → s.ctxOf r.ctx = some x →
     Completes (.cancel c) s fun t =>
       (r.state ≠ rqQueued → (t.req r.id).any fun q => q.fixed = some (stCancelled, 0) && q.state = rqEnding && !q.decodeReady && q.endStamp = s.now) ∧
       (r.state = rqQueued → (s.ring r.ring).waiting = [] → s.ringRoom r.ring 1 = true →
         t.ended.head?.any fun q => q.id = r.id && q.fixed = some (stCancelled, 0) && q.state = rqEnded && q.endStamp = s.now) ∧
       s.Answered t c 0x23 (servingWords stCancelled 0 r.notes r.id r.steps r.tokens r.lastSeq r.ctx x.len r.ring 0 r.tenant x.seed s.now r.accept s.now)) ∧
  -- INQUIRE (R292): the answer describes the open request
  (∀ (c : Cmd) (r : Req) (s : State), s.Takes c → c.bodyWords = 1 → c.f 0 33 7 = 0 → c.f 0 50 14 = 0 → c.b 0 32 = false → s.req (c.f 0 0 32) = some r →
     Completes (.inquire c) s fun t => s.Answered t c 0x24 (s.reqWords r stOk 0))

/-- Token rings: setup, delivery, acknowledgement and the host's progress. Each clause: where the command completes and what it leaves. The
model's choice: the shadow's address and one write per contiguous run are the model's choice (log 14). -/
def Obligations.TokenRingsComplete : Prop :=
  -- RING_SETUP (R297): the ring is bound with the command's queue pair, address, key, size and tenant, at sequence 1
  (∀ (c : Cmd) (a : Nat) (s : State), s.Takes c → c.bodyWords = 3 → c.f 0 44 20 = 0 → c.f 2 32 32 = 0 → 4 ≤ c.f 0 26 5 → c.f 0 26 5 ≤ 16 → c.w 1 % 64 = 0 →
     s.connected (c.f 0 16 10) = true → c.b 0 31 = false → s.rb R.RING_OPEN (c.f 0 0 16) = false →
     (if s.rf R.RING_SHADOW_ADDR (c.f 0 0 16) ≠ 0 then some (s.rf R.RING_SHADOW_ADDR (c.f 0 0 16)) else s.newShadow) = some a →
     Completes (.ringSetup c) s fun t =>
       t.rf R.RING_BOUND (c.f 0 0 16) = 1 ∧ t.rf R.RING_STALLED (c.f 0 0 16) = 0 ∧ t.rf R.RING_QP (c.f 0 0 16) = c.f 0 16 10 ∧
       t.rf R.RING_HOST_ADDR (c.f 0 0 16) = c.w 1 % 2 ^ 64 ∧ t.rf R.RING_RKEY (c.f 0 0 16) = c.f 2 0 32 ∧ t.rf R.RING_SIZE_LOG2 (c.f 0 0 16) = c.f 0 26 5 ∧
       t.rf R.RING_TENANT (c.f 0 0 16) = c.f 0 32 12 ∧ t.rf R.RING_NEXT_SEQ (c.f 0 0 16) = 1 ∧ t.rf R.RING_CONSUMED (c.f 0 0 16) = 0 ∧
       t.rf R.RING_DELIVERED (c.f 0 0 16) = 0 ∧ t.rf R.RING_SHADOW_ADDR (c.f 0 0 16) = a % 2 ^ 64 ∧
       s.Answered t c 0x25 (servingWords stOk 0 0 0 0 0 0 0 0 (c.f 0 0 16) 0 (c.f 0 32 12) 0 s.now 0 0)) ∧
  -- RING_DELIVER (R296): the entries committed are written to the host's ring and their tail awaited
  (∀ (r : Nat) (s : State), s.rb R.RING_BOUND r = true → s.rb R.RING_STALLED r = false → seqDist (s.ring r).deliver (s.rf R.RING_NEXT_SEQ r) ≠ 0 →
     s.connected (s.rf R.RING_QP r) = true →
     Completes (.ringDeliver r) s fun t =>
       (t.ring r).deliver = s.rf R.RING_NEXT_SEQ r ∧
       (t.ring r).tails = (s.ring r).tails ++ [if s.rf R.RING_NEXT_SEQ r = 1 then 0xFFFFFFFF else s.rf R.RING_NEXT_SEQ r - 1] ∧
       t.out.head? = some (.rdmaWrite (s.rf R.RING_QP r) (s.rf R.RING_HOST_ADDR r) (s.rf R.RING_RKEY r)
         [if s.rf R.RING_NEXT_SEQ r = 1 then 0xFFFFFFFF else s.rf R.RING_NEXT_SEQ r - 1])) ∧
  -- TAIL_ACK (R296): DELIVERED takes the acknowledged tail
  (∀ (r x : Nat) (l : List Nat) (s : State), (s.ring r).tails = x :: l →
     Completes (.tailAck r) s fun t => t.rf R.RING_DELIVERED r = x % 2 ^ 32 ∧ (t.ring r).tails = l) ∧
  -- CONSUMED_WRITE (R322): CONSUMED takes the word and the ring is not full
  (∀ (m : Master) (r w : Nat) (s : State), s.Writes m (ringPage r) 0x110 w → (s.ring r).waiting = [] →
     Completes (.consumedWrite m r w) s fun t => t.rf R.RING_CONSUMED r = bitsOf w 32 32 ∧ t.rf R.RING_FULL r = 0)

/-- The commits of tokens and ends, and a position done. Each clause: where the command completes and what it leaves. The model's choice:
the order of end conditions is log 14. -/
def Obligations.TokenCommitsComplete : Prop :=
  -- POSITION_DONE (R301): the token's doorbell is written and the request and its context move on by one
  (∀ (id token : Nat) (r : Req) (x : Ctx) (s : State), s.req id = some r → r.inflight ≠ 0 → r.broken = false → r.fixed = none → s.ctxOf r.ctx = some x →
     r.promptCount ≤ r.steps + 1 → r.maxNew ≠ 0 → x.len + 1 < x.positions →
     Completes (.positionDone id false token) s fun t =>
       t.doorbells = s.doorbells ++ [tokenDoorbell r x.positions (x.len + 1) token] ∧
       ((t.req id).any fun q => q.inflight = r.inflight - 1 && q.steps = r.steps + 1) ∧ ((t.ctxOf r.ctx).any fun y => y.len = x.len + 1)) ∧
  -- COMMIT_TOKEN (R298): a token record is committed and the request may decode again
  (∀ (d : Doorbell) (l : List Doorbell) (r : Req) (s : State), s.doorbells = d :: l → d.op = 0 → s.rb R.RING_OPEN d.ring = true →
     s.req (s.rf R.RING_REQUEST_ID d.ring) = some r → r.fixed = none → (s.ring d.ring).waiting = [] → s.ringRoom d.ring 1 = true →
     Completes .commitToken s fun t =>
       t.doorbells = l ∧ t.rf R.RING_NEXT_SEQ r.ring = seqNext (s.rf R.RING_NEXT_SEQ r.ring) ∧ t.rf R.RING_LAST_COMMIT_STAMP r.ring = s.now % 2 ^ 64 ∧
       (t.req r.id).any fun q => q.tokens = r.tokens + 1 && q.lastToken = d.token && q.lastSeq = s.rf R.RING_NEXT_SEQ r.ring && q.decodeReady && q.readyAt = s.elapsed) ∧
  -- COMMIT_END (R308): the end record is committed, the ring closed and the request ended
  (∀ (d : Doorbell) (l : List Doorbell) (r : Req) (s : State), s.doorbells = d :: l → d.op = 1 → s.rb R.RING_OPEN d.ring = true →
     s.req (s.rf R.RING_REQUEST_ID d.ring) = some r → r.fixed = none → (s.ring d.ring).waiting = [] → s.ringRoom d.ring 1 = true →
     Completes .commitEnd s fun t =>
       t.doorbells = l ∧ t.rf R.RING_NEXT_SEQ r.ring = seqNext (s.rf R.RING_NEXT_SEQ r.ring) ∧ t.rf R.RING_OPEN r.ring = 0 ∧
       t.rf R.SERVE_ENDED 0 = (s.rf R.SERVE_ENDED 0 + 1) % 2 ^ 64 ∧
       t.ended.head?.any fun q => q.id = r.id && q.fixed = some (d.status, d.reason) && q.state = rqEnded && q.endLen = d.ctxLen && q.tokens = r.tokens &&
         q.lastSeq = s.rf R.RING_NEXT_SEQ r.ring && q.endStamp = s.now) ∧
  -- COMMIT_TOKEN_END (R298): token and end records are committed together and the request ended
  (∀ (d : Doorbell) (l : List Doorbell) (r : Req) (s : State), s.doorbells = d :: l → d.op = 2 → s.rb R.RING_OPEN d.ring = true →
     s.req (s.rf R.RING_REQUEST_ID d.ring) = some r → r.fixed = none → (s.ring d.ring).waiting = [] → s.ringRoom d.ring 2 = true →
     Completes .commitTokenEnd s fun t =>
       t.doorbells = l ∧ t.rf R.RING_NEXT_SEQ r.ring = seqNext (seqNext (s.rf R.RING_NEXT_SEQ r.ring)) ∧ t.rf R.RING_OPEN r.ring = 0 ∧
       t.ended.head?.any fun q => q.id = r.id && q.fixed = some (d.status, d.reason) && q.state = rqEnded && q.endLen = d.ctxLen && q.tokens = r.tokens + 1 &&
         q.lastSeq = seqNext (s.rf R.RING_NEXT_SEQ r.ring) && q.endStamp = s.now)

/-- The life of a request: prompt, activation, dispatch, promotion, deadline, abnormal end. Each clause: where the command completes and
what it leaves. The model's choice: one turn for each DISPATCH_TURN is log 14. -/
def Obligations.RequestLifeComplete : Prop :=
  -- PROMPT_READ_DONE (R290): the prompt is whole and marked read; other requests as they were
  (∀ (id : Nat) (tokens : List Nat) (r : Req) (s : State), s.req id = some r → r.state = rqQueued → r.promptRead = false →
     ((r.prompt ++ tokens).take r.promptCount).length = r.promptCount → (∀ x ∈ (r.prompt ++ tokens).take r.promptCount, x < (s.var r.variant).place.vocab) →
     Completes (.promptReadDone id true tokens) s fun t =>
       t.reqs = s.reqs.map fun y => if y.id = id then { y with prompt := (r.prompt ++ tokens).take r.promptCount, promptRead := true } else y) ∧
  -- REQUEST_ACTIVATE (R299): the request first in order is active in a free slot at the variant's epoch
  (∀ (v slot : Nat) (r : Req) (x : Ctx) (s : State),
     firstBy (fun r => (3 - r.cls, r.order, 0)) ((s.openOf v).filter fun r => r.state = rqQueued && r.promptRead && r.fixed.isNone) = some r →
     s.freeActive v = some slot → s.ctxOf r.ctx = some x →
     Completes (.requestActivate v) s fun t =>
       t.reqs = s.reqs.map fun y => if y.id = r.id then { y with state := rqActive, slot := some slot, epoch := s.rf R.SERVE2_EPOCH 0 v, readyAt := s.elapsed } else y) ∧
  -- DISPATCH_TURN (R300): a decode set goes out for the request in turn and is charged
  (∀ (v k : Nat) (r : Req) (x : Ctx) (s : State), s.dutyZero = false → s.nextTurn v = some (true, k) → (s.openOf v).filter Req.decodable = [r] →
     s.ctxOf r.ctx = some x → (s.mayDebit r).1 = true →
     Completes (.dispatchTurn v) s fun t =>
       (t.var v).turn = k ∧ t.out = .mesh 15 r.variant [r.id, x.len + r.inflight, 1, r.lastToken, r.epoch] :: s.out ∧
       (t.reqs = s.reqs.map fun y => if y.id = r.id then { y with state := rqActive, decodeReady := false, inflight := y.inflight + 1, promoted := false } else y) ∧
       t.rf R.SERVE1_DECODE_SETS 0 = (s.rf R.SERVE1_DECODE_SETS 0 + 1) % 2 ^ 64 ∧
       t.rf R.TENANT_DECODE_CHARGED r.tenant = (s.rf R.TENANT_DECODE_CHARGED r.tenant + 1) % 2 ^ 64) ∧
  -- STARVE_PROMOTION (R300): a request waiting past STARVE_US is promoted and counted
  (∀ (id : Nat) (r : Req) (s : State), s.req id = some r → (r.decodable || r.prefillable) = true → r.promoted = false →
     r.readyAt + s.rf R.SERVE1_STARVE_US 0 * 1000 ≤ s.elapsed →
     Completes (.starvePromotion id) s fun t =>
       (t.reqs = s.reqs.map fun y => if y.id = id then { y with promoted := true } else y) ∧
       t.rf R.SERVE1_STARVE_PROMOTIONS 0 = min (2 ^ 32 - 1) (s.rf R.SERVE1_STARVE_PROMOTIONS 0 + 1) ∧
       (t.var r.variant).promoteKind = some (if r.decodable then 0 else 1)) ∧
  -- DEADLINE_EXPIRY (R307): a request past its deadline is fixed DEADLINE, queued or running
  (∀ (id : Nat) (r : Req) (s : State), s.req id = some r → r.deadline ≠ 0 → r.deadline ≤ s.now → r.fixed = none →
     Completes (.deadlineExpiry id) s fun t =>
       (r.state ≠ rqQueued → t.rf R.RING_FIXED r.ring = 1 ∧
         (t.req id).any fun q => q.fixed = some (stDeadline, 0) && q.state = rqEnding && !q.decodeReady && q.endStamp = s.now) ∧
       (r.state = rqQueued → (s.ring r.ring).waiting = [] → s.ringRoom r.ring 1 = true → t.rf R.RING_OPEN r.ring = 0 ∧
         t.ended.head?.any fun q => q.id = id && q.fixed = some (stDeadline, 0) && q.state = rqEnded && q.endStamp = s.now)) ∧
  -- ABNORMAL_END (R311): the request is fixed with the status and its context ends
  (∀ (id status lost : Nat) (r : Req) (x : Ctx) (s : State), 6 ≤ status → status ≤ 9 → s.req id = some r → r.fixed = none → r.state ≠ rqQueued → s.ctxOf r.ctx = some x →
     Completes (.abnormalEnd id status lost) s fun t =>
       ((t.req id).any fun q => q.fixed = some (status, 0) && q.state = rqEnding && q.broken && q.inflight = r.inflight - lost) ∧
       ((t.ctxOf r.ctx).any fun y => y.term) ∧ t.rf R.SERVE_ABNORMAL_ENDS 0 = min (2 ^ 32 - 1) (s.rf R.SERVE_ABNORMAL_ENDS 0 + 1)) ∧
  -- ABSENT_NOTICE (R437): the notice goes to the stream's head, and at the head the request is FAULTED
  (∀ (stream h : Nat) (r : Req) (s : State), s.headOf stream = some h → (s.reqsOnStreams [stream] = [r] ∨ h ≠ s.here) → (h = s.here → s.req r.id = some r ∧ r.fixed = none ∧ r.state ≠ rqQueued) →
     Completes (.absentNotice stream) s fun t =>
       (h ≠ s.here → t = s.sendNotice h [0, stream, 0]) ∧ (h = s.here → (t.req r.id).any fun q => q.fixed = some (stFaulted, 0)))

/-- Draining a variant. Each clause: where the command completes and what it leaves. -/
def Obligations.VariantDrainComplete : Prop :=
  -- VARIANT_RETIRE (R315): the variant drains and the answer says accepted
  (∀ (c : Cmd) (s : State), s.Takes c → c.bodyWords = 1 → s.vstate (c.f 0 0 6) = vActive →
     Completes (.variantRetire c) s fun t =>
       t.vstate (c.f 0 0 6) = vDraining ∧ t.rf R.SERVE2_PREEMPT 0 (c.f 0 0 6) = c.f 0 6 1 ∧ (t.var (c.f 0 0 6)).drainSince = s.elapsed ∧
       (t.var (c.f 0 0 6)).retiring = some (c.qp, c.cmdId) ∧ s.Answered t c 0x27 (s.servingShort stAccepted 0)) ∧
  -- DRAIN_LIMIT_WRITE (R315): the variant's drain limit takes the word
  (∀ (m : Master) (v w : Nat) (s : State), v < 64 → s.Writes m (servePage 2) (0x108 + 16 * v) w →
     Completes (.drainLimitWrite m v w) s fun t => t.rf R.SERVE2_DRAIN_LIMIT_MS 0 v = bitsOf w 0 16) ∧
  -- DRAIN_LIMIT (R315): a request open past the drain limit is fixed PREEMPTED
  (∀ (v : Nat) (r : Req) (x : Ctx) (s : State), s.vstate v = vDraining → s.rf R.SERVE2_DRAIN_LIMIT_MS 0 v ≠ 0 →
     (s.var v).drainSince + s.rf R.SERVE2_DRAIN_LIMIT_MS 0 v * 1000000 ≤ s.elapsed → (s.openOf v).filter (fun r => r.fixed.isNone) = [r] → s.req r.id = some r →
     r.state ≠ rqQueued → s.ctxOf r.ctx = some x →
     Completes (.drainLimit v) s fun t =>
       ((t.req r.id).any fun q => q.fixed = some (stPreempted, 0) && q.state = rqEnding) ∧ (t.ctxOf r.ctx).any fun y => y.term) ∧
  -- DRAIN_SET_DISPATCH (R316): the drain set of an empty variant goes out once
  (∀ (v : Nat) (s : State), s.vstate v = vDraining → s.openOf v = [] → (s.var v).drainSent = false →
     Completes (.drainSetDispatch v) s fun t => (t.var v).drainSent = true ∧ t.out = .mesh 16 v [s.rf R.SERVE2_EPOCH 0 v] :: s.out) ∧
  -- DRAIN_SET_ARRIVAL (R316): the variant is REGISTERED again
  (∀ (v : Nat) (s : State), s.vstate v = vDraining → (s.var v).drainSent = true →
     Completes (.drainSetArrival v) s fun t => t.vstate v = vRegistered ∧ (t.var v).drainSent = false ∧ (t.var v).retiring = none)

/-- Writes to a tenant's account. Each clause: where the command completes and what it leaves. -/
def Obligations.TenantAccountsComplete : Prop :=
  -- TENANT_DEBIT (R321): a decode debit lowers the balance and raises DECODE_CHARGED
  (∀ (ck tn w : Nat) (s : State), s.Writes (.score ck) (tenantPage tn) 0x120 w → w.testBit 24 = true →
     Completes (.tenantDebit (.score ck) tn w) s fun t =>
       t.balance tn = (s.debit tn (bitsOf w 0 24) true).balance tn ∧
       t.rf R.TENANT_DECODE_CHARGED tn = (s.rf R.TENANT_DECODE_CHARGED tn + bitsOf w 0 24) % 2 ^ 64) ∧
  -- TENANT_ENABLE (R303): a tenant enabled starts with a full bucket
  (∀ (m : Master) (tn w : Nat) (s : State), s.Writes m (tenantPage tn) 0x108 w → s.rb R.TENANT_ENABLED tn = false → w.testBit 34 = true →
     Completes (.tenantEnable m tn w) s fun t =>
       t.rf R.TENANT_ENABLED tn = 1 ∧ t.balance tn = (s.rf R.TENANT_DEPTH tn * 256 : Nat) ∧ t.rf R.TENANT_LAST_REFILL tn = s.now % 2 ^ 64) ∧
  -- TENANT_RATE_WRITE (R303): RATE and DEPTH take the word and the refill counts from now
  (∀ (m : Master) (tn w : Nat) (s : State), s.Writes m (tenantPage tn) 0x100 w →
     Completes (.tenantRateWrite m tn w) s fun t =>
       t.rf R.TENANT_RATE tn = bitsOf w 0 32 ∧ t.rf R.TENANT_DEPTH tn = bitsOf w 32 32 ∧ t.rf R.TENANT_LAST_REFILL tn = s.now % 2 ^ 64)

/-- A host port: frames, its link, enabling it and its addresses. Each clause: where the command completes and what it leaves. The model's
choice: a queue pair stays in ERROR until DREQ or QP_CLOSE (log 12). -/
def Obligations.HostPortsComplete : Prop :=
  -- FRAME_RECEIVE (R323): FRAMES_RX goes up by one; RX_DROPS goes up (saturating) exactly where a check fails
  (∀ (p : Nat) (f : EthFrame) (s : State), p < 2 → s.rb R.HOST_LINK_UP p = true →
     Completes (.frameReceive p f) s fun t =>
       t.rf R.HOST_FRAMES_RX p = (s.rf R.HOST_FRAMES_RX p + 1) % 2 ^ 64 ∧
       t.rf R.HOST_RX_DROPS p = if s.frameOk p f then s.rf R.HOST_RX_DROPS p else min (2 ^ 32 - 1) (s.rf R.HOST_RX_DROPS p + 1)) ∧
  -- LINK_UP (R330): LINK_UP and FEC_LOCKED read 1, SPEED_ACTIVE the speed in use, and an LLDP frame is due now
  (∀ (p : Nat) (s : State), p < 2 → s.rb R.HOST_PORT_EN p = true → s.rb R.HOST_LINK_UP p = false →
     Completes (.linkUp p) s fun t =>
       t.rf R.HOST_LINK_UP p = 1 ∧ t.rf R.HOST_SPEED_ACTIVE p = (s.port p).speed % 4 ∧ t.rf R.HOST_FEC_LOCKED p = 1 ∧
       t.port p = { s.port p with downSince := none, lldpDue := s.elapsed }) ∧
  -- LINK_LOSS (R325): LINK_UP and FEC_LOCKED read 0, pauses are dropped and the time of the loss is kept
  (∀ (p : Nat) (s : State), p < 2 → s.rb R.HOST_LINK_UP p = true →
     Completes (.linkLoss p) s fun t =>
       t.rf R.HOST_LINK_UP p = 0 ∧ t.rf R.HOST_FEC_LOCKED p = 0 ∧
       t.port p = { s.port p with downSince := some s.elapsed, txPaused := [], paused := false }) ∧
  -- LINK_DOWN_TIMEOUT (R325): after 10 ms down the port's queue pair is in ERROR
  (∀ (p q t0 : Nat) (s : State), p < 2 → s.rb R.HOST_LINK_UP p = false → (s.port p).downSince = some t0 → t0 + 10000000 < s.elapsed →
     s.portQps p = [q] → s.rf R.QP_STATE q ≠ 0 →
     Completes (.linkDownTimeout p) s fun t => t.rf R.QP_STATE q = 3 ∧ (t.port p).downSince = none) ∧
  -- PORT_ENABLE (R324): the port is enabled at the speed the word says
  (∀ (m : Master) (p w : Nat) (s : State), s.Writes m (hostPage p) 0x108 w → s.rb R.HOST_PORT_EN p = false → w.testBit 0 = true →
     Completes (.portEnable m p w) s fun t =>
       t.rf R.HOST_PORT_EN p = 1 ∧ t.rf R.HOST_SPEED p = bitsOf w 1 2 ∧ t.port p = { s.port p with speed := bitsOf w 1 2 }) ∧
  -- ADDRESS_WRITE (R329): the address takes the word and the port's queue pair is in ERROR
  (∀ (m : Master) (p w q : Nat) (s : State), s.Writes m (hostPage p 1) 0x108 w → s.portQps p = [q] → s.rf R.QP_STATE q ≠ 0 →
     Completes (.addressWrite m p 1 w) s fun t => t.rf R.HOST1_IPV6_HI p = w ∧ t.rf R.QP_STATE q = 3)

/-- Priority flow control and congestion control. Each clause: where the command completes and what it leaves. The model's choice: quanta
and the five recovery stages are the published ones (log 22). -/
def Obligations.FlowAndCongestionComplete : Prop :=
  -- PFC_XOFF (R327): an XOFF frame for the RoCE priority goes out with quanta 0xFFFF and its repeat is due in 20 us
  (∀ (p occ : Nat) (s : State), p < 2 → s.rb R.HOST_LINK_UP p = true → s.rb R.HOST_PFC_TX_EN p = true →
     (s.port p).occKib ≤ s.rf R.HOST_XOFF_KIB p → s.rf R.HOST_XOFF_KIB p < occ →
     Completes (.pfcXoff p occ) s fun t =>
       t.port p = { s.port p with occKib := occ, paused := true, pauseDue := s.elapsed + 20000 } ∧
       t.out = .eth p (.pfc (s.rf R.HOST1_ROCE_PCP p) 0xFFFF) [] :: s.out) ∧
  -- PFC_REPEAT (R327): while above XON the XOFF frame repeats every 20 us
  (∀ (p occ : Nat) (s : State), p < 2 → (s.port p).paused = true → s.rf R.HOST_XON_KIB p < occ → (s.port p).pauseDue ≤ s.elapsed →
     s.rb R.HOST_PFC_TX_EN p = true →
     Completes (.pfcRepeat p occ) s fun t =>
       t.port p = { s.port p with occKib := occ, pauseDue := s.elapsed + 20000 } ∧
       t.out = .eth p (.pfc (s.rf R.HOST1_ROCE_PCP p) 0xFFFF) [] :: s.out) ∧
  -- PFC_XON (R327): below XON a PFC frame with quanta 0 goes out and the pause is over
  (∀ (p occ : Nat) (s : State), p < 2 → (s.port p).paused = true → occ < s.rf R.HOST_XON_KIB p → s.rb R.HOST_PFC_TX_EN p = true →
     Completes (.pfcXon p occ) s fun t =>
       t.port p = { s.port p with occKib := occ, paused := false } ∧ t.out = .eth p (.pfc (s.rf R.HOST1_ROCE_PCP p) 0) [] :: s.out) ∧
  -- PFC_RECEIVE (R327): the priority named is paused for its quanta (shown for priority 3 and 100 quanta, mask 255)
  (∀ (p : Nat) (quanta : List Nat) (s : State), p < 2 → s.rb R.HOST_LINK_UP p = true → (s.port p).txPaused = [] →
     s.rf R.HOST_PFC_RX_MASK p = 255 → quanta.getD 3 0 = 100 →
     Completes (.pfcReceive p 8 quanta) s fun t => (t.port p).txPaused = [(3, s.elapsed + s.quantaNs p 100)]) ∧
  -- CNP_RECEIVE (R328): the target rate becomes the present rate and the increase timer starts again at stage 0
  (∀ (q : Nat) (s : State), s.connected q = true →
     Completes (.cnpReceive q) s fun t =>
       (t.qp q).target = s.rf R.QP_RATE_MBPS q ∧ (t.qp q).incStage = 0 ∧ (t.qp q).incAt = s.elapsed) ∧
  -- RATE_INCREASE (R328): an increase period on, the stage goes up by one with the target kept (stages before 5)
  (∀ (q : Nat) (s : State), s.connected q = true → (s.qp q).incAt + 1000 * s.rf R.HOST1_RATE_INC_US (s.rf R.QP_PORT q) ≤ s.elapsed →
     s.rf R.QP_RATE_MBPS q < s.lineRate q → (s.qp q).incStage < 5 →
     Completes (.rateIncrease q) s fun t =>
       (t.qp q).target = (s.qp q).target ∧ (t.qp q).incStage = (s.qp q).incStage + 1 ∧ (t.qp q).incAt = s.elapsed)

/-- ARP, neighbour discovery, LLDP and PTP management. Each clause: where the command completes and what it leaves. -/
def Obligations.NeighbourProtocolsComplete : Prop :=
  -- ARP_REQUEST (R330): the port answers for its own IPv4 address with its MAC and counts the frame
  (∀ (p ip : Nat) (s : State), p < 2 → s.rb R.HOST_LINK_UP p = true → s.rb R.HOST1_IPV4_EN p = true → ip = s.rf R.HOST1_IPV4_ADDR p →
     Completes (.arpRequest p ip) s fun t =>
       t.out = .eth p .arpReply [ip, s.rf R.HOST_MAC_ADDR p] :: s.out ∧ t.rf R.HOST_FRAMES_TX p = (s.rf R.HOST_FRAMES_TX p + 1) % 2 ^ 64) ∧
  -- NEIGHBOUR_SOLICITATION (R330): the port answers for its link-local address with its MAC
  (∀ (p hi lo : Nat) (s : State), p < 2 → s.rb R.HOST_LINK_UP p = true → (hi, lo) = s.linkLocal p →
     Completes (.neighbourSolicitation p hi lo) s fun t => t.out = .eth p .neighbourAdvert [hi, lo, s.rf R.HOST_MAC_ADDR p] :: s.out) ∧
  -- LLDP_SEND (R330): an LLDP frame goes out and the next is due in 30 s
  (∀ (p : Nat) (s : State), p < 2 → s.rb R.HOST_LINK_UP p = true → (s.port p).lldpDue ≤ s.elapsed →
     Completes (.lldpSend p) s fun t =>
       t.port p = { s.port p with lldpDue := s.elapsed + 30000000000 } ∧ ∃ ws, t.out = .eth p .lldp ws :: s.out) ∧
  -- LLDP_RECEIVE (R330): LLDP_CHASSIS, LLDP_PORT and LLDP_STAMP take the frame's values and no other field changes
  (∀ (p chassis portId : Nat) (s : State), p < 2 → s.rb R.HOST_LINK_UP p = true →
     Completes (.lldpReceive p chassis portId) s fun t =>
       t.rf R.HOST_LLDP_CHASSIS p = chassis % 2 ^ 48 ∧ t.rf R.HOST_LLDP_PORT p = portId % 2 ^ 64 ∧ t.rf R.HOST_LLDP_STAMP p = s.now % 2 ^ 64 ∧
       State.OnlyRegs [R.HOST_LLDP_CHASSIS, R.HOST_LLDP_PORT, R.HOST_LLDP_STAMP] s t) ∧
  -- PTP_MANAGEMENT (R337): the response goes out as given
  (∀ (p d : Nat) (ws : List Nat) (s : State), p < 2 → s.ptpOn p d = true →
     Completes (.ptpManagement p d ws) s fun t => t.out = .eth p .ptpResponse ws :: s.out)

/-- The life of a queue pair: connecting, closing and failing. Each clause: where the command completes and what it leaves. The model's
choice: the lowest free queue pair connects (log 12). -/
def Obligations.ConnectionsComplete : Prop :=
  -- CM_REQ (R333): the lowest free queue pair becomes CONNECTING with the request's QPN, PSN, PMTU and its reads bounded by 16, and REP goes out
  (∀ (p q : Nat) (r : CmReq) (s : State), p < 2 → s.rb R.HOST_LINK_UP p = true → s.accepts = true → cmReqOk r = true →
     ((List.range 1024).find? fun n => s.rf R.QP_STATE n = 0) = some q →
     Completes (.cmReq p r) s fun t =>
       t.rf R.QP_STATE q = 1 ∧ t.rf R.QP_PORT q = p ∧ t.rf R.QP_REMOTE_QPN q = r.qpn % 2 ^ 24 ∧ t.rf R.QP_PMTU q = r.pmtu % 8 ∧
       t.rf R.QP_RQ_PSN q = r.psn % 2 ^ 24 ∧ (t.qp q).maxReads = min 16 r.resources ∧ ∃ bytes, t.out = .cm p .rep q bytes :: s.out) ∧
  -- CM_RTU (R333): the queue pair is CONNECTED, stamped, at line rate
  (∀ (q : Nat) (s : State), s.rf R.QP_STATE q = 1 →
     Completes (.cmRtu q) s fun t =>
       t.rf R.QP_STATE q = 2 ∧ t.rf R.QP_CONNECT_STAMP q = s.now % 2 ^ 64 ∧ t.rf R.QP_RATE_MBPS q = s.lineRate q ∧ (t.qp q).target = s.lineRate q) ∧
  -- CM_REJ (R333): the queue pair is FREE and its state empty
  (∀ (q : Nat) (s : State), s.rf R.QP_STATE q = 1 →
     Completes (.cmRej q) s fun t => t.rf R.QP_STATE q = 0 ∧ t.rf R.QP_REMOTE_QPN q = 0 ∧ t.qp q = {}) ∧
  -- CM_DREQ (R336): the queue pair is FREE and DREP is the last message sent
  (∀ (q : Nat) (s : State), s.rf R.QP_STATE q ≠ 0 →
     Completes (.cmDreq q) s fun t => t.rf R.QP_STATE q = 0 ∧ t.out.head? = some (.cm (s.rf R.QP_PORT q) .drep q [])) ∧
  -- CM_DREP (R333): a closing queue pair is FREE and its state empty
  (∀ (q : Nat) (s : State), s.rf R.QP_STATE q = 4 →
     Completes (.cmDrep q) s fun t => t.rf R.QP_STATE q = 0 ∧ t.rf R.QP_REMOTE_QPN q = 0 ∧ t.qp q = {}) ∧
  -- QP_CLOSE (R336): the queue pair closes and DREQ goes out
  (∀ (m : Master) (q : Nat) (s : State), s.Writes m (qpPage q) 0x150 1 → s.rf R.QP_STATE q ≠ 0 → s.rf R.QP_STATE q ≠ 4 →
     Completes (.qpClose m q) s fun t => t.rf R.QP_STATE q = 4 ∧ t.out.head? = some (.cm (s.rf R.QP_PORT q) .dreq q [])) ∧
  -- QP_ERROR (R336): the queue pair is in ERROR
  (∀ (q cause : Nat) (s : State), s.rf R.QP_STATE q ≠ 0 → s.rf R.QP_STATE q ≠ 3 →
     Completes (.qpError q cause) s fun t => t.rf R.QP_STATE q = 3)

/-- Acknowledgements, retries and what a queue pair may not do, timeouts and unknown opcodes. Each clause: where the command completes and
what it leaves. The model's choice: the order of the frame checks is log 11. -/
def Obligations.ReliableDeliveryComplete : Prop :=
  -- RC_ACK (R331): messages up to the acknowledged PSN are acknowledged and the retry counts go back to 0; nothing else changes
  (∀ (q psn : Nat) (s : State), s.connected q = true →
     Completes (.rcAck q 0 psn) s fun t =>
       t = s.setQp q { s.qp q with unacked := unackedFrom (s.qp q).unacked (psn + 1), retries := 0, rnrRetries := 0 }) ∧
  -- RC_RETRY_TIMEOUT (R331): below RETRY_CNT the oldest packets are sent again and the retry count goes up by one
  (∀ (q psn n : Nat) (rest : List (Nat × Nat)) (s : State), s.connected q = true → (s.qp q).unacked = (psn, n) :: rest →
     (s.qp q).retries < s.rf R.QP_RETRY_CNT q →
     Completes (.rcRetryTimeout q) s fun t =>
       t.qp q = { s.qp q with retries := (s.qp q).retries + 1 } ∧
       t.out = .retransmit q psn (((s.qp q).unacked.map (·.2)).sum) :: s.out) ∧
  -- INBOUND_RDMA (R332): the queue pair is in ERROR and the reject counter of its port goes up by one, saturating
  (∀ (q : Nat) (s : State), s.connected q = true →
     Completes (.inboundRdma q) s fun t =>
       t.rf R.QP_STATE q = 3 ∧
       t.rf R.HOST1_INBOUND_RDMA_REJECTS (s.rf R.QP_PORT q) = min (2 ^ 32 - 1) (s.rf R.HOST1_INBOUND_RDMA_REJECTS (s.rf R.QP_PORT q) + 1)) ∧
  -- REMOTE_NAK (R332): the queue pair is in ERROR
  (∀ (q : Nat) (s : State), s.connected q = true → Completes (.remoteNak q) s fun t => t.rf R.QP_STATE q = 3) ∧
  -- COMMAND_TIMEOUT (R341): a command with effect still open past its timeout is answered TIMED_OUT with its body
  (∀ (q id : Nat) (o : OpenCmd) (s : State), s.connected q = true → s.openCmd q id = some o → o.sent = false → o.effect = true → o.due < s.elapsed →
     Completes (.commandTimeout q id) s fun t =>
       t.out = .completion q id o.opcode resTimedOut o.arrival s.now o.body :: s.out) ∧
  -- UNKNOWN_OPCODE (R339): an opcode of no command is acknowledged by the transport, answered UNKNOWN_OPCODE and leaves no open command
  (∀ (op : Nat) (c : Cmd) (s : State), s.Takes c → knownOpcodes.contains op = false →
     Completes (.unknownOpcode op c) s fun t =>
       t.out = .completion c.qp c.cmdId op resUnknownOpcode s.now s.now [] :: .rcAck c.qp (s.rf R.QP_RQ_PSN c.qp) :: s.out ∧ t.cmds = s.cmds)

/-- Semaphores: acquired, released, broken and expired, by commands and by register. Each clause: where the command completes and what it
leaves. The model's choice: words of a completion that the spec does not state are 0 (log 8). -/
def Obligations.SemaphoresComplete : Prop :=
  -- SEM_ACQUIRE (R348): a free semaphore is held by the sender, stamped, and the answer says so
  (∀ (c : Cmd) (s : State), s.Takes c → semBodyOk c 0xFFFF01FF 1 = true → s.semHeld (c.f 0 0 8) = false →
     Completes (.semAcquire c) s fun t =>
       t.semHeld (c.f 0 0 8) = true ∧ t.semHolder (c.f 0 0 8) = s.holderCode c.qp % 8 ∧ t.semSource (c.f 0 0 8) = c.qp % 65536 ∧
       t.semStamp (c.f 0 0 8) = s.now % 2 ^ 64 ∧
       s.Answered t c 0x12 [pack [(0, 0, 8), (s.holderCode c.qp % 8, 8, 3), (c.qp % 65536, 16, 16)], s.now % 2 ^ 64]) ∧
  -- SEM_RELEASE (R348): the holder's release with no waiter frees it and is answered with outcome 4
  (∀ (c : Cmd) (s : State), s.Takes c → semBodyOk c 0xFF 1 = true → s.semHeldBy (c.f 0 0 8) (s.holderCode c.qp) c.qp = true →
     (s.sem (c.f 0 0 8)).waiters = [] →
     Completes (.semRelease c) s fun t => t.semHeld (c.f 0 0 8) = false ∧ ∃ w, s.Answered t c 0x13 [w] ∧ w % 256 = 4) ∧
  -- SEM_BREAK (R349): a break with the right grant stamp frees it, and the break record names its old holder, source and cause 0
  (∀ (c : Cmd) (s : State), s.Takes c → semBodyOk c 0xFF 2 = true → s.semHeld (c.f 0 0 8) = true → s.semStamp (c.f 0 0 8) = c.w 1 →
     (s.sem (c.f 0 0 8)).waiters = [] →
     Completes (.semBreak c) s fun t =>
       t.semHeld (c.f 0 0 8) = false ∧ t.rf R.SEMA_BREAK_INDEX 0 = c.f 0 0 8 ∧ t.rf R.SEMA_OLD_HOLDER 0 = s.semHolder (c.f 0 0 8) ∧
       t.rf R.SEMA_OLD_SOURCE 0 = s.semSource (c.f 0 0 8) ∧ t.rf R.SEMA_BREAK_CAUSE 0 = 0) ∧
  -- LEASE_EXPIRY (R349): a lease that ended with no waiter frees it, and the break record says cause 1
  (∀ (i due : Nat) (s : State), i < 256 → (s.sem i).lease = some due → s.semHeld i = true → due ≤ s.elapsed → (s.sem i).waiters = [] →
     Completes (.leaseExpiry i) s fun t =>
       t.semHeld i = false ∧ t.rf R.SEMA_BREAK_INDEX 0 = i ∧ t.rf R.SEMA_OLD_HOLDER 0 = s.semHolder i ∧
       t.rf R.SEMA_OLD_SOURCE 0 = s.semSource i ∧ t.rf R.SEMA_BREAK_CAUSE 0 = 1) ∧
  -- SEM_OP_ACQUIRE (R350): a free semaphore is held by the master, with its source and the time
  (∀ (m : Master) (i lease : Nat) (s : State), i < 256 → lease < 65536 →
     s.Writes m semaPage 0x100 (pack [(i, 0, 8), (0, 8, 2), (lease, 16, 16)]) → s.semHeld i = false →
     Completes (.semOpAcquire m i lease) s fun t =>
       t.semHeld i = true ∧ t.semHolder i = m.code ∧ t.semSource i = m.source % 65536 ∧ t.semStamp i = s.now % 2 ^ 64) ∧
  -- SEM_OP_RELEASE (R350): the holder's release with no waiter frees it
  (∀ (m : Master) (i : Nat) (s : State), i < 256 → s.Writes m semaPage 0x100 (pack [(i, 0, 8), (1, 8, 2)]) →
     s.semHeldBy i m.code m.source = true → (s.sem i).waiters = [] →
     Completes (.semOpRelease m i) s fun t => t.semHeld i = false) ∧
  -- SEM_OP_BREAK (R350): a break with no waiter frees it and the record says cause 4
  (∀ (m : Master) (i : Nat) (s : State), i < 256 → s.Writes m semaPage 0x100 (pack [(i, 0, 8), (2, 8, 2)]) →
     s.semHeld i = true → (s.sem i).waiters = [] →
     Completes (.semOpBreak m i) s fun t =>
       t.semHeld i = false ∧ t.rf R.SEMA_BREAK_INDEX 0 = i ∧ t.rf R.SEMA_OLD_HOLDER 0 = s.semHolder i ∧ t.rf R.SEMA_BREAK_CAUSE 0 = 4)

/-- Management commands that answer. Each clause: where the command completes and what it leaves. -/
def Obligations.ManagementAnswersComplete : Prop :=
  -- NOP (R344): answered EXECUTED with an empty body
  (∀ (c : Cmd) (s : State), s.Takes c → c.bodyWords = 0 → Completes (.nop c) s fun t => s.Answered t c 0x01 []) ∧
  -- IDENTIFY (R344): answered with part number, serial, the state word and the time
  (∀ (c : Cmd) (s : State), s.Takes c → c.bodyWords = 0 →
     Completes (.identify c) s fun t => s.Answered t c 0x02 [s.rf R.MOD_PART_NUMBER 0, s.rf R.MOD_SERIAL 0,
       pack [(0xA1, 0, 8), (s.modState, 8, 8), (c.qp, 16, 10), (s.rf R.QP_PORT c.qp, 26, 1)], s.now]) ∧
  -- STATUS_QUERY (R522): the answer holds state, cause, synchronisation, time and its bound, absent cores, log and request counts and firmware
  (∀ (c : Cmd) (s : State), s.Takes c → c.bodyWords = 0 →
     Completes (.statusQuery c) s fun t =>
       s.Answered t c 0x40
         [pack [(s.modState, 0, 4), (s.rf R.MOD1_FAIL_CAUSE 0, 4, 8), (s.rf R.OASIS2_EPOCH_SET 0, 12, 1),
            (s.rf R.OASIS2_SYNC_STATE 0, 13, 3), (s.rf R.OASIS2_TIME_FAR 0, 16, 1), (s.rf R.OASIS_OASIS_RESTARTS 0, 32, 32)],
          s.now,
          pack [(s.timeBound, 0, 32), (s.rf R.MOD1_M_ABSENT 0 + s.rf R.MOD1_V_ABSENT 0 + s.rf R.MOD1_S_ABSENT 0, 32, 32)],
          pack [(s.rf R.OASIS1_NEXT_SEQ 0, 0, 32), (s.rf R.OASIS1_LOST 0, 32, 32)],
          pack [(s.rf R.SERVE_OPEN 0, 0, 17)],
          pack [(s.rf R.KEYS_IMAGE_VERSION 0, 0, 32), (s.rf R.OASIS3_RUNNING_TRIAL 0, 32, 1), (s.rf R.OASIS3_RUNNING_SLOT 0, 33, 1)]]) ∧
  -- LOG_READ (R520): the answer holds the records asked for, their number, OLDEST_SEQ and NEXT_SEQ
  (∀ (c : Cmd) (s : State), s.Takes c → c.bodyWords = 1 → c.b 0 36 = false → c.f 0 32 4 ≠ 0 → c.f 0 50 14 = 0 → c.f 0 37 13 = 0 →
     Completes (.logRead c) s fun t =>
       s.Answered t c 0x42
         ([pack [(if (s.readLog (c.f 0 0 32) (c.f 0 32 4)).1 then 2 else 0, 0, 8), ((s.readLog (c.f 0 0 32) (c.f 0 32 4)).2.length, 8, 4),
            (s.rf R.OASIS1_OLDEST_SEQ 0, 32, 32)], s.rf R.OASIS1_NEXT_SEQ 0] ++ (s.readLog (c.f 0 0 32) (c.f 0 32 4)).2.flatMap recWords)) ∧
  -- EVENT_SUBSCRIBE (R519): the queue pair's subscription takes the command's bits and the answer holds NEXT_SEQ
  (∀ (c : Cmd) (s : State), s.Takes c → c.bodyWords = 2 → c.f 0 4 60 = 0 → 
     Completes (.eventSubscribe c) s fun t =>
       t.rf R.QP_SUBSCRIBED c.qp = c.f 0 0 1 ∧ (t.qp c.qp).subOn = c.b 0 0 ∧ (t.qp c.qp).subMin = c.f 0 1 3 ∧ (t.qp c.qp).subMask = c.w 1 ∧
       s.Answered t c 0x43 [0, s.rf R.OASIS1_NEXT_SEQ 0]) ∧
  -- SENSOR_QUERY (R550): the answer holds the flags and the sensors' words
  (∀ (c : Cmd) (s : State), s.Takes c → c.bodyWords = 1 → c.f 0 14 50 = 0 → c.f 0 7 7 ≠ 0 → c.f 0 0 7 + c.f 0 7 7 ≤ 76 →
     Completes (.sensorQuery c) s fun t =>
       s.Answered t c 0x41 (pack [(0, 0, 8), (s.rf R.PWRCAP_LEVEL 0, 8, 4), (s.rf R.THERMAL_THROTTLING 0, 12, 1), (s.rf R.THERMAL_CRITICAL 0, 13, 1),
         (s.rf R.THERMAL_SENSOR_FAULT 0, 14, 1), (s.rf R.THERMAL_UNTRUSTED 0, 15, 1)] :: (List.range (c.f 0 7 7)).map fun i => s.sensorWord (c.f 0 0 7 + i))) ∧
  -- POWER_CAP_SET (R544): cap and window take the command, the cap in effect is the lower one, and the answer says so
  (∀ (c : Cmd) (s : State), s.Takes c → c.bodyWords = 1 → c.f 0 32 32 = 0 → capLegal (c.f 0 0 16) = true →
     (c.f 0 16 16 ≠ 0 → c.f 0 16 16 % 2 = 0 ∧ 10 ≤ c.f 0 16 16 ∧ c.f 0 16 16 ≤ 1000) →
     Completes (.powerCapSet c) s fun t =>
       t.rf R.PWRCAP_CAP_W 0 = c.f 0 0 16 ∧ t.rf R.PWRCAP_WINDOW_MS 0 = (if c.f 0 16 16 = 0 then s.rf R.PWRCAP_WINDOW_MS 0 else c.f 0 16 16) ∧
       t.rf R.PWRCAP_EFFECTIVE_CAP 0 = min (c.f 0 0 16) (s.rf R.PWRCAP_BOARD_CAP 0) ∧
       s.Answered t c 0x46 [pack [(0, 0, 8), (min (c.f 0 0 16) (s.rf R.PWRCAP_BOARD_CAP 0), 16, 16)], s.now])

/-- Restarts of Oasis and their causes. Each clause: where the command completes and what it leaves. The model's choice: when the watchdog
rows act is log 24. -/
def Obligations.OasisRestartsComplete : Prop :=
  -- WD_LOOP (R504): Oasis restarts for cause 0, stamped
  (∀ s : State, s.rb R.OASIS_RESTARTING 0 = false →
     (∀ e ∈ s.oa.restartEnd, e + 1000000000 * s.rf R.OASIS_OASIS_REPEAT_S 0 ≤ s.elapsed) →
     Completes .wdLoop s fun t =>
       t.rf R.OASIS_RESTARTING 0 = 1 ∧ t.rf R.OASIS_LAST_RESTART_STAMP 0 = s.now % 2 ^ 64 ∧ t.rf R.OASIS_LAST_RESTART_CAUSE 0 = 0) ∧
  -- WD_ROUND (R504): Oasis restarts for cause 1 once a round is overdue
  (∀ s : State, s.rb R.OASIS_RESTARTING 0 = false → s.oa.roundAt + 1000000 * s.rf R.OASIS_ROUND_LIMIT_MS 0 ≤ s.elapsed →
     (∀ e ∈ s.oa.restartEnd, e + 1000000000 * s.rf R.OASIS_OASIS_REPEAT_S 0 ≤ s.elapsed) →
     Completes .wdRound s fun t =>
       t.rf R.OASIS_RESTARTING 0 = 1 ∧ t.rf R.OASIS_LAST_RESTART_STAMP 0 = s.now % 2 ^ 64 ∧ t.rf R.OASIS_LAST_RESTART_CAUSE 0 = 1) ∧
  -- WD_HOST (R508): Oasis restarts for cause 2 once a host's wait is over
  (∀ s : State, s.rb R.OASIS_RESTARTING 0 = false → s.oa.hostDue = true →
     (∀ e ∈ s.oa.restartEnd, e + 1000000000 * s.rf R.OASIS_OASIS_REPEAT_S 0 ≤ s.elapsed) →
     Completes .wdHost s fun t =>
       t.rf R.OASIS_RESTARTING 0 = 1 ∧ t.rf R.OASIS_LAST_RESTART_STAMP 0 = s.now % 2 ^ 64 ∧ t.rf R.OASIS_LAST_RESTART_CAUSE 0 = 2) ∧
  -- HEARTBEAT_RESTART (R508): a heartbeat with the restart bit restarts Oasis for cause 3
  (∀ (c : Cmd) (s : State), s.Takes c → c.bodyWords = 1 → c.f 0 33 31 = 0 → c.b 0 32 = true →
     Completes (.heartbeatRestart c) s fun t =>
       t.rf R.OASIS_RESTARTING 0 = 1 ∧ t.rf R.OASIS_LAST_RESTART_CAUSE 0 = 3 ∧ t.rf R.OASIS_HB_NONCE 0 = c.f 0 0 32) ∧
  -- OASIS_RESTART_DONE (R505): RESTARTING is 0, the next round counts from now, ALERT is raised
  (∀ s : State, s.rb R.OASIS_RESTARTING 0 = true → s.oa.wasTrial = false →
     Completes (.oasisRestartDone true) s fun t =>
       t.rf R.OASIS_RESTARTING 0 = 0 ∧ t.oa = { s.oa with restartAt := none, restartEnd := some s.elapsed, roundAt := s.elapsed } ∧
       t.md.alert = true) ∧
  -- OASIS_RESTART_TIMEOUT (R507): a restart longer than 400 ms ends in a cold reset: state ROM, ALERT, no open command
  (∀ (t0 : Nat) (s : State), s.rb R.OASIS_RESTARTING 0 = true → s.oa.restartAt = some t0 → t0 + 400000000 < s.elapsed →
     Completes .oasisRestartTimeout s fun t => t.modState = msRom ∧ t.md.alert = true ∧ t.cmds = [])

/-- Heartbeats of the host, events staged, kept and sent. Each clause: where the command completes and what it leaves. The model's choice:
how records join a message is log 13. -/
def Obligations.HeartbeatsAndEventsComplete : Prop :=
  -- HEARTBEAT (R508): HB_NONCE and the heartbeat's stamp are written, the host is not silent, and the echo is awaited for 500 us
  (∀ (c : Cmd) (s : State), s.Takes c → c.bodyWords = 1 → c.f 0 33 31 = 0 → c.b 0 32 = false →
     Completes (.heartbeat c) s fun t =>
       t.rf R.OASIS_HB_NONCE 0 = c.f 0 0 32 ∧ t.rf R.OASIS_LAST_HEARTBEAT_STAMP 0 = s.now % 2 ^ 64 ∧ t.rf R.OASIS_HOST_SILENT 0 = 0 ∧
       t.oa = { s.oa with lastBeat := some s.elapsed, beats := s.oa.beats ++ [(c.qp, c.cmdId, c.f 0 0 32, s.elapsed + 500000)] }) ∧
  -- HB_ECHO (R508): HB_ECHO takes HB_NONCE, HB_MISSES is 0, and the heartbeats of that nonce are answered
  (∀ s : State, s.rb R.OASIS_RESTARTING 0 = false → s.oa.beats ≠ [] →
     Completes .hbEcho s fun t =>
       t.rf R.OASIS_HB_ECHO 0 = s.rf R.OASIS_HB_NONCE 0 ∧ t.rf R.OASIS_HB_MISSES 0 = 0 ∧
       t.oa.beats = (s.oa.beats.filter fun b => b.2.2.1 ≠ s.rf R.OASIS_HB_NONCE 0) ∧ t.oa.echoStamp = s.now) ∧
  -- HEARTBEAT_ECHO_TIMEOUT (R508): the heartbeat is dropped and HB_MISSES goes up by one, saturating
  (∀ (q id n due : Nat) (s : State), s.oa.beats = [(q, id, n, due)] → due ≤ s.elapsed →
     Completes (.heartbeatEchoTimeout q id) s fun t =>
       t.oa.beats = [] ∧ t.rf R.OASIS_HB_MISSES 0 = min 65535 (s.rf R.OASIS_HB_MISSES 0 + 1)) ∧
  -- HOST_SILENT (R508): HOST_SILENT becomes 1 after HOST_SILENT_MS without a heartbeat
  (∀ s : State, s.rf R.OASIS_HOST_SILENT_MS 0 ≠ 0 → s.rb R.OASIS_HOST_SILENT 0 = false →
     s.oa.lastBeat.getD 0 + 1000000 * s.rf R.OASIS_HOST_SILENT_MS 0 ≤ s.elapsed →
     Completes .hostSilent s fun t => t.rf R.OASIS_HOST_SILENT 0 = 1) ∧
  -- LOG_EVENT (R515): the oldest staged event leaves the queue and is the log's last record
  (∀ (e : Event) (rest : List Event) (s : State), s.rb R.OASIS_RESTARTING 0 = false → s.lostStamps = none → s.staging = e :: rest →
     Completes .logEvent s fun t => t.staging = rest ∧ t.log.getLast?.any fun r => r.kind = e.kind && r.stamp = e.stamp) ∧
  -- EVENT_SEND (R519): the oldest waiting event message goes out and the subscription's other state is kept
  (∀ (q : Nat) (m : List LogRec) (rest : List (List LogRec)) (s : State), (s.qp q).waiting = m :: rest → s.connected q = true →
     Completes (.eventSend q) s fun t =>
       { t.qp q with unacked := [] } = { s.qp q with waiting := rest, dropped := 0, closed := (s.qp q).closed - 1, unacked := [] } )

/-- Sandglass time: PTP, the host's time set and the loss of a source. Each clause: where the command completes and what it leaves. The
model's choice: slews of an unstated rate and bounds are log 24. -/
def Obligations.SandglassTimeComplete : Prop :=
  -- PTP_SYNC (R337): SYNC_STAMP and the sequence number awaited are kept
  (∀ (p d n : Nat) (s : State), p < 2 → s.ptpOn p d = true →
     Completes (.ptpSync p d n true) s fun t =>
       t.rf R.HOST2_SYNC_STAMP p = s.now % 2 ^ 64 ∧ t.port p = { s.port p with syncSeq := some n, syncRx := s.now }) ∧
  -- PTP_FOLLOW_UP (R337): the offset is the Sync's receive time less its send time less PATH_DELAY, and a Delay_Req goes out
  (∀ (p d n t1 : Nat) (s : State), p < 2 → s.ptpOn p d = true → (s.port p).syncSeq = some n → s.followsPtp p = false →
     Completes (.ptpFollowUp p d n t1) s fun t =>
       t.port p = { s.port p with
         syncSeq := none, syncTx := t1, msOffset := ((s.port p).syncRx : Int) - t1, delaySeq := ((s.port p).delaySeq + 1) % 65536,
         delayReqTx := some (((s.port p).delaySeq + 1) % 65536, s.now) } ∧
       t.rf R.HOST2_OFFSET_NS p = fieldOfInt 64 (((s.port p).syncRx : Int) - t1 - signedOf 64 (s.rf R.HOST2_PATH_DELAY_NS p)) % 2 ^ 64 ∧
       t.out = .eth p .ptpDelayReq [s.rf R.HOST2_DOMAIN p, ((s.port p).delaySeq + 1) % 65536] :: s.out) ∧
  -- PTP_ANNOUNCE (R337): the grandmaster is kept and a listening port is UNCALIBRATED
  (∀ (p d gm : Nat) (s : State), p < 2 → s.ptpOn p d = true → s.rf R.HOST2_PORT_STATE p = 1 →
     Completes (.ptpAnnounce p d gm) s fun t => t.rf R.HOST2_GM_IDENTITY p = gm % 2 ^ 64 ∧ t.rf R.HOST2_PORT_STATE p = 2) ∧
  -- PTP_DELAY_RESP (R337): PATH_DELAY is half the round trip and the port is SLAVE
  (∀ (p d n t3 t4 : Nat) (s : State), p < 2 → s.ptpOn p d = true → (s.port p).delayReqTx = some (n, t3) → s.rf R.HOST2_PORT_STATE p = 2 →
     s.rb R.HOST2_TIME_SOURCE p = false →
     Completes (.ptpDelayResp p d n t4) s fun t =>
       t.rf R.HOST2_PATH_DELAY_NS p = fieldOfInt 64 (((s.port p).msOffset + ((t4 : Int) - t3)) / 2) % 2 ^ 64 ∧
       t.rf R.HOST2_PORT_STATE p = 3 ∧ t.port p = { s.port p with delayReqTx := none }) ∧
  -- TIME_SET_STEP (R514): outside READY and unsynchronised, time steps to the given time plus half the exchange and EPOCH_SET is 1
  (∀ (c : Cmd) (s : State), s.Takes c → c.bodyWords = 3 → c.w 0 = 0 → c.f 2 32 32 = 0 → s.rf R.OASIS2_SYNC_STATE 0 ≠ 2 →
     s.rf R.OASIS2_SYNC_STATE 0 ≠ 3 → s.modState ≠ msReady ∧ s.modState ≠ msLeaving ∧ s.modState ≠ msLeft →
     s.now ≤ c.w 1 + c.f 2 0 32 →
     Completes (.timeSetStep c) s fun t =>
       t.now = c.w 1 + c.f 2 0 32 ∧ t.rf R.OASIS2_EPOCH_SET 0 = 1) ∧
  -- TIME_SET_SLEW (R514): MODE 1: time itself is kept, and the answer holds EPOCH_SET and the time
  (∀ (c : Cmd) (s : State), s.Takes c → c.bodyWords = 3 → c.w 0 = 1 → c.f 2 32 32 = 0 → s.rf R.OASIS2_SYNC_STATE 0 ≠ 2 →
     s.rf R.OASIS2_SYNC_STATE 0 ≠ 3 →
     Completes (.timeSetSlew c) s fun t =>
       t.now = s.now ∧ s.Answered t c 0x44 [pack [(0, 0, 8), (s.rf R.OASIS2_EPOCH_SET 0, 8, 1)], s.now, 0]) ∧
  -- SYNC_SOURCE_LOST (R513): SYNC_STATE is HOLDOVER, no slew, and the bound grows from its present value
  (∀ s : State, s.rf R.OASIS2_SYNC_STATE 0 = 2 ∨ s.rf R.OASIS2_SYNC_STATE 0 = 3 →
     Completes .syncSourceLost s fun t =>
       t.rf R.OASIS2_SYNC_STATE 0 = 4 ∧ t.oa = { s.oa with slew := 0, holdAt := s.elapsed, boundBase := s.rf R.OASIS2_TIME_BOUND_NS 0 })

/-- Lanes and links of the torus. Each clause: where the command completes and what it leaves. -/
def Obligations.BorsanLanesComplete : Prop :=
  -- LANE_BAD (R359): a bad lane is out, a spare lane takes its place, its power and time kept
  (∀ (d lane power : Nat) (s : State), d < 6 → lane < 9 → s.linkUp d = true → (s.rf R.BORSAN1_LANE_GOOD d).testBit lane = true →
     4 ≤ (lanesOf (s.rf R.BORSAN1_LANE_GOOD d - 2 ^ lane)).length →
     Completes (.laneBad d lane power) s fun t =>
       t.rf R.BORSAN1_LANE_GOOD d = s.rf R.BORSAN1_LANE_GOOD d - 2 ^ lane ∧
       t.rf R.BORSAN1_LANE_ACTIVE d = (if (s.rf R.BORSAN1_LANE_ACTIVE d).testBit lane then
         s.rf R.BORSAN1_LANE_ACTIVE d - 2 ^ lane + (if s.rf R.BORSAN1_SPARE_LANE d < 9 then 2 ^ s.rf R.BORSAN1_SPARE_LANE d else 0)
         else s.rf R.BORSAN1_LANE_ACTIVE d) % 2 ^ 9 ∧
       t.rf R.BORSAN1_RX_POWER d lane = power % 2 ^ 8 ∧ t.rf R.BORSAN1_LAST_LANE_STAMP d = s.now % 2 ^ 64) ∧
  -- LANE_FRAME (R359): the sender's active lanes are counted and the link stays up
  (∀ (d active boundary : Nat) (s : State), d < 6 → psnLe boundary (s.dirSt d).nextSeq = true → s.linkUp d = true → 4 ≤ (lanesOf active).length →
     Completes (.laneFrame d active boundary) s fun t =>
       t.rf R.BORSAN1_TX_ACTIVE_COUNT d = (lanesOf active).length ∧ t.rf R.BORSAN1_LAST_LANE_STAMP d = s.now % 2 ^ 64 ∧ t.linkUp d = true) ∧
  -- LANE_RETRAIN (R360): a lane clean for a second is good again
  (∀ (d lane since : Nat) (s : State), d < 6 → s.linkUp d = true → lane < 9 → (s.rf R.BORSAN1_LANE_GOOD d).testBit lane = false →
     (s.rf R.BORSAN1_LANE_ENABLE d).testBit lane = true → Tbl.get? (s.dirSt d).laneClean lane = some since → since + 1000000000 ≤ s.elapsed →
     Completes (.laneRetrain d lane true) s fun t =>
       t.rf R.BORSAN1_LANE_GOOD d = (s.rf R.BORSAN1_LANE_GOOD d + 2 ^ lane) % 2 ^ 9 ∧ t.rf R.BORSAN1_LAST_LANE_STAMP d = s.now % 2 ^ 64) ∧
  -- FIBRE_REVERSED (R361): FIBRE_REVERSED says whether light came in on the transmit side only
  (∀ (d tx rx : Nat) (s : State), d < 6 →
     Completes (.fibreReversed d tx rx) s fun t =>
       t.rf R.BORSAN_FIBRE_REVERSED d = bit (decide (tx ≠ 0 ∧ rx = 0)) ∧ ∀ l ∈ List.range 9, t.rf R.BORSAN1_TX_LIGHT_IN d l = bit (tx.testBit l)) ∧
  -- LINK_TRAINED (R385): the link is up with the lanes trained
  (∀ (d lanes txCount : Nat) (pos power : List Nat) (s : State), d < 6 → s.linkUp d = false → s.rb R.BORSAN_LINK_EN d = true →
     s.rb R.BORSAN_FIBRE_REVERSED d = false → 4 ≤ (lanesOf (lanes % 512 &&& s.rf R.BORSAN1_LANE_ENABLE d)).length →
     Completes (.linkTrained d lanes txCount pos power) s fun t =>
       t.linkUp d = true ∧ t.rf R.BORSAN1_LANE_GOOD d = (lanes % 512 &&& s.rf R.BORSAN1_LANE_ENABLE d) ∧ t.rf R.BORSAN1_TX_ACTIVE_COUNT d = txCount % 2 ^ 4 ∧
       (t.dirSt d).upSince = some s.elapsed ∧ (t.dirSt d).failedAt = none) ∧
  -- LINK_ENABLE (R392): the direction is enabled and its link trains
  (∀ (m : Master) (d w : Nat) (s : State), s.Writes m (borsanPage d) 0x100 w → s.rb R.BORSAN_LINK_EN d = false → w.testBit 0 = true →
     s.rb R.BORSAN_FIBRE_REVERSED d = false →
     Completes (.linkEnable m d w) s fun t => t.rf R.BORSAN_LINK_EN d = 1 ∧ t.rf R.BORSAN_LINK d = 1)

/-- Frames of a Borsan link: sequence, acknowledgement, retry and time. Each clause: where the command completes and what it leaves. The
model's choice: retry moments are log 19. -/
def Obligations.BorsanFramesComplete : Prop :=
  -- BORSAN_FRAME_RECEIVE (R363): the frame in sequence is counted and the next awaited
  (∀ (d : Nat) (f : Frame) (fec : List (Nat × Nat × Nat)) (s : State), d < 6 → s.linkUp d = true → ¬ (f.cls = 0 ∧ (f.typ = 1 ∨ f.typ = 2)) → f.seq = (s.dirSt d).expect →
     Completes (.borsanFrameReceive d f true fec) s fun t =>
       (t.dirSt d).expect = ((s.dirSt d).expect + 1) % 2 ^ 24 ∧ t.rf R.BORSAN_FRAMES_RX d = (s.rf R.BORSAN_FRAMES_RX d + 1) % 2 ^ 64) ∧
  -- BORSAN_ACK (R363): the frames acknowledged leave the retry buffer, and frames that waited for room in it are sent; nothing else changes
  (∀ (d seq : Nat) (s : State), d < 6 → s.linkUp d = true →
     Completes (.borsanAck d seq) s fun t => t = (s.setDir d { s.dirSt d with retry := (s.dirSt d).retry.filter fun e => !psnLe e.1.seq seq }).txPump d (s.dirSt d).txq.length) ∧
  -- BORSAN_NAK (R363): the frames from the one named on are sent again and counted
  (∀ (d seq : Nat) (s : State), d < 6 → s.linkUp d = true → (∀ e ∈ (s.dirSt d).retry, psnLe seq e.1.seq = true → e.2 < 8) →
     Completes (.borsanNak d seq) s fun t =>
       ((t.dirSt d).retry = ((s.dirSt d).retry.filter fun e => psnLe seq e.1.seq).map fun e => (e.1, e.2 + 1)) ∧
       t.rf R.BORSAN_RETRIES d = min (2 ^ 32 - 1) (s.rf R.BORSAN_RETRIES d + ((s.dirSt d).retry.filter fun e => psnLe seq e.1.seq).length)) ∧
  -- TIME_FRAME_SEND (R365): the time frame goes out with its four times, the next in 1 ms
  (∀ (d : Nat) (s : State), d < 6 → s.linkUp d = true → (s.dirSt d).timeAt ≤ s.elapsed →
     Completes (.timeFrameSend d) s fun t =>
       (t.dirSt d).timeAt = s.elapsed + 1000000 ∧ (t.dirSt d).nextSeq = ((s.dirSt d).nextSeq + 1) % 2 ^ 24 ∧
       t.out.head?.any fun o => match o with
         | .borsan e k _ ws => decide (e = d ∧ k = 3 ∧ ws.drop 2 = [s.now, (s.dirSt d).peerT1, (s.dirSt d).peerT2, s.now])
         | _ => false) ∧
  -- TIME_FRAME_RECEIVE (R365): LINK_LAT_PS and TIME_OFFSET_PS follow from the four times
  (∀ (d peerT1 echoT1 t2 t3 : Nat) (s : State), d < 6 → s.linkUp d = true →
     Completes (.timeFrameReceive d peerT1 echoT1 t2 t3) s fun t =>
       (t.dirSt d).peerT1 = peerT1 ∧ (t.dirSt d).peerT2 = s.now ∧
       (echoT1 ≠ 0 → t.rf R.BORSAN_LINK_LAT_PS d = fieldOfInt 32 (500 * (((s.now : Int) - echoT1) - ((t3 : Int) - t2))) % 2 ^ 32 ∧
         t.rf R.BORSAN_TIME_OFFSET_PS d = fieldOfInt 64 (500 * (((t2 : Int) - echoT1) - ((s.now : Int) - t3))) % 2 ^ 64))

/-- Credits between modules and notices. Each clause: where the command completes and what it leaves. -/
def Obligations.RemoteCreditsComplete : Prop :=
  -- REMOTE_CREDIT_REQ (R368): the request goes on for the remote producer's slot
  (∀ (u k : Nat) (f : Frame) (s : State), u < 6 →
     s.findSlot u { module := f.src, producer := f.words.getD 0 0, pdest := f.words.getD 1 0, target := f.words.getD 2 0, stream := f.words.getD 3 0 } = some k →
     Completes (.remoteCreditReq u f) s fun t =>
       (Tbl.get? t.tor.slots k).isSome = true ∧
       t.out = .mesh 1 (f.words.getD 2 0) [0x8000 + k, f.words.getD 3 0, f.words.getD 4 0, f.words.getD 5 0] :: s.out) ∧
  -- REMOTE_CREDIT_GRANT (R368): the grant or refusal goes on to its core; nothing else changes
  (∀ (u : Nat) (f : Frame) (s : State), u < 6 →
     Completes (.remoteCreditGrant u f) s fun t =>
       t = if f.words.getD 3 0 = 0 then s.emit (.mesh 5 (f.words.getD 0 0) [f.words.getD 1 0, f.words.getD 2 0])
         else s.emit (.mesh 2 (f.words.getD 0 0) [f.words.getD 1 0, f.words.getD 2 0, f.words.getD 3 0, f.words.getD 4 0])) ∧
  -- REMOTE_CREDIT_RETURN (R368): the return goes on to its core, or lowers the slot's credits
  (∀ (u : Nat) (f : Frame) (e : Nat × RSlot) (s : State), u < 6 → e ∈ s.tor.slots → Tbl.get? s.tor.slots e.1 = some e.2 → f.words.getD 4 0 < e.2.credits →
     (s.tor.slots.find? fun x => x.1 / 4096 = u && x.2.module = f.src && x.2.producer = f.words.getD 1 0 && x.2.target = f.words.getD 2 0 && x.2.stream = f.words.getD 3 0) = some e →
     Completes (.remoteCreditReturn u f) s fun t =>
       (f.words.getD 0 0 = 0 → t = s.emit (.mesh 3 (f.words.getD 1 0) [f.words.getD 2 0, f.words.getD 3 0, f.words.getD 4 0, f.words.getD 5 0])) ∧
       (f.words.getD 0 0 ≠ 0 → t.out = .mesh 4 (f.words.getD 2 0) [0x8000 + e.1, f.words.getD 3 0, f.words.getD 4 0, f.words.getD 5 0] :: s.out ∧
         (Tbl.get? t.tor.slots e.1).any fun r => r.credits = e.2.credits - f.words.getD 4 0)) ∧
  -- NOTICE_FRAME (R375): a link notice retires the module, a stream notice goes on to its head
  (∀ (f : Frame) (s : State), f.dest = s.here →
     Completes (.noticeFrame f) s fun t =>
       (f.words.getD 0 0 = 0xFFFF → f.words.getD 1 0 < 6 → f.words.getD 1 0 ∉ s.tor.retired → t.tor.retired = f.words.getD 1 0 :: s.tor.retired) ∧
       (f.words.getD 0 0 ≠ 0xFFFF → s.headOf (f.words.getD 1 0) = some s.here → t = s.emit (.mesh 11 0 [f.words.getD 1 0, 2])))

/-- Link-state notices, route switches, the plan and the agreement of neighbours. Each clause: where the command completes and what it
leaves. The model's choice: what R357 to R396 leave to an implementation is log 19. -/
def Obligations.RoutesAndTopologyComplete : Prop :=
  -- LSN_RECEIVE (R373): a newer link state notice is kept and stamped
  (∀ (d : Nat) (l : Lsn) (s : State), d < 6 → s.linkUp d = true → s.lsnNewer l = true → l.origin ≠ s.here →
     Completes (.lsnReceive d l) s fun t => t.lsnOf l.origin l.dir = some l ∧ t.rf R.TORUS_LAST_LSN_STAMP 0 = l.stamp % 2 ^ 64) ∧
  -- PEER_LSN_TIMEOUT (R376): the failed link's wait is over and what it held is dropped
  (∀ (d since : Nat) (s : State), d < 6 → (s.dirSt d).failedAt = some since → since + 30000 ≤ s.elapsed →
     Completes (.peerLsnTimeout d) s fun t => (t.dirSt d).failedAt = none ∧ (t.dirSt d).held = [] ∧ t.rf R.BORSAN_RESEND_WAIT d = 0) ∧
  -- ROUTE_SWITCH (R377): the route bank changes, ROUTE_VER goes up, and routes are held
  (∀ s : State, s.rb R.TORUS_SWITCH_PENDING 0 = true → s.rf R.TORUS_SWITCH_STAMP 0 ≤ s.now →
     Completes .routeSwitch s fun t =>
       t.rf R.TORUS_ACTIVE_BANK 0 = 1 - s.rf R.TORUS_ACTIVE_BANK 0 ∧ t.rf R.TORUS_ROUTE_VER 0 = (s.rf R.TORUS_ROUTE_VER 0 + 1) % 2 ^ 8 ∧
       t.rf R.TORUS_SWITCH_PENDING 0 = 0 ∧ t.rf R.TORUS_HOLDING 0 = 1 ∧ t.tor.switched = true) ∧
  -- ROUTE_HOLD_END (R378): the hold of routes is over
  (∀ s : State, s.rb R.TORUS_HOLDING 0 = true → s.tor.holdDue ≤ s.elapsed → s.tor.hold = [] → s.md.leave = 0 →
     Completes .routeHoldEnd s fun t => t.rf R.TORUS_HOLDING 0 = 0 ∧ t.tor.holdDest = []) ∧
  -- TOPOLOGY_LOAD (R379): the plan is loaded and the answer says which directions changed
  (∀ (c : Cmd) (s : State), s.Takes c → c.bodyWords = 9 → s.modState ≠ msLeaving → s.modState ≠ msLeft → planBad c = false → (∀ d < 6, c.w (3 + d) ≠ s.rf R.MOD_SERIAL 0) →
     (s.modState = msReady → c.f 0 0 30 = s.rf R.TORUS1_SIZE_POSITION 0 ∧ s.tor.root = some (c.f 0 36 15) ∧ c.f 2 0 32 = s.rf R.TORUS_ROUTE_SETTLE_US 0) →
     Completes (.topologyLoad c) s fun t =>
       t.rf R.TORUS1_PLAN_LOADED 0 = 1 ∧ t.rf R.TORUS1_PLAN_ID 0 = c.w 1 % 2 ^ 64 ∧ t.rf R.TORUS1_SIZE_POSITION 0 = c.f 0 0 30 ∧
       t.rf R.TORUS_ROUTE_SETTLE_US 0 = c.f 2 0 32 ∧ (∀ d < 6, t.rf R.TORUS1_EXPECTED 0 d = c.w (3 + d) % 2 ^ 64) ∧
       s.Answered t c 0x38 [(((List.range 6).filter fun d => s.rb R.TORUS1_PLAN_LOADED 0 && s.expected d ≠ c.w (3 + d)).foldl (fun m d => m + 2 ^ d) 0) * 256]) ∧
  -- HELLO_SEND (R380): the hello goes out, the next due in 100 ms or, in state 2, 1 s
  (∀ (d : Nat) (s : State), d < 6 → s.linkUp d = true → ((s.dirSt d).helloAt ≤ s.elapsed ∨ (s.dirSt d).helloSent ≠ s.helloWords d) →
     Completes (.helloSend d) s fun t =>
       (t.dirSt d).helloSent = s.helloWords d ∧ (t.dirSt d).helloAt = s.elapsed + (if s.dstate d = 2 then 1000000 else 100000) ∧
       t.out.head?.any fun o => match o with
         | .borsan e k _ ws => decide (e = d ∧ k = 0 ∧ ws.drop 2 = s.helloWords d ++ [s.now, 0])
         | _ => false) ∧
  -- HELLO_RECEIVE (R381): the peer's serial and hello are kept and the run of good hellos counted
  (∀ (d : Nat) (h : Hello) (s : State), d < 6 → s.linkUp d = true →
     Completes (.helloReceive d h) s fun t =>
       t.rf R.TORUS1_PEER_SERIAL 0 d = h.serial % 2 ^ 64 ∧ (t.dirSt d).peer = some h ∧
       (t.dirSt d).helloRun = if h.ok then (s.dirSt d).helloRun + 1 else 0) ∧
  -- AGREE_TIMEOUT (R381): the direction's class and state are those of the agreement rules
  (∀ (d : Nat) (s : State), d < 6 → s.rb R.TORUS1_PLAN_LOADED 0 = true → s.dstate d ≠ 5 →
     Completes (.agreeTimeout d) s fun t => t.dclass d = s.classOf d ∧ t.dstate d = s.stateOf d (s.classOf d))

/-- Collective operations. Each clause: where the command completes and what it leaves. -/
def Obligations.CollectivesComplete : Prop :=
  -- COLLECTIVE_START (R388): the instance goes up by one and the parts of the vector are taken
  (∀ (i n : Nat) (s : State), i < 64 → s.rf R.TORUS2_C_VALID 0 i = 1 → (s.coll i).running = false → s.collOk i = true →
     ((List.range ((s.coll i).parts.length + 1)).find? fun n => decide (s.rf R.TORUS2_C_ELEMENTS 0 i / 32 ≤ (((s.coll i).parts.take n).map fun p => (partBlocks p).length).sum)) = some n →
     (∀ p ∈ (s.coll i).parts.take n, p.2 = true ∨ partOk (decide (s.rf R.TORUS2_C_EXACT 0 i = 1)) (s.rf R.TORUS2_C_XC 0 i) p = true) →
     Completes (.collectiveStart i) s fun t =>
       t.rf R.TORUS2_C_INSTANCE 0 i = (s.rf R.TORUS2_C_INSTANCE 0 i + 1) % 2 ^ 32 ∧ (t.coll i).parts = (s.coll i).parts.drop n) ∧
  -- CHUNK_RECEIVE (R391): a good chunk of the present hop is kept
  (∀ (u : Nat) (f : Frame) (c : CollSt) (s : State), u < 6 → f.cls = 2 → f.typ = 0 → f.dest = s.here → f.words.getD 0 0 < 64 →
     s.rf R.TORUS2_C_VALID 0 (f.words.getD 0 0) = 1 → s.rf R.TORUS2_C_OP 0 (f.words.getD 0 0) ≠ 3 → s.coll (f.words.getD 0 0) = c →
     c.running = true → f.words.getD 1 0 = c.hop → c.early = [] →
     ((f.words.getD 4 0).testBit 0 = true ∨ chunkFault (s.collFmt (f.words.getD 0 0)) (f.words.getD 3 0) ((f.words.getD 4 0).testBit 1)
       ((f.words.getD 4 0).testBit 2) ((f.words.drop 5).take (f.words.length - 6)) (f.words.getD (f.words.length - 1) 0) = 0) →
     ((s.hopNeeds (f.words.getD 0 0)).any fun b => !((List.range (f.words.getD 3 0)).map (f.words.getD 2 0 + ·) ++ c.got).contains b) = true →
     Completes (.chunkReceive u f) s fun t => (t.coll (f.words.getD 0 0)).got = (List.range (f.words.getD 3 0)).map (f.words.getD 2 0 + ·) ++ c.got) ∧
  -- CHUNK_RECEIVE (R391): a chunk of a later hop waits; nothing else changes
  (∀ (u : Nat) (f : Frame) (s : State), u < 6 → f.cls = 2 → f.typ = 0 → f.dest = s.here → f.words.getD 0 0 < 64 →
     s.rf R.TORUS2_C_VALID 0 (f.words.getD 0 0) = 1 → s.rf R.TORUS2_C_OP 0 (f.words.getD 0 0) ≠ 3 →
     ((s.coll (f.words.getD 0 0)).running = false ∨ f.words.getD 1 0 ≠ (s.coll (f.words.getD 0 0)).hop) →
     Completes (.chunkReceive u f) s fun t =>
       t = s.setColl (f.words.getD 0 0) { s.coll (f.words.getD 0 0) with early := (s.coll (f.words.getD 0 0)).early ++ [f] }) ∧
  -- CHUNK_ACK (R391): the chunk acknowledged is kept for resending no more
  (∀ (u : Nat) (f : Frame) (s : State), u < 6 → f.words.getD 0 0 < 64 → f.dest = s.here →
     Completes (.chunkAck u f) s fun t =>
       (t.coll (f.words.getD 0 0)).kept = (s.coll (f.words.getD 0 0)).kept.filter fun k => !(k.1 = f.words.getD 1 0 && k.2.1 = f.words.getD 2 0)) ∧
  -- RESEND_REQ (R391): the chunk asked for goes out again
  (∀ (u : Nat) (f : Frame) (k : Nat × Nat × Frame) (s : State), u < 6 → f.words.getD 0 0 < 64 → f.dest = s.here →
     ((s.coll (f.words.getD 0 0)).kept.find? fun k => k.1 = f.words.getD 1 0 && k.2.1 = f.words.getD 2 0) = some k →
     Completes (.resendReq u f) s fun t => t = s.sendFrame (s.coll (f.words.getD 0 0)).unit k.2.2) ∧
  -- COLLECTIVE_TIMEOUT (R391): the collective fails and TIMEOUTS goes up, saturating
  (∀ (i : Nat) (s : State), i < 64 → (s.coll i).running = true → (s.coll i).startAt + 1000 * s.rf R.TORUS2_COLL_TIMEOUT_US 0 < s.elapsed →
     Completes (.collectiveTimeout i) s fun t =>
       (t.coll i).running = false ∧ t.rf R.TORUS2_TIMEOUTS 0 = min (2 ^ 32 - 1) (s.rf R.TORUS2_TIMEOUTS 0 + 1))

/-- Model keys and manifests. Each clause: where the command completes and what it leaves. The model's choice: the cryptographic primitives
are free values applied to the inputs the spec gives, and the layouts it leaves open are log 42. -/
def Obligations.KeysAndManifestsComplete : Prop :=
  -- MODEL_KEY_IMPORT (R404): the key is loaded in its slot and answered OK
  (∀ (c : Cmd) (lowFirst : Bool) (s : State), s.Takes c → c.bodyWords = 31 → s.keyCheck c true = ksOk → c.b 0 6 = false →
     Completes (.modelKeyImport c lowFirst) s fun t =>
       match modelKeyOf c lowFirst with
       | some key =>
         t.rf R.KEYS1_LOADED 0 (c.f 0 0 6) = 1 ∧ t.rf R.KEYS1_KEY_ID 0 (c.f 0 0 6) = c.w 1 % 2 ^ 64 ∧
         Tbl.get? t.sec.models (c.f 0 0 6) = some key ∧ s.Answered t c 0x33 [0]
       | none =>
         t.rf R.KEYS1_LOADED 0 (c.f 0 0 6) = s.rf R.KEYS1_LOADED 0 (c.f 0 0 6) ∧
         t.rf R.KEYS1_KEY_ID 0 (c.f 0 0 6) = s.rf R.KEYS1_KEY_ID 0 (c.f 0 0 6) ∧
         Tbl.get? t.sec.models (c.f 0 0 6) = Tbl.get? s.sec.models (c.f 0 0 6) ∧ s.Answered t c 0x33 [ksUnwrapFailed]) ∧
  -- MODEL_KEY_DELETE (R404): the key's slot is empty and answered OK
  (∀ (c : Cmd) (s : State), s.Takes c → c.bodyWords = 31 → s.keyCheck c false = ksOk → c.b 0 6 = true →
     Completes (.modelKeyDelete c) s fun t =>
       t.rf R.KEYS1_LOADED 0 (c.f 0 0 6) = 0 ∧ t.rf R.KEYS1_KEY_ID 0 (c.f 0 0 6) = 0 ∧ s.Answered t c 0x33 [0]) ∧
  -- VARIANT_REGISTER (R406): the manifest of the size named is awaited for the command
  (∀ (c : Cmd) (s : State), s.Takes c → c.bodyWords = 3 → s.vstate (c.f 0 0 6) = vEmpty → s.man (c.f 0 0 6) = none → Tbl.get? s.sec.opening (c.f 0 0 6) = none →
     c.w 0 / 64 = 0 → 224 ≤ c.f 2 32 32 → c.f 2 32 32 ≤ 2 ^ 24 →
     Completes (.variantRegister c) s fun t =>
       Tbl.get? t.sec.opening (c.f 0 0 6) = some (c.qp, c.cmdId) ∧ (t.openCmd c.qp c.cmdId).any fun o => o.arg = c.f 2 32 32) ∧
  -- MANIFEST_READ_DONE (R406): the command is closed; a manifest that reads, suits the module and is signed under its publisher's key is kept with its own shards
  -- counted, one that is not signed so is not kept
  (∀ (v qp id k a : Nat) (bytes : List Nat) (m : Manifest) (o : OpenCmd) (s : State), Tbl.get? s.sec.opening v = some (qp, id) → s.openCmd qp id = some o →
     s.keySlot (leField bytes 24 8) = some k → readManifest bytes = some m → bytes.length = o.arg → s.manifestOk v o.arg m = true →
     (m.chains.any fun ch => ch.contains s.here) = true → s.huskRange a bytes.length = true →
     Completes (.manifestReadDone v true bytes a true) s fun t =>
       t.openCmd qp id = none ∧ Tbl.get? t.sec.opening v = none ∧
       if signatureOk (Tbl.getD s.sec.pubs k 0) bytes then
         t.man v = some m ∧ t.rf R.CARAVAN_OWN_EXPECTED 0 v = (m.shards.countP fun sh => sh.target = s.here) % 2 ^ 18
       else t.man v = s.man v) ∧
  -- VARIANT_UNREGISTER (R410): manifest and counts are gone and answered OK
  (∀ (c : Cmd) (m : Manifest) (s : State), s.Takes c → c.bodyWords = 1 → (s.vstate (c.f 0 0 6) = vEmpty ∨ s.vstate (c.f 0 0 6) = vRegistered) → s.man (c.f 0 0 6) = some m →
     Completes (.variantUnregister c) s fun t =>
       t.man (c.f 0 0 6) = none ∧ t.vstate (c.f 0 0 6) = vEmpty ∧ t.rf R.CARAVAN_COMPLETE 0 (c.f 0 0 6) = 0 ∧
       t.rf R.CARAVAN_OWN_EXPECTED 0 (c.f 0 0 6) = 0 ∧ s.Answered t c 0x32 [0])

/-- Fetching, keeping and forwarding shards. Each clause: where the command completes and what it leaves. The model's choice: transit copies
and the order of forwarding are log 25. -/
def Obligations.ShardTransferComplete : Prop :=
  -- HUSK_FETCH (R407): the shard's fetch joins the queue, the command held open
  (∀ (c : Cmd) (m : Manifest) (sh : Shard) (s : State), s.Takes c → c.bodyWords = 3 → s.man (c.f 0 0 6) = some m → m.shards[c.f 0 6 17]? = some sh →
     s.onChain m sh = true → (s.shard (c.f 0 0 6) (c.f 0 6 17)).have_ = false →
     Completes (.huskFetch c) s fun t => t.sec.fetches = s.sec.fetches ++ [(c.qp, c.cmdId, c.f 0 0 6, c.f 0 6 17)] ∧ (t.openCmd c.qp c.cmdId).isSome = true) ∧
  -- HUSK_VERIFIED (R412): a whole husk is stored at its address, held, or in transit for another module, counted, the command closed
  (∀ (v i a : Nat) (husk : List Nat) (e : Nat × Nat × Nat × Nat) (o : OpenCmd) (m : Manifest) (sh : Shard) (s : State),
     (s.sec.fetches.find? fun (e : Nat × Nat × Nat × Nat) => e.2.2.1 = v && e.2.2.2 = i) = some e → s.openCmd e.1 e.2.1 = some o → s.man v = some m →
     m.shards[i]? = some sh → (s.shard v i).have_ = false → husk.length = sh.bytes → Config.sha384 husk = sh.digest →
     s.huskRange a husk.length = true →
     Completes (.huskVerified v i true { ok := true, addr := a, bytes := husk }) s fun t =>
       (t.shard v i).held = decide (sh.target = s.here) ∧ (t.shard v i).transit = decide (sh.target ≠ s.here) ∧ (t.shard v i).addr = a ∧
       t.hbm = (s.hbmPut a (husk.map fun b => (b, false))).hbm ∧
       t.rf R.CARAVAN_SHARDS_IN 0 = (s.rf R.CARAVAN_SHARDS_IN 0 + 1) % 2 ^ 64 ∧ t.openCmd e.1 e.2.1 = none) ∧
  -- SHARD_FRAME (R411): a variant's shard frame: its chunk is kept once, the ask is answered, and the time of arrival kept
  (∀ (f : Frame) (v : Nat) (m : Manifest) (sh : Shard) (s : State), s.variantOf (f.words.getD 0 0) (f.words.getD 1 0) = some v → s.man v = some m →
     m.shards[f.words.getD 2 0]? = some sh → s.onChain m sh = true → (s.shard v (f.words.getD 2 0)).have_ = false → (s.shard v (f.words.getD 2 0)).fwd ≠ 3 →
     Completes (.shardFrame f) s fun t =>
       t.shard v (f.words.getD 2 0) = { s.shard v (f.words.getD 2 0) with
         asked := none,
         got := if (s.shard v (f.words.getD 2 0)).got.any fun g => g.1 = f.words.getD 3 0 then (s.shard v (f.words.getD 2 0)).got
           else (s.shard v (f.words.getD 2 0)).got ++ [(f.words.getD 3 0, f.words.getD 4 0)] } ∧ Tbl.get? t.sec.lastIn v = some s.elapsed) ∧
  -- BULK_ACK (R412): the shard forwarded is done and counted
  (∀ (f : Frame) (hollow : Bool) (v : Nat) (m : Manifest) (sh : Shard) (s : State), s.variantOf (f.words.getD 0 0) (f.words.getD 1 0) = some v → s.man v = some m →
     m.shards[f.words.getD 2 0]? = some sh → f.words.getD 3 0 = 0 → (s.shard v (f.words.getD 2 0)).fwd = 2 →
     Completes (.bulkAck f hollow) s fun t =>
       (t.shard v (f.words.getD 2 0)).fwd = 3 ∧ (t.shard v (f.words.getD 2 0)).transit = false ∧
       t.rf R.CARAVAN_SHARDS_FORWARDED 0 = (s.rf R.CARAVAN_SHARDS_FORWARDED 0 + 1) % 2 ^ 64) ∧
  -- SHARD_TIMEOUT (R413): a variant's shard is asked for again, its chunks dropped, and the retry counted
  (∀ (v i a u : Nat) (m : Manifest) (sh : Shard) (s : State), s.man v = some m → m.shards[i]? = some sh → s.onChain m sh = true → s.upstream m sh = some u →
     v ≠ 64 → (s.shard v i).have_ = false → (s.shard v i).fwd = 0 → (s.shard v i).retries < 2 → (s.shard v i).asked = some a → a + State.shardTimeout s ≤ s.elapsed →
     Completes (.shardTimeout v) s fun t =>
       t.shard v i = { s.shard v i with retries := (s.shard v i).retries + 1, asked := some s.elapsed, resent := true, got := [] }) ∧
  -- NOT_REGISTERED_RESEND (R412): the shard goes out again and the next try is a shard timeout on
  (∀ (v i since n : Nat) (m : Manifest) (sh : Shard) (s : State), v < 64 → (s.shard v i).again = some since → s.nextOf (shardKey v i) = some (m, sh, n) →
     since ≤ s.elapsed → (s.shard v i).fwd = 2 →
     Completes (.notRegisteredResend v i) s fun t => t.shard v i = { s.shard v i with again := some (s.elapsed + State.shardTimeout s) })

/-- SPDM requests and their responses. Each clause: where the command completes and what it leaves. The model's choice: the primitives are
free values and the layouts the spec leaves open are log 42. -/
def Obligations.DeviceAttestationComplete : Prop :=
  -- SPDM_GET_VERSION (R420): the VERSION response offers 1.2 and the negotiation starts
  (∀ (c : Cmd) (s : State), s.Takes c → attestLenOk c = true → spdmCode c = 0x84 → s.rb R.KEYS_IDENTITY_READY 0 = true → c.f 1 0 8 = 0x10 →
     Completes (.spdmGetVersion c) s fun t =>
       ((Tbl.get? t.sec.spdm c.qp).any fun x => x.stage = 1) ∧ s.Answered t c 0x34 (8 :: packBytes [0x10, 0x04, 0, 0, 0, 1, 0x00, 0x12])) ∧
  -- SPDM_GET_CAPABILITIES (R420): the CAPABILITIES response with the flags and sizes of the block goes out and the negotiation moves on
  (∀ (c : Cmd) (rsp : List Nat) (s : State), s.Takes c → attestLenOk c = true → spdmCode c = 0xE1 → s.rb R.KEYS_IDENTITY_READY 0 = true → c.f 1 0 8 = 0x12 →
     (Tbl.getD s.sec.spdm c.qp {}).stage = 1 →
     Completes (.spdmGetCapabilities c rsp) s fun t =>
       ((Tbl.get? t.sec.spdm c.qp).any fun x => x.stage = 2) ∧
       s.Answered t c 0x34 (20 :: packBytes ([0x12, 0x61] ++ capabilities (rsp.headD 0)))) ∧
  -- SPDM_NEGOTIATE_ALGORITHMS (R420): the ALGORITHMS response with the algorithms of the block goes out and the negotiation is whole
  (∀ (c : Cmd) (rsp : List Nat) (s : State), s.Takes c → attestLenOk c = true → spdmCode c = 0xE3 → s.rb R.KEYS_IDENTITY_READY 0 = true → c.f 1 0 8 = 0x12 →
     (Tbl.getD s.sec.spdm c.qp {}).stage = 2 →
     Completes (.spdmNegotiateAlgorithms c rsp) s fun t =>
       ((Tbl.get? t.sec.spdm c.qp).any fun x => x.stage = 3) ∧
       s.Answered t c 0x34 (36 :: packBytes ([0x12, 0x63] ++ algorithms))) ∧
  -- SPDM_GET_DIGESTS (R420): the DIGESTS response goes out
  (∀ (c : Cmd) (rsp : List Nat) (s : State), s.Takes c → attestLenOk c = true → spdmCode c = 0x81 → s.rb R.KEYS_IDENTITY_READY 0 = true → c.f 1 0 8 = 0x12 →
     (Tbl.getD s.sec.spdm c.qp {}).stage = 3 →
     Completes (.spdmGetDigests c rsp) s fun t =>
       ((Tbl.get? t.sec.spdm c.qp).any fun x => x.stage = 3) ∧ 
       s.Answered t c 0x34 ((([0x12, 1] ++ ([0, 3] ++ sha384 (s.chain 0) ++ sha384 (s.chain 1))).take 984).length :: packBytes (([0x12, 1] ++ ([0, 3] ++ sha384 (s.chain 0) ++ sha384 (s.chain 1))).take 984))) ∧
  -- SPDM_GET_CERTIFICATE (R420): the CERTIFICATE response goes out, 906 bytes of it at most
  (∀ (c : Cmd) (rsp : List Nat) (off n : Nat) (s : State), s.Takes c → attestLenOk c = true → spdmCode c = 0x82 → s.rb R.KEYS_IDENTITY_READY 0 = true →
     c.f 1 0 8 = 0x12 → (Tbl.getD s.sec.spdm c.qp {}).stage = 3 → 8 ≤ c.f 0 0 16 → c.f 1 16 8 < 2 → off = c.f 1 32 16 → off < (s.chain (c.f 1 16 8)).length →
     n = min (min (c.f 1 48 16) 900) ((s.chain (c.f 1 16 8)).length - off) →
     Completes (.spdmGetCertificate c rsp) s fun t =>
       ((Tbl.get? t.sec.spdm c.qp).any fun x => x.stage = 3) ∧
       s.Answered t c 0x34 ((8 + n) ::
         packBytes ([0x12, 2, c.f 1 16 8, 0] ++ leBytes 2 n ++ leBytes 2 ((s.chain (c.f 1 16 8)).length - off - n) ++
           ((s.chain (c.f 1 16 8)).drop off).take n))) ∧
  -- SPDM_CHALLENGE (R420): the CHALLENGE_AUTH response goes out and is counted
  (∀ (c : Cmd) (rsp : List Nat) (s : State), s.Takes c → attestLenOk c = true → spdmCode c = 0x83 → s.rb R.KEYS_IDENTITY_READY 0 = true → c.f 1 0 8 = 0x12 →
     (Tbl.getD s.sec.spdm c.qp {}).stage = 3 → c.f 1 16 8 = 0 →
     Completes (.spdmChallenge c rsp) s fun t =>
       ((Tbl.get? t.sec.spdm c.qp).any fun x => x.stage = 3) ∧ t.rf R.KEYS_CHALLENGES 0 = min (2 ^ 32 - 1) (s.rf R.KEYS_CHALLENGES 0 + 1) ∧ 
       s.Answered t c 0x34 ((([0x12, 3] ++ ([0, 1] ++ sha384 (s.chain 0) ++ rsp)).take 984).length :: packBytes (([0x12, 3] ++ ([0, 1] ++ sha384 (s.chain 0) ++ rsp)).take 984))) ∧
  -- SPDM_GET_MEASUREMENTS (R421): the MEASUREMENTS response goes out and is counted
  (∀ (c : Cmd) (rsp blocks : List Nat) (s : State), s.Takes c → attestLenOk c = true → spdmCode c = 0xE0 → s.rb R.KEYS_IDENTITY_READY 0 = true →
     c.f 1 0 8 = 0x12 → (Tbl.getD s.sec.spdm c.qp {}).stage = 3 → 1 ≤ c.f 1 24 8 → c.f 1 24 8 ≤ 8 →
     blocks = [c.f 1 24 8, 1, 51, 0, if c.f 1 24 8 = 1 then 0 else if c.f 1 24 8 = 2 then 2 else if c.f 1 24 8 ≤ 5 then 1 else 3, 48, 0] ++
       s.measurement (c.f 1 24 8) →
     Completes (.spdmGetMeasurements c rsp) s fun t =>
       ((Tbl.get? t.sec.spdm c.qp).any fun x => x.stage = 3) ∧ t.rf R.KEYS_MEAS_REQUESTS 0 = min (2 ^ 32 - 1) (s.rf R.KEYS_MEAS_REQUESTS 0 + 1) ∧
       s.Answered t c 0x34 ((([0x12, 0x60, 0, 0, 1] ++ leBytes 3 blocks.length ++ blocks ++ rsp).take 984).length ::
         packBytes (([0x12, 0x60, 0, 0, 1] ++ leBytes 3 blocks.length ++ blocks ++ rsp).take 984))) ∧
  -- SPDM_UNSUPPORTED (R420): an unknown request is answered ERROR 7 with its code
  (∀ (c : Cmd) (s : State), s.Takes c → attestLenOk c = true → spdmCode c ≠ 0x84 → spdmResponse (spdmCode c) = 0x7F → s.rb R.KEYS_IDENTITY_READY 0 = true →
     Completes (.spdmUnsupported c) s fun t => s.Answered t c 0x34 (4 :: packBytes [0x12, 0x7F, 7, spdmCode c]))

/-- SRAM scrubbing, evidence, fences and a rail's slew. Each clause: where the command completes and what it leaves. The model's choice: a
fence is one step (log 26). -/
def Obligations.SuspectUnitsComplete : Prop :=
  -- SRAM_SCRUB (R433): no error leaves all as it was, one or two symbols are corrected and counted, three or more hollow the line and are counted
  (∀ (pc off n : Nat) (errs : List (Nat × Nat)) (s : State), pc < 2048 → s.rb R.PCORE_FENCED pc = false → off / 32 * 32 < sramSize (kindOfPhysical (pc % 64)) →
     ((errs.filter fun e => e.1 < 36 && e.2 % 256 ≠ 0).map (·.1)).eraseDups.length = n →
     Completes (.sramScrub pc off errs none) s fun t =>
       (n = 0 → t = s) ∧
       (1 ≤ n → n ≤ 2 → t.rf R.PCORE_SRAM_CE pc = min (2 ^ 32 - 1) (s.rf R.PCORE_SRAM_CE pc + 1) ∧ t.sram = s.sram ∧ t.sramHollow = s.sramHollow) ∧
       (3 ≤ n → t.rf R.PCORE_SRAM_UE pc = min (2 ^ 32 - 1) (s.rf R.PCORE_SRAM_UE pc + 1) ∧ t.rf R.PCORE_LAST_SRAM_UE_ADDR pc = off / 32 * 32 ∧
         t.sramHollow.contains (sramKey pc (off / 32 * 32) / 32) = true)) ∧
  -- EVIDENCE (R445): the evidence is stamped; code 0x10 and up fences the core, a lower code makes it suspect
  (∀ (pc code eng : Nat) (s : State), pc < 2048 → code < 256 →
     Completes (.evidence pc code eng) s fun t =>
       t.rf R.PCORE_LAST_EVIDENCE_STAMP pc = s.now % 2 ^ 64 ∧ t.rf R.PCORE_LAST_EVIDENCE_KIND pc = code ∧
       (0x10 ≤ code → s.rf R.PCORE_LEVEL pc ≠ 5 → t.rf R.PCORE_LEVEL pc = 5 ∧ t.sen.fences = s.sen.fences ++ [(pc, s.now)]) ∧
       (code < 0x10 → s.rf R.PCORE_LEVEL pc = 0 → Tbl.get? s.sen.advAt pc = none → t.rf R.PCORE_LEVEL pc = 1)) ∧
  -- FENCE (R450): the core is fenced, stamped and carries nothing
  (∀ (pc det : Nat) (l : List (Nat × Nat)) (s : State), s.sen.fences = (pc, det) :: l → s.msh.switching = none → s.clk.hold = [] →
     (match s.logicalOf pc with | some ck => s.gated (.core ck) | none => s.gated (.cluster (pc / 64))) = false → s.rb R.OASIS_RESTARTING 0 = false → s.modState ≠ msCores →
     Completes .fence s fun t => t.rf R.PCORE_FENCED pc = 1 ∧ t.rf R.PCORE_FENCE_STAMP pc = s.now % 2 ^ 64 ∧ t.rf R.PCORE_CARRYING pc = 0) ∧
  -- RAIL_SLEW_END (R447): the rail stands at the step reached; at the step wanted it slews no more
  (∀ (p n due : Nat) (s : State), p < 4 → Tbl.get? s.sen.rails p = some (n, due) → due ≤ s.elapsed → n ≤ 8 →
     Completes (.railSlewEnd p) s fun t =>
       t.rf R.PART_RAISE_STEPS p = n ∧ (min 8 (s.railWant p) = n → t.rf R.PART_SLEWING p = 0 ∧ Tbl.get? t.sen.rails p = none))

/-- A reset of a domain, from its start to its release. Each clause: where the command completes and what it leaves. The model's choice:
details of merged and taken-over resets are log 27. -/
def Obligations.ResetsOfDomainsComplete : Prop :=
  -- CTL_DOMAIN_RESET (R462): a cluster's CTL write starts its reset: GATED 1 and stamped
  (∀ (m : Master) (c w : Nat) (s : State), c < 32 → s.Writes m (cluPage c) 0x20 (w ||| 0x100) → w.testBit 9 = false →
     s.gated (.cluster c) = false → s.rsts = [] → s.modState ≠ msCores →
     Completes (.ctlDomainReset m (cluPage c).index w) s fun t =>
       t.gated (.cluster c) = true ∧ t.rf R.CLU_GATED c = 1 ∧ t.rf R.CLU_LAST_START_STAMP c = s.now % 2 ^ 64) ∧
  -- DOMAIN_RESET (R479): the reset of the domain starts for the command's host, held open until its release
  (∀ (c : Cmd) (s : State), s.Takes c → c.bodyWords = 1 → c.f 0 4 12 = 0 → c.f 0 32 32 = 0 → c.b 0 3 = false → c.b 0 2 = false → c.f 0 0 2 ≠ 3 →
     targetOk (c.f 0 0 2) (c.f 0 16 16) = true → (c.f 0 0 2 = 0 → s.isAbsent (c.f 0 16 16) = false) →
     s.holding (Dom.of (c.f 0 0 2) (c.f 0 16 16)) = none → s.modState ≠ msCores →
     Completes (.domainReset c) s fun t =>
       ∃ r, t.rst (Dom.of (c.f 0 0 2) (c.f 0 16 16)) = some r ∧ r.phase = 1 ∧ r.absorb = false ∧ r.cmd = [(c.qp, c.cmdId)] ∧
         r.cause = s.rf R.QP_PORT c.qp ∧ r.startStamp = s.now) ∧
  -- DRAIN_END (R468): after the 50 us drain the domain is cut, stamped
  (∀ (scope target : Nat) (x : ResetRec) (s : State), scope < 3 → s.rst (Dom.of scope target) = some x → x.phase = 1 → x.absorb = false →
     x.startAt + 50000 ≤ s.elapsed → s.genFree (Dom.of scope target) ≤ s.elapsed →
     Completes (.drainEnd scope target) s fun t =>
       ∃ y, t.rst (Dom.of scope target) = some y ∧ y.phase = 3 ∧ y.drainUs = 50 ∧ y.cutStamp = s.now) ∧
  -- GEN_WAIT_END (R470): the domain is cut once its generation may be used again
  (∀ (scope target : Nat) (x : ResetRec) (s : State), scope < 3 → s.rst (Dom.of scope target) = some x → x.phase = 2 →
     s.genFree (Dom.of scope target) ≤ s.elapsed →
     Completes (.genWaitEnd scope target) s fun t =>
       ∃ y, t.rst (Dom.of scope target) = some y ∧ y.phase = 3 ∧ y.cutStamp = s.now) ∧
  -- RESET_PHASE_END (R467): the reset's next phase begins; nothing but registers and the reset's record changes
  (∀ (scope target : Nat) (x : ResetRec) (s : State), scope < 3 → s.rst (Dom.of scope target) = some x → x.phase = 3 →
     Completes (.resetPhaseEnd scope target) s fun t =>
       t.rst (Dom.of scope target) = some { x with phase := 4 } ∧ t = { s with regs := t.regs, rsts := t.rsts }) ∧
  -- RESET_RELEASE (R467): the cluster is released: not gated, not restoring, stamped, RSTATUS 0
  (∀ (c : Nat) (bad : List Nat) (x : ResetRec) (s : State), s.rst (.cluster c) = some x → x.phase = 4 →
     Completes (.resetRelease 1 c bad) s fun t =>
       t.rst (.cluster c) = none ∧ t.rf R.CLU_GATED c = 0 ∧ t.rf R.CLU_RESTORING c = 0 ∧ t.rf R.CLU_LAST_RELEASE_STAMP c = s.now % 2 ^ 64 ∧
       t.rf R.CLU_RSTATUS c = 0)

/-- Hangs, limits and escalation. Each clause: where the command completes and what it leaves. The model's choice: details of hang events
are log 27. -/
def Obligations.HangsAndLimitsComplete : Prop :=
  -- KERNEL_OVERRUN (R210): a kernel past its limit is hung: its core's reset starts and HANGS goes up, saturating
  (∀ (v : Nat) (k : KStep) (s : State), (s.vcSt v).step = some k → k.overrun = false → s.kernelLimit v k ≤ s.cycles v (s.elapsed - k.firedAt) →
     s.gated (.core v) = false → Tbl.get? s.md.hangAt (s.physOf v) = none →
     Completes (.kernelOverrun v) s fun t =>
       t.gated (.core v) = true ∧ t.rf R.DIE_HANGS 0 = min (2 ^ 32 - 1) (s.rf R.DIE_HANGS 0 + 1)) ∧
  -- HEARTBEAT_LOST (R225): an S-core without a heartbeat for its limit is hung: its reset starts and HANGS goes up
  (∀ (ck : Nat) (s : State), s.isScore ck = true → s.rb R.SCORE_RUN ck = true → s.gated (.core ck) = false →
     (s.scSt ck).beatAt + 1000 * s.rf R.SCORE_HEARTBEAT_LIMIT ck ≤ s.elapsed → Tbl.get? s.md.hangAt (s.physOf ck) = none →
     Completes (.heartbeatLost ck) s fun t =>
       t.gated (.core ck) = true ∧ t.rf R.DIE_HANGS 0 = min (2 ^ 32 - 1) (s.rf R.DIE_HANGS 0 + 1)) ∧
  -- STEP_WATCHDOG (R464): a step past STEP_LIMIT_US is hung: its core's reset starts and HANGS goes up
  (∀ (ck id waited : Nat) (x : Step) (s : State), s.stepOf ck id = some x → x.firedAt + waited + 1000 * s.rf R.DIE_STEP_LIMIT_US 0 < s.elapsed →
     x.done = false → s.gated (.core ck) = false → Tbl.get? s.md.hangAt (s.physOf ck) = none →
     Completes (.stepWatchdog ck id waited) s fun t =>
       t.gated (.core ck) = true ∧ t.rf R.DIE_HANGS 0 = min (2 ^ 32 - 1) (s.rf R.DIE_HANGS 0 + 1)) ∧
  -- NOBUF_LIMIT (R465): the send is given up after NOBUF_LIMIT_MS: NOBUF_GIVEUPS, UNMATCHED and HANGS go up, saturating
  (∀ (ck dest stream t0 a d n : Nat) (c : Chan) (s : State), s.chan ck dest stream = some c → c.noBuf = some t0 →
     t0 + 1000000 * s.rf R.DIE_NOBUF_LIMIT_MS 0 ≤ s.elapsed → firstReady (s.waitingOn ck dest stream) = some (a, d, n) →
     Completes (.nobufLimit ck dest stream) s fun t =>
       t.rf R.DIE_NOBUF_GIVEUPS 0 = min (2 ^ 32 - 1) (s.rf R.DIE_NOBUF_GIVEUPS 0 + 1) ∧ t.rf R.DIE_HANGS 0 = min (2 ^ 32 - 1) (s.rf R.DIE_HANGS 0 + 1) ∧
       t.rf (if kindOfLogical (ck % 64) = 0 then R.MCORE_UNMATCHED else R.VCORE_UNMATCHED) ck =
         min (2 ^ 32 - 1) (s.rf (if kindOfLogical (ck % 64) = 0 then R.MCORE_UNMATCHED else R.VCORE_UNMATCHED) ck + 1)) ∧
  -- RESET_ESCALATION (R463): a core's reset longer than 200 us becomes its cluster's reset; ESCALATIONS and HANGS go up, saturating
  (∀ (ck : Nat) (x : ResetRec) (s : State), s.rst (.core ck) = some x → x.startAt + 200000 < s.elapsed → s.rb R.DIE_ESCALATE 0 = true →
     Completes (.resetEscalation 0 ck) s fun t =>
       t.gated (.cluster (ck / 64)) = true ∧ t.rf R.DIE_ESCALATIONS 0 = min (2 ^ 32 - 1) (s.rf R.DIE_ESCALATIONS 0 + 1) ∧
       t.rf R.DIE_HANGS 0 = min (2 ^ 32 - 1) (s.rf R.DIE_HANGS 0 + 1))

/-- The phases of bring-up. Each clause: where the command completes and what it leaves. The model's choice: what the ROM and the tests find
are operands (log 30). -/
def Obligations.BringUpPhasesComplete : Prop :=
  -- COLD_START (R484): bring-up starts in ROM, stamped
  (∀ (floating : Nat) (s : State), s.md.powered = true → s.md.started = false →
     Completes (.coldStart floating) s fun t =>
       t.md.started = true ∧ t.md.phaseAt = s.elapsed ∧ t.md.resetN = false ∧ t.modState = msRom ∧ t.rf R.BOARD_FLASH_OWNED 0 = 1 ∧
       t.rf R.MOD1_PHASE_STAMP 0 0 = s.now % 2 ^ 64) ∧
  -- ROM_PHASE_END (R484): with good tables and image the module is in PLATFORM and runs slot A
  (∀ (b : Boot) (s : State), s.modState = msRom → s.md.started = true → b.ok0 = true → (b.ok1 = true → b.equal = true) → b.recordOk = true → b.flashOk = true →
     256 ≤ b.sizeMib → s.rf R.OASIS3_SLOT_A_STATE 0 = 2 → s.rf R.OASIS3_SLOT_B_STATE 0 ≠ 1 → s.verifies b 0 = true →
     Completes (.romPhaseEnd b) s fun t =>
       t.modState = msPlatform ∧ t.rf R.VAULT_COPY_IN_USE 0 = 0 ∧ t.rf R.VAULT_COPY0_VALID 0 = 1 ∧ t.rf R.VAULT_COPY1_VALID 0 = bit b.ok1 ∧
       t.rf R.KEYS_IDENTITY_READY 0 = bit b.idOk ∧ t.rf R.OASIS3_RUNNING_SLOT 0 = 0 ∧ t.rf R.OASIS3_RUNNING_TRIAL 0 = 0 ∧
       t.rf R.MOD1_PHASE_STAMP 0 1 = s.now % 2 ^ 64) ∧
  -- PLATFORM_PHASE_END (R484): the module is in MEMORY, stamped
  (∀ (bad : List (Nat × Nat)) (s : State), s.modState = msPlatform → (s.rb R.MOD1_BOOT_KIND 0 = true ∨ bad = []) →
     Completes (.platformPhaseEnd bad) s fun t => t.modState = msMemory ∧ t.rf R.MOD1_PHASE_STAMP 0 2 = s.now % 2 ^ 64 ∧ t.md.phaseAt = s.elapsed) ∧
  -- MEMORY_PHASE_END (R484): the module is in LINKS, stamped
  (∀ s : State, s.modState = msMemory →
     (s.rb R.MOD1_BOOT_KIND 0 = true ∨ ((List.range 12).all (fun n => s.rb R.HBM_TRAINED n) = true ∧ s.md.fillDue = [])) →
     Completes .memoryPhaseEnd s fun t => t.modState = msLinks ∧ t.rf R.MOD1_PHASE_STAMP 0 3 = s.now % 2 ^ 64 ∧ t.md.phaseAt = s.elapsed) ∧
  -- LINKS_PHASE_END (R484): the module is in CORES, no core tested yet, stamped
  (∀ s : State, s.modState = msLinks →
     Completes .linksPhaseEnd s fun t =>
       t.modState = msCores ∧ t.md.tested = [] ∧ t.rf R.MOD1_BRINGUP_FENCES 0 = 0 ∧ t.rf R.MOD1_PHASE_STAMP 0 4 = s.now % 2 ^ 64) ∧
  -- CORES_PHASE_END (R491): the module awaits its plan, stamped
  (∀ (bad : List Nat) (s : State), s.modState = msCores → s.sen.fences = [] → s.md.late = [] → s.rst .die = none →
     Completes (.coresPhaseEnd bad) s fun t =>
       t.modState = msAwaitPlan ∧ t.rf R.MOD1_BRINGUP_FENCES 0 = 0 ∧ t.rf R.MOD1_PHASE_STAMP 0 5 = s.now % 2 ^ 64 ∧ t.md.phaseAt = s.elapsed) ∧
  -- SELF_TEST_DONE (R489): the core's test record holds what failed, the signature and the time
  (∀ (pc engines : Nat) (sram logic ni : Bool) (sig : Nat) (s : State), pc < 2048 → s.rb R.PCORE_FENCED pc = false → s.modState = msCores → s.rb R.MOD1_BOOT_KIND 0 = false → s.rsts = [] →
     Completes (.selfTestDone pc engines sram logic ni sig) s fun t =>
       t.rf R.PCORE1_TEST_KIND pc = 1 ∧ t.rf R.PCORE1_ENGINE_FAIL pc = (if kindOfPhysical (pc % 64) = 0 then engines % 65536 else 0) ∧
       t.rf R.PCORE1_SRAM_FAIL pc = bit sram ∧ t.rf R.PCORE1_LOGIC_FAIL pc = bit logic ∧ t.rf R.PCORE1_NI_FAIL pc = bit ni ∧
       t.rf R.PCORE1_PASSED pc = bit (decide ((if kindOfPhysical (pc % 64) = 0 then engines % 65536 else 0) = 0) && !sram && !logic && !ni) ∧
       t.rf R.PCORE1_SIGNATURE pc = sig % 2 ^ 64 ∧ t.rf R.PCORE1_TEST_STAMP pc = s.now % 2 ^ 64 ∧ t.md.tested.contains pc = true) ∧
  -- PHASE_TIMEOUT (R485): a phase past its bound fails bring-up with cause 5 and the phase
  (∀ (p b : Nat) (s : State), phaseBound s.modState false = some (p, b) → s.rb R.MOD1_BOOT_KIND 0 = false → s.md.started = true → s.md.phaseAt + b < s.elapsed →
     Completes .phaseTimeout s fun t => t.modState = msFailed ∧ t.rf R.MOD1_FAIL_CAUSE 0 = 5 ∧ t.rf R.MOD1_FAIL_DETAIL 0 = p)

/-- Leaving the torus. Each clause: where the command completes and what it leaves. -/
def Obligations.LeavingTheTorusComplete : Prop :=
  -- MODULE_LEAVE (R497): the module leaves: no serving, the limit counts, the command held open
  (∀ (c : Cmd) (s : State), s.Takes c → c.bodyWords = 1 → c.f 0 1 15 = 0 → c.f 0 32 32 = 0 → c.f 0 16 16 ≤ 3600 → c.b 0 0 = false → s.modState = msReady → s.md.leave = 0 →
     Completes (.moduleLeave c) s fun t =>
       t.modState = msLeaving ∧ t.md.leave = 1 ∧ t.md.leaveDue = s.elapsed + 1000000000 * (if c.f 0 16 16 = 0 then 30 else c.f 0 16 16) ∧
       t.rf R.SERVE_SERVE_EN 0 = 0 ∧ t.md.leaveCmd = some (c.qp, c.cmdId) ∧ (t.openCmd c.qp c.cmdId).any fun o => o.effect) ∧
  -- LEAVE_DRAIN_DONE (R497): with nothing left the routes are withdrawn, stamped
  (∀ s : State, s.md.leave = 1 → s.reqs = [] → s.nothingBound = true →
     Completes .leaveDrainDone s fun t => t.md.leave = 2 ∧ t.md.withdrawn = true ∧ t.rf R.MOD1_LEAVE_STAMP 0 = s.now % 2 ^ 64) ∧
  -- LEAVE_LIMIT (R497): at the limit the routes are withdrawn, stamped
  (∀ s : State, s.md.leave = 1 → s.md.leaveDue ≤ s.elapsed →
     Completes .leaveLimit s fun t => t.md.leave = 2 ∧ t.md.withdrawn = true ∧ t.rf R.MOD1_LEAVE_STAMP 0 = s.now % 2 ^ 64)

/-- The image of an S-core and firmware chunks. Each clause: where the command completes and what it leaves. The model's choice: chunks are
counted as log 33 says. -/
def Obligations.CoreImagesComplete : Prop :=
  -- CORE_IMAGE_CHUNK (R427): the chunk is kept, those before it too, and BROADCAST_ACTIVE is 1
  (∀ (ck n : Nat) (data : List Nat) (s : State), s.takesImage ck = true → n < 128 →
     Completes (.coreImageChunk ck n data) s fun t =>
       n ∈ (t.scSt ck).imgChunks ∧ (∀ m ∈ (s.scSt ck).imgChunks, m ∈ (t.scSt ck).imgChunks) ∧ t.rf R.CARAVAN_BROADCAST_ACTIVE 0 = 1) ∧
  -- CORE_IMAGE_END (R427): the report says whether every chunk came, which did not, and whether the code region has the digest; nothing else changes
  (∀ (ck count digest : Nat) (s : State), s.takesImage ck = true →
     Completes (.coreImageEnd ck count digest) s fun t =>
       t = { s with sc := t.sc } ∧ t.scSt ck = { s.scSt ck with
         imgLen := count,
         imgReport := some (decide (Config.sha384 (s.codeRegion ck) = digest) &&
             ((List.range (min 128 count)).filter fun n => !(s.scSt ck).imgChunks.contains n).isEmpty,
           (List.range (min 128 count)).filter fun n => !(s.scSt ck).imgChunks.contains n) }) ∧
  -- CORE_IMAGE_REPORT (R427): with a good report the S-core runs from BOOT_ADDR with its code locked
  (∀ (ck : Nat) (l : List Nat) (s : State), (s.scSt ck).imgReport = some (true, l) →
     Completes (.coreImageReport ck) s fun t =>
       t.rf R.SCORE_RUNNING ck = 1 ∧ t.rf R.SCORE_RUN ck = 1 ∧ t.rf R.SCORE_CODE_LOCK ck = 1 ∧ (t.scSt ck).imgReport = none ∧
       (t.scSt ck).imgChunks = [] ∧ (t.scSt ck).pc = s.rf R.SCORE_BOOT_ADDR ck ∧ (t.scSt ck).mode = 3) ∧
  -- FW_CHUNK (R426): the chunk joins those of the open update, with whom it came from and the time, that a missing one can be asked for; nothing else
  -- changes
  (∀ (f : Frame) (s : State), s.oa.stage.isSome = true → s.oa.stageHost = false →
     Completes (.fwChunk f) s fun t =>
       t = { s with oa := { s.oa with
         fwFrom := some (f.src, f.words.getD 1 0), fwLast := s.elapsed,
         fwChunks := if s.oa.fwChunks.any fun g => g.1 = f.words.getD 3 0 then s.oa.fwChunks
           else s.oa.fwChunks ++ [(f.words.getD 3 0, f.words.getD 4 0)] } })

/-- Firmware updates. Each clause: where the command completes and what it leaves. The model's choice: signatures come as operands (log 33). -/
def Obligations.FirmwareUpdatesComplete : Prop :=
  -- FW_UPDATE_STAGE (R524): an update opens with its slot, way and source
  (∀ (c : Cmd) (slot : Nat) (s : State), s.Takes c → c.bodyWords = 9 → c.f 0 0 2 = 0 → fwBad c 0 = false → s.rb R.OASIS3_UPDATE_OPEN 0 = false →
     s.fwSlot = some slot →
     Completes (.fwUpdateStage c) s fun t =>
       t.rf R.OASIS3_UPDATE_OPEN 0 = 1 ∧ t.rf R.OASIS3_BYTES_DONE 0 = 0 ∧ t.oa.stage = some (c.qp, c.cmdId, slot) ∧
       t.oa.stageHost = !c.b 0 2 ∧ t.oa.stageNext = (if c.b 0 3 then some (c.f 0 5 15) else none)) ∧
  -- FW_STAGE_DONE (R524): a good image with nothing staged behind it: the slot holds the staged version and the update is closed with status 0
  (∀ (version security bytes qp id slot : Nat) (sections : List Nat) (raise : Bool) (s : State), s.oa.stage = some (qp, id, slot) → s.oa.stageHost = false →
     s.oa.stageNext = none → s.oa.fwFrom = none →
     Completes (.fwStageDone 0 version security raise { bytes := bytes, sections := sections }) s fun t =>
       t.rf R.OASIS3_UPDATE_OPEN 0 = 0 ∧ t.rf (slotStateF slot) 0 = 1 ∧ t.rf (slotVersionF slot) 0 = version % 2 ^ 32 ∧
       t.rf (slotSecurityF slot) 0 = security % 2 ^ 32 ∧ t.rf R.OASIS3_BYTES_DONE 0 = bytes % 2 ^ 32 ∧ t.rf R.OASIS3_LAST_USTATUS 0 = 0 ∧
       t.oa.stage = none) ∧
  -- FW_UPDATE_ACTIVATE (R524): the trial image starts by a cold reset
  (∀ (c : Cmd) (u : Nat) (s : State), s.Takes c → c.bodyWords = 9 → c.f 0 0 2 = 1 → fwBad c 1 = false → s.rb R.OASIS3_UPDATE_OPEN 0 = false →
     s.trialSlot = some u → s.reqs = [] → s.thermalHold = false →
     Completes (.fwUpdateActivate c) s fun t => t.modState = msRom ∧ t.oa.activated = true ∧ t.cmds = []) ∧
  -- FW_UPDATE_COMMIT (R524): the running trial slot becomes committed and the answer holds its version
  (∀ (c : Cmd) (s : State), s.Takes c → c.bodyWords = 9 → c.f 0 0 2 = 2 → fwBad c 2 = false → s.rb R.OASIS3_UPDATE_OPEN 0 = false →
     s.rb R.OASIS3_RUNNING_TRIAL 0 = true →
     Completes (.fwUpdateCommit c) s fun t =>
       t.rf R.OASIS3_RUNNING_TRIAL 0 = 0 ∧ t.rf R.OASIS3_LAST_USTATUS 0 = 0 ∧ t.rf R.OASIS3_LAST_OP 0 = 2 ∧
       t.rf R.OASIS3_LAST_UPDATE_STAMP 0 = s.now % 2 ^ 64 ∧ t.rf (slotStateF (s.rf R.OASIS3_RUNNING_SLOT 0)) 0 = 2 ∧
       s.Answered t c 0x48 [0, s.rf (slotVersionF (s.rf R.OASIS3_RUNNING_SLOT 0)) 0, 0]) ∧
  -- FW_UPDATE_DISCARD (R524): the trial slot is empty and the answer holds its version
  (∀ (c : Cmd) (u : Nat) (s : State), s.Takes c → c.bodyWords = 9 → c.f 0 0 2 = 3 → fwBad c 3 = false → s.rb R.OASIS3_UPDATE_OPEN 0 = false →
     s.trialSlot = some u → s.rb R.OASIS3_RUNNING_TRIAL 0 = false →
     Completes (.fwUpdateDiscard c) s fun t =>
       t.rf (slotStateF u) 0 = 0 ∧ t.rf R.OASIS3_LAST_USTATUS 0 = 0 ∧ t.rf R.OASIS3_LAST_OP 0 = 3 ∧
       t.rf R.OASIS3_LAST_UPDATE_STAMP 0 = s.now % 2 ^ 64 ∧ s.Answered t c 0x48 [0, s.rf (slotVersionF u) 0, 0])

/-- Conversions, the comparators, the slow round and the limits of a partition. Each clause: where the command completes and what it leaves.
The model's choice: a conversion's code is an operand (log 31). -/
def Obligations.SensingComplete : Prop :=
  -- CONVERSION_END (R531): the result is in its entry with channel, time and count, or in the urgent result
  (∀ (i code n ch : Nat) (s : State), i < 2 → ((s.convSt i).running = some ch ∨ (s.convSt i).running = none ∧ s.rb R.MONCONV_RUN i = true ∧
       (s.convSt i).entry = n ∧ n < (s.seqNow i).length ∧ (s.seqNow i).getD n 0 = ch) →
     Completes (.conversionEnd i code) s fun t =>
       ((s.convSt i).running = none → t.rf R.MONCONV1_CODE i n = code % 4096 ∧ t.rf R.MONCONV1_CHANNEL i n = ch % 64 ∧ t.rf R.MONCONV1_VALID i n = 1 ∧
         t.rf R.MONCONV1_STAMP_LO i n = s.now % 2 ^ 32 ∧ t.rf R.MONCONV1_COUNT i n = (s.rf R.MONCONV1_COUNT i n + 1) % 2 ^ 8) ∧
       ((s.convSt i).running ≠ none → t.rf R.MONCONV1_URGENT_STAMP i = s.now % 2 ^ 64 ∧
         t.rf R.MONCONV1_URGENT_RESULT i = resultWord (code % 4096) ch false (s.rf R.MONCONV_URGENT_COUNT i + 1) % 2 ^ 32)) ∧
  -- OVERCURRENT_COMPARATOR (R533): the urgent channel waits, or runs at once in place of the sequence's
  (∀ (i n ch : Nat) (s : State), i < 2 → ch = (if n < 4 then 49 + n else 55) → (s.convSt i).urgent.contains ch = false → (s.convSt i).urgent.length < 4 →
     Completes (.overcurrentComparator i n) s fun t =>
       ((s.convSt i).running ≠ none → (t.convSt i).urgent = (s.convSt i).urgent ++ [ch]) ∧
       ((s.convSt i).running = none ∧ s.rb R.MONCONV_RUN i = true ∧ (s.convSt i).aborts < 3 ∧ (s.convSt i).urgent = [] →
         (t.convSt i).running = some ch ∧ (t.convSt i).urgent = [] ∧ (t.convSt i).restarted = true) ∧
       t.sen.oc48 = (s.sen.oc48 || decide (4 ≤ n))) ∧
  -- URGENT_GO (R533): an idle converter converts the channel named
  (∀ (m : Master) (i w : Nat) (s : State), s.Writes m (monPage i) 0x128 (w ||| 0x40) → (s.convSt i).urgent = [] →
     (s.convSt i).running = none → s.rb R.MONCONV_RUN i = false →
     Completes (.urgentGo m i w) s fun t => t.convSt i = { s.convSt i with running := some ((w ||| 0x40) % 64) }) ∧
  -- SLOW_ROUND (R535): the round is run once, overruns counted, and the cap in effect is the lower one
  (∀ (thbm : List (Option Int)) (tele peak ohm late : Nat) (short : Bool) (s : State), s.elapsed % 2000000 = 0 → s.sen.roundAt ≠ s.elapsed + 1 →
     s.rb R.OASIS_RESTARTING 0 = false → s.md.powered = true →
     Completes (.slowRound thbm tele peak ohm short late) s fun t =>
       t.sen.roundAt = s.elapsed + 1 ∧ t.oa.roundAt = s.elapsed ∧
       t.rf R.THERMAL_ROUND_OVERRUNS 0 = min (2 ^ 32 - 1) (s.rf R.THERMAL_ROUND_OVERRUNS 0 + late) ∧
       t.rf R.PWRCAP_EFFECTIVE_CAP 0 = min (s.rf R.PWRCAP_CAP_W 0) (s.rf R.PWRCAP_BOARD_CAP 0)) ∧
  -- THROTTLE_ESCALATE (R538): after 100 ms the partition's limit goes one step down
  (∀ (p since : Nat) (s : State), p < 4 → Tbl.get? s.sen.hotSince p = some since → bitsOf (s.rf R.THERMAL_PART_LIMIT 0) (2 * p) 2 = 1 → since + 100000000 ≤ s.elapsed →
     Completes (.throttleEscalate p) s fun t => t.rf R.THERMAL_PART_LIMIT 0 = s.rf R.THERMAL_PART_LIMIT 0 + 4 ^ p) ∧
  -- UNDERVOLTAGE_END (R546): the partition's undervoltage stretch is over
  (∀ (p due : Nat) (s : State), p < 4 → Tbl.get? s.sen.uvUntil p = some due → due ≤ s.elapsed →
     Completes (.undervoltageEnd p) s fun t => t.sen.uvUntil = Tbl.del s.sen.uvUntil p ∧ Tbl.get? t.sen.uvUntil p = none)

/-- Commands on the sideband. Each clause: where the command completes and what it leaves. The model's choice: commands arrive whole (log
32). -/
def Obligations.SidebandComplete : Prop :=
  -- SB_SETDASA (R559): the static address takes the dynamic one; nothing else changes
  (∀ (dyn : Nat) (s : State), s.md.powered = true →
     Completes (.sbSetdasa (s.rf R.BOARD_SB_ADDR 0) dyn) s fun t => t = { s with md := { s.md with sbAddr := some (dyn % 128) } }) ∧
  -- SB_ENTDAA (R559): the module takes the dynamic address; nothing else changes
  (∀ (dyn : Nat) (s : State), s.md.powered = true → s.md.sbAddr = none →
     Completes (.sbEntdaa dyn) s fun t => t = { s with md := { s.md with sbAddr := some (dyn % 128) } }) ∧
  -- SB_IDENT (R560): part, serial and slot are answered and counted; a bad exchange is answered 0 and counted
  (∀ (pecOk early : Bool) (s : State), s.md.powered = true →
     Completes (.sbIdent pecOk early) s fun t =>
       (pecOk = true ∧ early = false → t.out = .sideband (1 :: (bytesOf (s.rf R.MOD_PART_NUMBER 0) 8 ++ bytesOf (s.rf R.MOD_SERIAL 0) 8 ++ [0xA1, s.rf R.MOD_SLOT 0, 0, 0])) :: s.out ∧
         t.rf R.BOARD_SB_COMMANDS 0 = min (2 ^ 32 - 1) (s.rf R.BOARD_SB_COMMANDS 0 + 1)) ∧
       (¬ (pecOk = true ∧ early = false) → t.out = .sideband [0] :: s.out ∧ t.rf R.BOARD_SB_ERRORS 0 = min (2 ^ 32 - 1) (s.rf R.BOARD_SB_ERRORS 0 + 1))) ∧
  -- SB_STATE (R560): state and fail cause are answered and ALERT cleared; a bad exchange is answered 0 and counted
  (∀ (pecOk early : Bool) (s : State), s.md.powered = true →
     Completes (.sbState pecOk early) s fun t =>
       (pecOk = true ∧ early = false → t.md.alert = false ∧ t.out.head? = some (.sideband (1 :: ([s.modState, s.rf R.MOD1_FAIL_CAUSE 0] ++ bytesOf (s.rf R.MOD1_FAIL_DETAIL 0) 2))) ∧
         t.rf R.BOARD_SB_COMMANDS 0 = min (2 ^ 32 - 1) (s.rf R.BOARD_SB_COMMANDS 0 + 1)) ∧
       (¬ (pecOk = true ∧ early = false) → t.out = .sideband [0] :: s.out ∧ t.rf R.BOARD_SB_ERRORS 0 = min (2 ^ 32 - 1) (s.rf R.BOARD_SB_ERRORS 0 + 1))) ∧
  -- SB_THERMAL (R560): the temperatures and flags are answered; a bad exchange is answered 0 and counted
  (∀ (pecOk early : Bool) (s : State), s.md.powered = true →
     Completes (.sbThermal pecOk early) s fun t =>
       (pecOk = true ∧ early = false → t.out = .sideband (1 :: (bytesOf (fieldOfInt 16 (s.value 43)) 2 ++ bytesOf (fieldOfInt 16 (s.value 44)) 2 ++
         bytesOf (fieldOfInt 16 (s.hottest ((List.range 32).map (· + 1)))) 2 ++ bytesOf (fieldOfInt 16 (s.hottest ((List.range 12).map (· + 64)))) 2 ++
         [(tempSensors.map fun n => s.rf R.THERMAL_TRIP 0 n).foldl max 0, s.rf R.THERMAL_SENSOR_FAULT 0, s.rf R.THERMAL_FLOOR_NOW 0, 0])) :: s.out ∧
         t.rf R.BOARD_SB_COMMANDS 0 = min (2 ^ 32 - 1) (s.rf R.BOARD_SB_COMMANDS 0 + 1)) ∧
       (¬ (pecOk = true ∧ early = false) → t.out = .sideband [0] :: s.out ∧ t.rf R.BOARD_SB_ERRORS 0 = min (2 ^ 32 - 1) (s.rf R.BOARD_SB_ERRORS 0 + 1))) ∧
  -- SB_POWER (R560): powers, input and level are answered; a bad exchange is answered 0 and counted
  (∀ (pecOk early : Bool) (s : State), s.md.powered = true →
     Completes (.sbPower pecOk early) s fun t =>
       (pecOk = true ∧ early = false → t.out = .sideband (1 :: (bytesOf (s.rf R.PWRCAP_P_LAST_W 0) 2 ++ bytesOf (s.rf R.PWRCAP_P_AVG_W 0) 2 ++ bytesOf s.sen.v48 2 ++ bytesOf s.sen.i48 2 ++
         bytesOf (s.rf R.PWRCAP_EFFECTIVE_CAP 0) 2 ++ [s.rf R.PWRCAP_LEVEL 0, 0])) :: s.out ∧
         t.rf R.BOARD_SB_COMMANDS 0 = min (2 ^ 32 - 1) (s.rf R.BOARD_SB_COMMANDS 0 + 1)) ∧
       (¬ (pecOk = true ∧ early = false) → t.out = .sideband [0] :: s.out ∧ t.rf R.BOARD_SB_ERRORS 0 = min (2 ^ 32 - 1) (s.rf R.BOARD_SB_ERRORS 0 + 1))) ∧
  -- SB_BOARD_CAP (R560): a legal cap is set and takes effect; a bad exchange is answered 0 and counted
  (∀ (pecOk : Bool) (w : Nat) (s : State), s.md.powered = true → w < 65536 → capLegal w = true →
     Completes (.sbBoardCap pecOk w) s fun t =>
       (pecOk = true → t.out.head? = some (.sideband [1]) ∧ t.rf R.PWRCAP_BOARD_CAP 0 = w ∧ t.rf R.PWRCAP_EFFECTIVE_CAP 0 = min (s.rf R.PWRCAP_CAP_W 0) w ∧
         t.rf R.BOARD_SB_COMMANDS 0 = min (2 ^ 32 - 1) (s.rf R.BOARD_SB_COMMANDS 0 + 1)) ∧
       (pecOk = false → t.out = .sideband [0] :: s.out ∧ t.rf R.BOARD_SB_ERRORS 0 = min (2 ^ 32 - 1) (s.rf R.BOARD_SB_ERRORS 0 + 1))) ∧
  -- SB_FAULTS (R560): the faults are answered and ALERT cleared; a bad exchange is answered 0 and counted
  (∀ (pecOk early : Bool) (s : State), s.md.powered = true →
     Completes (.sbFaults pecOk early) s fun t =>
       (pecOk = true ∧ early = false → t.md.alert = false ∧ t.out.head? = some (.sideband (1 :: (bytesOf (s.rf R.BOARD_FAULTS 0) 2 ++ bytesOf (s.rf R.BOARD_FAULTS_NOW 0) 2))) ∧
         t.rf R.BOARD_SB_COMMANDS 0 = min (2 ^ 32 - 1) (s.rf R.BOARD_SB_COMMANDS 0 + 1)) ∧
       (¬ (pecOk = true ∧ early = false) → t.out = .sideband [0] :: s.out ∧ t.rf R.BOARD_SB_ERRORS 0 = min (2 ^ 32 - 1) (s.rf R.BOARD_SB_ERRORS 0 + 1))) ∧
  -- SB_FAULT_CLEAR (R560): the faults named are cleared unless present; a bad exchange is answered 0 and counted
  (∀ (pecOk : Bool) (mask : Nat) (s : State), s.md.powered = true →
     Completes (.sbFaultClear pecOk mask) s fun t =>
       (pecOk = true → t.out = .sideband [1] :: s.out ∧
         t.rf R.BOARD_FAULTS 0 = (s.rf R.BOARD_FAULTS 0 - (s.rf R.BOARD_FAULTS 0 &&& mask % 65536)) ||| s.rf R.BOARD_FAULTS_NOW 0 ∧
         t.rf R.BOARD_SB_COMMANDS 0 = min (2 ^ 32 - 1) (s.rf R.BOARD_SB_COMMANDS 0 + 1)) ∧
       (pecOk = false → t.out = .sideband [0] :: s.out ∧ t.rf R.BOARD_SB_ERRORS 0 = min (2 ^ 32 - 1) (s.rf R.BOARD_SB_ERRORS 0 + 1)))

/-- Power and pins. Each clause: where the command completes and what it leaves. The model's choice: pins change by their rows (log 32). -/
def Obligations.PowerAndPinsComplete : Prop :=
  -- POWER_LOSS (R554): the module is unpowered and in ROM
  (∀ s : State, s.md.powered = true → Completes .powerLoss s fun t => t.md.powered = false ∧ t.md.pwrgd = false ∧ t.md.started = false ∧ t.modState = msRom) ∧
  -- INPUT_REVERSED (R555): the module is unpowered with the reverse latch set
  (∀ s : State, s.md.powered = true → Completes .inputReversed s fun t => t.md.powered = false ∧ t.md.reverseLatch = true ∧ t.modState = msRom) ∧
  -- RESET_N_ASSERT (R558): the module is held in reset in ROM, flash released
  (∀ s : State, s.md.powered = true → s.md.started = true → s.thermalHold = false →
     Completes .resetNAssert s fun t => t.md.resetN = true ∧ t.md.started = false ∧ t.rf R.BOARD_FLASH_OWNED 0 = 0 ∧ t.modState = msRom) ∧
  -- POWER_APPLIED (R554): powered, PWRGD, the power-on counted, a reverse event counted where latched
  (∀ s : State, s.md.powered = false →
     Completes .powerApplied s fun t =>
       t.md.powered = true ∧ t.md.pwrgd = true ∧ t.md.reverseLatch = false ∧ t.rf R.OASIS1_POWER_ON 0 = (s.rf R.OASIS1_POWER_ON 0 + 1) % 2 ^ 12 ∧
       (s.md.reverseLatch = true → t.rf R.BOARD_REVERSE_EVENTS 0 = min 65535 (s.rf R.BOARD_REVERSE_EVENTS 0 + 1))) ∧
  -- INPUT_OVERVOLTAGE (R554): the module is unpowered and its pin says so
  (∀ s : State, s.md.powered = true → Completes .inputOvervoltage s fun t => t.md.powered = false ∧ t.modState = msRom ∧ t.out.head? = some (.pin 2 false)) ∧
  -- RAIL_OUT_OF_REGULATION (R557): PWRGD falls; nothing else changes
  (∀ s : State, s.md.pwrgd = true → Completes .railOutOfRegulation s fun t => t = { s with md := { s.md with pwrgd := false }, out := .pin 0 false :: s.out })
end

