-- ==== Sys2Proof/Laws/Access.lean ====
section
/-! SUPPORT. A master's read or write of a register that no check stops. -/

namespace Sys2Proof.Machine

/-- An implemented page's address is in the register window and names the page (R36). -/
theorem Page.exists_bounds {p : Page} (h : p.exists_ = true) : p.blk < 256 ∧ p.inst < 65536 ∧ p.page < 16 := by
  unfold Page.exists_ at h
  split at h
  · simp only [Bool.and_eq_true, decide_eq_true_eq] at h; omega
  · split at h
    · rename_i h1
      simp only [Bool.and_eq_true, decide_eq_true_eq] at h; omega
    · split at h
      · simp only [Bool.and_eq_true, decide_eq_true_eq] at h; omega
      · split at h
        · simp only [Bool.and_eq_true, decide_eq_true_eq] at h; omega
        · split at h
          · simp only [Bool.and_eq_true, decide_eq_true_eq] at h; omega
          · simp only [plainBlocks, List.any_cons, List.any_nil, Bool.or_eq_true, Bool.and_eq_true, decide_eq_true_eq, Bool.or_false] at h
            omega

theorem Page.addr_facts {p : Page} {off : Nat} (h : p.exists_ = true) (ho : off < 4096) :
    inWindow (p.addr + off) = true ∧ ¬ p.addr + off < 2 ^ 40 ∧ Page.ofIndex ((p.addr + off) / 4096 % 2 ^ 28) = p ∧
    (p.addr + off) % 4096 = off ∧ p.addr + off < 0x300000000000 := by
  obtain ⟨h1, h2, h3⟩ := Page.exists_bounds h
  obtain ⟨b, i, q⟩ := p
  dsimp only at h1 h2 h3
  unfold inWindow Page.addr Page.index Page.ofIndex
  simp only [Bool.and_eq_true, decide_eq_true_eq, Page.mk.injEq]
  refine ⟨⟨?_, ?_⟩, ?_, ⟨?_, ?_, ?_⟩, ?_, ?_⟩ <;> omega

/-- R220, R223: no exception of an aligned 64-bit load or store in the register window. -/
theorem State.accessCause_window (s : State) {ck a k : Nat} (h1 : inWindow a = true) (h2 : a % 8 = 0) (hk : k < 2) :
    s.accessCause ck a 8 k = none := by
  unfold inWindow at h1
  simp only [Bool.and_eq_true, decide_eq_true_eq] at h1
  have r1 : scoreRegion ck a = 3 := by
    unfold scoreRegion
    rw [if_neg (by omega), if_neg (by omega), if_pos (by omega)]
  have r2 : scoreRegion ck (a + 7) = 3 := by
    unfold scoreRegion
    rw [if_neg (by omega), if_neg (by omega), if_pos (by omega)]
  have hk2 : ¬ 2 ≤ k := by omega
  unfold State.accessCause
  simp [r1, r2, h2, hk2]

/-- R38: a store of a host is the word's write. -/
theorem State.masterStore_word (s : State) {m : Master} (h : ∀ ck, m ≠ .score ck) (h2 : m ≠ .oasis) (a w : Nat) :
    s.masterStore m a w = (s.wordWrite m a w).2 := by
  cases m with
  | score ck => exact absurd rfl (h ck)
  | oasis => exact absurd rfl h2
  | _ => rfl

/-- R59: a store of Oasis is the word's write, with its response. -/
theorem State.masterStore_oasis (s : State) (a w : Nat) :
    ∃ y, s.masterStore .oasis a w = { (s.wordWrite .oasis a w).2 with resp := y } := ⟨_, rfl⟩

/-- R221: an S-core's store in the register window is its register access. -/
theorem State.masterStore_score (s : State) {ck a w : Nat} (h : ¬ (0x300000000000 ≤ a ∧ a < 0x300000001000)) (h2 : inWindow a = true) :
    s.masterStore (.score ck) a w = s.scoreAccess ck (s.scSt ck).pc a 8 (some w) := by
  unfold State.masterStore
  simp only [h, h2, if_false, if_true]

/-- R221: a register written by an S-core with no check stopping it, and the result OK in its CSR. -/
theorem State.scoreAccess_of {s u : State} {ck a w : Nat} {p : Page} (pc : Nat) (h1 : s.scoreRuns ck = true) (h2 : inWindow a = true)
    (h3 : Page.ofIndex (a / 4096 % 2 ^ 28) = p) (h4 : a % 8 = 0) (hw : s.writeReg (.score ck) p (a % 4096) w = (0, u)) :
    ∃ x, s.scoreAccess ck pc a 8 (some w) = { u with sc := x } := by
  unfold State.scoreAccess
  simp only [h1, h2, h3, hw, s.accessCause_window h2 h4 (show bit (some w).isSome < 2 from Nat.lt_succ_self 1), Bool.not_true, Bool.or_self, Bool.false_eq_true,
    if_false, ne_eq, not_true]
  exact ⟨_, rfl⟩

/-- R38: a word written to the register window with no check stopping it. -/
theorem State.wordWrite_of {s u : State} {m : Master} {a w : Nat} {p : Page} (h1 : ¬ a < 2 ^ 40) (h2 : inWindow a = true)
    (h3 : Page.ofIndex (a / 4096 % 2 ^ 28) = p) (hw : s.writeReg m p (a % 4096) w = (0, u)) : (s.wordWrite m a w).2 = u := by
  unfold State.wordWrite
  simp only [h1, h2, h3, hw, if_false, if_true]

/-- R38, R59, R221: a word stored in the register window with no check stopping it: the write's effect, an S-core's result in its CSR, Oasis's
response. -/
theorem State.pageStore_of {s u : State} {m : Master} {p : Page} {off w : Nat} (ha : s.acts m = true) (h3 : off < 4096) (h4 : p.exists_ = true)
    (h5 : off % 8 = 0) (hw : s.writeReg m p off w = (0, u)) : ∃ x y, s.pageStore m p off w = { u with sc := x, resp := y } := by
  obtain ⟨a1, a2, a3, a4, a5⟩ := Page.addr_facts h4 h3
  have h8 : (p.addr + off) % 8 = 0 := by omega
  have hw' : s.writeReg m p ((p.addr + off) % 4096) w = (0, u) := by rw [a4]; exact hw
  unfold State.pageStore
  cases m with
  | score ck =>
    obtain ⟨x, e⟩ := State.scoreAccess_of (s.scSt ck).pc ha a1 a3 h8 hw'
    exact ⟨x, u.resp, (s.masterStore_score (by omega) a1).trans e⟩
  | oasis =>
    obtain ⟨y, e⟩ := s.masterStore_oasis (p.addr + off) w
    exact ⟨u.sc, y, e.trans (by rw [State.wordWrite_of a2 a1 a3 hw'])⟩
  | _ => exact ⟨u.sc, u.resp, (s.masterStore_word (fun _ => Master.noConfusion) Master.noConfusion _ _).trans (State.wordWrite_of a2 a1 a3 hw')⟩

/-- A store that no check stops, to a register of the block: the write's effect, and for an S-core the result OK in its CSR. -/
theorem State.Writes.store {s : State} {m : Master} {p : Page} {off w : Nat} (h : s.Writes m p off w) (ho : 0x100 ≤ off) {c : Nat} {u : State}
    (hu : s.writeBlock m p off w = (0, c, u)) : ∃ x y, s.pageStore m p off w = { u with sc := x, resp := y } := by
  obtain ⟨⟨h1, h2, h3, h4, h5, h6⟩, h7, h8, h9, h10, h11, h12⟩ := h
  obtain ⟨a1, a2, a3, a4, a5⟩ := Page.addr_facts h4 h3
  obtain ⟨h6a, h6b⟩ := h6 ho
  have h8' := h8 ho
  have h9' := h9 ho
  have hw : s.writeReg m p off w = (0, u) := by
    unfold State.writeReg
    rw [Nat.mod_eq_of_lt h7]
    have hr : (s.pageRestore p && decide (m ≠ .oasis)) = false := by
      cases hp : s.pageRestore p
      · rfl
      · simp [h8' hp]
    have hg : (p.guarded && writable p off && !s.ownsPage m p) = false := by
      cases e1 : p.guarded <;> cases e2 : writable p off <;> simp_all
    have ho2 : ¬ off = 0x20 := by omega
    have ho3 : ¬ off < 0x100 := by omega
    simp only [h4, h2, h5, h6a, h6b, hr, h10, ho2, h12, ho3, ho, hu, Bool.not_true, Bool.false_eq_true, if_false, ne_eq,
      not_true, Bool.or_self, Bool.and_false, decide_true, Bool.true_and, decide_false, Bool.false_and, arOk, if_true]
    rw [hg]
    simp
  exact State.pageStore_of h1 h3 h4 h2 hw

/-- A store that no check stops, to a word of the common header. -/
theorem State.Writes.header {s : State} {m : Master} {p : Page} {off w : Nat} (h : s.Writes m p off w) (ho : off < 0x100) :
    ∃ x y, s.pageStore m p off w = { s.writeHeader m p off w with sc := x, resp := y } := by
  obtain ⟨⟨h1, h2, h3, h4, h5, h6⟩, h7, h8, h9, h10, h11, h12⟩ := h
  obtain ⟨a1, a2, a3, a4, a5⟩ := Page.addr_facts h4 h3
  have hw : s.writeReg m p off w = (0, s.writeHeader m p off w) := by
    unfold State.writeReg
    rw [Nat.mod_eq_of_lt h7]
    have hc : (decide (off = 0x20) && w.testBit 8 && p.resetDom.isSome && decide (m.code = 4)) = false := by
      by_cases e1 : off = 0x20
      · cases e2 : w.testBit 8
        · simp
        · cases e3 : p.resetDom
          · simp
          · simp [h11 e1 e2 (by rw [e3]; exact Option.some_ne_none _)]
      · simp [e1]
    have ho3 : ¬ 0x100 ≤ off := by omega
    simp only [h4, h2, h5, h10, h12, ho3, ho, hc, Bool.not_true, Bool.false_eq_true, if_false, ne_eq,
      not_true, decide_false, Bool.false_and, arOk, if_true]
  exact State.pageStore_of h1 h3 h4 h2 hw

end Sys2Proof.Machine
end

