-- ==== Sys2Proof/Laws/Tbl.lean ====
section
/-! SUPPORT. Read-after-write laws of sparse tables, and that writing keeps the canonical form. -/

namespace Sys2Proof.Machine

variable {α : Type}

theorem Tbl.get_del_same (t : Tbl α) (x : Nat) : Tbl.get? (Tbl.del t x) x = none := by
  induction t with
  | nil => rfl
  | cons e t ih =>
    obtain ⟨k, v⟩ := e
    by_cases h : k = x
    · simpa [Tbl.del, h] using ih
    · simpa [Tbl.del, Tbl.get?, h] using ih

theorem Tbl.get_del_ne (t : Tbl α) {x y : Nat} (h : y ≠ x) : Tbl.get? (Tbl.del t x) y = Tbl.get? t y := by
  induction t with
  | nil => rfl
  | cons e t ih =>
    obtain ⟨k, v⟩ := e
    by_cases hk : k = x
    · subst hk
      simpa [Tbl.del, Tbl.get?, Ne.symm h] using ih
    · simp only [Tbl.del, hk, if_false, Tbl.get?, ih]

theorem Tbl.get_ins_ne (t : Tbl α) {x y : Nat} (a : α) (h : y ≠ x) : Tbl.get? (Tbl.ins t x a) y = Tbl.get? t y := by
  induction t with
  | nil => simp [Tbl.ins, Tbl.get?, Ne.symm h]
  | cons e t ih =>
    obtain ⟨k, v⟩ := e
    by_cases hk : x < k
    · simp [Tbl.ins, hk, Tbl.get?, Ne.symm h]
    · simp only [Tbl.ins, hk, if_false, Tbl.get?, ih]

theorem Tbl.get_ins_same (t : Tbl α) (x : Nat) (a : α) (h : Tbl.get? t x = none) : Tbl.get? (Tbl.ins t x a) x = some a := by
  induction t with
  | nil => simp [Tbl.ins, Tbl.get?]
  | cons e t ih =>
    obtain ⟨k, v⟩ := e
    by_cases hk : k = x
    · simp [Tbl.get?, hk] at h
    · simp only [Tbl.get?, hk, if_false] at h
      by_cases hx : x < k
      · simp [Tbl.ins, hx, Tbl.get?]
      · simp only [Tbl.ins, hx, if_false, Tbl.get?, hk]
        exact ih h

/-- A read of the key just written. -/
@[simp] theorem Tbl.get_put_same (t : Tbl α) (x : Nat) (a : α) : Tbl.get? (Tbl.put t x a) x = some a :=
  Tbl.get_ins_same _ _ _ (Tbl.get_del_same _ _)

/-- A read of another key. -/
theorem Tbl.get_put_ne (t : Tbl α) {x y : Nat} (a : α) (h : y ≠ x) : Tbl.get? (Tbl.put t x a) y = Tbl.get? t y := by
  rw [Tbl.put, Tbl.get_ins_ne _ _ h, Tbl.get_del_ne _ h]

@[simp] theorem Tbl.getD_put_same (t : Tbl α) (x : Nat) (a d : α) : Tbl.getD (Tbl.put t x a) x d = a := by
  simp [Tbl.getD]

theorem Tbl.getD_put_ne (t : Tbl α) {x y : Nat} (a d : α) (h : y ≠ x) : Tbl.getD (Tbl.put t x a) y d = Tbl.getD t y d := by
  simp [Tbl.getD, Tbl.get_put_ne t a h]

/-- Every entry satisfies a condition on its key and value. -/
def Tbl.All (p : Nat → α → Prop) (t : Tbl α) : Prop := ∀ e ∈ t, p e.1 e.2

theorem Tbl.mem_del {t : Tbl α} {x : Nat} {e : Nat × α} (h : e ∈ Tbl.del t x) : e ∈ t ∧ e.1 ≠ x := by
  induction t with
  | nil => simp [Tbl.del] at h
  | cons f t ih =>
    obtain ⟨k, v⟩ := f
    by_cases hk : k = x
    · simp only [Tbl.del, hk, if_true] at h
      exact ⟨List.mem_cons_of_mem _ (ih h).1, (ih h).2⟩
    · simp only [Tbl.del, hk, if_false, List.mem_cons] at h
      rcases h with rfl | h
      · exact ⟨List.mem_cons_self, hk⟩
      · exact ⟨List.mem_cons_of_mem _ (ih h).1, (ih h).2⟩

theorem Tbl.mem_ins {t : Tbl α} {x : Nat} {a : α} {e : Nat × α} (h : e ∈ Tbl.ins t x a) : e = (x, a) ∨ e ∈ t := by
  induction t with
  | nil => simpa [Tbl.ins] using h
  | cons f t ih =>
    obtain ⟨k, v⟩ := f
    by_cases hk : x < k
    · simp only [Tbl.ins, hk, if_true, List.mem_cons] at h
      simp only [List.mem_cons]
      tauto
    · simp only [Tbl.ins, hk, if_false, List.mem_cons] at h
      simp only [List.mem_cons]
      rcases h with h | h
      · exact Or.inr (Or.inl h)
      · rcases ih h with h | h
        · exact Or.inl h
        · exact Or.inr (Or.inr h)

/-- Strictly rising keys, as a relation on the list. -/
theorem Tbl.rising_iff (t : Tbl α) : Tbl.rising t = true ↔ t.Pairwise (fun a b => a.1 < b.1) := by
  induction t with
  | nil => simp [Tbl.rising]
  | cons e t ih =>
    obtain ⟨k, v⟩ := e
    cases t with
    | nil => simp [Tbl.rising]
    | cons f t =>
      obtain ⟨k', v'⟩ := f
      simp only [Tbl.rising, Bool.and_eq_true, decide_eq_true_eq, ih]
      constructor
      · rintro ⟨h1, h2⟩
        refine List.pairwise_cons.2 ⟨?_, h2⟩
        intro a ha
        rcases List.mem_cons.1 ha with rfl | ha
        · exact h1
        · exact h1.trans ((List.pairwise_cons.1 h2).1 a ha)
      · intro h
        obtain ⟨h1, h2⟩ := List.pairwise_cons.1 h
        exact ⟨h1 _ List.mem_cons_self, h2⟩

theorem Tbl.del_sublist (t : Tbl α) (x : Nat) : (Tbl.del t x).Sublist t := by
  induction t with
  | nil => exact List.Sublist.slnil
  | cons e t ih =>
    obtain ⟨k, v⟩ := e
    by_cases h : k = x
    · simp only [Tbl.del, h, if_true]; exact ih.cons _
    · simp only [Tbl.del, h, if_false]; exact ih.cons₂ _

theorem Tbl.rising_del {t : Tbl α} (x : Nat) (h : Tbl.rising t = true) : Tbl.rising (Tbl.del t x) = true :=
  (Tbl.rising_iff _).2 (((Tbl.rising_iff t).1 h).sublist (Tbl.del_sublist t x))

theorem Tbl.rising_keep {t : Tbl α} (p : Nat → α → Bool) (h : Tbl.rising t = true) : Tbl.rising (Tbl.keep t p) = true :=
  (Tbl.rising_iff _).2 (((Tbl.rising_iff t).1 h).sublist List.filter_sublist)

theorem Tbl.rising_ins {t : Tbl α} (x : Nat) (a : α) (h : Tbl.rising t = true) (hx : ∀ e ∈ t, e.1 ≠ x) :
    Tbl.rising (Tbl.ins t x a) = true := by
  rw [Tbl.rising_iff] at *
  induction t with
  | nil => simp [Tbl.ins]
  | cons e t ih =>
    obtain ⟨k, v⟩ := e
    obtain ⟨h1, h2⟩ := List.pairwise_cons.1 h
    by_cases hk : x < k
    · simp only [Tbl.ins, hk, if_true]
      refine List.pairwise_cons.2 ⟨?_, h⟩
      intro b hb
      rcases List.mem_cons.1 hb with rfl | hb
      · exact hk
      · exact hk.trans (h1 b hb)
    · simp only [Tbl.ins, hk, if_false]
      refine List.pairwise_cons.2 ⟨?_, ih h2 fun e he => hx e (List.mem_cons_of_mem _ he)⟩
      intro b hb
      have hne := hx (k, v) List.mem_cons_self
      rcases Tbl.mem_ins hb with rfl | hb
      · exact lt_of_le_of_ne (Nat.le_of_not_lt hk) hne
      · exact h1 b hb

theorem Tbl.rising_put {t : Tbl α} (x : Nat) (a : α) (h : Tbl.rising t = true) : Tbl.rising (Tbl.put t x a) = true :=
  Tbl.rising_ins x a (Tbl.rising_del x h) fun _ he => (Tbl.mem_del he).2

theorem Tbl.all_put {p : Nat → α → Prop} {t : Tbl α} (x : Nat) (a : α) (h : Tbl.All p t) (ha : p x a) : Tbl.All p (Tbl.put t x a) := by
  intro e he
  rcases Tbl.mem_ins he with rfl | he
  · exact ha
  · exact h e (Tbl.mem_del he).1

theorem Tbl.all_del {p : Nat → α → Prop} {t : Tbl α} (x : Nat) (h : Tbl.All p t) : Tbl.All p (Tbl.del t x) :=
  fun e he => h e (Tbl.mem_del he).1

end Sys2Proof.Machine
end

