-- ==== Sys2Proof/Laws/State.lean ====
section
/-! SUPPORT. Reading a state after an update: register fields, and every other part of the state under the register operations. -/

namespace Sys2Proof.Machine

/-! ### Cells -/

theorem Field.cell_ne_of_code {f g : Field} (h : f.code ≠ g.code) (i j k l : Nat) : f.cell i k ≠ g.cell j l := by
  unfold Field.cell
  have h1 := Nat.mod_lt i (by decide : 65536 > 0)
  have h2 := Nat.mod_lt j (by decide : 65536 > 0)
  have h3 := Nat.mod_lt k (by decide : 65536 > 0)
  have h4 := Nat.mod_lt l (by decide : 65536 > 0)
  omega

theorem Field.cell_ne_of_inst (f : Field) {i j : Nat} (hi : i % 65536 ≠ j % 65536) (k l : Nat) : f.cell i k ≠ f.cell j l := by
  unfold Field.cell
  have h1 := Nat.mod_lt i (by decide : 65536 > 0)
  have h2 := Nat.mod_lt j (by decide : 65536 > 0)
  have h3 := Nat.mod_lt k (by decide : 65536 > 0)
  have h4 := Nat.mod_lt l (by decide : 65536 > 0)
  omega

theorem Field.cell_ne_of_index (f : Field) (i : Nat) {k l : Nat} (hk : k % 65536 ≠ l % 65536) : f.cell i k ≠ f.cell i l := by
  unfold Field.cell
  omega

/-! ### A field read after a write -/

@[simp] theorem State.rf_wf_same (s : State) (f : Field) (i v k : Nat) : (s.wf f i v k).rf f i k = v % 2 ^ f.len := by
  simp [State.rf, State.wf, Nat.mod_mod]

theorem State.rf_wf_of_cell (s : State) {f g : Field} {i j k l : Nat} (v : Nat) (h : g.cell j l ≠ f.cell i k) :
    (s.wf f i v k).rf g j l = s.rf g j l := by
  simp [State.rf, State.wf, Tbl.getD_put_ne _ _ _ h]

theorem State.rf_wf_of_code (s : State) {f g : Field} (h : g.code ≠ f.code) (i v k j l : Nat) :
    (s.wf f i v k).rf g j l = s.rf g j l :=
  s.rf_wf_of_cell v (Field.cell_ne_of_code h _ _ _ _)

theorem State.rf_wf_of_inst (s : State) (f : Field) {i j : Nat} (h : j % 65536 ≠ i % 65536) (v k l : Nat) :
    (s.wf f i v k).rf f j l = s.rf f j l :=
  s.rf_wf_of_cell v (f.cell_ne_of_inst h _ _)

theorem State.rf_wf_of_index (s : State) (f : Field) (i v : Nat) {k l : Nat} (h : l % 65536 ≠ k % 65536) :
    (s.wf f i v k).rf f i l = s.rf f i l :=
  s.rf_wf_of_cell v (f.cell_ne_of_index i h)

theorem State.rb_wf_of_code (s : State) {f g : Field} (h : g.code ≠ f.code) (i v k j l : Nat) :
    (s.wf f i v k).rb g j l = s.rb g j l := by
  simp [State.rb, State.rf_wf_of_code s h]

theorem State.rf_lt (s : State) (f : Field) (i k : Nat) : s.rf f i k < 2 ^ f.len := Nat.mod_lt _ (Nat.two_pow_pos _)

/-! ### Counters -/

theorem State.inc_eq (s : State) (f : Field) (i n k : Nat) : ∃ v, s.inc f i n k = s.wf f i v k := by
  unfold State.inc
  split
  · exact ⟨_, rfl⟩
  · exact ⟨_, rfl⟩

theorem State.rf_inc_of_code (s : State) {f g : Field} (h : g.code ≠ f.code) (i n k j l : Nat) :
    (s.inc f i n k).rf g j l = s.rf g j l := by
  obtain ⟨v, hv⟩ := s.inc_eq f i n k
  rw [hv, State.rf_wf_of_code s h]

theorem State.rf_dec_of_code (s : State) {f g : Field} (h : g.code ≠ f.code) (i n k j l : Nat) :
    (s.dec f i n k).rf g j l = s.rf g j l := s.rf_wf_of_code h _ _ _ _ _

/-- A counter that is not read-to-clear wraps. -/
theorem State.rf_inc_wrap (s : State) (f : Field) (h : f.acc ≠ .rc) (i n k : Nat) :
    (s.inc f i n k).rf f i k = (s.rf f i k + n) % 2 ^ f.len := by
  simp [State.inc, h]

/-- A read-to-clear counter saturates. -/
theorem State.rf_inc_sat (s : State) (f : Field) (h : f.acc = .rc) (i n k : Nat) :
    (s.inc f i n k).rf f i k = min (2 ^ f.len - 1) (s.rf f i k + n) := by
  have hp : 0 < 2 ^ f.len := Nat.two_pow_pos _
  simp only [State.inc, h, if_true, State.rf_wf_same, satAdd]
  exact Nat.mod_eq_of_lt (lt_of_le_of_lt (Nat.min_le_left _ _) (Nat.sub_lt hp Nat.one_pos))

/-! ### Everything but the registers -/

@[simp] theorem State.wf_now (s : State) (f : Field) (i v k : Nat) : (s.wf f i v k).now = s.now := rfl
@[simp] theorem State.wf_elapsed (s : State) (f : Field) (i v k : Nat) : (s.wf f i v k).elapsed = s.elapsed := rfl
@[simp] theorem State.wf_resetCount (s : State) (f : Field) (i v k : Nat) : (s.wf f i v k).resetCount = s.resetCount := rfl
@[simp] theorem State.wf_irqLatch (s : State) (f : Field) (i v k : Nat) : (s.wf f i v k).irqLatch = s.irqLatch := rfl
@[simp] theorem State.wf_irqs (s : State) (f : Field) (i v k : Nat) : (s.wf f i v k).irqs = s.irqs := rfl
@[simp] theorem State.wf_staging (s : State) (f : Field) (i v k : Nat) : (s.wf f i v k).staging = s.staging := rfl
@[simp] theorem State.wf_lostStamps (s : State) (f : Field) (i v k : Nat) : (s.wf f i v k).lostStamps = s.lostStamps := rfl
@[simp] theorem State.wf_log (s : State) (f : Field) (i v k : Nat) : (s.wf f i v k).log = s.log := rfl
@[simp] theorem State.wf_plog (s : State) (f : Field) (i v k : Nat) : (s.wf f i v k).plog = s.plog := rfl
@[simp] theorem State.wf_cmds (s : State) (f : Field) (i v k : Nat) : (s.wf f i v k).cmds = s.cmds := rfl
@[simp] theorem State.wf_held (s : State) (f : Field) (i v k : Nat) : (s.wf f i v k).held = s.held := rfl
@[simp] theorem State.wf_resume (s : State) (f : Field) (i v k : Nat) : (s.wf f i v k).resume = s.resume := rfl
@[simp] theorem State.wf_cmdRecs (s : State) (f : Field) (i v k : Nat) : (s.wf f i v k).cmdRecs = s.cmdRecs := rfl
@[simp] theorem State.wf_qps (s : State) (f : Field) (i v k : Nat) : (s.wf f i v k).qps = s.qps := rfl
@[simp] theorem State.wf_ports (s : State) (f : Field) (i v k : Nat) : (s.wf f i v k).ports = s.ports := rfl
@[simp] theorem State.wf_sems (s : State) (f : Field) (i v k : Nat) : (s.wf f i v k).sems = s.sems := rfl
@[simp] theorem State.wf_ctxs (s : State) (f : Field) (i v k : Nat) : (s.wf f i v k).ctxs = s.ctxs := rfl
@[simp] theorem State.wf_ctxReuse (s : State) (f : Field) (i v k : Nat) : (s.wf f i v k).ctxReuse = s.ctxReuse := rfl
@[simp] theorem State.wf_reqs (s : State) (f : Field) (i v k : Nat) : (s.wf f i v k).reqs = s.reqs := rfl
@[simp] theorem State.wf_ended (s : State) (f : Field) (i v k : Nat) : (s.wf f i v k).ended = s.ended := rfl
@[simp] theorem State.wf_rings (s : State) (f : Field) (i v k : Nat) : (s.wf f i v k).rings = s.rings := rfl
@[simp] theorem State.wf_doorbells (s : State) (f : Field) (i v k : Nat) : (s.wf f i v k).doorbells = s.doorbells := rfl
@[simp] theorem State.wf_vars (s : State) (f : Field) (i v k : Nat) : (s.wf f i v k).vars = s.vars := rfl
@[simp] theorem State.wf_lastEpoch (s : State) (f : Field) (i v k : Nat) : (s.wf f i v k).lastEpoch = s.lastEpoch := rfl
@[simp] theorem State.wf_rems (s : State) (f : Field) (i v k : Nat) : (s.wf f i v k).rems = s.rems := rfl
@[simp] theorem State.wf_kv (s : State) (f : Field) (i v k : Nat) : (s.wf f i v k).kv = s.kv := rfl
@[simp] theorem State.wf_hbm (s : State) (f : Field) (i v k : Nat) : (s.wf f i v k).hbm = s.hbm := rfl
@[simp] theorem State.wf_hbmTags (s : State) (f : Field) (i v k : Nat) : (s.wf f i v k).hbmTags = s.hbmTags := rfl
@[simp] theorem State.wf_resv (s : State) (f : Field) (i v k : Nat) : (s.wf f i v k).resv = s.resv := rfl
@[simp] theorem State.wf_sram (s : State) (f : Field) (i v k : Nat) : (s.wf f i v k).sram = s.sram := rfl
@[simp] theorem State.wf_sramHollow (s : State) (f : Field) (i v k : Nat) : (s.wf f i v k).sramHollow = s.sramHollow := rfl
@[simp] theorem State.wf_eng (s : State) (f : Field) (i v k : Nat) : (s.wf f i v k).eng = s.eng := rfl
@[simp] theorem State.wf_cells (s : State) (f : Field) (i v k : Nat) : (s.wf f i v k).cells = s.cells := rfl
@[simp] theorem State.wf_rowCharge (s : State) (f : Field) (i v k : Nat) : (s.wf f i v k).rowCharge = s.rowCharge := rfl
@[simp] theorem State.wf_prog (s : State) (f : Field) (i v k : Nat) : (s.wf f i v k).prog = s.prog := rfl
@[simp] theorem State.wf_jour (s : State) (f : Field) (i v k : Nat) : (s.wf f i v k).jour = s.jour := rfl
@[simp] theorem State.wf_powered (s : State) (f : Field) (i v k : Nat) : (s.wf f i v k).powered = s.powered := rfl
@[simp] theorem State.wf_poweredKept (s : State) (f : Field) (i v k : Nat) : (s.wf f i v k).poweredKept = s.poweredKept := rfl
@[simp] theorem State.wf_mc (s : State) (f : Field) (i v k : Nat) : (s.wf f i v k).mc = s.mc := rfl
@[simp] theorem State.wf_vc (s : State) (f : Field) (i v k : Nat) : (s.wf f i v k).vc = s.vc := rfl
@[simp] theorem State.wf_sc (s : State) (f : Field) (i v k : Nat) : (s.wf f i v k).sc = s.sc := rfl
@[simp] theorem State.wf_pools (s : State) (f : Field) (i v k : Nat) : (s.wf f i v k).pools = s.pools := rfl
@[simp] theorem State.wf_chans (s : State) (f : Field) (i v k : Nat) : (s.wf f i v k).chans = s.chans := rfl
@[simp] theorem State.wf_bufs (s : State) (f : Field) (i v k : Nat) : (s.wf f i v k).bufs = s.bufs := rfl
@[simp] theorem State.wf_rsts (s : State) (f : Field) (i v k : Nat) : (s.wf f i v k).rsts = s.rsts := rfl
@[simp] theorem State.wf_genAt (s : State) (f : Field) (i v k : Nat) : (s.wf f i v k).genAt = s.genAt := rfl
@[simp] theorem State.wf_clk (s : State) (f : Field) (i v k : Nat) : (s.wf f i v k).clk = s.clk := rfl
@[simp] theorem State.wf_msh (s : State) (f : Field) (i v k : Nat) : (s.wf f i v k).msh = s.msh := rfl
@[simp] theorem State.wf_md (s : State) (f : Field) (i v k : Nat) : (s.wf f i v k).md = s.md := rfl
@[simp] theorem State.wf_oa (s : State) (f : Field) (i v k : Nat) : (s.wf f i v k).oa = s.oa := rfl
@[simp] theorem State.wf_resp (s : State) (f : Field) (i v k : Nat) : (s.wf f i v k).resp = s.resp := rfl
@[simp] theorem State.wf_sec (s : State) (f : Field) (i v k : Nat) : (s.wf f i v k).sec = s.sec := rfl
@[simp] theorem State.wf_sen (s : State) (f : Field) (i v k : Nat) : (s.wf f i v k).sen = s.sen := rfl
@[simp] theorem State.wf_dirs (s : State) (f : Field) (i v k : Nat) : (s.wf f i v k).dirs = s.dirs := rfl
@[simp] theorem State.wf_tor (s : State) (f : Field) (i v k : Nat) : (s.wf f i v k).tor = s.tor := rfl
@[simp] theorem State.wf_out (s : State) (f : Field) (i v k : Nat) : (s.wf f i v k).out = s.out := rfl
@[simp] theorem State.wf_freeCtr (s : State) (f : Field) (i v k : Nat) : (s.wf f i v k).freeCtr = s.freeCtr := rfl
@[simp] theorem State.wf_pending (s : State) (f : Field) (i v k : Nat) : (s.wf f i v k).pending = s.pending := rfl
@[simp] theorem State.clr_now (s : State) (f : Field) (i k : Nat) : (s.clr f i k).now = s.now := rfl
@[simp] theorem State.clr_elapsed (s : State) (f : Field) (i k : Nat) : (s.clr f i k).elapsed = s.elapsed := rfl
@[simp] theorem State.clr_resetCount (s : State) (f : Field) (i k : Nat) : (s.clr f i k).resetCount = s.resetCount := rfl
@[simp] theorem State.clr_irqLatch (s : State) (f : Field) (i k : Nat) : (s.clr f i k).irqLatch = s.irqLatch := rfl
@[simp] theorem State.clr_irqs (s : State) (f : Field) (i k : Nat) : (s.clr f i k).irqs = s.irqs := rfl
@[simp] theorem State.clr_staging (s : State) (f : Field) (i k : Nat) : (s.clr f i k).staging = s.staging := rfl
@[simp] theorem State.clr_lostStamps (s : State) (f : Field) (i k : Nat) : (s.clr f i k).lostStamps = s.lostStamps := rfl
@[simp] theorem State.clr_log (s : State) (f : Field) (i k : Nat) : (s.clr f i k).log = s.log := rfl
@[simp] theorem State.clr_plog (s : State) (f : Field) (i k : Nat) : (s.clr f i k).plog = s.plog := rfl
@[simp] theorem State.clr_cmds (s : State) (f : Field) (i k : Nat) : (s.clr f i k).cmds = s.cmds := rfl
@[simp] theorem State.clr_held (s : State) (f : Field) (i k : Nat) : (s.clr f i k).held = s.held := rfl
@[simp] theorem State.clr_resume (s : State) (f : Field) (i k : Nat) : (s.clr f i k).resume = s.resume := rfl
@[simp] theorem State.clr_cmdRecs (s : State) (f : Field) (i k : Nat) : (s.clr f i k).cmdRecs = s.cmdRecs := rfl
@[simp] theorem State.clr_qps (s : State) (f : Field) (i k : Nat) : (s.clr f i k).qps = s.qps := rfl
@[simp] theorem State.clr_ports (s : State) (f : Field) (i k : Nat) : (s.clr f i k).ports = s.ports := rfl
@[simp] theorem State.clr_sems (s : State) (f : Field) (i k : Nat) : (s.clr f i k).sems = s.sems := rfl
@[simp] theorem State.clr_ctxs (s : State) (f : Field) (i k : Nat) : (s.clr f i k).ctxs = s.ctxs := rfl
@[simp] theorem State.clr_ctxReuse (s : State) (f : Field) (i k : Nat) : (s.clr f i k).ctxReuse = s.ctxReuse := rfl
@[simp] theorem State.clr_reqs (s : State) (f : Field) (i k : Nat) : (s.clr f i k).reqs = s.reqs := rfl
@[simp] theorem State.clr_ended (s : State) (f : Field) (i k : Nat) : (s.clr f i k).ended = s.ended := rfl
@[simp] theorem State.clr_rings (s : State) (f : Field) (i k : Nat) : (s.clr f i k).rings = s.rings := rfl
@[simp] theorem State.clr_doorbells (s : State) (f : Field) (i k : Nat) : (s.clr f i k).doorbells = s.doorbells := rfl
@[simp] theorem State.clr_vars (s : State) (f : Field) (i k : Nat) : (s.clr f i k).vars = s.vars := rfl
@[simp] theorem State.clr_lastEpoch (s : State) (f : Field) (i k : Nat) : (s.clr f i k).lastEpoch = s.lastEpoch := rfl
@[simp] theorem State.clr_rems (s : State) (f : Field) (i k : Nat) : (s.clr f i k).rems = s.rems := rfl
@[simp] theorem State.clr_kv (s : State) (f : Field) (i k : Nat) : (s.clr f i k).kv = s.kv := rfl
@[simp] theorem State.clr_hbm (s : State) (f : Field) (i k : Nat) : (s.clr f i k).hbm = s.hbm := rfl
@[simp] theorem State.clr_hbmTags (s : State) (f : Field) (i k : Nat) : (s.clr f i k).hbmTags = s.hbmTags := rfl
@[simp] theorem State.clr_resv (s : State) (f : Field) (i k : Nat) : (s.clr f i k).resv = s.resv := rfl
@[simp] theorem State.clr_sram (s : State) (f : Field) (i k : Nat) : (s.clr f i k).sram = s.sram := rfl
@[simp] theorem State.clr_sramHollow (s : State) (f : Field) (i k : Nat) : (s.clr f i k).sramHollow = s.sramHollow := rfl
@[simp] theorem State.clr_eng (s : State) (f : Field) (i k : Nat) : (s.clr f i k).eng = s.eng := rfl
@[simp] theorem State.clr_cells (s : State) (f : Field) (i k : Nat) : (s.clr f i k).cells = s.cells := rfl
@[simp] theorem State.clr_rowCharge (s : State) (f : Field) (i k : Nat) : (s.clr f i k).rowCharge = s.rowCharge := rfl
@[simp] theorem State.clr_prog (s : State) (f : Field) (i k : Nat) : (s.clr f i k).prog = s.prog := rfl
@[simp] theorem State.clr_jour (s : State) (f : Field) (i k : Nat) : (s.clr f i k).jour = s.jour := rfl
@[simp] theorem State.clr_powered (s : State) (f : Field) (i k : Nat) : (s.clr f i k).powered = s.powered := rfl
@[simp] theorem State.clr_poweredKept (s : State) (f : Field) (i k : Nat) : (s.clr f i k).poweredKept = s.poweredKept := rfl
@[simp] theorem State.clr_mc (s : State) (f : Field) (i k : Nat) : (s.clr f i k).mc = s.mc := rfl
@[simp] theorem State.clr_vc (s : State) (f : Field) (i k : Nat) : (s.clr f i k).vc = s.vc := rfl
@[simp] theorem State.clr_sc (s : State) (f : Field) (i k : Nat) : (s.clr f i k).sc = s.sc := rfl
@[simp] theorem State.clr_pools (s : State) (f : Field) (i k : Nat) : (s.clr f i k).pools = s.pools := rfl
@[simp] theorem State.clr_chans (s : State) (f : Field) (i k : Nat) : (s.clr f i k).chans = s.chans := rfl
@[simp] theorem State.clr_bufs (s : State) (f : Field) (i k : Nat) : (s.clr f i k).bufs = s.bufs := rfl
@[simp] theorem State.clr_rsts (s : State) (f : Field) (i k : Nat) : (s.clr f i k).rsts = s.rsts := rfl
@[simp] theorem State.clr_genAt (s : State) (f : Field) (i k : Nat) : (s.clr f i k).genAt = s.genAt := rfl
@[simp] theorem State.clr_clk (s : State) (f : Field) (i k : Nat) : (s.clr f i k).clk = s.clk := rfl
@[simp] theorem State.clr_msh (s : State) (f : Field) (i k : Nat) : (s.clr f i k).msh = s.msh := rfl
@[simp] theorem State.clr_md (s : State) (f : Field) (i k : Nat) : (s.clr f i k).md = s.md := rfl
@[simp] theorem State.clr_oa (s : State) (f : Field) (i k : Nat) : (s.clr f i k).oa = s.oa := rfl
@[simp] theorem State.clr_resp (s : State) (f : Field) (i k : Nat) : (s.clr f i k).resp = s.resp := rfl
@[simp] theorem State.clr_sec (s : State) (f : Field) (i k : Nat) : (s.clr f i k).sec = s.sec := rfl
@[simp] theorem State.clr_sen (s : State) (f : Field) (i k : Nat) : (s.clr f i k).sen = s.sen := rfl
@[simp] theorem State.clr_dirs (s : State) (f : Field) (i k : Nat) : (s.clr f i k).dirs = s.dirs := rfl
@[simp] theorem State.clr_tor (s : State) (f : Field) (i k : Nat) : (s.clr f i k).tor = s.tor := rfl
@[simp] theorem State.clr_out (s : State) (f : Field) (i k : Nat) : (s.clr f i k).out = s.out := rfl
@[simp] theorem State.clr_freeCtr (s : State) (f : Field) (i k : Nat) : (s.clr f i k).freeCtr = s.freeCtr := rfl
@[simp] theorem State.clr_pending (s : State) (f : Field) (i k : Nat) : (s.clr f i k).pending = s.pending := rfl
@[simp] theorem State.dec_now (s : State) (f : Field) (i n k : Nat) : (s.dec f i n k).now = s.now := rfl
@[simp] theorem State.dec_elapsed (s : State) (f : Field) (i n k : Nat) : (s.dec f i n k).elapsed = s.elapsed := rfl
@[simp] theorem State.dec_resetCount (s : State) (f : Field) (i n k : Nat) : (s.dec f i n k).resetCount = s.resetCount := rfl
@[simp] theorem State.dec_irqLatch (s : State) (f : Field) (i n k : Nat) : (s.dec f i n k).irqLatch = s.irqLatch := rfl
@[simp] theorem State.dec_irqs (s : State) (f : Field) (i n k : Nat) : (s.dec f i n k).irqs = s.irqs := rfl
@[simp] theorem State.dec_staging (s : State) (f : Field) (i n k : Nat) : (s.dec f i n k).staging = s.staging := rfl
@[simp] theorem State.dec_lostStamps (s : State) (f : Field) (i n k : Nat) : (s.dec f i n k).lostStamps = s.lostStamps := rfl
@[simp] theorem State.dec_log (s : State) (f : Field) (i n k : Nat) : (s.dec f i n k).log = s.log := rfl
@[simp] theorem State.dec_plog (s : State) (f : Field) (i n k : Nat) : (s.dec f i n k).plog = s.plog := rfl
@[simp] theorem State.dec_cmds (s : State) (f : Field) (i n k : Nat) : (s.dec f i n k).cmds = s.cmds := rfl
@[simp] theorem State.dec_held (s : State) (f : Field) (i n k : Nat) : (s.dec f i n k).held = s.held := rfl
@[simp] theorem State.dec_resume (s : State) (f : Field) (i n k : Nat) : (s.dec f i n k).resume = s.resume := rfl
@[simp] theorem State.dec_cmdRecs (s : State) (f : Field) (i n k : Nat) : (s.dec f i n k).cmdRecs = s.cmdRecs := rfl
@[simp] theorem State.dec_qps (s : State) (f : Field) (i n k : Nat) : (s.dec f i n k).qps = s.qps := rfl
@[simp] theorem State.dec_ports (s : State) (f : Field) (i n k : Nat) : (s.dec f i n k).ports = s.ports := rfl
@[simp] theorem State.dec_sems (s : State) (f : Field) (i n k : Nat) : (s.dec f i n k).sems = s.sems := rfl
@[simp] theorem State.dec_ctxs (s : State) (f : Field) (i n k : Nat) : (s.dec f i n k).ctxs = s.ctxs := rfl
@[simp] theorem State.dec_ctxReuse (s : State) (f : Field) (i n k : Nat) : (s.dec f i n k).ctxReuse = s.ctxReuse := rfl
@[simp] theorem State.dec_reqs (s : State) (f : Field) (i n k : Nat) : (s.dec f i n k).reqs = s.reqs := rfl
@[simp] theorem State.dec_ended (s : State) (f : Field) (i n k : Nat) : (s.dec f i n k).ended = s.ended := rfl
@[simp] theorem State.dec_rings (s : State) (f : Field) (i n k : Nat) : (s.dec f i n k).rings = s.rings := rfl
@[simp] theorem State.dec_doorbells (s : State) (f : Field) (i n k : Nat) : (s.dec f i n k).doorbells = s.doorbells := rfl
@[simp] theorem State.dec_vars (s : State) (f : Field) (i n k : Nat) : (s.dec f i n k).vars = s.vars := rfl
@[simp] theorem State.dec_lastEpoch (s : State) (f : Field) (i n k : Nat) : (s.dec f i n k).lastEpoch = s.lastEpoch := rfl
@[simp] theorem State.dec_rems (s : State) (f : Field) (i n k : Nat) : (s.dec f i n k).rems = s.rems := rfl
@[simp] theorem State.dec_kv (s : State) (f : Field) (i n k : Nat) : (s.dec f i n k).kv = s.kv := rfl
@[simp] theorem State.dec_hbm (s : State) (f : Field) (i n k : Nat) : (s.dec f i n k).hbm = s.hbm := rfl
@[simp] theorem State.dec_hbmTags (s : State) (f : Field) (i n k : Nat) : (s.dec f i n k).hbmTags = s.hbmTags := rfl
@[simp] theorem State.dec_resv (s : State) (f : Field) (i n k : Nat) : (s.dec f i n k).resv = s.resv := rfl
@[simp] theorem State.dec_sram (s : State) (f : Field) (i n k : Nat) : (s.dec f i n k).sram = s.sram := rfl
@[simp] theorem State.dec_sramHollow (s : State) (f : Field) (i n k : Nat) : (s.dec f i n k).sramHollow = s.sramHollow := rfl
@[simp] theorem State.dec_eng (s : State) (f : Field) (i n k : Nat) : (s.dec f i n k).eng = s.eng := rfl
@[simp] theorem State.dec_cells (s : State) (f : Field) (i n k : Nat) : (s.dec f i n k).cells = s.cells := rfl
@[simp] theorem State.dec_rowCharge (s : State) (f : Field) (i n k : Nat) : (s.dec f i n k).rowCharge = s.rowCharge := rfl
@[simp] theorem State.dec_prog (s : State) (f : Field) (i n k : Nat) : (s.dec f i n k).prog = s.prog := rfl
@[simp] theorem State.dec_jour (s : State) (f : Field) (i n k : Nat) : (s.dec f i n k).jour = s.jour := rfl
@[simp] theorem State.dec_powered (s : State) (f : Field) (i n k : Nat) : (s.dec f i n k).powered = s.powered := rfl
@[simp] theorem State.dec_poweredKept (s : State) (f : Field) (i n k : Nat) : (s.dec f i n k).poweredKept = s.poweredKept := rfl
@[simp] theorem State.dec_mc (s : State) (f : Field) (i n k : Nat) : (s.dec f i n k).mc = s.mc := rfl
@[simp] theorem State.dec_vc (s : State) (f : Field) (i n k : Nat) : (s.dec f i n k).vc = s.vc := rfl
@[simp] theorem State.dec_sc (s : State) (f : Field) (i n k : Nat) : (s.dec f i n k).sc = s.sc := rfl
@[simp] theorem State.dec_pools (s : State) (f : Field) (i n k : Nat) : (s.dec f i n k).pools = s.pools := rfl
@[simp] theorem State.dec_chans (s : State) (f : Field) (i n k : Nat) : (s.dec f i n k).chans = s.chans := rfl
@[simp] theorem State.dec_bufs (s : State) (f : Field) (i n k : Nat) : (s.dec f i n k).bufs = s.bufs := rfl
@[simp] theorem State.dec_rsts (s : State) (f : Field) (i n k : Nat) : (s.dec f i n k).rsts = s.rsts := rfl
@[simp] theorem State.dec_genAt (s : State) (f : Field) (i n k : Nat) : (s.dec f i n k).genAt = s.genAt := rfl
@[simp] theorem State.dec_clk (s : State) (f : Field) (i n k : Nat) : (s.dec f i n k).clk = s.clk := rfl
@[simp] theorem State.dec_msh (s : State) (f : Field) (i n k : Nat) : (s.dec f i n k).msh = s.msh := rfl
@[simp] theorem State.dec_md (s : State) (f : Field) (i n k : Nat) : (s.dec f i n k).md = s.md := rfl
@[simp] theorem State.dec_oa (s : State) (f : Field) (i n k : Nat) : (s.dec f i n k).oa = s.oa := rfl
@[simp] theorem State.dec_resp (s : State) (f : Field) (i n k : Nat) : (s.dec f i n k).resp = s.resp := rfl
@[simp] theorem State.dec_sec (s : State) (f : Field) (i n k : Nat) : (s.dec f i n k).sec = s.sec := rfl
@[simp] theorem State.dec_sen (s : State) (f : Field) (i n k : Nat) : (s.dec f i n k).sen = s.sen := rfl
@[simp] theorem State.dec_dirs (s : State) (f : Field) (i n k : Nat) : (s.dec f i n k).dirs = s.dirs := rfl
@[simp] theorem State.dec_tor (s : State) (f : Field) (i n k : Nat) : (s.dec f i n k).tor = s.tor := rfl
@[simp] theorem State.dec_out (s : State) (f : Field) (i n k : Nat) : (s.dec f i n k).out = s.out := rfl
@[simp] theorem State.dec_freeCtr (s : State) (f : Field) (i n k : Nat) : (s.dec f i n k).freeCtr = s.freeCtr := rfl
@[simp] theorem State.dec_pending (s : State) (f : Field) (i n k : Nat) : (s.dec f i n k).pending = s.pending := rfl
@[simp] theorem State.incSat_now (s : State) (f : Field) (i n k : Nat) : (s.incSat f i n k).now = s.now := rfl
@[simp] theorem State.incSat_elapsed (s : State) (f : Field) (i n k : Nat) : (s.incSat f i n k).elapsed = s.elapsed := rfl
@[simp] theorem State.incSat_resetCount (s : State) (f : Field) (i n k : Nat) : (s.incSat f i n k).resetCount = s.resetCount := rfl
@[simp] theorem State.incSat_irqLatch (s : State) (f : Field) (i n k : Nat) : (s.incSat f i n k).irqLatch = s.irqLatch := rfl
@[simp] theorem State.incSat_irqs (s : State) (f : Field) (i n k : Nat) : (s.incSat f i n k).irqs = s.irqs := rfl
@[simp] theorem State.incSat_staging (s : State) (f : Field) (i n k : Nat) : (s.incSat f i n k).staging = s.staging := rfl
@[simp] theorem State.incSat_lostStamps (s : State) (f : Field) (i n k : Nat) : (s.incSat f i n k).lostStamps = s.lostStamps := rfl
@[simp] theorem State.incSat_log (s : State) (f : Field) (i n k : Nat) : (s.incSat f i n k).log = s.log := rfl
@[simp] theorem State.incSat_plog (s : State) (f : Field) (i n k : Nat) : (s.incSat f i n k).plog = s.plog := rfl
@[simp] theorem State.incSat_cmds (s : State) (f : Field) (i n k : Nat) : (s.incSat f i n k).cmds = s.cmds := rfl
@[simp] theorem State.incSat_held (s : State) (f : Field) (i n k : Nat) : (s.incSat f i n k).held = s.held := rfl
@[simp] theorem State.incSat_resume (s : State) (f : Field) (i n k : Nat) : (s.incSat f i n k).resume = s.resume := rfl
@[simp] theorem State.incSat_cmdRecs (s : State) (f : Field) (i n k : Nat) : (s.incSat f i n k).cmdRecs = s.cmdRecs := rfl
@[simp] theorem State.incSat_qps (s : State) (f : Field) (i n k : Nat) : (s.incSat f i n k).qps = s.qps := rfl
@[simp] theorem State.incSat_ports (s : State) (f : Field) (i n k : Nat) : (s.incSat f i n k).ports = s.ports := rfl
@[simp] theorem State.incSat_sems (s : State) (f : Field) (i n k : Nat) : (s.incSat f i n k).sems = s.sems := rfl
@[simp] theorem State.incSat_ctxs (s : State) (f : Field) (i n k : Nat) : (s.incSat f i n k).ctxs = s.ctxs := rfl
@[simp] theorem State.incSat_ctxReuse (s : State) (f : Field) (i n k : Nat) : (s.incSat f i n k).ctxReuse = s.ctxReuse := rfl
@[simp] theorem State.incSat_reqs (s : State) (f : Field) (i n k : Nat) : (s.incSat f i n k).reqs = s.reqs := rfl
@[simp] theorem State.incSat_ended (s : State) (f : Field) (i n k : Nat) : (s.incSat f i n k).ended = s.ended := rfl
@[simp] theorem State.incSat_rings (s : State) (f : Field) (i n k : Nat) : (s.incSat f i n k).rings = s.rings := rfl
@[simp] theorem State.incSat_doorbells (s : State) (f : Field) (i n k : Nat) : (s.incSat f i n k).doorbells = s.doorbells := rfl
@[simp] theorem State.incSat_vars (s : State) (f : Field) (i n k : Nat) : (s.incSat f i n k).vars = s.vars := rfl
@[simp] theorem State.incSat_lastEpoch (s : State) (f : Field) (i n k : Nat) : (s.incSat f i n k).lastEpoch = s.lastEpoch := rfl
@[simp] theorem State.incSat_rems (s : State) (f : Field) (i n k : Nat) : (s.incSat f i n k).rems = s.rems := rfl
@[simp] theorem State.incSat_kv (s : State) (f : Field) (i n k : Nat) : (s.incSat f i n k).kv = s.kv := rfl
@[simp] theorem State.incSat_hbm (s : State) (f : Field) (i n k : Nat) : (s.incSat f i n k).hbm = s.hbm := rfl
@[simp] theorem State.incSat_hbmTags (s : State) (f : Field) (i n k : Nat) : (s.incSat f i n k).hbmTags = s.hbmTags := rfl
@[simp] theorem State.incSat_resv (s : State) (f : Field) (i n k : Nat) : (s.incSat f i n k).resv = s.resv := rfl
@[simp] theorem State.incSat_sram (s : State) (f : Field) (i n k : Nat) : (s.incSat f i n k).sram = s.sram := rfl
@[simp] theorem State.incSat_sramHollow (s : State) (f : Field) (i n k : Nat) : (s.incSat f i n k).sramHollow = s.sramHollow := rfl
@[simp] theorem State.incSat_eng (s : State) (f : Field) (i n k : Nat) : (s.incSat f i n k).eng = s.eng := rfl
@[simp] theorem State.incSat_cells (s : State) (f : Field) (i n k : Nat) : (s.incSat f i n k).cells = s.cells := rfl
@[simp] theorem State.incSat_rowCharge (s : State) (f : Field) (i n k : Nat) : (s.incSat f i n k).rowCharge = s.rowCharge := rfl
@[simp] theorem State.incSat_prog (s : State) (f : Field) (i n k : Nat) : (s.incSat f i n k).prog = s.prog := rfl
@[simp] theorem State.incSat_jour (s : State) (f : Field) (i n k : Nat) : (s.incSat f i n k).jour = s.jour := rfl
@[simp] theorem State.incSat_powered (s : State) (f : Field) (i n k : Nat) : (s.incSat f i n k).powered = s.powered := rfl
@[simp] theorem State.incSat_poweredKept (s : State) (f : Field) (i n k : Nat) : (s.incSat f i n k).poweredKept = s.poweredKept := rfl
@[simp] theorem State.incSat_mc (s : State) (f : Field) (i n k : Nat) : (s.incSat f i n k).mc = s.mc := rfl
@[simp] theorem State.incSat_vc (s : State) (f : Field) (i n k : Nat) : (s.incSat f i n k).vc = s.vc := rfl
@[simp] theorem State.incSat_sc (s : State) (f : Field) (i n k : Nat) : (s.incSat f i n k).sc = s.sc := rfl
@[simp] theorem State.incSat_pools (s : State) (f : Field) (i n k : Nat) : (s.incSat f i n k).pools = s.pools := rfl
@[simp] theorem State.incSat_chans (s : State) (f : Field) (i n k : Nat) : (s.incSat f i n k).chans = s.chans := rfl
@[simp] theorem State.incSat_bufs (s : State) (f : Field) (i n k : Nat) : (s.incSat f i n k).bufs = s.bufs := rfl
@[simp] theorem State.incSat_rsts (s : State) (f : Field) (i n k : Nat) : (s.incSat f i n k).rsts = s.rsts := rfl
@[simp] theorem State.incSat_genAt (s : State) (f : Field) (i n k : Nat) : (s.incSat f i n k).genAt = s.genAt := rfl
@[simp] theorem State.incSat_clk (s : State) (f : Field) (i n k : Nat) : (s.incSat f i n k).clk = s.clk := rfl
@[simp] theorem State.incSat_msh (s : State) (f : Field) (i n k : Nat) : (s.incSat f i n k).msh = s.msh := rfl
@[simp] theorem State.incSat_md (s : State) (f : Field) (i n k : Nat) : (s.incSat f i n k).md = s.md := rfl
@[simp] theorem State.incSat_oa (s : State) (f : Field) (i n k : Nat) : (s.incSat f i n k).oa = s.oa := rfl
@[simp] theorem State.incSat_resp (s : State) (f : Field) (i n k : Nat) : (s.incSat f i n k).resp = s.resp := rfl
@[simp] theorem State.incSat_sec (s : State) (f : Field) (i n k : Nat) : (s.incSat f i n k).sec = s.sec := rfl
@[simp] theorem State.incSat_sen (s : State) (f : Field) (i n k : Nat) : (s.incSat f i n k).sen = s.sen := rfl
@[simp] theorem State.incSat_dirs (s : State) (f : Field) (i n k : Nat) : (s.incSat f i n k).dirs = s.dirs := rfl
@[simp] theorem State.incSat_tor (s : State) (f : Field) (i n k : Nat) : (s.incSat f i n k).tor = s.tor := rfl
@[simp] theorem State.incSat_out (s : State) (f : Field) (i n k : Nat) : (s.incSat f i n k).out = s.out := rfl
@[simp] theorem State.incSat_freeCtr (s : State) (f : Field) (i n k : Nat) : (s.incSat f i n k).freeCtr = s.freeCtr := rfl
@[simp] theorem State.incSat_pending (s : State) (f : Field) (i n k : Nat) : (s.incSat f i n k).pending = s.pending := rfl
@[simp] theorem State.inc_now (s : State) (f : Field) (i n k : Nat) : (s.inc f i n k).now = s.now := by
  unfold State.inc; split <;> rfl
@[simp] theorem State.inc_elapsed (s : State) (f : Field) (i n k : Nat) : (s.inc f i n k).elapsed = s.elapsed := by
  unfold State.inc; split <;> rfl
@[simp] theorem State.inc_resetCount (s : State) (f : Field) (i n k : Nat) : (s.inc f i n k).resetCount = s.resetCount := by
  unfold State.inc; split <;> rfl
@[simp] theorem State.inc_irqLatch (s : State) (f : Field) (i n k : Nat) : (s.inc f i n k).irqLatch = s.irqLatch := by
  unfold State.inc; split <;> rfl
@[simp] theorem State.inc_irqs (s : State) (f : Field) (i n k : Nat) : (s.inc f i n k).irqs = s.irqs := by
  unfold State.inc; split <;> rfl
@[simp] theorem State.inc_staging (s : State) (f : Field) (i n k : Nat) : (s.inc f i n k).staging = s.staging := by
  unfold State.inc; split <;> rfl
@[simp] theorem State.inc_lostStamps (s : State) (f : Field) (i n k : Nat) : (s.inc f i n k).lostStamps = s.lostStamps := by
  unfold State.inc; split <;> rfl
@[simp] theorem State.inc_log (s : State) (f : Field) (i n k : Nat) : (s.inc f i n k).log = s.log := by
  unfold State.inc; split <;> rfl
@[simp] theorem State.inc_plog (s : State) (f : Field) (i n k : Nat) : (s.inc f i n k).plog = s.plog := by
  unfold State.inc; split <;> rfl
@[simp] theorem State.inc_cmds (s : State) (f : Field) (i n k : Nat) : (s.inc f i n k).cmds = s.cmds := by
  unfold State.inc; split <;> rfl
@[simp] theorem State.inc_held (s : State) (f : Field) (i n k : Nat) : (s.inc f i n k).held = s.held := by
  unfold State.inc; split <;> rfl
@[simp] theorem State.inc_resume (s : State) (f : Field) (i n k : Nat) : (s.inc f i n k).resume = s.resume := by
  unfold State.inc; split <;> rfl
@[simp] theorem State.inc_cmdRecs (s : State) (f : Field) (i n k : Nat) : (s.inc f i n k).cmdRecs = s.cmdRecs := by
  unfold State.inc; split <;> rfl
@[simp] theorem State.inc_qps (s : State) (f : Field) (i n k : Nat) : (s.inc f i n k).qps = s.qps := by
  unfold State.inc; split <;> rfl
@[simp] theorem State.inc_ports (s : State) (f : Field) (i n k : Nat) : (s.inc f i n k).ports = s.ports := by
  unfold State.inc; split <;> rfl
@[simp] theorem State.inc_sems (s : State) (f : Field) (i n k : Nat) : (s.inc f i n k).sems = s.sems := by
  unfold State.inc; split <;> rfl
@[simp] theorem State.inc_ctxs (s : State) (f : Field) (i n k : Nat) : (s.inc f i n k).ctxs = s.ctxs := by
  unfold State.inc; split <;> rfl
@[simp] theorem State.inc_ctxReuse (s : State) (f : Field) (i n k : Nat) : (s.inc f i n k).ctxReuse = s.ctxReuse := by
  unfold State.inc; split <;> rfl
@[simp] theorem State.inc_reqs (s : State) (f : Field) (i n k : Nat) : (s.inc f i n k).reqs = s.reqs := by
  unfold State.inc; split <;> rfl
@[simp] theorem State.inc_ended (s : State) (f : Field) (i n k : Nat) : (s.inc f i n k).ended = s.ended := by
  unfold State.inc; split <;> rfl
@[simp] theorem State.inc_rings (s : State) (f : Field) (i n k : Nat) : (s.inc f i n k).rings = s.rings := by
  unfold State.inc; split <;> rfl
@[simp] theorem State.inc_doorbells (s : State) (f : Field) (i n k : Nat) : (s.inc f i n k).doorbells = s.doorbells := by
  unfold State.inc; split <;> rfl
@[simp] theorem State.inc_vars (s : State) (f : Field) (i n k : Nat) : (s.inc f i n k).vars = s.vars := by
  unfold State.inc; split <;> rfl
@[simp] theorem State.inc_lastEpoch (s : State) (f : Field) (i n k : Nat) : (s.inc f i n k).lastEpoch = s.lastEpoch := by
  unfold State.inc; split <;> rfl
@[simp] theorem State.inc_rems (s : State) (f : Field) (i n k : Nat) : (s.inc f i n k).rems = s.rems := by
  unfold State.inc; split <;> rfl
@[simp] theorem State.inc_kv (s : State) (f : Field) (i n k : Nat) : (s.inc f i n k).kv = s.kv := by
  unfold State.inc; split <;> rfl
@[simp] theorem State.inc_hbm (s : State) (f : Field) (i n k : Nat) : (s.inc f i n k).hbm = s.hbm := by
  unfold State.inc; split <;> rfl
@[simp] theorem State.inc_hbmTags (s : State) (f : Field) (i n k : Nat) : (s.inc f i n k).hbmTags = s.hbmTags := by
  unfold State.inc; split <;> rfl
@[simp] theorem State.inc_resv (s : State) (f : Field) (i n k : Nat) : (s.inc f i n k).resv = s.resv := by
  unfold State.inc; split <;> rfl
@[simp] theorem State.inc_sram (s : State) (f : Field) (i n k : Nat) : (s.inc f i n k).sram = s.sram := by
  unfold State.inc; split <;> rfl
@[simp] theorem State.inc_sramHollow (s : State) (f : Field) (i n k : Nat) : (s.inc f i n k).sramHollow = s.sramHollow := by
  unfold State.inc; split <;> rfl
@[simp] theorem State.inc_eng (s : State) (f : Field) (i n k : Nat) : (s.inc f i n k).eng = s.eng := by
  unfold State.inc; split <;> rfl
@[simp] theorem State.inc_cells (s : State) (f : Field) (i n k : Nat) : (s.inc f i n k).cells = s.cells := by
  unfold State.inc; split <;> rfl
@[simp] theorem State.inc_rowCharge (s : State) (f : Field) (i n k : Nat) : (s.inc f i n k).rowCharge = s.rowCharge := by
  unfold State.inc; split <;> rfl
@[simp] theorem State.inc_prog (s : State) (f : Field) (i n k : Nat) : (s.inc f i n k).prog = s.prog := by
  unfold State.inc; split <;> rfl
@[simp] theorem State.inc_jour (s : State) (f : Field) (i n k : Nat) : (s.inc f i n k).jour = s.jour := by
  unfold State.inc; split <;> rfl
@[simp] theorem State.inc_powered (s : State) (f : Field) (i n k : Nat) : (s.inc f i n k).powered = s.powered := by
  unfold State.inc; split <;> rfl
@[simp] theorem State.inc_poweredKept (s : State) (f : Field) (i n k : Nat) : (s.inc f i n k).poweredKept = s.poweredKept := by
  unfold State.inc; split <;> rfl
@[simp] theorem State.inc_mc (s : State) (f : Field) (i n k : Nat) : (s.inc f i n k).mc = s.mc := by
  unfold State.inc; split <;> rfl
@[simp] theorem State.inc_vc (s : State) (f : Field) (i n k : Nat) : (s.inc f i n k).vc = s.vc := by
  unfold State.inc; split <;> rfl
@[simp] theorem State.inc_sc (s : State) (f : Field) (i n k : Nat) : (s.inc f i n k).sc = s.sc := by
  unfold State.inc; split <;> rfl
@[simp] theorem State.inc_pools (s : State) (f : Field) (i n k : Nat) : (s.inc f i n k).pools = s.pools := by
  unfold State.inc; split <;> rfl
@[simp] theorem State.inc_chans (s : State) (f : Field) (i n k : Nat) : (s.inc f i n k).chans = s.chans := by
  unfold State.inc; split <;> rfl
@[simp] theorem State.inc_bufs (s : State) (f : Field) (i n k : Nat) : (s.inc f i n k).bufs = s.bufs := by
  unfold State.inc; split <;> rfl
@[simp] theorem State.inc_rsts (s : State) (f : Field) (i n k : Nat) : (s.inc f i n k).rsts = s.rsts := by
  unfold State.inc; split <;> rfl
@[simp] theorem State.inc_genAt (s : State) (f : Field) (i n k : Nat) : (s.inc f i n k).genAt = s.genAt := by
  unfold State.inc; split <;> rfl
@[simp] theorem State.inc_clk (s : State) (f : Field) (i n k : Nat) : (s.inc f i n k).clk = s.clk := by
  unfold State.inc; split <;> rfl
@[simp] theorem State.inc_msh (s : State) (f : Field) (i n k : Nat) : (s.inc f i n k).msh = s.msh := by
  unfold State.inc; split <;> rfl
@[simp] theorem State.inc_md (s : State) (f : Field) (i n k : Nat) : (s.inc f i n k).md = s.md := by
  unfold State.inc; split <;> rfl
@[simp] theorem State.inc_oa (s : State) (f : Field) (i n k : Nat) : (s.inc f i n k).oa = s.oa := by
  unfold State.inc; split <;> rfl
@[simp] theorem State.inc_resp (s : State) (f : Field) (i n k : Nat) : (s.inc f i n k).resp = s.resp := by
  unfold State.inc; split <;> rfl
@[simp] theorem State.inc_sec (s : State) (f : Field) (i n k : Nat) : (s.inc f i n k).sec = s.sec := by
  unfold State.inc; split <;> rfl
@[simp] theorem State.inc_sen (s : State) (f : Field) (i n k : Nat) : (s.inc f i n k).sen = s.sen := by
  unfold State.inc; split <;> rfl
@[simp] theorem State.inc_dirs (s : State) (f : Field) (i n k : Nat) : (s.inc f i n k).dirs = s.dirs := by
  unfold State.inc; split <;> rfl
@[simp] theorem State.inc_tor (s : State) (f : Field) (i n k : Nat) : (s.inc f i n k).tor = s.tor := by
  unfold State.inc; split <;> rfl
@[simp] theorem State.inc_out (s : State) (f : Field) (i n k : Nat) : (s.inc f i n k).out = s.out := by
  unfold State.inc; split <;> rfl
@[simp] theorem State.inc_freeCtr (s : State) (f : Field) (i n k : Nat) : (s.inc f i n k).freeCtr = s.freeCtr := by
  unfold State.inc; split <;> rfl
@[simp] theorem State.inc_pending (s : State) (f : Field) (i n k : Nat) : (s.inc f i n k).pending = s.pending := by
  unfold State.inc; split <;> rfl

end Sys2Proof.Machine
end

