-- ==== Sys2Proof/Laws/Frame.lean ====
section
/-! SUPPORT. The relation State.Within: kept by an update of the parts a mask names, and by composition. -/

namespace Sys2Proof.Machine

/-- The mask `a` names no more than the mask `b`. -/
abbrev Sub (a b : Nat) : Prop := a &&& b = a

theorem Sub.bit {a b n : Nat} (h : Sub a b) (ha : a.testBit n = true) : b.testBit n = true := by
  have h2 : (a &&& b).testBit n = a.testBit n := by rw [h]
  rw [Nat.testBit_and, ha] at h2
  simpa using h2

theorem Sub.bitOf {a b m n : Nat} (h : Sub a b) (ha : a.testBit n = true) (e : m = n) : b.testBit m = true := e ▸ h.bit ha

theorem Sub.mono {a b c : Nat} (h : Sub a b) (g : Sub c a) : Sub c b := by
  refine Nat.eq_of_testBit_eq fun i => ?_
  rw [Nat.testBit_and]
  cases hc : c.testBit i with
  | false => rfl
  | true => rw [h.bit (g.bit hc)]; rfl

theorem Sub.refl (a : Nat) : Sub a a := Nat.and_self a

theorem Field.area_le (f : Field) : f.area ≤ 79 := Nat.min_le_left _ _

/-- A mask that names every register area. -/
theorem Sub.any {a b : Nat} (h : Sub a b) (g : Sub (2 ^ 80 - 1) a) (f : Field) : b.testBit f.area = true := by
  refine h.bit (g.bit ?_)
  rw [Nat.testBit_two_pow_sub_one]
  exact decide_eq_true (Nat.lt_succ_of_le f.area_le)

/-- The area of a page's own header fields. -/
def Page.area (p : Page) : Nat := min 79 ((p.blk * 16 + p.page) / 16)

theorem hdr_bit {M off lo len : Nat} {acc : Acc} {p : Page} (h : M.testBit p.area = true) (ho : off * 64 + lo < 262144) :
    M.testBit (hdr p off lo len acc).area = true := by
  have : (hdr p off lo len acc).area = p.area := by
    unfold Field.area Page.area Field.code hdr
    dsimp only
    congr 1
    omega
  rw [this]
  exact h

theorem page_bit {a b B k n : Nat} {p : Page} (h : Sub a b) (hp : p = ⟨B, n, k⟩) (hk : k < 16) (ha : a.testBit (min 79 B) = true) :
    b.testBit p.area = true := by
  have : p.area = min 79 B := by
    rw [hp]
    unfold Page.area
    dsimp only
    congr 1
    omega
  rw [this]
  exact h.bit ha

theorem corePage_bit {a b ck : Nat} (h : Sub a b) (h0 : a.testBit 16 = true) (h1 : a.testBit 20 = true) (h2 : a.testBit 21 = true) :
    b.testBit (corePage ck).area = true := by
  unfold corePage
  split
  · exact page_bit h rfl (by decide) h0
  · split
    · exact page_bit h rfl (by decide) h1
    · exact page_bit h rfl (by decide) h2

theorem bankStateF_bit {a b n : Nat} (h : Sub a b) (ha : a.testBit 18 = true) : b.testBit (bankStateF n).area = true := by
  unfold bankStateF
  repeat' split
  all_goals exact h.bitOf ha (by decide)

theorem retrimF_bit {a b n : Nat} (h : Sub a b) (ha : a.testBit 18 = true) : b.testBit (retrimF n).area = true := by
  unfold retrimF
  repeat' split
  all_goals exact h.bitOf ha (by decide)

theorem driftHardF_bit {a b n : Nat} (h : Sub a b) (ha : a.testBit 18 = true) : b.testBit (driftHardF n).area = true := by
  unfold driftHardF
  repeat' split
  all_goals exact h.bitOf ha (by decide)

theorem gainF_bit {a b n : Nat} (h : Sub a b) (ha : a.testBit 18 = true) : b.testBit (gainF n).area = true := by
  unfold gainF
  repeat' split
  all_goals exact h.bitOf ha (by decide)

theorem offsetF_bit {a b n : Nat} (h : Sub a b) (ha : a.testBit 18 = true) : b.testBit (offsetF n).area = true := by
  unfold offsetF
  repeat' split
  all_goals exact h.bitOf ha (by decide)

theorem spanBaseF_bit {a b n : Nat} (h : Sub a b) (ha : a.testBit 18 = true) : b.testBit (spanBaseF n).area = true := by
  unfold spanBaseF
  repeat' split
  all_goals exact h.bitOf ha (by decide)

theorem zeroBaseF_bit {a b n : Nat} (h : Sub a b) (ha : a.testBit 18 = true) : b.testBit (zeroBaseF n).area = true := by
  unfold zeroBaseF
  repeat' split
  all_goals exact h.bitOf ha (by decide)

theorem readLoF_bit {a b n : Nat} (h : Sub a b) (ha : a.testBit 18 = true) : b.testBit (readLoF n).area = true := by
  unfold readLoF
  repeat' split
  all_goals exact h.bitOf ha (by decide)

theorem readHiF_bit {a b n : Nat} (h : Sub a b) (ha : a.testBit 18 = true) : b.testBit (readHiF n).area = true := by
  unfold readHiF
  repeat' split
  all_goals exact h.bitOf ha (by decide)

theorem sweepStampF_bit {a b n : Nat} (h : Sub a b) (ha : a.testBit 18 = true) : b.testBit (sweepStampF n).area = true := by
  unfold sweepStampF
  repeat' split
  all_goals exact h.bitOf ha (by decide)

theorem epochBankF_bit {a b n : Nat} (h : Sub a b) (ha : a.testBit 18 = true) : b.testBit (epochBankF n).area = true := by
  unfold epochBankF
  repeat' split
  all_goals exact h.bitOf ha (by decide)

theorem slotStateF_bit {a b n : Nat} (h : Sub a b) (ha : a.testBit 1 = true) : b.testBit (slotStateF n).area = true := by
  unfold slotStateF
  repeat' split
  all_goals exact h.bitOf ha (by decide)

theorem slotVersionF_bit {a b n : Nat} (h : Sub a b) (ha : a.testBit 1 = true) : b.testBit (slotVersionF n).area = true := by
  unfold slotVersionF
  repeat' split
  all_goals exact h.bitOf ha (by decide)

theorem slotSecurityF_bit {a b n : Nat} (h : Sub a b) (ha : a.testBit 1 = true) : b.testBit (slotSecurityF n).area = true := by
  unfold slotSecurityF
  repeat' split
  all_goals exact h.bitOf ha (by decide)

theorem rowMaxF_bit {a b n : Nat} (h : Sub a b) (ha : a.testBit 19 = true) : b.testBit (rowMaxF n).area = true := by
  unfold rowMaxF
  repeat' split
  all_goals exact h.bitOf ha (by decide)

theorem opsF_bit {a b n : Nat} (h : Sub a b) (ha : a.testBit 19 = true) : b.testBit (opsF n).area = true := by
  unfold opsF
  repeat' split
  all_goals exact h.bitOf ha (by decide)

theorem rowTotalF_bit {a b n : Nat} (h : Sub a b) (ha : a.testBit 19 = true) : b.testBit (rowTotalF n).area = true := by
  unfold rowTotalF
  repeat' split
  all_goals exact h.bitOf ha (by decide)

theorem wornF_bit {a b n : Nat} (h : Sub a b) (ha : a.testBit 19 = true) : b.testBit (wornF n).area = true := by
  unfold wornF
  repeat' split
  all_goals exact h.bitOf ha (by decide)

theorem jsrcF_bit {a b n : Nat} (h : Sub a b) (ha : a.testBit 19 = true) : b.testBit (jsrcF n).area = true := by
  unfold jsrcF
  repeat' split
  all_goals exact h.bitOf ha (by decide)

theorem jcrcF_bit {a b n : Nat} (h : Sub a b) (ha : a.testBit 19 = true) : b.testBit (jcrcF n).area = true := by
  unfold jcrcF
  repeat' split
  all_goals exact h.bitOf ha (by decide)

theorem jfmtF_bit {a b n : Nat} (h : Sub a b) (ha : a.testBit 19 = true) : b.testBit (jfmtF n).area = true := by
  unfold jfmtF
  repeat' split
  all_goals exact h.bitOf ha (by decide)

theorem jseqF_bit {a b n : Nat} (h : Sub a b) (ha : a.testBit 19 = true) : b.testBit (jseqF n).area = true := by
  unfold jseqF
  repeat' split
  all_goals exact h.bitOf ha (by decide)

theorem semHeldF_bit {a b n : Nat} (h : Sub a b) (ha : a.testBit 2 = true) : b.testBit (semHeldF n).area = true := by
  unfold semHeldF
  repeat' split
  all_goals exact h.bitOf ha (by decide)

theorem semHolderF_bit {a b n : Nat} (h : Sub a b) (ha : a.testBit 2 = true) : b.testBit (semHolderF n).area = true := by
  unfold semHolderF
  repeat' split
  all_goals exact h.bitOf ha (by decide)

theorem semSourceF_bit {a b n : Nat} (h : Sub a b) (ha : a.testBit 2 = true) : b.testBit (semSourceF n).area = true := by
  unfold semSourceF
  repeat' split
  all_goals exact h.bitOf ha (by decide)

theorem semWaitersF_bit {a b n : Nat} (h : Sub a b) (ha : a.testBit 2 = true) : b.testBit (semWaitersF n).area = true := by
  unfold semWaitersF
  repeat' split
  all_goals exact h.bitOf ha (by decide)

theorem mapPhysF_bit {a b n : Nat} (h : Sub a b) (ha : a.testBit 24 = true) : b.testBit (mapPhysF n).area = true := by
  unfold mapPhysF
  generalize n = j
  match j with
  | 0 | 1 | 2 | 3 | 4 | 5 | 6 | 7 => exact h.bitOf ha (by decide)
  | m + 8 =>
    simp only [List.getD_cons_succ, List.getD_nil]
    exact h.bitOf ha (by decide)

theorem mapAbsentF_bit {a b n : Nat} (h : Sub a b) (ha : a.testBit 24 = true) : b.testBit (mapAbsentF n).area = true := by
  unfold mapAbsentF
  generalize n = j
  match j with
  | 0 | 1 | 2 | 3 | 4 | 5 | 6 | 7 => exact h.bitOf ha (by decide)
  | m + 8 =>
    simp only [List.getD_cons_succ, List.getD_nil]
    exact h.bitOf ha (by decide)

theorem seqF_bit {a b n : Nat} (h : Sub a b) (ha : a.testBit 64 = true) : b.testBit (seqF n).area = true := by
  unfold seqF
  generalize n % 8 = j
  match j with
  | 0 | 1 | 2 | 3 | 4 | 5 | 6 | 7 => exact h.bitOf ha (by decide)
  | m + 8 =>
    simp only [List.getD_cons_succ, List.getD_nil]
    exact h.bitOf ha (by decide)

theorem resetCountF_bit {a b : Nat} {d : Dom} (h : Sub a b) (ha : a.testBit 8 = true) : b.testBit (resetCountF d).area = true := by
  unfold resetCountF
  split <;> exact h.bitOf ha (by decide)

theorem runField_bit {a b n : Nat} (h : Sub a b) (h0 : a.testBit 16 = true) (h1 : a.testBit 20 = true) (h2 : a.testBit 21 = true) :
    b.testBit (runField n).area = true := by
  unfold runField
  split
  · exact h.bitOf h0 (by decide)
  · split
    · exact h.bitOf h1 (by decide)
    · exact h.bitOf h2 (by decide)

theorem Sub.anyPage {a b : Nat} (h : Sub a b) (g : Sub (2 ^ 80 - 1) a) (p : Page) : b.testBit p.area = true := by
  refine h.bit (g.bit ?_)
  rw [Nat.testBit_two_pow_sub_one]
  exact decide_eq_true (Nat.lt_succ_of_le (Nat.min_le_left _ _))

theorem State.frame_refl (M : Nat) (s : State) : s.Within M s := by
  refine ⟨fun _ _ _ => .inr rfl, ?_⟩
  simp only [or_true, and_true]

/-- One part through two updates. -/
theorem or_trans_eq {α : Type} {c : Prop} {a b d : α} (g : c ∨ b = a) (h : c ∨ d = b) : c ∨ d = a := by
  rcases h with h | h
  · exact .inl h
  · rcases g with g | g
    · exact .inl g
    · exact .inr (h.trans g)

/-- An update of parts, the registers as they were. -/
theorem State.frame_mk {anc s : State} {M : Nat}
    {x_now : Nat} {x_elapsed : Nat} {x_resetCount : Tbl Nat} {x_irqLatch : List Nat} {x_irqs : List Nat}
    {x_staging : List Event} {x_lostStamps : Option (Nat × Nat × Nat)} {x_log : List LogRec} {x_plog : List LogRec}
    {x_cmds : List OpenCmd} {x_held : List Held} {x_resume : Option (Nat × Nat)} {x_cmdRecs : List CmdRec} {x_qps : Tbl QpSt}
    {x_ports : Tbl PortSt} {x_sems : Tbl SemSt} {x_ctxs : Tbl Ctx} {x_ctxReuse : Tbl Nat} {x_reqs : List Req}
    {x_ended : List Req} {x_rings : Tbl RingSt} {x_doorbells : List Doorbell} {x_vars : Tbl VarSt} {x_lastEpoch : Nat}
    {x_rems : Tbl Nat} {x_kv : Tbl KvPool} {x_hbm : List Host.Cell} {x_hbmTags : Tbl Nat} {x_resv : Tbl Nat}
    {x_sram : List Host.Cell} {x_sramHollow : List Nat} {x_eng : Tbl EngSt} {x_cells : Tbl (List Int)} {x_rowCharge : Tbl Nat}
    {x_prog : Tbl ProgSt} {x_jour : Tbl JSlot} {x_powered : Nat} {x_poweredKept : Nat} {x_mc : Tbl McSt} {x_vc : Tbl VcSt}
    {x_sc : Tbl ScSt} {x_pools : Tbl PoolSt} {x_chans : List Chan} {x_bufs : Tbl BufSt} {x_rsts : List ResetRec}
    {x_genAt : Tbl Nat} {x_clk : Clocks} {x_msh : MeshSt} {x_md : ModSt} {x_oa : OaSt} {x_resp : Nat × Nat} {x_sec : SecSt}
    {x_sen : SenseSt} {x_dirs : Tbl DirSt} {x_tor : TorusSt} {x_out : List Out} {x_freeCtr : Nat} {x_pending : List Instr}
    (hs : anc.Within M s)
    (h : (M.testBit 80 = true ∨ x_now = s.now) ∧
      (M.testBit 81 = true ∨ x_elapsed = s.elapsed) ∧
      (M.testBit 82 = true ∨ x_resetCount = s.resetCount) ∧
      (M.testBit 83 = true ∨ x_irqLatch = s.irqLatch) ∧
      (M.testBit 84 = true ∨ x_irqs = s.irqs) ∧
      (M.testBit 85 = true ∨ x_staging = s.staging) ∧
      (M.testBit 86 = true ∨ x_lostStamps = s.lostStamps) ∧
      (M.testBit 87 = true ∨ x_log = s.log) ∧
      (M.testBit 88 = true ∨ x_plog = s.plog) ∧
      (M.testBit 89 = true ∨ x_cmds = s.cmds) ∧
      (M.testBit 90 = true ∨ x_held = s.held) ∧
      (M.testBit 91 = true ∨ x_resume = s.resume) ∧
      (M.testBit 92 = true ∨ x_cmdRecs = s.cmdRecs) ∧
      (M.testBit 93 = true ∨ x_qps = s.qps) ∧
      (M.testBit 94 = true ∨ x_ports = s.ports) ∧
      (M.testBit 95 = true ∨ x_sems = s.sems) ∧
      (M.testBit 96 = true ∨ x_ctxs = s.ctxs) ∧
      (M.testBit 97 = true ∨ x_ctxReuse = s.ctxReuse) ∧
      (M.testBit 98 = true ∨ x_reqs = s.reqs) ∧
      (M.testBit 99 = true ∨ x_ended = s.ended) ∧
      (M.testBit 100 = true ∨ x_rings = s.rings) ∧
      (M.testBit 101 = true ∨ x_doorbells = s.doorbells) ∧
      (M.testBit 102 = true ∨ x_vars = s.vars) ∧
      (M.testBit 103 = true ∨ x_lastEpoch = s.lastEpoch) ∧
      (M.testBit 104 = true ∨ x_rems = s.rems) ∧
      (M.testBit 105 = true ∨ x_kv = s.kv) ∧
      (M.testBit 106 = true ∨ x_hbm = s.hbm) ∧
      (M.testBit 107 = true ∨ x_hbmTags = s.hbmTags) ∧
      (M.testBit 108 = true ∨ x_resv = s.resv) ∧
      (M.testBit 109 = true ∨ x_sram = s.sram) ∧
      (M.testBit 110 = true ∨ x_sramHollow = s.sramHollow) ∧
      (M.testBit 111 = true ∨ x_eng = s.eng) ∧
      (M.testBit 112 = true ∨ x_cells = s.cells) ∧
      (M.testBit 113 = true ∨ x_rowCharge = s.rowCharge) ∧
      (M.testBit 114 = true ∨ x_prog = s.prog) ∧
      (M.testBit 115 = true ∨ x_jour = s.jour) ∧
      (M.testBit 116 = true ∨ x_powered = s.powered) ∧
      (M.testBit 117 = true ∨ x_poweredKept = s.poweredKept) ∧
      (M.testBit 118 = true ∨ x_mc = s.mc) ∧
      (M.testBit 119 = true ∨ x_vc = s.vc) ∧
      (M.testBit 120 = true ∨ x_sc = s.sc) ∧
      (M.testBit 121 = true ∨ x_pools = s.pools) ∧
      (M.testBit 122 = true ∨ x_chans = s.chans) ∧
      (M.testBit 123 = true ∨ x_bufs = s.bufs) ∧
      (M.testBit 124 = true ∨ x_rsts = s.rsts) ∧
      (M.testBit 125 = true ∨ x_genAt = s.genAt) ∧
      (M.testBit 126 = true ∨ x_clk = s.clk) ∧
      (M.testBit 127 = true ∨ x_msh = s.msh) ∧
      (M.testBit 128 = true ∨ x_md = s.md) ∧
      (M.testBit 129 = true ∨ x_oa = s.oa) ∧
      (M.testBit 130 = true ∨ x_resp = s.resp) ∧
      (M.testBit 131 = true ∨ x_sec = s.sec) ∧
      (M.testBit 132 = true ∨ x_sen = s.sen) ∧
      (M.testBit 133 = true ∨ x_dirs = s.dirs) ∧
      (M.testBit 134 = true ∨ x_tor = s.tor) ∧
      (M.testBit 135 = true ∨ x_out = s.out) ∧
      (M.testBit 136 = true ∨ x_freeCtr = s.freeCtr) ∧
      (M.testBit 137 = true ∨ x_pending = s.pending)) :
    anc.Within M (State.mk s.regs x_now x_elapsed x_resetCount x_irqLatch x_irqs x_staging x_lostStamps x_log x_plog x_cmds x_held x_resume x_cmdRecs x_qps x_ports x_sems x_ctxs x_ctxReuse x_reqs x_ended x_rings x_doorbells x_vars x_lastEpoch x_rems x_kv x_hbm x_hbmTags x_resv x_sram x_sramHollow x_eng x_cells x_rowCharge x_prog x_jour x_powered x_poweredKept x_mc x_vc x_sc x_pools x_chans x_bufs x_rsts x_genAt x_clk x_msh x_md x_oa x_resp x_sec x_sen x_dirs x_tor x_out x_freeCtr x_pending) := by
  obtain ⟨g0, g1, g2, g3, g4, g5, g6, g7, g8, g9, g10, g11, g12, g13, g14, g15, g16, g17, g18, g19, g20, g21, g22, g23, g24, g25, g26, g27, g28, g29, g30, g31, g32, g33, g34, g35, g36, g37, g38, g39, g40, g41, g42, g43, g44, g45, g46, g47, g48, g49, g50, g51, g52, g53, g54, g55, g56, g57, g58⟩ := hs
  obtain ⟨h1, h2, h3, h4, h5, h6, h7, h8, h9, h10, h11, h12, h13, h14, h15, h16, h17, h18, h19, h20, h21, h22, h23, h24, h25, h26, h27, h28, h29, h30, h31, h32, h33, h34, h35, h36, h37, h38, h39, h40, h41, h42, h43, h44, h45, h46, h47, h48, h49, h50, h51, h52, h53, h54, h55, h56, h57, h58⟩ := h
  exact ⟨g0, or_trans_eq g1 h1, or_trans_eq g2 h2, or_trans_eq g3 h3, or_trans_eq g4 h4, or_trans_eq g5 h5, or_trans_eq g6 h6, or_trans_eq g7 h7, or_trans_eq g8 h8, or_trans_eq g9 h9, or_trans_eq g10 h10, or_trans_eq g11 h11, or_trans_eq g12 h12, or_trans_eq g13 h13, or_trans_eq g14 h14, or_trans_eq g15 h15, or_trans_eq g16 h16, or_trans_eq g17 h17, or_trans_eq g18 h18, or_trans_eq g19 h19, or_trans_eq g20 h20, or_trans_eq g21 h21, or_trans_eq g22 h22, or_trans_eq g23 h23, or_trans_eq g24 h24, or_trans_eq g25 h25, or_trans_eq g26 h26, or_trans_eq g27 h27, or_trans_eq g28 h28, or_trans_eq g29 h29, or_trans_eq g30 h30, or_trans_eq g31 h31, or_trans_eq g32 h32, or_trans_eq g33 h33, or_trans_eq g34 h34, or_trans_eq g35 h35, or_trans_eq g36 h36, or_trans_eq g37 h37, or_trans_eq g38 h38, or_trans_eq g39 h39, or_trans_eq g40 h40, or_trans_eq g41 h41, or_trans_eq g42 h42, or_trans_eq g43 h43, or_trans_eq g44 h44, or_trans_eq g45 h45, or_trans_eq g46 h46, or_trans_eq g47 h47, or_trans_eq g48 h48, or_trans_eq g49 h49, or_trans_eq g50 h50, or_trans_eq g51 h51, or_trans_eq g52 h52, or_trans_eq g53 h53, or_trans_eq g54 h54, or_trans_eq g55 h55, or_trans_eq g56 h56, or_trans_eq g57 h57, or_trans_eq g58 h58⟩

theorem State.frame_trans {a b c : State} {M : Nat} (hab : a.Within M b) (hbc : b.Within M c) : a.Within M c := by
  obtain ⟨g0, g1, g2, g3, g4, g5, g6, g7, g8, g9, g10, g11, g12, g13, g14, g15, g16, g17, g18, g19, g20, g21, g22, g23, g24, g25, g26, g27, g28, g29, g30, g31, g32, g33, g34, g35, g36, g37, g38, g39, g40, g41, g42, g43, g44, g45, g46, g47, g48, g49, g50, g51, g52, g53, g54, g55, g56, g57, g58⟩ := hab
  obtain ⟨h0, h1, h2, h3, h4, h5, h6, h7, h8, h9, h10, h11, h12, h13, h14, h15, h16, h17, h18, h19, h20, h21, h22, h23, h24, h25, h26, h27, h28, h29, h30, h31, h32, h33, h34, h35, h36, h37, h38, h39, h40, h41, h42, h43, h44, h45, h46, h47, h48, h49, h50, h51, h52, h53, h54, h55, h56, h57, h58⟩ := hbc
  exact ⟨fun f i k => or_trans_eq (g0 f i k) (h0 f i k), or_trans_eq g1 h1, or_trans_eq g2 h2, or_trans_eq g3 h3, or_trans_eq g4 h4, or_trans_eq g5 h5, or_trans_eq g6 h6, or_trans_eq g7 h7, or_trans_eq g8 h8, or_trans_eq g9 h9, or_trans_eq g10 h10, or_trans_eq g11 h11, or_trans_eq g12 h12, or_trans_eq g13 h13, or_trans_eq g14 h14, or_trans_eq g15 h15, or_trans_eq g16 h16, or_trans_eq g17 h17, or_trans_eq g18 h18, or_trans_eq g19 h19, or_trans_eq g20 h20, or_trans_eq g21 h21, or_trans_eq g22 h22, or_trans_eq g23 h23, or_trans_eq g24 h24, or_trans_eq g25 h25, or_trans_eq g26 h26, or_trans_eq g27 h27, or_trans_eq g28 h28, or_trans_eq g29 h29, or_trans_eq g30 h30, or_trans_eq g31 h31, or_trans_eq g32 h32, or_trans_eq g33 h33, or_trans_eq g34 h34, or_trans_eq g35 h35, or_trans_eq g36 h36, or_trans_eq g37 h37, or_trans_eq g38 h38, or_trans_eq g39 h39, or_trans_eq g40 h40, or_trans_eq g41 h41, or_trans_eq g42 h42, or_trans_eq g43 h43, or_trans_eq g44 h44, or_trans_eq g45 h45, or_trans_eq g46 h46, or_trans_eq g47 h47, or_trans_eq g48 h48, or_trans_eq g49 h49, or_trans_eq g50 h50, or_trans_eq g51 h51, or_trans_eq g52 h52, or_trans_eq g53 h53, or_trans_eq g54 h54, or_trans_eq g55 h55, or_trans_eq g56 h56, or_trans_eq g57 h57, or_trans_eq g58 h58⟩

/-- A register field outside the mask. -/
theorem State.Within.rf {a b : State} {m i k : Nat} {f : Field} (h : a.Within m b) (hf : m.testBit f.area = false) : b.rf f i k = a.rf f i k :=
  (h.1 f i k).resolve_left (by simp [hf])

theorem State.Within.rb {a b : State} {m i k : Nat} {f : Field} (h : a.Within m b) (hf : m.testBit f.area = false) : b.rb f i k = a.rb f i k := by
  simp [State.rb, h.rf hf]

theorem State.Within.now {a b : State} {m : Nat} (h : a.Within m b) (hp : m.testBit 80 = false) : b.now = a.now :=
  Or.resolve_left h.2.1 (by simp [hp])
theorem State.Within.elapsed {a b : State} {m : Nat} (h : a.Within m b) (hp : m.testBit 81 = false) : b.elapsed = a.elapsed :=
  Or.resolve_left h.2.2.1 (by simp [hp])
theorem State.Within.resetCount {a b : State} {m : Nat} (h : a.Within m b) (hp : m.testBit 82 = false) : b.resetCount = a.resetCount :=
  Or.resolve_left h.2.2.2.1 (by simp [hp])
theorem State.Within.irqLatch {a b : State} {m : Nat} (h : a.Within m b) (hp : m.testBit 83 = false) : b.irqLatch = a.irqLatch :=
  Or.resolve_left h.2.2.2.2.1 (by simp [hp])
theorem State.Within.irqs {a b : State} {m : Nat} (h : a.Within m b) (hp : m.testBit 84 = false) : b.irqs = a.irqs :=
  Or.resolve_left h.2.2.2.2.2.1 (by simp [hp])
theorem State.Within.staging {a b : State} {m : Nat} (h : a.Within m b) (hp : m.testBit 85 = false) : b.staging = a.staging :=
  Or.resolve_left h.2.2.2.2.2.2.1 (by simp [hp])
theorem State.Within.lostStamps {a b : State} {m : Nat} (h : a.Within m b) (hp : m.testBit 86 = false) : b.lostStamps = a.lostStamps :=
  Or.resolve_left h.2.2.2.2.2.2.2.1 (by simp [hp])
theorem State.Within.log {a b : State} {m : Nat} (h : a.Within m b) (hp : m.testBit 87 = false) : b.log = a.log :=
  Or.resolve_left h.2.2.2.2.2.2.2.2.1 (by simp [hp])
theorem State.Within.plog {a b : State} {m : Nat} (h : a.Within m b) (hp : m.testBit 88 = false) : b.plog = a.plog :=
  Or.resolve_left h.2.2.2.2.2.2.2.2.2.1 (by simp [hp])
theorem State.Within.cmds {a b : State} {m : Nat} (h : a.Within m b) (hp : m.testBit 89 = false) : b.cmds = a.cmds :=
  Or.resolve_left h.2.2.2.2.2.2.2.2.2.2.1 (by simp [hp])
theorem State.Within.held {a b : State} {m : Nat} (h : a.Within m b) (hp : m.testBit 90 = false) : b.held = a.held :=
  Or.resolve_left h.2.2.2.2.2.2.2.2.2.2.2.1 (by simp [hp])
theorem State.Within.resume {a b : State} {m : Nat} (h : a.Within m b) (hp : m.testBit 91 = false) : b.resume = a.resume :=
  Or.resolve_left h.2.2.2.2.2.2.2.2.2.2.2.2.1 (by simp [hp])
theorem State.Within.cmdRecs {a b : State} {m : Nat} (h : a.Within m b) (hp : m.testBit 92 = false) : b.cmdRecs = a.cmdRecs :=
  Or.resolve_left h.2.2.2.2.2.2.2.2.2.2.2.2.2.1 (by simp [hp])
theorem State.Within.qps {a b : State} {m : Nat} (h : a.Within m b) (hp : m.testBit 93 = false) : b.qps = a.qps :=
  Or.resolve_left h.2.2.2.2.2.2.2.2.2.2.2.2.2.2.1 (by simp [hp])
theorem State.Within.ports {a b : State} {m : Nat} (h : a.Within m b) (hp : m.testBit 94 = false) : b.ports = a.ports :=
  Or.resolve_left h.2.2.2.2.2.2.2.2.2.2.2.2.2.2.2.1 (by simp [hp])
theorem State.Within.sems {a b : State} {m : Nat} (h : a.Within m b) (hp : m.testBit 95 = false) : b.sems = a.sems :=
  Or.resolve_left h.2.2.2.2.2.2.2.2.2.2.2.2.2.2.2.2.1 (by simp [hp])
theorem State.Within.ctxs {a b : State} {m : Nat} (h : a.Within m b) (hp : m.testBit 96 = false) : b.ctxs = a.ctxs :=
  Or.resolve_left h.2.2.2.2.2.2.2.2.2.2.2.2.2.2.2.2.2.1 (by simp [hp])
theorem State.Within.ctxReuse {a b : State} {m : Nat} (h : a.Within m b) (hp : m.testBit 97 = false) : b.ctxReuse = a.ctxReuse :=
  Or.resolve_left h.2.2.2.2.2.2.2.2.2.2.2.2.2.2.2.2.2.2.1 (by simp [hp])
theorem State.Within.reqs {a b : State} {m : Nat} (h : a.Within m b) (hp : m.testBit 98 = false) : b.reqs = a.reqs :=
  Or.resolve_left h.2.2.2.2.2.2.2.2.2.2.2.2.2.2.2.2.2.2.2.1 (by simp [hp])
theorem State.Within.ended {a b : State} {m : Nat} (h : a.Within m b) (hp : m.testBit 99 = false) : b.ended = a.ended :=
  Or.resolve_left h.2.2.2.2.2.2.2.2.2.2.2.2.2.2.2.2.2.2.2.2.1 (by simp [hp])
theorem State.Within.rings {a b : State} {m : Nat} (h : a.Within m b) (hp : m.testBit 100 = false) : b.rings = a.rings :=
  Or.resolve_left h.2.2.2.2.2.2.2.2.2.2.2.2.2.2.2.2.2.2.2.2.2.1 (by simp [hp])
theorem State.Within.doorbells {a b : State} {m : Nat} (h : a.Within m b) (hp : m.testBit 101 = false) : b.doorbells = a.doorbells :=
  Or.resolve_left h.2.2.2.2.2.2.2.2.2.2.2.2.2.2.2.2.2.2.2.2.2.2.1 (by simp [hp])
theorem State.Within.vars {a b : State} {m : Nat} (h : a.Within m b) (hp : m.testBit 102 = false) : b.vars = a.vars :=
  Or.resolve_left h.2.2.2.2.2.2.2.2.2.2.2.2.2.2.2.2.2.2.2.2.2.2.2.1 (by simp [hp])
theorem State.Within.lastEpoch {a b : State} {m : Nat} (h : a.Within m b) (hp : m.testBit 103 = false) : b.lastEpoch = a.lastEpoch :=
  Or.resolve_left h.2.2.2.2.2.2.2.2.2.2.2.2.2.2.2.2.2.2.2.2.2.2.2.2.1 (by simp [hp])
theorem State.Within.rems {a b : State} {m : Nat} (h : a.Within m b) (hp : m.testBit 104 = false) : b.rems = a.rems :=
  Or.resolve_left h.2.2.2.2.2.2.2.2.2.2.2.2.2.2.2.2.2.2.2.2.2.2.2.2.2.1 (by simp [hp])
theorem State.Within.kv {a b : State} {m : Nat} (h : a.Within m b) (hp : m.testBit 105 = false) : b.kv = a.kv :=
  Or.resolve_left h.2.2.2.2.2.2.2.2.2.2.2.2.2.2.2.2.2.2.2.2.2.2.2.2.2.2.1 (by simp [hp])
theorem State.Within.hbm {a b : State} {m : Nat} (h : a.Within m b) (hp : m.testBit 106 = false) : b.hbm = a.hbm :=
  Or.resolve_left h.2.2.2.2.2.2.2.2.2.2.2.2.2.2.2.2.2.2.2.2.2.2.2.2.2.2.2.1 (by simp [hp])
theorem State.Within.hbmTags {a b : State} {m : Nat} (h : a.Within m b) (hp : m.testBit 107 = false) : b.hbmTags = a.hbmTags :=
  Or.resolve_left h.2.2.2.2.2.2.2.2.2.2.2.2.2.2.2.2.2.2.2.2.2.2.2.2.2.2.2.2.1 (by simp [hp])
theorem State.Within.resv {a b : State} {m : Nat} (h : a.Within m b) (hp : m.testBit 108 = false) : b.resv = a.resv :=
  Or.resolve_left h.2.2.2.2.2.2.2.2.2.2.2.2.2.2.2.2.2.2.2.2.2.2.2.2.2.2.2.2.2.1 (by simp [hp])
theorem State.Within.sram {a b : State} {m : Nat} (h : a.Within m b) (hp : m.testBit 109 = false) : b.sram = a.sram :=
  Or.resolve_left h.2.2.2.2.2.2.2.2.2.2.2.2.2.2.2.2.2.2.2.2.2.2.2.2.2.2.2.2.2.2.1 (by simp [hp])
theorem State.Within.sramHollow {a b : State} {m : Nat} (h : a.Within m b) (hp : m.testBit 110 = false) : b.sramHollow = a.sramHollow :=
  Or.resolve_left h.2.2.2.2.2.2.2.2.2.2.2.2.2.2.2.2.2.2.2.2.2.2.2.2.2.2.2.2.2.2.2.1 (by simp [hp])
theorem State.Within.eng {a b : State} {m : Nat} (h : a.Within m b) (hp : m.testBit 111 = false) : b.eng = a.eng :=
  Or.resolve_left h.2.2.2.2.2.2.2.2.2.2.2.2.2.2.2.2.2.2.2.2.2.2.2.2.2.2.2.2.2.2.2.2.1 (by simp [hp])
theorem State.Within.cells {a b : State} {m : Nat} (h : a.Within m b) (hp : m.testBit 112 = false) : b.cells = a.cells :=
  Or.resolve_left h.2.2.2.2.2.2.2.2.2.2.2.2.2.2.2.2.2.2.2.2.2.2.2.2.2.2.2.2.2.2.2.2.2.1 (by simp [hp])
theorem State.Within.rowCharge {a b : State} {m : Nat} (h : a.Within m b) (hp : m.testBit 113 = false) : b.rowCharge = a.rowCharge :=
  Or.resolve_left h.2.2.2.2.2.2.2.2.2.2.2.2.2.2.2.2.2.2.2.2.2.2.2.2.2.2.2.2.2.2.2.2.2.2.1 (by simp [hp])
theorem State.Within.prog {a b : State} {m : Nat} (h : a.Within m b) (hp : m.testBit 114 = false) : b.prog = a.prog :=
  Or.resolve_left h.2.2.2.2.2.2.2.2.2.2.2.2.2.2.2.2.2.2.2.2.2.2.2.2.2.2.2.2.2.2.2.2.2.2.2.1 (by simp [hp])
theorem State.Within.jour {a b : State} {m : Nat} (h : a.Within m b) (hp : m.testBit 115 = false) : b.jour = a.jour :=
  Or.resolve_left h.2.2.2.2.2.2.2.2.2.2.2.2.2.2.2.2.2.2.2.2.2.2.2.2.2.2.2.2.2.2.2.2.2.2.2.2.1 (by simp [hp])
theorem State.Within.powered {a b : State} {m : Nat} (h : a.Within m b) (hp : m.testBit 116 = false) : b.powered = a.powered :=
  Or.resolve_left h.2.2.2.2.2.2.2.2.2.2.2.2.2.2.2.2.2.2.2.2.2.2.2.2.2.2.2.2.2.2.2.2.2.2.2.2.2.1 (by simp [hp])
theorem State.Within.poweredKept {a b : State} {m : Nat} (h : a.Within m b) (hp : m.testBit 117 = false) : b.poweredKept = a.poweredKept :=
  Or.resolve_left h.2.2.2.2.2.2.2.2.2.2.2.2.2.2.2.2.2.2.2.2.2.2.2.2.2.2.2.2.2.2.2.2.2.2.2.2.2.2.1 (by simp [hp])
theorem State.Within.mc {a b : State} {m : Nat} (h : a.Within m b) (hp : m.testBit 118 = false) : b.mc = a.mc :=
  Or.resolve_left h.2.2.2.2.2.2.2.2.2.2.2.2.2.2.2.2.2.2.2.2.2.2.2.2.2.2.2.2.2.2.2.2.2.2.2.2.2.2.2.1 (by simp [hp])
theorem State.Within.vc {a b : State} {m : Nat} (h : a.Within m b) (hp : m.testBit 119 = false) : b.vc = a.vc :=
  Or.resolve_left h.2.2.2.2.2.2.2.2.2.2.2.2.2.2.2.2.2.2.2.2.2.2.2.2.2.2.2.2.2.2.2.2.2.2.2.2.2.2.2.2.1 (by simp [hp])
theorem State.Within.sc {a b : State} {m : Nat} (h : a.Within m b) (hp : m.testBit 120 = false) : b.sc = a.sc :=
  Or.resolve_left h.2.2.2.2.2.2.2.2.2.2.2.2.2.2.2.2.2.2.2.2.2.2.2.2.2.2.2.2.2.2.2.2.2.2.2.2.2.2.2.2.2.1 (by simp [hp])
theorem State.Within.pools {a b : State} {m : Nat} (h : a.Within m b) (hp : m.testBit 121 = false) : b.pools = a.pools :=
  Or.resolve_left h.2.2.2.2.2.2.2.2.2.2.2.2.2.2.2.2.2.2.2.2.2.2.2.2.2.2.2.2.2.2.2.2.2.2.2.2.2.2.2.2.2.2.1 (by simp [hp])
theorem State.Within.chans {a b : State} {m : Nat} (h : a.Within m b) (hp : m.testBit 122 = false) : b.chans = a.chans :=
  Or.resolve_left h.2.2.2.2.2.2.2.2.2.2.2.2.2.2.2.2.2.2.2.2.2.2.2.2.2.2.2.2.2.2.2.2.2.2.2.2.2.2.2.2.2.2.2.1 (by simp [hp])
theorem State.Within.bufs {a b : State} {m : Nat} (h : a.Within m b) (hp : m.testBit 123 = false) : b.bufs = a.bufs :=
  Or.resolve_left h.2.2.2.2.2.2.2.2.2.2.2.2.2.2.2.2.2.2.2.2.2.2.2.2.2.2.2.2.2.2.2.2.2.2.2.2.2.2.2.2.2.2.2.2.1 (by simp [hp])
theorem State.Within.rsts {a b : State} {m : Nat} (h : a.Within m b) (hp : m.testBit 124 = false) : b.rsts = a.rsts :=
  Or.resolve_left h.2.2.2.2.2.2.2.2.2.2.2.2.2.2.2.2.2.2.2.2.2.2.2.2.2.2.2.2.2.2.2.2.2.2.2.2.2.2.2.2.2.2.2.2.2.1 (by simp [hp])
theorem State.Within.genAt {a b : State} {m : Nat} (h : a.Within m b) (hp : m.testBit 125 = false) : b.genAt = a.genAt :=
  Or.resolve_left h.2.2.2.2.2.2.2.2.2.2.2.2.2.2.2.2.2.2.2.2.2.2.2.2.2.2.2.2.2.2.2.2.2.2.2.2.2.2.2.2.2.2.2.2.2.2.1 (by simp [hp])
theorem State.Within.clk {a b : State} {m : Nat} (h : a.Within m b) (hp : m.testBit 126 = false) : b.clk = a.clk :=
  Or.resolve_left h.2.2.2.2.2.2.2.2.2.2.2.2.2.2.2.2.2.2.2.2.2.2.2.2.2.2.2.2.2.2.2.2.2.2.2.2.2.2.2.2.2.2.2.2.2.2.2.1 (by simp [hp])
theorem State.Within.msh {a b : State} {m : Nat} (h : a.Within m b) (hp : m.testBit 127 = false) : b.msh = a.msh :=
  Or.resolve_left h.2.2.2.2.2.2.2.2.2.2.2.2.2.2.2.2.2.2.2.2.2.2.2.2.2.2.2.2.2.2.2.2.2.2.2.2.2.2.2.2.2.2.2.2.2.2.2.2.1 (by simp [hp])
theorem State.Within.md {a b : State} {m : Nat} (h : a.Within m b) (hp : m.testBit 128 = false) : b.md = a.md :=
  Or.resolve_left h.2.2.2.2.2.2.2.2.2.2.2.2.2.2.2.2.2.2.2.2.2.2.2.2.2.2.2.2.2.2.2.2.2.2.2.2.2.2.2.2.2.2.2.2.2.2.2.2.2.1 (by simp [hp])
theorem State.Within.oa {a b : State} {m : Nat} (h : a.Within m b) (hp : m.testBit 129 = false) : b.oa = a.oa :=
  Or.resolve_left h.2.2.2.2.2.2.2.2.2.2.2.2.2.2.2.2.2.2.2.2.2.2.2.2.2.2.2.2.2.2.2.2.2.2.2.2.2.2.2.2.2.2.2.2.2.2.2.2.2.2.1 (by simp [hp])
theorem State.Within.resp {a b : State} {m : Nat} (h : a.Within m b) (hp : m.testBit 130 = false) : b.resp = a.resp :=
  Or.resolve_left h.2.2.2.2.2.2.2.2.2.2.2.2.2.2.2.2.2.2.2.2.2.2.2.2.2.2.2.2.2.2.2.2.2.2.2.2.2.2.2.2.2.2.2.2.2.2.2.2.2.2.2.1 (by simp [hp])
theorem State.Within.sec {a b : State} {m : Nat} (h : a.Within m b) (hp : m.testBit 131 = false) : b.sec = a.sec :=
  Or.resolve_left h.2.2.2.2.2.2.2.2.2.2.2.2.2.2.2.2.2.2.2.2.2.2.2.2.2.2.2.2.2.2.2.2.2.2.2.2.2.2.2.2.2.2.2.2.2.2.2.2.2.2.2.2.1 (by simp [hp])
theorem State.Within.sen {a b : State} {m : Nat} (h : a.Within m b) (hp : m.testBit 132 = false) : b.sen = a.sen :=
  Or.resolve_left h.2.2.2.2.2.2.2.2.2.2.2.2.2.2.2.2.2.2.2.2.2.2.2.2.2.2.2.2.2.2.2.2.2.2.2.2.2.2.2.2.2.2.2.2.2.2.2.2.2.2.2.2.2.1 (by simp [hp])
theorem State.Within.dirs {a b : State} {m : Nat} (h : a.Within m b) (hp : m.testBit 133 = false) : b.dirs = a.dirs :=
  Or.resolve_left h.2.2.2.2.2.2.2.2.2.2.2.2.2.2.2.2.2.2.2.2.2.2.2.2.2.2.2.2.2.2.2.2.2.2.2.2.2.2.2.2.2.2.2.2.2.2.2.2.2.2.2.2.2.2.1 (by simp [hp])
theorem State.Within.tor {a b : State} {m : Nat} (h : a.Within m b) (hp : m.testBit 134 = false) : b.tor = a.tor :=
  Or.resolve_left h.2.2.2.2.2.2.2.2.2.2.2.2.2.2.2.2.2.2.2.2.2.2.2.2.2.2.2.2.2.2.2.2.2.2.2.2.2.2.2.2.2.2.2.2.2.2.2.2.2.2.2.2.2.2.2.1 (by simp [hp])
theorem State.Within.out {a b : State} {m : Nat} (h : a.Within m b) (hp : m.testBit 135 = false) : b.out = a.out :=
  Or.resolve_left h.2.2.2.2.2.2.2.2.2.2.2.2.2.2.2.2.2.2.2.2.2.2.2.2.2.2.2.2.2.2.2.2.2.2.2.2.2.2.2.2.2.2.2.2.2.2.2.2.2.2.2.2.2.2.2.2.1 (by simp [hp])
theorem State.Within.freeCtr {a b : State} {m : Nat} (h : a.Within m b) (hp : m.testBit 136 = false) : b.freeCtr = a.freeCtr :=
  Or.resolve_left h.2.2.2.2.2.2.2.2.2.2.2.2.2.2.2.2.2.2.2.2.2.2.2.2.2.2.2.2.2.2.2.2.2.2.2.2.2.2.2.2.2.2.2.2.2.2.2.2.2.2.2.2.2.2.2.2.2.1 (by simp [hp])
theorem State.Within.pending {a b : State} {m : Nat} (h : a.Within m b) (hp : m.testBit 137 = false) : b.pending = a.pending :=
  Or.resolve_left h.2.2.2.2.2.2.2.2.2.2.2.2.2.2.2.2.2.2.2.2.2.2.2.2.2.2.2.2.2.2.2.2.2.2.2.2.2.2.2.2.2.2.2.2.2.2.2.2.2.2.2.2.2.2.2.2.2.2 (by simp [hp])

/-- A wider mask. -/
theorem State.Within.mono {a b : State} {m M : Nat} (h : a.Within m b) (hm : Sub m M) : a.Within M b := by
  obtain ⟨g0, g1, g2, g3, g4, g5, g6, g7, g8, g9, g10, g11, g12, g13, g14, g15, g16, g17, g18, g19, g20, g21, g22, g23, g24, g25, g26, g27, g28, g29, g30, g31, g32, g33, g34, g35, g36, g37, g38, g39, g40, g41, g42, g43, g44, g45, g46, g47, g48, g49, g50, g51, g52, g53, g54, g55, g56, g57, g58⟩ := h
  exact ⟨fun f i k => (g0 f i k).imp_left hm.bit, g1.imp_left hm.bit, g2.imp_left hm.bit, g3.imp_left hm.bit, g4.imp_left hm.bit, g5.imp_left hm.bit, g6.imp_left hm.bit, g7.imp_left hm.bit, g8.imp_left hm.bit, g9.imp_left hm.bit, g10.imp_left hm.bit, g11.imp_left hm.bit, g12.imp_left hm.bit, g13.imp_left hm.bit, g14.imp_left hm.bit, g15.imp_left hm.bit, g16.imp_left hm.bit, g17.imp_left hm.bit, g18.imp_left hm.bit, g19.imp_left hm.bit, g20.imp_left hm.bit, g21.imp_left hm.bit, g22.imp_left hm.bit, g23.imp_left hm.bit, g24.imp_left hm.bit, g25.imp_left hm.bit, g26.imp_left hm.bit, g27.imp_left hm.bit, g28.imp_left hm.bit, g29.imp_left hm.bit, g30.imp_left hm.bit, g31.imp_left hm.bit, g32.imp_left hm.bit, g33.imp_left hm.bit, g34.imp_left hm.bit, g35.imp_left hm.bit, g36.imp_left hm.bit, g37.imp_left hm.bit, g38.imp_left hm.bit, g39.imp_left hm.bit, g40.imp_left hm.bit, g41.imp_left hm.bit, g42.imp_left hm.bit, g43.imp_left hm.bit, g44.imp_left hm.bit, g45.imp_left hm.bit, g46.imp_left hm.bit, g47.imp_left hm.bit, g48.imp_left hm.bit, g49.imp_left hm.bit, g50.imp_left hm.bit, g51.imp_left hm.bit, g52.imp_left hm.bit, g53.imp_left hm.bit, g54.imp_left hm.bit, g55.imp_left hm.bit, g56.imp_left hm.bit, g57.imp_left hm.bit, g58.imp_left hm.bit⟩

/-- Any change of the registers, under a mask that names every area. -/
theorem State.frame_regs {anc s : State} {M : Nat} {r : Tbl Nat} (ha : ∀ f : Field, M.testBit f.area = true) (hs : anc.Within M s) :
    anc.Within M { s with regs := r } := ⟨fun f _ _ => .inl (ha f), hs.2⟩

theorem State.wf_frame {anc : State} {M : Nat} {s : State} {f : Field} {i v k : Nat} (hf : M.testBit f.area = true) (hk : anc.Within M s) :
    anc.Within M (s.wf f i v k) := by
  refine ⟨fun g j l => ?_, hk.2⟩
  by_cases h : g.code = f.code
  · refine .inl ?_
    have : g.area = f.area := by unfold Field.area; rw [h]
    rw [this]
    exact hf
  · rw [s.rf_wf_of_code h]
    exact hk.1 g j l

theorem State.clr_frame {anc : State} {M : Nat} {s : State} {f : Field} {i k : Nat} (hf : M.testBit f.area = true) (hk : anc.Within M s) :
    anc.Within M (s.clr f i k) := by
  refine ⟨fun g j l => ?_, hk.2⟩
  by_cases h : g.code = f.code
  · refine .inl ?_
    have : g.area = f.area := by unfold Field.area; rw [h]
    rw [this]
    exact hf
  · have : (s.clr f i k).rf g j l = s.rf g j l := by
      simp [State.rf, State.clr, Tbl.getD, Tbl.get_del_ne _ (Field.cell_ne_of_code h _ _ _ _)]
    rw [this]
    exact hk.1 g j l

theorem State.inc_frame {anc : State} {M : Nat} {s : State} {f : Field} {i n k : Nat} (hf : M.testBit f.area = true) (hk : anc.Within M s) :
    anc.Within M (s.inc f i n k) := by
  obtain ⟨v, hv⟩ := s.inc_eq f i n k
  rw [hv]
  exact State.wf_frame hf hk

theorem State.incSat_frame {anc : State} {M : Nat} {s : State} {f : Field} {i n k : Nat} (hf : M.testBit f.area = true)
    (hk : anc.Within M s) : anc.Within M (s.incSat f i n k) := State.wf_frame hf hk

theorem State.dec_frame {anc : State} {M : Nat} {s : State} {f : Field} {i n k : Nat} (hf : M.testBit f.area = true)
    (hk : anc.Within M s) : anc.Within M (s.dec f i n k) := State.wf_frame hf hk

theorem ite_frame {b x y : State} {M : Nat} {c : Prop} [Decidable c] (hx : b.Within M x) (hy : b.Within M y) :
    b.Within M (if c then x else y) := by
  split
  · exact hx
  · exact hy

theorem ite_frame2 {b : State} {M : Nat} {α : Type} {x y : α × State} {c : Prop} [Decidable c] (hx : b.Within M x.2) (hy : b.Within M y.2) :
    b.Within M (if c then x else y).2 := by
  split
  · exact hx
  · exact hy

theorem ite_frame3 {b : State} {M : Nat} {α β : Type} {x y : α × β × State} {c : Prop} [Decidable c] (hx : b.Within M x.2.2)
    (hy : b.Within M y.2.2) : b.Within M (if c then x else y).2.2 := by
  split
  · exact hx
  · exact hy

theorem foldl_frame {b : State} {M : Nat} {α : Type} {f : State → α → State} (hf : ∀ t x, b.Within M t → b.Within M (f t x)) :
    ∀ {l : List α} {s : State}, b.Within M s → b.Within M (l.foldl f s)
  | [], _, h => h
  | x :: l, s, h => foldl_frame (l := l) hf (hf s x h)

/-- A fold that uses what its list holds. -/
theorem foldl_frame_mem {b : State} {M : Nat} {α : Type} {f : State → α → State} :
    ∀ {l : List α} {s : State}, (∀ t, ∀ x ∈ l, b.Within M t → b.Within M (f t x)) → b.Within M s → b.Within M (l.foldl f s)
  | [], _, _, h => h
  | x :: l, s, hf, h =>
    foldl_frame_mem (l := l) (fun t y hy => hf t y (List.mem_cons_of_mem _ hy)) (hf s x List.mem_cons_self h)

theorem foldl_frame_pair {b : State} {M : Nat} {α β : Type} {f : β × State → α → β × State}
    (hf : ∀ t x, b.Within M t.2 → b.Within M (f t x).2) :
    ∀ {l : List α} {s : β × State}, b.Within M s.2 → b.Within M (l.foldl f s).2
  | [], _, h => h
  | x :: l, s, h => foldl_frame_pair (l := l) hf (hf s x h)

theorem foldl_frame_triple {b : State} {M : Nat} {α β γ : Type} {f : β × γ × State → α → β × γ × State}
    (hf : ∀ t x, b.Within M t.2.2 → b.Within M (f t x).2.2) :
    ∀ {l : List α} {s : β × γ × State}, b.Within M s.2.2 → b.Within M (l.foldl f s).2.2
  | [], _, h => h
  | x :: l, s, h => foldl_frame_triple (l := l) hf (hf s x h)

theorem State.each_frame {b s : State} {M : Nat} {α : Type} {l : List α} {f : State → α → State} (h : b.Within M s)
    (hf : ∀ t x, b.Within M t → b.Within M (f t x)) : b.Within M (s.each l f) := foldl_frame hf h

theorem State.when_frame {b s : State} {M : Nat} {c : Bool} {f : State → State} (h : b.Within M s) (hf : ∀ t, b.Within M t → b.Within M (f t)) :
    b.Within M (s.when c f) := by
  unfold State.when
  split
  · exact hf _ h
  · exact h

end Sys2Proof.Machine
end

