-- ==== Sys2Proof/Laws/Frame/Ops.lean ====
section
/-! SUPPORT. Every operation and meaning of Machine/Ops.lean changes only the register areas and parts of the state its mask names. -/

namespace Sys2Proof.Machine

set_option linter.unreachableTactic false
set_option linter.unusedTactic false

theorem State.fix_frame {anc : State} {M : Nat} {s : State} {f : Field} {i : Nat} {v : Nat} {k : optParam Nat 0} (hm : Sub 0x0 M) (hp1 : M.testBit f.area = true) (hk : anc.Within M s) : anc.Within M (State.fix s f i v k) := by
  unfold State.fix
  repeat' first
    | with_reducible assumption | with_reducible refine State.wf_frame ?_ ?_ | with_reducible refine ite_frame ?_ ?_
    | with_reducible exact hm.mono (by decide) | with_reducible exact hm.bit (by decide) | exact hdr_bit hp1 (by decide) | split
    | dsimp only

theorem State.irqUpdate_frame {anc : State} {M : Nat} {s : State} {p : Page} (hm : Sub 0x1800000000000000000000 M) (hk : anc.Within M s) : anc.Within M (State.irqUpdate s p) := by
  unfold State.irqUpdate
  repeat' first
    | with_reducible assumption | with_reducible refine ite_frame ?_ ?_ | with_reducible exact hm.mono (by decide)
    | with_reducible exact hm.bit (by decide) | simp only [or_true, true_and, and_true] | with_reducible refine And.intro ?_ ?_
    | with_reducible exact .inl (hm.bit (by decide)) | split | dsimp only | with_reducible refine State.frame_mk ?_ ?_

theorem State.setInts_frame {anc : State} {M : Nat} {s : State} {p : Page} {mask : Nat} (hm : Sub 0x1800000000000000000000 M) (hp1 : M.testBit p.area = true) (hk : anc.Within M s) : anc.Within M (State.setInts s p mask) := by
  unfold State.setInts
  repeat' first
    | with_reducible assumption | with_reducible refine State.irqUpdate_frame ?_ ?_ | with_reducible refine State.wf_frame ?_ ?_
    | with_reducible refine ite_frame ?_ ?_ | with_reducible exact hm.mono (by decide) | with_reducible exact hm.bit (by decide)
    | exact hdr_bit hp1 (by decide) | split | dsimp only

theorem State.setInt_frame {anc : State} {M : Nat} {s : State} {p : Page} {b : Nat} (hm : Sub 0x1800000000000000000000 M) (hp1 : M.testBit p.area = true) (hk : anc.Within M s) : anc.Within M (State.setInt s p b) := by
  unfold State.setInt
  repeat' first
    | with_reducible assumption | with_reducible refine State.setInts_frame ?_ ?_ ?_ | with_reducible exact hm.mono (by decide)
    | with_reducible exact hm.bit (by decide) | exact hdr_bit hp1 (by decide)
    | ((with_reducible refine page_bit (B := ?_) (n := ?_) (k := ?_) hm ?_ ?_ ?_); (on_goal 4 => rfl); all_goals decide)
    | with_reducible exact corePage_bit hm (by decide) (by decide) (by decide) | dsimp only

theorem State.capture_frame {anc : State} {M : Nat} {s : State} {p : Page} {addr : Nat} {data : Nat} {cause : Nat} {master : Nat} {source : Nat} (hm : Sub 0x0 M) (hp1 : M.testBit p.area = true) (hk : anc.Within M s) : anc.Within M (State.capture s p addr data cause master source) := by
  unfold State.capture
  repeat' first
    | with_reducible assumption | with_reducible refine State.incSat_frame ?_ ?_ | with_reducible refine State.wf_frame ?_ ?_
    | with_reducible refine ite_frame ?_ ?_ | with_reducible exact hm.mono (by decide) | with_reducible exact hm.bit (by decide)
    | exact hdr_bit hp1 (by decide)
    | ((with_reducible refine page_bit (B := ?_) (n := ?_) (k := ?_) hm ?_ ?_ ?_); (on_goal 4 => rfl); all_goals decide)
    | with_reducible exact corePage_bit hm (by decide) (by decide) (by decide) | split | dsimp only

theorem State.post_frame {anc : State} {M : Nat} {s : State} {e : Event} (hm : Sub 0x7800000000000000000002 M) (hk : anc.Within M s) : anc.Within M (State.post s e) := by
  unfold State.post
  repeat' first
    | with_reducible assumption | with_reducible refine State.setInt_frame ?_ ?_ ?_ | with_reducible refine State.inc_frame ?_ ?_
    | with_reducible refine State.wf_frame ?_ ?_ | with_reducible refine ite_frame ?_ ?_ | with_reducible exact hm.mono (by decide)
    | with_reducible exact hm.bit (by decide)
    | ((with_reducible refine page_bit (B := ?_) (n := ?_) (k := ?_) hm ?_ ?_ ?_); (on_goal 4 => rfl); all_goals decide)
    | with_reducible exact corePage_bit hm (by decide) (by decide) (by decide) | simp only [or_true, true_and, and_true]
    | with_reducible refine And.intro ?_ ?_ | with_reducible exact .inl (hm.bit (by decide)) | split | dsimp only
    | with_reducible refine State.frame_mk ?_ ?_

theorem State.logEv_frame {anc : State} {M : Nat} {s : State} {kind : Nat} {page : Nat} {ref : Nat} {details : List Nat} (hm : Sub 0x7800000000000000000002 M) (hk : anc.Within M s) : anc.Within M (State.logEv s kind page ref details) := by
  unfold State.logEv
  repeat' first
    | with_reducible assumption | with_reducible refine State.post_frame ?_ ?_ | with_reducible exact hm.mono (by decide)
    | dsimp only

theorem State.logEvSev_frame {anc : State} {M : Nat} {s : State} {kind : Nat} {sev : Nat} {page : Nat} {ref : Nat} {details : List Nat} (hm : Sub 0x7800000000000000000002 M) (hk : anc.Within M s) : anc.Within M (State.logEvSev s kind sev page ref details) := by
  unfold State.logEvSev
  repeat' first
    | with_reducible assumption | with_reducible refine State.post_frame ?_ ?_ | with_reducible exact hm.mono (by decide)
    | dsimp only

theorem State.unitEv_frame {anc : State} {M : Nat} {s : State} {cat : Nat} {p : Page} {ref : Nat} {cause : Nat} {captured : Bool} (hm : Sub 0x7800000000000000000002 M) (hk : anc.Within M s) : anc.Within M (State.unitEv s cat p ref cause captured) := by
  unfold State.unitEv
  repeat' first
    | with_reducible assumption | with_reducible refine State.post_frame ?_ ?_ | with_reducible refine ite_frame ?_ ?_
    | with_reducible exact hm.mono (by decide) | split | dsimp only

theorem State.blockErr_frame {anc : State} {M : Nat} {s : State} {p : Page} {cause : Nat} {addr : Nat} {data : Nat} {ints : Nat} (hm : Sub 0x7800000000000000000002 M) (hp1 : M.testBit p.area = true) (hk : anc.Within M s) : anc.Within M (State.blockErr s p cause addr data ints) := by
  unfold State.blockErr
  repeat' first
    | with_reducible assumption | with_reducible refine State.unitEv_frame ?_ ?_ | with_reducible refine State.setInts_frame ?_ ?_ ?_
    | with_reducible refine State.capture_frame ?_ ?_ ?_ | with_reducible exact hm.mono (by decide)
    | with_reducible exact hm.bit (by decide) | exact hdr_bit hp1 (by decide)
    | ((with_reducible refine page_bit (B := ?_) (n := ?_) (k := ?_) hm ?_ ?_ ?_); (on_goal 4 => rfl); all_goals decide)
    | with_reducible exact corePage_bit hm (by decide) (by decide) (by decide) | dsimp only

theorem State.setQp_frame {anc : State} {M : Nat} {s : State} {n : Nat} {q : QpSt} (hm : Sub 0x200000000000000000000000 M) (hk : anc.Within M s) : anc.Within M (State.setQp s n q) := by
  unfold State.setQp
  repeat' first
    | with_reducible assumption | with_reducible exact hm.mono (by decide) | with_reducible exact hm.bit (by decide)
    | simp only [or_true, true_and, and_true] | with_reducible refine And.intro ?_ ?_
    | with_reducible exact .inl (hm.bit (by decide)) | dsimp only | with_reducible refine State.frame_mk ?_ ?_

theorem State.setPort_frame {anc : State} {M : Nat} {s : State} {n : Nat} {p : PortSt} (hm : Sub 0x400000000000000000000000 M) (hk : anc.Within M s) : anc.Within M (State.setPort s n p) := by
  unfold State.setPort
  repeat' first
    | with_reducible assumption | with_reducible exact hm.mono (by decide) | with_reducible exact hm.bit (by decide)
    | simp only [or_true, true_and, and_true] | with_reducible refine And.intro ?_ ?_
    | with_reducible exact .inl (hm.bit (by decide)) | dsimp only | with_reducible refine State.frame_mk ?_ ?_

theorem State.writeRec_frame {anc : State} {M : Nat} {s : State} {e : Event} (hm : Sub 0x219800000000000000000002 M) (hk : anc.Within M s) : anc.Within M (State.writeRec s e) := by
  unfold State.writeRec
  repeat' first
    | with_reducible assumption | with_reducible refine State.wf_frame ?_ ?_ | with_reducible refine State.inc_frame ?_ ?_
    | with_reducible refine State.setInt_frame ?_ ?_ ?_ | with_reducible refine State.when_frame ?_ ?_ | intro _
    | with_reducible refine ite_frame ?_ ?_ | with_reducible exact hm.mono (by decide) | with_reducible exact hm.bit (by decide)
    | ((with_reducible refine page_bit (B := ?_) (n := ?_) (k := ?_) hm ?_ ?_ ?_); (on_goal 4 => rfl); all_goals decide)
    | with_reducible exact corePage_bit hm (by decide) (by decide) (by decide) | simp only [or_true, true_and, and_true]
    | with_reducible refine And.intro ?_ ?_ | with_reducible exact .inl (hm.bit (by decide)) | split | dsimp only
    | with_reducible refine State.frame_mk ?_ ?_

theorem State.draw_frame {anc : State} {M : Nat} {s : State} {w : Nat} (hm : Sub 0x10000000000000000000000000000000000 M) (hk : anc.Within M s) : anc.Within M (State.draw s w).2 := by
  unfold State.draw
  repeat' first
    | with_reducible assumption | with_reducible exact hm.mono (by decide) | with_reducible exact hm.bit (by decide)
    | simp only [or_true, true_and, and_true] | with_reducible refine And.intro ?_ ?_
    | with_reducible exact .inl (hm.bit (by decide)) | dsimp only | with_reducible refine State.frame_mk ?_ ?_

theorem State.draw_frame_eq {anc : State} {M : Nat} {s : State} {w : Nat} (hm : Sub 0x10000000000000000000000000000000000 M) {r0 tz} (heqx : State.draw s w = (r0, tz)) (hk : anc.Within M s) : anc.Within M tz := by
  have := State.draw_frame (s := s) (w := w) hm hk
  rwa [heqx] at this

theorem State.emit_frame {anc : State} {M : Nat} {s : State} {o : Out} (hm : Sub 0x8000000000000000000000000000000000 M) (hk : anc.Within M s) : anc.Within M (State.emit s o) := by
  unfold State.emit
  repeat' first
    | with_reducible assumption | with_reducible exact hm.mono (by decide) | with_reducible exact hm.bit (by decide)
    | simp only [or_true, true_and, and_true] | with_reducible refine And.intro ?_ ?_
    | with_reducible exact .inl (hm.bit (by decide)) | dsimp only | with_reducible refine State.frame_mk ?_ ?_

theorem State.suspect_frame {anc : State} {M : Nat} {s : State} {pc : Nat} {code : Nat} {eng : Nat} (hm : Sub 0x8000000000000000000000000000000000 M) (hk : anc.Within M s) : anc.Within M (State.suspect s pc code eng) := by
  unfold State.suspect
  repeat' first
    | with_reducible assumption | with_reducible refine State.emit_frame ?_ ?_ | with_reducible exact hm.mono (by decide)
    | dsimp only

theorem State.txQp_frame {anc : State} {M : Nat} {s : State} {qp : Nat} {n : Nat} (hm : Sub 0x200000000000020000000000 M) (hk : anc.Within M s) : anc.Within M (State.txQp s qp n) := by
  unfold State.txQp
  repeat' first
    | with_reducible assumption | with_reducible refine State.setQp_frame ?_ ?_ | with_reducible refine State.wf_frame ?_ ?_
    | with_reducible exact hm.mono (by decide) | with_reducible exact hm.bit (by decide) | dsimp only

theorem State.framesOut_frame {anc : State} {M : Nat} {s : State} {qp : Nat} {n : Nat} (hm : Sub 0x30000000000 M) (hk : anc.Within M s) : anc.Within M (State.framesOut s qp n) := by
  unfold State.framesOut
  repeat' first
    | with_reducible assumption | with_reducible refine State.inc_frame ?_ ?_ | with_reducible exact hm.mono (by decide)
    | with_reducible exact hm.bit (by decide)
    | ((with_reducible refine page_bit (B := ?_) (n := ?_) (k := ?_) hm ?_ ?_ ?_); (on_goal 4 => rfl); all_goals decide)
    | with_reducible exact corePage_bit hm (by decide) (by decide) (by decide) | dsimp only

theorem State.sendQp_frame {anc : State} {M : Nat} {s : State} {qp : Nat} {o : Out} (hm : Sub 0x8000000000200000000000030000000000 M) (hk : anc.Within M s) : anc.Within M (State.sendQp s qp o) := by
  unfold State.sendQp
  repeat' first
    | with_reducible assumption | with_reducible refine State.txQp_frame ?_ ?_ | with_reducible refine State.framesOut_frame ?_ ?_
    | with_reducible refine State.emit_frame ?_ ?_ | with_reducible exact hm.mono (by decide) | dsimp only

theorem State.issueRead_frame {anc : State} {M : Nat} {s : State} {qp : Nat} {addr : Nat} {rkey : Nat} {bytes : Nat} (hm : Sub 0x8000000000200000000000030000000000 M) (hk : anc.Within M s) : anc.Within M (State.issueRead s qp addr rkey bytes) := by
  unfold State.issueRead
  repeat' first
    | with_reducible assumption | with_reducible refine State.inc_frame ?_ ?_ | with_reducible refine State.txQp_frame ?_ ?_
    | with_reducible refine State.framesOut_frame ?_ ?_ | with_reducible refine State.emit_frame ?_ ?_
    | with_reducible refine State.setQp_frame ?_ ?_ | with_reducible refine ite_frame ?_ ?_
    | with_reducible exact hm.mono (by decide) | with_reducible exact hm.bit (by decide)
    | ((with_reducible refine page_bit (B := ?_) (n := ?_) (k := ?_) hm ?_ ?_ ?_); (on_goal 4 => rfl); all_goals decide)
    | with_reducible exact corePage_bit hm (by decide) (by decide) (by decide) | split | dsimp only

theorem State.readDone_frame {anc : State} {M : Nat} {s : State} {qp : Nat} (hm : Sub 0x8000000000200000000000030000000000 M) (hk : anc.Within M s) : anc.Within M (State.readDone s qp) := by
  unfold State.readDone
  repeat' first
    | with_reducible assumption | with_reducible refine State.dec_frame ?_ ?_ | with_reducible refine State.issueRead_frame ?_ ?_
    | with_reducible refine State.setQp_frame ?_ ?_ | with_reducible exact hm.mono (by decide)
    | with_reducible exact hm.bit (by decide)
    | ((with_reducible refine page_bit (B := ?_) (n := ?_) (k := ?_) hm ?_ ?_ ?_); (on_goal 4 => rfl); all_goals decide)
    | with_reducible exact corePage_bit hm (by decide) (by decide) (by decide) | split | dsimp only

end Sys2Proof.Machine
end

