-- ==== Sys2Proof/Laws/Frame/Memory.lean ====
section
/-! SUPPORT. Every operation and meaning of Machine/Memory.lean changes only the register areas and parts of the state its mask names. -/

namespace Sys2Proof.Machine

set_option linter.unreachableTactic false
set_option linter.unusedTactic false

theorem State.setHbmTag_frame {anc : State} {M : Nat} {s : State} {stack : Nat} {off : Nat} {tag : Nat} (hm : Sub 0x800000000000000000000000000 M) (hk : anc.Within M s) : anc.Within M (State.setHbmTag s stack off tag) := by
  unfold State.setHbmTag
  repeat' first
    | with_reducible assumption | with_reducible exact hm.mono (by decide) | with_reducible exact hm.bit (by decide)
    | simp only [or_true, true_and, and_true] | with_reducible refine And.intro ?_ ?_
    | with_reducible exact .inl (hm.bit (by decide)) | dsimp only | with_reducible refine State.frame_mk ?_ ?_

theorem State.sealedDenied_frame {anc : State} {M : Nat} {s : State} {stack : Nat} {a : Nat} {data : Nat} {master : Nat} {source : Nat} (hm : Sub 0x1800000000000100000000 M) (hk : anc.Within M s) : anc.Within M (State.sealedDenied s stack a data master source) := by
  unfold State.sealedDenied
  repeat' first
    | with_reducible assumption | with_reducible refine State.setInts_frame ?_ ?_ ?_
    | with_reducible refine State.capture_frame ?_ ?_ ?_ | with_reducible refine State.wf_frame ?_ ?_
    | with_reducible refine State.inc_frame ?_ ?_ | with_reducible exact hm.mono (by decide)
    | with_reducible exact hm.bit (by decide)
    | ((with_reducible refine page_bit (B := ?_) (n := ?_) (k := ?_) hm ?_ ?_ ?_); (on_goal 4 => rfl); all_goals decide)
    | with_reducible exact corePage_bit hm (by decide) (by decide) (by decide) | dsimp only

theorem State.stackFailedAccess_frame {anc : State} {M : Nat} {s : State} {stack : Nat} {a : Nat} {data : optParam Nat 0} {master : optParam Nat 7} {source : optParam Nat 0} (hm : Sub 0x7800000000000100000002 M) (hk : anc.Within M s) : anc.Within M (State.stackFailedAccess s stack a data master source) := by
  unfold State.stackFailedAccess
  repeat' first
    | with_reducible assumption | with_reducible refine State.blockErr_frame ?_ ?_ ?_
    | with_reducible refine State.unitEv_frame ?_ ?_ | with_reducible refine State.setInt_frame ?_ ?_ ?_
    | with_reducible refine State.capture_frame ?_ ?_ ?_ | with_reducible refine ite_frame ?_ ?_
    | with_reducible exact hm.mono (by decide) | with_reducible exact hm.bit (by decide)
    | ((with_reducible refine page_bit (B := ?_) (n := ?_) (k := ?_) hm ?_ ?_ ?_); (on_goal 4 => rfl); all_goals decide)
    | with_reducible exact corePage_bit hm (by decide) (by decide) (by decide) | split | dsimp only

theorem State.countTag_frame {anc : State} {M : Nat} {s : State} {stack : Nat} {off : Nat} (hm : Sub 0x1800000000000100000000 M) (hk : anc.Within M s) : anc.Within M (State.countTag s stack off) := by
  unfold State.countTag
  repeat' first
    | with_reducible assumption | with_reducible refine State.setInt_frame ?_ ?_ ?_ | with_reducible refine State.inc_frame ?_ ?_
    | with_reducible refine ite_frame ?_ ?_ | with_reducible exact hm.mono (by decide) | with_reducible exact hm.bit (by decide)
    | ((with_reducible refine page_bit (B := ?_) (n := ?_) (k := ?_) hm ?_ ?_ ?_); (on_goal 4 => rfl); all_goals decide)
    | with_reducible exact corePage_bit hm (by decide) (by decide) (by decide) | split | dsimp only

theorem State.hbmRead_frame {anc : State} {M : Nat} {s : State} {a : Nat} {n : Nat} (hm : Sub 0x7800000000000100000002 M) (hk : anc.Within M s) : anc.Within M (State.hbmRead s a n).2.2 := by
  unfold State.hbmRead
  repeat' first
    | with_reducible assumption | with_reducible refine State.stackFailedAccess_frame ?_ ?_
    | with_reducible refine State.countTag_frame ?_ ?_ | with_reducible refine State.inc_frame ?_ ?_
    | with_reducible refine ite_frame ?_ ?_ | with_reducible refine ite_frame2 ?_ ?_ | with_reducible refine ite_frame3 ?_ ?_
    | with_reducible exact hm.mono (by decide) | with_reducible exact hm.bit (by decide)
    | ((with_reducible refine page_bit (B := ?_) (n := ?_) (k := ?_) hm ?_ ?_ ?_); (on_goal 4 => rfl); all_goals decide)
    | with_reducible exact corePage_bit hm (by decide) (by decide) (by decide) | split | dsimp only

theorem State.hbmRead_frame_eq {anc : State} {M : Nat} {s : State} {a : Nat} {n : Nat} (hm : Sub 0x7800000000000100000002 M) {r0 r1 tz} (heqx : State.hbmRead s a n = (r0, r1, tz)) (hk : anc.Within M s) : anc.Within M tz := by
  have := State.hbmRead_frame (s := s) (a := a) (n := n) hm hk
  rwa [heqx] at this

theorem State.clearResv_frame {anc : State} {M : Nat} {s : State} {stack : Nat} {off : Nat} {by_ : Option Nat} (hm : Sub 0x1000000000000000000000000000 M) (hk : anc.Within M s) : anc.Within M (State.clearResv s stack off by_) := by
  unfold State.clearResv
  repeat' first
    | with_reducible assumption | with_reducible exact hm.mono (by decide) | with_reducible exact hm.bit (by decide)
    | simp only [or_true, true_and, and_true] | with_reducible refine And.intro ?_ ?_
    | with_reducible exact .inl (hm.bit (by decide)) | dsimp only | with_reducible refine State.frame_mk ?_ ?_

theorem State.hbmWrite_frame {anc : State} {M : Nat} {s : State} {a : Nat} {n : Nat} {v : Nat} {hollow : optParam Bool false} {by_ : optParam (Option Nat) none} (hm : Sub 0x1c00007800000000000100000002 M) (hk : anc.Within M s) : anc.Within M (State.hbmWrite s a n v hollow by_) := by
  unfold State.hbmWrite
  repeat' first
    | with_reducible assumption | with_reducible refine State.stackFailedAccess_frame ?_ ?_
    | with_reducible refine State.inc_frame ?_ ?_ | with_reducible refine State.setHbmTag_frame ?_ ?_
    | with_reducible refine State.clearResv_frame ?_ ?_ | with_reducible refine ite_frame ?_ ?_
    | with_reducible exact hm.mono (by decide) | with_reducible exact hm.bit (by decide)
    | ((with_reducible refine page_bit (B := ?_) (n := ?_) (k := ?_) hm ?_ ?_ ?_); (on_goal 4 => rfl); all_goals decide)
    | with_reducible exact corePage_bit hm (by decide) (by decide) (by decide) | simp only [or_true, true_and, and_true]
    | with_reducible refine And.intro ?_ ?_ | with_reducible exact .inl (hm.bit (by decide)) | split | dsimp only
    | with_reducible refine State.frame_mk ?_ ?_

theorem State.hbmWriteWords_frame {anc : State} {M : Nat} {s : State} {a : Nat} {ws : List Nat} (hm : Sub 0x1c00007800000000000100000002 M) (hk : anc.Within M s) : anc.Within M (State.hbmWriteWords s a ws) := by
  unfold State.hbmWriteWords
  repeat' first
    | with_reducible assumption | with_reducible refine State.hbmWrite_frame ?_ ?_ | with_reducible refine foldl_frame ?_ ?_
    | intro _ | with_reducible exact hm.mono (by decide) | dsimp only

theorem State.hbmCodewords_frame {anc : State} {M : Nat} {s : State} {a : Nat} {n : Nat} (hm : Sub 0x7800000000000100000002 M) (hk : anc.Within M s) : anc.Within M (State.hbmCodewords s a n).2.2 := by
  unfold State.hbmCodewords
  repeat' first
    | with_reducible assumption | with_reducible refine State.hbmRead_frame ?_ ?_
    | refine State.hbmRead_frame_eq ?_ (by with_reducible assumption) ?_ | with_reducible refine foldl_frame ?_ ?_
    | with_reducible refine foldl_frame_pair ?_ ?_ | with_reducible refine foldl_frame_triple ?_ ?_ | intro _
    | with_reducible exact hm.mono (by decide) | split | dsimp only

theorem State.hbmCodewords_frame_eq {anc : State} {M : Nat} {s : State} {a : Nat} {n : Nat} (hm : Sub 0x7800000000000100000002 M) {r0 r1 tz} (heqx : State.hbmCodewords s a n = (r0, r1, tz)) (hk : anc.Within M s) : anc.Within M tz := by
  have := State.hbmCodewords_frame (s := s) (a := a) (n := n) hm hk
  rwa [heqx] at this

theorem State.sramWrite_frame {anc : State} {M : Nat} {s : State} {ck : Nat} {off : Nat} {n : Nat} {v : Nat} (hm : Sub 0x2000000000000000000000000000 M) (hk : anc.Within M s) : anc.Within M (State.sramWrite s ck off n v) := by
  unfold State.sramWrite
  repeat' first
    | with_reducible assumption | with_reducible exact hm.mono (by decide) | with_reducible exact hm.bit (by decide)
    | simp only [or_true, true_and, and_true] | with_reducible refine And.intro ?_ ?_
    | with_reducible exact .inl (hm.bit (by decide)) | dsimp only | with_reducible refine State.frame_mk ?_ ?_

theorem State.sramMark_frame {anc : State} {M : Nat} {s : State} {ck : Nat} {off : Nat} {h : Bool} (hm : Sub 0x4000000000000000000000000000 M) (hk : anc.Within M s) : anc.Within M (State.sramMark s ck off h) := by
  unfold State.sramMark
  repeat' first
    | with_reducible assumption | with_reducible refine ite_frame ?_ ?_ | with_reducible exact hm.mono (by decide)
    | with_reducible exact hm.bit (by decide) | simp only [or_true, true_and, and_true] | with_reducible refine And.intro ?_ ?_
    | with_reducible exact .inl (hm.bit (by decide)) | split | dsimp only | with_reducible refine State.frame_mk ?_ ?_

end Sys2Proof.Machine
end

