-- ==== Sys2Proof/Laws/Frame/Wire.lean ====
section
/-! SUPPORT. Every operation and meaning of Machine/Wire.lean changes only the register areas and parts of the state its mask names. -/

namespace Sys2Proof.Machine

set_option linter.unreachableTactic false
set_option linter.unusedTactic false

theorem State.setDir_frame {anc : State} {M : Nat} {s : State} {d : Nat} {x : DirSt} (hm : Sub 0x2000000000000000000000000000000000 M) (hk : anc.Within M s) : anc.Within M (State.setDir s d x) := by
  unfold State.setDir
  repeat' first
    | with_reducible assumption | with_reducible exact hm.mono (by decide) | with_reducible exact hm.bit (by decide)
    | simp only [or_true, true_and, and_true] | with_reducible refine And.intro ?_ ?_
    | with_reducible exact .inl (hm.bit (by decide)) | dsimp only | with_reducible refine State.frame_mk ?_ ?_

theorem State.transmit_frame {anc : State} {M : Nat} {s : State} {d : Nat} {f : Frame} (hm : Sub 0xa000000000000000000001000000000000 M) (hk : anc.Within M s) : anc.Within M (State.transmit s d f) := by
  unfold State.transmit
  repeat' first
    | with_reducible assumption | with_reducible refine State.emit_frame ?_ ?_ | with_reducible refine State.inc_frame ?_ ?_
    | with_reducible refine State.setDir_frame ?_ ?_ | with_reducible refine ite_frame ?_ ?_
    | with_reducible exact hm.mono (by decide) | with_reducible exact hm.bit (by decide)
    | ((with_reducible refine page_bit (B := ?_) (n := ?_) (k := ?_) hm ?_ ?_ ?_); (on_goal 4 => rfl); all_goals decide)
    | with_reducible exact corePage_bit hm (by decide) (by decide) (by decide) | split | dsimp only

theorem State.txPump_frame {anc : State} {M : Nat} {s : State} {d : Nat} {x2 : Nat} (hm : Sub 0xa000000000000000000001000000000000 M) (hk : anc.Within M s) : anc.Within M (State.txPump s d x2) := by
  induction x2 generalizing s with
  | zero =>
  simp only [State.txPump]
  try repeat' first
    | with_reducible assumption | with_reducible refine State.transmit_frame ?_ ?_ | with_reducible refine State.setDir_frame ?_ ?_
    | with_reducible refine State.each_frame ?_ ?_ | with_reducible refine foldl_frame ?_ ?_
    | with_reducible refine foldl_frame_pair ?_ ?_ | with_reducible refine foldl_frame_triple ?_ ?_
    | with_reducible refine State.when_frame ?_ ?_ | intro _ | with_reducible refine ite_frame ?_ ?_
    | with_reducible exact hm.mono (by decide) | with_reducible exact hm.bit (by decide) | simp only [or_true, true_and, and_true]
    | with_reducible refine And.intro ?_ ?_ | with_reducible exact .inl (hm.bit (by decide)) | split | dsimp only
    | with_reducible refine State.frame_mk ?_ ?_
  | succ n ih =>
  simp only [State.txPump]
  repeat' first
    | with_reducible assumption | with_reducible apply ih | with_reducible refine State.transmit_frame ?_ ?_ | with_reducible refine State.setDir_frame ?_ ?_
    | with_reducible refine State.each_frame ?_ ?_ | with_reducible refine foldl_frame ?_ ?_
    | with_reducible refine foldl_frame_pair ?_ ?_ | with_reducible refine foldl_frame_triple ?_ ?_
    | with_reducible refine State.when_frame ?_ ?_ | intro _ | with_reducible refine ite_frame ?_ ?_
    | with_reducible exact hm.mono (by decide) | with_reducible exact hm.bit (by decide) | simp only [or_true, true_and, and_true]
    | with_reducible refine And.intro ?_ ?_ | with_reducible exact .inl (hm.bit (by decide)) | split | dsimp only
    | with_reducible refine State.frame_mk ?_ ?_

theorem State.borsanTx_frame {anc : State} {M : Nat} {s : State} {d : Nat} {f : Frame} (hm : Sub 0xa000000000000000000001000000000000 M) (hk : anc.Within M s) : anc.Within M (State.borsanTx s d f) := by
  unfold State.borsanTx
  repeat' first
    | with_reducible assumption | with_reducible refine State.transmit_frame ?_ ?_ | with_reducible refine State.txPump_frame ?_ ?_
    | with_reducible refine State.setDir_frame ?_ ?_ | with_reducible refine ite_frame ?_ ?_
    | with_reducible exact hm.mono (by decide) | split | dsimp only

theorem State.vcReturn_frame {anc : State} {M : Nat} {s : State} {d : Nat} {vc : Nat} {n : Nat} (hm : Sub 0xa000000000000000000001000000000000 M) (hk : anc.Within M s) : anc.Within M (State.vcReturn s d vc n) := by
  unfold State.vcReturn
  repeat' first
    | with_reducible assumption | with_reducible refine State.txPump_frame ?_ ?_ | with_reducible refine State.setDir_frame ?_ ?_
    | with_reducible exact hm.mono (by decide) | dsimp only

theorem State.leaveBy_frame {anc : State} {M : Nat} {s : State} {d : Nat} {f : Frame} {was : Frame} (hm : Sub 0xa000000000001800000001000000000000 M) (hk : anc.Within M s) : anc.Within M (State.leaveBy s d f was) := by
  unfold State.leaveBy
  repeat' first
    | with_reducible assumption | with_reducible refine State.wf_frame ?_ ?_ | with_reducible refine State.setInt_frame ?_ ?_ ?_
    | with_reducible refine State.inc_frame ?_ ?_ | with_reducible refine State.setDir_frame ?_ ?_
    | with_reducible refine State.borsanTx_frame ?_ ?_ | with_reducible refine ite_frame ?_ ?_
    | with_reducible exact hm.mono (by decide) | with_reducible exact hm.bit (by decide)
    | ((with_reducible refine page_bit (B := ?_) (n := ?_) (k := ?_) hm ?_ ?_ ?_); (on_goal 4 => rfl); all_goals decide)
    | with_reducible exact corePage_bit hm (by decide) (by decide) (by decide) | split | dsimp only

theorem State.sendNotice_frame {anc : State} {M : Nat} {s : State} {src : Nat} {ws : List Nat} (hm : Sub 0xa000000000001800000003000000000000 M) (hk : anc.Within M s) : anc.Within M (State.sendNotice s src ws) := by
  unfold State.sendNotice
  repeat' first
    | with_reducible assumption | with_reducible refine State.emit_frame ?_ ?_ | with_reducible refine State.leaveBy_frame ?_ ?_
    | with_reducible refine ite_frame ?_ ?_ | with_reducible exact hm.mono (by decide) | split | dsimp only

theorem State.unroutable_frame {anc : State} {M : Nat} {s : State} {u : Nat} {f : Frame} (hm : Sub 0xa000000000007800000003000000000002 M) (hk : anc.Within M s) : anc.Within M (State.unroutable s u f) := by
  unfold State.unroutable
  repeat' first
    | with_reducible assumption | with_reducible refine State.blockErr_frame ?_ ?_ ?_ | with_reducible refine State.inc_frame ?_ ?_
    | with_reducible refine State.sendNotice_frame ?_ ?_ | with_reducible refine State.emit_frame ?_ ?_
    | with_reducible refine ite_frame ?_ ?_ | with_reducible exact hm.mono (by decide) | with_reducible exact hm.bit (by decide)
    | ((with_reducible refine page_bit (B := ?_) (n := ?_) (k := ?_) hm ?_ ?_ ?_); (on_goal 4 => rfl); all_goals decide)
    | with_reducible exact corePage_bit hm (by decide) (by decide) (by decide) | split | dsimp only

theorem State.forward_frame {anc : State} {M : Nat} {s : State} {u : Nat} {inDim : Option Nat} {f : Frame} (hm : Sub 0xa000000000007800000003000000000002 M) (hk : anc.Within M s) : anc.Within M (State.forward s u inDim f) := by
  unfold State.forward
  repeat' first
    | with_reducible assumption | with_reducible refine State.unroutable_frame ?_ ?_
    | with_reducible refine State.leaveBy_frame ?_ ?_ | with_reducible refine State.inc_frame ?_ ?_
    | with_reducible refine ite_frame ?_ ?_ | with_reducible exact hm.mono (by decide) | with_reducible exact hm.bit (by decide)
    | ((with_reducible refine page_bit (B := ?_) (n := ?_) (k := ?_) hm ?_ ?_ ?_); (on_goal 4 => rfl); all_goals decide)
    | with_reducible exact corePage_bit hm (by decide) (by decide) (by decide) | split | dsimp only

theorem State.sendFrame_frame {anc : State} {M : Nat} {s : State} {u : Nat} {f : Frame} (hm : Sub 0xe000000000007800000003000000000002 M) (hk : anc.Within M s) : anc.Within M (State.sendFrame s u f) := by
  unfold State.sendFrame
  repeat' first
    | with_reducible assumption | with_reducible refine State.unroutable_frame ?_ ?_
    | with_reducible refine State.forward_frame ?_ ?_ | with_reducible refine ite_frame ?_ ?_
    | with_reducible exact hm.mono (by decide) | with_reducible exact hm.bit (by decide) | simp only [or_true, true_and, and_true]
    | with_reducible refine And.intro ?_ ?_ | with_reducible exact .inl (hm.bit (by decide)) | split | dsimp only
    | with_reducible refine State.frame_mk ?_ ?_

theorem State.flood_frame {anc : State} {M : Nat} {s : State} {l : Lsn} {but : Option Nat} (hm : Sub 0xa000000000000000000001000000000000 M) (hk : anc.Within M s) : anc.Within M (State.flood s l but) := by
  unfold State.flood
  repeat' first
    | with_reducible assumption | with_reducible refine State.transmit_frame ?_ ?_ | with_reducible refine State.each_frame ?_ ?_
    | intro _ | with_reducible refine ite_frame ?_ ?_ | with_reducible exact hm.mono (by decide) | split | dsimp only

theorem State.schedule_frame {anc : State} {M : Nat} {s : State} {stamp : Nat} (hm : Sub 0x2000000000000 M) (hk : anc.Within M s) : anc.Within M (State.schedule s stamp) := by
  unfold State.schedule
  repeat' first
    | with_reducible assumption | with_reducible refine State.wf_frame ?_ ?_ | with_reducible refine ite_frame ?_ ?_
    | with_reducible exact hm.mono (by decide) | with_reducible exact hm.bit (by decide) | split | dsimp only

theorem State.countLinks_frame {anc : State} {M : Nat} {s : State} (hm : Sub 0x2000000000000 M) (hk : anc.Within M s) : anc.Within M (State.countLinks s) := by
  unfold State.countLinks
  repeat' first
    | with_reducible assumption | with_reducible refine State.wf_frame ?_ ?_ | with_reducible exact hm.mono (by decide)
    | with_reducible exact hm.bit (by decide) | dsimp only

theorem State.storeLsn_frame {anc : State} {M : Nat} {s : State} {l : Lsn} (hm : Sub 0x4000000000001800000002000000000000 M) (hk : anc.Within M s) : anc.Within M (State.storeLsn s l) := by
  unfold State.storeLsn
  repeat' first
    | with_reducible assumption | with_reducible refine State.setInt_frame ?_ ?_ ?_ | with_reducible refine State.wf_frame ?_ ?_
    | with_reducible refine State.countLinks_frame ?_ ?_ | with_reducible refine State.schedule_frame ?_ ?_
    | with_reducible refine State.when_frame ?_ ?_ | intro _ | with_reducible exact hm.mono (by decide)
    | with_reducible exact hm.bit (by decide)
    | ((with_reducible refine page_bit (B := ?_) (n := ?_) (k := ?_) hm ?_ ?_ ?_); (on_goal 4 => rfl); all_goals decide)
    | with_reducible exact corePage_bit hm (by decide) (by decide) (by decide) | simp only [or_true, true_and, and_true]
    | with_reducible refine And.intro ?_ ?_ | with_reducible exact .inl (hm.bit (by decide)) | dsimp only
    | with_reducible refine State.frame_mk ?_ ?_

theorem State.ownLsn_frame {anc : State} {M : Nat} {s : State} {d : Nat} {st : Nat} (hm : Sub 0xe000000000001800000003000000000000 M) (hk : anc.Within M s) : anc.Within M (State.ownLsn s d st) := by
  unfold State.ownLsn
  repeat' first
    | with_reducible assumption | with_reducible refine State.flood_frame ?_ ?_ | with_reducible refine State.storeLsn_frame ?_ ?_
    | with_reducible exact hm.mono (by decide) | with_reducible exact hm.bit (by decide) | simp only [or_true, true_and, and_true]
    | with_reducible refine And.intro ?_ ?_ | with_reducible exact .inl (hm.bit (by decide)) | dsimp only
    | with_reducible refine State.frame_mk ?_ ?_

theorem State.setSlot_frame {anc : State} {M : Nat} {s : State} {src : Nat} {r : Option RSlot} (hm : Sub 0x4000000000000000000000000000000000 M) (hk : anc.Within M s) : anc.Within M (State.setSlot s src r) := by
  unfold State.setSlot
  repeat' first
    | with_reducible assumption | with_reducible exact hm.mono (by decide) | with_reducible exact hm.bit (by decide)
    | simp only [or_true, true_and, and_true] | with_reducible refine And.intro ?_ ?_
    | with_reducible exact .inl (hm.bit (by decide)) | split | dsimp only | with_reducible refine State.frame_mk ?_ ?_

theorem State.slotSub_frame {anc : State} {M : Nat} {s : State} {src : Nat} {n : Nat} (hm : Sub 0x4000000000000000000000000000000000 M) (hk : anc.Within M s) : anc.Within M (State.slotSub s src n) := by
  unfold State.slotSub
  repeat' first
    | with_reducible assumption | with_reducible refine State.setSlot_frame ?_ ?_ | with_reducible refine ite_frame ?_ ?_
    | with_reducible exact hm.mono (by decide) | split | dsimp only

theorem State.contribute_frame {anc : State} {M : Nat} {s : State} {u : Nat} {coll : Nat} {ws : List Nat} (hm : Sub 0x4000000000000000000002000000000000 M) (hk : anc.Within M s) : anc.Within M (State.contribute s u coll ws) := by
  unfold State.contribute
  repeat' first
    | with_reducible assumption | with_reducible refine ite_frame ?_ ?_ | with_reducible exact hm.mono (by decide)
    | with_reducible exact hm.bit (by decide) | simp only [or_true, true_and, and_true] | with_reducible refine And.intro ?_ ?_
    | with_reducible exact .inl (hm.bit (by decide)) | split | dsimp only | with_reducible refine State.frame_mk ?_ ?_

theorem State.egress_frame {anc : State} {M : Nat} {s : State} {kind : Nat} {dest : Nat} {ws : List Nat} (hm : Sub 0xe000000000007800000003000000000002 M) (hk : anc.Within M s) : anc.Within M (State.egress s kind dest ws) := by
  unfold State.egress
  repeat' first
    | with_reducible assumption | with_reducible refine State.blockErr_frame ?_ ?_ ?_ | with_reducible refine State.inc_frame ?_ ?_
    | with_reducible refine State.emit_frame ?_ ?_ | with_reducible refine State.contribute_frame ?_ ?_
    | with_reducible refine State.sendFrame_frame ?_ ?_ | with_reducible refine ite_frame ?_ ?_
    | with_reducible exact hm.mono (by decide) | with_reducible exact hm.bit (by decide)
    | ((with_reducible refine page_bit (B := ?_) (n := ?_) (k := ?_) hm ?_ ?_ ?_); (on_goal 4 => rfl); all_goals decide)
    | with_reducible exact corePage_bit hm (by decide) (by decide) (by decide) | split | dsimp only

theorem State.backward_frame {anc : State} {M : Nat} {s : State} {kind : Nat} {src : Nat} {ws : List Nat} (hm : Sub 0xe000000000007800000003000000000002 M) (hk : anc.Within M s) : anc.Within M (State.backward s kind src ws) := by
  unfold State.backward
  repeat' first
    | with_reducible assumption | with_reducible refine State.setSlot_frame ?_ ?_ | with_reducible refine State.sendFrame_frame ?_ ?_
    | with_reducible refine ite_frame ?_ ?_ | with_reducible exact hm.mono (by decide) | split | dsimp only

theorem State.mesh_frame {anc : State} {M : Nat} {s : State} {kind : Nat} {dest : Nat} {words : List Nat} (hm : Sub 0xe000000000007800000003000000000002 M) (hk : anc.Within M s) : anc.Within M (State.mesh s kind dest words) := by
  unfold State.mesh
  repeat' first
    | with_reducible assumption | with_reducible refine State.egress_frame ?_ ?_ | with_reducible refine State.backward_frame ?_ ?_
    | with_reducible refine State.emit_frame ?_ ?_ | with_reducible refine ite_frame ?_ ?_ | with_reducible exact hm.mono (by decide)
    | split | dsimp only

theorem State.notice_frame {anc : State} {M : Nat} {s : State} {stream : Nat} {kind : Nat} (hm : Sub 0xe000000000007800000003000000000002 M) (hk : anc.Within M s) : anc.Within M (State.notice s stream kind) := by
  unfold State.notice
  repeat' first
    | with_reducible assumption | with_reducible refine State.mesh_frame ?_ ?_ | with_reducible exact hm.mono (by decide)
    | dsimp only

end Sys2Proof.Machine
end

