-- ==== Sys2Proof/Laws/Frame/Pips.lean ====
section
/-! SUPPORT. Every operation and meaning of Machine/Pips.lean changes only the register areas and parts of the state its mask names. -/

namespace Sys2Proof.Machine

set_option linter.unreachableTactic false
set_option linter.unusedTactic false

theorem State.meshFrom_frame {anc : State} {M : Nat} {s : State} {ck : Nat} {kind : Nat} {dest : Nat} {reqGen : Nat} {words : List Nat} {bytes : optParam Nat 0} (hm : Sub 0xe000000000007800000003000000000002 M) (hk : anc.Within M s) : anc.Within M (State.meshFrom s ck kind dest reqGen words bytes) := by
  unfold State.meshFrom
  repeat' first
    | with_reducible assumption | with_reducible refine State.mesh_frame ?_ ?_ | with_reducible refine State.emit_frame ?_ ?_
    | with_reducible refine ite_frame ?_ ?_ | with_reducible exact hm.mono (by decide) | split | dsimp only

theorem State.setChan_frame {anc : State} {M : Nat} {s : State} {c : Chan} (hm : Sub 0x4000000000000000000000000000000 M) (hk : anc.Within M s) : anc.Within M (State.setChan s c) := by
  unfold State.setChan
  repeat' first
    | with_reducible assumption | with_reducible exact hm.mono (by decide) | with_reducible exact hm.bit (by decide)
    | simp only [or_true, true_and, and_true] | with_reducible refine And.intro ?_ ?_
    | with_reducible exact .inl (hm.bit (by decide)) | dsimp only | with_reducible refine State.frame_mk ?_ ?_

theorem State.openChan_frame {anc : State} {M : Nat} {s : State} {ck : Nat} {dest : Nat} {stream : Nat} (hm : Sub 0xe004000000007800000003000000000002 M) (hk : anc.Within M s) : anc.Within M (State.openChan s ck dest stream) := by
  unfold State.openChan
  repeat' first
    | with_reducible assumption | with_reducible refine State.meshFrom_frame ?_ ?_ | with_reducible refine State.setChan_frame ?_ ?_
    | with_reducible refine ite_frame ?_ ?_ | with_reducible exact hm.mono (by decide) | with_reducible exact hm.bit (by decide)
    | simp only [or_true, true_and, and_true] | with_reducible refine And.intro ?_ ?_
    | with_reducible exact .inl (hm.bit (by decide)) | split | dsimp only | with_reducible refine State.frame_mk ?_ ?_

theorem State.chanAsk_frame {anc : State} {M : Nat} {s : State} {ck : Nat} {dest : Nat} {stream : Nat} {n : Nat} (hm : Sub 0xe004000000007800000003000000000002 M) (hk : anc.Within M s) : anc.Within M (State.chanAsk s ck dest stream n) := by
  unfold State.chanAsk
  repeat' first
    | with_reducible assumption | with_reducible refine State.openChan_frame ?_ ?_ | with_reducible refine State.meshFrom_frame ?_ ?_
    | with_reducible refine State.setChan_frame ?_ ?_ | with_reducible refine ite_frame ?_ ?_
    | with_reducible exact hm.mono (by decide) | split | dsimp only

theorem State.askCredits_frame {anc : State} {M : Nat} {s : State} {ck : Nat} {stream : Nat} {needs : List (Nat × Nat)} (hm : Sub 0xe004000000007800000003000000000002 M) (hk : anc.Within M s) : anc.Within M (State.askCredits s ck stream needs) := by
  unfold State.askCredits
  repeat' first
    | with_reducible assumption | with_reducible refine State.chanAsk_frame ?_ ?_ | with_reducible refine State.each_frame ?_ ?_
    | intro _ | with_reducible exact hm.mono (by decide) | dsimp only

theorem State.reserve_frame {anc : State} {M : Nat} {s : State} {ck : Nat} {stream : Nat} {needs : List (Nat × Nat)} (hm : Sub 0x4000000000000000000000000000000 M) (hk : anc.Within M s) : anc.Within M (State.reserve s ck stream needs) := by
  unfold State.reserve
  repeat' first
    | with_reducible assumption | with_reducible refine State.setChan_frame ?_ ?_ | with_reducible refine State.each_frame ?_ ?_
    | intro _ | with_reducible exact hm.mono (by decide) | split | dsimp only

theorem State.unreserve_frame {anc : State} {M : Nat} {s : State} {ck : Nat} {stream : Nat} {needs : List (Nat × Nat)} (hm : Sub 0x4000000000000000000000000000000 M) (hk : anc.Within M s) : anc.Within M (State.unreserve s ck stream needs) := by
  unfold State.unreserve
  repeat' first
    | with_reducible assumption | with_reducible refine State.setChan_frame ?_ ?_ | with_reducible refine State.each_frame ?_ ?_
    | intro _ | with_reducible exact hm.mono (by decide) | split | dsimp only

theorem State.setBuf_frame {anc : State} {M : Nat} {s : State} {ck : Nat} {idx : Nat} {b : BufSt} (hm : Sub 0x8000000000000000000000000000000 M) (hk : anc.Within M s) : anc.Within M (State.setBuf s ck idx b) := by
  unfold State.setBuf
  repeat' first
    | with_reducible assumption | with_reducible exact hm.mono (by decide) | with_reducible exact hm.bit (by decide)
    | simp only [or_true, true_and, and_true] | with_reducible refine And.intro ?_ ?_
    | with_reducible exact .inl (hm.bit (by decide)) | dsimp only | with_reducible refine State.frame_mk ?_ ?_

theorem State.grant_frame {anc : State} {M : Nat} {s : State} {ck : Nat} {r : CredReq} {n : Nat} (hm : Sub 0xe000000000007800000003000000000002 M) (hk : anc.Within M s) : anc.Within M (State.grant s ck r n) := by
  unfold State.grant
  repeat' first
    | with_reducible assumption | with_reducible refine State.meshFrom_frame ?_ ?_ | with_reducible refine ite_frame ?_ ?_
    | with_reducible exact hm.mono (by decide) | split | dsimp only

theorem State.serveQueue_frame {anc : State} {M : Nat} {s : State} {ck : Nat} {idx : Nat} {x3 : Nat} (hm : Sub 0xe008000000007800000003000000000002 M) (hk : anc.Within M s) : anc.Within M (State.serveQueue s ck idx x3) := by
  induction x3 generalizing s with
  | zero =>
  simp only [State.serveQueue]
  try repeat' first
    | with_reducible assumption | with_reducible refine State.grant_frame ?_ ?_ | with_reducible refine State.setBuf_frame ?_ ?_
    | with_reducible refine State.each_frame ?_ ?_ | with_reducible refine foldl_frame ?_ ?_
    | with_reducible refine foldl_frame_pair ?_ ?_ | with_reducible refine foldl_frame_triple ?_ ?_
    | with_reducible refine State.when_frame ?_ ?_ | intro _ | with_reducible refine ite_frame ?_ ?_
    | with_reducible exact hm.mono (by decide) | with_reducible exact hm.bit (by decide) | simp only [or_true, true_and, and_true]
    | with_reducible refine And.intro ?_ ?_ | with_reducible exact .inl (hm.bit (by decide)) | split | dsimp only
    | with_reducible refine State.frame_mk ?_ ?_
  | succ n ih =>
  simp only [State.serveQueue]
  repeat' first
    | with_reducible assumption | with_reducible apply ih | with_reducible refine State.grant_frame ?_ ?_ | with_reducible refine State.setBuf_frame ?_ ?_
    | with_reducible refine State.each_frame ?_ ?_ | with_reducible refine foldl_frame ?_ ?_
    | with_reducible refine foldl_frame_pair ?_ ?_ | with_reducible refine foldl_frame_triple ?_ ?_
    | with_reducible refine State.when_frame ?_ ?_ | intro _ | with_reducible refine ite_frame ?_ ?_
    | with_reducible exact hm.mono (by decide) | with_reducible exact hm.bit (by decide) | simp only [or_true, true_and, and_true]
    | with_reducible refine And.intro ?_ ?_ | with_reducible exact .inl (hm.bit (by decide)) | split | dsimp only
    | with_reducible refine State.frame_mk ?_ ?_

theorem State.takeRequest_frame {anc : State} {M : Nat} {s : State} {ck : Nat} {idx : Nat} {r : CredReq} (hm : Sub 0xe008000000007800000003000000000002 M) (hk : anc.Within M s) : anc.Within M (State.takeRequest s ck idx r) := by
  unfold State.takeRequest
  repeat' first
    | with_reducible assumption | with_reducible refine State.serveQueue_frame ?_ ?_ | with_reducible refine State.setBuf_frame ?_ ?_
    | with_reducible exact hm.mono (by decide) | dsimp only

theorem State.freePip_frame {anc : State} {M : Nat} {s : State} {ck : Nat} {idx : Nat} {p : Pip} (hm : Sub 0xe008000000007800000003000000000002 M) (hk : anc.Within M s) : anc.Within M (State.freePip s ck idx p) := by
  unfold State.freePip
  repeat' first
    | with_reducible assumption | with_reducible refine State.meshFrom_frame ?_ ?_
    | with_reducible refine State.serveQueue_frame ?_ ?_ | with_reducible refine State.slotSub_frame ?_ ?_
    | with_reducible refine State.setBuf_frame ?_ ?_ | with_reducible refine ite_frame ?_ ?_
    | with_reducible exact hm.mono (by decide) | split | dsimp only

theorem State.freeSet_frame {anc : State} {M : Nat} {s : State} {ck : Nat} {idx : Nat} {ps : List Pip} (hm : Sub 0xe008000000007800000003000000000002 M) (hk : anc.Within M s) : anc.Within M (State.freeSet s ck idx ps) := by
  unfold State.freeSet
  repeat' first
    | with_reducible assumption | with_reducible refine State.freePip_frame ?_ ?_ | with_reducible refine State.each_frame ?_ ?_
    | intro _ | with_reducible exact hm.mono (by decide) | dsimp only

theorem State.unitsPut_frame {anc : State} {M : Nat} {s : State} {ck : Nat} {us : List Nat} {bs : List Nat} (hm : Sub 0x6000000000000000000000000000 M) (hk : anc.Within M s) : anc.Within M (State.unitsPut s ck us bs) := by
  unfold State.unitsPut
  repeat' first
    | with_reducible assumption | with_reducible refine State.sramWrite_frame ?_ ?_
    | with_reducible refine State.sramMark_frame ?_ ?_ | with_reducible refine foldl_frame ?_ ?_ | intro _
    | with_reducible refine ite_frame ?_ ?_ | with_reducible exact hm.mono (by decide) | split | dsimp only

theorem State.bufPut_frame {anc : State} {M : Nat} {s : State} {ck : Nat} {idx : Nat} {p : Pip} (hm : Sub 0x8006000000000000000000000000000 M) (hk : anc.Within M s) : anc.Within M (State.bufPut s ck idx p) := by
  unfold State.bufPut
  repeat' first
    | with_reducible assumption | with_reducible refine State.setBuf_frame ?_ ?_ | with_reducible refine State.unitsPut_frame ?_ ?_
    | with_reducible exact hm.mono (by decide) | dsimp only

theorem State.genDrop_frame {anc : State} {M : Nat} {s : State} {router : Nat} {dest : Nat} {stream : Nat} {seq : Nat} {gen : Nat} (hm : Sub 0x7800000000000001000002 M) (hk : anc.Within M s) : anc.Within M (State.genDrop s router dest stream seq gen) := by
  unfold State.genDrop
  repeat' first
    | with_reducible assumption | with_reducible refine State.blockErr_frame ?_ ?_ ?_ | with_reducible refine State.wf_frame ?_ ?_
    | with_reducible refine State.inc_frame ?_ ?_ | with_reducible exact hm.mono (by decide)
    | with_reducible exact hm.bit (by decide)
    | ((with_reducible refine page_bit (B := ?_) (n := ?_) (k := ?_) hm ?_ ?_ ?_); (on_goal 4 => rfl); all_goals decide)
    | with_reducible exact corePage_bit hm (by decide) (by decide) (by decide) | dsimp only

theorem State.failedSend_frame {anc : State} {M : Nat} {s : State} {ck : Nat} (hm : Sub 0x1800000000000000010000 M) (hk : anc.Within M s) : anc.Within M (State.failedSend s ck) := by
  unfold State.failedSend
  repeat' first
    | with_reducible assumption | with_reducible refine State.setInt_frame ?_ ?_ ?_ | with_reducible refine State.inc_frame ?_ ?_
    | with_reducible refine ite_frame ?_ ?_ | with_reducible exact hm.mono (by decide) | with_reducible exact hm.bit (by decide)
    | ((with_reducible refine page_bit (B := ?_) (n := ?_) (k := ?_) hm ?_ ?_ ?_); (on_goal 4 => rfl); all_goals decide)
    | with_reducible exact corePage_bit hm (by decide) (by decide) (by decide) | split | dsimp only

theorem State.inject_frame_both {anc : State} {M : Nat} {s : State} {ck : Nat} {p : Pip} {reserved : Nat} (hm : Sub 0xe004000000007800000003000001010002 M)
    (hk : anc.Within M s) :
    anc.Within M (State.inject s ck p reserved).2 ∧ ∀ t, (State.inject s ck p reserved).1 = some t → anc.Within M t := by
  have hc : ∀ d st n, anc.Within M (s.chanAsk ck d st n) := fun _ _ _ => State.chanAsk_frame (hm.mono (by decide)) hk
  unfold State.inject
  dsimp only
  split
  · exact ⟨hk, fun t h => by cases h⟩
  · split
    · refine ⟨hk, fun t h => ?_⟩
      obtain rfl := Option.some.inj h
      repeat' first
        | with_reducible assumption
        | with_reducible refine State.notice_frame ?_ ?_
        | with_reducible refine State.genDrop_frame ?_ ?_
        | with_reducible refine State.unreserve_frame ?_ ?_
        | with_reducible refine State.each_frame ?_ ?_
        | with_reducible refine foldl_frame ?_ ?_
        | with_reducible refine foldl_frame_pair ?_ ?_
        | with_reducible refine foldl_frame_triple ?_ ?_
        | with_reducible refine State.when_frame ?_ ?_
        | intro _
        | with_reducible refine ite_frame ?_ ?_
        | with_reducible exact hm.mono (by decide)
        | with_reducible exact hm.bit (by decide)
        | ((with_reducible refine page_bit (B := ?_) (n := ?_) (k := ?_) hm ?_ ?_ ?_); (on_goal 4 => rfl); all_goals decide)
        | with_reducible exact corePage_bit hm (by decide) (by decide) (by decide)
        | simp only [or_true, true_and, and_true]
        | with_reducible refine And.intro ?_ ?_
        | with_reducible exact .inl (hm.bit (by decide))
        | split
        | dsimp only
        | with_reducible refine State.frame_mk ?_ ?_
    · split
      · refine ⟨hk, fun t h => ?_⟩
        obtain rfl := Option.some.inj h
        repeat' first
          | with_reducible assumption
          | with_reducible refine State.failedSend_frame ?_ ?_
          | with_reducible refine State.unreserve_frame ?_ ?_
          | with_reducible refine State.each_frame ?_ ?_
          | with_reducible refine foldl_frame ?_ ?_
          | with_reducible refine foldl_frame_pair ?_ ?_
          | with_reducible refine foldl_frame_triple ?_ ?_
          | with_reducible refine State.when_frame ?_ ?_
          | intro _
          | with_reducible refine ite_frame ?_ ?_
          | with_reducible exact hm.mono (by decide)
          | with_reducible exact hm.bit (by decide)
          | ((with_reducible refine page_bit (B := ?_) (n := ?_) (k := ?_) hm ?_ ?_ ?_); (on_goal 4 => rfl); all_goals decide)
          | with_reducible exact corePage_bit hm (by decide) (by decide) (by decide)
          | simp only [or_true, true_and, and_true]
          | with_reducible refine And.intro ?_ ?_
          | with_reducible exact .inl (hm.bit (by decide))
          | split
          | dsimp only
          | with_reducible refine State.frame_mk ?_ ?_
      · split
        · exact ⟨hc _ _ _, fun t h => by cases h⟩
        · split
          · refine ⟨hk, fun t h => ?_⟩
            obtain rfl := Option.some.inj h
            repeat' first
              | with_reducible assumption
              | with_reducible refine State.meshFrom_frame ?_ ?_
              | with_reducible refine State.setChan_frame ?_ ?_
              | with_reducible refine State.each_frame ?_ ?_
              | with_reducible refine foldl_frame ?_ ?_
              | with_reducible refine foldl_frame_pair ?_ ?_
              | with_reducible refine foldl_frame_triple ?_ ?_
              | with_reducible refine State.when_frame ?_ ?_
              | intro _
              | with_reducible refine ite_frame ?_ ?_
              | with_reducible exact hm.mono (by decide)
              | with_reducible exact hm.bit (by decide)
              | ((with_reducible refine page_bit (B := ?_) (n := ?_) (k := ?_) hm ?_ ?_ ?_); (on_goal 4 => rfl); all_goals decide)
              | with_reducible exact corePage_bit hm (by decide) (by decide) (by decide)
              | simp only [or_true, true_and, and_true]
              | with_reducible refine And.intro ?_ ?_
              | with_reducible exact .inl (hm.bit (by decide))
              | split
              | dsimp only
              | with_reducible refine State.frame_mk ?_ ?_
          · exact ⟨hc _ _ _, fun t h => by cases h⟩

theorem State.inject_frame {anc : State} {M : Nat} {s : State} {ck : Nat} {p : Pip} {reserved : Nat} (hm : Sub 0xe004000000007800000003000001010002 M)
    (hk : anc.Within M s) : anc.Within M (State.inject s ck p reserved).2 := (State.inject_frame_both hm hk).1

theorem State.inject_frame_eq {anc : State} {M : Nat} {s ck p reserved} {r0 t} (hm : Sub 0xe004000000007800000003000001010002 M)
    (heqx : State.inject s ck p reserved = (r0, t)) (hk : anc.Within M s) : anc.Within M t := by
  have := State.inject_frame (ck := ck) (p := p) (reserved := reserved) hm hk
  rwa [heqx] at this

theorem State.inject_frame_some {anc : State} {M : Nat} {s ck p reserved} {t r} (hm : Sub 0xe004000000007800000003000001010002 M)
    (heqx : State.inject s ck p reserved = (some t, r)) (hk : anc.Within M s) : anc.Within M t :=
  (State.inject_frame_both hm hk).2 t (by rw [heqx])

end Sys2Proof.Machine
end

