-- ==== Sys2Proof/Laws/Frame/Engine.lean ====
section
/-! SUPPORT. Every operation and meaning of Machine/Engine.lean changes only the register areas and parts of the state its mask names. -/

namespace Sys2Proof.Machine

set_option linter.unreachableTactic false
set_option linter.unusedTactic false

theorem State.setEng_frame {anc : State} {M : Nat} {s : State} {e : Nat} {x : EngSt} (hm : Sub 0x8000000000000000000000000000 M) (hk : anc.Within M s) : anc.Within M (State.setEng s e x) := by
  unfold State.setEng
  repeat' first
    | with_reducible assumption | with_reducible exact hm.mono (by decide) | with_reducible exact hm.bit (by decide)
    | simp only [or_true, true_and, and_true] | with_reducible refine And.intro ?_ ?_
    | with_reducible exact .inl (hm.bit (by decide)) | dsimp only | with_reducible refine State.frame_mk ?_ ?_

theorem State.setPilot_frame {anc : State} {M : Nat} {s : State} {e : Nat} {b : Nat} {p : PilotSt} (hm : Sub 0x8000000000000000000000000000 M) (hk : anc.Within M s) : anc.Within M (State.setPilot s e b p) := by
  unfold State.setPilot
  repeat' first
    | with_reducible assumption | with_reducible refine State.setEng_frame ?_ ?_ | with_reducible exact hm.mono (by decide)
    | dsimp only

theorem State.unstale_frame {anc : State} {M : Nat} {s : State} {e : Nat} (hm : Sub 0x40000 M) (hk : anc.Within M s) : anc.Within M (State.unstale s e) := by
  unfold State.unstale
  repeat' first
    | with_reducible assumption | with_reducible refine State.wf_frame ?_ ?_ | with_reducible refine ite_frame ?_ ?_
    | with_reducible exact hm.mono (by decide) | with_reducible exact hm.bit (by decide) | split | dsimp only

theorem State.retrack_frame {anc : State} {M : Nat} {s : State} {e : Nat} {before : State} (hm : Sub 0x8000000000000000000000040000 M) (hk : anc.Within M s) : anc.Within M (State.retrack s e before) := by
  unfold State.retrack
  repeat' first
    | with_reducible assumption | with_reducible refine State.unstale_frame ?_ ?_ | with_reducible refine State.setPilot_frame ?_ ?_
    | with_reducible refine State.each_frame ?_ ?_ | intro _ | with_reducible refine ite_frame ?_ ?_
    | with_reducible exact hm.mono (by decide) | split | dsimp only

theorem State.setBankState_frame {anc : State} {M : Nat} {s : State} {e : Nat} {b : Nat} {st : Nat} (hm : Sub 0x8000001800000000000000040000 M) (hk : anc.Within M s) : anc.Within M (State.setBankState s e b st) := by
  unfold State.setBankState
  repeat' first
    | with_reducible assumption | with_reducible refine State.setInt_frame ?_ ?_ ?_ | with_reducible refine State.wf_frame ?_ ?_
    | with_reducible refine State.retrack_frame ?_ ?_ | with_reducible refine State.setPilot_frame ?_ ?_
    | with_reducible refine State.when_frame ?_ ?_ | intro _ | with_reducible exact hm.mono (by decide)
    | with_reducible exact hm.bit (by decide)
    | ((with_reducible refine page_bit (B := ?_) (n := ?_) (k := ?_) hm ?_ ?_ ?_); (on_goal 4 => rfl); all_goals decide)
    | with_reducible exact corePage_bit hm (by decide) (by decide) (by decide) | with_reducible exact bankStateF_bit hm (by decide)
    | dsimp only

theorem State.bind_frame {anc : State} {M : Nat} {s : State} {e : Nat} {w : Nat} (hm : Sub 0x8000000000000000000000040000 M) (hk : anc.Within M s) : anc.Within M (State.bind s e w) := by
  unfold State.bind
  repeat' first
    | with_reducible assumption | with_reducible refine State.retrack_frame ?_ ?_ | with_reducible refine State.wf_frame ?_ ?_
    | with_reducible refine State.each_frame ?_ ?_ | intro _ | with_reducible exact hm.mono (by decide)
    | with_reducible exact hm.bit (by decide) | with_reducible exact epochBankF_bit hm (by decide) | dsimp only

theorem State.accumulate_frame {anc : State} {M : Nat} {s : State} {e : Nat} {t : Tile} {c : Conv} {rs : List Int} {n : Nat} (hm : Sub 0x8000000000000000000000040000 M) (hk : anc.Within M s) : anc.Within M (State.accumulate s e t c rs n) := by
  unfold State.accumulate
  repeat' first
    | with_reducible assumption | with_reducible refine State.setEng_frame ?_ ?_ | with_reducible refine foldl_frame ?_ ?_ | intro _
    | with_reducible refine ite_frame ?_ ?_ | with_reducible exact hm.mono (by decide)
    | with_reducible exact gainF_bit hm (by decide) | with_reducible exact offsetF_bit hm (by decide) | split | dsimp only

theorem State.skipZero_frame {anc : State} {M : Nat} {s : State} {e : Nat} {x2 : Nat} (hm : Sub 0x8000000000000000000000040000 M) (hk : anc.Within M s) : anc.Within M (State.skipZero s e x2) := by
  induction x2 generalizing s with
  | zero =>
  simp only [State.skipZero]
  try repeat' first
    | with_reducible assumption | with_reducible refine State.accumulate_frame ?_ ?_ | with_reducible refine State.setEng_frame ?_ ?_
    | with_reducible refine State.each_frame ?_ ?_ | with_reducible refine foldl_frame ?_ ?_
    | with_reducible refine foldl_frame_pair ?_ ?_ | with_reducible refine foldl_frame_triple ?_ ?_
    | with_reducible refine State.when_frame ?_ ?_ | intro _ | with_reducible refine ite_frame ?_ ?_
    | with_reducible exact hm.mono (by decide) | with_reducible exact hm.bit (by decide) | simp only [or_true, true_and, and_true]
    | with_reducible refine And.intro ?_ ?_ | with_reducible exact .inl (hm.bit (by decide)) | split | dsimp only
    | with_reducible refine State.frame_mk ?_ ?_
  | succ n ih =>
  simp only [State.skipZero]
  repeat' first
    | with_reducible assumption | with_reducible apply ih | with_reducible refine State.accumulate_frame ?_ ?_ | with_reducible refine State.setEng_frame ?_ ?_
    | with_reducible refine State.each_frame ?_ ?_ | with_reducible refine foldl_frame ?_ ?_
    | with_reducible refine foldl_frame_pair ?_ ?_ | with_reducible refine foldl_frame_triple ?_ ?_
    | with_reducible refine State.when_frame ?_ ?_ | intro _ | with_reducible refine ite_frame ?_ ?_
    | with_reducible exact hm.mono (by decide) | with_reducible exact hm.bit (by decide) | simp only [or_true, true_and, and_true]
    | with_reducible refine And.intro ?_ ?_ | with_reducible exact .inl (hm.bit (by decide)) | split | dsimp only
    | with_reducible refine State.frame_mk ?_ ?_

theorem State.beginTile_frame {anc : State} {M : Nat} {s : State} {e : Nat} {t : Tile} (hm : Sub 0x8000000000000000000000040000 M) (hk : anc.Within M s) : anc.Within M (State.beginTile s e t) := by
  unfold State.beginTile
  repeat' first
    | with_reducible assumption | with_reducible refine State.skipZero_frame ?_ ?_ | with_reducible refine State.wf_frame ?_ ?_
    | with_reducible refine State.setEng_frame ?_ ?_ | with_reducible exact hm.mono (by decide)
    | with_reducible exact hm.bit (by decide) | dsimp only

theorem State.clipInfo_frame {anc : State} {M : Nat} {s : State} {e : Nat} {t : Tile} {c : Conv} {slice : Nat} {lower : Bool} {b : Nat} (hm : Sub 0x40000 M) (hk : anc.Within M s) : anc.Within M (State.clipInfo s e t c slice lower b) := by
  unfold State.clipInfo
  repeat' first
    | with_reducible assumption | with_reducible refine State.wf_frame ?_ ?_ | with_reducible refine State.inc_frame ?_ ?_
    | with_reducible exact hm.mono (by decide) | with_reducible exact hm.bit (by decide)
    | ((with_reducible refine page_bit (B := ?_) (n := ?_) (k := ?_) hm ?_ ?_ ?_); (on_goal 4 => rfl); all_goals decide)
    | with_reducible exact corePage_bit hm (by decide) (by decide) (by decide) | dsimp only

theorem State.subStep_frame {anc : State} {M : Nat} {s : State} {e : Nat} {noise : List Int} (hm : Sub 0x8000001800000000000000040000 M) (hk : anc.Within M s) : anc.Within M (State.subStep s e noise) := by
  unfold State.subStep
  repeat' first
    | with_reducible assumption | with_reducible refine State.wf_frame ?_ ?_ | with_reducible refine State.clipInfo_frame ?_ ?_
    | with_reducible refine State.setInt_frame ?_ ?_ ?_ | with_reducible refine State.inc_frame ?_ ?_
    | with_reducible refine State.accumulate_frame ?_ ?_ | with_reducible refine State.skipZero_frame ?_ ?_
    | with_reducible refine State.setEng_frame ?_ ?_ | with_reducible refine State.each_frame ?_ ?_
    | with_reducible refine foldl_frame ?_ ?_ | with_reducible refine State.when_frame ?_ ?_ | intro _
    | with_reducible refine ite_frame ?_ ?_ | with_reducible exact hm.mono (by decide) | with_reducible exact hm.bit (by decide)
    | ((with_reducible refine page_bit (B := ?_) (n := ?_) (k := ?_) hm ?_ ?_ ?_); (on_goal 4 => rfl); all_goals decide)
    | with_reducible exact corePage_bit hm (by decide) (by decide) (by decide) | split | dsimp only

theorem State.endTile_frame {anc : State} {M : Nat} {s : State} {e : Nat} (hm : Sub 0x8000000000000000000000040000 M) (hk : anc.Within M s) : anc.Within M (State.endTile s e).1 := by
  unfold State.endTile
  repeat' first
    | with_reducible assumption | with_reducible refine State.inc_frame ?_ ?_ | with_reducible refine State.setEng_frame ?_ ?_
    | with_reducible refine State.when_frame ?_ ?_ | intro _ | with_reducible exact hm.mono (by decide)
    | with_reducible exact hm.bit (by decide)
    | ((with_reducible refine page_bit (B := ?_) (n := ?_) (k := ?_) hm ?_ ?_ ?_); (on_goal 4 => rfl); all_goals decide)
    | with_reducible exact corePage_bit hm (by decide) (by decide) (by decide) | split | dsimp only

theorem State.endTile_frame_eq {anc : State} {M : Nat} {s : State} {e : Nat} (hm : Sub 0x8000000000000000000000040000 M) {r0 tz} (heqx : State.endTile s e = (tz, r0)) (hk : anc.Within M s) : anc.Within M tz := by
  have := State.endTile_frame (s := s) (e := e) hm hk
  rwa [heqx] at this

theorem State.dropTile_frame {anc : State} {M : Nat} {s : State} {e : Nat} (hm : Sub 0x8000000000000000000000000000 M) (hk : anc.Within M s) : anc.Within M (State.dropTile s e) := by
  unfold State.dropTile
  repeat' first
    | with_reducible assumption | with_reducible refine State.setEng_frame ?_ ?_ | with_reducible exact hm.mono (by decide)
    | dsimp only

theorem State.sweepDone_frame {anc : State} {M : Nat} {s : State} {e : Nat} {b : Nat} {vs : List Int} (hm : Sub 0x8000008000001800000000000000040000 M) (hk : anc.Within M s) : anc.Within M (State.sweepDone s e b vs) := by
  unfold State.sweepDone
  repeat' first
    | with_reducible assumption | with_reducible refine State.setPilot_frame ?_ ?_ | with_reducible refine State.wf_frame ?_ ?_
    | with_reducible refine State.inc_frame ?_ ?_ | with_reducible refine State.setInt_frame ?_ ?_ ?_
    | with_reducible refine State.unstale_frame ?_ ?_ | with_reducible refine State.suspect_frame ?_ ?_
    | with_reducible refine State.when_frame ?_ ?_ | intro _ | with_reducible refine ite_frame ?_ ?_
    | with_reducible exact hm.mono (by decide) | with_reducible exact hm.bit (by decide)
    | ((with_reducible refine page_bit (B := ?_) (n := ?_) (k := ?_) hm ?_ ?_ ?_); (on_goal 4 => rfl); all_goals decide)
    | with_reducible exact corePage_bit hm (by decide) (by decide) (by decide) | with_reducible exact retrimF_bit hm (by decide)
    | with_reducible exact driftHardF_bit hm (by decide) | with_reducible exact gainF_bit hm (by decide)
    | with_reducible exact offsetF_bit hm (by decide) | with_reducible exact spanBaseF_bit hm (by decide)
    | with_reducible exact zeroBaseF_bit hm (by decide) | with_reducible exact readLoF_bit hm (by decide)
    | with_reducible exact readHiF_bit hm (by decide) | with_reducible exact sweepStampF_bit hm (by decide) | split | dsimp only

theorem State.sweepDue_frame {anc : State} {M : Nat} {s : State} {e : Nat} {b : Nat} (hm : Sub 0x8000000000000000000000000000 M) (hk : anc.Within M s) : anc.Within M (State.sweepDue s e b) := by
  unfold State.sweepDue
  repeat' first
    | with_reducible assumption | with_reducible refine State.setPilot_frame ?_ ?_ | with_reducible refine ite_frame ?_ ?_
    | with_reducible exact hm.mono (by decide) | split | dsimp only

theorem State.pilotStep_frame {anc : State} {M : Nat} {s : State} {e : Nat} {b : Nat} {noise : List Int} (hm : Sub 0x8000008000001800000000000000040000 M) (hk : anc.Within M s) : anc.Within M (State.pilotStep s e b noise) := by
  unfold State.pilotStep
  repeat' first
    | with_reducible assumption | with_reducible refine State.sweepDone_frame ?_ ?_
    | with_reducible refine State.setPilot_frame ?_ ?_ | with_reducible refine ite_frame ?_ ?_
    | with_reducible exact hm.mono (by decide) | split | dsimp only

theorem State.forcedSweep_frame {anc : State} {M : Nat} {s : State} {e : Nat} {b : Nat} {noise : List (List Int)} (hm : Sub 0x8000008000001800000000000000040000 M) (hk : anc.Within M s) : anc.Within M (State.forcedSweep s e b noise) := by
  unfold State.forcedSweep
  repeat' first
    | with_reducible assumption | with_reducible refine State.sweepDone_frame ?_ ?_
    | with_reducible refine State.setInt_frame ?_ ?_ ?_ | with_reducible refine State.incSat_frame ?_ ?_
    | with_reducible refine foldl_frame ?_ ?_ | intro _ | with_reducible refine ite_frame ?_ ?_
    | with_reducible exact hm.mono (by decide) | with_reducible exact hm.bit (by decide)
    | ((with_reducible refine page_bit (B := ?_) (n := ?_) (k := ?_) hm ?_ ?_ ?_); (on_goal 4 => rfl); all_goals decide)
    | with_reducible exact corePage_bit hm (by decide) (by decide) (by decide) | split | dsimp only

theorem State.pilotStale_frame {anc : State} {M : Nat} {s : State} {e : Nat} (hm : Sub 0x40000 M) (hk : anc.Within M s) : anc.Within M (State.pilotStale s e) := by
  unfold State.pilotStale
  repeat' first
    | with_reducible assumption | with_reducible refine State.wf_frame ?_ ?_ | with_reducible refine ite_frame ?_ ?_
    | with_reducible exact hm.mono (by decide) | with_reducible exact hm.bit (by decide) | split | dsimp only

theorem State.pilotNow_frame {anc : State} {M : Nat} {s : State} {e : Nat} (hm : Sub 0x8000000000000000000000000000 M) (hk : anc.Within M s) : anc.Within M (State.pilotNow s e) := by
  unfold State.pilotNow
  repeat' first
    | with_reducible assumption | with_reducible refine State.setPilot_frame ?_ ?_ | with_reducible refine State.each_frame ?_ ?_
    | intro _ | with_reducible refine ite_frame ?_ ?_ | with_reducible exact hm.mono (by decide) | split | dsimp only

end Sys2Proof.Machine
end

