-- ==== Sys2Proof/Laws/Frame/Vorane.lean ====
section
/-! SUPPORT. Every operation and meaning of Machine/Vorane.lean changes only the register areas and parts of the state its mask names. -/

namespace Sys2Proof.Machine

set_option linter.unreachableTactic false
set_option linter.unusedTactic false

theorem State.putRec_frame {anc : State} {M : Nat} {s : State} {r : CmdRec} (hm : Sub 0x100000000000000000000000 M) (hk : anc.Within M s) : anc.Within M (State.putRec s r) := by
  unfold State.putRec
  repeat' first
    | with_reducible assumption | with_reducible exact hm.mono (by decide) | with_reducible exact hm.bit (by decide)
    | simp only [or_true, true_and, and_true] | with_reducible refine And.intro ?_ ?_
    | with_reducible exact .inl (hm.bit (by decide)) | dsimp only | with_reducible refine State.frame_mk ?_ ?_

theorem State.setRec_frame {anc : State} {M : Nat} {s : State} {qp : Nat} {cmdId : Nat} {f : CmdRec → CmdRec} (hm : Sub 0x100000000000000000000000 M) (hk : anc.Within M s) : anc.Within M (State.setRec s qp cmdId f) := by
  unfold State.setRec
  repeat' first
    | with_reducible assumption | with_reducible refine ite_frame ?_ ?_ | with_reducible exact hm.mono (by decide)
    | with_reducible exact hm.bit (by decide) | simp only [or_true, true_and, and_true] | with_reducible refine And.intro ?_ ?_
    | with_reducible exact .inl (hm.bit (by decide)) | split | dsimp only | with_reducible refine State.frame_mk ?_ ?_

theorem State.sendCompletion_frame {anc : State} {M : Nat} {s : State} {qp : Nat} {cmdId : Nat} {opcode : Nat} {result : Nat} {arrival : Nat} {body : List Nat} (hm : Sub 0x8000000000200000000000030000000000 M) (hk : anc.Within M s) : anc.Within M (State.sendCompletion s qp cmdId opcode result arrival body) := by
  unfold State.sendCompletion
  repeat' first
    | with_reducible assumption | with_reducible refine State.wf_frame ?_ ?_ | with_reducible refine State.inc_frame ?_ ?_
    | with_reducible refine State.sendQp_frame ?_ ?_ | with_reducible refine ite_frame ?_ ?_
    | with_reducible exact hm.mono (by decide) | with_reducible exact hm.bit (by decide)
    | ((with_reducible refine page_bit (B := ?_) (n := ?_) (k := ?_) hm ?_ ?_ ?_); (on_goal 4 => rfl); all_goals decide)
    | with_reducible exact corePage_bit hm (by decide) (by decide) (by decide) | split | dsimp only

theorem State.sendAck_frame {anc : State} {M : Nat} {s : State} {qp : Nat} {cmdId : Nat} {opcode : Nat} {arrival : Nat} (hm : Sub 0x8000000000200000000000030000000000 M) (hk : anc.Within M s) : anc.Within M (State.sendAck s qp cmdId opcode arrival) := by
  unfold State.sendAck
  repeat' first
    | with_reducible assumption | with_reducible refine State.sendQp_frame ?_ ?_ | with_reducible refine ite_frame ?_ ?_
    | with_reducible exact hm.mono (by decide) | split | dsimp only

theorem State.setCmd_frame {anc : State} {M : Nat} {s : State} {qp : Nat} {cmdId : Nat} {f : OpenCmd → OpenCmd} (hm : Sub 0x20000000000000000000000 M) (hk : anc.Within M s) : anc.Within M (State.setCmd s qp cmdId f) := by
  unfold State.setCmd
  repeat' first
    | with_reducible assumption | with_reducible refine ite_frame ?_ ?_ | with_reducible exact hm.mono (by decide)
    | with_reducible exact hm.bit (by decide) | simp only [or_true, true_and, and_true] | with_reducible refine And.intro ?_ ?_
    | with_reducible exact .inl (hm.bit (by decide)) | split | dsimp only | with_reducible refine State.frame_mk ?_ ?_

theorem State.takeEffect_frame {anc : State} {M : Nat} {s : State} {qp : Nat} {cmdId : Nat} {body : List Nat} (hm : Sub 0x20000000000000000000000 M) (hk : anc.Within M s) : anc.Within M (State.takeEffect s qp cmdId body) := by
  unfold State.takeEffect
  repeat' first
    | with_reducible assumption | with_reducible refine State.setCmd_frame ?_ ?_ | with_reducible exact hm.mono (by decide)
    | dsimp only

theorem State.finish_frame {anc : State} {M : Nat} {s : State} {qp : Nat} {cmdId : Nat} {body : List Nat} (hm : Sub 0x8000000000320000000000030000000000 M) (hk : anc.Within M s) : anc.Within M (State.finish s qp cmdId body) := by
  unfold State.finish
  repeat' first
    | with_reducible assumption | with_reducible refine State.setRec_frame ?_ ?_
    | with_reducible refine State.sendCompletion_frame ?_ ?_ | with_reducible refine ite_frame ?_ ?_
    | with_reducible exact hm.mono (by decide) | with_reducible exact hm.bit (by decide) | simp only [or_true, true_and, and_true]
    | with_reducible refine And.intro ?_ ?_ | with_reducible exact .inl (hm.bit (by decide)) | split | dsimp only
    | with_reducible refine State.frame_mk ?_ ?_

theorem State.replyEarly_frame {anc : State} {M : Nat} {s : State} {qp : Nat} {cmdId : Nat} {body : List Nat} (hm : Sub 0x8000000000320000000000030000000000 M) (hk : anc.Within M s) : anc.Within M (State.replyEarly s qp cmdId body) := by
  unfold State.replyEarly
  repeat' first
    | with_reducible assumption | with_reducible refine State.setRec_frame ?_ ?_
    | with_reducible refine State.sendCompletion_frame ?_ ?_ | with_reducible refine ite_frame ?_ ?_
    | with_reducible exact hm.mono (by decide) | with_reducible exact hm.bit (by decide) | simp only [or_true, true_and, and_true]
    | with_reducible refine And.intro ?_ ?_ | with_reducible exact .inl (hm.bit (by decide)) | split | dsimp only
    | with_reducible refine State.frame_mk ?_ ?_

theorem State.finalRec_frame {anc : State} {M : Nat} {s : State} {qp : Nat} {cmdId : Nat} {body : List Nat} (hm : Sub 0x100000000000000000000000 M) (hk : anc.Within M s) : anc.Within M (State.finalRec s qp cmdId body) := by
  unfold State.finalRec
  repeat' first
    | with_reducible assumption | with_reducible refine State.setRec_frame ?_ ?_ | with_reducible exact hm.mono (by decide)
    | dsimp only

theorem State.setSem_frame {anc : State} {M : Nat} {s : State} {i : Nat} {v : SemSt} (hm : Sub 0x800000000000000000000000 M) (hk : anc.Within M s) : anc.Within M (State.setSem s i v) := by
  unfold State.setSem
  repeat' first
    | with_reducible assumption | with_reducible exact hm.mono (by decide) | with_reducible exact hm.bit (by decide)
    | simp only [or_true, true_and, and_true] | with_reducible refine And.intro ?_ ?_
    | with_reducible exact .inl (hm.bit (by decide)) | dsimp only | with_reducible refine State.frame_mk ?_ ?_

theorem State.semCount_frame {anc : State} {M : Nat} {s : State} {i : Nat} (hm : Sub 0x4 M) (hk : anc.Within M s) : anc.Within M (State.semCount s i) := by
  unfold State.semCount
  repeat' first
    | with_reducible assumption | with_reducible refine State.wf_frame ?_ ?_ | with_reducible exact hm.mono (by decide)
    | with_reducible exact hm.bit (by decide) | with_reducible exact semWaitersF_bit hm (by decide) | dsimp only

theorem State.withdraw_frame {anc : State} {M : Nat} {s : State} {qp : Nat} {cmdId : Nat} (hm : Sub 0x960000000000000000000004 M) (hk : anc.Within M s) : anc.Within M (State.withdraw s qp cmdId) := by
  unfold State.withdraw
  repeat' first
    | with_reducible assumption | with_reducible refine State.semCount_frame ?_ ?_ | with_reducible refine State.setRec_frame ?_ ?_
    | with_reducible refine State.each_frame ?_ ?_ | intro _ | with_reducible exact hm.mono (by decide)
    | with_reducible exact hm.bit (by decide) | simp only [or_true, true_and, and_true] | with_reducible refine And.intro ?_ ?_
    | with_reducible exact .inl (hm.bit (by decide)) | dsimp only | with_reducible refine State.frame_mk ?_ ?_

theorem State.semGrant_frame {anc : State} {M : Nat} {s : State} {i : Nat} {holder : Nat} {source : Nat} {leaseMs : Nat} (hm : Sub 0x800000000000020000000004 M) (hk : anc.Within M s) : anc.Within M (State.semGrant s i holder source leaseMs) := by
  unfold State.semGrant
  repeat' first
    | with_reducible assumption | with_reducible refine State.setSem_frame ?_ ?_ | with_reducible refine State.wf_frame ?_ ?_
    | with_reducible refine State.inc_frame ?_ ?_ | with_reducible refine ite_frame ?_ ?_ | with_reducible exact hm.mono (by decide)
    | with_reducible exact hm.bit (by decide)
    | ((with_reducible refine page_bit (B := ?_) (n := ?_) (k := ?_) hm ?_ ?_ ?_); (on_goal 4 => rfl); all_goals decide)
    | with_reducible exact corePage_bit hm (by decide) (by decide) (by decide) | with_reducible exact semHeldF_bit hm (by decide)
    | with_reducible exact semHolderF_bit hm (by decide) | with_reducible exact semSourceF_bit hm (by decide) | split | dsimp only

theorem State.semFree_frame {anc : State} {M : Nat} {s : State} {i : Nat} (hm : Sub 0x800000000000020000000004 M) (hk : anc.Within M s) : anc.Within M (State.semFree s i) := by
  unfold State.semFree
  repeat' first
    | with_reducible assumption | with_reducible refine State.setSem_frame ?_ ?_ | with_reducible refine State.wf_frame ?_ ?_
    | with_reducible refine State.dec_frame ?_ ?_ | with_reducible refine ite_frame ?_ ?_ | with_reducible exact hm.mono (by decide)
    | with_reducible exact hm.bit (by decide)
    | ((with_reducible refine page_bit (B := ?_) (n := ?_) (k := ?_) hm ?_ ?_ ?_); (on_goal 4 => rfl); all_goals decide)
    | with_reducible exact corePage_bit hm (by decide) (by decide) (by decide) | with_reducible exact semHeldF_bit hm (by decide)
    | with_reducible exact semHolderF_bit hm (by decide) | with_reducible exact semSourceF_bit hm (by decide) | split | dsimp only

theorem State.semNext_frame {anc : State} {M : Nat} {s : State} {i : Nat} (hm : Sub 0x8000000000b20000000000030000000004 M) (hk : anc.Within M s) : anc.Within M (State.semNext s i) := by
  unfold State.semNext
  repeat' first
    | with_reducible assumption | with_reducible refine State.semGrant_frame ?_ ?_ | with_reducible refine State.setSem_frame ?_ ?_
    | with_reducible refine State.semCount_frame ?_ ?_ | with_reducible refine State.finish_frame ?_ ?_
    | with_reducible exact hm.mono (by decide) | split | dsimp only

theorem guardedPages_bit {a b i : Nat} {p : Page} (hm : Sub a b) (ha : a.testBit 40 = true) (h : p ∈ guardedPages i) :
    b.testBit p.area = true := by
  unfold guardedPages at h
  split at h
  · obtain ⟨k, hk, rfl⟩ := List.mem_map.1 h
    have : k < 16 := by
      simp only [List.mem_cons, List.not_mem_nil, or_false] at hk
      omega
    exact page_bit hm rfl this ha
  · cases h

theorem State.semBreak_frame {anc : State} {M : Nat} {s : State} {i cause : Nat} (hm : Sub 0x8000000000b27800000000030000000006 M) (hk : anc.Within M s) :
    anc.Within M (State.semBreak s i cause) := by
  unfold State.semBreak
  have hg : ∀ {t : State}, anc.Within M t → anc.Within M (t.each (guardedPages i) fun t p => t.setInt p 3) := fun ht =>
    foldl_frame_mem (fun t p hp h => State.setInt_frame (hm.mono (by decide)) (guardedPages_bit hm (by decide) hp) h) ht
  dsimp only
  repeat' first
    | with_reducible assumption
    | with_reducible refine hg ?_
    | with_reducible refine State.semNext_frame ?_ ?_
    | with_reducible refine State.logEv_frame ?_ ?_
    | with_reducible refine State.setInt_frame ?_ ?_ ?_
    | with_reducible refine State.semFree_frame ?_ ?_
    | with_reducible refine State.wf_frame ?_ ?_
    | with_reducible refine State.inc_frame ?_ ?_
    | with_reducible refine State.when_frame ?_ ?_
    | intro _
    | with_reducible exact hm.mono (by decide)
    | with_reducible exact hm.bit (by decide)

theorem State.semBreakAll_frame {anc : State} {M : Nat} {s : State} {holder : Nat} {source : Nat} {cause : Nat} (hm : Sub 0x8000000000b27800000000030000000006 M) (hk : anc.Within M s) : anc.Within M (State.semBreakAll s holder source cause) := by
  unfold State.semBreakAll
  repeat' first
    | with_reducible assumption | with_reducible refine State.semBreak_frame ?_ ?_ | with_reducible refine State.each_frame ?_ ?_
    | intro _ | with_reducible refine ite_frame ?_ ?_ | with_reducible exact hm.mono (by decide) | split | dsimp only

theorem State.ringStall_frame {anc : State} {M : Nat} {s : State} {r : Nat} (hm : Sub 0x1800000400000000000000 M) (hk : anc.Within M s) : anc.Within M (State.ringStall s r) := by
  unfold State.ringStall
  repeat' first
    | with_reducible assumption | with_reducible refine State.capture_frame ?_ ?_ ?_
    | with_reducible refine State.setInt_frame ?_ ?_ ?_ | with_reducible refine State.wf_frame ?_ ?_
    | with_reducible exact hm.mono (by decide) | with_reducible exact hm.bit (by decide)
    | ((with_reducible refine page_bit (B := ?_) (n := ?_) (k := ?_) hm ?_ ?_ ?_); (on_goal 4 => rfl); all_goals decide)
    | with_reducible exact corePage_bit hm (by decide) (by decide) (by decide) | dsimp only

theorem State.qpLeave_frame {anc : State} {M : Nat} {s : State} {qp : Nat} {dieReset : optParam Bool false} (hm : Sub 0x8800000000b67800000400030000000006 M) (hk : anc.Within M s) : anc.Within M (State.qpLeave s qp dieReset) := by
  unfold State.qpLeave
  repeat' first
    | with_reducible assumption | with_reducible refine State.semBreakAll_frame ?_ ?_
    | with_reducible refine State.ringStall_frame ?_ ?_ | with_reducible refine State.wf_frame ?_ ?_
    | with_reducible refine State.setQp_frame ?_ ?_ | with_reducible refine State.withdraw_frame ?_ ?_
    | with_reducible refine State.setCmd_frame ?_ ?_ | with_reducible refine State.each_frame ?_ ?_ | intro _
    | with_reducible refine ite_frame ?_ ?_ | with_reducible exact hm.mono (by decide) | with_reducible exact hm.bit (by decide)
    | simp only [or_true, true_and, and_true] | with_reducible refine And.intro ?_ ?_
    | with_reducible exact .inl (hm.bit (by decide)) | split | dsimp only | with_reducible refine State.frame_mk ?_ ?_

theorem fieldsOf_qp_bit {a b : Nat} {f : Field} (hm : Sub a b) (ha : a.testBit 41 = true) (h : f ∈ fieldsOf 0x29 0) :
    b.testBit f.area = true := by
  have : ∀ g ∈ fieldsOf 0x29 0, g.area = 41 := by decide
  exact hm.bitOf ha (this f h)

theorem State.qpIdle_frame {anc : State} {M : Nat} {s : State} {qp : Nat} (hm : Sub 0x200000000000020000000000 M) (hk : anc.Within M s) :
    anc.Within M (State.qpIdle s qp) := by
  unfold State.qpIdle
  dsimp only
  with_reducible refine State.frame_mk ?_ ?_
  · exact foldl_frame_mem (fun t f hf h => State.clr_frame (fieldsOf_qp_bit hm (by decide) hf) h) hk
  · simp only [or_true, true_and, and_true]
    exact .inl (hm.bit (by decide))

theorem State.countQps_frame {anc : State} {M : Nat} {s : State} {port : Nat} (hm : Sub 0x30000000000 M) (hk : anc.Within M s) : anc.Within M (State.countQps s port) := by
  unfold State.countQps
  repeat' first
    | with_reducible assumption | with_reducible refine State.wf_frame ?_ ?_ | with_reducible exact hm.mono (by decide)
    | with_reducible exact hm.bit (by decide) | dsimp only

theorem State.qpError_frame {anc : State} {M : Nat} {s : State} {qp : Nat} {cause : Nat} (hm : Sub 0x8800000000b67800000400030000000006 M) (hk : anc.Within M s) : anc.Within M (State.qpError s qp cause) := by
  unfold State.qpError
  repeat' first
    | with_reducible assumption | with_reducible refine State.wf_frame ?_ ?_ | with_reducible refine State.blockErr_frame ?_ ?_ ?_
    | with_reducible refine State.qpLeave_frame ?_ ?_ | with_reducible refine State.countQps_frame ?_ ?_
    | with_reducible refine State.when_frame ?_ ?_ | intro _ | with_reducible refine ite_frame ?_ ?_
    | with_reducible exact hm.mono (by decide) | with_reducible exact hm.bit (by decide)
    | ((with_reducible refine page_bit (B := ?_) (n := ?_) (k := ?_) hm ?_ ?_ ?_); (on_goal 4 => rfl); all_goals decide)
    | with_reducible exact corePage_bit hm (by decide) (by decide) (by decide) | split | dsimp only

theorem State.transportAck_frame {anc : State} {M : Nat} {s : State} {qp : Nat} (hm : Sub 0x8000000000000000000000030000000000 M) (hk : anc.Within M s) : anc.Within M (State.transportAck s qp) := by
  unfold State.transportAck
  repeat' first
    | with_reducible assumption | with_reducible refine State.framesOut_frame ?_ ?_ | with_reducible refine State.emit_frame ?_ ?_
    | with_reducible exact hm.mono (by decide) | dsimp only

theorem State.admit_frame {anc : State} {M : Nat} {s : State} {i : Instr} {opcode : Nat} {c : Cmd} {cls : Class} {lenOk : Bool} {t : State}
    (hm : Sub 0x8800000000be7800000400030000000006 M) (hk : anc.Within M s)
    (e : State.intake s i opcode c cls lenOk = .done t ∨ State.intake s i opcode c cls lenOk = .run t) : anc.Within M t := by
  unfold State.intake at e
  repeat' first
    | with_reducible assumption
    | with_reducible refine State.transportAck_frame ?_ ?_
    | with_reducible refine State.framesOut_frame ?_ ?_
    | with_reducible refine State.sendAck_frame ?_ ?_
    | with_reducible refine State.sendCompletion_frame ?_ ?_
    | with_reducible refine State.putRec_frame ?_ ?_
    | with_reducible refine State.qpError_frame ?_ ?_
    | with_reducible refine State.emit_frame ?_ ?_
    | with_reducible refine State.inc_frame ?_ ?_
    | with_reducible refine State.dec_frame ?_ ?_
    | with_reducible exact hm.mono (by decide)
    | with_reducible exact hm.bit (by decide)
    | simp only [or_true, true_and, and_true]
    | with_reducible refine And.intro ?_ ?_
    | with_reducible exact .inl (hm.bit (by decide))
    | split at e
    | (rcases e with e | e)
    | (cases e; done)
    | (injection e with e; subst e)
    | split
    | dsimp only at e
    | dsimp only
    | with_reducible refine State.frame_mk ?_ ?_

theorem State.vorane_frame {anc : State} {M : Nat} {s : State} {i : Instr} {opcode : Nat} {c : Cmd} {cls : Class} {lenOk : Bool}
    {act : State → State} (hm : Sub 0x8800000000be7800000400030000000006 M) (hact : ∀ t, anc.Within M t → anc.Within M (act t)) (hk : anc.Within M s) :
    anc.Within M (State.vorane s i opcode c cls lenOk act) := by
  unfold State.vorane
  split
  · skip
    repeat' first
      | with_reducible assumption
      | with_reducible refine hact _ ?_
      | with_reducible refine State.each_frame ?_ ?_
      | with_reducible refine foldl_frame ?_ ?_
      | with_reducible refine foldl_frame_pair ?_ ?_
      | with_reducible refine foldl_frame_triple ?_ ?_
      | with_reducible refine State.when_frame ?_ ?_
      | intro _
      | with_reducible refine ite_frame ?_ ?_
      | with_reducible exact hm.mono (by decide)
      | with_reducible exact hm.bit (by decide)
      | ((with_reducible refine page_bit (B := ?_) (n := ?_) (k := ?_) hm ?_ ?_ ?_); (on_goal 4 => rfl); all_goals decide)
      | with_reducible exact corePage_bit hm (by decide) (by decide) (by decide)
      | simp only [or_true, true_and, and_true]
      | with_reducible refine And.intro ?_ ?_
      | with_reducible exact .inl (hm.bit (by decide))
      | split
      | dsimp only
      | with_reducible refine State.frame_mk ?_ ?_
  · split
    · rename_i e
      exact State.admit_frame hm hk (Or.inl e)
    · rename_i e
      exact hact _ (State.admit_frame hm hk (Or.inr e))

theorem State.reply_frame {anc : State} {M : Nat} {s : State} {c : Cmd} {body : List Nat} (hm : Sub 0x8000000000320000000000030000000000 M) (hk : anc.Within M s) : anc.Within M (State.reply s c body) := by
  unfold State.reply
  repeat' first
    | with_reducible assumption | with_reducible refine State.finish_frame ?_ ?_ | with_reducible exact hm.mono (by decide)
    | dsimp only

end Sys2Proof.Machine
end

