-- ==== Sys2Proof/Laws/Frame/Kv.lean ====
section
/-! SUPPORT. Every operation and meaning of Machine/Kv.lean changes only the register areas and parts of the state its mask names. -/

namespace Sys2Proof.Machine

set_option linter.unreachableTactic false
set_option linter.unusedTactic false

theorem State.setKv_frame {anc : State} {M : Nat} {s : State} {v : Nat} {k : KvPool} (hm : Sub 0x200000000000000000000000000 M) (hk : anc.Within M s) : anc.Within M (State.setKv s v k) := by
  unfold State.setKv
  repeat' first
    | with_reducible assumption | with_reducible exact hm.mono (by decide) | with_reducible exact hm.bit (by decide)
    | simp only [or_true, true_and, and_true] | with_reducible refine And.intro ?_ ?_
    | with_reducible exact .inl (hm.bit (by decide)) | dsimp only | with_reducible refine State.frame_mk ?_ ?_

theorem State.setPt_frame {anc : State} {M : Nat} {s : State} {v : Nat} {slot : Nat} {p : Nat} {w : Nat} (hm : Sub 0x2000000000000000000000000000 M) (hk : anc.Within M s) : anc.Within M (State.setPt s v slot p w) := by
  unfold State.setPt
  repeat' first
    | with_reducible assumption | with_reducible refine State.sramWrite_frame ?_ ?_ | with_reducible exact hm.mono (by decide)
    | dsimp only

theorem State.kvReserve_frame {anc : State} {M : Nat} {s : State} {v : Nat} {slot : Nat} {n : Nat} (hm : Sub 0x200000000000000000000000000 M) (hk : anc.Within M s) : anc.Within M (State.kvReserve s v slot n).2 := by
  unfold State.kvReserve
  repeat' first
    | with_reducible assumption | with_reducible refine State.setKv_frame ?_ ?_ | with_reducible refine ite_frame ?_ ?_
    | with_reducible refine ite_frame2 ?_ ?_ | with_reducible refine ite_frame3 ?_ ?_ | with_reducible exact hm.mono (by decide)
    | split | dsimp only

theorem State.kvReserve_frame_eq {anc : State} {M : Nat} {s : State} {v : Nat} {slot : Nat} {n : Nat} (hm : Sub 0x200000000000000000000000000 M) {r0 tz} (heqx : State.kvReserve s v slot n = (r0, tz)) (hk : anc.Within M s) : anc.Within M tz := by
  have := State.kvReserve_frame (s := s) (v := v) (slot := slot) (n := n) hm hk
  rwa [heqx] at this

theorem State.kvMeta_frame {anc : State} {M : Nat} {s : State} {v : Nat} {n : Nat} (hm : Sub 0x1c00007800000000000100100002 M) (hk : anc.Within M s) : anc.Within M (State.kvMeta s v n) := by
  unfold State.kvMeta
  repeat' first
    | with_reducible assumption | with_reducible refine State.hbmWrite_frame ?_ ?_ | with_reducible refine foldl_frame ?_ ?_
    | with_reducible refine State.when_frame ?_ ?_ | intro _ | with_reducible exact hm.mono (by decide) | dsimp only

theorem State.hbmBytes_frame {anc : State} {M : Nat} {s : State} {a : Nat} {n : Nat} (hm : Sub 0x7800000000000100000002 M) (hk : anc.Within M s) : anc.Within M (State.hbmBytes s a n).2 := by
  unfold State.hbmBytes
  repeat' first
    | with_reducible assumption | with_reducible refine State.hbmRead_frame ?_ ?_
    | refine State.hbmRead_frame_eq ?_ (by with_reducible assumption) ?_ | with_reducible refine foldl_frame ?_ ?_
    | with_reducible refine foldl_frame_pair ?_ ?_ | with_reducible refine foldl_frame_triple ?_ ?_ | intro _
    | with_reducible exact hm.mono (by decide) | split | dsimp only

theorem State.hbmBytes_frame_eq {anc : State} {M : Nat} {s : State} {a : Nat} {n : Nat} (hm : Sub 0x7800000000000100000002 M) {r0 tz} (heqx : State.hbmBytes s a n = (r0, tz)) (hk : anc.Within M s) : anc.Within M tz := by
  have := State.hbmBytes_frame (s := s) (a := a) (n := n) hm hk
  rwa [heqx] at this

theorem State.hbmPut_frame {anc : State} {M : Nat} {s : State} {a : Nat} {bs : List (Nat × Bool)} (hm : Sub 0x1c00007800000000000100000002 M) (hk : anc.Within M s) : anc.Within M (State.hbmPut s a bs) := by
  unfold State.hbmPut
  repeat' first
    | with_reducible assumption | with_reducible refine State.hbmWrite_frame ?_ ?_ | with_reducible refine State.each_frame ?_ ?_
    | intro _ | with_reducible exact hm.mono (by decide) | dsimp only

theorem State.kvDrop_frame {anc : State} {M : Nat} {s : State} {v : Nat} {slot : Nat} {p : Nat} (hm : Sub 0x3e00007800000000000100100002 M) (hk : anc.Within M s) : anc.Within M (State.kvDrop s v slot p) := by
  unfold State.kvDrop
  repeat' first
    | with_reducible assumption | with_reducible refine State.setKv_frame ?_ ?_ | with_reducible refine State.setPt_frame ?_ ?_
    | with_reducible refine State.kvMeta_frame ?_ ?_ | with_reducible refine ite_frame ?_ ?_
    | with_reducible exact hm.mono (by decide) | split | dsimp only

theorem State.kvRelease_frame {anc : State} {M : Nat} {s : State} {v : Nat} {slot : Nat} (hm : Sub 0x3e00007800000000000100100002 M) (hk : anc.Within M s) : anc.Within M (State.kvRelease s v slot) := by
  unfold State.kvRelease
  repeat' first
    | with_reducible assumption | with_reducible refine State.kvDrop_frame ?_ ?_ | with_reducible refine State.setKv_frame ?_ ?_
    | with_reducible refine State.each_frame ?_ ?_ | intro _ | with_reducible exact hm.mono (by decide) | dsimp only

theorem State.kvShare_frame {anc : State} {M : Nat} {s : State} {v : Nat} {src : Nat} {dst : Nat} {n : Nat} (hm : Sub 0x3e00007800000000000100100002 M) (hk : anc.Within M s) : anc.Within M (State.kvShare s v src dst n).2 := by
  unfold State.kvShare
  repeat' first
    | with_reducible assumption | with_reducible refine State.kvDrop_frame ?_ ?_ | with_reducible refine State.setKv_frame ?_ ?_
    | with_reducible refine State.kvMeta_frame ?_ ?_ | with_reducible refine State.setPt_frame ?_ ?_
    | with_reducible refine State.each_frame ?_ ?_ | intro _ | with_reducible refine ite_frame ?_ ?_
    | with_reducible refine ite_frame2 ?_ ?_ | with_reducible refine ite_frame3 ?_ ?_ | with_reducible exact hm.mono (by decide)
    | split | dsimp only

theorem State.kvShare_frame_eq {anc : State} {M : Nat} {s : State} {v : Nat} {src : Nat} {dst : Nat} {n : Nat} (hm : Sub 0x3e00007800000000000100100002 M) {r0 tz} (heqx : State.kvShare s v src dst n = (r0, tz)) (hk : anc.Within M s) : anc.Within M tz := by
  have := State.kvShare_frame (s := s) (v := v) (src := src) (dst := dst) (n := n) hm hk
  rwa [heqx] at this

theorem State.kvWrite_frame {anc : State} {M : Nat} {s : State} {v : Nat} {slot : Nat} {pos : Nat} {off : Nat} {data : List Nat} {hollow : Bool} (hm : Sub 0x3e00007800000000000100100002 M) (hk : anc.Within M s) : anc.Within M (State.kvWrite s v slot pos off data hollow).2 := by
  unfold State.kvWrite
  repeat' first
    | with_reducible assumption | with_reducible refine State.blockErr_frame ?_ ?_ ?_ | with_reducible refine State.wf_frame ?_ ?_
    | with_reducible refine State.inc_frame ?_ ?_ | with_reducible refine State.hbmPut_frame ?_ ?_
    | with_reducible refine State.setPt_frame ?_ ?_ | with_reducible refine State.setKv_frame ?_ ?_
    | with_reducible refine State.kvMeta_frame ?_ ?_ | with_reducible refine ite_frame ?_ ?_ | with_reducible refine ite_frame2 ?_ ?_
    | with_reducible refine ite_frame3 ?_ ?_ | with_reducible exact hm.mono (by decide) | with_reducible exact hm.bit (by decide)
    | ((with_reducible refine page_bit (B := ?_) (n := ?_) (k := ?_) hm ?_ ?_ ?_); (on_goal 4 => rfl); all_goals decide)
    | with_reducible exact corePage_bit hm (by decide) (by decide) (by decide) | split | dsimp only

theorem State.kvWrite_frame_eq {anc : State} {M : Nat} {s : State} {v : Nat} {slot : Nat} {pos : Nat} {off : Nat} {data : List Nat} {hollow : Bool} (hm : Sub 0x3e00007800000000000100100002 M) {r0 tz} (heqx : State.kvWrite s v slot pos off data hollow = (r0, tz)) (hk : anc.Within M s) : anc.Within M tz := by
  have := State.kvWrite_frame (s := s) (v := v) (slot := slot) (pos := pos) (off := off) (data := data) (hollow := hollow) hm hk
  rwa [heqx] at this

theorem State.clearVResids_frame {anc : State} {M : Nat} {s : State} {ctx : Nat} (hm : Sub 0x802000000000000000000000000000 M) (hk : anc.Within M s) : anc.Within M (State.clearVResids s ctx) := by
  unfold State.clearVResids
  repeat' first
    | with_reducible assumption | with_reducible refine State.sramWrite_frame ?_ ?_ | with_reducible refine State.each_frame ?_ ?_
    | intro _ | with_reducible exact hm.mono (by decide) | with_reducible exact hm.bit (by decide)
    | simp only [or_true, true_and, and_true] | with_reducible refine And.intro ?_ ?_
    | with_reducible exact .inl (hm.bit (by decide)) | dsimp only | with_reducible refine State.frame_mk ?_ ?_

end Sys2Proof.Machine
end

