-- ==== Sys2Proof/Laws/Frame/Ring.lean ====
section
/-! SUPPORT. Every operation and meaning of Machine/Ring.lean changes only the register areas and parts of the state its mask names. -/

namespace Sys2Proof.Machine

set_option linter.unreachableTactic false
set_option linter.unusedTactic false

theorem State.setCtx_frame {anc : State} {M : Nat} {s : State} {handle : Nat} {f : Ctx → Ctx} (hm : Sub 0x1000000000000000000000000 M) (hk : anc.Within M s) : anc.Within M (State.setCtx s handle f) := by
  unfold State.setCtx
  repeat' first
    | with_reducible assumption | with_reducible refine ite_frame ?_ ?_ | with_reducible exact hm.mono (by decide)
    | with_reducible exact hm.bit (by decide) | simp only [or_true, true_and, and_true] | with_reducible refine And.intro ?_ ?_
    | with_reducible exact .inl (hm.bit (by decide)) | split | dsimp only | with_reducible refine State.frame_mk ?_ ?_

theorem State.setReq_frame {anc : State} {M : Nat} {s : State} {id : Nat} {f : Req → Req} (hm : Sub 0x4000000000000000000000000 M) (hk : anc.Within M s) : anc.Within M (State.setReq s id f) := by
  unfold State.setReq
  repeat' first
    | with_reducible assumption | with_reducible refine ite_frame ?_ ?_ | with_reducible exact hm.mono (by decide)
    | with_reducible exact hm.bit (by decide) | simp only [or_true, true_and, and_true] | with_reducible refine And.intro ?_ ?_
    | with_reducible exact .inl (hm.bit (by decide)) | split | dsimp only | with_reducible refine State.frame_mk ?_ ?_

theorem State.setVar_frame {anc : State} {M : Nat} {s : State} {v : Nat} {x : VarSt} (hm : Sub 0x40000000000000000000000000 M) (hk : anc.Within M s) : anc.Within M (State.setVar s v x) := by
  unfold State.setVar
  repeat' first
    | with_reducible assumption | with_reducible exact hm.mono (by decide) | with_reducible exact hm.bit (by decide)
    | simp only [or_true, true_and, and_true] | with_reducible refine And.intro ?_ ?_
    | with_reducible exact .inl (hm.bit (by decide)) | dsimp only | with_reducible refine State.frame_mk ?_ ?_

theorem State.setsBack_frame {anc : State} {M : Nat} {s : State} {id : Nat} {n : Nat} (hm : Sub 0x44000000000000000000000000 M) (hk : anc.Within M s) : anc.Within M (State.setsBack s id n) := by
  unfold State.setsBack
  repeat' first
    | with_reducible assumption | with_reducible refine State.setReq_frame ?_ ?_ | with_reducible refine State.setVar_frame ?_ ?_
    | with_reducible refine ite_frame ?_ ?_ | with_reducible exact hm.mono (by decide) | split | dsimp only

theorem State.setVState_frame {anc : State} {M : Nat} {s : State} {v : Nat} {st : Nat} (hm : Sub 0x1800000100000000000000 M) (hk : anc.Within M s) : anc.Within M (State.setVState s v st) := by
  unfold State.setVState
  repeat' first
    | with_reducible assumption | with_reducible refine State.setInt_frame ?_ ?_ ?_ | with_reducible refine State.wf_frame ?_ ?_
    | with_reducible exact hm.mono (by decide) | with_reducible exact hm.bit (by decide)
    | ((with_reducible refine page_bit (B := ?_) (n := ?_) (k := ?_) hm ?_ ?_ ?_); (on_goal 4 => rfl); all_goals decide)
    | with_reducible exact corePage_bit hm (by decide) (by decide) (by decide) | dsimp only

theorem State.countServe_frame {anc : State} {M : Nat} {s : State} {v : Nat} {t : Nat} (hm : Sub 0x300000000000000 M) (hk : anc.Within M s) : anc.Within M (State.countServe s v t) := by
  unfold State.countServe
  repeat' first
    | with_reducible assumption | with_reducible refine State.wf_frame ?_ ?_ | with_reducible exact hm.mono (by decide)
    | with_reducible exact hm.bit (by decide) | dsimp only

theorem State.commitRec_frame {anc : State} {M : Nat} {s : State} {r : Nat} {rec : Nat → List Nat} (hm : Sub 0x1c00007800000400000100000002 M) (hk : anc.Within M s) : anc.Within M (State.commitRec s r rec) := by
  unfold State.commitRec
  repeat' first
    | with_reducible assumption | with_reducible refine State.wf_frame ?_ ?_ | with_reducible refine State.hbmWriteWords_frame ?_ ?_
    | with_reducible exact hm.mono (by decide) | with_reducible exact hm.bit (by decide) | dsimp only

theorem State.commitToken_frame {anc : State} {M : Nat} {s : State} {id : Nat} {token : Nat} {position : Nat} (hm : Sub 0x1c04007800000400000100000002 M) (hk : anc.Within M s) : anc.Within M (State.commitToken s id token position) := by
  unfold State.commitToken
  repeat' first
    | with_reducible assumption | with_reducible refine State.setReq_frame ?_ ?_ | with_reducible refine State.commitRec_frame ?_ ?_
    | with_reducible exact hm.mono (by decide) | split | dsimp only

theorem State.clearStreams_frame {anc : State} {M : Nat} {s : State} {r : Req} (hm : Sub 0x2000000000000000000000010000 M) (hk : anc.Within M s) : anc.Within M (State.clearStreams s r) := by
  unfold State.clearStreams
  repeat' first
    | with_reducible assumption | with_reducible refine State.sramWrite_frame ?_ ?_ | with_reducible refine State.each_frame ?_ ?_
    | intro _ | with_reducible refine ite_frame ?_ ?_ | with_reducible exact hm.mono (by decide) | split | dsimp only

theorem State.kvReleaseTurn_frame {anc : State} {M : Nat} {s : State} {v : Nat} {slot : Nat} (hm : Sub 0x803e00007800000000000100100002 M) (hk : anc.Within M s) : anc.Within M (State.kvReleaseTurn s v slot) := by
  unfold State.kvReleaseTurn
  repeat' first
    | with_reducible assumption | with_reducible refine State.kvRelease_frame ?_ ?_ | with_reducible refine ite_frame ?_ ?_
    | with_reducible exact hm.mono (by decide) | with_reducible exact hm.bit (by decide) | simp only [or_true, true_and, and_true]
    | with_reducible refine And.intro ?_ ?_ | with_reducible exact .inl (hm.bit (by decide)) | split | dsimp only
    | with_reducible refine State.frame_mk ?_ ?_

theorem State.releaseCtx_frame {anc : State} {M : Nat} {s : State} {c : Ctx} (hm : Sub 0x803e00007800000000000100100002 M) (hk : anc.Within M s) : anc.Within M (State.releaseCtx s c) := by
  unfold State.releaseCtx
  repeat' first
    | with_reducible assumption | with_reducible refine State.kvReleaseTurn_frame ?_ ?_
    | with_reducible refine State.each_frame ?_ ?_ | intro _ | with_reducible exact hm.mono (by decide) | dsimp only

theorem State.drainContexts_frame {anc : State} {M : Nat} {s : State} {v : Nat} (hm : Sub 0x803e01007800000000000100100002 M) (hk : anc.Within M s) : anc.Within M (State.drainContexts s v) := by
  unfold State.drainContexts
  repeat' first
    | with_reducible assumption | with_reducible refine State.releaseCtx_frame ?_ ?_ | with_reducible refine State.each_frame ?_ ?_
    | intro _ | with_reducible refine ite_frame ?_ ?_ | with_reducible exact hm.mono (by decide)
    | with_reducible exact hm.bit (by decide) | simp only [or_true, true_and, and_true] | with_reducible refine And.intro ?_ ?_
    | with_reducible exact .inl (hm.bit (by decide)) | split | dsimp only | with_reducible refine State.frame_mk ?_ ?_

theorem State.commitEnd_frame {anc : State} {M : Nat} {s : State} {id : Nat} {ctxLen : Nat} {notes : Nat} (hm : Sub 0x803e0d007800000700000100110002 M) (hk : anc.Within M s) : anc.Within M (State.commitEnd s id ctxLen notes) := by
  unfold State.commitEnd
  repeat' first
    | with_reducible assumption | with_reducible refine State.commitRec_frame ?_ ?_
    | with_reducible refine State.clearStreams_frame ?_ ?_ | with_reducible refine State.setCtx_frame ?_ ?_
    | with_reducible refine State.wf_frame ?_ ?_ | with_reducible refine State.drainContexts_frame ?_ ?_
    | with_reducible refine State.countServe_frame ?_ ?_ | with_reducible refine State.inc_frame ?_ ?_
    | with_reducible exact hm.mono (by decide) | with_reducible exact hm.bit (by decide)
    | ((with_reducible refine page_bit (B := ?_) (n := ?_) (k := ?_) hm ?_ ?_ ?_); (on_goal 4 => rfl); all_goals decide)
    | with_reducible exact corePage_bit hm (by decide) (by decide) (by decide) | simp only [or_true, true_and, and_true]
    | with_reducible refine And.intro ?_ ?_ | with_reducible exact .inl (hm.bit (by decide)) | split | dsimp only
    | with_reducible refine State.frame_mk ?_ ?_

theorem State.setRing_frame {anc : State} {M : Nat} {s : State} {r : Nat} {x : RingSt} (hm : Sub 0x10000000000000000000000000 M) (hk : anc.Within M s) : anc.Within M (State.setRing s r x) := by
  unfold State.setRing
  repeat' first
    | with_reducible assumption | with_reducible exact hm.mono (by decide) | with_reducible exact hm.bit (by decide)
    | simp only [or_true, true_and, and_true] | with_reducible refine And.intro ?_ ?_
    | with_reducible exact .inl (hm.bit (by decide)) | dsimp only | with_reducible refine State.frame_mk ?_ ?_

theorem State.ringWait_frame {anc : State} {M : Nat} {s : State} {r : Nat} {d : Doorbell} (hm : Sub 0x10001800000400000000000000 M) (hk : anc.Within M s) : anc.Within M (State.ringWait s r d) := by
  unfold State.ringWait
  repeat' first
    | with_reducible assumption | with_reducible refine State.inc_frame ?_ ?_ | with_reducible refine State.setInt_frame ?_ ?_ ?_
    | with_reducible refine State.wf_frame ?_ ?_ | with_reducible refine State.setRing_frame ?_ ?_
    | with_reducible exact hm.mono (by decide) | with_reducible exact hm.bit (by decide)
    | ((with_reducible refine page_bit (B := ?_) (n := ?_) (k := ?_) hm ?_ ?_ ?_); (on_goal 4 => rfl); all_goals decide)
    | with_reducible exact corePage_bit hm (by decide) (by decide) (by decide) | dsimp only

theorem State.fixOutcome_frame {anc : State} {M : Nat} {s : State} {id : Nat} {status : Nat} {reason : Nat} (hm : Sub 0x15001800000500000000000000 M) (hk : anc.Within M s) : anc.Within M (State.fixOutcome s id status reason) := by
  unfold State.fixOutcome
  repeat' first
    | with_reducible assumption | with_reducible refine State.inc_frame ?_ ?_ | with_reducible refine State.setRing_frame ?_ ?_
    | with_reducible refine State.setReq_frame ?_ ?_ | with_reducible refine State.wf_frame ?_ ?_
    | with_reducible refine State.setCtx_frame ?_ ?_ | with_reducible refine State.setInt_frame ?_ ?_ ?_
    | with_reducible refine State.when_frame ?_ ?_ | intro _ | with_reducible refine ite_frame ?_ ?_
    | with_reducible exact hm.mono (by decide) | with_reducible exact hm.bit (by decide)
    | ((with_reducible refine page_bit (B := ?_) (n := ?_) (k := ?_) hm ?_ ?_ ?_); (on_goal 4 => rfl); all_goals decide)
    | with_reducible exact corePage_bit hm (by decide) (by decide) (by decide) | split | dsimp only

theorem State.takeEnd_frame {anc : State} {M : Nat} {s : State} {id : Nat} {d : Doorbell} (hm : Sub 0x803e1d007800000700000100110002 M) (hk : anc.Within M s) : anc.Within M (State.takeEnd s id d) := by
  unfold State.takeEnd
  repeat' first
    | with_reducible assumption | with_reducible refine State.commitEnd_frame ?_ ?_
    | with_reducible refine State.ringWait_frame ?_ ?_ | with_reducible refine ite_frame ?_ ?_
    | with_reducible exact hm.mono (by decide) | split | dsimp only

theorem State.takeDoorbell_frame {anc : State} {M : Nat} {s : State} {d : Doorbell} (hm : Sub 0x803e1d007800000700000100110002 M) (hk : anc.Within M s) : anc.Within M (State.takeDoorbell s d) := by
  unfold State.takeDoorbell
  repeat' first
    | with_reducible assumption | with_reducible refine State.inc_frame ?_ ?_ | with_reducible refine State.commitToken_frame ?_ ?_
    | with_reducible refine State.ringWait_frame ?_ ?_ | with_reducible refine State.takeEnd_frame ?_ ?_
    | with_reducible refine State.fixOutcome_frame ?_ ?_ | with_reducible refine State.commitEnd_frame ?_ ?_
    | with_reducible refine ite_frame ?_ ?_ | with_reducible exact hm.mono (by decide) | with_reducible exact hm.bit (by decide)
    | ((with_reducible refine page_bit (B := ?_) (n := ?_) (k := ?_) hm ?_ ?_ ?_); (on_goal 4 => rfl); all_goals decide)
    | with_reducible exact corePage_bit hm (by decide) (by decide) (by decide) | split | dsimp only

theorem State.ringRetry_frame {anc : State} {M : Nat} {s : State} {r : Nat} {x2 : Nat} (hm : Sub 0x803e1d007800000700000100110002 M) (hk : anc.Within M s) : anc.Within M (State.ringRetry s r x2) := by
  induction x2 generalizing s with
  | zero =>
  simp only [State.ringRetry]
  try repeat' first
    | with_reducible assumption | with_reducible refine State.commitToken_frame ?_ ?_ | with_reducible refine State.wf_frame ?_ ?_
    | with_reducible refine State.setRing_frame ?_ ?_ | with_reducible refine State.commitEnd_frame ?_ ?_
    | with_reducible refine State.each_frame ?_ ?_ | with_reducible refine foldl_frame ?_ ?_
    | with_reducible refine foldl_frame_pair ?_ ?_ | with_reducible refine foldl_frame_triple ?_ ?_
    | with_reducible refine State.when_frame ?_ ?_ | intro _ | with_reducible refine ite_frame ?_ ?_
    | with_reducible exact hm.mono (by decide) | with_reducible exact hm.bit (by decide) | simp only [or_true, true_and, and_true]
    | with_reducible refine And.intro ?_ ?_ | with_reducible exact .inl (hm.bit (by decide)) | split | dsimp only
    | with_reducible refine State.frame_mk ?_ ?_
  | succ n ih =>
  simp only [State.ringRetry]
  repeat' first
    | with_reducible assumption | with_reducible apply ih | with_reducible refine State.commitToken_frame ?_ ?_ | with_reducible refine State.wf_frame ?_ ?_
    | with_reducible refine State.setRing_frame ?_ ?_ | with_reducible refine State.commitEnd_frame ?_ ?_
    | with_reducible refine State.each_frame ?_ ?_ | with_reducible refine foldl_frame ?_ ?_
    | with_reducible refine foldl_frame_pair ?_ ?_ | with_reducible refine foldl_frame_triple ?_ ?_
    | with_reducible refine State.when_frame ?_ ?_ | intro _ | with_reducible refine ite_frame ?_ ?_
    | with_reducible exact hm.mono (by decide) | with_reducible exact hm.bit (by decide) | simp only [or_true, true_and, and_true]
    | with_reducible refine And.intro ?_ ?_ | with_reducible exact .inl (hm.bit (by decide)) | split | dsimp only
    | with_reducible refine State.frame_mk ?_ ?_

theorem State.endWhenIdle_frame {anc : State} {M : Nat} {s : State} {id : Nat} (hm : Sub 0x803e3d007800000700000100110002 M) (hk : anc.Within M s) : anc.Within M (State.endWhenIdle s id) := by
  unfold State.endWhenIdle
  repeat' first
    | with_reducible assumption | with_reducible refine State.takeEnd_frame ?_ ?_ | with_reducible refine State.setReq_frame ?_ ?_
    | with_reducible refine ite_frame ?_ ?_ | with_reducible exact hm.mono (by decide) | with_reducible exact hm.bit (by decide)
    | simp only [or_true, true_and, and_true] | with_reducible refine And.intro ?_ ?_
    | with_reducible exact .inl (hm.bit (by decide)) | split | dsimp only | with_reducible refine State.frame_mk ?_ ?_

theorem State.endRequest_frame {anc : State} {M : Nat} {s : State} {id : Nat} {status : Nat} (hm : Sub 0x803e3d007800000700000100110002 M) (hk : anc.Within M s) : anc.Within M (State.endRequest s id status) := by
  unfold State.endRequest
  repeat' first
    | with_reducible assumption | with_reducible refine State.setReq_frame ?_ ?_ | with_reducible refine State.setCtx_frame ?_ ?_
    | with_reducible refine State.endWhenIdle_frame ?_ ?_ | with_reducible refine State.fixOutcome_frame ?_ ?_
    | with_reducible refine ite_frame ?_ ?_ | with_reducible exact hm.mono (by decide) | split | dsimp only

theorem State.ringDeliver_frame {anc : State} {M : Nat} {s : State} {r : Nat} (hm : Sub 0x8000000010200000000400030000000000 M) (hk : anc.Within M s) : anc.Within M (State.ringDeliver s r) := by
  unfold State.ringDeliver
  repeat' first
    | with_reducible assumption | with_reducible refine State.txQp_frame ?_ ?_ | with_reducible refine State.framesOut_frame ?_ ?_
    | with_reducible refine State.emit_frame ?_ ?_ | with_reducible refine State.setRing_frame ?_ ?_
    | with_reducible refine State.sendQp_frame ?_ ?_ | with_reducible refine ite_frame ?_ ?_
    | with_reducible exact hm.mono (by decide) | split | dsimp only

end Sys2Proof.Machine
end

