-- ==== Sys2Proof/Laws/Frame/Program.lean ====
section
/-! SUPPORT. Every operation and meaning of Machine/Program.lean changes only the register areas and parts of the state its mask names. -/

namespace Sys2Proof.Machine

set_option linter.unreachableTactic false
set_option linter.unusedTactic false

theorem State.setProg_frame {anc : State} {M : Nat} {s : State} {e : Nat} {p : ProgSt} (hm : Sub 0x40000000000000000000000080000 M) (hk : anc.Within M s) : anc.Within M (State.setProg s e p) := by
  unfold State.setProg
  repeat' first
    | with_reducible assumption | with_reducible refine State.wf_frame ?_ ?_ | with_reducible exact hm.mono (by decide)
    | with_reducible exact hm.bit (by decide) | simp only [or_true, true_and, and_true] | with_reducible refine And.intro ?_ ?_
    | with_reducible exact .inl (hm.bit (by decide)) | dsimp only | with_reducible refine State.frame_mk ?_ ?_

theorem State.progRefuse_frame {anc : State} {M : Nat} {s : State} {e : Nat} {result : Nat} {cause : Nat} {m : Master} {w : Nat} (hm : Sub 0x1800000000000000080000 M) (hk : anc.Within M s) : anc.Within M (State.progRefuse s e result cause m w) := by
  unfold State.progRefuse
  repeat' first
    | with_reducible assumption | with_reducible refine State.setInts_frame ?_ ?_ ?_
    | with_reducible refine State.capture_frame ?_ ?_ ?_ | with_reducible refine State.wf_frame ?_ ?_
    | with_reducible exact hm.mono (by decide) | with_reducible exact hm.bit (by decide)
    | ((with_reducible refine page_bit (B := ?_) (n := ?_) (k := ?_) hm ?_ ?_ ?_); (on_goal 4 => rfl); all_goals decide)
    | with_reducible exact corePage_bit hm (by decide) (by decide) (by decide) | dsimp only

theorem State.loadImage_frame {anc : State} {M : Nat} {s : State} {op : ProgOp} (hm : Sub 0x7800000000000100000002 M) (hk : anc.Within M s) : anc.Within M (State.loadImage s op).2 := by
  unfold State.loadImage
  repeat' first
    | with_reducible assumption | with_reducible refine State.hbmCodewords_frame ?_ ?_
    | refine State.hbmCodewords_frame_eq ?_ (by with_reducible assumption) ?_ | with_reducible refine ite_frame ?_ ?_
    | with_reducible refine ite_frame2 ?_ ?_ | with_reducible refine ite_frame3 ?_ ?_ | with_reducible exact hm.mono (by decide)
    | split | dsimp only

theorem State.loadImage_frame_eq {anc : State} {M : Nat} {s : State} {op : ProgOp} (hm : Sub 0x7800000000000100000002 M) {r0 tz} (heqx : State.loadImage s op = (r0, tz)) (hk : anc.Within M s) : anc.Within M tz := by
  have := State.loadImage_frame (s := s) (op := op) hm hk
  rwa [heqx] at this

theorem State.progStart_frame {anc : State} {M : Nat} {s : State} {e : Nat} {m : Master} {op : ProgOp} {w : Nat} (hm : Sub 0x40000007800000000000100080002 M) (hk : anc.Within M s) : anc.Within M (State.progStart s e m op w).2 := by
  unfold State.progStart
  repeat' first
    | with_reducible assumption | with_reducible refine State.progRefuse_frame ?_ ?_
    | with_reducible refine State.loadImage_frame ?_ ?_ | refine State.loadImage_frame_eq ?_ (by with_reducible assumption) ?_
    | with_reducible refine State.wf_frame ?_ ?_ | with_reducible refine State.setProg_frame ?_ ?_
    | with_reducible refine State.setInt_frame ?_ ?_ ?_ | with_reducible refine ite_frame ?_ ?_
    | with_reducible refine ite_frame2 ?_ ?_ | with_reducible refine ite_frame3 ?_ ?_ | with_reducible exact hm.mono (by decide)
    | with_reducible exact hm.bit (by decide)
    | ((with_reducible refine page_bit (B := ?_) (n := ?_) (k := ?_) hm ?_ ?_ ?_); (on_goal 4 => rfl); all_goals decide)
    | with_reducible exact corePage_bit hm (by decide) (by decide) (by decide) | split | dsimp only

theorem State.progStart_frame_eq {anc : State} {M : Nat} {s : State} {e : Nat} {m : Master} {op : ProgOp} {w : Nat} (hm : Sub 0x40000007800000000000100080002 M) {r0 tz} (heqx : State.progStart s e m op w = (r0, tz)) (hk : anc.Within M s) : anc.Within M tz := by
  have := State.progStart_frame (s := s) (e := e) (m := m) (op := op) (w := w) hm hk
  rwa [heqx] at this

theorem State.oasisStart_frame {anc : State} {M : Nat} {s : State} {e : Nat} {op : ProgOp} (hm : Sub 0x40000007800000000000100080002 M) (hk : anc.Within M s) : anc.Within M (State.oasisStart s e op).2 := by
  unfold State.oasisStart
  repeat' first
    | with_reducible assumption | with_reducible refine State.progStart_frame ?_ ?_
    | refine State.progStart_frame_eq ?_ (by with_reducible assumption) ?_ | with_reducible refine State.wf_frame ?_ ?_
    | with_reducible refine ite_frame ?_ ?_ | with_reducible refine ite_frame2 ?_ ?_ | with_reducible refine ite_frame3 ?_ ?_
    | with_reducible exact hm.mono (by decide) | with_reducible exact hm.bit (by decide) | split | dsimp only

theorem State.oasisStart_frame_eq {anc : State} {M : Nat} {s : State} {e : Nat} {op : ProgOp} (hm : Sub 0x40000007800000000000100080002 M) {r0 tz} (heqx : State.oasisStart s e op = (r0, tz)) (hk : anc.Within M s) : anc.Within M tz := by
  have := State.oasisStart_frame (s := s) (e := e) (op := op) hm hk
  rwa [heqx] at this

theorem State.ledger_frame {anc : State} {M : Nat} {s : State} {e : Nat} {bank : Nat} {rows : List Nat} (hm : Sub 0x20000001800000000000000080000 M) (hk : anc.Within M s) : anc.Within M (State.ledger s e bank rows) := by
  unfold State.ledger
  repeat' first
    | with_reducible assumption | with_reducible refine State.wf_frame ?_ ?_ | with_reducible refine State.incSat_frame ?_ ?_
    | with_reducible refine State.setInt_frame ?_ ?_ ?_ | with_reducible refine State.each_frame ?_ ?_
    | with_reducible refine foldl_frame ?_ ?_ | intro _ | with_reducible refine ite_frame ?_ ?_
    | with_reducible exact hm.mono (by decide) | with_reducible exact hm.bit (by decide)
    | ((with_reducible refine page_bit (B := ?_) (n := ?_) (k := ?_) hm ?_ ?_ ?_); (on_goal 4 => rfl); all_goals decide)
    | with_reducible exact corePage_bit hm (by decide) (by decide) (by decide) | with_reducible exact rowMaxF_bit hm (by decide)
    | with_reducible exact opsF_bit hm (by decide) | with_reducible exact rowTotalF_bit hm (by decide)
    | with_reducible exact wornF_bit hm (by decide) | simp only [or_true, true_and, and_true] | with_reducible refine And.intro ?_ ?_
    | with_reducible exact .inl (hm.bit (by decide)) | split | dsimp only | with_reducible refine State.frame_mk ?_ ?_

theorem State.journal_frame {anc : State} {M : Nat} {s : State} {e : Nat} {bank : Nat} (hm : Sub 0x80000000000000000000000080000 M) (hk : anc.Within M s) : anc.Within M (State.journal s e bank) := by
  unfold State.journal
  repeat' first
    | with_reducible assumption | with_reducible refine State.wf_frame ?_ ?_ | with_reducible exact hm.mono (by decide)
    | with_reducible exact hm.bit (by decide) | with_reducible exact jseqF_bit hm (by decide)
    | simp only [or_true, true_and, and_true] | with_reducible refine And.intro ?_ ?_
    | with_reducible exact .inl (hm.bit (by decide)) | dsimp only | with_reducible refine State.frame_mk ?_ ?_

theorem State.putFields_frame {anc : State} {M : Nat} {t : State} {e : Nat} {fs : List Field} {ws : List Nat}
    (h : ∀ f ∈ fs, M.testBit f.area = true) (hk : anc.Within M t) :
    anc.Within M ((fs.zip ws).foldl (fun (u : State) y => u.wf y.1 e y.2) t) := by
  induction fs generalizing ws t with
  | nil => exact hk
  | cons f fs ih =>
    cases ws with
    | nil => exact hk
    | cons w ws =>
      simp only [List.zip_cons_cons, List.foldl_cons]
      exact ih (fun g hg => h g (List.mem_cons_of_mem _ hg)) (State.wf_frame (h f List.mem_cons_self) hk)

theorem State.loadEntry_frame {anc : State} {M : Nat} {s : State} {e bank : Nat} (hm : Sub 0xc0000 M) (hk : anc.Within M s) :
    anc.Within M (State.loadEntry s e bank) := by
  have h1 : ∀ f ∈ (entryFields bank).1, M.testBit f.area = true := by
    intro f hf
    simp only [entryFields, List.mem_cons, List.not_mem_nil, or_false] at hf
    rcases hf with rfl | rfl | rfl | rfl
    · exact bankStateF_bit hm (by decide)
    · exact jsrcF_bit hm (by decide)
    · exact jfmtF_bit hm (by decide)
    · exact jcrcF_bit hm (by decide)
  have h2 : ∀ f ∈ (entryFields bank).2, M.testBit f.area = true := by
    intro f hf
    simp only [entryFields, List.mem_cons, List.not_mem_nil, or_false] at hf
    rcases hf with rfl | rfl | rfl | rfl | rfl
    · exact spanBaseF_bit hm (by decide)
    · exact zeroBaseF_bit hm (by decide)
    · exact rowMaxF_bit hm (by decide)
    · exact opsF_bit hm (by decide)
    · exact rowTotalF_bit hm (by decide)
  unfold State.loadEntry
  dsimp only
  exact State.wf_frame (wornF_bit hm (by decide)) (State.wf_frame (jseqF_bit hm (by decide))
    (State.putFields_frame h2 (State.putFields_frame h1 hk)))

theorem State.activationEnd_frame {anc : State} {M : Nat} {s : State} {v : Nat} {st : Nat} (hm : Sub 0x800040040101800000100000000080000 M) (hk : anc.Within M s) : anc.Within M (State.activationEnd s v st) := by
  unfold State.activationEnd
  repeat' first
    | with_reducible assumption | with_reducible refine State.setVState_frame ?_ ?_ | with_reducible refine State.setProg_frame ?_ ?_
    | with_reducible refine State.finalRec_frame ?_ ?_ | with_reducible refine State.setVar_frame ?_ ?_
    | with_reducible refine foldl_frame ?_ ?_ | intro _ | with_reducible refine ite_frame ?_ ?_
    | with_reducible exact hm.mono (by decide) | with_reducible exact hm.bit (by decide) | simp only [or_true, true_and, and_true]
    | with_reducible refine And.intro ?_ ?_ | with_reducible exact .inl (hm.bit (by decide)) | split | dsimp only
    | with_reducible refine State.frame_mk ?_ ?_

theorem State.activationStop_frame {anc : State} {M : Nat} {s : State} {v : Nat} {e : Nat} {result : Nat} (hm : Sub 0x800040040107800000100000000080002 M) (hk : anc.Within M s) : anc.Within M (State.activationStop s v e result) := by
  unfold State.activationStop
  repeat' first
    | with_reducible assumption | with_reducible refine State.activationEnd_frame ?_ ?_
    | with_reducible refine State.unitEv_frame ?_ ?_ | with_reducible refine ite_frame ?_ ?_
    | with_reducible exact hm.mono (by decide) | split | dsimp only

theorem State.progEnd_frame {anc : State} {M : Nat} {s : State} {e : Nat} {op : ProgOp} {result : Nat} {bankSt : Nat} {int : Option Nat} (hm : Sub 0xe80000018000000000000000c0000 M) (hk : anc.Within M s) : anc.Within M (State.progEnd s e op result bankSt int) := by
  unfold State.progEnd
  repeat' first
    | with_reducible assumption | with_reducible refine State.journal_frame ?_ ?_
    | with_reducible refine State.setBankState_frame ?_ ?_ | with_reducible refine State.ledger_frame ?_ ?_
    | with_reducible refine State.wf_frame ?_ ?_ | with_reducible refine State.setProg_frame ?_ ?_
    | with_reducible refine State.setInt_frame ?_ ?_ ?_ | with_reducible exact hm.mono (by decide)
    | with_reducible exact hm.bit (by decide)
    | ((with_reducible refine page_bit (B := ?_) (n := ?_) (k := ?_) hm ?_ ?_ ?_); (on_goal 4 => rfl); all_goals decide)
    | with_reducible exact corePage_bit hm (by decide) (by decide) (by decide) | split | dsimp only

theorem State.failRecords_frame {anc : State} {M : Nat} {s : State} {e : Nat} {op : ProgOp} (hm : Sub 0x7800000000000000080002 M) (hk : anc.Within M s) : anc.Within M (State.failRecords s e op) := by
  unfold State.failRecords
  repeat' first
    | with_reducible assumption | with_reducible refine State.logEv_frame ?_ ?_ | with_reducible refine State.each_frame ?_ ?_
    | with_reducible refine foldl_frame ?_ ?_ | intro _ | with_reducible refine ite_frame ?_ ?_
    | with_reducible exact hm.mono (by decide) | split | dsimp only

theorem State.progDone_frame {anc : State} {M : Nat} {s : State} {e : Nat} {op : ProgOp} {vs : List Int} (hm : Sub 0xe80000018000000000000000c0000 M) (hk : anc.Within M s) : anc.Within M (State.progDone s e op vs) := by
  unfold State.progDone
  repeat' first
    | with_reducible assumption | with_reducible refine State.setPilot_frame ?_ ?_ | with_reducible refine State.wf_frame ?_ ?_
    | with_reducible refine State.progEnd_frame ?_ ?_ | with_reducible refine State.retrack_frame ?_ ?_
    | with_reducible refine foldl_frame ?_ ?_ | intro _ | with_reducible refine ite_frame ?_ ?_
    | with_reducible exact hm.mono (by decide) | with_reducible exact hm.bit (by decide)
    | with_reducible exact retrimF_bit hm (by decide) | with_reducible exact driftHardF_bit hm (by decide)
    | with_reducible exact gainF_bit hm (by decide) | with_reducible exact offsetF_bit hm (by decide)
    | with_reducible exact spanBaseF_bit hm (by decide) | with_reducible exact zeroBaseF_bit hm (by decide)
    | with_reducible exact epochBankF_bit hm (by decide) | split | dsimp only

theorem State.progFail_frame {anc : State} {M : Nat} {s : State} {e : Nat} {op : ProgOp} (hm : Sub 0x88000e80401078000001000001000c0002 M) (hk : anc.Within M s) : anc.Within M (State.progFail s e op) := by
  unfold State.progFail
  repeat' first
    | with_reducible assumption | with_reducible refine State.progEnd_frame ?_ ?_ | with_reducible refine State.wf_frame ?_ ?_
    | with_reducible refine State.suspect_frame ?_ ?_ | with_reducible refine State.failRecords_frame ?_ ?_
    | with_reducible refine State.activationStop_frame ?_ ?_ | with_reducible refine State.oasisStart_frame ?_ ?_
    | refine State.oasisStart_frame_eq ?_ (by with_reducible assumption) ?_ | with_reducible refine ite_frame ?_ ?_
    | with_reducible exact hm.mono (by decide) | with_reducible exact hm.bit (by decide) | split | dsimp only

theorem State.progAborted_frame {anc : State} {M : Nat} {s : State} {e : Nat} {op : ProgOp} (hm : Sub 0xe80000018000000000000000c0000 M) (hk : anc.Within M s) : anc.Within M (State.progAborted s e op) := by
  unfold State.progAborted
  repeat' first
    | with_reducible assumption | with_reducible refine State.progEnd_frame ?_ ?_ | with_reducible exact hm.mono (by decide)
    | dsimp only

theorem State.progAbort_frame {anc : State} {M : Nat} {s : State} {e : Nat} (hm : Sub 0xe80000018000000000000000c0000 M) (hk : anc.Within M s) : anc.Within M (State.progAbort s e) := by
  unfold State.progAbort
  repeat' first
    | with_reducible assumption | with_reducible refine State.wf_frame ?_ ?_ | with_reducible refine State.setProg_frame ?_ ?_
    | with_reducible refine State.progAborted_frame ?_ ?_ | with_reducible refine ite_frame ?_ ?_
    | with_reducible exact hm.mono (by decide) | with_reducible exact hm.bit (by decide) | split | dsimp only

theorem State.dequeue_frame {anc : State} {M : Nat} {s : State} {e : Nat} (hm : Sub 0x8000c80401078000001000000000c0002 M) (hk : anc.Within M s) : anc.Within M (State.dequeue s e) := by
  unfold State.dequeue
  repeat' first
    | with_reducible assumption | with_reducible refine State.wf_frame ?_ ?_ | with_reducible refine State.setProg_frame ?_ ?_
    | with_reducible refine State.setInt_frame ?_ ?_ ?_ | with_reducible refine State.capture_frame ?_ ?_ ?_
    | with_reducible refine State.activationStop_frame ?_ ?_ | with_reducible refine State.journal_frame ?_ ?_
    | with_reducible refine State.setBankState_frame ?_ ?_ | with_reducible refine ite_frame ?_ ?_
    | with_reducible exact hm.mono (by decide) | with_reducible exact hm.bit (by decide)
    | ((with_reducible refine page_bit (B := ?_) (n := ?_) (k := ?_) hm ?_ ?_ ?_); (on_goal 4 => rfl); all_goals decide)
    | with_reducible exact corePage_bit hm (by decide) (by decide) (by decide) | with_reducible exact jsrcF_bit hm (by decide)
    | with_reducible exact jcrcF_bit hm (by decide) | with_reducible exact jfmtF_bit hm (by decide) | split | dsimp only

theorem State.nextPulse_frame {anc : State} {M : Nat} {s : State} {e : Nat} {o : ProgOp} {x3 : Nat} (hm : Sub 0xc0000000000000000000000080000 M) (hk : anc.Within M s) : anc.Within M (State.nextPulse s e o x3) := by
  induction x3 generalizing s o with
  | zero =>
  simp only [State.nextPulse]
  try repeat' first
    | with_reducible assumption | with_reducible refine State.setProg_frame ?_ ?_ | with_reducible refine State.wf_frame ?_ ?_
    | with_reducible refine State.journal_frame ?_ ?_ | with_reducible refine State.each_frame ?_ ?_
    | with_reducible refine foldl_frame ?_ ?_ | with_reducible refine foldl_frame_pair ?_ ?_
    | with_reducible refine foldl_frame_triple ?_ ?_ | with_reducible refine State.when_frame ?_ ?_ | intro _
    | with_reducible refine ite_frame ?_ ?_ | with_reducible exact hm.mono (by decide) | with_reducible exact hm.bit (by decide)
    | simp only [or_true, true_and, and_true] | with_reducible refine And.intro ?_ ?_
    | with_reducible exact .inl (hm.bit (by decide)) | split | dsimp only | with_reducible refine State.frame_mk ?_ ?_
  | succ n ih =>
  simp only [State.nextPulse]
  repeat' first
    | with_reducible assumption | with_reducible apply ih | with_reducible refine State.setProg_frame ?_ ?_ | with_reducible refine State.wf_frame ?_ ?_
    | with_reducible refine State.journal_frame ?_ ?_ | with_reducible refine State.each_frame ?_ ?_
    | with_reducible refine foldl_frame ?_ ?_ | with_reducible refine foldl_frame_pair ?_ ?_
    | with_reducible refine foldl_frame_triple ?_ ?_ | with_reducible refine State.when_frame ?_ ?_ | intro _
    | with_reducible refine ite_frame ?_ ?_ | with_reducible exact hm.mono (by decide) | with_reducible exact hm.bit (by decide)
    | simp only [or_true, true_and, and_true] | with_reducible refine And.intro ?_ ?_
    | with_reducible exact .inl (hm.bit (by decide)) | split | dsimp only | with_reducible refine State.frame_mk ?_ ?_

theorem State.rowPulseEnd_frame {anc : State} {M : Nat} {s : State} {e : Nat} (hm : Sub 0xf80000018000000000000000c0000 M) (hk : anc.Within M s) : anc.Within M (State.rowPulseEnd s e) := by
  unfold State.rowPulseEnd
  repeat' first
    | with_reducible assumption | with_reducible refine State.wf_frame ?_ ?_ | with_reducible refine State.progAborted_frame ?_ ?_
    | with_reducible refine State.nextPulse_frame ?_ ?_ | with_reducible refine ite_frame ?_ ?_
    | with_reducible exact hm.mono (by decide) | with_reducible exact hm.bit (by decide) | simp only [or_true, true_and, and_true]
    | with_reducible refine And.intro ?_ ?_ | with_reducible exact .inl (hm.bit (by decide)) | split | dsimp only
    | with_reducible refine State.frame_mk ?_ ?_

theorem State.judgeProg_frame {anc : State} {M : Nat} {s : State} {e : Nat} {noise : List Int} (hm : Sub 0x88000e80401078000001000001000c0002 M) (hk : anc.Within M s) : anc.Within M (State.judgeProg s e noise) := by
  unfold State.judgeProg
  repeat' first
    | with_reducible assumption | with_reducible refine State.progDone_frame ?_ ?_ | with_reducible refine State.progFail_frame ?_ ?_
    | with_reducible refine ite_frame ?_ ?_ | with_reducible exact hm.mono (by decide) | split | dsimp only

theorem State.verifyStep_frame {anc : State} {M : Nat} {s : State} {e : Nat} {devs : List Int} {noise : List Int} (hm : Sub 0x88000e80401078000001000001000c0002 M) (hk : anc.Within M s) : anc.Within M (State.verifyStep s e devs noise) := by
  unfold State.verifyStep
  repeat' first
    | with_reducible assumption | with_reducible refine State.setProg_frame ?_ ?_ | with_reducible refine State.judgeProg_frame ?_ ?_
    | with_reducible refine State.nextPulse_frame ?_ ?_ | with_reducible refine State.wf_frame ?_ ?_
    | with_reducible refine State.journal_frame ?_ ?_ | with_reducible refine State.when_frame ?_ ?_ | intro _
    | with_reducible refine ite_frame ?_ ?_ | with_reducible exact hm.mono (by decide) | with_reducible exact hm.bit (by decide)
    | split | dsimp only

theorem State.verifyDeadline_frame {anc : State} {M : Nat} {s : State} {e : Nat} (hm : Sub 0x40000000000000000000000080000 M) (hk : anc.Within M s) : anc.Within M (State.verifyDeadline s e) := by
  unfold State.verifyDeadline
  repeat' first
    | with_reducible assumption | with_reducible refine State.inc_frame ?_ ?_ | with_reducible refine State.setProg_frame ?_ ?_
    | with_reducible refine ite_frame ?_ ?_ | with_reducible exact hm.mono (by decide) | with_reducible exact hm.bit (by decide)
    | ((with_reducible refine page_bit (B := ?_) (n := ?_) (k := ?_) hm ?_ ?_ ?_); (on_goal 4 => rfl); all_goals decide)
    | with_reducible exact corePage_bit hm (by decide) (by decide) (by decide) | split | dsimp only

theorem State.startOwed_frame {anc : State} {M : Nat} {s : State} {e : Nat} {o : ProgOp} (hm : Sub 0x800040040107800000100000100080002 M) (hk : anc.Within M s) : anc.Within M (State.startOwed s e o) := by
  unfold State.startOwed
  repeat' first
    | with_reducible assumption | with_reducible refine State.loadImage_frame ?_ ?_
    | refine State.loadImage_frame_eq ?_ (by with_reducible assumption) ?_ | with_reducible refine State.oasisStart_frame ?_ ?_
    | refine State.oasisStart_frame_eq ?_ (by with_reducible assumption) ?_ | with_reducible refine State.unitEv_frame ?_ ?_
    | with_reducible refine State.setInt_frame ?_ ?_ ?_ | with_reducible refine State.wf_frame ?_ ?_
    | with_reducible refine State.activationStop_frame ?_ ?_ | with_reducible refine ite_frame ?_ ?_
    | with_reducible exact hm.mono (by decide) | with_reducible exact hm.bit (by decide)
    | ((with_reducible refine page_bit (B := ?_) (n := ?_) (k := ?_) hm ?_ ?_ ?_); (on_goal 4 => rfl); all_goals decide)
    | with_reducible exact corePage_bit hm (by decide) (by decide) (by decide) | split | dsimp only

theorem State.tryOwed_frame {anc : State} {M : Nat} {s : State} {e : Nat} (hm : Sub 0x800040040107800000100000100080002 M) (hk : anc.Within M s) : anc.Within M (State.tryOwed s e) := by
  unfold State.tryOwed
  repeat' first
    | with_reducible assumption | with_reducible refine State.startOwed_frame ?_ ?_ | with_reducible refine State.setProg_frame ?_ ?_
    | with_reducible refine ite_frame ?_ ?_ | with_reducible exact hm.mono (by decide) | split | dsimp only

theorem State.oweRetrims_frame {anc : State} {M : Nat} {s : State} {e : Nat} {before : State} (hm : Sub 0x8000400401078000001000001000c0002 M) (hk : anc.Within M s) : anc.Within M (State.oweRetrims s e before) := by
  unfold State.oweRetrims
  repeat' first
    | with_reducible assumption | with_reducible refine State.tryOwed_frame ?_ ?_ | with_reducible refine State.setProg_frame ?_ ?_
    | with_reducible refine State.each_frame ?_ ?_ | intro _ | with_reducible refine ite_frame ?_ ?_
    | with_reducible exact hm.mono (by decide) | with_reducible exact retrimF_bit hm (by decide)
    | with_reducible exact driftHardF_bit hm (by decide) | split | dsimp only

theorem State.wornOut_frame {anc : State} {M : Nat} {s : State} {e : Nat} {before : State} (hm : Sub 0x8000000000000000000000000000000000 M) (hk : anc.Within M s) : anc.Within M (State.wornOut s e before) := by
  unfold State.wornOut
  repeat' first
    | with_reducible assumption | with_reducible refine State.suspect_frame ?_ ?_ | with_reducible refine State.each_frame ?_ ?_
    | with_reducible refine State.when_frame ?_ ?_ | intro _ | with_reducible exact hm.mono (by decide) | dsimp only

theorem State.progInterrupt_frame {anc : State} {M : Nat} {s : State} {e : Nat} (hm : Sub 0xe80000018000000000000000c0000 M) (hk : anc.Within M s) : anc.Within M (State.progInterrupt s e) := by
  unfold State.progInterrupt
  repeat' first
    | with_reducible assumption | with_reducible refine State.progEnd_frame ?_ ?_ | with_reducible refine State.setProg_frame ?_ ?_
    | with_reducible refine ite_frame ?_ ?_ | with_reducible exact hm.mono (by decide) | split | dsimp only

theorem State.localFlip_frame {anc : State} {M : Nat} {s : State} {e : Nat} (hm : Sub 0x80000000000000000000000c0000 M) (hk : anc.Within M s) : anc.Within M (State.localFlip s e) := by
  unfold State.localFlip
  repeat' first
    | with_reducible assumption | with_reducible refine State.retrack_frame ?_ ?_ | with_reducible refine State.wf_frame ?_ ?_
    | with_reducible refine State.each_frame ?_ ?_ | intro _ | with_reducible refine ite_frame ?_ ?_
    | with_reducible exact hm.mono (by decide) | with_reducible exact hm.bit (by decide)
    | with_reducible exact retrimF_bit hm (by decide) | with_reducible exact driftHardF_bit hm (by decide)
    | with_reducible exact epochBankF_bit hm (by decide) | with_reducible exact jsrcF_bit hm (by decide)
    | with_reducible exact jcrcF_bit hm (by decide) | split | dsimp only

theorem execPilotSweepDue_frame {anc : State} {M : Nat} {e : Nat} {b : Nat} {s : State} (hm : Sub 0x8000000000000000000000000000 M) (hk : anc.Within M s) : ∃ out, execPilotSweepDue e b s = .next out ∧ anc.Within M out := by
  unfold execPilotSweepDue
  refine ⟨_, rfl, ?_⟩
  repeat' first
    | with_reducible assumption | with_reducible refine State.sweepDue_frame ?_ ?_ | with_reducible exact hm.mono (by decide)
    | dsimp only

theorem execPilotSubStep_frame {anc : State} {M : Nat} {e : Nat} {b : Nat} {noise : List Int} {s : State} (hm : Sub 0x88000480401078000001000001000c0002 M) (hk : anc.Within M s) : ∃ out, execPilotSubStep e b noise s = .next out ∧ anc.Within M out := by
  unfold execPilotSubStep
  refine ⟨_, rfl, ?_⟩
  repeat' first
    | with_reducible assumption | with_reducible refine State.wornOut_frame ?_ ?_
    | with_reducible refine State.oweRetrims_frame ?_ ?_ | with_reducible refine State.pilotStep_frame ?_ ?_
    | with_reducible exact hm.mono (by decide) | dsimp only

theorem execForcedSweep_frame {anc : State} {M : Nat} {e : Nat} {b : Nat} {noise : List (List Int)} {s : State} (hm : Sub 0x88000480401078000001000001000c0002 M) (hk : anc.Within M s) : ∃ out, execForcedSweep e b noise s = .next out ∧ anc.Within M out := by
  unfold execForcedSweep
  refine ⟨_, rfl, ?_⟩
  repeat' first
    | with_reducible assumption | with_reducible refine State.wornOut_frame ?_ ?_
    | with_reducible refine State.oweRetrims_frame ?_ ?_ | with_reducible refine State.forcedSweep_frame ?_ ?_
    | with_reducible exact hm.mono (by decide) | dsimp only

theorem execPilotStale_frame {anc : State} {M : Nat} {e : Nat} {s : State} (hm : Sub 0x40000 M) (hk : anc.Within M s) : ∃ out, execPilotStale e s = .next out ∧ anc.Within M out := by
  unfold execPilotStale
  refine ⟨_, rfl, ?_⟩
  repeat' first
    | with_reducible assumption | with_reducible refine State.pilotStale_frame ?_ ?_ | with_reducible exact hm.mono (by decide)
    | dsimp only

theorem execProgDequeue_frame {anc : State} {M : Nat} {s : State} (hm : Sub 0x8000c80401078000001000000000c0002 M) (hk : anc.Within M s) : ∃ out, execProgDequeue s = .next out ∧ anc.Within M out := by
  unfold execProgDequeue
  refine ⟨_, rfl, ?_⟩
  repeat' first
    | with_reducible assumption | with_reducible refine State.dequeue_frame ?_ ?_ | with_reducible exact hm.mono (by decide) | split
    | dsimp only

theorem execDeferExpiry_frame {anc : State} {M : Nat} {e : Nat} {s : State} (hm : Sub 0x40000000000000000000000080000 M) (hk : anc.Within M s) : ∃ out, execDeferExpiry e s = .next out ∧ anc.Within M out := by
  unfold execDeferExpiry
  refine ⟨_, rfl, ?_⟩
  repeat' first
    | with_reducible assumption | with_reducible refine State.wf_frame ?_ ?_ | with_reducible refine State.setProg_frame ?_ ?_
    | with_reducible refine ite_frame ?_ ?_ | with_reducible exact hm.mono (by decide) | with_reducible exact hm.bit (by decide)
    | split | dsimp only

theorem execRowPulseEnd_frame {anc : State} {M : Nat} {e : Nat} {s : State} (hm : Sub 0x88000f80401078000001000001000c0002 M) (hk : anc.Within M s) : ∃ out, execRowPulseEnd e s = .next out ∧ anc.Within M out := by
  unfold execRowPulseEnd
  refine ⟨_, rfl, ?_⟩
  repeat' first
    | with_reducible assumption | with_reducible refine State.wornOut_frame ?_ ?_ | with_reducible refine State.tryOwed_frame ?_ ?_
    | with_reducible refine State.rowPulseEnd_frame ?_ ?_ | with_reducible exact hm.mono (by decide) | dsimp only

theorem execVerifyDeadline_frame {anc : State} {M : Nat} {e : Nat} {s : State} (hm : Sub 0x40000000000000000000000080000 M) (hk : anc.Within M s) : ∃ out, execVerifyDeadline e s = .next out ∧ anc.Within M out := by
  unfold execVerifyDeadline
  refine ⟨_, rfl, ?_⟩
  repeat' first
    | with_reducible assumption | with_reducible refine State.verifyDeadline_frame ?_ ?_ | with_reducible exact hm.mono (by decide)
    | dsimp only

theorem execElapsedTick_frame {anc : State} {M : Nat} {s : State} (hm : Sub 0x100000000000000000000000000000 M) (hk : anc.Within M s) : ∃ out, execElapsedTick s = .next out ∧ anc.Within M out := by
  unfold execElapsedTick
  refine ⟨_, rfl, ?_⟩
  repeat' first
    | with_reducible assumption | with_reducible exact hm.mono (by decide) | with_reducible exact hm.bit (by decide)
    | simp only [or_true, true_and, and_true] | with_reducible refine And.intro ?_ ?_
    | with_reducible exact .inl (hm.bit (by decide)) | dsimp only | with_reducible refine State.frame_mk ?_ ?_

theorem execElapsedCommit_frame {anc : State} {M : Nat} {s : State} (hm : Sub 0x200000000000000000000000000000 M) (hk : anc.Within M s) : ∃ out, execElapsedCommit s = .next out ∧ anc.Within M out := by
  unfold execElapsedCommit
  refine ⟨_, rfl, ?_⟩
  repeat' first
    | with_reducible assumption | with_reducible exact hm.mono (by decide) | with_reducible exact hm.bit (by decide)
    | simp only [or_true, true_and, and_true] | with_reducible refine And.intro ?_ ?_
    | with_reducible exact .inl (hm.bit (by decide)) | dsimp only | with_reducible refine State.frame_mk ?_ ?_

end Sys2Proof.Machine
end

