-- ==== Sys2Proof/Laws/Frame/MCore.lean ====
section
/-! SUPPORT. Every operation and meaning of Machine/MCore.lean changes only the register areas and parts of the state its mask names. -/

namespace Sys2Proof.Machine

set_option linter.unreachableTactic false
set_option linter.unusedTactic false

theorem State.mirrorMc_frame {anc : State} {M : Nat} {s : State} {ck : Nat} (hm : Sub 0x30000 M) (hk : anc.Within M s) : anc.Within M (State.mirrorMc s ck) := by
  unfold State.mirrorMc
  repeat' first
    | with_reducible assumption | with_reducible refine State.wf_frame ?_ ?_ | with_reducible refine State.each_frame ?_ ?_ | intro _
    | with_reducible exact hm.mono (by decide) | with_reducible exact hm.bit (by decide) | dsimp only

theorem State.setMc_frame {anc : State} {M : Nat} {s : State} {ck : Nat} {m : McSt} (hm : Sub 0x400000000000000000000000030000 M) (hk : anc.Within M s) : anc.Within M (State.setMc s ck m) := by
  unfold State.setMc
  repeat' first
    | with_reducible assumption | with_reducible refine State.mirrorMc_frame ?_ ?_ | with_reducible exact hm.mono (by decide)
    | with_reducible exact hm.bit (by decide) | simp only [or_true, true_and, and_true] | with_reducible refine And.intro ?_ ?_
    | with_reducible exact .inl (hm.bit (by decide)) | dsimp only | with_reducible refine State.frame_mk ?_ ?_

theorem State.setStep_frame {anc : State} {M : Nat} {s : State} {ck : Nat} {id : Nat} {f : Step → Step} (hm : Sub 0x400000000000000000000000030000 M) (hk : anc.Within M s) : anc.Within M (State.setStep s ck id f) := by
  unfold State.setStep
  repeat' first
    | with_reducible assumption | with_reducible refine State.setMc_frame ?_ ?_ | with_reducible refine ite_frame ?_ ?_
    | with_reducible exact hm.mono (by decide) | split | dsimp only

theorem State.retireStep_frame {anc : State} {M : Nat} {s : State} {ck : Nat} {id : Nat} (hm : Sub 0x4400000000000000000000000030000 M) (hk : anc.Within M s) : anc.Within M (State.retireStep s ck id) := by
  unfold State.retireStep
  repeat' first
    | with_reducible assumption | with_reducible refine State.unreserve_frame ?_ ?_ | with_reducible refine State.setMc_frame ?_ ?_
    | with_reducible refine ite_frame ?_ ?_ | with_reducible exact hm.mono (by decide) | split | dsimp only

theorem State.beginCheck_frame {anc : State} {M : Nat} {s : State} {ck : Nat} {n : Nat} {ep : Nat} {x : Step} (hm : Sub 0xe0004080000078000000030000000f0002 M) (hk : anc.Within M s) : anc.Within M (State.beginCheck s ck n ep x) := by
  unfold State.beginCheck
  repeat' first
    | with_reducible assumption | with_reducible refine State.setStep_frame ?_ ?_ | with_reducible refine State.inc_frame ?_ ?_
    | with_reducible refine State.setInt_frame ?_ ?_ ?_ | with_reducible refine State.beginTile_frame ?_ ?_
    | with_reducible refine State.mesh_frame ?_ ?_ | with_reducible refine State.when_frame ?_ ?_ | intro _
    | with_reducible refine ite_frame ?_ ?_ | with_reducible exact hm.mono (by decide) | with_reducible exact hm.bit (by decide)
    | ((with_reducible refine page_bit (B := ?_) (n := ?_) (k := ?_) hm ?_ ?_ ?_); (on_goal 4 => rfl); all_goals decide)
    | with_reducible exact corePage_bit hm (by decide) (by decide) (by decide) | with_reducible exact jcrcF_bit hm (by decide)
    | split | dsimp only

theorem State.tileFailed_frame {anc : State} {M : Nat} {s : State} {ck : Nat} (hm : Sub 0x1800000000000000010000 M) (hk : anc.Within M s) : anc.Within M (State.tileFailed s ck) := by
  unfold State.tileFailed
  repeat' first
    | with_reducible assumption | with_reducible refine State.setInt_frame ?_ ?_ ?_ | with_reducible refine State.inc_frame ?_ ?_
    | with_reducible exact hm.mono (by decide) | with_reducible exact hm.bit (by decide)
    | ((with_reducible refine page_bit (B := ?_) (n := ?_) (k := ?_) hm ?_ ?_ ?_); (on_goal 4 => rfl); all_goals decide)
    | with_reducible exact corePage_bit hm (by decide) (by decide) (by decide) | dsimp only

theorem State.startTile_frame {anc : State} {M : Nat} {s : State} {ck : Nat} {x : Step} {n : Nat} {ep : Nat} (hm : Sub 0x8000007800000000000000050002 M) (hk : anc.Within M s) : anc.Within M (State.startTile s ck x n ep).2 := by
  unfold State.startTile
  repeat' first
    | with_reducible assumption | with_reducible refine State.blockErr_frame ?_ ?_ ?_
    | with_reducible refine State.tileFailed_frame ?_ ?_ | with_reducible refine State.inc_frame ?_ ?_
    | with_reducible refine State.setInt_frame ?_ ?_ ?_ | with_reducible refine State.beginTile_frame ?_ ?_
    | with_reducible refine State.when_frame ?_ ?_ | intro _ | with_reducible refine ite_frame ?_ ?_
    | with_reducible refine ite_frame2 ?_ ?_ | with_reducible refine ite_frame3 ?_ ?_ | with_reducible exact hm.mono (by decide)
    | with_reducible exact hm.bit (by decide)
    | ((with_reducible refine page_bit (B := ?_) (n := ?_) (k := ?_) hm ?_ ?_ ?_); (on_goal 4 => rfl); all_goals decide)
    | with_reducible exact corePage_bit hm (by decide) (by decide) (by decide) | split | dsimp only

theorem State.startTile_frame_eq {anc : State} {M : Nat} {s : State} {ck : Nat} {x : Step} {n : Nat} {ep : Nat} (hm : Sub 0x8000007800000000000000050002 M) {r0 tz} (heqx : State.startTile s ck x n ep = (r0, tz)) (hk : anc.Within M s) : anc.Within M tz := by
  have := State.startTile_frame (s := s) (ck := ck) (x := x) (n := n) (ep := ep) hm hk
  rwa [heqx] at this

theorem State.rangeViolation_frame {anc : State} {M : Nat} {s : State} {ck : Nat} {x : Step} {seq : Nat} {nf : Bool} (hm : Sub 0xe000400004007800000003000000030002 M) (hk : anc.Within M s) : anc.Within M (State.rangeViolation s ck x seq nf) := by
  unfold State.rangeViolation
  repeat' first
    | with_reducible assumption | with_reducible refine State.wf_frame ?_ ?_ | with_reducible refine State.setInt_frame ?_ ?_ ?_
    | with_reducible refine State.inc_frame ?_ ?_ | with_reducible refine State.notice_frame ?_ ?_
    | with_reducible refine State.setStep_frame ?_ ?_ | with_reducible refine State.setReq_frame ?_ ?_
    | with_reducible refine State.each_frame ?_ ?_ | intro _ | with_reducible exact hm.mono (by decide)
    | with_reducible exact hm.bit (by decide)
    | ((with_reducible refine page_bit (B := ?_) (n := ?_) (k := ?_) hm ?_ ?_ ?_); (on_goal 4 => rfl); all_goals decide)
    | with_reducible exact corePage_bit hm (by decide) (by decide) (by decide) | dsimp only

theorem State.rangeCheck_frame {anc : State} {M : Nat} {s : State} {ck : Nat} {x : Step} {ems : List Emission} (hm : Sub 0xe000400004007800000003000000030002 M) (hk : anc.Within M s) : anc.Within M (State.rangeCheck s ck x ems) := by
  unfold State.rangeCheck
  repeat' first
    | with_reducible assumption | with_reducible refine State.rangeViolation_frame ?_ ?_ | with_reducible refine foldl_frame ?_ ?_
    | intro _ | with_reducible refine ite_frame ?_ ?_ | with_reducible exact hm.mono (by decide) | split | dsimp only

theorem State.poolSave_frame {anc : State} {M : Nat} {s : State} {ck : Nat} {w : List Nat} {slot : Nat} {st : PoolSt} (hm : Sub 0x2006000000000000000000000000000 M) (hk : anc.Within M s) : anc.Within M (State.poolSave s ck w slot st) := by
  unfold State.poolSave
  repeat' first
    | with_reducible assumption | with_reducible refine State.unitsPut_frame ?_ ?_ | with_reducible refine State.each_frame ?_ ?_
    | intro _ | with_reducible exact hm.mono (by decide) | with_reducible exact hm.bit (by decide)
    | simp only [or_true, true_and, and_true] | with_reducible refine And.intro ?_ ?_
    | with_reducible exact .inl (hm.bit (by decide)) | dsimp only | with_reducible refine State.frame_mk ?_ ?_

theorem State.freeStep_frame {anc : State} {M : Nat} {s : State} {ck : Nat} {id : Nat} (hm : Sub 0xe008400000007800000003000000030002 M) (hk : anc.Within M s) : anc.Within M (State.freeStep s ck id) := by
  unfold State.freeStep
  repeat' first
    | with_reducible assumption | with_reducible refine State.setStep_frame ?_ ?_ | with_reducible refine State.freeSet_frame ?_ ?_
    | with_reducible refine ite_frame ?_ ?_ | with_reducible exact hm.mono (by decide) | split | dsimp only

theorem State.settle_frame {anc : State} {M : Nat} {s : State} {ck : Nat} {id : Nat} {vals : List Nat} {hollow : Bool} {pool : optParam Bool true} (hm : Sub 0xe00e406004007800000003000000030002 M) (hk : anc.Within M s) : anc.Within M (State.settle s ck id vals hollow pool) := by
  unfold State.settle
  repeat' first
    | with_reducible assumption | with_reducible refine State.poolSave_frame ?_ ?_ | with_reducible refine State.freeStep_frame ?_ ?_
    | with_reducible refine State.rangeCheck_frame ?_ ?_ | with_reducible refine State.retireStep_frame ?_ ?_
    | with_reducible refine State.setStep_frame ?_ ?_ | with_reducible refine ite_frame ?_ ?_
    | with_reducible exact hm.mono (by decide) | split | dsimp only

theorem State.checkStep_frame {anc : State} {M : Nat} {s : State} {ck : Nat} {id : Nat} (hm : Sub 0xe00e406004007800000003000000030002 M) (hk : anc.Within M s) : anc.Within M (State.checkStep s ck id) := by
  unfold State.checkStep
  repeat' first
    | with_reducible assumption | with_reducible refine State.freeStep_frame ?_ ?_ | with_reducible refine State.settle_frame ?_ ?_
    | with_reducible refine ite_frame ?_ ?_ | with_reducible exact hm.mono (by decide) | split | dsimp only

theorem State.setStepEng_frame {anc : State} {M : Nat} {s : State} {ck : Nat} {id : Nat} {n : Nat} {st : Nat} {vals : List Int} (hm : Sub 0x400000000000000000000000030000 M) (hk : anc.Within M s) : anc.Within M (State.setStepEng s ck id n st vals) := by
  unfold State.setStepEng
  repeat' first
    | with_reducible assumption | with_reducible refine State.setStep_frame ?_ ?_ | with_reducible refine ite_frame ?_ ?_
    | with_reducible exact hm.mono (by decide) | split | dsimp only

theorem State.tileDone_frame {anc : State} {M : Nat} {s : State} {e : Nat} (hm : Sub 0xe00e40e004007800000003000000070002 M) (hk : anc.Within M s) : anc.Within M (State.tileDone s e) := by
  unfold State.tileDone
  repeat' first
    | with_reducible assumption | with_reducible refine State.endTile_frame ?_ ?_
    | refine State.endTile_frame_eq ?_ (by with_reducible assumption) ?_ | with_reducible refine State.beginTile_frame ?_ ?_
    | with_reducible refine State.setStep_frame ?_ ?_ | with_reducible refine State.checkStep_frame ?_ ?_
    | with_reducible refine State.setStepEng_frame ?_ ?_ | with_reducible refine ite_frame ?_ ?_
    | with_reducible exact hm.mono (by decide) | split | dsimp only

theorem State.drainTiles_frame {anc : State} {M : Nat} {s : State} {ck : Nat} (hm : Sub 0xe00e40e004007800000003000000070002 M) (hk : anc.Within M s) : anc.Within M (State.drainTiles s ck) := by
  unfold State.drainTiles
  repeat' first
    | with_reducible assumption | with_reducible refine State.tileDone_frame ?_ ?_ | with_reducible refine State.each_frame ?_ ?_
    | intro _ | with_reducible refine ite_frame ?_ ?_ | with_reducible exact hm.mono (by decide) | split | dsimp only

theorem State.holdTile_frame {anc : State} {M : Nat} {s : State} {ck : Nat} {id : Nat} {n : Nat} (hm : Sub 0x400000000000000000000000030000 M) (hk : anc.Within M s) : anc.Within M (State.holdTile s ck id n) := by
  unfold State.holdTile
  repeat' first
    | with_reducible assumption | with_reducible refine State.setStep_frame ?_ ?_ | with_reducible refine ite_frame ?_ ?_
    | with_reducible exact hm.mono (by decide) | split | dsimp only

theorem State.fire_frame {anc : State} {M : Nat} {s : State} {ck : Nat} {d : Nat} {n : Nat} (hm : Sub 0xe00e40e0040078000000030000000f0002 M) (hk : anc.Within M s) : anc.Within M (State.fire s ck d n) := by
  unfold State.fire
  repeat' first
    | with_reducible assumption | with_reducible refine State.setBuf_frame ?_ ?_
    | with_reducible refine State.blockErr_frame ?_ ?_ ?_ | with_reducible refine State.inc_frame ?_ ?_
    | with_reducible refine State.freeSet_frame ?_ ?_ | with_reducible refine State.wf_frame ?_ ?_
    | with_reducible refine State.reserve_frame ?_ ?_ | with_reducible refine State.setMc_frame ?_ ?_
    | with_reducible refine State.settle_frame ?_ ?_ | with_reducible refine State.tileFailed_frame ?_ ?_
    | with_reducible refine State.setInt_frame ?_ ?_ ?_ | with_reducible refine State.holdTile_frame ?_ ?_
    | with_reducible refine State.startTile_frame ?_ ?_ | refine State.startTile_frame_eq ?_ (by with_reducible assumption) ?_
    | with_reducible refine State.beginCheck_frame ?_ ?_ | with_reducible refine State.setStepEng_frame ?_ ?_
    | with_reducible refine State.checkStep_frame ?_ ?_ | with_reducible refine State.drainTiles_frame ?_ ?_
    | with_reducible refine State.each_frame ?_ ?_ | with_reducible refine State.when_frame ?_ ?_ | intro _
    | with_reducible refine ite_frame ?_ ?_ | with_reducible exact hm.mono (by decide) | with_reducible exact hm.bit (by decide)
    | ((with_reducible refine page_bit (B := ?_) (n := ?_) (k := ?_) hm ?_ ?_ ?_); (on_goal 4 => rfl); all_goals decide)
    | with_reducible exact corePage_bit hm (by decide) (by decide) (by decide) | split | dsimp only

theorem State.creditWatch_frame {anc : State} {M : Nat} {s : State} {ck : Nat} (hm : Sub 0x400000000000000000000000030000 M) (hk : anc.Within M s) : anc.Within M (State.creditWatch s ck) := by
  unfold State.creditWatch
  repeat' first
    | with_reducible assumption | with_reducible refine State.setMc_frame ?_ ?_ | with_reducible refine State.inc_frame ?_ ?_
    | with_reducible refine ite_frame ?_ ?_ | with_reducible exact hm.mono (by decide) | with_reducible exact hm.bit (by decide)
    | ((with_reducible refine page_bit (B := ?_) (n := ?_) (k := ?_) hm ?_ ?_ ?_); (on_goal 4 => rfl); all_goals decide)
    | with_reducible exact corePage_bit hm (by decide) (by decide) (by decide) | split | dsimp only

theorem State.stepFire_frame {anc : State} {M : Nat} {s : State} {ck : Nat} (hm : Sub 0xe00e40e0040078000000030000000f0002 M) (hk : anc.Within M s) : anc.Within M (State.stepFire s ck) := by
  unfold State.stepFire
  repeat' first
    | with_reducible assumption | with_reducible refine State.fire_frame ?_ ?_ | with_reducible refine State.askCredits_frame ?_ ?_
    | with_reducible exact hm.mono (by decide) | split | dsimp only

theorem State.holdCheck_frame {anc : State} {M : Nat} {s : State} {ck : Nat} (hm : Sub 0xe00e40e0040078000000030000000f0002 M) (hk : anc.Within M s) : anc.Within M (State.holdCheck s ck) := by
  unfold State.holdCheck
  repeat' first
    | with_reducible assumption | with_reducible refine State.startTile_frame ?_ ?_
    | refine State.startTile_frame_eq ?_ (by with_reducible assumption) ?_ | with_reducible refine State.setStepEng_frame ?_ ?_
    | with_reducible refine State.checkStep_frame ?_ ?_ | with_reducible refine State.drainTiles_frame ?_ ?_
    | with_reducible refine State.beginCheck_frame ?_ ?_ | with_reducible refine State.each_frame ?_ ?_
    | with_reducible refine State.when_frame ?_ ?_ | intro _ | with_reducible refine ite_frame ?_ ?_
    | with_reducible exact hm.mono (by decide) | split | dsimp only

theorem State.sendStandins_frame {anc : State} {M : Nat} {s : State} {ck : Nat} (hm : Sub 0xe000400000007800000003000000030002 M) (hk : anc.Within M s) : anc.Within M (State.sendStandins s ck) := by
  unfold State.sendStandins
  repeat' first
    | with_reducible assumption | with_reducible refine State.mesh_frame ?_ ?_ | with_reducible refine State.setStepEng_frame ?_ ?_
    | with_reducible refine State.inc_frame ?_ ?_ | with_reducible refine State.setStep_frame ?_ ?_
    | with_reducible refine State.each_frame ?_ ?_ | with_reducible refine State.when_frame ?_ ?_ | intro _
    | with_reducible refine ite_frame ?_ ?_ | with_reducible exact hm.mono (by decide) | with_reducible exact hm.bit (by decide)
    | ((with_reducible refine page_bit (B := ?_) (n := ?_) (k := ?_) hm ?_ ?_ ?_); (on_goal 4 => rfl); all_goals decide)
    | with_reducible exact corePage_bit hm (by decide) (by decide) (by decide) | split | dsimp only

theorem State.holdTimeout_frame {anc : State} {M : Nat} {s : State} {ck : Nat} (hm : Sub 0xe000400000007800000003000000030002 M) (hk : anc.Within M s) : anc.Within M (State.holdTimeout s ck) := by
  unfold State.holdTimeout
  repeat' first
    | with_reducible assumption | with_reducible refine State.setMc_frame ?_ ?_
    | with_reducible refine State.sendStandins_frame ?_ ?_ | with_reducible refine State.setInt_frame ?_ ?_ ?_
    | with_reducible refine ite_frame ?_ ?_ | with_reducible exact hm.mono (by decide) | with_reducible exact hm.bit (by decide)
    | ((with_reducible refine page_bit (B := ?_) (n := ?_) (k := ?_) hm ?_ ?_ ?_); (on_goal 4 => rfl); all_goals decide)
    | with_reducible exact corePage_bit hm (by decide) (by decide) (by decide) | split | dsimp only

theorem State.slowVcoreNamed_frame {anc : State} {M : Nat} {s : State} {ck : Nat} (hm : Sub 0xe000400000007800000003000000030002 M) (hk : anc.Within M s) : anc.Within M (State.slowVcoreNamed s ck) := by
  unfold State.slowVcoreNamed
  repeat' first
    | with_reducible assumption | with_reducible refine State.sendStandins_frame ?_ ?_
    | with_reducible refine State.unitEv_frame ?_ ?_ | with_reducible refine State.wf_frame ?_ ?_
    | with_reducible refine ite_frame ?_ ?_ | with_reducible exact hm.mono (by decide) | with_reducible exact hm.bit (by decide)
    | split | dsimp only

theorem State.standinResult_frame {anc : State} {M : Nat} {s : State} {ck : Nat} {id : Nat} {n : Nat} {ok : Bool} {vals : List Int} (hm : Sub 0xe00e406004007800000003000000030002 M) (hk : anc.Within M s) : anc.Within M (State.standinResult s ck id n ok vals) := by
  unfold State.standinResult
  repeat' first
    | with_reducible assumption | with_reducible refine State.checkStep_frame ?_ ?_
    | with_reducible refine State.setStepEng_frame ?_ ?_ | with_reducible refine State.tileFailed_frame ?_ ?_
    | with_reducible refine ite_frame ?_ ?_ | with_reducible exact hm.mono (by decide) | split | dsimp only

theorem State.handOver_frame {anc : State} {M : Nat} {s : State} {ck : Nat} {x : Step} {em : Emission} (hm : Sub 0xe000402004007800000003000000030002 M) (hk : anc.Within M s) : anc.Within M (State.handOver s ck x em) := by
  unfold State.handOver
  repeat' first
    | with_reducible assumption | with_reducible refine State.setInt_frame ?_ ?_ ?_ | with_reducible refine State.inc_frame ?_ ?_
    | with_reducible refine State.rangeViolation_frame ?_ ?_ | with_reducible refine State.sramWrite_frame ?_ ?_
    | with_reducible refine State.setStep_frame ?_ ?_ | with_reducible refine State.each_frame ?_ ?_
    | with_reducible refine State.when_frame ?_ ?_ | intro _ | with_reducible refine ite_frame ?_ ?_
    | with_reducible exact hm.mono (by decide) | with_reducible exact hm.bit (by decide)
    | ((with_reducible refine page_bit (B := ?_) (n := ?_) (k := ?_) hm ?_ ?_ ?_); (on_goal 4 => rfl); all_goals decide)
    | with_reducible exact corePage_bit hm (by decide) (by decide) (by decide) | split | dsimp only

theorem State.postUnitDone_frame {anc : State} {M : Nat} {s : State} {ck : Nat} (hm : Sub 0xe000402004007800000003000000030002 M) (hk : anc.Within M s) : anc.Within M (State.postUnitDone s ck) := by
  unfold State.postUnitDone
  repeat' first
    | with_reducible assumption | with_reducible refine State.handOver_frame ?_ ?_ | with_reducible exact hm.mono (by decide) | split
    | dsimp only

theorem State.sendStep_frame {anc : State} {M : Nat} {s : State} {ck : Nat} {l : List Step} {t : State} (hm : Sub 0xe004400000007800000003000001030002 M)
    (heqx : State.sendStep s ck l = some t) (hk : anc.Within M s) : anc.Within M t := by
  induction l with
  | nil => simp [State.sendStep] at heqx
  | cons x l ih =>
    simp only [State.sendStep] at heqx
    split at heqx
    · exact ih heqx
    · split at heqx
      · injection heqx with heqx
        subst heqx
        refine State.retireStep_frame (hm.mono (by decide)) (State.setStep_frame (hm.mono (by decide)) ?_)
        exact State.inject_frame_some (hm.mono (by decide)) ‹_› hk
      · exact ih heqx

theorem State.askFirst_frame {anc : State} {M : Nat} {s : State} {ck : Nat} (hm : Sub 0xe004000000007800000003000001010002 M) (hk : anc.Within M s) : anc.Within M (State.askFirst s ck) := by
  unfold State.askFirst
  repeat' first
    | with_reducible assumption | refine State.inject_frame_some ?_ (by with_reducible assumption) ?_
    | with_reducible refine State.inject_frame ?_ ?_ | refine State.inject_frame_eq ?_ (by with_reducible assumption) ?_
    | with_reducible exact hm.mono (by decide) | split | dsimp only

theorem State.pipSendM_frame {anc : State} {M : Nat} {s : State} {ck : Nat} (hm : Sub 0xe004400000007800000003000001030002 M) (hk : anc.Within M s) : anc.Within M (State.pipSendM s ck) := by
  unfold State.pipSendM
  repeat' first
    | with_reducible assumption | refine State.sendStep_frame ?_ (by with_reducible assumption) ?_
    | with_reducible refine State.askFirst_frame ?_ ?_ | with_reducible exact hm.mono (by decide) | split | dsimp only

theorem State.clearSlot_frame {anc : State} {M : Nat} {s : State} {ck : Nat} {slot : Nat} (hm : Sub 0x2002000000000000000000000010000 M) (hk : anc.Within M s) : anc.Within M (State.clearSlot s ck slot) := by
  unfold State.clearSlot
  repeat' first
    | with_reducible assumption | with_reducible refine State.sramWrite_frame ?_ ?_ | with_reducible refine State.each_frame ?_ ?_
    | intro _ | with_reducible refine ite_frame ?_ ?_ | with_reducible exact hm.mono (by decide)
    | with_reducible exact hm.bit (by decide) | simp only [or_true, true_and, and_true] | with_reducible refine And.intro ?_ ?_
    | with_reducible exact .inl (hm.bit (by decide)) | split | dsimp only | with_reducible refine State.frame_mk ?_ ?_

theorem State.mismatch_frame {anc : State} {M : Nat} {s : State} {ck : Nat} {n : Nat} {ch : Nat} {twin : Bool} (hm : Sub 0x8000000000000000000000000000010000 M) (hk : anc.Within M s) : anc.Within M (State.mismatch s ck n ch twin) := by
  unfold State.mismatch
  repeat' first
    | with_reducible assumption | with_reducible refine State.suspect_frame ?_ ?_ | with_reducible refine State.wf_frame ?_ ?_
    | with_reducible refine State.inc_frame ?_ ?_ | with_reducible exact hm.mono (by decide)
    | with_reducible exact hm.bit (by decide)
    | ((with_reducible refine page_bit (B := ?_) (n := ?_) (k := ?_) hm ?_ ?_ ?_); (on_goal 4 => rfl); all_goals decide)
    | with_reducible exact corePage_bit hm (by decide) (by decide) (by decide) | dsimp only

theorem State.checkDone_frame {anc : State} {M : Nat} {s : State} {ck : Nat} {id : Nat} {n : Nat} {ok : Bool} {vals : List Int} (hm : Sub 0xe00e406004007800000003000000030002 M) (hk : anc.Within M s) : anc.Within M (State.checkDone s ck id n ok vals) := by
  unfold State.checkDone
  repeat' first
    | with_reducible assumption | with_reducible refine State.checkStep_frame ?_ ?_ | with_reducible refine State.setStep_frame ?_ ?_
    | with_reducible refine State.inc_frame ?_ ?_ | with_reducible refine State.mesh_frame ?_ ?_
    | with_reducible refine State.setStepEng_frame ?_ ?_ | with_reducible refine State.mismatch_frame ?_ ?_
    | with_reducible refine ite_frame ?_ ?_ | with_reducible exact hm.mono (by decide) | with_reducible exact hm.bit (by decide)
    | ((with_reducible refine page_bit (B := ?_) (n := ?_) (k := ?_) hm ?_ ?_ ?_); (on_goal 4 => rfl); all_goals decide)
    | with_reducible exact corePage_bit hm (by decide) (by decide) (by decide) | split | dsimp only

theorem execVerifySubStep_frame {anc : State} {M : Nat} {e : Nat} {devs : List Int} {noise : List Int} {s : State} (hm : Sub 0xe80e4ee0441078000001030001000f0002 M) (hk : anc.Within M s) : ∃ out, execVerifySubStep e devs noise s = .next out ∧ anc.Within M out := by
  unfold execVerifySubStep
  refine ⟨_, rfl, ?_⟩
  repeat' first
    | with_reducible assumption | with_reducible refine State.holdCheck_frame ?_ ?_ | with_reducible refine State.wornOut_frame ?_ ?_
    | with_reducible refine State.tryOwed_frame ?_ ?_ | with_reducible refine State.verifyStep_frame ?_ ?_
    | with_reducible exact hm.mono (by decide) | dsimp only

theorem execHoldTimeout_frame {anc : State} {M : Nat} {ck : Nat} {s : State} (hm : Sub 0xe000400000007800000003000000030002 M) (hk : anc.Within M s) : ∃ out, execHoldTimeout ck s = .next out ∧ anc.Within M out := by
  unfold execHoldTimeout
  refine ⟨_, rfl, ?_⟩
  repeat' first
    | with_reducible assumption | with_reducible refine State.holdTimeout_frame ?_ ?_ | with_reducible exact hm.mono (by decide)
    | dsimp only

theorem execSlowVcoreNamed_frame {anc : State} {M : Nat} {ck : Nat} {s : State} (hm : Sub 0xe000400000007800000003000000030002 M) (hk : anc.Within M s) : ∃ out, execSlowVcoreNamed ck s = .next out ∧ anc.Within M out := by
  unfold execSlowVcoreNamed
  refine ⟨_, rfl, ?_⟩
  repeat' first
    | with_reducible assumption | with_reducible refine State.slowVcoreNamed_frame ?_ ?_ | with_reducible exact hm.mono (by decide)
    | dsimp only

theorem execLocalFlip_frame {anc : State} {M : Nat} {e : Nat} {s : State} (hm : Sub 0xe80e44e0441078000001030001000f0002 M) (hk : anc.Within M s) : ∃ out, execLocalFlip e s = .next out ∧ anc.Within M out := by
  unfold execLocalFlip
  refine ⟨_, rfl, ?_⟩
  repeat' first
    | with_reducible assumption | with_reducible refine State.holdCheck_frame ?_ ?_ | with_reducible refine State.tryOwed_frame ?_ ?_
    | with_reducible refine State.localFlip_frame ?_ ?_ | with_reducible exact hm.mono (by decide) | dsimp only

theorem execStepFire_frame {anc : State} {M : Nat} {ck : Nat} {s : State} (hm : Sub 0xe00e40e0040078000000030000000f0002 M) (hk : anc.Within M s) : ∃ out, execStepFire ck s = .next out ∧ anc.Within M out := by
  unfold execStepFire
  refine ⟨_, rfl, ?_⟩
  repeat' first
    | with_reducible assumption | with_reducible refine State.creditWatch_frame ?_ ?_
    | with_reducible refine State.stepFire_frame ?_ ?_ | with_reducible exact hm.mono (by decide) | dsimp only

end Sys2Proof.Machine
end

