-- ==== Sys2Proof/Laws/Frame/Vec.lean ====
section
/-! SUPPORT. Every operation and meaning of Machine/Vec.lean changes only the register areas and parts of the state its mask names. -/

namespace Sys2Proof.Machine

set_option linter.unreachableTactic false
set_option linter.unusedTactic false

theorem State.mirrorVc_frame {anc : State} {M : Nat} {s : State} {v : Nat} (hm : Sub 0x100000 M) (hk : anc.Within M s) : anc.Within M (State.mirrorVc s v) := by
  unfold State.mirrorVc
  repeat' first
    | with_reducible assumption | with_reducible refine State.wf_frame ?_ ?_ | with_reducible exact hm.mono (by decide)
    | with_reducible exact hm.bit (by decide) | dsimp only

theorem State.setVc_frame {anc : State} {M : Nat} {s : State} {v : Nat} {x : VcSt} (hm : Sub 0x800000000000000000000000100000 M) (hk : anc.Within M s) : anc.Within M (State.setVc s v x) := by
  unfold State.setVc
  repeat' first
    | with_reducible assumption | with_reducible refine State.mirrorVc_frame ?_ ?_ | with_reducible exact hm.mono (by decide)
    | with_reducible exact hm.bit (by decide) | simp only [or_true, true_and, and_true] | with_reducible refine And.intro ?_ ?_
    | with_reducible exact .inl (hm.bit (by decide)) | dsimp only | with_reducible refine State.frame_mk ?_ ?_

theorem State.vSend_frame {anc : State} {M : Nat} {s : State} {v : Nat} {p : Pip} (hm : Sub 0x800000001800000000000000100000 M) (hk : anc.Within M s) : anc.Within M (State.vSend s v p) := by
  unfold State.vSend
  repeat' first
    | with_reducible assumption | with_reducible refine State.setInt_frame ?_ ?_ ?_ | with_reducible refine State.inc_frame ?_ ?_
    | with_reducible refine State.setVc_frame ?_ ?_ | with_reducible refine State.when_frame ?_ ?_ | intro _
    | with_reducible exact hm.mono (by decide) | with_reducible exact hm.bit (by decide)
    | ((with_reducible refine page_bit (B := ?_) (n := ?_) (k := ?_) hm ?_ ?_ ?_); (on_goal 4 => rfl); all_goals decide)
    | with_reducible exact corePage_bit hm (by decide) (by decide) (by decide) | dsimp only

theorem State.vPut_frame {anc : State} {M : Nat} {s : State} {v : Nat} {off : Nat} {bs : List (Nat × Bool)} (hm : Sub 0x6000000000000000000000000000 M) (hk : anc.Within M s) : anc.Within M (State.vPut s v off bs) := by
  unfold State.vPut
  repeat' first
    | with_reducible assumption | with_reducible refine State.sramWrite_frame ?_ ?_
    | with_reducible refine State.sramMark_frame ?_ ?_ | with_reducible refine State.each_frame ?_ ?_ | intro _
    | with_reducible refine ite_frame ?_ ?_ | with_reducible exact hm.mono (by decide) | split | dsimp only

theorem State.vStreamIn_frame {anc : State} {M : Nat} {s : State} {v : Nat} {addr : Nat} {n : Nat} (hm : Sub 0x7800000000000100100002 M) (hk : anc.Within M s) : anc.Within M (State.vStreamIn s v addr n).2 := by
  unfold State.vStreamIn
  repeat' first
    | with_reducible assumption | with_reducible refine State.hbmBytes_frame ?_ ?_
    | refine State.hbmBytes_frame_eq ?_ (by with_reducible assumption) ?_ | with_reducible refine State.inc_frame ?_ ?_
    | with_reducible exact hm.mono (by decide) | with_reducible exact hm.bit (by decide)
    | ((with_reducible refine page_bit (B := ?_) (n := ?_) (k := ?_) hm ?_ ?_ ?_); (on_goal 4 => rfl); all_goals decide)
    | with_reducible exact corePage_bit hm (by decide) (by decide) (by decide) | dsimp only

theorem State.vStreamIn_frame_eq {anc : State} {M : Nat} {s : State} {v : Nat} {addr : Nat} {n : Nat} (hm : Sub 0x7800000000000100100002 M) {r0 tz} (heqx : State.vStreamIn s v addr n = (r0, tz)) (hk : anc.Within M s) : anc.Within M tz := by
  have := State.vStreamIn_frame (s := s) (v := v) (addr := addr) (n := n) hm hk
  rwa [heqx] at this

theorem State.vStreamOut_frame {anc : State} {M : Nat} {s : State} {v : Nat} {addr : Nat} {bs : List (Nat × Bool)} (hm : Sub 0x1c00007800000000000100100002 M) (hk : anc.Within M s) : anc.Within M (State.vStreamOut s v addr bs) := by
  unfold State.vStreamOut
  repeat' first
    | with_reducible assumption | with_reducible refine State.inc_frame ?_ ?_ | with_reducible refine State.hbmPut_frame ?_ ?_
    | with_reducible exact hm.mono (by decide) | with_reducible exact hm.bit (by decide)
    | ((with_reducible refine page_bit (B := ?_) (n := ?_) (k := ?_) hm ?_ ?_ ?_); (on_goal 4 => rfl); all_goals decide)
    | with_reducible exact corePage_bit hm (by decide) (by decide) (by decide) | dsimp only

theorem State.kvGet_frame {anc : State} {M : Nat} {s : State} {v : Nat} {slot : Nat} {pos : Nat} {stride : Nat} {off : Nat} {n : Nat} (hm : Sub 0x7800000000000100100002 M) (hk : anc.Within M s) : anc.Within M (State.kvGet s v slot pos stride off n).2 := by
  unfold State.kvGet
  repeat' first
    | with_reducible assumption | with_reducible refine State.vStreamIn_frame ?_ ?_
    | refine State.vStreamIn_frame_eq ?_ (by with_reducible assumption) ?_ | with_reducible refine ite_frame ?_ ?_
    | with_reducible refine ite_frame2 ?_ ?_ | with_reducible refine ite_frame3 ?_ ?_ | with_reducible exact hm.mono (by decide)
    | split | dsimp only

theorem State.kvGet_frame_eq {anc : State} {M : Nat} {s : State} {v : Nat} {slot : Nat} {pos : Nat} {stride : Nat} {off : Nat} {n : Nat} (hm : Sub 0x7800000000000100100002 M) {r0 tz} (heqx : State.kvGet s v slot pos stride off n = (r0, tz)) (hk : anc.Within M s) : anc.Within M tz := by
  have := State.kvGet_frame (s := s) (v := v) (slot := slot) (pos := pos) (stride := stride) (off := off) (n := n) hm hk
  rwa [heqx] at this

theorem State.vClamps_frame {anc : State} {M : Nat} {s : State} {v : Nat} {n : Nat} (hm : Sub 0x1800000000000000100000 M) (hk : anc.Within M s) : anc.Within M (State.vClamps s v n) := by
  unfold State.vClamps
  repeat' first
    | with_reducible assumption | with_reducible refine State.setInt_frame ?_ ?_ ?_ | with_reducible refine State.inc_frame ?_ ?_
    | with_reducible refine State.when_frame ?_ ?_ | intro _ | with_reducible exact hm.mono (by decide)
    | with_reducible exact hm.bit (by decide)
    | ((with_reducible refine page_bit (B := ?_) (n := ?_) (k := ?_) hm ?_ ?_ ?_); (on_goal 4 => rfl); all_goals decide)
    | with_reducible exact corePage_bit hm (by decide) (by decide) (by decide) | dsimp only

theorem State.efStore_frame {anc : State} {M : Nat} {s : State} {v : Nat} {ctx : Nat} {off : Nat} {es : List Nat} (hm : Sub 0x802000000000000000000000100000 M) (hk : anc.Within M s) : anc.Within M (State.efStore s v ctx off es) := by
  unfold State.efStore
  repeat' first
    | with_reducible assumption | with_reducible refine State.sramWrite_frame ?_ ?_ | with_reducible refine State.setVc_frame ?_ ?_
    | with_reducible refine State.each_frame ?_ ?_ | intro _ | with_reducible exact hm.mono (by decide) | dsimp only

theorem State.vQuant_frame {anc : State} {M : Nat} {s : State} {v : Nat} {k : KStep} {fmt : Nat} {xmax : Nat} {sr : Bool} {a : Nat} {half : Nat} {off : Nat} (hm : Sub 0x6000001800000000000000100000 M) (hk : anc.Within M s) : anc.Within M (State.vQuant s v k fmt xmax sr a half off) := by
  unfold State.vQuant
  repeat' first
    | with_reducible assumption | with_reducible refine State.vClamps_frame ?_ ?_ | with_reducible refine State.vPut_frame ?_ ?_
    | with_reducible refine ite_frame ?_ ?_ | with_reducible exact hm.mono (by decide) | split | dsimp only

theorem State.vDequant_frame {anc : State} {M : Nat} {s : State} {v : Nat} {k : KStep} {fmt : Nat} {d : Nat} {half : Nat} {src : VSrc} (hm : Sub 0x800000000000000000000000100000 M) (hk : anc.Within M s) : anc.Within M (State.vDequant s v k fmt d half src) := by
  unfold State.vDequant
  repeat' first
    | with_reducible assumption | with_reducible refine State.setVc_frame ?_ ?_ | with_reducible exact hm.mono (by decide)
    | dsimp only

theorem State.vRescale_frame {anc : State} {M : Nat} {s : State} {v : Nat} {fmt : Nat} {src : Nat} {dst : Nat} (hm : Sub 0x6000000000000000000000000000 M) (hk : anc.Within M s) : anc.Within M (State.vRescale s v fmt src dst) := by
  unfold State.vRescale
  repeat' first
    | with_reducible assumption | with_reducible refine State.vPut_frame ?_ ?_ | with_reducible refine ite_frame ?_ ?_
    | with_reducible exact hm.mono (by decide) | split | dsimp only

theorem State.vCtl_frame {anc : State} {M : Nat} {s : State} {v : Nat} {a : Nat} {lane : Nat} (hm : Sub 0x800000000000000000000000100000 M) (hk : anc.Within M s) : anc.Within M (State.vCtl s v a lane) := by
  unfold State.vCtl
  repeat' first
    | with_reducible assumption | with_reducible refine State.setVc_frame ?_ ?_ | with_reducible refine State.wf_frame ?_ ?_
    | with_reducible refine State.when_frame ?_ ?_ | intro _ | with_reducible refine ite_frame ?_ ?_
    | with_reducible exact hm.mono (by decide) | with_reducible exact hm.bit (by decide) | split | dsimp only

theorem State.attnRead_frame {anc : State} {M : Nat} {s : State} {v : Nat} {t : Attn} {q : List (Nat × Bool)} {ps : List Nat} (hm : Sub 0x7800000000000100100002 M) (hk : anc.Within M s) : anc.Within M (State.attnRead s v t q ps).2.2 := by
  unfold State.attnRead
  repeat' first
    | with_reducible assumption | with_reducible refine State.kvGet_frame ?_ ?_
    | refine State.kvGet_frame_eq ?_ (by with_reducible assumption) ?_ | with_reducible refine foldl_frame ?_ ?_
    | with_reducible refine foldl_frame_pair ?_ ?_ | with_reducible refine foldl_frame_triple ?_ ?_ | intro _
    | with_reducible refine ite_frame ?_ ?_ | with_reducible refine ite_frame2 ?_ ?_ | with_reducible refine ite_frame3 ?_ ?_
    | with_reducible exact hm.mono (by decide) | split | dsimp only

theorem State.attnRead_frame_eq {anc : State} {M : Nat} {s : State} {v : Nat} {t : Attn} {q : List (Nat × Bool)} {ps : List Nat} (hm : Sub 0x7800000000000100100002 M) {r0 r1 tz} (heqx : State.attnRead s v t q ps = (r0, r1, tz)) (hk : anc.Within M s) : anc.Within M tz := by
  have := State.attnRead_frame (s := s) (v := v) (t := t) (q := q) (ps := ps) hm hk
  rwa [heqx] at this

theorem State.attend_frame {anc : State} {M : Nat} {s : State} {v : Nat} {t : Attn} (hm : Sub 0x800000007800000000000100100002 M) (hk : anc.Within M s) : anc.Within M (State.attend s v t) := by
  unfold State.attend
  repeat' first
    | with_reducible assumption | with_reducible refine State.attnRead_frame ?_ ?_
    | refine State.attnRead_frame_eq ?_ (by with_reducible assumption) ?_ | with_reducible refine State.setVc_frame ?_ ?_
    | with_reducible refine foldl_frame ?_ ?_ | with_reducible refine foldl_frame_pair ?_ ?_
    | with_reducible refine foldl_frame_triple ?_ ?_ | intro _ | with_reducible refine ite_frame ?_ ?_
    | with_reducible exact hm.mono (by decide) | split | dsimp only

theorem State.vFailed_frame {anc : State} {M : Nat} {s : State} {v : Nat} (hm : Sub 0x800000000000000000000000100000 M) (hk : anc.Within M s) : anc.Within M (State.vFailed s v) := by
  unfold State.vFailed
  repeat' first
    | with_reducible assumption | with_reducible refine State.setVc_frame ?_ ?_ | with_reducible exact hm.mono (by decide)
    | dsimp only

theorem State.vSendBytes_frame {anc : State} {M : Nat} {s : State} {v : Nat} {k : KStep} {dest : Nat} {seq : Nat} {fmt : Nat} {hollow : Bool} {bs : List Nat} (hm : Sub 0x800000001800000000000000100000 M) (hk : anc.Within M s) : anc.Within M (State.vSendBytes s v k dest seq fmt hollow bs) := by
  unfold State.vSendBytes
  repeat' first
    | with_reducible assumption | with_reducible refine State.vFailed_frame ?_ ?_ | with_reducible refine State.vSend_frame ?_ ?_
    | with_reducible refine ite_frame ?_ ?_ | with_reducible exact hm.mono (by decide) | split | dsimp only

theorem State.vRange_frame {anc : State} {M : Nat} {s : State} {v : Nat} {k : KStep} (hm : Sub 0xe000000004007800000003000000000002 M) (hk : anc.Within M s) : anc.Within M (State.vRange s v k) := by
  unfold State.vRange
  repeat' first
    | with_reducible assumption | with_reducible refine State.notice_frame ?_ ?_ | with_reducible refine State.setReq_frame ?_ ?_
    | with_reducible refine State.each_frame ?_ ?_ | intro _ | with_reducible exact hm.mono (by decide) | dsimp only

theorem State.vSendLanes_frame {anc : State} {M : Nat} {s : State} {v : Nat} {k : KStep} {o : VSend} (hm : Sub 0xe000802004007800000003000000100002 M) (hk : anc.Within M s) : anc.Within M (State.vSendLanes s v k o) := by
  unfold State.vSendLanes
  repeat' first
    | with_reducible assumption | with_reducible refine State.vSendBytes_frame ?_ ?_
    | with_reducible refine State.sramWrite_frame ?_ ?_ | with_reducible refine State.vClamps_frame ?_ ?_
    | with_reducible refine State.setVc_frame ?_ ?_ | with_reducible refine State.vRange_frame ?_ ?_
    | with_reducible refine State.efStore_frame ?_ ?_ | with_reducible refine State.each_frame ?_ ?_
    | with_reducible refine State.when_frame ?_ ?_ | intro _ | with_reducible refine ite_frame ?_ ?_
    | with_reducible exact hm.mono (by decide) | split | dsimp only

theorem State.vOpOn_frame {anc : State} {M : Nat} {s : State} {v : Nat} {k : KStep} {x3 : VOp} (hm : Sub 0xe000807c04007800000003000100100002 M) (hk : anc.Within M s) : anc.Within M (State.vOpOn s v k x3) := by
  unfold State.vOpOn
  repeat' first
    | with_reducible assumption | with_reducible refine State.setVc_frame ?_ ?_ | with_reducible refine State.vPut_frame ?_ ?_
    | with_reducible refine State.vDequant_frame ?_ ?_ | with_reducible refine State.vQuant_frame ?_ ?_
    | with_reducible refine State.vRescale_frame ?_ ?_ | with_reducible refine State.vCtl_frame ?_ ?_
    | with_reducible refine State.vStreamOut_frame ?_ ?_ | with_reducible refine State.vStreamIn_frame ?_ ?_
    | refine State.vStreamIn_frame_eq ?_ (by with_reducible assumption) ?_ | with_reducible refine State.kvGet_frame ?_ ?_
    | refine State.kvGet_frame_eq ?_ (by with_reducible assumption) ?_ | with_reducible refine State.attend_frame ?_ ?_
    | with_reducible refine State.vSendLanes_frame ?_ ?_ | with_reducible refine State.vSendBytes_frame ?_ ?_
    | with_reducible refine State.vClamps_frame ?_ ?_ | with_reducible exact hm.mono (by decide) | split | dsimp only

theorem State.vOp_frame {anc : State} {M : Nat} {s : State} {v : Nat} {op : VOp} (hm : Sub 0xe000807c04007800000003000100100002 M) (hk : anc.Within M s) : anc.Within M (State.vOp s v op) := by
  unfold State.vOp
  repeat' first
    | with_reducible assumption | with_reducible refine State.vOpOn_frame ?_ ?_ | with_reducible refine State.setVc_frame ?_ ?_
    | with_reducible exact hm.mono (by decide) | split | dsimp only

end Sys2Proof.Machine
end

