-- ==== Sys2Proof/Laws/Frame/VCore.lean ====
section
/-! SUPPORT. Every operation and meaning of Machine/VCore.lean changes only the register areas and parts of the state its mask names. -/

namespace Sys2Proof.Machine

set_option linter.unreachableTactic false
set_option linter.unusedTactic false

theorem State.vInject_frame {anc : State} {M : Nat} {s : State} {v : Nat} {a l : List Pip} {t : State} (hm : Sub 0xe004800000007800000003000001110002 M)
    (heqx : State.vInject s v a l = some t) (hk : anc.Within M s) : anc.Within M t := by
  induction l generalizing a with
  | nil => simp [State.vInject] at heqx
  | cons x l ih =>
    simp only [State.vInject] at heqx
    split at heqx
    · exact ih heqx
    · split at heqx
      · injection heqx with heqx
        subst heqx
        exact State.setVc_frame (hm.mono (by decide)) (State.inject_frame_some (hm.mono (by decide)) ‹_› hk)
      · exact ih heqx

theorem State.pipSendV_frame {anc : State} {M : Nat} {s : State} {v : Nat} (hm : Sub 0xe004800000007800000003000001110002 M) (hk : anc.Within M s) : anc.Within M (State.pipSendV s v) := by
  unfold State.pipSendV
  repeat' first
    | with_reducible assumption | refine State.vInject_frame ?_ (by with_reducible assumption) ?_
    | refine State.inject_frame_some ?_ (by with_reducible assumption) ?_ | with_reducible refine State.inject_frame ?_ ?_
    | refine State.inject_frame_eq ?_ (by with_reducible assumption) ?_ | with_reducible exact hm.mono (by decide) | split
    | dsimp only

theorem State.vFire_frame {anc : State} {M : Nat} {s : State} {v : Nat} {d : Nat} {n : Nat} {ops : List VOp} (hm : Sub 0xe00c807c04007800000003000100100002 M) (hk : anc.Within M s) : anc.Within M (State.vFire s v d n ops) := by
  unfold State.vFire
  repeat' first
    | with_reducible assumption | with_reducible refine State.setBuf_frame ?_ ?_ | with_reducible refine State.vSend_frame ?_ ?_
    | with_reducible refine State.blockErr_frame ?_ ?_ ?_ | with_reducible refine State.freeSet_frame ?_ ?_
    | with_reducible refine State.wf_frame ?_ ?_ | with_reducible refine State.inc_frame ?_ ?_
    | with_reducible refine State.reserve_frame ?_ ?_ | with_reducible refine State.setVc_frame ?_ ?_
    | with_reducible refine State.vOp_frame ?_ ?_ | with_reducible refine State.each_frame ?_ ?_
    | with_reducible refine foldl_frame ?_ ?_ | intro _ | with_reducible refine ite_frame ?_ ?_
    | with_reducible exact hm.mono (by decide) | with_reducible exact hm.bit (by decide)
    | ((with_reducible refine page_bit (B := ?_) (n := ?_) (k := ?_) hm ?_ ?_ ?_); (on_goal 4 => rfl); all_goals decide)
    | with_reducible exact corePage_bit hm (by decide) (by decide) (by decide) | split | dsimp only

theorem State.kernelFire_frame {anc : State} {M : Nat} {s : State} {v : Nat} {ops : List VOp} (hm : Sub 0xe00c807c04007800000003000100100002 M) (hk : anc.Within M s) : anc.Within M (State.kernelFire s v ops) := by
  unfold State.kernelFire
  repeat' first
    | with_reducible assumption | with_reducible refine State.vFire_frame ?_ ?_ | with_reducible refine State.askCredits_frame ?_ ?_
    | with_reducible refine ite_frame ?_ ?_ | with_reducible exact hm.mono (by decide) | split | dsimp only

theorem State.vReturn_frame {anc : State} {M : Nat} {s : State} {v : Nat} {stream : Nat} {dests : List Nat} (hm : Sub 0x4800000000000000000000000100000 M) (hk : anc.Within M s) : anc.Within M (State.vReturn s v stream dests) := by
  unfold State.vReturn
  repeat' first
    | with_reducible assumption | with_reducible refine State.setVc_frame ?_ ?_ | with_reducible refine State.unreserve_frame ?_ ?_
    | with_reducible refine State.each_frame ?_ ?_ | with_reducible refine foldl_frame ?_ ?_ | intro _
    | with_reducible exact hm.mono (by decide) | dsimp only

theorem State.kernelEnd_frame {anc : State} {M : Nat} {s : State} {v : Nat} {ops : List VOp} (hm : Sub 0xe00c807c04007800000003000100100002 M) (hk : anc.Within M s) : anc.Within M (State.kernelEnd s v ops) := by
  unfold State.kernelEnd
  repeat' first
    | with_reducible assumption | with_reducible refine State.vOp_frame ?_ ?_ | with_reducible refine State.vReturn_frame ?_ ?_
    | with_reducible refine State.freeSet_frame ?_ ?_ | with_reducible refine State.wf_frame ?_ ?_
    | with_reducible refine State.setVc_frame ?_ ?_ | with_reducible refine State.each_frame ?_ ?_ | intro _
    | with_reducible exact hm.mono (by decide) | with_reducible exact hm.bit (by decide) | split | dsimp only

theorem State.kernelOverrun_frame {anc : State} {M : Nat} {s : State} {v : Nat} (hm : Sub 0x800000007800000000000000100002 M) (hk : anc.Within M s) : anc.Within M (State.kernelOverrun s v).2 := by
  unfold State.kernelOverrun
  repeat' first
    | with_reducible assumption | with_reducible refine State.blockErr_frame ?_ ?_ ?_ | with_reducible refine State.setVc_frame ?_ ?_
    | with_reducible refine ite_frame ?_ ?_ | with_reducible refine ite_frame2 ?_ ?_ | with_reducible refine ite_frame3 ?_ ?_
    | with_reducible exact hm.mono (by decide) | with_reducible exact hm.bit (by decide)
    | ((with_reducible refine page_bit (B := ?_) (n := ?_) (k := ?_) hm ?_ ?_ ?_); (on_goal 4 => rfl); all_goals decide)
    | with_reducible exact corePage_bit hm (by decide) (by decide) (by decide) | split | dsimp only

theorem State.kernelOverrun_frame_eq {anc : State} {M : Nat} {s : State} {v : Nat} (hm : Sub 0x800000007800000000000000100002 M) {r0 tz} (heqx : State.kernelOverrun s v = (r0, tz)) (hk : anc.Within M s) : anc.Within M tz := by
  have := State.kernelOverrun_frame (s := s) (v := v) hm hk
  rwa [heqx] at this

theorem State.kvReply_frame {anc : State} {M : Nat} {s : State} {score : Nat} {r : Nat} (hm : Sub 0x80000000000000000000 M) (hk : anc.Within M s) : anc.Within M (State.kvReply s score r) := by
  unfold State.kvReply
  repeat' first
    | with_reducible assumption | with_reducible refine State.wf_frame ?_ ?_ | with_reducible refine ite_frame ?_ ?_
    | with_reducible exact hm.mono (by decide) | with_reducible exact hm.bit (by decide) | split | dsimp only

theorem State.kvGo_frame {anc : State} {M : Nat} {s : State} {ck : Nat} (hm : Sub 0xe000800000007880000003000000100002 M) (hk : anc.Within M s) : anc.Within M (State.kvGo s ck) := by
  unfold State.kvGo
  repeat' first
    | with_reducible assumption | with_reducible refine State.setVc_frame ?_ ?_ | with_reducible refine State.mesh_frame ?_ ?_
    | with_reducible refine State.wf_frame ?_ ?_ | with_reducible refine State.kvReply_frame ?_ ?_
    | with_reducible refine ite_frame ?_ ?_ | with_reducible exact hm.mono (by decide) | with_reducible exact hm.bit (by decide)
    | split | dsimp only

theorem State.kvCommand_frame {anc : State} {M : Nat} {s : State} {v : Nat} {op : Nat} (hm : Sub 0x803e00007880000000000100100002 M) (hk : anc.Within M s) : anc.Within M (State.kvCommand s v op) := by
  unfold State.kvCommand
  repeat' first
    | with_reducible assumption | with_reducible refine State.setVc_frame ?_ ?_ | with_reducible refine State.kvReply_frame ?_ ?_
    | with_reducible refine State.kvReserve_frame ?_ ?_ | refine State.kvReserve_frame_eq ?_ (by with_reducible assumption) ?_
    | with_reducible refine State.kvRelease_frame ?_ ?_ | with_reducible refine State.kvShare_frame ?_ ?_
    | refine State.kvShare_frame_eq ?_ (by with_reducible assumption) ?_ | with_reducible refine ite_frame ?_ ?_
    | with_reducible exact hm.mono (by decide) | split | dsimp only

theorem State.kvPart_frame {anc : State} {M : Nat} {s : State} {v : Nat} {pos : Nat} {mode : Nat} {k : KStep} {o : KvPart} (hm : Sub 0x802000001800000000000000100000 M) (hk : anc.Within M s) : anc.Within M (State.kvPart s v pos mode k o).2.2 := by
  unfold State.kvPart
  repeat' first
    | with_reducible assumption | with_reducible refine State.vClamps_frame ?_ ?_ | with_reducible refine State.efStore_frame ?_ ?_
    | with_reducible refine ite_frame ?_ ?_ | with_reducible refine ite_frame2 ?_ ?_ | with_reducible refine ite_frame3 ?_ ?_
    | with_reducible exact hm.mono (by decide) | split | dsimp only

theorem State.kvPart_frame_eq {anc : State} {M : Nat} {s : State} {v : Nat} {pos : Nat} {mode : Nat} {k : KStep} {o : KvPart} (hm : Sub 0x802000001800000000000000100000 M) {r0 r1 tz} (heqx : State.kvPart s v pos mode k o = (r0, r1, tz)) (hk : anc.Within M s) : anc.Within M tz := by
  have := State.kvPart_frame (s := s) (v := v) (pos := pos) (mode := mode) (k := k) (o := o) hm hk
  rwa [heqx] at this

theorem State.kvWriteStep_frame {anc : State} {M : Nat} {s : State} {v : Nat} {slot : Nat} {pos : Nat} {off : Nat} {mode : Nat} {parts : List KvPart} (hm : Sub 0x803e00007800000000000100100002 M) (hk : anc.Within M s) : anc.Within M (State.kvWriteStep s v slot pos off mode parts) := by
  unfold State.kvWriteStep
  repeat' first
    | with_reducible assumption | with_reducible refine State.kvPart_frame ?_ ?_
    | refine State.kvPart_frame_eq ?_ (by with_reducible assumption) ?_ | with_reducible refine State.kvWrite_frame ?_ ?_
    | refine State.kvWrite_frame_eq ?_ (by with_reducible assumption) ?_ | with_reducible refine State.inc_frame ?_ ?_
    | with_reducible refine foldl_frame ?_ ?_ | with_reducible refine foldl_frame_pair ?_ ?_
    | with_reducible refine foldl_frame_triple ?_ ?_ | with_reducible refine State.when_frame ?_ ?_ | intro _
    | with_reducible exact hm.mono (by decide) | with_reducible exact hm.bit (by decide)
    | ((with_reducible refine page_bit (B := ?_) (n := ?_) (k := ?_) hm ?_ ?_ ?_); (on_goal 4 => rfl); all_goals decide)
    | with_reducible exact corePage_bit hm (by decide) (by decide) (by decide) | split | dsimp only

theorem State.sample_frame {anc : State} {M : Nat} {s : State} {v : Nat} {id : Nat} {pos : Nat} {off : Nat} {n : Nat} (hm : Sub 0x800000001800000000000000100000 M) (hk : anc.Within M s) : anc.Within M (State.sample s v id pos off n) := by
  unfold State.sample
  repeat' first
    | with_reducible assumption | with_reducible refine State.vSend_frame ?_ ?_ | with_reducible refine ite_frame ?_ ?_
    | with_reducible exact hm.mono (by decide) | split | dsimp only

theorem State.standinRequest_frame {anc : State} {M : Nat} {s : State} {v : Nat} {ck : Nat} {id : Nat} {n : Nat} (hm : Sub 0x800000000000000000000000100000 M) (hk : anc.Within M s) : anc.Within M (State.standinRequest s v ck id n) := by
  unfold State.standinRequest
  repeat' first
    | with_reducible assumption | with_reducible refine State.setVc_frame ?_ ?_ | with_reducible refine ite_frame ?_ ?_
    | with_reducible exact hm.mono (by decide) | split | dsimp only

theorem State.standinDone_frame {anc : State} {M : Nat} {s : State} {v : Nat} (hm : Sub 0xe000800000007800000003000100100002 M) (hk : anc.Within M s) : anc.Within M (State.standinDone s v) := by
  unfold State.standinDone
  repeat' first
    | with_reducible assumption | with_reducible refine State.hbmCodewords_frame ?_ ?_
    | refine State.hbmCodewords_frame_eq ?_ (by with_reducible assumption) ?_ | with_reducible refine State.setVc_frame ?_ ?_
    | with_reducible refine State.inc_frame ?_ ?_ | with_reducible refine State.mesh_frame ?_ ?_
    | with_reducible refine State.blockErr_frame ?_ ?_ ?_ | with_reducible refine ite_frame ?_ ?_
    | with_reducible exact hm.mono (by decide) | with_reducible exact hm.bit (by decide)
    | ((with_reducible refine page_bit (B := ?_) (n := ?_) (k := ?_) hm ?_ ?_ ?_); (on_goal 4 => rfl); all_goals decide)
    | with_reducible exact corePage_bit hm (by decide) (by decide) (by decide) | split | dsimp only

theorem execKernelStepFire_frame {anc : State} {M : Nat} {k : KernelRun} {s : State} (hm : Sub 0xe00c807c04007800000003000100100002 M) (hk : anc.Within M s) : ∃ out, execKernelStepFire k s = .next out ∧ anc.Within M out := by
  unfold execKernelStepFire
  refine ⟨_, rfl, ?_⟩
  repeat' first
    | with_reducible assumption | with_reducible refine State.kernelFire_frame ?_ ?_ | with_reducible exact hm.mono (by decide)
    | dsimp only

theorem execKvWrite_frame {anc : State} {M : Nat} {v : Nat} {slot : Nat} {pos : Nat} {off : Nat} {mode : Nat} {parts : List KvPart} {s : State} (hm : Sub 0x803e00007800000000000100100002 M) (hk : anc.Within M s) : ∃ out, execKvWrite v slot pos off mode parts s = .next out ∧ anc.Within M out := by
  unfold execKvWrite
  refine ⟨_, rfl, ?_⟩
  repeat' first
    | with_reducible assumption | with_reducible refine State.kvWriteStep_frame ?_ ?_ | with_reducible exact hm.mono (by decide)
    | dsimp only

theorem execKvReserve_frame {anc : State} {M : Nat} {v : Nat} {s : State} (hm : Sub 0x803e00007880000000000100100002 M) (hk : anc.Within M s) : ∃ out, execKvReserve v s = .next out ∧ anc.Within M out := by
  unfold execKvReserve
  refine ⟨_, rfl, ?_⟩
  repeat' first
    | with_reducible assumption | with_reducible refine State.kvCommand_frame ?_ ?_ | with_reducible exact hm.mono (by decide)
    | dsimp only

theorem execKvRelease_frame {anc : State} {M : Nat} {v : Nat} {s : State} (hm : Sub 0x803e00007880000000000100100002 M) (hk : anc.Within M s) : ∃ out, execKvRelease v s = .next out ∧ anc.Within M out := by
  unfold execKvRelease
  refine ⟨_, rfl, ?_⟩
  repeat' first
    | with_reducible assumption | with_reducible refine State.kvCommand_frame ?_ ?_ | with_reducible exact hm.mono (by decide)
    | dsimp only

theorem execKvShare_frame {anc : State} {M : Nat} {v : Nat} {s : State} (hm : Sub 0x803e00007880000000000100100002 M) (hk : anc.Within M s) : ∃ out, execKvShare v s = .next out ∧ anc.Within M out := by
  unfold execKvShare
  refine ⟨_, rfl, ?_⟩
  repeat' first
    | with_reducible assumption | with_reducible refine State.kvCommand_frame ?_ ?_ | with_reducible exact hm.mono (by decide)
    | dsimp only

theorem execStandinRequest_frame {anc : State} {M : Nat} {v : Nat} {ck : Nat} {id : Nat} {n : Nat} {s : State} (hm : Sub 0x800000000000000000000000100000 M) (hk : anc.Within M s) : ∃ out, execStandinRequest v ck id n s = .next out ∧ anc.Within M out := by
  unfold execStandinRequest
  refine ⟨_, rfl, ?_⟩
  repeat' first
    | with_reducible assumption | with_reducible refine State.standinRequest_frame ?_ ?_ | with_reducible exact hm.mono (by decide)
    | dsimp only

theorem execStandinDone_frame {anc : State} {M : Nat} {v : Nat} {s : State} (hm : Sub 0xe000800000007800000003000100100002 M) (hk : anc.Within M s) : ∃ out, execStandinDone v s = .next out ∧ anc.Within M out := by
  unfold execStandinDone
  refine ⟨_, rfl, ?_⟩
  repeat' first
    | with_reducible assumption | with_reducible refine State.standinDone_frame ?_ ?_ | with_reducible exact hm.mono (by decide)
    | dsimp only

theorem execSampleToken_frame {anc : State} {M : Nat} {v : Nat} {id : Nat} {pos : Nat} {off : Nat} {n : Nat} {s : State} (hm : Sub 0x800000001800000000000000100000 M) (hk : anc.Within M s) : ∃ out, execSampleToken v id pos off n s = .next out ∧ anc.Within M out := by
  unfold execSampleToken
  refine ⟨_, rfl, ?_⟩
  repeat' first
    | with_reducible assumption | with_reducible refine State.sample_frame ?_ ?_ | with_reducible exact hm.mono (by decide)
    | dsimp only

end Sys2Proof.Machine
end

