-- ==== Sys2Proof/Laws/Frame/Router.lean ====
section
/-! SUPPORT. Every operation and meaning of Machine/Router.lean changes only the register areas and parts of the state its mask names. -/

namespace Sys2Proof.Machine

set_option linter.unreachableTactic false
set_option linter.unusedTactic false

theorem State.seamHigh_frame {anc : State} {M : Nat} {s : State} {r : Nat} {port : Nat} (hm : Sub 0x2000000 M) (hk : anc.Within M s) : anc.Within M (State.seamHigh s r port) := by
  unfold State.seamHigh
  repeat' first
    | with_reducible assumption | with_reducible refine State.wf_frame ?_ ?_ | with_reducible refine ite_frame ?_ ?_
    | with_reducible exact hm.mono (by decide) | with_reducible exact hm.bit (by decide) | split | dsimp only

theorem State.sendFlit_frame {anc : State} {M : Nat} {s : State} {r : Nat} {port : Nat} {cls : Nat} {inp : Nat} (hm : Sub 0x8080000000000000000000000003000000 M) (hk : anc.Within M s) : anc.Within M (State.sendFlit s r port cls inp) := by
  unfold State.sendFlit
  repeat' first
    | with_reducible assumption | with_reducible refine State.emit_frame ?_ ?_ | with_reducible refine State.seamHigh_frame ?_ ?_
    | with_reducible refine State.inc_frame ?_ ?_ | with_reducible refine ite_frame ?_ ?_ | with_reducible exact hm.mono (by decide)
    | with_reducible exact hm.bit (by decide)
    | ((with_reducible refine page_bit (B := ?_) (n := ?_) (k := ?_) hm ?_ ?_ ?_); (on_goal 4 => rfl); all_goals decide)
    | with_reducible exact corePage_bit hm (by decide) (by decide) (by decide) | simp only [or_true, true_and, and_true]
    | with_reducible refine And.intro ?_ ?_ | with_reducible exact .inl (hm.bit (by decide)) | split | dsimp only
    | with_reducible refine State.frame_mk ?_ ?_

theorem State.forwardFlits_frame {anc : State} {M : Nat} {s : State} {n : Nat} {ps : List (Nat × Nat)} (hm : Sub 0x8080000000000000000000000003000000 M) (hk : anc.Within M s) :
    anc.Within M (State.forwardFlits s n ps) := by
  induction n generalizing s ps with
  | zero => simpa only [State.forwardFlits] using hk
  | succ n ih =>
    cases ps with
    | nil => simpa only [State.forwardFlits] using hk
    | cons p ps =>
      simp only [State.forwardFlits]
      split
      · exact ih hk
      · exact ih (State.sendFlit_frame (hm.mono (by decide)) hk)

theorem State.takeFlit_frame {anc : State} {M : Nat} {s : State} {r : Nat} {port : Nat} {f : Flit} (hm : Sub 0x8080000000000000000000000003000000 M) (hk : anc.Within M s) : anc.Within M (State.takeFlit s r port f) := by
  unfold State.takeFlit
  repeat' first
    | with_reducible assumption | with_reducible refine State.forwardFlits_frame ?_ ?_ | with_reducible refine ite_frame ?_ ?_
    | with_reducible exact hm.mono (by decide) | with_reducible exact hm.bit (by decide) | simp only [or_true, true_and, and_true]
    | with_reducible refine And.intro ?_ ?_ | with_reducible exact .inl (hm.bit (by decide)) | split | dsimp only
    | with_reducible refine State.frame_mk ?_ ?_

theorem State.acceptFlit_frame {anc : State} {M : Nat} {s : State} {r : Nat} {port : Nat} (hm : Sub 0x80000000000000000000000000000000 M) (hk : anc.Within M s) : anc.Within M (State.acceptFlit s r port) := by
  unfold State.acceptFlit
  repeat' first
    | with_reducible assumption | with_reducible refine ite_frame ?_ ?_ | with_reducible exact hm.mono (by decide)
    | with_reducible exact hm.bit (by decide) | simp only [or_true, true_and, and_true] | with_reducible refine And.intro ?_ ?_
    | with_reducible exact .inl (hm.bit (by decide)) | split | dsimp only | with_reducible refine State.frame_mk ?_ ?_

theorem State.retryFlit_frame {anc : State} {M : Nat} {s : State} {r : Nat} {port : Nat} (hm : Sub 0x8000000000000000000000000000000000 M) (hk : anc.Within M s) : anc.Within M (State.retryFlit s r port) := by
  unfold State.retryFlit
  repeat' first
    | with_reducible assumption | with_reducible refine State.emit_frame ?_ ?_ | with_reducible refine ite_frame ?_ ?_
    | with_reducible exact hm.mono (by decide) | split | dsimp only

end Sys2Proof.Machine
end

