-- ==== Sys2Proof/Laws/Frame/Mesh.lean ====
section
/-! SUPPORT. Every operation and meaning of Machine/Mesh.lean changes only the register areas and parts of the state its mask names. -/

namespace Sys2Proof.Machine

set_option linter.unreachableTactic false
set_option linter.unusedTactic false

theorem State.setCoreClock_frame {anc : State} {M : Nat} {s : State} {pc : Nat} {mhz : Nat} (hm : Sub 0x40000000000000000000000000000000 M) (hk : anc.Within M s) : anc.Within M (State.setCoreClock s pc mhz) := by
  unfold State.setCoreClock
  repeat' first
    | with_reducible assumption | with_reducible exact hm.mono (by decide) | with_reducible exact hm.bit (by decide)
    | simp only [or_true, true_and, and_true] | with_reducible refine And.intro ?_ ?_
    | with_reducible exact .inl (hm.bit (by decide)) | dsimp only | with_reducible refine State.frame_mk ?_ ?_

theorem State.orderCoreClock_frame {anc : State} {M : Nat} {s : State} {pc : Nat} {mhz : Nat} (hm : Sub 0x40000000000000000000000000000000 M) (hk : anc.Within M s) : anc.Within M (State.orderCoreClock s pc mhz) := by
  unfold State.orderCoreClock
  repeat' first
    | with_reducible assumption | with_reducible refine State.setCoreClock_frame ?_ ?_ | with_reducible refine ite_frame ?_ ?_
    | with_reducible exact hm.mono (by decide) | with_reducible exact hm.bit (by decide) | simp only [or_true, true_and, and_true]
    | with_reducible refine And.intro ?_ ?_ | with_reducible exact .inl (hm.bit (by decide)) | split | dsimp only
    | with_reducible refine State.frame_mk ?_ ?_

theorem State.clockPoint_frame {anc : State} {M : Nat} {s : State} {ck : Nat} (hm : Sub 0x40000000000000000000000000000000 M) (hk : anc.Within M s) : anc.Within M (State.clockPoint s ck) := by
  unfold State.clockPoint
  repeat' first
    | with_reducible assumption | with_reducible refine State.setCoreClock_frame ?_ ?_ | with_reducible refine ite_frame ?_ ?_
    | with_reducible exact hm.mono (by decide) | split | dsimp only

theorem State.markHeld_frame {anc : State} {M : Nat} {s : State} {half : Nat} {b : Bool} (hm : Sub 0x3000000 M) (hk : anc.Within M s) : anc.Within M (State.markHeld s half b) := by
  unfold State.markHeld
  repeat' first
    | with_reducible assumption | with_reducible refine State.wf_frame ?_ ?_ | with_reducible refine State.each_frame ?_ ?_ | intro _
    | with_reducible refine ite_frame ?_ ?_ | with_reducible exact hm.mono (by decide) | with_reducible exact hm.bit (by decide)
    | split | dsimp only

theorem State.orderMeshClock_frame {anc : State} {M : Nat} {s : State} {half : Nat} {mhz : Nat} (hm : Sub 0x40000000000000000000000003000000 M) (hk : anc.Within M s) : anc.Within M (State.orderMeshClock s half mhz) := by
  unfold State.orderMeshClock
  repeat' first
    | with_reducible assumption | with_reducible refine State.markHeld_frame ?_ ?_ | with_reducible refine ite_frame ?_ ?_
    | with_reducible exact hm.mono (by decide) | with_reducible exact hm.bit (by decide) | simp only [or_true, true_and, and_true]
    | with_reducible refine And.intro ?_ ?_ | with_reducible exact .inl (hm.bit (by decide)) | split | dsimp only
    | with_reducible refine State.frame_mk ?_ ?_

theorem State.zipWf_frame {anc s : State} {M r : Nat} {fs : List Field} {vs : List Nat} (hf : ∀ f ∈ fs, M.testBit f.area = true)
    (hk : anc.Within M s) : anc.Within M ((fs.zip vs).foldl (fun u x => u.wf x.1 r x.2) s) :=
  foldl_frame_mem (fun _ _ hx h => State.wf_frame (hf _ (List.of_mem_zip hx).1) h) hk

theorem State.rescale_frame {anc : State} {M : Nat} {s : State} (hm : Sub 0x1800000000000002000000 M) (hk : anc.Within M s) :
    anc.Within M (State.rescale s) := by
  unfold State.rescale
  dsimp only
  refine State.each_frame hk fun t r h => ?_
  have h1 : ∀ f ∈ [R.SEAM_EW_PIP, R.SEAM_EW_REQ, R.SEAM_EW_RESP, R.SEAM_EW_MGMT], M.testBit f.area = true := by
    simp only [List.forall_mem_cons]
    exact ⟨hm.bit (by decide), hm.bit (by decide), hm.bit (by decide), hm.bit (by decide), fun _ h => by cases h⟩
  have h2 : ∀ f ∈ [R.SEAM_WE_PIP, R.SEAM_WE_REQ, R.SEAM_WE_RESP, R.SEAM_WE_MGMT], M.testBit f.area = true := by
    simp only [List.forall_mem_cons]
    exact ⟨hm.bit (by decide), hm.bit (by decide), hm.bit (by decide), hm.bit (by decide), fun _ h => by cases h⟩
  repeat' first
    | with_reducible assumption
    | with_reducible refine State.setInt_frame ?_ ?_ ?_
    | with_reducible refine State.wf_frame ?_ ?_
    | with_reducible refine State.inc_frame ?_ ?_
    | with_reducible refine State.zipWf_frame ?_ ?_
    | with_reducible exact hm.mono (by decide)
    | with_reducible exact hm.bit (by decide)
    | ((with_reducible refine page_bit (B := ?_) (n := ?_) (k := ?_) hm ?_ ?_ ?_); (on_goal 4 => rfl); all_goals decide)

theorem State.switchMap_frame {anc : State} {M : Nat} {s : State} {r : Nat} {ver : Nat} (hm : Sub 0xe080000000007800000003000001000002 M) (hk : anc.Within M s) : anc.Within M (State.switchMap s r ver) := by
  unfold State.switchMap
  repeat' first
    | with_reducible assumption | with_reducible refine State.setInt_frame ?_ ?_ ?_ | with_reducible refine State.wf_frame ?_ ?_
    | with_reducible refine State.mesh_frame ?_ ?_ | with_reducible refine ite_frame ?_ ?_ | with_reducible exact hm.mono (by decide)
    | with_reducible exact hm.bit (by decide)
    | ((with_reducible refine page_bit (B := ?_) (n := ?_) (k := ?_) hm ?_ ?_ ?_); (on_goal 4 => rfl); all_goals decide)
    | with_reducible exact corePage_bit hm (by decide) (by decide) (by decide) | simp only [or_true, true_and, and_true]
    | with_reducible refine And.intro ?_ ?_ | with_reducible exact .inl (hm.bit (by decide)) | split | dsimp only
    | with_reducible refine State.frame_mk ?_ ?_

theorem State.mapSwitch_frame {anc : State} {M : Nat} {s : State} {r : Nat} {ver : Nat} (hm : Sub 0xe080000000007800000003000001000002 M) (hk : anc.Within M s) : anc.Within M (State.mapSwitch s r ver) := by
  unfold State.mapSwitch
  repeat' first
    | with_reducible assumption | with_reducible refine State.switchMap_frame ?_ ?_ | with_reducible refine ite_frame ?_ ?_
    | with_reducible exact hm.mono (by decide) | with_reducible exact hm.bit (by decide) | simp only [or_true, true_and, and_true]
    | with_reducible refine And.intro ?_ ?_ | with_reducible exact .inl (hm.bit (by decide)) | split | dsimp only
    | with_reducible refine State.frame_mk ?_ ?_

theorem State.mapBroadcast_frame {anc : State} {M : Nat} {s : State} {ver : Nat} (hm : Sub 0xe080000000007800000003000001000002 M) (hk : anc.Within M s) : anc.Within M (State.mapBroadcast s ver) := by
  unfold State.mapBroadcast
  repeat' first
    | with_reducible assumption | with_reducible refine State.mapSwitch_frame ?_ ?_ | with_reducible refine State.each_frame ?_ ?_
    | intro _ | with_reducible exact hm.mono (by decide) | with_reducible exact hm.bit (by decide)
    | simp only [or_true, true_and, and_true] | with_reducible refine And.intro ?_ ?_
    | with_reducible exact .inl (hm.bit (by decide)) | dsimp only | with_reducible refine State.frame_mk ?_ ?_

theorem State.mapWriteAll_frame {anc : State} {M : Nat} {s : State} {ck : Nat} {phys : Nat} {absent : Bool} (hm : Sub 0x1000000 M) (hk : anc.Within M s) : anc.Within M (State.mapWriteAll s ck phys absent) := by
  unfold State.mapWriteAll
  repeat' first
    | with_reducible assumption | with_reducible refine State.wf_frame ?_ ?_ | with_reducible refine State.each_frame ?_ ?_ | intro _
    | with_reducible exact hm.mono (by decide) | with_reducible exact hm.bit (by decide)
    | with_reducible exact mapPhysF_bit hm (by decide) | with_reducible exact mapAbsentF_bit hm (by decide) | dsimp only

theorem State.mapComplete_frame {anc : State} {M : Nat} {s : State} (hm : Sub 0x80000000000000000000000001000000 M) (hk : anc.Within M s) : anc.Within M (State.mapComplete s) := by
  unfold State.mapComplete
  repeat' first
    | with_reducible assumption | with_reducible refine State.wf_frame ?_ ?_ | with_reducible refine State.each_frame ?_ ?_ | intro _
    | with_reducible refine ite_frame ?_ ?_ | with_reducible exact hm.mono (by decide) | with_reducible exact hm.bit (by decide)
    | with_reducible exact mapPhysF_bit hm (by decide) | with_reducible exact mapAbsentF_bit hm (by decide)
    | simp only [or_true, true_and, and_true] | with_reducible refine And.intro ?_ ?_
    | with_reducible exact .inl (hm.bit (by decide)) | split | dsimp only | with_reducible refine State.frame_mk ?_ ?_

theorem State.clockHoldEnd_frame {anc : State} {M : Nat} {s : State} {half : Nat} (hm : Sub 0xe0c0000000007800000003000003000002 M) (hk : anc.Within M s) : anc.Within M (State.clockHoldEnd s half) := by
  unfold State.clockHoldEnd
  repeat' first
    | with_reducible assumption | with_reducible refine State.rescale_frame ?_ ?_ | with_reducible refine State.markHeld_frame ?_ ?_
    | with_reducible refine State.switchMap_frame ?_ ?_ | with_reducible refine State.forwardFlits_frame ?_ ?_
    | with_reducible refine State.orderMeshClock_frame ?_ ?_ | with_reducible refine State.each_frame ?_ ?_ | intro _
    | with_reducible exact hm.mono (by decide) | with_reducible exact hm.bit (by decide) | simp only [or_true, true_and, and_true]
    | with_reducible refine And.intro ?_ ?_ | with_reducible exact .inl (hm.bit (by decide)) | split | dsimp only
    | with_reducible refine State.frame_mk ?_ ?_

theorem State.unmatched_frame {anc : State} {M : Nat} {s : State} {ck : Nat} {p : Pip} (hm : Sub 0xe000000000007800000003000000110002 M) (hk : anc.Within M s) : anc.Within M (State.unmatched s ck p) := by
  unfold State.unmatched
  repeat' first
    | with_reducible assumption | with_reducible refine State.blockErr_frame ?_ ?_ ?_ | with_reducible refine State.inc_frame ?_ ?_
    | with_reducible refine State.notice_frame ?_ ?_ | with_reducible refine State.meshFrom_frame ?_ ?_
    | with_reducible refine ite_frame ?_ ?_ | with_reducible exact hm.mono (by decide) | with_reducible exact hm.bit (by decide)
    | ((with_reducible refine page_bit (B := ?_) (n := ?_) (k := ?_) hm ?_ ?_ ?_); (on_goal 4 => rfl); all_goals decide)
    | with_reducible exact corePage_bit hm (by decide) (by decide) (by decide) | split | dsimp only

theorem State.genMismatch_frame {anc : State} {M : Nat} {s : State} {ck : Nat} {pc : Nat} {p : Pip} (hm : Sub 0xe018000000007800000003000001000002 M) (hk : anc.Within M s) : anc.Within M (State.genMismatch s ck pc p) := by
  unfold State.genMismatch
  repeat' first
    | with_reducible assumption | with_reducible refine State.genDrop_frame ?_ ?_ | with_reducible refine State.meshFrom_frame ?_ ?_
    | with_reducible refine State.setBuf_frame ?_ ?_ | with_reducible refine ite_frame ?_ ?_
    | with_reducible exact hm.mono (by decide) | with_reducible exact hm.bit (by decide) | simp only [or_true, true_and, and_true]
    | with_reducible refine And.intro ?_ ?_ | with_reducible exact .inl (hm.bit (by decide)) | split | dsimp only
    | with_reducible refine State.frame_mk ?_ ?_

theorem State.setSc_frame {anc : State} {M : Nat} {s : State} {ck : Nat} {x : ScSt} (hm : Sub 0x1000000000000000000000000000000 M) (hk : anc.Within M s) : anc.Within M (State.setSc s ck x) := by
  unfold State.setSc
  repeat' first
    | with_reducible assumption | with_reducible exact hm.mono (by decide) | with_reducible exact hm.bit (by decide)
    | simp only [or_true, true_and, and_true] | with_reducible refine And.intro ?_ ?_
    | with_reducible exact .inl (hm.bit (by decide)) | dsimp only | with_reducible refine State.frame_mk ?_ ?_

theorem State.scoreReceive_frame {anc : State} {M : Nat} {s : State} {ck : Nat} {p : Pip} (hm : Sub 0x1000000000080000000000000200000 M) (hk : anc.Within M s) : anc.Within M (State.scoreReceive s ck p) := by
  unfold State.scoreReceive
  repeat' first
    | with_reducible assumption | with_reducible refine State.inc_frame ?_ ?_ | with_reducible refine State.wf_frame ?_ ?_
    | with_reducible refine State.setSc_frame ?_ ?_ | with_reducible exact hm.mono (by decide)
    | with_reducible exact hm.bit (by decide)
    | ((with_reducible refine page_bit (B := ?_) (n := ?_) (k := ?_) hm ?_ ?_ ?_); (on_goal 4 => rfl); all_goals decide)
    | with_reducible exact corePage_bit hm (by decide) (by decide) (by decide) | dsimp only

theorem State.storePip_frame {anc : State} {M : Nat} {s : State} {ck : Nat} {p : Pip} (hm : Sub 0xe009006000007880000003000000310002 M) (hk : anc.Within M s) : anc.Within M (State.storePip s ck p) := by
  unfold State.storePip
  repeat' first
    | with_reducible assumption | with_reducible refine State.unitEv_frame ?_ ?_
    | with_reducible refine State.scoreReceive_frame ?_ ?_ | with_reducible refine State.unmatched_frame ?_ ?_
    | with_reducible refine State.bufPut_frame ?_ ?_ | with_reducible refine State.when_frame ?_ ?_ | intro _
    | with_reducible refine ite_frame ?_ ?_ | with_reducible exact hm.mono (by decide) | split | dsimp only

theorem State.pipReceive_frame {anc : State} {M : Nat} {s : State} {p : Pip} {pc : Nat} {redirected : Bool} (hm : Sub 0xe019006000007880000003000001310002 M) (hk : anc.Within M s) : anc.Within M (State.pipReceive s p pc redirected) := by
  unfold State.pipReceive
  repeat' first
    | with_reducible assumption | with_reducible refine State.notice_frame ?_ ?_ | with_reducible refine State.genDrop_frame ?_ ?_
    | with_reducible refine State.mesh_frame ?_ ?_ | with_reducible refine State.setInt_frame ?_ ?_ ?_
    | with_reducible refine State.inc_frame ?_ ?_ | with_reducible refine State.genMismatch_frame ?_ ?_
    | with_reducible refine State.storePip_frame ?_ ?_ | with_reducible refine ite_frame ?_ ?_
    | with_reducible exact hm.mono (by decide) | with_reducible exact hm.bit (by decide)
    | ((with_reducible refine page_bit (B := ?_) (n := ?_) (k := ?_) hm ?_ ?_ ?_); (on_goal 4 => rfl); all_goals decide)
    | with_reducible exact corePage_bit hm (by decide) (by decide) (by decide) | split | dsimp only

theorem State.takeCredits_frame {anc : State} {M : Nat} {s : State} {ck : Nat} {dest : Nat} {stream : Nat} {n : Nat} {gen : Nat} {grant : Bool} (hm : Sub 0xe004000000007800000003000000000002 M) (hk : anc.Within M s) : anc.Within M (State.takeCredits s ck dest stream n gen grant) := by
  unfold State.takeCredits
  repeat' first
    | with_reducible assumption | with_reducible refine State.meshFrom_frame ?_ ?_ | with_reducible refine State.setChan_frame ?_ ?_
    | with_reducible refine ite_frame ?_ ?_ | with_reducible exact hm.mono (by decide) | split | dsimp only

theorem State.creditsFor_frame {anc : State} {M : Nat} {s : State} {ck : Nat} {dest : Nat} {stream : Nat} {n : Nat} {gen : Nat} {reqGen : Nat} {grant : Bool} (hm : Sub 0xe004000000007800000003000001000002 M) (hk : anc.Within M s) : anc.Within M (State.creditsFor s ck dest stream n gen reqGen grant) := by
  unfold State.creditsFor
  repeat' first
    | with_reducible assumption | with_reducible refine State.genDrop_frame ?_ ?_
    | with_reducible refine State.takeCredits_frame ?_ ?_ | with_reducible refine ite_frame ?_ ?_
    | with_reducible exact hm.mono (by decide) | split | dsimp only

theorem State.refused_frame {anc : State} {M : Nat} {s : State} {ck : Nat} {dest : Nat} {stream : Nat} (hm : Sub 0x4000000007800000000000000000002 M) (hk : anc.Within M s) : anc.Within M (State.refused s ck dest stream) := by
  unfold State.refused
  repeat' first
    | with_reducible assumption | with_reducible refine State.unitEv_frame ?_ ?_ | with_reducible refine State.setChan_frame ?_ ?_
    | with_reducible refine State.when_frame ?_ ?_ | intro _ | with_reducible exact hm.mono (by decide) | split | dsimp only

theorem State.creditRequest_frame {anc : State} {M : Nat} {s : State} {r : CredReq} (hm : Sub 0xe00c000000007800000003000000000002 M) (hk : anc.Within M s) : anc.Within M (State.creditRequest s r) := by
  unfold State.creditRequest
  repeat' first
    | with_reducible assumption | with_reducible refine State.meshFrom_frame ?_ ?_ | with_reducible refine State.refused_frame ?_ ?_
    | with_reducible refine State.takeRequest_frame ?_ ?_ | with_reducible refine ite_frame ?_ ?_
    | with_reducible exact hm.mono (by decide) | split | dsimp only

theorem State.creditRelease_frame {anc : State} {M : Nat} {s : State} {dest : Nat} {stream : Nat} {n : Nat} {gen : Nat} (hm : Sub 0xe008000000007800000003000000000002 M) (hk : anc.Within M s) : anc.Within M (State.creditRelease s dest stream n gen) := by
  unfold State.creditRelease
  repeat' first
    | with_reducible assumption | with_reducible refine State.serveQueue_frame ?_ ?_ | with_reducible refine State.setBuf_frame ?_ ?_
    | with_reducible refine ite_frame ?_ ?_ | with_reducible exact hm.mono (by decide) | split | dsimp only

theorem State.creditIdle_frame {anc : State} {M : Nat} {s : State} {ck : Nat} {dest : Nat} {stream : Nat} (hm : Sub 0xe004000000007800000003000000000002 M) (hk : anc.Within M s) : anc.Within M (State.creditIdle s ck dest stream) := by
  unfold State.creditIdle
  repeat' first
    | with_reducible assumption | with_reducible refine State.meshFrom_frame ?_ ?_ | with_reducible refine ite_frame ?_ ?_
    | with_reducible exact hm.mono (by decide) | with_reducible exact hm.bit (by decide) | simp only [or_true, true_and, and_true]
    | with_reducible refine And.intro ?_ ?_ | with_reducible exact .inl (hm.bit (by decide)) | split | dsimp only
    | with_reducible refine State.frame_mk ?_ ?_

theorem State.noBufferRetry_frame {anc : State} {M : Nat} {s : State} {ck : Nat} {dest : Nat} {stream : Nat} (hm : Sub 0xe004000000007800000003000000000002 M) (hk : anc.Within M s) : anc.Within M (State.noBufferRetry s ck dest stream) := by
  unfold State.noBufferRetry
  repeat' first
    | with_reducible assumption | with_reducible refine State.meshFrom_frame ?_ ?_ | with_reducible refine State.setChan_frame ?_ ?_
    | with_reducible refine ite_frame ?_ ?_ | with_reducible exact hm.mono (by decide) | split | dsimp only

theorem execReexecCheckDone_frame {anc : State} {M : Nat} {ck : Nat} {id : Nat} {n : Nat} {ok : Bool} {vals : List Int} {s : State} (hm : Sub 0xe04e406004007800000003000000030002 M) (hk : anc.Within M s) : ∃ out, execReexecCheckDone ck id n ok vals s = .next out ∧ anc.Within M out := by
  unfold execReexecCheckDone
  refine ⟨_, rfl, ?_⟩
  repeat' first
    | with_reducible assumption | with_reducible refine State.clockPoint_frame ?_ ?_
    | with_reducible refine State.creditWatch_frame ?_ ?_ | with_reducible refine State.checkDone_frame ?_ ?_
    | with_reducible exact hm.mono (by decide) | dsimp only

theorem execSubStepEnd_frame {anc : State} {M : Nat} {e : Nat} {noise : List Int} {s : State} (hm : Sub 0xe04e40e004007800000003000000070002 M) (hk : anc.Within M s) : ∃ out, execSubStepEnd e noise s = .next out ∧ anc.Within M out := by
  unfold execSubStepEnd
  refine ⟨_, rfl, ?_⟩
  repeat' first
    | with_reducible assumption | with_reducible refine State.clockPoint_frame ?_ ?_
    | with_reducible refine State.creditWatch_frame ?_ ?_ | with_reducible refine State.tileDone_frame ?_ ?_
    | with_reducible refine State.subStep_frame ?_ ?_ | with_reducible exact hm.mono (by decide) | dsimp only

theorem execPostUnitDone_frame {anc : State} {M : Nat} {ck : Nat} {s : State} (hm : Sub 0xe040402004007800000003000000030002 M) (hk : anc.Within M s) : ∃ out, execPostUnitDone ck s = .next out ∧ anc.Within M out := by
  unfold execPostUnitDone
  refine ⟨_, rfl, ?_⟩
  repeat' first
    | with_reducible assumption | with_reducible refine State.clockPoint_frame ?_ ?_
    | with_reducible refine State.creditWatch_frame ?_ ?_ | with_reducible refine State.postUnitDone_frame ?_ ?_
    | with_reducible exact hm.mono (by decide) | dsimp only

theorem execStandinResult_frame {anc : State} {M : Nat} {ck : Nat} {id : Nat} {n : Nat} {ok : Bool} {vals : List Int} {s : State} (hm : Sub 0xe04e406004007800000003000000030002 M) (hk : anc.Within M s) : ∃ out, execStandinResult ck id n ok vals s = .next out ∧ anc.Within M out := by
  unfold execStandinResult
  refine ⟨_, rfl, ?_⟩
  repeat' first
    | with_reducible assumption | with_reducible refine State.clockPoint_frame ?_ ?_
    | with_reducible refine State.creditWatch_frame ?_ ?_ | with_reducible refine State.standinResult_frame ?_ ?_
    | with_reducible exact hm.mono (by decide) | dsimp only

theorem execKernelStepEnd_frame {anc : State} {M : Nat} {v : Nat} {ops : List VOp} {s : State} (hm : Sub 0xe04c807c04007800000003000100100002 M) (hk : anc.Within M s) : ∃ out, execKernelStepEnd v ops s = .next out ∧ anc.Within M out := by
  unfold execKernelStepEnd
  refine ⟨_, rfl, ?_⟩
  repeat' first
    | with_reducible assumption | with_reducible refine State.clockPoint_frame ?_ ?_
    | with_reducible refine State.kernelEnd_frame ?_ ?_ | with_reducible exact hm.mono (by decide) | dsimp only

theorem execPipReceive_frame {anc : State} {M : Nat} {p : Pip} {pc : Nat} {redirected : Bool} {s : State} (hm : Sub 0xe019406000007880000003000001330002 M) (hk : anc.Within M s) : ∃ out, execPipReceive p pc redirected s = .next out ∧ anc.Within M out := by
  unfold execPipReceive
  refine ⟨_, rfl, ?_⟩
  repeat' first
    | with_reducible assumption | with_reducible refine State.creditWatch_frame ?_ ?_
    | with_reducible refine State.pipReceive_frame ?_ ?_ | with_reducible exact hm.mono (by decide) | dsimp only

theorem execCreditRequest_frame {anc : State} {M : Nat} {producer : CredFrom} {dest : Nat} {stream : Nat} {n : Nat} {s : State} (hm : Sub 0xe00c000000007800000003000000000002 M) (hk : anc.Within M s) : ∃ out, execCreditRequest producer dest stream n s = .next out ∧ anc.Within M out := by
  unfold execCreditRequest
  refine ⟨_, rfl, ?_⟩
  repeat' first
    | with_reducible assumption | with_reducible refine State.creditRequest_frame ?_ ?_ | with_reducible exact hm.mono (by decide)
    | dsimp only

theorem execCreditGrant_frame {anc : State} {M : Nat} {ck : Nat} {dest : Nat} {stream : Nat} {n : Nat} {g : CredGens} {s : State} (hm : Sub 0xe004400000007800000003000001030002 M) (hk : anc.Within M s) : ∃ out, execCreditGrant ck dest stream n g s = .next out ∧ anc.Within M out := by
  unfold execCreditGrant
  refine ⟨_, rfl, ?_⟩
  repeat' first
    | with_reducible assumption | with_reducible refine State.creditWatch_frame ?_ ?_
    | with_reducible refine State.creditsFor_frame ?_ ?_ | with_reducible exact hm.mono (by decide) | dsimp only

theorem execCreditReturn_frame {anc : State} {M : Nat} {ck : Nat} {dest : Nat} {stream : Nat} {n : Nat} {g : CredGens} {s : State} (hm : Sub 0xe004400000007800000003000001030002 M) (hk : anc.Within M s) : ∃ out, execCreditReturn ck dest stream n g s = .next out ∧ anc.Within M out := by
  unfold execCreditReturn
  refine ⟨_, rfl, ?_⟩
  repeat' first
    | with_reducible assumption | with_reducible refine State.creditWatch_frame ?_ ?_
    | with_reducible refine State.creditsFor_frame ?_ ?_ | with_reducible exact hm.mono (by decide) | dsimp only

theorem execCreditRelease_frame {anc : State} {M : Nat} {dest : Nat} {stream : Nat} {n : Nat} {gen : Nat} {s : State} (hm : Sub 0xe008000000007800000003000000000002 M) (hk : anc.Within M s) : ∃ out, execCreditRelease dest stream n gen s = .next out ∧ anc.Within M out := by
  unfold execCreditRelease
  refine ⟨_, rfl, ?_⟩
  repeat' first
    | with_reducible assumption | with_reducible refine State.creditRelease_frame ?_ ?_ | with_reducible exact hm.mono (by decide)
    | dsimp only

theorem execCreditIdle_frame {anc : State} {M : Nat} {ck : Nat} {dest : Nat} {stream : Nat} {s : State} (hm : Sub 0xe004000000007800000003000000000002 M) (hk : anc.Within M s) : ∃ out, execCreditIdle ck dest stream s = .next out ∧ anc.Within M out := by
  unfold execCreditIdle
  refine ⟨_, rfl, ?_⟩
  repeat' first
    | with_reducible assumption | with_reducible refine State.creditIdle_frame ?_ ?_ | with_reducible exact hm.mono (by decide)
    | dsimp only

theorem execNoBufferRetry_frame {anc : State} {M : Nat} {ck : Nat} {dest : Nat} {stream : Nat} {s : State} (hm : Sub 0xe004000000007800000003000000000002 M) (hk : anc.Within M s) : ∃ out, execNoBufferRetry ck dest stream s = .next out ∧ anc.Within M out := by
  unfold execNoBufferRetry
  refine ⟨_, rfl, ?_⟩
  repeat' first
    | with_reducible assumption | with_reducible refine State.noBufferRetry_frame ?_ ?_ | with_reducible exact hm.mono (by decide)
    | dsimp only

theorem execMapSwitchComplete_frame {anc : State} {M : Nat} {s : State} (hm : Sub 0x80000000000000000000000001000000 M) (hk : anc.Within M s) : ∃ out, execMapSwitchComplete s = .next out ∧ anc.Within M out := by
  unfold execMapSwitchComplete
  refine ⟨_, rfl, ?_⟩
  repeat' first
    | with_reducible assumption | with_reducible refine State.mapComplete_frame ?_ ?_ | with_reducible exact hm.mono (by decide)
    | dsimp only

theorem execClockHoldEnd_frame {anc : State} {M : Nat} {half : Nat} {s : State} (hm : Sub 0xe0c0000000007800000003000003000002 M) (hk : anc.Within M s) : ∃ out, execClockHoldEnd half s = .next out ∧ anc.Within M out := by
  unfold execClockHoldEnd
  refine ⟨_, rfl, ?_⟩
  repeat' first
    | with_reducible assumption | with_reducible refine State.clockHoldEnd_frame ?_ ?_ | with_reducible exact hm.mono (by decide)
    | dsimp only

end Sys2Proof.Machine
end

