-- ==== Sys2Proof/Laws/Frame/Serving.lean ====
section
/-! SUPPORT. Every operation and meaning of Machine/Serving.lean changes only the register areas and parts of the state its mask names. -/

namespace Sys2Proof.Machine

set_option linter.unreachableTactic false
set_option linter.unusedTactic false

theorem State.setBalance_frame {anc : State} {M : Nat} {s : State} {t : Nat} {b : Int} (hm : Sub 0x200000000000000 M) (hk : anc.Within M s) : anc.Within M (State.setBalance s t b) := by
  unfold State.setBalance
  repeat' first
    | with_reducible assumption | with_reducible refine State.wf_frame ?_ ?_ | with_reducible exact hm.mono (by decide)
    | with_reducible exact hm.bit (by decide) | dsimp only

theorem State.refill_frame {anc : State} {M : Nat} {s : State} {t : Nat} (hm : Sub 0x100000000000200000000000000 M) (hk : anc.Within M s) : anc.Within M (State.refill s t) := by
  unfold State.refill
  repeat' first
    | with_reducible assumption | with_reducible refine State.wf_frame ?_ ?_ | with_reducible refine State.setBalance_frame ?_ ?_
    | with_reducible refine ite_frame ?_ ?_ | with_reducible exact hm.mono (by decide) | with_reducible exact hm.bit (by decide)
    | simp only [or_true, true_and, and_true] | with_reducible refine And.intro ?_ ?_
    | with_reducible exact .inl (hm.bit (by decide)) | split | dsimp only | with_reducible refine State.frame_mk ?_ ?_

theorem State.debit_frame {anc : State} {M : Nat} {s : State} {t : Nat} {n : Nat} {decode : Bool} (hm : Sub 0x100000000000200000000000000 M) (hk : anc.Within M s) : anc.Within M (State.debit s t n decode) := by
  unfold State.debit
  repeat' first
    | with_reducible assumption | with_reducible refine State.refill_frame ?_ ?_ | with_reducible refine State.inc_frame ?_ ?_
    | with_reducible refine State.setBalance_frame ?_ ?_ | with_reducible refine ite_frame ?_ ?_
    | with_reducible exact hm.mono (by decide) | with_reducible exact hm.bit (by decide)
    | ((with_reducible refine page_bit (B := ?_) (n := ?_) (k := ?_) hm ?_ ?_ ?_); (on_goal 4 => rfl); all_goals decide)
    | with_reducible exact corePage_bit hm (by decide) (by decide) (by decide) | split | dsimp only

theorem State.accountEnable_frame {anc : State} {M : Nat} {s : State} {t : Nat} (hm : Sub 0x100000000000200000000000000 M) (hk : anc.Within M s) : anc.Within M (State.accountEnable s t) := by
  unfold State.accountEnable
  repeat' first
    | with_reducible assumption | with_reducible refine State.wf_frame ?_ ?_ | with_reducible refine State.setBalance_frame ?_ ?_
    | with_reducible exact hm.mono (by decide) | with_reducible exact hm.bit (by decide) | simp only [or_true, true_and, and_true]
    | with_reducible refine And.intro ?_ ?_ | with_reducible exact .inl (hm.bit (by decide)) | dsimp only
    | with_reducible refine State.frame_mk ?_ ?_

theorem State.accountRate_frame {anc : State} {M : Nat} {s : State} {t : Nat} {rate : Nat} {depth : Nat} (hm : Sub 0x100000000000200000000000000 M) (hk : anc.Within M s) : anc.Within M (State.accountRate s t rate depth) := by
  unfold State.accountRate
  repeat' first
    | with_reducible assumption | with_reducible refine State.wf_frame ?_ ?_ | with_reducible refine State.refill_frame ?_ ?_
    | with_reducible refine State.setBalance_frame ?_ ?_ | with_reducible refine ite_frame ?_ ?_
    | with_reducible exact hm.mono (by decide) | with_reducible exact hm.bit (by decide) | split | dsimp only

theorem State.mayDebit_frame {anc : State} {M : Nat} {s : State} {r : Req} (hm : Sub 0x104001800000300000000000000 M) (hk : anc.Within M s) : anc.Within M (State.mayDebit s r).2 := by
  unfold State.mayDebit
  repeat' first
    | with_reducible assumption | with_reducible refine State.refill_frame ?_ ?_ | with_reducible refine State.setReq_frame ?_ ?_
    | with_reducible refine State.setInt_frame ?_ ?_ ?_ | with_reducible refine State.inc_frame ?_ ?_
    | with_reducible refine ite_frame ?_ ?_ | with_reducible refine ite_frame2 ?_ ?_ | with_reducible refine ite_frame3 ?_ ?_
    | with_reducible exact hm.mono (by decide) | with_reducible exact hm.bit (by decide)
    | ((with_reducible refine page_bit (B := ?_) (n := ?_) (k := ?_) hm ?_ ?_ ?_); (on_goal 4 => rfl); all_goals decide)
    | with_reducible exact corePage_bit hm (by decide) (by decide) (by decide) | split | dsimp only

theorem State.mayDebit_frame_eq {anc : State} {M : Nat} {s : State} {r : Req} (hm : Sub 0x104001800000300000000000000 M) {r0 tz} (heqx : State.mayDebit s r = (r0, tz)) (hk : anc.Within M s) : anc.Within M tz := by
  have := State.mayDebit_frame (s := s) (r := r) hm hk
  rwa [heqx] at this

theorem State.countRefusal_frame {anc : State} {M : Nat} {s : State} {status : Nat} {tenant : Nat} (hm : Sub 0x1800000300000000000000 M) (hk : anc.Within M s) : anc.Within M (State.countRefusal s status tenant) := by
  unfold State.countRefusal
  repeat' first
    | with_reducible assumption | with_reducible refine State.setInt_frame ?_ ?_ ?_ | with_reducible refine State.inc_frame ?_ ?_
    | with_reducible refine ite_frame ?_ ?_ | with_reducible exact hm.mono (by decide) | with_reducible exact hm.bit (by decide)
    | ((with_reducible refine page_bit (B := ?_) (n := ?_) (k := ?_) hm ?_ ?_ ?_); (on_goal 4 => rfl); all_goals decide)
    | with_reducible exact corePage_bit hm (by decide) (by decide) (by decide) | split | dsimp only

theorem State.refuseServe_frame {anc : State} {M : Nat} {s : State} {c : Cmd} {status : Nat} {id : Nat} {tenant : Nat} (hm : Sub 0x8000000000321800000300030000000000 M) (hk : anc.Within M s) : anc.Within M (State.refuseServe s c status id tenant) := by
  unfold State.refuseServe
  repeat' first
    | with_reducible assumption | with_reducible refine State.countRefusal_frame ?_ ?_
    | with_reducible refine State.reply_frame ?_ ?_ | with_reducible exact hm.mono (by decide) | dsimp only

theorem State.reserveAll_frame {anc : State} {M : Nat} {s : State} {slot n : Nat} {l : List Nat} {t : State} (hm : Sub 0x200000000000000000000000000 M)
    (heqx : State.reserveAll s slot n l = some t) (hk : anc.Within M s) : anc.Within M t := by
  induction l generalizing s with
  | nil =>
    simp only [State.reserveAll, Option.some.injEq] at heqx
    exact heqx ▸ hk
  | cons x l ih =>
    simp only [State.reserveAll] at heqx
    split at heqx
    · cases heqx
    · refine ih heqx ?_
      exact State.kvReserve_frame_eq hm ‹_› hk

theorem State.ctxOpen_frame {anc : State} {M : Nat} {s : State} {c : Cmd} (hm : Sub 0x18000000203321800000300030000000000 M) (hk : anc.Within M s) : anc.Within M (State.ctxOpen s c) := by
  unfold State.ctxOpen
  repeat' first
    | with_reducible assumption | with_reducible refine State.refuseServe_frame ?_ ?_
    | refine State.reserveAll_frame ?_ (by with_reducible assumption) ?_ | with_reducible refine State.draw_frame ?_ ?_
    | refine State.draw_frame_eq ?_ (by with_reducible assumption) ?_ | with_reducible refine State.countServe_frame ?_ ?_
    | with_reducible refine State.reply_frame ?_ ?_ | with_reducible refine ite_frame ?_ ?_
    | with_reducible exact hm.mono (by decide) | with_reducible exact hm.bit (by decide) | simp only [or_true, true_and, and_true]
    | with_reducible refine And.intro ?_ ?_ | with_reducible exact .inl (hm.bit (by decide)) | split | dsimp only
    | with_reducible refine State.frame_mk ?_ ?_

theorem State.ctxDrop_frame {anc : State} {M : Nat} {s : State} {handle : Nat} {x : Ctx} (hm : Sub 0x2803e01007800000300000100110002 M) (hk : anc.Within M s) : anc.Within M (State.ctxDrop s handle x) := by
  unfold State.ctxDrop
  repeat' first
    | with_reducible assumption | with_reducible refine State.releaseCtx_frame ?_ ?_
    | with_reducible refine State.clearSlot_frame ?_ ?_ | with_reducible refine State.countServe_frame ?_ ?_
    | with_reducible refine State.clearVResids_frame ?_ ?_ | with_reducible refine State.each_frame ?_ ?_ | intro _
    | with_reducible exact hm.mono (by decide) | with_reducible exact hm.bit (by decide) | simp only [or_true, true_and, and_true]
    | with_reducible refine And.intro ?_ ?_ | with_reducible exact .inl (hm.bit (by decide)) | dsimp only
    | with_reducible refine State.frame_mk ?_ ?_

theorem State.ctxClose_frame {anc : State} {M : Nat} {s : State} {c : Cmd} (hm : Sub 0x8002803e01327800000300030100110002 M) (hk : anc.Within M s) : anc.Within M (State.ctxClose s c) := by
  unfold State.ctxClose
  repeat' first
    | with_reducible assumption | with_reducible refine State.refuseServe_frame ?_ ?_
    | with_reducible refine State.ctxDrop_frame ?_ ?_ | with_reducible refine State.reply_frame ?_ ?_
    | with_reducible refine ite_frame ?_ ?_ | with_reducible exact hm.mono (by decide) | split | dsimp only

theorem State.submit_frame {anc : State} {M : Nat} {s : State} {c : Cmd} (hm : Sub 0x8000000005321800000700030000000000 M) (hk : anc.Within M s) : anc.Within M (State.submit s c) := by
  unfold State.submit
  repeat' first
    | with_reducible assumption | with_reducible refine State.refuseServe_frame ?_ ?_
    | with_reducible refine State.setCtx_frame ?_ ?_ | with_reducible refine State.wf_frame ?_ ?_
    | with_reducible refine State.setRec_frame ?_ ?_ | with_reducible refine State.countServe_frame ?_ ?_
    | with_reducible refine State.inc_frame ?_ ?_ | with_reducible refine State.issueRead_frame ?_ ?_
    | with_reducible refine State.reply_frame ?_ ?_ | with_reducible refine State.when_frame ?_ ?_ | intro _
    | with_reducible refine ite_frame ?_ ?_ | with_reducible exact hm.mono (by decide) | with_reducible exact hm.bit (by decide)
    | ((with_reducible refine page_bit (B := ?_) (n := ?_) (k := ?_) hm ?_ ?_ ?_); (on_goal 4 => rfl); all_goals decide)
    | with_reducible exact corePage_bit hm (by decide) (by decide) (by decide) | simp only [or_true, true_and, and_true]
    | with_reducible refine And.intro ?_ ?_ | with_reducible exact .inl (hm.bit (by decide)) | split | dsimp only
    | with_reducible refine State.frame_mk ?_ ?_

theorem State.promptDone_frame {anc : State} {M : Nat} {s0 : State} {id : Nat} {ok : Bool} {tokens : List Nat} (hm : Sub 0x8000803e3d207800000700030100110002 M) (hk : anc.Within M s0) : anc.Within M (State.promptDone s0 id ok tokens) := by
  unfold State.promptDone
  repeat' first
    | with_reducible assumption | with_reducible refine State.readDone_frame ?_ ?_ | with_reducible refine State.setReq_frame ?_ ?_
    | with_reducible refine State.endRequest_frame ?_ ?_ | with_reducible refine ite_frame ?_ ?_
    | with_reducible exact hm.mono (by decide) | split | dsimp only

theorem State.cancel_frame {anc : State} {M : Nat} {s : State} {c : Cmd} (hm : Sub 0x8000803e3d327800000700030100110002 M) (hk : anc.Within M s) : anc.Within M (State.cancel s c) := by
  unfold State.cancel
  repeat' first
    | with_reducible assumption | with_reducible refine State.setRec_frame ?_ ?_ | with_reducible refine State.fixOutcome_frame ?_ ?_
    | with_reducible refine State.reply_frame ?_ ?_ | with_reducible refine State.endWhenIdle_frame ?_ ?_
    | with_reducible refine State.inc_frame ?_ ?_ | with_reducible refine State.setReq_frame ?_ ?_
    | with_reducible exact hm.mono (by decide) | with_reducible exact hm.bit (by decide)
    | ((with_reducible refine page_bit (B := ?_) (n := ?_) (k := ?_) hm ?_ ?_ ?_); (on_goal 4 => rfl); all_goals decide)
    | with_reducible exact corePage_bit hm (by decide) (by decide) (by decide) | simp only [or_true, true_and, and_true]
    | with_reducible refine And.intro ?_ ?_ | with_reducible exact .inl (hm.bit (by decide)) | split | dsimp only
    | with_reducible refine State.frame_mk ?_ ?_

theorem State.inquire_frame {anc : State} {M : Nat} {s : State} {c : Cmd} (hm : Sub 0x8000000000320000000000030000000000 M) (hk : anc.Within M s) : anc.Within M (State.inquire s c) := by
  unfold State.inquire
  repeat' first
    | with_reducible assumption | with_reducible refine State.reply_frame ?_ ?_ | with_reducible refine ite_frame ?_ ?_
    | with_reducible exact hm.mono (by decide) | split | dsimp only

theorem State.redeliver_frame {anc : State} {M : Nat} {s : State} {r : Nat} (hm : Sub 0x8000000010200000000400030000000000 M) (hk : anc.Within M s) : anc.Within M (State.redeliver s r) := by
  unfold State.redeliver
  repeat' first
    | with_reducible assumption | with_reducible refine State.setRing_frame ?_ ?_ | with_reducible refine State.sendQp_frame ?_ ?_
    | with_reducible refine State.ringDeliver_frame ?_ ?_ | with_reducible refine ite_frame ?_ ?_
    | with_reducible exact hm.mono (by decide) | split | dsimp only

theorem State.ringSetup_frame {anc : State} {M : Nat} {s : State} {c : Cmd} (hm : Sub 0x8000000010321800000700030000000000 M) (hk : anc.Within M s) : anc.Within M (State.ringSetup s c) := by
  unfold State.ringSetup
  repeat' first
    | with_reducible assumption | with_reducible refine State.wf_frame ?_ ?_ | with_reducible refine State.refuseServe_frame ?_ ?_
    | with_reducible refine State.redeliver_frame ?_ ?_ | with_reducible refine State.reply_frame ?_ ?_
    | with_reducible refine State.setRing_frame ?_ ?_ | with_reducible refine ite_frame ?_ ?_
    | with_reducible exact hm.mono (by decide) | with_reducible exact hm.bit (by decide) | split | dsimp only

theorem State.writeStreams_frame {anc : State} {M : Nat} {s : State} {r : Req} {slot : Nat} {x : Ctx} (hm : Sub 0x2000000000000000000000010000 M) (hk : anc.Within M s) : anc.Within M (State.writeStreams s r slot x) := by
  unfold State.writeStreams
  repeat' first
    | with_reducible assumption | with_reducible refine State.sramWrite_frame ?_ ?_ | with_reducible refine State.each_frame ?_ ?_
    | intro _ | with_reducible exact hm.mono (by decide) | split | dsimp only

theorem State.activateNext_frame {anc : State} {M : Nat} {s : State} {v : Nat} (hm : Sub 0x2004000000000300000000010000 M) (hk : anc.Within M s) : anc.Within M (State.activateNext s v) := by
  unfold State.activateNext
  repeat' first
    | with_reducible assumption | with_reducible refine State.writeStreams_frame ?_ ?_
    | with_reducible refine State.countServe_frame ?_ ?_ | with_reducible refine State.setReq_frame ?_ ?_
    | with_reducible exact hm.mono (by decide) | split | dsimp only

theorem State.dispatch_frame {anc : State} {M : Nat} {s : State} {r : Req} {n : Nat} {token : Nat} (hm : Sub 0xe000000000007800000003000000000002 M) (hk : anc.Within M s) : anc.Within M (State.dispatch s r n token) := by
  unfold State.dispatch
  repeat' first
    | with_reducible assumption | with_reducible refine State.mesh_frame ?_ ?_ | with_reducible exact hm.mono (by decide)
    | dsimp only

theorem State.decodeOne_frame {anc : State} {M : Nat} {s : State} {r : Req} (hm : Sub 0xe000000104007800000303000000000002 M) (hk : anc.Within M s) : anc.Within M (State.decodeOne s r) := by
  unfold State.decodeOne
  repeat' first
    | with_reducible assumption | with_reducible refine State.mayDebit_frame ?_ ?_
    | refine State.mayDebit_frame_eq ?_ (by with_reducible assumption) ?_ | with_reducible refine State.inc_frame ?_ ?_
    | with_reducible refine State.setReq_frame ?_ ?_ | with_reducible refine State.dispatch_frame ?_ ?_
    | with_reducible refine State.debit_frame ?_ ?_ | with_reducible exact hm.mono (by decide)
    | with_reducible exact hm.bit (by decide)
    | ((with_reducible refine page_bit (B := ?_) (n := ?_) (k := ?_) hm ?_ ?_ ?_); (on_goal 4 => rfl); all_goals decide)
    | with_reducible exact corePage_bit hm (by decide) (by decide) (by decide) | split | dsimp only

theorem State.decodeTurn_frame {anc : State} {M : Nat} {s : State} {v : Nat} (hm : Sub 0xe000000104007800000303000000000002 M) (hk : anc.Within M s) : anc.Within M (State.decodeTurn s v) := by
  unfold State.decodeTurn
  repeat' first
    | with_reducible assumption | with_reducible refine State.decodeOne_frame ?_ ?_ | with_reducible refine State.each_frame ?_ ?_
    | intro _ | with_reducible exact hm.mono (by decide) | dsimp only

theorem State.prefillFrom_frame {anc : State} {M : Nat} {s : State} {v : Nat} {x2 : List Req} (hm : Sub 0xe000000144007800000303000000000002 M) (hk : anc.Within M s) : anc.Within M (State.prefillFrom s v x2) := by
  induction x2 generalizing s with
  | nil =>
  simp only [State.prefillFrom]
  try repeat' first
    | with_reducible assumption | with_reducible refine State.inc_frame ?_ ?_ | with_reducible refine State.dispatch_frame ?_ ?_
    | with_reducible refine State.setVar_frame ?_ ?_ | with_reducible refine State.debit_frame ?_ ?_
    | with_reducible refine State.mayDebit_frame ?_ ?_ | refine State.mayDebit_frame_eq ?_ (by with_reducible assumption) ?_
    | with_reducible refine State.setReq_frame ?_ ?_ | with_reducible refine State.each_frame ?_ ?_
    | with_reducible refine foldl_frame ?_ ?_ | with_reducible refine foldl_frame_pair ?_ ?_
    | with_reducible refine foldl_frame_triple ?_ ?_ | with_reducible refine State.when_frame ?_ ?_ | intro _
    | with_reducible refine ite_frame ?_ ?_ | with_reducible exact hm.mono (by decide) | with_reducible exact hm.bit (by decide)
    | ((with_reducible refine page_bit (B := ?_) (n := ?_) (k := ?_) hm ?_ ?_ ?_); (on_goal 4 => rfl); all_goals decide)
    | with_reducible exact corePage_bit hm (by decide) (by decide) (by decide) | simp only [or_true, true_and, and_true]
    | with_reducible refine And.intro ?_ ?_ | with_reducible exact .inl (hm.bit (by decide)) | split | dsimp only
    | with_reducible refine State.frame_mk ?_ ?_
  | cons y l ih =>
  simp only [State.prefillFrom]
  repeat' first
    | with_reducible assumption | with_reducible apply ih | with_reducible refine State.inc_frame ?_ ?_ | with_reducible refine State.dispatch_frame ?_ ?_
    | with_reducible refine State.setVar_frame ?_ ?_ | with_reducible refine State.debit_frame ?_ ?_
    | with_reducible refine State.mayDebit_frame ?_ ?_ | refine State.mayDebit_frame_eq ?_ (by with_reducible assumption) ?_
    | with_reducible refine State.setReq_frame ?_ ?_ | with_reducible refine State.each_frame ?_ ?_
    | with_reducible refine foldl_frame ?_ ?_ | with_reducible refine foldl_frame_pair ?_ ?_
    | with_reducible refine foldl_frame_triple ?_ ?_ | with_reducible refine State.when_frame ?_ ?_ | intro _
    | with_reducible refine ite_frame ?_ ?_ | with_reducible exact hm.mono (by decide) | with_reducible exact hm.bit (by decide)
    | ((with_reducible refine page_bit (B := ?_) (n := ?_) (k := ?_) hm ?_ ?_ ?_); (on_goal 4 => rfl); all_goals decide)
    | with_reducible exact corePage_bit hm (by decide) (by decide) (by decide) | simp only [or_true, true_and, and_true]
    | with_reducible refine And.intro ?_ ?_ | with_reducible exact .inl (hm.bit (by decide)) | split | dsimp only
    | with_reducible refine State.frame_mk ?_ ?_

theorem State.prefillTurn_frame {anc : State} {M : Nat} {s : State} {v : Nat} (hm : Sub 0xe000000144007800000303000000000002 M) (hk : anc.Within M s) : anc.Within M (State.prefillTurn s v) := by
  unfold State.prefillTurn
  repeat' first
    | with_reducible assumption | with_reducible refine State.prefillFrom_frame ?_ ?_ | with_reducible exact hm.mono (by decide)
    | dsimp only

theorem State.dispatchTurn_frame {anc : State} {M : Nat} {s : State} {v : Nat} (hm : Sub 0xe000000144007800000303000000000002 M) (hk : anc.Within M s) : anc.Within M (State.dispatchTurn s v) := by
  unfold State.dispatchTurn
  repeat' first
    | with_reducible assumption | with_reducible refine State.setVar_frame ?_ ?_ | with_reducible refine State.decodeTurn_frame ?_ ?_
    | with_reducible refine State.prefillTurn_frame ?_ ?_ | with_reducible refine ite_frame ?_ ?_
    | with_reducible exact hm.mono (by decide) | split | dsimp only

theorem State.starve_frame {anc : State} {M : Nat} {s : State} {id : Nat} (hm : Sub 0x44000000000100000000000000 M) (hk : anc.Within M s) : anc.Within M (State.starve s id) := by
  unfold State.starve
  repeat' first
    | with_reducible assumption | with_reducible refine State.inc_frame ?_ ?_ | with_reducible refine State.setReq_frame ?_ ?_
    | with_reducible refine State.setVar_frame ?_ ?_ | with_reducible refine ite_frame ?_ ?_
    | with_reducible exact hm.mono (by decide) | with_reducible exact hm.bit (by decide)
    | ((with_reducible refine page_bit (B := ?_) (n := ?_) (k := ?_) hm ?_ ?_ ?_); (on_goal 4 => rfl); all_goals decide)
    | with_reducible exact corePage_bit hm (by decide) (by decide) (by decide) | split | dsimp only

theorem State.positionDone_frame {anc : State} {M : Nat} {s : State} {id : Nat} {hollow : Bool} {token : Nat} (hm : Sub 0x803e7d007800000700000100110002 M) (hk : anc.Within M s) : anc.Within M (State.positionDone s id hollow token) := by
  unfold State.positionDone
  repeat' first
    | with_reducible assumption | with_reducible refine State.setReq_frame ?_ ?_ | with_reducible refine State.setsBack_frame ?_ ?_
    | with_reducible refine State.endWhenIdle_frame ?_ ?_ | with_reducible refine State.endRequest_frame ?_ ?_
    | with_reducible refine State.setCtx_frame ?_ ?_ | with_reducible refine ite_frame ?_ ?_
    | with_reducible exact hm.mono (by decide) | with_reducible exact hm.bit (by decide) | simp only [or_true, true_and, and_true]
    | with_reducible refine And.intro ?_ ?_ | with_reducible exact .inl (hm.bit (by decide)) | split | dsimp only
    | with_reducible refine State.frame_mk ?_ ?_

theorem State.abnormalEnd_frame {anc : State} {M : Nat} {s : State} {id : Nat} {status : Nat} {lost : Nat} (hm : Sub 0x803e7d007800000700000100110002 M) (hk : anc.Within M s) : anc.Within M (State.abnormalEnd s id status lost) := by
  unfold State.abnormalEnd
  repeat' first
    | with_reducible assumption | with_reducible refine State.endRequest_frame ?_ ?_ | with_reducible refine State.setReq_frame ?_ ?_
    | with_reducible refine State.setsBack_frame ?_ ?_ | with_reducible refine ite_frame ?_ ?_
    | with_reducible exact hm.mono (by decide) | split | dsimp only

theorem State.deadline_frame {anc : State} {M : Nat} {s : State} {id : Nat} (hm : Sub 0x803e3d007800000700000100110002 M) (hk : anc.Within M s) : anc.Within M (State.deadline s id) := by
  unfold State.deadline
  repeat' first
    | with_reducible assumption | with_reducible refine State.endRequest_frame ?_ ?_ | with_reducible refine ite_frame ?_ ?_
    | with_reducible exact hm.mono (by decide) | split | dsimp only

theorem State.preempt_frame {anc : State} {M : Nat} {s : State} {v : Nat} (hm : Sub 0x803e3d007800000700000100110002 M) (hk : anc.Within M s) : anc.Within M (State.preempt s v) := by
  unfold State.preempt
  repeat' first
    | with_reducible assumption | with_reducible refine State.endRequest_frame ?_ ?_ | with_reducible refine State.each_frame ?_ ?_
    | intro _ | with_reducible exact hm.mono (by decide) | dsimp only

theorem State.drainStart_frame {anc : State} {M : Nat} {s : State} {v : Nat} {preempt : Bool} (hm : Sub 0x803e7d007800000700000100110002 M) (hk : anc.Within M s) : anc.Within M (State.drainStart s v preempt) := by
  unfold State.drainStart
  repeat' first
    | with_reducible assumption | with_reducible refine State.wf_frame ?_ ?_ | with_reducible refine State.setVState_frame ?_ ?_
    | with_reducible refine State.setVar_frame ?_ ?_ | with_reducible refine State.drainContexts_frame ?_ ?_
    | with_reducible refine State.preempt_frame ?_ ?_ | with_reducible refine State.when_frame ?_ ?_ | intro _
    | with_reducible exact hm.mono (by decide) | with_reducible exact hm.bit (by decide) | dsimp only

theorem State.drainLimit_frame {anc : State} {M : Nat} {s : State} {v : Nat} (hm : Sub 0x803e3d007800000700000100110002 M) (hk : anc.Within M s) : anc.Within M (State.drainLimit s v) := by
  unfold State.drainLimit
  repeat' first
    | with_reducible assumption | with_reducible refine State.preempt_frame ?_ ?_ | with_reducible refine ite_frame ?_ ?_
    | with_reducible exact hm.mono (by decide) | split | dsimp only

theorem State.retire_frame {anc : State} {M : Nat} {s : State} {c : Cmd} (hm : Sub 0x8000803e7d327800000700030100110002 M) (hk : anc.Within M s) : anc.Within M (State.retire s c) := by
  unfold State.retire
  repeat' first
    | with_reducible assumption | with_reducible refine State.refuseServe_frame ?_ ?_
    | with_reducible refine State.replyEarly_frame ?_ ?_ | with_reducible refine State.setVar_frame ?_ ?_
    | with_reducible refine State.drainStart_frame ?_ ?_ | with_reducible refine ite_frame ?_ ?_
    | with_reducible exact hm.mono (by decide) | split | dsimp only

theorem State.drainDispatch_frame {anc : State} {M : Nat} {s : State} {v : Nat} (hm : Sub 0xe000000040007800000103000000000002 M) (hk : anc.Within M s) : anc.Within M (State.drainDispatch s v) := by
  unfold State.drainDispatch
  repeat' first
    | with_reducible assumption | with_reducible refine State.mesh_frame ?_ ?_ | with_reducible refine State.setVar_frame ?_ ?_
    | with_reducible refine ite_frame ?_ ?_ | with_reducible exact hm.mono (by decide) | split | dsimp only

theorem State.clearEpoch_frame {anc : State} {M : Nat} {s : State} {v : Nat} {ep : Nat} (hm : Sub 0x8000480401078000001000001000c0002 M) (hk : anc.Within M s) : anc.Within M (State.clearEpoch s v ep) := by
  unfold State.clearEpoch
  repeat' first
    | with_reducible assumption | with_reducible refine State.tryOwed_frame ?_ ?_ | with_reducible refine State.retrack_frame ?_ ?_
    | with_reducible refine State.wf_frame ?_ ?_ | with_reducible refine State.each_frame ?_ ?_ | intro _
    | with_reducible refine ite_frame ?_ ?_ | with_reducible exact hm.mono (by decide) | with_reducible exact hm.bit (by decide)
    | with_reducible exact epochBankF_bit hm (by decide) | simp only [or_true, true_and, and_true]
    | with_reducible refine And.intro ?_ ?_ | with_reducible exact .inl (hm.bit (by decide)) | split | dsimp only
    | with_reducible refine State.frame_mk ?_ ?_

theorem State.drained_frame {anc : State} {M : Nat} {s : State} {v : Nat} (hm : Sub 0x8000480401078000001000001000c0002 M) (hk : anc.Within M s) : anc.Within M (State.drained s v) := by
  unfold State.drained
  repeat' first
    | with_reducible assumption | with_reducible refine State.setInt_frame ?_ ?_ ?_
    | with_reducible refine State.setVState_frame ?_ ?_ | with_reducible refine State.clearEpoch_frame ?_ ?_
    | with_reducible refine State.finalRec_frame ?_ ?_ | with_reducible refine State.setVar_frame ?_ ?_
    | with_reducible exact hm.mono (by decide) | with_reducible exact hm.bit (by decide)
    | ((with_reducible refine page_bit (B := ?_) (n := ?_) (k := ?_) hm ?_ ?_ ?_); (on_goal 4 => rfl); all_goals decide)
    | with_reducible exact corePage_bit hm (by decide) (by decide) (by decide) | simp only [or_true, true_and, and_true]
    | with_reducible refine And.intro ?_ ?_ | with_reducible exact .inl (hm.bit (by decide)) | split | dsimp only
    | with_reducible refine State.frame_mk ?_ ?_

theorem State.drainArrival_frame {anc : State} {M : Nat} {s : State} {v : Nat} (hm : Sub 0x8000480401078000001000001000c0002 M) (hk : anc.Within M s) : anc.Within M (State.drainArrival s v) := by
  unfold State.drainArrival
  repeat' first
    | with_reducible assumption | with_reducible refine State.drained_frame ?_ ?_ | with_reducible refine ite_frame ?_ ?_
    | with_reducible exact hm.mono (by decide) | split | dsimp only

theorem State.commitDoorbell_frame {anc : State} {M : Nat} {s : State} {op : Nat} (hm : Sub 0x803e3d007800000700000100110002 M) (hk : anc.Within M s) : anc.Within M (State.commitDoorbell s op) := by
  unfold State.commitDoorbell
  repeat' first
    | with_reducible assumption | with_reducible refine State.takeDoorbell_frame ?_ ?_ | with_reducible refine ite_frame ?_ ?_
    | with_reducible exact hm.mono (by decide) | with_reducible exact hm.bit (by decide) | simp only [or_true, true_and, and_true]
    | with_reducible refine And.intro ?_ ?_ | with_reducible exact .inl (hm.bit (by decide)) | split | dsimp only
    | with_reducible refine State.frame_mk ?_ ?_

theorem State.tailAck_frame {anc : State} {M : Nat} {s : State} {r : Nat} (hm : Sub 0x10000000000400000000000000 M) (hk : anc.Within M s) : anc.Within M (State.tailAck s r) := by
  unfold State.tailAck
  repeat' first
    | with_reducible assumption | with_reducible refine State.wf_frame ?_ ?_ | with_reducible refine State.setRing_frame ?_ ?_
    | with_reducible exact hm.mono (by decide) | with_reducible exact hm.bit (by decide) | split | dsimp only

theorem execCtxOpen_frame {anc : State} {M : Nat} {c : Cmd} {s : State} (hm : Sub 0x18800000203be7800000700030000000006 M) (hk : anc.Within M s) : ∃ out, execCtxOpen c s = .next out ∧ anc.Within M out := by
  unfold execCtxOpen
  refine ⟨_, rfl, ?_⟩
  repeat' first
    | with_reducible assumption | with_reducible refine State.vorane_frame ?_ ?_ ?_ | with_reducible refine State.ctxOpen_frame ?_ ?_
    | intro _ | with_reducible exact hm.mono (by decide) | dsimp only

theorem execCtxClose_frame {anc : State} {M : Nat} {c : Cmd} {s : State} (hm : Sub 0x8802803e01be7800000700030100110006 M) (hk : anc.Within M s) : ∃ out, execCtxClose c s = .next out ∧ anc.Within M out := by
  unfold execCtxClose
  refine ⟨_, rfl, ?_⟩
  repeat' first
    | with_reducible assumption | with_reducible refine State.vorane_frame ?_ ?_ ?_
    | with_reducible refine State.ctxClose_frame ?_ ?_ | intro _ | with_reducible exact hm.mono (by decide) | dsimp only

theorem execSubmit_frame {anc : State} {M : Nat} {c : Cmd} {s : State} (hm : Sub 0x8800000005be7800000700030000000006 M) (hk : anc.Within M s) : ∃ out, execSubmit c s = .next out ∧ anc.Within M out := by
  unfold execSubmit
  refine ⟨_, rfl, ?_⟩
  repeat' first
    | with_reducible assumption | with_reducible refine State.vorane_frame ?_ ?_ ?_ | with_reducible refine State.submit_frame ?_ ?_
    | intro _ | with_reducible exact hm.mono (by decide) | dsimp only

theorem execCancel_frame {anc : State} {M : Nat} {c : Cmd} {s : State} (hm : Sub 0x8800803e3dbe7800000700030100110006 M) (hk : anc.Within M s) : ∃ out, execCancel c s = .next out ∧ anc.Within M out := by
  unfold execCancel
  refine ⟨_, rfl, ?_⟩
  repeat' first
    | with_reducible assumption | with_reducible refine State.vorane_frame ?_ ?_ ?_ | with_reducible refine State.cancel_frame ?_ ?_
    | intro _ | with_reducible exact hm.mono (by decide) | dsimp only

theorem execInquire_frame {anc : State} {M : Nat} {c : Cmd} {s : State} (hm : Sub 0x8800000000be7800000400030000000006 M) (hk : anc.Within M s) : ∃ out, execInquire c s = .next out ∧ anc.Within M out := by
  unfold execInquire
  refine ⟨_, rfl, ?_⟩
  repeat' first
    | with_reducible assumption | with_reducible refine State.vorane_frame ?_ ?_ ?_ | with_reducible refine State.inquire_frame ?_ ?_
    | intro _ | with_reducible exact hm.mono (by decide) | dsimp only

theorem execRingSetup_frame {anc : State} {M : Nat} {c : Cmd} {s : State} (hm : Sub 0x8800000010be7800000700030000000006 M) (hk : anc.Within M s) : ∃ out, execRingSetup c s = .next out ∧ anc.Within M out := by
  unfold execRingSetup
  refine ⟨_, rfl, ?_⟩
  repeat' first
    | with_reducible assumption | with_reducible refine State.vorane_frame ?_ ?_ ?_
    | with_reducible refine State.ringSetup_frame ?_ ?_ | intro _ | with_reducible exact hm.mono (by decide) | dsimp only

theorem execVariantRetire_frame {anc : State} {M : Nat} {c : Cmd} {s : State} (hm : Sub 0x8800803e7dbe7800000700030100110006 M) (hk : anc.Within M s) : ∃ out, execVariantRetire c s = .next out ∧ anc.Within M out := by
  unfold execVariantRetire
  refine ⟨_, rfl, ?_⟩
  repeat' first
    | with_reducible assumption | with_reducible refine State.vorane_frame ?_ ?_ ?_ | with_reducible refine State.retire_frame ?_ ?_
    | intro _ | with_reducible exact hm.mono (by decide) | dsimp only

theorem execPromptReadDone_frame {anc : State} {M : Nat} {id : Nat} {ok : Bool} {tokens : List Nat} {s : State} (hm : Sub 0x8000803e3d207800000700030100110002 M) (hk : anc.Within M s) : ∃ out, execPromptReadDone id ok tokens s = .next out ∧ anc.Within M out := by
  unfold execPromptReadDone
  refine ⟨_, rfl, ?_⟩
  repeat' first
    | with_reducible assumption | with_reducible refine State.promptDone_frame ?_ ?_ | with_reducible exact hm.mono (by decide)
    | dsimp only

theorem execRequestActivate_frame {anc : State} {M : Nat} {v : Nat} {s : State} (hm : Sub 0x2004000000000300000000010000 M) (hk : anc.Within M s) : ∃ out, execRequestActivate v s = .next out ∧ anc.Within M out := by
  unfold execRequestActivate
  refine ⟨_, rfl, ?_⟩
  repeat' first
    | with_reducible assumption | with_reducible refine State.activateNext_frame ?_ ?_ | with_reducible exact hm.mono (by decide)
    | dsimp only

theorem execDispatchTurn_frame {anc : State} {M : Nat} {v : Nat} {s : State} (hm : Sub 0xe000000144007800000303000000000002 M) (hk : anc.Within M s) : ∃ out, execDispatchTurn v s = .next out ∧ anc.Within M out := by
  unfold execDispatchTurn
  refine ⟨_, rfl, ?_⟩
  repeat' first
    | with_reducible assumption | with_reducible refine State.dispatchTurn_frame ?_ ?_ | with_reducible exact hm.mono (by decide)
    | dsimp only

theorem execStarvePromotion_frame {anc : State} {M : Nat} {id : Nat} {s : State} (hm : Sub 0x44000000000100000000000000 M) (hk : anc.Within M s) : ∃ out, execStarvePromotion id s = .next out ∧ anc.Within M out := by
  unfold execStarvePromotion
  refine ⟨_, rfl, ?_⟩
  repeat' first
    | with_reducible assumption | with_reducible refine State.starve_frame ?_ ?_ | with_reducible exact hm.mono (by decide)
    | dsimp only

theorem execDeadlineExpiry_frame {anc : State} {M : Nat} {id : Nat} {s : State} (hm : Sub 0x803e3d007800000700000100110002 M) (hk : anc.Within M s) : ∃ out, execDeadlineExpiry id s = .next out ∧ anc.Within M out := by
  unfold execDeadlineExpiry
  refine ⟨_, rfl, ?_⟩
  repeat' first
    | with_reducible assumption | with_reducible refine State.deadline_frame ?_ ?_ | with_reducible exact hm.mono (by decide)
    | dsimp only

theorem execCommitToken_frame {anc : State} {M : Nat} {s : State} (hm : Sub 0x803e3d007800000700000100110002 M) (hk : anc.Within M s) : ∃ out, execCommitToken s = .next out ∧ anc.Within M out := by
  unfold execCommitToken
  refine ⟨_, rfl, ?_⟩
  repeat' first
    | with_reducible assumption | with_reducible refine State.commitDoorbell_frame ?_ ?_ | with_reducible exact hm.mono (by decide)
    | dsimp only

theorem execCommitEnd_frame {anc : State} {M : Nat} {s : State} (hm : Sub 0x803e3d007800000700000100110002 M) (hk : anc.Within M s) : ∃ out, execCommitEnd s = .next out ∧ anc.Within M out := by
  unfold execCommitEnd
  refine ⟨_, rfl, ?_⟩
  repeat' first
    | with_reducible assumption | with_reducible refine State.commitDoorbell_frame ?_ ?_ | with_reducible exact hm.mono (by decide)
    | dsimp only

theorem execCommitTokenEnd_frame {anc : State} {M : Nat} {s : State} (hm : Sub 0x803e3d007800000700000100110002 M) (hk : anc.Within M s) : ∃ out, execCommitTokenEnd s = .next out ∧ anc.Within M out := by
  unfold execCommitTokenEnd
  refine ⟨_, rfl, ?_⟩
  repeat' first
    | with_reducible assumption | with_reducible refine State.commitDoorbell_frame ?_ ?_ | with_reducible exact hm.mono (by decide)
    | dsimp only

theorem execRingDeliver_frame {anc : State} {M : Nat} {r : Nat} {s : State} (hm : Sub 0x8000000010200000000400030000000000 M) (hk : anc.Within M s) : ∃ out, execRingDeliver r s = .next out ∧ anc.Within M out := by
  unfold execRingDeliver
  refine ⟨_, rfl, ?_⟩
  repeat' first
    | with_reducible assumption | with_reducible refine State.ringDeliver_frame ?_ ?_ | with_reducible exact hm.mono (by decide)
    | dsimp only

theorem execTailAck_frame {anc : State} {M : Nat} {r : Nat} {s : State} (hm : Sub 0x10000000000400000000000000 M) (hk : anc.Within M s) : ∃ out, execTailAck r s = .next out ∧ anc.Within M out := by
  unfold execTailAck
  refine ⟨_, rfl, ?_⟩
  repeat' first
    | with_reducible assumption | with_reducible refine State.tailAck_frame ?_ ?_ | with_reducible exact hm.mono (by decide)
    | dsimp only

theorem execPositionDone_frame {anc : State} {M : Nat} {id : Nat} {hollow : Bool} {token : Nat} {s : State} (hm : Sub 0x803e7d007800000700000100110002 M) (hk : anc.Within M s) : ∃ out, execPositionDone id hollow token s = .next out ∧ anc.Within M out := by
  unfold execPositionDone
  refine ⟨_, rfl, ?_⟩
  repeat' first
    | with_reducible assumption | with_reducible refine State.positionDone_frame ?_ ?_ | with_reducible exact hm.mono (by decide)
    | dsimp only

theorem execAbnormalEnd_frame {anc : State} {M : Nat} {id : Nat} {status : Nat} {lost : Nat} {s : State} (hm : Sub 0x803e7d007800000700000100110002 M) (hk : anc.Within M s) : ∃ out, execAbnormalEnd id status lost s = .next out ∧ anc.Within M out := by
  unfold execAbnormalEnd
  refine ⟨_, rfl, ?_⟩
  repeat' first
    | with_reducible assumption | with_reducible refine State.abnormalEnd_frame ?_ ?_ | with_reducible exact hm.mono (by decide)
    | dsimp only

theorem execDrainLimit_frame {anc : State} {M : Nat} {v : Nat} {s : State} (hm : Sub 0x803e3d007800000700000100110002 M) (hk : anc.Within M s) : ∃ out, execDrainLimit v s = .next out ∧ anc.Within M out := by
  unfold execDrainLimit
  refine ⟨_, rfl, ?_⟩
  repeat' first
    | with_reducible assumption | with_reducible refine State.drainLimit_frame ?_ ?_ | with_reducible exact hm.mono (by decide)
    | dsimp only

theorem execDrainSetDispatch_frame {anc : State} {M : Nat} {v : Nat} {s : State} (hm : Sub 0xe000000040007800000103000000000002 M) (hk : anc.Within M s) : ∃ out, execDrainSetDispatch v s = .next out ∧ anc.Within M out := by
  unfold execDrainSetDispatch
  refine ⟨_, rfl, ?_⟩
  repeat' first
    | with_reducible assumption | with_reducible refine State.drainDispatch_frame ?_ ?_ | with_reducible exact hm.mono (by decide)
    | dsimp only

theorem execDrainSetArrival_frame {anc : State} {M : Nat} {v : Nat} {s : State} (hm : Sub 0x8000480401078000001000001000c0002 M) (hk : anc.Within M s) : ∃ out, execDrainSetArrival v s = .next out ∧ anc.Within M out := by
  unfold execDrainSetArrival
  refine ⟨_, rfl, ?_⟩
  repeat' first
    | with_reducible assumption | with_reducible refine State.drainArrival_frame ?_ ?_ | with_reducible exact hm.mono (by decide)
    | dsimp only

end Sys2Proof.Machine
end

