-- ==== Sys2Proof/Laws/Frame/Cut.lean ====
section
/-! SUPPORT. Every operation and meaning of Machine/Cut.lean changes only the register areas and parts of the state its mask names. -/

namespace Sys2Proof.Machine

set_option linter.unreachableTactic false
set_option linter.unusedTactic false

theorem State.cutCore_frame {anc : State} {M : Nat} {s : State} {dom : Dom} {ck : Nat} (hm : Sub 0xe00fc08000007800000003000000130002 M) (hk : anc.Within M s) : anc.Within M (State.cutCore s dom ck) := by
  unfold State.cutCore
  repeat' first
    | with_reducible assumption | with_reducible refine State.mesh_frame ?_ ?_ | with_reducible refine State.setMc_frame ?_ ?_
    | with_reducible refine State.dropTile_frame ?_ ?_ | with_reducible refine State.setVc_frame ?_ ?_
    | with_reducible refine State.setSc_frame ?_ ?_ | with_reducible refine State.each_frame ?_ ?_ | intro _
    | with_reducible refine ite_frame ?_ ?_ | with_reducible exact hm.mono (by decide) | with_reducible exact hm.bit (by decide)
    | simp only [or_true, true_and, and_true] | with_reducible refine And.intro ?_ ?_
    | with_reducible exact .inl (hm.bit (by decide)) | split | dsimp only | with_reducible refine State.frame_mk ?_ ?_

theorem State.cutCoreClock_frame {anc : State} {M : Nat} {s : State} {dom : Dom} {ck : Nat} (hm : Sub 0xe04fc08000007800000003000000130002 M) (hk : anc.Within M s) : anc.Within M (State.cutCoreClock s dom ck) := by
  unfold State.cutCoreClock
  repeat' first
    | with_reducible assumption | with_reducible refine State.clockPoint_frame ?_ ?_
    | with_reducible refine State.cutCore_frame ?_ ?_ | with_reducible exact hm.mono (by decide) | dsimp only

theorem State.endLost_frame {anc : State} {M : Nat} {s : State} {id : Nat} {status : Nat} (hm : Sub 0x803e7d007800000700000100110002 M) (hk : anc.Within M s) : anc.Within M (State.endLost s id status) := by
  unfold State.endLost
  repeat' first
    | with_reducible assumption | with_reducible refine State.endRequest_frame ?_ ?_ | with_reducible refine State.setReq_frame ?_ ?_
    | with_reducible refine State.setsBack_frame ?_ ?_ | with_reducible exact hm.mono (by decide) | dsimp only

theorem State.interruptStreams_frame {anc : State} {M : Nat} {s : State} {streams : List Nat} (hm : Sub 0x803e7d007800000700000100110002 M) (hk : anc.Within M s) : anc.Within M (State.interruptStreams s streams).2 := by
  unfold State.interruptStreams
  repeat' first
    | with_reducible assumption | with_reducible refine State.endLost_frame ?_ ?_ | with_reducible refine State.each_frame ?_ ?_
    | intro _ | with_reducible exact hm.mono (by decide) | dsimp only

theorem State.interruptStreams_frame_eq {anc : State} {M : Nat} {s : State} {streams : List Nat} (hm : Sub 0x803e7d007800000700000100110002 M) {r0 tz} (heqx : State.interruptStreams s streams = (r0, tz)) (hk : anc.Within M s) : anc.Within M tz := by
  have := State.interruptStreams_frame (s := s) (streams := streams) hm hk
  rwa [heqx] at this

theorem State.interruptRoles_frame {anc : State} {M : Nat} {s : State} {cores : List Nat} (hm : Sub 0x803e7d007800000700000100110002 M) (hk : anc.Within M s) : anc.Within M (State.interruptRoles s cores).2 := by
  unfold State.interruptRoles
  repeat' first
    | with_reducible assumption | with_reducible refine State.endLost_frame ?_ ?_ | with_reducible refine State.each_frame ?_ ?_
    | intro _ | with_reducible exact hm.mono (by decide) | dsimp only

theorem State.interruptRoles_frame_eq {anc : State} {M : Nat} {s : State} {cores : List Nat} (hm : Sub 0x803e7d007800000700000100110002 M) {r0 tz} (heqx : State.interruptRoles s cores = (r0, tz)) (hk : anc.Within M s) : anc.Within M tz := by
  have := State.interruptRoles_frame (s := s) (cores := cores) hm hk
  rwa [heqx] at this

theorem State.loseKv_frame {anc : State} {M : Nat} {s : State} {v : Nat} (hm : Sub 0x803e7d007800000700000100110002 M) (hk : anc.Within M s) : anc.Within M (State.loseKv s v) := by
  unfold State.loseKv
  repeat' first
    | with_reducible assumption | with_reducible refine State.endLost_frame ?_ ?_ | with_reducible refine State.each_frame ?_ ?_
    | intro _ | with_reducible refine ite_frame ?_ ?_ | with_reducible exact hm.mono (by decide)
    | with_reducible exact hm.bit (by decide) | simp only [or_true, true_and, and_true] | with_reducible refine And.intro ?_ ?_
    | with_reducible exact .inl (hm.bit (by decide)) | split | dsimp only | with_reducible refine State.frame_mk ?_ ?_

theorem State.breakScores_frame {anc : State} {M : Nat} {s : State} {cores : List Nat} (hm : Sub 0x8000000000b27800000000030000000006 M) (hk : anc.Within M s) : anc.Within M (State.breakScores s cores) := by
  unfold State.breakScores
  repeat' first
    | with_reducible assumption | with_reducible refine State.semBreakAll_frame ?_ ?_ | with_reducible refine State.each_frame ?_ ?_
    | intro _ | with_reducible exact hm.mono (by decide) | dsimp only

theorem State.dropVResids_frame {anc : State} {M : Nat} {s : State} {v : Nat} {ctx : Nat} (hm : Sub 0x2000000000000000000000000000 M) (hk : anc.Within M s) : anc.Within M (State.dropVResids s v ctx) := by
  unfold State.dropVResids
  repeat' first
    | with_reducible assumption | with_reducible refine State.sramWrite_frame ?_ ?_ | with_reducible refine State.each_frame ?_ ?_
    | intro _ | with_reducible exact hm.mono (by decide) | dsimp only

theorem State.loseResiduals_frame {anc : State} {M : Nat} {s : State} {ck : Nat} (hm : Sub 0x2002004007800000000000000010002 M) (hk : anc.Within M s) : anc.Within M (State.loseResiduals s ck) := by
  unfold State.loseResiduals
  repeat' first
    | with_reducible assumption | with_reducible refine State.logEvSev_frame ?_ ?_
    | with_reducible refine State.dropVResids_frame ?_ ?_ | with_reducible refine State.clearSlot_frame ?_ ?_
    | with_reducible refine State.setReq_frame ?_ ?_ | with_reducible refine State.each_frame ?_ ?_ | intro _
    | with_reducible refine ite_frame ?_ ?_ | with_reducible exact hm.mono (by decide) | split | dsimp only

theorem State.scoreStart_frame {anc : State} {M : Nat} {s : State} {ck : Nat} (hm : Sub 0x1000000000000000000000000200000 M) (hk : anc.Within M s) : anc.Within M (State.scoreStart s ck) := by
  unfold State.scoreStart
  repeat' first
    | with_reducible assumption | with_reducible refine State.wf_frame ?_ ?_ | with_reducible refine State.setSc_frame ?_ ?_
    | with_reducible exact hm.mono (by decide) | with_reducible exact hm.bit (by decide) | dsimp only

end Sys2Proof.Machine
end

