-- ==== Sys2Proof/Laws/Frame/Module.lean ====
section
/-! SUPPORT. Every operation and meaning of Machine/Module.lean changes only the register areas and parts of the state its mask names. -/

namespace Sys2Proof.Machine

set_option linter.unreachableTactic false
set_option linter.unusedTactic false

theorem State.raiseAlert_frame {anc : State} {M : Nat} {s : State} (hm : Sub 0x8100000000000000000000000000000000 M) (hk : anc.Within M s) : anc.Within M (State.raiseAlert s) := by
  unfold State.raiseAlert
  repeat' first
    | with_reducible assumption | with_reducible refine State.emit_frame ?_ ?_ | with_reducible refine ite_frame ?_ ?_
    | with_reducible exact hm.mono (by decide) | with_reducible exact hm.bit (by decide) | simp only [or_true, true_and, and_true]
    | with_reducible refine And.intro ?_ ?_ | with_reducible exact .inl (hm.bit (by decide)) | split | dsimp only
    | with_reducible refine State.frame_mk ?_ ?_

theorem State.setPwrgd_frame {anc : State} {M : Nat} {s : State} {b : Bool} (hm : Sub 0x8100000000000000000000000000000000 M) (hk : anc.Within M s) : anc.Within M (State.setPwrgd s b) := by
  unfold State.setPwrgd
  repeat' first
    | with_reducible assumption | with_reducible refine State.emit_frame ?_ ?_ | with_reducible refine ite_frame ?_ ?_
    | with_reducible exact hm.mono (by decide) | with_reducible exact hm.bit (by decide) | simp only [or_true, true_and, and_true]
    | with_reducible refine And.intro ?_ ?_ | with_reducible exact .inl (hm.bit (by decide)) | split | dsimp only
    | with_reducible refine State.frame_mk ?_ ?_

theorem State.boardFault_frame {anc : State} {M : Nat} {s : State} {b : Nat} {on : Bool} (hm : Sub 0x8100000000007801000000000000000002 M) (hk : anc.Within M s) : anc.Within M (State.boardFault s b on) := by
  unfold State.boardFault
  repeat' first
    | with_reducible assumption | with_reducible refine State.wf_frame ?_ ?_ | with_reducible refine State.raiseAlert_frame ?_ ?_
    | with_reducible refine State.unitEv_frame ?_ ?_ | with_reducible refine State.setInt_frame ?_ ?_ ?_
    | with_reducible refine ite_frame ?_ ?_ | with_reducible exact hm.mono (by decide) | with_reducible exact hm.bit (by decide)
    | ((with_reducible refine page_bit (B := ?_) (n := ?_) (k := ?_) hm ?_ ?_ ?_); (on_goal 4 => rfl); all_goals decide)
    | with_reducible exact corePage_bit hm (by decide) (by decide) (by decide) | split | dsimp only

theorem State.setModState_frame {anc : State} {M : Nat} {s : State} {st : Nat} (hm : Sub 0x8100000000007800000000000000000003 M) (hk : anc.Within M s) : anc.Within M (State.setModState s st) := by
  unfold State.setModState
  repeat' first
    | with_reducible assumption | with_reducible refine State.setInts_frame ?_ ?_ ?_ | with_reducible refine State.wf_frame ?_ ?_
    | with_reducible refine State.raiseAlert_frame ?_ ?_ | with_reducible refine State.logEvSev_frame ?_ ?_
    | with_reducible refine ite_frame ?_ ?_ | with_reducible exact hm.mono (by decide) | with_reducible exact hm.bit (by decide)
    | ((with_reducible refine page_bit (B := ?_) (n := ?_) (k := ?_) hm ?_ ?_ ?_); (on_goal 4 => rfl); all_goals decide)
    | with_reducible exact corePage_bit hm (by decide) (by decide) (by decide) | split | dsimp only

theorem State.phaseStart_frame {anc : State} {M : Nat} {s : State} {p : Nat} {st : Nat} (hm : Sub 0x8100000000007800000000000000000003 M) (hk : anc.Within M s) : anc.Within M (State.phaseStart s p st) := by
  unfold State.phaseStart
  repeat' first
    | with_reducible assumption | with_reducible refine State.logEv_frame ?_ ?_ | with_reducible refine State.setModState_frame ?_ ?_
    | with_reducible refine State.wf_frame ?_ ?_ | with_reducible exact hm.mono (by decide) | with_reducible exact hm.bit (by decide)
    | simp only [or_true, true_and, and_true] | with_reducible refine And.intro ?_ ?_
    | with_reducible exact .inl (hm.bit (by decide)) | dsimp only | with_reducible refine State.frame_mk ?_ ?_

theorem State.failWith_frame {anc : State} {M : Nat} {s : State} {cause : Nat} {detail : Nat} (hm : Sub 0x8100000000007800000000000000000003 M) (hk : anc.Within M s) : anc.Within M (State.failWith s cause detail) := by
  unfold State.failWith
  repeat' first
    | with_reducible assumption | with_reducible refine State.setModState_frame ?_ ?_ | with_reducible refine State.wf_frame ?_ ?_
    | with_reducible exact hm.mono (by decide) | with_reducible exact hm.bit (by decide) | dsimp only

theorem State.commitTrial_frame {anc : State} {M : Nat} {s : State} (hm : Sub 0x7800000000000000000012 M) (hk : anc.Within M s) : anc.Within M (State.commitTrial s) := by
  unfold State.commitTrial
  repeat' first
    | with_reducible assumption | with_reducible refine State.wf_frame ?_ ?_ | with_reducible refine State.logEv_frame ?_ ?_
    | with_reducible refine State.when_frame ?_ ?_ | intro _ | with_reducible refine ite_frame ?_ ?_
    | with_reducible exact hm.mono (by decide) | with_reducible exact hm.bit (by decide)
    | with_reducible exact slotStateF_bit hm (by decide) | with_reducible exact slotVersionF_bit hm (by decide)
    | with_reducible exact slotSecurityF_bit hm (by decide) | split | dsimp only

theorem State.tryReady_frame {anc : State} {M : Nat} {s : State} (hm : Sub 0x8100000000007800000100000000000013 M) (hk : anc.Within M s) : anc.Within M (State.tryReady s) := by
  unfold State.tryReady
  repeat' first
    | with_reducible assumption | with_reducible refine State.logEv_frame ?_ ?_ | with_reducible refine State.setModState_frame ?_ ?_
    | with_reducible refine State.wf_frame ?_ ?_ | with_reducible refine State.commitTrial_frame ?_ ?_
    | with_reducible refine ite_frame ?_ ?_ | with_reducible exact hm.mono (by decide) | with_reducible exact hm.bit (by decide)
    | simp only [or_true, true_and, and_true] | with_reducible refine And.intro ?_ ?_
    | with_reducible exact .inl (hm.bit (by decide)) | split | dsimp only | with_reducible refine State.frame_mk ?_ ?_

theorem State.leaveGate_frame {anc : State} {M : Nat} {s : State} (hm : Sub 0x8100000000007800000100000000000003 M) (hk : anc.Within M s) : anc.Within M (State.leaveGate s) := by
  unfold State.leaveGate
  repeat' first
    | with_reducible assumption | with_reducible refine State.wf_frame ?_ ?_ | with_reducible refine State.setModState_frame ?_ ?_
    | with_reducible exact hm.mono (by decide) | with_reducible exact hm.bit (by decide) | dsimp only

theorem State.leaveCut_frame {anc : State} {M : Nat} {s : State} (hm : Sub 0xe14fc0be7d007800000703000100130002 M) (hk : anc.Within M s) : anc.Within M (State.leaveCut s) := by
  unfold State.leaveCut
  repeat' first
    | with_reducible assumption | with_reducible refine State.endLost_frame ?_ ?_
    | with_reducible refine State.cutCoreClock_frame ?_ ?_ | with_reducible refine State.sendNotice_frame ?_ ?_
    | with_reducible refine State.each_frame ?_ ?_ | intro _ | with_reducible refine ite_frame ?_ ?_
    | with_reducible exact hm.mono (by decide) | with_reducible exact hm.bit (by decide) | simp only [or_true, true_and, and_true]
    | with_reducible refine And.intro ?_ ?_ | with_reducible exact .inl (hm.bit (by decide)) | split | dsimp only
    | with_reducible refine State.frame_mk ?_ ?_

theorem State.withdrawTorus_frame {anc : State} {M : Nat} {s : State} (hm : Sub 0xe100000000001800000003000000000001 M) (hk : anc.Within M s) : anc.Within M (State.withdrawTorus s) := by
  unfold State.withdrawTorus
  repeat' first
    | with_reducible assumption | with_reducible refine State.ownLsn_frame ?_ ?_ | with_reducible refine State.wf_frame ?_ ?_
    | with_reducible refine State.each_frame ?_ ?_ | intro _ | with_reducible exact hm.mono (by decide)
    | with_reducible exact hm.bit (by decide) | simp only [or_true, true_and, and_true] | with_reducible refine And.intro ?_ ?_
    | with_reducible exact .inl (hm.bit (by decide)) | dsimp only | with_reducible refine State.frame_mk ?_ ?_

theorem State.leaveProceed_frame {anc : State} {M : Nat} {s : State} (hm : Sub 0xe14fc0be7d007800000703000100130003 M) (hk : anc.Within M s) : anc.Within M (State.leaveProceed s) := by
  unfold State.leaveProceed
  repeat' first
    | with_reducible assumption | with_reducible refine State.withdrawTorus_frame ?_ ?_
    | with_reducible refine State.leaveCut_frame ?_ ?_ | with_reducible exact hm.mono (by decide) | dsimp only

theorem State.leaveDone_frame {anc : State} {M : Nat} {s : State} (hm : Sub 0x8100000000327800000000030000000003 M) (hk : anc.Within M s) : anc.Within M (State.leaveDone s) := by
  unfold State.leaveDone
  repeat' first
    | with_reducible assumption | with_reducible refine State.setModState_frame ?_ ?_
    | with_reducible refine State.finish_frame ?_ ?_ | with_reducible refine ite_frame ?_ ?_
    | with_reducible exact hm.mono (by decide) | with_reducible exact hm.bit (by decide) | simp only [or_true, true_and, and_true]
    | with_reducible refine And.intro ?_ ?_ | with_reducible exact .inl (hm.bit (by decide)) | split | dsimp only
    | with_reducible refine State.frame_mk ?_ ?_

theorem State.dieFailure_frame {anc : State} {M : Nat} {s : State} {cause : Nat} {detail : Nat} (hm : Sub 0xe14fc0be7d007800000703000100130003 M) (hk : anc.Within M s) : anc.Within M (State.dieFailure s cause detail) := by
  unfold State.dieFailure
  repeat' first
    | with_reducible assumption | with_reducible refine State.wf_frame ?_ ?_ | with_reducible refine State.leaveProceed_frame ?_ ?_
    | with_reducible refine State.leaveGate_frame ?_ ?_ | with_reducible refine State.setModState_frame ?_ ?_
    | with_reducible refine ite_frame ?_ ?_ | with_reducible exact hm.mono (by decide) | with_reducible exact hm.bit (by decide)
    | split | dsimp only

theorem State.rebuildMaps_frame {anc : State} {M : Nat} {s : State} (hm : Sub 0x1400400 M) (hk : anc.Within M s) : anc.Within M (State.rebuildMaps s) := by
  unfold State.rebuildMaps
  repeat' first
    | with_reducible assumption | with_reducible refine State.wf_frame ?_ ?_ | with_reducible refine State.fix_frame ?_ ?_ ?_
    | with_reducible refine State.each_frame ?_ ?_ | intro _ | with_reducible refine ite_frame ?_ ?_
    | with_reducible exact hm.mono (by decide) | with_reducible exact hm.bit (by decide)
    | ((with_reducible refine page_bit (B := ?_) (n := ?_) (k := ?_) hm ?_ ?_ ?_); (on_goal 4 => rfl); all_goals decide)
    | with_reducible exact corePage_bit hm (by decide) (by decide) (by decide) | with_reducible exact mapPhysF_bit hm (by decide)
    | with_reducible exact mapAbsentF_bit hm (by decide) | split | dsimp only

theorem State.countAbsent_frame {anc : State} {M : Nat} {s : State} (hm : Sub 0x401 M) (hk : anc.Within M s) : anc.Within M (State.countAbsent s) := by
  unfold State.countAbsent
  repeat' first
    | with_reducible assumption | with_reducible refine State.wf_frame ?_ ?_ | with_reducible exact hm.mono (by decide)
    | with_reducible exact hm.bit (by decide) | dsimp only

theorem State.within_all {anc s : State} {M : Nat} (hm : Sub (2 ^ 137 - 1) M) (hp : M.testBit 137 = true ∨ s.pending = anc.pending) : anc.Within M s :=
  ⟨fun f _ _ => .inl (hm.any (by decide) f), .inl (hm.bit (by decide)), .inl (hm.bit (by decide)), .inl (hm.bit (by decide)),
    .inl (hm.bit (by decide)), .inl (hm.bit (by decide)), .inl (hm.bit (by decide)), .inl (hm.bit (by decide)), .inl (hm.bit (by decide)), .inl (hm.bit (by decide)),
    .inl (hm.bit (by decide)), .inl (hm.bit (by decide)), .inl (hm.bit (by decide)), .inl (hm.bit (by decide)), .inl (hm.bit (by decide)), .inl (hm.bit (by decide)),
    .inl (hm.bit (by decide)), .inl (hm.bit (by decide)), .inl (hm.bit (by decide)), .inl (hm.bit (by decide)), .inl (hm.bit (by decide)), .inl (hm.bit (by decide)),
    .inl (hm.bit (by decide)), .inl (hm.bit (by decide)), .inl (hm.bit (by decide)), .inl (hm.bit (by decide)), .inl (hm.bit (by decide)), .inl (hm.bit (by decide)),
    .inl (hm.bit (by decide)), .inl (hm.bit (by decide)), .inl (hm.bit (by decide)), .inl (hm.bit (by decide)), .inl (hm.bit (by decide)), .inl (hm.bit (by decide)),
    .inl (hm.bit (by decide)), .inl (hm.bit (by decide)), .inl (hm.bit (by decide)), .inl (hm.bit (by decide)), .inl (hm.bit (by decide)), .inl (hm.bit (by decide)),
    .inl (hm.bit (by decide)), .inl (hm.bit (by decide)), .inl (hm.bit (by decide)), .inl (hm.bit (by decide)), .inl (hm.bit (by decide)), .inl (hm.bit (by decide)),
    .inl (hm.bit (by decide)), .inl (hm.bit (by decide)), .inl (hm.bit (by decide)), .inl (hm.bit (by decide)), .inl (hm.bit (by decide)), .inl (hm.bit (by decide)),
    .inl (hm.bit (by decide)), .inl (hm.bit (by decide)), .inl (hm.bit (by decide)), .inl (hm.bit (by decide)), .inl (hm.bit (by decide)), .inl (hm.bit (by decide)),
    hp⟩

theorem pending_each {α : Type} {g : State → α → State} (hg : ∀ t x, (g t x).pending = t.pending) :
    ∀ (l : List α) (s : State), (s.each l g).pending = s.pending
  | [], _ => rfl
  | x :: l, s => (pending_each hg l (g s x)).trans (hg s x)

theorem State.coldReset_pending (s : State) (power : Bool) : (State.coldReset s power).pending = s.pending := by
  have hc (t : State) : t.countAbsent.pending = t.pending :=
    (State.countAbsent_frame (Sub.refl _) (State.frame_refl _ _) : t.Within _ t.countAbsent).pending (by decide)
  have hr (t : State) : t.rebuildMaps.pending = t.pending :=
    (State.rebuildMaps_frame (Sub.refl _) (State.frame_refl _ _) : t.Within _ t.rebuildMaps).pending (by decide)
  have hp (t : State) (e : Nat) : (t.progInterrupt e).pending = t.pending :=
    (State.progInterrupt_frame (Sub.refl _) (State.frame_refl _ _) : t.Within _ (t.progInterrupt e)).pending (by decide)
  have hi (t : State) (p : Page) (n : Nat) : (t.setInt p n).pending = t.pending :=
    (State.setInt_frame (M := 2 ^ 137 - 1) (by decide) (Sub.anyPage (Sub.refl _) (by decide) p) (State.frame_refl _ _) :
      t.Within _ (t.setInt p n)).pending (by decide)
  have hq (t : State) (e b : Nat) (x : PilotSt) : (t.setPilot e b x).pending = t.pending :=
    (State.setPilot_frame (Sub.refl _) (State.frame_refl _ _) : t.Within _ (t.setPilot e b x)).pending (by decide)
  have s0 : (s.each (s.prog.filter fun p => p.2.running.isSome) fun t p => t.progInterrupt p.1).pending = s.pending :=
    pending_each (fun t (p : Nat × ProgSt) => hp t p.1) _ _
  unfold State.coldReset
  revert s0
  generalize (s.each (s.prog.filter fun p => p.2.running.isSome) fun t p => t.progInterrupt p.1) = u
  intro s0
  dsimp only
  rw [hc, hr, pending_each (fun t (p : Nat × ProgSt) => hi t _ _), pending_each (fun t (x : Nat × Nat) => hq t _ _ _),
    pending_each (fun t v => by split <;> simp only [State.wf_pending])]
  cases power
  · simp only [Bool.false_eq_true, if_false]
    exact s0
  · simp only [if_true]
    rw [pending_each (fun t n => State.wf_pending _ _ _ _ _)]
    exact s0

theorem State.coldReset_frame {anc : State} {M : Nat} {s : State} {power : Bool} (hm : Sub 0x1ffffffffffffffffffffffffffffffffff M) (hk : anc.Within M s) :
    anc.Within M (State.coldReset s power) :=
  State.within_all (hm.mono (by decide)) (by rw [State.coldReset_pending]; exact hk.2.2.2.2.2.2.2.2.2.2.2.2.2.2.2.2.2.2.2.2.2.2.2.2.2.2.2.2.2.2.2.2.2.2.2.2.2.2.2.2.2.2.2.2.2.2.2.2.2.2.2.2.2.2.2.2.2.2)

theorem State.readStraps_frame {anc : State} {M : Nat} {s : State} {floating : Nat} (hm : Sub 0x8100000000007801000000000000000003 M) (hk : anc.Within M s) : anc.Within M (State.readStraps s floating) := by
  unfold State.readStraps
  repeat' first
    | with_reducible assumption | with_reducible refine State.boardFault_frame ?_ ?_ | with_reducible refine State.wf_frame ?_ ?_
    | with_reducible exact hm.mono (by decide) | with_reducible exact hm.bit (by decide) | dsimp only

theorem State.coldStart_frame {anc : State} {M : Nat} {s : State} (hm : Sub 0x1ffffffffffffffffffffffffffffffffff M) (hk : anc.Within M s) : anc.Within M (State.coldStart s) := by
  unfold State.coldStart
  repeat' first
    | with_reducible assumption | with_reducible refine State.phaseStart_frame ?_ ?_ | with_reducible refine State.wf_frame ?_ ?_
    | with_reducible refine State.readStraps_frame ?_ ?_ | with_reducible refine State.setPwrgd_frame ?_ ?_
    | with_reducible refine State.coldReset_frame ?_ ?_ | with_reducible exact hm.mono (by decide)
    | with_reducible exact hm.bit (by decide) | with_reducible exact hm.any (by decide) _
    | with_reducible exact hm.anyPage (by decide) _ | dsimp only

end Sys2Proof.Machine
end

