-- ==== Sys2Proof/Laws/Frame/Host.lean ====
section
/-! SUPPORT. Every operation and meaning of Machine/Host.lean changes only the register areas and parts of the state its mask names. -/

namespace Sys2Proof.Machine

set_option linter.unreachableTactic false
set_option linter.unusedTactic false

theorem State.portError_frame {anc : State} {M : Nat} {s : State} {p : Nat} {cause : Nat} (hm : Sub 0x8800000000b67800000400030000000006 M) (hk : anc.Within M s) : anc.Within M (State.portError s p cause) := by
  unfold State.portError
  repeat' first
    | with_reducible assumption | with_reducible refine State.qpError_frame ?_ ?_ | with_reducible refine State.each_frame ?_ ?_
    | intro _ | with_reducible exact hm.mono (by decide) | dsimp only

theorem State.sendEth_frame {anc : State} {M : Nat} {s : State} {p : Nat} {k : EthKind} {ws : List Nat} (hm : Sub 0x8000000000000000000000010000000000 M) (hk : anc.Within M s) : anc.Within M (State.sendEth s p k ws) := by
  unfold State.sendEth
  repeat' first
    | with_reducible assumption | with_reducible refine State.inc_frame ?_ ?_ | with_reducible refine State.emit_frame ?_ ?_
    | with_reducible exact hm.mono (by decide) | with_reducible exact hm.bit (by decide)
    | ((with_reducible refine page_bit (B := ?_) (n := ?_) (k := ?_) hm ?_ ?_ ?_); (on_goal 4 => rfl); all_goals decide)
    | with_reducible exact corePage_bit hm (by decide) (by decide) (by decide) | dsimp only

theorem State.sendCm_frame {anc : State} {M : Nat} {s : State} {p : Nat} {k : CmKind} {q : Nat} {bytes : List Nat} (hm : Sub 0x8000000000000000000000010000000000 M) (hk : anc.Within M s) : anc.Within M (State.sendCm s p k q bytes) := by
  unfold State.sendCm
  repeat' first
    | with_reducible assumption | with_reducible refine State.inc_frame ?_ ?_ | with_reducible refine State.emit_frame ?_ ?_
    | with_reducible exact hm.mono (by decide) | with_reducible exact hm.bit (by decide)
    | ((with_reducible refine page_bit (B := ?_) (n := ?_) (k := ?_) hm ?_ ?_ ?_); (on_goal 4 => rfl); all_goals decide)
    | with_reducible exact corePage_bit hm (by decide) (by decide) (by decide) | dsimp only

theorem State.advertise_frame {anc : State} {M : Nat} {s : State} {p : Nat} (hm : Sub 0x8000000000000000000000010000000000 M) (hk : anc.Within M s) : anc.Within M (State.advertise s p) := by
  unfold State.advertise
  repeat' first
    | with_reducible assumption | with_reducible refine State.sendEth_frame ?_ ?_ | with_reducible refine State.each_frame ?_ ?_
    | intro _ | with_reducible exact hm.mono (by decide) | dsimp only

theorem State.linkComesUp_frame {anc : State} {M : Nat} {s : State} {p : Nat} (hm : Sub 0x8000000000401800000000010000000000 M) (hk : anc.Within M s) : anc.Within M (State.linkComesUp s p) := by
  unfold State.linkComesUp
  repeat' first
    | with_reducible assumption | with_reducible refine State.wf_frame ?_ ?_ | with_reducible refine State.setPort_frame ?_ ?_
    | with_reducible refine State.advertise_frame ?_ ?_ | with_reducible refine State.setInt_frame ?_ ?_ ?_
    | with_reducible refine ite_frame ?_ ?_ | with_reducible exact hm.mono (by decide) | with_reducible exact hm.bit (by decide)
    | ((with_reducible refine page_bit (B := ?_) (n := ?_) (k := ?_) hm ?_ ?_ ?_); (on_goal 4 => rfl); all_goals decide)
    | with_reducible exact corePage_bit hm (by decide) (by decide) (by decide) | split | dsimp only

theorem State.linkGoesDown_frame {anc : State} {M : Nat} {s : State} {p : Nat} (hm : Sub 0x401800000000010000000000 M) (hk : anc.Within M s) : anc.Within M (State.linkGoesDown s p) := by
  unfold State.linkGoesDown
  repeat' first
    | with_reducible assumption | with_reducible refine State.setPort_frame ?_ ?_ | with_reducible refine State.wf_frame ?_ ?_
    | with_reducible refine State.setInt_frame ?_ ?_ ?_ | with_reducible refine ite_frame ?_ ?_
    | with_reducible exact hm.mono (by decide) | with_reducible exact hm.bit (by decide)
    | ((with_reducible refine page_bit (B := ?_) (n := ?_) (k := ?_) hm ?_ ?_ ?_); (on_goal 4 => rfl); all_goals decide)
    | with_reducible exact corePage_bit hm (by decide) (by decide) (by decide) | split | dsimp only

theorem State.linkTimeout_frame {anc : State} {M : Nat} {s : State} {p : Nat} (hm : Sub 0x8800000000f67800000400030000000006 M) (hk : anc.Within M s) : anc.Within M (State.linkTimeout s p) := by
  unfold State.linkTimeout
  repeat' first
    | with_reducible assumption | with_reducible refine State.portError_frame ?_ ?_ | with_reducible refine State.setPort_frame ?_ ?_
    | with_reducible refine ite_frame ?_ ?_ | with_reducible exact hm.mono (by decide) | split | dsimp only

theorem State.markCe_frame {anc : State} {M : Nat} {s : State} {p : Nat} {q : Nat} (hm : Sub 0x8000000000200000000000010000000000 M) (hk : anc.Within M s) : anc.Within M (State.markCe s p q) := by
  unfold State.markCe
  repeat' first
    | with_reducible assumption | with_reducible refine State.inc_frame ?_ ?_ | with_reducible refine State.sendEth_frame ?_ ?_
    | with_reducible refine State.setQp_frame ?_ ?_ | with_reducible refine ite_frame ?_ ?_
    | with_reducible exact hm.mono (by decide) | with_reducible exact hm.bit (by decide)
    | ((with_reducible refine page_bit (B := ?_) (n := ?_) (k := ?_) hm ?_ ?_ ?_); (on_goal 4 => rfl); all_goals decide)
    | with_reducible exact corePage_bit hm (by decide) (by decide) (by decide) | split | dsimp only

theorem State.frameReceive_frame {anc : State} {M : Nat} {s : State} {p : Nat} {f : EthFrame} (hm : Sub 0x8000000000201800000000010000000000 M) (hk : anc.Within M s) : anc.Within M (State.frameReceive s p f) := by
  unfold State.frameReceive
  repeat' first
    | with_reducible assumption | with_reducible refine State.inc_frame ?_ ?_ | with_reducible refine State.setInt_frame ?_ ?_ ?_
    | with_reducible refine State.markCe_frame ?_ ?_ | with_reducible refine State.when_frame ?_ ?_ | intro _
    | with_reducible refine ite_frame ?_ ?_ | with_reducible exact hm.mono (by decide) | with_reducible exact hm.bit (by decide)
    | ((with_reducible refine page_bit (B := ?_) (n := ?_) (k := ?_) hm ?_ ?_ ?_); (on_goal 4 => rfl); all_goals decide)
    | with_reducible exact corePage_bit hm (by decide) (by decide) (by decide) | split | dsimp only

theorem State.sendPfc_frame {anc : State} {M : Nat} {s : State} {p : Nat} {quanta : Nat} (hm : Sub 0x8000000000000000000000010000000000 M) (hk : anc.Within M s) : anc.Within M (State.sendPfc s p quanta) := by
  unfold State.sendPfc
  repeat' first
    | with_reducible assumption | with_reducible refine State.sendEth_frame ?_ ?_ | with_reducible exact hm.mono (by decide)
    | dsimp only

theorem State.pfcXoff_frame {anc : State} {M : Nat} {s : State} {p : Nat} {occ : Nat} (hm : Sub 0x8000000000400000000000010000000000 M) (hk : anc.Within M s) : anc.Within M (State.pfcXoff s p occ) := by
  unfold State.pfcXoff
  repeat' first
    | with_reducible assumption | with_reducible refine State.setPort_frame ?_ ?_ | with_reducible refine State.sendPfc_frame ?_ ?_
    | with_reducible refine ite_frame ?_ ?_ | with_reducible exact hm.mono (by decide) | split | dsimp only

theorem State.pfcRepeat_frame {anc : State} {M : Nat} {s : State} {p : Nat} {occ : Nat} (hm : Sub 0x8000000000400000000000010000000000 M) (hk : anc.Within M s) : anc.Within M (State.pfcRepeat s p occ) := by
  unfold State.pfcRepeat
  repeat' first
    | with_reducible assumption | with_reducible refine State.setPort_frame ?_ ?_ | with_reducible refine State.sendPfc_frame ?_ ?_
    | with_reducible refine ite_frame ?_ ?_ | with_reducible exact hm.mono (by decide) | split | dsimp only

theorem State.pfcXon_frame {anc : State} {M : Nat} {s : State} {p : Nat} {occ : Nat} (hm : Sub 0x8000000000400000000000010000000000 M) (hk : anc.Within M s) : anc.Within M (State.pfcXon s p occ) := by
  unfold State.pfcXon
  repeat' first
    | with_reducible assumption | with_reducible refine State.setPort_frame ?_ ?_ | with_reducible refine State.sendPfc_frame ?_ ?_
    | with_reducible refine State.when_frame ?_ ?_ | intro _ | with_reducible refine ite_frame ?_ ?_
    | with_reducible exact hm.mono (by decide) | split | dsimp only

theorem State.settlePause_frame {anc : State} {M : Nat} {s : State} {p : Nat} (hm : Sub 0x400000000000010000000000 M) (hk : anc.Within M s) : anc.Within M (State.settlePause s p) := by
  unfold State.settlePause
  repeat' first
    | with_reducible assumption | with_reducible refine State.setPort_frame ?_ ?_ | with_reducible refine State.inc_frame ?_ ?_
    | with_reducible refine foldl_frame ?_ ?_ | intro _ | with_reducible refine ite_frame ?_ ?_
    | with_reducible exact hm.mono (by decide) | with_reducible exact hm.bit (by decide)
    | ((with_reducible refine page_bit (B := ?_) (n := ?_) (k := ?_) hm ?_ ?_ ?_); (on_goal 4 => rfl); all_goals decide)
    | with_reducible exact corePage_bit hm (by decide) (by decide) (by decide) | split | dsimp only

theorem State.pfcReceive_frame {anc : State} {M : Nat} {s : State} {p : Nat} {enable : Nat} {quanta : List Nat} (hm : Sub 0x400000000000010000000000 M) (hk : anc.Within M s) : anc.Within M (State.pfcReceive s p enable quanta) := by
  unfold State.pfcReceive
  repeat' first
    | with_reducible assumption | with_reducible refine State.settlePause_frame ?_ ?_
    | with_reducible refine State.setPort_frame ?_ ?_ | with_reducible refine foldl_frame ?_ ?_ | intro _
    | with_reducible refine ite_frame ?_ ?_ | with_reducible exact hm.mono (by decide) | split | dsimp only

theorem State.rateOf_frame {anc : State} {M : Nat} {s : State} {num : Nat} {den : Nat} (hm : Sub 0x10000000000000000000000000000000000 M) (hk : anc.Within M s) : anc.Within M (State.rateOf s num den).2 := by
  unfold State.rateOf
  repeat' first
    | with_reducible assumption | with_reducible refine State.draw_frame ?_ ?_
    | refine State.draw_frame_eq ?_ (by with_reducible assumption) ?_ | with_reducible refine ite_frame ?_ ?_
    | with_reducible refine ite_frame2 ?_ ?_ | with_reducible refine ite_frame3 ?_ ?_ | with_reducible exact hm.mono (by decide)
    | split | dsimp only

theorem State.rateOf_frame_eq {anc : State} {M : Nat} {s : State} {num : Nat} {den : Nat} (hm : Sub 0x10000000000000000000000000000000000 M) {r0 tz} (heqx : State.rateOf s num den = (r0, tz)) (hk : anc.Within M s) : anc.Within M tz := by
  have := State.rateOf_frame (s := s) (num := num) (den := den) hm hk
  rwa [heqx] at this

theorem State.setRate_frame {anc : State} {M : Nat} {s : State} {q : Nat} {r : Nat} (hm : Sub 0x30000000000 M) (hk : anc.Within M s) : anc.Within M (State.setRate s q r) := by
  unfold State.setRate
  repeat' first
    | with_reducible assumption | with_reducible refine State.wf_frame ?_ ?_ | with_reducible exact hm.mono (by decide)
    | with_reducible exact hm.bit (by decide) | dsimp only

theorem State.cnpReceive_frame {anc : State} {M : Nat} {s : State} {q : Nat} (hm : Sub 0x10000000000200000000000030000000000 M) (hk : anc.Within M s) : anc.Within M (State.cnpReceive s q) := by
  unfold State.cnpReceive
  repeat' first
    | with_reducible assumption | with_reducible refine State.inc_frame ?_ ?_ | with_reducible refine State.rateOf_frame ?_ ?_
    | refine State.rateOf_frame_eq ?_ (by with_reducible assumption) ?_ | with_reducible refine State.setQp_frame ?_ ?_
    | with_reducible refine State.setRate_frame ?_ ?_ | with_reducible refine ite_frame ?_ ?_
    | with_reducible exact hm.mono (by decide) | with_reducible exact hm.bit (by decide)
    | ((with_reducible refine page_bit (B := ?_) (n := ?_) (k := ?_) hm ?_ ?_ ?_); (on_goal 4 => rfl); all_goals decide)
    | with_reducible exact corePage_bit hm (by decide) (by decide) (by decide) | split | dsimp only

theorem State.rateIncrease_frame {anc : State} {M : Nat} {s : State} {q : Nat} (hm : Sub 0x10000000000200000000000030000000000 M) (hk : anc.Within M s) : anc.Within M (State.rateIncrease s q) := by
  unfold State.rateIncrease
  repeat' first
    | with_reducible assumption | with_reducible refine State.rateOf_frame ?_ ?_
    | refine State.rateOf_frame_eq ?_ (by with_reducible assumption) ?_ | with_reducible refine State.setQp_frame ?_ ?_
    | with_reducible refine State.setRate_frame ?_ ?_ | with_reducible refine ite_frame ?_ ?_
    | with_reducible exact hm.mono (by decide) | split | dsimp only

theorem State.arpRequest_frame {anc : State} {M : Nat} {s : State} {p : Nat} {ip : Nat} (hm : Sub 0x8000000000000000000000010000000000 M) (hk : anc.Within M s) : anc.Within M (State.arpRequest s p ip) := by
  unfold State.arpRequest
  repeat' first
    | with_reducible assumption | with_reducible refine State.sendEth_frame ?_ ?_ | with_reducible refine ite_frame ?_ ?_
    | with_reducible exact hm.mono (by decide) | split | dsimp only

theorem State.neighbourSolicitation_frame {anc : State} {M : Nat} {s : State} {p : Nat} {hi : Nat} {lo : Nat} (hm : Sub 0x8000000000000000000000010000000000 M) (hk : anc.Within M s) : anc.Within M (State.neighbourSolicitation s p hi lo) := by
  unfold State.neighbourSolicitation
  repeat' first
    | with_reducible assumption | with_reducible refine State.sendEth_frame ?_ ?_ | with_reducible refine ite_frame ?_ ?_
    | with_reducible exact hm.mono (by decide) | split | dsimp only

theorem State.lldpSend_frame {anc : State} {M : Nat} {s : State} {p : Nat} (hm : Sub 0x8000000000400000000000010000000001 M) (hk : anc.Within M s) : anc.Within M (State.lldpSend s p) := by
  unfold State.lldpSend
  repeat' first
    | with_reducible assumption | with_reducible refine State.sendEth_frame ?_ ?_ | with_reducible refine State.setPort_frame ?_ ?_
    | with_reducible refine ite_frame ?_ ?_ | with_reducible exact hm.mono (by decide) | split | dsimp only

theorem State.lldpReceive_frame {anc : State} {M : Nat} {s : State} {p : Nat} {chassis : Nat} {portId : Nat} (hm : Sub 0x10000000000 M) (hk : anc.Within M s) : anc.Within M (State.lldpReceive s p chassis portId) := by
  unfold State.lldpReceive
  repeat' first
    | with_reducible assumption | with_reducible refine State.wf_frame ?_ ?_ | with_reducible refine ite_frame ?_ ?_
    | with_reducible exact hm.mono (by decide) | with_reducible exact hm.bit (by decide) | split | dsimp only

theorem State.inboundRdma_frame {anc : State} {M : Nat} {s : State} {q : Nat} (hm : Sub 0x8800000000b67800000400030000000006 M) (hk : anc.Within M s) : anc.Within M (State.inboundRdma s q) := by
  unfold State.inboundRdma
  repeat' first
    | with_reducible assumption | with_reducible refine State.qpError_frame ?_ ?_ | with_reducible refine State.setInt_frame ?_ ?_ ?_
    | with_reducible refine State.inc_frame ?_ ?_ | with_reducible refine State.framesOut_frame ?_ ?_
    | with_reducible refine State.emit_frame ?_ ?_ | with_reducible refine ite_frame ?_ ?_ | with_reducible exact hm.mono (by decide)
    | with_reducible exact hm.bit (by decide)
    | ((with_reducible refine page_bit (B := ?_) (n := ?_) (k := ?_) hm ?_ ?_ ?_); (on_goal 4 => rfl); all_goals decide)
    | with_reducible exact corePage_bit hm (by decide) (by decide) (by decide) | split | dsimp only

theorem State.remoteNak_frame {anc : State} {M : Nat} {s : State} {q : Nat} (hm : Sub 0x8800000000b67800000400030000000006 M) (hk : anc.Within M s) : anc.Within M (State.remoteNak s q) := by
  unfold State.remoteNak
  repeat' first
    | with_reducible assumption | with_reducible refine State.qpError_frame ?_ ?_ | with_reducible refine ite_frame ?_ ?_
    | with_reducible exact hm.mono (by decide) | split | dsimp only

theorem State.cmReq_frame {anc : State} {M : Nat} {s : State} {p : Nat} {r : CmReq} (hm : Sub 0x18000000000200000000000030000000000 M) (hk : anc.Within M s) : anc.Within M (State.cmReq s p r) := by
  unfold State.cmReq
  repeat' first
    | with_reducible assumption | with_reducible refine State.sendCm_frame ?_ ?_ | with_reducible refine State.draw_frame ?_ ?_
    | refine State.draw_frame_eq ?_ (by with_reducible assumption) ?_ | with_reducible refine State.wf_frame ?_ ?_
    | with_reducible refine State.setQp_frame ?_ ?_ | with_reducible refine ite_frame ?_ ?_
    | with_reducible exact hm.mono (by decide) | with_reducible exact hm.bit (by decide) | split | dsimp only

theorem State.cmRtu_frame {anc : State} {M : Nat} {s : State} {q : Nat} (hm : Sub 0x200000000000030000000000 M) (hk : anc.Within M s) : anc.Within M (State.cmRtu s q) := by
  unfold State.cmRtu
  repeat' first
    | with_reducible assumption | with_reducible refine State.wf_frame ?_ ?_ | with_reducible refine State.setQp_frame ?_ ?_
    | with_reducible refine State.countQps_frame ?_ ?_ | with_reducible refine ite_frame ?_ ?_
    | with_reducible exact hm.mono (by decide) | with_reducible exact hm.bit (by decide) | split | dsimp only

theorem State.cmRej_frame {anc : State} {M : Nat} {s : State} {q : Nat} (hm : Sub 0x200000000000020000000000 M) (hk : anc.Within M s) : anc.Within M (State.cmRej s q) := by
  unfold State.cmRej
  repeat' first
    | with_reducible assumption | with_reducible refine State.qpIdle_frame ?_ ?_ | with_reducible refine ite_frame ?_ ?_
    | with_reducible exact hm.mono (by decide) | split | dsimp only

theorem State.qpDisconnect_frame {anc : State} {M : Nat} {s : State} {q : Nat} (hm : Sub 0x8800000000b67800000400030000000006 M) (hk : anc.Within M s) : anc.Within M (State.qpDisconnect s q) := by
  unfold State.qpDisconnect
  repeat' first
    | with_reducible assumption | with_reducible refine State.qpLeave_frame ?_ ?_ | with_reducible refine ite_frame ?_ ?_
    | with_reducible exact hm.mono (by decide) | split | dsimp only

theorem State.cmDreq_frame {anc : State} {M : Nat} {s : State} {q : Nat} (hm : Sub 0x8800000000b67800000400030000000006 M) (hk : anc.Within M s) : anc.Within M (State.cmDreq s q) := by
  unfold State.cmDreq
  repeat' first
    | with_reducible assumption | with_reducible refine State.capture_frame ?_ ?_ ?_
    | with_reducible refine State.qpDisconnect_frame ?_ ?_ | with_reducible refine State.countQps_frame ?_ ?_
    | with_reducible refine State.qpIdle_frame ?_ ?_ | with_reducible refine State.sendCm_frame ?_ ?_
    | with_reducible refine ite_frame ?_ ?_ | with_reducible exact hm.mono (by decide) | with_reducible exact hm.bit (by decide)
    | ((with_reducible refine page_bit (B := ?_) (n := ?_) (k := ?_) hm ?_ ?_ ?_); (on_goal 4 => rfl); all_goals decide)
    | with_reducible exact corePage_bit hm (by decide) (by decide) (by decide) | split | dsimp only

theorem State.cmDrep_frame {anc : State} {M : Nat} {s : State} {q : Nat} (hm : Sub 0x200000000000020000000000 M) (hk : anc.Within M s) : anc.Within M (State.cmDrep s q) := by
  unfold State.cmDrep
  repeat' first
    | with_reducible assumption | with_reducible refine State.qpIdle_frame ?_ ?_ | with_reducible refine ite_frame ?_ ?_
    | with_reducible exact hm.mono (by decide) | split | dsimp only

theorem State.qpClose_frame {anc : State} {M : Nat} {s : State} {q : Nat} (hm : Sub 0x8800000000b67800000400030000000006 M) (hk : anc.Within M s) : anc.Within M (State.qpClose s q) := by
  unfold State.qpClose
  repeat' first
    | with_reducible assumption | with_reducible refine State.countQps_frame ?_ ?_ | with_reducible refine State.sendCm_frame ?_ ?_
    | with_reducible refine State.wf_frame ?_ ?_ | with_reducible refine State.qpDisconnect_frame ?_ ?_
    | with_reducible refine ite_frame ?_ ?_ | with_reducible exact hm.mono (by decide) | with_reducible exact hm.bit (by decide)
    | split | dsimp only

theorem State.retransmit_frame {anc : State} {M : Nat} {s : State} {q : Nat} (hm : Sub 0x8000000000000000000000030000000000 M) (hk : anc.Within M s) : anc.Within M (State.retransmit s q) := by
  unfold State.retransmit
  repeat' first
    | with_reducible assumption | with_reducible refine State.inc_frame ?_ ?_ | with_reducible refine State.framesOut_frame ?_ ?_
    | with_reducible refine State.emit_frame ?_ ?_ | with_reducible exact hm.mono (by decide)
    | with_reducible exact hm.bit (by decide)
    | ((with_reducible refine page_bit (B := ?_) (n := ?_) (k := ?_) hm ?_ ?_ ?_); (on_goal 4 => rfl); all_goals decide)
    | with_reducible exact corePage_bit hm (by decide) (by decide) (by decide) | split | dsimp only

theorem State.rcAck_frame {anc : State} {M : Nat} {s : State} {q : Nat} {kind : Nat} {psn : Nat} (hm : Sub 0x8800000000b67800000400030000000006 M) (hk : anc.Within M s) : anc.Within M (State.rcAck s q kind psn) := by
  unfold State.rcAck
  repeat' first
    | with_reducible assumption | with_reducible refine State.setQp_frame ?_ ?_ | with_reducible refine State.retransmit_frame ?_ ?_
    | with_reducible refine State.qpError_frame ?_ ?_ | with_reducible refine ite_frame ?_ ?_
    | with_reducible exact hm.mono (by decide) | split | dsimp only

theorem State.rcTimeout_frame {anc : State} {M : Nat} {s : State} {q : Nat} (hm : Sub 0x8800000000b67800000400030000000006 M) (hk : anc.Within M s) : anc.Within M (State.rcTimeout s q) := by
  unfold State.rcTimeout
  repeat' first
    | with_reducible assumption | with_reducible refine State.qpError_frame ?_ ?_
    | with_reducible refine State.retransmit_frame ?_ ?_ | with_reducible refine State.setQp_frame ?_ ?_
    | with_reducible refine ite_frame ?_ ?_ | with_reducible exact hm.mono (by decide) | split | dsimp only

theorem State.commandTimeout_frame {anc : State} {M : Nat} {s : State} {q : Nat} {id : Nat} (hm : Sub 0x8000000000b60000000000030000000004 M) (hk : anc.Within M s) : anc.Within M (State.commandTimeout s q id) := by
  unfold State.commandTimeout
  repeat' first
    | with_reducible assumption | with_reducible refine State.sendCompletion_frame ?_ ?_
    | with_reducible refine State.setRec_frame ?_ ?_ | with_reducible refine State.setCmd_frame ?_ ?_
    | with_reducible refine State.withdraw_frame ?_ ?_ | with_reducible refine ite_frame ?_ ?_
    | with_reducible exact hm.mono (by decide) | split | dsimp only

theorem State.unknownOpcode_frame {anc : State} {M : Nat} {s : State} {i : Instr} {opcode : Nat} {c : Cmd} (hm : Sub 0x8800000000be7800000400030000000006 M)
    (hk : anc.Within M s) : anc.Within M (State.unknownOpcode s i opcode c) := by
  unfold State.unknownOpcode
  split
  · exact hk
  · exact State.vorane_frame (hm.mono (by decide)) (fun t h => h) hk

theorem State.nop_frame {anc : State} {M : Nat} {s : State} {i : Instr} {c : Cmd} (hm : Sub 0x8800000000be7800000400030000000006 M) (hk : anc.Within M s) : anc.Within M (State.nop s i c) := by
  unfold State.nop
  repeat' first
    | with_reducible assumption | with_reducible refine State.vorane_frame ?_ ?_ ?_ | with_reducible refine State.reply_frame ?_ ?_
    | intro _ | with_reducible exact hm.mono (by decide) | dsimp only

theorem State.identify_frame {anc : State} {M : Nat} {s : State} {i : Instr} {c : Cmd} (hm : Sub 0x8800000000be7800000400030000000007 M) (hk : anc.Within M s) : anc.Within M (State.identify s i c) := by
  unfold State.identify
  repeat' first
    | with_reducible assumption | with_reducible refine State.vorane_frame ?_ ?_ ?_ | with_reducible refine State.reply_frame ?_ ?_
    | intro _ | with_reducible exact hm.mono (by decide) | dsimp only

theorem execFrameReceive_frame {anc : State} {M : Nat} {port : Nat} {f : EthFrame} {s : State} (hm : Sub 0x8000000000201800000000010000000000 M) (hk : anc.Within M s) : ∃ out, execFrameReceive port f s = .next out ∧ anc.Within M out := by
  unfold execFrameReceive
  refine ⟨_, rfl, ?_⟩
  repeat' first
    | with_reducible assumption | with_reducible refine State.frameReceive_frame ?_ ?_ | with_reducible exact hm.mono (by decide)
    | dsimp only

theorem execLinkUp_frame {anc : State} {M : Nat} {port : Nat} {s : State} (hm : Sub 0x8000000000401800000000010000000000 M) (hk : anc.Within M s) : ∃ out, execLinkUp port s = .next out ∧ anc.Within M out := by
  unfold execLinkUp
  refine ⟨_, rfl, ?_⟩
  repeat' first
    | with_reducible assumption | with_reducible refine State.linkComesUp_frame ?_ ?_ | with_reducible exact hm.mono (by decide)
    | dsimp only

theorem execLinkLoss_frame {anc : State} {M : Nat} {port : Nat} {s : State} (hm : Sub 0x401800000000010000000000 M) (hk : anc.Within M s) : ∃ out, execLinkLoss port s = .next out ∧ anc.Within M out := by
  unfold execLinkLoss
  refine ⟨_, rfl, ?_⟩
  repeat' first
    | with_reducible assumption | with_reducible refine State.linkGoesDown_frame ?_ ?_ | with_reducible exact hm.mono (by decide)
    | dsimp only

theorem execLinkDownTimeout_frame {anc : State} {M : Nat} {port : Nat} {s : State} (hm : Sub 0x8800000000f67800000400030000000006 M) (hk : anc.Within M s) : ∃ out, execLinkDownTimeout port s = .next out ∧ anc.Within M out := by
  unfold execLinkDownTimeout
  refine ⟨_, rfl, ?_⟩
  repeat' first
    | with_reducible assumption | with_reducible refine State.linkTimeout_frame ?_ ?_ | with_reducible exact hm.mono (by decide)
    | dsimp only

theorem execPfcXoff_frame {anc : State} {M : Nat} {port : Nat} {occ : Nat} {s : State} (hm : Sub 0x8000000000400000000000010000000000 M) (hk : anc.Within M s) : ∃ out, execPfcXoff port occ s = .next out ∧ anc.Within M out := by
  unfold execPfcXoff
  refine ⟨_, rfl, ?_⟩
  repeat' first
    | with_reducible assumption | with_reducible refine State.pfcXoff_frame ?_ ?_ | with_reducible exact hm.mono (by decide)
    | dsimp only

theorem execPfcRepeat_frame {anc : State} {M : Nat} {port : Nat} {occ : Nat} {s : State} (hm : Sub 0x8000000000400000000000010000000000 M) (hk : anc.Within M s) : ∃ out, execPfcRepeat port occ s = .next out ∧ anc.Within M out := by
  unfold execPfcRepeat
  refine ⟨_, rfl, ?_⟩
  repeat' first
    | with_reducible assumption | with_reducible refine State.pfcRepeat_frame ?_ ?_ | with_reducible exact hm.mono (by decide)
    | dsimp only

theorem execPfcXon_frame {anc : State} {M : Nat} {port : Nat} {occ : Nat} {s : State} (hm : Sub 0x8000000000400000000000010000000000 M) (hk : anc.Within M s) : ∃ out, execPfcXon port occ s = .next out ∧ anc.Within M out := by
  unfold execPfcXon
  refine ⟨_, rfl, ?_⟩
  repeat' first
    | with_reducible assumption | with_reducible refine State.pfcXon_frame ?_ ?_ | with_reducible exact hm.mono (by decide)
    | dsimp only

theorem execPfcReceive_frame {anc : State} {M : Nat} {port : Nat} {enable : Nat} {quanta : List Nat} {s : State} (hm : Sub 0x400000000000010000000000 M) (hk : anc.Within M s) : ∃ out, execPfcReceive port enable quanta s = .next out ∧ anc.Within M out := by
  unfold execPfcReceive
  refine ⟨_, rfl, ?_⟩
  repeat' first
    | with_reducible assumption | with_reducible refine State.pfcReceive_frame ?_ ?_ | with_reducible exact hm.mono (by decide)
    | dsimp only

theorem execCnpReceive_frame {anc : State} {M : Nat} {qp : Nat} {s : State} (hm : Sub 0x10000000000200000000000030000000000 M) (hk : anc.Within M s) : ∃ out, execCnpReceive qp s = .next out ∧ anc.Within M out := by
  unfold execCnpReceive
  refine ⟨_, rfl, ?_⟩
  repeat' first
    | with_reducible assumption | with_reducible refine State.cnpReceive_frame ?_ ?_ | with_reducible exact hm.mono (by decide)
    | dsimp only

theorem execRateIncrease_frame {anc : State} {M : Nat} {qp : Nat} {s : State} (hm : Sub 0x10000000000200000000000030000000000 M) (hk : anc.Within M s) : ∃ out, execRateIncrease qp s = .next out ∧ anc.Within M out := by
  unfold execRateIncrease
  refine ⟨_, rfl, ?_⟩
  repeat' first
    | with_reducible assumption | with_reducible refine State.rateIncrease_frame ?_ ?_ | with_reducible exact hm.mono (by decide)
    | dsimp only

theorem execArpRequest_frame {anc : State} {M : Nat} {port : Nat} {ip : Nat} {s : State} (hm : Sub 0x8000000000000000000000010000000000 M) (hk : anc.Within M s) : ∃ out, execArpRequest port ip s = .next out ∧ anc.Within M out := by
  unfold execArpRequest
  refine ⟨_, rfl, ?_⟩
  repeat' first
    | with_reducible assumption | with_reducible refine State.arpRequest_frame ?_ ?_ | with_reducible exact hm.mono (by decide)
    | dsimp only

theorem execNeighbourSolicitation_frame {anc : State} {M : Nat} {port : Nat} {hi : Nat} {lo : Nat} {s : State} (hm : Sub 0x8000000000000000000000010000000000 M) (hk : anc.Within M s) : ∃ out, execNeighbourSolicitation port hi lo s = .next out ∧ anc.Within M out := by
  unfold execNeighbourSolicitation
  refine ⟨_, rfl, ?_⟩
  repeat' first
    | with_reducible assumption | with_reducible refine State.neighbourSolicitation_frame ?_ ?_
    | with_reducible exact hm.mono (by decide) | dsimp only

theorem execLldpSend_frame {anc : State} {M : Nat} {port : Nat} {s : State} (hm : Sub 0x8000000000400000000000010000000001 M) (hk : anc.Within M s) : ∃ out, execLldpSend port s = .next out ∧ anc.Within M out := by
  unfold execLldpSend
  refine ⟨_, rfl, ?_⟩
  repeat' first
    | with_reducible assumption | with_reducible refine State.lldpSend_frame ?_ ?_ | with_reducible exact hm.mono (by decide)
    | dsimp only

theorem execLldpReceive_frame {anc : State} {M : Nat} {port : Nat} {chassis : Nat} {portId : Nat} {s : State} (hm : Sub 0x10000000000 M) (hk : anc.Within M s) : ∃ out, execLldpReceive port chassis portId s = .next out ∧ anc.Within M out := by
  unfold execLldpReceive
  refine ⟨_, rfl, ?_⟩
  repeat' first
    | with_reducible assumption | with_reducible refine State.lldpReceive_frame ?_ ?_ | with_reducible exact hm.mono (by decide)
    | dsimp only

theorem execInboundRdma_frame {anc : State} {M : Nat} {qp : Nat} {s : State} (hm : Sub 0x8800000000b67800000400030000000006 M) (hk : anc.Within M s) : ∃ out, execInboundRdma qp s = .next out ∧ anc.Within M out := by
  unfold execInboundRdma
  refine ⟨_, rfl, ?_⟩
  repeat' first
    | with_reducible assumption | with_reducible refine State.inboundRdma_frame ?_ ?_ | with_reducible exact hm.mono (by decide)
    | dsimp only

theorem execRemoteNak_frame {anc : State} {M : Nat} {qp : Nat} {s : State} (hm : Sub 0x8800000000b67800000400030000000006 M) (hk : anc.Within M s) : ∃ out, execRemoteNak qp s = .next out ∧ anc.Within M out := by
  unfold execRemoteNak
  refine ⟨_, rfl, ?_⟩
  repeat' first
    | with_reducible assumption | with_reducible refine State.remoteNak_frame ?_ ?_ | with_reducible exact hm.mono (by decide)
    | dsimp only

theorem execCmReq_frame {anc : State} {M : Nat} {port : Nat} {r : CmReq} {s : State} (hm : Sub 0x18000000000200000000000030000000000 M) (hk : anc.Within M s) : ∃ out, execCmReq port r s = .next out ∧ anc.Within M out := by
  unfold execCmReq
  refine ⟨_, rfl, ?_⟩
  repeat' first
    | with_reducible assumption | with_reducible refine State.cmReq_frame ?_ ?_ | with_reducible exact hm.mono (by decide)
    | dsimp only

theorem execCmRtu_frame {anc : State} {M : Nat} {qp : Nat} {s : State} (hm : Sub 0x200000000000030000000000 M) (hk : anc.Within M s) : ∃ out, execCmRtu qp s = .next out ∧ anc.Within M out := by
  unfold execCmRtu
  refine ⟨_, rfl, ?_⟩
  repeat' first
    | with_reducible assumption | with_reducible refine State.cmRtu_frame ?_ ?_ | with_reducible exact hm.mono (by decide)
    | dsimp only

theorem execCmRej_frame {anc : State} {M : Nat} {qp : Nat} {s : State} (hm : Sub 0x200000000000020000000000 M) (hk : anc.Within M s) : ∃ out, execCmRej qp s = .next out ∧ anc.Within M out := by
  unfold execCmRej
  refine ⟨_, rfl, ?_⟩
  repeat' first
    | with_reducible assumption | with_reducible refine State.cmRej_frame ?_ ?_ | with_reducible exact hm.mono (by decide)
    | dsimp only

theorem execCmDreq_frame {anc : State} {M : Nat} {qp : Nat} {s : State} (hm : Sub 0x8800000000b67800000400030000000006 M) (hk : anc.Within M s) : ∃ out, execCmDreq qp s = .next out ∧ anc.Within M out := by
  unfold execCmDreq
  refine ⟨_, rfl, ?_⟩
  repeat' first
    | with_reducible assumption | with_reducible refine State.cmDreq_frame ?_ ?_ | with_reducible exact hm.mono (by decide)
    | dsimp only

theorem execCmDrep_frame {anc : State} {M : Nat} {qp : Nat} {s : State} (hm : Sub 0x200000000000020000000000 M) (hk : anc.Within M s) : ∃ out, execCmDrep qp s = .next out ∧ anc.Within M out := by
  unfold execCmDrep
  refine ⟨_, rfl, ?_⟩
  repeat' first
    | with_reducible assumption | with_reducible refine State.cmDrep_frame ?_ ?_ | with_reducible exact hm.mono (by decide)
    | dsimp only

theorem execQpError_frame {anc : State} {M : Nat} {qp : Nat} {cause : Nat} {s : State} (hm : Sub 0x8800000000b67800000400030000000006 M) (hk : anc.Within M s) : ∃ out, execQpError qp cause s = .next out ∧ anc.Within M out := by
  unfold execQpError
  refine ⟨_, rfl, ?_⟩
  repeat' first
    | with_reducible assumption | with_reducible refine State.qpError_frame ?_ ?_ | with_reducible exact hm.mono (by decide)
    | dsimp only

theorem execRcAck_frame {anc : State} {M : Nat} {qp : Nat} {kind : Nat} {psn : Nat} {s : State} (hm : Sub 0x8800000000b67800000400030000000006 M) (hk : anc.Within M s) : ∃ out, execRcAck qp kind psn s = .next out ∧ anc.Within M out := by
  unfold execRcAck
  refine ⟨_, rfl, ?_⟩
  repeat' first
    | with_reducible assumption | with_reducible refine State.rcAck_frame ?_ ?_ | with_reducible exact hm.mono (by decide)
    | dsimp only

theorem execRcRetryTimeout_frame {anc : State} {M : Nat} {qp : Nat} {s : State} (hm : Sub 0x8800000000b67800000400030000000006 M) (hk : anc.Within M s) : ∃ out, execRcRetryTimeout qp s = .next out ∧ anc.Within M out := by
  unfold execRcRetryTimeout
  refine ⟨_, rfl, ?_⟩
  repeat' first
    | with_reducible assumption | with_reducible refine State.rcTimeout_frame ?_ ?_ | with_reducible exact hm.mono (by decide)
    | dsimp only

theorem execCommandTimeout_frame {anc : State} {M : Nat} {qp : Nat} {id : Nat} {s : State} (hm : Sub 0x8000000000b60000000000030000000004 M) (hk : anc.Within M s) : ∃ out, execCommandTimeout qp id s = .next out ∧ anc.Within M out := by
  unfold execCommandTimeout
  refine ⟨_, rfl, ?_⟩
  repeat' first
    | with_reducible assumption | with_reducible refine State.commandTimeout_frame ?_ ?_ | with_reducible exact hm.mono (by decide)
    | dsimp only

theorem execUnknownOpcode_frame {anc : State} {M : Nat} {opcode : Nat} {c : Cmd} {s : State} (hm : Sub 0x8800000000be7800000400030000000006 M) (hk : anc.Within M s) : ∃ out, execUnknownOpcode opcode c s = .next out ∧ anc.Within M out := by
  unfold execUnknownOpcode
  refine ⟨_, rfl, ?_⟩
  repeat' first
    | with_reducible assumption | with_reducible refine State.unknownOpcode_frame ?_ ?_ | with_reducible exact hm.mono (by decide)
    | dsimp only

theorem execNop_frame {anc : State} {M : Nat} {c : Cmd} {s : State} (hm : Sub 0x8800000000be7800000400030000000006 M) (hk : anc.Within M s) : ∃ out, execNop c s = .next out ∧ anc.Within M out := by
  unfold execNop
  refine ⟨_, rfl, ?_⟩
  repeat' first
    | with_reducible assumption | with_reducible refine State.nop_frame ?_ ?_ | with_reducible exact hm.mono (by decide) | dsimp only

theorem execIdentify_frame {anc : State} {M : Nat} {c : Cmd} {s : State} (hm : Sub 0x8800000000be7800000400030000000007 M) (hk : anc.Within M s) : ∃ out, execIdentify c s = .next out ∧ anc.Within M out := by
  unfold execIdentify
  refine ⟨_, rfl, ?_⟩
  repeat' first
    | with_reducible assumption | with_reducible refine State.identify_frame ?_ ?_ | with_reducible exact hm.mono (by decide)
    | dsimp only

end Sys2Proof.Machine
end

