-- ==== Sys2Proof/Laws/Frame/Sema.lean ====
section
/-! SUPPORT. Every operation and meaning of Machine/Sema.lean changes only the register areas and parts of the state its mask names. -/

namespace Sys2Proof.Machine

set_option linter.unreachableTactic false
set_option linter.unusedTactic false

theorem State.semAcquire_frame {anc : State} {M : Nat} {s : State} {i : Nat} {holder : Nat} {source : Nat} {leaseMs : Nat} (hm : Sub 0x800000000000020000000004 M) (hk : anc.Within M s) : anc.Within M (State.semAcquire s i holder source leaseMs).2 := by
  unfold State.semAcquire
  repeat' first
    | with_reducible assumption | with_reducible refine State.semGrant_frame ?_ ?_ | with_reducible refine State.setSem_frame ?_ ?_
    | with_reducible refine ite_frame ?_ ?_ | with_reducible refine ite_frame2 ?_ ?_ | with_reducible refine ite_frame3 ?_ ?_
    | with_reducible exact hm.mono (by decide) | split | dsimp only

theorem State.semAcquire_frame_eq {anc : State} {M : Nat} {s : State} {i : Nat} {holder : Nat} {source : Nat} {leaseMs : Nat} (hm : Sub 0x800000000000020000000004 M) {r0 tz} (heqx : State.semAcquire s i holder source leaseMs = (r0, tz)) (hk : anc.Within M s) : anc.Within M tz := by
  have := State.semAcquire_frame (s := s) (i := i) (holder := holder) (source := source) (leaseMs := leaseMs) hm hk
  rwa [heqx] at this

theorem State.semRelease_frame {anc : State} {M : Nat} {s : State} {i : Nat} {holder : Nat} {source : Nat} (hm : Sub 0x8000000000b20000000000030000000004 M) (hk : anc.Within M s) : anc.Within M (State.semRelease s i holder source).2 := by
  unfold State.semRelease
  repeat' first
    | with_reducible assumption | with_reducible refine State.semNext_frame ?_ ?_ | with_reducible refine State.semFree_frame ?_ ?_
    | with_reducible refine ite_frame ?_ ?_ | with_reducible refine ite_frame2 ?_ ?_ | with_reducible refine ite_frame3 ?_ ?_
    | with_reducible exact hm.mono (by decide) | split | dsimp only

theorem State.semRelease_frame_eq {anc : State} {M : Nat} {s : State} {i : Nat} {holder : Nat} {source : Nat} (hm : Sub 0x8000000000b20000000000030000000004 M) {r0 tz} (heqx : State.semRelease s i holder source = (r0, tz)) (hk : anc.Within M s) : anc.Within M tz := by
  have := State.semRelease_frame (s := s) (i := i) (holder := holder) (source := source) hm hk
  rwa [heqx] at this

theorem State.semAcquireCmd_frame {anc : State} {M : Nat} {s : State} {instr : Instr} {c : Cmd} (hm : Sub 0x8800000000be7800000400030000000006 M) (hk : anc.Within M s) : anc.Within M (State.semAcquireCmd s instr c) := by
  unfold State.semAcquireCmd
  repeat' first
    | with_reducible assumption | with_reducible refine State.vorane_frame ?_ ?_ ?_
    | with_reducible refine State.semAcquire_frame ?_ ?_ | refine State.semAcquire_frame_eq ?_ (by with_reducible assumption) ?_
    | with_reducible refine State.reply_frame ?_ ?_ | with_reducible refine State.semCount_frame ?_ ?_
    | with_reducible refine State.setSem_frame ?_ ?_ | intro _ | with_reducible refine ite_frame ?_ ?_
    | with_reducible exact hm.mono (by decide) | split | dsimp only

theorem State.semReleaseCmd_frame {anc : State} {M : Nat} {s : State} {instr : Instr} {c : Cmd} (hm : Sub 0x8800000000be7800000400030000000006 M) (hk : anc.Within M s) : anc.Within M (State.semReleaseCmd s instr c) := by
  unfold State.semReleaseCmd
  repeat' first
    | with_reducible assumption | with_reducible refine State.vorane_frame ?_ ?_ ?_
    | with_reducible refine State.semRelease_frame ?_ ?_ | refine State.semRelease_frame_eq ?_ (by with_reducible assumption) ?_
    | with_reducible refine State.reply_frame ?_ ?_ | intro _ | with_reducible exact hm.mono (by decide) | split | dsimp only

theorem State.semBreakCmd_frame {anc : State} {M : Nat} {s : State} {instr : Instr} {c : Cmd} (hm : Sub 0x8800000000be7800000400030000000006 M) (hk : anc.Within M s) : anc.Within M (State.semBreakCmd s instr c) := by
  unfold State.semBreakCmd
  repeat' first
    | with_reducible assumption | with_reducible refine State.vorane_frame ?_ ?_ ?_
    | with_reducible refine State.semBreak_frame ?_ ?_ | with_reducible refine State.reply_frame ?_ ?_ | intro _
    | with_reducible refine ite_frame ?_ ?_ | with_reducible exact hm.mono (by decide) | split | dsimp only

theorem State.semOp_frame {anc : State} {M : Nat} {s : State} {holder : Nat} {source : Nat} {i : Nat} {op : Nat} {leaseMs : Nat} (hm : Sub 0x8000000000b27800000000030000000006 M) (hk : anc.Within M s) : anc.Within M (State.semOp s holder source i op leaseMs) := by
  unfold State.semOp
  repeat' first
    | with_reducible assumption | with_reducible refine State.semAcquire_frame ?_ ?_
    | refine State.semAcquire_frame_eq ?_ (by with_reducible assumption) ?_ | with_reducible refine State.semRelease_frame ?_ ?_
    | refine State.semRelease_frame_eq ?_ (by with_reducible assumption) ?_ | with_reducible refine State.semBreak_frame ?_ ?_
    | with_reducible refine ite_frame ?_ ?_ | with_reducible exact hm.mono (by decide) | split | dsimp only

theorem State.leaseExpiry_frame {anc : State} {M : Nat} {s : State} {i : Nat} (hm : Sub 0x8000000000b27800000000030000000006 M) (hk : anc.Within M s) : anc.Within M (State.leaseExpiry s i) := by
  unfold State.leaseExpiry
  repeat' first
    | with_reducible assumption | with_reducible refine State.semBreak_frame ?_ ?_ | with_reducible refine ite_frame ?_ ?_
    | with_reducible exact hm.mono (by decide) | split | dsimp only

theorem execSemAcquire_frame {anc : State} {M : Nat} {c : Cmd} {s : State} (hm : Sub 0x8800000000be7800000400030000000006 M) (hk : anc.Within M s) : ∃ out, execSemAcquire c s = .next out ∧ anc.Within M out := by
  unfold execSemAcquire
  refine ⟨_, rfl, ?_⟩
  repeat' first
    | with_reducible assumption | with_reducible refine State.semAcquireCmd_frame ?_ ?_ | with_reducible exact hm.mono (by decide)
    | dsimp only

theorem execSemRelease_frame {anc : State} {M : Nat} {c : Cmd} {s : State} (hm : Sub 0x8800000000be7800000400030000000006 M) (hk : anc.Within M s) : ∃ out, execSemRelease c s = .next out ∧ anc.Within M out := by
  unfold execSemRelease
  refine ⟨_, rfl, ?_⟩
  repeat' first
    | with_reducible assumption | with_reducible refine State.semReleaseCmd_frame ?_ ?_ | with_reducible exact hm.mono (by decide)
    | dsimp only

theorem execSemBreak_frame {anc : State} {M : Nat} {c : Cmd} {s : State} (hm : Sub 0x8800000000be7800000400030000000006 M) (hk : anc.Within M s) : ∃ out, execSemBreak c s = .next out ∧ anc.Within M out := by
  unfold execSemBreak
  refine ⟨_, rfl, ?_⟩
  repeat' first
    | with_reducible assumption | with_reducible refine State.semBreakCmd_frame ?_ ?_ | with_reducible exact hm.mono (by decide)
    | dsimp only

theorem execLeaseExpiry_frame {anc : State} {M : Nat} {i : Nat} {s : State} (hm : Sub 0x8000000000b27800000000030000000006 M) (hk : anc.Within M s) : ∃ out, execLeaseExpiry i s = .next out ∧ anc.Within M out := by
  unfold execLeaseExpiry
  refine ⟨_, rfl, ?_⟩
  repeat' first
    | with_reducible assumption | with_reducible refine State.leaseExpiry_frame ?_ ?_ | with_reducible exact hm.mono (by decide)
    | dsimp only

end Sys2Proof.Machine
end

