-- ==== Sys2Proof/Laws/Frame/Oasis.lean ====
section
/-! SUPPORT. Every operation and meaning of Machine/Oasis.lean changes only the register areas and parts of the state its mask names. -/

namespace Sys2Proof.Machine

set_option linter.unreachableTactic false
set_option linter.unusedTactic false

theorem State.cutCmd_frame {anc : State} {M : Nat} {s : State} {q : Nat} {id : Nat} (hm : Sub 0x8000000000b60000000000030000000004 M) (hk : anc.Within M s) : anc.Within M (State.cutCmd s q id) := by
  unfold State.cutCmd
  repeat' first
    | with_reducible assumption | with_reducible refine State.setRec_frame ?_ ?_
    | with_reducible refine State.sendCompletion_frame ?_ ?_ | with_reducible refine State.withdraw_frame ?_ ?_
    | with_reducible refine ite_frame ?_ ?_ | with_reducible exact hm.mono (by decide) | with_reducible exact hm.bit (by decide)
    | simp only [or_true, true_and, and_true] | with_reducible refine And.intro ?_ ?_
    | with_reducible exact .inl (hm.bit (by decide)) | split | dsimp only | with_reducible refine State.frame_mk ?_ ?_

theorem State.abandonStage_frame {anc : State} {M : Nat} {s : State} (hm : Sub 0x8200000000b60000000000030000000006 M) (hk : anc.Within M s) : anc.Within M (State.abandonStage s) := by
  unfold State.abandonStage
  repeat' first
    | with_reducible assumption | with_reducible refine State.cutCmd_frame ?_ ?_ | with_reducible refine State.wf_frame ?_ ?_
    | with_reducible exact hm.mono (by decide) | with_reducible exact hm.bit (by decide)
    | with_reducible exact slotStateF_bit hm (by decide) | simp only [or_true, true_and, and_true]
    | with_reducible refine And.intro ?_ ?_ | with_reducible exact .inl (hm.bit (by decide)) | split | dsimp only
    | with_reducible refine State.frame_mk ?_ ?_

theorem State.trialBad_frame {anc : State} {M : Nat} {s : State} (hm : Sub 0x12 M) (hk : anc.Within M s) : anc.Within M (State.trialBad s) := by
  unfold State.trialBad
  repeat' first
    | with_reducible assumption | with_reducible refine State.wf_frame ?_ ?_ | with_reducible refine ite_frame ?_ ?_
    | with_reducible exact hm.mono (by decide) | with_reducible exact hm.bit (by decide)
    | with_reducible exact slotStateF_bit hm (by decide) | split | dsimp only

theorem State.logRestart_frame {anc : State} {M : Nat} {s : State} {running : Nat} (hm : Sub 0x7800000000000000000002 M) (hk : anc.Within M s) : anc.Within M (State.logRestart s running) := by
  unfold State.logRestart
  repeat' first
    | with_reducible assumption | with_reducible refine State.logEv_frame ?_ ?_ | with_reducible exact hm.mono (by decide)
    | dsimp only

theorem State.oasisEscalate_frame {anc : State} {M : Nat} {s : State} (hm : Sub 0x1ffffffffffffffffffffffffffffffffff M) (hk : anc.Within M s) : anc.Within M (State.oasisEscalate s) := by
  unfold State.oasisEscalate
  repeat' first
    | with_reducible assumption | with_reducible refine State.raiseAlert_frame ?_ ?_
    | with_reducible refine State.coldStart_frame ?_ ?_ | with_reducible refine State.logRestart_frame ?_ ?_
    | with_reducible exact hm.mono (by decide) | dsimp only

theorem State.oasisRestart_frame {anc : State} {M : Nat} {s : State} {cause : Nat} (hm : Sub 0x1ffffffffffffffffffffffffffffffffff M) (hk : anc.Within M s) : anc.Within M (State.oasisRestart s cause) := by
  unfold State.oasisRestart
  repeat' first
    | with_reducible assumption | with_reducible refine State.incSat_frame ?_ ?_ | with_reducible refine State.wf_frame ?_ ?_
    | with_reducible refine State.oasisEscalate_frame ?_ ?_ | with_reducible refine State.trialBad_frame ?_ ?_
    | with_reducible refine State.abandonStage_frame ?_ ?_ | with_reducible refine ite_frame ?_ ?_
    | with_reducible exact hm.mono (by decide) | with_reducible exact hm.bit (by decide)
    | ((with_reducible refine page_bit (B := ?_) (n := ?_) (k := ?_) hm ?_ ?_ ?_); (on_goal 4 => rfl); all_goals decide)
    | with_reducible exact corePage_bit hm (by decide) (by decide) (by decide) | with_reducible exact hm.any (by decide) _
    | with_reducible exact hm.anyPage (by decide) _ | simp only [or_true, true_and, and_true] | with_reducible refine And.intro ?_ ?_
    | with_reducible exact .inl (hm.bit (by decide)) | split | dsimp only | with_reducible refine State.frame_mk ?_ ?_

theorem State.oasisRunning_frame {anc : State} {M : Nat} {s : State} {ok : Bool} (hm : Sub 0x1ffffffffffffffffffffffffffffffffff M) (hk : anc.Within M s) : anc.Within M (State.oasisRunning s ok) := by
  unfold State.oasisRunning
  repeat' first
    | with_reducible assumption | with_reducible refine State.oasisEscalate_frame ?_ ?_
    | with_reducible refine State.raiseAlert_frame ?_ ?_ | with_reducible refine State.logRestart_frame ?_ ?_
    | with_reducible refine State.setInt_frame ?_ ?_ ?_ | with_reducible refine State.wf_frame ?_ ?_
    | with_reducible refine ite_frame ?_ ?_ | with_reducible exact hm.mono (by decide) | with_reducible exact hm.bit (by decide)
    | ((with_reducible refine page_bit (B := ?_) (n := ?_) (k := ?_) hm ?_ ?_ ?_); (on_goal 4 => rfl); all_goals decide)
    | with_reducible exact corePage_bit hm (by decide) (by decide) (by decide) | with_reducible exact hm.any (by decide) _
    | with_reducible exact hm.anyPage (by decide) _ | simp only [or_true, true_and, and_true] | with_reducible refine And.intro ?_ ?_
    | with_reducible exact .inl (hm.bit (by decide)) | split | dsimp only | with_reducible refine State.frame_mk ?_ ?_

theorem State.oasisOverrun_frame {anc : State} {M : Nat} {s : State} (hm : Sub 0x1ffffffffffffffffffffffffffffffffff M) (hk : anc.Within M s) : anc.Within M (State.oasisOverrun s) := by
  unfold State.oasisOverrun
  repeat' first
    | with_reducible assumption | with_reducible refine State.oasisEscalate_frame ?_ ?_ | with_reducible refine ite_frame ?_ ?_
    | with_reducible exact hm.mono (by decide) | split | dsimp only

theorem State.heartbeat_frame {anc : State} {M : Nat} {s : State} {i : Instr} {c : Cmd} (hm : Sub 0x1ffffffffffffffffffffffffffffffffff M) (hk : anc.Within M s) : anc.Within M (State.heartbeat s i c) := by
  unfold State.heartbeat
  repeat' first
    | with_reducible assumption | with_reducible refine State.vorane_frame ?_ ?_ ?_ | with_reducible refine State.wf_frame ?_ ?_
    | with_reducible refine State.oasisRestart_frame ?_ ?_ | with_reducible refine State.takeEffect_frame ?_ ?_
    | with_reducible refine State.when_frame ?_ ?_ | intro _ | with_reducible exact hm.mono (by decide)
    | with_reducible exact hm.bit (by decide) | with_reducible exact hm.any (by decide) _
    | with_reducible exact hm.anyPage (by decide) _ | simp only [or_true, true_and, and_true] | with_reducible refine And.intro ?_ ?_
    | with_reducible exact .inl (hm.bit (by decide)) | dsimp only | with_reducible refine State.frame_mk ?_ ?_

theorem State.hbEcho_frame {anc : State} {M : Nat} {s : State} (hm : Sub 0x8200000000320000000000030000000002 M) (hk : anc.Within M s) : anc.Within M (State.hbEcho s) := by
  unfold State.hbEcho
  repeat' first
    | with_reducible assumption | with_reducible refine State.wf_frame ?_ ?_ | with_reducible refine State.finish_frame ?_ ?_
    | with_reducible refine State.each_frame ?_ ?_ | intro _ | with_reducible refine ite_frame ?_ ?_
    | with_reducible exact hm.mono (by decide) | with_reducible exact hm.bit (by decide) | simp only [or_true, true_and, and_true]
    | with_reducible refine And.intro ?_ ?_ | with_reducible exact .inl (hm.bit (by decide)) | split | dsimp only
    | with_reducible refine State.frame_mk ?_ ?_

theorem State.beatTimeout_frame {anc : State} {M : Nat} {s : State} {q : Nat} {id : Nat} (hm : Sub 0x8200000000321800000000030000000002 M) (hk : anc.Within M s) : anc.Within M (State.beatTimeout s q id) := by
  unfold State.beatTimeout
  repeat' first
    | with_reducible assumption | with_reducible refine State.setInt_frame ?_ ?_ ?_ | with_reducible refine State.incSat_frame ?_ ?_
    | with_reducible refine State.finish_frame ?_ ?_ | with_reducible refine ite_frame ?_ ?_
    | with_reducible exact hm.mono (by decide) | with_reducible exact hm.bit (by decide)
    | ((with_reducible refine page_bit (B := ?_) (n := ?_) (k := ?_) hm ?_ ?_ ?_); (on_goal 4 => rfl); all_goals decide)
    | with_reducible exact corePage_bit hm (by decide) (by decide) (by decide) | simp only [or_true, true_and, and_true]
    | with_reducible refine And.intro ?_ ?_ | with_reducible exact .inl (hm.bit (by decide)) | split | dsimp only
    | with_reducible refine State.frame_mk ?_ ?_

theorem State.wdHost_frame {anc : State} {M : Nat} {s : State} (hm : Sub 0x1ffffffffffffffffffffffffffffffffff M) (hk : anc.Within M s) : anc.Within M (State.wdHost s) := by
  unfold State.wdHost
  repeat' first
    | with_reducible assumption | with_reducible refine State.oasisRestart_frame ?_ ?_ | with_reducible refine ite_frame ?_ ?_
    | with_reducible exact hm.mono (by decide) | with_reducible exact hm.bit (by decide) | with_reducible exact hm.any (by decide) _
    | with_reducible exact hm.anyPage (by decide) _ | simp only [or_true, true_and, and_true] | with_reducible refine And.intro ?_ ?_
    | with_reducible exact .inl (hm.bit (by decide)) | split | dsimp only | with_reducible refine State.frame_mk ?_ ?_

theorem State.wdRound_frame {anc : State} {M : Nat} {s : State} (hm : Sub 0x1ffffffffffffffffffffffffffffffffff M) (hk : anc.Within M s) : anc.Within M (State.wdRound s) := by
  unfold State.wdRound
  repeat' first
    | with_reducible assumption | with_reducible refine State.oasisRestart_frame ?_ ?_ | with_reducible refine ite_frame ?_ ?_
    | with_reducible exact hm.mono (by decide) | split | dsimp only

theorem State.hostSilent_frame {anc : State} {M : Nat} {s : State} (hm : Sub 0x7800000000000000000002 M) (hk : anc.Within M s) : anc.Within M (State.hostSilent s) := by
  unfold State.hostSilent
  repeat' first
    | with_reducible assumption | with_reducible refine State.logEv_frame ?_ ?_ | with_reducible refine State.setInt_frame ?_ ?_ ?_
    | with_reducible refine State.wf_frame ?_ ?_ | with_reducible refine ite_frame ?_ ?_ | with_reducible exact hm.mono (by decide)
    | with_reducible exact hm.bit (by decide)
    | ((with_reducible refine page_bit (B := ?_) (n := ?_) (k := ?_) hm ?_ ?_ ?_); (on_goal 4 => rfl); all_goals decide)
    | with_reducible exact corePage_bit hm (by decide) (by decide) (by decide) | split | dsimp only

theorem State.timeStep_frame {anc : State} {M : Nat} {s : State} {off : Nat} {src : Nat} (hm : Sub 0x7900000000000000000002 M) (hk : anc.Within M s) : anc.Within M (State.timeStep s off src) := by
  unfold State.timeStep
  repeat' first
    | with_reducible assumption | with_reducible refine State.inc_frame ?_ ?_ | with_reducible refine State.wf_frame ?_ ?_
    | with_reducible refine State.logEv_frame ?_ ?_ | with_reducible refine State.setInt_frame ?_ ?_ ?_
    | with_reducible refine State.when_frame ?_ ?_ | intro _ | with_reducible exact hm.mono (by decide)
    | with_reducible exact hm.bit (by decide)
    | ((with_reducible refine page_bit (B := ?_) (n := ?_) (k := ?_) hm ?_ ?_ ?_); (on_goal 4 => rfl); all_goals decide)
    | with_reducible exact corePage_bit hm (by decide) (by decide) (by decide) | simp only [or_true, true_and, and_true]
    | with_reducible refine And.intro ?_ ?_ | with_reducible exact .inl (hm.bit (by decide)) | dsimp only
    | with_reducible refine State.frame_mk ?_ ?_

theorem State.slewBy_frame {anc : State} {M : Nat} {s : State} {off : Int} {full : Bool} (hm : Sub 0x10200000000000000000000000000000002 M) (hk : anc.Within M s) : anc.Within M (State.slewBy s off full) := by
  unfold State.slewBy
  repeat' first
    | with_reducible assumption | with_reducible refine State.draw_frame ?_ ?_
    | refine State.draw_frame_eq ?_ (by with_reducible assumption) ?_ | with_reducible refine State.wf_frame ?_ ?_
    | with_reducible refine ite_frame ?_ ?_ | with_reducible exact hm.mono (by decide) | with_reducible exact hm.bit (by decide)
    | simp only [or_true, true_and, and_true] | with_reducible refine And.intro ?_ ?_
    | with_reducible exact .inl (hm.bit (by decide)) | split | dsimp only | with_reducible refine State.frame_mk ?_ ?_

theorem State.tickTime_frame {anc : State} {M : Nat} {s : State} (hm : Sub 0x200000000000300000000000000000002 M) (hk : anc.Within M s) : anc.Within M (State.tickTime s) := by
  unfold State.tickTime
  repeat' first
    | with_reducible assumption | with_reducible refine State.wf_frame ?_ ?_ | with_reducible refine ite_frame ?_ ?_
    | with_reducible exact hm.mono (by decide) | with_reducible exact hm.bit (by decide) | simp only [or_true, true_and, and_true]
    | with_reducible refine And.intro ?_ ?_ | with_reducible exact .inl (hm.bit (by decide)) | split | dsimp only
    | with_reducible refine State.frame_mk ?_ ?_

theorem State.setSync_frame {anc : State} {M : Nat} {s : State} {st : Nat} (hm : Sub 0x1800000000000000000002 M) (hk : anc.Within M s) : anc.Within M (State.setSync s st) := by
  unfold State.setSync
  repeat' first
    | with_reducible assumption | with_reducible refine State.setInt_frame ?_ ?_ ?_ | with_reducible refine State.wf_frame ?_ ?_
    | with_reducible refine ite_frame ?_ ?_ | with_reducible exact hm.mono (by decide) | with_reducible exact hm.bit (by decide)
    | ((with_reducible refine page_bit (B := ?_) (n := ?_) (k := ?_) hm ?_ ?_ ?_); (on_goal 4 => rfl); all_goals decide)
    | with_reducible exact corePage_bit hm (by decide) (by decide) (by decide) | split | dsimp only

theorem State.syncLock_frame {anc : State} {M : Nat} {s : State} {st : Nat} {bound : Option Nat} (hm : Sub 0x10200000000001800000000000000000002 M) (hk : anc.Within M s) : anc.Within M (State.syncLock s st bound) := by
  unfold State.syncLock
  repeat' first
    | with_reducible assumption | with_reducible refine State.wf_frame ?_ ?_ | with_reducible refine State.draw_frame ?_ ?_
    | refine State.draw_frame_eq ?_ (by with_reducible assumption) ?_ | with_reducible refine State.setSync_frame ?_ ?_
    | with_reducible refine ite_frame ?_ ?_ | with_reducible exact hm.mono (by decide) | with_reducible exact hm.bit (by decide)
    | simp only [or_true, true_and, and_true] | with_reducible refine And.intro ?_ ?_
    | with_reducible exact .inl (hm.bit (by decide)) | split | dsimp only | with_reducible refine State.frame_mk ?_ ?_

theorem State.syncMode_frame {anc : State} {M : Nat} {s : State} (hm : Sub 0x1800000000000000000002 M) (hk : anc.Within M s) : anc.Within M (State.syncMode s) := by
  unfold State.syncMode
  repeat' first
    | with_reducible assumption | with_reducible refine State.setSync_frame ?_ ?_ | with_reducible refine ite_frame ?_ ?_
    | with_reducible exact hm.mono (by decide) | split | dsimp only

theorem State.servo_frame {anc : State} {M : Nat} {s : State} {off : Int} {src : Nat} {bound : Option Nat} (hm : Sub 0x10200000000007900000000000000000002 M) (hk : anc.Within M s) : anc.Within M (State.servo s off src bound) := by
  unfold State.servo
  repeat' first
    | with_reducible assumption | with_reducible refine State.syncLock_frame ?_ ?_ | with_reducible refine State.wf_frame ?_ ?_
    | with_reducible refine State.timeStep_frame ?_ ?_ | with_reducible refine State.logEv_frame ?_ ?_
    | with_reducible refine State.setInt_frame ?_ ?_ ?_ | with_reducible refine State.slewBy_frame ?_ ?_
    | with_reducible refine ite_frame ?_ ?_ | with_reducible exact hm.mono (by decide) | with_reducible exact hm.bit (by decide)
    | ((with_reducible refine page_bit (B := ?_) (n := ?_) (k := ?_) hm ?_ ?_ ?_); (on_goal 4 => rfl); all_goals decide)
    | with_reducible exact corePage_bit hm (by decide) (by decide) (by decide) | split | dsimp only

theorem State.syncLost_frame {anc : State} {M : Nat} {s : State} (hm : Sub 0x200000000007800000000000000000002 M) (hk : anc.Within M s) : anc.Within M (State.syncLost s) := by
  unfold State.syncLost
  repeat' first
    | with_reducible assumption | with_reducible refine State.logEv_frame ?_ ?_ | with_reducible refine State.setSync_frame ?_ ?_
    | with_reducible refine ite_frame ?_ ?_ | with_reducible exact hm.mono (by decide) | with_reducible exact hm.bit (by decide)
    | simp only [or_true, true_and, and_true] | with_reducible refine And.intro ?_ ?_
    | with_reducible exact .inl (hm.bit (by decide)) | split | dsimp only | with_reducible refine State.frame_mk ?_ ?_

theorem State.timeSet_frame {anc : State} {M : Nat} {s : State} {i : Instr} {c : Cmd} (hm : Sub 0x18a00000000be7900000400030000000006 M) (hk : anc.Within M s) : anc.Within M (State.timeSet s i c) := by
  unfold State.timeSet
  repeat' first
    | with_reducible assumption | with_reducible refine State.vorane_frame ?_ ?_ ?_ | with_reducible refine State.reply_frame ?_ ?_
    | with_reducible refine State.timeStep_frame ?_ ?_ | with_reducible refine State.slewBy_frame ?_ ?_ | intro _
    | with_reducible refine ite_frame ?_ ?_ | with_reducible exact hm.mono (by decide) | split | dsimp only

theorem State.setPtp_frame {anc : State} {M : Nat} {s : State} {p : Nat} {st : Nat} (hm : Sub 0x1800000000010000000000 M) (hk : anc.Within M s) : anc.Within M (State.setPtp s p st) := by
  unfold State.setPtp
  repeat' first
    | with_reducible assumption | with_reducible refine State.setInt_frame ?_ ?_ ?_ | with_reducible refine State.wf_frame ?_ ?_
    | with_reducible refine ite_frame ?_ ?_ | with_reducible exact hm.mono (by decide) | with_reducible exact hm.bit (by decide)
    | ((with_reducible refine page_bit (B := ?_) (n := ?_) (k := ?_) hm ?_ ?_ ?_); (on_goal 4 => rfl); all_goals decide)
    | with_reducible exact corePage_bit hm (by decide) (by decide) (by decide) | split | dsimp only

theorem State.ptpSync_frame {anc : State} {M : Nat} {s : State} {p : Nat} {domain : Nat} {seq : Nat} {twoStep : Bool} (hm : Sub 0x400000000000010000000000 M) (hk : anc.Within M s) : anc.Within M (State.ptpSync s p domain seq twoStep) := by
  unfold State.ptpSync
  repeat' first
    | with_reducible assumption | with_reducible refine State.inc_frame ?_ ?_ | with_reducible refine State.wf_frame ?_ ?_
    | with_reducible refine State.setPort_frame ?_ ?_ | with_reducible refine ite_frame ?_ ?_
    | with_reducible exact hm.mono (by decide) | with_reducible exact hm.bit (by decide)
    | ((with_reducible refine page_bit (B := ?_) (n := ?_) (k := ?_) hm ?_ ?_ ?_); (on_goal 4 => rfl); all_goals decide)
    | with_reducible exact corePage_bit hm (by decide) (by decide) (by decide) | split | dsimp only

theorem State.ptpOffset_frame {anc : State} {M : Nat} {s : State} {p : Nat} (hm : Sub 0x10200000000007900000000010000000002 M) (hk : anc.Within M s) : anc.Within M (State.ptpOffset s p) := by
  unfold State.ptpOffset
  repeat' first
    | with_reducible assumption | with_reducible refine State.wf_frame ?_ ?_ | with_reducible refine State.servo_frame ?_ ?_
    | with_reducible refine State.when_frame ?_ ?_ | intro _ | with_reducible exact hm.mono (by decide)
    | with_reducible exact hm.bit (by decide) | dsimp only

theorem State.ptpFollowUp_frame {anc : State} {M : Nat} {s : State} {p : Nat} {domain : Nat} {seq : Nat} {t1 : Nat} (hm : Sub 0x18200000000407900000000010000000002 M) (hk : anc.Within M s) : anc.Within M (State.ptpFollowUp s p domain seq t1) := by
  unfold State.ptpFollowUp
  repeat' first
    | with_reducible assumption | with_reducible refine State.inc_frame ?_ ?_ | with_reducible refine State.setPort_frame ?_ ?_
    | with_reducible refine State.sendEth_frame ?_ ?_ | with_reducible refine State.ptpOffset_frame ?_ ?_
    | with_reducible refine ite_frame ?_ ?_ | with_reducible exact hm.mono (by decide) | with_reducible exact hm.bit (by decide)
    | ((with_reducible refine page_bit (B := ?_) (n := ?_) (k := ?_) hm ?_ ?_ ?_); (on_goal 4 => rfl); all_goals decide)
    | with_reducible exact corePage_bit hm (by decide) (by decide) (by decide) | split | dsimp only

theorem State.ptpAnnounce_frame {anc : State} {M : Nat} {s : State} {p : Nat} {domain : Nat} {gm : Nat} (hm : Sub 0x1800000000010000000000 M) (hk : anc.Within M s) : anc.Within M (State.ptpAnnounce s p domain gm) := by
  unfold State.ptpAnnounce
  repeat' first
    | with_reducible assumption | with_reducible refine State.wf_frame ?_ ?_ | with_reducible refine State.setPtp_frame ?_ ?_
    | with_reducible refine ite_frame ?_ ?_ | with_reducible exact hm.mono (by decide) | with_reducible exact hm.bit (by decide)
    | split | dsimp only

theorem State.ptpDelayResp_frame {anc : State} {M : Nat} {s : State} {p : Nat} {domain : Nat} {seq : Nat} {t4 : Nat} (hm : Sub 0x10200000000407900000000010000000002 M) (hk : anc.Within M s) : anc.Within M (State.ptpDelayResp s p domain seq t4) := by
  unfold State.ptpDelayResp
  repeat' first
    | with_reducible assumption | with_reducible refine State.wf_frame ?_ ?_ | with_reducible refine State.setPort_frame ?_ ?_
    | with_reducible refine State.setPtp_frame ?_ ?_ | with_reducible refine State.ptpOffset_frame ?_ ?_
    | with_reducible refine State.when_frame ?_ ?_ | intro _ | with_reducible refine ite_frame ?_ ?_
    | with_reducible exact hm.mono (by decide) | with_reducible exact hm.bit (by decide) | split | dsimp only

theorem State.ptpManagement_frame {anc : State} {M : Nat} {s : State} {p : Nat} {domain : Nat} {ws : List Nat} (hm : Sub 0x8000000000000000000000010000000000 M) (hk : anc.Within M s) : anc.Within M (State.ptpManagement s p domain ws) := by
  unfold State.ptpManagement
  repeat' first
    | with_reducible assumption | with_reducible refine State.sendEth_frame ?_ ?_ | with_reducible refine ite_frame ?_ ?_
    | with_reducible exact hm.mono (by decide) | split | dsimp only

theorem State.logEvent_frame {anc : State} {M : Nat} {s : State} (hm : Sub 0x21f800000000000000000002 M) (hk : anc.Within M s) : anc.Within M (State.logEvent s) := by
  unfold State.logEvent
  repeat' first
    | with_reducible assumption | with_reducible refine State.writeRec_frame ?_ ?_ | with_reducible refine State.wf_frame ?_ ?_
    | with_reducible refine ite_frame ?_ ?_ | with_reducible exact hm.mono (by decide) | with_reducible exact hm.bit (by decide)
    | simp only [or_true, true_and, and_true] | with_reducible refine And.intro ?_ ?_
    | with_reducible exact .inl (hm.bit (by decide)) | split | dsimp only | with_reducible refine State.frame_mk ?_ ?_

theorem State.eventSend_frame {anc : State} {M : Nat} {s : State} {q : Nat} (hm : Sub 0x8000000000200000000000030000000000 M) (hk : anc.Within M s) : anc.Within M (State.eventSend s q) := by
  unfold State.eventSend
  repeat' first
    | with_reducible assumption | with_reducible refine State.sendQp_frame ?_ ?_ | with_reducible refine State.setQp_frame ?_ ?_
    | with_reducible refine ite_frame ?_ ?_ | with_reducible exact hm.mono (by decide) | split | dsimp only

theorem State.eventSubscribe_frame {anc : State} {M : Nat} {s : State} {i : Instr} {c : Cmd} (hm : Sub 0x8800000000be7800000400030000000006 M) (hk : anc.Within M s) : anc.Within M (State.eventSubscribe s i c) := by
  unfold State.eventSubscribe
  repeat' first
    | with_reducible assumption | with_reducible refine State.vorane_frame ?_ ?_ ?_ | with_reducible refine State.reply_frame ?_ ?_
    | with_reducible refine State.wf_frame ?_ ?_ | with_reducible refine State.setQp_frame ?_ ?_ | intro _
    | with_reducible refine ite_frame ?_ ?_ | with_reducible exact hm.mono (by decide) | with_reducible exact hm.bit (by decide)
    | split | dsimp only

theorem State.logRead_frame {anc : State} {M : Nat} {s : State} {i : Instr} {c : Cmd} (hm : Sub 0x8800000000be7800000400030000000006 M) (hk : anc.Within M s) : anc.Within M (State.logRead s i c) := by
  unfold State.logRead
  repeat' first
    | with_reducible assumption | with_reducible refine State.vorane_frame ?_ ?_ ?_ | with_reducible refine State.reply_frame ?_ ?_
    | intro _ | with_reducible refine ite_frame ?_ ?_ | with_reducible exact hm.mono (by decide) | split | dsimp only

theorem State.pageInterrupt_frame {anc : State} {M : Nat} {s : State} (hm : Sub 0x7800000000000000000002 M) (hk : anc.Within M s) : anc.Within M (State.pageInterrupt s) := by
  unfold State.pageInterrupt
  repeat' first
    | with_reducible assumption | with_reducible refine State.logEv_frame ?_ ?_ | with_reducible refine ite_frame ?_ ?_
    | with_reducible exact hm.mono (by decide) | with_reducible exact hm.bit (by decide) | simp only [or_true, true_and, and_true]
    | with_reducible refine And.intro ?_ ?_ | with_reducible exact .inl (hm.bit (by decide)) | split | dsimp only
    | with_reducible refine State.frame_mk ?_ ?_

theorem State.statusQuery_frame {anc : State} {M : Nat} {s : State} {i : Instr} {c : Cmd} (hm : Sub 0x8800000000be7800000500030000000017 M) (hk : anc.Within M s) : anc.Within M (State.statusQuery s i c) := by
  unfold State.statusQuery
  repeat' first
    | with_reducible assumption | with_reducible refine State.vorane_frame ?_ ?_ ?_ | with_reducible refine State.reply_frame ?_ ?_
    | intro _ | with_reducible exact hm.mono (by decide) | dsimp only

theorem execPtpSync_frame {anc : State} {M : Nat} {port : Nat} {domain : Nat} {seq : Nat} {twoStep : Bool} {s : State} (hm : Sub 0x400000000000010000000000 M) (hk : anc.Within M s) : ∃ out, execPtpSync port domain seq twoStep s = .next out ∧ anc.Within M out := by
  unfold execPtpSync
  refine ⟨_, rfl, ?_⟩
  repeat' first
    | with_reducible assumption | with_reducible refine State.ptpSync_frame ?_ ?_ | with_reducible exact hm.mono (by decide)
    | dsimp only

theorem execPtpFollowUp_frame {anc : State} {M : Nat} {port : Nat} {domain : Nat} {seq : Nat} {t1 : Nat} {s : State} (hm : Sub 0x18200000000407900000000010000000002 M) (hk : anc.Within M s) : ∃ out, execPtpFollowUp port domain seq t1 s = .next out ∧ anc.Within M out := by
  unfold execPtpFollowUp
  refine ⟨_, rfl, ?_⟩
  repeat' first
    | with_reducible assumption | with_reducible refine State.ptpFollowUp_frame ?_ ?_ | with_reducible exact hm.mono (by decide)
    | dsimp only

theorem execPtpAnnounce_frame {anc : State} {M : Nat} {port : Nat} {domain : Nat} {gm : Nat} {s : State} (hm : Sub 0x1800000000010000000000 M) (hk : anc.Within M s) : ∃ out, execPtpAnnounce port domain gm s = .next out ∧ anc.Within M out := by
  unfold execPtpAnnounce
  refine ⟨_, rfl, ?_⟩
  repeat' first
    | with_reducible assumption | with_reducible refine State.ptpAnnounce_frame ?_ ?_ | with_reducible exact hm.mono (by decide)
    | dsimp only

theorem execPtpDelayResp_frame {anc : State} {M : Nat} {port : Nat} {domain : Nat} {seq : Nat} {t4 : Nat} {s : State} (hm : Sub 0x10200000000407900000000010000000002 M) (hk : anc.Within M s) : ∃ out, execPtpDelayResp port domain seq t4 s = .next out ∧ anc.Within M out := by
  unfold execPtpDelayResp
  refine ⟨_, rfl, ?_⟩
  repeat' first
    | with_reducible assumption | with_reducible refine State.ptpDelayResp_frame ?_ ?_ | with_reducible exact hm.mono (by decide)
    | dsimp only

theorem execPtpManagement_frame {anc : State} {M : Nat} {port : Nat} {domain : Nat} {words : List Nat} {s : State} (hm : Sub 0x8000000000000000000000010000000000 M) (hk : anc.Within M s) : ∃ out, execPtpManagement port domain words s = .next out ∧ anc.Within M out := by
  unfold execPtpManagement
  refine ⟨_, rfl, ?_⟩
  repeat' first
    | with_reducible assumption | with_reducible refine State.ptpManagement_frame ?_ ?_ | with_reducible exact hm.mono (by decide)
    | dsimp only

theorem execWdLoop_frame {anc : State} {M : Nat} {s : State} (hm : Sub 0x1ffffffffffffffffffffffffffffffffff M) (hk : anc.Within M s) : ∃ out, execWdLoop s = .next out ∧ anc.Within M out := by
  unfold execWdLoop
  refine ⟨_, rfl, ?_⟩
  repeat' first
    | with_reducible assumption | with_reducible refine State.oasisRestart_frame ?_ ?_ | with_reducible exact hm.mono (by decide)
    | dsimp only

theorem execWdRound_frame {anc : State} {M : Nat} {s : State} (hm : Sub 0x1ffffffffffffffffffffffffffffffffff M) (hk : anc.Within M s) : ∃ out, execWdRound s = .next out ∧ anc.Within M out := by
  unfold execWdRound
  refine ⟨_, rfl, ?_⟩
  repeat' first
    | with_reducible assumption | with_reducible refine State.wdRound_frame ?_ ?_ | with_reducible exact hm.mono (by decide)
    | dsimp only

theorem execWdHost_frame {anc : State} {M : Nat} {s : State} (hm : Sub 0x1ffffffffffffffffffffffffffffffffff M) (hk : anc.Within M s) : ∃ out, execWdHost s = .next out ∧ anc.Within M out := by
  unfold execWdHost
  refine ⟨_, rfl, ?_⟩
  repeat' first
    | with_reducible assumption | with_reducible refine State.wdHost_frame ?_ ?_ | with_reducible exact hm.mono (by decide)
    | dsimp only

theorem execOasisRestartDone_frame {anc : State} {M : Nat} {ok : Bool} {s : State} (hm : Sub 0x1ffffffffffffffffffffffffffffffffff M) (hk : anc.Within M s) : ∃ out, execOasisRestartDone ok s = .next out ∧ anc.Within M out := by
  unfold execOasisRestartDone
  refine ⟨_, rfl, ?_⟩
  repeat' first
    | with_reducible assumption | with_reducible refine State.oasisRunning_frame ?_ ?_ | with_reducible exact hm.mono (by decide)
    | dsimp only

theorem execOasisRestartTimeout_frame {anc : State} {M : Nat} {s : State} (hm : Sub 0x1ffffffffffffffffffffffffffffffffff M) (hk : anc.Within M s) : ∃ out, execOasisRestartTimeout s = .next out ∧ anc.Within M out := by
  unfold execOasisRestartTimeout
  refine ⟨_, rfl, ?_⟩
  repeat' first
    | with_reducible assumption | with_reducible refine State.oasisOverrun_frame ?_ ?_ | with_reducible exact hm.mono (by decide)
    | dsimp only

theorem execHeartbeat_frame {anc : State} {M : Nat} {c : Cmd} {s : State} (hm : Sub 0x1ffffffffffffffffffffffffffffffffff M) (hk : anc.Within M s) : ∃ out, execHeartbeat c s = .next out ∧ anc.Within M out := by
  unfold execHeartbeat
  refine ⟨_, rfl, ?_⟩
  repeat' first
    | with_reducible assumption | with_reducible refine State.heartbeat_frame ?_ ?_ | with_reducible exact hm.mono (by decide)
    | dsimp only

theorem execHeartbeatRestart_frame {anc : State} {M : Nat} {c : Cmd} {s : State} (hm : Sub 0x1ffffffffffffffffffffffffffffffffff M) (hk : anc.Within M s) : ∃ out, execHeartbeatRestart c s = .next out ∧ anc.Within M out := by
  unfold execHeartbeatRestart
  refine ⟨_, rfl, ?_⟩
  repeat' first
    | with_reducible assumption | with_reducible refine State.heartbeat_frame ?_ ?_ | with_reducible exact hm.mono (by decide)
    | dsimp only

theorem execHbEcho_frame {anc : State} {M : Nat} {s : State} (hm : Sub 0x8200000000320000000000030000000002 M) (hk : anc.Within M s) : ∃ out, execHbEcho s = .next out ∧ anc.Within M out := by
  unfold execHbEcho
  refine ⟨_, rfl, ?_⟩
  repeat' first
    | with_reducible assumption | with_reducible refine State.hbEcho_frame ?_ ?_ | with_reducible exact hm.mono (by decide)
    | dsimp only

theorem execHeartbeatEchoTimeout_frame {anc : State} {M : Nat} {qp : Nat} {id : Nat} {s : State} (hm : Sub 0x8200000000321800000000030000000002 M) (hk : anc.Within M s) : ∃ out, execHeartbeatEchoTimeout qp id s = .next out ∧ anc.Within M out := by
  unfold execHeartbeatEchoTimeout
  refine ⟨_, rfl, ?_⟩
  repeat' first
    | with_reducible assumption | with_reducible refine State.beatTimeout_frame ?_ ?_ | with_reducible exact hm.mono (by decide)
    | dsimp only

theorem execHostSilent_frame {anc : State} {M : Nat} {s : State} (hm : Sub 0x7800000000000000000002 M) (hk : anc.Within M s) : ∃ out, execHostSilent s = .next out ∧ anc.Within M out := by
  unfold execHostSilent
  refine ⟨_, rfl, ?_⟩
  repeat' first
    | with_reducible assumption | with_reducible refine State.hostSilent_frame ?_ ?_ | with_reducible exact hm.mono (by decide)
    | dsimp only

theorem execTimeSetStep_frame {anc : State} {M : Nat} {c : Cmd} {s : State} (hm : Sub 0x18a00000000be7900000400030000000006 M) (hk : anc.Within M s) : ∃ out, execTimeSetStep c s = .next out ∧ anc.Within M out := by
  unfold execTimeSetStep
  refine ⟨_, rfl, ?_⟩
  repeat' first
    | with_reducible assumption | with_reducible refine State.timeSet_frame ?_ ?_ | with_reducible exact hm.mono (by decide)
    | dsimp only

theorem execTimeSetSlew_frame {anc : State} {M : Nat} {c : Cmd} {s : State} (hm : Sub 0x18a00000000be7900000400030000000006 M) (hk : anc.Within M s) : ∃ out, execTimeSetSlew c s = .next out ∧ anc.Within M out := by
  unfold execTimeSetSlew
  refine ⟨_, rfl, ?_⟩
  repeat' first
    | with_reducible assumption | with_reducible refine State.timeSet_frame ?_ ?_ | with_reducible exact hm.mono (by decide)
    | dsimp only

theorem execSyncSourceLost_frame {anc : State} {M : Nat} {s : State} (hm : Sub 0x200000000007800000000000000000002 M) (hk : anc.Within M s) : ∃ out, execSyncSourceLost s = .next out ∧ anc.Within M out := by
  unfold execSyncSourceLost
  refine ⟨_, rfl, ?_⟩
  repeat' first
    | with_reducible assumption | with_reducible refine State.syncLost_frame ?_ ?_ | with_reducible exact hm.mono (by decide)
    | dsimp only

theorem execLogEvent_frame {anc : State} {M : Nat} {s : State} (hm : Sub 0x21f800000000000000000002 M) (hk : anc.Within M s) : ∃ out, execLogEvent s = .next out ∧ anc.Within M out := by
  unfold execLogEvent
  refine ⟨_, rfl, ?_⟩
  repeat' first
    | with_reducible assumption | with_reducible refine State.logEvent_frame ?_ ?_ | with_reducible exact hm.mono (by decide)
    | dsimp only

theorem execEventSend_frame {anc : State} {M : Nat} {qp : Nat} {s : State} (hm : Sub 0x8000000000200000000000030000000000 M) (hk : anc.Within M s) : ∃ out, execEventSend qp s = .next out ∧ anc.Within M out := by
  unfold execEventSend
  refine ⟨_, rfl, ?_⟩
  repeat' first
    | with_reducible assumption | with_reducible refine State.eventSend_frame ?_ ?_ | with_reducible exact hm.mono (by decide)
    | dsimp only

theorem execEventSubscribe_frame {anc : State} {M : Nat} {c : Cmd} {s : State} (hm : Sub 0x8800000000be7800000400030000000006 M) (hk : anc.Within M s) : ∃ out, execEventSubscribe c s = .next out ∧ anc.Within M out := by
  unfold execEventSubscribe
  refine ⟨_, rfl, ?_⟩
  repeat' first
    | with_reducible assumption | with_reducible refine State.eventSubscribe_frame ?_ ?_ | with_reducible exact hm.mono (by decide)
    | dsimp only

theorem execLogRead_frame {anc : State} {M : Nat} {c : Cmd} {s : State} (hm : Sub 0x8800000000be7800000400030000000006 M) (hk : anc.Within M s) : ∃ out, execLogRead c s = .next out ∧ anc.Within M out := by
  unfold execLogRead
  refine ⟨_, rfl, ?_⟩
  repeat' first
    | with_reducible assumption | with_reducible refine State.logRead_frame ?_ ?_ | with_reducible exact hm.mono (by decide)
    | dsimp only

theorem execStatusQuery_frame {anc : State} {M : Nat} {c : Cmd} {s : State} (hm : Sub 0x8800000000be7800000500030000000017 M) (hk : anc.Within M s) : ∃ out, execStatusQuery c s = .next out ∧ anc.Within M out := by
  unfold execStatusQuery
  refine ⟨_, rfl, ?_⟩
  repeat' first
    | with_reducible assumption | with_reducible refine State.statusQuery_frame ?_ ?_ | with_reducible exact hm.mono (by decide)
    | dsimp only

theorem execPageInterrupt_frame {anc : State} {M : Nat} {s : State} (hm : Sub 0x7800000000000000000002 M) (hk : anc.Within M s) : ∃ out, execPageInterrupt s = .next out ∧ anc.Within M out := by
  unfold execPageInterrupt
  refine ⟨_, rfl, ?_⟩
  repeat' first
    | with_reducible assumption | with_reducible refine State.pageInterrupt_frame ?_ ?_ | with_reducible exact hm.mono (by decide)
    | dsimp only

end Sys2Proof.Machine
end

