-- ==== Sys2Proof/Laws/Frame/Torus.lean ====
section
/-! SUPPORT. Every operation and meaning of Machine/Torus.lean changes only the register areas and parts of the state its mask names. -/

namespace Sys2Proof.Machine

set_option linter.unreachableTactic false
set_option linter.unusedTactic false

theorem State.judgeAgreement_frame {anc : State} {M : Nat} {s : State} (hm : Sub 0x8100000000007800000102000000000013 M) (hk : anc.Within M s) : anc.Within M (State.judgeAgreement s) := by
  unfold State.judgeAgreement
  repeat' first
    | with_reducible assumption | with_reducible refine State.wf_frame ?_ ?_ | with_reducible refine State.tryReady_frame ?_ ?_
    | with_reducible refine State.setInt_frame ?_ ?_ ?_ | with_reducible refine State.when_frame ?_ ?_ | intro _
    | with_reducible exact hm.mono (by decide) | with_reducible exact hm.bit (by decide)
    | ((with_reducible refine page_bit (B := ?_) (n := ?_) (k := ?_) hm ?_ ?_ ?_); (on_goal 4 => rfl); all_goals decide)
    | with_reducible exact corePage_bit hm (by decide) (by decide) (by decide) | dsimp only

theorem State.dirCheck_frame {anc : State} {M : Nat} {s : State} {d : Nat} (hm : Sub 0xe100000000007801000103000000000013 M) (hk : anc.Within M s) : anc.Within M (State.dirCheck s d) := by
  unfold State.dirCheck
  repeat' first
    | with_reducible assumption | with_reducible refine State.judgeAgreement_frame ?_ ?_ | with_reducible refine State.wf_frame ?_ ?_
    | with_reducible refine State.logEv_frame ?_ ?_ | with_reducible refine State.setInt_frame ?_ ?_ ?_
    | with_reducible refine State.ownLsn_frame ?_ ?_ | with_reducible refine State.boardFault_frame ?_ ?_
    | with_reducible refine State.when_frame ?_ ?_ | intro _ | with_reducible refine ite_frame ?_ ?_
    | with_reducible exact hm.mono (by decide) | with_reducible exact hm.bit (by decide)
    | ((with_reducible refine page_bit (B := ?_) (n := ?_) (k := ?_) hm ?_ ?_ ?_); (on_goal 4 => rfl); all_goals decide)
    | with_reducible exact corePage_bit hm (by decide) (by decide) (by decide) | split | dsimp only

theorem State.linkFail_frame {anc : State} {M : Nat} {s : State} {d : Nat} {lanesLow : Bool} (hm : Sub 0xe100000000007801000103000000000013 M) (hk : anc.Within M s) : anc.Within M (State.linkFail s d lanesLow) := by
  unfold State.linkFail
  repeat' first
    | with_reducible assumption | with_reducible refine State.wf_frame ?_ ?_ | with_reducible refine State.blockErr_frame ?_ ?_ ?_
    | with_reducible refine State.setDir_frame ?_ ?_ | with_reducible refine State.dirCheck_frame ?_ ?_
    | with_reducible refine State.ownLsn_frame ?_ ?_ | with_reducible refine ite_frame ?_ ?_
    | with_reducible exact hm.mono (by decide) | with_reducible exact hm.bit (by decide)
    | ((with_reducible refine page_bit (B := ?_) (n := ?_) (k := ?_) hm ?_ ?_ ?_); (on_goal 4 => rfl); all_goals decide)
    | with_reducible exact corePage_bit hm (by decide) (by decide) (by decide) | split | dsimp only

theorem State.detour_frame {anc : State} {M : Nat} {s : State} {d : Nat} {f : Frame} (hm : Sub 0xa000000000007800000003000000000002 M) (hk : anc.Within M s) : anc.Within M (State.detour s d f) := by
  unfold State.detour
  repeat' first
    | with_reducible assumption | with_reducible refine State.unroutable_frame ?_ ?_ | with_reducible refine State.wf_frame ?_ ?_
    | with_reducible refine State.setInt_frame ?_ ?_ ?_ | with_reducible refine State.inc_frame ?_ ?_
    | with_reducible refine State.setDir_frame ?_ ?_ | with_reducible refine State.borsanTx_frame ?_ ?_
    | with_reducible refine ite_frame ?_ ?_ | with_reducible exact hm.mono (by decide) | with_reducible exact hm.bit (by decide)
    | ((with_reducible refine page_bit (B := ?_) (n := ?_) (k := ?_) hm ?_ ?_ ?_); (on_goal 4 => rfl); all_goals decide)
    | with_reducible exact corePage_bit hm (by decide) (by decide) (by decide) | split | dsimp only

theorem State.releaseFailed_frame {anc : State} {M : Nat} {s : State} {d : Nat} {after : Option Nat} (hm : Sub 0xa000000000007800000003000000000002 M) (hk : anc.Within M s) : anc.Within M (State.releaseFailed s d after) := by
  unfold State.releaseFailed
  repeat' first
    | with_reducible assumption | with_reducible refine State.wf_frame ?_ ?_ | with_reducible refine State.setDir_frame ?_ ?_
    | with_reducible refine State.unroutable_frame ?_ ?_ | with_reducible refine State.inc_frame ?_ ?_
    | with_reducible refine State.detour_frame ?_ ?_ | with_reducible refine State.each_frame ?_ ?_ | intro _
    | with_reducible exact hm.mono (by decide) | with_reducible exact hm.bit (by decide)
    | ((with_reducible refine page_bit (B := ?_) (n := ?_) (k := ?_) hm ?_ ?_ ?_); (on_goal 4 => rfl); all_goals decide)
    | with_reducible exact corePage_bit hm (by decide) (by decide) (by decide) | split | dsimp only

theorem State.peerLsnTimeout_frame {anc : State} {M : Nat} {s : State} {d : Nat} (hm : Sub 0xa000000000007800000003000000000002 M) (hk : anc.Within M s) : anc.Within M (State.peerLsnTimeout s d) := by
  unfold State.peerLsnTimeout
  repeat' first
    | with_reducible assumption | with_reducible refine State.releaseFailed_frame ?_ ?_ | with_reducible refine ite_frame ?_ ?_
    | with_reducible exact hm.mono (by decide) | split | dsimp only

theorem State.lsnReceive_frame {anc : State} {M : Nat} {s : State} {d : Nat} {l : Lsn} (hm : Sub 0xe000000000007800000003000000000002 M) (hk : anc.Within M s) : anc.Within M (State.lsnReceive s d l) := by
  unfold State.lsnReceive
  repeat' first
    | with_reducible assumption | with_reducible refine State.flood_frame ?_ ?_ | with_reducible refine State.storeLsn_frame ?_ ?_
    | with_reducible refine State.releaseFailed_frame ?_ ?_ | with_reducible refine State.each_frame ?_ ?_ | intro _
    | with_reducible refine ite_frame ?_ ?_ | with_reducible exact hm.mono (by decide) | split | dsimp only

theorem State.setLanes_frame {anc : State} {M : Nat} {s : State} {d : Nat} {good : Nat} {active : Nat} (hm : Sub 0x1000000000000 M) (hk : anc.Within M s) : anc.Within M (State.setLanes s d good active) := by
  unfold State.setLanes
  repeat' first
    | with_reducible assumption | with_reducible refine State.wf_frame ?_ ?_ | with_reducible exact hm.mono (by decide)
    | with_reducible exact hm.bit (by decide) | dsimp only

theorem State.laneChange_frame {anc : State} {M : Nat} {s : State} {d : Nat} (hm : Sub 0x7800000001000000000002 M) (hk : anc.Within M s) : anc.Within M (State.laneChange s d) := by
  unfold State.laneChange
  repeat' first
    | with_reducible assumption | with_reducible refine State.unitEv_frame ?_ ?_ | with_reducible refine State.setInt_frame ?_ ?_ ?_
    | with_reducible refine State.wf_frame ?_ ?_ | with_reducible exact hm.mono (by decide) | with_reducible exact hm.bit (by decide)
    | ((with_reducible refine page_bit (B := ?_) (n := ?_) (k := ?_) hm ?_ ?_ ?_); (on_goal 4 => rfl); all_goals decide)
    | with_reducible exact corePage_bit hm (by decide) (by decide) (by decide) | dsimp only

theorem State.laneBad_frame {anc : State} {M : Nat} {s0 : State} {d : Nat} {lane : Nat} {power : Nat} (hm : Sub 0xe100000000007801000103000000000013 M) (hk : anc.Within M s0) : anc.Within M (State.laneBad s0 d lane power) := by
  unfold State.laneBad
  repeat' first
    | with_reducible assumption | with_reducible refine State.wf_frame ?_ ?_ | with_reducible refine State.setDir_frame ?_ ?_
    | with_reducible refine State.setLanes_frame ?_ ?_ | with_reducible refine State.laneChange_frame ?_ ?_
    | with_reducible refine State.linkFail_frame ?_ ?_ | with_reducible refine State.transmit_frame ?_ ?_
    | with_reducible refine ite_frame ?_ ?_ | with_reducible exact hm.mono (by decide) | with_reducible exact hm.bit (by decide)
    | split | dsimp only

theorem State.laneFrame_frame {anc : State} {M : Nat} {s : State} {d : Nat} {active : Nat} (hm : Sub 0xe100000000007801000103000000000013 M) (hk : anc.Within M s) : anc.Within M (State.laneFrame s d active) := by
  unfold State.laneFrame
  repeat' first
    | with_reducible assumption | with_reducible refine State.laneChange_frame ?_ ?_ | with_reducible refine State.wf_frame ?_ ?_
    | with_reducible refine State.linkFail_frame ?_ ?_ | with_reducible refine ite_frame ?_ ?_
    | with_reducible exact hm.mono (by decide) | with_reducible exact hm.bit (by decide) | split | dsimp only

theorem State.laneRetrain_frame {anc : State} {M : Nat} {s : State} {d : Nat} {lane : Nat} {ok : Bool} (hm : Sub 0xa000000000007800000001000000000002 M) (hk : anc.Within M s) : anc.Within M (State.laneRetrain s d lane ok) := by
  unfold State.laneRetrain
  repeat' first
    | with_reducible assumption | with_reducible refine State.setDir_frame ?_ ?_ | with_reducible refine State.laneChange_frame ?_ ?_
    | with_reducible refine State.setLanes_frame ?_ ?_ | with_reducible refine State.transmit_frame ?_ ?_
    | with_reducible refine ite_frame ?_ ?_ | with_reducible exact hm.mono (by decide) | split | dsimp only

theorem State.fibreLight_frame {anc : State} {M : Nat} {s : State} {d : Nat} {tx : Nat} {rx : Nat} (hm : Sub 0xe100000000007801000103000000000013 M) (hk : anc.Within M s) : anc.Within M (State.fibreLight s d tx rx) := by
  unfold State.fibreLight
  repeat' first
    | with_reducible assumption | with_reducible refine State.wf_frame ?_ ?_ | with_reducible refine State.boardFault_frame ?_ ?_
    | with_reducible refine State.linkFail_frame ?_ ?_ | with_reducible refine State.dirCheck_frame ?_ ?_
    | with_reducible refine State.each_frame ?_ ?_ | with_reducible refine State.when_frame ?_ ?_ | intro _
    | with_reducible refine ite_frame ?_ ?_ | with_reducible exact hm.mono (by decide) | with_reducible exact hm.bit (by decide)
    | split | dsimp only

theorem State.linkTrained_frame {anc : State} {M : Nat} {s : State} {d : Nat} {lanes : Nat} {txCount : Nat} {pos : List Nat} {power : List Nat} (hm : Sub 0xe100000000007801000103000000000013 M) (hk : anc.Within M s) : anc.Within M (State.linkTrained s d lanes txCount pos power) := by
  unfold State.linkTrained
  repeat' first
    | with_reducible assumption | with_reducible refine State.wf_frame ?_ ?_ | with_reducible refine State.logEv_frame ?_ ?_
    | with_reducible refine State.setLanes_frame ?_ ?_ | with_reducible refine State.dirCheck_frame ?_ ?_
    | with_reducible refine State.setDir_frame ?_ ?_ | with_reducible refine State.setInt_frame ?_ ?_ ?_
    | with_reducible refine State.each_frame ?_ ?_ | with_reducible refine foldl_frame ?_ ?_
    | with_reducible refine State.when_frame ?_ ?_ | intro _ | with_reducible refine ite_frame ?_ ?_
    | with_reducible exact hm.mono (by decide) | with_reducible exact hm.bit (by decide)
    | ((with_reducible refine page_bit (B := ?_) (n := ?_) (k := ?_) hm ?_ ?_ ?_); (on_goal 4 => rfl); all_goals decide)
    | with_reducible exact corePage_bit hm (by decide) (by decide) (by decide) | split | dsimp only

theorem State.borsanAck_frame {anc : State} {M : Nat} {s : State} {d : Nat} {seq : Nat} (hm : Sub 0xa000000000000000000001000000000000 M) (hk : anc.Within M s) : anc.Within M (State.borsanAck s d seq) := by
  unfold State.borsanAck
  repeat' first
    | with_reducible assumption | with_reducible refine State.txPump_frame ?_ ?_ | with_reducible refine State.setDir_frame ?_ ?_
    | with_reducible refine ite_frame ?_ ?_ | with_reducible exact hm.mono (by decide) | split | dsimp only

theorem State.borsanNak_frame {anc : State} {M : Nat} {s : State} {d : Nat} {seq : Nat} (hm : Sub 0xe100000000007801000103000000000013 M) (hk : anc.Within M s) : anc.Within M (State.borsanNak s d seq) := by
  unfold State.borsanNak
  repeat' first
    | with_reducible assumption | with_reducible refine State.setInt_frame ?_ ?_ ?_
    | with_reducible refine State.linkFail_frame ?_ ?_ | with_reducible refine State.setDir_frame ?_ ?_
    | with_reducible refine State.inc_frame ?_ ?_ | with_reducible refine State.emit_frame ?_ ?_
    | with_reducible refine State.each_frame ?_ ?_ | intro _ | with_reducible refine ite_frame ?_ ?_
    | with_reducible exact hm.mono (by decide) | with_reducible exact hm.bit (by decide)
    | ((with_reducible refine page_bit (B := ?_) (n := ?_) (k := ?_) hm ?_ ?_ ?_); (on_goal 4 => rfl); all_goals decide)
    | with_reducible exact corePage_bit hm (by decide) (by decide) (by decide) | split | dsimp only

theorem State.ingress_frame {anc : State} {M : Nat} {s : State} {u : Nat} {f : Frame} (hm : Sub 0x8000000000000000000000000000000000 M) (hk : anc.Within M s) : anc.Within M (State.ingress s u f) := by
  unfold State.ingress
  repeat' first
    | with_reducible assumption | with_reducible refine State.emit_frame ?_ ?_ | with_reducible exact hm.mono (by decide) | split
    | dsimp only

theorem State.borsanReceive_frame {anc : State} {M : Nat} {s0 : State} {d : Nat} {f : Frame} {crcOk : Bool} {fec : List (Nat × Nat × Nat)} (hm : Sub 0xa000000000007800000003000000000002 M) (hk : anc.Within M s0) : anc.Within M (State.borsanReceive s0 d f crcOk fec) := by
  unfold State.borsanReceive
  repeat' first
    | with_reducible assumption | with_reducible refine State.inc_frame ?_ ?_ | with_reducible refine State.transmit_frame ?_ ?_
    | with_reducible refine State.setInt_frame ?_ ?_ ?_ | with_reducible refine State.setDir_frame ?_ ?_
    | with_reducible refine State.borsanAck_frame ?_ ?_ | with_reducible refine State.vcReturn_frame ?_ ?_
    | with_reducible refine State.ingress_frame ?_ ?_ | with_reducible refine State.forward_frame ?_ ?_
    | with_reducible refine State.each_frame ?_ ?_ | with_reducible refine State.when_frame ?_ ?_ | intro _
    | with_reducible refine ite_frame ?_ ?_ | with_reducible exact hm.mono (by decide) | with_reducible exact hm.bit (by decide)
    | ((with_reducible refine page_bit (B := ?_) (n := ?_) (k := ?_) hm ?_ ?_ ?_); (on_goal 4 => rfl); all_goals decide)
    | with_reducible exact corePage_bit hm (by decide) (by decide) (by decide) | split | dsimp only

theorem State.timeFrameSend_frame {anc : State} {M : Nat} {s : State} {d : Nat} (hm : Sub 0xa000000000000000000001000000000000 M) (hk : anc.Within M s) : anc.Within M (State.timeFrameSend s d) := by
  unfold State.timeFrameSend
  repeat' first
    | with_reducible assumption | with_reducible refine State.transmit_frame ?_ ?_ | with_reducible refine State.setDir_frame ?_ ?_
    | with_reducible refine ite_frame ?_ ?_ | with_reducible exact hm.mono (by decide) | split | dsimp only

theorem State.timeFrameReceive_frame {anc : State} {M : Nat} {s : State} {d : Nat} {peerT1 : Nat} {echoT1 : Nat} {t2 : Nat} {t3 : Nat} (hm : Sub 0x12200000000007900000003000000000002 M) (hk : anc.Within M s) : anc.Within M (State.timeFrameReceive s d peerT1 echoT1 t2 t3) := by
  unfold State.timeFrameReceive
  repeat' first
    | with_reducible assumption | with_reducible refine State.setDir_frame ?_ ?_ | with_reducible refine State.wf_frame ?_ ?_
    | with_reducible refine State.servo_frame ?_ ?_ | with_reducible refine State.when_frame ?_ ?_ | intro _
    | with_reducible refine ite_frame ?_ ?_ | with_reducible exact hm.mono (by decide) | with_reducible exact hm.bit (by decide)
    | split | dsimp only

theorem State.remoteCreditReq_frame {anc : State} {M : Nat} {s : State} {u : Nat} {f : Frame} (hm : Sub 0xe000000000007800000003000000000002 M) (hk : anc.Within M s) : anc.Within M (State.remoteCreditReq s u f) := by
  unfold State.remoteCreditReq
  repeat' first
    | with_reducible assumption | with_reducible refine State.sendFrame_frame ?_ ?_ | with_reducible refine State.setSlot_frame ?_ ?_
    | with_reducible refine State.emit_frame ?_ ?_ | with_reducible refine ite_frame ?_ ?_ | with_reducible exact hm.mono (by decide)
    | split | dsimp only

theorem State.remoteCreditGrant_frame {anc : State} {M : Nat} {s : State} {f : Frame} (hm : Sub 0x8000000000000000000000000000000000 M) (hk : anc.Within M s) : anc.Within M (State.remoteCreditGrant s f) := by
  unfold State.remoteCreditGrant
  repeat' first
    | with_reducible assumption | with_reducible refine State.emit_frame ?_ ?_ | with_reducible refine ite_frame ?_ ?_
    | with_reducible exact hm.mono (by decide) | split | dsimp only

theorem State.remoteCreditReturn_frame {anc : State} {M : Nat} {s : State} {u : Nat} {f : Frame} (hm : Sub 0xc000000000000000000000000000000000 M) (hk : anc.Within M s) : anc.Within M (State.remoteCreditReturn s u f) := by
  unfold State.remoteCreditReturn
  repeat' first
    | with_reducible assumption | with_reducible refine State.emit_frame ?_ ?_ | with_reducible refine State.slotSub_frame ?_ ?_
    | with_reducible refine ite_frame ?_ ?_ | with_reducible exact hm.mono (by decide) | split | dsimp only

theorem State.retireUnit_frame {anc : State} {M : Nat} {s : State} {u : Nat} (hm : Sub 0xe14fc0be7d007800000703000100130003 M) (hk : anc.Within M s) : anc.Within M (State.retireUnit s u) := by
  unfold State.retireUnit
  repeat' first
    | with_reducible assumption | with_reducible refine State.dieFailure_frame ?_ ?_ | with_reducible refine ite_frame ?_ ?_
    | with_reducible exact hm.mono (by decide) | with_reducible exact hm.bit (by decide) | simp only [or_true, true_and, and_true]
    | with_reducible refine And.intro ?_ ?_ | with_reducible exact .inl (hm.bit (by decide)) | split | dsimp only
    | with_reducible refine State.frame_mk ?_ ?_

theorem State.noticeFrame_frame {anc : State} {M : Nat} {s : State} {f : Frame} (hm : Sub 0xe14fc0be7d007800000703000100130003 M) (hk : anc.Within M s) : anc.Within M (State.noticeFrame s f) := by
  unfold State.noticeFrame
  repeat' first
    | with_reducible assumption | with_reducible refine State.retireUnit_frame ?_ ?_ | with_reducible refine State.emit_frame ?_ ?_
    | with_reducible refine State.sendNotice_frame ?_ ?_ | with_reducible refine ite_frame ?_ ?_
    | with_reducible exact hm.mono (by decide) | split | dsimp only

theorem State.routeSwitch_frame {anc : State} {M : Nat} {s : State} (hm : Sub 0x4000000000001800000002000000000000 M) (hk : anc.Within M s) : anc.Within M (State.routeSwitch s) := by
  unfold State.routeSwitch
  repeat' first
    | with_reducible assumption | with_reducible refine State.wf_frame ?_ ?_ | with_reducible refine State.inc_frame ?_ ?_
    | with_reducible refine State.setInt_frame ?_ ?_ ?_ | with_reducible refine foldl_frame ?_ ?_
    | with_reducible refine State.when_frame ?_ ?_ | intro _ | with_reducible refine ite_frame ?_ ?_
    | with_reducible exact hm.mono (by decide) | with_reducible exact hm.bit (by decide)
    | ((with_reducible refine page_bit (B := ?_) (n := ?_) (k := ?_) hm ?_ ?_ ?_); (on_goal 4 => rfl); all_goals decide)
    | with_reducible exact corePage_bit hm (by decide) (by decide) (by decide) | simp only [or_true, true_and, and_true]
    | with_reducible refine And.intro ?_ ?_ | with_reducible exact .inl (hm.bit (by decide)) | split | dsimp only
    | with_reducible refine State.frame_mk ?_ ?_

theorem State.routeHoldEnd_frame {anc : State} {M : Nat} {s : State} (hm : Sub 0xe100000000327800000003030000000003 M) (hk : anc.Within M s) : anc.Within M (State.routeHoldEnd s) := by
  unfold State.routeHoldEnd
  repeat' first
    | with_reducible assumption | with_reducible refine State.wf_frame ?_ ?_ | with_reducible refine State.sendFrame_frame ?_ ?_
    | with_reducible refine State.leaveDone_frame ?_ ?_ | with_reducible refine State.each_frame ?_ ?_ | intro _
    | with_reducible refine ite_frame ?_ ?_ | with_reducible exact hm.mono (by decide) | with_reducible exact hm.bit (by decide)
    | simp only [or_true, true_and, and_true] | with_reducible refine And.intro ?_ ?_
    | with_reducible exact .inl (hm.bit (by decide)) | split | dsimp only | with_reducible refine State.frame_mk ?_ ?_

theorem State.loadPlan_frame {anc : State} {M : Nat} {s : State} {c : Cmd} (hm : Sub 0xe100000000007801000103000000000013 M) (hk : anc.Within M s) : anc.Within M (State.loadPlan s c).2 := by
  unfold State.loadPlan
  repeat' first
    | with_reducible assumption | with_reducible refine State.wf_frame ?_ ?_ | with_reducible refine State.setDir_frame ?_ ?_
    | with_reducible refine State.ownLsn_frame ?_ ?_ | with_reducible refine State.phaseStart_frame ?_ ?_
    | with_reducible refine State.dirCheck_frame ?_ ?_ | with_reducible refine State.each_frame ?_ ?_
    | with_reducible refine foldl_frame ?_ ?_ | with_reducible refine foldl_frame_pair ?_ ?_
    | with_reducible refine foldl_frame_triple ?_ ?_ | intro _ | with_reducible refine ite_frame ?_ ?_
    | with_reducible refine ite_frame2 ?_ ?_ | with_reducible refine ite_frame3 ?_ ?_ | with_reducible exact hm.mono (by decide)
    | with_reducible exact hm.bit (by decide) | simp only [or_true, true_and, and_true] | with_reducible refine And.intro ?_ ?_
    | with_reducible exact .inl (hm.bit (by decide)) | split | dsimp only | with_reducible refine State.frame_mk ?_ ?_

theorem State.loadPlan_frame_eq {anc : State} {M : Nat} {s : State} {c : Cmd} (hm : Sub 0xe100000000007801000103000000000013 M) {r0 tz} (heqx : State.loadPlan s c = (r0, tz)) (hk : anc.Within M s) : anc.Within M tz := by
  have := State.loadPlan_frame (s := s) (c := c) hm hk
  rwa [heqx] at this

theorem State.topologyLoad_frame {anc : State} {M : Nat} {s : State} {i : Instr} {c : Cmd} (hm : Sub 0xe900000000be7801000503030000000017 M) (hk : anc.Within M s) : anc.Within M (State.topologyLoad s i c) := by
  unfold State.topologyLoad
  repeat' first
    | with_reducible assumption | with_reducible refine State.vorane_frame ?_ ?_ ?_ | with_reducible refine State.reply_frame ?_ ?_
    | with_reducible refine State.loadPlan_frame ?_ ?_ | refine State.loadPlan_frame_eq ?_ (by with_reducible assumption) ?_
    | intro _ | with_reducible refine ite_frame ?_ ?_ | with_reducible exact hm.mono (by decide) | split | dsimp only

theorem State.helloSend_frame {anc : State} {M : Nat} {s : State} {d : Nat} (hm : Sub 0xa000000000000000000001000000000000 M) (hk : anc.Within M s) : anc.Within M (State.helloSend s d) := by
  unfold State.helloSend
  repeat' first
    | with_reducible assumption | with_reducible refine State.transmit_frame ?_ ?_ | with_reducible refine State.setDir_frame ?_ ?_
    | with_reducible refine ite_frame ?_ ?_ | with_reducible exact hm.mono (by decide) | split | dsimp only

theorem State.helloReceive_frame {anc : State} {M : Nat} {s : State} {d : Nat} {h : Hello} (hm : Sub 0xe100000000007801000103000000000013 M) (hk : anc.Within M s) : anc.Within M (State.helloReceive s d h) := by
  unfold State.helloReceive
  repeat' first
    | with_reducible assumption | with_reducible refine State.setDir_frame ?_ ?_ | with_reducible refine State.wf_frame ?_ ?_
    | with_reducible refine State.dirCheck_frame ?_ ?_ | with_reducible refine State.when_frame ?_ ?_ | intro _
    | with_reducible refine ite_frame ?_ ?_ | with_reducible exact hm.mono (by decide) | with_reducible exact hm.bit (by decide)
    | split | dsimp only

theorem execLaneBad_frame {anc : State} {M : Nat} {d : Nat} {lane : Nat} {power : Nat} {s : State} (hm : Sub 0xe100000000007801000103000000000013 M) (hk : anc.Within M s) : ∃ out, execLaneBad d lane power s = .next out ∧ anc.Within M out := by
  unfold execLaneBad
  refine ⟨_, rfl, ?_⟩
  repeat' first
    | with_reducible assumption | with_reducible refine State.laneBad_frame ?_ ?_ | with_reducible exact hm.mono (by decide)
    | dsimp only

theorem execLaneFrame_frame {anc : State} {M : Nat} {d : Nat} {active : Nat} {boundary : Nat} {s : State} (hm : Sub 0xe100000000007801000103000000000013 M) (hk : anc.Within M s) : ∃ out, execLaneFrame d active boundary s = .next out ∧ anc.Within M out := by
  unfold execLaneFrame
  refine ⟨_, rfl, ?_⟩
  repeat' first
    | with_reducible assumption | with_reducible refine State.laneFrame_frame ?_ ?_ | with_reducible refine ite_frame ?_ ?_
    | with_reducible exact hm.mono (by decide) | split | dsimp only

theorem execLaneRetrain_frame {anc : State} {M : Nat} {d : Nat} {lane : Nat} {ok : Bool} {s : State} (hm : Sub 0xa000000000007800000001000000000002 M) (hk : anc.Within M s) : ∃ out, execLaneRetrain d lane ok s = .next out ∧ anc.Within M out := by
  unfold execLaneRetrain
  refine ⟨_, rfl, ?_⟩
  repeat' first
    | with_reducible assumption | with_reducible refine State.laneRetrain_frame ?_ ?_ | with_reducible exact hm.mono (by decide)
    | dsimp only

theorem execFibreReversed_frame {anc : State} {M : Nat} {d : Nat} {txLight : Nat} {rxLight : Nat} {s : State} (hm : Sub 0xe100000000007801000103000000000013 M) (hk : anc.Within M s) : ∃ out, execFibreReversed d txLight rxLight s = .next out ∧ anc.Within M out := by
  unfold execFibreReversed
  refine ⟨_, rfl, ?_⟩
  repeat' first
    | with_reducible assumption | with_reducible refine State.fibreLight_frame ?_ ?_ | with_reducible exact hm.mono (by decide)
    | dsimp only

theorem execLinkTrained_frame {anc : State} {M : Nat} {d : Nat} {lanes : Nat} {txCount : Nat} {positions : List Nat} {powers : List Nat} {s : State} (hm : Sub 0xe100000000007801000103000000000013 M) (hk : anc.Within M s) : ∃ out, execLinkTrained d lanes txCount positions powers s = .next out ∧ anc.Within M out := by
  unfold execLinkTrained
  refine ⟨_, rfl, ?_⟩
  repeat' first
    | with_reducible assumption | with_reducible refine State.linkTrained_frame ?_ ?_ | with_reducible exact hm.mono (by decide)
    | dsimp only

theorem execBorsanFrameReceive_frame {anc : State} {M : Nat} {d : Nat} {f : Frame} {crcOk : Bool} {fec : List (Nat × Nat × Nat)} {s : State} (hm : Sub 0xa000000000007800000003000000000002 M) (hk : anc.Within M s) : ∃ out, execBorsanFrameReceive d f crcOk fec s = .next out ∧ anc.Within M out := by
  unfold execBorsanFrameReceive
  refine ⟨_, rfl, ?_⟩
  repeat' first
    | with_reducible assumption | with_reducible refine State.borsanReceive_frame ?_ ?_ | with_reducible exact hm.mono (by decide)
    | dsimp only

theorem execBorsanAck_frame {anc : State} {M : Nat} {d : Nat} {seq : Nat} {s : State} (hm : Sub 0xa000000000000000000001000000000000 M) (hk : anc.Within M s) : ∃ out, execBorsanAck d seq s = .next out ∧ anc.Within M out := by
  unfold execBorsanAck
  refine ⟨_, rfl, ?_⟩
  repeat' first
    | with_reducible assumption | with_reducible refine State.borsanAck_frame ?_ ?_ | with_reducible exact hm.mono (by decide)
    | dsimp only

theorem execBorsanNak_frame {anc : State} {M : Nat} {d : Nat} {seq : Nat} {s : State} (hm : Sub 0xe100000000007801000103000000000013 M) (hk : anc.Within M s) : ∃ out, execBorsanNak d seq s = .next out ∧ anc.Within M out := by
  unfold execBorsanNak
  refine ⟨_, rfl, ?_⟩
  repeat' first
    | with_reducible assumption | with_reducible refine State.borsanNak_frame ?_ ?_ | with_reducible exact hm.mono (by decide)
    | dsimp only

theorem execTimeFrameSend_frame {anc : State} {M : Nat} {d : Nat} {s : State} (hm : Sub 0xa000000000000000000001000000000000 M) (hk : anc.Within M s) : ∃ out, execTimeFrameSend d s = .next out ∧ anc.Within M out := by
  unfold execTimeFrameSend
  refine ⟨_, rfl, ?_⟩
  repeat' first
    | with_reducible assumption | with_reducible refine State.timeFrameSend_frame ?_ ?_ | with_reducible exact hm.mono (by decide)
    | dsimp only

theorem execTimeFrameReceive_frame {anc : State} {M : Nat} {d : Nat} {peerT1 : Nat} {echoT1 : Nat} {t2 : Nat} {t3 : Nat} {s : State} (hm : Sub 0x12200000000007900000003000000000002 M) (hk : anc.Within M s) : ∃ out, execTimeFrameReceive d peerT1 echoT1 t2 t3 s = .next out ∧ anc.Within M out := by
  unfold execTimeFrameReceive
  refine ⟨_, rfl, ?_⟩
  repeat' first
    | with_reducible assumption | with_reducible refine State.timeFrameReceive_frame ?_ ?_ | with_reducible exact hm.mono (by decide)
    | dsimp only

theorem execRemoteCreditReq_frame {anc : State} {M : Nat} {u : Nat} {f : Frame} {s : State} (hm : Sub 0xe000000000007800000003000000000002 M) (hk : anc.Within M s) : ∃ out, execRemoteCreditReq u f s = .next out ∧ anc.Within M out := by
  unfold execRemoteCreditReq
  refine ⟨_, rfl, ?_⟩
  repeat' first
    | with_reducible assumption | with_reducible refine State.remoteCreditReq_frame ?_ ?_ | with_reducible exact hm.mono (by decide)
    | dsimp only

theorem execRemoteCreditGrant_frame {anc : State} {M : Nat} {u : Nat} {f : Frame} {s : State} (hm : Sub 0x8000000000000000000000000000000000 M) (hk : anc.Within M s) : ∃ out, execRemoteCreditGrant u f s = .next out ∧ anc.Within M out := by
  unfold execRemoteCreditGrant
  refine ⟨_, rfl, ?_⟩
  repeat' first
    | with_reducible assumption | with_reducible refine State.remoteCreditGrant_frame ?_ ?_ | with_reducible refine ite_frame ?_ ?_
    | with_reducible exact hm.mono (by decide) | split | dsimp only

theorem execRemoteCreditReturn_frame {anc : State} {M : Nat} {u : Nat} {f : Frame} {s : State} (hm : Sub 0xc000000000000000000000000000000000 M) (hk : anc.Within M s) : ∃ out, execRemoteCreditReturn u f s = .next out ∧ anc.Within M out := by
  unfold execRemoteCreditReturn
  refine ⟨_, rfl, ?_⟩
  repeat' first
    | with_reducible assumption | with_reducible refine State.remoteCreditReturn_frame ?_ ?_
    | with_reducible exact hm.mono (by decide) | dsimp only

theorem execNoticeFrame_frame {anc : State} {M : Nat} {f : Frame} {s : State} (hm : Sub 0xe14fc0be7d007800000703000100130003 M) (hk : anc.Within M s) : ∃ out, execNoticeFrame f s = .next out ∧ anc.Within M out := by
  unfold execNoticeFrame
  refine ⟨_, rfl, ?_⟩
  repeat' first
    | with_reducible assumption | with_reducible refine State.noticeFrame_frame ?_ ?_ | with_reducible exact hm.mono (by decide)
    | dsimp only

theorem execLsnReceive_frame {anc : State} {M : Nat} {d : Nat} {l : Lsn} {s : State} (hm : Sub 0xe000000000007800000003000000000002 M) (hk : anc.Within M s) : ∃ out, execLsnReceive d l s = .next out ∧ anc.Within M out := by
  unfold execLsnReceive
  refine ⟨_, rfl, ?_⟩
  repeat' first
    | with_reducible assumption | with_reducible refine State.lsnReceive_frame ?_ ?_ | with_reducible exact hm.mono (by decide)
    | dsimp only

theorem execPeerLsnTimeout_frame {anc : State} {M : Nat} {d : Nat} {s : State} (hm : Sub 0xa000000000007800000003000000000002 M) (hk : anc.Within M s) : ∃ out, execPeerLsnTimeout d s = .next out ∧ anc.Within M out := by
  unfold execPeerLsnTimeout
  refine ⟨_, rfl, ?_⟩
  repeat' first
    | with_reducible assumption | with_reducible refine State.peerLsnTimeout_frame ?_ ?_ | with_reducible exact hm.mono (by decide)
    | dsimp only

theorem execRouteSwitch_frame {anc : State} {M : Nat} {s : State} (hm : Sub 0x4000000000001800000002000000000000 M) (hk : anc.Within M s) : ∃ out, execRouteSwitch s = .next out ∧ anc.Within M out := by
  unfold execRouteSwitch
  refine ⟨_, rfl, ?_⟩
  repeat' first
    | with_reducible assumption | with_reducible refine State.routeSwitch_frame ?_ ?_ | with_reducible exact hm.mono (by decide)
    | dsimp only

theorem execTopologyLoad_frame {anc : State} {M : Nat} {c : Cmd} {s : State} (hm : Sub 0xe900000000be7801000503030000000017 M) (hk : anc.Within M s) : ∃ out, execTopologyLoad c s = .next out ∧ anc.Within M out := by
  unfold execTopologyLoad
  refine ⟨_, rfl, ?_⟩
  repeat' first
    | with_reducible assumption | with_reducible refine State.topologyLoad_frame ?_ ?_ | with_reducible exact hm.mono (by decide)
    | dsimp only

theorem execHelloSend_frame {anc : State} {M : Nat} {d : Nat} {s : State} (hm : Sub 0xa000000000000000000001000000000000 M) (hk : anc.Within M s) : ∃ out, execHelloSend d s = .next out ∧ anc.Within M out := by
  unfold execHelloSend
  refine ⟨_, rfl, ?_⟩
  repeat' first
    | with_reducible assumption | with_reducible refine State.helloSend_frame ?_ ?_ | with_reducible exact hm.mono (by decide)
    | dsimp only

theorem execHelloReceive_frame {anc : State} {M : Nat} {d : Nat} {h : Hello} {s : State} (hm : Sub 0xe100000000007801000103000000000013 M) (hk : anc.Within M s) : ∃ out, execHelloReceive d h s = .next out ∧ anc.Within M out := by
  unfold execHelloReceive
  refine ⟨_, rfl, ?_⟩
  repeat' first
    | with_reducible assumption | with_reducible refine State.helloReceive_frame ?_ ?_ | with_reducible exact hm.mono (by decide)
    | dsimp only

theorem execAgreeTimeout_frame {anc : State} {M : Nat} {d : Nat} {s : State} (hm : Sub 0xe100000000007801000103000000000013 M) (hk : anc.Within M s) : ∃ out, execAgreeTimeout d s = .next out ∧ anc.Within M out := by
  unfold execAgreeTimeout
  refine ⟨_, rfl, ?_⟩
  repeat' first
    | with_reducible assumption | with_reducible refine State.dirCheck_frame ?_ ?_ | with_reducible exact hm.mono (by decide)
    | dsimp only

end Sys2Proof.Machine
end

