-- ==== Sys2Proof/Laws/Frame/Collect.lean ====
section
/-! SUPPORT. Every operation and meaning of Machine/Collect.lean changes only the register areas and parts of the state its mask names. -/

namespace Sys2Proof.Machine

set_option linter.unreachableTactic false
set_option linter.unusedTactic false

theorem State.setColl_frame {anc : State} {M : Nat} {s : State} {i : Nat} {c : CollSt} (hm : Sub 0x4000000000000000000000000000000000 M) (hk : anc.Within M s) : anc.Within M (State.setColl s i c) := by
  unfold State.setColl
  repeat' first
    | with_reducible assumption | with_reducible exact hm.mono (by decide) | with_reducible exact hm.bit (by decide)
    | simp only [or_true, true_and, and_true] | with_reducible refine And.intro ?_ ?_
    | with_reducible exact .inl (hm.bit (by decide)) | dsimp only | with_reducible refine State.frame_mk ?_ ?_

theorem State.collMismatch_frame {anc : State} {M : Nat} {s : State} {i : Nat} {hop : Nat} {from_ : Nat} {arith : Bool} (hm : Sub 0x1800000002000000000000 M) (hk : anc.Within M s) : anc.Within M (State.collMismatch s i hop from_ arith) := by
  unfold State.collMismatch
  repeat' first
    | with_reducible assumption | with_reducible refine State.inc_frame ?_ ?_ | with_reducible refine State.wf_frame ?_ ?_
    | with_reducible refine State.setInt_frame ?_ ?_ ?_ | with_reducible refine ite_frame ?_ ?_
    | with_reducible exact hm.mono (by decide) | with_reducible exact hm.bit (by decide)
    | ((with_reducible refine page_bit (B := ?_) (n := ?_) (k := ?_) hm ?_ ?_ ?_); (on_goal 4 => rfl); all_goals decide)
    | with_reducible exact corePage_bit hm (by decide) (by decide) (by decide) | split | dsimp only

theorem State.requant_frame {anc : State} {M : Nat} {s : State} {i : Nat} {b0 : Nat} {n : Nat} (hm : Sub 0x4000000000000000000002000000000000 M) (hk : anc.Within M s) : anc.Within M (State.requant s i b0 n).2.2 := by
  unfold State.requant
  repeat' first
    | with_reducible assumption | with_reducible refine State.setColl_frame ?_ ?_ | with_reducible refine foldl_frame ?_ ?_
    | with_reducible refine foldl_frame_pair ?_ ?_ | with_reducible refine foldl_frame_triple ?_ ?_ | intro _
    | with_reducible refine ite_frame ?_ ?_ | with_reducible refine ite_frame2 ?_ ?_ | with_reducible refine ite_frame3 ?_ ?_
    | with_reducible exact hm.mono (by decide) | split | dsimp only

theorem State.requant_frame_eq {anc : State} {M : Nat} {s : State} {i : Nat} {b0 : Nat} {n : Nat} (hm : Sub 0x4000000000000000000002000000000000 M) {r0 r1 tz} (heqx : State.requant s i b0 n = (r0, r1, tz)) (hk : anc.Within M s) : anc.Within M tz := by
  have := State.requant_frame (s := s) (i := i) (b0 := b0) (n := n) hm hk
  rwa [heqx] at this

theorem State.settleChunk_frame {anc : State} {M : Nat} {s : State} {i : Nat} {b0 : Nat} {n : Nat} (hm : Sub 0x4000000000000000000002000000000000 M) (hk : anc.Within M s) : anc.Within M (State.settleChunk s i b0 n) := by
  unfold State.settleChunk
  repeat' first
    | with_reducible assumption | with_reducible refine State.requant_frame ?_ ?_
    | refine State.requant_frame_eq ?_ (by with_reducible assumption) ?_ | with_reducible refine State.setColl_frame ?_ ?_
    | with_reducible refine foldl_frame ?_ ?_ | with_reducible refine foldl_frame_pair ?_ ?_
    | with_reducible refine foldl_frame_triple ?_ ?_ | intro _ | with_reducible refine ite_frame ?_ ?_
    | with_reducible exact hm.mono (by decide) | split | dsimp only

theorem State.sendChunk_frame {anc : State} {M : Nat} {s : State} {i : Nat} {dim : Nat} {b0 : Nat} {n : Nat} {hollow : Bool} {ovr : Bool} {int32 : Bool} {data : List Nat} {dg : Nat} (hm : Sub 0xe000000000007800000003000000000002 M) (hk : anc.Within M s) : anc.Within M (State.sendChunk s i dim b0 n hollow ovr int32 data dg) := by
  unfold State.sendChunk
  repeat' first
    | with_reducible assumption | with_reducible refine State.sendFrame_frame ?_ ?_ | with_reducible refine State.setColl_frame ?_ ?_
    | with_reducible exact hm.mono (by decide) | dsimp only

theorem State.chunkOut_frame {anc : State} {M : Nat} {s : State} {i : Nat} {dim : Nat} {b0 : Nat} {n : Nat} {forward : Bool} (hm : Sub 0xe000000000007800000003000000000002 M) (hk : anc.Within M s) : anc.Within M (State.chunkOut s i dim b0 n forward) := by
  unfold State.chunkOut
  repeat' first
    | with_reducible assumption | with_reducible refine State.settleChunk_frame ?_ ?_
    | with_reducible refine State.sendChunk_frame ?_ ?_ | with_reducible refine State.requant_frame ?_ ?_
    | refine State.requant_frame_eq ?_ (by with_reducible assumption) ?_ | with_reducible refine ite_frame ?_ ?_
    | with_reducible exact hm.mono (by decide) | split | dsimp only

theorem State.sendHop_frame {anc : State} {M : Nat} {s : State} {i : Nat} {h : CollHop} (hm : Sub 0xe000000000007800000003000000000002 M) (hk : anc.Within M s) : anc.Within M (State.sendHop s i h) := by
  unfold State.sendHop
  repeat' first
    | with_reducible assumption | with_reducible refine State.chunkOut_frame ?_ ?_ | with_reducible refine State.each_frame ?_ ?_
    | intro _ | with_reducible exact hm.mono (by decide) | dsimp only

theorem State.emitResults_frame {anc : State} {M : Nat} {s : State} {i : Nat} (hm : Sub 0x8000000000000000000002000000000000 M) (hk : anc.Within M s) : anc.Within M (State.emitResults s i) := by
  unfold State.emitResults
  repeat' first
    | with_reducible assumption | with_reducible refine State.emit_frame ?_ ?_ | with_reducible refine foldl_frame ?_ ?_ | intro _
    | with_reducible refine ite_frame ?_ ?_ | with_reducible exact hm.mono (by decide) | split | dsimp only

theorem State.collEnd_frame {anc : State} {M : Nat} {s : State} {i : Nat} (hm : Sub 0xc000000000000000000002000000000000 M) (hk : anc.Within M s) : anc.Within M (State.collEnd s i) := by
  unfold State.collEnd
  repeat' first
    | with_reducible assumption | with_reducible refine State.setColl_frame ?_ ?_
    | with_reducible refine State.emitResults_frame ?_ ?_ | with_reducible exact hm.mono (by decide) | dsimp only

theorem State.settleOwn_frame {anc : State} {M : Nat} {s : State} {i : Nat} (hm : Sub 0x4000000000000000000002000000000000 M) (hk : anc.Within M s) : anc.Within M (State.settleOwn s i) := by
  unfold State.settleOwn
  repeat' first
    | with_reducible assumption | with_reducible refine State.settleChunk_frame ?_ ?_ | with_reducible refine State.each_frame ?_ ?_
    | intro _ | with_reducible exact hm.mono (by decide) | dsimp only

theorem State.broadcastOn_frame {anc : State} {M : Nat} {s : State} {i : Nat} {arr : Option Nat} (hm : Sub 0xe000000000007800000003000000000002 M) (hk : anc.Within M s) : anc.Within M (State.broadcastOn s i arr) := by
  unfold State.broadcastOn
  repeat' first
    | with_reducible assumption | with_reducible refine State.setColl_frame ?_ ?_ | with_reducible refine State.chunkOut_frame ?_ ?_
    | with_reducible refine State.each_frame ?_ ?_ | intro _ | with_reducible refine ite_frame ?_ ?_
    | with_reducible exact hm.mono (by decide) | split | dsimp only

theorem State.nextHop_frame {anc : State} {M : Nat} {s : State} {i : Nat} (hm : Sub 0xe000000000007800000003000000000002 M) (hk : anc.Within M s) : anc.Within M (State.nextHop s i) := by
  unfold State.nextHop
  repeat' first
    | with_reducible assumption | with_reducible refine State.setColl_frame ?_ ?_ | with_reducible refine State.sendHop_frame ?_ ?_
    | with_reducible refine State.collEnd_frame ?_ ?_ | with_reducible refine State.settleOwn_frame ?_ ?_
    | with_reducible refine ite_frame ?_ ?_ | with_reducible exact hm.mono (by decide) | split | dsimp only

theorem State.takeChunk_frame {anc : State} {M : Nat} {s : State} {i : Nat} {b0 : Nat} {n : Nat} {hollow : Bool} {int32 : Bool} {gather : Bool} {data : List Nat} {lin : Nat} {flag : Bool} (hm : Sub 0x4000000000000000000002000000000000 M) (hk : anc.Within M s) : anc.Within M (State.takeChunk s i b0 n hollow int32 gather data lin flag) := by
  unfold State.takeChunk
  repeat' first
    | with_reducible assumption | with_reducible refine State.setColl_frame ?_ ?_ | with_reducible refine State.inc_frame ?_ ?_
    | with_reducible refine foldl_frame ?_ ?_ | with_reducible refine State.when_frame ?_ ?_ | intro _
    | with_reducible refine ite_frame ?_ ?_ | with_reducible exact hm.mono (by decide) | with_reducible exact hm.bit (by decide)
    | ((with_reducible refine page_bit (B := ?_) (n := ?_) (k := ?_) hm ?_ ?_ ?_); (on_goal 4 => rfl); all_goals decide)
    | with_reducible exact corePage_bit hm (by decide) (by decide) (by decide) | split | dsimp only

theorem State.chunkIn_frame {anc : State} {M : Nat} {s : State} {i : Nat} {b0 : Nat} {n : Nat} {hollow : Bool} {int32 : Bool} {data : List Nat} {lin : Nat} {flag : Bool} (hm : Sub 0xe000000000007800000003000000000002 M) (hk : anc.Within M s) : anc.Within M (State.chunkIn s i b0 n hollow int32 data lin flag) := by
  unfold State.chunkIn
  repeat' first
    | with_reducible assumption | with_reducible refine State.takeChunk_frame ?_ ?_ | with_reducible refine State.collEnd_frame ?_ ?_
    | with_reducible refine State.broadcastOn_frame ?_ ?_ | with_reducible refine State.nextHop_frame ?_ ?_
    | with_reducible refine ite_frame ?_ ?_ | with_reducible exact hm.mono (by decide) | split | dsimp only

theorem State.chunkNow_frame {anc : State} {M : Nat} {s : State} {i : Nat} {f : Frame} (hm : Sub 0xe000000000007800000003000000000002 M) (hk : anc.Within M s) : anc.Within M (State.chunkNow s i f) := by
  unfold State.chunkNow
  repeat' first
    | with_reducible assumption | with_reducible refine State.sendFrame_frame ?_ ?_ | with_reducible refine State.chunkIn_frame ?_ ?_
    | with_reducible refine State.collMismatch_frame ?_ ?_ | with_reducible refine State.setColl_frame ?_ ?_
    | with_reducible refine State.setInt_frame ?_ ?_ ?_ | with_reducible refine State.inc_frame ?_ ?_
    | with_reducible refine State.sendNotice_frame ?_ ?_ | with_reducible refine State.logEvSev_frame ?_ ?_
    | with_reducible refine State.when_frame ?_ ?_ | intro _ | with_reducible refine ite_frame ?_ ?_
    | with_reducible exact hm.mono (by decide) | with_reducible exact hm.bit (by decide)
    | ((with_reducible refine page_bit (B := ?_) (n := ?_) (k := ?_) hm ?_ ?_ ?_); (on_goal 4 => rfl); all_goals decide)
    | with_reducible exact corePage_bit hm (by decide) (by decide) (by decide) | split | dsimp only

theorem State.drainEarly_frame {anc : State} {M : Nat} {s : State} {i : Nat} {x2 : Nat} (hm : Sub 0xe000000000007800000003000000000002 M) (hk : anc.Within M s) : anc.Within M (State.drainEarly s i x2) := by
  induction x2 generalizing s with
  | zero =>
  simp only [State.drainEarly]
  try repeat' first
    | with_reducible assumption | with_reducible refine State.chunkNow_frame ?_ ?_ | with_reducible refine State.setColl_frame ?_ ?_
    | with_reducible refine State.each_frame ?_ ?_ | with_reducible refine foldl_frame ?_ ?_
    | with_reducible refine foldl_frame_pair ?_ ?_ | with_reducible refine foldl_frame_triple ?_ ?_
    | with_reducible refine State.when_frame ?_ ?_ | intro _ | with_reducible refine ite_frame ?_ ?_
    | with_reducible exact hm.mono (by decide) | with_reducible exact hm.bit (by decide) | simp only [or_true, true_and, and_true]
    | with_reducible refine And.intro ?_ ?_ | with_reducible exact .inl (hm.bit (by decide)) | split | dsimp only
    | with_reducible refine State.frame_mk ?_ ?_
  | succ n ih =>
  simp only [State.drainEarly]
  repeat' first
    | with_reducible assumption | with_reducible apply ih | with_reducible refine State.chunkNow_frame ?_ ?_ | with_reducible refine State.setColl_frame ?_ ?_
    | with_reducible refine State.each_frame ?_ ?_ | with_reducible refine foldl_frame ?_ ?_
    | with_reducible refine foldl_frame_pair ?_ ?_ | with_reducible refine foldl_frame_triple ?_ ?_
    | with_reducible refine State.when_frame ?_ ?_ | intro _ | with_reducible refine ite_frame ?_ ?_
    | with_reducible exact hm.mono (by decide) | with_reducible exact hm.bit (by decide) | simp only [or_true, true_and, and_true]
    | with_reducible refine And.intro ?_ ?_ | with_reducible exact .inl (hm.bit (by decide)) | split | dsimp only
    | with_reducible refine State.frame_mk ?_ ?_

theorem State.chunkReceive_frame {anc : State} {M : Nat} {s : State} {u : Nat} {f : Frame} (hm : Sub 0xe000000000007800000003000000000002 M) (hk : anc.Within M s) : anc.Within M (State.chunkReceive s u f) := by
  unfold State.chunkReceive
  repeat' first
    | with_reducible assumption | with_reducible refine State.inc_frame ?_ ?_ | with_reducible refine State.setColl_frame ?_ ?_
    | with_reducible refine State.chunkNow_frame ?_ ?_ | with_reducible refine State.drainEarly_frame ?_ ?_
    | with_reducible refine ite_frame ?_ ?_ | with_reducible exact hm.mono (by decide) | with_reducible exact hm.bit (by decide)
    | ((with_reducible refine page_bit (B := ?_) (n := ?_) (k := ?_) hm ?_ ?_ ?_); (on_goal 4 => rfl); all_goals decide)
    | with_reducible exact corePage_bit hm (by decide) (by decide) (by decide) | split | dsimp only

theorem State.chunkAck_frame {anc : State} {M : Nat} {s : State} {f : Frame} (hm : Sub 0x4000000000000000000000000000000000 M) (hk : anc.Within M s) : anc.Within M (State.chunkAck s f) := by
  unfold State.chunkAck
  repeat' first
    | with_reducible assumption | with_reducible refine State.setColl_frame ?_ ?_ | with_reducible refine ite_frame ?_ ?_
    | with_reducible exact hm.mono (by decide) | split | dsimp only

theorem State.resendReq_frame {anc : State} {M : Nat} {s : State} {f : Frame} (hm : Sub 0xe000000000007800000003000000000002 M) (hk : anc.Within M s) : anc.Within M (State.resendReq s f) := by
  unfold State.resendReq
  repeat' first
    | with_reducible assumption | with_reducible refine State.sendFrame_frame ?_ ?_ | with_reducible refine ite_frame ?_ ?_
    | with_reducible exact hm.mono (by decide) | split | dsimp only

theorem State.collBegin_frame {anc : State} {M : Nat} {s : State} {i : Nat} {parts : List (List Nat × Bool)} {rest : List (List Nat × Bool)} (hm : Sub 0xe000000000007800000003000000000002 M) (hk : anc.Within M s) : anc.Within M (State.collBegin s i parts rest) := by
  unfold State.collBegin
  repeat' first
    | with_reducible assumption | with_reducible refine State.unitEv_frame ?_ ?_ | with_reducible refine State.inc_frame ?_ ?_
    | with_reducible refine State.setColl_frame ?_ ?_ | with_reducible refine State.collEnd_frame ?_ ?_
    | with_reducible refine State.settleOwn_frame ?_ ?_ | with_reducible refine State.broadcastOn_frame ?_ ?_
    | with_reducible refine State.drainEarly_frame ?_ ?_ | with_reducible refine State.sendHop_frame ?_ ?_
    | with_reducible refine State.each_frame ?_ ?_ | intro _ | with_reducible refine ite_frame ?_ ?_
    | with_reducible exact hm.mono (by decide) | with_reducible exact hm.bit (by decide)
    | ((with_reducible refine page_bit (B := ?_) (n := ?_) (k := ?_) hm ?_ ?_ ?_); (on_goal 4 => rfl); all_goals decide)
    | with_reducible exact corePage_bit hm (by decide) (by decide) (by decide) | split | dsimp only

theorem State.collStart_frame {anc : State} {M : Nat} {s : State} {i : Nat} (hm : Sub 0xe000000000007800000003000000000002 M) (hk : anc.Within M s) : anc.Within M (State.collStart s i) := by
  unfold State.collStart
  repeat' first
    | with_reducible assumption | with_reducible refine State.emitResults_frame ?_ ?_
    | with_reducible refine State.setColl_frame ?_ ?_ | with_reducible refine State.collBegin_frame ?_ ?_
    | with_reducible refine State.collMismatch_frame ?_ ?_ | with_reducible refine State.emit_frame ?_ ?_
    | with_reducible refine State.setInt_frame ?_ ?_ ?_ | with_reducible refine State.inc_frame ?_ ?_
    | with_reducible refine ite_frame ?_ ?_ | with_reducible exact hm.mono (by decide) | with_reducible exact hm.bit (by decide)
    | ((with_reducible refine page_bit (B := ?_) (n := ?_) (k := ?_) hm ?_ ?_ ?_); (on_goal 4 => rfl); all_goals decide)
    | with_reducible exact corePage_bit hm (by decide) (by decide) (by decide) | split | dsimp only

theorem State.collTimeout_frame {anc : State} {M : Nat} {s : State} {i : Nat} (hm : Sub 0xc000000000001800000002000000000000 M) (hk : anc.Within M s) : anc.Within M (State.collTimeout s i) := by
  unfold State.collTimeout
  repeat' first
    | with_reducible assumption | with_reducible refine State.collEnd_frame ?_ ?_ | with_reducible refine State.setInt_frame ?_ ?_ ?_
    | with_reducible refine State.inc_frame ?_ ?_ | with_reducible refine ite_frame ?_ ?_ | with_reducible exact hm.mono (by decide)
    | with_reducible exact hm.bit (by decide)
    | ((with_reducible refine page_bit (B := ?_) (n := ?_) (k := ?_) hm ?_ ?_ ?_); (on_goal 4 => rfl); all_goals decide)
    | with_reducible exact corePage_bit hm (by decide) (by decide) (by decide) | split | dsimp only

theorem execCollectiveStart_frame {anc : State} {M : Nat} {i : Nat} {s : State} (hm : Sub 0xe000000000007800000003000000000002 M) (hk : anc.Within M s) : ∃ out, execCollectiveStart i s = .next out ∧ anc.Within M out := by
  unfold execCollectiveStart
  refine ⟨_, rfl, ?_⟩
  repeat' first
    | with_reducible assumption | with_reducible refine State.collStart_frame ?_ ?_ | with_reducible exact hm.mono (by decide)
    | dsimp only

theorem execChunkReceive_frame {anc : State} {M : Nat} {u : Nat} {f : Frame} {s : State} (hm : Sub 0xe000000000007800000003000000000002 M) (hk : anc.Within M s) : ∃ out, execChunkReceive u f s = .next out ∧ anc.Within M out := by
  unfold execChunkReceive
  refine ⟨_, rfl, ?_⟩
  repeat' first
    | with_reducible assumption | with_reducible refine State.chunkReceive_frame ?_ ?_ | with_reducible exact hm.mono (by decide)
    | dsimp only

theorem execChunkAck_frame {anc : State} {M : Nat} {u : Nat} {f : Frame} {s : State} (hm : Sub 0x4000000000000000000000000000000000 M) (hk : anc.Within M s) : ∃ out, execChunkAck u f s = .next out ∧ anc.Within M out := by
  unfold execChunkAck
  refine ⟨_, rfl, ?_⟩
  repeat' first
    | with_reducible assumption | with_reducible refine State.chunkAck_frame ?_ ?_ | with_reducible refine ite_frame ?_ ?_
    | with_reducible exact hm.mono (by decide) | split | dsimp only

theorem execResendReq_frame {anc : State} {M : Nat} {u : Nat} {f : Frame} {s : State} (hm : Sub 0xe000000000007800000003000000000002 M) (hk : anc.Within M s) : ∃ out, execResendReq u f s = .next out ∧ anc.Within M out := by
  unfold execResendReq
  refine ⟨_, rfl, ?_⟩
  repeat' first
    | with_reducible assumption | with_reducible refine State.resendReq_frame ?_ ?_ | with_reducible refine ite_frame ?_ ?_
    | with_reducible exact hm.mono (by decide) | split | dsimp only

theorem execCollectiveTimeout_frame {anc : State} {M : Nat} {i : Nat} {s : State} (hm : Sub 0xc000000000001800000002000000000000 M) (hk : anc.Within M s) : ∃ out, execCollectiveTimeout i s = .next out ∧ anc.Within M out := by
  unfold execCollectiveTimeout
  refine ⟨_, rfl, ?_⟩
  repeat' first
    | with_reducible assumption | with_reducible refine State.collTimeout_frame ?_ ?_ | with_reducible exact hm.mono (by decide)
    | dsimp only

end Sys2Proof.Machine
end

