-- ==== Sys2Proof/Laws/Frame/Husk.lean ====
section
/-! SUPPORT. Every operation and meaning of Machine/Husk.lean changes only the register areas and parts of the state its mask names. -/

namespace Sys2Proof.Machine

set_option linter.unreachableTactic false
set_option linter.unusedTactic false

theorem State.countKeys_frame {anc : State} {M : Nat} {s : State} (hm : Sub 0x10 M) (hk : anc.Within M s) : anc.Within M (State.countKeys s) := by
  unfold State.countKeys
  repeat' first
    | with_reducible assumption | with_reducible refine State.wf_frame ?_ ?_ | with_reducible refine State.each_frame ?_ ?_ | intro _
    | with_reducible refine ite_frame ?_ ?_ | with_reducible exact hm.mono (by decide) | with_reducible exact hm.bit (by decide)
    | split | dsimp only

theorem State.keyImport_frame {anc : State} {M : Nat} {s : State} {c : Cmd} {lowFirst : Bool} (hm : Sub 0x8800000000321800000000030000000010 M) (hk : anc.Within M s) : anc.Within M (State.keyImport s c lowFirst) := by
  unfold State.keyImport
  repeat' first
    | with_reducible assumption | with_reducible refine State.reply_frame ?_ ?_ | with_reducible refine State.setInt_frame ?_ ?_ ?_
    | with_reducible refine State.inc_frame ?_ ?_ | with_reducible refine State.wf_frame ?_ ?_
    | with_reducible refine State.countKeys_frame ?_ ?_ | with_reducible refine ite_frame ?_ ?_
    | with_reducible exact hm.mono (by decide) | with_reducible exact hm.bit (by decide)
    | ((with_reducible refine page_bit (B := ?_) (n := ?_) (k := ?_) hm ?_ ?_ ?_); (on_goal 4 => rfl); all_goals decide)
    | with_reducible exact corePage_bit hm (by decide) (by decide) (by decide) | simp only [or_true, true_and, and_true]
    | with_reducible refine And.intro ?_ ?_ | with_reducible exact .inl (hm.bit (by decide)) | split | dsimp only
    | with_reducible refine State.frame_mk ?_ ?_

theorem State.setShard_frame {anc : State} {M : Nat} {s : State} {v : Nat} {i : Nat} {x : ShardSt} (hm : Sub 0x800000000000000000000000000000000 M) (hk : anc.Within M s) : anc.Within M (State.setShard s v i x) := by
  unfold State.setShard
  repeat' first
    | with_reducible assumption | with_reducible exact hm.mono (by decide) | with_reducible exact hm.bit (by decide)
    | simp only [or_true, true_and, and_true] | with_reducible refine And.intro ?_ ?_
    | with_reducible exact .inl (hm.bit (by decide)) | dsimp only | with_reducible refine State.frame_mk ?_ ?_

theorem State.countShards_frame {anc : State} {M : Nat} {s : State} {v : Nat} (hm : Sub 0x4000000000000 M) (hk : anc.Within M s) : anc.Within M (State.countShards s v) := by
  unfold State.countShards
  repeat' first
    | with_reducible assumption | with_reducible refine State.wf_frame ?_ ?_ | with_reducible exact hm.mono (by decide)
    | with_reducible exact hm.bit (by decide) | dsimp only

theorem State.judgeComplete_frame {anc : State} {M : Nat} {s : State} {v : Nat} (hm : Sub 0x1800000104000000000000 M) (hk : anc.Within M s) : anc.Within M (State.judgeComplete s v) := by
  unfold State.judgeComplete
  repeat' first
    | with_reducible assumption | with_reducible refine State.wf_frame ?_ ?_ | with_reducible refine State.setVState_frame ?_ ?_
    | with_reducible refine State.setInt_frame ?_ ?_ ?_ | with_reducible refine ite_frame ?_ ?_
    | with_reducible exact hm.mono (by decide) | with_reducible exact hm.bit (by decide)
    | ((with_reducible refine page_bit (B := ?_) (n := ?_) (k := ?_) hm ?_ ?_ ?_); (on_goal 4 => rfl); all_goals decide)
    | with_reducible exact corePage_bit hm (by decide) (by decide) (by decide) | split | dsimp only

theorem State.register_frame {anc : State} {M : Nat} {s : State} {c : Cmd} (hm : Sub 0x8800000000320000000000030000000000 M) (hk : anc.Within M s) : anc.Within M (State.register s c) := by
  unfold State.register
  repeat' first
    | with_reducible assumption | with_reducible refine State.reply_frame ?_ ?_ | with_reducible refine State.issueRead_frame ?_ ?_
    | with_reducible refine State.setCmd_frame ?_ ?_ | with_reducible refine ite_frame ?_ ?_
    | with_reducible exact hm.mono (by decide) | with_reducible exact hm.bit (by decide) | simp only [or_true, true_and, and_true]
    | with_reducible refine And.intro ?_ ?_ | with_reducible exact .inl (hm.bit (by decide)) | split | dsimp only
    | with_reducible refine State.frame_mk ?_ ?_

theorem State.manifestDone_frame {anc : State} {M : Nat} {s : State} {v : Nat} {ok : Bool} {bytes : List Nat} {a : Nat} {room : Bool} (hm : Sub 0x8800001c00327800000104030100000012 M) (hk : anc.Within M s) : anc.Within M (State.manifestDone s v ok bytes a room) := by
  unfold State.manifestDone
  repeat' first
    | with_reducible assumption | with_reducible refine State.readDone_frame ?_ ?_ | with_reducible refine State.finish_frame ?_ ?_
    | with_reducible refine State.hbmPut_frame ?_ ?_ | with_reducible refine State.wf_frame ?_ ?_
    | with_reducible refine State.judgeComplete_frame ?_ ?_ | with_reducible refine State.countKeys_frame ?_ ?_
    | with_reducible refine State.countShards_frame ?_ ?_ | with_reducible refine ite_frame ?_ ?_
    | with_reducible exact hm.mono (by decide) | with_reducible exact hm.bit (by decide) | simp only [or_true, true_and, and_true]
    | with_reducible refine And.intro ?_ ?_ | with_reducible exact .inl (hm.bit (by decide)) | split | dsimp only
    | with_reducible refine State.frame_mk ?_ ?_

theorem State.unregister_frame {anc : State} {M : Nat} {s : State} {c : Cmd} (hm : Sub 0x8800000000321800000104030000000010 M) (hk : anc.Within M s) :
    anc.Within M (State.unregister s c) := by
  unfold State.unregister
  dsimp only [List.foldl_cons, List.foldl_nil]
  repeat' first
    | with_reducible assumption
    | with_reducible refine State.reply_frame ?_ ?_
    | with_reducible refine State.countKeys_frame ?_ ?_
    | with_reducible refine State.countShards_frame ?_ ?_
    | with_reducible refine State.setVState_frame ?_ ?_
    | with_reducible refine State.wf_frame ?_ ?_
    | with_reducible refine State.each_frame ?_ ?_
    | with_reducible refine foldl_frame ?_ ?_
    | with_reducible refine foldl_frame_pair ?_ ?_
    | with_reducible refine foldl_frame_triple ?_ ?_
    | with_reducible refine State.when_frame ?_ ?_
    | intro _
    | with_reducible refine ite_frame ?_ ?_
    | with_reducible exact hm.mono (by decide)
    | with_reducible exact hm.bit (by decide)
    | ((with_reducible refine page_bit (B := ?_) (n := ?_) (k := ?_) hm ?_ ?_ ?_); (on_goal 4 => rfl); all_goals decide)
    | with_reducible exact corePage_bit hm (by decide) (by decide) (by decide)
    | simp only [or_true, true_and, and_true]
    | with_reducible refine And.intro ?_ ?_
    | with_reducible exact .inl (hm.bit (by decide))
    | split
    | dsimp only
    | with_reducible refine State.frame_mk ?_ ?_

theorem State.sendBulk_frame {anc : State} {M : Nat} {s : State} {f : Frame} (hm : Sub 0xe000000000007800000003000000000002 M) (hk : anc.Within M s) : anc.Within M (State.sendBulk s f) := by
  unfold State.sendBulk
  repeat' first
    | with_reducible assumption | with_reducible refine State.sendFrame_frame ?_ ?_ | with_reducible exact hm.mono (by decide)
    | dsimp only

theorem State.sendShard_frame {anc : State} {M : Nat} {s : State} {v : Nat} {i : Nat} {m : Manifest} {sh : Shard} {next : Nat} (hm : Sub 0xe800000000007800000007000000000002 M) (hk : anc.Within M s) : anc.Within M (State.sendShard s v i m sh next) := by
  unfold State.sendShard
  repeat' first
    | with_reducible assumption | with_reducible refine State.sendBulk_frame ?_ ?_
    | with_reducible refine State.countShards_frame ?_ ?_ | with_reducible refine State.setShard_frame ?_ ?_
    | with_reducible exact hm.mono (by decide) | dsimp only

theorem State.bulkAck_frame {anc : State} {M : Nat} {s : State} {dest : Nat} {id : Nat} {rev : Nat} {i : Nat} {code : Nat} (hm : Sub 0xe000000000007800000003000000000002 M) (hk : anc.Within M s) : anc.Within M (State.bulkAck s dest id rev i code) := by
  unfold State.bulkAck
  repeat' first
    | with_reducible assumption | with_reducible refine State.sendBulk_frame ?_ ?_ | with_reducible exact hm.mono (by decide)
    | dsimp only

theorem State.forwardShards_frame {anc : State} {M : Nat} {s : State} (hm : Sub 0xe800000000007800000007000000000002 M) (hk : anc.Within M s) : anc.Within M (State.forwardShards s) := by
  unfold State.forwardShards
  repeat' first
    | with_reducible assumption | with_reducible refine State.sendShard_frame ?_ ?_ | with_reducible refine foldl_frame ?_ ?_
    | intro _ | with_reducible refine ite_frame ?_ ?_ | with_reducible exact hm.mono (by decide) | split | dsimp only

theorem State.shardAccept_frame {anc : State} {M : Nat} {s : State} {v : Nat} {i : Nat} {m : Manifest} {sh : Shard} {a : Nat} {husk : List Nat} (hm : Sub 0xe800001c00007800000107000100000002 M) (hk : anc.Within M s) : anc.Within M (State.shardAccept s v i m sh a husk) := by
  unfold State.shardAccept
  repeat' first
    | with_reducible assumption | with_reducible refine State.hbmPut_frame ?_ ?_ | with_reducible refine State.inc_frame ?_ ?_
    | with_reducible refine State.setShard_frame ?_ ?_ | with_reducible refine State.forwardShards_frame ?_ ?_
    | with_reducible refine State.judgeComplete_frame ?_ ?_ | with_reducible refine State.countShards_frame ?_ ?_
    | with_reducible refine ite_frame ?_ ?_ | with_reducible exact hm.mono (by decide) | with_reducible exact hm.bit (by decide)
    | ((with_reducible refine page_bit (B := ?_) (n := ?_) (k := ?_) hm ?_ ?_ ?_); (on_goal 4 => rfl); all_goals decide)
    | with_reducible exact corePage_bit hm (by decide) (by decide) (by decide) | simp only [or_true, true_and, and_true]
    | with_reducible refine And.intro ?_ ?_ | with_reducible exact .inl (hm.bit (by decide)) | split | dsimp only
    | with_reducible refine State.frame_mk ?_ ?_

theorem State.hostAsk_frame {anc : State} {M : Nat} {s : State} {v : Nat} {i : Nat} {m : Manifest} (hm : Sub 0x7800000004000000000002 M) (hk : anc.Within M s) : anc.Within M (State.hostAsk s v i m) := by
  unfold State.hostAsk
  repeat' first
    | with_reducible assumption | with_reducible refine State.wf_frame ?_ ?_ | with_reducible refine State.inc_frame ?_ ?_
    | with_reducible refine State.logEv_frame ?_ ?_ | with_reducible refine State.setInt_frame ?_ ?_ ?_
    | with_reducible refine State.countShards_frame ?_ ?_ | with_reducible exact hm.mono (by decide)
    | with_reducible exact hm.bit (by decide)
    | ((with_reducible refine page_bit (B := ?_) (n := ?_) (k := ?_) hm ?_ ?_ ?_); (on_goal 4 => rfl); all_goals decide)
    | with_reducible exact corePage_bit hm (by decide) (by decide) (by decide) | dsimp only

theorem State.failedRetry_frame {anc : State} {M : Nat} {s : State} {v : Nat} {i : Nat} {m : Manifest} (hm : Sub 0x800000000007800000004000000000002 M) (hk : anc.Within M s) : anc.Within M (State.failedRetry s v i m) := by
  unfold State.failedRetry
  repeat' first
    | with_reducible assumption | with_reducible refine State.setInt_frame ?_ ?_ ?_ | with_reducible refine State.inc_frame ?_ ?_
    | with_reducible refine State.setShard_frame ?_ ?_ | with_reducible refine State.hostAsk_frame ?_ ?_
    | with_reducible refine ite_frame ?_ ?_ | with_reducible exact hm.mono (by decide) | with_reducible exact hm.bit (by decide)
    | ((with_reducible refine page_bit (B := ?_) (n := ?_) (k := ?_) hm ?_ ?_ ?_); (on_goal 4 => rfl); all_goals decide)
    | with_reducible exact corePage_bit hm (by decide) (by decide) (by decide) | split | dsimp only

theorem State.askResend_frame {anc : State} {M : Nat} {s : State} {v : Nat} {i : Nat} {m : Manifest} {sh : Shard} (hm : Sub 0xe800000000007800000003000000000002 M) (hk : anc.Within M s) : anc.Within M (State.askResend s v i m sh) := by
  unfold State.askResend
  repeat' first
    | with_reducible assumption | with_reducible refine State.bulkAck_frame ?_ ?_ | with_reducible refine State.setShard_frame ?_ ?_
    | with_reducible refine ite_frame ?_ ?_ | with_reducible exact hm.mono (by decide) | split | dsimp only

theorem State.shardLost_frame {anc : State} {M : Nat} {s : State} {v : Nat} {i : Nat} (hm : Sub 0x800000000007800000004000000000002 M) (hk : anc.Within M s) : anc.Within M (State.shardLost s v i) := by
  unfold State.shardLost
  repeat' first
    | with_reducible assumption | with_reducible refine State.wf_frame ?_ ?_ | with_reducible refine State.hostAsk_frame ?_ ?_
    | with_reducible refine State.setShard_frame ?_ ?_ | with_reducible exact hm.mono (by decide)
    | with_reducible exact hm.bit (by decide) | split | dsimp only

theorem State.huskFetch_frame {anc : State} {M : Nat} {s : State} {c : Cmd} (hm : Sub 0x8800000000320000000000030000000000 M) (hk : anc.Within M s) : anc.Within M (State.huskFetch s c) := by
  unfold State.huskFetch
  repeat' first
    | with_reducible assumption | with_reducible refine State.reply_frame ?_ ?_ | with_reducible refine State.issueRead_frame ?_ ?_
    | with_reducible refine ite_frame ?_ ?_ | with_reducible exact hm.mono (by decide) | with_reducible exact hm.bit (by decide)
    | simp only [or_true, true_and, and_true] | with_reducible refine And.intro ?_ ?_
    | with_reducible exact .inl (hm.bit (by decide)) | split | dsimp only | with_reducible refine State.frame_mk ?_ ?_

theorem State.fetchDone_frame {anc : State} {M : Nat} {s : State} {v : Nat} {i : Nat} {outcome : Nat} {a : Nat} {husk : List Nat} (hm : Sub 0xe800001c00327800000107030100000002 M) (hk : anc.Within M s) : anc.Within M (State.fetchDone s v i outcome a husk) := by
  unfold State.fetchDone
  repeat' first
    | with_reducible assumption | with_reducible refine State.readDone_frame ?_ ?_ | with_reducible refine State.finish_frame ?_ ?_
    | with_reducible refine State.blockErr_frame ?_ ?_ ?_ | with_reducible refine State.inc_frame ?_ ?_
    | with_reducible refine State.shardAccept_frame ?_ ?_ | with_reducible refine ite_frame ?_ ?_
    | with_reducible exact hm.mono (by decide) | with_reducible exact hm.bit (by decide)
    | ((with_reducible refine page_bit (B := ?_) (n := ?_) (k := ?_) hm ?_ ?_ ?_); (on_goal 4 => rfl); all_goals decide)
    | with_reducible exact corePage_bit hm (by decide) (by decide) (by decide) | simp only [or_true, true_and, and_true]
    | with_reducible refine And.intro ?_ ?_ | with_reducible exact .inl (hm.bit (by decide)) | split | dsimp only
    | with_reducible refine State.frame_mk ?_ ?_

theorem State.copyDone_frame {anc : State} {M : Nat} {s : State} {v : Nat} {i : Nat} {ok : Bool} {a : Nat} {husk : List Nat} (hm : Sub 0xe800001c00007800000107000100000002 M) (hk : anc.Within M s) : anc.Within M (State.copyDone s v i ok a husk) := by
  unfold State.copyDone
  repeat' first
    | with_reducible assumption | with_reducible refine State.shardAccept_frame ?_ ?_
    | with_reducible refine State.bulkAck_frame ?_ ?_ | with_reducible refine State.blockErr_frame ?_ ?_ ?_
    | with_reducible refine State.inc_frame ?_ ?_ | with_reducible refine State.failedRetry_frame ?_ ?_
    | with_reducible refine State.askResend_frame ?_ ?_ | with_reducible refine ite_frame ?_ ?_
    | with_reducible exact hm.mono (by decide) | with_reducible exact hm.bit (by decide)
    | ((with_reducible refine page_bit (B := ?_) (n := ?_) (k := ?_) hm ?_ ?_ ?_); (on_goal 4 => rfl); all_goals decide)
    | with_reducible exact corePage_bit hm (by decide) (by decide) (by decide) | split | dsimp only

theorem State.huskVerified_frame {anc : State} {M : Nat} {s : State} {v : Nat} {i : Nat} {fromHost : Bool} {ok : Bool} {a : Nat} {husk : List Nat} (hm : Sub 0xe800001c00327800000107030100000002 M) (hk : anc.Within M s) : anc.Within M (State.huskVerified s v i fromHost ok a husk) := by
  unfold State.huskVerified
  repeat' first
    | with_reducible assumption | with_reducible refine State.fetchDone_frame ?_ ?_
    | with_reducible refine State.copyDone_frame ?_ ?_ | with_reducible refine ite_frame ?_ ?_
    | with_reducible exact hm.mono (by decide) | split | dsimp only

theorem State.shardFrame_frame {anc : State} {M : Nat} {s : State} {f : Frame} (hm : Sub 0xe800000000007800000003000000000002 M) (hk : anc.Within M s) : anc.Within M (State.shardFrame s f) := by
  unfold State.shardFrame
  repeat' first
    | with_reducible assumption | with_reducible refine State.bulkAck_frame ?_ ?_ | with_reducible refine State.setShard_frame ?_ ?_
    | with_reducible refine ite_frame ?_ ?_ | with_reducible exact hm.mono (by decide) | with_reducible exact hm.bit (by decide)
    | simp only [or_true, true_and, and_true] | with_reducible refine And.intro ?_ ?_
    | with_reducible exact .inl (hm.bit (by decide)) | split | dsimp only | with_reducible refine State.frame_mk ?_ ?_

theorem State.fwAsk_frame {anc : State} {M : Nat} {s : State} {failed : Bool} (hm : Sub 0xe200000000007800000003000000000002 M) (hk : anc.Within M s) : anc.Within M (State.fwAsk s failed) := by
  unfold State.fwAsk
  repeat' first
    | with_reducible assumption | with_reducible refine State.bulkAck_frame ?_ ?_ | with_reducible refine ite_frame ?_ ?_
    | with_reducible exact hm.mono (by decide) | with_reducible exact hm.bit (by decide) | simp only [or_true, true_and, and_true]
    | with_reducible refine And.intro ?_ ?_ | with_reducible exact .inl (hm.bit (by decide)) | split | dsimp only
    | with_reducible refine State.frame_mk ?_ ?_

theorem State.fwQuiet_frame {anc : State} {M : Nat} {s : State} (hm : Sub 0xe200000000007800000003000000000002 M) (hk : anc.Within M s) : anc.Within M (State.fwQuiet s) := by
  unfold State.fwQuiet
  repeat' first
    | with_reducible assumption | with_reducible refine State.fwAsk_frame ?_ ?_ | with_reducible refine ite_frame ?_ ?_
    | with_reducible exact hm.mono (by decide) | split | dsimp only

theorem State.bulkAckReceive_frame {anc : State} {M : Nat} {s : State} {f : Frame} {hollow : Bool} (hm : Sub 0xea00000000007800000007000000000002 M) (hk : anc.Within M s) : anc.Within M (State.bulkAckReceive s f hollow) := by
  unfold State.bulkAckReceive
  repeat' first
    | with_reducible assumption | with_reducible refine State.wf_frame ?_ ?_ | with_reducible refine State.fwAsk_frame ?_ ?_
    | with_reducible refine State.bulkAck_frame ?_ ?_ | with_reducible refine State.setShard_frame ?_ ?_
    | with_reducible refine State.forwardShards_frame ?_ ?_ | with_reducible refine State.inc_frame ?_ ?_
    | with_reducible refine State.countShards_frame ?_ ?_ | with_reducible refine State.sendShard_frame ?_ ?_
    | with_reducible refine State.shardLost_frame ?_ ?_ | with_reducible refine State.failedRetry_frame ?_ ?_
    | with_reducible refine ite_frame ?_ ?_ | with_reducible exact hm.mono (by decide) | with_reducible exact hm.bit (by decide)
    | ((with_reducible refine page_bit (B := ?_) (n := ?_) (k := ?_) hm ?_ ?_ ?_); (on_goal 4 => rfl); all_goals decide)
    | with_reducible exact corePage_bit hm (by decide) (by decide) (by decide) | simp only [or_true, true_and, and_true]
    | with_reducible refine And.intro ?_ ?_ | with_reducible exact .inl (hm.bit (by decide)) | split | dsimp only
    | with_reducible refine State.frame_mk ?_ ?_

theorem State.shardExpiry_frame {anc : State} {M : Nat} {s : State} {v : Nat} (hm : Sub 0xea00000000007800000007000000000002 M) (hk : anc.Within M s) : anc.Within M (State.shardExpiry s v) := by
  unfold State.shardExpiry
  repeat' first
    | with_reducible assumption | with_reducible refine State.fwQuiet_frame ?_ ?_
    | with_reducible refine State.forwardShards_frame ?_ ?_ | with_reducible refine State.askResend_frame ?_ ?_
    | with_reducible refine State.failedRetry_frame ?_ ?_ | with_reducible refine State.each_frame ?_ ?_ | intro _
    | with_reducible refine ite_frame ?_ ?_ | with_reducible exact hm.mono (by decide) | split | dsimp only

theorem State.notRegistered_frame {anc : State} {M : Nat} {s : State} {v : Nat} {i : Nat} (hm : Sub 0xea00000000007800000007000000000002 M) (hk : anc.Within M s) : anc.Within M (State.notRegistered s v i) := by
  unfold State.notRegistered
  repeat' first
    | with_reducible assumption | with_reducible refine State.sendBulk_frame ?_ ?_
    | with_reducible refine State.sendShard_frame ?_ ?_ | with_reducible refine State.setShard_frame ?_ ?_
    | with_reducible refine ite_frame ?_ ?_ | with_reducible exact hm.mono (by decide) | with_reducible exact hm.bit (by decide)
    | simp only [or_true, true_and, and_true] | with_reducible refine And.intro ?_ ?_
    | with_reducible exact .inl (hm.bit (by decide)) | split | dsimp only | with_reducible refine State.frame_mk ?_ ?_

theorem State.spdmReply_frame {anc : State} {M : Nat} {s : State} {c : Cmd} {bs : List Nat} (hm : Sub 0x8000000000320000000000030000000000 M) (hk : anc.Within M s) : anc.Within M (State.spdmReply s c bs) := by
  unfold State.spdmReply
  repeat' first
    | with_reducible assumption | with_reducible refine State.reply_frame ?_ ?_ | with_reducible exact hm.mono (by decide)
    | dsimp only

theorem State.spdmError_frame {anc : State} {M : Nat} {s : State} {c : Cmd} {code : Nat} {data : Nat} (hm : Sub 0x8000000000321800000000030000000010 M) (hk : anc.Within M s) : anc.Within M (State.spdmError s c code data) := by
  unfold State.spdmError
  repeat' first
    | with_reducible assumption | with_reducible refine State.spdmReply_frame ?_ ?_
    | with_reducible refine State.setInt_frame ?_ ?_ ?_ | with_reducible exact hm.mono (by decide)
    | with_reducible exact hm.bit (by decide)
    | ((with_reducible refine page_bit (B := ?_) (n := ?_) (k := ?_) hm ?_ ?_ ?_); (on_goal 4 => rfl); all_goals decide)
    | with_reducible exact corePage_bit hm (by decide) (by decide) (by decide) | dsimp only

theorem State.attest_frame {anc : State} {M : Nat} {s : State} {i : Instr} {c : Cmd} {rsp : List Nat} (hm : Sub 0x8800000000be7800000400030000000016 M) (hk : anc.Within M s) : anc.Within M (State.attest s i c rsp) := by
  unfold State.attest
  repeat' first
    | with_reducible assumption | with_reducible refine State.vorane_frame ?_ ?_ ?_ | with_reducible refine State.reply_frame ?_ ?_
    | with_reducible refine State.spdmError_frame ?_ ?_ | with_reducible refine State.spdmReply_frame ?_ ?_
    | with_reducible refine State.inc_frame ?_ ?_ | intro _ | with_reducible refine ite_frame ?_ ?_
    | with_reducible exact hm.mono (by decide) | with_reducible exact hm.bit (by decide)
    | ((with_reducible refine page_bit (B := ?_) (n := ?_) (k := ?_) hm ?_ ?_ ?_); (on_goal 4 => rfl); all_goals decide)
    | with_reducible exact corePage_bit hm (by decide) (by decide) (by decide) | simp only [or_true, true_and, and_true]
    | with_reducible refine And.intro ?_ ?_ | with_reducible exact .inl (hm.bit (by decide)) | split | dsimp only
    | with_reducible refine State.frame_mk ?_ ?_

theorem execModelKeyImport_frame {anc : State} {M : Nat} {c : Cmd} {lowFirst : Bool} {s : State} (hm : Sub 0x8800000000be7800000400030000000016 M) (hk : anc.Within M s) : ∃ out, execModelKeyImport c lowFirst s = .next out ∧ anc.Within M out := by
  unfold execModelKeyImport
  refine ⟨_, rfl, ?_⟩
  repeat' first
    | with_reducible assumption | with_reducible refine State.vorane_frame ?_ ?_ ?_
    | with_reducible refine State.keyImport_frame ?_ ?_ | intro _ | with_reducible exact hm.mono (by decide) | dsimp only

theorem execModelKeyDelete_frame {anc : State} {M : Nat} {c : Cmd} {s : State} (hm : Sub 0x8800000000be7800000400030000000016 M) (hk : anc.Within M s) : ∃ out, execModelKeyDelete c s = .next out ∧ anc.Within M out := by
  unfold execModelKeyDelete
  refine ⟨_, rfl, ?_⟩
  repeat' first
    | with_reducible assumption | with_reducible refine State.vorane_frame ?_ ?_ ?_
    | with_reducible refine State.keyImport_frame ?_ ?_ | intro _ | with_reducible exact hm.mono (by decide) | dsimp only

theorem execVariantRegister_frame {anc : State} {M : Nat} {c : Cmd} {s : State} (hm : Sub 0x8800000000be7800000400030000000006 M) (hk : anc.Within M s) : ∃ out, execVariantRegister c s = .next out ∧ anc.Within M out := by
  unfold execVariantRegister
  refine ⟨_, rfl, ?_⟩
  repeat' first
    | with_reducible assumption | with_reducible refine State.vorane_frame ?_ ?_ ?_
    | with_reducible refine State.register_frame ?_ ?_ | intro _ | with_reducible exact hm.mono (by decide) | dsimp only

theorem execManifestReadDone_frame {anc : State} {M : Nat} {v : Nat} {ok : Bool} {bytes : List Nat} {addr : Nat} {room : Bool} {s : State} (hm : Sub 0x8800001c00327800000104030100000012 M) (hk : anc.Within M s) : ∃ out, execManifestReadDone v ok bytes addr room s = .next out ∧ anc.Within M out := by
  unfold execManifestReadDone
  refine ⟨_, rfl, ?_⟩
  repeat' first
    | with_reducible assumption | with_reducible refine State.manifestDone_frame ?_ ?_ | with_reducible exact hm.mono (by decide)
    | dsimp only

theorem execHuskFetch_frame {anc : State} {M : Nat} {c : Cmd} {s : State} (hm : Sub 0x8800000000be7800000400030000000006 M) (hk : anc.Within M s) : ∃ out, execHuskFetch c s = .next out ∧ anc.Within M out := by
  unfold execHuskFetch
  refine ⟨_, rfl, ?_⟩
  repeat' first
    | with_reducible assumption | with_reducible refine State.vorane_frame ?_ ?_ ?_
    | with_reducible refine State.huskFetch_frame ?_ ?_ | intro _ | with_reducible exact hm.mono (by decide) | dsimp only

theorem execHuskVerified_frame {anc : State} {M : Nat} {v : Nat} {i : Nat} {fromHost : Bool} {copy : HuskCopy} {s : State} (hm : Sub 0xe800001c00327800000107030100000002 M) (hk : anc.Within M s) : ∃ out, execHuskVerified v i fromHost copy s = .next out ∧ anc.Within M out := by
  unfold execHuskVerified
  refine ⟨_, rfl, ?_⟩
  repeat' first
    | with_reducible assumption | with_reducible refine State.huskVerified_frame ?_ ?_ | with_reducible exact hm.mono (by decide)
    | dsimp only

theorem execVariantUnregister_frame {anc : State} {M : Nat} {c : Cmd} {s : State} (hm : Sub 0x8800000000be7800000504030000000016 M) (hk : anc.Within M s) : ∃ out, execVariantUnregister c s = .next out ∧ anc.Within M out := by
  unfold execVariantUnregister
  refine ⟨_, rfl, ?_⟩
  repeat' first
    | with_reducible assumption | with_reducible refine State.vorane_frame ?_ ?_ ?_
    | with_reducible refine State.unregister_frame ?_ ?_ | intro _ | with_reducible exact hm.mono (by decide) | dsimp only

theorem execShardFrame_frame {anc : State} {M : Nat} {f : Frame} {s : State} (hm : Sub 0xe800000000007800000003000000000002 M) (hk : anc.Within M s) : ∃ out, execShardFrame f s = .next out ∧ anc.Within M out := by
  unfold execShardFrame
  refine ⟨_, rfl, ?_⟩
  repeat' first
    | with_reducible assumption | with_reducible refine State.shardFrame_frame ?_ ?_ | with_reducible exact hm.mono (by decide)
    | dsimp only

theorem execBulkAck_frame {anc : State} {M : Nat} {f : Frame} {hollow : Bool} {s : State} (hm : Sub 0xea00000000007800000007000000000002 M) (hk : anc.Within M s) : ∃ out, execBulkAck f hollow s = .next out ∧ anc.Within M out := by
  unfold execBulkAck
  refine ⟨_, rfl, ?_⟩
  repeat' first
    | with_reducible assumption | with_reducible refine State.bulkAckReceive_frame ?_ ?_ | with_reducible exact hm.mono (by decide)
    | dsimp only

theorem execShardTimeout_frame {anc : State} {M : Nat} {v : Nat} {s : State} (hm : Sub 0xea00000000007800000007000000000002 M) (hk : anc.Within M s) : ∃ out, execShardTimeout v s = .next out ∧ anc.Within M out := by
  unfold execShardTimeout
  refine ⟨_, rfl, ?_⟩
  repeat' first
    | with_reducible assumption | with_reducible refine State.shardExpiry_frame ?_ ?_ | with_reducible exact hm.mono (by decide)
    | dsimp only

theorem execNotRegisteredResend_frame {anc : State} {M : Nat} {v : Nat} {i : Nat} {s : State} (hm : Sub 0xea00000000007800000007000000000002 M) (hk : anc.Within M s) : ∃ out, execNotRegisteredResend v i s = .next out ∧ anc.Within M out := by
  unfold execNotRegisteredResend
  refine ⟨_, rfl, ?_⟩
  repeat' first
    | with_reducible assumption | with_reducible refine State.notRegistered_frame ?_ ?_ | with_reducible exact hm.mono (by decide)
    | dsimp only

theorem execSpdmGetVersion_frame {anc : State} {M : Nat} {c : Cmd} {s : State} (hm : Sub 0x8800000000be7800000400030000000016 M) (hk : anc.Within M s) : ∃ out, execSpdmGetVersion c s = .next out ∧ anc.Within M out := by
  unfold execSpdmGetVersion
  refine ⟨_, rfl, ?_⟩
  repeat' first
    | with_reducible assumption | with_reducible refine State.attest_frame ?_ ?_ | with_reducible exact hm.mono (by decide)
    | dsimp only

theorem execSpdmGetCapabilities_frame {anc : State} {M : Nat} {c : Cmd} {rsp : List Nat} {s : State} (hm : Sub 0x8800000000be7800000400030000000016 M) (hk : anc.Within M s) : ∃ out, execSpdmGetCapabilities c rsp s = .next out ∧ anc.Within M out := by
  unfold execSpdmGetCapabilities
  refine ⟨_, rfl, ?_⟩
  repeat' first
    | with_reducible assumption | with_reducible refine State.attest_frame ?_ ?_ | with_reducible exact hm.mono (by decide)
    | dsimp only

theorem execSpdmNegotiateAlgorithms_frame {anc : State} {M : Nat} {c : Cmd} {rsp : List Nat} {s : State} (hm : Sub 0x8800000000be7800000400030000000016 M) (hk : anc.Within M s) : ∃ out, execSpdmNegotiateAlgorithms c rsp s = .next out ∧ anc.Within M out := by
  unfold execSpdmNegotiateAlgorithms
  refine ⟨_, rfl, ?_⟩
  repeat' first
    | with_reducible assumption | with_reducible refine State.attest_frame ?_ ?_ | with_reducible exact hm.mono (by decide)
    | dsimp only

theorem execSpdmGetDigests_frame {anc : State} {M : Nat} {c : Cmd} {rsp : List Nat} {s : State} (hm : Sub 0x8800000000be7800000400030000000016 M) (hk : anc.Within M s) : ∃ out, execSpdmGetDigests c rsp s = .next out ∧ anc.Within M out := by
  unfold execSpdmGetDigests
  refine ⟨_, rfl, ?_⟩
  repeat' first
    | with_reducible assumption | with_reducible refine State.attest_frame ?_ ?_ | with_reducible exact hm.mono (by decide)
    | dsimp only

theorem execSpdmGetCertificate_frame {anc : State} {M : Nat} {c : Cmd} {rsp : List Nat} {s : State} (hm : Sub 0x8800000000be7800000400030000000016 M) (hk : anc.Within M s) : ∃ out, execSpdmGetCertificate c rsp s = .next out ∧ anc.Within M out := by
  unfold execSpdmGetCertificate
  refine ⟨_, rfl, ?_⟩
  repeat' first
    | with_reducible assumption | with_reducible refine State.attest_frame ?_ ?_ | with_reducible exact hm.mono (by decide)
    | dsimp only

theorem execSpdmChallenge_frame {anc : State} {M : Nat} {c : Cmd} {rsp : List Nat} {s : State} (hm : Sub 0x8800000000be7800000400030000000016 M) (hk : anc.Within M s) : ∃ out, execSpdmChallenge c rsp s = .next out ∧ anc.Within M out := by
  unfold execSpdmChallenge
  refine ⟨_, rfl, ?_⟩
  repeat' first
    | with_reducible assumption | with_reducible refine State.attest_frame ?_ ?_ | with_reducible exact hm.mono (by decide)
    | dsimp only

theorem execSpdmGetMeasurements_frame {anc : State} {M : Nat} {c : Cmd} {rsp : List Nat} {s : State} (hm : Sub 0x8800000000be7800000400030000000016 M) (hk : anc.Within M s) : ∃ out, execSpdmGetMeasurements c rsp s = .next out ∧ anc.Within M out := by
  unfold execSpdmGetMeasurements
  refine ⟨_, rfl, ?_⟩
  repeat' first
    | with_reducible assumption | with_reducible refine State.attest_frame ?_ ?_ | with_reducible exact hm.mono (by decide)
    | dsimp only

theorem execSpdmUnsupported_frame {anc : State} {M : Nat} {c : Cmd} {s : State} (hm : Sub 0x8800000000be7800000400030000000016 M) (hk : anc.Within M s) : ∃ out, execSpdmUnsupported c s = .next out ∧ anc.Within M out := by
  unfold execSpdmUnsupported
  refine ⟨_, rfl, ?_⟩
  repeat' first
    | with_reducible assumption | with_reducible refine State.attest_frame ?_ ?_ | with_reducible exact hm.mono (by decide)
    | dsimp only

end Sys2Proof.Machine
end

