-- ==== Sys2Proof/Laws/Frame/Suspect.lean ====
section
/-! SUPPORT. Every operation and meaning of Machine/Suspect.lean changes only the register areas and parts of the state its mask names. -/

namespace Sys2Proof.Machine

set_option linter.unreachableTactic false
set_option linter.unusedTactic false

theorem State.bumpGen_frame {anc : State} {M : Nat} {s : State} {d : Dom} (hm : Sub 0x20000000000400000000000000000000 M) (hk : anc.Within M s) : anc.Within M (State.bumpGen s d) := by
  unfold State.bumpGen
  repeat' first
    | with_reducible assumption | with_reducible exact hm.mono (by decide) | with_reducible exact hm.bit (by decide)
    | simp only [or_true, true_and, and_true] | with_reducible refine And.intro ?_ ?_
    | with_reducible exact .inl (hm.bit (by decide)) | dsimp only | with_reducible refine State.frame_mk ?_ ?_

theorem State.applyClocks_frame {anc : State} {M : Nat} {s : State} {pcs : List Nat} (hm : Sub 0x40000000000000000000000000000000 M) (hk : anc.Within M s) : anc.Within M (State.applyClocks s pcs) := by
  unfold State.applyClocks
  repeat' first
    | with_reducible assumption | with_reducible refine State.orderCoreClock_frame ?_ ?_
    | with_reducible refine State.each_frame ?_ ?_ | intro _ | with_reducible refine ite_frame ?_ ?_
    | with_reducible exact hm.mono (by decide) | split | dsimp only

theorem State.railSlew_frame {anc : State} {M : Nat} {s : State} {p : Nat} (hm : Sub 0x1000000000000000000000000000000200 M) (hk : anc.Within M s) : anc.Within M (State.railSlew s p) := by
  unfold State.railSlew
  repeat' first
    | with_reducible assumption | with_reducible refine State.wf_frame ?_ ?_ | with_reducible refine ite_frame ?_ ?_
    | with_reducible exact hm.mono (by decide) | with_reducible exact hm.bit (by decide) | simp only [or_true, true_and, and_true]
    | with_reducible refine And.intro ?_ ?_ | with_reducible exact .inl (hm.bit (by decide)) | split | dsimp only
    | with_reducible refine State.frame_mk ?_ ?_

theorem State.railSlewEnd_frame {anc : State} {M : Nat} {s : State} {p : Nat} (hm : Sub 0x1000000000000000000000000000000200 M) (hk : anc.Within M s) : anc.Within M (State.railSlewEnd s p) := by
  unfold State.railSlewEnd
  repeat' first
    | with_reducible assumption | with_reducible refine State.railSlew_frame ?_ ?_ | with_reducible refine State.wf_frame ?_ ?_
    | with_reducible refine ite_frame ?_ ?_ | with_reducible exact hm.mono (by decide) | with_reducible exact hm.bit (by decide)
    | simp only [or_true, true_and, and_true] | with_reducible refine And.intro ?_ ?_
    | with_reducible exact .inl (hm.bit (by decide)) | split | dsimp only | with_reducible refine State.frame_mk ?_ ?_

theorem State.fieldRec_frame {anc : State} {M : Nat} {s : State} {n : Nat} (hm : Sub 0x8 M) (hk : anc.Within M s) : anc.Within M (State.fieldRec s n) := by
  unfold State.fieldRec
  repeat' first
    | with_reducible assumption | with_reducible refine State.wf_frame ?_ ?_ | with_reducible refine State.incSat_frame ?_ ?_
    | with_reducible exact hm.mono (by decide) | with_reducible exact hm.bit (by decide)
    | ((with_reducible refine page_bit (B := ?_) (n := ?_) (k := ?_) hm ?_ ?_ ?_); (on_goal 4 => rfl); all_goals decide)
    | with_reducible exact corePage_bit hm (by decide) (by decide) (by decide) | dsimp only

theorem State.setRung_frame {anc : State} {M : Nat} {s : State} {pc : Nat} {level : Nat} {steps : Nat} (hm : Sub 0x1040000000001800000000000000400208 M) (hk : anc.Within M s) : anc.Within M (State.setRung s pc level steps) := by
  unfold State.setRung
  repeat' first
    | with_reducible assumption | with_reducible refine State.setInt_frame ?_ ?_ ?_ | with_reducible refine State.wf_frame ?_ ?_
    | with_reducible refine State.fieldRec_frame ?_ ?_ | with_reducible refine State.applyClocks_frame ?_ ?_
    | with_reducible refine State.railSlew_frame ?_ ?_ | with_reducible refine ite_frame ?_ ?_
    | with_reducible exact hm.mono (by decide) | with_reducible exact hm.bit (by decide)
    | ((with_reducible refine page_bit (B := ?_) (n := ?_) (k := ?_) hm ?_ ?_ ?_); (on_goal 4 => rfl); all_goals decide)
    | with_reducible exact corePage_bit hm (by decide) (by decide) (by decide) | simp only [or_true, true_and, and_true]
    | with_reducible refine And.intro ?_ ?_ | with_reducible exact .inl (hm.bit (by decide)) | split | dsimp only
    | with_reducible refine State.frame_mk ?_ ?_

theorem State.advance_frame {anc : State} {M : Nat} {s : State} {pc : Nat} (hm : Sub 0x1040000000001800000000000000400208 M) (hk : anc.Within M s) : anc.Within M (State.advance s pc) := by
  unfold State.advance
  repeat' first
    | with_reducible assumption | with_reducible refine State.setRung_frame ?_ ?_ | with_reducible refine ite_frame ?_ ?_
    | with_reducible exact hm.mono (by decide) | with_reducible exact hm.bit (by decide) | simp only [or_true, true_and, and_true]
    | with_reducible refine And.intro ?_ ?_ | with_reducible exact .inl (hm.bit (by decide)) | split | dsimp only
    | with_reducible refine State.frame_mk ?_ ?_

theorem State.evidence_frame {anc : State} {M : Nat} {s : State} {pc : Nat} {code : Nat} {eng : Nat} (hm : Sub 0x104000000000780000000000000040020a M) (hk : anc.Within M s) : anc.Within M (State.evidence s pc code eng) := by
  unfold State.evidence
  repeat' first
    | with_reducible assumption | with_reducible refine State.wf_frame ?_ ?_ | with_reducible refine State.incSat_frame ?_ ?_
    | with_reducible refine State.logEv_frame ?_ ?_ | with_reducible refine State.setInts_frame ?_ ?_ ?_
    | with_reducible refine State.setRung_frame ?_ ?_ | with_reducible refine State.advance_frame ?_ ?_
    | with_reducible refine ite_frame ?_ ?_ | with_reducible exact hm.mono (by decide) | with_reducible exact hm.bit (by decide)
    | ((with_reducible refine page_bit (B := ?_) (n := ?_) (k := ?_) hm ?_ ?_ ?_); (on_goal 4 => rfl); all_goals decide)
    | with_reducible exact corePage_bit hm (by decide) (by decide) (by decide) | simp only [or_true, true_and, and_true]
    | with_reducible refine And.intro ?_ ?_ | with_reducible exact .inl (hm.bit (by decide)) | split | dsimp only
    | with_reducible refine State.frame_mk ?_ ?_

theorem State.sramScrub_frame {anc : State} {M : Nat} {s : State} {pc : Nat} {off : Nat} {errs : List (Nat × Nat)} {miss : Option Nat} (hm : Sub 0x9000006000007800000000000000400002 M) (hk : anc.Within M s) : anc.Within M (State.sramScrub s pc off errs miss) := by
  unfold State.sramScrub
  repeat' first
    | with_reducible assumption | with_reducible refine State.inc_frame ?_ ?_ | with_reducible refine State.setInt_frame ?_ ?_ ?_
    | with_reducible refine State.wf_frame ?_ ?_ | with_reducible refine State.unitEv_frame ?_ ?_
    | with_reducible refine State.suspect_frame ?_ ?_ | with_reducible refine foldl_frame ?_ ?_ | intro _
    | with_reducible refine ite_frame ?_ ?_ | with_reducible exact hm.mono (by decide) | with_reducible exact hm.bit (by decide)
    | ((with_reducible refine page_bit (B := ?_) (n := ?_) (k := ?_) hm ?_ ?_ ?_); (on_goal 4 => rfl); all_goals decide)
    | with_reducible exact corePage_bit hm (by decide) (by decide) (by decide) | simp only [or_true, true_and, and_true]
    | with_reducible refine And.intro ?_ ?_ | with_reducible exact .inl (hm.bit (by decide)) | split | dsimp only
    | with_reducible refine State.frame_mk ?_ ?_

theorem State.sramStore_frame {anc : State} {M : Nat} {s : State} {ck : Nat} {off : Nat} {data : List Nat} (hm : Sub 0x6000000000000000000000000000 M) (hk : anc.Within M s) : anc.Within M (State.sramStore s ck off data) := by
  unfold State.sramStore
  repeat' first
    | with_reducible assumption | with_reducible refine State.sramWrite_frame ?_ ?_
    | with_reducible refine State.sramMark_frame ?_ ?_ | with_reducible refine foldl_frame ?_ ?_ | intro _
    | with_reducible refine ite_frame ?_ ?_ | with_reducible exact hm.mono (by decide) | split | dsimp only

theorem State.reloadWord_frame {anc : State} {M : Nat} {s : State} {k : Kept} {j : Nat} (hm : Sub 0x6000007800000000000100000002 M) (hk : anc.Within M s) : anc.Within M (State.reloadWord s k j) := by
  unfold State.reloadWord
  repeat' first
    | with_reducible assumption | with_reducible refine State.hbmBytes_frame ?_ ?_
    | refine State.hbmBytes_frame_eq ?_ (by with_reducible assumption) ?_ | with_reducible refine State.sramMark_frame ?_ ?_
    | with_reducible refine State.sramStore_frame ?_ ?_ | with_reducible refine ite_frame ?_ ?_
    | with_reducible exact hm.mono (by decide) | split | dsimp only

theorem State.reloadItem_frame {anc : State} {M : Nat} {s : State} {k : Kept} {hollowOnly : Bool} (hm : Sub 0x6000007800000000000100000002 M) (hk : anc.Within M s) : anc.Within M (State.reloadItem s k hollowOnly) := by
  unfold State.reloadItem
  repeat' first
    | with_reducible assumption | with_reducible refine State.reloadWord_frame ?_ ?_ | with_reducible refine State.each_frame ?_ ?_
    | intro _ | with_reducible refine ite_frame ?_ ?_ | with_reducible exact hm.mono (by decide) | split | dsimp only

theorem State.countSpares_frame {anc : State} {M : Nat} {s : State} {c : Nat} (hm : Sub 0x400400 M) (hk : anc.Within M s) : anc.Within M (State.countSpares s c) := by
  unfold State.countSpares
  repeat' first
    | with_reducible assumption | with_reducible refine State.wf_frame ?_ ?_ | with_reducible exact hm.mono (by decide)
    | with_reducible exact hm.bit (by decide) | dsimp only

theorem State.copySram_frame {anc : State} {M : Nat} {s : State} {pc sp : Nat} (hm : Sub 0x6000000000000000000000000000 M) (hk : anc.Within M s) :
    anc.Within M (State.copySram s pc sp) := by
  unfold State.copySram
  dsimp only
  repeat' first
    | with_reducible assumption
    | with_reducible refine State.each_frame ?_ ?_
    | with_reducible refine foldl_frame ?_ ?_
    | with_reducible refine foldl_frame_pair ?_ ?_
    | with_reducible refine foldl_frame_triple ?_ ?_
    | with_reducible refine State.when_frame ?_ ?_
    | intro _
    | with_reducible refine ite_frame ?_ ?_
    | with_reducible exact hm.mono (by decide)
    | with_reducible exact hm.bit (by decide)
    | ((with_reducible refine page_bit (B := ?_) (n := ?_) (k := ?_) hm ?_ ?_ ?_); (on_goal 4 => rfl); all_goals decide)
    | with_reducible exact corePage_bit hm (by decide) (by decide) (by decide)
    | simp only [or_true, true_and, and_true]
    | with_reducible refine And.intro ?_ ?_
    | with_reducible exact .inl (hm.bit (by decide))
    | split
    | dsimp only
    | with_reducible refine State.frame_mk ?_ ?_

theorem State.spareEngine_frame {anc : State} {M : Nat} {s : State} {e : Nat} (hm : Sub 0x8000480401078ffffffffffffffffffff M) (hk : anc.Within M s) :
    anc.Within M (State.spareEngine s e) := by
  have h0 : ∀ r : Tbl Nat, anc.Within M { s with regs := r } := fun r => State.frame_regs (fun f => hm.any (by decide) f) hk
  unfold State.spareEngine
  dsimp only
  repeat' first
    | with_reducible assumption
    | with_reducible exact h0 _
    | with_reducible refine State.tryOwed_frame ?_ ?_
    | with_reducible refine State.setProg_frame ?_ ?_
    | with_reducible refine State.setEng_frame ?_ ?_
    | with_reducible refine State.setBankState_frame ?_ ?_
    | with_reducible refine State.loadEntry_frame ?_ ?_
    | with_reducible refine State.wf_frame ?_ ?_
    | with_reducible refine foldl_frame ?_ ?_
    | intro _
    | with_reducible exact hm.mono (by decide)
    | with_reducible exact hm.any (by decide) _

theorem State.spareRegs_frame {anc : State} {M : Nat} {s : State} {ck : Nat} (hm : Sub 0xffffffffffffffffffff M) (hk : anc.Within M s) :
    anc.Within M (State.spareRegs s ck) := State.frame_regs (fun f => hm.any (by decide) f) hk

theorem corePages_bit {a b ck : Nat} {p : Page} (hm : Sub a b) (h0 : a.testBit 16 = true) (h1 : a.testBit 17 = true)
    (h2 : a.testBit 18 = true) (h3 : a.testBit 19 = true) (h4 : a.testBit 20 = true) (h5 : a.testBit 21 = true)
    (h : p ∈ corePages ck) : b.testBit p.area = true := by
  unfold corePages at h
  split at h
  · simp only [List.cons_append, List.nil_append, List.mem_cons, List.mem_flatMap, List.not_mem_nil, or_false] at h
    rcases h with rfl | rfl | ⟨n, _, rfl | rfl | rfl | rfl | rfl⟩
    · exact page_bit hm rfl (by decide) h0
    · exact page_bit hm rfl (by decide) h0
    · exact page_bit hm rfl (by decide) h2
    · exact page_bit hm rfl (by decide) h2
    · exact page_bit hm rfl (by decide) h1
    · exact page_bit hm rfl (by decide) h1
    · exact page_bit hm rfl (by decide) h3
  · simp only [List.mem_cons, List.not_mem_nil, or_false] at h
    rw [h]
    exact corePage_bit hm h0 h4 h5

theorem State.fenceCut_frame {anc : State} {M : Nat} {s : State} {ck : Nat} (hm : Sub 0xe06fce8000b27c000000030300003f0006 M) (hk : anc.Within M s) :
    anc.Within M (State.fenceCut s ck) := by
  have hg : ∀ {t : State}, anc.Within M t → anc.Within M ((corePages ck).foldl (fun t p => t.setInt p 2) t) := fun ht =>
    foldl_frame_mem (fun t p hp h => State.setInt_frame (hm.mono (by decide)) (corePages_bit hm (by decide) (by decide) (by decide)
      (by decide) (by decide) (by decide) hp) h) ht
  unfold State.fenceCut
  dsimp only
  refine hg ?_
  repeat' first
    | with_reducible assumption
    | with_reducible refine State.mesh_frame ?_ ?_
    | with_reducible refine State.breakScores_frame ?_ ?_
    | with_reducible refine State.cutCoreClock_frame ?_ ?_
    | with_reducible refine State.bumpGen_frame ?_ ?_
    | with_reducible refine State.progInterrupt_frame ?_ ?_
    | with_reducible refine State.each_frame ?_ ?_
    | with_reducible refine foldl_frame ?_ ?_
    | with_reducible refine foldl_frame_pair ?_ ?_
    | with_reducible refine foldl_frame_triple ?_ ?_
    | with_reducible refine State.when_frame ?_ ?_
    | intro _
    | with_reducible refine ite_frame ?_ ?_
    | with_reducible exact hm.mono (by decide)
    | with_reducible exact hm.bit (by decide)
    | ((with_reducible refine page_bit (B := ?_) (n := ?_) (k := ?_) hm ?_ ?_ ?_); (on_goal 4 => rfl); all_goals decide)
    | with_reducible exact corePage_bit hm (by decide) (by decide) (by decide)
    | simp only [or_true, true_and, and_true]
    | with_reducible refine And.intro ?_ ?_
    | with_reducible exact .inl (hm.bit (by decide))
    | split
    | dsimp only
    | with_reducible refine State.frame_mk ?_ ?_

theorem State.markAbsent_frame {anc : State} {M : Nat} {s : State} {ck : Nat} (hm : Sub 0x7800000000000001000403 M) (hk : anc.Within M s) :
    anc.Within M (State.markAbsent s ck) := by
  unfold State.markAbsent
  dsimp only
  refine State.logEv_frame (hm.mono (by decide)) ?_
  repeat' first
    | with_reducible assumption
    | with_reducible refine State.countAbsent_frame ?_ ?_
    | with_reducible refine State.incSat_frame ?_ ?_
    | with_reducible refine State.wf_frame ?_ ?_
    | with_reducible refine State.each_frame ?_ ?_
    | intro _
    | with_reducible exact hm.mono (by decide)
    | with_reducible exact hm.bit (by decide)
    | with_reducible exact mapAbsentF_bit hm (by decide)
    | split

theorem State.fenceBegin_frame {anc : State} {M : Nat} {s : State} {pc : Nat} {det : Nat} (hm : Sub 0xf06fcee000b27cffffffffffffffffffff M) (hk : anc.Within M s) : anc.Within M (State.fenceBegin s pc det) := by
  unfold State.fenceBegin
  repeat' first
    | with_reducible assumption | with_reducible refine State.wf_frame ?_ ?_ | with_reducible refine State.fenceCut_frame ?_ ?_
    | with_reducible refine State.markAbsent_frame ?_ ?_ | with_reducible refine State.mapWriteAll_frame ?_ ?_
    | with_reducible refine State.copySram_frame ?_ ?_ | with_reducible refine State.spareRegs_frame ?_ ?_
    | with_reducible exact hm.mono (by decide) | with_reducible exact hm.bit (by decide) | with_reducible exact hm.any (by decide) _
    | with_reducible exact hm.anyPage (by decide) _ | simp only [or_true, true_and, and_true] | with_reducible refine And.intro ?_ ?_
    | with_reducible exact .inl (hm.bit (by decide)) | split | dsimp only | with_reducible refine State.frame_mk ?_ ?_

theorem State.startSpare_frame {anc : State} {M : Nat} {s : State} {ck : Nat} {sp : Nat} (hm : Sub 0x1000000000000000000000000310000 M) (hk : anc.Within M s) : anc.Within M (State.startSpare s ck sp) := by
  unfold State.startSpare
  repeat' first
    | with_reducible assumption | with_reducible refine State.wf_frame ?_ ?_ | with_reducible refine State.scoreStart_frame ?_ ?_
    | with_reducible refine ite_frame ?_ ?_ | with_reducible exact hm.mono (by decide) | with_reducible exact hm.bit (by decide)
    | with_reducible exact runField_bit hm (by decide) (by decide) (by decide) | split | dsimp only

theorem State.fenceEnd_frame {anc : State} {M : Nat} {s : State} {f : Fencing} (hm : Sub 0x180384fe7d1078ffffffffffffffffffff M) (hk : anc.Within M s) : anc.Within M (State.fenceEnd s f) := by
  unfold State.fenceEnd
  repeat' first
    | with_reducible assumption | with_reducible refine State.logEv_frame ?_ ?_ | with_reducible refine State.fieldRec_frame ?_ ?_
    | with_reducible refine State.railSlew_frame ?_ ?_ | with_reducible refine State.countSpares_frame ?_ ?_
    | with_reducible refine State.reloadItem_frame ?_ ?_ | with_reducible refine State.wf_frame ?_ ?_
    | with_reducible refine State.startSpare_frame ?_ ?_ | with_reducible refine State.spareEngine_frame ?_ ?_
    | with_reducible refine State.loseResiduals_frame ?_ ?_ | with_reducible refine State.interruptStreams_frame ?_ ?_
    | refine State.interruptStreams_frame_eq ?_ (by with_reducible assumption) ?_ | with_reducible refine State.each_frame ?_ ?_
    | intro _ | with_reducible refine ite_frame ?_ ?_ | with_reducible exact hm.mono (by decide)
    | with_reducible exact hm.bit (by decide) | with_reducible exact hm.any (by decide) _
    | with_reducible exact hm.anyPage (by decide) _ | split | dsimp only

theorem State.fenceAll_frame {anc : State} {M : Nat} {s : State} {l : List (Nat × Nat)} (hm : Sub 0xf8efcefe7db27cffffffffffffffffffff M) (hk : anc.Within M s) : anc.Within M (State.fenceAll s l) := by
  unfold State.fenceAll
  repeat' first
    | with_reducible assumption | with_reducible refine State.fenceBegin_frame ?_ ?_
    | with_reducible refine State.mapComplete_frame ?_ ?_ | with_reducible refine State.mapBroadcast_frame ?_ ?_
    | with_reducible refine State.fenceEnd_frame ?_ ?_ | with_reducible refine State.each_frame ?_ ?_
    | with_reducible refine State.when_frame ?_ ?_ | intro _ | with_reducible exact hm.mono (by decide)
    | with_reducible exact hm.bit (by decide) | with_reducible exact hm.any (by decide) _
    | with_reducible exact hm.anyPage (by decide) _ | simp only [or_true, true_and, and_true] | with_reducible refine And.intro ?_ ?_
    | with_reducible exact .inl (hm.bit (by decide)) | dsimp only | with_reducible refine State.frame_mk ?_ ?_

theorem State.fence_frame {anc : State} {M : Nat} {s : State} (hm : Sub 0xf8efcefe7db27cffffffffffffffffffff M) (hk : anc.Within M s) : anc.Within M (State.fence s) := by
  unfold State.fence
  repeat' first
    | with_reducible assumption | with_reducible refine State.fenceAll_frame ?_ ?_ | with_reducible refine ite_frame ?_ ?_
    | with_reducible exact hm.mono (by decide) | with_reducible exact hm.bit (by decide) | with_reducible exact hm.any (by decide) _
    | with_reducible exact hm.anyPage (by decide) _ | simp only [or_true, true_and, and_true] | with_reducible refine And.intro ?_ ?_
    | with_reducible exact .inl (hm.bit (by decide)) | split | dsimp only | with_reducible refine State.frame_mk ?_ ?_

theorem State.absentNotice_frame {anc : State} {M : Nat} {s : State} {stream : Nat} (hm : Sub 0xa000803e7d007800000703000100110002 M) (hk : anc.Within M s) : anc.Within M (State.absentNotice s stream) := by
  unfold State.absentNotice
  repeat' first
    | with_reducible assumption | with_reducible refine State.sendNotice_frame ?_ ?_
    | with_reducible refine State.endLost_frame ?_ ?_ | with_reducible refine State.each_frame ?_ ?_ | intro _
    | with_reducible refine ite_frame ?_ ?_ | with_reducible exact hm.mono (by decide) | split | dsimp only

theorem execSramScrub_frame {anc : State} {M : Nat} {pc : Nat} {off : Nat} {errs : List (Nat × Nat)} {miss : Option Nat} {s : State} (hm : Sub 0x9000006000007800000000000000400002 M) (hk : anc.Within M s) : ∃ out, execSramScrub pc off errs miss s = .next out ∧ anc.Within M out := by
  unfold execSramScrub
  refine ⟨_, rfl, ?_⟩
  repeat' first
    | with_reducible assumption | with_reducible refine State.sramScrub_frame ?_ ?_ | with_reducible exact hm.mono (by decide)
    | dsimp only

theorem execAbsentNotice_frame {anc : State} {M : Nat} {stream : Nat} {s : State} (hm : Sub 0xa000803e7d007800000703000100110002 M) (hk : anc.Within M s) : ∃ out, execAbsentNotice stream s = .next out ∧ anc.Within M out := by
  unfold execAbsentNotice
  refine ⟨_, rfl, ?_⟩
  repeat' first
    | with_reducible assumption | with_reducible refine State.absentNotice_frame ?_ ?_ | with_reducible exact hm.mono (by decide)
    | dsimp only

theorem execEvidence_frame {anc : State} {M : Nat} {pc : Nat} {code : Nat} {eng : Nat} {s : State} (hm : Sub 0x104000000000780000000000000040020a M) (hk : anc.Within M s) : ∃ out, execEvidence pc code eng s = .next out ∧ anc.Within M out := by
  unfold execEvidence
  refine ⟨_, rfl, ?_⟩
  repeat' first
    | with_reducible assumption | with_reducible refine State.evidence_frame ?_ ?_ | with_reducible exact hm.mono (by decide)
    | dsimp only

theorem execRailSlewEnd_frame {anc : State} {M : Nat} {p : Nat} {s : State} (hm : Sub 0x1000000000000000000000000000000200 M) (hk : anc.Within M s) : ∃ out, execRailSlewEnd p s = .next out ∧ anc.Within M out := by
  unfold execRailSlewEnd
  refine ⟨_, rfl, ?_⟩
  repeat' first
    | with_reducible assumption | with_reducible refine State.railSlewEnd_frame ?_ ?_ | with_reducible exact hm.mono (by decide)
    | dsimp only

theorem execFence_frame {anc : State} {M : Nat} {s : State} (hm : Sub 0xf8efcefe7db27cffffffffffffffffffff M) (hk : anc.Within M s) : ∃ out, execFence s = .next out ∧ anc.Within M out := by
  unfold execFence
  refine ⟨_, rfl, ?_⟩
  repeat' first
    | with_reducible assumption | with_reducible refine State.fence_frame ?_ ?_ | with_reducible exact hm.mono (by decide)
    | dsimp only

end Sys2Proof.Machine
end

