-- ==== Sys2Proof/Laws/Frame/Hbm.lean ====
section
/-! SUPPORT. Every operation and meaning of Machine/Hbm.lean changes only the register areas and parts of the state its mask names. -/

namespace Sys2Proof.Machine

set_option linter.unreachableTactic false
set_option linter.unusedTactic false

theorem State.codeRead_frame {anc : State} {M : Nat} {s : State} {st : Nat} {off : Nat} {errs : SymErrs} {flips : Nat} {miss : Option Nat} (hm : Sub 0x1000000c00007800000000000100000002 M) (hk : anc.Within M s) : anc.Within M (State.codeRead s st off errs flips miss).2.2 := by
  unfold State.codeRead
  repeat' first
    | with_reducible assumption | with_reducible refine State.setInt_frame ?_ ?_ ?_ | with_reducible refine State.inc_frame ?_ ?_
    | with_reducible refine State.wf_frame ?_ ?_ | with_reducible refine State.setHbmTag_frame ?_ ?_
    | with_reducible refine State.blockErr_frame ?_ ?_ ?_ | with_reducible refine ite_frame ?_ ?_
    | with_reducible refine ite_frame2 ?_ ?_ | with_reducible refine ite_frame3 ?_ ?_ | with_reducible exact hm.mono (by decide)
    | with_reducible exact hm.bit (by decide)
    | ((with_reducible refine page_bit (B := ?_) (n := ?_) (k := ?_) hm ?_ ?_ ?_); (on_goal 4 => rfl); all_goals decide)
    | with_reducible exact corePage_bit hm (by decide) (by decide) (by decide) | simp only [or_true, true_and, and_true]
    | with_reducible refine And.intro ?_ ?_ | with_reducible exact .inl (hm.bit (by decide)) | split | dsimp only
    | with_reducible refine State.frame_mk ?_ ?_

theorem State.codeRead_frame_eq {anc : State} {M : Nat} {s : State} {st : Nat} {off : Nat} {errs : SymErrs} {flips : Nat} {miss : Option Nat} (hm : Sub 0x1000000c00007800000000000100000002 M) {r0 r1 tz} (heqx : State.codeRead s st off errs flips miss = (r0, r1, tz)) (hk : anc.Within M s) : anc.Within M tz := by
  have := State.codeRead_frame (s := s) (st := st) (off := off) (errs := errs) (flips := flips) (miss := miss) hm hk
  rwa [heqx] at this

theorem State.hbmAnswer_frame {anc : State} {M : Nat} {s : State} {r : Requester} {id : Nat} {result : Nat} {hollow : Bool} {data : Nat} (hm : Sub 0xe000000000007800000003000000000002 M) (hk : anc.Within M s) : anc.Within M (State.hbmAnswer s r id result hollow data) := by
  unfold State.hbmAnswer
  repeat' first
    | with_reducible assumption | with_reducible refine State.mesh_frame ?_ ?_ | with_reducible exact hm.mono (by decide)
    | dsimp only

theorem State.hbmAccess_frame {anc : State} {M : Nat} {s : State} {r : Requester} {a : Nat} {data : Nat} (hm : Sub 0x7800000000000100000002 M) (hk : anc.Within M s) : anc.Within M (State.hbmAccess s r a data).2.2 := by
  unfold State.hbmAccess
  repeat' first
    | with_reducible assumption | with_reducible refine State.sealedDenied_frame ?_ ?_
    | with_reducible refine State.stackFailedAccess_frame ?_ ?_ | with_reducible refine ite_frame ?_ ?_
    | with_reducible refine ite_frame2 ?_ ?_ | with_reducible refine ite_frame3 ?_ ?_ | with_reducible exact hm.mono (by decide)
    | split | dsimp only

theorem State.hbmAccess_frame_eq {anc : State} {M : Nat} {s : State} {r : Requester} {a : Nat} {data : Nat} (hm : Sub 0x7800000000000100000002 M) {r0 r1 tz} (heqx : State.hbmAccess s r a data = (r0, r1, tz)) (hk : anc.Within M s) : anc.Within M tz := by
  have := State.hbmAccess_frame (s := s) (r := r) (a := a) (data := data) hm hk
  rwa [heqx] at this

theorem State.hbmReadCmd_frame {anc : State} {M : Nat} {s : State} {r : Requester} {id : Nat} {a : Nat} {n : Nat} {lr : Bool} {errs : SymErrs} {flips : Nat} {miss : Option Nat} (hm : Sub 0xf000001c00007800000003000100000002 M) (hk : anc.Within M s) : anc.Within M (State.hbmReadCmd s r id a n lr errs flips miss) := by
  unfold State.hbmReadCmd
  repeat' first
    | with_reducible assumption | with_reducible refine State.hbmAccess_frame ?_ ?_
    | refine State.hbmAccess_frame_eq ?_ (by with_reducible assumption) ?_ | with_reducible refine State.hbmAnswer_frame ?_ ?_
    | with_reducible refine State.codeRead_frame ?_ ?_ | refine State.codeRead_frame_eq ?_ (by with_reducible assumption) ?_
    | with_reducible refine State.inc_frame ?_ ?_ | with_reducible refine ite_frame ?_ ?_ | with_reducible exact hm.mono (by decide)
    | with_reducible exact hm.bit (by decide)
    | ((with_reducible refine page_bit (B := ?_) (n := ?_) (k := ?_) hm ?_ ?_ ?_); (on_goal 4 => rfl); all_goals decide)
    | with_reducible exact corePage_bit hm (by decide) (by decide) (by decide) | simp only [or_true, true_and, and_true]
    | with_reducible refine And.intro ?_ ?_ | with_reducible exact .inl (hm.bit (by decide)) | split | dsimp only
    | with_reducible refine State.frame_mk ?_ ?_

theorem State.readOut_frame {anc : State} {M : Nat} {s : State} {v : Nat} {id : Nat} {st : Nat} (hm : Sub 0x800000000000000000000000100000 M) (hk : anc.Within M s) : anc.Within M (State.readOut s v id st) := by
  unfold State.readOut
  repeat' first
    | with_reducible assumption | with_reducible refine State.setVc_frame ?_ ?_ | with_reducible exact hm.mono (by decide)
    | dsimp only

theorem State.hbmReadIssue_frame {anc : State} {M : Nat} {s : State} {r : Requester} {id : Nat} {a : Nat} {n : Nat} {lr : Bool} {errs : SymErrs} {flips : Nat} {miss : Option Nat} (hm : Sub 0xf000801c00007800000003000100100002 M) (hk : anc.Within M s) : anc.Within M (State.hbmReadIssue s r id a n lr errs flips miss) := by
  unfold State.hbmReadIssue
  repeat' first
    | with_reducible assumption | with_reducible refine State.readOut_frame ?_ ?_
    | with_reducible refine State.hbmReadCmd_frame ?_ ?_ | with_reducible refine State.setVc_frame ?_ ?_
    | with_reducible refine ite_frame ?_ ?_ | with_reducible exact hm.mono (by decide) | split | dsimp only

theorem State.streamDone_frame {anc : State} {M : Nat} {s : State} {v : Nat} {id : Nat} (hm : Sub 0xf000801c00007800000003000100100002 M) (hk : anc.Within M s) : anc.Within M (State.streamDone s v id) := by
  unfold State.streamDone
  repeat' first
    | with_reducible assumption | with_reducible refine State.setVc_frame ?_ ?_ | with_reducible refine State.readOut_frame ?_ ?_
    | with_reducible refine State.hbmReadCmd_frame ?_ ?_ | with_reducible exact hm.mono (by decide) | split | dsimp only

theorem State.codeWrite_frame {anc : State} {M : Nat} {s : State} {st : Nat} {off : Nat} {n : Nat} {v : Nat → Nat} {hollow : Bool} {errs : SymErrs} {flips : Nat} {miss : Option Nat} {by_ : Option Nat} (hm : Sub 0x1000001c00007800000000000100000002 M) (hk : anc.Within M s) : anc.Within M (State.codeWrite s st off n v hollow errs flips miss by_).2.2 := by
  unfold State.codeWrite
  repeat' first
    | with_reducible assumption | with_reducible refine State.codeRead_frame ?_ ?_
    | refine State.codeRead_frame_eq ?_ (by with_reducible assumption) ?_ | with_reducible refine State.setHbmTag_frame ?_ ?_
    | with_reducible refine State.inc_frame ?_ ?_ | with_reducible refine State.clearResv_frame ?_ ?_
    | with_reducible refine State.when_frame ?_ ?_ | intro _ | with_reducible refine ite_frame ?_ ?_
    | with_reducible refine ite_frame2 ?_ ?_ | with_reducible refine ite_frame3 ?_ ?_ | with_reducible exact hm.mono (by decide)
    | with_reducible exact hm.bit (by decide)
    | ((with_reducible refine page_bit (B := ?_) (n := ?_) (k := ?_) hm ?_ ?_ ?_); (on_goal 4 => rfl); all_goals decide)
    | with_reducible exact corePage_bit hm (by decide) (by decide) (by decide) | simp only [or_true, true_and, and_true]
    | with_reducible refine And.intro ?_ ?_ | with_reducible exact .inl (hm.bit (by decide)) | split | dsimp only
    | with_reducible refine State.frame_mk ?_ ?_

theorem State.codeWrite_frame_eq {anc : State} {M : Nat} {s : State} {st : Nat} {off : Nat} {n : Nat} {v : Nat → Nat} {hollow : Bool} {errs : SymErrs} {flips : Nat} {miss : Option Nat} {by_ : Option Nat} (hm : Sub 0x1000001c00007800000000000100000002 M) {r0 r1 tz} (heqx : State.codeWrite s st off n v hollow errs flips miss by_ = (r0, r1, tz)) (hk : anc.Within M s) : anc.Within M tz := by
  have := State.codeWrite_frame (s := s) (st := st) (off := off) (n := n) (v := v) (hollow := hollow) (errs := errs) (flips := flips) (miss := miss) (by_ := by_) hm hk
  rwa [heqx] at this

theorem State.hbmWriteCmd_frame {anc : State} {M : Nat} {s : State} {r : Requester} {id : Nat} {a : Nat} {n : Nat} {v : Nat} {hollow : Bool} {kind : Nat} {errs : SymErrs} {flips : Nat} {miss : Option Nat} (hm : Sub 0xf000001c00007800000003000100000002 M) (hk : anc.Within M s) : anc.Within M (State.hbmWriteCmd s r id a n v hollow kind errs flips miss) := by
  unfold State.hbmWriteCmd
  repeat' first
    | with_reducible assumption | with_reducible refine State.hbmAccess_frame ?_ ?_
    | refine State.hbmAccess_frame_eq ?_ (by with_reducible assumption) ?_ | with_reducible refine State.hbmAnswer_frame ?_ ?_
    | with_reducible refine State.codeWrite_frame ?_ ?_ | refine State.codeWrite_frame_eq ?_ (by with_reducible assumption) ?_
    | with_reducible refine ite_frame ?_ ?_ | with_reducible exact hm.mono (by decide) | with_reducible exact hm.bit (by decide)
    | simp only [or_true, true_and, and_true] | with_reducible refine And.intro ?_ ?_
    | with_reducible exact .inl (hm.bit (by decide)) | split | dsimp only | with_reducible refine State.frame_mk ?_ ?_

theorem State.scrubRead_frame {anc : State} {M : Nat} {s : State} {st : Nat} {errs : SymErrs} {flips : Nat} {miss : Option Nat} (hm : Sub 0x1100000c00007800000000000100000002 M) (hk : anc.Within M s) : anc.Within M (State.scrubRead s st errs flips miss) := by
  unfold State.scrubRead
  repeat' first
    | with_reducible assumption | with_reducible refine State.codeRead_frame ?_ ?_
    | refine State.codeRead_frame_eq ?_ (by with_reducible assumption) ?_ | with_reducible refine State.setInt_frame ?_ ?_ ?_
    | with_reducible refine State.wf_frame ?_ ?_ | with_reducible refine State.inc_frame ?_ ?_
    | with_reducible refine ite_frame ?_ ?_ | with_reducible exact hm.mono (by decide) | with_reducible exact hm.bit (by decide)
    | ((with_reducible refine page_bit (B := ?_) (n := ?_) (k := ?_) hm ?_ ?_ ?_); (on_goal 4 => rfl); all_goals decide)
    | with_reducible exact corePage_bit hm (by decide) (by decide) (by decide) | simp only [or_true, true_and, and_true]
    | with_reducible refine And.intro ?_ ?_ | with_reducible exact .inl (hm.bit (by decide)) | split | dsimp only
    | with_reducible refine State.frame_mk ?_ ?_

theorem State.hbmTrain_frame {anc : State} {M : Nat} {s0 : State} {st : Nat} {outcome : Nat} (hm : Sub 0xe14fc0be7d007800000703000100130003 M) (hk : anc.Within M s0) : anc.Within M (State.hbmTrain s0 st outcome) := by
  unfold State.hbmTrain
  repeat' first
    | with_reducible assumption | with_reducible refine State.wf_frame ?_ ?_ | with_reducible refine State.unitEv_frame ?_ ?_
    | with_reducible refine State.setInt_frame ?_ ?_ ?_ | with_reducible refine State.dieFailure_frame ?_ ?_
    | with_reducible refine ite_frame ?_ ?_ | with_reducible exact hm.mono (by decide) | with_reducible exact hm.bit (by decide)
    | ((with_reducible refine page_bit (B := ?_) (n := ?_) (k := ?_) hm ?_ ?_ ?_); (on_goal 4 => rfl); all_goals decide)
    | with_reducible exact corePage_bit hm (by decide) (by decide) (by decide) | split | dsimp only

theorem State.hbmFill_frame {anc : State} {M : Nat} {s : State} {st : Nat} (hm : Sub 0x100000c00000000000000000100000000 M) (hk : anc.Within M s) : anc.Within M (State.hbmFill s st) := by
  unfold State.hbmFill
  repeat' first
    | with_reducible assumption | with_reducible refine State.wf_frame ?_ ?_ | with_reducible refine ite_frame ?_ ?_
    | with_reducible exact hm.mono (by decide) | with_reducible exact hm.bit (by decide) | simp only [or_true, true_and, and_true]
    | with_reducible refine And.intro ?_ ?_ | with_reducible exact .inl (hm.bit (by decide)) | split | dsimp only
    | with_reducible refine State.frame_mk ?_ ?_

theorem State.responseReceive_frame {anc : State} {M : Nat} {s : State} {ck : Nat} {pc : Nat} {redirected : Bool} {reqGen : Nat} {words : List Nat} (hm : Sub 0xf000801c00007800000003000101100002 M) (hk : anc.Within M s) : anc.Within M (State.responseReceive s ck pc redirected reqGen words) := by
  unfold State.responseReceive
  repeat' first
    | with_reducible assumption | with_reducible refine State.genDrop_frame ?_ ?_ | with_reducible refine State.mesh_frame ?_ ?_
    | with_reducible refine State.setInt_frame ?_ ?_ ?_ | with_reducible refine State.inc_frame ?_ ?_
    | with_reducible refine State.streamDone_frame ?_ ?_ | with_reducible refine State.when_frame ?_ ?_ | intro _
    | with_reducible refine ite_frame ?_ ?_ | with_reducible exact hm.mono (by decide) | with_reducible exact hm.bit (by decide)
    | ((with_reducible refine page_bit (B := ?_) (n := ?_) (k := ?_) hm ?_ ?_ ?_); (on_goal 4 => rfl); all_goals decide)
    | with_reducible exact corePage_bit hm (by decide) (by decide) (by decide) | split | dsimp only

theorem execHbmRead_frame {anc : State} {M : Nat} {r : Requester} {id : Nat} {a : Nat} {n : Nat} {lr : Bool} {errs : List (Nat × Nat)} {flips : Nat} {miss : Option Nat} {s : State} (hm : Sub 0xf000801c00007800000003000100100002 M) (hk : anc.Within M s) : ∃ out, execHbmRead r id a n lr errs flips miss s = .next out ∧ anc.Within M out := by
  unfold execHbmRead
  refine ⟨_, rfl, ?_⟩
  repeat' first
    | with_reducible assumption | with_reducible refine State.hbmReadIssue_frame ?_ ?_ | with_reducible refine State.when_frame ?_ ?_
    | intro _ | with_reducible exact hm.mono (by decide) | dsimp only

theorem execHbmWrite_frame {anc : State} {M : Nat} {r : Requester} {id : Nat} {a : Nat} {n : Nat} {v : Nat} {hollow : Bool} {kind : Nat} {errs : List (Nat × Nat)} {flips : Nat} {miss : Option Nat} {s : State} (hm : Sub 0xf000001c00007800000003000100000002 M) (hk : anc.Within M s) : ∃ out, execHbmWrite r id a n v hollow kind errs flips miss s = .next out ∧ anc.Within M out := by
  unfold execHbmWrite
  refine ⟨_, rfl, ?_⟩
  repeat' first
    | with_reducible assumption | with_reducible refine State.hbmWriteCmd_frame ?_ ?_ | with_reducible refine State.when_frame ?_ ?_
    | intro _ | with_reducible exact hm.mono (by decide) | dsimp only

theorem execResponseReceive_frame {anc : State} {M : Nat} {ck : Nat} {pc : Nat} {redirected : Bool} {reqGen : Nat} {words : List Nat} {s : State} (hm : Sub 0xf000801c00007800000003000101100002 M) (hk : anc.Within M s) : ∃ out, execResponseReceive ck pc redirected reqGen words s = .next out ∧ anc.Within M out := by
  unfold execResponseReceive
  refine ⟨_, rfl, ?_⟩
  repeat' first
    | with_reducible assumption | with_reducible refine State.responseReceive_frame ?_ ?_ | with_reducible exact hm.mono (by decide)
    | dsimp only

theorem execScrubRead_frame {anc : State} {M : Nat} {st : Nat} {errs : List (Nat × Nat)} {flips : Nat} {miss : Option Nat} {s : State} (hm : Sub 0x1100000c00007800000000000100000002 M) (hk : anc.Within M s) : ∃ out, execScrubRead st errs flips miss s = .next out ∧ anc.Within M out := by
  unfold execScrubRead
  refine ⟨_, rfl, ?_⟩
  repeat' first
    | with_reducible assumption | with_reducible refine State.scrubRead_frame ?_ ?_ | with_reducible exact hm.mono (by decide)
    | dsimp only

theorem execHbmTrain_frame {anc : State} {M : Nat} {st : Nat} {outcome : Nat} {s : State} (hm : Sub 0xe14fc0be7d007800000703000100130003 M) (hk : anc.Within M s) : ∃ out, execHbmTrain st outcome s = .next out ∧ anc.Within M out := by
  unfold execHbmTrain
  refine ⟨_, rfl, ?_⟩
  repeat' first
    | with_reducible assumption | with_reducible refine State.hbmTrain_frame ?_ ?_ | with_reducible exact hm.mono (by decide)
    | dsimp only

theorem execHbmFill_frame {anc : State} {M : Nat} {st : Nat} {s : State} (hm : Sub 0x100000c00000000000000000100000000 M) (hk : anc.Within M s) : ∃ out, execHbmFill st s = .next out ∧ anc.Within M out := by
  unfold execHbmFill
  refine ⟨_, rfl, ?_⟩
  repeat' first
    | with_reducible assumption | with_reducible refine State.hbmFill_frame ?_ ?_ | with_reducible exact hm.mono (by decide)
    | dsimp only

end Sys2Proof.Machine
end

