-- ==== Sys2Proof/Laws/Frame/Sensing.lean ====
section
/-! SUPPORT. Every operation and meaning of Machine/Sensing.lean changes only the register areas and parts of the state its mask names. -/

namespace Sys2Proof.Machine

set_option linter.unreachableTactic false
set_option linter.unusedTactic false

theorem State.setConv_frame {anc : State} {M : Nat} {s : State} {i : Nat} {x : ConvSt} (hm : Sub 0x1000000000000000000000000000000000 M) (hk : anc.Within M s) : anc.Within M (State.setConv s i x) := by
  unfold State.setConv
  repeat' first
    | with_reducible assumption | with_reducible exact hm.mono (by decide) | with_reducible exact hm.bit (by decide)
    | simp only [or_true, true_and, and_true] | with_reducible refine And.intro ?_ ?_
    | with_reducible exact .inl (hm.bit (by decide)) | dsimp only | with_reducible refine State.frame_mk ?_ ?_

theorem State.startUrgent_frame {anc : State} {M : Nat} {s : State} {i : Nat} (hm : Sub 0x1000000000000000010000000000000000 M) (hk : anc.Within M s) : anc.Within M (State.startUrgent s i) := by
  unfold State.startUrgent
  repeat' first
    | with_reducible assumption | with_reducible refine State.setConv_frame ?_ ?_ | with_reducible refine State.inc_frame ?_ ?_
    | with_reducible refine ite_frame ?_ ?_ | with_reducible exact hm.mono (by decide) | with_reducible exact hm.bit (by decide)
    | ((with_reducible refine page_bit (B := ?_) (n := ?_) (k := ?_) hm ?_ ?_ ?_); (on_goal 4 => rfl); all_goals decide)
    | with_reducible exact corePage_bit hm (by decide) (by decide) (by decide) | split | dsimp only

theorem State.urgentRequest_frame {anc : State} {M : Nat} {s : State} {i : Nat} {ch : Nat} (hm : Sub 0x1000000000001800010000000000000000 M) (hk : anc.Within M s) : anc.Within M (State.urgentRequest s i ch) := by
  unfold State.urgentRequest
  repeat' first
    | with_reducible assumption | with_reducible refine State.setInt_frame ?_ ?_ ?_ | with_reducible refine State.inc_frame ?_ ?_
    | with_reducible refine State.startUrgent_frame ?_ ?_ | with_reducible refine State.setConv_frame ?_ ?_
    | with_reducible refine ite_frame ?_ ?_ | with_reducible exact hm.mono (by decide) | with_reducible exact hm.bit (by decide)
    | ((with_reducible refine page_bit (B := ?_) (n := ?_) (k := ?_) hm ?_ ?_ ?_); (on_goal 4 => rfl); all_goals decide)
    | with_reducible exact corePage_bit hm (by decide) (by decide) (by decide) | split | dsimp only

theorem State.urgentGo_frame {anc : State} {M : Nat} {s : State} {i : Nat} {w : Nat} (hm : Sub 0x1000000000001800010000000000000000 M) (hk : anc.Within M s) : anc.Within M (State.urgentGo s i w) := by
  unfold State.urgentGo
  repeat' first
    | with_reducible assumption | with_reducible refine State.urgentRequest_frame ?_ ?_ | with_reducible refine ite_frame ?_ ?_
    | with_reducible exact hm.mono (by decide) | split | dsimp only

theorem State.compareBandgap_frame {anc : State} {M : Nat} {s : State} {i : Nat} (hm : Sub 0x1000000000007800010000000000000002 M) (hk : anc.Within M s) : anc.Within M (State.compareBandgap s i) := by
  unfold State.compareBandgap
  repeat' first
    | with_reducible assumption | with_reducible refine State.wf_frame ?_ ?_ | with_reducible refine State.unitEv_frame ?_ ?_
    | with_reducible refine State.setInt_frame ?_ ?_ ?_ | with_reducible refine ite_frame ?_ ?_
    | with_reducible exact hm.mono (by decide) | with_reducible exact hm.bit (by decide)
    | ((with_reducible refine page_bit (B := ?_) (n := ?_) (k := ?_) hm ?_ ?_ ?_); (on_goal 4 => rfl); all_goals decide)
    | with_reducible exact corePage_bit hm (by decide) (by decide) (by decide) | simp only [or_true, true_and, and_true]
    | with_reducible refine And.intro ?_ ?_ | with_reducible exact .inl (hm.bit (by decide)) | split | dsimp only
    | with_reducible refine State.frame_mk ?_ ?_

theorem State.issueLevel_frame {anc : State} {M : Nat} {s : State} (hm : Sub 0x40000000000000060000000003000000 M) (hk : anc.Within M s) : anc.Within M (State.issueLevel s) := by
  unfold State.issueLevel
  repeat' first
    | with_reducible assumption | with_reducible refine State.wf_frame ?_ ?_ | with_reducible refine State.orderMeshClock_frame ?_ ?_
    | with_reducible refine State.applyClocks_frame ?_ ?_ | with_reducible refine ite_frame ?_ ?_
    | with_reducible exact hm.mono (by decide) | with_reducible exact hm.bit (by decide) | split | dsimp only

theorem State.setPowerLevel_frame {anc : State} {M : Nat} {s : State} {l : Nat} (hm : Sub 0x1000000000001800040000000000000000 M) (hk : anc.Within M s) : anc.Within M (State.setPowerLevel s l) := by
  unfold State.setPowerLevel
  repeat' first
    | with_reducible assumption | with_reducible refine State.setInt_frame ?_ ?_ ?_ | with_reducible refine State.inc_frame ?_ ?_
    | with_reducible refine State.wf_frame ?_ ?_ | with_reducible refine ite_frame ?_ ?_ | with_reducible exact hm.mono (by decide)
    | with_reducible exact hm.bit (by decide)
    | ((with_reducible refine page_bit (B := ?_) (n := ?_) (k := ?_) hm ?_ ?_ ?_); (on_goal 4 => rfl); all_goals decide)
    | with_reducible exact corePage_bit hm (by decide) (by decide) (by decide) | simp only [or_true, true_and, and_true]
    | with_reducible refine And.intro ?_ ?_ | with_reducible exact .inl (hm.bit (by decide)) | split | dsimp only
    | with_reducible refine State.frame_mk ?_ ?_

theorem State.formCap_frame {anc : State} {M : Nat} {s : State} (hm : Sub 0x1800040000000000000000 M) (hk : anc.Within M s) : anc.Within M (State.formCap s) := by
  unfold State.formCap
  repeat' first
    | with_reducible assumption | with_reducible refine State.setInt_frame ?_ ?_ ?_ | with_reducible refine State.wf_frame ?_ ?_
    | with_reducible refine ite_frame ?_ ?_ | with_reducible exact hm.mono (by decide) | with_reducible exact hm.bit (by decide)
    | ((with_reducible refine page_bit (B := ?_) (n := ?_) (k := ?_) hm ?_ ?_ ?_); (on_goal 4 => rfl); all_goals decide)
    | with_reducible exact corePage_bit hm (by decide) (by decide) (by decide) | split | dsimp only

theorem State.fastClamp_frame {anc : State} {M : Nat} {s : State} {i48 : Nat} (hm : Sub 0x1040000000001800060000000003000000 M) (hk : anc.Within M s) : anc.Within M (State.fastClamp s i48) := by
  unfold State.fastClamp
  repeat' first
    | with_reducible assumption | with_reducible refine State.inc_frame ?_ ?_ | with_reducible refine State.wf_frame ?_ ?_
    | with_reducible refine State.setPowerLevel_frame ?_ ?_ | with_reducible refine State.issueLevel_frame ?_ ?_
    | with_reducible refine State.setInt_frame ?_ ?_ ?_ | with_reducible refine ite_frame ?_ ?_
    | with_reducible exact hm.mono (by decide) | with_reducible exact hm.bit (by decide)
    | ((with_reducible refine page_bit (B := ?_) (n := ?_) (k := ?_) hm ?_ ?_ ?_); (on_goal 4 => rfl); all_goals decide)
    | with_reducible exact corePage_bit hm (by decide) (by decide) (by decide) | simp only [or_true, true_and, and_true]
    | with_reducible refine And.intro ?_ ?_ | with_reducible exact .inl (hm.bit (by decide)) | split | dsimp only
    | with_reducible refine State.frame_mk ?_ ?_

theorem State.overcurrent_frame {anc : State} {M : Nat} {s : State} {i : Nat} {n : Nat} (hm : Sub 0x1000000000001800010000000000000000 M) (hk : anc.Within M s) : anc.Within M (State.overcurrent s i n) := by
  unfold State.overcurrent
  repeat' first
    | with_reducible assumption | with_reducible refine State.urgentRequest_frame ?_ ?_ | with_reducible refine ite_frame ?_ ?_
    | with_reducible exact hm.mono (by decide) | with_reducible exact hm.bit (by decide) | simp only [or_true, true_and, and_true]
    | with_reducible refine And.intro ?_ ?_ | with_reducible exact .inl (hm.bit (by decide)) | split | dsimp only
    | with_reducible refine State.frame_mk ?_ ?_

theorem State.conversionEnd_frame {anc : State} {M : Nat} {s : State} {i : Nat} {code : Nat} (hm : Sub 0x1040000000007800070000000003000002 M) (hk : anc.Within M s) : anc.Within M (State.conversionEnd s i code) := by
  unfold State.conversionEnd
  repeat' first
    | with_reducible assumption | with_reducible refine State.wf_frame ?_ ?_ | with_reducible refine State.inc_frame ?_ ?_
    | with_reducible refine State.setConv_frame ?_ ?_ | with_reducible refine State.fastClamp_frame ?_ ?_
    | with_reducible refine State.compareBandgap_frame ?_ ?_ | with_reducible refine State.startUrgent_frame ?_ ?_
    | with_reducible refine ite_frame ?_ ?_ | with_reducible exact hm.mono (by decide) | with_reducible exact hm.bit (by decide)
    | ((with_reducible refine page_bit (B := ?_) (n := ?_) (k := ?_) hm ?_ ?_ ?_); (on_goal 4 => rfl); all_goals decide)
    | with_reducible exact corePage_bit hm (by decide) (by decide) (by decide) | split | dsimp only

theorem State.setSensor_frame {anc : State} {M : Nat} {s : State} {n : Nat} {x : SensorSt} (hm : Sub 0x1000000000000000000000000000000000 M) (hk : anc.Within M s) : anc.Within M (State.setSensor s n x) := by
  unfold State.setSensor
  repeat' first
    | with_reducible assumption | with_reducible exact hm.mono (by decide) | with_reducible exact hm.bit (by decide)
    | simp only [or_true, true_and, and_true] | with_reducible refine And.intro ?_ ?_
    | with_reducible exact .inl (hm.bit (by decide)) | dsimp only | with_reducible refine State.frame_mk ?_ ?_

theorem State.readChannel_frame {anc : State} {M : Nat} {s : State} {ch : Nat} (hm : Sub 0x1000000000000000020000000000000000 M) (hk : anc.Within M s) : anc.Within M (State.readChannel s ch) := by
  unfold State.readChannel
  repeat' first
    | with_reducible assumption | with_reducible refine State.setSensor_frame ?_ ?_ | with_reducible refine State.wf_frame ?_ ?_
    | with_reducible refine ite_frame ?_ ?_ | with_reducible exact hm.mono (by decide) | with_reducible exact hm.bit (by decide)
    | split | dsimp only

theorem State.readStack_frame {anc : State} {M : Nat} {s : State} {n : Nat} {v : Option Int} (hm : Sub 0x1000000000000000020000000000000000 M) (hk : anc.Within M s) : anc.Within M (State.readStack s n v) := by
  unfold State.readStack
  repeat' first
    | with_reducible assumption | with_reducible refine State.setSensor_frame ?_ ?_ | with_reducible refine State.wf_frame ?_ ?_
    | with_reducible exact hm.mono (by decide) | with_reducible exact hm.bit (by decide) | split | dsimp only

theorem State.readAll_frame {anc : State} {M : Nat} {s : State} {thbm : List (Option Int)} (hm : Sub 0x1000000000000000020000000000000000 M) (hk : anc.Within M s) : anc.Within M (State.readAll s thbm) := by
  unfold State.readAll
  repeat' first
    | with_reducible assumption | with_reducible refine State.readChannel_frame ?_ ?_
    | with_reducible refine State.readStack_frame ?_ ?_ | with_reducible refine State.each_frame ?_ ?_ | intro _
    | with_reducible exact hm.mono (by decide) | dsimp only

theorem State.countApart_frame {anc : State} {M : Nat} {s : State} {n : Nat} (hm : Sub 0x1000000000000000000000000000000000 M) (hk : anc.Within M s) : anc.Within M (State.countApart s n) := by
  unfold State.countApart
  repeat' first
    | with_reducible assumption | with_reducible refine State.setSensor_frame ?_ ?_ | with_reducible refine ite_frame ?_ ?_
    | with_reducible exact hm.mono (by decide) | split | dsimp only

theorem State.countReversed_frame {anc : State} {M : Nat} {s : State} (hm : Sub 0x1000000000000000040000000000000000 M) (hk : anc.Within M s) : anc.Within M (State.countReversed s) := by
  unfold State.countReversed
  repeat' first
    | with_reducible assumption | with_reducible refine ite_frame ?_ ?_ | with_reducible exact hm.mono (by decide)
    | with_reducible exact hm.bit (by decide) | simp only [or_true, true_and, and_true] | with_reducible refine And.intro ?_ ?_
    | with_reducible exact .inl (hm.bit (by decide)) | split | dsimp only | with_reducible refine State.frame_mk ?_ ?_

theorem State.judgeFault_frame {anc : State} {M : Nat} {s : State} {n : Nat} (hm : Sub 0x1000000000007800020000000000000002 M) (hk : anc.Within M s) : anc.Within M (State.judgeFault s n) := by
  unfold State.judgeFault
  repeat' first
    | with_reducible assumption | with_reducible refine State.unitEv_frame ?_ ?_ | with_reducible refine State.setInt_frame ?_ ?_ ?_
    | with_reducible refine State.wf_frame ?_ ?_ | with_reducible refine State.setSensor_frame ?_ ?_
    | with_reducible refine State.when_frame ?_ ?_ | intro _ | with_reducible refine ite_frame ?_ ?_
    | with_reducible exact hm.mono (by decide) | with_reducible exact hm.bit (by decide)
    | ((with_reducible refine page_bit (B := ?_) (n := ?_) (k := ?_) hm ?_ ?_ ?_); (on_goal 4 => rfl); all_goals decide)
    | with_reducible exact corePage_bit hm (by decide) (by decide) (by decide) | split | dsimp only

theorem State.railsDown_frame {anc : State} {M : Nat} {s : State} (hm : Sub 0x8100000000000000000000000100000000 M) (hk : anc.Within M s) : anc.Within M (State.railsDown s) := by
  unfold State.railsDown
  repeat' first
    | with_reducible assumption | with_reducible refine State.setPwrgd_frame ?_ ?_ | with_reducible refine State.wf_frame ?_ ?_
    | with_reducible refine State.each_frame ?_ ?_ | intro _ | with_reducible exact hm.mono (by decide)
    | with_reducible exact hm.bit (by decide) | simp only [or_true, true_and, and_true] | with_reducible refine And.intro ?_ ?_
    | with_reducible exact .inl (hm.bit (by decide)) | dsimp only | with_reducible refine State.frame_mk ?_ ?_

theorem State.judgeTrip_frame {anc : State} {M : Nat} {s : State} {n : Nat} (hm : Sub 0xf14fc0be7d007800020703000100130003 M) (hk : anc.Within M s) : anc.Within M (State.judgeTrip s n) := by
  unfold State.judgeTrip
  repeat' first
    | with_reducible assumption | with_reducible refine State.wf_frame ?_ ?_ | with_reducible refine State.setSensor_frame ?_ ?_
    | with_reducible refine State.raiseAlert_frame ?_ ?_ | with_reducible refine State.setInt_frame ?_ ?_ ?_
    | with_reducible refine State.inc_frame ?_ ?_ | with_reducible refine State.post_frame ?_ ?_
    | with_reducible refine State.railsDown_frame ?_ ?_ | with_reducible refine State.dieFailure_frame ?_ ?_
    | with_reducible refine State.when_frame ?_ ?_ | intro _ | with_reducible refine ite_frame ?_ ?_
    | with_reducible exact hm.mono (by decide) | with_reducible exact hm.bit (by decide)
    | ((with_reducible refine page_bit (B := ?_) (n := ?_) (k := ?_) hm ?_ ?_ ?_); (on_goal 4 => rfl); all_goals decide)
    | with_reducible exact corePage_bit hm (by decide) (by decide) (by decide) | split | dsimp only

theorem State.partLimit_frame {anc : State} {M : Nat} {s : State} {p : Nat} (hm : Sub 0x1040000000000000020000000000000000 M) (hk : anc.Within M s) : anc.Within M (State.partLimit s p) := by
  unfold State.partLimit
  repeat' first
    | with_reducible assumption | with_reducible refine State.applyClocks_frame ?_ ?_ | with_reducible refine State.wf_frame ?_ ?_
    | with_reducible refine ite_frame ?_ ?_ | with_reducible exact hm.mono (by decide) | with_reducible exact hm.bit (by decide)
    | simp only [or_true, true_and, and_true] | with_reducible refine And.intro ?_ ?_
    | with_reducible exact .inl (hm.bit (by decide)) | split | dsimp only | with_reducible refine State.frame_mk ?_ ?_

theorem State.throttleEscalate_frame {anc : State} {M : Nat} {s : State} {p : Nat} (hm : Sub 0x40000000000000020000000000000000 M) (hk : anc.Within M s) : anc.Within M (State.throttleEscalate s p) := by
  unfold State.throttleEscalate
  repeat' first
    | with_reducible assumption | with_reducible refine State.applyClocks_frame ?_ ?_ | with_reducible refine State.wf_frame ?_ ?_
    | with_reducible refine ite_frame ?_ ?_ | with_reducible exact hm.mono (by decide) | with_reducible exact hm.bit (by decide)
    | split | dsimp only

theorem State.judgeThermal_frame {anc : State} {M : Nat} {s : State} (hm : Sub 0xf14fc0be7d007800030703000100130003 M) (hk : anc.Within M s) : anc.Within M (State.judgeThermal s) := by
  unfold State.judgeThermal
  repeat' first
    | with_reducible assumption | with_reducible refine State.judgeTrip_frame ?_ ?_
    | with_reducible refine State.partLimit_frame ?_ ?_ | with_reducible refine State.wf_frame ?_ ?_
    | with_reducible refine State.each_frame ?_ ?_ | intro _ | with_reducible exact hm.mono (by decide)
    | with_reducible exact hm.bit (by decide) | dsimp only

theorem State.senseInput_frame {anc : State} {M : Nat} {s : State} (hm : Sub 0x9100000000007801000000000000000002 M) (hk : anc.Within M s) : anc.Within M (State.senseInput s) := by
  unfold State.senseInput
  repeat' first
    | with_reducible assumption | with_reducible refine State.boardFault_frame ?_ ?_ | with_reducible refine State.wf_frame ?_ ?_
    | with_reducible refine ite_frame ?_ ?_ | with_reducible exact hm.mono (by decide) | with_reducible exact hm.bit (by decide)
    | simp only [or_true, true_and, and_true] | with_reducible refine And.intro ?_ ?_
    | with_reducible exact .inl (hm.bit (by decide)) | split | dsimp only | with_reducible refine State.frame_mk ?_ ?_

theorem State.senseLeak_frame {anc : State} {M : Nat} {s : State} {ohm : Nat} {short : Bool} (hm : Sub 0x9100000000007801000000000000000002 M) (hk : anc.Within M s) : anc.Within M (State.senseLeak s ohm short) := by
  unfold State.senseLeak
  repeat' first
    | with_reducible assumption | with_reducible refine State.wf_frame ?_ ?_ | with_reducible refine State.boardFault_frame ?_ ?_
    | with_reducible refine ite_frame ?_ ?_ | with_reducible exact hm.mono (by decide) | with_reducible exact hm.bit (by decide)
    | simp only [or_true, true_and, and_true] | with_reducible refine And.intro ?_ ?_
    | with_reducible exact .inl (hm.bit (by decide)) | split | dsimp only | with_reducible refine State.frame_mk ?_ ?_

theorem State.thermistorFaults_frame {anc : State} {M : Nat} {s : State} (hm : Sub 0x8100000000007801020000000000000002 M) (hk : anc.Within M s) : anc.Within M (State.thermistorFaults s) := by
  unfold State.thermistorFaults
  repeat' first
    | with_reducible assumption | with_reducible refine State.boardFault_frame ?_ ?_ | with_reducible exact hm.mono (by decide)
    | dsimp only

theorem State.judgeHalf_frame {anc : State} {M : Nat} {s : State} (hm : Sub 0x1000000000000000040000000000000000 M) (hk : anc.Within M s) : anc.Within M (State.judgeHalf s) := by
  unfold State.judgeHalf
  repeat' first
    | with_reducible assumption | with_reducible refine State.wf_frame ?_ ?_ | with_reducible refine ite_frame ?_ ?_
    | with_reducible exact hm.mono (by decide) | with_reducible exact hm.bit (by decide) | simp only [or_true, true_and, and_true]
    | with_reducible refine And.intro ?_ ?_ | with_reducible exact .inl (hm.bit (by decide)) | split | dsimp only
    | with_reducible refine State.frame_mk ?_ ?_

theorem State.governor_frame {anc : State} {M : Nat} {s : State} {tele : Nat} {peak : Nat} (hm : Sub 0x1040000000001800070000000003000000 M) (hk : anc.Within M s) : anc.Within M (State.governor s tele peak) := by
  unfold State.governor
  repeat' first
    | with_reducible assumption | with_reducible refine State.judgeHalf_frame ?_ ?_ | with_reducible refine State.formCap_frame ?_ ?_
    | with_reducible refine State.wf_frame ?_ ?_ | with_reducible refine State.setPowerLevel_frame ?_ ?_
    | with_reducible refine State.issueLevel_frame ?_ ?_ | with_reducible refine State.when_frame ?_ ?_ | intro _
    | with_reducible refine ite_frame ?_ ?_ | with_reducible exact hm.mono (by decide) | with_reducible exact hm.bit (by decide)
    | simp only [or_true, true_and, and_true] | with_reducible refine And.intro ?_ ?_
    | with_reducible exact .inl (hm.bit (by decide)) | split | dsimp only | with_reducible refine State.frame_mk ?_ ?_

theorem State.undervoltage_frame {anc : State} {M : Nat} {s : State} {p : Nat} (hm : Sub 0x1040000000007800080000000000000202 M) (hk : anc.Within M s) : anc.Within M (State.undervoltage s p) := by
  unfold State.undervoltage
  repeat' first
    | with_reducible assumption | with_reducible refine State.post_frame ?_ ?_ | with_reducible refine State.applyClocks_frame ?_ ?_
    | with_reducible refine ite_frame ?_ ?_ | with_reducible exact hm.mono (by decide) | with_reducible exact hm.bit (by decide)
    | simp only [or_true, true_and, and_true] | with_reducible refine And.intro ?_ ?_
    | with_reducible exact .inl (hm.bit (by decide)) | split | dsimp only | with_reducible refine State.frame_mk ?_ ?_

theorem State.undervoltageEnd_frame {anc : State} {M : Nat} {s : State} {p : Nat} (hm : Sub 0x1040000000000000000000000000000000 M) (hk : anc.Within M s) : anc.Within M (State.undervoltageEnd s p) := by
  unfold State.undervoltageEnd
  repeat' first
    | with_reducible assumption | with_reducible refine State.applyClocks_frame ?_ ?_ | with_reducible refine ite_frame ?_ ?_
    | with_reducible exact hm.mono (by decide) | with_reducible exact hm.bit (by decide) | simp only [or_true, true_and, and_true]
    | with_reducible refine And.intro ?_ ?_ | with_reducible exact .inl (hm.bit (by decide)) | split | dsimp only
    | with_reducible refine State.frame_mk ?_ ?_

theorem State.trends_frame {anc : State} {M : Nat} {s : State} (hm : Sub 0x9000000000007800000000000100400002 M) (hk : anc.Within M s) : anc.Within M (State.trends s) := by
  unfold State.trends
  repeat' first
    | with_reducible assumption | with_reducible refine State.logEv_frame ?_ ?_ | with_reducible refine State.suspect_frame ?_ ?_
    | with_reducible refine State.each_frame ?_ ?_ | intro _ | with_reducible exact hm.mono (by decide)
    | with_reducible exact hm.bit (by decide) | simp only [or_true, true_and, and_true] | with_reducible refine And.intro ?_ ?_
    | with_reducible exact .inl (hm.bit (by decide)) | dsimp only | with_reducible refine State.frame_mk ?_ ?_

theorem State.slowRound_frame {anc : State} {M : Nat} {s : State} {thbm : List (Option Int)} {tele : Nat} {peak : Nat} {leakOhm : Nat} {leakShort : Bool} {late : Nat} (hm : Sub 0xf34fc0be7d0078010f0703000103530203 M) (hk : anc.Within M s) : anc.Within M (State.slowRound s thbm tele peak leakOhm leakShort late) := by
  unfold State.slowRound
  repeat' first
    | with_reducible assumption | with_reducible refine State.readAll_frame ?_ ?_
    | with_reducible refine State.countReversed_frame ?_ ?_ | with_reducible refine State.countApart_frame ?_ ?_
    | with_reducible refine State.judgeFault_frame ?_ ?_ | with_reducible refine State.judgeThermal_frame ?_ ?_
    | with_reducible refine State.thermistorFaults_frame ?_ ?_ | with_reducible refine State.senseLeak_frame ?_ ?_
    | with_reducible refine State.senseInput_frame ?_ ?_ | with_reducible refine State.governor_frame ?_ ?_
    | with_reducible refine State.undervoltage_frame ?_ ?_ | with_reducible refine State.inc_frame ?_ ?_
    | with_reducible refine State.trends_frame ?_ ?_ | with_reducible refine State.each_frame ?_ ?_ | intro _
    | with_reducible refine ite_frame ?_ ?_ | with_reducible exact hm.mono (by decide) | with_reducible exact hm.bit (by decide)
    | ((with_reducible refine page_bit (B := ?_) (n := ?_) (k := ?_) hm ?_ ?_ ?_); (on_goal 4 => rfl); all_goals decide)
    | with_reducible exact corePage_bit hm (by decide) (by decide) (by decide) | simp only [or_true, true_and, and_true]
    | with_reducible refine And.intro ?_ ?_ | with_reducible exact .inl (hm.bit (by decide)) | split | dsimp only
    | with_reducible refine State.frame_mk ?_ ?_

theorem State.powerCapSet_frame {anc : State} {M : Nat} {s : State} {i : Instr} {c : Cmd} (hm : Sub 0x8800000000be7800040400030000000006 M) (hk : anc.Within M s) : anc.Within M (State.powerCapSet s i c) := by
  unfold State.powerCapSet
  repeat' first
    | with_reducible assumption | with_reducible refine State.vorane_frame ?_ ?_ ?_ | with_reducible refine State.reply_frame ?_ ?_
    | with_reducible refine State.wf_frame ?_ ?_ | with_reducible refine State.formCap_frame ?_ ?_
    | with_reducible refine State.when_frame ?_ ?_ | intro _ | with_reducible refine ite_frame ?_ ?_
    | with_reducible exact hm.mono (by decide) | with_reducible exact hm.bit (by decide) | split | dsimp only

theorem State.sensorQuery_frame {anc : State} {M : Nat} {s : State} {i : Instr} {c : Cmd} (hm : Sub 0x8800000000be7800060400030000000006 M) (hk : anc.Within M s) : anc.Within M (State.sensorQuery s i c) := by
  unfold State.sensorQuery
  repeat' first
    | with_reducible assumption | with_reducible refine State.vorane_frame ?_ ?_ ?_ | with_reducible refine State.reply_frame ?_ ?_
    | intro _ | with_reducible refine ite_frame ?_ ?_ | with_reducible exact hm.mono (by decide) | split | dsimp only

theorem State.ageCluster_frame {anc : State} {M : Nat} {s : State} {c : Nat} {stressed : Nat} {fresh : Nat} (hm : Sub 0x1000000000000000080000000000000000 M) (hk : anc.Within M s) : anc.Within M (State.ageCluster s c stressed fresh) := by
  unfold State.ageCluster
  repeat' first
    | with_reducible assumption | with_reducible refine State.wf_frame ?_ ?_ | with_reducible refine ite_frame ?_ ?_
    | with_reducible exact hm.mono (by decide) | with_reducible exact hm.bit (by decide) | simp only [or_true, true_and, and_true]
    | with_reducible refine And.intro ?_ ?_ | with_reducible exact .inl (hm.bit (by decide)) | split | dsimp only
    | with_reducible refine State.frame_mk ?_ ?_

theorem State.ageMeasure_frame {anc : State} {M : Nat} {s : State} {counts : List (Nat × Nat)} (hm : Sub 0x1000000000000000080000000000000002 M) (hk : anc.Within M s) : anc.Within M (State.ageMeasure s counts) := by
  unfold State.ageMeasure
  repeat' first
    | with_reducible assumption | with_reducible refine State.ageCluster_frame ?_ ?_ | with_reducible refine State.each_frame ?_ ?_
    | intro _ | with_reducible refine ite_frame ?_ ?_ | with_reducible exact hm.mono (by decide) | split | dsimp only

theorem State.replanEv_frame {anc : State} {M : Nat} {s : State} {page : Page} {ref : Nat} {step : Nat} {old : Nat} {new : Nat} (hm : Sub 0x7800000000000000000002 M) (hk : anc.Within M s) : anc.Within M (State.replanEv s page ref step old new) := by
  unfold State.replanEv
  repeat' first
    | with_reducible assumption | with_reducible refine State.post_frame ?_ ?_ | with_reducible exact hm.mono (by decide)
    | dsimp only

theorem State.replanGuard_frame {anc : State} {M : Nat} {s : State} {p : Nat} (hm : Sub 0x4000000000780008000000000000000a M) (hk : anc.Within M s) : anc.Within M (State.replanGuard s p) := by
  unfold State.replanGuard
  repeat' first
    | with_reducible assumption | with_reducible refine State.replanEv_frame ?_ ?_ | with_reducible refine State.wf_frame ?_ ?_
    | with_reducible refine State.post_frame ?_ ?_ | with_reducible refine State.setInt_frame ?_ ?_ ?_
    | with_reducible refine State.applyClocks_frame ?_ ?_ | with_reducible refine State.fieldRec_frame ?_ ?_
    | with_reducible refine foldl_frame ?_ ?_ | intro _ | with_reducible refine ite_frame ?_ ?_
    | with_reducible exact hm.mono (by decide) | with_reducible exact hm.bit (by decide)
    | ((with_reducible refine page_bit (B := ?_) (n := ?_) (k := ?_) hm ?_ ?_ ?_); (on_goal 4 => rfl); all_goals decide)
    | with_reducible exact corePage_bit hm (by decide) (by decide) (by decide) | split | dsimp only

theorem State.replanCal_frame {anc : State} {M : Nat} {s : State} {e : Nat} (hm : Sub 0x7800080000000000040002 M) (hk : anc.Within M s) : anc.Within M (State.replanCal s e) := by
  unfold State.replanCal
  repeat' first
    | with_reducible assumption | with_reducible refine State.replanEv_frame ?_ ?_ | with_reducible refine State.wf_frame ?_ ?_
    | with_reducible refine foldl_frame ?_ ?_ | intro _ | with_reducible refine ite_frame ?_ ?_
    | with_reducible exact hm.mono (by decide) | with_reducible exact hm.bit (by decide)
    | with_reducible exact gainF_bit hm (by decide) | with_reducible exact zeroBaseF_bit hm (by decide) | split | dsimp only

theorem State.keepTrims_frame {anc : State} {M : Nat} {s : State} {e : Nat} (hm : Sub 0x1000000000000000000000000000040000 M) (hk : anc.Within M s) : anc.Within M (State.keepTrims s e) := by
  unfold State.keepTrims
  repeat' first
    | with_reducible assumption | with_reducible refine State.each_frame ?_ ?_ | intro _ | with_reducible refine ite_frame ?_ ?_
    | with_reducible exact hm.mono (by decide) | with_reducible exact hm.bit (by decide)
    | with_reducible exact gainF_bit hm (by decide) | with_reducible exact zeroBaseF_bit hm (by decide)
    | simp only [or_true, true_and, and_true] | with_reducible refine And.intro ?_ ?_
    | with_reducible exact .inl (hm.bit (by decide)) | split | dsimp only | with_reducible refine State.frame_mk ?_ ?_

theorem State.replanEndurance_frame {anc : State} {M : Nat} {s : State} {e : Nat} (hm : Sub 0x1000000000007800080000000000080002 M) (hk : anc.Within M s) : anc.Within M (State.replanEndurance s e) := by
  unfold State.replanEndurance
  repeat' first
    | with_reducible assumption | with_reducible refine State.wf_frame ?_ ?_ | with_reducible refine State.replanEv_frame ?_ ?_
    | with_reducible refine State.logEv_frame ?_ ?_ | with_reducible refine State.each_frame ?_ ?_ | intro _
    | with_reducible refine ite_frame ?_ ?_ | with_reducible exact hm.mono (by decide) | with_reducible exact hm.bit (by decide)
    | with_reducible exact rowMaxF_bit hm (by decide) | simp only [or_true, true_and, and_true]
    | with_reducible refine And.intro ?_ ?_ | with_reducible exact .inl (hm.bit (by decide)) | split | dsimp only
    | with_reducible refine State.frame_mk ?_ ?_

theorem State.replanRung_frame {anc : State} {M : Nat} {s : State} {pc : Nat} (hm : Sub 0x104000000000780000000000000040020a M) (hk : anc.Within M s) : anc.Within M (State.replanRung s pc) := by
  unfold State.replanRung
  repeat' first
    | with_reducible assumption | with_reducible refine State.replanEv_frame ?_ ?_ | with_reducible refine State.setRung_frame ?_ ?_
    | with_reducible refine ite_frame ?_ ?_ | with_reducible exact hm.mono (by decide) | split | dsimp only

theorem State.replan_frame {anc : State} {M : Nat} {s : State} (hm : Sub 0x10400000000078000800000000004c020a M) (hk : anc.Within M s) : anc.Within M (State.replan s) := by
  unfold State.replan
  repeat' first
    | with_reducible assumption | with_reducible refine State.replanGuard_frame ?_ ?_
    | with_reducible refine State.keepTrims_frame ?_ ?_ | with_reducible refine State.replanCal_frame ?_ ?_
    | with_reducible refine State.wf_frame ?_ ?_ | with_reducible refine State.replanEndurance_frame ?_ ?_
    | with_reducible refine State.replanRung_frame ?_ ?_ | with_reducible refine State.setInt_frame ?_ ?_ ?_
    | with_reducible refine State.each_frame ?_ ?_ | intro _ | with_reducible refine ite_frame ?_ ?_
    | with_reducible exact hm.mono (by decide) | with_reducible exact hm.bit (by decide)
    | ((with_reducible refine page_bit (B := ?_) (n := ?_) (k := ?_) hm ?_ ?_ ?_); (on_goal 4 => rfl); all_goals decide)
    | with_reducible exact corePage_bit hm (by decide) (by decide) (by decide) | simp only [or_true, true_and, and_true]
    | with_reducible refine And.intro ?_ ?_ | with_reducible exact .inl (hm.bit (by decide)) | split | dsimp only
    | with_reducible refine State.frame_mk ?_ ?_

theorem State.replanDue_frame {anc : State} {M : Nat} {s : State} (hm : Sub 0x10400000000078000800000000004c020a M) (hk : anc.Within M s) : anc.Within M (State.replanDue s) := by
  unfold State.replanDue
  repeat' first
    | with_reducible assumption | with_reducible refine State.replan_frame ?_ ?_ | with_reducible refine ite_frame ?_ ?_
    | with_reducible exact hm.mono (by decide) | split | dsimp only

theorem State.replanNow_frame {anc : State} {M : Nat} {s : State} (hm : Sub 0x10400000000078000800000000004c020a M) (hk : anc.Within M s) : anc.Within M (State.replanNow s) := by
  unfold State.replanNow
  repeat' first
    | with_reducible assumption | with_reducible refine State.replan_frame ?_ ?_ | with_reducible refine ite_frame ?_ ?_
    | with_reducible exact hm.mono (by decide) | with_reducible exact hm.bit (by decide) | simp only [or_true, true_and, and_true]
    | with_reducible refine And.intro ?_ ?_ | with_reducible exact .inl (hm.bit (by decide)) | split | dsimp only
    | with_reducible refine State.frame_mk ?_ ?_

theorem execConversionEnd_frame {anc : State} {M : Nat} {i : Nat} {code : Nat} {s : State} (hm : Sub 0x1040000000007800070000000003000002 M) (hk : anc.Within M s) : ∃ out, execConversionEnd i code s = .next out ∧ anc.Within M out := by
  unfold execConversionEnd
  refine ⟨_, rfl, ?_⟩
  repeat' first
    | with_reducible assumption | with_reducible refine State.conversionEnd_frame ?_ ?_ | with_reducible exact hm.mono (by decide)
    | dsimp only

theorem execOvercurrentComparator_frame {anc : State} {M : Nat} {i : Nat} {n : Nat} {s : State} (hm : Sub 0x1000000000001800010000000000000000 M) (hk : anc.Within M s) : ∃ out, execOvercurrentComparator i n s = .next out ∧ anc.Within M out := by
  unfold execOvercurrentComparator
  refine ⟨_, rfl, ?_⟩
  repeat' first
    | with_reducible assumption | with_reducible refine State.overcurrent_frame ?_ ?_ | with_reducible exact hm.mono (by decide)
    | dsimp only

theorem execSlowRound_frame {anc : State} {M : Nat} {thbm : List (Option Int)} {tele : Nat} {peak : Nat} {leakOhm : Nat} {leakShort : Bool} {late : Nat} {s : State} (hm : Sub 0xf34fc0be7d0078010f0703000103530203 M) (hk : anc.Within M s) : ∃ out, execSlowRound thbm tele peak leakOhm leakShort late s = .next out ∧ anc.Within M out := by
  unfold execSlowRound
  refine ⟨_, rfl, ?_⟩
  repeat' first
    | with_reducible assumption | with_reducible refine State.slowRound_frame ?_ ?_ | with_reducible exact hm.mono (by decide)
    | dsimp only

theorem execThrottleEscalate_frame {anc : State} {M : Nat} {p : Nat} {s : State} (hm : Sub 0x40000000000000020000000000000000 M) (hk : anc.Within M s) : ∃ out, execThrottleEscalate p s = .next out ∧ anc.Within M out := by
  unfold execThrottleEscalate
  refine ⟨_, rfl, ?_⟩
  repeat' first
    | with_reducible assumption | with_reducible refine State.throttleEscalate_frame ?_ ?_ | with_reducible exact hm.mono (by decide)
    | dsimp only

theorem execUndervoltageEnd_frame {anc : State} {M : Nat} {p : Nat} {s : State} (hm : Sub 0x1040000000000000000000000000000000 M) (hk : anc.Within M s) : ∃ out, execUndervoltageEnd p s = .next out ∧ anc.Within M out := by
  unfold execUndervoltageEnd
  refine ⟨_, rfl, ?_⟩
  repeat' first
    | with_reducible assumption | with_reducible refine State.undervoltageEnd_frame ?_ ?_ | with_reducible exact hm.mono (by decide)
    | dsimp only

theorem execPowerCapSet_frame {anc : State} {M : Nat} {c : Cmd} {s : State} (hm : Sub 0x8800000000be7800040400030000000006 M) (hk : anc.Within M s) : ∃ out, execPowerCapSet c s = .next out ∧ anc.Within M out := by
  unfold execPowerCapSet
  refine ⟨_, rfl, ?_⟩
  repeat' first
    | with_reducible assumption | with_reducible refine State.powerCapSet_frame ?_ ?_ | with_reducible exact hm.mono (by decide)
    | dsimp only

theorem execSensorQuery_frame {anc : State} {M : Nat} {c : Cmd} {s : State} (hm : Sub 0x8800000000be7800060400030000000006 M) (hk : anc.Within M s) : ∃ out, execSensorQuery c s = .next out ∧ anc.Within M out := by
  unfold execSensorQuery
  refine ⟨_, rfl, ?_⟩
  repeat' first
    | with_reducible assumption | with_reducible refine State.sensorQuery_frame ?_ ?_ | with_reducible exact hm.mono (by decide)
    | dsimp only

theorem execAgeingMeasure_frame {anc : State} {M : Nat} {counts : List (Nat × Nat)} {s : State} (hm : Sub 0x1000000000000000080000000000000002 M) (hk : anc.Within M s) : ∃ out, execAgeingMeasure counts s = .next out ∧ anc.Within M out := by
  unfold execAgeingMeasure
  refine ⟨_, rfl, ?_⟩
  repeat' first
    | with_reducible assumption | with_reducible refine State.ageMeasure_frame ?_ ?_ | with_reducible exact hm.mono (by decide)
    | dsimp only

theorem execReplan_frame {anc : State} {M : Nat} {s : State} (hm : Sub 0x10400000000078000800000000004c020a M) (hk : anc.Within M s) : ∃ out, execReplan s = .next out ∧ anc.Within M out := by
  unfold execReplan
  refine ⟨_, rfl, ?_⟩
  repeat' first
    | with_reducible assumption | with_reducible refine State.replanDue_frame ?_ ?_ | with_reducible exact hm.mono (by decide)
    | dsimp only

end Sys2Proof.Machine
end

