-- ==== Sys2Proof/Laws/Frame/Board.lean ====
section
/-! SUPPORT. Every operation and meaning of Machine/Board.lean changes only the register areas and parts of the state its mask names. -/

namespace Sys2Proof.Machine

set_option linter.unreachableTactic false
set_option linter.unusedTactic false

theorem State.powerGone_frame {anc : State} {M : Nat} {s : State} (hm : Sub 0x1ffffffffffffffffffffffffffffffffff M) (hk : anc.Within M s) : anc.Within M (State.powerGone s) := by
  unfold State.powerGone
  repeat' first
    | with_reducible assumption | with_reducible refine State.coldReset_frame ?_ ?_
    | with_reducible refine State.setPwrgd_frame ?_ ?_ | with_reducible refine ite_frame ?_ ?_
    | with_reducible exact hm.mono (by decide) | with_reducible exact hm.bit (by decide) | with_reducible exact hm.any (by decide) _
    | with_reducible exact hm.anyPage (by decide) _ | simp only [or_true, true_and, and_true] | with_reducible refine And.intro ?_ ?_
    | with_reducible exact .inl (hm.bit (by decide)) | split | dsimp only | with_reducible refine State.frame_mk ?_ ?_

theorem State.overvoltage_frame {anc : State} {M : Nat} {s : State} (hm : Sub 0x1ffffffffffffffffffffffffffffffffff M) (hk : anc.Within M s) : anc.Within M (State.overvoltage s) := by
  unfold State.overvoltage
  repeat' first
    | with_reducible assumption | with_reducible refine State.emit_frame ?_ ?_ | with_reducible refine State.powerGone_frame ?_ ?_
    | with_reducible refine ite_frame ?_ ?_ | with_reducible exact hm.mono (by decide) | split | dsimp only

theorem State.inputReversed_frame {anc : State} {M : Nat} {s : State} (hm : Sub 0x1ffffffffffffffffffffffffffffffffff M) (hk : anc.Within M s) : anc.Within M (State.inputReversed s) := by
  unfold State.inputReversed
  repeat' first
    | with_reducible assumption | with_reducible refine State.powerGone_frame ?_ ?_ | with_reducible exact hm.mono (by decide)
    | with_reducible exact hm.bit (by decide) | with_reducible exact hm.any (by decide) _
    | with_reducible exact hm.anyPage (by decide) _ | simp only [or_true, true_and, and_true] | with_reducible refine And.intro ?_ ?_
    | with_reducible exact .inl (hm.bit (by decide)) | dsimp only | with_reducible refine State.frame_mk ?_ ?_

theorem State.reportReversed_frame {anc : State} {M : Nat} {s : State} (hm : Sub 0x8100000000007801000000000000000002 M) (hk : anc.Within M s) : anc.Within M (State.reportReversed s) := by
  unfold State.reportReversed
  repeat' first
    | with_reducible assumption | with_reducible refine State.boardFault_frame ?_ ?_ | with_reducible refine State.incSat_frame ?_ ?_
    | with_reducible refine ite_frame ?_ ?_ | with_reducible exact hm.mono (by decide) | with_reducible exact hm.bit (by decide)
    | ((with_reducible refine page_bit (B := ?_) (n := ?_) (k := ?_) hm ?_ ?_ ?_); (on_goal 4 => rfl); all_goals decide)
    | with_reducible exact corePage_bit hm (by decide) (by decide) (by decide) | simp only [or_true, true_and, and_true]
    | with_reducible refine And.intro ?_ ?_ | with_reducible exact .inl (hm.bit (by decide)) | split | dsimp only
    | with_reducible refine State.frame_mk ?_ ?_

theorem State.powerApplied_frame {anc : State} {M : Nat} {s : State} (hm : Sub 0x8100000000007801000000000000000002 M) (hk : anc.Within M s) : anc.Within M (State.powerApplied s) := by
  unfold State.powerApplied
  repeat' first
    | with_reducible assumption | with_reducible refine State.wf_frame ?_ ?_ | with_reducible refine State.reportReversed_frame ?_ ?_
    | with_reducible refine State.setPwrgd_frame ?_ ?_ | with_reducible refine State.emit_frame ?_ ?_
    | with_reducible refine ite_frame ?_ ?_ | with_reducible exact hm.mono (by decide) | with_reducible exact hm.bit (by decide)
    | simp only [or_true, true_and, and_true] | with_reducible refine And.intro ?_ ?_
    | with_reducible exact .inl (hm.bit (by decide)) | split | dsimp only | with_reducible refine State.frame_mk ?_ ?_

theorem State.resetAssert_frame {anc : State} {M : Nat} {s : State} (hm : Sub 0x1ffffffffffffffffffffffffffffffffff M) (hk : anc.Within M s) : anc.Within M (State.resetAssert s) := by
  unfold State.resetAssert
  repeat' first
    | with_reducible assumption | with_reducible refine State.raiseAlert_frame ?_ ?_
    | with_reducible refine State.boardFault_frame ?_ ?_ | with_reducible refine State.coldReset_frame ?_ ?_
    | with_reducible refine State.wf_frame ?_ ?_ | with_reducible refine ite_frame ?_ ?_ | with_reducible exact hm.mono (by decide)
    | with_reducible exact hm.bit (by decide) | with_reducible exact hm.any (by decide) _
    | with_reducible exact hm.anyPage (by decide) _ | simp only [or_true, true_and, and_true] | with_reducible refine And.intro ?_ ?_
    | with_reducible exact .inl (hm.bit (by decide)) | split | dsimp only | with_reducible refine State.frame_mk ?_ ?_

theorem State.railOut_frame {anc : State} {M : Nat} {s : State} (hm : Sub 0x8100000000000000000000000000000000 M) (hk : anc.Within M s) : anc.Within M (State.railOut s) := by
  unfold State.railOut
  repeat' first
    | with_reducible assumption | with_reducible refine State.setPwrgd_frame ?_ ?_ | with_reducible exact hm.mono (by decide)
    | dsimp only

theorem State.sbNack_frame {anc : State} {M : Nat} {s : State} (hm : Sub 0x8000000000001801000000000000000000 M) (hk : anc.Within M s) : anc.Within M (State.sbNack s) := by
  unfold State.sbNack
  repeat' first
    | with_reducible assumption | with_reducible refine State.emit_frame ?_ ?_ | with_reducible refine State.setInt_frame ?_ ?_ ?_
    | with_reducible refine State.inc_frame ?_ ?_ | with_reducible exact hm.mono (by decide)
    | with_reducible exact hm.bit (by decide)
    | ((with_reducible refine page_bit (B := ?_) (n := ?_) (k := ?_) hm ?_ ?_ ?_); (on_goal 4 => rfl); all_goals decide)
    | with_reducible exact corePage_bit hm (by decide) (by decide) (by decide) | dsimp only

theorem State.sbServe_frame {anc : State} {M : Nat} {s : State} {pecOk early : Bool} {act : State → State × List Nat} (hm : Sub 0x8000000000001801000000000000000000 M)
    (hact : ∀ t, anc.Within M t → anc.Within M (act t).1) (hk : anc.Within M s) : anc.Within M (State.sbServe s pecOk early act) := by
  unfold State.sbServe
  repeat' first
    | with_reducible assumption
    | with_reducible refine hact _ ?_
    | with_reducible refine State.inc_frame ?_ ?_
    | with_reducible refine State.emit_frame ?_ ?_
    | with_reducible refine State.sbNack_frame ?_ ?_
    | with_reducible refine State.each_frame ?_ ?_
    | with_reducible refine foldl_frame ?_ ?_
    | with_reducible refine foldl_frame_pair ?_ ?_
    | with_reducible refine foldl_frame_triple ?_ ?_
    | with_reducible refine State.when_frame ?_ ?_
    | intro _
    | with_reducible refine ite_frame ?_ ?_
    | with_reducible exact hm.mono (by decide)
    | with_reducible exact hm.bit (by decide)
    | ((with_reducible refine page_bit (B := ?_) (n := ?_) (k := ?_) hm ?_ ?_ ?_); (on_goal 4 => rfl); all_goals decide)
    | with_reducible exact corePage_bit hm (by decide) (by decide) (by decide)
    | simp only [or_true, true_and, and_true]
    | with_reducible refine And.intro ?_ ?_
    | with_reducible exact .inl (hm.bit (by decide))
    | split
    | dsimp only
    | with_reducible refine State.frame_mk ?_ ?_

theorem State.endAlert_frame {anc : State} {M : Nat} {s : State} (hm : Sub 0x8100000000000000000000000000000000 M) (hk : anc.Within M s) : anc.Within M (State.endAlert s) := by
  unfold State.endAlert
  repeat' first
    | with_reducible assumption | with_reducible refine State.emit_frame ?_ ?_ | with_reducible refine ite_frame ?_ ?_
    | with_reducible exact hm.mono (by decide) | with_reducible exact hm.bit (by decide) | simp only [or_true, true_and, and_true]
    | with_reducible refine And.intro ?_ ?_ | with_reducible exact .inl (hm.bit (by decide)) | split | dsimp only
    | with_reducible refine State.frame_mk ?_ ?_

theorem State.sbIdent_frame {anc : State} {M : Nat} {s : State} {pecOk : Bool} {early : Bool} (hm : Sub 0x8000000000001801000000000000000001 M) (hk : anc.Within M s) : anc.Within M (State.sbIdent s pecOk early) := by
  unfold State.sbIdent
  repeat' first
    | with_reducible assumption | with_reducible refine State.sbServe_frame ?_ ?_ ?_ | intro _
    | with_reducible exact hm.mono (by decide) | dsimp only

theorem State.sbState_frame {anc : State} {M : Nat} {s : State} {pecOk : Bool} {early : Bool} (hm : Sub 0x8100000000001801000000000000000001 M) (hk : anc.Within M s) : anc.Within M (State.sbState s pecOk early) := by
  unfold State.sbState
  repeat' first
    | with_reducible assumption | with_reducible refine State.sbServe_frame ?_ ?_ ?_
    | with_reducible refine State.endAlert_frame ?_ ?_ | intro _ | with_reducible exact hm.mono (by decide) | dsimp only

theorem State.sbThermal_frame {anc : State} {M : Nat} {s : State} {pecOk : Bool} {early : Bool} (hm : Sub 0x8000000000001801020000000000000000 M) (hk : anc.Within M s) : anc.Within M (State.sbThermal s pecOk early) := by
  unfold State.sbThermal
  repeat' first
    | with_reducible assumption | with_reducible refine State.sbServe_frame ?_ ?_ ?_ | with_reducible refine foldl_frame ?_ ?_
    | intro _ | with_reducible exact hm.mono (by decide) | dsimp only

theorem State.sbPower_frame {anc : State} {M : Nat} {s : State} {pecOk : Bool} {early : Bool} (hm : Sub 0x8000000000001801040000000000000000 M) (hk : anc.Within M s) : anc.Within M (State.sbPower s pecOk early) := by
  unfold State.sbPower
  repeat' first
    | with_reducible assumption | with_reducible refine State.sbServe_frame ?_ ?_ ?_ | intro _
    | with_reducible exact hm.mono (by decide) | dsimp only

theorem State.sbBoardCap_frame {anc : State} {M : Nat} {s : State} {pecOk : Bool} {w : Nat} (hm : Sub 0x8000000000001801040000000000000000 M) (hk : anc.Within M s) : anc.Within M (State.sbBoardCap s pecOk w) := by
  unfold State.sbBoardCap
  repeat' first
    | with_reducible assumption | with_reducible refine State.sbNack_frame ?_ ?_ | with_reducible refine State.sbServe_frame ?_ ?_ ?_
    | with_reducible refine State.formCap_frame ?_ ?_ | with_reducible refine State.wf_frame ?_ ?_ | intro _
    | with_reducible refine ite_frame ?_ ?_ | with_reducible exact hm.mono (by decide) | with_reducible exact hm.bit (by decide)
    | split | dsimp only

theorem State.sbFaults_frame {anc : State} {M : Nat} {s : State} {pecOk : Bool} {early : Bool} (hm : Sub 0x8100000000001801000000000000000000 M) (hk : anc.Within M s) : anc.Within M (State.sbFaults s pecOk early) := by
  unfold State.sbFaults
  repeat' first
    | with_reducible assumption | with_reducible refine State.sbServe_frame ?_ ?_ ?_
    | with_reducible refine State.endAlert_frame ?_ ?_ | intro _ | with_reducible exact hm.mono (by decide) | dsimp only

theorem State.clearFaults_frame {anc : State} {M : Nat} {s : State} {mask : Nat} (hm : Sub 0x1000000000000000000 M) (hk : anc.Within M s) : anc.Within M (State.clearFaults s mask) := by
  unfold State.clearFaults
  repeat' first
    | with_reducible assumption | with_reducible refine State.wf_frame ?_ ?_ | with_reducible exact hm.mono (by decide)
    | with_reducible exact hm.bit (by decide) | dsimp only

theorem State.sbFaultClear_frame {anc : State} {M : Nat} {s : State} {pecOk : Bool} {mask : Nat} (hm : Sub 0x8000000000001801000000000000000000 M) (hk : anc.Within M s) : anc.Within M (State.sbFaultClear s pecOk mask) := by
  unfold State.sbFaultClear
  repeat' first
    | with_reducible assumption | with_reducible refine State.sbServe_frame ?_ ?_ ?_
    | with_reducible refine State.clearFaults_frame ?_ ?_ | intro _ | with_reducible exact hm.mono (by decide) | dsimp only

theorem State.sbSetdasa_frame {anc : State} {M : Nat} {s : State} {static : Nat} {dyn : Nat} (hm : Sub 0x100000000000001000000000000000000 M) (hk : anc.Within M s) : anc.Within M (State.sbSetdasa s static dyn) := by
  unfold State.sbSetdasa
  repeat' first
    | with_reducible assumption | with_reducible refine ite_frame ?_ ?_ | with_reducible exact hm.mono (by decide)
    | with_reducible exact hm.bit (by decide) | simp only [or_true, true_and, and_true] | with_reducible refine And.intro ?_ ?_
    | with_reducible exact .inl (hm.bit (by decide)) | split | dsimp only | with_reducible refine State.frame_mk ?_ ?_

theorem State.sbEntdaa_frame {anc : State} {M : Nat} {s : State} {dyn : Nat} (hm : Sub 0x100000000000000000000000000000000 M) (hk : anc.Within M s) : anc.Within M (State.sbEntdaa s dyn) := by
  unfold State.sbEntdaa
  repeat' first
    | with_reducible assumption | with_reducible refine ite_frame ?_ ?_ | with_reducible exact hm.mono (by decide)
    | with_reducible exact hm.bit (by decide) | simp only [or_true, true_and, and_true] | with_reducible refine And.intro ?_ ?_
    | with_reducible exact .inl (hm.bit (by decide)) | split | dsimp only | with_reducible refine State.frame_mk ?_ ?_

theorem execPowerLoss_frame {anc : State} {M : Nat} {s : State} (hm : Sub 0x1ffffffffffffffffffffffffffffffffff M) (hk : anc.Within M s) : ∃ out, execPowerLoss s = .next out ∧ anc.Within M out := by
  unfold execPowerLoss
  refine ⟨_, rfl, ?_⟩
  repeat' first
    | with_reducible assumption | with_reducible refine State.powerGone_frame ?_ ?_ | with_reducible exact hm.mono (by decide)
    | dsimp only

theorem execInputReversed_frame {anc : State} {M : Nat} {s : State} (hm : Sub 0x1ffffffffffffffffffffffffffffffffff M) (hk : anc.Within M s) : ∃ out, execInputReversed s = .next out ∧ anc.Within M out := by
  unfold execInputReversed
  refine ⟨_, rfl, ?_⟩
  repeat' first
    | with_reducible assumption | with_reducible refine State.inputReversed_frame ?_ ?_ | with_reducible exact hm.mono (by decide)
    | dsimp only

theorem execResetNAssert_frame {anc : State} {M : Nat} {s : State} (hm : Sub 0x1ffffffffffffffffffffffffffffffffff M) (hk : anc.Within M s) : ∃ out, execResetNAssert s = .next out ∧ anc.Within M out := by
  unfold execResetNAssert
  refine ⟨_, rfl, ?_⟩
  repeat' first
    | with_reducible assumption | with_reducible refine State.resetAssert_frame ?_ ?_ | with_reducible exact hm.mono (by decide)
    | dsimp only

theorem execSbSetdasa_frame {anc : State} {M : Nat} {static : Nat} {dyn : Nat} {s : State} (hm : Sub 0x100000000000001000000000000000000 M) (hk : anc.Within M s) : ∃ out, execSbSetdasa static dyn s = .next out ∧ anc.Within M out := by
  unfold execSbSetdasa
  refine ⟨_, rfl, ?_⟩
  repeat' first
    | with_reducible assumption | with_reducible refine State.sbSetdasa_frame ?_ ?_ | with_reducible exact hm.mono (by decide)
    | dsimp only

theorem execSbEntdaa_frame {anc : State} {M : Nat} {dyn : Nat} {s : State} (hm : Sub 0x100000000000000000000000000000000 M) (hk : anc.Within M s) : ∃ out, execSbEntdaa dyn s = .next out ∧ anc.Within M out := by
  unfold execSbEntdaa
  refine ⟨_, rfl, ?_⟩
  repeat' first
    | with_reducible assumption | with_reducible refine State.sbEntdaa_frame ?_ ?_ | with_reducible exact hm.mono (by decide)
    | dsimp only

theorem execSbIdent_frame {anc : State} {M : Nat} {pecOk : Bool} {early : Bool} {s : State} (hm : Sub 0x8000000000001801000000000000000001 M) (hk : anc.Within M s) : ∃ out, execSbIdent pecOk early s = .next out ∧ anc.Within M out := by
  unfold execSbIdent
  refine ⟨_, rfl, ?_⟩
  repeat' first
    | with_reducible assumption | with_reducible refine State.sbIdent_frame ?_ ?_ | with_reducible exact hm.mono (by decide)
    | dsimp only

theorem execSbState_frame {anc : State} {M : Nat} {pecOk : Bool} {early : Bool} {s : State} (hm : Sub 0x8100000000001801000000000000000001 M) (hk : anc.Within M s) : ∃ out, execSbState pecOk early s = .next out ∧ anc.Within M out := by
  unfold execSbState
  refine ⟨_, rfl, ?_⟩
  repeat' first
    | with_reducible assumption | with_reducible refine State.sbState_frame ?_ ?_ | with_reducible exact hm.mono (by decide)
    | dsimp only

theorem execSbThermal_frame {anc : State} {M : Nat} {pecOk : Bool} {early : Bool} {s : State} (hm : Sub 0x8000000000001801020000000000000000 M) (hk : anc.Within M s) : ∃ out, execSbThermal pecOk early s = .next out ∧ anc.Within M out := by
  unfold execSbThermal
  refine ⟨_, rfl, ?_⟩
  repeat' first
    | with_reducible assumption | with_reducible refine State.sbThermal_frame ?_ ?_ | with_reducible exact hm.mono (by decide)
    | dsimp only

theorem execSbPower_frame {anc : State} {M : Nat} {pecOk : Bool} {early : Bool} {s : State} (hm : Sub 0x8000000000001801040000000000000000 M) (hk : anc.Within M s) : ∃ out, execSbPower pecOk early s = .next out ∧ anc.Within M out := by
  unfold execSbPower
  refine ⟨_, rfl, ?_⟩
  repeat' first
    | with_reducible assumption | with_reducible refine State.sbPower_frame ?_ ?_ | with_reducible exact hm.mono (by decide)
    | dsimp only

theorem execSbBoardCap_frame {anc : State} {M : Nat} {pecOk : Bool} {watts : Nat} {s : State} (hm : Sub 0x8000000000001801040000000000000000 M) (hk : anc.Within M s) : ∃ out, execSbBoardCap pecOk watts s = .next out ∧ anc.Within M out := by
  unfold execSbBoardCap
  refine ⟨_, rfl, ?_⟩
  repeat' first
    | with_reducible assumption | with_reducible refine State.sbBoardCap_frame ?_ ?_ | with_reducible exact hm.mono (by decide)
    | dsimp only

theorem execSbFaults_frame {anc : State} {M : Nat} {pecOk : Bool} {early : Bool} {s : State} (hm : Sub 0x8100000000001801000000000000000000 M) (hk : anc.Within M s) : ∃ out, execSbFaults pecOk early s = .next out ∧ anc.Within M out := by
  unfold execSbFaults
  refine ⟨_, rfl, ?_⟩
  repeat' first
    | with_reducible assumption | with_reducible refine State.sbFaults_frame ?_ ?_ | with_reducible exact hm.mono (by decide)
    | dsimp only

theorem execSbFaultClear_frame {anc : State} {M : Nat} {pecOk : Bool} {mask : Nat} {s : State} (hm : Sub 0x8000000000001801000000000000000000 M) (hk : anc.Within M s) : ∃ out, execSbFaultClear pecOk mask s = .next out ∧ anc.Within M out := by
  unfold execSbFaultClear
  refine ⟨_, rfl, ?_⟩
  repeat' first
    | with_reducible assumption | with_reducible refine State.sbFaultClear_frame ?_ ?_ | with_reducible exact hm.mono (by decide)
    | dsimp only

theorem execPowerApplied_frame {anc : State} {M : Nat} {s : State} (hm : Sub 0x8100000000007801000000000000000002 M) (hk : anc.Within M s) : ∃ out, execPowerApplied s = .next out ∧ anc.Within M out := by
  unfold execPowerApplied
  refine ⟨_, rfl, ?_⟩
  repeat' first
    | with_reducible assumption | with_reducible refine State.powerApplied_frame ?_ ?_ | with_reducible exact hm.mono (by decide)
    | dsimp only

theorem execInputOvervoltage_frame {anc : State} {M : Nat} {s : State} (hm : Sub 0x1ffffffffffffffffffffffffffffffffff M) (hk : anc.Within M s) : ∃ out, execInputOvervoltage s = .next out ∧ anc.Within M out := by
  unfold execInputOvervoltage
  refine ⟨_, rfl, ?_⟩
  repeat' first
    | with_reducible assumption | with_reducible refine State.overvoltage_frame ?_ ?_ | with_reducible exact hm.mono (by decide)
    | dsimp only

theorem execRailOutOfRegulation_frame {anc : State} {M : Nat} {s : State} (hm : Sub 0x8100000000000000000000000000000000 M) (hk : anc.Within M s) : ∃ out, execRailOutOfRegulation s = .next out ∧ anc.Within M out := by
  unfold execRailOutOfRegulation
  refine ⟨_, rfl, ?_⟩
  repeat' first
    | with_reducible assumption | with_reducible refine State.railOut_frame ?_ ?_ | with_reducible exact hm.mono (by decide)
    | dsimp only

end Sys2Proof.Machine
end

