-- ==== Sys2Proof/Laws/Frame/Firmware.lean ====
section
/-! SUPPORT. Every operation and meaning of Machine/Firmware.lean changes only the register areas and parts of the state its mask names. -/

namespace Sys2Proof.Machine

set_option linter.unreachableTactic false
set_option linter.unusedTactic false

theorem State.fwOutcome_frame {anc : State} {M : Nat} {s : State} {op : Nat} {status : Nat} {version : Nat} (hm : Sub 0x7800000000000000000002 M) (hk : anc.Within M s) : anc.Within M (State.fwOutcome s op status version) := by
  unfold State.fwOutcome
  repeat' first
    | with_reducible assumption | with_reducible refine State.wf_frame ?_ ?_ | with_reducible refine State.setInt_frame ?_ ?_ ?_
    | with_reducible refine State.logEvSev_frame ?_ ?_ | with_reducible refine ite_frame ?_ ?_
    | with_reducible exact hm.mono (by decide) | with_reducible exact hm.bit (by decide)
    | ((with_reducible refine page_bit (B := ?_) (n := ?_) (k := ?_) hm ?_ ?_ ?_); (on_goal 4 => rfl); all_goals decide)
    | with_reducible exact corePage_bit hm (by decide) (by decide) (by decide) | split | dsimp only

theorem State.fwReply_frame {anc : State} {M : Nat} {s : State} {c : Cmd} {op : Nat} {status : Nat} {version : Nat} (hm : Sub 0x8000000000327800000000030000000002 M) (hk : anc.Within M s) : anc.Within M (State.fwReply s c op status version) := by
  unfold State.fwReply
  repeat' first
    | with_reducible assumption | with_reducible refine State.reply_frame ?_ ?_ | with_reducible refine State.fwOutcome_frame ?_ ?_
    | with_reducible exact hm.mono (by decide) | dsimp only

theorem State.fwStage_frame {anc : State} {M : Nat} {s : State} {c : Cmd} (hm : Sub 0x8200000000327800000000030000000002 M) (hk : anc.Within M s) : anc.Within M (State.fwStage s c) := by
  unfold State.fwStage
  repeat' first
    | with_reducible assumption | with_reducible refine State.fwReply_frame ?_ ?_
    | with_reducible refine State.takeEffect_frame ?_ ?_ | with_reducible refine State.wf_frame ?_ ?_
    | with_reducible refine State.issueRead_frame ?_ ?_ | with_reducible refine ite_frame ?_ ?_
    | with_reducible exact hm.mono (by decide) | with_reducible exact hm.bit (by decide) | simp only [or_true, true_and, and_true]
    | with_reducible refine And.intro ?_ ?_ | with_reducible exact .inl (hm.bit (by decide)) | split | dsimp only
    | with_reducible refine State.frame_mk ?_ ?_

theorem State.fwActivate_frame {anc : State} {M : Nat} {s : State} {c : Cmd} (hm : Sub 0x1ffffffffffffffffffffffffffffffffff M) (hk : anc.Within M s) : anc.Within M (State.fwActivate s c) := by
  unfold State.fwActivate
  repeat' first
    | with_reducible assumption | with_reducible refine State.fwReply_frame ?_ ?_ | with_reducible refine State.coldStart_frame ?_ ?_
    | with_reducible refine ite_frame ?_ ?_ | with_reducible exact hm.mono (by decide) | with_reducible exact hm.bit (by decide)
    | with_reducible exact hm.any (by decide) _ | with_reducible exact hm.anyPage (by decide) _
    | with_reducible exact slotVersionF_bit hm (by decide) | simp only [or_true, true_and, and_true]
    | with_reducible refine And.intro ?_ ?_ | with_reducible exact .inl (hm.bit (by decide)) | split | dsimp only
    | with_reducible refine State.frame_mk ?_ ?_

theorem State.fwCommit_frame {anc : State} {M : Nat} {s : State} {c : Cmd} (hm : Sub 0x8000000000327800000000030000000012 M) (hk : anc.Within M s) : anc.Within M (State.fwCommit s c) := by
  unfold State.fwCommit
  repeat' first
    | with_reducible assumption | with_reducible refine State.fwReply_frame ?_ ?_ | with_reducible refine State.wf_frame ?_ ?_
    | with_reducible refine State.commitTrial_frame ?_ ?_ | with_reducible refine State.reply_frame ?_ ?_
    | with_reducible refine State.setInt_frame ?_ ?_ ?_ | with_reducible refine ite_frame ?_ ?_
    | with_reducible exact hm.mono (by decide) | with_reducible exact hm.bit (by decide)
    | ((with_reducible refine page_bit (B := ?_) (n := ?_) (k := ?_) hm ?_ ?_ ?_); (on_goal 4 => rfl); all_goals decide)
    | with_reducible exact corePage_bit hm (by decide) (by decide) (by decide) | with_reducible exact slotVersionF_bit hm (by decide)
    | split | dsimp only

theorem State.fwDiscard_frame {anc : State} {M : Nat} {s : State} {c : Cmd} (hm : Sub 0x8000000000327800000000030000000002 M) (hk : anc.Within M s) : anc.Within M (State.fwDiscard s c) := by
  unfold State.fwDiscard
  repeat' first
    | with_reducible assumption | with_reducible refine State.fwReply_frame ?_ ?_ | with_reducible refine State.wf_frame ?_ ?_
    | with_reducible refine ite_frame ?_ ?_ | with_reducible exact hm.mono (by decide) | with_reducible exact hm.bit (by decide)
    | with_reducible exact slotStateF_bit hm (by decide) | with_reducible exact slotVersionF_bit hm (by decide) | split | dsimp only

theorem State.fwUpdate_frame {anc : State} {M : Nat} {s : State} {i : Instr} {c : Cmd} (hm : Sub 0x1ffffffffffffffffffffffffffffffffff M) (hk : anc.Within M s) : anc.Within M (State.fwUpdate s i c) := by
  unfold State.fwUpdate
  repeat' first
    | with_reducible assumption | with_reducible refine State.vorane_frame ?_ ?_ ?_ | with_reducible refine State.fwReply_frame ?_ ?_
    | with_reducible refine State.fwStage_frame ?_ ?_ | with_reducible refine State.fwActivate_frame ?_ ?_
    | with_reducible refine State.fwCommit_frame ?_ ?_ | with_reducible refine State.fwDiscard_frame ?_ ?_ | intro _
    | with_reducible refine ite_frame ?_ ?_ | with_reducible exact hm.mono (by decide) | split | dsimp only

theorem State.fwForward_frame {anc : State} {M : Nat} {s : State} {next : Nat} {version : Nat} (hm : Sub 0xe200000000007800000003000000000002 M) (hk : anc.Within M s) : anc.Within M (State.fwForward s next version) := by
  unfold State.fwForward
  repeat' first
    | with_reducible assumption | with_reducible refine State.sendBulk_frame ?_ ?_ | with_reducible refine State.wf_frame ?_ ?_
    | with_reducible exact hm.mono (by decide) | with_reducible exact hm.bit (by decide) | simp only [or_true, true_and, and_true]
    | with_reducible refine And.intro ?_ ?_ | with_reducible exact .inl (hm.bit (by decide)) | dsimp only
    | with_reducible refine State.frame_mk ?_ ?_

theorem State.fwStageDone_frame {anc : State} {M : Nat} {s : State} {status : Nat} {version : Nat} {security : Nat} {raise : Bool} {bytes : Nat} {sections : List Nat} (hm : Sub 0xe200000000327800000003030000000002 M) (hk : anc.Within M s) : anc.Within M (State.fwStageDone s status version security raise bytes sections) := by
  unfold State.fwStageDone
  repeat' first
    | with_reducible assumption | with_reducible refine State.fwAsk_frame ?_ ?_ | with_reducible refine State.readDone_frame ?_ ?_
    | with_reducible refine State.wf_frame ?_ ?_ | with_reducible refine State.inc_frame ?_ ?_
    | with_reducible refine State.fwForward_frame ?_ ?_ | with_reducible refine State.bulkAck_frame ?_ ?_
    | with_reducible refine State.finish_frame ?_ ?_ | with_reducible refine State.fwOutcome_frame ?_ ?_
    | with_reducible refine foldl_frame ?_ ?_ | intro _ | with_reducible refine ite_frame ?_ ?_
    | with_reducible exact hm.mono (by decide) | with_reducible exact hm.bit (by decide)
    | ((with_reducible refine page_bit (B := ?_) (n := ?_) (k := ?_) hm ?_ ?_ ?_); (on_goal 4 => rfl); all_goals decide)
    | with_reducible exact corePage_bit hm (by decide) (by decide) (by decide) | with_reducible exact slotStateF_bit hm (by decide)
    | with_reducible exact slotVersionF_bit hm (by decide) | with_reducible exact slotSecurityF_bit hm (by decide)
    | simp only [or_true, true_and, and_true] | with_reducible refine And.intro ?_ ?_
    | with_reducible exact .inl (hm.bit (by decide)) | split | dsimp only | with_reducible refine State.frame_mk ?_ ?_

theorem State.fwChunk_frame {anc : State} {M : Nat} {s : State} {f : Frame} (hm : Sub 0xe200000000007800000003000000000002 M) (hk : anc.Within M s) : anc.Within M (State.fwChunk s f) := by
  unfold State.fwChunk
  repeat' first
    | with_reducible assumption | with_reducible refine State.bulkAck_frame ?_ ?_ | with_reducible refine ite_frame ?_ ?_
    | with_reducible exact hm.mono (by decide) | with_reducible exact hm.bit (by decide) | simp only [or_true, true_and, and_true]
    | with_reducible refine And.intro ?_ ?_ | with_reducible exact .inl (hm.bit (by decide)) | split | dsimp only
    | with_reducible refine State.frame_mk ?_ ?_

theorem State.handover_frame {anc : State} {M : Nat} {s : State} {ck : Nat} (hm : Sub 0x100000000200000 M) (hk : anc.Within M s) : anc.Within M (State.handover s ck) := by
  unfold State.handover
  repeat' first
    | with_reducible assumption | with_reducible refine State.wf_frame ?_ ?_ | with_reducible refine State.each_frame ?_ ?_ | intro _
    | with_reducible refine ite_frame ?_ ?_ | with_reducible exact hm.mono (by decide) | with_reducible exact hm.bit (by decide)
    | split | dsimp only

theorem State.imageChunk_frame {anc : State} {M : Nat} {s : State} {ck : Nat} {n : Nat} {data : List Nat} (hm : Sub 0x1006000000000000004000000000000 M) (hk : anc.Within M s) : anc.Within M (State.imageChunk s ck n data) := by
  unfold State.imageChunk
  repeat' first
    | with_reducible assumption | with_reducible refine State.sramMark_frame ?_ ?_
    | with_reducible refine State.sramWrite_frame ?_ ?_ | with_reducible refine State.wf_frame ?_ ?_
    | with_reducible refine State.setSc_frame ?_ ?_ | with_reducible refine foldl_frame ?_ ?_ | intro _
    | with_reducible refine ite_frame ?_ ?_ | with_reducible exact hm.mono (by decide) | with_reducible exact hm.bit (by decide)
    | split | dsimp only

theorem State.imageEnd_frame {anc : State} {M : Nat} {s : State} {ck : Nat} {count : Nat} {digest : Nat} (hm : Sub 0x1000000000000000000000000000000 M) (hk : anc.Within M s) : anc.Within M (State.imageEnd s ck count digest) := by
  unfold State.imageEnd
  repeat' first
    | with_reducible assumption | with_reducible refine State.setSc_frame ?_ ?_ | with_reducible refine ite_frame ?_ ?_
    | with_reducible exact hm.mono (by decide) | split | dsimp only

theorem State.imageIdle_frame {anc : State} {M : Nat} {s : State} (hm : Sub 0x4000000000000 M) (hk : anc.Within M s) : anc.Within M (State.imageIdle s) := by
  unfold State.imageIdle
  repeat' first
    | with_reducible assumption | with_reducible refine State.wf_frame ?_ ?_ | with_reducible refine ite_frame ?_ ?_
    | with_reducible exact hm.mono (by decide) | with_reducible exact hm.bit (by decide) | split | dsimp only

theorem State.imageReport_frame {anc : State} {M : Nat} {s : State} {ck : Nat} (hm : Sub 0xe001000000007800000107000000200002 M) (hk : anc.Within M s) : anc.Within M (State.imageReport s ck) := by
  unfold State.imageReport
  repeat' first
    | with_reducible assumption | with_reducible refine State.imageIdle_frame ?_ ?_ | with_reducible refine State.setSc_frame ?_ ?_
    | with_reducible refine State.scoreStart_frame ?_ ?_ | with_reducible refine State.wf_frame ?_ ?_
    | with_reducible refine State.setInt_frame ?_ ?_ ?_ | with_reducible refine State.inc_frame ?_ ?_
    | with_reducible refine State.handover_frame ?_ ?_ | with_reducible refine State.suspect_frame ?_ ?_
    | with_reducible refine State.mesh_frame ?_ ?_ | with_reducible refine ite_frame ?_ ?_ | with_reducible exact hm.mono (by decide)
    | with_reducible exact hm.bit (by decide)
    | ((with_reducible refine page_bit (B := ?_) (n := ?_) (k := ?_) hm ?_ ?_ ?_); (on_goal 4 => rfl); all_goals decide)
    | with_reducible exact corePage_bit hm (by decide) (by decide) (by decide) | split | dsimp only

theorem execFwUpdateStage_frame {anc : State} {M : Nat} {c : Cmd} {s : State} (hm : Sub 0x1ffffffffffffffffffffffffffffffffff M) (hk : anc.Within M s) : ∃ out, execFwUpdateStage c s = .next out ∧ anc.Within M out := by
  unfold execFwUpdateStage
  refine ⟨_, rfl, ?_⟩
  repeat' first
    | with_reducible assumption | with_reducible refine State.fwUpdate_frame ?_ ?_ | with_reducible exact hm.mono (by decide)
    | dsimp only

theorem execFwUpdateActivate_frame {anc : State} {M : Nat} {c : Cmd} {s : State} (hm : Sub 0x1ffffffffffffffffffffffffffffffffff M) (hk : anc.Within M s) : ∃ out, execFwUpdateActivate c s = .next out ∧ anc.Within M out := by
  unfold execFwUpdateActivate
  refine ⟨_, rfl, ?_⟩
  repeat' first
    | with_reducible assumption | with_reducible refine State.fwUpdate_frame ?_ ?_ | with_reducible exact hm.mono (by decide)
    | dsimp only

theorem execFwUpdateCommit_frame {anc : State} {M : Nat} {c : Cmd} {s : State} (hm : Sub 0x1ffffffffffffffffffffffffffffffffff M) (hk : anc.Within M s) : ∃ out, execFwUpdateCommit c s = .next out ∧ anc.Within M out := by
  unfold execFwUpdateCommit
  refine ⟨_, rfl, ?_⟩
  repeat' first
    | with_reducible assumption | with_reducible refine State.fwUpdate_frame ?_ ?_ | with_reducible exact hm.mono (by decide)
    | dsimp only

theorem execFwUpdateDiscard_frame {anc : State} {M : Nat} {c : Cmd} {s : State} (hm : Sub 0x1ffffffffffffffffffffffffffffffffff M) (hk : anc.Within M s) : ∃ out, execFwUpdateDiscard c s = .next out ∧ anc.Within M out := by
  unfold execFwUpdateDiscard
  refine ⟨_, rfl, ?_⟩
  repeat' first
    | with_reducible assumption | with_reducible refine State.fwUpdate_frame ?_ ?_ | with_reducible exact hm.mono (by decide)
    | dsimp only

theorem execFwStageDone_frame {anc : State} {M : Nat} {status : Nat} {version : Nat} {security : Nat} {raise : Bool} {image : FwImage} {s : State} (hm : Sub 0xe200000000327800000003030000000002 M) (hk : anc.Within M s) : ∃ out, execFwStageDone status version security raise image s = .next out ∧ anc.Within M out := by
  unfold execFwStageDone
  refine ⟨_, rfl, ?_⟩
  repeat' first
    | with_reducible assumption | with_reducible refine State.fwStageDone_frame ?_ ?_ | with_reducible exact hm.mono (by decide)
    | dsimp only

theorem execFwChunk_frame {anc : State} {M : Nat} {f : Frame} {s : State} (hm : Sub 0xe200000000007800000003000000000002 M) (hk : anc.Within M s) : ∃ out, execFwChunk f s = .next out ∧ anc.Within M out := by
  unfold execFwChunk
  refine ⟨_, rfl, ?_⟩
  repeat' first
    | with_reducible assumption | with_reducible refine State.fwChunk_frame ?_ ?_ | with_reducible exact hm.mono (by decide)
    | dsimp only

theorem execCoreImageChunk_frame {anc : State} {M : Nat} {ck : Nat} {n : Nat} {data : List Nat} {s : State} (hm : Sub 0x1006000000000000004000000000000 M) (hk : anc.Within M s) : ∃ out, execCoreImageChunk ck n data s = .next out ∧ anc.Within M out := by
  unfold execCoreImageChunk
  refine ⟨_, rfl, ?_⟩
  repeat' first
    | with_reducible assumption | with_reducible refine State.imageChunk_frame ?_ ?_ | with_reducible exact hm.mono (by decide)
    | dsimp only

theorem execCoreImageEnd_frame {anc : State} {M : Nat} {ck : Nat} {count : Nat} {digest : Nat} {s : State} (hm : Sub 0x1000000000000000000000000000000 M) (hk : anc.Within M s) : ∃ out, execCoreImageEnd ck count digest s = .next out ∧ anc.Within M out := by
  unfold execCoreImageEnd
  refine ⟨_, rfl, ?_⟩
  repeat' first
    | with_reducible assumption | with_reducible refine State.imageEnd_frame ?_ ?_ | with_reducible exact hm.mono (by decide)
    | dsimp only

theorem execCoreImageReport_frame {anc : State} {M : Nat} {ck : Nat} {s : State} (hm : Sub 0xe001000000007800000107000000200002 M) (hk : anc.Within M s) : ∃ out, execCoreImageReport ck s = .next out ∧ anc.Within M out := by
  unfold execCoreImageReport
  refine ⟨_, rfl, ?_⟩
  repeat' first
    | with_reducible assumption | with_reducible refine State.imageReport_frame ?_ ?_ | with_reducible exact hm.mono (by decide)
    | dsimp only

end Sys2Proof.Machine
end

