-- ==== Sys2Proof/Laws/Frame/Resets.lean ====
section
/-! SUPPORT. Every operation and meaning of Machine/Resets.lean changes only the register areas and parts of the state its mask names. -/

namespace Sys2Proof.Machine

set_option linter.unreachableTactic false
set_option linter.unusedTactic false

theorem State.pagesReset_frame {anc : State} {M : Nat} {s : State} {dom : Dom} (hm : Sub 0xffffffffffffffffffff M) (hk : anc.Within M s) :
    anc.Within M (State.pagesReset s dom) := State.frame_regs (fun f => hm.any (by decide) f) hk

theorem State.setDom_frame {anc : State} {M : Nat} {s : State} {d : Dom} {clu part die : Field} {v : Nat} (_hm : Sub 0x0 M)
    (hc : M.testBit clu.area = true) (hp : M.testBit part.area = true) (hd : M.testBit die.area = true) (hk : anc.Within M s) :
    anc.Within M (State.setDom s d clu part die v) := by
  cases d
  · exact hk
  · exact State.wf_frame hc hk
  · exact State.wf_frame hp hk
  · exact State.wf_frame hd hk

theorem domPage_bit {a b : Nat} {d : Dom} (hm : Sub a b) (h0 : a.testBit 16 = true) (h1 : a.testBit 20 = true) (h2 : a.testBit 21 = true)
    (h3 : a.testBit 10 = true) (h4 : a.testBit 9 = true) (h5 : a.testBit 8 = true) : b.testBit d.page.area = true := by
  cases d
  · exact corePage_bit hm h0 h1 h2
  · exact page_bit hm rfl (by decide) h3
  · exact page_bit hm rfl (by decide) h4
  · exact page_bit hm rfl (by decide) h5

theorem State.setRst_frame {anc : State} {M : Nat} {s : State} {x : ResetRec} (hm : Sub 0x10000000000000000000000000000000 M) (hk : anc.Within M s) : anc.Within M (State.setRst s x) := by
  unfold State.setRst
  repeat' first
    | with_reducible assumption | with_reducible refine ite_frame ?_ ?_ | with_reducible exact hm.mono (by decide)
    | with_reducible exact hm.bit (by decide) | simp only [or_true, true_and, and_true] | with_reducible refine And.intro ?_ ?_
    | with_reducible exact .inl (hm.bit (by decide)) | split | dsimp only | with_reducible refine State.frame_mk ?_ ?_

theorem State.dieEnd_frame {anc : State} {M : Nat} {s : State} {id : Nat} (hm : Sub 0x803e1d007800000700000100110002 M) (hk : anc.Within M s) : anc.Within M (State.dieEnd s id) := by
  unfold State.dieEnd
  repeat' first
    | with_reducible assumption | with_reducible refine State.setReq_frame ?_ ?_ | with_reducible refine State.setCtx_frame ?_ ?_
    | with_reducible refine State.fixOutcome_frame ?_ ?_ | with_reducible refine State.takeEnd_frame ?_ ?_
    | with_reducible refine ite_frame ?_ ?_ | with_reducible exact hm.mono (by decide) | split | dsimp only

theorem State.cutCommands_frame {anc : State} {M : Nat} {s : State} (hm : Sub 0x8000000000b60000000000030000000004 M) (hk : anc.Within M s) : anc.Within M (State.cutCommands s) := by
  unfold State.cutCommands
  repeat' first
    | with_reducible assumption | with_reducible refine State.cutCmd_frame ?_ ?_ | with_reducible refine State.setCmd_frame ?_ ?_
    | with_reducible refine State.each_frame ?_ ?_ | intro _ | with_reducible exact hm.mono (by decide) | dsimp only

theorem State.retain_frame {anc : State} {M : Nat} {s : State} (hm : Sub 0x100000000000000000000000100000000 M) (hk : anc.Within M s) : anc.Within M (State.retain s) := by
  unfold State.retain
  repeat' first
    | with_reducible assumption | with_reducible exact hm.mono (by decide) | with_reducible exact hm.bit (by decide)
    | simp only [or_true, true_and, and_true] | with_reducible refine And.intro ?_ ?_
    | with_reducible exact .inl (hm.bit (by decide)) | dsimp only | with_reducible refine State.frame_mk ?_ ?_

theorem State.loseHops_frame {anc : State} {M : Nat} {s : State} (hm : Sub 0x7800000002000000000002 M) (hk : anc.Within M s) : anc.Within M (State.loseHops s) := by
  unfold State.loseHops
  repeat' first
    | with_reducible assumption | with_reducible refine State.logEvSev_frame ?_ ?_ | with_reducible refine State.each_frame ?_ ?_
    | intro _ | with_reducible refine ite_frame ?_ ?_ | with_reducible exact hm.mono (by decide) | split | dsimp only

theorem State.dieCut_frame {anc : State} {M : Nat} {s0 : State} (hm : Sub 0xebc0803e3df67800000702030100110006 M) (hk : anc.Within M s0) : anc.Within M (State.dieCut s0) := by
  unfold State.dieCut
  repeat' first
    | with_reducible assumption | with_reducible refine State.loseHops_frame ?_ ?_ | with_reducible refine State.retain_frame ?_ ?_
    | with_reducible refine State.abandonStage_frame ?_ ?_ | with_reducible refine State.cutCommands_frame ?_ ?_
    | with_reducible refine State.dieEnd_frame ?_ ?_ | with_reducible refine State.qpLeave_frame ?_ ?_
    | with_reducible refine State.each_frame ?_ ?_ | with_reducible refine foldl_frame ?_ ?_ | intro _
    | with_reducible exact hm.mono (by decide) | with_reducible exact hm.bit (by decide) | simp only [or_true, true_and, and_true]
    | with_reducible refine And.intro ?_ ?_ | with_reducible exact .inl (hm.bit (by decide)) | dsimp only
    | with_reducible refine State.frame_mk ?_ ?_

theorem State.partCut_frame {anc : State} {M : Nat} {s : State} {cores : List Nat} (hm : Sub 0x803e7d007800000700000100110002 M) (hk : anc.Within M s) : anc.Within M (State.partCut s cores) := by
  unfold State.partCut
  repeat' first
    | with_reducible assumption | with_reducible refine State.loseKv_frame ?_ ?_ | with_reducible refine State.each_frame ?_ ?_
    | intro _ | with_reducible exact hm.mono (by decide) | with_reducible exact hm.bit (by decide)
    | simp only [or_true, true_and, and_true] | with_reducible refine And.intro ?_ ?_
    | with_reducible exact .inl (hm.bit (by decide)) | dsimp only | with_reducible refine State.frame_mk ?_ ?_

theorem State.cutOne_frame {anc : State} {M : Nat} {s : State} {dom : Dom} {ck : Nat} (hm : Sub 0xe04fce80000078800000030000001f0002 M) (hk : anc.Within M s) : anc.Within M (State.cutOne s dom ck) := by
  unfold State.cutOne
  repeat' first
    | with_reducible assumption | with_reducible refine State.progInterrupt_frame ?_ ?_
    | with_reducible refine State.kvReply_frame ?_ ?_ | with_reducible refine State.cutCoreClock_frame ?_ ?_
    | with_reducible refine State.each_frame ?_ ?_ | intro _ | with_reducible refine ite_frame ?_ ?_
    | with_reducible exact hm.mono (by decide) | split | dsimp only

theorem State.mirrorProg_frame {anc : State} {M : Nat} {s : State} {dom : Dom} {before : State} (hm : Sub 0x480000018000000000000000c0000 M) (hk : anc.Within M s) : anc.Within M (State.mirrorProg s dom before) := by
  unfold State.mirrorProg
  repeat' first
    | with_reducible assumption | with_reducible refine State.setProg_frame ?_ ?_ | with_reducible refine State.setInt_frame ?_ ?_ ?_
    | with_reducible refine State.retrack_frame ?_ ?_ | with_reducible refine State.each_frame ?_ ?_ | intro _
    | with_reducible exact hm.mono (by decide) | with_reducible exact hm.bit (by decide)
    | ((with_reducible refine page_bit (B := ?_) (n := ?_) (k := ?_) hm ?_ ?_ ?_); (on_goal 4 => rfl); all_goals decide)
    | with_reducible exact corePage_bit hm (by decide) (by decide) (by decide) | dsimp only

theorem State.genChanged_frame {anc : State} {M : Nat} {s : State} {dom : Dom} (hm : Sub 0x18ffffffffffffffffffff M) (hk : anc.Within M s) : anc.Within M (State.genChanged s dom) := by
  unfold State.genChanged
  repeat' first
    | with_reducible assumption | with_reducible refine State.setInt_frame ?_ ?_ ?_ | with_reducible refine State.each_frame ?_ ?_
    | intro _ | with_reducible exact hm.mono (by decide) | with_reducible exact hm.bit (by decide)
    | ((with_reducible refine page_bit (B := ?_) (n := ?_) (k := ?_) hm ?_ ?_ ?_); (on_goal 4 => rfl); all_goals decide)
    | with_reducible exact corePage_bit hm (by decide) (by decide) (by decide) | with_reducible exact hm.any (by decide) _
    | with_reducible exact hm.anyPage (by decide) _ | dsimp only

theorem State.cut_frame {anc : State} {M : Nat} {s : State} {x : ResetRec} (hm : Sub 0xebffcebe7df67cffffffffffffffffffff M) (hk : anc.Within M s) : anc.Within M (State.cut s x) := by
  unfold State.cut
  repeat' first
    | with_reducible assumption | with_reducible refine State.bumpGen_frame ?_ ?_ | with_reducible refine State.cutOne_frame ?_ ?_
    | with_reducible refine State.dieCut_frame ?_ ?_ | with_reducible refine State.breakScores_frame ?_ ?_
    | with_reducible refine State.interruptStreams_frame ?_ ?_
    | refine State.interruptStreams_frame_eq ?_ (by with_reducible assumption) ?_
    | with_reducible refine State.interruptRoles_frame ?_ ?_
    | refine State.interruptRoles_frame_eq ?_ (by with_reducible assumption) ?_ | with_reducible refine State.partCut_frame ?_ ?_
    | with_reducible refine State.genChanged_frame ?_ ?_ | with_reducible refine State.mirrorProg_frame ?_ ?_
    | with_reducible refine State.pagesReset_frame ?_ ?_ | with_reducible refine State.loseResiduals_frame ?_ ?_
    | with_reducible refine State.wf_frame ?_ ?_ | with_reducible refine State.setDom_frame ?_ ?_ ?_ ?_ ?_
    | with_reducible refine State.setRst_frame ?_ ?_ | with_reducible refine State.each_frame ?_ ?_
    | with_reducible refine State.when_frame ?_ ?_ | intro _ | with_reducible refine ite_frame ?_ ?_
    | with_reducible exact hm.mono (by decide) | with_reducible exact hm.bit (by decide)
    | ((with_reducible refine page_bit (B := ?_) (n := ?_) (k := ?_) hm ?_ ?_ ?_); (on_goal 4 => rfl); all_goals decide)
    | with_reducible exact corePage_bit hm (by decide) (by decide) (by decide) | with_reducible exact hm.any (by decide) _
    | with_reducible exact hm.anyPage (by decide) _ | with_reducible exact runField_bit hm (by decide) (by decide) (by decide)
    | split | dsimp only

theorem State.cutWhenFree_frame {anc : State} {M : Nat} {s : State} {x : ResetRec} (hm : Sub 0xebffcebe7df67cffffffffffffffffffff M) (hk : anc.Within M s) : anc.Within M (State.cutWhenFree s x) := by
  unfold State.cutWhenFree
  repeat' first
    | with_reducible assumption | with_reducible refine State.inc_frame ?_ ?_ | with_reducible refine State.setRst_frame ?_ ?_
    | with_reducible refine State.cut_frame ?_ ?_ | with_reducible refine ite_frame ?_ ?_ | with_reducible exact hm.mono (by decide)
    | with_reducible exact hm.bit (by decide)
    | ((with_reducible refine page_bit (B := ?_) (n := ?_) (k := ?_) hm ?_ ?_ ?_); (on_goal 4 => rfl); all_goals decide)
    | with_reducible exact corePage_bit hm (by decide) (by decide) (by decide) | with_reducible exact hm.any (by decide) _
    | with_reducible exact hm.anyPage (by decide) _ | split | dsimp only

theorem State.takeOver_frame {anc : State} {M : Nat} {s : State} {dom : Dom} (hm : Sub 0x10000000000000000000000000000700 M) (hk : anc.Within M s) : anc.Within M (State.takeOver s dom).2 := by
  unfold State.takeOver
  repeat' first
    | with_reducible assumption | with_reducible refine State.setDom_frame ?_ ?_ ?_ ?_ ?_ | with_reducible refine foldl_frame ?_ ?_
    | with_reducible refine foldl_frame_pair ?_ ?_ | with_reducible refine foldl_frame_triple ?_ ?_ | intro _
    | with_reducible exact hm.mono (by decide) | with_reducible exact hm.bit (by decide)
    | ((with_reducible refine page_bit (B := ?_) (n := ?_) (k := ?_) hm ?_ ?_ ?_); (on_goal 4 => rfl); all_goals decide)
    | with_reducible exact corePage_bit hm (by decide) (by decide) (by decide) | simp only [or_true, true_and, and_true]
    | with_reducible refine And.intro ?_ ?_ | with_reducible exact .inl (hm.bit (by decide)) | dsimp only
    | with_reducible refine State.frame_mk ?_ ?_

theorem State.takeOver_frame_eq {anc : State} {M : Nat} {s : State} {dom : Dom} (hm : Sub 0x10000000000000000000000000000700 M) {r0 tz} (heqx : State.takeOver s dom = (r0, tz)) (hk : anc.Within M s) : anc.Within M tz := by
  have := State.takeOver_frame (s := s) (dom := dom) hm hk
  rwa [heqx] at this

theorem State.startReset_frame {anc : State} {M : Nat} {s : State} {dom : Dom} {absorb : Bool} {cause : Nat} {cmd : List (Nat × Nat)} (hm : Sub 0xebffcebe7df67cffffffffffffffffffff M) (hk : anc.Within M s) : anc.Within M (State.startReset s dom absorb cause cmd) := by
  unfold State.startReset
  repeat' first
    | with_reducible assumption | with_reducible refine State.takeOver_frame ?_ ?_
    | refine State.takeOver_frame_eq ?_ (by with_reducible assumption) ?_ | with_reducible refine State.inc_frame ?_ ?_
    | with_reducible refine State.setDom_frame ?_ ?_ ?_ ?_ ?_ | with_reducible refine State.setModState_frame ?_ ?_
    | with_reducible refine State.wf_frame ?_ ?_ | with_reducible refine State.finish_frame ?_ ?_
    | with_reducible refine State.setRst_frame ?_ ?_ | with_reducible refine State.cutWhenFree_frame ?_ ?_
    | with_reducible refine State.each_frame ?_ ?_ | with_reducible refine State.when_frame ?_ ?_ | intro _
    | with_reducible refine ite_frame ?_ ?_ | with_reducible exact hm.mono (by decide) | with_reducible exact hm.bit (by decide)
    | ((with_reducible refine page_bit (B := ?_) (n := ?_) (k := ?_) hm ?_ ?_ ?_); (on_goal 4 => rfl); all_goals decide)
    | with_reducible exact corePage_bit hm (by decide) (by decide) (by decide) | with_reducible exact hm.any (by decide) _
    | with_reducible exact hm.anyPage (by decide) _ | with_reducible exact resetCountF_bit hm (by decide)
    | simp only [or_true, true_and, and_true] | with_reducible refine And.intro ?_ ?_
    | with_reducible exact .inl (hm.bit (by decide)) | split | dsimp only | with_reducible refine State.frame_mk ?_ ?_

theorem State.coldByReset_frame {anc : State} {M : Nat} {s : State} {absorb : Bool} {cause : Nat} {cmd : List (Nat × Nat)} (hm : Sub 0x1ffffffffffffffffffffffffffffffffff M) (hk : anc.Within M s) : anc.Within M (State.coldByReset s absorb cause cmd) := by
  unfold State.coldByReset
  repeat' first
    | with_reducible assumption | with_reducible refine State.finish_frame ?_ ?_ | with_reducible refine State.coldStart_frame ?_ ?_
    | with_reducible refine State.wf_frame ?_ ?_ | with_reducible refine State.each_frame ?_ ?_ | intro _
    | with_reducible exact hm.mono (by decide) | with_reducible exact hm.bit (by decide) | with_reducible exact hm.any (by decide) _
    | with_reducible exact hm.anyPage (by decide) _ | dsimp only

theorem State.deferReset_frame {anc : State} {M : Nat} {s : State} {dom : Dom} {absorb : Bool} {cause : Nat} {cold : Bool} {cmd : List (Nat × Nat)} (hm : Sub 0x100000000000000000000000000000000 M) (hk : anc.Within M s) : anc.Within M (State.deferReset s dom absorb cause cold cmd) := by
  unfold State.deferReset
  repeat' first
    | with_reducible assumption | with_reducible exact hm.mono (by decide) | with_reducible exact hm.bit (by decide)
    | simp only [or_true, true_and, and_true] | with_reducible refine And.intro ?_ ?_
    | with_reducible exact .inl (hm.bit (by decide)) | dsimp only | with_reducible refine State.frame_mk ?_ ?_

theorem State.beginReset_frame {anc : State} {M : Nat} {s : State} {dom : Dom} {absorb : Bool} {cause : Nat} {cold : Bool} {cmd : List (Nat × Nat)} (hm : Sub 0x1ffffffffffffffffffffffffffffffffff M) (hk : anc.Within M s) : anc.Within M (State.beginReset s dom absorb cause cold cmd) := by
  unfold State.beginReset
  repeat' first
    | with_reducible assumption | with_reducible refine State.deferReset_frame ?_ ?_
    | with_reducible refine State.leaveProceed_frame ?_ ?_ | with_reducible refine State.coldByReset_frame ?_ ?_
    | with_reducible refine State.startReset_frame ?_ ?_ | with_reducible refine ite_frame ?_ ?_
    | with_reducible exact hm.mono (by decide) | split | dsimp only

theorem State.lateResets_frame {anc : State} {M : Nat} {s : State} (hm : Sub 0x1ffffffffffffffffffffffffffffffffff M) (hk : anc.Within M s) : anc.Within M (State.lateResets s) := by
  unfold State.lateResets
  repeat' first
    | with_reducible assumption | with_reducible refine State.beginReset_frame ?_ ?_ | with_reducible refine foldl_frame ?_ ?_
    | intro _ | with_reducible refine ite_frame ?_ ?_ | with_reducible exact hm.mono (by decide)
    | with_reducible exact hm.bit (by decide) | with_reducible exact hm.any (by decide) _
    | with_reducible exact hm.anyPage (by decide) _ | simp only [or_true, true_and, and_true] | with_reducible refine And.intro ?_ ?_
    | with_reducible exact .inl (hm.bit (by decide)) | split | dsimp only | with_reducible refine State.frame_mk ?_ ?_

theorem State.domainReset_frame {anc : State} {M : Nat} {s : State} {i : Instr} {c : Cmd} (hm : Sub 0x1ffffffffffffffffffffffffffffffffff M) (hk : anc.Within M s) : anc.Within M (State.domainReset s i c) := by
  unfold State.domainReset
  repeat' first
    | with_reducible assumption | with_reducible refine State.vorane_frame ?_ ?_ ?_ | with_reducible refine State.reply_frame ?_ ?_
    | with_reducible refine State.takeEffect_frame ?_ ?_ | with_reducible refine State.setRst_frame ?_ ?_
    | with_reducible refine State.beginReset_frame ?_ ?_ | intro _ | with_reducible refine ite_frame ?_ ?_
    | with_reducible exact hm.mono (by decide) | split | dsimp only

theorem State.ctlReset_frame {anc : State} {M : Nat} {s : State} {dom : Dom} {absorb : Bool} {cold : Bool} {cause : Nat} (hm : Sub 0x1ffffffffffffffffffffffffffffffffff M) (hk : anc.Within M s) : anc.Within M (State.ctlReset s dom absorb cold cause) := by
  unfold State.ctlReset
  repeat' first
    | with_reducible assumption | with_reducible refine State.wf_frame ?_ ?_ | with_reducible refine State.beginReset_frame ?_ ?_
    | with_reducible refine ite_frame ?_ ?_ | with_reducible exact hm.mono (by decide) | with_reducible exact hm.bit (by decide)
    | with_reducible exact hm.any (by decide) _ | with_reducible exact hm.anyPage (by decide) _ | split | dsimp only

theorem State.drainEnd_frame {anc : State} {M : Nat} {s : State} {dom : Dom} (hm : Sub 0xebffcebe7df67cffffffffffffffffffff M) (hk : anc.Within M s) : anc.Within M (State.drainEnd s dom) := by
  unfold State.drainEnd
  repeat' first
    | with_reducible assumption | with_reducible refine State.cutWhenFree_frame ?_ ?_
    | with_reducible refine State.setDom_frame ?_ ?_ ?_ ?_ ?_ | with_reducible refine ite_frame ?_ ?_
    | with_reducible exact hm.mono (by decide) | with_reducible exact hm.bit (by decide)
    | ((with_reducible refine page_bit (B := ?_) (n := ?_) (k := ?_) hm ?_ ?_ ?_); (on_goal 4 => rfl); all_goals decide)
    | with_reducible exact corePage_bit hm (by decide) (by decide) (by decide) | with_reducible exact hm.any (by decide) _
    | with_reducible exact hm.anyPage (by decide) _ | split | dsimp only

theorem State.genWaitEnd_frame {anc : State} {M : Nat} {s : State} {dom : Dom} (hm : Sub 0xebffcebe7df67cffffffffffffffffffff M) (hk : anc.Within M s) : anc.Within M (State.genWaitEnd s dom) := by
  unfold State.genWaitEnd
  repeat' first
    | with_reducible assumption | with_reducible refine State.cut_frame ?_ ?_ | with_reducible refine ite_frame ?_ ?_
    | with_reducible exact hm.mono (by decide) | split | dsimp only

theorem State.resetPhaseEnd_frame {anc : State} {M : Nat} {s : State} {dom : Dom} (hm : Sub 0x8110000000007800000000000000000703 M) (hk : anc.Within M s) : anc.Within M (State.resetPhaseEnd s dom) := by
  unfold State.resetPhaseEnd
  repeat' first
    | with_reducible assumption | with_reducible refine State.setDom_frame ?_ ?_ ?_ ?_ ?_
    | with_reducible refine State.setRst_frame ?_ ?_ | with_reducible refine State.phaseStart_frame ?_ ?_
    | with_reducible refine ite_frame ?_ ?_ | with_reducible exact hm.mono (by decide) | with_reducible exact hm.bit (by decide)
    | ((with_reducible refine page_bit (B := ?_) (n := ?_) (k := ?_) hm ?_ ?_ ?_); (on_goal 4 => rfl); all_goals decide)
    | with_reducible exact corePage_bit hm (by decide) (by decide) (by decide) | split | dsimp only

theorem State.noteHang_frame {anc : State} {M : Nat} {s : State} {x : ResetRec} (hm : Sub 0x100000000000000000000000000000000 M) (hk : anc.Within M s) : anc.Within M (State.noteHang s x) := by
  unfold State.noteHang
  repeat' first
    | with_reducible assumption | with_reducible refine ite_frame ?_ ?_ | with_reducible exact hm.mono (by decide)
    | with_reducible exact hm.bit (by decide) | simp only [or_true, true_and, and_true] | with_reducible refine And.intro ?_ ?_
    | with_reducible exact .inl (hm.bit (by decide)) | split | dsimp only | with_reducible refine State.frame_mk ?_ ?_

theorem State.dieRelease_frame {anc : State} {M : Nat} {s : State} (hm : Sub 0x8000482411078000003000001000c0002 M) (hk : anc.Within M s) : anc.Within M (State.dieRelease s) := by
  unfold State.dieRelease
  repeat' first
    | with_reducible assumption | with_reducible refine State.setVState_frame ?_ ?_
    | with_reducible refine State.clearEpoch_frame ?_ ?_ | with_reducible refine State.setVar_frame ?_ ?_
    | with_reducible refine State.countServe_frame ?_ ?_ | with_reducible refine State.each_frame ?_ ?_ | intro _
    | with_reducible refine ite_frame ?_ ?_ | with_reducible exact hm.mono (by decide) | with_reducible exact hm.bit (by decide)
    | simp only [or_true, true_and, and_true] | with_reducible refine And.intro ?_ ?_
    | with_reducible exact .inl (hm.bit (by decide)) | split | dsimp only | with_reducible refine State.frame_mk ?_ ?_

theorem State.resetting_frame {anc : State} {M : Nat} {s : State} {dom : Dom} {e : Nat × Nat × Nat} (hm : Sub 0xffffffffffffffffffff M) (hk : anc.Within M s) : anc.Within M (State.resetting s dom e) := by
  unfold State.resetting
  repeat' first
    | with_reducible assumption | with_reducible refine State.wf_frame ?_ ?_ | with_reducible refine State.each_frame ?_ ?_ | intro _
    | with_reducible refine ite_frame ?_ ?_ | with_reducible exact hm.mono (by decide) | with_reducible exact hm.bit (by decide)
    | with_reducible exact hm.any (by decide) _ | with_reducible exact hm.anyPage (by decide) _ | split | dsimp only

theorem State.reload_frame {anc : State} {M : Nat} {s : State} {dom : Dom} (hm : Sub 0x60000078ffffffffffffffffffff M) (hk : anc.Within M s) : anc.Within M (State.reload s dom) := by
  unfold State.reload
  repeat' first
    | with_reducible assumption | with_reducible refine State.resetting_frame ?_ ?_
    | with_reducible refine State.reloadItem_frame ?_ ?_ | with_reducible refine State.each_frame ?_ ?_
    | with_reducible refine State.when_frame ?_ ?_ | intro _ | with_reducible exact hm.mono (by decide) | dsimp only

theorem State.release_frame {anc : State} {M : Nat} {s : State} {x : ResetRec} {bad : List Nat} (hm : Sub 0xe91984fe7d3278ffffffffffffffffffff M) (hk : anc.Within M s) : anc.Within M (State.release s x bad) := by
  unfold State.release
  repeat' first
    | with_reducible assumption | with_reducible refine State.dieRelease_frame ?_ ?_
    | with_reducible refine State.interruptStreams_frame ?_ ?_
    | refine State.interruptStreams_frame_eq ?_ (by with_reducible assumption) ?_ | with_reducible refine State.reload_frame ?_ ?_
    | with_reducible refine State.wf_frame ?_ ?_ | with_reducible refine State.scoreStart_frame ?_ ?_
    | with_reducible refine State.noteHang_frame ?_ ?_ | with_reducible refine State.setDom_frame ?_ ?_ ?_ ?_ ?_
    | with_reducible refine State.setInts_frame ?_ ?_ ?_ | with_reducible refine State.finish_frame ?_ ?_
    | with_reducible refine State.mesh_frame ?_ ?_ | with_reducible refine State.tryOwed_frame ?_ ?_
    | with_reducible refine State.serveQueue_frame ?_ ?_ | with_reducible refine State.each_frame ?_ ?_ | intro _
    | with_reducible refine ite_frame ?_ ?_ | with_reducible exact hm.mono (by decide) | with_reducible exact hm.bit (by decide)
    | with_reducible exact domPage_bit hm (by decide) (by decide) (by decide) (by decide) (by decide) (by decide)
    | ((with_reducible refine page_bit (B := ?_) (n := ?_) (k := ?_) hm ?_ ?_ ?_); (on_goal 4 => rfl); all_goals decide)
    | with_reducible exact corePage_bit hm (by decide) (by decide) (by decide) | with_reducible exact hm.any (by decide) _
    | with_reducible exact hm.anyPage (by decide) _ | with_reducible exact runField_bit hm (by decide) (by decide) (by decide)
    | simp only [or_true, true_and, and_true] | with_reducible refine And.intro ?_ ?_
    | with_reducible exact .inl (hm.bit (by decide)) | split | dsimp only | with_reducible refine State.frame_mk ?_ ?_

theorem State.resetRelease_frame {anc : State} {M : Nat} {s : State} {dom : Dom} {bad : List Nat} (hm : Sub 0xe91984fe7d3278ffffffffffffffffffff M) (hk : anc.Within M s) : anc.Within M (State.resetRelease s dom bad) := by
  unfold State.resetRelease
  repeat' first
    | with_reducible assumption | with_reducible refine State.release_frame ?_ ?_ | with_reducible refine ite_frame ?_ ?_
    | with_reducible exact hm.mono (by decide) | split | dsimp only

theorem State.hangRec_frame {anc : State} {M : Nat} {s : State} {unit : Nat} {limit : Nat} (hm : Sub 0x7800000000000000000102 M) (hk : anc.Within M s) : anc.Within M (State.hangRec s unit limit) := by
  unfold State.hangRec
  repeat' first
    | with_reducible assumption | with_reducible refine State.logEv_frame ?_ ?_ | with_reducible refine State.inc_frame ?_ ?_
    | with_reducible exact hm.mono (by decide) | with_reducible exact hm.bit (by decide)
    | ((with_reducible refine page_bit (B := ?_) (n := ?_) (k := ?_) hm ?_ ?_ ?_); (on_goal 4 => rfl); all_goals decide)
    | with_reducible exact corePage_bit hm (by decide) (by decide) (by decide) | dsimp only

theorem State.resetHang_frame {anc : State} {M : Nat} {s : State} {dom : Dom} {limit : Nat} (hm : Sub 0x7800000000000000000702 M) (hk : anc.Within M s) : anc.Within M (State.resetHang s dom limit) := by
  unfold State.resetHang
  repeat' first
    | with_reducible assumption | with_reducible refine State.logEv_frame ?_ ?_ | with_reducible refine State.inc_frame ?_ ?_
    | with_reducible exact hm.mono (by decide) | with_reducible exact hm.bit (by decide)
    | ((with_reducible refine page_bit (B := ?_) (n := ?_) (k := ?_) hm ?_ ?_ ?_); (on_goal 4 => rfl); all_goals decide)
    | with_reducible exact corePage_bit hm (by decide) (by decide) (by decide) | dsimp only

theorem State.hang_frame {anc : State} {M : Nat} {s : State} {ck : Nat} {limit : Nat} (hm : Sub 0x1ffffffffffffffffffffffffffffffffff M) (hk : anc.Within M s) : anc.Within M (State.hang s ck limit) := by
  unfold State.hang
  repeat' first
    | with_reducible assumption | with_reducible refine State.hangRec_frame ?_ ?_ | with_reducible refine State.evidence_frame ?_ ?_
    | with_reducible refine State.beginReset_frame ?_ ?_ | with_reducible refine ite_frame ?_ ?_
    | with_reducible exact hm.mono (by decide) | split | dsimp only

theorem State.stepWatchdog_frame {anc : State} {M : Nat} {s : State} {ck : Nat} {id : Nat} {waited : Nat} (hm : Sub 0x1ffffffffffffffffffffffffffffffffff M) (hk : anc.Within M s) : anc.Within M (State.stepWatchdog s ck id waited) := by
  unfold State.stepWatchdog
  repeat' first
    | with_reducible assumption | with_reducible refine State.hang_frame ?_ ?_ | with_reducible refine ite_frame ?_ ?_
    | with_reducible exact hm.mono (by decide) | split | dsimp only

theorem State.overrun_frame {anc : State} {M : Nat} {s : State} {v : Nat} (hm : Sub 0x1ffffffffffffffffffffffffffffffffff M) (hk : anc.Within M s) : anc.Within M (State.overrun s v) := by
  unfold State.overrun
  repeat' first
    | with_reducible assumption | with_reducible refine State.kernelOverrun_frame ?_ ?_
    | refine State.kernelOverrun_frame_eq ?_ (by with_reducible assumption) ?_ | with_reducible refine State.hang_frame ?_ ?_
    | with_reducible exact hm.mono (by decide) | split | dsimp only

theorem State.heartbeatLost_frame {anc : State} {M : Nat} {s : State} {ck : Nat} (hm : Sub 0x1ffffffffffffffffffffffffffffffffff M) (hk : anc.Within M s) : anc.Within M (State.heartbeatLost s ck) := by
  unfold State.heartbeatLost
  repeat' first
    | with_reducible assumption | with_reducible refine State.handover_frame ?_ ?_ | with_reducible refine State.hang_frame ?_ ?_
    | with_reducible refine State.setInt_frame ?_ ?_ ?_ | with_reducible refine ite_frame ?_ ?_
    | with_reducible exact hm.mono (by decide) | with_reducible exact hm.bit (by decide)
    | ((with_reducible refine page_bit (B := ?_) (n := ?_) (k := ?_) hm ?_ ?_ ?_); (on_goal 4 => rfl); all_goals decide)
    | with_reducible exact corePage_bit hm (by decide) (by decide) (by decide) | with_reducible exact hm.any (by decide) _
    | with_reducible exact hm.anyPage (by decide) _ | split | dsimp only

theorem State.nobufLimit_frame {anc : State} {M : Nat} {s : State} {ck : Nat} {dest : Nat} {stream : Nat} (hm : Sub 0xe008000000007800000003000000110102 M) (hk : anc.Within M s) : anc.Within M (State.nobufLimit s ck dest stream) := by
  unfold State.nobufLimit
  repeat' first
    | with_reducible assumption | with_reducible refine State.freeSet_frame ?_ ?_ | with_reducible refine State.setBuf_frame ?_ ?_
    | with_reducible refine State.inc_frame ?_ ?_ | with_reducible refine State.notice_frame ?_ ?_
    | with_reducible refine State.hangRec_frame ?_ ?_ | with_reducible refine ite_frame ?_ ?_
    | with_reducible exact hm.mono (by decide) | with_reducible exact hm.bit (by decide)
    | ((with_reducible refine page_bit (B := ?_) (n := ?_) (k := ?_) hm ?_ ?_ ?_); (on_goal 4 => rfl); all_goals decide)
    | with_reducible exact corePage_bit hm (by decide) (by decide) (by decide) | split | dsimp only

theorem State.resetEscalation_frame {anc : State} {M : Nat} {s : State} {dom : Dom} (hm : Sub 0x1ffffffffffffffffffffffffffffffffff M) (hk : anc.Within M s) : anc.Within M (State.resetEscalation s dom) := by
  unfold State.resetEscalation
  repeat' first
    | with_reducible assumption | with_reducible refine State.coldByReset_frame ?_ ?_
    | with_reducible refine State.resetHang_frame ?_ ?_ | with_reducible refine State.setInt_frame ?_ ?_ ?_
    | with_reducible refine State.inc_frame ?_ ?_ | with_reducible refine State.startReset_frame ?_ ?_
    | with_reducible refine ite_frame ?_ ?_ | with_reducible exact hm.mono (by decide) | with_reducible exact hm.bit (by decide)
    | ((with_reducible refine page_bit (B := ?_) (n := ?_) (k := ?_) hm ?_ ?_ ?_); (on_goal 4 => rfl); all_goals decide)
    | with_reducible exact corePage_bit hm (by decide) (by decide) (by decide) | with_reducible exact hm.any (by decide) _
    | with_reducible exact hm.anyPage (by decide) _ | split | dsimp only

theorem execDomainReset_frame {anc : State} {M : Nat} {c : Cmd} {s : State} (hm : Sub 0x1ffffffffffffffffffffffffffffffffff M) (hk : anc.Within M s) : ∃ out, execDomainReset c s = .next out ∧ anc.Within M out := by
  unfold execDomainReset
  refine ⟨_, rfl, ?_⟩
  repeat' first
    | with_reducible assumption | with_reducible refine State.domainReset_frame ?_ ?_ | with_reducible exact hm.mono (by decide)
    | dsimp only

theorem execDrainEnd_frame {anc : State} {M : Nat} {scope : Nat} {target : Nat} {s : State} (hm : Sub 0xebffcebe7df67cffffffffffffffffffff M) (hk : anc.Within M s) : ∃ out, execDrainEnd scope target s = .next out ∧ anc.Within M out := by
  unfold execDrainEnd
  refine ⟨_, rfl, ?_⟩
  repeat' first
    | with_reducible assumption | with_reducible refine State.drainEnd_frame ?_ ?_ | with_reducible exact hm.mono (by decide)
    | dsimp only

theorem execResetPhaseEnd_frame {anc : State} {M : Nat} {scope : Nat} {target : Nat} {s : State} (hm : Sub 0x8110000000007800000000000000000703 M) (hk : anc.Within M s) : ∃ out, execResetPhaseEnd scope target s = .next out ∧ anc.Within M out := by
  unfold execResetPhaseEnd
  refine ⟨_, rfl, ?_⟩
  repeat' first
    | with_reducible assumption | with_reducible refine State.resetPhaseEnd_frame ?_ ?_ | with_reducible exact hm.mono (by decide)
    | dsimp only

theorem execResetRelease_frame {anc : State} {M : Nat} {scope : Nat} {target : Nat} {badCores : List Nat} {s : State} (hm : Sub 0xe91984fe7d3278ffffffffffffffffffff M) (hk : anc.Within M s) : ∃ out, execResetRelease scope target badCores s = .next out ∧ anc.Within M out := by
  unfold execResetRelease
  refine ⟨_, rfl, ?_⟩
  repeat' first
    | with_reducible assumption | with_reducible refine State.resetRelease_frame ?_ ?_ | with_reducible exact hm.mono (by decide)
    | dsimp only

theorem execGenWaitEnd_frame {anc : State} {M : Nat} {scope : Nat} {target : Nat} {s : State} (hm : Sub 0xebffcebe7df67cffffffffffffffffffff M) (hk : anc.Within M s) : ∃ out, execGenWaitEnd scope target s = .next out ∧ anc.Within M out := by
  unfold execGenWaitEnd
  refine ⟨_, rfl, ?_⟩
  repeat' first
    | with_reducible assumption | with_reducible refine State.genWaitEnd_frame ?_ ?_ | with_reducible exact hm.mono (by decide)
    | dsimp only

theorem execStepWatchdog_frame {anc : State} {M : Nat} {ck : Nat} {id : Nat} {waited : Nat} {s : State} (hm : Sub 0x1ffffffffffffffffffffffffffffffffff M) (hk : anc.Within M s) : ∃ out, execStepWatchdog ck id waited s = .next out ∧ anc.Within M out := by
  unfold execStepWatchdog
  refine ⟨_, rfl, ?_⟩
  repeat' first
    | with_reducible assumption | with_reducible refine State.stepWatchdog_frame ?_ ?_ | with_reducible exact hm.mono (by decide)
    | dsimp only

theorem execKernelOverrun_frame {anc : State} {M : Nat} {v : Nat} {s : State} (hm : Sub 0x1ffffffffffffffffffffffffffffffffff M) (hk : anc.Within M s) : ∃ out, execKernelOverrun v s = .next out ∧ anc.Within M out := by
  unfold execKernelOverrun
  refine ⟨_, rfl, ?_⟩
  repeat' first
    | with_reducible assumption | with_reducible refine State.overrun_frame ?_ ?_ | with_reducible exact hm.mono (by decide)
    | dsimp only

theorem execHeartbeatLost_frame {anc : State} {M : Nat} {ck : Nat} {s : State} (hm : Sub 0x1ffffffffffffffffffffffffffffffffff M) (hk : anc.Within M s) : ∃ out, execHeartbeatLost ck s = .next out ∧ anc.Within M out := by
  unfold execHeartbeatLost
  refine ⟨_, rfl, ?_⟩
  repeat' first
    | with_reducible assumption | with_reducible refine State.heartbeatLost_frame ?_ ?_ | with_reducible exact hm.mono (by decide)
    | dsimp only

theorem execNobufLimit_frame {anc : State} {M : Nat} {ck : Nat} {dest : Nat} {stream : Nat} {s : State} (hm : Sub 0xe008000000007800000003000000110102 M) (hk : anc.Within M s) : ∃ out, execNobufLimit ck dest stream s = .next out ∧ anc.Within M out := by
  unfold execNobufLimit
  refine ⟨_, rfl, ?_⟩
  repeat' first
    | with_reducible assumption | with_reducible refine State.nobufLimit_frame ?_ ?_ | with_reducible exact hm.mono (by decide)
    | dsimp only

theorem execResetEscalation_frame {anc : State} {M : Nat} {scope : Nat} {target : Nat} {s : State} (hm : Sub 0x1ffffffffffffffffffffffffffffffffff M) (hk : anc.Within M s) : ∃ out, execResetEscalation scope target s = .next out ∧ anc.Within M out := by
  unfold execResetEscalation
  refine ⟨_, rfl, ?_⟩
  repeat' first
    | with_reducible assumption | with_reducible refine State.resetEscalation_frame ?_ ?_ | with_reducible exact hm.mono (by decide)
    | dsimp only

theorem execRouteHoldEnd_frame {anc : State} {M : Nat} {s : State} (hm : Sub 0x1ffffffffffffffffffffffffffffffffff M) (hk : anc.Within M s) : ∃ out, execRouteHoldEnd s = .next out ∧ anc.Within M out := by
  unfold execRouteHoldEnd
  refine ⟨_, rfl, ?_⟩
  repeat' first
    | with_reducible assumption | with_reducible refine State.routeHoldEnd_frame ?_ ?_
    | with_reducible refine State.lateResets_frame ?_ ?_ | with_reducible refine ite_frame ?_ ?_
    | with_reducible exact hm.mono (by decide) | split | dsimp only

end Sys2Proof.Machine
end

