-- ==== Sys2Proof/Laws/Frame/Bringup.lean ====
section
/-! SUPPORT. Every operation and meaning of Machine/Bringup.lean changes only the register areas and parts of the state its mask names. -/

namespace Sys2Proof.Machine

set_option linter.unreachableTactic false
set_option linter.unusedTactic false

theorem State.boardStart_frame {anc : State} {M : Nat} {s : State} {floating : Nat} (hm : Sub 0x8100000000007801000000000000000003 M) (hk : anc.Within M s) : anc.Within M (State.boardStart s floating) := by
  unfold State.boardStart
  repeat' first
    | with_reducible assumption | with_reducible refine State.readStraps_frame ?_ ?_
    | with_reducible refine State.phaseStart_frame ?_ ?_ | with_reducible refine State.wf_frame ?_ ?_
    | with_reducible refine ite_frame ?_ ?_ | with_reducible exact hm.mono (by decide) | with_reducible exact hm.bit (by decide)
    | simp only [or_true, true_and, and_true] | with_reducible refine And.intro ?_ ?_
    | with_reducible exact .inl (hm.bit (by decide)) | split | dsimp only | with_reducible refine State.frame_mk ?_ ?_

theorem State.recovery_frame {anc : State} {M : Nat} {s : State} {cause : Nat} (hm : Sub 0x8100000000007801000000000000000003 M) (hk : anc.Within M s) : anc.Within M (State.recovery s cause) := by
  unfold State.recovery
  repeat' first
    | with_reducible assumption | with_reducible refine State.wf_frame ?_ ?_ | with_reducible refine State.setModState_frame ?_ ?_
    | with_reducible exact hm.mono (by decide) | with_reducible exact hm.bit (by decide) | dsimp only

theorem State.putDigest_frame {anc : State} {M : Nat} {s : State} {f : Field} {ws : List Nat} (hm : Sub 0x0 M) (hp1 : M.testBit f.area = true) (hk : anc.Within M s) : anc.Within M (State.putDigest s f ws) := by
  unfold State.putDigest
  repeat' first
    | with_reducible assumption | with_reducible refine State.wf_frame ?_ ?_ | with_reducible refine State.each_frame ?_ ?_ | intro _
    | with_reducible exact hm.mono (by decide) | with_reducible exact hm.bit (by decide) | exact hdr_bit hp1 (by decide) | dsimp only

theorem State.copyBad_frame {anc : State} {M : Nat} {s : State} {copy : Nat} (hm : Sub 0x780000000000000000000a M) (hk : anc.Within M s) : anc.Within M (State.copyBad s copy) := by
  unfold State.copyBad
  repeat' first
    | with_reducible assumption | with_reducible refine State.unitEv_frame ?_ ?_ | with_reducible refine State.setInt_frame ?_ ?_ ?_
    | with_reducible exact hm.mono (by decide) | with_reducible exact hm.bit (by decide)
    | ((with_reducible refine page_bit (B := ?_) (n := ?_) (k := ?_) hm ?_ ?_ ?_); (on_goal 4 => rfl); all_goals decide)
    | with_reducible exact corePage_bit hm (by decide) (by decide) (by decide) | dsimp only

theorem State.chooseCopy_frame {anc : State} {M : Nat} {s : State} {b : Boot} (hm : Sub 0x780000000000000000000a M) (hk : anc.Within M s) : anc.Within M (State.chooseCopy s b).2 := by
  unfold State.chooseCopy
  repeat' first
    | with_reducible assumption | with_reducible refine State.wf_frame ?_ ?_ | with_reducible refine State.putDigest_frame ?_ ?_ ?_
    | with_reducible refine State.copyBad_frame ?_ ?_ | with_reducible refine ite_frame ?_ ?_
    | with_reducible refine ite_frame2 ?_ ?_ | with_reducible refine ite_frame3 ?_ ?_ | with_reducible exact hm.mono (by decide)
    | with_reducible exact hm.bit (by decide)
    | ((with_reducible refine page_bit (B := ?_) (n := ?_) (k := ?_) hm ?_ ?_ ?_); (on_goal 4 => rfl); all_goals decide)
    | with_reducible exact corePage_bit hm (by decide) (by decide) (by decide) | split | dsimp only

theorem State.chooseCopy_frame_eq {anc : State} {M : Nat} {s : State} {b : Boot} (hm : Sub 0x780000000000000000000a M) {r0 tz} (heqx : State.chooseCopy s b = (r0, tz)) (hk : anc.Within M s) : anc.Within M tz := by
  have := State.chooseCopy_frame (s := s) (b := b) hm hk
  rwa [heqx] at this

theorem State.emptyRecord_frame {anc : State} {M : Nat} {s : State} (hm : Sub 0x78ffffffffffffffffffff M) (hk : anc.Within M s) :
    anc.Within M (State.emptyRecord s) := by
  have h0 : ∀ r : Tbl Nat, anc.Within M { s with regs := r } := fun r => State.frame_regs (fun f => hm.any (by decide) f) hk
  unfold State.emptyRecord
  dsimp only
  refine State.countAbsent_frame (hm.mono (by decide)) (State.unitEv_frame (hm.mono (by decide)) ?_)
  exact State.wf_frame (hm.any (by decide) _) (State.wf_frame (hm.any (by decide) _) (h0 _))

theorem State.restoreRungs_frame {anc : State} {M : Nat} {s : State} (hm : Sub 0x40000000000000000000000000000200 M) (hk : anc.Within M s) : anc.Within M (State.restoreRungs s) := by
  unfold State.restoreRungs
  repeat' first
    | with_reducible assumption | with_reducible refine State.applyClocks_frame ?_ ?_ | with_reducible refine State.wf_frame ?_ ?_
    | with_reducible refine State.each_frame ?_ ?_ | intro _ | with_reducible exact hm.mono (by decide)
    | with_reducible exact hm.bit (by decide) | dsimp only

theorem State.identity_frame {anc : State} {M : Nat} {s : State} {b : Boot} (hm : Sub 0x7800000000000000000012 M) (hk : anc.Within M s) : anc.Within M (State.identity s b) := by
  unfold State.identity
  repeat' first
    | with_reducible assumption | with_reducible refine State.putDigest_frame ?_ ?_ ?_ | with_reducible refine State.wf_frame ?_ ?_
    | with_reducible refine State.unitEv_frame ?_ ?_ | with_reducible refine State.setInt_frame ?_ ?_ ?_
    | with_reducible refine ite_frame ?_ ?_ | with_reducible exact hm.mono (by decide) | with_reducible exact hm.bit (by decide)
    | ((with_reducible refine page_bit (B := ?_) (n := ?_) (k := ?_) hm ?_ ?_ ?_); (on_goal 4 => rfl); all_goals decide)
    | with_reducible exact corePage_bit hm (by decide) (by decide) (by decide) | split | dsimp only

theorem State.bootSlot_frame {anc : State} {M : Nat} {s : State} {t : Nat} {trial : Bool} (hm : Sub 0x800000000000000000000000000000012 M) (hk : anc.Within M s) : anc.Within M (State.bootSlot s t trial) := by
  unfold State.bootSlot
  repeat' first
    | with_reducible assumption | with_reducible refine State.wf_frame ?_ ?_ | with_reducible exact hm.mono (by decide)
    | with_reducible exact hm.bit (by decide) | with_reducible exact slotVersionF_bit hm (by decide)
    | with_reducible exact slotSecurityF_bit hm (by decide) | simp only [or_true, true_and, and_true]
    | with_reducible refine And.intro ?_ ?_ | with_reducible exact .inl (hm.bit (by decide)) | dsimp only
    | with_reducible refine State.frame_mk ?_ ?_

theorem State.bootFrom_frame {anc : State} {M : Nat} {s : State} {b : Boot} {l : List Nat} (hm : Sub 0x800000000000000000000000000000012 M) (hk : anc.Within M s) :
    anc.Within M (State.bootFrom s b l).2 ∧ ∀ t, (State.bootFrom s b l).1 = some t → anc.Within M t := by
  induction l generalizing s with
  | nil => exact ⟨hk, fun t h => by cases h⟩
  | cons x l ih =>
    simp only [State.bootFrom]
    split
    · refine ⟨hk, fun t h => ?_⟩
      injection h with h
      subst h
      exact State.bootSlot_frame (hm.mono (by decide)) (State.wf_frame (slotStateF_bit hm (by decide)) hk)
    · exact ih (State.wf_frame (slotStateF_bit hm (by decide)) hk)

theorem State.chooseImage_frame_both {anc : State} {M : Nat} {s : State} {b : Boot} (hm : Sub 0xa00000000000000000000000000000012 M) (hk : anc.Within M s) :
    anc.Within M (State.chooseImage s b).2 ∧ ∀ t, (State.chooseImage s b).1 = some t → anc.Within M t := by
  unfold State.chooseImage
  dsimp only
  split
  · exact State.bootFrom_frame (hm.mono (by decide)) hk
  · split
    · exact State.bootFrom_frame (hm.mono (by decide)) (State.wf_frame (slotStateF_bit hm (by decide)) hk)
    · split
      · refine ⟨?_, fun t h => ?_⟩
        · skip
          repeat' first
            | with_reducible assumption
            | with_reducible refine State.wf_frame ?_ ?_
            | with_reducible refine State.each_frame ?_ ?_
            | with_reducible refine foldl_frame ?_ ?_
            | with_reducible refine foldl_frame_pair ?_ ?_
            | with_reducible refine foldl_frame_triple ?_ ?_
            | with_reducible refine State.when_frame ?_ ?_
            | intro _
            | with_reducible refine ite_frame ?_ ?_
            | with_reducible exact hm.mono (by decide)
            | with_reducible exact hm.bit (by decide)
            | ((with_reducible refine page_bit (B := ?_) (n := ?_) (k := ?_) hm ?_ ?_ ?_); (on_goal 4 => rfl); all_goals decide)
            | with_reducible exact corePage_bit hm (by decide) (by decide) (by decide)
            | simp only [or_true, true_and, and_true]
            | with_reducible refine And.intro ?_ ?_
            | with_reducible exact .inl (hm.bit (by decide))
            | split
            | dsimp only
            | with_reducible refine State.frame_mk ?_ ?_
        · injection h with h
          subst h
          repeat' first
            | with_reducible assumption
            | with_reducible refine State.bootSlot_frame ?_ ?_
            | with_reducible refine State.each_frame ?_ ?_
            | with_reducible refine foldl_frame ?_ ?_
            | with_reducible refine foldl_frame_pair ?_ ?_
            | with_reducible refine foldl_frame_triple ?_ ?_
            | with_reducible refine State.when_frame ?_ ?_
            | intro _
            | with_reducible refine ite_frame ?_ ?_
            | with_reducible exact hm.mono (by decide)
            | with_reducible exact hm.bit (by decide)
            | ((with_reducible refine page_bit (B := ?_) (n := ?_) (k := ?_) hm ?_ ?_ ?_); (on_goal 4 => rfl); all_goals decide)
            | with_reducible exact corePage_bit hm (by decide) (by decide) (by decide)
            | simp only [or_true, true_and, and_true]
            | with_reducible refine And.intro ?_ ?_
            | with_reducible exact .inl (hm.bit (by decide))
            | split
            | dsimp only
            | with_reducible refine State.frame_mk ?_ ?_
      · refine State.bootFrom_frame (hm.mono (by decide)) (State.wf_frame (slotStateF_bit hm (by decide)) ?_)
        repeat' first
          | with_reducible assumption
          | with_reducible refine State.each_frame ?_ ?_
          | with_reducible refine foldl_frame ?_ ?_
          | with_reducible refine foldl_frame_pair ?_ ?_
          | with_reducible refine foldl_frame_triple ?_ ?_
          | with_reducible refine State.when_frame ?_ ?_
          | intro _
          | with_reducible refine ite_frame ?_ ?_
          | with_reducible exact hm.mono (by decide)
          | with_reducible exact hm.bit (by decide)
          | ((with_reducible refine page_bit (B := ?_) (n := ?_) (k := ?_) hm ?_ ?_ ?_); (on_goal 4 => rfl); all_goals decide)
          | with_reducible exact corePage_bit hm (by decide) (by decide) (by decide)
          | simp only [or_true, true_and, and_true]
          | with_reducible refine And.intro ?_ ?_
          | with_reducible exact .inl (hm.bit (by decide))
          | split
          | dsimp only
          | with_reducible refine State.frame_mk ?_ ?_

theorem State.chooseImage_frame {anc : State} {M : Nat} {s : State} {b : Boot} (hm : Sub 0xa00000000000000000000000000000012 M) (hk : anc.Within M s) :
    anc.Within M (State.chooseImage s b).2 := (State.chooseImage_frame_both hm hk).1

theorem State.chooseImage_frame_eq {anc : State} {M : Nat} {s : State} {b : Boot} {r t} (hm : Sub 0xa00000000000000000000000000000012 M)
    (heqx : State.chooseImage s b = (r, t)) (hk : anc.Within M s) : anc.Within M t := by
  have := State.chooseImage_frame (b := b) hm hk
  rwa [heqx] at this

theorem State.chooseImage_frame_some {anc : State} {M : Nat} {s : State} {b : Boot} {r t} (hm : Sub 0xa00000000000000000000000000000012 M)
    (heqx : State.chooseImage s b = (some t, r)) (hk : anc.Within M s) : anc.Within M t :=
  (State.chooseImage_frame_both hm hk).2 t (by rw [heqx])

theorem State.trialOutcome_frame {anc : State} {M : Nat} {s : State} (hm : Sub 0x200000000007800000000000000000002 M) (hk : anc.Within M s) : anc.Within M (State.trialOutcome s) := by
  unfold State.trialOutcome
  repeat' first
    | with_reducible assumption | with_reducible refine State.logEvSev_frame ?_ ?_ | with_reducible refine ite_frame ?_ ?_
    | with_reducible exact hm.mono (by decide) | with_reducible exact hm.bit (by decide) | simp only [or_true, true_and, and_true]
    | with_reducible refine And.intro ?_ ?_ | with_reducible exact .inl (hm.bit (by decide)) | split | dsimp only
    | with_reducible refine State.frame_mk ?_ ?_

theorem State.romEnd_frame {anc : State} {M : Nat} {s : State} {b : Boot} (hm : Sub 0x8b400000000078ffffffffffffffffffff M) (hk : anc.Within M s) : anc.Within M (State.romEnd s b) := by
  unfold State.romEnd
  repeat' first
    | with_reducible assumption | with_reducible refine State.chooseCopy_frame ?_ ?_
    | refine State.chooseCopy_frame_eq ?_ (by with_reducible assumption) ?_ | with_reducible refine State.recovery_frame ?_ ?_
    | with_reducible refine State.wf_frame ?_ ?_ | with_reducible refine State.emptyRecord_frame ?_ ?_
    | with_reducible refine State.inc_frame ?_ ?_ | with_reducible refine State.identity_frame ?_ ?_
    | with_reducible refine State.restoreRungs_frame ?_ ?_ | with_reducible refine State.boardFault_frame ?_ ?_
    | refine State.chooseImage_frame_some ?_ (by with_reducible assumption) ?_ | with_reducible refine State.chooseImage_frame ?_ ?_
    | refine State.chooseImage_frame_eq ?_ (by with_reducible assumption) ?_ | with_reducible refine State.phaseStart_frame ?_ ?_
    | with_reducible refine State.trialOutcome_frame ?_ ?_ | with_reducible refine ite_frame ?_ ?_
    | with_reducible exact hm.mono (by decide) | with_reducible exact hm.bit (by decide)
    | ((with_reducible refine page_bit (B := ?_) (n := ?_) (k := ?_) hm ?_ ?_ ?_); (on_goal 4 => rfl); all_goals decide)
    | with_reducible exact corePage_bit hm (by decide) (by decide) (by decide) | with_reducible exact hm.any (by decide) _
    | with_reducible exact hm.anyPage (by decide) _ | split | dsimp only

theorem State.platformEnd_frame {anc : State} {M : Nat} {s : State} {bad : List (Nat × Nat)} (hm : Sub 0xe14fc0be7d007800000703000101130003 M) (hk : anc.Within M s) : anc.Within M (State.platformEnd s bad) := by
  unfold State.platformEnd
  repeat' first
    | with_reducible assumption | with_reducible refine State.blockErr_frame ?_ ?_ ?_ | with_reducible refine State.wf_frame ?_ ?_
    | with_reducible refine State.phaseStart_frame ?_ ?_ | with_reducible refine State.dieFailure_frame ?_ ?_
    | with_reducible refine State.each_frame ?_ ?_ | intro _ | with_reducible refine ite_frame ?_ ?_
    | with_reducible exact hm.mono (by decide) | with_reducible exact hm.bit (by decide)
    | ((with_reducible refine page_bit (B := ?_) (n := ?_) (k := ?_) hm ?_ ?_ ?_); (on_goal 4 => rfl); all_goals decide)
    | with_reducible exact corePage_bit hm (by decide) (by decide) (by decide) | split | dsimp only

theorem State.restoreHbm_frame {anc : State} {M : Nat} {s : State} (hm : Sub 0x100000000 M) (hk : anc.Within M s) : anc.Within M (State.restoreHbm s) := by
  unfold State.restoreHbm
  repeat' first
    | with_reducible assumption | with_reducible refine State.wf_frame ?_ ?_ | with_reducible refine State.each_frame ?_ ?_ | intro _
    | with_reducible exact hm.mono (by decide) | with_reducible exact hm.bit (by decide) | dsimp only

theorem State.linksStart_frame {anc : State} {M : Nat} {s : State} (hm : Sub 0x1000000000000 M) (hk : anc.Within M s) : anc.Within M (State.linksStart s) := by
  unfold State.linksStart
  repeat' first
    | with_reducible assumption | with_reducible refine State.wf_frame ?_ ?_ | with_reducible refine State.each_frame ?_ ?_
    | with_reducible refine State.when_frame ?_ ?_ | intro _ | with_reducible exact hm.mono (by decide)
    | with_reducible exact hm.bit (by decide) | dsimp only

theorem State.memoryEnd_frame {anc : State} {M : Nat} {s : State} (hm : Sub 0x8100000000007800000001000100000003 M) (hk : anc.Within M s) : anc.Within M (State.memoryEnd s) := by
  unfold State.memoryEnd
  repeat' first
    | with_reducible assumption | with_reducible refine State.phaseStart_frame ?_ ?_
    | with_reducible refine State.linksStart_frame ?_ ?_ | with_reducible refine State.restoreHbm_frame ?_ ?_
    | with_reducible refine ite_frame ?_ ?_ | with_reducible exact hm.mono (by decide) | split | dsimp only

theorem State.linksEnd_frame {anc : State} {M : Nat} {s : State} (hm : Sub 0x8100000000007800000000000000000003 M) (hk : anc.Within M s) : anc.Within M (State.linksEnd s) := by
  unfold State.linksEnd
  repeat' first
    | with_reducible assumption | with_reducible refine State.phaseStart_frame ?_ ?_ | with_reducible refine State.wf_frame ?_ ?_
    | with_reducible refine ite_frame ?_ ?_ | with_reducible exact hm.mono (by decide) | with_reducible exact hm.bit (by decide)
    | simp only [or_true, true_and, and_true] | with_reducible refine And.intro ?_ ?_
    | with_reducible exact .inl (hm.bit (by decide)) | split | dsimp only | with_reducible refine State.frame_mk ?_ ?_

theorem State.selfTest_frame {anc : State} {M : Nat} {s : State} {pc : Nat} {engines : Nat} {sram : Bool} {logic : Bool} {ni : Bool} {signature : Nat} (hm : Sub 0x114000000000780000000000000040020b M) (hk : anc.Within M s) : anc.Within M (State.selfTest s pc engines sram logic ni signature) := by
  unfold State.selfTest
  repeat' first
    | with_reducible assumption | with_reducible refine State.wf_frame ?_ ?_ | with_reducible refine State.evidence_frame ?_ ?_
    | with_reducible refine ite_frame ?_ ?_ | with_reducible exact hm.mono (by decide) | with_reducible exact hm.bit (by decide)
    | simp only [or_true, true_and, and_true] | with_reducible refine And.intro ?_ ?_
    | with_reducible exact .inl (hm.bit (by decide)) | split | dsimp only | with_reducible refine State.frame_mk ?_ ?_

theorem State.bringupFences_frame {anc : State} {M : Nat} {s : State} (hm : Sub 0xf8efcefe7db27cffffffffffffffffffff M) (hk : anc.Within M s) : anc.Within M (State.bringupFences s) := by
  unfold State.bringupFences
  repeat' first
    | with_reducible assumption | with_reducible refine State.wf_frame ?_ ?_ | with_reducible refine State.fenceAll_frame ?_ ?_
    | with_reducible exact hm.mono (by decide) | with_reducible exact hm.bit (by decide) | with_reducible exact hm.any (by decide) _
    | with_reducible exact hm.anyPage (by decide) _ | simp only [or_true, true_and, and_true] | with_reducible refine And.intro ?_ ?_
    | with_reducible exact .inl (hm.bit (by decide)) | dsimp only | with_reducible refine State.frame_mk ?_ ?_

theorem State.assignRoles_frame {anc : State} {M : Nat} {s : State} (hm : Sub 0x100000000200000 M) (hk : anc.Within M s) : anc.Within M (State.assignRoles s) := by
  unfold State.assignRoles
  repeat' first
    | with_reducible assumption | with_reducible refine State.handover_frame ?_ ?_ | with_reducible refine State.each_frame ?_ ?_
    | intro _ | with_reducible refine ite_frame ?_ ?_ | with_reducible exact hm.mono (by decide) | split | dsimp only

theorem State.coresEnd_frame {anc : State} {M : Nat} {s : State} {bad : List Nat} (hm : Sub 0x1ffffffffffffffffffffffffffffffffff M) (hk : anc.Within M s) : anc.Within M (State.coresEnd s bad) := by
  unfold State.coresEnd
  repeat' first
    | with_reducible assumption | with_reducible refine State.bringupFences_frame ?_ ?_
    | with_reducible refine State.release_frame ?_ ?_ | with_reducible refine State.phaseStart_frame ?_ ?_
    | with_reducible refine State.assignRoles_frame ?_ ?_ | with_reducible refine State.tryOwed_frame ?_ ?_
    | with_reducible refine State.lateResets_frame ?_ ?_ | with_reducible refine State.replan_frame ?_ ?_
    | with_reducible refine State.each_frame ?_ ?_ | with_reducible refine State.when_frame ?_ ?_ | intro _
    | with_reducible refine ite_frame ?_ ?_ | with_reducible exact hm.mono (by decide) | split | dsimp only

theorem State.phaseTimeout_frame {anc : State} {M : Nat} {s : State} (hm : Sub 0x1ffffffffffffffffffffffffffffffffff M) (hk : anc.Within M s) : anc.Within M (State.phaseTimeout s) := by
  unfold State.phaseTimeout
  repeat' first
    | with_reducible assumption | with_reducible refine State.setInt_frame ?_ ?_ ?_ | with_reducible refine State.inc_frame ?_ ?_
    | with_reducible refine State.coldByReset_frame ?_ ?_ | with_reducible refine State.failWith_frame ?_ ?_
    | with_reducible refine ite_frame ?_ ?_ | with_reducible exact hm.mono (by decide) | with_reducible exact hm.bit (by decide)
    | ((with_reducible refine page_bit (B := ?_) (n := ?_) (k := ?_) hm ?_ ?_ ?_); (on_goal 4 => rfl); all_goals decide)
    | with_reducible exact corePage_bit hm (by decide) (by decide) (by decide) | with_reducible exact hm.any (by decide) _
    | with_reducible exact hm.anyPage (by decide) _ | split | dsimp only

theorem State.moduleLeave_frame {anc : State} {M : Nat} {s : State} {i : Instr} {c : Cmd} (hm : Sub 0xe94fc0be7dbe7800000703030100130007 M) (hk : anc.Within M s) : anc.Within M (State.moduleLeave s i c) := by
  unfold State.moduleLeave
  repeat' first
    | with_reducible assumption | with_reducible refine State.vorane_frame ?_ ?_ ?_
    | with_reducible refine State.takeEffect_frame ?_ ?_ | with_reducible refine State.reply_frame ?_ ?_
    | with_reducible refine State.leaveProceed_frame ?_ ?_ | with_reducible refine State.withdrawTorus_frame ?_ ?_
    | with_reducible refine State.leaveGate_frame ?_ ?_ | intro _ | with_reducible refine ite_frame ?_ ?_
    | with_reducible exact hm.mono (by decide) | with_reducible exact hm.bit (by decide) | simp only [or_true, true_and, and_true]
    | with_reducible refine And.intro ?_ ?_ | with_reducible exact .inl (hm.bit (by decide)) | split | dsimp only
    | with_reducible refine State.frame_mk ?_ ?_

theorem State.leaveDrained_frame {anc : State} {M : Nat} {s : State} (hm : Sub 0xe14fc0be7d007800000703000100130003 M) (hk : anc.Within M s) : anc.Within M (State.leaveDrained s) := by
  unfold State.leaveDrained
  repeat' first
    | with_reducible assumption | with_reducible refine State.leaveProceed_frame ?_ ?_ | with_reducible refine ite_frame ?_ ?_
    | with_reducible exact hm.mono (by decide) | split | dsimp only

theorem State.leaveLimit_frame {anc : State} {M : Nat} {s : State} (hm : Sub 0xe14fc0be7d007800000703000100130003 M) (hk : anc.Within M s) : anc.Within M (State.leaveLimit s) := by
  unfold State.leaveLimit
  repeat' first
    | with_reducible assumption | with_reducible refine State.leaveProceed_frame ?_ ?_ | with_reducible refine ite_frame ?_ ?_
    | with_reducible exact hm.mono (by decide) | split | dsimp only

theorem execColdStart_frame {anc : State} {M : Nat} {floating : Nat} {s : State} (hm : Sub 0x8100000000007801000000000000000003 M) (hk : anc.Within M s) : ∃ out, execColdStart floating s = .next out ∧ anc.Within M out := by
  unfold execColdStart
  refine ⟨_, rfl, ?_⟩
  repeat' first
    | with_reducible assumption | with_reducible refine State.boardStart_frame ?_ ?_ | with_reducible exact hm.mono (by decide)
    | dsimp only

theorem execRomPhaseEnd_frame {anc : State} {M : Nat} {b : Boot} {s : State} (hm : Sub 0x8b400000000078ffffffffffffffffffff M) (hk : anc.Within M s) : ∃ out, execRomPhaseEnd b s = .next out ∧ anc.Within M out := by
  unfold execRomPhaseEnd
  refine ⟨_, rfl, ?_⟩
  repeat' first
    | with_reducible assumption | with_reducible refine State.romEnd_frame ?_ ?_ | with_reducible exact hm.mono (by decide)
    | dsimp only

theorem execPlatformPhaseEnd_frame {anc : State} {M : Nat} {bad : List (Nat × Nat)} {s : State} (hm : Sub 0xe14fc0be7d007800000703000101130003 M) (hk : anc.Within M s) : ∃ out, execPlatformPhaseEnd bad s = .next out ∧ anc.Within M out := by
  unfold execPlatformPhaseEnd
  refine ⟨_, rfl, ?_⟩
  repeat' first
    | with_reducible assumption | with_reducible refine State.platformEnd_frame ?_ ?_ | with_reducible exact hm.mono (by decide)
    | dsimp only

theorem execMemoryPhaseEnd_frame {anc : State} {M : Nat} {s : State} (hm : Sub 0x8100000000007800000001000100000003 M) (hk : anc.Within M s) : ∃ out, execMemoryPhaseEnd s = .next out ∧ anc.Within M out := by
  unfold execMemoryPhaseEnd
  refine ⟨_, rfl, ?_⟩
  repeat' first
    | with_reducible assumption | with_reducible refine State.memoryEnd_frame ?_ ?_ | with_reducible exact hm.mono (by decide)
    | dsimp only

theorem execLinksPhaseEnd_frame {anc : State} {M : Nat} {s : State} (hm : Sub 0x8100000000007800000000000000000003 M) (hk : anc.Within M s) : ∃ out, execLinksPhaseEnd s = .next out ∧ anc.Within M out := by
  unfold execLinksPhaseEnd
  refine ⟨_, rfl, ?_⟩
  repeat' first
    | with_reducible assumption | with_reducible refine State.linksEnd_frame ?_ ?_ | with_reducible exact hm.mono (by decide)
    | dsimp only

theorem execSelfTestDone_frame {anc : State} {M : Nat} {pc : Nat} {engines : Nat} {sramBad : Bool} {logicBad : Bool} {niBad : Bool} {signature : Nat} {s : State} (hm : Sub 0x114000000000780000000000000040020b M) (hk : anc.Within M s) : ∃ out, execSelfTestDone pc engines sramBad logicBad niBad signature s = .next out ∧ anc.Within M out := by
  unfold execSelfTestDone
  refine ⟨_, rfl, ?_⟩
  repeat' first
    | with_reducible assumption | with_reducible refine State.selfTest_frame ?_ ?_ | with_reducible exact hm.mono (by decide)
    | dsimp only

theorem execCoresPhaseEnd_frame {anc : State} {M : Nat} {badCores : List Nat} {s : State} (hm : Sub 0x1ffffffffffffffffffffffffffffffffff M) (hk : anc.Within M s) : ∃ out, execCoresPhaseEnd badCores s = .next out ∧ anc.Within M out := by
  unfold execCoresPhaseEnd
  refine ⟨_, rfl, ?_⟩
  repeat' first
    | with_reducible assumption | with_reducible refine State.coresEnd_frame ?_ ?_ | with_reducible exact hm.mono (by decide)
    | dsimp only

theorem execPhaseTimeout_frame {anc : State} {M : Nat} {s : State} (hm : Sub 0x1ffffffffffffffffffffffffffffffffff M) (hk : anc.Within M s) : ∃ out, execPhaseTimeout s = .next out ∧ anc.Within M out := by
  unfold execPhaseTimeout
  refine ⟨_, rfl, ?_⟩
  repeat' first
    | with_reducible assumption | with_reducible refine State.phaseTimeout_frame ?_ ?_ | with_reducible exact hm.mono (by decide)
    | dsimp only

theorem execModuleLeave_frame {anc : State} {M : Nat} {c : Cmd} {s : State} (hm : Sub 0xe94fc0be7dbe7800000703030100130007 M) (hk : anc.Within M s) : ∃ out, execModuleLeave c s = .next out ∧ anc.Within M out := by
  unfold execModuleLeave
  refine ⟨_, rfl, ?_⟩
  repeat' first
    | with_reducible assumption | with_reducible refine State.moduleLeave_frame ?_ ?_ | with_reducible exact hm.mono (by decide)
    | dsimp only

theorem execLeaveDrainDone_frame {anc : State} {M : Nat} {s : State} (hm : Sub 0xe14fc0be7d007800000703000100130003 M) (hk : anc.Within M s) : ∃ out, execLeaveDrainDone s = .next out ∧ anc.Within M out := by
  unfold execLeaveDrainDone
  refine ⟨_, rfl, ?_⟩
  repeat' first
    | with_reducible assumption | with_reducible refine State.leaveDrained_frame ?_ ?_ | with_reducible exact hm.mono (by decide)
    | dsimp only

theorem execLeaveLimit_frame {anc : State} {M : Nat} {s : State} (hm : Sub 0xe14fc0be7d007800000703000100130003 M) (hk : anc.Within M s) : ∃ out, execLeaveLimit s = .next out ∧ anc.Within M out := by
  unfold execLeaveLimit
  refine ⟨_, rfl, ?_⟩
  repeat' first
    | with_reducible assumption | with_reducible refine State.leaveLimit_frame ?_ ?_ | with_reducible exact hm.mono (by decide)
    | dsimp only

end Sys2Proof.Machine
end

