-- ==== Sys2Proof/Laws/Frame/SCore.lean ====
section
/-! SUPPORT. Every operation and meaning of Machine/SCore.lean changes only the register areas and parts of the state its mask names. -/

namespace Sys2Proof.Machine

set_option linter.unreachableTactic false
set_option linter.unusedTactic false

theorem State.scoreTrap_frame {anc : State} {M : Nat} {s : State} {ck : Nat} {pc : Nat} {cause : Nat} {tval : Nat} (hm : Sub 0x1000000000000000000000000000000 M) (hk : anc.Within M s) : anc.Within M (State.scoreTrap s ck pc cause tval) := by
  unfold State.scoreTrap
  repeat' first
    | with_reducible assumption | with_reducible refine State.setSc_frame ?_ ?_ | with_reducible exact hm.mono (by decide)
    | dsimp only

theorem State.customTrap_frame {anc : State} {M : Nat} {s : State} {ck : Nat} {pc : Nat} {cause : Nat} {tval : Nat} (hm : Sub 0x1000000000000000000000000200000 M) (hk : anc.Within M s) : anc.Within M (State.customTrap s ck pc cause tval) := by
  unfold State.customTrap
  repeat' first
    | with_reducible assumption | with_reducible refine State.wf_frame ?_ ?_ | with_reducible refine State.scoreTrap_frame ?_ ?_
    | with_reducible exact hm.mono (by decide) | with_reducible exact hm.bit (by decide) | dsimp only

theorem State.hollowLoad_frame {anc : State} {M : Nat} {s : State} {ck : Nat} {pc : Nat} {a : Nat} {n : Nat} {lost : Bool} (hm : Sub 0x1000000001800000000000000200000 M) (hk : anc.Within M s) : anc.Within M (State.hollowLoad s ck pc a n lost) := by
  unfold State.hollowLoad
  repeat' first
    | with_reducible assumption | with_reducible refine State.setInt_frame ?_ ?_ ?_
    | with_reducible refine State.customTrap_frame ?_ ?_ | with_reducible refine ite_frame ?_ ?_
    | with_reducible exact hm.mono (by decide) | with_reducible exact hm.bit (by decide)
    | ((with_reducible refine page_bit (B := ?_) (n := ?_) (k := ?_) hm ?_ ?_ ?_); (on_goal 4 => rfl); all_goals decide)
    | with_reducible exact corePage_bit hm (by decide) (by decide) (by decide) | split | dsimp only

theorem State.accessFault_frame {anc : State} {M : Nat} {s : State} {ck : Nat} {pc : Nat} {a : Nat} {n : Nat} {kind : Nat} (hm : Sub 0x1000000000000000000000000000000 M) (hk : anc.Within M s) : anc.Within M (State.accessFault s ck pc a n kind) := by
  unfold State.accessFault
  repeat' first
    | with_reducible assumption | with_reducible refine State.scoreTrap_frame ?_ ?_ | with_reducible refine ite_frame ?_ ?_
    | with_reducible exact hm.mono (by decide) | split | dsimp only

theorem State.beat_frame {anc : State} {M : Nat} {s : State} {ck : Nat} (hm : Sub 0x1000000000000000000000000200000 M) (hk : anc.Within M s) : anc.Within M (State.beat s ck) := by
  unfold State.beat
  repeat' first
    | with_reducible assumption | with_reducible refine State.wf_frame ?_ ?_ | with_reducible refine State.setSc_frame ?_ ?_
    | with_reducible exact hm.mono (by decide) | with_reducible exact hm.bit (by decide) | dsimp only

theorem State.timerLevel_frame {anc : State} {M : Nat} {s : State} {ck : Nat} (hm : Sub 0x1000000000080000000000000000000 M) (hk : anc.Within M s) : anc.Within M (State.timerLevel s ck) := by
  unfold State.timerLevel
  repeat' first
    | with_reducible assumption | with_reducible refine State.setSc_frame ?_ ?_ | with_reducible exact hm.mono (by decide)
    | dsimp only

theorem State.txSend_frame {anc : State} {M : Nat} {s : State} {ck : Nat} {off : Nat} (hm : Sub 0x1000000000000000000000000000000 M) (hk : anc.Within M s) : anc.Within M (State.txSend s ck off) := by
  unfold State.txSend
  repeat' first
    | with_reducible assumption | with_reducible refine State.setSc_frame ?_ ?_ | with_reducible refine ite_frame ?_ ?_
    | with_reducible exact hm.mono (by decide) | split | dsimp only

theorem State.rxTail_frame {anc : State} {M : Nat} {s : State} {ck : Nat} {v : Nat} (hm : Sub 0xe009000000007880000003000000000002 M) (hk : anc.Within M s) : anc.Within M (State.rxTail s ck v) := by
  unfold State.rxTail
  repeat' first
    | with_reducible assumption | with_reducible refine State.setSc_frame ?_ ?_ | with_reducible refine State.wf_frame ?_ ?_
    | with_reducible refine State.freePip_frame ?_ ?_ | with_reducible refine State.each_frame ?_ ?_ | intro _
    | with_reducible exact hm.mono (by decide) | with_reducible exact hm.bit (by decide) | dsimp only

theorem State.ringDoorbell_frame {anc : State} {M : Nat} {s : State} {ck : Nat} {off : Nat} (hm : Sub 0x20000000000000000000000000 M) (hk : anc.Within M s) : anc.Within M (State.ringDoorbell s ck off) := by
  unfold State.ringDoorbell
  repeat' first
    | with_reducible assumption | with_reducible refine ite_frame ?_ ?_ | with_reducible exact hm.mono (by decide)
    | with_reducible exact hm.bit (by decide) | simp only [or_true, true_and, and_true] | with_reducible refine And.intro ?_ ?_
    | with_reducible exact .inl (hm.bit (by decide)) | split | dsimp only | with_reducible refine State.frame_mk ?_ ?_

theorem State.lcbWrite_frame {anc : State} {M : Nat} {s : State} {ck off w : Nat} (hm : Sub 0xe009800020007880000003000000300002 M) (hk : anc.Within M s) :
    anc.Within M (State.lcbWrite s ck off w) := by
  unfold State.lcbWrite
  dsimp only [List.foldl_cons, List.foldl_nil]
  repeat' first
    | with_reducible assumption
    | with_reducible refine State.timerLevel_frame ?_ ?_
    | with_reducible refine State.rxTail_frame ?_ ?_
    | with_reducible refine State.txSend_frame ?_ ?_
    | with_reducible refine State.beat_frame ?_ ?_
    | with_reducible refine State.kvGo_frame ?_ ?_
    | with_reducible refine State.ringDoorbell_frame ?_ ?_
    | with_reducible refine State.wf_frame ?_ ?_
    | with_reducible refine State.each_frame ?_ ?_
    | with_reducible refine foldl_frame ?_ ?_
    | with_reducible refine foldl_frame_pair ?_ ?_
    | with_reducible refine foldl_frame_triple ?_ ?_
    | with_reducible refine State.when_frame ?_ ?_
    | intro _
    | with_reducible refine ite_frame ?_ ?_
    | with_reducible exact hm.mono (by decide)
    | with_reducible exact hm.bit (by decide)
    | ((with_reducible refine page_bit (B := ?_) (n := ?_) (k := ?_) hm ?_ ?_ ?_); (on_goal 4 => rfl); all_goals decide)
    | with_reducible exact corePage_bit hm (by decide) (by decide) (by decide)
    | simp only [or_true, true_and, and_true]
    | with_reducible refine And.intro ?_ ?_
    | with_reducible exact .inl (hm.bit (by decide))
    | split
    | dsimp only
    | with_reducible refine State.frame_mk ?_ ?_

theorem State.scoreStore_frame {anc : State} {M : Nat} {s : State} {ck : Nat} {off : Nat} {w : Nat} (hm : Sub 0xe009800020007880000003000000300002 M) (hk : anc.Within M s) : anc.Within M (State.scoreStore s ck off w) := by
  unfold State.scoreStore
  repeat' first
    | with_reducible assumption | with_reducible refine State.lcbWrite_frame ?_ ?_ | with_reducible refine ite_frame ?_ ?_
    | with_reducible exact hm.mono (by decide) | split | dsimp only

theorem State.mtimecmp_frame {anc : State} {M : Nat} {s : State} {ck : Nat} (hm : Sub 0x1000000000080000000000000000000 M) (hk : anc.Within M s) : anc.Within M (State.mtimecmp s ck) := by
  unfold State.mtimecmp
  repeat' first
    | with_reducible assumption | with_reducible refine State.timerLevel_frame ?_ ?_ | with_reducible refine ite_frame ?_ ?_
    | with_reducible exact hm.mono (by decide) | split | dsimp only

theorem State.mailbox_frame {anc : State} {M : Nat} {s : State} {ck : Nat} {w : Nat} (hm : Sub 0x1000000000080000000000000000000 M) (hk : anc.Within M s) : anc.Within M (State.mailbox s ck w) := by
  unfold State.mailbox
  repeat' first
    | with_reducible assumption | with_reducible refine State.setSc_frame ?_ ?_ | with_reducible refine State.wf_frame ?_ ?_
    | with_reducible refine ite_frame ?_ ?_ | with_reducible exact hm.mono (by decide) | with_reducible exact hm.bit (by decide)
    | split | dsimp only

theorem State.txInject_frame {anc : State} {M : Nat} {s : State} {ck : Nat} {a l : List Nat} {t : State} (hm : Sub 0xe005000000007800000003000001010002 M)
    (heqx : State.txInject s ck a l = some t) (hk : anc.Within M s) : anc.Within M t := by
  induction l generalizing a with
  | nil => simp [State.txInject] at heqx
  | cons x l ih =>
    simp only [State.txInject] at heqx
    split at heqx
    · exact ih heqx
    · split at heqx
      · injection heqx with heqx
        subst heqx
        exact State.setSc_frame (hm.mono (by decide)) (State.inject_frame_some (hm.mono (by decide)) ‹_› hk)
      · exact ih heqx

theorem State.pipSendS_frame {anc : State} {M : Nat} {s : State} {ck : Nat} (hm : Sub 0xe005000000007800000003000001010002 M) (hk : anc.Within M s) : anc.Within M (State.pipSendS s ck) := by
  unfold State.pipSendS
  repeat' first
    | with_reducible assumption | refine State.txInject_frame ?_ (by with_reducible assumption) ?_
    | refine State.inject_frame_some ?_ (by with_reducible assumption) ?_ | with_reducible refine State.inject_frame ?_ ?_
    | refine State.inject_frame_eq ?_ (by with_reducible assumption) ?_ | with_reducible exact hm.mono (by decide) | split
    | dsimp only

theorem State.pipSend_frame {anc : State} {M : Nat} {s : State} {ck : Nat} (hm : Sub 0xe005c00000007800000003000001130002 M) (hk : anc.Within M s) : anc.Within M (State.pipSend s ck) := by
  unfold State.pipSend
  repeat' first
    | with_reducible assumption | with_reducible refine State.pipSendM_frame ?_ ?_ | with_reducible refine State.pipSendV_frame ?_ ?_
    | with_reducible refine State.pipSendS_frame ?_ ?_ | with_reducible refine ite_frame ?_ ?_
    | with_reducible exact hm.mono (by decide) | split | dsimp only

theorem State.seamFlit_frame {anc : State} {M : Nat} {s : State} {r : Nat} {port : Nat} (hm : Sub 0x2000000 M) (hk : anc.Within M s) : anc.Within M (State.seamFlit s r port) := by
  unfold State.seamFlit
  repeat' first
    | with_reducible assumption | with_reducible refine State.inc_frame ?_ ?_ | with_reducible refine ite_frame ?_ ?_
    | with_reducible exact hm.mono (by decide) | with_reducible exact hm.bit (by decide)
    | ((with_reducible refine page_bit (B := ?_) (n := ?_) (k := ?_) hm ?_ ?_ ?_); (on_goal 4 => rfl); all_goals decide)
    | with_reducible exact corePage_bit hm (by decide) (by decide) (by decide) | split | dsimp only

theorem State.linkFailed_frame {anc : State} {M : Nat} {s : State} {r : Nat} {port : Nat} (hm : Sub 0xe1cfc0be7d007800000703000101130003 M) (hk : anc.Within M s) : anc.Within M (State.linkFailed s r port) := by
  unfold State.linkFailed
  repeat' first
    | with_reducible assumption | with_reducible refine State.wf_frame ?_ ?_ | with_reducible refine State.dieFailure_frame ?_ ?_
    | with_reducible refine State.blockErr_frame ?_ ?_ ?_ | with_reducible refine ite_frame ?_ ?_
    | with_reducible exact hm.mono (by decide) | with_reducible exact hm.bit (by decide)
    | ((with_reducible refine page_bit (B := ?_) (n := ?_) (k := ?_) hm ?_ ?_ ?_); (on_goal 4 => rfl); all_goals decide)
    | with_reducible exact corePage_bit hm (by decide) (by decide) (by decide) | simp only [or_true, true_and, and_true]
    | with_reducible refine And.intro ?_ ?_ | with_reducible exact .inl (hm.bit (by decide)) | split | dsimp only
    | with_reducible refine State.frame_mk ?_ ?_

theorem State.flitReceive_frame {anc : State} {M : Nat} {s : State} {r : Nat} {port : Nat} {f : Flit} (hm : Sub 0xe1cfc0be7d007800000703000103130003 M) (hk : anc.Within M s) : anc.Within M (State.flitReceive s r port f) := by
  unfold State.flitReceive
  repeat' first
    | with_reducible assumption | with_reducible refine State.takeFlit_frame ?_ ?_
    | with_reducible refine State.acceptFlit_frame ?_ ?_ | with_reducible refine State.seamFlit_frame ?_ ?_
    | with_reducible refine State.setInt_frame ?_ ?_ ?_ | with_reducible refine State.inc_frame ?_ ?_
    | with_reducible refine State.linkFailed_frame ?_ ?_ | with_reducible refine State.retryFlit_frame ?_ ?_
    | with_reducible refine ite_frame ?_ ?_ | with_reducible exact hm.mono (by decide) | with_reducible exact hm.bit (by decide)
    | ((with_reducible refine page_bit (B := ?_) (n := ?_) (k := ?_) hm ?_ ?_ ?_); (on_goal 4 => rfl); all_goals decide)
    | with_reducible exact corePage_bit hm (by decide) (by decide) (by decide) | simp only [or_true, true_and, and_true]
    | with_reducible refine And.intro ?_ ?_ | with_reducible exact .inl (hm.bit (by decide)) | split | dsimp only
    | with_reducible refine State.frame_mk ?_ ?_

theorem execScoreHeartbeat_frame {anc : State} {M : Nat} {ck : Nat} {w : Nat} {s : State} (hm : Sub 0xe009800020007880000003000000300002 M) (hk : anc.Within M s) : ∃ out, execScoreHeartbeat ck w s = .next out ∧ anc.Within M out := by
  unfold execScoreHeartbeat
  refine ⟨_, rfl, ?_⟩
  repeat' first
    | with_reducible assumption | with_reducible refine State.scoreStore_frame ?_ ?_ | with_reducible exact hm.mono (by decide)
    | dsimp only

theorem execMtimecmpInterrupt_frame {anc : State} {M : Nat} {ck : Nat} {s : State} (hm : Sub 0x1000000000080000000000000000000 M) (hk : anc.Within M s) : ∃ out, execMtimecmpInterrupt ck s = .next out ∧ anc.Within M out := by
  unfold execMtimecmpInterrupt
  refine ⟨_, rfl, ?_⟩
  repeat' first
    | with_reducible assumption | with_reducible refine State.mtimecmp_frame ?_ ?_ | with_reducible exact hm.mono (by decide)
    | dsimp only

theorem execTxSend_frame {anc : State} {M : Nat} {ck : Nat} {w : Nat} {s : State} (hm : Sub 0xe009800020007880000003000000300002 M) (hk : anc.Within M s) : ∃ out, execTxSend ck w s = .next out ∧ anc.Within M out := by
  unfold execTxSend
  refine ⟨_, rfl, ?_⟩
  repeat' first
    | with_reducible assumption | with_reducible refine State.scoreStore_frame ?_ ?_ | with_reducible exact hm.mono (by decide)
    | dsimp only

theorem execRxTailWrite_frame {anc : State} {M : Nat} {ck : Nat} {w : Nat} {s : State} (hm : Sub 0xe009800020007880000003000000300002 M) (hk : anc.Within M s) : ∃ out, execRxTailWrite ck w s = .next out ∧ anc.Within M out := by
  unfold execRxTailWrite
  refine ⟨_, rfl, ?_⟩
  repeat' first
    | with_reducible assumption | with_reducible refine State.scoreStore_frame ?_ ?_ | with_reducible exact hm.mono (by decide)
    | dsimp only

theorem execMailbox_frame {anc : State} {M : Nat} {ck : Nat} {w : Nat} {s : State} (hm : Sub 0x1000000000080000000000000000000 M) (hk : anc.Within M s) : ∃ out, execMailbox ck w s = .next out ∧ anc.Within M out := by
  unfold execMailbox
  refine ⟨_, rfl, ?_⟩
  repeat' first
    | with_reducible assumption | with_reducible refine State.mailbox_frame ?_ ?_ | with_reducible exact hm.mono (by decide)
    | dsimp only

theorem execHollowLoad_frame {anc : State} {M : Nat} {ck : Nat} {pc : Nat} {a : Nat} {n : Nat} {lost : Bool} {s : State} (hm : Sub 0x1000000001800000000000000200000 M) (hk : anc.Within M s) : ∃ out, execHollowLoad ck pc a n lost s = .next out ∧ anc.Within M out := by
  unfold execHollowLoad
  refine ⟨_, rfl, ?_⟩
  repeat' first
    | with_reducible assumption | with_reducible refine State.hollowLoad_frame ?_ ?_ | with_reducible exact hm.mono (by decide)
    | dsimp only

theorem execAccessFault_frame {anc : State} {M : Nat} {ck : Nat} {pc : Nat} {a : Nat} {n : Nat} {kind : Nat} {s : State} (hm : Sub 0x1000000000000000000000000000000 M) (hk : anc.Within M s) : ∃ out, execAccessFault ck pc a n kind s = .next out ∧ anc.Within M out := by
  unfold execAccessFault
  refine ⟨_, rfl, ?_⟩
  repeat' first
    | with_reducible assumption | with_reducible refine State.accessFault_frame ?_ ?_ | with_reducible exact hm.mono (by decide)
    | dsimp only

theorem execPipSend_frame {anc : State} {M : Nat} {ck : Nat} {s : State} (hm : Sub 0xe005c00000007800000003000001130002 M) (hk : anc.Within M s) : ∃ out, execPipSend ck s = .next out ∧ anc.Within M out := by
  unfold execPipSend
  refine ⟨_, rfl, ?_⟩
  repeat' first
    | with_reducible assumption | with_reducible refine State.pipSend_frame ?_ ?_ | with_reducible exact hm.mono (by decide)
    | dsimp only

theorem execFlitReceive_frame {anc : State} {M : Nat} {r : Nat} {port : Nat} {data : List Nat} {side : FlitSide} {s : State} (hm : Sub 0xe1cfc0be7d007800000703000103130003 M) (hk : anc.Within M s) : ∃ out, execFlitReceive r port data side s = .next out ∧ anc.Within M out := by
  unfold execFlitReceive
  refine ⟨_, rfl, ?_⟩
  repeat' first
    | with_reducible assumption | with_reducible refine State.flitReceive_frame ?_ ?_ | with_reducible exact hm.mono (by decide)
    | dsimp only

end Sys2Proof.Machine
end

