-- ==== Sys2Proof/Laws/Frame/Access.lean ====
section
/-! SUPPORT. Every operation and meaning of Machine/Access.lean changes only the register areas and parts of the state its mask names. -/

namespace Sys2Proof.Machine

set_option linter.unreachableTactic false
set_option linter.unusedTactic false

theorem State.accessFail_frame {anc : State} {M : Nat} {s : State} {m : Master} {p : Page} {addr : Nat} {data : Nat} {result : Nat} {cause : Nat} (hm : Sub 0x7800000000000000000002 M) (hp2 : M.testBit p.area = true) (hk : anc.Within M s) : anc.Within M (State.accessFail s m p addr data result cause) := by
  unfold State.accessFail
  repeat' first
    | with_reducible assumption | with_reducible refine State.logEv_frame ?_ ?_ | with_reducible refine State.setInt_frame ?_ ?_ ?_
    | with_reducible refine State.capture_frame ?_ ?_ ?_ | with_reducible refine ite_frame ?_ ?_
    | with_reducible exact hm.mono (by decide) | with_reducible exact hm.bit (by decide) | exact hdr_bit hp2 (by decide)
    | ((with_reducible refine page_bit (B := ?_) (n := ?_) (k := ?_) hm ?_ ?_ ?_); (on_goal 4 => rfl); all_goals decide)
    | with_reducible exact corePage_bit hm (by decide) (by decide) (by decide) | split | dsimp only

theorem State.rearm_frame {anc : State} {M : Nat} {s : State} {p : Page} (hm : Sub 0xffffffffffffffffffff M) (hk : anc.Within M s) : anc.Within M (State.rearm s p) := by
  unfold State.rearm
  repeat' first
    | with_reducible assumption | with_reducible refine State.clr_frame ?_ ?_ | with_reducible refine foldl_frame ?_ ?_ | intro _
    | with_reducible exact hm.mono (by decide) | with_reducible exact hm.bit (by decide) | with_reducible exact hm.any (by decide) _
    | with_reducible exact hm.anyPage (by decide) _ | dsimp only

theorem State.beforeRead_frame {anc : State} {M : Nat} {s : State} {p : Page} {off : Nat} (hm : Sub 0x100400000000200010000000000 M) (hk : anc.Within M s) : anc.Within M (State.beforeRead s p off) := by
  unfold State.beforeRead
  repeat' first
    | with_reducible assumption | with_reducible refine State.refill_frame ?_ ?_
    | with_reducible refine State.settlePause_frame ?_ ?_ | with_reducible refine ite_frame ?_ ?_
    | with_reducible exact hm.mono (by decide) | split | dsimp only

theorem State.clearRc_frame {anc : State} {M : Nat} {s : State} {p : Page} {off : Nat} (hm : Sub 0xffffffffffffffffffff M) (hk : anc.Within M s) : anc.Within M (State.clearRc s p off) := by
  unfold State.clearRc
  repeat' first
    | with_reducible assumption | with_reducible refine State.wf_frame ?_ ?_ | with_reducible refine State.each_frame ?_ ?_ | intro _
    | with_reducible exact hm.mono (by decide) | with_reducible exact hm.bit (by decide) | with_reducible exact hm.any (by decide) _
    | with_reducible exact hm.anyPage (by decide) _ | dsimp only

theorem State.readReg_frame {anc : State} {M : Nat} {s : State} {m : Master} {p : Page} {off : Nat} (hm : Sub 0x1004078ffffffffffffffffffff M) (hp2 : M.testBit p.area = true) (hk : anc.Within M s) : anc.Within M (State.readReg s m p off).2.2 := by
  unfold State.readReg
  repeat' first
    | with_reducible assumption | with_reducible refine State.accessFail_frame ?_ ?_ ?_
    | with_reducible refine State.beforeRead_frame ?_ ?_ | with_reducible refine State.clearRc_frame ?_ ?_
    | with_reducible refine ite_frame ?_ ?_ | with_reducible refine ite_frame2 ?_ ?_ | with_reducible refine ite_frame3 ?_ ?_
    | with_reducible exact hm.mono (by decide) | with_reducible exact hm.bit (by decide) | exact hdr_bit hp2 (by decide)
    | ((with_reducible refine page_bit (B := ?_) (n := ?_) (k := ?_) hm ?_ ?_ ?_); (on_goal 4 => rfl); all_goals decide)
    | with_reducible exact corePage_bit hm (by decide) (by decide) (by decide) | with_reducible exact hm.any (by decide) _
    | with_reducible exact hm.anyPage (by decide) _ | split | dsimp only

theorem State.readReg_frame_eq {anc : State} {M : Nat} {s : State} {m : Master} {p : Page} {off : Nat} (hm : Sub 0x1004078ffffffffffffffffffff M) (hp2 : M.testBit p.area = true) {r0 r1 tz} (heqx : State.readReg s m p off = (r0, r1, tz)) (hk : anc.Within M s) : anc.Within M tz := by
  have := State.readReg_frame (s := s) (m := m) (p := p) (off := off) hm hp2 hk
  rwa [heqx] at this

theorem State.storeWord_frame {anc : State} {M : Nat} {s : State} {m : Master} {p : Page} {off : Nat} {w : Nat} (hm : Sub 0xffffffffffffffffffff M) (hk : anc.Within M s) : anc.Within M (State.storeWord s m p off w) := by
  unfold State.storeWord
  repeat' first
    | with_reducible assumption | with_reducible refine State.wf_frame ?_ ?_ | with_reducible refine State.each_frame ?_ ?_ | intro _
    | with_reducible refine ite_frame ?_ ?_ | with_reducible exact hm.mono (by decide) | with_reducible exact hm.bit (by decide)
    | with_reducible exact hm.any (by decide) _ | with_reducible exact hm.anyPage (by decide) _ | split | dsimp only

theorem State.writeCtl_frame {anc : State} {M : Nat} {s : State} {m : Master} {p : Page} {w : Nat} (hm : Sub 0x1ffffffffffffffffffffffffffffffffff M) (hk : anc.Within M s) : anc.Within M (State.writeCtl s m p w) := by
  unfold State.writeCtl
  repeat' first
    | with_reducible assumption | with_reducible refine State.irqUpdate_frame ?_ ?_ | with_reducible refine State.wf_frame ?_ ?_
    | with_reducible refine State.storeWord_frame ?_ ?_ | with_reducible refine State.rearm_frame ?_ ?_
    | with_reducible refine State.retrack_frame ?_ ?_ | with_reducible refine State.pilotNow_frame ?_ ?_
    | with_reducible refine State.scoreStart_frame ?_ ?_ | with_reducible refine State.mirrorVc_frame ?_ ?_
    | with_reducible refine State.ctlReset_frame ?_ ?_ | with_reducible refine State.when_frame ?_ ?_ | intro _
    | with_reducible refine ite_frame ?_ ?_ | with_reducible exact hm.mono (by decide) | with_reducible exact hm.bit (by decide)
    | with_reducible exact hm.any (by decide) _ | with_reducible exact hm.anyPage (by decide) _ | split | dsimp only

theorem State.writeHeader_frame {anc : State} {M : Nat} {s : State} {m : Master} {p : Page} {off : Nat} {w : Nat} (hm : Sub 0x1ffffffffffffffffffffffffffffffffff M) (hk : anc.Within M s) : anc.Within M (State.writeHeader s m p off w) := by
  unfold State.writeHeader
  repeat' first
    | with_reducible assumption | with_reducible refine State.writeCtl_frame ?_ ?_
    | with_reducible refine State.irqUpdate_frame ?_ ?_ | with_reducible refine State.wf_frame ?_ ?_
    | with_reducible refine State.setInts_frame ?_ ?_ ?_ | with_reducible refine ite_frame ?_ ?_
    | with_reducible exact hm.mono (by decide) | with_reducible exact hm.bit (by decide)
    | ((with_reducible refine page_bit (B := ?_) (n := ?_) (k := ?_) hm ?_ ?_ ?_); (on_goal 4 => rfl); all_goals decide)
    | with_reducible exact corePage_bit hm (by decide) (by decide) (by decide) | with_reducible exact hm.any (by decide) _
    | with_reducible exact hm.anyPage (by decide) _ | split | dsimp only

theorem State.writeProg_frame {anc : State} {M : Nat} {s : State} {m : Master} {e : Nat} {w : Nat} (hm : Sub 0x8000e80401078000001000001000c0002 M) (hk : anc.Within M s) : anc.Within M (State.writeProg s m e w) := by
  unfold State.writeProg
  repeat' first
    | with_reducible assumption | with_reducible refine State.progAbort_frame ?_ ?_
    | with_reducible refine State.progStart_frame ?_ ?_ | refine State.progStart_frame_eq ?_ (by with_reducible assumption) ?_
    | with_reducible refine State.tryOwed_frame ?_ ?_ | with_reducible refine State.when_frame ?_ ?_ | intro _
    | with_reducible exact hm.mono (by decide) | dsimp only

theorem State.writePolicy_frame {anc : State} {M : Nat} {s : State} {m : Master} {p : Page} {w : Nat} (hm : Sub 0x78ffffffffffffffffffff M) (hk : anc.Within M s) : anc.Within M (State.writePolicy s m p w) := by
  unfold State.writePolicy
  repeat' first
    | with_reducible assumption | with_reducible refine State.storeWord_frame ?_ ?_ | with_reducible refine State.logEv_frame ?_ ?_
    | with_reducible exact hm.mono (by decide) | dsimp only

theorem State.writeInterleave_frame {anc : State} {M : Nat} {s : State} {g : Nat} (hm : Sub 0x100000000 M) (hk : anc.Within M s) : anc.Within M (State.writeInterleave s g) := by
  unfold State.writeInterleave
  repeat' first
    | with_reducible assumption | with_reducible refine State.wf_frame ?_ ?_ | with_reducible refine State.each_frame ?_ ?_ | intro _
    | with_reducible exact hm.mono (by decide) | with_reducible exact hm.bit (by decide) | dsimp only

theorem State.writePort_frame {anc : State} {M : Nat} {s : State} {m : Master} {p : Page} {w : Nat} (hm : Sub 0x8800000000f678ffffffffffffffffffff M) (hk : anc.Within M s) : anc.Within M (State.writePort s m p w) := by
  unfold State.writePort
  repeat' first
    | with_reducible assumption | with_reducible refine State.storeWord_frame ?_ ?_ | with_reducible refine State.setPort_frame ?_ ?_
    | with_reducible refine State.linkGoesDown_frame ?_ ?_ | with_reducible refine State.portError_frame ?_ ?_
    | with_reducible refine ite_frame ?_ ?_ | with_reducible exact hm.mono (by decide) | split | dsimp only

theorem State.writeAddress_frame {anc : State} {M : Nat} {s : State} {m : Master} {p : Page} {off : Nat} {w : Nat} (hm : Sub 0x8800000000b678ffffffffffffffffffff M) (hk : anc.Within M s) : anc.Within M (State.writeAddress s m p off w) := by
  unfold State.writeAddress
  repeat' first
    | with_reducible assumption | with_reducible refine State.storeWord_frame ?_ ?_
    | with_reducible refine State.portError_frame ?_ ?_ | with_reducible refine State.sendEth_frame ?_ ?_
    | with_reducible refine State.when_frame ?_ ?_ | intro _ | with_reducible exact hm.mono (by decide) | dsimp only

theorem State.writePtp_frame {anc : State} {M : Nat} {s : State} {m : Master} {p : Page} {w : Nat} (hm : Sub 0x2000000000078ffffffffffffffffffff M) (hk : anc.Within M s) : anc.Within M (State.writePtp s m p w) := by
  unfold State.writePtp
  repeat' first
    | with_reducible assumption | with_reducible refine State.storeWord_frame ?_ ?_ | with_reducible refine State.wf_frame ?_ ?_
    | with_reducible refine State.setPtp_frame ?_ ?_ | with_reducible refine State.syncLost_frame ?_ ?_
    | with_reducible refine State.when_frame ?_ ?_ | intro _ | with_reducible refine ite_frame ?_ ?_
    | with_reducible exact hm.mono (by decide) | with_reducible exact hm.bit (by decide) | with_reducible exact hm.any (by decide) _
    | with_reducible exact hm.anyPage (by decide) _ | split | dsimp only

theorem State.writeLinkEn_frame {anc : State} {M : Nat} {s : State} {m : Master} {p : Page} {w : Nat} (hm : Sub 0xe1000000000078ffffffffffffffffffff M) (hk : anc.Within M s) : anc.Within M (State.writeLinkEn s m p w) := by
  unfold State.writeLinkEn
  repeat' first
    | with_reducible assumption | with_reducible refine State.storeWord_frame ?_ ?_ | with_reducible refine State.wf_frame ?_ ?_
    | with_reducible refine State.linkFail_frame ?_ ?_ | with_reducible refine ite_frame ?_ ?_
    | with_reducible exact hm.mono (by decide) | with_reducible exact hm.bit (by decide) | with_reducible exact hm.any (by decide) _
    | with_reducible exact hm.anyPage (by decide) _ | split | dsimp only

theorem State.writeLanes_frame {anc : State} {M : Nat} {s : State} {m : Master} {p : Page} {w : Nat} (hm : Sub 0xe1000000000078ffffffffffffffffffff M) (hk : anc.Within M s) : anc.Within M (State.writeLanes s m p w) := by
  unfold State.writeLanes
  repeat' first
    | with_reducible assumption | with_reducible refine State.storeWord_frame ?_ ?_ | with_reducible refine State.laneBad_frame ?_ ?_
    | with_reducible refine State.each_frame ?_ ?_ | intro _ | with_reducible exact hm.mono (by decide) | dsimp only

theorem State.writeColl_frame {anc : State} {M : Nat} {s : State} {m : Master} {p : Page} {off : Nat} {w : Nat} (hm : Sub 0x140000000000000ffffffffffffffffffff M) (hk : anc.Within M s) : anc.Within M (State.writeColl s m p off w) := by
  unfold State.writeColl
  repeat' first
    | with_reducible assumption | with_reducible refine State.storeWord_frame ?_ ?_ | with_reducible refine State.setColl_frame ?_ ?_
    | with_reducible refine State.draw_frame ?_ ?_ | refine State.draw_frame_eq ?_ (by with_reducible assumption) ?_
    | with_reducible refine State.wf_frame ?_ ?_ | with_reducible refine ite_frame ?_ ?_ | with_reducible exact hm.mono (by decide)
    | with_reducible exact hm.bit (by decide) | with_reducible exact hm.any (by decide) _
    | with_reducible exact hm.anyPage (by decide) _ | split | dsimp only

theorem State.writeTenant_frame {anc : State} {M : Nat} {s : State} {m : Master} {p : Page} {off : Nat} {w : Nat} (hm : Sub 0x1000000ffffffffffffffffffff M) (hk : anc.Within M s) : anc.Within M (State.writeTenant s m p off w) := by
  unfold State.writeTenant
  repeat' first
    | with_reducible assumption | with_reducible refine State.accountRate_frame ?_ ?_
    | with_reducible refine State.storeWord_frame ?_ ?_ | with_reducible refine State.accountEnable_frame ?_ ?_
    | with_reducible refine State.debit_frame ?_ ?_ | with_reducible refine ite_frame ?_ ?_
    | with_reducible exact hm.mono (by decide) | split | dsimp only

theorem State.writeConsumed_frame {anc : State} {M : Nat} {s : State} {r : Nat} {w : Nat} (hm : Sub 0x803e1d007800000700000100110002 M) (hk : anc.Within M s) : anc.Within M (State.writeConsumed s r w) := by
  unfold State.writeConsumed
  repeat' first
    | with_reducible assumption | with_reducible refine State.wf_frame ?_ ?_ | with_reducible refine State.ringRetry_frame ?_ ?_
    | with_reducible exact hm.mono (by decide) | with_reducible exact hm.bit (by decide) | dsimp only

theorem State.writeOther_frame {anc : State} {M : Nat} {s : State} {m : Master} {p : Page} {off : Nat} {w : Nat} (hm : Sub 0xf8c0c0be3db678ffffffffffffffffffff M) (hk : anc.Within M s) : anc.Within M (State.writeOther s m p off w) := by
  unfold State.writeOther
  repeat' first
    | with_reducible assumption | with_reducible refine State.storeWord_frame ?_ ?_
    | with_reducible refine State.sendStandins_frame ?_ ?_ | with_reducible refine State.retrack_frame ?_ ?_
    | with_reducible refine State.mapSwitch_frame ?_ ?_ | with_reducible refine State.qpClose_frame ?_ ?_
    | with_reducible refine State.semOp_frame ?_ ?_ | with_reducible refine State.syncMode_frame ?_ ?_
    | with_reducible refine State.wf_frame ?_ ?_ | with_reducible refine State.urgentGo_frame ?_ ?_
    | with_reducible refine State.drainLimit_frame ?_ ?_ | with_reducible refine State.replanNow_frame ?_ ?_
    | with_reducible refine State.clearFaults_frame ?_ ?_ | with_reducible refine State.when_frame ?_ ?_ | intro _
    | with_reducible refine ite_frame ?_ ?_ | with_reducible exact hm.mono (by decide) | with_reducible exact hm.bit (by decide)
    | with_reducible exact hm.any (by decide) _ | with_reducible exact hm.anyPage (by decide) _
    | simp only [or_true, true_and, and_true] | with_reducible refine And.intro ?_ ?_
    | with_reducible exact .inl (hm.bit (by decide)) | split | dsimp only | with_reducible refine State.frame_mk ?_ ?_

theorem State.writeBlock_frame {anc : State} {M : Nat} {s : State} {m : Master} {p : Page} {off : Nat} {w : Nat} (hm : Sub 0x1fbceceff7df678ffffffffffffffffffff M) (hk : anc.Within M s) : anc.Within M (State.writeBlock s m p off w).2.2 := by
  unfold State.writeBlock
  repeat' first
    | with_reducible assumption | with_reducible refine State.holdCheck_frame ?_ ?_ | with_reducible refine State.tryOwed_frame ?_ ?_
    | with_reducible refine State.bind_frame ?_ ?_ | with_reducible refine State.writeProg_frame ?_ ?_
    | with_reducible refine State.storeWord_frame ?_ ?_ | with_reducible refine State.writePolicy_frame ?_ ?_
    | with_reducible refine State.writeInterleave_frame ?_ ?_ | with_reducible refine State.wf_frame ?_ ?_
    | with_reducible refine State.writePort_frame ?_ ?_ | with_reducible refine State.writeAddress_frame ?_ ?_
    | with_reducible refine State.writePtp_frame ?_ ?_ | with_reducible refine State.writeLinkEn_frame ?_ ?_
    | with_reducible refine State.writeLanes_frame ?_ ?_ | with_reducible refine State.writeColl_frame ?_ ?_
    | with_reducible refine State.writeTenant_frame ?_ ?_ | with_reducible refine State.writeConsumed_frame ?_ ?_
    | with_reducible refine State.writeOther_frame ?_ ?_ | with_reducible refine State.each_frame ?_ ?_ | intro _
    | with_reducible refine ite_frame ?_ ?_ | with_reducible refine ite_frame2 ?_ ?_ | with_reducible refine ite_frame3 ?_ ?_
    | with_reducible exact hm.mono (by decide) | with_reducible exact hm.bit (by decide) | with_reducible exact hm.any (by decide) _
    | with_reducible exact hm.anyPage (by decide) _ | split | dsimp only

theorem State.writeBlock_frame_eq {anc : State} {M : Nat} {s : State} {m : Master} {p : Page} {off : Nat} {w : Nat} (hm : Sub 0x1fbceceff7df678ffffffffffffffffffff M) {r0 r1 tz} (heqx : State.writeBlock s m p off w = (r0, r1, tz)) (hk : anc.Within M s) : anc.Within M tz := by
  have := State.writeBlock_frame (s := s) (m := m) (p := p) (off := off) (w := w) hm hk
  rwa [heqx] at this

theorem State.writeReg_frame {anc : State} {M : Nat} {s : State} {m : Master} {p : Page} {off : Nat} {w0 : Nat} (hm : Sub 0x1ffffffffffffffffffffffffffffffffff M) (hp2 : M.testBit p.area = true) (hk : anc.Within M s) : anc.Within M (State.writeReg s m p off w0).2 := by
  unfold State.writeReg
  repeat' first
    | with_reducible assumption | with_reducible refine State.accessFail_frame ?_ ?_ ?_
    | with_reducible refine State.writeHeader_frame ?_ ?_ | with_reducible refine State.writeBlock_frame ?_ ?_
    | refine State.writeBlock_frame_eq ?_ (by with_reducible assumption) ?_ | with_reducible refine ite_frame ?_ ?_
    | with_reducible refine ite_frame2 ?_ ?_ | with_reducible refine ite_frame3 ?_ ?_ | with_reducible exact hm.mono (by decide)
    | with_reducible exact hm.bit (by decide) | exact hdr_bit hp2 (by decide)
    | ((with_reducible refine page_bit (B := ?_) (n := ?_) (k := ?_) hm ?_ ?_ ?_); (on_goal 4 => rfl); all_goals decide)
    | with_reducible exact corePage_bit hm (by decide) (by decide) (by decide) | with_reducible exact hm.any (by decide) _
    | with_reducible exact hm.anyPage (by decide) _ | split | dsimp only

theorem State.writeReg_frame_eq {anc : State} {M : Nat} {s : State} {m : Master} {p : Page} {off : Nat} {w0 : Nat} (hm : Sub 0x1ffffffffffffffffffffffffffffffffff M) (hp2 : M.testBit p.area = true) {r0 tz} (heqx : State.writeReg s m p off w0 = (r0, tz)) (hk : anc.Within M s) : anc.Within M tz := by
  have := State.writeReg_frame (s := s) (m := m) (p := p) (off := off) (w0 := w0) hm hp2 hk
  rwa [heqx] at this

end Sys2Proof.Machine
end

