-- ==== Sys2Proof/Laws/Frame/Window.lean ====
section
/-! SUPPORT. Every operation and meaning of Machine/Window.lean changes only the register areas and parts of the state its mask names. -/

namespace Sys2Proof.Machine

set_option linter.unreachableTactic false
set_option linter.unusedTactic false

theorem State.memFail_frame {anc : State} {M : Nat} {s : State} {m : Master} {page : Nat} {addr : Nat} {data : Nat} {result : Nat} (hm : Sub 0x7800000000000000000002 M) (hk : anc.Within M s) : anc.Within M (State.memFail s m page addr data result) := by
  unfold State.memFail
  repeat' first
    | with_reducible assumption | with_reducible refine State.logEv_frame ?_ ?_ | with_reducible exact hm.mono (by decide)
    | dsimp only

theorem State.wordRead_frame {anc : State} {M : Nat} {s : State} {m : Master} {a : Nat} (hm : Sub 0x1000000d004078ffffffffffffffffffff M) (hk : anc.Within M s) : anc.Within M (State.wordRead s m a).2.2.2 := by
  unfold State.wordRead
  repeat' first
    | with_reducible assumption | with_reducible refine State.hbmAccess_frame ?_ ?_
    | refine State.hbmAccess_frame_eq ?_ (by with_reducible assumption) ?_ | with_reducible refine State.memFail_frame ?_ ?_
    | with_reducible refine State.codeRead_frame ?_ ?_ | refine State.codeRead_frame_eq ?_ (by with_reducible assumption) ?_
    | with_reducible refine State.inc_frame ?_ ?_ | with_reducible refine State.readReg_frame ?_ ?_ ?_
    | refine State.readReg_frame_eq ?_ ?_ (by with_reducible assumption) ?_ | with_reducible refine State.when_frame ?_ ?_ | intro _
    | with_reducible refine ite_frame ?_ ?_ | with_reducible refine ite_frame2 ?_ ?_ | with_reducible refine ite_frame3 ?_ ?_
    | with_reducible exact hm.mono (by decide) | with_reducible exact hm.bit (by decide)
    | ((with_reducible refine page_bit (B := ?_) (n := ?_) (k := ?_) hm ?_ ?_ ?_); (on_goal 4 => rfl); all_goals decide)
    | with_reducible exact corePage_bit hm (by decide) (by decide) (by decide) | with_reducible exact hm.any (by decide) _
    | with_reducible exact hm.anyPage (by decide) _ | split | dsimp only

theorem State.wordRead_frame_eq {anc : State} {M : Nat} {s : State} {m : Master} {a : Nat} (hm : Sub 0x1000000d004078ffffffffffffffffffff M) {r0 r1 r2 tz} (heqx : State.wordRead s m a = (r0, r1, r2, tz)) (hk : anc.Within M s) : anc.Within M tz := by
  have := State.wordRead_frame (s := s) (m := m) (a := a) hm hk
  rwa [heqx] at this

theorem State.wordWrite_frame {anc : State} {M : Nat} {s : State} {m : Master} {a : Nat} {w : Nat} (hm : Sub 0x1ffffffffffffffffffffffffffffffffff M) (hk : anc.Within M s) : anc.Within M (State.wordWrite s m a w).2 := by
  unfold State.wordWrite
  repeat' first
    | with_reducible assumption | with_reducible refine State.hbmAccess_frame ?_ ?_
    | refine State.hbmAccess_frame_eq ?_ (by with_reducible assumption) ?_ | with_reducible refine State.memFail_frame ?_ ?_
    | with_reducible refine State.codeWrite_frame ?_ ?_ | refine State.codeWrite_frame_eq ?_ (by with_reducible assumption) ?_
    | with_reducible refine State.writeReg_frame ?_ ?_ ?_ | refine State.writeReg_frame_eq ?_ ?_ (by with_reducible assumption) ?_
    | with_reducible refine State.accessFail_frame ?_ ?_ ?_ | with_reducible refine State.sramWrite_frame ?_ ?_
    | with_reducible refine State.when_frame ?_ ?_ | intro _ | with_reducible refine ite_frame ?_ ?_
    | with_reducible refine ite_frame2 ?_ ?_ | with_reducible refine ite_frame3 ?_ ?_ | with_reducible exact hm.mono (by decide)
    | with_reducible exact hm.bit (by decide)
    | ((with_reducible refine page_bit (B := ?_) (n := ?_) (k := ?_) hm ?_ ?_ ?_); (on_goal 4 => rfl); all_goals decide)
    | with_reducible exact corePage_bit hm (by decide) (by decide) (by decide) | with_reducible exact hm.any (by decide) _
    | with_reducible exact hm.anyPage (by decide) _ | split | dsimp only

theorem State.wordWrite_frame_eq {anc : State} {M : Nat} {s : State} {m : Master} {a : Nat} {w : Nat} (hm : Sub 0x1ffffffffffffffffffffffffffffffffff M) {r0 tz} (heqx : State.wordWrite s m a w = (r0, tz)) (hk : anc.Within M s) : anc.Within M tz := by
  have := State.wordWrite_frame (s := s) (m := m) (a := a) (w := w) hm hk
  rwa [heqx] at this

theorem State.regScan_frame {anc : State} {M : Nat} {s : State} {m : Master} {a : Nat} {n : Nat} (hm : Sub 0x1000000d004078ffffffffffffffffffff M) (hk : anc.Within M s) : anc.Within M (State.regScan s m a n).2 := by
  unfold State.regScan
  repeat' first
    | with_reducible assumption | with_reducible refine State.wordRead_frame ?_ ?_
    | refine State.wordRead_frame_eq ?_ (by with_reducible assumption) ?_ | with_reducible refine foldl_frame ?_ ?_
    | with_reducible refine foldl_frame_pair ?_ ?_ | with_reducible refine foldl_frame_triple ?_ ?_ | intro _
    | with_reducible refine ite_frame ?_ ?_ | with_reducible refine ite_frame2 ?_ ?_ | with_reducible refine ite_frame3 ?_ ?_
    | with_reducible exact hm.mono (by decide) | split | dsimp only

theorem State.regScan_frame_eq {anc : State} {M : Nat} {s : State} {m : Master} {a : Nat} {n : Nat} (hm : Sub 0x1000000d004078ffffffffffffffffffff M) {r0 tz} (heqx : State.regScan s m a n = (r0, tz)) (hk : anc.Within M s) : anc.Within M tz := by
  have := State.regScan_frame (s := s) (m := m) (a := a) (n := n) hm hk
  rwa [heqx] at this

theorem State.regApply_frame {anc : State} {M : Nat} {s : State} {m : Master} {x2 : Nat} {x3 : Nat} {x4 : List Nat} (hm : Sub 0x1ffffffffffffffffffffffffffffffffff M) (hk : anc.Within M s) : anc.Within M (State.regApply s m x2 x3 x4).2.2 := by
  induction x4 generalizing s x2 x3 with
  | nil =>
  simp only [State.regApply]
  try repeat' first
    | with_reducible assumption | with_reducible refine State.wordWrite_frame ?_ ?_
    | refine State.wordWrite_frame_eq ?_ (by with_reducible assumption) ?_ | with_reducible refine State.each_frame ?_ ?_
    | with_reducible refine foldl_frame ?_ ?_ | with_reducible refine foldl_frame_pair ?_ ?_
    | with_reducible refine foldl_frame_triple ?_ ?_ | with_reducible refine State.when_frame ?_ ?_ | intro _
    | with_reducible refine ite_frame ?_ ?_ | with_reducible refine ite_frame2 ?_ ?_ | with_reducible refine ite_frame3 ?_ ?_
    | with_reducible exact hm.mono (by decide) | with_reducible exact hm.bit (by decide) | with_reducible exact hm.any (by decide) _
    | with_reducible exact hm.anyPage (by decide) _ | simp only [or_true, true_and, and_true] | with_reducible refine And.intro ?_ ?_
    | with_reducible exact .inl (hm.bit (by decide)) | split | dsimp only | with_reducible refine State.frame_mk ?_ ?_
  | cons y l ih =>
  simp only [State.regApply]
  repeat' first
    | with_reducible assumption | with_reducible apply ih | with_reducible refine State.wordWrite_frame ?_ ?_
    | refine State.wordWrite_frame_eq ?_ (by with_reducible assumption) ?_ | with_reducible refine State.each_frame ?_ ?_
    | with_reducible refine foldl_frame ?_ ?_ | with_reducible refine foldl_frame_pair ?_ ?_
    | with_reducible refine foldl_frame_triple ?_ ?_ | with_reducible refine State.when_frame ?_ ?_ | intro _
    | with_reducible refine ite_frame ?_ ?_ | with_reducible refine ite_frame2 ?_ ?_ | with_reducible refine ite_frame3 ?_ ?_
    | with_reducible exact hm.mono (by decide) | with_reducible exact hm.bit (by decide) | with_reducible exact hm.any (by decide) _
    | with_reducible exact hm.anyPage (by decide) _ | simp only [or_true, true_and, and_true] | with_reducible refine And.intro ?_ ?_
    | with_reducible exact .inl (hm.bit (by decide)) | split | dsimp only | with_reducible refine State.frame_mk ?_ ?_

theorem State.regApply_frame_eq {anc : State} {M : Nat} {s : State} {m : Master} {x2 : Nat} {x3 : Nat} {x4 : List Nat} (hm : Sub 0x1ffffffffffffffffffffffffffffffffff M) {r0 r1 tz} (heqx : State.regApply s m x2 x3 x4 = (r0, r1, tz)) (hk : anc.Within M s) : anc.Within M tz := by
  have := State.regApply_frame (s := s) (m := m) (x2 := x2) (x3 := x3) (x4 := x4) hm hk
  rwa [heqx] at this

theorem State.regRead_frame {anc : State} {M : Nat} {s : State} {i : Instr} {c : Cmd} (hm : Sub 0x9800000d00fe78ffffffffffffffffffff M) (hk : anc.Within M s) : anc.Within M (State.regRead s i c) := by
  unfold State.regRead
  repeat' first
    | with_reducible assumption | with_reducible refine State.vorane_frame ?_ ?_ ?_ | with_reducible refine State.reply_frame ?_ ?_
    | with_reducible refine State.memFail_frame ?_ ?_ | with_reducible refine State.regScan_frame ?_ ?_
    | refine State.regScan_frame_eq ?_ (by with_reducible assumption) ?_ | intro _ | with_reducible refine ite_frame ?_ ?_
    | with_reducible exact hm.mono (by decide) | split | dsimp only

theorem State.regWrite_frame {anc : State} {M : Nat} {s : State} {i : Instr} {c : Cmd} (hm : Sub 0x1ffffffffffffffffffffffffffffffffff M) (hk : anc.Within M s) : anc.Within M (State.regWrite s i c) := by
  unfold State.regWrite
  repeat' first
    | with_reducible assumption | with_reducible refine State.vorane_frame ?_ ?_ ?_ | with_reducible refine State.reply_frame ?_ ?_
    | with_reducible refine State.memFail_frame ?_ ?_ | with_reducible refine State.regApply_frame ?_ ?_
    | refine State.regApply_frame_eq ?_ (by with_reducible assumption) ?_ | intro _ | with_reducible refine ite_frame ?_ ?_
    | with_reducible exact hm.mono (by decide) | split | dsimp only

theorem State.scoreResponse_frame {anc : State} {M : Nat} {s : State} {ck : Nat} {pc : Nat} {a : Nat} {r : Nat} {v : Nat} (hm : Sub 0x1000000000000000000000000200000 M) (hk : anc.Within M s) : anc.Within M (State.scoreResponse s ck pc a r v) := by
  unfold State.scoreResponse
  repeat' first
    | with_reducible assumption | with_reducible refine State.setSc_frame ?_ ?_ | with_reducible refine State.customTrap_frame ?_ ?_
    | with_reducible refine ite_frame ?_ ?_ | with_reducible exact hm.mono (by decide) | split | dsimp only

theorem State.narrowAccess_frame {anc : State} {M : Nat} {s : State} {m : Master} {p : Page} {addr : Nat} {data : Nat} (hm : Sub 0x7800000000000000000002 M) (hp2 : M.testBit p.area = true) (hk : anc.Within M s) : anc.Within M (State.narrowAccess s m p addr data).2 := by
  unfold State.narrowAccess
  repeat' first
    | with_reducible assumption | with_reducible refine State.accessFail_frame ?_ ?_ ?_ | with_reducible refine ite_frame ?_ ?_
    | with_reducible refine ite_frame2 ?_ ?_ | with_reducible refine ite_frame3 ?_ ?_ | with_reducible exact hm.mono (by decide)
    | with_reducible exact hm.bit (by decide) | exact hdr_bit hp2 (by decide)
    | ((with_reducible refine page_bit (B := ?_) (n := ?_) (k := ?_) hm ?_ ?_ ?_); (on_goal 4 => rfl); all_goals decide)
    | with_reducible exact corePage_bit hm (by decide) (by decide) (by decide) | split | dsimp only

theorem State.narrowAccess_frame_eq {anc : State} {M : Nat} {s : State} {m : Master} {p : Page} {addr : Nat} {data : Nat} (hm : Sub 0x7800000000000000000002 M) (hp2 : M.testBit p.area = true) {r0 tz} (heqx : State.narrowAccess s m p addr data = (r0, tz)) (hk : anc.Within M s) : anc.Within M tz := by
  have := State.narrowAccess_frame (s := s) (m := m) (p := p) (addr := addr) (data := data) hm hp2 hk
  rwa [heqx] at this

theorem State.scoreAccess_frame {anc : State} {M : Nat} {s : State} {ck : Nat} {pc : Nat} {a : Nat} {n : Nat} {store : Option Nat} (hm : Sub 0x1ffffffffffffffffffffffffffffffffff M) (hk : anc.Within M s) : anc.Within M (State.scoreAccess s ck pc a n store) := by
  unfold State.scoreAccess
  repeat' first
    | with_reducible assumption | with_reducible refine State.scoreTrap_frame ?_ ?_
    | with_reducible refine State.narrowAccess_frame ?_ ?_ ?_
    | refine State.narrowAccess_frame_eq ?_ ?_ (by with_reducible assumption) ?_
    | with_reducible refine State.scoreResponse_frame ?_ ?_ | with_reducible refine State.writeReg_frame ?_ ?_ ?_
    | refine State.writeReg_frame_eq ?_ ?_ (by with_reducible assumption) ?_ | with_reducible refine State.readReg_frame ?_ ?_ ?_
    | refine State.readReg_frame_eq ?_ ?_ (by with_reducible assumption) ?_ | with_reducible refine ite_frame ?_ ?_
    | with_reducible exact hm.mono (by decide) | with_reducible exact hm.bit (by decide)
    | ((with_reducible refine page_bit (B := ?_) (n := ?_) (k := ?_) hm ?_ ?_ ?_); (on_goal 4 => rfl); all_goals decide)
    | with_reducible exact corePage_bit hm (by decide) (by decide) (by decide) | with_reducible exact hm.any (by decide) _
    | with_reducible exact hm.anyPage (by decide) _ | split | dsimp only

theorem State.scoreMemStore_frame {anc : State} {M : Nat} {s : State} {ck : Nat} {a : Nat} {w : Nat} (hm : Sub 0x1ffffffffffffffffffffffffffffffffff M) (hk : anc.Within M s) : anc.Within M (State.scoreMemStore s ck a w) := by
  unfold State.scoreMemStore
  repeat' first
    | with_reducible assumption | with_reducible refine State.scoreTrap_frame ?_ ?_
    | with_reducible refine State.wordWrite_frame ?_ ?_ | refine State.wordWrite_frame_eq ?_ (by with_reducible assumption) ?_
    | with_reducible refine ite_frame ?_ ?_ | with_reducible exact hm.mono (by decide) | split | dsimp only

theorem State.scoreMemLoad_frame {anc : State} {M : Nat} {s : State} {ck : Nat} {a : Nat} (hm : Sub 0x1001000d004078ffffffffffffffffffff M) (hk : anc.Within M s) : anc.Within M (State.scoreMemLoad s ck a) := by
  unfold State.scoreMemLoad
  repeat' first
    | with_reducible assumption | with_reducible refine State.scoreTrap_frame ?_ ?_
    | with_reducible refine State.wordRead_frame ?_ ?_ | refine State.wordRead_frame_eq ?_ (by with_reducible assumption) ?_
    | with_reducible refine State.setInt_frame ?_ ?_ ?_ | with_reducible refine State.customTrap_frame ?_ ?_
    | with_reducible refine State.setSc_frame ?_ ?_ | with_reducible refine ite_frame ?_ ?_
    | with_reducible exact hm.mono (by decide) | with_reducible exact hm.bit (by decide)
    | ((with_reducible refine page_bit (B := ?_) (n := ?_) (k := ?_) hm ?_ ?_ ?_); (on_goal 4 => rfl); all_goals decide)
    | with_reducible exact corePage_bit hm (by decide) (by decide) (by decide) | with_reducible exact hm.any (by decide) _
    | with_reducible exact hm.anyPage (by decide) _ | split | dsimp only

theorem State.lcbLoad_frame {anc : State} {M : Nat} {s : State} {ck : Nat} {off : Nat} (hm : Sub 0x10000000000ffffffffffffffffffff M) (hk : anc.Within M s) : anc.Within M (State.lcbLoad s ck off) := by
  unfold State.lcbLoad
  repeat' first
    | with_reducible assumption | with_reducible refine State.clearRc_frame ?_ ?_ | with_reducible refine State.setSc_frame ?_ ?_
    | with_reducible refine ite_frame ?_ ?_ | with_reducible exact hm.mono (by decide) | split | dsimp only

theorem State.masterStore_frame {anc : State} {M : Nat} {s : State} {m : Master} {a : Nat} {w : Nat} (hm : Sub 0x1ffffffffffffffffffffffffffffffffff M) (hk : anc.Within M s) : anc.Within M (State.masterStore s m a w) := by
  unfold State.masterStore
  repeat' first
    | with_reducible assumption | with_reducible refine State.scoreStore_frame ?_ ?_
    | with_reducible refine State.scoreAccess_frame ?_ ?_ | with_reducible refine State.scoreMemStore_frame ?_ ?_
    | with_reducible refine State.wordWrite_frame ?_ ?_ | refine State.wordWrite_frame_eq ?_ (by with_reducible assumption) ?_
    | with_reducible refine ite_frame ?_ ?_ | with_reducible exact hm.mono (by decide) | with_reducible exact hm.bit (by decide)
    | with_reducible exact hm.any (by decide) _ | with_reducible exact hm.anyPage (by decide) _
    | simp only [or_true, true_and, and_true] | with_reducible refine And.intro ?_ ?_
    | with_reducible exact .inl (hm.bit (by decide)) | split | dsimp only | with_reducible refine State.frame_mk ?_ ?_

theorem State.masterLoad_frame {anc : State} {M : Nat} {s : State} {m : Master} {a : Nat} (hm : Sub 0x1ffffffffffffffffffffffffffffffffff M) (hk : anc.Within M s) : anc.Within M (State.masterLoad s m a) := by
  unfold State.masterLoad
  repeat' first
    | with_reducible assumption | with_reducible refine State.lcbLoad_frame ?_ ?_
    | with_reducible refine State.scoreAccess_frame ?_ ?_ | with_reducible refine State.scoreMemLoad_frame ?_ ?_
    | with_reducible refine State.wordRead_frame ?_ ?_ | refine State.wordRead_frame_eq ?_ (by with_reducible assumption) ?_
    | with_reducible refine ite_frame ?_ ?_ | with_reducible exact hm.mono (by decide) | with_reducible exact hm.bit (by decide)
    | with_reducible exact hm.any (by decide) _ | with_reducible exact hm.anyPage (by decide) _
    | simp only [or_true, true_and, and_true] | with_reducible refine And.intro ?_ ?_
    | with_reducible exact .inl (hm.bit (by decide)) | split | dsimp only | with_reducible refine State.frame_mk ?_ ?_

theorem State.pageStore_frame {anc : State} {M : Nat} {s : State} {m : Master} {p : Page} {off : Nat} {w : Nat} (hm : Sub 0x1ffffffffffffffffffffffffffffffffff M) (hk : anc.Within M s) : anc.Within M (State.pageStore s m p off w) := by
  unfold State.pageStore
  repeat' first
    | with_reducible assumption | with_reducible refine State.masterStore_frame ?_ ?_ | with_reducible exact hm.mono (by decide)
    | dsimp only

theorem execRegisterWrite_frame {anc : State} {M : Nat} {m : Master} {a : Nat} {w : Nat} {s : State} (hm : Sub 0x1ffffffffffffffffffffffffffffffffff M) (hk : anc.Within M s) : ∃ out, execRegisterWrite m a w s = .next out ∧ anc.Within M out := by
  unfold execRegisterWrite
  refine ⟨_, rfl, ?_⟩
  repeat' first
    | with_reducible assumption | with_reducible refine State.masterStore_frame ?_ ?_ | with_reducible exact hm.mono (by decide)
    | dsimp only

theorem execRcRead_frame {anc : State} {M : Nat} {m : Master} {a : Nat} {s : State} (hm : Sub 0x1ffffffffffffffffffffffffffffffffff M) (hk : anc.Within M s) : ∃ out, execRcRead m a s = .next out ∧ anc.Within M out := by
  unfold execRcRead
  refine ⟨_, rfl, ?_⟩
  repeat' first
    | with_reducible assumption | with_reducible refine State.masterLoad_frame ?_ ?_ | with_reducible exact hm.mono (by decide)
    | dsimp only

theorem execErrRearm_frame {anc : State} {M : Nat} {m : Master} {pi : Nat} {w : Nat} {s : State} (hm : Sub 0x1ffffffffffffffffffffffffffffffffff M) (hk : anc.Within M s) : ∃ out, execErrRearm m pi w s = .next out ∧ anc.Within M out := by
  unfold execErrRearm
  refine ⟨_, rfl, ?_⟩
  repeat' first
    | with_reducible assumption | with_reducible refine State.pageStore_frame ?_ ?_ | with_reducible exact hm.mono (by decide)
    | dsimp only

theorem execCtlDomainReset_frame {anc : State} {M : Nat} {m : Master} {pi : Nat} {w : Nat} {s : State} (hm : Sub 0x1ffffffffffffffffffffffffffffffffff M) (hk : anc.Within M s) : ∃ out, execCtlDomainReset m pi w s = .next out ∧ anc.Within M out := by
  unfold execCtlDomainReset
  refine ⟨_, rfl, ?_⟩
  repeat' first
    | with_reducible assumption | with_reducible refine State.pageStore_frame ?_ ?_ | with_reducible exact hm.mono (by decide)
    | dsimp only

theorem execIntForce_frame {anc : State} {M : Nat} {m : Master} {pi : Nat} {w : Nat} {s : State} (hm : Sub 0x1ffffffffffffffffffffffffffffffffff M) (hk : anc.Within M s) : ∃ out, execIntForce m pi w s = .next out ∧ anc.Within M out := by
  unfold execIntForce
  refine ⟨_, rfl, ?_⟩
  repeat' first
    | with_reducible assumption | with_reducible refine State.pageStore_frame ?_ ?_ | with_reducible exact hm.mono (by decide)
    | dsimp only

theorem execRegRead_frame {anc : State} {M : Nat} {c : Cmd} {s : State} (hm : Sub 0x9800000d00fe78ffffffffffffffffffff M) (hk : anc.Within M s) : ∃ out, execRegRead c s = .next out ∧ anc.Within M out := by
  unfold execRegRead
  refine ⟨_, rfl, ?_⟩
  repeat' first
    | with_reducible assumption | with_reducible refine State.regRead_frame ?_ ?_ | with_reducible exact hm.mono (by decide)
    | dsimp only

theorem execRegWrite_frame {anc : State} {M : Nat} {c : Cmd} {s : State} (hm : Sub 0x1ffffffffffffffffffffffffffffffffff M) (hk : anc.Within M s) : ∃ out, execRegWrite c s = .next out ∧ anc.Within M out := by
  unfold execRegWrite
  refine ⟨_, rfl, ?_⟩
  repeat' first
    | with_reducible assumption | with_reducible refine State.regWrite_frame ?_ ?_ | with_reducible exact hm.mono (by decide)
    | dsimp only

theorem execBankCtlWrite_frame {anc : State} {M : Nat} {m : Master} {e : Nat} {w : Nat} {s : State} (hm : Sub 0x1ffffffffffffffffffffffffffffffffff M) (hk : anc.Within M s) : ∃ out, execBankCtlWrite m e w s = .next out ∧ anc.Within M out := by
  unfold execBankCtlWrite
  refine ⟨_, rfl, ?_⟩
  repeat' first
    | with_reducible assumption | with_reducible refine State.pageStore_frame ?_ ?_ | with_reducible exact hm.mono (by decide)
    | dsimp only

theorem execPilotNow_frame {anc : State} {M : Nat} {m : Master} {e : Nat} {w : Nat} {s : State} (hm : Sub 0x1ffffffffffffffffffffffffffffffffff M) (hk : anc.Within M s) : ∃ out, execPilotNow m e w s = .next out ∧ anc.Within M out := by
  unfold execPilotNow
  refine ⟨_, rfl, ?_⟩
  repeat' first
    | with_reducible assumption | with_reducible refine State.pageStore_frame ?_ ?_ | with_reducible exact hm.mono (by decide)
    | dsimp only

theorem execProgStart_frame {anc : State} {M : Nat} {m : Master} {e : Nat} {w : Nat} {s : State} (hm : Sub 0x1ffffffffffffffffffffffffffffffffff M) (hk : anc.Within M s) : ∃ out, execProgStart m e w s = .next out ∧ anc.Within M out := by
  unfold execProgStart
  refine ⟨_, rfl, ?_⟩
  repeat' first
    | with_reducible assumption | with_reducible refine State.pageStore_frame ?_ ?_ | with_reducible exact hm.mono (by decide)
    | dsimp only

theorem execProgAbort_frame {anc : State} {M : Nat} {m : Master} {e : Nat} {w : Nat} {s : State} (hm : Sub 0x1ffffffffffffffffffffffffffffffffff M) (hk : anc.Within M s) : ∃ out, execProgAbort m e w s = .next out ∧ anc.Within M out := by
  unfold execProgAbort
  refine ⟨_, rfl, ?_⟩
  repeat' first
    | with_reducible assumption | with_reducible refine State.pageStore_frame ?_ ?_ | with_reducible exact hm.mono (by decide)
    | dsimp only

theorem execGovPolicyWrite_frame {anc : State} {M : Nat} {m : Master} {e : Nat} {w : Nat} {s : State} (hm : Sub 0x1ffffffffffffffffffffffffffffffffff M) (hk : anc.Within M s) : ∃ out, execGovPolicyWrite m e w s = .next out ∧ anc.Within M out := by
  unfold execGovPolicyWrite
  refine ⟨_, rfl, ?_⟩
  repeat' first
    | with_reducible assumption | with_reducible refine State.pageStore_frame ?_ ?_ | with_reducible exact hm.mono (by decide)
    | dsimp only

theorem execScoreRun_frame {anc : State} {M : Nat} {ck : Nat} {w : Nat} {s : State} (hm : Sub 0x1ffffffffffffffffffffffffffffffffff M) (hk : anc.Within M s) : ∃ out, execScoreRun ck w s = .next out ∧ anc.Within M out := by
  unfold execScoreRun
  refine ⟨_, rfl, ?_⟩
  repeat' first
    | with_reducible assumption | with_reducible refine State.pageStore_frame ?_ ?_ | with_reducible exact hm.mono (by decide)
    | dsimp only

theorem execRegisterResult_frame {anc : State} {M : Nat} {ck : Nat} {pc : Nat} {a : Nat} {x : CoreAccess} {s : State} (hm : Sub 0x1ffffffffffffffffffffffffffffffffff M) (hk : anc.Within M s) : ∃ out, execRegisterResult ck pc a x s = .next out ∧ anc.Within M out := by
  unfold execRegisterResult
  refine ⟨_, rfl, ?_⟩
  repeat' first
    | with_reducible assumption | with_reducible refine State.scoreAccess_frame ?_ ?_ | with_reducible exact hm.mono (by decide)
    | dsimp only

theorem execMapEntryWrite_frame {anc : State} {M : Nat} {m : Master} {r : Nat} {b : Nat} {i : Nat} {w : Nat} {s : State} (hm : Sub 0x1ffffffffffffffffffffffffffffffffff M) (hk : anc.Within M s) : ∃ out, execMapEntryWrite m r b i w s = .next out ∧ anc.Within M out := by
  unfold execMapEntryWrite
  refine ⟨_, rfl, ?_⟩
  repeat' first
    | with_reducible assumption | with_reducible refine State.pageStore_frame ?_ ?_ | with_reducible exact hm.mono (by decide)
    | dsimp only

theorem execMapSwitch_frame {anc : State} {M : Nat} {m : Master} {r : Nat} {w : Nat} {s : State} (hm : Sub 0x1ffffffffffffffffffffffffffffffffff M) (hk : anc.Within M s) : ∃ out, execMapSwitch m r w s = .next out ∧ anc.Within M out := by
  unfold execMapSwitch
  refine ⟨_, rfl, ?_⟩
  repeat' first
    | with_reducible assumption | with_reducible refine State.pageStore_frame ?_ ?_ | with_reducible exact hm.mono (by decide)
    | dsimp only

theorem execInterleaveWrite_frame {anc : State} {M : Nat} {m : Master} {w : Nat} {s : State} (hm : Sub 0x1ffffffffffffffffffffffffffffffffff M) (hk : anc.Within M s) : ∃ out, execInterleaveWrite m w s = .next out ∧ anc.Within M out := by
  unfold execInterleaveWrite
  refine ⟨_, rfl, ?_⟩
  repeat' first
    | with_reducible assumption | with_reducible refine State.pageStore_frame ?_ ?_ | with_reducible exact hm.mono (by decide)
    | dsimp only

theorem execSealedRangeWrite_frame {anc : State} {M : Nat} {m : Master} {limit : Bool} {w : Nat} {s : State} (hm : Sub 0x1ffffffffffffffffffffffffffffffffff M) (hk : anc.Within M s) : ∃ out, execSealedRangeWrite m limit w s = .next out ∧ anc.Within M out := by
  unfold execSealedRangeWrite
  refine ⟨_, rfl, ?_⟩
  repeat' first
    | with_reducible assumption | with_reducible refine State.pageStore_frame ?_ ?_ | with_reducible refine ite_frame ?_ ?_
    | with_reducible exact hm.mono (by decide) | split | dsimp only

theorem execTenantDebit_frame {anc : State} {M : Nat} {m : Master} {t : Nat} {w : Nat} {s : State} (hm : Sub 0x1ffffffffffffffffffffffffffffffffff M) (hk : anc.Within M s) : ∃ out, execTenantDebit m t w s = .next out ∧ anc.Within M out := by
  unfold execTenantDebit
  refine ⟨_, rfl, ?_⟩
  repeat' first
    | with_reducible assumption | with_reducible refine State.pageStore_frame ?_ ?_ | with_reducible exact hm.mono (by decide)
    | dsimp only

theorem execTenantEnable_frame {anc : State} {M : Nat} {m : Master} {t : Nat} {w : Nat} {s : State} (hm : Sub 0x1ffffffffffffffffffffffffffffffffff M) (hk : anc.Within M s) : ∃ out, execTenantEnable m t w s = .next out ∧ anc.Within M out := by
  unfold execTenantEnable
  refine ⟨_, rfl, ?_⟩
  repeat' first
    | with_reducible assumption | with_reducible refine State.pageStore_frame ?_ ?_ | with_reducible exact hm.mono (by decide)
    | dsimp only

theorem execTenantRateWrite_frame {anc : State} {M : Nat} {m : Master} {t : Nat} {w : Nat} {s : State} (hm : Sub 0x1ffffffffffffffffffffffffffffffffff M) (hk : anc.Within M s) : ∃ out, execTenantRateWrite m t w s = .next out ∧ anc.Within M out := by
  unfold execTenantRateWrite
  refine ⟨_, rfl, ?_⟩
  repeat' first
    | with_reducible assumption | with_reducible refine State.pageStore_frame ?_ ?_ | with_reducible exact hm.mono (by decide)
    | dsimp only

theorem execConsumedWrite_frame {anc : State} {M : Nat} {m : Master} {r : Nat} {w : Nat} {s : State} (hm : Sub 0x1ffffffffffffffffffffffffffffffffff M) (hk : anc.Within M s) : ∃ out, execConsumedWrite m r w s = .next out ∧ anc.Within M out := by
  unfold execConsumedWrite
  refine ⟨_, rfl, ?_⟩
  repeat' first
    | with_reducible assumption | with_reducible refine State.pageStore_frame ?_ ?_ | with_reducible exact hm.mono (by decide)
    | dsimp only

theorem execDrainLimitWrite_frame {anc : State} {M : Nat} {m : Master} {v : Nat} {w : Nat} {s : State} (hm : Sub 0x1ffffffffffffffffffffffffffffffffff M) (hk : anc.Within M s) : ∃ out, execDrainLimitWrite m v w s = .next out ∧ anc.Within M out := by
  unfold execDrainLimitWrite
  refine ⟨_, rfl, ?_⟩
  repeat' first
    | with_reducible assumption | with_reducible refine State.pageStore_frame ?_ ?_ | with_reducible exact hm.mono (by decide)
    | dsimp only

theorem execPortEnable_frame {anc : State} {M : Nat} {m : Master} {p : Nat} {w : Nat} {s : State} (hm : Sub 0x1ffffffffffffffffffffffffffffffffff M) (hk : anc.Within M s) : ∃ out, execPortEnable m p w s = .next out ∧ anc.Within M out := by
  unfold execPortEnable
  refine ⟨_, rfl, ?_⟩
  repeat' first
    | with_reducible assumption | with_reducible refine State.pageStore_frame ?_ ?_ | with_reducible exact hm.mono (by decide)
    | dsimp only

theorem execAddressWrite_frame {anc : State} {M : Nat} {m : Master} {p : Nat} {j : Nat} {w : Nat} {s : State} (hm : Sub 0x1ffffffffffffffffffffffffffffffffff M) (hk : anc.Within M s) : ∃ out, execAddressWrite m p j w s = .next out ∧ anc.Within M out := by
  unfold execAddressWrite
  refine ⟨_, rfl, ?_⟩
  repeat' first
    | with_reducible assumption | with_reducible refine State.pageStore_frame ?_ ?_ | with_reducible exact hm.mono (by decide)
    | dsimp only

theorem execQpClose_frame {anc : State} {M : Nat} {m : Master} {q : Nat} {s : State} (hm : Sub 0x1ffffffffffffffffffffffffffffffffff M) (hk : anc.Within M s) : ∃ out, execQpClose m q s = .next out ∧ anc.Within M out := by
  unfold execQpClose
  refine ⟨_, rfl, ?_⟩
  repeat' first
    | with_reducible assumption | with_reducible refine State.pageStore_frame ?_ ?_ | with_reducible exact hm.mono (by decide)
    | dsimp only

theorem execSemOpAcquire_frame {anc : State} {M : Nat} {m : Master} {i : Nat} {lease : Nat} {s : State} (hm : Sub 0x1ffffffffffffffffffffffffffffffffff M) (hk : anc.Within M s) : ∃ out, execSemOpAcquire m i lease s = .next out ∧ anc.Within M out := by
  unfold execSemOpAcquire
  refine ⟨_, rfl, ?_⟩
  repeat' first
    | with_reducible assumption | with_reducible refine State.pageStore_frame ?_ ?_ | with_reducible exact hm.mono (by decide)
    | dsimp only

theorem execSemOpRelease_frame {anc : State} {M : Nat} {m : Master} {i : Nat} {s : State} (hm : Sub 0x1ffffffffffffffffffffffffffffffffff M) (hk : anc.Within M s) : ∃ out, execSemOpRelease m i s = .next out ∧ anc.Within M out := by
  unfold execSemOpRelease
  refine ⟨_, rfl, ?_⟩
  repeat' first
    | with_reducible assumption | with_reducible refine State.pageStore_frame ?_ ?_ | with_reducible exact hm.mono (by decide)
    | dsimp only

theorem execSemOpBreak_frame {anc : State} {M : Nat} {m : Master} {i : Nat} {s : State} (hm : Sub 0x1ffffffffffffffffffffffffffffffffff M) (hk : anc.Within M s) : ∃ out, execSemOpBreak m i s = .next out ∧ anc.Within M out := by
  unfold execSemOpBreak
  refine ⟨_, rfl, ?_⟩
  repeat' first
    | with_reducible assumption | with_reducible refine State.pageStore_frame ?_ ?_ | with_reducible exact hm.mono (by decide)
    | dsimp only

theorem execLinkEnable_frame {anc : State} {M : Nat} {m : Master} {d : Nat} {w : Nat} {s : State} (hm : Sub 0x1ffffffffffffffffffffffffffffffffff M) (hk : anc.Within M s) : ∃ out, execLinkEnable m d w s = .next out ∧ anc.Within M out := by
  unfold execLinkEnable
  refine ⟨_, rfl, ?_⟩
  repeat' first
    | with_reducible assumption | with_reducible refine State.pageStore_frame ?_ ?_ | with_reducible exact hm.mono (by decide)
    | dsimp only

theorem execReplanNow_frame {anc : State} {M : Nat} {m : Master} {w : Nat} {s : State} (hm : Sub 0x1ffffffffffffffffffffffffffffffffff M) (hk : anc.Within M s) : ∃ out, execReplanNow m w s = .next out ∧ anc.Within M out := by
  unfold execReplanNow
  refine ⟨_, rfl, ?_⟩
  repeat' first
    | with_reducible assumption | with_reducible refine State.pageStore_frame ?_ ?_ | with_reducible exact hm.mono (by decide)
    | dsimp only

theorem execUrgentGo_frame {anc : State} {M : Nat} {m : Master} {i : Nat} {w : Nat} {s : State} (hm : Sub 0x1ffffffffffffffffffffffffffffffffff M) (hk : anc.Within M s) : ∃ out, execUrgentGo m i w s = .next out ∧ anc.Within M out := by
  unfold execUrgentGo
  refine ⟨_, rfl, ?_⟩
  repeat' first
    | with_reducible assumption | with_reducible refine State.pageStore_frame ?_ ?_ | with_reducible exact hm.mono (by decide)
    | dsimp only

end Sys2Proof.Machine
end

