-- ==== Sys2Proof/Laws/Frame/Activate.lean ====
section
/-! SUPPORT. Every operation and meaning of Machine/Activate.lean changes only the register areas and parts of the state its mask names. -/

namespace Sys2Proof.Machine

set_option linter.unreachableTactic false
set_option linter.unusedTactic false

theorem State.shardStop_frame {anc : State} {M : Nat} {s : State} {v : Nat} {shard : Nat} {cause : Nat} (hm : Sub 0x800040040107800000104000000080002 M) (hk : anc.Within M s) : anc.Within M (State.shardStop s v shard cause) := by
  unfold State.shardStop
  repeat' first
    | with_reducible assumption | with_reducible refine State.activationEnd_frame ?_ ?_
    | with_reducible refine State.unitEv_frame ?_ ?_ | with_reducible exact hm.mono (by decide) | dsimp only

theorem State.stageBegin_frame {anc : State} {M : Nat} {s : State} {v : Nat} (hm : Sub 0x800040040107800000104000000080002 M) (hk : anc.Within M s) : anc.Within M (State.stageBegin s v) := by
  unfold State.stageBegin
  repeat' first
    | with_reducible assumption | with_reducible refine State.shardStop_frame ?_ ?_
    | with_reducible refine State.activationStop_frame ?_ ?_ | with_reducible refine ite_frame ?_ ?_
    | with_reducible exact hm.mono (by decide) | with_reducible exact hm.bit (by decide) | simp only [or_true, true_and, and_true]
    | with_reducible refine And.intro ?_ ?_ | with_reducible exact .inl (hm.bit (by decide)) | split | dsimp only
    | with_reducible refine State.frame_mk ?_ ?_

theorem State.activateVariant_frame {anc : State} {M : Nat} {s : State} {c : Cmd} {p : Placement} {elsewhere : Nat} (hm : Sub 0x8800040040327800000304030000080002 M) (hk : anc.Within M s) : anc.Within M (State.activateVariant s c p elsewhere) := by
  unfold State.activateVariant
  repeat' first
    | with_reducible assumption | with_reducible refine State.refuseServe_frame ?_ ?_
    | with_reducible refine State.setVar_frame ?_ ?_ | with_reducible refine State.replyEarly_frame ?_ ?_
    | with_reducible refine State.stageBegin_frame ?_ ?_ | with_reducible refine State.setVState_frame ?_ ?_
    | with_reducible refine ite_frame ?_ ?_ | with_reducible exact hm.mono (by decide) | split | dsimp only

theorem State.stageImage_frame {anc : State} {M : Nat} {s : State} {v : Nat} {x : Item} (hm : Sub 0x800040040107800000100000100080002 M) (hk : anc.Within M s) : anc.Within M (State.stageImage s v x) := by
  unfold State.stageImage
  repeat' first
    | with_reducible assumption | with_reducible refine State.oasisStart_frame ?_ ?_
    | refine State.oasisStart_frame_eq ?_ (by with_reducible assumption) ?_ | with_reducible refine State.activationStop_frame ?_ ?_
    | with_reducible refine State.setInt_frame ?_ ?_ ?_ | with_reducible refine State.wf_frame ?_ ?_
    | with_reducible refine State.setProg_frame ?_ ?_ | with_reducible refine ite_frame ?_ ?_
    | with_reducible exact hm.mono (by decide) | with_reducible exact hm.bit (by decide)
    | ((with_reducible refine page_bit (B := ?_) (n := ?_) (k := ?_) hm ?_ ?_ ?_); (on_goal 4 => rfl); all_goals decide)
    | with_reducible exact corePage_bit hm (by decide) (by decide) (by decide) | simp only [or_true, true_and, and_true]
    | with_reducible refine And.intro ?_ ?_ | with_reducible exact .inl (hm.bit (by decide)) | split | dsimp only
    | with_reducible refine State.frame_mk ?_ ?_

theorem State.stageFacts_frame {anc : State} {M : Nat} {s : State} {v : Nat} {fs : List Nat} (hm : Sub 0x40000000000100000000000000 M) (hk : anc.Within M s) :
    anc.Within M (State.stageFacts s v fs) := by
  unfold State.stageFacts State.each
  dsimp only [List.foldl_cons, List.foldl_nil]
  repeat' first
    | with_reducible assumption
    | with_reducible refine State.setVar_frame ?_ ?_
    | with_reducible refine State.wf_frame ?_ ?_
    | with_reducible refine State.each_frame ?_ ?_
    | with_reducible refine foldl_frame ?_ ?_
    | with_reducible refine foldl_frame_pair ?_ ?_
    | with_reducible refine foldl_frame_triple ?_ ?_
    | with_reducible refine State.when_frame ?_ ?_
    | intro _
    | with_reducible refine ite_frame ?_ ?_
    | with_reducible exact hm.mono (by decide)
    | with_reducible exact hm.bit (by decide)
    | ((with_reducible refine page_bit (B := ?_) (n := ?_) (k := ?_) hm ?_ ?_ ?_); (on_goal 4 => rfl); all_goals decide)
    | with_reducible exact corePage_bit hm (by decide) (by decide) (by decide)
    | simp only [or_true, true_and, and_true]
    | with_reducible refine And.intro ?_ ?_
    | with_reducible exact .inl (hm.bit (by decide))
    | split
    | dsimp only
    | with_reducible refine State.frame_mk ?_ ?_

theorem State.stageItem_frame {anc : State} {M : Nat} {s : State} {v : Nat} {x : Item} {plain : List Nat} (hm : Sub 0x1ffffffffffffffffffffffffffffffffff M) (hk : anc.Within M s) : anc.Within M (State.stageItem s v x plain) := by
  unfold State.stageItem
  repeat' first
    | with_reducible assumption | with_reducible refine State.stageImage_frame ?_ ?_ | with_reducible refine State.hbmPut_frame ?_ ?_
    | with_reducible refine State.sramStore_frame ?_ ?_ | with_reducible refine State.stageFacts_frame ?_ ?_
    | with_reducible refine State.wordWrite_frame ?_ ?_ | refine State.wordWrite_frame_eq ?_ (by with_reducible assumption) ?_
    | with_reducible refine foldl_frame ?_ ?_ | with_reducible refine foldl_frame_pair ?_ ?_
    | with_reducible refine foldl_frame_triple ?_ ?_ | intro _ | with_reducible refine ite_frame ?_ ?_
    | with_reducible exact hm.mono (by decide) | with_reducible exact hm.bit (by decide) | with_reducible exact hm.any (by decide) _
    | with_reducible exact hm.anyPage (by decide) _ | simp only [or_true, true_and, and_true] | with_reducible refine And.intro ?_ ?_
    | with_reducible exact .inl (hm.bit (by decide)) | split | dsimp only | with_reducible refine State.frame_mk ?_ ?_

theorem State.decryptAt_frame {anc : State} {M : Nat} {s : State} {v : Nat} {i : Nat} {off : Nat} {n : Nat} (hm : Sub 0x7800000000000100000002 M) (hk : anc.Within M s) : anc.Within M (State.decryptAt s v i off n).2 := by
  unfold State.decryptAt
  repeat' first
    | with_reducible assumption | with_reducible refine State.hbmBytes_frame ?_ ?_
    | refine State.hbmBytes_frame_eq ?_ (by with_reducible assumption) ?_ | with_reducible refine ite_frame ?_ ?_
    | with_reducible refine ite_frame2 ?_ ?_ | with_reducible refine ite_frame3 ?_ ?_ | with_reducible exact hm.mono (by decide)
    | split | dsimp only

theorem State.decryptAt_frame_eq {anc : State} {M : Nat} {s : State} {v : Nat} {i : Nat} {off : Nat} {n : Nat} (hm : Sub 0x7800000000000100000002 M) {r0 tz} (heqx : State.decryptAt s v i off n = (r0, tz)) (hk : anc.Within M s) : anc.Within M tz := by
  have := State.decryptAt_frame (s := s) (v := v) (i := i) (off := off) (n := n) hm hk
  rwa [heqx] at this

theorem State.directory_frame {anc : State} {M : Nat} {s : State} {v : Nat} {i : Nat} (hm : Sub 0x7800000000000100000002 M) (hk : anc.Within M s) : anc.Within M (State.directory s v i).2 := by
  unfold State.directory
  repeat' first
    | with_reducible assumption | with_reducible refine State.decryptAt_frame ?_ ?_
    | refine State.decryptAt_frame_eq ?_ (by with_reducible assumption) ?_ | with_reducible refine ite_frame ?_ ?_
    | with_reducible refine ite_frame2 ?_ ?_ | with_reducible refine ite_frame3 ?_ ?_ | with_reducible exact hm.mono (by decide)
    | split | dsimp only

theorem State.directory_frame_eq {anc : State} {M : Nat} {s : State} {v : Nat} {i : Nat} (hm : Sub 0x7800000000000100000002 M) {r0 tz} (heqx : State.directory s v i = (r0, tz)) (hk : anc.Within M s) : anc.Within M tz := by
  have := State.directory_frame (s := s) (v := v) (i := i) hm hk
  rwa [heqx] at this

theorem State.itemStop_frame {anc : State} {M : Nat} {s : State} {v : Nat} {i : Nat} {c : Nat} (hm : Sub 0x800040040107800000104000000080002 M) (hk : anc.Within M s) : anc.Within M (State.itemStop s v i c) := by
  unfold State.itemStop
  repeat' first
    | with_reducible assumption | with_reducible refine State.shardStop_frame ?_ ?_
    | with_reducible refine State.shardLost_frame ?_ ?_ | with_reducible refine ite_frame ?_ ?_
    | with_reducible exact hm.mono (by decide) | split | dsimp only

theorem State.shardDone_frame {anc : State} {M : Nat} {s : State} {v : Nat} {i : Nat} (hm : Sub 0x800040040107800000104000100080002 M) (hk : anc.Within M s) : anc.Within M (State.shardDone s v i) := by
  unfold State.shardDone
  repeat' first
    | with_reducible assumption | with_reducible refine State.hbmBytes_frame ?_ ?_
    | refine State.hbmBytes_frame_eq ?_ (by with_reducible assumption) ?_ | with_reducible refine State.decryptAt_frame ?_ ?_
    | refine State.decryptAt_frame_eq ?_ (by with_reducible assumption) ?_ | with_reducible refine State.shardStop_frame ?_ ?_
    | with_reducible refine State.shardLost_frame ?_ ?_ | with_reducible refine State.itemStop_frame ?_ ?_
    | with_reducible refine ite_frame ?_ ?_ | with_reducible exact hm.mono (by decide) | with_reducible exact hm.bit (by decide)
    | simp only [or_true, true_and, and_true] | with_reducible refine And.intro ?_ ?_
    | with_reducible exact .inl (hm.bit (by decide)) | split | dsimp only | with_reducible refine State.frame_mk ?_ ?_

theorem State.itemDecrypted_frame {anc : State} {M : Nat} {s : State} {v : Nat} {i : Nat} {n : Nat} {ext : Nat} {sram : Nat} {last : Bool} (hm : Sub 0x1ffffffffffffffffffffffffffffffffff M) (hk : anc.Within M s) : anc.Within M (State.itemDecrypted s v i n ext sram last) := by
  unfold State.itemDecrypted
  repeat' first
    | with_reducible assumption | with_reducible refine State.directory_frame ?_ ?_
    | refine State.directory_frame_eq ?_ (by with_reducible assumption) ?_ | with_reducible refine State.itemStop_frame ?_ ?_
    | with_reducible refine State.decryptAt_frame ?_ ?_ | refine State.decryptAt_frame_eq ?_ (by with_reducible assumption) ?_
    | with_reducible refine State.stageItem_frame ?_ ?_ | with_reducible refine State.shardDone_frame ?_ ?_
    | with_reducible refine ite_frame ?_ ?_ | with_reducible exact hm.mono (by decide) | split | dsimp only

theorem State.bindEpoch_frame {anc : State} {M : Nat} {s : State} {v : Nat} {ep : Nat} (hm : Sub 0xe80ec4fefd1078000007030001001f0002 M) (hk : anc.Within M s) : anc.Within M (State.bindEpoch s v ep) := by
  unfold State.bindEpoch
  repeat' first
    | with_reducible assumption | with_reducible refine State.holdCheck_frame ?_ ?_ | with_reducible refine State.tryOwed_frame ?_ ?_
    | with_reducible refine State.retrack_frame ?_ ?_ | with_reducible refine State.wf_frame ?_ ?_
    | with_reducible refine State.setVState_frame ?_ ?_ | with_reducible refine State.finalRec_frame ?_ ?_
    | with_reducible refine State.setVar_frame ?_ ?_ | with_reducible refine State.drainStart_frame ?_ ?_
    | with_reducible refine State.each_frame ?_ ?_ | intro _ | with_reducible refine ite_frame ?_ ?_
    | with_reducible exact hm.mono (by decide) | with_reducible exact hm.bit (by decide)
    | with_reducible exact epochBankF_bit hm (by decide) | simp only [or_true, true_and, and_true]
    | with_reducible refine And.intro ?_ ?_ | with_reducible exact .inl (hm.bit (by decide)) | split | dsimp only
    | with_reducible refine State.frame_mk ?_ ?_

theorem State.passEpoch_frame {anc : State} {M : Nat} {s : State} {v : Nat} {ep : Nat} (hm : Sub 0xe000000000007800000003000000000002 M) (hk : anc.Within M s) : anc.Within M (State.passEpoch s v ep) := by
  unfold State.passEpoch
  repeat' first
    | with_reducible assumption | with_reducible refine State.mesh_frame ?_ ?_ | with_reducible refine State.each_frame ?_ ?_
    | intro _ | with_reducible refine ite_frame ?_ ?_ | with_reducible exact hm.mono (by decide) | split | dsimp only

theorem State.epochBind_frame {anc : State} {M : Nat} {s : State} {v : Nat} {elsewhere : Nat} {given : Nat} {confirmed : Bool} (hm : Sub 0xe80ec4fefd1078000007070001001f0002 M) (hk : anc.Within M s) : anc.Within M (State.epochBind s v elsewhere given confirmed) := by
  unfold State.epochBind
  repeat' first
    | with_reducible assumption | with_reducible refine State.activationStop_frame ?_ ?_
    | with_reducible refine State.passEpoch_frame ?_ ?_ | with_reducible refine State.bindEpoch_frame ?_ ?_
    | with_reducible refine ite_frame ?_ ?_ | with_reducible exact hm.mono (by decide)
    | with_reducible exact jcrcF_bit hm (by decide) | split | dsimp only

theorem execVariantActivate_frame {anc : State} {M : Nat} {c : Cmd} {place : Placement} {elsewhere : Nat} {s : State} (hm : Sub 0x8800040040be7800000704030000080006 M) (hk : anc.Within M s) : ∃ out, execVariantActivate c place elsewhere s = .next out ∧ anc.Within M out := by
  unfold execVariantActivate
  refine ⟨_, rfl, ?_⟩
  repeat' first
    | with_reducible assumption | with_reducible refine State.vorane_frame ?_ ?_ ?_
    | with_reducible refine State.activateVariant_frame ?_ ?_ | intro _ | with_reducible exact hm.mono (by decide) | dsimp only

theorem execItemDecrypted_frame {anc : State} {M : Nat} {v : Nat} {i : Nat} {n : Nat} {ext : Nat} {sram : Nat} {last : Bool} {_unit : Nat} {s : State} (hm : Sub 0x1ffffffffffffffffffffffffffffffffff M) (hk : anc.Within M s) : ∃ out, execItemDecrypted v i n ext sram last _unit s = .next out ∧ anc.Within M out := by
  unfold execItemDecrypted
  refine ⟨_, rfl, ?_⟩
  repeat' first
    | with_reducible assumption | with_reducible refine State.itemDecrypted_frame ?_ ?_ | with_reducible exact hm.mono (by decide)
    | dsimp only

theorem execEpochBind_frame {anc : State} {M : Nat} {v : Nat} {elsewhere : Nat} {pass : EpochPass} {s : State} (hm : Sub 0xe80ec4fefd1078000007070001001f0002 M) (hk : anc.Within M s) : ∃ out, execEpochBind v elsewhere pass s = .next out ∧ anc.Within M out := by
  unfold execEpochBind
  refine ⟨_, rfl, ?_⟩
  repeat' first
    | with_reducible assumption | with_reducible refine State.epochBind_frame ?_ ?_ | with_reducible exact hm.mono (by decide)
    | dsimp only

end Sys2Proof.Machine
end

