-- ==== Sys2Proof/Laws/Command.lean ====
section
/-! SUPPORT. What the admission of a Vorane command that starts as it arrives leaves, and what its completion leaves. -/

namespace Sys2Proof.Machine

/-- The record of command `c` as it is opened, R341. -/
def State.opened (s : State) (op : Nat) (c : Cmd) : OpenCmd :=
  { qp := c.qp, cmdId := c.cmdId, opcode := op, arrival := s.now, due := s.elapsed + c.timeoutNs op }

/-- The state in which a command that starts as it arrives has been opened. -/
def State.opening (s : State) (op : Nat) (c : Cmd) : State :=
  let s1 := (((s.transportAck c.qp).inc R.QP_COMMANDS c.qp).dec R.QP_SLOTS_FREE c.qp).inc R.QP_RQ_PSN c.qp
  ({ s1 with cmds := s1.cmds ++ [s.opened op c] }).putRec
    { qp := c.qp, cmdId := c.cmdId, opcode := op, result := 0, final := false, body := [] }

/-- The state in which a command that starts as it arrives is run: a command of class L has been acknowledged (R342). -/
def State.started (s : State) (op : Nat) (c : Cmd) (cls : Class) : State :=
  if cls = .l then (s.opening op c).sendAck c.qp c.cmdId op s.now else s.opening op c

theorem State.Takes.connected {s : State} {c : Cmd} (h : s.Takes c) : s.connected c.qp = true := h.1

/-- The queue pair's state and port stand through the admission. -/
theorem State.started_regs (s : State) (op : Nat) (c : Cmd) (cls : Class) (f : Field) (i : Nat) (k : Nat := 0)
    (h : f.code ≠ R.QP_COMMANDS.code ∧ f.code ≠ R.QP_SLOTS_FREE.code ∧ f.code ≠ R.QP_RQ_PSN.code ∧ f.code ≠ R.QP_SQ_PSN.code ∧
      f.code ≠ R.HOST_FRAMES_TX.code) :
    (s.started op c cls).rf f i k = s.rf f i k := by
  have base : ∀ u : State, u.regs = ((((s.transportAck c.qp).inc R.QP_COMMANDS c.qp).dec R.QP_SLOTS_FREE c.qp).inc R.QP_RQ_PSN c.qp).regs →
      u.rf f i k = s.rf f i k := by
    intro u hu
    have : u.rf f i k = ((((s.transportAck c.qp).inc R.QP_COMMANDS c.qp).dec R.QP_SLOTS_FREE c.qp).inc R.QP_RQ_PSN c.qp).rf f i k := by
      simp only [State.rf, hu]
    rw [this, State.rf_inc_of_code _ h.2.2.1, State.rf_dec_of_code _ h.2.1, State.rf_inc_of_code _ h.1]
    unfold State.transportAck State.framesOut
    rw [State.rf_inc_of_code _ h.2.2.2.2]
    rfl
  unfold State.started State.sendAck State.opening
  dsimp only
  split
  · split
    · unfold State.sendQp State.txQp State.setQp
      dsimp only
      refine Eq.trans (b := (State.wf _ R.QP_SQ_PSN c.qp _).rf f i k) rfl ?_
      rw [State.rf_wf_of_code _ h.2.2.2.1]
      unfold State.framesOut
      rw [State.rf_inc_of_code _ h.2.2.2.2]
      exact base _ rfl
    · exact base _ rfl
  · exact base _ rfl

/-- The mask of the admission: the queue pair's page, the open commands, their records, the transport and what is sent. -/
def startMask : Nat := 0x8000000000320000000000030000000000

theorem State.opening_within (s : State) (op : Nat) (c : Cmd) : s.Within startMask (s.opening op c) := by
  unfold State.opening
  have h2 : s.Within startMask ((((s.transportAck c.qp).inc R.QP_COMMANDS c.qp).dec R.QP_SLOTS_FREE c.qp).inc R.QP_RQ_PSN c.qp) :=
    State.inc_frame (by decide) (State.dec_frame (by decide) (State.inc_frame (by decide)
      (State.transportAck_frame (by decide) (s.frame_refl _))))
  refine State.putRec_frame (by decide) (State.frame_mk h2 ?_)
  have hb : startMask.testBit 89 = true := by decide
  simp only [hb, true_or, or_true, and_true]

theorem State.started_within (s : State) (op : Nat) (c : Cmd) (cls : Class) : s.Within startMask (s.started op c cls) := by
  unfold State.started
  split
  · exact State.sendAck_frame (by decide) (s.opening_within op c)
  · exact s.opening_within op c

theorem State.opening_cmds (s : State) (op : Nat) (c : Cmd) : (s.opening op c).cmds = s.cmds ++ [s.opened op c] := by
  have hc : ((((s.transportAck c.qp).inc R.QP_COMMANDS c.qp).dec R.QP_SLOTS_FREE c.qp).inc R.QP_RQ_PSN c.qp).cmds = s.cmds := by
    rw [State.inc_cmds]
    unfold State.dec
    rw [State.wf_cmds, State.inc_cmds]
    unfold State.transportAck State.framesOut
    rw [State.inc_cmds]
    rfl
  unfold State.opening State.putRec
  simp only [hc]

/-- Nothing holds back a command that starts as it arrives. -/
theorem State.Takes.noWait {s : State} {c : Cmd} (h : s.Takes c) (op : Nat) : (s.opening op c).mustWait op c = false := by
  obtain ⟨-, -, -, -, -, -, -, -, -, -, -, h12, h13, h14, h15⟩ := h
  have w := s.opening_within op c
  unfold State.mustWait
  rw [s.opening_cmds, w.held (by decide), w.rsts (by decide)]
  have hr : (s.opening op c).rb R.OASIS_RESTARTING 0 = false := by
    rw [← h12]; unfold State.rb; rw [w.rf (by decide)]
  rw [hr]
  simp only [Bool.false_and, Bool.or_false, Bool.or_eq_false_iff]
  refine ⟨⟨?_, ?_⟩, ?_⟩
  · cases hf : c.fence
    · rfl
    · rw [Bool.true_and, List.any_eq_false]
      intro o ho
      rw [List.mem_append] at ho
      rcases ho with ho | ho
      · simp only [Bool.and_eq_true, decide_eq_true_eq, Bool.not_eq_true', not_and]
        intro hq
        simp [h15 hf o ho hq.1]
      · simp only [List.mem_singleton] at ho
        subst ho
        simp [State.opened]
  · rw [List.any_eq_false]
    intro x hx
    simp only [Bool.and_eq_true, decide_eq_true_eq, not_and]
    intro hq
    simp [h14 x hx hq]
  · rw [List.any_eq_false]
    intro x hx
    simpa using h13 x hx

theorem State.started_connected (s : State) (op : Nat) (c : Cmd) (cls : Class) (qp : Nat) :
    (s.started op c cls).connected qp = s.connected qp := by
  unfold State.connected
  rw [State.started_regs s op c cls _ _ 0 (by decide)]

/-- After the admission the command is open, with its arrival stamp. -/
theorem State.started_openCmd {s : State} {op : Nat} {c : Cmd} {cls : Class} (h : s.openCmd c.qp c.cmdId = none) :
    (s.started op c cls).openCmd c.qp c.cmdId = some (s.opened op c) := by
  have key : (s.started op c cls).cmds = s.cmds ++ [s.opened op c] := by
    unfold State.started
    split
    · have w : (s.opening op c).Within _ ((s.opening op c).sendAck c.qp c.cmdId op s.now) := State.sendAck_frame (Sub.refl _) (State.frame_refl _ _)
      rw [w.cmds (by decide), s.opening_cmds]
    · exact s.opening_cmds op c
  unfold State.openCmd at h ⊢
  rw [key, List.find?_append, h]
  simp [State.opened]

/-- A command that starts as it arrives is run in the state its admission leaves. -/
theorem State.vorane_takes {s : State} {i : Instr} {op : Nat} {c : Cmd} {cls : Class} {act : State → State} {lenOk : Bool} (h : s.Takes c)
    (hk : knownOpcodes.contains op = true) (hl : lenOk = true) : s.vorane i op c cls lenOk act = act (s.started op c cls) := by
  have ⟨h1, h2, h3, h4, h5, h6, h7, h8, h9, h10, h11, h12, h13, h14, h15⟩ := h
  have hp : ¬ 1024 < c.payload := by omega
  have hop : ∀ u : State, u.cmds = s.cmds → u.openCmd c.qp c.cmdId = none := by
    intro u hu
    unfold State.openCmd at h3 ⊢
    rw [hu, h3]
  have hc : ((((s.transportAck c.qp).inc R.QP_COMMANDS c.qp).dec R.QP_SLOTS_FREE c.qp).inc R.QP_RQ_PSN c.qp).cmds = s.cmds := by
    rw [State.inc_cmds]
    unfold State.dec
    rw [State.wf_cmds, State.inc_cmds]
    unfold State.transportAck State.framesOut
    rw [State.inc_cmds]
    rfl
  have hf : ((((s.transportAck c.qp).inc R.QP_COMMANDS c.qp).dec R.QP_SLOTS_FREE c.qp).inc R.QP_RQ_PSN c.qp).frameResult op c lenOk = resExecuted := by
    unfold State.frameResult
    rw [hop _ hc]
    have hm : op ∈ knownOpcodes := by simpa using hk
    simp [h5, h6, h7, h8, h9, h10, hm, hl]
  have ha : s.intake i op c cls lenOk = .run (s.started op c cls) := by
    have hr : (s.opening op c).rb R.OASIS_RESTARTING 0 = false := by
      rw [← h12]; unfold State.rb; rw [(s.opening_within op c).rf (by decide)]
    unfold State.intake
    rw [if_neg (by simp [h1]), if_neg hp, if_neg h2]
    dsimp only
    rw [hf, if_neg (by simp)]
    show (if (s.opening op c).mustWait op c = true then Admitted.done _
      else Admitted.run (if cls = .l ∨ ((s.opening op c).rb R.OASIS_RESTARTING 0 = true ∧ (!restartSafe op) = true) then
          (s.opening op c).sendAck c.qp c.cmdId op s.now else s.opening op c)) = _
    rw [h.noWait op, if_neg (by simp), hr]
    simp only [Bool.false_eq_true, false_and, or_false]
    rfl
  unfold State.vorane
  rw [if_neg h4, ha]

/-- A completion sent at once ends the command. -/
theorem State.answered_reply {s u : State} {op : Nat} {c : Cmd} {body : List Nat} (ho : u.openCmd c.qp c.cmdId = some (s.opened op c))
    (hc : u.connected c.qp = true) : s.Answered (u.reply c body) c op body := by
  unfold State.reply State.finish
  rw [ho]
  dsimp only [State.opened]
  simp only [Bool.false_eq_true, if_false]
  have hc2 : (State.setRec { u with cmds := u.cmds.filter fun x => !(x.qp = c.qp && x.cmdId = c.cmdId) } c.qp c.cmdId fun r =>
      { r with result := resExecuted, final := true, body := body }).connected c.qp = true := hc
  unfold State.sendCompletion
  rw [if_pos hc2]
  refine ⟨⟨_, rfl⟩, ?_⟩
  unfold State.openCmd
  rw [List.find?_eq_none]
  intro x hx
  rw [State.wf_cmds, State.inc_cmds] at hx
  have hx2 : x ∈ u.cmds.filter fun x => !(x.qp = c.qp && x.cmdId = c.cmdId) := hx
  have := (List.mem_filter.mp hx2).2
  simpa [or_iff_not_imp_left] using this

/-- A command whose effect touches neither the open commands nor the queue pairs' pages is answered by the reply that follows it. -/
theorem State.answered_of_within {s u : State} {op m : Nat} {c : Cmd} {cls : Class} {body : List Nat} (h : s.Takes c)
    (hw : (s.started op c cls).Within m u) (h1 : m.testBit 89 = false) (h2 : m.testBit 41 = false) :
    s.Answered (u.reply c body) c op body := by
  refine State.answered_reply ?_ ?_
  · unfold State.openCmd
    rw [hw.cmds h1]
    exact State.started_openCmd h.2.2.1
  · unfold State.connected
    rw [hw.rf (f := R.QP_STATE) (by rw [show R.QP_STATE.area = 41 from by decide]; exact h2)]
    have := State.started_connected s op c cls c.qp
    unfold State.connected at this
    rw [this]
    exact h.1

end Sys2Proof.Machine
end

