-- ==== Sys2Proof/Laws/Memory.lean ====
section
/-! SUPPORT. The addressed memories: a byte read after a write, other bytes unchanged, and the canonical form kept. -/

namespace Sys2Proof.Machine

@[simp] theorem Mem.byte_setByte_same (m : List Host.Cell) (a : Nat) (b : BitVec 8) : Mem.byte (Mem.setByte m a b) a = b := by
  unfold Mem.byte Mem.setByte Tbl.putD
  split
  · rename_i h
    simp [Tbl.getD, Tbl.get_del_same, h]
  · simp

theorem Mem.byte_setByte_ne (m : List Host.Cell) {a x : Nat} (b : BitVec 8) (h : x ≠ a) :
    Mem.byte (Mem.setByte m a b) x = Mem.byte m x := by
  unfold Mem.byte Mem.setByte Tbl.putD
  split
  · simp [Tbl.getD, Tbl.get_del_ne _ h]
  · simp [Tbl.getD_put_ne _ _ _ h]

/-- A byte outside the bytes written reads as before. -/
theorem Mem.byte_write_ne (m : List Host.Cell) (a n v : Nat) {x : Nat} (h : x < a ∨ a + n ≤ x) :
    Mem.byte (Mem.write m a n v) x = Mem.byte m x := by
  induction n generalizing m a v with
  | zero => rfl
  | succ n ih =>
    rw [Mem.write, ih _ _ _ (by omega), Mem.byte_setByte_ne _ _ (by omega)]

/-- A read of `n` bytes after a write of them gives the low bytes of the value. -/
theorem Mem.read_write_same (m : List Host.Cell) (a n v : Nat) : Mem.read (Mem.write m a n v) a n = v % 256 ^ n := by
  induction n generalizing m a v with
  | zero => simp [Mem.read, Nat.mod_one]
  | succ n ih =>
    rw [Mem.read, Mem.write, ih, Mem.byte_write_ne _ _ _ _ (by omega), Mem.byte_setByte_same, Nat.pow_succ',
      Nat.mod_mul]
    simp

theorem Memory.wf_iff (m : List Host.Cell) : Memory.wf m = true ↔ Tbl.rising m = true ∧ Tbl.All (fun _ b => b ≠ 0) m := by
  simp [Memory.wf, Tbl.All]

theorem Memory.wf_setByte {m : List Host.Cell} (a : Nat) (b : BitVec 8) (h : Memory.wf m = true) :
    Memory.wf (Mem.setByte m a b) = true := by
  rw [Memory.wf_iff] at *
  unfold Mem.setByte Tbl.putD
  split
  · exact ⟨Tbl.rising_del a h.1, Tbl.all_del a h.2⟩
  · rename_i hb
    exact ⟨Tbl.rising_put a b h.1, Tbl.all_put a b h.2 hb⟩

/-- Every write keeps the canonical form. -/
theorem Memory.wf_write {m : List Host.Cell} (a n v : Nat) (h : Memory.wf m = true) : Memory.wf (Mem.write m a n v) = true := by
  induction n generalizing m a v with
  | zero => exact h
  | succ n ih => exact ih _ _ (Memory.wf_setByte a _ h)

theorem Memory.wf_keep {m : List Host.Cell} (p : Nat → BitVec 8 → Bool) (h : Memory.wf m = true) : Memory.wf (Tbl.keep m p) = true := by
  rw [Memory.wf_iff] at *
  exact ⟨Tbl.rising_keep p h.1, fun e he => h.2 e (List.mem_of_mem_filter he)⟩

theorem Memory.wf_nil : Memory.wf [] = true := rfl

end Sys2Proof.Machine
end

