-- ==== Sys2Proof/Laws/Keeps.lean ====
section
/-! SUPPORT. The relation State.Keeps: kept by an update of anything but the queue and the memories, and by composition. -/

namespace Sys2Proof.Machine

/-- What a command may do to the queue, the memories and the register file as a table: it leaves the queue alone, and keeps each canonical. -/
def State.Keeps (a b : State) : Prop :=
  b.pending = a.pending ∧ (Memory.wf a.hbm = true → Memory.wf b.hbm = true) ∧ (Memory.wf a.sram = true → Memory.wf b.sram = true) ∧
    (Tbl.rising a.regs = true → Tbl.rising b.regs = true)

theorem State.keeps_refl (s : State) : s.Keeps s := ⟨rfl, id, id, id⟩

theorem State.keeps_trans {a b c : State} (h : a.Keeps b) (g : b.Keeps c) : a.Keeps c :=
  ⟨g.1.trans h.1, fun x => g.2.1 (h.2.1 x), fun x => g.2.2.1 (h.2.2.1 x), fun x => g.2.2.2 (h.2.2.2 x)⟩

/-- The relation to a state written out. -/
theorem State.keeps_mk {b : State}
    {x_regs : Tbl Nat}
    {x_now : Nat}
    {x_elapsed : Nat}
    {x_resetCount : Tbl Nat}
    {x_irqLatch : List Nat}
    {x_irqs : List Nat}
    {x_staging : List Event}
    {x_lostStamps : Option (Nat × Nat × Nat)}
    {x_log : List LogRec}
    {x_plog : List LogRec}
    {x_cmds : List OpenCmd}
    {x_held : List Held}
    {x_resume : Option (Nat × Nat)}
    {x_cmdRecs : List CmdRec}
    {x_qps : Tbl QpSt}
    {x_ports : Tbl PortSt}
    {x_sems : Tbl SemSt}
    {x_ctxs : Tbl Ctx}
    {x_ctxReuse : Tbl Nat}
    {x_reqs : List Req}
    {x_ended : List Req}
    {x_rings : Tbl RingSt}
    {x_doorbells : List Doorbell}
    {x_vars : Tbl VarSt}
    {x_lastEpoch : Nat}
    {x_rems : Tbl Nat}
    {x_kv : Tbl KvPool}
    {x_hbm : List Host.Cell}
    {x_hbmTags : Tbl Nat}
    {x_resv : Tbl Nat}
    {x_sram : List Host.Cell}
    {x_sramHollow : List Nat}
    {x_eng : Tbl EngSt}
    {x_cells : Tbl (List Int)}
    {x_rowCharge : Tbl Nat}
    {x_prog : Tbl ProgSt}
    {x_jour : Tbl JSlot}
    {x_powered : Nat}
    {x_poweredKept : Nat}
    {x_mc : Tbl McSt}
    {x_vc : Tbl VcSt}
    {x_sc : Tbl ScSt}
    {x_pools : Tbl PoolSt}
    {x_chans : List Chan}
    {x_bufs : Tbl BufSt}
    {x_rsts : List ResetRec}
    {x_genAt : Tbl Nat}
    {x_clk : Clocks}
    {x_msh : MeshSt}
    {x_md : ModSt}
    {x_oa : OaSt}
    {x_resp : Nat × Nat}
    {x_sec : SecSt}
    {x_sen : SenseSt}
    {x_dirs : Tbl DirSt}
    {x_tor : TorusSt}
    {x_out : List Out}
    {x_freeCtr : Nat}
    {x_pending : List Instr}
    : b.Keeps (State.mk x_regs x_now x_elapsed x_resetCount x_irqLatch x_irqs x_staging x_lostStamps x_log x_plog x_cmds x_held x_resume x_cmdRecs x_qps x_ports x_sems x_ctxs x_ctxReuse x_reqs x_ended x_rings x_doorbells x_vars x_lastEpoch x_rems x_kv x_hbm x_hbmTags x_resv x_sram x_sramHollow x_eng x_cells x_rowCharge x_prog x_jour x_powered x_poweredKept x_mc x_vc x_sc x_pools x_chans x_bufs x_rsts x_genAt x_clk x_msh x_md x_oa x_resp x_sec x_sen x_dirs x_tor x_out x_freeCtr x_pending) ↔ (x_pending = b.pending ∧ (Memory.wf b.hbm = true → Memory.wf x_hbm = true) ∧
      (Memory.wf b.sram = true → Memory.wf x_sram = true) ∧ (Tbl.rising b.regs = true → Tbl.rising x_regs = true)) := Iff.rfl

/-- The relation from the three parts it speaks of. -/
theorem State.keeps_fields {b s : State} (h : b.Keeps s) :
    s.pending = b.pending ∧ (Memory.wf b.hbm = true → Memory.wf s.hbm = true) ∧ (Memory.wf b.sram = true → Memory.wf s.sram = true) ∧
      (Tbl.rising b.regs = true → Tbl.rising s.regs = true) := h

theorem State.keeps_put_regs {b s : State} {k v : Nat} (h : b.Keeps s) :
    s.pending = b.pending ∧ (Memory.wf b.hbm = true → Memory.wf s.hbm = true) ∧ (Memory.wf b.sram = true → Memory.wf s.sram = true) ∧
      (Tbl.rising b.regs = true → Tbl.rising (Tbl.put s.regs k v) = true) :=
  ⟨h.1, h.2.1, h.2.2.1, fun x => Tbl.rising_put _ _ (h.2.2.2 x)⟩

theorem State.keeps_del_regs {b s : State} {k : Nat} (h : b.Keeps s) :
    s.pending = b.pending ∧ (Memory.wf b.hbm = true → Memory.wf s.hbm = true) ∧ (Memory.wf b.sram = true → Memory.wf s.sram = true) ∧
      (Tbl.rising b.regs = true → Tbl.rising (Tbl.del s.regs k) = true) :=
  ⟨h.1, h.2.1, h.2.2.1, fun x => Tbl.rising_del _ (h.2.2.2 x)⟩

theorem State.keeps_keep_regs {b s : State} {p : Nat → Nat → Bool} (h : b.Keeps s) :
    s.pending = b.pending ∧ (Memory.wf b.hbm = true → Memory.wf s.hbm = true) ∧ (Memory.wf b.sram = true → Memory.wf s.sram = true) ∧
      (Tbl.rising b.regs = true → Tbl.rising (Tbl.keep s.regs p) = true) :=
  ⟨h.1, h.2.1, h.2.2.1, fun x => Tbl.rising_keep _ (h.2.2.2 x)⟩

theorem State.keeps_write_hbm {b s : State} {a n v : Nat} (h : b.Keeps s) :
    s.pending = b.pending ∧ (Memory.wf b.hbm = true → Memory.wf (Mem.write s.hbm a n v) = true) ∧
      (Memory.wf b.sram = true → Memory.wf s.sram = true) ∧ (Tbl.rising b.regs = true → Tbl.rising s.regs = true) :=
  ⟨h.1, fun x => Memory.wf_write _ _ _ (h.2.1 x), h.2.2⟩

theorem State.keeps_write_sram {b s : State} {a n v : Nat} (h : b.Keeps s) :
    s.pending = b.pending ∧ (Memory.wf b.hbm = true → Memory.wf s.hbm = true) ∧
      (Memory.wf b.sram = true → Memory.wf (Mem.write s.sram a n v) = true) ∧ (Tbl.rising b.regs = true → Tbl.rising s.regs = true) :=
  ⟨h.1, h.2.1, fun x => Memory.wf_write _ _ _ (h.2.2.1 x), h.2.2.2⟩

theorem State.keeps_keep_hbm {b s : State} {p : Nat → BitVec 8 → Bool} (h : b.Keeps s) :
    s.pending = b.pending ∧ (Memory.wf b.hbm = true → Memory.wf (Tbl.keep s.hbm p) = true) ∧
      (Memory.wf b.sram = true → Memory.wf s.sram = true) ∧ (Tbl.rising b.regs = true → Tbl.rising s.regs = true) := ⟨h.1, fun x => Memory.wf_keep _ (h.2.1 x), h.2.2⟩

theorem State.keeps_keep_sram {b s : State} {p : Nat → BitVec 8 → Bool} (h : b.Keeps s) :
    s.pending = b.pending ∧ (Memory.wf b.hbm = true → Memory.wf s.hbm = true) ∧
      (Memory.wf b.sram = true → Memory.wf (Tbl.keep s.sram p) = true) ∧ (Tbl.rising b.regs = true → Tbl.rising s.regs = true) :=
  ⟨h.1, h.2.1, fun x => Memory.wf_keep _ (h.2.2.1 x), h.2.2.2⟩

theorem ite_keeps {b x y : State} {c : Prop} [Decidable c] (hx : b.Keeps x) (hy : b.Keeps y) : b.Keeps (if c then x else y) := by
  split
  · exact hx
  · exact hy

theorem ite_keeps2 {b : State} {α : Type} {x y : α × State} {c : Prop} [Decidable c] (hx : b.Keeps x.2) (hy : b.Keeps y.2) :
    b.Keeps (if c then x else y).2 := by
  split
  · exact hx
  · exact hy

theorem ite_keeps3 {b : State} {α β : Type} {x y : α × β × State} {c : Prop} [Decidable c] (hx : b.Keeps x.2.2) (hy : b.Keeps y.2.2) :
    b.Keeps (if c then x else y).2.2 := by
  split
  · exact hx
  · exact hy

/-- Entries put one by one, none of which reads as an unlisted byte. -/
theorem Memory.wf_puts {l : List Host.Cell} (hl : ∀ c ∈ l, c.2 ≠ 0) (f : Host.Cell → Nat) :
    ∀ {m : List Host.Cell}, Memory.wf m = true → Memory.wf (l.foldl (fun t c => Tbl.put t (f c) c.2) m) = true := by
  induction l with
  | nil => intro m h; exact h
  | cons c l ih =>
    intro m h
    refine ih (fun d hd => hl d (List.mem_cons_of_mem _ hd)) ?_
    rw [Memory.wf_iff] at *
    exact ⟨Tbl.rising_put _ _ h.1, Tbl.all_put _ _ h.2 (hl c List.mem_cons_self)⟩

theorem Memory.wf_filter {m : List Host.Cell} (p : Host.Cell → Bool) (h : Memory.wf m = true) : Memory.wf (m.filter p) = true := by
  rw [Memory.wf_iff] at *
  exact ⟨(Tbl.rising_iff _).2 (((Tbl.rising_iff _).1 h.1).sublist List.filter_sublist), fun e he => h.2 e (List.mem_of_mem_filter he)⟩

theorem State.keeps_cold_power {b s : State} {p : Nat → Nat → Bool} (h : b.Keeps s) :
    s.pending = b.pending ∧ (Memory.wf b.hbm = true → Memory.wf s.hbm = true) ∧
      (Memory.wf b.sram = true → Memory.wf State.reset.sram = true) ∧ (Tbl.rising b.regs = true → Tbl.rising (Tbl.keep s.regs p) = true) :=
  ⟨h.1, h.2.1, fun _ => rfl, fun x => Tbl.rising_keep _ (h.2.2.2 x)⟩

theorem State.keeps_cold {b s : State} {p : Nat → Nat → Bool} (h : b.Keeps s) :
    s.pending = b.pending ∧ (Memory.wf b.hbm = true → Memory.wf State.reset.hbm = true) ∧
      (Memory.wf b.sram = true → Memory.wf State.reset.sram = true) ∧ (Tbl.rising b.regs = true → Tbl.rising (Tbl.keep s.regs p) = true) :=
  ⟨h.1, fun _ => rfl, fun _ => rfl, fun x => Tbl.rising_keep _ (h.2.2.2 x)⟩

theorem foldl_keeps {b : State} {α : Type} {f : State → α → State} (hf : ∀ t x, b.Keeps t → b.Keeps (f t x)) :
    ∀ {l : List α} {s : State}, b.Keeps s → b.Keeps (l.foldl f s)
  | [], _, h => h
  | x :: l, s, h => foldl_keeps (l := l) hf (hf s x h)

/-- A fold whose accumulator carries a state. -/
theorem foldl_keeps_pair {b : State} {α β : Type} {f : β × State → α → β × State} (hf : ∀ t x, b.Keeps t.2 → b.Keeps (f t x).2) :
    ∀ {l : List α} {s : β × State}, b.Keeps s.2 → b.Keeps (l.foldl f s).2
  | [], _, h => h
  | x :: l, s, h => foldl_keeps_pair (l := l) hf (hf s x h)

theorem foldl_keeps_triple {b : State} {α β γ : Type} {f : β × γ × State → α → β × γ × State}
    (hf : ∀ t x, b.Keeps t.2.2 → b.Keeps (f t x).2.2) :
    ∀ {l : List α} {s : β × γ × State}, b.Keeps s.2.2 → b.Keeps (l.foldl f s).2.2
  | [], _, h => h
  | x :: l, s, h => foldl_keeps_triple (l := l) hf (hf s x h)

theorem State.each_keeps {b s : State} {α : Type} {l : List α} {f : State → α → State} (h : b.Keeps s)
    (hf : ∀ t x, b.Keeps t → b.Keeps (f t x)) : b.Keeps (s.each l f) := foldl_keeps hf h

theorem State.when_keeps {b s : State} {c : Bool} {f : State → State} (h : b.Keeps s) (hf : ∀ t, b.Keeps t → b.Keeps (f t)) :
    b.Keeps (s.when c f) := by
  unfold State.when
  split
  · exact hf _ h
  · exact h

end Sys2Proof.Machine
end

