-- ==== Sys2Proof/Laws/Keeps/Ops.lean ====
section
/-! SUPPORT. Every operation and meaning of Machine/Ops.lean leaves the queue alone and keeps the memories and the register table canonical. -/

namespace Sys2Proof.Machine

set_option linter.unreachableTactic false
set_option linter.unusedTactic false

theorem State.wf_keeps {anc : State} (s : State) (f : Field) (i : Nat) (v : Nat) (k : optParam Nat 0) (hk : anc.Keeps s) : anc.Keeps (State.wf s f i v k) := by
  unfold State.wf
  repeat' first
    | with_reducible assumption | with_reducible refine State.keeps_fields ?_ | with_reducible refine State.keeps_put_regs ?_
    | dsimp only | simp only [State.keeps_mk]

theorem State.fix_keeps {anc : State} (s : State) (f : Field) (i : Nat) (v : Nat) (k : optParam Nat 0) (hk : anc.Keeps s) : anc.Keeps (State.fix s f i v k) := by
  unfold State.fix
  repeat' first
    | with_reducible assumption | with_reducible apply State.wf_keeps | with_reducible refine ite_keeps ?_ ?_ | split | dsimp only

theorem State.clr_keeps {anc : State} (s : State) (f : Field) (i : Nat) (k : optParam Nat 0) (hk : anc.Keeps s) : anc.Keeps (State.clr s f i k) := by
  unfold State.clr
  repeat' first
    | with_reducible assumption | with_reducible refine State.keeps_fields ?_ | with_reducible refine State.keeps_del_regs ?_
    | dsimp only | simp only [State.keeps_mk]

theorem State.inc_keeps {anc : State} (s : State) (f : Field) (i : Nat) (n : optParam Nat 1) (k : optParam Nat 0) (hk : anc.Keeps s) : anc.Keeps (State.inc s f i n k) := by
  unfold State.inc
  repeat' first
    | with_reducible assumption | with_reducible apply State.wf_keeps | with_reducible refine ite_keeps ?_ ?_ | split | dsimp only

theorem State.incSat_keeps {anc : State} (s : State) (f : Field) (i : Nat) (n : optParam Nat 1) (k : optParam Nat 0) (hk : anc.Keeps s) : anc.Keeps (State.incSat s f i n k) := by
  unfold State.incSat
  repeat' first
    | with_reducible assumption | with_reducible apply State.wf_keeps | dsimp only

theorem State.dec_keeps {anc : State} (s : State) (f : Field) (i : Nat) (n : optParam Nat 1) (k : optParam Nat 0) (hk : anc.Keeps s) : anc.Keeps (State.dec s f i n k) := by
  unfold State.dec
  repeat' first
    | with_reducible assumption | with_reducible apply State.wf_keeps | dsimp only

theorem State.irqUpdate_keeps {anc : State} (s : State) (p : Page) (hk : anc.Keeps s) : anc.Keeps (State.irqUpdate s p) := by
  unfold State.irqUpdate
  repeat' first
    | with_reducible assumption | with_reducible refine State.keeps_fields ?_ | with_reducible refine ite_keeps ?_ ?_ | split
    | dsimp only | simp only [State.keeps_mk]

theorem State.setInts_keeps {anc : State} (s : State) (p : Page) (mask : Nat) (hk : anc.Keeps s) : anc.Keeps (State.setInts s p mask) := by
  unfold State.setInts
  repeat' first
    | with_reducible assumption | with_reducible apply State.irqUpdate_keeps | with_reducible apply State.wf_keeps
    | with_reducible refine ite_keeps ?_ ?_ | split | dsimp only

theorem State.setInt_keeps {anc : State} (s : State) (p : Page) (b : Nat) (hk : anc.Keeps s) : anc.Keeps (State.setInt s p b) := by
  unfold State.setInt
  repeat' first
    | with_reducible assumption | with_reducible apply State.setInts_keeps | dsimp only

theorem State.capture_keeps {anc : State} (s : State) (p : Page) (addr : Nat) (data : Nat) (cause : Nat) (master : Nat) (source : Nat) (hk : anc.Keeps s) : anc.Keeps (State.capture s p addr data cause master source) := by
  unfold State.capture
  repeat' first
    | with_reducible assumption | with_reducible apply State.incSat_keeps | with_reducible apply State.wf_keeps
    | with_reducible refine ite_keeps ?_ ?_ | split | dsimp only

theorem State.post_keeps {anc : State} (s : State) (e : Event) (hk : anc.Keeps s) : anc.Keeps (State.post s e) := by
  unfold State.post
  repeat' first
    | with_reducible assumption | with_reducible apply State.setInt_keeps | with_reducible apply State.inc_keeps
    | with_reducible apply State.wf_keeps | with_reducible refine State.keeps_fields ?_ | with_reducible refine ite_keeps ?_ ?_
    | split | dsimp only | simp only [State.keeps_mk]

theorem State.logEv_keeps {anc : State} (s : State) (kind : Nat) (page : Nat) (ref : Nat) (details : List Nat) (hk : anc.Keeps s) : anc.Keeps (State.logEv s kind page ref details) := by
  unfold State.logEv
  repeat' first
    | with_reducible assumption | with_reducible apply State.post_keeps | dsimp only

theorem State.logEvSev_keeps {anc : State} (s : State) (kind : Nat) (sev : Nat) (page : Nat) (ref : Nat) (details : List Nat) (hk : anc.Keeps s) : anc.Keeps (State.logEvSev s kind sev page ref details) := by
  unfold State.logEvSev
  repeat' first
    | with_reducible assumption | with_reducible apply State.post_keeps | dsimp only

theorem State.unitEv_keeps {anc : State} (s : State) (cat : Nat) (p : Page) (ref : Nat) (cause : Nat) (captured : Bool) (hk : anc.Keeps s) : anc.Keeps (State.unitEv s cat p ref cause captured) := by
  unfold State.unitEv
  repeat' first
    | with_reducible assumption | with_reducible apply State.post_keeps | with_reducible refine ite_keeps ?_ ?_ | split | dsimp only

theorem State.blockErr_keeps {anc : State} (s : State) (p : Page) (cause : Nat) (addr : Nat) (data : Nat) (ints : Nat) (hk : anc.Keeps s) : anc.Keeps (State.blockErr s p cause addr data ints) := by
  unfold State.blockErr
  repeat' first
    | with_reducible assumption | with_reducible apply State.unitEv_keeps | with_reducible apply State.setInts_keeps
    | with_reducible apply State.capture_keeps | dsimp only

theorem State.setQp_keeps {anc : State} (s : State) (n : Nat) (q : QpSt) (hk : anc.Keeps s) : anc.Keeps (State.setQp s n q) := by
  unfold State.setQp
  repeat' first
    | with_reducible assumption | with_reducible refine State.keeps_fields ?_ | with_reducible refine State.keeps_put_regs ?_
    | dsimp only | simp only [State.keeps_mk]

theorem State.setPort_keeps {anc : State} (s : State) (n : Nat) (p : PortSt) (hk : anc.Keeps s) : anc.Keeps (State.setPort s n p) := by
  unfold State.setPort
  repeat' first
    | with_reducible assumption | with_reducible refine State.keeps_fields ?_ | with_reducible refine State.keeps_put_regs ?_
    | dsimp only | simp only [State.keeps_mk]

theorem State.writeRec_keeps {anc : State} (s : State) (e : Event) (hk : anc.Keeps s) : anc.Keeps (State.writeRec s e) := by
  unfold State.writeRec
  repeat' first
    | with_reducible assumption | with_reducible apply State.wf_keeps | with_reducible apply State.inc_keeps
    | with_reducible apply State.setInt_keeps | with_reducible apply State.when_keeps | with_reducible refine State.keeps_fields ?_
    | intro _ | with_reducible refine ite_keeps ?_ ?_ | split | dsimp only | simp only [State.keeps_mk]

theorem State.draw_keeps {anc : State} (s : State) (w : Nat) (hk : anc.Keeps s) : anc.Keeps (State.draw s w).2 := by
  unfold State.draw
  repeat' first
    | with_reducible assumption | with_reducible refine State.keeps_fields ?_ | dsimp only | simp only [State.keeps_mk]

theorem State.draw_keeps_eq {anc : State} {s : State} {w : Nat} {r0 tz} (heqx : State.draw s w = (r0, tz)) (hk : anc.Keeps s) : anc.Keeps tz := by
  have := State.draw_keeps s w hk (anc := anc)
  rwa [heqx] at this

theorem State.emit_keeps {anc : State} (s : State) (o : Out) (hk : anc.Keeps s) : anc.Keeps (State.emit s o) := by
  unfold State.emit
  repeat' first
    | with_reducible assumption | with_reducible refine State.keeps_fields ?_ | dsimp only | simp only [State.keeps_mk]

theorem State.suspect_keeps {anc : State} (s : State) (pc : Nat) (code : Nat) (eng : Nat) (hk : anc.Keeps s) : anc.Keeps (State.suspect s pc code eng) := by
  unfold State.suspect
  repeat' first
    | with_reducible assumption | with_reducible apply State.emit_keeps | dsimp only

theorem State.txQp_keeps {anc : State} (s : State) (qp : Nat) (n : Nat) (hk : anc.Keeps s) : anc.Keeps (State.txQp s qp n) := by
  unfold State.txQp
  repeat' first
    | with_reducible assumption | with_reducible apply State.setQp_keeps | with_reducible apply State.wf_keeps | dsimp only

theorem State.framesOut_keeps {anc : State} (s : State) (qp : Nat) (n : Nat) (hk : anc.Keeps s) : anc.Keeps (State.framesOut s qp n) := by
  unfold State.framesOut
  repeat' first
    | with_reducible assumption | with_reducible apply State.inc_keeps | dsimp only

theorem State.sendQp_keeps {anc : State} (s : State) (qp : Nat) (o : Out) (hk : anc.Keeps s) : anc.Keeps (State.sendQp s qp o) := by
  unfold State.sendQp
  repeat' first
    | with_reducible assumption | with_reducible apply State.txQp_keeps | with_reducible apply State.framesOut_keeps
    | with_reducible apply State.emit_keeps | dsimp only

theorem State.issueRead_keeps {anc : State} (s : State) (qp : Nat) (addr : Nat) (rkey : Nat) (bytes : Nat) (hk : anc.Keeps s) : anc.Keeps (State.issueRead s qp addr rkey bytes) := by
  unfold State.issueRead
  repeat' first
    | with_reducible assumption | with_reducible apply State.inc_keeps | with_reducible apply State.txQp_keeps
    | with_reducible apply State.framesOut_keeps | with_reducible apply State.emit_keeps | with_reducible apply State.setQp_keeps
    | with_reducible refine ite_keeps ?_ ?_ | split | dsimp only

theorem State.readDone_keeps {anc : State} (s : State) (qp : Nat) (hk : anc.Keeps s) : anc.Keeps (State.readDone s qp) := by
  unfold State.readDone
  repeat' first
    | with_reducible assumption | with_reducible apply State.dec_keeps | with_reducible apply State.issueRead_keeps
    | with_reducible apply State.setQp_keeps | split | dsimp only

end Sys2Proof.Machine
end

