-- ==== Sys2Proof/Laws/Keeps/Memory.lean ====
section
/-! SUPPORT. Every operation and meaning of Machine/Memory.lean leaves the queue alone and keeps the memories and the register table canonical. -/

namespace Sys2Proof.Machine

set_option linter.unreachableTactic false
set_option linter.unusedTactic false

theorem State.setHbmTag_keeps {anc : State} (s : State) (stack : Nat) (off : Nat) (tag : Nat) (hk : anc.Keeps s) : anc.Keeps (State.setHbmTag s stack off tag) := by
  unfold State.setHbmTag
  repeat' first
    | with_reducible assumption | with_reducible refine State.keeps_fields ?_ | dsimp only | simp only [State.keeps_mk]

theorem State.sealedDenied_keeps {anc : State} (s : State) (stack : Nat) (a : Nat) (data : Nat) (master : Nat) (source : Nat) (hk : anc.Keeps s) : anc.Keeps (State.sealedDenied s stack a data master source) := by
  unfold State.sealedDenied
  repeat' first
    | with_reducible assumption | with_reducible apply State.setInts_keeps | with_reducible apply State.capture_keeps
    | with_reducible apply State.wf_keeps | with_reducible apply State.inc_keeps | dsimp only

theorem State.stackFailedAccess_keeps {anc : State} (s : State) (stack : Nat) (a : Nat) (data : optParam Nat 0) (master : optParam Nat 7) (source : optParam Nat 0) (hk : anc.Keeps s) : anc.Keeps (State.stackFailedAccess s stack a data master source) := by
  unfold State.stackFailedAccess
  repeat' first
    | with_reducible assumption | with_reducible apply State.blockErr_keeps | with_reducible apply State.unitEv_keeps
    | with_reducible apply State.setInt_keeps | with_reducible apply State.capture_keeps | with_reducible refine ite_keeps ?_ ?_
    | split | dsimp only

theorem State.countTag_keeps {anc : State} (s : State) (stack : Nat) (off : Nat) (hk : anc.Keeps s) : anc.Keeps (State.countTag s stack off) := by
  unfold State.countTag
  repeat' first
    | with_reducible assumption | with_reducible apply State.setInt_keeps | with_reducible apply State.inc_keeps
    | with_reducible refine ite_keeps ?_ ?_ | split | dsimp only

theorem State.hbmRead_keeps {anc : State} (s : State) (a : Nat) (n : Nat) (hk : anc.Keeps s) : anc.Keeps (State.hbmRead s a n).2.2 := by
  unfold State.hbmRead
  repeat' first
    | with_reducible assumption | with_reducible apply State.stackFailedAccess_keeps | with_reducible apply State.countTag_keeps
    | with_reducible apply State.inc_keeps | with_reducible refine ite_keeps ?_ ?_ | with_reducible refine ite_keeps2 ?_ ?_
    | with_reducible refine ite_keeps3 ?_ ?_ | split | dsimp only

theorem State.hbmRead_keeps_eq {anc : State} {s : State} {a : Nat} {n : Nat} {r0 r1 tz} (heqx : State.hbmRead s a n = (r0, r1, tz)) (hk : anc.Keeps s) : anc.Keeps tz := by
  have := State.hbmRead_keeps s a n hk (anc := anc)
  rwa [heqx] at this

theorem State.clearResv_keeps {anc : State} (s : State) (stack : Nat) (off : Nat) (by_ : Option Nat) (hk : anc.Keeps s) : anc.Keeps (State.clearResv s stack off by_) := by
  unfold State.clearResv
  repeat' first
    | with_reducible assumption | with_reducible refine State.keeps_fields ?_ | with_reducible refine State.keeps_keep_regs ?_
    | with_reducible refine State.keeps_keep_hbm ?_ | with_reducible refine State.keeps_keep_sram ?_ | dsimp only
    | simp only [State.keeps_mk]

theorem State.hbmWrite_keeps {anc : State} (s : State) (a : Nat) (n : Nat) (v : Nat) (hollow : optParam Bool false) (by_ : optParam (Option Nat) none) (hk : anc.Keeps s) : anc.Keeps (State.hbmWrite s a n v hollow by_) := by
  unfold State.hbmWrite
  repeat' first
    | with_reducible assumption | with_reducible apply State.stackFailedAccess_keeps | with_reducible apply State.inc_keeps
    | with_reducible apply State.setHbmTag_keeps | with_reducible apply State.clearResv_keeps
    | with_reducible refine State.keeps_fields ?_ | with_reducible refine State.keeps_write_hbm ?_
    | with_reducible refine State.keeps_write_sram ?_ | with_reducible refine ite_keeps ?_ ?_ | split | dsimp only
    | simp only [State.keeps_mk]

theorem State.hbmWriteWords_keeps {anc : State} (s : State) (a : Nat) (ws : List Nat) (hk : anc.Keeps s) : anc.Keeps (State.hbmWriteWords s a ws) := by
  unfold State.hbmWriteWords
  repeat' first
    | with_reducible assumption | with_reducible apply State.hbmWrite_keeps | with_reducible apply foldl_keeps | intro _ | dsimp only

theorem State.hbmCodewords_keeps {anc : State} (s : State) (a : Nat) (n : Nat) (hk : anc.Keeps s) : anc.Keeps (State.hbmCodewords s a n).2.2 := by
  unfold State.hbmCodewords
  repeat' first
    | with_reducible assumption | with_reducible apply State.hbmRead_keeps
    | refine State.hbmRead_keeps_eq (by with_reducible assumption) ?_ | with_reducible apply foldl_keeps
    | with_reducible apply foldl_keeps_pair | with_reducible apply foldl_keeps_triple | intro _ | split | dsimp only

theorem State.hbmCodewords_keeps_eq {anc : State} {s : State} {a : Nat} {n : Nat} {r0 r1 tz} (heqx : State.hbmCodewords s a n = (r0, r1, tz)) (hk : anc.Keeps s) : anc.Keeps tz := by
  have := State.hbmCodewords_keeps s a n hk (anc := anc)
  rwa [heqx] at this

theorem State.sramWrite_keeps {anc : State} (s : State) (ck : Nat) (off : Nat) (n : Nat) (v : Nat) (hk : anc.Keeps s) : anc.Keeps (State.sramWrite s ck off n v) := by
  unfold State.sramWrite
  repeat' first
    | with_reducible assumption | with_reducible refine State.keeps_fields ?_ | with_reducible refine State.keeps_write_hbm ?_
    | with_reducible refine State.keeps_write_sram ?_ | dsimp only | simp only [State.keeps_mk]

theorem State.sramMark_keeps {anc : State} (s : State) (ck : Nat) (off : Nat) (h : Bool) (hk : anc.Keeps s) : anc.Keeps (State.sramMark s ck off h) := by
  unfold State.sramMark
  repeat' first
    | with_reducible assumption | with_reducible refine State.keeps_fields ?_ | with_reducible refine ite_keeps ?_ ?_ | split
    | dsimp only | simp only [State.keeps_mk]

end Sys2Proof.Machine
end

