-- ==== Sys2Proof/Laws/Keeps/Wire.lean ====
section
/-! SUPPORT. Every operation and meaning of Machine/Wire.lean leaves the queue alone and keeps the memories and the register table canonical. -/

namespace Sys2Proof.Machine

set_option linter.unreachableTactic false
set_option linter.unusedTactic false

theorem State.setDir_keeps {anc : State} (s : State) (d : Nat) (x : DirSt) (hk : anc.Keeps s) : anc.Keeps (State.setDir s d x) := by
  unfold State.setDir
  repeat' first
    | with_reducible assumption | with_reducible refine State.keeps_fields ?_ | with_reducible refine State.keeps_put_regs ?_
    | dsimp only | simp only [State.keeps_mk]

theorem State.transmit_keeps {anc : State} (s : State) (d : Nat) (f : Frame) (hk : anc.Keeps s) : anc.Keeps (State.transmit s d f) := by
  unfold State.transmit
  repeat' first
    | with_reducible assumption | with_reducible apply State.emit_keeps | with_reducible apply State.inc_keeps
    | with_reducible apply State.setDir_keeps | with_reducible refine ite_keeps ?_ ?_ | split | dsimp only

theorem State.txPump_keeps {anc : State} (s : State) (d : Nat) (x2 : Nat) (hk : anc.Keeps s) : anc.Keeps (State.txPump s d x2) := by
  induction x2 generalizing s with
  | zero =>
  simp only [State.txPump]
  try repeat' first
    | with_reducible assumption | with_reducible apply State.transmit_keeps | with_reducible apply State.setDir_keeps
    | with_reducible apply State.each_keeps | with_reducible apply foldl_keeps | with_reducible apply foldl_keeps_pair
    | with_reducible apply foldl_keeps_triple | with_reducible apply State.when_keeps | with_reducible refine State.keeps_fields ?_
    | intro _ | with_reducible refine ite_keeps ?_ ?_ | split | dsimp only | simp only [State.keeps_mk]
  | succ n ih =>
  simp only [State.txPump]
  repeat' first
    | with_reducible assumption | with_reducible apply ih | with_reducible apply State.transmit_keeps | with_reducible apply State.setDir_keeps
    | with_reducible apply State.each_keeps | with_reducible apply foldl_keeps | with_reducible apply foldl_keeps_pair
    | with_reducible apply foldl_keeps_triple | with_reducible apply State.when_keeps | with_reducible refine State.keeps_fields ?_
    | intro _ | with_reducible refine ite_keeps ?_ ?_ | split | dsimp only | simp only [State.keeps_mk]

theorem State.borsanTx_keeps {anc : State} (s : State) (d : Nat) (f : Frame) (hk : anc.Keeps s) : anc.Keeps (State.borsanTx s d f) := by
  unfold State.borsanTx
  repeat' first
    | with_reducible assumption | with_reducible apply State.transmit_keeps | with_reducible apply State.txPump_keeps
    | with_reducible apply State.setDir_keeps | with_reducible refine ite_keeps ?_ ?_ | split | dsimp only

theorem State.vcReturn_keeps {anc : State} (s : State) (d : Nat) (vc : Nat) (n : Nat) (hk : anc.Keeps s) : anc.Keeps (State.vcReturn s d vc n) := by
  unfold State.vcReturn
  repeat' first
    | with_reducible assumption | with_reducible apply State.txPump_keeps | with_reducible apply State.setDir_keeps
    | with_reducible refine State.keeps_put_regs ?_ | dsimp only

theorem State.leaveBy_keeps {anc : State} (s : State) (d : Nat) (f : Frame) (was : Frame) (hk : anc.Keeps s) : anc.Keeps (State.leaveBy s d f was) := by
  unfold State.leaveBy
  repeat' first
    | with_reducible assumption | with_reducible apply State.wf_keeps | with_reducible apply State.setInt_keeps
    | with_reducible apply State.inc_keeps | with_reducible apply State.setDir_keeps | with_reducible apply State.borsanTx_keeps
    | with_reducible refine ite_keeps ?_ ?_ | split | dsimp only

theorem State.sendNotice_keeps {anc : State} (s : State) (src : Nat) (ws : List Nat) (hk : anc.Keeps s) : anc.Keeps (State.sendNotice s src ws) := by
  unfold State.sendNotice
  repeat' first
    | with_reducible assumption | with_reducible apply State.emit_keeps | with_reducible apply State.leaveBy_keeps
    | with_reducible refine ite_keeps ?_ ?_ | split | dsimp only

theorem State.unroutable_keeps {anc : State} (s : State) (u : Nat) (f : Frame) (hk : anc.Keeps s) : anc.Keeps (State.unroutable s u f) := by
  unfold State.unroutable
  repeat' first
    | with_reducible assumption | with_reducible apply State.blockErr_keeps | with_reducible apply State.inc_keeps
    | with_reducible apply State.sendNotice_keeps | with_reducible apply State.emit_keeps | with_reducible refine ite_keeps ?_ ?_
    | split | dsimp only

theorem State.forward_keeps {anc : State} (s : State) (u : Nat) (inDim : Option Nat) (f : Frame) (hk : anc.Keeps s) : anc.Keeps (State.forward s u inDim f) := by
  unfold State.forward
  repeat' first
    | with_reducible assumption | with_reducible apply State.unroutable_keeps | with_reducible apply State.leaveBy_keeps
    | with_reducible apply State.inc_keeps | with_reducible refine ite_keeps ?_ ?_ | split | dsimp only

theorem State.sendFrame_keeps {anc : State} (s : State) (u : Nat) (f : Frame) (hk : anc.Keeps s) : anc.Keeps (State.sendFrame s u f) := by
  unfold State.sendFrame
  repeat' first
    | with_reducible assumption | with_reducible apply State.unroutable_keeps | with_reducible apply State.forward_keeps
    | with_reducible refine State.keeps_fields ?_ | with_reducible refine ite_keeps ?_ ?_ | split | dsimp only
    | simp only [State.keeps_mk]

theorem State.flood_keeps {anc : State} (s : State) (l : Lsn) (but : Option Nat) (hk : anc.Keeps s) : anc.Keeps (State.flood s l but) := by
  unfold State.flood
  repeat' first
    | with_reducible assumption | with_reducible apply State.transmit_keeps | with_reducible apply State.each_keeps | intro _
    | with_reducible refine ite_keeps ?_ ?_ | split | dsimp only

theorem State.schedule_keeps {anc : State} (s : State) (stamp : Nat) (hk : anc.Keeps s) : anc.Keeps (State.schedule s stamp) := by
  unfold State.schedule
  repeat' first
    | with_reducible assumption | with_reducible apply State.wf_keeps | with_reducible refine ite_keeps ?_ ?_ | split | dsimp only

theorem State.countLinks_keeps {anc : State} (s : State) (hk : anc.Keeps s) : anc.Keeps (State.countLinks s) := by
  unfold State.countLinks
  repeat' first
    | with_reducible assumption | with_reducible apply State.wf_keeps | dsimp only

theorem State.storeLsn_keeps {anc : State} (s : State) (l : Lsn) (hk : anc.Keeps s) : anc.Keeps (State.storeLsn s l) := by
  unfold State.storeLsn
  repeat' first
    | with_reducible assumption | with_reducible apply State.setInt_keeps | with_reducible apply State.wf_keeps
    | with_reducible apply State.countLinks_keeps | with_reducible apply State.schedule_keeps | with_reducible apply State.when_keeps
    | with_reducible refine State.keeps_fields ?_ | intro _ | dsimp only | simp only [State.keeps_mk]

theorem State.ownLsn_keeps {anc : State} (s : State) (d : Nat) (st : Nat) (hk : anc.Keeps s) : anc.Keeps (State.ownLsn s d st) := by
  unfold State.ownLsn
  repeat' first
    | with_reducible assumption | with_reducible apply State.flood_keeps | with_reducible apply State.storeLsn_keeps
    | with_reducible refine State.keeps_fields ?_ | with_reducible refine State.keeps_put_regs ?_ | dsimp only
    | simp only [State.keeps_mk]

theorem State.setSlot_keeps {anc : State} (s : State) (src : Nat) (r : Option RSlot) (hk : anc.Keeps s) : anc.Keeps (State.setSlot s src r) := by
  unfold State.setSlot
  repeat' first
    | with_reducible assumption | with_reducible refine State.keeps_fields ?_ | with_reducible refine State.keeps_put_regs ?_
    | with_reducible refine State.keeps_del_regs ?_ | split | dsimp only | simp only [State.keeps_mk]

theorem State.slotSub_keeps {anc : State} (s : State) (src : Nat) (n : Nat) (hk : anc.Keeps s) : anc.Keeps (State.slotSub s src n) := by
  unfold State.slotSub
  repeat' first
    | with_reducible assumption | with_reducible apply State.setSlot_keeps | with_reducible refine ite_keeps ?_ ?_ | split
    | dsimp only

theorem State.contribute_keeps {anc : State} (s : State) (u : Nat) (coll : Nat) (ws : List Nat) (hk : anc.Keeps s) : anc.Keeps (State.contribute s u coll ws) := by
  unfold State.contribute
  repeat' first
    | with_reducible assumption | with_reducible refine State.keeps_fields ?_ | with_reducible refine State.keeps_put_regs ?_
    | with_reducible refine ite_keeps ?_ ?_ | split | dsimp only | simp only [State.keeps_mk]

theorem State.egress_keeps {anc : State} (s : State) (kind : Nat) (dest : Nat) (ws : List Nat) (hk : anc.Keeps s) : anc.Keeps (State.egress s kind dest ws) := by
  unfold State.egress
  repeat' first
    | with_reducible assumption | with_reducible apply State.blockErr_keeps | with_reducible apply State.inc_keeps
    | with_reducible apply State.emit_keeps | with_reducible apply State.contribute_keeps
    | with_reducible apply State.sendFrame_keeps | with_reducible refine ite_keeps ?_ ?_ | split | dsimp only

theorem State.backward_keeps {anc : State} (s : State) (kind : Nat) (src : Nat) (ws : List Nat) (hk : anc.Keeps s) : anc.Keeps (State.backward s kind src ws) := by
  unfold State.backward
  repeat' first
    | with_reducible assumption | with_reducible apply State.setSlot_keeps | with_reducible apply State.sendFrame_keeps
    | with_reducible refine ite_keeps ?_ ?_ | split | dsimp only

theorem State.mesh_keeps {anc : State} (s : State) (kind : Nat) (dest : Nat) (words : List Nat) (hk : anc.Keeps s) : anc.Keeps (State.mesh s kind dest words) := by
  unfold State.mesh
  repeat' first
    | with_reducible assumption | with_reducible apply State.egress_keeps | with_reducible apply State.backward_keeps
    | with_reducible apply State.emit_keeps | with_reducible refine ite_keeps ?_ ?_ | split | dsimp only

theorem State.notice_keeps {anc : State} (s : State) (stream : Nat) (kind : Nat) (hk : anc.Keeps s) : anc.Keeps (State.notice s stream kind) := by
  unfold State.notice
  repeat' first
    | with_reducible assumption | with_reducible apply State.mesh_keeps | dsimp only

end Sys2Proof.Machine
end

