-- ==== Sys2Proof/Laws/Keeps/Pips.lean ====
section
/-! SUPPORT. Every operation and meaning of Machine/Pips.lean leaves the queue alone and keeps the memories and the register table canonical. -/

namespace Sys2Proof.Machine

set_option linter.unreachableTactic false
set_option linter.unusedTactic false

theorem State.meshFrom_keeps {anc : State} (s : State) (ck : Nat) (kind : Nat) (dest : Nat) (reqGen : Nat) (words : List Nat) (bytes : optParam Nat 0) (hk : anc.Keeps s) : anc.Keeps (State.meshFrom s ck kind dest reqGen words bytes) := by
  unfold State.meshFrom
  repeat' first
    | with_reducible assumption | with_reducible apply State.mesh_keeps | with_reducible apply State.emit_keeps
    | with_reducible refine ite_keeps ?_ ?_ | split | dsimp only

theorem State.setChan_keeps {anc : State} (s : State) (c : Chan) (hk : anc.Keeps s) : anc.Keeps (State.setChan s c) := by
  unfold State.setChan
  repeat' first
    | with_reducible assumption | with_reducible refine State.keeps_fields ?_ | dsimp only | simp only [State.keeps_mk]

theorem State.openChan_keeps {anc : State} (s : State) (ck : Nat) (dest : Nat) (stream : Nat) (hk : anc.Keeps s) : anc.Keeps (State.openChan s ck dest stream) := by
  unfold State.openChan
  repeat' first
    | with_reducible assumption | with_reducible apply State.meshFrom_keeps | with_reducible apply State.setChan_keeps
    | with_reducible refine State.keeps_fields ?_ | with_reducible refine ite_keeps ?_ ?_ | split | dsimp only
    | simp only [State.keeps_mk]

theorem State.chanAsk_keeps {anc : State} (s : State) (ck : Nat) (dest : Nat) (stream : Nat) (n : Nat) (hk : anc.Keeps s) : anc.Keeps (State.chanAsk s ck dest stream n) := by
  unfold State.chanAsk
  repeat' first
    | with_reducible assumption | with_reducible apply State.openChan_keeps | with_reducible apply State.meshFrom_keeps
    | with_reducible apply State.setChan_keeps | with_reducible refine ite_keeps ?_ ?_ | split | dsimp only

theorem State.askCredits_keeps {anc : State} (s : State) (ck : Nat) (stream : Nat) (needs : List (Nat × Nat)) (hk : anc.Keeps s) : anc.Keeps (State.askCredits s ck stream needs) := by
  unfold State.askCredits
  repeat' first
    | with_reducible assumption | with_reducible apply State.chanAsk_keeps | with_reducible apply State.each_keeps | intro _
    | dsimp only

theorem State.reserve_keeps {anc : State} (s : State) (ck : Nat) (stream : Nat) (needs : List (Nat × Nat)) (hk : anc.Keeps s) : anc.Keeps (State.reserve s ck stream needs) := by
  unfold State.reserve
  repeat' first
    | with_reducible assumption | with_reducible apply State.setChan_keeps | with_reducible apply State.each_keeps | intro _ | split
    | dsimp only

theorem State.unreserve_keeps {anc : State} (s : State) (ck : Nat) (stream : Nat) (needs : List (Nat × Nat)) (hk : anc.Keeps s) : anc.Keeps (State.unreserve s ck stream needs) := by
  unfold State.unreserve
  repeat' first
    | with_reducible assumption | with_reducible apply State.setChan_keeps | with_reducible apply State.each_keeps | intro _ | split
    | dsimp only

theorem State.setBuf_keeps {anc : State} (s : State) (ck : Nat) (idx : Nat) (b : BufSt) (hk : anc.Keeps s) : anc.Keeps (State.setBuf s ck idx b) := by
  unfold State.setBuf
  repeat' first
    | with_reducible assumption | with_reducible refine State.keeps_fields ?_ | with_reducible refine State.keeps_put_regs ?_
    | dsimp only | simp only [State.keeps_mk]

theorem State.grant_keeps {anc : State} (s : State) (ck : Nat) (r : CredReq) (n : Nat) (hk : anc.Keeps s) : anc.Keeps (State.grant s ck r n) := by
  unfold State.grant
  repeat' first
    | with_reducible assumption | with_reducible apply State.meshFrom_keeps | with_reducible refine ite_keeps ?_ ?_ | split
    | dsimp only

theorem State.serveQueue_keeps {anc : State} (s : State) (ck : Nat) (idx : Nat) (x3 : Nat) (hk : anc.Keeps s) : anc.Keeps (State.serveQueue s ck idx x3) := by
  induction x3 generalizing s with
  | zero =>
  simp only [State.serveQueue]
  try repeat' first
    | with_reducible assumption | with_reducible apply State.grant_keeps | with_reducible apply State.setBuf_keeps
    | with_reducible apply State.each_keeps | with_reducible apply foldl_keeps | with_reducible apply foldl_keeps_pair
    | with_reducible apply foldl_keeps_triple | with_reducible apply State.when_keeps | with_reducible refine State.keeps_fields ?_
    | intro _ | with_reducible refine ite_keeps ?_ ?_ | split | dsimp only | simp only [State.keeps_mk]
  | succ n ih =>
  simp only [State.serveQueue]
  repeat' first
    | with_reducible assumption | with_reducible apply ih | with_reducible apply State.grant_keeps | with_reducible apply State.setBuf_keeps
    | with_reducible apply State.each_keeps | with_reducible apply foldl_keeps | with_reducible apply foldl_keeps_pair
    | with_reducible apply foldl_keeps_triple | with_reducible apply State.when_keeps | with_reducible refine State.keeps_fields ?_
    | intro _ | with_reducible refine ite_keeps ?_ ?_ | split | dsimp only | simp only [State.keeps_mk]

theorem State.takeRequest_keeps {anc : State} (s : State) (ck : Nat) (idx : Nat) (r : CredReq) (hk : anc.Keeps s) : anc.Keeps (State.takeRequest s ck idx r) := by
  unfold State.takeRequest
  repeat' first
    | with_reducible assumption | with_reducible apply State.serveQueue_keeps | with_reducible apply State.setBuf_keeps | dsimp only

theorem State.freePip_keeps {anc : State} (s : State) (ck : Nat) (idx : Nat) (p : Pip) (hk : anc.Keeps s) : anc.Keeps (State.freePip s ck idx p) := by
  unfold State.freePip
  repeat' first
    | with_reducible assumption | with_reducible apply State.meshFrom_keeps | with_reducible apply State.serveQueue_keeps
    | with_reducible apply State.slotSub_keeps | with_reducible apply State.setBuf_keeps | with_reducible refine ite_keeps ?_ ?_
    | split | dsimp only

theorem State.freeSet_keeps {anc : State} (s : State) (ck : Nat) (idx : Nat) (ps : List Pip) (hk : anc.Keeps s) : anc.Keeps (State.freeSet s ck idx ps) := by
  unfold State.freeSet
  repeat' first
    | with_reducible assumption | with_reducible apply State.freePip_keeps | with_reducible apply State.each_keeps | intro _
    | dsimp only

theorem State.unitsPut_keeps {anc : State} (s : State) (ck : Nat) (us : List Nat) (bs : List Nat) (hk : anc.Keeps s) : anc.Keeps (State.unitsPut s ck us bs) := by
  unfold State.unitsPut
  repeat' first
    | with_reducible assumption | with_reducible apply State.sramWrite_keeps | with_reducible apply State.sramMark_keeps
    | with_reducible apply foldl_keeps | intro _ | with_reducible refine ite_keeps ?_ ?_ | split | dsimp only

theorem State.bufPut_keeps {anc : State} (s : State) (ck : Nat) (idx : Nat) (p : Pip) (hk : anc.Keeps s) : anc.Keeps (State.bufPut s ck idx p) := by
  unfold State.bufPut
  repeat' first
    | with_reducible assumption | with_reducible apply State.setBuf_keeps | with_reducible apply State.unitsPut_keeps | dsimp only

theorem State.genDrop_keeps {anc : State} (s : State) (router : Nat) (dest : Nat) (stream : Nat) (seq : Nat) (gen : Nat) (hk : anc.Keeps s) : anc.Keeps (State.genDrop s router dest stream seq gen) := by
  unfold State.genDrop
  repeat' first
    | with_reducible assumption | with_reducible apply State.blockErr_keeps | with_reducible apply State.wf_keeps
    | with_reducible apply State.inc_keeps | dsimp only

theorem State.failedSend_keeps {anc : State} (s : State) (ck : Nat) (hk : anc.Keeps s) : anc.Keeps (State.failedSend s ck) := by
  unfold State.failedSend
  repeat' first
    | with_reducible assumption | with_reducible apply State.setInt_keeps | with_reducible apply State.inc_keeps
    | with_reducible refine ite_keeps ?_ ?_ | split | dsimp only

theorem State.inject_keeps_both {anc : State} (s : State) (ck : Nat) (p : Pip) (reserved : Nat) (hk : anc.Keeps s) :
    anc.Keeps (State.inject s ck p reserved).2 ∧ ∀ t, (State.inject s ck p reserved).1 = some t → anc.Keeps t := by
  unfold State.inject
  dsimp only
  split
  · exact ⟨hk, fun t h => by cases h⟩
  · split
    · refine ⟨hk, fun t h => ?_⟩
      obtain rfl := Option.some.inj h
      repeat' first
        | with_reducible assumption
        | with_reducible apply State.notice_keeps
        | with_reducible apply State.genDrop_keeps
        | with_reducible apply State.unreserve_keeps
        | with_reducible apply State.each_keeps
        | with_reducible apply foldl_keeps
        | with_reducible apply foldl_keeps_pair
        | with_reducible apply foldl_keeps_triple
        | with_reducible apply State.when_keeps
        | with_reducible refine State.keeps_fields ?_
        | with_reducible refine State.keeps_write_hbm ?_
        | with_reducible refine State.keeps_write_sram ?_
        | with_reducible refine State.keeps_keep_hbm ?_
        | with_reducible refine State.keeps_keep_sram ?_
        | intro _
        | with_reducible refine ite_keeps ?_ ?_
        | split
        | dsimp only
        | simp only [State.keeps_mk]
    · split
      · refine ⟨hk, fun t h => ?_⟩
        obtain rfl := Option.some.inj h
        repeat' first
          | with_reducible assumption
          | with_reducible apply State.failedSend_keeps
          | with_reducible apply State.unreserve_keeps
          | with_reducible apply State.each_keeps
          | with_reducible apply foldl_keeps
          | with_reducible apply foldl_keeps_pair
          | with_reducible apply foldl_keeps_triple
          | with_reducible apply State.when_keeps
          | with_reducible refine State.keeps_fields ?_
          | with_reducible refine State.keeps_write_hbm ?_
          | with_reducible refine State.keeps_write_sram ?_
          | with_reducible refine State.keeps_keep_hbm ?_
          | with_reducible refine State.keeps_keep_sram ?_
          | intro _
          | with_reducible refine ite_keeps ?_ ?_
          | split
          | dsimp only
          | simp only [State.keeps_mk]
      · split
        · exact ⟨State.chanAsk_keeps _ _ _ _ _ hk, fun t h => by cases h⟩
        · split
          · refine ⟨hk, fun t h => ?_⟩
            obtain rfl := Option.some.inj h
            repeat' first
              | with_reducible assumption
              | with_reducible apply State.meshFrom_keeps
              | with_reducible apply State.setChan_keeps
              | with_reducible apply State.each_keeps
              | with_reducible apply foldl_keeps
              | with_reducible apply foldl_keeps_pair
              | with_reducible apply foldl_keeps_triple
              | with_reducible apply State.when_keeps
              | with_reducible refine State.keeps_fields ?_
              | with_reducible refine State.keeps_write_hbm ?_
              | with_reducible refine State.keeps_write_sram ?_
              | with_reducible refine State.keeps_keep_hbm ?_
              | with_reducible refine State.keeps_keep_sram ?_
              | intro _
              | with_reducible refine ite_keeps ?_ ?_
              | split
              | dsimp only
              | simp only [State.keeps_mk]
          · exact ⟨State.chanAsk_keeps _ _ _ _ _ hk, fun t h => by cases h⟩

theorem State.inject_keeps {anc : State} (s : State) (ck : Nat) (p : Pip) (reserved : Nat) (hk : anc.Keeps s) :
    anc.Keeps (State.inject s ck p reserved).2 := (State.inject_keeps_both s ck p reserved hk).1

theorem State.inject_keeps_eq {anc : State} {s ck p reserved} {r0 t} (heqx : State.inject s ck p reserved = (r0, t)) (hk : anc.Keeps s) :
    anc.Keeps t := by
  have := State.inject_keeps s ck p reserved hk
  rwa [heqx] at this

theorem State.inject_keeps_some {anc : State} {s ck p reserved} {t r} (heqx : State.inject s ck p reserved = (some t, r))
    (hk : anc.Keeps s) : anc.Keeps t := (State.inject_keeps_both s ck p reserved hk).2 t (by rw [heqx])

end Sys2Proof.Machine
end

