-- ==== Sys2Proof/Laws/Keeps/Engine.lean ====
section
/-! SUPPORT. Every operation and meaning of Machine/Engine.lean leaves the queue alone and keeps the memories and the register table canonical. -/

namespace Sys2Proof.Machine

set_option linter.unreachableTactic false
set_option linter.unusedTactic false

theorem State.setEng_keeps {anc : State} (s : State) (e : Nat) (x : EngSt) (hk : anc.Keeps s) : anc.Keeps (State.setEng s e x) := by
  unfold State.setEng
  repeat' first
    | with_reducible assumption | with_reducible refine State.keeps_fields ?_ | with_reducible refine State.keeps_put_regs ?_
    | dsimp only | simp only [State.keeps_mk]

theorem State.setPilot_keeps {anc : State} (s : State) (e : Nat) (b : Nat) (p : PilotSt) (hk : anc.Keeps s) : anc.Keeps (State.setPilot s e b p) := by
  unfold State.setPilot
  repeat' first
    | with_reducible assumption | with_reducible apply State.setEng_keeps | dsimp only

theorem State.unstale_keeps {anc : State} (s : State) (e : Nat) (hk : anc.Keeps s) : anc.Keeps (State.unstale s e) := by
  unfold State.unstale
  repeat' first
    | with_reducible assumption | with_reducible apply State.wf_keeps | with_reducible refine ite_keeps ?_ ?_ | split | dsimp only

theorem State.retrack_keeps {anc : State} (s : State) (e : Nat) (before : State) (hk : anc.Keeps s) : anc.Keeps (State.retrack s e before) := by
  unfold State.retrack
  repeat' first
    | with_reducible assumption | with_reducible apply State.unstale_keeps | with_reducible apply State.setPilot_keeps
    | with_reducible apply State.each_keeps | intro _ | with_reducible refine ite_keeps ?_ ?_ | split | dsimp only

theorem State.setBankState_keeps {anc : State} (s : State) (e : Nat) (b : Nat) (st : Nat) (hk : anc.Keeps s) : anc.Keeps (State.setBankState s e b st) := by
  unfold State.setBankState
  repeat' first
    | with_reducible assumption | with_reducible apply State.setInt_keeps | with_reducible apply State.wf_keeps
    | with_reducible apply State.retrack_keeps | with_reducible apply State.setPilot_keeps | with_reducible apply State.when_keeps
    | intro _ | dsimp only

theorem State.bind_keeps {anc : State} (s : State) (e : Nat) (w : Nat) (hk : anc.Keeps s) : anc.Keeps (State.bind s e w) := by
  unfold State.bind
  repeat' first
    | with_reducible assumption | with_reducible apply State.retrack_keeps | with_reducible apply State.wf_keeps
    | with_reducible apply State.each_keeps | intro _ | dsimp only

theorem State.accumulate_keeps {anc : State} (s : State) (e : Nat) (t : Tile) (c : Conv) (rs : List Int) (n : Nat) (hk : anc.Keeps s) : anc.Keeps (State.accumulate s e t c rs n) := by
  unfold State.accumulate
  repeat' first
    | with_reducible assumption | with_reducible apply State.setEng_keeps | with_reducible apply foldl_keeps
    | with_reducible refine State.keeps_put_regs ?_ | intro _ | with_reducible refine ite_keeps ?_ ?_ | split | dsimp only

theorem State.skipZero_keeps {anc : State} (s : State) (e : Nat) (x2 : Nat) (hk : anc.Keeps s) : anc.Keeps (State.skipZero s e x2) := by
  induction x2 generalizing s with
  | zero =>
  simp only [State.skipZero]
  try repeat' first
    | with_reducible assumption | with_reducible apply State.accumulate_keeps | with_reducible apply State.setEng_keeps
    | with_reducible apply State.each_keeps | with_reducible apply foldl_keeps | with_reducible apply foldl_keeps_pair
    | with_reducible apply foldl_keeps_triple | with_reducible apply State.when_keeps | with_reducible refine State.keeps_fields ?_
    | intro _ | with_reducible refine ite_keeps ?_ ?_ | split | dsimp only | simp only [State.keeps_mk]
  | succ n ih =>
  simp only [State.skipZero]
  repeat' first
    | with_reducible assumption | with_reducible apply ih | with_reducible apply State.accumulate_keeps | with_reducible apply State.setEng_keeps
    | with_reducible apply State.each_keeps | with_reducible apply foldl_keeps | with_reducible apply foldl_keeps_pair
    | with_reducible apply foldl_keeps_triple | with_reducible apply State.when_keeps | with_reducible refine State.keeps_fields ?_
    | intro _ | with_reducible refine ite_keeps ?_ ?_ | split | dsimp only | simp only [State.keeps_mk]

theorem State.beginTile_keeps {anc : State} (s : State) (e : Nat) (t : Tile) (hk : anc.Keeps s) : anc.Keeps (State.beginTile s e t) := by
  unfold State.beginTile
  repeat' first
    | with_reducible assumption | with_reducible apply State.skipZero_keeps | with_reducible apply State.wf_keeps
    | with_reducible apply State.setEng_keeps | dsimp only

theorem State.clipInfo_keeps {anc : State} (s : State) (e : Nat) (t : Tile) (c : Conv) (slice : Nat) (lower : Bool) (b : Nat) (hk : anc.Keeps s) : anc.Keeps (State.clipInfo s e t c slice lower b) := by
  unfold State.clipInfo
  repeat' first
    | with_reducible assumption | with_reducible apply State.wf_keeps | with_reducible apply State.inc_keeps | dsimp only

theorem State.subStep_keeps {anc : State} (s : State) (e : Nat) (noise : List Int) (hk : anc.Keeps s) : anc.Keeps (State.subStep s e noise) := by
  unfold State.subStep
  repeat' first
    | with_reducible assumption | with_reducible apply State.wf_keeps | with_reducible apply State.clipInfo_keeps
    | with_reducible apply State.setInt_keeps | with_reducible apply State.inc_keeps | with_reducible apply State.accumulate_keeps
    | with_reducible apply State.skipZero_keeps | with_reducible apply State.setEng_keeps | with_reducible apply State.each_keeps
    | with_reducible apply foldl_keeps | with_reducible apply State.when_keeps | intro _ | with_reducible refine ite_keeps ?_ ?_
    | split | dsimp only

theorem State.endTile_keeps {anc : State} (s : State) (e : Nat) (hk : anc.Keeps s) : anc.Keeps (State.endTile s e).1 := by
  unfold State.endTile
  repeat' first
    | with_reducible assumption | with_reducible apply State.inc_keeps | with_reducible apply State.setEng_keeps
    | with_reducible apply State.when_keeps | intro _ | split | dsimp only

theorem State.endTile_keeps_eq {anc : State} {s} {e} {r0 tz} (heqx : State.endTile s e = (tz, r0)) (hk : anc.Keeps s) : anc.Keeps tz := by
  have := State.endTile_keeps s e hk (anc := anc)
  rwa [heqx] at this

theorem State.dropTile_keeps {anc : State} (s : State) (e : Nat) (hk : anc.Keeps s) : anc.Keeps (State.dropTile s e) := by
  unfold State.dropTile
  repeat' first
    | with_reducible assumption | with_reducible apply State.setEng_keeps | dsimp only

theorem State.sweepDone_keeps {anc : State} (s : State) (e : Nat) (b : Nat) (vs : List Int) (hk : anc.Keeps s) : anc.Keeps (State.sweepDone s e b vs) := by
  unfold State.sweepDone
  repeat' first
    | with_reducible assumption | with_reducible apply State.setPilot_keeps | with_reducible apply State.wf_keeps
    | with_reducible apply State.inc_keeps | with_reducible apply State.setInt_keeps | with_reducible apply State.unstale_keeps
    | with_reducible apply State.suspect_keeps | with_reducible apply State.when_keeps | intro _
    | with_reducible refine ite_keeps ?_ ?_ | split | dsimp only

theorem State.sweepDue_keeps {anc : State} (s : State) (e : Nat) (b : Nat) (hk : anc.Keeps s) : anc.Keeps (State.sweepDue s e b) := by
  unfold State.sweepDue
  repeat' first
    | with_reducible assumption | with_reducible apply State.setPilot_keeps | with_reducible refine ite_keeps ?_ ?_ | split
    | dsimp only

theorem State.pilotStep_keeps {anc : State} (s : State) (e : Nat) (b : Nat) (noise : List Int) (hk : anc.Keeps s) : anc.Keeps (State.pilotStep s e b noise) := by
  unfold State.pilotStep
  repeat' first
    | with_reducible assumption | with_reducible apply State.sweepDone_keeps | with_reducible apply State.setPilot_keeps
    | with_reducible refine ite_keeps ?_ ?_ | split | dsimp only

theorem State.forcedSweep_keeps {anc : State} (s : State) (e : Nat) (b : Nat) (noise : List (List Int)) (hk : anc.Keeps s) : anc.Keeps (State.forcedSweep s e b noise) := by
  unfold State.forcedSweep
  repeat' first
    | with_reducible assumption | with_reducible apply State.sweepDone_keeps | with_reducible apply State.setInt_keeps
    | with_reducible apply State.incSat_keeps | with_reducible apply foldl_keeps | intro _ | with_reducible refine ite_keeps ?_ ?_
    | split | dsimp only

theorem State.pilotStale_keeps {anc : State} (s : State) (e : Nat) (hk : anc.Keeps s) : anc.Keeps (State.pilotStale s e) := by
  unfold State.pilotStale
  repeat' first
    | with_reducible assumption | with_reducible apply State.wf_keeps | with_reducible refine ite_keeps ?_ ?_ | split | dsimp only

theorem State.pilotNow_keeps {anc : State} (s : State) (e : Nat) (hk : anc.Keeps s) : anc.Keeps (State.pilotNow s e) := by
  unfold State.pilotNow
  repeat' first
    | with_reducible assumption | with_reducible apply State.setPilot_keeps | with_reducible apply State.each_keeps | intro _
    | with_reducible refine ite_keeps ?_ ?_ | split | dsimp only

end Sys2Proof.Machine
end

