-- ==== Sys2Proof/Laws/Keeps/Vorane.lean ====
section
/-! SUPPORT. Every operation and meaning of Machine/Vorane.lean leaves the queue alone and keeps the memories and the register table canonical. -/

namespace Sys2Proof.Machine

set_option linter.unreachableTactic false
set_option linter.unusedTactic false

theorem State.putRec_keeps {anc : State} (s : State) (r : CmdRec) (hk : anc.Keeps s) : anc.Keeps (State.putRec s r) := by
  unfold State.putRec
  repeat' first
    | with_reducible assumption | with_reducible refine State.keeps_fields ?_ | dsimp only | simp only [State.keeps_mk]

theorem State.setRec_keeps {anc : State} (s : State) (qp : Nat) (cmdId : Nat) (f : CmdRec → CmdRec) (hk : anc.Keeps s) : anc.Keeps (State.setRec s qp cmdId f) := by
  unfold State.setRec
  repeat' first
    | with_reducible assumption | with_reducible refine State.keeps_fields ?_ | with_reducible refine ite_keeps ?_ ?_ | split
    | dsimp only | simp only [State.keeps_mk]

theorem State.sendCompletion_keeps {anc : State} (s : State) (qp : Nat) (cmdId : Nat) (opcode : Nat) (result : Nat) (arrival : Nat) (body : List Nat) (hk : anc.Keeps s) : anc.Keeps (State.sendCompletion s qp cmdId opcode result arrival body) := by
  unfold State.sendCompletion
  repeat' first
    | with_reducible assumption | with_reducible apply State.wf_keeps | with_reducible apply State.inc_keeps
    | with_reducible apply State.sendQp_keeps | with_reducible refine ite_keeps ?_ ?_ | split | dsimp only

theorem State.sendAck_keeps {anc : State} (s : State) (qp : Nat) (cmdId : Nat) (opcode : Nat) (arrival : Nat) (hk : anc.Keeps s) : anc.Keeps (State.sendAck s qp cmdId opcode arrival) := by
  unfold State.sendAck
  repeat' first
    | with_reducible assumption | with_reducible apply State.sendQp_keeps | with_reducible refine ite_keeps ?_ ?_ | split
    | dsimp only

theorem State.setCmd_keeps {anc : State} (s : State) (qp : Nat) (cmdId : Nat) (f : OpenCmd → OpenCmd) (hk : anc.Keeps s) : anc.Keeps (State.setCmd s qp cmdId f) := by
  unfold State.setCmd
  repeat' first
    | with_reducible assumption | with_reducible refine State.keeps_fields ?_ | with_reducible refine ite_keeps ?_ ?_ | split
    | dsimp only | simp only [State.keeps_mk]

theorem State.takeEffect_keeps {anc : State} (s : State) (qp : Nat) (cmdId : Nat) (body : List Nat) (hk : anc.Keeps s) : anc.Keeps (State.takeEffect s qp cmdId body) := by
  unfold State.takeEffect
  repeat' first
    | with_reducible assumption | with_reducible apply State.setCmd_keeps | dsimp only

theorem State.finish_keeps {anc : State} (s : State) (qp : Nat) (cmdId : Nat) (body : List Nat) (hk : anc.Keeps s) : anc.Keeps (State.finish s qp cmdId body) := by
  unfold State.finish
  repeat' first
    | with_reducible assumption | with_reducible apply State.setRec_keeps | with_reducible apply State.sendCompletion_keeps
    | with_reducible refine State.keeps_fields ?_ | with_reducible refine ite_keeps ?_ ?_ | split | dsimp only
    | simp only [State.keeps_mk]

theorem State.replyEarly_keeps {anc : State} (s : State) (qp : Nat) (cmdId : Nat) (body : List Nat) (hk : anc.Keeps s) : anc.Keeps (State.replyEarly s qp cmdId body) := by
  unfold State.replyEarly
  repeat' first
    | with_reducible assumption | with_reducible apply State.setRec_keeps | with_reducible apply State.sendCompletion_keeps
    | with_reducible refine State.keeps_fields ?_ | with_reducible refine ite_keeps ?_ ?_ | split | dsimp only
    | simp only [State.keeps_mk]

theorem State.finalRec_keeps {anc : State} (s : State) (qp : Nat) (cmdId : Nat) (body : List Nat) (hk : anc.Keeps s) : anc.Keeps (State.finalRec s qp cmdId body) := by
  unfold State.finalRec
  repeat' first
    | with_reducible assumption | with_reducible apply State.setRec_keeps | dsimp only

theorem State.setSem_keeps {anc : State} (s : State) (i : Nat) (v : SemSt) (hk : anc.Keeps s) : anc.Keeps (State.setSem s i v) := by
  unfold State.setSem
  repeat' first
    | with_reducible assumption | with_reducible refine State.keeps_fields ?_ | with_reducible refine State.keeps_put_regs ?_
    | dsimp only | simp only [State.keeps_mk]

theorem State.semCount_keeps {anc : State} (s : State) (i : Nat) (hk : anc.Keeps s) : anc.Keeps (State.semCount s i) := by
  unfold State.semCount
  repeat' first
    | with_reducible assumption | with_reducible apply State.wf_keeps | dsimp only

theorem State.withdraw_keeps {anc : State} (s : State) (qp : Nat) (cmdId : Nat) (hk : anc.Keeps s) : anc.Keeps (State.withdraw s qp cmdId) := by
  unfold State.withdraw
  repeat' first
    | with_reducible assumption | with_reducible apply State.semCount_keeps | with_reducible apply State.setRec_keeps
    | with_reducible apply State.each_keeps | with_reducible refine State.keeps_fields ?_ | intro _ | dsimp only
    | simp only [State.keeps_mk]

theorem State.semGrant_keeps {anc : State} (s : State) (i : Nat) (holder : Nat) (source : Nat) (leaseMs : Nat) (hk : anc.Keeps s) : anc.Keeps (State.semGrant s i holder source leaseMs) := by
  unfold State.semGrant
  repeat' first
    | with_reducible assumption | with_reducible apply State.setSem_keeps | with_reducible apply State.wf_keeps
    | with_reducible apply State.inc_keeps | with_reducible refine ite_keeps ?_ ?_ | split | dsimp only

theorem State.semFree_keeps {anc : State} (s : State) (i : Nat) (hk : anc.Keeps s) : anc.Keeps (State.semFree s i) := by
  unfold State.semFree
  repeat' first
    | with_reducible assumption | with_reducible apply State.setSem_keeps | with_reducible apply State.wf_keeps
    | with_reducible apply State.dec_keeps | with_reducible refine ite_keeps ?_ ?_ | split | dsimp only

theorem State.semNext_keeps {anc : State} (s : State) (i : Nat) (hk : anc.Keeps s) : anc.Keeps (State.semNext s i) := by
  unfold State.semNext
  repeat' first
    | with_reducible assumption | with_reducible apply State.semGrant_keeps | with_reducible apply State.setSem_keeps
    | with_reducible apply State.semCount_keeps | with_reducible apply State.finish_keeps | split | dsimp only

theorem State.semBreak_keeps {anc : State} (s : State) (i : Nat) (cause : Nat) (hk : anc.Keeps s) : anc.Keeps (State.semBreak s i cause) := by
  unfold State.semBreak
  repeat' first
    | with_reducible assumption | with_reducible apply State.inc_keeps | with_reducible apply State.semFree_keeps
    | with_reducible apply State.setInt_keeps | with_reducible apply State.wf_keeps | with_reducible apply State.semNext_keeps
    | with_reducible apply State.logEv_keeps | with_reducible apply State.each_keeps | with_reducible apply State.when_keeps
    | intro _ | dsimp only

theorem State.semBreakAll_keeps {anc : State} (s : State) (holder : Nat) (source : Nat) (cause : Nat) (hk : anc.Keeps s) : anc.Keeps (State.semBreakAll s holder source cause) := by
  unfold State.semBreakAll
  repeat' first
    | with_reducible assumption | with_reducible apply State.semBreak_keeps | with_reducible apply State.each_keeps | intro _
    | with_reducible refine ite_keeps ?_ ?_ | split | dsimp only

theorem State.ringStall_keeps {anc : State} (s : State) (r : Nat) (hk : anc.Keeps s) : anc.Keeps (State.ringStall s r) := by
  unfold State.ringStall
  repeat' first
    | with_reducible assumption | with_reducible apply State.capture_keeps | with_reducible apply State.setInt_keeps
    | with_reducible apply State.wf_keeps | dsimp only

theorem State.qpLeave_keeps {anc : State} (s : State) (qp : Nat) (dieReset : optParam Bool false) (hk : anc.Keeps s) : anc.Keeps (State.qpLeave s qp dieReset) := by
  unfold State.qpLeave
  repeat' first
    | with_reducible assumption | with_reducible apply State.semBreakAll_keeps | with_reducible apply State.ringStall_keeps
    | with_reducible apply State.wf_keeps | with_reducible apply State.setQp_keeps | with_reducible apply State.withdraw_keeps
    | with_reducible apply State.setCmd_keeps | with_reducible apply State.each_keeps | with_reducible refine State.keeps_fields ?_
    | with_reducible refine State.keeps_del_regs ?_ | intro _ | with_reducible refine ite_keeps ?_ ?_ | split | dsimp only
    | simp only [State.keeps_mk]

theorem State.qpIdle_keeps {anc : State} (s : State) (qp : Nat) (hk : anc.Keeps s) : anc.Keeps (State.qpIdle s qp) := by
  unfold State.qpIdle
  repeat' first
    | with_reducible assumption | with_reducible apply State.clr_keeps | with_reducible apply foldl_keeps
    | with_reducible refine State.keeps_fields ?_ | with_reducible refine State.keeps_del_regs ?_ | intro _ | dsimp only
    | simp only [State.keeps_mk]

theorem State.countQps_keeps {anc : State} (s : State) (port : Nat) (hk : anc.Keeps s) : anc.Keeps (State.countQps s port) := by
  unfold State.countQps
  repeat' first
    | with_reducible assumption | with_reducible apply State.wf_keeps | dsimp only

theorem State.qpError_keeps {anc : State} (s : State) (qp : Nat) (cause : Nat) (hk : anc.Keeps s) : anc.Keeps (State.qpError s qp cause) := by
  unfold State.qpError
  repeat' first
    | with_reducible assumption | with_reducible apply State.wf_keeps | with_reducible apply State.blockErr_keeps
    | with_reducible apply State.qpLeave_keeps | with_reducible apply State.countQps_keeps | with_reducible apply State.when_keeps
    | intro _ | with_reducible refine ite_keeps ?_ ?_ | split | dsimp only

theorem State.transportAck_keeps {anc : State} (s : State) (qp : Nat) (hk : anc.Keeps s) : anc.Keeps (State.transportAck s qp) := by
  unfold State.transportAck
  repeat' first
    | with_reducible assumption | with_reducible apply State.framesOut_keeps | with_reducible apply State.emit_keeps | dsimp only

theorem State.admit_keeps {anc : State} {s : State} {i : Instr} {opcode : Nat} {c : Cmd} {cls : Class} {lenOk : Bool} {t : State}
    (hk : anc.Keeps s) (e : State.intake s i opcode c cls lenOk = .done t ∨ State.intake s i opcode c cls lenOk = .run t) :
    anc.Keeps t := by
  unfold State.intake at e
  repeat' first
    | with_reducible assumption
    | with_reducible apply State.transportAck_keeps
    | with_reducible apply State.framesOut_keeps
    | with_reducible apply State.sendAck_keeps
    | with_reducible apply State.sendCompletion_keeps
    | with_reducible apply State.putRec_keeps
    | with_reducible apply State.qpError_keeps
    | with_reducible apply State.emit_keeps
    | with_reducible apply State.inc_keeps
    | with_reducible apply State.dec_keeps
    | with_reducible refine State.keeps_fields ?_
    | split at e
    | (rcases e with e | e)
    | (cases e; done)
    | (injection e with e; subst e)
    | split
    | dsimp only at e
    | dsimp only
    | simp only [State.keeps_mk]

theorem State.vorane_keeps {anc : State} (s : State) (i : Instr) (opcode : Nat) (c : Cmd) (cls : Class) (lenOk : Bool)
    (act : State → State) (hk : anc.Keeps s) (hact : ∀ t, anc.Keeps t → anc.Keeps (act t)) :
    anc.Keeps (State.vorane s i opcode c cls lenOk act) := by
  unfold State.vorane
  split
  · exact hact _ hk
  · split
    · rename_i e
      exact State.admit_keeps hk (Or.inl e)
    · rename_i e
      exact hact _ (State.admit_keeps hk (Or.inr e))

theorem State.reply_keeps {anc : State} (s : State) (c : Cmd) (body : List Nat) (hk : anc.Keeps s) : anc.Keeps (State.reply s c body) := by
  unfold State.reply
  repeat' first
    | with_reducible assumption | with_reducible apply State.finish_keeps | dsimp only

end Sys2Proof.Machine
end

