-- ==== Sys2Proof/Laws/Keeps/Kv.lean ====
section
/-! SUPPORT. Every operation and meaning of Machine/Kv.lean leaves the queue alone and keeps the memories and the register table canonical. -/

namespace Sys2Proof.Machine

set_option linter.unreachableTactic false
set_option linter.unusedTactic false

theorem State.setKv_keeps {anc : State} (s : State) (v : Nat) (k : KvPool) (hk : anc.Keeps s) : anc.Keeps (State.setKv s v k) := by
  unfold State.setKv
  repeat' first
    | with_reducible assumption | with_reducible refine State.keeps_fields ?_ | with_reducible refine State.keeps_put_regs ?_
    | dsimp only | simp only [State.keeps_mk]

theorem State.setPt_keeps {anc : State} (s : State) (v : Nat) (slot : Nat) (p : Nat) (w : Nat) (hk : anc.Keeps s) : anc.Keeps (State.setPt s v slot p w) := by
  unfold State.setPt
  repeat' first
    | with_reducible assumption | with_reducible apply State.sramWrite_keeps | dsimp only

theorem State.kvReserve_keeps {anc : State} (s : State) (v : Nat) (slot : Nat) (n : Nat) (hk : anc.Keeps s) : anc.Keeps (State.kvReserve s v slot n).2 := by
  unfold State.kvReserve
  repeat' first
    | with_reducible assumption | with_reducible apply State.setKv_keeps | with_reducible refine ite_keeps ?_ ?_
    | with_reducible refine ite_keeps2 ?_ ?_ | with_reducible refine ite_keeps3 ?_ ?_ | split | dsimp only

theorem State.kvReserve_keeps_eq {anc : State} {s : State} {v : Nat} {slot : Nat} {n : Nat} {r0 tz} (heqx : State.kvReserve s v slot n = (r0, tz)) (hk : anc.Keeps s) : anc.Keeps tz := by
  have := State.kvReserve_keeps s v slot n hk (anc := anc)
  rwa [heqx] at this

theorem State.kvMeta_keeps {anc : State} (s : State) (v : Nat) (n : Nat) (hk : anc.Keeps s) : anc.Keeps (State.kvMeta s v n) := by
  unfold State.kvMeta
  repeat' first
    | with_reducible assumption | with_reducible apply State.hbmWrite_keeps | with_reducible apply foldl_keeps
    | with_reducible apply State.when_keeps | intro _ | dsimp only

theorem State.hbmBytes_keeps {anc : State} (s : State) (a : Nat) (n : Nat) (hk : anc.Keeps s) : anc.Keeps (State.hbmBytes s a n).2 := by
  unfold State.hbmBytes
  repeat' first
    | with_reducible assumption | with_reducible apply State.hbmRead_keeps
    | refine State.hbmRead_keeps_eq (by with_reducible assumption) ?_ | with_reducible apply foldl_keeps
    | with_reducible apply foldl_keeps_pair | with_reducible apply foldl_keeps_triple | intro _ | split | dsimp only

theorem State.hbmBytes_keeps_eq {anc : State} {s : State} {a : Nat} {n : Nat} {r0 tz} (heqx : State.hbmBytes s a n = (r0, tz)) (hk : anc.Keeps s) : anc.Keeps tz := by
  have := State.hbmBytes_keeps s a n hk (anc := anc)
  rwa [heqx] at this

theorem State.hbmPut_keeps {anc : State} (s : State) (a : Nat) (bs : List (Nat × Bool)) (hk : anc.Keeps s) : anc.Keeps (State.hbmPut s a bs) := by
  unfold State.hbmPut
  repeat' first
    | with_reducible assumption | with_reducible apply State.hbmWrite_keeps | with_reducible apply State.each_keeps | intro _
    | dsimp only

theorem State.kvDrop_keeps {anc : State} (s : State) (v : Nat) (slot : Nat) (p : Nat) (hk : anc.Keeps s) : anc.Keeps (State.kvDrop s v slot p) := by
  unfold State.kvDrop
  repeat' first
    | with_reducible assumption | with_reducible apply State.setKv_keeps | with_reducible apply State.setPt_keeps
    | with_reducible apply State.kvMeta_keeps | with_reducible refine State.keeps_put_regs ?_
    | with_reducible refine State.keeps_del_regs ?_ | with_reducible refine ite_keeps ?_ ?_ | split | dsimp only

theorem State.kvRelease_keeps {anc : State} (s : State) (v : Nat) (slot : Nat) (hk : anc.Keeps s) : anc.Keeps (State.kvRelease s v slot) := by
  unfold State.kvRelease
  repeat' first
    | with_reducible assumption | with_reducible apply State.kvDrop_keeps | with_reducible apply State.setKv_keeps
    | with_reducible apply State.each_keeps | with_reducible refine State.keeps_del_regs ?_ | intro _ | dsimp only

theorem State.kvShare_keeps {anc : State} (s : State) (v : Nat) (src : Nat) (dst : Nat) (n : Nat) (hk : anc.Keeps s) : anc.Keeps (State.kvShare s v src dst n).2 := by
  unfold State.kvShare
  repeat' first
    | with_reducible assumption | with_reducible apply State.kvDrop_keeps | with_reducible apply State.setKv_keeps
    | with_reducible apply State.kvMeta_keeps | with_reducible apply State.setPt_keeps | with_reducible apply State.each_keeps
    | with_reducible refine State.keeps_put_regs ?_ | intro _ | with_reducible refine ite_keeps ?_ ?_
    | with_reducible refine ite_keeps2 ?_ ?_ | with_reducible refine ite_keeps3 ?_ ?_ | split | dsimp only

theorem State.kvShare_keeps_eq {anc : State} {s : State} {v : Nat} {src : Nat} {dst : Nat} {n : Nat} {r0 tz} (heqx : State.kvShare s v src dst n = (r0, tz)) (hk : anc.Keeps s) : anc.Keeps tz := by
  have := State.kvShare_keeps s v src dst n hk (anc := anc)
  rwa [heqx] at this

theorem State.kvWrite_keeps {anc : State} (s : State) (v : Nat) (slot : Nat) (pos : Nat) (off : Nat) (data : List Nat) (hollow : Bool) (hk : anc.Keeps s) : anc.Keeps (State.kvWrite s v slot pos off data hollow).2 := by
  unfold State.kvWrite
  repeat' first
    | with_reducible assumption | with_reducible apply State.blockErr_keeps | with_reducible apply State.wf_keeps
    | with_reducible apply State.inc_keeps | with_reducible apply State.hbmPut_keeps | with_reducible apply State.setPt_keeps
    | with_reducible apply State.setKv_keeps | with_reducible apply State.kvMeta_keeps
    | with_reducible refine State.keeps_put_regs ?_ | with_reducible refine ite_keeps ?_ ?_ | with_reducible refine ite_keeps2 ?_ ?_
    | with_reducible refine ite_keeps3 ?_ ?_ | split | dsimp only

theorem State.kvWrite_keeps_eq {anc : State} {s : State} {v : Nat} {slot : Nat} {pos : Nat} {off : Nat} {data : List Nat} {hollow : Bool} {r0 tz} (heqx : State.kvWrite s v slot pos off data hollow = (r0, tz)) (hk : anc.Keeps s) : anc.Keeps tz := by
  have := State.kvWrite_keeps s v slot pos off data hollow hk (anc := anc)
  rwa [heqx] at this

theorem State.clearVResids_keeps {anc : State} (s : State) (ctx : Nat) (hk : anc.Keeps s) : anc.Keeps (State.clearVResids s ctx) := by
  unfold State.clearVResids
  repeat' first
    | with_reducible assumption | with_reducible apply State.sramWrite_keeps | with_reducible apply State.each_keeps
    | with_reducible refine State.keeps_fields ?_ | intro _ | dsimp only | simp only [State.keeps_mk]

end Sys2Proof.Machine
end

