-- ==== Sys2Proof/Laws/Keeps/Ring.lean ====
section
/-! SUPPORT. Every operation and meaning of Machine/Ring.lean leaves the queue alone and keeps the memories and the register table canonical. -/

namespace Sys2Proof.Machine

set_option linter.unreachableTactic false
set_option linter.unusedTactic false

theorem State.setCtx_keeps {anc : State} (s : State) (handle : Nat) (f : Ctx → Ctx) (hk : anc.Keeps s) : anc.Keeps (State.setCtx s handle f) := by
  unfold State.setCtx
  repeat' first
    | with_reducible assumption | with_reducible refine State.keeps_fields ?_ | with_reducible refine ite_keeps ?_ ?_ | split
    | dsimp only | simp only [State.keeps_mk]

theorem State.setReq_keeps {anc : State} (s : State) (id : Nat) (f : Req → Req) (hk : anc.Keeps s) : anc.Keeps (State.setReq s id f) := by
  unfold State.setReq
  repeat' first
    | with_reducible assumption | with_reducible refine State.keeps_fields ?_ | with_reducible refine ite_keeps ?_ ?_ | split
    | dsimp only | simp only [State.keeps_mk]

theorem State.setVar_keeps {anc : State} (s : State) (v : Nat) (x : VarSt) (hk : anc.Keeps s) : anc.Keeps (State.setVar s v x) := by
  unfold State.setVar
  repeat' first
    | with_reducible assumption | with_reducible refine State.keeps_fields ?_ | with_reducible refine State.keeps_put_regs ?_
    | dsimp only | simp only [State.keeps_mk]

theorem State.setsBack_keeps {anc : State} (s : State) (id : Nat) (n : Nat) (hk : anc.Keeps s) : anc.Keeps (State.setsBack s id n) := by
  unfold State.setsBack
  repeat' first
    | with_reducible assumption | with_reducible apply State.setReq_keeps | with_reducible apply State.setVar_keeps
    | with_reducible refine ite_keeps ?_ ?_ | split | dsimp only

theorem State.setVState_keeps {anc : State} (s : State) (v : Nat) (st : Nat) (hk : anc.Keeps s) : anc.Keeps (State.setVState s v st) := by
  unfold State.setVState
  repeat' first
    | with_reducible assumption | with_reducible apply State.setInt_keeps | with_reducible apply State.wf_keeps | dsimp only

theorem State.countServe_keeps {anc : State} (s : State) (v : Nat) (t : Nat) (hk : anc.Keeps s) : anc.Keeps (State.countServe s v t) := by
  unfold State.countServe
  repeat' first
    | with_reducible assumption | with_reducible apply State.wf_keeps | dsimp only

theorem State.commitRec_keeps {anc : State} (s : State) (r : Nat) (rec : Nat → List Nat) (hk : anc.Keeps s) : anc.Keeps (State.commitRec s r rec) := by
  unfold State.commitRec
  repeat' first
    | with_reducible assumption | with_reducible apply State.wf_keeps | with_reducible apply State.hbmWriteWords_keeps | dsimp only

theorem State.commitToken_keeps {anc : State} (s : State) (id : Nat) (token : Nat) (position : Nat) (hk : anc.Keeps s) : anc.Keeps (State.commitToken s id token position) := by
  unfold State.commitToken
  repeat' first
    | with_reducible assumption | with_reducible apply State.setReq_keeps | with_reducible apply State.commitRec_keeps | split
    | dsimp only

theorem State.clearStreams_keeps {anc : State} (s : State) (r : Req) (hk : anc.Keeps s) : anc.Keeps (State.clearStreams s r) := by
  unfold State.clearStreams
  repeat' first
    | with_reducible assumption | with_reducible apply State.sramWrite_keeps | with_reducible apply State.each_keeps | intro _
    | with_reducible refine ite_keeps ?_ ?_ | split | dsimp only

theorem State.kvReleaseTurn_keeps {anc : State} (s : State) (v : Nat) (slot : Nat) (hk : anc.Keeps s) : anc.Keeps (State.kvReleaseTurn s v slot) := by
  unfold State.kvReleaseTurn
  repeat' first
    | with_reducible assumption | with_reducible apply State.kvRelease_keeps | with_reducible refine State.keeps_fields ?_
    | with_reducible refine State.keeps_put_regs ?_ | with_reducible refine ite_keeps ?_ ?_ | split | dsimp only
    | simp only [State.keeps_mk]

theorem State.releaseCtx_keeps {anc : State} (s : State) (c : Ctx) (hk : anc.Keeps s) : anc.Keeps (State.releaseCtx s c) := by
  unfold State.releaseCtx
  repeat' first
    | with_reducible assumption | with_reducible apply State.kvReleaseTurn_keeps | with_reducible apply State.each_keeps | intro _
    | dsimp only

theorem State.drainContexts_keeps {anc : State} (s : State) (v : Nat) (hk : anc.Keeps s) : anc.Keeps (State.drainContexts s v) := by
  unfold State.drainContexts
  repeat' first
    | with_reducible assumption | with_reducible apply State.releaseCtx_keeps | with_reducible apply State.each_keeps
    | with_reducible refine State.keeps_fields ?_ | intro _ | with_reducible refine ite_keeps ?_ ?_ | split | dsimp only
    | simp only [State.keeps_mk]

theorem State.commitEnd_keeps {anc : State} (s : State) (id : Nat) (ctxLen : Nat) (notes : Nat) (hk : anc.Keeps s) : anc.Keeps (State.commitEnd s id ctxLen notes) := by
  unfold State.commitEnd
  repeat' first
    | with_reducible assumption | with_reducible apply State.commitRec_keeps | with_reducible apply State.clearStreams_keeps
    | with_reducible apply State.setCtx_keeps | with_reducible apply State.wf_keeps | with_reducible apply State.drainContexts_keeps
    | with_reducible apply State.countServe_keeps | with_reducible apply State.inc_keeps
    | with_reducible refine State.keeps_fields ?_ | split | dsimp only | simp only [State.keeps_mk]

theorem State.setRing_keeps {anc : State} (s : State) (r : Nat) (x : RingSt) (hk : anc.Keeps s) : anc.Keeps (State.setRing s r x) := by
  unfold State.setRing
  repeat' first
    | with_reducible assumption | with_reducible refine State.keeps_fields ?_ | with_reducible refine State.keeps_put_regs ?_
    | dsimp only | simp only [State.keeps_mk]

theorem State.ringWait_keeps {anc : State} (s : State) (r : Nat) (d : Doorbell) (hk : anc.Keeps s) : anc.Keeps (State.ringWait s r d) := by
  unfold State.ringWait
  repeat' first
    | with_reducible assumption | with_reducible apply State.inc_keeps | with_reducible apply State.setInt_keeps
    | with_reducible apply State.wf_keeps | with_reducible apply State.setRing_keeps | dsimp only

theorem State.fixOutcome_keeps {anc : State} (s : State) (id : Nat) (status : Nat) (reason : Nat) (hk : anc.Keeps s) : anc.Keeps (State.fixOutcome s id status reason) := by
  unfold State.fixOutcome
  repeat' first
    | with_reducible assumption | with_reducible apply State.inc_keeps | with_reducible apply State.setRing_keeps
    | with_reducible apply State.setReq_keeps | with_reducible apply State.wf_keeps | with_reducible apply State.setCtx_keeps
    | with_reducible apply State.setInt_keeps | with_reducible apply State.when_keeps | intro _
    | with_reducible refine ite_keeps ?_ ?_ | split | dsimp only

theorem State.takeEnd_keeps {anc : State} (s : State) (id : Nat) (d : Doorbell) (hk : anc.Keeps s) : anc.Keeps (State.takeEnd s id d) := by
  unfold State.takeEnd
  repeat' first
    | with_reducible assumption | with_reducible apply State.commitEnd_keeps | with_reducible apply State.ringWait_keeps
    | with_reducible refine ite_keeps ?_ ?_ | split | dsimp only

theorem State.takeDoorbell_keeps {anc : State} (s : State) (d : Doorbell) (hk : anc.Keeps s) : anc.Keeps (State.takeDoorbell s d) := by
  unfold State.takeDoorbell
  repeat' first
    | with_reducible assumption | with_reducible apply State.inc_keeps | with_reducible apply State.commitToken_keeps
    | with_reducible apply State.ringWait_keeps | with_reducible apply State.takeEnd_keeps
    | with_reducible apply State.fixOutcome_keeps | with_reducible apply State.commitEnd_keeps
    | with_reducible refine ite_keeps ?_ ?_ | split | dsimp only

theorem State.ringRetry_keeps {anc : State} (s : State) (r : Nat) (x2 : Nat) (hk : anc.Keeps s) : anc.Keeps (State.ringRetry s r x2) := by
  induction x2 generalizing s with
  | zero =>
  simp only [State.ringRetry]
  try repeat' first
    | with_reducible assumption | with_reducible apply State.commitToken_keeps | with_reducible apply State.wf_keeps
    | with_reducible apply State.setRing_keeps | with_reducible apply State.commitEnd_keeps | with_reducible apply State.each_keeps
    | with_reducible apply foldl_keeps | with_reducible apply foldl_keeps_pair | with_reducible apply foldl_keeps_triple
    | with_reducible apply State.when_keeps | with_reducible refine State.keeps_fields ?_ | intro _
    | with_reducible refine ite_keeps ?_ ?_ | split | dsimp only | simp only [State.keeps_mk]
  | succ n ih =>
  simp only [State.ringRetry]
  repeat' first
    | with_reducible assumption | with_reducible apply ih | with_reducible apply State.commitToken_keeps | with_reducible apply State.wf_keeps
    | with_reducible apply State.setRing_keeps | with_reducible apply State.commitEnd_keeps | with_reducible apply State.each_keeps
    | with_reducible apply foldl_keeps | with_reducible apply foldl_keeps_pair | with_reducible apply foldl_keeps_triple
    | with_reducible apply State.when_keeps | with_reducible refine State.keeps_fields ?_ | intro _
    | with_reducible refine ite_keeps ?_ ?_ | split | dsimp only | simp only [State.keeps_mk]

theorem State.endWhenIdle_keeps {anc : State} (s : State) (id : Nat) (hk : anc.Keeps s) : anc.Keeps (State.endWhenIdle s id) := by
  unfold State.endWhenIdle
  repeat' first
    | with_reducible assumption | with_reducible apply State.takeEnd_keeps | with_reducible apply State.setReq_keeps
    | with_reducible refine State.keeps_fields ?_ | with_reducible refine ite_keeps ?_ ?_ | split | dsimp only
    | simp only [State.keeps_mk]

theorem State.endRequest_keeps {anc : State} (s : State) (id : Nat) (status : Nat) (hk : anc.Keeps s) : anc.Keeps (State.endRequest s id status) := by
  unfold State.endRequest
  repeat' first
    | with_reducible assumption | with_reducible apply State.setReq_keeps | with_reducible apply State.setCtx_keeps
    | with_reducible apply State.endWhenIdle_keeps | with_reducible apply State.fixOutcome_keeps
    | with_reducible refine ite_keeps ?_ ?_ | split | dsimp only

theorem State.ringDeliver_keeps {anc : State} (s : State) (r : Nat) (hk : anc.Keeps s) : anc.Keeps (State.ringDeliver s r) := by
  unfold State.ringDeliver
  repeat' first
    | with_reducible assumption | with_reducible apply State.txQp_keeps | with_reducible apply State.framesOut_keeps
    | with_reducible apply State.emit_keeps | with_reducible apply State.setRing_keeps | with_reducible apply State.sendQp_keeps
    | with_reducible refine ite_keeps ?_ ?_ | split | dsimp only

end Sys2Proof.Machine
end

