-- ==== Sys2Proof/Laws/Keeps/Program.lean ====
section
/-! SUPPORT. Every operation and meaning of Machine/Program.lean leaves the queue alone and keeps the memories and the register table canonical. -/

namespace Sys2Proof.Machine

set_option linter.unreachableTactic false
set_option linter.unusedTactic false

theorem State.setProg_keeps {anc : State} (s : State) (e : Nat) (p : ProgSt) (hk : anc.Keeps s) : anc.Keeps (State.setProg s e p) := by
  unfold State.setProg
  repeat' first
    | with_reducible assumption | with_reducible apply State.wf_keeps | with_reducible refine State.keeps_fields ?_
    | with_reducible refine State.keeps_put_regs ?_ | dsimp only | simp only [State.keeps_mk]

theorem State.progRefuse_keeps {anc : State} (s : State) (e : Nat) (result : Nat) (cause : Nat) (m : Master) (w : Nat) (hk : anc.Keeps s) : anc.Keeps (State.progRefuse s e result cause m w) := by
  unfold State.progRefuse
  repeat' first
    | with_reducible assumption | with_reducible apply State.setInts_keeps | with_reducible apply State.capture_keeps
    | with_reducible apply State.wf_keeps | dsimp only

theorem State.loadImage_keeps {anc : State} (s : State) (op : ProgOp) (hk : anc.Keeps s) : anc.Keeps (State.loadImage s op).2 := by
  unfold State.loadImage
  repeat' first
    | with_reducible assumption | with_reducible apply State.hbmCodewords_keeps
    | refine State.hbmCodewords_keeps_eq (by with_reducible assumption) ?_ | with_reducible refine ite_keeps ?_ ?_
    | with_reducible refine ite_keeps2 ?_ ?_ | with_reducible refine ite_keeps3 ?_ ?_ | split | dsimp only

theorem State.loadImage_keeps_eq {anc : State} {s : State} {op : ProgOp} {r0 tz} (heqx : State.loadImage s op = (r0, tz)) (hk : anc.Keeps s) : anc.Keeps tz := by
  have := State.loadImage_keeps s op hk (anc := anc)
  rwa [heqx] at this

theorem State.progStart_keeps {anc : State} (s : State) (e : Nat) (m : Master) (op : ProgOp) (w : Nat) (hk : anc.Keeps s) : anc.Keeps (State.progStart s e m op w).2 := by
  unfold State.progStart
  repeat' first
    | with_reducible assumption | with_reducible apply State.progRefuse_keeps | with_reducible apply State.loadImage_keeps
    | refine State.loadImage_keeps_eq (by with_reducible assumption) ?_ | with_reducible apply State.wf_keeps
    | with_reducible apply State.setProg_keeps | with_reducible apply State.setInt_keeps | with_reducible refine ite_keeps ?_ ?_
    | with_reducible refine ite_keeps2 ?_ ?_ | with_reducible refine ite_keeps3 ?_ ?_ | split | dsimp only

theorem State.progStart_keeps_eq {anc : State} {s : State} {e : Nat} {m : Master} {op : ProgOp} {w : Nat} {r0 tz} (heqx : State.progStart s e m op w = (r0, tz)) (hk : anc.Keeps s) : anc.Keeps tz := by
  have := State.progStart_keeps s e m op w hk (anc := anc)
  rwa [heqx] at this

theorem State.oasisStart_keeps {anc : State} (s : State) (e : Nat) (op : ProgOp) (hk : anc.Keeps s) : anc.Keeps (State.oasisStart s e op).2 := by
  unfold State.oasisStart
  repeat' first
    | with_reducible assumption | with_reducible apply State.progStart_keeps
    | refine State.progStart_keeps_eq (by with_reducible assumption) ?_ | with_reducible apply State.wf_keeps
    | with_reducible refine ite_keeps ?_ ?_ | with_reducible refine ite_keeps2 ?_ ?_ | with_reducible refine ite_keeps3 ?_ ?_ | split
    | dsimp only

theorem State.oasisStart_keeps_eq {anc : State} {s : State} {e : Nat} {op : ProgOp} {r0 tz} (heqx : State.oasisStart s e op = (r0, tz)) (hk : anc.Keeps s) : anc.Keeps tz := by
  have := State.oasisStart_keeps s e op hk (anc := anc)
  rwa [heqx] at this

theorem State.ledger_keeps {anc : State} (s : State) (e : Nat) (bank : Nat) (rows : List Nat) (hk : anc.Keeps s) : anc.Keeps (State.ledger s e bank rows) := by
  unfold State.ledger
  repeat' first
    | with_reducible assumption | with_reducible apply State.wf_keeps | with_reducible apply State.incSat_keeps
    | with_reducible apply State.setInt_keeps | with_reducible apply State.each_keeps | with_reducible apply foldl_keeps
    | with_reducible refine State.keeps_fields ?_ | with_reducible refine State.keeps_put_regs ?_ | intro _
    | with_reducible refine ite_keeps ?_ ?_ | split | dsimp only | simp only [State.keeps_mk]

theorem State.journal_keeps {anc : State} (s : State) (e : Nat) (bank : Nat) (hk : anc.Keeps s) : anc.Keeps (State.journal s e bank) := by
  unfold State.journal
  repeat' first
    | with_reducible assumption | with_reducible apply State.wf_keeps | with_reducible refine State.keeps_fields ?_
    | with_reducible refine State.keeps_put_regs ?_ | dsimp only | simp only [State.keeps_mk]

theorem State.loadEntry_keeps {anc : State} (s : State) (e : Nat) (bank : Nat) (hk : anc.Keeps s) : anc.Keeps (State.loadEntry s e bank) := by
  unfold State.loadEntry
  repeat' first
    | with_reducible assumption | with_reducible apply State.wf_keeps | with_reducible apply foldl_keeps | intro _ | dsimp only

theorem State.activationEnd_keeps {anc : State} (s : State) (v : Nat) (st : Nat) (hk : anc.Keeps s) : anc.Keeps (State.activationEnd s v st) := by
  unfold State.activationEnd
  repeat' first
    | with_reducible assumption | with_reducible apply State.setVState_keeps | with_reducible apply State.setProg_keeps
    | with_reducible apply State.finalRec_keeps | with_reducible apply State.setVar_keeps | with_reducible apply foldl_keeps
    | with_reducible refine State.keeps_fields ?_ | intro _ | with_reducible refine ite_keeps ?_ ?_ | split | dsimp only
    | simp only [State.keeps_mk]

theorem State.activationStop_keeps {anc : State} (s : State) (v : Nat) (e : Nat) (result : Nat) (hk : anc.Keeps s) : anc.Keeps (State.activationStop s v e result) := by
  unfold State.activationStop
  repeat' first
    | with_reducible assumption | with_reducible apply State.activationEnd_keeps | with_reducible apply State.unitEv_keeps
    | with_reducible refine ite_keeps ?_ ?_ | split | dsimp only

theorem State.progEnd_keeps {anc : State} (s : State) (e : Nat) (op : ProgOp) (result : Nat) (bankSt : Nat) (int : Option Nat) (hk : anc.Keeps s) : anc.Keeps (State.progEnd s e op result bankSt int) := by
  unfold State.progEnd
  repeat' first
    | with_reducible assumption | with_reducible apply State.journal_keeps | with_reducible apply State.setBankState_keeps
    | with_reducible apply State.ledger_keeps | with_reducible apply State.wf_keeps | with_reducible apply State.setProg_keeps
    | with_reducible apply State.setInt_keeps | split | dsimp only

theorem State.failRecords_keeps {anc : State} (s : State) (e : Nat) (op : ProgOp) (hk : anc.Keeps s) : anc.Keeps (State.failRecords s e op) := by
  unfold State.failRecords
  repeat' first
    | with_reducible assumption | with_reducible apply State.logEv_keeps | with_reducible apply State.each_keeps
    | with_reducible apply foldl_keeps | intro _ | with_reducible refine ite_keeps ?_ ?_ | split | dsimp only

theorem State.progDone_keeps {anc : State} (s : State) (e : Nat) (op : ProgOp) (vs : List Int) (hk : anc.Keeps s) : anc.Keeps (State.progDone s e op vs) := by
  unfold State.progDone
  repeat' first
    | with_reducible assumption | with_reducible apply State.setPilot_keeps | with_reducible apply State.wf_keeps
    | with_reducible apply State.progEnd_keeps | with_reducible apply State.retrack_keeps | with_reducible apply foldl_keeps
    | intro _ | with_reducible refine ite_keeps ?_ ?_ | split | dsimp only

theorem State.progFail_keeps {anc : State} (s : State) (e : Nat) (op : ProgOp) (hk : anc.Keeps s) : anc.Keeps (State.progFail s e op) := by
  unfold State.progFail
  repeat' first
    | with_reducible assumption | with_reducible apply State.progEnd_keeps | with_reducible apply State.wf_keeps
    | with_reducible apply State.suspect_keeps | with_reducible apply State.failRecords_keeps
    | with_reducible apply State.activationStop_keeps | with_reducible apply State.oasisStart_keeps
    | refine State.oasisStart_keeps_eq (by with_reducible assumption) ?_ | with_reducible refine ite_keeps ?_ ?_ | split | dsimp only

theorem State.progAborted_keeps {anc : State} (s : State) (e : Nat) (op : ProgOp) (hk : anc.Keeps s) : anc.Keeps (State.progAborted s e op) := by
  unfold State.progAborted
  repeat' first
    | with_reducible assumption | with_reducible apply State.progEnd_keeps | dsimp only

theorem State.progAbort_keeps {anc : State} (s : State) (e : Nat) (hk : anc.Keeps s) : anc.Keeps (State.progAbort s e) := by
  unfold State.progAbort
  repeat' first
    | with_reducible assumption | with_reducible apply State.wf_keeps | with_reducible apply State.setProg_keeps
    | with_reducible apply State.progAborted_keeps | with_reducible refine ite_keeps ?_ ?_ | split | dsimp only

theorem State.dequeue_keeps {anc : State} (s : State) (e : Nat) (hk : anc.Keeps s) : anc.Keeps (State.dequeue s e) := by
  unfold State.dequeue
  repeat' first
    | with_reducible assumption | with_reducible apply State.wf_keeps | with_reducible apply State.setProg_keeps
    | with_reducible apply State.setInt_keeps | with_reducible apply State.capture_keeps
    | with_reducible apply State.activationStop_keeps | with_reducible apply State.journal_keeps
    | with_reducible apply State.setBankState_keeps | with_reducible refine ite_keeps ?_ ?_ | split | dsimp only

theorem State.nextPulse_keeps {anc : State} (s : State) (e : Nat) (o : ProgOp) (x3 : Nat) (hk : anc.Keeps s) : anc.Keeps (State.nextPulse s e o x3) := by
  induction x3 generalizing s o with
  | zero =>
  simp only [State.nextPulse]
  try repeat' first
    | with_reducible assumption | with_reducible apply State.setProg_keeps | with_reducible apply State.wf_keeps
    | with_reducible apply State.journal_keeps | with_reducible apply State.each_keeps | with_reducible apply foldl_keeps
    | with_reducible apply foldl_keeps_pair | with_reducible apply foldl_keeps_triple | with_reducible apply State.when_keeps
    | with_reducible refine State.keeps_fields ?_ | intro _ | with_reducible refine ite_keeps ?_ ?_ | split | dsimp only
    | simp only [State.keeps_mk]
  | succ n ih =>
  simp only [State.nextPulse]
  repeat' first
    | with_reducible assumption | with_reducible apply ih | with_reducible apply State.setProg_keeps | with_reducible apply State.wf_keeps
    | with_reducible apply State.journal_keeps | with_reducible apply State.each_keeps | with_reducible apply foldl_keeps
    | with_reducible apply foldl_keeps_pair | with_reducible apply foldl_keeps_triple | with_reducible apply State.when_keeps
    | with_reducible refine State.keeps_fields ?_ | intro _ | with_reducible refine ite_keeps ?_ ?_ | split | dsimp only
    | simp only [State.keeps_mk]

theorem State.rowPulseEnd_keeps {anc : State} (s : State) (e : Nat) (hk : anc.Keeps s) : anc.Keeps (State.rowPulseEnd s e) := by
  unfold State.rowPulseEnd
  repeat' first
    | with_reducible assumption | with_reducible apply State.wf_keeps | with_reducible apply State.progAborted_keeps
    | with_reducible apply State.nextPulse_keeps | with_reducible refine State.keeps_fields ?_
    | with_reducible refine State.keeps_put_regs ?_ | with_reducible refine ite_keeps ?_ ?_ | split | dsimp only
    | simp only [State.keeps_mk]

theorem State.judgeProg_keeps {anc : State} (s : State) (e : Nat) (noise : List Int) (hk : anc.Keeps s) : anc.Keeps (State.judgeProg s e noise) := by
  unfold State.judgeProg
  repeat' first
    | with_reducible assumption | with_reducible apply State.progDone_keeps | with_reducible apply State.progFail_keeps
    | with_reducible refine ite_keeps ?_ ?_ | split | dsimp only

theorem State.verifyStep_keeps {anc : State} (s : State) (e : Nat) (devs : List Int) (noise : List Int) (hk : anc.Keeps s) : anc.Keeps (State.verifyStep s e devs noise) := by
  unfold State.verifyStep
  repeat' first
    | with_reducible assumption | with_reducible apply State.setProg_keeps | with_reducible apply State.judgeProg_keeps
    | with_reducible apply State.nextPulse_keeps | with_reducible apply State.wf_keeps | with_reducible apply State.journal_keeps
    | with_reducible apply State.when_keeps | intro _ | with_reducible refine ite_keeps ?_ ?_ | split | dsimp only

theorem State.verifyDeadline_keeps {anc : State} (s : State) (e : Nat) (hk : anc.Keeps s) : anc.Keeps (State.verifyDeadline s e) := by
  unfold State.verifyDeadline
  repeat' first
    | with_reducible assumption | with_reducible apply State.inc_keeps | with_reducible apply State.setProg_keeps
    | with_reducible refine ite_keeps ?_ ?_ | split | dsimp only

theorem State.startOwed_keeps {anc : State} (s : State) (e : Nat) (o : ProgOp) (hk : anc.Keeps s) : anc.Keeps (State.startOwed s e o) := by
  unfold State.startOwed
  repeat' first
    | with_reducible assumption | with_reducible apply State.loadImage_keeps
    | refine State.loadImage_keeps_eq (by with_reducible assumption) ?_ | with_reducible apply State.oasisStart_keeps
    | refine State.oasisStart_keeps_eq (by with_reducible assumption) ?_ | with_reducible apply State.unitEv_keeps
    | with_reducible apply State.setInt_keeps | with_reducible apply State.wf_keeps | with_reducible apply State.activationStop_keeps
    | with_reducible refine ite_keeps ?_ ?_ | split | dsimp only

theorem State.tryOwed_keeps {anc : State} (s : State) (e : Nat) (hk : anc.Keeps s) : anc.Keeps (State.tryOwed s e) := by
  unfold State.tryOwed
  repeat' first
    | with_reducible assumption | with_reducible apply State.startOwed_keeps | with_reducible apply State.setProg_keeps
    | with_reducible refine ite_keeps ?_ ?_ | split | dsimp only

theorem State.oweRetrims_keeps {anc : State} (s : State) (e : Nat) (before : State) (hk : anc.Keeps s) : anc.Keeps (State.oweRetrims s e before) := by
  unfold State.oweRetrims
  repeat' first
    | with_reducible assumption | with_reducible apply State.tryOwed_keeps | with_reducible apply State.setProg_keeps
    | with_reducible apply State.each_keeps | intro _ | with_reducible refine ite_keeps ?_ ?_ | split | dsimp only

theorem State.wornOut_keeps {anc : State} (s : State) (e : Nat) (before : State) (hk : anc.Keeps s) : anc.Keeps (State.wornOut s e before) := by
  unfold State.wornOut
  repeat' first
    | with_reducible assumption | with_reducible apply State.suspect_keeps | with_reducible apply State.each_keeps
    | with_reducible apply State.when_keeps | intro _ | dsimp only

theorem State.progInterrupt_keeps {anc : State} (s : State) (e : Nat) (hk : anc.Keeps s) : anc.Keeps (State.progInterrupt s e) := by
  unfold State.progInterrupt
  repeat' first
    | with_reducible assumption | with_reducible apply State.progEnd_keeps | with_reducible apply State.setProg_keeps
    | with_reducible refine ite_keeps ?_ ?_ | split | dsimp only

theorem State.localFlip_keeps {anc : State} (s : State) (e : Nat) (hk : anc.Keeps s) : anc.Keeps (State.localFlip s e) := by
  unfold State.localFlip
  repeat' first
    | with_reducible assumption | with_reducible apply State.retrack_keeps | with_reducible apply State.wf_keeps
    | with_reducible apply State.each_keeps | intro _ | with_reducible refine ite_keeps ?_ ?_ | split | dsimp only

theorem execPilotSweepDue_keeps {anc : State} (e : Nat) (b : Nat) (s : State) (hk : anc.Keeps s) : ∃ out, execPilotSweepDue e b s = .next out ∧ anc.Keeps out := by
  unfold execPilotSweepDue
  refine ⟨_, rfl, ?_⟩
  repeat' first
    | with_reducible assumption | with_reducible apply State.sweepDue_keeps | dsimp only

theorem execPilotSubStep_keeps {anc : State} (e : Nat) (b : Nat) (noise : List Int) (s : State) (hk : anc.Keeps s) : ∃ out, execPilotSubStep e b noise s = .next out ∧ anc.Keeps out := by
  unfold execPilotSubStep
  refine ⟨_, rfl, ?_⟩
  repeat' first
    | with_reducible assumption | with_reducible apply State.wornOut_keeps | with_reducible apply State.oweRetrims_keeps
    | with_reducible apply State.pilotStep_keeps | dsimp only

theorem execForcedSweep_keeps {anc : State} (e : Nat) (b : Nat) (noise : List (List Int)) (s : State) (hk : anc.Keeps s) : ∃ out, execForcedSweep e b noise s = .next out ∧ anc.Keeps out := by
  unfold execForcedSweep
  refine ⟨_, rfl, ?_⟩
  repeat' first
    | with_reducible assumption | with_reducible apply State.wornOut_keeps | with_reducible apply State.oweRetrims_keeps
    | with_reducible apply State.forcedSweep_keeps | dsimp only

theorem execPilotStale_keeps {anc : State} (e : Nat) (s : State) (hk : anc.Keeps s) : ∃ out, execPilotStale e s = .next out ∧ anc.Keeps out := by
  unfold execPilotStale
  refine ⟨_, rfl, ?_⟩
  repeat' first
    | with_reducible assumption | with_reducible apply State.pilotStale_keeps | dsimp only

theorem execProgDequeue_keeps {anc : State} (s : State) (hk : anc.Keeps s) : ∃ out, execProgDequeue s = .next out ∧ anc.Keeps out := by
  unfold execProgDequeue
  refine ⟨_, rfl, ?_⟩
  repeat' first
    | with_reducible assumption | with_reducible apply State.dequeue_keeps | split | dsimp only

theorem execDeferExpiry_keeps {anc : State} (e : Nat) (s : State) (hk : anc.Keeps s) : ∃ out, execDeferExpiry e s = .next out ∧ anc.Keeps out := by
  unfold execDeferExpiry
  refine ⟨_, rfl, ?_⟩
  repeat' first
    | with_reducible assumption | with_reducible apply State.wf_keeps | with_reducible apply State.setProg_keeps
    | with_reducible refine ite_keeps ?_ ?_ | split | dsimp only

theorem execRowPulseEnd_keeps {anc : State} (e : Nat) (s : State) (hk : anc.Keeps s) : ∃ out, execRowPulseEnd e s = .next out ∧ anc.Keeps out := by
  unfold execRowPulseEnd
  refine ⟨_, rfl, ?_⟩
  repeat' first
    | with_reducible assumption | with_reducible apply State.wornOut_keeps | with_reducible apply State.tryOwed_keeps
    | with_reducible apply State.rowPulseEnd_keeps | dsimp only

theorem execVerifyDeadline_keeps {anc : State} (e : Nat) (s : State) (hk : anc.Keeps s) : ∃ out, execVerifyDeadline e s = .next out ∧ anc.Keeps out := by
  unfold execVerifyDeadline
  refine ⟨_, rfl, ?_⟩
  repeat' first
    | with_reducible assumption | with_reducible apply State.verifyDeadline_keeps | dsimp only

theorem execElapsedTick_keeps {anc : State} (s : State) (hk : anc.Keeps s) : ∃ out, execElapsedTick s = .next out ∧ anc.Keeps out := by
  unfold execElapsedTick
  refine ⟨_, rfl, ?_⟩
  repeat' first
    | with_reducible assumption | with_reducible refine State.keeps_fields ?_ | dsimp only | simp only [State.keeps_mk]

theorem execElapsedCommit_keeps {anc : State} (s : State) (hk : anc.Keeps s) : ∃ out, execElapsedCommit s = .next out ∧ anc.Keeps out := by
  unfold execElapsedCommit
  refine ⟨_, rfl, ?_⟩
  repeat' first
    | with_reducible assumption | with_reducible refine State.keeps_fields ?_ | dsimp only | simp only [State.keeps_mk]

end Sys2Proof.Machine
end

