-- ==== Sys2Proof/Laws/Keeps/MCore.lean ====
section
/-! SUPPORT. Every operation and meaning of Machine/MCore.lean leaves the queue alone and keeps the memories and the register table canonical. -/

namespace Sys2Proof.Machine

set_option linter.unreachableTactic false
set_option linter.unusedTactic false

theorem State.mirrorMc_keeps {anc : State} (s : State) (ck : Nat) (hk : anc.Keeps s) : anc.Keeps (State.mirrorMc s ck) := by
  unfold State.mirrorMc
  repeat' first
    | with_reducible assumption | with_reducible apply State.wf_keeps | with_reducible apply State.each_keeps | intro _ | dsimp only

theorem State.setMc_keeps {anc : State} (s : State) (ck : Nat) (m : McSt) (hk : anc.Keeps s) : anc.Keeps (State.setMc s ck m) := by
  unfold State.setMc
  repeat' first
    | with_reducible assumption | with_reducible apply State.mirrorMc_keeps | with_reducible refine State.keeps_fields ?_
    | with_reducible refine State.keeps_put_regs ?_ | dsimp only | simp only [State.keeps_mk]

theorem State.setStep_keeps {anc : State} (s : State) (ck : Nat) (id : Nat) (f : Step → Step) (hk : anc.Keeps s) : anc.Keeps (State.setStep s ck id f) := by
  unfold State.setStep
  repeat' first
    | with_reducible assumption | with_reducible apply State.setMc_keeps | with_reducible refine ite_keeps ?_ ?_ | split | dsimp only

theorem State.retireStep_keeps {anc : State} (s : State) (ck : Nat) (id : Nat) (hk : anc.Keeps s) : anc.Keeps (State.retireStep s ck id) := by
  unfold State.retireStep
  repeat' first
    | with_reducible assumption | with_reducible apply State.unreserve_keeps | with_reducible apply State.setMc_keeps
    | with_reducible refine ite_keeps ?_ ?_ | split | dsimp only

theorem State.beginCheck_keeps {anc : State} (s : State) (ck : Nat) (n : Nat) (ep : Nat) (x : Step) (hk : anc.Keeps s) : anc.Keeps (State.beginCheck s ck n ep x) := by
  unfold State.beginCheck
  repeat' first
    | with_reducible assumption | with_reducible apply State.setStep_keeps | with_reducible apply State.inc_keeps
    | with_reducible apply State.setInt_keeps | with_reducible apply State.beginTile_keeps | with_reducible apply State.mesh_keeps
    | with_reducible apply State.when_keeps | intro _ | with_reducible refine ite_keeps ?_ ?_ | split | dsimp only

theorem State.tileFailed_keeps {anc : State} (s : State) (ck : Nat) (hk : anc.Keeps s) : anc.Keeps (State.tileFailed s ck) := by
  unfold State.tileFailed
  repeat' first
    | with_reducible assumption | with_reducible apply State.setInt_keeps | with_reducible apply State.inc_keeps | dsimp only

theorem State.startTile_keeps {anc : State} (s : State) (ck : Nat) (x : Step) (n : Nat) (ep : Nat) (hk : anc.Keeps s) : anc.Keeps (State.startTile s ck x n ep).2 := by
  unfold State.startTile
  repeat' first
    | with_reducible assumption | with_reducible apply State.blockErr_keeps | with_reducible apply State.tileFailed_keeps
    | with_reducible apply State.inc_keeps | with_reducible apply State.setInt_keeps | with_reducible apply State.beginTile_keeps
    | with_reducible apply State.when_keeps | intro _ | with_reducible refine ite_keeps ?_ ?_
    | with_reducible refine ite_keeps2 ?_ ?_ | with_reducible refine ite_keeps3 ?_ ?_ | split | dsimp only

theorem State.startTile_keeps_eq {anc : State} {s : State} {ck : Nat} {x : Step} {n : Nat} {ep : Nat} {r0 tz} (heqx : State.startTile s ck x n ep = (r0, tz)) (hk : anc.Keeps s) : anc.Keeps tz := by
  have := State.startTile_keeps s ck x n ep hk (anc := anc)
  rwa [heqx] at this

theorem State.rangeViolation_keeps {anc : State} (s : State) (ck : Nat) (x : Step) (seq : Nat) (nf : Bool) (hk : anc.Keeps s) : anc.Keeps (State.rangeViolation s ck x seq nf) := by
  unfold State.rangeViolation
  repeat' first
    | with_reducible assumption | with_reducible apply State.wf_keeps | with_reducible apply State.setInt_keeps
    | with_reducible apply State.inc_keeps | with_reducible apply State.notice_keeps | with_reducible apply State.setStep_keeps
    | with_reducible apply State.setReq_keeps | with_reducible apply State.each_keeps | intro _ | dsimp only

theorem State.rangeCheck_keeps {anc : State} (s : State) (ck : Nat) (x : Step) (ems : List Emission) (hk : anc.Keeps s) : anc.Keeps (State.rangeCheck s ck x ems) := by
  unfold State.rangeCheck
  repeat' first
    | with_reducible assumption | with_reducible apply State.rangeViolation_keeps | with_reducible apply foldl_keeps | intro _
    | with_reducible refine ite_keeps ?_ ?_ | split | dsimp only

theorem State.poolSave_keeps {anc : State} (s : State) (ck : Nat) (w : List Nat) (slot : Nat) (st : PoolSt) (hk : anc.Keeps s) : anc.Keeps (State.poolSave s ck w slot st) := by
  unfold State.poolSave
  repeat' first
    | with_reducible assumption | with_reducible apply State.unitsPut_keeps | with_reducible apply State.each_keeps
    | with_reducible refine State.keeps_fields ?_ | with_reducible refine State.keeps_put_regs ?_ | intro _ | dsimp only
    | simp only [State.keeps_mk]

theorem State.freeStep_keeps {anc : State} (s : State) (ck : Nat) (id : Nat) (hk : anc.Keeps s) : anc.Keeps (State.freeStep s ck id) := by
  unfold State.freeStep
  repeat' first
    | with_reducible assumption | with_reducible apply State.setStep_keeps | with_reducible apply State.freeSet_keeps
    | with_reducible refine ite_keeps ?_ ?_ | split | dsimp only

theorem State.settle_keeps {anc : State} (s : State) (ck : Nat) (id : Nat) (vals : List Nat) (hollow : Bool) (pool : optParam Bool true) (hk : anc.Keeps s) : anc.Keeps (State.settle s ck id vals hollow pool) := by
  unfold State.settle
  repeat' first
    | with_reducible assumption | with_reducible apply State.poolSave_keeps | with_reducible apply State.freeStep_keeps
    | with_reducible apply State.rangeCheck_keeps | with_reducible apply State.retireStep_keeps
    | with_reducible apply State.setStep_keeps | with_reducible refine ite_keeps ?_ ?_ | split | dsimp only

theorem State.checkStep_keeps {anc : State} (s : State) (ck : Nat) (id : Nat) (hk : anc.Keeps s) : anc.Keeps (State.checkStep s ck id) := by
  unfold State.checkStep
  repeat' first
    | with_reducible assumption | with_reducible apply State.freeStep_keeps | with_reducible apply State.settle_keeps
    | with_reducible refine ite_keeps ?_ ?_ | split | dsimp only

theorem State.setStepEng_keeps {anc : State} (s : State) (ck : Nat) (id : Nat) (n : Nat) (st : Nat) (vals : List Int) (hk : anc.Keeps s) : anc.Keeps (State.setStepEng s ck id n st vals) := by
  unfold State.setStepEng
  repeat' first
    | with_reducible assumption | with_reducible apply State.setStep_keeps | with_reducible refine ite_keeps ?_ ?_ | split
    | dsimp only

theorem State.tileDone_keeps {anc : State} (s : State) (e : Nat) (hk : anc.Keeps s) : anc.Keeps (State.tileDone s e) := by
  unfold State.tileDone
  repeat' first
    | with_reducible assumption | with_reducible apply State.endTile_keeps
    | refine State.endTile_keeps_eq (by with_reducible assumption) ?_ | with_reducible apply State.beginTile_keeps
    | with_reducible apply State.setStep_keeps | with_reducible apply State.checkStep_keeps
    | with_reducible apply State.setStepEng_keeps | with_reducible refine ite_keeps ?_ ?_ | split | dsimp only

theorem State.drainTiles_keeps {anc : State} (s : State) (ck : Nat) (hk : anc.Keeps s) : anc.Keeps (State.drainTiles s ck) := by
  unfold State.drainTiles
  repeat' first
    | with_reducible assumption | with_reducible apply State.tileDone_keeps | with_reducible apply State.each_keeps | intro _
    | with_reducible refine ite_keeps ?_ ?_ | split | dsimp only

theorem State.holdTile_keeps {anc : State} (s : State) (ck : Nat) (id : Nat) (n : Nat) (hk : anc.Keeps s) : anc.Keeps (State.holdTile s ck id n) := by
  unfold State.holdTile
  repeat' first
    | with_reducible assumption | with_reducible apply State.setStep_keeps | with_reducible refine ite_keeps ?_ ?_ | split
    | dsimp only

theorem State.fire_keeps {anc : State} (s : State) (ck : Nat) (d : Nat) (n : Nat) (hk : anc.Keeps s) : anc.Keeps (State.fire s ck d n) := by
  unfold State.fire
  repeat' first
    | with_reducible assumption | with_reducible apply State.setBuf_keeps | with_reducible apply State.blockErr_keeps
    | with_reducible apply State.inc_keeps | with_reducible apply State.freeSet_keeps | with_reducible apply State.wf_keeps
    | with_reducible apply State.reserve_keeps | with_reducible apply State.setMc_keeps | with_reducible apply State.settle_keeps
    | with_reducible apply State.tileFailed_keeps | with_reducible apply State.setInt_keeps
    | with_reducible apply State.holdTile_keeps | with_reducible apply State.startTile_keeps
    | refine State.startTile_keeps_eq (by with_reducible assumption) ?_ | with_reducible apply State.beginCheck_keeps
    | with_reducible apply State.setStepEng_keeps | with_reducible apply State.checkStep_keeps
    | with_reducible apply State.drainTiles_keeps | with_reducible apply State.each_keeps | with_reducible apply State.when_keeps
    | intro _ | with_reducible refine ite_keeps ?_ ?_ | split | dsimp only

theorem State.creditWatch_keeps {anc : State} (s : State) (ck : Nat) (hk : anc.Keeps s) : anc.Keeps (State.creditWatch s ck) := by
  unfold State.creditWatch
  repeat' first
    | with_reducible assumption | with_reducible apply State.setMc_keeps | with_reducible apply State.inc_keeps
    | with_reducible refine ite_keeps ?_ ?_ | split | dsimp only

theorem State.stepFire_keeps {anc : State} (s : State) (ck : Nat) (hk : anc.Keeps s) : anc.Keeps (State.stepFire s ck) := by
  unfold State.stepFire
  repeat' first
    | with_reducible assumption | with_reducible apply State.fire_keeps | with_reducible apply State.askCredits_keeps | split
    | dsimp only

theorem State.holdCheck_keeps {anc : State} (s : State) (ck : Nat) (hk : anc.Keeps s) : anc.Keeps (State.holdCheck s ck) := by
  unfold State.holdCheck
  repeat' first
    | with_reducible assumption | with_reducible apply State.startTile_keeps
    | refine State.startTile_keeps_eq (by with_reducible assumption) ?_ | with_reducible apply State.setStepEng_keeps
    | with_reducible apply State.checkStep_keeps | with_reducible apply State.drainTiles_keeps
    | with_reducible apply State.beginCheck_keeps | with_reducible apply State.each_keeps | with_reducible apply State.when_keeps
    | intro _ | with_reducible refine ite_keeps ?_ ?_ | split | dsimp only

theorem State.sendStandins_keeps {anc : State} (s : State) (ck : Nat) (hk : anc.Keeps s) : anc.Keeps (State.sendStandins s ck) := by
  unfold State.sendStandins
  repeat' first
    | with_reducible assumption | with_reducible apply State.mesh_keeps | with_reducible apply State.setStepEng_keeps
    | with_reducible apply State.inc_keeps | with_reducible apply State.setStep_keeps | with_reducible apply State.each_keeps
    | with_reducible apply State.when_keeps | intro _ | with_reducible refine ite_keeps ?_ ?_ | split | dsimp only

theorem State.holdTimeout_keeps {anc : State} (s : State) (ck : Nat) (hk : anc.Keeps s) : anc.Keeps (State.holdTimeout s ck) := by
  unfold State.holdTimeout
  repeat' first
    | with_reducible assumption | with_reducible apply State.setMc_keeps | with_reducible apply State.sendStandins_keeps
    | with_reducible apply State.setInt_keeps | with_reducible refine ite_keeps ?_ ?_ | split | dsimp only

theorem State.slowVcoreNamed_keeps {anc : State} (s : State) (ck : Nat) (hk : anc.Keeps s) : anc.Keeps (State.slowVcoreNamed s ck) := by
  unfold State.slowVcoreNamed
  repeat' first
    | with_reducible assumption | with_reducible apply State.sendStandins_keeps | with_reducible apply State.unitEv_keeps
    | with_reducible apply State.wf_keeps | with_reducible refine ite_keeps ?_ ?_ | split | dsimp only

theorem State.standinResult_keeps {anc : State} (s : State) (ck : Nat) (id : Nat) (n : Nat) (ok : Bool) (vals : List Int) (hk : anc.Keeps s) : anc.Keeps (State.standinResult s ck id n ok vals) := by
  unfold State.standinResult
  repeat' first
    | with_reducible assumption | with_reducible apply State.checkStep_keeps | with_reducible apply State.setStepEng_keeps
    | with_reducible apply State.tileFailed_keeps | with_reducible refine ite_keeps ?_ ?_ | split | dsimp only

theorem State.handOver_keeps {anc : State} (s : State) (ck : Nat) (x : Step) (em : Emission) (hk : anc.Keeps s) : anc.Keeps (State.handOver s ck x em) := by
  unfold State.handOver
  repeat' first
    | with_reducible assumption | with_reducible apply State.setInt_keeps | with_reducible apply State.inc_keeps
    | with_reducible apply State.rangeViolation_keeps | with_reducible apply State.sramWrite_keeps
    | with_reducible apply State.setStep_keeps | with_reducible apply State.each_keeps | with_reducible apply State.when_keeps
    | intro _ | with_reducible refine ite_keeps ?_ ?_ | split | dsimp only

theorem State.postUnitDone_keeps {anc : State} (s : State) (ck : Nat) (hk : anc.Keeps s) : anc.Keeps (State.postUnitDone s ck) := by
  unfold State.postUnitDone
  repeat' first
    | with_reducible assumption | with_reducible apply State.handOver_keeps | split | dsimp only

theorem State.sendStep_keeps {anc : State} {s : State} {ck : Nat} {l : List Step} {t : State} (heqx : State.sendStep s ck l = some t)
    (hk : anc.Keeps s) : anc.Keeps t := by
  induction l with
  | nil => simp [State.sendStep] at heqx
  | cons x l ih =>
    simp only [State.sendStep] at heqx
    split at heqx
    · exact ih heqx
    · split at heqx
      · injection heqx with heqx
        subst heqx
        repeat' first
          | with_reducible assumption
          | with_reducible apply State.retireStep_keeps
          | with_reducible apply State.setStep_keeps
          | refine State.inject_keeps_some (by with_reducible assumption) ?_
          | with_reducible apply State.each_keeps
          | with_reducible apply foldl_keeps
          | with_reducible apply foldl_keeps_pair
          | with_reducible apply foldl_keeps_triple
          | with_reducible apply State.when_keeps
          | with_reducible refine State.keeps_fields ?_
          | with_reducible refine State.keeps_write_hbm ?_
          | with_reducible refine State.keeps_write_sram ?_
          | with_reducible refine State.keeps_keep_hbm ?_
          | with_reducible refine State.keeps_keep_sram ?_
          | intro _
          | with_reducible refine ite_keeps ?_ ?_
          | split
          | dsimp only
          | simp only [State.keeps_mk]
      · exact ih heqx

theorem State.askFirst_keeps {anc : State} (s : State) (ck : Nat) (hk : anc.Keeps s) : anc.Keeps (State.askFirst s ck) := by
  unfold State.askFirst
  repeat' first
    | with_reducible assumption | with_reducible apply State.inject_keeps
    | refine State.inject_keeps_some (by with_reducible assumption) ?_
    | refine State.inject_keeps_eq (by with_reducible assumption) ?_ | split | dsimp only

theorem State.pipSendM_keeps {anc : State} (s : State) (ck : Nat) (hk : anc.Keeps s) : anc.Keeps (State.pipSendM s ck) := by
  unfold State.pipSendM
  repeat' first
    | with_reducible assumption | refine State.sendStep_keeps (by with_reducible assumption) ?_
    | with_reducible apply State.askFirst_keeps | split | dsimp only

theorem State.clearSlot_keeps {anc : State} (s : State) (ck : Nat) (slot : Nat) (hk : anc.Keeps s) : anc.Keeps (State.clearSlot s ck slot) := by
  unfold State.clearSlot
  repeat' first
    | with_reducible assumption | with_reducible apply State.sramWrite_keeps | with_reducible apply State.each_keeps
    | with_reducible refine State.keeps_fields ?_ | with_reducible refine State.keeps_del_regs ?_ | intro _
    | with_reducible refine ite_keeps ?_ ?_ | split | dsimp only | simp only [State.keeps_mk]

theorem State.mismatch_keeps {anc : State} (s : State) (ck : Nat) (n : Nat) (ch : Nat) (twin : Bool) (hk : anc.Keeps s) : anc.Keeps (State.mismatch s ck n ch twin) := by
  unfold State.mismatch
  repeat' first
    | with_reducible assumption | with_reducible apply State.suspect_keeps | with_reducible apply State.wf_keeps
    | with_reducible apply State.inc_keeps | dsimp only

theorem State.checkDone_keeps {anc : State} (s : State) (ck : Nat) (id : Nat) (n : Nat) (ok : Bool) (vals : List Int) (hk : anc.Keeps s) : anc.Keeps (State.checkDone s ck id n ok vals) := by
  unfold State.checkDone
  repeat' first
    | with_reducible assumption | with_reducible apply State.checkStep_keeps | with_reducible apply State.setStep_keeps
    | with_reducible apply State.inc_keeps | with_reducible apply State.mesh_keeps | with_reducible apply State.setStepEng_keeps
    | with_reducible apply State.mismatch_keeps | with_reducible refine ite_keeps ?_ ?_ | split | dsimp only

theorem execVerifySubStep_keeps {anc : State} (e : Nat) (devs : List Int) (noise : List Int) (s : State) (hk : anc.Keeps s) : ∃ out, execVerifySubStep e devs noise s = .next out ∧ anc.Keeps out := by
  unfold execVerifySubStep
  refine ⟨_, rfl, ?_⟩
  repeat' first
    | with_reducible assumption | with_reducible apply State.holdCheck_keeps | with_reducible apply State.wornOut_keeps
    | with_reducible apply State.tryOwed_keeps | with_reducible apply State.verifyStep_keeps | dsimp only

theorem execHoldTimeout_keeps {anc : State} (ck : Nat) (s : State) (hk : anc.Keeps s) : ∃ out, execHoldTimeout ck s = .next out ∧ anc.Keeps out := by
  unfold execHoldTimeout
  refine ⟨_, rfl, ?_⟩
  repeat' first
    | with_reducible assumption | with_reducible apply State.holdTimeout_keeps | dsimp only

theorem execSlowVcoreNamed_keeps {anc : State} (ck : Nat) (s : State) (hk : anc.Keeps s) : ∃ out, execSlowVcoreNamed ck s = .next out ∧ anc.Keeps out := by
  unfold execSlowVcoreNamed
  refine ⟨_, rfl, ?_⟩
  repeat' first
    | with_reducible assumption | with_reducible apply State.slowVcoreNamed_keeps | dsimp only

theorem execLocalFlip_keeps {anc : State} (e : Nat) (s : State) (hk : anc.Keeps s) : ∃ out, execLocalFlip e s = .next out ∧ anc.Keeps out := by
  unfold execLocalFlip
  refine ⟨_, rfl, ?_⟩
  repeat' first
    | with_reducible assumption | with_reducible apply State.holdCheck_keeps | with_reducible apply State.tryOwed_keeps
    | with_reducible apply State.localFlip_keeps | dsimp only

theorem execStepFire_keeps {anc : State} (ck : Nat) (s : State) (hk : anc.Keeps s) : ∃ out, execStepFire ck s = .next out ∧ anc.Keeps out := by
  unfold execStepFire
  refine ⟨_, rfl, ?_⟩
  repeat' first
    | with_reducible assumption | with_reducible apply State.creditWatch_keeps | with_reducible apply State.stepFire_keeps
    | dsimp only

end Sys2Proof.Machine
end

