-- ==== Sys2Proof/Laws/Keeps/Vec.lean ====
section
/-! SUPPORT. Every operation and meaning of Machine/Vec.lean leaves the queue alone and keeps the memories and the register table canonical. -/

namespace Sys2Proof.Machine

set_option linter.unreachableTactic false
set_option linter.unusedTactic false

theorem State.mirrorVc_keeps {anc : State} (s : State) (v : Nat) (hk : anc.Keeps s) : anc.Keeps (State.mirrorVc s v) := by
  unfold State.mirrorVc
  repeat' first
    | with_reducible assumption | with_reducible apply State.wf_keeps | dsimp only

theorem State.setVc_keeps {anc : State} (s : State) (v : Nat) (x : VcSt) (hk : anc.Keeps s) : anc.Keeps (State.setVc s v x) := by
  unfold State.setVc
  repeat' first
    | with_reducible assumption | with_reducible apply State.mirrorVc_keeps | with_reducible refine State.keeps_fields ?_
    | with_reducible refine State.keeps_put_regs ?_ | dsimp only | simp only [State.keeps_mk]

theorem State.vSend_keeps {anc : State} (s : State) (v : Nat) (p : Pip) (hk : anc.Keeps s) : anc.Keeps (State.vSend s v p) := by
  unfold State.vSend
  repeat' first
    | with_reducible assumption | with_reducible apply State.setInt_keeps | with_reducible apply State.inc_keeps
    | with_reducible apply State.setVc_keeps | with_reducible apply State.when_keeps | intro _ | dsimp only

theorem State.vPut_keeps {anc : State} (s : State) (v : Nat) (off : Nat) (bs : List (Nat × Bool)) (hk : anc.Keeps s) : anc.Keeps (State.vPut s v off bs) := by
  unfold State.vPut
  repeat' first
    | with_reducible assumption | with_reducible apply State.sramWrite_keeps | with_reducible apply State.sramMark_keeps
    | with_reducible apply State.each_keeps | intro _ | with_reducible refine ite_keeps ?_ ?_ | split | dsimp only

theorem State.vStreamIn_keeps {anc : State} (s : State) (v : Nat) (addr : Nat) (n : Nat) (hk : anc.Keeps s) : anc.Keeps (State.vStreamIn s v addr n).2 := by
  unfold State.vStreamIn
  repeat' first
    | with_reducible assumption | with_reducible apply State.hbmBytes_keeps
    | refine State.hbmBytes_keeps_eq (by with_reducible assumption) ?_ | with_reducible apply State.inc_keeps | dsimp only

theorem State.vStreamIn_keeps_eq {anc : State} {s : State} {v : Nat} {addr : Nat} {n : Nat} {r0 tz} (heqx : State.vStreamIn s v addr n = (r0, tz)) (hk : anc.Keeps s) : anc.Keeps tz := by
  have := State.vStreamIn_keeps s v addr n hk (anc := anc)
  rwa [heqx] at this

theorem State.vStreamOut_keeps {anc : State} (s : State) (v : Nat) (addr : Nat) (bs : List (Nat × Bool)) (hk : anc.Keeps s) : anc.Keeps (State.vStreamOut s v addr bs) := by
  unfold State.vStreamOut
  repeat' first
    | with_reducible assumption | with_reducible apply State.inc_keeps | with_reducible apply State.hbmPut_keeps | dsimp only

theorem State.kvGet_keeps {anc : State} (s : State) (v : Nat) (slot : Nat) (pos : Nat) (stride : Nat) (off : Nat) (n : Nat) (hk : anc.Keeps s) : anc.Keeps (State.kvGet s v slot pos stride off n).2 := by
  unfold State.kvGet
  repeat' first
    | with_reducible assumption | with_reducible apply State.vStreamIn_keeps
    | refine State.vStreamIn_keeps_eq (by with_reducible assumption) ?_ | with_reducible refine ite_keeps ?_ ?_
    | with_reducible refine ite_keeps2 ?_ ?_ | with_reducible refine ite_keeps3 ?_ ?_ | split | dsimp only

theorem State.kvGet_keeps_eq {anc : State} {s : State} {v : Nat} {slot : Nat} {pos : Nat} {stride : Nat} {off : Nat} {n : Nat} {r0 tz} (heqx : State.kvGet s v slot pos stride off n = (r0, tz)) (hk : anc.Keeps s) : anc.Keeps tz := by
  have := State.kvGet_keeps s v slot pos stride off n hk (anc := anc)
  rwa [heqx] at this

theorem State.vClamps_keeps {anc : State} (s : State) (v : Nat) (n : Nat) (hk : anc.Keeps s) : anc.Keeps (State.vClamps s v n) := by
  unfold State.vClamps
  repeat' first
    | with_reducible assumption | with_reducible apply State.setInt_keeps | with_reducible apply State.inc_keeps
    | with_reducible apply State.when_keeps | intro _ | dsimp only

theorem State.efStore_keeps {anc : State} (s : State) (v : Nat) (ctx : Nat) (off : Nat) (es : List Nat) (hk : anc.Keeps s) : anc.Keeps (State.efStore s v ctx off es) := by
  unfold State.efStore
  repeat' first
    | with_reducible assumption | with_reducible apply State.sramWrite_keeps | with_reducible apply State.setVc_keeps
    | with_reducible apply State.each_keeps | intro _ | dsimp only

theorem State.vQuant_keeps {anc : State} (s : State) (v : Nat) (k : KStep) (fmt : Nat) (xmax : Nat) (sr : Bool) (a : Nat) (half : Nat) (off : Nat) (hk : anc.Keeps s) : anc.Keeps (State.vQuant s v k fmt xmax sr a half off) := by
  unfold State.vQuant
  repeat' first
    | with_reducible assumption | with_reducible apply State.vClamps_keeps | with_reducible apply State.vPut_keeps
    | with_reducible refine ite_keeps ?_ ?_ | split | dsimp only

theorem State.vDequant_keeps {anc : State} (s : State) (v : Nat) (k : KStep) (fmt : Nat) (d : Nat) (half : Nat) (src : VSrc) (hk : anc.Keeps s) : anc.Keeps (State.vDequant s v k fmt d half src) := by
  unfold State.vDequant
  repeat' first
    | with_reducible assumption | with_reducible apply State.setVc_keeps | dsimp only

theorem State.vRescale_keeps {anc : State} (s : State) (v : Nat) (fmt : Nat) (src : Nat) (dst : Nat) (hk : anc.Keeps s) : anc.Keeps (State.vRescale s v fmt src dst) := by
  unfold State.vRescale
  repeat' first
    | with_reducible assumption | with_reducible apply State.vPut_keeps | with_reducible refine ite_keeps ?_ ?_ | split | dsimp only

theorem State.vCtl_keeps {anc : State} (s : State) (v : Nat) (a : Nat) (lane : Nat) (hk : anc.Keeps s) : anc.Keeps (State.vCtl s v a lane) := by
  unfold State.vCtl
  repeat' first
    | with_reducible assumption | with_reducible apply State.setVc_keeps | with_reducible apply State.wf_keeps
    | with_reducible apply State.when_keeps | intro _ | with_reducible refine ite_keeps ?_ ?_ | split | dsimp only

theorem State.attnRead_keeps {anc : State} (s : State) (v : Nat) (t : Attn) (q : List (Nat × Bool)) (ps : List Nat) (hk : anc.Keeps s) : anc.Keeps (State.attnRead s v t q ps).2.2 := by
  unfold State.attnRead
  repeat' first
    | with_reducible assumption | with_reducible apply State.kvGet_keeps
    | refine State.kvGet_keeps_eq (by with_reducible assumption) ?_ | with_reducible apply foldl_keeps
    | with_reducible apply foldl_keeps_pair | with_reducible apply foldl_keeps_triple | intro _
    | with_reducible refine ite_keeps ?_ ?_ | with_reducible refine ite_keeps2 ?_ ?_ | with_reducible refine ite_keeps3 ?_ ?_ | split
    | dsimp only

theorem State.attnRead_keeps_eq {anc : State} {s} {v} {t} {q} {ps} {r0 r1 tz} (heqx : State.attnRead s v t q ps = (r0, r1, tz)) (hk : anc.Keeps s) : anc.Keeps tz := by
  have := State.attnRead_keeps s v t q ps hk (anc := anc)
  rwa [heqx] at this

theorem State.attend_keeps {anc : State} (s : State) (v : Nat) (t : Attn) (hk : anc.Keeps s) : anc.Keeps (State.attend s v t) := by
  unfold State.attend
  repeat' first
    | with_reducible assumption | with_reducible apply State.attnRead_keeps
    | refine State.attnRead_keeps_eq (by with_reducible assumption) ?_ | with_reducible apply State.setVc_keeps
    | with_reducible apply foldl_keeps | with_reducible apply foldl_keeps_pair | with_reducible apply foldl_keeps_triple | intro _
    | with_reducible refine ite_keeps ?_ ?_ | split | dsimp only

theorem State.vFailed_keeps {anc : State} (s : State) (v : Nat) (hk : anc.Keeps s) : anc.Keeps (State.vFailed s v) := by
  unfold State.vFailed
  repeat' first
    | with_reducible assumption | with_reducible apply State.setVc_keeps | dsimp only

theorem State.vSendBytes_keeps {anc : State} (s : State) (v : Nat) (k : KStep) (dest : Nat) (seq : Nat) (fmt : Nat) (hollow : Bool) (bs : List Nat) (hk : anc.Keeps s) : anc.Keeps (State.vSendBytes s v k dest seq fmt hollow bs) := by
  unfold State.vSendBytes
  repeat' first
    | with_reducible assumption | with_reducible apply State.vFailed_keeps | with_reducible apply State.vSend_keeps
    | with_reducible refine ite_keeps ?_ ?_ | split | dsimp only

theorem State.vRange_keeps {anc : State} (s : State) (v : Nat) (k : KStep) (hk : anc.Keeps s) : anc.Keeps (State.vRange s v k) := by
  unfold State.vRange
  repeat' first
    | with_reducible assumption | with_reducible apply State.notice_keeps | with_reducible apply State.setReq_keeps
    | with_reducible apply State.each_keeps | intro _ | dsimp only

theorem State.vSendLanes_keeps {anc : State} (s : State) (v : Nat) (k : KStep) (o : VSend) (hk : anc.Keeps s) : anc.Keeps (State.vSendLanes s v k o) := by
  unfold State.vSendLanes
  repeat' first
    | with_reducible assumption | with_reducible apply State.vSendBytes_keeps | with_reducible apply State.sramWrite_keeps
    | with_reducible apply State.vClamps_keeps | with_reducible apply State.setVc_keeps | with_reducible apply State.vRange_keeps
    | with_reducible apply State.efStore_keeps | with_reducible apply State.each_keeps | with_reducible apply State.when_keeps
    | intro _ | with_reducible refine ite_keeps ?_ ?_ | split | dsimp only

theorem State.vOpOn_keeps {anc : State} (s : State) (v : Nat) (k : KStep) (x3 : VOp) (hk : anc.Keeps s) : anc.Keeps (State.vOpOn s v k x3) := by
  unfold State.vOpOn
  repeat' first
    | with_reducible assumption | with_reducible apply State.setVc_keeps | with_reducible apply State.vPut_keeps
    | with_reducible apply State.vDequant_keeps | with_reducible apply State.vQuant_keeps | with_reducible apply State.vRescale_keeps
    | with_reducible apply State.vCtl_keeps | with_reducible apply State.vStreamOut_keeps
    | with_reducible apply State.vStreamIn_keeps | refine State.vStreamIn_keeps_eq (by with_reducible assumption) ?_
    | with_reducible apply State.kvGet_keeps | refine State.kvGet_keeps_eq (by with_reducible assumption) ?_
    | with_reducible apply State.attend_keeps | with_reducible apply State.vSendLanes_keeps
    | with_reducible apply State.vSendBytes_keeps | with_reducible apply State.vClamps_keeps | split | dsimp only

theorem State.vOp_keeps {anc : State} (s : State) (v : Nat) (op : VOp) (hk : anc.Keeps s) : anc.Keeps (State.vOp s v op) := by
  unfold State.vOp
  repeat' first
    | with_reducible assumption | with_reducible apply State.vOpOn_keeps | with_reducible apply State.setVc_keeps | split
    | dsimp only

end Sys2Proof.Machine
end

