-- ==== Sys2Proof/Laws/Keeps/VCore.lean ====
section
/-! SUPPORT. Every operation and meaning of Machine/VCore.lean leaves the queue alone and keeps the memories and the register table canonical. -/

namespace Sys2Proof.Machine

set_option linter.unreachableTactic false
set_option linter.unusedTactic false

theorem State.vInject_keeps {anc : State} {s : State} {v : Nat} {a l : List Pip} {t : State} (heqx : State.vInject s v a l = some t)
    (hk : anc.Keeps s) : anc.Keeps t := by
  induction l generalizing a with
  | nil => simp [State.vInject] at heqx
  | cons x l ih =>
    simp only [State.vInject] at heqx
    split at heqx
    · exact ih heqx
    · split at heqx
      · injection heqx with heqx
        subst heqx
        repeat' first
          | with_reducible assumption
          | with_reducible apply State.setVc_keeps
          | refine State.inject_keeps_some (by with_reducible assumption) ?_
          | with_reducible apply State.each_keeps
          | with_reducible apply foldl_keeps
          | with_reducible apply foldl_keeps_pair
          | with_reducible apply foldl_keeps_triple
          | with_reducible apply State.when_keeps
          | with_reducible refine State.keeps_fields ?_
          | with_reducible refine State.keeps_write_hbm ?_
          | with_reducible refine State.keeps_write_sram ?_
          | with_reducible refine State.keeps_keep_hbm ?_
          | with_reducible refine State.keeps_keep_sram ?_
          | intro _
          | with_reducible refine ite_keeps ?_ ?_
          | split
          | dsimp only
          | simp only [State.keeps_mk]
      · exact ih heqx

theorem State.pipSendV_keeps {anc : State} (s : State) (v : Nat) (hk : anc.Keeps s) : anc.Keeps (State.pipSendV s v) := by
  unfold State.pipSendV
  repeat' first
    | with_reducible assumption | refine State.vInject_keeps (by with_reducible assumption) ?_
    | with_reducible apply State.inject_keeps | refine State.inject_keeps_some (by with_reducible assumption) ?_
    | refine State.inject_keeps_eq (by with_reducible assumption) ?_ | split | dsimp only

theorem State.vFire_keeps {anc : State} (s : State) (v : Nat) (d : Nat) (n : Nat) (ops : List VOp) (hk : anc.Keeps s) : anc.Keeps (State.vFire s v d n ops) := by
  unfold State.vFire
  repeat' first
    | with_reducible assumption | with_reducible apply State.setBuf_keeps | with_reducible apply State.vSend_keeps
    | with_reducible apply State.blockErr_keeps | with_reducible apply State.freeSet_keeps | with_reducible apply State.wf_keeps
    | with_reducible apply State.inc_keeps | with_reducible apply State.reserve_keeps | with_reducible apply State.setVc_keeps
    | with_reducible apply State.vOp_keeps | with_reducible apply State.each_keeps | with_reducible apply foldl_keeps | intro _
    | with_reducible refine ite_keeps ?_ ?_ | split | dsimp only

theorem State.kernelFire_keeps {anc : State} (s : State) (v : Nat) (ops : List VOp) (hk : anc.Keeps s) : anc.Keeps (State.kernelFire s v ops) := by
  unfold State.kernelFire
  repeat' first
    | with_reducible assumption | with_reducible apply State.vFire_keeps | with_reducible apply State.askCredits_keeps
    | with_reducible refine ite_keeps ?_ ?_ | split | dsimp only

theorem State.vReturn_keeps {anc : State} (s : State) (v : Nat) (stream : Nat) (dests : List Nat) (hk : anc.Keeps s) : anc.Keeps (State.vReturn s v stream dests) := by
  unfold State.vReturn
  repeat' first
    | with_reducible assumption | with_reducible apply State.setVc_keeps | with_reducible apply State.unreserve_keeps
    | with_reducible apply State.each_keeps | with_reducible apply foldl_keeps | intro _ | dsimp only

theorem State.kernelEnd_keeps {anc : State} (s : State) (v : Nat) (ops : List VOp) (hk : anc.Keeps s) : anc.Keeps (State.kernelEnd s v ops) := by
  unfold State.kernelEnd
  repeat' first
    | with_reducible assumption | with_reducible apply State.vOp_keeps | with_reducible apply State.vReturn_keeps
    | with_reducible apply State.freeSet_keeps | with_reducible apply State.wf_keeps | with_reducible apply State.setVc_keeps
    | with_reducible apply State.each_keeps | intro _ | split | dsimp only

theorem State.kernelOverrun_keeps {anc : State} (s : State) (v : Nat) (hk : anc.Keeps s) : anc.Keeps (State.kernelOverrun s v).2 := by
  unfold State.kernelOverrun
  repeat' first
    | with_reducible assumption | with_reducible apply State.blockErr_keeps | with_reducible apply State.setVc_keeps
    | with_reducible refine ite_keeps ?_ ?_ | with_reducible refine ite_keeps2 ?_ ?_ | with_reducible refine ite_keeps3 ?_ ?_ | split
    | dsimp only

theorem State.kernelOverrun_keeps_eq {anc : State} {s : State} {v : Nat} {r0 tz} (heqx : State.kernelOverrun s v = (r0, tz)) (hk : anc.Keeps s) : anc.Keeps tz := by
  have := State.kernelOverrun_keeps s v hk (anc := anc)
  rwa [heqx] at this

theorem State.kvReply_keeps {anc : State} (s : State) (score : Nat) (r : Nat) (hk : anc.Keeps s) : anc.Keeps (State.kvReply s score r) := by
  unfold State.kvReply
  repeat' first
    | with_reducible assumption | with_reducible apply State.wf_keeps | with_reducible refine ite_keeps ?_ ?_ | split | dsimp only

theorem State.kvGo_keeps {anc : State} (s : State) (ck : Nat) (hk : anc.Keeps s) : anc.Keeps (State.kvGo s ck) := by
  unfold State.kvGo
  repeat' first
    | with_reducible assumption | with_reducible apply State.setVc_keeps | with_reducible apply State.mesh_keeps
    | with_reducible apply State.wf_keeps | with_reducible apply State.kvReply_keeps | with_reducible refine ite_keeps ?_ ?_ | split
    | dsimp only

theorem State.kvCommand_keeps {anc : State} (s : State) (v : Nat) (op : Nat) (hk : anc.Keeps s) : anc.Keeps (State.kvCommand s v op) := by
  unfold State.kvCommand
  repeat' first
    | with_reducible assumption | with_reducible apply State.setVc_keeps | with_reducible apply State.kvReply_keeps
    | with_reducible apply State.kvReserve_keeps | refine State.kvReserve_keeps_eq (by with_reducible assumption) ?_
    | with_reducible apply State.kvRelease_keeps | with_reducible apply State.kvShare_keeps
    | refine State.kvShare_keeps_eq (by with_reducible assumption) ?_ | with_reducible refine ite_keeps ?_ ?_ | split | dsimp only

theorem State.kvPart_keeps {anc : State} (s : State) (v : Nat) (pos : Nat) (mode : Nat) (k : KStep) (o : KvPart) (hk : anc.Keeps s) : anc.Keeps (State.kvPart s v pos mode k o).2.2 := by
  unfold State.kvPart
  repeat' first
    | with_reducible assumption | with_reducible apply State.vClamps_keeps | with_reducible apply State.efStore_keeps
    | with_reducible refine ite_keeps ?_ ?_ | with_reducible refine ite_keeps2 ?_ ?_ | with_reducible refine ite_keeps3 ?_ ?_ | split
    | dsimp only

theorem State.kvPart_keeps_eq {anc : State} {s : State} {v : Nat} {pos : Nat} {mode : Nat} {k : KStep} {o : KvPart} {r0 r1 tz} (heqx : State.kvPart s v pos mode k o = (r0, r1, tz)) (hk : anc.Keeps s) : anc.Keeps tz := by
  have := State.kvPart_keeps s v pos mode k o hk (anc := anc)
  rwa [heqx] at this

theorem State.kvWriteStep_keeps {anc : State} (s : State) (v : Nat) (slot : Nat) (pos : Nat) (off : Nat) (mode : Nat) (parts : List KvPart) (hk : anc.Keeps s) : anc.Keeps (State.kvWriteStep s v slot pos off mode parts) := by
  unfold State.kvWriteStep
  repeat' first
    | with_reducible assumption | with_reducible apply State.kvPart_keeps
    | refine State.kvPart_keeps_eq (by with_reducible assumption) ?_ | with_reducible apply State.kvWrite_keeps
    | refine State.kvWrite_keeps_eq (by with_reducible assumption) ?_ | with_reducible apply State.inc_keeps
    | with_reducible apply foldl_keeps | with_reducible apply foldl_keeps_pair | with_reducible apply foldl_keeps_triple
    | with_reducible apply State.when_keeps | intro _ | split | dsimp only

theorem State.sample_keeps {anc : State} (s : State) (v : Nat) (id : Nat) (pos : Nat) (off : Nat) (n : Nat) (hk : anc.Keeps s) : anc.Keeps (State.sample s v id pos off n) := by
  unfold State.sample
  repeat' first
    | with_reducible assumption | with_reducible apply State.vSend_keeps | with_reducible refine ite_keeps ?_ ?_ | split | dsimp only

theorem State.standinRequest_keeps {anc : State} (s : State) (v : Nat) (ck : Nat) (id : Nat) (n : Nat) (hk : anc.Keeps s) : anc.Keeps (State.standinRequest s v ck id n) := by
  unfold State.standinRequest
  repeat' first
    | with_reducible assumption | with_reducible apply State.setVc_keeps | with_reducible refine ite_keeps ?_ ?_ | split | dsimp only

theorem State.standinDone_keeps {anc : State} (s : State) (v : Nat) (hk : anc.Keeps s) : anc.Keeps (State.standinDone s v) := by
  unfold State.standinDone
  repeat' first
    | with_reducible assumption | with_reducible apply State.hbmCodewords_keeps
    | refine State.hbmCodewords_keeps_eq (by with_reducible assumption) ?_ | with_reducible apply State.setVc_keeps
    | with_reducible apply State.inc_keeps | with_reducible apply State.mesh_keeps | with_reducible apply State.blockErr_keeps
    | with_reducible refine ite_keeps ?_ ?_ | split | dsimp only

theorem execKernelStepFire_keeps {anc : State} (k : KernelRun) (s : State) (hk : anc.Keeps s) : ∃ out, execKernelStepFire k s = .next out ∧ anc.Keeps out := by
  unfold execKernelStepFire
  refine ⟨_, rfl, ?_⟩
  repeat' first
    | with_reducible assumption | with_reducible apply State.kernelFire_keeps | dsimp only

theorem execKvWrite_keeps {anc : State} (v : Nat) (slot : Nat) (pos : Nat) (off : Nat) (mode : Nat) (parts : List KvPart) (s : State) (hk : anc.Keeps s) : ∃ out, execKvWrite v slot pos off mode parts s = .next out ∧ anc.Keeps out := by
  unfold execKvWrite
  refine ⟨_, rfl, ?_⟩
  repeat' first
    | with_reducible assumption | with_reducible apply State.kvWriteStep_keeps | dsimp only

theorem execKvReserve_keeps {anc : State} (v : Nat) (s : State) (hk : anc.Keeps s) : ∃ out, execKvReserve v s = .next out ∧ anc.Keeps out := by
  unfold execKvReserve
  refine ⟨_, rfl, ?_⟩
  repeat' first
    | with_reducible assumption | with_reducible apply State.kvCommand_keeps | dsimp only

theorem execKvRelease_keeps {anc : State} (v : Nat) (s : State) (hk : anc.Keeps s) : ∃ out, execKvRelease v s = .next out ∧ anc.Keeps out := by
  unfold execKvRelease
  refine ⟨_, rfl, ?_⟩
  repeat' first
    | with_reducible assumption | with_reducible apply State.kvCommand_keeps | dsimp only

theorem execKvShare_keeps {anc : State} (v : Nat) (s : State) (hk : anc.Keeps s) : ∃ out, execKvShare v s = .next out ∧ anc.Keeps out := by
  unfold execKvShare
  refine ⟨_, rfl, ?_⟩
  repeat' first
    | with_reducible assumption | with_reducible apply State.kvCommand_keeps | dsimp only

theorem execStandinRequest_keeps {anc : State} (v : Nat) (ck : Nat) (id : Nat) (n : Nat) (s : State) (hk : anc.Keeps s) : ∃ out, execStandinRequest v ck id n s = .next out ∧ anc.Keeps out := by
  unfold execStandinRequest
  refine ⟨_, rfl, ?_⟩
  repeat' first
    | with_reducible assumption | with_reducible apply State.standinRequest_keeps | dsimp only

theorem execStandinDone_keeps {anc : State} (v : Nat) (s : State) (hk : anc.Keeps s) : ∃ out, execStandinDone v s = .next out ∧ anc.Keeps out := by
  unfold execStandinDone
  refine ⟨_, rfl, ?_⟩
  repeat' first
    | with_reducible assumption | with_reducible apply State.standinDone_keeps | dsimp only

theorem execSampleToken_keeps {anc : State} (v : Nat) (id : Nat) (pos : Nat) (off : Nat) (n : Nat) (s : State) (hk : anc.Keeps s) : ∃ out, execSampleToken v id pos off n s = .next out ∧ anc.Keeps out := by
  unfold execSampleToken
  refine ⟨_, rfl, ?_⟩
  repeat' first
    | with_reducible assumption | with_reducible apply State.sample_keeps | dsimp only

end Sys2Proof.Machine
end

