-- ==== Sys2Proof/Laws/Keeps/Router.lean ====
section
/-! SUPPORT. Every operation and meaning of Machine/Router.lean leaves the queue alone and keeps the memories and the register table canonical. -/

namespace Sys2Proof.Machine

set_option linter.unreachableTactic false
set_option linter.unusedTactic false

theorem State.seamHigh_keeps {anc : State} (s : State) (r : Nat) (port : Nat) (hk : anc.Keeps s) : anc.Keeps (State.seamHigh s r port) := by
  unfold State.seamHigh
  repeat' first
    | with_reducible assumption | with_reducible apply State.wf_keeps | with_reducible refine ite_keeps ?_ ?_ | split | dsimp only

theorem State.sendFlit_keeps {anc : State} (s : State) (r : Nat) (port : Nat) (cls : Nat) (inp : Nat) (hk : anc.Keeps s) : anc.Keeps (State.sendFlit s r port cls inp) := by
  unfold State.sendFlit
  repeat' first
    | with_reducible assumption | with_reducible apply State.emit_keeps | with_reducible apply State.seamHigh_keeps
    | with_reducible apply State.inc_keeps | with_reducible refine State.keeps_fields ?_
    | with_reducible refine State.keeps_put_regs ?_ | with_reducible refine State.keeps_del_regs ?_
    | with_reducible refine ite_keeps ?_ ?_ | split | dsimp only | simp only [State.keeps_mk]

theorem State.forwardFlits_keeps {anc : State} (s : State) (n : Nat) (ps : List (Nat × Nat)) (hk : anc.Keeps s) :
    anc.Keeps (State.forwardFlits s n ps) := by
  induction n generalizing s ps with
  | zero => simpa only [State.forwardFlits] using hk
  | succ n ih =>
    cases ps with
    | nil => simpa only [State.forwardFlits] using hk
    | cons p ps =>
      simp only [State.forwardFlits]
      split
      · exact ih _ _ hk
      · exact ih _ _ (State.sendFlit_keeps _ _ _ _ _ hk)

theorem State.takeFlit_keeps {anc : State} (s : State) (r : Nat) (port : Nat) (f : Flit) (hk : anc.Keeps s) : anc.Keeps (State.takeFlit s r port f) := by
  unfold State.takeFlit
  repeat' first
    | with_reducible assumption | with_reducible apply State.forwardFlits_keeps | with_reducible refine State.keeps_fields ?_
    | with_reducible refine State.keeps_put_regs ?_ | with_reducible refine State.keeps_del_regs ?_
    | with_reducible refine ite_keeps ?_ ?_ | split | dsimp only | simp only [State.keeps_mk]

theorem State.acceptFlit_keeps {anc : State} (s : State) (r : Nat) (port : Nat) (hk : anc.Keeps s) : anc.Keeps (State.acceptFlit s r port) := by
  unfold State.acceptFlit
  repeat' first
    | with_reducible assumption | with_reducible refine State.keeps_fields ?_ | with_reducible refine State.keeps_put_regs ?_
    | with_reducible refine State.keeps_del_regs ?_ | with_reducible refine ite_keeps ?_ ?_ | split | dsimp only
    | simp only [State.keeps_mk]

theorem State.retryFlit_keeps {anc : State} (s : State) (r : Nat) (port : Nat) (hk : anc.Keeps s) : anc.Keeps (State.retryFlit s r port) := by
  unfold State.retryFlit
  repeat' first
    | with_reducible assumption | with_reducible apply State.emit_keeps | with_reducible refine ite_keeps ?_ ?_ | split | dsimp only

end Sys2Proof.Machine
end

