-- ==== Sys2Proof/Laws/Keeps/Mesh.lean ====
section
/-! SUPPORT. Every operation and meaning of Machine/Mesh.lean leaves the queue alone and keeps the memories and the register table canonical. -/

namespace Sys2Proof.Machine

set_option linter.unreachableTactic false
set_option linter.unusedTactic false

theorem State.setCoreClock_keeps {anc : State} (s : State) (pc : Nat) (mhz : Nat) (hk : anc.Keeps s) : anc.Keeps (State.setCoreClock s pc mhz) := by
  unfold State.setCoreClock
  repeat' first
    | with_reducible assumption | with_reducible refine State.keeps_fields ?_ | with_reducible refine State.keeps_del_regs ?_
    | dsimp only | simp only [State.keeps_mk]

theorem State.orderCoreClock_keeps {anc : State} (s : State) (pc : Nat) (mhz : Nat) (hk : anc.Keeps s) : anc.Keeps (State.orderCoreClock s pc mhz) := by
  unfold State.orderCoreClock
  repeat' first
    | with_reducible assumption | with_reducible apply State.setCoreClock_keeps | with_reducible refine State.keeps_fields ?_
    | with_reducible refine State.keeps_put_regs ?_ | with_reducible refine ite_keeps ?_ ?_ | split | dsimp only
    | simp only [State.keeps_mk]

theorem State.clockPoint_keeps {anc : State} (s : State) (ck : Nat) (hk : anc.Keeps s) : anc.Keeps (State.clockPoint s ck) := by
  unfold State.clockPoint
  repeat' first
    | with_reducible assumption | with_reducible apply State.setCoreClock_keeps | with_reducible refine ite_keeps ?_ ?_ | split
    | dsimp only

theorem State.markHeld_keeps {anc : State} (s : State) (half : Nat) (b : Bool) (hk : anc.Keeps s) : anc.Keeps (State.markHeld s half b) := by
  unfold State.markHeld
  repeat' first
    | with_reducible assumption | with_reducible apply State.wf_keeps | with_reducible apply State.each_keeps | intro _
    | with_reducible refine ite_keeps ?_ ?_ | split | dsimp only

theorem State.orderMeshClock_keeps {anc : State} (s : State) (half : Nat) (mhz : Nat) (hk : anc.Keeps s) : anc.Keeps (State.orderMeshClock s half mhz) := by
  unfold State.orderMeshClock
  repeat' first
    | with_reducible assumption | with_reducible apply State.markHeld_keeps | with_reducible refine State.keeps_fields ?_
    | with_reducible refine State.keeps_put_regs ?_ | with_reducible refine ite_keeps ?_ ?_ | split | dsimp only
    | simp only [State.keeps_mk]

theorem State.rescale_keeps {anc : State} (s : State) (hk : anc.Keeps s) : anc.Keeps (State.rescale s) := by
  unfold State.rescale
  repeat' first
    | with_reducible assumption | with_reducible apply State.wf_keeps | with_reducible apply State.setInt_keeps
    | with_reducible apply State.inc_keeps | with_reducible apply State.each_keeps | with_reducible apply foldl_keeps | intro _
    | dsimp only

theorem State.switchMap_keeps {anc : State} (s : State) (r : Nat) (ver : Nat) (hk : anc.Keeps s) : anc.Keeps (State.switchMap s r ver) := by
  unfold State.switchMap
  repeat' first
    | with_reducible assumption | with_reducible apply State.setInt_keeps | with_reducible apply State.wf_keeps
    | with_reducible apply State.mesh_keeps | with_reducible refine State.keeps_fields ?_ | with_reducible refine ite_keeps ?_ ?_
    | split | dsimp only | simp only [State.keeps_mk]

theorem State.mapSwitch_keeps {anc : State} (s : State) (r : Nat) (ver : Nat) (hk : anc.Keeps s) : anc.Keeps (State.mapSwitch s r ver) := by
  unfold State.mapSwitch
  repeat' first
    | with_reducible assumption | with_reducible apply State.switchMap_keeps | with_reducible refine State.keeps_fields ?_
    | with_reducible refine State.keeps_put_regs ?_ | with_reducible refine ite_keeps ?_ ?_ | split | dsimp only
    | simp only [State.keeps_mk]

theorem State.mapBroadcast_keeps {anc : State} (s : State) (ver : Nat) (hk : anc.Keeps s) : anc.Keeps (State.mapBroadcast s ver) := by
  unfold State.mapBroadcast
  repeat' first
    | with_reducible assumption | with_reducible apply State.mapSwitch_keeps | with_reducible apply State.each_keeps
    | with_reducible refine State.keeps_fields ?_ | intro _ | dsimp only | simp only [State.keeps_mk]

theorem State.mapWriteAll_keeps {anc : State} (s : State) (ck : Nat) (phys : Nat) (absent : Bool) (hk : anc.Keeps s) : anc.Keeps (State.mapWriteAll s ck phys absent) := by
  unfold State.mapWriteAll
  repeat' first
    | with_reducible assumption | with_reducible apply State.wf_keeps | with_reducible apply State.each_keeps | intro _ | dsimp only

theorem State.mapComplete_keeps {anc : State} (s : State) (hk : anc.Keeps s) : anc.Keeps (State.mapComplete s) := by
  unfold State.mapComplete
  repeat' first
    | with_reducible assumption | with_reducible apply State.wf_keeps | with_reducible apply State.each_keeps
    | with_reducible refine State.keeps_fields ?_ | intro _ | with_reducible refine ite_keeps ?_ ?_ | split | dsimp only
    | simp only [State.keeps_mk]

theorem State.clockHoldEnd_keeps {anc : State} (s : State) (half : Nat) (hk : anc.Keeps s) : anc.Keeps (State.clockHoldEnd s half) := by
  unfold State.clockHoldEnd
  repeat' first
    | with_reducible assumption | with_reducible apply State.rescale_keeps | with_reducible apply State.markHeld_keeps
    | with_reducible apply State.switchMap_keeps | with_reducible apply State.forwardFlits_keeps
    | with_reducible apply State.orderMeshClock_keeps | with_reducible apply State.each_keeps
    | with_reducible refine State.keeps_fields ?_ | with_reducible refine State.keeps_del_regs ?_ | intro _ | split | dsimp only
    | simp only [State.keeps_mk]

theorem State.unmatched_keeps {anc : State} (s : State) (ck : Nat) (p : Pip) (hk : anc.Keeps s) : anc.Keeps (State.unmatched s ck p) := by
  unfold State.unmatched
  repeat' first
    | with_reducible assumption | with_reducible apply State.blockErr_keeps | with_reducible apply State.inc_keeps
    | with_reducible apply State.notice_keeps | with_reducible apply State.meshFrom_keeps | with_reducible refine ite_keeps ?_ ?_
    | split | dsimp only

theorem State.genMismatch_keeps {anc : State} (s : State) (ck : Nat) (pc : Nat) (p : Pip) (hk : anc.Keeps s) : anc.Keeps (State.genMismatch s ck pc p) := by
  unfold State.genMismatch
  repeat' first
    | with_reducible assumption | with_reducible apply State.genDrop_keeps | with_reducible apply State.meshFrom_keeps
    | with_reducible apply State.setBuf_keeps | with_reducible refine State.keeps_fields ?_ | with_reducible refine ite_keeps ?_ ?_
    | split | dsimp only | simp only [State.keeps_mk]

theorem State.setSc_keeps {anc : State} (s : State) (ck : Nat) (x : ScSt) (hk : anc.Keeps s) : anc.Keeps (State.setSc s ck x) := by
  unfold State.setSc
  repeat' first
    | with_reducible assumption | with_reducible refine State.keeps_fields ?_ | with_reducible refine State.keeps_put_regs ?_
    | dsimp only | simp only [State.keeps_mk]

theorem State.scoreReceive_keeps {anc : State} (s : State) (ck : Nat) (p : Pip) (hk : anc.Keeps s) : anc.Keeps (State.scoreReceive s ck p) := by
  unfold State.scoreReceive
  repeat' first
    | with_reducible assumption | with_reducible apply State.inc_keeps | with_reducible apply State.wf_keeps
    | with_reducible apply State.setSc_keeps | dsimp only

theorem State.storePip_keeps {anc : State} (s : State) (ck : Nat) (p : Pip) (hk : anc.Keeps s) : anc.Keeps (State.storePip s ck p) := by
  unfold State.storePip
  repeat' first
    | with_reducible assumption | with_reducible apply State.unitEv_keeps | with_reducible apply State.scoreReceive_keeps
    | with_reducible apply State.unmatched_keeps | with_reducible apply State.bufPut_keeps | with_reducible apply State.when_keeps
    | intro _ | with_reducible refine ite_keeps ?_ ?_ | split | dsimp only

theorem State.pipReceive_keeps {anc : State} (s : State) (p : Pip) (pc : Nat) (redirected : Bool) (hk : anc.Keeps s) : anc.Keeps (State.pipReceive s p pc redirected) := by
  unfold State.pipReceive
  repeat' first
    | with_reducible assumption | with_reducible apply State.notice_keeps | with_reducible apply State.genDrop_keeps
    | with_reducible apply State.mesh_keeps | with_reducible apply State.setInt_keeps | with_reducible apply State.inc_keeps
    | with_reducible apply State.genMismatch_keeps | with_reducible apply State.storePip_keeps
    | with_reducible refine ite_keeps ?_ ?_ | split | dsimp only

theorem State.takeCredits_keeps {anc : State} (s : State) (ck : Nat) (dest : Nat) (stream : Nat) (n : Nat) (gen : Nat) (grant : Bool) (hk : anc.Keeps s) : anc.Keeps (State.takeCredits s ck dest stream n gen grant) := by
  unfold State.takeCredits
  repeat' first
    | with_reducible assumption | with_reducible apply State.meshFrom_keeps | with_reducible apply State.setChan_keeps
    | with_reducible refine ite_keeps ?_ ?_ | split | dsimp only

theorem State.creditsFor_keeps {anc : State} (s : State) (ck : Nat) (dest : Nat) (stream : Nat) (n : Nat) (gen : Nat) (reqGen : Nat) (grant : Bool) (hk : anc.Keeps s) : anc.Keeps (State.creditsFor s ck dest stream n gen reqGen grant) := by
  unfold State.creditsFor
  repeat' first
    | with_reducible assumption | with_reducible apply State.genDrop_keeps | with_reducible apply State.takeCredits_keeps
    | with_reducible refine ite_keeps ?_ ?_ | split | dsimp only

theorem State.refused_keeps {anc : State} (s : State) (ck : Nat) (dest : Nat) (stream : Nat) (hk : anc.Keeps s) : anc.Keeps (State.refused s ck dest stream) := by
  unfold State.refused
  repeat' first
    | with_reducible assumption | with_reducible apply State.unitEv_keeps | with_reducible apply State.setChan_keeps
    | with_reducible apply State.when_keeps | intro _ | split | dsimp only

theorem State.creditRequest_keeps {anc : State} (s : State) (r : CredReq) (hk : anc.Keeps s) : anc.Keeps (State.creditRequest s r) := by
  unfold State.creditRequest
  repeat' first
    | with_reducible assumption | with_reducible apply State.meshFrom_keeps | with_reducible apply State.refused_keeps
    | with_reducible apply State.takeRequest_keeps | with_reducible refine ite_keeps ?_ ?_ | split | dsimp only

theorem State.creditRelease_keeps {anc : State} (s : State) (dest : Nat) (stream : Nat) (n : Nat) (gen : Nat) (hk : anc.Keeps s) : anc.Keeps (State.creditRelease s dest stream n gen) := by
  unfold State.creditRelease
  repeat' first
    | with_reducible assumption | with_reducible apply State.serveQueue_keeps | with_reducible apply State.setBuf_keeps
    | with_reducible refine ite_keeps ?_ ?_ | split | dsimp only

theorem State.creditIdle_keeps {anc : State} (s : State) (ck : Nat) (dest : Nat) (stream : Nat) (hk : anc.Keeps s) : anc.Keeps (State.creditIdle s ck dest stream) := by
  unfold State.creditIdle
  repeat' first
    | with_reducible assumption | with_reducible apply State.meshFrom_keeps | with_reducible refine State.keeps_fields ?_
    | with_reducible refine ite_keeps ?_ ?_ | split | dsimp only | simp only [State.keeps_mk]

theorem State.noBufferRetry_keeps {anc : State} (s : State) (ck : Nat) (dest : Nat) (stream : Nat) (hk : anc.Keeps s) : anc.Keeps (State.noBufferRetry s ck dest stream) := by
  unfold State.noBufferRetry
  repeat' first
    | with_reducible assumption | with_reducible apply State.meshFrom_keeps | with_reducible apply State.setChan_keeps
    | with_reducible refine ite_keeps ?_ ?_ | split | dsimp only

theorem execReexecCheckDone_keeps {anc : State} (ck : Nat) (id : Nat) (n : Nat) (ok : Bool) (vals : List Int) (s : State) (hk : anc.Keeps s) : ∃ out, execReexecCheckDone ck id n ok vals s = .next out ∧ anc.Keeps out := by
  unfold execReexecCheckDone
  refine ⟨_, rfl, ?_⟩
  repeat' first
    | with_reducible assumption | with_reducible apply State.clockPoint_keeps | with_reducible apply State.creditWatch_keeps
    | with_reducible apply State.checkDone_keeps | dsimp only

theorem execSubStepEnd_keeps {anc : State} (e : Nat) (noise : List Int) (s : State) (hk : anc.Keeps s) : ∃ out, execSubStepEnd e noise s = .next out ∧ anc.Keeps out := by
  unfold execSubStepEnd
  refine ⟨_, rfl, ?_⟩
  repeat' first
    | with_reducible assumption | with_reducible apply State.clockPoint_keeps | with_reducible apply State.creditWatch_keeps
    | with_reducible apply State.tileDone_keeps | with_reducible apply State.subStep_keeps | dsimp only

theorem execPostUnitDone_keeps {anc : State} (ck : Nat) (s : State) (hk : anc.Keeps s) : ∃ out, execPostUnitDone ck s = .next out ∧ anc.Keeps out := by
  unfold execPostUnitDone
  refine ⟨_, rfl, ?_⟩
  repeat' first
    | with_reducible assumption | with_reducible apply State.clockPoint_keeps | with_reducible apply State.creditWatch_keeps
    | with_reducible apply State.postUnitDone_keeps | dsimp only

theorem execStandinResult_keeps {anc : State} (ck : Nat) (id : Nat) (n : Nat) (ok : Bool) (vals : List Int) (s : State) (hk : anc.Keeps s) : ∃ out, execStandinResult ck id n ok vals s = .next out ∧ anc.Keeps out := by
  unfold execStandinResult
  refine ⟨_, rfl, ?_⟩
  repeat' first
    | with_reducible assumption | with_reducible apply State.clockPoint_keeps | with_reducible apply State.creditWatch_keeps
    | with_reducible apply State.standinResult_keeps | dsimp only

theorem execKernelStepEnd_keeps {anc : State} (v : Nat) (ops : List VOp) (s : State) (hk : anc.Keeps s) : ∃ out, execKernelStepEnd v ops s = .next out ∧ anc.Keeps out := by
  unfold execKernelStepEnd
  refine ⟨_, rfl, ?_⟩
  repeat' first
    | with_reducible assumption | with_reducible apply State.clockPoint_keeps | with_reducible apply State.kernelEnd_keeps
    | dsimp only

theorem execPipReceive_keeps {anc : State} (p : Pip) (pc : Nat) (redirected : Bool) (s : State) (hk : anc.Keeps s) : ∃ out, execPipReceive p pc redirected s = .next out ∧ anc.Keeps out := by
  unfold execPipReceive
  refine ⟨_, rfl, ?_⟩
  repeat' first
    | with_reducible assumption | with_reducible apply State.creditWatch_keeps | with_reducible apply State.pipReceive_keeps
    | dsimp only

theorem execCreditRequest_keeps {anc : State} (producer : CredFrom) (dest : Nat) (stream : Nat) (n : Nat) (s : State) (hk : anc.Keeps s) : ∃ out, execCreditRequest producer dest stream n s = .next out ∧ anc.Keeps out := by
  unfold execCreditRequest
  refine ⟨_, rfl, ?_⟩
  repeat' first
    | with_reducible assumption | with_reducible apply State.creditRequest_keeps | dsimp only

theorem execCreditGrant_keeps {anc : State} (ck : Nat) (dest : Nat) (stream : Nat) (n : Nat) (g : CredGens) (s : State) (hk : anc.Keeps s) : ∃ out, execCreditGrant ck dest stream n g s = .next out ∧ anc.Keeps out := by
  unfold execCreditGrant
  refine ⟨_, rfl, ?_⟩
  repeat' first
    | with_reducible assumption | with_reducible apply State.creditWatch_keeps | with_reducible apply State.creditsFor_keeps
    | dsimp only

theorem execCreditReturn_keeps {anc : State} (ck : Nat) (dest : Nat) (stream : Nat) (n : Nat) (g : CredGens) (s : State) (hk : anc.Keeps s) : ∃ out, execCreditReturn ck dest stream n g s = .next out ∧ anc.Keeps out := by
  unfold execCreditReturn
  refine ⟨_, rfl, ?_⟩
  repeat' first
    | with_reducible assumption | with_reducible apply State.creditWatch_keeps | with_reducible apply State.creditsFor_keeps
    | dsimp only

theorem execCreditRelease_keeps {anc : State} (dest : Nat) (stream : Nat) (n : Nat) (gen : Nat) (s : State) (hk : anc.Keeps s) : ∃ out, execCreditRelease dest stream n gen s = .next out ∧ anc.Keeps out := by
  unfold execCreditRelease
  refine ⟨_, rfl, ?_⟩
  repeat' first
    | with_reducible assumption | with_reducible apply State.creditRelease_keeps | dsimp only

theorem execCreditIdle_keeps {anc : State} (ck : Nat) (dest : Nat) (stream : Nat) (s : State) (hk : anc.Keeps s) : ∃ out, execCreditIdle ck dest stream s = .next out ∧ anc.Keeps out := by
  unfold execCreditIdle
  refine ⟨_, rfl, ?_⟩
  repeat' first
    | with_reducible assumption | with_reducible apply State.creditIdle_keeps | dsimp only

theorem execNoBufferRetry_keeps {anc : State} (ck : Nat) (dest : Nat) (stream : Nat) (s : State) (hk : anc.Keeps s) : ∃ out, execNoBufferRetry ck dest stream s = .next out ∧ anc.Keeps out := by
  unfold execNoBufferRetry
  refine ⟨_, rfl, ?_⟩
  repeat' first
    | with_reducible assumption | with_reducible apply State.noBufferRetry_keeps | dsimp only

theorem execMapSwitchComplete_keeps {anc : State} (s : State) (hk : anc.Keeps s) : ∃ out, execMapSwitchComplete s = .next out ∧ anc.Keeps out := by
  unfold execMapSwitchComplete
  refine ⟨_, rfl, ?_⟩
  repeat' first
    | with_reducible assumption | with_reducible apply State.mapComplete_keeps | dsimp only

theorem execClockHoldEnd_keeps {anc : State} (half : Nat) (s : State) (hk : anc.Keeps s) : ∃ out, execClockHoldEnd half s = .next out ∧ anc.Keeps out := by
  unfold execClockHoldEnd
  refine ⟨_, rfl, ?_⟩
  repeat' first
    | with_reducible assumption | with_reducible apply State.clockHoldEnd_keeps | dsimp only

end Sys2Proof.Machine
end

