-- ==== Sys2Proof/Laws/Keeps/Serving.lean ====
section
/-! SUPPORT. Every operation and meaning of Machine/Serving.lean leaves the queue alone and keeps the memories and the register table canonical. -/

namespace Sys2Proof.Machine

set_option linter.unreachableTactic false
set_option linter.unusedTactic false

theorem State.setBalance_keeps {anc : State} (s : State) (t : Nat) (b : Int) (hk : anc.Keeps s) : anc.Keeps (State.setBalance s t b) := by
  unfold State.setBalance
  repeat' first
    | with_reducible assumption | with_reducible apply State.wf_keeps | dsimp only

theorem State.refill_keeps {anc : State} (s : State) (t : Nat) (hk : anc.Keeps s) : anc.Keeps (State.refill s t) := by
  unfold State.refill
  repeat' first
    | with_reducible assumption | with_reducible apply State.wf_keeps | with_reducible apply State.setBalance_keeps
    | with_reducible refine State.keeps_fields ?_ | with_reducible refine ite_keeps ?_ ?_ | split | dsimp only
    | simp only [State.keeps_mk]

theorem State.debit_keeps {anc : State} (s : State) (t : Nat) (n : Nat) (decode : Bool) (hk : anc.Keeps s) : anc.Keeps (State.debit s t n decode) := by
  unfold State.debit
  repeat' first
    | with_reducible assumption | with_reducible apply State.refill_keeps | with_reducible apply State.inc_keeps
    | with_reducible apply State.setBalance_keeps | with_reducible refine ite_keeps ?_ ?_ | split | dsimp only

theorem State.accountEnable_keeps {anc : State} (s : State) (t : Nat) (hk : anc.Keeps s) : anc.Keeps (State.accountEnable s t) := by
  unfold State.accountEnable
  repeat' first
    | with_reducible assumption | with_reducible apply State.wf_keeps | with_reducible apply State.setBalance_keeps
    | with_reducible refine State.keeps_fields ?_ | dsimp only | simp only [State.keeps_mk]

theorem State.accountRate_keeps {anc : State} (s : State) (t : Nat) (rate : Nat) (depth : Nat) (hk : anc.Keeps s) : anc.Keeps (State.accountRate s t rate depth) := by
  unfold State.accountRate
  repeat' first
    | with_reducible assumption | with_reducible apply State.wf_keeps | with_reducible apply State.refill_keeps
    | with_reducible apply State.setBalance_keeps | with_reducible refine ite_keeps ?_ ?_ | split | dsimp only

theorem State.mayDebit_keeps {anc : State} (s : State) (r : Req) (hk : anc.Keeps s) : anc.Keeps (State.mayDebit s r).2 := by
  unfold State.mayDebit
  repeat' first
    | with_reducible assumption | with_reducible apply State.refill_keeps | with_reducible apply State.setReq_keeps
    | with_reducible apply State.setInt_keeps | with_reducible apply State.inc_keeps | with_reducible refine ite_keeps ?_ ?_
    | with_reducible refine ite_keeps2 ?_ ?_ | with_reducible refine ite_keeps3 ?_ ?_ | split | dsimp only

theorem State.mayDebit_keeps_eq {anc : State} {s : State} {r : Req} {r0 tz} (heqx : State.mayDebit s r = (r0, tz)) (hk : anc.Keeps s) : anc.Keeps tz := by
  have := State.mayDebit_keeps s r hk (anc := anc)
  rwa [heqx] at this

theorem State.countRefusal_keeps {anc : State} (s : State) (status : Nat) (tenant : Nat) (hk : anc.Keeps s) : anc.Keeps (State.countRefusal s status tenant) := by
  unfold State.countRefusal
  repeat' first
    | with_reducible assumption | with_reducible apply State.setInt_keeps | with_reducible apply State.inc_keeps
    | with_reducible refine ite_keeps ?_ ?_ | split | dsimp only

theorem State.refuseServe_keeps {anc : State} (s : State) (c : Cmd) (status : Nat) (id : Nat) (tenant : Nat) (hk : anc.Keeps s) : anc.Keeps (State.refuseServe s c status id tenant) := by
  unfold State.refuseServe
  repeat' first
    | with_reducible assumption | with_reducible apply State.countRefusal_keeps | with_reducible apply State.reply_keeps | dsimp only

theorem State.reserveAll_keeps {anc : State} {s : State} {slot n : Nat} {l : List Nat} {t : State}
    (heqx : State.reserveAll s slot n l = some t) (hk : anc.Keeps s) : anc.Keeps t := by
  induction l generalizing s with
  | nil =>
    simp only [State.reserveAll, Option.some.injEq] at heqx
    exact heqx ▸ hk
  | cons x l ih =>
    simp only [State.reserveAll] at heqx
    split at heqx
    · cases heqx
    · refine ih heqx ?_
      repeat' first
        | with_reducible assumption
        | refine State.kvReserve_keeps_eq (by with_reducible assumption) ?_
        | with_reducible apply State.each_keeps
        | with_reducible apply foldl_keeps
        | with_reducible apply foldl_keeps_pair
        | with_reducible apply foldl_keeps_triple
        | with_reducible apply State.when_keeps
        | with_reducible refine State.keeps_fields ?_
        | with_reducible refine State.keeps_write_hbm ?_
        | with_reducible refine State.keeps_write_sram ?_
        | with_reducible refine State.keeps_keep_hbm ?_
        | with_reducible refine State.keeps_keep_sram ?_
        | intro _
        | with_reducible refine ite_keeps ?_ ?_
        | split
        | dsimp only
        | simp only [State.keeps_mk]

theorem State.ctxOpen_keeps {anc : State} (s : State) (c : Cmd) (hk : anc.Keeps s) : anc.Keeps (State.ctxOpen s c) := by
  unfold State.ctxOpen
  repeat' first
    | with_reducible assumption | with_reducible apply State.refuseServe_keeps
    | refine State.reserveAll_keeps (by with_reducible assumption) ?_ | with_reducible apply State.draw_keeps
    | refine State.draw_keeps_eq (by with_reducible assumption) ?_ | with_reducible apply State.countServe_keeps
    | with_reducible apply State.reply_keeps | with_reducible refine State.keeps_fields ?_
    | with_reducible refine State.keeps_put_regs ?_ | with_reducible refine ite_keeps ?_ ?_ | split | dsimp only
    | simp only [State.keeps_mk]

theorem State.ctxDrop_keeps {anc : State} (s : State) (handle : Nat) (x : Ctx) (hk : anc.Keeps s) : anc.Keeps (State.ctxDrop s handle x) := by
  unfold State.ctxDrop
  repeat' first
    | with_reducible assumption | with_reducible apply State.releaseCtx_keeps | with_reducible apply State.clearSlot_keeps
    | with_reducible apply State.countServe_keeps | with_reducible apply State.clearVResids_keeps
    | with_reducible apply State.each_keeps | with_reducible refine State.keeps_fields ?_
    | with_reducible refine State.keeps_del_regs ?_ | intro _ | dsimp only | simp only [State.keeps_mk]

theorem State.ctxClose_keeps {anc : State} (s : State) (c : Cmd) (hk : anc.Keeps s) : anc.Keeps (State.ctxClose s c) := by
  unfold State.ctxClose
  repeat' first
    | with_reducible assumption | with_reducible apply State.refuseServe_keeps | with_reducible apply State.ctxDrop_keeps
    | with_reducible apply State.reply_keeps | with_reducible refine ite_keeps ?_ ?_ | split | dsimp only

theorem State.submit_keeps {anc : State} (s : State) (c : Cmd) (hk : anc.Keeps s) : anc.Keeps (State.submit s c) := by
  unfold State.submit
  repeat' first
    | with_reducible assumption | with_reducible apply State.refuseServe_keeps | with_reducible apply State.setCtx_keeps
    | with_reducible apply State.wf_keeps | with_reducible apply State.setRec_keeps | with_reducible apply State.countServe_keeps
    | with_reducible apply State.inc_keeps | with_reducible apply State.issueRead_keeps | with_reducible apply State.reply_keeps
    | with_reducible apply State.when_keeps | with_reducible refine State.keeps_fields ?_ | intro _
    | with_reducible refine ite_keeps ?_ ?_ | split | dsimp only | simp only [State.keeps_mk]

theorem State.promptDone_keeps {anc : State} (s0 : State) (id : Nat) (ok : Bool) (tokens : List Nat) (hk : anc.Keeps s0) : anc.Keeps (State.promptDone s0 id ok tokens) := by
  unfold State.promptDone
  repeat' first
    | with_reducible assumption | with_reducible apply State.readDone_keeps | with_reducible apply State.setReq_keeps
    | with_reducible apply State.endRequest_keeps | with_reducible refine ite_keeps ?_ ?_ | split | dsimp only

theorem State.cancel_keeps {anc : State} (s : State) (c : Cmd) (hk : anc.Keeps s) : anc.Keeps (State.cancel s c) := by
  unfold State.cancel
  repeat' first
    | with_reducible assumption | with_reducible apply State.setRec_keeps | with_reducible apply State.fixOutcome_keeps
    | with_reducible apply State.reply_keeps | with_reducible apply State.endWhenIdle_keeps | with_reducible apply State.inc_keeps
    | with_reducible apply State.setReq_keeps | with_reducible refine State.keeps_fields ?_ | split | dsimp only
    | simp only [State.keeps_mk]

theorem State.inquire_keeps {anc : State} (s : State) (c : Cmd) (hk : anc.Keeps s) : anc.Keeps (State.inquire s c) := by
  unfold State.inquire
  repeat' first
    | with_reducible assumption | with_reducible apply State.reply_keeps | with_reducible refine ite_keeps ?_ ?_ | split | dsimp only

theorem State.redeliver_keeps {anc : State} (s : State) (r : Nat) (hk : anc.Keeps s) : anc.Keeps (State.redeliver s r) := by
  unfold State.redeliver
  repeat' first
    | with_reducible assumption | with_reducible apply State.setRing_keeps | with_reducible apply State.sendQp_keeps
    | with_reducible apply State.ringDeliver_keeps | with_reducible refine ite_keeps ?_ ?_ | split | dsimp only

theorem State.ringSetup_keeps {anc : State} (s : State) (c : Cmd) (hk : anc.Keeps s) : anc.Keeps (State.ringSetup s c) := by
  unfold State.ringSetup
  repeat' first
    | with_reducible assumption | with_reducible apply State.wf_keeps | with_reducible apply State.refuseServe_keeps
    | with_reducible apply State.redeliver_keeps | with_reducible apply State.reply_keeps | with_reducible apply State.setRing_keeps
    | with_reducible refine ite_keeps ?_ ?_ | split | dsimp only

theorem State.writeStreams_keeps {anc : State} (s : State) (r : Req) (slot : Nat) (x : Ctx) (hk : anc.Keeps s) : anc.Keeps (State.writeStreams s r slot x) := by
  unfold State.writeStreams
  repeat' first
    | with_reducible assumption | with_reducible apply State.sramWrite_keeps | with_reducible apply State.each_keeps | intro _
    | split | dsimp only

theorem State.activateNext_keeps {anc : State} (s : State) (v : Nat) (hk : anc.Keeps s) : anc.Keeps (State.activateNext s v) := by
  unfold State.activateNext
  repeat' first
    | with_reducible assumption | with_reducible apply State.writeStreams_keeps | with_reducible apply State.countServe_keeps
    | with_reducible apply State.setReq_keeps | split | dsimp only

theorem State.dispatch_keeps {anc : State} (s : State) (r : Req) (n : Nat) (token : Nat) (hk : anc.Keeps s) : anc.Keeps (State.dispatch s r n token) := by
  unfold State.dispatch
  repeat' first
    | with_reducible assumption | with_reducible apply State.mesh_keeps | dsimp only

theorem State.decodeOne_keeps {anc : State} (s : State) (r : Req) (hk : anc.Keeps s) : anc.Keeps (State.decodeOne s r) := by
  unfold State.decodeOne
  repeat' first
    | with_reducible assumption | with_reducible apply State.mayDebit_keeps
    | refine State.mayDebit_keeps_eq (by with_reducible assumption) ?_ | with_reducible apply State.inc_keeps
    | with_reducible apply State.setReq_keeps | with_reducible apply State.dispatch_keeps | with_reducible apply State.debit_keeps
    | split | dsimp only

theorem State.decodeTurn_keeps {anc : State} (s : State) (v : Nat) (hk : anc.Keeps s) : anc.Keeps (State.decodeTurn s v) := by
  unfold State.decodeTurn
  repeat' first
    | with_reducible assumption | with_reducible apply State.decodeOne_keeps | with_reducible apply State.each_keeps | intro _
    | dsimp only

theorem State.prefillFrom_keeps {anc : State} (s : State) (v : Nat) (x2 : List Req) (hk : anc.Keeps s) : anc.Keeps (State.prefillFrom s v x2) := by
  induction x2 generalizing s with
  | nil =>
  simp only [State.prefillFrom]
  repeat' first
    | with_reducible assumption | with_reducible apply State.inc_keeps | with_reducible apply State.dispatch_keeps
    | with_reducible apply State.setVar_keeps | with_reducible apply State.debit_keeps | with_reducible apply State.mayDebit_keeps
    | refine State.mayDebit_keeps_eq (by with_reducible assumption) ?_ | with_reducible apply State.setReq_keeps
    | with_reducible apply State.each_keeps | with_reducible apply foldl_keeps | with_reducible apply foldl_keeps_pair
    | with_reducible apply foldl_keeps_triple | with_reducible apply State.when_keeps | with_reducible refine State.keeps_fields ?_
    | intro _ | with_reducible refine ite_keeps ?_ ?_ | split | dsimp only | simp only [State.keeps_mk]
  | cons y l ih =>
  simp only [State.prefillFrom]
  repeat' first
    | with_reducible assumption | with_reducible apply ih | with_reducible apply State.inc_keeps | with_reducible apply State.dispatch_keeps
    | with_reducible apply State.setVar_keeps | with_reducible apply State.debit_keeps | with_reducible apply State.mayDebit_keeps
    | refine State.mayDebit_keeps_eq (by with_reducible assumption) ?_ | with_reducible apply State.setReq_keeps
    | with_reducible apply State.each_keeps | with_reducible apply foldl_keeps | with_reducible apply foldl_keeps_pair
    | with_reducible apply foldl_keeps_triple | with_reducible apply State.when_keeps | with_reducible refine State.keeps_fields ?_
    | intro _ | with_reducible refine ite_keeps ?_ ?_ | split | dsimp only | simp only [State.keeps_mk]

theorem State.prefillTurn_keeps {anc : State} (s : State) (v : Nat) (hk : anc.Keeps s) : anc.Keeps (State.prefillTurn s v) := by
  unfold State.prefillTurn
  repeat' first
    | with_reducible assumption | with_reducible apply State.prefillFrom_keeps | dsimp only

theorem State.dispatchTurn_keeps {anc : State} (s : State) (v : Nat) (hk : anc.Keeps s) : anc.Keeps (State.dispatchTurn s v) := by
  unfold State.dispatchTurn
  repeat' first
    | with_reducible assumption | with_reducible apply State.setVar_keeps | with_reducible apply State.decodeTurn_keeps
    | with_reducible apply State.prefillTurn_keeps | with_reducible refine ite_keeps ?_ ?_ | split | dsimp only

theorem State.starve_keeps {anc : State} (s : State) (id : Nat) (hk : anc.Keeps s) : anc.Keeps (State.starve s id) := by
  unfold State.starve
  repeat' first
    | with_reducible assumption | with_reducible apply State.inc_keeps | with_reducible apply State.setReq_keeps
    | with_reducible apply State.setVar_keeps | with_reducible refine ite_keeps ?_ ?_ | split | dsimp only

theorem State.positionDone_keeps {anc : State} (s : State) (id : Nat) (hollow : Bool) (token : Nat) (hk : anc.Keeps s) : anc.Keeps (State.positionDone s id hollow token) := by
  unfold State.positionDone
  repeat' first
    | with_reducible assumption | with_reducible apply State.setReq_keeps | with_reducible apply State.setsBack_keeps
    | with_reducible apply State.endWhenIdle_keeps | with_reducible apply State.endRequest_keeps
    | with_reducible apply State.setCtx_keeps | with_reducible refine State.keeps_fields ?_ | with_reducible refine ite_keeps ?_ ?_
    | split | dsimp only | simp only [State.keeps_mk]

theorem State.abnormalEnd_keeps {anc : State} (s : State) (id : Nat) (status : Nat) (lost : Nat) (hk : anc.Keeps s) : anc.Keeps (State.abnormalEnd s id status lost) := by
  unfold State.abnormalEnd
  repeat' first
    | with_reducible assumption | with_reducible apply State.endRequest_keeps | with_reducible apply State.setReq_keeps
    | with_reducible apply State.setsBack_keeps | with_reducible refine ite_keeps ?_ ?_ | split | dsimp only

theorem State.deadline_keeps {anc : State} (s : State) (id : Nat) (hk : anc.Keeps s) : anc.Keeps (State.deadline s id) := by
  unfold State.deadline
  repeat' first
    | with_reducible assumption | with_reducible apply State.endRequest_keeps | with_reducible refine ite_keeps ?_ ?_ | split
    | dsimp only

theorem State.preempt_keeps {anc : State} (s : State) (v : Nat) (hk : anc.Keeps s) : anc.Keeps (State.preempt s v) := by
  unfold State.preempt
  repeat' first
    | with_reducible assumption | with_reducible apply State.endRequest_keeps | with_reducible apply State.each_keeps | intro _
    | dsimp only

theorem State.drainStart_keeps {anc : State} (s : State) (v : Nat) (preempt : Bool) (hk : anc.Keeps s) : anc.Keeps (State.drainStart s v preempt) := by
  unfold State.drainStart
  repeat' first
    | with_reducible assumption | with_reducible apply State.wf_keeps | with_reducible apply State.setVState_keeps
    | with_reducible apply State.setVar_keeps | with_reducible apply State.drainContexts_keeps
    | with_reducible apply State.preempt_keeps | with_reducible apply State.when_keeps | intro _ | dsimp only

theorem State.drainLimit_keeps {anc : State} (s : State) (v : Nat) (hk : anc.Keeps s) : anc.Keeps (State.drainLimit s v) := by
  unfold State.drainLimit
  repeat' first
    | with_reducible assumption | with_reducible apply State.preempt_keeps | with_reducible refine ite_keeps ?_ ?_ | split
    | dsimp only

theorem State.retire_keeps {anc : State} (s : State) (c : Cmd) (hk : anc.Keeps s) : anc.Keeps (State.retire s c) := by
  unfold State.retire
  repeat' first
    | with_reducible assumption | with_reducible apply State.refuseServe_keeps | with_reducible apply State.replyEarly_keeps
    | with_reducible apply State.setVar_keeps | with_reducible apply State.drainStart_keeps | with_reducible refine ite_keeps ?_ ?_
    | split | dsimp only

theorem State.drainDispatch_keeps {anc : State} (s : State) (v : Nat) (hk : anc.Keeps s) : anc.Keeps (State.drainDispatch s v) := by
  unfold State.drainDispatch
  repeat' first
    | with_reducible assumption | with_reducible apply State.mesh_keeps | with_reducible apply State.setVar_keeps
    | with_reducible refine ite_keeps ?_ ?_ | split | dsimp only

theorem State.clearEpoch_keeps {anc : State} (s : State) (v : Nat) (ep : Nat) (hk : anc.Keeps s) : anc.Keeps (State.clearEpoch s v ep) := by
  unfold State.clearEpoch
  repeat' first
    | with_reducible assumption | with_reducible apply State.tryOwed_keeps | with_reducible apply State.retrack_keeps
    | with_reducible apply State.wf_keeps | with_reducible apply State.each_keeps | with_reducible refine State.keeps_fields ?_
    | with_reducible refine State.keeps_put_regs ?_ | intro _ | with_reducible refine ite_keeps ?_ ?_ | split | dsimp only
    | simp only [State.keeps_mk]

theorem State.drained_keeps {anc : State} (s : State) (v : Nat) (hk : anc.Keeps s) : anc.Keeps (State.drained s v) := by
  unfold State.drained
  repeat' first
    | with_reducible assumption | with_reducible apply State.setInt_keeps | with_reducible apply State.setVState_keeps
    | with_reducible apply State.clearEpoch_keeps | with_reducible apply State.finalRec_keeps
    | with_reducible apply State.setVar_keeps | with_reducible refine State.keeps_fields ?_ | split | dsimp only
    | simp only [State.keeps_mk]

theorem State.drainArrival_keeps {anc : State} (s : State) (v : Nat) (hk : anc.Keeps s) : anc.Keeps (State.drainArrival s v) := by
  unfold State.drainArrival
  repeat' first
    | with_reducible assumption | with_reducible apply State.drained_keeps | with_reducible refine ite_keeps ?_ ?_ | split
    | dsimp only

theorem State.commitDoorbell_keeps {anc : State} (s : State) (op : Nat) (hk : anc.Keeps s) : anc.Keeps (State.commitDoorbell s op) := by
  unfold State.commitDoorbell
  repeat' first
    | with_reducible assumption | with_reducible apply State.takeDoorbell_keeps | with_reducible refine State.keeps_fields ?_
    | with_reducible refine ite_keeps ?_ ?_ | split | dsimp only | simp only [State.keeps_mk]

theorem State.tailAck_keeps {anc : State} (s : State) (r : Nat) (hk : anc.Keeps s) : anc.Keeps (State.tailAck s r) := by
  unfold State.tailAck
  repeat' first
    | with_reducible assumption | with_reducible apply State.wf_keeps | with_reducible apply State.setRing_keeps | split | dsimp only

theorem execCtxOpen_keeps {anc : State} (c : Cmd) (s : State) (hk : anc.Keeps s) : ∃ out, execCtxOpen c s = .next out ∧ anc.Keeps out := by
  unfold execCtxOpen
  refine ⟨_, rfl, ?_⟩
  repeat' first
    | with_reducible assumption | with_reducible apply State.vorane_keeps | with_reducible apply State.ctxOpen_keeps | intro _
    | dsimp only

theorem execCtxClose_keeps {anc : State} (c : Cmd) (s : State) (hk : anc.Keeps s) : ∃ out, execCtxClose c s = .next out ∧ anc.Keeps out := by
  unfold execCtxClose
  refine ⟨_, rfl, ?_⟩
  repeat' first
    | with_reducible assumption | with_reducible apply State.vorane_keeps | with_reducible apply State.ctxClose_keeps | intro _
    | dsimp only

theorem execSubmit_keeps {anc : State} (c : Cmd) (s : State) (hk : anc.Keeps s) : ∃ out, execSubmit c s = .next out ∧ anc.Keeps out := by
  unfold execSubmit
  refine ⟨_, rfl, ?_⟩
  repeat' first
    | with_reducible assumption | with_reducible apply State.vorane_keeps | with_reducible apply State.submit_keeps | intro _
    | dsimp only

theorem execCancel_keeps {anc : State} (c : Cmd) (s : State) (hk : anc.Keeps s) : ∃ out, execCancel c s = .next out ∧ anc.Keeps out := by
  unfold execCancel
  refine ⟨_, rfl, ?_⟩
  repeat' first
    | with_reducible assumption | with_reducible apply State.vorane_keeps | with_reducible apply State.cancel_keeps | intro _
    | dsimp only

theorem execInquire_keeps {anc : State} (c : Cmd) (s : State) (hk : anc.Keeps s) : ∃ out, execInquire c s = .next out ∧ anc.Keeps out := by
  unfold execInquire
  refine ⟨_, rfl, ?_⟩
  repeat' first
    | with_reducible assumption | with_reducible apply State.vorane_keeps | with_reducible apply State.inquire_keeps | intro _
    | dsimp only

theorem execRingSetup_keeps {anc : State} (c : Cmd) (s : State) (hk : anc.Keeps s) : ∃ out, execRingSetup c s = .next out ∧ anc.Keeps out := by
  unfold execRingSetup
  refine ⟨_, rfl, ?_⟩
  repeat' first
    | with_reducible assumption | with_reducible apply State.vorane_keeps | with_reducible apply State.ringSetup_keeps | intro _
    | dsimp only

theorem execVariantRetire_keeps {anc : State} (c : Cmd) (s : State) (hk : anc.Keeps s) : ∃ out, execVariantRetire c s = .next out ∧ anc.Keeps out := by
  unfold execVariantRetire
  refine ⟨_, rfl, ?_⟩
  repeat' first
    | with_reducible assumption | with_reducible apply State.vorane_keeps | with_reducible apply State.retire_keeps | intro _
    | dsimp only

theorem execPromptReadDone_keeps {anc : State} (id : Nat) (ok : Bool) (tokens : List Nat) (s : State) (hk : anc.Keeps s) : ∃ out, execPromptReadDone id ok tokens s = .next out ∧ anc.Keeps out := by
  unfold execPromptReadDone
  refine ⟨_, rfl, ?_⟩
  repeat' first
    | with_reducible assumption | with_reducible apply State.promptDone_keeps | dsimp only

theorem execRequestActivate_keeps {anc : State} (v : Nat) (s : State) (hk : anc.Keeps s) : ∃ out, execRequestActivate v s = .next out ∧ anc.Keeps out := by
  unfold execRequestActivate
  refine ⟨_, rfl, ?_⟩
  repeat' first
    | with_reducible assumption | with_reducible apply State.activateNext_keeps | dsimp only

theorem execDispatchTurn_keeps {anc : State} (v : Nat) (s : State) (hk : anc.Keeps s) : ∃ out, execDispatchTurn v s = .next out ∧ anc.Keeps out := by
  unfold execDispatchTurn
  refine ⟨_, rfl, ?_⟩
  repeat' first
    | with_reducible assumption | with_reducible apply State.dispatchTurn_keeps | dsimp only

theorem execStarvePromotion_keeps {anc : State} (id : Nat) (s : State) (hk : anc.Keeps s) : ∃ out, execStarvePromotion id s = .next out ∧ anc.Keeps out := by
  unfold execStarvePromotion
  refine ⟨_, rfl, ?_⟩
  repeat' first
    | with_reducible assumption | with_reducible apply State.starve_keeps | dsimp only

theorem execDeadlineExpiry_keeps {anc : State} (id : Nat) (s : State) (hk : anc.Keeps s) : ∃ out, execDeadlineExpiry id s = .next out ∧ anc.Keeps out := by
  unfold execDeadlineExpiry
  refine ⟨_, rfl, ?_⟩
  repeat' first
    | with_reducible assumption | with_reducible apply State.deadline_keeps | dsimp only

theorem execCommitToken_keeps {anc : State} (s : State) (hk : anc.Keeps s) : ∃ out, execCommitToken s = .next out ∧ anc.Keeps out := by
  unfold execCommitToken
  refine ⟨_, rfl, ?_⟩
  repeat' first
    | with_reducible assumption | with_reducible apply State.commitDoorbell_keeps | dsimp only

theorem execCommitEnd_keeps {anc : State} (s : State) (hk : anc.Keeps s) : ∃ out, execCommitEnd s = .next out ∧ anc.Keeps out := by
  unfold execCommitEnd
  refine ⟨_, rfl, ?_⟩
  repeat' first
    | with_reducible assumption | with_reducible apply State.commitDoorbell_keeps | dsimp only

theorem execCommitTokenEnd_keeps {anc : State} (s : State) (hk : anc.Keeps s) : ∃ out, execCommitTokenEnd s = .next out ∧ anc.Keeps out := by
  unfold execCommitTokenEnd
  refine ⟨_, rfl, ?_⟩
  repeat' first
    | with_reducible assumption | with_reducible apply State.commitDoorbell_keeps | dsimp only

theorem execRingDeliver_keeps {anc : State} (r : Nat) (s : State) (hk : anc.Keeps s) : ∃ out, execRingDeliver r s = .next out ∧ anc.Keeps out := by
  unfold execRingDeliver
  refine ⟨_, rfl, ?_⟩
  repeat' first
    | with_reducible assumption | with_reducible apply State.ringDeliver_keeps | dsimp only

theorem execTailAck_keeps {anc : State} (r : Nat) (s : State) (hk : anc.Keeps s) : ∃ out, execTailAck r s = .next out ∧ anc.Keeps out := by
  unfold execTailAck
  refine ⟨_, rfl, ?_⟩
  repeat' first
    | with_reducible assumption | with_reducible apply State.tailAck_keeps | dsimp only

theorem execPositionDone_keeps {anc : State} (id : Nat) (hollow : Bool) (token : Nat) (s : State) (hk : anc.Keeps s) : ∃ out, execPositionDone id hollow token s = .next out ∧ anc.Keeps out := by
  unfold execPositionDone
  refine ⟨_, rfl, ?_⟩
  repeat' first
    | with_reducible assumption | with_reducible apply State.positionDone_keeps | dsimp only

theorem execAbnormalEnd_keeps {anc : State} (id : Nat) (status : Nat) (lost : Nat) (s : State) (hk : anc.Keeps s) : ∃ out, execAbnormalEnd id status lost s = .next out ∧ anc.Keeps out := by
  unfold execAbnormalEnd
  refine ⟨_, rfl, ?_⟩
  repeat' first
    | with_reducible assumption | with_reducible apply State.abnormalEnd_keeps | dsimp only

theorem execDrainLimit_keeps {anc : State} (v : Nat) (s : State) (hk : anc.Keeps s) : ∃ out, execDrainLimit v s = .next out ∧ anc.Keeps out := by
  unfold execDrainLimit
  refine ⟨_, rfl, ?_⟩
  repeat' first
    | with_reducible assumption | with_reducible apply State.drainLimit_keeps | dsimp only

theorem execDrainSetDispatch_keeps {anc : State} (v : Nat) (s : State) (hk : anc.Keeps s) : ∃ out, execDrainSetDispatch v s = .next out ∧ anc.Keeps out := by
  unfold execDrainSetDispatch
  refine ⟨_, rfl, ?_⟩
  repeat' first
    | with_reducible assumption | with_reducible apply State.drainDispatch_keeps | dsimp only

theorem execDrainSetArrival_keeps {anc : State} (v : Nat) (s : State) (hk : anc.Keeps s) : ∃ out, execDrainSetArrival v s = .next out ∧ anc.Keeps out := by
  unfold execDrainSetArrival
  refine ⟨_, rfl, ?_⟩
  repeat' first
    | with_reducible assumption | with_reducible apply State.drainArrival_keeps | dsimp only

end Sys2Proof.Machine
end

