-- ==== Sys2Proof/Laws/Keeps/Cut.lean ====
section
/-! SUPPORT. Every operation and meaning of Machine/Cut.lean leaves the queue alone and keeps the memories and the register table canonical. -/

namespace Sys2Proof.Machine

set_option linter.unreachableTactic false
set_option linter.unusedTactic false

theorem State.cutCore_keeps {anc : State} (s : State) (dom : Dom) (ck : Nat) (hk : anc.Keeps s) : anc.Keeps (State.cutCore s dom ck) := by
  unfold State.cutCore
  repeat' first
    | with_reducible assumption | with_reducible apply State.mesh_keeps | with_reducible apply State.setMc_keeps
    | with_reducible apply State.dropTile_keeps | with_reducible apply State.setVc_keeps | with_reducible apply State.setSc_keeps
    | with_reducible apply State.each_keeps | with_reducible refine State.keeps_fields ?_
    | with_reducible refine State.keeps_keep_regs ?_ | with_reducible refine State.keeps_keep_hbm ?_
    | with_reducible refine State.keeps_keep_sram ?_ | intro _ | with_reducible refine ite_keeps ?_ ?_ | split | dsimp only
    | simp only [State.keeps_mk]

theorem State.cutCoreClock_keeps {anc : State} (s : State) (dom : Dom) (ck : Nat) (hk : anc.Keeps s) : anc.Keeps (State.cutCoreClock s dom ck) := by
  unfold State.cutCoreClock
  repeat' first
    | with_reducible assumption | with_reducible apply State.clockPoint_keeps | with_reducible apply State.cutCore_keeps | dsimp only

theorem State.endLost_keeps {anc : State} (s : State) (id : Nat) (status : Nat) (hk : anc.Keeps s) : anc.Keeps (State.endLost s id status) := by
  unfold State.endLost
  repeat' first
    | with_reducible assumption | with_reducible apply State.endRequest_keeps | with_reducible apply State.setReq_keeps
    | with_reducible apply State.setsBack_keeps | dsimp only

theorem State.interruptStreams_keeps {anc : State} (s : State) (streams : List Nat) (hk : anc.Keeps s) : anc.Keeps (State.interruptStreams s streams).2 := by
  unfold State.interruptStreams
  repeat' first
    | with_reducible assumption | with_reducible apply State.endLost_keeps | with_reducible apply State.each_keeps | intro _
    | dsimp only

theorem State.interruptStreams_keeps_eq {anc : State} {s : State} {streams : List Nat} {r0 tz} (heqx : State.interruptStreams s streams = (r0, tz)) (hk : anc.Keeps s) : anc.Keeps tz := by
  have := State.interruptStreams_keeps s streams hk (anc := anc)
  rwa [heqx] at this

theorem State.interruptRoles_keeps {anc : State} (s : State) (cores : List Nat) (hk : anc.Keeps s) : anc.Keeps (State.interruptRoles s cores).2 := by
  unfold State.interruptRoles
  repeat' first
    | with_reducible assumption | with_reducible apply State.endLost_keeps | with_reducible apply State.each_keeps | intro _
    | dsimp only

theorem State.interruptRoles_keeps_eq {anc : State} {s : State} {cores : List Nat} {r0 tz} (heqx : State.interruptRoles s cores = (r0, tz)) (hk : anc.Keeps s) : anc.Keeps tz := by
  have := State.interruptRoles_keeps s cores hk (anc := anc)
  rwa [heqx] at this

theorem State.loseKv_keeps {anc : State} (s : State) (v : Nat) (hk : anc.Keeps s) : anc.Keeps (State.loseKv s v) := by
  unfold State.loseKv
  repeat' first
    | with_reducible assumption | with_reducible apply State.endLost_keeps | with_reducible apply State.each_keeps
    | with_reducible refine State.keeps_fields ?_ | with_reducible refine State.keeps_del_regs ?_ | intro _
    | with_reducible refine ite_keeps ?_ ?_ | split | dsimp only | simp only [State.keeps_mk]

theorem State.breakScores_keeps {anc : State} (s : State) (cores : List Nat) (hk : anc.Keeps s) : anc.Keeps (State.breakScores s cores) := by
  unfold State.breakScores
  repeat' first
    | with_reducible assumption | with_reducible apply State.semBreakAll_keeps | with_reducible apply State.each_keeps | intro _
    | dsimp only

theorem State.dropVResids_keeps {anc : State} (s : State) (v : Nat) (ctx : Nat) (hk : anc.Keeps s) : anc.Keeps (State.dropVResids s v ctx) := by
  unfold State.dropVResids
  repeat' first
    | with_reducible assumption | with_reducible apply State.sramWrite_keeps | with_reducible apply State.each_keeps | intro _
    | dsimp only

theorem State.loseResiduals_keeps {anc : State} (s : State) (ck : Nat) (hk : anc.Keeps s) : anc.Keeps (State.loseResiduals s ck) := by
  unfold State.loseResiduals
  repeat' first
    | with_reducible assumption | with_reducible apply State.logEvSev_keeps | with_reducible apply State.dropVResids_keeps
    | with_reducible apply State.clearSlot_keeps | with_reducible apply State.setReq_keeps | with_reducible apply State.each_keeps
    | intro _ | with_reducible refine ite_keeps ?_ ?_ | split | dsimp only

theorem State.scoreStart_keeps {anc : State} (s : State) (ck : Nat) (hk : anc.Keeps s) : anc.Keeps (State.scoreStart s ck) := by
  unfold State.scoreStart
  repeat' first
    | with_reducible assumption | with_reducible apply State.wf_keeps | with_reducible apply State.setSc_keeps | dsimp only

end Sys2Proof.Machine
end

