-- ==== Sys2Proof/Laws/Keeps/Module.lean ====
section
/-! SUPPORT. Every operation and meaning of Machine/Module.lean leaves the queue alone and keeps the memories and the register table canonical. -/

namespace Sys2Proof.Machine

set_option linter.unreachableTactic false
set_option linter.unusedTactic false

theorem State.raiseAlert_keeps {anc : State} (s : State) (hk : anc.Keeps s) : anc.Keeps (State.raiseAlert s) := by
  unfold State.raiseAlert
  repeat' first
    | with_reducible assumption | with_reducible apply State.emit_keeps | with_reducible refine State.keeps_fields ?_
    | with_reducible refine ite_keeps ?_ ?_ | split | dsimp only | simp only [State.keeps_mk]

theorem State.setPwrgd_keeps {anc : State} (s : State) (b : Bool) (hk : anc.Keeps s) : anc.Keeps (State.setPwrgd s b) := by
  unfold State.setPwrgd
  repeat' first
    | with_reducible assumption | with_reducible apply State.emit_keeps | with_reducible refine State.keeps_fields ?_
    | with_reducible refine ite_keeps ?_ ?_ | split | dsimp only | simp only [State.keeps_mk]

theorem State.boardFault_keeps {anc : State} (s : State) (b : Nat) (on : Bool) (hk : anc.Keeps s) : anc.Keeps (State.boardFault s b on) := by
  unfold State.boardFault
  repeat' first
    | with_reducible assumption | with_reducible apply State.wf_keeps | with_reducible apply State.raiseAlert_keeps
    | with_reducible apply State.unitEv_keeps | with_reducible apply State.setInt_keeps | with_reducible refine ite_keeps ?_ ?_
    | split | dsimp only

theorem State.setModState_keeps {anc : State} (s : State) (st : Nat) (hk : anc.Keeps s) : anc.Keeps (State.setModState s st) := by
  unfold State.setModState
  repeat' first
    | with_reducible assumption | with_reducible apply State.setInts_keeps | with_reducible apply State.wf_keeps
    | with_reducible apply State.raiseAlert_keeps | with_reducible apply State.logEvSev_keeps | with_reducible refine ite_keeps ?_ ?_
    | split | dsimp only

theorem State.phaseStart_keeps {anc : State} (s : State) (p : Nat) (st : Nat) (hk : anc.Keeps s) : anc.Keeps (State.phaseStart s p st) := by
  unfold State.phaseStart
  repeat' first
    | with_reducible assumption | with_reducible apply State.logEv_keeps | with_reducible apply State.setModState_keeps
    | with_reducible apply State.wf_keeps | with_reducible refine State.keeps_fields ?_ | dsimp only | simp only [State.keeps_mk]

theorem State.failWith_keeps {anc : State} (s : State) (cause : Nat) (detail : Nat) (hk : anc.Keeps s) : anc.Keeps (State.failWith s cause detail) := by
  unfold State.failWith
  repeat' first
    | with_reducible assumption | with_reducible apply State.setModState_keeps | with_reducible apply State.wf_keeps | dsimp only

theorem State.commitTrial_keeps {anc : State} (s : State) (hk : anc.Keeps s) : anc.Keeps (State.commitTrial s) := by
  unfold State.commitTrial
  repeat' first
    | with_reducible assumption | with_reducible apply State.wf_keeps | with_reducible apply State.logEv_keeps
    | with_reducible apply State.when_keeps | intro _ | with_reducible refine ite_keeps ?_ ?_ | split | dsimp only

theorem State.tryReady_keeps {anc : State} (s : State) (hk : anc.Keeps s) : anc.Keeps (State.tryReady s) := by
  unfold State.tryReady
  repeat' first
    | with_reducible assumption | with_reducible apply State.logEv_keeps | with_reducible apply State.setModState_keeps
    | with_reducible apply State.wf_keeps | with_reducible apply State.commitTrial_keeps
    | with_reducible refine State.keeps_fields ?_ | with_reducible refine ite_keeps ?_ ?_ | split | dsimp only
    | simp only [State.keeps_mk]

theorem State.leaveGate_keeps {anc : State} (s : State) (hk : anc.Keeps s) : anc.Keeps (State.leaveGate s) := by
  unfold State.leaveGate
  repeat' first
    | with_reducible assumption | with_reducible apply State.wf_keeps | with_reducible apply State.setModState_keeps | dsimp only

theorem State.leaveCut_keeps {anc : State} (s : State) (hk : anc.Keeps s) : anc.Keeps (State.leaveCut s) := by
  unfold State.leaveCut
  repeat' first
    | with_reducible assumption | with_reducible apply State.endLost_keeps | with_reducible apply State.cutCoreClock_keeps
    | with_reducible apply State.sendNotice_keeps | with_reducible apply State.each_keeps
    | with_reducible refine State.keeps_fields ?_ | intro _ | with_reducible refine ite_keeps ?_ ?_ | split | dsimp only
    | simp only [State.keeps_mk]

theorem State.withdrawTorus_keeps {anc : State} (s : State) (hk : anc.Keeps s) : anc.Keeps (State.withdrawTorus s) := by
  unfold State.withdrawTorus
  repeat' first
    | with_reducible assumption | with_reducible apply State.ownLsn_keeps | with_reducible apply State.wf_keeps
    | with_reducible apply State.each_keeps | with_reducible refine State.keeps_fields ?_ | intro _ | dsimp only
    | simp only [State.keeps_mk]

theorem State.leaveProceed_keeps {anc : State} (s : State) (hk : anc.Keeps s) : anc.Keeps (State.leaveProceed s) := by
  unfold State.leaveProceed
  repeat' first
    | with_reducible assumption | with_reducible apply State.withdrawTorus_keeps | with_reducible apply State.leaveCut_keeps
    | dsimp only

theorem State.leaveDone_keeps {anc : State} (s : State) (hk : anc.Keeps s) : anc.Keeps (State.leaveDone s) := by
  unfold State.leaveDone
  repeat' first
    | with_reducible assumption | with_reducible apply State.setModState_keeps | with_reducible apply State.finish_keeps
    | with_reducible refine State.keeps_fields ?_ | with_reducible refine ite_keeps ?_ ?_ | split | dsimp only
    | simp only [State.keeps_mk]

theorem State.dieFailure_keeps {anc : State} (s : State) (cause : Nat) (detail : Nat) (hk : anc.Keeps s) : anc.Keeps (State.dieFailure s cause detail) := by
  unfold State.dieFailure
  repeat' first
    | with_reducible assumption | with_reducible apply State.wf_keeps | with_reducible apply State.leaveProceed_keeps
    | with_reducible apply State.leaveGate_keeps | with_reducible apply State.setModState_keeps
    | with_reducible refine ite_keeps ?_ ?_ | split | dsimp only

theorem State.rebuildMaps_keeps {anc : State} (s : State) (hk : anc.Keeps s) : anc.Keeps (State.rebuildMaps s) := by
  unfold State.rebuildMaps
  repeat' first
    | with_reducible assumption | with_reducible apply State.wf_keeps | with_reducible apply State.fix_keeps
    | with_reducible apply State.each_keeps | intro _ | with_reducible refine ite_keeps ?_ ?_ | split | dsimp only

theorem State.countAbsent_keeps {anc : State} (s : State) (hk : anc.Keeps s) : anc.Keeps (State.countAbsent s) := by
  unfold State.countAbsent
  repeat' first
    | with_reducible assumption | with_reducible apply State.wf_keeps | dsimp only

theorem State.coldReset_keeps {anc : State} (s : State) (power : Bool) (hk : anc.Keeps s) : anc.Keeps (State.coldReset s power) := by
  unfold State.coldReset
  repeat' first
    | with_reducible assumption | with_reducible apply State.progInterrupt_keeps | with_reducible apply State.wf_keeps
    | with_reducible apply State.setPilot_keeps | with_reducible apply State.setInt_keeps
    | with_reducible apply State.countAbsent_keeps | with_reducible apply State.rebuildMaps_keeps
    | with_reducible apply State.each_keeps | with_reducible refine State.keeps_cold_power ?_
    | with_reducible refine State.keeps_cold ?_ | with_reducible refine State.keeps_fields ?_
    | with_reducible refine State.keeps_keep_regs ?_ | with_reducible refine State.keeps_keep_hbm ?_
    | with_reducible refine State.keeps_keep_sram ?_ | intro _ | with_reducible refine ite_keeps ?_ ?_ | split | dsimp only
    | simp only [State.keeps_mk]

theorem State.readStraps_keeps {anc : State} (s : State) (floating : Nat) (hk : anc.Keeps s) : anc.Keeps (State.readStraps s floating) := by
  unfold State.readStraps
  repeat' first
    | with_reducible assumption | with_reducible apply State.boardFault_keeps | with_reducible apply State.wf_keeps | dsimp only

theorem State.coldStart_keeps {anc : State} (s : State) (hk : anc.Keeps s) : anc.Keeps (State.coldStart s) := by
  unfold State.coldStart
  repeat' first
    | with_reducible assumption | with_reducible apply State.phaseStart_keeps | with_reducible apply State.wf_keeps
    | with_reducible apply State.readStraps_keeps | with_reducible apply State.setPwrgd_keeps
    | with_reducible apply State.coldReset_keeps | dsimp only

end Sys2Proof.Machine
end

