-- ==== Sys2Proof/Laws/Keeps/Host.lean ====
section
/-! SUPPORT. Every operation and meaning of Machine/Host.lean leaves the queue alone and keeps the memories and the register table canonical. -/

namespace Sys2Proof.Machine

set_option linter.unreachableTactic false
set_option linter.unusedTactic false

theorem State.portError_keeps {anc : State} (s : State) (p : Nat) (cause : Nat) (hk : anc.Keeps s) : anc.Keeps (State.portError s p cause) := by
  unfold State.portError
  repeat' first
    | with_reducible assumption | with_reducible apply State.qpError_keeps | with_reducible apply State.each_keeps | intro _
    | dsimp only

theorem State.sendEth_keeps {anc : State} (s : State) (p : Nat) (k : EthKind) (ws : List Nat) (hk : anc.Keeps s) : anc.Keeps (State.sendEth s p k ws) := by
  unfold State.sendEth
  repeat' first
    | with_reducible assumption | with_reducible apply State.inc_keeps | with_reducible apply State.emit_keeps | dsimp only

theorem State.sendCm_keeps {anc : State} (s : State) (p : Nat) (k : CmKind) (q : Nat) (bytes : List Nat) (hk : anc.Keeps s) : anc.Keeps (State.sendCm s p k q bytes) := by
  unfold State.sendCm
  repeat' first
    | with_reducible assumption | with_reducible apply State.inc_keeps | with_reducible apply State.emit_keeps | dsimp only

theorem State.advertise_keeps {anc : State} (s : State) (p : Nat) (hk : anc.Keeps s) : anc.Keeps (State.advertise s p) := by
  unfold State.advertise
  repeat' first
    | with_reducible assumption | with_reducible apply State.sendEth_keeps | with_reducible apply State.each_keeps | intro _
    | dsimp only

theorem State.linkComesUp_keeps {anc : State} (s : State) (p : Nat) (hk : anc.Keeps s) : anc.Keeps (State.linkComesUp s p) := by
  unfold State.linkComesUp
  repeat' first
    | with_reducible assumption | with_reducible apply State.wf_keeps | with_reducible apply State.setPort_keeps
    | with_reducible apply State.advertise_keeps | with_reducible apply State.setInt_keeps | with_reducible refine ite_keeps ?_ ?_
    | split | dsimp only

theorem State.linkGoesDown_keeps {anc : State} (s : State) (p : Nat) (hk : anc.Keeps s) : anc.Keeps (State.linkGoesDown s p) := by
  unfold State.linkGoesDown
  repeat' first
    | with_reducible assumption | with_reducible apply State.setPort_keeps | with_reducible apply State.wf_keeps
    | with_reducible apply State.setInt_keeps | with_reducible refine ite_keeps ?_ ?_ | split | dsimp only

theorem State.linkTimeout_keeps {anc : State} (s : State) (p : Nat) (hk : anc.Keeps s) : anc.Keeps (State.linkTimeout s p) := by
  unfold State.linkTimeout
  repeat' first
    | with_reducible assumption | with_reducible apply State.portError_keeps | with_reducible apply State.setPort_keeps
    | with_reducible refine ite_keeps ?_ ?_ | split | dsimp only

theorem State.markCe_keeps {anc : State} (s : State) (p : Nat) (q : Nat) (hk : anc.Keeps s) : anc.Keeps (State.markCe s p q) := by
  unfold State.markCe
  repeat' first
    | with_reducible assumption | with_reducible apply State.inc_keeps | with_reducible apply State.sendEth_keeps
    | with_reducible apply State.setQp_keeps | with_reducible refine ite_keeps ?_ ?_ | split | dsimp only

theorem State.frameReceive_keeps {anc : State} (s : State) (p : Nat) (f : EthFrame) (hk : anc.Keeps s) : anc.Keeps (State.frameReceive s p f) := by
  unfold State.frameReceive
  repeat' first
    | with_reducible assumption | with_reducible apply State.inc_keeps | with_reducible apply State.setInt_keeps
    | with_reducible apply State.markCe_keeps | with_reducible apply State.when_keeps | intro _
    | with_reducible refine ite_keeps ?_ ?_ | split | dsimp only

theorem State.sendPfc_keeps {anc : State} (s : State) (p : Nat) (quanta : Nat) (hk : anc.Keeps s) : anc.Keeps (State.sendPfc s p quanta) := by
  unfold State.sendPfc
  repeat' first
    | with_reducible assumption | with_reducible apply State.sendEth_keeps | dsimp only

theorem State.pfcXoff_keeps {anc : State} (s : State) (p : Nat) (occ : Nat) (hk : anc.Keeps s) : anc.Keeps (State.pfcXoff s p occ) := by
  unfold State.pfcXoff
  repeat' first
    | with_reducible assumption | with_reducible apply State.setPort_keeps | with_reducible apply State.sendPfc_keeps
    | with_reducible refine ite_keeps ?_ ?_ | split | dsimp only

theorem State.pfcRepeat_keeps {anc : State} (s : State) (p : Nat) (occ : Nat) (hk : anc.Keeps s) : anc.Keeps (State.pfcRepeat s p occ) := by
  unfold State.pfcRepeat
  repeat' first
    | with_reducible assumption | with_reducible apply State.setPort_keeps | with_reducible apply State.sendPfc_keeps
    | with_reducible refine ite_keeps ?_ ?_ | split | dsimp only

theorem State.pfcXon_keeps {anc : State} (s : State) (p : Nat) (occ : Nat) (hk : anc.Keeps s) : anc.Keeps (State.pfcXon s p occ) := by
  unfold State.pfcXon
  repeat' first
    | with_reducible assumption | with_reducible apply State.setPort_keeps | with_reducible apply State.sendPfc_keeps
    | with_reducible apply State.when_keeps | intro _ | with_reducible refine ite_keeps ?_ ?_ | split | dsimp only

theorem State.settlePause_keeps {anc : State} (s : State) (p : Nat) (hk : anc.Keeps s) : anc.Keeps (State.settlePause s p) := by
  unfold State.settlePause
  repeat' first
    | with_reducible assumption | with_reducible apply State.setPort_keeps | with_reducible apply State.inc_keeps
    | with_reducible apply foldl_keeps | intro _ | with_reducible refine ite_keeps ?_ ?_ | split | dsimp only

theorem State.pfcReceive_keeps {anc : State} (s : State) (p : Nat) (enable : Nat) (quanta : List Nat) (hk : anc.Keeps s) : anc.Keeps (State.pfcReceive s p enable quanta) := by
  unfold State.pfcReceive
  repeat' first
    | with_reducible assumption | with_reducible apply State.settlePause_keeps | with_reducible apply State.setPort_keeps
    | with_reducible apply foldl_keeps | intro _ | with_reducible refine ite_keeps ?_ ?_ | split | dsimp only

theorem State.rateOf_keeps {anc : State} (s : State) (num : Nat) (den : Nat) (hk : anc.Keeps s) : anc.Keeps (State.rateOf s num den).2 := by
  unfold State.rateOf
  repeat' first
    | with_reducible assumption | with_reducible apply State.draw_keeps
    | refine State.draw_keeps_eq (by with_reducible assumption) ?_ | with_reducible refine ite_keeps ?_ ?_
    | with_reducible refine ite_keeps2 ?_ ?_ | with_reducible refine ite_keeps3 ?_ ?_ | split | dsimp only

theorem State.rateOf_keeps_eq {anc : State} {s : State} {num : Nat} {den : Nat} {r0 tz} (heqx : State.rateOf s num den = (r0, tz)) (hk : anc.Keeps s) : anc.Keeps tz := by
  have := State.rateOf_keeps s num den hk (anc := anc)
  rwa [heqx] at this

theorem State.setRate_keeps {anc : State} (s : State) (q : Nat) (r : Nat) (hk : anc.Keeps s) : anc.Keeps (State.setRate s q r) := by
  unfold State.setRate
  repeat' first
    | with_reducible assumption | with_reducible apply State.wf_keeps | dsimp only

theorem State.cnpReceive_keeps {anc : State} (s : State) (q : Nat) (hk : anc.Keeps s) : anc.Keeps (State.cnpReceive s q) := by
  unfold State.cnpReceive
  repeat' first
    | with_reducible assumption | with_reducible apply State.inc_keeps | with_reducible apply State.rateOf_keeps
    | refine State.rateOf_keeps_eq (by with_reducible assumption) ?_ | with_reducible apply State.setQp_keeps
    | with_reducible apply State.setRate_keeps | with_reducible refine ite_keeps ?_ ?_ | split | dsimp only

theorem State.rateIncrease_keeps {anc : State} (s : State) (q : Nat) (hk : anc.Keeps s) : anc.Keeps (State.rateIncrease s q) := by
  unfold State.rateIncrease
  repeat' first
    | with_reducible assumption | with_reducible apply State.rateOf_keeps
    | refine State.rateOf_keeps_eq (by with_reducible assumption) ?_ | with_reducible apply State.setQp_keeps
    | with_reducible apply State.setRate_keeps | with_reducible refine ite_keeps ?_ ?_ | split | dsimp only

theorem State.arpRequest_keeps {anc : State} (s : State) (p : Nat) (ip : Nat) (hk : anc.Keeps s) : anc.Keeps (State.arpRequest s p ip) := by
  unfold State.arpRequest
  repeat' first
    | with_reducible assumption | with_reducible apply State.sendEth_keeps | with_reducible refine ite_keeps ?_ ?_ | split
    | dsimp only

theorem State.neighbourSolicitation_keeps {anc : State} (s : State) (p : Nat) (hi : Nat) (lo : Nat) (hk : anc.Keeps s) : anc.Keeps (State.neighbourSolicitation s p hi lo) := by
  unfold State.neighbourSolicitation
  repeat' first
    | with_reducible assumption | with_reducible apply State.sendEth_keeps | with_reducible refine ite_keeps ?_ ?_ | split
    | dsimp only

theorem State.lldpSend_keeps {anc : State} (s : State) (p : Nat) (hk : anc.Keeps s) : anc.Keeps (State.lldpSend s p) := by
  unfold State.lldpSend
  repeat' first
    | with_reducible assumption | with_reducible apply State.sendEth_keeps | with_reducible apply State.setPort_keeps
    | with_reducible refine ite_keeps ?_ ?_ | split | dsimp only

theorem State.lldpReceive_keeps {anc : State} (s : State) (p : Nat) (chassis : Nat) (portId : Nat) (hk : anc.Keeps s) : anc.Keeps (State.lldpReceive s p chassis portId) := by
  unfold State.lldpReceive
  repeat' first
    | with_reducible assumption | with_reducible apply State.wf_keeps | with_reducible refine ite_keeps ?_ ?_ | split | dsimp only

theorem State.inboundRdma_keeps {anc : State} (s : State) (q : Nat) (hk : anc.Keeps s) : anc.Keeps (State.inboundRdma s q) := by
  unfold State.inboundRdma
  repeat' first
    | with_reducible assumption | with_reducible apply State.qpError_keeps | with_reducible apply State.setInt_keeps
    | with_reducible apply State.inc_keeps | with_reducible apply State.framesOut_keeps | with_reducible apply State.emit_keeps
    | with_reducible refine ite_keeps ?_ ?_ | split | dsimp only

theorem State.remoteNak_keeps {anc : State} (s : State) (q : Nat) (hk : anc.Keeps s) : anc.Keeps (State.remoteNak s q) := by
  unfold State.remoteNak
  repeat' first
    | with_reducible assumption | with_reducible apply State.qpError_keeps | with_reducible refine ite_keeps ?_ ?_ | split
    | dsimp only

theorem State.cmReq_keeps {anc : State} (s : State) (p : Nat) (r : CmReq) (hk : anc.Keeps s) : anc.Keeps (State.cmReq s p r) := by
  unfold State.cmReq
  repeat' first
    | with_reducible assumption | with_reducible apply State.sendCm_keeps | with_reducible apply State.draw_keeps
    | refine State.draw_keeps_eq (by with_reducible assumption) ?_ | with_reducible apply State.wf_keeps
    | with_reducible apply State.setQp_keeps | with_reducible refine ite_keeps ?_ ?_ | split | dsimp only

theorem State.cmRtu_keeps {anc : State} (s : State) (q : Nat) (hk : anc.Keeps s) : anc.Keeps (State.cmRtu s q) := by
  unfold State.cmRtu
  repeat' first
    | with_reducible assumption | with_reducible apply State.wf_keeps | with_reducible apply State.setQp_keeps
    | with_reducible apply State.countQps_keeps | with_reducible refine ite_keeps ?_ ?_ | split | dsimp only

theorem State.cmRej_keeps {anc : State} (s : State) (q : Nat) (hk : anc.Keeps s) : anc.Keeps (State.cmRej s q) := by
  unfold State.cmRej
  repeat' first
    | with_reducible assumption | with_reducible apply State.qpIdle_keeps | with_reducible refine ite_keeps ?_ ?_ | split
    | dsimp only

theorem State.qpDisconnect_keeps {anc : State} (s : State) (q : Nat) (hk : anc.Keeps s) : anc.Keeps (State.qpDisconnect s q) := by
  unfold State.qpDisconnect
  repeat' first
    | with_reducible assumption | with_reducible apply State.qpLeave_keeps | with_reducible refine ite_keeps ?_ ?_ | split
    | dsimp only

theorem State.cmDreq_keeps {anc : State} (s : State) (q : Nat) (hk : anc.Keeps s) : anc.Keeps (State.cmDreq s q) := by
  unfold State.cmDreq
  repeat' first
    | with_reducible assumption | with_reducible apply State.capture_keeps | with_reducible apply State.qpDisconnect_keeps
    | with_reducible apply State.countQps_keeps | with_reducible apply State.qpIdle_keeps | with_reducible apply State.sendCm_keeps
    | with_reducible refine ite_keeps ?_ ?_ | split | dsimp only

theorem State.cmDrep_keeps {anc : State} (s : State) (q : Nat) (hk : anc.Keeps s) : anc.Keeps (State.cmDrep s q) := by
  unfold State.cmDrep
  repeat' first
    | with_reducible assumption | with_reducible apply State.qpIdle_keeps | with_reducible refine ite_keeps ?_ ?_ | split
    | dsimp only

theorem State.qpClose_keeps {anc : State} (s : State) (q : Nat) (hk : anc.Keeps s) : anc.Keeps (State.qpClose s q) := by
  unfold State.qpClose
  repeat' first
    | with_reducible assumption | with_reducible apply State.countQps_keeps | with_reducible apply State.sendCm_keeps
    | with_reducible apply State.wf_keeps | with_reducible apply State.qpDisconnect_keeps | with_reducible refine ite_keeps ?_ ?_
    | split | dsimp only

theorem State.retransmit_keeps {anc : State} (s : State) (q : Nat) (hk : anc.Keeps s) : anc.Keeps (State.retransmit s q) := by
  unfold State.retransmit
  repeat' first
    | with_reducible assumption | with_reducible apply State.inc_keeps | with_reducible apply State.framesOut_keeps
    | with_reducible apply State.emit_keeps | split | dsimp only

theorem State.rcAck_keeps {anc : State} (s : State) (q : Nat) (kind : Nat) (psn : Nat) (hk : anc.Keeps s) : anc.Keeps (State.rcAck s q kind psn) := by
  unfold State.rcAck
  repeat' first
    | with_reducible assumption | with_reducible apply State.setQp_keeps | with_reducible apply State.retransmit_keeps
    | with_reducible apply State.qpError_keeps | with_reducible refine ite_keeps ?_ ?_ | split | dsimp only

theorem State.rcTimeout_keeps {anc : State} (s : State) (q : Nat) (hk : anc.Keeps s) : anc.Keeps (State.rcTimeout s q) := by
  unfold State.rcTimeout
  repeat' first
    | with_reducible assumption | with_reducible apply State.qpError_keeps | with_reducible apply State.retransmit_keeps
    | with_reducible apply State.setQp_keeps | with_reducible refine ite_keeps ?_ ?_ | split | dsimp only

theorem State.commandTimeout_keeps {anc : State} (s : State) (q : Nat) (id : Nat) (hk : anc.Keeps s) : anc.Keeps (State.commandTimeout s q id) := by
  unfold State.commandTimeout
  repeat' first
    | with_reducible assumption | with_reducible apply State.sendCompletion_keeps | with_reducible apply State.setRec_keeps
    | with_reducible apply State.setCmd_keeps | with_reducible apply State.withdraw_keeps | with_reducible refine ite_keeps ?_ ?_
    | split | dsimp only

theorem State.unknownOpcode_keeps {anc : State} (s : State) (i : Instr) (opcode : Nat) (c : Cmd) (hk : anc.Keeps s) :
    anc.Keeps (State.unknownOpcode s i opcode c) := by
  unfold State.unknownOpcode
  split
  · exact hk
  · exact State.vorane_keeps _ _ _ _ _ _ _ hk fun t h => h

theorem State.nop_keeps {anc : State} (s : State) (i : Instr) (c : Cmd) (hk : anc.Keeps s) : anc.Keeps (State.nop s i c) := by
  unfold State.nop
  repeat' first
    | with_reducible assumption | with_reducible apply State.vorane_keeps | with_reducible apply State.reply_keeps | intro _
    | dsimp only

theorem State.identify_keeps {anc : State} (s : State) (i : Instr) (c : Cmd) (hk : anc.Keeps s) : anc.Keeps (State.identify s i c) := by
  unfold State.identify
  repeat' first
    | with_reducible assumption | with_reducible apply State.vorane_keeps | with_reducible apply State.reply_keeps | intro _
    | dsimp only

theorem execFrameReceive_keeps {anc : State} (port : Nat) (f : EthFrame) (s : State) (hk : anc.Keeps s) : ∃ out, execFrameReceive port f s = .next out ∧ anc.Keeps out := by
  unfold execFrameReceive
  refine ⟨_, rfl, ?_⟩
  repeat' first
    | with_reducible assumption | with_reducible apply State.frameReceive_keeps | dsimp only

theorem execLinkUp_keeps {anc : State} (port : Nat) (s : State) (hk : anc.Keeps s) : ∃ out, execLinkUp port s = .next out ∧ anc.Keeps out := by
  unfold execLinkUp
  refine ⟨_, rfl, ?_⟩
  repeat' first
    | with_reducible assumption | with_reducible apply State.linkComesUp_keeps | dsimp only

theorem execLinkLoss_keeps {anc : State} (port : Nat) (s : State) (hk : anc.Keeps s) : ∃ out, execLinkLoss port s = .next out ∧ anc.Keeps out := by
  unfold execLinkLoss
  refine ⟨_, rfl, ?_⟩
  repeat' first
    | with_reducible assumption | with_reducible apply State.linkGoesDown_keeps | dsimp only

theorem execLinkDownTimeout_keeps {anc : State} (port : Nat) (s : State) (hk : anc.Keeps s) : ∃ out, execLinkDownTimeout port s = .next out ∧ anc.Keeps out := by
  unfold execLinkDownTimeout
  refine ⟨_, rfl, ?_⟩
  repeat' first
    | with_reducible assumption | with_reducible apply State.linkTimeout_keeps | dsimp only

theorem execPfcXoff_keeps {anc : State} (port : Nat) (occ : Nat) (s : State) (hk : anc.Keeps s) : ∃ out, execPfcXoff port occ s = .next out ∧ anc.Keeps out := by
  unfold execPfcXoff
  refine ⟨_, rfl, ?_⟩
  repeat' first
    | with_reducible assumption | with_reducible apply State.pfcXoff_keeps | dsimp only

theorem execPfcRepeat_keeps {anc : State} (port : Nat) (occ : Nat) (s : State) (hk : anc.Keeps s) : ∃ out, execPfcRepeat port occ s = .next out ∧ anc.Keeps out := by
  unfold execPfcRepeat
  refine ⟨_, rfl, ?_⟩
  repeat' first
    | with_reducible assumption | with_reducible apply State.pfcRepeat_keeps | dsimp only

theorem execPfcXon_keeps {anc : State} (port : Nat) (occ : Nat) (s : State) (hk : anc.Keeps s) : ∃ out, execPfcXon port occ s = .next out ∧ anc.Keeps out := by
  unfold execPfcXon
  refine ⟨_, rfl, ?_⟩
  repeat' first
    | with_reducible assumption | with_reducible apply State.pfcXon_keeps | dsimp only

theorem execPfcReceive_keeps {anc : State} (port : Nat) (enable : Nat) (quanta : List Nat) (s : State) (hk : anc.Keeps s) : ∃ out, execPfcReceive port enable quanta s = .next out ∧ anc.Keeps out := by
  unfold execPfcReceive
  refine ⟨_, rfl, ?_⟩
  repeat' first
    | with_reducible assumption | with_reducible apply State.pfcReceive_keeps | dsimp only

theorem execCnpReceive_keeps {anc : State} (qp : Nat) (s : State) (hk : anc.Keeps s) : ∃ out, execCnpReceive qp s = .next out ∧ anc.Keeps out := by
  unfold execCnpReceive
  refine ⟨_, rfl, ?_⟩
  repeat' first
    | with_reducible assumption | with_reducible apply State.cnpReceive_keeps | dsimp only

theorem execRateIncrease_keeps {anc : State} (qp : Nat) (s : State) (hk : anc.Keeps s) : ∃ out, execRateIncrease qp s = .next out ∧ anc.Keeps out := by
  unfold execRateIncrease
  refine ⟨_, rfl, ?_⟩
  repeat' first
    | with_reducible assumption | with_reducible apply State.rateIncrease_keeps | dsimp only

theorem execArpRequest_keeps {anc : State} (port : Nat) (ip : Nat) (s : State) (hk : anc.Keeps s) : ∃ out, execArpRequest port ip s = .next out ∧ anc.Keeps out := by
  unfold execArpRequest
  refine ⟨_, rfl, ?_⟩
  repeat' first
    | with_reducible assumption | with_reducible apply State.arpRequest_keeps | dsimp only

theorem execNeighbourSolicitation_keeps {anc : State} (port : Nat) (hi : Nat) (lo : Nat) (s : State) (hk : anc.Keeps s) : ∃ out, execNeighbourSolicitation port hi lo s = .next out ∧ anc.Keeps out := by
  unfold execNeighbourSolicitation
  refine ⟨_, rfl, ?_⟩
  repeat' first
    | with_reducible assumption | with_reducible apply State.neighbourSolicitation_keeps | dsimp only

theorem execLldpSend_keeps {anc : State} (port : Nat) (s : State) (hk : anc.Keeps s) : ∃ out, execLldpSend port s = .next out ∧ anc.Keeps out := by
  unfold execLldpSend
  refine ⟨_, rfl, ?_⟩
  repeat' first
    | with_reducible assumption | with_reducible apply State.lldpSend_keeps | dsimp only

theorem execLldpReceive_keeps {anc : State} (port : Nat) (chassis : Nat) (portId : Nat) (s : State) (hk : anc.Keeps s) : ∃ out, execLldpReceive port chassis portId s = .next out ∧ anc.Keeps out := by
  unfold execLldpReceive
  refine ⟨_, rfl, ?_⟩
  repeat' first
    | with_reducible assumption | with_reducible apply State.lldpReceive_keeps | dsimp only

theorem execInboundRdma_keeps {anc : State} (qp : Nat) (s : State) (hk : anc.Keeps s) : ∃ out, execInboundRdma qp s = .next out ∧ anc.Keeps out := by
  unfold execInboundRdma
  refine ⟨_, rfl, ?_⟩
  repeat' first
    | with_reducible assumption | with_reducible apply State.inboundRdma_keeps | dsimp only

theorem execRemoteNak_keeps {anc : State} (qp : Nat) (s : State) (hk : anc.Keeps s) : ∃ out, execRemoteNak qp s = .next out ∧ anc.Keeps out := by
  unfold execRemoteNak
  refine ⟨_, rfl, ?_⟩
  repeat' first
    | with_reducible assumption | with_reducible apply State.remoteNak_keeps | dsimp only

theorem execCmReq_keeps {anc : State} (port : Nat) (r : CmReq) (s : State) (hk : anc.Keeps s) : ∃ out, execCmReq port r s = .next out ∧ anc.Keeps out := by
  unfold execCmReq
  refine ⟨_, rfl, ?_⟩
  repeat' first
    | with_reducible assumption | with_reducible apply State.cmReq_keeps | dsimp only

theorem execCmRtu_keeps {anc : State} (qp : Nat) (s : State) (hk : anc.Keeps s) : ∃ out, execCmRtu qp s = .next out ∧ anc.Keeps out := by
  unfold execCmRtu
  refine ⟨_, rfl, ?_⟩
  repeat' first
    | with_reducible assumption | with_reducible apply State.cmRtu_keeps | dsimp only

theorem execCmRej_keeps {anc : State} (qp : Nat) (s : State) (hk : anc.Keeps s) : ∃ out, execCmRej qp s = .next out ∧ anc.Keeps out := by
  unfold execCmRej
  refine ⟨_, rfl, ?_⟩
  repeat' first
    | with_reducible assumption | with_reducible apply State.cmRej_keeps | dsimp only

theorem execCmDreq_keeps {anc : State} (qp : Nat) (s : State) (hk : anc.Keeps s) : ∃ out, execCmDreq qp s = .next out ∧ anc.Keeps out := by
  unfold execCmDreq
  refine ⟨_, rfl, ?_⟩
  repeat' first
    | with_reducible assumption | with_reducible apply State.cmDreq_keeps | dsimp only

theorem execCmDrep_keeps {anc : State} (qp : Nat) (s : State) (hk : anc.Keeps s) : ∃ out, execCmDrep qp s = .next out ∧ anc.Keeps out := by
  unfold execCmDrep
  refine ⟨_, rfl, ?_⟩
  repeat' first
    | with_reducible assumption | with_reducible apply State.cmDrep_keeps | dsimp only

theorem execQpError_keeps {anc : State} (qp : Nat) (cause : Nat) (s : State) (hk : anc.Keeps s) : ∃ out, execQpError qp cause s = .next out ∧ anc.Keeps out := by
  unfold execQpError
  refine ⟨_, rfl, ?_⟩
  repeat' first
    | with_reducible assumption | with_reducible apply State.qpError_keeps | dsimp only

theorem execRcAck_keeps {anc : State} (qp : Nat) (kind : Nat) (psn : Nat) (s : State) (hk : anc.Keeps s) : ∃ out, execRcAck qp kind psn s = .next out ∧ anc.Keeps out := by
  unfold execRcAck
  refine ⟨_, rfl, ?_⟩
  repeat' first
    | with_reducible assumption | with_reducible apply State.rcAck_keeps | dsimp only

theorem execRcRetryTimeout_keeps {anc : State} (qp : Nat) (s : State) (hk : anc.Keeps s) : ∃ out, execRcRetryTimeout qp s = .next out ∧ anc.Keeps out := by
  unfold execRcRetryTimeout
  refine ⟨_, rfl, ?_⟩
  repeat' first
    | with_reducible assumption | with_reducible apply State.rcTimeout_keeps | dsimp only

theorem execCommandTimeout_keeps {anc : State} (qp : Nat) (id : Nat) (s : State) (hk : anc.Keeps s) : ∃ out, execCommandTimeout qp id s = .next out ∧ anc.Keeps out := by
  unfold execCommandTimeout
  refine ⟨_, rfl, ?_⟩
  repeat' first
    | with_reducible assumption | with_reducible apply State.commandTimeout_keeps | dsimp only

theorem execUnknownOpcode_keeps {anc : State} (opcode : Nat) (c : Cmd) (s : State) (hk : anc.Keeps s) : ∃ out, execUnknownOpcode opcode c s = .next out ∧ anc.Keeps out := by
  unfold execUnknownOpcode
  refine ⟨_, rfl, ?_⟩
  repeat' first
    | with_reducible assumption | with_reducible apply State.unknownOpcode_keeps | dsimp only

theorem execNop_keeps {anc : State} (c : Cmd) (s : State) (hk : anc.Keeps s) : ∃ out, execNop c s = .next out ∧ anc.Keeps out := by
  unfold execNop
  refine ⟨_, rfl, ?_⟩
  repeat' first
    | with_reducible assumption | with_reducible apply State.nop_keeps | dsimp only

theorem execIdentify_keeps {anc : State} (c : Cmd) (s : State) (hk : anc.Keeps s) : ∃ out, execIdentify c s = .next out ∧ anc.Keeps out := by
  unfold execIdentify
  refine ⟨_, rfl, ?_⟩
  repeat' first
    | with_reducible assumption | with_reducible apply State.identify_keeps | dsimp only

end Sys2Proof.Machine
end

