-- ==== Sys2Proof/Laws/Keeps/Sema.lean ====
section
/-! SUPPORT. Every operation and meaning of Machine/Sema.lean leaves the queue alone and keeps the memories and the register table canonical. -/

namespace Sys2Proof.Machine

set_option linter.unreachableTactic false
set_option linter.unusedTactic false

theorem State.semAcquire_keeps {anc : State} (s : State) (i : Nat) (holder : Nat) (source : Nat) (leaseMs : Nat) (hk : anc.Keeps s) : anc.Keeps (State.semAcquire s i holder source leaseMs).2 := by
  unfold State.semAcquire
  repeat' first
    | with_reducible assumption | with_reducible apply State.semGrant_keeps | with_reducible apply State.setSem_keeps
    | with_reducible refine ite_keeps ?_ ?_ | with_reducible refine ite_keeps2 ?_ ?_ | with_reducible refine ite_keeps3 ?_ ?_ | split
    | dsimp only

theorem State.semAcquire_keeps_eq {anc : State} {s : State} {i : Nat} {holder : Nat} {source : Nat} {leaseMs : Nat} {r0 tz} (heqx : State.semAcquire s i holder source leaseMs = (r0, tz)) (hk : anc.Keeps s) : anc.Keeps tz := by
  have := State.semAcquire_keeps s i holder source leaseMs hk (anc := anc)
  rwa [heqx] at this

theorem State.semRelease_keeps {anc : State} (s : State) (i : Nat) (holder : Nat) (source : Nat) (hk : anc.Keeps s) : anc.Keeps (State.semRelease s i holder source).2 := by
  unfold State.semRelease
  repeat' first
    | with_reducible assumption | with_reducible apply State.semNext_keeps | with_reducible apply State.semFree_keeps
    | with_reducible refine ite_keeps ?_ ?_ | with_reducible refine ite_keeps2 ?_ ?_ | with_reducible refine ite_keeps3 ?_ ?_ | split
    | dsimp only

theorem State.semRelease_keeps_eq {anc : State} {s : State} {i : Nat} {holder : Nat} {source : Nat} {r0 tz} (heqx : State.semRelease s i holder source = (r0, tz)) (hk : anc.Keeps s) : anc.Keeps tz := by
  have := State.semRelease_keeps s i holder source hk (anc := anc)
  rwa [heqx] at this

theorem State.semAcquireCmd_keeps {anc : State} (s : State) (instr : Instr) (c : Cmd) (hk : anc.Keeps s) : anc.Keeps (State.semAcquireCmd s instr c) := by
  unfold State.semAcquireCmd
  repeat' first
    | with_reducible assumption | with_reducible apply State.vorane_keeps | with_reducible apply State.semAcquire_keeps
    | refine State.semAcquire_keeps_eq (by with_reducible assumption) ?_ | with_reducible apply State.reply_keeps
    | with_reducible apply State.semCount_keeps | with_reducible apply State.setSem_keeps | intro _
    | with_reducible refine ite_keeps ?_ ?_ | split | dsimp only

theorem State.semReleaseCmd_keeps {anc : State} (s : State) (instr : Instr) (c : Cmd) (hk : anc.Keeps s) : anc.Keeps (State.semReleaseCmd s instr c) := by
  unfold State.semReleaseCmd
  repeat' first
    | with_reducible assumption | with_reducible apply State.vorane_keeps | with_reducible apply State.semRelease_keeps
    | refine State.semRelease_keeps_eq (by with_reducible assumption) ?_ | with_reducible apply State.reply_keeps | intro _ | split
    | dsimp only

theorem State.semBreakCmd_keeps {anc : State} (s : State) (instr : Instr) (c : Cmd) (hk : anc.Keeps s) : anc.Keeps (State.semBreakCmd s instr c) := by
  unfold State.semBreakCmd
  repeat' first
    | with_reducible assumption | with_reducible apply State.vorane_keeps | with_reducible apply State.semBreak_keeps
    | with_reducible apply State.reply_keeps | intro _ | with_reducible refine ite_keeps ?_ ?_ | split | dsimp only

theorem State.semOp_keeps {anc : State} (s : State) (holder : Nat) (source : Nat) (i : Nat) (op : Nat) (leaseMs : Nat) (hk : anc.Keeps s) : anc.Keeps (State.semOp s holder source i op leaseMs) := by
  unfold State.semOp
  repeat' first
    | with_reducible assumption | with_reducible apply State.semAcquire_keeps
    | refine State.semAcquire_keeps_eq (by with_reducible assumption) ?_ | with_reducible apply State.semRelease_keeps
    | refine State.semRelease_keeps_eq (by with_reducible assumption) ?_ | with_reducible apply State.semBreak_keeps
    | with_reducible refine ite_keeps ?_ ?_ | split | dsimp only

theorem State.leaseExpiry_keeps {anc : State} (s : State) (i : Nat) (hk : anc.Keeps s) : anc.Keeps (State.leaseExpiry s i) := by
  unfold State.leaseExpiry
  repeat' first
    | with_reducible assumption | with_reducible apply State.semBreak_keeps | with_reducible refine ite_keeps ?_ ?_ | split
    | dsimp only

theorem execSemAcquire_keeps {anc : State} (c : Cmd) (s : State) (hk : anc.Keeps s) : ∃ out, execSemAcquire c s = .next out ∧ anc.Keeps out := by
  unfold execSemAcquire
  refine ⟨_, rfl, ?_⟩
  repeat' first
    | with_reducible assumption | with_reducible apply State.semAcquireCmd_keeps | dsimp only

theorem execSemRelease_keeps {anc : State} (c : Cmd) (s : State) (hk : anc.Keeps s) : ∃ out, execSemRelease c s = .next out ∧ anc.Keeps out := by
  unfold execSemRelease
  refine ⟨_, rfl, ?_⟩
  repeat' first
    | with_reducible assumption | with_reducible apply State.semReleaseCmd_keeps | dsimp only

theorem execSemBreak_keeps {anc : State} (c : Cmd) (s : State) (hk : anc.Keeps s) : ∃ out, execSemBreak c s = .next out ∧ anc.Keeps out := by
  unfold execSemBreak
  refine ⟨_, rfl, ?_⟩
  repeat' first
    | with_reducible assumption | with_reducible apply State.semBreakCmd_keeps | dsimp only

theorem execLeaseExpiry_keeps {anc : State} (i : Nat) (s : State) (hk : anc.Keeps s) : ∃ out, execLeaseExpiry i s = .next out ∧ anc.Keeps out := by
  unfold execLeaseExpiry
  refine ⟨_, rfl, ?_⟩
  repeat' first
    | with_reducible assumption | with_reducible apply State.leaseExpiry_keeps | dsimp only

end Sys2Proof.Machine
end

