-- ==== Sys2Proof/Laws/Keeps/Oasis.lean ====
section
/-! SUPPORT. Every operation and meaning of Machine/Oasis.lean leaves the queue alone and keeps the memories and the register table canonical. -/

namespace Sys2Proof.Machine

set_option linter.unreachableTactic false
set_option linter.unusedTactic false

theorem State.cutCmd_keeps {anc : State} (s : State) (q : Nat) (id : Nat) (hk : anc.Keeps s) : anc.Keeps (State.cutCmd s q id) := by
  unfold State.cutCmd
  repeat' first
    | with_reducible assumption | with_reducible apply State.setRec_keeps | with_reducible apply State.sendCompletion_keeps
    | with_reducible apply State.withdraw_keeps | with_reducible refine State.keeps_fields ?_ | with_reducible refine ite_keeps ?_ ?_
    | split | dsimp only | simp only [State.keeps_mk]

theorem State.abandonStage_keeps {anc : State} (s : State) (hk : anc.Keeps s) : anc.Keeps (State.abandonStage s) := by
  unfold State.abandonStage
  repeat' first
    | with_reducible assumption | with_reducible apply State.cutCmd_keeps | with_reducible apply State.wf_keeps
    | with_reducible refine State.keeps_fields ?_ | split | dsimp only | simp only [State.keeps_mk]

theorem State.trialBad_keeps {anc : State} (s : State) (hk : anc.Keeps s) : anc.Keeps (State.trialBad s) := by
  unfold State.trialBad
  repeat' first
    | with_reducible assumption | with_reducible apply State.wf_keeps | with_reducible refine ite_keeps ?_ ?_ | split | dsimp only

theorem State.logRestart_keeps {anc : State} (s : State) (running : Nat) (hk : anc.Keeps s) : anc.Keeps (State.logRestart s running) := by
  unfold State.logRestart
  repeat' first
    | with_reducible assumption | with_reducible apply State.logEv_keeps | dsimp only

theorem State.oasisEscalate_keeps {anc : State} (s : State) (hk : anc.Keeps s) : anc.Keeps (State.oasisEscalate s) := by
  unfold State.oasisEscalate
  repeat' first
    | with_reducible assumption | with_reducible apply State.raiseAlert_keeps | with_reducible apply State.coldStart_keeps
    | with_reducible apply State.logRestart_keeps | dsimp only

theorem State.oasisRestart_keeps {anc : State} (s : State) (cause : Nat) (hk : anc.Keeps s) : anc.Keeps (State.oasisRestart s cause) := by
  unfold State.oasisRestart
  repeat' first
    | with_reducible assumption | with_reducible apply State.incSat_keeps | with_reducible apply State.wf_keeps
    | with_reducible apply State.oasisEscalate_keeps | with_reducible apply State.trialBad_keeps
    | with_reducible apply State.abandonStage_keeps | with_reducible refine State.keeps_fields ?_
    | with_reducible refine ite_keeps ?_ ?_ | split | dsimp only | simp only [State.keeps_mk]

theorem State.oasisRunning_keeps {anc : State} (s : State) (ok : Bool) (hk : anc.Keeps s) : anc.Keeps (State.oasisRunning s ok) := by
  unfold State.oasisRunning
  repeat' first
    | with_reducible assumption | with_reducible apply State.oasisEscalate_keeps | with_reducible apply State.raiseAlert_keeps
    | with_reducible apply State.logRestart_keeps | with_reducible apply State.setInt_keeps | with_reducible apply State.wf_keeps
    | with_reducible refine State.keeps_fields ?_ | with_reducible refine ite_keeps ?_ ?_ | split | dsimp only
    | simp only [State.keeps_mk]

theorem State.oasisOverrun_keeps {anc : State} (s : State) (hk : anc.Keeps s) : anc.Keeps (State.oasisOverrun s) := by
  unfold State.oasisOverrun
  repeat' first
    | with_reducible assumption | with_reducible apply State.oasisEscalate_keeps | with_reducible refine ite_keeps ?_ ?_ | split
    | dsimp only

theorem State.heartbeat_keeps {anc : State} (s : State) (i : Instr) (c : Cmd) (hk : anc.Keeps s) : anc.Keeps (State.heartbeat s i c) := by
  unfold State.heartbeat
  repeat' first
    | with_reducible assumption | with_reducible apply State.vorane_keeps | with_reducible apply State.wf_keeps
    | with_reducible apply State.oasisRestart_keeps | with_reducible apply State.takeEffect_keeps
    | with_reducible apply State.when_keeps | with_reducible refine State.keeps_fields ?_ | intro _ | dsimp only
    | simp only [State.keeps_mk]

theorem State.hbEcho_keeps {anc : State} (s : State) (hk : anc.Keeps s) : anc.Keeps (State.hbEcho s) := by
  unfold State.hbEcho
  repeat' first
    | with_reducible assumption | with_reducible apply State.wf_keeps | with_reducible apply State.finish_keeps
    | with_reducible apply State.each_keeps | with_reducible refine State.keeps_fields ?_ | intro _
    | with_reducible refine ite_keeps ?_ ?_ | split | dsimp only | simp only [State.keeps_mk]

theorem State.beatTimeout_keeps {anc : State} (s : State) (q : Nat) (id : Nat) (hk : anc.Keeps s) : anc.Keeps (State.beatTimeout s q id) := by
  unfold State.beatTimeout
  repeat' first
    | with_reducible assumption | with_reducible apply State.setInt_keeps | with_reducible apply State.incSat_keeps
    | with_reducible apply State.finish_keeps | with_reducible refine State.keeps_fields ?_ | with_reducible refine ite_keeps ?_ ?_
    | split | dsimp only | simp only [State.keeps_mk]

theorem State.wdHost_keeps {anc : State} (s : State) (hk : anc.Keeps s) : anc.Keeps (State.wdHost s) := by
  unfold State.wdHost
  repeat' first
    | with_reducible assumption | with_reducible apply State.oasisRestart_keeps | with_reducible refine State.keeps_fields ?_
    | with_reducible refine ite_keeps ?_ ?_ | split | dsimp only | simp only [State.keeps_mk]

theorem State.wdRound_keeps {anc : State} (s : State) (hk : anc.Keeps s) : anc.Keeps (State.wdRound s) := by
  unfold State.wdRound
  repeat' first
    | with_reducible assumption | with_reducible apply State.oasisRestart_keeps | with_reducible refine ite_keeps ?_ ?_ | split
    | dsimp only

theorem State.hostSilent_keeps {anc : State} (s : State) (hk : anc.Keeps s) : anc.Keeps (State.hostSilent s) := by
  unfold State.hostSilent
  repeat' first
    | with_reducible assumption | with_reducible apply State.logEv_keeps | with_reducible apply State.setInt_keeps
    | with_reducible apply State.wf_keeps | with_reducible refine ite_keeps ?_ ?_ | split | dsimp only

theorem State.timeStep_keeps {anc : State} (s : State) (off : Nat) (src : Nat) (hk : anc.Keeps s) : anc.Keeps (State.timeStep s off src) := by
  unfold State.timeStep
  repeat' first
    | with_reducible assumption | with_reducible apply State.inc_keeps | with_reducible apply State.wf_keeps
    | with_reducible apply State.logEv_keeps | with_reducible apply State.setInt_keeps | with_reducible apply State.when_keeps
    | with_reducible refine State.keeps_fields ?_ | intro _ | dsimp only | simp only [State.keeps_mk]

theorem State.slewBy_keeps {anc : State} (s : State) (off : Int) (full : Bool) (hk : anc.Keeps s) : anc.Keeps (State.slewBy s off full) := by
  unfold State.slewBy
  repeat' first
    | with_reducible assumption | with_reducible apply State.draw_keeps
    | refine State.draw_keeps_eq (by with_reducible assumption) ?_ | with_reducible apply State.wf_keeps
    | with_reducible refine State.keeps_fields ?_ | with_reducible refine ite_keeps ?_ ?_ | split | dsimp only
    | simp only [State.keeps_mk]

theorem State.tickTime_keeps {anc : State} (s : State) (hk : anc.Keeps s) : anc.Keeps (State.tickTime s) := by
  unfold State.tickTime
  repeat' first
    | with_reducible assumption | with_reducible apply State.wf_keeps | with_reducible refine State.keeps_fields ?_
    | with_reducible refine ite_keeps ?_ ?_ | split | dsimp only | simp only [State.keeps_mk]

theorem State.setSync_keeps {anc : State} (s : State) (st : Nat) (hk : anc.Keeps s) : anc.Keeps (State.setSync s st) := by
  unfold State.setSync
  repeat' first
    | with_reducible assumption | with_reducible apply State.setInt_keeps | with_reducible apply State.wf_keeps
    | with_reducible refine ite_keeps ?_ ?_ | split | dsimp only

theorem State.syncLock_keeps {anc : State} (s : State) (st : Nat) (bound : Option Nat) (hk : anc.Keeps s) : anc.Keeps (State.syncLock s st bound) := by
  unfold State.syncLock
  repeat' first
    | with_reducible assumption | with_reducible apply State.wf_keeps | with_reducible apply State.draw_keeps
    | refine State.draw_keeps_eq (by with_reducible assumption) ?_ | with_reducible apply State.setSync_keeps
    | with_reducible refine State.keeps_fields ?_ | with_reducible refine ite_keeps ?_ ?_ | split | dsimp only
    | simp only [State.keeps_mk]

theorem State.syncMode_keeps {anc : State} (s : State) (hk : anc.Keeps s) : anc.Keeps (State.syncMode s) := by
  unfold State.syncMode
  repeat' first
    | with_reducible assumption | with_reducible apply State.setSync_keeps | with_reducible refine ite_keeps ?_ ?_ | split
    | dsimp only

theorem State.servo_keeps {anc : State} (s : State) (off : Int) (src : Nat) (bound : Option Nat) (hk : anc.Keeps s) : anc.Keeps (State.servo s off src bound) := by
  unfold State.servo
  repeat' first
    | with_reducible assumption | with_reducible apply State.syncLock_keeps | with_reducible apply State.wf_keeps
    | with_reducible apply State.timeStep_keeps | with_reducible apply State.logEv_keeps | with_reducible apply State.setInt_keeps
    | with_reducible apply State.slewBy_keeps | with_reducible refine ite_keeps ?_ ?_ | split | dsimp only

theorem State.syncLost_keeps {anc : State} (s : State) (hk : anc.Keeps s) : anc.Keeps (State.syncLost s) := by
  unfold State.syncLost
  repeat' first
    | with_reducible assumption | with_reducible apply State.logEv_keeps | with_reducible apply State.setSync_keeps
    | with_reducible refine State.keeps_fields ?_ | with_reducible refine ite_keeps ?_ ?_ | split | dsimp only
    | simp only [State.keeps_mk]

theorem State.timeSet_keeps {anc : State} (s : State) (i : Instr) (c : Cmd) (hk : anc.Keeps s) : anc.Keeps (State.timeSet s i c) := by
  unfold State.timeSet
  repeat' first
    | with_reducible assumption | with_reducible apply State.vorane_keeps | with_reducible apply State.reply_keeps
    | with_reducible apply State.timeStep_keeps | with_reducible apply State.slewBy_keeps | intro _
    | with_reducible refine ite_keeps ?_ ?_ | split | dsimp only

theorem State.setPtp_keeps {anc : State} (s : State) (p : Nat) (st : Nat) (hk : anc.Keeps s) : anc.Keeps (State.setPtp s p st) := by
  unfold State.setPtp
  repeat' first
    | with_reducible assumption | with_reducible apply State.setInt_keeps | with_reducible apply State.wf_keeps
    | with_reducible refine ite_keeps ?_ ?_ | split | dsimp only

theorem State.ptpSync_keeps {anc : State} (s : State) (p : Nat) (domain : Nat) (seq : Nat) (twoStep : Bool) (hk : anc.Keeps s) : anc.Keeps (State.ptpSync s p domain seq twoStep) := by
  unfold State.ptpSync
  repeat' first
    | with_reducible assumption | with_reducible apply State.inc_keeps | with_reducible apply State.wf_keeps
    | with_reducible apply State.setPort_keeps | with_reducible refine ite_keeps ?_ ?_ | split | dsimp only

theorem State.ptpOffset_keeps {anc : State} (s : State) (p : Nat) (hk : anc.Keeps s) : anc.Keeps (State.ptpOffset s p) := by
  unfold State.ptpOffset
  repeat' first
    | with_reducible assumption | with_reducible apply State.wf_keeps | with_reducible apply State.servo_keeps
    | with_reducible apply State.when_keeps | intro _ | dsimp only

theorem State.ptpFollowUp_keeps {anc : State} (s : State) (p : Nat) (domain : Nat) (seq : Nat) (t1 : Nat) (hk : anc.Keeps s) : anc.Keeps (State.ptpFollowUp s p domain seq t1) := by
  unfold State.ptpFollowUp
  repeat' first
    | with_reducible assumption | with_reducible apply State.inc_keeps | with_reducible apply State.setPort_keeps
    | with_reducible apply State.sendEth_keeps | with_reducible apply State.ptpOffset_keeps | with_reducible refine ite_keeps ?_ ?_
    | split | dsimp only

theorem State.ptpAnnounce_keeps {anc : State} (s : State) (p : Nat) (domain : Nat) (gm : Nat) (hk : anc.Keeps s) : anc.Keeps (State.ptpAnnounce s p domain gm) := by
  unfold State.ptpAnnounce
  repeat' first
    | with_reducible assumption | with_reducible apply State.wf_keeps | with_reducible apply State.setPtp_keeps
    | with_reducible refine ite_keeps ?_ ?_ | split | dsimp only

theorem State.ptpDelayResp_keeps {anc : State} (s : State) (p : Nat) (domain : Nat) (seq : Nat) (t4 : Nat) (hk : anc.Keeps s) : anc.Keeps (State.ptpDelayResp s p domain seq t4) := by
  unfold State.ptpDelayResp
  repeat' first
    | with_reducible assumption | with_reducible apply State.wf_keeps | with_reducible apply State.setPort_keeps
    | with_reducible apply State.setPtp_keeps | with_reducible apply State.ptpOffset_keeps | with_reducible apply State.when_keeps
    | intro _ | with_reducible refine ite_keeps ?_ ?_ | split | dsimp only

theorem State.ptpManagement_keeps {anc : State} (s : State) (p : Nat) (domain : Nat) (ws : List Nat) (hk : anc.Keeps s) : anc.Keeps (State.ptpManagement s p domain ws) := by
  unfold State.ptpManagement
  repeat' first
    | with_reducible assumption | with_reducible apply State.sendEth_keeps | with_reducible refine ite_keeps ?_ ?_ | split
    | dsimp only

theorem State.logEvent_keeps {anc : State} (s : State) (hk : anc.Keeps s) : anc.Keeps (State.logEvent s) := by
  unfold State.logEvent
  repeat' first
    | with_reducible assumption | with_reducible apply State.writeRec_keeps | with_reducible apply State.wf_keeps
    | with_reducible refine State.keeps_fields ?_ | with_reducible refine ite_keeps ?_ ?_ | split | dsimp only
    | simp only [State.keeps_mk]

theorem State.eventSend_keeps {anc : State} (s : State) (q : Nat) (hk : anc.Keeps s) : anc.Keeps (State.eventSend s q) := by
  unfold State.eventSend
  repeat' first
    | with_reducible assumption | with_reducible apply State.sendQp_keeps | with_reducible apply State.setQp_keeps
    | with_reducible refine ite_keeps ?_ ?_ | split | dsimp only

theorem State.eventSubscribe_keeps {anc : State} (s : State) (i : Instr) (c : Cmd) (hk : anc.Keeps s) : anc.Keeps (State.eventSubscribe s i c) := by
  unfold State.eventSubscribe
  repeat' first
    | with_reducible assumption | with_reducible apply State.vorane_keeps | with_reducible apply State.reply_keeps
    | with_reducible apply State.wf_keeps | with_reducible apply State.setQp_keeps | intro _ | with_reducible refine ite_keeps ?_ ?_
    | split | dsimp only

theorem State.logRead_keeps {anc : State} (s : State) (i : Instr) (c : Cmd) (hk : anc.Keeps s) : anc.Keeps (State.logRead s i c) := by
  unfold State.logRead
  repeat' first
    | with_reducible assumption | with_reducible apply State.vorane_keeps | with_reducible apply State.reply_keeps | intro _
    | with_reducible refine ite_keeps ?_ ?_ | split | dsimp only

theorem State.pageInterrupt_keeps {anc : State} (s : State) (hk : anc.Keeps s) : anc.Keeps (State.pageInterrupt s) := by
  unfold State.pageInterrupt
  repeat' first
    | with_reducible assumption | with_reducible apply State.logEv_keeps | with_reducible refine State.keeps_fields ?_
    | with_reducible refine ite_keeps ?_ ?_ | split | dsimp only | simp only [State.keeps_mk]

theorem State.statusQuery_keeps {anc : State} (s : State) (i : Instr) (c : Cmd) (hk : anc.Keeps s) : anc.Keeps (State.statusQuery s i c) := by
  unfold State.statusQuery
  repeat' first
    | with_reducible assumption | with_reducible apply State.vorane_keeps | with_reducible apply State.reply_keeps | intro _
    | dsimp only

theorem execPtpSync_keeps {anc : State} (port : Nat) (domain : Nat) (seq : Nat) (twoStep : Bool) (s : State) (hk : anc.Keeps s) : ∃ out, execPtpSync port domain seq twoStep s = .next out ∧ anc.Keeps out := by
  unfold execPtpSync
  refine ⟨_, rfl, ?_⟩
  repeat' first
    | with_reducible assumption | with_reducible apply State.ptpSync_keeps | dsimp only

theorem execPtpFollowUp_keeps {anc : State} (port : Nat) (domain : Nat) (seq : Nat) (t1 : Nat) (s : State) (hk : anc.Keeps s) : ∃ out, execPtpFollowUp port domain seq t1 s = .next out ∧ anc.Keeps out := by
  unfold execPtpFollowUp
  refine ⟨_, rfl, ?_⟩
  repeat' first
    | with_reducible assumption | with_reducible apply State.ptpFollowUp_keeps | dsimp only

theorem execPtpAnnounce_keeps {anc : State} (port : Nat) (domain : Nat) (gm : Nat) (s : State) (hk : anc.Keeps s) : ∃ out, execPtpAnnounce port domain gm s = .next out ∧ anc.Keeps out := by
  unfold execPtpAnnounce
  refine ⟨_, rfl, ?_⟩
  repeat' first
    | with_reducible assumption | with_reducible apply State.ptpAnnounce_keeps | dsimp only

theorem execPtpDelayResp_keeps {anc : State} (port : Nat) (domain : Nat) (seq : Nat) (t4 : Nat) (s : State) (hk : anc.Keeps s) : ∃ out, execPtpDelayResp port domain seq t4 s = .next out ∧ anc.Keeps out := by
  unfold execPtpDelayResp
  refine ⟨_, rfl, ?_⟩
  repeat' first
    | with_reducible assumption | with_reducible apply State.ptpDelayResp_keeps | dsimp only

theorem execPtpManagement_keeps {anc : State} (port : Nat) (domain : Nat) (words : List Nat) (s : State) (hk : anc.Keeps s) : ∃ out, execPtpManagement port domain words s = .next out ∧ anc.Keeps out := by
  unfold execPtpManagement
  refine ⟨_, rfl, ?_⟩
  repeat' first
    | with_reducible assumption | with_reducible apply State.ptpManagement_keeps | dsimp only

theorem execWdLoop_keeps {anc : State} (s : State) (hk : anc.Keeps s) : ∃ out, execWdLoop s = .next out ∧ anc.Keeps out := by
  unfold execWdLoop
  refine ⟨_, rfl, ?_⟩
  repeat' first
    | with_reducible assumption | with_reducible apply State.oasisRestart_keeps | dsimp only

theorem execWdRound_keeps {anc : State} (s : State) (hk : anc.Keeps s) : ∃ out, execWdRound s = .next out ∧ anc.Keeps out := by
  unfold execWdRound
  refine ⟨_, rfl, ?_⟩
  repeat' first
    | with_reducible assumption | with_reducible apply State.wdRound_keeps | dsimp only

theorem execWdHost_keeps {anc : State} (s : State) (hk : anc.Keeps s) : ∃ out, execWdHost s = .next out ∧ anc.Keeps out := by
  unfold execWdHost
  refine ⟨_, rfl, ?_⟩
  repeat' first
    | with_reducible assumption | with_reducible apply State.wdHost_keeps | dsimp only

theorem execOasisRestartDone_keeps {anc : State} (ok : Bool) (s : State) (hk : anc.Keeps s) : ∃ out, execOasisRestartDone ok s = .next out ∧ anc.Keeps out := by
  unfold execOasisRestartDone
  refine ⟨_, rfl, ?_⟩
  repeat' first
    | with_reducible assumption | with_reducible apply State.oasisRunning_keeps | dsimp only

theorem execOasisRestartTimeout_keeps {anc : State} (s : State) (hk : anc.Keeps s) : ∃ out, execOasisRestartTimeout s = .next out ∧ anc.Keeps out := by
  unfold execOasisRestartTimeout
  refine ⟨_, rfl, ?_⟩
  repeat' first
    | with_reducible assumption | with_reducible apply State.oasisOverrun_keeps | dsimp only

theorem execHeartbeat_keeps {anc : State} (c : Cmd) (s : State) (hk : anc.Keeps s) : ∃ out, execHeartbeat c s = .next out ∧ anc.Keeps out := by
  unfold execHeartbeat
  refine ⟨_, rfl, ?_⟩
  repeat' first
    | with_reducible assumption | with_reducible apply State.heartbeat_keeps | dsimp only

theorem execHeartbeatRestart_keeps {anc : State} (c : Cmd) (s : State) (hk : anc.Keeps s) : ∃ out, execHeartbeatRestart c s = .next out ∧ anc.Keeps out := by
  unfold execHeartbeatRestart
  refine ⟨_, rfl, ?_⟩
  repeat' first
    | with_reducible assumption | with_reducible apply State.heartbeat_keeps | dsimp only

theorem execHbEcho_keeps {anc : State} (s : State) (hk : anc.Keeps s) : ∃ out, execHbEcho s = .next out ∧ anc.Keeps out := by
  unfold execHbEcho
  refine ⟨_, rfl, ?_⟩
  repeat' first
    | with_reducible assumption | with_reducible apply State.hbEcho_keeps | dsimp only

theorem execHeartbeatEchoTimeout_keeps {anc : State} (qp : Nat) (id : Nat) (s : State) (hk : anc.Keeps s) : ∃ out, execHeartbeatEchoTimeout qp id s = .next out ∧ anc.Keeps out := by
  unfold execHeartbeatEchoTimeout
  refine ⟨_, rfl, ?_⟩
  repeat' first
    | with_reducible assumption | with_reducible apply State.beatTimeout_keeps | dsimp only

theorem execHostSilent_keeps {anc : State} (s : State) (hk : anc.Keeps s) : ∃ out, execHostSilent s = .next out ∧ anc.Keeps out := by
  unfold execHostSilent
  refine ⟨_, rfl, ?_⟩
  repeat' first
    | with_reducible assumption | with_reducible apply State.hostSilent_keeps | dsimp only

theorem execTimeSetStep_keeps {anc : State} (c : Cmd) (s : State) (hk : anc.Keeps s) : ∃ out, execTimeSetStep c s = .next out ∧ anc.Keeps out := by
  unfold execTimeSetStep
  refine ⟨_, rfl, ?_⟩
  repeat' first
    | with_reducible assumption | with_reducible apply State.timeSet_keeps | dsimp only

theorem execTimeSetSlew_keeps {anc : State} (c : Cmd) (s : State) (hk : anc.Keeps s) : ∃ out, execTimeSetSlew c s = .next out ∧ anc.Keeps out := by
  unfold execTimeSetSlew
  refine ⟨_, rfl, ?_⟩
  repeat' first
    | with_reducible assumption | with_reducible apply State.timeSet_keeps | dsimp only

theorem execSyncSourceLost_keeps {anc : State} (s : State) (hk : anc.Keeps s) : ∃ out, execSyncSourceLost s = .next out ∧ anc.Keeps out := by
  unfold execSyncSourceLost
  refine ⟨_, rfl, ?_⟩
  repeat' first
    | with_reducible assumption | with_reducible apply State.syncLost_keeps | dsimp only

theorem execLogEvent_keeps {anc : State} (s : State) (hk : anc.Keeps s) : ∃ out, execLogEvent s = .next out ∧ anc.Keeps out := by
  unfold execLogEvent
  refine ⟨_, rfl, ?_⟩
  repeat' first
    | with_reducible assumption | with_reducible apply State.logEvent_keeps | dsimp only

theorem execEventSend_keeps {anc : State} (qp : Nat) (s : State) (hk : anc.Keeps s) : ∃ out, execEventSend qp s = .next out ∧ anc.Keeps out := by
  unfold execEventSend
  refine ⟨_, rfl, ?_⟩
  repeat' first
    | with_reducible assumption | with_reducible apply State.eventSend_keeps | dsimp only

theorem execEventSubscribe_keeps {anc : State} (c : Cmd) (s : State) (hk : anc.Keeps s) : ∃ out, execEventSubscribe c s = .next out ∧ anc.Keeps out := by
  unfold execEventSubscribe
  refine ⟨_, rfl, ?_⟩
  repeat' first
    | with_reducible assumption | with_reducible apply State.eventSubscribe_keeps | dsimp only

theorem execLogRead_keeps {anc : State} (c : Cmd) (s : State) (hk : anc.Keeps s) : ∃ out, execLogRead c s = .next out ∧ anc.Keeps out := by
  unfold execLogRead
  refine ⟨_, rfl, ?_⟩
  repeat' first
    | with_reducible assumption | with_reducible apply State.logRead_keeps | dsimp only

theorem execStatusQuery_keeps {anc : State} (c : Cmd) (s : State) (hk : anc.Keeps s) : ∃ out, execStatusQuery c s = .next out ∧ anc.Keeps out := by
  unfold execStatusQuery
  refine ⟨_, rfl, ?_⟩
  repeat' first
    | with_reducible assumption | with_reducible apply State.statusQuery_keeps | dsimp only

theorem execPageInterrupt_keeps {anc : State} (s : State) (hk : anc.Keeps s) : ∃ out, execPageInterrupt s = .next out ∧ anc.Keeps out := by
  unfold execPageInterrupt
  refine ⟨_, rfl, ?_⟩
  repeat' first
    | with_reducible assumption | with_reducible apply State.pageInterrupt_keeps | dsimp only

end Sys2Proof.Machine
end

