-- ==== Sys2Proof/Laws/Keeps/Torus.lean ====
section
/-! SUPPORT. Every operation and meaning of Machine/Torus.lean leaves the queue alone and keeps the memories and the register table canonical. -/

namespace Sys2Proof.Machine

set_option linter.unreachableTactic false
set_option linter.unusedTactic false

theorem State.judgeAgreement_keeps {anc : State} (s : State) (hk : anc.Keeps s) : anc.Keeps (State.judgeAgreement s) := by
  unfold State.judgeAgreement
  repeat' first
    | with_reducible assumption | with_reducible apply State.wf_keeps | with_reducible apply State.tryReady_keeps
    | with_reducible apply State.setInt_keeps | with_reducible apply State.when_keeps | intro _ | dsimp only

theorem State.dirCheck_keeps {anc : State} (s : State) (d : Nat) (hk : anc.Keeps s) : anc.Keeps (State.dirCheck s d) := by
  unfold State.dirCheck
  repeat' first
    | with_reducible assumption | with_reducible apply State.judgeAgreement_keeps | with_reducible apply State.wf_keeps
    | with_reducible apply State.logEv_keeps | with_reducible apply State.setInt_keeps | with_reducible apply State.ownLsn_keeps
    | with_reducible apply State.boardFault_keeps | with_reducible apply State.when_keeps | intro _
    | with_reducible refine ite_keeps ?_ ?_ | split | dsimp only

theorem State.linkFail_keeps {anc : State} (s : State) (d : Nat) (lanesLow : Bool) (hk : anc.Keeps s) : anc.Keeps (State.linkFail s d lanesLow) := by
  unfold State.linkFail
  repeat' first
    | with_reducible assumption | with_reducible apply State.wf_keeps | with_reducible apply State.blockErr_keeps
    | with_reducible apply State.setDir_keeps | with_reducible apply State.dirCheck_keeps | with_reducible apply State.ownLsn_keeps
    | with_reducible refine ite_keeps ?_ ?_ | split | dsimp only

theorem State.detour_keeps {anc : State} (s : State) (d : Nat) (f : Frame) (hk : anc.Keeps s) : anc.Keeps (State.detour s d f) := by
  unfold State.detour
  repeat' first
    | with_reducible assumption | with_reducible apply State.unroutable_keeps | with_reducible apply State.wf_keeps
    | with_reducible apply State.setInt_keeps | with_reducible apply State.inc_keeps | with_reducible apply State.setDir_keeps
    | with_reducible apply State.borsanTx_keeps | with_reducible refine ite_keeps ?_ ?_ | split | dsimp only

theorem State.releaseFailed_keeps {anc : State} (s : State) (d : Nat) (after : Option Nat) (hk : anc.Keeps s) : anc.Keeps (State.releaseFailed s d after) := by
  unfold State.releaseFailed
  repeat' first
    | with_reducible assumption | with_reducible apply State.wf_keeps | with_reducible apply State.setDir_keeps
    | with_reducible apply State.unroutable_keeps | with_reducible apply State.inc_keeps | with_reducible apply State.detour_keeps
    | with_reducible apply State.each_keeps | intro _ | split | dsimp only

theorem State.peerLsnTimeout_keeps {anc : State} (s : State) (d : Nat) (hk : anc.Keeps s) : anc.Keeps (State.peerLsnTimeout s d) := by
  unfold State.peerLsnTimeout
  repeat' first
    | with_reducible assumption | with_reducible apply State.releaseFailed_keeps | with_reducible refine ite_keeps ?_ ?_ | split
    | dsimp only

theorem State.lsnReceive_keeps {anc : State} (s : State) (d : Nat) (l : Lsn) (hk : anc.Keeps s) : anc.Keeps (State.lsnReceive s d l) := by
  unfold State.lsnReceive
  repeat' first
    | with_reducible assumption | with_reducible apply State.flood_keeps | with_reducible apply State.storeLsn_keeps
    | with_reducible apply State.releaseFailed_keeps | with_reducible apply State.each_keeps | intro _
    | with_reducible refine ite_keeps ?_ ?_ | split | dsimp only

theorem State.setLanes_keeps {anc : State} (s : State) (d : Nat) (good : Nat) (active : Nat) (hk : anc.Keeps s) : anc.Keeps (State.setLanes s d good active) := by
  unfold State.setLanes
  repeat' first
    | with_reducible assumption | with_reducible apply State.wf_keeps | dsimp only

theorem State.laneChange_keeps {anc : State} (s : State) (d : Nat) (hk : anc.Keeps s) : anc.Keeps (State.laneChange s d) := by
  unfold State.laneChange
  repeat' first
    | with_reducible assumption | with_reducible apply State.unitEv_keeps | with_reducible apply State.setInt_keeps
    | with_reducible apply State.wf_keeps | dsimp only

theorem State.laneBad_keeps {anc : State} (s0 : State) (d : Nat) (lane : Nat) (power : Nat) (hk : anc.Keeps s0) : anc.Keeps (State.laneBad s0 d lane power) := by
  unfold State.laneBad
  repeat' first
    | with_reducible assumption | with_reducible apply State.wf_keeps | with_reducible apply State.setDir_keeps
    | with_reducible apply State.setLanes_keeps | with_reducible apply State.laneChange_keeps
    | with_reducible apply State.linkFail_keeps | with_reducible apply State.transmit_keeps
    | with_reducible refine State.keeps_del_regs ?_ | with_reducible refine ite_keeps ?_ ?_ | split | dsimp only

theorem State.laneFrame_keeps {anc : State} (s : State) (d : Nat) (active : Nat) (hk : anc.Keeps s) : anc.Keeps (State.laneFrame s d active) := by
  unfold State.laneFrame
  repeat' first
    | with_reducible assumption | with_reducible apply State.laneChange_keeps | with_reducible apply State.wf_keeps
    | with_reducible apply State.linkFail_keeps | with_reducible refine ite_keeps ?_ ?_ | split | dsimp only

theorem State.laneRetrain_keeps {anc : State} (s : State) (d : Nat) (lane : Nat) (ok : Bool) (hk : anc.Keeps s) : anc.Keeps (State.laneRetrain s d lane ok) := by
  unfold State.laneRetrain
  repeat' first
    | with_reducible assumption | with_reducible apply State.setDir_keeps | with_reducible apply State.laneChange_keeps
    | with_reducible apply State.setLanes_keeps | with_reducible apply State.transmit_keeps
    | with_reducible refine State.keeps_put_regs ?_ | with_reducible refine State.keeps_del_regs ?_
    | with_reducible refine ite_keeps ?_ ?_ | split | dsimp only

theorem State.fibreLight_keeps {anc : State} (s : State) (d : Nat) (tx : Nat) (rx : Nat) (hk : anc.Keeps s) : anc.Keeps (State.fibreLight s d tx rx) := by
  unfold State.fibreLight
  repeat' first
    | with_reducible assumption | with_reducible apply State.wf_keeps | with_reducible apply State.boardFault_keeps
    | with_reducible apply State.linkFail_keeps | with_reducible apply State.dirCheck_keeps | with_reducible apply State.each_keeps
    | with_reducible apply State.when_keeps | intro _ | with_reducible refine ite_keeps ?_ ?_ | split | dsimp only

theorem State.linkTrained_keeps {anc : State} (s : State) (d : Nat) (lanes : Nat) (txCount : Nat) (pos : List Nat) (power : List Nat) (hk : anc.Keeps s) : anc.Keeps (State.linkTrained s d lanes txCount pos power) := by
  unfold State.linkTrained
  repeat' first
    | with_reducible assumption | with_reducible apply State.wf_keeps | with_reducible apply State.logEv_keeps
    | with_reducible apply State.setLanes_keeps | with_reducible apply State.dirCheck_keeps | with_reducible apply State.setDir_keeps
    | with_reducible apply State.setInt_keeps | with_reducible apply State.each_keeps | with_reducible apply foldl_keeps
    | with_reducible apply State.when_keeps | intro _ | with_reducible refine ite_keeps ?_ ?_ | split | dsimp only

theorem State.borsanAck_keeps {anc : State} (s : State) (d : Nat) (seq : Nat) (hk : anc.Keeps s) : anc.Keeps (State.borsanAck s d seq) := by
  unfold State.borsanAck
  repeat' first
    | with_reducible assumption | with_reducible apply State.txPump_keeps | with_reducible apply State.setDir_keeps
    | with_reducible refine ite_keeps ?_ ?_ | split | dsimp only

theorem State.borsanNak_keeps {anc : State} (s : State) (d : Nat) (seq : Nat) (hk : anc.Keeps s) : anc.Keeps (State.borsanNak s d seq) := by
  unfold State.borsanNak
  repeat' first
    | with_reducible assumption | with_reducible apply State.setInt_keeps | with_reducible apply State.linkFail_keeps
    | with_reducible apply State.setDir_keeps | with_reducible apply State.inc_keeps | with_reducible apply State.emit_keeps
    | with_reducible apply State.each_keeps | intro _ | with_reducible refine ite_keeps ?_ ?_ | split | dsimp only

theorem State.ingress_keeps {anc : State} (s : State) (u : Nat) (f : Frame) (hk : anc.Keeps s) : anc.Keeps (State.ingress s u f) := by
  unfold State.ingress
  repeat' first
    | with_reducible assumption | with_reducible apply State.emit_keeps | split | dsimp only

theorem State.borsanReceive_keeps {anc : State} (s0 : State) (d : Nat) (f : Frame) (crcOk : Bool) (fec : List (Nat × Nat × Nat)) (hk : anc.Keeps s0) : anc.Keeps (State.borsanReceive s0 d f crcOk fec) := by
  unfold State.borsanReceive
  repeat' first
    | with_reducible assumption | with_reducible apply State.inc_keeps | with_reducible apply State.transmit_keeps
    | with_reducible apply State.setInt_keeps | with_reducible apply State.setDir_keeps | with_reducible apply State.borsanAck_keeps
    | with_reducible apply State.vcReturn_keeps | with_reducible apply State.ingress_keeps | with_reducible apply State.forward_keeps
    | with_reducible apply State.each_keeps | with_reducible apply State.when_keeps | intro _ | with_reducible refine ite_keeps ?_ ?_
    | split | dsimp only

theorem State.timeFrameSend_keeps {anc : State} (s : State) (d : Nat) (hk : anc.Keeps s) : anc.Keeps (State.timeFrameSend s d) := by
  unfold State.timeFrameSend
  repeat' first
    | with_reducible assumption | with_reducible apply State.transmit_keeps | with_reducible apply State.setDir_keeps
    | with_reducible refine ite_keeps ?_ ?_ | split | dsimp only

theorem State.timeFrameReceive_keeps {anc : State} (s : State) (d : Nat) (peerT1 : Nat) (echoT1 : Nat) (t2 : Nat) (t3 : Nat) (hk : anc.Keeps s) : anc.Keeps (State.timeFrameReceive s d peerT1 echoT1 t2 t3) := by
  unfold State.timeFrameReceive
  repeat' first
    | with_reducible assumption | with_reducible apply State.setDir_keeps | with_reducible apply State.wf_keeps
    | with_reducible apply State.servo_keeps | with_reducible apply State.when_keeps | intro _
    | with_reducible refine ite_keeps ?_ ?_ | split | dsimp only

theorem State.remoteCreditReq_keeps {anc : State} (s : State) (u : Nat) (f : Frame) (hk : anc.Keeps s) : anc.Keeps (State.remoteCreditReq s u f) := by
  unfold State.remoteCreditReq
  repeat' first
    | with_reducible assumption | with_reducible apply State.sendFrame_keeps | with_reducible apply State.setSlot_keeps
    | with_reducible apply State.emit_keeps | with_reducible refine ite_keeps ?_ ?_ | split | dsimp only

theorem State.remoteCreditGrant_keeps {anc : State} (s : State) (f : Frame) (hk : anc.Keeps s) : anc.Keeps (State.remoteCreditGrant s f) := by
  unfold State.remoteCreditGrant
  repeat' first
    | with_reducible assumption | with_reducible apply State.emit_keeps | with_reducible refine ite_keeps ?_ ?_ | split | dsimp only

theorem State.remoteCreditReturn_keeps {anc : State} (s : State) (u : Nat) (f : Frame) (hk : anc.Keeps s) : anc.Keeps (State.remoteCreditReturn s u f) := by
  unfold State.remoteCreditReturn
  repeat' first
    | with_reducible assumption | with_reducible apply State.emit_keeps | with_reducible apply State.slotSub_keeps
    | with_reducible refine ite_keeps ?_ ?_ | split | dsimp only

theorem State.retireUnit_keeps {anc : State} (s : State) (u : Nat) (hk : anc.Keeps s) : anc.Keeps (State.retireUnit s u) := by
  unfold State.retireUnit
  repeat' first
    | with_reducible assumption | with_reducible apply State.dieFailure_keeps | with_reducible refine State.keeps_fields ?_
    | with_reducible refine ite_keeps ?_ ?_ | split | dsimp only | simp only [State.keeps_mk]

theorem State.noticeFrame_keeps {anc : State} (s : State) (f : Frame) (hk : anc.Keeps s) : anc.Keeps (State.noticeFrame s f) := by
  unfold State.noticeFrame
  repeat' first
    | with_reducible assumption | with_reducible apply State.retireUnit_keeps | with_reducible apply State.emit_keeps
    | with_reducible apply State.sendNotice_keeps | with_reducible refine ite_keeps ?_ ?_ | split | dsimp only

theorem State.routeSwitch_keeps {anc : State} (s : State) (hk : anc.Keeps s) : anc.Keeps (State.routeSwitch s) := by
  unfold State.routeSwitch
  repeat' first
    | with_reducible assumption | with_reducible apply State.wf_keeps | with_reducible apply State.inc_keeps
    | with_reducible apply State.setInt_keeps | with_reducible apply foldl_keeps | with_reducible apply State.when_keeps
    | with_reducible refine State.keeps_fields ?_ | intro _ | with_reducible refine ite_keeps ?_ ?_ | split | dsimp only
    | simp only [State.keeps_mk]

theorem State.routeHoldEnd_keeps {anc : State} (s : State) (hk : anc.Keeps s) : anc.Keeps (State.routeHoldEnd s) := by
  unfold State.routeHoldEnd
  repeat' first
    | with_reducible assumption | with_reducible apply State.wf_keeps | with_reducible apply State.sendFrame_keeps
    | with_reducible apply State.leaveDone_keeps | with_reducible apply State.each_keeps
    | with_reducible refine State.keeps_fields ?_ | intro _ | with_reducible refine ite_keeps ?_ ?_ | split | dsimp only
    | simp only [State.keeps_mk]

theorem State.loadPlan_keeps {anc : State} (s : State) (c : Cmd) (hk : anc.Keeps s) : anc.Keeps (State.loadPlan s c).2 := by
  unfold State.loadPlan
  repeat' first
    | with_reducible assumption | with_reducible apply State.wf_keeps | with_reducible apply State.setDir_keeps
    | with_reducible apply State.ownLsn_keeps | with_reducible apply State.phaseStart_keeps
    | with_reducible apply State.dirCheck_keeps | with_reducible apply State.each_keeps | with_reducible apply foldl_keeps
    | with_reducible apply foldl_keeps_pair | with_reducible apply foldl_keeps_triple | with_reducible refine State.keeps_fields ?_
    | intro _ | with_reducible refine ite_keeps ?_ ?_ | with_reducible refine ite_keeps2 ?_ ?_
    | with_reducible refine ite_keeps3 ?_ ?_ | split | dsimp only | simp only [State.keeps_mk]

theorem State.loadPlan_keeps_eq {anc : State} {s : State} {c : Cmd} {r0 tz} (heqx : State.loadPlan s c = (r0, tz)) (hk : anc.Keeps s) : anc.Keeps tz := by
  have := State.loadPlan_keeps s c hk (anc := anc)
  rwa [heqx] at this

theorem State.topologyLoad_keeps {anc : State} (s : State) (i : Instr) (c : Cmd) (hk : anc.Keeps s) : anc.Keeps (State.topologyLoad s i c) := by
  unfold State.topologyLoad
  repeat' first
    | with_reducible assumption | with_reducible apply State.vorane_keeps | with_reducible apply State.reply_keeps
    | with_reducible apply State.loadPlan_keeps | refine State.loadPlan_keeps_eq (by with_reducible assumption) ?_ | intro _
    | with_reducible refine ite_keeps ?_ ?_ | split | dsimp only

theorem State.helloSend_keeps {anc : State} (s : State) (d : Nat) (hk : anc.Keeps s) : anc.Keeps (State.helloSend s d) := by
  unfold State.helloSend
  repeat' first
    | with_reducible assumption | with_reducible apply State.transmit_keeps | with_reducible apply State.setDir_keeps
    | with_reducible refine ite_keeps ?_ ?_ | split | dsimp only

theorem State.helloReceive_keeps {anc : State} (s : State) (d : Nat) (h : Hello) (hk : anc.Keeps s) : anc.Keeps (State.helloReceive s d h) := by
  unfold State.helloReceive
  repeat' first
    | with_reducible assumption | with_reducible apply State.setDir_keeps | with_reducible apply State.wf_keeps
    | with_reducible apply State.dirCheck_keeps | with_reducible apply State.when_keeps | intro _
    | with_reducible refine ite_keeps ?_ ?_ | split | dsimp only

theorem execLaneBad_keeps {anc : State} (d : Nat) (lane : Nat) (power : Nat) (s : State) (hk : anc.Keeps s) : ∃ out, execLaneBad d lane power s = .next out ∧ anc.Keeps out := by
  unfold execLaneBad
  refine ⟨_, rfl, ?_⟩
  repeat' first
    | with_reducible assumption | with_reducible apply State.laneBad_keeps | dsimp only

theorem execLaneFrame_keeps {anc : State} (d : Nat) (active : Nat) (boundary : Nat) (s : State) (hk : anc.Keeps s) : ∃ out, execLaneFrame d active boundary s = .next out ∧ anc.Keeps out := by
  unfold execLaneFrame
  refine ⟨_, rfl, ?_⟩
  repeat' first
    | with_reducible assumption | with_reducible apply State.laneFrame_keeps | with_reducible refine ite_keeps ?_ ?_ | split
    | dsimp only

theorem execLaneRetrain_keeps {anc : State} (d : Nat) (lane : Nat) (ok : Bool) (s : State) (hk : anc.Keeps s) : ∃ out, execLaneRetrain d lane ok s = .next out ∧ anc.Keeps out := by
  unfold execLaneRetrain
  refine ⟨_, rfl, ?_⟩
  repeat' first
    | with_reducible assumption | with_reducible apply State.laneRetrain_keeps | dsimp only

theorem execFibreReversed_keeps {anc : State} (d : Nat) (txLight : Nat) (rxLight : Nat) (s : State) (hk : anc.Keeps s) : ∃ out, execFibreReversed d txLight rxLight s = .next out ∧ anc.Keeps out := by
  unfold execFibreReversed
  refine ⟨_, rfl, ?_⟩
  repeat' first
    | with_reducible assumption | with_reducible apply State.fibreLight_keeps | dsimp only

theorem execLinkTrained_keeps {anc : State} (d : Nat) (lanes : Nat) (txCount : Nat) (positions : List Nat) (powers : List Nat) (s : State) (hk : anc.Keeps s) : ∃ out, execLinkTrained d lanes txCount positions powers s = .next out ∧ anc.Keeps out := by
  unfold execLinkTrained
  refine ⟨_, rfl, ?_⟩
  repeat' first
    | with_reducible assumption | with_reducible apply State.linkTrained_keeps | dsimp only

theorem execBorsanFrameReceive_keeps {anc : State} (d : Nat) (f : Frame) (crcOk : Bool) (fec : List (Nat × Nat × Nat)) (s : State) (hk : anc.Keeps s) : ∃ out, execBorsanFrameReceive d f crcOk fec s = .next out ∧ anc.Keeps out := by
  unfold execBorsanFrameReceive
  refine ⟨_, rfl, ?_⟩
  repeat' first
    | with_reducible assumption | with_reducible apply State.borsanReceive_keeps | dsimp only

theorem execBorsanAck_keeps {anc : State} (d : Nat) (seq : Nat) (s : State) (hk : anc.Keeps s) : ∃ out, execBorsanAck d seq s = .next out ∧ anc.Keeps out := by
  unfold execBorsanAck
  refine ⟨_, rfl, ?_⟩
  repeat' first
    | with_reducible assumption | with_reducible apply State.borsanAck_keeps | dsimp only

theorem execBorsanNak_keeps {anc : State} (d : Nat) (seq : Nat) (s : State) (hk : anc.Keeps s) : ∃ out, execBorsanNak d seq s = .next out ∧ anc.Keeps out := by
  unfold execBorsanNak
  refine ⟨_, rfl, ?_⟩
  repeat' first
    | with_reducible assumption | with_reducible apply State.borsanNak_keeps | dsimp only

theorem execTimeFrameSend_keeps {anc : State} (d : Nat) (s : State) (hk : anc.Keeps s) : ∃ out, execTimeFrameSend d s = .next out ∧ anc.Keeps out := by
  unfold execTimeFrameSend
  refine ⟨_, rfl, ?_⟩
  repeat' first
    | with_reducible assumption | with_reducible apply State.timeFrameSend_keeps | dsimp only

theorem execTimeFrameReceive_keeps {anc : State} (d : Nat) (peerT1 : Nat) (echoT1 : Nat) (t2 : Nat) (t3 : Nat) (s : State) (hk : anc.Keeps s) : ∃ out, execTimeFrameReceive d peerT1 echoT1 t2 t3 s = .next out ∧ anc.Keeps out := by
  unfold execTimeFrameReceive
  refine ⟨_, rfl, ?_⟩
  repeat' first
    | with_reducible assumption | with_reducible apply State.timeFrameReceive_keeps | dsimp only

theorem execRemoteCreditReq_keeps {anc : State} (u : Nat) (f : Frame) (s : State) (hk : anc.Keeps s) : ∃ out, execRemoteCreditReq u f s = .next out ∧ anc.Keeps out := by
  unfold execRemoteCreditReq
  refine ⟨_, rfl, ?_⟩
  repeat' first
    | with_reducible assumption | with_reducible apply State.remoteCreditReq_keeps | dsimp only

theorem execRemoteCreditGrant_keeps {anc : State} (u : Nat) (f : Frame) (s : State) (hk : anc.Keeps s) : ∃ out, execRemoteCreditGrant u f s = .next out ∧ anc.Keeps out := by
  unfold execRemoteCreditGrant
  refine ⟨_, rfl, ?_⟩
  repeat' first
    | with_reducible assumption | with_reducible apply State.remoteCreditGrant_keeps | with_reducible refine ite_keeps ?_ ?_ | split
    | dsimp only

theorem execRemoteCreditReturn_keeps {anc : State} (u : Nat) (f : Frame) (s : State) (hk : anc.Keeps s) : ∃ out, execRemoteCreditReturn u f s = .next out ∧ anc.Keeps out := by
  unfold execRemoteCreditReturn
  refine ⟨_, rfl, ?_⟩
  repeat' first
    | with_reducible assumption | with_reducible apply State.remoteCreditReturn_keeps | dsimp only

theorem execNoticeFrame_keeps {anc : State} (f : Frame) (s : State) (hk : anc.Keeps s) : ∃ out, execNoticeFrame f s = .next out ∧ anc.Keeps out := by
  unfold execNoticeFrame
  refine ⟨_, rfl, ?_⟩
  repeat' first
    | with_reducible assumption | with_reducible apply State.noticeFrame_keeps | dsimp only

theorem execLsnReceive_keeps {anc : State} (d : Nat) (l : Lsn) (s : State) (hk : anc.Keeps s) : ∃ out, execLsnReceive d l s = .next out ∧ anc.Keeps out := by
  unfold execLsnReceive
  refine ⟨_, rfl, ?_⟩
  repeat' first
    | with_reducible assumption | with_reducible apply State.lsnReceive_keeps | dsimp only

theorem execPeerLsnTimeout_keeps {anc : State} (d : Nat) (s : State) (hk : anc.Keeps s) : ∃ out, execPeerLsnTimeout d s = .next out ∧ anc.Keeps out := by
  unfold execPeerLsnTimeout
  refine ⟨_, rfl, ?_⟩
  repeat' first
    | with_reducible assumption | with_reducible apply State.peerLsnTimeout_keeps | dsimp only

theorem execRouteSwitch_keeps {anc : State} (s : State) (hk : anc.Keeps s) : ∃ out, execRouteSwitch s = .next out ∧ anc.Keeps out := by
  unfold execRouteSwitch
  refine ⟨_, rfl, ?_⟩
  repeat' first
    | with_reducible assumption | with_reducible apply State.routeSwitch_keeps | dsimp only

theorem execTopologyLoad_keeps {anc : State} (c : Cmd) (s : State) (hk : anc.Keeps s) : ∃ out, execTopologyLoad c s = .next out ∧ anc.Keeps out := by
  unfold execTopologyLoad
  refine ⟨_, rfl, ?_⟩
  repeat' first
    | with_reducible assumption | with_reducible apply State.topologyLoad_keeps | dsimp only

theorem execHelloSend_keeps {anc : State} (d : Nat) (s : State) (hk : anc.Keeps s) : ∃ out, execHelloSend d s = .next out ∧ anc.Keeps out := by
  unfold execHelloSend
  refine ⟨_, rfl, ?_⟩
  repeat' first
    | with_reducible assumption | with_reducible apply State.helloSend_keeps | dsimp only

theorem execHelloReceive_keeps {anc : State} (d : Nat) (h : Hello) (s : State) (hk : anc.Keeps s) : ∃ out, execHelloReceive d h s = .next out ∧ anc.Keeps out := by
  unfold execHelloReceive
  refine ⟨_, rfl, ?_⟩
  repeat' first
    | with_reducible assumption | with_reducible apply State.helloReceive_keeps | dsimp only

theorem execAgreeTimeout_keeps {anc : State} (d : Nat) (s : State) (hk : anc.Keeps s) : ∃ out, execAgreeTimeout d s = .next out ∧ anc.Keeps out := by
  unfold execAgreeTimeout
  refine ⟨_, rfl, ?_⟩
  repeat' first
    | with_reducible assumption | with_reducible apply State.dirCheck_keeps | dsimp only

end Sys2Proof.Machine
end

