-- ==== Sys2Proof/Laws/Keeps/Collect.lean ====
section
/-! SUPPORT. Every operation and meaning of Machine/Collect.lean leaves the queue alone and keeps the memories and the register table canonical. -/

namespace Sys2Proof.Machine

set_option linter.unreachableTactic false
set_option linter.unusedTactic false

theorem State.setColl_keeps {anc : State} (s : State) (i : Nat) (c : CollSt) (hk : anc.Keeps s) : anc.Keeps (State.setColl s i c) := by
  unfold State.setColl
  repeat' first
    | with_reducible assumption | with_reducible refine State.keeps_fields ?_ | with_reducible refine State.keeps_put_regs ?_
    | dsimp only | simp only [State.keeps_mk]

theorem State.collMismatch_keeps {anc : State} (s : State) (i : Nat) (hop : Nat) (from_ : Nat) (arith : Bool) (hk : anc.Keeps s) : anc.Keeps (State.collMismatch s i hop from_ arith) := by
  unfold State.collMismatch
  repeat' first
    | with_reducible assumption | with_reducible apply State.inc_keeps | with_reducible apply State.wf_keeps
    | with_reducible apply State.setInt_keeps | with_reducible refine ite_keeps ?_ ?_ | split | dsimp only

theorem State.requant_keeps {anc : State} (s : State) (i : Nat) (b0 : Nat) (n : Nat) (hk : anc.Keeps s) : anc.Keeps (State.requant s i b0 n).2.2 := by
  unfold State.requant
  repeat' first
    | with_reducible assumption | with_reducible apply State.setColl_keeps | with_reducible apply foldl_keeps
    | with_reducible apply foldl_keeps_pair | with_reducible apply foldl_keeps_triple | intro _
    | with_reducible refine ite_keeps ?_ ?_ | with_reducible refine ite_keeps2 ?_ ?_ | with_reducible refine ite_keeps3 ?_ ?_ | split
    | dsimp only

theorem State.requant_keeps_eq {anc : State} {s : State} {i : Nat} {b0 : Nat} {n : Nat} {r0 r1 tz} (heqx : State.requant s i b0 n = (r0, r1, tz)) (hk : anc.Keeps s) : anc.Keeps tz := by
  have := State.requant_keeps s i b0 n hk (anc := anc)
  rwa [heqx] at this

theorem State.settleChunk_keeps {anc : State} (s : State) (i : Nat) (b0 : Nat) (n : Nat) (hk : anc.Keeps s) : anc.Keeps (State.settleChunk s i b0 n) := by
  unfold State.settleChunk
  repeat' first
    | with_reducible assumption | with_reducible apply State.requant_keeps
    | refine State.requant_keeps_eq (by with_reducible assumption) ?_ | with_reducible apply State.setColl_keeps
    | with_reducible apply foldl_keeps | with_reducible apply foldl_keeps_pair | with_reducible apply foldl_keeps_triple
    | with_reducible refine State.keeps_put_regs ?_ | intro _ | with_reducible refine ite_keeps ?_ ?_ | split | dsimp only

theorem State.sendChunk_keeps {anc : State} (s : State) (i : Nat) (dim : Nat) (b0 : Nat) (n : Nat) (hollow : Bool) (ovr : Bool) (int32 : Bool) (data : List Nat) (dg : Nat) (hk : anc.Keeps s) : anc.Keeps (State.sendChunk s i dim b0 n hollow ovr int32 data dg) := by
  unfold State.sendChunk
  repeat' first
    | with_reducible assumption | with_reducible apply State.sendFrame_keeps | with_reducible apply State.setColl_keeps | dsimp only

theorem State.chunkOut_keeps {anc : State} (s : State) (i : Nat) (dim : Nat) (b0 : Nat) (n : Nat) (forward : Bool) (hk : anc.Keeps s) : anc.Keeps (State.chunkOut s i dim b0 n forward) := by
  unfold State.chunkOut
  repeat' first
    | with_reducible assumption | with_reducible apply State.settleChunk_keeps | with_reducible apply State.sendChunk_keeps
    | with_reducible apply State.requant_keeps | refine State.requant_keeps_eq (by with_reducible assumption) ?_
    | with_reducible refine ite_keeps ?_ ?_ | split | dsimp only

theorem State.sendHop_keeps {anc : State} (s : State) (i : Nat) (h : CollHop) (hk : anc.Keeps s) : anc.Keeps (State.sendHop s i h) := by
  unfold State.sendHop
  repeat' first
    | with_reducible assumption | with_reducible apply State.chunkOut_keeps | with_reducible apply State.each_keeps | intro _
    | dsimp only

theorem State.emitResults_keeps {anc : State} (s : State) (i : Nat) (hk : anc.Keeps s) : anc.Keeps (State.emitResults s i) := by
  unfold State.emitResults
  repeat' first
    | with_reducible assumption | with_reducible apply State.emit_keeps | with_reducible apply foldl_keeps | intro _
    | with_reducible refine ite_keeps ?_ ?_ | split | dsimp only

theorem State.collEnd_keeps {anc : State} (s : State) (i : Nat) (hk : anc.Keeps s) : anc.Keeps (State.collEnd s i) := by
  unfold State.collEnd
  repeat' first
    | with_reducible assumption | with_reducible apply State.setColl_keeps | with_reducible apply State.emitResults_keeps
    | dsimp only

theorem State.settleOwn_keeps {anc : State} (s : State) (i : Nat) (hk : anc.Keeps s) : anc.Keeps (State.settleOwn s i) := by
  unfold State.settleOwn
  repeat' first
    | with_reducible assumption | with_reducible apply State.settleChunk_keeps | with_reducible apply State.each_keeps | intro _
    | dsimp only

theorem State.broadcastOn_keeps {anc : State} (s : State) (i : Nat) (arr : Option Nat) (hk : anc.Keeps s) : anc.Keeps (State.broadcastOn s i arr) := by
  unfold State.broadcastOn
  repeat' first
    | with_reducible assumption | with_reducible apply State.setColl_keeps | with_reducible apply State.chunkOut_keeps
    | with_reducible apply State.each_keeps | intro _ | with_reducible refine ite_keeps ?_ ?_ | split | dsimp only

theorem State.nextHop_keeps {anc : State} (s : State) (i : Nat) (hk : anc.Keeps s) : anc.Keeps (State.nextHop s i) := by
  unfold State.nextHop
  repeat' first
    | with_reducible assumption | with_reducible apply State.setColl_keeps | with_reducible apply State.sendHop_keeps
    | with_reducible apply State.collEnd_keeps | with_reducible apply State.settleOwn_keeps | with_reducible refine ite_keeps ?_ ?_
    | split | dsimp only

theorem State.takeChunk_keeps {anc : State} (s : State) (i : Nat) (b0 : Nat) (n : Nat) (hollow : Bool) (int32 : Bool) (gather : Bool) (data : List Nat) (lin : Nat) (flag : Bool) (hk : anc.Keeps s) : anc.Keeps (State.takeChunk s i b0 n hollow int32 gather data lin flag) := by
  unfold State.takeChunk
  repeat' first
    | with_reducible assumption | with_reducible apply State.setColl_keeps | with_reducible apply State.inc_keeps
    | with_reducible apply foldl_keeps | with_reducible apply State.when_keeps | with_reducible refine State.keeps_put_regs ?_
    | intro _ | with_reducible refine ite_keeps ?_ ?_ | split | dsimp only

theorem State.chunkIn_keeps {anc : State} (s : State) (i : Nat) (b0 : Nat) (n : Nat) (hollow : Bool) (int32 : Bool) (data : List Nat) (lin : Nat) (flag : Bool) (hk : anc.Keeps s) : anc.Keeps (State.chunkIn s i b0 n hollow int32 data lin flag) := by
  unfold State.chunkIn
  repeat' first
    | with_reducible assumption | with_reducible apply State.takeChunk_keeps | with_reducible apply State.collEnd_keeps
    | with_reducible apply State.broadcastOn_keeps | with_reducible apply State.nextHop_keeps | with_reducible refine ite_keeps ?_ ?_
    | split | dsimp only

theorem State.chunkNow_keeps {anc : State} (s : State) (i : Nat) (f : Frame) (hk : anc.Keeps s) : anc.Keeps (State.chunkNow s i f) := by
  unfold State.chunkNow
  repeat' first
    | with_reducible assumption | with_reducible apply State.sendFrame_keeps | with_reducible apply State.chunkIn_keeps
    | with_reducible apply State.collMismatch_keeps | with_reducible apply State.setColl_keeps
    | with_reducible apply State.setInt_keeps | with_reducible apply State.inc_keeps | with_reducible apply State.sendNotice_keeps
    | with_reducible apply State.logEvSev_keeps | with_reducible apply State.when_keeps
    | with_reducible refine State.keeps_put_regs ?_ | intro _ | with_reducible refine ite_keeps ?_ ?_ | split | dsimp only

theorem State.drainEarly_keeps {anc : State} (s : State) (i : Nat) (x2 : Nat) (hk : anc.Keeps s) : anc.Keeps (State.drainEarly s i x2) := by
  induction x2 generalizing s with
  | zero =>
  simp only [State.drainEarly]
  try repeat' first
    | with_reducible assumption | with_reducible apply State.chunkNow_keeps | with_reducible apply step_keeps
    | with_reducible apply State.setColl_keeps | with_reducible apply State.each_keeps | with_reducible apply foldl_keeps
    | with_reducible apply foldl_keeps_pair | with_reducible apply foldl_keeps_triple | with_reducible apply State.when_keeps
    | with_reducible refine State.keeps_fields ?_ | intro _ | with_reducible refine ite_keeps ?_ ?_ | split | dsimp only
    | simp only [State.keeps_mk]
  | succ n ih =>
  simp only [State.drainEarly]
  repeat' first
    | with_reducible assumption | with_reducible apply ih | with_reducible apply State.chunkNow_keeps | with_reducible apply step_keeps
    | with_reducible apply State.setColl_keeps | with_reducible apply State.each_keeps | with_reducible apply foldl_keeps
    | with_reducible apply foldl_keeps_pair | with_reducible apply foldl_keeps_triple | with_reducible apply State.when_keeps
    | with_reducible refine State.keeps_fields ?_ | intro _ | with_reducible refine ite_keeps ?_ ?_ | split | dsimp only
    | simp only [State.keeps_mk]

theorem State.chunkReceive_keeps {anc : State} (s : State) (u : Nat) (f : Frame) (hk : anc.Keeps s) : anc.Keeps (State.chunkReceive s u f) := by
  unfold State.chunkReceive
  repeat' first
    | with_reducible assumption | with_reducible apply State.inc_keeps | with_reducible apply State.setColl_keeps
    | with_reducible apply State.chunkNow_keeps | with_reducible apply State.drainEarly_keeps | with_reducible refine ite_keeps ?_ ?_
    | split | dsimp only

theorem State.chunkAck_keeps {anc : State} (s : State) (f : Frame) (hk : anc.Keeps s) : anc.Keeps (State.chunkAck s f) := by
  unfold State.chunkAck
  repeat' first
    | with_reducible assumption | with_reducible apply State.setColl_keeps | with_reducible refine ite_keeps ?_ ?_ | split
    | dsimp only

theorem State.resendReq_keeps {anc : State} (s : State) (f : Frame) (hk : anc.Keeps s) : anc.Keeps (State.resendReq s f) := by
  unfold State.resendReq
  repeat' first
    | with_reducible assumption | with_reducible apply State.sendFrame_keeps | with_reducible refine ite_keeps ?_ ?_ | split
    | dsimp only

theorem State.collBegin_keeps {anc : State} (s : State) (i : Nat) (parts : List (List Nat × Bool)) (rest : List (List Nat × Bool)) (hk : anc.Keeps s) : anc.Keeps (State.collBegin s i parts rest) := by
  unfold State.collBegin
  repeat' first
    | with_reducible assumption | with_reducible apply State.unitEv_keeps | with_reducible apply State.inc_keeps
    | with_reducible apply State.setColl_keeps | with_reducible apply State.collEnd_keeps
    | with_reducible apply State.settleOwn_keeps | with_reducible apply State.broadcastOn_keeps
    | with_reducible apply State.drainEarly_keeps | with_reducible apply State.sendHop_keeps | with_reducible apply State.each_keeps
    | intro _ | with_reducible refine ite_keeps ?_ ?_ | split | dsimp only

theorem State.collStart_keeps {anc : State} (s : State) (i : Nat) (hk : anc.Keeps s) : anc.Keeps (State.collStart s i) := by
  unfold State.collStart
  repeat' first
    | with_reducible assumption | with_reducible apply State.emitResults_keeps | with_reducible apply State.setColl_keeps
    | with_reducible apply State.collBegin_keeps | with_reducible apply State.collMismatch_keeps
    | with_reducible apply State.emit_keeps | with_reducible apply State.setInt_keeps | with_reducible apply State.inc_keeps
    | with_reducible refine ite_keeps ?_ ?_ | split | dsimp only

theorem State.collTimeout_keeps {anc : State} (s : State) (i : Nat) (hk : anc.Keeps s) : anc.Keeps (State.collTimeout s i) := by
  unfold State.collTimeout
  repeat' first
    | with_reducible assumption | with_reducible apply State.collEnd_keeps | with_reducible apply State.setInt_keeps
    | with_reducible apply State.inc_keeps | with_reducible refine ite_keeps ?_ ?_ | split | dsimp only

theorem execCollectiveStart_keeps {anc : State} (i : Nat) (s : State) (hk : anc.Keeps s) : ∃ out, execCollectiveStart i s = .next out ∧ anc.Keeps out := by
  unfold execCollectiveStart
  refine ⟨_, rfl, ?_⟩
  repeat' first
    | with_reducible assumption | with_reducible apply State.collStart_keeps | dsimp only

theorem execChunkReceive_keeps {anc : State} (u : Nat) (f : Frame) (s : State) (hk : anc.Keeps s) : ∃ out, execChunkReceive u f s = .next out ∧ anc.Keeps out := by
  unfold execChunkReceive
  refine ⟨_, rfl, ?_⟩
  repeat' first
    | with_reducible assumption | with_reducible apply State.chunkReceive_keeps | dsimp only

theorem execChunkAck_keeps {anc : State} (u : Nat) (f : Frame) (s : State) (hk : anc.Keeps s) : ∃ out, execChunkAck u f s = .next out ∧ anc.Keeps out := by
  unfold execChunkAck
  refine ⟨_, rfl, ?_⟩
  repeat' first
    | with_reducible assumption | with_reducible apply State.chunkAck_keeps | with_reducible refine ite_keeps ?_ ?_ | split
    | dsimp only

theorem execResendReq_keeps {anc : State} (u : Nat) (f : Frame) (s : State) (hk : anc.Keeps s) : ∃ out, execResendReq u f s = .next out ∧ anc.Keeps out := by
  unfold execResendReq
  refine ⟨_, rfl, ?_⟩
  repeat' first
    | with_reducible assumption | with_reducible apply State.resendReq_keeps | with_reducible refine ite_keeps ?_ ?_ | split
    | dsimp only

theorem execCollectiveTimeout_keeps {anc : State} (i : Nat) (s : State) (hk : anc.Keeps s) : ∃ out, execCollectiveTimeout i s = .next out ∧ anc.Keeps out := by
  unfold execCollectiveTimeout
  refine ⟨_, rfl, ?_⟩
  repeat' first
    | with_reducible assumption | with_reducible apply State.collTimeout_keeps | dsimp only

end Sys2Proof.Machine
end

