-- ==== Sys2Proof/Laws/Keeps/Husk.lean ====
section
/-! SUPPORT. Every operation and meaning of Machine/Husk.lean leaves the queue alone and keeps the memories and the register table canonical. -/

namespace Sys2Proof.Machine

set_option linter.unreachableTactic false
set_option linter.unusedTactic false

theorem State.countKeys_keeps {anc : State} (s : State) (hk : anc.Keeps s) : anc.Keeps (State.countKeys s) := by
  unfold State.countKeys
  repeat' first
    | with_reducible assumption | with_reducible apply State.wf_keeps | with_reducible apply State.each_keeps | intro _
    | with_reducible refine ite_keeps ?_ ?_ | split | dsimp only

theorem State.keyImport_keeps {anc : State} (s : State) (c : Cmd) (lowFirst : Bool) (hk : anc.Keeps s) : anc.Keeps (State.keyImport s c lowFirst) := by
  unfold State.keyImport
  repeat' first
    | with_reducible assumption | with_reducible apply State.reply_keeps | with_reducible apply State.setInt_keeps
    | with_reducible apply State.inc_keeps | with_reducible apply State.wf_keeps | with_reducible apply State.countKeys_keeps
    | with_reducible refine State.keeps_fields ?_ | with_reducible refine State.keeps_put_regs ?_
    | with_reducible refine State.keeps_del_regs ?_ | with_reducible refine ite_keeps ?_ ?_ | split | dsimp only
    | simp only [State.keeps_mk]

theorem State.setShard_keeps {anc : State} (s : State) (v : Nat) (i : Nat) (x : ShardSt) (hk : anc.Keeps s) : anc.Keeps (State.setShard s v i x) := by
  unfold State.setShard
  repeat' first
    | with_reducible assumption | with_reducible refine State.keeps_fields ?_ | with_reducible refine State.keeps_put_regs ?_
    | dsimp only | simp only [State.keeps_mk]

theorem State.countShards_keeps {anc : State} (s : State) (v : Nat) (hk : anc.Keeps s) : anc.Keeps (State.countShards s v) := by
  unfold State.countShards
  repeat' first
    | with_reducible assumption | with_reducible apply State.wf_keeps | dsimp only

theorem State.judgeComplete_keeps {anc : State} (s : State) (v : Nat) (hk : anc.Keeps s) : anc.Keeps (State.judgeComplete s v) := by
  unfold State.judgeComplete
  repeat' first
    | with_reducible assumption | with_reducible apply State.wf_keeps | with_reducible apply State.setVState_keeps
    | with_reducible apply State.setInt_keeps | with_reducible refine ite_keeps ?_ ?_ | split | dsimp only

theorem State.register_keeps {anc : State} (s : State) (c : Cmd) (hk : anc.Keeps s) : anc.Keeps (State.register s c) := by
  unfold State.register
  repeat' first
    | with_reducible assumption | with_reducible apply State.reply_keeps | with_reducible apply State.issueRead_keeps
    | with_reducible apply State.setCmd_keeps | with_reducible refine State.keeps_fields ?_
    | with_reducible refine State.keeps_put_regs ?_ | with_reducible refine ite_keeps ?_ ?_ | split | dsimp only
    | simp only [State.keeps_mk]

theorem State.manifestDone_keeps {anc : State} (s : State) (v : Nat) (ok : Bool) (bytes : List Nat) (a : Nat) (room : Bool) (hk : anc.Keeps s) : anc.Keeps (State.manifestDone s v ok bytes a room) := by
  unfold State.manifestDone
  repeat' first
    | with_reducible assumption | with_reducible apply State.readDone_keeps | with_reducible apply State.finish_keeps
    | with_reducible apply State.hbmPut_keeps | with_reducible apply State.wf_keeps | with_reducible apply State.judgeComplete_keeps
    | with_reducible apply State.countKeys_keeps | with_reducible apply State.countShards_keeps
    | with_reducible refine State.keeps_fields ?_ | with_reducible refine State.keeps_put_regs ?_
    | with_reducible refine State.keeps_del_regs ?_ | with_reducible refine ite_keeps ?_ ?_ | split | dsimp only
    | simp only [State.keeps_mk]

theorem State.unregister_keeps {anc : State} (s : State) (c : Cmd) (hk : anc.Keeps s) : anc.Keeps (State.unregister s c) := by
  unfold State.unregister
  repeat' first
    | with_reducible assumption | with_reducible apply State.reply_keeps | with_reducible apply State.wf_keeps
    | with_reducible apply State.setVState_keeps | with_reducible apply State.countKeys_keeps
    | with_reducible apply State.countShards_keeps | with_reducible apply foldl_keeps | with_reducible refine State.keeps_fields ?_
    | with_reducible refine State.keeps_del_regs ?_ | with_reducible refine State.keeps_keep_regs ?_
    | with_reducible refine State.keeps_keep_hbm ?_ | with_reducible refine State.keeps_keep_sram ?_ | intro _
    | with_reducible refine ite_keeps ?_ ?_ | split | dsimp only | simp only [State.keeps_mk]

theorem State.sendBulk_keeps {anc : State} (s : State) (f : Frame) (hk : anc.Keeps s) : anc.Keeps (State.sendBulk s f) := by
  unfold State.sendBulk
  repeat' first
    | with_reducible assumption | with_reducible apply State.sendFrame_keeps | dsimp only

theorem State.sendShard_keeps {anc : State} (s : State) (v : Nat) (i : Nat) (m : Manifest) (sh : Shard) (next : Nat) (hk : anc.Keeps s) : anc.Keeps (State.sendShard s v i m sh next) := by
  unfold State.sendShard
  repeat' first
    | with_reducible assumption | with_reducible apply State.sendBulk_keeps | with_reducible apply State.countShards_keeps
    | with_reducible apply State.setShard_keeps | dsimp only

theorem State.bulkAck_keeps {anc : State} (s : State) (dest : Nat) (id : Nat) (rev : Nat) (i : Nat) (code : Nat) (hk : anc.Keeps s) : anc.Keeps (State.bulkAck s dest id rev i code) := by
  unfold State.bulkAck
  repeat' first
    | with_reducible assumption | with_reducible apply State.sendBulk_keeps | dsimp only

theorem State.forwardShards_keeps {anc : State} (s : State) (hk : anc.Keeps s) : anc.Keeps (State.forwardShards s) := by
  unfold State.forwardShards
  repeat' first
    | with_reducible assumption | with_reducible apply State.sendShard_keeps | with_reducible apply foldl_keeps | intro _
    | with_reducible refine ite_keeps ?_ ?_ | split | dsimp only

theorem State.shardAccept_keeps {anc : State} (s : State) (v : Nat) (i : Nat) (m : Manifest) (sh : Shard) (a : Nat) (husk : List Nat) (hk : anc.Keeps s) : anc.Keeps (State.shardAccept s v i m sh a husk) := by
  unfold State.shardAccept
  repeat' first
    | with_reducible assumption | with_reducible apply State.hbmPut_keeps | with_reducible apply State.inc_keeps
    | with_reducible apply State.setShard_keeps | with_reducible apply State.forwardShards_keeps
    | with_reducible apply State.judgeComplete_keeps | with_reducible apply State.countShards_keeps
    | with_reducible refine State.keeps_fields ?_ | with_reducible refine ite_keeps ?_ ?_ | split | dsimp only
    | simp only [State.keeps_mk]

theorem State.hostAsk_keeps {anc : State} (s : State) (v : Nat) (i : Nat) (m : Manifest) (hk : anc.Keeps s) : anc.Keeps (State.hostAsk s v i m) := by
  unfold State.hostAsk
  repeat' first
    | with_reducible assumption | with_reducible apply State.wf_keeps | with_reducible apply State.inc_keeps
    | with_reducible apply State.logEv_keeps | with_reducible apply State.setInt_keeps | with_reducible apply State.countShards_keeps
    | dsimp only

theorem State.failedRetry_keeps {anc : State} (s : State) (v : Nat) (i : Nat) (m : Manifest) (hk : anc.Keeps s) : anc.Keeps (State.failedRetry s v i m) := by
  unfold State.failedRetry
  repeat' first
    | with_reducible assumption | with_reducible apply State.setInt_keeps | with_reducible apply State.inc_keeps
    | with_reducible apply State.setShard_keeps | with_reducible apply State.hostAsk_keeps | with_reducible refine ite_keeps ?_ ?_
    | split | dsimp only

theorem State.askResend_keeps {anc : State} (s : State) (v : Nat) (i : Nat) (m : Manifest) (sh : Shard) (hk : anc.Keeps s) : anc.Keeps (State.askResend s v i m sh) := by
  unfold State.askResend
  repeat' first
    | with_reducible assumption | with_reducible apply State.bulkAck_keeps | with_reducible apply State.setShard_keeps
    | with_reducible refine ite_keeps ?_ ?_ | split | dsimp only

theorem State.shardLost_keeps {anc : State} (s : State) (v : Nat) (i : Nat) (hk : anc.Keeps s) : anc.Keeps (State.shardLost s v i) := by
  unfold State.shardLost
  repeat' first
    | with_reducible assumption | with_reducible apply State.wf_keeps | with_reducible apply State.hostAsk_keeps
    | with_reducible apply State.setShard_keeps | split | dsimp only

theorem State.huskFetch_keeps {anc : State} (s : State) (c : Cmd) (hk : anc.Keeps s) : anc.Keeps (State.huskFetch s c) := by
  unfold State.huskFetch
  repeat' first
    | with_reducible assumption | with_reducible apply State.reply_keeps | with_reducible apply State.issueRead_keeps
    | with_reducible refine State.keeps_fields ?_ | with_reducible refine ite_keeps ?_ ?_ | split | dsimp only
    | simp only [State.keeps_mk]

theorem State.fetchDone_keeps {anc : State} (s : State) (v : Nat) (i : Nat) (outcome : Nat) (a : Nat) (husk : List Nat) (hk : anc.Keeps s) : anc.Keeps (State.fetchDone s v i outcome a husk) := by
  unfold State.fetchDone
  repeat' first
    | with_reducible assumption | with_reducible apply State.readDone_keeps | with_reducible apply State.finish_keeps
    | with_reducible apply State.blockErr_keeps | with_reducible apply State.inc_keeps | with_reducible apply State.shardAccept_keeps
    | with_reducible refine State.keeps_fields ?_ | with_reducible refine ite_keeps ?_ ?_ | split | dsimp only
    | simp only [State.keeps_mk]

theorem State.copyDone_keeps {anc : State} (s : State) (v : Nat) (i : Nat) (ok : Bool) (a : Nat) (husk : List Nat) (hk : anc.Keeps s) : anc.Keeps (State.copyDone s v i ok a husk) := by
  unfold State.copyDone
  repeat' first
    | with_reducible assumption | with_reducible apply State.shardAccept_keeps | with_reducible apply State.bulkAck_keeps
    | with_reducible apply State.blockErr_keeps | with_reducible apply State.inc_keeps | with_reducible apply State.failedRetry_keeps
    | with_reducible apply State.askResend_keeps | with_reducible refine ite_keeps ?_ ?_ | split | dsimp only

theorem State.huskVerified_keeps {anc : State} (s : State) (v : Nat) (i : Nat) (fromHost : Bool) (ok : Bool) (a : Nat) (husk : List Nat) (hk : anc.Keeps s) : anc.Keeps (State.huskVerified s v i fromHost ok a husk) := by
  unfold State.huskVerified
  repeat' first
    | with_reducible assumption | with_reducible apply State.fetchDone_keeps | with_reducible apply State.copyDone_keeps
    | with_reducible refine ite_keeps ?_ ?_ | split | dsimp only

theorem State.shardFrame_keeps {anc : State} (s : State) (f : Frame) (hk : anc.Keeps s) : anc.Keeps (State.shardFrame s f) := by
  unfold State.shardFrame
  repeat' first
    | with_reducible assumption | with_reducible apply State.bulkAck_keeps | with_reducible apply State.setShard_keeps
    | with_reducible refine State.keeps_fields ?_ | with_reducible refine State.keeps_put_regs ?_
    | with_reducible refine ite_keeps ?_ ?_ | split | dsimp only | simp only [State.keeps_mk]

theorem State.fwAsk_keeps {anc : State} (s : State) (failed : Bool) (hk : anc.Keeps s) : anc.Keeps (State.fwAsk s failed) := by
  unfold State.fwAsk
  repeat' first
    | with_reducible assumption | with_reducible apply State.bulkAck_keeps | with_reducible refine State.keeps_fields ?_
    | with_reducible refine ite_keeps ?_ ?_ | split | dsimp only | simp only [State.keeps_mk]

theorem State.fwQuiet_keeps {anc : State} (s : State) (hk : anc.Keeps s) : anc.Keeps (State.fwQuiet s) := by
  unfold State.fwQuiet
  repeat' first
    | with_reducible assumption | with_reducible apply State.fwAsk_keeps | with_reducible refine ite_keeps ?_ ?_ | split | dsimp only

theorem State.bulkAckReceive_keeps {anc : State} (s : State) (f : Frame) (hollow : Bool) (hk : anc.Keeps s) : anc.Keeps (State.bulkAckReceive s f hollow) := by
  unfold State.bulkAckReceive
  repeat' first
    | with_reducible assumption | with_reducible apply State.wf_keeps | with_reducible apply State.fwAsk_keeps
    | with_reducible apply State.bulkAck_keeps | with_reducible apply State.setShard_keeps
    | with_reducible apply State.forwardShards_keeps | with_reducible apply State.inc_keeps
    | with_reducible apply State.countShards_keeps | with_reducible apply State.sendShard_keeps
    | with_reducible apply State.shardLost_keeps | with_reducible apply State.failedRetry_keeps
    | with_reducible refine State.keeps_fields ?_ | with_reducible refine State.keeps_put_regs ?_
    | with_reducible refine ite_keeps ?_ ?_ | split | dsimp only | simp only [State.keeps_mk]

theorem State.shardExpiry_keeps {anc : State} (s : State) (v : Nat) (hk : anc.Keeps s) : anc.Keeps (State.shardExpiry s v) := by
  unfold State.shardExpiry
  repeat' first
    | with_reducible assumption | with_reducible apply State.fwQuiet_keeps | with_reducible apply State.forwardShards_keeps
    | with_reducible apply State.askResend_keeps | with_reducible apply State.failedRetry_keeps
    | with_reducible apply State.each_keeps | intro _ | with_reducible refine ite_keeps ?_ ?_ | split | dsimp only

theorem State.notRegistered_keeps {anc : State} (s : State) (v : Nat) (i : Nat) (hk : anc.Keeps s) : anc.Keeps (State.notRegistered s v i) := by
  unfold State.notRegistered
  repeat' first
    | with_reducible assumption | with_reducible apply State.sendBulk_keeps | with_reducible apply State.sendShard_keeps
    | with_reducible apply State.setShard_keeps | with_reducible refine State.keeps_fields ?_ | with_reducible refine ite_keeps ?_ ?_
    | split | dsimp only | simp only [State.keeps_mk]

theorem State.spdmReply_keeps {anc : State} (s : State) (c : Cmd) (bs : List Nat) (hk : anc.Keeps s) : anc.Keeps (State.spdmReply s c bs) := by
  unfold State.spdmReply
  repeat' first
    | with_reducible assumption | with_reducible apply State.reply_keeps | dsimp only

theorem State.spdmError_keeps {anc : State} (s : State) (c : Cmd) (code : Nat) (data : Nat) (hk : anc.Keeps s) : anc.Keeps (State.spdmError s c code data) := by
  unfold State.spdmError
  repeat' first
    | with_reducible assumption | with_reducible apply State.spdmReply_keeps | with_reducible apply State.setInt_keeps | dsimp only

theorem State.attest_keeps {anc : State} (s : State) (i : Instr) (c : Cmd) (rsp : List Nat) (hk : anc.Keeps s) : anc.Keeps (State.attest s i c rsp) := by
  unfold State.attest
  repeat' first
    | with_reducible assumption | with_reducible apply State.vorane_keeps | with_reducible apply State.reply_keeps
    | with_reducible apply State.spdmError_keeps | with_reducible apply State.spdmReply_keeps | with_reducible apply State.inc_keeps
    | with_reducible refine State.keeps_fields ?_ | with_reducible refine State.keeps_put_regs ?_ | intro _
    | with_reducible refine ite_keeps ?_ ?_ | split | dsimp only | simp only [State.keeps_mk]

theorem execModelKeyImport_keeps {anc : State} (c : Cmd) (lowFirst : Bool) (s : State) (hk : anc.Keeps s) : ∃ out, execModelKeyImport c lowFirst s = .next out ∧ anc.Keeps out := by
  unfold execModelKeyImport
  refine ⟨_, rfl, ?_⟩
  repeat' first
    | with_reducible assumption | with_reducible apply State.vorane_keeps | with_reducible apply State.keyImport_keeps | intro _
    | dsimp only

theorem execModelKeyDelete_keeps {anc : State} (c : Cmd) (s : State) (hk : anc.Keeps s) : ∃ out, execModelKeyDelete c s = .next out ∧ anc.Keeps out := by
  unfold execModelKeyDelete
  refine ⟨_, rfl, ?_⟩
  repeat' first
    | with_reducible assumption | with_reducible apply State.vorane_keeps | with_reducible apply State.keyImport_keeps | intro _
    | dsimp only

theorem execVariantRegister_keeps {anc : State} (c : Cmd) (s : State) (hk : anc.Keeps s) : ∃ out, execVariantRegister c s = .next out ∧ anc.Keeps out := by
  unfold execVariantRegister
  refine ⟨_, rfl, ?_⟩
  repeat' first
    | with_reducible assumption | with_reducible apply State.vorane_keeps | with_reducible apply State.register_keeps | intro _
    | dsimp only

theorem execManifestReadDone_keeps {anc : State} (v : Nat) (ok : Bool) (bytes : List Nat) (addr : Nat) (room : Bool) (s : State) (hk : anc.Keeps s) : ∃ out, execManifestReadDone v ok bytes addr room s = .next out ∧ anc.Keeps out := by
  unfold execManifestReadDone
  refine ⟨_, rfl, ?_⟩
  repeat' first
    | with_reducible assumption | with_reducible apply State.manifestDone_keeps | dsimp only

theorem execHuskFetch_keeps {anc : State} (c : Cmd) (s : State) (hk : anc.Keeps s) : ∃ out, execHuskFetch c s = .next out ∧ anc.Keeps out := by
  unfold execHuskFetch
  refine ⟨_, rfl, ?_⟩
  repeat' first
    | with_reducible assumption | with_reducible apply State.vorane_keeps | with_reducible apply State.huskFetch_keeps | intro _
    | dsimp only

theorem execHuskVerified_keeps {anc : State} (v : Nat) (i : Nat) (fromHost : Bool) (copy : HuskCopy) (s : State) (hk : anc.Keeps s) : ∃ out, execHuskVerified v i fromHost copy s = .next out ∧ anc.Keeps out := by
  unfold execHuskVerified
  refine ⟨_, rfl, ?_⟩
  repeat' first
    | with_reducible assumption | with_reducible apply State.huskVerified_keeps | dsimp only

theorem execVariantUnregister_keeps {anc : State} (c : Cmd) (s : State) (hk : anc.Keeps s) : ∃ out, execVariantUnregister c s = .next out ∧ anc.Keeps out := by
  unfold execVariantUnregister
  refine ⟨_, rfl, ?_⟩
  repeat' first
    | with_reducible assumption | with_reducible apply State.vorane_keeps | with_reducible apply State.unregister_keeps | intro _
    | dsimp only

theorem execShardFrame_keeps {anc : State} (f : Frame) (s : State) (hk : anc.Keeps s) : ∃ out, execShardFrame f s = .next out ∧ anc.Keeps out := by
  unfold execShardFrame
  refine ⟨_, rfl, ?_⟩
  repeat' first
    | with_reducible assumption | with_reducible apply State.shardFrame_keeps | dsimp only

theorem execBulkAck_keeps {anc : State} (f : Frame) (hollow : Bool) (s : State) (hk : anc.Keeps s) : ∃ out, execBulkAck f hollow s = .next out ∧ anc.Keeps out := by
  unfold execBulkAck
  refine ⟨_, rfl, ?_⟩
  repeat' first
    | with_reducible assumption | with_reducible apply State.bulkAckReceive_keeps | dsimp only

theorem execShardTimeout_keeps {anc : State} (v : Nat) (s : State) (hk : anc.Keeps s) : ∃ out, execShardTimeout v s = .next out ∧ anc.Keeps out := by
  unfold execShardTimeout
  refine ⟨_, rfl, ?_⟩
  repeat' first
    | with_reducible assumption | with_reducible apply State.shardExpiry_keeps | dsimp only

theorem execNotRegisteredResend_keeps {anc : State} (v : Nat) (i : Nat) (s : State) (hk : anc.Keeps s) : ∃ out, execNotRegisteredResend v i s = .next out ∧ anc.Keeps out := by
  unfold execNotRegisteredResend
  refine ⟨_, rfl, ?_⟩
  repeat' first
    | with_reducible assumption | with_reducible apply State.notRegistered_keeps | dsimp only

theorem execSpdmGetVersion_keeps {anc : State} (c : Cmd) (s : State) (hk : anc.Keeps s) : ∃ out, execSpdmGetVersion c s = .next out ∧ anc.Keeps out := by
  unfold execSpdmGetVersion
  refine ⟨_, rfl, ?_⟩
  repeat' first
    | with_reducible assumption | with_reducible apply State.attest_keeps | dsimp only

theorem execSpdmGetCapabilities_keeps {anc : State} (c : Cmd) (rsp : List Nat) (s : State) (hk : anc.Keeps s) : ∃ out, execSpdmGetCapabilities c rsp s = .next out ∧ anc.Keeps out := by
  unfold execSpdmGetCapabilities
  refine ⟨_, rfl, ?_⟩
  repeat' first
    | with_reducible assumption | with_reducible apply State.attest_keeps | dsimp only

theorem execSpdmNegotiateAlgorithms_keeps {anc : State} (c : Cmd) (rsp : List Nat) (s : State) (hk : anc.Keeps s) : ∃ out, execSpdmNegotiateAlgorithms c rsp s = .next out ∧ anc.Keeps out := by
  unfold execSpdmNegotiateAlgorithms
  refine ⟨_, rfl, ?_⟩
  repeat' first
    | with_reducible assumption | with_reducible apply State.attest_keeps | dsimp only

theorem execSpdmGetDigests_keeps {anc : State} (c : Cmd) (rsp : List Nat) (s : State) (hk : anc.Keeps s) : ∃ out, execSpdmGetDigests c rsp s = .next out ∧ anc.Keeps out := by
  unfold execSpdmGetDigests
  refine ⟨_, rfl, ?_⟩
  repeat' first
    | with_reducible assumption | with_reducible apply State.attest_keeps | dsimp only

theorem execSpdmGetCertificate_keeps {anc : State} (c : Cmd) (rsp : List Nat) (s : State) (hk : anc.Keeps s) : ∃ out, execSpdmGetCertificate c rsp s = .next out ∧ anc.Keeps out := by
  unfold execSpdmGetCertificate
  refine ⟨_, rfl, ?_⟩
  repeat' first
    | with_reducible assumption | with_reducible apply State.attest_keeps | dsimp only

theorem execSpdmChallenge_keeps {anc : State} (c : Cmd) (rsp : List Nat) (s : State) (hk : anc.Keeps s) : ∃ out, execSpdmChallenge c rsp s = .next out ∧ anc.Keeps out := by
  unfold execSpdmChallenge
  refine ⟨_, rfl, ?_⟩
  repeat' first
    | with_reducible assumption | with_reducible apply State.attest_keeps | dsimp only

theorem execSpdmGetMeasurements_keeps {anc : State} (c : Cmd) (rsp : List Nat) (s : State) (hk : anc.Keeps s) : ∃ out, execSpdmGetMeasurements c rsp s = .next out ∧ anc.Keeps out := by
  unfold execSpdmGetMeasurements
  refine ⟨_, rfl, ?_⟩
  repeat' first
    | with_reducible assumption | with_reducible apply State.attest_keeps | dsimp only

theorem execSpdmUnsupported_keeps {anc : State} (c : Cmd) (s : State) (hk : anc.Keeps s) : ∃ out, execSpdmUnsupported c s = .next out ∧ anc.Keeps out := by
  unfold execSpdmUnsupported
  refine ⟨_, rfl, ?_⟩
  repeat' first
    | with_reducible assumption | with_reducible apply State.attest_keeps | dsimp only

end Sys2Proof.Machine
end

