-- ==== Sys2Proof/Laws/Keeps/Suspect.lean ====
section
/-! SUPPORT. Every operation and meaning of Machine/Suspect.lean leaves the queue alone and keeps the memories and the register table canonical. -/

namespace Sys2Proof.Machine

set_option linter.unreachableTactic false
set_option linter.unusedTactic false

theorem State.bumpGen_keeps {anc : State} (s : State) (d : Dom) (hk : anc.Keeps s) : anc.Keeps (State.bumpGen s d) := by
  unfold State.bumpGen
  repeat' first
    | with_reducible assumption | with_reducible refine State.keeps_fields ?_ | with_reducible refine State.keeps_put_regs ?_
    | dsimp only | simp only [State.keeps_mk]

theorem State.applyClocks_keeps {anc : State} (s : State) (pcs : List Nat) (hk : anc.Keeps s) : anc.Keeps (State.applyClocks s pcs) := by
  unfold State.applyClocks
  repeat' first
    | with_reducible assumption | with_reducible apply State.orderCoreClock_keeps | with_reducible apply State.each_keeps | intro _
    | with_reducible refine ite_keeps ?_ ?_ | split | dsimp only

theorem State.railSlew_keeps {anc : State} (s : State) (p : Nat) (hk : anc.Keeps s) : anc.Keeps (State.railSlew s p) := by
  unfold State.railSlew
  repeat' first
    | with_reducible assumption | with_reducible apply State.wf_keeps | with_reducible refine State.keeps_fields ?_
    | with_reducible refine State.keeps_put_regs ?_ | with_reducible refine ite_keeps ?_ ?_ | split | dsimp only
    | simp only [State.keeps_mk]

theorem State.railSlewEnd_keeps {anc : State} (s : State) (p : Nat) (hk : anc.Keeps s) : anc.Keeps (State.railSlewEnd s p) := by
  unfold State.railSlewEnd
  repeat' first
    | with_reducible assumption | with_reducible apply State.railSlew_keeps | with_reducible apply State.wf_keeps
    | with_reducible refine State.keeps_fields ?_ | with_reducible refine State.keeps_del_regs ?_
    | with_reducible refine ite_keeps ?_ ?_ | split | dsimp only | simp only [State.keeps_mk]

theorem State.fieldRec_keeps {anc : State} (s : State) (n : Nat) (hk : anc.Keeps s) : anc.Keeps (State.fieldRec s n) := by
  unfold State.fieldRec
  repeat' first
    | with_reducible assumption | with_reducible apply State.wf_keeps | with_reducible apply State.incSat_keeps | dsimp only

theorem State.setRung_keeps {anc : State} (s : State) (pc : Nat) (level : Nat) (steps : Nat) (hk : anc.Keeps s) : anc.Keeps (State.setRung s pc level steps) := by
  unfold State.setRung
  repeat' first
    | with_reducible assumption | with_reducible apply State.setInt_keeps | with_reducible apply State.wf_keeps
    | with_reducible apply State.fieldRec_keeps | with_reducible apply State.applyClocks_keeps
    | with_reducible apply State.railSlew_keeps | with_reducible refine State.keeps_fields ?_ | with_reducible refine ite_keeps ?_ ?_
    | split | dsimp only | simp only [State.keeps_mk]

theorem State.advance_keeps {anc : State} (s : State) (pc : Nat) (hk : anc.Keeps s) : anc.Keeps (State.advance s pc) := by
  unfold State.advance
  repeat' first
    | with_reducible assumption | with_reducible apply State.setRung_keeps | with_reducible refine State.keeps_fields ?_
    | with_reducible refine State.keeps_put_regs ?_ | with_reducible refine ite_keeps ?_ ?_ | split | dsimp only
    | simp only [State.keeps_mk]

theorem State.evidence_keeps {anc : State} (s : State) (pc : Nat) (code : Nat) (eng : Nat) (hk : anc.Keeps s) : anc.Keeps (State.evidence s pc code eng) := by
  unfold State.evidence
  repeat' first
    | with_reducible assumption | with_reducible apply State.wf_keeps | with_reducible apply State.incSat_keeps
    | with_reducible apply State.logEv_keeps | with_reducible apply State.setInts_keeps | with_reducible apply State.setRung_keeps
    | with_reducible apply State.advance_keeps | with_reducible refine State.keeps_fields ?_
    | with_reducible refine State.keeps_put_regs ?_ | with_reducible refine ite_keeps ?_ ?_ | split | dsimp only
    | simp only [State.keeps_mk]

theorem State.sramScrub_keeps {anc : State} (s : State) (pc : Nat) (off : Nat) (errs : List (Nat × Nat)) (miss : Option Nat) (hk : anc.Keeps s) : anc.Keeps (State.sramScrub s pc off errs miss) := by
  unfold State.sramScrub
  repeat' first
    | with_reducible assumption | with_reducible apply State.inc_keeps | with_reducible apply State.setInt_keeps
    | with_reducible apply State.wf_keeps | with_reducible apply State.unitEv_keeps | with_reducible apply State.suspect_keeps
    | with_reducible apply foldl_keeps | with_reducible refine State.keeps_fields ?_ | with_reducible refine State.keeps_write_hbm ?_
    | with_reducible refine State.keeps_write_sram ?_ | intro _ | with_reducible refine ite_keeps ?_ ?_ | split | dsimp only
    | simp only [State.keeps_mk]

theorem State.sramStore_keeps {anc : State} (s : State) (ck : Nat) (off : Nat) (data : List Nat) (hk : anc.Keeps s) : anc.Keeps (State.sramStore s ck off data) := by
  unfold State.sramStore
  repeat' first
    | with_reducible assumption | with_reducible apply State.sramWrite_keeps | with_reducible apply State.sramMark_keeps
    | with_reducible apply foldl_keeps | intro _ | with_reducible refine ite_keeps ?_ ?_ | split | dsimp only

theorem State.reloadWord_keeps {anc : State} (s : State) (k : Kept) (j : Nat) (hk : anc.Keeps s) : anc.Keeps (State.reloadWord s k j) := by
  unfold State.reloadWord
  repeat' first
    | with_reducible assumption | with_reducible apply State.hbmBytes_keeps
    | refine State.hbmBytes_keeps_eq (by with_reducible assumption) ?_ | with_reducible apply State.sramMark_keeps
    | with_reducible apply State.sramStore_keeps | with_reducible refine ite_keeps ?_ ?_ | split | dsimp only

theorem State.reloadItem_keeps {anc : State} (s : State) (k : Kept) (hollowOnly : Bool) (hk : anc.Keeps s) : anc.Keeps (State.reloadItem s k hollowOnly) := by
  unfold State.reloadItem
  repeat' first
    | with_reducible assumption | with_reducible apply State.reloadWord_keeps | with_reducible apply State.each_keeps | intro _
    | with_reducible refine ite_keeps ?_ ?_ | split | dsimp only

theorem State.countSpares_keeps {anc : State} (s : State) (c : Nat) (hk : anc.Keeps s) : anc.Keeps (State.countSpares s c) := by
  unfold State.countSpares
  repeat' first
    | with_reducible assumption | with_reducible apply State.wf_keeps | dsimp only

theorem State.copySram_keeps {anc : State} (s : State) (pc sp : Nat) (hk : anc.Keeps s) : anc.Keeps (State.copySram s pc sp) := by
  refine ⟨hk.1, hk.2.1, fun x => ?_, hk.2.2.2⟩
  have h := hk.2.2.1 x
  refine Memory.wf_puts (fun c hc => ?_) _ (Memory.wf_filter _ h)
  exact ((Memory.wf_iff _).1 h).2 c (List.mem_of_mem_filter hc)

theorem State.spareEngine_keeps {anc : State} (s : State) (e : Nat) (hk : anc.Keeps s) : anc.Keeps (State.spareEngine s e) := by
  unfold State.spareEngine
  repeat' first
    | with_reducible assumption | with_reducible apply State.wf_keeps | with_reducible apply State.setBankState_keeps
    | with_reducible apply State.loadEntry_keeps | with_reducible apply State.setProg_keeps | with_reducible apply State.setEng_keeps
    | with_reducible apply State.tryOwed_keeps | with_reducible apply foldl_keeps | with_reducible refine State.keeps_fields ?_
    | with_reducible refine State.keeps_keep_regs ?_ | with_reducible refine State.keeps_keep_hbm ?_
    | with_reducible refine State.keeps_keep_sram ?_ | intro _ | with_reducible refine ite_keeps ?_ ?_ | split | dsimp only
    | simp only [State.keeps_mk]

theorem State.spareRegs_keeps {anc : State} (s : State) (ck : Nat) (hk : anc.Keeps s) : anc.Keeps (State.spareRegs s ck) := by
  unfold State.spareRegs
  repeat' first
    | with_reducible assumption | with_reducible refine State.keeps_fields ?_ | with_reducible refine State.keeps_keep_regs ?_
    | with_reducible refine State.keeps_keep_hbm ?_ | with_reducible refine State.keeps_keep_sram ?_ | split | dsimp only
    | simp only [State.keeps_mk]

theorem State.fenceCut_keeps {anc : State} (s : State) (ck : Nat) (hk : anc.Keeps s) : anc.Keeps (State.fenceCut s ck) := by
  unfold State.fenceCut
  repeat' first
    | with_reducible assumption | with_reducible apply State.progInterrupt_keeps | with_reducible apply State.breakScores_keeps
    | with_reducible apply State.cutCoreClock_keeps | with_reducible apply State.bumpGen_keeps
    | with_reducible apply State.mesh_keeps | with_reducible apply State.setInt_keeps | with_reducible apply State.each_keeps
    | with_reducible apply foldl_keeps | intro _ | with_reducible refine ite_keeps ?_ ?_ | split | dsimp only

theorem State.markAbsent_keeps {anc : State} (s : State) (ck : Nat) (hk : anc.Keeps s) : anc.Keeps (State.markAbsent s ck) := by
  unfold State.markAbsent
  repeat' first
    | with_reducible assumption | with_reducible apply State.wf_keeps | with_reducible apply State.countAbsent_keeps
    | with_reducible apply State.incSat_keeps | with_reducible apply State.logEv_keeps | with_reducible apply State.each_keeps
    | with_reducible apply foldl_keeps | intro _ | with_reducible refine ite_keeps ?_ ?_ | split | dsimp only

theorem State.fenceBegin_keeps {anc : State} (s : State) (pc : Nat) (det : Nat) (hk : anc.Keeps s) : anc.Keeps (State.fenceBegin s pc det) := by
  unfold State.fenceBegin
  repeat' first
    | with_reducible assumption | with_reducible apply State.wf_keeps | with_reducible apply State.fenceCut_keeps
    | with_reducible apply State.markAbsent_keeps | with_reducible apply State.mapWriteAll_keeps
    | with_reducible apply State.copySram_keeps | with_reducible apply State.spareRegs_keeps
    | with_reducible refine State.keeps_fields ?_ | split | dsimp only | simp only [State.keeps_mk]

theorem State.startSpare_keeps {anc : State} (s : State) (ck : Nat) (sp : Nat) (hk : anc.Keeps s) : anc.Keeps (State.startSpare s ck sp) := by
  unfold State.startSpare
  repeat' first
    | with_reducible assumption | with_reducible apply State.wf_keeps | with_reducible apply State.scoreStart_keeps
    | with_reducible refine ite_keeps ?_ ?_ | split | dsimp only

theorem State.fenceEnd_keeps {anc : State} (s : State) (f : Fencing) (hk : anc.Keeps s) : anc.Keeps (State.fenceEnd s f) := by
  unfold State.fenceEnd
  repeat' first
    | with_reducible assumption | with_reducible apply State.logEv_keeps | with_reducible apply State.fieldRec_keeps
    | with_reducible apply State.railSlew_keeps | with_reducible apply State.countSpares_keeps
    | with_reducible apply State.reloadItem_keeps | with_reducible apply State.wf_keeps | with_reducible apply State.startSpare_keeps
    | with_reducible apply State.spareEngine_keeps | with_reducible apply State.loseResiduals_keeps
    | with_reducible apply State.interruptStreams_keeps | refine State.interruptStreams_keeps_eq (by with_reducible assumption) ?_
    | with_reducible apply State.each_keeps | intro _ | with_reducible refine ite_keeps ?_ ?_ | split | dsimp only

theorem State.fenceAll_keeps {anc : State} (s : State) (l : List (Nat × Nat)) (hk : anc.Keeps s) : anc.Keeps (State.fenceAll s l) := by
  unfold State.fenceAll
  repeat' first
    | with_reducible assumption | with_reducible apply State.fenceBegin_keeps | with_reducible apply State.mapComplete_keeps
    | with_reducible apply State.mapBroadcast_keeps | with_reducible apply State.fenceEnd_keeps
    | with_reducible apply State.each_keeps | with_reducible apply State.when_keeps | with_reducible refine State.keeps_fields ?_
    | intro _ | dsimp only | simp only [State.keeps_mk]

theorem State.fence_keeps {anc : State} (s : State) (hk : anc.Keeps s) : anc.Keeps (State.fence s) := by
  unfold State.fence
  repeat' first
    | with_reducible assumption | with_reducible apply State.fenceAll_keeps | with_reducible refine State.keeps_fields ?_
    | with_reducible refine ite_keeps ?_ ?_ | split | dsimp only | simp only [State.keeps_mk]

theorem State.absentNotice_keeps {anc : State} (s : State) (stream : Nat) (hk : anc.Keeps s) : anc.Keeps (State.absentNotice s stream) := by
  unfold State.absentNotice
  repeat' first
    | with_reducible assumption | with_reducible apply State.sendNotice_keeps | with_reducible apply State.endLost_keeps
    | with_reducible apply State.each_keeps | intro _ | with_reducible refine ite_keeps ?_ ?_ | split | dsimp only

theorem execSramScrub_keeps {anc : State} (pc : Nat) (off : Nat) (errs : List (Nat × Nat)) (miss : Option Nat) (s : State) (hk : anc.Keeps s) : ∃ out, execSramScrub pc off errs miss s = .next out ∧ anc.Keeps out := by
  unfold execSramScrub
  refine ⟨_, rfl, ?_⟩
  repeat' first
    | with_reducible assumption | with_reducible apply State.sramScrub_keeps | dsimp only

theorem execAbsentNotice_keeps {anc : State} (stream : Nat) (s : State) (hk : anc.Keeps s) : ∃ out, execAbsentNotice stream s = .next out ∧ anc.Keeps out := by
  unfold execAbsentNotice
  refine ⟨_, rfl, ?_⟩
  repeat' first
    | with_reducible assumption | with_reducible apply State.absentNotice_keeps | dsimp only

theorem execEvidence_keeps {anc : State} (pc : Nat) (code : Nat) (eng : Nat) (s : State) (hk : anc.Keeps s) : ∃ out, execEvidence pc code eng s = .next out ∧ anc.Keeps out := by
  unfold execEvidence
  refine ⟨_, rfl, ?_⟩
  repeat' first
    | with_reducible assumption | with_reducible apply State.evidence_keeps | dsimp only

theorem execRailSlewEnd_keeps {anc : State} (p : Nat) (s : State) (hk : anc.Keeps s) : ∃ out, execRailSlewEnd p s = .next out ∧ anc.Keeps out := by
  unfold execRailSlewEnd
  refine ⟨_, rfl, ?_⟩
  repeat' first
    | with_reducible assumption | with_reducible apply State.railSlewEnd_keeps | dsimp only

theorem execFence_keeps {anc : State} (s : State) (hk : anc.Keeps s) : ∃ out, execFence s = .next out ∧ anc.Keeps out := by
  unfold execFence
  refine ⟨_, rfl, ?_⟩
  repeat' first
    | with_reducible assumption | with_reducible apply State.fence_keeps | dsimp only

end Sys2Proof.Machine
end

