-- ==== Sys2Proof/Laws/Keeps/Hbm.lean ====
section
/-! SUPPORT. Every operation and meaning of Machine/Hbm.lean leaves the queue alone and keeps the memories and the register table canonical. -/

namespace Sys2Proof.Machine

set_option linter.unreachableTactic false
set_option linter.unusedTactic false

theorem State.codeRead_keeps {anc : State} (s : State) (st : Nat) (off : Nat) (errs : SymErrs) (flips : Nat) (miss : Option Nat) (hk : anc.Keeps s) : anc.Keeps (State.codeRead s st off errs flips miss).2.2 := by
  unfold State.codeRead
  repeat' first
    | with_reducible assumption | with_reducible apply State.setInt_keeps | with_reducible apply State.inc_keeps
    | with_reducible apply State.wf_keeps | with_reducible apply State.setHbmTag_keeps | with_reducible apply State.blockErr_keeps
    | with_reducible refine State.keeps_fields ?_ | with_reducible refine State.keeps_write_hbm ?_
    | with_reducible refine State.keeps_write_sram ?_ | with_reducible refine ite_keeps ?_ ?_
    | with_reducible refine ite_keeps2 ?_ ?_ | with_reducible refine ite_keeps3 ?_ ?_ | split | dsimp only
    | simp only [State.keeps_mk]

theorem State.codeRead_keeps_eq {anc : State} {s : State} {st : Nat} {off : Nat} {errs : SymErrs} {flips : Nat} {miss : Option Nat} {r0 r1 tz} (heqx : State.codeRead s st off errs flips miss = (r0, r1, tz)) (hk : anc.Keeps s) : anc.Keeps tz := by
  have := State.codeRead_keeps s st off errs flips miss hk (anc := anc)
  rwa [heqx] at this

theorem State.hbmAnswer_keeps {anc : State} (s : State) (r : Requester) (id : Nat) (result : Nat) (hollow : Bool) (data : Nat) (hk : anc.Keeps s) : anc.Keeps (State.hbmAnswer s r id result hollow data) := by
  unfold State.hbmAnswer
  repeat' first
    | with_reducible assumption | with_reducible apply State.mesh_keeps | dsimp only

theorem State.hbmAccess_keeps {anc : State} (s : State) (r : Requester) (a : Nat) (data : Nat) (hk : anc.Keeps s) : anc.Keeps (State.hbmAccess s r a data).2.2 := by
  unfold State.hbmAccess
  repeat' first
    | with_reducible assumption | with_reducible apply State.sealedDenied_keeps | with_reducible apply State.stackFailedAccess_keeps
    | with_reducible refine ite_keeps ?_ ?_ | with_reducible refine ite_keeps2 ?_ ?_ | with_reducible refine ite_keeps3 ?_ ?_ | split
    | dsimp only

theorem State.hbmAccess_keeps_eq {anc : State} {s : State} {r : Requester} {a : Nat} {data : Nat} {r0 r1 tz} (heqx : State.hbmAccess s r a data = (r0, r1, tz)) (hk : anc.Keeps s) : anc.Keeps tz := by
  have := State.hbmAccess_keeps s r a data hk (anc := anc)
  rwa [heqx] at this

theorem State.hbmReadCmd_keeps {anc : State} (s : State) (r : Requester) (id : Nat) (a : Nat) (n : Nat) (lr : Bool) (errs : SymErrs) (flips : Nat) (miss : Option Nat) (hk : anc.Keeps s) : anc.Keeps (State.hbmReadCmd s r id a n lr errs flips miss) := by
  unfold State.hbmReadCmd
  repeat' first
    | with_reducible assumption | with_reducible apply State.hbmAccess_keeps
    | refine State.hbmAccess_keeps_eq (by with_reducible assumption) ?_ | with_reducible apply State.hbmAnswer_keeps
    | with_reducible apply State.codeRead_keeps | refine State.codeRead_keeps_eq (by with_reducible assumption) ?_
    | with_reducible apply State.inc_keeps | with_reducible refine State.keeps_fields ?_
    | with_reducible refine State.keeps_put_regs ?_ | with_reducible refine ite_keeps ?_ ?_ | split | dsimp only
    | simp only [State.keeps_mk]

theorem State.readOut_keeps {anc : State} (s : State) (v : Nat) (id : Nat) (st : Nat) (hk : anc.Keeps s) : anc.Keeps (State.readOut s v id st) := by
  unfold State.readOut
  repeat' first
    | with_reducible assumption | with_reducible apply State.setVc_keeps | dsimp only

theorem State.hbmReadIssue_keeps {anc : State} (s : State) (r : Requester) (id : Nat) (a : Nat) (n : Nat) (lr : Bool) (errs : SymErrs) (flips : Nat) (miss : Option Nat) (hk : anc.Keeps s) : anc.Keeps (State.hbmReadIssue s r id a n lr errs flips miss) := by
  unfold State.hbmReadIssue
  repeat' first
    | with_reducible assumption | with_reducible apply State.readOut_keeps | with_reducible apply State.hbmReadCmd_keeps
    | with_reducible apply State.setVc_keeps | with_reducible refine ite_keeps ?_ ?_ | split | dsimp only

theorem State.streamDone_keeps {anc : State} (s : State) (v : Nat) (id : Nat) (hk : anc.Keeps s) : anc.Keeps (State.streamDone s v id) := by
  unfold State.streamDone
  repeat' first
    | with_reducible assumption | with_reducible apply State.setVc_keeps | with_reducible apply State.readOut_keeps
    | with_reducible apply State.hbmReadCmd_keeps | split | dsimp only

theorem State.codeWrite_keeps {anc : State} (s : State) (st : Nat) (off : Nat) (n : Nat) (v : Nat → Nat) (hollow : Bool) (errs : SymErrs) (flips : Nat) (miss : Option Nat) (by_ : Option Nat) (hk : anc.Keeps s) : anc.Keeps (State.codeWrite s st off n v hollow errs flips miss by_).2.2 := by
  unfold State.codeWrite
  repeat' first
    | with_reducible assumption | with_reducible apply State.codeRead_keeps
    | refine State.codeRead_keeps_eq (by with_reducible assumption) ?_ | with_reducible apply State.setHbmTag_keeps
    | with_reducible apply State.inc_keeps | with_reducible apply State.clearResv_keeps | with_reducible apply State.when_keeps
    | with_reducible refine State.keeps_fields ?_ | with_reducible refine State.keeps_write_hbm ?_
    | with_reducible refine State.keeps_write_sram ?_ | intro _ | with_reducible refine ite_keeps ?_ ?_
    | with_reducible refine ite_keeps2 ?_ ?_ | with_reducible refine ite_keeps3 ?_ ?_ | split | dsimp only
    | simp only [State.keeps_mk]

theorem State.codeWrite_keeps_eq {anc : State} {s : State} {st : Nat} {off : Nat} {n : Nat} {v : Nat → Nat} {hollow : Bool} {errs : SymErrs} {flips : Nat} {miss : Option Nat} {by_ : Option Nat} {r0 r1 tz} (heqx : State.codeWrite s st off n v hollow errs flips miss by_ = (r0, r1, tz)) (hk : anc.Keeps s) : anc.Keeps tz := by
  have := State.codeWrite_keeps s st off n v hollow errs flips miss by_ hk (anc := anc)
  rwa [heqx] at this

theorem State.hbmWriteCmd_keeps {anc : State} (s : State) (r : Requester) (id : Nat) (a : Nat) (n : Nat) (v : Nat) (hollow : Bool) (kind : Nat) (errs : SymErrs) (flips : Nat) (miss : Option Nat) (hk : anc.Keeps s) : anc.Keeps (State.hbmWriteCmd s r id a n v hollow kind errs flips miss) := by
  unfold State.hbmWriteCmd
  repeat' first
    | with_reducible assumption | with_reducible apply State.hbmAccess_keeps
    | refine State.hbmAccess_keeps_eq (by with_reducible assumption) ?_ | with_reducible apply State.hbmAnswer_keeps
    | with_reducible apply State.codeWrite_keeps | refine State.codeWrite_keeps_eq (by with_reducible assumption) ?_
    | with_reducible refine State.keeps_fields ?_ | with_reducible refine State.keeps_del_regs ?_
    | with_reducible refine ite_keeps ?_ ?_ | split | dsimp only | simp only [State.keeps_mk]

theorem State.scrubRead_keeps {anc : State} (s : State) (st : Nat) (errs : SymErrs) (flips : Nat) (miss : Option Nat) (hk : anc.Keeps s) : anc.Keeps (State.scrubRead s st errs flips miss) := by
  unfold State.scrubRead
  repeat' first
    | with_reducible assumption | with_reducible apply State.codeRead_keeps
    | refine State.codeRead_keeps_eq (by with_reducible assumption) ?_ | with_reducible apply State.setInt_keeps
    | with_reducible apply State.wf_keeps | with_reducible apply State.inc_keeps | with_reducible refine State.keeps_fields ?_
    | with_reducible refine State.keeps_put_regs ?_ | with_reducible refine ite_keeps ?_ ?_ | split | dsimp only
    | simp only [State.keeps_mk]

theorem State.hbmTrain_keeps {anc : State} (s0 : State) (st : Nat) (outcome : Nat) (hk : anc.Keeps s0) : anc.Keeps (State.hbmTrain s0 st outcome) := by
  unfold State.hbmTrain
  repeat' first
    | with_reducible assumption | with_reducible apply State.wf_keeps | with_reducible apply State.unitEv_keeps
    | with_reducible apply State.setInt_keeps | with_reducible apply State.dieFailure_keeps | with_reducible refine ite_keeps ?_ ?_
    | split | dsimp only

theorem State.hbmFill_keeps {anc : State} (s : State) (st : Nat) (hk : anc.Keeps s) : anc.Keeps (State.hbmFill s st) := by
  unfold State.hbmFill
  repeat' first
    | with_reducible assumption | with_reducible apply State.wf_keeps | with_reducible refine State.keeps_fields ?_
    | with_reducible refine State.keeps_keep_regs ?_ | with_reducible refine State.keeps_keep_hbm ?_
    | with_reducible refine State.keeps_keep_sram ?_ | with_reducible refine ite_keeps ?_ ?_ | split | dsimp only
    | simp only [State.keeps_mk]

theorem State.responseReceive_keeps {anc : State} (s : State) (ck : Nat) (pc : Nat) (redirected : Bool) (reqGen : Nat) (words : List Nat) (hk : anc.Keeps s) : anc.Keeps (State.responseReceive s ck pc redirected reqGen words) := by
  unfold State.responseReceive
  repeat' first
    | with_reducible assumption | with_reducible apply State.genDrop_keeps | with_reducible apply State.mesh_keeps
    | with_reducible apply State.setInt_keeps | with_reducible apply State.inc_keeps | with_reducible apply State.streamDone_keeps
    | with_reducible apply State.when_keeps | intro _ | with_reducible refine ite_keeps ?_ ?_ | split | dsimp only

theorem execHbmRead_keeps {anc : State} (r : Requester) (id : Nat) (a : Nat) (n : Nat) (lr : Bool) (errs : List (Nat × Nat)) (flips : Nat) (miss : Option Nat) (s : State) (hk : anc.Keeps s) : ∃ out, execHbmRead r id a n lr errs flips miss s = .next out ∧ anc.Keeps out := by
  unfold execHbmRead
  refine ⟨_, rfl, ?_⟩
  repeat' first
    | with_reducible assumption | with_reducible apply State.hbmReadIssue_keeps | with_reducible apply State.when_keeps | intro _
    | dsimp only

theorem execHbmWrite_keeps {anc : State} (r : Requester) (id : Nat) (a : Nat) (n : Nat) (v : Nat) (hollow : Bool) (kind : Nat) (errs : List (Nat × Nat)) (flips : Nat) (miss : Option Nat) (s : State) (hk : anc.Keeps s) : ∃ out, execHbmWrite r id a n v hollow kind errs flips miss s = .next out ∧ anc.Keeps out := by
  unfold execHbmWrite
  refine ⟨_, rfl, ?_⟩
  repeat' first
    | with_reducible assumption | with_reducible apply State.hbmWriteCmd_keeps | with_reducible apply State.when_keeps | intro _
    | dsimp only

theorem execResponseReceive_keeps {anc : State} (ck : Nat) (pc : Nat) (redirected : Bool) (reqGen : Nat) (words : List Nat) (s : State) (hk : anc.Keeps s) : ∃ out, execResponseReceive ck pc redirected reqGen words s = .next out ∧ anc.Keeps out := by
  unfold execResponseReceive
  refine ⟨_, rfl, ?_⟩
  repeat' first
    | with_reducible assumption | with_reducible apply State.responseReceive_keeps | dsimp only

theorem execScrubRead_keeps {anc : State} (st : Nat) (errs : List (Nat × Nat)) (flips : Nat) (miss : Option Nat) (s : State) (hk : anc.Keeps s) : ∃ out, execScrubRead st errs flips miss s = .next out ∧ anc.Keeps out := by
  unfold execScrubRead
  refine ⟨_, rfl, ?_⟩
  repeat' first
    | with_reducible assumption | with_reducible apply State.scrubRead_keeps | dsimp only

theorem execHbmTrain_keeps {anc : State} (st : Nat) (outcome : Nat) (s : State) (hk : anc.Keeps s) : ∃ out, execHbmTrain st outcome s = .next out ∧ anc.Keeps out := by
  unfold execHbmTrain
  refine ⟨_, rfl, ?_⟩
  repeat' first
    | with_reducible assumption | with_reducible apply State.hbmTrain_keeps | dsimp only

theorem execHbmFill_keeps {anc : State} (st : Nat) (s : State) (hk : anc.Keeps s) : ∃ out, execHbmFill st s = .next out ∧ anc.Keeps out := by
  unfold execHbmFill
  refine ⟨_, rfl, ?_⟩
  repeat' first
    | with_reducible assumption | with_reducible apply State.hbmFill_keeps | dsimp only

end Sys2Proof.Machine
end

