-- ==== Sys2Proof/Laws/Keeps/Sensing.lean ====
section
/-! SUPPORT. Every operation and meaning of Machine/Sensing.lean leaves the queue alone and keeps the memories and the register table canonical. -/

namespace Sys2Proof.Machine

set_option linter.unreachableTactic false
set_option linter.unusedTactic false

theorem State.setConv_keeps {anc : State} (s : State) (i : Nat) (x : ConvSt) (hk : anc.Keeps s) : anc.Keeps (State.setConv s i x) := by
  unfold State.setConv
  repeat' first
    | with_reducible assumption | with_reducible refine State.keeps_fields ?_ | with_reducible refine State.keeps_put_regs ?_
    | dsimp only | simp only [State.keeps_mk]

theorem State.startUrgent_keeps {anc : State} (s : State) (i : Nat) (hk : anc.Keeps s) : anc.Keeps (State.startUrgent s i) := by
  unfold State.startUrgent
  repeat' first
    | with_reducible assumption | with_reducible apply State.setConv_keeps | with_reducible apply State.inc_keeps
    | with_reducible refine ite_keeps ?_ ?_ | split | dsimp only

theorem State.urgentRequest_keeps {anc : State} (s : State) (i : Nat) (ch : Nat) (hk : anc.Keeps s) : anc.Keeps (State.urgentRequest s i ch) := by
  unfold State.urgentRequest
  repeat' first
    | with_reducible assumption | with_reducible apply State.setInt_keeps | with_reducible apply State.inc_keeps
    | with_reducible apply State.startUrgent_keeps | with_reducible apply State.setConv_keeps | with_reducible refine ite_keeps ?_ ?_
    | split | dsimp only

theorem State.urgentGo_keeps {anc : State} (s : State) (i : Nat) (w : Nat) (hk : anc.Keeps s) : anc.Keeps (State.urgentGo s i w) := by
  unfold State.urgentGo
  repeat' first
    | with_reducible assumption | with_reducible apply State.urgentRequest_keeps | with_reducible refine ite_keeps ?_ ?_ | split
    | dsimp only

theorem State.compareBandgap_keeps {anc : State} (s : State) (i : Nat) (hk : anc.Keeps s) : anc.Keeps (State.compareBandgap s i) := by
  unfold State.compareBandgap
  repeat' first
    | with_reducible assumption | with_reducible apply State.wf_keeps | with_reducible apply State.unitEv_keeps
    | with_reducible apply State.setInt_keeps | with_reducible refine State.keeps_fields ?_ | with_reducible refine ite_keeps ?_ ?_
    | split | dsimp only | simp only [State.keeps_mk]

theorem State.issueLevel_keeps {anc : State} (s : State) (hk : anc.Keeps s) : anc.Keeps (State.issueLevel s) := by
  unfold State.issueLevel
  repeat' first
    | with_reducible assumption | with_reducible apply State.wf_keeps | with_reducible apply State.orderMeshClock_keeps
    | with_reducible apply State.applyClocks_keeps | with_reducible refine ite_keeps ?_ ?_ | split | dsimp only

theorem State.setPowerLevel_keeps {anc : State} (s : State) (l : Nat) (hk : anc.Keeps s) : anc.Keeps (State.setPowerLevel s l) := by
  unfold State.setPowerLevel
  repeat' first
    | with_reducible assumption | with_reducible apply State.setInt_keeps | with_reducible apply State.inc_keeps
    | with_reducible apply State.wf_keeps | with_reducible refine State.keeps_fields ?_ | with_reducible refine ite_keeps ?_ ?_
    | split | dsimp only | simp only [State.keeps_mk]

theorem State.formCap_keeps {anc : State} (s : State) (hk : anc.Keeps s) : anc.Keeps (State.formCap s) := by
  unfold State.formCap
  repeat' first
    | with_reducible assumption | with_reducible apply State.setInt_keeps | with_reducible apply State.wf_keeps
    | with_reducible refine ite_keeps ?_ ?_ | split | dsimp only

theorem State.fastClamp_keeps {anc : State} (s : State) (i48 : Nat) (hk : anc.Keeps s) : anc.Keeps (State.fastClamp s i48) := by
  unfold State.fastClamp
  repeat' first
    | with_reducible assumption | with_reducible apply State.inc_keeps | with_reducible apply State.wf_keeps
    | with_reducible apply State.setPowerLevel_keeps | with_reducible apply State.issueLevel_keeps
    | with_reducible apply State.setInt_keeps | with_reducible refine State.keeps_fields ?_ | with_reducible refine ite_keeps ?_ ?_
    | split | dsimp only | simp only [State.keeps_mk]

theorem State.overcurrent_keeps {anc : State} (s : State) (i : Nat) (n : Nat) (hk : anc.Keeps s) : anc.Keeps (State.overcurrent s i n) := by
  unfold State.overcurrent
  repeat' first
    | with_reducible assumption | with_reducible apply State.urgentRequest_keeps | with_reducible refine State.keeps_fields ?_
    | with_reducible refine ite_keeps ?_ ?_ | split | dsimp only | simp only [State.keeps_mk]

theorem State.conversionEnd_keeps {anc : State} (s : State) (i : Nat) (code : Nat) (hk : anc.Keeps s) : anc.Keeps (State.conversionEnd s i code) := by
  unfold State.conversionEnd
  repeat' first
    | with_reducible assumption | with_reducible apply State.wf_keeps | with_reducible apply State.inc_keeps
    | with_reducible apply State.setConv_keeps | with_reducible apply State.fastClamp_keeps
    | with_reducible apply State.compareBandgap_keeps | with_reducible apply State.startUrgent_keeps
    | with_reducible refine ite_keeps ?_ ?_ | split | dsimp only

theorem State.setSensor_keeps {anc : State} (s : State) (n : Nat) (x : SensorSt) (hk : anc.Keeps s) : anc.Keeps (State.setSensor s n x) := by
  unfold State.setSensor
  repeat' first
    | with_reducible assumption | with_reducible refine State.keeps_fields ?_ | with_reducible refine State.keeps_put_regs ?_
    | dsimp only | simp only [State.keeps_mk]

theorem State.readChannel_keeps {anc : State} (s : State) (ch : Nat) (hk : anc.Keeps s) : anc.Keeps (State.readChannel s ch) := by
  unfold State.readChannel
  repeat' first
    | with_reducible assumption | with_reducible apply State.setSensor_keeps | with_reducible apply State.wf_keeps
    | with_reducible refine ite_keeps ?_ ?_ | split | dsimp only

theorem State.readStack_keeps {anc : State} (s : State) (n : Nat) (v : Option Int) (hk : anc.Keeps s) : anc.Keeps (State.readStack s n v) := by
  unfold State.readStack
  repeat' first
    | with_reducible assumption | with_reducible apply State.setSensor_keeps | with_reducible apply State.wf_keeps | split
    | dsimp only

theorem State.readAll_keeps {anc : State} (s : State) (thbm : List (Option Int)) (hk : anc.Keeps s) : anc.Keeps (State.readAll s thbm) := by
  unfold State.readAll
  repeat' first
    | with_reducible assumption | with_reducible apply State.readChannel_keeps | with_reducible apply State.readStack_keeps
    | with_reducible apply State.each_keeps | intro _ | dsimp only

theorem State.countApart_keeps {anc : State} (s : State) (n : Nat) (hk : anc.Keeps s) : anc.Keeps (State.countApart s n) := by
  unfold State.countApart
  repeat' first
    | with_reducible assumption | with_reducible apply State.setSensor_keeps | with_reducible refine ite_keeps ?_ ?_ | split
    | dsimp only

theorem State.countReversed_keeps {anc : State} (s : State) (hk : anc.Keeps s) : anc.Keeps (State.countReversed s) := by
  unfold State.countReversed
  repeat' first
    | with_reducible assumption | with_reducible refine State.keeps_fields ?_ | with_reducible refine ite_keeps ?_ ?_ | split
    | dsimp only | simp only [State.keeps_mk]

theorem State.judgeFault_keeps {anc : State} (s : State) (n : Nat) (hk : anc.Keeps s) : anc.Keeps (State.judgeFault s n) := by
  unfold State.judgeFault
  repeat' first
    | with_reducible assumption | with_reducible apply State.unitEv_keeps | with_reducible apply State.setInt_keeps
    | with_reducible apply State.wf_keeps | with_reducible apply State.setSensor_keeps | with_reducible apply State.when_keeps
    | intro _ | with_reducible refine ite_keeps ?_ ?_ | split | dsimp only

theorem State.railsDown_keeps {anc : State} (s : State) (hk : anc.Keeps s) : anc.Keeps (State.railsDown s) := by
  unfold State.railsDown
  repeat' first
    | with_reducible assumption | with_reducible apply State.setPwrgd_keeps | with_reducible apply State.wf_keeps
    | with_reducible apply State.each_keeps | with_reducible refine State.keeps_fields ?_ | intro _ | dsimp only
    | simp only [State.keeps_mk]

theorem State.judgeTrip_keeps {anc : State} (s : State) (n : Nat) (hk : anc.Keeps s) : anc.Keeps (State.judgeTrip s n) := by
  unfold State.judgeTrip
  repeat' first
    | with_reducible assumption | with_reducible apply State.wf_keeps | with_reducible apply State.setSensor_keeps
    | with_reducible apply State.raiseAlert_keeps | with_reducible apply State.setInt_keeps | with_reducible apply State.inc_keeps
    | with_reducible apply State.post_keeps | with_reducible apply State.railsDown_keeps
    | with_reducible apply State.dieFailure_keeps | with_reducible apply State.when_keeps | intro _
    | with_reducible refine ite_keeps ?_ ?_ | split | dsimp only

theorem State.partLimit_keeps {anc : State} (s : State) (p : Nat) (hk : anc.Keeps s) : anc.Keeps (State.partLimit s p) := by
  unfold State.partLimit
  repeat' first
    | with_reducible assumption | with_reducible apply State.applyClocks_keeps | with_reducible apply State.wf_keeps
    | with_reducible refine State.keeps_fields ?_ | with_reducible refine State.keeps_put_regs ?_
    | with_reducible refine State.keeps_del_regs ?_ | with_reducible refine ite_keeps ?_ ?_ | split | dsimp only
    | simp only [State.keeps_mk]

theorem State.throttleEscalate_keeps {anc : State} (s : State) (p : Nat) (hk : anc.Keeps s) : anc.Keeps (State.throttleEscalate s p) := by
  unfold State.throttleEscalate
  repeat' first
    | with_reducible assumption | with_reducible apply State.applyClocks_keeps | with_reducible apply State.wf_keeps
    | with_reducible refine ite_keeps ?_ ?_ | split | dsimp only

theorem State.judgeThermal_keeps {anc : State} (s : State) (hk : anc.Keeps s) : anc.Keeps (State.judgeThermal s) := by
  unfold State.judgeThermal
  repeat' first
    | with_reducible assumption | with_reducible apply State.judgeTrip_keeps | with_reducible apply State.partLimit_keeps
    | with_reducible apply State.wf_keeps | with_reducible apply State.each_keeps | intro _ | dsimp only

theorem State.senseInput_keeps {anc : State} (s : State) (hk : anc.Keeps s) : anc.Keeps (State.senseInput s) := by
  unfold State.senseInput
  repeat' first
    | with_reducible assumption | with_reducible apply State.boardFault_keeps | with_reducible apply State.wf_keeps
    | with_reducible refine State.keeps_fields ?_ | with_reducible refine ite_keeps ?_ ?_ | split | dsimp only
    | simp only [State.keeps_mk]

theorem State.senseLeak_keeps {anc : State} (s : State) (ohm : Nat) (short : Bool) (hk : anc.Keeps s) : anc.Keeps (State.senseLeak s ohm short) := by
  unfold State.senseLeak
  repeat' first
    | with_reducible assumption | with_reducible apply State.wf_keeps | with_reducible apply State.boardFault_keeps
    | with_reducible refine State.keeps_fields ?_ | with_reducible refine ite_keeps ?_ ?_ | split | dsimp only
    | simp only [State.keeps_mk]

theorem State.thermistorFaults_keeps {anc : State} (s : State) (hk : anc.Keeps s) : anc.Keeps (State.thermistorFaults s) := by
  unfold State.thermistorFaults
  repeat' first
    | with_reducible assumption | with_reducible apply State.boardFault_keeps | dsimp only

theorem State.judgeHalf_keeps {anc : State} (s : State) (hk : anc.Keeps s) : anc.Keeps (State.judgeHalf s) := by
  unfold State.judgeHalf
  repeat' first
    | with_reducible assumption | with_reducible apply State.wf_keeps | with_reducible refine State.keeps_fields ?_
    | with_reducible refine ite_keeps ?_ ?_ | split | dsimp only | simp only [State.keeps_mk]

theorem State.governor_keeps {anc : State} (s : State) (tele : Nat) (peak : Nat) (hk : anc.Keeps s) : anc.Keeps (State.governor s tele peak) := by
  unfold State.governor
  repeat' first
    | with_reducible assumption | with_reducible apply State.judgeHalf_keeps | with_reducible apply State.formCap_keeps
    | with_reducible apply State.wf_keeps | with_reducible apply State.setPowerLevel_keeps
    | with_reducible apply State.issueLevel_keeps | with_reducible apply State.when_keeps
    | with_reducible refine State.keeps_fields ?_ | intro _ | with_reducible refine ite_keeps ?_ ?_ | split | dsimp only
    | simp only [State.keeps_mk]

theorem State.undervoltage_keeps {anc : State} (s : State) (p : Nat) (hk : anc.Keeps s) : anc.Keeps (State.undervoltage s p) := by
  unfold State.undervoltage
  repeat' first
    | with_reducible assumption | with_reducible apply State.post_keeps | with_reducible apply State.applyClocks_keeps
    | with_reducible refine State.keeps_fields ?_ | with_reducible refine State.keeps_put_regs ?_
    | with_reducible refine ite_keeps ?_ ?_ | split | dsimp only | simp only [State.keeps_mk]

theorem State.undervoltageEnd_keeps {anc : State} (s : State) (p : Nat) (hk : anc.Keeps s) : anc.Keeps (State.undervoltageEnd s p) := by
  unfold State.undervoltageEnd
  repeat' first
    | with_reducible assumption | with_reducible apply State.applyClocks_keeps | with_reducible refine State.keeps_fields ?_
    | with_reducible refine State.keeps_del_regs ?_ | with_reducible refine ite_keeps ?_ ?_ | split | dsimp only
    | simp only [State.keeps_mk]

theorem State.trends_keeps {anc : State} (s : State) (hk : anc.Keeps s) : anc.Keeps (State.trends s) := by
  unfold State.trends
  repeat' first
    | with_reducible assumption | with_reducible apply State.logEv_keeps | with_reducible apply State.suspect_keeps
    | with_reducible apply State.each_keeps | with_reducible refine State.keeps_fields ?_ | intro _ | dsimp only
    | simp only [State.keeps_mk]

theorem State.slowRound_keeps {anc : State} (s : State) (thbm : List (Option Int)) (tele : Nat) (peak : Nat) (leakOhm : Nat) (leakShort : Bool) (late : Nat) (hk : anc.Keeps s) : anc.Keeps (State.slowRound s thbm tele peak leakOhm leakShort late) := by
  unfold State.slowRound
  repeat' first
    | with_reducible assumption | with_reducible apply State.readAll_keeps | with_reducible apply State.countReversed_keeps
    | with_reducible apply State.countApart_keeps | with_reducible apply State.judgeFault_keeps
    | with_reducible apply State.judgeThermal_keeps | with_reducible apply State.thermistorFaults_keeps
    | with_reducible apply State.senseLeak_keeps | with_reducible apply State.senseInput_keeps
    | with_reducible apply State.governor_keeps | with_reducible apply State.undervoltage_keeps
    | with_reducible apply State.inc_keeps | with_reducible apply State.trends_keeps | with_reducible apply State.each_keeps
    | with_reducible refine State.keeps_fields ?_ | intro _ | with_reducible refine ite_keeps ?_ ?_ | split | dsimp only
    | simp only [State.keeps_mk]

theorem State.powerCapSet_keeps {anc : State} (s : State) (i : Instr) (c : Cmd) (hk : anc.Keeps s) : anc.Keeps (State.powerCapSet s i c) := by
  unfold State.powerCapSet
  repeat' first
    | with_reducible assumption | with_reducible apply State.vorane_keeps | with_reducible apply State.reply_keeps
    | with_reducible apply State.wf_keeps | with_reducible apply State.formCap_keeps | with_reducible apply State.when_keeps
    | intro _ | with_reducible refine ite_keeps ?_ ?_ | split | dsimp only

theorem State.sensorQuery_keeps {anc : State} (s : State) (i : Instr) (c : Cmd) (hk : anc.Keeps s) : anc.Keeps (State.sensorQuery s i c) := by
  unfold State.sensorQuery
  repeat' first
    | with_reducible assumption | with_reducible apply State.vorane_keeps | with_reducible apply State.reply_keeps | intro _
    | with_reducible refine ite_keeps ?_ ?_ | split | dsimp only

theorem State.ageCluster_keeps {anc : State} (s : State) (c : Nat) (stressed : Nat) (fresh : Nat) (hk : anc.Keeps s) : anc.Keeps (State.ageCluster s c stressed fresh) := by
  unfold State.ageCluster
  repeat' first
    | with_reducible assumption | with_reducible apply State.wf_keeps | with_reducible refine State.keeps_fields ?_
    | with_reducible refine State.keeps_put_regs ?_ | with_reducible refine ite_keeps ?_ ?_ | split | dsimp only
    | simp only [State.keeps_mk]

theorem State.ageMeasure_keeps {anc : State} (s : State) (counts : List (Nat × Nat)) (hk : anc.Keeps s) : anc.Keeps (State.ageMeasure s counts) := by
  unfold State.ageMeasure
  repeat' first
    | with_reducible assumption | with_reducible apply State.ageCluster_keeps | with_reducible apply State.each_keeps | intro _
    | with_reducible refine ite_keeps ?_ ?_ | split | dsimp only

theorem State.replanEv_keeps {anc : State} (s : State) (page : Page) (ref : Nat) (step : Nat) (old : Nat) (new : Nat) (hk : anc.Keeps s) : anc.Keeps (State.replanEv s page ref step old new) := by
  unfold State.replanEv
  repeat' first
    | with_reducible assumption | with_reducible apply State.post_keeps | dsimp only

theorem State.replanGuard_keeps {anc : State} (s : State) (p : Nat) (hk : anc.Keeps s) : anc.Keeps (State.replanGuard s p) := by
  unfold State.replanGuard
  repeat' first
    | with_reducible assumption | with_reducible apply State.replanEv_keeps | with_reducible apply State.wf_keeps
    | with_reducible apply State.post_keeps | with_reducible apply State.setInt_keeps | with_reducible apply State.applyClocks_keeps
    | with_reducible apply State.fieldRec_keeps | with_reducible apply foldl_keeps | intro _ | with_reducible refine ite_keeps ?_ ?_
    | split | dsimp only

theorem State.replanCal_keeps {anc : State} (s : State) (e : Nat) (hk : anc.Keeps s) : anc.Keeps (State.replanCal s e) := by
  unfold State.replanCal
  repeat' first
    | with_reducible assumption | with_reducible apply State.replanEv_keeps | with_reducible apply State.wf_keeps
    | with_reducible apply foldl_keeps | intro _ | with_reducible refine ite_keeps ?_ ?_ | split | dsimp only

theorem State.keepTrims_keeps {anc : State} (s : State) (e : Nat) (hk : anc.Keeps s) : anc.Keeps (State.keepTrims s e) := by
  unfold State.keepTrims
  repeat' first
    | with_reducible assumption | with_reducible apply State.each_keeps | with_reducible refine State.keeps_fields ?_
    | with_reducible refine State.keeps_put_regs ?_ | intro _ | with_reducible refine ite_keeps ?_ ?_ | split | dsimp only
    | simp only [State.keeps_mk]

theorem State.replanEndurance_keeps {anc : State} (s : State) (e : Nat) (hk : anc.Keeps s) : anc.Keeps (State.replanEndurance s e) := by
  unfold State.replanEndurance
  repeat' first
    | with_reducible assumption | with_reducible apply State.wf_keeps | with_reducible apply State.replanEv_keeps
    | with_reducible apply State.logEv_keeps | with_reducible apply State.each_keeps | with_reducible refine State.keeps_fields ?_
    | intro _ | with_reducible refine ite_keeps ?_ ?_ | split | dsimp only | simp only [State.keeps_mk]

theorem State.replanRung_keeps {anc : State} (s : State) (pc : Nat) (hk : anc.Keeps s) : anc.Keeps (State.replanRung s pc) := by
  unfold State.replanRung
  repeat' first
    | with_reducible assumption | with_reducible apply State.replanEv_keeps | with_reducible apply State.setRung_keeps
    | with_reducible refine ite_keeps ?_ ?_ | split | dsimp only

theorem State.replan_keeps {anc : State} (s : State) (hk : anc.Keeps s) : anc.Keeps (State.replan s) := by
  unfold State.replan
  repeat' first
    | with_reducible assumption | with_reducible apply State.replanGuard_keeps | with_reducible apply State.keepTrims_keeps
    | with_reducible apply State.replanCal_keeps | with_reducible apply State.wf_keeps
    | with_reducible apply State.replanEndurance_keeps | with_reducible apply State.replanRung_keeps
    | with_reducible apply State.setInt_keeps | with_reducible apply State.each_keeps | with_reducible refine State.keeps_fields ?_
    | intro _ | with_reducible refine ite_keeps ?_ ?_ | split | dsimp only | simp only [State.keeps_mk]

theorem State.replanDue_keeps {anc : State} (s : State) (hk : anc.Keeps s) : anc.Keeps (State.replanDue s) := by
  unfold State.replanDue
  repeat' first
    | with_reducible assumption | with_reducible apply State.replan_keeps | with_reducible refine ite_keeps ?_ ?_ | split
    | dsimp only

theorem State.replanNow_keeps {anc : State} (s : State) (hk : anc.Keeps s) : anc.Keeps (State.replanNow s) := by
  unfold State.replanNow
  repeat' first
    | with_reducible assumption | with_reducible apply State.replan_keeps | with_reducible refine State.keeps_fields ?_
    | with_reducible refine ite_keeps ?_ ?_ | split | dsimp only | simp only [State.keeps_mk]

theorem execConversionEnd_keeps {anc : State} (i : Nat) (code : Nat) (s : State) (hk : anc.Keeps s) : ∃ out, execConversionEnd i code s = .next out ∧ anc.Keeps out := by
  unfold execConversionEnd
  refine ⟨_, rfl, ?_⟩
  repeat' first
    | with_reducible assumption | with_reducible apply State.conversionEnd_keeps | dsimp only

theorem execOvercurrentComparator_keeps {anc : State} (i : Nat) (n : Nat) (s : State) (hk : anc.Keeps s) : ∃ out, execOvercurrentComparator i n s = .next out ∧ anc.Keeps out := by
  unfold execOvercurrentComparator
  refine ⟨_, rfl, ?_⟩
  repeat' first
    | with_reducible assumption | with_reducible apply State.overcurrent_keeps | dsimp only

theorem execSlowRound_keeps {anc : State} (thbm : List (Option Int)) (tele : Nat) (peak : Nat) (leakOhm : Nat) (leakShort : Bool) (late : Nat) (s : State) (hk : anc.Keeps s) : ∃ out, execSlowRound thbm tele peak leakOhm leakShort late s = .next out ∧ anc.Keeps out := by
  unfold execSlowRound
  refine ⟨_, rfl, ?_⟩
  repeat' first
    | with_reducible assumption | with_reducible apply State.slowRound_keeps | dsimp only

theorem execThrottleEscalate_keeps {anc : State} (p : Nat) (s : State) (hk : anc.Keeps s) : ∃ out, execThrottleEscalate p s = .next out ∧ anc.Keeps out := by
  unfold execThrottleEscalate
  refine ⟨_, rfl, ?_⟩
  repeat' first
    | with_reducible assumption | with_reducible apply State.throttleEscalate_keeps | dsimp only

theorem execUndervoltageEnd_keeps {anc : State} (p : Nat) (s : State) (hk : anc.Keeps s) : ∃ out, execUndervoltageEnd p s = .next out ∧ anc.Keeps out := by
  unfold execUndervoltageEnd
  refine ⟨_, rfl, ?_⟩
  repeat' first
    | with_reducible assumption | with_reducible apply State.undervoltageEnd_keeps | dsimp only

theorem execPowerCapSet_keeps {anc : State} (c : Cmd) (s : State) (hk : anc.Keeps s) : ∃ out, execPowerCapSet c s = .next out ∧ anc.Keeps out := by
  unfold execPowerCapSet
  refine ⟨_, rfl, ?_⟩
  repeat' first
    | with_reducible assumption | with_reducible apply State.powerCapSet_keeps | dsimp only

theorem execSensorQuery_keeps {anc : State} (c : Cmd) (s : State) (hk : anc.Keeps s) : ∃ out, execSensorQuery c s = .next out ∧ anc.Keeps out := by
  unfold execSensorQuery
  refine ⟨_, rfl, ?_⟩
  repeat' first
    | with_reducible assumption | with_reducible apply State.sensorQuery_keeps | dsimp only

theorem execAgeingMeasure_keeps {anc : State} (counts : List (Nat × Nat)) (s : State) (hk : anc.Keeps s) : ∃ out, execAgeingMeasure counts s = .next out ∧ anc.Keeps out := by
  unfold execAgeingMeasure
  refine ⟨_, rfl, ?_⟩
  repeat' first
    | with_reducible assumption | with_reducible apply State.ageMeasure_keeps | dsimp only

theorem execReplan_keeps {anc : State} (s : State) (hk : anc.Keeps s) : ∃ out, execReplan s = .next out ∧ anc.Keeps out := by
  unfold execReplan
  refine ⟨_, rfl, ?_⟩
  repeat' first
    | with_reducible assumption | with_reducible apply State.replanDue_keeps | dsimp only

end Sys2Proof.Machine
end

