-- ==== Sys2Proof/Laws/Keeps/Board.lean ====
section
/-! SUPPORT. Every operation and meaning of Machine/Board.lean leaves the queue alone and keeps the memories and the register table canonical. -/

namespace Sys2Proof.Machine

set_option linter.unreachableTactic false
set_option linter.unusedTactic false

theorem State.powerGone_keeps {anc : State} (s : State) (hk : anc.Keeps s) : anc.Keeps (State.powerGone s) := by
  unfold State.powerGone
  repeat' first
    | with_reducible assumption | with_reducible apply State.coldReset_keeps | with_reducible apply State.setPwrgd_keeps
    | with_reducible refine State.keeps_fields ?_ | with_reducible refine ite_keeps ?_ ?_ | split | dsimp only
    | simp only [State.keeps_mk]

theorem State.overvoltage_keeps {anc : State} (s : State) (hk : anc.Keeps s) : anc.Keeps (State.overvoltage s) := by
  unfold State.overvoltage
  repeat' first
    | with_reducible assumption | with_reducible apply State.emit_keeps | with_reducible apply State.powerGone_keeps
    | with_reducible refine ite_keeps ?_ ?_ | split | dsimp only

theorem State.inputReversed_keeps {anc : State} (s : State) (hk : anc.Keeps s) : anc.Keeps (State.inputReversed s) := by
  unfold State.inputReversed
  repeat' first
    | with_reducible assumption | with_reducible apply State.powerGone_keeps | with_reducible refine State.keeps_fields ?_
    | dsimp only | simp only [State.keeps_mk]

theorem State.reportReversed_keeps {anc : State} (s : State) (hk : anc.Keeps s) : anc.Keeps (State.reportReversed s) := by
  unfold State.reportReversed
  repeat' first
    | with_reducible assumption | with_reducible apply State.boardFault_keeps | with_reducible apply State.incSat_keeps
    | with_reducible refine State.keeps_fields ?_ | with_reducible refine ite_keeps ?_ ?_ | split | dsimp only
    | simp only [State.keeps_mk]

theorem State.powerApplied_keeps {anc : State} (s : State) (hk : anc.Keeps s) : anc.Keeps (State.powerApplied s) := by
  unfold State.powerApplied
  repeat' first
    | with_reducible assumption | with_reducible apply State.wf_keeps | with_reducible apply State.reportReversed_keeps
    | with_reducible apply State.setPwrgd_keeps | with_reducible apply State.emit_keeps | with_reducible refine State.keeps_fields ?_
    | with_reducible refine ite_keeps ?_ ?_ | split | dsimp only | simp only [State.keeps_mk]

theorem State.resetAssert_keeps {anc : State} (s : State) (hk : anc.Keeps s) : anc.Keeps (State.resetAssert s) := by
  unfold State.resetAssert
  repeat' first
    | with_reducible assumption | with_reducible apply State.raiseAlert_keeps | with_reducible apply State.boardFault_keeps
    | with_reducible apply State.coldReset_keeps | with_reducible apply State.wf_keeps | with_reducible refine State.keeps_fields ?_
    | with_reducible refine ite_keeps ?_ ?_ | split | dsimp only | simp only [State.keeps_mk]

theorem State.railOut_keeps {anc : State} (s : State) (hk : anc.Keeps s) : anc.Keeps (State.railOut s) := by
  unfold State.railOut
  repeat' first
    | with_reducible assumption | with_reducible apply State.setPwrgd_keeps | dsimp only

theorem State.sbNack_keeps {anc : State} (s : State) (hk : anc.Keeps s) : anc.Keeps (State.sbNack s) := by
  unfold State.sbNack
  repeat' first
    | with_reducible assumption | with_reducible apply State.emit_keeps | with_reducible apply State.setInt_keeps
    | with_reducible apply State.inc_keeps | dsimp only

theorem State.sbServe_keeps {anc : State} (s : State) (pecOk early : Bool) (act : State → State × List Nat) (hk : anc.Keeps s)
    (hact : ∀ t, anc.Keeps t → anc.Keeps (act t).1) : anc.Keeps (State.sbServe s pecOk early act) := by
  unfold State.sbServe
  repeat' first
    | with_reducible assumption
    | with_reducible apply hact
    | with_reducible apply State.inc_keeps
    | with_reducible apply State.emit_keeps
    | with_reducible apply State.sbNack_keeps
    | with_reducible apply State.each_keeps
    | with_reducible apply foldl_keeps
    | with_reducible apply foldl_keeps_pair
    | with_reducible apply foldl_keeps_triple
    | with_reducible apply State.when_keeps
    | with_reducible refine State.keeps_fields ?_
    | with_reducible refine State.keeps_write_hbm ?_
    | with_reducible refine State.keeps_write_sram ?_
    | with_reducible refine State.keeps_keep_hbm ?_
    | with_reducible refine State.keeps_keep_sram ?_
    | intro _
    | with_reducible refine ite_keeps ?_ ?_
    | split
    | dsimp only
    | simp only [State.keeps_mk]

theorem State.endAlert_keeps {anc : State} (s : State) (hk : anc.Keeps s) : anc.Keeps (State.endAlert s) := by
  unfold State.endAlert
  repeat' first
    | with_reducible assumption | with_reducible apply State.emit_keeps | with_reducible refine State.keeps_fields ?_
    | with_reducible refine ite_keeps ?_ ?_ | split | dsimp only | simp only [State.keeps_mk]

theorem State.sbIdent_keeps {anc : State} (s : State) (pecOk : Bool) (early : Bool) (hk : anc.Keeps s) : anc.Keeps (State.sbIdent s pecOk early) := by
  unfold State.sbIdent
  repeat' first
    | with_reducible assumption | with_reducible apply State.sbServe_keeps | intro _ | dsimp only

theorem State.sbState_keeps {anc : State} (s : State) (pecOk : Bool) (early : Bool) (hk : anc.Keeps s) : anc.Keeps (State.sbState s pecOk early) := by
  unfold State.sbState
  repeat' first
    | with_reducible assumption | with_reducible apply State.sbServe_keeps | with_reducible apply State.endAlert_keeps | intro _
    | dsimp only

theorem State.sbThermal_keeps {anc : State} (s : State) (pecOk : Bool) (early : Bool) (hk : anc.Keeps s) : anc.Keeps (State.sbThermal s pecOk early) := by
  unfold State.sbThermal
  repeat' first
    | with_reducible assumption | with_reducible apply State.sbServe_keeps | with_reducible apply foldl_keeps | intro _ | dsimp only

theorem State.sbPower_keeps {anc : State} (s : State) (pecOk : Bool) (early : Bool) (hk : anc.Keeps s) : anc.Keeps (State.sbPower s pecOk early) := by
  unfold State.sbPower
  repeat' first
    | with_reducible assumption | with_reducible apply State.sbServe_keeps | intro _ | dsimp only

theorem State.sbBoardCap_keeps {anc : State} (s : State) (pecOk : Bool) (w : Nat) (hk : anc.Keeps s) : anc.Keeps (State.sbBoardCap s pecOk w) := by
  unfold State.sbBoardCap
  repeat' first
    | with_reducible assumption | with_reducible apply State.sbNack_keeps | with_reducible apply State.sbServe_keeps
    | with_reducible apply State.formCap_keeps | with_reducible apply State.wf_keeps | intro _
    | with_reducible refine ite_keeps ?_ ?_ | split | dsimp only

theorem State.sbFaults_keeps {anc : State} (s : State) (pecOk : Bool) (early : Bool) (hk : anc.Keeps s) : anc.Keeps (State.sbFaults s pecOk early) := by
  unfold State.sbFaults
  repeat' first
    | with_reducible assumption | with_reducible apply State.sbServe_keeps | with_reducible apply State.endAlert_keeps | intro _
    | dsimp only

theorem State.clearFaults_keeps {anc : State} (s : State) (mask : Nat) (hk : anc.Keeps s) : anc.Keeps (State.clearFaults s mask) := by
  unfold State.clearFaults
  repeat' first
    | with_reducible assumption | with_reducible apply State.wf_keeps | dsimp only

theorem State.sbFaultClear_keeps {anc : State} (s : State) (pecOk : Bool) (mask : Nat) (hk : anc.Keeps s) : anc.Keeps (State.sbFaultClear s pecOk mask) := by
  unfold State.sbFaultClear
  repeat' first
    | with_reducible assumption | with_reducible apply State.sbServe_keeps | with_reducible apply State.clearFaults_keeps | intro _
    | dsimp only

theorem State.sbSetdasa_keeps {anc : State} (s : State) (static : Nat) (dyn : Nat) (hk : anc.Keeps s) : anc.Keeps (State.sbSetdasa s static dyn) := by
  unfold State.sbSetdasa
  repeat' first
    | with_reducible assumption | with_reducible refine State.keeps_fields ?_ | with_reducible refine ite_keeps ?_ ?_ | split
    | dsimp only | simp only [State.keeps_mk]

theorem State.sbEntdaa_keeps {anc : State} (s : State) (dyn : Nat) (hk : anc.Keeps s) : anc.Keeps (State.sbEntdaa s dyn) := by
  unfold State.sbEntdaa
  repeat' first
    | with_reducible assumption | with_reducible refine State.keeps_fields ?_ | with_reducible refine ite_keeps ?_ ?_ | split
    | dsimp only | simp only [State.keeps_mk]

theorem execPowerLoss_keeps {anc : State} (s : State) (hk : anc.Keeps s) : ∃ out, execPowerLoss s = .next out ∧ anc.Keeps out := by
  unfold execPowerLoss
  refine ⟨_, rfl, ?_⟩
  repeat' first
    | with_reducible assumption | with_reducible apply State.powerGone_keeps | dsimp only

theorem execInputReversed_keeps {anc : State} (s : State) (hk : anc.Keeps s) : ∃ out, execInputReversed s = .next out ∧ anc.Keeps out := by
  unfold execInputReversed
  refine ⟨_, rfl, ?_⟩
  repeat' first
    | with_reducible assumption | with_reducible apply State.inputReversed_keeps | dsimp only

theorem execResetNAssert_keeps {anc : State} (s : State) (hk : anc.Keeps s) : ∃ out, execResetNAssert s = .next out ∧ anc.Keeps out := by
  unfold execResetNAssert
  refine ⟨_, rfl, ?_⟩
  repeat' first
    | with_reducible assumption | with_reducible apply State.resetAssert_keeps | dsimp only

theorem execSbSetdasa_keeps {anc : State} (static : Nat) (dyn : Nat) (s : State) (hk : anc.Keeps s) : ∃ out, execSbSetdasa static dyn s = .next out ∧ anc.Keeps out := by
  unfold execSbSetdasa
  refine ⟨_, rfl, ?_⟩
  repeat' first
    | with_reducible assumption | with_reducible apply State.sbSetdasa_keeps | dsimp only

theorem execSbEntdaa_keeps {anc : State} (dyn : Nat) (s : State) (hk : anc.Keeps s) : ∃ out, execSbEntdaa dyn s = .next out ∧ anc.Keeps out := by
  unfold execSbEntdaa
  refine ⟨_, rfl, ?_⟩
  repeat' first
    | with_reducible assumption | with_reducible apply State.sbEntdaa_keeps | dsimp only

theorem execSbIdent_keeps {anc : State} (pecOk : Bool) (early : Bool) (s : State) (hk : anc.Keeps s) : ∃ out, execSbIdent pecOk early s = .next out ∧ anc.Keeps out := by
  unfold execSbIdent
  refine ⟨_, rfl, ?_⟩
  repeat' first
    | with_reducible assumption | with_reducible apply State.sbIdent_keeps | dsimp only

theorem execSbState_keeps {anc : State} (pecOk : Bool) (early : Bool) (s : State) (hk : anc.Keeps s) : ∃ out, execSbState pecOk early s = .next out ∧ anc.Keeps out := by
  unfold execSbState
  refine ⟨_, rfl, ?_⟩
  repeat' first
    | with_reducible assumption | with_reducible apply State.sbState_keeps | dsimp only

theorem execSbThermal_keeps {anc : State} (pecOk : Bool) (early : Bool) (s : State) (hk : anc.Keeps s) : ∃ out, execSbThermal pecOk early s = .next out ∧ anc.Keeps out := by
  unfold execSbThermal
  refine ⟨_, rfl, ?_⟩
  repeat' first
    | with_reducible assumption | with_reducible apply State.sbThermal_keeps | dsimp only

theorem execSbPower_keeps {anc : State} (pecOk : Bool) (early : Bool) (s : State) (hk : anc.Keeps s) : ∃ out, execSbPower pecOk early s = .next out ∧ anc.Keeps out := by
  unfold execSbPower
  refine ⟨_, rfl, ?_⟩
  repeat' first
    | with_reducible assumption | with_reducible apply State.sbPower_keeps | dsimp only

theorem execSbBoardCap_keeps {anc : State} (pecOk : Bool) (watts : Nat) (s : State) (hk : anc.Keeps s) : ∃ out, execSbBoardCap pecOk watts s = .next out ∧ anc.Keeps out := by
  unfold execSbBoardCap
  refine ⟨_, rfl, ?_⟩
  repeat' first
    | with_reducible assumption | with_reducible apply State.sbBoardCap_keeps | dsimp only

theorem execSbFaults_keeps {anc : State} (pecOk : Bool) (early : Bool) (s : State) (hk : anc.Keeps s) : ∃ out, execSbFaults pecOk early s = .next out ∧ anc.Keeps out := by
  unfold execSbFaults
  refine ⟨_, rfl, ?_⟩
  repeat' first
    | with_reducible assumption | with_reducible apply State.sbFaults_keeps | dsimp only

theorem execSbFaultClear_keeps {anc : State} (pecOk : Bool) (mask : Nat) (s : State) (hk : anc.Keeps s) : ∃ out, execSbFaultClear pecOk mask s = .next out ∧ anc.Keeps out := by
  unfold execSbFaultClear
  refine ⟨_, rfl, ?_⟩
  repeat' first
    | with_reducible assumption | with_reducible apply State.sbFaultClear_keeps | dsimp only

theorem execPowerApplied_keeps {anc : State} (s : State) (hk : anc.Keeps s) : ∃ out, execPowerApplied s = .next out ∧ anc.Keeps out := by
  unfold execPowerApplied
  refine ⟨_, rfl, ?_⟩
  repeat' first
    | with_reducible assumption | with_reducible apply State.powerApplied_keeps | dsimp only

theorem execInputOvervoltage_keeps {anc : State} (s : State) (hk : anc.Keeps s) : ∃ out, execInputOvervoltage s = .next out ∧ anc.Keeps out := by
  unfold execInputOvervoltage
  refine ⟨_, rfl, ?_⟩
  repeat' first
    | with_reducible assumption | with_reducible apply State.overvoltage_keeps | dsimp only

theorem execRailOutOfRegulation_keeps {anc : State} (s : State) (hk : anc.Keeps s) : ∃ out, execRailOutOfRegulation s = .next out ∧ anc.Keeps out := by
  unfold execRailOutOfRegulation
  refine ⟨_, rfl, ?_⟩
  repeat' first
    | with_reducible assumption | with_reducible apply State.railOut_keeps | dsimp only

end Sys2Proof.Machine
end

