-- ==== Sys2Proof/Laws/Keeps/Firmware.lean ====
section
/-! SUPPORT. Every operation and meaning of Machine/Firmware.lean leaves the queue alone and keeps the memories and the register table canonical. -/

namespace Sys2Proof.Machine

set_option linter.unreachableTactic false
set_option linter.unusedTactic false

theorem State.fwOutcome_keeps {anc : State} (s : State) (op : Nat) (status : Nat) (version : Nat) (hk : anc.Keeps s) : anc.Keeps (State.fwOutcome s op status version) := by
  unfold State.fwOutcome
  repeat' first
    | with_reducible assumption | with_reducible apply State.wf_keeps | with_reducible apply State.setInt_keeps
    | with_reducible apply State.logEvSev_keeps | with_reducible refine ite_keeps ?_ ?_ | split | dsimp only

theorem State.fwReply_keeps {anc : State} (s : State) (c : Cmd) (op : Nat) (status : Nat) (version : Nat) (hk : anc.Keeps s) : anc.Keeps (State.fwReply s c op status version) := by
  unfold State.fwReply
  repeat' first
    | with_reducible assumption | with_reducible apply State.reply_keeps | with_reducible apply State.fwOutcome_keeps | dsimp only

theorem State.fwStage_keeps {anc : State} (s : State) (c : Cmd) (hk : anc.Keeps s) : anc.Keeps (State.fwStage s c) := by
  unfold State.fwStage
  repeat' first
    | with_reducible assumption | with_reducible apply State.fwReply_keeps | with_reducible apply State.takeEffect_keeps
    | with_reducible apply State.wf_keeps | with_reducible apply State.issueRead_keeps | with_reducible refine State.keeps_fields ?_
    | with_reducible refine ite_keeps ?_ ?_ | split | dsimp only | simp only [State.keeps_mk]

theorem State.fwActivate_keeps {anc : State} (s : State) (c : Cmd) (hk : anc.Keeps s) : anc.Keeps (State.fwActivate s c) := by
  unfold State.fwActivate
  repeat' first
    | with_reducible assumption | with_reducible apply State.fwReply_keeps | with_reducible apply State.coldStart_keeps
    | with_reducible refine State.keeps_fields ?_ | with_reducible refine ite_keeps ?_ ?_ | split | dsimp only
    | simp only [State.keeps_mk]

theorem State.fwCommit_keeps {anc : State} (s : State) (c : Cmd) (hk : anc.Keeps s) : anc.Keeps (State.fwCommit s c) := by
  unfold State.fwCommit
  repeat' first
    | with_reducible assumption | with_reducible apply State.fwReply_keeps | with_reducible apply State.wf_keeps
    | with_reducible apply State.commitTrial_keeps | with_reducible apply State.reply_keeps | with_reducible apply State.setInt_keeps
    | with_reducible refine ite_keeps ?_ ?_ | split | dsimp only

theorem State.fwDiscard_keeps {anc : State} (s : State) (c : Cmd) (hk : anc.Keeps s) : anc.Keeps (State.fwDiscard s c) := by
  unfold State.fwDiscard
  repeat' first
    | with_reducible assumption | with_reducible apply State.fwReply_keeps | with_reducible apply State.wf_keeps
    | with_reducible refine ite_keeps ?_ ?_ | split | dsimp only

theorem State.fwUpdate_keeps {anc : State} (s : State) (i : Instr) (c : Cmd) (hk : anc.Keeps s) : anc.Keeps (State.fwUpdate s i c) := by
  unfold State.fwUpdate
  repeat' first
    | with_reducible assumption | with_reducible apply State.vorane_keeps | with_reducible apply State.fwReply_keeps
    | with_reducible apply State.fwStage_keeps | with_reducible apply State.fwActivate_keeps
    | with_reducible apply State.fwCommit_keeps | with_reducible apply State.fwDiscard_keeps | intro _
    | with_reducible refine ite_keeps ?_ ?_ | split | dsimp only

theorem State.fwForward_keeps {anc : State} (s : State) (next : Nat) (version : Nat) (hk : anc.Keeps s) : anc.Keeps (State.fwForward s next version) := by
  unfold State.fwForward
  repeat' first
    | with_reducible assumption | with_reducible apply State.sendBulk_keeps | with_reducible apply State.wf_keeps
    | with_reducible refine State.keeps_fields ?_ | dsimp only | simp only [State.keeps_mk]

theorem State.fwStageDone_keeps {anc : State} (s : State) (status : Nat) (version : Nat) (security : Nat) (raise : Bool) (bytes : Nat) (sections : List Nat) (hk : anc.Keeps s) : anc.Keeps (State.fwStageDone s status version security raise bytes sections) := by
  unfold State.fwStageDone
  repeat' first
    | with_reducible assumption | with_reducible apply State.fwAsk_keeps | with_reducible apply State.readDone_keeps
    | with_reducible apply State.wf_keeps | with_reducible apply State.inc_keeps | with_reducible apply State.fwForward_keeps
    | with_reducible apply State.bulkAck_keeps | with_reducible apply State.finish_keeps | with_reducible apply State.fwOutcome_keeps
    | with_reducible apply foldl_keeps | with_reducible refine State.keeps_fields ?_ | with_reducible refine State.keeps_put_regs ?_
    | intro _ | with_reducible refine ite_keeps ?_ ?_ | split | dsimp only | simp only [State.keeps_mk]

theorem State.fwChunk_keeps {anc : State} (s : State) (f : Frame) (hk : anc.Keeps s) : anc.Keeps (State.fwChunk s f) := by
  unfold State.fwChunk
  repeat' first
    | with_reducible assumption | with_reducible apply State.bulkAck_keeps | with_reducible refine State.keeps_fields ?_
    | with_reducible refine ite_keeps ?_ ?_ | split | dsimp only | simp only [State.keeps_mk]

theorem State.handover_keeps {anc : State} (s : State) (ck : Nat) (hk : anc.Keeps s) : anc.Keeps (State.handover s ck) := by
  unfold State.handover
  repeat' first
    | with_reducible assumption | with_reducible apply State.wf_keeps | with_reducible apply State.each_keeps | intro _
    | with_reducible refine ite_keeps ?_ ?_ | split | dsimp only

theorem State.imageChunk_keeps {anc : State} (s : State) (ck : Nat) (n : Nat) (data : List Nat) (hk : anc.Keeps s) : anc.Keeps (State.imageChunk s ck n data) := by
  unfold State.imageChunk
  repeat' first
    | with_reducible assumption | with_reducible apply State.sramMark_keeps | with_reducible apply State.sramWrite_keeps
    | with_reducible apply State.wf_keeps | with_reducible apply State.setSc_keeps | with_reducible apply foldl_keeps | intro _
    | with_reducible refine ite_keeps ?_ ?_ | split | dsimp only

theorem State.imageEnd_keeps {anc : State} (s : State) (ck : Nat) (count : Nat) (digest : Nat) (hk : anc.Keeps s) : anc.Keeps (State.imageEnd s ck count digest) := by
  unfold State.imageEnd
  repeat' first
    | with_reducible assumption | with_reducible apply State.setSc_keeps | with_reducible refine ite_keeps ?_ ?_ | split | dsimp only

theorem State.imageIdle_keeps {anc : State} (s : State) (hk : anc.Keeps s) : anc.Keeps (State.imageIdle s) := by
  unfold State.imageIdle
  repeat' first
    | with_reducible assumption | with_reducible apply State.wf_keeps | with_reducible refine ite_keeps ?_ ?_ | split | dsimp only

theorem State.imageReport_keeps {anc : State} (s : State) (ck : Nat) (hk : anc.Keeps s) : anc.Keeps (State.imageReport s ck) := by
  unfold State.imageReport
  repeat' first
    | with_reducible assumption | with_reducible apply State.imageIdle_keeps | with_reducible apply State.setSc_keeps
    | with_reducible apply State.scoreStart_keeps | with_reducible apply State.wf_keeps | with_reducible apply State.setInt_keeps
    | with_reducible apply State.inc_keeps | with_reducible apply State.handover_keeps | with_reducible apply State.suspect_keeps
    | with_reducible apply State.mesh_keeps | with_reducible refine ite_keeps ?_ ?_ | split | dsimp only

theorem execFwUpdateStage_keeps {anc : State} (c : Cmd) (s : State) (hk : anc.Keeps s) : ∃ out, execFwUpdateStage c s = .next out ∧ anc.Keeps out := by
  unfold execFwUpdateStage
  refine ⟨_, rfl, ?_⟩
  repeat' first
    | with_reducible assumption | with_reducible apply State.fwUpdate_keeps | dsimp only

theorem execFwUpdateActivate_keeps {anc : State} (c : Cmd) (s : State) (hk : anc.Keeps s) : ∃ out, execFwUpdateActivate c s = .next out ∧ anc.Keeps out := by
  unfold execFwUpdateActivate
  refine ⟨_, rfl, ?_⟩
  repeat' first
    | with_reducible assumption | with_reducible apply State.fwUpdate_keeps | dsimp only

theorem execFwUpdateCommit_keeps {anc : State} (c : Cmd) (s : State) (hk : anc.Keeps s) : ∃ out, execFwUpdateCommit c s = .next out ∧ anc.Keeps out := by
  unfold execFwUpdateCommit
  refine ⟨_, rfl, ?_⟩
  repeat' first
    | with_reducible assumption | with_reducible apply State.fwUpdate_keeps | dsimp only

theorem execFwUpdateDiscard_keeps {anc : State} (c : Cmd) (s : State) (hk : anc.Keeps s) : ∃ out, execFwUpdateDiscard c s = .next out ∧ anc.Keeps out := by
  unfold execFwUpdateDiscard
  refine ⟨_, rfl, ?_⟩
  repeat' first
    | with_reducible assumption | with_reducible apply State.fwUpdate_keeps | dsimp only

theorem execFwStageDone_keeps {anc : State} (status : Nat) (version : Nat) (security : Nat) (raise : Bool) (image : FwImage) (s : State) (hk : anc.Keeps s) : ∃ out, execFwStageDone status version security raise image s = .next out ∧ anc.Keeps out := by
  unfold execFwStageDone
  refine ⟨_, rfl, ?_⟩
  repeat' first
    | with_reducible assumption | with_reducible apply State.fwStageDone_keeps | dsimp only

theorem execFwChunk_keeps {anc : State} (f : Frame) (s : State) (hk : anc.Keeps s) : ∃ out, execFwChunk f s = .next out ∧ anc.Keeps out := by
  unfold execFwChunk
  refine ⟨_, rfl, ?_⟩
  repeat' first
    | with_reducible assumption | with_reducible apply State.fwChunk_keeps | dsimp only

theorem execCoreImageChunk_keeps {anc : State} (ck : Nat) (n : Nat) (data : List Nat) (s : State) (hk : anc.Keeps s) : ∃ out, execCoreImageChunk ck n data s = .next out ∧ anc.Keeps out := by
  unfold execCoreImageChunk
  refine ⟨_, rfl, ?_⟩
  repeat' first
    | with_reducible assumption | with_reducible apply State.imageChunk_keeps | dsimp only

theorem execCoreImageEnd_keeps {anc : State} (ck : Nat) (count : Nat) (digest : Nat) (s : State) (hk : anc.Keeps s) : ∃ out, execCoreImageEnd ck count digest s = .next out ∧ anc.Keeps out := by
  unfold execCoreImageEnd
  refine ⟨_, rfl, ?_⟩
  repeat' first
    | with_reducible assumption | with_reducible apply State.imageEnd_keeps | dsimp only

theorem execCoreImageReport_keeps {anc : State} (ck : Nat) (s : State) (hk : anc.Keeps s) : ∃ out, execCoreImageReport ck s = .next out ∧ anc.Keeps out := by
  unfold execCoreImageReport
  refine ⟨_, rfl, ?_⟩
  repeat' first
    | with_reducible assumption | with_reducible apply State.imageReport_keeps | dsimp only

end Sys2Proof.Machine
end

