-- ==== Sys2Proof/Laws/Keeps/Resets.lean ====
section
/-! SUPPORT. Every operation and meaning of Machine/Resets.lean leaves the queue alone and keeps the memories and the register table canonical. -/

namespace Sys2Proof.Machine

set_option linter.unreachableTactic false
set_option linter.unusedTactic false

theorem State.pagesReset_keeps {anc : State} (s : State) (dom : Dom) (hk : anc.Keeps s) : anc.Keeps (State.pagesReset s dom) := by
  unfold State.pagesReset
  repeat' first
    | with_reducible assumption | with_reducible refine State.keeps_fields ?_ | with_reducible refine State.keeps_keep_regs ?_
    | with_reducible refine State.keeps_keep_hbm ?_ | with_reducible refine State.keeps_keep_sram ?_ | split | dsimp only
    | simp only [State.keeps_mk]

theorem State.setDom_keeps {anc : State} (s : State) (d : Dom) (clu : Field) (part : Field) (die : Field) (v : Nat) (hk : anc.Keeps s) : anc.Keeps (State.setDom s d clu part die v) := by
  unfold State.setDom
  repeat' first
    | with_reducible assumption | with_reducible apply State.wf_keeps | split | dsimp only

theorem State.setRst_keeps {anc : State} (s : State) (x : ResetRec) (hk : anc.Keeps s) : anc.Keeps (State.setRst s x) := by
  unfold State.setRst
  repeat' first
    | with_reducible assumption | with_reducible refine State.keeps_fields ?_ | with_reducible refine ite_keeps ?_ ?_ | split
    | dsimp only | simp only [State.keeps_mk]

theorem State.dieEnd_keeps {anc : State} (s : State) (id : Nat) (hk : anc.Keeps s) : anc.Keeps (State.dieEnd s id) := by
  unfold State.dieEnd
  repeat' first
    | with_reducible assumption | with_reducible apply State.setReq_keeps | with_reducible apply State.setCtx_keeps
    | with_reducible apply State.fixOutcome_keeps | with_reducible apply State.takeEnd_keeps | with_reducible refine ite_keeps ?_ ?_
    | split | dsimp only

theorem State.cutCommands_keeps {anc : State} (s : State) (hk : anc.Keeps s) : anc.Keeps (State.cutCommands s) := by
  unfold State.cutCommands
  repeat' first
    | with_reducible assumption | with_reducible apply State.cutCmd_keeps | with_reducible apply State.setCmd_keeps
    | with_reducible apply State.each_keeps | intro _ | dsimp only

theorem State.retain_keeps {anc : State} (s : State) (hk : anc.Keeps s) : anc.Keeps (State.retain s) := by
  unfold State.retain
  repeat' first
    | with_reducible assumption | with_reducible refine State.keeps_fields ?_ | dsimp only | simp only [State.keeps_mk]

theorem State.loseHops_keeps {anc : State} (s : State) (hk : anc.Keeps s) : anc.Keeps (State.loseHops s) := by
  unfold State.loseHops
  repeat' first
    | with_reducible assumption | with_reducible apply State.logEvSev_keeps | with_reducible apply State.each_keeps | intro _
    | with_reducible refine ite_keeps ?_ ?_ | split | dsimp only

theorem State.dieCut_keeps {anc : State} (s0 : State) (hk : anc.Keeps s0) : anc.Keeps (State.dieCut s0) := by
  unfold State.dieCut
  repeat' first
    | with_reducible assumption | with_reducible apply State.loseHops_keeps | with_reducible apply State.retain_keeps
    | with_reducible apply State.abandonStage_keeps | with_reducible apply State.cutCommands_keeps
    | with_reducible apply State.dieEnd_keeps | with_reducible apply State.qpLeave_keeps | with_reducible apply State.each_keeps
    | with_reducible apply foldl_keeps | with_reducible refine State.keeps_fields ?_ | with_reducible refine State.keeps_put_regs ?_
    | intro _ | dsimp only | simp only [State.keeps_mk]

theorem State.partCut_keeps {anc : State} (s : State) (cores : List Nat) (hk : anc.Keeps s) : anc.Keeps (State.partCut s cores) := by
  unfold State.partCut
  repeat' first
    | with_reducible assumption | with_reducible apply State.loseKv_keeps | with_reducible apply State.each_keeps
    | with_reducible refine State.keeps_fields ?_ | with_reducible refine State.keeps_keep_regs ?_
    | with_reducible refine State.keeps_keep_hbm ?_ | with_reducible refine State.keeps_keep_sram ?_ | intro _ | dsimp only
    | simp only [State.keeps_mk]

theorem State.cutOne_keeps {anc : State} (s : State) (dom : Dom) (ck : Nat) (hk : anc.Keeps s) : anc.Keeps (State.cutOne s dom ck) := by
  unfold State.cutOne
  repeat' first
    | with_reducible assumption | with_reducible apply State.progInterrupt_keeps | with_reducible apply State.kvReply_keeps
    | with_reducible apply State.cutCoreClock_keeps | with_reducible apply State.each_keeps | intro _
    | with_reducible refine ite_keeps ?_ ?_ | split | dsimp only

theorem State.mirrorProg_keeps {anc : State} (s : State) (dom : Dom) (before : State) (hk : anc.Keeps s) : anc.Keeps (State.mirrorProg s dom before) := by
  unfold State.mirrorProg
  repeat' first
    | with_reducible assumption | with_reducible apply State.setProg_keeps | with_reducible apply State.setInt_keeps
    | with_reducible apply State.retrack_keeps | with_reducible apply State.each_keeps | intro _ | dsimp only

theorem State.genChanged_keeps {anc : State} (s : State) (dom : Dom) (hk : anc.Keeps s) : anc.Keeps (State.genChanged s dom) := by
  unfold State.genChanged
  repeat' first
    | with_reducible assumption | with_reducible apply State.setInt_keeps | with_reducible apply State.each_keeps | intro _
    | dsimp only

theorem State.cut_keeps {anc : State} (s : State) (x : ResetRec) (hk : anc.Keeps s) : anc.Keeps (State.cut s x) := by
  unfold State.cut
  repeat' first
    | with_reducible assumption | with_reducible apply State.bumpGen_keeps | with_reducible apply State.cutOne_keeps
    | with_reducible apply State.dieCut_keeps | with_reducible apply State.breakScores_keeps
    | with_reducible apply State.interruptStreams_keeps | refine State.interruptStreams_keeps_eq (by with_reducible assumption) ?_
    | with_reducible apply State.interruptRoles_keeps | refine State.interruptRoles_keeps_eq (by with_reducible assumption) ?_
    | with_reducible apply State.partCut_keeps | with_reducible apply State.genChanged_keeps
    | with_reducible apply State.mirrorProg_keeps | with_reducible apply State.pagesReset_keeps
    | with_reducible apply State.loseResiduals_keeps | with_reducible apply State.wf_keeps | with_reducible apply State.setDom_keeps
    | with_reducible apply State.setRst_keeps | with_reducible apply State.each_keeps | with_reducible apply State.when_keeps
    | intro _ | with_reducible refine ite_keeps ?_ ?_ | split | dsimp only

theorem State.cutWhenFree_keeps {anc : State} (s : State) (x : ResetRec) (hk : anc.Keeps s) : anc.Keeps (State.cutWhenFree s x) := by
  unfold State.cutWhenFree
  repeat' first
    | with_reducible assumption | with_reducible apply State.inc_keeps | with_reducible apply State.setRst_keeps
    | with_reducible apply State.cut_keeps | with_reducible refine ite_keeps ?_ ?_ | split | dsimp only

theorem State.takeOver_keeps {anc : State} (s : State) (dom : Dom) (hk : anc.Keeps s) : anc.Keeps (State.takeOver s dom).2 := by
  unfold State.takeOver
  repeat' first
    | with_reducible assumption | with_reducible apply State.setDom_keeps | with_reducible apply foldl_keeps
    | with_reducible apply foldl_keeps_pair | with_reducible apply foldl_keeps_triple | with_reducible refine State.keeps_fields ?_
    | intro _ | dsimp only | simp only [State.keeps_mk]

theorem State.takeOver_keeps_eq {anc : State} {s : State} {dom : Dom} {r0 tz} (heqx : State.takeOver s dom = (r0, tz)) (hk : anc.Keeps s) : anc.Keeps tz := by
  have := State.takeOver_keeps s dom hk (anc := anc)
  rwa [heqx] at this

theorem State.startReset_keeps {anc : State} (s : State) (dom : Dom) (absorb : Bool) (cause : Nat) (cmd : List (Nat × Nat)) (hk : anc.Keeps s) : anc.Keeps (State.startReset s dom absorb cause cmd) := by
  unfold State.startReset
  repeat' first
    | with_reducible assumption | with_reducible apply State.takeOver_keeps
    | refine State.takeOver_keeps_eq (by with_reducible assumption) ?_ | with_reducible apply State.inc_keeps
    | with_reducible apply State.setDom_keeps | with_reducible apply State.setModState_keeps | with_reducible apply State.wf_keeps
    | with_reducible apply State.finish_keeps | with_reducible apply State.setRst_keeps
    | with_reducible apply State.cutWhenFree_keeps | with_reducible apply State.each_keeps | with_reducible apply State.when_keeps
    | with_reducible refine State.keeps_fields ?_ | intro _ | with_reducible refine ite_keeps ?_ ?_ | split | dsimp only
    | simp only [State.keeps_mk]

theorem State.coldByReset_keeps {anc : State} (s : State) (absorb : Bool) (cause : Nat) (cmd : List (Nat × Nat)) (hk : anc.Keeps s) : anc.Keeps (State.coldByReset s absorb cause cmd) := by
  unfold State.coldByReset
  repeat' first
    | with_reducible assumption | with_reducible apply State.finish_keeps | with_reducible apply State.coldStart_keeps
    | with_reducible apply State.wf_keeps | with_reducible apply State.each_keeps | intro _ | dsimp only

theorem State.deferReset_keeps {anc : State} (s : State) (dom : Dom) (absorb : Bool) (cause : Nat) (cold : Bool) (cmd : List (Nat × Nat)) (hk : anc.Keeps s) : anc.Keeps (State.deferReset s dom absorb cause cold cmd) := by
  unfold State.deferReset
  repeat' first
    | with_reducible assumption | with_reducible refine State.keeps_fields ?_ | dsimp only | simp only [State.keeps_mk]

theorem State.beginReset_keeps {anc : State} (s : State) (dom : Dom) (absorb : Bool) (cause : Nat) (cold : Bool) (cmd : List (Nat × Nat)) (hk : anc.Keeps s) : anc.Keeps (State.beginReset s dom absorb cause cold cmd) := by
  unfold State.beginReset
  repeat' first
    | with_reducible assumption | with_reducible apply State.deferReset_keeps | with_reducible apply State.leaveProceed_keeps
    | with_reducible apply State.coldByReset_keeps | with_reducible apply State.startReset_keeps
    | with_reducible refine ite_keeps ?_ ?_ | split | dsimp only

theorem State.lateResets_keeps {anc : State} (s : State) (hk : anc.Keeps s) : anc.Keeps (State.lateResets s) := by
  unfold State.lateResets
  repeat' first
    | with_reducible assumption | with_reducible apply State.beginReset_keeps | with_reducible apply foldl_keeps
    | with_reducible refine State.keeps_fields ?_ | intro _ | with_reducible refine ite_keeps ?_ ?_ | split | dsimp only
    | simp only [State.keeps_mk]

theorem State.domainReset_keeps {anc : State} (s : State) (i : Instr) (c : Cmd) (hk : anc.Keeps s) : anc.Keeps (State.domainReset s i c) := by
  unfold State.domainReset
  repeat' first
    | with_reducible assumption | with_reducible apply State.vorane_keeps | with_reducible apply State.reply_keeps
    | with_reducible apply State.takeEffect_keeps | with_reducible apply State.setRst_keeps
    | with_reducible apply State.beginReset_keeps | intro _ | with_reducible refine ite_keeps ?_ ?_ | split | dsimp only

theorem State.ctlReset_keeps {anc : State} (s : State) (dom : Dom) (absorb : Bool) (cold : Bool) (cause : Nat) (hk : anc.Keeps s) : anc.Keeps (State.ctlReset s dom absorb cold cause) := by
  unfold State.ctlReset
  repeat' first
    | with_reducible assumption | with_reducible apply State.wf_keeps | with_reducible apply State.beginReset_keeps
    | with_reducible refine ite_keeps ?_ ?_ | split | dsimp only

theorem State.drainEnd_keeps {anc : State} (s : State) (dom : Dom) (hk : anc.Keeps s) : anc.Keeps (State.drainEnd s dom) := by
  unfold State.drainEnd
  repeat' first
    | with_reducible assumption | with_reducible apply State.cutWhenFree_keeps | with_reducible apply State.setDom_keeps
    | with_reducible refine ite_keeps ?_ ?_ | split | dsimp only

theorem State.genWaitEnd_keeps {anc : State} (s : State) (dom : Dom) (hk : anc.Keeps s) : anc.Keeps (State.genWaitEnd s dom) := by
  unfold State.genWaitEnd
  repeat' first
    | with_reducible assumption | with_reducible apply State.cut_keeps | with_reducible refine ite_keeps ?_ ?_ | split | dsimp only

theorem State.resetPhaseEnd_keeps {anc : State} (s : State) (dom : Dom) (hk : anc.Keeps s) : anc.Keeps (State.resetPhaseEnd s dom) := by
  unfold State.resetPhaseEnd
  repeat' first
    | with_reducible assumption | with_reducible apply State.setDom_keeps | with_reducible apply State.setRst_keeps
    | with_reducible apply State.phaseStart_keeps | with_reducible refine ite_keeps ?_ ?_ | split | dsimp only

theorem State.noteHang_keeps {anc : State} (s : State) (x : ResetRec) (hk : anc.Keeps s) : anc.Keeps (State.noteHang s x) := by
  unfold State.noteHang
  repeat' first
    | with_reducible assumption | with_reducible refine State.keeps_fields ?_ | with_reducible refine State.keeps_put_regs ?_
    | with_reducible refine ite_keeps ?_ ?_ | split | dsimp only | simp only [State.keeps_mk]

theorem State.dieRelease_keeps {anc : State} (s : State) (hk : anc.Keeps s) : anc.Keeps (State.dieRelease s) := by
  unfold State.dieRelease
  repeat' first
    | with_reducible assumption | with_reducible apply State.setVState_keeps | with_reducible apply State.clearEpoch_keeps
    | with_reducible apply State.setVar_keeps | with_reducible apply State.countServe_keeps | with_reducible apply State.each_keeps
    | with_reducible refine State.keeps_fields ?_ | intro _ | with_reducible refine ite_keeps ?_ ?_ | split | dsimp only
    | simp only [State.keeps_mk]

theorem State.resetting_keeps {anc : State} (s : State) (dom : Dom) (e : Nat × Nat × Nat) (hk : anc.Keeps s) : anc.Keeps (State.resetting s dom e) := by
  unfold State.resetting
  repeat' first
    | with_reducible assumption | with_reducible apply State.wf_keeps | with_reducible apply State.each_keeps | intro _
    | with_reducible refine ite_keeps ?_ ?_ | split | dsimp only

theorem State.reload_keeps {anc : State} (s : State) (dom : Dom) (hk : anc.Keeps s) : anc.Keeps (State.reload s dom) := by
  unfold State.reload
  repeat' first
    | with_reducible assumption | with_reducible apply State.resetting_keeps | with_reducible apply State.reloadItem_keeps
    | with_reducible apply State.each_keeps | with_reducible apply State.when_keeps | intro _ | dsimp only

theorem State.release_keeps {anc : State} (s : State) (x : ResetRec) (bad : List Nat) (hk : anc.Keeps s) : anc.Keeps (State.release s x bad) := by
  unfold State.release
  repeat' first
    | with_reducible assumption | with_reducible apply State.dieRelease_keeps | with_reducible apply State.interruptStreams_keeps
    | refine State.interruptStreams_keeps_eq (by with_reducible assumption) ?_ | with_reducible apply State.reload_keeps
    | with_reducible apply State.wf_keeps | with_reducible apply State.scoreStart_keeps | with_reducible apply State.noteHang_keeps
    | with_reducible apply State.setDom_keeps | with_reducible apply State.setInts_keeps | with_reducible apply State.finish_keeps
    | with_reducible apply State.mesh_keeps | with_reducible apply State.tryOwed_keeps | with_reducible apply State.serveQueue_keeps
    | with_reducible apply State.each_keeps | with_reducible refine State.keeps_fields ?_ | intro _
    | with_reducible refine ite_keeps ?_ ?_ | split | dsimp only | simp only [State.keeps_mk]

theorem State.resetRelease_keeps {anc : State} (s : State) (dom : Dom) (bad : List Nat) (hk : anc.Keeps s) : anc.Keeps (State.resetRelease s dom bad) := by
  unfold State.resetRelease
  repeat' first
    | with_reducible assumption | with_reducible apply State.release_keeps | with_reducible refine ite_keeps ?_ ?_ | split
    | dsimp only

theorem State.hangRec_keeps {anc : State} (s : State) (unit : Nat) (limit : Nat) (hk : anc.Keeps s) : anc.Keeps (State.hangRec s unit limit) := by
  unfold State.hangRec
  repeat' first
    | with_reducible assumption | with_reducible apply State.logEv_keeps | with_reducible apply State.inc_keeps | dsimp only

theorem State.resetHang_keeps {anc : State} (s : State) (dom : Dom) (limit : Nat) (hk : anc.Keeps s) : anc.Keeps (State.resetHang s dom limit) := by
  unfold State.resetHang
  repeat' first
    | with_reducible assumption | with_reducible apply State.logEv_keeps | with_reducible apply State.inc_keeps | dsimp only

theorem State.hang_keeps {anc : State} (s : State) (ck : Nat) (limit : Nat) (hk : anc.Keeps s) : anc.Keeps (State.hang s ck limit) := by
  unfold State.hang
  repeat' first
    | with_reducible assumption | with_reducible apply State.hangRec_keeps | with_reducible apply State.evidence_keeps
    | with_reducible apply State.beginReset_keeps | with_reducible refine ite_keeps ?_ ?_ | split | dsimp only

theorem State.stepWatchdog_keeps {anc : State} (s : State) (ck : Nat) (id : Nat) (waited : Nat) (hk : anc.Keeps s) : anc.Keeps (State.stepWatchdog s ck id waited) := by
  unfold State.stepWatchdog
  repeat' first
    | with_reducible assumption | with_reducible apply State.hang_keeps | with_reducible refine ite_keeps ?_ ?_ | split | dsimp only

theorem State.overrun_keeps {anc : State} (s : State) (v : Nat) (hk : anc.Keeps s) : anc.Keeps (State.overrun s v) := by
  unfold State.overrun
  repeat' first
    | with_reducible assumption | with_reducible apply State.kernelOverrun_keeps
    | refine State.kernelOverrun_keeps_eq (by with_reducible assumption) ?_ | with_reducible apply State.hang_keeps | split
    | dsimp only

theorem State.heartbeatLost_keeps {anc : State} (s : State) (ck : Nat) (hk : anc.Keeps s) : anc.Keeps (State.heartbeatLost s ck) := by
  unfold State.heartbeatLost
  repeat' first
    | with_reducible assumption | with_reducible apply State.handover_keeps | with_reducible apply State.hang_keeps
    | with_reducible apply State.setInt_keeps | with_reducible refine ite_keeps ?_ ?_ | split | dsimp only

theorem State.nobufLimit_keeps {anc : State} (s : State) (ck : Nat) (dest : Nat) (stream : Nat) (hk : anc.Keeps s) : anc.Keeps (State.nobufLimit s ck dest stream) := by
  unfold State.nobufLimit
  repeat' first
    | with_reducible assumption | with_reducible apply State.freeSet_keeps | with_reducible apply State.setBuf_keeps
    | with_reducible apply State.inc_keeps | with_reducible apply State.notice_keeps | with_reducible apply State.hangRec_keeps
    | with_reducible refine ite_keeps ?_ ?_ | split | dsimp only

theorem State.resetEscalation_keeps {anc : State} (s : State) (dom : Dom) (hk : anc.Keeps s) : anc.Keeps (State.resetEscalation s dom) := by
  unfold State.resetEscalation
  repeat' first
    | with_reducible assumption | with_reducible apply State.coldByReset_keeps | with_reducible apply State.resetHang_keeps
    | with_reducible apply State.setInt_keeps | with_reducible apply State.inc_keeps | with_reducible apply State.startReset_keeps
    | with_reducible refine ite_keeps ?_ ?_ | split | dsimp only

theorem execDomainReset_keeps {anc : State} (c : Cmd) (s : State) (hk : anc.Keeps s) : ∃ out, execDomainReset c s = .next out ∧ anc.Keeps out := by
  unfold execDomainReset
  refine ⟨_, rfl, ?_⟩
  repeat' first
    | with_reducible assumption | with_reducible apply State.domainReset_keeps | dsimp only

theorem execDrainEnd_keeps {anc : State} (scope : Nat) (target : Nat) (s : State) (hk : anc.Keeps s) : ∃ out, execDrainEnd scope target s = .next out ∧ anc.Keeps out := by
  unfold execDrainEnd
  refine ⟨_, rfl, ?_⟩
  repeat' first
    | with_reducible assumption | with_reducible apply State.drainEnd_keeps | dsimp only

theorem execResetPhaseEnd_keeps {anc : State} (scope : Nat) (target : Nat) (s : State) (hk : anc.Keeps s) : ∃ out, execResetPhaseEnd scope target s = .next out ∧ anc.Keeps out := by
  unfold execResetPhaseEnd
  refine ⟨_, rfl, ?_⟩
  repeat' first
    | with_reducible assumption | with_reducible apply State.resetPhaseEnd_keeps | dsimp only

theorem execResetRelease_keeps {anc : State} (scope : Nat) (target : Nat) (badCores : List Nat) (s : State) (hk : anc.Keeps s) : ∃ out, execResetRelease scope target badCores s = .next out ∧ anc.Keeps out := by
  unfold execResetRelease
  refine ⟨_, rfl, ?_⟩
  repeat' first
    | with_reducible assumption | with_reducible apply State.resetRelease_keeps | dsimp only

theorem execGenWaitEnd_keeps {anc : State} (scope : Nat) (target : Nat) (s : State) (hk : anc.Keeps s) : ∃ out, execGenWaitEnd scope target s = .next out ∧ anc.Keeps out := by
  unfold execGenWaitEnd
  refine ⟨_, rfl, ?_⟩
  repeat' first
    | with_reducible assumption | with_reducible apply State.genWaitEnd_keeps | dsimp only

theorem execStepWatchdog_keeps {anc : State} (ck : Nat) (id : Nat) (waited : Nat) (s : State) (hk : anc.Keeps s) : ∃ out, execStepWatchdog ck id waited s = .next out ∧ anc.Keeps out := by
  unfold execStepWatchdog
  refine ⟨_, rfl, ?_⟩
  repeat' first
    | with_reducible assumption | with_reducible apply State.stepWatchdog_keeps | dsimp only

theorem execKernelOverrun_keeps {anc : State} (v : Nat) (s : State) (hk : anc.Keeps s) : ∃ out, execKernelOverrun v s = .next out ∧ anc.Keeps out := by
  unfold execKernelOverrun
  refine ⟨_, rfl, ?_⟩
  repeat' first
    | with_reducible assumption | with_reducible apply State.overrun_keeps | dsimp only

theorem execHeartbeatLost_keeps {anc : State} (ck : Nat) (s : State) (hk : anc.Keeps s) : ∃ out, execHeartbeatLost ck s = .next out ∧ anc.Keeps out := by
  unfold execHeartbeatLost
  refine ⟨_, rfl, ?_⟩
  repeat' first
    | with_reducible assumption | with_reducible apply State.heartbeatLost_keeps | dsimp only

theorem execNobufLimit_keeps {anc : State} (ck : Nat) (dest : Nat) (stream : Nat) (s : State) (hk : anc.Keeps s) : ∃ out, execNobufLimit ck dest stream s = .next out ∧ anc.Keeps out := by
  unfold execNobufLimit
  refine ⟨_, rfl, ?_⟩
  repeat' first
    | with_reducible assumption | with_reducible apply State.nobufLimit_keeps | dsimp only

theorem execResetEscalation_keeps {anc : State} (scope : Nat) (target : Nat) (s : State) (hk : anc.Keeps s) : ∃ out, execResetEscalation scope target s = .next out ∧ anc.Keeps out := by
  unfold execResetEscalation
  refine ⟨_, rfl, ?_⟩
  repeat' first
    | with_reducible assumption | with_reducible apply State.resetEscalation_keeps | dsimp only

theorem execRouteHoldEnd_keeps {anc : State} (s : State) (hk : anc.Keeps s) : ∃ out, execRouteHoldEnd s = .next out ∧ anc.Keeps out := by
  unfold execRouteHoldEnd
  refine ⟨_, rfl, ?_⟩
  repeat' first
    | with_reducible assumption | with_reducible apply State.routeHoldEnd_keeps | with_reducible apply State.lateResets_keeps
    | with_reducible refine ite_keeps ?_ ?_ | split | dsimp only

end Sys2Proof.Machine
end

