-- ==== Sys2Proof/Laws/Keeps/Bringup.lean ====
section
/-! SUPPORT. Every operation and meaning of Machine/Bringup.lean leaves the queue alone and keeps the memories and the register table canonical. -/

namespace Sys2Proof.Machine

set_option linter.unreachableTactic false
set_option linter.unusedTactic false

theorem State.boardStart_keeps {anc : State} (s : State) (floating : Nat) (hk : anc.Keeps s) : anc.Keeps (State.boardStart s floating) := by
  unfold State.boardStart
  repeat' first
    | with_reducible assumption | with_reducible apply State.readStraps_keeps | with_reducible apply State.phaseStart_keeps
    | with_reducible apply State.wf_keeps | with_reducible refine State.keeps_fields ?_ | with_reducible refine ite_keeps ?_ ?_
    | split | dsimp only | simp only [State.keeps_mk]

theorem State.recovery_keeps {anc : State} (s : State) (cause : Nat) (hk : anc.Keeps s) : anc.Keeps (State.recovery s cause) := by
  unfold State.recovery
  repeat' first
    | with_reducible assumption | with_reducible apply State.wf_keeps | with_reducible apply State.setModState_keeps | dsimp only

theorem State.putDigest_keeps {anc : State} (s : State) (f : Field) (ws : List Nat) (hk : anc.Keeps s) : anc.Keeps (State.putDigest s f ws) := by
  unfold State.putDigest
  repeat' first
    | with_reducible assumption | with_reducible apply State.wf_keeps | with_reducible apply State.each_keeps | intro _ | dsimp only

theorem State.copyBad_keeps {anc : State} (s : State) (copy : Nat) (hk : anc.Keeps s) : anc.Keeps (State.copyBad s copy) := by
  unfold State.copyBad
  repeat' first
    | with_reducible assumption | with_reducible apply State.unitEv_keeps | with_reducible apply State.setInt_keeps | dsimp only

theorem State.chooseCopy_keeps {anc : State} (s : State) (b : Boot) (hk : anc.Keeps s) : anc.Keeps (State.chooseCopy s b).2 := by
  unfold State.chooseCopy
  repeat' first
    | with_reducible assumption | with_reducible apply State.wf_keeps | with_reducible apply State.putDigest_keeps
    | with_reducible apply State.copyBad_keeps | with_reducible refine ite_keeps ?_ ?_ | with_reducible refine ite_keeps2 ?_ ?_
    | with_reducible refine ite_keeps3 ?_ ?_ | split | dsimp only

theorem State.chooseCopy_keeps_eq {anc : State} {s : State} {b : Boot} {r0 tz} (heqx : State.chooseCopy s b = (r0, tz)) (hk : anc.Keeps s) : anc.Keeps tz := by
  have := State.chooseCopy_keeps s b hk (anc := anc)
  rwa [heqx] at this

theorem State.emptyRecord_keeps {anc : State} (s : State) (hk : anc.Keeps s) : anc.Keeps (State.emptyRecord s) := by
  unfold State.emptyRecord
  repeat' first
    | with_reducible assumption | with_reducible apply State.countAbsent_keeps | with_reducible apply State.unitEv_keeps
    | with_reducible apply State.wf_keeps | with_reducible refine State.keeps_fields ?_
    | with_reducible refine State.keeps_keep_regs ?_ | with_reducible refine State.keeps_keep_hbm ?_
    | with_reducible refine State.keeps_keep_sram ?_ | split | dsimp only | simp only [State.keeps_mk]

theorem State.restoreRungs_keeps {anc : State} (s : State) (hk : anc.Keeps s) : anc.Keeps (State.restoreRungs s) := by
  unfold State.restoreRungs
  repeat' first
    | with_reducible assumption | with_reducible apply State.applyClocks_keeps | with_reducible apply State.wf_keeps
    | with_reducible apply State.each_keeps | intro _ | dsimp only

theorem State.identity_keeps {anc : State} (s : State) (b : Boot) (hk : anc.Keeps s) : anc.Keeps (State.identity s b) := by
  unfold State.identity
  repeat' first
    | with_reducible assumption | with_reducible apply State.putDigest_keeps | with_reducible apply State.wf_keeps
    | with_reducible apply State.unitEv_keeps | with_reducible apply State.setInt_keeps | with_reducible refine ite_keeps ?_ ?_
    | split | dsimp only

theorem State.bootSlot_keeps {anc : State} (s : State) (t : Nat) (trial : Bool) (hk : anc.Keeps s) : anc.Keeps (State.bootSlot s t trial) := by
  unfold State.bootSlot
  repeat' first
    | with_reducible assumption | with_reducible apply State.wf_keeps | with_reducible refine State.keeps_fields ?_ | dsimp only
    | simp only [State.keeps_mk]

theorem State.bootFrom_keeps {anc : State} (s : State) (b : Boot) (l : List Nat) (hk : anc.Keeps s) :
    anc.Keeps (State.bootFrom s b l).2 ∧ ∀ t, (State.bootFrom s b l).1 = some t → anc.Keeps t := by
  induction l generalizing s with
  | nil => exact ⟨hk, fun t h => by cases h⟩
  | cons x l ih =>
    simp only [State.bootFrom]
    split
    · refine ⟨hk, fun t h => ?_⟩
      injection h with h
      subst h
      repeat' first
        | with_reducible assumption
        | with_reducible apply State.bootSlot_keeps
        | with_reducible apply State.wf_keeps
        | with_reducible apply State.each_keeps
        | with_reducible apply foldl_keeps
        | with_reducible apply foldl_keeps_pair
        | with_reducible apply foldl_keeps_triple
        | with_reducible apply State.when_keeps
        | with_reducible refine State.keeps_fields ?_
        | with_reducible refine State.keeps_write_hbm ?_
        | with_reducible refine State.keeps_write_sram ?_
        | with_reducible refine State.keeps_keep_hbm ?_
        | with_reducible refine State.keeps_keep_sram ?_
        | intro _
        | with_reducible refine ite_keeps ?_ ?_
        | split
        | dsimp only
        | simp only [State.keeps_mk]
    · exact ih _ (State.wf_keeps _ _ _ _ _ hk)

theorem State.chooseImage_keeps_both {anc : State} (s : State) (b : Boot) (hk : anc.Keeps s) :
    anc.Keeps (State.chooseImage s b).2 ∧ ∀ t, (State.chooseImage s b).1 = some t → anc.Keeps t := by
  unfold State.chooseImage
  dsimp only
  split
  · exact State.bootFrom_keeps _ _ _ hk
  · split
    · exact State.bootFrom_keeps _ _ _ (State.wf_keeps _ _ _ _ _ hk)
    · split
      · refine ⟨?_, fun t h => ?_⟩
        · skip
          simp only [State.keeps_mk]
          exact State.keeps_fields hk
        · injection h with h
          subst h
          repeat' first
            | with_reducible assumption
            | with_reducible apply State.bootSlot_keeps
            | with_reducible apply State.each_keeps
            | with_reducible apply foldl_keeps
            | with_reducible apply foldl_keeps_pair
            | with_reducible apply foldl_keeps_triple
            | with_reducible apply State.when_keeps
            | with_reducible refine State.keeps_fields ?_
            | with_reducible refine State.keeps_write_hbm ?_
            | with_reducible refine State.keeps_write_sram ?_
            | with_reducible refine State.keeps_keep_hbm ?_
            | with_reducible refine State.keeps_keep_sram ?_
            | intro _
            | with_reducible refine ite_keeps ?_ ?_
            | split
            | dsimp only
            | simp only [State.keeps_mk]
      · refine State.bootFrom_keeps _ _ _ (State.wf_keeps _ _ _ _ _ ?_)
        simp only [State.keeps_mk]
        exact State.keeps_fields hk

theorem State.chooseImage_keeps {anc : State} (s : State) (b : Boot) (hk : anc.Keeps s) : anc.Keeps (State.chooseImage s b).2 :=
  (State.chooseImage_keeps_both s b hk).1

theorem State.chooseImage_keeps_eq {anc : State} {s : State} {b : Boot} {r t} (heqx : State.chooseImage s b = (r, t)) (hk : anc.Keeps s) :
    anc.Keeps t := by
  have := State.chooseImage_keeps s b hk
  rwa [heqx] at this

theorem State.chooseImage_keeps_some {anc : State} {s : State} {b : Boot} {r t} (heqx : State.chooseImage s b = (some t, r))
    (hk : anc.Keeps s) : anc.Keeps t := (State.chooseImage_keeps_both s b hk).2 t (by rw [heqx])

theorem State.trialOutcome_keeps {anc : State} (s : State) (hk : anc.Keeps s) : anc.Keeps (State.trialOutcome s) := by
  unfold State.trialOutcome
  repeat' first
    | with_reducible assumption | with_reducible apply State.logEvSev_keeps | with_reducible refine State.keeps_fields ?_
    | with_reducible refine ite_keeps ?_ ?_ | split | dsimp only | simp only [State.keeps_mk]

theorem State.romEnd_keeps {anc : State} (s : State) (b : Boot) (hk : anc.Keeps s) : anc.Keeps (State.romEnd s b) := by
  unfold State.romEnd
  repeat' first
    | with_reducible assumption | with_reducible apply State.chooseCopy_keeps
    | refine State.chooseCopy_keeps_eq (by with_reducible assumption) ?_ | with_reducible apply State.recovery_keeps
    | with_reducible apply State.wf_keeps | with_reducible apply State.emptyRecord_keeps | with_reducible apply State.inc_keeps
    | with_reducible apply State.identity_keeps | with_reducible apply State.restoreRungs_keeps
    | with_reducible apply State.boardFault_keeps | with_reducible apply State.chooseImage_keeps
    | refine State.chooseImage_keeps_some (by with_reducible assumption) ?_
    | refine State.chooseImage_keeps_eq (by with_reducible assumption) ?_ | with_reducible apply State.phaseStart_keeps
    | with_reducible apply State.trialOutcome_keeps | with_reducible refine ite_keeps ?_ ?_ | split | dsimp only

theorem State.platformEnd_keeps {anc : State} (s : State) (bad : List (Nat × Nat)) (hk : anc.Keeps s) : anc.Keeps (State.platformEnd s bad) := by
  unfold State.platformEnd
  repeat' first
    | with_reducible assumption | with_reducible apply State.blockErr_keeps | with_reducible apply State.wf_keeps
    | with_reducible apply State.phaseStart_keeps | with_reducible apply State.dieFailure_keeps
    | with_reducible apply State.each_keeps | intro _ | with_reducible refine ite_keeps ?_ ?_ | split | dsimp only

theorem State.restoreHbm_keeps {anc : State} (s : State) (hk : anc.Keeps s) : anc.Keeps (State.restoreHbm s) := by
  unfold State.restoreHbm
  repeat' first
    | with_reducible assumption | with_reducible apply State.wf_keeps | with_reducible apply State.each_keeps | intro _ | dsimp only

theorem State.linksStart_keeps {anc : State} (s : State) (hk : anc.Keeps s) : anc.Keeps (State.linksStart s) := by
  unfold State.linksStart
  repeat' first
    | with_reducible assumption | with_reducible apply State.wf_keeps | with_reducible apply State.each_keeps
    | with_reducible apply State.when_keeps | intro _ | dsimp only

theorem State.memoryEnd_keeps {anc : State} (s : State) (hk : anc.Keeps s) : anc.Keeps (State.memoryEnd s) := by
  unfold State.memoryEnd
  repeat' first
    | with_reducible assumption | with_reducible apply State.phaseStart_keeps | with_reducible apply State.linksStart_keeps
    | with_reducible apply State.restoreHbm_keeps | with_reducible refine ite_keeps ?_ ?_ | split | dsimp only

theorem State.linksEnd_keeps {anc : State} (s : State) (hk : anc.Keeps s) : anc.Keeps (State.linksEnd s) := by
  unfold State.linksEnd
  repeat' first
    | with_reducible assumption | with_reducible apply State.phaseStart_keeps | with_reducible apply State.wf_keeps
    | with_reducible refine State.keeps_fields ?_ | with_reducible refine ite_keeps ?_ ?_ | split | dsimp only
    | simp only [State.keeps_mk]

theorem State.selfTest_keeps {anc : State} (s : State) (pc : Nat) (engines : Nat) (sram : Bool) (logic : Bool) (ni : Bool) (signature : Nat) (hk : anc.Keeps s) : anc.Keeps (State.selfTest s pc engines sram logic ni signature) := by
  unfold State.selfTest
  repeat' first
    | with_reducible assumption | with_reducible apply State.wf_keeps | with_reducible apply State.evidence_keeps
    | with_reducible refine State.keeps_fields ?_ | with_reducible refine ite_keeps ?_ ?_ | split | dsimp only
    | simp only [State.keeps_mk]

theorem State.bringupFences_keeps {anc : State} (s : State) (hk : anc.Keeps s) : anc.Keeps (State.bringupFences s) := by
  unfold State.bringupFences
  repeat' first
    | with_reducible assumption | with_reducible apply State.wf_keeps | with_reducible apply State.fenceAll_keeps
    | with_reducible refine State.keeps_fields ?_ | dsimp only | simp only [State.keeps_mk]

theorem State.assignRoles_keeps {anc : State} (s : State) (hk : anc.Keeps s) : anc.Keeps (State.assignRoles s) := by
  unfold State.assignRoles
  repeat' first
    | with_reducible assumption | with_reducible apply State.handover_keeps | with_reducible apply State.each_keeps | intro _
    | with_reducible refine ite_keeps ?_ ?_ | split | dsimp only

theorem State.coresEnd_keeps {anc : State} (s : State) (bad : List Nat) (hk : anc.Keeps s) : anc.Keeps (State.coresEnd s bad) := by
  unfold State.coresEnd
  repeat' first
    | with_reducible assumption | with_reducible apply State.bringupFences_keeps | with_reducible apply State.release_keeps
    | with_reducible apply State.phaseStart_keeps | with_reducible apply State.assignRoles_keeps
    | with_reducible apply State.tryOwed_keeps | with_reducible apply State.lateResets_keeps
    | with_reducible apply State.replan_keeps | with_reducible apply State.each_keeps | with_reducible apply State.when_keeps
    | intro _ | with_reducible refine ite_keeps ?_ ?_ | split | dsimp only

theorem State.phaseTimeout_keeps {anc : State} (s : State) (hk : anc.Keeps s) : anc.Keeps (State.phaseTimeout s) := by
  unfold State.phaseTimeout
  repeat' first
    | with_reducible assumption | with_reducible apply State.setInt_keeps | with_reducible apply State.inc_keeps
    | with_reducible apply State.coldByReset_keeps | with_reducible apply State.failWith_keeps
    | with_reducible refine ite_keeps ?_ ?_ | split | dsimp only

theorem State.moduleLeave_keeps {anc : State} (s : State) (i : Instr) (c : Cmd) (hk : anc.Keeps s) : anc.Keeps (State.moduleLeave s i c) := by
  unfold State.moduleLeave
  repeat' first
    | with_reducible assumption | with_reducible apply State.vorane_keeps | with_reducible apply State.takeEffect_keeps
    | with_reducible apply State.reply_keeps | with_reducible apply State.leaveProceed_keeps
    | with_reducible apply State.withdrawTorus_keeps | with_reducible apply State.leaveGate_keeps
    | with_reducible refine State.keeps_fields ?_ | intro _ | with_reducible refine ite_keeps ?_ ?_ | split | dsimp only
    | simp only [State.keeps_mk]

theorem State.leaveDrained_keeps {anc : State} (s : State) (hk : anc.Keeps s) : anc.Keeps (State.leaveDrained s) := by
  unfold State.leaveDrained
  repeat' first
    | with_reducible assumption | with_reducible apply State.leaveProceed_keeps | with_reducible refine ite_keeps ?_ ?_ | split
    | dsimp only

theorem State.leaveLimit_keeps {anc : State} (s : State) (hk : anc.Keeps s) : anc.Keeps (State.leaveLimit s) := by
  unfold State.leaveLimit
  repeat' first
    | with_reducible assumption | with_reducible apply State.leaveProceed_keeps | with_reducible refine ite_keeps ?_ ?_ | split
    | dsimp only

theorem execColdStart_keeps {anc : State} (floating : Nat) (s : State) (hk : anc.Keeps s) : ∃ out, execColdStart floating s = .next out ∧ anc.Keeps out := by
  unfold execColdStart
  refine ⟨_, rfl, ?_⟩
  repeat' first
    | with_reducible assumption | with_reducible apply State.boardStart_keeps | dsimp only

theorem execRomPhaseEnd_keeps {anc : State} (b : Boot) (s : State) (hk : anc.Keeps s) : ∃ out, execRomPhaseEnd b s = .next out ∧ anc.Keeps out := by
  unfold execRomPhaseEnd
  refine ⟨_, rfl, ?_⟩
  repeat' first
    | with_reducible assumption | with_reducible apply State.romEnd_keeps | dsimp only

theorem execPlatformPhaseEnd_keeps {anc : State} (bad : List (Nat × Nat)) (s : State) (hk : anc.Keeps s) : ∃ out, execPlatformPhaseEnd bad s = .next out ∧ anc.Keeps out := by
  unfold execPlatformPhaseEnd
  refine ⟨_, rfl, ?_⟩
  repeat' first
    | with_reducible assumption | with_reducible apply State.platformEnd_keeps | dsimp only

theorem execMemoryPhaseEnd_keeps {anc : State} (s : State) (hk : anc.Keeps s) : ∃ out, execMemoryPhaseEnd s = .next out ∧ anc.Keeps out := by
  unfold execMemoryPhaseEnd
  refine ⟨_, rfl, ?_⟩
  repeat' first
    | with_reducible assumption | with_reducible apply State.memoryEnd_keeps | dsimp only

theorem execLinksPhaseEnd_keeps {anc : State} (s : State) (hk : anc.Keeps s) : ∃ out, execLinksPhaseEnd s = .next out ∧ anc.Keeps out := by
  unfold execLinksPhaseEnd
  refine ⟨_, rfl, ?_⟩
  repeat' first
    | with_reducible assumption | with_reducible apply State.linksEnd_keeps | dsimp only

theorem execSelfTestDone_keeps {anc : State} (pc : Nat) (engines : Nat) (sramBad : Bool) (logicBad : Bool) (niBad : Bool) (signature : Nat) (s : State) (hk : anc.Keeps s) : ∃ out, execSelfTestDone pc engines sramBad logicBad niBad signature s = .next out ∧ anc.Keeps out := by
  unfold execSelfTestDone
  refine ⟨_, rfl, ?_⟩
  repeat' first
    | with_reducible assumption | with_reducible apply State.selfTest_keeps | dsimp only

theorem execCoresPhaseEnd_keeps {anc : State} (badCores : List Nat) (s : State) (hk : anc.Keeps s) : ∃ out, execCoresPhaseEnd badCores s = .next out ∧ anc.Keeps out := by
  unfold execCoresPhaseEnd
  refine ⟨_, rfl, ?_⟩
  repeat' first
    | with_reducible assumption | with_reducible apply State.coresEnd_keeps | dsimp only

theorem execPhaseTimeout_keeps {anc : State} (s : State) (hk : anc.Keeps s) : ∃ out, execPhaseTimeout s = .next out ∧ anc.Keeps out := by
  unfold execPhaseTimeout
  refine ⟨_, rfl, ?_⟩
  repeat' first
    | with_reducible assumption | with_reducible apply State.phaseTimeout_keeps | dsimp only

theorem execModuleLeave_keeps {anc : State} (c : Cmd) (s : State) (hk : anc.Keeps s) : ∃ out, execModuleLeave c s = .next out ∧ anc.Keeps out := by
  unfold execModuleLeave
  refine ⟨_, rfl, ?_⟩
  repeat' first
    | with_reducible assumption | with_reducible apply State.moduleLeave_keeps | dsimp only

theorem execLeaveDrainDone_keeps {anc : State} (s : State) (hk : anc.Keeps s) : ∃ out, execLeaveDrainDone s = .next out ∧ anc.Keeps out := by
  unfold execLeaveDrainDone
  refine ⟨_, rfl, ?_⟩
  repeat' first
    | with_reducible assumption | with_reducible apply State.leaveDrained_keeps | dsimp only

theorem execLeaveLimit_keeps {anc : State} (s : State) (hk : anc.Keeps s) : ∃ out, execLeaveLimit s = .next out ∧ anc.Keeps out := by
  unfold execLeaveLimit
  refine ⟨_, rfl, ?_⟩
  repeat' first
    | with_reducible assumption | with_reducible apply State.leaveLimit_keeps | dsimp only

end Sys2Proof.Machine
end

