-- ==== Sys2Proof/Laws/Keeps/SCore.lean ====
section
/-! SUPPORT. Every operation and meaning of Machine/SCore.lean leaves the queue alone and keeps the memories and the register table canonical. -/

namespace Sys2Proof.Machine

set_option linter.unreachableTactic false
set_option linter.unusedTactic false

theorem State.scoreTrap_keeps {anc : State} (s : State) (ck : Nat) (pc : Nat) (cause : Nat) (tval : Nat) (hk : anc.Keeps s) : anc.Keeps (State.scoreTrap s ck pc cause tval) := by
  unfold State.scoreTrap
  repeat' first
    | with_reducible assumption | with_reducible apply State.setSc_keeps | dsimp only

theorem State.customTrap_keeps {anc : State} (s : State) (ck : Nat) (pc : Nat) (cause : Nat) (tval : Nat) (hk : anc.Keeps s) : anc.Keeps (State.customTrap s ck pc cause tval) := by
  unfold State.customTrap
  repeat' first
    | with_reducible assumption | with_reducible apply State.wf_keeps | with_reducible apply State.scoreTrap_keeps | dsimp only

theorem State.hollowLoad_keeps {anc : State} (s : State) (ck : Nat) (pc : Nat) (a : Nat) (n : Nat) (lost : Bool) (hk : anc.Keeps s) : anc.Keeps (State.hollowLoad s ck pc a n lost) := by
  unfold State.hollowLoad
  repeat' first
    | with_reducible assumption | with_reducible apply State.setInt_keeps | with_reducible apply State.customTrap_keeps
    | with_reducible refine ite_keeps ?_ ?_ | split | dsimp only

theorem State.accessFault_keeps {anc : State} (s : State) (ck : Nat) (pc : Nat) (a : Nat) (n : Nat) (kind : Nat) (hk : anc.Keeps s) : anc.Keeps (State.accessFault s ck pc a n kind) := by
  unfold State.accessFault
  repeat' first
    | with_reducible assumption | with_reducible apply State.scoreTrap_keeps | with_reducible refine ite_keeps ?_ ?_ | split
    | dsimp only

theorem State.beat_keeps {anc : State} (s : State) (ck : Nat) (hk : anc.Keeps s) : anc.Keeps (State.beat s ck) := by
  unfold State.beat
  repeat' first
    | with_reducible assumption | with_reducible apply State.wf_keeps | with_reducible apply State.setSc_keeps | dsimp only

theorem State.timerLevel_keeps {anc : State} (s : State) (ck : Nat) (hk : anc.Keeps s) : anc.Keeps (State.timerLevel s ck) := by
  unfold State.timerLevel
  repeat' first
    | with_reducible assumption | with_reducible apply State.setSc_keeps | dsimp only

theorem State.txSend_keeps {anc : State} (s : State) (ck : Nat) (off : Nat) (hk : anc.Keeps s) : anc.Keeps (State.txSend s ck off) := by
  unfold State.txSend
  repeat' first
    | with_reducible assumption | with_reducible apply State.setSc_keeps | with_reducible refine ite_keeps ?_ ?_ | split | dsimp only

theorem State.rxTail_keeps {anc : State} (s : State) (ck : Nat) (v : Nat) (hk : anc.Keeps s) : anc.Keeps (State.rxTail s ck v) := by
  unfold State.rxTail
  repeat' first
    | with_reducible assumption | with_reducible apply State.setSc_keeps | with_reducible apply State.wf_keeps
    | with_reducible apply State.freePip_keeps | with_reducible apply State.each_keeps | intro _ | dsimp only

theorem State.ringDoorbell_keeps {anc : State} (s : State) (ck : Nat) (off : Nat) (hk : anc.Keeps s) : anc.Keeps (State.ringDoorbell s ck off) := by
  unfold State.ringDoorbell
  repeat' first
    | with_reducible assumption | with_reducible refine State.keeps_fields ?_ | with_reducible refine ite_keeps ?_ ?_ | split
    | dsimp only | simp only [State.keeps_mk]

theorem State.lcbWrite_keeps {anc : State} (s : State) (ck : Nat) (off : Nat) (w : Nat) (hk : anc.Keeps s) : anc.Keeps (State.lcbWrite s ck off w) := by
  unfold State.lcbWrite
  repeat' first
    | with_reducible assumption | with_reducible apply State.timerLevel_keeps | with_reducible apply State.wf_keeps
    | with_reducible apply State.rxTail_keeps | with_reducible apply State.txSend_keeps | with_reducible apply State.beat_keeps
    | with_reducible apply State.kvGo_keeps | with_reducible apply State.ringDoorbell_keeps | with_reducible apply foldl_keeps
    | intro _ | with_reducible refine ite_keeps ?_ ?_ | split | dsimp only

theorem State.scoreStore_keeps {anc : State} (s : State) (ck : Nat) (off : Nat) (w : Nat) (hk : anc.Keeps s) : anc.Keeps (State.scoreStore s ck off w) := by
  unfold State.scoreStore
  repeat' first
    | with_reducible assumption | with_reducible apply State.lcbWrite_keeps | with_reducible refine ite_keeps ?_ ?_ | split
    | dsimp only

theorem State.mtimecmp_keeps {anc : State} (s : State) (ck : Nat) (hk : anc.Keeps s) : anc.Keeps (State.mtimecmp s ck) := by
  unfold State.mtimecmp
  repeat' first
    | with_reducible assumption | with_reducible apply State.timerLevel_keeps | with_reducible refine ite_keeps ?_ ?_ | split
    | dsimp only

theorem State.mailbox_keeps {anc : State} (s : State) (ck : Nat) (w : Nat) (hk : anc.Keeps s) : anc.Keeps (State.mailbox s ck w) := by
  unfold State.mailbox
  repeat' first
    | with_reducible assumption | with_reducible apply State.setSc_keeps | with_reducible apply State.wf_keeps
    | with_reducible refine ite_keeps ?_ ?_ | split | dsimp only

theorem State.txInject_keeps {anc : State} {s : State} {ck : Nat} {a l : List Nat} {t : State} (heqx : State.txInject s ck a l = some t)
    (hk : anc.Keeps s) : anc.Keeps t := by
  induction l generalizing a with
  | nil => simp [State.txInject] at heqx
  | cons x l ih =>
    simp only [State.txInject] at heqx
    split at heqx
    · exact ih heqx
    · split at heqx
      · injection heqx with heqx
        subst heqx
        repeat' first
          | with_reducible assumption
          | with_reducible apply State.setSc_keeps
          | refine State.inject_keeps_some (by with_reducible assumption) ?_
          | with_reducible apply State.each_keeps
          | with_reducible apply foldl_keeps
          | with_reducible apply foldl_keeps_pair
          | with_reducible apply foldl_keeps_triple
          | with_reducible apply State.when_keeps
          | with_reducible refine State.keeps_fields ?_
          | with_reducible refine State.keeps_write_hbm ?_
          | with_reducible refine State.keeps_write_sram ?_
          | with_reducible refine State.keeps_keep_hbm ?_
          | with_reducible refine State.keeps_keep_sram ?_
          | intro _
          | with_reducible refine ite_keeps ?_ ?_
          | split
          | dsimp only
          | simp only [State.keeps_mk]
      · exact ih heqx

theorem State.pipSendS_keeps {anc : State} (s : State) (ck : Nat) (hk : anc.Keeps s) : anc.Keeps (State.pipSendS s ck) := by
  unfold State.pipSendS
  repeat' first
    | with_reducible assumption | refine State.txInject_keeps (by with_reducible assumption) ?_
    | with_reducible apply State.inject_keeps | refine State.inject_keeps_some (by with_reducible assumption) ?_
    | refine State.inject_keeps_eq (by with_reducible assumption) ?_ | split | dsimp only

theorem State.pipSend_keeps {anc : State} (s : State) (ck : Nat) (hk : anc.Keeps s) : anc.Keeps (State.pipSend s ck) := by
  unfold State.pipSend
  repeat' first
    | with_reducible assumption | with_reducible apply State.pipSendM_keeps | with_reducible apply State.pipSendV_keeps
    | with_reducible apply State.pipSendS_keeps | with_reducible refine ite_keeps ?_ ?_ | split | dsimp only

theorem State.seamFlit_keeps {anc : State} (s : State) (r : Nat) (port : Nat) (hk : anc.Keeps s) : anc.Keeps (State.seamFlit s r port) := by
  unfold State.seamFlit
  repeat' first
    | with_reducible assumption | with_reducible apply State.inc_keeps | with_reducible refine ite_keeps ?_ ?_ | split | dsimp only

theorem State.linkFailed_keeps {anc : State} (s : State) (r : Nat) (port : Nat) (hk : anc.Keeps s) : anc.Keeps (State.linkFailed s r port) := by
  unfold State.linkFailed
  repeat' first
    | with_reducible assumption | with_reducible apply State.wf_keeps | with_reducible apply State.dieFailure_keeps
    | with_reducible apply State.blockErr_keeps | with_reducible refine State.keeps_fields ?_ | with_reducible refine ite_keeps ?_ ?_
    | split | dsimp only | simp only [State.keeps_mk]

theorem State.flitReceive_keeps {anc : State} (s : State) (r : Nat) (port : Nat) (f : Flit) (hk : anc.Keeps s) : anc.Keeps (State.flitReceive s r port f) := by
  unfold State.flitReceive
  repeat' first
    | with_reducible assumption | with_reducible apply State.takeFlit_keeps | with_reducible apply State.acceptFlit_keeps
    | with_reducible apply State.seamFlit_keeps | with_reducible apply State.setInt_keeps | with_reducible apply State.inc_keeps
    | with_reducible apply State.linkFailed_keeps | with_reducible apply State.retryFlit_keeps
    | with_reducible refine State.keeps_fields ?_ | with_reducible refine State.keeps_put_regs ?_
    | with_reducible refine State.keeps_del_regs ?_ | with_reducible refine ite_keeps ?_ ?_ | split | dsimp only
    | simp only [State.keeps_mk]

theorem execScoreHeartbeat_keeps {anc : State} (ck : Nat) (w : Nat) (s : State) (hk : anc.Keeps s) : ∃ out, execScoreHeartbeat ck w s = .next out ∧ anc.Keeps out := by
  unfold execScoreHeartbeat
  refine ⟨_, rfl, ?_⟩
  repeat' first
    | with_reducible assumption | with_reducible apply State.scoreStore_keeps | dsimp only

theorem execMtimecmpInterrupt_keeps {anc : State} (ck : Nat) (s : State) (hk : anc.Keeps s) : ∃ out, execMtimecmpInterrupt ck s = .next out ∧ anc.Keeps out := by
  unfold execMtimecmpInterrupt
  refine ⟨_, rfl, ?_⟩
  repeat' first
    | with_reducible assumption | with_reducible apply State.mtimecmp_keeps | dsimp only

theorem execTxSend_keeps {anc : State} (ck : Nat) (w : Nat) (s : State) (hk : anc.Keeps s) : ∃ out, execTxSend ck w s = .next out ∧ anc.Keeps out := by
  unfold execTxSend
  refine ⟨_, rfl, ?_⟩
  repeat' first
    | with_reducible assumption | with_reducible apply State.scoreStore_keeps | dsimp only

theorem execRxTailWrite_keeps {anc : State} (ck : Nat) (w : Nat) (s : State) (hk : anc.Keeps s) : ∃ out, execRxTailWrite ck w s = .next out ∧ anc.Keeps out := by
  unfold execRxTailWrite
  refine ⟨_, rfl, ?_⟩
  repeat' first
    | with_reducible assumption | with_reducible apply State.scoreStore_keeps | dsimp only

theorem execMailbox_keeps {anc : State} (ck : Nat) (w : Nat) (s : State) (hk : anc.Keeps s) : ∃ out, execMailbox ck w s = .next out ∧ anc.Keeps out := by
  unfold execMailbox
  refine ⟨_, rfl, ?_⟩
  repeat' first
    | with_reducible assumption | with_reducible apply State.mailbox_keeps | dsimp only

theorem execHollowLoad_keeps {anc : State} (ck : Nat) (pc : Nat) (a : Nat) (n : Nat) (lost : Bool) (s : State) (hk : anc.Keeps s) : ∃ out, execHollowLoad ck pc a n lost s = .next out ∧ anc.Keeps out := by
  unfold execHollowLoad
  refine ⟨_, rfl, ?_⟩
  repeat' first
    | with_reducible assumption | with_reducible apply State.hollowLoad_keeps | dsimp only

theorem execAccessFault_keeps {anc : State} (ck : Nat) (pc : Nat) (a : Nat) (n : Nat) (kind : Nat) (s : State) (hk : anc.Keeps s) : ∃ out, execAccessFault ck pc a n kind s = .next out ∧ anc.Keeps out := by
  unfold execAccessFault
  refine ⟨_, rfl, ?_⟩
  repeat' first
    | with_reducible assumption | with_reducible apply State.accessFault_keeps | dsimp only

theorem execPipSend_keeps {anc : State} (ck : Nat) (s : State) (hk : anc.Keeps s) : ∃ out, execPipSend ck s = .next out ∧ anc.Keeps out := by
  unfold execPipSend
  refine ⟨_, rfl, ?_⟩
  repeat' first
    | with_reducible assumption | with_reducible apply State.pipSend_keeps | dsimp only

theorem execFlitReceive_keeps {anc : State} (r : Nat) (port : Nat) (data : List Nat) (side : FlitSide) (s : State) (hk : anc.Keeps s) : ∃ out, execFlitReceive r port data side s = .next out ∧ anc.Keeps out := by
  unfold execFlitReceive
  refine ⟨_, rfl, ?_⟩
  repeat' first
    | with_reducible assumption | with_reducible apply State.flitReceive_keeps | dsimp only

end Sys2Proof.Machine
end

