-- ==== Sys2Proof/Laws/Keeps/Access.lean ====
section
/-! SUPPORT. Every operation and meaning of Machine/Access.lean leaves the queue alone and keeps the memories and the register table canonical. -/

namespace Sys2Proof.Machine

set_option linter.unreachableTactic false
set_option linter.unusedTactic false

theorem State.accessFail_keeps {anc : State} (s : State) (m : Master) (p : Page) (addr : Nat) (data : Nat) (result : Nat) (cause : Nat) (hk : anc.Keeps s) : anc.Keeps (State.accessFail s m p addr data result cause) := by
  unfold State.accessFail
  repeat' first
    | with_reducible assumption | with_reducible apply State.logEv_keeps | with_reducible apply State.setInt_keeps
    | with_reducible apply State.capture_keeps | with_reducible refine ite_keeps ?_ ?_ | split | dsimp only

theorem State.rearm_keeps {anc : State} (s : State) (p : Page) (hk : anc.Keeps s) : anc.Keeps (State.rearm s p) := by
  unfold State.rearm
  repeat' first
    | with_reducible assumption | with_reducible apply State.clr_keeps | with_reducible apply foldl_keeps | intro _ | dsimp only

theorem State.beforeRead_keeps {anc : State} (s : State) (p : Page) (off : Nat) (hk : anc.Keeps s) : anc.Keeps (State.beforeRead s p off) := by
  unfold State.beforeRead
  repeat' first
    | with_reducible assumption | with_reducible apply State.refill_keeps | with_reducible apply State.settlePause_keeps
    | with_reducible refine ite_keeps ?_ ?_ | split | dsimp only

theorem State.clearRc_keeps {anc : State} (s : State) (p : Page) (off : Nat) (hk : anc.Keeps s) : anc.Keeps (State.clearRc s p off) := by
  unfold State.clearRc
  repeat' first
    | with_reducible assumption | with_reducible apply State.wf_keeps | with_reducible apply State.each_keeps | intro _ | dsimp only

theorem State.readReg_keeps {anc : State} (s : State) (m : Master) (p : Page) (off : Nat) (hk : anc.Keeps s) : anc.Keeps (State.readReg s m p off).2.2 := by
  unfold State.readReg
  repeat' first
    | with_reducible assumption | with_reducible apply State.accessFail_keeps | with_reducible apply State.beforeRead_keeps
    | with_reducible apply State.clearRc_keeps | with_reducible refine ite_keeps ?_ ?_ | with_reducible refine ite_keeps2 ?_ ?_
    | with_reducible refine ite_keeps3 ?_ ?_ | split | dsimp only

theorem State.readReg_keeps_eq {anc : State} {s : State} {m : Master} {p : Page} {off : Nat} {r0 r1 tz} (heqx : State.readReg s m p off = (r0, r1, tz)) (hk : anc.Keeps s) : anc.Keeps tz := by
  have := State.readReg_keeps s m p off hk (anc := anc)
  rwa [heqx] at this

theorem State.storeWord_keeps {anc : State} (s : State) (m : Master) (p : Page) (off : Nat) (w : Nat) (hk : anc.Keeps s) : anc.Keeps (State.storeWord s m p off w) := by
  unfold State.storeWord
  repeat' first
    | with_reducible assumption | with_reducible apply State.wf_keeps | with_reducible apply State.each_keeps | intro _
    | with_reducible refine ite_keeps ?_ ?_ | split | dsimp only

theorem State.writeCtl_keeps {anc : State} (s : State) (m : Master) (p : Page) (w : Nat) (hk : anc.Keeps s) : anc.Keeps (State.writeCtl s m p w) := by
  unfold State.writeCtl
  repeat' first
    | with_reducible assumption | with_reducible apply State.irqUpdate_keeps | with_reducible apply State.wf_keeps
    | with_reducible apply State.storeWord_keeps | with_reducible apply State.rearm_keeps | with_reducible apply State.retrack_keeps
    | with_reducible apply State.pilotNow_keeps | with_reducible apply State.scoreStart_keeps
    | with_reducible apply State.mirrorVc_keeps | with_reducible apply State.ctlReset_keeps | with_reducible apply State.when_keeps
    | intro _ | with_reducible refine ite_keeps ?_ ?_ | split | dsimp only

theorem State.writeHeader_keeps {anc : State} (s : State) (m : Master) (p : Page) (off : Nat) (w : Nat) (hk : anc.Keeps s) : anc.Keeps (State.writeHeader s m p off w) := by
  unfold State.writeHeader
  repeat' first
    | with_reducible assumption | with_reducible apply State.writeCtl_keeps | with_reducible apply State.irqUpdate_keeps
    | with_reducible apply State.wf_keeps | with_reducible apply State.setInts_keeps | with_reducible refine ite_keeps ?_ ?_ | split
    | dsimp only

theorem State.writeProg_keeps {anc : State} (s : State) (m : Master) (e : Nat) (w : Nat) (hk : anc.Keeps s) : anc.Keeps (State.writeProg s m e w) := by
  unfold State.writeProg
  repeat' first
    | with_reducible assumption | with_reducible apply State.progAbort_keeps | with_reducible apply State.progStart_keeps
    | refine State.progStart_keeps_eq (by with_reducible assumption) ?_ | with_reducible apply State.tryOwed_keeps
    | with_reducible apply State.when_keeps | intro _ | dsimp only

theorem State.writePolicy_keeps {anc : State} (s : State) (m : Master) (p : Page) (w : Nat) (hk : anc.Keeps s) : anc.Keeps (State.writePolicy s m p w) := by
  unfold State.writePolicy
  repeat' first
    | with_reducible assumption | with_reducible apply State.storeWord_keeps | with_reducible apply State.logEv_keeps | dsimp only

theorem State.writeInterleave_keeps {anc : State} (s : State) (g : Nat) (hk : anc.Keeps s) : anc.Keeps (State.writeInterleave s g) := by
  unfold State.writeInterleave
  repeat' first
    | with_reducible assumption | with_reducible apply State.wf_keeps | with_reducible apply State.each_keeps | intro _ | dsimp only

theorem State.writePort_keeps {anc : State} (s : State) (m : Master) (p : Page) (w : Nat) (hk : anc.Keeps s) : anc.Keeps (State.writePort s m p w) := by
  unfold State.writePort
  repeat' first
    | with_reducible assumption | with_reducible apply State.storeWord_keeps | with_reducible apply State.setPort_keeps
    | with_reducible apply State.linkGoesDown_keeps | with_reducible apply State.portError_keeps
    | with_reducible refine ite_keeps ?_ ?_ | split | dsimp only

theorem State.writeAddress_keeps {anc : State} (s : State) (m : Master) (p : Page) (off : Nat) (w : Nat) (hk : anc.Keeps s) : anc.Keeps (State.writeAddress s m p off w) := by
  unfold State.writeAddress
  repeat' first
    | with_reducible assumption | with_reducible apply State.storeWord_keeps | with_reducible apply State.portError_keeps
    | with_reducible apply State.sendEth_keeps | with_reducible apply State.when_keeps | intro _ | dsimp only

theorem State.writePtp_keeps {anc : State} (s : State) (m : Master) (p : Page) (w : Nat) (hk : anc.Keeps s) : anc.Keeps (State.writePtp s m p w) := by
  unfold State.writePtp
  repeat' first
    | with_reducible assumption | with_reducible apply State.storeWord_keeps | with_reducible apply State.wf_keeps
    | with_reducible apply State.setPtp_keeps | with_reducible apply State.syncLost_keeps | with_reducible apply State.when_keeps
    | intro _ | with_reducible refine ite_keeps ?_ ?_ | split | dsimp only

theorem State.writeLinkEn_keeps {anc : State} (s : State) (m : Master) (p : Page) (w : Nat) (hk : anc.Keeps s) : anc.Keeps (State.writeLinkEn s m p w) := by
  unfold State.writeLinkEn
  repeat' first
    | with_reducible assumption | with_reducible apply State.storeWord_keeps | with_reducible apply State.wf_keeps
    | with_reducible apply State.linkFail_keeps | with_reducible refine ite_keeps ?_ ?_ | split | dsimp only

theorem State.writeLanes_keeps {anc : State} (s : State) (m : Master) (p : Page) (w : Nat) (hk : anc.Keeps s) : anc.Keeps (State.writeLanes s m p w) := by
  unfold State.writeLanes
  repeat' first
    | with_reducible assumption | with_reducible apply State.storeWord_keeps | with_reducible apply State.laneBad_keeps
    | with_reducible apply State.each_keeps | intro _ | dsimp only

theorem State.writeColl_keeps {anc : State} (s : State) (m : Master) (p : Page) (off : Nat) (w : Nat) (hk : anc.Keeps s) : anc.Keeps (State.writeColl s m p off w) := by
  unfold State.writeColl
  repeat' first
    | with_reducible assumption | with_reducible apply State.storeWord_keeps | with_reducible apply State.setColl_keeps
    | with_reducible apply State.draw_keeps | refine State.draw_keeps_eq (by with_reducible assumption) ?_
    | with_reducible apply State.wf_keeps | with_reducible refine ite_keeps ?_ ?_ | split | dsimp only

theorem State.writeTenant_keeps {anc : State} (s : State) (m : Master) (p : Page) (off : Nat) (w : Nat) (hk : anc.Keeps s) : anc.Keeps (State.writeTenant s m p off w) := by
  unfold State.writeTenant
  repeat' first
    | with_reducible assumption | with_reducible apply State.accountRate_keeps | with_reducible apply State.storeWord_keeps
    | with_reducible apply State.accountEnable_keeps | with_reducible apply State.debit_keeps | with_reducible refine ite_keeps ?_ ?_
    | split | dsimp only

theorem State.writeConsumed_keeps {anc : State} (s : State) (r : Nat) (w : Nat) (hk : anc.Keeps s) : anc.Keeps (State.writeConsumed s r w) := by
  unfold State.writeConsumed
  repeat' first
    | with_reducible assumption | with_reducible apply State.wf_keeps | with_reducible apply State.ringRetry_keeps | dsimp only

theorem State.writeOther_keeps {anc : State} (s : State) (m : Master) (p : Page) (off : Nat) (w : Nat) (hk : anc.Keeps s) : anc.Keeps (State.writeOther s m p off w) := by
  unfold State.writeOther
  repeat' first
    | with_reducible assumption | with_reducible apply State.storeWord_keeps | with_reducible apply State.sendStandins_keeps
    | with_reducible apply State.retrack_keeps | with_reducible apply State.mapSwitch_keeps
    | with_reducible apply State.qpClose_keeps | with_reducible apply State.semOp_keeps | with_reducible apply State.syncMode_keeps
    | with_reducible apply State.wf_keeps | with_reducible apply State.urgentGo_keeps | with_reducible apply State.drainLimit_keeps
    | with_reducible apply State.replanNow_keeps | with_reducible apply State.clearFaults_keeps
    | with_reducible apply State.when_keeps | with_reducible refine State.keeps_fields ?_ | intro _
    | with_reducible refine ite_keeps ?_ ?_ | split | dsimp only | simp only [State.keeps_mk]

theorem State.writeBlock_keeps {anc : State} (s : State) (m : Master) (p : Page) (off : Nat) (w : Nat) (hk : anc.Keeps s) : anc.Keeps (State.writeBlock s m p off w).2.2 := by
  unfold State.writeBlock
  repeat' first
    | with_reducible assumption | with_reducible apply State.holdCheck_keeps | with_reducible apply State.tryOwed_keeps
    | with_reducible apply State.bind_keeps | with_reducible apply State.writeProg_keeps | with_reducible apply State.storeWord_keeps
    | with_reducible apply State.writePolicy_keeps | with_reducible apply State.writeInterleave_keeps
    | with_reducible apply State.wf_keeps | with_reducible apply State.writePort_keeps
    | with_reducible apply State.writeAddress_keeps | with_reducible apply State.writePtp_keeps
    | with_reducible apply State.writeLinkEn_keeps | with_reducible apply State.writeLanes_keeps
    | with_reducible apply State.writeColl_keeps | with_reducible apply State.writeTenant_keeps
    | with_reducible apply State.writeConsumed_keeps | with_reducible apply State.writeOther_keeps
    | with_reducible apply State.each_keeps | intro _ | with_reducible refine ite_keeps ?_ ?_
    | with_reducible refine ite_keeps2 ?_ ?_ | with_reducible refine ite_keeps3 ?_ ?_ | split | dsimp only

theorem State.writeBlock_keeps_eq {anc : State} {s : State} {m : Master} {p : Page} {off : Nat} {w : Nat} {r0 r1 tz} (heqx : State.writeBlock s m p off w = (r0, r1, tz)) (hk : anc.Keeps s) : anc.Keeps tz := by
  have := State.writeBlock_keeps s m p off w hk (anc := anc)
  rwa [heqx] at this

theorem State.writeReg_keeps {anc : State} (s : State) (m : Master) (p : Page) (off : Nat) (w0 : Nat) (hk : anc.Keeps s) : anc.Keeps (State.writeReg s m p off w0).2 := by
  unfold State.writeReg
  repeat' first
    | with_reducible assumption | with_reducible apply State.accessFail_keeps | with_reducible apply State.writeHeader_keeps
    | with_reducible apply State.writeBlock_keeps | refine State.writeBlock_keeps_eq (by with_reducible assumption) ?_
    | with_reducible refine ite_keeps ?_ ?_ | with_reducible refine ite_keeps2 ?_ ?_ | with_reducible refine ite_keeps3 ?_ ?_ | split
    | dsimp only

theorem State.writeReg_keeps_eq {anc : State} {s : State} {m : Master} {p : Page} {off : Nat} {w0 : Nat} {r0 tz} (heqx : State.writeReg s m p off w0 = (r0, tz)) (hk : anc.Keeps s) : anc.Keeps tz := by
  have := State.writeReg_keeps s m p off w0 hk (anc := anc)
  rwa [heqx] at this

end Sys2Proof.Machine
end

