-- ==== Sys2Proof/Laws/Keeps/Window.lean ====
section
/-! SUPPORT. Every operation and meaning of Machine/Window.lean leaves the queue alone and keeps the memories and the register table canonical. -/

namespace Sys2Proof.Machine

set_option linter.unreachableTactic false
set_option linter.unusedTactic false

theorem State.memFail_keeps {anc : State} (s : State) (m : Master) (page : Nat) (addr : Nat) (data : Nat) (result : Nat) (hk : anc.Keeps s) : anc.Keeps (State.memFail s m page addr data result) := by
  unfold State.memFail
  repeat' first
    | with_reducible assumption | with_reducible apply State.logEv_keeps | dsimp only

theorem State.wordRead_keeps {anc : State} (s : State) (m : Master) (a : Nat) (hk : anc.Keeps s) : anc.Keeps (State.wordRead s m a).2.2.2 := by
  unfold State.wordRead
  repeat' first
    | with_reducible assumption | with_reducible apply State.hbmAccess_keeps
    | refine State.hbmAccess_keeps_eq (by with_reducible assumption) ?_ | with_reducible apply State.memFail_keeps
    | with_reducible apply State.codeRead_keeps | refine State.codeRead_keeps_eq (by with_reducible assumption) ?_
    | with_reducible apply State.inc_keeps | with_reducible apply State.readReg_keeps
    | refine State.readReg_keeps_eq (by with_reducible assumption) ?_ | with_reducible apply State.when_keeps | intro _
    | with_reducible refine ite_keeps ?_ ?_ | with_reducible refine ite_keeps2 ?_ ?_ | with_reducible refine ite_keeps3 ?_ ?_ | split
    | dsimp only

theorem State.wordRead_keeps_eq {anc : State} {s : State} {m : Master} {a : Nat} {r0 r1 r2 tz} (heqx : State.wordRead s m a = (r0, r1, r2, tz)) (hk : anc.Keeps s) : anc.Keeps tz := by
  have := State.wordRead_keeps s m a hk (anc := anc)
  rwa [heqx] at this

theorem State.wordWrite_keeps {anc : State} (s : State) (m : Master) (a : Nat) (w : Nat) (hk : anc.Keeps s) : anc.Keeps (State.wordWrite s m a w).2 := by
  unfold State.wordWrite
  repeat' first
    | with_reducible assumption | with_reducible apply State.hbmAccess_keeps
    | refine State.hbmAccess_keeps_eq (by with_reducible assumption) ?_ | with_reducible apply State.memFail_keeps
    | with_reducible apply State.codeWrite_keeps | refine State.codeWrite_keeps_eq (by with_reducible assumption) ?_
    | with_reducible apply State.writeReg_keeps | refine State.writeReg_keeps_eq (by with_reducible assumption) ?_
    | with_reducible apply State.accessFail_keeps | with_reducible apply State.sramWrite_keeps
    | with_reducible apply State.when_keeps | intro _ | with_reducible refine ite_keeps ?_ ?_
    | with_reducible refine ite_keeps2 ?_ ?_ | with_reducible refine ite_keeps3 ?_ ?_ | split | dsimp only

theorem State.wordWrite_keeps_eq {anc : State} {s : State} {m : Master} {a : Nat} {w : Nat} {r0 tz} (heqx : State.wordWrite s m a w = (r0, tz)) (hk : anc.Keeps s) : anc.Keeps tz := by
  have := State.wordWrite_keeps s m a w hk (anc := anc)
  rwa [heqx] at this

theorem State.regScan_keeps {anc : State} (s : State) (m : Master) (a : Nat) (n : Nat) (hk : anc.Keeps s) : anc.Keeps (State.regScan s m a n).2 := by
  unfold State.regScan
  repeat' first
    | with_reducible assumption | with_reducible apply State.wordRead_keeps
    | refine State.wordRead_keeps_eq (by with_reducible assumption) ?_ | with_reducible apply foldl_keeps
    | with_reducible apply foldl_keeps_pair | with_reducible apply foldl_keeps_triple | intro _
    | with_reducible refine ite_keeps ?_ ?_ | with_reducible refine ite_keeps2 ?_ ?_ | with_reducible refine ite_keeps3 ?_ ?_ | split
    | dsimp only

theorem State.regScan_keeps_eq {anc : State} {s : State} {m : Master} {a : Nat} {n : Nat} {r0 tz} (heqx : State.regScan s m a n = (r0, tz)) (hk : anc.Keeps s) : anc.Keeps tz := by
  have := State.regScan_keeps s m a n hk (anc := anc)
  rwa [heqx] at this

theorem State.regApply_keeps {anc : State} (s : State) (m : Master) (x2 : Nat) (x3 : Nat) (x4 : List Nat) (hk : anc.Keeps s) : anc.Keeps (State.regApply s m x2 x3 x4).2.2 := by
  induction x4 generalizing s x2 x3 with
  | nil =>
  simp only [State.regApply]
  repeat' first
    | with_reducible assumption | with_reducible apply State.wordWrite_keeps
    | refine State.wordWrite_keeps_eq (by with_reducible assumption) ?_ | with_reducible apply State.each_keeps
    | with_reducible apply foldl_keeps | with_reducible apply foldl_keeps_pair | with_reducible apply foldl_keeps_triple
    | with_reducible apply State.when_keeps | with_reducible refine State.keeps_fields ?_ | intro _
    | with_reducible refine ite_keeps ?_ ?_ | with_reducible refine ite_keeps2 ?_ ?_ | with_reducible refine ite_keeps3 ?_ ?_ | split
    | dsimp only | simp only [State.keeps_mk]
  | cons y l ih =>
  simp only [State.regApply]
  repeat' first
    | with_reducible assumption | with_reducible apply ih | with_reducible apply State.wordWrite_keeps
    | refine State.wordWrite_keeps_eq (by with_reducible assumption) ?_ | with_reducible apply State.each_keeps
    | with_reducible apply foldl_keeps | with_reducible apply foldl_keeps_pair | with_reducible apply foldl_keeps_triple
    | with_reducible apply State.when_keeps | with_reducible refine State.keeps_fields ?_ | intro _
    | with_reducible refine ite_keeps ?_ ?_ | with_reducible refine ite_keeps2 ?_ ?_ | with_reducible refine ite_keeps3 ?_ ?_ | split
    | dsimp only | simp only [State.keeps_mk]

theorem State.regApply_keeps_eq {anc : State} {s : State} {m : Master} {x2 : Nat} {x3 : Nat} {x4 : List Nat} {r0 r1 tz} (heqx : State.regApply s m x2 x3 x4 = (r0, r1, tz)) (hk : anc.Keeps s) : anc.Keeps tz := by
  have := State.regApply_keeps s m x2 x3 x4 hk (anc := anc)
  rwa [heqx] at this

theorem State.regRead_keeps {anc : State} (s : State) (i : Instr) (c : Cmd) (hk : anc.Keeps s) : anc.Keeps (State.regRead s i c) := by
  unfold State.regRead
  repeat' first
    | with_reducible assumption | with_reducible apply State.vorane_keeps | with_reducible apply State.reply_keeps
    | with_reducible apply State.memFail_keeps | with_reducible apply State.regScan_keeps
    | refine State.regScan_keeps_eq (by with_reducible assumption) ?_ | intro _ | with_reducible refine ite_keeps ?_ ?_ | split
    | dsimp only

theorem State.regWrite_keeps {anc : State} (s : State) (i : Instr) (c : Cmd) (hk : anc.Keeps s) : anc.Keeps (State.regWrite s i c) := by
  unfold State.regWrite
  repeat' first
    | with_reducible assumption | with_reducible apply State.vorane_keeps | with_reducible apply State.reply_keeps
    | with_reducible apply State.memFail_keeps | with_reducible apply State.regApply_keeps
    | refine State.regApply_keeps_eq (by with_reducible assumption) ?_ | intro _ | with_reducible refine ite_keeps ?_ ?_ | split
    | dsimp only

theorem State.scoreResponse_keeps {anc : State} (s : State) (ck : Nat) (pc : Nat) (a : Nat) (r : Nat) (v : Nat) (hk : anc.Keeps s) : anc.Keeps (State.scoreResponse s ck pc a r v) := by
  unfold State.scoreResponse
  repeat' first
    | with_reducible assumption | with_reducible apply State.setSc_keeps | with_reducible apply State.customTrap_keeps
    | with_reducible refine ite_keeps ?_ ?_ | split | dsimp only

theorem State.narrowAccess_keeps {anc : State} (s : State) (m : Master) (p : Page) (addr : Nat) (data : Nat) (hk : anc.Keeps s) : anc.Keeps (State.narrowAccess s m p addr data).2 := by
  unfold State.narrowAccess
  repeat' first
    | with_reducible assumption | with_reducible apply State.accessFail_keeps | with_reducible refine ite_keeps ?_ ?_
    | with_reducible refine ite_keeps2 ?_ ?_ | with_reducible refine ite_keeps3 ?_ ?_ | split | dsimp only

theorem State.narrowAccess_keeps_eq {anc : State} {s : State} {m : Master} {p : Page} {addr : Nat} {data : Nat} {r0 tz} (heqx : State.narrowAccess s m p addr data = (r0, tz)) (hk : anc.Keeps s) : anc.Keeps tz := by
  have := State.narrowAccess_keeps s m p addr data hk (anc := anc)
  rwa [heqx] at this

theorem State.scoreAccess_keeps {anc : State} (s : State) (ck : Nat) (pc : Nat) (a : Nat) (n : Nat) (store : Option Nat) (hk : anc.Keeps s) : anc.Keeps (State.scoreAccess s ck pc a n store) := by
  unfold State.scoreAccess
  repeat' first
    | with_reducible assumption | with_reducible apply State.scoreTrap_keeps | with_reducible apply State.narrowAccess_keeps
    | refine State.narrowAccess_keeps_eq (by with_reducible assumption) ?_ | with_reducible apply State.scoreResponse_keeps
    | with_reducible apply State.writeReg_keeps | refine State.writeReg_keeps_eq (by with_reducible assumption) ?_
    | with_reducible apply State.readReg_keeps | refine State.readReg_keeps_eq (by with_reducible assumption) ?_
    | with_reducible refine ite_keeps ?_ ?_ | split | dsimp only

theorem State.scoreMemStore_keeps {anc : State} (s : State) (ck : Nat) (a : Nat) (w : Nat) (hk : anc.Keeps s) : anc.Keeps (State.scoreMemStore s ck a w) := by
  unfold State.scoreMemStore
  repeat' first
    | with_reducible assumption | with_reducible apply State.scoreTrap_keeps | with_reducible apply State.wordWrite_keeps
    | refine State.wordWrite_keeps_eq (by with_reducible assumption) ?_ | with_reducible refine ite_keeps ?_ ?_ | split | dsimp only

theorem State.scoreMemLoad_keeps {anc : State} (s : State) (ck : Nat) (a : Nat) (hk : anc.Keeps s) : anc.Keeps (State.scoreMemLoad s ck a) := by
  unfold State.scoreMemLoad
  repeat' first
    | with_reducible assumption | with_reducible apply State.scoreTrap_keeps | with_reducible apply State.wordRead_keeps
    | refine State.wordRead_keeps_eq (by with_reducible assumption) ?_ | with_reducible apply State.setInt_keeps
    | with_reducible apply State.customTrap_keeps | with_reducible apply State.setSc_keeps | with_reducible refine ite_keeps ?_ ?_
    | split | dsimp only

theorem State.lcbLoad_keeps {anc : State} (s : State) (ck : Nat) (off : Nat) (hk : anc.Keeps s) : anc.Keeps (State.lcbLoad s ck off) := by
  unfold State.lcbLoad
  repeat' first
    | with_reducible assumption | with_reducible apply State.clearRc_keeps | with_reducible apply State.setSc_keeps
    | with_reducible refine ite_keeps ?_ ?_ | split | dsimp only

theorem State.masterStore_keeps {anc : State} (s : State) (m : Master) (a : Nat) (w : Nat) (hk : anc.Keeps s) : anc.Keeps (State.masterStore s m a w) := by
  unfold State.masterStore
  repeat' first
    | with_reducible assumption | with_reducible apply State.scoreStore_keeps | with_reducible apply State.scoreAccess_keeps
    | with_reducible apply State.scoreMemStore_keeps | with_reducible apply State.wordWrite_keeps
    | refine State.wordWrite_keeps_eq (by with_reducible assumption) ?_ | with_reducible refine State.keeps_fields ?_
    | with_reducible refine ite_keeps ?_ ?_ | split | dsimp only | simp only [State.keeps_mk]

theorem State.masterLoad_keeps {anc : State} (s : State) (m : Master) (a : Nat) (hk : anc.Keeps s) : anc.Keeps (State.masterLoad s m a) := by
  unfold State.masterLoad
  repeat' first
    | with_reducible assumption | with_reducible apply State.lcbLoad_keeps | with_reducible apply State.scoreAccess_keeps
    | with_reducible apply State.scoreMemLoad_keeps | with_reducible apply State.wordRead_keeps
    | refine State.wordRead_keeps_eq (by with_reducible assumption) ?_ | with_reducible refine State.keeps_fields ?_
    | with_reducible refine ite_keeps ?_ ?_ | split | dsimp only | simp only [State.keeps_mk]

theorem State.pageStore_keeps {anc : State} (s : State) (m : Master) (p : Page) (off : Nat) (w : Nat) (hk : anc.Keeps s) : anc.Keeps (State.pageStore s m p off w) := by
  unfold State.pageStore
  repeat' first
    | with_reducible assumption | with_reducible apply State.masterStore_keeps | dsimp only

theorem execRegisterWrite_keeps {anc : State} (m : Master) (a : Nat) (w : Nat) (s : State) (hk : anc.Keeps s) : ∃ out, execRegisterWrite m a w s = .next out ∧ anc.Keeps out := by
  unfold execRegisterWrite
  refine ⟨_, rfl, ?_⟩
  repeat' first
    | with_reducible assumption | with_reducible apply State.masterStore_keeps | dsimp only

theorem execRcRead_keeps {anc : State} (m : Master) (a : Nat) (s : State) (hk : anc.Keeps s) : ∃ out, execRcRead m a s = .next out ∧ anc.Keeps out := by
  unfold execRcRead
  refine ⟨_, rfl, ?_⟩
  repeat' first
    | with_reducible assumption | with_reducible apply State.masterLoad_keeps | dsimp only

theorem execErrRearm_keeps {anc : State} (m : Master) (pi : Nat) (w : Nat) (s : State) (hk : anc.Keeps s) : ∃ out, execErrRearm m pi w s = .next out ∧ anc.Keeps out := by
  unfold execErrRearm
  refine ⟨_, rfl, ?_⟩
  repeat' first
    | with_reducible assumption | with_reducible apply State.pageStore_keeps | dsimp only

theorem execCtlDomainReset_keeps {anc : State} (m : Master) (pi : Nat) (w : Nat) (s : State) (hk : anc.Keeps s) : ∃ out, execCtlDomainReset m pi w s = .next out ∧ anc.Keeps out := by
  unfold execCtlDomainReset
  refine ⟨_, rfl, ?_⟩
  repeat' first
    | with_reducible assumption | with_reducible apply State.pageStore_keeps | dsimp only

theorem execIntForce_keeps {anc : State} (m : Master) (pi : Nat) (w : Nat) (s : State) (hk : anc.Keeps s) : ∃ out, execIntForce m pi w s = .next out ∧ anc.Keeps out := by
  unfold execIntForce
  refine ⟨_, rfl, ?_⟩
  repeat' first
    | with_reducible assumption | with_reducible apply State.pageStore_keeps | dsimp only

theorem execRegRead_keeps {anc : State} (c : Cmd) (s : State) (hk : anc.Keeps s) : ∃ out, execRegRead c s = .next out ∧ anc.Keeps out := by
  unfold execRegRead
  refine ⟨_, rfl, ?_⟩
  repeat' first
    | with_reducible assumption | with_reducible apply State.regRead_keeps | dsimp only

theorem execRegWrite_keeps {anc : State} (c : Cmd) (s : State) (hk : anc.Keeps s) : ∃ out, execRegWrite c s = .next out ∧ anc.Keeps out := by
  unfold execRegWrite
  refine ⟨_, rfl, ?_⟩
  repeat' first
    | with_reducible assumption | with_reducible apply State.regWrite_keeps | dsimp only

theorem execBankCtlWrite_keeps {anc : State} (m : Master) (e : Nat) (w : Nat) (s : State) (hk : anc.Keeps s) : ∃ out, execBankCtlWrite m e w s = .next out ∧ anc.Keeps out := by
  unfold execBankCtlWrite
  refine ⟨_, rfl, ?_⟩
  repeat' first
    | with_reducible assumption | with_reducible apply State.pageStore_keeps | dsimp only

theorem execPilotNow_keeps {anc : State} (m : Master) (e : Nat) (w : Nat) (s : State) (hk : anc.Keeps s) : ∃ out, execPilotNow m e w s = .next out ∧ anc.Keeps out := by
  unfold execPilotNow
  refine ⟨_, rfl, ?_⟩
  repeat' first
    | with_reducible assumption | with_reducible apply State.pageStore_keeps | dsimp only

theorem execProgStart_keeps {anc : State} (m : Master) (e : Nat) (w : Nat) (s : State) (hk : anc.Keeps s) : ∃ out, execProgStart m e w s = .next out ∧ anc.Keeps out := by
  unfold execProgStart
  refine ⟨_, rfl, ?_⟩
  repeat' first
    | with_reducible assumption | with_reducible apply State.pageStore_keeps | dsimp only

theorem execProgAbort_keeps {anc : State} (m : Master) (e : Nat) (w : Nat) (s : State) (hk : anc.Keeps s) : ∃ out, execProgAbort m e w s = .next out ∧ anc.Keeps out := by
  unfold execProgAbort
  refine ⟨_, rfl, ?_⟩
  repeat' first
    | with_reducible assumption | with_reducible apply State.pageStore_keeps | dsimp only

theorem execGovPolicyWrite_keeps {anc : State} (m : Master) (e : Nat) (w : Nat) (s : State) (hk : anc.Keeps s) : ∃ out, execGovPolicyWrite m e w s = .next out ∧ anc.Keeps out := by
  unfold execGovPolicyWrite
  refine ⟨_, rfl, ?_⟩
  repeat' first
    | with_reducible assumption | with_reducible apply State.pageStore_keeps | dsimp only

theorem execScoreRun_keeps {anc : State} (ck : Nat) (w : Nat) (s : State) (hk : anc.Keeps s) : ∃ out, execScoreRun ck w s = .next out ∧ anc.Keeps out := by
  unfold execScoreRun
  refine ⟨_, rfl, ?_⟩
  repeat' first
    | with_reducible assumption | with_reducible apply State.pageStore_keeps | dsimp only

theorem execRegisterResult_keeps {anc : State} (ck : Nat) (pc : Nat) (a : Nat) (x : CoreAccess) (s : State) (hk : anc.Keeps s) : ∃ out, execRegisterResult ck pc a x s = .next out ∧ anc.Keeps out := by
  unfold execRegisterResult
  refine ⟨_, rfl, ?_⟩
  repeat' first
    | with_reducible assumption | with_reducible apply State.scoreAccess_keeps | dsimp only

theorem execMapEntryWrite_keeps {anc : State} (m : Master) (r : Nat) (b : Nat) (i : Nat) (w : Nat) (s : State) (hk : anc.Keeps s) : ∃ out, execMapEntryWrite m r b i w s = .next out ∧ anc.Keeps out := by
  unfold execMapEntryWrite
  refine ⟨_, rfl, ?_⟩
  repeat' first
    | with_reducible assumption | with_reducible apply State.pageStore_keeps | dsimp only

theorem execMapSwitch_keeps {anc : State} (m : Master) (r : Nat) (w : Nat) (s : State) (hk : anc.Keeps s) : ∃ out, execMapSwitch m r w s = .next out ∧ anc.Keeps out := by
  unfold execMapSwitch
  refine ⟨_, rfl, ?_⟩
  repeat' first
    | with_reducible assumption | with_reducible apply State.pageStore_keeps | dsimp only

theorem execInterleaveWrite_keeps {anc : State} (m : Master) (w : Nat) (s : State) (hk : anc.Keeps s) : ∃ out, execInterleaveWrite m w s = .next out ∧ anc.Keeps out := by
  unfold execInterleaveWrite
  refine ⟨_, rfl, ?_⟩
  repeat' first
    | with_reducible assumption | with_reducible apply State.pageStore_keeps | dsimp only

theorem execSealedRangeWrite_keeps {anc : State} (m : Master) (limit : Bool) (w : Nat) (s : State) (hk : anc.Keeps s) : ∃ out, execSealedRangeWrite m limit w s = .next out ∧ anc.Keeps out := by
  unfold execSealedRangeWrite
  refine ⟨_, rfl, ?_⟩
  repeat' first
    | with_reducible assumption | with_reducible apply State.pageStore_keeps | with_reducible refine ite_keeps ?_ ?_ | split
    | dsimp only

theorem execTenantDebit_keeps {anc : State} (m : Master) (t : Nat) (w : Nat) (s : State) (hk : anc.Keeps s) : ∃ out, execTenantDebit m t w s = .next out ∧ anc.Keeps out := by
  unfold execTenantDebit
  refine ⟨_, rfl, ?_⟩
  repeat' first
    | with_reducible assumption | with_reducible apply State.pageStore_keeps | dsimp only

theorem execTenantEnable_keeps {anc : State} (m : Master) (t : Nat) (w : Nat) (s : State) (hk : anc.Keeps s) : ∃ out, execTenantEnable m t w s = .next out ∧ anc.Keeps out := by
  unfold execTenantEnable
  refine ⟨_, rfl, ?_⟩
  repeat' first
    | with_reducible assumption | with_reducible apply State.pageStore_keeps | dsimp only

theorem execTenantRateWrite_keeps {anc : State} (m : Master) (t : Nat) (w : Nat) (s : State) (hk : anc.Keeps s) : ∃ out, execTenantRateWrite m t w s = .next out ∧ anc.Keeps out := by
  unfold execTenantRateWrite
  refine ⟨_, rfl, ?_⟩
  repeat' first
    | with_reducible assumption | with_reducible apply State.pageStore_keeps | dsimp only

theorem execConsumedWrite_keeps {anc : State} (m : Master) (r : Nat) (w : Nat) (s : State) (hk : anc.Keeps s) : ∃ out, execConsumedWrite m r w s = .next out ∧ anc.Keeps out := by
  unfold execConsumedWrite
  refine ⟨_, rfl, ?_⟩
  repeat' first
    | with_reducible assumption | with_reducible apply State.pageStore_keeps | dsimp only

theorem execDrainLimitWrite_keeps {anc : State} (m : Master) (v : Nat) (w : Nat) (s : State) (hk : anc.Keeps s) : ∃ out, execDrainLimitWrite m v w s = .next out ∧ anc.Keeps out := by
  unfold execDrainLimitWrite
  refine ⟨_, rfl, ?_⟩
  repeat' first
    | with_reducible assumption | with_reducible apply State.pageStore_keeps | dsimp only

theorem execPortEnable_keeps {anc : State} (m : Master) (p : Nat) (w : Nat) (s : State) (hk : anc.Keeps s) : ∃ out, execPortEnable m p w s = .next out ∧ anc.Keeps out := by
  unfold execPortEnable
  refine ⟨_, rfl, ?_⟩
  repeat' first
    | with_reducible assumption | with_reducible apply State.pageStore_keeps | dsimp only

theorem execAddressWrite_keeps {anc : State} (m : Master) (p : Nat) (j : Nat) (w : Nat) (s : State) (hk : anc.Keeps s) : ∃ out, execAddressWrite m p j w s = .next out ∧ anc.Keeps out := by
  unfold execAddressWrite
  refine ⟨_, rfl, ?_⟩
  repeat' first
    | with_reducible assumption | with_reducible apply State.pageStore_keeps | dsimp only

theorem execQpClose_keeps {anc : State} (m : Master) (q : Nat) (s : State) (hk : anc.Keeps s) : ∃ out, execQpClose m q s = .next out ∧ anc.Keeps out := by
  unfold execQpClose
  refine ⟨_, rfl, ?_⟩
  repeat' first
    | with_reducible assumption | with_reducible apply State.pageStore_keeps | dsimp only

theorem execSemOpAcquire_keeps {anc : State} (m : Master) (i : Nat) (lease : Nat) (s : State) (hk : anc.Keeps s) : ∃ out, execSemOpAcquire m i lease s = .next out ∧ anc.Keeps out := by
  unfold execSemOpAcquire
  refine ⟨_, rfl, ?_⟩
  repeat' first
    | with_reducible assumption | with_reducible apply State.pageStore_keeps | dsimp only

theorem execSemOpRelease_keeps {anc : State} (m : Master) (i : Nat) (s : State) (hk : anc.Keeps s) : ∃ out, execSemOpRelease m i s = .next out ∧ anc.Keeps out := by
  unfold execSemOpRelease
  refine ⟨_, rfl, ?_⟩
  repeat' first
    | with_reducible assumption | with_reducible apply State.pageStore_keeps | dsimp only

theorem execSemOpBreak_keeps {anc : State} (m : Master) (i : Nat) (s : State) (hk : anc.Keeps s) : ∃ out, execSemOpBreak m i s = .next out ∧ anc.Keeps out := by
  unfold execSemOpBreak
  refine ⟨_, rfl, ?_⟩
  repeat' first
    | with_reducible assumption | with_reducible apply State.pageStore_keeps | dsimp only

theorem execLinkEnable_keeps {anc : State} (m : Master) (d : Nat) (w : Nat) (s : State) (hk : anc.Keeps s) : ∃ out, execLinkEnable m d w s = .next out ∧ anc.Keeps out := by
  unfold execLinkEnable
  refine ⟨_, rfl, ?_⟩
  repeat' first
    | with_reducible assumption | with_reducible apply State.pageStore_keeps | dsimp only

theorem execReplanNow_keeps {anc : State} (m : Master) (w : Nat) (s : State) (hk : anc.Keeps s) : ∃ out, execReplanNow m w s = .next out ∧ anc.Keeps out := by
  unfold execReplanNow
  refine ⟨_, rfl, ?_⟩
  repeat' first
    | with_reducible assumption | with_reducible apply State.pageStore_keeps | dsimp only

theorem execUrgentGo_keeps {anc : State} (m : Master) (i : Nat) (w : Nat) (s : State) (hk : anc.Keeps s) : ∃ out, execUrgentGo m i w s = .next out ∧ anc.Keeps out := by
  unfold execUrgentGo
  refine ⟨_, rfl, ?_⟩
  repeat' first
    | with_reducible assumption | with_reducible apply State.pageStore_keeps | dsimp only

end Sys2Proof.Machine
end

