-- ==== Sys2Proof/Laws/Keeps/Activate.lean ====
section
/-! SUPPORT. Every operation and meaning of Machine/Activate.lean leaves the queue alone and keeps the memories and the register table canonical. -/

namespace Sys2Proof.Machine

set_option linter.unreachableTactic false
set_option linter.unusedTactic false

theorem State.shardStop_keeps {anc : State} (s : State) (v : Nat) (shard : Nat) (cause : Nat) (hk : anc.Keeps s) : anc.Keeps (State.shardStop s v shard cause) := by
  unfold State.shardStop
  repeat' first
    | with_reducible assumption | with_reducible apply State.activationEnd_keeps | with_reducible apply State.unitEv_keeps
    | dsimp only

theorem State.stageBegin_keeps {anc : State} (s : State) (v : Nat) (hk : anc.Keeps s) : anc.Keeps (State.stageBegin s v) := by
  unfold State.stageBegin
  repeat' first
    | with_reducible assumption | with_reducible apply State.shardStop_keeps | with_reducible apply State.activationStop_keeps
    | with_reducible refine State.keeps_fields ?_ | with_reducible refine State.keeps_put_regs ?_
    | with_reducible refine ite_keeps ?_ ?_ | split | dsimp only | simp only [State.keeps_mk]

theorem State.activateVariant_keeps {anc : State} (s : State) (c : Cmd) (p : Placement) (elsewhere : Nat) (hk : anc.Keeps s) : anc.Keeps (State.activateVariant s c p elsewhere) := by
  unfold State.activateVariant
  repeat' first
    | with_reducible assumption | with_reducible apply State.refuseServe_keeps | with_reducible apply State.setVar_keeps
    | with_reducible apply State.replyEarly_keeps | with_reducible apply State.stageBegin_keeps
    | with_reducible apply State.setVState_keeps | with_reducible refine ite_keeps ?_ ?_ | split | dsimp only

theorem State.stageImage_keeps {anc : State} (s : State) (v : Nat) (x : Item) (hk : anc.Keeps s) : anc.Keeps (State.stageImage s v x) := by
  unfold State.stageImage
  repeat' first
    | with_reducible assumption | with_reducible apply State.oasisStart_keeps
    | refine State.oasisStart_keeps_eq (by with_reducible assumption) ?_ | with_reducible apply State.activationStop_keeps
    | with_reducible apply State.setInt_keeps | with_reducible apply State.wf_keeps | with_reducible apply State.setProg_keeps
    | with_reducible refine State.keeps_fields ?_ | with_reducible refine State.keeps_put_regs ?_
    | with_reducible refine ite_keeps ?_ ?_ | split | dsimp only | simp only [State.keeps_mk]

theorem State.stageFacts_keeps {anc : State} (s : State) (v : Nat) (fs : List Nat) (hk : anc.Keeps s) : anc.Keeps (State.stageFacts s v fs) := by
  unfold State.stageFacts
  repeat' first
    | with_reducible assumption | with_reducible apply State.wf_keeps | with_reducible apply State.setVar_keeps
    | with_reducible apply State.each_keeps | intro _ | dsimp only

theorem State.stageItem_keeps {anc : State} (s : State) (v : Nat) (x : Item) (plain : List Nat) (hk : anc.Keeps s) : anc.Keeps (State.stageItem s v x plain) := by
  unfold State.stageItem
  repeat' first
    | with_reducible assumption | with_reducible apply State.stageImage_keeps | with_reducible apply State.hbmPut_keeps
    | with_reducible apply State.sramStore_keeps | with_reducible apply State.stageFacts_keeps
    | with_reducible apply State.wordWrite_keeps | refine State.wordWrite_keeps_eq (by with_reducible assumption) ?_
    | with_reducible apply foldl_keeps | with_reducible apply foldl_keeps_pair | with_reducible apply foldl_keeps_triple
    | with_reducible refine State.keeps_fields ?_ | intro _ | with_reducible refine ite_keeps ?_ ?_ | split | dsimp only
    | simp only [State.keeps_mk]

theorem State.decryptAt_keeps {anc : State} (s : State) (v : Nat) (i : Nat) (off : Nat) (n : Nat) (hk : anc.Keeps s) : anc.Keeps (State.decryptAt s v i off n).2 := by
  unfold State.decryptAt
  repeat' first
    | with_reducible assumption | with_reducible apply State.hbmBytes_keeps
    | refine State.hbmBytes_keeps_eq (by with_reducible assumption) ?_ | with_reducible refine ite_keeps ?_ ?_
    | with_reducible refine ite_keeps2 ?_ ?_ | with_reducible refine ite_keeps3 ?_ ?_ | split | dsimp only

theorem State.decryptAt_keeps_eq {anc : State} {s : State} {v : Nat} {i : Nat} {off : Nat} {n : Nat} {r0 tz} (heqx : State.decryptAt s v i off n = (r0, tz)) (hk : anc.Keeps s) : anc.Keeps tz := by
  have := State.decryptAt_keeps s v i off n hk (anc := anc)
  rwa [heqx] at this

theorem State.directory_keeps {anc : State} (s : State) (v : Nat) (i : Nat) (hk : anc.Keeps s) : anc.Keeps (State.directory s v i).2 := by
  unfold State.directory
  repeat' first
    | with_reducible assumption | with_reducible apply State.decryptAt_keeps
    | refine State.decryptAt_keeps_eq (by with_reducible assumption) ?_ | with_reducible refine ite_keeps ?_ ?_
    | with_reducible refine ite_keeps2 ?_ ?_ | with_reducible refine ite_keeps3 ?_ ?_ | split | dsimp only

theorem State.directory_keeps_eq {anc : State} {s : State} {v : Nat} {i : Nat} {r0 tz} (heqx : State.directory s v i = (r0, tz)) (hk : anc.Keeps s) : anc.Keeps tz := by
  have := State.directory_keeps s v i hk (anc := anc)
  rwa [heqx] at this

theorem State.itemStop_keeps {anc : State} (s : State) (v : Nat) (i : Nat) (c : Nat) (hk : anc.Keeps s) : anc.Keeps (State.itemStop s v i c) := by
  unfold State.itemStop
  repeat' first
    | with_reducible assumption | with_reducible apply State.shardStop_keeps | with_reducible apply State.shardLost_keeps
    | with_reducible refine ite_keeps ?_ ?_ | split | dsimp only

theorem State.shardDone_keeps {anc : State} (s : State) (v : Nat) (i : Nat) (hk : anc.Keeps s) : anc.Keeps (State.shardDone s v i) := by
  unfold State.shardDone
  repeat' first
    | with_reducible assumption | with_reducible apply State.hbmBytes_keeps
    | refine State.hbmBytes_keeps_eq (by with_reducible assumption) ?_ | with_reducible apply State.decryptAt_keeps
    | refine State.decryptAt_keeps_eq (by with_reducible assumption) ?_ | with_reducible apply State.shardStop_keeps
    | with_reducible apply State.shardLost_keeps | with_reducible apply State.itemStop_keeps
    | with_reducible refine State.keeps_fields ?_ | with_reducible refine State.keeps_put_regs ?_
    | with_reducible refine ite_keeps ?_ ?_ | split | dsimp only | simp only [State.keeps_mk]

theorem State.itemDecrypted_keeps {anc : State} (s : State) (v : Nat) (i : Nat) (n : Nat) (ext : Nat) (sram : Nat) (last : Bool) (hk : anc.Keeps s) : anc.Keeps (State.itemDecrypted s v i n ext sram last) := by
  unfold State.itemDecrypted
  repeat' first
    | with_reducible assumption | with_reducible apply State.directory_keeps
    | refine State.directory_keeps_eq (by with_reducible assumption) ?_ | with_reducible apply State.itemStop_keeps
    | with_reducible apply State.decryptAt_keeps | refine State.decryptAt_keeps_eq (by with_reducible assumption) ?_
    | with_reducible apply State.stageItem_keeps | with_reducible apply State.shardDone_keeps | with_reducible refine ite_keeps ?_ ?_
    | split | dsimp only

theorem State.bindEpoch_keeps {anc : State} (s : State) (v : Nat) (ep : Nat) (hk : anc.Keeps s) : anc.Keeps (State.bindEpoch s v ep) := by
  unfold State.bindEpoch
  repeat' first
    | with_reducible assumption | with_reducible apply State.holdCheck_keeps | with_reducible apply State.tryOwed_keeps
    | with_reducible apply State.retrack_keeps | with_reducible apply State.wf_keeps | with_reducible apply State.setVState_keeps
    | with_reducible apply State.finalRec_keeps | with_reducible apply State.setVar_keeps
    | with_reducible apply State.drainStart_keeps | with_reducible apply State.each_keeps
    | with_reducible refine State.keeps_fields ?_ | with_reducible refine State.keeps_del_regs ?_ | intro _
    | with_reducible refine ite_keeps ?_ ?_ | split | dsimp only | simp only [State.keeps_mk]

theorem State.passEpoch_keeps {anc : State} (s : State) (v : Nat) (ep : Nat) (hk : anc.Keeps s) : anc.Keeps (State.passEpoch s v ep) := by
  unfold State.passEpoch
  repeat' first
    | with_reducible assumption | with_reducible apply State.mesh_keeps | with_reducible apply State.each_keeps | intro _
    | with_reducible refine ite_keeps ?_ ?_ | split | dsimp only

theorem State.epochBind_keeps {anc : State} (s : State) (v : Nat) (elsewhere : Nat) (given : Nat) (confirmed : Bool) (hk : anc.Keeps s) : anc.Keeps (State.epochBind s v elsewhere given confirmed) := by
  unfold State.epochBind
  repeat' first
    | with_reducible assumption | with_reducible apply State.activationStop_keeps | with_reducible apply State.passEpoch_keeps
    | with_reducible apply State.bindEpoch_keeps | with_reducible refine ite_keeps ?_ ?_ | split | dsimp only

theorem execVariantActivate_keeps {anc : State} (c : Cmd) (place : Placement) (elsewhere : Nat) (s : State) (hk : anc.Keeps s) : ∃ out, execVariantActivate c place elsewhere s = .next out ∧ anc.Keeps out := by
  unfold execVariantActivate
  refine ⟨_, rfl, ?_⟩
  repeat' first
    | with_reducible assumption | with_reducible apply State.vorane_keeps | with_reducible apply State.activateVariant_keeps
    | intro _ | dsimp only

theorem execItemDecrypted_keeps {anc : State} (v : Nat) (i : Nat) (n : Nat) (ext : Nat) (sram : Nat) (last : Bool) (_unit : Nat) (s : State) (hk : anc.Keeps s) : ∃ out, execItemDecrypted v i n ext sram last _unit s = .next out ∧ anc.Keeps out := by
  unfold execItemDecrypted
  refine ⟨_, rfl, ?_⟩
  repeat' first
    | with_reducible assumption | with_reducible apply State.itemDecrypted_keeps | dsimp only

theorem execEpochBind_keeps {anc : State} (v : Nat) (elsewhere : Nat) (pass : EpochPass) (s : State) (hk : anc.Keeps s) : ∃ out, execEpochBind v elsewhere pass s = .next out ∧ anc.Keeps out := by
  unfold execEpochBind
  refine ⟨_, rfl, ?_⟩
  repeat' first
    | with_reducible assumption | with_reducible apply State.epochBind_keeps | dsimp only

end Sys2Proof.Machine
end

