-- ==== Sys2Proof/Laws/PerInstr.lean ====
section
/-! SUPPORT. The family of statements per command (LAWS.json's Shape): the mask of what a command may write names only the register
areas and parts of the state that there are, and never the queue of waiting commands. -/

namespace Sys2Proof.Laws.Shape

open Sys2Proof.Machine

set_option Elab.async false

/-- The mask of command `i` has no bit of the queue and none beyond. -/
def Statement (i : Instr) : Prop := touches i < 2 ^ Part.pending.bit

theorem registerWrite (m : Master) (a w : Nat) : Statement (.registerWrite m a w) := by
  unfold Statement; dsimp only [touches]; decide +kernel
theorem rcRead (m : Master) (a : Nat) : Statement (.rcRead m a) := by
  unfold Statement; dsimp only [touches]; decide +kernel
theorem errRearm (m : Master) (pi w : Nat) : Statement (.errRearm m pi w) := by
  unfold Statement; dsimp only [touches]; decide +kernel
theorem ctlDomainReset (m : Master) (pi w : Nat) : Statement (.ctlDomainReset m pi w) := by
  unfold Statement; dsimp only [touches]; decide +kernel
theorem intForce (m : Master) (pi w : Nat) : Statement (.intForce m pi w) := by
  unfold Statement; dsimp only [touches]; decide +kernel
theorem regRead (c : Cmd) : Statement (.regRead c) := by
  unfold Statement; dsimp only [touches]; decide +kernel
theorem regWrite (c : Cmd) : Statement (.regWrite c) := by
  unfold Statement; dsimp only [touches]; decide +kernel
theorem bankCtlWrite (m : Master) (e w : Nat) : Statement (.bankCtlWrite m e w) := by
  unfold Statement; dsimp only [touches]; decide +kernel
theorem subStepEnd (e : Nat) (noise : List Int) : Statement (.subStepEnd e noise) := by
  unfold Statement; dsimp only [touches]; decide +kernel
theorem pilotSweepDue (e b : Nat) : Statement (.pilotSweepDue e b) := by
  unfold Statement; dsimp only [touches]; decide +kernel
theorem pilotSubStep (e b : Nat) (noise : List Int) : Statement (.pilotSubStep e b noise) := by
  unfold Statement; dsimp only [touches]; decide +kernel
theorem forcedSweep (e b : Nat) (noise : List (List Int)) : Statement (.forcedSweep e b noise) := by
  unfold Statement; dsimp only [touches]; decide +kernel
theorem pilotStale (e : Nat) : Statement (.pilotStale e) := by
  unfold Statement; dsimp only [touches]; decide +kernel
theorem pilotNow (m : Master) (e w : Nat) : Statement (.pilotNow m e w) := by
  unfold Statement; dsimp only [touches]; decide +kernel
theorem progStart (m : Master) (e w : Nat) : Statement (.progStart m e w) := by
  unfold Statement; dsimp only [touches]; decide +kernel
theorem progAbort (m : Master) (e w : Nat) : Statement (.progAbort m e w) := by
  unfold Statement; dsimp only [touches]; decide +kernel
theorem deferExpiry (e : Nat) : Statement (.deferExpiry e) := by
  unfold Statement; dsimp only [touches]; decide +kernel
theorem rowPulseEnd (e : Nat) : Statement (.rowPulseEnd e) := by
  unfold Statement; dsimp only [touches]; decide +kernel
theorem verifySubStep (e : Nat) (devs noise : List Int) : Statement (.verifySubStep e devs noise) := by
  unfold Statement; dsimp only [touches]; decide +kernel
theorem verifyDeadline (e : Nat) : Statement (.verifyDeadline e) := by
  unfold Statement; dsimp only [touches]; decide +kernel
theorem govPolicyWrite (m : Master) (e w : Nat) : Statement (.govPolicyWrite m e w) := by
  unfold Statement; dsimp only [touches]; decide +kernel
theorem holdTimeout (ck : Nat) : Statement (.holdTimeout ck) := by
  unfold Statement; dsimp only [touches]; decide +kernel
theorem slowVcoreNamed (ck : Nat) : Statement (.slowVcoreNamed ck) := by
  unfold Statement; dsimp only [touches]; decide +kernel
theorem localFlip (e : Nat) : Statement (.localFlip e) := by
  unfold Statement; dsimp only [touches]; decide +kernel
theorem epochBind (v : Nat) (elsewhere : Nat) (pass : EpochPass) : Statement (.epochBind v elsewhere pass) := by
  unfold Statement; dsimp only [touches]; decide +kernel
theorem pipReceive (p : Pip) (pc : Nat) (redirected : Bool) : Statement (.pipReceive p pc redirected) := by
  unfold Statement; dsimp only [touches]; decide +kernel
theorem stepFire (ck : Nat) : Statement (.stepFire ck) := by
  unfold Statement; dsimp only [touches]; decide +kernel
theorem postUnitDone (ck : Nat) : Statement (.postUnitDone ck) := by
  unfold Statement; dsimp only [touches]; decide +kernel
theorem pipSend (ck : Nat) : Statement (.pipSend ck) := by
  unfold Statement; dsimp only [touches]; decide +kernel
theorem standinResult (ck id n : Nat) (ok : Bool) (vals : List Int) : Statement (.standinResult ck id n ok vals) := by
  unfold Statement; dsimp only [touches]; decide +kernel
theorem kernelStepFire (k : KernelRun) : Statement (.kernelStepFire k) := by
  unfold Statement; dsimp only [touches]; decide +kernel
theorem kernelStepEnd (v : Nat) (ops : List VOp) : Statement (.kernelStepEnd v ops) := by
  unfold Statement; dsimp only [touches]; decide +kernel
theorem kernelOverrun (v : Nat) : Statement (.kernelOverrun v) := by
  unfold Statement; dsimp only [touches]; decide +kernel
theorem kvWrite (v slot pos off mode : Nat) (parts : List KvPart) : Statement (.kvWrite v slot pos off mode parts) := by
  unfold Statement; dsimp only [touches]; decide +kernel
theorem kvReserve (v : Nat) : Statement (.kvReserve v) := by
  unfold Statement; dsimp only [touches]; decide +kernel
theorem kvRelease (v : Nat) : Statement (.kvRelease v) := by
  unfold Statement; dsimp only [touches]; decide +kernel
theorem kvShare (v : Nat) : Statement (.kvShare v) := by
  unfold Statement; dsimp only [touches]; decide +kernel
theorem standinRequest (v ck id n : Nat) : Statement (.standinRequest v ck id n) := by
  unfold Statement; dsimp only [touches]; decide +kernel
theorem standinDone (v : Nat) : Statement (.standinDone v) := by
  unfold Statement; dsimp only [touches]; decide +kernel
theorem sampleToken (v id pos off n : Nat) : Statement (.sampleToken v id pos off n) := by
  unfold Statement; dsimp only [touches]; decide +kernel
theorem scoreHeartbeat (ck w : Nat) : Statement (.scoreHeartbeat ck w) := by
  unfold Statement; dsimp only [touches]; decide +kernel
theorem heartbeatLost (ck : Nat) : Statement (.heartbeatLost ck) := by
  unfold Statement; dsimp only [touches]; decide +kernel
theorem mtimecmpInterrupt (ck : Nat) : Statement (.mtimecmpInterrupt ck) := by
  unfold Statement; dsimp only [touches]; decide +kernel
theorem txSend (ck w : Nat) : Statement (.txSend ck w) := by
  unfold Statement; dsimp only [touches]; decide +kernel
theorem rxTailWrite (ck w : Nat) : Statement (.rxTailWrite ck w) := by
  unfold Statement; dsimp only [touches]; decide +kernel
theorem mailbox (ck w : Nat) : Statement (.mailbox ck w) := by
  unfold Statement; dsimp only [touches]; decide +kernel
theorem hollowLoad (ck pc a n : Nat) (lost : Bool) : Statement (.hollowLoad ck pc a n lost) := by
  unfold Statement; dsimp only [touches]; decide +kernel
theorem registerResult (ck pc a : Nat) (x : CoreAccess) : Statement (.registerResult ck pc a x) := by
  unfold Statement; dsimp only [touches]; decide +kernel
theorem scoreRun (ck w : Nat) : Statement (.scoreRun ck w) := by
  unfold Statement; dsimp only [touches]; decide +kernel
theorem coreImageChunk (ck n : Nat) (data : List Nat) : Statement (.coreImageChunk ck n data) := by
  unfold Statement; dsimp only [touches]; decide +kernel
theorem coreImageEnd (ck count digest : Nat) : Statement (.coreImageEnd ck count digest) := by
  unfold Statement; dsimp only [touches]; decide +kernel
theorem coreImageReport (ck : Nat) : Statement (.coreImageReport ck) := by
  unfold Statement; dsimp only [touches]; decide +kernel
theorem flitReceive (r port : Nat) (data : List Nat) (side : FlitSide) : Statement (.flitReceive r port data side) := by
  unfold Statement; dsimp only [touches]; decide +kernel
theorem creditRequest (producer : CredFrom) (dest stream n : Nat) : Statement (.creditRequest producer dest stream n) := by
  unfold Statement; dsimp only [touches]; decide +kernel
theorem creditGrant (ck dest stream n : Nat) (g : CredGens) : Statement (.creditGrant ck dest stream n g) := by
  unfold Statement; dsimp only [touches]; decide +kernel
theorem creditReturn (ck dest stream n : Nat) (g : CredGens) : Statement (.creditReturn ck dest stream n g) := by
  unfold Statement; dsimp only [touches]; decide +kernel
theorem creditRelease (dest stream n gen : Nat) : Statement (.creditRelease dest stream n gen) := by
  unfold Statement; dsimp only [touches]; decide +kernel
theorem creditIdle (ck dest stream : Nat) : Statement (.creditIdle ck dest stream) := by
  unfold Statement; dsimp only [touches]; decide +kernel
theorem noBufferRetry (ck dest stream : Nat) : Statement (.noBufferRetry ck dest stream) := by
  unfold Statement; dsimp only [touches]; decide +kernel
theorem responseReceive (ck pc : Nat) (redirected : Bool) (reqGen : Nat) (words : List Nat) : Statement (.responseReceive ck pc redirected reqGen words) := by
  unfold Statement; dsimp only [touches]; decide +kernel
theorem mapEntryWrite (m : Master) (r b i w : Nat) : Statement (.mapEntryWrite m r b i w) := by
  unfold Statement; dsimp only [touches]; decide +kernel
theorem mapSwitch (m : Master) (r w : Nat) : Statement (.mapSwitch m r w) := by
  unfold Statement; dsimp only [touches]; decide +kernel
theorem clockHoldEnd (half : Nat) : Statement (.clockHoldEnd half) := by
  unfold Statement; dsimp only [touches]; decide +kernel
theorem hbmRead (r : Requester) (id a n : Nat) (lr : Bool) (errs : List (Nat × Nat)) (flips : Nat) (miss : Option Nat) : Statement (.hbmRead r id a n lr errs flips miss) := by
  unfold Statement; dsimp only [touches]; decide +kernel
theorem hbmWrite (r : Requester) (id a n v : Nat) (hollow : Bool) (kind : Nat) (errs : List (Nat × Nat)) (flips : Nat) (miss : Option Nat) : Statement (.hbmWrite r id a n v hollow kind errs flips miss) := by
  unfold Statement; dsimp only [touches]; decide +kernel
theorem scrubRead (st : Nat) (errs : List (Nat × Nat)) (flips : Nat) (miss : Option Nat) : Statement (.scrubRead st errs flips miss) := by
  unfold Statement; dsimp only [touches]; decide +kernel
theorem hbmTrain (st outcome : Nat) : Statement (.hbmTrain st outcome) := by
  unfold Statement; dsimp only [touches]; decide +kernel
theorem hbmFill (st : Nat) : Statement (.hbmFill st) := by
  unfold Statement; dsimp only [touches]; decide +kernel
theorem interleaveWrite (m : Master) (w : Nat) : Statement (.interleaveWrite m w) := by
  unfold Statement; dsimp only [touches]; decide +kernel
theorem sealedRangeWrite (m : Master) (limit : Bool) (w : Nat) : Statement (.sealedRangeWrite m limit w) := by
  unfold Statement; dsimp only [touches]; decide +kernel
theorem ctxOpen (c : Cmd) : Statement (.ctxOpen c) := by
  unfold Statement; dsimp only [touches]; decide +kernel
theorem ctxClose (c : Cmd) : Statement (.ctxClose c) := by
  unfold Statement; dsimp only [touches]; decide +kernel
theorem submit (c : Cmd) : Statement (.submit c) := by
  unfold Statement; dsimp only [touches]; decide +kernel
theorem cancel (c : Cmd) : Statement (.cancel c) := by
  unfold Statement; dsimp only [touches]; decide +kernel
theorem inquire (c : Cmd) : Statement (.inquire c) := by
  unfold Statement; dsimp only [touches]; decide +kernel
theorem ringSetup (c : Cmd) : Statement (.ringSetup c) := by
  unfold Statement; dsimp only [touches]; decide +kernel
theorem variantActivate (c : Cmd) (place : Placement) (elsewhere : Nat) : Statement (.variantActivate c place elsewhere) := by
  unfold Statement; dsimp only [touches]; decide +kernel
theorem variantRetire (c : Cmd) : Statement (.variantRetire c) := by
  unfold Statement; dsimp only [touches]; decide +kernel
theorem promptReadDone (id : Nat) (ok : Bool) (tokens : List Nat) : Statement (.promptReadDone id ok tokens) := by
  unfold Statement; dsimp only [touches]; decide +kernel
theorem requestActivate (v : Nat) : Statement (.requestActivate v) := by
  unfold Statement; dsimp only [touches]; decide +kernel
theorem dispatchTurn (v : Nat) : Statement (.dispatchTurn v) := by
  unfold Statement; dsimp only [touches]; decide +kernel
theorem starvePromotion (id : Nat) : Statement (.starvePromotion id) := by
  unfold Statement; dsimp only [touches]; decide +kernel
theorem tenantDebit (m : Master) (t w : Nat) : Statement (.tenantDebit m t w) := by
  unfold Statement; dsimp only [touches]; decide +kernel
theorem tenantEnable (m : Master) (t w : Nat) : Statement (.tenantEnable m t w) := by
  unfold Statement; dsimp only [touches]; decide +kernel
theorem tenantRateWrite (m : Master) (t w : Nat) : Statement (.tenantRateWrite m t w) := by
  unfold Statement; dsimp only [touches]; decide +kernel
theorem deadlineExpiry (id : Nat) : Statement (.deadlineExpiry id) := by
  unfold Statement; dsimp only [touches]; decide +kernel
theorem ringDeliver (r : Nat) : Statement (.ringDeliver r) := by
  unfold Statement; dsimp only [touches]; decide +kernel
theorem tailAck (r : Nat) : Statement (.tailAck r) := by
  unfold Statement; dsimp only [touches]; decide +kernel
theorem consumedWrite (m : Master) (r w : Nat) : Statement (.consumedWrite m r w) := by
  unfold Statement; dsimp only [touches]; decide +kernel
theorem positionDone (id : Nat) (hollow : Bool) (token : Nat) : Statement (.positionDone id hollow token) := by
  unfold Statement; dsimp only [touches]; decide +kernel
theorem abnormalEnd (id status lost : Nat) : Statement (.abnormalEnd id status lost) := by
  unfold Statement; dsimp only [touches]; decide +kernel
theorem drainLimit (v : Nat) : Statement (.drainLimit v) := by
  unfold Statement; dsimp only [touches]; decide +kernel
theorem drainLimitWrite (m : Master) (v w : Nat) : Statement (.drainLimitWrite m v w) := by
  unfold Statement; dsimp only [touches]; decide +kernel
theorem drainSetDispatch (v : Nat) : Statement (.drainSetDispatch v) := by
  unfold Statement; dsimp only [touches]; decide +kernel
theorem drainSetArrival (v : Nat) : Statement (.drainSetArrival v) := by
  unfold Statement; dsimp only [touches]; decide +kernel
theorem frameReceive (port : Nat) (f : EthFrame) : Statement (.frameReceive port f) := by
  unfold Statement; dsimp only [touches]; decide +kernel
theorem portEnable (m : Master) (p w : Nat) : Statement (.portEnable m p w) := by
  unfold Statement; dsimp only [touches]; decide +kernel
theorem linkUp (port : Nat) : Statement (.linkUp port) := by
  unfold Statement; dsimp only [touches]; decide +kernel
theorem linkDownTimeout (port : Nat) : Statement (.linkDownTimeout port) := by
  unfold Statement; dsimp only [touches]; decide +kernel
theorem pfcXoff (port occ : Nat) : Statement (.pfcXoff port occ) := by
  unfold Statement; dsimp only [touches]; decide +kernel
theorem pfcRepeat (port occ : Nat) : Statement (.pfcRepeat port occ) := by
  unfold Statement; dsimp only [touches]; decide +kernel
theorem pfcXon (port occ : Nat) : Statement (.pfcXon port occ) := by
  unfold Statement; dsimp only [touches]; decide +kernel
theorem pfcReceive (port enable : Nat) (quanta : List Nat) : Statement (.pfcReceive port enable quanta) := by
  unfold Statement; dsimp only [touches]; decide +kernel
theorem cnpReceive (qp : Nat) : Statement (.cnpReceive qp) := by
  unfold Statement; dsimp only [touches]; decide +kernel
theorem rateIncrease (qp : Nat) : Statement (.rateIncrease qp) := by
  unfold Statement; dsimp only [touches]; decide +kernel
theorem addressWrite (m : Master) (p j w : Nat) : Statement (.addressWrite m p j w) := by
  unfold Statement; dsimp only [touches]; decide +kernel
theorem arpRequest (port ip : Nat) : Statement (.arpRequest port ip) := by
  unfold Statement; dsimp only [touches]; decide +kernel
theorem neighbourSolicitation (port hi lo : Nat) : Statement (.neighbourSolicitation port hi lo) := by
  unfold Statement; dsimp only [touches]; decide +kernel
theorem lldpSend (port : Nat) : Statement (.lldpSend port) := by
  unfold Statement; dsimp only [touches]; decide +kernel
theorem lldpReceive (port chassis portId : Nat) : Statement (.lldpReceive port chassis portId) := by
  unfold Statement; dsimp only [touches]; decide +kernel
theorem inboundRdma (qp : Nat) : Statement (.inboundRdma qp) := by
  unfold Statement; dsimp only [touches]; decide +kernel
theorem remoteNak (qp : Nat) : Statement (.remoteNak qp) := by
  unfold Statement; dsimp only [touches]; decide +kernel
theorem cmReq (port : Nat) (r : CmReq) : Statement (.cmReq port r) := by
  unfold Statement; dsimp only [touches]; decide +kernel
theorem cmRtu (qp : Nat) : Statement (.cmRtu qp) := by
  unfold Statement; dsimp only [touches]; decide +kernel
theorem cmRej (qp : Nat) : Statement (.cmRej qp) := by
  unfold Statement; dsimp only [touches]; decide +kernel
theorem cmDreq (qp : Nat) : Statement (.cmDreq qp) := by
  unfold Statement; dsimp only [touches]; decide +kernel
theorem cmDrep (qp : Nat) : Statement (.cmDrep qp) := by
  unfold Statement; dsimp only [touches]; decide +kernel
theorem qpClose (m : Master) (q : Nat) : Statement (.qpClose m q) := by
  unfold Statement; dsimp only [touches]; decide +kernel
theorem qpError (qp cause : Nat) : Statement (.qpError qp cause) := by
  unfold Statement; dsimp only [touches]; decide +kernel
theorem rcAck (qp kind psn : Nat) : Statement (.rcAck qp kind psn) := by
  unfold Statement; dsimp only [touches]; decide +kernel
theorem rcRetryTimeout (qp : Nat) : Statement (.rcRetryTimeout qp) := by
  unfold Statement; dsimp only [touches]; decide +kernel
theorem commandTimeout (qp id : Nat) : Statement (.commandTimeout qp id) := by
  unfold Statement; dsimp only [touches]; decide +kernel
theorem unknownOpcode (opcode : Nat) (c : Cmd) : Statement (.unknownOpcode opcode c) := by
  unfold Statement; dsimp only [touches]; decide +kernel
theorem nop (c : Cmd) : Statement (.nop c) := by
  unfold Statement; dsimp only [touches]; decide +kernel
theorem identify (c : Cmd) : Statement (.identify c) := by
  unfold Statement; dsimp only [touches]; decide +kernel
theorem semAcquire (c : Cmd) : Statement (.semAcquire c) := by
  unfold Statement; dsimp only [touches]; decide +kernel
theorem semRelease (c : Cmd) : Statement (.semRelease c) := by
  unfold Statement; dsimp only [touches]; decide +kernel
theorem semBreak (c : Cmd) : Statement (.semBreak c) := by
  unfold Statement; dsimp only [touches]; decide +kernel
theorem semOpAcquire (m : Master) (i lease : Nat) : Statement (.semOpAcquire m i lease) := by
  unfold Statement; dsimp only [touches]; decide +kernel
theorem semOpRelease (m : Master) (i : Nat) : Statement (.semOpRelease m i) := by
  unfold Statement; dsimp only [touches]; decide +kernel
theorem semOpBreak (m : Master) (i : Nat) : Statement (.semOpBreak m i) := by
  unfold Statement; dsimp only [touches]; decide +kernel
theorem leaseExpiry (i : Nat) : Statement (.leaseExpiry i) := by
  unfold Statement; dsimp only [touches]; decide +kernel
theorem ptpSync (port domain seq : Nat) (twoStep : Bool) : Statement (.ptpSync port domain seq twoStep) := by
  unfold Statement; dsimp only [touches]; decide +kernel
theorem ptpFollowUp (port domain seq t1 : Nat) : Statement (.ptpFollowUp port domain seq t1) := by
  unfold Statement; dsimp only [touches]; decide +kernel
theorem ptpAnnounce (port domain gm : Nat) : Statement (.ptpAnnounce port domain gm) := by
  unfold Statement; dsimp only [touches]; decide +kernel
theorem ptpDelayResp (port domain seq t4 : Nat) : Statement (.ptpDelayResp port domain seq t4) := by
  unfold Statement; dsimp only [touches]; decide +kernel
theorem ptpManagement (port domain : Nat) (words : List Nat) : Statement (.ptpManagement port domain words) := by
  unfold Statement; dsimp only [touches]; decide +kernel
theorem laneBad (d lane power : Nat) : Statement (.laneBad d lane power) := by
  unfold Statement; dsimp only [touches]; decide +kernel
theorem laneFrame (d active boundary : Nat) : Statement (.laneFrame d active boundary) := by
  unfold Statement; dsimp only [touches]; decide +kernel
theorem laneRetrain (d lane : Nat) (ok : Bool) : Statement (.laneRetrain d lane ok) := by
  unfold Statement; dsimp only [touches]; decide +kernel
theorem fibreReversed (d txLight rxLight : Nat) : Statement (.fibreReversed d txLight rxLight) := by
  unfold Statement; dsimp only [touches]; decide +kernel
theorem borsanFrameReceive (d : Nat) (f : Frame) (crcOk : Bool) (fec : List (Nat × Nat × Nat)) : Statement (.borsanFrameReceive d f crcOk fec) := by
  unfold Statement; dsimp only [touches]; decide +kernel
theorem borsanAck (d seq : Nat) : Statement (.borsanAck d seq) := by
  unfold Statement; dsimp only [touches]; decide +kernel
theorem borsanNak (d seq : Nat) : Statement (.borsanNak d seq) := by
  unfold Statement; dsimp only [touches]; decide +kernel
theorem timeFrameSend (d : Nat) : Statement (.timeFrameSend d) := by
  unfold Statement; dsimp only [touches]; decide +kernel
theorem timeFrameReceive (d peerT1 echoT1 t2 t3 : Nat) : Statement (.timeFrameReceive d peerT1 echoT1 t2 t3) := by
  unfold Statement; dsimp only [touches]; decide +kernel
theorem remoteCreditReq (u : Nat) (f : Frame) : Statement (.remoteCreditReq u f) := by
  unfold Statement; dsimp only [touches]; decide +kernel
theorem remoteCreditGrant (u : Nat) (f : Frame) : Statement (.remoteCreditGrant u f) := by
  unfold Statement; dsimp only [touches]; decide +kernel
theorem remoteCreditReturn (u : Nat) (f : Frame) : Statement (.remoteCreditReturn u f) := by
  unfold Statement; dsimp only [touches]; decide +kernel
theorem noticeFrame (f : Frame) : Statement (.noticeFrame f) := by
  unfold Statement; dsimp only [touches]; decide +kernel
theorem lsnReceive (d : Nat) (l : Lsn) : Statement (.lsnReceive d l) := by
  unfold Statement; dsimp only [touches]; decide +kernel
theorem peerLsnTimeout (d : Nat) : Statement (.peerLsnTimeout d) := by
  unfold Statement; dsimp only [touches]; decide +kernel
theorem topologyLoad (c : Cmd) : Statement (.topologyLoad c) := by
  unfold Statement; dsimp only [touches]; decide +kernel
theorem helloSend (d : Nat) : Statement (.helloSend d) := by
  unfold Statement; dsimp only [touches]; decide +kernel
theorem helloReceive (d : Nat) (h : Hello) : Statement (.helloReceive d h) := by
  unfold Statement; dsimp only [touches]; decide +kernel
theorem agreeTimeout (d : Nat) : Statement (.agreeTimeout d) := by
  unfold Statement; dsimp only [touches]; decide +kernel
theorem collectiveStart (i : Nat) : Statement (.collectiveStart i) := by
  unfold Statement; dsimp only [touches]; decide +kernel
theorem chunkReceive (u : Nat) (f : Frame) : Statement (.chunkReceive u f) := by
  unfold Statement; dsimp only [touches]; decide +kernel
theorem chunkAck (u : Nat) (f : Frame) : Statement (.chunkAck u f) := by
  unfold Statement; dsimp only [touches]; decide +kernel
theorem resendReq (u : Nat) (f : Frame) : Statement (.resendReq u f) := by
  unfold Statement; dsimp only [touches]; decide +kernel
theorem collectiveTimeout (i : Nat) : Statement (.collectiveTimeout i) := by
  unfold Statement; dsimp only [touches]; decide +kernel
theorem linkEnable (m : Master) (d w : Nat) : Statement (.linkEnable m d w) := by
  unfold Statement; dsimp only [touches]; decide +kernel
theorem modelKeyImport (c : Cmd) (lowFirst : Bool) : Statement (.modelKeyImport c lowFirst) := by
  unfold Statement; dsimp only [touches]; decide +kernel
theorem modelKeyDelete (c : Cmd) : Statement (.modelKeyDelete c) := by
  unfold Statement; dsimp only [touches]; decide +kernel
theorem variantRegister (c : Cmd) : Statement (.variantRegister c) := by
  unfold Statement; dsimp only [touches]; decide +kernel
theorem huskFetch (c : Cmd) : Statement (.huskFetch c) := by
  unfold Statement; dsimp only [touches]; decide +kernel
theorem variantUnregister (c : Cmd) : Statement (.variantUnregister c) := by
  unfold Statement; dsimp only [touches]; decide +kernel
theorem shardFrame (f : Frame) : Statement (.shardFrame f) := by
  unfold Statement; dsimp only [touches]; decide +kernel
theorem huskVerified (v i : Nat) (fromHost : Bool) (copy : HuskCopy) : Statement (.huskVerified v i fromHost copy) := by
  unfold Statement; dsimp only [touches]; decide +kernel
theorem bulkAck (f : Frame) (hollow : Bool) : Statement (.bulkAck f hollow) := by
  unfold Statement; dsimp only [touches]; decide +kernel
theorem shardTimeout (v : Nat) : Statement (.shardTimeout v) := by
  unfold Statement; dsimp only [touches]; decide +kernel
theorem notRegisteredResend (v i : Nat) : Statement (.notRegisteredResend v i) := by
  unfold Statement; dsimp only [touches]; decide +kernel
theorem itemDecrypted (v : Nat) (i : Nat) (n : Nat) (ext : Nat) (sram : Nat) (last : Bool) (unit : Nat) : Statement (.itemDecrypted v i n ext sram last unit) := by
  unfold Statement; dsimp only [touches]; decide +kernel
theorem fwChunk (f : Frame) : Statement (.fwChunk f) := by
  unfold Statement; dsimp only [touches]; decide +kernel
theorem spdmGetVersion (c : Cmd) : Statement (.spdmGetVersion c) := by
  unfold Statement; dsimp only [touches]; decide +kernel
theorem spdmGetCapabilities (c : Cmd) (rsp : List Nat) : Statement (.spdmGetCapabilities c rsp) := by
  unfold Statement; dsimp only [touches]; decide +kernel
theorem spdmNegotiateAlgorithms (c : Cmd) (rsp : List Nat) : Statement (.spdmNegotiateAlgorithms c rsp) := by
  unfold Statement; dsimp only [touches]; decide +kernel
theorem spdmGetDigests (c : Cmd) (rsp : List Nat) : Statement (.spdmGetDigests c rsp) := by
  unfold Statement; dsimp only [touches]; decide +kernel
theorem spdmGetCertificate (c : Cmd) (rsp : List Nat) : Statement (.spdmGetCertificate c rsp) := by
  unfold Statement; dsimp only [touches]; decide +kernel
theorem spdmChallenge (c : Cmd) (rsp : List Nat) : Statement (.spdmChallenge c rsp) := by
  unfold Statement; dsimp only [touches]; decide +kernel
theorem spdmGetMeasurements (c : Cmd) (rsp : List Nat) : Statement (.spdmGetMeasurements c rsp) := by
  unfold Statement; dsimp only [touches]; decide +kernel
theorem spdmUnsupported (c : Cmd) : Statement (.spdmUnsupported c) := by
  unfold Statement; dsimp only [touches]; decide +kernel
theorem sramScrub (pc off : Nat) (errs : List (Nat × Nat)) (miss : Option Nat) : Statement (.sramScrub pc off errs miss) := by
  unfold Statement; dsimp only [touches]; decide +kernel
theorem reexecCheckDone (ck id n : Nat) (ok : Bool) (vals : List Int) : Statement (.reexecCheckDone ck id n ok vals) := by
  unfold Statement; dsimp only [touches]; decide +kernel
theorem evidence (pc code eng : Nat) : Statement (.evidence pc code eng) := by
  unfold Statement; dsimp only [touches]; decide +kernel
theorem railSlewEnd (p : Nat) : Statement (.railSlewEnd p) := by
  unfold Statement; dsimp only [touches]; decide +kernel
theorem absentNotice (stream : Nat) : Statement (.absentNotice stream) := by
  unfold Statement; dsimp only [touches]; decide +kernel
theorem domainReset (c : Cmd) : Statement (.domainReset c) := by
  unfold Statement; dsimp only [touches]; decide +kernel
theorem drainEnd (scope target : Nat) : Statement (.drainEnd scope target) := by
  unfold Statement; dsimp only [touches]; decide +kernel
theorem resetRelease (scope target : Nat) (badCores : List Nat) : Statement (.resetRelease scope target badCores) := by
  unfold Statement; dsimp only [touches]; decide +kernel
theorem genWaitEnd (scope target : Nat) : Statement (.genWaitEnd scope target) := by
  unfold Statement; dsimp only [touches]; decide +kernel
theorem stepWatchdog (ck id waited : Nat) : Statement (.stepWatchdog ck id waited) := by
  unfold Statement; dsimp only [touches]; decide +kernel
theorem nobufLimit (ck dest stream : Nat) : Statement (.nobufLimit ck dest stream) := by
  unfold Statement; dsimp only [touches]; decide +kernel
theorem resetEscalation (scope target : Nat) : Statement (.resetEscalation scope target) := by
  unfold Statement; dsimp only [touches]; decide +kernel
theorem coldStart (floating : Nat) : Statement (.coldStart floating) := by
  unfold Statement; dsimp only [touches]; decide +kernel
theorem romPhaseEnd (b : Boot) : Statement (.romPhaseEnd b) := by
  unfold Statement; dsimp only [touches]; decide +kernel
theorem platformPhaseEnd (bad : List (Nat × Nat)) : Statement (.platformPhaseEnd bad) := by
  unfold Statement; dsimp only [touches]; decide +kernel
theorem selfTestDone (pc engines : Nat) (sramBad logicBad niBad : Bool) (signature : Nat) : Statement (.selfTestDone pc engines sramBad logicBad niBad signature) := by
  unfold Statement; dsimp only [touches]; decide +kernel
theorem coresPhaseEnd (badCores : List Nat) : Statement (.coresPhaseEnd badCores) := by
  unfold Statement; dsimp only [touches]; decide +kernel
theorem moduleLeave (c : Cmd) : Statement (.moduleLeave c) := by
  unfold Statement; dsimp only [touches]; decide +kernel
theorem oasisRestartDone (ok : Bool) : Statement (.oasisRestartDone ok) := by
  unfold Statement; dsimp only [touches]; decide +kernel
theorem heartbeat (c : Cmd) : Statement (.heartbeat c) := by
  unfold Statement; dsimp only [touches]; decide +kernel
theorem heartbeatRestart (c : Cmd) : Statement (.heartbeatRestart c) := by
  unfold Statement; dsimp only [touches]; decide +kernel
theorem heartbeatEchoTimeout (qp id : Nat) : Statement (.heartbeatEchoTimeout qp id) := by
  unfold Statement; dsimp only [touches]; decide +kernel
theorem timeSetStep (c : Cmd) : Statement (.timeSetStep c) := by
  unfold Statement; dsimp only [touches]; decide +kernel
theorem timeSetSlew (c : Cmd) : Statement (.timeSetSlew c) := by
  unfold Statement; dsimp only [touches]; decide +kernel
theorem eventSend (qp : Nat) : Statement (.eventSend qp) := by
  unfold Statement; dsimp only [touches]; decide +kernel
theorem eventSubscribe (c : Cmd) : Statement (.eventSubscribe c) := by
  unfold Statement; dsimp only [touches]; decide +kernel
theorem logRead (c : Cmd) : Statement (.logRead c) := by
  unfold Statement; dsimp only [touches]; decide +kernel
theorem statusQuery (c : Cmd) : Statement (.statusQuery c) := by
  unfold Statement; dsimp only [touches]; decide +kernel
theorem fwUpdateStage (c : Cmd) : Statement (.fwUpdateStage c) := by
  unfold Statement; dsimp only [touches]; decide +kernel
theorem fwStageDone (status version security : Nat) (raise : Bool) (image : FwImage) : Statement (.fwStageDone status version security raise image) := by
  unfold Statement; dsimp only [touches]; decide +kernel
theorem fwUpdateActivate (c : Cmd) : Statement (.fwUpdateActivate c) := by
  unfold Statement; dsimp only [touches]; decide +kernel
theorem fwUpdateCommit (c : Cmd) : Statement (.fwUpdateCommit c) := by
  unfold Statement; dsimp only [touches]; decide +kernel
theorem fwUpdateDiscard (c : Cmd) : Statement (.fwUpdateDiscard c) := by
  unfold Statement; dsimp only [touches]; decide +kernel
theorem conversionEnd (i code : Nat) : Statement (.conversionEnd i code) := by
  unfold Statement; dsimp only [touches]; decide +kernel
theorem overcurrentComparator (i n : Nat) : Statement (.overcurrentComparator i n) := by
  unfold Statement; dsimp only [touches]; decide +kernel
theorem urgentGo (m : Master) (i w : Nat) : Statement (.urgentGo m i w) := by
  unfold Statement; dsimp only [touches]; decide +kernel
theorem slowRound (thbm : List (Option Int)) (tele peak leakOhm : Nat) (leakShort : Bool) (late : Nat) : Statement (.slowRound thbm tele peak leakOhm leakShort late) := by
  unfold Statement; dsimp only [touches]; decide +kernel
theorem throttleEscalate (p : Nat) : Statement (.throttleEscalate p) := by
  unfold Statement; dsimp only [touches]; decide +kernel
theorem undervoltageEnd (p : Nat) : Statement (.undervoltageEnd p) := by
  unfold Statement; dsimp only [touches]; decide +kernel
theorem powerCapSet (c : Cmd) : Statement (.powerCapSet c) := by
  unfold Statement; dsimp only [touches]; decide +kernel
theorem sensorQuery (c : Cmd) : Statement (.sensorQuery c) := by
  unfold Statement; dsimp only [touches]; decide +kernel
theorem ageingMeasure (counts : List (Nat × Nat)) : Statement (.ageingMeasure counts) := by
  unfold Statement; dsimp only [touches]; decide +kernel
theorem replanNow (m : Master) (w : Nat) : Statement (.replanNow m w) := by
  unfold Statement; dsimp only [touches]; decide +kernel
theorem sbSetdasa (static dyn : Nat) : Statement (.sbSetdasa static dyn) := by
  unfold Statement; dsimp only [touches]; decide +kernel
theorem sbEntdaa (dyn : Nat) : Statement (.sbEntdaa dyn) := by
  unfold Statement; dsimp only [touches]; decide +kernel
theorem sbIdent (pecOk early : Bool) : Statement (.sbIdent pecOk early) := by
  unfold Statement; dsimp only [touches]; decide +kernel
theorem sbState (pecOk early : Bool) : Statement (.sbState pecOk early) := by
  unfold Statement; dsimp only [touches]; decide +kernel
theorem sbThermal (pecOk early : Bool) : Statement (.sbThermal pecOk early) := by
  unfold Statement; dsimp only [touches]; decide +kernel
theorem sbPower (pecOk early : Bool) : Statement (.sbPower pecOk early) := by
  unfold Statement; dsimp only [touches]; decide +kernel
theorem sbBoardCap (pecOk : Bool) (watts : Nat) : Statement (.sbBoardCap pecOk watts) := by
  unfold Statement; dsimp only [touches]; decide +kernel
theorem sbFaults (pecOk early : Bool) : Statement (.sbFaults pecOk early) := by
  unfold Statement; dsimp only [touches]; decide +kernel
theorem sbFaultClear (pecOk : Bool) (mask : Nat) : Statement (.sbFaultClear pecOk mask) := by
  unfold Statement; dsimp only [touches]; decide +kernel
theorem linkLoss (port : Nat) : Statement (.linkLoss port) := by
  unfold Statement; dsimp only [touches]; decide +kernel
theorem linkTrained (d lanes txCount : Nat) (positions powers : List Nat) : Statement (.linkTrained d lanes txCount positions powers) := by
  unfold Statement; dsimp only [touches]; decide +kernel
theorem resetPhaseEnd (scope target : Nat) : Statement (.resetPhaseEnd scope target) := by
  unfold Statement; dsimp only [touches]; decide +kernel
theorem accessFault (ck pc a n kind : Nat) : Statement (.accessFault ck pc a n kind) := by
  unfold Statement; dsimp only [touches]; decide +kernel
theorem manifestReadDone (v : Nat) (ok : Bool) (bytes : List Nat) (addr : Nat) (room : Bool) : Statement (.manifestReadDone v ok bytes addr room) := by
  unfold Statement; dsimp only [touches]; decide +kernel
theorem pageInterrupt : Statement (.pageInterrupt) := by
  unfold Statement; dsimp only [touches]; decide +kernel
theorem progDequeue : Statement (.progDequeue) := by
  unfold Statement; dsimp only [touches]; decide +kernel
theorem elapsedTick : Statement (.elapsedTick) := by
  unfold Statement; dsimp only [touches]; decide +kernel
theorem elapsedCommit : Statement (.elapsedCommit) := by
  unfold Statement; dsimp only [touches]; decide +kernel
theorem mapSwitchComplete : Statement (.mapSwitchComplete) := by
  unfold Statement; dsimp only [touches]; decide +kernel
theorem commitToken : Statement (.commitToken) := by
  unfold Statement; dsimp only [touches]; decide +kernel
theorem commitEnd : Statement (.commitEnd) := by
  unfold Statement; dsimp only [touches]; decide +kernel
theorem commitTokenEnd : Statement (.commitTokenEnd) := by
  unfold Statement; dsimp only [touches]; decide +kernel
theorem routeSwitch : Statement (.routeSwitch) := by
  unfold Statement; dsimp only [touches]; decide +kernel
theorem routeHoldEnd : Statement (.routeHoldEnd) := by
  unfold Statement; dsimp only [touches]; decide +kernel
theorem fence : Statement (.fence) := by
  unfold Statement; dsimp only [touches]; decide +kernel
theorem memoryPhaseEnd : Statement (.memoryPhaseEnd) := by
  unfold Statement; dsimp only [touches]; decide +kernel
theorem linksPhaseEnd : Statement (.linksPhaseEnd) := by
  unfold Statement; dsimp only [touches]; decide +kernel
theorem phaseTimeout : Statement (.phaseTimeout) := by
  unfold Statement; dsimp only [touches]; decide +kernel
theorem leaveDrainDone : Statement (.leaveDrainDone) := by
  unfold Statement; dsimp only [touches]; decide +kernel
theorem leaveLimit : Statement (.leaveLimit) := by
  unfold Statement; dsimp only [touches]; decide +kernel
theorem wdLoop : Statement (.wdLoop) := by
  unfold Statement; dsimp only [touches]; decide +kernel
theorem wdRound : Statement (.wdRound) := by
  unfold Statement; dsimp only [touches]; decide +kernel
theorem wdHost : Statement (.wdHost) := by
  unfold Statement; dsimp only [touches]; decide +kernel
theorem oasisRestartTimeout : Statement (.oasisRestartTimeout) := by
  unfold Statement; dsimp only [touches]; decide +kernel
theorem hbEcho : Statement (.hbEcho) := by
  unfold Statement; dsimp only [touches]; decide +kernel
theorem hostSilent : Statement (.hostSilent) := by
  unfold Statement; dsimp only [touches]; decide +kernel
theorem syncSourceLost : Statement (.syncSourceLost) := by
  unfold Statement; dsimp only [touches]; decide +kernel
theorem logEvent : Statement (.logEvent) := by
  unfold Statement; dsimp only [touches]; decide +kernel
theorem replan : Statement (.replan) := by
  unfold Statement; dsimp only [touches]; decide +kernel
theorem powerLoss : Statement (.powerLoss) := by
  unfold Statement; dsimp only [touches]; decide +kernel
theorem inputReversed : Statement (.inputReversed) := by
  unfold Statement; dsimp only [touches]; decide +kernel
theorem resetNAssert : Statement (.resetNAssert) := by
  unfold Statement; dsimp only [touches]; decide +kernel
theorem powerApplied : Statement (.powerApplied) := by
  unfold Statement; dsimp only [touches]; decide +kernel
theorem inputOvervoltage : Statement (.inputOvervoltage) := by
  unfold Statement; dsimp only [touches]; decide +kernel
theorem railOutOfRegulation : Statement (.railOutOfRegulation) := by
  unfold Statement; dsimp only [touches]; decide +kernel

end Sys2Proof.Laws.Shape
end

