-- ==== Sys2Proof/WellFormed.lean ====
section
/-! DEFINITION. Well-formed commands: operands that name things the module has, and values of the widths the spec gives them. A meaning is
total: it answers on every operand; these checks say which commands a sender of the spec can send. -/

namespace Sys2Proof

/-- R14, R36: `c * 1024 + k * 16 + e` names a logical engine of a logical M-core. -/
def okEngine (e : Nat) : Bool := decide (e / 1024 < 32) && decide (e / 16 % 64 ≤ 45)
/-- R14: `c * 64 + k` names a logical core. -/
def okCore (ck : Nat) : Bool := decide (ck / 64 < 32) && decide (ck % 64 < 60)
/-- R14: a logical M-core. -/
def okMCore (ck : Nat) : Bool := okCore ck && decide (Machine.kindOfLogical (ck % 64) = 0)
/-- R14: a logical V-core. -/
def okVCore (ck : Nat) : Bool := okCore ck && decide (Machine.kindOfLogical (ck % 64) = 1)
/-- R14: a logical S-core. -/
def okSCore (ck : Nat) : Bool := okCore ck && decide (Machine.kindOfLogical (ck % 64) = 2)
/-- R39, R330: a master: a queue pair is one of 1,024, an S-core a logical one. -/
def okMaster (m : Master) : Bool :=
  match m with
  | .oasis => true
  | .hostA qp => decide (qp < 1024)
  | .hostB qp => decide (qp < 1024)
  | .score ck => okSCore ck
/-- R262: who asks an HBM controller. -/
def okRequester (r : Requester) : Bool :=
  match r with
  | .master m => okMaster m
  | .stream v => okVCore v
  | .program e => okEngine e
  | .collective u => decide (u < 6)
/-- R338: the widths of a command's header. -/
def okCmd (c : Cmd) : Bool :=
  decide (c.qp < 1024) && decide (c.version < 256) && decide (c.bodyWords < 65536) && decide (c.cmdId < 2 ^ 32)
    && decide (c.timeout < 2 ^ 16) && decide (c.scale < 4)
/-- Bytes. -/
def okBytes (l : List Nat) : Bool := l.all fun b => decide (b < 256)
/-- 64-bit words. -/
def okWords (l : List Nat) : Bool := l.all fun w => decide (w < 2 ^ 64)
/-- R237, R238: the widths of a pip's header and its payload of at most 2,048 bytes. -/
def okPip (p : Pip) : Bool :=
  decide (p.dest < 65536) && decide (p.stream < 65536) && decide (p.seq < 65536) && decide (p.gen < 256) && decide (p.epoch < 4)
    && decide (p.payload.length ≤ 2048) && okBytes p.payload
/-- R362: the widths of a Borsan frame's header. -/
def okFrame (f : Frame) : Bool :=
  decide (f.cls < 4) && decide (f.typ < 8) && decide (f.dest < 32768) && decide (f.src < 32768) && decide (f.phase < 4) && decide (f.order < 8)
    && okWords f.words
/-- R373: a link-state notice. -/
def okLsn (l : Lsn) : Bool := decide (l.origin < 32768) && decide (l.dir < 6) && decide (l.state < 4)
/-- R234: a flit: 128 data bytes, a class, a type, a CRC-32C. -/
def okFlit (data : List Nat) (f : FlitSide) : Bool :=
  decide (data.length = 128) && okBytes data && decide (f.cls < 4) && decide (f.typ < 4) && decide (f.crc < 2 ^ 32)
/-- R205: one of 64 vector registers. -/
def okVReg (r : Nat) : Bool := decide (r < 64)
/-- R117: one KV head's values: its registers and a format code. -/
def okKvPart (p : KvPart) : Bool := p.regs.all okVReg && decide (p.fmt < 16)
/-- R205, R206: an operation of a kernel names registers, lanes and formats that there are. -/
def okVOp (o : VOp) : Bool :=
  match o with
  | .arith op fmt _ d a b c => decide (op < 3) && decide (fmt < 3) && okVReg d && okVReg a && okVReg b && okVReg c
  | .lanes _ d a b c => okVReg d && okVReg a && okVReg b && okVReg c
  | .fill d w => okVReg d && decide (w < 2 ^ 32)
  | .func f d a => decide (f < 4) && okVReg d && okVReg a
  | .reduce f d a => decide (f < 3) && okVReg d && okVReg a
  | .conv src dst _ d a => decide (src < 5) && decide (dst < 5) && okVReg d && okVReg a
  | .draw d _ => okVReg d
  | .load d _ => okVReg d
  | .store a _ _ => okVReg a
  | .dequant _ d half _ => okVReg d && decide (half < 2)
  | .quant _ _ _ a half _ => okVReg a && decide (half < 2)
  | .rescale _ _ _ => true
  | .tileClear => true
  | .tile fmt _ _ => decide (5 ≤ fmt) && decide (fmt ≤ 10)
  | .tileRow d row => okVReg d && decide (row < 32)
  | .ctl a lane => okVReg a && decide (lane < 64)
  | .stream _ addr _ _ _ => decide (addr < 2 ^ 40)
  | .kvRead _ _ _ _ _ _ => true
  | .attend t => okVReg t.d
  | .send o => decide (o.dest < 2) && o.regs.all okVReg && decide (o.mode < 3)
  | .sendRaw dest _ _ _ n => decide (dest < 2) && decide (n ≤ 2048)
/-- A placement names engines, banks, M-cores and V-cores of the module. -/
def okPlacement (p : Placement) : Bool :=
  (p.items.all fun x => okEngine x.1 && decide (x.2.1 < 2)) && p.cores.all okCore && p.kvCores.all okVCore && (p.edges.all fun x => okMCore x.1)
/-- R461, R479: SCOPE and TARGET name a reset domain. -/
def okDomain (scope target : Nat) : Bool :=
  (decide (scope = 0) && okCore target) || (decide (scope = 1) && decide (target < 32)) || (decide (scope = 2) && decide (target < 4))
    || (decide (scope = 3) && decide (target = 0))

/-- The well-formed commands. -/
def Instr.wf (i : Instr) : Bool :=
  match i with
  | .registerWrite m a w => okMaster m && decide (a < 2 ^ 64) && decide (w < 2 ^ 64)
  | .rcRead m a => okMaster m && decide (a < 2 ^ 64)
  | .errRearm m pi w => okMaster m && decide (pi < 2 ^ 28) && decide (w < 2 ^ 64)
  | .ctlDomainReset m pi w => okMaster m && decide (pi < 2 ^ 28) && decide (w < 2 ^ 64)
  | .intForce m pi w => okMaster m && decide (pi < 2 ^ 28) && decide (w < 2 ^ 64)
  | .regRead c => okCmd c
  | .regWrite c => okCmd c
  | .pageInterrupt => true
  | .bankCtlWrite m e w => okMaster m && okEngine e && decide (w < 2 ^ 64)
  | .subStepEnd e _ => okEngine e
  | .pilotSweepDue e b => okEngine e && decide (b < 2)
  | .pilotSubStep e b _ => okEngine e && decide (b < 2)
  | .forcedSweep e b _ => okEngine e && decide (b < 2)
  | .pilotStale e => okEngine e
  | .pilotNow m e w => okMaster m && okEngine e && decide (w < 2 ^ 64)
  | .progStart m e w => okMaster m && okEngine e && decide (w < 2 ^ 64)
  | .progAbort m e w => okMaster m && okEngine e && decide (w < 2 ^ 64)
  | .progDequeue => true
  | .deferExpiry e => okEngine e
  | .rowPulseEnd e => okEngine e
  | .verifySubStep e _ _ => okEngine e
  | .verifyDeadline e => okEngine e
  | .elapsedTick => true
  | .elapsedCommit => true
  | .govPolicyWrite m e w => okMaster m && okEngine e && decide (w < 2 ^ 64)
  | .holdTimeout ck => okMCore ck
  | .slowVcoreNamed ck => okMCore ck
  | .localFlip e => okEngine e
  | .epochBind v _ p => decide (v < 64) && decide (p.value < 4)
  | .pipReceive p pc _ => okPip p && decide (pc < 2048)
  | .stepFire ck => okMCore ck
  | .postUnitDone ck => okMCore ck
  | .pipSend ck => okCore ck
  | .standinResult ck _ _ _ _ => okMCore ck
  | .kernelStepFire k => okVCore k.core && k.ops.all okVOp
  | .kernelStepEnd v ops => okVCore v && ops.all okVOp
  | .kernelOverrun v => okVCore v
  | .kvWrite v _ _ _ mode parts => okVCore v && decide (mode < 2) && parts.all okKvPart
  | .kvReserve v => okVCore v
  | .kvRelease v => okVCore v
  | .kvShare v => okVCore v
  | .standinRequest v ck _ _ => okVCore v && okMCore ck
  | .standinDone v => okVCore v
  | .sampleToken v _ pos _ _ => okVCore v && decide (pos < 2 ^ 32)
  | .scoreHeartbeat ck w => okSCore ck && decide (w < 2 ^ 64)
  | .heartbeatLost ck => okSCore ck
  | .mtimecmpInterrupt ck => okSCore ck
  | .txSend ck w => okSCore ck && decide (w < 2 ^ 64)
  | .rxTailWrite ck w => okSCore ck && decide (w < 2 ^ 64)
  | .mailbox ck w => okSCore ck && decide (w < 2 ^ 64)
  | .hollowLoad ck _ a _ _ => okSCore ck && decide (a < 2 ^ 64)
  | .registerResult ck _ a x => okSCore ck && decide (a < 2 ^ 64) && decide (x.bytes = 1 ∨ x.bytes = 2 ∨ x.bytes = 4 ∨ x.bytes = 8)
  | .scoreRun ck w => okSCore ck && decide (w < 2 ^ 64)
  | .coreImageChunk ck _ data => okSCore ck && okBytes data
  | .coreImageEnd ck _ digest => okSCore ck && decide (digest < 2 ^ 384)
  | .coreImageReport ck => okSCore ck
  | .flitReceive r port data side => decide (r < 512) && decide (port < 9) && okFlit data side
  | .creditRequest producer dest stream _ => decide (producer.core < 65536) && decide (producer.gen < 256) && decide (dest < 65536) && decide (stream < 65536)
  | .creditGrant ck dest stream _ g => okCore ck && decide (dest < 65536) && decide (stream < 65536) && decide (g.gen < 256) && decide (g.reqGen < 256)
  | .creditReturn ck dest stream _ g => okCore ck && decide (dest < 65536) && decide (stream < 65536) && decide (g.gen < 256) && decide (g.reqGen < 256)
  | .creditRelease dest stream _ gen => decide (dest < 65536) && decide (stream < 65536) && decide (gen < 256)
  | .creditIdle ck dest stream => okCore ck && decide (dest < 65536) && decide (stream < 65536)
  | .noBufferRetry ck _ stream => okCore ck && decide (stream < 65536)
  | .responseReceive ck pc _ reqGen words => okCore ck && decide (pc < 2048) && decide (reqGen < 256) && okWords words
  | .mapEntryWrite m r b _ w => okMaster m && decide (r < 512) && decide (b < 2) && decide (w < 2 ^ 64)
  | .mapSwitch m r w => okMaster m && decide (r < 512) && decide (w < 2 ^ 64)
  | .mapSwitchComplete => true
  | .clockHoldEnd half => decide (half < 2)
  | .hbmRead r _ a _ _ _ _ _ => okRequester r && decide (a < 2 ^ 40)
  | .hbmWrite r _ a _ _ _ _ _ _ _ => okRequester r && decide (a < 2 ^ 40)
  | .scrubRead st _ _ _ => decide (st < 12)
  | .hbmTrain st _ => decide (st < 12)
  | .hbmFill st => decide (st < 12)
  | .interleaveWrite m w => okMaster m && decide (w < 2 ^ 64)
  | .sealedRangeWrite m _ w => okMaster m && decide (w < 2 ^ 64)
  | .ctxOpen c => okCmd c
  | .ctxClose c => okCmd c
  | .submit c => okCmd c
  | .cancel c => okCmd c
  | .inquire c => okCmd c
  | .ringSetup c => okCmd c
  | .variantActivate c place _ => okCmd c && okPlacement place
  | .variantRetire c => okCmd c
  | .promptReadDone _ _ _ => true
  | .requestActivate v => decide (v < 64)
  | .dispatchTurn v => decide (v < 64)
  | .starvePromotion _ => true
  | .tenantDebit m t w => okMaster m && decide (t < 4096) && decide (w < 2 ^ 64)
  | .tenantEnable m t w => okMaster m && decide (t < 4096) && decide (w < 2 ^ 64)
  | .tenantRateWrite m t w => okMaster m && decide (t < 4096) && decide (w < 2 ^ 64)
  | .deadlineExpiry _ => true
  | .commitToken => true
  | .commitEnd => true
  | .commitTokenEnd => true
  | .ringDeliver r => decide (r < 65536)
  | .tailAck r => decide (r < 65536)
  | .consumedWrite m r w => okMaster m && decide (r < 65536) && decide (w < 2 ^ 64)
  | .positionDone _ _ _ => true
  | .abnormalEnd _ _ _ => true
  | .drainLimit v => decide (v < 64)
  | .drainLimitWrite m v w => okMaster m && decide (v < 64) && decide (w < 2 ^ 64)
  | .drainSetDispatch v => decide (v < 64)
  | .drainSetArrival v => decide (v < 64)
  | .frameReceive port _ => decide (port < 2)
  | .portEnable m p w => okMaster m && decide (p < 2) && decide (w < 2 ^ 64)
  | .linkUp port => decide (port < 2)
  | .linkDownTimeout port => decide (port < 2)
  | .pfcXoff port _ => decide (port < 2)
  | .pfcRepeat port _ => decide (port < 2)
  | .pfcXon port _ => decide (port < 2)
  | .pfcReceive port _ _ => decide (port < 2)
  | .cnpReceive qp => decide (qp < 1024)
  | .rateIncrease qp => decide (qp < 1024)
  | .addressWrite m p _ w => okMaster m && decide (p < 2) && decide (w < 2 ^ 64)
  | .arpRequest port _ => decide (port < 2)
  | .neighbourSolicitation port hi lo => decide (port < 2) && decide (hi < 2 ^ 64) && decide (lo < 2 ^ 64)
  | .lldpSend port => decide (port < 2)
  | .lldpReceive port _ _ => decide (port < 2)
  | .inboundRdma qp => decide (qp < 1024)
  | .remoteNak qp => decide (qp < 1024)
  | .cmReq port _ => decide (port < 2)
  | .cmRtu qp => decide (qp < 1024)
  | .cmRej qp => decide (qp < 1024)
  | .cmDreq qp => decide (qp < 1024)
  | .cmDrep qp => decide (qp < 1024)
  | .qpClose m q => okMaster m && decide (q < 1024)
  | .qpError qp _ => decide (qp < 1024)
  | .rcAck qp _ _ => decide (qp < 1024)
  | .rcRetryTimeout qp => decide (qp < 1024)
  | .commandTimeout qp _ => decide (qp < 1024)
  | .unknownOpcode _ c => okCmd c
  | .nop c => okCmd c
  | .identify c => okCmd c
  | .semAcquire c => okCmd c
  | .semRelease c => okCmd c
  | .semBreak c => okCmd c
  | .semOpAcquire m i _ => okMaster m && decide (i < 256)
  | .semOpRelease m i => okMaster m && decide (i < 256)
  | .semOpBreak m i => okMaster m && decide (i < 256)
  | .leaseExpiry i => decide (i < 256)
  | .ptpSync port _ _ _ => decide (port < 2)
  | .ptpFollowUp port _ _ _ => decide (port < 2)
  | .ptpAnnounce port _ _ => decide (port < 2)
  | .ptpDelayResp port _ _ _ => decide (port < 2)
  | .ptpManagement port _ words => decide (port < 2) && okWords words
  | .laneBad d _ _ => decide (d < 6)
  | .laneFrame d _ _ => decide (d < 6)
  | .laneRetrain d _ _ => decide (d < 6)
  | .fibreReversed d _ _ => decide (d < 6)
  | .borsanFrameReceive d f _ _ => decide (d < 6) && okFrame f
  | .borsanAck d _ => decide (d < 6)
  | .borsanNak d _ => decide (d < 6)
  | .timeFrameSend d => decide (d < 6)
  | .timeFrameReceive d _ _ _ _ => decide (d < 6)
  | .remoteCreditReq u f => decide (u < 6) && okFrame f
  | .remoteCreditGrant u f => decide (u < 6) && okFrame f
  | .remoteCreditReturn u f => decide (u < 6) && okFrame f
  | .noticeFrame f => okFrame f
  | .lsnReceive d l => decide (d < 6) && okLsn l
  | .peerLsnTimeout d => decide (d < 6)
  | .routeSwitch => true
  | .routeHoldEnd => true
  | .topologyLoad c => okCmd c
  | .helloSend d => decide (d < 6)
  | .helloReceive d _ => decide (d < 6)
  | .agreeTimeout d => decide (d < 6)
  | .collectiveStart i => decide (i < 64)
  | .chunkReceive u f => decide (u < 6) && okFrame f
  | .chunkAck u f => decide (u < 6) && okFrame f
  | .resendReq u f => decide (u < 6) && okFrame f
  | .collectiveTimeout i => decide (i < 64)
  | .linkEnable m d w => okMaster m && decide (d < 6) && decide (w < 2 ^ 64)
  | .modelKeyImport c _ => okCmd c
  | .modelKeyDelete c => okCmd c
  | .variantRegister c => okCmd c
  | .huskFetch c => okCmd c
  | .variantUnregister c => okCmd c
  | .shardFrame f => okFrame f
  | .huskVerified v i _ x => decide (v < 64) && decide (i < 131072) && decide (x.addr < 2 ^ 40) && okBytes x.bytes
  | .bulkAck f _ => okFrame f
  | .shardTimeout v => decide (v < 65)
  | .notRegisteredResend v i => decide (v < 64) && decide (i < 131072)
  | .itemDecrypted v i n ext sram _ unit =>
    decide (v < 64) && decide (i < 131072) && decide (n < 2 ^ 32) && decide (ext < 2 ^ 40) && decide (sram < 2 ^ 22) && decide (unit < 12)
  | .fwChunk f => okFrame f
  | .spdmGetVersion c => okCmd c
  | .spdmGetCapabilities c rsp => okCmd c && okBytes rsp
  | .spdmNegotiateAlgorithms c rsp => okCmd c && okBytes rsp
  | .spdmGetDigests c rsp => okCmd c && okBytes rsp
  | .spdmGetCertificate c rsp => okCmd c && okBytes rsp
  | .spdmChallenge c rsp => okCmd c && okBytes rsp
  | .spdmGetMeasurements c rsp => okCmd c && okBytes rsp
  | .spdmUnsupported c => okCmd c
  | .sramScrub pc _ _ _ => decide (pc < 2048)
  | .reexecCheckDone ck _ _ _ _ => okMCore ck
  | .evidence pc _ _ => decide (pc < 2048)
  | .railSlewEnd p => decide (p < 4)
  | .fence => true
  | .absentNotice stream => decide (stream < 65536)
  | .domainReset c => okCmd c
  | .drainEnd scope target => okDomain scope target
  | .resetRelease scope target _ => okDomain scope target
  | .genWaitEnd scope target => okDomain scope target
  | .stepWatchdog ck _ _ => okMCore ck
  | .nobufLimit ck _ stream => okCore ck && decide (stream < 65536)
  | .resetEscalation scope target => okDomain scope target
  | .coldStart _ => true
  | .romPhaseEnd _ => true
  | .platformPhaseEnd _ => true
  | .memoryPhaseEnd => true
  | .linksPhaseEnd => true
  | .selfTestDone pc _ _ _ _ _ => decide (pc < 2048)
  | .coresPhaseEnd _ => true
  | .phaseTimeout => true
  | .moduleLeave c => okCmd c
  | .leaveDrainDone => true
  | .leaveLimit => true
  | .wdLoop => true
  | .wdRound => true
  | .wdHost => true
  | .oasisRestartDone _ => true
  | .oasisRestartTimeout => true
  | .heartbeat c => okCmd c
  | .heartbeatRestart c => okCmd c
  | .hbEcho => true
  | .heartbeatEchoTimeout qp _ => decide (qp < 1024)
  | .hostSilent => true
  | .timeSetStep c => okCmd c
  | .timeSetSlew c => okCmd c
  | .syncSourceLost => true
  | .logEvent => true
  | .eventSend qp => decide (qp < 1024)
  | .eventSubscribe c => okCmd c
  | .logRead c => okCmd c
  | .statusQuery c => okCmd c
  | .fwUpdateStage c => okCmd c
  | .fwStageDone _ _ _ _ _ => true
  | .fwUpdateActivate c => okCmd c
  | .fwUpdateCommit c => okCmd c
  | .fwUpdateDiscard c => okCmd c
  | .conversionEnd i _ => decide (i < 2)
  | .overcurrentComparator i _ => decide (i < 2)
  | .urgentGo m i w => okMaster m && decide (i < 2) && decide (w < 2 ^ 64)
  | .slowRound _ _ _ _ _ _ => true
  | .throttleEscalate p => decide (p < 4)
  | .undervoltageEnd p => decide (p < 4)
  | .powerCapSet c => okCmd c
  | .sensorQuery c => okCmd c
  | .ageingMeasure _ => true
  | .replan => true
  | .replanNow m w => okMaster m && decide (w < 2 ^ 64)
  | .powerLoss => true
  | .inputReversed => true
  | .resetNAssert => true
  | .sbSetdasa _ _ => true
  | .sbEntdaa _ => true
  | .sbIdent _ _ => true
  | .sbState _ _ => true
  | .sbThermal _ _ => true
  | .sbPower _ _ => true
  | .sbBoardCap _ _ => true
  | .sbFaults _ _ => true
  | .sbFaultClear _ _ => true
  | .powerApplied => true
  | .inputOvervoltage => true
  | .railOutOfRegulation => true
  | .linkLoss port => decide (port < 2)
  | .linkTrained d _ _ _ _ => decide (d < 6)
  | .resetPhaseEnd scope target => okDomain scope target
  | .accessFault ck _ a _ _ => okSCore ck && decide (a < 2 ^ 64)
  | .manifestReadDone v _ bytes addr _ => decide (v < 64) && okBytes bytes && decide (addr < 2 ^ 40)

end Sys2Proof
end

