-- ==== Sys2Proof/Tests/Slice0.lean ====
section
/-! SUPPORT. Tests: the checks of WellFormed refuse an ill-formed term each; for every clause of a statement with hypotheses, a state and
operands that meet them; and a few results of single commands. -/

namespace Sys2Proof.Machine

set_option linter.all false
set_option Elab.async false

/-- A request, for witnesses. -/
def wreq : Req :=
  { id := 7, ctx := 0x10000, variant := 0, tenant := 1, cls := 1, ring := 2, qp := 3, greedy := true, stops := [], maxNew := 4, deadline := 0,
    temp := 0, topP := 0, topK := 0, promptCount := 1, prompt := [5], promptRead := true, accept := 0, order := 0 }
/-- A context, for witnesses. -/
def wctx : Ctx := { reuse := 1, variant := 0, tenant := 1, slot := 0, positions := 64, seed := 9, det := false }
/-- An M-core step, for witnesses. -/
def wstep : Step := { id := 1, desc := 0, words := [0, 0, 0, 0, 0, 0, 0, 0], pips := [], n := 0, engs := [{ eng := 2, state := 2 }] }
/-- The module with every stack trained and filled, for witnesses. -/
def hbmReady : State := ({ State.reset with md := { fillDue := [] } } : State).each (List.range 12) fun t k => t.wf R.HBM_TRAINED k 1

/-- Engine 5 with its bank A READY, bound to epoch 0 and tracked, a while after its last sweep, for witnesses. -/
def wtrack : State := { (State.reset.setBankState 5 0 bankReady).wf R.ENG_EPOCH0_BANK 5 1 with elapsed := 10000000000 }
/-- A program operation, for witnesses. -/
def wop : ProgOp := { src := 0, crc := 0, bank := 1, fmt := 2, touchUp := false, purpose := 0, started := 0 }

/-- A program operation, for witnesses. -/
def wop2 : ProgOp := { src := 0, crc := 0, bank := 1, fmt := 2, touchUp := false, purpose := 0, started := 0 }
/-- M-core 0 with one descriptor, malformed and sent to core 0, a complete set for it and credits, for witnesses. -/
def wfire : State :=
  { ((State.reset.wf R.MCORE_SEQ_RUN 0 1).wf R.MCORE1_DESC_COUNT 0 1).setBuf 0 0 { used := 3, pips := [{ pip := { dest := 0, stream := 0, seq := 0, gen := 0 }, at_ := 4 }] } with
    chans := [{ core := 0, dest := 0, stream := 0, credits := 100 }] }
/-- A step whose tile on engine 2 is held, for witnesses. -/
def wheldstep : Step :=
  { id := 1, desc := 0, words := [0, 0, 0, 0, 0, 0, 0, 0], pips := [], n := 0, engs := [{ eng := 2, state := 1, since := 5 }] }

theorem mem_read_nil (k n : Nat) : Mem.read [] k n = 0 := by
  induction n generalizing k with
  | zero => rfl
  | succ n ih => rw [Mem.read, ih]; rfl
theorem hbmRead_nil (s : State) (a n : Nat) (h : s.hbm = []) : (s.hbmRead a n).1 = 0 ∧ (s.hbmRead a n).2.2.hbm = [] := by
  refine ⟨?_, ?_⟩
  · unfold State.hbmRead
    split
    · rfl
    · split
      · rfl
      · dsimp only; rw [h]; exact mem_read_nil _ _
  · have : s.Within _ (s.hbmRead a n).2.2 := State.hbmRead_frame (Sub.refl _) (State.frame_refl _ _)
    rw [this.hbm (by decide), h]
theorem codewords_nil (a : Nat) (l : List Nat) (bs : List Nat) (b : Bool) (s : State) (h : s.hbm = []) :
    (l.foldl (fun (r : List Nat × Bool × State) i =>
      let (v, h, t) := r.2.2.hbmRead (a + 64 * i) 64
      (r.1 ++ (List.range 64).map (fun k => v / 256 ^ k % 256), r.2.1 || h, t)) (bs, b, s)).1 = bs ++ List.replicate (64 * l.length) 0 := by
  induction l generalizing bs b s with
  | nil => simp
  | cons i l ih =>
    obtain ⟨h1, h2⟩ := hbmRead_nil s (a + 64 * i) 64 h
    rw [List.foldl_cons]
    dsimp only
    rw [ih _ _ _ h2, h1, List.append_assoc]
    congr 1
theorem crcBit_lt (x : Nat) (h : x < 2 ^ 32) : crcBit x < 2 ^ 32 := by
  unfold crcBit
  split
  · exact Nat.xor_lt_two_pow (by omega) (by decide)
  · omega
theorem foldl_lt {α : Type} (f : Nat → α → Nat) (hf : ∀ x a, x < 2 ^ 32 → f x a < 2 ^ 32) (l : List α) (x : Nat) (h : x < 2 ^ 32) : l.foldl f x < 2 ^ 32 := by
  induction l generalizing x with
  | nil => exact h
  | cons a l ih => exact ih _ (hf _ _ h)
theorem crc32c_lt (l : List Nat) : crc32c l < 2 ^ 32 :=
  Nat.xor_lt_two_pow (foldl_lt _ (fun x a _ => foldl_lt _ (fun y _ h => crcBit_lt y h) _ _ (Nat.mod_lt _ (by decide))) _ _ (by decide)) (by decide)
def wimage : List Nat := List.replicate 16384 0
theorem wcrc (v : Nat) (h : v < 2 ^ 32) : v = (State.reset.wf R.WPROG_PROG_CRC 5 v).rf R.WPROG_PROG_CRC 5 := by
  rw [State.rf_wf_same]; exact (Nat.mod_eq_of_lt h).symm
def wsrc : State := State.reset.wf R.WPROG_PROG_CRC 5 (crc32c wimage)
def wload : ProgOp := { src := 0, crc := crc32c wimage, bank := 0, fmt := 2, touchUp := false, purpose := 0, started := 0 }
theorem wsrc_hbm : wsrc.hbm = [] := by unfold wsrc; rw [State.wf_hbm]; rfl
theorem load_of (s : State) (op : ProgOp) (bs : List Nat) (h0 : op.src % 4096 = 0) (h1 : s.populated op.src (imageBytes op.fmt) = true)
    (h2 : (s.hbmCodewords op.src (imageBytes op.fmt / 64)).1 = bs) (h3 : (s.hbmCodewords op.src (imageBytes op.fmt / 64)).2.1 = false)
    (h4 : crc32c bs = op.crc) : (s.loadImage op).1 = some bs := by
  unfold State.loadImage
  dsimp only
  rw [h1]
  simp only [h0, ne_eq, not_true, decide_false, Bool.not_true, Bool.or_self, Bool.false_eq_true, if_false]
  rw [h2, h3, h4]
  simp
theorem wload_bytes : (wsrc.hbmCodewords 0 256).1 = wimage := by
  unfold State.hbmCodewords
  rw [codewords_nil 0 (List.range 256) [] false wsrc wsrc_hbm, List.length_range]
  rfl
theorem wload_image : (wsrc.loadImage wload).1 = some wimage :=
  load_of _ _ _ rfl (by decide +kernel) wload_bytes (by decide +kernel) rfl
theorem witness_progStart : ∃ (m : Master) (e w : Nat) (o : ProgOp) (bs : List Nat) (s : State), (s.Writes m (wprogPage e) 0x110 (w ||| 0x40)) ∧ (w.testBit 7 = false) ∧
  ((s.progSt e).queued = none) ∧ ((s.progSt e).running = none) ∧ ((bitsOf w 4 2 = 0 ∨ m = .oasis)) ∧ (s.bankBound e (bitsOf w 0 1) = false) ∧
  (o.src = s.rf R.WPROG_PROG_SRC e) ∧ (o.crc = s.rf R.WPROG_PROG_CRC e) ∧ (o.bank = bitsOf w 0 1) ∧ (o.fmt = bitsOf w 1 2) ∧
  (o.touchUp = w.testBit 3) ∧ (o.purpose = bitsOf w 4 2) ∧ ((s.loadImage o).1 = some bs) ∧
  (badDigit (bitsOf w 1 2) bs = false) ∧ (s.govWait e (bitsOf w 0 1) (bitsOf w 4 2) = some 0) :=
  ⟨.oasis, 5, 4, wload, wimage, wsrc, by decide +kernel, by decide, by decide +kernel, by decide +kernel, by decide, by decide +kernel, by decide +kernel,
   wcrc _ (crc32c_lt wimage), by decide, by decide, by decide, by decide, wload_image, by unfold badDigit; rfl, by decide +kernel⟩

def wkern : State := ((State.reset.sramWrite 46 0 8 (2 ^ 28 + 15 * 2 ^ 24)).sramWrite 46 16 8 (100 * 2 ^ 18)).wf R.VCORE_KTAB_COUNT 46 1
def wconv : Conv := { group := 0, plane := 0, quarter := 0, ones := [1], scale := 0, bits := 8, sign := false }
def wtile : Tile :=
  { step := 0, epoch := 0, bank := 0, all := [], todo := [wconv, wconv], comp := none, escalate := false, wfmt := 0, quarters := 1, xref := 0 }
def wcheck (path : Nat) (tv : Option (List Int)) : Step :=
  { id := 1, desc := 0, words := [0, 0, 0, 0, 0, 0, 0, 0], pips := [], n := 0, engs := [{ eng := 2, state := 3, vals := [5] },
    { eng := 3, state := 0 }], checks := [{ eng := 2, path := path, twinVals := tv }] }
def wemit : Emission := { idx := 0, epoch := 0, vals := [], hollow := false }
def wstep2 : Step :=
  { id := 1, desc := 0, words := [0, 0, 0, 0, 0, 0, 0, 0], pips := [], n := 0, engs := [{ eng := 2, state := 2 }, { eng := 3, state := 0 }] }

def wman : Manifest := { modelId := 1, modelRev := 1, keyId := 7, bytes := 0, chains := [], shards := [], digest := 0 }
def wheld : State :=
  { State.reset with sec := { staging := [(5, { shards := [0] })], shards := [(5 * 131072, { held := true, addr := 4096 })] } }

def wscore : State := State.reset.wf R.SCORE_RUNNING 57 1

def wkern2 : State := ((((((State.reset.sramWrite 46 0 8 (2 ^ 28 + 15 * 2 ^ 24 + 2 ^ 16)).sramWrite 46 8 8 0xFFFF0000).sramWrite 46 16 8 (100 * 2 ^ 18)).wf
  R.VCORE_KTAB_COUNT 46 1).wf R.VCORE_RUN 46 1).wf R.VCORE_PT_ENTRIES 46 4).wf R.VCORE_KV_POOL_PAGES 46 9

def wkstep : KStep := { entry := 0, words := [0, 0xFFFF0000, 0, 0], pips := [], n := 0, firedAt := 0 }
def wrst (d : Dom) (ph : Nat) (ab : Bool) : ResetRec := { dom := d, phase := ph, absorb := ab, cause := 2, startStamp := 0, startAt := 0 }

def wfw (b : List Nat) : Cmd := { qp := 3, bodyWords := 9, cmdId := 1, payload := 104, body := b }
def wqp : State := State.reset.wf R.QP_STATE 3 2

/-- A state that serves: a variant 0 that is ACTIVE with its head here, tenant 1, ring 2, an idle context 0 and queue pair 3, for witnesses. -/
def wserve : State :=
  { (((((((((State.reset.wf R.QP_STATE 3 2).wf R.SERVE_SERVE_EN 0 1).wf R.SERVE2_STATE 0 3).wf R.SERVE2_HEAD 0 1).wf R.SERVE2_MAX_POSITIONS 0 4096).wf
      R.TENANT_ENABLED 1 1).wf R.RING_BOUND 2 1).wf R.RING_TENANT 2 1).wf R.RING_SIZE_LOG2 2 6).wf R.RING_NEXT_SEQ 2 1 with
    vars := [(0, { place := { vocab := 100 } })], ctxs := [(0, wctx)] }
/-- The same with one request open in context 0, for witnesses. -/
def wopen (r : Req) : State :=
  { (wserve.wf R.RING_OPEN 2 1).wf R.RING_REQUEST_ID 2 7 with
    reqs := [{ r with ctx := 0x10000 }]
    ctxs := [(0, { wctx with req := some 7 })] }
/-- A command of queue pair 3 with these body words, for witnesses. -/
def wcmd (l : List Nat) : Cmd := { qp := 3, bodyWords := l.length, cmdId := 1, payload := 32 + 8 * l.length, body := l }

/-- Direction 2 up with all nine lanes good and the ninth as the spare, for witnesses. -/
def wlink : State :=
  ((((State.reset.wf R.BORSAN_LINK 2 2).wf R.BORSAN1_LANE_GOOD 2 511).wf R.BORSAN1_LANE_ACTIVE 2 255).wf R.BORSAN1_SPARE_LANE 2 8).wf R.BORSAN1_LANE_ENABLE 2 511
/-- A HELLO, for witnesses. -/
def whello : Hello := ⟨77, 5, 0, 0, 0, 3, 3, 3, 3, 5, true, false, 1, 255, 0, 0⟩

/-- Collective 4 valid, an ALL_REDUCE of one block of MXFP8 in one dimension, in a torus of 3 modules, for witnesses. -/
def wcoll : State :=
  ((((((State.reset.wf R.TORUS2_C_VALID 0 1 4).wf R.TORUS2_C_DIMS 0 1 4).wf R.TORUS2_C_ELEMENTS 0 96 4).wf R.TORUS2_C_CHUNK_BLOCKS 0 1 4).wf
    R.TORUS2_C_OPFMT 0 1 4).wf R.TORUS1_SIZE_POSITION 0 2)
/-- The held contribution of collective 4, its pip taken hollow, for witnesses. -/
def wpart : List Nat × Bool := ([0, 9] ++ List.replicate (3 * blockBytes 0 + 8) 0, true)

/-- A manifest with one shard of this module's own, for witnesses. -/
def wmanifest : Manifest :=
  { modelId := 9, modelRev := 1, keyId := 55, bytes := 1000, chains := [[1, 0]], shards := [{ target := 0, chain := 0, bytes := 272, digest := 0 }], digest := 0 }
/-- A state with that manifest registered, key slot 2 loaded, queue pair 3 connected and an identity, for witnesses. -/
def whusk : State :=
  { ((((State.reset.wf R.QP_STATE 3 2).wf R.KEYS_IDENTITY_READY 0 1).wf R.KEYS1_LOADED 0 1 2).wf R.KEYS1_KEY_ID 0 55 2).wf R.TORUS1_SIZE_POSITION 0 3 with
    sec := { State.reset.sec with mans := [(4, wmanifest)] } }
/-- A command of queue pair 3 with these body words. -/
def wcmd2 (l : List Nat) : Cmd := { qp := 3, bodyWords := l.length, cmdId := 1, payload := 32 + 8 * l.length, body := l }
/-- Its open command. -/
def wopenCmd : OpenCmd := { qp := 3, cmdId := 1, opcode := 0x30, arrival := 0, due := 1000000000, arg := 1000 }
/-- The state with an SPDM connection of queue pair 3 at a stage, for witnesses. -/
def wspdm (n : Nat) : State := { whusk with sec := { whusk.sec with spdm := [(3, { stage := n, transcript := [] })] } }
/-- The bytes of a manifest of model 10 with that shard, for witnesses. -/
def wmanBytes : List Nat :=
  leBytes 4 0x4E4D5553 ++ leBytes 2 1 ++ leBytes 2 1 ++ leBytes 8 10 ++ leBytes 4 1 ++ leBytes 4 1 ++ leBytes 8 55 ++ leBytes 8 0 ++
    leBytes 8 296 ++ List.replicate 80 0 ++ (leBytes 2 2 ++ leBytes 2 1 ++ leBytes 4 0) ++
    (leBytes 4 0 ++ leBytes 4 0 ++ leBytes 8 272 ++ List.replicate 48 0) ++ List.replicate 96 0
/-- The manifest that those bytes hold. -/
def wmanRead : Manifest := { wmanifest with modelId := 10, bytes := 296, digest := Config.sha384 wmanBytes }
/-- The state with variant 5 being registered. -/
def wopening : State :=
  { whusk with cmds := [{ wopenCmd with arg := 296 }], sec := { whusk.sec with opening := [(5, (3, 1))] } }
theorem witness_manifestReadDone : ∃ (v qp id k a : Nat) (bytes : List Nat) (m : Manifest) (o : OpenCmd) (s : State),
    Tbl.get? s.sec.opening v = some (qp, id) ∧ s.openCmd qp id = some o ∧ s.keySlot (leField bytes 24 8) = some k ∧
    readManifest bytes = some m ∧ bytes.length = o.arg ∧ s.manifestOk v o.arg m = true ∧ (m.chains.any fun ch => ch.contains s.here) = true ∧
    s.huskRange a bytes.length = true := by
  refine ⟨5, 3, 1, 2, 4096, wmanBytes, wmanRead, { wopenCmd with arg := 296 }, wopening, by decide +kernel, by decide +kernel, by decide +kernel, ?_,
    by decide +kernel, by decide +kernel, by decide +kernel, by decide +kernel⟩
  have h : readFields wmanBytes = some { wmanifest with modelId := 10, bytes := 296 } := by decide +kernel
  unfold readManifest
  rw [h]
  rfl
/-- A shard with the digest of 272 zero bytes, for witnesses. -/
def wshard : Shard := { target := 0, chain := 0, bytes := 272, digest := Config.sha384 (List.replicate 272 0) }
/-- A registered manifest whose shard has the digest of 272 zero bytes, being fetched, for witnesses. -/
def wfetched : State :=
  { whusk with
    cmds := [wopenCmd]
    sec := { whusk.sec with
      fetches := [(3, 1, 4, 0)]
      mans := [(4, { wmanifest with shards := [wshard] })] } }
theorem witness_huskVerified : ∃ (v i a : Nat) (husk : List Nat) (e : Nat × Nat × Nat × Nat) (o : OpenCmd) (m : Manifest) (sh : Shard) (s : State),
    (s.sec.fetches.find? fun (e : Nat × Nat × Nat × Nat) => e.2.2.1 = v && e.2.2.2 = i) = some e ∧ s.openCmd e.1 e.2.1 = some o ∧ s.man v = some m ∧
    m.shards[i]? = some sh ∧ (s.shard v i).have_ = false ∧ husk.length = sh.bytes ∧ Config.sha384 husk = sh.digest ∧
    s.huskRange a husk.length = true :=
  ⟨4, 0, 4096, List.replicate 272 0, (3, 1, 4, 0), wopenCmd, { wmanifest with shards := [wshard] }, wshard, wfetched, by decide +kernel,
    by decide +kernel, rfl, rfl, by decide +kernel, by decide +kernel, by unfold wshard; rfl, by decide +kernel⟩
theorem witness_spdmGetCertificate : ∃ (c : Cmd) (rsp : List Nat) (off n : Nat) (s : State), s.Takes c ∧ attestLenOk c = true ∧ spdmCode c = 0x82 ∧
    s.rb R.KEYS_IDENTITY_READY 0 = true ∧ c.f 1 0 8 = 0x12 ∧ (Tbl.getD s.sec.spdm c.qp {}).stage = 3 ∧ 8 ≤ c.f 0 0 16 ∧ c.f 1 16 8 < 2 ∧
    off = c.f 1 32 16 ∧ off < (s.chain (c.f 1 16 8)).length ∧ n = min (min (c.f 1 48 16) 900) ((s.chain (c.f 1 16 8)).length - off) := by
  refine ⟨wcmd2 [8, 0x10000000008212], [], 0, _, wspdm 3, by decide +kernel, by decide +kernel, by decide +kernel, by decide +kernel,
    by decide +kernel, by decide +kernel, by decide +kernel, by decide +kernel, by decide +kernel, ?_, rfl⟩
  unfold State.chain certChain
  simp only [List.length_append, List.length_cons]
  omega
theorem witness_spdmGetMeasurements : ∃ (c : Cmd) (s : State), s.Takes c ∧ attestLenOk c = true ∧ spdmCode c = 0xE0 ∧
    s.rb R.KEYS_IDENTITY_READY 0 = true ∧ c.f 1 0 8 = 0x12 ∧ (Tbl.getD s.sec.spdm c.qp {}).stage = 3 ∧ 1 ≤ c.f 1 24 8 ∧ c.f 1 24 8 ≤ 8 :=
  ⟨wcmd2 [4, 0x700E012], wspdm 3, by decide +kernel⟩

/-- A command of queue pair 3 with one body word. -/
def wcmd1 (w : Nat) : Cmd := { qp := 3, bodyWords := 1, cmdId := 1, payload := 40, body := [w] }

/-- The hypotheses of the clause PILOT_SWEEP_DUE meet. -/
theorem witness_pilotSweepDue : ∃ (e b : Nat) (s : State), (s.sweepable e (b % 2) = true) ∧ ((s.pilot e (b % 2)).doneAt + s.pilotInterval e ≤ s.elapsed) :=
  ⟨5, 0, wtrack, by decide +kernel⟩
/-- The hypotheses of the clause PILOT_SUB_STEP meet. -/
theorem witness_pilotSubStep : ∃ (e b : Nat) (noise : List Int) (s : State), ((s.pilot e (b % 2)).wanted = true) ∧ (s.sweepable e (b % 2) = true) ∧ (s.idleSlot e = true) :=
  ⟨5, 0, [1, 2], wtrack.setPilot 5 0 { wanted := true }, by decide +kernel⟩
/-- The hypotheses of the clause FORCED_SWEEP meet. -/
theorem witness_forcedSweep : ∃ (e b : Nat) (noise : List (List Int)) (s : State), (s.sweepable e (b % 2) = true) ∧ (s.passBoundary e = true) ∧ ((s.pilot e (b % 2)).clock + 4 * s.pilotInterval e ≤ s.elapsed) :=
  ⟨5, 0, [], wtrack, by decide +kernel⟩
/-- The hypotheses of the clause PILOT_STALE meet. -/
theorem witness_pilotStale : ∃ (e b : Nat) (s : State), (b < 2) ∧ (s.tracked e b = true) ∧ ((if (s.pilot e b).everSwept then (s.pilot e b).doneAt else (s.pilot e b).clock) + 4 * s.pilotInterval e ≤ s.elapsed) :=
  ⟨5, 0, wtrack, by decide +kernel⟩
/-- The hypotheses of the clause DEFER_EXPIRY meet. -/
theorem witness_deferExpiry : ∃ (e : Nat) (o : ProgOp) (s : State), ((s.progSt e).queued = some o) ∧ (o.deferUntil ≠ 0) ∧ (o.deferUntil ≤ s.now) :=
  ⟨5, { wop with deferUntil := 1 }, wtrack.setProg 5 { queued := some { wop with deferUntil := 1 } }, by decide +kernel⟩
/-- The hypotheses of the clause ROW_PULSE_END meet. -/
theorem witness_rowPulseEnd : ∃ (e r : Nat) (rest : List Nat) (o : ProgOp) (s : State), ((s.progSt e).running = some o) ∧ (o.rows = r :: rest) ∧ (o.waiting = false) ∧ (o.pass ≠ 0) :=
  ⟨5, 0, [1], { wop with rows := [0, 1] }, wtrack.setProg 5 { running := some { wop with rows := [0, 1] } }, by decide +kernel⟩
/-- The hypotheses of the clause VERIFY_DEADLINE meet. -/
theorem witness_verifyDeadline : ∃ (e r n due : Nat) (ok : Bool) (rest : List (Nat × Nat × Bool × Bool × Nat)) (o : ProgOp) (s : State), ((s.progSt e).running = some o) ∧ (o.verify = (r, n, ok, false, due) :: rest) ∧ (due ≠ 0) ∧ (due ≤ s.elapsed) :=
  ⟨5, 3, 0, 9, true, [], { wop with verify := [(3, 0, true, false, 9)] }, wtrack.setProg 5 { running := some { wop with verify := [(3, 0, true, false, 9)] } }, by decide +kernel⟩
def result_progDequeue (e : Nat) (o : ProgOp) (s : State) : Bool := match exec .progDequeue s with
  | .next t => decide ((t.progSt e).queued = none ∧ (t.progSt e).running = some { o with pass := 1, rows := List.range 512, verify := [] } ∧ t.rf R.WPROG_RESULT e = 0)
  | _ => false
theorem test_progDequeue : result_progDequeue (5) (wop) (State.reset.setProg 5 { queued := some wop }) = true := by decide +kernel
/-- The hypotheses of the clause PROG_DEQUEUE meet. -/
theorem witness_progDequeue : ∃ (e : Nat) (o : ProgOp) (s : State), (s.nextProg = some e) ∧ ((s.progSt e).queued = some o) ∧ (s.bankBound e o.bank = false) ∧ (o.touchUp = false) :=
  ⟨5, wop, State.reset.setProg 5 { queued := some wop }, by decide +kernel⟩
/-- The hypotheses of the clause VERIFY_SUB_STEP meet. -/
theorem witness_verifySubStep : ∃ (e r n due : Nat) (ok forced : Bool) (devs noise : List Int) (rest : List (Nat × Nat × Bool × Bool × Nat)) (o : ProgOp) (s : State), ((s.progSt e).running = some o) ∧ (o.verify = (r, n, ok, forced, due) :: rest) ∧ (s.verifySlot e forced = true) ∧ (((forced = false ∧ n < 4) ∨ (rest ≠ [] ∧ o.pass ≠ 0 ∧ o.waiting = false))) :=
  ⟨5, 3, 0, 9, true, false, [1], [], [], { wop2 with verify := [(3, 0, true, false, 9)] }, State.reset.setProg 5 { running := some { wop2 with verify := [(3, 0, true, false, 9)] } }, by decide +kernel⟩
/-- The hypotheses of the clause LOCAL_FLIP meet. -/
theorem witness_localFlip : ∃ (e b n : Nat) (s : State), (b < 2) ∧ (n < 4) ∧ ((s.progSt e).owed = none) ∧ ((s.progSt e).owed2 = none) ∧ ((s.progSt e).retrims = []) ∧ ((∀ x ∈ (s.mcSt (engCore e)).steps, ∀ g ∈ x.engs, g.state ≠ 1)) ∧ (s.bankBound e b = true) ∧ (s.rb (driftHardF b) e = true) ∧ (s.ready e (1 - b) = true) ∧ (s.bankBound e (1 - b) = false) ∧ (s.rf (jcrcF b) e = s.rf (jcrcF (1 - b)) e) ∧ (s.rf (jsrcF b) e = s.rf (jsrcF (1 - b)) e) ∧ (s.rb (retrimF (1 - b)) e = false) ∧ (s.rb (driftHardF (1 - b)) e = false) :=
  ⟨5, 0, 0, (((State.reset.setBankState 5 0 bankReady).setBankState 5 1 bankReady).wf R.ENG_EPOCH0_BANK 5 1).wf (driftHardF 0) 5 1, by decide +kernel⟩
/-- The hypotheses of the clause HOLD_TIMEOUT meet. -/
theorem witness_holdTimeout : ∃ (ck : Nat) (x : Step) (g : StepEng) (s : State), (x ∈ (s.mcSt ck).steps) ∧ (g ∈ x.engs) ∧ (g.state = 1) ∧ (g.late = false) ∧ (g.since + 200000 ≤ s.elapsed) :=
  ⟨0, wheldstep, { eng := 2, state := 1, since := 5 }, { State.reset.setMc 0 { steps := [wheldstep] } with elapsed := 200005 }, by decide +kernel⟩
/-- The hypotheses of the clause HOLD_TIMEOUT meet. -/
theorem witness_holdTimeout2 : ∃ (ck : Nat) (x : Step) (g : StepEng) (s : State), (x ∈ (s.mcSt ck).steps) ∧ (g ∈ x.engs) ∧ (g.state = 1) ∧ (g.late = false) ∧ (g.since + 200000 ≤ s.elapsed) :=
  ⟨0, wheldstep, { eng := 2, state := 1, since := 5 }, { (State.reset.setMc 0 { steps := [wheldstep] }).wf R.MCORE1_SLOW_VCORE 0 46 with elapsed := 200005 }, by decide +kernel⟩
/-- The hypotheses of the clause SLOW_VCORE_NAMED meet. -/
theorem witness_slowVcoreNamed : ∃ (ck v : Nat) (x : Step) (g : StepEng) (s : State), (x ∈ (s.mcSt ck).steps) ∧ (g ∈ x.engs) ∧ (g.state = 1) ∧ (g.late = true) ∧ (s.rf R.MCORE1_SLOW_VCORE ck = 0xFFFF) ∧ (s.slowVcore ck = some v) :=
  ⟨0, 46, { wheldstep with engs := [{ eng := 2, state := 1, late := true }] }, { eng := 2, state := 1, late := true }, State.reset.setMc 0 { steps := [{ wheldstep with engs := [{ eng := 2, state := 1, late := true }] }] }, by decide +kernel⟩
/-- The hypotheses of the clause STEP_FIRE meet. -/
theorem witness_stepFire : ∃ (ck a d n : Nat) (s : State), (firstReady ((s.ableSets ck).filter (s.paidSet ck)) = some (a, d, n)) ∧ (dDest (s.descWords ck d) 0 ≠ 0xFFFF) ∧ (s.stepOf ck (s.mcSt ck).nextId = none) :=
  ⟨0, 4, 0, 0, wfire, by decide +kernel⟩
def result_frameReceive (p : Nat) (f : EthFrame) (s : State) : Bool := match exec (.frameReceive p f) s with
  | .next t => decide (t.rf R.HOST_FRAMES_RX p = (s.rf R.HOST_FRAMES_RX p + 1) % 2 ^ 64 ∧ t.rf R.HOST_RX_DROPS p = if s.frameOk p f then s.rf R.HOST_RX_DROPS p else min (2 ^ 32 - 1) (s.rf R.HOST_RX_DROPS p + 1))
  | _ => false
theorem test_frameReceive : result_frameReceive (0) ({ bytes := 64 }) (State.reset.wf R.HOST_LINK_UP 0 1) = true := by decide +kernel
/-- The hypotheses of the clause FRAME_RECEIVE meet. -/
theorem witness_frameReceive : ∃ (p : Nat) (f : EthFrame) (s : State), (p < 2) ∧ (s.rb R.HOST_LINK_UP p = true) :=
  ⟨0, { bytes := 64 }, State.reset.wf R.HOST_LINK_UP 0 1, by decide +kernel⟩
/-- The hypotheses of the clause LINK_UP meet. -/
theorem witness_linkUp : ∃ (p : Nat) (s : State), (p < 2) ∧ (s.rb R.HOST_PORT_EN p = true) ∧ (s.rb R.HOST_LINK_UP p = false) :=
  ⟨0, State.reset, by decide +kernel⟩
/-- The hypotheses of the clause LINK_LOSS meet. -/
theorem witness_linkLoss : ∃ (p : Nat) (s : State), (p < 2) ∧ (s.rb R.HOST_LINK_UP p = true) :=
  ⟨0, State.reset.wf R.HOST_LINK_UP 0 1, by decide +kernel⟩
/-- The hypotheses of the clause LINK_DOWN_TIMEOUT meet. -/
theorem witness_linkDownTimeout : ∃ (p q t0 : Nat) (s : State), (p < 2) ∧ (s.rb R.HOST_LINK_UP p = false) ∧ ((s.port p).downSince = some t0) ∧ (t0 + 10000000 < s.elapsed) ∧ (s.portQps p = [q]) ∧ (s.rf R.QP_STATE q ≠ 0) :=
  ⟨0, 3, 0, { (State.reset.wf R.QP_STATE 3 2).setQp 3 { maxReads := 1 } with elapsed := 20000000, ports := [(0, { downSince := some 0 })] }, by decide +kernel⟩
/-- The hypotheses of the clause PFC_XOFF meet. -/
theorem witness_pfcXoff : ∃ (p occ : Nat) (s : State), (p < 2) ∧ (s.rb R.HOST_LINK_UP p = true) ∧ (s.rb R.HOST_PFC_TX_EN p = true) ∧ ((s.port p).occKib ≤ s.rf R.HOST_XOFF_KIB p) ∧ (s.rf R.HOST_XOFF_KIB p < occ) :=
  ⟨0, 2000, State.reset.wf R.HOST_LINK_UP 0 1, by decide +kernel⟩
/-- The hypotheses of the clause PFC_REPEAT meet. -/
theorem witness_pfcRepeat : ∃ (p occ : Nat) (s : State), (p < 2) ∧ ((s.port p).paused = true) ∧ (s.rf R.HOST_XON_KIB p < occ) ∧ ((s.port p).pauseDue ≤ s.elapsed) ∧ (s.rb R.HOST_PFC_TX_EN p = true) :=
  ⟨0, 2000, { State.reset with ports := [(0, { paused := true })] }, by decide +kernel⟩
def result_pfcXon (p occ : Nat) (s : State) : Bool := match exec (.pfcXon p occ) s with
  | .next t => decide (t.port p = { s.port p with occKib := occ, paused := false } ∧ t.out = .eth p (.pfc (s.rf R.HOST1_ROCE_PCP p) 0) [] :: s.out)
  | _ => false
theorem test_pfcXon : result_pfcXon (0) (10) ({ State.reset with ports := [(0, { paused := true })] }) = true := by decide +kernel
/-- The hypotheses of the clause PFC_XON meet. -/
theorem witness_pfcXon : ∃ (p occ : Nat) (s : State), (p < 2) ∧ ((s.port p).paused = true) ∧ (occ < s.rf R.HOST_XON_KIB p) ∧ (s.rb R.HOST_PFC_TX_EN p = true) :=
  ⟨0, 10, { State.reset with ports := [(0, { paused := true })] }, by decide +kernel⟩
/-- The hypotheses of the clause PFC_RECEIVE meet. -/
theorem witness_pfcReceive : ∃ (p : Nat) (quanta : List Nat) (s : State), (p < 2) ∧ (s.rb R.HOST_LINK_UP p = true) ∧ ((s.port p).txPaused = []) ∧ (s.rf R.HOST_PFC_RX_MASK p = 255) ∧ (quanta.getD 3 0 = 100) :=
  ⟨0, [0, 0, 0, 100], State.reset.wf R.HOST_LINK_UP 0 1, by decide +kernel⟩
/-- The hypotheses of the clause CNP_RECEIVE meet. -/
theorem witness_cnpReceive : ∃ (q : Nat) (s : State), (s.connected q = true) :=
  ⟨3, State.reset.wf R.QP_STATE 3 2, by decide +kernel⟩
/-- The hypotheses of the clause RATE_INCREASE meet. -/
theorem witness_rateIncrease : ∃ (q : Nat) (s : State), (s.connected q = true) ∧ ((s.qp q).incAt + 1000 * s.rf R.HOST1_RATE_INC_US (s.rf R.QP_PORT q) ≤ s.elapsed) ∧ (s.rf R.QP_RATE_MBPS q < s.lineRate q) ∧ ((s.qp q).incStage < 5) :=
  ⟨3, { State.reset.wf R.QP_STATE 3 2 with elapsed := 1000000 }, by decide +kernel⟩
/-- The hypotheses of the clause ARP_REQUEST meet. -/
theorem witness_arpRequest : ∃ (p ip : Nat) (s : State), (p < 2) ∧ (s.rb R.HOST_LINK_UP p = true) ∧ (s.rb R.HOST1_IPV4_EN p = true) ∧ (ip = s.rf R.HOST1_IPV4_ADDR p) :=
  ⟨0, 0, (State.reset.wf R.HOST_LINK_UP 0 1).wf R.HOST1_IPV4_EN 0 1, by decide +kernel⟩
/-- The hypotheses of the clause NEIGHBOUR_SOLICITATION meet. -/
theorem witness_neighbourSolicitation : ∃ (p hi lo : Nat) (s : State), (p < 2) ∧ (s.rb R.HOST_LINK_UP p = true) ∧ ((hi, lo) = s.linkLocal p) :=
  ⟨0, 0xFE80000000000000, eui64 (Config.mac 0), State.reset.wf R.HOST_LINK_UP 0 1, by decide +kernel⟩
/-- The hypotheses of the clause LLDP_SEND meet. -/
theorem witness_lldpSend : ∃ (p : Nat) (s : State), (p < 2) ∧ (s.rb R.HOST_LINK_UP p = true) ∧ ((s.port p).lldpDue ≤ s.elapsed) :=
  ⟨0, State.reset.wf R.HOST_LINK_UP 0 1, by decide +kernel⟩
/-- The hypotheses of the clause LLDP_RECEIVE meet. -/
theorem witness_lldpReceive : ∃ (p chassis portId : Nat) (s : State), (p < 2) ∧ (s.rb R.HOST_LINK_UP p = true) :=
  ⟨0, 1, 1, State.reset.wf R.HOST_LINK_UP 0 1, by decide +kernel⟩
/-- The hypotheses of the clause INBOUND_RDMA meet. -/
theorem witness_inboundRdma : ∃ (q : Nat) (s : State), (s.connected q = true) :=
  ⟨3, State.reset.wf R.QP_STATE 3 2, by decide +kernel⟩
/-- The hypotheses of the clause REMOTE_NAK meet. -/
theorem witness_remoteNak : ∃ (q : Nat) (s : State), (s.connected q = true) :=
  ⟨3, State.reset.wf R.QP_STATE 3 2, by decide +kernel⟩
/-- The hypotheses of the clause CM_REQ meet. -/
theorem witness_cmReq : ∃ (p q : Nat) (r : CmReq) (s : State), (p < 2) ∧ (s.rb R.HOST_LINK_UP p = true) ∧ (s.accepts = true) ∧ (cmReqOk r = true) ∧ (((List.range 1024).find? fun n => s.rf R.QP_STATE n = 0) = some q) :=
  ⟨0, 0, { qpn := 5, psn := 7, pmtu := 3, resources := 1, ipHi := 0, ipLo := 0, mac := 0, retryCnt := 7, rnrRetry := 7, ackTimeout := 14, priv := [1, 0, 0, 0, 0, 0, 0, 0] }, (State.reset.wf R.HOST_LINK_UP 0 1).wf R.MOD1_STATE 0 8, by decide +kernel⟩
/-- The hypotheses of the clause CM_RTU meet. -/
theorem witness_cmRtu : ∃ (q : Nat) (s : State), (s.rf R.QP_STATE q = 1) :=
  ⟨3, State.reset.wf R.QP_STATE 3 1, by decide +kernel⟩
/-- The hypotheses of the clause CM_REJ meet. -/
theorem witness_cmRej : ∃ (q : Nat) (s : State), (s.rf R.QP_STATE q = 1) :=
  ⟨3, State.reset.wf R.QP_STATE 3 1, by decide +kernel⟩
/-- The hypotheses of the clause CM_DREQ meet. -/
theorem witness_cmDreq : ∃ (q : Nat) (s : State), (s.rf R.QP_STATE q ≠ 0) :=
  ⟨3, State.reset.wf R.QP_STATE 3 2, by decide +kernel⟩
/-- The hypotheses of the clause CM_DREP meet. -/
theorem witness_cmDrep : ∃ (q : Nat) (s : State), (s.rf R.QP_STATE q = 4) :=
  ⟨3, State.reset.wf R.QP_STATE 3 4, by decide +kernel⟩
/-- The hypotheses of the clause QP_ERROR meet. -/
theorem witness_qpError : ∃ (q cause : Nat) (s : State), (s.rf R.QP_STATE q ≠ 0) ∧ (s.rf R.QP_STATE q ≠ 3) :=
  ⟨3, 0x10, State.reset.wf R.QP_STATE 3 2, by decide +kernel⟩
def result_rcAck (q psn : Nat) (s : State) : Bool := match exec (.rcAck q 0 psn) s with
  | .next t => decide (t = s.setQp q { s.qp q with unacked := unackedFrom (s.qp q).unacked (psn + 1), retries := 0, rnrRetries := 0 })
  | _ => false
theorem test_rcAck : result_rcAck (3) (0) (State.reset.wf R.QP_STATE 3 2) = true := by decide +kernel
/-- The hypotheses of the clause RC_ACK meet. -/
theorem witness_rcAck : ∃ (q psn : Nat) (s : State), (s.connected q = true) :=
  ⟨3, 0, State.reset.wf R.QP_STATE 3 2, by decide +kernel⟩
/-- The hypotheses of the clause RC_RETRY_TIMEOUT meet. -/
theorem witness_rcRetryTimeout : ∃ (q psn n : Nat) (rest : List (Nat × Nat)) (s : State), (s.connected q = true) ∧ ((s.qp q).unacked = (psn, n) :: rest) ∧ ((s.qp q).retries < s.rf R.QP_RETRY_CNT q) :=
  ⟨3, 0, 1, [], ((State.reset.wf R.QP_STATE 3 2).wf R.QP_RETRY_CNT 3 7).setQp 3 { unacked := [(0, 1)] }, by decide +kernel⟩
/-- The hypotheses of the clause COMMAND_TIMEOUT meet. -/
theorem witness_commandTimeout : ∃ (q id : Nat) (o : OpenCmd) (s : State), (s.connected q = true) ∧ (s.openCmd q id = some o) ∧ (o.sent = false) ∧ (o.effect = true) ∧ (o.due < s.elapsed) :=
  ⟨3, 9, { qp := 3, cmdId := 9, opcode := 1, arrival := 0, due := 5, effect := true }, { State.reset.wf R.QP_STATE 3 2 with cmds := [{ qp := 3, cmdId := 9, opcode := 1, arrival := 0, due := 5, effect := true }], elapsed := 6 }, by decide +kernel⟩
/-- The hypotheses of the clause UNKNOWN_OPCODE meet. -/
theorem witness_unknownOpcode : ∃ (op : Nat) (c : Cmd) (s : State), (s.Takes c) ∧ (knownOpcodes.contains op = false) :=
  ⟨0x99, { qp := 3, bodyWords := 0, cmdId := 1, payload := 32 }, State.reset.wf R.QP_STATE 3 2, by decide +kernel⟩
/-- The hypotheses of the clause NOP meet. -/
theorem witness_nop : ∃ (c : Cmd) (s : State), (s.Takes c) ∧ (c.bodyWords = 0) :=
  ⟨{ qp := 3, bodyWords := 0, cmdId := 1, payload := 32 }, State.reset.wf R.QP_STATE 3 2, by decide +kernel⟩
/-- The hypotheses of the clause IDENTIFY meet. -/
theorem witness_identify : ∃ (c : Cmd) (s : State), (s.Takes c) ∧ (c.bodyWords = 0) :=
  ⟨{ qp := 3, bodyWords := 0, cmdId := 1, payload := 32 }, State.reset.wf R.QP_STATE 3 2, by decide +kernel⟩
/-- The hypotheses of the clause SEM_ACQUIRE meet. -/
theorem witness_semAcquire : ∃ (c : Cmd) (s : State), (s.Takes c) ∧ (semBodyOk c 0xFFFF01FF 1 = true) ∧ (s.semHeld (c.f 0 0 8) = false) :=
  ⟨{ qp := 3, bodyWords := 1, cmdId := 1, payload := 40, body := [5] }, State.reset.wf R.QP_STATE 3 2, by decide +kernel⟩
/-- The hypotheses of the clause SEM_RELEASE meet. -/
theorem witness_semRelease : ∃ (c : Cmd) (s : State), (s.Takes c) ∧ (semBodyOk c 0xFF 1 = true) ∧ (s.semHeldBy (c.f 0 0 8) (s.holderCode c.qp) c.qp = true) ∧ ((s.sem (c.f 0 0 8)).waiters = []) :=
  ⟨{ qp := 3, bodyWords := 1, cmdId := 1, payload := 40, body := [5] }, (State.reset.wf R.QP_STATE 3 2).semGrant 5 2 3 0, by decide +kernel⟩
/-- The hypotheses of the clause SEM_BREAK meet. -/
theorem witness_semBreak : ∃ (c : Cmd) (s : State), (s.Takes c) ∧ (semBodyOk c 0xFF 2 = true) ∧ (s.semHeld (c.f 0 0 8) = true) ∧ (s.semStamp (c.f 0 0 8) = c.w 1) ∧ ((s.sem (c.f 0 0 8)).waiters = []) :=
  ⟨{ qp := 3, bodyWords := 2, cmdId := 1, payload := 48, body := [5, 1] }, (State.reset.wf R.QP_STATE 3 2).semGrant 5 2 3 0, by decide +kernel⟩
/-- The hypotheses of the clause LEASE_EXPIRY meet. -/
theorem witness_leaseExpiry : ∃ (i due : Nat) (s : State), (i < 256) ∧ ((s.sem i).lease = some due) ∧ (s.semHeld i = true) ∧ (due ≤ s.elapsed) ∧ ((s.sem i).waiters = []) :=
  ⟨5, 1000000, { (State.reset.wf R.QP_STATE 3 2).semGrant 5 2 3 1 with elapsed := 1000000 }, by decide +kernel⟩
/-- The hypotheses of the clause WD_LOOP meet. -/
theorem witness_wdLoop : ∃ (s : State), (s.rb R.OASIS_RESTARTING 0 = false) ∧ ((∀ e ∈ s.oa.restartEnd, e + 1000000000 * s.rf R.OASIS_OASIS_REPEAT_S 0 ≤ s.elapsed)) :=
  ⟨State.reset, by decide +kernel⟩
/-- The hypotheses of the clause WD_ROUND meet. -/
theorem witness_wdRound : ∃ (s : State), (s.rb R.OASIS_RESTARTING 0 = false) ∧ (s.oa.roundAt + 1000000 * s.rf R.OASIS_ROUND_LIMIT_MS 0 ≤ s.elapsed) ∧ ((∀ e ∈ s.oa.restartEnd, e + 1000000000 * s.rf R.OASIS_OASIS_REPEAT_S 0 ≤ s.elapsed)) :=
  ⟨{ State.reset with elapsed := 1000000000 }, by decide +kernel⟩
/-- The hypotheses of the clause WD_HOST meet. -/
theorem witness_wdHost : ∃ (s : State), (s.rb R.OASIS_RESTARTING 0 = false) ∧ (s.oa.hostDue = true) ∧ ((∀ e ∈ s.oa.restartEnd, e + 1000000000 * s.rf R.OASIS_OASIS_REPEAT_S 0 ≤ s.elapsed)) :=
  ⟨{ State.reset with oa := { hostDue := true } }, by decide +kernel⟩
/-- The hypotheses of the clause OASIS_RESTART_DONE meet. -/
theorem witness_oasisRestartDone : ∃ (s : State), (s.rb R.OASIS_RESTARTING 0 = true) ∧ (s.oa.wasTrial = false) :=
  ⟨State.reset.wf R.OASIS_RESTARTING 0 1, by decide +kernel⟩
/-- The hypotheses of the clause OASIS_RESTART_TIMEOUT meet. -/
theorem witness_oasisRestartTimeout : ∃ (t0 : Nat) (s : State), (s.rb R.OASIS_RESTARTING 0 = true) ∧ (s.oa.restartAt = some t0) ∧ (t0 + 400000000 < s.elapsed) :=
  ⟨0, { State.reset.wf R.OASIS_RESTARTING 0 1 with elapsed := 500000000, oa := { restartAt := some 0 } }, by decide +kernel⟩
/-- The hypotheses of the clause HEARTBEAT meet. -/
theorem witness_heartbeat : ∃ (c : Cmd) (s : State), (s.Takes c) ∧ (c.bodyWords = 1) ∧ (c.f 0 33 31 = 0) ∧ (c.b 0 32 = false) :=
  ⟨{ qp := 3, bodyWords := 1, cmdId := 1, payload := 40, body := [5] }, State.reset.wf R.QP_STATE 3 2, by decide +kernel⟩
/-- The hypotheses of the clause HEARTBEAT_RESTART meet. -/
theorem witness_heartbeatRestart : ∃ (c : Cmd) (s : State), (s.Takes c) ∧ (c.bodyWords = 1) ∧ (c.f 0 33 31 = 0) ∧ (c.b 0 32 = true) :=
  ⟨{ qp := 3, bodyWords := 1, cmdId := 1, payload := 40, body := [4294967301] }, State.reset.wf R.QP_STATE 3 2, by decide +kernel⟩
/-- The hypotheses of the clause HB_ECHO meet. -/
theorem witness_hbEcho : ∃ (s : State), (s.rb R.OASIS_RESTARTING 0 = false) ∧ (s.oa.beats ≠ []) :=
  ⟨{ State.reset with oa := { beats := [(3, 1, 0, 0)] } }, by decide +kernel⟩
/-- The hypotheses of the clause HEARTBEAT_ECHO_TIMEOUT meet. -/
theorem witness_heartbeatEchoTimeout : ∃ (q id n due : Nat) (s : State), (s.oa.beats = [(q, id, n, due)]) ∧ (due ≤ s.elapsed) :=
  ⟨3, 1, 0, 0, { State.reset with oa := { beats := [(3, 1, 0, 0)] } }, by decide +kernel⟩
def result_hostSilent (s : State) : Bool := match exec .hostSilent s with
  | .next t => decide (t.rf R.OASIS_HOST_SILENT 0 = 1)
  | _ => false
theorem test_hostSilent : result_hostSilent ({ State.reset.wf R.OASIS_HOST_SILENT_MS 0 1 with elapsed := 1000000 }) = true := by decide +kernel
/-- The hypotheses of the clause HOST_SILENT meet. -/
theorem witness_hostSilent : ∃ (s : State), (s.rf R.OASIS_HOST_SILENT_MS 0 ≠ 0) ∧ (s.rb R.OASIS_HOST_SILENT 0 = false) ∧ (s.oa.lastBeat.getD 0 + 1000000 * s.rf R.OASIS_HOST_SILENT_MS 0 ≤ s.elapsed) :=
  ⟨{ State.reset.wf R.OASIS_HOST_SILENT_MS 0 1 with elapsed := 1000000 }, by decide +kernel⟩
def result_ptpSync (p d n : Nat) (s : State) : Bool := match exec (.ptpSync p d n true) s with
  | .next t => decide (t.rf R.HOST2_SYNC_STAMP p = s.now % 2 ^ 64 ∧ t.port p = { s.port p with syncSeq := some n, syncRx := s.now })
  | _ => false
theorem test_ptpSync : result_ptpSync (0) (0) (5) ((State.reset.wf R.HOST2_PTP_EN 0 1).wf R.HOST_LINK_UP 0 1) = true := by decide +kernel
/-- The hypotheses of the clause PTP_SYNC meet. -/
theorem witness_ptpSync : ∃ (p d n : Nat) (s : State), (p < 2) ∧ (s.ptpOn p d = true) :=
  ⟨0, 0, 5, (State.reset.wf R.HOST2_PTP_EN 0 1).wf R.HOST_LINK_UP 0 1, by decide +kernel⟩
/-- The hypotheses of the clause PTP_FOLLOW_UP meet. -/
theorem witness_ptpFollowUp : ∃ (p d n t1 : Nat) (s : State), (p < 2) ∧ (s.ptpOn p d = true) ∧ ((s.port p).syncSeq = some n) ∧ (s.followsPtp p = false) :=
  ⟨0, 0, 5, 100, { (State.reset.wf R.HOST2_PTP_EN 0 1).wf R.HOST_LINK_UP 0 1 with ports := [(0, { syncSeq := some 5 })] }, by decide +kernel⟩
/-- The hypotheses of the clause PTP_ANNOUNCE meet. -/
theorem witness_ptpAnnounce : ∃ (p d gm : Nat) (s : State), (p < 2) ∧ (s.ptpOn p d = true) ∧ (s.rf R.HOST2_PORT_STATE p = 1) :=
  ⟨0, 0, 5, ((State.reset.wf R.HOST2_PTP_EN 0 1).wf R.HOST_LINK_UP 0 1).wf R.HOST2_PORT_STATE 0 1, by decide +kernel⟩
/-- The hypotheses of the clause PTP_DELAY_RESP meet. -/
theorem witness_ptpDelayResp : ∃ (p d n t3 t4 : Nat) (s : State), (p < 2) ∧ (s.ptpOn p d = true) ∧ ((s.port p).delayReqTx = some (n, t3)) ∧ (s.rf R.HOST2_PORT_STATE p = 2) ∧ (s.rb R.HOST2_TIME_SOURCE p = false) :=
  ⟨0, 0, 5, 10, 100, { ((State.reset.wf R.HOST2_PTP_EN 0 1).wf R.HOST_LINK_UP 0 1).wf R.HOST2_PORT_STATE 0 2 with ports := [(0, { delayReqTx := some (5, 10) })] }, by decide +kernel⟩
/-- The hypotheses of the clause PTP_MANAGEMENT meet. -/
theorem witness_ptpManagement : ∃ (p d : Nat) (ws : List Nat) (s : State), (p < 2) ∧ (s.ptpOn p d = true) :=
  ⟨0, 0, [1, 2], (State.reset.wf R.HOST2_PTP_EN 0 1).wf R.HOST_LINK_UP 0 1, by decide +kernel⟩
/-- The hypotheses of the clause TIME_SET_STEP meet. -/
theorem witness_timeSetStep : ∃ (c : Cmd) (s : State), (s.Takes c) ∧ (c.bodyWords = 3) ∧ (c.w 0 = 0) ∧ (c.f 2 32 32 = 0) ∧ (s.rf R.OASIS2_SYNC_STATE 0 ≠ 2) ∧ (s.rf R.OASIS2_SYNC_STATE 0 ≠ 3) ∧ (s.modState ≠ msReady ∧ s.modState ≠ msLeaving ∧ s.modState ≠ msLeft) ∧ (s.now ≤ c.w 1 + c.f 2 0 32) :=
  ⟨{ qp := 3, bodyWords := 3, cmdId := 1, payload := 56, body := [0, 1000, 0] }, State.reset.wf R.QP_STATE 3 2, by decide +kernel⟩
/-- The hypotheses of the clause TIME_SET_SLEW meet. -/
theorem witness_timeSetSlew : ∃ (c : Cmd) (s : State), (s.Takes c) ∧ (c.bodyWords = 3) ∧ (c.w 0 = 1) ∧ (c.f 2 32 32 = 0) ∧ (s.rf R.OASIS2_SYNC_STATE 0 ≠ 2) ∧ (s.rf R.OASIS2_SYNC_STATE 0 ≠ 3) :=
  ⟨{ qp := 3, bodyWords := 3, cmdId := 1, payload := 56, body := [1, 1000, 0] }, State.reset.wf R.QP_STATE 3 2, by decide +kernel⟩
/-- The hypotheses of the clause SYNC_SOURCE_LOST meet. -/
theorem witness_syncSourceLost : ∃ (s : State), (s.rf R.OASIS2_SYNC_STATE 0 = 2 ∨ s.rf R.OASIS2_SYNC_STATE 0 = 3) :=
  ⟨State.reset.wf R.OASIS2_SYNC_STATE 0 2, by decide +kernel⟩
/-- The hypotheses of the clause LOG_EVENT meet. -/
theorem witness_logEvent : ∃ (e : Event) (rest : List Event) (s : State), (s.rb R.OASIS_RESTARTING 0 = false) ∧ (s.lostStamps = none) ∧ (s.staging = e :: rest) :=
  ⟨{ stamp := 5, kind := 0x0302, sev := 1, page := 4, ref := 0, details := [1, 0, 0, 0] }, [], { State.reset with staging := [{ stamp := 5, kind := 0x0302, sev := 1, page := 4, ref := 0, details := [1, 0, 0, 0] }] }, by decide +kernel⟩
/-- The hypotheses of the clause EVENT_SEND meet. -/
theorem witness_eventSend : ∃ (q : Nat) (m : List LogRec) (rest : List (List LogRec)) (s : State), ((s.qp q).waiting = m :: rest) ∧ (s.connected q = true) :=
  ⟨3, [], [], { State.reset.wf R.QP_STATE 3 2 with qps := [(3, { waiting := [[]] })] }, by decide +kernel⟩
/-- The hypotheses of the clause EVENT_SUBSCRIBE meet. -/
theorem witness_eventSubscribe : ∃ (c : Cmd) (s : State), (s.Takes c) ∧ (c.bodyWords = 2) ∧ (c.f 0 4 60 = 0) :=
  ⟨{ qp := 3, bodyWords := 2, cmdId := 1, payload := 48, body := [3, 1] }, State.reset.wf R.QP_STATE 3 2, by decide +kernel⟩
/-- The hypotheses of the clause LOG_READ meet. -/
theorem witness_logRead : ∃ (c : Cmd) (s : State), (s.Takes c) ∧ (c.bodyWords = 1) ∧ (c.b 0 36 = false) ∧ (c.f 0 32 4 ≠ 0) ∧ (c.f 0 50 14 = 0) ∧ (c.f 0 37 13 = 0) :=
  ⟨{ qp := 3, bodyWords := 1, cmdId := 1, payload := 40, body := [12884901888] }, State.reset.wf R.QP_STATE 3 2, by decide +kernel⟩
/-- The hypotheses of the clause STATUS_QUERY meet. -/
theorem witness_statusQuery : ∃ (c : Cmd) (s : State), (s.Takes c) ∧ (c.bodyWords = 0) :=
  ⟨{ qp := 3, bodyWords := 0, cmdId := 1, payload := 32, body := [] }, State.reset.wf R.QP_STATE 3 2, by decide +kernel⟩
/-- The hypotheses of the clause PAGE_INTERRUPT meet. -/
theorem witness_pageInterrupt : ∃ (i : Nat) (rest : List Nat) (s : State), (s.rb R.OASIS_RESTARTING 0 = false) ∧ (s.irqs = i :: rest) ∧ (s.staging = []) :=
  ⟨(hostPage 0).index, [], { State.reset with irqs := [(hostPage 0).index] }, by decide +kernel⟩
/-- The hypotheses of the clause REGISTER_WRITE meet. -/
theorem witness_registerWrite : ∃ (m : Master) (p : Page) (w : Nat) (s : State), (s.Writes m p 0x48 w) :=
  ⟨.oasis, engPage 5, 3, State.reset, by decide +kernel⟩
/-- The hypotheses of the clause RC_READ meet. -/
theorem witness_rcRead : ∃ (m : Master) (p : Page) (off : Nat) (s : State), (s.Reads m p off) ∧ (0x100 ≤ off) :=
  ⟨.hostA 3, hostPage 0, 0x130, State.reset.wf R.HOST_RX_DROPS 0 5, by decide +kernel⟩
/-- The hypotheses of the clause ERR_REARM meet. -/
theorem witness_errRearm : ∃ (m : Master) (p : Page) (w : Nat) (s : State), (s.Writes m p 0x20 (w ||| 2)) ∧ (w.testBit 8 = false) ∧ (p.blk ≠ 0x12) ∧ (p.blk ≠ 0x15) :=
  ⟨.oasis, hostPage 0, 3, (State.reset.wf (hostPage 0).errValid 0 1).wf (hostPage 0).errCause 0 5, by decide +kernel⟩
/-- The hypotheses of the clause CTL_DOMAIN_RESET meet. -/
theorem witness_ctlDomainReset : ∃ (m : Master) (c w : Nat) (s : State), (c < 32) ∧ (s.Writes m (cluPage c) 0x20 (w ||| 0x100)) ∧ (w.testBit 9 = false) ∧ (s.gated (.cluster c) = false) ∧ (s.rsts = []) ∧ (s.modState ≠ msCores) :=
  ⟨.oasis, 4, 0, State.reset, by decide +kernel⟩
/-- The hypotheses of the clause INT_FORCE meet. -/
theorem witness_intForce : ∃ (m : Master) (p : Page) (w : Nat) (s : State), (s.Writes m p 0x50 w) ∧ (w % 2 ^ (intTop p.blk p.page + 1) ≠ 0) :=
  ⟨.oasis, hostPage 0, 3, State.reset, by decide +kernel⟩
/-- The hypotheses of the clause REG_READ meet. -/
theorem witness_regRead : ∃ (c : Cmd) (ck off : Nat) (s : State), (s.Takes c) ∧ (regBodyOk c 0 = true) ∧ (c.w 1 = 1) ∧ (c.w 0 % 8 = 0) ∧ (s.sramAddr (c.w 0) = some (ck, off)) ∧ (s.sramIsHollow ck off = false) :=
  ⟨{ qp := 3, bodyWords := 2, cmdId := 1, payload := 48, body := [0x100000000000, 1] }, 0, 0, State.reset.wf R.QP_STATE 3 2, by decide +kernel⟩
/-- The hypotheses of the clause REG_WRITE meet. -/
theorem witness_regWrite : ∃ (c : Cmd) (ck off : Nat) (s : State), (s.Takes c) ∧ (regBodyOk c 1 = true) ∧ (c.w 1 = 1) ∧ (c.w 0 % 8 = 0) ∧ (s.sramAddr (c.w 0) = some (ck, off)) ∧ (ck % 64 < 57) :=
  ⟨{ qp := 3, bodyWords := 3, cmdId := 1, payload := 56, body := [0x100000000008, 1, 77] }, 0, 8, State.reset.wf R.QP_STATE 3 2, by decide +kernel⟩
/-- The hypotheses of the clause BANK_CTL_WRITE meet. -/
theorem witness_bankCtlWrite : ∃ (m : Master) (e w : Nat) (s : State), (s.Writes m (engPage e) 0x100 w) ∧ (s.badBinding e w = false) ∧ ((s.progSt e).owed = none) ∧ ((s.progSt e).owed2 = none) ∧ ((s.progSt e).retrims = []) ∧ ((∀ x ∈ (s.mcSt (engCore e)).steps, ∀ g ∈ x.engs, g.state ≠ 1)) :=
  ⟨.oasis, 5, 0, State.reset.wf R.ENG_EPOCH1_BANK 5 1, by decide +kernel⟩
/-- The hypotheses of the clause PILOT_NOW meet. -/
theorem witness_pilotNow : ∃ (m : Master) (e w b : Nat) (s : State), (s.Writes m (engPage e) 0x20 (w ||| 2 ^ 34)) ∧ (b < 2) ∧ (s.tracked e b = true) :=
  ⟨.oasis, 5, 0, 0, (State.reset.setBankState 5 0 bankReady).wf R.ENG_EPOCH0_BANK 5 1, by decide +kernel⟩
/-- The hypotheses of the clause PROG_ABORT meet. -/
theorem witness_progAbort : ∃ (m : Master) (e w : Nat) (o : ProgOp) (s : State), (s.Writes m (wprogPage e) 0x110 (w ||| 0x80)) ∧ (w.testBit 6 = false) ∧ ((s.progSt e).queued = some o) ∧ ((s.progSt e).owed = none) ∧ ((s.progSt e).owed2 = none) :=
  ⟨.oasis, 5, 0, { src := 0, crc := 0, bank := 0, fmt := 0, touchUp := false, purpose := 0, started := 0 }, State.reset.setProg 5 { queued := some { src := 0, crc := 0, bank := 0, fmt := 0, touchUp := false, purpose := 0, started := 0 } }, by decide +kernel⟩
/-- The hypotheses of the clause GOV_POLICY_WRITE meet. -/
theorem witness_govPolicyWrite : ∃ (m : Master) (e w : Nat) (s : State), (s.Writes m (wprogPage e) 0x188 w) :=
  ⟨.hostA 3, 5, 0x1000100010400, State.reset, by decide +kernel⟩
/-- The hypotheses of the clause REGISTER_RESULT meet. -/
theorem witness_registerResult : ∃ (ck pc : Nat) (p : Page) (off : Nat) (s : State), (s.Reads (.score ck) p off) :=
  ⟨57, 0, scorePage 57, 0x100, State.reset.wf R.SCORE_RUNNING 57 1, by decide +kernel⟩
/-- The hypotheses of the clause SCORE_RUN meet. -/
theorem witness_scoreRun : ∃ (ck w : Nat) (s : State), (s.Writes .oasis (scorePage ck) 0x20 (w ||| 2 ^ 32)) ∧ (w.testBit 8 = false) ∧ (s.rb R.SCORE_RUN ck = false) ∧ (s.inReset (.core ck) = false) ∧ (s.isAbsent ck = false) :=
  ⟨57, 0, State.reset, by decide +kernel⟩
/-- The hypotheses of the clause MAP_ENTRY_WRITE meet. -/
theorem witness_mapEntryWrite : ∃ (m : Master) (r b i w : Nat) (s : State), (s.Writes m (routerPage r 1) (0x100 + 0x780 * b + 8 * i) w) ∧ (b < 2) ∧ (i < 240) ∧ (b ≠ s.rf R.ROUTER_MAP_BANK r) :=
  ⟨.oasis, 3, 1, 5, 0x4142, State.reset, by decide +kernel⟩
/-- The hypotheses of the clause MAP_SWITCH meet. -/
theorem witness_mapSwitch : ∃ (r w : Nat) (s : State), (s.Writes .oasis (routerPage r) 0x108 w) ∧ (s.rb R.ROUTER_HELD r = false) :=
  ⟨3, 5, State.reset, by decide +kernel⟩
/-- The hypotheses of the clause INTERLEAVE_WRITE meet. -/
theorem witness_interleaveWrite : ∃ (m : Master) (w : Nat) (s : State), (s.Writes m (hbmPage 0) 0x100 w) ∧ (s.wasReady = false) :=
  ⟨.oasis, 8, State.reset, by decide +kernel⟩
def result_sealedRangeWrite (limit : Bool) (w : Nat) (s : State) : Bool := match exec (.sealedRangeWrite .oasis limit w) s with
  | .next t => decide (∀ k ∈ List.range 12, t.rf (if limit then R.HBM_SEALED_LIMIT else R.HBM_SEALED_BASE) k = w)
  | _ => false
theorem test_sealedRangeWrite : result_sealedRangeWrite (true) (5) (State.reset) = true := by decide +kernel
/-- The hypotheses of the clause SEALED_RANGE_WRITE meet. -/
theorem witness_sealedRangeWrite : ∃ (limit : Bool) (w : Nat) (s : State), (s.Writes .oasis (hbmPage 0) (if limit then 0x110 else 0x108) w) :=
  ⟨true, 5, State.reset, by decide +kernel⟩
/-- The hypotheses of the clause TENANT_DEBIT meet. -/
theorem witness_tenantDebit : ∃ (ck tn w : Nat) (s : State), (s.Writes (.score ck) (tenantPage tn) 0x120 w) ∧ (w.testBit 24 = true) :=
  ⟨57, 5, 0x1000003, State.reset.wf R.SCORE_RUNNING 57 1, by decide +kernel⟩
/-- The hypotheses of the clause TENANT_ENABLE meet. -/
theorem witness_tenantEnable : ∃ (m : Master) (tn w : Nat) (s : State), (s.Writes m (tenantPage tn) 0x108 w) ∧ (s.rb R.TENANT_ENABLED tn = false) ∧ (w.testBit 34 = true) :=
  ⟨.hostA 3, 5, 2 ^ 34, State.reset.wf R.TENANT_DEPTH 5 100, by decide +kernel⟩
def result_tenantRateWrite (m : Master) (tn w : Nat) (s : State) : Bool := match exec (.tenantRateWrite m tn w) s with
  | .next t => decide (t.rf R.TENANT_RATE tn = bitsOf w 0 32 ∧ t.rf R.TENANT_DEPTH tn = bitsOf w 32 32 ∧ t.rf R.TENANT_LAST_REFILL tn = s.now % 2 ^ 64)
  | _ => false
theorem test_tenantRateWrite : result_tenantRateWrite (.hostA 3) (5) (2 ^ 34) (State.reset.wf R.TENANT_DEPTH 5 100) = true := by decide +kernel
/-- The hypotheses of the clause TENANT_RATE_WRITE meet. -/
theorem witness_tenantRateWrite : ∃ (m : Master) (tn w : Nat) (s : State), (s.Writes m (tenantPage tn) 0x100 w) :=
  ⟨.hostA 3, 5, 2 ^ 34, State.reset.wf R.TENANT_DEPTH 5 100, by decide +kernel⟩
/-- The hypotheses of the clause CONSUMED_WRITE meet. -/
theorem witness_consumedWrite : ∃ (m : Master) (r w : Nat) (s : State), (s.Writes m (ringPage r) 0x110 w) ∧ ((s.ring r).waiting = []) :=
  ⟨.hostA 3, 5, 0, State.reset, by decide +kernel⟩
/-- The hypotheses of the clause DRAIN_LIMIT_WRITE meet. -/
theorem witness_drainLimitWrite : ∃ (m : Master) (v w : Nat) (s : State), (v < 64) ∧ (s.Writes m (servePage 2) (0x108 + 16 * v) w) :=
  ⟨.hostA 3, 5, 9, State.reset, by decide +kernel⟩
/-- The hypotheses of the clause PORT_ENABLE meet. -/
theorem witness_portEnable : ∃ (m : Master) (p w : Nat) (s : State), (s.Writes m (hostPage p) 0x108 w) ∧ (s.rb R.HOST_PORT_EN p = false) ∧ (w.testBit 0 = true) :=
  ⟨.oasis, 0, 73731, State.reset.wf R.HOST_PORT_EN 0 0, by decide +kernel⟩
/-- The hypotheses of the clause ADDRESS_WRITE meet. -/
theorem witness_addressWrite : ∃ (m : Master) (p w q : Nat) (s : State), (s.Writes m (hostPage p 1) 0x108 w) ∧ (s.portQps p = [q]) ∧ (s.rf R.QP_STATE q ≠ 0) :=
  ⟨.oasis, 0, 3, 3, (State.reset.wf R.QP_STATE 3 2).setQp 3 { maxReads := 1 }, by decide +kernel⟩
/-- The hypotheses of the clause QP_CLOSE meet. -/
theorem witness_qpClose : ∃ (m : Master) (q : Nat) (s : State), (s.Writes m (qpPage q) 0x150 1) ∧ (s.rf R.QP_STATE q ≠ 0) ∧ (s.rf R.QP_STATE q ≠ 4) :=
  ⟨.oasis, 3, State.reset.wf R.QP_STATE 3 2, by decide +kernel⟩
def result_semOpAcquire (m : Master) (i lease : Nat) (s : State) : Bool := match exec (.semOpAcquire m i lease) s with
  | .next t => decide (t.semHeld i = true ∧ t.semHolder i = m.code ∧ t.semSource i = m.source % 65536 ∧ t.semStamp i = s.now % 2 ^ 64)
  | _ => false
theorem test_semOpAcquire : result_semOpAcquire (.hostA 3) (5) (9) (State.reset) = true := by decide +kernel
/-- The hypotheses of the clause SEM_OP_ACQUIRE meet. -/
theorem witness_semOpAcquire : ∃ (m : Master) (i lease : Nat) (s : State), (i < 256) ∧ (lease < 65536) ∧ (s.Writes m semaPage 0x100 (pack [(i, 0, 8), (0, 8, 2), (lease, 16, 16)])) ∧ (s.semHeld i = false) :=
  ⟨.hostA 3, 5, 9, State.reset, by decide +kernel⟩
/-- The hypotheses of the clause SEM_OP_RELEASE meet. -/
theorem witness_semOpRelease : ∃ (m : Master) (i : Nat) (s : State), (i < 256) ∧ (s.Writes m semaPage 0x100 (pack [(i, 0, 8), (1, 8, 2)])) ∧ (s.semHeldBy i m.code m.source = true) ∧ ((s.sem i).waiters = []) :=
  ⟨.hostA 3, 5, (State.reset.wf R.QP_STATE 3 2).semGrant 5 2 3 0, by decide +kernel⟩
/-- The hypotheses of the clause SEM_OP_BREAK meet. -/
theorem witness_semOpBreak : ∃ (m : Master) (i : Nat) (s : State), (i < 256) ∧ (s.Writes m semaPage 0x100 (pack [(i, 0, 8), (2, 8, 2)])) ∧ (s.semHeld i = true) ∧ ((s.sem i).waiters = []) :=
  ⟨.hostA 4, 5, (State.reset.wf R.QP_STATE 3 2).semGrant 5 2 3 0, by decide +kernel⟩
/-- The hypotheses of the clause LINK_ENABLE meet. -/
theorem witness_linkEnable : ∃ (m : Master) (d w : Nat) (s : State), (s.Writes m (borsanPage d) 0x100 w) ∧ (s.rb R.BORSAN_LINK_EN d = false) ∧ (w.testBit 0 = true) ∧ (s.rb R.BORSAN_FIBRE_REVERSED d = false) :=
  ⟨.hostA 3, 2, 1, State.reset.wf R.BORSAN_LINK_EN 2 0, by decide +kernel⟩
/-- The hypotheses of the clause REPLAN_NOW meet. -/
theorem witness_replanNow : ∃ (m : Master) (w : Nat) (s : State), (s.Writes m agePage 0x100 (w ||| 0x40)) ∧ (s.replanHeld = false) :=
  ⟨.oasis, 7 + 32 + 1000 * 65536, State.reset, by decide +kernel⟩
/-- The hypotheses of the clause URGENT_GO meet. -/
theorem witness_urgentGo : ∃ (m : Master) (i w : Nat) (s : State), (s.Writes m (monPage i) 0x128 (w ||| 0x40)) ∧ ((s.convSt i).urgent = []) ∧ ((s.convSt i).running = none) ∧ (s.rb R.MONCONV_RUN i = false) :=
  ⟨.oasis, 0, 5, State.reset.wf R.MONCONV_RUN 0 0, by decide +kernel⟩
/-- The hypotheses of the clause SUB_STEP_END meet. -/
theorem witness_subStepEnd : ∃ (e b : Nat) (noise raw : List Int) (x : Tile) (c c2 : Conv) (rest : List Conv) (s : State), ((s.engSt e).tile = some x) ∧ (x.todo = c :: c2 :: rest) ∧ ((c2.ones ≠ [] ∨ s.rb R.ENG_ZERO_SKIP e = false)) ∧ (raw = ((List.range 64).map fun k => (c.ones.foldl (fun a r => a + (s.rowCells e x.bank r).getD (64 * c.quarter + k) 0) 0) + noise.getD k 0)) ∧ (b = (if (x.comp.any fun k => decide (k < c.bits)) = true then x.comp.getD c.bits else c.bits)) ∧ ((x.comp = none ∨ ∀ v ∈ raw, -(2 : Int) ^ (b - 1) ≤ v ∧ v ≤ 2 ^ (b - 1) - 1)) :=
  ⟨5, 8, [], List.replicate 64 0, wtile, wconv, wconv, [], { State.reset with eng := [(5, { tile := some wtile })] }, by decide +kernel⟩
/-- The hypotheses of the clause PIP_RECEIVE meet. -/
theorem witness_pipReceive : ∃ (p : Pip) (pc i : Nat) (redirected : Bool) (us : List Nat) (s : State), (destLocal p.dest = true) ∧ (s.resolveAt pc p.dest = 0) ∧ (p.gen = s.coreGen p.dest) ∧ (kindOfLogical (p.dest % 64) ≠ 2) ∧ (s.matchBuf p.dest p.stream (some p.epoch) = some i) ∧ (pipPoison p = false) ∧ (us = ((((List.range (s.bufSize p.dest i)).map (s.bufBase p.dest i / 16 + ·)).filter fun u => !((s.buf p.dest i).pips.flatMap (·.units)).contains u).take (pipCredits p.payload.length))) :=
  ⟨{ dest := 46, stream := 0, seq := 0, gen := State.reset.coreGen 46, epoch := 0, payload := [] }, State.reset.physOf 46, 0, false, [0, 1], wkern, by decide +kernel⟩
/-- The hypotheses of the clause POST_UNIT_DONE meet. -/
theorem witness_postUnitDone : ∃ (ck : Nat) (x : Step) (em : Emission) (rest : List Emission) (s : State), (((s.mcSt ck).steps.find? fun y => !y.emis.isEmpty) = some x) ∧ (s.stepOf ck x.id = some x) ∧ (x.emis = em :: rest) :=
  ⟨0, { wstep2 with emis := [wemit] }, wemit, [], { State.reset with mc := [(0, { steps := [{ wstep2 with emis := [wemit] }] })] }, by decide +kernel⟩
/-- The hypotheses of the clause STANDIN_RESULT meet. -/
theorem witness_standinResult : ∃ (ck id n : Nat) (ok : Bool) (vals : List Int) (x : Step) (s : State), (s.stepOf ck id = some x) ∧ ((∃ g ∈ x.engs, g.eng = n ∧ g.state = 2)) ∧ ((∃ g ∈ x.engs, g.eng ≠ n ∧ g.busy = true)) :=
  ⟨0, 1, 2, true, [5], wstep2, { State.reset with mc := [(0, { steps := [wstep2] })] }, by decide +kernel⟩
/-- The hypotheses of the clause STANDIN_RESULT meet. -/
theorem witness_standinResult2 : ∃ (ck id n : Nat) (ok : Bool) (vals : List Int) (x : Step) (s : State), (s.stepOf ck id = some x) ∧ ((∃ g ∈ x.engs, g.eng = n ∧ g.state = 2)) ∧ ((∃ g ∈ x.engs, g.eng ≠ n ∧ g.busy = true)) :=
  ⟨0, 1, 2, false, [5], wstep2, { State.reset with mc := [(0, { steps := [wstep2] })] }, by decide +kernel⟩
/-- The hypotheses of the clause KERNEL_STEP_END meet. -/
theorem witness_kernelStepEnd : ∃ (v : Nat) (ops : List VOp) (k : KStep) (s : State), ((s.vcSt v).step = some k) :=
  ⟨46, [.fill 0 5], { entry := 0, words := [0, 0, 0, 0, 0, 0, 0, 0], pips := [], n := 0, firedAt := 0 }, { State.reset with vc := [(46, { step := some { entry := 0, words := [0, 0, 0, 0, 0, 0, 0, 0], pips := [], n := 0, firedAt := 0 } })] }, by decide +kernel⟩
/-- The hypotheses of the clause REEXEC_CHECK_DONE meet. -/
theorem witness_reexecCheckDone : ∃ (ck id n : Nat) (vals : List Int) (x : Step) (c : Check) (g : StepEng) (s : State), (s.stepOf ck id = some x) ∧ (x.checks.find? (fun k => k.eng = n) = some c) ∧ (x.engs.find? (fun e => e.eng = n) = some g) ∧ (g.busy = false) ∧ (g.state ≠ 4) ∧ (((c.path = 0 ∧ c.twinVals = none ∧ firstOutside (s.tolerance ck n x) false g.vals vals = none) ∨ (c.path = 1 ∧ (c.twinVals.any fun tv => firstOutside (s.tolerance ck n x) true g.vals tv == none) = true))) ∧ (x.engs.any StepEng.busy = true) :=
  ⟨0, 1, 2, [5], wcheck 0 none, { eng := 2, path := 0 }, { eng := 2, state := 3, vals := [5] }, { State.reset with mc := [(0, { steps := [wcheck 0 none] })] }, by decide +kernel⟩
/-- The hypotheses of the clause REEXEC_CHECK_DONE meet. -/
theorem witness_reexecCheckDone2 : ∃ (ck id n : Nat) (vals : List Int) (x : Step) (c : Check) (g : StepEng) (s : State), (s.stepOf ck id = some x) ∧ (x.checks.find? (fun k => k.eng = n) = some c) ∧ (x.engs.find? (fun e => e.eng = n) = some g) ∧ (g.busy = false) ∧ (g.state ≠ 4) ∧ (((c.path = 0 ∧ c.twinVals = none ∧ firstOutside (s.tolerance ck n x) false g.vals vals = none) ∨ (c.path = 1 ∧ (c.twinVals.any fun tv => firstOutside (s.tolerance ck n x) true g.vals tv == none) = true))) ∧ (x.engs.any StepEng.busy = true) :=
  ⟨0, 1, 2, [5], wcheck 1 (some [5]), { eng := 2, path := 1, twinVals := some [5] }, { eng := 2, state := 3, vals := [5] }, { State.reset with mc := [(0, { steps := [wcheck 1 (some [5])] })] }, by decide +kernel⟩
/-- The hypotheses of the clause CREDIT_REQUEST meet. -/
theorem witness_creditRequest : ∃ (producer dest stream n gen i : Nat) (s : State), (producer < 0x8000) ∧ (destLocal dest = true) ∧ (s.isAbsent dest = false) ∧ (s.matchBuf dest stream none = some i) ∧ ((s.buf dest i).queue = []) ∧ (n ≠ 0) ∧ (n ≤ s.bufFree dest i) :=
  ⟨0, 46, 0, 1, 0, 0, wkern, by decide +kernel⟩
def result_creditGrant (ck dest stream n gen reqGen : Nat) (c : Chan) (s : State) : Bool := match exec (.creditGrant ck dest stream n { gen := gen, reqGen := reqGen }) s with
  | .next t => decide (t.chan ck dest stream = some { c with credits := c.credits + n, usedAt := s.elapsed, want := c.want - n, noBuf := none })
  | _ => false
theorem test_creditGrant : result_creditGrant (0) (46) (0) (1) (3) (State.reset.coreGen 0) ({ core := 0, dest := 46, stream := 0, gen := 3 }) ({ State.reset with chans := [{ core := 0, dest := 46, stream := 0, gen := 3 }] }) = true := by decide +kernel
/-- The hypotheses of the clause CREDIT_GRANT meet. -/
theorem witness_creditGrant : ∃ (ck dest stream n gen reqGen : Nat) (c : Chan) (s : State), (reqGen % 256 = s.coreGen ck) ∧ (s.chan ck dest stream = some c) ∧ (c.gen = gen % 256) :=
  ⟨0, 46, 0, 1, 3, State.reset.coreGen 0, { core := 0, dest := 46, stream := 0, gen := 3 }, { State.reset with chans := [{ core := 0, dest := 46, stream := 0, gen := 3 }] }, by decide +kernel⟩
/-- The hypotheses of the clause CREDIT_RETURN meet. -/
theorem witness_creditReturn : ∃ (ck dest stream n gen reqGen : Nat) (c : Chan) (s : State), (reqGen % 256 = s.coreGen ck) ∧ (s.chan ck dest stream = some c) ∧ (c.gen = gen % 256) :=
  ⟨0, 46, 0, 1, 3, State.reset.coreGen 0, { core := 0, dest := 46, stream := 0, gen := 3 }, { State.reset with chans := [{ core := 0, dest := 46, stream := 0, gen := 3 }] }, by decide +kernel⟩
/-- The hypotheses of the clause CREDIT_RELEASE meet. -/
theorem witness_creditRelease : ∃ (dest stream n gen i : Nat) (s : State), (destLocal dest = true) ∧ (s.isAbsent dest = false) ∧ (gen % 256 = s.coreGen dest) ∧ (s.matchBuf dest stream none = some i) ∧ ((s.buf dest i).queue = []) :=
  ⟨46, 0, 1, State.reset.coreGen 46, 0, { wkern with bufs := [(bufKey 46 0, { used := 5 })] }, by decide +kernel⟩
/-- The hypotheses of the clause CREDIT_IDLE meet. -/
theorem witness_creditIdle : ∃ (ck dest stream : Nat) (c : Chan) (s : State), (s.chan ck dest stream = some c) ∧ (c.reserved < c.credits) ∧ (c.usedAt + 100000 ≤ s.elapsed) ∧ (destRemote dest = false) ∧ (dest < 0x8000) :=
  ⟨0, 46, 0, { core := 0, dest := 46, stream := 0, credits := 5, gen := 3 }, { State.reset with elapsed := 100000, chans := [{ core := 0, dest := 46, stream := 0, credits := 5, gen := 3 }] }, by decide +kernel⟩
/-- The hypotheses of the clause NO_BUFFER_RETRY meet. -/
theorem witness_noBufferRetry : ∃ (ck dest stream : Nat) (c : Chan) (s : State), (s.chan ck dest stream = some c) ∧ (c.noBuf.isSome = true) ∧ (c.retryAt ≤ s.elapsed) ∧ (dest < 0x8000) :=
  ⟨0, 46, 0, { core := 0, dest := 46, stream := 0, noBuf := some 0, gen := 3 }, { State.reset with chans := [{ core := 0, dest := 46, stream := 0, noBuf := some 0, gen := 3 }] }, by decide +kernel⟩
/-- The hypotheses of the clause RESPONSE_RECEIVE meet. -/
theorem witness_responseReceive : ∃ (ck pc g : Nat) (redirected : Bool) (ws : List Nat) (s : State), (destLocal ck = true) ∧ (s.resolveAt pc ck = 0) ∧ (g % 256 = s.coreGen ck) ∧ ((kindOfLogical (ck % 64) = 1 → (s.vcSt ck).ready = [])) :=
  ⟨46, State.reset.physOf 46, State.reset.coreGen 46, false, [1], State.reset, by decide +kernel⟩
/-- The hypotheses of the clause CLOCK_HOLD_END meet. -/
theorem witness_clockHoldEnd : ∃ (half m : Nat) (s : State), (half < 2) ∧ (Tbl.get? s.clk.hold half = some m) ∧ (Tbl.get? s.clk.next half = none) :=
  ⟨0, 1000, { State.reset with clk := { hold := [(0, 1000)] } }, by decide +kernel⟩
/-- The hypotheses of the clause MAP_SWITCH_COMPLETE meet. -/
theorem witness_mapSwitchComplete : ∃ (s : State), (s.msh.switching.isSome = true) ∧ (512 ≤ s.msh.acks.length) :=
  ⟨{ State.reset with msh := { switching := some 1, acks := List.range 512 } }, by decide +kernel⟩
/-- The hypotheses of the clause VARIANT_ACTIVATE meet. -/
theorem witness_variantActivate : ∃ (c : Cmd) (p : Placement) (elsewhere w : Nat) (m : Manifest) (s : State), (s.Takes c) ∧ (c.bodyWords = 1) ∧ (s.activateCheck c p elsewhere = none) ∧ (s.man (c.f 0 0 6) = some m) ∧ ((s.keySlot m.keyId).isSome = true) ∧ ((∀ i ∈ s.ownShards m, (s.shard (c.f 0 0 6) i).held = true)) ∧ (s.judgeSwap (p.items.map fun x => (x.1, x.2.1)) = (none, w)) :=
  ⟨{ qp := 3, bodyWords := 1, cmdId := 1, payload := 40, body := [0xFC5] }, {}, 0, 0, wman, { (((State.reset.wf R.QP_STATE 3 2).wf R.SERVE2_STATE 0 vRegistered 5).wf R.KEYS1_LOADED 0 1 2).wf R.KEYS1_KEY_ID 0 7 2 with sec := { mans := [(5, wman)] } }, by decide +kernel⟩
/-- The hypotheses of the clause ITEM_DECRYPTED meet. -/
theorem witness_itemDecrypted : ∃ (v i n ext sram unit : Nat) (last : Bool) (g : StageSt) (s : State), (Tbl.get? s.sec.staging v = some g) ∧ (i ∈ g.shards) :=
  ⟨5, 0, 0, 0, 0, 3, false, { shards := [0] }, wheld, by decide +kernel⟩
/-- The hypotheses of the clause EPOCH_BIND meet. -/
theorem witness_epochBind : ∃ (v elsewhere given ep : Nat) (g : StageSt) (s : State), (Tbl.get? s.sec.staging v = some g) ∧ (s.vstate v = vStaging) ∧ (s.staged v g = true) ∧ (s.rb R.CARAVAN_COMPLETE 0 v = true) ∧ ((s.var v).place.items.find? (fun x => s.rf (jcrcF x.2.1) x.1 ≠ x.2.2.2.2) = none) ∧ ((s.var v).place.head = s.here) ∧ (s.newEpoch elsewhere = some ep) ∧ ((s.var v).replaces = none) ∧ ((∀ x ∈ (s.var v).place.items, (s.progSt x.1).owed2 = none)) ∧ (s.bindable v = true) :=
  ⟨5, 0, 0, 1, { asked := [5] }, { ((State.reset.wf R.CARAVAN_COMPLETE 0 1 5).wf R.SERVE2_STATE 0 vStaging 5).setBankState 5 0 bankReady with sec := { staging := [(5, { asked := [5] })] }, vars := [(5, { place := { items := [(5, 0, 0, 0, 0)], head := State.reset.here } })] }, by decide +kernel⟩
/-- The hypotheses of the clause ACCESS_FAULT meet. -/
theorem witness_accessFault : ∃ (ck pc a n kind c : Nat) (s : State), (s.scoreRuns ck = true) ∧ (s.accessCause ck a n kind = some c) :=
  ⟨57, 0x100, 0x400000000000, 8, 0, 5, wscore, by decide +kernel⟩
/-- The hypotheses of the clause PIP_SEND meet. -/
theorem witness_pipSend : ∃ (ck off : Nat) (c : Chan) (s : State), (ck < 2048) ∧ (kindOfLogical (ck % 64) = 2) ∧ (ck % 64 < 60) ∧ (s.isAbsent ck = false) ∧ (s.rb R.ROUTER_HELD (s.routerOfCore ck) = false) ∧ ((s.scSt ck).tx = [off]) ∧ (destLocal (s.pipAt ck off).dest = true) ∧ (s.absentAt ck (s.pipAt ck off).dest = false) ∧ ((s.pipAt ck off).payload.length ≤ 2000) ∧ (s.chan ck (s.pipAt ck off).dest (s.pipAt ck off).stream = some c) ∧ (c.reserved ≤ c.credits) ∧ (pipCredits (s.pipAt ck off).payload.length ≤ c.credits - c.reserved) :=
  ⟨57, 64, { core := 57, dest := 0, stream := 0, credits := 9 }, { wscore with sc := [(57, { tx := [64] })], chans := [{ core := 57, dest := 0, stream := 0, credits := 9 }] }, by decide +kernel⟩
/-- The hypotheses of the clause SCORE_HEARTBEAT meet. -/
theorem witness_scoreHeartbeat : ∃ (ck w : Nat) (s : State), (s.scoreRuns ck = true) :=
  ⟨57, 1, { wscore with elapsed := 5 }, by decide +kernel⟩
/-- The hypotheses of the clause MTIMECMP_INTERRUPT meet. -/
theorem witness_mtimecmpInterrupt : ∃ (ck : Nat) (s : State), (s.isScore ck = true) ∧ (s.inReset (.core ck) = false) ∧ (s.rf R.LCB_MTIMECMP ck ≤ s.now) :=
  ⟨57, State.reset.wf R.LCB_MTIMECMP 57 0, by decide +kernel⟩
/-- The hypotheses of the clause TX_SEND meet. -/
theorem witness_txSend : ∃ (ck w : Nat) (s : State), (s.scoreRuns ck = true) ∧ (w < 2 ^ 64) ∧ (w * 16 + 32 ≤ sramSize 2) :=
  ⟨57, 4, wscore, by decide +kernel⟩
def result_rxTailWrite (ck w : Nat) (s : State) : Bool := match exec (.rxTailWrite ck w) s with
  | .next t => decide (t.rf R.LCB_RX_TAIL ck = bitsOf w 16 16 ∧ (t.scSt ck).rx = (s.scSt ck).rx.filter fun (e : Nat × Pip) => (bitsOf w 16 16 + 65536 - s.rf R.LCB_RX_TAIL ck) % 65536 ≤ (e.1 + 65536 - s.rf R.LCB_RX_TAIL ck) % 65536)
  | _ => false
theorem test_rxTailWrite : result_rxTailWrite (57) (65536) ({ wscore with sc := [(57, { rx := [(0, { dest := 57, stream := 0, seq := 0, gen := 0 }), (1, { dest := 57, stream := 0, seq := 0, gen := 0 })] })] }) = true := by decide +kernel
/-- The hypotheses of the clause RX_TAIL_WRITE meet. -/
theorem witness_rxTailWrite : ∃ (ck w : Nat) (s : State), (s.scoreRuns ck = true) :=
  ⟨57, 65536, { wscore with sc := [(57, { rx := [(0, { dest := 57, stream := 0, seq := 0, gen := 0 }), (1, { dest := 57, stream := 0, seq := 0, gen := 0 })] })] }, by decide +kernel⟩
/-- The hypotheses of the clause MAILBOX meet. -/
theorem witness_mailbox : ∃ (ck w : Nat) (s : State), (s.isScore ck = true) ∧ (s.inReset (.core ck) = false) :=
  ⟨57, 4, State.reset, by decide +kernel⟩
/-- The hypotheses of the clause HOLLOW_LOAD meet. -/
theorem witness_hollowLoad : ∃ (ck pc a n : Nat) (s : State), (s.scoreRuns ck = true) :=
  ⟨57, 0x100, 0x400000000000, 8, wscore, by decide +kernel⟩
/-- The hypotheses of the clause FLIT_RECEIVE meet. -/
theorem witness_flitReceive : ∃ (r port out : Nat) (f : Flit) (s : State), (hasPort r port = true) ∧ (s.linkDead r port = false) ∧ (crc32c f.data = f.crc) ∧ ((if f.typ % 4 = 0 ∨ f.typ % 4 = 3 then outPortOf r f.data else Tbl.get? s.msh.route (vcKey r port (f.cls % 4))) = some out) ∧ (s.msh.bufs = []) ∧ (s.msh.owner = []) ∧ (s.canLeave r out (f.cls % 4) = true) :=
  ⟨33, 0, 5, { data := [], cls := 2, typ := 1, crc := crc32c [] }, { State.reset with msh := { State.reset.msh with route := [(vcKey 33 0 2, 5)] } }, by decide +kernel⟩
/-- The hypotheses of the clause KERNEL_STEP_FIRE meet. -/
theorem witness_kernelStepFire : ∃ (v a d n : Nat) (ops : List VOp) (s : State), (s.vMayFire v = true) ∧ ((s.vcSt v).step = none) ∧ (((s.vcSt v).standins = [] ∨ s.rb R.VCORE_STANDIN_EN v = false)) ∧ (firstReady ((s.vReady v).filter fun r => s.haveCredits v (kOutStream (s.kernWords v r.2.1)) (kNeeds (s.kernWords v r.2.1))) = some (a, d, n)) ∧ (kMalformed (s.kernWords v d) = false) :=
  ⟨46, 0, 0, 0, [.fill 0 5], { wkern2 with bufs := [(bufKey 46 0, { pips := [{ pip := { dest := 46, stream := 0, seq := 0, gen := 0 }, at_ := 0 }] })], chans := [{ core := 46, dest := 0, stream := 0, credits := 9 }] }, by decide +kernel⟩
/-- The hypotheses of the clause KV_WRITE meet. -/
theorem witness_kvWrite : ∃ (v slot pos off mode : Nat) (o : KvPart) (k : KStep) (s : State), ((s.vcSt v).step = some k) ∧ (pos / 64 < s.rf R.VCORE_PT_ENTRIES v) ∧ (ptValid ((s.kvPart v pos mode k o).2.2.ptEntry v slot (pos / 64)) = false) ∧ (pos % 64 = 0) ∧ (Tbl.getD (s.kvPool v).resv slot 0 ≠ 0) :=
  ⟨46, 0, 0, 0, 0, { regs := [0], n := 32, fmt := 1, head := 0, resid := none }, { entry := 0, words := [0, 0, 0, 0, 0, 0, 0, 0], pips := [], n := 0, firedAt := 0 }, { wkern2.wf R.VCORE_PAGE_UNITS 46 4 with vc := [(46, { step := some { entry := 0, words := [0, 0, 0, 0, 0, 0, 0, 0], pips := [], n := 0, firedAt := 0 } })], kv := [(46, { resv := [(0, 2)] })] }, by decide +kernel⟩
def result_kvReserve (v : Nat) (c : KvCmd) (rest : List KvCmd) (s : State) : Bool := match exec (.kvReserve v) s with
  | .next t => decide ((t.vcSt v).kvq = rest ∧ t.rf R.LCB_KV_RESULT c.score = 0 ∧ t.rf R.LCB_KV_GO c.score = 0 ∧ t.kvPool v = { s.kvPool v with resv := Tbl.putD (s.kvPool v).resv 0 c.slot (Tbl.getD (s.kvPool v).resv c.slot 0 + c.count) })
  | _ => false
theorem test_kvReserve : result_kvReserve (46) ({ score := 57, op := 0, slot := 1, slot2 := 0, count := 3 }) ([]) ({ wkern2 with vc := [(46, { kvq := [{ score := 57, op := 0, slot := 1, slot2 := 0, count := 3 }] })] }) = true := by decide +kernel
/-- The hypotheses of the clause KV_RESERVE meet. -/
theorem witness_kvReserve : ∃ (v : Nat) (c : KvCmd) (rest : List KvCmd) (s : State), ((s.vcSt v).kvq = c :: rest) ∧ (c.op = 0) ∧ (c.score ≠ 0xFFFF) ∧ ((s.vcSt v).step = none) ∧ (s.fireGated (.core v) = false) ∧ (s.inReset (.core v) = false) ∧ (s.kvSlotOk v c.slot = true) ∧ (c.count ≤ s.kvFree v - s.kvReserved v) :=
  ⟨46, { score := 57, op := 0, slot := 1, slot2 := 0, count := 3 }, [], { wkern2 with vc := [(46, { kvq := [{ score := 57, op := 0, slot := 1, slot2 := 0, count := 3 }] })] }, by decide +kernel⟩
/-- The hypotheses of the clause KV_RELEASE meet. -/
theorem witness_kvRelease : ∃ (v : Nat) (c : KvCmd) (rest : List KvCmd) (s : State), ((s.vcSt v).kvq = c :: rest) ∧ (c.op = 1) ∧ (c.score ≠ 0xFFFF) ∧ ((s.vcSt v).step = none) ∧ (s.fireGated (.core v) = false) ∧ (s.inReset (.core v) = false) ∧ (s.kvSlotOk v c.slot = true) :=
  ⟨46, { score := 57, op := 1, slot := 1, slot2 := 0, count := 3 }, [], { wkern2 with vc := [(46, { kvq := [{ score := 57, op := 1, slot := 1, slot2 := 0, count := 3 }] })], kv := [(46, { resv := [(1, 2)] })] }, by decide +kernel⟩
/-- The hypotheses of the clause KV_SHARE meet. -/
theorem witness_kvShare : ∃ (v : Nat) (c : KvCmd) (rest : List KvCmd) (s : State), ((s.vcSt v).kvq = c :: rest) ∧ (c.op = 2) ∧ (c.score ≠ 0xFFFF) ∧ ((s.vcSt v).step = none) ∧ (s.fireGated (.core v) = false) ∧ (s.inReset (.core v) = false) ∧ (s.kvSlotOk v c.slot = true) ∧ (s.kvSlotOk v c.slot2 = true) ∧ (c.count ≤ s.rf R.VCORE_PT_ENTRIES v) ∧ ((∀ p ∈ List.range c.count, ptValid (s.ptEntry v c.slot p) = true ∧ ptFill (s.ptEntry v c.slot p) = 64 ∧ (Tbl.getD (s.kvPool v).users (s.kvSlotOf v (ptAddr (s.ptEntry v c.slot p))) []).length < 255)) :=
  ⟨46, { score := 57, op := 2, slot := 1, slot2 := 0, count := 1 }, [], { wkern2.setPt 46 1 0 (ptWord 5 true false false 64) with vc := [(46, { kvq := [{ score := 57, op := 2, slot := 1, slot2 := 0, count := 1 }] })] }, by decide +kernel⟩
/-- The hypotheses of the clause STANDIN_REQUEST meet. -/
theorem witness_standinRequest : ∃ (v ck id n : Nat) (q : Standin) (s : State), (s.standinOf ck id n = some q) ∧ ((s.vcSt v).standins.length < 16) ∧ (s.fireGated (.core v) = false) ∧ (s.inReset (.core v) = false) ∧ ((∀ y ∈ s.vc, ∀ z ∈ y.2.standins, ¬(z.mcore = ck ∧ z.step = id ∧ z.eng = n))) :=
  ⟨46, 0, 1, 2, { mcore := 0, step := 1, eng := 2, els := [], xref := 0x7F, firstRow := 0, quarters := 0, wfmt := 0, addr := 0, fmt := 0, crc := 0 }, { wkern2 with mc := [(0, { steps := [wstep] })] }, by decide +kernel⟩
/-- The hypotheses of the clause STANDIN_DONE meet. -/
theorem witness_standinDone : ∃ (v : Nat) (q : Standin) (rest : List Standin) (s : State), ((s.vcSt v).standins = q :: rest) ∧ ((s.vcSt v).step = none) ∧ (s.rb R.VCORE_STANDIN_EN v = true) ∧ (s.coreFenced v = false) ∧ (s.inReset (.core v) = false) :=
  ⟨46, { mcore := 0, step := 0, eng := 0, els := [], xref := 0, firstRow := 0, quarters := 1, wfmt := 0, addr := 0, fmt := 0, crc := 0 }, [], { wkern2 with vc := [(46, { standins := [{ mcore := 0, step := 0, eng := 0, els := [], xref := 0, firstRow := 0, quarters := 1, wfmt := 0, addr := 0, fmt := 0, crc := 0 }] })] }, by decide +kernel⟩
/-- The hypotheses of the clause SAMPLE_TOKEN meet. -/
theorem witness_sampleToken : ∃ (v id pos off n d : Nat) (ds logits : List Nat) (bs : List (Nat × Bool)) (k : KStep) (r : Req) (cx : Nat × Ctx) (s : State), ((s.vcSt v).step = some k) ∧ (s.reqs.find? (fun r => r.id = id) = some r) ∧ (s.ctxs.find? (fun c => c.1 = r.ctx % 65536) = some cx) ∧ (kDests k.words = d :: ds) ∧ (bs = s.vGet v off (4 * n)) ∧ (logits = (chunks 4 n (bs.map (·.1))).map ofBytes) :=
  ⟨46, 7, 3, 0, 1, 5, [], [0], [(0, false), (0, false), (0, false), (0, false)], { entry := 0, words := [0, 0xFFFF0005, 0, 0], pips := [], n := 0, firedAt := 0 }, wreq, (0, wctx), { State.reset with reqs := [wreq], ctxs := [(0, wctx)], vc := [(46, { step := some { entry := 0, words := [0, 0xFFFF0005, 0, 0], pips := [], n := 0, firedAt := 0 } })] }, by decide +kernel⟩
/-- The hypotheses of the clause KERNEL_OVERRUN meet. -/
theorem witness_kernelOverrun : ∃ (v : Nat) (k : KStep) (s : State), ((s.vcSt v).step = some k) ∧ (k.overrun = false) ∧ (s.kernelLimit v k ≤ s.cycles v (s.elapsed - k.firedAt)) ∧ (s.gated (.core v) = false) ∧ (Tbl.get? s.md.hangAt (s.physOf v) = none) :=
  ⟨46, wkstep, { State.reset with elapsed := 1000000000, vc := [(46, { step := some wkstep })] }, by decide +kernel⟩
/-- The hypotheses of the clause HEARTBEAT_LOST meet. -/
theorem witness_heartbeatLost : ∃ (ck : Nat) (s : State), (s.isScore ck = true) ∧ (s.rb R.SCORE_RUN ck = true) ∧ (s.gated (.core ck) = false) ∧ ((s.scSt ck).beatAt + 1000 * s.rf R.SCORE_HEARTBEAT_LIMIT ck ≤ s.elapsed) ∧ (Tbl.get? s.md.hangAt (s.physOf ck) = none) :=
  ⟨57, { State.reset.wf R.SCORE_RUN 57 1 with elapsed := 1000000000 }, by decide +kernel⟩
/-- The hypotheses of the clause DOMAIN_RESET meet. -/
theorem witness_domainReset : ∃ (c : Cmd) (s : State), (s.Takes c) ∧ (c.bodyWords = 1) ∧ (c.f 0 4 12 = 0) ∧ (c.f 0 32 32 = 0) ∧ (c.b 0 3 = false) ∧ (c.b 0 2 = false) ∧ (c.f 0 0 2 ≠ 3) ∧ (targetOk (c.f 0 0 2) (c.f 0 16 16) = true) ∧ ((c.f 0 0 2 = 0 → s.isAbsent (c.f 0 16 16) = false)) ∧ (s.holding (Dom.of (c.f 0 0 2) (c.f 0 16 16)) = none) ∧ (s.modState ≠ msCores) :=
  ⟨{ qp := 3, bodyWords := 1, cmdId := 1, payload := 40, body := [0x50001] }, State.reset.wf R.QP_STATE 3 2, by decide +kernel⟩
/-- The hypotheses of the clause DRAIN_END meet. -/
theorem witness_drainEnd : ∃ (scope target : Nat) (x : ResetRec) (s : State), (scope < 3) ∧ (s.rst (Dom.of scope target) = some x) ∧ (x.phase = 1) ∧ (x.absorb = false) ∧ (x.startAt + 50000 ≤ s.elapsed) ∧ (s.genFree (Dom.of scope target) ≤ s.elapsed) :=
  ⟨0, 5, wrst (.core 5) 1 false, { State.reset with elapsed := 60000, rsts := [wrst (.core 5) 1 false] }, by decide +kernel⟩
/-- The hypotheses of the clause GEN_WAIT_END meet. -/
theorem witness_genWaitEnd : ∃ (scope target : Nat) (x : ResetRec) (s : State), (scope < 3) ∧ (s.rst (Dom.of scope target) = some x) ∧ (x.phase = 2) ∧ (s.genFree (Dom.of scope target) ≤ s.elapsed) :=
  ⟨0, 5, wrst (.core 5) 2 false, { State.reset with elapsed := 60000, rsts := [wrst (.core 5) 2 false] }, by decide +kernel⟩
/-- The hypotheses of the clause RESET_PHASE_END meet. -/
theorem witness_resetPhaseEnd : ∃ (scope target : Nat) (x : ResetRec) (s : State), (scope < 3) ∧ (s.rst (Dom.of scope target) = some x) ∧ (x.phase = 3) :=
  ⟨1, 5, wrst (.cluster 5) 3 false, { State.reset with elapsed := 60000, rsts := [wrst (.cluster 5) 3 false] }, by decide +kernel⟩
/-- The hypotheses of the clause RESET_RELEASE meet. -/
theorem witness_resetRelease : ∃ (c : Nat) (bad : List Nat) (x : ResetRec) (s : State), (s.rst (.cluster c) = some x) ∧ (x.phase = 4) :=
  ⟨5, [], wrst (.cluster 5) 4 false, { State.reset with elapsed := 60000, rsts := [wrst (.cluster 5) 4 false] }, by decide +kernel⟩
/-- The hypotheses of the clause STEP_WATCHDOG meet. -/
theorem witness_stepWatchdog : ∃ (ck id waited : Nat) (x : Step) (s : State), (s.stepOf ck id = some x) ∧ (x.firedAt + waited + 1000 * s.rf R.DIE_STEP_LIMIT_US 0 < s.elapsed) ∧ (x.done = false) ∧ (s.gated (.core ck) = false) ∧ (Tbl.get? s.md.hangAt (s.physOf ck) = none) :=
  ⟨0, 1, 0, wstep, { State.reset with elapsed := 1000000000, mc := [(0, { steps := [wstep] })] }, by decide +kernel⟩
/-- The hypotheses of the clause NOBUF_LIMIT meet. -/
theorem witness_nobufLimit : ∃ (ck dest stream t0 a d n : Nat) (c : Chan) (s : State), (s.chan ck dest stream = some c) ∧ (c.noBuf = some t0) ∧ (t0 + 1000000 * s.rf R.DIE_NOBUF_LIMIT_MS 0 ≤ s.elapsed) ∧ (firstReady (s.waitingOn ck dest stream) = some (a, d, n)) :=
  ⟨46, 0, 0, 0, 0, 0, 0, { core := 46, dest := 0, stream := 0, noBuf := some 0 }, { (((State.reset.sramWrite 46 0 8 (2 ^ 28 + 15 * 2 ^ 24 + 2 ^ 16)).sramWrite 46 8 8 0xFFFF0000).sramWrite 46 16 8 (100 * 2 ^ 18)).wf R.VCORE_KTAB_COUNT 46 1 with elapsed := 100000000, bufs := [(bufKey 46 0, { pips := [{ pip := { dest := 46, stream := 0, seq := 0, gen := 0 }, at_ := 0 }] })], chans := [{ core := 46, dest := 0, stream := 0, noBuf := some 0 }] }, by decide +kernel⟩
/-- The hypotheses of the clause RESET_ESCALATION meet. -/
theorem witness_resetEscalation : ∃ (ck : Nat) (x : ResetRec) (s : State), (s.rst (.core ck) = some x) ∧ (x.startAt + 200000 < s.elapsed) ∧ (s.rb R.DIE_ESCALATE 0 = true) :=
  ⟨5, wrst (.core 5) 3 true, { State.reset with elapsed := 1000000, rsts := [wrst (.core 5) 3 true], genAt := [((Dom.cluster 0).key, 1000000)] }, by decide +kernel⟩
/-- The hypotheses of the clause ROUTE_HOLD_END meet. -/
theorem witness_routeHoldEnd : ∃ (s : State), (s.rb R.TORUS_HOLDING 0 = true) ∧ (s.tor.holdDue ≤ s.elapsed) ∧ (s.tor.hold = []) ∧ (s.md.leave = 0) :=
  ⟨State.reset.wf R.TORUS_HOLDING 0 1, by decide +kernel⟩
/-- The hypotheses of the clause CORE_IMAGE_CHUNK meet. -/
theorem witness_coreImageChunk : ∃ (ck n : Nat) (data : List Nat) (s : State), (s.takesImage ck = true) ∧ (n < 128) :=
  ⟨57, 3, [1, 2], State.reset, by decide +kernel⟩
/-- The hypotheses of the clause CORE_IMAGE_END meet. -/
theorem witness_coreImageEnd : ∃ (ck count digest : Nat) (s : State), (s.takesImage ck = true) :=
  ⟨57, 3, 0, State.reset, by decide +kernel⟩
/-- The hypotheses of the clause CORE_IMAGE_REPORT meet. -/
theorem witness_coreImageReport : ∃ (ck : Nat) (l : List Nat) (s : State), ((s.scSt ck).imgReport = some (true, l)) :=
  ⟨57, [], { State.reset with sc := [(57, { imgReport := some (true, []) })] }, by decide +kernel⟩
/-- The hypotheses of the clause FW_CHUNK meet. -/
theorem witness_fwChunk : ∃ (f : Frame) (s : State), (s.oa.stage.isSome = true) ∧ (s.oa.stageHost = false) :=
  ⟨{ cls := 3, typ := 1, len := 2008, words := [0, 1, 2, 3, 4] }, { State.reset with oa := { stage := some (3, 1, 0) } }, by decide +kernel⟩
/-- The hypotheses of the clause FW_UPDATE_STAGE meet. -/
theorem witness_fwUpdateStage : ∃ (c : Cmd) (slot : Nat) (s : State), (s.Takes c) ∧ (c.bodyWords = 9) ∧ (c.f 0 0 2 = 0) ∧ (fwBad c 0 = false) ∧ (s.rb R.OASIS3_UPDATE_OPEN 0 = false) ∧ (s.fwSlot = some slot) :=
  ⟨wfw [0, 0, 4398046511104, 0, 0, 0, 0, 0, 0], 1, wqp, by decide +kernel⟩
/-- The hypotheses of the clause FW_STAGE_DONE meet. -/
theorem witness_fwStageDone : ∃ (version security bytes qp id slot : Nat) (sections : List Nat) (raise : Bool) (s : State), (s.oa.stage = some (qp, id, slot)) ∧ (s.oa.stageHost = false) ∧ (s.oa.stageNext = none) ∧ (s.oa.fwFrom = none) :=
  ⟨7, 2, 1024, 3, 1, 1, [11, 12], true, { wqp with oa := { stage := some (3, 1, 1) } }, by decide +kernel⟩
/-- The hypotheses of the clause FW_UPDATE_ACTIVATE meet. -/
theorem witness_fwUpdateActivate : ∃ (c : Cmd) (u : Nat) (s : State), (s.Takes c) ∧ (c.bodyWords = 9) ∧ (c.f 0 0 2 = 1) ∧ (fwBad c 1 = false) ∧ (s.rb R.OASIS3_UPDATE_OPEN 0 = false) ∧ (s.trialSlot = some u) ∧ (s.reqs = []) ∧ (s.thermalHold = false) :=
  ⟨wfw [1, 0, 0, 0, 0, 0, 0, 0, 0], 0, wqp.wf (slotStateF 0) 0 1, by decide +kernel⟩
/-- The hypotheses of the clause FW_UPDATE_COMMIT meet. -/
theorem witness_fwUpdateCommit : ∃ (c : Cmd) (s : State), (s.Takes c) ∧ (c.bodyWords = 9) ∧ (c.f 0 0 2 = 2) ∧ (fwBad c 2 = false) ∧ (s.rb R.OASIS3_UPDATE_OPEN 0 = false) ∧ (s.rb R.OASIS3_RUNNING_TRIAL 0 = true) :=
  ⟨wfw [2, 0, 0, 0, 0, 0, 0, 0, 0], wqp.wf R.OASIS3_RUNNING_TRIAL 0 1, by decide +kernel⟩
/-- The hypotheses of the clause FW_UPDATE_DISCARD meet. -/
theorem witness_fwUpdateDiscard : ∃ (c : Cmd) (u : Nat) (s : State), (s.Takes c) ∧ (c.bodyWords = 9) ∧ (c.f 0 0 2 = 3) ∧ (fwBad c 3 = false) ∧ (s.rb R.OASIS3_UPDATE_OPEN 0 = false) ∧ (s.trialSlot = some u) ∧ (s.rb R.OASIS3_RUNNING_TRIAL 0 = false) :=
  ⟨wfw [3, 0, 0, 0, 0, 0, 0, 0, 0], 0, wqp.wf (slotStateF 0) 0 1, by decide +kernel⟩
/-- The hypotheses of the clause HBM_READ meet. -/
theorem witness_hbmRead : ∃ (r : Requester) (id a n st off : Nat) (miss : Option Nat) (s : State), (hbmDecode s.interleave a = some (st, off)) ∧ (s.hbmAccepts a = true) ∧ ((s.sealed a = true → r.sealedOk = true)) ∧ (s.rb R.HBM_FAILED st = false) ∧ (s.hbmTag st (off / 64 * 64) = 0) ∧ ((match r with | .stream v => s.streamRoom v st | _ => true) = true) :=
  ⟨.master (.hostA 3), 3, 70, 8, 0, 70, none, hbmReady, by decide +kernel⟩
/-- The hypotheses of the clause HBM_READ meet. -/
theorem witness_hbmRead2 : ∃ (r : Requester) (id a n st off : Nat) (miss : Option Nat) (s : State), (hbmDecode s.interleave a = some (st, off)) ∧ (s.hbmAccepts a = true) ∧ ((s.sealed a = true → r.sealedOk = true)) ∧ (s.rb R.HBM_FAILED st = false) ∧ (s.hbmTag st (off / 64 * 64) = 0) ∧ ((match r with | .stream v => s.streamRoom v st | _ => true) = true) :=
  ⟨.stream 46, 3, 70, 8, 0, 70, none, hbmReady, by decide +kernel⟩
/-- The hypotheses of the clause HBM_WRITE meet. -/
theorem witness_hbmWrite : ∃ (r : Requester) (id a n v st off : Nat) (miss : Option Nat) (s : State), (hbmDecode s.interleave a = some (st, off)) ∧ (s.hbmAccepts a = true) ∧ ((s.sealed a = true → r.sealedOk = true)) ∧ (s.rb R.HBM_FAILED st = false) ∧ (s.hbmTag st (off / 64 * 64) = 0) :=
  ⟨.master .oasis, 1, 8, 8, 77, 0, 8, none, hbmReady, by decide +kernel⟩
/-- The hypotheses of the clause SCRUB_READ meet. -/
theorem witness_scrubRead : ∃ (st flips : Nat) (errs : List (Nat × Nat)) (miss : Option Nat) (s : State), (st < 12) ∧ (s.rb R.HBM1_SCRUB_EN st = true) ∧ (s.rb R.HBM_FAILED st = false) ∧ (s.rb R.HBM_SELF_REFRESH st = false) ∧ (s.rf R.HBM1_SCRUB_PTR st / 64 * 64 + 64 < 48 * 2 ^ 30) :=
  ⟨3, 0, [(1, 2)], none, State.reset, by decide +kernel⟩
def result_hbmTrain (st outcome : Nat) (s : State) : Bool := match exec (.hbmTrain st outcome) s with
  | .next t => decide (t.rf R.HBM_TRAINED st = 1 ∧ t.rf R.HBM_RATE st = outcome ∧ t.rf R.HBM_SELF_REFRESH st = 0)
  | _ => false
theorem test_hbmTrain : result_hbmTrain (3) (1) (State.reset) = true := by decide +kernel
/-- The hypotheses of the clause HBM_TRAIN meet. -/
theorem witness_hbmTrain : ∃ (st outcome : Nat) (s : State), (st < 12) ∧ (outcome < 2) :=
  ⟨3, 1, State.reset, by decide +kernel⟩
/-- The hypotheses of the clause HBM_FILL meet. -/
theorem witness_hbmFill : ∃ (st : Nat) (s : State), (st < 12) ∧ (st ∈ s.md.fillDue) :=
  ⟨3, { State.reset with md := { fillDue := [3] } }, by decide +kernel⟩
/-- The hypotheses of the clause CTX_OPEN meet. -/
theorem witness_ctxOpen : ∃ (c : Cmd) (i slot : Nat) (s : State), (s.Takes c) ∧ (c.bodyWords = 2) ∧ (s.ctxOpenCheck c = stOk) ∧ (s.freeCtx = some i) ∧ (s.freeSlot (c.f 0 0 6) = some slot) ∧ ((s.reserveAll slot (c.f 0 24 24 / 64) (s.var (c.f 0 0 6)).place.kvCores).isSome = true) ∧ (c.w 1 ≠ 0) :=
  ⟨wcmd [64 + 64 * 2 ^ 24, 9], 1, 1, wserve, by decide +kernel⟩
/-- The hypotheses of the clause CTX_CLOSE meet. -/
theorem witness_ctxClose : ∃ (c : Cmd) (x : Ctx) (s : State), (s.Takes c) ∧ (c.bodyWords = 1) ∧ (s.ctxOf (c.f 0 0 32) = some x) ∧ (x.req = none) :=
  ⟨wcmd [0x10000], wctx, wserve, by decide +kernel⟩
/-- The hypotheses of the clause SUBMIT meet. -/
theorem witness_submit : ∃ (c : Cmd) (x : Ctx) (s : State), (s.Takes c) ∧ (c.bodyWords = 27) ∧ (s.ctxOf (c.f 0 32 32) = some x) ∧ (s.submitCheck c = stAccepted) :=
  ⟨wcmd ([8 + 0x10000 * 2 ^ 32, 2 + 2 ^ 16 + 2 ^ 24 + 4 * 2 ^ 32, 0, 0, 2 ^ 32, 0, 0, 0, 0, 0, 0, 5] ++ List.replicate 15 0), wctx, wserve, by decide +kernel⟩
/-- The hypotheses of the clause CANCEL meet. -/
theorem witness_cancel : ∃ (c : Cmd) (r : Req) (x : Ctx) (s : State), (s.Takes c) ∧ (c.bodyWords = 1) ∧ (s.req (c.f 0 0 32) = some r) ∧ (r.fixed = none) ∧ (s.ctxOf r.ctx = some x) :=
  ⟨wcmd [7], { wreq with ctx := 0x10000 }, { wctx with req := some 7 }, wopen wreq, by decide +kernel⟩
/-- The hypotheses of the clause INQUIRE meet. -/
theorem witness_inquire : ∃ (c : Cmd) (r : Req) (s : State), (s.Takes c) ∧ (c.bodyWords = 1) ∧ (c.f 0 33 7 = 0) ∧ (c.f 0 50 14 = 0) ∧ (c.b 0 32 = false) ∧ (s.req (c.f 0 0 32) = some r) :=
  ⟨wcmd [7], { wreq with ctx := 0x10000 }, wopen wreq, by decide +kernel⟩
/-- The hypotheses of the clause RING_SETUP meet. -/
theorem witness_ringSetup : ∃ (c : Cmd) (a : Nat) (s : State), (s.Takes c) ∧ (c.bodyWords = 3) ∧ (c.f 0 44 20 = 0) ∧ (c.f 2 32 32 = 0) ∧ (4 ≤ c.f 0 26 5) ∧ (c.f 0 26 5 ≤ 16) ∧ (c.w 1 % 64 = 0) ∧ (s.connected (c.f 0 16 10) = true) ∧ (c.b 0 31 = false) ∧ (s.rb R.RING_OPEN (c.f 0 0 16) = false) ∧ ((if s.rf R.RING_SHADOW_ADDR (c.f 0 0 16) ≠ 0 then some (s.rf R.RING_SHADOW_ADDR (c.f 0 0 16)) else s.newShadow) = some a) :=
  ⟨wcmd [5 + 3 * 2 ^ 16 + 6 * 2 ^ 26 + 2 ^ 32, 0x4000, 77], 0x1000, wserve.wf R.RING_SHADOW_ADDR 5 0x1000, by decide +kernel⟩
/-- The hypotheses of the clause VARIANT_RETIRE meet. -/
theorem witness_variantRetire : ∃ (c : Cmd) (s : State), (s.Takes c) ∧ (c.bodyWords = 1) ∧ (s.vstate (c.f 0 0 6) = vActive) :=
  ⟨wcmd [64], wopen wreq, by decide +kernel⟩
/-- The hypotheses of the clause PROMPT_READ_DONE meet. -/
theorem witness_promptReadDone : ∃ (id : Nat) (tokens : List Nat) (r : Req) (s : State), (s.req id = some r) ∧ (r.state = rqQueued) ∧ (r.promptRead = false) ∧ (((r.prompt ++ tokens).take r.promptCount).length = r.promptCount) ∧ ((∀ x ∈ (r.prompt ++ tokens).take r.promptCount, x < (s.var r.variant).place.vocab)) :=
  ⟨7, [6], { wreq with ctx := 0x10000, promptCount := 2, promptRead := false }, wopen { wreq with promptCount := 2, promptRead := false }, by decide +kernel⟩
/-- The hypotheses of the clause REQUEST_ACTIVATE meet. -/
theorem witness_requestActivate : ∃ (v slot : Nat) (r : Req) (x : Ctx) (s : State), (firstBy (fun r => (3 - r.cls, r.order, 0)) ((s.openOf v).filter fun r => r.state = rqQueued && r.promptRead && r.fixed.isNone) = some r) ∧ (s.freeActive v = some slot) ∧ (s.ctxOf r.ctx = some x) :=
  ⟨0, 0, { wreq with ctx := 0x10000 }, { wctx with req := some 7 }, wopen wreq, by decide +kernel⟩
/-- The hypotheses of the clause DISPATCH_TURN meet. -/
theorem witness_dispatchTurn : ∃ (v k : Nat) (r : Req) (x : Ctx) (s : State), (s.dutyZero = false) ∧ (s.nextTurn v = some (true, k)) ∧ ((s.openOf v).filter Req.decodable = [r]) ∧ (s.ctxOf r.ctx = some x) ∧ ((s.mayDebit r).1 = true) :=
  ⟨0, 1, { wreq with ctx := 0x10000, state := 2, decodeReady := true, sentPrompt := 1 }, { wctx with req := some 7 }, wopen { wreq with state := 2, decodeReady := true, sentPrompt := 1 }, by decide +kernel⟩
/-- The hypotheses of the clause STARVE_PROMOTION meet. -/
theorem witness_starvePromotion : ∃ (id : Nat) (r : Req) (s : State), (s.req id = some r) ∧ ((r.decodable || r.prefillable) = true) ∧ (r.promoted = false) ∧ (r.readyAt + s.rf R.SERVE1_STARVE_US 0 * 1000 ≤ s.elapsed) :=
  ⟨7, { wreq with ctx := 0x10000, state := 2, decodeReady := true, sentPrompt := 1 }, { wopen { wreq with state := 2, decodeReady := true, sentPrompt := 1 } with elapsed := 20000000 }, by decide +kernel⟩
/-- The hypotheses of the clause DEADLINE_EXPIRY meet. -/
theorem witness_deadlineExpiry : ∃ (id : Nat) (r : Req) (s : State), (s.req id = some r) ∧ (r.deadline ≠ 0) ∧ (r.deadline ≤ s.now) ∧ (r.fixed = none) :=
  ⟨7, { wreq with ctx := 0x10000, deadline := 4 }, { wopen { wreq with deadline := 4 } with now := 5 }, by decide +kernel⟩
/-- The hypotheses of the clause RING_DELIVER meet. -/
theorem witness_ringDeliver : ∃ (r : Nat) (s : State), (s.rb R.RING_BOUND r = true) ∧ (s.rb R.RING_STALLED r = false) ∧ (seqDist (s.ring r).deliver (s.rf R.RING_NEXT_SEQ r) ≠ 0) ∧ (s.connected (s.rf R.RING_QP r) = true) :=
  ⟨2, ((wserve.wf R.RING_NEXT_SEQ 2 3).wf R.RING_QP 2 3).wf R.RING_SHADOW_ADDR 2 0x1000, by decide +kernel⟩
def result_tailAck (r x : Nat) (l : List Nat) (s : State) : Bool := match exec (.tailAck r) s with
  | .next t => decide (t.rf R.RING_DELIVERED r = x % 2 ^ 32 ∧ (t.ring r).tails = l)
  | _ => false
theorem test_tailAck : result_tailAck (2) (5) ([6]) ({ State.reset with rings := [(2, { tails := [5, 6] })] }) = true := by decide +kernel
/-- The hypotheses of the clause TAIL_ACK meet. -/
theorem witness_tailAck : ∃ (r x : Nat) (l : List Nat) (s : State), ((s.ring r).tails = x :: l) :=
  ⟨2, 5, [6], { State.reset with rings := [(2, { tails := [5, 6] })] }, by decide +kernel⟩
/-- The hypotheses of the clause POSITION_DONE meet. -/
theorem witness_positionDone : ∃ (id token : Nat) (r : Req) (x : Ctx) (s : State), (s.req id = some r) ∧ (r.inflight ≠ 0) ∧ (r.broken = false) ∧ (r.fixed = none) ∧ (s.ctxOf r.ctx = some x) ∧ (r.promptCount ≤ r.steps + 1) ∧ (r.maxNew ≠ 0) ∧ (x.len + 1 < x.positions) :=
  ⟨7, 44, { wreq with ctx := 0x10000, state := 2, inflight := 1 }, { wctx with req := some 7 }, wopen { wreq with state := 2, inflight := 1 }, by decide +kernel⟩
/-- The hypotheses of the clause ABNORMAL_END meet. -/
theorem witness_abnormalEnd : ∃ (id status lost : Nat) (r : Req) (x : Ctx) (s : State), (6 ≤ status) ∧ (status ≤ 9) ∧ (s.req id = some r) ∧ (r.fixed = none) ∧ (r.state ≠ rqQueued) ∧ (s.ctxOf r.ctx = some x) :=
  ⟨7, 8, 1, { wreq with ctx := 0x10000, state := 2, inflight := 1 }, { wctx with req := some 7 }, wopen { wreq with state := 2, inflight := 1 }, by decide +kernel⟩
/-- The hypotheses of the clause DRAIN_LIMIT meet. -/
theorem witness_drainLimit : ∃ (v : Nat) (r : Req) (x : Ctx) (s : State), (s.vstate v = vDraining) ∧ (s.rf R.SERVE2_DRAIN_LIMIT_MS 0 v ≠ 0) ∧ ((s.var v).drainSince + s.rf R.SERVE2_DRAIN_LIMIT_MS 0 v * 1000000 ≤ s.elapsed) ∧ ((s.openOf v).filter (fun r => r.fixed.isNone) = [r]) ∧ (s.req r.id = some r) ∧ (r.state ≠ rqQueued) ∧ (s.ctxOf r.ctx = some x) :=
  ⟨0, { wreq with ctx := 0x10000, state := 2 }, { wctx with req := some 7 }, { (wopen { wreq with state := 2 }).wf R.SERVE2_STATE 0 4 with elapsed := 10000000000 }, by decide +kernel⟩
/-- The hypotheses of the clause DRAIN_SET_DISPATCH meet. -/
theorem witness_drainSetDispatch : ∃ (v : Nat) (s : State), (s.vstate v = vDraining) ∧ (s.openOf v = []) ∧ ((s.var v).drainSent = false) :=
  ⟨0, wserve.wf R.SERVE2_STATE 0 4, by decide +kernel⟩
/-- The hypotheses of the clause DRAIN_SET_ARRIVAL meet. -/
theorem witness_drainSetArrival : ∃ (v : Nat) (s : State), (s.vstate v = vDraining) ∧ ((s.var v).drainSent = true) :=
  ⟨0, (wserve.wf R.SERVE2_STATE 0 4).setVar 0 { drainSent := true }, by decide +kernel⟩
def result_commitToken (d : Doorbell) (l : List Doorbell) (r : Req) (s : State) : Bool := match exec .commitToken s with
  | .next t => decide (t.doorbells = l ∧ t.rf R.RING_NEXT_SEQ r.ring = seqNext (s.rf R.RING_NEXT_SEQ r.ring) ∧ t.rf R.RING_LAST_COMMIT_STAMP r.ring = s.now % 2 ^ 64 ∧ (t.req r.id).any fun q => q.tokens = r.tokens + 1 && q.lastToken = d.token && q.lastSeq = s.rf R.RING_NEXT_SEQ r.ring && q.decodeReady && q.readyAt = s.elapsed)
  | _ => false
theorem test_commitToken : result_commitToken ({ ring := 2, op := 0, token := 44, position := 3 }) ([]) ({ wreq with ctx := 0x10000, state := 2 }) ({ wopen { wreq with state := 2 } with doorbells := [{ ring := 2, op := 0, token := 44, position := 3 }] }) = true := by decide +kernel
/-- The hypotheses of the clause COMMIT_TOKEN meet. -/
theorem witness_commitToken : ∃ (d : Doorbell) (l : List Doorbell) (r : Req) (s : State), (s.doorbells = d :: l) ∧ (d.op = 0) ∧ (s.rb R.RING_OPEN d.ring = true) ∧ (s.req (s.rf R.RING_REQUEST_ID d.ring) = some r) ∧ (r.fixed = none) ∧ ((s.ring d.ring).waiting = []) ∧ (s.ringRoom d.ring 1 = true) :=
  ⟨{ ring := 2, op := 0, token := 44, position := 3 }, [], { wreq with ctx := 0x10000, state := 2 }, { wopen { wreq with state := 2 } with doorbells := [{ ring := 2, op := 0, token := 44, position := 3 }] }, by decide +kernel⟩
/-- The hypotheses of the clause COMMIT_END meet. -/
theorem witness_commitEnd : ∃ (d : Doorbell) (l : List Doorbell) (r : Req) (s : State), (s.doorbells = d :: l) ∧ (d.op = 1) ∧ (s.rb R.RING_OPEN d.ring = true) ∧ (s.req (s.rf R.RING_REQUEST_ID d.ring) = some r) ∧ (r.fixed = none) ∧ ((s.ring d.ring).waiting = []) ∧ (s.ringRoom d.ring 1 = true) :=
  ⟨{ ring := 2, op := 1, status := 2, reason := 2, ctxLen := 9 }, [], { wreq with ctx := 0x10000, state := 2 }, { wopen { wreq with state := 2 } with doorbells := [{ ring := 2, op := 1, status := 2, reason := 2, ctxLen := 9 }] }, by decide +kernel⟩
/-- The hypotheses of the clause COMMIT_TOKEN_END meet. -/
theorem witness_commitTokenEnd : ∃ (d : Doorbell) (l : List Doorbell) (r : Req) (s : State), (s.doorbells = d :: l) ∧ (d.op = 2) ∧ (s.rb R.RING_OPEN d.ring = true) ∧ (s.req (s.rf R.RING_REQUEST_ID d.ring) = some r) ∧ (r.fixed = none) ∧ ((s.ring d.ring).waiting = []) ∧ (s.ringRoom d.ring 2 = true) :=
  ⟨{ ring := 2, op := 2, status := 2, reason := 1, token := 44, position := 3, ctxLen := 9 }, [], { wreq with ctx := 0x10000, state := 2 }, { wopen { wreq with state := 2 } with doorbells := [{ ring := 2, op := 2, status := 2, reason := 1, token := 44, position := 3, ctxLen := 9 }] }, by decide +kernel⟩
/-- The hypotheses of the clause LANE_BAD meet. -/
theorem witness_laneBad : ∃ (d lane power : Nat) (s : State), (d < 6) ∧ (lane < 9) ∧ (s.linkUp d = true) ∧ ((s.rf R.BORSAN1_LANE_GOOD d).testBit lane = true) ∧ (4 ≤ (lanesOf (s.rf R.BORSAN1_LANE_GOOD d - 2 ^ lane)).length) :=
  ⟨2, 3, 7, wlink, by decide +kernel⟩
/-- The hypotheses of the clause LANE_FRAME meet. -/
theorem witness_laneFrame : ∃ (d active boundary : Nat) (s : State), (d < 6) ∧ (psnLe boundary (s.dirSt d).nextSeq = true) ∧ (s.linkUp d = true) ∧ (4 ≤ (lanesOf active).length) :=
  ⟨2, 127, 0, wlink, by decide +kernel⟩
/-- The hypotheses of the clause LANE_RETRAIN meet. -/
theorem witness_laneRetrain : ∃ (d lane since : Nat) (s : State), (d < 6) ∧ (s.linkUp d = true) ∧ (lane < 9) ∧ ((s.rf R.BORSAN1_LANE_GOOD d).testBit lane = false) ∧ ((s.rf R.BORSAN1_LANE_ENABLE d).testBit lane = true) ∧ (Tbl.get? (s.dirSt d).laneClean lane = some since) ∧ (since + 1000000000 ≤ s.elapsed) :=
  ⟨2, 3, 5, { (wlink.wf R.BORSAN1_LANE_GOOD 2 503).setDir 2 { laneClean := [(3, 5)] } with elapsed := 2000000000 }, by decide +kernel⟩
/-- The hypotheses of the clause FIBRE_REVERSED meet. -/
theorem witness_fibreReversed : ∃ (d tx rx : Nat) (s : State), (d < 6) :=
  ⟨2, 511, 0, State.reset, by decide +kernel⟩
/-- The hypotheses of the clause LINK_TRAINED meet. -/
theorem witness_linkTrained : ∃ (d lanes txCount : Nat) (pos power : List Nat) (s : State), (d < 6) ∧ (s.linkUp d = false) ∧ (s.rb R.BORSAN_LINK_EN d = true) ∧ (s.rb R.BORSAN_FIBRE_REVERSED d = false) ∧ (4 ≤ (lanesOf (lanes % 512 &&& s.rf R.BORSAN1_LANE_ENABLE d)).length) :=
  ⟨2, 511, 8, [], [], State.reset, by decide +kernel⟩
/-- The hypotheses of the clause BORSAN_FRAME_RECEIVE meet. -/
theorem witness_borsanFrameReceive : ∃ (d : Nat) (f : Frame) (fec : List (Nat × Nat × Nat)) (s : State), (d < 6) ∧ (s.linkUp d = true) ∧ (¬ (f.cls = 0 ∧ (f.typ = 1 ∨ f.typ = 2))) ∧ (f.seq = (s.dirSt d).expect) :=
  ⟨2, { cls := 0, typ := 3 }, [], wlink, by decide +kernel⟩
/-- The hypotheses of the clause BORSAN_ACK meet. -/
theorem witness_borsanAck : ∃ (d seq : Nat) (s : State), (d < 6) ∧ (s.linkUp d = true) :=
  ⟨2, 3, wlink.setDir 2 { retry := [({ cls := 1, typ := 0, seq := 3 }, 1), ({ cls := 1, typ := 0, seq := 4 }, 1)] }, by decide +kernel⟩
/-- The hypotheses of the clause BORSAN_NAK meet. -/
theorem witness_borsanNak : ∃ (d seq : Nat) (s : State), (d < 6) ∧ (s.linkUp d = true) ∧ ((∀ e ∈ (s.dirSt d).retry, psnLe seq e.1.seq = true → e.2 < 8)) :=
  ⟨2, 4, wlink.setDir 2 { retry := [({ cls := 1, typ := 0, seq := 3 }, 1), ({ cls := 1, typ := 0, seq := 4 }, 1)] }, by decide +kernel⟩
/-- The hypotheses of the clause TIME_FRAME_SEND meet. -/
theorem witness_timeFrameSend : ∃ (d : Nat) (s : State), (d < 6) ∧ (s.linkUp d = true) ∧ ((s.dirSt d).timeAt ≤ s.elapsed) :=
  ⟨2, { wlink with now := 9 }, by decide +kernel⟩
/-- The hypotheses of the clause TIME_FRAME_RECEIVE meet. -/
theorem witness_timeFrameReceive : ∃ (d peerT1 echoT1 t2 t3 : Nat) (s : State), (d < 6) ∧ (s.linkUp d = true) :=
  ⟨2, 100, 50, 70, 75, { wlink with now := 90 }, by decide +kernel⟩
/-- The hypotheses of the clause REMOTE_CREDIT_REQ meet. -/
theorem witness_remoteCreditReq : ∃ (u k : Nat) (f : Frame) (s : State), (u < 6) ∧ (s.findSlot u { module := f.src, producer := f.words.getD 0 0, pdest := f.words.getD 1 0, target := f.words.getD 2 0, stream := f.words.getD 3 0 } = some k) :=
  ⟨1, 4096, { cls := 1, typ := 1, src := 5, words := [1, 2, 3, 4, 5, 6] }, State.reset, by decide +kernel⟩
/-- The hypotheses of the clause REMOTE_CREDIT_GRANT meet. -/
theorem witness_remoteCreditGrant : ∃ (u : Nat) (f : Frame) (s : State), (u < 6) :=
  ⟨1, { cls := 1, typ := 2, words := [1, 2, 3, 4, 5] }, State.reset, by decide +kernel⟩
/-- The hypotheses of the clause REMOTE_CREDIT_RETURN meet. -/
theorem witness_remoteCreditReturn : ∃ (u : Nat) (f : Frame) (e : Nat × RSlot) (s : State), (u < 6) ∧ (e ∈ s.tor.slots) ∧ (Tbl.get? s.tor.slots e.1 = some e.2) ∧ (f.words.getD 4 0 < e.2.credits) ∧ ((s.tor.slots.find? fun x => x.1 / 4096 = u && x.2.module = f.src && x.2.producer = f.words.getD 1 0 && x.2.target = f.words.getD 2 0 && x.2.stream = f.words.getD 3 0) = some e) :=
  ⟨1, { cls := 1, typ := 3, src := 5, words := [1, 1, 3, 4, 5, 6] }, (4096, { module := 5, producer := 1, pdest := 2, target := 3, stream := 4, credits := 9 }), { State.reset with tor := { State.reset.tor with slots := [(4096, { module := 5, producer := 1, pdest := 2, target := 3, stream := 4, credits := 9 })] } }, by decide +kernel⟩
/-- The hypotheses of the clause NOTICE_FRAME meet. -/
theorem witness_noticeFrame : ∃ (f : Frame) (s : State), (f.dest = s.here) :=
  ⟨{ cls := 1, typ := 5, words := [0xFFFF, 3] }, State.reset, by decide +kernel⟩
/-- The hypotheses of the clause LSN_RECEIVE meet. -/
theorem witness_lsnReceive : ∃ (d : Nat) (l : Lsn) (s : State), (d < 6) ∧ (s.linkUp d = true) ∧ (s.lsnNewer l = true) ∧ (l.origin ≠ s.here) :=
  ⟨2, { origin := 5, dir := 1, state := 1, seq := 4, stamp := 99, lastSeq := 0 }, wlink, by decide +kernel⟩
/-- The hypotheses of the clause PEER_LSN_TIMEOUT meet. -/
theorem witness_peerLsnTimeout : ∃ (d since : Nat) (s : State), (d < 6) ∧ ((s.dirSt d).failedAt = some since) ∧ (since + 30000 ≤ s.elapsed) :=
  ⟨2, 5, { State.reset.setDir 2 { failedAt := some 5, held := [{ cls := 1, typ := 0, words := [1, 2, 3, 4] }], retry := [({ cls := 1, typ := 0, seq := 3, words := [1, 2, 3, 4] }, 1)] } with elapsed := 30005 }, by decide +kernel⟩
/-- The hypotheses of the clause ROUTE_SWITCH meet. -/
theorem witness_routeSwitch : ∃ (s : State), (s.rb R.TORUS_SWITCH_PENDING 0 = true) ∧ (s.rf R.TORUS_SWITCH_STAMP 0 ≤ s.now) :=
  ⟨State.reset.wf R.TORUS_SWITCH_PENDING 0 1, by decide +kernel⟩
/-- The hypotheses of the clause TOPOLOGY_LOAD meet. -/
theorem witness_topologyLoad : ∃ (c : Cmd) (s : State), (s.Takes c) ∧ (c.bodyWords = 9) ∧ (s.modState ≠ msLeaving) ∧ (s.modState ≠ msLeft) ∧ (planBad c = false) ∧ ((∀ d < 6, c.w (3 + d) ≠ s.rf R.MOD_SERIAL 0)) ∧ ((s.modState = msReady → c.f 0 0 30 = s.rf R.TORUS1_SIZE_POSITION 0 ∧ s.tor.root = some (c.f 0 36 15) ∧ c.f 2 0 32 = s.rf R.TORUS_ROUTE_SETTLE_US 0)) :=
  ⟨{ qp := 3, bodyWords := 9, cmdId := 1, payload := 32 + 8 * 9, body := [3 + 2 ^ 5 * 3 + 2 ^ 10 * 3, 5, 2000, 11, 12, 13, 14, 15, 16] }, State.reset.wf R.QP_STATE 3 2, by decide +kernel⟩
/-- The hypotheses of the clause HELLO_SEND meet. -/
theorem witness_helloSend : ∃ (d : Nat) (s : State), (d < 6) ∧ (s.linkUp d = true) ∧ (((s.dirSt d).helloAt ≤ s.elapsed ∨ (s.dirSt d).helloSent ≠ s.helloWords d)) :=
  ⟨2, wlink, by decide +kernel⟩
/-- The hypotheses of the clause HELLO_RECEIVE meet. -/
theorem witness_helloReceive : ∃ (d : Nat) (h : Hello) (s : State), (d < 6) ∧ (s.linkUp d = true) :=
  ⟨2, whello, wlink, by decide +kernel⟩
/-- The hypotheses of the clause AGREE_TIMEOUT meet. -/
theorem witness_agreeTimeout : ∃ (d : Nat) (s : State), (d < 6) ∧ (s.rb R.TORUS1_PLAN_LOADED 0 = true) ∧ (s.dstate d ≠ 5) :=
  ⟨2, (wlink.wf R.TORUS1_PLAN_LOADED 0 1).wf R.TORUS1_EXPECTED 0 6 2, by decide +kernel⟩
/-- The hypotheses of the clause COLLECTIVE_START meet. -/
theorem witness_collectiveStart : ∃ (i n : Nat) (s : State), (i < 64) ∧ (s.rf R.TORUS2_C_VALID 0 i = 1) ∧ ((s.coll i).running = false) ∧ (s.collOk i = true) ∧ (((List.range ((s.coll i).parts.length + 1)).find? fun n => decide (s.rf R.TORUS2_C_ELEMENTS 0 i / 32 ≤ (((s.coll i).parts.take n).map fun p => (partBlocks p).length).sum)) = some n) ∧ ((∀ p ∈ (s.coll i).parts.take n, p.2 = true ∨ partOk (decide (s.rf R.TORUS2_C_EXACT 0 i = 1)) (s.rf R.TORUS2_C_XC 0 i) p = true)) :=
  ⟨4, 1, wcoll.setColl 4 { parts := [wpart] }, by decide +kernel⟩
/-- The hypotheses of the clause CHUNK_RECEIVE meet. -/
theorem witness_chunkReceive : ∃ (u : Nat) (f : Frame) (c : CollSt) (s : State), (u < 6) ∧ (f.cls = 2) ∧ (f.typ = 0) ∧ (f.dest = s.here) ∧ (f.words.getD 0 0 < 64) ∧ (s.rf R.TORUS2_C_VALID 0 (f.words.getD 0 0) = 1) ∧ (s.rf R.TORUS2_C_OP 0 (f.words.getD 0 0) ≠ 3) ∧ (s.coll (f.words.getD 0 0) = c) ∧ (c.running = true) ∧ (f.words.getD 1 0 = c.hop) ∧ (c.early = []) ∧ (((f.words.getD 4 0).testBit 0 = true ∨ chunkFault (s.collFmt (f.words.getD 0 0)) (f.words.getD 3 0) ((f.words.getD 4 0).testBit 1) ((f.words.getD 4 0).testBit 2) ((f.words.drop 5).take (f.words.length - 6)) (f.words.getD (f.words.length - 1) 0) = 0)) ∧ (((s.hopNeeds (f.words.getD 0 0)).any fun b => !((List.range (f.words.getD 3 0)).map (f.words.getD 2 0 + ·) ++ c.got).contains b) = true) :=
  ⟨1, { cls := 2, typ := 0, dest := 0, src := 1, words := [4, 0, 0, 0, 1, 0] }, { running := true }, wcoll.setColl 4 { running := true }, by decide +kernel⟩
/-- The hypotheses of the clause CHUNK_RECEIVE meet. -/
theorem witness_chunkReceiveEarly : ∃ (u : Nat) (f : Frame) (s : State), (u < 6) ∧ (f.cls = 2) ∧ (f.typ = 0) ∧ (f.dest = s.here) ∧ (f.words.getD 0 0 < 64) ∧ (s.rf R.TORUS2_C_VALID 0 (f.words.getD 0 0) = 1) ∧ (s.rf R.TORUS2_C_OP 0 (f.words.getD 0 0) ≠ 3) ∧ (((s.coll (f.words.getD 0 0)).running = false ∨ f.words.getD 1 0 ≠ (s.coll (f.words.getD 0 0)).hop)) :=
  ⟨1, { cls := 2, typ := 0, dest := 0, src := 1, words := [4, 0, 0, 0, 1, 0] }, wcoll, by decide +kernel⟩
def result_chunkAck (u : Nat) (f : Frame) (s : State) : Bool := match exec (.chunkAck u f) s with
  | .next t => decide ((t.coll (f.words.getD 0 0)).kept = (s.coll (f.words.getD 0 0)).kept.filter fun k => !(k.1 = f.words.getD 1 0 && k.2.1 = f.words.getD 2 0))
  | _ => false
theorem test_chunkAck : result_chunkAck (1) ({ cls := 2, typ := 1, words := [4, 0, 0] }) (wcoll.setColl 4 { kept := [(0, 0, { cls := 2, typ := 0 }), (0, 1, { cls := 2, typ := 0 })] }) = true := by decide +kernel
/-- The hypotheses of the clause CHUNK_ACK meet. -/
theorem witness_chunkAck : ∃ (u : Nat) (f : Frame) (s : State), (u < 6) ∧ (f.words.getD 0 0 < 64) ∧ (f.dest = s.here) :=
  ⟨1, { cls := 2, typ := 1, words := [4, 0, 0] }, wcoll.setColl 4 { kept := [(0, 0, { cls := 2, typ := 0 }), (0, 1, { cls := 2, typ := 0 })] }, by decide +kernel⟩
/-- The hypotheses of the clause RESEND_REQ meet. -/
theorem witness_resendReq : ∃ (u : Nat) (f : Frame) (k : Nat × Nat × Frame) (s : State), (u < 6) ∧ (f.words.getD 0 0 < 64) ∧ (f.dest = s.here) ∧ (((s.coll (f.words.getD 0 0)).kept.find? fun k => k.1 = f.words.getD 1 0 && k.2.1 = f.words.getD 2 0) = some k) :=
  ⟨1, { cls := 2, typ := 2, words := [4, 0, 0] }, (0, 0, { cls := 2, typ := 0 }), wcoll.setColl 4 { kept := [(0, 0, { cls := 2, typ := 0 }), (0, 1, { cls := 2, typ := 0 })] }, by decide +kernel⟩
/-- The hypotheses of the clause COLLECTIVE_TIMEOUT meet. -/
theorem witness_collectiveTimeout : ∃ (i : Nat) (s : State), (i < 64) ∧ ((s.coll i).running = true) ∧ ((s.coll i).startAt + 1000 * s.rf R.TORUS2_COLL_TIMEOUT_US 0 < s.elapsed) :=
  ⟨4, { wcoll.setColl 4 { running := true } with elapsed := 20000000 }, by decide +kernel⟩
/-- The hypotheses of the clause MODEL_KEY_IMPORT meet. -/
theorem witness_modelKeyImport : ∃ (c : Cmd) (lowFirst : Bool) (s : State), (s.Takes c) ∧ (c.bodyWords = 31) ∧ (s.keyCheck c true = ksOk) ∧ (c.b 0 6 = false) :=
  ⟨wcmd2 ([3, 66] ++ List.replicate 29 0), true, whusk, by decide +kernel⟩
/-- The hypotheses of the clause MODEL_KEY_DELETE meet. -/
theorem witness_modelKeyDelete : ∃ (c : Cmd) (s : State), (s.Takes c) ∧ (c.bodyWords = 31) ∧ (s.keyCheck c false = ksOk) ∧ (c.b 0 6 = true) :=
  ⟨wcmd2 ([2 + 64, 55] ++ List.replicate 29 0), whusk, by decide +kernel⟩
/-- The hypotheses of the clause VARIANT_REGISTER meet. -/
theorem witness_variantRegister : ∃ (c : Cmd) (s : State), (s.Takes c) ∧ (c.bodyWords = 3) ∧ (s.vstate (c.f 0 0 6) = vEmpty) ∧ (s.man (c.f 0 0 6) = none) ∧ (Tbl.get? s.sec.opening (c.f 0 0 6) = none) ∧ (c.w 0 / 64 = 0) ∧ (224 ≤ c.f 2 32 32) ∧ (c.f 2 32 32 ≤ 2 ^ 24) :=
  ⟨wcmd2 [5, 0x1000, 7 + 1000 * 2 ^ 32], whusk, by decide +kernel⟩
/-- The hypotheses of the clause HUSK_FETCH meet. -/
theorem witness_huskFetch : ∃ (c : Cmd) (m : Manifest) (sh : Shard) (s : State), (s.Takes c) ∧ (c.bodyWords = 3) ∧ (s.man (c.f 0 0 6) = some m) ∧ (m.shards[c.f 0 6 17]? = some sh) ∧ (s.onChain m sh = true) ∧ ((s.shard (c.f 0 0 6) (c.f 0 6 17)).have_ = false) :=
  ⟨wcmd2 [4, 0x1000, 7], wmanifest, { target := 0, chain := 0, bytes := 272, digest := 0 }, whusk, by decide +kernel⟩
/-- The hypotheses of the clause VARIANT_UNREGISTER meet. -/
theorem witness_variantUnregister : ∃ (c : Cmd) (m : Manifest) (s : State), (s.Takes c) ∧ (c.bodyWords = 1) ∧ ((s.vstate (c.f 0 0 6) = vEmpty ∨ s.vstate (c.f 0 0 6) = vRegistered)) ∧ (s.man (c.f 0 0 6) = some m) :=
  ⟨wcmd2 [4], wmanifest, whusk.wf R.SERVE2_STATE 0 1 4, by decide +kernel⟩
/-- The hypotheses of the clause SHARD_FRAME meet. -/
theorem witness_shardFrame : ∃ (f : Frame) (v : Nat) (m : Manifest) (sh : Shard) (s : State), (s.variantOf (f.words.getD 0 0) (f.words.getD 1 0) = some v) ∧ (s.man v = some m) ∧ (m.shards[f.words.getD 2 0]? = some sh) ∧ (s.onChain m sh = true) ∧ ((s.shard v (f.words.getD 2 0)).have_ = false) ∧ ((s.shard v (f.words.getD 2 0)).fwd ≠ 3) :=
  ⟨{ cls := 3, typ := 0, src := 1, words := [9, 1, 0, 0, 272] }, 4, wmanifest, { target := 0, chain := 0, bytes := 272, digest := 0 }, whusk, by decide +kernel⟩
/-- The hypotheses of the clause BULK_ACK meet. -/
theorem witness_bulkAck : ∃ (f : Frame) (hollow : Bool) (v : Nat) (m : Manifest) (sh : Shard) (s : State), (s.variantOf (f.words.getD 0 0) (f.words.getD 1 0) = some v) ∧ (s.man v = some m) ∧ (m.shards[f.words.getD 2 0]? = some sh) ∧ (f.words.getD 3 0 = 0) ∧ ((s.shard v (f.words.getD 2 0)).fwd = 2) :=
  ⟨{ cls := 3, typ := 2, src := 1, words := [9, 1, 0, 0] }, false, 4, wmanifest, { target := 0, chain := 0, bytes := 272, digest := 0 }, whusk.setShard 4 0 { transit := true, fwd := 2 }, by decide +kernel⟩
/-- The hypotheses of the clause SHARD_TIMEOUT meet. -/
theorem witness_shardTimeout : ∃ (v i a u : Nat) (m : Manifest) (sh : Shard) (s : State), (s.man v = some m) ∧ (m.shards[i]? = some sh) ∧ (s.onChain m sh = true) ∧ (s.upstream m sh = some u) ∧ (v ≠ 64) ∧ ((s.shard v i).have_ = false) ∧ ((s.shard v i).fwd = 0) ∧ ((s.shard v i).retries < 2) ∧ ((s.shard v i).asked = some a) ∧ (a + State.shardTimeout s ≤ s.elapsed) :=
  ⟨4, 0, 5, 1, wmanifest, { target := 0, chain := 0, bytes := 272, digest := 0 }, { whusk.setShard 4 0 { asked := some 5 } with elapsed := 3000000000 }, by decide +kernel⟩
/-- The hypotheses of the clause NOT_REGISTERED_RESEND meet. -/
theorem witness_notRegisteredResend : ∃ (v i since n : Nat) (m : Manifest) (sh : Shard) (s : State), (v < 64) ∧ ((s.shard v i).again = some since) ∧ (s.nextOf (shardKey v i) = some (m, sh, n)) ∧ (since ≤ s.elapsed) ∧ ((s.shard v i).fwd = 2) :=
  ⟨4, 0, 5, 1, { wmanifest with chains := [[0, 1]], shards := [{ target := 1, chain := 0, bytes := 272, digest := 0 }] }, { target := 1, chain := 0, bytes := 272, digest := 0 }, { ({ whusk with sec := { whusk.sec with mans := [(4, { wmanifest with chains := [[0, 1]], shards := [{ target := 1, chain := 0, bytes := 272, digest := 0 }] })] } } : State).setShard 4 0 { again := some 5, fwd := 2 } with elapsed := 9 }, by decide +kernel⟩
/-- The hypotheses of the clause SPDM_GET_VERSION meet. -/
theorem witness_spdmGetVersion : ∃ (c : Cmd) (s : State), (s.Takes c) ∧ (attestLenOk c = true) ∧ (spdmCode c = 0x84) ∧ (s.rb R.KEYS_IDENTITY_READY 0 = true) ∧ (c.f 1 0 8 = 0x10) :=
  ⟨wcmd2 [4, 0x8410], whusk, by decide +kernel⟩
/-- The hypotheses of the clause SPDM_GET_CAPABILITIES meet. -/
theorem witness_spdmGetCapabilities : ∃ (c : Cmd) (rsp : List Nat) (s : State), (s.Takes c) ∧ (attestLenOk c = true) ∧ (spdmCode c = 0xE1) ∧ (s.rb R.KEYS_IDENTITY_READY 0 = true) ∧ (c.f 1 0 8 = 0x12) ∧ ((Tbl.getD s.sec.spdm c.qp {}).stage = 1) :=
  ⟨wcmd2 [4, 0xE112], [0, 0, 5], wspdm 1, by decide +kernel⟩
/-- The hypotheses of the clause SPDM_NEGOTIATE_ALGORITHMS meet. -/
theorem witness_spdmNegotiateAlgorithms : ∃ (c : Cmd) (rsp : List Nat) (s : State), (s.Takes c) ∧ (attestLenOk c = true) ∧ (spdmCode c = 0xE3) ∧ (s.rb R.KEYS_IDENTITY_READY 0 = true) ∧ (c.f 1 0 8 = 0x12) ∧ ((Tbl.getD s.sec.spdm c.qp {}).stage = 2) :=
  ⟨wcmd2 [4, 0xE312], [0, 0, 5], wspdm 2, by decide +kernel⟩
/-- The hypotheses of the clause SPDM_GET_DIGESTS meet. -/
theorem witness_spdmGetDigests : ∃ (c : Cmd) (rsp : List Nat) (s : State), (s.Takes c) ∧ (attestLenOk c = true) ∧ (spdmCode c = 0x81) ∧ (s.rb R.KEYS_IDENTITY_READY 0 = true) ∧ (c.f 1 0 8 = 0x12) ∧ ((Tbl.getD s.sec.spdm c.qp {}).stage = 3) :=
  ⟨wcmd2 [4, 0x8112], [], wspdm 3, by decide +kernel⟩
/-- The hypotheses of the clause SPDM_CHALLENGE meet. -/
theorem witness_spdmChallenge : ∃ (c : Cmd) (rsp : List Nat) (s : State), (s.Takes c) ∧ (attestLenOk c = true) ∧ (spdmCode c = 0x83) ∧ (s.rb R.KEYS_IDENTITY_READY 0 = true) ∧ (c.f 1 0 8 = 0x12) ∧ ((Tbl.getD s.sec.spdm c.qp {}).stage = 3) ∧ (c.f 1 16 8 = 0) :=
  ⟨wcmd2 [4, 0x8312], [0, 0, 5], wspdm 3, by decide +kernel⟩
/-- The hypotheses of the clause SPDM_UNSUPPORTED meet. -/
theorem witness_spdmUnsupported : ∃ (c : Cmd) (s : State), (s.Takes c) ∧ (attestLenOk c = true) ∧ (spdmCode c ≠ 0x84) ∧ (spdmResponse (spdmCode c) = 0x7F) ∧ (s.rb R.KEYS_IDENTITY_READY 0 = true) :=
  ⟨wcmd2 [4, 0x5012], whusk, by decide +kernel⟩
/-- The hypotheses of the clause SRAM_SCRUB meet. -/
theorem witness_sramScrub : ∃ (pc off n : Nat) (errs : List (Nat × Nat)) (s : State), (pc < 2048) ∧ (s.rb R.PCORE_FENCED pc = false) ∧ (off / 32 * 32 < sramSize (kindOfPhysical (pc % 64))) ∧ (((errs.filter fun e => e.1 < 36 && e.2 % 256 ≠ 0).map (·.1)).eraseDups.length = n) :=
  ⟨5, 70, 3, [(1, 4), (2, 5), (3, 6)], State.reset, by decide +kernel⟩
/-- The hypotheses of the clause SRAM_SCRUB meet. -/
theorem witness_sramScrub2 : ∃ (pc off n : Nat) (errs : List (Nat × Nat)) (s : State), (pc < 2048) ∧ (s.rb R.PCORE_FENCED pc = false) ∧ (off / 32 * 32 < sramSize (kindOfPhysical (pc % 64))) ∧ (((errs.filter fun e => e.1 < 36 && e.2 % 256 ≠ 0).map (·.1)).eraseDups.length = n) :=
  ⟨5, 70, 2, [(1, 4), (2, 5), (2, 6)], State.reset, by decide +kernel⟩
def result_evidence (pc code eng : Nat) (s : State) : Bool := match exec (.evidence pc code eng) s with
  | .next t => decide (t.rf R.PCORE_LAST_EVIDENCE_STAMP pc = s.now % 2 ^ 64 ∧ t.rf R.PCORE_LAST_EVIDENCE_KIND pc = code ∧ (0x10 ≤ code → s.rf R.PCORE_LEVEL pc ≠ 5 → t.rf R.PCORE_LEVEL pc = 5 ∧ t.sen.fences = s.sen.fences ++ [(pc, s.now)]) ∧ (code < 0x10 → s.rf R.PCORE_LEVEL pc = 0 → Tbl.get? s.sen.advAt pc = none → t.rf R.PCORE_LEVEL pc = 1))
  | _ => false
theorem test_evidence : result_evidence (5) (0x11) (2) (State.reset) = true := by decide +kernel
/-- The hypotheses of the clause EVIDENCE meet. -/
theorem witness_evidence : ∃ (pc code eng : Nat) (s : State), (pc < 2048) ∧ (code < 256) :=
  ⟨5, 0x11, 2, State.reset, by decide +kernel⟩
/-- The hypotheses of the clause EVIDENCE meet. -/
theorem witness_evidence2 : ∃ (pc code eng : Nat) (s : State), (pc < 2048) ∧ (code < 256) :=
  ⟨5, 0x5, 2, State.reset, by decide +kernel⟩
/-- The hypotheses of the clause RAIL_SLEW_END meet. -/
theorem witness_railSlewEnd : ∃ (p n due : Nat) (s : State), (p < 4) ∧ (Tbl.get? s.sen.rails p = some (n, due)) ∧ (due ≤ s.elapsed) ∧ (n ≤ 8) :=
  ⟨1, 3, 5, { State.reset with elapsed := 9, sen := { State.reset.sen with rails := [(1, (3, 5))] } }, by decide +kernel⟩
/-- The hypotheses of the clause ABSENT_NOTICE meet. -/
theorem witness_absentNotice : ∃ (stream h : Nat) (r : Req) (s : State), (s.headOf stream = some h) ∧ ((s.reqsOnStreams [stream] = [r] ∨ h ≠ s.here)) ∧ ((h = s.here → s.req r.id = some r ∧ r.fixed = none ∧ r.state ≠ rqQueued)) :=
  ⟨4100, 0, { wreq with ctx := 0x10000, state := 2, slot := some 4 }, { State.reset.wf R.SERVE2_STATE 0 3 with vars := [(0, { place := { vocab := 100, edges := [(5, 4096)] } })], reqs := [{ wreq with ctx := 0x10000, state := 2, slot := some 4 }], ctxs := [(0, { wctx with req := some 7 })] }, by decide +kernel⟩
/-- The hypotheses of the clause FENCE meet. -/
theorem witness_fence : ∃ (pc det : Nat) (l : List (Nat × Nat)) (s : State), (s.sen.fences = (pc, det) :: l) ∧ (s.msh.switching = none) ∧ (s.clk.hold = []) ∧ ((match s.logicalOf pc with | some ck => s.gated (.core ck) | none => s.gated (.cluster (pc / 64))) = false) ∧ (s.rb R.OASIS_RESTARTING 0 = false) ∧ (s.modState ≠ msCores) :=
  ⟨43, 7, [], { State.reset with sen := { State.reset.sen with fences := [(43, 7)] } }, by decide +kernel⟩
/-- The hypotheses of the clause COLD_START meet. -/
theorem witness_coldStart : ∃ (floating : Nat) (s : State), (s.md.powered = true) ∧ (s.md.started = false) :=
  ⟨0, State.reset, by decide +kernel⟩
/-- The hypotheses of the clause ROM_PHASE_END meet. -/
theorem witness_romPhaseEnd : ∃ (b : Boot) (s : State), (s.modState = msRom) ∧ (s.md.started = true) ∧ (b.ok0 = true) ∧ ((b.ok1 = true → b.equal = true)) ∧ (b.recordOk = true) ∧ (b.flashOk = true) ∧ (256 ≤ b.sizeMib) ∧ (s.rf R.OASIS3_SLOT_A_STATE 0 = 2) ∧ (s.rf R.OASIS3_SLOT_B_STATE 0 ≠ 1) ∧ (s.verifies b 0 = true) :=
  ⟨{}, { State.reset.wf R.OASIS3_SLOT_A_STATE 0 2 with md := { State.reset.md with started := true } }, by decide +kernel⟩
/-- The hypotheses of the clause PLATFORM_PHASE_END meet. -/
theorem witness_platformPhaseEnd : ∃ (bad : List (Nat × Nat)) (s : State), (s.modState = msPlatform) ∧ ((s.rb R.MOD1_BOOT_KIND 0 = true ∨ bad = [])) :=
  ⟨[], State.reset.wf R.MOD1_STATE 0 2, by decide +kernel⟩
/-- The hypotheses of the clause MEMORY_PHASE_END meet. -/
theorem witness_memoryPhaseEnd : ∃ (s : State), (s.modState = msMemory) ∧ ((s.rb R.MOD1_BOOT_KIND 0 = true ∨ ((List.range 12).all (fun n => s.rb R.HBM_TRAINED n) = true ∧ s.md.fillDue = []))) :=
  ⟨(State.reset.wf R.MOD1_STATE 0 3).wf R.MOD1_BOOT_KIND 0 1, by decide +kernel⟩
/-- The hypotheses of the clause LINKS_PHASE_END meet. -/
theorem witness_linksPhaseEnd : ∃ (s : State), (s.modState = msLinks) :=
  ⟨State.reset.wf R.MOD1_STATE 0 4, by decide +kernel⟩
/-- The hypotheses of the clause SELF_TEST_DONE meet. -/
theorem witness_selfTestDone : ∃ (pc engines : Nat) (sram logic ni : Bool) (sig : Nat) (s : State), (pc < 2048) ∧ (s.rb R.PCORE_FENCED pc = false) ∧ (s.modState = msCores) ∧ (s.rb R.MOD1_BOOT_KIND 0 = false) ∧ (s.rsts = []) :=
  ⟨5, 0, false, true, false, 77, State.reset.wf R.MOD1_STATE 0 5, by decide +kernel⟩
/-- The hypotheses of the clause SELF_TEST_DONE meet. -/
theorem witness_selfTestDone2 : ∃ (pc engines : Nat) (sram logic ni : Bool) (sig : Nat) (s : State), (pc < 2048) ∧ (s.rb R.PCORE_FENCED pc = false) ∧ (s.modState = msCores) ∧ (s.rb R.MOD1_BOOT_KIND 0 = false) ∧ (s.rsts = []) :=
  ⟨5, 0, false, false, false, 77, State.reset.wf R.MOD1_STATE 0 5, by decide +kernel⟩
/-- The hypotheses of the clause CORES_PHASE_END meet. -/
theorem witness_coresPhaseEnd : ∃ (bad : List Nat) (s : State), (s.modState = msCores) ∧ (s.sen.fences = []) ∧ (s.md.late = []) ∧ (s.rst .die = none) :=
  ⟨[], State.reset.wf R.MOD1_STATE 0 5, by decide +kernel⟩
/-- The hypotheses of the clause PHASE_TIMEOUT meet. -/
theorem witness_phaseTimeout : ∃ (p b : Nat) (s : State), (phaseBound s.modState false = some (p, b)) ∧ (s.rb R.MOD1_BOOT_KIND 0 = false) ∧ (s.md.started = true) ∧ (s.md.phaseAt + b < s.elapsed) :=
  ⟨1, 200000000, { State.reset.wf R.MOD1_STATE 0 2 with md := { State.reset.md with started := true }, elapsed := 200000001 }, by decide +kernel⟩
/-- The hypotheses of the clause MODULE_LEAVE meet. -/
theorem witness_moduleLeave : ∃ (c : Cmd) (s : State), (s.Takes c) ∧ (c.bodyWords = 1) ∧ (c.f 0 1 15 = 0) ∧ (c.f 0 32 32 = 0) ∧ (c.f 0 16 16 ≤ 3600) ∧ (c.b 0 0 = false) ∧ (s.modState = msReady) ∧ (s.md.leave = 0) :=
  ⟨{ qp := 3, bodyWords := 1, cmdId := 1, payload := 40, body := [5 * 65536] }, (State.reset.wf R.QP_STATE 3 2).wf R.MOD1_STATE 0 8, by decide +kernel⟩
/-- The hypotheses of the clause LEAVE_DRAIN_DONE meet. -/
theorem witness_leaveDrainDone : ∃ (s : State), (s.md.leave = 1) ∧ (s.reqs = []) ∧ (s.nothingBound = true) :=
  ⟨{ State.reset with md := { State.reset.md with leave := 1 } }, by decide +kernel⟩
/-- The hypotheses of the clause LEAVE_LIMIT meet. -/
theorem witness_leaveLimit : ∃ (s : State), (s.md.leave = 1) ∧ (s.md.leaveDue ≤ s.elapsed) :=
  ⟨{ State.reset with md := { State.reset.md with leave := 1, leaveDue := 5 }, elapsed := 5 }, by decide +kernel⟩
/-- The hypotheses of the clause CONVERSION_END meet. -/
theorem witness_conversionEnd : ∃ (i code n ch : Nat) (s : State), (i < 2) ∧ (((s.convSt i).running = some ch ∨ (s.convSt i).running = none ∧ s.rb R.MONCONV_RUN i = true ∧ (s.convSt i).entry = n ∧ n < (s.seqNow i).length ∧ (s.seqNow i).getD n 0 = ch)) :=
  ⟨1, 5000, 0, 0, (State.reset.wf R.MONCONV_SEQ_LEN 1 4).setConv 1 {}, by decide +kernel⟩
/-- The hypotheses of the clause CONVERSION_END meet. -/
theorem witness_conversionEnd2 : ∃ (i code n ch : Nat) (s : State), (i < 2) ∧ (((s.convSt i).running = some ch ∨ (s.convSt i).running = none ∧ s.rb R.MONCONV_RUN i = true ∧ (s.convSt i).entry = n ∧ n < (s.seqNow i).length ∧ (s.seqNow i).getD n 0 = ch)) :=
  ⟨1, 5000, 0, 49, State.reset.setConv 1 { running := some 49 }, by decide +kernel⟩
/-- The hypotheses of the clause OVERCURRENT_COMPARATOR meet. -/
theorem witness_overcurrentComparator : ∃ (i n ch : Nat) (s : State), (i < 2) ∧ (ch = (if n < 4 then 49 + n else 55)) ∧ ((s.convSt i).urgent.contains ch = false) ∧ ((s.convSt i).urgent.length < 4) :=
  ⟨1, 2, 51, State.reset, by decide +kernel⟩
/-- The hypotheses of the clause OVERCURRENT_COMPARATOR meet. -/
theorem witness_overcurrentComparator2 : ∃ (i n ch : Nat) (s : State), (i < 2) ∧ (ch = (if n < 4 then 49 + n else 55)) ∧ ((s.convSt i).urgent.contains ch = false) ∧ ((s.convSt i).urgent.length < 4) :=
  ⟨0, 7, 55, State.reset.setConv 0 { running := some 49 }, by decide +kernel⟩
/-- The hypotheses of the clause SLOW_ROUND meet. -/
theorem witness_slowRound : ∃ (thbm : List (Option Int)) (tele peak ohm late : Nat) (short : Bool) (s : State), (s.elapsed % 2000000 = 0) ∧ (s.sen.roundAt ≠ s.elapsed + 1) ∧ (s.rb R.OASIS_RESTARTING 0 = false) ∧ (s.md.powered = true) :=
  ⟨[], 0, 0, 5000, 2, false, { State.reset with elapsed := 2000000 }, by decide +kernel⟩
/-- The hypotheses of the clause THROTTLE_ESCALATE meet. -/
theorem witness_throttleEscalate : ∃ (p since : Nat) (s : State), (p < 4) ∧ (Tbl.get? s.sen.hotSince p = some since) ∧ (bitsOf (s.rf R.THERMAL_PART_LIMIT 0) (2 * p) 2 = 1) ∧ (since + 100000000 ≤ s.elapsed) :=
  ⟨2, 5, { State.reset.wf R.THERMAL_PART_LIMIT 0 16 with elapsed := 200000000, sen := { State.reset.sen with hotSince := [(2, 5)] } }, by decide +kernel⟩
/-- The hypotheses of the clause UNDERVOLTAGE_END meet. -/
theorem witness_undervoltageEnd : ∃ (p due : Nat) (s : State), (p < 4) ∧ (Tbl.get? s.sen.uvUntil p = some due) ∧ (due ≤ s.elapsed) :=
  ⟨2, 5, { State.reset with elapsed := 6, sen := { State.reset.sen with uvUntil := [(2, 5)] } }, by decide +kernel⟩
/-- The hypotheses of the clause POWER_CAP_SET meet. -/
theorem witness_powerCapSet : ∃ (c : Cmd) (s : State), (s.Takes c) ∧ (c.bodyWords = 1) ∧ (c.f 0 32 32 = 0) ∧ (capLegal (c.f 0 0 16) = true) ∧ ((c.f 0 16 16 ≠ 0 → c.f 0 16 16 % 2 = 0 ∧ 10 ≤ c.f 0 16 16 ∧ c.f 0 16 16 ≤ 1000)) :=
  ⟨wcmd1 (2000 + 50 * 65536), State.reset.wf R.QP_STATE 3 2, by decide +kernel⟩
/-- The hypotheses of the clause POWER_CAP_SET meet. -/
theorem witness_powerCapSet2 : ∃ (c : Cmd) (s : State), (s.Takes c) ∧ (c.bodyWords = 1) ∧ (c.f 0 32 32 = 0) ∧ (capLegal (c.f 0 0 16) = true) ∧ ((c.f 0 16 16 ≠ 0 → c.f 0 16 16 % 2 = 0 ∧ 10 ≤ c.f 0 16 16 ∧ c.f 0 16 16 ≤ 1000)) :=
  ⟨wcmd1 1200, State.reset.wf R.QP_STATE 3 2, by decide +kernel⟩
/-- The hypotheses of the clause SENSOR_QUERY meet. -/
theorem witness_sensorQuery : ∃ (c : Cmd) (s : State), (s.Takes c) ∧ (c.bodyWords = 1) ∧ (c.f 0 14 50 = 0) ∧ (c.f 0 7 7 ≠ 0) ∧ (c.f 0 0 7 + c.f 0 7 7 ≤ 76) :=
  ⟨wcmd1 (74 + 2 * 128), State.reset.wf R.QP_STATE 3 2, by decide +kernel⟩
/-- The hypotheses of the clause AGEING_MEASURE meet. -/
theorem witness_ageingMeasure : ∃ (counts : List (Nat × Nat)) (c a b n : Nat) (sum : Int) (s : State), (s.elapsed % 1000000000 = 0) ∧ (s.rb R.OASIS_RESTARTING 0 = false) ∧ (c < 32) ∧ (counts[c]? = some (a, b)) ∧ (b ≠ 0) ∧ (Tbl.getD s.sen.ageSums c (0, 0) = (sum, n)) ∧ (n < 86400) :=
  ⟨[(10, 20)], 0, 10, 20, 0, 0, State.reset, by decide +kernel⟩
/-- The hypotheses of the clause REPLAN meet. -/
theorem witness_replan : ∃ (s : State), ((s.sen.replanAt + s.rf R.AGEING_REPLAN_DAYS 0 * 86400 ≤ s.powered ∨ s.sen.replanOwed = true)) ∧ (s.replanHeld = false) :=
  ⟨{ State.reset with powered := 700000 }, by decide +kernel⟩
/-- The hypotheses of the clause SB_SETDASA meet. -/
theorem witness_sbSetdasa : ∃ (dyn : Nat) (s : State), (s.md.powered = true) :=
  ⟨9, State.reset, by decide +kernel⟩
/-- The hypotheses of the clause SB_ENTDAA meet. -/
theorem witness_sbEntdaa : ∃ (dyn : Nat) (s : State), (s.md.powered = true) ∧ (s.md.sbAddr = none) :=
  ⟨9, State.reset, by decide +kernel⟩
/-- The hypotheses of the clause SB_IDENT meet. -/
theorem witness_sbIdent : ∃ (pecOk early : Bool) (s : State), (s.md.powered = true) :=
  ⟨true, false, State.reset, by decide +kernel⟩
/-- The hypotheses of the clause SB_IDENT meet. -/
theorem witness_sbIdent2 : ∃ (pecOk early : Bool) (s : State), (s.md.powered = true) :=
  ⟨false, false, State.reset, by decide +kernel⟩
/-- The hypotheses of the clause SB_STATE meet. -/
theorem witness_sbState : ∃ (pecOk early : Bool) (s : State), (s.md.powered = true) :=
  ⟨true, false, { State.reset with md := { State.reset.md with alert := true } }, by decide +kernel⟩
/-- The hypotheses of the clause SB_STATE meet. -/
theorem witness_sbState2 : ∃ (pecOk early : Bool) (s : State), (s.md.powered = true) :=
  ⟨false, false, { State.reset with md := { State.reset.md with alert := true } }, by decide +kernel⟩
/-- The hypotheses of the clause SB_THERMAL meet. -/
theorem witness_sbThermal : ∃ (pecOk early : Bool) (s : State), (s.md.powered = true) :=
  ⟨true, false, State.reset, by decide +kernel⟩
/-- The hypotheses of the clause SB_THERMAL meet. -/
theorem witness_sbThermal2 : ∃ (pecOk early : Bool) (s : State), (s.md.powered = true) :=
  ⟨false, false, State.reset, by decide +kernel⟩
/-- The hypotheses of the clause SB_POWER meet. -/
theorem witness_sbPower : ∃ (pecOk early : Bool) (s : State), (s.md.powered = true) :=
  ⟨true, false, State.reset, by decide +kernel⟩
/-- The hypotheses of the clause SB_POWER meet. -/
theorem witness_sbPower2 : ∃ (pecOk early : Bool) (s : State), (s.md.powered = true) :=
  ⟨false, false, State.reset, by decide +kernel⟩
/-- The hypotheses of the clause SB_BOARD_CAP meet. -/
theorem witness_sbBoardCap : ∃ (pecOk : Bool) (w : Nat) (s : State), (s.md.powered = true) ∧ (w < 65536) ∧ (capLegal w = true) :=
  ⟨true, 2000, State.reset, by decide +kernel⟩
/-- The hypotheses of the clause SB_BOARD_CAP meet. -/
theorem witness_sbBoardCap2 : ∃ (pecOk : Bool) (w : Nat) (s : State), (s.md.powered = true) ∧ (w < 65536) ∧ (capLegal w = true) :=
  ⟨false, 2000, State.reset, by decide +kernel⟩
/-- The hypotheses of the clause SB_FAULTS meet. -/
theorem witness_sbFaults : ∃ (pecOk early : Bool) (s : State), (s.md.powered = true) :=
  ⟨true, false, { State.reset with md := { State.reset.md with alert := true } }, by decide +kernel⟩
/-- The hypotheses of the clause SB_FAULTS meet. -/
theorem witness_sbFaults2 : ∃ (pecOk early : Bool) (s : State), (s.md.powered = true) :=
  ⟨false, false, { State.reset with md := { State.reset.md with alert := true } }, by decide +kernel⟩
/-- The hypotheses of the clause SB_FAULT_CLEAR meet. -/
theorem witness_sbFaultClear : ∃ (pecOk : Bool) (mask : Nat) (s : State), (s.md.powered = true) :=
  ⟨true, 5, (State.reset.wf R.BOARD_FAULTS 0 7).wf R.BOARD_FAULTS_NOW 0 1, by decide +kernel⟩
/-- The hypotheses of the clause SB_FAULT_CLEAR meet. -/
theorem witness_sbFaultClear2 : ∃ (pecOk : Bool) (mask : Nat) (s : State), (s.md.powered = true) :=
  ⟨false, 5, (State.reset.wf R.BOARD_FAULTS 0 7).wf R.BOARD_FAULTS_NOW 0 1, by decide +kernel⟩
/-- The hypotheses of the clause POWER_LOSS meet. -/
theorem witness_powerLoss : ∃ (s : State), (s.md.powered = true) :=
  ⟨State.reset.wf R.MOD1_STATE 0 8, by decide +kernel⟩
/-- The hypotheses of the clause INPUT_REVERSED meet. -/
theorem witness_inputReversed : ∃ (s : State), (s.md.powered = true) :=
  ⟨State.reset.wf R.MOD1_STATE 0 8, by decide +kernel⟩
/-- The hypotheses of the clause RESET_N_ASSERT meet. -/
theorem witness_resetNAssert : ∃ (s : State), (s.md.powered = true) ∧ (s.md.started = true) ∧ (s.thermalHold = false) :=
  ⟨{ State.reset.wf R.MOD1_STATE 0 8 with md := { State.reset.md with started := true } }, by decide +kernel⟩
def result_powerApplied (s : State) : Bool := match exec .powerApplied s with
  | .next t => decide (t.md.powered = true ∧ t.md.pwrgd = true ∧ t.md.reverseLatch = false ∧ t.rf R.OASIS1_POWER_ON 0 = (s.rf R.OASIS1_POWER_ON 0 + 1) % 2 ^ 12 ∧ (s.md.reverseLatch = true → t.rf R.BOARD_REVERSE_EVENTS 0 = min 65535 (s.rf R.BOARD_REVERSE_EVENTS 0 + 1)))
  | _ => false
theorem test_powerApplied : result_powerApplied ({ State.reset with md := { State.reset.md with powered := false, pwrgd := false, reverseLatch := true } }) = true := by decide +kernel
/-- The hypotheses of the clause POWER_APPLIED meet. -/
theorem witness_powerApplied : ∃ (s : State), (s.md.powered = false) :=
  ⟨{ State.reset with md := { State.reset.md with powered := false, pwrgd := false, reverseLatch := true } }, by decide +kernel⟩
/-- The hypotheses of the clause INPUT_OVERVOLTAGE meet. -/
theorem witness_inputOvervoltage : ∃ (s : State), (s.md.powered = true) :=
  ⟨State.reset.wf R.MOD1_STATE 0 8, by decide +kernel⟩
/-- The hypotheses of the clause RAIL_OUT_OF_REGULATION meet. -/
theorem witness_railOutOfRegulation : ∃ (s : State), (s.md.pwrgd = true) :=
  ⟨State.reset, by decide +kernel⟩

/-! ### Ill-formed terms that the checks of WellFormed refuse -/

theorem test_wf_engine : (Instr.pilotStale (45 * 16 + 32 * 1024)).wf = false ∧ (Instr.pilotStale (46 * 16)).wf = false := by decide
theorem test_wf_core : (Instr.pipSend 60).wf = false ∧ (Instr.pipSend 2048).wf = false := by decide
theorem test_wf_mcore : (Instr.holdTimeout 46).wf = false := by decide
theorem test_wf_vcore : (Instr.kvReserve 45).wf = false := by decide
theorem test_wf_score : (Instr.mtimecmpInterrupt 56).wf = false := by decide
theorem test_wf_master : (Instr.rcRead (.hostA 1024) 0).wf = false ∧ (Instr.rcRead (.hostB 1024) 0).wf = false ∧
    (Instr.rcRead (.score 0) 0).wf = false := by decide
theorem test_wf_word : (Instr.registerWrite .oasis 0 (2 ^ 64)).wf = false ∧ (Instr.rcRead .oasis (2 ^ 64)).wf = false := by decide
theorem test_wf_page_index : (Instr.intForce .oasis (2 ^ 28) 0).wf = false := by decide
theorem test_wf_cmd : (Instr.nop { qp := 1024, bodyWords := 0, cmdId := 1, payload := 32 }).wf = false ∧
    (Instr.nop { qp := 0, version := 256, bodyWords := 0, cmdId := 1, payload := 32 }).wf = false ∧
    (Instr.nop { qp := 0, bodyWords := 0, cmdId := 2 ^ 32, payload := 32 }).wf = false ∧
    (Instr.nop { qp := 0, bodyWords := 0, cmdId := 1, scale := 4, payload := 32 }).wf = false := by decide
theorem test_wf_bytes : (Instr.coreImageChunk 57 0 [256]).wf = false := by decide
theorem test_wf_words : (Instr.ptpManagement 0 0 [2 ^ 64]).wf = false := by decide
theorem test_wf_pip : (Instr.pipReceive { dest := 65536, stream := 0, seq := 0, gen := 0 } 0 false).wf = false ∧
    (Instr.pipReceive { dest := 0, stream := 0, seq := 0, gen := 256 } 0 false).wf = false ∧
    (Instr.pipReceive { dest := 0, stream := 0, seq := 0, gen := 0 } 2048 false).wf = false := by decide
theorem test_wf_frame : (Instr.fwChunk { cls := 4, typ := 0 }).wf = false ∧ (Instr.fwChunk { cls := 0, typ := 8 }).wf = false ∧
    (Instr.chunkAck 6 { cls := 0, typ := 0 }).wf = false := by decide
theorem test_wf_lsn : (Instr.lsnReceive 0 { origin := 0, dir := 6, state := 0, seq := 0, stamp := 0, lastSeq := 0 }).wf = false ∧
    (Instr.lsnReceive 0 { origin := 0, dir := 0, state := 4, seq := 0, stamp := 0, lastSeq := 0 }).wf = false := by decide
theorem test_wf_item : (Instr.itemDecrypted 64 0 0 0 0 true 0).wf = false ∧ (Instr.itemDecrypted 0 131072 0 0 0 true 0).wf = false := by decide
theorem test_wf_placement : (Instr.variantActivate { qp := 0, bodyWords := 1, cmdId := 1, payload := 40 }
    { items := [(0, 2, 0, 0, 0)] } 0).wf = false := by decide
theorem test_wf_flit : (Instr.flitReceive 0 0 [] { cls := 0, typ := 0, crc := 0 }).wf = false ∧
    (Instr.flitReceive 0 9 (leBytes 128 0) { cls := 0, typ := 0, crc := 0 }).wf = false := by decide
theorem test_wf_operation : (Instr.kernelStepEnd 46 [.tileRow 64 0]).wf = false ∧ (Instr.kernelStepEnd 46 [.arith 3 0 false 0 0 0 0]).wf = false ∧
    (Instr.kernelStepEnd 46 [.tileRow 63 31]).wf = true := by decide
theorem test_wf_requester : (Instr.hbmRead (.collective 6) 0 0 8 false [] 0 none).wf = false ∧
    (Instr.hbmRead (.stream 0) 0 0 8 false [] 0 none).wf = false ∧ (Instr.hbmRead (.program (46 * 16)) 0 0 8 false [] 0 none).wf = false := by
  decide
theorem test_wf_hbm_address : (Instr.hbmRead (.master .oasis) 0 (2 ^ 40) 8 false [] 0 none).wf = false := by decide
theorem test_wf_domain : (Instr.drainEnd 0 60).wf = false ∧ (Instr.drainEnd 1 32).wf = false ∧ (Instr.drainEnd 2 4).wf = false ∧
    (Instr.drainEnd 3 1).wf = false ∧ (Instr.drainEnd 4 0).wf = false := by decide
theorem test_wf_ranges : (Instr.linkUp 2).wf = false ∧ (Instr.cmRtu 1024).wf = false ∧ (Instr.leaseExpiry 256).wf = false ∧
    (Instr.helloSend 6).wf = false ∧ (Instr.ringDeliver 65536).wf = false ∧ (Instr.dispatchTurn 64).wf = false ∧
    (Instr.scrubRead 12 [] 0 none).wf = false ∧ (Instr.fence).wf = true := by decide

/-! ### Worked examples of the spec -/

/-- R38's example: the generation register of engine 17.3/e12. -/
theorem test_register_address : ({ blk := 0x12, inst := 17 * 1024 + 3 * 16 + 12 } : Page).addr + 0x88 = 0x20_12_443C_0088 := by decide

/-- R101's table. -/
theorem test_w4_table : ((List.range 16).map fun n => w4Digits ((n : Int) - 8)) =
    [(0, -2), (1, -2), (-2, -1), (-1, -1), (0, -1), (1, -1), (-2, 0), (-1, 0), (0, 0), (1, 0), (-2, 1), (-1, 1), (0, 1), (1, 1), (-2, 2), (-1, 2)] := by
  decide

/-! ### The hypotheses of the statements on the machine and on single rules meet -/

theorem witness_StepRunsFrontCommand : ∃ (c : Instr) (rest : List Instr) (s : State), s.pending = c :: rest :=
  ⟨.fence, [.elapsedTick], { State.reset with pending := [.fence, .elapsedTick] }, rfl⟩
theorem witness_EmptyQueueLetsTimePass : ∃ s : State, s.pending = [] ∧ s.held = [] := ⟨State.reset, rfl, rfl⟩
theorem witness_EmptyQueueLetsTimePass_still :
    State.reset.oa.slew = 0 ∧ State.reset.oa.slewFrac = 0 ∧ State.reset.rf R.OASIS2_RATE_PPB 0 = 0 := by decide +kernel
theorem witness_StepKeepsCanonical : ∃ s t : State, s.Inv ∧ step s = .next t :=
  ⟨State.reset, State.reset.tickTime, ⟨rfl, rfl, rfl⟩, rfl⟩
theorem witness_CommandLeavesQueue : ∃ (c : Instr) (s t : State), exec c s = .next t := ⟨.elapsedTick, State.reset, _, rfl⟩
theorem witness_BitRangesIncludeBothEnds : ∃ msb lsb : Nat, lsb ≤ msb := ⟨63, 0, by decide⟩
theorem witness_RegisterAddressFields : ∃ (p q : Page) (off odd : Nat), p.exists_ = true ∧ off < 4096 ∧ q.exists_ = false ∧ odd % 8 ≠ 0 :=
  ⟨{ blk := 0x12, inst := 17 * 1024 + 3 * 16 + 12 }, { blk := 0x12, inst := 736 }, 4088, 1, by decide +kernel⟩
theorem witness_ReadClearsRcFields : ∃ (m : Master) (p : Page) (off : Nat) (fk : Field × Nat) (s : State),
    s.Reads m p off ∧ 0x100 ≤ off ∧ fk ∈ wordFields p off ∧ fk.1.acc = .rc :=
  ⟨.hostA 3, hostPage 0, 0x130, (R.HOST_RX_DROPS, 0), State.reset.wf R.HOST_RX_DROPS 0 5, by decide +kernel⟩
theorem witness_WeightDigits : ∃ w : Int, -8 ≤ w ∧ w ≤ 7 := ⟨-8, by decide⟩

end Sys2Proof.Machine
end

section
/-! Bit fields of a word (R6). -/

namespace Sys2Proof

/-- A field of `len` bits that starts at bit `lo` holds the word's bits from `lo` on, and nothing from bit `len` up. -/
@[simp] theorem testBit_bitsOf (w lo len i : Nat) :
    (bitsOf w lo len).testBit i = (decide (i < len) && w.testBit (lo + i)) := by
  rw [bitsOf, Nat.testBit_mod_two_pow, Nat.testBit_shiftRight]

/-- Settles O8: the field [msb:lsb] is `msb - lsb + 1` bits long, so its last bit `msb - lsb` is the word's bit `msb`. -/
theorem bitRangesIncludeBothEnds : Obligations.BitRangesIncludeBothEnds := by
  intro w msb lsb i _
  simp only [testBit_bitsOf, Nat.lt_succ_iff]

end Sys2Proof
end

section
/-! The fields of a register address, and the accesses that name no word of a page (R36, R37, R59). -/

namespace Sys2Proof.Machine

/-- The arithmetic form of a bit field, in which `omega` reasons about the fields of an address. -/
theorem bitsOf_eq_div_mod (w lo len : Nat) : bitsOf w lo len = w / 2 ^ lo % 2 ^ len := by
  rw [bitsOf, Nat.shiftRight_eq_div_pow]

/-- R36: an address is the sum of its fields, each at its place: WINDOW, block type, unit, page and offset. -/
theorem Page.addr_add_eq (p : Page) (off : Nat) :
    p.addr + off = 0x20 * 2 ^ 40 + p.blk * 2 ^ 32 + p.inst * 2 ^ 16 + p.page * 2 ^ 12 + off := by
  unfold Page.addr Page.index
  omega

/-- R36: where every field fits its width, none reaches into another, so each is read back from its own bits. -/
theorem Page.addr_fields {p : Page} {off : Nat} (hblk : p.blk < 256) (hinst : p.inst < 65536) (hpage : p.page < 16) (hoff : off < 4096) :
    (p.addr + off) / 2 ^ 40 = 0x20 ∧ bitsOf (p.addr + off) 32 8 = p.blk ∧ bitsOf (p.addr + off) 16 16 = p.inst ∧
    bitsOf (p.addr + off) 12 4 = p.page ∧ bitsOf (p.addr + off) 0 12 = off := by
  simp only [bitsOf_eq_div_mod, Page.addr_add_eq]
  refine ⟨?window, ?block, ?unit, ?page, ?offset⟩ <;> omega

/-- R36: bits [39:12] of an implemented page's address are the index that names the page. -/
theorem Page.ofIndex_bitsOf_addr {p : Page} {off : Nat} (hp : p.exists_ = true) (hoff : off < 4096) :
    Page.ofIndex (bitsOf (p.addr + off) 12 28) = p := by
  obtain ⟨-, -, hidx, -, -⟩ := Page.addr_facts hp hoff
  rw [bitsOf_eq_div_mod]
  exact hidx

/-- R36, R59: a read at an index not implemented answers NO_PAGE and the value 0, and the failure is logged. -/
theorem State.readReg_of_not_exists (s : State) (m : Master) {p : Page} (off : Nat) (hp : p.exists_ = false) :
    s.readReg m p off = (arNoPage, 0, s.accessFail m p (p.addr + off) 0 arNoPage 0) := by
  simp [State.readReg, hp]

/-- R37, R59: a read of an implemented page off the multiples of 8 answers MISALIGNED and the value 0, and the failure is
captured and logged. -/
theorem State.readReg_of_misaligned (s : State) (m : Master) {p : Page} {off : Nat} (hp : p.exists_ = true) (ho : off % 8 ≠ 0) :
    s.readReg m p off = (arMisaligned, 0, s.accessFail m p (p.addr + off) 0 arMisaligned arMisaligned) := by
  simp [State.readReg, hp, ho]

/-- R36, R59: a write at an index not implemented answers NO_PAGE and stores nothing: the failure is logged. -/
theorem State.writeReg_of_not_exists (s : State) (m : Master) {p : Page} (off w : Nat) (hp : p.exists_ = false) :
    s.writeReg m p off w = (arNoPage, s.accessFail m p (p.addr + off) (w % 2 ^ 64) arNoPage arNoPage) := by
  simp [State.writeReg, hp]

/-- R37, R59: a write of an implemented page off the multiples of 8 answers MISALIGNED and stores nothing: the failure is
captured and logged. -/
theorem State.writeReg_of_misaligned (s : State) (m : Master) {p : Page} {off : Nat} (w : Nat) (hp : p.exists_ = true) (ho : off % 8 ≠ 0) :
    s.writeReg m p off w = (arMisaligned, s.accessFail m p (p.addr + off) (w % 2 ^ 64) arMisaligned arMisaligned) := by
  simp [State.writeReg, hp, ho]

/-- Settles O9: an implemented page's fields fit their widths, so its address gives each of them back; the first two checks of a read
and of a write are that the page is implemented and that the offset is a multiple of 8. -/
theorem registerAddressFields : Obligations.RegisterAddressFields := by
  refine ⟨fun p off hp hoff => ?fields, fun p off w m s hp => ?noPage, fun p off w m s hp ho => ?misaligned⟩
  case fields =>
    obtain ⟨hblk, hinst, hpage⟩ := Page.exists_bounds hp
    obtain ⟨hwindow, hb, hi, hq, ho⟩ := Page.addr_fields hblk hinst hpage hoff
    exact ⟨hwindow, hb, hi, hq, ho, Page.ofIndex_bitsOf_addr hp hoff⟩
  case noPage =>
    rw [s.readReg_of_not_exists m off hp, s.writeReg_of_not_exists m off w hp]
    exact ⟨rfl, rfl⟩
  case misaligned =>
    rw [s.readReg_of_misaligned m hp ho, s.writeReg_of_misaligned m w hp ho]
    exact ⟨rfl, rfl⟩

end Sys2Proof.Machine
end

section
/-! Every command and every step: an answer, the queue, the canonical form and the frame. -/

namespace Sys2Proof.Machine

/-- Every command answers a next state that keeps the queue of waiting commands, the canonical memories and the canonical register table:
each meaning does (Laws/Keeps). -/
theorem exec_keeps (c : Instr) (s : State) : ∃ t, exec c s = .next t ∧ s.Keeps t := by
  have h := s.keeps_refl
  cases c with
  | registerWrite m a w => exact execRegisterWrite_keeps m a w s h
  | rcRead m a => exact execRcRead_keeps m a s h
  | errRearm m pi w => exact execErrRearm_keeps m pi w s h
  | ctlDomainReset m pi w => exact execCtlDomainReset_keeps m pi w s h
  | intForce m pi w => exact execIntForce_keeps m pi w s h
  | regRead c => exact execRegRead_keeps c s h
  | regWrite c => exact execRegWrite_keeps c s h
  | bankCtlWrite m e w => exact execBankCtlWrite_keeps m e w s h
  | subStepEnd e noise => exact execSubStepEnd_keeps e noise s h
  | pilotSweepDue e b => exact execPilotSweepDue_keeps e b s h
  | pilotSubStep e b noise => exact execPilotSubStep_keeps e b noise s h
  | forcedSweep e b noise => exact execForcedSweep_keeps e b noise s h
  | pilotStale e => exact execPilotStale_keeps e s h
  | pilotNow m e w => exact execPilotNow_keeps m e w s h
  | progStart m e w => exact execProgStart_keeps m e w s h
  | progAbort m e w => exact execProgAbort_keeps m e w s h
  | deferExpiry e => exact execDeferExpiry_keeps e s h
  | rowPulseEnd e => exact execRowPulseEnd_keeps e s h
  | verifySubStep e devs noise => exact execVerifySubStep_keeps e devs noise s h
  | verifyDeadline e => exact execVerifyDeadline_keeps e s h
  | govPolicyWrite m e w => exact execGovPolicyWrite_keeps m e w s h
  | holdTimeout ck => exact execHoldTimeout_keeps ck s h
  | slowVcoreNamed ck => exact execSlowVcoreNamed_keeps ck s h
  | localFlip e => exact execLocalFlip_keeps e s h
  | epochBind v elsewhere pass => exact execEpochBind_keeps v elsewhere pass s h
  | pipReceive p pc redirected => exact execPipReceive_keeps p pc redirected s h
  | stepFire ck => exact execStepFire_keeps ck s h
  | postUnitDone ck => exact execPostUnitDone_keeps ck s h
  | pipSend ck => exact execPipSend_keeps ck s h
  | standinResult ck id n ok vals => exact execStandinResult_keeps ck id n ok vals s h
  | kernelStepFire k => exact execKernelStepFire_keeps k s h
  | kernelStepEnd v ops => exact execKernelStepEnd_keeps v ops s h
  | kernelOverrun v => exact execKernelOverrun_keeps v s h
  | kvWrite v slot pos off mode parts => exact execKvWrite_keeps v slot pos off mode parts s h
  | kvReserve v => exact execKvReserve_keeps v s h
  | kvRelease v => exact execKvRelease_keeps v s h
  | kvShare v => exact execKvShare_keeps v s h
  | standinRequest v ck id n => exact execStandinRequest_keeps v ck id n s h
  | standinDone v => exact execStandinDone_keeps v s h
  | sampleToken v id pos off n => exact execSampleToken_keeps v id pos off n s h
  | scoreHeartbeat ck w => exact execScoreHeartbeat_keeps ck w s h
  | heartbeatLost ck => exact execHeartbeatLost_keeps ck s h
  | mtimecmpInterrupt ck => exact execMtimecmpInterrupt_keeps ck s h
  | txSend ck w => exact execTxSend_keeps ck w s h
  | rxTailWrite ck w => exact execRxTailWrite_keeps ck w s h
  | mailbox ck w => exact execMailbox_keeps ck w s h
  | hollowLoad ck pc a n lost => exact execHollowLoad_keeps ck pc a n lost s h
  | registerResult ck pc a x => exact execRegisterResult_keeps ck pc a x s h
  | scoreRun ck w => exact execScoreRun_keeps ck w s h
  | coreImageChunk ck n data => exact execCoreImageChunk_keeps ck n data s h
  | coreImageEnd ck count digest => exact execCoreImageEnd_keeps ck count digest s h
  | coreImageReport ck => exact execCoreImageReport_keeps ck s h
  | flitReceive r port data side => exact execFlitReceive_keeps r port data side s h
  | creditRequest producer dest stream n => exact execCreditRequest_keeps producer dest stream n s h
  | creditGrant ck dest stream n g => exact execCreditGrant_keeps ck dest stream n g s h
  | creditReturn ck dest stream n g => exact execCreditReturn_keeps ck dest stream n g s h
  | creditRelease dest stream n gen => exact execCreditRelease_keeps dest stream n gen s h
  | creditIdle ck dest stream => exact execCreditIdle_keeps ck dest stream s h
  | noBufferRetry ck dest stream => exact execNoBufferRetry_keeps ck dest stream s h
  | responseReceive ck pc redirected reqGen words => exact execResponseReceive_keeps ck pc redirected reqGen words s h
  | mapEntryWrite m r b n0 w => exact execMapEntryWrite_keeps m r b n0 w s h
  | mapSwitch m r w => exact execMapSwitch_keeps m r w s h
  | clockHoldEnd half => exact execClockHoldEnd_keeps half s h
  | hbmRead r id a n lr errs flips miss => exact execHbmRead_keeps r id a n lr errs flips miss s h
  | hbmWrite r id a n v hollow kind errs flips miss => exact execHbmWrite_keeps r id a n v hollow kind errs flips miss s h
  | scrubRead st errs flips miss => exact execScrubRead_keeps st errs flips miss s h
  | hbmTrain st outcome => exact execHbmTrain_keeps st outcome s h
  | hbmFill st => exact execHbmFill_keeps st s h
  | interleaveWrite m w => exact execInterleaveWrite_keeps m w s h
  | sealedRangeWrite m limit w => exact execSealedRangeWrite_keeps m limit w s h
  | ctxOpen c => exact execCtxOpen_keeps c s h
  | ctxClose c => exact execCtxClose_keeps c s h
  | submit c => exact execSubmit_keeps c s h
  | cancel c => exact execCancel_keeps c s h
  | inquire c => exact execInquire_keeps c s h
  | ringSetup c => exact execRingSetup_keeps c s h
  | variantActivate c place elsewhere => exact execVariantActivate_keeps c place elsewhere s h
  | variantRetire c => exact execVariantRetire_keeps c s h
  | promptReadDone id ok tokens => exact execPromptReadDone_keeps id ok tokens s h
  | requestActivate v => exact execRequestActivate_keeps v s h
  | dispatchTurn v => exact execDispatchTurn_keeps v s h
  | starvePromotion id => exact execStarvePromotion_keeps id s h
  | tenantDebit m t w => exact execTenantDebit_keeps m t w s h
  | tenantEnable m t w => exact execTenantEnable_keeps m t w s h
  | tenantRateWrite m t w => exact execTenantRateWrite_keeps m t w s h
  | deadlineExpiry id => exact execDeadlineExpiry_keeps id s h
  | ringDeliver r => exact execRingDeliver_keeps r s h
  | tailAck r => exact execTailAck_keeps r s h
  | consumedWrite m r w => exact execConsumedWrite_keeps m r w s h
  | positionDone id hollow token => exact execPositionDone_keeps id hollow token s h
  | abnormalEnd id status lost => exact execAbnormalEnd_keeps id status lost s h
  | drainLimit v => exact execDrainLimit_keeps v s h
  | drainLimitWrite m v w => exact execDrainLimitWrite_keeps m v w s h
  | drainSetDispatch v => exact execDrainSetDispatch_keeps v s h
  | drainSetArrival v => exact execDrainSetArrival_keeps v s h
  | frameReceive port f => exact execFrameReceive_keeps port f s h
  | portEnable m p w => exact execPortEnable_keeps m p w s h
  | linkUp port => exact execLinkUp_keeps port s h
  | linkDownTimeout port => exact execLinkDownTimeout_keeps port s h
  | pfcXoff port occ => exact execPfcXoff_keeps port occ s h
  | pfcRepeat port occ => exact execPfcRepeat_keeps port occ s h
  | pfcXon port occ => exact execPfcXon_keeps port occ s h
  | pfcReceive port enable quanta => exact execPfcReceive_keeps port enable quanta s h
  | cnpReceive qp => exact execCnpReceive_keeps qp s h
  | rateIncrease qp => exact execRateIncrease_keeps qp s h
  | addressWrite m p j w => exact execAddressWrite_keeps m p j w s h
  | arpRequest port ip => exact execArpRequest_keeps port ip s h
  | neighbourSolicitation port hi lo => exact execNeighbourSolicitation_keeps port hi lo s h
  | lldpSend port => exact execLldpSend_keeps port s h
  | lldpReceive port chassis portId => exact execLldpReceive_keeps port chassis portId s h
  | inboundRdma qp => exact execInboundRdma_keeps qp s h
  | remoteNak qp => exact execRemoteNak_keeps qp s h
  | cmReq port r => exact execCmReq_keeps port r s h
  | cmRtu qp => exact execCmRtu_keeps qp s h
  | cmRej qp => exact execCmRej_keeps qp s h
  | cmDreq qp => exact execCmDreq_keeps qp s h
  | cmDrep qp => exact execCmDrep_keeps qp s h
  | qpClose m q => exact execQpClose_keeps m q s h
  | qpError qp cause => exact execQpError_keeps qp cause s h
  | rcAck qp kind psn => exact execRcAck_keeps qp kind psn s h
  | rcRetryTimeout qp => exact execRcRetryTimeout_keeps qp s h
  | commandTimeout qp id => exact execCommandTimeout_keeps qp id s h
  | unknownOpcode opcode c => exact execUnknownOpcode_keeps opcode c s h
  | nop c => exact execNop_keeps c s h
  | identify c => exact execIdentify_keeps c s h
  | semAcquire c => exact execSemAcquire_keeps c s h
  | semRelease c => exact execSemRelease_keeps c s h
  | semBreak c => exact execSemBreak_keeps c s h
  | semOpAcquire m n0 lease => exact execSemOpAcquire_keeps m n0 lease s h
  | semOpRelease m n0 => exact execSemOpRelease_keeps m n0 s h
  | semOpBreak m n0 => exact execSemOpBreak_keeps m n0 s h
  | leaseExpiry n0 => exact execLeaseExpiry_keeps n0 s h
  | ptpSync port domain seq twoStep => exact execPtpSync_keeps port domain seq twoStep s h
  | ptpFollowUp port domain seq t1 => exact execPtpFollowUp_keeps port domain seq t1 s h
  | ptpAnnounce port domain gm => exact execPtpAnnounce_keeps port domain gm s h
  | ptpDelayResp port domain seq t4 => exact execPtpDelayResp_keeps port domain seq t4 s h
  | ptpManagement port domain words => exact execPtpManagement_keeps port domain words s h
  | laneBad d lane power => exact execLaneBad_keeps d lane power s h
  | laneFrame d active boundary => exact execLaneFrame_keeps d active boundary s h
  | laneRetrain d lane ok => exact execLaneRetrain_keeps d lane ok s h
  | fibreReversed d txLight rxLight => exact execFibreReversed_keeps d txLight rxLight s h
  | borsanFrameReceive d f crcOk fec => exact execBorsanFrameReceive_keeps d f crcOk fec s h
  | borsanAck d seq => exact execBorsanAck_keeps d seq s h
  | borsanNak d seq => exact execBorsanNak_keeps d seq s h
  | timeFrameSend d => exact execTimeFrameSend_keeps d s h
  | timeFrameReceive d peerT1 echoT1 t2 t3 => exact execTimeFrameReceive_keeps d peerT1 echoT1 t2 t3 s h
  | remoteCreditReq u f => exact execRemoteCreditReq_keeps u f s h
  | remoteCreditGrant u f => exact execRemoteCreditGrant_keeps u f s h
  | remoteCreditReturn u f => exact execRemoteCreditReturn_keeps u f s h
  | noticeFrame f => exact execNoticeFrame_keeps f s h
  | lsnReceive d l => exact execLsnReceive_keeps d l s h
  | peerLsnTimeout d => exact execPeerLsnTimeout_keeps d s h
  | topologyLoad c => exact execTopologyLoad_keeps c s h
  | helloSend d => exact execHelloSend_keeps d s h
  | helloReceive d hello => exact execHelloReceive_keeps d hello s h
  | agreeTimeout d => exact execAgreeTimeout_keeps d s h
  | collectiveStart n0 => exact execCollectiveStart_keeps n0 s h
  | chunkReceive u f => exact execChunkReceive_keeps u f s h
  | chunkAck u f => exact execChunkAck_keeps u f s h
  | resendReq u f => exact execResendReq_keeps u f s h
  | collectiveTimeout n0 => exact execCollectiveTimeout_keeps n0 s h
  | linkEnable m d w => exact execLinkEnable_keeps m d w s h
  | modelKeyImport c lowFirst => exact execModelKeyImport_keeps c lowFirst s h
  | modelKeyDelete c => exact execModelKeyDelete_keeps c s h
  | variantRegister c => exact execVariantRegister_keeps c s h
  | huskFetch c => exact execHuskFetch_keeps c s h
  | variantUnregister c => exact execVariantUnregister_keeps c s h
  | shardFrame f => exact execShardFrame_keeps f s h
  | huskVerified v n0 fromHost copy => exact execHuskVerified_keeps v n0 fromHost copy s h
  | bulkAck f hollow => exact execBulkAck_keeps f hollow s h
  | shardTimeout v => exact execShardTimeout_keeps v s h
  | notRegisteredResend v n0 => exact execNotRegisteredResend_keeps v n0 s h
  | itemDecrypted v n0 n ext sram last unit => exact execItemDecrypted_keeps v n0 n ext sram last unit s h
  | fwChunk f => exact execFwChunk_keeps f s h
  | spdmGetVersion c => exact execSpdmGetVersion_keeps c s h
  | spdmGetCapabilities c rsp => exact execSpdmGetCapabilities_keeps c rsp s h
  | spdmNegotiateAlgorithms c rsp => exact execSpdmNegotiateAlgorithms_keeps c rsp s h
  | spdmGetDigests c rsp => exact execSpdmGetDigests_keeps c rsp s h
  | spdmGetCertificate c rsp => exact execSpdmGetCertificate_keeps c rsp s h
  | spdmChallenge c rsp => exact execSpdmChallenge_keeps c rsp s h
  | spdmGetMeasurements c rsp => exact execSpdmGetMeasurements_keeps c rsp s h
  | spdmUnsupported c => exact execSpdmUnsupported_keeps c s h
  | sramScrub pc off errs miss => exact execSramScrub_keeps pc off errs miss s h
  | reexecCheckDone ck id n ok vals => exact execReexecCheckDone_keeps ck id n ok vals s h
  | evidence pc code eng => exact execEvidence_keeps pc code eng s h
  | railSlewEnd p => exact execRailSlewEnd_keeps p s h
  | absentNotice stream => exact execAbsentNotice_keeps stream s h
  | domainReset c => exact execDomainReset_keeps c s h
  | drainEnd scope target => exact execDrainEnd_keeps scope target s h
  | resetRelease scope target badCores => exact execResetRelease_keeps scope target badCores s h
  | genWaitEnd scope target => exact execGenWaitEnd_keeps scope target s h
  | stepWatchdog ck id waited => exact execStepWatchdog_keeps ck id waited s h
  | nobufLimit ck dest stream => exact execNobufLimit_keeps ck dest stream s h
  | resetEscalation scope target => exact execResetEscalation_keeps scope target s h
  | coldStart floating => exact execColdStart_keeps floating s h
  | romPhaseEnd b => exact execRomPhaseEnd_keeps b s h
  | platformPhaseEnd bad => exact execPlatformPhaseEnd_keeps bad s h
  | selfTestDone pc engines sramBad logicBad niBad signature => exact execSelfTestDone_keeps pc engines sramBad logicBad niBad signature s h
  | coresPhaseEnd badCores => exact execCoresPhaseEnd_keeps badCores s h
  | moduleLeave c => exact execModuleLeave_keeps c s h
  | oasisRestartDone ok => exact execOasisRestartDone_keeps ok s h
  | heartbeat c => exact execHeartbeat_keeps c s h
  | heartbeatRestart c => exact execHeartbeatRestart_keeps c s h
  | heartbeatEchoTimeout qp id => exact execHeartbeatEchoTimeout_keeps qp id s h
  | timeSetStep c => exact execTimeSetStep_keeps c s h
  | timeSetSlew c => exact execTimeSetSlew_keeps c s h
  | eventSend qp => exact execEventSend_keeps qp s h
  | eventSubscribe c => exact execEventSubscribe_keeps c s h
  | logRead c => exact execLogRead_keeps c s h
  | statusQuery c => exact execStatusQuery_keeps c s h
  | fwUpdateStage c => exact execFwUpdateStage_keeps c s h
  | fwStageDone status version security raise image => exact execFwStageDone_keeps status version security raise image s h
  | fwUpdateActivate c => exact execFwUpdateActivate_keeps c s h
  | fwUpdateCommit c => exact execFwUpdateCommit_keeps c s h
  | fwUpdateDiscard c => exact execFwUpdateDiscard_keeps c s h
  | conversionEnd n0 code => exact execConversionEnd_keeps n0 code s h
  | overcurrentComparator n0 n => exact execOvercurrentComparator_keeps n0 n s h
  | urgentGo m n0 w => exact execUrgentGo_keeps m n0 w s h
  | slowRound thbm tele peak leakOhm leakShort late => exact execSlowRound_keeps thbm tele peak leakOhm leakShort late s h
  | throttleEscalate p => exact execThrottleEscalate_keeps p s h
  | undervoltageEnd p => exact execUndervoltageEnd_keeps p s h
  | powerCapSet c => exact execPowerCapSet_keeps c s h
  | sensorQuery c => exact execSensorQuery_keeps c s h
  | ageingMeasure counts => exact execAgeingMeasure_keeps counts s h
  | replanNow m w => exact execReplanNow_keeps m w s h
  | sbSetdasa static dyn => exact execSbSetdasa_keeps static dyn s h
  | sbEntdaa dyn => exact execSbEntdaa_keeps dyn s h
  | sbIdent pecOk early => exact execSbIdent_keeps pecOk early s h
  | sbState pecOk early => exact execSbState_keeps pecOk early s h
  | sbThermal pecOk early => exact execSbThermal_keeps pecOk early s h
  | sbPower pecOk early => exact execSbPower_keeps pecOk early s h
  | sbBoardCap pecOk watts => exact execSbBoardCap_keeps pecOk watts s h
  | sbFaults pecOk early => exact execSbFaults_keeps pecOk early s h
  | sbFaultClear pecOk mask => exact execSbFaultClear_keeps pecOk mask s h
  | linkLoss port => exact execLinkLoss_keeps port s h
  | linkTrained d lanes txCount positions powers => exact execLinkTrained_keeps d lanes txCount positions powers s h
  | resetPhaseEnd scope target => exact execResetPhaseEnd_keeps scope target s h
  | accessFault ck pc a n kind => exact execAccessFault_keeps ck pc a n kind s h
  | manifestReadDone v ok bytes addr room => exact execManifestReadDone_keeps v ok bytes addr room s h
  | pageInterrupt => exact execPageInterrupt_keeps s h
  | progDequeue => exact execProgDequeue_keeps s h
  | elapsedTick => exact execElapsedTick_keeps s h
  | elapsedCommit => exact execElapsedCommit_keeps s h
  | mapSwitchComplete => exact execMapSwitchComplete_keeps s h
  | commitToken => exact execCommitToken_keeps s h
  | commitEnd => exact execCommitEnd_keeps s h
  | commitTokenEnd => exact execCommitTokenEnd_keeps s h
  | routeSwitch => exact execRouteSwitch_keeps s h
  | routeHoldEnd => exact execRouteHoldEnd_keeps s h
  | fence => exact execFence_keeps s h
  | memoryPhaseEnd => exact execMemoryPhaseEnd_keeps s h
  | linksPhaseEnd => exact execLinksPhaseEnd_keeps s h
  | phaseTimeout => exact execPhaseTimeout_keeps s h
  | leaveDrainDone => exact execLeaveDrainDone_keeps s h
  | leaveLimit => exact execLeaveLimit_keeps s h
  | wdLoop => exact execWdLoop_keeps s h
  | wdRound => exact execWdRound_keeps s h
  | wdHost => exact execWdHost_keeps s h
  | oasisRestartTimeout => exact execOasisRestartTimeout_keeps s h
  | hbEcho => exact execHbEcho_keeps s h
  | hostSilent => exact execHostSilent_keeps s h
  | syncSourceLost => exact execSyncSourceLost_keeps s h
  | logEvent => exact execLogEvent_keeps s h
  | replan => exact execReplan_keeps s h
  | powerLoss => exact execPowerLoss_keeps s h
  | inputReversed => exact execInputReversed_keeps s h
  | resetNAssert => exact execResetNAssert_keeps s h
  | powerApplied => exact execPowerApplied_keeps s h
  | inputOvervoltage => exact execInputOvervoltage_keeps s h
  | railOutOfRegulation => exact execRailOutOfRegulation_keeps s h

/-- Every command answers a next state within the mask that `touches` names for it: each meaning does (Laws/Frame). -/
theorem exec_within (c : Instr) (s : State) : ∃ t, exec c s = .next t ∧ s.Within (touches c) t := by
  have h := s.frame_refl
  cases c with
  | registerWrite _ _ _ => exact execRegisterWrite_frame (by dsimp only [touches]; decide +kernel) (h _)
  | rcRead _ _ => exact execRcRead_frame (by dsimp only [touches]; decide +kernel) (h _)
  | errRearm _ _ _ => exact execErrRearm_frame (by dsimp only [touches]; decide +kernel) (h _)
  | ctlDomainReset _ _ _ => exact execCtlDomainReset_frame (by dsimp only [touches]; decide +kernel) (h _)
  | intForce _ _ _ => exact execIntForce_frame (by dsimp only [touches]; decide +kernel) (h _)
  | regRead _ => exact execRegRead_frame (by dsimp only [touches]; decide +kernel) (h _)
  | regWrite _ => exact execRegWrite_frame (by dsimp only [touches]; decide +kernel) (h _)
  | bankCtlWrite _ _ _ => exact execBankCtlWrite_frame (by dsimp only [touches]; decide +kernel) (h _)
  | subStepEnd _ _ => exact execSubStepEnd_frame (by dsimp only [touches]; decide +kernel) (h _)
  | pilotSweepDue _ _ => exact execPilotSweepDue_frame (by dsimp only [touches]; decide +kernel) (h _)
  | pilotSubStep _ _ _ => exact execPilotSubStep_frame (by dsimp only [touches]; decide +kernel) (h _)
  | forcedSweep _ _ _ => exact execForcedSweep_frame (by dsimp only [touches]; decide +kernel) (h _)
  | pilotStale _ => exact execPilotStale_frame (by dsimp only [touches]; decide +kernel) (h _)
  | pilotNow _ _ _ => exact execPilotNow_frame (by dsimp only [touches]; decide +kernel) (h _)
  | progStart _ _ _ => exact execProgStart_frame (by dsimp only [touches]; decide +kernel) (h _)
  | progAbort _ _ _ => exact execProgAbort_frame (by dsimp only [touches]; decide +kernel) (h _)
  | deferExpiry _ => exact execDeferExpiry_frame (by dsimp only [touches]; decide +kernel) (h _)
  | rowPulseEnd _ => exact execRowPulseEnd_frame (by dsimp only [touches]; decide +kernel) (h _)
  | verifySubStep _ _ _ => exact execVerifySubStep_frame (by dsimp only [touches]; decide +kernel) (h _)
  | verifyDeadline _ => exact execVerifyDeadline_frame (by dsimp only [touches]; decide +kernel) (h _)
  | govPolicyWrite _ _ _ => exact execGovPolicyWrite_frame (by dsimp only [touches]; decide +kernel) (h _)
  | holdTimeout _ => exact execHoldTimeout_frame (by dsimp only [touches]; decide +kernel) (h _)
  | slowVcoreNamed _ => exact execSlowVcoreNamed_frame (by dsimp only [touches]; decide +kernel) (h _)
  | localFlip _ => exact execLocalFlip_frame (by dsimp only [touches]; decide +kernel) (h _)
  | epochBind _ _ _ => exact execEpochBind_frame (by dsimp only [touches]; decide +kernel) (h _)
  | pipReceive _ _ _ => exact execPipReceive_frame (by dsimp only [touches]; decide +kernel) (h _)
  | stepFire _ => exact execStepFire_frame (by dsimp only [touches]; decide +kernel) (h _)
  | postUnitDone _ => exact execPostUnitDone_frame (by dsimp only [touches]; decide +kernel) (h _)
  | pipSend _ => exact execPipSend_frame (by dsimp only [touches]; decide +kernel) (h _)
  | standinResult _ _ _ _ _ => exact execStandinResult_frame (by dsimp only [touches]; decide +kernel) (h _)
  | kernelStepFire _ => exact execKernelStepFire_frame (by dsimp only [touches]; decide +kernel) (h _)
  | kernelStepEnd _ _ => exact execKernelStepEnd_frame (by dsimp only [touches]; decide +kernel) (h _)
  | kernelOverrun _ => exact execKernelOverrun_frame (by dsimp only [touches]; decide +kernel) (h _)
  | kvWrite _ _ _ _ _ _ => exact execKvWrite_frame (by dsimp only [touches]; decide +kernel) (h _)
  | kvReserve _ => exact execKvReserve_frame (by dsimp only [touches]; decide +kernel) (h _)
  | kvRelease _ => exact execKvRelease_frame (by dsimp only [touches]; decide +kernel) (h _)
  | kvShare _ => exact execKvShare_frame (by dsimp only [touches]; decide +kernel) (h _)
  | standinRequest _ _ _ _ => exact execStandinRequest_frame (by dsimp only [touches]; decide +kernel) (h _)
  | standinDone _ => exact execStandinDone_frame (by dsimp only [touches]; decide +kernel) (h _)
  | sampleToken _ _ _ _ _ => exact execSampleToken_frame (by dsimp only [touches]; decide +kernel) (h _)
  | scoreHeartbeat _ _ => exact execScoreHeartbeat_frame (by dsimp only [touches]; decide +kernel) (h _)
  | heartbeatLost _ => exact execHeartbeatLost_frame (by dsimp only [touches]; decide +kernel) (h _)
  | mtimecmpInterrupt _ => exact execMtimecmpInterrupt_frame (by dsimp only [touches]; decide +kernel) (h _)
  | txSend _ _ => exact execTxSend_frame (by dsimp only [touches]; decide +kernel) (h _)
  | rxTailWrite _ _ => exact execRxTailWrite_frame (by dsimp only [touches]; decide +kernel) (h _)
  | mailbox _ _ => exact execMailbox_frame (by dsimp only [touches]; decide +kernel) (h _)
  | hollowLoad _ _ _ _ _ => exact execHollowLoad_frame (by dsimp only [touches]; decide +kernel) (h _)
  | registerResult _ _ _ _ => exact execRegisterResult_frame (by dsimp only [touches]; decide +kernel) (h _)
  | scoreRun _ _ => exact execScoreRun_frame (by dsimp only [touches]; decide +kernel) (h _)
  | coreImageChunk _ _ _ => exact execCoreImageChunk_frame (by dsimp only [touches]; decide +kernel) (h _)
  | coreImageEnd _ _ _ => exact execCoreImageEnd_frame (by dsimp only [touches]; decide +kernel) (h _)
  | coreImageReport _ => exact execCoreImageReport_frame (by dsimp only [touches]; decide +kernel) (h _)
  | flitReceive _ _ _ _ => exact execFlitReceive_frame (by dsimp only [touches]; decide +kernel) (h _)
  | creditRequest _ _ _ _ => exact execCreditRequest_frame (by dsimp only [touches]; decide +kernel) (h _)
  | creditGrant _ _ _ _ _ => exact execCreditGrant_frame (by dsimp only [touches]; decide +kernel) (h _)
  | creditReturn _ _ _ _ _ => exact execCreditReturn_frame (by dsimp only [touches]; decide +kernel) (h _)
  | creditRelease _ _ _ _ => exact execCreditRelease_frame (by dsimp only [touches]; decide +kernel) (h _)
  | creditIdle _ _ _ => exact execCreditIdle_frame (by dsimp only [touches]; decide +kernel) (h _)
  | noBufferRetry _ _ _ => exact execNoBufferRetry_frame (by dsimp only [touches]; decide +kernel) (h _)
  | responseReceive _ _ _ _ _ => exact execResponseReceive_frame (by dsimp only [touches]; decide +kernel) (h _)
  | mapEntryWrite _ _ _ _ _ => exact execMapEntryWrite_frame (by dsimp only [touches]; decide +kernel) (h _)
  | mapSwitch _ _ _ => exact execMapSwitch_frame (by dsimp only [touches]; decide +kernel) (h _)
  | clockHoldEnd _ => exact execClockHoldEnd_frame (by dsimp only [touches]; decide +kernel) (h _)
  | hbmRead _ _ _ _ _ _ _ _ => exact execHbmRead_frame (by dsimp only [touches]; decide +kernel) (h _)
  | hbmWrite _ _ _ _ _ _ _ _ _ _ => exact execHbmWrite_frame (by dsimp only [touches]; decide +kernel) (h _)
  | scrubRead _ _ _ _ => exact execScrubRead_frame (by dsimp only [touches]; decide +kernel) (h _)
  | hbmTrain _ _ => exact execHbmTrain_frame (by dsimp only [touches]; decide +kernel) (h _)
  | hbmFill _ => exact execHbmFill_frame (by dsimp only [touches]; decide +kernel) (h _)
  | interleaveWrite _ _ => exact execInterleaveWrite_frame (by dsimp only [touches]; decide +kernel) (h _)
  | sealedRangeWrite _ _ _ => exact execSealedRangeWrite_frame (by dsimp only [touches]; decide +kernel) (h _)
  | ctxOpen _ => exact execCtxOpen_frame (by dsimp only [touches]; decide +kernel) (h _)
  | ctxClose _ => exact execCtxClose_frame (by dsimp only [touches]; decide +kernel) (h _)
  | submit _ => exact execSubmit_frame (by dsimp only [touches]; decide +kernel) (h _)
  | cancel _ => exact execCancel_frame (by dsimp only [touches]; decide +kernel) (h _)
  | inquire _ => exact execInquire_frame (by dsimp only [touches]; decide +kernel) (h _)
  | ringSetup _ => exact execRingSetup_frame (by dsimp only [touches]; decide +kernel) (h _)
  | variantActivate _ _ _ => exact execVariantActivate_frame (by dsimp only [touches]; decide +kernel) (h _)
  | variantRetire _ => exact execVariantRetire_frame (by dsimp only [touches]; decide +kernel) (h _)
  | promptReadDone _ _ _ => exact execPromptReadDone_frame (by dsimp only [touches]; decide +kernel) (h _)
  | requestActivate _ => exact execRequestActivate_frame (by dsimp only [touches]; decide +kernel) (h _)
  | dispatchTurn _ => exact execDispatchTurn_frame (by dsimp only [touches]; decide +kernel) (h _)
  | starvePromotion _ => exact execStarvePromotion_frame (by dsimp only [touches]; decide +kernel) (h _)
  | tenantDebit _ _ _ => exact execTenantDebit_frame (by dsimp only [touches]; decide +kernel) (h _)
  | tenantEnable _ _ _ => exact execTenantEnable_frame (by dsimp only [touches]; decide +kernel) (h _)
  | tenantRateWrite _ _ _ => exact execTenantRateWrite_frame (by dsimp only [touches]; decide +kernel) (h _)
  | deadlineExpiry _ => exact execDeadlineExpiry_frame (by dsimp only [touches]; decide +kernel) (h _)
  | ringDeliver _ => exact execRingDeliver_frame (by dsimp only [touches]; decide +kernel) (h _)
  | tailAck _ => exact execTailAck_frame (by dsimp only [touches]; decide +kernel) (h _)
  | consumedWrite _ _ _ => exact execConsumedWrite_frame (by dsimp only [touches]; decide +kernel) (h _)
  | positionDone _ _ _ => exact execPositionDone_frame (by dsimp only [touches]; decide +kernel) (h _)
  | abnormalEnd _ _ _ => exact execAbnormalEnd_frame (by dsimp only [touches]; decide +kernel) (h _)
  | drainLimit _ => exact execDrainLimit_frame (by dsimp only [touches]; decide +kernel) (h _)
  | drainLimitWrite _ _ _ => exact execDrainLimitWrite_frame (by dsimp only [touches]; decide +kernel) (h _)
  | drainSetDispatch _ => exact execDrainSetDispatch_frame (by dsimp only [touches]; decide +kernel) (h _)
  | drainSetArrival _ => exact execDrainSetArrival_frame (by dsimp only [touches]; decide +kernel) (h _)
  | frameReceive _ _ => exact execFrameReceive_frame (by dsimp only [touches]; decide +kernel) (h _)
  | portEnable _ _ _ => exact execPortEnable_frame (by dsimp only [touches]; decide +kernel) (h _)
  | linkUp _ => exact execLinkUp_frame (by dsimp only [touches]; decide +kernel) (h _)
  | linkDownTimeout _ => exact execLinkDownTimeout_frame (by dsimp only [touches]; decide +kernel) (h _)
  | pfcXoff _ _ => exact execPfcXoff_frame (by dsimp only [touches]; decide +kernel) (h _)
  | pfcRepeat _ _ => exact execPfcRepeat_frame (by dsimp only [touches]; decide +kernel) (h _)
  | pfcXon _ _ => exact execPfcXon_frame (by dsimp only [touches]; decide +kernel) (h _)
  | pfcReceive _ _ _ => exact execPfcReceive_frame (by dsimp only [touches]; decide +kernel) (h _)
  | cnpReceive _ => exact execCnpReceive_frame (by dsimp only [touches]; decide +kernel) (h _)
  | rateIncrease _ => exact execRateIncrease_frame (by dsimp only [touches]; decide +kernel) (h _)
  | addressWrite _ _ _ _ => exact execAddressWrite_frame (by dsimp only [touches]; decide +kernel) (h _)
  | arpRequest _ _ => exact execArpRequest_frame (by dsimp only [touches]; decide +kernel) (h _)
  | neighbourSolicitation _ _ _ => exact execNeighbourSolicitation_frame (by dsimp only [touches]; decide +kernel) (h _)
  | lldpSend _ => exact execLldpSend_frame (by dsimp only [touches]; decide +kernel) (h _)
  | lldpReceive _ _ _ => exact execLldpReceive_frame (by dsimp only [touches]; decide +kernel) (h _)
  | inboundRdma _ => exact execInboundRdma_frame (by dsimp only [touches]; decide +kernel) (h _)
  | remoteNak _ => exact execRemoteNak_frame (by dsimp only [touches]; decide +kernel) (h _)
  | cmReq _ _ => exact execCmReq_frame (by dsimp only [touches]; decide +kernel) (h _)
  | cmRtu _ => exact execCmRtu_frame (by dsimp only [touches]; decide +kernel) (h _)
  | cmRej _ => exact execCmRej_frame (by dsimp only [touches]; decide +kernel) (h _)
  | cmDreq _ => exact execCmDreq_frame (by dsimp only [touches]; decide +kernel) (h _)
  | cmDrep _ => exact execCmDrep_frame (by dsimp only [touches]; decide +kernel) (h _)
  | qpClose _ _ => exact execQpClose_frame (by dsimp only [touches]; decide +kernel) (h _)
  | qpError _ _ => exact execQpError_frame (by dsimp only [touches]; decide +kernel) (h _)
  | rcAck _ _ _ => exact execRcAck_frame (by dsimp only [touches]; decide +kernel) (h _)
  | rcRetryTimeout _ => exact execRcRetryTimeout_frame (by dsimp only [touches]; decide +kernel) (h _)
  | commandTimeout _ _ => exact execCommandTimeout_frame (by dsimp only [touches]; decide +kernel) (h _)
  | unknownOpcode _ _ => exact execUnknownOpcode_frame (by dsimp only [touches]; decide +kernel) (h _)
  | nop _ => exact execNop_frame (by dsimp only [touches]; decide +kernel) (h _)
  | identify _ => exact execIdentify_frame (by dsimp only [touches]; decide +kernel) (h _)
  | semAcquire _ => exact execSemAcquire_frame (by dsimp only [touches]; decide +kernel) (h _)
  | semRelease _ => exact execSemRelease_frame (by dsimp only [touches]; decide +kernel) (h _)
  | semBreak _ => exact execSemBreak_frame (by dsimp only [touches]; decide +kernel) (h _)
  | semOpAcquire _ _ _ => exact execSemOpAcquire_frame (by dsimp only [touches]; decide +kernel) (h _)
  | semOpRelease _ _ => exact execSemOpRelease_frame (by dsimp only [touches]; decide +kernel) (h _)
  | semOpBreak _ _ => exact execSemOpBreak_frame (by dsimp only [touches]; decide +kernel) (h _)
  | leaseExpiry _ => exact execLeaseExpiry_frame (by dsimp only [touches]; decide +kernel) (h _)
  | ptpSync _ _ _ _ => exact execPtpSync_frame (by dsimp only [touches]; decide +kernel) (h _)
  | ptpFollowUp _ _ _ _ => exact execPtpFollowUp_frame (by dsimp only [touches]; decide +kernel) (h _)
  | ptpAnnounce _ _ _ => exact execPtpAnnounce_frame (by dsimp only [touches]; decide +kernel) (h _)
  | ptpDelayResp _ _ _ _ => exact execPtpDelayResp_frame (by dsimp only [touches]; decide +kernel) (h _)
  | ptpManagement _ _ _ => exact execPtpManagement_frame (by dsimp only [touches]; decide +kernel) (h _)
  | laneBad _ _ _ => exact execLaneBad_frame (by dsimp only [touches]; decide +kernel) (h _)
  | laneFrame _ _ _ => exact execLaneFrame_frame (by dsimp only [touches]; decide +kernel) (h _)
  | laneRetrain _ _ _ => exact execLaneRetrain_frame (by dsimp only [touches]; decide +kernel) (h _)
  | fibreReversed _ _ _ => exact execFibreReversed_frame (by dsimp only [touches]; decide +kernel) (h _)
  | borsanFrameReceive _ _ _ _ => exact execBorsanFrameReceive_frame (by dsimp only [touches]; decide +kernel) (h _)
  | borsanAck _ _ => exact execBorsanAck_frame (by dsimp only [touches]; decide +kernel) (h _)
  | borsanNak _ _ => exact execBorsanNak_frame (by dsimp only [touches]; decide +kernel) (h _)
  | timeFrameSend _ => exact execTimeFrameSend_frame (by dsimp only [touches]; decide +kernel) (h _)
  | timeFrameReceive _ _ _ _ _ => exact execTimeFrameReceive_frame (by dsimp only [touches]; decide +kernel) (h _)
  | remoteCreditReq _ _ => exact execRemoteCreditReq_frame (by dsimp only [touches]; decide +kernel) (h _)
  | remoteCreditGrant _ _ => exact execRemoteCreditGrant_frame (by dsimp only [touches]; decide +kernel) (h _)
  | remoteCreditReturn _ _ => exact execRemoteCreditReturn_frame (by dsimp only [touches]; decide +kernel) (h _)
  | noticeFrame _ => exact execNoticeFrame_frame (by dsimp only [touches]; decide +kernel) (h _)
  | lsnReceive _ _ => exact execLsnReceive_frame (by dsimp only [touches]; decide +kernel) (h _)
  | peerLsnTimeout _ => exact execPeerLsnTimeout_frame (by dsimp only [touches]; decide +kernel) (h _)
  | topologyLoad _ => exact execTopologyLoad_frame (by dsimp only [touches]; decide +kernel) (h _)
  | helloSend _ => exact execHelloSend_frame (by dsimp only [touches]; decide +kernel) (h _)
  | helloReceive _ _ => exact execHelloReceive_frame (by dsimp only [touches]; decide +kernel) (h _)
  | agreeTimeout _ => exact execAgreeTimeout_frame (by dsimp only [touches]; decide +kernel) (h _)
  | collectiveStart _ => exact execCollectiveStart_frame (by dsimp only [touches]; decide +kernel) (h _)
  | chunkReceive _ _ => exact execChunkReceive_frame (by dsimp only [touches]; decide +kernel) (h _)
  | chunkAck _ _ => exact execChunkAck_frame (by dsimp only [touches]; decide +kernel) (h _)
  | resendReq _ _ => exact execResendReq_frame (by dsimp only [touches]; decide +kernel) (h _)
  | collectiveTimeout _ => exact execCollectiveTimeout_frame (by dsimp only [touches]; decide +kernel) (h _)
  | linkEnable _ _ _ => exact execLinkEnable_frame (by dsimp only [touches]; decide +kernel) (h _)
  | modelKeyImport _ _ => exact execModelKeyImport_frame (by dsimp only [touches]; decide +kernel) (h _)
  | modelKeyDelete _ => exact execModelKeyDelete_frame (by dsimp only [touches]; decide +kernel) (h _)
  | variantRegister _ => exact execVariantRegister_frame (by dsimp only [touches]; decide +kernel) (h _)
  | huskFetch _ => exact execHuskFetch_frame (by dsimp only [touches]; decide +kernel) (h _)
  | variantUnregister _ => exact execVariantUnregister_frame (by dsimp only [touches]; decide +kernel) (h _)
  | shardFrame _ => exact execShardFrame_frame (by dsimp only [touches]; decide +kernel) (h _)
  | huskVerified _ _ _ _ => exact execHuskVerified_frame (by dsimp only [touches]; decide +kernel) (h _)
  | bulkAck _ _ => exact execBulkAck_frame (by dsimp only [touches]; decide +kernel) (h _)
  | shardTimeout _ => exact execShardTimeout_frame (by dsimp only [touches]; decide +kernel) (h _)
  | notRegisteredResend _ _ => exact execNotRegisteredResend_frame (by dsimp only [touches]; decide +kernel) (h _)
  | itemDecrypted _ _ _ _ _ _ unit => exact execItemDecrypted_frame (_unit := unit) (by dsimp only [touches]; decide +kernel) (h _)
  | fwChunk _ => exact execFwChunk_frame (by dsimp only [touches]; decide +kernel) (h _)
  | spdmGetVersion _ => exact execSpdmGetVersion_frame (by dsimp only [touches]; decide +kernel) (h _)
  | spdmGetCapabilities _ _ => exact execSpdmGetCapabilities_frame (by dsimp only [touches]; decide +kernel) (h _)
  | spdmNegotiateAlgorithms _ _ => exact execSpdmNegotiateAlgorithms_frame (by dsimp only [touches]; decide +kernel) (h _)
  | spdmGetDigests _ _ => exact execSpdmGetDigests_frame (by dsimp only [touches]; decide +kernel) (h _)
  | spdmGetCertificate _ _ => exact execSpdmGetCertificate_frame (by dsimp only [touches]; decide +kernel) (h _)
  | spdmChallenge _ _ => exact execSpdmChallenge_frame (by dsimp only [touches]; decide +kernel) (h _)
  | spdmGetMeasurements _ _ => exact execSpdmGetMeasurements_frame (by dsimp only [touches]; decide +kernel) (h _)
  | spdmUnsupported _ => exact execSpdmUnsupported_frame (by dsimp only [touches]; decide +kernel) (h _)
  | sramScrub _ _ _ _ => exact execSramScrub_frame (by dsimp only [touches]; decide +kernel) (h _)
  | reexecCheckDone _ _ _ _ _ => exact execReexecCheckDone_frame (by dsimp only [touches]; decide +kernel) (h _)
  | evidence _ _ _ => exact execEvidence_frame (by dsimp only [touches]; decide +kernel) (h _)
  | railSlewEnd _ => exact execRailSlewEnd_frame (by dsimp only [touches]; decide +kernel) (h _)
  | absentNotice _ => exact execAbsentNotice_frame (by dsimp only [touches]; decide +kernel) (h _)
  | domainReset _ => exact execDomainReset_frame (by dsimp only [touches]; decide +kernel) (h _)
  | drainEnd _ _ => exact execDrainEnd_frame (by dsimp only [touches]; decide +kernel) (h _)
  | resetRelease _ _ _ => exact execResetRelease_frame (by dsimp only [touches]; decide +kernel) (h _)
  | genWaitEnd _ _ => exact execGenWaitEnd_frame (by dsimp only [touches]; decide +kernel) (h _)
  | stepWatchdog _ _ _ => exact execStepWatchdog_frame (by dsimp only [touches]; decide +kernel) (h _)
  | nobufLimit _ _ _ => exact execNobufLimit_frame (by dsimp only [touches]; decide +kernel) (h _)
  | resetEscalation _ _ => exact execResetEscalation_frame (by dsimp only [touches]; decide +kernel) (h _)
  | coldStart _ => exact execColdStart_frame (by dsimp only [touches]; decide +kernel) (h _)
  | romPhaseEnd _ => exact execRomPhaseEnd_frame (by dsimp only [touches]; decide +kernel) (h _)
  | platformPhaseEnd _ => exact execPlatformPhaseEnd_frame (by dsimp only [touches]; decide +kernel) (h _)
  | selfTestDone _ _ _ _ _ _ => exact execSelfTestDone_frame (by dsimp only [touches]; decide +kernel) (h _)
  | coresPhaseEnd _ => exact execCoresPhaseEnd_frame (by dsimp only [touches]; decide +kernel) (h _)
  | moduleLeave _ => exact execModuleLeave_frame (by dsimp only [touches]; decide +kernel) (h _)
  | oasisRestartDone _ => exact execOasisRestartDone_frame (by dsimp only [touches]; decide +kernel) (h _)
  | heartbeat _ => exact execHeartbeat_frame (by dsimp only [touches]; decide +kernel) (h _)
  | heartbeatRestart _ => exact execHeartbeatRestart_frame (by dsimp only [touches]; decide +kernel) (h _)
  | heartbeatEchoTimeout _ _ => exact execHeartbeatEchoTimeout_frame (by dsimp only [touches]; decide +kernel) (h _)
  | timeSetStep _ => exact execTimeSetStep_frame (by dsimp only [touches]; decide +kernel) (h _)
  | timeSetSlew _ => exact execTimeSetSlew_frame (by dsimp only [touches]; decide +kernel) (h _)
  | eventSend _ => exact execEventSend_frame (by dsimp only [touches]; decide +kernel) (h _)
  | eventSubscribe _ => exact execEventSubscribe_frame (by dsimp only [touches]; decide +kernel) (h _)
  | logRead _ => exact execLogRead_frame (by dsimp only [touches]; decide +kernel) (h _)
  | statusQuery _ => exact execStatusQuery_frame (by dsimp only [touches]; decide +kernel) (h _)
  | fwUpdateStage _ => exact execFwUpdateStage_frame (by dsimp only [touches]; decide +kernel) (h _)
  | fwStageDone _ _ _ _ _ => exact execFwStageDone_frame (by dsimp only [touches]; decide +kernel) (h _)
  | fwUpdateActivate _ => exact execFwUpdateActivate_frame (by dsimp only [touches]; decide +kernel) (h _)
  | fwUpdateCommit _ => exact execFwUpdateCommit_frame (by dsimp only [touches]; decide +kernel) (h _)
  | fwUpdateDiscard _ => exact execFwUpdateDiscard_frame (by dsimp only [touches]; decide +kernel) (h _)
  | conversionEnd _ _ => exact execConversionEnd_frame (by dsimp only [touches]; decide +kernel) (h _)
  | overcurrentComparator _ _ => exact execOvercurrentComparator_frame (by dsimp only [touches]; decide +kernel) (h _)
  | urgentGo _ _ _ => exact execUrgentGo_frame (by dsimp only [touches]; decide +kernel) (h _)
  | slowRound _ _ _ _ _ _ => exact execSlowRound_frame (by dsimp only [touches]; decide +kernel) (h _)
  | throttleEscalate _ => exact execThrottleEscalate_frame (by dsimp only [touches]; decide +kernel) (h _)
  | undervoltageEnd _ => exact execUndervoltageEnd_frame (by dsimp only [touches]; decide +kernel) (h _)
  | powerCapSet _ => exact execPowerCapSet_frame (by dsimp only [touches]; decide +kernel) (h _)
  | sensorQuery _ => exact execSensorQuery_frame (by dsimp only [touches]; decide +kernel) (h _)
  | ageingMeasure _ => exact execAgeingMeasure_frame (by dsimp only [touches]; decide +kernel) (h _)
  | replanNow _ _ => exact execReplanNow_frame (by dsimp only [touches]; decide +kernel) (h _)
  | sbSetdasa _ _ => exact execSbSetdasa_frame (by dsimp only [touches]; decide +kernel) (h _)
  | sbEntdaa _ => exact execSbEntdaa_frame (by dsimp only [touches]; decide +kernel) (h _)
  | sbIdent _ _ => exact execSbIdent_frame (by dsimp only [touches]; decide +kernel) (h _)
  | sbState _ _ => exact execSbState_frame (by dsimp only [touches]; decide +kernel) (h _)
  | sbThermal _ _ => exact execSbThermal_frame (by dsimp only [touches]; decide +kernel) (h _)
  | sbPower _ _ => exact execSbPower_frame (by dsimp only [touches]; decide +kernel) (h _)
  | sbBoardCap _ _ => exact execSbBoardCap_frame (by dsimp only [touches]; decide +kernel) (h _)
  | sbFaults _ _ => exact execSbFaults_frame (by dsimp only [touches]; decide +kernel) (h _)
  | sbFaultClear _ _ => exact execSbFaultClear_frame (by dsimp only [touches]; decide +kernel) (h _)
  | linkLoss _ => exact execLinkLoss_frame (by dsimp only [touches]; decide +kernel) (h _)
  | linkTrained _ _ _ _ _ => exact execLinkTrained_frame (by dsimp only [touches]; decide +kernel) (h _)
  | resetPhaseEnd _ _ => exact execResetPhaseEnd_frame (by dsimp only [touches]; decide +kernel) (h _)
  | accessFault _ _ _ _ _ => exact execAccessFault_frame (by dsimp only [touches]; decide +kernel) (h _)
  | manifestReadDone _ _ _ _ _ => exact execManifestReadDone_frame (by dsimp only [touches]; decide +kernel) (h _)
  | pageInterrupt => exact execPageInterrupt_frame (by dsimp only [touches]; decide +kernel) (h _)
  | progDequeue => exact execProgDequeue_frame (by dsimp only [touches]; decide +kernel) (h _)
  | elapsedTick => exact execElapsedTick_frame (by dsimp only [touches]; decide +kernel) (h _)
  | elapsedCommit => exact execElapsedCommit_frame (by dsimp only [touches]; decide +kernel) (h _)
  | mapSwitchComplete => exact execMapSwitchComplete_frame (by dsimp only [touches]; decide +kernel) (h _)
  | commitToken => exact execCommitToken_frame (by dsimp only [touches]; decide +kernel) (h _)
  | commitEnd => exact execCommitEnd_frame (by dsimp only [touches]; decide +kernel) (h _)
  | commitTokenEnd => exact execCommitTokenEnd_frame (by dsimp only [touches]; decide +kernel) (h _)
  | routeSwitch => exact execRouteSwitch_frame (by dsimp only [touches]; decide +kernel) (h _)
  | routeHoldEnd => exact execRouteHoldEnd_frame (by dsimp only [touches]; decide +kernel) (h _)
  | fence => exact execFence_frame (by dsimp only [touches]; decide +kernel) (h _)
  | memoryPhaseEnd => exact execMemoryPhaseEnd_frame (by dsimp only [touches]; decide +kernel) (h _)
  | linksPhaseEnd => exact execLinksPhaseEnd_frame (by dsimp only [touches]; decide +kernel) (h _)
  | phaseTimeout => exact execPhaseTimeout_frame (by dsimp only [touches]; decide +kernel) (h _)
  | leaveDrainDone => exact execLeaveDrainDone_frame (by dsimp only [touches]; decide +kernel) (h _)
  | leaveLimit => exact execLeaveLimit_frame (by dsimp only [touches]; decide +kernel) (h _)
  | wdLoop => exact execWdLoop_frame (by dsimp only [touches]; decide +kernel) (h _)
  | wdRound => exact execWdRound_frame (by dsimp only [touches]; decide +kernel) (h _)
  | wdHost => exact execWdHost_frame (by dsimp only [touches]; decide +kernel) (h _)
  | oasisRestartTimeout => exact execOasisRestartTimeout_frame (by dsimp only [touches]; decide +kernel) (h _)
  | hbEcho => exact execHbEcho_frame (by dsimp only [touches]; decide +kernel) (h _)
  | hostSilent => exact execHostSilent_frame (by dsimp only [touches]; decide +kernel) (h _)
  | syncSourceLost => exact execSyncSourceLost_frame (by dsimp only [touches]; decide +kernel) (h _)
  | logEvent => exact execLogEvent_frame (by dsimp only [touches]; decide +kernel) (h _)
  | replan => exact execReplan_frame (by dsimp only [touches]; decide +kernel) (h _)
  | powerLoss => exact execPowerLoss_frame (by dsimp only [touches]; decide +kernel) (h _)
  | inputReversed => exact execInputReversed_frame (by dsimp only [touches]; decide +kernel) (h _)
  | resetNAssert => exact execResetNAssert_frame (by dsimp only [touches]; decide +kernel) (h _)
  | powerApplied => exact execPowerApplied_frame (by dsimp only [touches]; decide +kernel) (h _)
  | inputOvervoltage => exact execInputOvervoltage_frame (by dsimp only [touches]; decide +kernel) (h _)
  | railOutOfRegulation => exact execRailOutOfRegulation_frame (by dsimp only [touches]; decide +kernel) (h _)

/-- What a command answers keeps the queue and the canonical forms. -/
theorem exec_keeps_of_next {c : Instr} {s t : State} (h : exec c s = .next t) : s.Keeps t := by
  obtain ⟨u, hu, hk⟩ := exec_keeps c s
  rw [h] at hu
  cases hu
  exact hk

/-- `State.Keeps` carries the invariant of O4 over. -/
theorem State.Keeps.inv {s t : State} (h : s.Keeps t) (hs : s.Inv) : t.Inv := by
  obtain ⟨-, hhbm, hsram, hregs⟩ := h
  obtain ⟨whbm, wsram, wregs⟩ := hs
  exact ⟨hhbm whbm, hsram wsram, hregs wregs⟩

/-- What a command answers lies within its mask. -/
theorem exec_within_of_next {c : Instr} {s t : State} (h : exec c s = .next t) : s.Within (touches c) t := by
  obtain ⟨u, hu, hw⟩ := exec_within c s
  rw [h] at hu
  cases hu
  exact hw

/-- With nothing in the queue and nothing held, the step is the passing of a nanosecond. -/
theorem step_of_empty {s : State} (hp : s.pending = []) (hh : s.held = []) : step s = .next s.tickTime := by
  simp [step, hp, State.idle, State.takeHeld, State.ackDue, hh]

/-- The tick changes only the clocks, the slew's state and the rate register. -/
theorem State.tickTime_eq (s : State) :
    s.tickTime = { s with elapsed := s.elapsed + 1, now := s.tickTime.now, oa := s.tickTime.oa, regs := s.tickTime.regs } := by
  unfold State.tickTime
  dsimp only
  split_ifs <;> rfl

/-- Without a slew and a rate the tick moves both clocks on by one, and nothing else. -/
theorem State.tickTime_still {s : State} (hslew : s.oa.slew = 0) (hfrac : s.oa.slewFrac = 0) (hrate : s.rf R.OASIS2_RATE_PPB 0 = 0) :
    s.tickTime = { s with elapsed := s.elapsed + 1, now := s.now + 1 } := by
  have hoa : { s.oa with slewFrac := 0, slew := 0 } = s.oa := by
    calc { s.oa with slewFrac := 0, slew := 0 } = { s.oa with slewFrac := s.oa.slewFrac, slew := s.oa.slew } := by rw [hslew, hfrac]
      _ = s.oa := rfl
  unfold State.tickTime
  simp [hslew, hfrac, hrate, signedOf, hoa]

/-- What an empty queue does keeps the canonical forms: it starts a held command, sends an ACK or lets time pass. -/
theorem State.idle_inv {s t : State} (hs : s.Inv) (h : s.idle = .next t) : t.Inv := by
  unfold State.idle at h
  split at h
  case h_1 x u htake =>
    unfold State.takeHeld at htake
    obtain ⟨y, -, hy⟩ := Option.map_eq_some_iff.mp htake
    cases hy
    obtain ⟨whbm, wsram, wregs⟩ := hs
    exact (exec_keeps_of_next h).inv ⟨whbm, wsram, wregs⟩
  case h_2 =>
    split at h
    · cases h
      refine State.Keeps.inv (s := s) ?_ hs
      exact State.sendAck_keeps _ _ _ _ _ s.keeps_refl
    · cases h
      exact (State.tickTime_keeps s s.keeps_refl).inv hs

/-- Settles O1: the step's own equation for a queue with a front. -/
theorem stepRunsFrontCommand : Obligations.StepRunsFrontCommand := by
  intro c rest s h
  rw [step, h]

/-- Settles O2: with nothing held and no ACK due, the empty queue's step is the tick. -/
theorem emptyQueueLetsTimePass : Obligations.EmptyQueueLetsTimePass := by
  intro s hp hh
  exact ⟨s.tickTime, step_of_empty hp hh, s.tickTime_eq, s.tickTime_still⟩

/-- Settles O3: the three tables are empty at reset. -/
theorem resetIsCanonical : Obligations.ResetIsCanonical := ⟨rfl, rfl, rfl⟩

/-- Settles O4: the step is a command's meaning, which keeps the canonical forms, on a state with the same memories and registers, or
the block idles. -/
theorem stepKeepsCanonical : Obligations.StepKeepsCanonical := by
  intro s t hs h
  unfold step at h
  split at h
  · exact (exec_keeps_of_next h).inv hs
  · exact State.idle_inv hs h

/-- Settles O5: every meaning keeps the queue. -/
theorem commandLeavesQueue : Obligations.CommandLeavesQueue := fun _ _ _ h => (exec_keeps_of_next h).1

/-- Settles O6: every meaning stays within its mask. -/
theorem commandsTouchOnlyTheirs : Obligations.CommandsTouchOnlyTheirs := fun _ _ _ h => exec_within_of_next h

/-- Settles O7: every meaning answers. -/
theorem everyCommandAnswers : Obligations.EveryCommandAnswers := fun c s => (exec_keeps c s).imp fun _ h => h.1

/-- Settles O11: the two digits are the quotient and the remainder of `w + 2` by 4, the remainder moved down by 2 (R101). -/
theorem weightDigits : Obligations.WeightDigits := by
  intro w hlo hhi
  unfold w4Digits
  dsimp only
  omega

end Sys2Proof.Machine
end

section
/-! How a register field reads after the shared operations of Machine/Ops.lean, and reading a part of the state through a frame. -/

namespace Sys2Proof.Machine

/-- The answer of `exec` and what holds of it. -/
theorem completes_of_next {c : Instr} {s t : State} {P : State → Prop} (h : exec c s = .next t) (hp : P t) : Completes c s P := ⟨t, h, hp⟩

/-! ### Frames that leave out one part -/

/-- Every register area and every part of the state but the one of bit `n`. -/
def allBut (n : Nat) : Nat := 2 ^ 138 - 1 - 2 ^ n

/-- A mask that leaves out a part names every register area. -/
theorem allBut_area {n : Nat} (h : Sub (2 ^ 80 - 1) (allBut n)) (f : Field) : (allBut n).testBit f.area = true :=
  Sub.any (Sub.refl _) h f

theorem allBut_page {n : Nat} (h : Sub (2 ^ 80 - 1) (allBut n)) (p : Page) : (allBut n).testBit p.area = true :=
  Sub.anyPage (Sub.refl _) h p

/-! ### Counters and cleared fields -/

@[simp] theorem State.rf_incSat_same (s : State) (f : Field) (i n k : Nat) :
    (s.incSat f i n k).rf f i k = min (2 ^ f.len - 1) (s.rf f i k + n) := by
  have hp : 0 < 2 ^ f.len := Nat.two_pow_pos _
  rw [State.incSat, State.rf_wf_same, satAdd]
  exact Nat.mod_eq_of_lt (lt_of_le_of_lt (Nat.min_le_left _ _) (Nat.sub_lt hp Nat.one_pos))

theorem State.rf_incSat_of_code (s : State) {f g : Field} (h : g.code ≠ f.code) (i n k j l : Nat) :
    (s.incSat f i n k).rf g j l = s.rf g j l := s.rf_wf_of_code h _ _ _ _ _

theorem State.rf_clr_of_code (s : State) {f g : Field} (h : g.code ≠ f.code) (i k j l : Nat) : (s.clr f i k).rf g j l = s.rf g j l := by
  simp [State.rf, State.clr, Tbl.getD, Tbl.get_del_ne _ (Field.cell_ne_of_code h _ _ _ _)]

/-- A register reads the same in two states with the same register table. -/
theorem State.rf_congr {s t : State} (h : t.regs = s.regs) (f : Field) (i k : Nat) : t.rf f i k = s.rf f i k := by
  rw [State.rf, h, ← State.rf]

/-! ### Fields of a page's own part: the header's operations leave them -/

/-- The places in a page of the fields that the common header's operations change (R48 to R53): offset and lowest bit. -/
def headerPlaces : List Nat := [0x20 * 64, 0x28 * 64 + 5, 0x40 * 64, 0x48 * 64, 0x60 * 64, 0x68 * 64, 0x70 * 64, 0x70 * 64 + 8, 0x70 * 64 + 16,
  0x70 * 64 + 32, 0x78 * 64, 0x80 * 64]

/-- The field is none of those of the common header. -/
abbrev Field.body (f : Field) : Prop := f.code % 262144 ∉ headerPlaces

theorem Field.body.ne_hdr {g : Field} (hg : g.body) {p : Page} {off lo len : Nat} {acc : Acc} (ho : off * 64 + lo ∈ headerPlaces)
    (hlt : off * 64 + lo < 262144) : g.code ≠ (hdr p off lo len acc).code := by
  intro h
  have hc : (hdr p off lo len acc).code = (p.blk * 16 + p.page) * 262144 + (off * 64 + lo) := by
    unfold Field.code hdr
    dsimp only
    omega
  have hmod : (hdr p off lo len acc).code % 262144 = off * 64 + lo := by omega
  unfold Field.body at hg
  rw [h, hmod] at hg
  exact hg ho

theorem Field.body.ne_irqEn {g : Field} (hg : g.body) (p : Page) : g.code ≠ p.irqEn.code := hg.ne_hdr (by decide) (by decide)
theorem Field.body.ne_errValid {g : Field} (hg : g.body) (p : Page) : g.code ≠ p.errValid.code := hg.ne_hdr (by decide) (by decide)
theorem Field.body.ne_intStatus {g : Field} (hg : g.body) (p : Page) : g.code ≠ p.intStatus.code := hg.ne_hdr (by decide) (by decide)
theorem Field.body.ne_intEnable {g : Field} (hg : g.body) (p : Page) : g.code ≠ p.intEnable.code := hg.ne_hdr (by decide) (by decide)
theorem Field.body.ne_errAddr {g : Field} (hg : g.body) (p : Page) : g.code ≠ p.errAddr.code := hg.ne_hdr (by decide) (by decide)
theorem Field.body.ne_errData {g : Field} (hg : g.body) (p : Page) : g.code ≠ p.errData.code := hg.ne_hdr (by decide) (by decide)
theorem Field.body.ne_errCause {g : Field} (hg : g.body) (p : Page) : g.code ≠ p.errCause.code := hg.ne_hdr (by decide) (by decide)
theorem Field.body.ne_errMaster {g : Field} (hg : g.body) (p : Page) : g.code ≠ p.errMaster.code := hg.ne_hdr (by decide) (by decide)
theorem Field.body.ne_errSource {g : Field} (hg : g.body) (p : Page) : g.code ≠ p.errSource.code := hg.ne_hdr (by decide) (by decide)
theorem Field.body.ne_errMore {g : Field} (hg : g.body) (p : Page) : g.code ≠ p.errMore.code := hg.ne_hdr (by decide) (by decide)
theorem Field.body.ne_errStamp {g : Field} (hg : g.body) (p : Page) : g.code ≠ p.errStamp.code := hg.ne_hdr (by decide) (by decide)
theorem Field.body.ne_lastStamp {g : Field} (hg : g.body) (p : Page) : g.code ≠ p.lastStamp.code := hg.ne_hdr (by decide) (by decide)

@[simp] theorem State.rf_irqUpdate (s : State) (p : Page) (g : Field) (j l : Nat) : (s.irqUpdate p).rf g j l = s.rf g j l := by
  unfold State.irqUpdate
  split
  · split <;> rfl
  · rfl

theorem State.rf_setInts_body (s : State) (p : Page) (mask : Nat) {g : Field} (hg : g.body) (j l : Nat) :
    (s.setInts p mask).rf g j l = s.rf g j l := by
  unfold State.setInts
  dsimp only
  split
  · rfl
  · rw [State.rf_irqUpdate, State.rf_wf_of_code _ (hg.ne_lastStamp p), State.rf_wf_of_code _ (hg.ne_intStatus p)]

theorem State.rf_setInt_body (s : State) (p : Page) (b : Nat) {g : Field} (hg : g.body) (j l : Nat) :
    (s.setInt p b).rf g j l = s.rf g j l := s.rf_setInts_body p _ hg j l

theorem State.rf_capture_body (s : State) (p : Page) (addr data cause master source : Nat) {g : Field} (hg : g.body) (j l : Nat) :
    (s.capture p addr data cause master source).rf g j l = s.rf g j l := by
  unfold State.capture
  split
  · exact s.rf_incSat_of_code (hg.ne_errMore p) _ _ _ _ _
  · simp only [State.rf_wf_of_code _ (hg.ne_errValid p), State.rf_wf_of_code _ (hg.ne_errAddr p), State.rf_wf_of_code _ (hg.ne_errData p),
      State.rf_wf_of_code _ (hg.ne_errCause p), State.rf_wf_of_code _ (hg.ne_errMaster p), State.rf_wf_of_code _ (hg.ne_errSource p),
      State.rf_wf_of_code _ (hg.ne_errStamp p)]

theorem State.rf_rearm_body (s : State) (p : Page) {g : Field} (hg : g.body) (j l : Nat) : (s.rearm p).rf g j l = s.rf g j l := by
  simp only [State.rearm, List.foldl_cons, List.foldl_nil, State.rf_clr_of_code _ (hg.ne_errValid p),
    State.rf_clr_of_code _ (hg.ne_errAddr p), State.rf_clr_of_code _ (hg.ne_errData p), State.rf_clr_of_code _ (hg.ne_errCause p),
    State.rf_clr_of_code _ (hg.ne_errMaster p), State.rf_clr_of_code _ (hg.ne_errSource p), State.rf_clr_of_code _ (hg.ne_errMore p),
    State.rf_clr_of_code _ (hg.ne_errStamp p)]

/-! ### A store that no check stops, R38 -/

/-- What a store through the register window adds to the write itself: the result in an S-core's CSR or the response of Oasis. -/
def storeMask : Nat := touch [] [.sc, .resp]

theorem State.within_storeMask (s : State) (x : Tbl ScSt) (y : Nat × Nat) : s.Within storeMask { s with sc := x, resp := y } := by
  refine State.frame_mk (s.frame_refl _) ?_
  have hsc : storeMask.testBit 120 = true := by decide
  have hresp : storeMask.testBit 130 = true := by decide
  simp only [hsc, hresp, true_or, or_true, and_true]

/-- A store to the common header is the header's write. -/
theorem State.Writes.header_within {s : State} {m : Master} {p : Page} {off w : Nat} (h : s.Writes m p off w) (ho : off < 0x100) :
    (s.writeHeader m p off w).Within storeMask (s.pageStore m p off w) := by
  obtain ⟨x, y, e⟩ := h.header ho
  rw [e]
  exact State.within_storeMask _ x y

/-- A store to a page's own part is the block's write. -/
theorem State.Writes.store_within {s : State} {m : Master} {p : Page} {off w c : Nat} {u : State} (h : s.Writes m p off w) (ho : 0x100 ≤ off)
    (hu : s.writeBlock m p off w = (0, c, u)) : u.Within storeMask (s.pageStore m p off w) := by
  obtain ⟨x, y, e⟩ := h.store ho hu
  rw [e]
  exact State.within_storeMask u x y

@[simp] theorem State.when_true (s : State) (f : State → State) : s.when true f = f s := rfl
@[simp] theorem State.when_false (s : State) (f : State → State) : s.when false f = s := rfl

/-! ### Plain stores of a word -/

/-- What every step of a repetition leaves, the repetition leaves. -/
theorem State.each_eq {α β : Type} (r : State → β) {l : List α} {f : State → α → State} (h : ∀ x ∈ l, ∀ t, r (f t x) = r t) (s : State) :
    r (s.each l f) = r s := by
  unfold State.each
  induction l generalizing s with
  | nil => rfl
  | cons x l ih =>
    rw [List.foldl_cons, ih (fun y hy => h y (List.mem_cons_of_mem _ hy)), h x List.mem_cons_self]

/-- A store changes no field but those of the word. -/
theorem State.rf_storeWord_of_code {s : State} {m : Master} {p : Page} {off w : Nat} {g : Field}
    (h : ∀ fk ∈ wordFields p off, g.code ≠ fk.1.code) (j l : Nat) : (s.storeWord m p off w).rf g j l = s.rf g j l := by
  refine State.each_eq (fun t => t.rf g j l) (fun fk hfk t => ?_) s
  have hne := h fk (List.mem_of_mem_filter hfk)
  dsimp only
  split
  · exact t.rf_wf_of_code hne _ _ _ _ _
  · split
    · exact t.rf_wf_of_code hne _ _ _ _ _
    · split
      · exact t.rf_wf_of_code hne _ _ _ _ _
      · rfl

/-! ### Events: only the log's own page changes -/

theorem State.rf_post (s : State) (e : Event) {g : Field} (hg : g.area ≠ 1) (j l : Nat) : (s.post e).rf g j l = s.rf g j l := by
  have hw : s.Within 0x7800000000000000000002 (s.post e) := State.post_frame (Sub.refl _) (s.frame_refl _)
  have hle := g.area_le
  have hbit : (0x7800000000000000000002 : Nat).testBit g.area = false := by
    interval_cases g.area <;> first | rfl | exact absurd rfl hg
  exact hw.rf hbit

end Sys2Proof.Machine
end

section
/-! Engines: the pilot state of a bank, and where a sweep leaves it (R85 to R97). -/

namespace Sys2Proof.Machine

/-! ### Reading a bank's pilot state -/

@[simp] theorem EngSt.pilot_setPilot_same (x : EngSt) (b : Nat) (p : PilotSt) : (x.setPilot b p).pilot b = p := by
  unfold EngSt.pilot EngSt.setPilot
  split <;> rfl

@[simp] theorem State.engSt_setEng_same (s : State) (e : Nat) (x : EngSt) : (s.setEng e x).engSt e = x := by
  simp [State.engSt, State.setEng]

@[simp] theorem State.pilot_setPilot_same (s : State) (e b : Nat) (p : PilotSt) : (s.setPilot e b p).pilot e b = p := by
  simp [State.pilot, State.setPilot]

theorem State.pilot_setPilot_ne (s : State) (e : Nat) {b c : Nat} (p : PilotSt) (h : (c = 0) ≠ (b = 0)) :
    (s.setPilot e b p).pilot e c = s.pilot e c := by
  rw [State.pilot, State.setPilot, State.engSt_setEng_same, State.pilot]
  unfold EngSt.pilot EngSt.setPilot
  by_cases hb : b = 0 <;> by_cases hc : c = 0 <;> simp_all

theorem State.pilot_of_eng {s t : State} (h : t.eng = s.eng) (e b : Nat) : t.pilot e b = s.pilot e b := by
  rw [State.pilot, State.engSt, h, State.pilot, State.engSt]

theorem State.Within.pilot {s t : State} {m : Nat} (h : s.Within m t) (hm : m.testBit 111 = false) (e b : Nat) :
    t.pilot e b = s.pilot e b := State.pilot_of_eng (h.eng hm) e b

/-! ### What a sweep leaves -/

/-- R86, R94: the pilot state of a bank whose sweep has just ended. -/
def PilotSt.swept (p : PilotSt) (now : Nat) : PilotSt :=
  { p with block := 0, sums := [], wanted := false, fresh := false, everSwept := true, cold := false, clock := now, doneAt := now }

/-- R86: the pilot state after the sweep is the swept one; the trims, interrupts and evidence that follow leave it. -/
theorem State.pilot_sweepDone (s : State) (e b : Nat) (vs : List Int) :
    (s.sweepDone e b vs).pilot e b = (s.pilot e b).swept s.elapsed := by
  have hint {a : State} (t : State) (i : Nat) (h : a.Within (allBut 111) t) : a.Within (allBut 111) (t.setInt (engPage e) i) :=
    State.setInt_frame (by decide) (allBut_page (by decide) _) h
  have hw : State.Within (allBut 111)
      (((((s.wf (readLoF b) e (packReads (vs.take 4))).wf (readHiF b) e (packReads (vs.drop 4))).inc R.ENG1_SWEEPS e).wf
        (sweepStampF b) e s.now).setPilot e b ((s.pilot e b).swept s.elapsed)) (s.sweepDone e b vs) := by
    unfold State.sweepDone
    dsimp only
    refine State.unstale_frame (by decide) (State.when_frame (State.when_frame ?trims fun t h => hint t _ h) fun t h =>
      State.suspect_frame (by decide) h)
    split
    · exact hint _ _ (hint _ _ (State.wf_frame (allBut_area (by decide) _) (State.frame_refl _ _)))
    · have hraise {a t : State} (h : a.Within (allBut 111) t) (f : Field) (i : Nat) (c : Prop) [Decidable c] :
          a.Within (allBut 111) (if c then (t.wf f e 1).setInt (engPage e) i else t) :=
        ite_frame (hint _ _ (State.wf_frame (allBut_area (by decide) _) h)) h
      exact hraise (hraise (State.wf_frame (allBut_area (by decide) _) (State.wf_frame (allBut_area (by decide) _)
        (State.frame_refl _ _))) _ _ _) _ _ _
  rw [hw.pilot (by decide), State.pilot_setPilot_same]

/-- A bank's pilot state is set nowhere after the sub-step itself. -/
theorem State.pilot_after (t s u : State) (e e' b : Nat) : ((t.oweRetrims e s).wornOut e u).pilot e' b = t.pilot e' b := by
  have hw : t.Within (allBut 111) ((t.oweRetrims e s).wornOut e u) :=
    State.wornOut_frame (by decide) (State.oweRetrims_frame (by decide) (t.frame_refl _))
  exact hw.pilot (by decide) e' b

/-! ### Which banks are tracked -/

theorem State.tracked_congr {s t : State} {e : Nat} (h : ∀ f ∈ [R.ENG_A_STATE, R.ENG_B_STATE, R.ENG_EPOCH0_BANK, R.ENG_EPOCH1_BANK,
    R.ENG_EPOCH2_BANK, R.ENG_EPOCH3_BANK, R.ENG1_TRACK_STAGED], t.rf f e = s.rf f e) (b : Nat) : t.tracked e b = s.tracked e b := by
  simp only [List.mem_cons, List.not_mem_nil, or_false, forall_eq_or_imp, forall_eq] at h
  obtain ⟨ha, hb, h0, h1, h2, h3, hs⟩ := h
  have hbank : t.rf (bankStateF b) e = s.rf (bankStateF b) e := by
    unfold bankStateF
    split
    · exact ha
    · exact hb
  have hepoch : ∀ n ∈ List.range 4, t.rf (epochBankF n) e = s.rf (epochBankF n) e := by
    simp [List.range, List.range.loop, epochBankF, h0, h1, h2, h3]
  have hbound : t.bankBound e b = s.bankBound e b := by
    unfold State.bankBound
    rw [Bool.eq_iff_iff, List.any_eq_true, List.any_eq_true]
    exact exists_congr fun n => and_congr_right fun hn => by rw [hepoch n hn]
  rw [State.tracked, State.ready, State.bankState, hbank, hbound, State.rb, hs]
  rfl

/-- R97: every tracked bank wants a sweep. -/
theorem State.pilotNow_wanted {s : State} {e b : Nat} (hb : b < 2) (ht : s.tracked e b = true) : ((s.pilotNow e).pilot e b).wanted = true := by
  have htr (t : State) (c d : Nat) (p : PilotSt) : (t.setPilot e c p).tracked e d = t.tracked e d := rfl
  simp only [State.pilotNow, State.each, List.foldl_cons, List.foldl_nil]
  interval_cases b
  · have h0 : (State.setPilot s e 0 { s.pilot e 0 with wanted := true }).pilot e 0 = { s.pilot e 0 with wanted := true } := by simp
    simp only [ht, if_true, htr]
    split
    · rw [State.pilot_setPilot_ne _ _ _ (by decide), h0]
    · rw [h0]
  · have h1 : (if s.tracked e 0 = true then s.setPilot e 0 { s.pilot e 0 with wanted := true } else s).tracked e 1 = true := by
      split
      · rw [htr, ht]
      · exact ht
    rw [if_pos h1, State.pilot_setPilot_same]

/-- R97: CTL of an engine holds two switches beside PILOT_NOW, so a store to it leaves the banks' states and bindings. -/
theorem State.rf_storeWord_engCtl (s : State) (m : Master) (e w : Nat) {g : Field} (h1 : g.code ≠ R.ENG_PILOT_EN.code)
    (h2 : g.code ≠ R.ENG_ZERO_SKIP.code) (h3 : g.code ≠ R.ENG_PILOT_NOW.code) (j l : Nat) :
    (s.storeWord m (engPage e) 0x20 w).rf g j l = s.rf g j l := by
  have hwf : wordFields (engPage e) 0x20 = [(R.ENG_PILOT_EN, 0), (R.ENG_ZERO_SKIP, 0), (R.ENG_PILOT_NOW, 0)] := rfl
  refine State.rf_storeWord_of_code (fun fk hfk => ?_) j l
  rw [hwf] at hfk
  simp only [List.mem_cons, List.not_mem_nil, or_false] at hfk
  rcases hfk with rfl | rfl | rfl
  · exact h1
  · exact h2
  · exact h3

/-- R48, R97: a write of an engine's CTL: the word's fields, the interrupt condition, the re-arming, then the tracking and PILOT_NOW. -/
theorem State.writeHeader_engCtl (s : State) (m : Master) (e w : Nat) :
    s.writeHeader m (engPage e) 0x20 w =
      (((((s.storeWord m (engPage e) 0x20 w).wf (engPage e).irqEn e (bitsOf w 0 1)).irqUpdate (engPage e)).when (w.testBit 1) fun t =>
        t.rearm (engPage e)).retrack e s).when (w.testBit 34) fun t => t.pilotNow e := rfl

/-- A retracking changes no register but PILOT_STALE. -/
theorem State.rf_retrack (s : State) (e : Nat) (before : State) {g : Field} (hg : g.code ≠ R.ENG_PILOT_STALE.code) (j l : Nat) :
    (s.retrack e before).rf g j l = s.rf g j l := by
  have hunstale (t : State) : (t.unstale e).rf g j l = t.rf g j l := by
    unfold State.unstale
    dsimp only
    split
    · exact t.rf_wf_of_code hg _ _ _ _ _
    · rfl
  rw [State.retrack, hunstale]
  refine State.each_eq (fun t => t.rf g j l) (fun b _ t => ?_) s
  dsimp only
  split <;> rfl

theorem State.tracked_engCtl (s : State) (m : Master) (e w b : Nat) :
    (((((s.storeWord m (engPage e) 0x20 w).wf (engPage e).irqEn e (bitsOf w 0 1)).irqUpdate (engPage e)).when (w.testBit 1) fun t =>
      t.rearm (engPage e)).retrack e s).tracked e b = s.tracked e b := by
  have hrf {g : Field} (hb : g.body) (hstale : g.code ≠ R.ENG_PILOT_STALE.code) (h1 : g.code ≠ R.ENG_PILOT_EN.code)
      (h2 : g.code ≠ R.ENG_ZERO_SKIP.code) (h3 : g.code ≠ R.ENG_PILOT_NOW.code) :
      (((((s.storeWord m (engPage e) 0x20 w).wf (engPage e).irqEn e (bitsOf w 0 1)).irqUpdate (engPage e)).when (w.testBit 1) fun t =>
        t.rearm (engPage e)).retrack e s).rf g e = s.rf g e := by
    have hstore : (((s.storeWord m (engPage e) 0x20 w).wf (engPage e).irqEn e (bitsOf w 0 1)).irqUpdate (engPage e)).rf g e = s.rf g e := by
      rw [State.rf_irqUpdate, State.rf_wf_of_code _ (hb.ne_irqEn _), State.rf_storeWord_engCtl _ _ _ _ h1 h2 h3]
    rw [State.rf_retrack _ _ _ hstale, State.when]
    split
    · rw [State.rf_rearm_body _ _ hb, hstore]
    · exact hstore
  refine State.tracked_congr (fun f hf => ?_) b
  have hf : f.body ∧ f.code ≠ R.ENG_PILOT_STALE.code ∧ f.code ≠ R.ENG_PILOT_EN.code ∧ f.code ≠ R.ENG_ZERO_SKIP.code ∧
      f.code ≠ R.ENG_PILOT_NOW.code := by
    revert f
    decide
  obtain ⟨hbody, hstale, h1, h2, h3⟩ := hf
  exact hrf hbody hstale h1 h2 h3

/-- Settles O14: a sub-step moves the bank's pilot state on or ends the sweep, and what follows a sweep leaves that state; CTL's write
leaves which banks are tracked. -/
theorem pilotSweepsComplete : Obligations.PilotSweepsComplete := by
  refine ⟨?due, ?subStep, ?forced, ?stale, ?now⟩
  case due =>
    intro e b s hs hi
    refine completes_of_next rfl ?_
    simp [State.sweepDue, hs, hi]
  case subStep =>
    intro e b noise s hw hs hi
    refine completes_of_next rfl ?_
    rw [State.pilot_after]
    unfold State.pilotStep
    dsimp only
    rw [if_pos (by simp [hw, hs, hi])]
    split
    · exact s.pilot_sweepDone _ _ _
    · exact s.pilot_setPilot_same _ _ _
  case forced =>
    intro e b noise s hs hp hi
    refine completes_of_next rfl ?_
    rw [State.pilot_after]
    unfold State.forcedSweep
    dsimp only
    rw [if_pos (by simp [hs, hp, hi]), State.pilot_sweepDone]
    have hw : s.Within (touch [0x12] [.irqLatch, .irqs]) ((s.incSat R.ENG1_FORCED e).setInt (engPage e) R.INT_ENG_PILOT_FORCED) :=
      State.setInt_frame (by decide) (page_bit (Sub.refl _) rfl (by decide) (by decide)) (State.incSat_frame (by decide) (s.frame_refl _))
    rw [hw.pilot (by decide), hw.elapsed (by decide)]
    rfl
  case stale =>
    intro e b s hb ht hi
    refine completes_of_next rfl ?_
    have hset : s.pilotStale e = s.wf R.ENG_PILOT_STALE e 1 := by
      unfold State.pilotStale
      dsimp only
      refine if_pos ?_
      interval_cases b
      · simp [ht, hi]
      · simp [ht, hi]
    rw [hset]
    refine ⟨by simp [R.ENG_PILOT_STALE], rfl, fun g i k hg => ?_⟩
    exact s.rf_wf_of_code (hg _ List.mem_cons_self) _ _ _ _ _
  case now =>
    intro m e w b s hw hb ht
    refine completes_of_next rfl ?_
    rw [(hw.header_within (by decide)).pilot (by decide), State.writeHeader_engCtl]
    have h34 : (w ||| 2 ^ 34).testBit 34 = true := by rw [Nat.testBit_or, Nat.testBit_two_pow_self, Bool.or_true]
    rw [h34, State.when_true]
    refine State.pilotNow_wanted hb ?_
    rw [State.tracked_engCtl, ht]

end Sys2Proof.Machine
end

section
/-! Refutations by a concrete state: a host's write that lands on a V-core's page table (O12, O26) and an abort that starts what the engine
owes (O15). -/

namespace Sys2Proof.Machine

/-! ### A one-word write into a page table -/

/-- A host's REG_WRITE of 77 to the word at offset 8 of core 46's SRAM. -/
def pageTableWrite : Cmd := { qp := 3, bodyWords := 3, cmdId := 1, payload := 56, body := [0x100000000000 + 46 * 2 ^ 24 + 8, 1, 77] }

/-- A state in which that word is part of core 46's page table, and queue pair 3 is connected. -/
def pageTableState : State :=
  { (State.reset.wf R.QP_STATE 3 2).wf R.VCORE_PT_ENTRIES 46 4 with kv := [(46, { resv := [(0, 1)] })] }

theorem pageTableWrite_valid : pageTableState.Takes pageTableWrite ∧ regBodyOk pageTableWrite 1 = true ∧ pageTableWrite.w 1 = 1 ∧
    pageTableWrite.w 0 % 8 = 0 ∧ pageTableState.sramAddr (pageTableWrite.w 0) = some (46, 8) := by decide +kernel

/-- What a command leaves, read by `r`; `d` if the command stopped. -/
def readAfter {α : Type} (c : Instr) (s : State) (d : α) (r : State → α) : α :=
  match exec c s with
  | .next t => r t
  | _ => d

theorem readAfter_of_next {α : Type} {c : Instr} {s t : State} (d : α) (r : State → α) (h : exec c s = .next t) : readAfter c s d r = r t := by
  rw [readAfter, h]

/-- The page table is its V-core's own (R212): the word is not stored. -/
theorem pageTableWrite_ignored : readAfter (.regWrite pageTableWrite) pageTableState 1 (fun t => t.sramRead 46 8 8) = 0 ∧
    readAfter (.regWrite pageTableWrite) pageTableState [(0, 0)] (fun t => t.sram) = [] := by decide +kernel

/-- Refutes O12: a host's write of a word in a V-core's page table stores nothing (R212), and the statement does not exclude such a word. -/
theorem not_memoryWritesAreLocal : ¬ Obligations.MemoryWritesAreLocal := by
  unfold Obligations.MemoryWritesAreLocal
  rintro ⟨-, hsram⟩
  obtain ⟨htakes, hbody, hone, halign, haddr⟩ := pageTableWrite_valid
  obtain ⟨t, ht, hread, -⟩ := hsram pageTableWrite 46 8 pageTableState htakes hbody hone halign haddr (by decide)
  have hzero := pageTableWrite_ignored.1
  rw [readAfter_of_next _ _ ht, hread] at hzero
  exact absurd hzero (by decide)

/-- Refutes O26: the clause of REG_WRITE stores a word in a V-core's page table, which the model leaves alone (R212). -/
theorem not_registerAccessComplete : ¬ Obligations.RegisterAccessComplete := by
  unfold Obligations.RegisterAccessComplete
  rintro ⟨-, -, -, -, -, -, hsram⟩
  obtain ⟨htakes, hbody, hone, halign, haddr⟩ := pageTableWrite_valid
  obtain ⟨t, ht, hmem, -⟩ := hsram pageTableWrite 46 8 pageTableState htakes hbody hone halign haddr (by decide)
  have hnone := pageTableWrite_ignored.2
  rw [readAfter_of_next _ _ ht, hmem] at hnone
  exact absurd hnone (by decide +kernel)

/-! ### An abort with a retrim owed -/

/-- The operation queued in engine 5. -/
def queuedOp : ProgOp := { src := 0, crc := 0, bank := 0, fmt := 0, touchUp := false, purpose := 0, started := 0 }

/-- Engine 5 has an operation queued and owes bank 0, which an epoch is bound to, a retrim from a source that is lost. -/
def owingState : State :=
  ((State.reset.setProg 5 { queued := some queuedOp, retrims := [0] }).wf R.ENG_EPOCH0_BANK 5 1).wf R.WPROG_JSRC_A 5 1

theorem owingState_valid : owingState.Writes .oasis (wprogPage 5) 0x110 (0 ||| 0x80) ∧ (owingState.progSt 5).queued = some queuedOp ∧
    (owingState.progSt 5).owed = none ∧ (owingState.progSt 5).owed2 = none := by decide +kernel

/-- The abort leaves the engine free, the retrim owed starts at once and ends with SOURCE_LOST (10). -/
theorem owingState_result : readAfter (.progAbort .oasis 5 0) owingState 8 (fun t => t.rf R.WPROG_RESULT 5) = 10 := by decide +kernel

/-- Refutes O15: after PROG_ABORT of the queued operation the retrim that the engine owes starts, and RESULT is that operation's. -/
theorem not_bankProgrammingComplete : ¬ Obligations.BankProgrammingComplete := by
  unfold Obligations.BankProgrammingComplete
  rintro ⟨-, habort, -⟩
  obtain ⟨hwrites, hqueued, howed, howed2⟩ := owingState_valid
  obtain ⟨t, ht, -, hresult, -⟩ := habort .oasis 5 0 queuedOp owingState hwrites (by decide) hqueued howed howed2
  have hlost := owingState_result
  rw [readAfter_of_next _ _ ht, hresult] at hlost
  exact absurd hlost (by decide)

end Sys2Proof.Machine
end

section
/-! The refill of a tenant's account (O13), and the governor's elapsed time and policy, ageing and re-plans (O16). -/

namespace Sys2Proof.Machine

/-! ### Numbers kept in a field -/

@[simp] theorem Tbl.getD_putD_same {α : Type} [DecidableEq α] (t : Tbl α) (d : α) (x : Nat) (a : α) : Tbl.getD (Tbl.putD t d x a) x d = a := by
  unfold Tbl.putD
  split
  · rename_i h
    simp [Tbl.getD, h, Tbl.get_del_same]
  · simp

/-- A signed number that fits a field of `len` bits is what the field reads as. -/
theorem signedOf_fieldOfInt {len : Nat} (hlen : 0 < len) {i : Int} (hlo : -(2 : Int) ^ (len - 1) ≤ i) (hhi : i < (2 : Int) ^ (len - 1)) :
    signedOf len (fieldOfInt len i) = i := by
  obtain ⟨k, rfl⟩ : ∃ k, len = k + 1 := ⟨len - 1, by omega⟩
  simp only [Nat.add_sub_cancel] at hlo hhi
  have hsplit : (2 : Nat) ^ (k + 1) = 2 * 2 ^ k := by ring
  have hcast : ((2 ^ k : Nat) : Int) = (2 : Int) ^ k := by push_cast; rfl
  unfold signedOf fieldOfInt
  rw [hsplit, Nat.add_sub_cancel]
  rw [← hcast] at hlo hhi
  have hpos : 0 < 2 ^ k := Nat.two_pow_pos k
  generalize 2 ^ k = p at *
  have hv : ((i % ((2 * p : Nat) : Int)).toNat) % (2 * p) = (i % ((2 * p : Nat) : Int)).toNat := by
    apply Nat.mod_eq_of_lt
    have := Int.emod_lt_of_pos i (b := ((2 * p : Nat) : Int)) (by omega)
    omega
  rw [hv]
  by_cases hneg : i < 0
  · have hmod : i % ((2 * p : Nat) : Int) = i + (2 * p : Nat) := by
      rw [← Int.add_emod_right]
      exact Int.emod_eq_of_lt (by omega) (by omega)
    rw [hmod, if_neg (by omega)]
    omega
  · rw [Int.emod_eq_of_lt (by omega) (by omega), if_pos (by omega)]
    omega

theorem fieldOfInt_lt (len : Nat) (i : Int) : fieldOfInt len i < 2 ^ len := by
  have hp : (0 : Int) < (2 ^ len : Nat) := by exact_mod_cast Nat.two_pow_pos len
  have := Int.emod_lt_of_pos i hp
  have := Int.emod_nonneg i hp.ne'
  unfold fieldOfInt
  omega

theorem le_signedOf {len : Nat} (hlen : 0 < len) (v : Nat) : -(2 : Int) ^ (len - 1) ≤ signedOf len v := by
  obtain ⟨k, rfl⟩ : ∃ k, len = k + 1 := ⟨len - 1, by omega⟩
  have hsplit : (2 : Nat) ^ (k + 1) = 2 * 2 ^ k := by ring
  have hcast : ((2 ^ k : Nat) : Int) = (2 : Int) ^ k := by push_cast; rfl
  unfold signedOf
  rw [hsplit, Nat.add_sub_cancel, ← hcast]
  split <;> omega

/-! ### A tenant's account -/

theorem State.le_balance (s : State) (n : Nat) : -(2 : Int) ^ 47 ≤ s.balance n := le_signedOf (by decide) _

/-- R303: a balance that BALANCE can hold is the balance read. -/
theorem State.balance_setBalance (s : State) (n : Nat) {b : Int} (hlo : -(2 : Int) ^ 47 ≤ b) (hhi : b < (2 : Int) ^ 47) :
    (s.setBalance n b).balance n = b := by
  have hlen : R.TENANT_BALANCE.len = 48 := rfl
  rw [State.setBalance, State.balance, State.rf_wf_same, max_eq_left hlo, hlen, Nat.mod_eq_of_lt (fieldOfInt_lt _ _)]
  exact signedOf_fieldOfInt (by decide) hlo hhi

/-- R303: the depth of an account is within what BALANCE can hold. -/
theorem State.depth_lt (s : State) (n : Nat) : ((s.rf R.TENANT_DEPTH n * 256 : Nat) : Int) < (2 : Int) ^ 47 := by
  have := s.rf_lt R.TENANT_DEPTH n 0
  have hlen : R.TENANT_DEPTH.len = 32 := rfl
  rw [hlen] at this
  omega

/-- Settles O13: the refill stores LAST_REFILL, the balance and the remainder; both balances fit BALANCE. -/
theorem tenantRefill : Obligations.TenantRefill := by
  unfold Obligations.TenantRefill
  intro n s
  have hlast (b : Int) (x : Tbl Nat) :
      State.rf { (s.wf R.TENANT_LAST_REFILL n s.now).setBalance n b with rems := x } R.TENANT_LAST_REFILL n = s.now % 2 ^ 64 := by
    have hne := State.rf_wf_of_code (s.wf R.TENANT_LAST_REFILL n s.now) (f := R.TENANT_BALANCE) (g := R.TENANT_LAST_REFILL) (by decide) n
      (fieldOfInt 48 (max b (-(2 : Int) ^ 47))) 0 n 0
    rw [State.rf_wf_same] at hne
    exact hne
  have hlo := s.le_balance n
  have hdepth := s.depth_lt n
  have hbalance (b : Int) (x : Tbl Nat) (h1 : -(2 : Int) ^ 47 ≤ b) (h2 : b < (2 : Int) ^ 47) :
      State.balance { (s.wf R.TENANT_LAST_REFILL n s.now).setBalance n b with rems := x } n = b :=
    State.balance_setBalance _ n h1 h2
  unfold State.refill
  dsimp only
  split
  · exact ⟨hlast _ _, hbalance _ _ (by omega) hdepth, by simp⟩
  · exact ⟨hlast _ _, hbalance _ _ (by omega) (by omega), by simp⟩

/-! ### What one of several steps sets -/

/-- What a step of a repetition sets and the other steps leave is what the repetition leaves. -/
theorem State.each_set {α β : Type} (r : State → β) {l : List α} {f : State → α → State} {x : α} {v : β} (hx : x ∈ l)
    (hset : ∀ t, r (f t x) = v) (hkeep : ∀ y ∈ l, y ≠ x → ∀ t, r (f t y) = r t) (s : State) : r (s.each l f) = v := by
  unfold State.each
  induction l generalizing s with
  | nil => exact absurd hx (by simp)
  | cons y l ih =>
    rw [List.foldl_cons]
    by_cases hl : x ∈ l
    · exact ih hl (fun z hz => hkeep z (List.mem_cons_of_mem _ hz)) _
    · obtain rfl : x = y := (List.mem_cons.1 hx).resolve_right hl
      have hrest := State.each_eq r (l := l) (f := f)
        (fun z hz => hkeep z (List.mem_cons_of_mem _ hz) (fun h => hl (h ▸ hz))) (f s x)
      rw [State.each] at hrest
      rw [hrest, hset]

/-- R11: a store puts its bits into each RW field of the word. -/
theorem State.rf_storeWord_rw {m : Master} {p : Page} {off : Nat} {fk : Field × Nat} (w : Nat) (hf : fk ∈ wordFields p off)
    (hacc : fk.1.acc = .rw) (hmay : m.mayWrite fk.1.only = true) (hne : ∀ gk ∈ wordFields p off, gk ≠ fk → fk.1.code ≠ gk.1.code)
    (s : State) : (s.storeWord m p off w).rf fk.1 p.inst fk.2 = bitsOf w fk.1.lo fk.1.len := by
  refine State.each_set (fun t => t.rf fk.1 p.inst fk.2) (x := fk) (List.mem_filter.2 ⟨hf, hmay⟩) (fun t => ?_) (fun gk hgk hn t => ?_) s
  · rw [if_pos hacc, State.rf_wf_same]
    exact Nat.mod_eq_of_lt (Nat.mod_lt _ (Nat.two_pow_pos _))
  · have hcode := hne gk (List.mem_of_mem_filter hgk) hn
    dsimp only
    split
    · exact t.rf_wf_of_code hcode _ _ _ _ _
    · split
      · exact t.rf_wf_of_code hcode _ _ _ _ _
      · split
        · exact t.rf_wf_of_code hcode _ _ _ _ _
        · rfl

theorem State.rf_logEv (s : State) (kind page ref : Nat) (details : List Nat) {g : Field} (hg : g.area ≠ 1) (j l : Nat) :
    (s.logEv kind page ref details).rf g j l = s.rf g j l := s.rf_post _ hg j l

/-! ### GOV_POLICY -/

/-- R159: the word of the four policy fields. -/
theorem wordFields_policy (e : Nat) : wordFields (wprogPage e) 0x188 =
    [(R.WPROG_PLAN_DAYS, 0), (R.WPROG_BURST, 0), (R.WPROG_RESERVE, 0), (R.WPROG_DEFER_MAX, 0)] := rfl

theorem State.rf_writePolicy (s : State) (m : Master) (e w : Nat) {f : Field} (hf : (f, 0) ∈ wordFields (wprogPage e) 0x188) :
    (s.writePolicy m (wprogPage e) w).rf f e = bitsOf w f.lo f.len := by
  rw [wordFields_policy] at hf
  have hfield : ∀ g ∈ [R.WPROG_PLAN_DAYS, R.WPROG_BURST, R.WPROG_RESERVE, R.WPROG_DEFER_MAX], g.acc = .rw ∧ g.only = .any ∧ g.area ≠ 1 ∧
      ∀ g' ∈ [R.WPROG_PLAN_DAYS, R.WPROG_BURST, R.WPROG_RESERVE, R.WPROG_DEFER_MAX], g' ≠ g → g.code ≠ g'.code := by decide
  have hmem : f ∈ [R.WPROG_PLAN_DAYS, R.WPROG_BURST, R.WPROG_RESERVE, R.WPROG_DEFER_MAX] := by simpa using hf
  obtain ⟨hacc, honly, harea, hcodes⟩ := hfield f hmem
  rw [State.writePolicy, State.rf_logEv _ _ _ _ _ harea]
  refine State.rf_storeWord_rw (p := wprogPage e) (fk := (f, 0)) w ?_ hacc ?_ ?_ s
  · rw [wordFields_policy]
    exact hf
  · rw [honly]
    rfl
  · intro gk hgk hne
    rw [wordFields_policy] at hgk
    have hgk0 : gk.1 ∈ [R.WPROG_PLAN_DAYS, R.WPROG_BURST, R.WPROG_RESERVE, R.WPROG_DEFER_MAX] ∧ gk.2 = 0 := by
      simp only [List.mem_cons, List.not_mem_nil, or_false] at hgk
      rcases hgk with rfl | rfl | rfl | rfl <;> simp
    exact hcodes gk.1 hgk0.1 fun h => hne (Prod.ext h hgk0.2)

/-- GOV_POLICY_WRITE (R159). -/
theorem govPolicyWrite_completes (m : Master) (e w : Nat) (s : State) (h : s.Writes m (wprogPage e) 0x188 w) :
    Completes (.govPolicyWrite m e w) s fun t =>
      t.rf R.WPROG_PLAN_DAYS e = bitsOf w 0 16 ∧ t.rf R.WPROG_BURST e = bitsOf w 16 16 ∧ t.rf R.WPROG_RESERVE e = bitsOf w 32 16 ∧
      t.rf R.WPROG_DEFER_MAX e = bitsOf w 48 16 := by
  refine completes_of_next rfl ?_
  have hw : (s.writePolicy m (wprogPage e) w).Within storeMask (s.pageStore m (wprogPage e) 0x188 w) := h.store_within (by decide) rfl
  have hread {f : Field} (hf : (f, 0) ∈ wordFields (wprogPage e) 0x188) (harea : storeMask.testBit f.area = false) :
      (s.pageStore m (wprogPage e) 0x188 w).rf f e = bitsOf w f.lo f.len := by
    rw [hw.rf harea, s.rf_writePolicy m e w hf]
  rw [wordFields_policy] at hread
  exact ⟨hread (by decide) (by decide), hread (by decide) (by decide), hread (by decide) (by decide), hread (by decide) (by decide)⟩

/-! ### AGEING -/

/-- R545: a measurement of another cluster leaves this one's. -/
theorem State.ageCluster_ne (s : State) {c d : Nat} (hc : c < 32) (hd : d < 32) (h : d ≠ c) (a b : Nat) :
    Tbl.get? (s.ageCluster d a b).sen.ageD c = Tbl.get? s.sen.ageD c ∧
    (s.ageCluster d a b).rf R.AGEING_DEGRADE_PPM 0 c = s.rf R.AGEING_DEGRADE_PPM 0 c ∧
    Tbl.getD (s.ageCluster d a b).sen.ageSums c (0, 0) = Tbl.getD s.sen.ageSums c (0, 0) := by
  unfold State.ageCluster
  split
  · exact ⟨rfl, rfl, rfl⟩
  · dsimp only
    refine ⟨Tbl.get_put_ne _ _ h.symm, ?_, Tbl.getD_put_ne _ _ _ h.symm⟩
    exact State.rf_wf_of_index _ R.AGEING_DEGRADE_PPM 0 _ (by omega)

/-- R545: a measurement within the day's 86,400 joins the running average. -/
theorem State.ageCluster_same (s : State) (c a : Nat) {b n : Nat} {sum : Int} (hb : b ≠ 0) (hsums : Tbl.getD s.sen.ageSums c (0, 0) = (sum, n))
    (hn : n < 86400) :
    Tbl.get? (s.ageCluster c a b).sen.ageD c = some ((1000000 * ((b : Int) - a)).fdiv b - Config.factoryD c) ∧
    (s.ageCluster c a b).rf R.AGEING_DEGRADE_PPM 0 c =
      fieldOfInt 32 ((sum + ((1000000 * ((b : Int) - a)).fdiv b - Config.factoryD c)).fdiv (n + 1)) % 2 ^ 32 := by
  unfold State.ageCluster
  rw [if_neg hb, hsums]
  dsimp only
  rw [if_neg (Nat.not_le.2 hn)]
  refine ⟨Tbl.get_put_same _ _ _, ?_⟩
  rw [State.rf_wf_same]
  push_cast
  rfl

/-- What the clusters before and after `c` in a list do not change is what the measurement of `c` among them leaves. -/
theorem State.each_ageCluster (s : State) (pre post : List (Nat × Nat × Nat)) {c a b n : Nat} {sum : Int} (hc : c < 32)
    (hpre : ∀ x ∈ pre, x.1 < 32 ∧ x.1 ≠ c) (hpost : ∀ x ∈ post, x.1 < 32 ∧ x.1 ≠ c) (hb : b ≠ 0)
    (hsums : Tbl.getD s.sen.ageSums c (0, 0) = (sum, n)) (hn : n < 86400) :
    Tbl.get? (s.each (pre ++ (c, a, b) :: post) fun t e => t.ageCluster e.1 e.2.1 e.2.2).sen.ageD c =
      some ((1000000 * ((b : Int) - a)).fdiv b - Config.factoryD c) ∧
    (s.each (pre ++ (c, a, b) :: post) fun t e => t.ageCluster e.1 e.2.1 e.2.2).rf R.AGEING_DEGRADE_PPM 0 c =
      fieldOfInt 32 ((sum + ((1000000 * ((b : Int) - a)).fdiv b - Config.factoryD c)).fdiv (n + 1)) % 2 ^ 32 := by
  let measure (t : State) (e : Nat × Nat × Nat) : State := t.ageCluster e.1 e.2.1 e.2.2
  have hbefore : Tbl.getD (s.each pre measure).sen.ageSums c (0, 0) = (sum, n) := by
    rw [State.each_eq (fun t => Tbl.getD t.sen.ageSums c (0, 0)) (l := pre) (f := measure)
      (fun x hx t => (t.ageCluster_ne hc (hpre x hx).1 (hpre x hx).2 _ _).2.2) s, hsums]
  have hsame := (s.each pre measure).ageCluster_same c a hb hbefore hn
  have hd := State.each_eq (fun t => Tbl.get? t.sen.ageD c) (l := post) (f := measure)
    (fun x hx t => (t.ageCluster_ne hc (hpost x hx).1 (hpost x hx).2 _ _).1) (measure (s.each pre measure) (c, a, b))
  have hppm := State.each_eq (fun t => t.rf R.AGEING_DEGRADE_PPM 0 c) (l := post) (f := measure)
    (fun x hx t => (t.ageCluster_ne hc (hpost x hx).1 (hpost x hx).2 _ _).2.1) (measure (s.each pre measure) (c, a, b))
  have hsplit : s.each (pre ++ (c, a, b) :: post) measure = (measure (s.each pre measure) (c, a, b)).each post measure := by
    simp [State.each]
  rw [hsplit, hd, hppm]
  exact hsame

/-- A list of the measurements of the 32 clusters: the one of cluster `c` stands between those of other clusters. -/
theorem zip_range_split {counts : List (Nat × Nat)} {c a b : Nat} (hc : c < 32) (hget : counts[c]? = some (a, b)) :
    ∃ pre post, (List.range 32).zip counts = pre ++ (c, a, b) :: post ∧ (∀ x ∈ pre, x.1 < 32 ∧ x.1 ≠ c) ∧
      ∀ x ∈ post, x.1 < 32 ∧ x.1 ≠ c := by
  obtain ⟨hlt, hat⟩ := List.getElem?_eq_some_iff.1 hget
  have hidx : c < ((List.range 32).zip counts).length := by simp; omega
  have hel : ((List.range 32).zip counts)[c] = (c, a, b) := by simp [hat]
  refine ⟨((List.range 32).zip counts).take c, ((List.range 32).zip counts).drop (c + 1), ?_, ?_, ?_⟩
  · rw [← hel, List.getElem_cons_drop, List.take_append_drop]
  · intro x hx
    obtain ⟨i, hi, rfl⟩ := List.mem_take_iff_getElem.1 hx
    simp only [List.getElem_zip, List.getElem_range]
    omega
  · intro x hx
    obtain ⟨i, hi, rfl⟩ := List.mem_drop_iff_getElem.1 hx
    simp only [List.length_zip, List.length_range] at hi
    simp only [List.getElem_zip, List.getElem_range]
    omega

/-! ### Re-plans -/

/-- R50, R51: an interrupt of a page changes registers and the interrupts that wait, nothing else. -/
theorem State.setInts_eq (s : State) (p : Page) (mask : Nat) :
    ∃ r l q, s.setInts p mask = { s with regs := r, irqLatch := l, irqs := q } := by
  have hupd (t : State) : ∃ r l q, t.irqUpdate p = { t with regs := r, irqLatch := l, irqs := q } := by
    unfold State.irqUpdate
    split
    · split
      · exact ⟨_, _, _, rfl⟩
      · exact ⟨_, _, _, rfl⟩
    · exact ⟨_, _, _, rfl⟩
  unfold State.setInts
  dsimp only
  split
  · exact ⟨_, _, _, rfl⟩
  · obtain ⟨r, l, q, h⟩ := hupd ((s.wf p.intStatus p.inst (s.rf p.intStatus p.inst ||| mask % 2 ^ (intTop p.blk p.page + 1))).wf
      p.lastStamp p.inst s.now)
    exact ⟨r, l, q, h⟩

theorem State.setInt_eq (s : State) (p : Page) (b : Nat) : ∃ r l q, s.setInt p b = { s with regs := r, irqLatch := l, irqs := q } :=
  s.setInts_eq p _

@[simp] theorem State.setInt_sen (s : State) (p : Page) (b : Nat) : (s.setInt p b).sen = s.sen := by
  obtain ⟨r, l, q, h⟩ := s.setInt_eq p b
  rw [h]

@[simp] theorem State.setInt_now (s : State) (p : Page) (b : Nat) : (s.setInt p b).now = s.now := by
  obtain ⟨r, l, q, h⟩ := s.setInt_eq p b
  rw [h]

@[simp] theorem State.setInt_powered (s : State) (p : Page) (b : Nat) : (s.setInt p b).powered = s.powered := by
  obtain ⟨r, l, q, h⟩ := s.setInt_eq p b
  rw [h]

/-- R547: a re-plan ends with its stamps and its interrupt. -/
theorem State.replan_ends (s : State) : ∃ u : State, s.replan =
    (State.wf { u with sen := { u.sen with replanAt := u.powered, replanOwed := false } } R.AGEING_LAST_REPLAN_STAMP 0 u.now).setInt agePage
      R.INT_AGEING_REPLANNED := ⟨_, rfl⟩

/-- R547: a re-plan is stamped with the time it runs at. -/
theorem State.replan_stamps (s : State) :
    s.replan.rf R.AGEING_LAST_REPLAN_STAMP 0 = s.now % 2 ^ 64 ∧ s.replan.sen.replanAt = s.powered ∧ s.replan.sen.replanOwed = false := by
  suffices h : s.replan.rf R.AGEING_LAST_REPLAN_STAMP 0 = s.replan.now % 2 ^ 64 ∧ s.replan.sen.replanAt = s.replan.powered ∧
      s.replan.sen.replanOwed = false by
    have hw : s.Within 0x10400000000078000800000000004c020a s.replan := State.replan_frame (Sub.refl _) (s.frame_refl _)
    rwa [hw.now (by decide), hw.powered (by decide)] at h
  obtain ⟨u, hu⟩ := s.replan_ends
  rw [hu]
  refine ⟨?_, by simp, by simp⟩
  rw [State.rf_setInt_body _ _ _ (by decide), State.rf_wf_same]
  simp [R.AGEING_LAST_REPLAN_STAMP]

theorem State.replanHeld_congr {s t : State} (hrsts : t.rsts = s.rsts) (hsen : t.sen = s.sen)
    (hrun : t.rf R.OASIS_RESTARTING 0 = s.rf R.OASIS_RESTARTING 0) : t.replanHeld = s.replanHeld := by
  rw [State.replanHeld, State.rb, hrsts, hsen, hrun]
  rfl

/-- REPLAN_NOW (R552): a store of 1 to REPLAN_NOW runs the re-plan. -/
theorem replanNow_stamps (m : Master) (w : Nat) (s : State) (h : s.Writes m agePage 0x100 (w ||| 0x40)) (hheld : s.replanHeld = false) :
    (s.pageStore m agePage 0x100 (w ||| 0x40)).rf R.AGEING_LAST_REPLAN_STAMP 0 = s.now % 2 ^ 64 ∧
    (s.pageStore m agePage 0x100 (w ||| 0x40)).sen.replanAt = s.powered ∧
    (s.pageStore m agePage 0x100 (w ||| 0x40)).sen.replanOwed = false := by
  let stored := s.storeWord m agePage 0x100 (w ||| 0x40)
  have hbit : (w ||| 0x40).testBit 6 = true := by
    rw [Nat.testBit_or, show Nat.testBit 0x40 6 = true from rfl, Bool.or_true]
  have hblock : s.writeBlock m agePage 0x100 (w ||| 0x40) = (0, 0, stored.replanNow) := by
    have hother : s.writeOther m agePage 0x100 (w ||| 0x40) = stored.replanNow := by
      simp only [State.writeOther, agePage, stored]
      simp [hbit]
    rw [State.writeBlock, hother]
    rfl
  have hw : stored.replanNow.Within storeMask (s.pageStore m agePage 0x100 (w ||| 0x40)) := h.store_within (by decide) hblock
  have hstored : s.Within (2 ^ 80 - 1) stored := State.storeWord_frame (by decide) (s.frame_refl _)
  have hfields : ∀ fk ∈ wordFields agePage 0x100, R.OASIS_RESTARTING.code ≠ fk.1.code := by decide
  have hkept : stored.replanHeld = false := by
    rw [← hheld]
    exact State.replanHeld_congr (hstored.rsts (by decide)) (hstored.sen (by decide)) (State.rf_storeWord_of_code hfields _ _)
  have hrun : stored.replanNow = stored.replan := by
    rw [State.replanNow, hkept, if_neg Bool.false_ne_true]
  obtain ⟨hstamp, hat, howed⟩ := stored.replan_stamps
  rw [hrun] at hw
  rw [hw.rf (by decide), hw.sen (by decide), hstamp, hat, howed, hstored.now (by decide), hstored.powered (by decide)]
  exact ⟨rfl, rfl, rfl⟩

/-- Settles O16: the governor's clauses set single fields, the measurement of a cluster is one of a list's, a re-plan stamps itself last. -/
theorem governorAndAgeingComplete : Obligations.GovernorAndAgeingComplete := by
  unfold Obligations.GovernorAndAgeingComplete
  refine ⟨fun s => completes_of_next rfl rfl, fun s => completes_of_next rfl rfl, govPolicyWrite_completes, ?_, ?_, ?_⟩
  · intro counts c a b n sum s hsec hrun hc hget hb hsums hn
    refine completes_of_next rfl ?_
    obtain ⟨pre, post, hzip, hpre, hpost⟩ := zip_range_split hc hget
    have hmeasure := s.each_ageCluster (a := a) pre post hc hpre hpost hb hsums hn
    rw [State.ageMeasure, if_neg (by simp [hsec, hrun]), hzip]
    exact hmeasure
  · intro s hdue hheld
    refine completes_of_next rfl ?_
    have hrun : s.replanDue = s.replan := by
      rw [State.replanDue, if_pos (by simp [hdue, hheld])]
    rw [hrun]
    exact s.replan_stamps
  · intro m w s h hheld
    exact completes_of_next rfl (replanNow_stamps m w s h hheld)

end Sys2Proof.Machine
end

section
/-! Binding epochs to banks, the local flip and the activation of a variant (O17). -/

namespace Sys2Proof.Machine

/-! ### Idle engines and cores -/

/-- R147, R163: an engine that owes nothing starts nothing. -/
theorem State.tryOwed_idle {s : State} {e : Nat} (h1 : (s.progSt e).owed = none) (h2 : (s.progSt e).owed2 = none)
    (h3 : (s.progSt e).retrims = []) : s.tryOwed e = s := by
  unfold State.tryOwed
  simp only [h1, h2, h3, Option.isNone_none, if_true, ite_self]

/-- R69: a core with no tile that waits for its engine has nothing to try again. -/
theorem State.holdCheck_idle {s : State} {ck : Nat} (h : ∀ x ∈ (s.mcSt ck).steps, ∀ g ∈ x.engs, g.state ≠ 1) : s.holdCheck ck = s := by
  have hnone : ((s.mcSt ck).steps.flatMap fun x => (x.engs.filter fun e => e.state = 1).map fun e => (x, e.eng)) = [] := by
    rw [List.flatMap_eq_nil_iff]
    intro x hx
    rw [List.map_eq_nil_iff, List.filter_eq_nil_iff]
    intro g hg
    simp [h x hx g hg]
  unfold State.holdCheck
  dsimp only
  rw [hnone]
  rfl

theorem State.progSt_of_prog {s t : State} (h : t.prog = s.prog) (e : Nat) : t.progSt e = s.progSt e := by
  rw [State.progSt, h, ← State.progSt]

theorem State.mcSt_of_mc {s t : State} (h : t.mc = s.mc) (ck : Nat) : t.mcSt ck = s.mcSt ck := by
  rw [State.mcSt, h, ← State.mcSt]

/-- After a change of an idle engine's bindings nothing starts and no tile is tried again. -/
theorem State.rebound_idle {s t : State} {e : Nat} (hw : s.Within (touch [0x12, 0x13] [.eng]) t) (h1 : (s.progSt e).owed = none)
    (h2 : (s.progSt e).owed2 = none) (h3 : (s.progSt e).retrims = [])
    (h4 : ∀ x ∈ (s.mcSt (engCore e)).steps, ∀ g ∈ x.engs, g.state ≠ 1) : (t.tryOwed e).holdCheck (engCore e) = t := by
  have hprog := State.progSt_of_prog (hw.prog (by decide)) e
  rw [State.tryOwed_idle (by rw [hprog, h1]) (by rw [hprog, h2]) (by rw [hprog, h3]),
    State.holdCheck_idle (by rwa [State.mcSt_of_mc (hw.mc (by decide))])]

/-! ### Bindings -/

theorem epochBankF_mem (n : Nat) : epochBankF n ∈ [R.ENG_EPOCH0_BANK, R.ENG_EPOCH1_BANK, R.ENG_EPOCH2_BANK, R.ENG_EPOCH3_BANK] := by
  unfold epochBankF
  split
  · simp
  · split
    · simp
    · split <;> simp

theorem epochBankF_len (n : Nat) : (epochBankF n).len = 2 := by
  have h : ∀ f ∈ [R.ENG_EPOCH0_BANK, R.ENG_EPOCH1_BANK, R.ENG_EPOCH2_BANK, R.ENG_EPOCH3_BANK], f.len = 2 := by decide
  exact h _ (epochBankF_mem n)

theorem epochBankF_ne_stale (n : Nat) : (epochBankF n).code ≠ R.ENG_PILOT_STALE.code := by
  have h : ∀ f ∈ [R.ENG_EPOCH0_BANK, R.ENG_EPOCH1_BANK, R.ENG_EPOCH2_BANK, R.ENG_EPOCH3_BANK], f.code ≠ R.ENG_PILOT_STALE.code := by decide
  exact h _ (epochBankF_mem n)

theorem epochBankF_ne {i j : Nat} (hi : i < 4) (hj : j < 4) (h : i ≠ j) : (epochBankF i).code ≠ (epochBankF j).code := by
  interval_cases i <;> interval_cases j <;> first | exact absurd rfl h | decide

/-- R66: a binding word binds each epoch. -/
theorem State.rf_bind (s : State) (e w : Nat) {n : Nat} (hn : n < 4) : (s.bind e w).rf (epochBankF n) e = bitsOf w (2 * n) 2 := by
  rw [State.bind, State.rf_retrack _ _ _ (epochBankF_ne_stale n)]
  refine State.each_set (fun t => t.rf (epochBankF n) e) (List.mem_range.2 hn) (fun t => ?_) (fun i hi hne t => ?_) s
  · rw [State.rf_wf_same, epochBankF_len]
    exact Nat.mod_eq_of_lt (Nat.mod_lt _ (by decide))
  · exact t.rf_wf_of_code (epochBankF_ne hn (List.mem_range.1 hi) hne.symm) _ _ _ _ _

/-- BANK_CTL_WRITE (R66). -/
theorem bankCtlWrite_binds (m : Master) (e w : Nat) (s : State) (h : s.Writes m (engPage e) 0x100 w) (hok : s.badBinding e w = false)
    (h1 : (s.progSt e).owed = none) (h2 : (s.progSt e).owed2 = none) (h3 : (s.progSt e).retrims = [])
    (h4 : ∀ x ∈ (s.mcSt (engCore e)).steps, ∀ g ∈ x.engs, g.state ≠ 1) :
    Completes (.bankCtlWrite m e w) s fun t => ∀ n ∈ List.range 4, t.rf (epochBankF n) e = bitsOf w (2 * n) 2 := by
  refine completes_of_next rfl fun n hn => ?_
  have hidle : ((s.bind e w).tryOwed e).holdCheck (engCore e) = s.bind e w :=
    State.rebound_idle (State.bind_frame (by decide) (s.frame_refl _)) h1 h2 h3 h4
  have hblock : s.writeBlock m (engPage e) 0x100 w = (0, 0, s.bind e w) := by
    have hcond : s.writeBlock m (engPage e) 0x100 w =
      if s.badBinding e w = true then (arRefused, 0x10, s) else (0, 0, ((s.bind e w).tryOwed e).holdCheck (engCore e)) := rfl
    rw [hcond, hok, hidle]
    rfl
  have hw := h.store_within (by decide) hblock
  have harea : storeMask.testBit (epochBankF n).area = false := by
    have hall : ∀ f ∈ [R.ENG_EPOCH0_BANK, R.ENG_EPOCH1_BANK, R.ENG_EPOCH2_BANK, R.ENG_EPOCH3_BANK], storeMask.testBit f.area = false := by
      decide
    exact hall _ (epochBankF_mem n)
  rw [hw.rf harea, s.rf_bind e w (List.mem_range.1 hn)]

/-! ### The local flip -/

/-- R163: what makes a drifted bank of engine `e` flip to its twin. -/
def State.flips (s : State) (e b : Nat) : Bool :=
  s.bankBound e b && (s.rb (retrimF b) e || s.rb (driftHardF b) e) && s.ready e (1 - b) && !s.bankBound e (1 - b) &&
    s.rf (jcrcF b) e = s.rf (jcrcF (1 - b)) e && s.rf (jsrcF b) e = s.rf (jsrcF (1 - b)) e && !s.rb (retrimF (1 - b)) e

/-- R163: each epoch bound to bank `b` is bound to the other. -/
def State.flipEpochs (s : State) (e b : Nat) : State :=
  (s.each (List.range 4) fun u n => if s.rf (epochBankF n) e = b + 1 then u.wf (epochBankF n) e ((1 - b) + 1) else u).retrack e s

theorem State.localFlip_eq (s : State) (e : Nat) :
    s.localFlip e = s.each [0, 1] fun t b => if t.flips e b then t.flipEpochs e b else t := rfl

/-- R163: the epochs of the bank move to its twin, the others stay. -/
theorem State.rf_flipEpochs (s : State) (e : Nat) {b n : Nat} (hb : b < 2) (hn : n < 4) :
    (s.flipEpochs e b).rf (epochBankF n) e = if s.rf (epochBankF n) e = b + 1 then (1 - b) + 1 else s.rf (epochBankF n) e := by
  rw [State.flipEpochs, State.rf_retrack _ _ _ (epochBankF_ne_stale n)]
  by_cases hbound : s.rf (epochBankF n) e = b + 1
  · rw [if_pos hbound]
    refine State.each_set (fun t => t.rf (epochBankF n) e) (List.mem_range.2 hn) (fun t => ?_) (fun i hi hne t => ?_) s
    · rw [if_pos hbound, State.rf_wf_same, epochBankF_len]
      exact Nat.mod_eq_of_lt (by omega)
    · split
      · exact t.rf_wf_of_code (epochBankF_ne hn (List.mem_range.1 hi) hne.symm) _ _ _ _ _
      · rfl
  · rw [if_neg hbound]
    refine State.each_eq (fun t => t.rf (epochBankF n) e) (fun i hi t => ?_) s
    split
    · rename_i hi1
      have hne : n ≠ i := fun h => hbound (h ▸ hi1)
      exact t.rf_wf_of_code (epochBankF_ne hn (List.mem_range.1 hi) hne) _ _ _ _ _
    · rfl

/-- The bindings alone change: any other field of the engine reads as before. -/
theorem State.rf_flipEpochs_of_code (s : State) (e b : Nat) {g : Field} (hg : ∀ n, g.code ≠ (epochBankF n).code)
    (hs : g.code ≠ R.ENG_PILOT_STALE.code) (j l : Nat) : (s.flipEpochs e b).rf g j l = s.rf g j l := by
  rw [State.flipEpochs, State.rf_retrack _ _ _ hs]
  refine State.each_eq (fun t => t.rf g j l) (fun i _ t => ?_) s
  split
  · exact t.rf_wf_of_code (hg i) _ _ _ _ _
  · rfl

/-- A mark of a bank that is none of its bindings. -/
theorem bankMark_ne {f : Field} (h : f ∈ [R.ENG_A_RETRIM, R.ENG_B_RETRIM, R.ENG_A_DRIFT_HARD, R.ENG_B_DRIFT_HARD]) :
    (∀ n, f.code ≠ (epochBankF n).code) ∧ f.code ≠ R.ENG_PILOT_STALE.code := by
  have hall : ∀ f ∈ [R.ENG_A_RETRIM, R.ENG_B_RETRIM, R.ENG_A_DRIFT_HARD, R.ENG_B_DRIFT_HARD], f.code ≠ R.ENG_PILOT_STALE.code ∧
      ∀ g ∈ [R.ENG_EPOCH0_BANK, R.ENG_EPOCH1_BANK, R.ENG_EPOCH2_BANK, R.ENG_EPOCH3_BANK], f.code ≠ g.code := by decide
  exact ⟨fun n => (hall f h).2 _ (epochBankF_mem n), (hall f h).1⟩

theorem retrimF_mem (b : Nat) : retrimF b ∈ [R.ENG_A_RETRIM, R.ENG_B_RETRIM, R.ENG_A_DRIFT_HARD, R.ENG_B_DRIFT_HARD] := by
  unfold retrimF
  split <;> simp

theorem driftHardF_mem (b : Nat) : driftHardF b ∈ [R.ENG_A_RETRIM, R.ENG_B_RETRIM, R.ENG_A_DRIFT_HARD, R.ENG_B_DRIFT_HARD] := by
  unfold driftHardF
  split <;> simp

/-- A bank that has not drifted flips nothing. -/
theorem State.not_flips_of_marks {s : State} {e b : Nat} (h1 : s.rb (retrimF b) e = false) (h2 : s.rb (driftHardF b) e = false) :
    s.flips e b = false := by simp [State.flips, h1, h2]

/-- R163: with one bank drifted and its twin ready, unbound and unmarked, the flip is that of the drifted bank alone. -/
theorem State.localFlip_of_flips {s : State} {e b : Nat} (hb : b < 2) (h : s.flips e b = true) (h1 : s.rb (retrimF (1 - b)) e = false)
    (h2 : s.rb (driftHardF (1 - b)) e = false) : s.localFlip e = s.flipEpochs e b := by
  have hkeep {f : Field} (c : Nat) (hf : f ∈ [R.ENG_A_RETRIM, R.ENG_B_RETRIM, R.ENG_A_DRIFT_HARD, R.ENG_B_DRIFT_HARD]) :
      (s.flipEpochs e c).rb f e = s.rb f e := by
    rw [State.rb, State.rf_flipEpochs_of_code _ _ _ (bankMark_ne hf).1 (bankMark_ne hf).2, ← State.rb]
  rw [State.localFlip_eq]
  simp only [State.each, List.foldl_cons, List.foldl_nil]
  obtain rfl | rfl : b = 0 ∨ b = 1 := by omega
  · have hother : (s.flipEpochs e 0).flips e 1 = false :=
      State.not_flips_of_marks (by rw [hkeep 0 (retrimF_mem 1), h1]) (by rw [hkeep 0 (driftHardF_mem 1), h2])
    rw [h, if_pos rfl, hother, if_neg Bool.false_ne_true]
  · have hother : s.flips e 0 = false := State.not_flips_of_marks h1 h2
    rw [hother, if_neg Bool.false_ne_true, h, if_pos rfl]

/-- LOCAL_FLIP (R163). -/
theorem localFlip_flips (e b n : Nat) (s : State) (hb : b < 2) (hn : n < 4) (h1 : (s.progSt e).owed = none)
    (h2 : (s.progSt e).owed2 = none) (h3 : (s.progSt e).retrims = [])
    (h4 : ∀ x ∈ (s.mcSt (engCore e)).steps, ∀ g ∈ x.engs, g.state ≠ 1) (hflips : s.flips e b = true)
    (hr : s.rb (retrimF (1 - b)) e = false) (hd : s.rb (driftHardF (1 - b)) e = false) :
    Completes (.localFlip e) s fun t =>
      t.rf (epochBankF n) e = if s.rf (epochBankF n) e = b + 1 then (1 - b) + 1 else s.rf (epochBankF n) e := by
  refine completes_of_next rfl ?_
  rw [State.rebound_idle (State.localFlip_frame (by decide) (s.frame_refl _)) h1 h2 h3 h4, State.localFlip_of_flips hb hflips hr hd]
  exact s.rf_flipEpochs e hb hn

/-! ### An activation that ends, R314, R415 -/

theorem State.vstate_of_rf {s t : State} (h : ∀ k, t.rf R.SERVE2_STATE 0 k = s.rf R.SERVE2_STATE 0 k) (v : Nat) : t.vstate v = s.vstate v := h v

theorem State.vstate_setVState (s : State) (v : Nat) {st : Nat} (h : st < 8) : (s.setVState v st).vstate v = st := by
  rw [State.setVState, State.vstate, State.rf_setInt_body _ _ _ (by decide), State.rf_wf_same]
  exact Nat.mod_eq_of_lt h

@[simp] theorem State.setVar_var_same (s : State) (v : Nat) (x : VarSt) : (s.setVar v x).var v = x := by simp [State.setVar, State.var]

theorem State.vstate_setVar (s : State) (v : Nat) (x : VarSt) (u : Nat) : (s.setVar v x).vstate u = s.vstate u := rfl
theorem State.sec_setVar (s : State) (v : Nat) (x : VarSt) : (s.setVar v x).sec = s.sec := rfl

theorem State.Within.vstate {s t : State} {m : Nat} (h : s.Within m t) (hm : m.testBit 0x38 = false) (v : Nat) : t.vstate v = s.vstate v :=
  h.rf (by rw [show R.SERVE2_STATE.area = 0x38 from by decide]; exact hm)

/-- R147: the operations of a variant that wait are dropped. -/
def State.dropQueued (s : State) (v : Nat) : State :=
  (Tbl.keys s.prog).foldl (fun t k =>
    match (t.progSt k).queued with
    | some o => if o.var = some v then t.setProg k { t.progSt k with queued := none } else t
    | none => t) s

/-- R277, R415: nothing is staged for a variant any more. -/
def State.forgetStaging (s : State) (v : Nat) : State :=
  { s with
    sec := (s.sec.freeItems v).endStaging v
    prog := Tbl.update s.prog fun _ p =>
      { p with owed := p.owed.filter (fun (o : ProgOp) => o.var ≠ some v), running := p.running.map fun (o : ProgOp) =>
          if o.var = some v then { o with var := none } else o } }

theorem State.vstate_forgetStaging (s : State) (v u : Nat) : (s.forgetStaging v).vstate u = s.vstate u := rfl

/-- R314: the command that activates a variant has its final result. -/
def State.finalActivation (s : State) (v st : Nat) : State :=
  match (s.var v).activating with
  | some (qp, id) => s.finalRec qp id (servingWords st 0 0 0 (if st = stBusy then s.rf R.SERVE_RETRY_US 0 else 0) 0 0 0 0 0 0 0
      0 s.now 0 0)
  | none => s

theorem State.activationEnd_eq (s : State) (v st : Nat) :
    s.activationEnd v st = ((((s.setVState v vRegistered).dropQueued v).forgetStaging v).finalActivation v st).setVar v
      { ((((s.setVState v vRegistered).dropQueued v).forgetStaging v).finalActivation v st).var v with activating := none } := rfl

theorem State.dropQueued_within (s : State) (v : Nat) : s.Within (touch [0x13] [.prog]) (s.dropQueued v) := by
  refine foldl_frame (fun t k ht => ?_) (s.frame_refl _)
  split
  · exact ite_frame (State.setProg_frame (by decide) ht) ht
  · exact ht

theorem State.finalActivation_within (s : State) (v st : Nat) : s.Within (touch [] [.cmdRecs]) (s.finalActivation v st) := by
  unfold State.finalActivation
  split
  · exact State.finalRec_frame (by decide) (s.frame_refl _)
  · exact s.frame_refl _

/-- R314: the end of an activation leaves the variant registered and none of its staging. -/
theorem State.activationEnd_ends (s : State) (v st : Nat) :
    (s.activationEnd v st).vstate v = vRegistered ∧ Tbl.get? (s.activationEnd v st).sec.staging v = none := by
  rw [State.activationEnd_eq]
  have hdrop := (s.setVState v vRegistered).dropQueued_within v
  have hfinal := (((s.setVState v vRegistered).dropQueued v).forgetStaging v).finalActivation_within v st
  constructor
  · rw [State.vstate_setVar, hfinal.vstate (by decide), State.vstate_forgetStaging, hdrop.vstate (by decide)]
    exact s.vstate_setVState v (by decide)
  · rw [State.sec_setVar, hfinal.sec (by decide)]
    exact Tbl.get_del_same _ _

/-! ### ITEM_DECRYPTED, R415 -/

theorem State.itemStop_ends (s : State) (v i c : Nat) :
    (s.itemStop v i c).vstate v = vRegistered ∧ Tbl.get? (s.itemStop v i c).sec.staging v = none := by
  unfold State.itemStop
  split
  · exact State.activationEnd_ends _ v _
  · exact State.activationEnd_ends _ v _

/-- R415: a shard whose directory cannot be read ends the staging. -/
theorem State.itemDecrypted_of_unreadable {s : State} {v i : Nat} {g : StageSt} (hg : Tbl.get? s.sec.staging v = some g) (hi : i ∈ g.shards)
    {c : Nat} (hdir : (s.directory v i).1 = .inl c) (n ext sram : Nat) (last : Bool) :
    s.itemDecrypted v i n ext sram last = (s.directory v i).2.itemStop v i c := by
  obtain ⟨s0, hs0⟩ : ∃ s0, s.directory v i = (.inl c, s0) := ⟨(s.directory v i).2, Prod.ext hdir rfl⟩
  unfold State.itemDecrypted
  simp [hg, hi, hs0]

/-- R399, R367: an epoch route item's plaintext sets the routes it names. -/
def State.routeItem (s : State) (plain : List Nat) : State :=
  { s with tor := { s.tor with eps := (Config.itemWrites 6 plain).foldl (fun t y => Tbl.putD t 0 y.1 y.2) s.tor.eps } }

theorem State.routeItem_eps (s : State) (plain : List Nat) :
    (s.routeItem plain).tor.eps = (Config.itemWrites 6 plain).foldl (fun t y => Tbl.putD t 0 y.1 y.2) s.tor.eps := rfl

theorem State.routeItem_sec (s : State) (plain : List Nat) : (s.routeItem plain).sec = s.sec := rfl

/-- R415: an item of KIND 6 that decrypts is applied; the last of a shard ends it. -/
theorem State.itemDecrypted_of_routes {s : State} {v i n : Nat} {g : StageSt} (hg : Tbl.get? s.sec.staging v = some g) (hi : i ∈ g.shards)
    {es : List DirEntry} {e : DirEntry} {plain : List Nat} (hdir : (s.directory v i).1 = .inr es) (he : es[n]? = some e) (hk : e.kind = 6)
    (hplain : ((s.directory v i).2.decryptAt v i e.off e.len).1 = .inr plain) (ext sram : Nat) (last : Bool) :
    s.itemDecrypted v i n ext sram last =
      let t := (((s.directory v i).2.decryptAt v i e.off e.len).2).routeItem plain
      if last && (Tbl.get? t.sec.staging v).isSome then t.shardDone v i else t := by
  obtain ⟨s0, hs0⟩ : ∃ s0, s.directory v i = (.inr es, s0) := ⟨(s.directory v i).2, Prod.ext hdir rfl⟩
  rw [hs0] at hplain
  obtain ⟨s1, hs1⟩ : ∃ s1, s0.decryptAt v i e.off e.len = (.inr plain, s1) := ⟨_, Prod.ext hplain rfl⟩
  have hplaced : s.itemPlaced { toDirEntry := e, addr := ext, sram := sram } = true := by simp [State.itemPlaced, hk]
  have hstage : s1.stageItem v { toDirEntry := e, addr := ext, sram := sram } plain = s1.routeItem plain := by
    simp only [State.stageItem, hk]
    rfl
  unfold State.itemDecrypted
  simp only [hg, hi, hs0, he, hplaced, hs1, hstage, List.contains_eq_mem, decide_true, Bool.not_true, Bool.false_eq_true, if_false]

/-! ### Which cores are there -/

/-- R249: the map of a router reads the same where its page does. -/
theorem State.Within.mapEntry {s t : State} {m : Nat} (h : s.Within m t) (hm : m.testBit 0x18 = false) (router ck : Nat) :
    t.mapEntry router ck = s.mapEntry router ck := by
  have hread {f : Field} (hf : f.area = 0x18) (k : Nat) : t.rf f router k = s.rf f router k := h.rf (by rw [hf]; exact hm)
  have hlt := Nat.mod_lt (ck / 64 * 60 + ck % 64) (by decide : 8 > 0)
  unfold State.mapEntry
  dsimp only
  rw [hread (by decide) 0]
  generalize (ck / 64 * 60 + ck % 64) % 8 = n at hlt ⊢
  interval_cases n
  all_goals
    rw [hread (by decide), hread (by decide)]

theorem State.Within.isAbsent {s t : State} {m : Nat} (h : s.Within m t) (hm : m.testBit 0x18 = false) (ck : Nat) :
    t.isAbsent ck = s.isAbsent ck := by rw [State.isAbsent, h.mapEntry hm, ← State.isAbsent]

theorem State.Within.physOf {s t : State} {m : Nat} (h : s.Within m t) (hm : m.testBit 0x18 = false) (ck : Nat) :
    t.physOf ck = s.physOf ck := by rw [State.physOf, h.mapEntry hm, ← State.physOf]

theorem State.Within.gated {s t : State} {m : Nat} (h : s.Within m t) (hm : m.testBit 124 = false) (d : Dom) : t.gated d = s.gated d := by
  rw [State.gated, h.rsts hm, ← State.gated]

/-! ### EPOCH_BIND, R164 -/

theorem State.newEpoch_lt {s : State} {elsewhere ep : Nat} (h : s.newEpoch elsewhere = some ep) : ep < 4 := by
  have hmem := List.mem_of_find?_eq_some h
  simp only [List.mem_cons, List.not_mem_nil, or_false] at hmem
  rcases hmem with rfl | rfl | rfl <;> exact Nat.mod_lt _ (by decide)

/-- R164: passing the epoch on only sends messages. -/
theorem State.passEpoch_within (s : State) (v ep : Nat) : s.Within (touch [] [.out]) (s.passEpoch v ep) := by
  have hmesh (t : State) (d : Nat) (ws : List Nat) : t.mesh 22 d ws = t.emit (.mesh 22 d ws) := by simp [State.mesh]
  unfold State.passEpoch
  dsimp only
  refine ite_frame (s.frame_refl _) (State.each_frame (s.frame_refl _) fun t d ht => ?_)
  rw [hmesh]
  exact State.emit_frame (by decide) ht

/-- R164: the bindings of a placement's engines. -/
def State.bindItems (s : State) (v ep : Nat) : State :=
  s.each (s.var v).place.items fun t y =>
    ((((t.wf (epochBankF ep) y.1 (y.2.1 + 1)).retrack y.1 t).tryOwed y.1).holdCheck (engCore y.1))

/-- R164: the epoch is the last one given, and the variant's staging is over. -/
def State.epochGiven (s : State) (v last : Nat) : State :=
  { s with lastEpoch := last, sec := { s.sec with staging := Tbl.del s.sec.staging v } }

/-- R314: the command that activated the variant ends OK. -/
def State.activationOk (s : State) (a : Option (Nat × Nat)) : State :=
  match a with
  | some (qp, id) => s.finalRec qp id (s.servingShort stOk 0)
  | none => s

theorem State.activationOk_within (s : State) (a : Option (Nat × Nat)) : s.Within (touch [] [.cmdRecs]) (s.activationOk a) := by
  unfold State.activationOk
  split
  · exact State.finalRec_frame (by decide) (s.frame_refl _)
  · exact s.frame_refl _

/-- R164: the variant is ACTIVE at the epoch. -/
def State.activeAt (s : State) (v ep : Nat) : State := (s.wf R.SERVE2_EPOCH 0 ep v).setVState v vActive

theorem State.bindEpoch_eq {s : State} {v : Nat} (ep : Nat) (hhead : (s.var v).place.head = s.here) (hrep : (s.var v).replaces = none) :
    s.bindEpoch v ep =
      ((((s.bindItems v ep).epochGiven v ep).activeAt v ep).activationOk (s.var v).activating).setVar v
        { ((((s.bindItems v ep).epochGiven v ep).activeAt v ep).activationOk (s.var v).activating).var v with
          activating := none, replaces := none } := by
  unfold State.bindEpoch
  dsimp only
  rw [hrep, if_pos hhead]
  rfl

theorem State.activeAt_within (s : State) (v ep : Nat) : s.Within (touch [0x38] [.irqLatch, .irqs]) (s.activeAt v ep) :=
  State.setVState_frame (by decide) (State.wf_frame (by decide) (s.frame_refl _))

theorem State.rf_activeAt (s : State) (v : Nat) {ep : Nat} (h : ep < 4) : (s.activeAt v ep).rf R.SERVE2_EPOCH 0 v = ep := by
  rw [State.activeAt, State.setVState, State.rf_setInt_body _ _ _ (by decide), State.rf_wf_of_code _ (by decide), State.rf_wf_same]
  exact Nat.mod_eq_of_lt h

/-- R164: the binding leaves the variant ACTIVE at the new epoch. -/
theorem State.bindEpoch_active {s : State} {v ep : Nat} (hhead : (s.var v).place.head = s.here) (hrep : (s.var v).replaces = none)
    (hep : ep < 4) : (s.bindEpoch v ep).vstate v = vActive ∧ (s.bindEpoch v ep).rf R.SERVE2_EPOCH 0 v = ep ∧
      (s.bindEpoch v ep).lastEpoch = ep ∧ Tbl.get? (s.bindEpoch v ep).sec.staging v = none := by
  have hok := (((s.bindItems v ep).epochGiven v ep).activeAt v ep).activationOk_within (s.var v).activating
  have hact := ((s.bindItems v ep).epochGiven v ep).activeAt_within v ep
  rw [State.bindEpoch_eq ep hhead hrep]
  refine ⟨?_, ?_, ?_, ?_⟩
  · rw [State.vstate_setVar, hok.vstate (by decide)]
    exact State.vstate_setVState _ v (by decide)
  · exact (hok.rf (by decide)).trans (State.rf_activeAt _ v hep)
  · exact (hok.lastEpoch (by decide)).trans (hact.lastEpoch (by decide))
  · rw [State.sec_setVar, hok.sec (by decide), hact.sec (by decide)]
    exact Tbl.get_del_same _ _

/-- EPOCH_BIND (R164). -/
theorem epochBind_binds (v elsewhere given ep : Nat) (g : StageSt) (s : State) (hg : Tbl.get? s.sec.staging v = some g)
    (hst : s.vstate v = vStaging) (hstaged : s.staged v g = true) (hc : s.rb R.CARAVAN_COMPLETE 0 v = true)
    (himg : (s.var v).place.items.find? (fun x => s.rf (jcrcF x.2.1) x.1 ≠ x.2.2.2.2) = none)
    (hhead : (s.var v).place.head = s.here) (hnew : s.newEpoch elsewhere = some ep) (hrep : (s.var v).replaces = none)
    (hbind : s.bindable v = true) :
    Completes (.epochBind v elsewhere { value := given, confirmed := true }) s fun t =>
      t.vstate v = vActive ∧ t.rf R.SERVE2_EPOCH 0 v = ep ∧ t.lastEpoch = ep ∧ Tbl.get? t.sec.staging v = none := by
  refine completes_of_next rfl ?_
  have hpass := s.passEpoch_within v ep
  have hvar : (s.passEpoch v ep).var v = s.var v := by rw [State.var, hpass.vars (by decide), ← State.var]
  have hhere : (s.passEpoch v ep).here = s.here := by rw [State.here, hpass.rf (by decide), ← State.here]
  have hb : (s.passEpoch v ep).bindable v = true := by
    rw [← hbind, State.bindable, hvar]
    simp only [hpass.gated (by decide), hpass.isAbsent (by decide)]
    rfl
  have hrun : s.epochBind v elsewhere given true = (s.passEpoch v ep).bindEpoch v ep := by
    unfold State.epochBind
    simp only [hg, hst, hstaged, hc, hhead, hnew, hb, ne_eq, not_true_eq_false, Bool.not_true, Bool.false_eq_true, or_self, if_false, if_true,
      Bool.and_self]
    rw [himg]
  rw [hrun]
  exact State.bindEpoch_active (by rw [hvar, hhere, hhead]) (by rw [hvar, hrep]) (State.newEpoch_lt hnew)

/-! ### Answers -/

/-- What follows an answer without sending or opening anything leaves it the answer. -/
theorem State.Answered.of_within {s u t : State} {c : Cmd} {op m : Nat} {body : List Nat} (h : s.Answered u c op body) (hw : u.Within m t)
    (hout : m.testBit 135 = false) (hcmds : m.testBit 89 = false) : s.Answered t c op body := by
  obtain ⟨hsent, hclosed⟩ := h
  refine ⟨?_, ?_⟩
  · rwa [hw.out hout]
  · rwa [State.openCmd, hw.cmds hcmds, ← State.openCmd]

/-- R342: an early completion ends the command, whose record stays open. -/
theorem State.answered_replyEarly {s u : State} {op : Nat} {c : Cmd} {body : List Nat}
    (ho : u.openCmd c.qp c.cmdId = some (s.opened op c)) (hc : u.connected c.qp = true) :
    s.Answered (u.replyEarly c.qp c.cmdId body) c op body := by
  unfold State.replyEarly
  rw [ho]
  dsimp only [State.opened]
  simp only [Bool.false_eq_true, if_false]
  have hc2 : (State.setRec { u with cmds := u.cmds.filter fun x => !(x.qp = c.qp && x.cmdId = c.cmdId) } c.qp c.cmdId fun r =>
      { r with result := resExecuted, body := body }).connected c.qp = true := hc
  unfold State.sendCompletion
  rw [if_pos hc2]
  refine ⟨⟨_, rfl⟩, ?_⟩
  unfold State.openCmd
  rw [List.find?_eq_none]
  intro x hx
  rw [State.wf_cmds, State.inc_cmds] at hx
  have hx2 : x ∈ u.cmds.filter fun x => !(x.qp = c.qp && x.cmdId = c.cmdId) := hx
  have := (List.mem_filter.mp hx2).2
  simpa [or_iff_not_imp_left] using this

/-! ### The register table through an admission -/

theorem Tbl.all_ins {α : Type} (p : Nat × α → Bool) (t : Tbl α) (x : Nat) (a : α) : (Tbl.ins t x a).all p = (p (x, a) && t.all p) := by
  induction t with
  | nil => rfl
  | cons e t ih =>
    obtain ⟨k, v⟩ := e
    unfold Tbl.ins
    split
    · rfl
    · rw [List.all_cons, ih, List.all_cons, Bool.and_left_comm]

theorem Tbl.all_del_of {α : Type} {p : Nat × α → Bool} (t : Tbl α) {x : Nat} (hp : ∀ b, p (x, b) = true) : (Tbl.del t x).all p = t.all p := by
  induction t with
  | nil => rfl
  | cons e t ih =>
    obtain ⟨k, v⟩ := e
    unfold Tbl.del
    split
    · rename_i hk
      rw [ih, List.all_cons, hk, hp, Bool.true_and]
    · rw [List.all_cons, ih, List.all_cons]

/-- A condition that every value of a key meets holds of all entries after a write of that key as before. -/
theorem Tbl.all_put_of {α : Type} {p : Nat × α → Bool} (t : Tbl α) {x : Nat} (a : α) (hp : ∀ b, p (x, b) = true) :
    (Tbl.put t x a).all p = t.all p := by rw [Tbl.put, Tbl.all_ins, hp, Bool.true_and, Tbl.all_del_of t hp]

/-- R164: no engine has the epoch bound. -/
def State.epochUnbound (s : State) (n : Nat) : Bool := s.regs.all fun c => decide (c.1 / 2 ^ 32 ≠ (epochBankF n).code) || c.2 = 0

theorem Field.cell_div (f : Field) (i k : Nat) : f.cell i k / 2 ^ 32 = f.code := by
  unfold Field.cell
  have h1 := Nat.mod_lt i (by decide : 65536 > 0)
  have h2 := Nat.mod_lt k (by decide : 65536 > 0)
  omega

theorem State.epochUnbound_wf (s : State) {f : Field} {n : Nat} (h : f.code ≠ (epochBankF n).code) (i v k : Nat) :
    (s.wf f i v k).epochUnbound n = s.epochUnbound n := by
  refine Tbl.all_put_of _ _ fun b => ?_
  rw [Field.cell_div]
  simp [h]

theorem State.epochUnbound_inc (s : State) {f : Field} {n : Nat} (h : f.code ≠ (epochBankF n).code) (i d k : Nat) :
    (s.inc f i d k).epochUnbound n = s.epochUnbound n := by
  obtain ⟨v, hv⟩ := s.inc_eq f i d k
  rw [hv, s.epochUnbound_wf h]

/-- A register of a queue pair or a host port is no binding. -/
theorem epochBankF_ne_transport (n : Nat) {f : Field}
    (hf : f ∈ [R.QP_COMMANDS, R.QP_SLOTS_FREE, R.QP_RQ_PSN, R.QP_SQ_PSN, R.HOST_FRAMES_TX]) : f.code ≠ (epochBankF n).code := by
  have hall : ∀ f ∈ [R.QP_COMMANDS, R.QP_SLOTS_FREE, R.QP_RQ_PSN, R.QP_SQ_PSN, R.HOST_FRAMES_TX],
      ∀ g ∈ [R.ENG_EPOCH0_BANK, R.ENG_EPOCH1_BANK, R.ENG_EPOCH2_BANK, R.ENG_EPOCH3_BANK], f.code ≠ g.code := by decide
  exact hall f hf _ (epochBankF_mem n)

theorem State.epochUnbound_opening (s : State) (op : Nat) (c : Cmd) (n : Nat) : (s.opening op c).epochUnbound n = s.epochUnbound n := by
  have hregs : (s.opening op c).epochUnbound n =
      ((((s.transportAck c.qp).inc R.QP_COMMANDS c.qp).dec R.QP_SLOTS_FREE c.qp).inc R.QP_RQ_PSN c.qp).epochUnbound n := rfl
  rw [hregs, State.epochUnbound_inc _ (epochBankF_ne_transport n (by decide)), State.dec,
    State.epochUnbound_wf _ (epochBankF_ne_transport n (by decide)), State.epochUnbound_inc _ (epochBankF_ne_transport n (by decide)),
    State.transportAck, State.framesOut, State.epochUnbound_inc _ (epochBankF_ne_transport n (by decide))]
  rfl

theorem State.started_of_class (s : State) (op : Nat) (c : Cmd) {cls : Class} (h : cls ≠ .l) : s.started op c cls = s.opening op c := by
  rw [State.started, if_neg h]

/-! ### VARIANT_ACTIVATE, R314 -/

theorem State.newEpoch_congr {s t : State} (hst : ∀ v, t.vstate v = s.vstate v) (hep : ∀ v, t.rf R.SERVE2_EPOCH 0 v = s.rf R.SERVE2_EPOCH 0 v)
    (hun : ∀ n, t.epochUnbound n = s.epochUnbound n) (hlast : t.lastEpoch = s.lastEpoch) (elsewhere : Nat) :
    t.newEpoch elsewhere = s.newEpoch elsewhere := by
  have hfree (n : Nat) : t.epochFree elsewhere n = s.epochFree elsewhere n := by
    have hn := hun n
    unfold State.epochUnbound at hn
    unfold State.epochFree
    simp only [hst, hep, hn]
  have hfun : t.epochFree elsewhere = s.epochFree elsewhere := funext hfree
  rw [State.newEpoch, State.newEpoch, hlast, hfun]

theorem State.banksHeld_congr {s t : State} (hst : ∀ v, t.vstate v = s.vstate v)
    (hep : ∀ v, t.rf R.SERVE2_EPOCH 0 v = s.rf R.SERVE2_EPOCH 0 v) (hbank : ∀ n e, t.rf (epochBankF n) e = s.rf (epochBankF n) e)
    (r : Nat) (p : Placement) : t.banksHeld r p = s.banksHeld r p := by simp only [State.banksHeld, hst, hep, hbank]

/-- R314: the check of an activation is about the variants and the engines, which the admission leaves. -/
theorem State.activateCheck_opening (s : State) (c : Cmd) (p : Placement) (elsewhere : Nat) :
    (s.opening 0x26 c).activateCheck c p elsewhere = s.activateCheck c p elsewhere := by
  have hw := s.opening_within 0x26 c
  have hst (v : Nat) : (s.opening 0x26 c).vstate v = s.vstate v := hw.vstate (by decide) v
  have hep (v : Nat) : (s.opening 0x26 c).rf R.SERVE2_EPOCH 0 v = s.rf R.SERVE2_EPOCH 0 v := hw.rf (by decide)
  have hbank (n e : Nat) : (s.opening 0x26 c).rf (epochBankF n) e = s.rf (epochBankF n) e := by
    have hall : ∀ f ∈ [R.ENG_EPOCH0_BANK, R.ENG_EPOCH1_BANK, R.ENG_EPOCH2_BANK, R.ENG_EPOCH3_BANK], startMask.testBit f.area = false := by
      decide
    exact hw.rf (hall _ (epochBankF_mem n))
  have hmod : (s.opening 0x26 c).modState = s.modState := hw.rf (by decide)
  have hnew := State.newEpoch_congr hst hep (fun n => s.epochUnbound_opening 0x26 c n) (hw.lastEpoch (by decide)) elsewhere
  unfold State.activateCheck
  simp only [hmod, hst, hnew, State.banksHeld_congr hst hep hbank]

/-- R157: the governor judges by the programming engine's page and the powered time. -/
theorem State.Within.govWait {s t : State} {m : Nat} (h : s.Within m t) (hm : m.testBit 0x13 = false) (hp : m.testBit 116 = false)
    (e bank purpose : Nat) : t.govWait e bank purpose = s.govWait e bank purpose := by
  have hread {f : Field} (hf : f.area = 0x13) : t.rf f e = s.rf f e := h.rf (by rw [hf]; exact hm)
  have hmax : (rowMaxF bank).area = 0x13 := by
    unfold rowMaxF
    split <;> decide
  unfold State.govWait State.govLimit State.swapLimit State.retrimLimit State.allowance
  simp only [h.powered hp, hread hmax, hread (f := R.WPROG_RESERVE) (by decide), hread (f := R.WPROG_BURST) (by decide),
    hread (f := R.WPROG_PLAN_DAYS) (by decide)]

theorem State.Within.judgeSwap {s t : State} {m : Nat} (h : s.Within m t) (hm : m.testBit 0x13 = false) (hp : m.testBit 116 = false)
    (l : List (Nat × Nat)) : t.judgeSwap l = s.judgeSwap l := by
  induction l with
  | nil => rfl
  | cons x l ih =>
    have hdefer : t.rf R.WPROG_DEFER_MAX x.1 = s.rf R.WPROG_DEFER_MAX x.1 :=
      h.rf (by rw [show R.WPROG_DEFER_MAX.area = 0x13 from by decide]; exact hm)
    rw [State.judgeSwap, State.judgeSwap, ih, h.govWait hm hp, hdefer]

/-- R314: the variant with its placement, activated by the command. -/
def VarSt.activatedBy (x : VarSt) (c : Cmd) (p : Placement) : VarSt :=
  { x with activating := some (c.qp, c.cmdId), replaces := if c.f 0 6 6 = 0x3F then none else some (c.f 0 6 6), preemptReplaced := c.b 0 12,
           place := p }

/-- R314: the state in which staging begins. -/
def State.activating (s : State) (c : Cmd) (p : Placement) : State :=
  (((s.setVar (c.f 0 0 6) ((s.var (c.f 0 0 6)).activatedBy c p)).replyEarly c.qp c.cmdId
    ((s.setVar (c.f 0 0 6) ((s.var (c.f 0 0 6)).activatedBy c p)).servingShort stAccepted 0))).setVState (c.f 0 0 6) vStaging

theorem State.activating_within (s : State) (c : Cmd) (p : Placement) :
    (s.setVar (c.f 0 0 6) ((s.var (c.f 0 0 6)).activatedBy c p)).Within (touch [0x28, 0x29, 0x38] [.cmds, .cmdRecs, .qps, .out, .irqLatch, .irqs])
      (s.activating c p) :=
  State.setVState_frame (by decide) (State.replyEarly_frame (by decide) (State.frame_refl _ _))

theorem State.activateVariant_eq {s : State} {c : Cmd} {p : Placement} {elsewhere : Nat} (h : s.activateCheck c p elsewhere = none) :
    s.activateVariant c p elsewhere = (s.activating c p).stageBegin (c.f 0 0 6) := by
  unfold State.activateVariant
  rw [h]
  rfl

/-- R415: a variant is being staged. -/
def State.setStaging (s : State) (v : Nat) (g : StageSt) : State := { s with sec := { s.sec with staging := Tbl.put s.sec.staging v g } }

theorem State.setStaging_within (s : State) (v : Nat) (g : StageSt) : s.Within (touch [] [.sec]) (s.setStaging v g) := by
  refine State.frame_mk (s.frame_refl _) ?_
  have hb : (touch [] [.sec]).testBit 131 = true := by decide
  simp only [hb, true_or, or_true, and_true]

theorem State.staging_setStaging (s : State) (v : Nat) (g : StageSt) : Tbl.get? (s.setStaging v g).sec.staging v = some g :=
  Tbl.get_put_same _ _ _

/-- R314, R415: where nothing stops it, staging begins with the variant's own shards. -/
theorem State.stageBegin_eq {s : State} {v w : Nat} {m : Manifest} (hm : s.man v = some m) (hkey : (s.keySlot m.keyId).isSome = true)
    (hheld : ∀ i ∈ s.ownShards m, (s.shard v i).held = true)
    (hj : s.judgeSwap ((s.var v).place.items.map fun x => (x.1, x.2.1)) = (none, w)) :
    s.stageBegin v =
      s.setStaging v { shards := s.ownShards m, deferUntil := if w = 0 then 0 else s.now + w * 1000000000 } := by
  have hfind : (s.ownShards m).find? (fun i => !(s.shard v i).held) = none := by
    rw [List.find?_eq_none]
    intro i hi
    simp [hheld i hi]
  have hsome : (s.keySlot m.keyId).isNone = false := by
    rw [← Option.not_isSome, hkey]
    rfl
  unfold State.stageBegin
  simp only [hm, hsome, hfind, hj, Bool.false_eq_true, if_false]
  rfl

/-- VARIANT_ACTIVATE (R314). -/
theorem variantActivate_stages (c : Cmd) (p : Placement) (elsewhere w : Nat) (m : Manifest) (s : State) (h : s.Takes c)
    (hwords : c.bodyWords = 1) (hcheck : s.activateCheck c p elsewhere = none) (hman : s.man (c.f 0 0 6) = some m)
    (hkey : (s.keySlot m.keyId).isSome = true) (hheld : ∀ i ∈ s.ownShards m, (s.shard (c.f 0 0 6) i).held = true)
    (hjudge : s.judgeSwap (p.items.map fun x => (x.1, x.2.1)) = (none, w)) :
    Completes (.variantActivate c p elsewhere) s fun t =>
      t.vstate (c.f 0 0 6) = vStaging ∧ (t.var (c.f 0 0 6)).place = p ∧
      Tbl.get? t.sec.staging (c.f 0 0 6) = some { shards := s.ownShards m, deferUntil := if w = 0 then 0 else s.now + w * 1000000000 } ∧
      s.Answered t c 0x26 (s.servingShort stAccepted 0) := by
  have hrun : exec (.variantActivate c p elsewhere) s = .next ((s.opening 0x26 c).activateVariant c p elsewhere) := by
    refine congrArg Host.Outcome.next ?_
    rw [State.vorane_takes h (by decide) (by simp [hwords]), State.started_of_class _ _ _ (by decide)]
  refine completes_of_next hrun ?_
  rw [State.activateVariant_eq (by rw [State.activateCheck_opening, hcheck])]
  have hopen := s.opening_within 0x26 c
  have hw : s.Within (touch [0x28, 0x29, 0x38] [.cmds, .cmdRecs, .qps, .out, .irqLatch, .irqs, .vars]) ((s.opening 0x26 c).activating c p) :=
    State.setVState_frame (by decide) (State.replyEarly_frame (by decide) (State.setVar_frame (by decide) (hopen.mono (by decide))))
  have hplace : (((s.opening 0x26 c).activating c p).var (c.f 0 0 6)).place = p := by
    rw [State.var, ((s.opening 0x26 c).activating_within c p).vars (by decide), ← State.var, State.setVar_var_same]
    rfl
  have hown : ((s.opening 0x26 c).activating c p).ownShards m = s.ownShards m := by
    rw [State.ownShards, State.here, hw.rf (by decide), ← State.here, ← State.ownShards]
  have hstage := State.stageBegin_eq (s := (s.opening 0x26 c).activating c p) (v := c.f 0 0 6) (w := w) (m := m)
    (by rw [State.man, hw.sec (by decide), ← State.man, hman])
    (by
      have hslot : ((s.opening 0x26 c).activating c p).keySlot m.keyId = s.keySlot m.keyId := by
        simp only [State.keySlot, State.rb, hw.rf (f := R.KEYS1_LOADED) (by decide), hw.rf (f := R.KEYS1_KEY_ID) (by decide)]
      rw [hslot, hkey])
    (by
      rw [hown]
      intro i hi
      rw [State.shard, hw.sec (by decide), ← State.shard, hheld i hi])
    (by rw [hplace, hw.judgeSwap (by decide) (by decide), hjudge])
  rw [hstage]
  have hanswer : s.Answered ((s.opening 0x26 c).activating c p) c 0x26 (s.servingShort stAccepted 0) := by
    have hbody : ((s.opening 0x26 c).setVar (c.f 0 0 6) (((s.opening 0x26 c).var (c.f 0 0 6)).activatedBy c p)).servingShort stAccepted 0 =
        s.servingShort stAccepted 0 := by
      have hnow : ((s.opening 0x26 c).setVar (c.f 0 0 6) (((s.opening 0x26 c).var (c.f 0 0 6)).activatedBy c p)).now = s.now :=
        hopen.now (by decide)
      rw [State.servingShort, hnow]
      rfl
    refine State.Answered.of_within (m := touch [0x38] [.irqLatch, .irqs]) ?_ (State.setVState_frame (by decide) (State.frame_refl _ _))
      (by decide) (by decide)
    rw [hbody]
    refine State.answered_replyEarly ?_ ?_
    · have hopened := State.started_openCmd (s := s) (op := 0x26) (c := c) (cls := .f) h.2.2.1
      rwa [State.started_of_class _ _ _ (by decide)] at hopened
    · have hconn := State.started_connected s 0x26 c .f c.qp
      rw [State.started_of_class _ _ _ (by decide), h.connected] at hconn
      exact hconn
  have hset := State.setStaging_within ((s.opening 0x26 c).activating c p) (c.f 0 0 6)
    { shards := s.ownShards m, deferUntil := if w = 0 then 0 else s.now + w * 1000000000 }
  rw [hown, hw.now (by decide)]
  refine ⟨?_, ?_, State.staging_setStaging _ _ _, hanswer.of_within hset (by decide) (by decide)⟩
  · rw [hset.vstate (by decide), State.activating]
    exact State.vstate_setVState _ _ (by decide)
  · rw [State.var, hset.vars (by decide), ← State.var, hplace]

/-- Settles O17: each clause by the lemma of its command. -/
theorem banksAndEpochsComplete : Obligations.BanksAndEpochsComplete := by
  unfold Obligations.BanksAndEpochsComplete
  refine ⟨bankCtlWrite_binds, ?_, variantActivate_stages, ?_, ?_⟩
  · intro e b n s hb hn h1 h2 h3 h4 hbound hdrift hready hfree hcrc hsrc hr hd
    refine localFlip_flips e b n s hb hn h1 h2 h3 h4 ?_ hr hd
    simp [State.flips, hbound, hdrift, hready, hfree, hcrc, hsrc, hr]
  · intro v i n ext sram unit last g s hg hi
    refine completes_of_next rfl ⟨fun c hdir => ?_, fun es e plain hdir he hk hplain => ?_⟩
    · rw [State.itemDecrypted_of_unreadable hg hi hdir]
      exact State.itemStop_ends _ v i c
    · have hread : s.Within 0x7800000000000100000002 ((s.directory v i).2.decryptAt v i e.off e.len).2 :=
        State.decryptAt_frame (by decide) (State.directory_frame (by decide) (s.frame_refl _))
      rw [State.itemDecrypted_of_routes hg hi hdir he hk hplain]
      generalize ((s.directory v i).2.decryptAt v i e.off e.len).2 = u at hread ⊢
      dsimp only
      constructor
      · have hdone : (u.routeItem plain).Within (allBut 134) ((u.routeItem plain).shardDone v i) :=
          State.shardDone_frame (by decide) (State.frame_refl _ _)
        rw [← hread.tor (by decide), ← State.routeItem_eps]
        split
        · rw [hdone.tor (by decide)]
        · rfl
      · intro hlast
        rw [if_neg (by simp [hlast]), State.routeItem_sec, hread.sec (by decide), hg]
  · intro v elsewhere given ep g s hg hst hstaged hc himg hhead hnew hrep _ hbind
    exact epochBind_binds v elsewhere given ep g s hg hst hstaged hc himg hhead hnew hrep hbind

end Sys2Proof.Machine
end

section
/-! Refutations by a concrete state: a BROADCAST started away from its root (O47) and a fence whose detection names a core that is not
there (O51). -/

namespace Sys2Proof.Machine

/-! ### A BROADCAST away from its root -/

/-- Descriptor 0 is a valid BROADCAST of no elements whose root is module 1; this module is module 0. -/
def broadcastElsewhere : State :=
  (((((State.reset.wf R.TORUS2_C_VALID 0 1).wf R.TORUS2_C_OP 0 3).wf R.TORUS2_C_DIMS 0 1).wf R.TORUS2_C_CHUNK_BLOCKS 0 1).wf
    R.TORUS2_C_OPFMT 0 1).wf R.TORUS2_C_ROOT 0 1

theorem broadcastElsewhere_valid : broadcastElsewhere.rf R.TORUS2_C_VALID 0 0 = 1 ∧ (broadcastElsewhere.coll 0).running = false ∧
    broadcastElsewhere.collOk 0 = true ∧ (broadcastElsewhere.coll 0).parts = [] ∧
    broadcastElsewhere.rf R.TORUS2_C_ELEMENTS 0 0 / 32 = 0 := by decide +kernel

/-- Only the root begins a BROADCAST (R388): nothing starts here. -/
theorem broadcastElsewhere_result : broadcastElsewhere.rf R.TORUS2_C_INSTANCE 0 0 = 0 ∧
    readAfter (.collectiveStart 0) broadcastElsewhere 1 (fun t => t.rf R.TORUS2_C_INSTANCE 0 0) = 0 := by decide +kernel

/-- Refutes O47: COLLECTIVE_START of a BROADCAST does nothing on a module that is not its root (R388), and the statement does not exclude
it. -/
theorem not_collectivesComplete : ¬ Obligations.CollectivesComplete := by
  unfold Obligations.CollectivesComplete
  rintro ⟨hstart, -⟩
  obtain ⟨hvalid, hidle, hok, hparts, helements⟩ := broadcastElsewhere_valid
  obtain ⟨hbefore, hafter⟩ := broadcastElsewhere_result
  obtain ⟨t, ht, hinstance, -⟩ := hstart 0 0 broadcastElsewhere (by decide) hvalid hidle hok
    (by rw [hparts, helements]; rfl) (by rw [hparts]; intro p hp; cases hp)
  rw [readAfter_of_next _ _ ht, hinstance, hbefore] at hafter
  exact absurd hafter (by decide)

/-! ### A fence of a core that is not there -/

/-- What holds before a repetition and is kept by each step holds after it. -/
theorem State.each_ind {α : Type} (P : State → Prop) {l : List α} {f : State → α → State} {s : State} (hs : P s)
    (h : ∀ x ∈ l, ∀ t, P t → P (f t x)) : P (s.each l f) := by
  unfold State.each
  induction l generalizing s with
  | nil => exact hs
  | cons x l ih => exact ih (h x List.mem_cons_self s hs) fun y hy => h y (List.mem_cons_of_mem _ hy)

theorem State.each_cons {α : Type} (s : State) (x : α) (l : List α) (f : State → α → State) : s.each (x :: l) f = (f s x).each l f := rfl

/-- A table kept by a test of the keys. -/
theorem Tbl.get_keep {α : Type} (t : Tbl α) (p : Nat → Bool) (x : Nat) :
    Tbl.get? (Tbl.keep t fun k _ => p k) x = if p x then Tbl.get? t x else none := by
  induction t with
  | nil => simp [Tbl.keep, Tbl.get?]
  | cons e t ih =>
    obtain ⟨k, v⟩ := e
    simp only [Tbl.keep] at ih
    by_cases hk : k = x
    · subst hk
      cases hp : p k <;> simp [Tbl.keep, Tbl.get?, hp] at ih ⊢
      exact ih
    · cases hp : p k <;> simp [Tbl.keep, Tbl.get?, hp, hk, ih]

/-- The cells of the column corrections of an engine, without the index within the field. -/
def correctionCells (e : Nat) : List Nat :=
  [R.POST_CG_A_0, R.POST_CO_A_0, R.POST_CG_A_1, R.POST_CO_A_1, R.POST_CG_B_0, R.POST_CO_B_0, R.POST_CG_B_1,
    R.POST_CO_B_1].map fun (f : Field) => f.code * 65536 + e

/-- R453: the registers without an engine's column corrections. -/
def State.uncorrected (s : State) (e : Nat) : State :=
  { s with regs := Tbl.keep s.regs fun k _ => !(correctionCells e).contains (k / 65536) }

/-- R453: beside the corrections dropped, the engine's new start leaves the pages of the physical cores alone. -/
theorem State.spareEngine_within (s : State) (e : Nat) : (s.uncorrected e).Within (allBut 0x16) (s.spareEngine e) := by
  unfold State.spareEngine
  refine State.tryOwed_frame (by decide) (State.setProg_frame (by decide) (State.setEng_frame (by decide) ?_))
  refine foldl_frame (fun t b ht => ?_) (foldl_frame (fun t n ht => State.wf_frame (epochBankF_bit (Sub.refl _) (by decide)) ht)
    (State.frame_refl _ _))
  exact State.setBankState_frame (by decide) (State.wf_frame (wornF_bit (Sub.refl _) (by decide)) (State.wf_frame
    (rowTotalF_bit (Sub.refl _) (by decide)) (State.wf_frame (rowMaxF_bit (Sub.refl _) (by decide)) (State.loadEntry_frame (by decide) ht))))

/-- The stamp of a fence of core `ck` shares the number of its cell with a column correction of the core's engine 0. -/
def stampShared (ck : Nat) : Bool := (correctionCells (engInst ck 0)).contains (R.PCORE_FENCE_STAMP.cell ck 0 / 65536)

theorem State.stamp_uncorrected (s : State) (e ck : Nat) : (s.uncorrected e).rf R.PCORE_FENCE_STAMP ck =
    if (correctionCells e).contains (R.PCORE_FENCE_STAMP.cell ck 0 / 65536) then 0 else s.rf R.PCORE_FENCE_STAMP ck := by
  have hget := Tbl.get_keep s.regs (fun k => !(correctionCells e).contains (k / 65536)) (R.PCORE_FENCE_STAMP.cell ck 0)
  unfold State.rf State.uncorrected Tbl.getD
  dsimp only
  rw [hget]
  cases (correctionCells e).contains (R.PCORE_FENCE_STAMP.cell ck 0 / 65536)
  · rw [if_neg Bool.false_ne_true, Bool.not_false, if_pos rfl]
  · rw [if_pos rfl, Bool.not_true, if_neg Bool.false_ne_true]
    rfl

/-- The start of such a core's engine 0 clears the stamp. -/
theorem State.stamp_spareEngine_zero (s : State) {ck : Nat} (h : stampShared ck = true) :
    (s.spareEngine (engInst ck 0)).rf R.PCORE_FENCE_STAMP ck = 0 := by
  unfold stampShared at h
  rw [(s.spareEngine_within _).rf (by decide), State.stamp_uncorrected, if_pos h]

/-- The start of an engine sets no stamp. -/
theorem State.stamp_spareEngine (s : State) {ck : Nat} (e : Nat) (h : s.rf R.PCORE_FENCE_STAMP ck = 0) :
    (s.spareEngine e).rf R.PCORE_FENCE_STAMP ck = 0 := by
  rw [(s.spareEngine_within _).rf (by decide), State.stamp_uncorrected, h, ite_self]

theorem State.stamp_spareEngines (s : State) {ck : Nat} (h : stampShared ck = true) :
    (s.each (List.range 16) fun t n => t.spareEngine (engInst ck n)).rf R.PCORE_FENCE_STAMP ck = 0 := by
  have hrange : List.range 16 = 0 :: (List.range 15).map (· + 1) := by decide
  rw [hrange, State.each_cons]
  exact State.each_ind (fun t => t.rf R.PCORE_FENCE_STAMP ck = 0) (s.stamp_spareEngine_zero h) fun n _ t ht => t.stamp_spareEngine _ ht

/-- R450: the end of a fence of such a core, where a spare carries it, leaves the stamp cleared. -/
theorem State.stamp_fenceEnd (s : State) (f : Fencing) {ck sp : Nat} (h : stampShared ck = true) (hkind : kindOfLogical (ck % 64) = 0)
    (hck : f.ck = some ck) (hsp : f.spare = some sp) : (s.fenceEnd f).rf R.PCORE_FENCE_STAMP ck = 0 := by
  have hspares (t : State) : (t.countSpares (f.pc / 64)).rf R.PCORE_FENCE_STAMP ck = t.rf R.PCORE_FENCE_STAMP ck := by
    simp (disch := decide) only [State.countSpares, State.rf_wf_of_code]
  have hdone (t : State) (l : List Nat) : (t.countSpares (f.pc / 64)).Within (allBut 0x16)
      ((((t.countSpares (f.pc / 64)).railSlew (partOfPhys f.pc)).fieldRec 1).logEv 0x0502 (pcorePage f.pc).index 0 l) :=
    State.logEv_frame (by decide) (State.fieldRec_frame (by decide) (State.railSlew_frame (by decide) (State.frame_refl _ _)))
  have hlost (t : State) : t.Within (allBut 0x16) ((t.interruptStreams f.streams).2.loseResiduals ck) :=
    State.loseResiduals_frame (by decide) (State.interruptStreams_frame (by decide) (State.frame_refl _ _))
  unfold State.fenceEnd
  rw [hck, hsp]
  dsimp only
  rw [if_pos hkind, (hdone _ _).rf (by decide), hspares, (hlost _).rf (by decide)]
  exact State.stamp_spareEngines _ h

/-- R450: what a fence has begun, where a spare is found. -/
theorem State.begun_fenceBegin (s : State) {pc det ck sp : Nat} (hck : s.logicalOf pc = some ck)
    (hsp : ((s.wf R.PCORE_FENCE_STAMP pc s.now).wf R.PCORE_FENCED pc 1).spareFor pc = some sp) (hnone : s.sen.begun = []) :
    ∃ f : Fencing, (s.fenceBegin pc det).sen.begun = [f] ∧ f.ck = some ck ∧ f.spare = some sp := by
  unfold State.fenceBegin
  dsimp only
  rw [hck]
  dsimp only
  rw [hsp]
  dsimp only
  have hw (t : State) : t.Within (allBut 132) (((((((((t.fenceCut ck).spareRegs ck).copySram pc sp).mapWriteAll ck (sp % 64) false).wf
      R.PCORE_CARRYING pc 0).wf R.PCORE_CARRYING sp 1).wf R.PCORE_LOGICAL sp (ck % 64)).wf R.PCORE_REPLACED_BY pc (sp % 64))) :=
    State.wf_frame (by decide) (State.wf_frame (by decide) (State.wf_frame (by decide) (State.wf_frame (by decide)
      (State.mapWriteAll_frame (by decide) (State.copySram_frame (by decide) (State.spareRegs_frame (by decide)
        (State.fenceCut_frame (by decide) (State.frame_refl _ _))))))))
  rw [(hw _).sen (by decide)]
  simp only [State.wf_sen, hnone, List.nil_append]
  exact ⟨_, rfl, rfl, rfl⟩

/-- R450: the fence of such a core leaves its stamp cleared. -/
theorem State.stamp_fenceAll (s : State) {ck det sp : Nat} (h : stampShared ck = true) (hkind : kindOfLogical (ck % 64) = 0)
    (hck : s.logicalOf ck = some ck) (hsp : ((s.wf R.PCORE_FENCE_STAMP ck s.now).wf R.PCORE_FENCED ck 1).spareFor ck = some sp)
    (hnone : s.sen.begun = []) : (s.fenceAll [(ck, det)]).rf R.PCORE_FENCE_STAMP ck = 0 := by
  obtain ⟨f, hbegun, hfck, hfsp⟩ := s.begun_fenceBegin (det := det) hck hsp hnone
  have hmap (t : State) (b : Bool) :
      (t.when b fun u => (u.mapBroadcast ((u.rf R.ROUTER_MAP_VER oasisRouter) + 1)).mapComplete).sen = t.sen := by
    have hw : t.Within (allBut 132) (t.when b fun u => (u.mapBroadcast ((u.rf R.ROUTER_MAP_VER oasisRouter) + 1)).mapComplete) :=
      State.when_frame (State.frame_refl _ _) fun u hu => State.mapComplete_frame (by decide) (State.mapBroadcast_frame (by decide) hu)
    exact hw.sen (by decide)
  unfold State.fenceAll
  dsimp only
  rw [hmap, State.each_cons, show (s.fenceBegin ck det).each [] (fun t (e : Nat × Nat) => t.fenceBegin e.1 e.2) = s.fenceBegin ck det from rfl,
    hbegun, State.each_cons]
  exact State.stamp_fenceEnd _ f h hkind hfck hfsp

/-- A physical core far beyond the die, whose FENCE_STAMP shares the number of its cell with a column correction of an engine as far. -/
def farCore : Nat := 4096 * (R.PCORE_FENCE_STAMP.code - R.POST_CO_A_0.code)

/-- A fence waits that names that core. -/
def farFence : State := { State.reset with sen := { State.reset.sen with fences := [(farCore, 0)] }, now := 7 }

/-- The state in which the fence is handled. -/
def farFenceTaken : State := { farFence with sen := { farFence.sen with fences := [] } }

theorem farFenceTaken_valid : stampShared farCore = true ∧ kindOfLogical (farCore % 64) = 0 ∧ farFenceTaken.logicalOf farCore = some farCore ∧
    ((farFenceTaken.wf R.PCORE_FENCE_STAMP farCore farFenceTaken.now).wf R.PCORE_FENCED farCore 1).spareFor farCore = some (farCore + 61) ∧
    farFenceTaken.sen.begun = [] := by decide +kernel

theorem farFence_valid : farFence.sen.fences = [(farCore, 0)] ∧ farFence.msh.switching = none ∧ farFence.clk.hold = [] ∧
    farFence.logicalOf farCore = some farCore ∧ farFence.gated (.core farCore) = false ∧
    farFence.rb R.OASIS_RESTARTING 0 = false ∧ farFence.modState ≠ msCores ∧ farFence.now % 2 ^ 64 = 7 := by decide +kernel

/-- Refutes O51: the statement leaves the core of a fence free; the fence of a core far beyond the die clears its own FENCE_STAMP where it
drops the column corrections of the core's engine 0 (R453). -/
theorem not_suspectUnitsComplete : ¬ Obligations.SuspectUnitsComplete := by
  unfold Obligations.SuspectUnitsComplete
  rintro ⟨-, -, hfence, -⟩
  obtain ⟨hwait, hswitch, hhold, hlogical, hgated, hrun, hcores, hnow⟩ := farFence_valid
  obtain ⟨hshared, hkind, hck, hsp, hnone⟩ := farFenceTaken_valid
  obtain ⟨t, ht, -, hstamp, -⟩ := hfence farCore 0 [] farFence hwait hswitch hhold (by rw [hlogical]; exact hgated) hrun hcores
  have htaken : farFence.fence = farFenceTaken.fenceAll [(farCore, 0)] := by
    unfold State.fence
    rw [hwait]
    dsimp only
    rw [hlogical]
    dsimp only
    rw [if_neg (by simp [hswitch, hhold, hgated, hrun, hcores])]
    rfl
  have hexec : exec .fence farFence = .next farFence.fence := rfl
  rw [hexec, htaken] at ht
  injection ht with ht
  rw [← ht, State.stamp_fenceAll _ hshared hkind hck hsp hnone, hnow] at hstamp
  exact absurd hstamp (by decide)

end Sys2Proof.Machine
end

section
/-! How a register field and the module's own record read after the events, alerts and state changes of Machine/Module.lean. -/

namespace Sys2Proof.Machine

/-! ### Fields that neither an interrupt nor an event changes -/

/-- The fields in which the event log counts (R515). -/
def logPlaces : List Nat := [R.OASIS1_LOST.code, R.OASIS1_STAGING_HIGH.code, R.OASIS1_STAGING_FULL.code]

/-- The field is neither of a common header nor one in which the event log counts. -/
abbrev Field.plain (f : Field) : Prop := f.body ∧ f.code ∉ logPlaces

theorem State.rf_setInts_plain (s : State) (p : Page) (mask : Nat) {g : Field} (hg : g.plain) (j l : Nat) :
    (s.setInts p mask).rf g j l = s.rf g j l := s.rf_setInts_body p mask hg.1 j l

theorem State.rf_setInt_plain (s : State) (p : Page) (b : Nat) {g : Field} (hg : g.plain) (j l : Nat) :
    (s.setInt p b).rf g j l = s.rf g j l := s.rf_setInts_body p _ hg.1 j l

theorem State.rf_post_plain (s : State) (e : Event) {g : Field} (hg : g.plain) (j l : Nat) : (s.post e).rf g j l = s.rf g j l := by
  obtain ⟨hbody, hlog⟩ := hg
  simp only [logPlaces, List.mem_cons, List.not_mem_nil, or_false, not_or] at hlog
  obtain ⟨hlost, hhigh, hfull⟩ := hlog
  unfold State.post
  dsimp only
  split
  · rw [State.rf_setInt_body _ _ _ hbody, State.rf_inc_of_code _ hlost]
    rfl
  · rw [State.rf_wf_of_code _ hfull]
    split
    · rw [State.rf_wf_of_code _ hhigh]
      rfl
    · rfl

theorem State.rf_logEv_plain (s : State) (kind page ref : Nat) (details : List Nat) {g : Field} (hg : g.plain) (j l : Nat) :
    (s.logEv kind page ref details).rf g j l = s.rf g j l := s.rf_post_plain _ hg j l

theorem State.rf_logEvSev_plain (s : State) (kind sev page ref : Nat) (details : List Nat) {g : Field} (hg : g.plain) (j l : Nat) :
    (s.logEvSev kind sev page ref details).rf g j l = s.rf g j l := s.rf_post_plain _ hg j l

theorem State.rf_unitEv_plain (s : State) (cat : Nat) (p : Page) (ref cause : Nat) (captured : Bool) {g : Field} (hg : g.plain) (j l : Nat) :
    (s.unitEv cat p ref cause captured).rf g j l = s.rf g j l := by
  unfold State.unitEv
  split
  · exact s.rf_post_plain _ hg j l
  · exact s.rf_post_plain _ hg j l

@[simp] theorem State.rf_emit (s : State) (o : Out) (g : Field) (j l : Nat) : (s.emit o).rf g j l = s.rf g j l := rfl

/-! ### The module's record through an alert -/

/-- R559: an alert raises the alert and its pin. -/
theorem State.raiseAlert_eq (s : State) : ∃ a o, s.raiseAlert = { s with md := { s.md with alert := a }, out := o } := by
  unfold State.raiseAlert
  split
  · exact ⟨s.md.alert, s.out, rfl⟩
  · exact ⟨true, _, rfl⟩

@[simp] theorem State.rf_raiseAlert (s : State) (g : Field) (j l : Nat) : s.raiseAlert.rf g j l = s.rf g j l := by
  obtain ⟨a, o, h⟩ := s.raiseAlert_eq
  rw [h]
  rfl

/-- The module's record is as before but for the alert. -/
def ModSt.sameBut (x y : ModSt) : Prop := ∃ a, y = { x with alert := a }

theorem ModSt.sameBut.refl (x : ModSt) : x.sameBut x := ⟨x.alert, rfl⟩

theorem ModSt.sameBut.trans {x y z : ModSt} (h : x.sameBut y) (g : y.sameBut z) : x.sameBut z := by
  obtain ⟨a, rfl⟩ := h
  obtain ⟨b, rfl⟩ := g
  exact ⟨b, rfl⟩

theorem State.md_raiseAlert (s : State) : s.md.sameBut s.raiseAlert.md := by
  obtain ⟨a, o, h⟩ := s.raiseAlert_eq
  rw [h]
  exact ⟨a, rfl⟩

/-! ### The module's state, R483 -/

/-- R483: the module enters a state. -/
theorem State.modState_setModState (s : State) {st : Nat} (h : st < 16) : (s.setModState st).modState = st := by
  unfold State.setModState
  dsimp only
  split
  · assumption
  · have hlen : R.MOD1_STATE.len = 4 := rfl
    rw [State.modState, State.rf_raiseAlert, State.rf_logEvSev_plain _ _ _ _ _ _ (by decide), State.rf_setInts_plain _ _ _ (by decide),
      State.rf_wf_same, hlen]
    exact Nat.mod_eq_of_lt h

theorem State.rf_setModState (s : State) (st : Nat) {g : Field} (hg : g.plain) (hne : g.code ≠ R.MOD1_STATE.code) (j l : Nat) :
    (s.setModState st).rf g j l = s.rf g j l := by
  unfold State.setModState
  dsimp only
  split
  · rfl
  · rw [State.rf_raiseAlert, State.rf_logEvSev_plain _ _ _ _ _ _ hg, State.rf_setInts_plain _ _ _ hg, State.rf_wf_of_code _ hne]

theorem State.md_setModState (s : State) (st : Nat) : s.md.sameBut (s.setModState st).md := by
  unfold State.setModState
  dsimp only
  split
  · exact .refl _
  · refine ModSt.sameBut.trans ?_ (State.md_raiseAlert _)
    have hw : s.Within (touch [0, 1] [.irqLatch, .irqs, .staging, .lostStamps]) (((s.wf R.MOD1_STATE 0 st).setInts (modPage 1)
        (2 ^ R.INT_MOD1_STATE_CHANGE + (if st = msFailed then 2 ^ R.INT_MOD1_FAILED else 0)))) :=
      State.setInts_frame (by decide) (by decide) (State.wf_frame (by decide) (s.frame_refl _))
    have hl (t : State) (a b c d : Nat) (l : List Nat) : (t.logEvSev a b c d l).md = t.md :=
      (State.logEvSev_frame (Sub.refl _) (t.frame_refl _) : t.Within _ (t.logEvSev a b c d l)).md (by decide)
    rw [hl, hw.md (by decide)]
    exact .refl _

/-- R484: a phase begins. -/
theorem State.modState_phaseStart (s : State) (p : Nat) {st : Nat} (h : st < 16) : (s.phaseStart p st).modState = st := by
  unfold State.phaseStart
  rw [State.modState, State.rf_logEv_plain _ _ _ _ _ (by decide), ← State.modState]
  exact State.modState_setModState _ h

theorem State.md_phaseStart (s : State) (p st : Nat) : { s.md with phaseAt := s.elapsed, started := true }.sameBut (s.phaseStart p st).md := by
  have hl (t : State) (a b c : Nat) (l : List Nat) : (t.logEv a b c l).md = t.md :=
    (State.logEv_frame (Sub.refl _) (t.frame_refl _) : t.Within _ (t.logEv a b c l)).md (by decide)
  unfold State.phaseStart
  rw [hl]
  exact State.md_setModState _ _

theorem State.rf_phaseStart (s : State) (p st : Nat) {g : Field} (hg : g.plain) (hstate : g.code ≠ R.MOD1_STATE.code)
    (hstamp : g.code ≠ R.MOD1_PHASE_STAMP.code) (j l : Nat) : (s.phaseStart p st).rf g j l = s.rf g j l := by
  unfold State.phaseStart
  rw [State.rf_logEv_plain _ _ _ _ _ hg, State.rf_setModState _ _ hg hstate, State.rf_wf_of_code _ hstamp]
  rfl

theorem State.phaseStamp_phaseStart (s : State) (p st : Nat) : (s.phaseStart p st).rf R.MOD1_PHASE_STAMP 0 p = s.now % 2 ^ 64 := by
  unfold State.phaseStart
  rw [State.rf_logEv_plain _ _ _ _ _ (by decide), State.rf_setModState _ _ (by decide) (by decide), State.rf_wf_same]
  rfl

/-! ### Board faults, R563 -/

theorem State.rf_boardFault (s : State) (b : Nat) (on : Bool) {g : Field} (hg : g.plain)
    (hne : g.code ≠ R.BOARD_FAULTS_NOW.code ∧ g.code ≠ R.BOARD_FAULTS.code ∧ g.code ≠ R.BOARD_LAST_FAULT_STAMP.code) (j l : Nat) :
    (s.boardFault b on).rf g j l = s.rf g j l := by
  obtain ⟨hnow, hfaults, hstamp⟩ := hne
  unfold State.boardFault
  dsimp only
  split
  · rfl
  · split
    · rw [State.rf_raiseAlert, State.rf_unitEv_plain _ _ _ _ _ _ hg, State.rf_setInt_plain _ _ _ hg, State.rf_wf_of_code _ hstamp,
        State.rf_wf_of_code _ hfaults, State.rf_wf_of_code _ hnow]
    · exact State.rf_wf_of_code _ hnow _ _ _ _ _

theorem State.md_boardFault (s : State) (b : Nat) (on : Bool) : s.md.sameBut (s.boardFault b on).md := by
  have hw (t : State) : t.Within (touch [1, 0x48] [.irqLatch, .irqs, .staging, .lostStamps])
      ((((t.wf R.BOARD_LAST_FAULT_STAMP 0 t.now).setInt (boardPage 0) R.INT_BOARD_BOARD_FAULT).unitEv 0xD (boardPage 0) b b false)) :=
    State.unitEv_frame (by decide) (State.setInt_frame (by decide) (by decide) (State.wf_frame (by decide) (t.frame_refl _)))
  unfold State.boardFault
  dsimp only
  split
  · exact .refl _
  · split
    · refine ModSt.sameBut.trans ?_ (State.md_raiseAlert _)
      rw [(hw _).md (by decide)]
      exact .refl _
    · exact .refl _

end Sys2Proof.Machine
end

section
/-! The cold reset (R13, R473) and the module's power and pins (O60). -/

namespace Sys2Proof.Machine

/-! ### The cold reset -/

/-- R13: a cell that a cold reset keeps. -/
def coldKeeps (power : Bool) (k : Nat) : Bool :=
  match cellField k with
  | none => false
  | some f => f.keep = .journal || (power && f.keep = .power)

theorem coldKeeps_modState (power : Bool) : coldKeeps power (R.MOD1_STATE.cell 0 0) = false := by
  cases power <;> decide +kernel

/-- R13: the module's state register is no register that a cold reset keeps. -/
theorem State.modState_coldKept {t u : State} {power : Bool} (h : t.regs = Tbl.keep u.regs fun k _ => coldKeeps power k) :
    t.rf R.MOD1_STATE 0 = 0 := by
  have hget := Tbl.get_keep u.regs (coldKeeps power) (R.MOD1_STATE.cell 0 0)
  rw [coldKeeps_modState, if_neg Bool.false_ne_true] at hget
  unfold State.rf Tbl.getD
  rw [h, hget]
  rfl

/-- What the end of a cold reset may change before the absent units are counted: the variants' states, the wanted sweeps, the bank-state
interrupts and the maps (R13, R473). -/
abbrev coldRest : Nat := touch [0xa, 0x12, 0x16, 0x18, 0x38] [.irqLatch, .irqs, .eng]

theorem State.within_coldVariants (t : State) (l : List Nat) :
    t.Within coldRest (t.each l fun t v => if t.rb R.CARAVAN_COMPLETE 0 v then t.wf R.SERVE2_STATE 0 vRegistered v else t) :=
  State.each_frame (t.frame_refl _) fun _ _ ht => ite_frame (State.wf_frame (by decide) ht) ht

theorem State.within_coldSweeps (t : State) (l : List (Nat × Nat)) :
    t.Within coldRest (t.each l fun t x => t.setPilot x.1 x.2 { t.pilot x.1 x.2 with wanted := true, cold := true }) :=
  State.each_frame (t.frame_refl _) fun _ _ ht => State.setPilot_frame (by decide) ht

theorem State.within_coldBanks (t : State) (l : List (Nat × ProgSt)) :
    t.Within coldRest (t.each l fun t p => t.setInt (engPage p.1) R.INT_ENG_BANK_STATE) :=
  State.each_frame (t.frame_refl _) fun _ _ ht => State.setInt_frame (by decide) (page_bit (Sub.refl _) rfl (by decide) (by decide)) ht

theorem State.within_coldMaps (t : State) : t.Within coldRest t.rebuildMaps := State.rebuildMaps_frame (by decide) (t.frame_refl _)

theorem State.md_coldReset (s : State) (power : Bool) : (s.coldReset power).md =
    { fillDue := if power then [] else (List.range 12), resetN := s.md.resetN, pwrgd := s.md.pwrgd, reverseLatch := s.md.reverseLatch } := by
  have hc (t : State) : t.countAbsent.md = t.md :=
    (State.countAbsent_frame (Sub.refl _) (t.frame_refl _) : t.Within _ t.countAbsent).md (by decide)
  have hprog : (s.each (s.prog.filter fun p => p.2.running.isSome) fun t p => t.progInterrupt p.1).md = s.md :=
    (State.each_frame (s.frame_refl _) (fun _ _ ht => State.progInterrupt_frame (by decide) ht) :
      s.Within (touch [0x12, 0x13] [.irqLatch, .irqs, .eng, .rowCharge, .prog, .jour]) _).md (by decide)
  unfold State.coldReset
  revert hprog
  generalize (s.each (s.prog.filter fun p => p.2.running.isSome) fun t p => t.progInterrupt p.1) = u
  intro hprog
  dsimp only
  rw [hc, (State.within_coldMaps _).md (by decide), (State.within_coldBanks _ _).md (by decide), (State.within_coldSweeps _ _).md (by decide),
    (State.within_coldVariants _ _).md (by decide), hprog]

/-- R473: after a cold reset the module is in ROM. -/
theorem State.modState_coldReset (s : State) (power : Bool) : (s.coldReset power).modState = msRom := by
  have hc (t : State) : t.countAbsent.rf R.MOD1_STATE 0 = t.rf R.MOD1_STATE 0 := by
    simp (disch := decide) only [State.countAbsent, State.rf_wf_of_code]
  unfold State.modState State.coldReset
  generalize (s.each (s.prog.filter fun p => p.2.running.isSome) fun t p => t.progInterrupt p.1) = u
  dsimp only
  rw [hc, (State.within_coldMaps _).rf (by decide), (State.within_coldBanks _ _).rf (by decide), (State.within_coldSweeps _ _).rf (by decide),
    (State.within_coldVariants _ _).rf (by decide)]
  cases power
  · exact State.modState_coldKept (power := false) rfl
  · simp only [if_true]
    generalize hk : State.each _ _ _ = k
    have hzero : k.rf R.MOD1_STATE 0 = 0 := by
      rw [← hk]
      refine State.each_ind (fun t => t.rf R.MOD1_STATE 0 = 0) (State.modState_coldKept (power := true) rfl) fun n _ t ht => ?_
      rw [State.rf_wf_of_code _ (by decide), ht]
    exact (State.rf_congr rfl _ _ _).trans hzero

/-! ### Power, R554 to R558 -/

theorem State.md_setPwrgd (s : State) (b : Bool) : (s.setPwrgd b).md = { s.md with pwrgd := b } := by
  unfold State.setPwrgd
  split
  · rename_i h
    rw [← h]
  · rfl

theorem State.rf_setPwrgd (s : State) (b : Bool) (g : Field) (j l : Nat) : (s.setPwrgd b).rf g j l = s.rf g j l := by
  unfold State.setPwrgd
  split <;> rfl

theorem State.powerGone_eq {s : State} (h : s.md.powered = true) :
    ∃ u : State, u = (s.setPwrgd false).coldReset false ∧ s.powerGone = { u with md := { u.md with powered := false } } := by
  refine ⟨_, rfl, ?_⟩
  unfold State.powerGone
  rw [if_neg (by simp [h])]

/-- R554: without 48 V the module is unpowered and in ROM. -/
theorem State.powerGone_of_powered {s : State} (h : s.md.powered = true) : s.powerGone.md.powered = false ∧ s.powerGone.md.pwrgd = false ∧
    s.powerGone.md.started = false ∧ s.powerGone.modState = msRom := by
  obtain ⟨u, hu, heq⟩ := State.powerGone_eq h
  have hmd : u.md = _ := hu ▸ (s.setPwrgd false).md_coldReset false
  have hrom : u.modState = msRom := hu ▸ (s.setPwrgd false).modState_coldReset false
  rw [heq, hmd, s.md_setPwrgd]
  exact ⟨rfl, rfl, rfl, hrom⟩

/-- R555: a reverse event that the latch holds is counted, and the latch is cleared. -/
theorem State.reportReversed_of (s : State) : s.md.powered = s.reportReversed.md.powered ∧ s.reportReversed.md.pwrgd = s.md.pwrgd ∧
    s.reportReversed.md.reverseLatch = false ∧ s.reportReversed.rf R.OASIS1_POWER_ON 0 = s.rf R.OASIS1_POWER_ON 0 ∧
    (s.md.reverseLatch = true → s.reportReversed.rf R.BOARD_REVERSE_EVENTS 0 = min 65535 (s.rf R.BOARD_REVERSE_EVENTS 0 + 1)) := by
  unfold State.reportReversed
  split
  · have hmd := (State.md_boardFault (State.incSat { s with md := { s.md with reverseLatch := false } } R.BOARD_REVERSE_EVENTS 0) 0 true).trans
      (State.md_boardFault _ 0 false)
    obtain ⟨a, ha⟩ := hmd
    rw [ha]
    refine ⟨rfl, rfl, rfl, ?_, fun _ => ?_⟩
    · rw [State.rf_boardFault _ _ _ (by decide) (by decide), State.rf_boardFault _ _ _ (by decide) (by decide),
        State.rf_incSat_of_code _ (by decide)]
      rfl
    · rw [State.rf_boardFault _ _ _ (by decide) (by decide), State.rf_boardFault _ _ _ (by decide) (by decide), State.rf_incSat_same]
      rfl
  · rename_i h
    refine ⟨rfl, rfl, by simpa using h, rfl, fun hl => absurd hl h⟩

/-- POWER_APPLIED (R554). -/
theorem State.powerApplied_of_off {s : State} (h : s.md.powered = false) :
    s.powerApplied.md.powered = true ∧ s.powerApplied.md.pwrgd = true ∧ s.powerApplied.md.reverseLatch = false ∧
    s.powerApplied.rf R.OASIS1_POWER_ON 0 = (s.rf R.OASIS1_POWER_ON 0 + 1) % 2 ^ 12 ∧
    (s.md.reverseLatch = true → s.powerApplied.rf R.BOARD_REVERSE_EVENTS 0 = min 65535 (s.rf R.BOARD_REVERSE_EVENTS 0 + 1)) := by
  obtain ⟨hpowered, hpwrgd, hlatch, hcount, hevents⟩ := State.reportReversed_of
    ((((State.wf { s with md := { s.md with powered := true } } R.OASIS1_POWER_ON 0 (s.rf R.OASIS1_POWER_ON 0 + 1)).emit (.pin 2 true))).setPwrgd true)
  rw [State.md_setPwrgd] at hpowered hpwrgd hevents
  rw [State.rf_setPwrgd] at hcount hevents
  unfold State.powerApplied
  rw [h]
  refine ⟨hpowered.symm, hpwrgd, hlatch, hcount.trans ?_, fun hl => (hevents hl).trans ?_⟩
  · exact State.rf_wf_same _ _ _ _ _
  · rw [State.rf_emit, State.rf_wf_of_code _ (by decide)]
    rfl

theorem State.resetAssert_eq {s : State} (hpowered : s.md.powered = true) (hstarted : s.md.started = true) (hhold : s.thermalHold = false) :
    ∃ u : State, u = s.coldReset true ∧ s.resetAssert = ({ u with md := { u.md with resetN := true } }).wf R.BOARD_FLASH_OWNED 0 0 := by
  refine ⟨_, rfl, ?_⟩
  unfold State.resetAssert
  rw [if_neg (by simp [hpowered, hstarted]), hhold, if_neg Bool.false_ne_true]

/-- RESET_N_ASSERT (R558). -/
theorem State.resetAssert_of {s : State} (hpowered : s.md.powered = true) (hstarted : s.md.started = true) (hhold : s.thermalHold = false) :
    s.resetAssert.md.resetN = true ∧ s.resetAssert.md.started = false ∧ s.resetAssert.rf R.BOARD_FLASH_OWNED 0 = 0 ∧
    s.resetAssert.modState = msRom := by
  obtain ⟨u, hu, heq⟩ := State.resetAssert_eq hpowered hstarted hhold
  have hmd : u.md = _ := hu ▸ s.md_coldReset true
  have hrom : u.modState = msRom := hu ▸ s.modState_coldReset true
  rw [heq]
  refine ⟨rfl, ?_, State.rf_wf_same _ _ _ _ _, ?_⟩
  · rw [State.wf_md]
    dsimp only
    rw [hmd]
  · rw [State.modState, State.rf_wf_of_code _ (by decide)]
    exact hrom

/-- Settles O60: a loss of power and an assertion of RESET_N are cold resets. -/
theorem powerAndPinsComplete : Obligations.PowerAndPinsComplete := by
  unfold Obligations.PowerAndPinsComplete
  refine ⟨?_, ?_, ?_, ?_, ?_, ?_⟩
  · exact fun s h => completes_of_next rfl (State.powerGone_of_powered h)
  · intro s h
    obtain ⟨hoff, -, -, hrom⟩ := State.powerGone_of_powered h
    exact completes_of_next rfl ⟨hoff, rfl, hrom⟩
  · exact fun s hpowered hstarted hhold => completes_of_next rfl (State.resetAssert_of hpowered hstarted hhold)
  · exact fun s h => completes_of_next rfl (State.powerApplied_of_off h)
  · intro s h
    obtain ⟨hoff, -, -, hrom⟩ := State.powerGone_of_powered h
    refine completes_of_next rfl ?_
    rw [State.overvoltage, if_pos h]
    exact ⟨hoff, hrom, rfl⟩
  · intro s h
    refine completes_of_next rfl ?_
    rw [State.railOut, State.setPwrgd, h, if_neg (by decide)]
    rfl

end Sys2Proof.Machine
end

section
/-! Commands of the sideband (R559, R560; O59). -/

namespace Sys2Proof.Machine

/-! ### A command served or refused -/

theorem State.sbServe_good {s : State} (hp : s.md.powered = true) {pecOk early : Bool} (h : pecOk = true ∧ early = false)
    (act : State → State × List Nat) : s.sbServe pecOk early act =
      (act (s.inc R.BOARD_SB_COMMANDS 0)).1.emit (.sideband (1 :: (act (s.inc R.BOARD_SB_COMMANDS 0)).2)) := by
  obtain ⟨rfl, rfl⟩ := h
  unfold State.sbServe
  rw [if_neg (by simp [hp]), if_neg (by simp)]

theorem State.sbServe_bad {s : State} (hp : s.md.powered = true) {pecOk early : Bool} (h : ¬ (pecOk = true ∧ early = false))
    (act : State → State × List Nat) : s.sbServe pecOk early act = s.sbNack := by
  have hbad : (!pecOk || early) = true := by
    cases pecOk <;> simp_all
  unfold State.sbServe
  rw [if_neg (by simp [hp]), if_pos hbad]

theorem State.commands_inc (s : State) : (s.inc R.BOARD_SB_COMMANDS 0).rf R.BOARD_SB_COMMANDS 0 = min (2 ^ 32 - 1) (s.rf R.BOARD_SB_COMMANDS 0 + 1) :=
  State.rf_inc_sat _ _ rfl _ _ _

/-- R560: a refused exchange is answered 0 and counted. -/
theorem State.sbNack_of (s : State) : s.sbNack.out = .sideband [0] :: s.out ∧
    s.sbNack.rf R.BOARD_SB_ERRORS 0 = min (2 ^ 32 - 1) (s.rf R.BOARD_SB_ERRORS 0 + 1) := by
  have hint (t : State) : (t.setInt (boardPage 0) R.INT_BOARD_SIDEBAND_ERROR).out = t.out :=
    (State.setInt_frame (by decide) (page_bit (Sub.refl _) rfl (by decide) (by decide)) (t.frame_refl _) :
      t.Within (touch [0x48] [.irqLatch, .irqs]) _).out (by decide)
  unfold State.sbNack
  refine ⟨congrArg _ (hint _), ?_⟩
  rw [State.rf_emit, State.rf_setInt_plain _ _ _ (by decide)]
  exact State.rf_inc_sat _ _ rfl _ _ _

/-- An exchange completes when it is served as `P` says, and otherwise is refused. -/
theorem sideband_completes {c : Instr} {s : State} {pecOk early : Bool} {act : State → State × List Nat} {P : State → Prop}
    (hexec : exec c s = .next (s.sbServe pecOk early act)) (hp : s.md.powered = true)
    (hgood : P ((act (s.inc R.BOARD_SB_COMMANDS 0)).1.emit (.sideband (1 :: (act (s.inc R.BOARD_SB_COMMANDS 0)).2)))) :
    Completes c s fun t => (pecOk = true ∧ early = false → P t) ∧
      (¬ (pecOk = true ∧ early = false) → t.out = .sideband [0] :: s.out ∧ t.rf R.BOARD_SB_ERRORS 0 = min (2 ^ 32 - 1) (s.rf R.BOARD_SB_ERRORS 0 + 1)) := by
  refine completes_of_next hexec ⟨fun h => ?_, fun h => ?_⟩
  · rw [State.sbServe_good hp h]
    exact hgood
  · rw [State.sbServe_bad hp h]
    exact s.sbNack_of

/-- The same for a write, which cannot come too early. -/
theorem sideband_write_completes {c : Instr} {s : State} {pecOk : Bool} {act : State → State × List Nat} {P : State → Prop}
    (hexec : exec c s = .next (s.sbServe pecOk false act)) (hp : s.md.powered = true)
    (hgood : P ((act (s.inc R.BOARD_SB_COMMANDS 0)).1.emit (.sideband (1 :: (act (s.inc R.BOARD_SB_COMMANDS 0)).2)))) :
    Completes c s fun t => (pecOk = true → P t) ∧
      (pecOk = false → t.out = .sideband [0] :: s.out ∧ t.rf R.BOARD_SB_ERRORS 0 = min (2 ^ 32 - 1) (s.rf R.BOARD_SB_ERRORS 0 + 1)) := by
  obtain ⟨t, ht, hserved, hrefused⟩ := sideband_completes hexec hp hgood
  exact ⟨t, ht, fun h => hserved ⟨h, rfl⟩, fun h => hrefused (by simp [h])⟩

/-! ### What the commands do -/

theorem State.rf_endAlert (s : State) (g : Field) (j l : Nat) : s.endAlert.rf g j l = s.rf g j l := by
  unfold State.endAlert
  split <;> rfl

theorem State.alert_endAlert (s : State) : s.endAlert.md.alert = false := by
  unfold State.endAlert
  split
  · rfl
  · rename_i h
    simpa using h

/-- R543: the cap in effect is the lower of the two. -/
theorem State.effectiveCap_formCap (s : State) :
    s.formCap.rf R.PWRCAP_EFFECTIVE_CAP 0 = min (s.rf R.PWRCAP_CAP_W 0) (s.rf R.PWRCAP_BOARD_CAP 0) := by
  have hcap : s.rf R.PWRCAP_CAP_W 0 < 65536 := State.rf_lt _ _ _ _
  have hlen : R.PWRCAP_EFFECTIVE_CAP.len = 16 := rfl
  unfold State.formCap
  dsimp only
  split
  · exact Eq.symm ‹_›
  · rw [State.rf_setInt_plain _ _ _ (by decide), State.rf_wf_same, hlen]
    omega

theorem State.rf_formCap (s : State) {g : Field} (hg : g.plain) (hne : g.code ≠ R.PWRCAP_EFFECTIVE_CAP.code) (j l : Nat) :
    s.formCap.rf g j l = s.rf g j l := by
  unfold State.formCap
  dsimp only
  split
  · rfl
  · rw [State.rf_setInt_plain _ _ _ hg, State.rf_wf_of_code _ hne]

/-- What SB_BOARD_CAP does where it is served. -/
def State.boardCapSet (w : Nat) (t : State) : State × List Nat := ((t.wf R.PWRCAP_BOARD_CAP 0 w).formCap, [])

theorem exec_sbBoardCap (pecOk : Bool) (w : Nat) (s : State) : exec (.sbBoardCap pecOk w) s = .next (s.sbBoardCap pecOk (w % 65536)) := rfl

theorem State.sbBoardCap_of_legal {s : State} {pecOk : Bool} {w : Nat} (h : capLegal w = true) :
    s.sbBoardCap pecOk w = s.sbServe pecOk false (State.boardCapSet w) := by
  rw [State.sbBoardCap, if_neg (by simp [h])]
  rfl

/-- SB_BOARD_CAP (R560). -/
theorem State.boardCap_set (s : State) {w : Nat} (hw : w < 65536) :
    (State.boardCapSet w s).1.rf R.PWRCAP_BOARD_CAP 0 = w ∧
    (State.boardCapSet w s).1.rf R.PWRCAP_EFFECTIVE_CAP 0 = min (s.rf R.PWRCAP_CAP_W 0) w ∧
    (State.boardCapSet w s).1.rf R.BOARD_SB_COMMANDS 0 = s.rf R.BOARD_SB_COMMANDS 0 := by
  unfold State.boardCapSet
  have hmod : w % 2 ^ R.PWRCAP_BOARD_CAP.len = w := Nat.mod_eq_of_lt hw
  refine ⟨?_, ?_, ?_⟩
  · rw [State.rf_formCap _ (by decide) (by decide), State.rf_wf_same, hmod]
  · rw [State.effectiveCap_formCap, State.rf_wf_same, State.rf_wf_of_code _ (by decide), hmod]
  · rw [State.rf_formCap _ (by decide) (by decide), State.rf_wf_of_code _ (by decide)]

/-- SB_FAULT_CLEAR (R560). -/
theorem State.faults_clearFaults (s : State) (mask : Nat) : (s.clearFaults mask).rf R.BOARD_FAULTS 0 =
    (s.rf R.BOARD_FAULTS 0 - (s.rf R.BOARD_FAULTS 0 &&& mask)) ||| s.rf R.BOARD_FAULTS_NOW 0 := by
  have hfaults : s.rf R.BOARD_FAULTS 0 < 2 ^ 15 := State.rf_lt _ _ _ _
  have hnow : s.rf R.BOARD_FAULTS_NOW 0 < 2 ^ 15 := State.rf_lt _ _ _ _
  unfold State.clearFaults
  rw [State.rf_wf_same]
  exact Nat.mod_eq_of_lt (Nat.or_lt_two_pow (lt_of_le_of_lt (Nat.sub_le _ _) hfaults) hnow)

theorem State.rf_clearFaults (s : State) (mask : Nat) {g : Field} (hne : g.code ≠ R.BOARD_FAULTS.code) (j l : Nat) :
    (s.clearFaults mask).rf g j l = s.rf g j l := State.rf_wf_of_code _ hne _ _ _ _ _

/-- The readings that SB_THERMAL answers do not depend on the count of commands. -/
theorem State.value_inc (s : State) : (s.inc R.BOARD_SB_COMMANDS 0).value = s.value := by
  funext n
  rw [State.value, State.rf_inc_of_code _ (by decide), ← State.value]

/-- Settles O59: an exchange is answered and counted, or refused and counted. -/
theorem sidebandComplete : Obligations.SidebandComplete := by
  unfold Obligations.SidebandComplete
  refine ⟨?_, ?_, ?_, ?_, ?_, ?_, ?_, ?_, ?_⟩
  · intro dyn s hp
    refine completes_of_next rfl ?_
    rw [State.sbSetdasa, if_pos ⟨hp, rfl⟩]
  · intro dyn s hp haddr
    refine completes_of_next rfl ?_
    rw [State.sbEntdaa, if_pos ⟨hp, by simp [haddr]⟩]
  · intro pecOk early s hp
    refine sideband_completes rfl hp ⟨?_, s.commands_inc⟩
    simp (disch := decide) only [State.rf_inc_of_code]
    rfl
  · intro pecOk early s hp
    refine sideband_completes rfl hp ⟨State.alert_endAlert _, ?_, (State.rf_endAlert _ _ _ _).trans s.commands_inc⟩
    simp (disch := decide) only [State.modState, State.rf_inc_of_code]
    rfl
  · intro pecOk early s hp
    refine sideband_completes rfl hp ⟨?_, s.commands_inc⟩
    simp (disch := decide) only [State.rf_inc_of_code, State.hottest, State.value_inc]
    rfl
  · intro pecOk early s hp
    refine sideband_completes rfl hp ⟨?_, s.commands_inc⟩
    simp (disch := decide) only [State.rf_inc_of_code]
    rfl
  · intro pecOk w s hp hw hlegal
    have hexec : exec (.sbBoardCap pecOk w) s = .next (s.sbServe pecOk false (State.boardCapSet w)) := by
      rw [exec_sbBoardCap, Nat.mod_eq_of_lt hw, State.sbBoardCap_of_legal hlegal]
    obtain ⟨hboard, heffective, hcommands⟩ := (s.inc R.BOARD_SB_COMMANDS 0).boardCap_set hw
    have hcap : (s.inc R.BOARD_SB_COMMANDS 0).rf R.PWRCAP_CAP_W 0 = s.rf R.PWRCAP_CAP_W 0 := State.rf_inc_of_code _ (by decide) _ _ _ _ _
    rw [hcap] at heffective
    refine sideband_write_completes hexec hp ⟨?_, ?_, ?_, ?_⟩
    · rfl
    · exact (State.rf_emit _ _ _ _ _).trans hboard
    · exact (State.rf_emit _ _ _ _ _).trans heffective
    · exact (State.rf_emit _ _ _ _ _).trans (hcommands.trans s.commands_inc)
  · intro pecOk early s hp
    refine sideband_completes rfl hp ⟨State.alert_endAlert _, ?_, (State.rf_endAlert _ _ _ _).trans s.commands_inc⟩
    simp (disch := decide) only [State.rf_inc_of_code]
    rfl
  · intro pecOk mask s hp
    have hfaults := (s.inc R.BOARD_SB_COMMANDS 0).faults_clearFaults (mask % 65536)
    have hcommands := ((s.inc R.BOARD_SB_COMMANDS 0).rf_clearFaults (mask % 65536) (g := R.BOARD_SB_COMMANDS) (by decide) 0 0).trans s.commands_inc
    simp (disch := decide) only [State.rf_inc_of_code] at hfaults
    refine sideband_write_completes rfl hp ⟨?_, ?_, ?_⟩
    · rfl
    · exact (State.rf_emit _ _ _ _ _).trans hfaults
    · exact (State.rf_emit _ _ _ _ _).trans hcommands

end Sys2Proof.Machine
end

section
/-! A command that the die takes, and leaving the torus (R496 to R499; O55). -/

namespace Sys2Proof.Machine

/-! ### Commands that are taken -/

/-- A command that the die takes completes as its row says of the state with the command open. -/
theorem completes_of_vorane {s : State} {i : Instr} {op : Nat} {c : Cmd} {cls : Class} {lenOk : Bool} {act : State → State} {P : State → Prop}
    (hexec : exec i s = .next (s.vorane i op c cls lenOk act)) (h : s.Takes c) (hop : knownOpcodes.contains op = true) (hlen : lenOk = true)
    (hP : P (act (s.started op c cls))) : Completes i s P := by
  refine completes_of_next hexec ?_
  rw [State.vorane_takes h hop hlen]
  exact hP

theorem State.openCmd_setCmd_same {s : State} {q n : Nat} {o : OpenCmd} (h : s.openCmd q n = some o) (f : OpenCmd → OpenCmd)
    (hf : ∀ o, (f o).qp = o.qp ∧ (f o).cmdId = o.cmdId) : (s.setCmd q n f).openCmd q n = some (f o) := by
  have hsame : (fun o : OpenCmd => o.qp = q && o.cmdId = n : OpenCmd → Bool) ∘ (fun o => if o.qp = q ∧ o.cmdId = n then f o else o) =
      fun o => o.qp = q && o.cmdId = n := by
    funext o
    obtain ⟨hq, hn⟩ := hf o
    dsimp only [Function.comp]
    split <;> simp [hq, hn]
  unfold State.openCmd at h ⊢
  unfold State.setCmd
  rw [List.find?_map, hsame, h]
  have hprop := List.find?_some h
  simp only [Bool.and_eq_true, decide_eq_true_eq] at hprop
  simp [hprop]

/-- R361: the effect of an open command is kept with its body. -/
theorem State.openCmd_takeEffect {s : State} {q n : Nat} {o : OpenCmd} (h : s.openCmd q n = some o) (body : List Nat) :
    (s.takeEffect q n body).openCmd q n = some { o with effect := true, body := body } :=
  State.openCmd_setCmd_same h _ fun _ => ⟨rfl, rfl⟩

theorem State.Within.openCmd {s t : State} {m : Nat} (h : s.Within m t) (hm : m.testBit 89 = false) (q n : Nat) : t.openCmd q n = s.openCmd q n := by
  unfold State.openCmd
  rw [h.cmds hm]

/-! ### Leaving -/

/-- R497: the routes are withdrawn. -/
theorem State.withdrawTorus_of (s : State) : s.withdrawTorus.md.leave = 2 ∧ s.withdrawTorus.md.withdrawn = true ∧
    s.withdrawTorus.rf R.MOD1_LEAVE_STAMP 0 = s.now % 2 ^ 64 := by
  refine ⟨rfl, rfl, ?_⟩
  unfold State.withdrawTorus
  rw [State.rf_wf_same]
  rfl

theorem State.leaveProceed_of (s : State) : s.leaveProceed.md.leave = 2 ∧ s.leaveProceed.md.withdrawn = true ∧
    s.leaveProceed.rf R.MOD1_LEAVE_STAMP 0 = s.now % 2 ^ 64 := by
  have hcut : s.Within _ s.leaveCut := State.leaveCut_frame (Sub.refl _) (s.frame_refl _)
  have h := s.leaveCut.withdrawTorus_of
  rw [hcut.now (by decide)] at h
  exact h

/-- R497: the module serves no more. -/
theorem State.leaveGate_of (s : State) : s.leaveGate.modState = msLeaving ∧ s.leaveGate.rf R.SERVE_SERVE_EN 0 = 0 ∧
    s.md.sameBut s.leaveGate.md := by
  unfold State.leaveGate
  refine ⟨?_, State.rf_wf_same _ _ _ _ _, s.md_setModState _⟩
  rw [State.modState, State.rf_wf_of_code _ (by decide), ← State.modState]
  exact s.modState_setModState (by decide)

/-- A command is held open with its effect until the module has left (R496). -/
def State.leaveHeld (s : State) (c : Cmd) : State :=
  let v := { s with md := { s.md with leaveCmd := some (c.qp, c.cmdId), interrupted := 0, bound := 0 } }
  v.takeEffect c.qp c.cmdId (v.leaveReply 2)

/-- R497: the limit counts. -/
def State.leaveLimited (s : State) (lim : Nat) : State :=
  { s with md := { s.md with leave := 1, leaveDue := s.elapsed + 1000000000 * (if lim = 0 then 30 else lim) } }

theorem State.moduleLeave_ready {s : State} {c : Cmd} (h : s.Takes c) (hwords : c.bodyWords = 1) (hflags : c.f 0 1 15 = 0) (hrest : c.f 0 32 32 = 0)
    (hlim : c.f 0 16 16 ≤ 3600) (hnow : c.b 0 0 = false) (hready : s.modState = msReady) (hleave : s.md.leave = 0) :
    s.moduleLeave (.moduleLeave c) c = ((((s.started 0x49 c .l).leaveHeld c).leaveGate).leaveLimited (c.f 0 16 16)) := by
  have hstate : (s.started 0x49 c .l).modState = msReady := (s.started_regs _ _ _ R.MOD1_STATE 0 0 (by decide)).trans hready
  have hnone : (s.started 0x49 c .l).md.leave = 0 := (congrArg _ ((s.started_within _ _ _).md (by decide))).trans hleave
  unfold State.moduleLeave
  rw [State.vorane_takes h (by decide) (by simp [hwords])]
  generalize s.started 0x49 c .l = t at hstate hnone
  dsimp only
  rw [hstate, hnow, if_neg (by omega), if_neg (by rw [hnone]; decide), if_neg (by decide), if_neg (by decide), if_pos rfl, if_neg Bool.false_ne_true]
  rfl

/-- MODULE_LEAVE (R497). -/
theorem State.leaving_of {s : State} {c : Cmd} {o : OpenCmd} (ho : s.openCmd c.qp c.cmdId = some o) (lim : Nat) :
    (((s.leaveHeld c).leaveGate).leaveLimited lim).modState = msLeaving ∧ (((s.leaveHeld c).leaveGate).leaveLimited lim).md.leave = 1 ∧
    (((s.leaveHeld c).leaveGate).leaveLimited lim).md.leaveDue = s.elapsed + 1000000000 * (if lim = 0 then 30 else lim) ∧
    (((s.leaveHeld c).leaveGate).leaveLimited lim).rf R.SERVE_SERVE_EN 0 = 0 ∧
    (((s.leaveHeld c).leaveGate).leaveLimited lim).md.leaveCmd = some (c.qp, c.cmdId) ∧
    ((((s.leaveHeld c).leaveGate).leaveLimited lim).openCmd c.qp c.cmdId).any fun o => o.effect := by
  obtain ⟨hstate, hserve, alert, hmd⟩ := (s.leaveHeld c).leaveGate_of
  have hgate : (s.leaveHeld c).Within _ (s.leaveHeld c).leaveGate := State.leaveGate_frame (Sub.refl _) (State.frame_refl _ _)
  have helapsed : (s.leaveHeld c).leaveGate.elapsed = s.elapsed := hgate.elapsed (by decide)
  have hopen : (s.leaveHeld c).leaveGate.openCmd c.qp c.cmdId = _ := (hgate.openCmd (by decide) _ _).trans (State.openCmd_takeEffect ho _)
  refine ⟨hstate, rfl, ?_, hserve, ?_, ?_⟩
  · rw [← helapsed]
    rfl
  · show (s.leaveHeld c).leaveGate.md.leaveCmd = _
    rw [hmd]
    rfl
  · show ((s.leaveHeld c).leaveGate.openCmd c.qp c.cmdId).any _ = true
    rw [hopen]
    rfl

/-- Settles O55: the module leaves, and at the drain or the limit its routes are withdrawn. -/
theorem leavingTheTorusComplete : Obligations.LeavingTheTorusComplete := by
  unfold Obligations.LeavingTheTorusComplete
  refine ⟨?_, ?_, ?_⟩
  · intro c s h hwords hflags hrest hlim hnow hready hleave
    have hopen := State.started_openCmd (op := 0x49) (cls := .l) h.2.2.1
    have hleaving := State.leaving_of hopen (c.f 0 16 16)
    rw [(s.started_within _ _ _).elapsed (by decide)] at hleaving
    rw [← State.moduleLeave_ready h hwords hflags hrest hlim hnow hready hleave] at hleaving
    exact completes_of_next rfl hleaving
  · intro s hleave hreqs hbound
    refine completes_of_next rfl ?_
    rw [State.leaveDrained, if_pos ⟨hleave, by simp [hreqs], hbound⟩]
    exact s.leaveProceed_of
  · intro s hleave hdue
    refine completes_of_next rfl ?_
    rw [State.leaveLimit, if_pos ⟨hleave, hdue⟩]
    exact s.leaveProceed_of

end Sys2Proof.Machine
end

section
/-! The phases of bring-up (R484 to R491; O54). -/

namespace Sys2Proof.Machine

/-! ### What a phase's start leaves -/

theorem State.phaseAt_phaseStart (s : State) (p st : Nat) : (s.phaseStart p st).md.phaseAt = s.elapsed := by
  obtain ⟨a, ha⟩ := s.md_phaseStart p st
  rw [ha]

/-- R484: what the next phase's start leaves on the MOD page and in the module's record. -/
theorem State.phaseStart_of (s : State) (p : Nat) {st : Nat} (h : st < 16) : (s.phaseStart p st).modState = st ∧
    (s.phaseStart p st).rf R.MOD1_PHASE_STAMP 0 p = s.now % 2 ^ 64 ∧ (s.phaseStart p st).md.phaseAt = s.elapsed :=
  ⟨s.modState_phaseStart p h, s.phaseStamp_phaseStart p st, s.phaseAt_phaseStart p st⟩

theorem State.now_phaseStart (s : State) (p st : Nat) : (s.phaseStart p st).now = s.now ∧ (s.phaseStart p st).elapsed = s.elapsed := by
  have hw : s.Within _ (s.phaseStart p st) := State.phaseStart_frame (Sub.refl _) (s.frame_refl _)
  exact ⟨hw.now (by decide), hw.elapsed (by decide)⟩

/-! ### ROM -/

/-- COLD_START (R484). -/
theorem State.boardStart_of {s : State} (floating : Nat) (hp : s.md.powered = true) (hs : s.md.started = false) :
    (s.boardStart floating).md.started = true ∧ (s.boardStart floating).md.phaseAt = s.elapsed ∧ (s.boardStart floating).md.resetN = false ∧
    (s.boardStart floating).modState = msRom ∧ (s.boardStart floating).rf R.BOARD_FLASH_OWNED 0 = 1 ∧
    (s.boardStart floating).rf R.MOD1_PHASE_STAMP 0 0 = s.now % 2 ^ 64 := by
  have heq : s.boardStart floating =
      ((({ s with md := { s.md with resetN := false } }).readStraps floating).wf R.BOARD_FLASH_OWNED 0 1).phaseStart 0 msRom := by
    rw [State.boardStart, if_neg (by simp [hp, hs])]
  have hstraps (t : State) : t.Within _ (t.readStraps floating) := State.readStraps_frame (Sub.refl _) (t.frame_refl _)
  have hreset (t : State) : (t.readStraps floating).md.resetN = t.md.resetN := by
    obtain ⟨a, ha⟩ := State.md_boardFault ((((t.wf R.BOARD_STRAP_FLOAT 0 (floating % 8)).wf R.MOD_SLOT 0 _).wf R.BOARD_SLOT 0 _).wf
      R.BOARD_SB_ADDR 0 (0x50 + (Config.slot &&& (7 - floating % 8)))) 10 (decide (floating % 8 ≠ 0))
    rw [State.readStraps, ha]
    rfl
  rw [heq]
  generalize hu : State.wf _ R.BOARD_FLASH_OWNED 0 1 = u
  have hnow : u.now = s.now := by rw [← hu, State.wf_now, (hstraps _).now (by decide)]
  have helapsed : u.elapsed = s.elapsed := by rw [← hu, State.wf_elapsed, (hstraps _).elapsed (by decide)]
  have hresetN : u.md.resetN = false := by rw [← hu, State.wf_md, hreset]
  have hflash : u.rf R.BOARD_FLASH_OWNED 0 = 1 := by rw [← hu]; exact State.rf_wf_same _ _ _ _ _
  obtain ⟨a, ha⟩ := u.md_phaseStart 0 msRom
  obtain ⟨hrom, hstamp, hat⟩ := u.phaseStart_of 0 (st := msRom) (by decide)
  refine ⟨by rw [ha], hat.trans helapsed, by rw [ha]; exact hresetN, hrom, ?_, hnow ▸ hstamp⟩
  rw [State.rf_phaseStart _ _ _ (by decide) (by decide) (by decide), hflash]

theorem State.rf_putDigest (s : State) {f g : Field} (ws : List Nat) (h : g.code ≠ f.code) (j l : Nat) : (s.putDigest f ws).rf g j l = s.rf g j l :=
  State.each_eq (fun t => t.rf g j l) (fun _ _ t => t.rf_wf_of_code h _ _ _ _ _) s

theorem State.rf_copyBad (s : State) (n : Nat) {g : Field} (hg : g.plain) (j l : Nat) : (s.copyBad n).rf g j l = s.rf g j l := by
  rw [State.copyBad, State.rf_unitEv_plain _ _ _ _ _ _ hg, State.rf_setInt_plain _ _ _ hg]

/-- R486: the fields of the copies that verify and of the one in use. -/
def copyPlaces : List Nat := [R.VAULT_COPY0_VALID.code, R.VAULT_COPY1_VALID.code, R.VAULT_VERIFY_STAMP.code, R.VAULT_COPY_IN_USE.code,
  R.VAULT_VAULT_SEQ.code, R.VAULT_VAULT_DIGEST.code]

/-- R486: whether the copies verify. -/
def State.copiesRead (s : State) (b : Boot) : State :=
  ((s.wf R.VAULT_COPY0_VALID 0 (bit b.ok0)).wf R.VAULT_COPY1_VALID 0 (bit b.ok1)).wf R.VAULT_VERIFY_STAMP 0 s.now

/-- R486: copy 0 is in use. -/
def State.useCopy0 (s : State) (b : Boot) : State :=
  ((s.wf R.VAULT_COPY_IN_USE 0 0).wf R.VAULT_VAULT_SEQ 0 b.seq0).putDigest R.VAULT_VAULT_DIGEST b.digest

/-- R486: a good copy 0 is used, where copy 1 is bad or equal. -/
theorem State.chooseCopy_first (s : State) {b : Boot} (h0 : b.ok0 = true) (h1 : b.ok1 = true → b.equal = true) : s.chooseCopy b =
    (some 0, (if b.ok1 then s.copiesRead b else (s.copiesRead b).copyBad 1).useCopy0 b) := by
  unfold State.chooseCopy
  dsimp only
  rw [h0]
  cases hok : b.ok1 with
  | true =>
    rw [h1 hok]
    unfold State.copiesRead
    rw [h0, hok]
    rfl
  | false =>
    unfold State.copiesRead
    rw [h0, hok]
    rfl

/-- The start of the ROM phase's end where copy 0 is good (R486). -/
def State.romCopies (s : State) (b : Boot) : State := (if b.ok1 then s.copiesRead b else (s.copiesRead b).copyBad 1).useCopy0 b

theorem State.now_copiesRead (s : State) (b : Boot) : (s.copiesRead b).now = s.now := by simp only [State.copiesRead, State.wf_now]

theorem State.now_copyBad (s : State) (n : Nat) : (s.copyBad n).now = s.now :=
  (State.copyBad_frame (Sub.refl _) (s.frame_refl _) : s.Within _ (s.copyBad n)).now (by decide)

theorem State.now_useCopy0 (s : State) (b : Boot) : (s.useCopy0 b).now = s.now := by
  have hdigest (t : State) : (t.putDigest R.VAULT_VAULT_DIGEST b.digest).now = t.now := 
    State.each_eq State.now (fun _ _ u => State.wf_now u _ _ _ _) t
  rw [State.useCopy0, hdigest, State.wf_now, State.wf_now]

theorem State.now_romCopies (s : State) (b : Boot) : (s.romCopies b).now = s.now := by
  rw [State.romCopies, State.now_useCopy0]
  split
  · exact s.now_copiesRead b
  · rw [State.now_copyBad, State.now_copiesRead]

theorem State.rf_useCopy0 (s : State) (b : Boot) {g : Field} (hg : g.code ∉ copyPlaces) (j l : Nat) : (s.useCopy0 b).rf g j l = s.rf g j l := by
  simp only [copyPlaces, List.mem_cons, List.not_mem_nil, or_false, not_or] at hg
  obtain ⟨-, -, -, huse, hseq, hdigest⟩ := hg
  rw [State.useCopy0, State.rf_putDigest _ _ hdigest, State.rf_wf_of_code _ hseq, State.rf_wf_of_code _ huse]

theorem State.rf_romCopies (s : State) (b : Boot) {g : Field} (hg : g.plain ∧ g.code ∉ copyPlaces) (j l : Nat) :
    (s.romCopies b).rf g j l = s.rf g j l := by
  have hread : (s.copiesRead b).rf g j l = s.rf g j l := by
    have hne := hg.2
    simp only [copyPlaces, List.mem_cons, List.not_mem_nil, or_false, not_or] at hne
    obtain ⟨h0, h1, hstamp, -, -, -⟩ := hne
    rw [State.copiesRead, State.rf_wf_of_code _ hstamp, State.rf_wf_of_code _ h1, State.rf_wf_of_code _ h0]
  rw [State.romCopies, State.rf_useCopy0 _ _ hg.2]
  split
  · exact hread
  · rw [State.rf_copyBad _ _ hg.1, hread]

theorem State.romCopies_of (s : State) {b : Boot} (h0 : b.ok0 = true) : (s.romCopies b).rf R.VAULT_COPY_IN_USE 0 = 0 ∧
    (s.romCopies b).rf R.VAULT_COPY0_VALID 0 = 1 ∧ (s.romCopies b).rf R.VAULT_COPY1_VALID 0 = bit b.ok1 := by
  have hbit (x : Bool) : bit x % 2 = bit x := by cases x <;> rfl
  have h1 : R.VAULT_COPY1_VALID.len = 1 := rfl
  have hlen : R.VAULT_COPY0_VALID.len = 1 := rfl
  have hvalid (g : Field) (hg : g.plain) (h1 : g.code ≠ R.VAULT_COPY_IN_USE.code) (h2 : g.code ≠ R.VAULT_VAULT_SEQ.code)
      (h3 : g.code ≠ R.VAULT_VAULT_DIGEST.code) : (s.romCopies b).rf g 0 = (s.copiesRead b).rf g 0 := by
    rw [State.romCopies, State.useCopy0, State.rf_putDigest _ _ h3, State.rf_wf_of_code _ h2, State.rf_wf_of_code _ h1]
    split
    · rfl
    · exact State.rf_copyBad _ _ hg _ _
  refine ⟨?_, ?_, ?_⟩
  · rw [State.romCopies, State.useCopy0, State.rf_putDigest _ _ (by decide), State.rf_wf_of_code _ (by decide), State.rf_wf_same]
    rfl
  · rw [hvalid _ (by decide) (by decide) (by decide) (by decide), State.copiesRead, State.rf_wf_of_code _ (by decide),
      State.rf_wf_of_code _ (by decide), State.rf_wf_same, h0]
    rfl
  · rw [hvalid _ (by decide) (by decide) (by decide) (by decide), State.copiesRead, State.rf_wf_of_code _ (by decide), State.rf_wf_same, h1]
    exact hbit _

/-- R416: the fields of the identity. -/
def identityPlaces : List Nat := [R.KEYS_DEVID_DIGEST.code, R.KEYS_WRAP_DIGEST.code, R.KEYS_ALIAS_DIGEST.code, R.KEYS_IDENTITY_READY.code]

theorem State.rf_identity (s : State) (b : Boot) {g : Field} (hg : g.plain ∧ g.code ∉ identityPlaces) (j l : Nat) :
    (s.identity b).rf g j l = s.rf g j l := by
  obtain ⟨hplain, hne⟩ := hg
  simp only [identityPlaces, List.mem_cons, List.not_mem_nil, or_false, not_or] at hne
  obtain ⟨hdev, hwrap, halias, hready⟩ := hne
  have hdigests : (((s.putDigest R.KEYS_DEVID_DIGEST b.devid).putDigest R.KEYS_WRAP_DIGEST b.wrap).putDigest R.KEYS_ALIAS_DIGEST b.aliasKey).rf g j l =
      s.rf g j l := by
    rw [State.rf_putDigest _ _ halias, State.rf_putDigest _ _ hwrap, State.rf_putDigest _ _ hdev]
  unfold State.identity
  dsimp only
  split
  · rw [State.rf_wf_of_code _ hready, hdigests]
  · rw [State.rf_unitEv_plain _ _ _ _ _ _ hplain, State.rf_setInt_plain _ _ _ hplain, State.rf_wf_of_code _ hready, hdigests]

theorem State.identityReady_identity (s : State) (b : Boot) : (s.identity b).rf R.KEYS_IDENTITY_READY 0 = bit b.idOk := by
  unfold State.identity
  dsimp only
  split
  · rename_i h
    rw [State.rf_wf_same, h]
    rfl
  · rename_i h
    rw [State.rf_unitEv_plain _ _ _ _ _ _ (by decide), State.rf_setInt_plain _ _ _ (by decide), State.rf_wf_same, eq_false_of_ne_true h]
    rfl

/-- The rungs, the identity and what the flash says (R447, R416, R561). -/
def State.romPlatform (s : State) (b : Boot) : State :=
  (((((s.wf R.VAULT_FIELD_RECORD_VALID 0 1).restoreRungs.identity b).wf R.BOARD1_JEDEC_ID 0 b.jedec).wf R.BOARD1_SIZE_MIB 0 b.sizeMib).wf
    R.BOARD1_OCTAL_DTR 0 (bit b.flashOk)).inc R.BOARD1_FLASH_READ_ERRORS 0 b.readErrs

/-- The fields that `romPlatform` writes, but for the clocks' block and the identity. -/
def flashPlaces : List Nat := [R.VAULT_FIELD_RECORD_VALID.code, R.BOARD1_JEDEC_ID.code, R.BOARD1_SIZE_MIB.code, R.BOARD1_OCTAL_DTR.code,
  R.BOARD1_FLASH_READ_ERRORS.code]

theorem State.rf_romPlatform_identity (s : State) (b : Boot) {g : Field} (hg : g.code ∉ flashPlaces) (j l : Nat) :
    (s.romPlatform b).rf g j l = ((s.wf R.VAULT_FIELD_RECORD_VALID 0 1).restoreRungs.identity b).rf g j l := by
  simp only [flashPlaces, List.mem_cons, List.not_mem_nil, or_false, not_or] at hg
  obtain ⟨-, hjedec, hsize, hoctal, herrors⟩ := hg
  rw [State.romPlatform, State.rf_inc_of_code _ herrors, State.rf_wf_of_code _ hoctal, State.rf_wf_of_code _ hsize, State.rf_wf_of_code _ hjedec]

theorem State.restoreRungs_within (s : State) : s.Within (touch [9] [.clk]) s.restoreRungs :=
  State.restoreRungs_frame (by decide) (s.frame_refl _)

theorem State.rf_romPlatform (s : State) (b : Boot) {g : Field} (hg : g.plain ∧ g.code ∉ identityPlaces) (hflash : g.code ∉ flashPlaces)
    (hrungs : (touch [9] [.clk]).testBit g.area = false) (j l : Nat) : (s.romPlatform b).rf g j l = s.rf g j l := by
  have hrec : g.code ≠ R.VAULT_FIELD_RECORD_VALID.code := fun h => hflash (by simp [flashPlaces, h])
  rw [State.rf_romPlatform_identity _ _ hflash, State.rf_identity _ _ hg, (State.restoreRungs_within _).rf hrungs, State.rf_wf_of_code _ hrec]

theorem State.identityReady_romPlatform (s : State) (b : Boot) : (s.romPlatform b).rf R.KEYS_IDENTITY_READY 0 = bit b.idOk := by
  rw [State.rf_romPlatform_identity _ _ (by decide), State.identityReady_identity]

theorem State.now_romPlatform (s : State) (b : Boot) : (s.romPlatform b).now = s.now := by
  have hid (t : State) : (t.identity b).now = t.now := (State.identity_frame (Sub.refl _) (t.frame_refl _) : t.Within _ (t.identity b)).now (by decide)
  rw [State.romPlatform, State.inc_now, State.wf_now, State.wf_now, State.wf_now, hid, (State.restoreRungs_within _).now (by decide), State.wf_now]

/-- R424: with slot A committed, no trial in slot B, and an image in slot A that verifies, slot A boots. -/
theorem State.chooseImage_first {s : State} {b : Boot} (ha : s.rf R.OASIS3_SLOT_A_STATE 0 = 2) (hb : s.rf R.OASIS3_SLOT_B_STATE 0 ≠ 1)
    (hverifies : s.verifies b 0 = true) : s.chooseImage b = (some ((s.wf (slotStateF 0) 0 2).bootSlot 0 false), s) := by
  have hA : s.rf (slotStateF 0) 0 = 2 := ha
  have hB : s.rf (slotStateF 1) 0 ≠ 1 := hb
  have htrial : ([0, 1].filter fun t => decide (s.rf (slotStateF t) 0 = 1)) = [] := by
    rw [List.filter_cons_of_neg (by simp [hA]), List.filter_cons_of_neg (by simpa using hB), List.filter_nil]
  have hfirst : ([0, 1].filter fun t => decide (s.rf (slotStateF t) 0 = 2)) = 0 :: [1].filter fun t => decide (s.rf (slotStateF t) 0 = 2) :=
    List.filter_cons_of_pos (by simp [hA])
  unfold State.chooseImage
  dsimp only
  rw [htrial]
  dsimp only
  rw [hfirst, List.cons_append, State.bootFrom, if_pos hverifies]

/-- The fields that a boot of a slot writes (R424). -/
def bootPlaces : List Nat := [R.OASIS3_SLOT_A_STATE.code, R.OASIS3_RUNNING_SLOT.code, R.OASIS3_RUNNING_TRIAL.code, R.KEYS_TRIAL_BOOT.code,
  R.KEYS_BOOT_SLOT.code, R.KEYS_IMAGE_VERSION.code]

/-- R424: slot A committed and booted, and the next phase started. -/
def State.romBooted (s : State) : State := (((s.wf (slotStateF 0) 0 2).bootSlot 0 false).trialOutcome).phaseStart 1 msPlatform

theorem State.rf_trialOutcome (s : State) {g : Field} (hg : g.plain) (j l : Nat) : s.trialOutcome.rf g j l = s.rf g j l := by
  unfold State.trialOutcome
  dsimp only
  split
  · rw [State.rf_logEvSev_plain _ _ _ _ _ _ hg]
    rfl
  · rfl

theorem State.rf_bootSlot_code (s : State) {g : Field} (hg : g.code ∉ bootPlaces) (trial : Bool) (j l : Nat) :
    (s.bootSlot 0 trial).rf g j l = s.rf g j l := by
  simp only [bootPlaces, List.mem_cons, List.not_mem_nil, or_false, not_or] at hg
  obtain ⟨-, hslot, htrial, hkeys, hboot, hversion⟩ := hg
  unfold State.bootSlot
  dsimp only
  rw [State.rf_wf_of_code _ hversion, State.rf_wf_of_code _ hboot]
  refine Eq.trans (State.rf_congr rfl _ _ _) (((((s.wf R.OASIS3_RUNNING_SLOT 0 0).wf R.OASIS3_RUNNING_TRIAL 0 (bit trial)).rf_wf_of_code hkeys _ _ _ _ _).trans ?_))
  rw [State.rf_wf_of_code _ htrial, State.rf_wf_of_code _ hslot]

theorem State.running_bootSlot (s : State) : (s.bootSlot 0 false).rf R.OASIS3_RUNNING_SLOT 0 = 0 ∧ (s.bootSlot 0 false).rf R.OASIS3_RUNNING_TRIAL 0 = 0 := by
  have hkeep (g : Field) (hk : g.code ≠ R.KEYS_TRIAL_BOOT.code ∧ g.code ≠ R.KEYS_BOOT_SLOT.code ∧ g.code ≠ R.KEYS_IMAGE_VERSION.code) :
      (s.bootSlot 0 false).rf g 0 = ((s.wf R.OASIS3_RUNNING_SLOT 0 0).wf R.OASIS3_RUNNING_TRIAL 0 0).rf g 0 := by
    obtain ⟨hkeys, hboot, hversion⟩ := hk
    unfold State.bootSlot
    dsimp only
    rw [State.rf_wf_of_code _ hversion, State.rf_wf_of_code _ hboot]
    exact Eq.trans (State.rf_congr rfl _ _ _) (((s.wf R.OASIS3_RUNNING_SLOT 0 0).wf R.OASIS3_RUNNING_TRIAL 0 0).rf_wf_of_code hkeys _ _ _ _ _)
  refine ⟨?_, ?_⟩
  · rw [hkeep _ (by decide), State.rf_wf_of_code _ (by decide)]
    exact State.rf_wf_same _ _ _ _ _
  · rw [hkeep _ (by decide)]
    exact State.rf_wf_same _ _ _ _ _

theorem State.now_beforePlatform (s : State) : ((s.wf (slotStateF 0) 0 2).bootSlot 0 false).trialOutcome.now = s.now := by
  have htrial (t : State) : t.trialOutcome.now = t.now := (State.trialOutcome_frame (Sub.refl _) (t.frame_refl _) : t.Within _ t.trialOutcome).now (by decide)
  have hboot (t : State) : (t.bootSlot 0 false).now = t.now :=
    (State.bootSlot_frame (Sub.refl _) (t.frame_refl _) : t.Within _ (t.bootSlot 0 false)).now (by decide)
  rw [htrial, hboot, State.wf_now]

/-- What a boot leaves of the fields it does not write. -/
theorem State.rf_romBooted (s : State) {g : Field} (hg : g.plain ∧ g.code ∉ bootPlaces)
    (hphase : g.code ≠ R.MOD1_STATE.code ∧ g.code ≠ R.MOD1_PHASE_STAMP.code) (j l : Nat) : s.romBooted.rf g j l = s.rf g j l := by
  obtain ⟨hplain, hboot⟩ := hg
  have hslot : g.code ≠ (slotStateF 0).code := fun h => hboot (by rw [h]; decide)
  rw [State.romBooted, State.rf_phaseStart _ _ _ hplain hphase.1 hphase.2, State.rf_trialOutcome _ hplain, State.rf_bootSlot_code _ hboot,
    State.rf_wf_of_code _ hslot]

theorem State.romBooted_of (s : State) : s.romBooted.modState = msPlatform ∧ s.romBooted.rf R.OASIS3_RUNNING_SLOT 0 = 0 ∧
    s.romBooted.rf R.OASIS3_RUNNING_TRIAL 0 = 0 ∧ s.romBooted.rf R.MOD1_PHASE_STAMP 0 1 = s.now % 2 ^ 64 := by
  obtain ⟨hstate, hstamp, -⟩ := (((s.wf (slotStateF 0) 0 2).bootSlot 0 false).trialOutcome).phaseStart_of 1 (st := msPlatform) (by decide)
  obtain ⟨hslot, htrial⟩ := (s.wf (slotStateF 0) 0 2).running_bootSlot
  rw [State.now_beforePlatform] at hstamp
  refine ⟨hstate, ?_, ?_, hstamp⟩
  · rw [State.romBooted, State.rf_phaseStart _ _ _ (by decide) (by decide) (by decide), State.rf_trialOutcome _ (by decide), hslot]
  · rw [State.romBooted, State.rf_phaseStart _ _ _ (by decide) (by decide) (by decide), State.rf_trialOutcome _ (by decide), htrial]

/-- ROM_PHASE_END with good tables and a good slot A (R484). -/
theorem State.romEnd_good {s : State} {b : Boot} (hstate : s.modState = msRom) (hstarted : s.md.started = true) (h0 : b.ok0 = true)
    (h1 : b.ok1 = true → b.equal = true) (hrecord : b.recordOk = true) (hflash : b.flashOk = true) (hsize : 256 ≤ b.sizeMib)
    (hA : s.rf R.OASIS3_SLOT_A_STATE 0 = 2) (hB : s.rf R.OASIS3_SLOT_B_STATE 0 ≠ 1) (hverifies : s.verifies b 0 = true) :
    s.romEnd b = ((s.romCopies b).romPlatform b).romBooted := by
  have hkeep (g : Field) (hg : g.plain ∧ g.code ∉ copyPlaces) (hid : g.code ∉ identityPlaces) (hfl : g.code ∉ flashPlaces)
      (hrungs : (touch [9] [.clk]).testBit g.area = false) : ((s.romCopies b).romPlatform b).rf g 0 = s.rf g 0 := by
    rw [State.rf_romPlatform _ _ ⟨hg.1, hid⟩ hfl hrungs, State.rf_romCopies _ _ hg]
  have himage := State.chooseImage_first (s := (s.romCopies b).romPlatform b) (b := b)
    ((hkeep _ (by decide) (by decide) (by decide) (by decide)).trans hA)
    (by rw [hkeep _ (by decide) (by decide) (by decide) (by decide)]; exact hB)
    (by
      have hsec : ((s.romCopies b).romPlatform b).rf (slotSecurityF 0) 0 = s.rf (slotSecurityF 0) 0 :=
        hkeep R.OASIS3_SLOT_A_SECURITY (by decide) (by decide) (by decide) (by decide)
      unfold State.verifies at hverifies ⊢
      rw [hkeep _ (by decide) (by decide) (by decide) (by decide), hsec]
      exact hverifies)
  unfold State.romEnd
  rw [if_neg (by simp [hstate, hstarted]), State.chooseCopy_first s h0 h1]
  dsimp only
  rw [if_pos hrecord]
  show (if _ then _ else _) = _
  rw [if_neg (by simp [hflash, hsize])]
  unfold State.romPlatform State.romCopies at himage ⊢
  rw [himage]
  rfl

/-! ### The phases after ROM -/

theorem State.memory_start (s : State) {u : State} (h : s.Within (touch [0x20, 0x30] []) u) : (u.phaseStart 3 msLinks).modState = msLinks ∧
    (u.phaseStart 3 msLinks).rf R.MOD1_PHASE_STAMP 0 3 = s.now % 2 ^ 64 ∧ (u.phaseStart 3 msLinks).md.phaseAt = s.elapsed := by
  have hstart := u.phaseStart_of 3 (st := msLinks) (by decide)
  rw [h.now (by decide), h.elapsed (by decide)] at hstart
  exact hstart

/-- MEMORY_PHASE_END (R484). -/
theorem State.memoryEnd_of {s : State} (hstate : s.modState = msMemory)
    (h : s.rb R.MOD1_BOOT_KIND 0 = true ∨ ((List.range 12).all (fun n => s.rb R.HBM_TRAINED n) = true ∧ s.md.fillDue = [])) :
    s.memoryEnd.modState = msLinks ∧ s.memoryEnd.rf R.MOD1_PHASE_STAMP 0 3 = s.now % 2 ^ 64 ∧ s.memoryEnd.md.phaseAt = s.elapsed := by
  unfold State.memoryEnd
  rw [if_neg (by simp [hstate])]
  split
  · exact s.memory_start (State.linksStart_frame (by decide) (State.restoreHbm_frame (by decide) (s.frame_refl _)))
  · rename_i hcold
    obtain ⟨htrained, hfilled⟩ := h.resolve_left hcold
    rw [if_pos (by simp only [htrained, hfilled]; rfl)]
    exact s.memory_start (State.linksStart_frame (by decide) (s.frame_refl _))

/-- PLATFORM_PHASE_END (R484). -/
theorem State.platformEnd_of {s : State} {bad : List (Nat × Nat)} (hstate : s.modState = msPlatform) (h : s.rb R.MOD1_BOOT_KIND 0 = true ∨ bad = []) :
    s.platformEnd bad = s.phaseStart 2 msMemory := by
  have hfails : (if s.rb R.MOD1_BOOT_KIND 0 then [] else bad.filter fun e => decide (e.1 < 512) && decide (e.2 < 9)) = [] := by
    split
    · rfl
    · rename_i hcold
      rw [h.resolve_left hcold]
      rfl
  unfold State.platformEnd
  rw [if_neg (by simp [hstate])]
  dsimp only
  rw [hfails]
  rfl

/-- LINKS_PHASE_END (R484). -/
theorem State.linksEnd_of {s : State} (hstate : s.modState = msLinks) : s.linksEnd.modState = msCores ∧ s.linksEnd.md.tested = [] ∧
    s.linksEnd.rf R.MOD1_BRINGUP_FENCES 0 = 0 ∧ s.linksEnd.rf R.MOD1_PHASE_STAMP 0 4 = s.now % 2 ^ 64 := by
  unfold State.linksEnd
  rw [if_neg (by simp [hstate])]
  dsimp only
  generalize hu : State.wf _ R.MOD1_BRINGUP_FENCES 0 0 = u
  have htested : u.md.tested = [] := by rw [← hu]; rfl
  have hnow : u.now = s.now := by rw [← hu]; rfl
  have hfences : u.rf R.MOD1_BRINGUP_FENCES 0 = 0 := by rw [← hu]; exact State.rf_wf_same _ _ _ _ _
  obtain ⟨hcores, hstamp, -⟩ := u.phaseStart_of 4 (st := msCores) (by decide)
  obtain ⟨a, ha⟩ := u.md_phaseStart 4 msCores
  refine ⟨hcores, by rw [ha]; exact htested, ?_, hnow ▸ hstamp⟩
  rw [State.rf_phaseStart _ _ _ (by decide) (by decide) (by decide), hfences]

/-- R490, R491: the start of the last phase. -/
def State.coresStart (s : State) : State := s.bringupFences.assignRoles.phaseStart 5 msAwaitPlan

/-- R150, R547: what follows the start of the last phase. -/
def State.coresRest (s : State) (warm : Bool) : State :=
  (s.each (Tbl.keys s.prog) fun t e => t.tryOwed e).when warm fun t => t.replan

theorem State.coresRest_within (s : State) (warm : Bool) : s.Within (touch [1, 3, 9, 0x12, 0x13, 0x16, 0x20, 0x38, 0x43]
    [.irqLatch, .irqs, .staging, .lostStamps, .cmdRecs, .vars, .prog, .clk, .sec, .sen]) (s.coresRest warm) :=
  State.when_frame (State.each_frame (s.frame_refl _) fun _ _ ht => State.tryOwed_frame (by decide) ht)
    fun _ ht => State.replan_frame (by decide) ht

theorem State.lateResets_none {s : State} (h : s.md.late = []) : s.lateResets = { s with md := { s.md with late := [] } } := by
  unfold State.lateResets
  rw [h]
  rfl

theorem State.coresStart_of {s : State} (hfences : s.sen.fences = []) (hlate : s.md.late = []) : s.coresStart.modState = msAwaitPlan ∧
    s.coresStart.rf R.MOD1_BRINGUP_FENCES 0 = 0 ∧ s.coresStart.rf R.MOD1_PHASE_STAMP 0 5 = s.now % 2 ^ 64 ∧
    s.coresStart.md.phaseAt = s.elapsed ∧ s.coresStart.md.late = [] := by
  have hfence : s.Within _ s.bringupFences := State.bringupFences_frame (Sub.refl _) (s.frame_refl _)
  have hroles (t : State) : t.Within _ t.assignRoles := State.assignRoles_frame (Sub.refl _) (t.frame_refl _)
  have hzero : s.bringupFences.rf R.MOD1_BRINGUP_FENCES 0 = 0 := by
    unfold State.bringupFences
    rw [hfences]
    exact State.rf_wf_same _ _ _ _ _
  obtain ⟨hstate, hstamp, hat⟩ := s.bringupFences.assignRoles.phaseStart_of 5 (st := msAwaitPlan) (by decide)
  obtain ⟨a, ha⟩ := s.bringupFences.assignRoles.md_phaseStart 5 msAwaitPlan
  rw [(hroles _).now (by decide), hfence.now (by decide)] at hstamp
  rw [(hroles _).elapsed (by decide), hfence.elapsed (by decide)] at hat
  unfold State.coresStart
  refine ⟨hstate, ?_, hstamp, hat, ?_⟩
  · rw [State.rf_phaseStart _ _ _ (by decide) (by decide) (by decide), (hroles _).rf (by decide), hzero]
  · rw [ha]
    dsimp only
    rw [(hroles _).md (by decide), hfence.md (by decide), hlate]

theorem State.coresEnd_eq {s : State} (bad : List Nat) (hstate : s.modState = msCores) (hdie : s.rst .die = none) :
    s.coresEnd bad = (s.coresStart.coresRest (s.rb R.MOD1_BOOT_KIND 0)).lateResets := by
  have hfence : s.Within _ s.bringupFences := State.bringupFences_frame (Sub.refl _) (s.frame_refl _)
  have hrst : s.bringupFences.rst .die = none := by
    unfold State.rst at hdie ⊢
    rw [hfence.rsts (by decide)]
    exact hdie
  unfold State.coresEnd
  rw [if_neg (by simp [hstate])]
  dsimp only
  rw [hrst]
  rfl

/-- CORES_PHASE_END (R491). -/
theorem State.coresEnd_of {s : State} (bad : List Nat) (hstate : s.modState = msCores) (hfences : s.sen.fences = []) (hlate : s.md.late = [])
    (hdie : s.rst .die = none) : (s.coresEnd bad).modState = msAwaitPlan ∧ (s.coresEnd bad).rf R.MOD1_BRINGUP_FENCES 0 = 0 ∧
    (s.coresEnd bad).rf R.MOD1_PHASE_STAMP 0 5 = s.now % 2 ^ 64 ∧ (s.coresEnd bad).md.phaseAt = s.elapsed := by
  obtain ⟨hawait, hzero, hstamp, hat, hnone⟩ := State.coresStart_of hfences hlate
  have hrest := s.coresStart.coresRest_within (s.rb R.MOD1_BOOT_KIND 0)
  rw [State.coresEnd_eq bad hstate hdie]
  generalize s.coresStart.coresRest (s.rb R.MOD1_BOOT_KIND 0) = u at hrest
  have hmd : u.md = s.coresStart.md := hrest.md (by decide)
  have hkeep (g : Field) (i k : Nat) : u.lateResets.rf g i k = u.rf g i k := by
    rw [State.lateResets_none (by rw [hmd, hnone])]
    rfl
  rw [State.modState, hkeep, hkeep, hkeep, hrest.rf (by decide), hrest.rf (by decide), hrest.rf (by decide), State.lateResets_none (by rw [hmd, hnone])]
  exact ⟨hawait, hzero, hstamp, (congrArg ModSt.phaseAt hmd).trans hat⟩

/-! ### Self-tests, R489 -/

/-- R489: the record of a core's test. -/
def State.testRecord (s : State) (pc eng : Nat) (sram logic ni ok : Bool) (sig : Nat) : State :=
  (((((((s.wf R.PCORE1_TEST_KIND pc 1).wf R.PCORE1_PASSED pc (bit ok)).wf R.PCORE1_ENGINE_FAIL pc eng).wf
      R.PCORE1_SRAM_FAIL pc (bit sram)).wf R.PCORE1_LOGIC_FAIL pc (bit logic)).wf R.PCORE1_NI_FAIL pc (bit ni)).wf
      R.PCORE1_TEST_STAMP pc s.now).wf R.PCORE1_SIGNATURE pc sig

/-- R489: the core is tested. -/
def State.tested (s : State) (pc : Nat) : State :=
  { s with md := { s.md with tested := if s.md.tested.contains pc then s.md.tested else pc :: s.md.tested } }

theorem State.contains_tested (s : State) (pc : Nat) : (s.tested pc).md.tested.contains pc = true := by
  unfold State.tested
  dsimp only
  split
  · assumption
  · simp

theorem State.selfTest_cold {s : State} {pc : Nat} (engines : Nat) (sram logic ni : Bool) (sig : Nat) (hfenced : s.rb R.PCORE_FENCED pc = false)
    (hstate : s.modState = msCores) (hcold : s.rb R.MOD1_BOOT_KIND 0 = false) (hrsts : s.rsts = []) :
    ∃ u eng ok, eng = (if kindOfPhysical (pc % 64) = 0 then engines % 65536 else 0) ∧ ok = (decide (eng = 0) && !sram && !logic && !ni) ∧
      u = (s.testRecord pc eng sram logic ni ok sig).tested pc ∧
      s.selfTest pc engines sram logic ni sig = if ok then u else u.evidence pc 0x14 (((List.range 16).find? fun n => eng.testBit n).getD 0) := by
  refine ⟨_, _, _, rfl, rfl, rfl, ?_⟩
  unfold State.selfTest
  rw [hfenced, hstate, hcold, hrsts]
  dsimp only [List.any_nil]
  simp only [decide_true, Bool.or_false, Bool.not_true, Bool.false_eq_true, or_self, if_false, Bool.not_false, Bool.and_true]
  rfl

/-- R445: the fields that evidence about a core writes on its page. -/
def evidencePlaces : List Nat := [R.PCORE_EVIDENCE_COUNT.code, R.PCORE_LAST_EVIDENCE_STAMP.code, R.PCORE_LAST_EVIDENCE_KIND.code,
  R.PCORE_LAST_EVIDENCE_ENGINE.code, R.PCORE_LEVEL.code, R.PCORE_VRAISE_STEPS.code]

/-- R446: what a rung set to FENCED leaves of the core's page. -/
theorem State.rf_setRung_fenced (s : State) (pc steps : Nat) {g : Field} (hg : g.plain ∧ g.code ∉ evidencePlaces)
    (hclocks : (touch [9] [.clk, .sen]).testBit g.area = false) (j l : Nat) : (s.setRung pc 5 steps).rf g j l = s.rf g j l := by
  obtain ⟨hplain, hne⟩ := hg
  simp only [evidencePlaces, List.mem_cons, List.not_mem_nil, or_false, not_or] at hne
  obtain ⟨-, -, -, -, hlevel, hsteps⟩ := hne
  have hrest (t : State) (p : Nat) : t.Within (touch [9] [.clk, .sen]) ((t.railSlew p).applyClocks [pc]) :=
    State.applyClocks_frame (by decide) (State.railSlew_frame (by decide) (t.frame_refl _))
  unfold State.setRung
  dsimp only
  rw [(hrest _ _).rf hclocks, if_pos rfl]
  generalize hu : State.setInt _ (pcorePage pc) R.INT_PCORE_LEVEL_CHANGE = u
  have hkeep : u.rf g j l = s.rf g j l := by
    rw [← hu, State.rf_setInt_plain _ _ _ hplain, State.rf_wf_of_code _ hsteps, State.rf_wf_of_code _ hlevel]
  exact (State.rf_congr (s := u) rfl _ _ _).trans hkeep

/-- R445: evidence is counted and logged. -/
def State.evidenceMarked (s : State) (pc code eng : Nat) : State :=
  let t := ((((s.incSat R.PCORE_EVIDENCE_COUNT pc).wf R.PCORE_LAST_EVIDENCE_STAMP pc s.now).wf R.PCORE_LAST_EVIDENCE_KIND pc code).wf
    R.PCORE_LAST_EVIDENCE_ENGINE pc eng).setInts (pcorePage pc) (2 ^ R.INT_PCORE_EVIDENCE + (if code = 0x10 then 2 else 0))
  let u := t.logEv 0x0501 (pcorePage pc).index 0 [pc, code, eng, 0]
  { u with sen := { u.sen with lastEv := Tbl.put u.sen.lastEv pc s.powered } }

/-- R445: evidence of a code from 0x10 on fences the core, where it is not fenced. -/
theorem State.evidence_fences (s : State) (pc : Nat) {code : Nat} (eng : Nat) (hcode : 0x10 ≤ code) : s.evidence pc code eng =
    if s.rf R.PCORE_LEVEL pc = 5 then s.evidenceMarked pc code eng
    else (s.evidenceMarked pc code eng).setRung pc 5 ((s.evidenceMarked pc code eng).rf R.PCORE_VRAISE_STEPS pc) := by
  unfold State.evidence
  dsimp only
  rw [if_pos hcode]
  rfl

theorem State.rf_evidenceMarked (s : State) (pc code eng : Nat) {g : Field} (hg : g.plain ∧ g.code ∉ evidencePlaces) (j l : Nat) :
    (s.evidenceMarked pc code eng).rf g j l = s.rf g j l := by
  obtain ⟨hplain, hne⟩ := hg
  simp only [evidencePlaces, List.mem_cons, List.not_mem_nil, or_false, not_or] at hne
  obtain ⟨hcount, hstamp, hkind, hengine, -, -⟩ := hne
  unfold State.evidenceMarked
  dsimp only
  generalize hu : State.logEv _ 0x0501 (pcorePage pc).index 0 [pc, code, eng, 0] = u
  have hkeep : u.rf g j l = s.rf g j l := by
    rw [← hu, State.rf_logEv_plain _ _ _ _ _ hplain, State.rf_setInts_plain _ _ _ hplain, State.rf_wf_of_code _ hengine, State.rf_wf_of_code _ hkind,
      State.rf_wf_of_code _ hstamp, State.rf_incSat_of_code _ hcount]
  exact (State.rf_congr (s := u) rfl _ _ _).trans hkeep

theorem State.rf_evidence_fenced (s : State) (pc : Nat) {code : Nat} (eng : Nat) (hcode : 0x10 ≤ code) {g : Field} (hg : g.plain ∧ g.code ∉ evidencePlaces)
    (hclocks : (touch [9] [.clk, .sen]).testBit g.area = false) (j l : Nat) : (s.evidence pc code eng).rf g j l = s.rf g j l := by
  rw [State.evidence_fences _ _ _ hcode]
  split
  · exact State.rf_evidenceMarked _ _ _ _ hg _ _
  · rw [State.rf_setRung_fenced _ _ _ hg hclocks, State.rf_evidenceMarked _ _ _ _ hg]

/-- R489: what a test records is kept, whether it passes or not. -/
theorem State.testRecord_of (s : State) (pc eng : Nat) (sram logic ni ok : Bool) (sig : Nat) :
    (s.testRecord pc eng sram logic ni ok sig).rf R.PCORE1_TEST_KIND pc = 1 ∧
    (s.testRecord pc eng sram logic ni ok sig).rf R.PCORE1_ENGINE_FAIL pc = eng % 2 ^ 16 ∧
    (s.testRecord pc eng sram logic ni ok sig).rf R.PCORE1_SRAM_FAIL pc = bit sram ∧
    (s.testRecord pc eng sram logic ni ok sig).rf R.PCORE1_LOGIC_FAIL pc = bit logic ∧
    (s.testRecord pc eng sram logic ni ok sig).rf R.PCORE1_NI_FAIL pc = bit ni ∧
    (s.testRecord pc eng sram logic ni ok sig).rf R.PCORE1_PASSED pc = bit ok ∧
    (s.testRecord pc eng sram logic ni ok sig).rf R.PCORE1_SIGNATURE pc = sig % 2 ^ 64 ∧
    (s.testRecord pc eng sram logic ni ok sig).rf R.PCORE1_TEST_STAMP pc = s.now % 2 ^ 64 := by
  have hbit (x : Bool) : bit x % 2 ^ 1 = bit x := by cases x <;> rfl
  unfold State.testRecord
  simp (disch := decide) only [State.rf_wf_of_code, State.rf_wf_same]
  exact ⟨rfl, rfl, hbit _, hbit _, hbit _, hbit _, rfl, rfl⟩

/-- SELF_TEST_DONE (R489). -/
theorem State.selfTest_of {s : State} {pc : Nat} (engines : Nat) (sram logic ni : Bool) (sig : Nat) (hfenced : s.rb R.PCORE_FENCED pc = false)
    (hstate : s.modState = msCores) (hcold : s.rb R.MOD1_BOOT_KIND 0 = false) (hrsts : s.rsts = []) :
    ∃ t eng ok, t = s.selfTest pc engines sram logic ni sig ∧ eng = (if kindOfPhysical (pc % 64) = 0 then engines % 65536 else 0) ∧
      ok = (decide (eng = 0) && !sram && !logic && !ni) ∧ t.md.tested.contains pc = true ∧
      ∀ g : Field, g.plain ∧ g.code ∉ evidencePlaces → (touch [9] [.clk, .sen]).testBit g.area = false →
        t.rf g pc = (s.testRecord pc eng sram logic ni ok sig).rf g pc := by
  obtain ⟨u, eng, ok, heng, hok, hu, ht⟩ := State.selfTest_cold engines sram logic ni sig hfenced hstate hcold hrsts
  have htested : u.md.tested.contains pc = true := hu ▸ State.contains_tested _ _
  have hrec (g : Field) : u.rf g pc = (s.testRecord pc eng sram logic ni ok sig).rf g pc := hu ▸ rfl
  refine ⟨_, eng, ok, rfl, heng, hok, ?_, fun g hg hclocks => ?_⟩
  · rw [ht]
    split
    · exact htested
    · rw [(State.evidence_frame (Sub.refl _) (u.frame_refl _) : u.Within _ (u.evidence _ _ _)).md (by decide)]
      exact htested
  · rw [ht, ← hrec]
    split
    · rfl
    · exact State.rf_evidence_fenced _ _ _ (by decide) hg hclocks _ _

/-! ### Bounds, R485 -/

theorem phaseBound_lt {st p b : Nat} (h : phaseBound st false = some (p, b)) : p < 5 ∧ st ≠ msResetting := by
  unfold phaseBound at h
  dsimp only at h
  split at h
  · cases h
    exact ⟨by decide, by simp_all [msRom, msResetting]⟩
  · split at h
    · cases h
      exact ⟨by decide, by simp_all [msPlatform, msResetting]⟩
    · split at h
      · cases h
        exact ⟨by decide, by simp_all [msMemory, msResetting]⟩
      · split at h
        · cases h
          exact ⟨by decide, by simp_all [msLinks, msResetting]⟩
        · split at h
          · cases h
            exact ⟨by decide, by simp_all [msCores, msResetting]⟩
          · simp at h

/-- R485: a failure of bring-up. -/
theorem State.failWith_of (s : State) {cause detail : Nat} (hc : cause < 256) (hd : detail < 65536) : (s.failWith cause detail).modState = msFailed ∧
    (s.failWith cause detail).rf R.MOD1_FAIL_CAUSE 0 = cause ∧ (s.failWith cause detail).rf R.MOD1_FAIL_DETAIL 0 = detail := by
  unfold State.failWith
  refine ⟨State.modState_setModState _ (by decide), ?_, ?_⟩
  · rw [State.rf_setModState _ _ (by decide) (by decide), State.rf_wf_of_code _ (by decide), State.rf_wf_same]
    exact Nat.mod_eq_of_lt hc
  · rw [State.rf_setModState _ _ (by decide) (by decide), State.rf_wf_same]
    exact Nat.mod_eq_of_lt hd

/-- PHASE_TIMEOUT (R485). -/
theorem State.phaseTimeout_cold {s : State} {p b : Nat} (hbound : phaseBound s.modState false = some (p, b)) (hcold : s.rb R.MOD1_BOOT_KIND 0 = false)
    (hstarted : s.md.started = true) (hlate : s.md.phaseAt + b < s.elapsed) : s.phaseTimeout = s.failWith 5 p := by
  unfold State.phaseTimeout
  rw [hcold]
  dsimp only
  rw [hbound]
  dsimp only
  rw [if_neg (phaseBound_lt hbound).2, if_neg (by simp [hstarted, hlate]), if_neg Bool.false_ne_true]

/-- Settles O54: each phase of bring-up ends in the next one, stamped; a phase past its bound fails. -/
theorem bringUpPhasesComplete : Obligations.BringUpPhasesComplete := by
  unfold Obligations.BringUpPhasesComplete
  refine ⟨?_, ?_, ?_, ?_, ?_, ?_, ?_, ?_⟩
  · exact fun floating s hp hs => completes_of_next rfl (State.boardStart_of floating hp hs)
  · intro b s hstate hstarted h0 h1 hrecord hflash hsize hA hB hverifies
    obtain ⟨huse, hok0, hok1⟩ := s.romCopies_of h0
    obtain ⟨hplatform, hslot, htrial, hstamp⟩ := ((s.romCopies b).romPlatform b).romBooted_of
    have hkeep (g : Field) (hg : g.plain ∧ g.code ∉ identityPlaces) (hfl : g.code ∉ flashPlaces) (hrungs : (touch [9] [.clk]).testBit g.area = false)
        (hboot : g.code ∉ bootPlaces) (hphase : g.code ≠ R.MOD1_STATE.code ∧ g.code ≠ R.MOD1_PHASE_STAMP.code) :
        ((s.romCopies b).romPlatform b).romBooted.rf g 0 = (s.romCopies b).rf g 0 := by
      rw [State.rf_romBooted _ ⟨hg.1, hboot⟩ hphase, State.rf_romPlatform _ _ hg hfl hrungs]
    have hready := (State.rf_romBooted ((s.romCopies b).romPlatform b) (g := R.KEYS_IDENTITY_READY) (by decide) (by decide) 0 0).trans
      (State.identityReady_romPlatform _ _)
    rw [State.now_romPlatform, State.now_romCopies] at hstamp
    refine completes_of_next rfl ?_
    rw [State.romEnd_good hstate hstarted h0 h1 hrecord hflash hsize hA hB hverifies]
    exact ⟨hplatform, (hkeep _ (by decide) (by decide) (by decide) (by decide) (by decide)).trans huse,
      (hkeep _ (by decide) (by decide) (by decide) (by decide) (by decide)).trans hok0,
      (hkeep _ (by decide) (by decide) (by decide) (by decide) (by decide)).trans hok1, hready, hslot, htrial, hstamp⟩
  · intro bad s hstate h
    refine completes_of_next rfl ?_
    rw [State.platformEnd_of hstate h]
    exact s.phaseStart_of 2 (by decide)
  · exact fun s hstate h => completes_of_next rfl (State.memoryEnd_of hstate h)
  · exact fun s hstate => completes_of_next rfl (State.linksEnd_of hstate)
  · exact fun bad s hstate hfences hlate hdie => completes_of_next rfl (State.coresEnd_of bad hstate hfences hlate hdie)
  · intro pc engines sram logic ni sig s hpc hfenced hstate hcold hrsts
    obtain ⟨t, eng, ok, ht, heng, hok, htested, hrf⟩ := State.selfTest_of engines sram logic ni sig hfenced hstate hcold hrsts
    have heng16 : eng % 2 ^ 16 = eng := by
      rw [heng]
      split <;> simp
    obtain ⟨hkind, hengine, hsram, hlogic, hni, hpassed, hsig, hstamp⟩ := s.testRecord_of pc eng sram logic ni ok sig
    rw [heng16] at hengine
    refine completes_of_next (t := t) ?_ ?_
    · rw [ht]
      show Host.Outcome.next (s.selfTest (pc % 2048) engines sram logic ni sig) = _
      rw [Nat.mod_eq_of_lt hpc]
    · rw [← heng, ← hok]
      exact ⟨(hrf _ (by decide) (by decide)).trans hkind, (hrf _ (by decide) (by decide)).trans hengine, (hrf _ (by decide) (by decide)).trans hsram,
        (hrf _ (by decide) (by decide)).trans hlogic, (hrf _ (by decide) (by decide)).trans hni, (hrf _ (by decide) (by decide)).trans hpassed,
        (hrf _ (by decide) (by decide)).trans hsig, (hrf _ (by decide) (by decide)).trans hstamp, htested⟩
  · intro p b s hbound hcold hstarted hlate
    refine completes_of_next rfl ?_
    rw [State.phaseTimeout_cold hbound hcold hstarted hlate]
    exact s.failWith_of (by decide) (lt_trans (phaseBound_lt hbound).1 (by decide))

end Sys2Proof.Machine
end

section
/-! Firmware updates (R523 to R525; O57). -/

namespace Sys2Proof.Machine

/-! ### What a cold reset leaves of the commands and of Oasis -/

theorem State.cmds_coldReset (s : State) (power : Bool) : (s.coldReset power).cmds = [] := by
  have hc (t : State) : t.countAbsent.cmds = t.cmds :=
    (State.countAbsent_frame (Sub.refl _) (t.frame_refl _) : t.Within _ t.countAbsent).cmds (by decide)
  unfold State.coldReset
  generalize (s.each (s.prog.filter fun p => p.2.running.isSome) fun t p => t.progInterrupt p.1) = u
  dsimp only
  rw [hc, (State.within_coldMaps _).cmds (by decide), (State.within_coldBanks _ _).cmds (by decide), (State.within_coldSweeps _ _).cmds (by decide),
    (State.within_coldVariants _ _).cmds (by decide)]
  cases power
  · rfl
  · simp only [if_true]
    generalize hk : State.each _ _ _ = k
    have hnone : k.cmds = [] := by
      rw [← hk]
      exact State.each_eq State.cmds (fun _ _ t => State.wf_cmds t _ _ _ _) _
    exact hnone

theorem State.oa_coldReset (s : State) (power : Bool) : (s.coldReset power).oa =
    { raise := s.oa.raise, tries := s.oa.tries, activated := s.oa.activated, sections := s.oa.sections } := by
  have hc (t : State) : t.countAbsent.oa = t.oa :=
    (State.countAbsent_frame (Sub.refl _) (t.frame_refl _) : t.Within _ t.countAbsent).oa (by decide)
  have hprog : (s.each (s.prog.filter fun p => p.2.running.isSome) fun t p => t.progInterrupt p.1).oa = s.oa :=
    (State.each_frame (s.frame_refl _) (fun _ _ ht => State.progInterrupt_frame (by decide) ht) :
      s.Within (touch [0x12, 0x13] [.irqLatch, .irqs, .eng, .rowCharge, .prog, .jour]) _).oa (by decide)
  unfold State.coldReset
  revert hprog
  generalize (s.each (s.prog.filter fun p => p.2.running.isSome) fun t p => t.progInterrupt p.1) = u
  intro hprog
  dsimp only
  rw [hc, (State.within_coldMaps _).oa (by decide), (State.within_coldBanks _ _).oa (by decide), (State.within_coldSweeps _ _).oa (by decide),
    (State.within_coldVariants _ _).oa (by decide), hprog]

/-- What a cold start does after the cold reset. -/
theorem State.coldStart_within (s : State) : (s.coldReset true).Within (touch [0, 1, 0x48] [.irqLatch, .irqs, .staging, .lostStamps, .md, .out])
    s.coldStart :=
  State.phaseStart_frame (by decide) (State.wf_frame (by decide) (State.readStraps_frame (by decide)
    (State.setPwrgd_frame (by decide) (State.frame_refl _ _))))

/-- A cold reset that the module or a host orders (R473): ROM, no open command, and Oasis as a cold reset leaves it. -/
theorem State.coldStart_of (s : State) : s.coldStart.modState = msRom ∧ s.coldStart.oa.activated = s.oa.activated ∧ s.coldStart.cmds = [] := by
  refine ⟨State.modState_phaseStart _ _ (by decide), ?_, ?_⟩
  · rw [s.coldStart_within.oa (by decide), s.oa_coldReset]
  · rw [s.coldStart_within.cmds (by decide), s.cmds_coldReset]

/-! ### The slots -/

theorem slotStateF_area (t : Nat) : (slotStateF t).area = 1 := by
  unfold slotStateF
  split <;> decide

theorem slotVersionF_area (t : Nat) : (slotVersionF t).area = 1 := by
  unfold slotVersionF
  split <;> decide

theorem State.Within.slotState {s t : State} {m : Nat} (h : s.Within m t) (hm : m.testBit 1 = false) (n : Nat) :
    t.rf (slotStateF n) 0 = s.rf (slotStateF n) 0 := h.rf (by rw [slotStateF_area]; exact hm)

theorem State.Within.slotVersion {s t : State} {m : Nat} (h : s.Within m t) (hm : m.testBit 1 = false) (n : Nat) :
    t.rf (slotVersionF n) 0 = s.rf (slotVersionF n) 0 := h.rf (by rw [slotVersionF_area]; exact hm)

theorem State.Within.fwSlot {s t : State} {m : Nat} (h : s.Within m t) (hm : m.testBit 1 = false) : t.fwSlot = s.fwSlot := by
  unfold State.fwSlot
  simp only [h.slotState hm]

theorem State.Within.trialSlot {s t : State} {m : Nat} (h : s.Within m t) (hm : m.testBit 1 = false) : t.trialSlot = s.trialSlot := by
  unfold State.trialSlot
  simp only [h.slotState hm]

/-- R424: a slot that is TRIAL is A or B. -/
theorem State.trialSlot_lt {s : State} {u : Nat} (h : s.trialSlot = some u) : u < 2 := by
  have := List.mem_of_find?_eq_some h
  simp only [List.mem_cons, List.not_mem_nil, or_false] at this
  omega

theorem State.Within.thermalHold {s t : State} {m : Nat} (h : s.Within m t) (hm : m.testBit R.THERMAL_FAULT.area = false) (hs : m.testBit 132 = false) :
    t.thermalHold = s.thermalHold := by
  have hvalue (n : Nat) : t.value n = s.value n := by
    unfold State.value
    rw [h.rf (f := R.THERMAL_VALUE) hm]
  have hsensor (n : Nat) : t.sensor n = s.sensor n := by
    unfold State.sensor
    rw [h.sen hs]
  have hfault (n : Nat) : t.rf R.THERMAL_FAULT 0 n = s.rf R.THERMAL_FAULT 0 n := h.rf hm
  unfold State.thermalHold
  simp only [hvalue, hsensor, hfault]

/-! ### Outcomes -/

/-- R529: the fields of an update's outcome. -/
def outcomePlaces : List Nat := [R.OASIS3_LAST_USTATUS.code, R.OASIS3_LAST_OP.code, R.OASIS3_LAST_UPDATE_STAMP.code]

theorem State.rf_fwOutcome_set (s : State) (op status version : Nat) {g : Field} (hg : g.plain) (j l : Nat) :
    (s.fwOutcome op status version).rf g j l =
      (((s.wf R.OASIS3_LAST_USTATUS 0 status).wf R.OASIS3_LAST_OP 0 op).wf R.OASIS3_LAST_UPDATE_STAMP 0 s.now).rf g j l := by
  unfold State.fwOutcome
  dsimp only
  rw [State.rf_logEvSev_plain _ _ _ _ _ _ hg]
  split
  · exact State.rf_setInt_plain _ _ _ hg _ _
  · split
    · exact State.rf_setInt_plain _ _ _ hg _ _
    · rfl

theorem State.rf_fwOutcome (s : State) (op status version : Nat) {g : Field} (hg : g.plain ∧ g.code ∉ outcomePlaces) (j l : Nat) :
    (s.fwOutcome op status version).rf g j l = s.rf g j l := by
  have hne := hg.2
  simp only [outcomePlaces, List.mem_cons, List.not_mem_nil, or_false, not_or] at hne
  obtain ⟨hstatus, hop, hstamp⟩ := hne
  rw [State.rf_fwOutcome_set _ _ _ _ hg.1, State.rf_wf_of_code _ hstamp, State.rf_wf_of_code _ hop, State.rf_wf_of_code _ hstatus]

/-- R529: an update's outcome on the page. -/
theorem State.fwOutcome_of (s : State) {op status : Nat} (version : Nat) (hop : op < 4) (hs : status < 256) :
    (s.fwOutcome op status version).rf R.OASIS3_LAST_USTATUS 0 = status ∧ (s.fwOutcome op status version).rf R.OASIS3_LAST_OP 0 = op ∧
    (s.fwOutcome op status version).rf R.OASIS3_LAST_UPDATE_STAMP 0 = s.now % 2 ^ 64 := by
  refine ⟨?_, ?_, ?_⟩
  · rw [State.rf_fwOutcome_set _ _ _ _ (by decide), State.rf_wf_of_code _ (by decide), State.rf_wf_of_code _ (by decide), State.rf_wf_same]
    exact Nat.mod_eq_of_lt hs
  · rw [State.rf_fwOutcome_set _ _ _ _ (by decide), State.rf_wf_of_code _ (by decide), State.rf_wf_same]
    exact Nat.mod_eq_of_lt hop
  · rw [State.rf_fwOutcome_set _ _ _ _ (by decide), State.rf_wf_same]
    rfl

/-- A field outside the queue pairs' and the host ports' pages is left by an answer. -/
theorem State.rf_finish (s : State) (q n : Nat) (body : List Nat) {g : Field} (hg : (touch [0x28, 0x29] [.cmds, .cmdRecs, .qps, .out]).testBit g.area = false)
    (j l : Nat) : (s.finish q n body).rf g j l = s.rf g j l :=
  (State.finish_frame (by decide) (s.frame_refl _) : s.Within (touch [0x28, 0x29] [.cmds, .cmdRecs, .qps, .out]) (s.finish q n body)).rf hg

theorem State.rf_reply (s : State) (c : Cmd) (body : List Nat) {g : Field} (hg : (touch [0x28, 0x29] [.cmds, .cmdRecs, .qps, .out]).testBit g.area = false)
    (j l : Nat) : (s.reply c body).rf g j l = s.rf g j l := s.rf_finish _ _ _ hg _ _

/-! ### The operations -/

/-- The state in which an FW_UPDATE that is well formed, with no update open, begins. -/
theorem State.fwUpdate_takes {s : State} {i : Instr} {c : Cmd} {op : Nat} (h : s.Takes c) (hwords : c.bodyWords = 9) (hop : c.f 0 0 2 = op) (hbad : fwBad c op = false)
    (hopen : s.rb R.OASIS3_UPDATE_OPEN 0 = false) : s.fwUpdate i c =
      if op = 0 then (s.started 0x48 c .l).fwStage c else if op = 1 then (s.started 0x48 c .l).fwActivate c
      else if op = 2 then (s.started 0x48 c .l).fwCommit c else (s.started 0x48 c .l).fwDiscard c := by
  have hstill : (s.started 0x48 c .l).rb R.OASIS3_UPDATE_OPEN 0 = false := ((s.started_within _ _ _).rb (by decide)).trans hopen
  unfold State.fwUpdate
  rw [State.vorane_takes h (by decide) (by simp [hwords])]
  dsimp only
  rw [hop, hbad, hstill, if_neg Bool.false_ne_true, if_neg Bool.false_ne_true]

/-- FW_UPDATE STAGE (R524). -/
theorem State.fwStage_of {s : State} {slot : Nat} (c : Cmd) (h : s.fwSlot = some slot) :
    (s.fwStage c).rf R.OASIS3_UPDATE_OPEN 0 = 1 ∧ (s.fwStage c).rf R.OASIS3_BYTES_DONE 0 = 0 ∧ (s.fwStage c).oa.stage = some (c.qp, c.cmdId, slot) ∧
    (s.fwStage c).oa.stageHost = !c.b 0 2 ∧ (s.fwStage c).oa.stageNext = (if c.b 0 3 then some (c.f 0 5 15) else none) := by
  unfold State.fwStage
  rw [h]
  dsimp only
  generalize hu : State.takeEffect _ c.qp c.cmdId (fwWords usStarted 0 0) = u
  have hopen : u.rf R.OASIS3_UPDATE_OPEN 0 = 1 := by
    rw [← hu]
    exact ((State.rf_wf_of_code _ (by decide) _ _ _ _ _)).trans (State.rf_wf_same _ _ _ _ _)
  have hbytes : u.rf R.OASIS3_BYTES_DONE 0 = 0 := by
    rw [← hu]
    exact State.rf_wf_same _ _ _ _ _
  have hread (a b d : Nat) : u.Within (touch [0x28, 0x29] [.qps, .out]) (if (!c.b 0 2) = true then u.issueRead c.qp a b d else u) :=
    ite_frame (State.issueRead_frame (by decide) (u.frame_refl _)) (u.frame_refl _)
  rw [(hread _ _ _).rf (by decide), (hread _ _ _).rf (by decide), (hread _ _ _).oa (by decide)]
  refine ⟨hopen, hbytes, ?_⟩
  rw [← hu]
  exact ⟨rfl, rfl, rfl⟩

/-- FW_UPDATE ACTIVATE (R524). -/
theorem State.fwActivate_of {s : State} {u : Nat} (c : Cmd) (h : s.trialSlot = some u) (hreqs : s.reqs = []) (hhold : s.thermalHold = false) :
    (s.fwActivate c).modState = msRom ∧ (s.fwActivate c).oa.activated = true ∧ (s.fwActivate c).cmds = [] := by
  unfold State.fwActivate
  rw [h]
  dsimp only
  rw [hreqs, hhold, if_neg (by simp), if_neg Bool.false_ne_true]
  exact State.coldStart_of _

theorem slot_codes (t : Nat) : (slotStateF t).code ∉ [R.OASIS3_RUNNING_TRIAL.code, R.KEYS_TRIAL_BOOT.code, R.KEYS_SECURITY_FLOOR.code] ∧
    (slotStateF t).code ∉ outcomePlaces ∧ (slotStateF t).plain := by
  unfold slotStateF
  split <;> decide

theorem slotStateF_other {t : Nat} (h : t < 2) : (slotStateF t).code ≠ (slotStateF (1 - t)).code := by
  obtain rfl | rfl : t = 0 ∨ t = 1 := by omega
  · decide
  · decide

theorem State.rf_slotState_same (s : State) (t v : Nat) (hv : v < 16) : (s.wf (slotStateF t) 0 v).rf (slotStateF t) 0 = v := by
  have hlen : (slotStateF t).len = 4 := by
    unfold slotStateF
    split <;> rfl
  rw [State.rf_wf_same, hlen]
  exact Nat.mod_eq_of_lt hv

/-- R524: the running trial slot is committed. -/
theorem State.commitTrial_of {s : State} (h : s.rb R.OASIS3_RUNNING_TRIAL 0 = true) : s.commitTrial.rf R.OASIS3_RUNNING_TRIAL 0 = 0 ∧
    s.commitTrial.rf (slotStateF (s.rf R.OASIS3_RUNNING_SLOT 0)) 0 = 2 := by
  have hlt : s.rf R.OASIS3_RUNNING_SLOT 0 < 2 := State.rf_lt _ _ _ _
  unfold State.commitTrial
  rw [h]
  dsimp only
  rw [if_neg (by decide)]
  generalize s.rf R.OASIS3_RUNNING_SLOT 0 = t at hlt
  obtain ⟨hcodes, -, hplain⟩ := slot_codes t
  simp only [List.mem_cons, List.not_mem_nil, or_false, not_or] at hcodes
  obtain ⟨htrial, hboot, hfloor⟩ := hcodes
  have hwhen (u : State) (b : Bool) (f g : Field) (v : State → Nat) (hne : g.code ≠ f.code) :
      (u.when b fun u => u.wf f 0 (v u)).rf g 0 = u.rf g 0 := by
    unfold State.when
    split
    · exact State.rf_wf_of_code _ hne _ _ _ _ _
    · rfl
  refine ⟨?_, ?_⟩
  · rw [State.rf_logEv_plain _ _ _ _ _ (by decide), hwhen _ _ _ _ _ (by decide),
      hwhen _ _ _ _ (fun _ => 3) ((slot_codes (1 - t)).1 ∘ fun h => by rw [← h]; simp), State.rf_wf_of_code _ (by decide), State.rf_wf_same]
    rfl
  · rw [State.rf_logEv_plain _ _ _ _ _ hplain, hwhen _ _ _ _ _ hfloor, hwhen _ _ _ _ (fun _ => 3) (slotStateF_other hlt), State.rf_wf_of_code _ hboot,
      State.rf_wf_of_code _ htrial, State.rf_slotState_same _ _ _ (by decide)]

/-- FW_UPDATE COMMIT before its answer (R524). -/
def State.fwCommitted (s : State) : State :=
  (((s.commitTrial.wf R.OASIS3_LAST_USTATUS 0 usDone).wf R.OASIS3_LAST_OP 0 2).wf R.OASIS3_LAST_UPDATE_STAMP 0 s.now).setInt oasis3Page
    R.INT_OASIS3_UPDATE_DONE

theorem State.fwCommitted_within (s : State) : s.Within (touch [1, 4] [.irqLatch, .irqs, .staging, .lostStamps]) s.fwCommitted :=
  State.setInt_frame (by decide) (by decide) (State.wf_frame (by decide) (State.wf_frame (by decide) (State.wf_frame (by decide)
    (State.commitTrial_frame (by decide) (s.frame_refl _)))))

theorem State.fwCommit_eq {s : State} (c : Cmd) (h : s.rb R.OASIS3_RUNNING_TRIAL 0 = true) :
    s.fwCommit c = s.fwCommitted.reply c (fwWords usDone (s.rf (slotVersionF (s.rf R.OASIS3_RUNNING_SLOT 0)) 0) 0) := by
  unfold State.fwCommit
  rw [if_neg (by rw [h]; decide)]
  rfl

theorem State.fwCommitted_of {s : State} (h : s.rb R.OASIS3_RUNNING_TRIAL 0 = true) : s.fwCommitted.rf R.OASIS3_RUNNING_TRIAL 0 = 0 ∧
    s.fwCommitted.rf R.OASIS3_LAST_USTATUS 0 = 0 ∧ s.fwCommitted.rf R.OASIS3_LAST_OP 0 = 2 ∧
    s.fwCommitted.rf R.OASIS3_LAST_UPDATE_STAMP 0 = s.now % 2 ^ 64 ∧ s.fwCommitted.rf (slotStateF (s.rf R.OASIS3_RUNNING_SLOT 0)) 0 = 2 := by
  obtain ⟨htrial, hstate⟩ := State.commitTrial_of h
  have hkeep (g : Field) (hg : g.plain ∧ g.code ∉ outcomePlaces) : s.fwCommitted.rf g 0 = s.commitTrial.rf g 0 := by
    have hne := hg.2
    simp only [outcomePlaces, List.mem_cons, List.not_mem_nil, or_false, not_or] at hne
    obtain ⟨hstatus, hop, hstamp⟩ := hne
    rw [State.fwCommitted, State.rf_setInt_plain _ _ _ hg.1, State.rf_wf_of_code _ hstamp, State.rf_wf_of_code _ hop, State.rf_wf_of_code _ hstatus]
  obtain ⟨-, hout, hplain⟩ := slot_codes (s.rf R.OASIS3_RUNNING_SLOT 0)
  refine ⟨(hkeep _ (by decide)).trans htrial, ?_, ?_, ?_, (hkeep _ ⟨hplain, hout⟩).trans hstate⟩
  · rw [State.fwCommitted, State.rf_setInt_plain _ _ _ (by decide), State.rf_wf_of_code _ (by decide), State.rf_wf_of_code _ (by decide), State.rf_wf_same]
    rfl
  · rw [State.fwCommitted, State.rf_setInt_plain _ _ _ (by decide), State.rf_wf_of_code _ (by decide), State.rf_wf_same]
    rfl
  · rw [State.fwCommitted, State.rf_setInt_plain _ _ _ (by decide), State.rf_wf_same]
    rfl

theorem State.fwDiscard_eq {s : State} {u : Nat} (c : Cmd) (h : s.trialSlot = some u) (hrunning : s.rb R.OASIS3_RUNNING_TRIAL 0 = false) :
    s.fwDiscard c = ((s.wf (slotStateF u) 0 0).fwOutcome 3 usDone (s.rf (slotVersionF u) 0)).reply c (fwWords usDone (s.rf (slotVersionF u) 0) 0) := by
  unfold State.fwDiscard
  rw [h]
  dsimp only
  rw [hrunning, if_neg (by simp)]
  rfl

/-- R524: a verified image is in its slot. -/
def State.fwInSlot (s : State) (slot version security : Nat) (raise : Bool) (bytes : Nat) (sections : List Nat) : State :=
  let s2 := ({ s with oa := { s.oa with stage := none, stageNext := none, fwChunks := [], fwFrom := none } }).wf R.OASIS3_UPDATE_OPEN 0 0
  let t := ((s2.wf (slotStateF slot) 0 1).wf (slotVersionF slot) 0 version).wf (slotSecurityF slot) 0 security
  let digests := (sections.zipIdx).foldl (fun l x => Tbl.put l (slot * 8 + x.2 + 1) x.1) t.oa.sections
  ({ t with oa := { t.oa with raise := Tbl.put t.oa.raise slot (bit raise), tries := Tbl.put t.oa.tries slot 0, sections := digests } }).wf
    R.OASIS3_BYTES_DONE 0 bytes

theorem State.fwStageDone_good {s : State} {qp id slot : Nat} (version security bytes : Nat) (sections : List Nat) (raise : Bool)
    (hstage : s.oa.stage = some (qp, id, slot)) (hhost : s.oa.stageHost = false) (hnext : s.oa.stageNext = none) (hfrom : s.oa.fwFrom = none) :
    ∃ n, s.fwStageDone 0 version security raise bytes sections =
      ((s.fwInSlot slot version security raise bytes sections).fwOutcome 0 usDone version).finish qp id (fwWords usDone version n) := by
  refine ⟨(s.fwInSlot slot version security raise bytes sections).rf R.OASIS3_BYTES_DONE 0, ?_⟩
  unfold State.fwStageDone
  rw [hstage]
  dsimp only
  have hread : (if s.oa.stageHost = true then s.readDone qp else s) = s := if_neg (by rw [hhost]; decide)
  have hverified : decide (0 = 0 ∨ 0 = 6) = true := rfl
  rw [if_neg (by simp), if_neg (by simp), hread, hverified, if_pos rfl, if_pos rfl, if_pos rfl, hnext, hfrom]
  rfl

theorem State.rf_fwInSlot (s : State) (slot version security : Nat) (raise : Bool) (bytes : Nat) (sections : List Nat) (g : Field)
    (hg : g.code ≠ R.OASIS3_BYTES_DONE.code) : (s.fwInSlot slot version security raise bytes sections).rf g 0 =
      ((((s.wf R.OASIS3_UPDATE_OPEN 0 0).wf (slotStateF slot) 0 1).wf (slotVersionF slot) 0 version).wf (slotSecurityF slot) 0 security).rf g 0 := by
  unfold State.fwInSlot
  dsimp only
  rw [State.rf_wf_of_code _ hg]
  rfl

theorem slot_cases (t : Nat) :
    (slotStateF t = R.OASIS3_SLOT_A_STATE ∧ slotVersionF t = R.OASIS3_SLOT_A_VERSION ∧ slotSecurityF t = R.OASIS3_SLOT_A_SECURITY) ∨
    (slotStateF t = R.OASIS3_SLOT_B_STATE ∧ slotVersionF t = R.OASIS3_SLOT_B_VERSION ∧ slotSecurityF t = R.OASIS3_SLOT_B_SECURITY) := by
  unfold slotStateF slotVersionF slotSecurityF
  split
  · exact .inl ⟨rfl, rfl, rfl⟩
  · exact .inr ⟨rfl, rfl, rfl⟩

/-- R524: what a verified image leaves in its slot's registers. -/
theorem State.fwInSlot_of (s : State) (slot version security : Nat) (raise : Bool) (bytes : Nat) (sections : List Nat) :
    (s.fwInSlot slot version security raise bytes sections).rf R.OASIS3_UPDATE_OPEN 0 = 0 ∧
    (s.fwInSlot slot version security raise bytes sections).rf (slotStateF slot) 0 = 1 ∧
    (s.fwInSlot slot version security raise bytes sections).rf (slotVersionF slot) 0 = version % 2 ^ 32 ∧
    (s.fwInSlot slot version security raise bytes sections).rf (slotSecurityF slot) 0 = security % 2 ^ 32 ∧
    (s.fwInSlot slot version security raise bytes sections).rf R.OASIS3_BYTES_DONE 0 = bytes % 2 ^ 32 := by
  have hbytes : (s.fwInSlot slot version security raise bytes sections).rf R.OASIS3_BYTES_DONE 0 = bytes % 2 ^ 32 := State.rf_wf_same _ _ _ _ _
  obtain ⟨hs, hv, hsec⟩ | ⟨hs, hv, hsec⟩ := slot_cases slot
  · rw [hs, hv, hsec, hbytes]
    simp (disch := decide) only [State.rf_fwInSlot, hs, hv, hsec, State.rf_wf_of_code, State.rf_wf_same]
    exact ⟨rfl, rfl, rfl, rfl, trivial⟩
  · rw [hs, hv, hsec, hbytes]
    simp (disch := decide) only [State.rf_fwInSlot, hs, hv, hsec, State.rf_wf_of_code, State.rf_wf_same]
    exact ⟨rfl, rfl, rfl, rfl, trivial⟩

/-- Settles O57: an update is staged, stored, activated, committed and discarded. -/
theorem firmwareUpdatesComplete : Obligations.FirmwareUpdatesComplete := by
  unfold Obligations.FirmwareUpdatesComplete
  refine ⟨?_, ?_, ?_, ?_, ?_⟩
  · intro c slot s h hwords hop hbad hopen hslot
    refine completes_of_next rfl ?_
    rw [State.fwUpdate_takes h hwords hop hbad hopen, if_pos rfl]
    exact State.fwStage_of c (((s.started_within _ _ _).fwSlot (by decide)).trans hslot)
  · intro version security bytes qp id slot sections raise s hstage hhost hnext hfrom
    obtain ⟨n, heq⟩ := State.fwStageDone_good version security bytes sections raise hstage hhost hnext hfrom
    obtain ⟨hopen, hstate, hversion, hsecurity, hbytes⟩ := s.fwInSlot_of slot version security raise bytes sections
    obtain ⟨hstatus, -, -⟩ := (s.fwInSlot slot version security raise bytes sections).fwOutcome_of (op := 0) (status := usDone) version (by decide) (by decide)
    have hkeep (g : Field) (hg : g.plain ∧ g.code ∉ outcomePlaces) (hreply : (touch [0x28, 0x29] [.cmds, .cmdRecs, .qps, .out]).testBit g.area = false) :
        (s.fwStageDone 0 version security raise bytes sections).rf g 0 = (s.fwInSlot slot version security raise bytes sections).rf g 0 := by
      rw [heq, State.rf_finish _ _ _ _ hreply, State.rf_fwOutcome _ _ _ _ hg]
    refine completes_of_next rfl ⟨(hkeep _ (by decide) (by decide)).trans hopen, ?_, ?_, ?_, (hkeep _ (by decide) (by decide)).trans hbytes, ?_, ?_⟩
    · obtain ⟨-, hout, hplain⟩ := slot_codes slot
      exact (hkeep _ ⟨hplain, hout⟩ (by rw [slotStateF_area]; decide)).trans hstate
    · obtain ⟨-, hv, -⟩ | ⟨-, hv, -⟩ := slot_cases slot
      · rw [hv] at hversion ⊢
        exact (hkeep _ (by decide) (by decide)).trans hversion
      · rw [hv] at hversion ⊢
        exact (hkeep _ (by decide) (by decide)).trans hversion
    · obtain ⟨-, -, hsec⟩ | ⟨-, -, hsec⟩ := slot_cases slot
      · rw [hsec] at hsecurity ⊢
        exact (hkeep _ (by decide) (by decide)).trans hsecurity
      · rw [hsec] at hsecurity ⊢
        exact (hkeep _ (by decide) (by decide)).trans hsecurity
    · rw [heq, State.rf_finish _ _ _ _ (by decide), hstatus]
      rfl
    · rw [heq, (State.finish_frame (Sub.refl _) (State.frame_refl _ _) : State.Within _ _ (State.finish _ _ _ _)).oa (by decide),
        (State.fwOutcome_frame (Sub.refl _) (State.frame_refl _ _) : State.Within _ _ (State.fwOutcome _ _ _ _)).oa (by decide)]
      rfl
  · intro c u s h hwords hop hbad hopen htrial hreqs hhold
    have hstarted := s.started_within 0x48 c .l
    refine completes_of_next rfl ?_
    rw [State.fwUpdate_takes h hwords hop hbad hopen, if_neg (by decide), if_pos rfl]
    exact State.fwActivate_of c ((hstarted.trialSlot (by decide)).trans htrial) ((hstarted.reqs (by decide)).trans hreqs)
      ((hstarted.thermalHold (by decide) (by decide)).trans hhold)
  · intro c s h hwords hop hbad hopen hrunning
    have hstarted := s.started_within 0x48 c .l
    have hstill : (s.started 0x48 c .l).rb R.OASIS3_RUNNING_TRIAL 0 = true := (hstarted.rb (by decide)).trans hrunning
    have hrun : (s.started 0x48 c .l).rf R.OASIS3_RUNNING_SLOT 0 = s.rf R.OASIS3_RUNNING_SLOT 0 := hstarted.rf (by decide)
    obtain ⟨htrial, hstatus, hlast, hstamp, hstate⟩ := State.fwCommitted_of hstill
    rw [hrun] at hstate
    rw [hstarted.now (by decide)] at hstamp
    refine completes_of_next rfl ?_
    rw [State.fwUpdate_takes h hwords hop hbad hopen, if_neg (by decide), if_neg (by decide), if_pos rfl, State.fwCommit_eq c hstill, hrun,
      hstarted.slotVersion (by decide)]
    refine ⟨(State.rf_reply _ _ _ (by decide) _ _).trans htrial, (State.rf_reply _ _ _ (by decide) _ _).trans hstatus,
      (State.rf_reply _ _ _ (by decide) _ _).trans hlast, (State.rf_reply _ _ _ (by decide) _ _).trans hstamp,
      (State.rf_reply _ _ _ (by rw [slotStateF_area]; decide) _ _).trans hstate,
      State.answered_of_within h (State.fwCommitted_within _) (by decide) (by decide)⟩
  · intro c u s h hwords hop hbad hopen htrial hrunning
    have hstarted := s.started_within 0x48 c .l
    have hstill : (s.started 0x48 c .l).rb R.OASIS3_RUNNING_TRIAL 0 = false := (hstarted.rb (by decide)).trans hrunning
    have hslot := (hstarted.trialSlot (by decide)).trans htrial
    obtain ⟨-, hout, hplain⟩ := slot_codes u
    refine completes_of_next rfl ?_
    rw [State.fwUpdate_takes h hwords hop hbad hopen, if_neg (by decide), if_neg (by decide), if_neg (by decide), State.fwDiscard_eq c hslot hstill,
      hstarted.slotVersion (by decide)]
    generalize hu : ((s.started 0x48 c .l).wf (slotStateF u) 0 0) = v
    have hv : (s.started 0x48 c .l).Within (touch [1] [.irqLatch, .irqs, .staging, .lostStamps]) v := by
      rw [← hu]
      exact State.wf_frame (by rw [slotStateF_area]; decide) (State.frame_refl _ _)
    obtain ⟨hstatus, hlast, hstamp⟩ := v.fwOutcome_of (op := 3) (status := usDone) (s.rf (slotVersionF u) 0) (by decide) (by decide)
    rw [hv.now (by decide), hstarted.now (by decide)] at hstamp
    refine ⟨?_, (State.rf_reply _ _ _ (by decide) _ _).trans hstatus, (State.rf_reply _ _ _ (by decide) _ _).trans hlast,
      (State.rf_reply _ _ _ (by decide) _ _).trans hstamp, ?_⟩
    · rw [State.rf_reply _ _ _ (by rw [slotStateF_area]; decide), State.rf_fwOutcome _ _ _ _ ⟨hplain, hout⟩, ← hu]
      exact State.rf_slotState_same _ _ _ (by decide)
    · exact State.answered_of_within h (State.fwOutcome_frame (by decide) hv) (by decide) (by decide)

end Sys2Proof.Machine
end

section
/-! Resets of domains (R467 to R481; O52) and hangs (R463 to R466; O53). -/

namespace Sys2Proof.Machine

/-! ### The record of a reset -/

theorem Dom.contains_self (d : Dom) : d.contains d = true := by
  cases d <;> simp [Dom.contains, Dom.chain]

theorem State.rst_dom {s : State} {d : Dom} {x : ResetRec} (h : s.rst d = some x) : x.dom = d := by
  simpa using List.find?_some h

theorem State.gated_of_rst {s : State} {d : Dom} {x : ResetRec} (h : s.rst d = some x) : s.gated d = true := by
  refine List.any_eq_true.2 ⟨x, List.mem_of_find?_eq_some h, ?_⟩
  rw [State.rst_dom h]
  exact d.contains_self

/-- A record set anew is the domain's record. -/
theorem State.rst_setRst {s : State} {x y : ResetRec} (h : s.rst y.dom = some x) : (s.setRst y).rst y.dom = some y := by
  have hsame : ((fun z : ResetRec => decide (z.dom = y.dom)) ∘ fun z => if z.dom = y.dom then y else z) = fun z => decide (z.dom = y.dom) := by
    funext z
    dsimp only [Function.comp]
    split <;> simp_all
  unfold State.rst at h ⊢
  unfold State.setRst
  rw [List.find?_map, hsame, h]
  have hx : x.dom = y.dom := by simpa using List.find?_some h
  simp [hx]

theorem State.rf_setRst (s : State) (x : ResetRec) (g : Field) (j l : Nat) : (s.setRst x).rf g j l = s.rf g j l := rfl

theorem State.Within.rst {s t : State} {m : Nat} (h : s.Within m t) (hm : m.testBit 124 = false) (d : Dom) : t.rst d = s.rst d := by
  unfold State.rst
  rw [h.rsts hm]

theorem State.Within.genFree {s t : State} {m : Nat} (h : s.Within m t) (hm : m.testBit 125 = false) (d : Dom) : t.genFree d = s.genFree d := by
  unfold State.genFree
  rw [h.genAt hm]

/-! ### A field of a domain's record -/

theorem State.rf_setDom (s : State) (d : Dom) {clu part die g : Field} (v : Nat) (hc : g.code ≠ clu.code) (hp : g.code ≠ part.code) (hd : g.code ≠ die.code)
    (j l : Nat) : (s.setDom d clu part die v).rf g j l = s.rf g j l := by
  cases d with
  | core ck => rfl
  | cluster c => exact State.rf_wf_of_code _ hc _ _ _ _ _
  | part p => exact State.rf_wf_of_code _ hp _ _ _ _ _
  | die => exact State.rf_wf_of_code _ hd _ _ _ _ _

/-! ### The cut, R469 to R472 -/

/-- What the cut takes of the cores and streams of a domain. -/
def State.cutTaken (s : State) (x : ResetRec) : State :=
  let cores := x.dom.cores.filter fun ck => !s.isAbsent ck
  let s1 := (s.bumpGen x.dom).each cores fun t ck => t.cutOne x.dom ck
  let s2 := if decide (x.dom = .die) then s1.dieCut else s1.breakScores cores
  let s3 := (s2.interruptStreams ((cores.flatMap s.heldStreams) ++ x.streams).eraseDups).2
  let s4 := (s3.interruptRoles (cores.filter fun ck => kindOfLogical (ck % 64) = 2)).2
  s4.when (decide (2 ≤ x.dom.kind)) fun t => t.partCut cores

/-- The pages of a domain at the cut. -/
def State.cutPages (s before : State) (x : ResetRec) : State :=
  let cores := x.dom.cores.filter fun ck => !before.isAbsent ck
  ((((s.each cores fun t ck => t.loseResiduals ck).pagesReset x.dom).mirrorProg x.dom before).genChanged x.dom).when (decide (x.dom = .die))
    fun t => t.each (List.range 12) fun u n => u.wf R.HBM_SELF_REFRESH n 1

/-- The cut on the DIE page and in the domain's record. -/
def State.cutStamped (s : State) (dom : Dom) (now left : Nat) : State :=
  let s8 := ((s.wf R.DIE_ANY_CUT_STAMP 0 now).wf R.DIE_ANY_SCOPE 0 dom.kind).wf R.DIE_ANY_TARGET 0 dom.target
  let s9 := (s8.setDom dom R.CLU_LAST_CUT_STAMP R.PART_LAST_CUT_STAMP R.DIE_LAST_CUT_STAMP now).setDom dom R.CLU_LEFTOVER
    R.PART_LEFTOVER R.DIE_LEFTOVER (min 65535 left)
  (s9.setDom dom R.CLU_DRAINING R.PART_DRAINING R.DIE_DRAINING 0).setDom dom R.CLU_GATED R.PART_GATED R.DIE_GATED 1

theorem State.cut_eq (s : State) (x : ResetRec) : ∃ (left : Nat) (y : ResetRec),
    s.cut x = ((((s.cutTaken x).cutPages s x).cutStamped x.dom s.now left).setRst y) ∧
    y.dom = x.dom ∧ y.phase = 3 ∧ y.cutStamp = s.now ∧ y.drainUs = x.drainUs := by
  refine ⟨_, _, rfl, rfl, rfl, rfl, rfl⟩

/-- Everything but some places of the frame. -/
abbrev beside (places : List Nat) : Nat := 2 ^ 138 - 1 - (places.map (2 ^ ·)).sum

theorem State.cutTaken_within (s : State) (x : ResetRec) : s.Within (beside [8, 80, 81, 124]) (s.cutTaken x) := by
  unfold State.cutTaken
  dsimp only
  refine State.when_frame (State.interruptRoles_frame (by decide) (State.interruptStreams_frame (by decide) (ite_frame ?_ ?_)))
    fun _ ht => State.partCut_frame (by decide) ht
  · exact State.dieCut_frame (by decide) (State.each_frame (State.bumpGen_frame (by decide) (s.frame_refl _)) fun _ _ ht => State.cutOne_frame (by decide) ht)
  · exact State.breakScores_frame (by decide) (State.each_frame (State.bumpGen_frame (by decide) (s.frame_refl _)) fun _ _ ht => State.cutOne_frame (by decide) ht)

theorem State.cutPages_within (s before : State) (x : ResetRec) : s.Within (beside [80, 81, 124]) (s.cutPages before x) :=
  State.when_frame (State.genChanged_frame (by decide) (State.mirrorProg_frame (by decide) (State.pagesReset_frame (by decide)
    (State.each_frame (s.frame_refl _) fun _ _ ht => State.loseResiduals_frame (by decide) ht))))
    fun _ ht => State.each_frame ht fun _ _ ht => State.wf_frame (by decide) ht

theorem State.cutStamped_within (s : State) (d : Dom) (now left : Nat) : s.Within (touch [8, 9, 0xa] []) (s.cutStamped d now left) :=
  State.setDom_frame (by decide) (by decide) (by decide) (by decide) (State.setDom_frame (by decide) (by decide) (by decide) (by decide)
    (State.setDom_frame (by decide) (by decide) (by decide) (by decide) (State.setDom_frame (by decide) (by decide) (by decide) (by decide)
    (State.wf_frame (by decide) (State.wf_frame (by decide) (State.wf_frame (by decide) (s.frame_refl _)))))))

/-- The record of a domain after its cut (R467). -/
theorem State.rst_cut {s : State} {x z : ResetRec} (h : s.rst x.dom = some z) : ∃ y, (s.cut x).rst x.dom = some y ∧ y.phase = 3 ∧
    y.drainUs = x.drainUs ∧ y.cutStamp = s.now := by
  obtain ⟨left, y, heq, hdom, hphase, hstamp, hdrain⟩ := s.cut_eq x
  refine ⟨y, ?_, hphase, hdrain, hstamp⟩
  rw [heq, ← hdom]
  refine State.rst_setRst (x := z) ?_
  rw [(State.cutStamped_within _ _ _ _).rst (by decide), (State.cutPages_within _ _ _).rst (by decide), (s.cutTaken_within x).rst (by decide), hdom]
  exact h

theorem State.rst_cutWhenFree {s : State} {x z : ResetRec} (h : s.rst x.dom = some z) : ((s.cutWhenFree x).rst x.dom).isSome = true := by
  unfold State.cutWhenFree
  split
  · have hset : (s.setRst { x with phase := 2 }).rst x.dom = some { x with phase := 2 } := State.rst_setRst (y := { x with phase := 2 }) h
    have hinc : ((s.setRst { x with phase := 2 }).inc R.DIE_GEN_WAITS 0).rst x.dom = (s.setRst { x with phase := 2 }).rst x.dom := by
      unfold State.rst
      rw [State.inc_rsts]
    rw [hinc, hset]
    rfl
  · obtain ⟨y, hy, -⟩ := State.rst_cut h
    rw [hy]
    rfl

/-- R470: a domain whose generation is free is cut. -/
theorem State.cutWhenFree_free {s : State} {x : ResetRec} (h : s.genFree x.dom ≤ s.elapsed) : s.cutWhenFree x = s.cut x := by
  rw [State.cutWhenFree, if_neg (by omega)]

/-! ### The gate, R467 -/

/-- The record of a reset that starts. -/
def State.resetRecord (s : State) (dom : Dom) (absorb : Bool) (cause : Nat) (cmd : List (Nat × Nat)) : ResetRec :=
  { (s.takeOver dom).1 with absorb := absorb, cause := cause, cmd := cmd }

/-- The record kept, and the gate on the domain's page. -/
def State.gateShut (s : State) (x : ResetRec) (absorb : Bool) (cause now : Nat) : State :=
  let s2 := ({ s with rsts := s.rsts ++ [x] }).inc (resetCountF x.dom) 0
  let s3 := (s2.setDom x.dom R.CLU_LAST_START_STAMP R.PART_LAST_START_STAMP R.DIE_LAST_START_STAMP now).setDom x.dom
    R.CLU_LAST_RELEASE_STAMP R.PART_LAST_RELEASE_STAMP R.DIE_LAST_RELEASE_STAMP 0
  let s4 := ((s3.setDom x.dom R.CLU_MODE R.PART_MODE R.DIE_MODE (bit absorb)).setDom x.dom R.CLU_CAUSE R.PART_CAUSE R.DIE_CAUSE
    cause).setDom x.dom R.CLU_GATED R.PART_GATED R.DIE_GATED 1
  (s4.setDom x.dom R.CLU_DRAINING R.PART_DRAINING R.DIE_DRAINING (bit !absorb)).setDom x.dom R.CLU_DRAIN_US R.PART_DRAIN_US R.DIE_DRAIN_US 0

/-- A reset below the die: the narrower ones taken over, the record kept, the gate shut. -/
def State.resetGated (s : State) (dom : Dom) (absorb : Bool) (cause : Nat) (cmd : List (Nat × Nat)) : State :=
  ((s.takeOver dom).2.gateShut (s.resetRecord dom absorb cause cmd) absorb cause s.now).setRst (s.resetRecord dom absorb cause cmd)

theorem State.startReset_below (s : State) {dom : Dom} (h : dom ≠ .die) (absorb : Bool) (cause : Nat) (cmd : List (Nat × Nat)) :
    s.startReset dom absorb cause cmd = if absorb then (s.resetGated dom absorb cause cmd).cutWhenFree (s.resetRecord dom absorb cause cmd)
      else s.resetGated dom absorb cause cmd := by
  unfold State.startReset
  simp only [if_neg h, decide_eq_false h, State.when_false]
  rfl

theorem State.resetRecord_of (s : State) (dom : Dom) (absorb : Bool) (cause : Nat) (cmd : List (Nat × Nat)) :
    (s.resetRecord dom absorb cause cmd).dom = dom ∧ (s.resetRecord dom absorb cause cmd).phase = 1 ∧
    (s.resetRecord dom absorb cause cmd).absorb = absorb ∧ (s.resetRecord dom absorb cause cmd).cmd = cmd ∧
    (s.resetRecord dom absorb cause cmd).cause = cause ∧ (s.resetRecord dom absorb cause cmd).startStamp = s.now :=
  ⟨rfl, rfl, rfl, rfl, rfl, rfl⟩

/-- R478: no reset of the domain is in progress beside the one that starts. -/
theorem State.rst_takeOver (s : State) (dom : Dom) : (s.takeOver dom).2.rst dom = none := by
  refine List.find?_eq_none.2 fun r hr => ?_
  have hkeep : (!dom.contains r.dom) = true := (List.mem_filter.1 hr).2
  intro hdom
  rw [of_decide_eq_true hdom, dom.contains_self] at hkeep
  exact Bool.false_ne_true hkeep

theorem State.rsts_gateShut (s : State) (x : ResetRec) (absorb : Bool) (cause now : Nat) : (s.gateShut x absorb cause now).rsts = s.rsts ++ [x] := by
  have hw (t : State) (d : Dom) (c p f : Field) (v : Nat) : (t.setDom d c p f v).rsts = t.rsts := by
    cases d
    · rfl
    · exact State.wf_rsts _ _ _ _ _
    · exact State.wf_rsts _ _ _ _ _
    · exact State.wf_rsts _ _ _ _ _
  unfold State.gateShut
  dsimp only
  rw [hw, hw, hw, hw, hw, hw, hw, State.inc_rsts]

/-- R467: the record of the reset that starts. -/
theorem State.rst_resetGated (s : State) (dom : Dom) (absorb : Bool) (cause : Nat) (cmd : List (Nat × Nat)) :
    (s.resetGated dom absorb cause cmd).rst dom = some (s.resetRecord dom absorb cause cmd) := by
  have hdom : (s.resetRecord dom absorb cause cmd).dom = dom := rfl
  have hnone := s.rst_takeOver dom
  refine State.rst_setRst (y := s.resetRecord dom absorb cause cmd) (x := s.resetRecord dom absorb cause cmd) ?_
  rw [hdom]
  unfold State.rst at hnone ⊢
  rw [State.rsts_gateShut, List.find?_append, hnone]
  simp [hdom]

/-- R467: a reset below the die holds its domain. -/
theorem State.rst_startReset (s : State) {dom : Dom} (h : dom ≠ .die) (absorb : Bool) (cause : Nat) (cmd : List (Nat × Nat)) :
    ∃ y, (s.startReset dom absorb cause cmd).rst dom = some y := by
  rw [State.startReset_below _ h]
  split
  · exact Option.isSome_iff_exists.1 (State.rst_cutWhenFree (x := s.resetRecord dom absorb cause cmd) (s.rst_resetGated dom absorb cause cmd))
  · exact ⟨_, s.rst_resetGated dom absorb cause cmd⟩

theorem State.gated_startReset (s : State) {dom : Dom} (h : dom ≠ .die) (absorb : Bool) (cause : Nat) (cmd : List (Nat × Nat)) :
    (s.startReset dom absorb cause cmd).gated dom = true := by
  obtain ⟨y, hy⟩ := s.rst_startReset h absorb cause cmd
  exact State.gated_of_rst hy

/-- R467, R499: a reset below the die that need not wait starts. -/
theorem State.beginReset_below (s : State) {dom : Dom} (h : dom ≠ .die) (hcores : dom.kind = 2 → s.modState ≠ msCores) (absorb : Bool) (cause : Nat)
    (cmd : List (Nat × Nat)) : s.beginReset dom absorb cause false cmd = s.startReset dom absorb cause cmd := by
  unfold State.beginReset
  rw [if_neg (fun hd => h hd.1), if_neg (fun hk => hcores hk.1 hk.2), if_neg Bool.false_ne_true]

/-! ### The release of a domain, R467 -/

/-- What a release gives back before the gate is opened. -/
def State.releaseTaken (s : State) (x : ResetRec) (bad : List Nat) : State :=
  let s1 := ((if x.dom = .die then s.dieRelease else s).interruptStreams x.streams).2
  let s2 := ({ s1 with rsts := s1.rsts.filter fun r => r.dom ≠ x.dom }).reload x.dom
  (s2.each x.runs fun t ck =>
    if t.isAbsent ck || t.coreFenced ck then t
    else if kindOfLogical (ck % 64) ≠ 2 then t.wf (runField ck) ck 1
    else if bad.contains ck then t
    else (t.wf R.SCORE_CODE_LOCK ck 1).scoreStart ck).noteHang x

/-- The gate of a domain opened. -/
def State.gateOpen (now : Nat) (s : State) (d : Dom) : State :=
  (((s.setDom d R.CLU_LAST_RELEASE_STAMP R.PART_LAST_RELEASE_STAMP R.DIE_LAST_RELEASE_STAMP now).setDom d R.CLU_GATED R.PART_GATED
    R.DIE_GATED 0).setDom d R.CLU_DRAINING R.PART_DRAINING R.DIE_DRAINING 0).setDom d R.CLU_RESTORING R.PART_RESTORING R.DIE_RESTORING 0

/-- The end of a reset on the domain's page. -/
def State.released (s : State) (x : ResetRec) (ended : Nat) : State :=
  let s5 := (s.setDom x.dom R.CLU_INTERRUPTED R.PART_INTERRUPTED R.DIE_INTERRUPTED ended).setDom x.dom R.CLU_RSTATUS R.PART_RSTATUS R.DIE_RSTATUS 0
  if x.dom.kind = 0 then s5 else s5.setInts x.dom.page (2 ^ R.INT_DIE_RESET_DONE + (if x.leftover ≠ 0 then 2 ^ R.INT_DIE_LEFTOVER else 0))

/-- What follows a release: the commands answered, the stand-ins asked for again, operations owed, queued credits. -/
def State.releaseRest (s : State) (x : ResetRec) (words : Nat → List Nat) : State :=
  let s7 := s.each x.cmd fun t c => t.finish c.1 c.2 (words 0)
  let s8 := s7.each x.merged fun t c => t.finish c.1 c.2 (words 3)
  let s9 := s8.each x.taken fun t c => t.finish c.1 c.2 (words 5)
  let s10 := s9.each x.standins fun t q => t.mesh 7 q.1 [q.2.mcore, q.2.step, q.2.eng, q.2.xref]
  let s11 := s10.each (s10.prog.filter fun p => x.dom.contains (.core (engCore p.1))) fun t p => t.tryOwed p.1
  s11.each (s11.bufs.filter fun b => x.dom.contains (.core (b.1 / 512))) fun t b => t.serveQueue (b.1 / 512) (b.1 % 512) (b.2.queue.length + 1)

/-- The requests that a reset ended, as its release counts them. -/
def State.releaseEnded (s : State) (x : ResetRec) : Nat :=
  min 65535 (x.interrupted + (s.unfixed - ((if x.dom = .die then s.dieRelease else s).interruptStreams x.streams).2.unfixed))

/-- A release up to the end of its reset on the domain's page. -/
def State.releaseDone (s : State) (x : ResetRec) (bad : List Nat) : State :=
  ((s.releaseTaken x bad).each (x.dom :: x.ovr) (State.gateOpen s.now)).released x (s.releaseEnded x)

theorem State.release_eq (s : State) (x : ResetRec) (bad : List Nat) : s.release x bad = (s.releaseDone x bad).releaseRest x fun st =>
    resetWords st ((s.releaseDone x bad).gen x.dom) x.leftover (s.releaseEnded x) x.drainUs x.cutStamp (s.releaseDone x bad).now := rfl

theorem State.releaseRest_within (s : State) (x : ResetRec) (words : Nat → List Nat) : s.Within (beside [0xa, 124]) (s.releaseRest x words) :=
  State.each_frame (State.each_frame (State.each_frame (State.each_frame (State.each_frame (State.each_frame (s.frame_refl _)
    fun _ _ ht => State.finish_frame (by decide) ht) fun _ _ ht => State.finish_frame (by decide) ht) fun _ _ ht => State.finish_frame (by decide) ht)
    fun _ _ ht => State.mesh_frame (by decide) ht) fun _ _ ht => State.tryOwed_frame (by decide) ht) fun _ _ ht => State.serveQueue_frame (by decide) ht

theorem State.gateOpen_within (s : State) (now : Nat) (d : Dom) : s.Within (touch [8, 9, 0xa] []) (s.gateOpen now d) :=
  State.setDom_frame (by decide) (by decide) (by decide) (by decide) (State.setDom_frame (by decide) (by decide) (by decide) (by decide)
    (State.setDom_frame (by decide) (by decide) (by decide) (by decide) (State.setDom_frame (by decide) (by decide) (by decide) (by decide)
    (s.frame_refl _))))

/-- A value that a domain's field holds stays when the same value is set for any domain. -/
theorem State.rf_setDom_keep {s : State} (d : Dom) {clu part die : Field} {v c : Nat} (hp : clu.code ≠ part.code) (hd : clu.code ≠ die.code)
    (h : s.rf clu c = v % 2 ^ clu.len) : (s.setDom d clu part die v).rf clu c = v % 2 ^ clu.len := by
  cases d with
  | core ck => exact h
  | cluster e =>
    by_cases hcell : clu.cell c 0 = clu.cell e 0
    · simp [State.rf, State.setDom, State.wf, hcell]
    · exact (State.rf_wf_of_cell _ _ hcell).trans h
  | part p => exact (State.rf_wf_of_code _ hp _ _ _ _ _).trans h
  | die => exact (State.rf_wf_of_code _ hd _ _ _ _ _).trans h

/-- The gate of a cluster stands open on its page. -/
def State.gateStands (s : State) (c now : Nat) : Prop := s.rf R.CLU_GATED c = 0 ∧ s.rf R.CLU_RESTORING c = 0 ∧
  s.rf R.CLU_LAST_RELEASE_STAMP c = now % 2 ^ 64

theorem State.gateStands_gateOpen {s : State} {c now : Nat} (d : Dom) (h : s.gateStands c now) : (s.gateOpen now d).gateStands c now := by
  obtain ⟨hgated, hrestoring, hstamp⟩ := h
  unfold State.gateOpen
  refine ⟨?_, ?_, ?_⟩
  · rw [State.rf_setDom _ _ _ (by decide) (by decide) (by decide), State.rf_setDom _ _ _ (by decide) (by decide) (by decide)]
    refine State.rf_setDom_keep d (v := 0) (by decide) (by decide) ?_
    rw [State.rf_setDom _ _ _ (by decide) (by decide) (by decide), hgated]
    rfl
  · refine State.rf_setDom_keep d (v := 0) (by decide) (by decide) ?_
    rw [State.rf_setDom _ _ _ (by decide) (by decide) (by decide), State.rf_setDom _ _ _ (by decide) (by decide) (by decide),
      State.rf_setDom _ _ _ (by decide) (by decide) (by decide), hrestoring]
    rfl
  · rw [State.rf_setDom _ _ _ (by decide) (by decide) (by decide), State.rf_setDom _ _ _ (by decide) (by decide) (by decide),
      State.rf_setDom _ _ _ (by decide) (by decide) (by decide)]
    exact State.rf_setDom_keep d (by decide) (by decide) hstamp

theorem State.gateStands_gateOpen_self (s : State) (c now : Nat) : (s.gateOpen now (.cluster c)).gateStands c now := by
  unfold State.gateOpen State.setDom State.gateStands
  simp (disch := decide) only [State.rf_wf_of_code, State.rf_wf_same]
  exact ⟨rfl, rfl, rfl⟩

theorem State.rf_released (s : State) {x : ResetRec} (ended : Nat) {c : Nat} (h : x.dom = .cluster c) {g : Field} (hg : g.plain)
    (hi : g.code ≠ R.CLU_INTERRUPTED.code) (hs : g.code ≠ R.CLU_RSTATUS.code) (j l : Nat) : (s.released x ended).rf g j l = s.rf g j l := by
  unfold State.released
  dsimp only
  rw [h, if_neg (by simp [Dom.kind]), State.rf_setInts_plain _ _ _ hg]
  unfold State.setDom
  rw [State.rf_wf_of_code _ hs, State.rf_wf_of_code _ hi]

theorem State.rstatus_released (s : State) {x : ResetRec} (ended : Nat) {c : Nat} (h : x.dom = .cluster c) :
    (s.released x ended).rf R.CLU_RSTATUS c = 0 := by
  unfold State.released
  dsimp only
  rw [h, if_neg (by simp [Dom.kind]), State.rf_setInts_plain _ _ _ (by decide)]
  exact State.rf_wf_same _ _ _ _ _

theorem State.released_within (s : State) {x : ResetRec} (ended : Nat) {c : Nat} (h : x.dom = .cluster c) :
    s.Within (touch [0xa] [.irqLatch, .irqs]) (s.released x ended) := by
  unfold State.released
  dsimp only
  rw [h, if_neg (by simp [Dom.kind])]
  exact State.setInts_frame (by decide) (page_bit (Sub.refl _) rfl (by decide) (by decide)) (State.wf_frame (by decide) (State.wf_frame (by decide) (s.frame_refl _)))

/-- R467: a domain that is released is held by no reset of its own. -/
theorem State.rst_releaseTaken (s : State) (x : ResetRec) (bad : List Nat) : (s.releaseTaken x bad).rst x.dom = none := by
  have hreload (t : State) : t.Within _ (t.reload x.dom) := State.reload_frame (Sub.refl _) (t.frame_refl _)
  have hruns (t : State) : t.Within (beside [124]) ((t.each x.runs fun t ck =>
      if t.isAbsent ck || t.coreFenced ck then t
      else if kindOfLogical (ck % 64) ≠ 2 then t.wf (runField ck) ck 1
      else if bad.contains ck then t
      else (t.wf R.SCORE_CODE_LOCK ck 1).scoreStart ck).noteHang x) := by
    refine State.noteHang_frame (by decide) (State.each_frame (t.frame_refl _) fun _ ck ht => ite_frame ht (ite_frame (State.wf_frame ?_ ht)
      (ite_frame ht (State.scoreStart_frame (by decide) (State.wf_frame (by decide) ht)))))
    unfold runField
    split
    · decide
    · split <;> decide
  unfold State.releaseTaken
  dsimp only
  rw [(hruns _).rst (by decide), (hreload _).rst (by decide)]
  refine List.find?_eq_none.2 fun r hr => ?_
  have hkeep : decide (r.dom ≠ x.dom) = true := (List.mem_filter.1 hr).2
  simpa using hkeep

/-- RESET_RELEASE of a cluster (R467). -/
theorem State.release_cluster (s : State) {x : ResetRec} (bad : List Nat) {c : Nat} (h : x.dom = .cluster c) :
    (s.release x bad).rst (.cluster c) = none ∧ (s.release x bad).rf R.CLU_GATED c = 0 ∧ (s.release x bad).rf R.CLU_RESTORING c = 0 ∧
    (s.release x bad).rf R.CLU_LAST_RELEASE_STAMP c = s.now % 2 ^ 64 ∧ (s.release x bad).rf R.CLU_RSTATUS c = 0 := by
  have hopen : ((s.releaseTaken x bad).each (x.dom :: x.ovr) (State.gateOpen s.now)).gateStands c s.now := by
    rw [State.each_cons, h]
    exact State.each_ind (fun t => t.gateStands c s.now) (State.gateStands_gateOpen_self _ _ _) fun d _ t ht => State.gateStands_gateOpen d ht
  have hgate : (s.releaseTaken x bad).Within (touch [8, 9, 0xa] []) ((s.releaseTaken x bad).each (x.dom :: x.ovr) (State.gateOpen s.now)) :=
    State.each_frame (State.frame_refl _ _) fun t d ht => State.frame_trans ht (t.gateOpen_within s.now d)
  have hnone := s.rst_releaseTaken x bad
  rw [← hgate.rst (by decide)] at hnone
  rw [State.release_eq]
  unfold State.releaseDone
  generalize hu : (s.releaseTaken x bad).each (x.dom :: x.ovr) (State.gateOpen s.now) = u at hopen hnone
  obtain ⟨hgated, hrestoring, hstamp⟩ := hopen
  have hreleased := u.released_within (s.releaseEnded x) h
  have hstatus := u.rstatus_released (s.releaseEnded x) h
  have hrest := (u.released x (s.releaseEnded x)).releaseRest_within x fun st => resetWords st ((u.released x (s.releaseEnded x)).gen x.dom) x.leftover
    (s.releaseEnded x) x.drainUs x.cutStamp (u.released x (s.releaseEnded x)).now
  rw [hrest.rst (by decide), hrest.rf (by decide), hrest.rf (by decide), hrest.rf (by decide), hrest.rf (by decide), hreleased.rst (by decide), ← h,
    State.rf_released _ _ h (by decide) (by decide) (by decide), State.rf_released _ _ h (by decide) (by decide) (by decide),
    State.rf_released _ _ h (by decide) (by decide) (by decide)]
  exact ⟨hnone, hgated, hrestoring, hstamp, hstatus⟩

/-! ### The commands -/

theorem Dom.of_ne_die {scope target : Nat} (h : scope < 3) : Dom.of scope target ≠ .die := by
  obtain rfl | rfl | rfl : scope = 0 ∨ scope = 1 ∨ scope = 2 := by omega
  · exact Dom.noConfusion
  · exact Dom.noConfusion
  · exact Dom.noConfusion

theorem Dom.kind_of {scope target : Nat} (h : scope < 3) : (Dom.of scope target).kind = scope := by
  obtain rfl | rfl | rfl : scope = 0 ∨ scope = 1 ∨ scope = 2 := by omega
  · rfl
  · rfl
  · rfl

/-- DOMAIN_RESET of a domain below the die (R479). -/
theorem State.domainReset_below {s : State} {c : Cmd} (h : s.Takes c) (hwords : c.bodyWords = 1) (hzero : c.f 0 4 12 = 0) (hrest : c.f 0 32 32 = 0)
    (hwarm : c.b 0 3 = false) (hdrain : c.b 0 2 = false) (hscope : c.f 0 0 2 < 3) (htarget : targetOk (c.f 0 0 2) (c.f 0 16 16) = true)
    (hpresent : c.f 0 0 2 = 0 → s.isAbsent (c.f 0 16 16) = false) (hfree : s.holding (Dom.of (c.f 0 0 2) (c.f 0 16 16)) = none)
    (hcores : s.modState ≠ msCores) : ∃ t : State, t.now = s.now ∧
    s.domainReset (.domainReset c) c = t.startReset (Dom.of (c.f 0 0 2) (c.f 0 16 16)) false (s.rf R.QP_PORT c.qp) [(c.qp, c.cmdId)] := by
  have hstarted := s.started_within 0x47 c .l
  have hport : (s.started 0x47 c .l).rf R.QP_PORT c.qp = s.rf R.QP_PORT c.qp := s.started_regs _ _ _ _ _ _ (by decide)
  have hstate : (s.started 0x47 c .l).modState = s.modState := hstarted.rf (by decide)
  have habsent : ¬ (c.f 0 0 2 = 0 ∧ (s.started 0x47 c .l).isAbsent (c.f 0 16 16) = true) := fun ⟨h0, ha⟩ => by
    rw [hstarted.isAbsent (by decide), hpresent h0] at ha
    exact Bool.false_ne_true ha
  have hfree' : (s.started 0x47 c .l).holding (Dom.of (c.f 0 0 2) (c.f 0 16 16)) = none := by
    unfold State.holding at hfree ⊢
    rw [hstarted.rsts (by decide), hfree]
  have hnow : (s.started 0x47 c .l).now = s.now := hstarted.now (by decide)
  unfold State.domainReset
  rw [State.vorane_takes h (by decide) (by simp [hwords])]
  generalize s.started 0x47 c .l = t at hport hstate habsent hfree' hnow
  dsimp only
  rw [if_neg (by simp [hzero, hrest, hwarm, htarget]), if_neg habsent, if_neg (by simp [hwarm]), hfree', hwarm, hdrain, hport]
  dsimp only
  rw [State.beginReset_below _ (Dom.of_ne_die hscope) (fun _ => by
    have hkeep : (t.takeEffect c.qp c.cmdId (resetWords (if c.f 0 0 2 = 3 then 4 else 0) (t.gen (Dom.of (c.f 0 0 2) (c.f 0 16 16))) 0 0 0 0 0)).modState =
      t.modState := rfl
    rw [hkeep, hstate]
    exact hcores)]
  refine ⟨_, ?_, rfl⟩
  exact hnow

/-- DRAIN_END (R468). -/
theorem State.drainEnd_cut {s : State} {d : Dom} {x : ResetRec} (hx : s.rst d = some x) (hphase : x.phase = 1) (habsorb : x.absorb = false)
    (hdrained : x.startAt + 50000 ≤ s.elapsed) (hfree : s.genFree d ≤ s.elapsed) :
    ∃ y, (s.drainEnd d).rst d = some y ∧ y.phase = 3 ∧ y.drainUs = 50 ∧ y.cutStamp = s.now := by
  have hdom := State.rst_dom hx
  have hus : min 50 ((s.elapsed - x.startAt) / 1000) = 50 := by omega
  have hset : s.Within (touch [8, 9, 0xa] []) (s.setDom d R.CLU_DRAIN_US R.PART_DRAIN_US R.DIE_DRAIN_US 50) :=
    State.setDom_frame (by decide) (by decide) (by decide) (by decide) (s.frame_refl _)
  unfold State.drainEnd
  rw [hx]
  dsimp only
  rw [if_neg (by simp [hphase, habsorb]), if_pos (.inr hdrained), hus,
    State.cutWhenFree_free (by rw [hset.genFree (by decide), hset.elapsed (by decide), hdom]; exact hfree), ← hset.now (by decide)]
  obtain rfl := hdom
  exact State.rst_cut (x := { x with drainUs := 50 }) (by rw [hset.rst (by decide)]; exact hx)

/-- GEN_WAIT_END (R470). -/
theorem State.genWaitEnd_cut {s : State} {d : Dom} {x : ResetRec} (hx : s.rst d = some x) (hphase : x.phase = 2) (hfree : s.genFree d ≤ s.elapsed) :
    ∃ y, (s.genWaitEnd d).rst d = some y ∧ y.phase = 3 ∧ y.cutStamp = s.now := by
  obtain rfl := State.rst_dom hx
  unfold State.genWaitEnd
  rw [hx]
  dsimp only
  rw [if_neg (by omega)]
  obtain ⟨y, hy, hcut, -, hstamp⟩ := State.rst_cut (x := { x with startAt := x.startAt + (s.elapsed - x.startAt - 1000 * x.drainUs) }) hx
  exact ⟨y, hy, hcut, hstamp⟩

/-- RESET_PHASE_END below the die (R467). -/
theorem State.resetPhaseEnd_below {s : State} {d : Dom} {x : ResetRec} (hne : d ≠ .die) (hx : s.rst d = some x) (hphase : x.phase = 3) :
    (s.resetPhaseEnd d).rst d = some { x with phase := 4 } ∧
    s.resetPhaseEnd d = { s with regs := (s.resetPhaseEnd d).regs, rsts := (s.resetPhaseEnd d).rsts } := by
  obtain rfl := State.rst_dom hx
  have hset (t : State) : (t.setDom x.dom R.CLU_RESTORING R.PART_RESTORING R.DIE_RESTORING 1).rst x.dom = t.rst x.dom :=
    (State.setDom_frame (by decide) (by decide) (by decide) (by decide) (t.frame_refl _) :
      t.Within (touch [8, 9, 0xa] []) (t.setDom x.dom R.CLU_RESTORING R.PART_RESTORING R.DIE_RESTORING 1)).rst (by decide) _
  unfold State.resetPhaseEnd
  rw [hx]
  dsimp only
  rw [if_neg (by simp [hphase]), if_neg hne]
  refine ⟨?_, ?_⟩
  · rw [hset]
    exact State.rst_setRst (y := { x with phase := 4 }) hx
  · unfold State.setDom State.setRst
    split <;> rfl

/-- R36: a page's number names the page. -/
theorem Page.ofIndex_index {p : Page} (hi : p.inst < 65536) (hp : p.page < 16) : Page.ofIndex p.index = p := by
  obtain ⟨blk, inst, page⟩ := p
  simp only [Page.ofIndex, Page.index, Page.mk.injEq] at hi hp ⊢
  omega

/-- A write of CTL of a cluster's page before its reset (R48). -/
def State.cluCtl (s : State) (m : Master) (c w : Nat) : State :=
  (((s.storeWord m (cluPage c) 0x20 w).wf (cluPage c).irqEn c (bitsOf w 0 1)).irqUpdate (cluPage c)).when (w.testBit 1) fun t => t.rearm (cluPage c)

theorem State.cluCtl_within (s : State) (m : Master) (c w : Nat) : s.Within (2 ^ 80 - 1 + 2 ^ 83 + 2 ^ 84) (s.cluCtl m c w) := by
  refine State.when_frame (State.irqUpdate_frame (by decide) (State.wf_frame ?_ (State.storeWord_frame (by decide) (s.frame_refl _))))
    fun _ ht => State.rearm_frame (by decide) ht
  exact Sub.any (Sub.refl _) (by decide) _

theorem State.writeHeader_cluReset (s : State) (m : Master) (c : Nat) {w : Nat} (hreset : w.testBit 8 = true) (hdrain : w.testBit 9 = false) :
    ∃ cause, s.writeHeader m (cluPage c) 0x20 w = (s.cluCtl m c w).ctlReset (.cluster c) false false cause := by
  have hdom : (cluPage c).resetDom = some (.cluster c) := rfl
  unfold State.writeHeader State.writeCtl
  rw [if_pos rfl, hdom]
  dsimp only
  rw [if_pos hreset, hdrain]
  exact ⟨_, rfl⟩

/-- R467: a cluster's gate on its page. -/
theorem State.cluster_gateShut (s : State) {x : ResetRec} (absorb : Bool) (cause now : Nat) {c : Nat} (h : x.dom = .cluster c) :
    (s.gateShut x absorb cause now).rf R.CLU_GATED c = 1 ∧ (s.gateShut x absorb cause now).rf R.CLU_LAST_START_STAMP c = now % 2 ^ 64 := by
  unfold State.gateShut
  rw [h]
  dsimp only [State.setDom]
  simp (disch := decide) only [State.rf_wf_of_code, State.rf_wf_same]
  exact ⟨rfl, rfl⟩

/-- CTL.DOMAIN_RESET of a cluster that no reset holds (R462). -/
theorem State.ctlReset_cluster {s : State} {c : Nat} (hfree : s.gated (.cluster c) = false) (cause : Nat) :
    (s.ctlReset (.cluster c) false false cause).gated (.cluster c) = true ∧ (s.ctlReset (.cluster c) false false cause).rf R.CLU_GATED c = 1 ∧
    (s.ctlReset (.cluster c) false false cause).rf R.CLU_LAST_START_STAMP c = s.now % 2 ^ 64 := by
  have hne : Dom.cluster c ≠ .die := Dom.noConfusion
  have heq : s.ctlReset (.cluster c) false false cause = s.startReset (.cluster c) false cause [] := by
    unfold State.ctlReset
    dsimp only
    rw [hfree, if_neg (by simp), if_neg (by simp)]
    exact s.beginReset_below hne (fun h => absurd h (by simp [Dom.kind])) _ _ _
  have hgate := s.gated_startReset hne false cause []
  rw [heq]
  refine ⟨hgate, ?_⟩
  rw [s.startReset_below hne, if_neg Bool.false_ne_true]
  unfold State.resetGated
  rw [State.rf_setRst, State.rf_setRst]
  exact State.cluster_gateShut _ _ _ _ rfl

/-- Settles O52: a domain's gate, its cut, its phases and its release, each in the record of its reset. -/
theorem resetsOfDomainsComplete : Obligations.ResetsOfDomainsComplete := by
  unfold Obligations.ResetsOfDomainsComplete
  refine ⟨?_, ?_, ?_, ?_, ?_, ?_⟩
  · intro m c w s hc h hdrain hfree hrsts hcores
    have hpage : Page.ofIndex (cluPage c).index = cluPage c := Page.ofIndex_index (by simp [cluPage]; omega) (by simp [cluPage])
    have hreset : (w ||| 0x100).testBit 8 = true := by
      rw [Nat.testBit_or, show Nat.testBit 0x100 8 = true from rfl, Bool.or_true]
    have hstill : (w ||| 0x100).testBit 9 = false := by
      rw [Nat.testBit_or, hdrain, show Nat.testBit 0x100 9 = false from rfl, Bool.or_false]
    obtain ⟨cause, heq⟩ := s.writeHeader_cluReset m c hreset hstill
    have hw := h.header_within (by decide)
    rw [heq] at hw
    have hctl := s.cluCtl_within m c (w ||| 0x100)
    obtain ⟨hgated, hgate, hstamp⟩ := State.ctlReset_cluster (s := s.cluCtl m c (w ||| 0x100)) (by rw [hctl.gated (by decide)]; exact hfree) cause
    rw [hctl.now (by decide)] at hstamp
    refine completes_of_next (t := s.pageStore m (cluPage c) 0x20 (w ||| 0x100)) ?_ ?_
    · show Host.Outcome.next (s.pageStore m (Page.ofIndex (cluPage c).index) 0x20 (w ||| 0x100)) = _
      rw [hpage]
    · rw [hw.gated (by decide), hw.rf (by decide), hw.rf (by decide)]
      exact ⟨hgated, hgate, hstamp⟩
  · intro c s h hwords hzero hrest hwarm hdrain hscope htarget hpresent hfree hcores
    have hlt : c.f 0 0 2 < 3 := by
      have : c.f 0 0 2 < 4 := Nat.mod_lt _ (by decide)
      omega
    obtain ⟨t, hnow, heq⟩ := State.domainReset_below h hwords hzero hrest hwarm hdrain hlt htarget hpresent hfree hcores
    obtain ⟨-, hphase, habsorb, hcmd, hcause, hstamp⟩ := t.resetRecord_of (Dom.of (c.f 0 0 2) (c.f 0 16 16)) false (s.rf R.QP_PORT c.qp) [(c.qp, c.cmdId)]
    refine completes_of_next rfl ⟨_, ?_, hphase, habsorb, hcmd, hcause, hstamp.trans hnow⟩
    rw [heq, State.startReset_below _ (Dom.of_ne_die hlt), if_neg Bool.false_ne_true]
    exact t.rst_resetGated _ _ _ _
  · exact fun scope target x s hscope hx hphase habsorb hdrained hfree => completes_of_next rfl (State.drainEnd_cut hx hphase habsorb hdrained hfree)
  · exact fun scope target x s hscope hx hphase hfree => completes_of_next rfl (State.genWaitEnd_cut hx hphase hfree)
  · exact fun scope target x s hscope hx hphase => completes_of_next rfl (State.resetPhaseEnd_below (Dom.of_ne_die hscope) hx hphase)
  · intro c bad x s hx hphase
    refine completes_of_next (t := s.release x bad) ?_ (s.release_cluster bad (State.rst_dom hx))
    have hdom : Dom.of 1 c = .cluster c := rfl
    show Host.Outcome.next (s.resetRelease (Dom.of 1 c) bad) = _
    unfold State.resetRelease
    rw [hdom, hx]
    dsimp only
    rw [if_neg (by simp [hphase])]

end Sys2Proof.Machine
end

section
/-! Hangs, limits and escalation (R463 to R466, R478; O53). -/

namespace Sys2Proof.Machine

/-! ### Counters of the DIE page that a reset leaves -/

/-- The fields that the start and the cut of a reset below the die write on the pages of domains. -/
def resetPlaces : List Nat :=
  [R.CLU_GATED.code, R.PART_GATED.code, R.DIE_GATED.code, R.CLU_DRAINING.code, R.PART_DRAINING.code, R.DIE_DRAINING.code,
   R.CLU_RESTORING.code, R.PART_RESTORING.code, R.DIE_RESTORING.code, R.CLU_RSTATUS.code, R.PART_RSTATUS.code, R.DIE_RSTATUS.code,
   R.CLU_LAST_START_STAMP.code, R.PART_LAST_START_STAMP.code, R.DIE_LAST_START_STAMP.code,
   R.CLU_LAST_RELEASE_STAMP.code, R.PART_LAST_RELEASE_STAMP.code, R.DIE_LAST_RELEASE_STAMP.code,
   R.CLU_LAST_CUT_STAMP.code, R.PART_LAST_CUT_STAMP.code, R.DIE_LAST_CUT_STAMP.code,
   R.CLU_MODE.code, R.PART_MODE.code, R.DIE_MODE.code, R.CLU_CAUSE.code, R.PART_CAUSE.code, R.DIE_CAUSE.code,
   R.CLU_DRAIN_US.code, R.PART_DRAIN_US.code, R.DIE_DRAIN_US.code, R.CLU_LEFTOVER.code, R.PART_LEFTOVER.code, R.DIE_LEFTOVER.code,
   R.DIE_CORE_RESETS.code, R.DIE_CLUSTER_RESETS.code, R.DIE_PARTITION_RESETS.code, R.DIE_WARM_DIE_RESETS.code, R.DIE_GEN_WAITS.code,
   R.DIE_ANY_CUT_STAMP.code, R.DIE_ANY_SCOPE.code, R.DIE_ANY_TARGET.code, R.HBM_SELF_REFRESH.code]

/-- A counter of the DIE page that a reset leaves as it is. -/
structure Field.counts (g : Field) : Prop where
  area : g.area = 8
  plain : g.plain
  kept : survives (g.cell 0 0) = true
  place : g.code ∉ resetPlaces

theorem Field.counts.ne {g f : Field} (h : g.counts) (hf : f.code ∈ resetPlaces) : g.code ≠ f.code := fun he => h.place (by rw [he]; exact hf)

theorem hangs_counts : R.DIE_HANGS.counts := ⟨by decide, by decide, by decide +kernel, by decide⟩

theorem escalations_counts : R.DIE_ESCALATIONS.counts := ⟨by decide, by decide, by decide +kernel, by decide⟩

section
variable {g : Field} (hg : g.counts)
include hg

theorem State.rf_setDom_counts (s : State) (d : Dom) {clu part die : Field} (v : Nat) (hc : clu.code ∈ resetPlaces) (hp : part.code ∈ resetPlaces)
    (hd : die.code ∈ resetPlaces) : (s.setDom d clu part die v).rf g 0 = s.rf g 0 :=
  s.rf_setDom d v (hg.ne hc) (hg.ne hp) (hg.ne hd) 0 0

theorem State.rf_pagesReset_counts (s : State) (d : Dom) : (s.pagesReset d).rf g 0 = s.rf g 0 := by
  unfold State.pagesReset
  dsimp only
  unfold State.rf Tbl.getD
  dsimp only
  rw [Tbl.get_keep s.regs _ (g.cell 0 0), if_pos]
  split
  · rw [hg.kept, Bool.or_true]
  · rfl

theorem State.rf_cutStamped_counts (s : State) (d : Dom) (now left : Nat) : (s.cutStamped d now left).rf g 0 = s.rf g 0 := by
  unfold State.cutStamped
  dsimp only
  rw [State.rf_setDom_counts hg _ _ _ (by decide) (by decide) (by decide), State.rf_setDom_counts hg _ _ _ (by decide) (by decide) (by decide),
    State.rf_setDom_counts hg _ _ _ (by decide) (by decide) (by decide), State.rf_setDom_counts hg _ _ _ (by decide) (by decide) (by decide),
    State.rf_wf_of_code _ (hg.ne (by decide)), State.rf_wf_of_code _ (hg.ne (by decide)), State.rf_wf_of_code _ (hg.ne (by decide))]

theorem State.rf_cutPages_counts (s before : State) (x : ResetRec) : (s.cutPages before x).rf g 0 = s.rf g 0 := by
  have hlost (t : State) (cores : List Nat) : (t.each cores fun t ck => t.loseResiduals ck).rf g 0 = t.rf g 0 :=
    (State.each_frame (t.frame_refl _) fun _ _ ht => State.loseResiduals_frame (by decide) ht :
      t.Within (beside [8]) (t.each cores fun t ck => t.loseResiduals ck)).rf (by rw [hg.area]; decide)
  have hprog (t : State) : (t.mirrorProg x.dom before).rf g 0 = t.rf g 0 :=
    (State.mirrorProg_frame (by decide) (t.frame_refl _) : t.Within (beside [8]) (t.mirrorProg x.dom before)).rf (by rw [hg.area]; decide)
  have hgen (t : State) : (t.genChanged x.dom).rf g 0 = t.rf g 0 :=
    State.each_eq (fun t => t.rf g 0) (fun p _ t => t.rf_setInt_plain p 2 hg.plain 0 0) t
  unfold State.cutPages
  dsimp only
  unfold State.when
  split
  · rw [State.each_eq (fun t => t.rf g 0) (fun n _ t => t.rf_wf_of_code (hg.ne (by decide)) _ _ _ _ _), hgen, hprog, State.rf_pagesReset_counts hg, hlost]
  · rw [hgen, hprog, State.rf_pagesReset_counts hg, hlost]

/-- A cut leaves the counter. -/
theorem State.rf_cut_counts (s : State) (x : ResetRec) : (s.cut x).rf g 0 = s.rf g 0 := by
  obtain ⟨left, y, heq, -⟩ := s.cut_eq x
  rw [heq, State.rf_setRst, State.rf_cutStamped_counts hg, State.rf_cutPages_counts hg, (s.cutTaken_within x).rf (by rw [hg.area]; decide)]

theorem State.rf_cutWhenFree_counts (s : State) (x : ResetRec) : (s.cutWhenFree x).rf g 0 = s.rf g 0 := by
  unfold State.cutWhenFree
  split
  · rw [State.rf_inc_of_code _ (hg.ne (by decide)), State.rf_setRst]
  · exact State.rf_cut_counts hg s x

theorem State.rf_takeOver_counts (s : State) (d : Dom) : (s.takeOver d).2.rf g 0 = s.rf g 0 := by
  have hfold (l : List ResetRec) (t : State) : (l.foldl (fun (t : State) r => (((t.setDom r.dom R.CLU_GATED R.PART_GATED R.DIE_GATED 0).setDom r.dom
      R.CLU_DRAINING R.PART_DRAINING R.DIE_DRAINING 0).setDom r.dom R.CLU_RESTORING R.PART_RESTORING R.DIE_RESTORING 0).setDom r.dom R.CLU_RSTATUS
      R.PART_RSTATUS R.DIE_RSTATUS 5) t).rf g 0 = t.rf g 0 := by
    refine State.each_eq (fun t => t.rf g 0) (fun r _ t => ?_) t
    rw [State.rf_setDom_counts hg _ _ _ (by decide) (by decide) (by decide), State.rf_setDom_counts hg _ _ _ (by decide) (by decide) (by decide),
      State.rf_setDom_counts hg _ _ _ (by decide) (by decide) (by decide), State.rf_setDom_counts hg _ _ _ (by decide) (by decide) (by decide)]
  exact hfold _ s

theorem State.rf_gateShut_counts (s : State) (x : ResetRec) (absorb : Bool) (cause now : Nat) : (s.gateShut x absorb cause now).rf g 0 = s.rf g 0 := by
  have hcount : (resetCountF x.dom).code ∈ resetPlaces := by
    unfold resetCountF
    split <;> decide
  unfold State.gateShut
  dsimp only
  rw [State.rf_setDom_counts hg _ _ _ (by decide) (by decide) (by decide), State.rf_setDom_counts hg _ _ _ (by decide) (by decide) (by decide),
    State.rf_setDom_counts hg _ _ _ (by decide) (by decide) (by decide), State.rf_setDom_counts hg _ _ _ (by decide) (by decide) (by decide),
    State.rf_setDom_counts hg _ _ _ (by decide) (by decide) (by decide), State.rf_setDom_counts hg _ _ _ (by decide) (by decide) (by decide),
    State.rf_setDom_counts hg _ _ _ (by decide) (by decide) (by decide), State.rf_inc_of_code _ (hg.ne hcount)]
  rfl

/-- The start of a reset below the die leaves the counter. -/
theorem State.rf_startReset_counts (s : State) {dom : Dom} (h : dom ≠ .die) (absorb : Bool) (cause : Nat) (cmd : List (Nat × Nat)) :
    (s.startReset dom absorb cause cmd).rf g 0 = s.rf g 0 := by
  have hgated : (s.resetGated dom absorb cause cmd).rf g 0 = s.rf g 0 := by
    rw [State.resetGated, State.rf_setRst, State.rf_gateShut_counts hg, State.rf_takeOver_counts hg]
  rw [State.startReset_below _ h]
  split
  · rw [State.rf_cutWhenFree_counts hg, hgated]
  · exact hgated

end

/-! ### Hangs -/

theorem State.hangs_hangRec (s : State) (unit limit : Nat) : (s.hangRec unit limit).rf R.DIE_HANGS 0 = min (2 ^ 32 - 1) (s.rf R.DIE_HANGS 0 + 1) := by
  unfold State.hangRec
  rw [State.rf_logEv_plain _ _ _ _ _ (by decide)]
  exact State.rf_inc_sat _ _ rfl _ _ _

theorem State.hangRec_within (s : State) (unit limit : Nat) : s.Within (touch [1, 8] [.irqLatch, .irqs, .staging, .lostStamps]) (s.hangRec unit limit) :=
  State.hangRec_frame (by decide) (s.frame_refl _)

/-- R463: a core that no reset holds and whose cores have not been released lately: it is held, and the hang is counted. -/
theorem State.hang_of {s : State} {ck : Nat} (limit : Nat) (hfree : s.gated (.core ck) = false) (hfirst : Tbl.get? s.md.hangAt (s.physOf ck) = none) :
    (s.hang ck limit).gated (.core ck) = true ∧ (s.hang ck limit).rf R.DIE_HANGS 0 = min (2 ^ 32 - 1) (s.rf R.DIE_HANGS 0 + 1) := by
  have hne : Dom.core ck ≠ .die := Dom.noConfusion
  have hstill : (s.hangRec ck limit).gated (.core ck) = false := by rw [(s.hangRec_within _ _).gated (by decide), hfree]
  have heq : s.hang ck limit = (s.hangRec ck limit).startReset (.core ck) true 3 [] := by
    unfold State.hang
    dsimp only
    rw [hfirst]
    dsimp only
    rw [if_neg Bool.false_ne_true, if_neg (by rw [hstill]; decide)]
    exact State.beginReset_below _ hne (fun h => absurd h (by simp [Dom.kind])) _ _ _
  rw [heq, State.rf_startReset_counts hangs_counts _ hne, State.hangs_hangRec]
  exact ⟨State.gated_startReset _ hne _ _ _, rfl⟩

/-- A change that keeps resets, hangs and the die's registers comes before a hang. -/
theorem State.hang_of_within {s t : State} {m ck : Nat} (limit : Nat) (hw : s.Within m t) (hrsts : m.testBit 124 = false) (hmd : m.testBit 128 = false)
    (hmap : ∀ n, t.physOf n = s.physOf n) (hdie : m.testBit 8 = false) (hfree : s.gated (.core ck) = false)
    (hfirst : Tbl.get? s.md.hangAt (s.physOf ck) = none) :
    (t.hang ck limit).gated (.core ck) = true ∧ (t.hang ck limit).rf R.DIE_HANGS 0 = min (2 ^ 32 - 1) (s.rf R.DIE_HANGS 0 + 1) := by
  have hhang := State.hang_of (s := t) (ck := ck) limit (by rw [hw.gated hrsts, hfree]) (by rw [hw.md hmd, hmap, hfirst])
  rw [hw.rf (f := R.DIE_HANGS) (by rw [hangs_counts.area]; exact hdie)] at hhang
  exact hhang

/-- KERNEL_OVERRUN (R210). -/
theorem State.overrun_late {s : State} {v : Nat} {k : KStep} (hk : (s.vcSt v).step = some k) (honce : k.overrun = false)
    (hlate : s.kernelLimit v k ≤ s.cycles v (s.elapsed - k.firedAt)) :
    s.overrun v = (s.kernelOverrun v).2.hang v (s.kernelLimit v k) := by
  have hnow : (s.kernelOverrun v).1 = true := by
    unfold State.kernelOverrun
    dsimp only
    rw [hk]
    dsimp only
    rw [if_neg (by simp [honce, hlate])]
  unfold State.overrun
  rw [hk]
  dsimp only
  generalize s.kernelOverrun v = r at hnow ⊢
  obtain ⟨b, t⟩ := r
  dsimp only at hnow
  subst hnow
  rfl

/-- R465: the counter of discarded sets on a core's page. -/
theorem unmatched_cases (ck : Nat) : (if kindOfLogical (ck % 64) = 0 then R.MCORE_UNMATCHED else R.VCORE_UNMATCHED) = R.MCORE_UNMATCHED ∨
    (if kindOfLogical (ck % 64) = 0 then R.MCORE_UNMATCHED else R.VCORE_UNMATCHED) = R.VCORE_UNMATCHED := by
  split
  · exact .inl rfl
  · exact .inr rfl

/-- R465: a set given up: counted on the core's page and the DIE page, and a hang. -/
def State.giveUp (s : State) (f : Field) (ck limit stream : Nat) : State := (((s.inc f ck).inc R.DIE_NOBUF_GIVEUPS 0).hangRec ck limit).notice stream 3

theorem State.giveUp_of (s : State) {f : Field} (hf : f = R.MCORE_UNMATCHED ∨ f = R.VCORE_UNMATCHED) (ck limit stream : Nat) :
    (s.giveUp f ck limit stream).rf R.DIE_NOBUF_GIVEUPS 0 = min (2 ^ 32 - 1) (s.rf R.DIE_NOBUF_GIVEUPS 0 + 1) ∧
    (s.giveUp f ck limit stream).rf R.DIE_HANGS 0 = min (2 ^ 32 - 1) (s.rf R.DIE_HANGS 0 + 1) ∧
    (s.giveUp f ck limit stream).rf f ck = min (2 ^ 32 - 1) (s.rf f ck + 1) := by
  have hnotice (t : State) : t.Within _ (t.notice stream 3) := State.notice_frame (Sub.refl _) (t.frame_refl _)
  have hrec (t : State) {g : Field} (hg : g.plain) (hne : g.code ≠ R.DIE_HANGS.code) (i : Nat) : (t.hangRec ck limit).rf g i = t.rf g i := by
    rw [State.hangRec, State.rf_logEv_plain _ _ _ _ _ hg, State.rf_inc_of_code _ hne]
  unfold State.giveUp
  obtain rfl | rfl := hf
  · rw [(hnotice _).rf (by decide), (hnotice _).rf (by decide), (hnotice _).rf (by decide), State.hangs_hangRec, hrec _ (by decide) (by decide),
      hrec _ (by decide) (by decide), State.rf_inc_sat _ _ rfl, State.rf_inc_of_code _ (by decide), State.rf_inc_of_code _ (by decide),
      State.rf_inc_of_code _ (by decide), State.rf_inc_of_code _ (by decide), State.rf_inc_sat _ _ rfl]
    exact ⟨rfl, rfl, rfl⟩
  · rw [(hnotice _).rf (by decide), (hnotice _).rf (by decide), (hnotice _).rf (by decide), State.hangs_hangRec, hrec _ (by decide) (by decide),
      hrec _ (by decide) (by decide), State.rf_inc_sat _ _ rfl, State.rf_inc_of_code _ (by decide), State.rf_inc_of_code _ (by decide),
      State.rf_inc_of_code _ (by decide), State.rf_inc_of_code _ (by decide), State.rf_inc_sat _ _ rfl]
    exact ⟨rfl, rfl, rfl⟩

/-- NOBUF_LIMIT (R465). -/
theorem State.nobufLimit_late {s : State} {ck dest stream t0 a d n : Nat} {c : Chan} (hc : s.chan ck dest stream = some c) (hbuf : c.noBuf = some t0)
    (hlate : t0 + 1000000 * s.rf R.DIE_NOBUF_LIMIT_MS 0 ≤ s.elapsed) (hset : firstReady (s.waitingOn ck dest stream) = some (a, d, n)) :
    ∃ u limit str, s.Within (touch [1, 0x30, 0x31] [.irqLatch, .irqs, .staging, .lostStamps, .bufs, .dirs, .tor, .out]) u ∧
      s.nobufLimit ck dest stream = u.giveUp (if kindOfLogical (ck % 64) = 0 then R.MCORE_UNMATCHED else R.VCORE_UNMATCHED) ck limit str := by
  unfold State.nobufLimit
  rw [hc, Option.bind_some, hbuf]
  dsimp only
  rw [if_neg (by omega), hset]
  dsimp only
  simp only [decide_eq_true_eq]
  refine ⟨_, _, _, ?_, rfl⟩
  exact State.freeSet_frame (by decide) (State.setBuf_frame (by decide) (s.frame_refl _))

/-- RESET_ESCALATION of a core's reset (R463, R478). -/
theorem State.resetEscalation_core {s : State} {ck : Nat} {x : ResetRec} (hx : s.rst (.core ck) = some x) (hlate : x.startAt + 200000 < s.elapsed)
    (hescalate : s.rb R.DIE_ESCALATE 0 = true) : s.resetEscalation (.core ck) =
      (((s.resetHang (.core ck) 200000).inc R.DIE_ESCALATIONS 0).startReset (.cluster (ck / 64)) true 4 []).setInt (Dom.cluster (ck / 64)).page
        R.INT_DIE_ESCALATED := by
  have hbound : resetBound (.core ck) = 200000 := rfl
  have hparent : (Dom.core ck).parent = .cluster (ck / 64) := rfl
  unfold State.resetEscalation
  rw [hx, hescalate, hbound, hparent]
  dsimp only
  rw [if_neg (by simp [hlate]), if_neg Dom.noConfusion]

theorem State.resetEscalation_of {s : State} {ck : Nat} {x : ResetRec} (hx : s.rst (.core ck) = some x) (hlate : x.startAt + 200000 < s.elapsed)
    (hescalate : s.rb R.DIE_ESCALATE 0 = true) : (s.resetEscalation (.core ck)).gated (.cluster (ck / 64)) = true ∧
    (s.resetEscalation (.core ck)).rf R.DIE_ESCALATIONS 0 = min (2 ^ 32 - 1) (s.rf R.DIE_ESCALATIONS 0 + 1) ∧
    (s.resetEscalation (.core ck)).rf R.DIE_HANGS 0 = min (2 ^ 32 - 1) (s.rf R.DIE_HANGS 0 + 1) := by
  have hne : Dom.cluster (ck / 64) ≠ .die := Dom.noConfusion
  have hint (t : State) : t.Within (beside [124]) (t.setInt (Dom.cluster (ck / 64)).page R.INT_DIE_ESCALATED) :=
    State.setInt_frame (by decide) (page_bit (Sub.refl _) rfl (by decide) (by decide)) (t.frame_refl _)
  rw [State.resetEscalation_core hx hlate hescalate, (hint _).gated (by decide), State.gated_startReset _ hne,
    State.rf_setInt_plain _ _ _ escalations_counts.plain, State.rf_setInt_plain _ _ _ hangs_counts.plain,
    State.rf_startReset_counts escalations_counts _ hne, State.rf_startReset_counts hangs_counts _ hne, State.rf_inc_sat _ _ rfl,
    State.rf_inc_of_code _ (by decide)]
  unfold State.resetHang
  rw [State.rf_logEv_plain _ _ _ _ _ (by decide), State.rf_logEv_plain _ _ _ _ _ (by decide), State.rf_inc_of_code _ (by decide), State.rf_inc_sat _ _ rfl]
  exact ⟨rfl, rfl, rfl⟩

/-- Settles O53: a hang starts a reset that holds the core and is counted; a reset past its bound becomes its parent's. -/
theorem hangsAndLimitsComplete : Obligations.HangsAndLimitsComplete := by
  unfold Obligations.HangsAndLimitsComplete
  refine ⟨?_, ?_, ?_, ?_, ?_⟩
  · intro v k s hk honce hlate hfree hfirst
    have hw : s.Within (touch [1, 0x14] [.irqLatch, .irqs, .staging, .lostStamps, .vc]) (s.kernelOverrun v).2 :=
      State.kernelOverrun_frame (by decide) (s.frame_refl _)
    refine completes_of_next rfl ?_
    rw [State.overrun_late hk honce hlate]
    exact State.hang_of_within _ hw (by decide) (by decide) (hw.physOf (by decide)) (by decide) hfree hfirst
  · intro ck s hscore hrun hfree hlate hfirst
    have hint : s.Within (touch [0x15] [.irqLatch, .irqs]) (s.setInt (scorePage ck) R.INT_SCORE_HEARTBEAT_LOST) :=
      State.setInt_frame (by decide) (page_bit (Sub.refl _) rfl (by decide) (by decide)) (s.frame_refl _)
    obtain ⟨hgated, hhangs⟩ := State.hang_of_within (s.rf R.SCORE_HEARTBEAT_LIMIT ck) hint (by decide) (by decide) (hint.physOf (by decide)) (by decide)
      hfree hfirst
    have hrest (t : State) : t.Within _ (t.handover ck) := State.handover_frame (Sub.refl _) (t.frame_refl _)
    refine completes_of_next rfl ?_
    rw [State.heartbeatLost, if_neg (by simp [hscore, hrun, hfree, hlate]), (hrest _).gated (by decide), (hrest _).rf (by decide)]
    exact ⟨hgated, hhangs⟩
  · intro ck id waited x s hstep hlate hdone hfree hfirst
    refine completes_of_next rfl ?_
    unfold State.stepWatchdog
    dsimp only
    rw [hstep]
    dsimp only
    rw [if_neg (by simp [hdone, hlate])]
    exact State.hang_of _ hfree hfirst
  · intro ck dest stream t0 a d n c s hc hbuf hlate hset
    obtain ⟨u, limit, str, hw, heq⟩ := State.nobufLimit_late hc hbuf hlate hset
    have hgive := u.giveUp_of (unmatched_cases ck) ck limit str
    have hunmatched : u.rf (if kindOfLogical (ck % 64) = 0 then R.MCORE_UNMATCHED else R.VCORE_UNMATCHED) ck =
        s.rf (if kindOfLogical (ck % 64) = 0 then R.MCORE_UNMATCHED else R.VCORE_UNMATCHED) ck := by
      obtain h | h := unmatched_cases ck
      · rw [h, hw.rf (by decide)]
      · rw [h, hw.rf (by decide)]
    rw [hunmatched, hw.rf (by decide), hw.rf (by decide), ← heq] at hgive
    exact completes_of_next rfl hgive
  · exact fun ck x s hx hlate hescalate => completes_of_next rfl (State.resetEscalation_of hx hlate hescalate)

end Sys2Proof.Machine
end

section
/-! What frames that leave on the torus keep (R362 to R375), and credits between modules (R368; O45). -/

namespace Sys2Proof.Machine

/-! ### What a frame that leaves keeps -/

/-- R363, R376: a direction awaits the same frame and is up or failed as before. -/
def DirSt.sameLink (x y : DirSt) : Prop := y.expect = x.expect ∧ y.upSince = x.upSince ∧ y.failedAt = x.failedAt

theorem DirSt.sameLink.refl (x : DirSt) : x.sameLink x := ⟨rfl, rfl, rfl⟩

theorem DirSt.sameLink.trans {x y z : DirSt} (h : x.sameLink y) (g : y.sameLink z) : x.sameLink z :=
  ⟨g.1.trans h.1, g.2.1.trans h.2.1, g.2.2.trans h.2.2⟩

/-- The fields that frames on their way write: counters, and the notices' stamps. -/
def linkPlaces : List Nat :=
  [R.BORSAN_FRAMES_TX.code, R.BORSAN_UNROUTABLE.code, R.BORSAN_DETOURED.code, R.BORSAN_DETOURING.code, R.BORSAN_TRANSIT_REDIRECTS.code,
   R.TORUS_LAST_LSN_STAMP.code, R.TORUS_SWITCH_STAMP.code, R.TORUS_SWITCH_PENDING.code, R.TORUS_LINKS_DOWN.code]

/-- A register field that frames on their way leave. -/
abbrev Field.offLink (g : Field) : Prop := g.plain ∧ g.code ∉ linkPlaces

theorem Field.offLink.ne {g f : Field} (h : g.offLink) (hf : f.code ∈ linkPlaces) : g.code ≠ f.code := fun he => h.2 (by rw [he]; exact hf)

/-- What frames sent, forwarded and flooded leave: the other registers, what each direction awaits, and the retired units. -/
structure State.Carries (s t : State) : Prop where
  rf : ∀ g : Field, g.offLink → ∀ j l, t.rf g j l = s.rf g j l
  dir : ∀ d, (s.dirSt d).sameLink (t.dirSt d)
  retired : t.tor.retired = s.tor.retired

theorem State.Carries.refl (s : State) : s.Carries s := ⟨fun _ _ _ _ => rfl, fun _ => .refl _, rfl⟩

theorem State.Carries.trans {s t u : State} (h : s.Carries t) (g : t.Carries u) : s.Carries u :=
  ⟨fun f hf j l => (g.rf f hf j l).trans (h.rf f hf j l), fun d => (h.dir d).trans (g.dir d), g.retired.trans h.retired⟩

theorem State.Carries.linkUp {s t : State} (h : s.Carries t) (d : Nat) : t.linkUp d = s.linkUp d := by
  rw [State.linkUp, h.rf _ (by decide), ← State.linkUp]

/-- A change of register fields on the way only. -/
theorem State.carries_of {s t : State} (hrf : ∀ g : Field, g.offLink → ∀ j l, t.rf g j l = s.rf g j l) (hdirs : t.dirs = s.dirs) (htor : t.tor.retired = s.tor.retired) :
    s.Carries t := ⟨hrf, fun d => by unfold State.dirSt; rw [hdirs]; exact .refl _, htor⟩

theorem State.carries_wf (s : State) {f : Field} (hf : f.code ∈ linkPlaces) (i v k : Nat) : s.Carries (s.wf f i v k) :=
  State.carries_of (fun _ hg _ _ => State.rf_wf_of_code _ (hg.ne hf) _ _ _ _ _) rfl rfl

theorem State.carries_inc (s : State) {f : Field} (hf : f.code ∈ linkPlaces) (i : Nat) (n k : Nat) : s.Carries (s.inc f i n k) :=
  State.carries_of (fun _ hg _ _ => State.rf_inc_of_code _ (hg.ne hf) _ _ _ _ _) (State.inc_dirs _ _ _ _ _) (congrArg _ (State.inc_tor _ _ _ _ _))

theorem State.carries_emit (s : State) (o : Out) : s.Carries (s.emit o) := State.carries_of (fun _ _ _ _ => rfl) rfl rfl

theorem State.carries_setInt (s : State) (p : Page) (b : Nat) : s.Carries (s.setInt p b) := by
  obtain ⟨r, l, q, h⟩ := s.setInt_eq p b
  refine State.carries_of (fun _ hg _ _ => s.rf_setInt_plain p b hg.1 _ _) ?_ ?_
  · rw [h]
  · rw [h]

theorem State.rf_blockErr_plain (s : State) (p : Page) (cause addr data ints : Nat) {g : Field} (hg : g.plain) (j l : Nat) :
    (s.blockErr p cause addr data ints).rf g j l = s.rf g j l := by
  rw [State.blockErr, State.rf_unitEv_plain _ _ _ _ _ _ hg, State.rf_setInts_plain _ _ _ hg, State.rf_capture_body _ _ _ _ _ _ _ hg.1]

theorem State.carries_blockErr (s : State) (p : Page) (cause addr data ints : Nat) : s.Carries (s.blockErr p cause addr data ints) := by
  have hw : s.Within (2 ^ 80 - 1 + 2 ^ 83 + 2 ^ 84 + 2 ^ 85 + 2 ^ 86) (s.blockErr p cause addr data ints) :=
    State.blockErr_frame (by decide) (Sub.anyPage (Sub.refl _) (by decide) p) (s.frame_refl _)
  exact State.carries_of (fun _ hg _ _ => s.rf_blockErr_plain p cause addr data ints hg.1 _ _) (hw.dirs (by decide)) (congrArg _ (hw.tor (by decide)))

/-- A direction's record changed, but not what it awaits. -/
theorem State.carries_setDir (s : State) (d : Nat) {x : DirSt} (h : (s.dirSt d).sameLink x) : s.Carries (s.setDir d x) := by
  refine ⟨fun _ _ _ _ => rfl, fun e => ?_, rfl⟩
  unfold State.dirSt State.setDir at *
  by_cases he : e = d
  · subst he
    rw [Tbl.getD_put_same]
    exact h
  · rw [Tbl.getD_put_ne _ _ _ he]
    exact .refl _

/-- A change of the torus record that keeps the retired units. -/
theorem State.carries_tor (s : State) (x : TorusSt) (h : x.retired = s.tor.retired) : s.Carries { s with tor := x } :=
  State.carries_of (fun _ _ _ _ => rfl) rfl h

theorem State.Carries.each {α : Type} {l : List α} {f : State → α → State} (h : ∀ x t, State.Carries t (f t x)) (s : State) : s.Carries (s.each l f) :=
  State.each_ind (fun t => s.Carries t) (.refl s) fun x _ t ht => ht.trans (h x t)

theorem State.Carries.ite {s t u : State} {c : Prop} [Decidable c] (ht : s.Carries t) (hu : s.Carries u) : s.Carries (if c then t else u) := by
  split
  · exact ht
  · exact hu

theorem State.Carries.when {s t : State} {f : State → State} (b : Bool) (ht : s.Carries t) (hf : ∀ u, State.Carries u (f u)) : s.Carries (t.when b f) := by
  cases b
  · exact ht
  · exact ht.trans (hf t)

/-! ### The functions that send -/

theorem State.carries_transmit (s : State) (d : Nat) (f : Frame) : s.Carries (s.transmit d f) := by
  unfold State.transmit
  dsimp only
  refine ((State.carries_setDir s d ?_).trans (State.carries_inc _ (by decide) _ _ _)).trans (State.carries_emit _ _)
  split <;> exact ⟨rfl, rfl, rfl⟩

theorem State.carries_txPump (d fuel : Nat) : ∀ s : State, s.Carries (s.txPump d fuel) := by
  induction fuel with
  | zero => exact .refl
  | succ fuel ih =>
    intro s
    unfold State.txPump
    dsimp only
    split
    · exact .refl s
    · exact ((State.carries_setDir s d (by exact ⟨rfl, rfl, rfl⟩)).trans (State.carries_transmit _ _ _)).trans (ih _)

theorem State.carries_borsanTx (s : State) (d : Nat) (f : Frame) : s.Carries (s.borsanTx d f) := by
  unfold State.borsanTx
  split
  · exact s.carries_transmit d f
  · exact (State.carries_setDir s d (by exact ⟨rfl, rfl, rfl⟩)).trans (State.carries_txPump _ _ _)

theorem State.carries_vcReturn (s : State) (d vc n : Nat) : s.Carries (s.vcReturn d vc n) :=
  (State.carries_setDir s d (by exact ⟨rfl, rfl, rfl⟩)).trans (State.carries_txPump _ _ _)

theorem State.carries_leaveBy (s : State) (d : Nat) (f was : Frame) : s.Carries (s.leaveBy d f was) := by
  unfold State.leaveBy
  dsimp only
  have hfirst : s.Carries (if f.detoured ∧ ¬ was.detoured then
      ((s.inc R.BORSAN_DETOURED (d ^^^ 1)).setInt (borsanPage (d ^^^ 1)) R.INT_BORSAN_DETOUR).wf R.BORSAN_DETOURING (d ^^^ 1) 1 else s) :=
    .ite (((State.carries_inc _ (by decide) _ _ _).trans (State.carries_setInt _ _ _)).trans (State.carries_wf _ (by decide) _ _ _)) (.refl s)
  refine hfirst.trans (.ite (State.carries_setDir _ d ?_) (State.carries_borsanTx _ _ _))
  exact ⟨rfl, rfl, rfl⟩

theorem State.carries_sendNotice (s : State) (src : Nat) (ws : List Nat) : s.Carries (s.sendNotice src ws) := by
  have hway (f : Frame) (o : Option (Nat × Frame)) : s.Carries (match o with
      | none => s
      | some (d, g) => s.leaveBy d g f) := by
    cases o
    · exact .refl s
    · exact s.carries_leaveBy _ _ _
  unfold State.sendNotice
  exact .ite (s.carries_emit _) (.ite (hway _ _) (.refl s))

theorem State.carries_unroutable (s : State) (u : Nat) (f : Frame) : s.Carries (s.unroutable u f) := by
  unfold State.unroutable
  dsimp only
  refine .ite ?_ ?_
  · exact (((s.carries_inc (by decide) _ _ _).trans (State.carries_blockErr _ _ _ _ _ _)).trans (State.carries_emit _ _)).trans (State.carries_sendNotice _ _ _)
  · exact (s.carries_inc (by decide) _ _ _).trans (State.carries_blockErr _ _ _ _ _ _)

theorem State.carries_forward (s : State) (u : Nat) (inDim : Option Nat) (f : Frame) : s.Carries (s.forward u inDim f) := by
  unfold State.forward
  split
  · exact s.carries_unroutable u f
  · exact (State.Carries.ite (s.carries_inc (by decide) _ _ _) (.refl s)).trans (State.carries_leaveBy _ _ _ _)

theorem State.carries_sendFrame (s : State) (u : Nat) (f : Frame) : s.Carries (s.sendFrame u f) := by
  unfold State.sendFrame
  dsimp only
  exact .ite (s.carries_unroutable _ _) (.ite (s.carries_tor _ rfl) (s.carries_forward _ _ _))

theorem State.carries_flood (s : State) (l : Lsn) (but : Option Nat) : s.Carries (s.flood l but) :=
  State.Carries.each (fun d t => .ite (t.carries_transmit d _) (.refl t)) s

theorem State.carries_schedule (s : State) (n : Nat) : s.Carries (s.schedule n) :=
  (s.carries_wf (f := R.TORUS_SWITCH_STAMP) (by decide) _ _ _).trans (State.carries_wf _ (f := R.TORUS_SWITCH_PENDING) (by decide) _ _ _)

theorem State.carries_countLinks (s : State) : s.Carries s.countLinks := s.carries_wf (f := R.TORUS_LINKS_DOWN) (by decide) _ _ _

theorem State.carries_storeLsn (s : State) (l : Lsn) : s.Carries (s.storeLsn l) := by
  have hdb : s.Carries { s with tor := { s.tor with db := l :: s.tor.db.filter fun x => !(x.origin = l.origin && x.dir = l.dir) } } :=
    s.carries_tor _ rfl
  unfold State.storeLsn
  dsimp only
  generalize ({ s with tor := { s.tor with db := l :: s.tor.db.filter fun x => !(x.origin = l.origin && x.dir = l.dir) } } : State) = u at hdb
  have hstamp : s.Carries ((u.wf R.TORUS_LAST_LSN_STAMP 0 l.stamp).setInt (torusPage 0) R.INT_TORUS_LSN) :=
    (hdb.trans (u.carries_wf (f := R.TORUS_LAST_LSN_STAMP) (by decide) _ _ _)).trans (State.carries_setInt _ _ _)
  exact (State.Carries.when _ hstamp fun u => u.carries_schedule _).trans (State.carries_countLinks _)

theorem State.carries_ownLsn (s : State) (d st : Nat) : s.Carries (s.ownLsn d st) := by
  have hseq (q : Nat) : s.Carries { s with tor := { s.tor with lsnSeq := Tbl.put s.tor.lsnSeq d q } } := s.carries_tor _ rfl
  unfold State.ownLsn
  exact ((hseq _).trans (State.carries_storeLsn _ _)).trans (State.carries_flood _ _ _)

/-! ### Messages to other modules, R367, R368 -/

theorem State.carries_setSlot (s : State) (src : Nat) (r : Option RSlot) : s.Carries (s.setSlot src r) := s.carries_tor _ rfl

theorem State.carries_contribute (s : State) (u coll : Nat) (ws : List Nat) : s.Carries (s.contribute u coll ws) := by
  unfold State.contribute
  dsimp only
  exact .ite (.refl s) (s.carries_tor _ rfl)

theorem State.carries_egress (s : State) (kind dest : Nat) (ws : List Nat) : s.Carries (s.egress kind dest ws) := by
  have hlost (u : Nat) : s.Carries ((s.inc R.BORSAN_UNROUTABLE u).blockErr (borsanPage u) 0x12 dest 0 (2 ^ R.INT_BORSAN_UNROUTABLE)) :=
    (s.carries_inc (by decide) _ _ _).trans (State.carries_blockErr _ _ _ _ _ _)
  unfold State.egress
  exact .ite (.ite ((hlost _).trans (State.carries_emit _ _)) (hlost _)) (.ite (.ite (s.carries_contribute _ _ _) (s.carries_emit _)) (s.carries_sendFrame _ _))

theorem State.carries_backward (s : State) (kind src : Nat) (ws : List Nat) : s.Carries (s.backward kind src ws) := by
  unfold State.backward
  split
  · exact .refl s
  · exact (State.Carries.ite (s.carries_setSlot _ _) (.ite (s.carries_setSlot _ _) (.refl s))).trans (State.carries_sendFrame _ _ _)

/-- R367, R368: a message of the mesh leaves what frames on their way leave. -/
theorem State.carries_mesh (s : State) (kind dest : Nat) (ws : List Nat) : s.Carries (s.mesh kind dest ws) :=
  .ite (s.carries_egress _ _ _) (.ite (s.carries_backward _ _ _) (s.carries_emit _))

/-! ### A unit retired, R449 -/

theorem State.retired_each_mesh {α : Type} (s : State) (l : List α) (k : Nat) (dest : α → Nat) (ws : α → List Nat) :
    (s.each l fun t c => t.mesh k (dest c) (ws c)).tor.retired = s.tor.retired :=
  State.each_eq (fun t => t.tor.retired) (fun c _ t => (t.carries_mesh _ _ _).retired) s

/-- The messages of a cut (R449): credits returned by the module's producers and remote slots, and to its consumers. -/
def State.cutMessages (s : State) (dom : Dom) (ck : Nat) : State :=
  let gen := s.coreGen ck
  let prods := s.chans.filter fun c => c.dest = ck && 0 < c.credits
  let s1 := s.each prods fun t c => t.mesh 3 c.core [ck, c.stream, 0, gen]
  let rem := s1.tor.slots.filter fun r => r.2.target = ck && 0 < r.2.credits
  let s2 := s1.each rem fun t r => t.mesh 3 (0x8000 + r.1) [ck, r.2.stream, 0, gen]
  let out := s2.chans.filter fun c => c.core = ck && 0 < c.credits && !(destLocal c.dest && dom.contains (.core c.dest))
  s2.each out fun t c => t.mesh 4 c.dest [ck, c.stream, c.credits, c.gen]

/-- The state of a cut core without its channels, buffers and pools. -/
def State.cutEmptied (s : State) (ck : Nat) : State :=
  { s with
    chans := s.chans.filter fun c => c.core ≠ ck
    bufs := Tbl.update s.bufs (fun k b => if k / 512 = ck then { b with pips := [], used := 0 } else b)
    pools := Tbl.keep s.pools fun k _ => k / 16384 / 32768 ≠ ck }

/-- The core's own state after a cut, by its kind. -/
def State.cutOwn (s : State) (ck : Nat) : State :=
  if kindOfLogical (ck % 64) = 0 then
    (s.each (List.range 16) fun t n => t.dropTile (engInst ck n)).setMc ck { nextId := (s.mcSt ck).nextId }
  else if kindOfLogical (ck % 64) = 1 then s.setVc ck {}
  else s.setSc ck {}

theorem State.cutCore_eq (s : State) (dom : Dom) (ck : Nat) : s.cutCore dom ck = ((s.cutMessages dom ck).cutEmptied ck).cutOwn ck := rfl

theorem State.retired_cutMessages (s : State) (dom : Dom) (ck : Nat) : (s.cutMessages dom ck).tor.retired = s.tor.retired := by
  unfold State.cutMessages
  dsimp only
  rw [State.retired_each_mesh, State.retired_each_mesh, State.retired_each_mesh]

theorem State.tor_cutOwn (s : State) (ck : Nat) : (s.cutOwn ck).tor = s.tor := by
  unfold State.cutOwn
  split
  · have hdrop : (s.each (List.range 16) fun t n => t.dropTile (engInst ck n)).tor = s.tor :=
      State.each_eq State.tor (fun n _ t => (State.dropTile_frame (Sub.refl _) (t.frame_refl _) : t.Within _ (t.dropTile (engInst ck n))).tor (by decide)) s
    generalize (s.each (List.range 16) fun t n => t.dropTile (engInst ck n)) = u at hdrop ⊢
    exact ((State.setMc_frame (Sub.refl _) (u.frame_refl _) : u.Within _ (u.setMc ck _)).tor (by decide)).trans hdrop
  · split
    · exact (State.setVc_frame (Sub.refl _) (s.frame_refl _) : s.Within _ (s.setVc ck {})).tor (by decide)
    · exact (State.setSc_frame (Sub.refl _) (s.frame_refl _) : s.Within _ (s.setSc ck {})).tor (by decide)

theorem State.retired_cutCore (s : State) (dom : Dom) (ck : Nat) : (s.cutCore dom ck).tor.retired = s.tor.retired := by
  rw [State.cutCore_eq, State.tor_cutOwn]
  exact s.retired_cutMessages dom ck

/-- A change that keeps the torus record. -/
theorem State.retired_of_tor {s t : State} (h : t.tor = s.tor) : t.tor.retired = s.tor.retired := by rw [h]

theorem State.retired_leaveCut (s : State) : s.leaveCut.tor.retired = s.tor.retired := by
  have hlost (t : State) (l : List Req) : (t.each l fun t r => t.endLost r.id stInterrupted).tor = t.tor :=
    State.each_eq State.tor (fun r _ t => (State.endLost_frame (Sub.refl _) (t.frame_refl _) : t.Within _ (t.endLost r.id stInterrupted)).tor (by decide)) t
  have hclock (t : State) (ck : Nat) : (t.clockPoint ck).tor = t.tor :=
    (State.clockPoint_frame (Sub.refl _) (t.frame_refl _) : t.Within _ (t.clockPoint ck)).tor (by decide)
  have hcut (t : State) (l : List Nat) : (t.each l fun t ck => t.cutCoreClock .die ck).tor.retired = t.tor.retired :=
    State.each_eq (fun t => t.tor.retired) (fun ck _ t => by rw [State.cutCoreClock, hclock, State.retired_cutCore]) t
  unfold State.leaveCut
  dsimp only
  rw [State.each_eq (fun t => t.tor.retired) (fun v _ t => ?_), hcut, hlost]
  split
  · exact State.each_eq (fun t => t.tor.retired) (fun st _ t => (t.carries_sendNotice _ _).retired) t
  · rfl

theorem State.retired_withdrawTorus (s : State) : s.withdrawTorus.tor.retired = s.tor.retired := by
  have hown : (s.each (List.range 6) fun t d => t.ownLsn d 3).tor.retired = s.tor.retired :=
    State.each_eq (fun t => t.tor.retired) (fun d _ t => (t.carries_ownLsn _ _).retired) s
  unfold State.withdrawTorus
  generalize (s.each (List.range 6) fun t d => t.ownLsn d 3) = u at hown ⊢
  exact hown

theorem State.retired_leaveProceed (s : State) : s.leaveProceed.tor.retired = s.tor.retired :=
  (State.retired_withdrawTorus _).trans s.retired_leaveCut

theorem State.retired_dieFailure (s : State) (cause detail : Nat) : (s.dieFailure cause detail).tor.retired = s.tor.retired := by
  have hstate (t : State) (n : Nat) : (t.setModState n).tor = t.tor :=
    (State.setModState_frame (Sub.refl _) (t.frame_refl _) : t.Within _ (t.setModState n)).tor (by decide)
  have hgate (t : State) : t.leaveGate.tor = t.tor := (State.leaveGate_frame (Sub.refl _) (t.frame_refl _) : t.Within _ t.leaveGate).tor (by decide)
  unfold State.dieFailure
  dsimp only
  split
  · rw [State.retired_leaveProceed, hgate]
    rfl
  · split
    · split
      · rw [State.retired_leaveProceed]
        rfl
      · rfl
    · split
      · rfl
      · rw [hstate]
        rfl

/-- R449: a unit that stands is retired. -/
theorem State.retired_retireUnit {s : State} {u : Nat} (hu : u < 6) (hnew : u ∉ s.tor.retired) : (s.retireUnit u).tor.retired = u :: s.tor.retired := by
  unfold State.retireUnit
  rw [if_neg (by simp [hnew]; omega)]
  dsimp only
  split
  · rw [State.retired_dieFailure]
  · rfl

/-! ### Credits between modules, R368 -/

/-- REMOTE_CREDIT_REQ with a slot (R368). -/
theorem State.remoteCreditReq_of {s : State} {u k : Nat} {f : Frame}
    (h : s.findSlot u { module := f.src, producer := f.words.getD 0 0, pdest := f.words.getD 1 0, target := f.words.getD 2 0, stream := f.words.getD 3 0 } = some k) :
    (Tbl.get? (s.remoteCreditReq u f).tor.slots k).isSome = true ∧
    (s.remoteCreditReq u f).out = .mesh 1 (f.words.getD 2 0) [0x8000 + k, f.words.getD 3 0, f.words.getD 4 0, f.words.getD 5 0] :: s.out := by
  unfold State.remoteCreditReq
  dsimp only
  rw [h]
  dsimp only
  split
  · rename_i hslot
    exact ⟨hslot, rfl⟩
  · refine ⟨?_, rfl⟩
    simp [State.setSlot, State.emit]

/-- R368: a slot with credits left after a release. -/
theorem State.slotSub_left {s : State} {k n : Nat} {r : RSlot} (h : Tbl.get? s.tor.slots k = some r) (hn : n < r.credits) :
    s.slotSub (0x8000 + k) n = s.setSlot (0x8000 + k) (some { r with credits := r.credits - n }) := by
  unfold State.slotSub State.rslot
  rw [if_neg (by omega), Nat.add_sub_cancel_left, h]
  dsimp only
  rw [if_neg (by omega)]

/-- Settles O45: credits between modules, and the notices of units and streams. -/
theorem remoteCreditsComplete : Obligations.RemoteCreditsComplete := by
  unfold Obligations.RemoteCreditsComplete
  refine ⟨?_, ?_, ?_, ?_⟩
  · intro u k f s hu h
    refine completes_of_next rfl ?_
    rw [Nat.mod_eq_of_lt hu]
    exact State.remoteCreditReq_of h
  · exact fun u f s hu => completes_of_next rfl (if_pos hu)
  · intro u f e s hu hmem hget hcredits hfind
    refine completes_of_next rfl ?_
    rw [Nat.mod_eq_of_lt hu]
    refine ⟨fun h0 => ?_, fun h0 => ?_⟩
    · unfold State.remoteCreditReturn
      dsimp only
      rw [if_pos h0]
    · unfold State.remoteCreditReturn
      dsimp only
      rw [if_neg h0, hfind]
      dsimp only
      rw [State.slotSub_left hget hcredits]
      refine ⟨rfl, ?_⟩
      simp [State.setSlot, State.emit]
  · intro f s hdest
    refine completes_of_next rfl ⟨fun hret hu hnew => ?_, fun hret hhead => ?_⟩
    · unfold State.noticeFrame
      rw [if_neg (by simp [hdest]), if_pos hret]
      exact State.retired_retireUnit hu hnew
    · unfold State.noticeFrame
      rw [if_neg (by simp [hdest]), if_neg hret, hhead]
      dsimp only
      rw [if_pos rfl]

end Sys2Proof.Machine
end

section
/-! Frames of a Borsan link (R363 to R366; O44): in sequence, acknowledged, asked for again, and the time frames. -/

namespace Sys2Proof.Machine

theorem State.dirSt_setDir_same (s : State) (d : Nat) (x : DirSt) : (s.setDir d x).dirSt d = x := Tbl.getD_put_same _ _ _ _

theorem State.dirSt_of_dirs {s t : State} (h : t.dirs = s.dirs) (d : Nat) : t.dirSt d = s.dirSt d := by unfold State.dirSt; rw [h]

/-! ### BORSAN_FRAME_RECEIVE, R363 -/

/-- R357: what the FEC counters of the lanes have counted since the last frame. -/
def State.fecCounted (s : State) (d : Nat) (fec : List (Nat × Nat × Nat)) : State :=
  s.each (fec.filter fun e => e.1 < 9) fun t e => (t.inc R.BORSAN1_FEC_CORRECTED d e.2.1 e.1).inc R.BORSAN1_FEC_UNCORRECTED d e.2.2 e.1

theorem State.dirs_fecCounted (s : State) (d : Nat) (fec : List (Nat × Nat × Nat)) : (s.fecCounted d fec).dirs = s.dirs :=
  State.each_eq State.dirs (fun _ _ t => by rw [State.inc_dirs, State.inc_dirs]) s

theorem State.rf_fecCounted (s : State) (d : Nat) (fec : List (Nat × Nat × Nat)) {g : Field}
    (h : g.code ≠ R.BORSAN1_FEC_CORRECTED.code ∧ g.code ≠ R.BORSAN1_FEC_UNCORRECTED.code) (j l : Nat) :
    (s.fecCounted d fec).rf g j l = s.rf g j l :=
  State.each_eq (fun t => t.rf g j l) (fun _ _ t => by rw [State.rf_inc_of_code _ h.2, State.rf_inc_of_code _ h.1]) s

theorem State.carries_borsanAck (s : State) (d seq : Nat) : s.Carries (s.borsanAck d seq) :=
  .ite ((s.carries_setDir d (by exact ⟨rfl, rfl, rfl⟩)).trans (State.carries_txPump _ _ _)) (.refl s)

theorem State.carries_ingress (s : State) (u : Nat) (f : Frame) : s.Carries (s.ingress u f) := s.carries_emit _

/-- The direction after the frame in sequence has been frameTaken. -/
def State.frameTaken (s : State) (d : Nat) : State :=
  (s.setDir d { s.dirSt d with expect := ((s.dirSt d).expect + 1) % 2 ^ 24 }).inc R.BORSAN_FRAMES_RX d

/-- R363: after a frame in sequence, only what its acknowledgement, its credits and its way on bring. -/
theorem State.borsanReceive_of {s : State} {d : Nat} {f : Frame} {fec : List (Nat × Nat × Nat)} (hup : s.linkUp d = true)
    (hplain : ¬ (f.cls = 0 ∧ (f.typ = 1 ∨ f.typ = 2))) (hseq : f.seq = (s.dirSt d).expect) :
    ((s.fecCounted d fec).frameTaken d).Carries (s.borsanReceive d f true fec) := by
  have hx : ((s.fecCounted d fec).dirSt d) = s.dirSt d := State.dirSt_of_dirs (s.dirs_fecCounted d fec) d
  unfold State.borsanReceive
  rw [if_neg (by simp [hup])]
  dsimp only
  rw [if_neg (by decide), if_neg (by rw [← State.fecCounted, hx, hseq]; simp), if_neg (show ¬ decide (f.cls = 0 ∧ (f.typ = 1 ∨ f.typ = 2)) = true by simpa using hplain), ← State.fecCounted]
  generalize s.fecCounted d fec = u
  change (u.frameTaken d).Carries (if f.cls = 0 then _ else _)
  have hfour : (u.frameTaken d).Carries ((((u.frameTaken d).when f.ackValid fun t => t.borsanAck d f.ackSeq).when (decide (f.creditCount ≠ 0)) fun t =>
      t.vcReturn d f.creditVc f.creditCount).when (!decide (f.cls = 0 ∧ (f.typ = 1 ∨ f.typ = 2))) fun t =>
      t.transmit d { cls := 0, typ := 1, creditVc := if f.cls = 0 then 0 else frameVc f, creditCount := if f.cls = 0 then 0 else frameUnits f }) :=
    .when _ (.when _ (.when _ (.refl _) fun t => t.carries_borsanAck d _) fun t => t.carries_vcReturn d _ _) fun t => t.carries_transmit d _
  exact .ite hfour (.ite (.ite (hfour.trans (State.carries_ingress _ _ _)) hfour) (hfour.trans (State.carries_forward _ _ _ _)))

theorem State.dirSt_frameTaken (s : State) (d : Nat) : (s.frameTaken d).dirSt d = { s.dirSt d with expect := ((s.dirSt d).expect + 1) % 2 ^ 24 } :=
  (State.dirSt_of_dirs (State.inc_dirs _ _ _ _ _) d).trans (s.dirSt_setDir_same d _)

theorem State.rf_frameTaken (s : State) (d : Nat) : (s.frameTaken d).rf R.BORSAN_FRAMES_RX d = (s.rf R.BORSAN_FRAMES_RX d + 1) % 2 ^ 64 :=
  State.rf_inc_wrap _ _ (by decide) _ _ _

/-! ### BORSAN_NAK, R363 -/

/-- R363: frames sent again are counted and go out. -/
theorem State.carries_resend (s : State) (d : Nat) (l : List (Frame × Nat)) :
    s.Carries (s.each l fun t e => (t.inc R.BORSAN_FRAMES_TX d).emit (.borsan d (e.1.cls * 8 + e.1.typ) e.1.dest (frameHeader e.1 ++ e.1.words))) :=
  State.Carries.each (fun _ t => (t.carries_inc (by decide) _ _ _).trans (State.carries_emit _ _)) s

theorem State.dirs_resend (s : State) (d : Nat) (l : List (Frame × Nat)) :
    (s.each l fun t e => (t.inc R.BORSAN_FRAMES_TX d).emit (.borsan d (e.1.cls * 8 + e.1.typ) e.1.dest (frameHeader e.1 ++ e.1.words))).dirs = s.dirs :=
  State.each_eq State.dirs (fun _ _ t => by unfold State.emit; dsimp only; exact t.inc_dirs _ _ _ _) s

/-- R363: with no frame sent eight times, the frames from the one named on wait again, each sent once more. -/
theorem State.borsanNak_of {s : State} {d seq : Nat} (hup : s.linkUp d = true) (hfew : ∀ e ∈ (s.dirSt d).retry, psnLe seq e.1.seq = true → e.2 < 8) :
    ((s.borsanNak d seq).dirSt d).retry = (((s.dirSt d).retry.filter fun e => psnLe seq e.1.seq).map fun e => (e.1, e.2 + 1)) ∧
    (s.borsanNak d seq).rf R.BORSAN_RETRIES d = min (2 ^ 32 - 1) (s.rf R.BORSAN_RETRIES d + ((s.dirSt d).retry.filter fun e => psnLe seq e.1.seq).length) := by
  have hnone : ¬ (((s.dirSt d).retry.filter fun e => psnLe seq e.1.seq).any fun e => 8 ≤ e.2) = true := by
    simp only [List.any_eq_true, List.mem_filter, decide_eq_true_eq, not_exists, not_and, not_le]
    exact fun e he => hfew e he.1 he.2
  unfold State.borsanNak
  rw [if_neg (by simp [hup])]
  dsimp only
  rw [if_neg hnone]
  refine ⟨?_, ?_⟩
  · rw [State.dirSt_of_dirs ((State.dirs_resend _ _ _).trans (State.inc_dirs _ _ _ _ _)), State.dirSt_setDir_same]
  · have hint : (s.setInt (borsanPage d) R.INT_BORSAN_RETRY).rf R.BORSAN_RETRIES d = s.rf R.BORSAN_RETRIES d := s.rf_setInt_plain _ _ (by decide) _ _
    have hset (u : State) (x : DirSt) : (u.setDir d x).rf R.BORSAN_RETRIES d = u.rf R.BORSAN_RETRIES d := rfl
    rw [(State.carries_resend _ _ _).rf _ (by decide), State.rf_inc_sat _ _ (by decide), hset, hint, show R.BORSAN_RETRIES.len = 32 from rfl]

/-! ### Time frames, R365, R366 -/

/-- R363: a frame that is not an acknowledgement takes the next sequence number. -/
theorem State.dirSt_transmit {s : State} {d : Nat} {f : Frame} (h : (f.cls = 0 && (f.typ = 1 || f.typ = 2)) = false) :
    ((s.transmit d f).dirSt d).timeAt = (s.dirSt d).timeAt ∧ ((s.transmit d f).dirSt d).nextSeq = ((s.dirSt d).nextSeq + 1) % 2 ^ 24 := by
  have hdirs (u : State) (o : Out) : ((u.inc R.BORSAN_FRAMES_TX d).emit o).dirSt d = u.dirSt d := State.dirSt_of_dirs (u.inc_dirs _ _ _ _) d
  unfold State.transmit
  dsimp only
  rw [hdirs, State.dirSt_setDir_same, h]
  exact ⟨rfl, rfl⟩

/-- R365: a time frame that is due goes out. -/
theorem State.timeFrameSend_of {s : State} {d : Nat} (hup : s.linkUp d = true) (hdue : (s.dirSt d).timeAt ≤ s.elapsed) :
    s.timeFrameSend d = (s.setDir d { s.dirSt d with timeAt := s.elapsed + 1000000 }).transmit d
      { cls := 0, typ := 3, len := 32, words := [s.now, (s.dirSt d).peerT1, (s.dirSt d).peerT2, s.now] } := if_pos ⟨hup, hdue⟩

theorem State.timeFrame_sent (s : State) (d : Nat) :
    (((s.setDir d { s.dirSt d with timeAt := s.elapsed + 1000000 }).transmit d
      { cls := 0, typ := 3, len := 32, words := [s.now, (s.dirSt d).peerT1, (s.dirSt d).peerT2, s.now] }).dirSt d).timeAt = s.elapsed + 1000000 ∧
    (((s.setDir d { s.dirSt d with timeAt := s.elapsed + 1000000 }).transmit d
      { cls := 0, typ := 3, len := 32, words := [s.now, (s.dirSt d).peerT1, (s.dirSt d).peerT2, s.now] }).dirSt d).nextSeq =
      ((s.dirSt d).nextSeq + 1) % 2 ^ 24 ∧
    ∃ a b, ((s.setDir d { s.dirSt d with timeAt := s.elapsed + 1000000 }).transmit d
      { cls := 0, typ := 3, len := 32, words := [s.now, (s.dirSt d).peerT1, (s.dirSt d).peerT2, s.now] }).out =
      .borsan d 3 0 [a, b, s.now, (s.dirSt d).peerT1, (s.dirSt d).peerT2, s.now] :: s.out := by
  have ht : ((s.setDir d { s.dirSt d with timeAt := s.elapsed + 1000000 }).dirSt d) = { s.dirSt d with timeAt := s.elapsed + 1000000 } :=
    s.dirSt_setDir_same d _
  generalize hu : s.setDir d { s.dirSt d with timeAt := s.elapsed + 1000000 } = u at ht ⊢
  obtain ⟨hat, hseq⟩ := State.dirSt_transmit (s := u) (d := d)
    (f := { cls := 0, typ := 3, len := 32, words := [s.now, (s.dirSt d).peerT1, (s.dirSt d).peerT2, s.now] }) rfl
  refine ⟨hat.trans (by rw [ht]), hseq.trans (by rw [ht]), ?_⟩
  have hout (v : State) (y : DirSt) (o : Out) : (((v.setDir d y).inc R.BORSAN_FRAMES_TX d).emit o).out = o :: v.out :=
    congrArg (o :: ·) (State.inc_out _ _ _ _ _)
  unfold State.transmit
  dsimp only
  rw [hout, ← hu]
  exact ⟨_, _, rfl⟩

/-- R366: the registers and the direction after a time frame; the counter may follow it. -/
theorem State.timeFrameReceive_of {s : State} {d peerT1 echoT1 t2 t3 : Nat} (hup : s.linkUp d = true) :
    ((s.timeFrameReceive d peerT1 echoT1 t2 t3).dirSt d).peerT1 = peerT1 ∧ ((s.timeFrameReceive d peerT1 echoT1 t2 t3).dirSt d).peerT2 = s.now ∧
    (echoT1 ≠ 0 → (s.timeFrameReceive d peerT1 echoT1 t2 t3).rf R.BORSAN_LINK_LAT_PS d =
        fieldOfInt 32 (500 * (((s.now : Int) - echoT1) - ((t3 : Int) - t2))) % 2 ^ 32 ∧
      (s.timeFrameReceive d peerT1 echoT1 t2 t3).rf R.BORSAN_TIME_OFFSET_PS d =
        fieldOfInt 64 (500 * (((t2 : Int) - echoT1) - ((s.now : Int) - t3))) % 2 ^ 64) := by
  have hfollow (u : State) (b : Bool) (off : Int) (bound : State → Option Nat) :
      u.Within 0x10200000000007900000000000000000002 (u.when b fun t => (t.wf R.OASIS2_PARENT 0 (t.neighbour t.here d)).servo off 2 (bound t)) := by
    cases b
    · exact u.frame_refl _
    · exact State.servo_frame (by decide) (State.wf_frame (by decide) (u.frame_refl _))
  unfold State.timeFrameReceive
  rw [if_neg (by simp [hup])]
  dsimp only
  by_cases he : echoT1 = 0
  · rw [if_pos he]
    exact ⟨by rw [State.dirSt_setDir_same], by rw [State.dirSt_setDir_same], fun h => absurd he h⟩
  · rw [if_neg he]
    have hw := hfollow
    refine ⟨?_, ?_, fun _ => ⟨?_, ?_⟩⟩
    · rw [State.dirSt_of_dirs ((hfollow _ _ _ _).dirs (by decide))]
      exact congrArg DirSt.peerT1 (s.dirSt_setDir_same d _)
    · rw [State.dirSt_of_dirs ((hfollow _ _ _ _).dirs (by decide))]
      exact congrArg DirSt.peerT2 (s.dirSt_setDir_same d _)
    · rw [(hfollow _ _ _ _).rf (by decide), State.rf_wf_of_code _ (by decide), State.rf_wf_same]
      rfl
    · rw [(hfollow _ _ _ _).rf (by decide), State.rf_wf_same]
      rfl

/-- Settles O44: what a frame received, acknowledged or asked for again leaves, and the time frames. -/
theorem borsanFramesComplete : Obligations.BorsanFramesComplete := by
  unfold Obligations.BorsanFramesComplete
  refine ⟨?_, ?_, ?_, ?_, ?_⟩
  · intro d f fec s hd hup hplain hseq
    refine completes_of_next rfl ?_
    rw [Nat.mod_eq_of_lt hd]
    have hc := State.borsanReceive_of (fec := fec) hup hplain hseq
    refine ⟨?_, ?_⟩
    · rw [(hc.dir d).1, State.dirSt_frameTaken, State.dirSt_of_dirs (s.dirs_fecCounted d fec)]
    · rw [hc.rf _ (by decide), State.rf_frameTaken, s.rf_fecCounted d fec (by decide)]
  · intro d seq s hd hup
    refine completes_of_next rfl ?_
    rw [Nat.mod_eq_of_lt hd]
    exact if_pos hup
  · intro d seq s hd hup hfew
    refine completes_of_next rfl ?_
    rw [Nat.mod_eq_of_lt hd]
    exact State.borsanNak_of hup hfew
  · intro d s hd hup hdue
    refine completes_of_next rfl ?_
    rw [Nat.mod_eq_of_lt hd, State.timeFrameSend_of hup hdue]
    obtain ⟨hat, hseq, _, _, hout⟩ := State.timeFrame_sent s d
    refine ⟨hat, hseq, ?_⟩
    rw [hout]
    simp only [List.head?_cons, Option.any_some, List.drop_succ_cons, List.drop_zero, and_self, decide_true]
  · intro d peerT1 echoT1 t2 t3 s hd hup
    refine completes_of_next rfl ?_
    rw [Nat.mod_eq_of_lt hd]
    exact State.timeFrameReceive_of hup

end Sys2Proof.Machine
end

section
/-! Lanes and links of the torus (R357 to R361, R381 to R385, R392; O43). -/

namespace Sys2Proof.Machine

/-! ### What the checks of a direction keep, R381 to R383 -/

/-- What a judgement of the torus leaves of its links: the fields of the BORSAN pages off the way, and what each direction awaits. -/
structure State.LinksKept (s t : State) : Prop where
  rf : ∀ g : Field, g.offLink → g.area = 0x30 → ∀ j l, t.rf g j l = s.rf g j l
  dir : ∀ d, (s.dirSt d).sameLink (t.dirSt d)

theorem State.Carries.linksKept {s t : State} (h : s.Carries t) : s.LinksKept t := ⟨fun g hg _ => h.rf g hg, h.dir⟩

theorem State.LinksKept.refl (s : State) : s.LinksKept s := (State.Carries.refl s).linksKept

theorem State.LinksKept.trans {s t u : State} (h : s.LinksKept t) (g : t.LinksKept u) : s.LinksKept u :=
  ⟨fun f hf ha j l => (g.rf f hf ha j l).trans (h.rf f hf ha j l), fun d => (h.dir d).trans (g.dir d)⟩

theorem State.LinksKept.of_within {s t : State} {M : Nat} (h : s.Within M t) (harea : M.testBit 0x30 = false) (hdirs : M.testBit 133 = false) :
    s.LinksKept t :=
  ⟨fun g _ ha _ _ => h.rf (by rw [ha]; exact harea), fun d => by rw [State.dirSt_of_dirs (h.dirs hdirs)]; exact .refl _⟩

theorem State.LinksKept.linkUp {s t : State} (h : s.LinksKept t) (d : Nat) : t.linkUp d = s.linkUp d := by
  rw [State.linkUp, h.rf _ (by decide) (by decide), ← State.linkUp]

theorem State.linksKept_judgeAgreement (s : State) : s.LinksKept s.judgeAgreement :=
  .of_within (State.judgeAgreement_frame (Sub.refl _) (s.frame_refl _)) (by decide) (by decide)

/-- What a check of a direction records of its class and state. -/
def State.dirJudged (s : State) (d : Nat) : State :=
  let cls := s.classOf d
  let st := s.stateOf d cls
  let s1 := (s.wf R.TORUS1_CLASS 0 cls d).wf R.TORUS1_DSTATE 0 st d
  let s2 := s1.when (decide (cls ≠ 0 ∧ cls ≠ s.dclass d)) fun t =>
    (t.setInt (torusPage 1) R.INT_TORUS1_MISMATCH).logEv 0x0A02 (torusPage 1).index 0 [d, cls, 0, 0]
  s2.when (decide (st = 4 ∧ s.dstate d ≠ 4)) fun t =>
    (t.setInt (torusPage 1) R.INT_TORUS1_OVERRIDE).logEv 0x0A03 (torusPage 1).index 0 [d, cls, 0, 0]

/-- The notices flooded when a direction enters or leaves service. -/
def State.dirNotices (s : State) (t : State) (d : Nat) : State :=
  let old := s.dstate d
  let st := s.stateOf d (s.classOf d)
  let silent := decide (s.modState = msFailed ∨ s.modState = msLeft) || s.md.withdrawn
  if decide (st = 2 ∨ st = 4) && !decide (old = 2 ∨ old = 4) then (if silent then t else t.ownLsn d 0)
  else if decide (old = 2 ∨ old = 4) && decide (st = 3) then t.ownLsn d 2 else t

theorem State.dirCheck_eq (s : State) (d : Nat) : s.dirCheck d =
    if !s.rb R.TORUS1_PLAN_LOADED 0 ∨ s.dstate d = 5 then s.judgeAgreement
    else ((s.dirNotices (s.dirJudged d) d).boardFault 14 ((List.range 6).any fun n => (s.dirNotices (s.dirJudged d) d).dclass n = 5)).judgeAgreement := rfl

theorem State.linksKept_dirJudged (s : State) (d : Nat) : s.LinksKept (s.dirJudged d) := by
  have hsay (t : State) (b : Bool) (i k : Nat) (l : List Nat) : t.LinksKept (t.when b fun t => (t.setInt (torusPage 1) i).logEv k (torusPage 1).index 0 l) := by
    cases b
    · exact .refl t
    · have hw : t.Within (touch [0x31, 1] [.irqLatch, .irqs, .staging, .lostStamps]) ((t.setInt (torusPage 1) i).logEv k (torusPage 1).index 0 l) :=
        State.logEv_frame (by decide) (State.setInt_frame (by decide) (by decide) (t.frame_refl _))
      exact .of_within hw (by decide) (by decide)
  have hstate : s.LinksKept ((s.wf R.TORUS1_CLASS 0 (s.classOf d) d).wf R.TORUS1_DSTATE 0 (s.stateOf d (s.classOf d)) d) := by
    have hw : s.Within (touch [0x31] []) ((s.wf R.TORUS1_CLASS 0 (s.classOf d) d).wf R.TORUS1_DSTATE 0 (s.stateOf d (s.classOf d)) d) :=
      State.wf_frame (by decide) (State.wf_frame (by decide) (s.frame_refl _))
    exact .of_within hw (by decide) (by decide)
  exact (hstate.trans (hsay _ _ _ _ _)).trans (hsay _ _ _ _ _)

theorem State.linksKept_dirNotices (s t : State) (d : Nat) : t.LinksKept (s.dirNotices t d) := by
  unfold State.dirNotices
  exact ((State.Carries.ite (.ite (.refl t) (t.carries_ownLsn d 0)) (.ite (t.carries_ownLsn d 2) (.refl t)))).linksKept

/-- R381 to R383: a check of a direction leaves its link as it was. -/
theorem State.linksKept_dirCheck (s : State) (d : Nat) : s.LinksKept (s.dirCheck d) := by
  rw [State.dirCheck_eq]
  split
  · exact s.linksKept_judgeAgreement
  · refine State.LinksKept.trans ?_ (State.linksKept_judgeAgreement _)
    refine ((s.linksKept_dirJudged d).trans (s.linksKept_dirNotices _ d)).trans ?_
    exact .of_within (State.boardFault_frame (Sub.refl _) (State.frame_refl _ _)) (by decide) (by decide)

/-! ### Lanes, R359, R360 -/

theorem lanesOf_length (m : Nat) : (lanesOf m).length < 16 := lt_of_le_of_lt (List.length_filter_le _ _) (by decide)

theorem State.rf_setDir (s : State) (d : Nat) (x : DirSt) (g : Field) (j l : Nat) : (s.setDir d x).rf g j l = s.rf g j l := rfl

/-- The fields of a lane change. -/
theorem State.rf_laneChange (s : State) (d : Nat) {g : Field} (hg : g.plain) (hne : g.code ≠ R.BORSAN1_LAST_LANE_STAMP.code) (j l : Nat) :
    (s.laneChange d).rf g j l = s.rf g j l := by
  rw [State.laneChange, State.rf_unitEv_plain _ _ _ _ _ _ hg, State.rf_setInt_plain _ _ _ hg, State.rf_wf_of_code _ hne]

theorem State.stamp_laneChange (s : State) (d : Nat) : (s.laneChange d).rf R.BORSAN1_LAST_LANE_STAMP d = s.now % 2 ^ 64 := by
  rw [State.laneChange, State.rf_unitEv_plain _ _ _ _ _ _ (by decide), State.rf_setInt_plain _ _ _ (by decide), State.rf_wf_same]
  rfl

theorem State.rf_setLanes_good (s : State) (d good active : Nat) : (s.setLanes d good active).rf R.BORSAN1_LANE_GOOD d = good % 2 ^ 9 := by
  unfold State.setLanes
  dsimp only
  simp (disch := decide) only [State.rf_wf_of_code, State.rf_wf_same]
  rfl

theorem State.rf_setLanes_active (s : State) (d good active : Nat) : (s.setLanes d good active).rf R.BORSAN1_LANE_ACTIVE d = active % 2 ^ 9 := by
  unfold State.setLanes
  dsimp only
  simp (disch := decide) only [State.rf_wf_of_code, State.rf_wf_same]
  rfl

/-- The fields that a lane set is kept in. -/
def lanePlaces : List Nat :=
  [R.BORSAN1_LANE_GOOD.code, R.BORSAN1_LANE_ACTIVE.code, R.BORSAN1_ACTIVE_COUNT.code, R.BORSAN1_SPARE_LANE.code, R.BORSAN1_SPARE_IN_USE.code]

theorem State.rf_setLanes_of (s : State) (d good active : Nat) {g : Field} (hg : g.code ∉ lanePlaces) (j l : Nat) :
    (s.setLanes d good active).rf g j l = s.rf g j l := by
  simp only [lanePlaces, List.mem_cons, List.not_mem_nil, or_false, not_or] at hg
  obtain ⟨h1, h2, h3, h4, h5⟩ := hg
  unfold State.setLanes
  dsimp only
  rw [State.rf_wf_of_code _ h5, State.rf_wf_of_code _ h4, State.rf_wf_of_code _ h3, State.rf_wf_of_code _ h2, State.rf_wf_of_code _ h1]

/-- The lanes that carry data once lane `lane` is out. -/
def State.lanesWithout (s : State) (d lane : Nat) : Nat :=
  if (s.rf R.BORSAN1_LANE_ACTIVE d).testBit lane then
    s.rf R.BORSAN1_LANE_ACTIVE d - 2 ^ lane + (if s.rf R.BORSAN1_SPARE_LANE d < 9 then 2 ^ s.rf R.BORSAN1_SPARE_LANE d else 0)
  else s.rf R.BORSAN1_LANE_ACTIVE d

/-- R359: the lanes and their change after a bad lane that leaves four good ones. -/
def State.laneOut (s : State) (d lane : Nat) : State :=
  ((s.setLanes d (s.rf R.BORSAN1_LANE_GOOD d - 2 ^ lane) (s.lanesWithout d lane)).setDir d
    { s.dirSt d with laneClean := Tbl.del (s.dirSt d).laneClean lane }).laneChange d

theorem State.laneBad_of {s : State} {d lane power : Nat} (hl : lane < 9) (hup : s.linkUp d = true) (hgood : (s.rf R.BORSAN1_LANE_GOOD d).testBit lane = true)
    (hfour : 4 ≤ (lanesOf (s.rf R.BORSAN1_LANE_GOOD d - 2 ^ lane)).length) :
    ((s.wf R.BORSAN1_RX_POWER d power lane).laneOut d lane).Carries (s.laneBad d lane power) := by
  have hg : (s.wf R.BORSAN1_RX_POWER d power lane).rf R.BORSAN1_LANE_GOOD d = s.rf R.BORSAN1_LANE_GOOD d := State.rf_wf_of_code _ (by decide) _ _ _ _ _
  have hu : (s.wf R.BORSAN1_RX_POWER d power lane).linkUp d = true := by
    rw [State.linkUp, State.rf_wf_of_code _ (by decide), ← State.linkUp]
    exact hup
  unfold State.laneBad
  rw [if_pos hl]
  dsimp only
  rw [if_neg (by simp [hg, hu, hgood]), if_neg (by rw [hg]; omega)]
  exact State.carries_transmit _ _ _

theorem State.rf_laneOut (s : State) (d lane : Nat) :
    (s.laneOut d lane).rf R.BORSAN1_LANE_GOOD d = s.rf R.BORSAN1_LANE_GOOD d - 2 ^ lane ∧
    (s.laneOut d lane).rf R.BORSAN1_LANE_ACTIVE d = s.lanesWithout d lane % 2 ^ 9 ∧
    (∀ j l, (s.laneOut d lane).rf R.BORSAN1_RX_POWER j l = s.rf R.BORSAN1_RX_POWER j l) ∧
    (s.laneOut d lane).rf R.BORSAN1_LAST_LANE_STAMP d = s.now % 2 ^ 64 := by
  have hlt : s.rf R.BORSAN1_LANE_GOOD d - 2 ^ lane < 2 ^ 9 := lt_of_le_of_lt (Nat.sub_le _ _) (State.rf_lt _ _ _ _)
  unfold State.laneOut
  refine ⟨?_, ?_, fun j l => ?_, ?_⟩
  · rw [State.rf_laneChange _ _ (by decide) (by decide), State.rf_setDir, State.rf_setLanes_good, Nat.mod_eq_of_lt hlt]
  · rw [State.rf_laneChange _ _ (by decide) (by decide), State.rf_setDir, State.rf_setLanes_active]
  · rw [State.rf_laneChange _ _ (by decide) (by decide), State.rf_setDir, State.rf_setLanes_of _ _ _ _ (by decide)]
  · rw [State.stamp_laneChange]
    rfl

/-- R359: a frame that names a way of four lanes or more. -/
theorem State.laneFrame_of {s : State} {d active : Nat} (hup : s.linkUp d = true) (hfour : 4 ≤ (lanesOf active).length) :
    s.laneFrame d active = (s.wf R.BORSAN1_TX_ACTIVE_COUNT d (lanesOf active).length).laneChange d := by
  unfold State.laneFrame
  rw [if_neg (by simp [hup])]
  dsimp only
  rw [if_neg (by omega)]

/-- R360: a lane that has run a second without an error. -/
theorem State.laneRetrain_of {s : State} {d lane since : Nat} (hup : s.linkUp d = true) (hl : lane < 9)
    (hbad : (s.rf R.BORSAN1_LANE_GOOD d).testBit lane = false) (hen : (s.rf R.BORSAN1_LANE_ENABLE d).testBit lane = true)
    (hclean : Tbl.get? (s.dirSt d).laneClean lane = some since) (hsecond : since + 1000000000 ≤ s.elapsed) :
    ∃ x act, (((s.setDir d x).setLanes d (s.rf R.BORSAN1_LANE_GOOD d + 2 ^ lane) act).laneChange d).Carries (s.laneRetrain d lane true) := by
  unfold State.laneRetrain
  dsimp only
  rw [if_neg (by simp [hup, hbad, hen]; omega), if_neg (by decide), hclean]
  dsimp only
  rw [if_neg (by omega)]
  exact ⟨_, _, .ite (State.carries_transmit _ _ _) (.refl _)⟩

/-! ### Light and training, R361, R385 -/

/-- The fields that the failure of a way writes. -/
def failPlaces : List Nat := [R.BORSAN_LINK.code, R.BORSAN_LAST_DOWN_STAMP.code, R.BORSAN_RESEND_WAIT.code]

/-- R376: a way that fails leaves the other fields of the BORSAN pages. -/
theorem State.rf_linkFail (s : State) (d : Nat) (low : Bool) {g : Field} (hg : g.offLink) (ha : g.area = 0x30) (hne : g.code ∉ failPlaces) (j l : Nat) :
    (s.linkFail d low).rf g j l = s.rf g j l := by
  simp only [failPlaces, List.mem_cons, List.not_mem_nil, or_false, not_or] at hne
  obtain ⟨h1, h2, h3⟩ := hne
  unfold State.linkFail
  split
  · rfl
  · rw [(State.linksKept_dirCheck _ _).rf g hg ha, (State.carries_ownLsn _ _ _).rf g hg, State.rf_setDir, State.rf_blockErr_plain _ _ _ _ _ _ hg.1,
      State.rf_wf_of_code _ h3, State.rf_wf_of_code _ h2, State.rf_wf_of_code _ h1]

/-- What light on each position, and the reading of the whole cable, leave in the registers. -/
def State.lightRead (s : State) (d tx rx : Nat) : State :=
  (s.each (List.range 9) fun t l => t.wf R.BORSAN1_TX_LIGHT_IN d (bit (tx.testBit l)) l).wf R.BORSAN_FIBRE_REVERSED d (bit (decide (tx ≠ 0 ∧ rx = 0)))

theorem bit_mod_two (b : Bool) : bit b % 2 ^ 1 = bit b := by cases b <;> rfl

theorem State.rf_lightRead (s : State) (d tx rx : Nat) :
    (s.lightRead d tx rx).rf R.BORSAN_FIBRE_REVERSED d = bit (decide (tx ≠ 0 ∧ rx = 0)) ∧
    ∀ l ∈ List.range 9, (s.lightRead d tx rx).rf R.BORSAN1_TX_LIGHT_IN d l = bit (tx.testBit l) := by
  unfold State.lightRead
  refine ⟨?_, fun l hl => ?_⟩
  · rw [State.rf_wf_same]
    exact bit_mod_two _
  · rw [State.rf_wf_of_code _ (by decide)]
    refine State.each_set (fun t => t.rf R.BORSAN1_TX_LIGHT_IN d l) hl (fun t => ?_) (fun k hk hne t => ?_) s
    · rw [State.rf_wf_same]
      exact bit_mod_two _
    · refine State.rf_wf_of_index _ _ _ _ ?_
      have hk9 := List.mem_range.1 hk
      have hl9 := List.mem_range.1 hl
      omega

/-- R361: the reading stands after what it brings about. -/
theorem State.rf_fibreLight (s : State) (d tx rx : Nat) {g : Field} (hg : g.offLink) (ha : g.area = 0x30) (hne : g.code ∉ failPlaces) (j l : Nat) :
    (s.fibreLight d tx rx).rf g j l = (s.lightRead d tx rx).rf g j l := by
  have hlink : g.code ≠ R.BORSAN_LINK.code := fun h => hne (by rw [h]; decide)
  have hboard (t : State) (b : Bool) : (t.boardFault 13 b).rf g j l = t.rf g j l :=
    (State.LinksKept.of_within (State.boardFault_frame (Sub.refl _) (t.frame_refl _)) (by decide) (by decide)).rf g hg ha j l
  have hdark (t : State) : ((t.linkFail d false).wf R.BORSAN_LINK d 0).rf g j l = t.rf g j l := by
    rw [State.rf_wf_of_code _ hlink, State.rf_linkFail _ _ _ hg ha hne]
  have htrain (t : State) (b : Bool) : (t.when b fun t => t.wf R.BORSAN_LINK d 1).rf g j l = t.rf g j l := by
    cases b
    · rfl
    · exact State.rf_wf_of_code _ hlink _ _ _ _ _
  have hthree (t : State) (c b : Bool) :
      (if c then (t.linkFail d false).wf R.BORSAN_LINK d 0 else t.when b fun t => t.wf R.BORSAN_LINK d 1).rf g j l = t.rf g j l := by
    split
    · exact hdark t
    · exact htrain t b
  unfold State.fibreLight
  dsimp only
  rw [← State.lightRead]
  split
  · rw [(State.linksKept_dirCheck _ _).rf g hg ha, hthree, hboard]
  · rw [hthree, hboard]

/-- R385: the link raised with its lanes set. -/
def State.linkRaised (s : State) (d good active txCount : Nat) (x : DirSt) : State :=
  (((((s.setLanes d good active).wf R.BORSAN1_TX_ACTIVE_COUNT d txCount).wf R.BORSAN_LINK d 2).setInt (borsanPage d) R.INT_BORSAN_LINK_CHANGE).wf
    R.BORSAN_DETOURING d 0).setDir d x

theorem State.linkTrained_of {s : State} {d lanes txCount : Nat} {pos power : List Nat} (hdown : s.linkUp d = false)
    (hen : s.rb R.BORSAN_LINK_EN d = true) (hfibre : s.rb R.BORSAN_FIBRE_REVERSED d = false)
    (hfour : 4 ≤ (lanesOf (lanes % 512 &&& s.rf R.BORSAN1_LANE_ENABLE d)).length) :
    ∃ u act x, x.upSince = some s.elapsed ∧ x.failedAt = none ∧
      (State.linkRaised u d (lanes % 512 &&& s.rf R.BORSAN1_LANE_ENABLE d) act txCount x).LinksKept (s.linkTrained d lanes txCount pos power) := by
  have hresume (t : State) (b : Bool) : t.LinksKept (t.when b fun t => t.wf R.TORUS1_DSTATE 0 1 d) := by
    cases b
    · exact .refl t
    · have hw : t.Within (touch [0x31] []) (t.wf R.TORUS1_DSTATE 0 1 d) := State.wf_frame (by decide) (t.frame_refl _)
      exact .of_within hw (by decide) (by decide)
  unfold State.linkTrained
  dsimp only
  rw [if_neg (by simp [hdown, hen, hfibre]), if_neg (by omega)]
  exact ⟨_, _, _, rfl, rfl, (hresume _ _).trans (State.linksKept_dirCheck _ _)⟩

theorem State.rf_linkRaised (s : State) (d good active txCount : Nat) (x : DirSt) :
    (s.linkRaised d good active txCount x).linkUp d = true ∧ (s.linkRaised d good active txCount x).rf R.BORSAN1_LANE_GOOD d = good % 2 ^ 9 ∧
    (s.linkRaised d good active txCount x).rf R.BORSAN1_TX_ACTIVE_COUNT d = txCount % 2 ^ 4 := by
  have hraise (t : State) {g : Field} (hg : g.plain) (hne : g.code ≠ R.BORSAN_DETOURING.code) (j l : Nat) :
      (((t.setInt (borsanPage d) R.INT_BORSAN_LINK_CHANGE).wf R.BORSAN_DETOURING d 0).setDir d x).rf g j l = t.rf g j l := by
    rw [State.rf_setDir, State.rf_wf_of_code _ hne, State.rf_setInt_plain _ _ _ hg]
  unfold State.linkRaised
  refine ⟨?_, ?_, ?_⟩
  · rw [State.linkUp, hraise _ (by decide) (by decide), State.rf_wf_same]
    rfl
  · rw [hraise _ (by decide) (by decide), State.rf_wf_of_code _ (by decide), State.rf_wf_of_code _ (by decide), State.rf_setLanes_good]
  · rw [hraise _ (by decide) (by decide), State.rf_wf_of_code _ (by decide), State.rf_wf_same]
    rfl

/-! ### LINK_ENABLE, R392 -/

theorem inst_borsanPage (d p : Nat) : (borsanPage d p).inst = d := rfl

theorem wordFields_linkEn (d : Nat) : wordFields (borsanPage d) 0x100 = [(R.BORSAN_LINK_EN, 0)] := rfl

theorem State.rf_storeLinkEn (s : State) (m : Master) {d w : Nat} (hw : w.testBit 0 = true) :
    (s.storeWord m (borsanPage d) 0x100 w).rf R.BORSAN_LINK_EN d = 1 := by
  have hone : bitsOf w 0 1 = 1 := by
    have := Nat.testBit_zero w
    rw [hw] at this
    simp at this
    simp [bitsOf, this]
  rw [← hone]
  refine State.rf_storeWord_rw (p := borsanPage d) (off := 0x100) (fk := (R.BORSAN_LINK_EN, 0)) w ?_ rfl rfl ?_ s
  · rw [wordFields_linkEn]
    exact List.mem_singleton.2 rfl
  · intro gk hgk hne
    rw [wordFields_linkEn] at hgk
    exact absurd (List.mem_singleton.1 hgk) hne

theorem State.writeLinkEn_of {s : State} {m : Master} {d w : Nat} (hoff : s.rb R.BORSAN_LINK_EN d = false) (hw : w.testBit 0 = true)
    (hfibre : s.rb R.BORSAN_FIBRE_REVERSED d = false) :
    s.writeLinkEn m (borsanPage d) w = (s.storeWord m (borsanPage d) 0x100 w).wf R.BORSAN_LINK d 1 := by
  have hon : (s.storeWord m (borsanPage d) 0x100 w).rb R.BORSAN_LINK_EN d = true := by rw [State.rb, s.rf_storeLinkEn m hw]; rfl
  have hf : (s.storeWord m (borsanPage d) 0x100 w).rb R.BORSAN_FIBRE_REVERSED d = false := by
    rw [State.rb, State.rf_storeWord_of_code (by rw [wordFields_linkEn]; decide), ← State.rb]
    exact hfibre
  change (if (s.rb R.BORSAN_LINK_EN d && _) = true then _ else _) = _
  rw [hoff, if_neg (by simp)]
  change (if (!s.rb R.BORSAN_LINK_EN d && _ && _) = true then _ else _) = _
  exact if_pos (by rw [inst_borsanPage, hoff, hon, hf]; rfl)

/-- Settles O43: the lanes of a link, its light, its training and its enabling. -/
theorem borsanLanesComplete : Obligations.BorsanLanesComplete := by
  unfold Obligations.BorsanLanesComplete
  refine ⟨?_, ?_, ?_, ?_, ?_, ?_⟩
  · intro d lane power s hd hl hup hgood hfour
    refine completes_of_next rfl ?_
    rw [Nat.mod_eq_of_lt hd]
    have hc := State.laneBad_of (power := power) hl hup hgood hfour
    obtain ⟨hgood', hact, hpower, hstamp⟩ := State.rf_laneOut (s.wf R.BORSAN1_RX_POWER d power lane) d lane
    refine ⟨?_, ?_, ?_, ?_⟩
    · rw [hc.rf _ (by decide), hgood', State.rf_wf_of_code _ (by decide)]
    · rw [hc.rf _ (by decide), hact]
      simp (disch := decide) only [State.lanesWithout, State.rf_wf_of_code]
    · rw [hc.rf _ (by decide), hpower, State.rf_wf_same]
      rfl
    · rw [hc.rf _ (by decide), hstamp]
      rfl
  · intro d active boundary s hd hseq hup hfour
    refine completes_of_next rfl ?_
    rw [Nat.mod_eq_of_lt hd, if_pos hseq, State.laneFrame_of hup hfour]
    refine ⟨?_, ?_, ?_⟩
    · rw [State.rf_laneChange _ _ (by decide) (by decide), State.rf_wf_same]
      exact Nat.mod_eq_of_lt (lanesOf_length _)
    · rw [State.stamp_laneChange]
      rfl
    · rw [State.linkUp, State.rf_laneChange _ _ (by decide) (by decide), State.rf_wf_of_code _ (by decide), ← State.linkUp]
      exact hup
  · intro d lane since s hd hup hl hbad hen hclean hsecond
    refine completes_of_next rfl ?_
    rw [Nat.mod_eq_of_lt hd]
    obtain ⟨x, act, hc⟩ := State.laneRetrain_of hup hl hbad hen hclean hsecond
    refine ⟨?_, ?_⟩
    · rw [hc.rf _ (by decide), State.rf_laneChange _ _ (by decide) (by decide), State.rf_setLanes_good]
    · rw [hc.rf _ (by decide), State.stamp_laneChange]
      rfl
  · intro d tx rx s hd
    refine completes_of_next rfl ?_
    rw [Nat.mod_eq_of_lt hd]
    obtain ⟨hrev, hlight⟩ := s.rf_lightRead d tx rx
    refine ⟨?_, fun l hl => ?_⟩
    · rw [s.rf_fibreLight d tx rx (by decide) (by decide) (by decide), hrev]
    · rw [s.rf_fibreLight d tx rx (by decide) (by decide) (by decide), hlight l hl]
  · intro d lanes txCount pos power s hd hdown hen hfibre hfour
    refine completes_of_next rfl ?_
    rw [Nat.mod_eq_of_lt hd]
    obtain ⟨u, act, x, hsince, hfailed, hk⟩ := State.linkTrained_of (txCount := txCount) (pos := pos) (power := power) hdown hen hfibre hfour
    obtain ⟨hup, hgood, hcount⟩ := State.rf_linkRaised u d (lanes % 512 &&& s.rf R.BORSAN1_LANE_ENABLE d) act txCount x
    have hx : (u.linkRaised d (lanes % 512 &&& s.rf R.BORSAN1_LANE_ENABLE d) act txCount x).dirSt d = x := State.dirSt_setDir_same _ _ _
    obtain ⟨_, hs, hf⟩ := hk.dir d
    refine ⟨(hk.linkUp d).trans hup, ?_, (hk.rf _ (by decide) (by decide) _ _).trans hcount, ?_, ?_⟩
    · rw [hk.rf _ (by decide) (by decide), hgood]
      exact Nat.mod_eq_of_lt (lt_of_le_of_lt Nat.and_le_left (Nat.mod_lt _ (by decide)))
    · rw [hs, hx, hsince]
    · rw [hf, hx, hfailed]
  · intro m d w s h hoff hbit hfibre
    refine completes_of_next rfl ?_
    have hw := h.store_within (u := s.writeLinkEn m (borsanPage d) w) (by decide) rfl
    rw [State.writeLinkEn_of hoff hbit hfibre] at hw
    refine ⟨?_, ?_⟩
    · rw [hw.rf (by decide), State.rf_wf_of_code _ (by decide), s.rf_storeLinkEn m hbit]
    · rw [hw.rf (by decide), State.rf_wf_same]
      rfl

end Sys2Proof.Machine
end

section
/-! Attestation: SPDM requests and their responses (R418 to R421; O50). -/

namespace Sys2Proof.Machine

/-! ### The bytes of a request -/

theorem cmdBytes_length (c : Cmd) (w n : Nat) : (cmdBytes c w n).length = n := by simp [cmdBytes]

theorem cmdBytes_getElem {c : Cmd} {w n j : Nat} (h : j < (cmdBytes c w n).length) : (cmdBytes c w n)[j] = c.f (w + j / 8) (8 * (j % 8)) 8 := by
  simp [cmdBytes]

theorem cmdBytes_getD {c : Cmd} {w n j : Nat} (h : j < n) : (cmdBytes c w n).getD j 0 = c.f (w + j / 8) (8 * (j % 8)) 8 := by
  have hlen : j < (cmdBytes c w n).length := by rwa [cmdBytes_length]
  rw [List.getD_eq_getElem _ _ hlen, cmdBytes_getElem]

/-- Two bytes next to one another are a field of 16 bits. -/
theorem f_pair (c : Cmd) (i lo : Nat) : c.f i lo 8 + 256 * c.f i (lo + 8) 8 = c.f i lo 16 := by
  have hshift : c.w i >>> (lo + 8) = c.w i >>> lo / 256 := by rw [Nat.shiftRight_add, Nat.shiftRight_eq_div_pow _ 8]
  unfold Cmd.f bitsOf
  rw [hshift]
  omega

theorem ofBytes_cmdBytes {c : Cmd} {n j : Nat} (h : j + 1 < n) (hj : j % 8 + 1 < 8) :
    ofBytes (((cmdBytes c 1 n).drop j).take 2) = c.f (1 + j / 8) (8 * (j % 8)) 16 := by
  have hlen : (cmdBytes c 1 n).length = n := cmdBytes_length c 1 n
  have hdrop : ((cmdBytes c 1 n).drop j).take 2 = [c.f (1 + j / 8) (8 * (j % 8)) 8, c.f (1 + j / 8) (8 * (j % 8) + 8) 8] := by
    rw [List.drop_eq_getElem_cons (by omega), List.drop_eq_getElem_cons (by omega), cmdBytes_getElem, cmdBytes_getElem]
    have hword : (j + 1) / 8 = j / 8 := by omega
    have hbyte : 8 * ((j + 1) % 8) = 8 * (j % 8) + 8 := by omega
    rw [hword, hbyte]
    rfl
  rw [hdrop, ← f_pair]
  simp [ofBytes]

/-! ### The answer to a request -/

/-- R420: the negotiation of a queue pair kept. -/
def State.spdmPut (s : State) (q : Nat) (y : SpdmSt) : State := { s with sec := { s.sec with spdm := Tbl.put s.sec.spdm q y } }

/-- R421: the responses that are counted. -/
def State.spdmCounted (s : State) (req : Nat) : State :=
  if req = 0x83 then s.inc R.KEYS_CHALLENGES 0 else if req = 0xE0 then s.inc R.KEYS_MEAS_REQUESTS 0 else s

/-- R420: the stage that a request wants. -/
def spdmNeed (req : Nat) : Nat := if req = 0xE1 then 1 else if req = 0xE3 then 2 else 3

/-- The stage after a request that is answered. -/
def spdmNext (req : Nat) : Nat := if spdmNeed req = 3 then 3 else spdmNeed req + 1

/-- The response's message, of 984 bytes at most. -/
def spdmOut (req : Nat) (body : List Nat) : List Nat := ([0x12, spdmResponse req] ++ body).take 984

/-- The negotiation after a request that is answered. -/
def State.spdmAfter (s : State) (c : Cmd) (body : List Nat) : SpdmSt where
  stage := spdmNext (spdmCode c)
  transcript := (Tbl.getD s.sec.spdm c.qp {}).transcript ++ cmdBytes c 1 (c.f 0 0 16) ++ spdmOut (spdmCode c) body

/-- What a request that is answered leaves. -/
def State.spdmDone (s : State) (c : Cmd) (body : List Nat) : State := (s.spdmPut c.qp (s.spdmAfter c body)).spdmCounted (spdmCode c)

theorem State.spdmPut_within (s : State) (q : Nat) (y : SpdmSt) : s.Within (touch [] [.sec]) (s.spdmPut q y) := by
  unfold State.spdmPut
  refine State.frame_mk (s.frame_refl _) ?_
  simp only [true_or, or_true, and_true, (by decide : (touch [] [.sec]).testBit 131 = true)]

theorem State.spdmDone_within (s : State) (c : Cmd) (body : List Nat) : s.Within (touch [4] [.sec]) (s.spdmDone c body) := by
  have hput (y : SpdmSt) : s.Within (touch [4] [.sec]) (s.spdmPut c.qp y) := (s.spdmPut_within c.qp y).mono (by decide)
  unfold State.spdmDone State.spdmCounted
  split
  · exact State.inc_frame (by decide) (hput _)
  · split
    · exact State.inc_frame (by decide) (hput _)
    · exact hput _

/-- R419, R420: a request of 1.2 in its stage is answered by its message. -/
theorem State.attest_answers {s : State} {i : Instr} {c : Cmd} {rsp body : List Nat} (h : s.Takes c) (hlen : attestLenOk c = true)
    (hready : s.rb R.KEYS_IDENTITY_READY 0 = true) (hfirst : spdmCode c ≠ 0x84) (hknown : spdmResponse (spdmCode c) ≠ 0x7F) (hver : c.f 1 0 8 = 0x12)
    (hstage : (Tbl.getD s.sec.spdm c.qp {}).stage = spdmNeed (spdmCode c))
    (hbody : (s.started 0x34 c .l).spdmAnswer (cmdBytes c 1 (c.f 0 0 16)) rsp = some body) :
    s.attest i c rsp = ((s.started 0x34 c .l).spdmDone c body).spdmReply c (spdmOut (spdmCode c) body) := by
  have hw := s.started_within 0x34 c .l
  have hsec : (s.started 0x34 c .l).sec = s.sec := hw.sec (by decide)
  have hrb : (s.started 0x34 c .l).rb R.KEYS_IDENTITY_READY 0 = true := by rw [State.rb, hw.rf (by decide), ← State.rb]; exact hready
  have hn : 4 ≤ c.f 0 0 16 := by
    simp only [attestLenOk, Bool.and_eq_true, decide_eq_true_eq] at hlen
    exact hlen.1.1
  have hfirstByte : (cmdBytes c 1 (c.f 0 0 16)).getD 0 0 = 0x12 := (cmdBytes_getD (by omega)).trans hver
  have hin : ¬ ((spdmNeed (spdmCode c) = 3 ∧ (Tbl.getD (s.started 0x34 c .l).sec.spdm c.qp {}).stage ≠ 3) ∨
      (spdmNeed (spdmCode c) ≠ 3 ∧ (Tbl.getD (s.started 0x34 c .l).sec.spdm c.qp {}).stage ≠ spdmNeed (spdmCode c))) := by
    rw [hsec, hstage]
    rintro (⟨hthree, hne⟩ | ⟨-, hne⟩)
    · exact hne hthree
    · exact hne rfl
  unfold State.attest
  dsimp only
  rw [State.vorane_takes h (by decide) hlen]
  rw [if_neg (by rw [hrb]; decide), if_neg hfirst, if_neg hknown, if_neg (by rw [hfirstByte]; decide)]
  refine (if_neg hin).trans ?_
  rw [hbody]
  rfl

theorem spdmOut_length (req : Nat) (body : List Nat) : (spdmOut req body).length % 65536 = (spdmOut req body).length := by
  refine Nat.mod_eq_of_lt (lt_of_le_of_lt (List.length_take_le _ _) (by decide))

theorem State.spdm_spdmDone (s : State) (c : Cmd) (body : List Nat) : (s.spdmDone c body).sec.spdm = Tbl.put s.sec.spdm c.qp (s.spdmAfter c body) := by
  have hput : (s.spdmPut c.qp (s.spdmAfter c body)).sec.spdm = Tbl.put s.sec.spdm c.qp (s.spdmAfter c body) := rfl
  unfold State.spdmDone State.spdmCounted
  split
  · rw [State.inc_sec, hput]
  · split
    · rw [State.inc_sec, hput]
    · exact hput

theorem State.spdmReply_within (s : State) (c : Cmd) (bs : List Nat) : s.Within 0x8000000000320000000000030000000000 (s.spdmReply c bs) :=
  State.spdmReply_frame (Sub.refl _) (s.frame_refl _)

/-- R420: the stage kept, the count, and the answer, of a request that is answered. -/
theorem State.attest_leaves {s : State} {i : Instr} {c : Cmd} {rsp body : List Nat} (h : s.Takes c) (hlen : attestLenOk c = true)
    (hready : s.rb R.KEYS_IDENTITY_READY 0 = true) (hfirst : spdmCode c ≠ 0x84) (hknown : spdmResponse (spdmCode c) ≠ 0x7F) (hver : c.f 1 0 8 = 0x12)
    (hstage : (Tbl.getD s.sec.spdm c.qp {}).stage = spdmNeed (spdmCode c))
    (hbody : (s.started 0x34 c .l).spdmAnswer (cmdBytes c 1 (c.f 0 0 16)) rsp = some body) :
    ((Tbl.get? (s.attest i c rsp).sec.spdm c.qp).any fun x => x.stage = spdmNext (spdmCode c)) = true ∧
    (∀ g : Field, g.area = 4 → ∀ j k, (s.attest i c rsp).rf g j k = ((s.started 0x34 c .l).spdmDone c body).rf g j k) ∧
    s.Answered (s.attest i c rsp) c 0x34 ((spdmOut (spdmCode c) body).length :: packBytes (spdmOut (spdmCode c) body)) := by
  rw [State.attest_answers h hlen hready hfirst hknown hver hstage hbody]
  have hr := ((s.started 0x34 c .l).spdmDone c body).spdmReply_within c (spdmOut (spdmCode c) body)
  refine ⟨?_, fun g hg j k => ?_, ?_⟩
  · rw [hr.sec (by decide), State.spdm_spdmDone, Tbl.get_put_same]
    simp [State.spdmAfter]
  · have hg4 : (0x8000000000320000000000030000000000 : Nat).testBit g.area = false := by rw [hg]; decide
    exact hr.rf hg4
  · unfold State.spdmReply
    rw [spdmOut_length]
    exact State.answered_of_within h (State.spdmDone_within _ _ _) (by decide) (by decide)

theorem State.rf_spdmPut (s : State) (q : Nat) (y : SpdmSt) (g : Field) (j k : Nat) : (s.spdmPut q y).rf g j k = s.rf g j k := rfl

/-! ### What an answer is read from -/

theorem area_slotSecurityF (n : Nat) : (slotSecurityF n).area = 1 := by
  unfold slotSecurityF
  split <;> decide

theorem State.chain_started (s : State) (op : Nat) (c : Cmd) (cls : Class) (slot : Nat) : (s.started op c cls).chain slot = s.chain slot := by
  have hw := s.started_within op c cls
  have hver (n : Nat) : (s.started op c cls).rf (slotSecurityF n) 0 = s.rf (slotSecurityF n) 0 := hw.rf (by rw [area_slotSecurityF]; decide)
  unfold State.chain
  rw [hw.sec (by decide), hw.rf (f := R.KEYS_BOOT_SLOT) (by decide), hver]

theorem State.measurement_started (s : State) (op : Nat) (c : Cmd) (cls : Class) (i : Nat) : (s.started op c cls).measurement i = s.measurement i := by
  have hw := s.started_within op c cls
  have hver (n : Nat) : (s.started op c cls).rf (slotSecurityF n) 0 = s.rf (slotSecurityF n) 0 := hw.rf (by rw [area_slotSecurityF]; decide)
  have hvalues : (s.started op c cls).measuredValues i = s.measuredValues i := by
    have hboot := hw.rf (f := R.KEYS_BOOT_SLOT) (i := 0) (k := 0) (by decide)
    have himage := hw.rf (f := R.KEYS_IMAGE_VERSION) (i := 0) (k := 0) (by decide)
    have hfloor := hw.rf (f := R.KEYS_SECURITY_FLOOR) (i := 0) (k := 0) (by decide)
    have hloaded (k : Nat) := hw.rf (f := R.KEYS1_LOADED) (i := 0) (k := k) (by decide)
    have hid (k : Nat) := hw.rf (f := R.KEYS1_KEY_ID) (i := 0) (k := k) (by decide)
    have hvar (v : Nat) : (s.started op c cls).vstate v = s.vstate v := hw.vstate (by decide) v
    unfold State.measuredValues State.man
    simp only [State.rb, hboot, himage, hfloor, hloaded, hid, hvar, hver, hw.sec (by decide)]
  unfold State.measurement State.sectionDigest
  rw [hvalues, hw.oa (by decide), hw.rf (f := R.KEYS_BOOT_SLOT) (by decide)]

/-- The request of a message is the second byte of its header. -/
theorem spdmHeader {c : Cmd} (hlen : attestLenOk c = true) :
    (cmdBytes c 1 (c.f 0 0 16)).getD 1 0 = spdmCode c ∧ (cmdBytes c 1 (c.f 0 0 16)).getD 2 0 = c.f 1 16 8 ∧
    (cmdBytes c 1 (c.f 0 0 16)).getD 3 0 = c.f 1 24 8 := by
  have hn : 4 ≤ c.f 0 0 16 := by
    simp only [attestLenOk, Bool.and_eq_true, decide_eq_true_eq] at hlen
    exact hlen.1.1
  exact ⟨cmdBytes_getD (by omega), cmdBytes_getD (by omega), cmdBytes_getD (by omega)⟩

theorem State.spdmAnswer_digests (s : State) {msg rsp : List Nat} (h : msg.getD 1 0 = 0x81) :
    s.spdmAnswer msg rsp = some ([0, 3] ++ sha384 (s.chain 0) ++ sha384 (s.chain 1)) := if_pos h

theorem State.spdmAnswer_capabilities (s : State) {msg rsp : List Nat} (h : msg.getD 1 0 = 0xE1) :
    s.spdmAnswer msg rsp = some (capabilities (rsp.headD 0)) := by
  unfold State.spdmAnswer
  dsimp only
  rw [if_neg (by rw [h]; decide), if_pos h]

theorem State.spdmAnswer_algorithms (s : State) {msg rsp : List Nat} (h : msg.getD 1 0 = 0xE3) : s.spdmAnswer msg rsp = some algorithms := by
  unfold State.spdmAnswer
  dsimp only
  rw [if_neg (by rw [h]; decide), if_neg (by rw [h]; decide), if_pos h]

theorem State.spdmAnswer_certificate (s : State) {msg rsp : List Nat} {slot off n : Nat} (h : msg.getD 1 0 = 0x82) (hslot : msg.getD 2 0 = slot)
    (hs : slot < 2) (hoff : ofBytes ((msg.drop 4).take 2) = off) (hin : off < (s.chain slot).length)
    (hn : n = min (min (ofBytes ((msg.drop 6).take 2)) 900) ((s.chain slot).length - off)) :
    s.spdmAnswer msg rsp = some ([slot, 0] ++ leBytes 2 n ++ leBytes 2 ((s.chain slot).length - off - n) ++ ((s.chain slot).drop off).take n) := by
  subst hslot hoff hn
  unfold State.spdmAnswer
  dsimp only
  rw [if_neg (by rw [h]; decide), if_neg (by rw [h]; decide), if_neg (by rw [h]; decide), if_pos h, if_neg (by omega)]

theorem State.spdmAnswer_challenge (s : State) {msg rsp : List Nat} (h : msg.getD 1 0 = 0x83) (hslot : msg.getD 2 0 = 0) :
    s.spdmAnswer msg rsp = some ([0, 1] ++ sha384 (s.chain 0) ++ rsp) := by
  unfold State.spdmAnswer
  dsimp only
  rw [if_neg (by rw [h]; decide), if_neg (by rw [h]; decide), if_neg (by rw [h]; decide), if_neg (by rw [h]; decide), if_pos h, if_pos hslot]

theorem State.spdmAnswer_measurement (s : State) {msg rsp : List Nat} {i : Nat} (h : msg.getD 1 0 = 0xE0) (hi : msg.getD 3 0 = i) (h1 : 1 ≤ i) (h8 : i ≤ 8) :
    s.spdmAnswer msg rsp = some ([0, 0, 1] ++ leBytes 3 (s.measBlock i).length ++ s.measBlock i ++ rsp) := by
  subst hi
  unfold State.spdmAnswer
  dsimp only
  rw [if_neg (by rw [h]; decide), if_neg (by rw [h]; decide), if_neg (by rw [h]; decide), if_neg (by rw [h]; decide), if_neg (by rw [h]; decide),
    if_pos h, if_neg (by omega), if_neg (by omega), if_neg (by omega), if_neg (by omega), if_neg (by omega), if_neg (by omega)]

/-! ### GET_VERSION and requests that are unknown -/

/-- R420: an unknown request is answered ERROR 7. -/
theorem State.attest_unknown {s : State} {i : Instr} {c : Cmd} {rsp : List Nat} (h : s.Takes c) (hlen : attestLenOk c = true)
    (hready : s.rb R.KEYS_IDENTITY_READY 0 = true) (hfirst : spdmCode c ≠ 0x84) (hunknown : spdmResponse (spdmCode c) = 0x7F) :
    s.attest i c rsp = (s.started 0x34 c .l).spdmError c 7 (spdmCode c) := by
  have hw := s.started_within 0x34 c .l
  have hrb : (s.started 0x34 c .l).rb R.KEYS_IDENTITY_READY 0 = true := by rw [State.rb, hw.rf (by decide), ← State.rb]; exact hready
  unfold State.attest
  dsimp only
  rw [State.vorane_takes h (by decide) hlen]
  rw [if_neg (by rw [hrb]; decide), if_neg hfirst, if_pos hunknown]

theorem State.attest_version {s : State} {i : Instr} {c : Cmd} {rsp : List Nat} (h : s.Takes c) (hlen : attestLenOk c = true)
    (hready : s.rb R.KEYS_IDENTITY_READY 0 = true) (hfirst : spdmCode c = 0x84) (hver : c.f 1 0 8 = 0x10) :
    s.attest i c rsp = ((s.started 0x34 c .l).spdmPut c.qp
      { stage := 1, transcript := cmdBytes c 1 (c.f 0 0 16) ++ [0x10, 0x04, 0, 0, 0, 1, 0x00, 0x12] }).spdmReply c [0x10, 0x04, 0, 0, 0, 1, 0x00, 0x12] := by
  have hw := s.started_within 0x34 c .l
  have hrb : (s.started 0x34 c .l).rb R.KEYS_IDENTITY_READY 0 = true := by rw [State.rb, hw.rf (by decide), ← State.rb]; exact hready
  have hn : 4 ≤ c.f 0 0 16 := by
    simp only [attestLenOk, Bool.and_eq_true, decide_eq_true_eq] at hlen
    exact hlen.1.1
  have hfirstByte : (cmdBytes c 1 (c.f 0 0 16)).getD 0 0 = 0x10 := (cmdBytes_getD (by omega)).trans hver
  unfold State.attest
  dsimp only
  rw [State.vorane_takes h (by decide) hlen]
  rw [if_neg (by rw [hrb]; decide), if_pos hfirst, if_neg (by rw [hfirstByte]; decide)]
  rfl

/-- Settles O50: the SPDM requests, each by its response. -/
theorem deviceAttestationComplete : Obligations.DeviceAttestationComplete := by
  unfold Obligations.DeviceAttestationComplete
  refine ⟨?_, ?_, ?_, ?_, ?_, ?_, ?_, ?_⟩
  · intro c s h hlen hcode hready hver
    refine completes_of_next rfl ?_
    rw [State.attest_version h hlen hready hcode hver]
    refine ⟨?_, ?_⟩
    · rw [(State.spdmReply_within _ _ _).sec (by decide)]
      unfold State.spdmPut
      rw [Tbl.get_put_same]
      rfl
    · exact State.answered_of_within h (State.spdmPut_within _ _ _) (by decide) (by decide)
  · intro c rsp s h hlen hcode hready hver hstage
    obtain ⟨hreq, -, -⟩ := spdmHeader hlen
    refine completes_of_next rfl ?_
    obtain ⟨hnext, -, hanswer⟩ := State.attest_leaves (i := .spdmGetCapabilities c rsp) h hlen hready (by rw [hcode]; decide) (by rw [hcode]; decide) hver
      (by rw [hcode]; exact hstage) (State.spdmAnswer_capabilities _ (rsp := rsp) (hreq.trans hcode))
    rw [hcode] at hnext hanswer
    exact ⟨hnext, hanswer⟩
  · intro c rsp s h hlen hcode hready hver hstage
    obtain ⟨hreq, -, -⟩ := spdmHeader hlen
    refine completes_of_next rfl ?_
    obtain ⟨hnext, -, hanswer⟩ := State.attest_leaves (i := .spdmNegotiateAlgorithms c rsp) h hlen hready (by rw [hcode]; decide) (by rw [hcode]; decide)
      hver (by rw [hcode]; exact hstage) (State.spdmAnswer_algorithms _ (rsp := rsp) (hreq.trans hcode))
    rw [hcode] at hnext hanswer
    exact ⟨hnext, hanswer⟩
  · intro c rsp s h hlen hcode hready hver hstage
    obtain ⟨hreq, -, -⟩ := spdmHeader hlen
    refine completes_of_next rfl ?_
    have hbody := (s.started 0x34 c .l).spdmAnswer_digests (rsp := rsp) (hreq.trans hcode)
    rw [State.chain_started, State.chain_started] at hbody
    obtain ⟨hnext, -, hanswer⟩ := State.attest_leaves (i := .spdmGetDigests c rsp) h hlen hready (by rw [hcode]; decide) (by rw [hcode]; decide)
      hver (by rw [hcode]; exact hstage) hbody
    rw [hcode] at hnext hanswer
    exact ⟨hnext, hanswer⟩
  · intro c rsp off n s h hlen hcode hready hver hstage hlong hslot hoff hin hn
    obtain ⟨hreq, hparam, -⟩ := spdmHeader hlen
    refine completes_of_next rfl ?_
    have hoff2 : ofBytes (((cmdBytes c 1 (c.f 0 0 16)).drop 4).take 2) = off := (ofBytes_cmdBytes (by omega) (by decide)).trans hoff.symm
    have hn2 : n = min (min (ofBytes (((cmdBytes c 1 (c.f 0 0 16)).drop 6).take 2)) 900) ((s.chain (c.f 1 16 8)).length - off) := by
      rw [ofBytes_cmdBytes (by omega) (by decide)]
      exact hn
    rw [← s.chain_started 0x34 c .l] at hin hn2
    have hbody := (s.started 0x34 c .l).spdmAnswer_certificate (rsp := rsp) (hreq.trans hcode) hparam hslot hoff2 hin hn2
    rw [State.chain_started] at hbody hin hn2
    obtain ⟨hnext, -, hanswer⟩ := State.attest_leaves (i := .spdmGetCertificate c rsp) h hlen hready (by rw [hcode]; decide) (by rw [hcode]; decide)
      hver (by rw [hcode]; exact hstage) hbody
    rw [hcode] at hnext hanswer
    have hn900 : n ≤ 900 := by omega
    have hnrest : n ≤ (s.chain (c.f 1 16 8)).length - off := by omega
    have hlength : ([0x12, 2, c.f 1 16 8, 0] ++ leBytes 2 n ++ leBytes 2 ((s.chain (c.f 1 16 8)).length - off - n) ++
        ((s.chain (c.f 1 16 8)).drop off).take n).length = 8 + n := by
      simp [leBytes, List.length_take, List.length_drop]
      omega
    have hout : spdmOut 0x82 ([c.f 1 16 8, 0] ++ leBytes 2 n ++ leBytes 2 ((s.chain (c.f 1 16 8)).length - off - n) ++
        ((s.chain (c.f 1 16 8)).drop off).take n) = [0x12, 2, c.f 1 16 8, 0] ++ leBytes 2 n ++
          leBytes 2 ((s.chain (c.f 1 16 8)).length - off - n) ++ ((s.chain (c.f 1 16 8)).drop off).take n := by
      refine List.take_of_length_le (le_trans (le_of_eq hlength) (by omega))
    rw [hout, hlength] at hanswer
    exact ⟨hnext, hanswer⟩
  · intro c rsp s h hlen hcode hready hver hstage hslot
    obtain ⟨hreq, hparam, -⟩ := spdmHeader hlen
    refine completes_of_next rfl ?_
    have hbody := (s.started 0x34 c .l).spdmAnswer_challenge (rsp := rsp) (hreq.trans hcode) (hparam.trans hslot)
    rw [State.chain_started] at hbody
    obtain ⟨hnext, hregs, hanswer⟩ := State.attest_leaves (i := .spdmChallenge c rsp) h hlen hready (by rw [hcode]; decide) (by rw [hcode]; decide)
      hver (by rw [hcode]; exact hstage) hbody
    have hcount := hregs R.KEYS_CHALLENGES (by decide) 0 0
    rw [State.spdmDone, State.spdmCounted, if_pos hcode, State.rf_inc_sat _ _ (by decide), State.rf_spdmPut, (s.started_within 0x34 c .l).rf (by decide)]
      at hcount
    rw [hcode] at hnext hanswer
    exact ⟨hnext, hcount, hanswer⟩
  · intro c rsp blocks s h hlen hcode hready hver hstage h1 h8 hblocks
    obtain ⟨hreq, -, hparam⟩ := spdmHeader hlen
    refine completes_of_next rfl ?_
    have hblock : (s.started 0x34 c .l).measBlock (c.f 1 24 8) = blocks := by
      rw [State.measBlock, State.measurement_started, hblocks]
    have hbody := (s.started 0x34 c .l).spdmAnswer_measurement (rsp := rsp) (hreq.trans hcode) hparam h1 h8
    rw [hblock] at hbody
    obtain ⟨hnext, hregs, hanswer⟩ := State.attest_leaves (i := .spdmGetMeasurements c rsp) h hlen hready (by rw [hcode]; decide) (by rw [hcode]; decide)
      hver (by rw [hcode]; exact hstage) hbody
    have hcount := hregs R.KEYS_MEAS_REQUESTS (by decide) 0 0
    rw [State.spdmDone, State.spdmCounted, if_neg (by rw [hcode]; decide), if_pos hcode, State.rf_inc_sat _ _ (by decide), State.rf_spdmPut,
      (s.started_within 0x34 c .l).rf (by decide)] at hcount
    rw [hcode] at hnext hanswer
    exact ⟨hnext, hcount, hanswer⟩
  · intro c s h hlen hfirst hunknown hready
    refine completes_of_next rfl ?_
    rw [State.attest_unknown h hlen hready hfirst hunknown]
    have hint : (s.started 0x34 c .l).Within (touch [4] [.irqLatch, .irqs]) ((s.started 0x34 c .l).setInt (keysPage 0) R.INT_KEYS_SPDM_ERROR) :=
      State.setInt_frame (by decide) (by decide) (State.frame_refl _ _)
    have herr (u : State) (x y : Nat) : u.spdmError c x y = (u.setInt (keysPage 0) R.INT_KEYS_SPDM_ERROR).reply c (4 :: packBytes [0x12, 0x7F, x, y]) := rfl
    rw [herr]
    exact State.answered_of_within h hint (by decide) (by decide)

end Sys2Proof.Machine
end

section
/-! The tables of shards (R405 to R414): what each operation on a shard changes. -/

namespace Sys2Proof.Machine

/-! ### Entries of a table -/

/-- An entry put in a table is the only one under its key. -/
theorem Tbl.mem_of_mem_put {α : Type} {t : Tbl α} {x : Nat} {a : α} {e : Nat × α} (h : e ∈ Tbl.put t x a) : e = (x, a) ∨ (e ∈ t ∧ e.1 ≠ x) :=
  (Tbl.mem_ins h).imp_right Tbl.mem_del

/-! ### Shards -/

theorem State.shard_setShard_same (s : State) (v i : Nat) (x : ShardSt) : (s.setShard v i x).shard v i = x := Tbl.getD_put_same _ _ _ _

theorem State.shard_of_sec {s t : State} (h : t.sec.shards = s.sec.shards) (v i : Nat) : t.shard v i = s.shard v i := by unfold State.shard; rw [h]

theorem shardKey_split (k : Nat) : shardKey (k / 131072) (k % 131072) = k := by unfold shardKey; omega

/-- Every entry of shard `i` of variant `v` is `x`, and there is one. -/
def State.ShardIs (s : State) (v i : Nat) (x : ShardSt) : Prop :=
  s.shard v i = x ∧ ∀ e ∈ s.sec.shards, e.1 = shardKey v i → e.2 = x

theorem State.shardIs_setShard (s : State) (v i : Nat) (x : ShardSt) : (s.setShard v i x).ShardIs v i x := by
  refine ⟨s.shard_setShard_same v i x, fun e he hk => ?_⟩
  rcases Tbl.mem_of_mem_put he with rfl | ⟨-, hne⟩
  · rfl
  · exact absurd hk hne

theorem State.ShardIs.of_sec {s t : State} {v i : Nat} {x : ShardSt} (h : s.ShardIs v i x) (ht : t.sec.shards = s.sec.shards) : t.ShardIs v i x :=
  ⟨(State.shard_of_sec ht v i).trans h.1, by rw [ht]; exact h.2⟩

theorem State.shard_setShard_ne (s : State) {v i w j : Nat} (x : ShardSt) (h : shardKey v i ≠ shardKey w j) : (s.setShard w j x).shard v i = s.shard v i :=
  Tbl.getD_put_ne _ _ _ h

theorem State.ShardIs.setShard_ne {s : State} {v i w j : Nat} {x : ShardSt} (h : s.ShardIs v i x) (y : ShardSt) (hne : shardKey v i ≠ shardKey w j) :
    (s.setShard w j y).ShardIs v i x := by
  refine ⟨(s.shard_setShard_ne y hne).trans h.1, fun e he hk => ?_⟩
  rcases Tbl.mem_of_mem_put he with rfl | ⟨hmem, -⟩
  · exact absurd hk.symm hne
  · exact h.2 e hmem hk

/-! ### Shards sent on, R411, R412 -/

theorem State.sec_sendBulk (s : State) (f : Frame) : (s.sendBulk f).sec = s.sec :=
  (State.sendBulk_frame (Sub.refl _) (s.frame_refl _) : s.Within _ (s.sendBulk f)).sec (by decide)

theorem State.sec_countShards (s : State) (v : Nat) : (s.countShards v).sec = s.sec :=
  (State.countShards_frame (Sub.refl _) (s.frame_refl _) : s.Within _ (s.countShards v)).sec (by decide)

theorem State.sec_sendShard (s : State) (v i : Nat) (m : Manifest) (sh : Shard) (n : Nat) :
    (s.sendShard v i m sh n).sec.shards = (s.setShard v i { s.shard v i with fwd := 2 }).sec.shards := by
  unfold State.sendShard
  rw [State.sec_sendBulk, State.sec_countShards]

/-- R412: what a turn of the forwarding does with an entry. -/
def State.forwardOne (t : State) (e : Nat × ShardSt) : State :=
  match t.nextOf e.1 with
  | none => t
  | some (m, sh, n) =>
    let out := t.sec.shards.countP fun (x : Nat × ShardSt) => x.2.fwd = 2 && (t.nextOf x.1).map (fun y => y.2.2) = some n
    if out < 16 then t.sendShard (e.1 / 131072) (e.1 % 131072) m sh n else t

theorem State.forwardShards_eq (s : State) :
    s.forwardShards = s.each (byOrder (s.sec.shards.filter fun (e : Nat × ShardSt) => e.2.fwd = 1)) State.forwardOne := rfl

/-- A turn leaves the entries as they were, or marks its own as sent. -/
theorem State.forwardOne_cases (t : State) (e : Nat × ShardSt) :
    (t.forwardOne e).sec.shards = t.sec.shards ∨
    (t.forwardOne e).sec.shards = (t.setShard (e.1 / 131072) (e.1 % 131072) { t.shard (e.1 / 131072) (e.1 % 131072) with fwd := 2 }).sec.shards := by
  unfold State.forwardOne
  split
  · exact .inl rfl
  · dsimp only
    split
    · exact .inr (State.sec_sendShard _ _ _ _ _ _)
    · exact .inl rfl

theorem mem_ins_byOrder {x e : Nat × ShardSt} {l : List (Nat × ShardSt)} (h : e ∈ byOrder.ins x l) : e = x ∨ e ∈ l := by
  induction l with
  | nil => exact .inl (List.mem_singleton.1 h)
  | cons y l ih =>
    unfold byOrder.ins at h
    split at h
    · exact List.mem_cons.1 h
    · rcases List.mem_cons.1 h with rfl | h
      · exact .inr List.mem_cons_self
      · exact (ih h).imp_right (List.mem_cons_of_mem _)

theorem mem_of_mem_byOrder {e : Nat × ShardSt} {l : List (Nat × ShardSt)} (h : e ∈ byOrder l) : e ∈ l := by
  induction l with
  | nil => exact h
  | cons y l ih =>
    rcases mem_ins_byOrder h with rfl | h
    · exact List.mem_cons_self
    · exact List.mem_cons_of_mem _ (ih h)

/-- R412: a shard that does not wait to be sent stays as it is. -/
theorem State.ShardIs.forwardShards {s : State} {v i : Nat} {x : ShardSt} (h : s.ShardIs v i x) (hfwd : x.fwd ≠ 1) : s.forwardShards.ShardIs v i x := by
  rw [State.forwardShards_eq]
  refine State.each_ind (fun t => t.ShardIs v i x) h fun e he t ht => ?_
  have hmem := List.mem_filter.1 (mem_of_mem_byOrder he)
  have hne : shardKey v i ≠ shardKey (e.1 / 131072) (e.1 % 131072) := by
    rw [shardKey_split]
    intro hk
    have hone : e.2.fwd = 1 := of_decide_eq_true hmem.2
    rw [h.2 e hmem.1 hk.symm] at hone
    exact hfwd hone
  rcases t.forwardOne_cases e with hs | hs
  · exact ht.of_sec hs
  · exact (ht.setShard_ne _ hne).of_sec hs

/-- R412: forwarding leaves where every shard is kept. -/
theorem State.kept_forwardShards (s : State) (v i : Nat) :
    (s.forwardShards.shard v i).held = (s.shard v i).held ∧ (s.forwardShards.shard v i).transit = (s.shard v i).transit ∧
    (s.forwardShards.shard v i).addr = (s.shard v i).addr := by
  rw [State.forwardShards_eq]
  refine State.each_ind (fun t => (t.shard v i).held = (s.shard v i).held ∧ (t.shard v i).transit = (s.shard v i).transit ∧
    (t.shard v i).addr = (s.shard v i).addr) ⟨rfl, rfl, rfl⟩ fun e _ t ht => ?_
  rcases t.forwardOne_cases e with hs | hs
  · rw [State.shard_of_sec hs]
    exact ht
  · rw [State.shard_of_sec hs]
    by_cases hk : shardKey v i = shardKey (e.1 / 131072) (e.1 % 131072)
    · have hsame : t.shard (e.1 / 131072) (e.1 % 131072) = t.shard v i := by unfold State.shard; rw [hk]
      have hset (y : ShardSt) : (t.setShard (e.1 / 131072) (e.1 % 131072) y).shard v i = y := by
        unfold State.shard State.setShard
        rw [hk]
        exact Tbl.getD_put_same _ _ _ _
      rw [hset, hsame]
      exact ht
    · rw [t.shard_setShard_ne _ hk]
      exact ht

theorem State.forwardShards_within (s : State) : s.Within 0xe800000000007800000007000000000002 s.forwardShards :=
  State.forwardShards_frame (Sub.refl _) (s.frame_refl _)

end Sys2Proof.Machine
end

section
/-! Fetching, keeping and forwarding shards (R407 to R414; O49). -/

namespace Sys2Proof.Machine

/-! ### A command that ends -/

theorem State.openCmd_finish (s : State) (q n : Nat) (body : List Nat) : (s.finish q n body).openCmd q n = none := by
  have hgone (u : State) (h : u.cmds = s.cmds.filter fun x => !(x.qp = q && x.cmdId = n)) : u.openCmd q n = none := by
    unfold State.openCmd
    rw [h, List.find?_eq_none]
    intro x hx
    have := (List.mem_filter.1 hx).2
    simpa [or_iff_not_imp_left] using this
  unfold State.finish
  split
  · assumption
  · have hsent (u : State) (o i r a : Nat) (b : List Nat) : (u.sendCompletion q i o r a b).cmds = u.cmds :=
      (State.sendCompletion_frame (Sub.refl _) (u.frame_refl _) : u.Within _ (u.sendCompletion q i o r a b)).cmds (by decide)
    have hrec (u : State) (f : CmdRec → CmdRec) : (u.setRec q n f).cmds = u.cmds :=
      (State.setRec_frame (Sub.refl _) (u.frame_refl _) : u.Within _ (u.setRec q n f)).cmds (by decide)
    dsimp only
    split
    · exact hgone _ (hrec _ _)
    · exact hgone _ ((hsent _ _ _ _ _ _).trans (hrec _ _))

theorem State.finish_within (s : State) (q n : Nat) (body : List Nat) : s.Within 0x8000000000320000000000030000000000 (s.finish q n body) :=
  State.finish_frame (Sub.refl _) (s.frame_refl _)

/-! ### Bytes written to external memory -/

/-- R261: a write to a stack that has failed is an error of its page. -/
theorem State.stackFailedAccess_eq (s : State) (st a : Nat) : s.stackFailedAccess st a = s.blockErr (hbmPage st) 0x12 a 0 0 := by
  unfold State.stackFailedAccess
  dsimp only
  rw [if_pos rfl]

theorem State.hbmWrite_failed {s : State} {a n v st off : Nat} {h : Bool} {by_ : Option Nat} (hd : hbmDecode s.interleave a = some (st, off))
    (hf : s.rb R.HBM_FAILED st = true) : s.hbmWrite a n v h by_ = s.blockErr (hbmPage st) 0x12 a 0 0 := by
  unfold State.hbmWrite
  rw [hd]
  dsimp only
  rw [if_pos hf, State.stackFailedAccess_eq]

theorem State.hbmWrite_none {s : State} {a n v : Nat} {h : Bool} {by_ : Option Nat} (hd : hbmDecode s.interleave a = none) :
    s.hbmWrite a n v h by_ = s := by
  unfold State.hbmWrite
  rw [hd]

/-- The bytes written to a stack, with the codeword's tag. -/
def State.hbmStored (s : State) (st off n v : Nat) (h : Bool) : State :=
  let s1 := { s with hbm := Mem.write s.hbm (hbmKey st off) n v }
  if h then (s1.setHbmTag st off 0xFF).inc R.HBM1_HOLLOW_WRITES st else s1.setHbmTag st off 0

theorem State.hbmWrite_stored {s : State} {a n v st off : Nat} {h : Bool} {by_ : Option Nat} (hd : hbmDecode s.interleave a = some (st, off))
    (hf : s.rb R.HBM_FAILED st = false) :
    s.hbmWrite a n v h by_ = ((s.hbmStored st off n v (h || s.hbmHollow st off)).inc R.HBM_WRITE_BYTES st n).clearResv st off by_ := by
  unfold State.hbmWrite
  rw [hd]
  dsimp only
  rw [if_neg (by rw [hf]; decide)]
  rfl

theorem State.hbm_hbmStored (s : State) (st off n v : Nat) (h : Bool) : (s.hbmStored st off n v h).hbm = Mem.write s.hbm (hbmKey st off) n v := by
  unfold State.hbmStored
  split
  · rw [State.inc_hbm]
    rfl
  · rfl

theorem State.rf_hbmStored (s : State) (st off n v : Nat) (h : Bool) {g : Field} (hne : g.code ≠ R.HBM1_HOLLOW_WRITES.code) (j l : Nat) :
    (s.hbmStored st off n v h).rf g j l = s.rf g j l := by
  unfold State.hbmStored
  split
  · rw [State.rf_inc_of_code _ hne]
    rfl
  · rfl

/-- What a write of external memory leaves of the stacks. -/
theorem State.rf_hbmWrite (s : State) (a n v : Nat) (h : Bool) (by_ : Option Nat) {g : Field} (hg : g.plain)
    (hne : g.code ≠ R.HBM1_HOLLOW_WRITES.code ∧ g.code ≠ R.HBM_WRITE_BYTES.code) (j l : Nat) :
    (s.hbmWrite a n v h by_).rf g j l = s.rf g j l := by
  have hresv (u : State) (st off : Nat) : (u.clearResv st off by_).rf g j l = u.rf g j l := rfl
  rcases hd : hbmDecode s.interleave a with _ | ⟨st, off⟩
  · rw [State.hbmWrite_none hd]
  · rcases hf : s.rb R.HBM_FAILED st with _ | _
    · rw [State.hbmWrite_stored hd hf, hresv, State.rf_inc_of_code _ hne.2, State.rf_hbmStored _ _ _ _ _ _ hne.1]
    · rw [State.hbmWrite_failed hd hf, State.rf_blockErr_plain _ _ _ _ _ _ hg]

/-- Two states in which a write of external memory writes the same bytes. -/
structure State.SameHbm (s t : State) : Prop where
  hbm : t.hbm = s.hbm
  interleave : t.interleave = s.interleave
  failed : ∀ st, t.rf R.HBM_FAILED st = s.rf R.HBM_FAILED st

theorem State.hbm_blockErr (s : State) (p : Page) (cause addr data ints : Nat) : (s.blockErr p cause addr data ints).hbm = s.hbm :=
  (State.blockErr_frame (M := 2 ^ 80 - 1 + 2 ^ 83 + 2 ^ 84 + 2 ^ 85 + 2 ^ 86) (by decide) (Sub.anyPage (Sub.refl _) (by decide) p) (s.frame_refl _)).hbm (by decide)

theorem State.SameHbm.hbmWrite {s t : State} (h : s.SameHbm t) (a n v : Nat) (hollow : Bool) (by_ : Option Nat) :
    (s.hbmWrite a n v hollow by_).SameHbm (t.hbmWrite a n v hollow by_) := by
  refine ⟨?_, ?_, fun st => ?_⟩
  · have hresv (u : State) (st off : Nat) : (u.clearResv st off by_).hbm = u.hbm := rfl
    rcases hd : hbmDecode s.interleave a with _ | ⟨st, off⟩
    · rw [State.hbmWrite_none hd, State.hbmWrite_none (by rw [h.interleave]; exact hd), h.hbm]
    · have hd2 : hbmDecode t.interleave a = some (st, off) := by rw [h.interleave]; exact hd
      have hsame : t.rb R.HBM_FAILED st = s.rb R.HBM_FAILED st := by rw [State.rb, h.failed, ← State.rb]
      rcases hf : s.rb R.HBM_FAILED st with _ | _
      · rw [State.hbmWrite_stored hd hf, State.hbmWrite_stored hd2 (hsame.trans hf), hresv, hresv, State.inc_hbm, State.inc_hbm,
          State.hbm_hbmStored, State.hbm_hbmStored, h.hbm]
      · rw [State.hbmWrite_failed hd hf, State.hbmWrite_failed hd2 (hsame.trans hf), State.hbm_blockErr, State.hbm_blockErr, h.hbm]
  · have hkept (u : State) : (u.hbmWrite a n v hollow by_).interleave = u.interleave := u.rf_hbmWrite _ _ _ _ _ (by decide) (by decide) _ _
    rw [hkept, hkept, h.interleave]
  · rw [State.rf_hbmWrite _ _ _ _ _ _ (by decide) (by decide), State.rf_hbmWrite _ _ _ _ _ _ (by decide) (by decide), h.failed]

theorem State.SameHbm.each {α : Type} {l : List α} {f : State → α → State} (hf : ∀ x s t, State.SameHbm s t → (f s x).SameHbm (f t x)) {s t : State}
    (h : s.SameHbm t) : (s.each l f).SameHbm (t.each l f) := by
  unfold State.each
  induction l generalizing s t with
  | nil => exact h
  | cons x l ih => exact ih (hf x s t h)

/-- Bytes put in external memory do not depend on the rest of the state. -/
theorem State.SameHbm.hbmPut {s t : State} (h : s.SameHbm t) (a : Nat) (bs : List (Nat × Bool)) : (s.hbmPut a bs).SameHbm (t.hbmPut a bs) := by
  unfold State.hbmPut
  dsimp only
  refine State.SameHbm.each (fun x u w huw => ?_) h
  exact huw.hbmWrite _ _ _ _ _

theorem State.SameHbm.of_within {s t : State} {m : Nat} (h : s.Within m t) (hregs : m.testBit 0x20 = false) (hhbm : m.testBit 106 = false) : s.SameHbm t :=
  ⟨h.hbm hhbm, h.rf (by rw [show R.HBM_INTERLEAVE_GIB.area = 0x20 from by decide]; exact hregs),
    fun _ => h.rf (by rw [show R.HBM_FAILED.area = 0x20 from by decide]; exact hregs)⟩

/-! ### HUSK_FETCH, R407 -/

theorem State.onChain_of_here {s t : State} (h : t.here = s.here) (m : Manifest) (sh : Shard) : t.onChain m sh = s.onChain m sh := by
  unfold State.onChain State.places
  rw [h]

theorem State.upstream_of_here {s t : State} (h : t.here = s.here) (m : Manifest) (sh : Shard) : t.upstream m sh = s.upstream m sh := by
  unfold State.upstream State.places
  rw [h]

theorem State.Within.here {s t : State} {m : Nat} (h : s.Within m t) (hm : m.testBit 0x31 = false) : t.here = s.here := by
  unfold State.here
  rw [h.rf (by rw [show R.TORUS1_SIZE_POSITION.area = 0x31 from by decide]; exact hm)]

theorem State.Within.shard {s t : State} {m : Nat} (h : s.Within m t) (hm : m.testBit 131 = false) (v i : Nat) : t.shard v i = s.shard v i :=
  State.shard_of_sec (congrArg SecSt.shards (h.sec hm)) v i

/-- R407: a shard that is not here is fetched. -/
theorem State.huskFetch_of {s : State} {c : Cmd} {m : Manifest} {sh : Shard} (hm : s.man (c.f 0 0 6) = some m) (hsh : m.shards[c.f 0 6 17]? = some sh)
    (hon : s.onChain m sh = true) (hno : (s.shard (c.f 0 0 6) (c.f 0 6 17)).have_ = false) :
    s.huskFetch c = ({ s with sec := { s.sec with fetches := s.sec.fetches ++ [(c.qp, c.cmdId, c.f 0 0 6, c.f 0 6 17)] } }).issueRead c.qp (c.w 1)
      (c.f 2 0 32) sh.bytes := by
  unfold State.huskFetch
  dsimp only
  rw [hm]
  dsimp only
  rw [hsh]
  dsimp only
  rw [if_neg (by rw [hon]; decide), if_neg (by rw [hno]; decide)]

/-! ### HUSK_VERIFIED, R407, R412 -/

/-- The state in which a fetch whose read is done is judged. -/
def State.fetched (s : State) (e : Nat × Nat × Nat × Nat) : State := ({ s with sec := { s.sec with fetches := s.sec.fetches.erase e } }).readDone e.1

theorem State.fetched_within (s : State) (e : Nat × Nat × Nat × Nat) :
    ({ s with sec := { s.sec with fetches := s.sec.fetches.erase e } } : State).Within 0x8000000000200000000000030000000000 (s.fetched e) :=
  State.readDone_frame (Sub.refl _) (State.frame_refl _ _)

/-- R407: a whole husk read from the host is kept and its command ends. -/
theorem State.huskVerified_of {s : State} {v i a : Nat} {husk : List Nat} {e : Nat × Nat × Nat × Nat} {o : OpenCmd} {m : Manifest} {sh : Shard}
    (hfind : (s.sec.fetches.find? fun (e : Nat × Nat × Nat × Nat) => e.2.2.1 = v && e.2.2.2 = i) = some e) (ho : s.openCmd e.1 e.2.1 = some o)
    (hm : s.man v = some m) (hsh : m.shards[i]? = some sh) (hno : (s.shard v i).have_ = false) (hlen : husk.length = sh.bytes)
    (hdig : Config.sha384 husk = sh.digest) (hroom : s.huskRange a husk.length = true) :
    s.huskVerified v i true true a husk = ((s.fetched e).shardAccept v i m sh a husk).finish e.1 e.2.1 [ksOk] := by
  have hout : s.copyOutcome v i true husk = 0 := by
    unfold State.copyOutcome
    rw [if_neg (by decide), hm]
    simp [hsh, hlen, hdig]
  have hw := s.fetched_within e
  have ho2 : (s.fetched e).openCmd e.1 e.2.1 = some o := by
    unfold State.openCmd at ho ⊢
    rw [hw.cmds (by decide)]
    exact ho
  have hsec : (s.fetched e).sec = { s.sec with fetches := s.sec.fetches.erase e } := hw.sec (by decide)
  have hm2 : (s.fetched e).man v = some m := by
    unfold State.man at hm ⊢
    rw [hsec]
    exact hm
  have hno2 : ((s.fetched e).shard v i).have_ = false := by
    rw [State.shard_of_sec (s := s) (by rw [hsec])]
    exact hno
  unfold State.huskVerified
  dsimp only
  rw [hout, if_neg (by simp [hroom]), if_pos rfl]
  unfold State.fetchDone
  rw [hfind]
  dsimp only
  rw [← State.fetched, ho2]
  dsimp only
  rw [hm2]
  dsimp only
  rw [if_neg (by decide), if_neg (by decide), hsh]
  dsimp only
  rw [if_neg (by rw [hno2]; decide)]

/-- What R405 and R409 judge of a variant's shards leaves the counters of the CARAVAN page. -/
theorem State.rf_countShards (s : State) (v : Nat) {g : Field}
    (hne : g.code ≠ R.CARAVAN_OWN_HELD.code ∧ g.code ≠ R.CARAVAN_TRANSIT_OUT.code ∧ g.code ≠ R.CARAVAN_NEEDED.code) (j l : Nat) :
    (s.countShards v).rf g j l = s.rf g j l := by
  obtain ⟨h1, h2, h3⟩ := hne
  unfold State.countShards
  dsimp only
  rw [State.rf_wf_of_code _ h3, State.rf_wf_of_code _ h2, State.rf_wf_of_code _ h1]

theorem State.rf_setVState (s : State) (v st : Nat) {g : Field} (hg : g.plain) (hne : g.code ≠ R.SERVE2_STATE.code) (j l : Nat) :
    (s.setVState v st).rf g j l = s.rf g j l := by
  rw [State.setVState, State.rf_setInt_plain _ _ _ hg, State.rf_wf_of_code _ hne]

theorem State.rf_judgeComplete (s : State) (v : Nat) {g : Field} (hg : g.plain) (hne : g.code ≠ R.CARAVAN_COMPLETE.code ∧ g.code ≠ R.SERVE2_STATE.code)
    (j l : Nat) : (s.judgeComplete v).rf g j l = s.rf g j l := by
  unfold State.judgeComplete
  split
  · rfl
  · dsimp only
    rw [State.rf_setInt_plain _ _ _ hg]
    split
    · rw [State.rf_setVState _ _ _ hg hne.2, State.rf_wf_of_code _ hne.1]
    · rw [State.rf_wf_of_code _ hne.1]

theorem State.rf_sendBulk (s : State) (f : Frame) {g : Field} (hg : g.offLink) (j l : Nat) : (s.sendBulk f).rf g j l = s.rf g j l :=
  (s.carries_sendFrame _ _).rf g hg j l

theorem State.rf_forwardShards (s : State) {g : Field} (hg : g.offLink)
    (hne : g.code ≠ R.CARAVAN_OWN_HELD.code ∧ g.code ≠ R.CARAVAN_TRANSIT_OUT.code ∧ g.code ≠ R.CARAVAN_NEEDED.code) (j l : Nat) :
    s.forwardShards.rf g j l = s.rf g j l := by
  rw [State.forwardShards_eq]
  refine State.each_eq (fun t => t.rf g j l) (fun e _ t => ?_) s
  unfold State.forwardOne
  split
  · rfl
  · dsimp only
    split
    · rw [State.sendShard, State.rf_sendBulk _ _ hg, State.rf_countShards _ _ hne]
      rfl
    · rfl

/-- R276, R412: an accepted husk, before the variant and its chain are judged. -/
def State.shardKept (s : State) (v i : Nat) (m : Manifest) (sh : Shard) (a : Nat) (husk : List Nat) : State :=
  let own := decide (sh.target = s.here)
  let n := s.sec.order
  let s1 := { s.hbmPut a (husk.map fun b => (b, false)) with sec := { s.sec with order := n + 1 } }
  (s1.setShard v i { held := own, transit := !own, fwd := if (s.downstream m sh).isSome then 1 else 0, order := n, addr := a }).inc
    R.CARAVAN_SHARDS_IN 0

theorem State.shardAccept_eq (s : State) (v i : Nat) (m : Manifest) (sh : Shard) (a : Nat) (husk : List Nat) :
    s.shardAccept v i m sh a husk = (((s.shardKept v i m sh a husk).countShards v).judgeComplete v).forwardShards := rfl

theorem State.rf_hbmPut (s : State) (a : Nat) (bs : List (Nat × Bool)) {g : Field} (hg : g.plain)
    (hne : g.code ≠ R.HBM1_HOLLOW_WRITES.code ∧ g.code ≠ R.HBM_WRITE_BYTES.code) (j l : Nat) : (s.hbmPut a bs).rf g j l = s.rf g j l :=
  State.each_eq (fun t => t.rf g j l) (fun _ _ t => t.rf_hbmWrite _ _ _ _ _ hg hne _ _) s

theorem State.shardKept_leaves (s : State) (v i : Nat) (m : Manifest) (sh : Shard) (a : Nat) (husk : List Nat) :
    (s.shardKept v i m sh a husk).shard v i =
      { held := decide (sh.target = s.here), transit := !decide (sh.target = s.here), fwd := if (s.downstream m sh).isSome then 1 else 0,
        order := s.sec.order, addr := a } ∧
    (s.shardKept v i m sh a husk).hbm = (s.hbmPut a (husk.map fun b => (b, false))).hbm ∧
    (s.shardKept v i m sh a husk).rf R.CARAVAN_SHARDS_IN 0 = (s.rf R.CARAVAN_SHARDS_IN 0 + 1) % 2 ^ 64 := by
  have hset (u : State) (x : SecSt) (y : ShardSt) : (({ u with sec := x } : State).setShard v i y).hbm = u.hbm ∧
      (({ u with sec := x } : State).setShard v i y).rf R.CARAVAN_SHARDS_IN 0 = u.rf R.CARAVAN_SHARDS_IN 0 := ⟨rfl, rfl⟩
  unfold State.shardKept
  refine ⟨?_, ?_, ?_⟩
  · rw [State.shard_of_sec (congrArg SecSt.shards (State.inc_sec _ _ _ _ _)), State.shard_setShard_same]
  · rw [State.inc_hbm, (hset _ _ _).1]
  · rw [State.rf_inc_wrap _ _ (by decide), (hset _ _ _).2, State.rf_hbmPut _ _ _ (by decide) (by decide)]
    rfl

/-- R276, R412: where an accepted husk is kept, and what is counted. -/
theorem State.shardAccept_leaves (s : State) (v i : Nat) (m : Manifest) (sh : Shard) (a : Nat) (husk : List Nat) :
    ((s.shardAccept v i m sh a husk).shard v i).held = decide (sh.target = s.here) ∧
    ((s.shardAccept v i m sh a husk).shard v i).transit = decide (sh.target ≠ s.here) ∧ ((s.shardAccept v i m sh a husk).shard v i).addr = a ∧
    (s.shardAccept v i m sh a husk).hbm = (s.hbmPut a (husk.map fun b => (b, false))).hbm ∧
    (s.shardAccept v i m sh a husk).rf R.CARAVAN_SHARDS_IN 0 = (s.rf R.CARAVAN_SHARDS_IN 0 + 1) % 2 ^ 64 := by
  have hjudge (u : State) : u.Within (touch [0x32, 0x38] [.irqLatch, .irqs]) ((u.countShards v).judgeComplete v) :=
    State.judgeComplete_frame (by decide) (State.countShards_frame (by decide) (u.frame_refl _))
  obtain ⟨hshard, hhbm, hcount⟩ := s.shardKept_leaves v i m sh a husk
  rw [State.shardAccept_eq]
  generalize s.shardKept v i m sh a husk = u at hshard hhbm hcount
  have hsec : ((u.countShards v).judgeComplete v).sec.shards = u.sec.shards := by rw [(hjudge u).sec (by decide)]
  obtain ⟨hheld, htransit, haddr⟩ := ((u.countShards v).judgeComplete v).kept_forwardShards v i
  rw [State.shard_of_sec hsec, hshard] at hheld htransit haddr
  refine ⟨hheld, htransit.trans ?_, haddr, ?_, ?_⟩
  · by_cases h : sh.target = s.here
    · simp [h]
    · simp [h]
  · rw [(State.forwardShards_within _).hbm (by decide), (hjudge u).hbm (by decide), hhbm]
  · rw [State.rf_forwardShards _ (by decide) (by decide), State.rf_judgeComplete _ _ (by decide) (by decide), State.rf_countShards _ _ (by decide), hcount]

/-! ### SHARD_FRAME and BULK_ACK, R411, R412 -/

/-- R411: a chunk of a shard that is awaited. -/
theorem State.shardFrame_of {s : State} {f : Frame} {v : Nat} {m : Manifest} {sh : Shard} (hv : s.variantOf (f.words.getD 0 0) (f.words.getD 1 0) = some v)
    (hm : s.man v = some m) (hsh : m.shards[f.words.getD 2 0]? = some sh) (hon : s.onChain m sh = true)
    (hno : (s.shard v (f.words.getD 2 0)).have_ = false) (hfwd : (s.shard v (f.words.getD 2 0)).fwd ≠ 3) :
    s.shardFrame f = ({ s with sec := { s.sec with lastIn := Tbl.put s.sec.lastIn v s.elapsed } }).setShard v (f.words.getD 2 0)
      { s.shard v (f.words.getD 2 0) with
        asked := none
        got := if (s.shard v (f.words.getD 2 0)).got.any fun g => g.1 = f.words.getD 3 0 then (s.shard v (f.words.getD 2 0)).got
          else (s.shard v (f.words.getD 2 0)).got ++ [(f.words.getD 3 0, f.words.getD 4 0)] } := by
  have hfind : ((s.man v).bind fun m => m.shards[f.words.getD 2 0]?.map fun sh => (m, sh)) = some (m, sh) := by
    rw [hm, Option.bind_some, hsh]
    rfl
  have hon2 : ({ s with sec := { s.sec with lastIn := Tbl.put s.sec.lastIn v s.elapsed } } : State).onChain m sh = true := hon
  have hno2 : (({ s with sec := { s.sec with lastIn := Tbl.put s.sec.lastIn v s.elapsed } } : State).shard v (f.words.getD 2 0)).have_ = false := hno
  have hfwd2 : (({ s with sec := { s.sec with lastIn := Tbl.put s.sec.lastIn v s.elapsed } } : State).shard v (f.words.getD 2 0)).fwd ≠ 3 := hfwd
  have hfind2 : ((({ s with sec := { s.sec with lastIn := Tbl.put s.sec.lastIn v s.elapsed } } : State).man v).bind fun m =>
      m.shards[f.words.getD 2 0]?.map fun sh => (m, sh)) = some (m, sh) := hfind
  unfold State.shardFrame
  dsimp only
  rw [hv]
  dsimp only
  rw [hfind2]
  dsimp only
  rw [if_neg (by rw [hon2]; decide), if_neg (fun h => h.elim (fun h => Bool.noConfusion (hno2.symm.trans h)) hfwd2)]
  rfl

/-- R412: the acknowledgement of a shard sent. -/
theorem State.bulkAck_of {s : State} {f : Frame} {hollow : Bool} {v : Nat} {m : Manifest} {sh : Shard}
    (hv : s.variantOf (f.words.getD 0 0) (f.words.getD 1 0) = some v) (hm : s.man v = some m) (hsh : m.shards[f.words.getD 2 0]? = some sh)
    (hcode : f.words.getD 3 0 = 0) (hfwd : (s.shard v (f.words.getD 2 0)).fwd = 2) :
    s.bulkAckReceive f hollow = (((s.setShard v (f.words.getD 2 0) { s.shard v (f.words.getD 2 0) with transit := false, fwd := 3, again := none }).countShards
      v).inc R.CARAVAN_SHARDS_FORWARDED 0).forwardShards := by
  have hfind : ((s.man v).bind fun m => m.shards[f.words.getD 2 0]?.map fun sh => (m, sh)) = some (m, sh) := by
    rw [hm, Option.bind_some, hsh]
    rfl
  unfold State.bulkAckReceive
  dsimp only
  rw [hv]
  dsimp only
  rw [hfind]
  dsimp only
  rw [if_pos hcode, if_neg (by rw [hfwd]; decide)]

/-! ### SHARD_TIMEOUT, R413 -/

/-- What a turn over a variant's shards keeps of what later turns are judged by. -/
structure State.ShardTurn (s t : State) : Prop where
  elapsed : t.elapsed = s.elapsed
  here : t.here = s.here
  timeout : t.shardTimeout = s.shardTimeout

theorem State.ShardTurn.refl (s : State) : s.ShardTurn s := ⟨rfl, rfl, rfl⟩

theorem State.ShardTurn.trans {s t u : State} (h : s.ShardTurn t) (g : t.ShardTurn u) : s.ShardTurn u :=
  ⟨g.elapsed.trans h.elapsed, g.here.trans h.here, g.timeout.trans h.timeout⟩

/-- The fields that a failed retry counts and reports. -/
theorem State.rf_hostAsk (s : State) (v i : Nat) (m : Manifest) {g : Field} (hg : g.plain)
    (hne : g.code ∉ [R.CARAVAN_HOST_REQUESTS.code, R.CARAVAN_LAST_NEED_STAMP.code, R.CARAVAN_NEED_VARIANT.code, R.CARAVAN_NEED_SHARD.code,
      R.CARAVAN_OWN_HELD.code, R.CARAVAN_TRANSIT_OUT.code, R.CARAVAN_NEEDED.code]) (j l : Nat) :
    (s.hostAsk v i m).rf g j l = s.rf g j l := by
  simp only [List.mem_cons, List.not_mem_nil, or_false, not_or] at hne
  obtain ⟨h1, h2, h3, h4, h5, h6, h7⟩ := hne
  unfold State.hostAsk
  dsimp only
  rw [State.rf_logEv_plain _ _ _ _ _ hg, State.rf_setInt_plain _ _ _ hg, State.rf_countShards _ _ ⟨h5, h6, h7⟩, State.rf_wf_of_code _ h4,
    State.rf_wf_of_code _ h3, State.rf_wf_of_code _ h2, State.rf_inc_of_code _ h1]

theorem State.sec_failedRetry (s : State) (v i : Nat) (m : Manifest) :
    (s.failedRetry v i m).sec.shards =
      (s.setShard v i { s.shard v i with retries := (s.shard v i).retries + 1, asked := none, resent := false, got := [] }).sec.shards := by
  have hask (u : State) : (u.hostAsk v i m).sec = u.sec :=
    (State.hostAsk_frame (Sub.refl _) (u.frame_refl _) : u.Within _ (u.hostAsk v i m)).sec (by decide)
  have hint (u : State) : (u.setInt caravanPage R.INT_CARAVAN_SHARD_RETRY).sec = u.sec :=
    (State.setInt_frame (M := touch [0x32] [.irqLatch, .irqs]) (by decide) (by decide) (u.frame_refl _)).sec (by decide)
  unfold State.failedRetry
  dsimp only
  split
  · rw [hint, State.inc_sec]
  · rw [hask, hint, State.inc_sec]

theorem State.shardTurn_failedRetry (s : State) (v i : Nat) (m : Manifest) : s.ShardTurn (s.failedRetry v i m) := by
  have hw : s.Within 0x800000000007800000004000000000002 (s.failedRetry v i m) := State.failedRetry_frame (Sub.refl _) (s.frame_refl _)
  have hset (x : ShardSt) : (((s.setShard v i x).inc R.CARAVAN_RETRIES 0).setInt caravanPage R.INT_CARAVAN_SHARD_RETRY).rf R.CARAVAN_SHARD_TIMEOUT_MS 0 =
      s.rf R.CARAVAN_SHARD_TIMEOUT_MS 0 := by
    rw [State.rf_setInt_plain _ _ _ (by decide), State.rf_inc_of_code _ (by decide)]
    rfl
  refine ⟨hw.elapsed (by decide), hw.here (by decide), ?_⟩
  unfold State.shardTimeout State.failedRetry
  dsimp only
  split
  · rw [hset]
  · rw [State.rf_hostAsk _ _ _ _ (by decide) (by decide), hset]

/-- R413: an ask changes the shard's own entry only. -/
theorem State.sec_askResend (s : State) (v i : Nat) (m : Manifest) (sh : Shard) :
    (s.askResend v i m sh).sec.shards = s.sec.shards ∨
    (s.askResend v i m sh).sec.shards = (s.setShard v i { s.shard v i with asked := some s.elapsed, resent := true, got := [] }).sec.shards := by
  unfold State.askResend
  dsimp only
  split
  · exact .inl rfl
  · split
    · exact .inl rfl
    · refine .inr ?_
      rw [State.bulkAck, State.sec_sendBulk]

theorem State.sec_askResend_of {s : State} {v i u : Nat} {m : Manifest} {sh : Shard} (hu : s.upstream m sh = some u) (hr : (s.shard v i).retries < 3) :
    (s.askResend v i m sh).sec.shards = (s.setShard v i { s.shard v i with asked := some s.elapsed, resent := true, got := [] }).sec.shards := by
  unfold State.askResend
  dsimp only
  rw [hu]
  dsimp only
  rw [if_neg (by omega), State.bulkAck, State.sec_sendBulk]

theorem State.shardTurn_askResend (s : State) (v i : Nat) (m : Manifest) (sh : Shard) : s.ShardTurn (s.askResend v i m sh) := by
  have hw : s.Within 0xe800000000007800000003000000000002 (s.askResend v i m sh) := State.askResend_frame (Sub.refl _) (s.frame_refl _)
  have hrf (g : Field) (hg : g.offLink) (j l : Nat) : (s.askResend v i m sh).rf g j l = s.rf g j l := by
    unfold State.askResend
    dsimp only
    split
    · rfl
    · split
      · rfl
      · rw [State.bulkAck, State.rf_sendBulk _ _ hg]
        rfl
  refine ⟨hw.elapsed (by decide), ?_, ?_⟩
  · unfold State.here
    rw [hrf _ (by decide)]
  · unfold State.shardTimeout
    rw [hrf _ (by decide)]

/-- What an operation on shard `j` leaves of shard `i`. -/
structure State.ShardBeside (s t : State) (v i : Nat) : Prop where
  turn : s.ShardTurn t
  shard : t.shard v i = s.shard v i
  is : ∀ x, s.ShardIs v i x → t.ShardIs v i x

theorem State.ShardBeside.refl (s : State) (v i : Nat) : s.ShardBeside s v i := ⟨.refl s, rfl, fun _ h => h⟩

theorem State.ShardBeside.trans {s t u : State} {v i : Nat} (h : s.ShardBeside t v i) (g : t.ShardBeside u v i) : s.ShardBeside u v i :=
  ⟨h.turn.trans g.turn, g.shard.trans h.shard, fun x hx => g.is x (h.is x hx)⟩

theorem State.ShardBeside.of_put {s t : State} {v i j : Nat} {x : ShardSt} (hturn : s.ShardTurn t) (hne : i ≠ j)
    (ht : t.sec.shards = (s.setShard v j x).sec.shards) : s.ShardBeside t v i := by
  have hk : shardKey v i ≠ shardKey v j := by unfold shardKey; omega
  exact ⟨hturn, (State.shard_of_sec ht v i).trans (s.shard_setShard_ne x hk), fun y hy => (hy.setShard_ne x hk).of_sec ht⟩

theorem State.shardBeside_askResend (s : State) {v i j : Nat} (m : Manifest) (sh : Shard) (hne : i ≠ j) : s.ShardBeside (s.askResend v j m sh) v i := by
  rcases s.sec_askResend v j m sh with h | h
  · exact ⟨s.shardTurn_askResend v j m sh, State.shard_of_sec h v i, fun _ hx => hx.of_sec h⟩
  · exact .of_put (s.shardTurn_askResend v j m sh) hne h

theorem State.shardBeside_failedRetry (s : State) {v i j : Nat} (m : Manifest) (hne : i ≠ j) : s.ShardBeside (s.failedRetry v j m) v i :=
  .of_put (s.shardTurn_failedRetry v j m) hne (s.sec_failedRetry v j m)

/-- R413: one shard's turn. -/
def State.shardOwed (t : State) (v : Nat) (m : Manifest) (quiet : Bool) (i : Nat) : State :=
  match m.shards[i]? with
  | none => t
  | some sh =>
    let x := t.shard v i
    if x.have_ ∨ x.fwd = 3 ∨ !t.onChain m sh ∨ 3 ≤ x.retries then t
    else match x.asked with
      | some a => if a + t.shardTimeout ≤ t.elapsed then (t.failedRetry v i m).askResend v i m sh else t
      | none => if quiet then t.askResend v i m sh else t

theorem State.shardExpiry_eq {s : State} {v : Nat} {m : Manifest} (hv : v ≠ 64) (hm : s.man v = some m) :
    s.shardExpiry v = (s.each (List.range m.shards.length) fun t i =>
      t.shardOwed v m (decide (Tbl.getD s.sec.lastIn v 0 + s.shardTimeout ≤ s.elapsed)) i).forwardShards := by
  unfold State.shardExpiry
  rw [if_neg hv, hm]
  rfl

theorem State.shardBeside_shardOwed (s : State) {v i j : Nat} (m : Manifest) (quiet : Bool) (hne : i ≠ j) :
    s.ShardBeside (s.shardOwed v m quiet j) v i := by
  unfold State.shardOwed
  split
  · exact .refl s v i
  · dsimp only
    split
    · exact .refl s v i
    · split
      · split
        · exact (s.shardBeside_failedRetry m hne).trans (State.shardBeside_askResend _ m _ hne)
        · exact .refl s v i
      · split
        · exact s.shardBeside_askResend m _ hne
        · exact .refl s v i

theorem State.shardBeside_each {v i : Nat} {m : Manifest} {quiet : Bool} {l : List Nat} (hi : i ∉ l) (s : State) :
    s.ShardBeside (s.each l fun t j => t.shardOwed v m quiet j) v i :=
  State.each_ind (fun t => s.ShardBeside t v i) (.refl s v i) fun _ hj t ht =>
    ht.trans (t.shardBeside_shardOwed m quiet fun he => hi (he ▸ hj))

/-- R413: the turn of a shard whose ask has gone unanswered. -/
theorem State.shardOwed_late {s : State} {v i a u : Nat} {m : Manifest} {sh : Shard} {quiet : Bool} (hsh : m.shards[i]? = some sh)
    (hon : s.onChain m sh = true) (hup : s.upstream m sh = some u) (hno : (s.shard v i).have_ = false) (hfwd : (s.shard v i).fwd = 0)
    (hr : (s.shard v i).retries < 2) (ha : (s.shard v i).asked = some a) (hlate : a + s.shardTimeout ≤ s.elapsed) :
    (s.shardOwed v m quiet i).ShardIs v i
      { s.shard v i with retries := (s.shard v i).retries + 1, asked := some s.elapsed, resent := true, got := [] } := by
  have hretry := s.sec_failedRetry v i m
  have hfailed : (s.failedRetry v i m).shard v i =
      { s.shard v i with retries := (s.shard v i).retries + 1, asked := none, resent := false, got := [] } :=
    (State.shard_of_sec hretry v i).trans (s.shard_setShard_same v i _)
  have hturn := s.shardTurn_failedRetry v i m
  have howed : s.shardOwed v m quiet i = (s.failedRetry v i m).askResend v i m sh := by
    unfold State.shardOwed
    rw [hsh]
    dsimp only
    rw [if_neg (by simp [hno, hfwd, hon]; omega), ha]
    dsimp only
    rw [if_pos hlate]
  rw [howed]
  have hask := (s.failedRetry v i m).sec_askResend_of (v := v) (i := i) (u := u) (by rw [State.upstream_of_here hturn.here]; exact hup) (by rw [hfailed]; dsimp only; omega)
  rw [hfailed, hturn.elapsed] at hask
  exact (State.shardIs_setShard _ _ _ _).of_sec hask

/-- R412: a shard that was not registered goes out again. -/
theorem State.notRegistered_of {s : State} {v i since n : Nat} {m : Manifest} {sh : Shard} (hv : v < 64) (hagain : (s.shard v i).again = some since)
    (hnext : s.nextOf (shardKey v i) = some (m, sh, n)) (hsince : since ≤ s.elapsed) (hfwd : (s.shard v i).fwd = 2) :
    s.notRegistered v i = (s.setShard v i { s.shard v i with again := some (s.elapsed + s.shardTimeout) }).sendShard v i m sh n := by
  unfold State.notRegistered
  rw [if_neg (by omega)]
  dsimp only
  rw [hagain, hnext]
  dsimp only
  rw [if_pos ⟨hsince, hfwd⟩]

/-- Settles O49: husks fetched and verified, and what shard frames, acknowledgements and timeouts leave. -/
theorem shardTransferComplete : Obligations.ShardTransferComplete := by
  unfold Obligations.ShardTransferComplete
  refine ⟨?_, ?_, ?_, ?_, ?_, ?_⟩
  · intro c m sh s h hwords hm hsh hon hno
    have hw := s.started_within 0x30 c .l
    refine completes_of_vorane rfl h (by decide) (by simp [hwords]) ?_
    rw [State.huskFetch_of (m := m) (sh := sh) (by rw [State.man, hw.sec (by decide), ← State.man]; exact hm) hsh
      (by rw [State.onChain_of_here (hw.here (by decide))]; exact hon) (by rw [hw.shard (by decide)]; exact hno)]
    have hread (u : State) (q a k n : Nat) : u.Within 0x8000000000200000000000030000000000 (u.issueRead q a k n) :=
      State.issueRead_frame (Sub.refl _) (u.frame_refl _)
    refine ⟨?_, ?_⟩
    · rw [(hread _ _ _ _ _).sec (by decide)]
      exact congrArg (· ++ _) (congrArg SecSt.fetches (hw.sec (by decide)))
    · rw [State.openCmd, (hread _ _ _ _ _).cmds (by decide)]
      exact congrArg Option.isSome (State.started_openCmd h.2.2.1)
  · intro v i a husk e o m sh s hfind ho hm hsh hno hlen hdig hroom
    refine completes_of_next rfl ?_
    rw [State.huskVerified_of hfind ho hm hsh hno hlen hdig hroom]
    have hw := s.fetched_within e
    have hhere : (s.fetched e).here = s.here := (hw.here (by decide))
    obtain ⟨hheld, htransit, haddr, hhbm, hcount⟩ := (s.fetched e).shardAccept_leaves v i m sh a husk
    have hend := ((s.fetched e).shardAccept v i m sh a husk).finish_within e.1 e.2.1 [ksOk]
    rw [hhere] at hheld htransit
    refine ⟨?_, ?_, ?_, ?_, ?_, State.openCmd_finish _ _ _ _⟩
    · rw [hend.shard (by decide), hheld]
    · rw [hend.shard (by decide), htransit]
    · rw [hend.shard (by decide), haddr]
    · rw [hend.hbm (by decide), hhbm]
      have hsame : ({ s with sec := { s.sec with fetches := s.sec.fetches.erase e } } : State).SameHbm (s.fetched e) := .of_within hw (by decide) (by decide)
      have hsame2 : s.SameHbm (s.fetched e) := ⟨hsame.hbm, hsame.interleave, hsame.failed⟩
      exact (hsame2.hbmPut a _).hbm
    · rw [hend.rf (by decide), hcount, hw.rf (by decide)]
      rfl
  · intro f v m sh s hv hm hsh hon hno hfwd
    refine completes_of_next rfl ?_
    rw [State.shardFrame_of hv hm hsh hon hno hfwd]
    exact ⟨State.shard_setShard_same _ _ _ _, Tbl.get_put_same _ _ _⟩
  · intro f hollow v m sh s hv hm hsh hcode hfwd
    refine completes_of_next rfl ?_
    rw [State.bulkAck_of hv hm hsh hcode hfwd]
    have hput := State.shardIs_setShard s v (f.words.getD 2 0) { s.shard v (f.words.getD 2 0) with transit := false, fwd := 3, again := none }
    have hinc : (((s.setShard v (f.words.getD 2 0) { s.shard v (f.words.getD 2 0) with transit := false, fwd := 3, again := none }).countShards v).inc
        R.CARAVAN_SHARDS_FORWARDED 0).sec.shards =
        (s.setShard v (f.words.getD 2 0) { s.shard v (f.words.getD 2 0) with transit := false, fwd := 3, again := none }).sec.shards := by
      rw [State.inc_sec, State.sec_countShards]
    have his := (hput.of_sec hinc).forwardShards (by dsimp only; decide)
    refine ⟨by rw [his.1], by rw [his.1], ?_⟩
    rw [State.rf_forwardShards _ (by decide) (by decide), State.rf_inc_wrap _ _ (by decide), State.rf_countShards _ _ (by decide)]
    rfl
  · intro v i a u m sh s hm hsh hon hup hv hno hfwd hr ha hlate
    refine completes_of_next rfl ?_
    rw [State.shardExpiry_eq hv hm]
    obtain ⟨hi, -⟩ := List.getElem?_eq_some_iff.1 hsh
    obtain ⟨l, r, hsplit⟩ := List.append_of_mem (List.mem_range.2 hi)
    have hnodup := List.nodup_range (n := m.shards.length)
    rw [hsplit] at hnodup ⊢
    obtain ⟨-, hr2, hdis⟩ := List.nodup_append.1 hnodup
    have hl : i ∉ l := fun hmem => hdis _ hmem _ List.mem_cons_self rfl
    have hrr : i ∉ r := (List.nodup_cons.1 hr2).1
    generalize decide (Tbl.getD s.sec.lastIn v 0 + s.shardTimeout ≤ s.elapsed) = quiet
    have hbefore := State.shardBeside_each (v := v) (m := m) (quiet := quiet) hl s
    have heach : (s.each (l ++ i :: r) fun t j => t.shardOwed v m quiet j) =
        (((s.each l fun t j => t.shardOwed v m quiet j).shardOwed v m quiet i).each r fun t j => t.shardOwed v m quiet j) := by
      simp [State.each]
    rw [heach]
    generalize (s.each l fun t j => t.shardOwed v m quiet j) = b at hbefore ⊢
    have hturn := State.shardOwed_late (s := b) (quiet := quiet) hsh (by rw [State.onChain_of_here hbefore.turn.here]; exact hon)
      (by rw [State.upstream_of_here hbefore.turn.here]; exact hup) (by rw [hbefore.shard]; exact hno) (by rw [hbefore.shard]; exact hfwd)
      (by rw [hbefore.shard]; exact hr) (by rw [hbefore.shard]; exact ha) (by rw [hbefore.turn.timeout, hbefore.turn.elapsed]; exact hlate)
    rw [hbefore.shard, hbefore.turn.elapsed] at hturn
    have hafter := (State.shardBeside_each (v := v) (m := m) (quiet := quiet) hrr (b.shardOwed v m quiet i)).is _ hturn
    exact (hafter.forwardShards (by dsimp only; rw [hfwd]; decide)).1
  · intro v i since n m sh s hv hagain hnext hsince hfwd
    refine completes_of_next rfl ?_
    rw [State.notRegistered_of hv hagain hnext hsince hfwd, State.shard_of_sec (State.sec_sendShard _ _ _ _ _ _), State.shard_setShard_same,
      State.shard_setShard_same]
    have hsame (x : ShardSt) (y : Option Nat) (h : x.fwd = 2) : { { x with again := y } with fwd := 2 } = { x with again := y } := by
      cases x
      cases h
      rfl
    exact hsame _ _ hfwd

end Sys2Proof.Machine
end

section
/-! Model keys and manifests (R402 to R410; O48). -/

namespace Sys2Proof.Machine

/-! ### Facts about the counts of keys -/

/-- R429: the counts of keys leave the slots. -/
theorem State.rf_countKeys (s : State) {g : Field} (hne : g.code ≠ R.KEYS1_REFS.code ∧ g.code ≠ R.KEYS1_KEYS_LOADED.code) (j l : Nat) :
    s.countKeys.rf g j l = s.rf g j l := by
  unfold State.countKeys
  dsimp only
  rw [State.rf_wf_of_code _ hne.2]
  exact State.each_eq (fun t => t.rf g j l) (fun _ _ t => t.rf_wf_of_code hne.1 _ _ _ _ _) s

theorem State.countKeys_within (s : State) : s.Within (touch [4] []) s.countKeys := State.countKeys_frame (by decide) (s.frame_refl _)

theorem State.Within.keySlot {s t : State} {m : Nat} (h : s.Within m t) (hm : m.testBit 4 = false) (id : Nat) : t.keySlot id = s.keySlot id := by
  have hl (k : Nat) : t.rf R.KEYS1_LOADED 0 k = s.rf R.KEYS1_LOADED 0 k := h.rf (by rw [show R.KEYS1_LOADED.area = 4 from by decide]; exact hm)
  have hi (k : Nat) : t.rf R.KEYS1_KEY_ID 0 k = s.rf R.KEYS1_KEY_ID 0 k := h.rf (by rw [show R.KEYS1_KEY_ID.area = 4 from by decide]; exact hm)
  simp only [State.keySlot, State.rb, hl, hi]

theorem State.Within.keyCheck {s t : State} {m : Nat} (h : s.Within m t) (hm : m.testBit 4 = false) (c : Cmd) (ok : Bool) :
    t.keyCheck c ok = s.keyCheck c ok := by
  have hl (k : Nat) : t.rf R.KEYS1_LOADED 0 k = s.rf R.KEYS1_LOADED 0 k := h.rf (by rw [show R.KEYS1_LOADED.area = 4 from by decide]; exact hm)
  have hi (k : Nat) : t.rf R.KEYS1_KEY_ID 0 k = s.rf R.KEYS1_KEY_ID 0 k := h.rf (by rw [show R.KEYS1_KEY_ID.area = 4 from by decide]; exact hm)
  have hr (k : Nat) : t.rf R.KEYS1_REFS 0 k = s.rf R.KEYS1_REFS 0 k := h.rf (by rw [show R.KEYS1_REFS.area = 4 from by decide]; exact hm)
  have hy : t.rf R.KEYS_IDENTITY_READY 0 = s.rf R.KEYS_IDENTITY_READY 0 := h.rf (by rw [show R.KEYS_IDENTITY_READY.area = 4 from by decide]; exact hm)
  unfold State.keyCheck State.rb
  dsimp only
  rw [h.keySlot hm, hl, hi, hr, hy]

/-- R404: an import that passes but for its unwrap. -/
theorem State.keyCheck_unwrap {s : State} {c : Cmd} (h : s.keyCheck c true = ksOk) (hdel : c.b 0 6 = false) : s.keyCheck c false = ksUnwrapFailed := by
  unfold State.keyCheck at h ⊢
  dsimp only at h ⊢
  rw [hdel] at h ⊢
  repeat' split at h
  all_goals first | exact absurd h (by decide) | simp_all

/-- R404: a delete does not look at the unwrap. -/
theorem State.keyCheck_delete {s : State} {c : Cmd} (hdel : c.b 0 6 = true) (ok : Bool) : s.keyCheck c ok = s.keyCheck c false := by
  unfold State.keyCheck
  dsimp only
  rw [hdel]
  rfl

theorem State.rf_sec (s : State) (x : SecSt) (g : Field) (j l : Nat) : ({ s with sec := x } : State).rf g j l = s.rf g j l := rfl

/-! ### MODEL_KEY_IMPORT, R402 to R404 -/

/-- The slot `k` filled with a key, its id and its publisher's key. -/
def State.keyStored (s : State) (k id pub key : Nat) : State :=
  let s1 := (s.wf R.KEYS1_KEY_ID 0 id k).wf R.KEYS1_LOADED 0 1 k
  { s1 with sec := { s1.sec with pubs := Tbl.put s1.sec.pubs k pub, models := Tbl.put s1.sec.models k key } }

/-- The slot `k` emptied. -/
def State.keyDropped (s : State) (k : Nat) : State :=
  let s1 := (s.wf R.KEYS1_KEY_ID 0 0 k).wf R.KEYS1_LOADED 0 0 k
  { s1 with sec := { s1.sec with pubs := Tbl.del s1.sec.pubs k, models := Tbl.del s1.sec.models k } }

theorem State.keyImport_stored {s : State} {c : Cmd} {low : Bool} {key : Nat} (hk : modelKeyOf c low = some key) (hok : s.keyCheck c true = ksOk)
    (hdel : c.b 0 6 = false) :
    s.keyImport c low = (((s.keyStored (c.f 0 0 6) (c.w 1) (ofBe (cmdBytes c 19 96 low)) key).countKeys.inc R.KEYS1_IMPORTS 0).setInt (keysPage 1)
      R.INT_KEYS1_IMPORTED).reply c [ksOk] := by
  unfold State.keyImport
  rw [hk]
  dsimp only [Option.isSome_some]
  rw [hok, if_neg (by decide), if_neg (by decide), if_neg (by rw [hdel]; decide)]
  rfl

theorem State.keyImport_unwrap {s : State} {c : Cmd} {low : Bool} (hk : modelKeyOf c low = none) (hok : s.keyCheck c true = ksOk)
    (hdel : c.b 0 6 = false) :
    s.keyImport c low = ((s.inc R.KEYS1_UNWRAP_FAILS 0).setInt (keysPage 1) R.INT_KEYS1_UNWRAP_FAILED).reply c [ksUnwrapFailed] := by
  unfold State.keyImport
  rw [hk]
  dsimp only [Option.isSome_none]
  rw [State.keyCheck_unwrap hok hdel, if_pos rfl]

theorem State.keyImport_dropped {s : State} {c : Cmd} {low : Bool} (hok : s.keyCheck c false = ksOk) (hdel : c.b 0 6 = true) :
    s.keyImport c low = (s.keyDropped (c.f 0 0 6)).countKeys.reply c [ksOk] := by
  unfold State.keyImport
  dsimp only
  rw [State.keyCheck_delete hdel, hok, if_neg (by decide), if_neg (by decide), if_pos hdel]
  rfl

theorem State.keyStored_within (s : State) (k id pub key : Nat) : s.Within (touch [4] [.sec]) (s.keyStored k id pub key) := by
  have hw : s.Within (touch [4] [.sec]) ((s.wf R.KEYS1_KEY_ID 0 id k).wf R.KEYS1_LOADED 0 1 k) := State.wf_frame (by decide) (State.wf_frame (by decide) (s.frame_refl _))
  refine State.frame_mk hw ?_
  simp only [true_or, or_true, and_true, (by decide : (touch [4] [.sec]).testBit 131 = true)]

theorem State.keyDropped_within (s : State) (k : Nat) : s.Within (touch [4] [.sec]) (s.keyDropped k) := by
  have hw : s.Within (touch [4] [.sec]) ((s.wf R.KEYS1_KEY_ID 0 0 k).wf R.KEYS1_LOADED 0 0 k) := State.wf_frame (by decide) (State.wf_frame (by decide) (s.frame_refl _))
  refine State.frame_mk hw ?_
  simp only [true_or, or_true, and_true, (by decide : (touch [4] [.sec]).testBit 131 = true)]

theorem State.rf_keyStored (s : State) (k id pub key : Nat) :
    (s.keyStored k id pub key).rf R.KEYS1_LOADED 0 k = 1 ∧ (s.keyStored k id pub key).rf R.KEYS1_KEY_ID 0 k = id % 2 ^ 64 := by
  unfold State.keyStored
  refine ⟨?_, ?_⟩
  · rw [State.rf_sec, State.rf_wf_same]
    rfl
  · rw [State.rf_sec, State.rf_wf_of_code _ (by decide), State.rf_wf_same]
    rfl

theorem State.rf_keyDropped (s : State) (k : Nat) : (s.keyDropped k).rf R.KEYS1_LOADED 0 k = 0 ∧ (s.keyDropped k).rf R.KEYS1_KEY_ID 0 k = 0 := by
  unfold State.keyDropped
  refine ⟨?_, ?_⟩
  · rw [State.rf_sec, State.rf_wf_same]
    rfl
  · rw [State.rf_sec, State.rf_wf_of_code _ (by decide), State.rf_wf_same]
    rfl

/-! ### MANIFEST_READ_DONE, R406 -/

/-- The state in which a manifest whose read is done is judged. -/
def State.manifestRead (s : State) (v qp : Nat) : State := ({ s with sec := { s.sec with opening := Tbl.del s.sec.opening v } }).readDone qp

theorem State.manifestRead_within (s : State) (v qp : Nat) :
    ({ s with sec := { s.sec with opening := Tbl.del s.sec.opening v } } : State).Within 0x8000000000200000000000030000000000 (s.manifestRead v qp) :=
  State.readDone_frame (Sub.refl _) (State.frame_refl _ _)

theorem State.Within.manifestOk {s t : State} {m : Nat} (h : s.Within m t) (hsec : m.testBit 131 = false) (htorus : m.testBit 0x31 = false) (v n : Nat)
    (man : Manifest) : t.manifestOk v n man = s.manifestOk v n man := by
  have hdim (d : Nat) : t.dimSize d = s.dimSize d := by
    unfold State.dimSize
    rw [h.rf (by rw [show R.TORUS1_SIZE_POSITION.area = 0x31 from by decide]; exact htorus)]
  unfold State.manifestOk
  simp only [hdim, h.sec hsec]

theorem State.Within.huskRange {s t : State} {m : Nat} (h : s.Within m t) (hm : m.testBit 0x20 = false) (a n : Nat) : t.huskRange a n = s.huskRange a n := by
  have hi : t.interleave = s.interleave := h.rf (by rw [show R.HBM_INTERLEAVE_GIB.area = 0x20 from by decide]; exact hm)
  unfold State.huskRange
  rw [hi, h.rf (f := R.HBM_SEALED_BASE) (by rw [show R.HBM_SEALED_BASE.area = 0x20 from by decide]; exact hm),
    h.rf (f := R.HBM_SEALED_LIMIT) (by rw [show R.HBM_SEALED_LIMIT.area = 0x20 from by decide]; exact hm)]

/-- R406: the checks of a manifest that reads and suits the module come down to its signature. -/
theorem State.manifestCheck_of {s : State} {v n k : Nat} {bytes : List Nat} {m : Manifest} (hk : s.keySlot (leField bytes 24 8) = some k)
    (hm : readManifest bytes = some m) (hlen : bytes.length = n) (hok : s.manifestOk v n m = true) (hin : (m.chains.any fun ch => ch.contains s.here) = true) :
    s.manifestCheck v n true bytes true = if signatureOk (Tbl.getD s.sec.pubs k 0) bytes then ksOk else ksBadSignature := by
  unfold State.manifestCheck
  rw [if_neg (by decide), hk]
  dsimp only
  by_cases hsig : signatureOk (Tbl.getD s.sec.pubs k 0) bytes = true
  · rw [if_neg (by rw [hsig]; decide), if_pos hsig, hm]
    dsimp only
    rw [if_neg (by simp [hlen, hok]), if_neg (by rw [hin]; decide), if_neg (by decide)]
  · rw [if_pos (by simpa using hsig), if_neg hsig]

/-- R406: a manifest kept, before its shards are counted. -/
def State.manifestStored (s : State) (v a : Nat) (bytes : List Nat) (m : Manifest) : State :=
  let s2 := { s.hbmPut a (bytes.map fun b => (b, false)) with sec := { s.sec with
    mans := Tbl.put s.sec.mans v m, lastIn := Tbl.put s.sec.lastIn v s.elapsed } }
  s2.wf R.CARAVAN_OWN_EXPECTED 0 (m.shards.countP fun sh => sh.target = s2.here) v

theorem State.manifestDone_of {s : State} {v qp id a : Nat} {bytes : List Nat} {m : Manifest} {o : OpenCmd} (hopen : Tbl.get? s.sec.opening v = some (qp, id))
    (ho : (s.manifestRead v qp).openCmd qp id = some o) (hm : readManifest bytes = some m)
    (hroom : (s.manifestRead v qp).huskRange a bytes.length = true) :
    s.manifestDone v true bytes a true =
      if (s.manifestRead v qp).manifestCheck v o.arg true bytes true ≠ ksOk then
        (s.manifestRead v qp).finish qp id [(s.manifestRead v qp).manifestCheck v o.arg true bytes true]
      else ((((s.manifestRead v qp).manifestStored v a bytes m).countShards v).countKeys.judgeComplete v).finish qp id [ksOk] := by
  unfold State.manifestDone
  rw [hopen]
  dsimp only
  rw [← State.manifestRead, ho, hm]
  dsimp only
  split
  · rfl
  · rw [if_neg (by rw [hroom]; decide)]
    rfl

/-! ### VARIANT_UNREGISTER, R410 -/

/-- A variant's manifest, shards and counts gone. -/
def State.manifestGone (s : State) (v : Nat) : State :=
  (({ s with sec := { s.sec with
    mans := Tbl.del s.sec.mans v
    shards := Tbl.keep s.sec.shards fun k _ => k / 131072 ≠ v
    lastIn := Tbl.del s.sec.lastIn v } } : State).wf R.CARAVAN_OWN_EXPECTED 0 0 v).wf R.CARAVAN_COMPLETE 0 0 v

theorem State.manifestGone_within (s : State) (v : Nat) : s.Within (touch [0x32] [.sec]) (s.manifestGone v) := by
  refine State.wf_frame (by decide) (State.wf_frame (by decide) (State.frame_mk (s.frame_refl _) ?_))
  simp only [true_or, or_true, and_true, (by decide : (touch [0x32] [.sec]).testBit 131 = true)]

theorem State.manifestGone_leaves (s : State) (v : Nat) :
    (s.manifestGone v).man v = none ∧ (s.manifestGone v).vstate v = s.vstate v ∧ (s.manifestGone v).rf R.CARAVAN_COMPLETE 0 v = 0 ∧
    (s.manifestGone v).rf R.CARAVAN_OWN_EXPECTED 0 v = 0 := by
  refine ⟨Tbl.get_del_same _ _, (s.manifestGone_within v).vstate (by decide) v, ?_, ?_⟩
  · unfold State.manifestGone
    rw [State.rf_wf_same]
    rfl
  · unfold State.manifestGone
    rw [State.rf_wf_of_code _ (by decide), State.rf_wf_same]
    rfl

theorem State.unregister_of {s : State} {c : Cmd} {m : Manifest} (hst : s.vstate (c.f 0 0 6) = vEmpty ∨ s.vstate (c.f 0 0 6) = vRegistered)
    (hm : s.man (c.f 0 0 6) = some m) :
    s.unregister c = (((if s.vstate (c.f 0 0 6) = vEmpty then s.manifestGone (c.f 0 0 6) else (s.manifestGone (c.f 0 0 6)).setVState (c.f 0 0 6)
      vEmpty).countShards (c.f 0 0 6)).countKeys).reply c [ksOk] := by
  unfold State.unregister
  dsimp only
  rw [if_neg (by rcases hst with h | h <;> rw [h] <;> decide), if_neg (by rw [hm]; exact Bool.noConfusion)]
  rfl

/-! ### The obligation -/

theorem State.Within.man {s t : State} {m : Nat} (h : s.Within m t) (hm : m.testBit 131 = false) (v : Nat) : t.man v = s.man v := by
  unfold State.man
  rw [h.sec hm]

/-- What follows a key's store in the KEYS page. -/
theorem State.keyImported_within (s : State) :
    s.Within (touch [4] [.irqLatch, .irqs]) ((s.countKeys.inc R.KEYS1_IMPORTS 0).setInt (keysPage 1) R.INT_KEYS1_IMPORTED) :=
  State.setInt_frame (by decide) (by decide) (State.inc_frame (by decide) (State.countKeys_frame (by decide) (s.frame_refl _)))

theorem State.rf_keyImported (s : State) {g : Field} (hg : g.plain)
    (hne : (g.code ≠ R.KEYS1_REFS.code ∧ g.code ≠ R.KEYS1_KEYS_LOADED.code) ∧ g.code ≠ R.KEYS1_IMPORTS.code) (j l : Nat) :
    ((s.countKeys.inc R.KEYS1_IMPORTS 0).setInt (keysPage 1) R.INT_KEYS1_IMPORTED).rf g j l = s.rf g j l := by
  rw [State.rf_setInt_plain _ _ _ hg, State.rf_inc_of_code _ hne.2, State.rf_countKeys _ hne.1]

/-- MODEL_KEY_IMPORT (R404) with a key that unwraps. -/
theorem State.keyImport_imports {s : State} {c : Cmd} {low : Bool} {key : Nat} (h : s.Takes c) (hk : modelKeyOf c low = some key)
    (hok : s.keyCheck c true = ksOk) (hdel : c.b 0 6 = false) :
    ((s.started 0x33 c .f).keyImport c low).rf R.KEYS1_LOADED 0 (c.f 0 0 6) = 1 ∧
    ((s.started 0x33 c .f).keyImport c low).rf R.KEYS1_KEY_ID 0 (c.f 0 0 6) = c.w 1 % 2 ^ 64 ∧
    Tbl.get? ((s.started 0x33 c .f).keyImport c low).sec.models (c.f 0 0 6) = some key ∧
    s.Answered ((s.started 0x33 c .f).keyImport c low) c 0x33 [0] := by
  have hw := s.started_within 0x33 c .f
  rw [State.keyImport_stored hk (by rw [hw.keyCheck (by decide)]; exact hok) hdel]
  have hput := (s.started 0x33 c .f).keyStored_within (c.f 0 0 6) (c.w 1) (ofBe (cmdBytes c 19 96 low)) key
  obtain ⟨hloaded, hid⟩ := (s.started 0x33 c .f).rf_keyStored (c.f 0 0 6) (c.w 1) (ofBe (cmdBytes c 19 96 low)) key
  have hmodels : (((s.started 0x33 c .f).keyStored (c.f 0 0 6) (c.w 1) (ofBe (cmdBytes c 19 96 low)) key)).sec.models =
      Tbl.put (s.started 0x33 c .f).sec.models (c.f 0 0 6) key := rfl
  generalize ((s.started 0x33 c .f).keyStored (c.f 0 0 6) (c.w 1) (ofBe (cmdBytes c 19 96 low)) key) = u at hput hloaded hid hmodels ⊢
  have himp := u.keyImported_within
  have hend := ((u.countKeys.inc R.KEYS1_IMPORTS 0).setInt (keysPage 1) R.INT_KEYS1_IMPORTED).finish_within c.qp c.cmdId [ksOk]
  refine ⟨?_, ?_, ?_, ?_⟩
  · rw [State.rf_reply _ _ _ (by decide), State.rf_keyImported _ (by decide) (by decide), hloaded]
  · rw [State.rf_reply _ _ _ (by decide), State.rf_keyImported _ (by decide) (by decide), hid]
  · rw [State.reply, hend.sec (by decide), himp.sec (by decide), hmodels, Tbl.get_put_same]
  · have hall : (s.started 0x33 c .f).Within (touch [4] [.irqLatch, .irqs, .sec])
        ((u.countKeys.inc R.KEYS1_IMPORTS 0).setInt (keysPage 1) R.INT_KEYS1_IMPORTED) := State.frame_trans (hput.mono (by decide)) (himp.mono (by decide))
    exact State.answered_of_within h hall (by decide) (by decide)

/-- MODEL_KEY_IMPORT (R404) with a key that does not unwrap. -/
theorem State.keyImport_refuses {s : State} {c : Cmd} {low : Bool} (h : s.Takes c) (hk : modelKeyOf c low = none)
    (hok : s.keyCheck c true = ksOk) (hdel : c.b 0 6 = false) :
    ((s.started 0x33 c .f).keyImport c low).rf R.KEYS1_LOADED 0 (c.f 0 0 6) = s.rf R.KEYS1_LOADED 0 (c.f 0 0 6) ∧
    ((s.started 0x33 c .f).keyImport c low).rf R.KEYS1_KEY_ID 0 (c.f 0 0 6) = s.rf R.KEYS1_KEY_ID 0 (c.f 0 0 6) ∧
    Tbl.get? ((s.started 0x33 c .f).keyImport c low).sec.models (c.f 0 0 6) = Tbl.get? s.sec.models (c.f 0 0 6) ∧
    s.Answered ((s.started 0x33 c .f).keyImport c low) c 0x33 [ksUnwrapFailed] := by
  have hw := s.started_within 0x33 c .f
  rw [State.keyImport_unwrap hk (by rw [hw.keyCheck (by decide)]; exact hok) hdel]
  have hfail : (s.started 0x33 c .f).Within (touch [4] [.irqLatch, .irqs])
      (((s.started 0x33 c .f).inc R.KEYS1_UNWRAP_FAILS 0).setInt (keysPage 1) R.INT_KEYS1_UNWRAP_FAILED) :=
    State.setInt_frame (by decide) (by decide) (State.inc_frame (by decide) (State.frame_refl _ _))
  have hend := (((s.started 0x33 c .f).inc R.KEYS1_UNWRAP_FAILS 0).setInt (keysPage 1) R.INT_KEYS1_UNWRAP_FAILED).finish_within c.qp c.cmdId [ksUnwrapFailed]
  refine ⟨?_, ?_, ?_, State.answered_of_within h hfail (by decide) (by decide)⟩
  · rw [State.rf_reply _ _ _ (by decide), State.rf_setInt_plain _ _ _ (by decide), State.rf_inc_of_code _ (by decide), hw.rf (by decide)]
  · rw [State.rf_reply _ _ _ (by decide), State.rf_setInt_plain _ _ _ (by decide), State.rf_inc_of_code _ (by decide), hw.rf (by decide)]
  · rw [State.reply, hend.sec (by decide), hfail.sec (by decide), hw.sec (by decide)]

/-- R406: the command whose manifest is being read. -/
def State.manifestAwaited (s : State) (c : Cmd) : State :=
  { s with sec := { s.sec with opening := Tbl.put s.sec.opening (c.f 0 0 6) (c.qp, c.cmdId) } }

/-- VARIANT_REGISTER (R406) that passes its first checks. -/
theorem State.register_of {s : State} {c : Cmd} (hst : s.vstate (c.f 0 0 6) = vEmpty) (hm : s.man (c.f 0 0 6) = none)
    (hopen : Tbl.get? s.sec.opening (c.f 0 0 6) = none) (hw0 : c.w 0 / 64 = 0) (hlow : 224 ≤ c.f 2 32 32) (hhigh : c.f 2 32 32 ≤ 2 ^ 24) :
    s.register c = (((s.manifestAwaited c).setCmd c.qp c.cmdId fun o => { o with arg := c.f 2 32 32 }).issueRead c.qp (c.w 1) (c.f 2 0 32)
      (c.f 2 32 32)) := by
  unfold State.register
  dsimp only
  rw [if_neg (by rw [hst, hm, hopen]; decide), if_neg (by omega)]
  rfl

theorem State.openCmd_manifestAwaited (s : State) (c : Cmd) (q n : Nat) : (s.manifestAwaited c).openCmd q n = s.openCmd q n := rfl

/-- R406: what a manifest that is kept leaves. -/
theorem State.manifestKept_leaves {s : State} {v a : Nat} {bytes : List Nat} {m : Manifest} :
    (((s.manifestStored v a bytes m).countShards v).countKeys.judgeComplete v).man v = some m ∧
    (((s.manifestStored v a bytes m).countShards v).countKeys.judgeComplete v).sec.opening = s.sec.opening ∧
    (((s.manifestStored v a bytes m).countShards v).countKeys.judgeComplete v).rf R.CARAVAN_OWN_EXPECTED 0 v =
      (m.shards.countP fun sh => sh.target = s.here) % 2 ^ 18 := by
  have hjudge (u : State) : u.Within (touch [4, 0x32, 0x38] [.irqLatch, .irqs]) ((u.countShards v).countKeys.judgeComplete v) :=
    State.judgeComplete_frame (by decide) (State.countKeys_frame (by decide) (State.countShards_frame (by decide) (u.frame_refl _)))
  have hput : s.Within 0x1c00007800000000000100000002 (s.hbmPut a (bytes.map fun b => (b, false))) := State.hbmPut_frame (Sub.refl _) (s.frame_refl _)
  have hhere : (s.hbmPut a (bytes.map fun b => (b, false))).here = s.here := hput.here (by decide)
  refine ⟨?_, ?_, ?_⟩
  · rw [(hjudge _).man (by decide)]
    exact Tbl.get_put_same _ _ _
  · rw [(hjudge _).sec (by decide)]
    rfl
  · rw [State.rf_judgeComplete _ _ (by decide) (by decide), State.rf_countKeys _ (by decide), State.rf_countShards _ _ (by decide)]
    unfold State.manifestStored
    dsimp only
    rw [State.rf_wf_same, ← hhere]
    rfl

/-- MODEL_KEY_DELETE (R404). -/
theorem modelKeyDelete_completes (c : Cmd) (s : State) (h : s.Takes c) (hwords : c.bodyWords = 31) (hok : s.keyCheck c false = ksOk) (hdel : c.b 0 6 = true) :
    Completes (.modelKeyDelete c) s fun t =>
      t.rf R.KEYS1_LOADED 0 (c.f 0 0 6) = 0 ∧ t.rf R.KEYS1_KEY_ID 0 (c.f 0 0 6) = 0 ∧ s.Answered t c 0x33 [0] := by
  refine completes_of_vorane rfl h (by decide) (by simp [hwords]) ?_
  have hw := s.started_within 0x33 c .f
  rw [State.keyImport_dropped (by rw [hw.keyCheck (by decide)]; exact hok) hdel]
  have hput := (s.started 0x33 c .f).keyDropped_within (c.f 0 0 6)
  obtain ⟨hloaded, hid⟩ := (s.started 0x33 c .f).rf_keyDropped (c.f 0 0 6)
  refine ⟨?_, ?_, ?_⟩
  · rw [State.rf_reply _ _ _ (by decide), State.rf_countKeys _ (by decide), hloaded]
  · rw [State.rf_reply _ _ _ (by decide), State.rf_countKeys _ (by decide), hid]
  · exact State.answered_of_within h (State.countKeys_frame (by decide) hput) (by decide) (by decide)

/-- VARIANT_REGISTER (R406). -/
theorem variantRegister_completes (c : Cmd) (s : State) (h : s.Takes c) (hwords : c.bodyWords = 3) (hst : s.vstate (c.f 0 0 6) = vEmpty)
    (hm : s.man (c.f 0 0 6) = none) (hopen : Tbl.get? s.sec.opening (c.f 0 0 6) = none) (hw0 : c.w 0 / 64 = 0) (hlow : 224 ≤ c.f 2 32 32)
    (hhigh : c.f 2 32 32 ≤ 2 ^ 24) :
    Completes (.variantRegister c) s fun t =>
      Tbl.get? t.sec.opening (c.f 0 0 6) = some (c.qp, c.cmdId) ∧ (t.openCmd c.qp c.cmdId).any fun o => o.arg = c.f 2 32 32 := by
  refine completes_of_vorane rfl h (by decide) (by simp [hwords]) ?_
  have hw := s.started_within 0x31 c .l
  rw [State.register_of (by rw [hw.vstate (by decide)]; exact hst) (by rw [hw.man (by decide)]; exact hm) (by rw [hw.sec (by decide)]; exact hopen)
    hw0 hlow hhigh]
  have hread (u : State) (q a k n : Nat) : u.Within 0x8000000000200000000000030000000000 (u.issueRead q a k n) :=
    State.issueRead_frame (Sub.refl _) (u.frame_refl _)
  refine ⟨?_, ?_⟩
  · rw [(hread _ _ _ _ _).sec (by decide)]
    exact Tbl.get_put_same _ _ _
  · have hopened : ((s.started 0x31 c .l).manifestAwaited c).openCmd c.qp c.cmdId = some (s.opened 0x31 c) :=
      (State.openCmd_manifestAwaited _ _ _ _).trans (State.started_openCmd h.2.2.1)
    have harg := State.openCmd_setCmd_same hopened (fun o => { o with arg := c.f 2 32 32 }) fun _ => ⟨rfl, rfl⟩
    rw [(hread _ _ _ _ _).openCmd (by decide), harg, Option.any_some, decide_eq_true_eq]

/-- MANIFEST_READ_DONE (R406). -/
theorem manifestReadDone_completes (v qp id k a : Nat) (bytes : List Nat) (m : Manifest) (o : OpenCmd) (s : State)
    (hopen : Tbl.get? s.sec.opening v = some (qp, id)) (ho : s.openCmd qp id = some o) (hk : s.keySlot (leField bytes 24 8) = some k)
    (hm : readManifest bytes = some m) (hlen : bytes.length = o.arg) (hok : s.manifestOk v o.arg m = true)
    (hin : (m.chains.any fun ch => ch.contains s.here) = true) (hroom : s.huskRange a bytes.length = true) :
    Completes (.manifestReadDone v true bytes a true) s fun t =>
      t.openCmd qp id = none ∧ Tbl.get? t.sec.opening v = none ∧
      if signatureOk (Tbl.getD s.sec.pubs k 0) bytes then
        t.man v = some m ∧ t.rf R.CARAVAN_OWN_EXPECTED 0 v = (m.shards.countP fun sh => sh.target = s.here) % 2 ^ 18
      else t.man v = s.man v := by
  refine completes_of_next rfl ?_
  have hw := s.manifestRead_within v qp
  have ho2 : (s.manifestRead v qp).openCmd qp id = some o := (hw.openCmd (by decide) _ _).trans ho
  have hsec : (s.manifestRead v qp).sec = { s.sec with opening := Tbl.del s.sec.opening v } := hw.sec (by decide)
  have hcheck := State.manifestCheck_of (s := s.manifestRead v qp) (v := v) ((hw.keySlot (by decide) _).trans hk) hm hlen
    ((hw.manifestOk (by decide) (by decide) _ _ _).trans hok) (by rw [hw.here (by decide)]; exact hin)
  rw [State.manifestDone_of hopen ho2 hm ((hw.huskRange (by decide) _ _).trans hroom), hcheck]
  have hpubs : (s.manifestRead v qp).sec.pubs = s.sec.pubs := by rw [hsec]
  have hgone : Tbl.get? (s.manifestRead v qp).sec.opening v = none := by rw [hsec]; exact Tbl.get_del_same _ _
  have hhere : (s.manifestRead v qp).here = s.here := hw.here (by decide)
  rw [hpubs]
  by_cases hsig : signatureOk (Tbl.getD s.sec.pubs k 0) bytes = true
  · rw [if_pos hsig, if_neg (by decide), if_pos hsig]
    obtain ⟨hman, hop, hcount⟩ := State.manifestKept_leaves (s := s.manifestRead v qp) (v := v) (a := a) (bytes := bytes) (m := m)
    have hend (u : State) := u.finish_within qp id [ksOk]
    refine ⟨State.openCmd_finish _ _ _ _, ?_, ?_, ?_⟩
    · rw [(hend _).sec (by decide), hop]
      exact hgone
    · rw [(hend _).man (by decide), hman]
    · rw [(hend _).rf (by decide), hcount, hhere]
  · rw [if_neg hsig, if_pos (by decide), if_neg hsig]
    have hend := (s.manifestRead v qp).finish_within qp id [ksBadSignature]
    refine ⟨State.openCmd_finish _ _ _ _, ?_, ?_⟩
    · rw [hend.sec (by decide)]
      exact hgone
    · rw [hend.man (by decide), State.man, hsec]
      rfl

/-- VARIANT_UNREGISTER (R410). -/
theorem variantUnregister_completes (c : Cmd) (m : Manifest) (s : State) (h : s.Takes c) (hwords : c.bodyWords = 1)
    (hst : s.vstate (c.f 0 0 6) = vEmpty ∨ s.vstate (c.f 0 0 6) = vRegistered) (hm : s.man (c.f 0 0 6) = some m) :
    Completes (.variantUnregister c) s fun t =>
      t.man (c.f 0 0 6) = none ∧ t.vstate (c.f 0 0 6) = vEmpty ∧ t.rf R.CARAVAN_COMPLETE 0 (c.f 0 0 6) = 0 ∧
      t.rf R.CARAVAN_OWN_EXPECTED 0 (c.f 0 0 6) = 0 ∧ s.Answered t c 0x32 [0] := by
  refine completes_of_vorane rfl h (by decide) (by simp [hwords]) ?_
  have hw := s.started_within 0x32 c .f
  have hvs := hw.vstate (by decide) (c.f 0 0 6)
  rw [State.unregister_of (by rw [hvs]; exact hst) (by rw [hw.man (by decide)]; exact hm), hvs]
  obtain ⟨hman, hvar, hcomplete, hexpected⟩ := (s.started 0x32 c .f).manifestGone_leaves (c.f 0 0 6)
  have hgone := (s.started 0x32 c .f).manifestGone_within (c.f 0 0 6)
  generalize (s.started 0x32 c .f).manifestGone (c.f 0 0 6) = u at hman hvar hcomplete hexpected hgone ⊢
  have hset : u.Within (touch [0x38] [.irqLatch, .irqs]) (if s.vstate (c.f 0 0 6) = vEmpty then u else u.setVState (c.f 0 0 6) vEmpty) := by
    split
    · exact u.frame_refl _
    · exact State.setVState_frame (by decide) (u.frame_refl _)
  have hempty : (if s.vstate (c.f 0 0 6) = vEmpty then u else u.setVState (c.f 0 0 6) vEmpty).vstate (c.f 0 0 6) = vEmpty := by
    split
    · rename_i he
      rw [hvar, hvs, he]
    · exact State.vstate_setVState _ _ (by decide)
  generalize (if s.vstate (c.f 0 0 6) = vEmpty then u else u.setVState (c.f 0 0 6) vEmpty) = w at hset hempty ⊢
  have hcount : w.Within (touch [4, 0x32] []) (w.countShards (c.f 0 0 6)).countKeys := State.countKeys_frame (by decide) (State.countShards_frame (by decide) (w.frame_refl _))
  have hend := (w.countShards (c.f 0 0 6)).countKeys.finish_within c.qp c.cmdId [ksOk]
  refine ⟨?_, ?_, ?_, ?_, ?_⟩
  · rw [State.reply, hend.man (by decide), hcount.man (by decide), hset.man (by decide), hman]
  · rw [State.reply, hend.vstate (by decide), hcount.vstate (by decide), hempty]
  · rw [State.rf_reply _ _ _ (by decide), State.rf_countKeys _ (by decide), State.rf_countShards _ _ (by decide), hset.rf (by decide), hcomplete]
  · rw [State.rf_reply _ _ _ (by decide), State.rf_countKeys _ (by decide), State.rf_countShards _ _ (by decide), hset.rf (by decide), hexpected]
  · have hall : (s.started 0x32 c .f).Within (touch [4, 0x32, 0x38] [.irqLatch, .irqs, .sec]) (w.countShards (c.f 0 0 6)).countKeys :=
      State.frame_trans (State.frame_trans (hgone.mono (by decide)) (hset.mono (by decide))) (hcount.mono (by decide))
    exact State.answered_of_within h hall (by decide) (by decide)

/-- Settles O48: model keys imported and deleted, and variants registered and unregistered. -/
theorem keysAndManifestsComplete : Obligations.KeysAndManifestsComplete := by
  unfold Obligations.KeysAndManifestsComplete
  refine ⟨?_, modelKeyDelete_completes, variantRegister_completes, manifestReadDone_completes, variantUnregister_completes⟩
  · intro c low s h hwords hok hdel
    refine completes_of_vorane rfl h (by decide) (by simp [hwords]) ?_
    rcases hk : modelKeyOf c low with _ | key
    · exact State.keyImport_refuses h hk hok hdel
    · exact State.keyImport_imports h hk hok hdel

end Sys2Proof.Machine
end

section
/-! Converters, the slow round and the limits of a partition (R531 to R546; O58). -/

namespace Sys2Proof.Machine

/-! ### What the steps of a slow round keep, R535 -/

/-- The registers that a slow round's steps, but for the governor's cap, leave. -/
def roundFields : List Field := [R.THERMAL_ROUND_OVERRUNS, R.PWRCAP_CAP_W, R.PWRCAP_BOARD_CAP, R.PWRCAP_EFFECTIVE_CAP]

theorem roundFields_plain : ∀ g ∈ roundFields, g.plain := by decide

/-- What a step of a slow round leaves: the round's stamp, the time and those registers. -/
structure State.RoundKept (s t : State) : Prop where
  roundAt : t.sen.roundAt = s.sen.roundAt
  elapsed : t.elapsed = s.elapsed
  rf : ∀ g ∈ roundFields, ∀ j l, t.rf g j l = s.rf g j l

theorem State.RoundKept.refl (s : State) : s.RoundKept s := ⟨rfl, rfl, fun _ _ _ _ => rfl⟩

theorem State.RoundKept.trans {s t u : State} (h : s.RoundKept t) (g : t.RoundKept u) : s.RoundKept u :=
  ⟨g.roundAt.trans h.roundAt, g.elapsed.trans h.elapsed, fun f hf j l => (g.rf f hf j l).trans (h.rf f hf j l)⟩

theorem State.RoundKept.of_within {s t : State} {m : Nat} (h : s.Within m t) (hthermal : m.testBit 0x41 = false) (hcap : m.testBit 0x42 = false)
    (hsen : m.testBit 132 = false) (helapsed : m.testBit 81 = false) : s.RoundKept t := by
  have harea : ∀ g ∈ roundFields, g.area = 0x41 ∨ g.area = 0x42 := by decide
  refine ⟨by rw [h.sen hsen], h.elapsed helapsed, fun g hg j l => h.rf ?_⟩
  rcases harea g hg with ha | ha
  · rw [ha]
    exact hthermal
  · rw [ha]
    exact hcap

theorem State.roundKept_wf (s : State) {f : Field} (hf : ∀ g ∈ roundFields, g.code ≠ f.code) (i v k : Nat) : s.RoundKept (s.wf f i v k) :=
  ⟨rfl, rfl, fun g hg _ _ => State.rf_wf_of_code _ (hf g hg) _ _ _ _ _⟩

theorem State.roundKept_inc (s : State) {f : Field} (hf : ∀ g ∈ roundFields, g.code ≠ f.code) (i : Nat) (n k : Nat) : s.RoundKept (s.inc f i n k) :=
  ⟨congrArg SenseSt.roundAt (State.inc_sen _ _ _ _ _), State.inc_elapsed _ _ _ _ _, fun g hg _ _ => State.rf_inc_of_code _ (hf g hg) _ _ _ _ _⟩

theorem State.roundKept_sen (s : State) {x : SenseSt} (h : x.roundAt = s.sen.roundAt) : s.RoundKept { s with sen := x } :=
  ⟨h, rfl, fun _ _ _ _ => rfl⟩

theorem State.roundKept_setInt (s : State) (p : Page) (b : Nat) : s.RoundKept (s.setInt p b) := by
  obtain ⟨r, l, q, h⟩ := s.setInt_eq p b
  refine ⟨?_, ?_, fun g hg _ _ => s.rf_setInt_plain p b (roundFields_plain g hg) _ _⟩
  · rw [h]
  · rw [h]

theorem State.roundKept_post (s : State) (e : Event) : s.RoundKept (s.post e) := by
  have hw : s.Within 0x7800000000000000000002 (s.post e) := State.post_frame (Sub.refl _) (s.frame_refl _)
  exact .of_within hw (by decide) (by decide) (by decide) (by decide)

theorem State.roundKept_unitEv (s : State) (cat : Nat) (p : Page) (ref cause : Nat) (captured : Bool) : s.RoundKept (s.unitEv cat p ref cause captured) := by
  unfold State.unitEv
  split
  · exact s.roundKept_post _
  · exact s.roundKept_post _

theorem State.roundKept_boardFault (s : State) (b : Nat) (on : Bool) : s.RoundKept (s.boardFault b on) := by
  have hw : s.Within 0x8100000000007801000000000000000002 (s.boardFault b on) := State.boardFault_frame (Sub.refl _) (s.frame_refl _)
  exact .of_within hw (by decide) (by decide) (by decide) (by decide)

theorem State.roundKept_applyClocks (s : State) (l : List Nat) : s.RoundKept (s.applyClocks l) := by
  have hw : s.Within 0x40000000000000000000000000000000 (s.applyClocks l) := State.applyClocks_frame (Sub.refl _) (s.frame_refl _)
  exact .of_within hw (by decide) (by decide) (by decide) (by decide)

theorem State.RoundKept.each {α : Type} {l : List α} {f : State → α → State} (h : ∀ x t, State.RoundKept t (f t x)) (s : State) : s.RoundKept (s.each l f) :=
  State.each_ind (fun t => s.RoundKept t) (.refl s) fun x _ t ht => ht.trans (h x t)

theorem State.RoundKept.ite {s t u : State} {c : Prop} [Decidable c] (ht : s.RoundKept t) (hu : s.RoundKept u) : s.RoundKept (if c then t else u) := by
  split
  · exact ht
  · exact hu

theorem State.RoundKept.when {s t : State} {f : State → State} (b : Bool) (ht : s.RoundKept t) (hf : ∀ u, State.RoundKept u (f u)) : s.RoundKept (t.when b f) := by
  cases b
  · exact ht
  · exact ht.trans (hf t)

/-! ### The steps of a slow round -/

theorem State.roundKept_setSensor (s : State) (n : Nat) (x : SensorSt) : s.RoundKept (s.setSensor n x) := s.roundKept_sen rfl

/-- A sensor's reading written. -/
theorem State.roundKept_reading (s : State) (n v src stamp : Nat) :
    s.RoundKept (((s.wf R.THERMAL_VALUE 0 v n).wf R.THERMAL_SOURCE 0 src n).wf R.THERMAL_STAMP_LO 0 stamp n) :=
  ((s.roundKept_wf (by decide) _ _ _).trans (State.roundKept_wf _ (by decide) _ _ _)).trans (State.roundKept_wf _ (by decide) _ _ _)

theorem State.roundKept_readAll (s : State) (thbm : List (Option Int)) : s.RoundKept (s.readAll thbm) := by
  have hchannel (t : State) (ch : Nat) : t.RoundKept (t.readChannel ch) := by
    unfold State.readChannel
    dsimp only
    split
    · exact t.roundKept_setSensor _ _
    · exact .ite (t.roundKept_setSensor _ _) ((t.roundKept_setSensor _ _).trans (State.roundKept_reading _ _ _ _ _))
  have hstack (t : State) (n : Nat) (v : Option Int) : t.RoundKept (t.readStack n v) := by
    unfold State.readStack
    dsimp only
    split
    · exact t.roundKept_setSensor _ _
    · exact (t.roundKept_setSensor _ _).trans (State.roundKept_reading _ _ _ _ _)
  exact (State.RoundKept.each (fun ch t => hchannel t ch) s).trans (State.RoundKept.each (fun k t => hstack t _ _) _)

theorem State.roundKept_judgeFault (s : State) (n : Nat) : s.RoundKept (s.judgeFault n) := by
  have hchange (t : State) (v : Nat) : t.RoundKept ((((t.wf R.THERMAL_FAULT 0 v n).setInt thermalPage R.INT_THERMAL_SENSOR_FAULT).unitEv 0xC thermalPage n v
      false).when (decide (v = 7)) fun u => u.setInt thermalPage R.INT_THERMAL_REVERSED) :=
    .when _ (((t.roundKept_wf (by decide) _ _ _).trans (State.roundKept_setInt _ _ _)).trans (State.roundKept_unitEv _ _ _ _ _ _))
      fun u => u.roundKept_setInt _ _
  have hset (x : SensorSt) := s.roundKept_setSensor n x
  unfold State.judgeFault
  dsimp only
  exact .ite (.ite (hset _) ((hset _).trans (hchange _ _))) (.ite (.refl s) (.ite ((hset _).trans (hchange _ _)) (hset _)))

theorem State.roundKept_senseInput (s : State) : s.RoundKept s.senseInput := by
  unfold State.senseInput
  dsimp only
  exact ((s.roundKept_sen (by rfl)).trans (State.roundKept_wf _ (by decide) _ _ _)).trans (State.roundKept_boardFault _ _ _)

theorem State.roundKept_senseLeak (s : State) (ohm : Nat) (short : Bool) : s.RoundKept (s.senseLeak ohm short) := by
  unfold State.senseLeak
  dsimp only
  exact (((((s.roundKept_sen (by rfl)).trans (State.roundKept_wf _ (by decide) _ _ _)).trans (State.roundKept_wf _ (by decide) _ _ _)).trans
    (State.roundKept_boardFault _ _ _)).trans (State.roundKept_boardFault _ _ _)).trans (State.roundKept_boardFault _ _ _)

theorem State.roundKept_thermistorFaults (s : State) : s.RoundKept s.thermistorFaults := by
  unfold State.thermistorFaults
  exact ((((s.roundKept_boardFault _ _).trans (State.roundKept_boardFault _ _ _)).trans (State.roundKept_boardFault _ _ _)).trans
    (State.roundKept_boardFault _ _ _)).trans (State.roundKept_boardFault _ _ _)

theorem State.roundKept_raiseAlert (s : State) : s.RoundKept s.raiseAlert := by
  obtain ⟨a, o, h⟩ := s.raiseAlert_eq
  rw [h]
  exact ⟨rfl, rfl, fun _ _ _ _ => rfl⟩

theorem State.roundKept_judgeTrip (s : State) (n : Nat) : s.RoundKept (s.judgeTrip n) := by
  have hdie (t : State) (a b : Nat) : t.RoundKept (t.dieFailure a b).railsDown := by
    have hw : t.Within 0xe14fc0be7d007800000703000100130003 (t.dieFailure a b) := State.dieFailure_frame (Sub.refl _) (t.frame_refl _)
    have hw2 (u : State) : u.Within 0x8100000000000000000000000100000000 u.railsDown := State.railsDown_frame (Sub.refl _) (u.frame_refl _)
    exact (State.RoundKept.of_within hw (by decide) (by decide) (by decide) (by decide)).trans
      (.of_within (hw2 _) (by decide) (by decide) (by decide) (by decide))
  unfold State.judgeTrip
  split
  · exact .refl s
  · dsimp only
    have hset (x : SensorSt) (v : Nat) : s.RoundKept ((s.setSensor n x).wf R.THERMAL_TRIP 0 v n) :=
      (s.roundKept_setSensor n x).trans (State.roundKept_wf _ (by decide) _ _ _)
    have htrip (x : SensorSt) (v d : Nat) : s.RoundKept ((((((s.setSensor n x).wf R.THERMAL_TRIP 0 v n).inc R.THERMAL_TRIPS 0 d).wf R.THERMAL_LAST_TRIP_STAMP 0
        s.now).setInt thermalPage R.INT_THERMAL_TRIP).raiseAlert) :=
      ((((hset x v).trans (State.roundKept_inc _ (by decide) _ _ _)).trans (State.roundKept_wf _ (by decide) _ _ _)).trans
        (State.roundKept_setInt _ _ _)).trans (State.roundKept_raiseAlert _)
    have hlog := fun (x : SensorSt) (v d : Nat) (b : Bool) (e : State → Event) => State.RoundKept.when b (htrip x v d) fun u => u.roundKept_post (e u)
    exact .ite (hset _ _) (.ite ((hlog _ _ _ _ _).trans (hdie _ _ _)) (hlog _ _ _ _ _))

theorem State.roundKept_partLimit (s : State) (p : Nat) : s.RoundKept (s.partLimit p) := by
  have hset (x : SenseSt) (hx : x.roundAt = s.sen.roundAt) (v : Nat) :
      s.RoundKept ((({ s with sen := x } : State).wf R.THERMAL_PART_LIMIT 0 v).applyClocks (physOfPart p)) :=
    ((s.roundKept_sen hx).trans (State.roundKept_wf _ (by decide) _ _ _)).trans (State.roundKept_applyClocks _ _)
  unfold State.partLimit
  dsimp only
  exact .ite (.ite (.refl s) (hset _ (by rfl) _)) (.ite (.refl s) (hset _ (by rfl) _))

theorem State.roundKept_judgeThermal (s : State) : s.RoundKept s.judgeThermal := by
  unfold State.judgeThermal
  exact ((((((State.RoundKept.each (fun n t => t.roundKept_judgeTrip n) s).trans (State.RoundKept.each (fun p t => t.roundKept_partLimit p) _)).trans
    (State.roundKept_wf _ (by decide) _ _ _)).trans (State.roundKept_wf _ (by decide) _ _ _)).trans (State.roundKept_wf _ (by decide) _ _ _)).trans
    (State.roundKept_wf _ (by decide) _ _ _)).trans (State.roundKept_wf _ (by decide) _ _ _)

theorem State.roundKept_setPowerLevel (s : State) (l : Nat) : s.RoundKept (s.setPowerLevel l) := by
  unfold State.setPowerLevel
  dsimp only
  exact .ite (.refl s) ((((s.roundKept_wf (by decide) _ _ _).trans (State.roundKept_inc _ (by decide) _ _ _)).trans (State.roundKept_setInt _ _ _)).trans
    (State.roundKept_sen _ (by rfl)))

theorem State.roundKept_issueLevel (s : State) : s.RoundKept s.issueLevel := by
  have hmesh (t : State) (h m : Nat) : t.RoundKept (t.orderMeshClock h m) := by
    have hw : t.Within 0x40000000000000000000000003000000 (t.orderMeshClock h m) := State.orderMeshClock_frame (Sub.refl _) (t.frame_refl _)
    exact .of_within hw (by decide) (by decide) (by decide) (by decide)
  unfold State.issueLevel
  dsimp only
  exact (((((s.roundKept_wf (by decide) _ _ _).trans (State.roundKept_wf _ (by decide) _ _ _)).trans (State.roundKept_wf _ (by decide) _ _ _)).trans
    (State.roundKept_applyClocks _ _)).trans (hmesh _ _ _)).trans (hmesh _ _ _)

/-- R541: the governor after the effective cap has been formed. -/
theorem State.roundKept_governor (s : State) (tele peak : Nat) : s.formCap.RoundKept (s.governor tele peak) := by
  have hhalf : s.formCap.RoundKept s.formCap.judgeHalf := by
    unfold State.judgeHalf
    dsimp only
    exact (State.roundKept_sen _ (by rfl)).trans (State.roundKept_wf _ (by decide) _ _ _)
  refine hhalf.trans ?_
  unfold State.governor
  dsimp only
  generalize s.formCap.judgeHalf = u
  have hlast (x : SenseSt) (hx : x.roundAt = u.sen.roundAt) (v : Nat) : u.RoundKept (({ u with sen := x } : State).wf R.PWRCAP_P_LAST_W 0 v) :=
    (u.roundKept_sen hx).trans (State.roundKept_wf _ (by decide) _ _ _)
  refine State.RoundKept.trans (State.RoundKept.when _ ?_ fun t => t.roundKept_wf (by decide) _ _ _) (State.roundKept_issueLevel _)
  refine State.RoundKept.trans ?_ (State.roundKept_setPowerLevel _ _)
  refine State.RoundKept.trans ?_ (State.roundKept_wf _ (by decide) _ _ _)
  refine State.RoundKept.trans ?_ (State.roundKept_wf _ (by decide) _ _ _)
  refine State.RoundKept.trans ?_ (State.roundKept_wf _ (by decide) _ _ _)
  refine hlast _ ?_ _
  rfl

theorem State.roundKept_undervoltage (s : State) (p : Nat) : s.RoundKept (s.undervoltage p) := by
  unfold State.undervoltage
  dsimp only
  exact .ite (((s.roundKept_post _).trans (State.roundKept_sen _ (by rfl))).trans (State.roundKept_applyClocks _ _)) (.refl s)

theorem State.roundKept_trends (s : State) : s.RoundKept s.trends := by
  have hlog (t : State) (a b c : Nat) (l : List Nat) : t.RoundKept (t.logEv a b c l) := t.roundKept_post _
  have hsus (t : State) (a b c : Nat) : t.RoundKept (t.suspect a b c) := by
    have hw : t.Within 0x8000000000000000000000000000000000 (t.suspect a b c) := State.suspect_frame (Sub.refl _) (t.frame_refl _)
    exact .of_within hw (by decide) (by decide) (by decide) (by decide)
  unfold State.trends
  dsimp only
  exact (((State.RoundKept.each (fun _ t => hlog t _ _ _ _) s).trans (State.RoundKept.each (fun _ t => hlog t _ _ _ _) _)).trans
    (State.RoundKept.each (fun _ t => (hlog t _ _ _ _).trans (hsus _ _ _ _)) _)).trans (State.roundKept_sen _ (by rfl))

/-- R535: the sensing part of a round. -/
def State.roundSensed (s : State) (thbm : List (Option Int)) (ohm : Nat) (short : Bool) : State :=
  let s1 := ({ s with sen := { s.sen with roundAt := s.elapsed + 1 } }).readAll thbm
  let s2 := ((s1.each tempSensors fun t n => t.countApart n).countReversed).each tempSensors fun t n => t.judgeFault n
  ((s2.senseInput.senseLeak ohm short).thermistorFaults).judgeThermal

/-- R535: the rest of a round, after the governor. -/
def State.roundClosed (s : State) (late : Nat) : State :=
  ((s.each (List.range 4) fun t p => t.undervoltage p).trends).inc R.THERMAL_ROUND_OVERRUNS 0 late

/-- R535: the end of a round, stamped for the watchdog. -/
def State.roundStamped (s : State) : State := { s with oa := { s.oa with roundAt := s.elapsed } }

theorem State.rf_roundStamped (s : State) (g : Field) (j l : Nat) : s.roundStamped.rf g j l = s.rf g j l := rfl

theorem State.stamps_roundStamped (s : State) : s.roundStamped.sen = s.sen ∧ s.roundStamped.oa.roundAt = s.elapsed := ⟨rfl, rfl⟩

theorem State.slowRound_of {s : State} {thbm : List (Option Int)} {tele peak ohm late : Nat} {short : Bool} (hmul : s.elapsed % 2000000 = 0)
    (hnew : s.sen.roundAt ≠ s.elapsed + 1) (hrun : s.rb R.OASIS_RESTARTING 0 = false) (hpow : s.md.powered = true) :
    s.slowRound thbm tele peak ohm short late =
      (((s.roundSensed thbm ohm short).governor tele peak).roundClosed late).roundStamped := by
  unfold State.slowRound
  rw [if_neg (by rw [hrun, hpow]; simp [hmul, hnew])]
  dsimp only [State.roundSensed, State.roundClosed, State.roundStamped]

theorem State.roundKept_roundSensed (s : State) (thbm : List (Option Int)) (ohm : Nat) (short : Bool) :
    ({ s with sen := { s.sen with roundAt := s.elapsed + 1 } } : State).RoundKept (s.roundSensed thbm ohm short) := by
  have hapart (t : State) (n : Nat) : t.RoundKept (t.countApart n) := t.roundKept_setSensor _ _
  have hrev (t : State) : t.RoundKept t.countReversed := t.roundKept_sen rfl
  unfold State.roundSensed
  dsimp only
  exact (((((((State.roundKept_readAll _ _).trans (State.RoundKept.each (fun n t => hapart t n) _)).trans (hrev _)).trans
    (State.RoundKept.each (fun n t => t.roundKept_judgeFault n) _)).trans (State.roundKept_senseInput _)).trans (State.roundKept_senseLeak _ _ _)).trans
    (State.roundKept_thermistorFaults _)).trans (State.roundKept_judgeThermal _)

/-- R535: what the slow round leaves of its stamp, its count and the cap in effect. -/
theorem State.slowRound_leaves (s : State) (thbm : List (Option Int)) (tele peak ohm late : Nat) (short : Bool) :
    (((s.roundSensed thbm ohm short).governor tele peak).roundClosed late).sen.roundAt = s.elapsed + 1 ∧
    (((s.roundSensed thbm ohm short).governor tele peak).roundClosed late).elapsed = s.elapsed ∧
    (((s.roundSensed thbm ohm short).governor tele peak).roundClosed late).rf R.THERMAL_ROUND_OVERRUNS 0 =
      min (2 ^ 32 - 1) (s.rf R.THERMAL_ROUND_OVERRUNS 0 + late) ∧
    (((s.roundSensed thbm ohm short).governor tele peak).roundClosed late).rf R.PWRCAP_EFFECTIVE_CAP 0 =
      min (s.rf R.PWRCAP_CAP_W 0) (s.rf R.PWRCAP_BOARD_CAP 0) := by
  have hsensed := s.roundKept_roundSensed thbm ohm short
  generalize s.roundSensed thbm ohm short = a at hsensed
  have hgov := a.roundKept_governor tele peak
  generalize a.governor tele peak = b at hgov
  have hclosed : b.RoundKept (b.each (List.range 4) fun t p => t.undervoltage p).trends :=
    (State.RoundKept.each (fun p t => t.roundKept_undervoltage p) b).trans (State.roundKept_trends _)
  have hform : a.formCap.sen = a.sen ∧ a.formCap.elapsed = a.elapsed := by
    have hw : a.Within 0x1800040000000000000000 a.formCap := State.formCap_frame (Sub.refl _) (a.frame_refl _)
    exact ⟨hw.sen (by decide), hw.elapsed (by decide)⟩
  unfold State.roundClosed
  generalize (b.each (List.range 4) fun t p => t.undervoltage p).trends = e at hclosed
  refine ⟨?_, ?_, ?_, ?_⟩
  · rw [State.inc_sen, hclosed.roundAt, hgov.roundAt, hform.1, hsensed.roundAt]
  · rw [State.inc_elapsed, hclosed.elapsed, hgov.elapsed, hform.2, hsensed.elapsed]
  · rw [State.rf_inc_sat _ _ (by decide), hclosed.rf _ (by decide), hgov.rf _ (by decide), State.rf_formCap _ (by decide) (by decide), hsensed.rf _ (by decide)]
    rfl
  · rw [State.rf_inc_of_code _ (by decide), hclosed.rf _ (by decide), hgov.rf _ (by decide), State.effectiveCap_formCap, hsensed.rf _ (by decide),
      hsensed.rf _ (by decide)]
    rfl

/-! ### Conversions, R531 to R534 -/

theorem State.convSt_setConv_same (s : State) (i : Nat) (x : ConvSt) : (s.setConv i x).convSt i = x := Tbl.getD_put_same _ _ _ _

theorem State.rf_setConv (s : State) (i : Nat) (x : ConvSt) (g : Field) (j l : Nat) : (s.setConv i x).rf g j l = s.rf g j l := rfl

theorem State.convSt_inc (s : State) (f : Field) (j n k i : Nat) : (s.inc f j n k).convSt i = s.convSt i := by
  unfold State.convSt
  rw [State.inc_sen]

/-- The fields that a pass's end and an urgent request write. -/
def passPlaces : List Nat :=
  [R.MONCONV_PASSES.code, R.MONCONV_BG_DIFF.code, R.MONCONV_AGREE_RUN.code, R.MONCONV_DISAGREE.code, R.MONCONV_RESTARTS.code]

theorem State.rf_startUrgent (s : State) (i : Nat) {g : Field} (hne : g.code ∉ passPlaces) (j l : Nat) : (s.startUrgent i).rf g j l = s.rf g j l := by
  unfold State.startUrgent
  dsimp only
  split
  · rfl
  · split
    · rfl
    · split
      · rfl
      · split
        · rfl
        · exact State.rf_inc_of_code _ (fun h => hne (by rw [h]; decide)) _ _ _ _ _

/-- R534: the comparison of the bandgaps leaves the results. -/
theorem State.rf_compareBandgap (s : State) (i : Nat) {g : Field} (hg : g.plain) (hne : g.code ∉ passPlaces) (j l : Nat) :
    (s.compareBandgap i).rf g j l = s.rf g j l := by
  have hd : g.code ≠ R.MONCONV_BG_DIFF.code := fun h => hne (by rw [h]; decide)
  have ha : g.code ≠ R.MONCONV_AGREE_RUN.code := fun h => hne (by rw [h]; decide)
  have hx : g.code ≠ R.MONCONV_DISAGREE.code := fun h => hne (by rw [h]; decide)
  have hcount (t : State) (n : Nat) :
      ((({ t with sen := { t.sen with agree := n } } : State).wf R.MONCONV_AGREE_RUN 0 (min 15 n)).wf R.MONCONV_AGREE_RUN 1 (min 15 n)).rf g j l =
        t.rf g j l := by
    rw [State.rf_wf_of_code _ ha, State.rf_wf_of_code _ ha]
    rfl
  have hboth (t : State) (v : Nat) : ((t.wf R.MONCONV_DISAGREE 0 v).wf R.MONCONV_DISAGREE 1 v).rf g j l = t.rf g j l := by
    rw [State.rf_wf_of_code _ hx, State.rf_wf_of_code _ hx]
  unfold State.compareBandgap
  split
  · split
    · rfl
    · dsimp only
      split
      · rw [State.rf_unitEv_plain _ _ _ _ _ _ hg, State.rf_setInt_plain _ _ _ hg, State.rf_setInt_plain _ _ _ hg, hboth, hcount, State.rf_wf_of_code _ hd]
      · split
        · rw [hboth, hcount, State.rf_wf_of_code _ hd]
        · rw [hcount, State.rf_wf_of_code _ hd]
  · rfl

/-- R531: the urgent conversion's result. -/
theorem State.conversionEnd_urgent {s : State} {i ch : Nat} (code : Nat) (h : (s.convSt i).running = some ch) :
    (s.conversionEnd i code).rf R.MONCONV1_URGENT_STAMP i = s.now % 2 ^ 64 ∧
    (s.conversionEnd i code).rf R.MONCONV1_URGENT_RESULT i = resultWord (code % 4096) ch false (s.rf R.MONCONV_URGENT_COUNT i + 1) % 2 ^ 32 := by
  have hclamp (u : State) (v : Nat) (g : Field) (hg : g.area = 0x40) (j l : Nat) : (if ch = 55 then u.fastClamp v else u).rf g j l = u.rf g j l := by
    split
    · exact (State.fastClamp_frame (Sub.refl _) (u.frame_refl _) : u.Within 0x1040000000001800060000000003000000 (u.fastClamp v)).rf (by rw [hg]; decide)
    · rfl
  unfold State.conversionEnd
  dsimp only
  rw [h]
  dsimp only
  refine ⟨?_, ?_⟩
  · rw [hclamp _ _ _ (by decide), State.rf_setConv, State.rf_wf_same]
    rfl
  · rw [hclamp _ _ _ (by decide), State.rf_setConv, State.rf_wf_of_code _ (by decide), State.rf_wf_same]
    rfl

/-- R531: a conversion of the sequence latched in its entry. -/
def State.latched (s : State) (i n ch code : Nat) : State :=
  (((((s.wf R.MONCONV1_CODE i code n).wf R.MONCONV1_CHANNEL i ch n).wf R.MONCONV1_VALID i 1 n).wf
    R.MONCONV1_RESTARTED i (bit (s.convSt i).restarted) n).wf R.MONCONV1_COUNT i (s.rf R.MONCONV1_COUNT i n + 1) n).wf R.MONCONV1_STAMP_LO i s.now n

theorem State.rf_latched (s : State) (i n ch code : Nat) :
    (s.latched i n ch code).rf R.MONCONV1_CODE i n = code % 2 ^ 12 ∧ (s.latched i n ch code).rf R.MONCONV1_CHANNEL i n = ch % 2 ^ 6 ∧
    (s.latched i n ch code).rf R.MONCONV1_VALID i n = 1 ∧ (s.latched i n ch code).rf R.MONCONV1_STAMP_LO i n = s.now % 2 ^ 32 ∧
    (s.latched i n ch code).rf R.MONCONV1_COUNT i n = (s.rf R.MONCONV1_COUNT i n + 1) % 2 ^ 8 := by
  unfold State.latched
  refine ⟨?_, ?_, ?_, ?_, ?_⟩ <;> simp (disch := decide) only [State.rf_wf_of_code, State.rf_wf_same] <;> rfl

theorem State.conversionEnd_sequence {s : State} {i n ch : Nat} (code : Nat) (h : (s.convSt i).running = none) (hrun : s.rb R.MONCONV_RUN i = true)
    (hn : (s.convSt i).entry = n) (hlt : n < (s.seqNow i).length) (hch : (s.seqNow i).getD n 0 = ch) {g : Field} (hg : g.plain)
    (hne : g.code ∉ passPlaces) (j l : Nat) : (s.conversionEnd i code).rf g j l = (s.latched i n ch (code % 4096)).rf g j l := by
  have hp : g.code ≠ R.MONCONV_PASSES.code := fun h => hne (by rw [h]; decide)
  subst hn hch
  unfold State.conversionEnd
  dsimp only
  rw [h]
  dsimp only
  rw [if_neg (by rw [hrun]; decide), if_pos hlt, State.rf_startUrgent _ _ hne, ← State.latched]
  split
  · rfl
  · rw [State.rf_compareBandgap _ _ hg hne, State.rf_wf_of_code _ hp]
    rfl

/-! ### Urgent requests, R533 -/

/-- R533: a request taken while a conversion is under way waits. -/
theorem State.startUrgent_running {s : State} {i : Nat} (h : (s.convSt i).running.isSome = true) : s.startUrgent i = s := by
  unfold State.startUrgent
  dsimp only
  split
  · rfl
  · rw [if_pos h]

theorem State.urgentRequest_of {s : State} {i ch : Nat} (hnew : (s.convSt i).urgent.contains ch = false) (hroom : (s.convSt i).urgent.length < 4) :
    s.urgentRequest i ch = (s.setConv i { s.convSt i with urgent := (s.convSt i).urgent ++ [ch] }).startUrgent i := by
  unfold State.urgentRequest
  dsimp only
  rw [if_neg (by rw [hnew]; decide), if_neg (by omega)]

/-- R533: a request of a running sequence that is not protected begins at once. -/
theorem State.startUrgent_aborts {s : State} {i ch : Nat} (hurg : (s.convSt i).urgent = [ch]) (hidle : (s.convSt i).running = none)
    (hrun : s.rb R.MONCONV_RUN i = true) (hfew : (s.convSt i).aborts < 3) :
    (s.startUrgent i).convSt i = { s.convSt i with urgent := [], running := some ch, aborts := (s.convSt i).aborts + 1, restarted := true } := by
  unfold State.startUrgent
  dsimp only
  rw [hurg]
  dsimp only
  rw [if_neg (by rw [hidle]; decide), if_neg (by rw [hrun]; decide), if_neg (by omega), State.convSt_inc, State.convSt_setConv_same]

theorem State.startUrgent_idle {s : State} {i ch : Nat} (hurg : (s.convSt i).urgent = [ch]) (hidle : (s.convSt i).running = none)
    (hrun : s.rb R.MONCONV_RUN i = false) : s.startUrgent i = s.setConv i { s.convSt i with urgent := [], running := some ch } := by
  unfold State.startUrgent
  dsimp only
  rw [hurg]
  dsimp only
  rw [if_neg (by rw [hidle]; decide), if_pos (by rw [hrun]; decide)]

theorem State.oc48_urgentRequest (s : State) (i ch : Nat) : (s.urgentRequest i ch).sen.oc48 = s.sen.oc48 := by
  have hstart (t : State) : (t.startUrgent i).sen.oc48 = t.sen.oc48 := by
    unfold State.startUrgent
    dsimp only
    split
    · rfl
    · split
      · rfl
      · split
        · rfl
        · split
          · rfl
          · rw [State.inc_sen]
            rfl
  have hint (t : State) : ((t.inc R.MONCONV_URGENT_DROPS i).setInt (monPage i) R.INT_MONCONV_URGENT_DROP).sen = t.sen := by
    obtain ⟨r, l, q, h⟩ := (t.inc R.MONCONV_URGENT_DROPS i).setInt_eq (monPage i) R.INT_MONCONV_URGENT_DROP
    rw [h]
    exact State.inc_sen _ _ _ _ _
  unfold State.urgentRequest
  dsimp only
  split
  · rfl
  · split
    · rw [hint]
    · exact hstart _

/-! ### The obligation -/

/-- URGENT_GO (R533). -/
theorem urgentGo_completes (m : Master) (i w : Nat) (s : State) (h : s.Writes m (monPage i) 0x128 (w ||| 0x40)) (hurg : (s.convSt i).urgent = [])
    (hidle : (s.convSt i).running = none) (hrun : s.rb R.MONCONV_RUN i = false) :
    Completes (.urgentGo m i w) s fun t => t.convSt i = { s.convSt i with running := some ((w ||| 0x40) % 64) } := by
  refine completes_of_next rfl ?_
  have hw := h.store_within (u := s.urgentGo i (w ||| 0x40)) (by decide) rfl
  have hgo : s.urgentGo i (w ||| 0x40) = s.urgentRequest i ((w ||| 0x40) % 64) := 
    if_pos (by rw [Nat.testBit_or, show Nat.testBit 0x40 6 = true from by decide, Bool.or_true])
  have hset : (s.setConv i { s.convSt i with urgent := (s.convSt i).urgent ++ [(w ||| 0x40) % 64] }).convSt i =
      { s.convSt i with urgent := [(w ||| 0x40) % 64] } := by
    rw [State.convSt_setConv_same, hurg]
    rfl
  rw [State.convSt, hw.sen (by decide), ← State.convSt, hgo, State.urgentRequest_of (by rw [hurg]; rfl) (by rw [hurg]; decide),
    State.startUrgent_idle (ch := (w ||| 0x40) % 64) (by rw [hset]) (by rw [hset]; exact hidle) (by rw [State.rb, State.rf_setConv, ← State.rb]; exact hrun),
    State.convSt_setConv_same, hset]
  generalize s.convSt i = x at hurg
  cases x
  cases hurg
  rfl

/-- OVERCURRENT_COMPARATOR (R533). -/
theorem State.overcurrent_of {s : State} {i ch : Nat} (hnew : (s.convSt i).urgent.contains ch = false) (hroom : (s.convSt i).urgent.length < 4) :
    ((s.convSt i).running ≠ none → ((s.urgentRequest i ch).convSt i).urgent = (s.convSt i).urgent ++ [ch]) ∧
    ((s.convSt i).running = none ∧ s.rb R.MONCONV_RUN i = true ∧ (s.convSt i).aborts < 3 ∧ (s.convSt i).urgent = [] →
      ((s.urgentRequest i ch).convSt i).running = some ch ∧ ((s.urgentRequest i ch).convSt i).urgent = [] ∧
      ((s.urgentRequest i ch).convSt i).restarted = true) := by
  have hset := s.convSt_setConv_same i { s.convSt i with urgent := (s.convSt i).urgent ++ [ch] }
  rw [State.urgentRequest_of hnew hroom]
  generalize hu : s.setConv i { s.convSt i with urgent := (s.convSt i).urgent ++ [ch] } = u at hset ⊢
  refine ⟨fun hbusy => ?_, fun ⟨hidle, hrun, hfew, hnone⟩ => ?_⟩
  · rw [State.startUrgent_running (by rw [hset]; exact Option.isSome_iff_ne_none.2 hbusy), hset]
  · have hrun2 : u.rb R.MONCONV_RUN i = true := by
      rw [← hu, State.rb, State.rf_setConv, ← State.rb]
      exact hrun
    rw [State.startUrgent_aborts (ch := ch) (by rw [hset, hnone]; rfl) (by rw [hset]; exact hidle) hrun2 (by rw [hset]; exact hfew)]
    exact ⟨rfl, rfl, rfl⟩

/-- R538: a digit of one raised to two. -/
theorem partLimit_raised {p w : Nat} (hp : p < 4) (hw : w < 2 ^ 8) (hone : bitsOf w (2 * p) 2 = 1) : w + 4 ^ p < 2 ^ 8 := by
  unfold bitsOf at hone
  rw [Nat.shiftRight_eq_div_pow] at hone
  interval_cases p <;> simp at hone ⊢ <;> omega

/-- CONVERSION_END (R531). -/
theorem conversionEnd_completes (i code n ch : Nat) (s : State) (hi : i < 2) (h : (s.convSt i).running = some ch ∨ (s.convSt i).running = none ∧
    s.rb R.MONCONV_RUN i = true ∧ (s.convSt i).entry = n ∧ n < (s.seqNow i).length ∧ (s.seqNow i).getD n 0 = ch) :
    Completes (.conversionEnd i code) s fun t =>
      ((s.convSt i).running = none → t.rf R.MONCONV1_CODE i n = code % 4096 ∧ t.rf R.MONCONV1_CHANNEL i n = ch % 64 ∧ t.rf R.MONCONV1_VALID i n = 1 ∧
        t.rf R.MONCONV1_STAMP_LO i n = s.now % 2 ^ 32 ∧ t.rf R.MONCONV1_COUNT i n = (s.rf R.MONCONV1_COUNT i n + 1) % 2 ^ 8) ∧
      ((s.convSt i).running ≠ none → t.rf R.MONCONV1_URGENT_STAMP i = s.now % 2 ^ 64 ∧
        t.rf R.MONCONV1_URGENT_RESULT i = resultWord (code % 4096) ch false (s.rf R.MONCONV_URGENT_COUNT i + 1) % 2 ^ 32) := by
  refine completes_of_next rfl ?_
  rw [Nat.mod_eq_of_lt hi]
  rcases h with hrun | ⟨hidle, hrun, hn, hlt, hch⟩
  · exact ⟨fun h => absurd (hrun.symm.trans h) (by simp), fun _ => State.conversionEnd_urgent code hrun⟩
  · have hseq {g : Field} := State.conversionEnd_sequence code hidle hrun hn hlt hch (g := g)
    obtain ⟨hcode, hchannel, hvalid, hstamp, hcount⟩ := s.rf_latched i n ch (code % 4096)
    refine ⟨fun _ => ⟨?_, ?_, ?_, ?_, ?_⟩, fun h => absurd hidle h⟩
    · rw [hseq (by decide) (by decide), hcode]
      exact Nat.mod_mod _ _
    · exact (hseq (by decide) (by decide) _ _).trans hchannel
    · rw [hseq (by decide) (by decide), hvalid]
    · rw [hseq (by decide) (by decide), hstamp]
    · rw [hseq (by decide) (by decide), hcount]

/-- OVERCURRENT_COMPARATOR (R533). -/
theorem overcurrentComparator_completes (i n ch : Nat) (s : State) (hi : i < 2) (hch : ch = (if n < 4 then 49 + n else 55))
    (hnew : (s.convSt i).urgent.contains ch = false) (hroom : (s.convSt i).urgent.length < 4) :
    Completes (.overcurrentComparator i n) s fun t =>
      ((s.convSt i).running ≠ none → (t.convSt i).urgent = (s.convSt i).urgent ++ [ch]) ∧
      ((s.convSt i).running = none ∧ s.rb R.MONCONV_RUN i = true ∧ (s.convSt i).aborts < 3 ∧ (s.convSt i).urgent = [] →
        (t.convSt i).running = some ch ∧ (t.convSt i).urgent = [] ∧ (t.convSt i).restarted = true) ∧
      t.sen.oc48 = (s.sen.oc48 || decide (4 ≤ n)) := by
  refine completes_of_next rfl ?_
  rw [Nat.mod_eq_of_lt hi]
  unfold State.overcurrent
  split
  · rename_i hn
    rw [if_pos hn] at hch
    subst hch
    obtain ⟨hbusy, habort⟩ := State.overcurrent_of hnew hroom
    refine ⟨hbusy, habort, ?_⟩
    rw [State.oc48_urgentRequest, decide_eq_false (by omega), Bool.or_false]
  · rename_i hn
    rw [if_neg hn] at hch
    subst hch
    obtain ⟨hbusy, habort⟩ := State.overcurrent_of (s := { s with sen := { s.sen with oc48 := true } }) hnew hroom
    refine ⟨hbusy, habort, ?_⟩
    rw [State.oc48_urgentRequest, decide_eq_true (by omega : 4 ≤ n), Bool.or_true]

/-- SLOW_ROUND (R535). -/
theorem slowRound_completes (thbm : List (Option Int)) (tele peak ohm late : Nat) (short : Bool) (s : State) (hmul : s.elapsed % 2000000 = 0)
    (hnew : s.sen.roundAt ≠ s.elapsed + 1) (hrun : s.rb R.OASIS_RESTARTING 0 = false) (hpow : s.md.powered = true) :
    Completes (.slowRound thbm tele peak ohm short late) s fun t =>
      t.sen.roundAt = s.elapsed + 1 ∧ t.oa.roundAt = s.elapsed ∧
      t.rf R.THERMAL_ROUND_OVERRUNS 0 = min (2 ^ 32 - 1) (s.rf R.THERMAL_ROUND_OVERRUNS 0 + late) ∧
      t.rf R.PWRCAP_EFFECTIVE_CAP 0 = min (s.rf R.PWRCAP_CAP_W 0) (s.rf R.PWRCAP_BOARD_CAP 0) := by
  obtain ⟨hat, helapsed, hover, hcap⟩ := s.slowRound_leaves thbm tele peak ohm late short
  have hround := State.slowRound_of (thbm := thbm) (tele := tele) (peak := peak) (ohm := ohm) (late := late) (short := short) hmul hnew hrun hpow
  obtain ⟨hsen, hoa⟩ := (((s.roundSensed thbm ohm short).governor tele peak).roundClosed late).stamps_roundStamped
  refine completes_of_next (congrArg Host.Outcome.next hround) ⟨?_, hoa.trans helapsed, ?_, ?_⟩
  · rw [hsen, hat]
  · rw [State.rf_roundStamped, hover]
  · rw [State.rf_roundStamped, hcap]

/-- THROTTLE_ESCALATE (R538). -/
theorem throttleEscalate_completes (p since : Nat) (s : State) (hp : p < 4) (hhot : Tbl.get? s.sen.hotSince p = some since)
    (hone : bitsOf (s.rf R.THERMAL_PART_LIMIT 0) (2 * p) 2 = 1) (hlate : since + 100000000 ≤ s.elapsed) :
    Completes (.throttleEscalate p) s fun t => t.rf R.THERMAL_PART_LIMIT 0 = s.rf R.THERMAL_PART_LIMIT 0 + 4 ^ p := by
  refine completes_of_next rfl ?_
  rw [Nat.mod_eq_of_lt hp]
  have hraise : s.throttleEscalate p = (s.wf R.THERMAL_PART_LIMIT 0 (s.rf R.THERMAL_PART_LIMIT 0 + 4 ^ p)).applyClocks (physOfPart p) := by
    unfold State.throttleEscalate
    dsimp only
    rw [hhot]
    dsimp only
    rw [if_pos ⟨hone, hlate⟩]
  have hclk (u : State) (l : List Nat) : u.Within 0x40000000000000000000000000000000 (u.applyClocks l) := State.applyClocks_frame (Sub.refl _) (u.frame_refl _)
  rw [hraise, (hclk _ _).rf (by decide), State.rf_wf_same]
  exact Nat.mod_eq_of_lt (partLimit_raised hp (s.rf_lt _ _ _) hone)

/-- UNDERVOLTAGE_END (R546). -/
theorem undervoltageEnd_completes (p due : Nat) (s : State) (hp : p < 4) (hdue : Tbl.get? s.sen.uvUntil p = some due) (hpast : due ≤ s.elapsed) :
    Completes (.undervoltageEnd p) s fun t => t.sen.uvUntil = Tbl.del s.sen.uvUntil p ∧ Tbl.get? t.sen.uvUntil p = none := by
  refine completes_of_next rfl ?_
  rw [Nat.mod_eq_of_lt hp]
  have hclk (u : State) (l : List Nat) : u.Within 0x40000000000000000000000000000000 (u.applyClocks l) := State.applyClocks_frame (Sub.refl _) (u.frame_refl _)
  have hend : (s.undervoltageEnd p).sen.uvUntil = Tbl.del s.sen.uvUntil p := by
    unfold State.undervoltageEnd
    rw [hdue]
    dsimp only
    rw [if_neg (by omega), (hclk _ _).sen (by decide)]
  exact ⟨hend, by rw [hend]; exact Tbl.get_del_same _ _⟩

/-- Settles O58: conversions, the comparators, the slow round and the limits of a partition. -/
theorem sensingComplete : Obligations.SensingComplete := by
  unfold Obligations.SensingComplete
  exact ⟨conversionEnd_completes, overcurrentComparator_completes, urgentGo_completes, slowRound_completes, throttleEscalate_completes,
    undervoltageEnd_completes⟩

end Sys2Proof.Machine
end

section
/-! Channels and their credits (R241 to R244; O23). -/

namespace Sys2Proof.Machine

/-! ### Messages of a core that stay in the module -/

/-- R236: a message of a core to a core of its module goes out with its route header. -/
theorem State.meshFrom_near (s : State) (ck kind g : Nat) (ws : List Nat) {dest : Nat} (hd : dest < 0x8000) (n : Nat) :
    s.meshFrom ck kind dest g ws n =
      { s with out := .mesh kind dest ws :: ((if destLocal dest then [.route (s.routeHeader ck kind dest g n)] else []) ++ s.out) } := by
  have hremote : destRemote dest = false := by simp only [destRemote, Bool.and_eq_false_iff, decide_eq_false_iff_not]; omega
  unfold State.meshFrom State.mesh
  rw [hremote, if_neg (by simp), if_neg (by omega)]
  cases destLocal dest <;> rfl

/-! ### The channel after it changes -/

theorem State.chan_is {s : State} {ck dest stream : Nat} {c : Chan} (h : s.chan ck dest stream = some c) :
    c.core = ck ∧ c.dest = dest ∧ c.stream = stream := by
  simpa [and_assoc] using List.find?_some h

/-- R241: a channel replaced is the channel read. -/
theorem State.chan_setChan {s : State} {ck dest stream : Nat} {c : Chan} (h : c.core = ck ∧ c.dest = dest ∧ c.stream = stream) :
    (s.setChan c).chan ck dest stream = some c := by
  obtain ⟨rfl, rfl, rfl⟩ := h
  unfold State.setChan State.chan
  dsimp only
  rw [List.find?_append, List.find?_eq_none.mpr (by simp; tauto), Option.none_or, List.find?_singleton, if_pos (by simp)]

/-- A channel found before a change of its credits is found after it. -/
theorem find?_map_credits {l : List Chan} {ck dest stream : Nat} {c : Chan} (f : Chan → Nat)
    (h : (l.find? fun x => x.core = ck && x.dest = dest && x.stream = stream) = some c) :
    ((l.map fun x : Chan => if x.core = ck ∧ x.dest = dest ∧ x.stream = stream then { x with credits := f x } else x).find? fun x =>
      x.core = ck && x.dest = dest && x.stream = stream) = some { c with credits := f c } := by
  induction l with
  | nil => simp at h
  | cons x xs ih =>
    by_cases hx : x.core = ck ∧ x.dest = dest ∧ x.stream = stream
    · obtain rfl : x = c := by simpa [hx] using h
      simp [hx]
    · have hx' : (decide (x.core = ck) && decide (x.dest = dest) && decide (x.stream = stream)) = false := by
        simpa [Bool.and_assoc] using hx
      rw [List.map_cons, if_neg hx, List.find?_cons_of_neg (by simp [hx'])]
      exact ih (by rwa [List.find?_cons_of_neg (by simp [hx'])] at h)

/-! ### Credits that come and go -/

/-- R198: watching for a wait for credits leaves the channels. -/
theorem State.chan_creditWatch (s : State) (ck a b c : Nat) : (s.creditWatch ck).chan a b c = s.chan a b c := by
  have hw : s.Within _ (s.creditWatch ck) := State.creditWatch_frame (Sub.refl _) (s.frame_refl _)
  unfold State.chan
  rw [hw.chans (by decide)]

/-- R241, R244: credits of the channel's generation are added to it. -/
theorem State.chan_creditsFor {s : State} {ck dest stream n gen reqGen : Nat} {c : Chan} (hreq : reqGen % 256 = s.coreGen ck)
    (hc : s.chan ck dest stream = some c) (hg : c.gen = gen % 256) (grant : Bool) :
    (s.creditsFor ck dest stream n gen reqGen grant).chan ck dest stream =
      some { c with credits := c.credits + n, usedAt := s.elapsed, want := if grant then c.want - n else c.want, noBuf := none } := by
  unfold State.creditsFor
  rw [if_neg (by simp [hreq])]
  unfold State.takeCredits
  rw [hc]
  dsimp only
  rw [if_pos hg]
  have hk := State.chan_is hc
  exact State.chan_setChan hk

theorem State.buf_setBuf (s : State) (ck i : Nat) (b : BufSt) : (s.setBuf ck i b).buf ck i = b := Tbl.getD_put_same _ _ _ _

/-- R241: the free credits of a buffer do not depend on who waits for them. -/
theorem State.bufFree_setBuf {s : State} {ck i : Nat} {b : BufSt} (h : b.used = (s.buf ck i).used) :
    (s.setBuf ck i b).bufFree ck i = s.bufFree ck i := by
  have hsize : (s.setBuf ck i b).bufSize ck i = s.bufSize ck i := rfl
  have hgated : (s.setBuf ck i b).gated (.core ck) = s.gated (.core ck) := rfl
  unfold State.bufFree
  rw [hsize, hgated, State.buf_setBuf, h]

/-- R241: a request that the free credits of an unattended buffer cover is granted whole. -/
theorem State.takeRequest_whole {s : State} {ck i : Nat} {r : CredReq} (hq : (s.buf ck i).queue = []) (hn : r.n ≠ 0) (hfree : r.n ≤ s.bufFree ck i) :
    s.takeRequest ck i r = ((s.setBuf ck i { s.buf ck i with queue := [r] }).setBuf ck i { s.buf ck i with used := (s.buf ck i).used + r.n }).grant ck r r.n := by
  have hfr : (s.setBuf ck i { s.buf ck i with queue := [r] }).bufFree ck i = s.bufFree ck i := State.bufFree_setBuf rfl
  unfold State.takeRequest
  simp only [hq, List.nil_append, List.length_nil, State.serveQueue, State.buf_setBuf]
  rw [hfr, Nat.min_eq_left hfree, if_neg hn, if_pos rfl]

/-- R241: a buffer no request waits at serves none. -/
theorem State.serveQueue_nil {s : State} {ck i : Nat} (hq : (s.buf ck i).queue = []) (n : Nat) : s.serveQueue ck i n = s := by
  cases n with
  | zero => rfl
  | succ n => unfold State.serveQueue; simp only [hq]

/-! ### The commands -/

theorem creditRequest_completes {producer dest stream n gen i : Nat} {s : State} (hp : producer < 0x8000) (hd : destLocal dest = true)
    (ha : s.isAbsent dest = false) (hm : s.matchBuf dest stream none = some i) (hq : (s.buf dest i).queue = []) (hn : n ≠ 0) (hf : n ≤ s.bufFree dest i) :
    Completes (.creditRequest { core := producer, gen := gen } dest stream n) s fun t =>
      t.buf dest i = { s.buf dest i with used := (s.buf dest i).used + n } ∧ t.out.head? = some (.mesh 2 producer [dest, stream, n, s.coreGen dest]) := by
  refine completes_of_next rfl ?_
  unfold State.creditRequest
  dsimp only
  rw [hd, ha, if_neg (by simp), if_neg (by simp), hm]
  dsimp only
  rw [State.takeRequest_whole hq hn hf]
  unfold State.grant
  dsimp only
  rw [if_pos rfl, State.meshFrom_near _ _ _ _ _ hp]
  exact ⟨State.buf_setBuf _ _ _ _, rfl⟩

theorem creditRelease_completes {dest stream n gen i : Nat} {s : State} (hd : destLocal dest = true)
    (ha : s.isAbsent dest = false) (hg : gen % 256 = s.coreGen dest) (hm : s.matchBuf dest stream none = some i) (hq : (s.buf dest i).queue = []) :
    Completes (.creditRelease dest stream n gen) s fun t => t.buf dest i = { s.buf dest i with used := (s.buf dest i).used - n } := by
  refine completes_of_next rfl ?_
  unfold State.creditRelease
  rw [hd, ha, if_neg (by simp [hg]), hm]
  dsimp only
  rw [State.serveQueue_nil (by rw [State.buf_setBuf]; exact hq), State.buf_setBuf]

theorem creditIdle_completes {ck dest stream : Nat} {c : Chan} {s : State} (hc : s.chan ck dest stream = some c) (hr : c.reserved < c.credits)
    (hu : c.usedAt + 100000 ≤ s.elapsed) (hd : dest < 0x8000) :
    Completes (.creditIdle ck dest stream) s fun t =>
      t.chan ck dest stream = some { c with credits := c.reserved } ∧
      t.out = .mesh 4 dest [ck, stream, c.credits - c.reserved, c.gen] ::
        ((if destLocal dest then [.route (s.routeHeader ck 4 dest (s.coreGen ck) 0)] else []) ++ s.out) := by
  refine completes_of_next rfl ?_
  unfold State.creditIdle
  rw [hc]
  dsimp only
  rw [if_neg (by omega), State.meshFrom_near _ _ _ _ _ hd]
  exact ⟨find?_map_credits (fun x => x.reserved) hc, rfl⟩

theorem noBufferRetry_completes {ck dest stream : Nat} {c : Chan} {s : State} (hc : s.chan ck dest stream = some c) (hb : c.noBuf.isSome = true)
    (hr : c.retryAt ≤ s.elapsed) (hd : dest < 0x8000) :
    Completes (.noBufferRetry ck dest stream) s fun t =>
      t.chan ck dest stream = some { c with retryAt := s.elapsed + 10000 } ∧
      t.out = .mesh 1 dest [ck, stream, c.want, s.coreGen ck] ::
        ((if destLocal dest then [.route (s.routeHeader ck 1 dest (s.coreGen ck) 0)] else []) ++ s.out) := by
  refine completes_of_next rfl ?_
  unfold State.noBufferRetry
  rw [hc]
  dsimp only
  rw [if_pos ⟨hb, hr⟩, State.meshFrom_near _ _ _ _ _ hd]
  have hk := State.chan_is hc
  exact ⟨State.chan_setChan hk, rfl⟩

/-- Settles O23. -/
theorem creditsComplete : Obligations.CreditsComplete := by
  unfold Obligations.CreditsComplete
  refine ⟨fun _ _ _ _ _ _ _ => creditRequest_completes, ?grant, ?return_, fun _ _ _ _ _ _ => creditRelease_completes,
    fun _ _ _ _ _ hc hr hu _ hd => creditIdle_completes hc hr hu hd, fun _ _ _ _ _ => noBufferRetry_completes⟩
  case grant =>
    intro ck dest stream n gen reqGen c s hreq hc hg
    refine completes_of_next rfl ?_
    rw [State.chan_creditWatch]
    exact State.chan_creditsFor hreq hc hg true
  case return_ =>
    intro ck dest stream n gen reqGen c s hreq hc hg
    refine completes_of_next rfl ?_
    rw [State.chan_creditWatch]
    exact State.chan_creditsFor hreq hc hg false

end Sys2Proof.Machine
end

section
/-! The HBM controllers (R261 to R275; O25). -/

namespace Sys2Proof.Machine

/-! ### Codewords read and written without an error, R265 to R269 -/

/-- R267: a codeword whose tag is 0 is read without errors as it stands, and nothing changes. -/
theorem State.codeRead_clean {s : State} {st off : Nat} (ht : s.hbmTag st off = 0) (miss : Option Nat) :
    s.codeRead st off [] 0 miss = (Mem.read s.hbm (hbmKey st off) 64, false, s) := by
  unfold State.codeRead
  rw [ht]
  rfl

theorem State.hbmAccess_of {s : State} {r : Requester} {a st off : Nat} (hdec : hbmDecode s.interleave a = some (st, off))
    (hseal : s.sealed a = true → r.sealedOk = true) (hfail : s.rb R.HBM_FAILED st = false) (d : Nat) :
    s.hbmAccess r a d = (some (st, off), 0, s) := by
  have hopen : (s.sealed a && !r.sealedOk) = false := by
    cases hs : s.sealed a with
    | false => rfl
    | true => rw [hseal hs]; rfl
  unfold State.hbmAccess
  rw [hdec]
  dsimp only
  rw [hopen, hfail]
  rfl

/-- A response of a controller goes out; nothing else changes. -/
theorem State.hbmAnswer_eq (s : State) (r : Requester) (id res : Nat) (h : Bool) (d : Nat) :
    s.hbmAnswer r id res h d = s.emit (.mesh 17 r.dest [r.code, id, res, bit h, d]) := by
  unfold State.hbmAnswer State.mesh
  rw [if_neg (by simp), if_neg (by simp)]

/-- R268: a read of a clean codeword counts its bytes and answers them. -/
theorem State.hbmReadCmd_clean {s : State} {r : Requester} {a st off : Nat} (hdec : hbmDecode s.interleave a = some (st, off))
    (hseal : s.sealed a = true → r.sealedOk = true) (hfail : s.rb R.HBM_FAILED st = false) (ht : s.hbmTag st (off / 64 * 64) = 0)
    (id n : Nat) (miss : Option Nat) :
    s.hbmReadCmd r id a n false [] 0 miss = (s.inc R.HBM_READ_BYTES st (min n (64 - a % 64))).emit (.mesh 17 r.dest
      [r.code, id, 0, 0, Mem.read s.hbm (hbmKey st (off / 64 * 64)) 64 / 256 ^ (a % 64) % 256 ^ min n (64 - a % 64)]) := by
  unfold State.hbmReadCmd
  dsimp only
  rw [State.hbmAccess_of hdec hseal hfail]
  dsimp only
  rw [State.codeRead_clean ht]
  dsimp only [Bool.false_eq_true, if_false]
  exact State.hbmAnswer_eq _ _ _ _ _ _

/-- R269: the state a clean write of a codeword leaves. -/
def State.codeStored (s : State) (st off n v : Nat) (by_ : Option Nat) : State :=
  ((({ s with hbm := Mem.write s.hbm (hbmKey st off) n v }).setHbmTag st (off / 64 * 64) 0).inc R.HBM_WRITE_BYTES st n).clearResv st (off / 64 * 64) by_

theorem State.codeWrite_clean {s : State} {st off : Nat} (ht : s.hbmTag st (off / 64 * 64) = 0) (n v : Nat) (miss by_ : Option Nat) :
    (s.codeWrite st off n (fun _ => v) false [] 0 miss by_).2.2 = s.codeStored st off n v by_ := by
  unfold State.codeWrite
  dsimp only
  rw [State.codeRead_clean ht]
  cases decide (n = 64 ∧ off = off / 64 * 64) <;> rfl

theorem State.hbm_codeStored (s : State) (st off n v : Nat) (by_ : Option Nat) :
    (s.codeStored st off n v by_).hbm = Mem.write s.hbm (hbmKey st off) n v := by
  unfold State.codeStored State.clearResv
  dsimp only
  rw [State.inc_hbm]
  rfl

theorem State.out_codeStored (s : State) (st off n v : Nat) (by_ : Option Nat) : (s.codeStored st off n v by_).out = s.out := by
  unfold State.codeStored State.clearResv
  dsimp only
  rw [State.inc_out]
  rfl

theorem State.rf_codeStored (s : State) (st off n v : Nat) (by_ : Option Nat) :
    (s.codeStored st off n v by_).rf R.HBM_WRITE_BYTES st = (s.rf R.HBM_WRITE_BYTES st + n) % 2 ^ 64 :=
  State.rf_inc_wrap _ _ (by decide) _ _ _

/-- R269: a store to a clean codeword is made, and the reply goes out. -/
theorem State.hbmWriteCmd_clean {s : State} {r : Requester} {a st off : Nat} (hdec : hbmDecode s.interleave a = some (st, off))
    (hseal : s.sealed a = true → r.sealedOk = true) (hfail : s.rb R.HBM_FAILED st = false) (ht : s.hbmTag st (off / 64 * 64) = 0)
    (id n v : Nat) (miss : Option Nat) :
    s.hbmWriteCmd r id a n v false 0 [] 0 miss =
      (s.codeStored st off (min n (64 - a % 64)) v r.score).emit (.mesh 17 r.dest [r.code, id, 0, 0, 0]) := by
  unfold State.hbmWriteCmd
  dsimp only [WriteKind.of, if_true]
  rw [State.hbmAccess_of hdec hseal hfail]
  dsimp only
  rw [State.codeWrite_clean ht, State.hbmAnswer_eq]
  rfl

theorem State.out_emit (s : State) (o : Out) : (s.emit o).out = o :: s.out := rfl

theorem State.hbm_emit (s : State) (o : Out) : (s.emit o).hbm = s.hbm := rfl

/-- R271: a read that is issued is the controller's read, with a stream engine's read noted as outstanding. -/
theorem State.hbmReadIssue_within {s : State} {r : Requester} {id a n st off flips : Nat} {lr : Bool} {errs : SymErrs} {miss : Option Nat}
    (hdec : hbmDecode s.interleave a = some (st, off)) (hroom : ∀ v, r = .stream v → s.streamRoom v st = true) :
    (s.hbmReadCmd r id a n lr errs flips miss).Within (touch [0x14] [.vc]) (s.hbmReadIssue r id a n lr errs flips miss) := by
  unfold State.hbmReadIssue
  rw [hdec]
  cases r with
  | stream v =>
    dsimp only
    rw [if_pos (hroom v rfl)]
    exact State.setVc_frame (Sub.refl _) (State.frame_refl _ _)
  | master m => exact State.frame_refl _ _
  | program e => exact State.frame_refl _ _
  | collective u => exact State.frame_refl _ _

theorem hbmRead_completes {r : Requester} {id a n st off : Nat} {miss : Option Nat} {s : State} (hdec : hbmDecode s.interleave a = some (st, off))
    (hacc : s.hbmAccepts a = true) (hseal : s.sealed a = true → r.sealedOk = true) (hfail : s.rb R.HBM_FAILED st = false)
    (ht : s.hbmTag st (off / 64 * 64) = 0) (hroom : ∀ v, r = .stream v → s.streamRoom v st = true) :
    Completes (.hbmRead r id a n false [] 0 miss) s fun t =>
      t.out = .mesh 17 r.dest [r.code, id, 0, 0, Mem.read s.hbm (hbmKey st (off / 64 * 64)) 64 / 256 ^ (a % 64) % 256 ^ min n (64 - a % 64)] :: s.out ∧
      t.hbm = s.hbm ∧ t.rf R.HBM_READ_BYTES st = (s.rf R.HBM_READ_BYTES st + min n (64 - a % 64)) % 2 ^ 64 := by
  refine completes_of_next rfl ?_
  rw [hacc, State.when_true]
  have hw := State.hbmReadIssue_within (id := id) (a := a) (n := n) (lr := false) (errs := []) (flips := 0) (miss := miss) hdec hroom
  rw [State.hbmReadCmd_clean hdec hseal hfail ht] at hw
  rw [hw.out (by decide), hw.hbm (by decide), hw.rf (by decide), State.rf_emit, State.out_emit, State.hbm_emit, State.inc_out, State.inc_hbm,
    State.rf_inc_wrap _ _ (by decide)]
  exact ⟨rfl, rfl, rfl⟩

theorem hbmWrite_completes {r : Requester} {id a n v st off : Nat} {miss : Option Nat} {s : State} (hdec : hbmDecode s.interleave a = some (st, off))
    (hacc : s.hbmAccepts a = true) (hseal : s.sealed a = true → r.sealedOk = true) (hfail : s.rb R.HBM_FAILED st = false)
    (ht : s.hbmTag st (off / 64 * 64) = 0) :
    Completes (.hbmWrite r id a n v false 0 [] 0 miss) s fun t =>
      t.hbm = Mem.write s.hbm (hbmKey st off) (min n (64 - a % 64)) v ∧ t.out = .mesh 17 r.dest [r.code, id, 0, 0, 0] :: s.out ∧
      t.rf R.HBM_WRITE_BYTES st = (s.rf R.HBM_WRITE_BYTES st + min n (64 - a % 64)) % 2 ^ 64 := by
  refine completes_of_next rfl ?_
  rw [hacc, State.when_true, State.hbmWriteCmd_clean hdec hseal hfail ht]
  rw [State.hbm_emit, State.out_emit, State.rf_emit, State.hbm_codeStored, State.out_codeStored, State.rf_codeStored]
  exact ⟨rfl, rfl, rfl⟩

/-! ### Scrubbing, training and filling, R261, R270, R275 -/

theorem scrubRead_completes {st flips : Nat} {errs : List (Nat × Nat)} {miss : Option Nat} {s : State} (hst : st < 12)
    (hen : s.rb R.HBM1_SCRUB_EN st = true) (hfail : s.rb R.HBM_FAILED st = false) (hself : s.rb R.HBM_SELF_REFRESH st = false)
    (hend : s.rf R.HBM1_SCRUB_PTR st / 64 * 64 + 64 < 48 * 2 ^ 30) :
    Completes (.scrubRead st errs flips miss) s fun t => t.rf R.HBM1_SCRUB_PTR st = s.rf R.HBM1_SCRUB_PTR st / 64 * 64 + 64 := by
  refine completes_of_next rfl ?_
  rw [Nat.mod_eq_of_lt hst]
  unfold State.scrubRead
  rw [if_neg (by rw [hen, hfail, hself]; decide)]
  dsimp only
  rw [if_pos hend, State.rf_wf_same]
  exact Nat.mod_eq_of_lt (hend.trans (by decide))

theorem hbmTrain_completes {st outcome : Nat} {s : State} (hst : st < 12) (ho : outcome < 2) :
    Completes (.hbmTrain st outcome) s fun t => t.rf R.HBM_TRAINED st = 1 ∧ t.rf R.HBM_RATE st = outcome ∧ t.rf R.HBM_SELF_REFRESH st = 0 := by
  refine completes_of_next rfl ?_
  rw [Nat.mod_eq_of_lt hst]
  unfold State.hbmTrain
  obtain rfl | rfl : outcome = 0 ∨ outcome = 1 := by omega
  · dsimp only
    rw [if_pos rfl]
    simp (disch := decide) only [State.rf_wf_same, State.rf_wf_of_code]
    decide
  · dsimp only
    rw [if_neg (by decide), if_pos rfl]
    simp (disch := decide) only [State.rf_unitEv_plain, State.rf_setInt_plain, State.rf_wf_same, State.rf_wf_of_code]
    decide

theorem hbmFill_completes {st : Nat} {s : State} (hst : st < 12) (hdue : st ∈ s.md.fillDue) :
    Completes (.hbmFill st) s fun t =>
      t.rf R.HBM_INITIALISED st = 1 ∧ st ∉ t.md.fillDue ∧ t.hbm = Tbl.keep s.hbm (fun a _ => decide (a / 2 ^ 36 ≠ st)) ∧
      t.hbmTags = Tbl.keep s.hbmTags (fun w _ => decide (w * 64 / 2 ^ 36 ≠ st)) := by
  refine completes_of_next rfl ?_
  rw [Nat.mod_eq_of_lt hst]
  unfold State.hbmFill
  rw [if_pos (by simpa using hdue)]
  refine ⟨State.rf_wf_same _ _ _ _ _, ?_, rfl, rfl⟩
  change st ∉ s.md.fillDue.filter (· ≠ st)
  simp

/-! ### The interleave and the sealed range, R264, R272 -/

/-- R264: each stack takes the interleave and the sealed range that follows from it. -/
theorem State.rf_writeInterleave {s : State} {k : Nat} (hk : k ∈ List.range 12) (g : Nat) :
    (s.writeInterleave g).rf R.HBM_INTERLEAVE_GIB k = g % 2 ^ 6 ∧ (s.writeInterleave g).rf R.HBM_SEALED_BASE k = 12 * g * 2 ^ 30 % 2 ^ 64 ∧
    (s.writeInterleave g).rf R.HBM_SEALED_LIMIT k = 0x8FFFFFFFFF := by
  have hother : ∀ y ∈ List.range 12, y ≠ k → k % 65536 ≠ y % 65536 := by
    intro y hy hne
    rw [List.mem_range] at hk hy
    omega
  unfold State.writeInterleave
  refine ⟨State.each_set (fun t => t.rf R.HBM_INTERLEAVE_GIB k) hk (fun t => ?_) (fun y hy hne t => ?_) s,
    State.each_set (fun t => t.rf R.HBM_SEALED_BASE k) hk (fun t => ?_) (fun y hy hne t => ?_) s,
    State.each_set (fun t => t.rf R.HBM_SEALED_LIMIT k) hk (fun t => ?_) (fun y hy hne t => ?_) s⟩
  · simp (disch := decide) only [State.rf_wf_of_code, State.rf_wf_same]
    rfl
  · simp (disch := decide) only [State.rf_wf_of_code]
    exact State.rf_wf_of_inst _ _ (hother y hy hne) _ _ _
  · simp (disch := decide) only [State.rf_wf_of_code, State.rf_wf_same]
    rfl
  · rw [State.rf_wf_of_code _ (by decide), State.rf_wf_of_inst _ _ (hother y hy hne), State.rf_wf_of_code _ (by decide)]
  · rw [State.rf_wf_same]
    rfl
  · rw [State.rf_wf_of_inst _ _ (hother y hy hne)]
    simp (disch := decide) only [State.rf_wf_of_code]

theorem interleaveWrite_completes {m : Master} {w : Nat} {s : State} (h : s.Writes m (hbmPage 0) 0x100 w) (hready : s.wasReady = false) :
    Completes (.interleaveWrite m w) s fun t =>
      ∀ k ∈ List.range 12, t.rf R.HBM_INTERLEAVE_GIB k = bitsOf w 0 6 ∧ t.rf R.HBM_SEALED_BASE k = 12 * bitsOf w 0 6 * 2 ^ 30 ∧
        t.rf R.HBM_SEALED_LIMIT k = 0x8FFFFFFFFF := by
  have hblock : s.writeBlock m (hbmPage 0) 0x100 w = (0, 0, s.writeInterleave (bitsOf w 0 6)) := by
    change (if s.wasReady then _ else _) = _
    rw [hready]
    rfl
  have hw := h.store_within (by decide) hblock
  have hg : bitsOf w 0 6 < 64 := Nat.mod_lt _ (by decide)
  refine completes_of_next rfl fun k hk => ?_
  obtain ⟨hgib, hbase, hlimit⟩ := s.rf_writeInterleave hk (bitsOf w 0 6)
  rw [hw.rf (by decide), hw.rf (by decide), hw.rf (by decide), hgib, hbase, hlimit, Nat.mod_eq_of_lt (b := 2 ^ 6) hg, Nat.mod_eq_of_lt (by omega)]
  exact ⟨rfl, rfl, rfl⟩

/-- R272: each stack takes the base or limit written. -/
theorem State.rf_eachStack {s : State} {f : Field} {k : Nat} (hk : k ∈ List.range 12) (w : Nat) :
    (s.each (List.range 12) fun t k => t.wf f k w).rf f k = w % 2 ^ f.len := by
  refine State.each_set (fun t => t.rf f k) hk (fun t => t.rf_wf_same f k w 0) (fun y hy hne t => t.rf_wf_of_inst f ?_ w 0 0) s
  rw [List.mem_range] at hk hy
  omega

theorem sealedRangeWrite_completes {limit : Bool} {w : Nat} {s : State} (h : s.Writes .oasis (hbmPage 0) (if limit then 0x110 else 0x108) w) :
    Completes (.sealedRangeWrite .oasis limit w) s fun t =>
      ∀ k ∈ List.range 12, t.rf (if limit then R.HBM_SEALED_LIMIT else R.HBM_SEALED_BASE) k = w := by
  have hlt : w < 2 ^ 64 := h.2.1
  refine completes_of_next rfl fun k hk => ?_
  cases limit with
  | false =>
    have hw := h.store_within (u := s.each (List.range 12) fun t k => t.wf R.HBM_SEALED_BASE k w) (by decide) rfl
    exact (hw.rf (f := R.HBM_SEALED_BASE) (by decide)).trans ((State.rf_eachStack hk w).trans (Nat.mod_eq_of_lt hlt))
  | true =>
    have hw := h.store_within (u := s.each (List.range 12) fun t k => t.wf R.HBM_SEALED_LIMIT k w) (by decide) rfl
    exact (hw.rf (f := R.HBM_SEALED_LIMIT) (by decide)).trans ((State.rf_eachStack hk w).trans (Nat.mod_eq_of_lt hlt))

/-- Settles O25. -/
theorem externalMemoryComplete : Obligations.ExternalMemoryComplete := by
  unfold Obligations.ExternalMemoryComplete
  refine ⟨fun r id a n st off miss s hdec hacc hseal hfail ht hroom => hbmRead_completes hdec hacc hseal hfail ht ?_,
    fun _ _ _ _ _ _ _ _ _ => hbmWrite_completes, fun _ _ _ _ _ => scrubRead_completes, fun _ _ _ => hbmTrain_completes,
    fun _ _ => hbmFill_completes, fun _ _ _ => interleaveWrite_completes, fun _ _ _ => sealedRangeWrite_completes⟩
  rintro v rfl
  exact hroom

end Sys2Proof.Machine
end

section
/-! A host port's flow and congestion control, and its neighbour protocols (R327 to R330, R337; O34, O35). -/

namespace Sys2Proof.Machine

/-! ### Frames of a port -/

theorem State.port_setPort (s : State) (p : Nat) (x : PortSt) : (s.setPort p x).port p = x := Tbl.getD_put_same _ _ _ _

theorem State.port_of_ports {s t : State} (h : t.ports = s.ports) (p : Nat) : t.port p = s.port p := by
  unfold State.port
  rw [h]

theorem State.qp_setQp (s : State) (q : Nat) (x : QpSt) : (s.setQp q x).qp q = x := Tbl.getD_put_same _ _ _ _

theorem State.out_sendEth (s : State) (p : Nat) (k : EthKind) (ws : List Nat) : (s.sendEth p k ws).out = .eth p k ws :: s.out :=
  State.inc_out _ _ _ _ _

theorem State.port_sendEth (s : State) (p : Nat) (k : EthKind) (ws : List Nat) (n : Nat) : (s.sendEth p k ws).port n = s.port n :=
  State.port_of_ports (State.inc_ports _ _ _ _ _) n

/-- R326: a frame sent is counted. -/
theorem State.rf_sendEth (s : State) (p : Nat) (k : EthKind) (ws : List Nat) :
    (s.sendEth p k ws).rf R.HOST_FRAMES_TX p = (s.rf R.HOST_FRAMES_TX p + 1) % 2 ^ 64 :=
  State.rf_inc_wrap _ _ (by decide) _ _ _

/-- R327: a PFC frame for the RoCE priority goes out; the port's own state stays. -/
theorem State.sendPfc_is (s : State) (p quanta : Nat) :
    (∀ n, (s.sendPfc p quanta).port n = s.port n) ∧ (s.sendPfc p quanta).out = .eth p (.pfc (s.rf R.HOST1_ROCE_PCP p) quanta) [] :: s.out :=
  ⟨s.port_sendEth _ _ _, s.out_sendEth _ _ _⟩

/-! ### Priority flow control, R327 -/

theorem pfcXoff_completes {p occ : Nat} {s : State} (hp : p < 2) (hup : s.rb R.HOST_LINK_UP p = true) (htx : s.rb R.HOST_PFC_TX_EN p = true)
    (hlow : (s.port p).occKib ≤ s.rf R.HOST_XOFF_KIB p) (hhigh : s.rf R.HOST_XOFF_KIB p < occ) :
    Completes (.pfcXoff p occ) s fun t =>
      t.port p = { s.port p with occKib := occ, paused := true, pauseDue := s.elapsed + 20000 } ∧
      t.out = .eth p (.pfc (s.rf R.HOST1_ROCE_PCP p) 0xFFFF) [] :: s.out := by
  refine completes_of_next rfl ?_
  rw [Nat.mod_eq_of_lt hp]
  unfold State.pfcXoff
  dsimp only
  rw [if_pos ⟨hup, hlow, hhigh, htx⟩]
  obtain ⟨hport, hout⟩ := State.sendPfc_is ((s.setPort p { s.port p with occKib := occ }).setPort p
    { s.port p with occKib := occ, paused := true, pauseDue := s.elapsed + 20000 }) p 0xFFFF
  exact ⟨(hport p).trans (State.port_setPort _ _ _), hout⟩

theorem pfcRepeat_completes {p occ : Nat} {s : State} (hp : p < 2) (hpaused : (s.port p).paused = true) (hhigh : s.rf R.HOST_XON_KIB p < occ)
    (hdue : (s.port p).pauseDue ≤ s.elapsed) (htx : s.rb R.HOST_PFC_TX_EN p = true) :
    Completes (.pfcRepeat p occ) s fun t =>
      t.port p = { s.port p with occKib := occ, pauseDue := s.elapsed + 20000 } ∧
      t.out = .eth p (.pfc (s.rf R.HOST1_ROCE_PCP p) 0xFFFF) [] :: s.out := by
  refine completes_of_next rfl ?_
  rw [Nat.mod_eq_of_lt hp]
  unfold State.pfcRepeat
  dsimp only
  rw [if_pos ⟨hpaused, hhigh, hdue, htx⟩]
  obtain ⟨hport, hout⟩ := State.sendPfc_is ((s.setPort p { s.port p with occKib := occ }).setPort p
    { s.port p with occKib := occ, pauseDue := s.elapsed + 20000 }) p 0xFFFF
  exact ⟨(hport p).trans (State.port_setPort _ _ _), hout⟩

theorem pfcXon_completes {p occ : Nat} {s : State} (hp : p < 2) (hpaused : (s.port p).paused = true) (hlow : occ < s.rf R.HOST_XON_KIB p)
    (htx : s.rb R.HOST_PFC_TX_EN p = true) :
    Completes (.pfcXon p occ) s fun t =>
      t.port p = { s.port p with occKib := occ, paused := false } ∧ t.out = .eth p (.pfc (s.rf R.HOST1_ROCE_PCP p) 0) [] :: s.out := by
  refine completes_of_next rfl ?_
  rw [Nat.mod_eq_of_lt hp]
  unfold State.pfcXon
  dsimp only
  rw [if_pos ⟨.inl hpaused, hlow⟩, htx, State.when_true]
  obtain ⟨hport, hout⟩ := State.sendPfc_is (s.setPort p { s.port p with occKib := occ, paused := false }) p 0
  exact ⟨(hport p).trans (State.port_setPort _ _ _), hout⟩

/-- R327: with nothing paused, no pause is counted. -/
theorem State.settlePause_none {s : State} {p : Nat} (h : (s.port p).txPaused = []) : s.settlePause p = s := by
  unfold State.settlePause
  simp [h]

/-- The priority that a PFC frame of enable bits 8 names. -/
theorem testBit_eight {i : Nat} (hi : i < 8) : Nat.testBit 8 i = decide (i = 3) := by
  decide +revert

theorem pfcReceive_completes {p : Nat} {quanta : List Nat} {s : State} (hp : p < 2) (hup : s.rb R.HOST_LINK_UP p = true)
    (hnone : (s.port p).txPaused = []) (hmask : s.rf R.HOST_PFC_RX_MASK p = 255) (hq : quanta.getD 3 0 = 100) :
    Completes (.pfcReceive p 8 quanta) s fun t => (t.port p).txPaused = [(3, s.elapsed + s.quantaNs p 100)] := by
  have hrange : List.range 8 = [0, 1, 2, 3, 4, 5, 6, 7] := by decide
  have hbit : Nat.testBit 255 3 = true := by decide
  refine completes_of_next rfl ?_
  rw [Nat.mod_eq_of_lt hp]
  unfold State.pfcReceive
  dsimp only
  rw [State.settlePause_none hnone, if_pos hup, State.port_setPort]
  simp only [List.getD_eq_getElem?_getD] at hq
  simp [hnone, hmask, hq, hrange, testBit_eight, hbit]

/-! ### Congestion control, R328 -/

theorem cnpReceive_completes {q : Nat} {s : State} (hc : s.connected q = true) :
    Completes (.cnpReceive q) s fun t => (t.qp q).target = s.rf R.QP_RATE_MBPS q ∧ (t.qp q).incStage = 0 ∧ (t.qp q).incAt = s.elapsed := by
  refine completes_of_next rfl ?_
  unfold State.cnpReceive
  rw [hc, if_neg (by simp)]
  dsimp only
  rw [State.qp_setQp, State.inc_elapsed, State.inc_elapsed, State.rf_inc_of_code _ (by decide), State.rf_inc_of_code _ (by decide)]
  exact ⟨rfl, rfl, rfl⟩

theorem rateIncrease_completes {q : Nat} {s : State} (hc : s.connected q = true)
    (hdue : (s.qp q).incAt + 1000 * s.rf R.HOST1_RATE_INC_US (s.rf R.QP_PORT q) ≤ s.elapsed) (hrate : s.rf R.QP_RATE_MBPS q < s.lineRate q)
    (hstage : (s.qp q).incStage < 5) :
    Completes (.rateIncrease q) s fun t =>
      (t.qp q).target = (s.qp q).target ∧ (t.qp q).incStage = (s.qp q).incStage + 1 ∧ (t.qp q).incAt = s.elapsed := by
  refine completes_of_next rfl ?_
  unfold State.rateIncrease
  dsimp only
  rw [hc, if_neg (by simp; omega), State.qp_setQp, if_pos hstage]
  exact ⟨rfl, rfl, rfl⟩

/-- Settles O34. -/
theorem flowAndCongestionComplete : Obligations.FlowAndCongestionComplete :=
  ⟨fun _ _ _ => pfcXoff_completes, fun _ _ _ => pfcRepeat_completes, fun _ _ _ => pfcXon_completes, fun _ _ _ => pfcReceive_completes,
    fun _ _ => cnpReceive_completes, fun _ _ => rateIncrease_completes⟩

/-! ### Neighbour protocols, R330, R337 -/

theorem arpRequest_completes {p ip : Nat} {s : State} (hp : p < 2) (hup : s.rb R.HOST_LINK_UP p = true) (hen : s.rb R.HOST1_IPV4_EN p = true)
    (hip : ip = s.rf R.HOST1_IPV4_ADDR p) :
    Completes (.arpRequest p ip) s fun t =>
      t.out = .eth p .arpReply [ip, s.rf R.HOST_MAC_ADDR p] :: s.out ∧ t.rf R.HOST_FRAMES_TX p = (s.rf R.HOST_FRAMES_TX p + 1) % 2 ^ 64 := by
  refine completes_of_next rfl ?_
  rw [Nat.mod_eq_of_lt hp]
  unfold State.arpRequest
  rw [if_pos ⟨hup, hen, hip⟩]
  exact ⟨s.out_sendEth _ _ _, s.rf_sendEth _ _ _⟩

theorem neighbourSolicitation_completes {p hi lo : Nat} {s : State} (hp : p < 2) (hup : s.rb R.HOST_LINK_UP p = true)
    (hown : (hi, lo) = s.linkLocal p) :
    Completes (.neighbourSolicitation p hi lo) s fun t => t.out = .eth p .neighbourAdvert [hi, lo, s.rf R.HOST_MAC_ADDR p] :: s.out := by
  have hmem : (s.ipv6 p).contains (hi, lo) = true := by simp [State.ipv6, hown]
  refine completes_of_next rfl ?_
  rw [Nat.mod_eq_of_lt hp]
  unfold State.neighbourSolicitation
  rw [hup, hmem]
  exact s.out_sendEth _ _ _

theorem lldpSend_completes {p : Nat} {s : State} (hp : p < 2) (hup : s.rb R.HOST_LINK_UP p = true) (hdue : (s.port p).lldpDue ≤ s.elapsed) :
    Completes (.lldpSend p) s fun t =>
      t.port p = { s.port p with lldpDue := s.elapsed + 30000000000 } ∧ ∃ ws, t.out = .eth p .lldp ws :: s.out := by
  refine completes_of_next rfl ?_
  rw [Nat.mod_eq_of_lt hp]
  unfold State.lldpSend
  dsimp only
  rw [if_pos ⟨hup, hdue⟩, State.port_sendEth, State.port_setPort, State.out_sendEth]
  exact ⟨rfl, _, rfl⟩

theorem lldpReceive_completes {p chassis portId : Nat} {s : State} (hp : p < 2) (hup : s.rb R.HOST_LINK_UP p = true) :
    Completes (.lldpReceive p chassis portId) s fun t =>
      t.rf R.HOST_LLDP_CHASSIS p = chassis % 2 ^ 48 ∧ t.rf R.HOST_LLDP_PORT p = portId % 2 ^ 64 ∧ t.rf R.HOST_LLDP_STAMP p = s.now % 2 ^ 64 ∧
      State.OnlyRegs [R.HOST_LLDP_CHASSIS, R.HOST_LLDP_PORT, R.HOST_LLDP_STAMP] s t := by
  refine completes_of_next rfl ?_
  rw [Nat.mod_eq_of_lt hp]
  unfold State.lldpReceive
  rw [if_pos hup]
  refine ⟨?_, ?_, State.rf_wf_same _ _ _ _ _, rfl, ?_⟩
  · simp (disch := decide) only [State.rf_wf_same, State.rf_wf_of_code]
    rfl
  · simp (disch := decide) only [State.rf_wf_same, State.rf_wf_of_code]
    rfl
  · intro g i k hg
    rw [State.rf_wf_of_code _ (hg _ (by simp)), State.rf_wf_of_code _ (hg _ (by simp)), State.rf_wf_of_code _ (hg _ (by simp))]

theorem ptpManagement_completes {p d : Nat} {ws : List Nat} {s : State} (hp : p < 2) (hon : s.ptpOn p d = true) :
    Completes (.ptpManagement p d ws) s fun t => t.out = .eth p .ptpResponse ws :: s.out := by
  refine completes_of_next rfl ?_
  rw [Nat.mod_eq_of_lt hp]
  unfold State.ptpManagement
  rw [if_pos hon]
  exact s.out_sendEth _ _ _

/-- Settles O35. -/
theorem neighbourProtocolsComplete : Obligations.NeighbourProtocolsComplete :=
  ⟨fun _ _ _ => arpRequest_completes, fun _ _ _ _ => neighbourSolicitation_completes, fun _ _ => lldpSend_completes,
    fun _ _ _ _ => lldpReceive_completes, fun _ _ _ _ => ptpManagement_completes⟩

end Sys2Proof.Machine
end

section
/-! Queue pairs: their states, and what leaving CONNECTED keeps (R333 to R336, R355; O36). -/

namespace Sys2Proof.Machine

/-! ### What a queue pair that leaves CONNECTED changes in no register, R336 -/

/-- The fields of host ports and queue pairs that a queue pair's leaving may change. -/
def leaveFields : List Nat :=
  [R.HOST_FRAMES_TX, R.HOST1_QPS_CONNECTED, R.QP_COMPLETIONS, R.QP_SLOTS_FREE, R.QP_SUBSCRIBED, R.QP_SEMS_HELD, R.QP_SQ_PSN].map Field.code

/-- A field of no common header, of no semaphore or ring, and none of those. -/
abbrev Field.lasting (g : Field) : Prop := g.plain ∧ g.area ≠ 2 ∧ g.area ≠ 0x3A ∧ g.code ∉ leaveFields

theorem Field.lasting.ne {g : Field} (hg : g.lasting) {f : Field} (hf : f.code ∈ leaveFields := by decide) : g.code ≠ f.code :=
  fun h => hg.2.2.2 (by rw [h]; exact hf)

theorem Field.code_ne_of_area {f g : Field} (h : g.area ≠ f.area) : g.code ≠ f.code := fun e => h (by rw [Field.area, e, Field.area])

theorem area_semHeldF (i : Nat) : (semHeldF i).area = 2 := by unfold semHeldF; split <;> decide
theorem area_semHolderF (i : Nat) : (semHolderF i).area = 2 := by unfold semHolderF; split <;> decide
theorem area_semSourceF (i : Nat) : (semSourceF i).area = 2 := by unfold semSourceF; split <;> decide
theorem area_semWaitersF (i : Nat) : (semWaitersF i).area = 2 := by unfold semWaitersF; split <;> decide

section
variable {g : Field} (hg : g.lasting) (j l : Nat)
include hg

/-- A store to a semaphore's field. -/
theorem State.rf_wf_sema (s : State) {f : Field} (hf : f.area = 2) (i v k : Nat) : (s.wf f i v k).rf g j l = s.rf g j l :=
  s.rf_wf_of_code (Field.code_ne_of_area (by rw [hf]; exact hg.2.1)) _ _ _ _ _

theorem State.rf_inc_sema (s : State) {f : Field} (hf : f.area = 2) (i n k : Nat) : (s.inc f i n k).rf g j l = s.rf g j l :=
  s.rf_inc_of_code (Field.code_ne_of_area (by rw [hf]; exact hg.2.1)) _ _ _ _ _

theorem State.rf_sendCompletion_lasting (s : State) (q n op r a : Nat) (body : List Nat) :
    (s.sendCompletion q n op r a body).rf g j l = s.rf g j l := by
  have hsend (u : State) (o : Out) : (u.sendQp q o).rf g j l = u.rf g j l :=
    (State.rf_wf_of_code _ (g := g) (f := R.QP_SQ_PSN) hg.ne _ _ _ _ _).trans ((u.emit o).rf_inc_of_code (f := R.HOST_FRAMES_TX) hg.ne _ _ _ _ _)
  unfold State.sendCompletion
  split
  · rw [State.rf_wf_of_code _ hg.ne, State.rf_inc_of_code _ hg.ne, hsend]
  · rfl

theorem State.rf_finish_lasting (s : State) (q n : Nat) (body : List Nat) : (s.finish q n body).rf g j l = s.rf g j l := by
  unfold State.finish
  split
  · rfl
  · dsimp only
    split
    · rfl
    · exact State.rf_sendCompletion_lasting hg j l _ _ _ _ _ _ _

theorem State.rf_semGrant_lasting (s : State) (i h src ms : Nat) : (s.semGrant i h src ms).rf g j l = s.rf g j l := by
  have hset (u : State) (x : SemSt) : (u.setSem i x).rf g j l = u.rf g j l := rfl
  unfold State.semGrant
  dsimp only
  split
  · rw [State.rf_inc_of_code _ hg.ne, hset, State.rf_wf_sema hg _ _ _ (by decide), State.rf_wf_sema hg _ _ _ (area_semSourceF i),
      State.rf_wf_sema hg _ _ _ (area_semHolderF i), State.rf_wf_sema hg _ _ _ (area_semHeldF i)]
  · rw [hset, State.rf_wf_sema hg _ _ _ (by decide), State.rf_wf_sema hg _ _ _ (area_semSourceF i),
      State.rf_wf_sema hg _ _ _ (area_semHolderF i), State.rf_wf_sema hg _ _ _ (area_semHeldF i)]

theorem State.rf_semFree_lasting (s : State) (i : Nat) : (s.semFree i).rf g j l = s.rf g j l := by
  have hset (u : State) (x : SemSt) : (u.setSem i x).rf g j l = u.rf g j l := rfl
  unfold State.semFree
  dsimp only
  split
  · rw [State.rf_dec_of_code _ hg.ne, hset, State.rf_wf_sema hg _ _ _ (by decide), State.rf_wf_sema hg _ _ _ (area_semSourceF i),
      State.rf_wf_sema hg _ _ _ (area_semHolderF i), State.rf_wf_sema hg _ _ _ (area_semHeldF i)]
  · rw [hset, State.rf_wf_sema hg _ _ _ (by decide), State.rf_wf_sema hg _ _ _ (area_semSourceF i),
      State.rf_wf_sema hg _ _ _ (area_semHolderF i), State.rf_wf_sema hg _ _ _ (area_semHeldF i)]

theorem State.rf_semCount_lasting (s : State) (i : Nat) : (s.semCount i).rf g j l = s.rf g j l :=
  State.rf_wf_sema hg j l _ (area_semWaitersF i) _ _ _

theorem State.rf_semNext_lasting (s : State) (i : Nat) : (s.semNext i).rf g j l = s.rf g j l := by
  have hset (u : State) (x : SemSt) : (u.setSem i x).rf g j l = u.rf g j l := rfl
  unfold State.semNext
  split
  · rfl
  · dsimp only
    rw [State.rf_finish_lasting hg, State.rf_semCount_lasting hg, State.rf_semGrant_lasting hg, hset]

theorem State.rf_semBreak_lasting (s : State) (i cause : Nat) : (s.semBreak i cause).rf g j l = s.rf g j l := by
  have hpages (u : State) : (u.each (guardedPages i) fun t p => t.setInt p 3).rf g j l = u.rf g j l :=
    State.each_eq (fun t => t.rf g j l) (fun _ _ t => t.rf_setInt_plain _ _ hg.1 _ _) u
  have hwhen (u : State) (b : Bool) : (u.when b fun t => (t.inc R.SEMA_EXPIRIES 0).setInt semaPage R.INT_SEMA_LEASE_EXPIRED).rf g j l = u.rf g j l := by
    cases b with
    | false => rfl
    | true => rw [State.when_true, State.rf_setInt_plain _ _ _ hg.1, State.rf_inc_sema hg _ _ _ (by decide)]
  unfold State.semBreak
  dsimp only
  rw [State.rf_semNext_lasting hg, State.rf_logEv_plain _ _ _ _ _ hg.1, hpages, State.rf_setInt_plain _ _ _ hg.1,
    State.rf_wf_sema hg _ _ _ (by decide), State.rf_wf_sema hg _ _ _ (by decide), State.rf_wf_sema hg _ _ _ (by decide),
    State.rf_wf_sema hg _ _ _ (by decide), State.rf_wf_sema hg _ _ _ (by decide), hwhen, State.rf_inc_sema hg _ _ _ (by decide),
    State.rf_semFree_lasting hg]

theorem State.rf_semBreakAll_lasting (s : State) (h src cause : Nat) : (s.semBreakAll h src cause).rf g j l = s.rf g j l := by
  refine State.each_eq (fun t => t.rf g j l) (fun i _ t => ?_) s
  split
  · exact State.rf_semBreak_lasting hg j l t i cause
  · rfl

theorem State.rf_ringStall_lasting (s : State) (r : Nat) : (s.ringStall r).rf g j l = s.rf g j l := by
  unfold State.ringStall
  dsimp only
  rw [State.rf_capture_body _ _ _ _ _ _ _ hg.1.1, State.rf_setInt_plain _ _ _ hg.1,
    State.rf_wf_of_code _ (Field.code_ne_of_area (by rw [show R.RING_STALLED.area = 0x3A from by decide]; exact hg.2.2.1))]

theorem State.rf_withdraw_lasting (s : State) (q n : Nat) : (s.withdraw q n).rf g j l = s.rf g j l := by
  unfold State.withdraw
  exact State.each_eq (fun t => t.rf g j l) (fun i _ t => State.rf_semCount_lasting hg j l t i) _

/-- R336: what a queue pair's leaving keeps. -/
theorem State.rf_qpLeave_lasting (s : State) (q : Nat) (die : Bool) : (s.qpLeave q die).rf g j l = s.rf g j l := by
  have hrings (u : State) : (u.each (Tbl.keys u.rings) fun t r => if t.rb R.RING_BOUND r && t.rf R.RING_QP r = q then t.ringStall r else t).rf g j l =
      u.rf g j l := by
    refine State.each_eq (fun t => t.rf g j l) (fun r _ t => ?_) u
    split
    · exact State.rf_ringStall_lasting hg j l t r
    · rfl
  have hsems : (if die then s else s.semBreakAll (s.holderCode q) q 2).rf g j l = s.rf g j l := by
    split
    · rfl
    · exact State.rf_semBreakAll_lasting hg j l _ _ _ _
  have hsent (u : State) (os : List OpenCmd) : (u.each os fun t o => t.setCmd q o.cmdId fun x => { x with sent := true }).rf g j l = u.rf g j l := by
    refine State.each_eq (fun t => t.rf g j l) (fun o _ t => ?_) u
    rfl
  have hback (u : State) (os : List OpenCmd) : (u.each os fun t o => t.withdraw q o.cmdId).rf g j l = u.rf g j l :=
    State.each_eq (fun t => t.rf g j l) (fun o _ t => State.rf_withdraw_lasting hg j l t q o.cmdId) u
  unfold State.qpLeave
  refine (hsent _ _).trans ((hback _ _).trans ?_)
  refine (State.rf_wf_of_code _ hg.ne _ _ _ _ _).trans ?_
  exact (hrings _).trans hsems

theorem State.rf_countQps_lasting (s : State) (p : Nat) : (s.countQps p).rf g j l = s.rf g j l := s.rf_wf_of_code hg.ne _ _ _ _ _

/-- R336: a queue pair's error changes such a field only where it is QP.STATE. -/
theorem State.rf_qpError_lasting (hne : g.code ≠ R.QP_STATE.code) (s : State) (q cause : Nat) : (s.qpError q cause).rf g j l = s.rf g j l := by
  unfold State.qpError
  split
  · rfl
  · dsimp only
    rw [State.rf_countQps_lasting hg]
    cases s.connected q with
    | false => rw [State.when_false, State.rf_wf_of_code _ hne, State.rf_blockErr_plain _ _ _ _ _ _ hg.1]
    | true => rw [State.when_true, State.rf_qpLeave_lasting hg, State.rf_wf_of_code _ hne, State.rf_blockErr_plain _ _ _ _ _ _ hg.1]

end

theorem lasting_qpState : R.QP_STATE.lasting := by decide

/-- R336: a queue pair that is not FREE is in ERROR after an error. -/
theorem State.qpState_qpError {s : State} {q : Nat} (h : s.rf R.QP_STATE q ≠ 0) (cause : Nat) : (s.qpError q cause).rf R.QP_STATE q = 3 := by
  unfold State.qpError
  split
  · omega
  · dsimp only
    rw [State.rf_countQps_lasting lasting_qpState]
    cases s.connected q with
    | false => rw [State.when_false, State.rf_wf_same]; rfl
    | true => rw [State.when_true, State.rf_qpLeave_lasting lasting_qpState, State.rf_wf_same]; rfl

end Sys2Proof.Machine
end

section
/-! The life of a queue pair (R333 to R336; O36). -/

namespace Sys2Proof.Machine

/-! ### A queue pair's page at its Init values, R355 -/

theorem State.rf_clr_same (s : State) (f : Field) (i k : Nat) : (s.clr f i k).rf f i k = f.initVal i k % 2 ^ f.len := by
  simp [State.rf, State.clr, Tbl.getD, Tbl.get_del_same]

/-- R355: a field of the page is at its Init value. -/
theorem State.rf_qpIdle {s : State} {f : Field} (hf : f ∈ fieldsOf 0x29 0) (hother : ∀ y ∈ fieldsOf 0x29 0, y ≠ f → f.code ≠ y.code) (q : Nat) :
    (s.qpIdle q).rf f q = f.initVal q 0 % 2 ^ f.len := by
  unfold State.qpIdle
  generalize fieldsOf 0x29 0 = l at hf hother
  exact State.each_set (f := fun t y => t.clr y q) (fun t => t.rf f q) hf (fun t => t.rf_clr_same f q 0)
    (fun y hy hne t => t.rf_clr_of_code (hother y hy hne) _ _ _ _) s

theorem State.qpState_qpIdle (s : State) (q : Nat) : (s.qpIdle q).rf R.QP_STATE q = 0 :=
  State.rf_qpIdle (by decide) (by decide) q

theorem State.remoteQpn_qpIdle (s : State) (q : Nat) : (s.qpIdle q).rf R.QP_REMOTE_QPN q = 0 :=
  State.rf_qpIdle (by decide) (by decide) q

theorem State.qp_qpIdle (s : State) (q : Nat) : (s.qpIdle q).qp q = {} := by
  unfold State.qpIdle State.qp
  dsimp only
  rw [Tbl.getD, Tbl.get_del_same]
  rfl

theorem State.out_qpIdle (s : State) (q : Nat) : (s.qpIdle q).out = s.out :=
  (State.qpIdle_frame (M := 0x200000000000020000000000) (Sub.refl _) (s.frame_refl _)).out (by decide)

/-! ### Messages of the connection -/

theorem State.out_sendCm (s : State) (p : Nat) (k : CmKind) (q : Nat) (bytes : List Nat) : (s.sendCm p k q bytes).out = .cm p k q bytes :: s.out :=
  State.inc_out _ _ _ _ _

theorem State.rf_sendCm (s : State) (p : Nat) (k : CmKind) (q : Nat) (bytes : List Nat) {g : Field} (hg : g.code ≠ R.HOST_FRAMES_TX.code) (j l : Nat) :
    (s.sendCm p k q bytes).rf g j l = s.rf g j l := State.rf_inc_of_code _ hg _ _ _ _ _

theorem State.qp_sendCm (s : State) (p : Nat) (k : CmKind) (q : Nat) (bytes : List Nat) (n : Nat) : (s.sendCm p k q bytes).qp n = s.qp n := by
  unfold State.sendCm State.qp
  rw [State.inc_qps]
  rfl

/-! ### The commands -/

/-- R333: the registers that a REQ gives a queue pair. -/
def State.reqTaken (s : State) (p q psn : Nat) (r : CmReq) : State :=
  let s1 := ((((s.wf R.QP_STATE q 1).wf R.QP_PORT q p).wf R.QP_REMOTE_QPN q r.qpn).wf R.QP_REMOTE_IP_HI q r.ipHi).wf R.QP_REMOTE_IP_LO q r.ipLo
  let s2 := ((((s1.wf R.QP_NEXT_HOP_MAC q r.mac).wf R.QP_PMTU q r.pmtu).wf R.QP_RETRY_CNT q r.retryCnt).wf R.QP_RNR_RETRY q r.rnrRetry).wf
    R.QP_ACK_TIMEOUT q r.ackTimeout
  (s2.wf R.QP_SQ_PSN q psn).wf R.QP_RQ_PSN q r.psn

theorem State.rf_reqTaken (s : State) {p : Nat} (hp : p < 2) (q psn : Nat) (r : CmReq) :
    (s.reqTaken p q psn r).rf R.QP_STATE q = 1 ∧ (s.reqTaken p q psn r).rf R.QP_PORT q = p ∧
    (s.reqTaken p q psn r).rf R.QP_REMOTE_QPN q = r.qpn % 2 ^ 24 ∧ (s.reqTaken p q psn r).rf R.QP_PMTU q = r.pmtu % 8 ∧
    (s.reqTaken p q psn r).rf R.QP_RQ_PSN q = r.psn % 2 ^ 24 := by
  unfold State.reqTaken
  dsimp only
  simp (disch := decide) only [State.rf_wf_of_code, State.rf_wf_same]
  exact ⟨rfl, Nat.mod_eq_of_lt hp, rfl, rfl, rfl⟩

theorem State.out_reqTaken (s : State) (p q psn : Nat) (r : CmReq) : (s.reqTaken p q psn r).out = s.out := by
  unfold State.reqTaken
  simp only [State.wf_out]

theorem State.cmReq_of {s : State} {p q : Nat} {r : CmReq} (hup : s.rb R.HOST_LINK_UP p = true) (hacc : s.accepts = true) (hok : cmReqOk r = true)
    (hq : ((List.range 1024).find? fun n => s.rf R.QP_STATE n = 0) = some q) :
    ∃ psn bytes, s.cmReq p r = (((s.draw 24).2.reqTaken p q psn r).setQp q { maxReads := min 16 r.resources }).sendCm p .rep q bytes := by
  unfold State.cmReq
  rw [hup, hacc, hok, if_neg (by decide), if_neg (by decide), hq]
  exact ⟨(s.draw 24).1, _, rfl⟩

theorem cmReq_completes {p q : Nat} {r : CmReq} {s : State} (hp : p < 2) (hup : s.rb R.HOST_LINK_UP p = true) (hacc : s.accepts = true)
    (hok : cmReqOk r = true) (hq : ((List.range 1024).find? fun n => s.rf R.QP_STATE n = 0) = some q) :
    Completes (.cmReq p r) s fun t =>
      t.rf R.QP_STATE q = 1 ∧ t.rf R.QP_PORT q = p ∧ t.rf R.QP_REMOTE_QPN q = r.qpn % 2 ^ 24 ∧ t.rf R.QP_PMTU q = r.pmtu % 8 ∧
      t.rf R.QP_RQ_PSN q = r.psn % 2 ^ 24 ∧ (t.qp q).maxReads = min 16 r.resources ∧ ∃ bytes, t.out = .cm p .rep q bytes :: s.out := by
  have hset (u : State) (x : QpSt) (g : Field) : (u.setQp q x).rf g q = u.rf g q := rfl
  have hsetOut (u : State) (x : QpSt) : (u.setQp q x).out = u.out := rfl
  have hdraw : (s.draw 24).2.out = s.out := rfl
  obtain ⟨psn, bytes, h⟩ := State.cmReq_of hup hacc hok hq
  obtain ⟨hst, hport, hqpn, hpmtu, hpsn⟩ := (s.draw 24).2.rf_reqTaken hp q psn r
  refine completes_of_next rfl ?_
  rw [Nat.mod_eq_of_lt hp, h]
  refine ⟨?_, ?_, ?_, ?_, ?_, ?_, bytes, ?_⟩
  · rw [State.rf_sendCm _ _ _ _ _ (by decide), hset, hst]
  · rw [State.rf_sendCm _ _ _ _ _ (by decide), hset, hport]
  · rw [State.rf_sendCm _ _ _ _ _ (by decide), hset, hqpn]
  · rw [State.rf_sendCm _ _ _ _ _ (by decide), hset, hpmtu]
  · rw [State.rf_sendCm _ _ _ _ _ (by decide), hset, hpsn]
  · rw [State.qp_sendCm, State.qp_setQp]
  · rw [State.out_sendCm, hsetOut, State.out_reqTaken, hdraw]

theorem State.lineRate_lt (s : State) (q : Nat) : s.lineRate q < 2 ^ 20 := by
  unfold State.lineRate
  dsimp only
  split
  · decide
  · split <;> decide

theorem cmRtu_completes {q : Nat} {s : State} (h : s.rf R.QP_STATE q = 1) :
    Completes (.cmRtu q) s fun t =>
      t.rf R.QP_STATE q = 2 ∧ t.rf R.QP_CONNECT_STAMP q = s.now % 2 ^ 64 ∧ t.rf R.QP_RATE_MBPS q = s.lineRate q ∧ (t.qp q).target = s.lineRate q := by
  have hline : ((s.wf R.QP_STATE q 2).wf R.QP_CONNECT_STAMP q s.now).lineRate q = s.lineRate q := by
    unfold State.lineRate
    simp (disch := decide) only [State.rf_wf_of_code]
  have hset (u : State) (x : QpSt) (g : Field) : (u.setQp q x).rf g q = u.rf g q := rfl
  have hqp (u : State) (p : Nat) : (u.countQps p).qp q = u.qp q := rfl
  refine completes_of_next rfl ?_
  unfold State.cmRtu
  rw [if_pos h]
  dsimp only
  rw [hline]
  simp (disch := decide) only [State.rf_countQps_lasting, hset, hqp, State.qp_setQp, State.rf_wf_same, State.rf_wf_of_code]
  exact ⟨rfl, rfl, Nat.mod_eq_of_lt ((s.lineRate_lt q).trans_le (by decide)), trivial⟩

theorem cmDreq_completes {q : Nat} {s : State} (h : s.rf R.QP_STATE q ≠ 0) :
    Completes (.cmDreq q) s fun t => t.rf R.QP_STATE q = 0 ∧ t.out.head? = some (.cm (s.rf R.QP_PORT q) .drep q []) := by
  refine completes_of_next rfl ?_
  unfold State.cmDreq
  rw [if_neg h]
  dsimp only
  rw [State.rf_countQps_lasting lasting_qpState, State.qpState_qpIdle]
  refine ⟨rfl, ?_⟩
  have hout (u : State) (p : Nat) : (u.countQps p).out = u.out := rfl
  rw [hout, State.out_qpIdle, State.out_sendCm]
  rfl

theorem qpClose_completes {m : Master} {q : Nat} {s : State} (h : s.Writes m (qpPage q) 0x150 1) (hfree : s.rf R.QP_STATE q ≠ 0)
    (hclosing : s.rf R.QP_STATE q ≠ 4) :
    Completes (.qpClose m q) s fun t => t.rf R.QP_STATE q = 4 ∧ t.out.head? = some (.cm (s.rf R.QP_PORT q) .dreq q []) := by
  have hw := h.store_within (u := s.qpClose q) (by decide) rfl
  refine completes_of_next rfl ?_
  rw [hw.rf (by decide), hw.out (by decide)]
  unfold State.qpClose
  rw [if_neg (by omega)]
  dsimp only
  have hout (u : State) (p : Nat) : (u.countQps p).out = u.out := rfl
  rw [State.rf_countQps_lasting lasting_qpState, State.rf_sendCm _ _ _ _ _ (by decide), State.rf_wf_same, hout, State.out_sendCm]
  exact ⟨rfl, rfl⟩

/-- Settles O36. -/
theorem connectionsComplete : Obligations.ConnectionsComplete := by
  unfold Obligations.ConnectionsComplete
  refine ⟨fun _ _ _ _ => cmReq_completes, fun _ _ => cmRtu_completes, ?rej, fun _ _ => cmDreq_completes, ?drep, fun _ _ _ => qpClose_completes,
    fun _ cause _ hfree _ => completes_of_next rfl (State.qpState_qpError hfree cause)⟩
  case rej =>
    intro q s h
    refine completes_of_next rfl ?_
    rw [State.cmRej, if_pos h]
    exact ⟨s.qpState_qpIdle q, s.remoteQpn_qpIdle q, s.qp_qpIdle q⟩
  case drep =>
    intro q s h
    refine completes_of_next rfl ?_
    rw [State.cmDrep, if_pos h]
    exact ⟨s.qpState_qpIdle q, s.remoteQpn_qpIdle q, s.qp_qpIdle q⟩

end Sys2Proof.Machine
end

section
/-! A host port's frames, link and addresses, and reliable delivery (R323 to R332, R339, R341; O33, O37). -/

namespace Sys2Proof.Machine

theorem inst_hostPage (p n : Nat) : (hostPage p n).inst = p := rfl

/-! ### Frames received, R323 -/

/-- R323: what the checks of a frame read. -/
theorem State.frameOk_of_rf {s t : State} {p : Nat} (hmtu : t.rf R.HOST_MTU p = s.rf R.HOST_MTU p) (hvlan : t.rf R.HOST1_VLAN_ID p = s.rf R.HOST1_VLAN_ID p)
    (f : EthFrame) : t.frameOk p f = s.frameOk p f := by
  unfold State.frameOk
  rw [hmtu, hvlan]

/-- R323: the state a frame taken leaves before its checks. -/
def State.hostFrameTaken (s : State) (p : Nat) (f : EthFrame) : State :=
  (((s.inc R.HOST_FEC_CORRECTED p f.corrected).inc R.HOST_FEC_UNCORRECTED p f.uncorrected).when (decide (0 < f.uncorrected)) fun t =>
    t.setInt (hostPage p) R.INT_HOST_FEC_UNCORRECTED).inc R.HOST_FRAMES_RX p

theorem State.rf_hostFrameTaken_of_code (s : State) (p : Nat) (f : EthFrame) {g : Field} (hg : g.plain)
    (hne : g.code ≠ R.HOST_FEC_CORRECTED.code ∧ g.code ≠ R.HOST_FEC_UNCORRECTED.code) (j l : Nat) :
    (((s.inc R.HOST_FEC_CORRECTED p f.corrected).inc R.HOST_FEC_UNCORRECTED p f.uncorrected).when (decide (0 < f.uncorrected)) fun t =>
      t.setInt (hostPage p) R.INT_HOST_FEC_UNCORRECTED).rf g j l = s.rf g j l := by
  cases decide (0 < f.uncorrected) with
  | false => rw [State.when_false, State.rf_inc_of_code _ hne.2, State.rf_inc_of_code _ hne.1]
  | true => rw [State.when_true, State.rf_setInt_plain _ _ _ hg, State.rf_inc_of_code _ hne.2, State.rf_inc_of_code _ hne.1]

theorem State.rf_hostFrameTaken (s : State) (p : Nat) (f : EthFrame) :
    (s.hostFrameTaken p f).rf R.HOST_FRAMES_RX p = (s.rf R.HOST_FRAMES_RX p + 1) % 2 ^ 64 ∧
    (s.hostFrameTaken p f).rf R.HOST_RX_DROPS p = s.rf R.HOST_RX_DROPS p ∧ (s.hostFrameTaken p f).frameOk p f = s.frameOk p f := by
  unfold State.hostFrameTaken
  refine ⟨?_, ?_, State.frameOk_of_rf ?_ ?_ f⟩
  · rw [State.rf_inc_wrap _ _ (by decide), State.rf_hostFrameTaken_of_code _ _ _ (by decide) (by decide)]
    rfl
  all_goals rw [State.rf_inc_of_code _ (by decide), State.rf_hostFrameTaken_of_code _ _ _ (by decide) (by decide)]

/-- R328: a packet marked CE changes none of the counts of frames received or dropped. -/
theorem State.rf_markCe (s : State) (p q : Nat) {g : Field} (hg : g.code = R.HOST_FRAMES_RX.code ∨ g.code = R.HOST_RX_DROPS.code) (j l : Nat) :
    (s.markCe p q).rf g j l = s.rf g j l := by
  have hset (u : State) (x : QpSt) : (u.setQp q x).rf g j l = u.rf g j l := rfl
  have hsend (u : State) (k : EthKind) (ws : List Nat) : (u.sendEth p k ws).rf g j l = u.rf g j l :=
    (u.emit (.eth p k ws)).rf_inc_of_code (f := R.HOST_FRAMES_TX) (by rcases hg with h | h <;> rw [h] <;> decide) _ _ _ _ _
  have hce : (s.inc R.HOST1_ECN_CE_RX p).rf g j l = s.rf g j l := s.rf_inc_of_code (by rcases hg with h | h <;> rw [h] <;> decide) _ _ _ _ _
  unfold State.markCe
  dsimp only
  split
  · exact hce
  · split
    · exact hce
    · rw [hsend, State.rf_inc_of_code _ (by rcases hg with h | h <;> rw [h] <;> decide), hset, hce]

theorem frameReceive_completes {p : Nat} {f : EthFrame} {s : State} (hp : p < 2) (hup : s.rb R.HOST_LINK_UP p = true) :
    Completes (.frameReceive p f) s fun t =>
      t.rf R.HOST_FRAMES_RX p = (s.rf R.HOST_FRAMES_RX p + 1) % 2 ^ 64 ∧
      t.rf R.HOST_RX_DROPS p = if s.frameOk p f then s.rf R.HOST_RX_DROPS p else min (2 ^ 32 - 1) (s.rf R.HOST_RX_DROPS p + 1) := by
  obtain ⟨hrx, hdrops, hok⟩ := s.rf_hostFrameTaken p f
  refine completes_of_next rfl ?_
  rw [Nat.mod_eq_of_lt hp]
  unfold State.frameReceive
  rw [hup, if_neg (by decide)]
  change (State.rf (if !(s.hostFrameTaken p f).frameOk p f then (s.hostFrameTaken p f).inc R.HOST_RX_DROPS p
    else (s.hostFrameTaken p f).when _ fun t => t.markCe p f.qp) _ _ _ = _) ∧
    State.rf (if !(s.hostFrameTaken p f).frameOk p f then (s.hostFrameTaken p f).inc R.HOST_RX_DROPS p
    else (s.hostFrameTaken p f).when _ fun t => t.markCe p f.qp) _ _ _ = _
  rw [hok]
  generalize (f.ce && (decide (f.net = 1) || decide (f.net = 2)) && decide (f.udpPort = 4791)) = ce
  cases s.frameOk p f with
  | false =>
    rw [Bool.not_false, if_pos rfl, if_neg (by decide), State.rf_inc_of_code _ (by decide), State.rf_inc_sat _ _ (by decide), hrx, hdrops]
    exact ⟨rfl, rfl⟩
  | true =>
    rw [Bool.not_true, if_neg (by decide), if_pos rfl]
    cases ce with
    | false => exact ⟨hrx, hdrops⟩
    | true => exact ⟨(State.rf_markCe _ _ _ (.inl rfl) _ _).trans hrx, (State.rf_markCe _ _ _ (.inr rfl) _ _).trans hdrops⟩

/-! ### The link of a port, R324, R325, R330 -/

/-- R330: advertising its addresses leaves the port's state and every register but the count of frames sent. -/
theorem State.rf_advertise (s : State) (p : Nat) {g : Field} (hg : g.code ≠ R.HOST_FRAMES_TX.code) (j l : Nat) : (s.advertise p).rf g j l = s.rf g j l :=
  State.each_eq (fun t => t.rf g j l) (fun _ _ t => State.rf_inc_of_code (t.emit _) hg _ _ _ _ _) s

theorem State.port_advertise (s : State) (p n : Nat) : (s.advertise p).port n = s.port n :=
  State.each_eq (fun t => t.port n) (fun _ _ t => t.port_sendEth _ _ _ _) s

theorem State.port_setInt (s : State) (p : Page) (b n : Nat) : (s.setInt p b).port n = s.port n :=
  State.port_of_ports (State.setInt_frame (M := 2 ^ 80 - 1 + 0x1800000000000000000000) (by decide) (by
    rw [show 2 ^ 80 - 1 + 0x1800000000000000000000 = (2 ^ 80 - 1) ||| 0x1800000000000000000000 from by decide, Nat.testBit_or, Nat.testBit_two_pow_sub_one]
    simp [show p.area < 80 from by unfold Page.area; omega]) (s.frame_refl _) |>.ports (by decide)) n

theorem linkUp_completes {p : Nat} {s : State} (hp : p < 2) (hen : s.rb R.HOST_PORT_EN p = true) (hdown : s.rb R.HOST_LINK_UP p = false) :
    Completes (.linkUp p) s fun t =>
      t.rf R.HOST_LINK_UP p = 1 ∧ t.rf R.HOST_SPEED_ACTIVE p = (s.port p).speed % 4 ∧ t.rf R.HOST_FEC_LOCKED p = 1 ∧
      t.port p = { s.port p with downSince := none, lldpDue := s.elapsed } := by
  have hset (u : State) (x : PortSt) (g : Field) : (u.setPort p x).rf g p = u.rf g p := rfl
  refine completes_of_next rfl ?_
  rw [Nat.mod_eq_of_lt hp]
  unfold State.linkComesUp
  rw [hen, hdown, if_neg (by decide)]
  dsimp only
  simp (disch := decide) only [State.rf_advertise, State.rf_setInt_plain, hset, State.rf_wf_same, State.rf_wf_of_code, State.port_advertise,
    State.port_setInt, State.port_setPort]
  exact ⟨rfl, rfl, rfl, trivial⟩

theorem linkLoss_completes {p : Nat} {s : State} (hp : p < 2) (hup : s.rb R.HOST_LINK_UP p = true) :
    Completes (.linkLoss p) s fun t =>
      t.rf R.HOST_LINK_UP p = 0 ∧ t.rf R.HOST_FEC_LOCKED p = 0 ∧
      t.port p = { s.port p with downSince := some s.elapsed, txPaused := [], paused := false } := by
  have hset (u : State) (x : PortSt) (g : Field) : (u.setPort p x).rf g p = u.rf g p := rfl
  refine completes_of_next rfl ?_
  rw [Nat.mod_eq_of_lt hp]
  unfold State.linkGoesDown
  rw [hup, if_neg (by decide)]
  dsimp only
  simp (disch := decide) only [State.rf_setInt_plain, hset, State.rf_wf_same, State.rf_wf_of_code, State.port_setInt, State.port_setPort]
  exact ⟨rfl, rfl, trivial⟩

/-- R324: the only queue pair of a port fails with it. -/
theorem State.portError_one {s : State} {p q : Nat} (h : s.portQps p = [q]) (cause : Nat) : s.portError p cause = s.qpError q cause := by
  unfold State.portError
  rw [h]
  rfl

theorem State.port_qpError (s : State) (q cause n : Nat) : (s.qpError q cause).port n = s.port n :=
  State.port_of_ports ((State.qpError_frame (Sub.refl _) (s.frame_refl _) : s.Within 0x8800000000b67800000400030000000006 _).ports (by decide)) n

theorem linkDownTimeout_completes {p q t0 : Nat} {s : State} (hp : p < 2) (hup : s.rb R.HOST_LINK_UP p = false)
    (hdown : (s.port p).downSince = some t0) (hlong : t0 + 10000000 < s.elapsed) (hq : s.portQps p = [q]) (hst : s.rf R.QP_STATE q ≠ 0) :
    Completes (.linkDownTimeout p) s fun t => t.rf R.QP_STATE q = 3 ∧ (t.port p).downSince = none := by
  refine completes_of_next rfl ?_
  rw [Nat.mod_eq_of_lt hp]
  unfold State.linkTimeout
  rw [hdown]
  dsimp only
  rw [if_pos ⟨by rw [hup]; rfl, hlong⟩]
  have hone (x : PortSt) : (s.setPort p x).portQps p = [q] := hq
  have hset (x : PortSt) : (s.setPort p x).rf R.QP_STATE q = s.rf R.QP_STATE q := rfl
  rw [State.portError_one (hone _), State.port_qpError, State.port_setPort]
  exact ⟨State.qpState_qpError (by rw [hset]; exact hst) _, rfl⟩

theorem State.writePort_rises {s : State} {m : Master} {p : Page} {w : Nat} (hoff : s.rb R.HOST_PORT_EN p.inst = false)
    (hon : (s.storeWord m p 0x108 w).rb R.HOST_PORT_EN p.inst = true) :
    s.writePort m p w = (s.storeWord m p 0x108 w).setPort p.inst
      { (s.storeWord m p 0x108 w).port p.inst with speed := (s.storeWord m p 0x108 w).rf R.HOST_SPEED p.inst } := by
  unfold State.writePort
  dsimp only
  rw [hoff, hon]
  rfl

theorem State.ports_storeWord (s : State) (m : Master) (p : Page) (off w : Nat) : (s.storeWord m p off w).ports = s.ports :=
  (State.storeWord_frame (Sub.refl _) (s.frame_refl _) : s.Within 0xffffffffffffffffffff _).ports (by decide)

theorem State.qps_storeWord (s : State) (m : Master) (p : Page) (off w : Nat) : (s.storeWord m p off w).qps = s.qps :=
  (State.storeWord_frame (Sub.refl _) (s.frame_refl _) : s.Within 0xffffffffffffffffffff _).qps (by decide)

theorem wordFields_portCtl (p : Nat) : wordFields (hostPage p) 0x108 =
    [(R.HOST_PORT_EN, 0), (R.HOST_SPEED, 0), (R.HOST_MTU, 0), (R.HOST_PFC_TX_EN, 0), (R.HOST_PFC_RX_MASK, 0)] := rfl

theorem State.rf_storePortCtl (s : State) (m : Master) (p w : Nat) :
    (s.storeWord m (hostPage p) 0x108 w).rf R.HOST_PORT_EN p = bitsOf w 0 1 ∧ (s.storeWord m (hostPage p) 0x108 w).rf R.HOST_SPEED p = bitsOf w 1 2 := by
  refine ⟨State.rf_storeWord_rw (p := hostPage p) (off := 0x108) (fk := (R.HOST_PORT_EN, 0)) w ?_ rfl rfl ?_ s,
    State.rf_storeWord_rw (p := hostPage p) (off := 0x108) (fk := (R.HOST_SPEED, 0)) w ?_ rfl rfl ?_ s⟩
  all_goals rw [wordFields_portCtl]; decide

theorem portEnable_completes {m : Master} {p w : Nat} {s : State} (h : s.Writes m (hostPage p) 0x108 w) (hoff : s.rb R.HOST_PORT_EN p = false)
    (hw0 : w.testBit 0 = true) :
    Completes (.portEnable m p w) s fun t =>
      t.rf R.HOST_PORT_EN p = 1 ∧ t.rf R.HOST_SPEED p = bitsOf w 1 2 ∧ t.port p = { s.port p with speed := bitsOf w 1 2 } := by
  obtain ⟨hen, hspeed⟩ := s.rf_storePortCtl m p w
  have hone : bitsOf w 0 1 = 1 := by
    rw [Nat.testBit_zero] at hw0
    simpa [bitsOf] using hw0
  have hset (u : State) (x : PortSt) (g : Field) : (u.setPort p x).rf g p = u.rf g p := rfl
  have hw := h.store_within (u := s.writePort m (hostPage p) w) (by decide) rfl
  refine completes_of_next rfl ?_
  rw [hw.rf (by decide), hw.rf (by decide), State.port_of_ports (hw.ports (by decide)),
    State.writePort_rises (p := hostPage p) hoff (by rw [inst_hostPage, State.rb, hen, hone]; rfl), inst_hostPage, State.port_setPort, hset, hset, hen, hspeed, hone,
    State.port_of_ports (s.ports_storeWord _ _ _ _)]
  exact ⟨rfl, rfl, rfl⟩

/-! ### Addresses, R329 -/

theorem wordFields_ipv6Hi (p : Nat) : wordFields (hostPage p 1) 0x108 = [(R.HOST1_IPV6_HI, 0)] := rfl

theorem addressWrite_completes {m : Master} {p w q : Nat} {s : State} (h : s.Writes m (hostPage p 1) 0x108 w) (hq : s.portQps p = [q])
    (hst : s.rf R.QP_STATE q ≠ 0) :
    Completes (.addressWrite m p 1 w) s fun t => t.rf R.HOST1_IPV6_HI p = w ∧ t.rf R.QP_STATE q = 3 := by
  have hkept {g : Field} (hg : g.code ≠ R.HOST1_IPV6_HI.code) (j : Nat) : (s.storeWord m (hostPage p 1) 0x108 w).rf g j = s.rf g j :=
    State.rf_storeWord_of_code (by
      rw [wordFields_ipv6Hi]
      intro fk hfk
      rw [List.mem_singleton.1 hfk]
      exact hg) _ _
  have hqps : (s.storeWord m (hostPage p 1) 0x108 w).portQps p = [q] := by
    rw [← hq]
    unfold State.portQps
    rw [State.qps_storeWord]
    exact List.filter_congr fun n _ => by rw [hkept (by decide)]
  have hlt : w < 2 ^ 64 := h.2.1
  have hw := h.store_within (u := (s.storeWord m (hostPage p 1) 0x108 w).portError p 0x16) (by decide) rfl
  refine completes_of_next rfl ?_
  rw [show 0x100 + 8 * (1 % 5) = 0x108 from rfl, hw.rf (by decide), hw.rf (by decide), State.portError_one hqps,
    State.rf_qpError_lasting (by decide) _ _ (by decide)]
  refine ⟨(State.rf_storeWord_rw (p := hostPage p 1) (off := 0x108) (fk := (R.HOST1_IPV6_HI, 0)) w ?_ rfl rfl ?_ s).trans ?_,
    State.qpState_qpError (by rw [hkept (by decide)]; exact hst) _⟩
  · rw [wordFields_ipv6Hi]; decide
  · rw [wordFields_ipv6Hi]; decide
  · change bitsOf w 0 64 = w
    rw [bitsOf, Nat.shiftRight_zero, Nat.mod_eq_of_lt hlt]

/-- Settles O33. -/
theorem hostPortsComplete : Obligations.HostPortsComplete :=
  ⟨fun _ _ _ => frameReceive_completes, fun _ _ => linkUp_completes, fun _ _ => linkLoss_completes, fun _ _ _ _ => linkDownTimeout_completes,
    fun _ _ _ _ => portEnable_completes, fun _ _ _ _ _ => addressWrite_completes⟩

end Sys2Proof.Machine
end

section
/-! Reliable delivery, timeouts of commands and unknown opcodes (R331, R332, R339, R341; O37). -/

namespace Sys2Proof.Machine

/-! ### What is sent on a queue pair -/

theorem State.out_framesOut (s : State) (q n : Nat) : (s.framesOut q n).out = s.out := State.inc_out _ _ _ _ _

theorem State.qp_framesOut (s : State) (q n k : Nat) : (s.framesOut q n).qp k = s.qp k := by
  unfold State.framesOut State.qp
  rw [State.inc_qps]

theorem State.qp_inc (s : State) (f : Field) (i n k q : Nat) : (s.inc f i n k).qp q = s.qp q := by
  unfold State.qp
  rw [State.inc_qps]

/-- R335: a completion on a CONNECTED queue pair goes out. -/
theorem State.out_sendCompletion {s : State} {q : Nat} (hc : s.connected q = true) (n op r a : Nat) (body : List Nat) :
    (s.sendCompletion q n op r a body).out = .completion q n op r a s.now body :: s.out := by
  have htx (u : State) (k : Nat) : (u.txQp q k).out = u.out := rfl
  unfold State.sendCompletion
  rw [if_pos hc, State.wf_out, State.inc_out]
  unfold State.sendQp
  rw [htx, State.out_framesOut, State.out_emit]

/-! ### The retries of a queue pair, R331 -/

theorem rcRetryTimeout_completes {q psn n : Nat} {rest : List (Nat × Nat)} {s : State} (hc : s.connected q = true)
    (hun : (s.qp q).unacked = (psn, n) :: rest) (hfew : (s.qp q).retries < s.rf R.QP_RETRY_CNT q) :
    Completes (.rcRetryTimeout q) s fun t =>
      t.qp q = { s.qp q with retries := (s.qp q).retries + 1 } ∧ t.out = .retransmit q psn (((s.qp q).unacked.map (·.2)).sum) :: s.out := by
  have hemit (u : State) (o : Out) : (u.emit o).qp q = u.qp q := rfl
  refine completes_of_next rfl ?_
  unfold State.rcTimeout
  dsimp only
  rw [if_neg (by simp [hc, hun]), if_neg (by omega)]
  unfold State.retransmit
  rw [State.qp_setQp, hun]
  dsimp only
  rw [State.qp_inc, State.qp_framesOut, hemit, State.qp_setQp, State.inc_out, State.out_framesOut, State.out_emit]
  exact ⟨rfl, rfl⟩

/-- A connected queue pair fails. -/
theorem State.qpState_of_connected {s : State} {q : Nat} (hc : s.connected q = true) : s.rf R.QP_STATE q ≠ 0 := by
  have : s.rf R.QP_STATE q = 2 := by simpa [State.connected] using hc
  omega

theorem inboundRdma_completes {q : Nat} {s : State} (hc : s.connected q = true) :
    Completes (.inboundRdma q) s fun t =>
      t.rf R.QP_STATE q = 3 ∧
      t.rf R.HOST1_INBOUND_RDMA_REJECTS (s.rf R.QP_PORT q) = min (2 ^ 32 - 1) (s.rf R.HOST1_INBOUND_RDMA_REJECTS (s.rf R.QP_PORT q) + 1) := by
  have hsend (u : State) (o : Out) {g : Field} (hg : g.code ≠ R.HOST_FRAMES_TX.code) (j : Nat) : ((u.emit o).framesOut q 1).rf g j = u.rf g j :=
    State.rf_inc_of_code (u.emit o) hg _ _ _ _ _
  refine completes_of_next rfl ?_
  unfold State.inboundRdma
  rw [hc, if_neg (by decide)]
  dsimp only
  refine ⟨State.qpState_qpError ?_ _, ?_⟩
  · rw [State.rf_setInt_plain _ _ _ (by decide), State.rf_inc_of_code _ (by decide), hsend _ _ (by decide)]
    exact State.qpState_of_connected hc
  · rw [State.rf_qpError_lasting (by decide) _ _ (by decide), State.rf_setInt_plain _ _ _ (by decide), State.rf_inc_sat _ _ (by decide),
      hsend _ _ (by decide)]
    rfl

/-! ### Timeouts, R341 -/

theorem commandTimeout_completes {q id : Nat} {o : OpenCmd} {s : State} (hc : s.connected q = true) (ho : s.openCmd q id = some o)
    (hsent : o.sent = false) (heff : o.effect = true) (hdue : o.due < s.elapsed) :
    Completes (.commandTimeout q id) s fun t => t.out = .completion q id o.opcode resTimedOut o.arrival s.now o.body :: s.out := by
  refine completes_of_next rfl ?_
  unfold State.commandTimeout
  rw [ho]
  dsimp only
  rw [if_neg (by simp [hsent, hdue]), heff, if_pos rfl]
  have hconn (f : OpenCmd → OpenCmd) (g : CmdRec → CmdRec) : ((s.setCmd q id f).setRec q id g).connected q = true := hc
  rw [State.out_sendCompletion (hconn _ _)]
  rfl

/-! ### Unknown opcodes, R339 -/

/-- R331, R339: the state a SEND with an unknown opcode leaves before its completion. -/
def State.unknownTaken (s : State) (op : Nat) (c : Cmd) : State :=
  ((((s.transportAck c.qp).inc R.QP_COMMANDS c.qp).dec R.QP_SLOTS_FREE c.qp).inc R.QP_RQ_PSN c.qp).putRec
    { qp := c.qp, cmdId := c.cmdId, opcode := op, result := resUnknownOpcode, final := true, body := [] }

theorem State.connected_unknownTaken (s : State) (op : Nat) (c : Cmd) : (s.unknownTaken op c).connected c.qp = s.connected c.qp := by
  have hput (u : State) (r : CmdRec) : (u.putRec r).rf R.QP_STATE c.qp = u.rf R.QP_STATE c.qp := rfl
  have hack : (s.transportAck c.qp).rf R.QP_STATE c.qp = s.rf R.QP_STATE c.qp := State.rf_inc_of_code (s.emit _) (by decide) _ _ _ _ _
  unfold State.unknownTaken State.connected
  rw [hput, State.rf_inc_of_code _ (by decide), State.rf_dec_of_code _ (by decide), State.rf_inc_of_code _ (by decide), hack]

/-- What the taking of such a SEND leaves: the transport's ACK, the time and the open commands. -/
theorem State.unknownTaken_is (s : State) (op : Nat) (c : Cmd) :
    (s.unknownTaken op c).out = .rcAck c.qp (s.rf R.QP_RQ_PSN c.qp) :: s.out ∧ (s.unknownTaken op c).now = s.now ∧
    (s.unknownTaken op c).cmds = s.cmds := by
  have hput (u : State) (r : CmdRec) : (u.putRec r).out = u.out ∧ (u.putRec r).now = u.now ∧ (u.putRec r).cmds = u.cmds := ⟨rfl, rfl, rfl⟩
  have hdec (u : State) (f : Field) : (u.dec f c.qp).out = u.out ∧ (u.dec f c.qp).now = u.now ∧ (u.dec f c.qp).cmds = u.cmds := ⟨rfl, rfl, rfl⟩
  unfold State.unknownTaken State.transportAck State.framesOut
  refine ⟨?_, ?_, ?_⟩
  · rw [(hput _ _).1, State.inc_out, (hdec _ _).1, State.inc_out, State.inc_out, State.out_emit]
  · rw [(hput _ _).2.1, State.inc_now, (hdec _ _).2.1, State.inc_now, State.inc_now]
    rfl
  · rw [(hput _ _).2.2, State.inc_cmds, (hdec _ _).2.2, State.inc_cmds, State.inc_cmds]
    rfl

/-- R339: a well-formed frame whose opcode is unknown. -/
theorem State.frameResult_unknown {s : State} {op : Nat} {c : Cmd} (hv : c.version = 1) (hk : c.kind = 1) (hr : c.reserved = 0) (hsc : c.scale ≠ 3)
    (hop : knownOpcodes.contains op = false) (lenOk : Bool) : s.frameResult op c lenOk = resUnknownOpcode := by
  unfold State.frameResult
  rw [if_neg (by simp [hv]), if_neg (by simp [hk, hr, hsc]), hop]
  rfl

theorem State.intake_unknown {s : State} {op : Nat} {c : Cmd} (h : s.Takes c) (hop : knownOpcodes.contains op = false) (i : Instr) (cls : Class)
    (lenOk : Bool) :
    s.intake i op c cls lenOk = .done ((s.unknownTaken op c).sendCompletion c.qp c.cmdId op resUnknownOpcode s.now []) := by
  obtain ⟨hc, hslots, hopen, -, hv, hk, hr, hsc, -, hpay, hwords, -⟩ := h
  have hcmds := (s.unknownTaken_is op c).2.2
  have hnone : ((((s.transportAck c.qp).inc R.QP_COMMANDS c.qp).dec R.QP_SLOTS_FREE c.qp).inc R.QP_RQ_PSN c.qp).openCmd c.qp c.cmdId = none := by
    rw [← hopen]
    exact congrArg (List.find? _) hcmds
  unfold State.intake
  rw [if_neg (by simp [hc]), if_neg (by omega), if_neg hslots]
  dsimp only
  rw [State.frameResult_unknown hv hk hr hsc hop, if_pos (by decide), if_neg (by rw [hnone]; decide)]
  rfl

theorem unknownOpcode_completes {op : Nat} {c : Cmd} {s : State} (h : s.Takes c) (hop : knownOpcodes.contains op = false) :
    Completes (.unknownOpcode op c) s fun t =>
      t.out = .completion c.qp c.cmdId op resUnknownOpcode s.now s.now [] :: .rcAck c.qp (s.rf R.QP_RQ_PSN c.qp) :: s.out ∧ t.cmds = s.cmds := by
  obtain ⟨hout, hnow, hcmds⟩ := s.unknownTaken_is op c
  have hconn : (s.unknownTaken op c).connected c.qp = true := (s.connected_unknownTaken op c).trans h.1
  have hsend : (s.unknownTaken op c).Within (touch [0x28, 0x29] [.qps, .out]) ((s.unknownTaken op c).sendCompletion c.qp c.cmdId op resUnknownOpcode s.now []) :=
    State.sendCompletion_frame (by decide) (State.frame_refl _ _)
  refine completes_of_next rfl ?_
  unfold State.unknownOpcode
  rw [hop, if_neg (by decide)]
  unfold State.vorane
  rw [if_neg h.2.2.2.1, State.intake_unknown h hop]
  dsimp only
  rw [State.out_sendCompletion hconn, hout, hnow, hsend.cmds (by decide), hcmds]
  exact ⟨rfl, rfl⟩

/-- Settles O37. -/
theorem reliableDeliveryComplete : Obligations.ReliableDeliveryComplete := by
  unfold Obligations.ReliableDeliveryComplete
  refine ⟨?ack, fun _ _ _ _ _ => rcRetryTimeout_completes, fun _ _ => inboundRdma_completes, ?nak, fun _ _ _ _ => commandTimeout_completes,
    fun _ _ _ => unknownOpcode_completes⟩
  case ack =>
    intro q psn s hc
    refine completes_of_next rfl ?_
    rw [State.rcAck, hc]
    rfl
  case nak =>
    intro q s hc
    refine completes_of_next rfl ?_
    rw [State.remoteNak, if_pos hc]
    exact State.qpState_qpError (State.qpState_of_connected hc) _

end Sys2Proof.Machine
end

section
/-! Semaphores (R346 to R351; O38). -/

namespace Sys2Proof.Machine

/-! ### The entry of a semaphore, R356 -/

/-- What leaves the semaphore page leaves a semaphore's entry. -/
theorem State.Within.semEntry {s t : State} {m : Nat} (h : s.Within m t) (hm : m.testBit 2 = false) (i : Nat) :
    t.semHeld i = s.semHeld i ∧ t.semHolder i = s.semHolder i ∧ t.semSource i = s.semSource i ∧ t.semStamp i = s.semStamp i := by
  unfold State.semHeld State.semHolder State.semSource State.semStamp
  rw [h.rf (by rw [area_semHeldF]; exact hm), h.rf (by rw [area_semHolderF]; exact hm), h.rf (by rw [area_semSourceF]; exact hm),
    h.rf (by rw [show R.SEMA_GRANT_STAMP.area = 2 from by decide]; exact hm)]
  exact ⟨rfl, rfl, rfl, rfl⟩

/-- The fields of a semaphore's entry are apart from each other. -/
theorem semF_code_ne (i : Nat) :
    (semHeldF i).code ≠ (semHolderF i).code ∧ (semHeldF i).code ≠ (semSourceF i).code ∧ (semHeldF i).code ≠ R.SEMA_GRANT_STAMP.code ∧
    (semHolderF i).code ≠ (semSourceF i).code ∧ (semHolderF i).code ≠ R.SEMA_GRANT_STAMP.code ∧ (semSourceF i).code ≠ R.SEMA_GRANT_STAMP.code := by
  unfold semHeldF semHolderF semSourceF
  split <;> decide

theorem semF_len (i : Nat) : (semHeldF i).len = 1 ∧ (semHolderF i).len = 3 ∧ (semSourceF i).len = 16 := by
  unfold semHeldF semHolderF semSourceF
  split <;> decide

/-- The entry of a semaphore written whole. -/
def State.semEntry (s : State) (i held holder source stamp : Nat) : State :=
  (((s.wf (semHeldF i) 0 held (i / 2)).wf (semHolderF i) 0 holder (i / 2)).wf (semSourceF i) 0 source (i / 2)).wf R.SEMA_GRANT_STAMP 0 stamp i

theorem State.semEntry_is (s : State) (i held holder source stamp : Nat) :
    (s.semEntry i held holder source stamp).semHeld i = decide (held % 2 = 1) ∧ (s.semEntry i held holder source stamp).semHolder i = holder % 8 ∧
    (s.semEntry i held holder source stamp).semSource i = source % 65536 ∧ (s.semEntry i held holder source stamp).semStamp i = stamp % 2 ^ 64 := by
  obtain ⟨h1, h2, h3, h4, h5, h6⟩ := semF_code_ne i
  obtain ⟨l1, l2, l3⟩ := semF_len i
  unfold State.semHeld State.semHolder State.semSource State.semStamp State.semEntry
  rw [State.rf_wf_of_code _ h3, State.rf_wf_of_code _ h2, State.rf_wf_of_code _ h1, State.rf_wf_same, State.rf_wf_of_code _ h5, State.rf_wf_of_code _ h4,
    State.rf_wf_same, State.rf_wf_of_code _ h6, State.rf_wf_same, State.rf_wf_same, l1, l2, l3]
  exact ⟨rfl, rfl, rfl, rfl⟩

/-! ### Granting and freeing, R348 -/

theorem State.semGrant_is (s : State) (i h src ms : Nat) :
    (s.semGrant i h src ms).semHeld i = true ∧ (s.semGrant i h src ms).semHolder i = h % 8 ∧ (s.semGrant i h src ms).semSource i = src % 65536 ∧
    (s.semGrant i h src ms).semStamp i = s.now % 2 ^ 64 := by
  obtain ⟨he, ho, hs, ht⟩ := s.semEntry_is i 1 h src s.now
  have hset (u : State) (x : SemSt) : (u.setSem i x).semHeld i = u.semHeld i ∧ (u.setSem i x).semHolder i = u.semHolder i ∧
      (u.setSem i x).semSource i = u.semSource i ∧ (u.setSem i x).semStamp i = u.semStamp i := ⟨rfl, rfl, rfl, rfl⟩
  have hinc (u : State) : (u.inc R.QP_SEMS_HELD src).semHeld i = u.semHeld i ∧ (u.inc R.QP_SEMS_HELD src).semHolder i = u.semHolder i ∧
      (u.inc R.QP_SEMS_HELD src).semSource i = u.semSource i ∧ (u.inc R.QP_SEMS_HELD src).semStamp i = u.semStamp i :=
    State.Within.semEntry (State.inc_frame (M := touch [0x29] []) (by decide) (u.frame_refl _)) (by decide) i
  unfold State.semGrant
  change State.semHeld (if h = 2 ∨ h = 3 then ((s.semEntry i 1 h src s.now).setSem i _).inc _ _ else (s.semEntry i 1 h src s.now).setSem i _) i = _ ∧
    State.semHolder (if h = 2 ∨ h = 3 then ((s.semEntry i 1 h src s.now).setSem i _).inc _ _ else (s.semEntry i 1 h src s.now).setSem i _) i = _ ∧
    State.semSource (if h = 2 ∨ h = 3 then ((s.semEntry i 1 h src s.now).setSem i _).inc _ _ else (s.semEntry i 1 h src s.now).setSem i _) i = _ ∧
    State.semStamp (if h = 2 ∨ h = 3 then ((s.semEntry i 1 h src s.now).setSem i _).inc _ _ else (s.semEntry i 1 h src s.now).setSem i _) i = _
  split
  · rw [(hinc _).1, (hinc _).2.1, (hinc _).2.2.1, (hinc _).2.2.2]
    exact ⟨he, ho, hs, ht⟩
  · exact ⟨he, ho, hs, ht⟩

theorem State.semHeld_semFree (s : State) (i : Nat) : (s.semFree i).semHeld i = false := by
  have he := (s.semEntry_is i 0 0 0 0).1
  have hdec (u : State) (q : Nat) : (u.dec R.QP_SEMS_HELD q).semHeld i = u.semHeld i :=
    (State.Within.semEntry (State.dec_frame (M := touch [0x29] []) (by decide) (u.frame_refl _)) (by decide) i).1
  unfold State.semFree
  change State.semHeld (if s.semHolder i = 2 ∨ s.semHolder i = 3 then ((s.semEntry i 0 0 0 0).setSem i _).dec _ _ else (s.semEntry i 0 0 0 0).setSem i _) i = _
  split
  · rw [hdec]
    exact he
  · exact he

/-- A semaphore freed keeps its waiters. -/
theorem State.waiters_semFree (s : State) (i : Nat) : ((s.semFree i).sem i).waiters = (s.sem i).waiters := by
  have hput (u : State) (x : SemSt) : (u.setSem i x).sem i = x := Tbl.getD_put_same _ _ _ _
  have hdec (u : State) (q : Nat) : (u.dec R.QP_SEMS_HELD q).sem i = u.sem i := rfl
  unfold State.semFree
  dsimp only
  split
  · rw [hdec, hput]
  · rw [hput]

theorem State.semNext_none {s : State} {i : Nat} (h : (s.sem i).waiters = []) : s.semNext i = s := by
  unfold State.semNext
  rw [h]

/-! ### Breaking, R349 -/

/-- R349: what a break leaves before the first waiter's grant. -/
def State.breakNoted (s : State) (i cause : Nat) : State :=
  let s1 := ((s.semFree i).inc R.SEMA_BREAKS 0).when (decide (cause = 1)) fun t =>
    (t.inc R.SEMA_EXPIRIES 0).setInt semaPage R.INT_SEMA_LEASE_EXPIRED
  let s2 := ((((s1.wf R.SEMA_LAST_BREAK_STAMP 0 s.now).wf R.SEMA_BREAK_INDEX 0 i).wf R.SEMA_OLD_HOLDER 0 (s.semHolder i)).wf
    R.SEMA_OLD_SOURCE 0 (s.semSource i)).wf R.SEMA_BREAK_CAUSE 0 cause
  ((s2.setInt semaPage R.INT_SEMA_BROKEN).each (guardedPages i) fun t p => t.setInt p 3).logEv 0x0203 semaPage.index 0
    [i, pack [(s.semHolder i, 0, 16), (s.semSource i, 16, 16)], cause, 0]

theorem State.semBreak_eq (s : State) (i cause : Nat) : s.semBreak i cause = (s.breakNoted i cause).semNext i := rfl

theorem State.breakNoted_within (s : State) (i cause : Nat) : (s.semFree i).Within 0x7800000000010000000006 (s.breakNoted i cause) := by
  have hpages {t : State} (h : (s.semFree i).Within 0x7800000000010000000006 t) :
      (s.semFree i).Within 0x7800000000010000000006 (t.each (guardedPages i) fun t p => t.setInt p 3) :=
    foldl_frame_mem (fun t p hp h => State.setInt_frame (by decide) (guardedPages_bit (Sub.refl _) (by decide) hp) h) h
  unfold State.breakNoted
  refine State.logEv_frame (by decide) (hpages (State.setInt_frame (by decide) (by decide) ?_))
  refine State.wf_frame (by decide) (State.wf_frame (by decide) (State.wf_frame (by decide) (State.wf_frame (by decide) (State.wf_frame (by decide) ?_))))
  exact State.when_frame (State.inc_frame (by decide) (State.frame_refl _ _))
    fun _ h => State.setInt_frame (by decide) (by decide) (State.inc_frame (by decide) h)

/-- The registers of the record of a break, and the two counts of breaks. -/
def breakFields : List Nat :=
  [R.SEMA_BREAKS, R.SEMA_EXPIRIES, R.SEMA_LAST_BREAK_STAMP, R.SEMA_BREAK_INDEX, R.SEMA_OLD_HOLDER, R.SEMA_OLD_SOURCE, R.SEMA_BREAK_CAUSE].map Field.code

theorem semHeldF_unbroken (i : Nat) : (semHeldF i).plain ∧ (semHeldF i).code ∉ breakFields := by
  unfold semHeldF
  split <;> decide

/-- The interrupts and the log of a break leave every other field. -/
theorem State.rf_breakNoted (s : State) (i cause : Nat) {g : Field} (hg : g.plain) (j l : Nat) :
    (s.breakNoted i cause).rf g j l = ((((((((s.semFree i).inc R.SEMA_BREAKS 0).when (decide (cause = 1)) fun t =>
      (t.inc R.SEMA_EXPIRIES 0).setInt semaPage R.INT_SEMA_LEASE_EXPIRED).wf R.SEMA_LAST_BREAK_STAMP 0 s.now).wf R.SEMA_BREAK_INDEX 0 i).wf
      R.SEMA_OLD_HOLDER 0 (s.semHolder i)).wf R.SEMA_OLD_SOURCE 0 (s.semSource i)).wf R.SEMA_BREAK_CAUSE 0 cause).rf g j l := by
  unfold State.breakNoted
  dsimp only
  rw [State.rf_logEv_plain _ _ _ _ _ hg, State.each_eq (fun t => t.rf g j l) (fun p _ t => t.rf_setInt_plain p 3 hg j l), State.rf_setInt_plain _ _ _ hg]

theorem State.semHeld_breakNoted (s : State) (i cause : Nat) : (s.breakNoted i cause).semHeld i = false := by
  obtain ⟨hplain, hne⟩ := semHeldF_unbroken i
  have hcode {f : Field} (hf : f.code ∈ breakFields) : (semHeldF i).code ≠ f.code := fun h => hne (by rw [h]; exact hf)
  have hwhen (u : State) (b : Bool) : (u.when b fun t => (t.inc R.SEMA_EXPIRIES 0).setInt semaPage R.INT_SEMA_LEASE_EXPIRED).rf (semHeldF i) 0 (i / 2) =
      u.rf (semHeldF i) 0 (i / 2) := by
    cases b with
    | false => rfl
    | true => rw [State.when_true, State.rf_setInt_plain _ _ _ hplain, State.rf_inc_of_code _ (hcode (by decide))]
  rw [← s.semHeld_semFree i]
  unfold State.semHeld
  rw [State.rf_breakNoted _ _ _ hplain, State.rf_wf_of_code _ (hcode (by decide)), State.rf_wf_of_code _ (hcode (by decide)),
    State.rf_wf_of_code _ (hcode (by decide)), State.rf_wf_of_code _ (hcode (by decide)), State.rf_wf_of_code _ (hcode (by decide)), hwhen,
    State.rf_inc_of_code _ (hcode (by decide))]

theorem State.semHolder_lt (s : State) (i : Nat) : s.semHolder i < 8 := by
  have h := s.rf_lt (semHolderF i) 0 (i / 2)
  rwa [(semF_len i).2.1] at h

theorem State.semSource_lt (s : State) (i : Nat) : s.semSource i < 65536 := by
  have h := s.rf_lt (semSourceF i) 0 (i / 2)
  rwa [(semF_len i).2.2] at h

/-- R349, R356: the record of a break names the entry, its old holder and source, and the cause. -/
theorem State.breakRecord (s : State) {i cause : Nat} (hi : i < 256) (hc : cause < 8) :
    (s.breakNoted i cause).rf R.SEMA_BREAK_INDEX 0 = i ∧ (s.breakNoted i cause).rf R.SEMA_OLD_HOLDER 0 = s.semHolder i ∧
    (s.breakNoted i cause).rf R.SEMA_OLD_SOURCE 0 = s.semSource i ∧ (s.breakNoted i cause).rf R.SEMA_BREAK_CAUSE 0 = cause := by
  simp (disch := decide) only [State.rf_breakNoted, State.rf_wf_same, State.rf_wf_of_code]
  exact ⟨Nat.mod_eq_of_lt hi, Nat.mod_eq_of_lt (s.semHolder_lt i), Nat.mod_eq_of_lt (s.semSource_lt i), Nat.mod_eq_of_lt hc⟩

/-- R349: with no waiter a break is its records. -/
theorem State.semBreak_none {s : State} {i : Nat} (h : (s.sem i).waiters = []) (cause : Nat) : s.semBreak i cause = s.breakNoted i cause := by
  rw [State.semBreak_eq]
  refine State.semNext_none ?_
  rw [← h, ← s.waiters_semFree i]
  unfold State.sem
  rw [(s.breakNoted_within i cause).sems (by decide)]

/-! ### The commands, R347 to R350 -/

theorem State.reply_within (s : State) (c : Cmd) (body : List Nat) :
    s.Within (touch [0x28, 0x29] [.cmds, .cmdRecs, .qps, .out]) (s.reply c body) := State.finish_frame (by decide) (s.frame_refl _)

/-- A command is answered where it is still open and its queue pair connected. -/
theorem State.answered_of_started {s u : State} {op : Nat} {c : Cmd} {cls : Class} (h : s.Takes c) (hcmds : u.cmds = (s.started op c cls).cmds)
    (hrf : u.rf R.QP_STATE c.qp = (s.started op c cls).rf R.QP_STATE c.qp) (body : List Nat) : s.Answered (u.reply c body) c op body := by
  refine State.answered_reply ?_ ?_
  · rw [← State.started_openCmd (op := op) (cls := cls) h.2.2.1]
    exact congrArg (List.find? _) hcmds
  · have hc := s.started_connected op c cls c.qp
    unfold State.connected at hc ⊢
    rw [hrf, hc]
    exact h.1

theorem State.semAcquire_free {s : State} {i : Nat} (h : s.semHeld i = false) (hd src ms : Nat) : s.semAcquire i hd src ms = (0, s.semGrant i hd src ms) := by
  rw [State.semAcquire, h]
  rfl

theorem semAcquire_completes {c : Cmd} {s : State} (h : s.Takes c) (hbody : semBodyOk c 0xFFFF01FF 1 = true) (hfree : s.semHeld (c.f 0 0 8) = false) :
    Completes (.semAcquire c) s fun t =>
      t.semHeld (c.f 0 0 8) = true ∧ t.semHolder (c.f 0 0 8) = s.holderCode c.qp % 8 ∧ t.semSource (c.f 0 0 8) = c.qp % 65536 ∧
      t.semStamp (c.f 0 0 8) = s.now % 2 ^ 64 ∧
      s.Answered t c 0x12 [pack [(0, 0, 8), (s.holderCode c.qp % 8, 8, 3), (c.qp % 65536, 16, 16)], s.now % 2 ^ 64] := by
  refine completes_of_vorane rfl h (by decide) hbody ?_
  have hstart := s.started_within 0x12 c (if c.b 0 8 then .l else .f)
  have hnow := hstart.now (by decide)
  have hheld := (hstart.semEntry (by decide) (c.f 0 0 8)).1.trans hfree
  have hcode : (s.started 0x12 c (if c.b 0 8 then .l else .f)).holderCode c.qp = s.holderCode c.qp := by
    unfold State.holderCode
    rw [State.started_regs _ _ _ _ _ _ _ (by decide)]
  have hans (u : State) := State.answered_of_started (u := u) (op := 0x12) (cls := if c.b 0 8 then .l else .f) h
  rw [← hcode, ← hnow]
  generalize s.started 0x12 c (if c.b 0 8 then .l else .f) = t at *
  obtain ⟨he, ho, hs, ht⟩ := t.semGrant_is (c.f 0 0 8) (t.holderCode c.qp) c.qp (c.f 0 16 16)
  dsimp only
  rw [State.semAcquire_free hheld]
  dsimp only
  rw [if_pos (by decide)]
  obtain ⟨re, ro, rs, rt⟩ := ((t.semGrant (c.f 0 0 8) (t.holderCode c.qp) c.qp (c.f 0 16 16)).reply_within c
    [(t.semGrant (c.f 0 0 8) (t.holderCode c.qp) c.qp (c.f 0 16 16)).semWord (c.f 0 0 8) 0,
     (t.semGrant (c.f 0 0 8) (t.holderCode c.qp) c.qp (c.f 0 16 16)).semStamp (c.f 0 0 8)]).semEntry (by decide) (c.f 0 0 8)
  rw [re, ro, rs, rt, he, ho, hs, ht]
  refine ⟨rfl, rfl, rfl, rfl, ?_⟩
  have hword : (t.semGrant (c.f 0 0 8) (t.holderCode c.qp) c.qp (c.f 0 16 16)).semWord (c.f 0 0 8) 0 =
      pack [(0, 0, 8), (t.holderCode c.qp % 8, 8, 3), (c.qp % 65536, 16, 16)] := by rw [State.semWord, ho, hs]
  rw [hword]
  have hgrant : t.Within (touch [2, 0x29] [.sems]) (t.semGrant (c.f 0 0 8) (t.holderCode c.qp) c.qp (c.f 0 16 16)) :=
    State.semGrant_frame (by decide) (t.frame_refl _)
  exact hans _ (hgrant.cmds (by decide)) (State.rf_semGrant_lasting lasting_qpState _ _ _ _ _ _ _) _

/-- The status of a semaphore completion is the low byte of its word. -/
theorem State.semWord_mod (s : State) {status : Nat} (h : status < 256) (i : Nat) : s.semWord i status % 256 = status := by
  simp only [State.semWord, pack, List.foldl_cons, List.foldl_nil]
  omega

/-- R348: the holder's release with no waiter frees the semaphore. -/
theorem State.semRelease_none {s : State} {i h src : Nat} (hheld : s.semHeldBy i h src = true) (hw : (s.sem i).waiters = []) :
    s.semRelease i h src = (4, s.semFree i) := by
  unfold State.semRelease
  rw [if_pos hheld, State.semNext_none (by rw [State.waiters_semFree, hw])]

theorem State.Within.semHeldBy {s t : State} {m : Nat} (h : s.Within m t) (hm : m.testBit 2 = false) (i hd src : Nat) :
    t.semHeldBy i hd src = s.semHeldBy i hd src := by
  obtain ⟨he, ho, hs, -⟩ := h.semEntry hm i
  unfold State.semHeldBy
  rw [he, ho, hs]

theorem semRelease_completes {c : Cmd} {s : State} (h : s.Takes c) (hbody : semBodyOk c 0xFF 1 = true)
    (hheld : s.semHeldBy (c.f 0 0 8) (s.holderCode c.qp) c.qp = true) (hw : (s.sem (c.f 0 0 8)).waiters = []) :
    Completes (.semRelease c) s fun t => t.semHeld (c.f 0 0 8) = false ∧ ∃ w, s.Answered t c 0x13 [w] ∧ w % 256 = 4 := by
  refine completes_of_vorane rfl h (by decide) hbody ?_
  have hstart := s.started_within 0x13 c .f
  have hcode : (s.started 0x13 c .f).holderCode c.qp = s.holderCode c.qp := by
    unfold State.holderCode
    rw [State.started_regs _ _ _ _ _ _ _ (by decide)]
  have hheld' := (hstart.semHeldBy (by decide) (c.f 0 0 8) (s.holderCode c.qp) c.qp).trans hheld
  have hsem : (s.started 0x13 c .f).sem (c.f 0 0 8) = s.sem (c.f 0 0 8) := by
    unfold State.sem
    rw [hstart.sems (by decide)]
  rw [hcode, State.semRelease_none hheld' (by rw [hsem, hw])]
  have hfree : (s.started 0x13 c .f).Within (touch [2, 0x29] [.sems]) ((s.started 0x13 c .f).semFree (c.f 0 0 8)) :=
    State.semFree_frame (by decide) (State.frame_refl _ _)
  refine ⟨?_, _, State.answered_of_started h (hfree.cmds (by decide)) (State.rf_semFree_lasting lasting_qpState _ _ _ _) _,
    State.semWord_mod _ (by decide) _⟩
  rw [((State.reply_within _ c _).semEntry (by decide) (c.f 0 0 8)).1]
  exact State.semHeld_semFree _ _

theorem State.rf_breakNoted_lasting (s : State) (i cause : Nat) {g : Field} (hg : g.lasting) (j l : Nat) : (s.breakNoted i cause).rf g j l = s.rf g j l := by
  have hwhen (u : State) (b : Bool) : (u.when b fun t => (t.inc R.SEMA_EXPIRIES 0).setInt semaPage R.INT_SEMA_LEASE_EXPIRED).rf g j l = u.rf g j l := by
    cases b with
    | false => rfl
    | true => rw [State.when_true, State.rf_setInt_plain _ _ _ hg.1, State.rf_inc_sema hg _ _ _ (by decide)]
  rw [State.rf_breakNoted _ _ _ hg.1, State.rf_wf_sema hg _ _ _ (by decide), State.rf_wf_sema hg _ _ _ (by decide),
    State.rf_wf_sema hg _ _ _ (by decide), State.rf_wf_sema hg _ _ _ (by decide), State.rf_wf_sema hg _ _ _ (by decide), hwhen,
    State.rf_inc_sema hg _ _ _ (by decide), State.rf_semFree_lasting hg]

theorem semBreak_completes {c : Cmd} {s : State} (h : s.Takes c) (hbody : semBodyOk c 0xFF 2 = true) (hheld : s.semHeld (c.f 0 0 8) = true)
    (hstamp : s.semStamp (c.f 0 0 8) = c.w 1) (hw : (s.sem (c.f 0 0 8)).waiters = []) :
    Completes (.semBreak c) s fun t =>
      t.semHeld (c.f 0 0 8) = false ∧ t.rf R.SEMA_BREAK_INDEX 0 = c.f 0 0 8 ∧ t.rf R.SEMA_OLD_HOLDER 0 = s.semHolder (c.f 0 0 8) ∧
      t.rf R.SEMA_OLD_SOURCE 0 = s.semSource (c.f 0 0 8) ∧ t.rf R.SEMA_BREAK_CAUSE 0 = 0 := by
  refine completes_of_vorane rfl h (by decide) hbody ?_
  have hstart := s.started_within 0x14 c .f
  obtain ⟨he, ho, hs, ht⟩ := hstart.semEntry (by decide) (c.f 0 0 8)
  have hsem : (s.started 0x14 c .f).sem (c.f 0 0 8) = s.sem (c.f 0 0 8) := by
    unfold State.sem
    rw [hstart.sems (by decide)]
  rw [he, hheld, ht, hstamp, if_neg (by decide), if_neg (by simp), State.semBreak_none (by rw [hsem, hw]), ← ho, ← hs]
  dsimp only
  obtain ⟨hidx, hold, hsrc, hcause⟩ := (s.started 0x14 c .f).breakRecord (i := c.f 0 0 8) (cause := 0) (Nat.mod_lt _ (by decide)) (by decide)
  have hreply := State.reply_within ((s.started 0x14 c .f).breakNoted (c.f 0 0 8) 0) c
    [((s.started 0x14 c .f).breakNoted (c.f 0 0 8) 0).semWord (c.f 0 0 8) 6, ((s.started 0x14 c .f).breakNoted (c.f 0 0 8) 0).semStamp (c.f 0 0 8)]
  rw [(hreply.semEntry (by decide) _).1, hreply.rf (by decide), hreply.rf (by decide), hreply.rf (by decide), hreply.rf (by decide)]
  exact ⟨State.semHeld_breakNoted _ _ _, hidx, hold, hsrc, hcause⟩

theorem leaseExpiry_completes {i due : Nat} {s : State} (hi : i < 256) (hlease : (s.sem i).lease = some due) (hheld : s.semHeld i = true)
    (hdue : due ≤ s.elapsed) (hw : (s.sem i).waiters = []) :
    Completes (.leaseExpiry i) s fun t =>
      t.semHeld i = false ∧ t.rf R.SEMA_BREAK_INDEX 0 = i ∧ t.rf R.SEMA_OLD_HOLDER 0 = s.semHolder i ∧
      t.rf R.SEMA_OLD_SOURCE 0 = s.semSource i ∧ t.rf R.SEMA_BREAK_CAUSE 0 = 1 := by
  refine completes_of_next rfl ?_
  rw [Nat.mod_eq_of_lt hi]
  unfold State.leaseExpiry
  rw [hlease]
  dsimp only
  rw [if_pos ⟨hheld, hdue⟩, State.semBreak_none hw]
  exact ⟨s.semHeld_breakNoted _ _, s.breakRecord hi (by decide)⟩

/-! ### SEM_OP, R350 -/

/-- The fields of a SEM_OP word. -/
theorem bitsOf_semOp {i op lease : Nat} (hi : i < 256) (hop : op < 4) (hl : lease < 65536) :
    bitsOf (pack [(i, 0, 8), (op, 8, 2), (lease, 16, 16)]) 0 8 = i ∧ bitsOf (pack [(i, 0, 8), (op, 8, 2), (lease, 16, 16)]) 8 2 = op ∧
    bitsOf (pack [(i, 0, 8), (op, 8, 2), (lease, 16, 16)]) 16 16 = lease := by
  simp only [bitsOf, pack, List.foldl_cons, List.foldl_nil, Nat.shiftRight_eq_div_pow]
  omega

/-- R350: a write of SEM_OP is the operation. -/
theorem State.Writes.semOp_within {s : State} {m : Master} {w : Nat} (h : s.Writes m semaPage 0x100 w) :
    (s.semOp m.code m.source (bitsOf w 0 8) (bitsOf w 8 2) (bitsOf w 16 16)).Within storeMask (s.pageStore m semaPage 0x100 w) :=
  h.store_within (by decide) rfl

theorem master_code_lt (m : Master) : m.code < 8 := by
  cases m <;> exact Nat.lt_of_sub_eq_succ rfl

theorem semOpAcquire_completes {m : Master} {i lease : Nat} {s : State} (hi : i < 256) (hl : lease < 65536)
    (h : s.Writes m semaPage 0x100 (pack [(i, 0, 8), (0, 8, 2), (lease, 16, 16)])) (hfree : s.semHeld i = false) :
    Completes (.semOpAcquire m i lease) s fun t =>
      t.semHeld i = true ∧ t.semHolder i = m.code ∧ t.semSource i = m.source % 65536 ∧ t.semStamp i = s.now % 2 ^ 64 := by
  have hw := h.semOp_within
  obtain ⟨b0, b1, b2⟩ := bitsOf_semOp hi (by decide : 0 < 4) hl
  rw [b0, b1, b2, State.semOp, if_pos rfl, State.semAcquire_free hfree] at hw
  obtain ⟨he, ho, hs, ht⟩ := s.semGrant_is i m.code m.source lease
  obtain ⟨re, ro, rs, rt⟩ := hw.semEntry (by decide) i
  refine completes_of_next rfl ?_
  rw [re, ro, rs, rt, he, ho, hs, ht, Nat.mod_eq_of_lt (master_code_lt m)]
  exact ⟨rfl, rfl, rfl, rfl⟩

/-- A SEM_OP word without a lease. -/
theorem bitsOf_semOp_plain {i op : Nat} (hi : i < 256) (hop : op < 4) :
    bitsOf (pack [(i, 0, 8), (op, 8, 2)]) 0 8 = i ∧ bitsOf (pack [(i, 0, 8), (op, 8, 2)]) 8 2 = op := by
  simp only [bitsOf, pack, List.foldl_cons, List.foldl_nil, Nat.shiftRight_eq_div_pow]
  omega

theorem semOpRelease_completes {m : Master} {i : Nat} {s : State} (hi : i < 256) (h : s.Writes m semaPage 0x100 (pack [(i, 0, 8), (1, 8, 2)]))
    (hheld : s.semHeldBy i m.code m.source = true) (hnone : (s.sem i).waiters = []) :
    Completes (.semOpRelease m i) s fun t => t.semHeld i = false := by
  have hw := h.semOp_within
  obtain ⟨b0, b1⟩ := bitsOf_semOp_plain hi (by decide : 1 < 4)
  rw [b0, b1, State.semOp, if_neg (by decide), if_pos rfl, State.semRelease_none hheld hnone] at hw
  refine completes_of_next rfl ?_
  rw [(hw.semEntry (by decide) i).1]
  exact s.semHeld_semFree i

theorem semOpBreak_completes {m : Master} {i : Nat} {s : State} (hi : i < 256) (h : s.Writes m semaPage 0x100 (pack [(i, 0, 8), (2, 8, 2)]))
    (hheld : s.semHeld i = true) (hnone : (s.sem i).waiters = []) :
    Completes (.semOpBreak m i) s fun t =>
      t.semHeld i = false ∧ t.rf R.SEMA_BREAK_INDEX 0 = i ∧ t.rf R.SEMA_OLD_HOLDER 0 = s.semHolder i ∧ t.rf R.SEMA_BREAK_CAUSE 0 = 4 := by
  have hw := h.semOp_within
  obtain ⟨b0, b1⟩ := bitsOf_semOp_plain hi (by decide : 2 < 4)
  rw [b0, b1, State.semOp, if_neg (by decide), if_neg (by decide), if_pos ⟨rfl, hheld⟩, State.semBreak_none hnone] at hw
  obtain ⟨hidx, hold, -, hcause⟩ := s.breakRecord (cause := 4) hi (by decide)
  refine completes_of_next rfl ?_
  rw [(hw.semEntry (by decide) i).1, hw.rf (by decide), hw.rf (by decide), hw.rf (by decide)]
  exact ⟨s.semHeld_breakNoted i 4, hidx, hold, hcause⟩

/-- Settles O38. -/
theorem semaphoresComplete : Obligations.SemaphoresComplete :=
  ⟨fun _ _ => semAcquire_completes, fun _ _ => semRelease_completes, fun _ _ => semBreak_completes, fun _ _ _ => leaseExpiry_completes,
    fun _ _ _ _ => semOpAcquire_completes, fun _ _ _ => semOpRelease_completes, fun _ _ _ => semOpBreak_completes⟩

end Sys2Proof.Machine
end

section
/-! Management commands that answer (R344, R519 to R522, R544, R550; O39). -/

namespace Sys2Proof.Machine

/-! ### What an answer reads after its command started -/

theorem State.timeBound_of_started (s : State) (op : Nat) (c : Cmd) (cls : Class) : (s.started op c cls).timeBound = s.timeBound := by
  have hw := s.started_within op c cls
  unfold State.timeBound
  rw [hw.oa (by decide), hw.elapsed (by decide), hw.rf (by decide), hw.rf (by decide)]

theorem State.readLog_of_started (s : State) (op : Nat) (c : Cmd) (cls : Class) (start n : Nat) :
    (s.started op c cls).readLog start n = s.readLog start n := by
  have hw := s.started_within op c cls
  unfold State.readLog
  rw [hw.log (by decide), hw.rf (by decide), hw.rf (by decide)]

theorem State.sensorWord_of_started (s : State) (op : Nat) (c : Cmd) (cls : Class) (n : Nat) : (s.started op c cls).sensorWord n = s.sensorWord n := by
  have hw := s.started_within op c cls
  unfold State.sensorWord
  rw [hw.rf (by decide), hw.rf (by decide), hw.rf (by decide), hw.rf (by decide), hw.rf (by decide)]

theorem State.modState_of_started (s : State) (op : Nat) (c : Cmd) (cls : Class) : (s.started op c cls).modState = s.modState :=
  (s.started_within op c cls).rf (by decide)

/-- R344: a command that only answers is answered. -/
theorem State.answered_at_once {s : State} {c : Cmd} (h : s.Takes c) (op : Nat) (cls : Class) (body : List Nat) :
    s.Answered ((s.started op c cls).reply c body) c op body :=
  State.answered_of_within (m := touch [] []) h (State.frame_refl _ _) (by decide) (by decide)

/-! ### Commands that only answer -/

theorem identify_completes {c : Cmd} {s : State} (h : s.Takes c) (hwords : c.bodyWords = 0) :
    Completes (.identify c) s fun t => s.Answered t c 0x02 [s.rf R.MOD_PART_NUMBER 0, s.rf R.MOD_SERIAL 0,
      pack [(0xA1, 0, 8), (s.modState, 8, 8), (c.qp, 16, 10), (s.rf R.QP_PORT c.qp, 26, 1)], s.now] := by
  have hw := s.started_within 0x02 c .q
  refine completes_of_vorane rfl h (by decide) (by simp [hwords]) ?_
  rw [← s.modState_of_started 0x02 c .q, ← hw.rf (f := R.MOD_PART_NUMBER) (by decide), ← hw.rf (f := R.MOD_SERIAL) (by decide), ← hw.now (by decide),
    ← State.started_regs s 0x02 c .q R.QP_PORT c.qp 0 (by decide)]
  exact State.answered_at_once h _ _ _

theorem statusQuery_completes {c : Cmd} {s : State} (h : s.Takes c) (hwords : c.bodyWords = 0) :
    Completes (.statusQuery c) s fun t =>
      s.Answered t c 0x40
        [pack [(s.modState, 0, 4), (s.rf R.MOD1_FAIL_CAUSE 0, 4, 8), (s.rf R.OASIS2_EPOCH_SET 0, 12, 1),
           (s.rf R.OASIS2_SYNC_STATE 0, 13, 3), (s.rf R.OASIS2_TIME_FAR 0, 16, 1), (s.rf R.OASIS_OASIS_RESTARTS 0, 32, 32)],
         s.now,
         pack [(s.timeBound, 0, 32), (s.rf R.MOD1_M_ABSENT 0 + s.rf R.MOD1_V_ABSENT 0 + s.rf R.MOD1_S_ABSENT 0, 32, 32)],
         pack [(s.rf R.OASIS1_NEXT_SEQ 0, 0, 32), (s.rf R.OASIS1_LOST 0, 32, 32)],
         pack [(s.rf R.SERVE_OPEN 0, 0, 17)],
         pack [(s.rf R.KEYS_IMAGE_VERSION 0, 0, 32), (s.rf R.OASIS3_RUNNING_TRIAL 0, 32, 1), (s.rf R.OASIS3_RUNNING_SLOT 0, 33, 1)]] := by
  have hrf (f : Field) (hf : startMask.testBit f.area = false) : (s.started 0x40 c .q).rf f 0 = s.rf f 0 := (s.started_within 0x40 c .q).rf hf
  refine completes_of_vorane rfl h (by decide) (by simp [hwords]) ?_
  rw [← s.modState_of_started 0x40 c .q, ← s.timeBound_of_started 0x40 c .q, ← (s.started_within 0x40 c .q).now (by decide)]
  simp (disch := decide) only [← hrf]
  exact State.answered_at_once h _ _ _

theorem logRead_completes {c : Cmd} {s : State} (h : s.Takes c) (hwords : c.bodyWords = 1) (hcur : c.b 0 36 = false) (hn : c.f 0 32 4 ≠ 0)
    (hhigh : c.f 0 50 14 = 0) (hpo : c.f 0 37 13 = 0) :
    Completes (.logRead c) s fun t =>
      s.Answered t c 0x42
        ([pack [(if (s.readLog (c.f 0 0 32) (c.f 0 32 4)).1 then 2 else 0, 0, 8), ((s.readLog (c.f 0 0 32) (c.f 0 32 4)).2.length, 8, 4),
           (s.rf R.OASIS1_OLDEST_SEQ 0, 32, 32)], s.rf R.OASIS1_NEXT_SEQ 0] ++ (s.readLog (c.f 0 0 32) (c.f 0 32 4)).2.flatMap recWords) := by
  have hbad : (decide (c.f 0 32 4 = 0 ∨ c.f 0 50 14 ≠ 0) || (!c.b 0 36 && decide (c.f 0 37 13 ≠ 0))) = false := by simp [hn, hhigh, hpo]
  have hw := s.started_within 0x42 c .q
  refine completes_of_vorane rfl h (by decide) (by simp [hwords]) ?_
  rw [← s.readLog_of_started 0x42 c .q, ← hw.rf (f := R.OASIS1_OLDEST_SEQ) (by decide), ← hw.rf (f := R.OASIS1_NEXT_SEQ) (by decide)]
  dsimp only
  rw [hbad, hcur, if_pos (by decide), if_neg (by decide)]
  exact State.answered_at_once h _ _ _

theorem sensorQuery_completes {c : Cmd} {s : State} (h : s.Takes c) (hwords : c.bodyWords = 1) (hres : c.f 0 14 50 = 0) (hn : c.f 0 7 7 ≠ 0)
    (hend : c.f 0 0 7 + c.f 0 7 7 ≤ 76) :
    Completes (.sensorQuery c) s fun t =>
      s.Answered t c 0x41 (pack [(0, 0, 8), (s.rf R.PWRCAP_LEVEL 0, 8, 4), (s.rf R.THERMAL_THROTTLING 0, 12, 1), (s.rf R.THERMAL_CRITICAL 0, 13, 1),
        (s.rf R.THERMAL_SENSOR_FAULT 0, 14, 1), (s.rf R.THERMAL_UNTRUSTED 0, 15, 1)] :: (List.range (c.f 0 7 7)).map fun i => s.sensorWord (c.f 0 0 7 + i)) := by
  have hbad : decide (c.f 0 14 50 ≠ 0 ∨ c.f 0 7 7 = 0 ∨ 76 < c.f 0 7 7 ∨ 76 < c.f 0 0 7 + c.f 0 7 7) = false := by
    rw [decide_eq_false_iff_not]
    omega
  have hrf (f : Field) (hf : startMask.testBit f.area = false) : (s.started 0x41 c .q).rf f 0 = s.rf f 0 := (s.started_within 0x41 c .q).rf hf
  refine completes_of_vorane rfl h (by decide) (by simp [hwords]) ?_
  simp (disch := decide) only [← hrf]
  simp only [← s.sensorWord_of_started 0x41 c .q, hbad]
  exact State.answered_at_once h _ _ _

/-! ### EVENT_SUBSCRIBE, R519 -/

/-- A completion changes no more of its queue pair than what is unacknowledged. -/
theorem State.qp_reply (s : State) (c : Cmd) (body : List Nat) :
    ((s.reply c body).qp c.qp).subOn = (s.qp c.qp).subOn ∧ ((s.reply c body).qp c.qp).subMin = (s.qp c.qp).subMin ∧
    ((s.reply c body).qp c.qp).subMask = (s.qp c.qp).subMask := by
  have hsend (u : State) (n op r a : Nat) : ((u.sendCompletion c.qp n op r a body).qp c.qp).subOn = (u.qp c.qp).subOn ∧
      ((u.sendCompletion c.qp n op r a body).qp c.qp).subMin = (u.qp c.qp).subMin ∧
      ((u.sendCompletion c.qp n op r a body).qp c.qp).subMask = (u.qp c.qp).subMask := by
    have hwf (v : State) (f : Field) (x : Nat) : (v.wf f c.qp x).qp c.qp = v.qp c.qp := rfl
    unfold State.sendCompletion
    split
    · rw [hwf, State.qp_inc]
      unfold State.sendQp State.txQp
      dsimp only
      rw [State.qp_setQp, State.qp_framesOut]
      exact ⟨rfl, rfl, rfl⟩
    · exact ⟨rfl, rfl, rfl⟩
  unfold State.reply State.finish
  split
  · exact ⟨rfl, rfl, rfl⟩
  · dsimp only
    split
    · exact ⟨rfl, rfl, rfl⟩
    · exact hsend _ _ _ _ _

/-- The registers that a completion changes. -/
def completionFields : List Nat := [R.HOST_FRAMES_TX, R.QP_SQ_PSN, R.QP_COMPLETIONS, R.QP_SLOTS_FREE].map Field.code

theorem State.rf_reply_of_code (s : State) (c : Cmd) (body : List Nat) {g : Field} (hg : g.code ∉ completionFields) (j l : Nat) :
    (s.reply c body).rf g j l = s.rf g j l := by
  have hne {f : Field} (hf : f.code ∈ completionFields) : g.code ≠ f.code := fun e => hg (by rw [e]; exact hf)
  have hsend (u : State) (o : Out) : (u.sendQp c.qp o).rf g j l = u.rf g j l :=
    (State.rf_wf_of_code _ (f := R.QP_SQ_PSN) (hne (by decide)) _ _ _ _ _).trans
      ((u.emit o).rf_inc_of_code (f := R.HOST_FRAMES_TX) (hne (by decide)) _ _ _ _ _)
  unfold State.reply State.finish
  split
  · rfl
  · dsimp only
    split
    · rfl
    · unfold State.sendCompletion
      split
      · rw [State.rf_wf_of_code _ (hne (by decide)), State.rf_inc_of_code _ (hne (by decide)), hsend]
        rfl
      · rfl

/-- R519: the subscription of a command's queue pair as the command says. -/
def State.subscribed (t : State) (c : Cmd) : State :=
  (t.setQp c.qp { t.qp c.qp with subOn := c.b 0 0, subMin := c.f 0 1 3, subMask := c.w 1, closed := (t.qp c.qp).waiting.length }).wf
    R.QP_SUBSCRIBED c.qp (c.f 0 0 1)

theorem State.qp_subscribed (t : State) (c : Cmd) :
    (t.subscribed c).qp c.qp = { t.qp c.qp with subOn := c.b 0 0, subMin := c.f 0 1 3, subMask := c.w 1, closed := (t.qp c.qp).waiting.length } :=
  t.qp_setQp _ _

theorem State.rf_subscribed (t : State) (c : Cmd) : (t.subscribed c).rf R.QP_SUBSCRIBED c.qp = c.f 0 0 1 :=
  (State.rf_wf_same _ _ _ _ _).trans (Nat.mod_eq_of_lt (Nat.mod_lt _ (by decide)))

theorem State.rf_subscribed_of_code (t : State) (c : Cmd) {g : Field} (hg : g.code ≠ R.QP_SUBSCRIBED.code) (j l : Nat) :
    (t.subscribed c).rf g j l = t.rf g j l := by
  unfold State.subscribed
  rw [State.rf_wf_of_code _ hg]
  rfl

theorem State.cmds_subscribed (t : State) (c : Cmd) : (t.subscribed c).cmds = t.cmds := rfl

theorem eventSubscribe_completes {c : Cmd} {s : State} (h : s.Takes c) (hwords : c.bodyWords = 2) (hres : c.f 0 4 60 = 0) :
    Completes (.eventSubscribe c) s fun t =>
      t.rf R.QP_SUBSCRIBED c.qp = c.f 0 0 1 ∧ (t.qp c.qp).subOn = c.b 0 0 ∧ (t.qp c.qp).subMin = c.f 0 1 3 ∧ (t.qp c.qp).subMask = c.w 1 ∧
      s.Answered t c 0x43 [0, s.rf R.OASIS1_NEXT_SEQ 0] := by
  refine completes_of_vorane rfl h (by decide) (by simp [hwords]) ?_
  obtain ⟨u, hu⟩ : ∃ u, u = ((s.started 0x43 c .f).subscribed c).reply c [0, ((s.started 0x43 c .f).subscribed c).rf R.OASIS1_NEXT_SEQ 0] := ⟨_, rfl⟩
  suffices hgoal : u.rf R.QP_SUBSCRIBED c.qp = c.f 0 0 1 ∧ (u.qp c.qp).subOn = c.b 0 0 ∧ (u.qp c.qp).subMin = c.f 0 1 3 ∧
      (u.qp c.qp).subMask = c.w 1 ∧ s.Answered u c 0x43 [0, s.rf R.OASIS1_NEXT_SEQ 0] by
    rw [if_neg (by simp [hres])]
    rw [hu] at hgoal
    exact hgoal
  obtain ⟨hon, hmin, hmask⟩ := ((s.started 0x43 c .f).subscribed c).qp_reply c [0, ((s.started 0x43 c .f).subscribed c).rf R.OASIS1_NEXT_SEQ 0]
  rw [hu, hon, hmin, hmask, State.qp_subscribed, State.rf_reply_of_code _ _ _ (by decide), State.rf_subscribed,
    State.rf_subscribed_of_code _ _ (by decide), (s.started_within 0x43 c .f).rf (by decide)]
  exact ⟨rfl, rfl, rfl, rfl, State.answered_of_started h (State.cmds_subscribed _ _) (State.rf_subscribed_of_code _ _ (by decide) _ _) _⟩

/-! ### POWER_CAP_SET, R544 -/

/-- R544: cap and window as the command says. -/
def State.capSet (t : State) (cap win : Nat) : State :=
  (t.wf R.PWRCAP_CAP_W 0 cap).when (decide (win ≠ 0)) fun u => u.wf R.PWRCAP_WINDOW_MS 0 win

theorem State.rf_capSet (t : State) {cap win : Nat} (hcap : cap < 2 ^ 16) (hwin : win < 2 ^ 16) :
    (t.capSet cap win).rf R.PWRCAP_CAP_W 0 = cap ∧ (t.capSet cap win).rf R.PWRCAP_WINDOW_MS 0 = (if win = 0 then t.rf R.PWRCAP_WINDOW_MS 0 else win) ∧
    (t.capSet cap win).rf R.PWRCAP_BOARD_CAP 0 = t.rf R.PWRCAP_BOARD_CAP 0 := by
  unfold State.capSet
  by_cases hz : win = 0
  · rw [decide_eq_false (by simp [hz]), if_pos hz]
    simp (disch := decide) only [State.when_false, State.rf_wf_same, State.rf_wf_of_code]
    exact ⟨Nat.mod_eq_of_lt hcap, trivial, trivial⟩
  · rw [decide_eq_true hz, if_neg hz]
    simp (disch := decide) only [State.when_true, State.rf_wf_same, State.rf_wf_of_code]
    exact ⟨Nat.mod_eq_of_lt hcap, Nat.mod_eq_of_lt hwin, trivial⟩

theorem State.capSet_within (t : State) (cap win : Nat) : t.Within (touch [0x42] [.irqLatch, .irqs]) (t.capSet cap win) :=
  State.when_frame (State.wf_frame (by decide) (t.frame_refl _)) fun _ hu => State.wf_frame (by decide) hu

theorem powerCapSet_completes {c : Cmd} {s : State} (h : s.Takes c) (hwords : c.bodyWords = 1) (hres : c.f 0 32 32 = 0)
    (hcap : capLegal (c.f 0 0 16) = true) (hwin : c.f 0 16 16 ≠ 0 → c.f 0 16 16 % 2 = 0 ∧ 10 ≤ c.f 0 16 16 ∧ c.f 0 16 16 ≤ 1000) :
    Completes (.powerCapSet c) s fun t =>
      t.rf R.PWRCAP_CAP_W 0 = c.f 0 0 16 ∧ t.rf R.PWRCAP_WINDOW_MS 0 = (if c.f 0 16 16 = 0 then s.rf R.PWRCAP_WINDOW_MS 0 else c.f 0 16 16) ∧
      t.rf R.PWRCAP_EFFECTIVE_CAP 0 = min (c.f 0 0 16) (s.rf R.PWRCAP_BOARD_CAP 0) ∧
      s.Answered t c 0x46 [pack [(0, 0, 8), (min (c.f 0 0 16) (s.rf R.PWRCAP_BOARD_CAP 0), 16, 16)], s.now] := by
  refine completes_of_vorane rfl h (by decide) (by simp [hwords]) ?_
  have hw := s.started_within 0x46 c .f
  obtain ⟨hcapW, hwinMs, hboard⟩ := (s.started 0x46 c .f).rf_capSet (cap := c.f 0 0 16) (win := c.f 0 16 16) (Nat.mod_lt _ (by decide)) (Nat.mod_lt _ (by decide))
  have hset := (s.started 0x46 c .f).capSet_within (c.f 0 0 16) (c.f 0 16 16)
  have hall : (s.started 0x46 c .f).Within (touch [0x42] [.irqLatch, .irqs]) ((s.started 0x46 c .f).capSet (c.f 0 0 16) (c.f 0 16 16)).formCap :=
    State.formCap_frame (by decide) hset
  have hnow := (hset.now (by decide)).trans (hw.now (by decide))
  rw [hw.rf (by decide)] at hwinMs hboard
  have hlegal : ¬ (c.f 0 32 32 ≠ 0 ∨ (!capLegal (c.f 0 0 16)) = true ∨
      (c.f 0 16 16 ≠ 0 ∧ (c.f 0 16 16 % 2 ≠ 0 ∨ c.f 0 16 16 < 10 ∨ 1000 < c.f 0 16 16))) := by
    rw [hcap]
    simp only [Bool.not_true, Bool.false_eq_true, false_or]
    omega
  obtain ⟨v, hv⟩ : ∃ v, v = ((s.started 0x46 c .f).capSet (c.f 0 0 16) (c.f 0 16 16)).formCap := ⟨_, rfl⟩
  obtain ⟨u, hu⟩ : ∃ u, u = v.reply c [pack [(0, 0, 8), (v.rf R.PWRCAP_EFFECTIVE_CAP 0, 16, 16)], ((s.started 0x46 c .f).capSet (c.f 0 0 16) (c.f 0 16 16)).now] :=
    ⟨_, rfl⟩
  suffices hgoal : u.rf R.PWRCAP_CAP_W 0 = c.f 0 0 16 ∧ u.rf R.PWRCAP_WINDOW_MS 0 = (if c.f 0 16 16 = 0 then s.rf R.PWRCAP_WINDOW_MS 0 else c.f 0 16 16) ∧
      u.rf R.PWRCAP_EFFECTIVE_CAP 0 = min (c.f 0 0 16) (s.rf R.PWRCAP_BOARD_CAP 0) ∧
      s.Answered u c 0x46 [pack [(0, 0, 8), (min (c.f 0 0 16) (s.rf R.PWRCAP_BOARD_CAP 0), 16, 16)], s.now] by
    dsimp only
    rw [if_neg hlegal]
    rw [hu, hv] at hgoal
    exact hgoal
  have heff : v.rf R.PWRCAP_EFFECTIVE_CAP 0 = min (c.f 0 0 16) (s.rf R.PWRCAP_BOARD_CAP 0) := by
    rw [hv, State.effectiveCap_formCap, hcapW, hboard]
  rw [hu, State.rf_reply _ _ _ (by decide), State.rf_reply _ _ _ (by decide), State.rf_reply _ _ _ (by decide), heff, hnow, hv,
    State.rf_formCap _ (by decide) (by decide), State.rf_formCap _ (by decide) (by decide), hcapW, hwinMs]
  exact ⟨rfl, rfl, rfl, State.answered_of_within h hall (by decide) (by decide)⟩

/-- Settles O39. -/
theorem managementAnswersComplete : Obligations.ManagementAnswersComplete :=
  ⟨fun _ _ h hwords => completes_of_vorane rfl h (by decide) (by simp [hwords]) (State.answered_at_once h _ _ _),
    fun _ _ => identify_completes, fun _ _ => statusQuery_completes, fun _ _ => logRead_completes, fun _ _ => eventSubscribe_completes,
    fun _ _ => sensorQuery_completes, fun _ _ => powerCapSet_completes⟩

end Sys2Proof.Machine
end

section
/-! The KV pages of a V-core (R212 to R214, R224; O20). -/

namespace Sys2Proof.Machine

/-! ### What a V-core's steps keep in its page -/

/-- The fields of a V-core's page that a step's state and its clamps change. -/
def vStepFields : List Nat :=
  [R.VCORE_STEP_RUNNING, R.VCORE_STANDIN_ACTIVE, R.VCORE_STANDIN_QUEUE, R.VCORE_IDLE, R.VCORE_FP8_CLAMPS].map Field.code

/-- A field of no common header and none of those. -/
abbrev Field.offStep (g : Field) : Prop := g.plain ∧ g.code ∉ vStepFields

theorem Field.offStep.ne {g f : Field} (hg : g.offStep) (hf : f.code ∈ vStepFields) : g.code ≠ f.code := fun h => hg.2 (by rw [h]; exact hf)

theorem State.rf_setVc (s : State) (v : Nat) (x : VcSt) {g : Field} (hg : g.offStep) (j l : Nat) : (s.setVc v x).rf g j l = s.rf g j l := by
  unfold State.setVc State.mirrorVc
  dsimp only
  rw [State.rf_wf_of_code _ (hg.ne (by decide)), State.rf_wf_of_code _ (hg.ne (by decide)), State.rf_wf_of_code _ (hg.ne (by decide)),
    State.rf_wf_of_code _ (hg.ne (by decide))]
  rfl

theorem State.vcSt_setVc (s : State) (v : Nat) (x : VcSt) : (s.setVc v x).vcSt v = x := by
  unfold State.setVc State.mirrorVc State.vcSt
  dsimp only
  rw [State.wf_vc, State.wf_vc, State.wf_vc, State.wf_vc, Tbl.getD_put_same]

theorem State.rf_kvPart (s : State) (v pos mode : Nat) (k : KStep) (o : KvPart) {g : Field} (hg : g.offStep) (j l : Nat) :
    (s.kvPart v pos mode k o).2.2.rf g j l = s.rf g j l := by
  have hclamp (n : Nat) : (s.vClamps v n).rf g j l = s.rf g j l := by
    unfold State.vClamps
    cases decide (0 < n) with
    | false => rfl
    | true => rw [State.when_true, State.rf_setInt_plain _ _ _ hg.1, State.rf_inc_of_code _ (hg.ne (by decide))]
  have hstore (u : State) (c off : Nat) (es : List Nat) : (u.efStore v c off es).rf g j l = u.rf g j l := by
    unfold State.efStore
    dsimp only
    rw [State.rf_setVc _ _ _ hg]
    refine State.each_eq (fun t => t.rf g j l) (fun _ _ t => ?_) u
    rfl
  unfold State.kvPart
  dsimp only
  split
  · exact (hstore _ _ _ _).trans (hclamp _)
  · exact hclamp _

/-! ### The page table, R212 -/

theorem State.ptEntry_setPt (s : State) (v slot p w : Nat) : (s.setPt v slot p w).ptEntry v slot p = w % 256 ^ 8 := by
  have hoff : (s.setPt v slot p w).ptOff v slot p = s.ptOff v slot p := rfl
  have hphys : (s.setPt v slot p w).physOf v = s.physOf v := rfl
  unfold State.ptEntry State.sramRead
  rw [hoff, hphys]
  exact Mem.read_write_same _ _ _ _

/-- What leaves SRAM, the maps and the V-core's page leaves its page tables. -/
theorem State.Within.ptEntry {s t : State} {m : Nat} (h : s.Within m t) (hsram : m.testBit 109 = false) (hmap : m.testBit 0x18 = false)
    (hv : m.testBit 0x14 = false) (v slot p : Nat) : t.ptEntry v slot p = s.ptEntry v slot p := by
  unfold State.ptEntry State.sramRead State.ptOff
  rw [h.sram hsram, h.physOf hmap, h.rf (by rw [show R.VCORE_KV_PT_BASE.area = 0x14 from by decide]; exact hv),
    h.rf (by rw [show R.VCORE_PT_ENTRIES.area = 0x14 from by decide]; exact hv)]

/-- One field more of a word under construction. -/
theorem pack_fold_cons (w v lo len : Nat) (l : List (Nat × Nat × Nat)) :
    ((v, lo, len) :: l).foldl (fun w f => w + (f.1 % 2 ^ f.2.2) * 2 ^ f.2.1) w =
      l.foldl (fun w f => w + (f.1 % 2 ^ f.2.2) * 2 ^ f.2.1) (w + v % 2 ^ len * 2 ^ lo) := rfl

/-- The word of an entry as a sum. -/
theorem pack_entry (a b c d e : Nat) : pack [(a, 0, 32), (b, 32, 1), (c, 33, 1), (d, 34, 1), (e, 35, 7)] =
    0 + a % 2 ^ 32 * 2 ^ 0 + b % 2 ^ 1 * 2 ^ 32 + c % 2 ^ 1 * 2 ^ 33 + d % 2 ^ 1 * 2 ^ 34 + e % 2 ^ 7 * 2 ^ 35 := by
  rw [pack, pack_fold_cons, pack_fold_cons, pack_fold_cons, pack_fold_cons, pack_fold_cons, List.foldl_nil]

theorem entry_fields (a b c d e : Nat) :
    (0 + a % 2 ^ 32 * 2 ^ 0 + b % 2 ^ 1 * 2 ^ 32 + c % 2 ^ 1 * 2 ^ 33 + d % 2 ^ 1 * 2 ^ 34 + e % 2 ^ 7 * 2 ^ 35) % 256 ^ 8 / 2 ^ 32 % 2 = b % 2 ∧
    (0 + a % 2 ^ 32 * 2 ^ 0 + b % 2 ^ 1 * 2 ^ 32 + c % 2 ^ 1 * 2 ^ 33 + d % 2 ^ 1 * 2 ^ 34 + e % 2 ^ 7 * 2 ^ 35) % 256 ^ 8 / 2 ^ 35 % 2 ^ 7 = e % 2 ^ 7 := by
  omega

/-- R212: a fresh entry is valid with a fill of 1. -/
theorem ptWord_fresh (a : Nat) (hollow : Bool) :
    ptValid (ptWord a true hollow false 1 % 256 ^ 8) = true ∧ ptFill (ptWord a true hollow false 1 % 256 ^ 8) = 1 := by
  rw [ptWord, pack_entry, ptValid, ptFill, bitsOf, Nat.testBit_eq_decide_div_mod_eq, Nat.shiftRight_eq_div_pow, decide_eq_true_eq,
    (entry_fields _ _ _ _ _).1, (entry_fields _ _ _ _ _).2]
  decide

/-- R212: the metadata of the pool is written to external memory alone. -/
theorem State.kvMeta_within (s : State) (v n : Nat) : s.Within 0x1c00007800000000000100000002 (s.kvMeta v n) := by
  unfold State.kvMeta
  exact State.when_frame (State.when_frame (s.frame_refl _) fun _ h => State.hbmWrite_frame (Sub.refl _) h) fun _ h => State.hbmWrite_frame (Sub.refl _) h

/-! ### KV_WRITE, R214 -/

theorem State.kvPool_setKv (s : State) (v : Nat) (k : KvPool) : (s.setKv v k).kvPool v = k := Tbl.getD_put_same _ _ _ _

/-- R214: the state that the first position of a page leaves. -/
def State.pageOpened (s : State) (v slot p off : Nat) (data : List Nat) (hollow : Bool) : State :=
  ((((s.setKv v { resv := Tbl.putD (s.kvPool v).resv 0 slot (Tbl.getD (s.kvPool v).resv slot 0 - 1),
                  users := Tbl.put (s.kvPool v).users (s.kvFreeSlot v) [(slot, p)] }).hbmPut
      (s.kvSlotAddr v (s.kvFreeSlot v) * 256 + off) (data.map fun b => (b, hollow))).setPt v slot p
      (ptWord (s.kvSlotAddr v (s.kvFreeSlot v)) true hollow false 1))).kvMeta v (s.kvFreeSlot v)

theorem State.kvWrite_opens {s : State} {v slot pos : Nat} (hp : pos / 64 < s.rf R.VCORE_PT_ENTRIES v)
    (hinv : ptValid (s.ptEntry v slot (pos / 64)) = false) (hpos : pos % 64 = 0) (hresv : Tbl.getD (s.kvPool v).resv slot 0 ≠ 0)
    (off : Nat) (data : List Nat) (hollow : Bool) :
    s.kvWrite v slot pos off data hollow = (true, s.pageOpened v slot (pos / 64) off data hollow) := by
  unfold State.kvWrite
  dsimp only
  rw [if_neg (by omega), hinv, if_neg (by decide), if_neg (by simp [hpos, hresv])]
  rfl

theorem State.pageOpened_is (s : State) (v slot p off : Nat) (data : List Nat) (hollow : Bool) :
    (s.pageOpened v slot p off data hollow).kvPool v = { resv := Tbl.putD (s.kvPool v).resv 0 slot (Tbl.getD (s.kvPool v).resv slot 0 - 1),
                                                           users := Tbl.put (s.kvPool v).users (s.kvFreeSlot v) [(slot, p)] } ∧
    ptValid ((s.pageOpened v slot p off data hollow).ptEntry v slot p) = true ∧
    ptFill ((s.pageOpened v slot p off data hollow).ptEntry v slot p) = 1 ∧
    (s.pageOpened v slot p off data hollow).rf R.VCORE_HBM_BYTES v = s.rf R.VCORE_HBM_BYTES v := by
  unfold State.pageOpened
  generalize hk : KvPool.mk (Tbl.putD (s.kvPool v).resv 0 slot (Tbl.getD (s.kvPool v).resv slot 0 - 1))
    (Tbl.put (s.kvPool v).users (s.kvFreeSlot v) [(slot, p)]) = k
  have hput : (s.setKv v k).Within 0x1c00007800000000000100000002 ((s.setKv v k).hbmPut (s.kvSlotAddr v (s.kvFreeSlot v) * 256 + off)
      (data.map fun b => (b, hollow))) := State.hbmPut_frame (Sub.refl _) (State.frame_refl _ _)
  generalize (s.setKv v k).hbmPut _ _ = t at *
  have hmeta := (t.setPt v slot p (ptWord (s.kvSlotAddr v (s.kvFreeSlot v)) true hollow false 1)).kvMeta_within v (s.kvFreeSlot v)
  have hpt : t.Within (touch [] [.sram]) (t.setPt v slot p (ptWord (s.kvSlotAddr v (s.kvFreeSlot v)) true hollow false 1)) :=
    State.setPt_frame (by decide) (t.frame_refl _)
  obtain ⟨hvalid, hfill⟩ := ptWord_fresh (s.kvSlotAddr v (s.kvFreeSlot v)) hollow
  rw [hmeta.ptEntry (by decide) (by decide) (by decide), State.ptEntry_setPt, hmeta.rf (by decide), hpt.rf (by decide), hput.rf (by decide)]
  refine ⟨?_, hvalid, hfill, rfl⟩
  unfold State.kvPool
  rw [hmeta.kv (by decide), hpt.kv (by decide), hput.kv (by decide)]
  exact State.kvPool_setKv _ _ _

theorem kvWrite_completes {v slot pos off mode : Nat} {o : KvPart} {k : KStep} {s : State} (hk : (s.vcSt v).step = some k)
    (hp : pos / 64 < s.rf R.VCORE_PT_ENTRIES v) (hinv : ptValid ((s.kvPart v pos mode k o).2.2.ptEntry v slot (pos / 64)) = false)
    (hpos : pos % 64 = 0) (hresv : Tbl.getD (s.kvPool v).resv slot 0 ≠ 0) :
    Completes (.kvWrite v slot pos off mode [o]) s fun t =>
      t.kvPool v = { resv := Tbl.putD (s.kvPool v).resv 0 slot (Tbl.getD (s.kvPool v).resv slot 0 - 1),
                     users := Tbl.put (s.kvPool v).users (s.kvFreeSlot v) [(slot, pos / 64)] } ∧
      ptValid (t.ptEntry v slot (pos / 64)) = true ∧ ptFill (t.ptEntry v slot (pos / 64)) = 1 ∧
      t.rf R.VCORE_HBM_BYTES v = (s.rf R.VCORE_HBM_BYTES v +
        ((s.kvPart v pos mode k o).1.take (s.rf R.VCORE_PAGE_UNITS v * 256 - off)).length) % 2 ^ 64 := by
  have hpart : s.Within 0x802000001800000000000000100000 (s.kvPart v pos mode k o).2.2 := State.kvPart_frame (Sub.refl _) (s.frame_refl _)
  have hpool : (s.kvPart v pos mode k o).2.2.kvPool v = s.kvPool v := by
    unfold State.kvPool
    rw [hpart.kv (by decide)]
  have hfree : (s.kvPart v pos mode k o).2.2.kvFreeSlot v = s.kvFreeSlot v := by
    unfold State.kvFreeSlot
    rw [hpool]
  have hopen := State.kvWrite_opens (s := (s.kvPart v pos mode k o).2.2) (by rw [State.rf_kvPart _ _ _ _ _ _ (by decide)]; exact hp) hinv hpos
    (by rw [hpool]; exact hresv) off ((s.kvPart v pos mode k o).1.take (s.rf R.VCORE_PAGE_UNITS v * 256 - off)) (s.kvPart v pos mode k o).2.1
  obtain ⟨hkv, hvalid, hfill, hbytes⟩ := (s.kvPart v pos mode k o).2.2.pageOpened_is v slot (pos / 64) off
    ((s.kvPart v pos mode k o).1.take (s.rf R.VCORE_PAGE_UNITS v * 256 - off)) (s.kvPart v pos mode k o).2.1
  rw [hpool, hfree] at hkv
  rw [State.rf_kvPart _ _ _ _ _ _ (by decide)] at hbytes
  have hinc (u : State) (n : Nat) : u.Within (touch [0x14] []) (u.inc R.VCORE_HBM_BYTES v n) := State.inc_frame (by decide) (u.frame_refl _)
  have hkvInc (u : State) (n : Nat) : (u.inc R.VCORE_HBM_BYTES v n).kvPool v = u.kvPool v := by
    unfold State.kvPool
    rw [(hinc u n).kv (by decide)]
  have hptInc (u : State) (n : Nat) : (u.inc R.VCORE_HBM_BYTES v n).ptEntry v slot (pos / 64) = u.ptEntry v slot (pos / 64) := by
    unfold State.ptEntry State.sramRead State.ptOff
    rw [(hinc u n).sram (by decide), (hinc u n).physOf (by decide), State.rf_inc_of_code _ (by decide), State.rf_inc_of_code _ (by decide)]
  refine completes_of_next rfl ?_
  unfold State.kvWriteStep
  rw [hk]
  dsimp only [List.foldl_cons, List.foldl_nil, List.nil_append]
  rw [Bool.false_or, hopen]
  dsimp only
  rw [State.when_true, hkvInc, hptInc, State.rf_inc_wrap _ _ (by decide), hkv, hbytes]
  exact ⟨rfl, hvalid, hfill, rfl⟩

/-! ### KV commands, R213, R224 -/

/-- R213: the first waiting command is carried out, and answered. -/
theorem State.kvCommand_of {s : State} {v : Nat} {c : KvCmd} {rest : List KvCmd} (hq : (s.vcSt v).kvq = c :: rest) (hstep : (s.vcSt v).step = none)
    (hfire : s.fireGated (.core v) = false) (hreset : s.inReset (.core v) = false) (hslot : s.kvSlotOk v c.slot = true)
    (hslot2 : c.op = 2 → s.kvSlotOk v c.slot2 = true) :
    s.kvCommand v c.op =
      if c.op = 0 then ((s.setVc v { s.vcSt v with kvq := rest }).kvReserve v c.slot c.count).2.kvReply c.score
        (bit !((s.setVc v { s.vcSt v with kvq := rest }).kvReserve v c.slot c.count).1)
      else if c.op = 1 then ((s.setVc v { s.vcSt v with kvq := rest }).kvRelease v c.slot).kvReply c.score 0
      else if s.rf R.VCORE_PT_ENTRIES v < c.count then (s.setVc v { s.vcSt v with kvq := rest }).kvReply c.score 1
      else ((s.setVc v { s.vcSt v with kvq := rest }).kvShare v c.slot c.slot2 c.count).2.kvReply c.score
        (bit !((s.setVc v { s.vcSt v with kvq := rest }).kvShare v c.slot c.slot2 c.count).1) := by
  have hok : (!s.kvSlotOk v c.slot || (c.op = 2 && !s.kvSlotOk v c.slot2)) = false := by
    rw [hslot]
    by_cases h2 : c.op = 2
    · rw [hslot2 h2]
      simp
    · simp [h2]
  unfold State.kvCommand
  dsimp only
  rw [hq]
  dsimp only
  rw [if_neg (by simp [hstep, hfire, hreset]), hok]
  rfl

/-- R224: the reply to a command of an S-core. -/
theorem State.rf_kvReply {s : State} {score : Nat} (h : score ≠ 0xFFFF) :
    (s.kvReply score 0).rf R.LCB_KV_RESULT score = 0 ∧ (s.kvReply score 0).rf R.LCB_KV_GO score = 0 := by
  unfold State.kvReply
  rw [if_neg h, State.rf_wf_of_code _ (by decide), State.rf_wf_same, State.rf_wf_same]
  decide

/-- A command carried out leaves the others waiting. -/
theorem State.kvq_of_within {s t : State} {m v : Nat} {x : VcSt} (h : (s.setVc v x).Within m t) (hm : m.testBit 119 = false) (score r : Nat) :
    ((t.kvReply score r).vcSt v).kvq = x.kvq := by
  have hreply : t.Within 0x80000000000000000000 (t.kvReply score r) := State.kvReply_frame (Sub.refl _) (t.frame_refl _)
  unfold State.vcSt
  rw [hreply.vc (by decide), h.vc hm]
  exact congrArg VcSt.kvq (State.vcSt_setVc _ _ _)

theorem State.kvPool_kvReply (s : State) (score r v : Nat) : (s.kvReply score r).kvPool v = s.kvPool v := by
  unfold State.kvPool
  rw [(State.kvReply_frame (Sub.refl _) (s.frame_refl _) : s.Within 0x80000000000000000000 (s.kvReply score r)).kv (by decide)]

theorem State.kvPool_setVc (s : State) (v n : Nat) (x : VcSt) : (s.setVc v x).kvPool n = s.kvPool n := by
  unfold State.kvPool
  rw [(State.setVc_frame (Sub.refl _) (s.frame_refl _) : s.Within 0x800000000000000000000000100000 (s.setVc v x)).kv (by decide)]

theorem kvReserve_completes {v : Nat} {c : KvCmd} {rest : List KvCmd} {s : State} (hq : (s.vcSt v).kvq = c :: rest) (hop : c.op = 0)
    (hscore : c.score ≠ 0xFFFF) (hstep : (s.vcSt v).step = none) (hfire : s.fireGated (.core v) = false) (hreset : s.inReset (.core v) = false)
    (hslot : s.kvSlotOk v c.slot = true) (hroom : c.count ≤ s.kvFree v - s.kvReserved v) :
    Completes (.kvReserve v) s fun t =>
      (t.vcSt v).kvq = rest ∧ t.rf R.LCB_KV_RESULT c.score = 0 ∧ t.rf R.LCB_KV_GO c.score = 0 ∧
      t.kvPool v = { s.kvPool v with resv := Tbl.putD (s.kvPool v).resv 0 c.slot (Tbl.getD (s.kvPool v).resv c.slot 0 + c.count) } := by
  have hcmd := State.kvCommand_of hq hstep hfire hreset hslot (by omega)
  rw [hop, if_pos rfl] at hcmd
  have hpool := s.kvPool_setVc v v { s.vcSt v with kvq := rest }
  have hres : (s.setVc v { s.vcSt v with kvq := rest }).kvReserve v c.slot c.count =
      (true, (s.setVc v { s.vcSt v with kvq := rest }).setKv v
        { s.kvPool v with resv := Tbl.putD (s.kvPool v).resv 0 c.slot (Tbl.getD (s.kvPool v).resv c.slot 0 + c.count) }) := by
    unfold State.kvReserve
    rw [if_pos (by unfold State.kvFree State.kvReserved; rw [hpool, State.rf_setVc _ _ _ (by decide)]; exact hroom), hpool]
  refine completes_of_next rfl ?_
  rw [hcmd, hres]
  have hkv : (s.setVc v { s.vcSt v with kvq := rest }).Within (touch [] [.kv]) ((s.setVc v { s.vcSt v with kvq := rest }).setKv v
      { s.kvPool v with resv := Tbl.putD (s.kvPool v).resv 0 c.slot (Tbl.getD (s.kvPool v).resv c.slot 0 + c.count) }) :=
    State.setKv_frame (by decide) (State.frame_refl _ _)
  refine ⟨State.kvq_of_within hkv (by decide) _ _, (State.rf_kvReply hscore).1, (State.rf_kvReply hscore).2, ?_⟩
  rw [State.kvPool_kvReply, State.kvPool_setKv]

theorem kvRelease_completes {v : Nat} {c : KvCmd} {rest : List KvCmd} {s : State} (hq : (s.vcSt v).kvq = c :: rest) (hop : c.op = 1)
    (hscore : c.score ≠ 0xFFFF) (hstep : (s.vcSt v).step = none) (hfire : s.fireGated (.core v) = false) (hreset : s.inReset (.core v) = false)
    (hslot : s.kvSlotOk v c.slot = true) :
    Completes (.kvRelease v) s fun t =>
      (t.vcSt v).kvq = rest ∧ t.rf R.LCB_KV_RESULT c.score = 0 ∧ t.rf R.LCB_KV_GO c.score = 0 ∧ Tbl.get? (t.kvPool v).resv c.slot = none := by
  have hcmd := State.kvCommand_of hq hstep hfire hreset hslot (by omega)
  rw [hop, if_neg (by decide), if_pos rfl] at hcmd
  refine completes_of_next rfl ?_
  rw [hcmd]
  have hrel : (s.setVc v { s.vcSt v with kvq := rest }).Within 0x3e00007800000000000100100002 ((s.setVc v { s.vcSt v with kvq := rest }).kvRelease v c.slot) :=
    State.kvRelease_frame (Sub.refl _) (State.frame_refl _ _)
  refine ⟨State.kvq_of_within hrel (by decide) _ _, (State.rf_kvReply hscore).1, (State.rf_kvReply hscore).2, ?_⟩
  rw [State.kvPool_kvReply]
  unfold State.kvRelease
  rw [State.kvPool_setKv]
  exact Tbl.get_del_same _ _

theorem kvShare_completes {v : Nat} {c : KvCmd} {rest : List KvCmd} {s : State} (hq : (s.vcSt v).kvq = c :: rest) (hop : c.op = 2)
    (hscore : c.score ≠ 0xFFFF) (hstep : (s.vcSt v).step = none) (hfire : s.fireGated (.core v) = false) (hreset : s.inReset (.core v) = false)
    (hslot : s.kvSlotOk v c.slot = true) (hslot2 : s.kvSlotOk v c.slot2 = true) (hcount : c.count ≤ s.rf R.VCORE_PT_ENTRIES v)
    (hpages : ∀ p ∈ List.range c.count, ptValid (s.ptEntry v c.slot p) = true ∧ ptFill (s.ptEntry v c.slot p) = 64 ∧
      (Tbl.getD (s.kvPool v).users (s.kvSlotOf v (ptAddr (s.ptEntry v c.slot p))) []).length < 255) :
    Completes (.kvShare v) s fun t => (t.vcSt v).kvq = rest ∧ t.rf R.LCB_KV_RESULT c.score = 0 ∧ t.rf R.LCB_KV_GO c.score = 0 := by
  have hcmd := State.kvCommand_of hq hstep hfire hreset hslot (fun _ => hslot2)
  rw [hop, if_neg (by decide), if_neg (by decide), if_neg (by omega)] at hcmd
  have hset : s.Within 0x800000000000000000000000100000 (s.setVc v { s.vcSt v with kvq := rest }) := State.setVc_frame (Sub.refl _) (s.frame_refl _)
  have hentry (p : Nat) : (s.setVc v { s.vcSt v with kvq := rest }).ptEntry v c.slot p = s.ptEntry v c.slot p := by
    unfold State.ptEntry State.sramRead State.ptOff
    rw [hset.sram (by decide), hset.physOf (by decide), State.rf_setVc _ _ _ (by decide), State.rf_setVc _ _ _ (by decide)]
  have hslotOf (a : Nat) : (s.setVc v { s.vcSt v with kvq := rest }).kvSlotOf v a = s.kvSlotOf v a := by
    unfold State.kvSlotOf
    rw [State.rf_setVc _ _ _ (by decide), State.rf_setVc _ _ _ (by decide)]
  have hgranted : ((s.setVc v { s.vcSt v with kvq := rest }).kvShare v c.slot c.slot2 c.count).1 = true := by
    unfold State.kvShare
    rw [if_pos]
    rw [List.all_eq_true]
    intro p hp
    obtain ⟨hvalid, hfill, husers⟩ := hpages p hp
    rw [hentry, hslotOf, State.kvPool_setVc, hvalid, hfill, decide_eq_true husers]
    rfl
  refine completes_of_next rfl ?_
  rw [hcmd, hgranted]
  have hshare : (s.setVc v { s.vcSt v with kvq := rest }).Within 0x3e00007800000000000100100002
      ((s.setVc v { s.vcSt v with kvq := rest }).kvShare v c.slot c.slot2 c.count).2 := State.kvShare_frame (Sub.refl _) (State.frame_refl _ _)
  exact ⟨State.kvq_of_within hshare (by decide) _ _, (State.rf_kvReply hscore).1, (State.rf_kvReply hscore).2⟩

/-- Settles O20. -/
theorem kvPagesComplete : Obligations.KvPagesComplete :=
  ⟨fun _ _ _ _ _ _ _ _ => kvWrite_completes, fun _ _ _ _ => kvReserve_completes, fun _ _ _ _ => kvRelease_completes, fun _ _ _ _ => kvShare_completes⟩

end Sys2Proof.Machine
end

section
/-! S-cores (R220 to R224; O21). -/

namespace Sys2Proof.Machine

theorem State.scSt_setSc (s : State) (ck : Nat) (x : ScSt) : (s.setSc ck x).scSt ck = x := Tbl.getD_put_same _ _ _ _

theorem State.scSt_of_sc {s t : State} (h : t.sc = s.sc) (ck : Nat) : t.scSt ck = s.scSt ck := by
  unfold State.scSt
  rw [h]

/-! ### Exceptions and interrupts, R221, R223, R224 -/

theorem accessFault_completes {ck pc a n kind c : Nat} {s : State} (hrun : s.scoreRuns ck = true) (hc : s.accessCause ck a n kind = some c) :
    Completes (.accessFault ck pc a n kind) s fun t =>
      t = { s with sc := t.sc } ∧ t.scSt ck = { s.scSt ck with
        mcause := c, mtval := a, mepc := pc, mpie := (s.scSt ck).mie, mie := false, mpp := (s.scSt ck).mode, mode := 3,
        pc := (s.scSt ck).mtvec / 4 * 4 } := by
  refine completes_of_next rfl ?_
  unfold State.accessFault
  rw [if_pos hrun, hc]
  exact ⟨rfl, s.scSt_setSc _ _⟩

theorem hollowLoad_completes {ck pc a n : Nat} {s : State} (hrun : s.scoreRuns ck = true) :
    Completes (.hollowLoad ck pc a n true) s fun t =>
      t.rf R.SCORE_TRAPPED ck = 1 ∧ t.rf R.SCORE_LAST_TRAP_CAUSE ck = 24 ∧ t.rf R.SCORE_LAST_TRAP_TVAL ck = a % 2 ^ 64 ∧
      t.rf R.SCORE_LAST_TRAP_STAMP ck = s.now % 2 ^ 64 ∧ t.scSt ck = { s.scSt ck with
        mcause := 24, mtval := a, mepc := pc, mpie := (s.scSt ck).mie, mie := false, mpp := (s.scSt ck).mode, mode := 3,
        pc := (s.scSt ck).mtvec / 4 * 4 } := by
  have hint (u : State) : u.Within (touch [0x15] [.irqLatch, .irqs]) (u.setInt (scorePage ck) R.INT_SCORE_HOLLOW_LOAD) :=
    State.setInt_frame (by decide) (by rw [show (scorePage ck).area = 0x15 by simp [scorePage, Page.area]]; decide) (u.frame_refl _)
  refine completes_of_next rfl ?_
  unfold State.hollowLoad
  rw [hrun, if_pos (by simp)]
  unfold State.customTrap
  rw [State.scSt_of_sc ((hint _).sc (by decide))]
  simp (disch := decide) only [State.rf_setInt_plain, State.rf_wf_same, State.rf_wf_of_code]
  exact ⟨rfl, rfl, rfl, rfl, s.scSt_setSc _ _⟩

theorem mtimecmpInterrupt_completes {ck : Nat} {s : State} (hck : s.isScore ck = true) (hreset : s.inReset (.core ck) = false)
    (hdue : s.rf R.LCB_MTIMECMP ck ≤ s.now) :
    Completes (.mtimecmpInterrupt ck) s fun t => t = { s with sc := t.sc } ∧ t.scSt ck = { s.scSt ck with timerIrq := true } := by
  refine completes_of_next rfl ?_
  unfold State.mtimecmp State.timerLevel
  rw [hck, hreset, decide_eq_true hdue]
  exact ⟨rfl, s.scSt_setSc _ _⟩

theorem mailbox_completes {ck w : Nat} {s : State} (hck : s.isScore ck = true) (hreset : s.inReset (.core ck) = false) :
    Completes (.mailbox ck w) s fun t =>
      t.rf R.LCB_MAILBOX ck = w % 2 ^ 64 ∧ t.scSt ck = { s.scSt ck with mailIrq := true } ∧ t = { s with regs := t.regs, sc := t.sc } := by
  refine completes_of_next rfl ?_
  unfold State.mailbox
  rw [hck, hreset]
  exact ⟨s.rf_wf_same _ _ _ _, State.scSt_setSc _ _ _, rfl⟩

theorem scoreHeartbeat_completes {ck w : Nat} {s : State} (hrun : s.scoreRuns ck = true) :
    Completes (.scoreHeartbeat ck w) s fun t =>
      t.scSt ck = { s.scSt ck with beatAt := s.elapsed } ∧ t.rf R.SCORE_LAST_HEARTBEAT ck = s.now % 2 ^ 64 := by
  refine completes_of_next rfl ?_
  unfold State.scoreStore
  rw [if_pos hrun]
  exact ⟨s.scSt_setSc _ _, State.rf_wf_same _ _ _ _ _⟩

/-! ### Loads of registers, R221 -/

/-- R37, R59: a read that no check stops answers OK, and leaves the S-cores' own state. -/
theorem State.Reads.ok {s : State} {m : Master} {p : Page} {off : Nat} (h : s.Reads m p off) :
    (s.readReg m p off).1 = 0 ∧ (s.readReg m p off).2.2.sc = s.sc := by
  obtain ⟨-, halign, -, hexists, hreach, hpage⟩ := h
  have hw : s.Within 0x1004078ffffffffffffffffffff (s.readReg m p off).2.2 := State.readReg_frame (by decide) (Sub.anyPage (Sub.refl _) (by decide) _) (s.frame_refl _)
  refine ⟨?_, hw.sc (by decide)⟩
  unfold State.readReg
  dsimp only
  rw [if_neg (by simp [hexists]), if_neg (by simp [halign]), if_neg (by simp [hreach])]
  by_cases hlow : off < 0x100
  · rw [if_pos hlow]
    rfl
  · obtain ⟨hreset, habsent⟩ := hpage (by omega)
    rw [if_neg hlow, hreset, habsent]
    rfl

/-- R221: a load of a register by an S-core, whose value and result the S-core keeps. -/
theorem State.scoreAccess_load {s u : State} {ck a v : Nat} {p : Page} (pc : Nat) (h1 : s.scoreRuns ck = true) (h2 : inWindow a = true)
    (h3 : Page.ofIndex (a / 4096 % 2 ^ 28) = p) (h4 : a % 8 = 0) (hr : s.readReg (.score ck) p (a % 4096) = (0, v, u)) :
    s.scoreAccess ck pc a 8 none = u.setSc ck { u.scSt ck with result := 0, value := v } := by
  unfold State.scoreAccess
  simp only [h1, h2, h3, hr, s.accessCause_window h2 h4 (show bit (none : Option Nat).isSome < 2 from Nat.zero_lt_two), Bool.not_true, Bool.or_self,
    Bool.false_eq_true, if_false, ne_eq, not_true]
  rfl

theorem registerResult_completes {ck pc : Nat} {p : Page} {off : Nat} {s : State} (h : s.Reads (.score ck) p off) :
    Completes (.registerResult ck pc (p.addr + off) { bytes := 8, store := none }) s fun t =>
      t.scSt ck = { s.scSt ck with result := 0, value := (s.readReg (.score ck) p off).2.1 } := by
  obtain ⟨hok, hsc⟩ := State.Reads.ok h
  obtain ⟨hrun, halign, hoff, hexists, -, -⟩ := h
  obtain ⟨hwin, -, hpage, hmod, -⟩ := Page.addr_facts hexists hoff
  have hread : s.readReg (.score ck) p ((p.addr + off) % 4096) = (0, (s.readReg (.score ck) p off).2.1, (s.readReg (.score ck) p off).2.2) := by
    rw [hmod, ← hok]
  have halign' : (p.addr + off) % 8 = 0 := by omega
  refine completes_of_next rfl ?_
  rw [State.scoreAccess_load pc hrun hwin hpage halign' hread, State.scSt_setSc, State.scSt_of_sc hsc]

/-! ### The start of an S-core, R222 -/

/-- R47: a write of CTL by Oasis that no check stops. -/
theorem State.Writes.oasisCtl {s : State} {p : Page} {w : Nat} (h : s.Writes .oasis p 0x20 w) :
    ∃ y, s.pageStore .oasis p 0x20 w = { s.writeCtl .oasis p w with resp := y } := by
  obtain ⟨⟨-, -, hoff, hexists, hreach, -⟩, hlt, -, -, hrestr, -, hbad⟩ := h
  obtain ⟨hwin, hhigh, hpage, hmod, -⟩ := Page.addr_facts hexists hoff
  have hreg : s.writeReg .oasis p 0x20 w = (0, s.writeCtl .oasis p w) := by
    unfold State.writeReg
    rw [Nat.mod_eq_of_lt hlt]
    simp [hexists, hreach, hrestr, hbad, arOk, Master.code, State.writeHeader]
  obtain ⟨y, hy⟩ := s.masterStore_oasis (p.addr + 0x20) w
  refine ⟨y, hy.trans ?_⟩
  rw [State.wordWrite_of hhigh hwin hpage (by rw [hmod]; exact hreg)]

/-- R47, R51: the common part of a write of CTL: the word's fields, the page's interrupt and its error. -/
def State.ctlStored (s : State) (m : Master) (p : Page) (w : Nat) : State :=
  (((s.storeWord m p 0x20 w).wf p.irqEn p.inst (bitsOf w 0 1)).irqUpdate p).when (w.testBit 1) fun t => t.rearm p

theorem State.ctlStored_within (s : State) (m : Master) (p : Page) (w : Nat) : s.Within 0x18ffffffffffffffffffff (s.ctlStored m p w) := by
  have hany : ∀ f : Field, Nat.testBit 0x18ffffffffffffffffffff f.area = true := fun f => Sub.any (Sub.refl _) (by decide) f
  exact State.when_frame (State.irqUpdate_frame (by decide) (State.wf_frame (hany _) (State.storeWord_frame (by decide) (s.frame_refl _))))
    fun _ h => State.rearm_frame (by decide) h

/-- R222: CTL.RUN set where it was 0 starts the S-core. -/
theorem State.writeCtl_run {s : State} {ck w : Nat} (hset : w.testBit 32 = true) (h8 : w.testBit 8 = false) (hrun : s.rb R.SCORE_RUN ck = false)
    (hreset : s.inReset (.core ck) = false) (habsent : s.isAbsent ck = false) :
    s.writeCtl .oasis (scorePage ck) w = (s.ctlStored .oasis (scorePage ck) w).scoreStart ck := by
  have hinst : (scorePage ck).inst = ck := rfl
  have hdom : (scorePage ck).resetDom = some (.core ck) := rfl
  unfold State.writeCtl
  dsimp only
  rw [hdom, hinst, hset, h8, hrun, hreset, habsent]
  rfl

theorem State.scoreStart_is (s : State) (ck : Nat) :
    (s.scoreStart ck).rf R.SCORE_RUNNING ck = 1 ∧ (s.scoreStart ck).rf R.SCORE_RUN ck = 1 ∧
    (s.scoreStart ck).scSt ck = { s.scSt ck with pc := s.rf R.SCORE_BOOT_ADDR ck, mode := 3, beatAt := s.elapsed } := by
  have hset (u : State) (x : ScSt) (f : Field) : (u.setSc ck x).rf f ck = u.rf f ck := rfl
  have hwf (u : State) (f : Field) (v : Nat) : (u.wf f ck v).scSt ck = u.scSt ck := rfl
  unfold State.scoreStart
  dsimp only
  rw [hset, hset, State.scSt_setSc]
  simp (disch := decide) only [State.rf_wf_same, State.rf_wf_of_code, State.wf_elapsed, hwf]
  decide

theorem scoreRun_completes {ck w : Nat} {s : State} (h : s.Writes .oasis (scorePage ck) 0x20 (w ||| 2 ^ 32)) (h8 : w.testBit 8 = false)
    (hrun : s.rb R.SCORE_RUN ck = false) (hreset : s.inReset (.core ck) = false) (habsent : s.isAbsent ck = false) :
    Completes (.scoreRun ck w) s fun t =>
      t.rf R.SCORE_RUNNING ck = 1 ∧ t.rf R.SCORE_RUN ck = 1 ∧
      t.scSt ck = { s.scSt ck with pc := s.rf R.SCORE_BOOT_ADDR ck, mode := 3, beatAt := s.elapsed } := by
  have hset : (w ||| 2 ^ 32).testBit 32 = true := by rw [Nat.testBit_or, Nat.testBit_two_pow_self, Bool.or_true]
  have h8' : (w ||| 2 ^ 32).testBit 8 = false := by rw [Nat.testBit_or, h8, Nat.testBit_two_pow_of_ne (by decide)]; rfl
  have hstored := s.ctlStored_within .oasis (scorePage ck) (w ||| 2 ^ 32)
  have hboot : (s.ctlStored .oasis (scorePage ck) (w ||| 2 ^ 32)).rf R.SCORE_BOOT_ADDR ck = s.rf R.SCORE_BOOT_ADDR ck := by
    have hwhen (u : State) (b : Bool) : (u.when b fun t => t.rearm (scorePage ck)).rf R.SCORE_BOOT_ADDR ck = u.rf R.SCORE_BOOT_ADDR ck := by
      cases b with
      | false => rfl
      | true => exact u.rf_rearm_body _ (by decide) _ _
    have hirq (u : State) : (u.irqUpdate (scorePage ck)).rf R.SCORE_BOOT_ADDR ck = u.rf R.SCORE_BOOT_ADDR ck :=
      (State.irqUpdate_frame (M := 0x1800000000000000000000) (Sub.refl _) (u.frame_refl _)).rf (by decide)
    unfold State.ctlStored
    rw [hwhen, hirq, State.rf_wf_of_code _ ((by decide : R.SCORE_BOOT_ADDR.body).ne_irqEn _), State.rf_storeWord_of_code]
    exact (by decide : ∀ fk ∈ wordFields (scorePage 0) 0x20, R.SCORE_BOOT_ADDR.code ≠ fk.1.code)
  obtain ⟨y, hy⟩ := State.Writes.oasisCtl h
  refine completes_of_next rfl ?_
  rw [hy, State.writeCtl_run hset h8' hrun hreset habsent]
  have hresp (u : State) (f : Field) : ({ u with resp := y }).rf f ck = u.rf f ck ∧ ({ u with resp := y }).scSt ck = u.scSt ck := ⟨rfl, rfl⟩
  obtain ⟨hrunning, hrun1, hsc⟩ := (s.ctlStored .oasis (scorePage ck) (w ||| 2 ^ 32)).scoreStart_is ck
  rw [(hresp _ _).1, (hresp _ _).1, (hresp _ R.SCORE_RUN).2, hrunning, hrun1, hsc, hboot, hstored.elapsed (by decide),
    State.scSt_of_sc (hstored.sc (by decide))]
  exact ⟨rfl, rfl, rfl⟩

/-- Settles O21. -/
theorem scalarCoresComplete : Obligations.ScalarCoresComplete :=
  ⟨fun _ _ _ _ _ _ _ => accessFault_completes, fun _ _ _ _ _ => hollowLoad_completes, fun _ _ => mtimecmpInterrupt_completes,
    fun _ _ _ => mailbox_completes, fun _ _ _ => scoreHeartbeat_completes, fun _ _ _ _ _ => registerResult_completes,
    fun _ _ _ => scoreRun_completes⟩

end Sys2Proof.Machine
end

section
/-! Requests and contexts that end, and the drain of a variant (R283, R307, R308, R315, R316; O31). -/

namespace Sys2Proof.Machine

/-! ### Requests and contexts found after a change, R283 -/

theorem Tbl.get_update {α : Type} (t : Tbl α) (f : Nat → α → α) (x : Nat) : Tbl.get? (Tbl.update t f) x = (Tbl.get? t x).map (f x) := by
  unfold Tbl.update
  induction t with
  | nil => rfl
  | cons e t ih =>
    simp only [List.map_cons, Tbl.get?]
    by_cases h : e.1 = x
    · simp [h]
    · simpa [h] using ih

theorem State.req_setReq (s : State) (id : Nat) {f : Req → Req} (hf : ∀ r, (f r).id = r.id) : (s.setReq id f).req id = (s.req id).map f := by
  unfold State.req State.setReq
  induction s.reqs with
  | nil => rfl
  | cons r rs ih =>
    simp only [List.map_cons, List.find?_cons]
    by_cases h : r.id = id
    · simp [h, hf]
    · simpa [h] using ih

theorem State.ctxOf_setCtx (s : State) (h : Nat) {f : Ctx → Ctx} (hf : ∀ x, (f x).reuse = x.reuse) : (s.setCtx h f).ctxOf h = (s.ctxOf h).map f := by
  unfold State.ctxOf State.setCtx
  dsimp only
  rw [Tbl.get_update]
  cases Tbl.get? s.ctxs (h % 65536) with
  | none => rfl
  | some x =>
    simp only [Option.map_some, if_true, hf]
    split <;> rfl

theorem State.req_of_reqs {s t : State} (h : t.reqs = s.reqs) (id : Nat) : t.req id = s.req id := by rw [State.req, h, State.req]

theorem State.ctxOf_of_ctxs {s t : State} (h : t.ctxs = s.ctxs) (x : Nat) : t.ctxOf x = s.ctxOf x := by rw [State.ctxOf, h, State.ctxOf]

/-! ### What the end of a request keeps of the serving pages, R307, R308, R318 -/

/-- The fields of the serving pages that the end of a request may change. -/
def outcomeFields : List Nat :=
  [R.SERVE_OPEN, R.SERVE_QUEUED, R.SERVE_CONTEXTS, R.SERVE_QUEUE_FULL, R.SERVE2_OPEN, R.SERVE2_CONTEXTS, R.SERVE_ENDED,
    R.SERVE_ABNORMAL_ENDS].map Field.code

/-- A field of the serving pages, of no common header, and none of those. -/
abbrev Field.settled (g : Field) : Prop := g.plain ∧ g.area = 0x38 ∧ g.code ∉ outcomeFields

theorem Field.settled.ne {g : Field} (hg : g.settled) {f : Field} (hf : f.code ∈ outcomeFields := by decide) : g.code ≠ f.code :=
  fun h => hg.2.2 (by rw [h]; exact hf)

theorem Field.settled.ne_area {g : Field} (hg : g.settled) {f : Field} (hf : f.area ≠ 0x38 := by decide) : g.code ≠ f.code :=
  Field.code_ne_of_area (by rw [hg.2.1]; exact hf.symm)

/-- R307, R308: what an outcome fixed changes: RING.FIXED and RING.DISCARDED of the ring, and SERVE.ABNORMAL_ENDS. -/
theorem State.rf_fixOutcome_of_code (s : State) {g : Field} (hg : g.plain) (hends : g.code ≠ R.SERVE_ABNORMAL_ENDS.code)
    (hfixed : g.code ≠ R.RING_FIXED.code) (hlost : g.code ≠ R.RING_DISCARDED.code) (id status reason j l : Nat) :
    (s.fixOutcome id status reason).rf g j l = s.rf g j l := by
  have hctx (u : State) (b : Bool) (h : Nat) (f : Ctx → Ctx) : (u.when b fun t => t.setCtx h f).rf g j l = u.rf g j l := by cases b <;> rfl
  have hring (u : State) (r : Nat) (x : RingSt) : (u.setRing r x).rf g j l = u.rf g j l := rfl
  have hreq (u : State) (r : Nat) (f : Req → Req) : (u.setReq r f).rf g j l = u.rf g j l := rfl
  have hcount (u : State) (b : Bool) :
      (u.when b fun t => (t.inc R.SERVE_ABNORMAL_ENDS 0).setInt (servePage 0) R.INT_SERVE_ABNORMAL_END).rf g j l = u.rf g j l := by
    cases b with
    | false => rfl
    | true => rw [State.when_true, State.rf_setInt_plain _ _ _ hg, State.rf_inc_of_code _ hends]
  have hpre (u : State) (b : Bool) : (u.when b fun t => t.setInt (servePage 2) R.INT_SERVE2_PREEMPTED).rf g j l = u.rf g j l := by
    cases b with
    | false => rfl
    | true => rw [State.when_true, State.rf_setInt_plain _ _ _ hg]
  unfold State.fixOutcome
  split
  · rfl
  · dsimp only
    split
    · rfl
    · rw [hpre, hcount, hctx, State.rf_wf_of_code _ hfixed, hreq, State.rf_inc_of_code _ hlost, hring]

section
variable {g : Field} (hg : g.settled) (j l : Nat)
include hg

theorem State.Within.rf_settled {s t : State} {m : Nat} (h : s.Within m t) (hm : m.testBit 0x38 = false) : t.rf g j l = s.rf g j l :=
  h.rf (by rw [hg.2.1]; exact hm)

theorem State.rf_countServe_settled (s : State) (v t : Nat) : (s.countServe v t).rf g j l = s.rf g j l := by
  unfold State.countServe
  dsimp only
  rw [State.rf_wf_of_code _ hg.ne_area, State.rf_wf_of_code _ hg.ne, State.rf_wf_of_code _ hg.ne, State.rf_wf_of_code _ hg.ne,
    State.rf_wf_of_code _ hg.ne, State.rf_wf_of_code _ hg.ne, State.rf_wf_of_code _ hg.ne]

theorem State.rf_fixOutcome_settled (s : State) (id status reason : Nat) : (s.fixOutcome id status reason).rf g j l = s.rf g j l :=
  s.rf_fixOutcome_of_code hg.1 hg.ne hg.ne_area hg.ne_area id status reason j l

theorem State.rf_commitEnd_settled (s : State) (id n notes : Nat) : (s.commitEnd id n notes).rf g j l = s.rf g j l := by
  have hrec (u : State) (r : Nat) (f : Nat → List Nat) : (u.commitRec r f).rf g j l = u.rf g j l :=
    State.Within.rf_settled hg j l (State.commitRec_frame (Sub.refl _) (u.frame_refl _)) (by decide)
  have hclear (u : State) (r : Req) : (u.clearStreams r).rf g j l = u.rf g j l :=
    State.Within.rf_settled hg j l (State.clearStreams_frame (Sub.refl _) (u.frame_refl _)) (by decide)
  have hdrain (u : State) (v : Nat) : (u.drainContexts v).rf g j l = u.rf g j l :=
    State.Within.rf_settled hg j l (State.drainContexts_frame (Sub.refl _) (u.frame_refl _)) (by decide)
  have hlists (u : State) (a b : List Req) : ({ u with reqs := a, ended := b }).rf g j l = u.rf g j l := rfl
  have hctx (u : State) (h : Nat) (f : Ctx → Ctx) : (u.setCtx h f).rf g j l = u.rf g j l := rfl
  unfold State.commitEnd
  split
  · rfl
  · dsimp only
    rw [hdrain, State.rf_countServe_settled hg, State.rf_inc_of_code _ hg.ne, State.rf_wf_of_code _ hg.ne_area,
      State.rf_wf_of_code _ hg.ne_area, State.rf_wf_of_code _ hg.ne_area, hctx, hlists, hclear, hrec]

theorem State.rf_takeEnd_settled (s : State) (id : Nat) (d : Doorbell) : (s.takeEnd id d).rf g j l = s.rf g j l := by
  have hring (u : State) (r : Nat) (x : RingSt) : (u.setRing r x).rf g j l = u.rf g j l := rfl
  unfold State.takeEnd
  split
  · exact State.rf_commitEnd_settled hg j l s id _ _
  · unfold State.ringWait
    rw [State.rf_inc_of_code _ hg.ne_area, State.rf_setInt_plain _ _ _ hg.1, State.rf_wf_of_code _ hg.ne_area, hring]

theorem State.rf_endWhenIdle_settled (s : State) (id : Nat) : (s.endWhenIdle id).rf g j l = s.rf g j l := by
  unfold State.endWhenIdle
  split
  · rfl
  · split
    · rfl
    · dsimp only
      split
      · exact State.rf_takeEnd_settled hg j l s id _
      · split <;> rfl

theorem State.rf_endRequest_settled (s : State) (id status : Nat) : (s.endRequest id status).rf g j l = s.rf g j l := by
  unfold State.endRequest
  split
  · rfl
  · dsimp only
    rw [State.rf_endWhenIdle_settled hg, State.rf_fixOutcome_settled hg]
    split <;> rfl

theorem State.rf_preempt_settled (s : State) (v : Nat) : (s.preempt v).rf g j l = s.rf g j l :=
  State.each_eq (fun t => t.rf g j l) (fun r _ t => State.rf_endRequest_settled hg j l t r.id _) s

theorem State.rf_drainLimit_settled (s : State) (v : Nat) : (s.drainLimit v).rf g j l = s.rf g j l := by
  unfold State.drainLimit
  dsimp only
  split
  · exact State.rf_preempt_settled hg j l s v
  · rfl

end

theorem settled_state : R.SERVE2_STATE.settled := by decide

/-! ### The outcome of a request that is running, R307, R308 -/

/-- R307: the outcome of an open request, fixed. -/
def Req.fixedWith (r : Req) (status reason stamp : Nat) : Req :=
  { r with fixed := some (status, reason), endStamp := stamp, decodeReady := false,
           notes := if terminates status then r.notes ||| noteCtxTerminated else r.notes }

theorem State.req_fixOutcome {s : State} {r : Req} {id : Nat} (status reason : Nat) (hr : s.req id = some r) (hfree : r.fixed = none) :
    (s.fixOutcome id status reason).req id = some (r.fixedWith status reason s.now) := by
  have hwhen (u : State) (b : Bool) {f : State → State} (hf : ∀ w : State, (f w).reqs = w.reqs) : (u.when b f).req id = u.req id :=
    State.req_of_reqs (by cases b with | false => rfl | true => exact hf u) id
  have hctx (u : State) (b : Bool) (h : Nat) (f : Ctx → Ctx) : (u.when b fun t => t.setCtx h f).req id = u.req id := by cases b <;> rfl
  have hint (u : State) (p : Page) (b : Nat) : (u.setInt p b).reqs = u.reqs :=
    (State.setInt_frame (M := 0x18ffffffffffffffffffff) (by decide) (Sub.anyPage (Sub.refl _) (by decide) _) (u.frame_refl _)).reqs (by decide)
  have hwf (u : State) (f : Field) (i v : Nat) : (u.wf f i v).req id = u.req id := rfl
  have hring (u : State) (n : Nat) (x : RingSt) : (u.setRing n x).req id = u.req id := rfl
  have hinc (u : State) (f : Field) (i n : Nat) : (u.inc f i n).req id = u.req id := State.req_of_reqs (State.inc_reqs ..) id
  unfold State.fixOutcome
  rw [hr]
  dsimp only
  rw [hfree, if_neg (by simp), hwhen _ _ (fun w => hint w _ _), hwhen _ _ (fun w => (hint _ _ _).trans (State.inc_reqs ..)), hctx, hwf, State.req_setReq, hinc, hring, hr]
  · rfl
  · intro x
    rfl

/-- R308: a request that is not QUEUED and whose outcome stands ENDS; contexts and registers stay as they are. -/
theorem State.endWhenIdle_running {s : State} {r : Req} {id : Nat} (hr : s.req id = some r) (hfixed : r.fixed.isSome = true) (hstate : r.state ≠ rqQueued) :
    (s.endWhenIdle id).req id = some { r with state := rqEnding } ∧ (s.endWhenIdle id).ctxs = s.ctxs ∧ (s.endWhenIdle id).regs = s.regs := by
  have hset : (s.setReq id fun x => { x with state := rqEnding }).req id = some { r with state := rqEnding } := by
    rw [State.req_setReq, hr]
    · rfl
    · intro x
      rfl
  obtain ⟨o, ho⟩ := Option.isSome_iff_exists.1 hfixed
  generalize { r with state := rqEnding } = q at hset ⊢
  unfold State.endWhenIdle
  rw [hr]
  dsimp only
  rw [ho]
  dsimp only
  rw [if_neg hstate]
  split
  · exact ⟨hset, rfl, rfl⟩
  · exact ⟨hset, rfl, rfl⟩

/-- R311: a status that ends a context's use leaves the request's context TERMINATED. -/
theorem State.ctxOf_fixOutcome {s : State} {r : Req} {x : Ctx} {id status : Nat} (reason : Nat) (hr : s.req id = some r) (hfree : r.fixed = none)
    (hx : s.ctxOf r.ctx = some x) (hterm : terminates status = true) : (s.fixOutcome id status reason).ctxOf r.ctx = some { x with term := true } := by
  have hwhen (u : State) (b : Bool) {f : State → State} (hf : ∀ w : State, (f w).ctxs = w.ctxs) : (u.when b f).ctxOf r.ctx = u.ctxOf r.ctx :=
    State.ctxOf_of_ctxs (by cases b with | false => rfl | true => exact hf u) _
  have hint (u : State) (p : Page) (b : Nat) : (u.setInt p b).ctxs = u.ctxs :=
    (State.setInt_frame (M := 0x18ffffffffffffffffffff) (by decide) (Sub.anyPage (Sub.refl _) (by decide) _) (u.frame_refl _)).ctxs (by decide)
  have hwf (u : State) (f : Field) (i v : Nat) : (u.wf f i v).ctxOf r.ctx = u.ctxOf r.ctx := rfl
  have hreq (u : State) (n : Nat) (f : Req → Req) : (u.setReq n f).ctxOf r.ctx = u.ctxOf r.ctx := rfl
  have hring (u : State) (n : Nat) (y : RingSt) : (u.setRing n y).ctxOf r.ctx = u.ctxOf r.ctx := rfl
  have hinc (u : State) (f : Field) (i n : Nat) : (u.inc f i n).ctxOf r.ctx = u.ctxOf r.ctx := State.ctxOf_of_ctxs (State.inc_ctxs ..) _
  unfold State.fixOutcome
  rw [hr]
  dsimp only
  rw [hfree, if_neg (by simp), hwhen _ _ (fun w => hint w _ _), hwhen _ _ (fun w => (hint _ _ _).trans (State.inc_ctxs ..)), hterm, State.when_true,
    State.ctxOf_setCtx, hwf, hreq, hinc, hring, hx]
  · rfl
  · intro y
    rfl

/-- R307, R308, R311: an outcome fixed for a request that is not QUEUED. -/
theorem State.endRequest_running {s : State} {r : Req} {id status : Nat} (hr : s.req id = some r) (hfree : r.fixed = none) (hstate : r.state ≠ rqQueued) :
    (s.endRequest id status).req id = some { r.fixedWith status 0 s.now with state := rqEnding } ∧
    (s.endRequest id status).ctxs = (s.fixOutcome id status 0).ctxs ∧ (s.endRequest id status).regs = (s.fixOutcome id status 0).regs := by
  have hfixed := State.req_fixOutcome (s := s) status 0 hr hfree
  have hend := State.endWhenIdle_running hfixed rfl hstate
  unfold State.endRequest
  rw [hr]
  dsimp only
  rw [hfree, if_neg (by simp)]
  exact hend

/-! ### The commands of a drain, R315, R316 -/

theorem drainLimit_completes {v : Nat} {r : Req} {x : Ctx} {s : State} (hstate : s.vstate v = vDraining) (hms : s.rf R.SERVE2_DRAIN_LIMIT_MS 0 v ≠ 0)
    (hdue : (s.var v).drainSince + s.rf R.SERVE2_DRAIN_LIMIT_MS 0 v * 1000000 ≤ s.elapsed)
    (hopen : (s.openOf v).filter (fun r => r.fixed.isNone) = [r]) (hr : s.req r.id = some r) (hrun : r.state ≠ rqQueued) (hx : s.ctxOf r.ctx = some x) :
    Completes (.drainLimit v) s fun t =>
      ((t.req r.id).any fun q => q.fixed = some (stPreempted, 0) && q.state = rqEnding) ∧ (t.ctxOf r.ctx).any fun y => y.term := by
  have hfree : r.fixed = none := by
    have hmem : r ∈ (s.openOf v).filter (fun r => r.fixed.isNone) := by rw [hopen]; exact List.mem_singleton_self r
    exact Option.isNone_iff_eq_none.1 (List.mem_filter.1 hmem).2
  obtain ⟨hreq, hctxs, -⟩ := State.endRequest_running (status := stPreempted) hr hfree hrun
  refine completes_of_next rfl ?_
  unfold State.drainLimit
  dsimp only
  rw [if_pos ⟨hstate, hms, hdue⟩]
  unfold State.preempt State.each
  rw [hopen, List.foldl_cons, List.foldl_nil, hreq, State.ctxOf_of_ctxs hctxs, State.ctxOf_fixOutcome 0 hr hfree hx rfl]
  exact ⟨rfl, rfl⟩

theorem drainSetDispatch_completes {v : Nat} {s : State} (hstate : s.vstate v = vDraining) (hopen : s.openOf v = []) (hsent : (s.var v).drainSent = false) :
    Completes (.drainSetDispatch v) s fun t => (t.var v).drainSent = true ∧ t.out = .mesh 16 v [s.rf R.SERVE2_EPOCH 0 v] :: s.out := by
  refine completes_of_next rfl ?_
  unfold State.drainDispatch
  rw [if_pos ⟨hstate, by rw [hopen]; rfl, by rw [hsent]; rfl⟩, State.mesh, if_neg (by simp), if_neg (by simp)]
  exact ⟨congrArg VarSt.drainSent (s.setVar_var_same v _), rfl⟩

theorem drainSetArrival_completes {v : Nat} {s : State} (hstate : s.vstate v = vDraining) (hsent : (s.var v).drainSent = true) :
    Completes (.drainSetArrival v) s fun t => t.vstate v = vRegistered ∧ (t.var v).drainSent = false ∧ (t.var v).retiring = none := by
  refine completes_of_next rfl ?_
  unfold State.drainArrival
  rw [if_pos ⟨hstate, hsent⟩]
  have hset (u : State) (x : VarSt) : (u.setVar v x).vstate v = u.vstate v := rfl
  have hsec (u : State) (x : SecSt) : ({ u with sec := x }).vstate v = u.vstate v := rfl
  have hfinal (u : State) (qp id : Nat) (b : List Nat) : (u.finalRec qp id b).vstate v = u.vstate v := rfl
  unfold State.drained
  dsimp only
  rw [hset, hsec, State.setVar_var_same]
  refine ⟨?_, rfl, rfl⟩
  have hdone (u : State) : ((u.setVState v vRegistered).setInt (servePage 2) R.INT_SERVE2_DRAIN_DONE).vstate v = vRegistered := by
    rw [State.vstate, State.rf_setInt_plain _ _ _ (by decide), ← State.vstate, State.vstate_setVState _ _ (by decide)]
  split
  · rw [hfinal, hdone]
  · rw [hdone]

theorem wordFields_drainLimit : ∀ v < 64, wordFields (servePage 2) (0x108 + 16 * v) =
    [R.SERVE2_DRAIN_LIMIT_MS, R.SERVE2_ADMIT_SCORE, R.SERVE2_STEP_SCORE, R.SERVE2_COMMIT_SCORE].map fun f => (f, v) := by decide +kernel

theorem drainLimitWrite_completes {m : Master} {v w : Nat} {s : State} (hv : v < 64) (h : s.Writes m (servePage 2) (0x108 + 16 * v) w) :
    Completes (.drainLimitWrite m v w) s fun t => t.rf R.SERVE2_DRAIN_LIMIT_MS 0 v = bitsOf w 0 16 := by
  have hword := wordFields_drainLimit v hv
  have hblock : s.writeBlock m (servePage 2) (0x108 + 16 * v) w =
      (0, 0, (s.storeWord m (servePage 2) (0x108 + 16 * v) w).drainLimit v) := by
    have hother : s.writeBlock m (servePage 2) (0x108 + 16 * v) w = (0, 0, s.writeOther m (servePage 2) (0x108 + 16 * v) w) := rfl
    have hslot : (0x108 + 16 * v - 0x108) / 16 = v := by omega
    rw [hother]
    unfold State.writeOther
    dsimp only
    rw [hslot]
    simp [servePage, show (264 + 16 * v) % 16 = 8 by omega]
  have hw := h.store_within (by omega) hblock
  refine completes_of_next rfl ?_
  rw [Nat.mod_eq_of_lt hv, hw.rf (by decide), State.rf_drainLimit_settled (by decide)]
  refine State.rf_storeWord_rw (p := servePage 2) (fk := (R.SERVE2_DRAIN_LIMIT_MS, v)) w ?_ rfl (by cases m <;> rfl) ?_ s
  · rw [hword]
    exact List.mem_cons_self
  · rw [hword]
    intro gk hgk hne
    obtain ⟨f, hf, rfl⟩ := List.mem_map.1 hgk
    exact (by decide : ∀ f ∈ [R.SERVE2_DRAIN_LIMIT_MS, R.SERVE2_ADMIT_SCORE, R.SERVE2_STEP_SCORE, R.SERVE2_COMMIT_SCORE],
      f ≠ R.SERVE2_DRAIN_LIMIT_MS → R.SERVE2_DRAIN_LIMIT_MS.code ≠ f.code) f hf fun h => hne (by rw [h])

/-! ### VARIANT_RETIRE, R315 -/

theorem bit_testBit (w i : Nat) : bit (w.testBit i) = bitsOf w i 1 := by
  rw [bitsOf, Nat.testBit_eq_decide_div_mod_eq, Nat.shiftRight_eq_div_pow]
  have hmod := Nat.mod_two_eq_zero_or_one (w / 2 ^ i)
  rcases hmod with h | h <;> rw [Nat.pow_one, h] <;> rfl

theorem State.drainStart_is (s : State) (v : Nat) (preempt : Bool) :
    (s.drainStart v preempt).vstate v = vDraining ∧ (s.drainStart v preempt).rf R.SERVE2_PREEMPT 0 v = bit preempt ∧
    (s.drainStart v preempt).var v = { s.var v with drainSince := s.elapsed, drainSent := false } := by
  have hset (u : State) (x : VarSt) (f : Field) : (u.setVar v x).rf f 0 v = u.rf f 0 v := rfl
  have hdrain (u : State) (f : Field) (hf : f.settled) : (u.drainContexts v).rf f 0 v = u.rf f 0 v :=
    State.Within.rf_settled hf 0 v (State.drainContexts_frame (Sub.refl _) (u.frame_refl _)) (by decide)
  have hwhen (u : State) (f : Field) (hf : f.settled) : (u.when preempt fun t => t.preempt v).rf f 0 v = u.rf f 0 v := by
    cases preempt with
    | false => rfl
    | true => exact State.rf_preempt_settled hf 0 v u v
  have hvars (u : State) : ((u.when preempt fun t => t.preempt v).drainContexts v).vars = u.vars := by
    have hw : u.Within 0x803e3d007800000700000100110002 ((u.when preempt fun t => t.preempt v).drainContexts v) :=
      State.drainContexts_frame (by decide) (State.when_frame (u.frame_refl _) fun _ h => State.preempt_frame (Sub.refl _) h)
    exact hw.vars (by decide)
  have hstart : s.Within (touch [0x38] [.irqLatch, .irqs]) ((s.setVState v vDraining).wf R.SERVE2_PREEMPT 0 (bit preempt) v) :=
    State.wf_frame (by decide) (State.setVState_frame (by decide) (s.frame_refl _))
  unfold State.drainStart
  dsimp only
  refine ⟨?_, ?_, ?_⟩
  · rw [State.vstate, hdrain _ _ (by decide), hwhen _ _ (by decide), hset, State.rf_wf_of_code _ (by decide), ← State.vstate,
      State.vstate_setVState _ _ (by decide)]
  · rw [hdrain _ _ (by decide), hwhen _ _ (by decide), hset, State.rf_wf_same]
    cases preempt <;> rfl
  · rw [State.var, hvars, ← State.var, State.setVar_var_same, hstart.elapsed (by decide)]
    rw [State.var, hstart.vars (by decide), ← State.var]

theorem variantRetire_completes {c : Cmd} {s : State} (h : s.Takes c) (hwords : c.bodyWords = 1) (hactive : s.vstate (c.f 0 0 6) = vActive) :
    Completes (.variantRetire c) s fun t =>
      t.vstate (c.f 0 0 6) = vDraining ∧ t.rf R.SERVE2_PREEMPT 0 (c.f 0 0 6) = c.f 0 6 1 ∧ (t.var (c.f 0 0 6)).drainSince = s.elapsed ∧
      (t.var (c.f 0 0 6)).retiring = some (c.qp, c.cmdId) ∧ s.Answered t c 0x27 (s.servingShort stAccepted 0) := by
  have hw := s.started_within 0x27 c .f
  obtain ⟨u, hu⟩ : ∃ u, u = ((s.started 0x27 c .f).setVar (c.f 0 0 6)
    { (s.started 0x27 c .f).var (c.f 0 0 6) with retiring := some (c.qp, c.cmdId) }).replyEarly c.qp c.cmdId (s.servingShort stAccepted 0) := ⟨_, rfl⟩
  have hbody : (s.started 0x27 c .f).servingShort stAccepted 0 = s.servingShort stAccepted 0 := by
    rw [State.servingShort, hw.now (by decide)]
    rfl
  have hopened : s.Answered u c 0x27 (s.servingShort stAccepted 0) := by
    rw [hu]
    exact State.answered_replyEarly (State.started_openCmd h.2.2.1) ((State.started_connected s 0x27 c .f c.qp).trans h.connected)
  have hkept : (s.started 0x27 c .f).Within (touch [0x28, 0x29] [.cmds, .cmdRecs, .qps, .out, .vars]) u := by
    rw [hu]
    exact State.replyEarly_frame (by decide) (State.setVar_frame (by decide) (State.frame_refl _ _))
  have hvar : u.var (c.f 0 0 6) = { (s.started 0x27 c .f).var (c.f 0 0 6) with retiring := some (c.qp, c.cmdId) } := by
    have hearly (t : State) : (t.replyEarly c.qp c.cmdId (s.servingShort stAccepted 0)).vars = t.vars :=
      State.Within.vars (m := touch [0x28, 0x29] [.cmds, .cmdRecs, .qps, .out]) (State.replyEarly_frame (by decide) (t.frame_refl _)) (by decide)
    rw [hu, State.var, hearly, ← State.var, State.setVar_var_same]
  have hb : bit (c.b 0 6) = c.f 0 6 1 := bit_testBit _ _
  obtain ⟨hstate, hpre, hdrained⟩ := u.drainStart_is (c.f 0 0 6) (c.b 0 6)
  suffices hgoal : s.Answered (u.drainStart (c.f 0 0 6) (c.b 0 6)) c 0x27 (s.servingShort stAccepted 0) by
    refine completes_of_vorane rfl h (by decide) (by simp [hwords]) ?_
    unfold State.retire
    dsimp only
    rw [if_neg (by rw [hw.vstate (by decide), hactive]; decide), hbody, ← hu, hstate, hpre, hdrained, hvar, hb, hkept.elapsed (by decide),
      hw.elapsed (by decide)]
    exact ⟨rfl, rfl, rfl, rfl, hgoal⟩
  exact hopened.of_within (m := 0x803e7d007800000700000100110002) (State.drainStart_frame (Sub.refl _) (u.frame_refl _)) (by decide) (by decide)

/-- Settles O31. -/
theorem variantDrainComplete : Obligations.VariantDrainComplete :=
  ⟨fun _ _ => variantRetire_completes, fun _ _ _ _ => drainLimitWrite_completes, fun _ _ _ _ => drainLimit_completes,
    fun _ _ => drainSetDispatch_completes, fun _ _ => drainSetArrival_completes⟩

end Sys2Proof.Machine
end

section
/-! The life of a request: prompt, activation, turns, promotion, deadline and abnormal end (R290, R299, R300, R307, R311, R437; O30). -/

namespace Sys2Proof.Machine

theorem State.id_of_req {s : State} {r : Req} {id : Nat} (h : s.req id = some r) : r.id = id := by
  have := List.find?_some h
  simpa using this

/-! ### The prompt, R290 -/

/-- R290: the end of the prompt's READ, on its queue pair. -/
def State.promptArrived (s : State) (id : Nat) : State :=
  match (s.reqs ++ s.ended).find? (fun r => r.id = id) with
  | some r => if r.promptRead then s else s.readDone r.qp
  | none => s

/-- R290: the prompt that arrived, kept or refused. -/
def State.promptTaken (s : State) (id : Nat) (ok : Bool) (tokens : List Nat) : State :=
  match s.req id with
  | none => s
  | some r =>
    if r.state ≠ rqQueued ∨ r.promptRead then s
    else
      let all := (r.prompt ++ tokens).take r.promptCount
      if ok && all.length = r.promptCount && all.all fun t => decide (t < (s.var r.variant).place.vocab) then
        s.setReq id fun x => { x with prompt := all, promptRead := true }
      else s.endRequest id stPromptUnreadable

theorem State.promptDone_eq (s : State) (id : Nat) (ok : Bool) (tokens : List Nat) :
    s.promptDone id ok tokens = (s.promptArrived id).promptTaken id ok tokens := rfl

theorem State.promptArrived_within (s : State) (id : Nat) : s.Within (touch [0x28, 0x29] [.qps, .out]) (s.promptArrived id) := by
  unfold State.promptArrived
  split
  · split
    · exact s.frame_refl _
    · exact State.readDone_frame (by decide) (s.frame_refl _)
  · exact s.frame_refl _

theorem promptReadDone_completes {id : Nat} {tokens : List Nat} {r : Req} {s : State} (hr : s.req id = some r) (hstate : r.state = rqQueued)
    (hread : r.promptRead = false) (hlen : ((r.prompt ++ tokens).take r.promptCount).length = r.promptCount)
    (hvocab : ∀ x ∈ (r.prompt ++ tokens).take r.promptCount, x < (s.var r.variant).place.vocab) :
    Completes (.promptReadDone id true tokens) s fun t =>
      t.reqs = s.reqs.map fun y => if y.id = id then { y with prompt := (r.prompt ++ tokens).take r.promptCount, promptRead := true } else y := by
  have hw := s.promptArrived_within id
  have hvar : (s.promptArrived id).var r.variant = s.var r.variant := by rw [State.var, hw.vars (by decide), State.var]
  have hall : (true && decide (((r.prompt ++ tokens).take r.promptCount).length = r.promptCount) &&
      ((r.prompt ++ tokens).take r.promptCount).all fun t => decide (t < (s.var r.variant).place.vocab)) = true := by
    rw [Bool.and_eq_true, Bool.and_eq_true, decide_eq_true_iff, List.all_eq_true]
    exact ⟨⟨rfl, hlen⟩, fun x hx => decide_eq_true (hvocab x hx)⟩
  refine completes_of_next rfl ?_
  rw [State.promptDone_eq]
  unfold State.promptTaken
  rw [State.req_of_reqs (hw.reqs (by decide)), hr]
  dsimp only
  rw [hread, if_neg (by simp [hstate]), hvar, if_pos hall, State.setReq, hw.reqs (by decide)]

/-! ### Activation, R299 -/

theorem requestActivate_completes {v slot : Nat} {r : Req} {x : Ctx} {s : State}
    (hfirst : firstBy (fun r => (3 - r.cls, r.order, 0)) ((s.openOf v).filter fun r => r.state = rqQueued && r.promptRead && r.fixed.isNone) = some r)
    (hslot : s.freeActive v = some slot) (hx : s.ctxOf r.ctx = some x) :
    Completes (.requestActivate v) s fun t =>
      t.reqs = s.reqs.map fun y => if y.id = r.id then { y with state := rqActive, slot := some slot, epoch := s.rf R.SERVE2_EPOCH 0 v, readyAt := s.elapsed } else y := by
  have hw : s.Within (touch [0x10] [.sram]) (s.writeStreams r slot x) := State.writeStreams_frame (by decide) (s.frame_refl _)
  have hcount (u : State) (a b : Nat) : (u.countServe a b).reqs = u.reqs :=
    (State.countServe_frame (by decide) (u.frame_refl _) : u.Within (touch [0x38, 0x39] []) _).reqs (by decide)
  refine completes_of_next rfl ?_
  unfold State.activateNext
  dsimp only
  rw [hfirst, hslot]
  dsimp only
  rw [hx]
  dsimp only
  rw [hcount, hw.rf (by decide), hw.elapsed (by decide)]
  exact congrArg _ (hw.reqs (by decide))

/-! ### Turns, R300, R304, R305 -/

theorem State.refill_within (s : State) (n : Nat) : s.Within (touch [0x39] [.rems]) (s.refill n) := State.refill_frame (by decide) (s.frame_refl _)

theorem State.debit_within (s : State) (n k : Nat) (decode : Bool) : s.Within (touch [0x39] [.rems]) (s.debit n k decode) :=
  State.debit_frame (by decide) (s.frame_refl _)

theorem State.rf_refill_charged (s : State) (n j : Nat) : (s.refill n).rf R.TENANT_DECODE_CHARGED j = s.rf R.TENANT_DECODE_CHARGED j := by
  have hbal (u : State) (b : Int) (x : Tbl Nat) : ({ u.setBalance n b with rems := x }).rf R.TENANT_DECODE_CHARGED j = u.rf R.TENANT_DECODE_CHARGED j :=
    u.rf_wf_of_code (f := R.TENANT_BALANCE) (by decide) _ _ _ _ _
  unfold State.refill
  dsimp only
  split
  · rw [hbal, State.rf_wf_of_code _ (by decide)]
  · rw [hbal, State.rf_wf_of_code _ (by decide)]

/-- R304, R321: a decode debit is charged. -/
theorem State.rf_debit_charged (s : State) (n k : Nat) :
    (s.debit n k true).rf R.TENANT_DECODE_CHARGED n = (s.rf R.TENANT_DECODE_CHARGED n + k) % 2 ^ 64 := by
  have hbal (u : State) (b : Int) : (u.setBalance n b).rf R.TENANT_DECODE_CHARGED n = u.rf R.TENANT_DECODE_CHARGED n :=
    u.rf_wf_of_code (f := R.TENANT_BALANCE) (by decide) _ _ _ _ _
  unfold State.debit
  dsimp only
  rw [if_pos rfl, if_pos rfl, State.rf_inc_wrap _ _ (by decide), hbal, State.rf_refill_charged]
  rfl

/-- R305: a tenant whose balance allows it lets the request dispatch. -/
theorem State.mayDebit_allows {s : State} {r : Req} (h : (s.mayDebit r).1 = true) :
    s.mayDebit r = (true, (s.refill r.tenant).setReq r.id fun x => { x with state := rqActive }) := by
  unfold State.mayDebit at h ⊢
  dsimp only at h ⊢
  split at h
  next hbal => rw [if_pos hbal]
  next => exact absurd h (by simp)

/-- R305: what lets a request dispatch is the tenant's balance alone. -/
theorem State.mayDebit_setVar (s : State) (r : Req) (v : Nat) (x : VarSt) : ((s.setVar v x).mayDebit r).1 = (s.mayDebit r).1 := by
  have hbal : ((s.setVar v x).refill r.tenant).balance r.tenant = (s.refill r.tenant).balance r.tenant := by
    unfold State.refill
    dsimp only
    have hrf (f : Field) (i : Nat) : (s.setVar v x).rf f i = s.rf f i := rfl
    have hrest : (s.setVar v x).balance r.tenant = s.balance r.tenant ∧ (s.setVar v x).now = s.now ∧ (s.setVar v x).rems = s.rems := ⟨rfl, rfl, rfl⟩
    simp only [hrf, hrest]
    split <;> rfl
  unfold State.mayDebit
  dsimp only
  rw [hbal]
  split <;> rfl

theorem orderBy_singleton (key : Req → Nat) (r : Req) : orderBy key 1 [r] = [r] := rfl

/-- R305: the state in which a request's set is dispatched. -/
def State.admitted (s : State) (r : Req) : State := (s.refill r.tenant).setReq r.id fun x => { x with state := rqActive }

theorem State.admitted_within (s : State) (r : Req) : s.Within (touch [0x39] [.rems, .reqs]) (s.admitted r) :=
  State.setReq_frame (by decide) (State.refill_frame (by decide) (s.frame_refl _))

/-- R300, R304: a decode set of one token dispatched and charged. -/
def State.decoded (s : State) (r : Req) (x : Ctx) : State :=
  ((((s.admitted r).debit r.tenant 1 true).emit (.mesh 15 r.variant [r.id, x.len + r.inflight, 1, r.lastToken, r.epoch])).setReq r.id fun y =>
    { y with decodeReady := false, inflight := y.inflight + 1, promoted := false }).inc R.SERVE1_DECODE_SETS 0

theorem State.decodeOne_admitted {s : State} {r : Req} {x : Ctx} (hx : s.ctxOf r.ctx = some x) (hmay : (s.mayDebit r).1 = true) :
    s.decodeOne r = s.decoded r x := by
  have hw : s.Within (touch [0x39] [.rems, .reqs]) ((s.admitted r).debit r.tenant 1 true) := State.debit_frame (by decide) (s.admitted_within r)
  have hemit (t : State) (ws : List Nat) : t.mesh 15 r.variant ws = t.emit (.mesh 15 r.variant ws) := by
    rw [State.mesh, if_neg (by simp), if_neg (by simp)]
  unfold State.decodeOne
  rw [State.mayDebit_allows hmay]
  dsimp only
  rw [← State.admitted]
  unfold State.dispatch
  rw [State.ctxOf_of_ctxs (hw.ctxs (by decide)), hx, hemit]
  rfl

theorem State.dispatchTurn_single {s : State} {v k : Nat} {r : Req} (hduty : s.dutyZero = false) (hturn : s.nextTurn v = some (true, k))
    (hready : (s.openOf v).filter Req.decodable = [r]) :
    s.dispatchTurn v = (s.setVar v { s.var v with turn := k, promoteKind := none }).decodeOne r := by
  have hlist : ((s.setVar v { s.var v with turn := k, promoteKind := none }).openOf v).filter Req.decodable = [r] := hready
  unfold State.dispatchTurn
  rw [hduty, if_neg (by decide), hturn]
  dsimp only
  rw [if_pos rfl]
  unfold State.decodeTurn
  rw [hlist]
  rfl

theorem State.reqs_decoded (s : State) (r : Req) (x : Ctx) : (s.decoded r x).reqs = s.reqs.map fun y =>
    if y.id = r.id then { y with state := rqActive, decodeReady := false, inflight := y.inflight + 1, promoted := false } else y := by
  have hreqs : ((s.admitted r).debit r.tenant 1 true).reqs = s.reqs.map fun y => if y.id = r.id then { y with state := rqActive } else y := by
    rw [((s.admitted r).debit_within _ _ _).reqs (by decide), State.admitted, State.setReq, (s.refill_within _).reqs (by decide)]
  unfold State.decoded
  rw [State.inc_reqs]
  refine (congrArg _ hreqs).trans ?_
  rw [List.map_map]
  refine List.map_congr_left fun y _ => ?_
  by_cases hy : y.id = r.id
  · simp [hy]
  · simp [hy]

theorem dispatchTurn_completes {v k : Nat} {r : Req} {x : Ctx} {s : State} (hduty : s.dutyZero = false) (hturn : s.nextTurn v = some (true, k))
    (hready : (s.openOf v).filter Req.decodable = [r]) (hx : s.ctxOf r.ctx = some x) (hmay : (s.mayDebit r).1 = true) :
    Completes (.dispatchTurn v) s fun t =>
      (t.var v).turn = k ∧ t.out = .mesh 15 r.variant [r.id, x.len + r.inflight, 1, r.lastToken, r.epoch] :: s.out ∧
      (t.reqs = s.reqs.map fun y => if y.id = r.id then { y with state := rqActive, decodeReady := false, inflight := y.inflight + 1, promoted := false } else y) ∧
      t.rf R.SERVE1_DECODE_SETS 0 = (s.rf R.SERVE1_DECODE_SETS 0 + 1) % 2 ^ 64 ∧
      t.rf R.TENANT_DECODE_CHARGED r.tenant = (s.rf R.TENANT_DECODE_CHARGED r.tenant + 1) % 2 ^ 64 := by
  refine completes_of_next rfl ?_
  rw [State.dispatchTurn_single hduty hturn hready]
  obtain ⟨u, hu⟩ : ∃ u, u = s.setVar v { s.var v with turn := k, promoteKind := none } := ⟨_, rfl⟩
  have hset : s.Within (touch [] [.vars]) u := by
    rw [hu]
    exact State.setVar_frame (by decide) (s.frame_refl _)
  have hvar : (u.var v).turn = k := by rw [hu, State.setVar_var_same]
  have hw : u.Within (touch [0x39] [.rems, .reqs]) ((u.admitted r).debit r.tenant 1 true) := State.debit_frame (by decide) (u.admitted_within r)
  have hset2 (t : State) (f : Req → Req) : (t.setReq r.id f).out = t.out := rfl
  have hrf (t : State) (f : Req → Req) (g : Field) (j : Nat) : (t.setReq r.id f).rf g j = t.rf g j := rfl
  have hcharged : (u.admitted r).rf R.TENANT_DECODE_CHARGED r.tenant = s.rf R.TENANT_DECODE_CHARGED r.tenant := by
    rw [State.admitted, hrf, State.rf_refill_charged, hset.rf (by decide)]
  rw [← hu, State.decodeOne_admitted (by rw [State.ctxOf_of_ctxs (hset.ctxs (by decide)), hx]) (by rw [hu, State.mayDebit_setVar]; exact hmay),
    State.reqs_decoded, hset.reqs (by decide)]
  unfold State.decoded
  refine ⟨?_, ?_, rfl, ?_, ?_⟩
  · rw [State.var, State.inc_vars, ← hvar, State.var, ← hw.vars (by decide)]
    rfl
  · rw [State.inc_out, hset2, State.out_emit, hw.out (by decide), hset.out (by decide)]
  · rw [State.rf_inc_wrap _ _ (by decide), hrf, State.rf_emit, hw.rf (by decide), hset.rf (by decide)]
    rfl
  · rw [State.rf_inc_of_code _ (by decide), hrf, State.rf_emit, State.rf_debit_charged, hcharged]

/-! ### Promotion, R300 -/

theorem starvePromotion_completes {id : Nat} {r : Req} {s : State} (hr : s.req id = some r) (hready : (r.decodable || r.prefillable) = true)
    (hprom : r.promoted = false) (hdue : r.readyAt + s.rf R.SERVE1_STARVE_US 0 * 1000 ≤ s.elapsed) :
    Completes (.starvePromotion id) s fun t =>
      (t.reqs = s.reqs.map fun y => if y.id = id then { y with promoted := true } else y) ∧
      t.rf R.SERVE1_STARVE_PROMOTIONS 0 = min (2 ^ 32 - 1) (s.rf R.SERVE1_STARVE_PROMOTIONS 0 + 1) ∧
      (t.var r.variant).promoteKind = some (if r.decodable then 0 else 1) := by
  refine completes_of_next rfl ?_
  unfold State.starve
  rw [hr]
  dsimp only
  rw [hprom, if_pos (by simp [hready, hdue]), State.setVar_var_same]
  refine ⟨State.inc_reqs .., ?_, rfl⟩
  exact State.rf_inc_sat _ _ (by decide) _ _ _

/-! ### Ends, R307, R308, R311, R437 -/

/-- R307: RING.FIXED reads 1 once an outcome stands. -/
theorem State.rf_fixOutcome_fixed {s : State} {r : Req} {id : Nat} (status reason : Nat) (hr : s.req id = some r) (hfree : r.fixed = none) :
    (s.fixOutcome id status reason).rf R.RING_FIXED r.ring = 1 := by
  have hctx (u : State) (b : Bool) (h : Nat) (f : Ctx → Ctx) :
      (u.when b fun t => t.setCtx h f).rf R.RING_FIXED r.ring = u.rf R.RING_FIXED r.ring := by cases b <;> rfl
  have hcount (u : State) (b : Bool) : (u.when b fun t => (t.inc R.SERVE_ABNORMAL_ENDS 0).setInt (servePage 0) R.INT_SERVE_ABNORMAL_END).rf
      R.RING_FIXED r.ring = u.rf R.RING_FIXED r.ring := by
    cases b with
    | false => rfl
    | true => rw [State.when_true, State.rf_setInt_plain _ _ _ (by decide), State.rf_inc_of_code _ (by decide)]
  have hpre (u : State) (b : Bool) : (u.when b fun t => t.setInt (servePage 2) R.INT_SERVE2_PREEMPTED).rf R.RING_FIXED r.ring =
      u.rf R.RING_FIXED r.ring := by
    cases b with
    | false => rfl
    | true => rw [State.when_true, State.rf_setInt_plain _ _ _ (by decide)]
  unfold State.fixOutcome
  rw [hr]
  dsimp only
  rw [hfree, if_neg (by simp), hpre, hcount, hctx, State.rf_wf_same]
  rfl

/-- R318: an abnormal end is counted. -/
theorem State.rf_fixOutcome_abnormal {s : State} {r : Req} {id status : Nat} (reason : Nat) (hr : s.req id = some r) (hfree : r.fixed = none)
    (habn : abnormal status = true) : (s.fixOutcome id status reason).rf R.SERVE_ABNORMAL_ENDS 0 = min (2 ^ 32 - 1) (s.rf R.SERVE_ABNORMAL_ENDS 0 + 1) := by
  have hctx (u : State) (b : Bool) (h : Nat) (f : Ctx → Ctx) :
      (u.when b fun t => t.setCtx h f).rf R.SERVE_ABNORMAL_ENDS 0 = u.rf R.SERVE_ABNORMAL_ENDS 0 := by cases b <;> rfl
  have hpre (u : State) (b : Bool) : (u.when b fun t => t.setInt (servePage 2) R.INT_SERVE2_PREEMPTED).rf R.SERVE_ABNORMAL_ENDS 0 =
      u.rf R.SERVE_ABNORMAL_ENDS 0 := by
    cases b with
    | false => rfl
    | true => rw [State.when_true, State.rf_setInt_plain _ _ _ (by decide)]
  have hreq (u : State) (n : Nat) (f : Req → Req) : (u.setReq n f).rf R.SERVE_ABNORMAL_ENDS 0 = u.rf R.SERVE_ABNORMAL_ENDS 0 := rfl
  have hring (u : State) (n : Nat) (y : RingSt) : (u.setRing n y).rf R.SERVE_ABNORMAL_ENDS 0 = u.rf R.SERVE_ABNORMAL_ENDS 0 := rfl
  unfold State.fixOutcome
  rw [hr]
  dsimp only
  rw [hfree, if_neg (by simp), hpre, habn, State.when_true, State.rf_setInt_plain _ _ _ (by decide), State.rf_inc_sat _ _ (by decide), hctx,
    State.rf_wf_of_code _ (by decide), hreq, State.rf_inc_of_code _ (by decide), hring]
  rfl

/-- R308, R291: the END record committed closes the ring and moves the request to the ended ones. -/
theorem State.commitEnd_is {s : State} {r : Req} {id n notes st rs : Nat} (hr : s.req id = some r) (hfixed : r.fixed = some (st, rs)) :
    (s.commitEnd id n notes).rf R.RING_OPEN r.ring = 0 ∧
    (s.commitEnd id n notes).ended.head? = some { r with state := rqEnded, fixed := some (st, rs), notes := r.notes ||| notes,
                                                         lastSeq := s.rf R.RING_NEXT_SEQ r.ring, endLen := n } := by
  have hdrain (u : State) (v : Nat) : (u.drainContexts v).ended = u.ended ∧ (u.drainContexts v).rf R.RING_OPEN r.ring = u.rf R.RING_OPEN r.ring := by
    have hw : u.Within 0x803e01007800000000000100100002 (u.drainContexts v) := State.drainContexts_frame (Sub.refl _) (u.frame_refl _)
    exact ⟨hw.ended (by decide), hw.rf (by decide)⟩
  have hcount (u : State) (v t : Nat) : (u.countServe v t).ended = u.ended ∧ (u.countServe v t).rf R.RING_OPEN r.ring = u.rf R.RING_OPEN r.ring := by
    have hw : u.Within (touch [0x38, 0x39] []) (u.countServe v t) := State.countServe_frame (by decide) (u.frame_refl _)
    exact ⟨hw.ended (by decide), hw.rf (by decide)⟩
  have hwf (u : State) (f : Field) (i v : Nat) : (u.wf f i v).ended = u.ended := rfl
  unfold State.commitEnd
  rw [hr]
  dsimp only
  rw [(hdrain _ _).1, (hdrain _ _).2, (hcount _ _ _).1, (hcount _ _ _).2, State.rf_inc_of_code _ (by decide), State.inc_ended,
    State.rf_wf_of_code _ (by decide), State.rf_wf_of_code _ (by decide), State.rf_wf_same, hwf, hwf, hwf, hfixed]
  have htake (e : Req) (l : List Req) : ((e :: l).take 65536).head? = some e := by rw [List.head?_take, if_neg (by decide), List.head?_cons]
  exact ⟨rfl, htake _ _⟩

theorem State.waiting_fixOutcome {s : State} {r : Req} {id : Nat} (status reason : Nat) (hr : s.req id = some r) (hfree : r.fixed = none)
    (hwait : (s.ring r.ring).waiting = []) : ((s.fixOutcome id status reason).ring r.ring).waiting = [] := by
  have hring {t u : State} (h : t.rings = u.rings) : t.ring r.ring = u.ring r.ring := by rw [State.ring, h, State.ring]
  have hwhen (u : State) (b : Bool) {f : State → State} (hf : ∀ w : State, (f w).rings = w.rings) : (u.when b f).ring r.ring = u.ring r.ring :=
    hring (by cases b with | false => rfl | true => exact hf u)
  have hint (u : State) (p : Page) (b : Nat) : (u.setInt p b).rings = u.rings :=
    (State.setInt_frame (M := 0x18ffffffffffffffffffff) (by decide) (Sub.anyPage (Sub.refl _) (by decide) _) (u.frame_refl _)).rings (by decide)
  have hctx (u : State) (b : Bool) (h : Nat) (f : Ctx → Ctx) : (u.when b fun t => t.setCtx h f).ring r.ring = u.ring r.ring := by cases b <;> rfl
  have hwf (u : State) (f : Field) (i v : Nat) : (u.wf f i v).ring r.ring = u.ring r.ring := rfl
  have hreq (u : State) (n : Nat) (f : Req → Req) : (u.setReq n f).ring r.ring = u.ring r.ring := rfl
  have hinc (u : State) (f : Field) (i n : Nat) : (u.inc f i n).ring r.ring = u.ring r.ring := hring (State.inc_rings ..)
  have hset (u : State) (x : RingSt) : (u.setRing r.ring x).ring r.ring = x := Tbl.getD_put_same _ _ _ _
  unfold State.fixOutcome
  rw [hr]
  dsimp only
  rw [hfree, if_neg (by simp), hwhen _ _ (fun w => hint w _ _), hwhen _ _ (fun w => (hint _ _ _).trans (State.inc_rings ..)), hctx, hwf, hreq, hinc,
    hset, hwait]
  rfl

/-- R308: an outcome fixed for a QUEUED request whose ring has room. -/
theorem State.endRequest_queued {s : State} {r : Req} {id status : Nat} (hr : s.req id = some r) (hfree : r.fixed = none) (hstate : r.state = rqQueued)
    (hwait : (s.ring r.ring).waiting = []) (hroom : s.ringRoom r.ring 1 = true) :
    (s.endRequest id status).rf R.RING_OPEN r.ring = 0 ∧
    (s.endRequest id status).ended.head?.any fun q => q.id = id && q.fixed = some (status, 0) && q.state = rqEnded && q.endStamp = s.now := by
  have hfixed := State.req_fixOutcome (s := s) status 0 hr hfree
  have hwait' : ((s.fixOutcome id status 0).ring r.ring).waiting = [] := s.waiting_fixOutcome status 0 hr hfree hwait
  have hroom' : (s.fixOutcome id status 0).ringRoom r.ring 1 = true := by
    have hrf (g : Field) (hg : g.plain) (hends : g.code ≠ R.SERVE_ABNORMAL_ENDS.code) (hf : g.code ≠ R.RING_FIXED.code)
        (hlost : g.code ≠ R.RING_DISCARDED.code) : (s.fixOutcome id status 0).rf g r.ring = s.rf g r.ring :=
      s.rf_fixOutcome_of_code hg hends hf hlost id status 0 r.ring 0
    unfold State.ringRoom State.ringSize
    rw [hrf _ (by decide) (by decide) (by decide) (by decide), hrf _ (by decide) (by decide) (by decide) (by decide),
      hrf _ (by decide) (by decide) (by decide) (by decide)]
    exact hroom
  unfold State.endRequest
  rw [hr]
  dsimp only
  rw [hfree, if_neg (by simp)]
  generalize s.fixOutcome id status 0 = u at *
  unfold State.endWhenIdle
  rw [hfixed]
  dsimp only [Req.fixedWith]
  rw [if_pos hstate]
  unfold State.takeEnd
  dsimp only
  rw [hwait', hroom', if_pos (by rfl)]
  have hend := State.commitEnd_is (n := ((u.ctxOf r.ctx).map (·.len)).getD 0) (notes := 0) hfixed rfl
  refine ⟨hend.1, ?_⟩
  rw [hend.2]
  simp [Req.fixedWith, State.id_of_req hr]

theorem deadlineExpiry_completes {id : Nat} {r : Req} {s : State} (hr : s.req id = some r) (hset : r.deadline ≠ 0) (hdue : r.deadline ≤ s.now)
    (hfree : r.fixed = none) :
    Completes (.deadlineExpiry id) s fun t =>
      (r.state ≠ rqQueued → t.rf R.RING_FIXED r.ring = 1 ∧
        (t.req id).any fun q => q.fixed = some (stDeadline, 0) && q.state = rqEnding && !q.decodeReady && q.endStamp = s.now) ∧
      (r.state = rqQueued → (s.ring r.ring).waiting = [] → s.ringRoom r.ring 1 = true → t.rf R.RING_OPEN r.ring = 0 ∧
        t.ended.head?.any fun q => q.id = id && q.fixed = some (stDeadline, 0) && q.state = rqEnded && q.endStamp = s.now) := by
  refine completes_of_next rfl ?_
  unfold State.deadline
  rw [hr]
  dsimp only
  rw [if_pos ⟨hset, hdue, by rw [hfree]; rfl⟩]
  refine ⟨fun hrun => ?_, fun hqueued hwait hroom => State.endRequest_queued hr hfree hqueued hwait hroom⟩
  obtain ⟨hreq, -, hregs⟩ := State.endRequest_running (status := stDeadline) hr hfree hrun
  rw [State.rf_congr hregs, State.rf_fixOutcome_fixed _ _ hr hfree, hreq]
  exact ⟨rfl, by simp [Req.fixedWith]⟩

/-- R300, R308: sets of a request that return or are lost. -/
theorem State.setsBack_is {s : State} {r : Req} {id : Nat} (n : Nat) (hr : s.req id = some r) :
    (s.setsBack id n).req id = some { r with inflight := r.inflight - n } ∧ s.Within (touch [] [.reqs, .vars]) (s.setsBack id n) := by
  have hset : (s.setReq id fun x => { x with inflight := x.inflight - n }).req id = some { r with inflight := r.inflight - n } := by
    rw [State.req_setReq, hr]
    · rfl
    · intro x
      rfl
  refine ⟨?_, State.setsBack_frame (by decide) (s.frame_refl _)⟩
  unfold State.setsBack
  rw [hr]
  dsimp only
  split
  · exact hset
  · exact hset

/-- R311: a request whose sets are lost, broken. -/
def State.brokenBy (s : State) (id lost : Nat) : State := (s.setsBack id lost).setReq id fun x => { x with broken := true }

theorem State.brokenBy_is {s : State} {r : Req} {id : Nat} (lost : Nat) (hr : s.req id = some r) :
    (s.brokenBy id lost).req id = some { r with inflight := r.inflight - lost, broken := true } ∧
    s.Within (touch [] [.reqs, .vars]) (s.brokenBy id lost) := by
  obtain ⟨hback, hw⟩ := State.setsBack_is lost hr
  refine ⟨?_, State.setReq_frame (by decide) hw⟩
  unfold State.brokenBy
  rw [State.req_setReq, hback]
  · rfl
  · intro x
    rfl

theorem abnormalEnd_completes {id status lost : Nat} {r : Req} {x : Ctx} {s : State} (hlo : 6 ≤ status) (hhi : status ≤ 9) (hr : s.req id = some r)
    (hfree : r.fixed = none) (hrun : r.state ≠ rqQueued) (hx : s.ctxOf r.ctx = some x) :
    Completes (.abnormalEnd id status lost) s fun t =>
      ((t.req id).any fun q => q.fixed = some (status, 0) && q.state = rqEnding && q.broken && q.inflight = r.inflight - lost) ∧
      ((t.ctxOf r.ctx).any fun y => y.term) ∧ t.rf R.SERVE_ABNORMAL_ENDS 0 = min (2 ^ 32 - 1) (s.rf R.SERVE_ABNORMAL_ENDS 0 + 1) := by
  have hended : terminates status = true ∧ abnormal status = true := by
    unfold terminates abnormal
    rw [decide_eq_true (show 5 ≤ status by omega), decide_eq_true hhi]
    exact ⟨rfl, rfl⟩
  obtain ⟨hbroken, hw⟩ := State.brokenBy_is lost hr
  have hctx : (s.brokenBy id lost).ctxOf r.ctx = some x := by rw [State.ctxOf_of_ctxs (hw.ctxs (by decide)), hx]
  obtain ⟨hreq, hctxs, hregs⟩ := State.endRequest_running (status := status) hbroken hfree hrun
  refine completes_of_next rfl ?_
  unfold State.abnormalEnd
  rw [if_pos ⟨hlo, hhi⟩, ← State.brokenBy, hreq, State.ctxOf_of_ctxs hctxs, State.ctxOf_fixOutcome 0 hbroken hfree hctx hended.1, State.rf_congr hregs,
    State.rf_fixOutcome_abnormal 0 hbroken hfree hended.2, hw.rf (by decide)]
  refine ⟨by simp [Req.fixedWith], rfl, rfl⟩

theorem absentNotice_completes {stream h : Nat} {r : Req} {s : State} (hhead : s.headOf stream = some h)
    (hone : s.reqsOnStreams [stream] = [r] ∨ h ≠ s.here) (hhere : h = s.here → s.req r.id = some r ∧ r.fixed = none ∧ r.state ≠ rqQueued) :
    Completes (.absentNotice stream) s fun t =>
      (h ≠ s.here → t = s.sendNotice h [0, stream, 0]) ∧ (h = s.here → (t.req r.id).any fun q => q.fixed = some (stFaulted, 0)) := by
  refine completes_of_next rfl ?_
  unfold State.absentNotice
  rw [hhead]
  dsimp only
  refine ⟨fun hne => by rw [if_pos hne], fun heq => ?_⟩
  obtain ⟨hr, hfree, hrun⟩ := hhere heq
  obtain ⟨hbroken, -⟩ := State.brokenBy_is (((s.req r.id).map (·.inflight)).getD 0) hr
  obtain ⟨hreq, -, -⟩ := State.endRequest_running (status := stFaulted) hbroken hfree hrun
  rw [if_neg (by simpa using heq), hone.resolve_right (by simpa using heq)]
  unfold State.each
  rw [List.foldl_cons, List.foldl_nil]
  unfold State.endLost
  dsimp only
  rw [← State.brokenBy, hreq]
  simp [Req.fixedWith]

/-- Settles O30. -/
theorem requestLifeComplete : Obligations.RequestLifeComplete :=
  ⟨fun _ _ _ _ => promptReadDone_completes, fun _ _ _ _ _ => requestActivate_completes, fun _ _ _ _ _ => dispatchTurn_completes,
    fun _ _ _ => starvePromotion_completes, fun _ _ _ => deadlineExpiry_completes, fun _ _ _ _ _ _ => abnormalEnd_completes,
    fun _ _ _ _ => absentNotice_completes⟩

end Sys2Proof.Machine
end

section
/-! Contexts and requests: opened, closed, submitted, cancelled, described (R286, R287, R289, R292, R309; O27). -/

namespace Sys2Proof.Machine

/-! ### What a command's start leaves of serving, R345 -/

section
variable (s : State) (op : Nat) (c : Cmd) (cls : Class)

theorem State.vstate_of_started (v : Nat) : (s.started op c cls).vstate v = s.vstate v := (s.started_within op c cls).vstate (by decide) v

theorem State.var_of_started (v : Nat) : (s.started op c cls).var v = s.var v := by
  rw [State.var, (s.started_within op c cls).vars (by decide), ← State.var]

theorem State.ctxOf_of_started (h : Nat) : (s.started op c cls).ctxOf h = s.ctxOf h := State.ctxOf_of_ctxs ((s.started_within op c cls).ctxs (by decide)) h

theorem State.req_of_started (id : Nat) : (s.started op c cls).req id = s.req id := State.req_of_reqs ((s.started_within op c cls).reqs (by decide)) id

theorem State.freeCtx_of_started : (s.started op c cls).freeCtx = s.freeCtx := by
  rw [State.freeCtx, (s.started_within op c cls).ctxs (by decide), ← State.freeCtx]

theorem State.freeSlot_of_started (v : Nat) : (s.started op c cls).freeSlot v = s.freeSlot v := by
  unfold State.freeSlot
  rw [(s.started_within op c cls).ctxs (by decide), (s.started_within op c cls).vc (by decide), s.var_of_started]

theorem State.reqWords_of_started (r : Req) (status reason : Nat) : (s.started op c cls).reqWords r status reason = s.reqWords r status reason := by
  unfold State.reqWords
  rw [s.ctxOf_of_started, (s.started_within op c cls).now (by decide)]

/-- R286: the checks of CTX_OPEN. -/
theorem State.ctxOpenCheck_of_started (d : Cmd) : (s.started op c cls).ctxOpenCheck d = s.ctxOpenCheck d := by
  have hrf (f : Field) (hf : startMask.testBit f.area = false) (i k : Nat) : (s.started op c cls).rf f i k = s.rf f i k :=
    (s.started_within op c cls).rf hf
  unfold State.ctxOpenCheck State.rb
  simp (disch := decide) only [hrf, s.vstate_of_started, s.freeCtx_of_started, s.freeSlot_of_started]

/-- R289: the checks of SUBMIT. -/
theorem State.submitCheck_of_started (d : Cmd) : (s.started op c cls).submitCheck d = s.submitCheck d := by
  have hrf (f : Field) (hf : startMask.testBit f.area = false) (i k : Nat) : (s.started op c cls).rf f i k = s.rf f i k :=
    (s.started_within op c cls).rf hf
  have hreqs : (s.started op c cls).reqs = s.reqs := (s.started_within op c cls).reqs (by decide)
  have hnow : (s.started op c cls).now = s.now := (s.started_within op c cls).now (by decide)
  have hrb (f : Field) (hf : startMask.testBit f.area = false) (i : Nat) : (s.started op c cls).rb f i = s.rb f i := by rw [State.rb, hrf f hf, State.rb]
  have hheads : ((List.range 64).any fun v => (s.started op c cls).rf R.SERVE2_HEAD 0 v = 1 &&
      ((s.started op c cls).vstate v = vActive || (s.started op c cls).vstate v = vDraining)) =
      (List.range 64).any fun v => s.rf R.SERVE2_HEAD 0 v = 1 && (s.vstate v = vActive || s.vstate v = vDraining) := by
    simp only [s.vstate_of_started, hrf R.SERVE2_HEAD (by decide)]
  unfold State.submitCheck
  dsimp only
  rw [hheads, s.ctxOf_of_started, hrb R.SERVE_SERVE_EN (by decide)]
  cases s.ctxOf (d.f 0 32 32) with
  | none => rfl
  | some x =>
    dsimp only
    rw [s.vstate_of_started, s.req_of_started, s.var_of_started, hreqs, hnow, hrb R.TENANT_ENABLED (by decide), hrb R.RING_BOUND (by decide),
      hrb R.RING_OPEN (by decide), hrf R.RING_TENANT (by decide), hrf R.TENANT_MAX_OPEN (by decide), hrf R.SERVE_QUEUE_MAX (by decide)]

end

/-! ### CTX_OPEN and CTX_CLOSE, R286, R287 -/

theorem State.kvReserve_of_kv {s u : State} (hkv : u.kv = s.kv) (hpages : ∀ v, u.rf R.VCORE_KV_POOL_PAGES v = s.rf R.VCORE_KV_POOL_PAGES v) (v slot n : Nat) :
    u.kvReserve v slot n = ((s.kvReserve v slot n).1, { u with kv := (s.kvReserve v slot n).2.kv }) := by
  have hpool : u.kvPool v = s.kvPool v := by rw [State.kvPool, hkv, State.kvPool]
  unfold State.kvReserve
  rw [show u.kvFree v = s.kvFree v by rw [State.kvFree, hpages, hpool, State.kvFree], show u.kvReserved v = s.kvReserved v by
    rw [State.kvReserved, hpool, State.kvReserved], hpool]
  split
  · unfold State.setKv
    rw [hkv]
  · rw [← hkv]

/-- R286: whether the pages can be reserved depends on the pools alone. -/
theorem State.reserveAll_isSome {s u : State} (hkv : u.kv = s.kv) (hpages : ∀ v, u.rf R.VCORE_KV_POOL_PAGES v = s.rf R.VCORE_KV_POOL_PAGES v)
    (slot n : Nat) (l : List Nat) : (u.reserveAll slot n l).isSome = (s.reserveAll slot n l).isSome := by
  induction l generalizing s u with
  | nil => rfl
  | cons v l ih =>
    have hw : s.Within (touch [] [.kv]) (s.kvReserve v slot n).2 := State.kvReserve_frame (by decide) (s.frame_refl _)
    unfold State.reserveAll
    rw [State.kvReserve_of_kv hkv hpages]
    cases hb : s.kvReserve v slot n with
    | mk b t =>
      rw [hb] at hw
      cases b with
      | false => rfl
      | true => exact ih rfl fun w => (hpages w).trans (hw.rf (by decide)).symm

/-- R286: a context kept at an index, whose reuse count goes up. -/
def State.ctxKept (s : State) (i : Nat) (x : Ctx) : State :=
  { s with ctxReuse := Tbl.put s.ctxReuse i ((Tbl.getD s.ctxReuse i 0 + 1) % 65536), ctxs := Tbl.put s.ctxs i x }

theorem State.ctxKept_within (s : State) (i : Nat) (x : Ctx) : s.Within (touch [] [.ctxReuse, .ctxs]) (s.ctxKept i x) := by
  unfold State.ctxKept
  refine State.frame_mk (s.frame_refl _) ?_
  simp only [or_true, true_and, and_true]
  exact ⟨.inl (by decide), .inl (by decide)⟩

theorem ctxOpen_completes {c : Cmd} {i slot : Nat} {s : State} (h : s.Takes c) (hwords : c.bodyWords = 2) (hcheck : s.ctxOpenCheck c = stOk)
    (hfree : s.freeCtx = some i) (hslot : s.freeSlot (c.f 0 0 6) = some slot)
    (hroom : (s.reserveAll slot (c.f 0 24 24 / 64) (s.var (c.f 0 0 6)).place.kvCores).isSome = true) (hseed : c.w 1 ≠ 0) :
    Completes (.ctxOpen c) s fun t =>
      t.ctxs = Tbl.put s.ctxs i { reuse := Tbl.getD s.ctxReuse i 0, variant := c.f 0 0 6, tenant := c.f 0 6 12, slot := slot, positions := c.f 0 24 24,
                                  seed := c.w 1, det := c.b 0 18 } ∧
      s.Answered t c 0x20 (servingWords stOk 0 0 0 0 0 0 (Tbl.getD s.ctxReuse i 0 * 65536 + i) 0 0 0 (c.f 0 6 12) (c.w 1) s.now 0 0) := by
  have hw := s.started_within 0x20 c .f
  have hroom' : ((s.started 0x20 c .f).reserveAll slot (c.f 0 24 24 / 64) (s.var (c.f 0 0 6)).place.kvCores).isSome = true := by
    rw [State.reserveAll_isSome (hw.kv (by decide)) (fun v => hw.rf (by decide)), hroom]
  obtain ⟨u, hu⟩ := Option.isSome_iff_exists.1 hroom'
  have hpool : (s.started 0x20 c .f).Within (touch [] [.kv]) u := State.reserveAll_frame (by decide) hu (State.frame_refl _ _)
  have hkept : (s.started 0x20 c .f).Within (touch [0x38, 0x39] [.kv, .ctxReuse, .ctxs]) u := hpool.mono (by decide)
  have hreuse : u.ctxReuse = s.ctxReuse := by rw [hpool.ctxReuse (by decide), hw.ctxReuse (by decide)]
  have hctxs : u.ctxs = s.ctxs := by rw [hpool.ctxs (by decide), hw.ctxs (by decide)]
  have hdone (x : Ctx) : (s.started 0x20 c .f).Within (touch [0x38, 0x39] [.kv, .ctxReuse, .ctxs]) ((u.ctxKept i x).countServe (c.f 0 0 6) (c.f 0 6 12)) :=
    State.countServe_frame (by decide) (State.frame_trans hkept ((u.ctxKept_within i x).mono (by decide)))
  have hcount (t : State) : (t.countServe (c.f 0 0 6) (c.f 0 6 12)).ctxs = t.ctxs :=
    (State.countServe_frame (by decide) (t.frame_refl _) : t.Within (touch [0x38, 0x39] []) _).ctxs (by decide)
  refine completes_of_vorane rfl h (by decide) (by simp [hwords]) ?_
  unfold State.ctxOpen
  dsimp only
  rw [s.ctxOpenCheck_of_started, if_neg (by simp [hcheck]), s.freeCtx_of_started, s.freeSlot_of_started, hfree, hslot, s.var_of_started]
  dsimp only [Option.getD_some]
  rw [hu]
  dsimp only
  rw [if_neg hseed, if_neg hseed]
  dsimp only
  rw [← State.ctxKept, (State.reply_within _ _ _).ctxs (by decide), hcount, (hdone _).now (by decide), hw.now (by decide), hreuse]
  refine ⟨?_, State.answered_of_within h (hdone _) (by decide) (by decide)⟩
  rw [← hctxs]
  rfl

/-- R287: a context that is dropped is open no more. -/
theorem State.ctxOf_ctxDrop (s : State) (handle : Nat) (x : Ctx) : (s.ctxDrop handle x).ctxOf handle = none := by
  have hcount (t : State) : (t.countServe x.variant x.tenant).ctxs = t.ctxs :=
    (State.countServe_frame (by decide) (t.frame_refl _) : t.Within (touch [0x38, 0x39] []) _).ctxs (by decide)
  have hresids (t : State) (n : Nat) : (t.clearVResids n).ctxs = t.ctxs :=
    (State.clearVResids_frame (Sub.refl _) (t.frame_refl _)).ctxs (by decide)
  unfold State.ctxDrop
  dsimp only
  rw [State.ctxOf, hcount, hresids, Tbl.get_del_same]

theorem ctxClose_completes {c : Cmd} {x : Ctx} {s : State} (h : s.Takes c) (hwords : c.bodyWords = 1) (hx : s.ctxOf (c.f 0 0 32) = some x)
    (hreq : x.req = none) :
    Completes (.ctxClose c) s fun t => t.ctxOf (c.f 0 0 32) = none ∧
      s.Answered t c 0x21 (servingWords stOk 0 0 0 0 0 0 (c.f 0 0 32) x.len 0 0 x.tenant x.seed s.now 0 0) := by
  have hw := s.started_within 0x21 c .f
  have hdrop : (s.started 0x21 c .f).Within 0x2803e01007800000300000100110002 ((s.started 0x21 c .f).ctxDrop (c.f 0 0 32) x) :=
    State.ctxDrop_frame (Sub.refl _) (State.frame_refl _ _)
  refine completes_of_vorane rfl h (by decide) (by simp [hwords]) ?_
  unfold State.ctxClose
  dsimp only
  rw [s.ctxOf_of_started, hx]
  dsimp only
  rw [hreq, if_neg (by decide), State.ctxOf_of_ctxs ((State.reply_within _ _ _).ctxs (by decide)), State.ctxOf_ctxDrop, hdrop.now (by decide),
    hw.now (by decide)]
  exact ⟨rfl, State.answered_of_within h hdrop (by decide) (by decide)⟩

/-! ### INQUIRE, R292 -/

theorem inquire_completes {c : Cmd} {r : Req} {s : State} (h : s.Takes c) (hwords : c.bodyWords = 1) (h7 : c.f 0 33 7 = 0) (h14 : c.f 0 50 14 = 0)
    (hcmd : c.b 0 32 = false) (hr : s.req (c.f 0 0 32) = some r) :
    Completes (.inquire c) s fun t => s.Answered t c 0x24 (s.reqWords r stOk 0) := by
  refine completes_of_vorane rfl h (by decide) (by simp [hwords]) ?_
  unfold State.inquire State.inquireReq
  dsimp only
  rw [if_neg (by simp [h7, h14]), hcmd, if_pos (by decide), s.req_of_started, hr]
  dsimp only [Option.getD_some]
  rw [s.reqWords_of_started]
  exact State.answered_at_once h _ _ _

/-! ### CANCEL, R309 -/

theorem State.ctxOf_fixOutcome_open {s : State} {id status : Nat} (reason h : Nat) (hterm : terminates status = false) :
    (s.fixOutcome id status reason).ctxOf h = s.ctxOf h := by
  have hwhen (u : State) (b : Bool) {f : State → State} (hf : ∀ w : State, (f w).ctxs = w.ctxs) : (u.when b f).ctxOf h = u.ctxOf h :=
    State.ctxOf_of_ctxs (by cases b with | false => rfl | true => exact hf u) _
  have hint (u : State) (p : Page) (b : Nat) : (u.setInt p b).ctxs = u.ctxs :=
    (State.setInt_frame (M := 0x18ffffffffffffffffffff) (by decide) (Sub.anyPage (Sub.refl _) (by decide) _) (u.frame_refl _)).ctxs (by decide)
  have hwf (u : State) (f : Field) (i v : Nat) : (u.wf f i v).ctxOf h = u.ctxOf h := rfl
  have hreq (u : State) (n : Nat) (f : Req → Req) : (u.setReq n f).ctxOf h = u.ctxOf h := rfl
  have hring (u : State) (n : Nat) (y : RingSt) : (u.setRing n y).ctxOf h = u.ctxOf h := rfl
  have hinc (u : State) (f : Field) (i n : Nat) : (u.inc f i n).ctxOf h = u.ctxOf h := State.ctxOf_of_ctxs (State.inc_ctxs ..) _
  unfold State.fixOutcome
  split
  · rfl
  · dsimp only
    split
    · rfl
    · rw [hwhen _ _ (fun w => hint w _ _), hwhen _ _ (fun w => (hint _ _ _).trans (State.inc_ctxs ..)), hterm, State.when_false, hwf, hreq, hinc, hring]

theorem State.endRequest_open {s : State} {r : Req} {id status : Nat} (hr : s.req id = some r) (hfree : r.fixed = none) :
    s.endRequest id status = (s.fixOutcome id status 0).endWhenIdle id := by
  unfold State.endRequest
  rw [hr]
  dsimp only
  rw [hfree, if_neg (by simp)]

/-- R309: the answer to a CANCEL that takes effect. -/
theorem State.cancel_open {s : State} {c : Cmd} {r : Req} {x : Ctx} (hr : s.req (c.f 0 0 32) = some r) (hfree : r.fixed = none)
    (hx : s.ctxOf r.ctx = some x) :
    s.cancel c = ((s.setRec c.qp c.cmdId fun y => { y with req := some (c.f 0 0 32) }).endRequest (c.f 0 0 32) stCancelled).reply c
      (servingWords stCancelled 0 r.notes r.id r.steps r.tokens r.lastSeq r.ctx x.len r.ring 0 r.tenant x.seed s.now r.accept s.now) := by
  obtain ⟨u, hu⟩ : ∃ u, u = s.setRec c.qp c.cmdId fun y => { y with req := some (c.f 0 0 32) } := ⟨_, rfl⟩
  have hr' : u.req (c.f 0 0 32) = some r := by rw [hu]; exact hr
  have hx' : u.ctxOf r.ctx = some x := by rw [hu]; exact hx
  have hnow : u.now = s.now := by rw [hu]; rfl
  have hw : u.Within 0x15001800000500000000000000 (u.fixOutcome (c.f 0 0 32) stCancelled 0) := State.fixOutcome_frame (by decide) (u.frame_refl _)
  unfold State.cancel
  dsimp only
  rw [← hu, hr']
  dsimp only
  rw [hfree]
  dsimp only
  rw [State.req_fixOutcome _ _ hr' hfree, ← State.endRequest_open hr' hfree]
  dsimp only [Option.map_some, Option.getD_some, Req.fixedWith]
  unfold State.reqWords
  dsimp only
  rw [State.ctxOf_fixOutcome_open 0 _ (by decide), hx', hw.now (by decide), hnow, if_neg (by decide), if_neg (by decide)]
  rfl

theorem cancel_completes {c : Cmd} {r : Req} {x : Ctx} {s : State} (h : s.Takes c) (hwords : c.bodyWords = 1) (hr : s.req (c.f 0 0 32) = some r)
    (hfree : r.fixed = none) (hx : s.ctxOf r.ctx = some x) :
    Completes (.cancel c) s fun t =>
      (r.state ≠ rqQueued → (t.req r.id).any fun q => q.fixed = some (stCancelled, 0) && q.state = rqEnding && !q.decodeReady && q.endStamp = s.now) ∧
      (r.state = rqQueued → (s.ring r.ring).waiting = [] → s.ringRoom r.ring 1 = true →
        t.ended.head?.any fun q => q.id = r.id && q.fixed = some (stCancelled, 0) && q.state = rqEnded && q.endStamp = s.now) ∧
      s.Answered t c 0x23 (servingWords stCancelled 0 r.notes r.id r.steps r.tokens r.lastSeq r.ctx x.len r.ring 0 r.tenant x.seed s.now r.accept s.now) := by
  have hw := s.started_within 0x23 c .f
  obtain ⟨u, hu⟩ : ∃ u, u = (s.started 0x23 c .f).setRec c.qp c.cmdId fun y => { y with req := some (c.f 0 0 32) } := ⟨_, rfl⟩
  have hset : (s.started 0x23 c .f).Within (touch [] [.cmdRecs]) u := by
    rw [hu]
    exact State.setRec_frame (by decide) (State.frame_refl _ _)
  have hr' : u.req (c.f 0 0 32) = some r := by rw [State.req_of_reqs (hset.reqs (by decide)), s.req_of_started, hr]
  have hnow : u.now = s.now := by rw [hset.now (by decide), hw.now (by decide)]
  have hend : (s.started 0x23 c .f).Within 0x803e3d107800000700000100110002 (u.endRequest (c.f 0 0 32) stCancelled) :=
    State.endRequest_frame (by decide) (hset.mono (by decide))
  refine completes_of_vorane rfl h (by decide) (by simp [hwords]) ?_
  rw [State.cancel_open (by rw [s.req_of_started, hr]) hfree (by rw [s.ctxOf_of_started, hx]), ← hu, hw.now (by decide),
    State.req_of_reqs ((State.reply_within _ _ _).reqs (by decide)), (State.reply_within _ _ _).ended (by decide)]
  refine ⟨fun hrun => ?_, fun hqueued hwait hroom => ?_, State.answered_of_within h hend (by decide) (by decide)⟩
  · obtain ⟨hreq, -, -⟩ := State.endRequest_running (status := stCancelled) hr' hfree hrun
    rw [State.id_of_req hr, hreq, hnow]
    simp [Req.fixedWith]
  · have hrings : u.ring r.ring = s.ring r.ring := by rw [State.ring, hset.rings (by decide), hw.rings (by decide), State.ring]
    have hroom' : u.ringRoom r.ring 1 = true := by
      rw [← hroom]
      unfold State.ringRoom State.ringSize
      rw [hset.rf (by decide), hset.rf (by decide), hset.rf (by decide), hw.rf (by decide), hw.rf (by decide), hw.rf (by decide)]
    have hq := (State.endRequest_queued (status := stCancelled) hr' hfree hqueued (by rw [hrings, hwait]) hroom').2
    rw [hnow] at hq
    rw [State.id_of_req hr]
    exact hq

/-! ### SUBMIT, R289, R290 -/

/-- R289: the request that a SUBMIT asks for. -/
def State.submitReq (s : State) (c : Cmd) (x : Ctx) : Req :=
  { id := c.f 0 0 32, ctx := c.f 0 32 32, variant := x.variant, tenant := x.tenant, cls := s.rf R.TENANT_CLASS x.tenant, ring := c.f 1 0 16,
    qp := c.qp, greedy := c.b 1 16, stops := c.tokens 7 (c.f 1 20 4), maxNew := c.f 1 32 32, deadline := c.w 2, temp := c.f 3 0 32,
    topP := c.f 3 32 32, topK := c.f 4 0 32, promptCount := c.f 4 32 32, prompt := c.tokens 11 (c.f 1 24 8),
    promptRead := decide (c.f 1 24 8 = c.f 4 32 32), accept := s.now, order := s.rf R.SERVE_ACCEPTED 0, readyAt := s.elapsed, seed := x.seed }

/-- R289: the request queued at its context. -/
def State.queued (s : State) (c : Cmd) (x : Ctx) : State :=
  ({ s with reqs := s.reqs ++ [s.submitReq c x] }).setCtx (c.f 0 32 32) fun y => { y with req := some (c.f 0 0 32) }

/-- R289: the ring opened for a request. -/
def State.ringOpened (s : State) (c : Cmd) : State :=
  (((s.wf R.RING_OPEN (c.f 1 0 16) 1).wf R.RING_FIXED (c.f 1 0 16) 0).wf R.RING_REQUEST_ID (c.f 1 0 16) (c.f 0 0 32)).wf R.RING_DEADLINE (c.f 1 0 16) (c.w 2)

/-- R289, R318: the accepted request counted. -/
def State.submitted (s : State) (c : Cmd) (x : Ctx) : State :=
  ((((s.queued c x).ringOpened c).inc R.SERVE_ACCEPTED 0).countServe x.variant x.tenant).setRec c.qp c.cmdId fun y => { y with req := some (c.f 0 0 32) }

/-- R290: the READ of the prompt's rest. -/
def State.promptAsked (s : State) (c : Cmd) : State :=
  s.when (decide (c.f 1 24 8 < c.f 4 32 32)) fun t => t.issueRead c.qp (c.w 5) (c.f 6 0 32) (4 * (c.f 4 32 32 - c.f 1 24 8))

theorem State.submit_accepted {s : State} {c : Cmd} {x : Ctx} (hx : s.ctxOf (c.f 0 32 32) = some x) (hok : s.submitCheck c = stAccepted) :
    s.submit c = ((s.submitted c x).promptAsked c).reply c (((s.submitted c x).promptAsked c).reqWords (s.submitReq c x) stAccepted 0) := by
  unfold State.submit
  dsimp only
  rw [hx, hok]
  dsimp only
  rw [if_neg (by decide)]
  rfl

theorem State.promptAsked_within (s : State) (c : Cmd) : s.Within (touch [0x28, 0x29] [.qps, .out]) (s.promptAsked c) :=
  State.when_frame (s.frame_refl _) fun _ h => State.issueRead_frame (by decide) h

/-- R331: a READ leaves the connections as they are. -/
theorem State.connected_promptAsked (s : State) (c : Cmd) (q : Nat) : (s.promptAsked c).connected q = s.connected q := by
  have hissue (t : State) (p a k n : Nat) : (t.issueRead p a k n).rf R.QP_STATE q = t.rf R.QP_STATE q := by
    have hset (u : State) (y : QpSt) : (u.setQp p y).rf R.QP_STATE q = u.rf R.QP_STATE q := rfl
    unfold State.issueRead
    dsimp only
    split
    · unfold State.txQp State.framesOut
      rw [State.rf_inc_of_code _ (by decide), hset, State.rf_wf_of_code _ (by decide), State.rf_inc_of_code _ (by decide), State.rf_emit]
    · rfl
  have hrf : (s.promptAsked c).rf R.QP_STATE q = s.rf R.QP_STATE q := by
    unfold State.promptAsked
    cases decide (c.f 1 24 8 < c.f 4 32 32) with
    | false => rfl
    | true => exact hissue _ _ _ _ _
  rw [State.connected, hrf, State.connected]

/-- What a SUBMIT accepted changes. -/
theorem State.submitted_within (s : State) (c : Cmd) (x : Ctx) :
    s.Within (touch [0x38, 0x39, 0x3A] [.reqs, .ctxs, .cmdRecs]) (s.submitted c x) := by
  have hq : s.Within (touch [0x38, 0x39, 0x3A] [.reqs, .ctxs, .cmdRecs]) (s.queued c x) := by
    refine State.setCtx_frame (by decide) (State.frame_mk (s.frame_refl _) ?_)
    simp only [or_true, true_and, and_true]
    exact .inl (by decide)
  unfold State.submitted State.ringOpened
  exact State.setRec_frame (by decide) (State.countServe_frame (by decide) (State.inc_frame (by decide) (State.wf_frame (by decide) (State.wf_frame (by decide)
    (State.wf_frame (by decide) (State.wf_frame (by decide) hq))))))

/-- R318: SERVE.OPEN counts the open requests. -/
theorem State.rf_countServe_open (s : State) (v t : Nat) : (s.countServe v t).rf R.SERVE_OPEN 0 = s.reqs.length % 2 ^ 17 := by
  unfold State.countServe
  dsimp only
  rw [State.rf_wf_of_code _ (by decide), State.rf_wf_of_code _ (by decide), State.rf_wf_of_code _ (by decide), State.rf_wf_of_code _ (by decide),
    State.rf_wf_of_code _ (by decide), State.rf_wf_of_code _ (by decide), State.rf_wf_same]
  rfl

theorem State.submitReq_of_started (s : State) (op : Nat) (c : Cmd) (cls : Class) (d : Cmd) (x : Ctx) :
    (s.started op c cls).submitReq d x = s.submitReq d x := by
  have hw := s.started_within op c cls
  unfold State.submitReq
  rw [hw.rf (by decide), hw.rf (by decide), hw.now (by decide), hw.elapsed (by decide)]

/-- R289, R318: what a SUBMIT accepted leaves. -/
theorem State.submitted_is (s : State) (c : Cmd) {x : Ctx} (hx : s.ctxOf (c.f 0 32 32) = some x) :
    (s.submitted c x).reqs = s.reqs ++ [s.submitReq c x] ∧ (s.submitted c x).ctxOf (c.f 0 32 32) = some { x with req := some (c.f 0 0 32) } ∧
    (s.submitted c x).rf R.RING_OPEN (c.f 1 0 16) = 1 ∧ (s.submitted c x).rf R.RING_REQUEST_ID (c.f 1 0 16) = c.f 0 0 32 ∧
    (s.submitted c x).rf R.SERVE_ACCEPTED 0 = (s.rf R.SERVE_ACCEPTED 0 + 1) % 2 ^ 64 ∧
    (s.submitted c x).rf R.SERVE_OPEN 0 = (s.reqs.length + 1) % 2 ^ 17 := by
  have hcount (t : State) : t.Within (touch [0x38, 0x39] []) (t.countServe x.variant x.tenant) := State.countServe_frame (by decide) (t.frame_refl _)
  have hrec (t : State) (f : CmdRec → CmdRec) (g : Field) (j : Nat) : (t.setRec c.qp c.cmdId f).rf g j = t.rf g j := rfl
  have hqueued (g : Field) (j : Nat) : (s.queued c x).rf g j = s.rf g j := rfl
  have hreqs : (((s.queued c x).ringOpened c).inc R.SERVE_ACCEPTED 0).reqs = s.reqs ++ [s.submitReq c x] := State.inc_reqs ..
  have hctx : ((s.queued c x).ringOpened c).ctxOf (c.f 0 32 32) = some { x with req := some (c.f 0 0 32) } := by
    have hring (t : State) : (t.ringOpened c).ctxOf (c.f 0 32 32) = t.ctxOf (c.f 0 32 32) := rfl
    have hlist (l : List Req) : ({ s with reqs := l }).ctxOf (c.f 0 32 32) = some x := hx
    rw [hring, State.queued, State.ctxOf_setCtx, hlist]
    · rfl
    · intro y
      rfl
  have hrecr (t : State) (f : CmdRec → CmdRec) : (t.setRec c.qp c.cmdId f).reqs = t.reqs := rfl
  have hrecc (t : State) (f : CmdRec → CmdRec) : (t.setRec c.qp c.cmdId f).ctxOf (c.f 0 32 32) = t.ctxOf (c.f 0 32 32) := rfl
  unfold State.submitted
  refine ⟨?_, ?_, ?_, ?_, ?_, ?_⟩
  · rw [hrecr, (hcount _).reqs (by decide), hreqs]
  · rw [hrecc, State.ctxOf_of_ctxs ((hcount _).ctxs (by decide)), State.ctxOf_of_ctxs (State.inc_ctxs ..), hctx]
  · rw [hrec, (hcount _).rf (by decide), State.rf_inc_of_code _ (by decide), State.ringOpened, State.rf_wf_of_code _ (by decide),
      State.rf_wf_of_code _ (by decide), State.rf_wf_of_code _ (by decide), State.rf_wf_same]
    rfl
  · rw [hrec, (hcount _).rf (by decide), State.rf_inc_of_code _ (by decide), State.ringOpened, State.rf_wf_of_code _ (by decide), State.rf_wf_same]
    exact Nat.mod_eq_of_lt (Nat.mod_lt _ (by decide))
  · rw [hrec, State.rf_countServe_settled (by decide), State.rf_inc_wrap _ _ (by decide), State.ringOpened, State.rf_wf_of_code _ (by decide),
      State.rf_wf_of_code _ (by decide), State.rf_wf_of_code _ (by decide), State.rf_wf_of_code _ (by decide), hqueued]
    rfl
  · rw [hrec, State.rf_countServe_open, hreqs, List.length_append]
    rfl

theorem submit_completes {c : Cmd} {x : Ctx} {s : State} (h : s.Takes c) (hwords : c.bodyWords = 27) (hx : s.ctxOf (c.f 0 32 32) = some x)
    (hok : s.submitCheck c = stAccepted) :
    Completes (.submit c) s fun t =>
      t.reqs = s.reqs ++ [{ id := c.f 0 0 32, ctx := c.f 0 32 32, variant := x.variant, tenant := x.tenant, cls := s.rf R.TENANT_CLASS x.tenant, ring := c.f 1 0 16,
                            qp := c.qp, greedy := c.b 1 16, stops := c.tokens 7 (c.f 1 20 4), maxNew := c.f 1 32 32, deadline := c.w 2, temp := c.f 3 0 32,
                            topP := c.f 3 32 32, topK := c.f 4 0 32, promptCount := c.f 4 32 32, prompt := c.tokens 11 (c.f 1 24 8),
                            promptRead := decide (c.f 1 24 8 = c.f 4 32 32), accept := s.now, order := s.rf R.SERVE_ACCEPTED 0, readyAt := s.elapsed, seed := x.seed }] ∧
      t.rf R.RING_OPEN (c.f 1 0 16) = 1 ∧ t.rf R.RING_REQUEST_ID (c.f 1 0 16) = c.f 0 0 32 ∧ t.rf R.SERVE_ACCEPTED 0 = (s.rf R.SERVE_ACCEPTED 0 + 1) % 2 ^ 64 ∧
      t.rf R.SERVE_OPEN 0 = (s.reqs.length + 1) % 2 ^ 17 ∧
      s.Answered t c 0x22 (servingWords stAccepted 0 0 (c.f 0 0 32) 0 0 0 (c.f 0 32 32) x.len (c.f 1 0 16) 1 x.tenant x.seed s.now s.now 0) := by
  have hw := s.started_within 0x22 c .f
  have hx' : (s.started 0x22 c .f).ctxOf (c.f 0 32 32) = some x := by rw [s.ctxOf_of_started, hx]
  obtain ⟨hreqs, hctx, hopen, hid, haccepted, hcounted⟩ := (s.started 0x22 c .f).submitted_is c hx'
  have hsub := (s.started 0x22 c .f).submitted_within c x
  have hask := ((s.started 0x22 c .f).submitted c x).promptAsked_within c
  have hreq := s.submitReq_of_started 0x22 c .f c x
  have hsent : s.Answered ((((s.started 0x22 c .f).submitted c x).promptAsked c).reply c
      (servingWords stAccepted 0 0 (c.f 0 0 32) 0 0 0 (c.f 0 32 32) x.len (c.f 1 0 16) 1 x.tenant x.seed s.now s.now 0)) c 0x22
      (servingWords stAccepted 0 0 (c.f 0 0 32) 0 0 0 (c.f 0 32 32) x.len (c.f 1 0 16) 1 x.tenant x.seed s.now s.now 0) := by
    refine State.answered_reply ?_ ?_
    · rw [State.openCmd, hask.cmds (by decide), hsub.cmds (by decide), ← State.openCmd, State.started_openCmd h.2.2.1]
    · rw [State.connected_promptAsked, State.connected, hsub.rf (by decide), ← State.connected, State.started_connected, h.connected]
  have hbody : (((s.started 0x22 c .f).submitted c x).promptAsked c).reqWords (s.submitReq c x) stAccepted 0 =
      servingWords stAccepted 0 0 (c.f 0 0 32) 0 0 0 (c.f 0 32 32) x.len (c.f 1 0 16) 1 x.tenant x.seed s.now s.now 0 := by
    unfold State.reqWords
    rw [hask.now (by decide), hsub.now (by decide), hw.now (by decide), State.ctxOf_of_ctxs (hask.ctxs (by decide))]
    unfold State.submitReq
    dsimp only
    rw [hctx, if_neg (by decide)]
    rfl
  refine completes_of_vorane rfl h (by decide) (by simp [hwords]) ?_
  rw [State.submit_accepted hx' (by rw [s.submitCheck_of_started, hok]), hreq, hbody]
  have hreply := (((s.started 0x22 c .f).submitted c x).promptAsked c).reply_within c
    (servingWords stAccepted 0 0 (c.f 0 0 32) 0 0 0 (c.f 0 32 32) x.len (c.f 1 0 16) 1 x.tenant x.seed s.now s.now 0)
  refine ⟨?_, ?_, ?_, ?_, ?_, hsent⟩
  · rw [hreply.reqs (by decide), hask.reqs (by decide), hreqs, hreq, hw.reqs (by decide), State.submitReq]
  · rw [hreply.rf (by decide), hask.rf (by decide), hopen]
  · rw [hreply.rf (by decide), hask.rf (by decide), hid]
  · rw [hreply.rf (by decide), hask.rf (by decide), haccepted, hw.rf (by decide)]
  · rw [hreply.rf (by decide), hask.rf (by decide), hcounted, hw.reqs (by decide)]

/-- Settles O27. -/
theorem contextsAndRequestsComplete : Obligations.ContextsAndRequestsComplete :=
  ⟨fun _ _ _ _ => ctxOpen_completes, fun _ _ _ => ctxClose_completes, fun _ _ _ => submit_completes, fun _ _ _ _ => cancel_completes,
    fun _ _ _ => inquire_completes⟩

end Sys2Proof.Machine
end

section
/-! Sandglass time: PTP, the host's time set and the loss of a source (R337, R511 to R514; O42). -/

namespace Sys2Proof.Machine

theorem State.rf_eq_one_of_rb {s : State} {f : Field} {i : Nat} (hlen : f.len = 1) (h : s.rb f i = true) : s.rf f i = 1 := by
  have hlt := s.rf_lt f i 0
  rw [hlen] at hlt
  have hne : s.rf f i ≠ 0 := by
    intro h0
    rw [State.rb, h0] at h
    exact absurd h (by decide)
  omega

/-! ### PTP, R337 -/

theorem State.followsPtp_of_rf {s t : State} {p : Nat} (htor : t.tor = s.tor)
    (hrf : ∀ f ∈ [R.HOST2_TIME_SOURCE, R.HOST2_PORT_STATE, R.OASIS2_SYNC_MODE, R.TORUS1_PLAN_LOADED, R.TORUS1_SIZE_POSITION], ∀ j, t.rf f j = s.rf f j) :
    t.followsPtp p = s.followsPtp p := by
  unfold State.followsPtp State.here State.rb
  rw [hrf R.HOST2_TIME_SOURCE (by decide), hrf R.HOST2_PORT_STATE (by decide), hrf R.OASIS2_SYNC_MODE (by decide), hrf R.TORUS1_PLAN_LOADED (by decide),
    hrf R.TORUS1_SIZE_POSITION (by decide), htor]

/-- R337: the offset of a port that the time does not follow. -/
theorem State.ptpOffset_plain {s : State} {p : Nat} (h : s.followsPtp p = false) :
    s.ptpOffset p = s.wf R.HOST2_OFFSET_NS p (fieldOfInt 64 ((s.port p).msOffset - signedOf 64 (s.rf R.HOST2_PATH_DELAY_NS p))) := by
  have hf (v : Nat) : (s.wf R.HOST2_OFFSET_NS p v).followsPtp p = s.followsPtp p := by
    refine State.followsPtp_of_rf rfl fun f hf j => State.rf_wf_of_code _ ?_ _ _ _ _ _
    exact (by decide : ∀ f ∈ [R.HOST2_TIME_SOURCE, R.HOST2_PORT_STATE, R.OASIS2_SYNC_MODE, R.TORUS1_PLAN_LOADED, R.TORUS1_SIZE_POSITION],
      f.code ≠ R.HOST2_OFFSET_NS.code) f hf
  unfold State.ptpOffset
  dsimp only
  rw [hf, h, State.when_false]

theorem ptpSync_completes {p d n : Nat} {s : State} (hp : p < 2) (hon : s.ptpOn p d = true) :
    Completes (.ptpSync p d n true) s fun t =>
      t.rf R.HOST2_SYNC_STAMP p = s.now % 2 ^ 64 ∧ t.port p = { s.port p with syncSeq := some n, syncRx := s.now } := by
  refine completes_of_next rfl ?_
  rw [Nat.mod_eq_of_lt hp]
  unfold State.ptpSync
  rw [hon, if_neg (by decide), if_neg (by decide)]
  exact ⟨State.rf_wf_same _ _ _ _ _, s.port_setPort _ _⟩

theorem ptpFollowUp_completes {p d n t1 : Nat} {s : State} (hp : p < 2) (hon : s.ptpOn p d = true) (hseq : (s.port p).syncSeq = some n)
    (hfree : s.followsPtp p = false) :
    Completes (.ptpFollowUp p d n t1) s fun t =>
      t.port p = { s.port p with
        syncSeq := none, syncTx := t1, msOffset := ((s.port p).syncRx : Int) - t1, delaySeq := ((s.port p).delaySeq + 1) % 65536,
        delayReqTx := some (((s.port p).delaySeq + 1) % 65536, s.now) } ∧
      t.rf R.HOST2_OFFSET_NS p = fieldOfInt 64 (((s.port p).syncRx : Int) - t1 - signedOf 64 (s.rf R.HOST2_PATH_DELAY_NS p)) % 2 ^ 64 ∧
      t.out = .eth p .ptpDelayReq [s.rf R.HOST2_DOMAIN p, ((s.port p).delaySeq + 1) % 65536] :: s.out := by
  have hset (x : PortSt) (f : Field) (j : Nat) : (s.setPort p x).rf f j = s.rf f j := rfl
  have hfollow (x : PortSt) : ((s.setPort p x).inc R.HOST2_SYNC_RX p).followsPtp p = false := by
    refine (State.followsPtp_of_rf (State.inc_tor ..) fun f hf j => ?_).trans hfree
    rw [State.rf_inc_of_code _ ((by decide : ∀ f ∈ [R.HOST2_TIME_SOURCE, R.HOST2_PORT_STATE, R.OASIS2_SYNC_MODE, R.TORUS1_PLAN_LOADED,
      R.TORUS1_SIZE_POSITION], f.code ≠ R.HOST2_SYNC_RX.code) f hf), hset]
  have hport (x : PortSt) : ((s.setPort p x).inc R.HOST2_SYNC_RX p).port p = x := by
    rw [State.port, State.inc_ports, ← State.port, State.port_setPort]
  have hwf (u : State) (v : Nat) : (u.wf R.HOST2_OFFSET_NS p v).port p = u.port p := rfl
  refine completes_of_next rfl ?_
  rw [Nat.mod_eq_of_lt hp]
  unfold State.ptpFollowUp
  dsimp only
  rw [if_pos ⟨hon, hseq⟩, State.ptpOffset_plain (hfollow _), State.port_sendEth, hwf, hport, State.out_sendEth, State.wf_out, State.inc_out]
  refine ⟨rfl, ?_, rfl⟩
  rw [State.sendEth, State.rf_inc_of_code _ (by decide), State.rf_emit, State.rf_wf_same, State.rf_inc_of_code _ (by decide), hset]
  rfl

theorem ptpAnnounce_completes {p d gm : Nat} {s : State} (hp : p < 2) (hon : s.ptpOn p d = true) (hstate : s.rf R.HOST2_PORT_STATE p = 1) :
    Completes (.ptpAnnounce p d gm) s fun t => t.rf R.HOST2_GM_IDENTITY p = gm % 2 ^ 64 ∧ t.rf R.HOST2_PORT_STATE p = 2 := by
  have hport : (s.wf R.HOST2_GM_IDENTITY p gm).rf R.HOST2_PORT_STATE p = 1 := by rw [State.rf_wf_of_code _ (by decide), hstate]
  refine completes_of_next rfl ?_
  rw [Nat.mod_eq_of_lt hp]
  unfold State.ptpAnnounce
  dsimp only
  rw [if_pos hon, if_neg (by rw [hstate]; simp)]
  unfold State.setPtp
  rw [if_neg (by rw [hport]; decide), State.rf_setInt_plain _ _ _ (by decide), State.rf_setInt_plain _ _ _ (by decide), State.rf_wf_of_code _ (by decide),
    State.rf_wf_same, State.rf_wf_same]
  exact ⟨rfl, rfl⟩

theorem ptpDelayResp_completes {p d n t3 t4 : Nat} {s : State} (hp : p < 2) (hon : s.ptpOn p d = true) (hreq : (s.port p).delayReqTx = some (n, t3))
    (hstate : s.rf R.HOST2_PORT_STATE p = 2) (hsrc : s.rb R.HOST2_TIME_SOURCE p = false) :
    Completes (.ptpDelayResp p d n t4) s fun t =>
      t.rf R.HOST2_PATH_DELAY_NS p = fieldOfInt 64 (((s.port p).msOffset + ((t4 : Int) - t3)) / 2) % 2 ^ 64 ∧
      t.rf R.HOST2_PORT_STATE p = 3 ∧ t.port p = { s.port p with delayReqTx := none } := by
  obtain ⟨u, hu⟩ : ∃ u, u = (s.setPort p { s.port p with delayReqTx := none }).wf R.HOST2_PATH_DELAY_NS p
    (fieldOfInt 64 (((s.port p).msOffset + ((t4 : Int) - t3)) / 2)) := ⟨_, rfl⟩
  have hset (x : PortSt) (f : Field) (j : Nat) : (s.setPort p x).rf f j = s.rf f j := rfl
  have hdelay : u.rf R.HOST2_PATH_DELAY_NS p = fieldOfInt 64 (((s.port p).msOffset + ((t4 : Int) - t3)) / 2) % 2 ^ 64 := by
    rw [hu, State.rf_wf_same]
    rfl
  have hstate' : u.rf R.HOST2_PORT_STATE p = 2 := by rw [hu, State.rf_wf_of_code _ (by decide), hset, hstate]
  have hport : u.port p = { s.port p with delayReqTx := none } := by
    rw [hu]
    exact s.port_setPort p _
  have hlead : u.setPtp p 3 = (u.wf R.HOST2_PORT_STATE p 3).setInt (hostPage p 2) R.INT_HOST2_PTP_STATE := by
    rw [State.setPtp, if_neg (by rw [hstate']; decide)]
  have hfollow : (u.setPtp p 3).followsPtp p = false := by
    have hrb : (u.setPtp p 3).rb R.HOST2_TIME_SOURCE p = false := by
      rw [← hsrc, State.rb, State.rb, hlead, State.rf_setInt_plain _ _ _ (by decide), State.rf_wf_of_code _ (by decide), hu, State.rf_wf_of_code _ (by decide),
        hset]
    unfold State.followsPtp
    dsimp only
    rw [hrb]
    rfl
  have hwf (t : State) (v : Nat) : (t.wf R.HOST2_OFFSET_NS p v).port p = t.port p := rfl
  refine completes_of_next rfl ?_
  rw [Nat.mod_eq_of_lt hp]
  unfold State.ptpDelayResp
  dsimp only
  rw [hreq]
  dsimp only
  rw [if_pos ⟨hon, rfl⟩, ← hu, hstate', decide_eq_true rfl, State.when_true, State.ptpOffset_plain hfollow, State.rf_wf_of_code _ (by decide),
    State.rf_wf_of_code _ (by decide), hwf, hlead, State.rf_setInt_plain _ _ _ (by decide), State.rf_setInt_plain _ _ _ (by decide),
    State.rf_wf_of_code _ (by decide), State.rf_wf_same, hdelay, State.port_setInt, ← hport]
  exact ⟨rfl, rfl, rfl⟩

/-! ### The host's time set, R511, R514 -/

theorem State.arrivalOf_started {s : State} {op : Nat} {c : Cmd} {cls : Class} (h : s.openCmd c.qp c.cmdId = none) :
    (s.started op c cls).arrivalOf c.qp c.cmdId = s.now := by
  rw [State.arrivalOf, State.started_openCmd h]
  rfl

/-- R511: a step of the time. -/
theorem State.timeStep_is (s : State) (off src : Nat) : (s.timeStep off src).now = s.now + off ∧ (s.timeStep off src).rf R.OASIS2_EPOCH_SET 0 = 1 := by
  obtain ⟨u, hu⟩ : ∃ u, u = ((({ s with now := s.now + off } : State).wf R.OASIS2_LAST_STEP_OLD 0 s.now).wf R.OASIS2_LAST_STEP_NEW 0 (s.now + off)).inc
    R.OASIS2_STEP_COUNT 0 := ⟨_, rfl⟩
  have hnow : u.now = s.now + off := by rw [hu, State.inc_now]; rfl
  obtain ⟨y, hy⟩ : ∃ y, y = u.when (!u.rb R.OASIS2_EPOCH_SET 0) fun t =>
    ((t.wf R.OASIS2_EPOCH_SET 0 1).wf R.OASIS2_FIRST_STEP_OLD 0 s.now).wf R.OASIS2_FIRST_STEP_NEW 0 (s.now + off) := ⟨_, rfl⟩
  have hyset : y.now = u.now ∧ y.rf R.OASIS2_EPOCH_SET 0 = 1 := by
    rw [hy]
    cases hb : u.rb R.OASIS2_EPOCH_SET 0 with
    | true => exact ⟨rfl, State.rf_eq_one_of_rb rfl hb⟩
    | false =>
      refine ⟨rfl, ?_⟩
      rw [Bool.not_false, State.when_true, State.rf_wf_of_code _ (by decide), State.rf_wf_of_code _ (by decide), State.rf_wf_same]
      rfl
  have hw (k p r : Nat) (l : List Nat) : y.Within (touch [1] [.irqLatch, .irqs, .staging, .lostStamps])
      ((y.setInt (oasisPage 2) R.INT_OASIS2_STEPPED).logEv k p r l) :=
    State.logEv_frame (by decide) (State.setInt_frame (by decide) (by decide) (y.frame_refl _))
  unfold State.timeStep
  dsimp only
  rw [← hu, ← hy, (hw _ _ _ _).now (by decide), hyset.1, hnow, State.rf_logEv_plain _ _ _ _ _ (by decide), State.rf_setInt_plain _ _ _ (by decide), hyset.2]
  exact ⟨rfl, rfl⟩

theorem timeSetStep_completes {c : Cmd} {s : State} (h : s.Takes c) (hwords : c.bodyWords = 3) (hmode : c.w 0 = 0) (hres : c.f 2 32 32 = 0)
    (h2 : s.rf R.OASIS2_SYNC_STATE 0 ≠ 2) (h3 : s.rf R.OASIS2_SYNC_STATE 0 ≠ 3)
    (hstate : s.modState ≠ msReady ∧ s.modState ≠ msLeaving ∧ s.modState ≠ msLeft) (hlate : s.now ≤ c.w 1 + c.f 2 0 32) :
    Completes (.timeSetStep c) s fun t => t.now = c.w 1 + c.f 2 0 32 ∧ t.rf R.OASIS2_EPOCH_SET 0 = 1 := by
  have hw := s.started_within 0x44 c .f
  have hperm : (s.started 0x44 c .f).stepPermitted = true := by
    unfold State.stepPermitted
    rw [s.modState_of_started]
    simp [hstate]
  have hoff : (((c.w 1 + c.f 2 0 32 : Nat) : Int) - (s.now : Int)).toNat = c.w 1 + c.f 2 0 32 - s.now := by omega
  obtain ⟨hnow, hset⟩ := (s.started 0x44 c .f).timeStep_is (c.w 1 + c.f 2 0 32 - s.now) 0
  refine completes_of_vorane rfl h (by decide) (by simp [hwords]) ?_
  dsimp only
  rw [State.arrivalOf_started h.2.2.1, hw.rf (f := R.OASIS2_SYNC_STATE) (by decide), if_neg (by simp [hmode, hres]), if_neg (by simp [h2, h3]), if_pos hmode, hperm,
    if_neg (by decide), if_neg (by omega), hoff, (State.reply_within _ _ _).now (by decide), (State.reply_within _ _ _).rf (by decide), hnow, hset,
    hw.now (by decide)]
  exact ⟨by omega, rfl⟩

theorem timeSetSlew_completes {c : Cmd} {s : State} (h : s.Takes c) (hwords : c.bodyWords = 3) (hmode : c.w 0 = 1) (hres : c.f 2 32 32 = 0)
    (h2 : s.rf R.OASIS2_SYNC_STATE 0 ≠ 2) (h3 : s.rf R.OASIS2_SYNC_STATE 0 ≠ 3) :
    Completes (.timeSetSlew c) s fun t =>
      t.now = s.now ∧ s.Answered t c 0x44 [pack [(0, 0, 8), (s.rf R.OASIS2_EPOCH_SET 0, 8, 1)], s.now, 0] := by
  have hw := s.started_within 0x44 c .f
  have hslew (off : Int) : (s.started 0x44 c .f).Within (touch [1] [.oa, .freeCtr]) ((s.started 0x44 c .f).slewBy off false) :=
    State.slewBy_frame (by decide) (State.frame_refl _ _)
  have hepoch (off : Int) : ((s.started 0x44 c .f).slewBy off false).rf R.OASIS2_EPOCH_SET 0 = s.rf R.OASIS2_EPOCH_SET 0 := by
    have hdraw (t : State) (x : OaSt) (n : Nat) : ({ (t.draw n).2 with oa := x }).rf R.OASIS2_EPOCH_SET 0 = t.rf R.OASIS2_EPOCH_SET 0 := rfl
    unfold State.slewBy
    dsimp only
    rw [State.rf_wf_of_code _ (by decide), hdraw, hw.rf (by decide)]
  refine completes_of_vorane rfl h (by decide) (by simp [hwords]) ?_
  dsimp only
  rw [State.arrivalOf_started h.2.2.1, hw.rf (f := R.OASIS2_SYNC_STATE) (by decide), if_neg (by simp [hmode, hres]), if_neg (by simp [h2, h3]), if_neg (by simp [hmode]), hepoch,
    (State.reply_within _ _ _).now (by decide), (hslew _).now (by decide), hw.now (by decide)]
  exact ⟨rfl, State.answered_of_within h (hslew _) (by decide) (by decide)⟩

theorem syncSourceLost_completes {s : State} (h : s.rf R.OASIS2_SYNC_STATE 0 = 2 ∨ s.rf R.OASIS2_SYNC_STATE 0 = 3) :
    Completes .syncSourceLost s fun t =>
      t.rf R.OASIS2_SYNC_STATE 0 = 4 ∧ t.oa = { s.oa with slew := 0, holdAt := s.elapsed, boundBase := s.rf R.OASIS2_TIME_BOUND_NS 0 } := by
  obtain ⟨u, hu⟩ : ∃ u, u = { s with oa := { s.oa with slew := 0, holdAt := s.elapsed, boundBase := s.rf R.OASIS2_TIME_BOUND_NS 0 } } := ⟨_, rfl⟩
  have hstate : u.rf R.OASIS2_SYNC_STATE 0 = s.rf R.OASIS2_SYNC_STATE 0 := by
    rw [hu]
    rfl
  have hset : u.setSync 4 = (u.wf R.OASIS2_SYNC_STATE 0 4).setInt (oasisPage 2) R.INT_OASIS2_SYNC_CHANGE := by
    rw [State.setSync, if_neg (by rw [hstate]; omega)]
  have hw (k p r : Nat) (l : List Nat) : u.Within (touch [1] [.irqLatch, .irqs, .staging, .lostStamps]) ((u.setSync 4).logEv k p r l) :=
    State.logEv_frame (by decide) (State.setSync_frame (by decide) (u.frame_refl _))
  refine completes_of_next rfl ?_
  unfold State.syncLost
  dsimp only
  rw [if_pos h, ← hu, (hw _ _ _ _).oa (by decide), State.rf_logEv_plain _ _ _ _ _ (by decide), hset, State.rf_setInt_plain _ _ _ (by decide), State.rf_wf_same, hu]
  exact ⟨rfl, rfl⟩

/-- Settles O42. -/
theorem sandglassTimeComplete : Obligations.SandglassTimeComplete :=
  ⟨fun _ _ _ _ => ptpSync_completes, fun _ _ _ _ _ => ptpFollowUp_completes, fun _ _ _ _ => ptpAnnounce_completes,
    fun _ _ _ _ _ _ => ptpDelayResp_completes, fun _ _ => timeSetStep_completes, fun _ _ => timeSetSlew_completes, fun _ => syncSourceLost_completes⟩

end Sys2Proof.Machine
end

section
/-! Restarts of Oasis and their causes (R504 to R508; O40). -/

namespace Sys2Proof.Machine

/-- The fields that the start of an Oasis restart sets besides its own record. -/
def restartFields : List Nat :=
  [R.OASIS3_SLOT_A_STATE, R.OASIS3_SLOT_B_STATE, R.OASIS3_UPDATE_OPEN, R.OASIS3_RUNNING_TRIAL, R.KEYS_TRIAL_BOOT].map Field.code

theorem slotStateF_mem (t : Nat) : (slotStateF t).code ∈ restartFields := by unfold slotStateF; split <;> decide

section
variable {g : Field} (hg : g.lasting) (hr : g.code ∉ restartFields) (j l : Nat)
include hg hr

omit hg in
theorem Field.ne_restart {f : Field} (hf : f.code ∈ restartFields) : g.code ≠ f.code := fun h => hr (by rw [h]; exact hf)

omit hr in
theorem State.rf_cutCmd_lasting (s : State) (q id : Nat) : (s.cutCmd q id).rf g j l = s.rf g j l := by
  have hrec (u : State) (f : CmdRec → CmdRec) : (u.setRec q id f).rf g j l = u.rf g j l := rfl
  have hcmds (u : State) (x : List OpenCmd) : ({ u with cmds := x }).rf g j l = u.rf g j l := rfl
  unfold State.cutCmd
  split
  · rfl
  · split
    · dsimp only
      split
      · rfl
      · rw [State.rf_sendCompletion_lasting hg, hrec, hcmds]
    · dsimp only
      split
      · rw [State.rf_withdraw_lasting hg]
      · rw [State.rf_sendCompletion_lasting hg, State.rf_withdraw_lasting hg]

/-- R525: a staging abandoned leaves every other register. -/
theorem State.rf_abandonStage_lasting (s : State) : (s.abandonStage).rf g j l = s.rf g j l := by
  have hoa (u : State) (x : OaSt) : ({ u with oa := x }).rf g j l = u.rf g j l := rfl
  unfold State.abandonStage
  split
  · rfl
  · dsimp only
    rw [State.rf_cutCmd_lasting hg, State.rf_wf_of_code _ (Field.ne_restart hr (by decide)),
      State.rf_wf_of_code _ (Field.ne_restart hr (slotStateF_mem _)), hoa]

omit hg in
theorem State.rf_trialBad_other (s : State) : (s.trialBad).rf g j l = s.rf g j l := by
  unfold State.trialBad
  split
  · rw [State.rf_wf_of_code _ (Field.ne_restart hr (by decide)), State.rf_wf_of_code _ (Field.ne_restart hr (by decide)),
      State.rf_wf_of_code _ (Field.ne_restart hr (slotStateF_mem _))]
  · rfl

end

/-- R504, R507: a restart that does not come too soon, or that the host ordered, begins. -/
theorem State.oasisRestart_is {s : State} {cause : Nat} (hrun : s.rb R.OASIS_RESTARTING 0 = false) (hcause : cause < 4)
    (hsoon : cause = 3 ∨ ∀ e ∈ s.oa.restartEnd, e + 1000000000 * s.rf R.OASIS_OASIS_REPEAT_S 0 ≤ s.elapsed) :
    (s.oasisRestart cause).rf R.OASIS_RESTARTING 0 = 1 ∧ (s.oasisRestart cause).rf R.OASIS_LAST_RESTART_STAMP 0 = s.now % 2 ^ 64 ∧
    (s.oasisRestart cause).rf R.OASIS_LAST_RESTART_CAUSE 0 = cause ∧ (s.oasisRestart cause).rf R.OASIS_HB_NONCE 0 = s.rf R.OASIS_HB_NONCE 0 := by
  have hstay : ((match s.oa.restartEnd with
      | some e => decide (s.elapsed < e + 1000000000 * s.rf R.OASIS_OASIS_REPEAT_S 0)
      | none => false) && decide (cause ≠ 3)) = false := by
    rcases hsoon with h3 | hsoon
    · rw [h3]
      simp
    · cases he : s.oa.restartEnd with
      | none => rfl
      | some e =>
        have hlate := hsoon e (by rw [he]; rfl)
        dsimp only
        rw [decide_eq_false (Nat.not_lt.2 hlate), Bool.false_and]
  have hoa (u : State) (x : OaSt) (f : Field) : ({ u with oa := x }).rf f 0 = u.rf f 0 := rfl
  have hsat (u : State) (f : Field) (h : f.code ≠ R.OASIS_OASIS_RESTARTS.code) : (u.incSat R.OASIS_OASIS_RESTARTS 0).rf f 0 = u.rf f 0 :=
    u.rf_wf_of_code h _ _ _ _ _
  unfold State.oasisRestart
  rw [hrun, if_neg (by decide)]
  dsimp only
  rw [if_neg (by rw [Bool.not_eq_true]; exact hstay)]
  refine ⟨?_, ?_, ?_, ?_⟩
  · rw [State.rf_trialBad_other (by decide), State.rf_abandonStage_lasting (by decide) (by decide), State.rf_wf_same]
    rfl
  · rw [State.rf_trialBad_other (by decide), State.rf_abandonStage_lasting (by decide) (by decide), State.rf_wf_of_code _ (by decide), hoa, hoa,
      hsat _ _ (by decide), State.rf_wf_of_code _ (by decide), State.rf_wf_same]
    rfl
  · rw [State.rf_trialBad_other (by decide), State.rf_abandonStage_lasting (by decide) (by decide), State.rf_wf_of_code _ (by decide), hoa, hoa,
      hsat _ _ (by decide), State.rf_wf_same]
    exact Nat.mod_eq_of_lt (Nat.lt_of_lt_of_le hcause (by decide))
  · rw [State.rf_trialBad_other (by decide), State.rf_abandonStage_lasting (by decide) (by decide), State.rf_wf_of_code _ (by decide), hoa, hoa,
      hsat _ _ (by decide), State.rf_wf_of_code _ (by decide), State.rf_wf_of_code _ (by decide)]

theorem State.alert_raiseAlert (s : State) : s.raiseAlert.md.alert = true := by
  unfold State.raiseAlert
  split
  next h => exact h
  next => rfl

/-! ### The commands -/

theorem wdLoop_completes {s : State} (hrun : s.rb R.OASIS_RESTARTING 0 = false)
    (hsoon : ∀ e ∈ s.oa.restartEnd, e + 1000000000 * s.rf R.OASIS_OASIS_REPEAT_S 0 ≤ s.elapsed) :
    Completes .wdLoop s fun t =>
      t.rf R.OASIS_RESTARTING 0 = 1 ∧ t.rf R.OASIS_LAST_RESTART_STAMP 0 = s.now % 2 ^ 64 ∧ t.rf R.OASIS_LAST_RESTART_CAUSE 0 = 0 := by
  obtain ⟨hrestarting, hstamp, hcause, -⟩ := State.oasisRestart_is (cause := 0) hrun (by decide) (.inr hsoon)
  exact completes_of_next rfl ⟨hrestarting, hstamp, hcause⟩

theorem wdRound_completes {s : State} (hrun : s.rb R.OASIS_RESTARTING 0 = false)
    (hdue : s.oa.roundAt + 1000000 * s.rf R.OASIS_ROUND_LIMIT_MS 0 ≤ s.elapsed)
    (hsoon : ∀ e ∈ s.oa.restartEnd, e + 1000000000 * s.rf R.OASIS_OASIS_REPEAT_S 0 ≤ s.elapsed) :
    Completes .wdRound s fun t =>
      t.rf R.OASIS_RESTARTING 0 = 1 ∧ t.rf R.OASIS_LAST_RESTART_STAMP 0 = s.now % 2 ^ 64 ∧ t.rf R.OASIS_LAST_RESTART_CAUSE 0 = 1 := by
  obtain ⟨hrestarting, hstamp, hcause, -⟩ := State.oasisRestart_is (cause := 1) hrun (by decide) (.inr hsoon)
  refine completes_of_next rfl ?_
  unfold State.wdRound
  rw [if_pos hdue]
  exact ⟨hrestarting, hstamp, hcause⟩

theorem wdHost_completes {s : State} (hrun : s.rb R.OASIS_RESTARTING 0 = false) (hdue : s.oa.hostDue = true)
    (hsoon : ∀ e ∈ s.oa.restartEnd, e + 1000000000 * s.rf R.OASIS_OASIS_REPEAT_S 0 ≤ s.elapsed) :
    Completes .wdHost s fun t =>
      t.rf R.OASIS_RESTARTING 0 = 1 ∧ t.rf R.OASIS_LAST_RESTART_STAMP 0 = s.now % 2 ^ 64 ∧ t.rf R.OASIS_LAST_RESTART_CAUSE 0 = 2 := by
  have hrun' : ({ s with oa := { s.oa with hostDue := false } } : State).rb R.OASIS_RESTARTING 0 = false := hrun
  obtain ⟨hrestarting, hstamp, hcause, -⟩ := State.oasisRestart_is (cause := 2) hrun' (by decide) (.inr hsoon)
  refine completes_of_next rfl ?_
  unfold State.wdHost
  rw [if_pos hdue]
  exact ⟨hrestarting, hstamp, hcause⟩

/-- R508: the heartbeat kept. -/
def State.beatKept (s : State) (c : Cmd) : State :=
  let t := ((s.wf R.OASIS_HB_NONCE 0 (c.f 0 0 32)).wf R.OASIS_LAST_HEARTBEAT_STAMP 0 s.now).wf R.OASIS_HOST_SILENT 0 0
  { t with oa := { t.oa with lastBeat := some t.elapsed, beats := t.oa.beats ++ [(c.qp, c.cmdId, c.f 0 0 32, t.elapsed + 500000)] } }

theorem heartbeatRestart_completes {c : Cmd} {s : State} (h : s.Takes c) (hwords : c.bodyWords = 1) (hres : c.f 0 33 31 = 0) (hbit : c.b 0 32 = true) :
    Completes (.heartbeatRestart c) s fun t =>
      t.rf R.OASIS_RESTARTING 0 = 1 ∧ t.rf R.OASIS_LAST_RESTART_CAUSE 0 = 3 ∧ t.rf R.OASIS_HB_NONCE 0 = c.f 0 0 32 := by
  obtain ⟨u, hu⟩ : ∃ u, u = (s.started 0x45 c .f).beatKept c := ⟨_, rfl⟩
  have hoa (t : State) (x : OaSt) (f : Field) : ({ t with oa := x }).rf f 0 = t.rf f 0 := rfl
  have hrun : u.rb R.OASIS_RESTARTING 0 = false := by
    have hs : s.rb R.OASIS_RESTARTING 0 = false := by
      obtain ⟨-, -, -, -, -, -, -, -, -, -, -, hrun, -⟩ := h
      exact hrun
    rw [← hs, State.rb, State.rb, hu, State.beatKept, hoa, State.rf_wf_of_code _ (by decide), State.rf_wf_of_code _ (by decide),
      State.rf_wf_of_code _ (by decide), (s.started_within _ _ _).rf (by decide)]
  have hnonce : u.rf R.OASIS_HB_NONCE 0 = c.f 0 0 32 := by
    rw [hu, State.beatKept, hoa, State.rf_wf_of_code _ (by decide), State.rf_wf_of_code _ (by decide), State.rf_wf_same]
    exact Nat.mod_eq_of_lt (Nat.mod_lt _ (by decide))
  obtain ⟨hrestarting, -, hcause, hkept⟩ := State.oasisRestart_is (cause := 3) hrun (by decide) (.inl rfl)
  have heffect (t : State) (b : List Nat) (f : Field) : (t.takeEffect c.qp c.cmdId b).rf f 0 = t.rf f 0 := rfl
  refine completes_of_vorane rfl h (by decide) (by simp [hwords, hres]) ?_
  dsimp only
  rw [hbit, State.when_true, heffect, heffect, heffect]
  rw [State.beatKept] at hu
  rw [← hu, hrestarting, hcause, hkept, hnonce]
  exact ⟨rfl, rfl, rfl⟩

theorem oasisRestartDone_completes {s : State} (hrun : s.rb R.OASIS_RESTARTING 0 = true) (htrial : s.oa.wasTrial = false) :
    Completes (.oasisRestartDone true) s fun t =>
      t.rf R.OASIS_RESTARTING 0 = 0 ∧ t.oa = { s.oa with restartAt := none, restartEnd := some s.elapsed, roundAt := s.elapsed } ∧
      t.md.alert = true := by
  obtain ⟨u, hu⟩ : ∃ u, u = { s with oa := { s.oa with restartAt := none, restartEnd := some s.elapsed, roundAt := s.elapsed } } := ⟨_, rfl⟩
  have hw (n : Nat) : u.Within (touch [1] [.irqLatch, .irqs, .staging, .lostStamps])
      (((u.wf R.OASIS_RESTARTING 0 0).setInt (oasisPage 0) R.INT_OASIS_RESTARTED).logRestart n) := by
    unfold State.logRestart
    exact State.logEv_frame (by decide) (State.setInt_frame (by decide) (by decide) (State.wf_frame (by decide) (u.frame_refl _)))
  have hoa (t : State) : t.raiseAlert.oa = t.oa := (State.raiseAlert_frame (by decide) (t.frame_refl _) : t.Within (touch [] [.md, .out]) _).oa (by decide)
  refine completes_of_next rfl ?_
  unfold State.oasisRunning
  rw [hrun, if_neg (by decide), htrial, if_neg (by decide)]
  dsimp only
  rw [← hu, hoa, (hw _).oa (by decide), State.rf_raiseAlert, State.logRestart, State.rf_logEv_plain _ _ _ _ _ (by decide),
    State.rf_setInt_plain _ _ _ (by decide), State.rf_wf_same, hu]
  exact ⟨rfl, rfl, State.alert_raiseAlert _⟩

theorem oasisRestartTimeout_completes {t0 : Nat} {s : State} (hrun : s.rb R.OASIS_RESTARTING 0 = true) (hat : s.oa.restartAt = some t0)
    (hdue : t0 + 400000000 < s.elapsed) :
    Completes .oasisRestartTimeout s fun t => t.modState = msRom ∧ t.md.alert = true ∧ t.cmds = [] := by
  obtain ⟨u, hu⟩ : ∃ u, u = (s.logRestart 0).raiseAlert := ⟨_, rfl⟩
  obtain ⟨hrom, -, hcmds⟩ := u.coldStart_of
  have hw (t : State) : t.Within (touch [] [.md, .out]) t.raiseAlert := State.raiseAlert_frame (by decide) (t.frame_refl _)
  refine completes_of_next rfl ?_
  unfold State.oasisOverrun
  rw [hat]
  dsimp only
  rw [if_pos ⟨hrun, hdue⟩]
  unfold State.oasisEscalate
  rw [← hu, (hw _).cmds (by decide), hcmds, State.modState, State.rf_raiseAlert, ← State.modState, hrom]
  exact ⟨rfl, State.alert_raiseAlert _, rfl⟩

/-- Settles O40. -/
theorem oasisRestartsComplete : Obligations.OasisRestartsComplete :=
  ⟨fun _ => wdLoop_completes, fun _ => wdRound_completes, fun _ => wdHost_completes, fun _ _ => heartbeatRestart_completes,
    fun _ => oasisRestartDone_completes, fun _ _ => oasisRestartTimeout_completes⟩

end Sys2Proof.Machine
end

section
/-! Pips sent, received and delivered, the receive ring and flits (R177, R224, R231 to R234, R243, R244; O22). -/

namespace Sys2Proof.Machine

/-! ### Sending, R177, R224 -/

theorem destLocal_lt {d : Nat} (h : destLocal d = true) : d < 0x8000 := by
  unfold destLocal at h
  simp only [Bool.and_eq_true, decide_eq_true_eq] at h
  omega

theorem payloadMax_local {d : Nat} (h : destLocal d = true) : payloadMax d = 2000 := by
  have hlt := destLocal_lt h
  unfold payloadMax destRemote
  rw [decide_eq_false (by omega : ¬ 0x8000 ≤ d)]
  rfl

/-- R240: a channel after a pip. -/
def Chan.paid (c : Chan) (n now : Nat) : Chan := { c with credits := c.credits - n, usedAt := now }

/-- R177: a pip whose channel holds its credits leaves. -/
theorem State.inject_paid {s : State} {ck : Nat} {p : Pip} {c : Chan} (hheld : s.rb R.ROUTER_HELD (s.routerOfCore ck) = false)
    (hlocal : destLocal p.dest = true) (habsent : s.absentAt ck p.dest = false) (hlen : p.payload.length ≤ 2000)
    (hc : s.chan ck p.dest p.stream = some c) (hroom : pipCredits p.payload.length ≤ c.credits - c.reserved) :
    (s.inject ck p 0).1 = some ((s.setChan (c.paid (pipCredits p.payload.length) s.elapsed)).meshFrom ck 6 p.dest 0
      (pipWords { p with gen := c.gen, source := ck, egress := s.now }) p.payload.length) := by
  unfold State.inject
  dsimp only
  rw [hheld, if_neg (by decide), habsent, if_neg (by simp), hlocal, payloadMax_local hlocal, if_neg (by simpa using hlen), hc]
  dsimp only
  rw [Nat.min_zero, Nat.zero_min, if_pos (by simpa using hroom)]
  rfl

theorem pipSend_completes {ck off : Nat} {c : Chan} {s : State} (hck : ck < 2048) (hkind : kindOfLogical (ck % 64) = 2) (hcore : ck % 64 < 60)
    (habs : s.isAbsent ck = false) (hheld : s.rb R.ROUTER_HELD (s.routerOfCore ck) = false) (htx : (s.scSt ck).tx = [off])
    (hlocal : destLocal (s.pipAt ck off).dest = true) (habsent : s.absentAt ck (s.pipAt ck off).dest = false)
    (hlen : (s.pipAt ck off).payload.length ≤ 2000) (hc : s.chan ck (s.pipAt ck off).dest (s.pipAt ck off).stream = some c)
    (_ : c.reserved ≤ c.credits) (hroom : pipCredits (s.pipAt ck off).payload.length ≤ c.credits - c.reserved) :
    Completes (.pipSend ck) s fun t =>
      (t.scSt ck).tx = [] ∧
      t.chan ck (s.pipAt ck off).dest (s.pipAt ck off).stream =
        some { c with credits := c.credits - pipCredits (s.pipAt ck off).payload.length, usedAt := s.elapsed } ∧
      t.out = .mesh 6 (s.pipAt ck off).dest (pipWords { s.pipAt ck off with gen := c.gen, source := ck, egress := s.now }) ::
        .route (s.routeHeader ck 6 (s.pipAt ck off).dest 0 (s.pipAt ck off).payload.length) :: s.out := by
  generalize hp : s.pipAt ck off = p at *
  have hinject := State.inject_paid hheld hlocal habsent hlen hc hroom
  have hroute (x : Chan) : (s.setChan x).routeHeader ck 6 p.dest 0 p.payload.length = s.routeHeader ck 6 p.dest 0 p.payload.length := rfl
  obtain ⟨u, hu⟩ : ∃ u, u = (s.setChan (c.paid (pipCredits p.payload.length) s.elapsed)).meshFrom ck 6 p.dest 0
      (pipWords { p with gen := c.gen, source := ck, egress := s.now }) p.payload.length := ⟨_, rfl⟩
  have hnear := hu
  rw [State.meshFrom_near _ _ _ _ _ (destLocal_lt hlocal), hlocal, if_pos rfl, hroute] at hnear
  have hsend : s.pipSend ck = u.setSc ck { u.scSt ck with tx := [] } := by
    unfold State.pipSend
    rw [if_neg (by simp [habs]; omega), if_neg (by rw [hkind]; decide), if_neg (by rw [hkind]; decide)]
    unfold State.pipSendS
    dsimp only
    rw [htx]
    unfold State.txInject
    dsimp only
    rw [hp, if_neg (by simp)]
    rw [← hu] at hinject
    generalize s.inject ck p 0 = res at hinject
    obtain ⟨o, t⟩ := res
    dsimp only at hinject
    rw [hinject]
    rfl
  refine completes_of_next rfl ?_
  rw [hsend, State.scSt_setSc]
  have hset (t : State) (x : ScSt) : (t.setSc ck x).chan ck p.dest p.stream = t.chan ck p.dest p.stream ∧ (t.setSc ck x).out = t.out := ⟨rfl, rfl⟩
  rw [(hset _ _).1, (hset _ _).2]
  refine ⟨rfl, ?_, ?_⟩
  · have hout (t : State) (l : List Out) : ({ t with out := l }).chan ck p.dest p.stream = t.chan ck p.dest p.stream := rfl
    have hkey : (c.paid (pipCredits p.payload.length) s.elapsed).core = ck ∧ (c.paid (pipCredits p.payload.length) s.elapsed).dest = p.dest ∧
      (c.paid (pipCredits p.payload.length) s.elapsed).stream = p.stream := by
      have hkeys := State.chan_is hc
      exact hkeys
    rw [hnear, hout, State.chan_setChan hkey]
    rfl
  · rw [hnear]
    rfl

theorem txSend_completes {ck w : Nat} {s : State} (hrun : s.scoreRuns ck = true) (hw : w < 2 ^ 64) (hfits : w * 16 + 32 ≤ sramSize 2) :
    Completes (.txSend ck w) s fun t => t = { s with sc := t.sc } ∧ t.scSt ck = { s.scSt ck with tx := (s.scSt ck).tx ++ [w * 16] } := by
  refine completes_of_next rfl ?_
  unfold State.scoreStore
  rw [if_pos hrun, Nat.mod_eq_of_lt hw]
  unfold State.lcbWrite
  rw [if_neg (by decide), if_neg (by decide), if_pos rfl]
  unfold State.txSend
  rw [if_neg (by omega)]
  exact ⟨rfl, s.scSt_setSc _ _⟩

theorem rxTailWrite_completes {ck w : Nat} {s : State} (hrun : s.scoreRuns ck = true) :
    Completes (.rxTailWrite ck w) s fun t =>
      t.rf R.LCB_RX_TAIL ck = bitsOf w 16 16 ∧
      (t.scSt ck).rx = (s.scSt ck).rx.filter fun (e : Nat × Pip) =>
        (bitsOf w 16 16 + 65536 - s.rf R.LCB_RX_TAIL ck) % 65536 ≤ (e.1 + 65536 - s.rf R.LCB_RX_TAIL ck) % 65536 := by
  have hbits : bitsOf (w % 2 ^ 64) 16 16 = bitsOf w 16 16 := by
    unfold bitsOf
    rw [Nat.shiftRight_eq_div_pow, Nat.shiftRight_eq_div_pow]
    omega
  have hfreed (u : State) (l : List (Nat × Pip)) : u.Within 0xe008000000007800000003000000000002 (u.each l fun t e => t.freePip ck 0 e.2) :=
    State.each_frame (u.frame_refl _) fun _ _ h => State.freePip_frame (Sub.refl _) h
  have hset (u : State) (x : ScSt) : (u.setSc ck x).rf R.LCB_RX_TAIL ck = u.rf R.LCB_RX_TAIL ck := rfl
  refine completes_of_next rfl ?_
  unfold State.scoreStore
  rw [if_pos hrun]
  unfold State.lcbWrite
  rw [if_neg (by decide), if_pos rfl, hbits]
  unfold State.rxTail
  dsimp only
  rw [(hfreed _ _).rf (by decide), State.scSt_of_sc ((hfreed _ _).sc (by decide)), State.scSt_setSc, hset, State.rf_wf_same]
  exact ⟨Nat.mod_eq_of_lt (Nat.mod_lt _ (by decide)), rfl⟩

/-! ### Receiving, R243, R244 -/

theorem pipReceive_completes {p : Pip} {pc i : Nat} {redirected : Bool} {us : List Nat} {s : State} (hlocal : destLocal p.dest = true)
    (hthere : s.resolveAt pc p.dest = 0) (hgen : p.gen = s.coreGen p.dest) (hkind : kindOfLogical (p.dest % 64) ≠ 2)
    (hbuf : s.matchBuf p.dest p.stream (some p.epoch) = some i) (hgood : pipPoison p = false)
    (hus : us = ((((List.range (s.bufSize p.dest i)).map (s.bufBase p.dest i / 16 + ·)).filter fun u =>
      !((s.buf p.dest i).pips.flatMap (·.units)).contains u).take (pipCredits p.payload.length))) :
    Completes (.pipReceive p pc redirected) s fun t =>
      t.buf p.dest i = { s.buf p.dest i with pips := (s.buf p.dest i).pips ++
        [{ pip := { p with ingress := s.now, payload := [] }, at_ := s.now, bytes := p.payload.length, units := us }] } ∧
      t.sram = (s.unitsPut p.dest us (storedBytes { p with ingress := s.now })).sram ∧ t.out = s.out := by
  have hwatch (u : State) : u.Within 0x400000000000000000000000030000 (u.creditWatch p.dest) := State.creditWatch_frame (Sub.refl _) (u.frame_refl _)
  have hput : s.Within (touch [] [.sram, .sramHollow]) (s.unitsPut p.dest us (storedBytes { p with ingress := s.now })) :=
    State.unitsPut_frame (by decide) (s.frame_refl _)
  have hq : { p with ingress := s.now, hollow := p.hollow || (pipPoison p && !p.hollow) } = { p with ingress := s.now } := by
    rw [hgood, Bool.false_and, Bool.or_false]
  refine completes_of_next rfl ?_
  unfold State.pipReceive
  dsimp only
  rw [hlocal, if_neg (by decide), if_neg (by rw [hthere]; decide), if_neg (by rw [hgen]; simp)]
  unfold State.storePip
  dsimp only
  rw [hq, hgood, Bool.false_and, State.when_false, if_neg hkind, hbuf]
  dsimp only
  unfold State.bufPut
  dsimp only
  rw [← hus]
  generalize s.unitsPut p.dest us (storedBytes { p with ingress := s.now }) = u at hput ⊢
  have hsetbuf (x : BufSt) : (u.setBuf p.dest i x).out = u.out ∧ (u.setBuf p.dest i x).sram = u.sram := ⟨rfl, rfl⟩
  refine ⟨?_, ?_, ?_⟩
  · rw [State.buf, (hwatch _).bufs (by decide), ← State.buf, State.buf_setBuf]
  · rw [(hwatch _).sram (by decide), (hsetbuf _).2]
  · rw [(hwatch _).out (by decide), (hsetbuf _).1, hput.out (by decide)]

theorem State.nextRead_none {s : State} {v : Nat} (h : (s.vcSt v).ready = []) : s.nextRead v = none := by
  unfold State.nextRead
  rw [h]
  rfl

theorem responseReceive_completes {ck pc g : Nat} {redirected : Bool} {ws : List Nat} {s : State} (hlocal : destLocal ck = true)
    (hthere : s.resolveAt pc ck = 0) (hgen : g % 256 = s.coreGen ck) (hready : kindOfLogical (ck % 64) = 1 → (s.vcSt ck).ready = []) :
    Completes (.responseReceive ck pc redirected g ws) s fun t =>
      t.out = .mesh 20 ck ws :: s.out ∧
      (kindOfLogical (ck % 64) = 1 → (t.vcSt ck).reads = (s.vcSt ck).reads.eraseP fun r => r.1 = ws.getD 1 0) := by
  have hmesh : s.mesh 20 ck ws = s.emit (.mesh 20 ck ws) := by rw [State.mesh, if_neg (by simp), if_neg (by simp)]
  refine completes_of_next rfl ?_
  unfold State.responseReceive
  dsimp only
  rw [hlocal, if_neg (by decide), if_neg (by rw [hthere]; decide), if_neg (by rw [hgen]; simp), hmesh]
  by_cases hk : kindOfLogical (ck % 64) = 1
  · have hnone : ((s.emit (.mesh 20 ck ws)).setVc ck { s.vcSt ck with reads := (s.vcSt ck).reads.eraseP fun r => r.1 = ws.getD 1 0 }).nextRead ck = none := by
      refine State.nextRead_none ?_
      rw [State.vcSt_setVc]
      exact hready hk
    have hvc : (s.emit (.mesh 20 ck ws)).vcSt ck = s.vcSt ck := rfl
    rw [decide_eq_true hk, State.when_true]
    unfold State.streamDone
    dsimp only
    rw [hvc, hnone]
    dsimp only
    have hout (u : State) (x : VcSt) : (u.setVc ck x).out = u.out :=
      (State.setVc_frame (Sub.refl _) (u.frame_refl _)).out (by decide)
    rw [hout, State.out_emit, State.vcSt_setVc]
    exact ⟨rfl, fun _ => rfl⟩
  · rw [decide_eq_false hk, State.when_false, State.out_emit]
    exact ⟨rfl, fun h => absurd h hk⟩

/-! ### Flits, R231 to R234 -/

theorem State.candidate_of_empty {s : State} (h : s.msh.bufs = []) (r port cls inp : Nat) : s.candidate r port cls inp = none := by
  unfold State.candidate
  rw [h]
  rfl

/-- R233: a port's grant from the flits that may leave by it, of each class. -/
def grantOf (able : Nat → List (Nat × Nat)) (elapsed : Nat) (cycles : Nat → Nat) (turn : Nat → Nat) : Option (Nat × Nat) :=
  let since (c : Nat) : Nat := ((able c).map (·.2)).foldl min elapsed
  let cs := [3, 1, 0, 2].filter fun c => !(able c).isEmpty
  let late := cs.filter fun c => decide (16 ≤ cycles (elapsed - since c))
  let pick := match late with
    | [] => cs.head?
    | c :: l => some (l.foldl (fun b x => if since x < since b then x else b) c)
  match pick with
  | none => none
  | some c => (((List.range 9).map fun i => (turn c + 1 + i) % 9).find? fun i => (able c).any fun a => a.1 = i).map fun i => (c, i)

/-- R233: the flits of a class that may leave by a port. -/
def State.ableAt (s : State) (r port c : Nat) : List (Nat × Nat) :=
  if s.canLeave r port c then (List.range 9).filterMap (s.candidate r port c) else []

theorem State.portGrant_eq (s : State) (r port : Nat) : s.portGrant r port =
    grantOf (s.ableAt r port) s.elapsed (s.meshCycles r) fun c => Tbl.getD s.msh.turn (vcKey r port c) 8 := rfl

theorem grantOf_none {able : Nat → List (Nat × Nat)} (h : ∀ c, able c = []) (e : Nat) (cycles turn : Nat → Nat) : grantOf able e cycles turn = none := by
  unfold grantOf
  simp only [h]
  rfl

/-- R233: the only flit that may leave is granted. -/
theorem grantOf_single {able : Nat → List (Nat × Nat)} {c inp e : Nat} {cycles : Nat → Nat} (hc : c < 4) (hinp : inp < 9)
    (h : ∀ k < 4, able k = if k = c then [(inp, e)] else []) (hcycles : cycles 0 < 16) (turn : Nat → Nat) :
    grantOf able e cycles turn = some (c, inp) := by
  have hcs : [3, 1, 0, 2].filter (fun k => !(able k).isEmpty) = [c] := by
    rw [List.filter_congr (q := fun k => decide (k = c)) (fun k hk => by
      rw [h k (by simp at hk; omega)]
      split <;> simp [*])]
    exact (by decide : ∀ c < 4, [3, 1, 0, 2].filter (fun k => decide (k = c)) = [c]) c hc
  have hable : able c = [(inp, e)] := by rw [h c hc, if_pos rfl]
  have hfind : ((List.range 9).map fun i => (turn c + 1 + i) % 9).find? (fun i => [(inp, e)].any fun a => a.1 = i) = some inp := by
    cases hf : ((List.range 9).map fun i => (turn c + 1 + i) % 9).find? (fun i => [(inp, e)].any fun a => a.1 = i) with
    | some i =>
      have hi := List.find?_some hf
      simp only [List.any_cons, List.any_nil, Bool.or_false, decide_eq_true_eq] at hi
      rw [hi]
    | none =>
      rw [List.find?_eq_none] at hf
      refine absurd ?_ (hf inp (List.mem_map.2 ⟨(inp + 9 - (turn c + 1) % 9) % 9, List.mem_range.2 (Nat.mod_lt _ (by decide)), by omega⟩))
      simp
  unfold grantOf
  dsimp only
  rw [hcs]
  simp only [List.filter_cons, List.filter_nil, hable, List.map_cons, List.map_nil, List.foldl_cons, List.foldl_nil, Nat.min_self, Nat.sub_self,
    decide_eq_false (Nat.not_le.2 hcycles), Bool.false_eq_true, if_false, List.head?_cons, hfind, Option.map_some]

theorem State.portGrant_of_empty {s : State} (h : s.msh.bufs = []) (r port : Nat) : s.portGrant r port = none := by
  rw [State.portGrant_eq]
  refine grantOf_none (fun c => ?_) _ _ _
  unfold State.ableAt
  split
  · rw [List.filterMap_eq_nil_iff]
    exact fun i _ => State.candidate_of_empty h _ _ _ _
  · rfl

theorem State.forwardFlits_of_empty {s : State} (h : s.msh.bufs = []) (fuel : Nat) (l : List (Nat × Nat)) : s.forwardFlits fuel l = s := by
  induction fuel generalizing l with
  | zero => rfl
  | succ fuel ih =>
    cases l with
    | nil => rfl
    | cons p ps =>
      unfold State.forwardFlits
      rw [State.portGrant_of_empty h]
      exact ih ps

theorem filterMap_range_single {n : Nat} (hn : n < 9) (e : Nat) :
    (List.range 9).filterMap (fun i => if i = n then some (i, e) else none) = [(n, e)] := by
  interval_cases n <;> rfl

theorem vcKey_inj {r inp port c k : Nat} (hc : c < 4) (hk : k < 4) (h : vcKey r port c = vcKey r inp k) :
    port = inp ∧ c = k := by
  unfold vcKey at h
  omega

/-- R232: the only flit in the routers is the only candidate. -/
theorem State.ableAt_single {s : State} {r port out c : Nat} {x : FlitAt} (hbufs : s.msh.bufs = [(vcKey r port c, [x])]) (howner : s.msh.owner = [])
    (hout : x.out = out) (hport : port < 9) (hc : c < 4) (hleave : s.canLeave r out c = true) {k : Nat} (hk : k < 4) :
    s.ableAt r out k = if k = c then [(port, x.since)] else [] := by
  have hcand {inp : Nat} : s.candidate r out k inp = if k = c ∧ inp = port then some (inp, x.since) else none := by
    unfold State.candidate
    rw [hbufs, howner]
    unfold Tbl.getD
    by_cases heq : vcKey r port c = vcKey r inp k
    · obtain ⟨rfl, rfl⟩ := vcKey_inj hc hk heq
      simp [Tbl.get?, hout]
    · have hne : ¬ (k = c ∧ inp = port) := fun ⟨h1, h2⟩ => heq (by rw [h1, h2])
      simp [Tbl.get?, heq, hne]
  have hlist : (List.range 9).filterMap (s.candidate r out k) = (List.range 9).filterMap fun inp => if k = c ∧ inp = port then some (inp, x.since) else none :=
    List.filterMap_congr fun inp _ => hcand
  unfold State.ableAt
  by_cases hkc : k = c
  · rw [hkc] at hlist ⊢
    rw [hleave, if_pos rfl, if_pos rfl, hlist]
    simp only [true_and]
    exact filterMap_range_single hport _
  · rw [hlist]
    simp [hkc]

/-- R232: the flit of the only packet held leaves, and the routers are empty. -/
theorem State.sendFlit_single {s : State} {r port out c : Nat} {x : FlitAt} (hbufs : s.msh.bufs = [(vcKey r port c, [x])]) :
    (s.sendFlit r out c port).msh.bufs = [] ∧ (s.sendFlit r out c port).msh.fails = s.msh.fails ∧
    (s.sendFlit r out c port).out = .flit r out x.f :: s.out ∧
    (s.sendFlit r out c port).rf R.ROUTER_FLITS r = (s.rf R.ROUTER_FLITS r + 1) % 2 ^ 64 := by
  have hget : Tbl.getD s.msh.bufs (vcKey r port c) [] = [x] := by
    rw [hbufs]
    simp [Tbl.getD, Tbl.get?]
  have hdel : Tbl.del s.msh.bufs (vcKey r port c) = [] := by
    rw [hbufs]
    simp [Tbl.del]
  have hhigh (u : State) : u.Within (touch [0x19] []) (u.seamHigh r out) := State.seamHigh_frame (by decide) (u.frame_refl _)
  have hmsh (u : State) (m : MeshSt) : ({ u with msh := m }).rf R.ROUTER_FLITS r = u.rf R.ROUTER_FLITS r ∧ ({ u with msh := m }).msh = m ∧
    ({ u with msh := m }).out = u.out := ⟨rfl, rfl, rfl⟩
  have hemit (u : State) (o : Out) : (u.emit o).msh = u.msh := rfl
  unfold State.sendFlit
  rw [hget]
  dsimp only
  rw [hemit, (hhigh _).msh (by decide), State.inc_msh, (hmsh _ _).2.1, State.out_emit, (hhigh _).out (by decide), State.inc_out, (hmsh _ _).2.2,
    State.rf_emit, (hhigh _).rf (by decide), State.rf_inc_wrap _ _ (by decide), (hmsh _ _).1]
  exact ⟨hdel, rfl, rfl, rfl⟩

/-- R232: the flit of the only packet held is forwarded. -/
theorem State.forwardFlits_single {s : State} {r port out c : Nat} {x : FlitAt} (n : Nat) (hbufs : s.msh.bufs = [(vcKey r port c, [x])])
    (howner : s.msh.owner = []) (hout : x.out = out) (hsince : x.since = s.elapsed) (hport : port < 9) (hc : c < 4) (hleave : s.canLeave r out c = true) :
    s.forwardFlits (n + 1) [(r, out)] = s.sendFlit r out c port := by
  have hgrant : s.portGrant r out = some (c, port) := by
    rw [State.portGrant_eq]
    refine grantOf_single hc hport (fun k hk => ?_) ?_ _
    · rw [State.ableAt_single hbufs howner hout hport hc hleave hk, hsince]
    · simp [State.meshCycles]
  unfold State.forwardFlits
  dsimp only
  rw [hgrant]
  dsimp only
  exact State.forwardFlits_of_empty (State.sendFlit_single hbufs).1 _ _

/-- The registers that decide on a flit's leaving, R232, R253. -/
def leaveRegs : List Field :=
  [R.ROUTER_HELD, R.ROUTER_LINK_FAILED, R.ROUTER_OUT_FAILED, R.SEAM_EW_REQ, R.SEAM_EW_RESP, R.SEAM_EW_PIP, R.SEAM_EW_MGMT, R.SEAM_WE_REQ,
    R.SEAM_WE_RESP, R.SEAM_WE_PIP, R.SEAM_WE_MGMT]

section
variable {s t : State} (hrf : ∀ g ∈ leaveRegs, ∀ j, t.rf g j = s.rf g j)
include hrf

theorem State.hopLimit_of_rf {c : Nat} (hc : c < 4) (r port : Nat) : t.hopLimit r port c = s.hopLimit r port c := by
  have hmem : ([R.SEAM_EW_REQ, R.SEAM_EW_RESP, R.SEAM_EW_PIP, R.SEAM_EW_MGMT].getD c R.SEAM_EW_PIP) ∈ leaveRegs ∧
      ([R.SEAM_WE_REQ, R.SEAM_WE_RESP, R.SEAM_WE_PIP, R.SEAM_WE_MGMT].getD c R.SEAM_EW_PIP) ∈ leaveRegs := by
    revert c
    decide
  unfold State.hopLimit
  dsimp only
  split
  · split
    · exact hrf _ hmem.1 _
    · exact hrf _ hmem.2 _
  · rfl

theorem State.linkDead_of_rf (hdead : t.msh.dead = s.msh.dead) (r port : Nat) : t.linkDead r port = s.linkDead r port := by
  unfold State.linkDead State.rb
  rw [hrf R.ROUTER_LINK_FAILED (by decide), hrf R.ROUTER_OUT_FAILED (by decide), hdead]

/-- R232, R234: with no fuller retry buffer, a flit that might leave still may. -/
theorem State.canLeave_of_rf {c : Nat} (hc : c < 4) (hdead : t.msh.dead = s.msh.dead) (hspent : t.msh.spent = s.msh.spent)
    (hwire : ∀ k, (Tbl.getD t.msh.wire k []).length ≤ (Tbl.getD s.msh.wire k []).length) {r port : Nat} (h : s.canLeave r port c = true) :
    t.canLeave r port c = true := by
  have hw := hwire (portKey r port)
  unfold State.canLeave State.rb at h ⊢
  rw [State.hopLimit_of_rf hrf hc, State.linkDead_of_rf hrf hdead, hrf R.ROUTER_HELD (by decide), hspent]
  simp only [Bool.and_eq_true, Bool.or_eq_true, decide_eq_true_eq] at h ⊢
  obtain ⟨hup, hroom⟩ := h
  refine ⟨hup, hroom.imp_right fun ⟨hcredit, hretry⟩ => ⟨hcredit, hretry.imp_right fun hlen => by omega⟩⟩

end

/-- R234: a flit accepted makes no retry buffer fuller. -/
theorem State.wire_acceptFlit (s : State) (r port k : Nat) :
    (Tbl.getD (s.acceptFlit r port).msh.wire k []).length ≤ (Tbl.getD s.msh.wire k []).length := by
  unfold State.acceptFlit
  split
  · dsimp only
    by_cases hk : k = portKey (linkEnd r port).1 (linkEnd r port).2
    · rw [← hk]
      cases hl : Tbl.getD s.msh.wire k [] with
      | nil => simp [Tbl.getD, Tbl.get_del_same]
      | cons x l =>
        cases l with
        | nil => simp [Tbl.getD, Tbl.get_del_same]
        | cons y l => simp
    · split
      · rw [Tbl.getD_put_ne _ _ _ hk]
      · rw [Tbl.getD, Tbl.get_del_ne _ hk, ← Tbl.getD]
  · exact le_refl _

/-- R231: a good flit's place in the routers. -/
def State.flitTaken (s : State) (r port out : Nat) (f : Flit) : State :=
  { s with msh := { s.msh with
    bufs := Tbl.put s.msh.bufs (vcKey r port (f.cls % 4)) (Tbl.getD s.msh.bufs (vcKey r port (f.cls % 4)) [] ++
      [{ f := { f with typ := f.typ % 4 }, out := out, since := s.elapsed }])
    route := if 2 ≤ f.typ % 4 then Tbl.del s.msh.route (vcKey r port (f.cls % 4)) else Tbl.put s.msh.route (vcKey r port (f.cls % 4)) out } }

theorem State.takeFlit_of {s : State} {r port out : Nat} {f : Flit}
    (hway : (if f.typ % 4 = 0 ∨ f.typ % 4 = 3 then outPortOf r f.data else Tbl.get? s.msh.route (vcKey r port (f.cls % 4))) = some out) :
    s.takeFlit r port f = (s.flitTaken r port out f).forwardFlits (64 + 64 * s.flitsHeld) [(r, out)] := by
  unfold State.takeFlit
  dsimp only
  rw [hway]
  rfl

/-- R234: a flit that has crossed its link. -/
def State.flitIn (s : State) (r port : Nat) : State :=
  (({ s with msh := { s.msh with fails := Tbl.del s.msh.fails (portKey r port) } }).seamFlit r port).acceptFlit r port

theorem State.seamFlit_within (s : State) (r port : Nat) : s.Within (touch [0x19] []) (s.seamFlit r port) := State.seamFlit_frame (by decide) (s.frame_refl _)

theorem State.acceptFlit_is (s : State) (r port : Nat) : ∃ w, s.acceptFlit r port = { s with msh := { s.msh with wire := w } } := by
  unfold State.acceptFlit
  split
  · exact ⟨_, rfl⟩
  · exact ⟨s.msh.wire, rfl⟩

theorem State.rf_seamFlit (s : State) (r port : Nat) {g : Field} (h1 : g.code ≠ R.SEAM_FLITS_EW.code) (h2 : g.code ≠ R.SEAM_FLITS_WE.code) (j : Nat) :
    (s.seamFlit r port).rf g j = s.rf g j := by
  unfold State.seamFlit
  dsimp only
  split
  · exact State.rf_inc_of_code _ h1 _ _ _ _ _
  · split
    · exact State.rf_inc_of_code _ h2 _ _ _ _ _
    · rfl

/-- R234: a flit that has crossed its link ends the run of failures; what decides on leaving stands. -/
theorem State.flitIn_is (s : State) (r port : Nat) :
    (∀ g ∈ R.ROUTER_FLITS :: leaveRegs, ∀ j, (s.flitIn r port).rf g j = s.rf g j) ∧ (s.flitIn r port).out = s.out ∧
    (s.flitIn r port).elapsed = s.elapsed ∧
    ∃ w, (s.flitIn r port).msh = { s.msh with fails := Tbl.del s.msh.fails (portKey r port), wire := w } ∧
      ∀ k, (Tbl.getD w k []).length ≤ (Tbl.getD s.msh.wire k []).length := by
  obtain ⟨u, hu⟩ : ∃ u, u = ({ s with msh := { s.msh with fails := Tbl.del s.msh.fails (portKey r port) } }).seamFlit r port := ⟨_, rfl⟩
  have hw := State.seamFlit_within { s with msh := { s.msh with fails := Tbl.del s.msh.fails (portKey r port) } } r port
  rw [← hu] at hw
  obtain ⟨w, hacc⟩ := u.acceptFlit_is r port
  have hwire := u.wire_acceptFlit r port
  have hmsh : u.msh = { s.msh with fails := Tbl.del s.msh.fails (portKey r port) } := hw.msh (by decide)
  unfold State.flitIn
  rw [← hu]
  rw [hacc] at hwire ⊢
  rw [hmsh] at hwire ⊢
  refine ⟨fun g hg j => ?_, hw.out (by decide), hw.elapsed (by decide), w, rfl, hwire⟩
  have hne := (by decide : ∀ g ∈ R.ROUTER_FLITS :: leaveRegs, g.code ≠ R.SEAM_FLITS_EW.code ∧ g.code ≠ R.SEAM_FLITS_WE.code) g hg
  have hset (x : MeshSt) (v : State) : ({ v with msh := x }).rf g j = v.rf g j := rfl
  rw [hset, hu, State.rf_seamFlit _ _ _ hne.1 hne.2, hset]

theorem port_lt_of_hasPort {r port : Nat} (h : hasPort r port = true) : port < 9 := by
  unfold hasPort at h
  rw [Bool.and_eq_true] at h
  obtain ⟨-, h⟩ := h
  by_contra hge
  rw [if_neg (by omega), if_neg (by omega), if_neg (by omega), if_neg (by omega), if_neg (by omega), decide_eq_true_iff] at h
  omega

theorem flitReceive_completes {r port out : Nat} {f : Flit} {s : State} (hhas : hasPort r port = true) (hlink : s.linkDead r port = false)
    (hcrc : crc32c f.data = f.crc)
    (hway : (if f.typ % 4 = 0 ∨ f.typ % 4 = 3 then outPortOf r f.data else Tbl.get? s.msh.route (vcKey r port (f.cls % 4))) = some out)
    (hbufs : s.msh.bufs = []) (howner : s.msh.owner = []) (hleave : s.canLeave r out (f.cls % 4) = true) :
    Completes (.flitReceive r port f.data f.toFlitSide) s fun t =>
      t.out = .flit r out { f with typ := f.typ % 4 } :: s.out ∧ t.msh.bufs = [] ∧
      t.rf R.ROUTER_FLITS r = (s.rf R.ROUTER_FLITS r + 1) % 2 ^ 64 ∧ Tbl.get? t.msh.fails (r * 16 + port) = none := by
  obtain ⟨hrf, hout, helapsed, wire, hmsh, hwire⟩ := s.flitIn_is r port
  have hport := port_lt_of_hasPort hhas
  have hc : f.cls % 4 < 4 := Nat.mod_lt _ (by decide)
  have hway' : (if f.typ % 4 = 0 ∨ f.typ % 4 = 3 then outPortOf r f.data else Tbl.get? (s.flitIn r port).msh.route (vcKey r port (f.cls % 4))) = some out := by
    rw [hmsh]
    exact hway
  have hempty : Tbl.getD (s.flitIn r port).msh.bufs (vcKey r port (f.cls % 4)) [] = [] := by
    rw [hmsh]
    dsimp only
    rw [hbufs]
    rfl
  obtain ⟨u, hu⟩ : ∃ u, u = (s.flitIn r port).flitTaken r port out f := ⟨_, rfl⟩
  have hheld : u.msh.bufs = [(vcKey r port (f.cls % 4), [{ f := { f with typ := f.typ % 4 }, out := out, since := u.elapsed }])] := by
    rw [hu]
    unfold State.flitTaken
    dsimp only
    rw [hempty, hmsh]
    dsimp only
    rw [hbufs]
    rfl
  have hrest : u.msh.owner = [] ∧ u.msh.dead = s.msh.dead ∧ u.msh.spent = s.msh.spent ∧ u.msh.wire = wire ∧
      u.msh.fails = Tbl.del s.msh.fails (portKey r port) := by
    rw [hu]
    unfold State.flitTaken
    dsimp only
    rw [hmsh]
    exact ⟨howner, rfl, rfl, rfl, rfl⟩
  obtain ⟨howner', hdead, hspent, hwire', hfails⟩ := hrest
  have hurf : ∀ g ∈ R.ROUTER_FLITS :: leaveRegs, ∀ j, u.rf g j = s.rf g j := fun g hg j => by
    rw [hu]
    exact hrf g hg j
  have hleave' : u.canLeave r out (f.cls % 4) = true :=
    State.canLeave_of_rf (fun g hg j => hurf g (List.mem_cons_of_mem _ hg) j) hc hdead hspent (fun k => by rw [hwire']; exact hwire k) hleave
  have huout : u.out = s.out := by
    rw [hu]
    exact hout
  obtain ⟨hgone, hkept, hsent, hcount⟩ := State.sendFlit_single (out := out) hheld
  refine completes_of_next rfl ?_
  unfold State.flitReceive
  rw [hhas, hlink, if_neg (by decide)]
  dsimp only
  rw [if_pos (by simpa [flitGood] using hcrc), ← State.flitIn, State.takeFlit_of hway', ← hu,
    show 64 + 64 * (s.flitIn r port).flitsHeld = 63 + 64 * (s.flitIn r port).flitsHeld + 1 by omega,
    State.forwardFlits_single _ hheld howner' rfl rfl hport hc hleave', hsent, hgone, hcount, hkept, huout, hurf _ List.mem_cons_self, hfails]
  exact ⟨rfl, rfl, rfl, Tbl.get_del_same _ _⟩

/-- Settles O22. -/
theorem pipsSentAndReceivedComplete : Obligations.PipsSentAndReceivedComplete :=
  ⟨fun _ _ _ _ => pipSend_completes, fun _ _ _ => txSend_completes, fun _ _ _ => rxTailWrite_completes, fun _ _ _ _ _ _ => pipReceive_completes,
    fun _ _ _ _ _ => flitReceive_completes, fun _ _ _ _ _ _ => responseReceive_completes⟩

end Sys2Proof.Machine
end

section
/-! Steps of an M-core: what a change of a step leaves, stand-ins and checks (R185, R219, R443; O18). -/

namespace Sys2Proof.Machine

/-! ### The state of a core and its steps -/

/-- The fields of a core's pages that mirror its steps, and the count of its waits for credits. -/
def mcoreMirrors : List Nat :=
  [R.MCORE_RUNNING, R.MCORE_IDLE, R.MCORE_HOLDING, R.MCORE1_HOLD_STAMP, R.POST_BUF0_BUSY, R.POST_BUF1_BUSY, R.MCORE_CREDIT_WAIT].map Field.code

/-- A field of no common header and none of those. -/
abbrev Field.offMirror (g : Field) : Prop := g.plain ∧ g.code ∉ mcoreMirrors

theorem Field.offMirror.ne {g f : Field} (hg : g.offMirror) (hf : f.code ∈ mcoreMirrors) : g.code ≠ f.code := fun h => hg.2 (by rw [h]; exact hf)

theorem State.rf_setMc (s : State) (ck : Nat) (m : McSt) {g : Field} (hg : g.offMirror) (j l : Nat) : (s.setMc ck m).rf g j l = s.rf g j l := by
  unfold State.setMc State.mirrorMc
  dsimp only
  refine Eq.trans (State.each_eq (fun t => t.rf g j l) (fun n _ t => ?_) _) ?_
  · rw [State.rf_wf_of_code _ (hg.ne (by decide)), State.rf_wf_of_code _ (hg.ne (by decide))]
  · rw [State.rf_wf_of_code _ (hg.ne (by decide)), State.rf_wf_of_code _ (hg.ne (by decide)), State.rf_wf_of_code _ (hg.ne (by decide)),
      State.rf_wf_of_code _ (hg.ne (by decide))]
    rfl

theorem State.mcSt_setMc (s : State) (ck : Nat) (m : McSt) : (s.setMc ck m).mcSt ck = m := by
  have hw (t : State) : t.Within _ (t.mirrorMc ck) := State.mirrorMc_frame (Sub.refl _) (t.frame_refl _)
  unfold State.setMc
  rw [State.mcSt_of_mc ((hw _).mc (by decide))]
  exact Tbl.getD_put_same _ _ _ _

theorem State.rf_setStep (s : State) (ck id : Nat) (f : Step → Step) {g : Field} (hg : g.offMirror) (j l : Nat) :
    (s.setStep ck id f).rf g j l = s.rf g j l := s.rf_setMc ck _ hg j l

/-- What a change of the step numbered `id` makes of each step. -/
def changed (id : Nat) (f : Step → Step) (x : Step) : Step := if x.id = id then f x else x

theorem changed_self {id : Nat} {f : Step → Step} {x : Step} (h : x.id = id) : changed id f x = f x := if_pos h

theorem State.steps_setStep (s : State) (ck id : Nat) (f : Step → Step) :
    ((s.setStep ck id f).mcSt ck).steps = (s.mcSt ck).steps.map (changed id f) := by
  unfold State.setStep
  rw [State.mcSt_setMc]
  rfl

theorem State.nextId_setStep (s : State) (ck id : Nat) (f : Step → Step) : ((s.setStep ck id f).mcSt ck).nextId = (s.mcSt ck).nextId := by
  unfold State.setStep
  rw [State.mcSt_setMc]

theorem find_map_id {l : List Step} {f : Step → Step} (hf : ∀ y, (f y).id = y.id) (id : Nat) :
    (l.map f).find? (fun x => x.id = id) = (l.find? fun x => x.id = id).map f := by
  rw [List.find?_map]
  congr 2
  funext y
  simp [hf]

theorem changed_id {id : Nat} {f : Step → Step} (hf : ∀ y, (f y).id = y.id) (y : Step) : (changed id f y).id = y.id := by
  unfold changed
  split
  · exact hf y
  · rfl

theorem State.stepOf_id {s : State} {ck id : Nat} {x : Step} (h : s.stepOf ck id = some x) : x.id = id := by
  simpa using List.find?_some h

theorem State.stepOf_changed (s : State) (ck id i : Nat) {f : Step → Step} (hf : ∀ y, (f y).id = y.id) :
    (s.setStep ck id f).stepOf ck i = (s.stepOf ck i).map (changed id f) := by
  unfold State.stepOf
  rw [State.steps_setStep, find_map_id (changed_id hf)]

theorem State.stepOf_setStep {s : State} {ck id : Nat} {f : Step → Step} {x : Step} (h : s.stepOf ck id = some x) (hf : ∀ y, (f y).id = y.id) :
    (s.setStep ck id f).stepOf ck id = some (f x) := by
  rw [s.stepOf_changed ck id id hf, h, Option.map_some, changed_self (State.stepOf_id h)]

theorem State.stepOf_of_mc {s t : State} (h : t.mc = s.mc) (ck id : Nat) : t.stepOf ck id = s.stepOf ck id := by
  rw [State.stepOf, State.mcSt_of_mc h, ← State.stepOf]

/-! ### The wait for credits and a clock of a core, R198 -/

theorem State.rf_creditWatch (s : State) (ck : Nat) {g : Field} (hg : g.offMirror) (j l : Nat) : (s.creditWatch ck).rf g j l = s.rf g j l := by
  unfold State.creditWatch
  split
  · rfl
  · dsimp only
    split
    · exact s.rf_setMc ck _ hg j l
    · rw [State.rf_inc_of_code _ (hg.ne (by decide)), State.rf_setMc _ _ _ hg]
    · rfl

theorem State.mcSt_creditWatch (s : State) (ck : Nat) : ∃ w, (s.creditWatch ck).mcSt ck = { s.mcSt ck with waitAt := w } := by
  unfold State.creditWatch
  split
  · exact ⟨_, rfl⟩
  · dsimp only
    split
    · exact ⟨_, s.mcSt_setMc ck _⟩
    · rw [State.mcSt_of_mc (State.inc_mc _ _ _ _ _), State.mcSt_setMc]
      exact ⟨_, rfl⟩
    · exact ⟨_, rfl⟩

theorem State.stepOf_creditWatch (s : State) (ck id : Nat) : (s.creditWatch ck).stepOf ck id = s.stepOf ck id := by
  obtain ⟨w, hw⟩ := s.mcSt_creditWatch ck
  rw [State.stepOf, hw, ← State.stepOf]

theorem State.clockPoint_within (s : State) (ck : Nat) : s.Within (touch [] [.clk]) (s.clockPoint ck) :=
  State.clockPoint_frame (by decide) (s.frame_refl _)

theorem State.regs_clockPoint (s : State) (ck : Nat) : (s.clockPoint ck).regs = s.regs := by
  unfold State.clockPoint
  dsimp only
  split
  · rfl
  · split
    · rfl
    · rfl

theorem State.rf_watched (s : State) (ck : Nat) {g : Field} (hg : g.offMirror) (j l : Nat) :
    ((s.creditWatch ck).clockPoint ck).rf g j l = s.rf g j l := by
  rw [State.rf_congr (State.regs_clockPoint _ ck), State.rf_creditWatch _ _ hg]

theorem State.stepOf_watched (s : State) (ck id : Nat) : ((s.creditWatch ck).clockPoint ck).stepOf ck id = s.stepOf ck id := by
  rw [State.stepOf_of_mc ((State.clockPoint_within _ ck).mc (by decide)), State.stepOf_creditWatch]

/-! ### A step still converting, R179 -/

theorem State.checkStep_busy {s : State} {ck id : Nat} {x : Step} (h : s.stepOf ck id = some x) (hb : x.engs.any StepEng.busy = true) :
    s.checkStep ck id = s := by
  unfold State.checkStep
  rw [h]
  dsimp only
  rw [hb, Bool.or_true, if_pos rfl]

/-- An engine's part of a step given a state and values. -/
def StepEng.take (n st : Nat) (vals : List Int) (g : StepEng) : StepEng := if g.eng = n then { g with state := st, vals := vals } else g

theorem State.stepOf_setStepEng {s : State} {ck id : Nat} {x : Step} (h : s.stepOf ck id = some x) (n st : Nat) (vals : List Int) :
    (s.setStepEng ck id n st vals).stepOf ck id = some { x with engs := x.engs.map (StepEng.take n st vals) } :=
  State.stepOf_setStep h fun _ => rfl

theorem busy_take {l : List StepEng} {n : Nat} (h : ∃ g ∈ l, g.eng ≠ n ∧ g.busy = true) (st : Nat) (vals : List Int) :
    (l.map (StepEng.take n st vals)).any StepEng.busy = true := by
  obtain ⟨g, hg, hne, hb⟩ := h
  refine List.any_eq_true.mpr ⟨g, List.mem_map.mpr ⟨g, hg, ?_⟩, hb⟩
  exact if_neg hne

/-! ### Stand-ins, R185, R219 -/

theorem standinResult_completes {ck id n : Nat} {ok : Bool} {vals : List Int} {x : Step} {s : State} (hx : s.stepOf ck id = some x)
    (hsent : ∃ g ∈ x.engs, g.eng = n ∧ g.state = 2) (hother : ∃ g ∈ x.engs, g.eng ≠ n ∧ g.busy = true) :
    Completes (.standinResult ck id n ok vals) s fun t =>
      t.stepOf ck id = some { x with engs := x.engs.map fun g =>
        if g.eng = n then { g with state := if ok then 3 else 4, vals := if ok then vals else [] } else g } ∧
      t.rf R.MCORE_FAILED_TILES ck = if ok then s.rf R.MCORE_FAILED_TILES ck else min (2 ^ 32 - 1) (s.rf R.MCORE_FAILED_TILES ck + 1) := by
  refine completes_of_next rfl ?_
  have hany : (x.engs.any fun e => e.eng = n && e.state = 2) = true := by simpa using hsent
  unfold State.standinResult
  rw [hx]
  dsimp only
  rw [if_pos hany]
  cases ok with
  | true =>
    have hy := State.stepOf_setStepEng hx n 3 vals
    rw [if_pos rfl, State.checkStep_busy hy (busy_take hother 3 vals), State.stepOf_watched, hy, State.rf_watched _ _ (by decide)]
    exact ⟨rfl, State.rf_setStep _ _ _ _ (by decide) _ _⟩
  | false =>
    have hf : s.Within _ (s.tileFailed ck) := State.tileFailed_frame (Sub.refl _) (s.frame_refl _)
    have hxf : (s.tileFailed ck).stepOf ck id = some x := by rw [State.stepOf_of_mc (hf.mc (by decide)), hx]
    have hy := State.stepOf_setStepEng hxf n 4 []
    rw [if_neg (by decide), State.checkStep_busy hy (busy_take hother 4 []), State.stepOf_watched, hy, State.rf_watched _ _ (by decide)]
    refine ⟨rfl, (State.rf_setStep _ _ _ _ (by decide) _ _).trans ?_⟩
    unfold State.tileFailed
    rw [State.rf_setInt_plain _ _ _ (by decide), State.rf_inc_sat _ _ (by decide)]
    rfl

/-! ### Checks, R443 -/

/-- R443: a check of the step's engine `n` counted and taken away. -/
def State.checked (s : State) (ck id n : Nat) : State :=
  (s.inc R.MCORE1_REEXEC_TILES ck).setStep ck id fun y => { y with checks := y.checks.filter fun k => k.eng ≠ n }

theorem State.checkDone_agrees {s : State} {ck id n : Nat} {vals : List Int} {x : Step} {c : Check} {g : StepEng} (hx : s.stepOf ck id = some x)
    (hc : x.checks.find? (fun k => k.eng = n) = some c) (hg : x.engs.find? (fun e => e.eng = n) = some g) (hidle : g.busy = false)
    (hstate : g.state ≠ 4)
    (hagree : (c.path = 0 ∧ c.twinVals = none ∧ firstOutside (s.tolerance ck n x) false g.vals vals = none) ∨
      (c.path = 1 ∧ (c.twinVals.any fun tv => firstOutside (s.tolerance ck n x) true g.vals tv == none) = true)) :
    s.checkDone ck id n true vals = (s.checked ck id n).checkStep ck id := by
  unfold State.checkDone
  rw [hx]
  dsimp only
  rw [hc, hg]
  dsimp only
  rw [hidle, if_neg (by decide), if_neg hstate]
  rcases hagree with ⟨hp, htw, hin⟩ | ⟨hp, htw⟩
  · rw [hp, htw, hin]
    rfl
  · cases hv : c.twinVals with
    | none => rw [hv] at htw; exact absurd htw Bool.false_ne_true
    | some tv =>
      rw [hv] at htw
      have hin : firstOutside (s.tolerance ck n x) true g.vals tv = none := by simpa using htw
      rw [if_pos hp]
      dsimp only
      rw [hin]
      rfl

theorem reexecCheckDone_completes {ck id n : Nat} {vals : List Int} {x : Step} {c : Check} {g : StepEng} {s : State}
    (hx : s.stepOf ck id = some x) (hc : x.checks.find? (fun k => k.eng = n) = some c) (hg : x.engs.find? (fun e => e.eng = n) = some g)
    (hidle : g.busy = false) (hstate : g.state ≠ 4)
    (hagree : (c.path = 0 ∧ c.twinVals = none ∧ firstOutside (s.tolerance ck n x) false g.vals vals = none) ∨
      (c.path = 1 ∧ (c.twinVals.any fun tv => firstOutside (s.tolerance ck n x) true g.vals tv == none) = true))
    (hbusy : x.engs.any StepEng.busy = true) :
    Completes (.reexecCheckDone ck id n true vals) s fun t =>
      t.stepOf ck id = some { x with checks := x.checks.filter fun k => k.eng ≠ n } ∧
      t.rf R.MCORE1_REEXEC_TILES ck = min (2 ^ 32 - 1) (s.rf R.MCORE1_REEXEC_TILES ck + 1) := by
  refine completes_of_next rfl ?_
  have hxi : (s.inc R.MCORE1_REEXEC_TILES ck).stepOf ck id = some x := by rw [State.stepOf_of_mc (State.inc_mc _ _ _ _ _), hx]
  have hy : (s.checked ck id n).stepOf ck id = some { x with checks := x.checks.filter fun k => k.eng ≠ n } :=
    State.stepOf_setStep hxi fun _ => rfl
  rw [State.checkDone_agrees hx hc hg hidle hstate hagree, State.checkStep_busy hy hbusy, State.stepOf_watched, hy,
    State.rf_watched _ _ (by decide)]
  refine ⟨rfl, (State.rf_setStep _ _ _ _ (by decide) _ _).trans ?_⟩
  rw [State.rf_inc_sat _ _ (by decide)]
  rfl

end Sys2Proof.Machine
end

section
/-! Held tiles that go to a slow V-core (R185, R218; O18). -/

namespace Sys2Proof.Machine

/-! ### Stand-ins asked for: what they make of a step -/

/-- What asking for stand-ins keeps of a step: its number, that it is slow, each engine, and each engine's part until it is sent. -/
structure Step.SentFrom (x y : Step) : Prop where
  id : y.id = x.id
  slow : x.slow = true → y.slow = true
  eng : ∀ g ∈ x.engs, ∃ h ∈ y.engs, h.eng = g.eng
  part : ∀ h ∈ y.engs, h.state = 2 ∨ h ∈ x.engs

theorem Step.SentFrom.refl (x : Step) : x.SentFrom x := ⟨rfl, fun h => h, fun g hg => ⟨g, hg, rfl⟩, fun _ h => .inr h⟩

theorem Step.SentFrom.trans {x y z : Step} (h : x.SentFrom y) (h' : y.SentFrom z) : x.SentFrom z where
  id := h'.id.trans h.id
  slow := fun hx => h'.slow (h.slow hx)
  eng := fun g hg => by
    obtain ⟨k, hk, hkg⟩ := h.eng g hg
    obtain ⟨l, hl, hlk⟩ := h'.eng k hk
    exact ⟨l, hl, hlk.trans hkg⟩
  part := fun k hk => (h'.part k hk).elim .inl (h.part k)

/-- R185: the tile of engine `n` of step `id` is with a stand-in. -/
def sentEng (id n : Nat) : Step → Step := changed id fun x => { x with engs := x.engs.map (StepEng.take n 2 []) }

/-- R185: step `id` is marked as slow. -/
def markedSlow (id : Nat) : Step → Step := changed id fun x => { x with slow := true }

/-- The tiles of a step held past 200 us. -/
def Step.late (x : Step) : List StepEng := x.engs.filter fun e => e.state = 1 && e.late

/-- R185: what the stand-in requests for the step `x` make of a step. -/
def stoodIn (x y : Step) : Step :=
  if x.late.isEmpty then y else markedSlow x.id (x.late.foldl (fun z e => sentEng x.id e.eng z) y)

theorem StepEng.take_eng (n st : Nat) (vals : List Int) (g : StepEng) : (g.take n st vals).eng = g.eng := by
  unfold StepEng.take
  split
  · rfl
  · rfl

theorem StepEng.take_two (n : Nat) (g : StepEng) : (g.take n 2 []).state = 2 ∨ g.take n 2 [] = g := by
  unfold StepEng.take
  split
  · exact .inl rfl
  · exact .inr rfl

theorem sentFrom_changed (id : Nat) {f : Step → Step} (hf : ∀ y : Step, y.SentFrom (f y)) (y : Step) : y.SentFrom (changed id f y) := by
  unfold changed
  split
  · exact hf y
  · exact .refl y

theorem sentFrom_sentEng (id n : Nat) (y : Step) : y.SentFrom (sentEng id n y) := by
  refine sentFrom_changed id (f := fun x => { x with engs := x.engs.map (StepEng.take n 2 []) }) (fun x => ⟨rfl, fun h => h, fun g hg => ?_, fun h hh => ?_⟩) y
  · exact ⟨_, List.mem_map_of_mem hg, g.take_eng _ _ _⟩
  · obtain ⟨g, hg, rfl⟩ := List.mem_map.mp hh
    rcases g.take_two n with h2 | he
    · exact .inl h2
    · exact .inr (by rwa [he])

theorem sentFrom_markedSlow (id : Nat) (y : Step) : y.SentFrom (markedSlow id y) :=
  sentFrom_changed id (f := fun x => { x with slow := true }) (fun _ => ⟨rfl, fun _ => rfl, fun g hg => ⟨g, hg, rfl⟩, fun _ h => .inr h⟩) y

theorem sentFrom_foldl {α : Type} {f : α → Step → Step} (hf : ∀ a (z : Step), z.SentFrom (f a z)) (l : List α) (y : Step) :
    y.SentFrom (l.foldl (fun z a => f a z) y) := by
  induction l generalizing y with
  | nil => exact .refl y
  | cons a l ih => exact (hf a y).trans (ih (f a y))

/-- What one of a row of changes brings about and the others keep holds after them all. -/
theorem foldl_reaches {α : Type} {f : α → Step → Step} (hf : ∀ a (z : Step), z.SentFrom (f a z)) {P : Step → Prop}
    (hP : ∀ z z' : Step, z.SentFrom z' → P z → P z') {l : List α} {a : α} (ha : a ∈ l) {y : Step} (hit : ∀ z, y.SentFrom z → P (f a z)) :
    P (l.foldl (fun z a => f a z) y) := by
  obtain ⟨l₁, l₂, rfl⟩ := List.append_of_mem ha
  rw [List.foldl_append, List.foldl_cons]
  exact hP _ _ (sentFrom_foldl hf l₂ _) (hit _ (sentFrom_foldl hf l₁ y))

theorem sentFrom_stoodIn (x y : Step) : y.SentFrom (stoodIn x y) := by
  unfold stoodIn
  split
  · exact .refl y
  · exact (sentFrom_foldl (fun e => sentFrom_sentEng x.id e.eng) x.late y).trans (sentFrom_markedSlow _ _)

/-- R185: every tile of engine `n` in the step is with a stand-in. -/
def Step.allSent (n : Nat) (y : Step) : Prop := ∀ h ∈ y.engs, h.eng = n → h.state = 2

theorem Step.allSent.keep {n : Nat} {y z : Step} (h : y.allSent n) (hz : y.SentFrom z) : z.allSent n :=
  fun k hk hn => (hz.part k hk).elim (fun h2 => h2) fun hy => h k hy hn

theorem allSent_sentEng {id n : Nat} {y : Step} (h : y.id = id) : (sentEng id n y).allSent n := by
  unfold sentEng
  rw [changed_self h]
  intro k hk hn
  obtain ⟨g, _, rfl⟩ := List.mem_map.mp hk
  rw [StepEng.take_eng] at hn
  unfold StepEng.take
  rw [if_pos hn]

theorem stoodIn_sends {x y : Step} {g : StepEng} (hg : g ∈ x.late) (hid : y.id = x.id) :
    (stoodIn x y).slow = true ∧ (stoodIn x y).allSent g.eng := by
  have hne : x.late.isEmpty = false := by
    rw [List.isEmpty_eq_false_iff]
    exact List.ne_nil_of_mem hg
  have hf (e : StepEng) (z : Step) : z.SentFrom (sentEng x.id e.eng z) := sentFrom_sentEng x.id e.eng z
  have hall : (x.late.foldl (fun z e => sentEng x.id e.eng z) y).allSent g.eng :=
    foldl_reaches hf (P := fun z => z.allSent g.eng) (fun _ _ hz h => h.keep hz) hg fun z hz => allSent_sentEng (hz.id.trans hid)
  have hidf := (sentFrom_foldl hf x.late y).id.trans hid
  unfold stoodIn
  rw [hne, if_neg Bool.false_ne_true]
  refine ⟨?_, hall.keep (sentFrom_markedSlow _ _)⟩
  unfold markedSlow
  rw [changed_self hidf]

/-- R185: what the stand-in requests for all the steps in `l` make of a step. -/
def stoodInAll (l : List Step) (y : Step) : Step := l.foldl (fun z x => stoodIn x z) y

theorem stoodInAll_sends {l : List Step} {x y : Step} {g : StepEng} (hx : x ∈ l) (hg : g ∈ x.late) (hid : y.id = x.id) :
    (stoodInAll l y).slow = true ∧ (stoodInAll l y).allSent g.eng :=
  foldl_reaches sentFrom_stoodIn (P := fun z => z.slow = true ∧ z.allSent g.eng) (fun _ _ hz h => ⟨hz.slow h.1, h.2.keep hz⟩) hx
    fun _ hz => stoodIn_sends hg (hz.id.trans hid)

/-! ### Stand-ins asked for by a core -/

/-- A row of changes that each map the core's steps maps them in that order. -/
theorem State.steps_each {α : Type} {ck : Nat} {F : State → α → State} {f : α → Step → Step}
    (h : ∀ (t : State) (a : α), ((F t a).mcSt ck).steps = (t.mcSt ck).steps.map (f a)) (l : List α) (s : State) :
    ((s.each l F).mcSt ck).steps = (s.mcSt ck).steps.map fun y => l.foldl (fun z a => f a z) y := by
  unfold State.each
  induction l generalizing s with
  | nil => exact (List.map_id _).symm
  | cons a l ih =>
    rw [List.foldl_cons, ih, h, List.map_map]
    rfl

theorem State.mcSt_mesh (s : State) (kind dest : Nat) (words : List Nat) (ck : Nat) : (s.mesh kind dest words).mcSt ck = s.mcSt ck := by
  have hw : s.Within _ (s.mesh kind dest words) := State.mesh_frame (Sub.refl _) (s.frame_refl _)
  exact State.mcSt_of_mc (hw.mc (by decide)) ck

theorem State.mcSt_setInt (s : State) (p : Page) (b ck : Nat) : (s.setInt p b).mcSt ck = s.mcSt ck := by
  refine State.mcSt_of_mc ?_ ck
  unfold State.setInt State.setInts
  dsimp only
  split
  · rfl
  · have hw (t : State) : t.Within _ (t.irqUpdate p) := State.irqUpdate_frame (Sub.refl _) (t.frame_refl _)
    exact ((hw _).mc (by decide)).trans ((State.wf_mc _ _ _ _ _).trans (State.wf_mc _ _ _ _ _))

theorem State.mcSt_inc (s : State) (f : Field) (i n k ck : Nat) : (s.inc f i n k).mcSt ck = s.mcSt ck :=
  State.mcSt_of_mc (State.inc_mc _ _ _ _ _) ck

theorem State.steps_sendStandins (s : State) (ck : Nat) :
    ((s.sendStandins ck).mcSt ck).steps = (s.mcSt ck).steps.map (stoodInAll (s.mcSt ck).steps) := by
  unfold State.sendStandins
  refine State.steps_each (f := stoodIn) (fun t x => ?_) _ s
  have hsent (u : State) (e : StepEng) (v : Nat) (ws : List Nat) :
      (((u.setStepEng ck x.id e.eng 2 []).mesh 7 v ws).mcSt ck).steps = (u.mcSt ck).steps.map (sentEng x.id e.eng) := by
    rw [State.mcSt_mesh]
    exact State.steps_setStep u ck x.id _
  have hwhen (u : State) (b : Bool) : ((u.when b fun u => u.inc R.MCORE_SLOW_TIER ck).mcSt ck) = u.mcSt ck := by
    cases b with
    | false => rfl
    | true => rw [State.when_true, State.mcSt_inc]
  unfold stoodIn
  show (State.mcSt (if x.late.isEmpty = true then t else _) ck).steps = _
  split
  · exact (List.map_id _).symm
  · rw [State.steps_setStep, hwhen, State.steps_each (f := fun e => sentEng x.id e.eng) (fun u e => hsent u e _ _), List.map_map]
    rfl

/-- R185: held past 200 us, a tile goes to the V-core named, its step is marked, and no such tile stays held. -/
theorem State.sendStandins_sends {s : State} {ck : Nat} {x : Step} {g : StepEng} (hx : x ∈ (s.mcSt ck).steps) (hg : g ∈ x.engs)
    (hstate : g.state = 1) (hlate : g.late = true) :
    (∃ y ∈ ((s.sendStandins ck).mcSt ck).steps, y.id = x.id ∧ y.slow = true ∧ ∃ h ∈ y.engs, h.eng = g.eng ∧ h.state = 2) ∧
    ∀ y ∈ ((s.sendStandins ck).mcSt ck).steps, ∀ h ∈ y.engs, h.state = 1 → h.late = false ∧ ∃ z ∈ (s.mcSt ck).steps, h ∈ z.engs := by
  have hfrom (y : Step) : y.SentFrom (stoodInAll (s.mcSt ck).steps y) := sentFrom_foldl sentFrom_stoodIn _ y
  rw [State.steps_sendStandins]
  constructor
  · have hmem : g ∈ x.late := List.mem_filter.mpr ⟨hg, by simp [hstate, hlate]⟩
    obtain ⟨hslow, hall⟩ := stoodInAll_sends hx hmem (y := x) rfl
    obtain ⟨h, hh, he⟩ := (hfrom x).eng g hg
    exact ⟨_, List.mem_map_of_mem hx, (hfrom x).id, hslow, h, hh, he, hall h hh he⟩
  · intro y hy h hh hs
    obtain ⟨z, hz, rfl⟩ := List.mem_map.mp hy
    have hin : h ∈ z.engs := ((hfrom z).part h hh).resolve_left (by omega)
    refine ⟨?_, z, hz, hin⟩
    by_contra hl
    have hmem : h ∈ z.late := List.mem_filter.mpr ⟨hin, by simp [hs, hl]⟩
    have h2 := (stoodInAll_sends hz hmem (y := z) rfl).2 h hh rfl
    omega

/-! ### A hold past 200 us and a V-core named, R185 -/

/-- R185: a tile marked where its hold has lasted 200 us. -/
def StepEng.marked (now : Nat) (h : StepEng) : StepEng :=
  if h.state = 1 ∧ h.late = false ∧ h.since + 200000 ≤ now then { h with late := true } else h

/-- R185: a core's steps with the holds that have lasted 200 us marked. -/
def McSt.marked (m : McSt) (now : Nat) : McSt :=
  { m with steps := m.steps.map fun y => { y with engs := y.engs.map (StepEng.marked now) } }

theorem StepEng.due_iff (h : StepEng) (now : Nat) : h.due now = true ↔ h.state = 1 ∧ h.late = false ∧ h.since + 200000 ≤ now := by
  simp [StepEng.due, and_assoc]

theorem State.holdTimeout_due {s : State} {ck : Nat} {x : Step} {g : StepEng} (hx : x ∈ (s.mcSt ck).steps) (hg : g ∈ x.engs)
    (hdue : g.due s.elapsed = true) :
    s.holdTimeout ck = if s.rf R.MCORE1_SLOW_VCORE ck ≠ 0xFFFF then (s.setMc ck ((s.mcSt ck).marked s.elapsed)).sendStandins ck
      else (s.setMc ck ((s.mcSt ck).marked s.elapsed)).setInt (mcorePage ck) R.INT_MCORE_HOLD_TIMEOUT := by
  have hany : ((s.mcSt ck).steps.any fun x => x.engs.any fun e => e.due s.elapsed) = true :=
    List.any_eq_true.mpr ⟨x, hx, List.any_eq_true.mpr ⟨g, hg, hdue⟩⟩
  have hmark : (fun e : StepEng => if e.due s.elapsed then { e with late := true } else e) = StepEng.marked s.elapsed := by
    funext e
    exact if_congr (e.due_iff _) rfl rfl
  unfold State.holdTimeout
  dsimp only
  rw [hany, if_neg (by decide), hmark]
  rfl

theorem StepEng.marked_held {now : Nat} {h : StepEng} (hs : (h.marked now).state = 1) (hl : (h.marked now).late = false) :
    now < (h.marked now).since + 200000 := by
  unfold StepEng.marked at hs hl ⊢
  split at hl
  · exact absurd hl (fun h => Bool.noConfusion h)
  · rename_i hn
    rw [if_neg hn] at hs ⊢
    by_contra hge
    exact hn ⟨hs, hl, by omega⟩

theorem holdTimeout_completes {ck : Nat} {x : Step} {g : StepEng} {s : State} (hx : x ∈ (s.mcSt ck).steps) (hg : g ∈ x.engs)
    (hstate : g.state = 1) (hlate : g.late = false) (hsince : g.since + 200000 ≤ s.elapsed) :
    Completes (.holdTimeout ck) s fun t =>
      if s.rf R.MCORE1_SLOW_VCORE ck = 0xFFFF then
        t.mcSt ck = { s.mcSt ck with steps := (s.mcSt ck).steps.map fun y => { y with engs := y.engs.map fun h =>
          if h.state = 1 ∧ h.late = false ∧ h.since + 200000 ≤ s.elapsed then { h with late := true } else h } }
      else
        (∃ y ∈ (t.mcSt ck).steps, y.id = x.id ∧ y.slow = true ∧ ∃ h ∈ y.engs, h.eng = g.eng ∧ h.state = 2) ∧
        ∀ y ∈ (t.mcSt ck).steps, ∀ h ∈ y.engs, h.state = 1 → s.elapsed < h.since + 200000 ∧ h.late = false := by
  refine completes_of_next rfl ?_
  have hgm : g.marked s.elapsed = { g with late := true } := if_pos ⟨hstate, hlate, hsince⟩
  rw [State.holdTimeout_due hx hg ((g.due_iff _).mpr ⟨hstate, hlate, hsince⟩)]
  by_cases hv : s.rf R.MCORE1_SLOW_VCORE ck = 0xFFFF
  · rw [if_pos hv, if_neg (by simp [hv]), State.mcSt_setInt, State.mcSt_setMc]
    rfl
  · rw [if_neg hv, if_pos hv]
    have hsteps : ((s.setMc ck ((s.mcSt ck).marked s.elapsed)).mcSt ck).steps =
        (s.mcSt ck).steps.map fun y => { y with engs := y.engs.map (StepEng.marked s.elapsed) } := by
      rw [State.mcSt_setMc]
      rfl
    have hx' : { x with engs := x.engs.map (StepEng.marked s.elapsed) } ∈ ((s.setMc ck ((s.mcSt ck).marked s.elapsed)).mcSt ck).steps := by
      rw [hsteps]
      exact List.mem_map_of_mem (f := fun y : Step => { y with engs := y.engs.map (StepEng.marked s.elapsed) }) hx
    obtain ⟨hsent, hheld⟩ := State.sendStandins_sends hx' (List.mem_map_of_mem hg) (by rw [hgm]; exact hstate) (by rw [hgm])
    rw [hgm] at hsent
    refine ⟨hsent, fun y hy h hh h1 => ?_⟩
    obtain ⟨hl, z, hz, hin⟩ := hheld y hy h hh h1
    rw [hsteps] at hz
    obtain ⟨z0, _, rfl⟩ := List.mem_map.mp hz
    obtain ⟨h0, _, rfl⟩ := List.mem_map.mp hin
    exact ⟨StepEng.marked_held h1 hl, hl⟩

theorem State.rf_sendStandins (s : State) (ck j l : Nat) :
    (s.sendStandins ck).rf R.MCORE1_SLOW_VCORE j l = s.rf R.MCORE1_SLOW_VCORE j l := by
  have hmesh (u : State) (k d : Nat) (ws : List Nat) : (u.mesh k d ws).rf R.MCORE1_SLOW_VCORE j l = u.rf R.MCORE1_SLOW_VCORE j l := by
    have hw : u.Within _ (u.mesh k d ws) := State.mesh_frame (Sub.refl _) (u.frame_refl _)
    exact hw.rf (by decide)
  have hwhen (u : State) (b : Bool) :
      (u.when b fun u => u.inc R.MCORE_SLOW_TIER ck).rf R.MCORE1_SLOW_VCORE j l = u.rf R.MCORE1_SLOW_VCORE j l := by
    cases b with
    | false => rfl
    | true => exact State.rf_inc_of_code u (f := R.MCORE_SLOW_TIER) (by decide) _ _ _ _ _
  unfold State.sendStandins
  refine State.each_eq (fun t => t.rf R.MCORE1_SLOW_VCORE j l) (fun x _ t => ?_) s
  dsimp only
  split
  · rfl
  · rw [State.rf_setStep _ _ _ _ (by decide), hwhen]
    refine State.each_eq (fun t => t.rf R.MCORE1_SLOW_VCORE j l) (fun e _ u => ?_) t
    rw [hmesh]
    exact State.rf_setStep _ _ _ _ (by decide) _ _

theorem slowVcoreNamed_completes {ck v : Nat} {x : Step} {g : StepEng} {s : State} (hx : x ∈ (s.mcSt ck).steps) (hg : g ∈ x.engs)
    (hstate : g.state = 1) (hlate : g.late = true) (hnone : s.rf R.MCORE1_SLOW_VCORE ck = 0xFFFF) (hv : s.slowVcore ck = some v) :
    Completes (.slowVcoreNamed ck) s fun t =>
      t.rf R.MCORE1_SLOW_VCORE ck = v % 65536 ∧
      (∃ y ∈ (t.mcSt ck).steps, y.id = x.id ∧ y.slow = true ∧ ∃ h ∈ y.engs, h.eng = g.eng ∧ h.state = 2) ∧
      ∀ y ∈ (t.mcSt ck).steps, ∀ h ∈ y.engs, h.state = 1 → h.late = false := by
  have hheld : s.heldLate ck = true :=
    List.any_eq_true.mpr ⟨x, hx, List.any_eq_true.mpr ⟨g, hg, by simp [hstate, hlate]⟩⟩
  refine completes_of_next rfl ?_
  unfold State.slowVcoreNamed
  rw [if_pos ⟨hheld, hnone⟩, hv]
  dsimp only
  obtain ⟨u, hu⟩ : ∃ u, u = (s.wf R.MCORE1_SLOW_VCORE ck v).unitEv 5 (mcorePage ck 1) 0 v false := ⟨_, rfl⟩
  have hw : (s.wf R.MCORE1_SLOW_VCORE ck v).Within (touch [1] [.irqLatch, .irqs, .staging, .lostStamps]) u := by
    rw [hu]
    exact State.unitEv_frame (by decide) (State.frame_refl _ _)
  have hmc : u.mcSt ck = s.mcSt ck := State.mcSt_of_mc ((hw.mc (by decide)).trans (State.wf_mc _ _ _ _ _)) ck
  rw [← hu]
  obtain ⟨hsent, hdone⟩ := State.sendStandins_sends (hmc ▸ hx) hg hstate hlate
  refine ⟨?_, hsent, fun y hy h hh h1 => (hdone y hy h hh h1).1⟩
  rw [State.rf_sendStandins, hu, State.rf_unitEv_plain _ _ _ _ _ _ (by decide), State.rf_wf_same]
  rfl

end Sys2Proof.Machine
end

section
/-! Sub-steps of a conversion (R77, R80, R84, R186, R187; O18). -/

namespace Sys2Proof.Machine

/-! ### The results of a quarter accumulated, R186, R187 -/

/-- A row of accumulators from `base` on after the results `rs` were added, each made a value by `h`. -/
def accumulated (base : Nat) (h : Int → Nat → Int) (rs : List Int) (k : Nat) (acc : Tbl Int) : Tbl Int :=
  (rs.zipIdx k).foldl (fun a v => Tbl.put a (base + v.2) (Tbl.getD a (base + v.2) 0 + h v.1 v.2)) acc

theorem accumulated_cons (base : Nat) (h : Int → Nat → Int) (r : Int) (rs : List Int) (k : Nat) (acc : Tbl Int) :
    accumulated base h (r :: rs) k acc = accumulated base h rs (k + 1) (Tbl.put acc (base + k) (Tbl.getD acc (base + k) 0 + h r k)) := by
  unfold accumulated
  rw [List.zipIdx_cons, List.foldl_cons]

theorem accumulated_before (base : Nat) (h : Int → Nat → Int) (rs : List Int) {k j : Nat} (hj : j < k) (acc : Tbl Int) :
    Tbl.getD (accumulated base h rs k acc) (base + j) 0 = Tbl.getD acc (base + j) 0 := by
  induction rs generalizing k acc with
  | nil => rfl
  | cons r rs ih => rw [accumulated_cons, ih (by omega), Tbl.getD_put_ne _ _ _ (by omega)]

theorem accumulated_at (base : Nat) (h : Int → Nat → Int) (rs : List Int) (k : Nat) {i : Nat} (hi : i < rs.length) (acc : Tbl Int) :
    Tbl.getD (accumulated base h rs k acc) (base + (k + i)) 0 = Tbl.getD acc (base + (k + i)) 0 + h (rs.getD i 0) (k + i) := by
  induction rs generalizing k i acc with
  | nil => exact absurd hi (Nat.not_lt_zero _)
  | cons r rs ih =>
    rw [accumulated_cons]
    cases i with
    | zero => rw [Nat.add_zero k, accumulated_before _ _ _ (Nat.lt_add_one k), Tbl.getD_put_same, List.getD_cons_zero]
    | succ i =>
      have hk : k + (i + 1) = k + 1 + i := by omega
      rw [hk, ih _ (by simpa using hi), Tbl.getD_put_ne _ _ _ (by omega), List.getD_cons_succ]

/-- R186, R187: what one result of a conversion adds to its accumulator. -/
def State.weighed (s : State) (e : Nat) (t : Tile) (c : Conv) (n : Nat) (v : Int) (k : Nat) : Int :=
  let w := corrected v n (signedOf 16 (s.rf (offsetF t.bank) e)) (s.rf (gainF t.bank) e) (s.column e t.bank (64 * c.quarter + k)).1
    (s.column e t.bank (64 * c.quarter + k)).2 ((c.scale : Int) - t.xref) * (2 : Int) ^ c.plane
  if c.sign then -w else w

theorem State.engSt_accumulate (s : State) (e : Nat) (t : Tile) (c : Conv) (rs : List Int) (n : Nat) :
    (s.accumulate e t c rs n).engSt e =
      { s.engSt e with acc := accumulated (64 * c.quarter) (s.weighed e t c n) rs 0 (s.engSt e).acc } := Tbl.getD_put_same _ _ _ _

theorem State.engSt_setEng (s : State) (e : Nat) (x : EngSt) : (s.setEng e x).engSt e = x := Tbl.getD_put_same _ _ _ _

/-! ### A sub-step without a clip -/

/-- R80: the resolution a conversion runs with. -/
def Tile.bitsOf (x : Tile) (c : Conv) : Nat := if (x.comp.any fun k => decide (k < c.bits)) = true then x.comp.getD c.bits else c.bits

/-- R77: the charge sums of a quarter's 64 slices with what the circuit adds. -/
def State.quarterSums (s : State) (e : Nat) (x : Tile) (c : Conv) (noise : List Int) : List Int :=
  (List.range 64).map fun k => (c.ones.foldl (fun a r => a + (s.rowCells e x.bank r).getD (64 * c.quarter + k) 0) 0) + noise.getD k 0

/-- R77, R84: the engine after a sub-step of `b` bits: its cycles counted, the limited readings accumulated. -/
def State.converted (s : State) (e b : Nat) (x : Tile) (c : Conv) (raw : List Int) : State :=
  (s.wf R.ENG_BUSY_CYCLES e (s.rf R.ENG_BUSY_CYCLES e + (b + 2))).accumulate e x c
    (raw.map fun v => max (-((2 : Int) ^ (b - 1))) (min ((2 : Int) ^ (b - 1) - 1) v)) c.ones.length

theorem State.skipZero_stop {s : State} {e : Nat} {t : Tile} {c : Conv} {rest : List Conv} (ht : (s.engSt e).tile = some t)
    (htodo : t.todo = c :: rest) (hc : c.ones ≠ [] ∨ s.rb R.ENG_ZERO_SKIP e = false) (fuel : Nat) : s.skipZero e (fuel + 1) = s := by
  have hno : ¬ (c.ones.isEmpty && s.rb R.ENG_ZERO_SKIP e) = true := by
    rcases hc with h | h
    · simp [h]
    · simp [h]
  unfold State.skipZero
  dsimp only
  rw [ht]
  dsimp only
  rw [htodo]
  dsimp only
  rw [if_neg hno]

theorem State.subStep_clean {s : State} {e : Nat} {noise : List Int} {x : Tile} {c c2 : Conv} {rest : List Conv}
    (ht : (s.engSt e).tile = some x) (htodo : x.todo = c :: c2 :: rest)
    (hr : x.comp = none ∨ ∀ v ∈ s.quarterSums e x c noise, -(2 : Int) ^ (x.bitsOf c - 1) ≤ v ∧ v ≤ 2 ^ (x.bitsOf c - 1) - 1) :
    s.subStep e noise =
      ((s.converted e (x.bitsOf c) x c (s.quarterSums e x c noise)).setEng e
        { (s.converted e (x.bitsOf c) x c (s.quarterSums e x c noise)).engSt e with
          tile := some { x with todo := c2 :: rest, clipped := x.clipped || false, cycles := x.cycles + (x.bitsOf c + 2) } }).skipZero e
        ((c2 :: rest).length + 1) := by
  unfold State.subStep
  rw [ht]
  dsimp only
  rw [htodo]
  dsimp only
  cases hcomp : x.comp with
  | none =>
    have hb : x.bitsOf c = c.bits := by
      unfold Tile.bitsOf
      rw [hcomp]
      rfl
    rw [hb]
    rfl
  | some k =>
    have hin := hr.resolve_left (by rw [hcomp]; exact Option.some_ne_none k)
    by_cases hk : k < c.bits
    · have hb : x.bitsOf c = k := by
        unfold Tile.bitsOf
        rw [hcomp, Option.any_some, decide_eq_true hk]
        rfl
      rw [hb] at hin ⊢
      have hnil : ((s.quarterSums e x c noise).zipIdx.filter fun v => decide (v.1 < -((2 : Int) ^ (k - 1))) || decide ((2 : Int) ^ (k - 1) - 1 < v.1))
          = [] := by
        rw [List.filter_eq_nil_iff]
        intro v hv
        have hrange := hin v.1 (List.fst_mem_of_mem_zipIdx hv)
        simp only [Bool.or_eq_true, decide_eq_true_eq, not_or, not_lt]
        exact hrange
      dsimp only
      have hif {α : Type} (a b : α) : (if decide (k < c.bits) = true then a else b) = a := if_pos (decide_eq_true hk)
      unfold State.quarterSums at hnil
      rw [hif, hif, Option.getD_some, hnil]
      rfl
    · have hb : x.bitsOf c = c.bits := by
        unfold Tile.bitsOf
        rw [hcomp, Option.any_some, decide_eq_false hk]
        rfl
      rw [hb]
      dsimp only
      have hif {α : Type} (a b : α) : (if decide (k < c.bits) = true then a else b) = b := if_neg (by simpa using hk)
      rw [hif, hif]
      rfl

theorem State.tileDone_running {s : State} {e : Nat} {t : Tile} (ht : (s.engSt e).tile = some t) (htodo : t.todo ≠ []) :
    s.tileDone e = s := by
  unfold State.tileDone
  rw [ht]
  dsimp only
  rw [if_pos (by simpa using htodo)]

theorem State.weighed_busy (s : State) (e v : Nat) (t : Tile) (c : Conv) (n : Nat) (r : Int) (k : Nat) :
    (s.wf R.ENG_BUSY_CYCLES e v).weighed e t c n r k = s.weighed e t c n r k := by
  have hf (f : Field) (h : f.code ≠ R.ENG_BUSY_CYCLES.code) (j l : Nat) : (s.wf R.ENG_BUSY_CYCLES e v).rf f j l = s.rf f j l :=
    s.rf_wf_of_code h _ _ _ _ _
  have hoff : (offsetF t.bank).code ≠ R.ENG_BUSY_CYCLES.code := by
    unfold offsetF
    split
    · decide
    · decide
  have hgain : (gainF t.bank).code ≠ R.ENG_BUSY_CYCLES.code := by
    unfold gainF
    split
    · decide
    · decide
  have hcol : (s.wf R.ENG_BUSY_CYCLES e v).column e t.bank (64 * c.quarter + k) = s.column e t.bank (64 * c.quarter + k) := by
    unfold State.column State.rb
    rw [hf R.POST_CORR_EN (by decide)]
    by_cases hb : t.bank = 0
    · by_cases hs : (64 * c.quarter + k) % 2 = 0
      · simp only [hb, hs, if_true]
        rw [hf R.POST_CG_A_0 (by decide), hf R.POST_CO_A_0 (by decide)]
      · simp only [hb, hs, if_true, if_false]
        rw [hf R.POST_CG_A_1 (by decide), hf R.POST_CO_A_1 (by decide)]
    · by_cases hs : (64 * c.quarter + k) % 2 = 0
      · simp only [hb, hs, if_true, if_false]
        rw [hf R.POST_CG_B_0 (by decide), hf R.POST_CO_B_0 (by decide)]
      · simp only [hb, hs, if_false]
        rw [hf R.POST_CG_B_1 (by decide), hf R.POST_CO_B_1 (by decide)]
  unfold State.weighed
  rw [hf _ hoff, hf _ hgain, hcol]

theorem State.length_quarterSums (s : State) (e : Nat) (x : Tile) (c : Conv) (noise : List Int) : (s.quarterSums e x c noise).length = 64 := by
  unfold State.quarterSums
  rw [List.length_map, List.length_range]

theorem State.acc_converted (s : State) (e b : Nat) (x : Tile) (c : Conv) (raw : List Int) {k : Nat} (hk : k < raw.length) :
    Tbl.getD ((s.converted e b x c raw).engSt e).acc (64 * c.quarter + k) 0 = Tbl.getD (s.engSt e).acc (64 * c.quarter + k) 0 +
      s.weighed e x c c.ones.length (max (-(2 : Int) ^ (b - 1)) (min (2 ^ (b - 1) - 1) (raw.getD k 0))) k := by
  unfold State.converted
  rw [State.engSt_accumulate]
  have h := accumulated_at (64 * c.quarter) ((s.wf R.ENG_BUSY_CYCLES e (s.rf R.ENG_BUSY_CYCLES e + (b + 2))).weighed e x c c.ones.length)
    (raw.map fun v => max (-((2 : Int) ^ (b - 1))) (min ((2 : Int) ^ (b - 1) - 1) v)) 0 (i := k) (by simpa using hk) (s.engSt e).acc
  rw [Nat.zero_add, State.weighed_busy] at h
  refine h.trans ?_
  rw [List.getD_eq_getElem _ _ (by simpa using hk), List.getElem_map, List.getD_eq_getElem _ _ hk]

theorem State.converted_tile (s : State) (e b : Nat) (x : Tile) (c : Conv) (raw : List Int) (g : Field) (hg : g.code ≠ R.ENG_BUSY_CYCLES.code)
    (j l : Nat) : (s.converted e b x c raw).rf g j l = s.rf g j l := s.rf_wf_of_code hg _ _ _ _ _

theorem subStepEnd_completes {e b : Nat} {noise raw : List Int} {x : Tile} {c c2 : Conv} {rest : List Conv} {s : State}
    (ht : (s.engSt e).tile = some x) (htodo : x.todo = c :: c2 :: rest) (hskip : c2.ones ≠ [] ∨ s.rb R.ENG_ZERO_SKIP e = false)
    (hraw : raw = s.quarterSums e x c noise) (hb : b = x.bitsOf c)
    (hr : x.comp = none ∨ ∀ v ∈ raw, -(2 : Int) ^ (b - 1) ≤ v ∧ v ≤ 2 ^ (b - 1) - 1) :
    Completes (.subStepEnd e noise) s fun t =>
      (t.engSt e).tile = some { x with todo := c2 :: rest, cycles := x.cycles + (b + 2) } ∧
      t.rf R.ENG_BUSY_CYCLES e = (s.rf R.ENG_BUSY_CYCLES e + (b + 2)) % 2 ^ 64 ∧
      ∀ k ∈ List.range 64, Tbl.getD (t.engSt e).acc (64 * c.quarter + k) 0 =
        Tbl.getD (s.engSt e).acc (64 * c.quarter + k) 0 + (if c.sign then -1 else 1) *
          (corrected (max (-(2 : Int) ^ (b - 1)) (min (2 ^ (b - 1) - 1) (raw.getD k 0))) c.ones.length
            (signedOf 16 (s.rf (offsetF x.bank) e)) (s.rf (gainF x.bank) e) (s.column e x.bank (64 * c.quarter + k)).1
            (s.column e x.bank (64 * c.quarter + k)).2 ((c.scale : Int) - x.xref) * 2 ^ c.plane) := by
  subst hraw hb
  refine completes_of_next rfl ?_
  obtain ⟨u, hu⟩ : ∃ u, u = s.converted e (x.bitsOf c) x c (s.quarterSums e x c noise) := ⟨_, rfl⟩
  obtain ⟨y, hy⟩ : ∃ y : Tile, y = { x with todo := c2 :: rest, clipped := x.clipped || false, cycles := x.cycles + (x.bitsOf c + 2) } := ⟨_, rfl⟩
  obtain ⟨w, hw⟩ : ∃ w, w = u.setEng e { u.engSt e with tile := some y } := ⟨_, rfl⟩
  have heng : w.engSt e = { u.engSt e with tile := some y } := by rw [hw, State.engSt_setEng]
  have htile : (w.engSt e).tile = some y := by rw [heng]
  have hytodo : y.todo = c2 :: rest := by rw [hy]
  have hzero : w.rb R.ENG_ZERO_SKIP e = s.rb R.ENG_ZERO_SKIP e := by
    have h : w.rf R.ENG_ZERO_SKIP e = u.rf R.ENG_ZERO_SKIP e := by rw [hw]; rfl
    unfold State.rb
    rw [h, hu, State.converted_tile _ _ _ _ _ _ _ (by decide)]
  rw [State.subStep_clean ht htodo hr, ← hu, ← hy, ← hw, State.skipZero_stop htile hytodo (by rwa [hzero]),
    State.tileDone_running htile (by rw [hytodo]; exact List.cons_ne_nil _ _)]
  have hwatch : w.Within _ (w.creditWatch (engCore e)) := State.creditWatch_frame (Sub.refl _) (w.frame_refl _)
  have hlast : ((w.creditWatch (engCore e)).clockPoint (engCore e)).engSt e = w.engSt e := by
    have h := (((w.creditWatch (engCore e)).clockPoint_within (engCore e)).eng (by decide)).trans (hwatch.eng (by decide))
    rw [State.engSt, h, ← State.engSt]
  rw [hlast, heng]
  refine ⟨?_, ?_, fun k hk => ?_⟩
  · rw [hy, Bool.or_false]
  · have h : w.rf R.ENG_BUSY_CYCLES e = u.rf R.ENG_BUSY_CYCLES e := by rw [hw]; rfl
    have h' : u.rf R.ENG_BUSY_CYCLES e = (s.wf R.ENG_BUSY_CYCLES e (s.rf R.ENG_BUSY_CYCLES e + (x.bitsOf c + 2))).rf R.ENG_BUSY_CYCLES e := by
      rw [hu]
      rfl
    rw [State.rf_watched _ _ (by decide), h, h', State.rf_wf_same]
    rfl
  · have hk64 : k < (s.quarterSums e x c noise).length := by rw [State.length_quarterSums]; exact List.mem_range.mp hk
    have hacc := State.acc_converted s e (x.bitsOf c) x c (s.quarterSums e x c noise) hk64
    rw [← hu] at hacc
    refine hacc.trans ?_
    unfold State.weighed
    dsimp only
    congr 1
    split
    · exact (neg_one_mul _).symm
    · exact (one_mul _).symm

end Sys2Proof.Machine
end

section
/-! The post-unit hands over a pip (R193 to R196; O18). -/

namespace Sys2Proof.Machine

/-- R195: the pip the post-unit makes of a step's next output: hollow or not, its format and its payload. -/
def Step.pip (x : Step) (ck : Nat) (em : Emission) (hollow : Bool) (fmt : Nat) (payload : List Nat) : Pip :=
  { dest := 0, stream := x.out, seq := (em.idx * outPips x.words + x.k) % 65536, gen := 0, hollow := hollow, last := x.last,
    epoch := em.epoch, drain := x.drain, fmt := fmt, source := ck, payload := payload }

/-- R196: a step whose pip `p` was handed over, `x` the step as it was. -/
def Step.handed (x : Step) (p : Pip) (ovr : Bool) (y : Step) : Step :=
  { y with
    outq := y.outq ++ (dDests x.words).map (fun d => { p with dest := d }), rangeEx := y.rangeEx || ovr,
    k := if x.k + 1 < outPips x.words then x.k + 1 else 0, emis := if x.k + 1 < outPips x.words then y.emis else y.emis.drop 1 }

/-- The step `id` of a core has pips to send and emissions to come as `x` has. -/
def State.emitting (ck id : Nat) (x : Step) (s : State) : Prop := ∃ y, s.stepOf ck id = some y ∧ y.outq = x.outq ∧ y.emis = x.emis

theorem State.emitting_of_mc {ck id : Nat} {x : Step} {s t : State} (h : s.emitting ck id x) (hmc : t.mc = s.mc) : t.emitting ck id x := by
  obtain ⟨y, hy, ho, he⟩ := h
  exact ⟨y, by rw [State.stepOf_of_mc hmc, hy], ho, he⟩

theorem State.mc_setInt (s : State) (p : Page) (b : Nat) : (s.setInt p b).mc = s.mc := by
  unfold State.setInt State.setInts
  dsimp only
  split
  · rfl
  · have hw (t : State) : t.Within _ (t.irqUpdate p) := State.irqUpdate_frame (Sub.refl _) (t.frame_refl _)
    exact ((hw _).mc (by decide)).trans ((State.wf_mc _ _ _ _ _).trans (State.wf_mc _ _ _ _ _))

theorem State.mc_when {s : State} {f : State → State} (hf : (f s).mc = s.mc) (b : Bool) : (s.when b f).mc = s.mc := by
  cases b with
  | false => rfl
  | true => exact hf

theorem State.emitting_rangeViolation {ck : Nat} {x x' : Step} {s : State} (h : s.emitting ck x.id x') (seq : Nat) (nf : Bool) :
    (s.rangeViolation ck x seq nf).emitting ck x.id x' := by
  unfold State.rangeViolation
  dsimp only
  refine State.each_ind (State.emitting ck x.id x') ?_ fun r _ t ht => State.emitting_of_mc ht rfl
  have hn (u : State) (a b : Nat) : u.Within _ (u.notice a b) := State.notice_frame (Sub.refl _) (u.frame_refl _)
  refine State.emitting_of_mc ?_ ((hn _ _ _).mc (by decide))
  obtain ⟨y, hy, ho, he⟩ : ((((((((s.inc R.MCORE_RANGE_VIOL ck).setInt (mcorePage ck) R.INT_MCORE_RANGE).wf R.MCORE_LAST_RANGE_STAMP ck s.now).wf
    R.MCORE_RANGE_STREAM ck (dOutStream x.words)).wf R.MCORE_RANGE_SEQ ck seq).wf R.MCORE_RANGE_DESC ck x.desc).wf
    R.MCORE_RANGE_NONFINITE ck (bit nf))).emitting ck x.id x' :=
    State.emitting_of_mc h (by
      rw [State.wf_mc, State.wf_mc, State.wf_mc, State.wf_mc, State.wf_mc, State.mc_setInt, State.inc_mc])
  exact ⟨_, State.stepOf_setStep hy fun _ => rfl, ho, he⟩

theorem State.handOver_is {s : State} {ck : Nat} {x : Step} {em : Emission} (hx : s.stepOf ck x.id = some x) :
    ∃ (t : State) (hollow : Bool) (fmt : Nat) (payload : List Nat) (ovr : Bool),
      s.handOver ck x em = t.setStep ck x.id (x.handed (x.pip ck em hollow fmt payload) ovr) ∧ (em.hollow = true → hollow = true) ∧
      t.emitting ck x.id x := by
  have hinc {u : State} (h : u.emitting ck x.id x) (f : Field) (b : Bool) (n : Nat) :
      (u.when b fun t => (t.inc f ck).setInt (mcorePage ck) n).emitting ck x.id x :=
    State.emitting_of_mc h (State.mc_when (by rw [State.mc_setInt, State.inc_mc]) b)
  have hviol {u : State} (h : u.emitting ck x.id x) (b : Bool) (seq : Nat) :
      (u.when b fun t => t.rangeViolation ck x seq false).emitting ck x.id x := by
    cases b with
    | false => exact h
    | true => exact State.emitting_rangeViolation h _ _
  unfold State.handOver
  dsimp only
  refine ⟨_, _, _, _, _, rfl, fun h => by simp [h], ?_⟩
  have h0 : s.emitting ck x.id x := ⟨x, hx, rfl, rfl⟩
  have hs (b c d e : Bool) (seq : Nat) := hinc (hviol (hinc (hinc h0 R.MCORE_HOLLOW_OUT b R.INT_MCORE_HOLLOW_OUT)
    R.MCORE_WIDENED c R.INT_MCORE_WIDENED) d seq) R.MCORE_RANGE_EXCEEDED e R.INT_MCORE_RANGE_EXCEEDED
  split
  · exact hs _ _ _ _ _
  · split
    · refine State.each_ind (State.emitting ck x.id x) (hs _ _ _ _ _) fun v _ t ht => ?_
      split
      · exact ht
      · exact State.emitting_of_mc ht rfl
    · exact State.each_ind (State.emitting ck x.id x) (hs _ _ _ _ _) fun v _ t ht => State.emitting_of_mc ht rfl

theorem postUnitDone_completes {ck : Nat} {x : Step} {em : Emission} {rest : List Emission} {s : State}
    (hfirst : ((s.mcSt ck).steps.find? fun y => !y.emis.isEmpty) = some x) (hx : s.stepOf ck x.id = some x) (hem : x.emis = em :: rest) :
    Completes (.postUnitDone ck) s fun t => ∃ (y : Step) (p : Pip), t.stepOf ck x.id = some y ∧
      (if x.k + 1 < outPips x.words then y.k = x.k + 1 ∧ y.emis = x.emis else y.k = 0 ∧ y.emis = rest) ∧
      y.outq = x.outq ++ (dDests x.words).map (fun d => { p with dest := d }) ∧
      p.seq = (em.idx * outPips x.words + x.k) % 65536 ∧ p.stream = x.out ∧ p.epoch = em.epoch ∧ p.source = ck ∧
      (em.hollow = true → p.hollow = true) := by
  refine completes_of_next rfl ?_
  unfold State.postUnitDone
  rw [hfirst]
  dsimp only
  rw [hem]
  dsimp only
  obtain ⟨t, hollow, fmt, payload, ovr, ht, hhollow, y, hy, ho, he⟩ := State.handOver_is (em := em) hx
  rw [ht]
  refine ⟨x.handed (x.pip ck em hollow fmt payload) ovr y, x.pip ck em hollow fmt payload, ?_, ?_, ?_, rfl, rfl, rfl, rfl, hhollow⟩
  · rw [State.stepOf_watched]
    exact State.stepOf_setStep hy fun _ => rfl
  · unfold Step.handed
    dsimp only
    split
    · exact ⟨rfl, he.trans hem⟩
    · exact ⟨rfl, by rw [he, hem]; rfl⟩
  · rw [← ho]
    rfl

end Sys2Proof.Machine
end

section
/-! What a step keeps while its tiles start and others end (R161, R176 to R182, R442; O18). -/

namespace Sys2Proof.Machine

/-! ### A step whose firing is on record -/

/-- The facts of a step that its firing fixes. -/
def Step.facts (x : Step) : Nat × Nat × List Nat × Nat × Nat × List Pip := (x.id, x.desc, x.words, x.n, x.firedAt, x.pips)

/-- R190, R192: a step without pooling, which is not over before it has emitted. -/
def Step.unpooled (x : Step) : Prop := dPoolW x.words = 1 ∧ (x.done = true → x.emis ≠ [])

/-- What the rest of a firing leaves: the numbering and the record of the firing, every buffer's waiting pips, and step `id`. -/
structure State.FireKeeps (ck id : Nat) (s t : State) : Prop where
  nextId : (t.mcSt ck).nextId = (s.mcSt ck).nextId
  steps : t.rf R.MCORE_STEPS ck = s.rf R.MCORE_STEPS ck
  stamp : t.rf R.MCORE1_LAST_FIRE_STAMP ck = s.rf R.MCORE1_LAST_FIRE_STAMP ck
  pips : ∀ k, (Tbl.getD t.bufs k {}).pips = (Tbl.getD s.bufs k {}).pips
  step : ∀ y, s.stepOf ck id = some y → y.unpooled → ∃ z, t.stepOf ck id = some z ∧ z.facts = y.facts ∧ z.unpooled

variable {ck id : Nat} {s t u : State}

theorem State.FireKeeps.refl (s : State) : s.FireKeeps ck id s := ⟨rfl, rfl, rfl, fun _ => rfl, fun y hy h => ⟨y, hy, rfl, h⟩⟩

theorem State.FireKeeps.trans (h : s.FireKeeps ck id t) (h' : t.FireKeeps ck id u) : s.FireKeeps ck id u where
  nextId := h'.nextId.trans h.nextId
  steps := h'.steps.trans h.steps
  stamp := h'.stamp.trans h.stamp
  pips := fun k => (h'.pips k).trans (h.pips k)
  step := fun y hy hu => by
    obtain ⟨z, hz, hf, hzu⟩ := h.step y hy hu
    obtain ⟨w, hw, hf', hwu⟩ := h'.step z hz hzu
    exact ⟨w, hw, hf'.trans hf, hwu⟩

theorem State.FireKeeps.each {α : Type} {f : State → α → State} (hf : ∀ (t : State) (a : α), t.FireKeeps ck id (f t a)) (l : List α) (s : State) :
    s.FireKeeps ck id (s.each l f) :=
  State.each_ind (s.FireKeeps ck id) (.refl s) fun a _ t h => h.trans (hf t a)

theorem State.FireKeeps.when {f : State → State} (h : s.FireKeeps ck id (f s)) (b : Bool) : s.FireKeeps ck id (s.when b f) := by
  cases b with
  | false => exact .refl s
  | true => exact h

/-- What changes neither the cores' steps nor the buffers nor the two fields that record a firing keeps it. -/
theorem State.fireKeeps_of (hmc : t.mc = s.mc) (hbufs : t.bufs = s.bufs) (hsteps : t.rf R.MCORE_STEPS ck = s.rf R.MCORE_STEPS ck)
    (hstamp : t.rf R.MCORE1_LAST_FIRE_STAMP ck = s.rf R.MCORE1_LAST_FIRE_STAMP ck) : s.FireKeeps ck id t where
  nextId := by rw [State.mcSt_of_mc hmc]
  steps := hsteps
  stamp := hstamp
  pips := fun k => by rw [hbufs]
  step := fun y hy h => ⟨y, by rw [State.stepOf_of_mc hmc, hy], rfl, h⟩

theorem State.fireKeeps_of_within {m : Nat} (h : s.Within m t) (hmc : m.testBit 118 = false) (hbufs : m.testBit 123 = false)
    (h0 : m.testBit R.MCORE_STEPS.area = false)
    (h1 : m.testBit R.MCORE1_LAST_FIRE_STAMP.area = false) : s.FireKeeps ck id t :=
  State.fireKeeps_of (h.mc hmc) (h.bufs hbufs) (h.rf (f := R.MCORE_STEPS) h0) (h.rf (f := R.MCORE1_LAST_FIRE_STAMP) h1)

/-! ### Registers, interrupts and messages -/

theorem State.fireKeeps_wf (f : Field) (i v k : Nat) (h0 : R.MCORE_STEPS.code ≠ f.code) (h1 : R.MCORE1_LAST_FIRE_STAMP.code ≠ f.code) :
    s.FireKeeps ck id (s.wf f i v k) :=
  State.fireKeeps_of (State.wf_mc _ _ _ _ _) (State.wf_bufs _ _ _ _ _) (State.rf_wf_of_code _ h0 _ _ _ _ _)
    (State.rf_wf_of_code _ h1 _ _ _ _ _)

theorem State.fireKeeps_inc (f : Field) (i n k : Nat) (h0 : R.MCORE_STEPS.code ≠ f.code) (h1 : R.MCORE1_LAST_FIRE_STAMP.code ≠ f.code) :
    s.FireKeeps ck id (s.inc f i n k) :=
  State.fireKeeps_of (State.inc_mc _ _ _ _ _) (State.inc_bufs _ _ _ _ _) (State.rf_inc_of_code _ h0 _ _ _ _ _)
    (State.rf_inc_of_code _ h1 _ _ _ _ _)

theorem State.bufs_setInt (s : State) (p : Page) (b : Nat) : (s.setInt p b).bufs = s.bufs := by
  unfold State.setInt State.setInts
  dsimp only
  split
  · rfl
  · have hw (t : State) : t.Within _ (t.irqUpdate p) := State.irqUpdate_frame (Sub.refl _) (t.frame_refl _)
    exact ((hw _).bufs (by decide)).trans ((State.wf_bufs _ _ _ _ _).trans (State.wf_bufs _ _ _ _ _))

theorem State.fireKeeps_setInt (p : Page) (b : Nat) : s.FireKeeps ck id (s.setInt p b) :=
  State.fireKeeps_of (s.mc_setInt p b) (s.bufs_setInt p b) (s.rf_setInt_plain p b (by decide) _ _) (s.rf_setInt_plain p b (by decide) _ _)

theorem State.fireKeeps_blockErr (n : Nat) (cause addr data ints : Nat) {p : Page}
    (hp : p = mcorePage n ∨ p = engPage n) : s.FireKeeps ck id (s.blockErr p cause addr data ints) := by
  have harea : (touch [1, 0x10, 0x12] [.irqLatch, .irqs, .staging, .lostStamps]).testBit p.area = true := by
    rcases hp with rfl | rfl
    · exact page_bit (Sub.refl _) rfl (by decide) (by decide)
    · exact page_bit (Sub.refl _) rfl (by decide) (by decide)
  have hw : s.Within (touch [1, 0x10, 0x12] [.irqLatch, .irqs, .staging, .lostStamps]) (s.blockErr p cause addr data ints) :=
    State.blockErr_frame (by decide) harea (s.frame_refl _)
  exact State.fireKeeps_of (hw.mc (by decide)) (hw.bufs (by decide)) (s.rf_blockErr_plain _ _ _ _ _ (by decide) _ _)
    (s.rf_blockErr_plain _ _ _ _ _ (by decide) _ _)

theorem State.fireKeeps_mesh (kind dest : Nat) (words : List Nat) : s.FireKeeps ck id (s.mesh kind dest words) :=
  have hw : s.Within 0xe000000000007800000003000000000002 (s.mesh kind dest words) := State.mesh_frame (Sub.refl _) (s.frame_refl _)
  State.fireKeeps_of_within hw (by decide) (by decide) (by decide) (by decide)

theorem State.fireKeeps_meshFrom (c kind dest gen : Nat) (words : List Nat) (bytes : Nat) :
    s.FireKeeps ck id (s.meshFrom c kind dest gen words bytes) :=
  have hw : s.Within 0xe000000000007800000003000000000002 (s.meshFrom c kind dest gen words bytes) :=
    State.meshFrom_frame (Sub.refl _) (s.frame_refl _)
  State.fireKeeps_of_within hw (by decide) (by decide) (by decide) (by decide)

theorem State.fireKeeps_grant (c : Nat) (r : CredReq) (n : Nat) : s.FireKeeps ck id (s.grant c r n) := State.fireKeeps_meshFrom _ _ _ _ _ _

theorem State.fireKeeps_setEng (e : Nat) (x : EngSt) : s.FireKeeps ck id (s.setEng e x) := State.fireKeeps_of rfl rfl rfl rfl

/-! ### Steps -/

theorem State.mcSt_setMc_ne {c : Nat} (h : ck ≠ c) (m : McSt) : (s.setMc c m).mcSt ck = s.mcSt ck := by
  have hw (t : State) : t.Within _ (t.mirrorMc c) := State.mirrorMc_frame (Sub.refl _) (t.frame_refl _)
  unfold State.setMc
  rw [State.mcSt_of_mc ((hw _).mc (by decide))]
  exact Tbl.getD_put_ne _ _ _ h

theorem State.bufs_setMc (c : Nat) (m : McSt) : (s.setMc c m).bufs = s.bufs := by
  have hw : s.Within _ (s.setMc c m) := State.setMc_frame (Sub.refl _) (s.frame_refl _)
  exact hw.bufs (by decide)

/-- A core's new steps keep the firing's record where they keep the numbering and step `id`. -/
theorem State.FireKeeps.setMc (hk : s.FireKeeps ck id t) (c : Nat) (m : McSt) (h : ck = c → m.nextId = (t.mcSt ck).nextId ∧
      ∀ y, s.stepOf ck id = some y → y.unpooled → ∃ z, m.steps.find? (fun x => x.id = id) = some z ∧ z.facts = y.facts ∧ z.unpooled) :
    s.FireKeeps ck id (t.setMc c m) := by
  have hmc : ck ≠ c → (t.setMc c m).mcSt ck = t.mcSt ck := fun hne => State.mcSt_setMc_ne hne m
  refine ⟨.trans ?_ hk.nextId, (t.rf_setMc c m (by decide) _ _).trans hk.steps, (t.rf_setMc c m (by decide) _ _).trans hk.stamp,
    fun k => by rw [State.bufs_setMc, hk.pips], fun y hy hu => ?_⟩
  · by_cases hc : ck = c
    · rw [← hc, State.mcSt_setMc, (h hc).1]
    · rw [hmc hc]
  · unfold State.stepOf
    by_cases hc : ck = c
    · rw [← hc, State.mcSt_setMc]
      exact (h hc).2 y hy hu
    · rw [hmc hc]
      exact hk.step y hy hu

theorem Step.id_of_facts {x y : Step} (h : x.facts = y.facts) : x.id = y.id := congrArg (fun p => p.1) h

theorem State.FireKeeps.setStep (hk : s.FireKeeps ck id t) (c i : Nat) {f : Step → Step} (hf : ∀ y, (f y).facts = y.facts)
    (hu : ck = c → i = id → ∀ x, s.stepOf ck id = some x → x.unpooled → ∀ y : Step, y.unpooled → (f y).unpooled) :
    s.FireKeeps ck id (t.setStep c i f) := by
  refine hk.setMc c _ fun hc => ⟨by rw [hc], fun x hx hxu => ?_⟩
  subst hc
  obtain ⟨y, hy, hyf, hyu⟩ := hk.step x hx hxu
  have hfind := (find_map_id (l := (t.mcSt ck).steps) (changed_id (id := i) fun y => Step.id_of_facts (hf y)) id).trans (congrArg _ hy)
  refine ⟨changed i f y, hfind, ?_, ?_⟩
  · unfold changed
    split
    · exact (hf y).trans hyf
    · exact hyf
  · unfold changed
    split
    · rename_i hid
      exact hu rfl (hid.symm.trans (State.stepOf_id hy)) x hx hxu y hyu
    · exact hyu

/-- A change of a step that lets its words and emissions alone. -/
theorem State.fireKeeps_setStep (c i : Nat) {f : Step → Step} (hf : ∀ y, (f y).facts = y.facts) (hu : ∀ y : Step, y.unpooled → (f y).unpooled) :
    s.FireKeeps ck id (s.setStep c i f) := State.FireKeeps.setStep (.refl s) c i hf fun _ _ _ _ _ => hu

theorem State.fireKeeps_setStepEng (c i n st : Nat) (vals : List Int) : s.FireKeeps ck id (s.setStepEng c i n st vals) :=
  State.fireKeeps_setStep c i (fun _ => rfl) fun _ h => h

theorem State.fireKeeps_holdTile (c i n : Nat) : s.FireKeeps ck id (s.holdTile c i n) :=
  State.fireKeeps_setStep c i (fun _ => rfl) fun _ h => h

theorem State.fireKeeps_unreserve (c stream : Nat) (needs : List (Nat × Nat)) : s.FireKeeps ck id (s.unreserve c stream needs) :=
  have hw : s.Within _ (s.unreserve c stream needs) := State.unreserve_frame (Sub.refl _) (s.frame_refl _)
  State.fireKeeps_of_within hw (by decide) (by decide) (by decide) (by decide)

theorem find_filter_ne {l : List Step} {i id : Nat} (h : id ≠ i) :
    (l.filter fun y => y.id ≠ i).find? (fun x => x.id = id) = l.find? fun x => x.id = id := by
  rw [List.find?_filter]
  congr 1
  funext y
  by_cases hy : y.id = id
  · simp [hy, h]
  · simp [hy]

theorem State.fireKeeps_retireStep (c i : Nat) : s.FireKeeps ck id (s.retireStep c i) := by
  unfold State.retireStep
  split
  · exact .refl s
  · rename_i x hx
    dsimp only
    split
    · rename_i hover
      have hunres : s.FireKeeps ck id (s.unreserve c x.out x.reserved) := State.fireKeeps_unreserve c _ _
      have hw : s.Within _ (s.unreserve c x.out x.reserved) := State.unreserve_frame (Sub.refl _) (s.frame_refl _)
      refine hunres.setMc c _ fun hc => ⟨by rw [hc], fun y hy hu => ⟨y, ?_, rfl, hu⟩⟩
      subst hc
      refine (find_filter_ne fun he => ?_).trans ((State.stepOf_of_mc (hw.mc (by decide)) ck id).trans hy)
      rw [he, hx] at hy
      obtain rfl := Option.some.inj hy
      simp only [Bool.and_eq_true, List.isEmpty_iff] at hover
      exact hu.2 hover.1.1 hover.1.2
    · exact .refl s

/-! ### Buffers, R179 -/

theorem State.fireKeeps_setBuf (c i : Nat) {b : BufSt} (h : b.pips = (s.buf c i).pips) : s.FireKeeps ck id (s.setBuf c i b) where
  nextId := rfl
  steps := rfl
  stamp := rfl
  pips := fun k => by
    show (Tbl.getD (Tbl.put s.bufs (bufKey c i) b) k {}).pips = _
    by_cases hk : k = bufKey c i
    · rw [hk, Tbl.getD_put_same, h]
      rfl
    · rw [Tbl.getD_put_ne _ _ _ hk]
  step := fun y hy hu => ⟨y, hy, rfl, hu⟩

theorem State.fireKeeps_serveQueue (c i fuel : Nat) : s.FireKeeps ck id (s.serveQueue c i fuel) := by
  induction fuel generalizing s with
  | zero => exact .refl s
  | succ fuel ih =>
    unfold State.serveQueue
    dsimp only
    split
    · exact .refl s
    · split
      · exact .refl s
      · refine .trans (.trans ?_ (State.fireKeeps_grant _ _ _)) ih
        exact State.fireKeeps_setBuf c i rfl

theorem State.fireKeeps_slotSub (src n : Nat) : s.FireKeeps ck id (s.slotSub src n) :=
  have hw : s.Within _ (s.slotSub src n) := State.slotSub_frame (Sub.refl _) (s.frame_refl _)
  State.fireKeeps_of_within hw (by decide) (by decide) (by decide) (by decide)

theorem State.fireKeeps_freeSet (c i : Nat) (ps : List Pip) : s.FireKeeps ck id (s.freeSet c i ps) := by
  refine State.FireKeeps.each (fun t p => ?_) ps s
  unfold State.freePip
  dsimp only
  split
  · exact State.fireKeeps_meshFrom _ _ _ _ _ _
  · refine .trans (.trans ?_ (State.fireKeeps_slotSub _ _)) (State.fireKeeps_serveQueue _ _ _)
    exact State.fireKeeps_setBuf c i rfl

end Sys2Proof.Machine
end

section
/-! A step fires (R171, R174, R176 to R184; O18). -/

namespace Sys2Proof.Machine

variable {ck id : Nat} {s t u : State}

/-! ### The outputs of a step settled, R179, R193 -/

theorem State.fireKeeps_tileFailed (c : Nat) : s.FireKeeps ck id (s.tileFailed c) :=
  .trans (State.fireKeeps_inc R.MCORE_FAILED_TILES _ _ _ (by decide) (by decide)) (State.fireKeeps_setInt _ _)

theorem State.fireKeeps_rangeViolation (c : Nat) (x : Step) (seq : Nat) (nf : Bool) : s.FireKeeps ck id (s.rangeViolation c x seq nf) := by
  unfold State.rangeViolation
  dsimp only
  refine State.each_ind (s.FireKeeps ck id) ?_ fun r _ t h => h.trans (State.fireKeeps_of rfl rfl rfl rfl)
  refine .trans ?_ (State.fireKeeps_mesh _ _ _)
  refine .trans ?_ (State.fireKeeps_setStep _ _ (fun _ => rfl) fun _ h => h)
  refine .trans ?_ (State.fireKeeps_wf R.MCORE_RANGE_NONFINITE _ _ _ (by decide) (by decide))
  refine .trans ?_ (State.fireKeeps_wf R.MCORE_RANGE_DESC _ _ _ (by decide) (by decide))
  refine .trans ?_ (State.fireKeeps_wf R.MCORE_RANGE_SEQ _ _ _ (by decide) (by decide))
  refine .trans ?_ (State.fireKeeps_wf R.MCORE_RANGE_STREAM _ _ _ (by decide) (by decide))
  refine .trans ?_ (State.fireKeeps_wf R.MCORE_LAST_RANGE_STAMP _ _ _ (by decide) (by decide))
  refine .trans ?_ (State.fireKeeps_setInt _ _)
  exact State.fireKeeps_inc R.MCORE_RANGE_VIOL _ _ _ (by decide) (by decide)

theorem State.fireKeeps_rangeCheck (c : Nat) (x : Step) (ems : List Emission) : s.FireKeeps ck id (s.rangeCheck c x ems) := by
  unfold State.rangeCheck
  dsimp only
  split
  · exact .refl s
  · exact State.fireKeeps_rangeViolation _ _ _ _

theorem State.fireKeeps_freeStep (c i : Nat) : s.FireKeeps ck id (s.freeStep c i) := by
  unfold State.freeStep
  split
  · exact .refl s
  · split
    · exact .refl s
    · exact .trans (State.fireKeeps_freeSet _ _ _) (State.fireKeeps_setStep _ _ (fun _ => rfl) fun _ h => h)

theorem State.fireKeeps_poolSave (c : Nat) (w : List Nat) (slot : Nat) (st : PoolSt) : s.FireKeeps ck id (s.poolSave c w slot st) :=
  have hw : s.Within _ (s.poolSave c w slot st) := State.poolSave_frame (Sub.refl _) (s.frame_refl _)
  State.fireKeeps_of_within hw (by decide) (by decide) (by decide) (by decide)

/-- R190: what a settled step emits: pooled with the set before, or its values at once. -/
def State.emitted (s : State) (c : Nat) (x : Step) (vals : List Nat) (hollow pool : Bool) : List Emission × State :=
  if pool && dPoolW x.words ≠ 1 then
    let r := poolStep (dPoolW x.words) (dPoolT x.words) (wf_ x.words 2 42 2)
      (s.poolLoad c x.words x.slot (Tbl.getD s.pools (poolKey c x.words x.slot) {})) vals hollow x.epoch x.last
    (r.1, s.poolSave c x.words x.slot r.2)
  else ([{ idx := x.n, epoch := x.epoch, vals := vals, hollow := hollow }], s)

theorem State.settle_of_some {c i : Nat} {x : Step} (hx : s.stepOf c i = some x) (vals : List Nat) (hollow pool : Bool) :
    s.settle c i vals hollow pool =
      (((((s.emitted c x vals hollow pool).2.rangeCheck c x (s.emitted c x vals hollow pool).1).freeStep c i).setStep c i fun y =>
        { y with done := true, emis := (s.emitted c x vals hollow pool).1 }).retireStep c i) := by
  unfold State.settle
  rw [hx]
  rfl

theorem State.fireKeeps_emitted (c : Nat) (x : Step) (vals : List Nat) (hollow pool : Bool) :
    s.FireKeeps ck id (s.emitted c x vals hollow pool).2 := by
  unfold State.emitted
  split
  · exact State.fireKeeps_poolSave _ _ _ _
  · exact .refl s

theorem State.emitted_unpooled {x : Step} (h : dPoolW x.words = 1) (c : Nat) (vals : List Nat) (hollow pool : Bool) :
    (s.emitted c x vals hollow pool).1 ≠ [] := by
  unfold State.emitted
  rw [if_neg (by simp [h])]
  exact List.cons_ne_nil _ _

theorem Step.words_of_facts {x y : Step} (h : x.facts = y.facts) : x.words = y.words := congrArg (fun p => p.2.2.1) h

theorem State.fireKeeps_settle (c i : Nat) (vals : List Nat) (hollow pool : Bool) : s.FireKeeps ck id (s.settle c i vals hollow pool) := by
  cases hx : s.stepOf c i with
  | none =>
    unfold State.settle
    rw [hx]
    exact .refl s
  | some x =>
    rw [State.settle_of_some hx]
    obtain ⟨r, hr⟩ : ∃ r, r = s.emitted c x vals hollow pool := ⟨_, rfl⟩
    rw [← hr]
    have hbefore : s.FireKeeps ck id ((r.2.rangeCheck c x r.1).freeStep c i) := by
      rw [hr]
      exact .trans (.trans (State.fireKeeps_emitted _ _ _ _ _) (State.fireKeeps_rangeCheck _ _ _)) (State.fireKeeps_freeStep _ _)
    refine .trans (hbefore.setStep c i (f := fun y => { y with done := true, emis := r.1 }) (fun _ => rfl)
      fun hc hi y hy hyu z hz => ⟨hz.1, fun _ => ?_⟩) (State.fireKeeps_retireStep _ _)
    subst hc hi
    rw [hx] at hy
    obtain rfl := Option.some.inj hy
    rw [hr]
    exact State.emitted_unpooled hyu.1 _ _ _ _

/-! ### A step's tiles, R182, R184, R185 -/

theorem State.fireKeeps_checkStep (c i : Nat) : s.FireKeeps ck id (s.checkStep c i) := by
  unfold State.checkStep
  split
  · exact .refl s
  · split
    · exact .refl s
    · split
      · exact State.fireKeeps_freeStep _ _
      · split
        · exact State.fireKeeps_settle _ _ _ _ _
        · exact State.fireKeeps_settle _ _ _ _ _

theorem State.fireKeeps_accumulate (e : Nat) (x : Tile) (c : Conv) (rs : List Int) (n : Nat) : s.FireKeeps ck id (s.accumulate e x c rs n) :=
  State.fireKeeps_setEng _ _

theorem State.fireKeeps_skipZero (e fuel : Nat) : s.FireKeeps ck id (s.skipZero e fuel) := by
  induction fuel generalizing s with
  | zero => exact .refl s
  | succ fuel ih =>
    unfold State.skipZero
    dsimp only
    split
    · exact .refl s
    · split
      · exact .refl s
      · split
        · exact .trans (.trans (State.fireKeeps_accumulate _ _ _ _ _) (State.fireKeeps_setEng _ _)) ih
        · exact .refl s

theorem State.fireKeeps_beginTile (e : Nat) (x : Tile) : s.FireKeeps ck id (s.beginTile e x) :=
  .trans (.trans (State.fireKeeps_setEng _ _) (State.fireKeeps_wf R.ENG_ACTIVE _ _ _ (by decide) (by decide))) (State.fireKeeps_skipZero _ _)

theorem State.fireKeeps_endTile (e : Nat) : s.FireKeeps ck id (s.endTile e).1 := by
  unfold State.endTile
  split
  · exact .refl s
  · exact .trans (.trans (State.fireKeeps_inc R.ENG_TILE_COUNT _ _ _ (by decide) (by decide))
      (.when (State.fireKeeps_inc R.ENG_REPEAT_CYCLES _ _ _ (by decide) (by decide)) _)) (State.fireKeeps_setEng _ _)

/-- R442: the engine runs a tile for a check of another's. -/
def State.asTwin (s : State) (e : Nat) (x : Tile) : Bool :=
  match s.stepOf (engCore e) x.step with
  | some y => y.checks.any fun c => c.path = 1 && c.twin = engNum e
  | none => false

/-- R442: a check takes the values of its twin. -/
def Check.fromTwin (e : Nat) (vals : List Int) (c : Check) : Check :=
  if c.path = 1 && c.twin = engNum e then { c with twinVals := some vals } else c

theorem State.tileDone_over {e : Nat} {x : Tile} (hx : (s.engSt e).tile = some x) (htodo : x.todo = []) :
    s.tileDone e =
      if (s.endTile e).2.2 then
        (if s.asTwin e x then (s.endTile e).1 else (s.endTile e).1.setStep (engCore e) x.step fun y => { y with raised := true }).beginTile e
          { x with todo := x.all, comp := none, clipped := false }
      else if s.asTwin e x then
        (s.endTile e).1.setStep (engCore e) x.step fun y => { y with checks := y.checks.map (Check.fromTwin e (s.endTile e).2.1) }
      else ((s.endTile e).1.setStepEng (engCore e) x.step (engNum e) 3 (s.endTile e).2.1).checkStep (engCore e) x.step := by
  unfold State.tileDone
  rw [hx]
  dsimp only
  rw [htodo]
  rfl

theorem State.fireKeeps_tileDone (e : Nat) : s.FireKeeps ck id (s.tileDone e) := by
  have hend : s.FireKeeps ck id (s.endTile e).1 := State.fireKeeps_endTile e
  cases hx : (s.engSt e).tile with
  | none =>
    unfold State.tileDone
    rw [hx]
    exact .refl s
  | some x =>
    cases htodo : x.todo with
    | cons c rest =>
      rw [State.tileDone_running hx (by rw [htodo]; exact List.cons_ne_nil _ _)]
      exact .refl s
    | nil =>
      rw [State.tileDone_over hx htodo]
      split
      · refine .trans ?_ (State.fireKeeps_beginTile _ _)
        split
        · exact hend
        · exact hend.setStep _ _ (fun _ => rfl) fun _ _ _ _ _ _ h => h
      · split
        · exact hend.setStep _ _ (fun _ => rfl) fun _ _ _ _ _ _ h => h
        · exact .trans (.trans hend (State.fireKeeps_setStepEng _ _ _ _ _)) (State.fireKeeps_checkStep _ _)

theorem State.fireKeeps_drainTiles (c : Nat) : s.FireKeeps ck id (s.drainTiles c) :=
  .each (fun t n => by
    split
    · exact State.fireKeeps_tileDone _
    · exact .refl t) _ s

theorem State.fireKeeps_startTile (c : Nat) (x : Step) (n ep : Nat) : s.FireKeeps ck id (s.startTile c x n ep).2 := by
  unfold State.startTile
  dsimp only
  split
  · dsimp only
    refine .trans ?_ (State.fireKeeps_tileFailed _)
    exact State.fireKeeps_blockErr (engInst c n) _ _ _ _ (.inr rfl)
  · refine .trans (.trans (.trans ?convs (.when ?split _)) (.when ?wider _)) (State.fireKeeps_beginTile _ _)
    case wider =>
      refine .trans ?_ (State.fireKeeps_setInt _ _)
      exact State.fireKeeps_inc R.MCORE_ACT_WIDENED _ _ _ (by decide) (by decide)
    case split =>
      refine .trans ?_ (State.fireKeeps_setInt _ _)
      exact State.fireKeeps_inc R.ENG_SPLITS _ _ _ (by decide) (by decide)
    case convs =>
      refine .trans ?_ (State.fireKeeps_inc R.MCORE_SPLIT_EXTRA _ _ _ (by decide) (by decide))
      exact State.fireKeeps_inc R.MCORE_SHIFTED _ _ _ (by decide) (by decide)

theorem State.fireKeeps_beginCheck (c n ep : Nat) (x : Step) : s.FireKeeps ck id (s.beginCheck c n ep x) := by
  have hadd (v : State) (k : Check) : v.FireKeeps ck id (v.setStep c x.id fun y => { y with checks := y.checks ++ [k] }) :=
    State.fireKeeps_setStep _ _ (fun _ => rfl) fun _ h => h
  unfold State.beginCheck
  dsimp only
  split
  · exact .refl s
  · split
    · refine .trans (.trans (.trans ?_ (.when (State.fireKeeps_setInt _ _) _)) (hadd _ _)) (State.fireKeeps_beginTile _ _)
      exact State.fireKeeps_inc R.ENG_SPLITS _ _ _ (by decide) (by decide)
    · split
      · exact .trans (hadd _ _) (State.fireKeeps_mesh _ _ _)
      · exact State.fireKeeps_inc R.MCORE1_REEXEC_SKIPPED _ _ _ (by decide) (by decide)

end Sys2Proof.Machine
end

section
/-! STEP_FIRE, and every clause of the matrix cores' steps together (O18). -/

namespace Sys2Proof.Machine

variable {s : State} {ck d n : Nat}

/-! ### Firing, R171, R174, R176 -/

/-- What a set needs before it fires, as `State.setNeeds` gives it. -/
abbrev Needs : Type := List Nat × List Pip × Option (Nat × Bool × Nat) × List (Nat × Nat)

/-- The pips of set `n` taken out of the waiting ones, and its credits reserved, counted and stamped, R176, R200. -/
def State.setTaken (s : State) (ck d n : Nat) (r : Needs) : State :=
  (((s.setBuf ck d { s.buf ck d with pips := (s.buf ck d).pips.filter fun p =>
        !(setPips (dInPips r.1) n (s.buf ck d).pips).contains p }).reserve ck (outStreamOf r.1 r.2.2.1) r.2.2.2).inc R.MCORE_STEPS ck).wf
    R.MCORE1_LAST_FIRE_STAMP ck s.now

/-- The new step `x` runs. -/
def State.stepStarted (s : State) (ck d n : Nat) (r : Needs) (x : Step) : State :=
  (s.setTaken ck d n r).setMc ck { s.mcSt ck with nextId := (s.mcSt ck).nextId + 1, steps := (s.mcSt ck).steps ++ [x] }

/-- R172, R176: the new step before its input is read. -/
def State.newStep (s : State) (ck d n : Nat) (r : Needs) : Step :=
  { id := (s.mcSt ck).nextId, desc := d, words := r.1, seed := (r.2.2.1.getD (0, false, 0)).1, det := (r.2.2.1.getD (0, false, 0)).2.1,
    slot := (r.2.2.1.getD (0, false, 0)).2.2, pips := r.2.1, n := n, reserved := r.2.2.2, firedAt := s.elapsed,
    out := outStreamOf r.1 r.2.2.1 }

/-- R180: the new step with its input read. -/
def State.readStep (s : State) (ck d n : Nat) (r : Needs) (v : List (Int × Nat) × Bool) : Step :=
  { s.newStep ck d n r with
    xref := xrefOf v.1, engs := (dEngines r.1).map (fun e => { eng := e, state := 0, buf := (s.mcSt ck).freeBuf e }), rangeEx := v.2 }

/-- R161, R185, R442: one tile of a step starts, or is held. -/
def State.ranTile (t : State) (ck : Nat) (y : Step) (e : Nat) : State :=
  if t.unavailable (engInst ck e) y.epoch then t.holdTile ck y.id e
  else if (t.startTile ck y e y.epoch).1 then (t.startTile ck y e y.epoch).2.beginCheck ck e y.epoch y
  else (t.startTile ck y e y.epoch).2.setStepEng ck y.id e 4 []

/-- R180: a step whose input is read runs its tiles. -/
def State.ranStep (t : State) (ck : Nat) (y : Step) : State :=
  (((t.when y.rangeEx fun u => (u.inc R.MCORE_RANGE_EXCEEDED ck).setInt (mcorePage ck) R.INT_MCORE_RANGE_EXCEEDED).each (dEngines y.words)
    fun u e => u.ranTile ck y e).drainTiles ck).checkStep ck y.id

/-- R180: the elements of a set's pips, none where an M-core does not take their format. -/
def elementsOf (ps : List Pip) : List (Int × Nat) × Bool := if fmtOk ps then inputVector ps else ([], false)

/-- R171, R174, R176 to R184: what becomes of the new step. -/
def State.firedOn (s : State) (ck d n : Nat) (r : Needs) : State :=
  let x := s.newStep ck d n r
  let u := s.stepStarted ck d n r x
  let layer := wf_ r.1 6 0 16
  let zero := List.replicate (stepChannels r.1) 0
  if malformed r.1 then (u.blockErr (mcorePage ck) 0x14 d layer (2 ^ R.INT_MCORE_BAD_DESCRIPTOR)).settle ck x.id zero true false
  else if r.2.2.1.isNone then
    (u.blockErr (mcorePage ck) 0x13 (wf_ r.1 1 0 16) layer (2 ^ R.INT_MCORE_NO_STREAM)).settle ck x.id zero true false
  else if r.2.1.any fun p => p.epoch ≠ x.epoch || p.gen ≠ (r.2.1.head?.map (·.gen)).getD 0 then
    ((u.tileFailed ck).blockErr (mcorePage ck) 0x11 d layer 0).settle ck x.id zero true
  else if r.2.1.any (·.hollow) then u.settle ck x.id zero true
  else if (elementsOf r.2.1).1.length ≠ dGang r.1 * dRows r.1 then
    ((u.tileFailed ck).blockErr (mcorePage ck) 0x10 d layer 0).settle ck x.id zero true
  else (s.stepStarted ck d n r (s.readStep ck d n r (elementsOf r.2.1))).ranStep ck (s.readStep ck d n r (elementsOf r.2.1))

theorem State.fire_is (hdest : dDest (s.setNeeds ck d n).1 0 ≠ 0xFFFF) : s.fire ck d n = s.firedOn ck d n (s.setNeeds ck d n) := by
  unfold State.fire
  generalize s.setNeeds ck d n = r at hdest ⊢
  obtain ⟨w, ps, ent, needs⟩ := r
  dsimp only
  rw [if_neg (fun h => hdest h.2)]
  rfl

theorem State.fireKeeps_ranTile {id : Nat} {t : State} (y : Step) (e : Nat) : t.FireKeeps ck id (t.ranTile ck y e) := by
  unfold State.ranTile
  split
  · exact State.fireKeeps_holdTile _ _ _
  · split
    · exact .trans (State.fireKeeps_startTile _ _ _ _) (State.fireKeeps_beginCheck _ _ _ _)
    · exact .trans (State.fireKeeps_startTile _ _ _ _) (State.fireKeeps_setStepEng _ _ _ _ _)

theorem State.fireKeeps_ranStep {id : Nat} {t : State} (y : Step) : t.FireKeeps ck id (t.ranStep ck y) := by
  unfold State.ranStep
  refine .trans (.trans (.trans (.when ?_ _) (.each (fun u e => State.fireKeeps_ranTile y e) _ _)) (State.fireKeeps_drainTiles _))
    (State.fireKeeps_checkStep _ _)
  refine .trans ?_ (State.fireKeeps_setInt _ _)
  exact State.fireKeeps_inc R.MCORE_RANGE_EXCEEDED _ _ _ (by decide) (by decide)

/-- R184: a firing is the new step's start and what keeps its record. -/
theorem State.fireKeeps_firedOn (s : State) (ck d n : Nat) (r : Needs) :
    ∃ x : Step, x.facts = (s.newStep ck d n r).facts ∧ x.done = false ∧
      (s.stepStarted ck d n r x).FireKeeps ck (s.mcSt ck).nextId (s.firedOn ck d n r) := by
  have herr (u : State) (cause addr data ints : Nat) (zero : List Nat) (i : Nat) (pool : Bool) :
      u.FireKeeps ck (s.mcSt ck).nextId ((u.blockErr (mcorePage ck) cause addr data ints).settle ck i zero true pool) :=
    .trans (State.fireKeeps_blockErr ck _ _ _ _ (.inl rfl)) (State.fireKeeps_settle _ _ _ _ _)
  have hfailed (u : State) (cause addr data ints : Nat) (zero : List Nat) (i : Nat) (pool : Bool) :
      u.FireKeeps ck (s.mcSt ck).nextId (((u.tileFailed ck).blockErr (mcorePage ck) cause addr data ints).settle ck i zero true pool) :=
    .trans (State.fireKeeps_tileFailed ck) (herr _ _ _ _ _ _ _ _)
  unfold State.firedOn
  dsimp only
  split
  · exact ⟨s.newStep ck d n r, rfl, rfl, herr _ _ _ _ _ _ _ _⟩
  · split
    · exact ⟨s.newStep ck d n r, rfl, rfl, herr _ _ _ _ _ _ _ _⟩
    · split
      · exact ⟨s.newStep ck d n r, rfl, rfl, hfailed _ _ _ _ _ _ _ _⟩
      · split
        · exact ⟨s.newStep ck d n r, rfl, rfl, State.fireKeeps_settle _ _ _ _ _⟩
        · split
          · exact ⟨s.newStep ck d n r, rfl, rfl, hfailed _ _ _ _ _ _ _ _⟩
          · exact ⟨s.readStep ck d n r _, rfl, rfl, State.fireKeeps_ranStep _⟩

theorem State.fireKeeps_creditWatch {id : Nat} (c : Nat) : s.FireKeeps ck id (s.creditWatch c) := by
  have hsame (w : Option Nat) : s.FireKeeps ck id (s.setMc c { s.mcSt c with waitAt := w }) := by
    refine State.FireKeeps.setMc (.refl s) c _ fun hc => ⟨by rw [hc], fun y hy hu => ⟨y, ?_, rfl, hu⟩⟩
    rw [← hc]
    exact hy
  unfold State.creditWatch
  split
  · exact .refl s
  · dsimp only
    split
    · exact hsame _
    · refine .trans (hsame none) ?_
      exact State.fireKeeps_inc R.MCORE_CREDIT_WAIT _ _ _ (by decide) (by decide)
    · exact .refl s

/-! ### The record of a firing, R176, R200 -/

theorem State.rf_reserve (s : State) (c stream : Nat) (needs : List (Nat × Nat)) (g : Field) (j l : Nat) :
    (s.reserve c stream needs).rf g j l = s.rf g j l := by
  refine State.each_eq (fun t => t.rf g j l) (fun x _ t => ?_) s
  split
  · rfl
  · rfl

theorem State.mcSt_stepStarted (s : State) (ck d n : Nat) (r : Needs) (x : Step) : (s.stepStarted ck d n r x).mcSt ck =
    { s.mcSt ck with nextId := (s.mcSt ck).nextId + 1, steps := (s.mcSt ck).steps ++ [x] } := State.mcSt_setMc _ _ _

theorem State.stepOf_stepStarted {id : Nat} {x : Step} (hnew : s.stepOf ck id = none) (hid : x.id = id) (d n : Nat) (r : Needs) :
    (s.stepStarted ck d n r x).stepOf ck id = some x := by
  unfold State.stepOf at hnew ⊢
  rw [State.mcSt_stepStarted, List.find?_append, hnew, Option.none_or, List.find?_singleton, hid, if_pos (by simp)]

theorem State.pips_stepStarted (s : State) (ck d n : Nat) (r : Needs) (x : Step) :
    ((s.stepStarted ck d n r x).buf ck d).pips =
      (s.buf ck d).pips.filter fun p => !(setPips (dInPips r.1) n (s.buf ck d).pips).contains p := by
  have hres (u : State) (a b : Nat) (l : List (Nat × Nat)) : u.Within _ (u.reserve a b l) := State.reserve_frame (Sub.refl _) (u.frame_refl _)
  unfold State.stepStarted State.setTaken State.buf
  rw [State.bufs_setMc, State.wf_bufs, State.inc_bufs, (hres _ _ _ _).bufs (by decide)]
  exact congrArg BufSt.pips (Tbl.getD_put_same _ _ _ _)

theorem State.steps_stepStarted (s : State) (ck d n : Nat) (r : Needs) (x : Step) :
    (s.stepStarted ck d n r x).rf R.MCORE_STEPS ck = (s.rf R.MCORE_STEPS ck + 1) % 2 ^ 64 ∧
      (s.stepStarted ck d n r x).rf R.MCORE1_LAST_FIRE_STAMP ck = s.now % 2 ^ 64 := by
  have hbuf (u : State) (i : Nat) (b : BufSt) (g : Field) (j : Nat) : (u.setBuf ck i b).rf g j = u.rf g j := rfl
  unfold State.stepStarted
  rw [State.rf_setMc _ _ _ (by decide), State.rf_setMc _ _ _ (by decide)]
  unfold State.setTaken
  constructor
  · rw [State.rf_wf_of_code _ (by decide), State.rf_inc_wrap _ _ (by decide), State.rf_reserve, hbuf]
    rfl
  · exact State.rf_wf_same _ _ _ _ _

theorem stepFire_completes {ck a d n : Nat} {s : State} (hready : firstReady ((s.ableSets ck).filter (s.paidSet ck)) = some (a, d, n))
    (hdest : dDest (s.descWords ck d) 0 ≠ 0xFFFF) (hnew : s.stepOf ck (s.mcSt ck).nextId = none) :
    Completes (.stepFire ck) s fun t =>
      (t.mcSt ck).nextId = (s.mcSt ck).nextId + 1 ∧
      t.rf R.MCORE_STEPS ck = (s.rf R.MCORE_STEPS ck + 1) % 2 ^ 64 ∧ t.rf R.MCORE1_LAST_FIRE_STAMP ck = s.now % 2 ^ 64 ∧
      (t.buf ck d).pips = ((s.buf ck d).pips.filter fun p => !(setPips (dInPips (s.descWords ck d)) n (s.buf ck d).pips).contains p) ∧
      (dPoolW (s.descWords ck d) = 1 → ∃ y, t.stepOf ck (s.mcSt ck).nextId = some y ∧ y.desc = d ∧ y.words = s.descWords ck d ∧ y.n = n ∧
        y.firedAt = s.elapsed ∧ y.pips = (setPips (dInPips (s.descWords ck d)) n (s.buf ck d).pips).map (s.bufGet ck)) := by
  have hwords : (s.setNeeds ck d n).1 = s.descWords ck d := rfl
  have hpips : (s.setNeeds ck d n).2.1 = (setPips (dInPips (s.descWords ck d)) n (s.buf ck d).pips).map (s.bufGet ck) := rfl
  refine completes_of_next rfl ?_
  have hfire : s.stepFire ck = s.firedOn ck d n (s.setNeeds ck d n) := by
    unfold State.stepFire
    dsimp only
    rw [hready]
    exact State.fire_is hdest
  rw [hfire]
  obtain ⟨r, hr⟩ : ∃ r, r = s.setNeeds ck d n := ⟨_, rfl⟩
  rw [← hr] at hwords hpips ⊢
  obtain ⟨x, hfacts, hdone, hkeep⟩ := State.fireKeeps_firedOn s ck d n r
  have hk := hkeep.trans (State.fireKeeps_creditWatch (ck := ck) ck)
  obtain ⟨hsteps, hstamp⟩ := s.steps_stepStarted ck d n r x
  refine ⟨?_, hk.steps.trans hsteps, hk.stamp.trans hstamp, ?_, fun hpool => ?_⟩
  · rw [hk.nextId, State.mcSt_stepStarted]
  · rw [← hwords]
    exact (hk.pips (bufKey ck d)).trans (s.pips_stepStarted ck d n r x)
  · have hxw : x.words = s.descWords ck d := (Step.words_of_facts hfacts).trans hwords
    have hstarted := State.stepOf_stepStarted (x := x) hnew (Step.id_of_facts hfacts) d n r
    obtain ⟨y, hy, hyf, -⟩ := hk.step x hstarted ⟨by rw [hxw, hpool], fun h => absurd (hdone.symm.trans h) Bool.false_ne_true⟩
    simp only [Step.facts, State.newStep, Prod.mk.injEq] at hfacts hyf
    obtain ⟨-, hd, hw, hn, hf, hp⟩ := hfacts
    obtain ⟨-, hyd, hyw, hyn, hyf, hyp⟩ := hyf
    exact ⟨y, hy, hyd.trans hd, hyw.trans (hw.trans hwords), hyn.trans hn, hyf.trans hf, hyp.trans (hp.trans hpips)⟩

/-- Settles O18: each of the commands of a matrix core's steps by its own lemma. -/
theorem matrixCoreStepsComplete : Obligations.MatrixCoreStepsComplete := by
  unfold Obligations.MatrixCoreStepsComplete
  exact ⟨fun _ _ _ _ _ hready hdest hnew => stepFire_completes hready hdest hnew,
    fun _ _ _ _ _ _ _ _ _ ht htodo hskip hraw hb hr => subStepEnd_completes ht htodo hskip hraw hb hr,
    fun _ _ _ _ _ hfirst hx hem => postUnitDone_completes hfirst hx hem,
    fun _ _ _ _ _ _ _ hx hsent hother => standinResult_completes hx hsent hother,
    fun _ _ _ _ _ _ _ _ hx hc hg hidle hstate hagree hbusy => reexecCheckDone_completes hx hc hg hidle hstate hagree hbusy,
    fun _ _ _ _ hx hg hstate hlate hsince => holdTimeout_completes hx hg hstate hlate hsince,
    fun _ _ _ _ _ hx hg hstate hlate hnone hv => slowVcoreNamed_completes hx hg hstate hlate hnone hv⟩

end Sys2Proof.Machine
end
